-- ==== Sys2Proof/Word.lean ====
section
/-! DEFINITION. The word types of the Ozlia 96G model (spec/00 R1 to R7). -/

set_option Elab.async false

namespace Sys2Proof

/-- One byte. -/
abbrev Byte := BitVec 8
/-- A string of bytes, the byte at the lowest address first. -/
abbrev Bytes := List Byte
/-- A 16-bit field (u16, i16 or a code). -/
abbrev U16 := BitVec 16
/-- A 32-bit field (u32, i32, a 32-bit time or a counter of R7). -/
abbrev U32 := BitVec 32
/-- A 64-bit field. -/
abbrev U64 := BitVec 64
/-- The 32 bits of an IEEE 754 binary32 value (R2). -/
abbrev F32 := BitVec 32
/-- The 64 bits of an IEEE 754 binary64 value (R179). -/
abbrev F64 := BitVec 64

end Sys2Proof
end

