-- ==== Sys2Proof/Syntax.lean ====
section
/-! DEFINITION. The commands of the Ozlia 96G: one constructor of `Instr` per row of the opcode table. A command
of the command port's catalogue names only the transport whose oldest waiting request is carried out; the
request's bytes are state. An event of the part carries the indexes it concerns and what the world outside
the part brings to it (levels, measured values, received frames). -/

namespace Sys2Proof

/-- Where a request came from (R43, R67): the command port, or a UDP session of ETH0 (0) or ETH1 (1), the
session 0 being that of a session open (R68). -/
inductive Transport where
  | cmd
  | udp (port : Nat) (session : U32)
deriving DecidableEq, Repr


/-- What a lane of the isolation link does to a frame (R436, R438): the bits it flips, by octet, and how many octets arrive. -/
structure LaneErr where
  flips : Bytes
  len   : Nat
deriving DecidableEq, Repr

/-- A valid CAN frame as a receiver sees it (R468): identifier with IDE and RTR as in a message entry, format bits, data length code, data. -/
structure CanFrame where
  id   : U32
  fdf  : Bool
  brs  : Bool
  esi  : Bool
  dlc  : Nat
  data : Bytes
deriving DecidableEq, Repr

/-- How ISO 11898-1:2015 counts an error (R475): a receiver's error; a dominant bit after a receiver's error flag, or an
error in its flag; a transmitter's error flag; an error in a transmitter's flag; an error that counts for none. -/
inductive CanCount where
  | receiver | receiverFlag | transmitter | transmitterFlag | none
deriving DecidableEq, Repr

/-- What a word that the scrubber reads is used for, where its use decides the reaction of R530. -/
inductive WordUse where
  | none
  | set (k : Nat)
  | history (ch : Nat)
  | logEntry (i : Nat)
  | canTx (p e : Nat)
  | canRx (p e : Nat)
  | sageCopy (copy reg : Nat)
deriving DecidableEq, Repr

/-- Instructions of the JTAG port by the names R548 gives them; the spec gives no codes. -/
inductive JtagInstr where
  | bypass | idcode | sample | extest | intest | clamp | other
deriving DecidableEq, Repr

/-- The commands, in the order of the opcode table. -/
inductive Instr where
  /-- REQUEST_WRITE (R45). A command-port transaction with start byte 0xC5 ends at the rise of CMD_CS_N; the request packet is taken into the request queue, or refused or truncated. -/
  | requestWrite (cpol : Bool) (bytes : Bytes)
  /-- REPLY_READ (R46). A command-port transaction with first byte 0x3A clocks out the reply at the head of the queue, which leaves the queue only when fully read; a waiting completion reply then enters the queue. -/
  | replyRead (cpol : Bool) (n : Nat)
  /-- STATUS_POLL (R43). A command-port transaction with first byte 0x00 exchanges only the port status byte. -/
  | statusPoll (cpol : Bool) (n : Nat)
  /-- UNKNOWN_TRANSACTION (R43). A command-port transaction with any other first byte is ignored, and event 0x0101 is posted. -/
  | unknownTransaction (cpol : Bool) (first : Byte) (n : Nat)
  /-- UDP_DATAGRAM (R67). A UDP command datagram is received; its CMAC, session and replay window are checked, then the packet is accepted or silently discarded. -/
  | udpDatagram (port : Nat) (tag : Option Nat) (srcIp : U32) (srcPort : U16) (bytes : Bytes)
  /-- SESSION_IDLE_TIMEOUT (R70). A UDP session with no accepted request for 60 s is closed, and its owed completion replies are discarded. -/
  | sessionIdleTimeout (port : Nat) (session : U32)
  /-- SYS_IDENTIFY (R80). Returns the part, step, lifecycle, device state, versions, uid, boot select and reset cause. -/
  | sysIdentify (via : Transport)
  /-- SYS_STATUS (R80). Returns the device state, flags, publication rate, event and request counters, and the active time. -/
  | sysStatus (via : Transport)
  /-- SYS_RESET (R121). Schedules a warm or cold reset 100 µs after the reply is formed. -/
  | sysReset (via : Transport)
  /-- RESET_DELAY_EXPIRY (R121). The 100 µs delay after a SYS_RESET or lifecycle-transition reply ends, and the reset starts. -/
  | resetDelayExpiry
  /-- SYS_SET_STATE (R83). Moves the device among CONFIG, READY and RUN; RUN to READY starts the normal shutdown of every function. -/
  | sysSetState (via : Transport) (fail : Option (Nat × Nat))
  /-- SYS_PUBLISH_RATE (R34). Sets the publication rate, which takes effect after the next t_pub. -/
  | sysPublishRate (via : Transport)
  /-- EVT_READ (R89). Returns the oldest unread event entries and marks them read. -/
  | evtRead (via : Transport)
  /-- EVT_ACK (R90). Acknowledges read entries up to a sequence number and frees their positions; ATTN_N and the lost-count entry follow. -/
  | evtAck (via : Transport)
  /-- EVT_MASK (R91). Sets the class mask, the exclusion list and ATTN_ON_REPLY that govern ATTN_N. -/
  | evtMask (via : Transport)
  /-- BULK_READ (R105). A bulk READ burst, which latches a state-image buffer and releases the latch at its end. -/
  | bulkRead (addr : U32) (len : Nat) (clocked : Nat)
  /-- BULK_READ_HOLD (R107). A bulk READ_HOLD burst, which latches a state-image buffer and keeps the latch after its end. -/
  | bulkReadHold (addr : U32) (len : Nat) (clocked : Nat)
  /-- BULK_RELEASE (R107). A bulk RELEASE releases a held state-image latch at once. -/
  | bulkRelease
  /-- BULK_STATUS (R110). A bulk STATUS returns the epoch, the flags and the refused count; the read-clear flags are cleared. -/
  | bulkStatus (clocked : Nat)
  /-- BULK_WRITE (R101). A bulk WRITE burst stores the bytes that the access rules of the window permit and refuses the rest. -/
  | bulkWrite (addr : U32) (len : Nat) (data : Bytes)
  /-- BULK_BAD_COMMAND (R94). A bulk command with a bad complement, an unknown code or a reserved length bit ends the transaction with event 0x010B. -/
  | bulkBadCommand (code : Byte) (compl : Byte) (addr : U32) (len : U16)
  /-- HOLD_LATCH_EXPIRY (R108). A held latch with no state-image burst for 100 ms is released, and HOLD_EXPIRED is set. -/
  | holdLatchExpiry
  /-- SUPPLY_WARNING (R115). A control-die rail qualified below its warning threshold sets its supply flag and posts event 0x0120. -/
  | supplyWarning (i : Nat) (v : F32) (held : Nat)
  /-- BROWN_OUT (R116). A control-die rail qualified below its reset threshold starts a cold reset, and the gating cells turn every gate channel off. -/
  | brownOut (rail : Nat) (v : F32) (held : Nat)
  /-- PORST (R118). A qualified low pulse on PORST_N starts a cold reset. -/
  | porst (low : Nat)
  /-- WARMRST (R118). A qualified low pulse on WARMRST_N starts a warm reset. -/
  | warmrst (low : Nat)
  /-- THERMAL (R119). The junction above 165 °C for 10 µs starts a cold reset with cause THERMAL. -/
  | thermal (tj : F32) (held : Nat)
  /-- WATCHDOG (R119). The housekeeping watchdog not served for 10 ms starts a warm reset. -/
  | watchdog
  /-- LOCKSTEP (R119). A disagreement of the housekeeping pair starts a warm reset. -/
  | lockstep
  /-- RESET_RELEASE (R118). The reset ends at t_rel; BOOT starts on the fallback oscillator, BOOTSEL is latched, OTP is read and the wipe starts. -/
  | resetRelease (bootsel : Nat) (rails : List F32) (held : Nat) (porstN warmrstN : Bool) (clear : Nat)
  /-- WIPE_DONE (R124). The wipe and its read-back complete; failing rows are retired, and the self-tests and relock follow. -/
  | wipeDone (fails : List (Nat × Nat)) (selftest : Option Nat)
  /-- BOOT_COMPLETE (R128). BOOT ends: the defaults are applied, the device enters CONFIG or SAFE, event 0x0100 is posted and publications begin. -/
  | bootComplete
  /-- IMAGE_START (R132). After a successful IMG_VERIFY, the device enters CONFIG running the staged image and raises the security version if needed. -/
  | imageStart
  /-- IMAGE_DATAGRAM (R133). An image datagram on UDP port 24761 in BOOT is written to staging and acknowledged; LAST starts verification. -/
  | imageDatagram (tag : Option Nat) (ip : U32) (port : U16) (b : Bytes)
  /-- IMG_VERIFY (R551). Starts verification of the staged image. -/
  | imgVerify (via : Transport)
  /-- IMG_VERIFY_DONE (R132). Verification of the staged image ends with success or E_VERIFY at the failed step. -/
  | imgVerifyDone
  /-- DRIVER_SUPPLY_RELEASE (R134). The start governor lets a stage pass its driver-supply release; the first release of a RUN period raises SAFE_OFF_A_N and SAFE_OFF_B_N. -/
  | driverSupplyRelease
  /-- PRECHARGE_START (R382). The start governor starts the bootstrap precharge of one half-bridge at the 50 µs stagger. -/
  | prechargeStart
  /-- PRECHARGE_END (R382). A bootstrap precharge ends after t_precharge; a bootstrap still low latches a fault on the high side. -/
  | prechargeEnd (h : Nat) (vBoot : F32)
  /-- CLK_SET_PLAN (R143). Sets an ADPLL plan and starts a relock with a full band search. -/
  | clkSetPlan (via : Transport)
  /-- CLK_HOP (R147). Relocks an ADPLL from a stored profile, falling back to a full search. -/
  | clkHop (via : Transport)
  /-- CLK_STORE_SEARCH (R146). Stores the locked plan, band and fine word into a profile. -/
  | clkStoreSearch (via : Transport)
  /-- CLK_OUTPUT (R157). Enables, disables or changes an MCLK, CLKOUT or SYNCCLK_OUT output, effective at the end of a low phase. -/
  | clkOutput (via : Transport)
  /-- ADPLL_LOCK (R144). An ADPLL declares lock at t_lock after 128 qualifying PFD cycles, and its output dividers restart at the alignment edge. -/
  | adpllLock (i : Nat) (hopLocked : Bool) (band : BitVec 6) (fine : U32) (f : F32) (rms : F32) (refEdge : Nat)
  /-- OUTPUT_RELEASE (R145). An ADPLL output passes verification and is released; its islands leave fallback, and the last release completes the relock. -/
  | outputRelease (i : Nat) (out : Nat)
  /-- LOSS_OF_LOCK (R148). An ADPLL loses lock; its outputs are gated, and the islands move to fallback or Sorrel forces safe pulse-off. -/
  | lossOfLock (i : Nat) (reason : Nat)
  /-- RELOCK_START (R150). 100 µs after a loss, the ADPLL starts a relock attempt on the plan in effect. -/
  | relockStart (i : Nat)
  /-- RELOCK_ATTEMPT_TIMEOUT (R150). A relock attempt exceeds its time limit; a further attempt starts, or after the third the ADPLL is FAILED. -/
  | relockAttemptTimeout (i : Nat)
  /-- ROUND_START (R24). At each multiple of 1,000 ns on the extended raw count a round starts; the sinc outputs are latched, and pending filter, sequence and spare swaps apply. -/
  | roundStart (bits : List (List Bool)) (caps : List Nat)
  /-- SLOT_OUTPUT (R25). The filtered sample of slot k becomes usable in the loop island; waiting instances are decremented and Dill runs its hit test. -/
  | slotOutput (k : Nat) (mac : Option U32)
  /-- SAR_CONVERSION (R166). A SAR conversion completes 200 ns after its position starts, including urgent and checking conversions. -/
  | sarConversion (core : Nat) (p : Nat) (code : U16) (chk : Option (U16 × U16))
  /-- BS_STUCK (R164). A bitstream input with no transition for 64 capture instants sets its stuck bit, and event 0x0401 is posted. -/
  | bsStuck (ch : Nat) (level : Bool)
  /-- REF_SETTLED (R171). 5 ms after the reference buffer is enabled, the reference is settled, and event 0x0400 is posted. -/
  | refSettled
  /-- SLOW_PATH_SETTLED (R178). N × M rounds after a change, a slow path is settled. -/
  | slowPathSettled (ch : Nat)
  /-- FILTER_SETTLED (R208). An assignment becomes settled once its sinc window and its FIR history have filled. -/
  | filterSettled (ch : Nat)
  /-- SNS_REF_ENABLE (R171). Turns the reference buffer on or off. -/
  | snsRefEnable (via : Transport)
  /-- SNS_CONFIG_CHANNEL (R161). Sets a channel's capture delay, fast detector, nominal scale and zero, and slow path. -/
  | snsConfigChannel (via : Transport)
  /-- SNS_CONFIG_SEQUENCE (R166). Sets a SAR core's sequence, starting at its entry 0 at the next round boundary. -/
  | snsConfigSequence (via : Transport)
  /-- SNS_CONFIG_ACCUMULATOR (R179). Sets an accumulator set's sources and mode. -/
  | snsConfigAccumulator (via : Transport)
  /-- SNS_CONFIG_TRACKER (R179). Sets a min-max tracker's source and mode. -/
  | snsConfigTracker (via : Transport)
  /-- SNS_CAL_ZERO (R173). Starts a zero calibration averaging n samples. -/
  | snsCalZero (via : Transport)
  /-- SNS_CAL_SPAN (R174). Starts a span calibration against an applied value. -/
  | snsCalSpan (via : Transport)
  /-- CAL_DONE (R175). A calibration ends; the new coefficient takes effect at the next round boundary, and comparator thresholds and CAL flags follow. -/
  | calDone (ch : Nat)
  /-- SNS_ACC_READ (R182). Requests the accumulators and trackers, which are latched at the next round boundary. -/
  | snsAccRead (via : Transport)
  /-- ACC_LATCH (R182). At the first round boundary after SNS_ACC_READ, the sets are latched, FREE sets are cleared if asked, and the reply is formed. -/
  | accLatch
  /-- SNS_URGENT (R184). Queues urgent conversions of analog inputs into idle positions, dropping those that cannot begin in time. -/
  | snsUrgent (via : Transport)
  /-- URGENT_REPLY (R185). The SNS_URGENT reply is formed once the urgent conversions are made or dropped. -/
  | urgentReply
  /-- FLT_LOAD (R207). Loads, replaces or deletes a filter set, effective at the next round boundary. -/
  | fltLoad (via : Transport)
  /-- FLT_ASSIGN (R206). Assigns or releases a slot run for a channel, effective at the next round boundary. -/
  | fltAssign (via : Transport)
  /-- FLT_QUERY_DELAY (R212). Reports the delay terms and usable instant of a channel. -/
  | fltQueryDelay (via : Transport)
  /-- GRAPH_LOAD (R223). Starts checking and loading a graph image for a stage. -/
  | graphLoad (via : Transport)
  /-- GRAPH_LOAD_DONE (R224). The graph image check ends; the graph is loaded on its engines, or the load fails. -/
  | graphLoadDone
  /-- GRAPH_START (R362). Starts a stage, at once or DEFERRED under the start governor. -/
  | graphStart (via : Transport)
  /-- GRAPH_START_MODE_ONLY (R245). Changes the mode of an ENABLED stage from the first frame not yet begun. -/
  | graphStartModeOnly (via : Transport)
  /-- GRAPH_STOP (R364). Starts the stage's normal shutdown, removes a queued start, or returns a LOCKED_OUT stage to OFF. -/
  | graphStop (via : Transport)
  /-- GRAPH_WRITE_PARAM (R243). Writes parameter words or set-point targets, effective from frame n_apply. -/
  | graphWriteParam (via : Transport)
  /-- DILL_CONFIG (R283). Sets the run-ahead depth, predicted inputs, correction targets, cut_spec and overrun limit of a stage. -/
  | dillConfig (via : Transport)
  /-- GRAPH_STATS (R282). Returns the stage range values, optionally clearing the counters. -/
  | graphStats (via : Transport)
  /-- PARAM_QUEUE_TAKE (R261). The loop island takes a parameter, mode or forming request from the parameter queue. -/
  | paramQueueTake
  /-- STAGE_START_BEGIN (R362). A stage's start begins: the stage enters STARTING, the engines wake and precharges are queued. -/
  | stageStartBegin (n : Nat)
  /-- TIMERS_START (R343). At t_s the stage's free-running timers start with their counters at 0. -/
  | timersStart (n : Nat)
  /-- TIMER_RELOAD (R358). A carrier timer reloads; pending sets and owned periods are taken or the active set repeats, and channel enables change. -/
  | timerReload (t : Nat)
  /-- REFRESH_PERIOD (R384). The 32nd counted high-duty period is a refresh period that ends the high-side raw signal early. -/
  | refreshPeriod (h : Nat)
  /-- RELOAD_NOTICE (R247). A frame reload notice reaches the loop island and opens a frame that Dill did not open ahead. -/
  | reloadNotice (n : Nat)
  /-- INSTANCE_DISPATCH (R255). A free engine chooses its highest-ranked ready instance, which starts 6 cycles later. -/
  | instanceDispatch (e : Nat)
  /-- INSTANCE_END (R252). An instance ends its execution and frees its slot; an effect node performs its effect. -/
  | instanceEnd (e : Nat)
  /-- COMPLETION_POST (R258). An instance's completion is posted to the completion queue once it has room. -/
  | completionPost (e : Nat)
  /-- SUCCESSOR_DECREMENT (R253). A successor entry is processed and decrements a counter, or waits until a slot is free. -/
  | successorDecrement (e : Nat)
  /-- SCHED_STALL (R263). An engine holds dispatch for more than 800 consecutive cycles, and event 0x0604 is posted. -/
  | schedStall (e : Nat)
  /-- CORRECTION_DONE (R271). Dill's linear correction of a speculative frame ends. -/
  | correctionDone (n : Nat)
  /-- COMMIT (R275). Dill commits a frame: compare sets become pending, state becomes architectural, feeds are delivered and frames are opened ahead. -/
  | commit (n : Nat)
  /-- HANDOVER_DONE (R281). The hand-over copy ends, the logical engine maps to the spare and frames open again. -/
  | handoverDone (n : Nat)
  /-- COMMIT_DEADLINE (R276). At the commit deadline an uncommitted head frame is squashed as an overrun, and the hold applies. -/
  | commitDeadline (n : Nat)
  /-- SUSPENSION_END (R276). 16 frames after the last overrun, speculation resumes. -/
  | suspensionEnd (n : Nat)
  /-- CHECKER_DWELL_EXPIRY (R279). A spare engine's 1 ms dwell ends, and it moves to the next engine. -/
  | checkerDwellExpiry (e : Nat)
  /-- CHECKER_REPLAY_DONE (R280). A spare ends its replay of a frame and compares CRCs; a mismatch gets a second replay and a verdict. -/
  | checkerReplayDone (e : Nat) (flip : U32)
  /-- KERNEL_END (R287). A forming unit kernel or monitor period ends and is committed; a waiting feed starts the next. -/
  | kernelEnd (u : Nat)
  /-- FEED_TIMEOUT (R289). No feed for 16 / f_k forces the unit OFF, and event 0x0703 is posted. -/
  | feedTimeout (u : Nat)
  /-- PLL_LOCK_QUALIFIED (R299). The PLL criteria have held for 10 ms, and the PLL is locked. -/
  | pllLockQualified (u : Nat) (tracker : Bool)
  /-- RIDE_EXIT (R321). The exit conditions hold for exit_time, RIDE ends and DECAY is set. -/
  | rideExit (u : Nat)
  /-- DECAY_END (R321). The raised impedance has decayed over exit_time, and DECAY clears. -/
  | decayEnd (u : Nat)
  /-- BLACK_START_END (R326). The black-start criteria hold for 100 ms, and the unit enters ISLAND automatically. -/
  | blackStartEnd (u : Nat)
  /-- BS_STALLED (R326). V_w has not reached its target 10 s after entry, BS_STALLED is set and event 0x0713 is posted. -/
  | bsStalled (u : Nat)
  /-- CLOSE_PERMIT (R329). The closing criteria have held for 40 ms, CLOSE_PERMIT is set and event 0x0710 is posted. -/
  | closePermit (u : Nat)
  /-- ISLAND_DETECTED (R331). The frequency deviation exceeds island_df for island_time, and the unit enters ISLAND automatically. -/
  | islandDetected (u : Nat)
  /-- FU_SHUTDOWN_TIMEOUT (R309). A forming unit shutdown reaches 2 s, and the unit enters OFF. -/
  | fuShutdownTimeout (u : Nat)
  /-- RESTORATION_STEP (R337). A restoration step instant is reached, and new offsets are computed and ramped. -/
  | restorationStep (u : Nat)
  /-- FU_CONFIG_PORT (R312). Sets a forming unit's topology, bases, kernel rate, band, voltage ceiling and PLL bandwidth. -/
  | fuConfigPort (via : Transport)
  /-- FU_CONFIG_LAW (R313). Sets the law parameters, applied from the next kernel period without a step. -/
  | fuConfigLaw (via : Transport)
  /-- FU_CONFIG_LIMITS (R313). Sets the current limit, RIDE impedance and harmonic resistances. -/
  | fuConfigLimits (via : Transport)
  /-- FU_CONFIG_SYNC (R312). Sets the synchronisation, islanding and black-start parameters. -/
  | fuConfigSync (via : Transport)
  /-- FU_MODE (R307). Requests a mode change that applies at the next kernel period, or starts a shutdown to OFF. -/
  | fuMode (via : Transport)
  /-- FU_SETPOINT (R305). Sets set-point targets, effective from k_apply. -/
  | fuSetpoint (via : Transport)
  /-- FU_SCHEDULE (R336). Starts or pauses an anchored restoration schedule. -/
  | fuSchedule (via : Transport)
  /-- PWM_TIMER (R343). Configures or releases a carrier timer. -/
  | pwmTimer (via : Transport)
  /-- PWM_TIMER_QUERY (R343). Reports a carrier timer's running state, reloads, period and clamps. -/
  | pwmTimerQuery (via : Transport)
  /-- PWM_CHANNEL_CHANNEL (R348). Configures a channel's role, mode, positions, partner, dead times and MINPW. -/
  | pwmChannelChannel (via : Transport)
  /-- PWM_CHANNEL_GROUP (R346). Creates, changes or deletes a group and allocates its compare units. -/
  | pwmChannelGroup (via : Transport)
  /-- PWM_CHANNEL_QUERY (R348). Reports a channel's configuration, accumulator and active values. -/
  | pwmChannelQuery (via : Transport)
  /-- PWM_ENABLE (R368). Enables channels at the next reload of their timers. -/
  | pwmEnable (via : Transport)
  /-- PWM_DISABLE (R368). Disables channels at the next reload of their timers. -/
  | pwmDisable (via : Transport)
  /-- PWM_WRITE_GROUP (R357). Host writes compare sets, which become pending in one PWM-island cycle. -/
  | pwmWriteGroup (via : Transport)
  /-- COMPARE_MATCH (R350). A pulse start or end is reached, and the lead's raw signal changes. -/
  | compareMatch (c : Nat)
  /-- DEAD_TIME_EXPIRY (R352). A dead time ends and the lead or follower turns on; a rising command edge clears a protection fault if every source is inactive. -/
  | deadTimeExpiry (c : Nat)
  /-- MINPW_EXPIRY (R354). A pulse held on by the minimum pulse rule reaches MINPW and turns off. -/
  | minpwExpiry (c : Nat)
  /-- START_TIMEOUT (R363). A stage not ENABLED 100 ms after STARTING starts its normal shutdown. -/
  | startTimeout (n : Nat)
  /-- STAGE_SHUTDOWN_END (R366). A stage shutdown ends and the stage enters OFF; a pending RUN to READY transition can then complete. -/
  | stageShutdownEnd (n : Nat)
  /-- READBACK_SAMPLE (R369). A channel output is compared with its command; two mismatches count a readback fault. -/
  | readbackSample (c : Nat) (level : Bool)
  /-- CU_SPARE_DWELL_EXPIRY (R370). A spare compare unit's 1 ms dwell ends, and it moves to the next unit. -/
  | cuSpareDwellExpiry (u : Nat)
  /-- CU_MISMATCH (R370). A spare compare unit's edges differ from the shadowed unit, and event 0x0804 is posted. -/
  | cuMismatch (k : Nat)
  /-- FLT_TRIP (R379). An armed FLT input low for 20 ns latches a protection fault on its channel. -/
  | fltTrip (c : Nat)
  /-- FLT_HIGH (R379). An FLT input returns high and becomes inactive. -/
  | fltHigh (c : Nat)
  /-- CMP_TRIP (R386). A window comparator enters its trip or short zone and latches faults on its targets. -/
  | cmpTrip (k : Nat) (zone : Nat)
  /-- CMP_RELEASE (R386). A comparator pin returns inside its threshold by the hysteresis, and the comparator becomes inactive. -/
  | cmpRelease (k : Nat)
  /-- BLANKING_END (R387). A comparator's blanking ends, and a pin still in the trip zone trips. -/
  | blankingEnd (k : Nat)
  /-- FOC_TRIP (R388). A fast overcurrent detector's output passes a threshold and latches faults on its targets. -/
  | focTrip (k : Nat) (bits : List Bool)
  /-- HB_MONITOR_TRIP (R380). An integrated driver VDS monitor trips, turns its switch off and pulls its fault line low. -/
  | hbMonitorTrip (h : Nat) (high : Bool) (short : Bool)
  /-- HB_STATUS_WORD (R380). The gate-driver die's status word reaches the PWM island, which latches the fault on the channel named. -/
  | hbStatusWord (h : Nat) (hsVds : Nat) (lsVds : Nat) (vBoot : F32)
  /-- BOOTSTRAP_UNDERVOLTAGE (R383). A bootstrap below 8.0 V for 200 ns latches a fault on the high side. -/
  | bootstrapUndervoltage (h : Nat) (vBoot : F32)
  /-- DRIVER_SUPPLY (R381). VDRV or the die temperature crosses a warning, shutdown or release level. -/
  | driverSupply (temp : Bool) (level : Nat) (value : F32) (held : Nat)
  /-- PROT_CONFIG_COMPARATOR (R393). Configures a window comparator. -/
  | protConfigComparator (via : Transport)
  /-- PROT_CONFIG_FAST_DETECTOR (R393). Configures a fast overcurrent detector. -/
  | protConfigFastDetector (via : Transport)
  /-- PROT_CONFIG_FLT_INPUT (R379). Enables or disables an FLT input. -/
  | protConfigFltInput (via : Transport)
  /-- PROT_CONFIG_HALF_BRIDGE (R385). Sets a half-bridge's VDS levels, blanking, refresh and precharge. -/
  | protConfigHalfBridge (via : Transport)
  /-- PROT_CONFIG_LEG (R390). Sets a channel's leg number. -/
  | protConfigLeg (via : Transport)
  /-- PROT_SELFTEST (R391). Starts self-tests of unarmed protection sources. -/
  | protSelftest (via : Transport)
  /-- PROT_SELFTEST_DONE (R391). The self-tests end, and failures are reported. -/
  | protSelftestDone (cmp : U32) (foc : U64) (hb : Byte) (step : Byte) (diffs : List U16)
  /-- PROT_STATUS (R392). Returns the protection range and the fault causes. -/
  | protStatus (via : Transport)
  /-- SAFETY_CYCLE (R395). The safety processor's 1 ms cycle evaluates inputs, SF5 quantities and cross-comparison. -/
  | safetyCycle
  /-- SAFETY_DEBOUNCE_EXPIRY (R404). A safety channel's debounce of an SF2 or SF3 input expires, and a demand acts. -/
  | safetyDebounceExpiry (ch : Nat) (n : Nat)
  /-- TEST_PULSE_WINDOW_END (R403). A mask window ends, and the dropout, missing-dropout and cross-short checks are made. -/
  | testPulseWindowEnd
  /-- ESTOP_DISCREPANCY (R404). One SF2 input stays high estop_disc after the other went low. -/
  | estopDiscrepancy
  /-- CONTACTOR_MISMATCH (R406). A contactor mismatch lasting 30 ms is a fault with reason CONTACTOR. -/
  | contactorMismatch (k : Nat)
  /-- PERMIT_WITHDRAW (R398). open_delay after entry into SAFE, a channel withdraws its contactor permits. -/
  | permitWithdraw (ch : Nat) (k : Nat)
  /-- GRID_TRIP (R409). An SF5 element timer reaches its trip time, and SF5 acts with reason GRID. -/
  | gridTrip (e : Nat)
  /-- RECONNECTION_WAIT_END (R411). The GRID quantities have stayed inside for recon_time, and SAFE_ACK_FAULT is no longer refused for it. -/
  | reconnectionWaitEnd
  /-- SAFETY_LOCKSTEP_MISMATCH (R416). The safety pair disagrees, and Sorrel acts with reason LOCKSTEP. -/
  | safetyLockstepMismatch
  /-- CHANNEL_DISAGREEMENT (R416). The two channels disagree for 10 ms, and reason CHANNEL acts. -/
  | channelDisagreement (fault : Bool)
  /-- SAFETY_CLOCK (R416). The Safety island oscillator is out of tolerance for 100 µs, and reason SAFETY_CLOCK acts. -/
  | safetyClock
  /-- PARAM_RECHECK (R416). Every 100 ms the parameter block is rechecked; a failure acts with reason PARAM. -/
  | paramRecheck (ok : Bool)
  /-- TEST_DUE (R417). 24 h of RUN without a path test set TEST_DUE and post event 0x0A05. -/
  | testDue
  /-- SAFE_LOAD_PARAMS (R414). Loads a safety parameter block and clears the committed status. -/
  | safeLoadParams (via : Transport)
  /-- SAFE_GET_CHECK (R414). Returns the check values computed by both channels. -/
  | safeGetCheck (via : Transport)
  /-- SAFE_COMMISSION (R414). Commits the loaded block if the value confirmed matches, optionally persisting it to OTP. -/
  | safeCommission (via : Transport)
  /-- SAFE_STATUS (R420). Returns the safety range. -/
  | safeStatus (via : Transport)
  /-- SAFE_ACK_FAULT (R415). Leaves SAFE for CONFIG when every condition holds. -/
  | safeAckFault (via : Transport)
  /-- DOWNLINK_SEND (R436). Every 10 µs the control die sends a downlink frame with commands, permits and test pulses. -/
  | downlinkSend
  /-- DOWNLINK_RECEIVE (R438). The field die takes a valid downlink frame and applies its commands, permits and safe states. -/
  | downlinkReceive (lane spare : LaneErr)
  /-- UPLINK_SEND (R436). The field die sends an uplink frame 5 µs after a downlink frame, or every 10 µs on its own. -/
  | uplinkSend (vField : F32) (dieTemp : F32) (currents : List F32) (tpRead : BitVec 4)
  /-- UPLINK_RECEIVE (R437). The control die takes a valid uplink frame; levels, acknowledgements and edges are stamped and used. -/
  | uplinkReceive (lane spare : LaneErr)
  /-- FIELD_LINK_TIMEOUT (R440). No valid downlink frame for the timeout, and the field die applies every safe state. -/
  | fieldLinkTimeout
  /-- LINK_LOST (R440). No valid uplink frame for the timeout; the safety channels act with FIELD_LINK and event 0x0B02 is posted. -/
  | linkLost
  /-- VFIELD (R422). VFIELD crosses a warning, undervoltage, overvoltage or die-stop level. -/
  | vfield (kind : Nat) (on : Bool) (v : F32) (held : Nat)
  /-- INPUT_DEBOUNCE_EXPIRY (R425). A field input's raw level has held for its debounce time, and the debounced level changes. -/
  | inputDebounceExpiry (n : Nat)
  /-- FREQ_GATE_END (R427). A frequency gate ends, and the input's frequency and status are computed. -/
  | freqGateEnd (n : Nat)
  /-- PULLIN_END (R428). An output's pull-in ends; it is economised, its place is freed and the next queued output switches on. -/
  | pullinEnd (o : Nat)
  /-- OUTPUT_FAULT (R429). An output fault condition is qualified and latched. -/
  | outputFault (o : Nat) (kind : Nat) (value current : F32) (held : Nat)
  /-- OUTPUT_SHUTDOWN_END (R430). An output reads off with its current below 20 mA, and its shutdown ends. -/
  | outputShutdownEnd (o : Nat)
  /-- FIO_CONFIG_INPUT (R425). Configures a field input's threshold, counting, debounce and gate. -/
  | fioConfigInput (via : Transport)
  /-- FIO_CONFIG_OUTPUT (R433). Configures a field output's owner, safe state, pull-in and hold duty. -/
  | fioConfigOutput (via : Transport)
  /-- FIO_CONFIG_LINK (R440). Sets the link timeout. -/
  | fioConfigLink (via : Transport)
  /-- FIO_WRITE (R431). The host switches a field output on or off, subject to ownership, permits and the governor. -/
  | fioWrite (via : Transport)
  /-- FIO_READ (R426). Returns the field I/O range, optionally clearing edge counters. -/
  | fioRead (via : Transport)
  /-- TIME_SET_DOMAIN (R450). Sets a time domain's source, backup, value, rate and servo settings. -/
  | timeSetDomain (via : Transport)
  /-- TIME_FEED_OFFSET (R454). Feeds an offset sample to a HOST domain's servo. -/
  | timeFeedOffset (via : Transport)
  /-- TIME_SELECT_ACTIVE (R455). Starts a seamless switch to a running domain. -/
  | timeSelectActive (via : Transport)
  /-- TIME_READ (R449). Returns the raw count, active time and every domain at one instant. -/
  | timeRead (via : Transport)
  /-- HOLDOVER_ENTRY (R452). No accepted sample for 2 s moves a domain to HOLDOVER. -/
  | holdoverEntry (d : Nat)
  /-- HOLDOVER_LIMIT_EXPIRY (R452). HOLDOVER reaches holdover_limit; the domain moves to ACQUIRING or FREE, and a backup switch can start. -/
  | holdoverLimitExpiry (d : Nat)
  /-- SWITCH_COMPLETE (R455). The slewed remainder of a seamless switch reaches 0. -/
  | switchComplete
  /-- PTP_SYNC (R462). A Sync with its correction and path delay is accepted as an offset sample of the servo. -/
  | ptpSync (i : Nat) (tag : Option Nat) (origin : Int) (correction : Int) (delay : Int)
  /-- PTP_ANNOUNCE (R464). An Announce is received and the best master clock algorithm may change the PTP role. -/
  | ptpAnnounce (i : Nat) (tag : Option Nat) (gm : Bytes) (prio1 cls acc : Byte) (var : U16) (prio2 : Byte) (steps : U16)
  /-- PTP_PDELAY (R463). A peer delay message is received or answered, one-step or two-step. -/
  | ptpPdelay (i : Nat) (tag : Option Nat) (what : Nat) (seq : U16) (delay : Int) (turn : Nat)
  /-- PTP_SYNC_INTERVAL (R464). As grandmaster the PTP instance sends Sync and Announce at its intervals. -/
  | ptpSyncInterval (i : Nat) (announce : Bool)
  /-- ETH_LINK (R461). An Ethernet port's link goes up or down; down closes its sessions. -/
  | ethLink (port : Nat) (up : Bool) (speed : Nat)
  /-- ARP_REQUEST (R460). An ARP request for the port's address is answered. -/
  | arpRequest (port : Nat) (tag : Option Nat) (target : U32) (senderMac : Bytes) (senderIp : U32)
  /-- ICMP_ECHO (R460). An ICMP echo request is answered. -/
  | icmpEcho (port : Nat) (tag : Option Nat) (srcIp : U32) (data : Bytes)
  /-- ETH_CONFIG_PORT (R459). Configures an Ethernet port's interface, speed, tagging and addresses. -/
  | ethConfigPort (via : Transport)
  /-- ETH_CONFIG_INSTANCE (R462). Configures a gPTP or PTP time instance. -/
  | ethConfigInstance (via : Transport)
  /-- ETH_SESSION_OPEN (R68). Opens a UDP session, deriving its key, possibly displacing an idle session. -/
  | ethSessionOpen (via : Transport)
  /-- CAN_CONFIG (R469). Sets a CAN port's mode, timing and tap entries, or starts its shutdown. -/
  | canConfig (via : Transport)
  /-- CAN_SEND (R474). Hands a transmit entry to the controller. -/
  | canSend (via : Transport)
  /-- CAN_CANCEL (R477). Cancels a queued entry unless its start-of-frame bit has started. -/
  | canCancel (via : Transport)
  /-- CAN_RX_ACK (R472). Returns host-owned receive entries to the controller. -/
  | canRxAck (via : Transport)
  /-- CAN_RECOVER (R475). Starts bus-off recovery. -/
  | canRecover (via : Transport)
  /-- CAN_TAP (R478). Configures or deletes a receive value, receive age or transmit tap. -/
  | canTap (via : Transport)
  /-- CAN_FRAME_RECEIVED (R473). A valid frame is received; taps update and it enters the FIFO or is dropped. -/
  | canFrameReceived (p : Nat) (f : CanFrame) (ago : Nat)
  /-- CAN_TX_ATTEMPT (R474). The controller starts the start-of-frame bit of a queued entry. -/
  | canTxAttempt (p : Nat)
  /-- CAN_TX_OUTCOME (R474). A transmission attempt ends sent, lost or in error, and the outcome or a retry follows. -/
  | canTxOutcome (p : Nat) (result : Nat) (tdc : Byte)
  /-- CAN_BUS_ERROR (R475). A protocol error changes the error counters and possibly the error state. -/
  | canBusError (p : Nat) (code : Nat) (count : CanCount)
  /-- CAN_RECOVERY_DONE (R475). 128 occurrences of 11 recessive bits end recovery, and the port is error-active. -/
  | canRecoveryDone (p : Nat)
  /-- CAN_SHUTDOWN_END (R481). The controller stops at bus idle, and queued entries are cancelled. -/
  | canShutdownEnd (p : Nat)
  /-- CAN_TAP_TIMEOUT (R479). A value tap not updated for its timeout reads its default again. -/
  | canTapTimeout (k : Nat)
  /-- CAP_CONFIG (R484). Configures a capture's mode, pacing stage, traces, ring and trigger terms. -/
  | capConfig (via : Transport)
  /-- CAP_ARM_STOP (R498). Starts the capture's shutdown. -/
  | capArmStop (via : Transport)
  /-- CAP_ARM_ARM (R485). Arms the capture from the next frame of the pacing stage. -/
  | capArmArm (via : Transport)
  /-- CAP_ARM_FORCE (R489). Forces a trigger while ARMED. -/
  | capArmForce (via : Transport)
  /-- CAP_STATUS (R494). Returns the capture status and optionally releases streamed blocks. -/
  | capStatus (via : Transport)
  /-- CAP_TRIGBUS_CAL_SET (R497). Sets the trigger bus identity and calibrated delays. -/
  | capTrigbusCalSet (via : Transport)
  /-- CAP_TRIGBUS_CAL_RESPOND (R497). Starts answering calibration pulses. -/
  | capTrigbusCalRespond (via : Transport)
  /-- CAP_TRIGBUS_CAL_INITIATE (R497). Starts sending calibration pulses and measuring round trips. -/
  | capTrigbusCalInitiate (via : Transport)
  /-- CAL_PULSE_RESPONSE (R497). 1,000 ns after a received calibration edge, the responder sends its pulse. -/
  | calPulseResponse
  /-- TRIGBUS_CAL_DONE (R497). A trigger-bus calibration ends after reps pulses or 100 ms without a pulse. -/
  | trigbusCalDone (rt : F32) (own : F32) (spread : F32) (unanswered : Bool)
  /-- CAPTURE_ROW_WRITE (R485). Once every CAPTURE instance of a sampled frame has ended, its row is written and triggers are evaluated. -/
  | captureRowWrite
  /-- TRIG_BUS_EDGE (R496). A falling edge and pulse width on a trigger line are stamped and taken as a trigger. -/
  | trigBusEdge (line : Nat) (low : Bool)
  /-- TRIG_DRIVE_END (R495). A trigger bus drive ends after 100 + 40 × identity ns. -/
  | trigDriveEnd (line : Nat)
  /-- STREAM_BLOCK_SEND (R494). A streamed block is sent in four datagrams and released. -/
  | streamBlockSend
  /-- CAPTURE_SHUTDOWN_END (R498). The last row due is written, and the capture enters IDLE. -/
  | captureShutdownEnd
  /-- SAGE_SUPPLY_WARN (R501). VDD_SAGE falls through 2.95 V; the window closes and a supply-warning checkpoint starts. -/
  | sageSupplyWarn (at_ : Nat) (v : F32) (held : Nat) (bits : List (List Bool))
  /-- SAGE_RESET (R503). VDD_SAGE falls below 2.70 V or the seal state changes, and Sage resets and wipes its memory. -/
  | sageReset (forSeal : Bool) (v : F32) (held : Nat)
  /-- SAGE_RESET_RELEASE (R503). Sage leaves reset, reads and checks its seal generation and draws a new boot identifier. -/
  | sageResetRelease (v : F32) (held : Nat)
  /-- SAGE_METERING_START (R503). Sage starts metering from zero with NOT_RESTORED set. -/
  | sageMeteringStart
  /-- SAGE_CLOCK_LOST (R504). The Sage crystal fails for 100 µs, metering stops and CLOCK_FAIL is set. -/
  | sageClockLost
  /-- SAGE_CLOCK_RESTORED (R504). The crystal has been in tolerance for 10 ms, and metering resumes. -/
  | sageClockRestored
  /-- SAGE_WINDOW_END (R507). A 200 ms window ends; quantities and energy registers are updated and the published area is refreshed. -/
  | sageWindowEnd (bits : List (List Bool))
  /-- PULSE_EMIT (R512). MPULSE starts an impulse for accumulated energy at the allowed spacing. -/
  | pulseEmit
  /-- PULSE_END (R512). An MPULSE impulse ends, ending a pulse shutdown if one runs. -/
  | pulseEnd
  /-- RETENTION_ENTRY (R513). 10 s after the last activity condition ends, Sage enters RETENTION. -/
  | retentionEntry
  /-- RETENTION_PROBE (R513). A retention probe every 20 ms may return Sage to ACTIVE. -/
  | retentionProbe (found : Bool)
  /-- SAGE_TIE_POINT (R505). A time tie-point crosses into Sage, is stamped, and pending slews or steps are applied. -/
  | sageTiePoint (count : Nat)
  /-- CHECKPOINT_DUE (R517). A quarter-hour of Sage time passes, and a checkpoint is queued for signing. -/
  | checkpointDue
  /-- SIGNING_DONE (R516). A signed record or checkpoint is complete and published, and the next queued signing starts. -/
  | signingDone
  /-- SAGE_READ (R527). Returns the head of the Sage published area. -/
  | sageRead (via : Transport)
  /-- SAGE_SIGNED_RECORD (R515). Requests a signed record or checkpoint. -/
  | sageSignedRecord (via : Transport)
  /-- SAGE_SET_TIME (R524). Requests alignment of Sage time to a domain at the next tie-point. -/
  | sageSetTime (via : Transport)
  /-- SAGE_EVENT_LOG (R526). Returns entries of the Sage log. -/
  | sageEventLog (via : Transport)
  /-- SAGE_RESTORE (R518). Offers a checkpoint for restore. -/
  | sageRestore (via : Transport)
  /-- SAGE_RESTORE_DONE (R519). A restore completes, adding registers, raising the counter and consuming an odometer bit. -/
  | sageRestoreDone
  /-- SAGE_SEAL_QUERY (R522). Returns the seal state and issues a new nonce. -/
  | sageSealQuery (via : Transport)
  /-- SAGE_SEAL_LOAD_PARAMETERS (R511). Loads a Sage parameter block from the next window. -/
  | sageSealLoadParameters (via : Transport)
  /-- SAGE_SEAL_SEAL (R520). Seals with a valid token, writing a new generation and resetting Sage. -/
  | sageSealSeal (via : Transport)
  /-- SAGE_SEAL_BREAK (R520). Breaks the seal with a valid token, resetting Sage. -/
  | sageSealBreak (via : Transport)
  /-- SAGE_SEAL_PULSE_ENABLE (R512). Enables MPULSE, clearing the pulse accumulator. -/
  | sageSealPulseEnable (via : Transport)
  /-- SAGE_SEAL_PULSE_DISABLE (R512). Disables MPULSE, starting its shutdown. -/
  | sageSealPulseDisable (via : Transport)
  /-- SEAL_NONCE_EXPIRY (R522). A seal nonce expires 10 min after issue. -/
  | sealNonceExpiry
  /-- PUBLICATION_INSTANT (R33). At t_pub the assembler starts a new image from committed values, and publication windows close. -/
  | publicationInstant (volts : List U32) (tj : U32) (plls : List (F32 × F32))
  /-- PUBLICATION_SWAP (R36). The assembled image is swapped with the host-visible buffer and the epoch increments. -/
  | publicationSwap
  /-- SCRUB_READ (R531). The scrub engine reads and corrects a word in an idle cycle of its macro. -/
  | scrubRead (m : Nat) (w : Nat) (bits : Nat) (use : WordUse) (scrub : Bool)
  /-- ROW_REMAP (R532). A retired row's copy to its spare ends, and the row is remapped. -/
  | rowRemap
  /-- REPAIR_LOG_WRITE_DONE (R537). A repair log entry is appended, or the log is full and the repair stays volatile. -/
  | repairLogWriteDone
  /-- OTP_WRITE_BLOCK (R543). Starts writing a new generation of a settings block, or raises the host counter. -/
  | otpWriteBlock (via : Transport)
  /-- OTP_PROGRAM_DONE (R541). An OTP write ends with its program verify; the completion reply is formed. -/
  | otpProgramDone (ok : Bool)
  /-- OTP_READ_BLOCK (R541). Returns bytes of an OTP region, with keys reading zero. -/
  | otpReadBlock (via : Transport)
  /-- LC_TRANSITION_QUERY (R546). Returns the lifecycle state and issues a new nonce. -/
  | lcTransitionQuery (via : Transport)
  /-- LC_TRANSITION (R545). Starts a lifecycle transition, programming destructions and then the fuse or thermometer bit. -/
  | lcTransition (via : Transport)
  /-- LC_NONCE_EXPIRY (R546). A lifecycle nonce expires 10 min after issue. -/
  | lcNonceExpiry
  /-- SPARE_STATUS (R539). Returns the spare classes and volatile repairs. -/
  | spareStatus (via : Transport)
  /-- REPAIR_RESTORE (R539). Retires the resources named by stored repairs again. -/
  | repairRestore (via : Transport)
  /-- JTAG_INSTRUCTION (R548). A JTAG instruction takes effect or acts as BYPASS according to the lifecycle state. -/
  | jtagInstruction (trstN : Bool) (i : JtagInstr) (code : Byte)
  /-- UNASSIGNED_OPCODE (R82). A request whose opcode is unassigned, or of a class outside 0x01 to 0x0F and 0x7F, is taken from the request queue and rejected with E_OPCODE. -/
  | unassignedOpcode (via : Transport)
  /-- VENDOR_TEST_OPCODE (R81). A request of class 0x7F is checked against the lifecycle state and the vendor session, and is rejected with E_LIFECYCLE or E_AUTH or carried on. -/
  | vendorTestOpcode (via : Transport)
  /-- COMMAND_PORT_OPEN (R128). At t_rel + 2.50 ms BOOT drives BUSY low, opens the command and bulk ports, and with boot select 01 or 10 opens the staging window or the image receive service. -/
  | commandPortOpen
  /-- BS_STUCK_CLEAR (R164). A stuck bitstream input shows a transition, and its bs_stuck bit clears. -/
  | bsStuckClear (ch : Nat)
  /-- FOC_RELEASE (R388). A fast overcurrent detector's sinc2 output returns inside its thresholds, and the detector becomes inactive and leaves foc_active. -/
  | focRelease (k : Nat) (bits : List Bool)
  /-- FIELD_INPUT_EDGE (R424). A raw level change on DI00 to DI15 is sampled by the field die, counted, starts or restarts the debounce, and can set CHATTER with event 0x0B05. -/
  | fieldInputEdge (n : Nat) (v : F32) (held : Nat)
  /-- SUPPLY_WARNING_RELEASE (R115). A control-die rail rises back above its warning threshold, or the junction falls back below 150 °C, and its bit in supply_flags clears. -/
  | supplyWarningRelease (i : Nat) (v : F32) (held : Nat)
  /-- SAGE_SUPPLY_WARN_RELEASE (R501). VDD_SAGE rises through 3.00 V, SUPPLY_WARN clears, and the checkpoint at every window end stops. -/
  | sageSupplyWarnRelease (v : F32) (held : Nat)
  /-- TIE_POINTS_STOPPED (R505). Time tie-points stop arriving from the control die, and Sage time runs from the crystal alone with TIME_FROM_CRYSTAL set. -/
  | tiePointsStopped
  /-- ANNOUNCE_RECEIPT_TIMEOUT (R464). No Announce from the master arrives, and the best master clock algorithm selects the PTP instance itself as grandmaster, holding its domain. -/
  | announceReceiptTimeout (i : Nat)
  /-- ETH_FRAME_DISCARDED (R460). A received Ethernet frame with a bad frame check sequence, an excess length, a foreign VLAN tag, a fragment, options or an unsupported protocol is discarded and counted in rx_crc or rx_dropped. -/
  | ethFrameDiscarded (port : Nat) (badFcs : Bool) (tag : Option Nat) (len : Nat) (other : Bool)
  /-- CAN_REJOIN (R470). After the Host island clock returns from fallback, a CAN controller sees 11 recessive bits and takes part on the bus again. -/
  | canRejoin (p : Nat) (lost : Bool)
deriving DecidableEq, Repr

end Sys2Proof
end

