-- ==== Sys2Proof/Config.lean ====
section
/-! DEFINITION. What the spec leaves open or takes from outside itself: constants and functions without a body, so
that nothing can be proved of their values. Each is named in the assumption log. -/

namespace Sys2Proof.Config

/-- ROM firmware version reported by SYS_IDENTIFY (R80), and the SHA-384 hashes of the vendor keys in ROM, by slot (R546, R551). The
spec gives no values. -/
opaque romVersion : U32
opaque romKeyHash : Nat → Nat → Byte
/-- A fresh 32-bit value the spec leaves open (random draws, undefined values), by a counter held in State. -/
opaque freeWord : Nat → U32

/-- What a time instance announces of its own clock beside its class and priorities, and its clockIdentity (R462): the spec
gives no values. -/
opaque ownAccuracy : Byte
opaque ownVariance : U16
opaque clockIdentity : Nat → Byte

/-- Which of the two neighbouring binary32 values an elementary function returns (R590 allows 1 unit in the last place);
by function tag and operands, so that every engine computes the same bits. -/
opaque elemUp : Nat → List F32 → Bool
/-- Results whose numbers the spec does not state (R236: SVM_3L4L; atan2 of two
zeros): by operation code, inputs, parameters, state, node period and word, state words from 16 on. -/
opaque libWord : Nat → List F32 → List F32 → List F32 → F32 → Nat → F32
/-- By how much a forming unit's cos (0) or sin (1) of an angle errs, within the 1e-6 of R300. -/
opaque trigErr : Nat → U32 → Rat
/-- How the correction of a generalised integrator is discretised: 1/2 the trapezoidal rule, 1 backward Euler, or a mixture; R236,
R303 and R334 give the integrators and not their discretisation. -/
opaque sogiMix : Rat
/-- Which of the spec's two statements of V_m holds: R299's last formula as written, or the rms value of R293 and R327. -/
opaque vmAsWritten : Bool
/-- The gain of the harmonic extractors at the 3rd, 5th and 7th harmonic; R334 gives their settling time alone. -/
opaque harmGain : Nat → Rat
/-- The octets of the mailbox records of a link frame, downlink (0) and uplink (1), by their content and octet: R436 gives
their places and sizes and not their layout. -/
opaque mailboxByte : Nat → List Nat → Nat → Byte
/-- The offset and the gain that SAR4 measures from the codes of its checks of a core, each the core's and its own: R169 has it
measure them and does not say how. -/
opaque sarOffset : List (Nat × Nat) → Rat
opaque sarGain : List (Nat × Nat) → Rat
/-- A raw value of a Sage input between two samples, from the samples, newest first, and the place between the first two; and the
frequency of MBS4 over the samples of a window: R507 names both and does not say how they are computed. -/
opaque sageBetween : List Rat → Rat → Rat
opaque sageFreq : List Rat → F32

end Sys2Proof.Config
end

