-- ==== Sys2Proof/Machine/Operands.lean ====
section
/-! DEFINITION. Operand forms: bytes and little-endian fields of packets, blocks and records (R1), bit fields,
the check values of R10, and angles (R4). -/

namespace Sys2Proof.Machine

open Sys2Proof

/-- The byte at an offset; 0 beyond the end. -/
def byteAt (b : Bytes) (i : Nat) : Byte := b.getD i 0
/-- The little-endian u16 at an offset (R1). -/
def u16At (b : Bytes) (i : Nat) : U16 := byteAt b (i + 1) ++ byteAt b i
/-- The little-endian u32 at an offset (R1). -/
def u32At (b : Bytes) (i : Nat) : U32 := u16At b (i + 2) ++ u16At b i
/-- The little-endian u64 at an offset (R1). -/
def u64At (b : Bytes) (i : Nat) : U64 := u32At b (i + 4) ++ u32At b i
/-- The bytes from an offset on, `n` of them, zeros beyond the end. -/
def slice (b : Bytes) (i n : Nat) : Bytes :=
  let t := (b.drop i).take n
  t ++ List.replicate (n - t.length) 0
/-- Little-endian encodings of fields (R1). -/
def le16 (v : U16) : Bytes := [v.extractLsb' 0 8, v.extractLsb' 8 8]
def le32 (v : U32) : Bytes := le16 (v.extractLsb' 0 16) ++ le16 (v.extractLsb' 16 16)
def le64 (v : U64) : Bytes := le32 (v.extractLsb' 0 32) ++ le32 (v.extractLsb' 32 32)
/-- A number as a u8, u16, u32 or u64 field, taken modulo the field's range. -/
def n8 (n : Nat) : Bytes := [BitVec.ofNat 8 n]
def n16 (n : Nat) : Bytes := le16 (BitVec.ofNat 16 n)
def n32 (n : Nat) : Bytes := le32 (BitVec.ofNat 32 n)
def n64 (n : Nat) : Bytes := le64 (BitVec.ofNat 64 n)
/-- A signed number as a two's complement field. -/
def i32b (n : Int) : Bytes := le32 (BitVec.ofInt 32 n)
def i64b (n : Int) : Bytes := le64 (BitVec.ofInt 64 n)
/-- `n` reserved zero bytes (R8). -/
def zeros (n : Nat) : Bytes := List.replicate n 0
/-- A Boolean as a bit of weight 2^i. -/
def flag (b : Bool) (i : Nat) : Nat := if b then 2 ^ i else 0
/-- Every byte from offset i, n of them, is zero (R8). -/
def zeroAt (b : Bytes) (i n : Nat) : Bool := ((b.drop i).take n).all (· == 0)
/-- 0 as a signed number of 8, 32 or 64 bits. -/
def i8At (b : Bytes) (i : Nat) : Int := (byteAt b i).toInt
def i32At (b : Bytes) (i : Nat) : Int := (u32At b i).toInt
def i64At (b : Bytes) (i : Nat) : Int := (u64At b i).toInt
/-- Numeric readings of fields. -/
def n8At (b : Bytes) (i : Nat) : Nat := (byteAt b i).toNat
def n16At (b : Bytes) (i : Nat) : Nat := (u16At b i).toNat
def n32At (b : Bytes) (i : Nat) : Nat := (u32At b i).toNat
def n64At (b : Bytes) (i : Nat) : Nat := (u64At b i).toNat

/-- One bit of a reflected 32-bit CRC. -/
def crcBit (poly : Nat) (c : Nat) : Nat := if c % 2 = 1 then (c / 2) ^^^ poly else c / 2
/-- One byte of a reflected 32-bit CRC. -/
def crcByte (poly : Nat) (c : Nat) (b : Byte) : Nat :=
  let f := crcBit poly
  f (f (f (f (f (f (f (f (c ^^^ b.toNat))))))))
/-- CRC-32C of command packets (R10): Castagnoli, reflected, initial value and final XOR all ones. -/
def crc32c (b : Bytes) : U32 := BitVec.ofNat 32 (b.foldl (crcByte 0x82F63B78) 0xFFFFFFFF ^^^ 0xFFFFFFFF)
/-- CRC-32 of IEEE 802.3, of the safety parameter block (R10). -/
def crc32 (b : Bytes) : U32 := BitVec.ofNat 32 (b.foldl (crcByte 0xEDB88320) 0xFFFFFFFF ^^^ 0xFFFFFFFF)
/-- One bit of the CCITT CRC-16, most significant bit first. -/
def crc16Bit (c : Nat) : Nat := if c ≥ 0x8000 then ((c * 2) % 0x10000) ^^^ 0x1021 else c * 2
/-- One byte of the CCITT CRC-16. -/
def crc16Byte (c : Nat) (b : Byte) : Nat :=
  let f := crc16Bit
  f (f (f (f (f (f (f (f (c ^^^ (b.toNat * 256)))))))))
/-- CRC-16 of isolation link frames (R10): polynomial 0x1021, initial value 0xFFFF, not reflected. -/
def crc16 (b : Bytes) : U16 := BitVec.ofNat 16 (b.foldl crc16Byte 0xFFFF)

/-- A saturating u32, u16 or u8 increment (R7). -/
def satInc {w : Nat} (c : BitVec w) : BitVec w := if c = BitVec.allOnes w then c else c + 1

/-- `a` divided by `b`, rounded up. -/
def ceilDiv (a b : Nat) : Nat := (a + b - 1) / b

/-- Set the element at an index, leaving the list as it is where the index lies beyond it. -/
def upd {α : Type} (l : List α) (i : Nat) (f : α → α) : List α := l.modify i f

end Sys2Proof.Machine
end

