-- ==== Sys2Proof/Machine/Real.lean ====
section
/-! DEFINITION. IEEE 754 arithmetic by exact rational computation and one rounding: binary32 (R2, R3, R219)
and binary64 (R179). -/

namespace Sys2Proof.Machine

open Sys2Proof

/-- A binary32 NaN or infinity (R3). -/
def f32Bad (x : F32) : Bool := x.extractLsb' 23 8 == 0xFF#8
/-- A binary32 NaN. -/
def f32Nan (x : F32) : Bool := f32Bad x && x.extractLsb' 0 23 != 0#23
/-- The exact value of a finite binary32; infinities and NaN read 0, subnormals read 0 (R3, R219). -/
def f32Val (x : F32) : Rat :=
  let e := (x.extractLsb' 23 8).toNat
  let m := (x.extractLsb' 0 23).toNat
  if e = 0 ∨ e = 255 then 0 else
    let a : Rat := if e ≥ 150 then (((2 ^ 23 + m) * 2 ^ (e - 150) : Nat) : Rat)
      else mkRat ((2 ^ 23 + m : Nat) : Int) (2 ^ (150 - e))
    if x.msb then -a else a

/-- The quotient n·2^s / d rounded to nearest, ties to even; s can be negative. -/
def roundQuot (n d : Nat) (s : Int) : Nat :=
  let num := if s ≥ 0 then n * 2 ^ s.toNat else n
  let den := if s ≥ 0 then d else d * 2 ^ (-s).toNat
  let q := num / den
  let r := num % den
  if 2 * r > den ∨ (2 * r = den ∧ q % 2 = 1) then q + 1 else q

/-- The floor of log2 (n / d) for positive n and d. -/
def logQuot (n d : Nat) : Int :=
  let k : Int := (Nat.log2 n : Int) - (Nat.log2 d : Int)
  let ge : Bool := if k ≥ 0 then decide (n ≥ d * 2 ^ k.toNat) else decide (n * 2 ^ (-k).toNat ≥ d)
  if ge then k else k - 1

/-- Magnitude bits of a binary format with p significand bits and bias b, of the rational n / d, rounded to nearest even,
with gradual underflow; may reach or pass the encoding of infinity. -/
def roundMag (p b : Nat) (n d : Nat) : Nat :=
  if n = 0 then 0 else
    let k := logQuot n d
    let k' := max k (1 - (b : Int))
    let q := roundQuot n d ((p : Int) - 1 - k')
    (k' + (b : Int) - 1).toNat * 2 ^ (p - 1) + q

/-- A rational rounded to binary32; overflow gives infinity (IEEE 754, round to nearest even). -/
def toF32 (x : Rat) : F32 :=
  let m := min (roundMag 24 127 x.num.natAbs x.den) 0x7F800000
  BitVec.ofNat 32 (m + if x < 0 then 2 ^ 31 else 0)

/-- A rational rounded to binary64. -/
def toF64 (x : Rat) : F64 :=
  let m := min (roundMag 53 1023 x.num.natAbs x.den) 0x7FF0000000000000
  BitVec.ofNat 64 (m + if x < 0 then 2 ^ 63 else 0)

/-- The exact value of a finite binary64. -/
def f64Val (x : F64) : Rat :=
  let e := (x.extractLsb' 52 11).toNat
  let m := (x.extractLsb' 0 52).toNat
  if e = 2047 then 0 else
    let mant := if e = 0 then m else 2 ^ 52 + m
    let ex := if e = 0 then 1 else e
    let a : Rat := if ex ≥ 1075 then ((mant * 2 ^ (ex - 1075) : Nat) : Rat) else mkRat (mant : Int) (2 ^ (1075 - ex))
    if x.msb then -a else a

/-- A rational rounded to the nearest integer, ties to even. -/
def ratRound (x : Rat) : Int :=
  let q := (roundQuot x.num.natAbs x.den 0 : Int)
  if x.num < 0 then -q else q

/-- Floor of a rational. -/
def ratFloor (x : Rat) : Int := x.num / (x.den : Int)
/-- Ceiling of a rational. -/
def ratCeil (x : Rat) : Int := -((-x.num) / (x.den : Int))
/-- Absolute value of a rational. -/
def ratAbs (x : Rat) : Rat := if x < 0 then -x else x
/-- A rational held between two bounds. -/
def ratClamp (x lo hi : Rat) : Rat := if x < lo then lo else if x > hi then hi else x

/-- The square root of a non-negative rational, to 2^-96 relative to the scale of 1, rounded down. -/
def ratSqrt (x : Rat) : Rat :=
  if x ≤ 0 then 0 else
    mkRat ((Nat.sqrt (x.num.toNat * x.den * 2 ^ 192) : Nat) : Int) (x.den * 2 ^ 96)

/-- The binary32 square root, correctly rounded: enough bits with a sticky bit (R219). -/
def sqrtMag (n d : Nat) : Nat :=
  if n = 0 then 0 else
    let m := n * d * 2 ^ 320
    let r := Nat.sqrt m
    let st := if r * r = m then 0 else 1
    roundMag 24 127 (2 * r + st) (d * 2 ^ 161)

/-- Largest finite binary32 magnitude (R219). -/
def f32Max : F32 := 0x7F7FFFFF#32

/-- A result of engine arithmetic (R219): rounded to nearest even, subnormal results flushed to zero of the same sign, overflow to
the largest finite value of the same sign with an exception. -/
def engRound (x : Rat) : F32 × Bool :=
  let m := roundMag 24 127 x.num.natAbs x.den
  let sgn := if x < 0 then 2 ^ 31 else 0
  if m ≥ 0x7F800000 then (BitVec.ofNat 32 (0x7F7FFFFF + sgn), true)
  else if m < 0x00800000 then (BitVec.ofNat 32 sgn, false)
  else (BitVec.ofNat 32 (m + sgn), false)

/-- A parameter's value: a subnormal is zero (R3). -/
def f32Param (x : F32) : F32 := if x.extractLsb' 23 8 == 0#8 then x &&& 0x80000000#32 else x
/-- Order of finite binary32 values. -/
def f32Lt (a b : F32) : Bool := decide (f32Val a < f32Val b)
def f32Le (a b : F32) : Bool := decide (f32Val a ≤ f32Val b)

/-- The exact value of a finite binary32, subnormals included, as IEEE 754 has it. -/
def f32Raw (x : F32) : Rat :=
  if x.extractLsb' 23 8 = 0#8 then (if x.msb then -1 else 1) * mkRat (x.extractLsb' 0 23).toNat (2 ^ 149) else f32Val x

/-- The order of two binary32 patterns that may be anything (IEEE 754): a NaN stands in none, infinities lie outermost, and the
two zeros are equal. -/
def f32Key (a : F32) : Int := if a.msb then -((a.toNat : Int) - 2 ^ 31) else a.toNat
def f32IsNan (a : F32) : Bool := decide (0x7F800000 < a.toNat % 2 ^ 31)
def anyLt (a b : F32) : Bool := !f32IsNan a && !f32IsNan b && decide (f32Key a < f32Key b)
def anyLe (a b : F32) : Bool := !f32IsNan a && !f32IsNan b && decide (f32Key a ≤ f32Key b)
/-- A finite value lies in a closed range; a bound that binary32 does not hold stands for its nearest value. -/
def f32In (x : F32) (lo hi : Rat) : Bool := !f32Bad x && decide (f32Val (toF32 lo) ≤ f32Val x) && decide (f32Val x ≤ f32Val (toF32 hi))
/-- An integer as a binary32. -/
def f32OfInt (n : Int) : F32 := toF32 (n : Rat)

/-! ### Circular and exponential functions in fixed point (unit 2^-128) -/

/-- pi in units of 2^-128, rounded down. -/
def piFix : Int := 1069028584064966747859680373161870783300
/-- The Taylor series of cos (k = 0) or sin (k = 1) at t, both in units of 2^-128: n more terms from `term`. -/
def trigSeries (t : Int) : Nat → Nat → Int → Int
  | 0, _, _ => 0
  | n + 1, k, term => term + trigSeries t n (k + 2) (-(term * (t * t / 2 ^ 128) / 2 ^ 128) / (((k + 1) * (k + 2) : Nat) : Int))
/-- An angle in turns brought to -1/2 to 1/2 and turned into radians in units of 2^-128. -/
def turnFix (x : Rat) : Int :=
  let f := x - ratFloor (x + 1 / 2)
  ratFloor (f * 2 * piFix)
/-- cos and sin of an angle in turns. -/
def cosTurn (x : Rat) : Rat := mkRat (trigSeries (turnFix x) 32 0 (2 ^ 128)) (2 ^ 128)
def sinTurn (x : Rat) : Rat := mkRat (trigSeries (turnFix x) 32 1 (turnFix x)) (2 ^ 128)
/-- 2 pi. -/
def twoPi : Rat := mkRat (2 * piFix) (2 ^ 128)
/-- 2 pi in 2^-384, for the turns of an angle as large as binary32 holds. -/
def twoPiFine : Rat := mkRat (2 * 123785053203292407819553701039137184435442376711719744927844101526111311422332618694237111830548352286187237239491692) (2 ^ 384)
/-- cos and sin of an angle in radians. -/
def cosRad (x : Rat) : Rat := cosTurn (x / twoPiFine)
def sinRad (x : Rat) : Rat := sinTurn (x / twoPiFine)
/-- The series of the exponential function. -/
def expSeries (t : Int) : Nat → Nat → Int → Int
  | 0, _, _ => 0
  | n + 1, k, term => term + expSeries t n (k + 1) (term * t / 2 ^ 128 / ((k + 1 : Nat) : Int))
/-- Repeated squaring in fixed point. -/
def sqTimes : Nat → Int → Int
  | 0, v => v
  | n + 1, v => sqTimes n (v * v / 2 ^ 128)
/-- The exponential function: the argument divided by 256, the series' value squared eight times. -/
def expRat (x : Rat) : Rat := mkRat (sqTimes 8 (expSeries (ratFloor (x * 2 ^ 120)) 40 0 (2 ^ 128))) (2 ^ 128)

end Sys2Proof.Machine
end

