-- ==== Sys2Proof/Machine/Flags.lean ====
section
/-! DEFINITION. Engine arithmetic (R219, R590): binary32 operations with one rounding each, and the arithmetic exceptions
they raise: the one kind of flag computation the part has. An exception code is 0 for NaN and 1 for infinity (R246). -/

namespace Sys2Proof.Machine

open Sys2Proof

/-- A calculation: a value and the exceptions raised, newest first. -/
abbrev Fp := StateM (List Nat)

/-- Note an exception. -/
def raise (code : Nat) : Fp Unit := modify (code :: ·)

/-- A rational rounded under R219. -/
def fround (x : Rat) : Fp F32 := do
  let (v, ov) := engRound x
  if ov then raise 1
  return v

/-- Zero of a sign. -/
def fzero (neg : Bool) : F32 := if neg then 0x80000000#32 else 0#32
/-- The value reads as zero: zeros and subnormals (R219). -/
def fIsZero (x : F32) : Bool := x.extractLsb' 23 8 == 0#8

/-- A subnormal is zero of the same sign (R219). -/
def flush (x : F32) : F32 := if fIsZero x then fzero x.msb else x

/-- A result that would be NaN (R219). -/
def fNan : Fp F32 := do raise 0; return 0
/-- A result that would be an infinity of a sign (R219). -/
def fInf (neg : Bool) : Fp F32 := do raise 1; return (if neg then 0xFF7FFFFF#32 else 0x7F7FFFFF#32)

/-- A word from outside the engines' arithmetic as a result: NaN becomes 0.0, infinity the largest finite value,
a subnormal zero of the same sign (R219). -/
def fnorm (x : F32) : Fp F32 := if f32Nan x then fNan else if f32Bad x then fInf x.msb else return flush x

def fneg (x : F32) : F32 := x ^^^ 0x80000000#32
def fabs (x : F32) : F32 := flush x &&& 0x7FFFFFFF#32
/-- -x as a step of an operation. -/
def fnegOp (x : F32) : Fp F32 := fnorm (fneg x)

/-- a + b. A word that reaches the engines as a NaN or an infinity (a SYS time, a state word of the image) counts as IEEE 754
has it, and the result is replaced (R219). -/
def fadd (a b : F32) : Fp F32 :=
  if f32Nan a || f32Nan b || (f32Bad a && f32Bad b && a.msb != b.msb) then fNan
  else if f32Bad a then fInf a.msb else if f32Bad b then fInf b.msb
  else if fIsZero a && fIsZero b then return fzero (a.msb && b.msb)
  else if f32Val a + f32Val b = 0 then return 0 else fround (f32Val a + f32Val b)
/-- a - b. -/
def fsub (a b : F32) : Fp F32 := fadd a (fneg b)
/-- a x b. -/
def fmul (a b : F32) : Fp F32 :=
  if f32Nan a || f32Nan b || (f32Bad a && fIsZero b) || (fIsZero a && f32Bad b) then fNan
  else if f32Bad a || f32Bad b then fInf (a.msb != b.msb)
  else if fIsZero a || fIsZero b then return fzero (a.msb != b.msb) else fround (f32Val a * f32Val b)
/-- a / b: 0 / 0 would be NaN, another value over 0 infinity (R219). -/
def fdiv (a b : F32) : Fp F32 :=
  if f32Nan a || f32Nan b || (f32Bad a && f32Bad b) then fNan
  else if f32Bad a then fInf (a.msb != b.msb) else if f32Bad b then return fzero (a.msb != b.msb)
  else if fIsZero b then (if fIsZero a then fNan else fInf (a.msb != b.msb))
  else if fIsZero a then return fzero (a.msb != b.msb) else fround (f32Val a / f32Val b)
/-- a + b x c, rounded once; only formulas use it, on finite operands. -/
def fmac (a b c : F32) : Fp F32 :=
  let v := f32Val a + f32Val b * f32Val c
  if v = 0 then return fzero (a.msb && (b.msb != c.msb) && fIsZero a && (fIsZero b || fIsZero c)) else fround v
/-- The square root; of a negative value 0.0. -/
def fsqrt (a : F32) : F32 :=
  if fIsZero a then flush a else if a.msb then 0 else
    let v := f32Val a
    BitVec.ofNat 32 (sqrtMag v.num.toNat v.den)
def fmin (a b : F32) : F32 := flush (if f32Lt b a then b else a)
def fmax (a b : F32) : F32 := flush (if f32Lt a b then b else a)
/-- x held to lo to hi. -/
def fclamp (x lo hi : F32) : F32 := flush (if f32Lt x lo then lo else if f32Lt hi x then hi else x)
/-- The same of a word that can be a NaN or an infinity. -/
def fclampOp (x lo hi : F32) : Fp F32 :=
  if f32Nan x then fNan else return (if f32Bad x then flush (if x.msb then lo else hi) else fclamp x lo hi)
/-- a < b of words that can be NaN or infinities: no order with a NaN. -/
def fLess (a b : F32) : Bool :=
  if f32Nan a || f32Nan b then false
  else if f32Bad a then a.msb && !(f32Bad b && b.msb) else if f32Bad b then !b.msb else f32Lt a b
/-- The largest integral value not above x. -/
def ffloor (x : F32) : F32 := if fIsZero x then fzero x.msb else toF32 (ratFloor (f32Val x))
def fOne : F32 := 0x3F800000#32
def fTwo : F32 := 0x40000000#32
def fThree : F32 := 0x40400000#32
/-- A condition as 1.0 or 0.0. -/
def fBool (b : Bool) : F32 := if b then fOne else 0

/-- The next binary32 above or below. -/
def nextUp (x : F32) : F32 := if x.msb then (if fabs x = 0 then 1 else x - 1) else x + 1
def nextDown (x : F32) : F32 := if x.msb then x + 1 else if x = 0 then 0x80000001#32 else x - 1

/-- A result within 1 unit in the last place of an exact value (R590): one of its two neighbours, the exact value itself
where it is a binary32. -/
def elem (tag : Nat) (args : List F32) (exact : Rat) : Fp F32 :=
  let v := toF32 exact
  let up := Config.elemUp tag args
  if f32Val v = exact then fround exact
  else if f32Val v < exact then fround (f32Val (if up then nextUp v else v))
  else fround (f32Val (if up then v else nextDown v))

/-- sin and cos of a small angle in rad: the series keeps its relative precision there. -/
def sinSmall (x : Rat) : Rat := if ratAbs x < mkRat 1 (2 ^ 20) then x - x * x * x / 6 else sinRad x

/-- arctan of 0 to 1 by its series in 2^-128 after three halvings of the angle. -/
def atanSeries (t2 : Int) : Nat → Nat → Int → Int
  | 0, _, _ => 0
  | n + 1, k, p => p / (k : Int) + atanSeries t2 n (k + 2) (-(p * t2 / 2 ^ 128))
def halfAtan (x : Rat) : Rat := x / (1 + ratSqrt (1 + x * x))
/-- arctan x. -/
def atanRat (x : Rat) : Rat :=
  let a := ratAbs x
  let core (y : Rat) : Rat :=
    if y < mkRat 1 (2 ^ 20) then y - y * y * y / 3
    else
      let t := halfAtan (halfAtan (halfAtan y))
      let f := ratFloor (t * 2 ^ 128)
      8 * mkRat (atanSeries (f * f / 2 ^ 128) 45 1 f) (2 ^ 128)
  let r := if a ≤ 1 then core a else twoPi / 4 - core (1 / a)
  if x < 0 then -r else r
/-- atan2(y, x) in rad. -/
def atan2Rat (y x : Rat) : Rat :=
  if x > 0 then atanRat (y / x)
  else if x < 0 then (if y < 0 then atanRat (y / x) - twoPi / 2 else atanRat (y / x) + twoPi / 2)
  else if y < 0 then -(twoPi / 4) else twoPi / 4

def felemSin (x : F32) : Fp F32 := elem 0x14 [x] (sinSmall (f32Val x))
def felemCos (x : F32) : Fp F32 := elem 0x15 [x] (cosRad (f32Val x))
/-- exp of a value that is 0 or below. -/
def felemExp (x : F32) : Fp F32 := if f32Val x < -120 then return 0 else elem 1 [x] (expRat (f32Val x))
/-- The tangent as the quotient of the sine and the cosine: R590 names no tangent among the elementary functions. -/
def felemTan (x : F32) : Fp F32 := do fdiv (← felemSin x) (← felemCos x)
def felemAtan2 (y x : F32) : Fp F32 :=
  if fIsZero y && fIsZero x then fnorm (Config.libWord 0x16 [y, x] [] [] 0 0) else elem 0x16 [y, x] (atan2Rat (f32Val y) (f32Val x))
/-- sin and cos of a turn fraction (R4); exact at the quarter turns. -/
def turnSin (th : U32) : Fp F32 :=
  if th = 0 ∨ th = 0x80000000#32 then return 0 else elem 3 [th] (sinTurn (mkRat th.toNat (2 ^ 32)))
def turnCos (th : U32) : Fp F32 :=
  if th = 0x40000000#32 ∨ th = 0xC0000000#32 then return 0 else elem 4 [th] (cosTurn (mkRat th.toNat (2 ^ 32)))

/-- A second-order generalised integrator with a gain at an angular frequency (R236, R303, R334): with input x, in-phase word v and
quadrature word q it follows v' = w (gain (x - v) - q), q' = w v, so that q lags v by 90 degrees. The spec gives no
discretisation. Both words turn by the angle w t, so that at its own frequency the steady output is the input itself, in phase
and in quadrature, as R334 asks of an extractor; the correction of v towards the input is a mixture of the trapezoidal rule and
backward Euler that nothing fixes. Every step is rounded (R590). -/
def sogi (gain w t x : F32) (st : F32 × F32) : Fp (F32 × F32) := do
  let a ← fmul w t
  let c ← felemCos a
  let n ← felemSin a
  let v ← fsub (← fmul c st.1) (← fmul n st.2)
  let q ← fadd (← fmul n st.1) (← fmul c st.2)
  let k ← fmul a gain
  let m := toF32 (ratClamp Config.sogiMix (1 / 2) 1)
  let g ← fdiv k (← fadd fOne (← fmul m k))
  return (← fadd v (← fmul g (← fsub x v)), q)

end Sys2Proof.Machine
end

