-- ==== Sys2Proof/Machine/Crypto.lean ====
section
/-! DEFINITION. The algorithms that R10 names: SHA-256 and SHA-384, ECDSA over P-256 and P-384, AES, AES-CMAC and AES-256-GCM. The spec
names them and does not define them; they are taken from FIPS 180-4, FIPS 186-5, FIPS 197 and SP 800-38B and 38D (log 14). -/

namespace Sys2Proof.Machine

open Sys2Proof

/-- Bytes as a number, the first byte the highest, and a number as n such bytes. -/
def beNat (b : Bytes) : Nat := b.foldl (fun n x => 256 * n + x.toNat) 0
def beBytes (n v : Nat) : Bytes := (List.range n).map (fun i => BitVec.ofNat 8 (v / 256 ^ (n - 1 - i)))
/-- The pieces of n bytes of a string. -/
def chunks (n : Nat) (b : Bytes) : List Bytes := (List.range (b.length / n)).map (fun i => (b.drop (n * i)).take n)

/-! ### SHA-256 and SHA-384 -/

/-- A member of SHA-2: word width, first hash value, round constants, and the amounts of its sums. -/
structure Sha where
  w     : Nat
  h0    : List Nat
  k     : List Nat
  sums  : List (Nat × Nat × Nat) -- Sigma 0, Sigma 1, sigma 0, sigma 1; of the last two the third amount is a shift

/-- A word turned right. -/
def rotr (w x n : Nat) : Nat := (x >>> n ||| x <<< (w - n)) % 2 ^ w
/-- A sum of a word turned three ways, or with the third one shifted. -/
def shaSum (c : Sha) (i : Nat) (shifts : Bool) (x : Nat) : Nat :=
  let t := c.sums.getD i (0, 0, 0)
  rotr c.w x t.1 ^^^ rotr c.w x t.2.1 ^^^ (if shifts then x >>> t.2.2 else rotr c.w x t.2.2)
/-- One more word of the message schedule, which stands newest first. -/
def shaWord (c : Sha) (l : List Nat) : List Nat :=
  (shaSum c 3 true (l.getD 1 0) + l.getD 6 0 + shaSum c 2 true (l.getD 14 0) + l.getD 15 0) % 2 ^ c.w :: l
/-- One round on the eight working words, with its constant and its word of the schedule. -/
def shaRound (c : Sha) (v : List Nat) (kw : Nat × Nat) : List Nat :=
  match v with
  | [a, b, d, e, f, g, h, i] =>
    let t1 := i + shaSum c 1 false f + ((f &&& g) ^^^ ((2 ^ c.w - 1 - f) &&& h)) + kw.1 + kw.2
    let t2 := shaSum c 0 false a + ((a &&& b) ^^^ (a &&& d) ^^^ (b &&& d))
    [(t1 + t2) % 2 ^ c.w, a, b, d, (e + t1) % 2 ^ c.w, f, g, h]
  | _ => v
/-- One block of the message enters the hash value. -/
def shaBlock (c : Sha) (h : List Nat) (block : Bytes) : List Nat :=
  let first := ((chunks (c.w / 8) block).map beNat).reverse
  let words := ((List.range (c.k.length - 16)).foldl (fun l _ => shaWord c l) first).reverse
  (h.zip ((c.k.zip words).foldl (shaRound c) h)).map (fun p => (p.1 + p.2) % 2 ^ c.w)
/-- The hash of a message, its first n bytes. -/
def sha2 (c : Sha) (n : Nat) (b : Bytes) : Bytes :=
  let size := 2 * c.w
  let pad := size - (b.length + 1 + c.w / 4) % size
  let m := b ++ [0x80] ++ zeros (pad % size) ++ beBytes (c.w / 4) (8 * b.length)
  (((chunks size m).foldl (shaBlock c) c.h0).flatMap (beBytes (c.w / 8))).take n

/-- First hash value and constants of SHA-256. -/
def sha256c : Sha :=
  { w := 32, h0 := [0x6A09E667, 0xBB67AE85, 0x3C6EF372, 0xA54FF53A, 0x510E527F, 0x9B05688C, 0x1F83D9AB, 0x5BE0CD19],
    k := [0x428A2F98, 0x71374491, 0xB5C0FBCF, 0xE9B5DBA5, 0x3956C25B, 0x59F111F1, 0x923F82A4, 0xAB1C5ED5,
   0xD807AA98, 0x12835B01, 0x243185BE, 0x550C7DC3, 0x72BE5D74, 0x80DEB1FE, 0x9BDC06A7, 0xC19BF174,
   0xE49B69C1, 0xEFBE4786, 0x0FC19DC6, 0x240CA1CC, 0x2DE92C6F, 0x4A7484AA, 0x5CB0A9DC, 0x76F988DA,
   0x983E5152, 0xA831C66D, 0xB00327C8, 0xBF597FC7, 0xC6E00BF3, 0xD5A79147, 0x06CA6351, 0x14292967] ++ [
   0x27B70A85, 0x2E1B2138, 0x4D2C6DFC, 0x53380D13, 0x650A7354, 0x766A0ABB, 0x81C2C92E, 0x92722C85,
   0xA2BFE8A1, 0xA81A664B, 0xC24B8B70, 0xC76C51A3, 0xD192E819, 0xD6990624, 0xF40E3585, 0x106AA070,
   0x19A4C116, 0x1E376C08, 0x2748774C, 0x34B0BCB5, 0x391C0CB3, 0x4ED8AA4A, 0x5B9CCA4F, 0x682E6FF3,
   0x748F82EE, 0x78A5636F, 0x84C87814, 0x8CC70208, 0x90BEFFFA, 0xA4506CEB, 0xBEF9A3F7, 0xC67178F2],
    sums := [(2, 13, 22), (6, 11, 25), (7, 18, 3), (17, 19, 10)] }
/-- First hash value and constants of SHA-384. -/
def sha384c : Sha :=
  { w := 64, h0 := [0xCBBB9D5DC1059ED8, 0x629A292A367CD507, 0x9159015A3070DD17, 0x152FECD8F70E5939, 0x67332667FFC00B31, 0x8EB44A8768581511, 0xDB0C2E0D64F98FA7, 0x47B5481DBEFA4FA4],
    k := [0x428A2F98D728AE22, 0x7137449123EF65CD, 0xB5C0FBCFEC4D3B2F, 0xE9B5DBA58189DBBC, 0x3956C25BF348B538,
   0x59F111F1B605D019, 0x923F82A4AF194F9B, 0xAB1C5ED5DA6D8118, 0xD807AA98A3030242, 0x12835B0145706FBE,
   0x243185BE4EE4B28C, 0x550C7DC3D5FFB4E2, 0x72BE5D74F27B896F, 0x80DEB1FE3B1696B1, 0x9BDC06A725C71235,
   0xC19BF174CF692694, 0xE49B69C19EF14AD2, 0xEFBE4786384F25E3, 0x0FC19DC68B8CD5B5, 0x240CA1CC77AC9C65,
   0x2DE92C6F592B0275, 0x4A7484AA6EA6E483, 0x5CB0A9DCBD41FBD4, 0x76F988DA831153B5, 0x983E5152EE66DFAB,
   0xA831C66D2DB43210, 0xB00327C898FB213F, 0xBF597FC7BEEF0EE4, 0xC6E00BF33DA88FC2, 0xD5A79147930AA725,
   0x06CA6351E003826F, 0x142929670A0E6E70, 0x27B70A8546D22FFC, 0x2E1B21385C26C926, 0x4D2C6DFC5AC42AED,
   0x53380D139D95B3DF, 0x650A73548BAF63DE, 0x766A0ABB3C77B2A8, 0x81C2C92E47EDAEE6, 0x92722C851482353B] ++ [
   0xA2BFE8A14CF10364, 0xA81A664BBC423001, 0xC24B8B70D0F89791, 0xC76C51A30654BE30, 0xD192E819D6EF5218,
   0xD69906245565A910, 0xF40E35855771202A, 0x106AA07032BBD1B8, 0x19A4C116B8D2D0C8, 0x1E376C085141AB53,
   0x2748774CDF8EEB99, 0x34B0BCB5E19B48A8, 0x391C0CB3C5C95A63, 0x4ED8AA4AE3418ACB, 0x5B9CCA4F7763E373,
   0x682E6FF3D6B2B8A3, 0x748F82EE5DEFB2FC, 0x78A5636F43172F60, 0x84C87814A1F0AB72, 0x8CC702081A6439EC,
   0x90BEFFFA23631E28, 0xA4506CEBDE82BDE9, 0xBEF9A3F7B2C67915, 0xC67178F2E372532B, 0xCA273ECEEA26619C,
   0xD186B8C721C0C207, 0xEADA7DD6CDE0EB1E, 0xF57D4F7FEE6ED178, 0x06F067AA72176FBA, 0x0A637DC5A2C898A6,
   0x113F9804BEF90DAE, 0x1B710B35131C471B, 0x28DB77F523047D84, 0x32CAAB7B40C72493, 0x3C9EBE0A15C9BEBC,
   0x431D67C49C100D4C, 0x4CC5D4BECB3E42B6, 0x597F299CFC657E2A, 0x5FCB6FAB3AD6FAEC, 0x6C44198C4A475817],
    sums := [(28, 34, 39), (14, 18, 41), (1, 8, 7), (19, 61, 6)] }
/-- SHA-256 and SHA-384 of a message (R10). -/
def sha256 (b : Bytes) : Bytes := sha2 sha256c 32 b
def sha384 (b : Bytes) : Bytes := sha2 sha384c 48 b

/-! ### ECDSA over P-256 and P-384 -/

/-- A curve y^2 = x^3 - 3 x + b over the integers modulo p, with its base point of order n; its numbers have `size` bytes. -/
structure Curve where
  size : Nat
  p    : Nat
  n    : Nat
  b    : Nat
  gx   : Nat
  gy   : Nat

/-- P-256. -/
def p256c : Curve :=
  { size := 32, p := 2 ^ 256 - 2 ^ 224 + 2 ^ 192 + 2 ^ 96 - 1
    n := 0xFFFFFFFF00000000FFFFFFFFFFFFFFFFBCE6FAADA7179E84F3B9CAC2FC632551
    b := 0x5AC635D8AA3A93E7B3EBBD55769886BC651D06B0CC53B0F63BCE3C3E27D2604B
    gx := 0x6B17D1F2E12C4247F8BCE6E563A440F277037D812DEB33A0F4A13945D898C296
    gy := 0x4FE342E2FE1A7F9B8EE7EB4A7C0F9E162BCE33576B315ECECBB6406837BF51F5 }
/-- P-384. -/
def p384c : Curve :=
  { size := 48, p := 2 ^ 384 - 2 ^ 128 - 2 ^ 96 + 2 ^ 32 - 1
    n := 0xFFFFFFFFFFFFFFFFFFFFFFFFFFFFFFFFFFFFFFFFFFFFFFFFC7634D81F4372DDF581A0DB248B0A77AECEC196ACCC52973
    b := 0xB3312FA7E23EE7E4988E056BE3F82D19181D9C6EFE8141120314088F5013875AC656398D8A2ED19D2A85C8EDD3EC2AEF
    gx := 0xAA87CA22BE8B05378EB1C71EF320AD746E1D3B628BA79B9859F741E082542A385502F25DBF55296C3A545E3872760AB7
    gy := 0x3617DE4A96262C6F5D9E98BF9292DC29F8F41DBD289A147CE9DA3113B5F0B8C00A60B1CE1D7E819D7A431D7C90EA0E5F }

/-- Bits of a number, the highest first. -/
def bitsDown (n v : Nat) : List Bool := (List.range n).map (fun i => v.testBit (n - 1 - i))
/-- A power modulo m. -/
def powMod (m b e : Nat) : Nat := (bitsDown 400 e).foldl (fun r t => if t then r * r % m * b % m else r * r % m) 1
/-- The inverse modulo a prime. -/
def invMod (p a : Nat) : Nat := powMod p a (p - 2)
/-- The sum of two points, `none` being the point at infinity. -/
def ecAdd (c : Curve) (a b : Option (Nat × Nat)) : Option (Nat × Nat) :=
  match a, b with
  | none, q => q
  | q, none => q
  | some (x1, y1), some (x2, y2) =>
    if x1 = x2 ∧ (y1 + y2) % c.p = 0 then none
    else
      let l := if x1 = x2 then (3 * x1 * x1 + c.p - 3) * invMod c.p (2 * y1) % c.p else (y2 + c.p - y1) * invMod c.p (x2 + c.p - x1) % c.p
      let x := (l * l + 2 * c.p - x1 - x2) % c.p
      some (x, (l * (x1 + c.p - x) + c.p - y1) % c.p)
/-- Twice a point in Jacobian coordinates: x / z^2 and y / z^3, with z = 0 at infinity. -/
def ecTwice (p : Nat) (a : Nat × Nat × Nat) : Nat × Nat × Nat :=
  match a with
  | (x, y, z) =>
    let t := y * y % p
    let s := 4 * x * t % p
    let m := 3 * (x + p - z * z % p) * (x + z * z) % p
    let u := (m * m + 2 * (p - s)) % p
    (u, (m * (s + p - u) + 8 * (p - t * t % p)) % p, 2 * y * z % p)
/-- A point in Jacobian coordinates plus one in plain ones. -/
def ecPlus (p x2 y2 : Nat) (a : Nat × Nat × Nat) : Nat × Nat × Nat :=
  match a with
  | (x, y, z) =>
    if z = 0 then (x2, y2, 1)
    else
      let h := (x2 * (z * z % p) + p - x) % p
      let r := (y2 * (z * z % p * z % p) + p - y) % p
      if h = 0 then (if r = 0 then ecTwice p a else (1, 1, 0))
      else
        let h2 := h * h % p
        let h3 := h2 * h % p
        let v := x * h2 % p
        let u := (r * r + (p - h3) + 2 * (p - v)) % p
        (u, (r * (v + p - u) + y * (p - h3)) % p, z * h % p)
/-- A multiple of a point, worked out in Jacobian coordinates. -/
def ecMul (c : Curve) (k : Nat) (a : Option (Nat × Nat)) : Option (Nat × Nat) :=
  match a with
  | none => none
  | some (x, y) =>
    match (bitsDown (8 * c.size) k).foldl (fun r t => if t then ecPlus c.p x y (ecTwice c.p r) else ecTwice c.p r) (1, 1, 0) with
    | (u, v, z) =>
      if z = 0 then none
      else
        let i := invMod c.p z
        let j := i * i % c.p
        some (u * j % c.p, v * (j * i % c.p) % c.p)
/-- A public key, x then y. -/
def ecKey (c : Curve) (b : Bytes) : Nat × Nat := (beNat (slice b 0 c.size), beNat (slice b c.size c.size))
/-- The signature, r then s, of a message with a hash verifies under a public key. -/
def ecdsaOk (c : Curve) (key hash sig : Bytes) : Bool :=
  let (x, y) := ecKey c key
  let (r, s) := ecKey c sig
  let w := invMod c.n s
  decide (x < c.p) && decide (y < c.p) && decide (y * y % c.p = (x * x * x + 3 * (c.p - x) + c.b) % c.p)
    && decide (1 ≤ r) && decide (r < c.n) && decide (1 ≤ s) && decide (s < c.n)
    && (match ecAdd c (ecMul c (beNat hash * w % c.n) (some (c.gx, c.gy))) (ecMul c (r * w % c.n) (some (x, y))) with
        | some (u, _) => decide (u % c.n = r)
        | none => false)
/-- The keys under which a signature of a hash can verify: those of the points whose x is r, or r + n. -/
def ecKeysOf (c : Curve) (hash sig : Bytes) : List Bytes :=
  let (r, s) := ecKey c sig
  let w := invMod c.n r
  ([r, r + c.n] : List Nat).flatMap (fun x =>
    let y := powMod c.p (x * x * x + 3 * (c.p - x % c.p) + c.b) ((c.p + 1) / 4)
    ([y, c.p - y] : List Nat).filterMap (fun v =>
      (ecAdd c (ecMul c (s * w % c.n) (some (x, v))) (ecMul c ((c.n - beNat hash % c.n) * w % c.n) (some (c.gx, c.gy)))).map
        (fun q => beBytes c.size q.1 ++ beBytes c.size q.2)))
/-- A number that a key or a signature may use, from drawn bytes. -/
def ecScalar (c : Curve) (b : Bytes) : Nat := beNat b % (c.n - 1) + 1
/-- The public key of a private one. -/
def ecPublic (c : Curve) (d : Nat) : Bytes :=
  match ecMul c d (some (c.gx, c.gy)) with | some (x, y) => beBytes c.size x ++ beBytes c.size y | none => zeros (2 * c.size)
/-- A signature of a hash by a private key, with the number k of this signature. -/
def ecdsaSign (c : Curve) (d k : Nat) (hash : Bytes) : Bytes :=
  let r := (match ecMul c k (some (c.gx, c.gy)) with | some (x, _) => x | none => 0) % c.n
  beBytes c.size r ++ beBytes c.size (invMod c.n k * (beNat hash + r * d) % c.n)

/-! ### AES, AES-CMAC and AES-GCM -/

/-- The substitution of SubBytes, the byte of x at bits 8 x. -/
def aesBox : Nat :=
  0x16BB54B00F2D99416842E6BF0D89A18CDF2855CEE9871E9B948ED9691198F8E19E1DC186B95735610EF6034866B53E708A8BBD4B1F74DDE8C6B4A61C2E2578BA08AE7A65EAF4566CA94ED58D6D37C8E779E4959162ACD3C25C2406490A3A32E0DB0B5EDE14B8EE4688902A22DC4F816073195D643D7EA7C41744975FEC130CCDD2F3FF1021DAB6BCF5389D928F40A351A89F3C507F02F94585334D43FBAAEFD0CF584C4A39BECB6A5BB1FC20ED00D153842FE329B3D63B52A05A6E1B1A2C830975B227EBE28012079A059618C323C7041531D871F1E5A534CCF73F362693FDB7C072A49CAFA2D4ADF04759FA7DC982CA76ABD7FE2B670130C56F6BF27B777C63
/-- Byte x substituted, and x doubled in the field of AES. -/
def aesSub (x : Nat) : Nat := (aesBox >>> (8 * x)) % 256
def aesDouble (x : Nat) : Nat := if x < 128 then 2 * x else (2 * x) ^^^ 0x11B
/-- One more word of the key schedule, which stands newest first, for a key of nk words; r is the round constant. -/
def aesWord (nk i r : Nat) (l : List (List Nat)) : List (List Nat) :=
  let t := l.headD []
  let u := if i % nk = 0 then (match t with | [a, b, c, d] => [aesSub b ^^^ r, aesSub c, aesSub d, aesSub a] | _ => t)
    else if nk > 6 ∧ i % nk = 4 then t.map aesSub else t
  ((l.getD (nk - 1) []).zip u).map (fun p => p.1 ^^^ p.2) :: l
/-- The round keys of a key of 16 or 32 bytes, each as 16 bytes. -/
def aesKeys (key : Bytes) : List (List Nat) :=
  let nk := key.length / 4
  let first := ((chunks 4 key).map (fun b => b.map BitVec.toNat)).reverse
  let ws := ((List.range (3 * nk + 28)).foldl (fun (a : List (List Nat) × Nat) j =>
    (aesWord nk (nk + j) a.2 a.1, if j % nk = 0 then aesDouble a.2 else a.2)) (first, 1)).1.reverse
  (List.range (nk + 7)).map (fun r => ((ws.drop (4 * r)).take 4).flatten)
/-- SubBytes and ShiftRows. -/
def aesShift (st : List Nat) : List Nat :=
  (List.range 16).map (fun i => aesSub (st.getD ((i + 4 * (i % 4)) % 16) 0))
/-- MixColumns. -/
def aesMix (st : List Nat) : List Nat :=
  (List.range 16).map (fun i =>
    let b (k : Nat) : Nat := st.getD (i / 4 * 4 + (i + k) % 4) 0
    aesDouble (b 0) ^^^ aesDouble (b 1) ^^^ b 1 ^^^ b 2 ^^^ b 3)
def aesXor (a b : List Nat) : List Nat := (a.zip b).map (fun p => p.1 ^^^ p.2)
/-- A block of 16 bytes, as a number, under the round keys. -/
def aesBlock (keys : List (List Nat)) (v : Nat) : Nat :=
  let st := (beBytes 16 v).map BitVec.toNat
  let n := keys.length - 1
  let mid := ((keys.drop 1).take (n - 1)).foldl (fun st k => aesXor (aesMix (aesShift st)) k) (aesXor st (keys.headD []))
  (aesXor (aesShift mid) (keys.getD n [])).foldl (fun a b => 256 * a + b) 0

/-- Doubling of the subkeys of CMAC. -/
def cmacDouble (x : Nat) : Nat := if x < 2 ^ 127 then 2 * x else (2 * x) % 2 ^ 128 ^^^ 0x87
/-- AES-CMAC of a message under a key (R10). -/
def aesCmac (key msg : Bytes) : Bytes :=
  let ks := aesKeys key
  let k1 := cmacDouble (aesBlock ks 0)
  let full := msg.length % 16 = 0 ∧ msg.length ≠ 0
  let bs := (chunks 16 (if full then msg else msg ++ [0x80] ++ zeros (15 - msg.length % 16))).map beNat
  let last := bs.getLastD 0 ^^^ (if full then k1 else cmacDouble k1)
  beBytes 16 ((bs.dropLast ++ [last]).foldl (fun x b => aesBlock ks (x ^^^ b)) 0)

/-- The product of GHASH. -/
def gcmMul (x y : Nat) : Nat :=
  ((bitsDown 128 x).foldl (fun (a : Nat × Nat) t => (if t then a.1 ^^^ a.2 else a.1, if a.2 % 2 = 1 then a.2 / 2 ^^^ 0xE1 * 2 ^ 120 else a.2 / 2)) (0, y)).1
/-- Whole blocks of 16 bytes, the last one filled with zeros. -/
def gcmBlocks (b : Bytes) : List Nat := (chunks 16 (b ++ zeros ((16 - b.length % 16) % 16))).map beNat
/-- The tag of AES-GCM over additional data and a ciphertext, under a 12-byte nonce. -/
def gcmTag (key iv ad c : Bytes) : Bytes :=
  let ks := aesKeys key
  let h := aesBlock ks 0
  let s := (gcmBlocks ad ++ gcmBlocks c ++ [8 * ad.length * 2 ^ 64 + 8 * c.length]).foldl (fun x b => gcmMul (x ^^^ b) h) 0
  beBytes 16 (s ^^^ aesBlock ks (beNat iv * 2 ^ 32 + 1))
/-- A text under the key stream of AES-GCM: encryption and decryption are the same. -/
def gcmText (key iv t : Bytes) : Bytes :=
  let ks := aesKeys key
  (((gcmBlocks t).zipIdx.map (fun p => p.1 ^^^ aesBlock ks (beNat iv * 2 ^ 32 + (p.2 + 2) % 2 ^ 32))).flatMap (beBytes 16)).take t.length

end Sys2Proof.Machine
end

