-- ==== Sys2Proof/Machine/StCan.lean ====
section
/-! DEFINITION. State of the CAN FD ports CAN0 to CAN5, their message RAM and their taps (spec/18). -/

namespace Sys2Proof.Machine

open Sys2Proof

/-- Error confinement states (R475, R482); a shutdown stands beside them. -/
inductive CanBus where
  | off | active | passive | busOff | recovering
deriving DecidableEq, Repr

/-- Bit timing (R469): prescaler, tseg1, tseg2 and sjw of the nominal and the data phase, tdc_offset. -/
structure CanTiming where
  nPre : Nat
  nT1  : Nat
  nT2  : Nat
  nSjw : Nat
  dPre : Nat
  dT1  : Nat
  dT2  : Nat
  dSjw : Nat
  tdcOffset : Nat
deriving DecidableEq, Repr

/-- A CAN port (R468 to R477, R481, R482). -/
structure CanPort where
  bus        : CanBus
  shutting   : Option Nat      -- bound of a shutdown in progress, raw count
  restricted : Bool
  fd         : Bool
  tdcOn      : Bool
  acceptAll  : Bool
  inOrder    : Bool            -- order by sending
  tapEntries : Nat
  timing     : CanTiming
  away       : Bool            -- not taking part on the bus since the Host island ran on fallback (R470)
  tec        : Nat
  recv        : Nat
  lastError  : Nat
  queue      : List Nat        -- entries with status QUEUED, in order of CAN_SEND
  current    : Option Nat      -- the entry in transmission
  tooLate    : Bool            -- its cancel came too late (R477)
  rxHead     : Nat
  rxHeld     : Nat
  tdc        : Byte
  seq        : U32             -- frames sent or received
  txSent     : U32
  txCancelled : U32
  txLateLost : U32
  rxFrames   : U32
  rxOverflow : U32
  tapDrops   : U32
  superseded : U32
  busOffs    : U32
  errors     : U32
deriving DecidableEq, Repr

/-- A field of a tap (CAN_TAP field entry). -/
structure CanField where
  start  : Nat
  length : Nat
  format : Nat
  scale  : F32
  offset : F32
deriving DecidableEq, Repr

/-- A receive tap index: a value tap, or an age tap naming its source (R478, R479). -/
inductive RxTap where
  | value (port : Nat) (id mask : U32) (field : CanField) (timeout : Nat) (dflt value : F32) (updated : Option Nat)
  | age (source : Nat)
deriving DecidableEq, Repr

/-- A transmit tap, its reserved entry, and the frame that waits for the attempt in progress to end (R480). -/
structure TxTap where
  port   : Nat
  id     : U32                 -- identifier and IDE
  fdf    : Bool
  brs    : Bool
  dlc    : Nat
  fields : List CanField
  entry  : Nat
  next   : Option (List Byte)
deriving DecidableEq, Repr

/-- The CAN ports, the message RAM (offsets in its window) and the taps by index. -/
structure Can where
  mem   : List Host.Cell
  ports : List CanPort
  rx    : List (Nat × RxTap)
  tx    : List (Nat × TxTap)
deriving DecidableEq, Repr

def canTiming0 : CanTiming := { nPre := 0, nT1 := 0, nT2 := 0, nSjw := 0, dPre := 0, dT1 := 0, dT2 := 0, dSjw := 0, tdcOffset := 0 }
/-- A port after reset: OFF, nothing configured. -/
def canPort0 : CanPort :=
  { bus := .off, shutting := none, restricted := false, fd := false, tdcOn := false, acceptAll := false, inOrder := false, tapEntries := 0, timing := canTiming0,
    away := false, tec := 0, recv := 0, lastError := 0, queue := [], current := none, tooLate := false, rxHead := 0, rxHeld := 0, tdc := 0, seq := 0,
    txSent := 0, txCancelled := 0, txLateLost := 0, rxFrames := 0, rxOverflow := 0, tapDrops := 0, superseded := 0, busOffs := 0, errors := 0 }
def can0 : Can := { mem := [], ports := List.replicate 6 canPort0, rx := [], tx := [] }

end Sys2Proof.Machine
end

