-- ==== Sys2Proof/Machine/StPort.lean ====
section
/-! DEFINITION. State of the command port, the UDP sessions, the event log, the bulk port, the state
image, the supplies, BOOT and the start governor (spec/02, 03, 04, 17). Plain data only. -/

namespace Sys2Proof.Machine

open Sys2Proof

/-- Device states with the codes of R77. -/
inductive DevState where
  | boot | config | ready | run | safe
deriving DecidableEq, Repr

/-- Lifecycle states (R543). -/
inductive Lifecycle where
  | blank | develop | production | commissioned | returned | ended
deriving DecidableEq, Repr

/-- A request packet waiting to be carried out (R45, R47, R67): its transport, the sequence number of its
datagram (0 on the command port), the source address a UDP reply goes to, and the packet's bytes. `refusal` is the
status that answers a packet already refused or discarded on arrival (R45, R75): it is no packet of the request
queue, and stands there only to be answered in its turn (R62). -/
structure Req where
  via     : Transport
  seq     : U32
  srcIp   : U32
  srcPort : U16
  refusal : Option U16
  bytes   : Bytes
deriving DecidableEq, Repr

/-- A reply in the command port's reply queue; `reserved` marks the reserved entry of R48. -/
structure QReply where
  bytes      : Bytes
  completion : Bool
  reserved   : Bool
deriving DecidableEq, Repr

/-- The command port (R42 to R49, R64). -/
structure CmdPort where
  isOpen   : Bool            -- the port accepts transactions (R128)
  requests : List Req        -- request queue, oldest first, at most 4 packets (R47), and the refusals to be answered
  replies  : List QReply     -- reply queue, head first, at most 16 and the reserved entry (R47, R48)
  waiting  : List QReply     -- completion replies waiting for room (R64)
  miso     : Bytes           -- bytes sent in the last transaction (R44, R46)
  cpol     : Bool            -- clock polarity taken at the last fall of CMD_CS_N (R42)
  held     : Option Transport -- the transport whose front request the pair holds for the parameter queue (R261)
deriving DecidableEq, Repr

/-- One entry of the event log that is not yet acknowledged (R85 to R90). -/
structure LogEntry where
  seq    : U32
  time   : U32
  code   : U16
  source : Byte
  rept   : Byte
  data   : Bytes
  read   : Bool
deriving DecidableEq, Repr

/-- The event log and the mask of ATTN_N (R85 to R91). -/
structure EventLog where
  entries : List LogEntry    -- unacknowledged entries, oldest first
  nextSeq : U32              -- sequence of the next new entry (R85)
  lost    : U32              -- events dropped, saturating (R87)
  mask    : U32              -- CLASS and ATTN_ON_REPLY bits (R91)
  excl    : List U16         -- excluded codes
deriving DecidableEq, Repr

/-- What an accepted long operation or a queued start still owes (R58 to R64, R135). -/
structure Owed where
  opcode : U16
  tag    : Byte
  via    : Transport
  onDone : Bool              -- REPLY_ON_COMPLETION (R53)
  srcIp  : U32
  srcPort : U16
deriving DecidableEq, Repr

/-- A long operation in progress; `key` tells operations of one opcode apart; `result` is set when it has
ended but must wait for an earlier one of its class (R63). -/
structure LongOp where
  owed   : Owed
  key    : Nat
  result : Option (U16 × Bytes)
deriving DecidableEq, Repr

/-- Which part of start-up the device is in (R118 to R128). -/
inductive BootPhase where
  | inReset     -- the reset is asserted
  | wiping      -- t_rel has passed, the wipe runs (R124)
  | selfTest    -- the wipe is complete, self-tests and relock run
  | portOpen    -- BOOT with the command and bulk ports open (R128)
  | finished    -- BOOT has ended
deriving DecidableEq, Repr

/-- System state: device state, lifecycle, requests in progress (R77 to R84, R118 to R132). -/
structure Sys where
  dev          : DevState
  lifecycle    : Lifecycle
  phase        : BootPhase
  cause        : Byte               -- cause latch (R119, R120)
  intern       : Bool               -- an internal cause has asserted in the reset in progress (R118)
  causeOpen    : Bool               -- no time has passed since the reset was asserted: a lower code still counts (R120)
  cold         : Bool               -- the last reset was a cold one (R121)
  bootsel      : Nat                -- BOOTSEL1, BOOTSEL0 as sampled
  bootPath     : Bool               -- true: the staged image runs (R141)
  imageVersion : U32
  requests     : U32                -- SYS_STATUS counters
  errors       : U32
  stateChange  : Bool               -- a RUN to READY transition is in progress (R84)
  resetDue     : Option (Nat × Byte) -- start instant and cause of a scheduled reset (R121)
  longs        : List LongOp        -- long operations in order of acceptance
  selftestFail : Option Nat         -- failing BOOT self-test (R129)
  vendorOpen   : Bool               -- a vendor session is open (R81)
  safeOffA     : Bool               -- level of SAFE_OFF_A_N
  safeOffB     : Bool               -- level of SAFE_OFF_B_N
  faultN       : Bool               -- level of FAULT_N
  released     : Bool               -- the first driver-supply release of this RUN period is done (R134)
deriving DecidableEq, Repr

/-- A UDP session (R67 to R75). `window` holds the accepted sequences from H - 63 to H. -/
structure Session where
  port    : Nat
  sid     : U32
  ip      : U32              -- source address of the host that opened it
  key     : Bytes
  high    : U32
  window  : List U32
  txSeq   : U32
  lastReq : Nat              -- raw count of the last accepted request
  owing   : Nat              -- requests waiting for an immediate reply (R75)
deriving DecidableEq, Repr

/-- An Ethernet frame as sent (R459, R460): its port, the VID and PCP of its tag, the IPv4 address of its first hop (none
for a frame that is no IPv4 packet), and what it carries. -/
structure SentFrame where
  port : Nat
  tag  : Option (Nat × Nat)
  hop  : Option U32
  body : Bytes
deriving DecidableEq, Repr

/-- The UDP command transport (R67 to R75) and the Ethernet frames sent. -/
structure Udp where
  sessions : List Session
  queue    : List Req              -- accepted requests of every session, session opens and refusals, oldest first
  nonces0  : List Bytes            -- host nonces of ETH0's last 64 accepted opens (R73)
  nonces1  : List Bytes
  sent     : List SentFrame        -- frames put on the wire, oldest first
deriving DecidableEq, Repr

/-- The bulk port (R92 to R110). -/
structure BulkPort where
  held     : Bool           -- a latch is held (R107)
  epoch    : U32            -- epoch of the last latch taken
  lastUse  : Nat            -- raw count of the end of the last state-image burst (R108)
  refusedF : Bool           -- REFUSED
  expired  : Bool           -- HOLD_EXPIRED
  refused  : U16            -- refused count, saturating
  out      : Bytes          -- data bytes driven in the last transaction
deriving DecidableEq, Repr

/-- The publication assembler and its image buffers (R33 to R37, R105). Images list their non-zero bytes. -/
structure Image where
  host      : List Host.Cell      -- host-visible buffer
  back      : Option (List Host.Cell)  -- buffer being assembled
  latched   : List Host.Cell      -- latched buffer
  epoch     : U32
  running   : Bool                -- publications have begun
  due       : Nat                 -- next t_pub on the extended raw count
  rate      : U32                 -- publication rate of the interval in progress
  newRate   : U32                 -- rate of the next interval (R34)
deriving DecidableEq, Repr

/-- Supervision of the control-die rails (R113 to R116, R141). -/
structure Supply where
  flags     : BitVec 6            -- supply_flags
  warnCount : U32
  volts     : List F32            -- v_core, v_ser, v_18, v_io, v_ana
  tj        : F32
  tjMax     : Option F32          -- none until tj has been measured since the reset
  trims     : List Host.Cell      -- the vendor area of the OTP, with the trims of the supervisor and the temperature sensor, as last loaded (R121, R540)
deriving DecidableEq, Repr

/-- A start waiting in a queue of the start governor (R134 to R138): the stage, half-bridge or output it is
for, the opcode and tag of the request it came from (zero for an act of a graph), and the request it still answers (none
for an action that follows an accepted start). -/
structure GovEntry where
  unit   : Nat
  opcode : U16
  tag    : Byte
  owed   : Option Owed
deriving DecidableEq, Repr

/-- The start governor (R134 to R138). -/
structure Governor where
  pullin      : List GovEntry     -- waiting outputs
  precharge   : List GovEntry     -- waiting half-bridges
  release     : List GovEntry     -- waiting stages
  inPullin    : List Nat          -- outputs in pull-in now, at most two
  lastPre     : Option Nat        -- raw count of the last precharge start
  lastRelease : Option Nat        -- raw count of the last driver-supply release
  wakes       : List Nat          -- raw counts of the newest two engine wakes, newest first
deriving DecidableEq, Repr

/-- A verification in progress (R132, R133): its start, the staged length, and the datagram sender to answer, if one
started it. -/
structure Verification where
  start  : Nat
  staged : Nat
  sender : Option (U32 × U16 × U32) -- address, port, offset of the last datagram
deriving DecidableEq, Repr

/-- The image staging window and its verification (R131 to R133). -/
structure Staging where
  isOpen    : Bool
  verifying : Option Verification
  verified  : Option (U32 × U16)  -- version and security version of the image that verified
deriving DecidableEq, Repr

/-- Sources of a time domain (R450). -/
inductive TdSource where
  | off | free | host | gptpA | gptpB | ptp
deriving DecidableEq, Repr

/-- States of a time domain (R450). -/
inductive TdState where
  | off | acquiring | locked | holdover | free
deriving DecidableEq, Repr

/-- A time domain (R448 to R457). `anchor` is A_d in units of 2^-32 ns; `integ` is I in units of 2^-64. -/
structure Domain where
  source     : TdSource
  state      : TdState
  backup     : Nat
  stepOk     : Bool
  anchor     : Int
  anchorRaw  : Nat
  rho        : Int
  integ      : Int
  bandwidth  : F32
  lockThr    : U32
  stepThr    : U32
  holdLimit  : U32
  slew       : U32
  lastError  : F32
  errors16   : List F32          -- the last 16 accepted samples, newest first
  samples    : U32
  rejected   : U32
  steps      : U32
  inLock     : Nat               -- consecutive accepted samples within lock_thr
  lastSample : Option Nat        -- instant of the last accepted sample, as raw count
  lastTaken  : Option Nat        -- raw count at which it was accepted
  spent      : Bool              -- its holdover limit has run out and no sample has been accepted since
  since      : Nat               -- raw count of configuration, from which 2 s are counted before a first sample
  holdSince  : Nat               -- raw count of the entry into HOLDOVER
  everLocked : Bool
  byGm       : Bool              -- held by a grandmaster (R464)
  initCfg    : U64               -- initial and rate of the last TIME_SET_DOMAIN
  rateCfg    : Int
deriving DecidableEq, Repr

/-- A seamless switch (R455): the value of the active time runs from the target's with this remainder. -/
structure Switch where
  fromTd : Nat
  delta  : Int                   -- delta_0 in units of 2^-32 ns
  slew   : Nat                   -- ns per s
  start  : Nat                   -- R_sw
deriving DecidableEq, Repr

/-- A change of the active time's mapping at raw count `raw`, kept so that an instant of the last 4 s can be stamped and
a stamp mapped back (R447, R454): the time read `value` (2^-32 ns) then, and up to then it came from `dom` and `switch`. -/
structure TimeMark where
  raw    : Nat
  value  : Int
  dom    : Domain
  switch : Option Switch
deriving DecidableEq, Repr

/-- Thyme (R443 to R457). -/
structure Thyme where
  raw        : Nat               -- extended raw count R
  onFallback : List Bool         -- islands on fallback: PWM, Loop, Filter, Host, Ethernet (R149)
  fbCount    : U32               -- fallback intervals since reset (R444)
  fbNs       : Nat               -- their total length in raw ns
  fbStart    : Option Nat        -- start of the interval in progress
  fbPast     : List (Nat × Nat)  -- the intervals over, newest first: start and end
  domains    : List Domain
  active     : Nat
  switch     : Option Switch
  degraded   : Bool
  history    : List TimeMark     -- newest first
deriving DecidableEq, Repr

/-- Configuration and counters of an Ethernet port (R459 to R461, R466). -/
structure EthPort where
  enable : Bool
  rgmii  : Bool
  speed  : Nat                   -- as configured
  linkSpeed : Nat                -- as negotiated or set
  pcp    : Nat
  vid    : Nat
  mac    : Bytes
  ipv4   : U32
  netmask : U32
  gateway : U32
  udpPort : U16
  link   : Bool
  rxFrames : U32
  txFrames : U32
  rxCrc    : U32
  rxDropped : U32
  txLost   : U32
  linkLosses : U32
deriving DecidableEq, Repr

/-- A gPTP or IEEE 1588 time instance (R462 to R464, R466). -/
structure TimeInst where
  enable : Bool
  port   : Nat
  domainNumber : Byte
  transport : Nat
  delayMech : Nat
  oneStep : Bool
  priority1 : Byte
  priority2 : Byte
  logSync : Byte
  logAnnounce : Byte
  role   : Nat                   -- 0 disabled, 1 listening, 2 slave, 3 master, 4 grandmaster
  clockClass : Byte
  gmIdentity : Bytes
  gmData : List Nat              -- the grandmaster followed, as the best master clock algorithm ranks it
  pathDelay : F32
  syncs  : U32
  stepsRemoved : U16
  lastAnnounce : Nat
  seqId  : U16
deriving DecidableEq, Repr

end Sys2Proof.Machine
end

