-- ==== Sys2Proof/Machine/StSense.lean ====
section
/-! DEFINITION. State of clock synthesis, the sense inputs and the filter chain (spec/05, spec/06, spec/07). -/

namespace Sys2Proof.Machine

open Sys2Proof

/-- States of an ADPLL with the codes of R158. -/
inductive PllState where
  | off | search | verify | locked | failed | lost
deriving DecidableEq, Repr

/-- A plan (CLK_SET_PLAN). -/
structure Plan where
  refSrc : Nat
  refMode : Nat
  fRef   : F32
  fDco   : F32
  bw     : F32
deriving DecidableEq, Repr

/-- A stored profile: plan, coarse band and fine word (R155). -/
structure Profile where
  plan : Plan
  band : BitVec 6
  fine : U32
deriving DecidableEq, Repr

/-- A relock in progress (R147, R150). -/
structure Relock where
  start   : Nat               -- raw count of its start
  hop     : Bool              -- from a stored profile, else full search
  request : Option U16        -- opcode of the long operation it serves
  attempt : Nat               -- attempts made after a loss
deriving DecidableEq, Repr

/-- An ADPLL. -/
structure Adpll where
  state    : PllState
  plan     : Plan
  band     : BitVec 6
  fine     : U32
  fMeas    : F32              -- measured DCO frequency
  phaseRms : F32
  locks    : U32
  losses   : U32
  tLock    : U32
  lockNs   : Nat
  relock   : Option Relock
  relockAt : Nat              -- after a loss, the raw count from which it relocks (R150)
  gated    : List Nat         -- outputs still gated: A 0 PWM, 1 Loop and Filter, 2 Host, 3 Ethernet; 8 CLKOUT; B 0 to 9
  alignAt  : Option Nat       -- instant of the alignment edge of the newest lock, from which every divider runs (R152)
  profiles : List (Option Profile)
deriving DecidableEq, Repr

/-- A clock output of CLK_OUTPUT (R156, R157). -/
structure ClkOut where
  enable  : Bool
  cmos    : Bool
  level   : Nat
  divider : Nat
  phase   : Nat
  source  : Nat
deriving DecidableEq, Repr

/-- Clock synthesis. -/
structure Clocks where
  plls : List Adpll
  outs : List ClkOut
deriving DecidableEq, Repr

/-- A sense channel: coefficients, capture, slow path (R160 to R164, R177). Slow-path sums are in 2^-149. -/
structure SenseCh where
  nomScale : F32
  nomZero  : F32
  scale    : F32
  zero     : F32
  delay    : Nat              -- 0.5 ns steps
  focDec   : Nat
  slowN    : Nat
  slowM    : Nat
  slowInt  : List Int
  slowComb : List Int
  slowCount : Nat             -- rounds since the slow path changed
  slowOk   : Bool             -- settled
  slowOut  : F32
  stuck    : Bool
  conv     : Option (Nat × Nat) -- newest conversion: code, raw count of its start
deriving DecidableEq, Repr

/-- A logical SAR core (R165 to R170, R184). -/
structure SarCore where
  seq    : List Nat           -- positions, 0xFF idle
  anchor : Nat                -- round whose position 0 takes entry 0
  phys   : Option Nat
  urgent : List Nat           -- queued inputs, at most 4
deriving DecidableEq, Repr

/-- The continued comparison after a SAR mismatch (R168): the core, the last of its 16 rounds, the comparisons made and
mismatches found so far, and whether SAR4 read its check voltage within 8 LSB in each. -/
structure SarProbe where
  core : Nat
  last : Nat
  done : Nat
  bad  : Nat
  good : Bool
deriving DecidableEq, Repr

/-- An accumulator set (R179, R180). -/
structure AccSet where
  a     : Nat
  b     : Nat
  mode  : Nat
  sumA  : F64
  sumAA : F64
  sumAB : F64
  count : U32
  cal   : Bool
  stale : Bool
  sat   : Bool
  pub   : Bytes               -- the entry of the window last published
deriving DecidableEq, Repr

/-- A min-max tracker (R179, R181). -/
structure Tracker where
  src   : Nat
  mode  : Nat
  min   : F32
  max   : F32
  tMin  : U32
  tMax  : U32
  count : U32
  cal   : Bool
  stale : Bool
  pub   : Bytes
deriving DecidableEq, Repr

/-- A setting that applies at the next round boundary (SNS_CONFIG). -/
inductive SenseConf where
  | chan (ch delay focDec : Nat) (scale zero : F32) (n m : Nat)
  | seq (core : Nat) (l : List Nat)
  | acc (i a b mode : Nat)
  | mmx (i src mode : Nat)
deriving DecidableEq, Repr

/-- A calibration in progress (R173 to R175). -/
structure CalRun where
  ch      : Nat
  span    : Bool
  slow    : Bool
  n       : Nat
  applied : F32
  started : Bool
  left    : Nat
  sum     : Rat
  sumSq   : Rat
deriving DecidableEq, Repr

/-- The values of a round: t_round, its domain time, the scaled value of each assigned channel, the channels whose
value is not new, and the slow-path outputs completed by it. -/
structure RoundVals where
  t     : Nat
  dom   : Nat                 -- ns
  vals  : List (Option F32)
  stale : List Nat
  slow  : List (Option F32)
  done  : List Nat            -- slots already usable in the loop island
  folded : Bool               -- already in the windows of sets and trackers
  marks : List Nat            -- channels whose coefficients a calibration changed at this round's boundary (R176)
deriving DecidableEq, Repr

/-- A waiting SNS_ACC_READ or SNS_URGENT. -/
structure SenseWait where
  req   : Req
  left  : U32                 -- inputs neither converted nor dropped
  conv  : U32
  drop  : U32
  at0   : Nat                 -- raw count at which the request left the queue
  round : U32                 -- t_round of the first round that holds every conversion
deriving DecidableEq, Repr

/-- The sense inputs. -/
structure Sense where
  chans    : List SenseCh
  cores    : List SarCore
  refState : Nat              -- 0 off, 1 settling, 2 settled
  refDue   : Nat
  urgentDone : U32
  urgentDropped : U32
  sarMismatch : U32
  probe    : Option SarProbe
  sarPairs : List (List (Nat × Nat)) -- per SAR core 0 to 3: its codes and SAR4's of the newest 64 checks, newest first (R169)
  sarFix   : Option (Rat × Rat) -- the offset and gain that SAR4 applies to its codes once it serves a core (R169)
  voltBad  : List Nat         -- instants of SAR4 check-voltage readings outside 8 LSB
  accs     : List AccSet
  mmxs     : List Tracker
  confs    : List SenseConf
  cals     : List CalRun
  calMarks : List Nat         -- channels whose coefficients change at the next round boundary (R176)
  nextRound : Nat
  round    : RoundVals
  late     : Option RoundVals -- the previous round while its slot 79 is not yet usable
  past     : List RoundVals   -- rounds before the newest, newest first, as far back as a cut time reaches (R27)
  accRead  : List SenseWait
  urgents  : List SenseWait
deriving DecidableEq, Repr

/-- An assignment of a channel to a run of slots (R190). -/
structure Assign where
  ch    : Nat
  first : Nat
  gang  : Nat
  set   : Option Nat
  n     : Nat
  m     : Nat
  r     : Nat
deriving DecidableEq, Repr

/-- A filter set (R203). -/
structure FltSet where
  typ  : Nat
  taps : Nat
  base : Nat
deriving DecidableEq, Repr

/-- The running state of a channel in the filter chain; values are Q1.23. -/
structure FltCh where
  bits    : List Bool         -- newest first, over the sinc window
  hist    : List Int          -- FIR inputs, newest first
  q       : Int
  rounds  : Nat               -- rounds since the assignment last changed
  settled : Bool
  stopped : Bool
  idle    : Bool              -- the group's MCLK is disabled
  sat     : U32
  caps    : List (Option Nat) -- d_cap of the last 1,024 rounds in 1.25 ns, newest first; none where nothing was captured
deriving DecidableEq, Repr

/-- The filter chain. -/
structure Filter where
  mem     : List Host.Cell    -- coefficient area, byte addresses
  sets    : List (Option FltSet)
  assigns : List Assign
  setsReq : List (Option FltSet)  -- as requested, in effect from the next round boundary
  assignsReq : List Assign
  changed : Bool
  chans   : List FltCh
  macWin  : List (Nat × Nat)  -- mismatches of MAC8: round, lane
  lostLane : Nat              -- the newest lane retired without a spare, 0xFF none (R215, R216)
deriving DecidableEq, Repr

end Sys2Proof.Machine
end

