-- ==== Sys2Proof/Machine/StCap.lean ====
section
/-! DEFINITION. State of the capture unit and the trigger bus (spec/19). Instants of triggers are active-domain values in
units of 2^-32 ns. -/

namespace Sys2Proof.Machine

open Sys2Proof

/-- Capture states with the codes of R498. -/
inductive CapState where
  | idle | armed | triggered | done | streaming | shuttingDown
deriving DecidableEq, Repr

/-- A trigger term (R489). -/
structure CapTerm where
  kind   : Nat
  index  : Nat
  code   : U16
  level  : F32
  level2 : F32
deriving DecidableEq, Repr

/-- A configuration (CAP_CONFIG). -/
structure CapConf where
  mode     : Nat
  stage    : Nat
  nTraces  : Nat
  dtChan   : Nat
  dec      : Nat
  ring     : Nat
  pre      : Nat
  post     : Nat
  trigOut  : Byte
  port     : Nat
  udpPort  : U16
  session  : U32
  terms    : List CapTerm
deriving DecidableEq, Repr

/-- A trigger that has been taken (R489, R496). -/
structure CapTrig where
  at_     : Int
  source  : Nat
  driver  : Nat
  unknown : Bool
deriving DecidableEq, Repr

/-- The block being written (R486, R487). -/
structure CapBlock where
  epoch   : U32
  first   : U32              -- frame index of row 0
  tFirst  : U32
  factor  : Nat
  rows    : Nat
  flags   : Nat
  trigRow : Nat
  trigOff : Int
  trig    : Option CapTrig
deriving DecidableEq, Repr

/-- A row written since arming: its number, its block and place there, and its frame reload as raw count (R490). -/
structure CapRow where
  no     : Nat
  seq    : U32
  row    : Nat
  reload : Nat
deriving DecidableEq, Repr

/-- A falling edge of a line that a term has taken and whose pulse is not over (R495, R496): the term, the raw count at which
it was taken, and the trigger of the same Host-island cycle that it stands for (R489). -/
structure CapEdge where
  source : Nat
  at_    : Nat
  was    : Option CapTrig
deriving DecidableEq, Repr

/-- A calibration of the trigger bus (R497). -/
structure TrigCal where
  initiate : Bool
  line     : Nat
  identity : Nat
  reps     : Nat
  count    : Nat             -- pulses sent
  lastAt   : Nat             -- raw count of the last pulse, or of the start
  edge     : Option Nat      -- stamp of a received edge that is not yet answered
deriving DecidableEq, Repr

/-- The capture unit. -/
structure Capture where
  mem      : List Host.Cell  -- capture memory, byte addresses from 0
  conf     : Option CapConf
  st       : CapState
  stopReason : Nat           -- 1 stop, 2 session closed
  bound    : Nat             -- bound of the shutdown, as raw count
  factor   : Nat
  ring     : Nat             -- blocks of the ring as armed
  stepAt   : Nat             -- fill, in sixteenths of a block, beyond which factor doubles next
  seq      : U32             -- blocks written since arming
  release  : U32             -- last block released
  oldest   : U32             -- block_seq of the oldest valid block
  rows     : U32
  dropped  : U32
  foreign  : U32
  triggers : U32
  tTrig    : U32
  block    : Option CapBlock
  gap      : Bool            -- the next row opens a block with GAP set
  trig     : Option CapTrig  -- taken, its row not yet found
  firedAt  : Nat             -- raw count at which the newest trigger was taken
  firedSrc : Nat             -- its source
  firedEvt : Option U32      -- sequence number of its event 0x0D01; none where the full log dropped it
  postLeft : Option Nat      -- rows still to be kept after the trigger row
  trigRowNo : Nat            -- number of the trigger row since arming
  paced    : Bool            -- the pacing stage has been ENABLED since arming
  armedIn  : Option U32      -- frame in progress at arming: rows begin with the next one
  first    : Option U32      -- first sampled frame
  past     : List CapRow     -- the rows written, newest first
  lastDue  : U32             -- frame index of the newest due frame
  lastSeen : U32             -- frame index of the newest frame taken
  frames   : List (U32 × Nat) -- committed frames whose row is not yet written: index, frame reload
  writes   : List (U32 × Nat × Nat × U32) -- trace writes: frame, trace, node, value
  traces   : List U32
  prev     : List U32        -- values of the previous committed frame
  havePrev : Bool
  streamSeq : U32
  dtRise   : Option Nat      -- least measured dead times of the open block
  dtFall   : Option Nat
  identity : Nat
  delays   : List (List U16) -- per line d[0] to d[3]; 0xFFFF not calibrated
  holdoff  : List Nat        -- per line: falling edges before this raw count are ignored
  drives   : List (Option (Nat × Nat)) -- per line: start and end of this device's drive
  fall     : List (Option Nat) -- per line: stamp of its falling edge while it is low
  holdWas  : List Nat        -- per line: its hold-off before its newest falling edge
  taken    : List (Option CapEdge) -- per line: its falling edge, once a term has taken it, until its pulse is over
  everArmed : Bool
  cal      : Option TrigCal
deriving DecidableEq, Repr

end Sys2Proof.Machine
end

