-- ==== Sys2Proof/Machine/StPwm.lean ====
section
/-! DEFINITION. State of the PWM generator and of gate drive and protection (spec/13, spec/14). Instants are
values of the extended raw count in ns; periods, lengths and compare values are in sixteenths of 1 ns (R347). -/

namespace Sys2Proof.Machine

open Sys2Proof

/-- A compare set (R346, R357): values, the period of a period owner, the frame of a graph's set (none for a
host write), and the cycle in which the set became pending (R359). -/
structure CompareSet where
  vals   : List Nat
  period : Option Nat
  frame  : Option U32
  done   : Nat
deriving DecidableEq, Repr

/-- A carrier timer CT00 to CT23 (R342 to R345). -/
structure Timer where
  stage       : Option Nat
  slave       : Bool
  master      : Nat
  phase       : Nat
  align       : Bool
  periodGroup : Option Nat
  period      : Nat
  pmin        : Nat
  pmax        : Nat
  running     : Bool
  reloaded    : Bool           -- a first reload has occurred since t_s
  reloads     : U32
  lastReload  : Nat            -- start of the present period
  nextReload  : Nat
  pActive     : Nat            -- period of the present period, before dither
  pEff        : Nat            -- its integer length in ns
  clamps      : U32
deriving DecidableEq, Repr

/-- A group G00 to G31 (R346, R357, R360). -/
structure Group where
  timer      : Option Nat
  units      : List Nat        -- compare unit behind each position
  staging    : Option CompareSet
  pend       : Option CompareSet
  active     : Option CompareSet
  superseded : U32
deriving DecidableEq, Repr

/-- A pulse of a lead's raw signal: on from the first instant to before the second (R350). -/
structure Pulse where
  on  : Nat
  off : Nat
deriving DecidableEq, Repr

/-- A gate channel PWM00 to PWM95 (R348 to R355, R368, R369, R376 to R378, R384, R390). -/
structure Channel where
  role      : Nat              -- 0 unused, 1 driven, 2 follower
  mode      : Nat
  group     : Nat
  posA      : Nat
  posB      : Nat
  partner   : Option Nat       -- follower of a lead, lead of a follower
  dtR       : Nat
  dtF       : Nat
  minpw     : Nat
  enabled   : Bool
  pendEn    : Option Bool      -- enable or disable waiting for the next reload
  acc       : Nat              -- dither accumulator
  raw       : Bool             -- the lead's raw signal
  cmd       : Bool             -- the emitted signal, after dead time and minimum pulse
  onAt      : Option Nat       -- end of the dead time running towards a turn-on
  onSince   : Nat              -- instant of the last turn-on
  offAt     : Option Nat       -- instant of the last turn-off that its pulse made
  offHeld   : Bool             -- a turn-off is held by the minimum pulse rule
  disabling : Bool             -- the channel is disabled once its held pulse has ended (R354, R368)
  stopped   : Bool             -- turned off by a shutdown until the stage is OFF
  pulses    : List Pulse       -- pulses formed and not yet over
  leg       : Option Nat       -- leg set by PROT_CONFIG kind 4
  edgeAt    : Nat              -- instant of the newest rising command edge (R377, R385)
  fault     : Option Byte      -- cause of the latched protection fault
  faultSrc  : Nat              -- index of the source that latched it
  trips     : U32
  lastTrip  : Option Nat       -- posting instant of the newest 0x0900 entry
  tripAt    : Option Nat       -- instant of the newest trip, in whose PWM-island cycle no clear takes effect (R377)
  rawFault  : Option Nat       -- newest raw fault counted for MULTILEG
  rbFaults  : U32
  rbBad     : Bool             -- the previous readback sample mismatched
  refresh   : Nat              -- counted high-duty periods (R384)
  refreshed : Bool             -- the count reached 32 since the stage started
deriving DecidableEq, Repr

/-- Service state of a redundant resource. -/
inductive Service where
  | inService | spare | retired
deriving DecidableEq, Repr

/-- A compare unit CU00 to CU103 (R346, R370 to R372). -/
structure CompareUnit where
  service  : Service
  shadow   : Option Nat        -- unit that a spare shadows
  dwellEnd : Nat
  swapTo   : Option Nat        -- spare that takes over at the next reload
deriving DecidableEq, Repr

/-- A fault return FLT00 to FLT79 (R379). -/
structure FltInput where
  enable : Bool
  low    : Bool                -- level of the ball
  active : Bool                -- low for 20 ns or more
deriving DecidableEq, Repr

/-- A window comparator CMP00 to CMP31 (R386, R387). Thresholds in the order lo_trip, hi_trip, lo_short, hi_short. -/
structure Comparator where
  lowEn    : Bool
  highEn   : Bool
  hyst     : Nat
  blank    : Nat
  targets  : List Nat
  thresh   : List F32
  codes    : List Nat
  zone     : Nat               -- 0 inside, 1 low trip, 2 high trip, 3 low short, 4 high short zone
  tripped  : Bool              -- tripped and not yet released
  blankEnd : Nat               -- end of the blanking in progress
deriving DecidableEq, Repr

/-- A fast overcurrent detector FOC00 to FOC47 (R388). -/
structure FastDet where
  lowEn   : Bool
  highEn  : Bool
  targets : List Nat
  lo      : F32
  hi      : F32
  bits    : List Bool          -- the last 2 D bits of its input as last evaluated, newest first (R187)
  tripped : Bool
deriving DecidableEq, Repr

/-- An integrated half-bridge HB0 to HB7 (R380 to R385). -/
structure HalfBridge where
  vdsHs     : Nat
  vdsLs     : Nat
  vdsShort  : Nat
  vdsBlank  : Nat
  refreshThr : Nat
  tRefresh  : Nat
  tPrecharge : Nat
  hsVds     : Nat              -- high-side VDS condition: 0 none, 1 above the trip level, 2 above the short level
  lsVds     : Nat
  hsLatch   : Option Byte      -- fault latched in the die for the high side, with its cause (R380)
  lsLatch   : Option Byte
  wordDue   : Bool             -- the fault line is low and the status word is on its way
  bootLow   : Bool             -- bootstrap below its release level
  preEnd    : Option Nat       -- end of the precharge in progress
  preDue    : Bool             -- a precharge is still owed to the start in progress
  refreshes : U32
  vBoot     : F32
deriving DecidableEq, Repr

/-- Protection self-tests in progress (R391). -/
structure SelfTest where
  cmp : U32
  foc : U64
  hb  : Byte
deriving DecidableEq, Repr

/-- The PWM generator and protection as a whole. -/
structure Pwm where
  timers   : List Timer
  groups   : List Group
  channels : List Channel
  units    : List CompareUnit
  flts     : List FltInput
  cmps     : List Comparator
  focs     : List FastDet
  hbs      : List HalfBridge
  vdrvWarn : Bool
  vdrvShut : Bool
  tempWarn : Bool
  tempShut : Bool
  vdrv     : F32
  dieTemp  : F32
  multileg : U32
  selftest : Option SelfTest
  gateProc : Bool              -- the safety processor releases the gating cells (R396)
  gateSorrel : Bool            -- Sorrel releases them
deriving DecidableEq, Repr

end Sys2Proof.Machine
end

