-- ==== Sys2Proof/Machine/StLoop.lean ====
section
/-! DEFINITION. State of the loop engines, the control graphs, the dataflow scheduler and Dill (spec/08, 09, 10). -/

namespace Sys2Proof.Machine

open Sys2Proof

/-- Stage states (R361). -/
inductive StageState where
  | off | starting | enabled | shuttingDown | lockedOut
deriving DecidableEq, Repr

/-- The header of a loaded graph image and its engines (R218, R221, R224). -/
structure Graph where
  offset     : Nat
  length     : Nat
  engines    : Nat
  frameTimer : Nat
  divider    : Nat
  cut        : Nat
  minPeriod  : Nat
  nNodes     : Nat
  nSucc      : Nat
  nParams    : Nat
  nSet       : Nat
  pubBase    : Nat
  pubWords   : Nat
  nodesOff   : Nat
  succOff    : Nat
  paramOff   : Nat
  setOff     : Nat
  codeOff    : Nat
  codeWords  : Nat
  initOff    : Nat
  nInit      : Nat
  version    : U32
  phys       : List Nat
deriving DecidableEq, Repr

/-- An effect of an effect node, carried out when its instance ends (R40, R235). -/
inductive EffAct where
  | event (tag : U16) (value : U32)
  | fieldOut (o : Nat) (on : Bool)
  | stop
  | canTx (tap : Nat) (vals : List U32)
  | capture (first : Nat) (vals : List U32)
deriving DecidableEq, Repr

/-- Status of an instance (R248 to R255). Instants of the scheduler are in quarters of 1 ns, a loop-island cycle
being five of them. -/
inductive InstState where
  | waiting                    -- its counter is above zero
  | noSlot (due : Nat) (port : Option Nat) -- due, but no slot could be taken; the logical engine whose port it stops (R253)
  | ready (since due : Nat)
  | chosen (start due : Nat)   -- chosen, first instruction at `start`
  | effectWait                 -- an effect instance waiting for its frame's commit (R250)
  | ended                      -- executed or skipped, its completion not yet posted
deriving DecidableEq, Repr

/-- An instance of a node in a frame (R247). -/
structure Inst where
  stage   : Nat
  frame   : U32
  node    : Nat
  counter : Nat
  st      : InstState
  home    : Nat                -- logical engine
  cost    : Nat
  priv    : Bool
  pq      : Nat
  level   : Nat
  runs    : Bool               -- the node runs in this frame (R230)
  effect  : Bool
  committed : Bool             -- its frame has committed
  dead    : Bool               -- its frame was squashed while it ran; its results are dropped (R273)
  acts    : List EffAct        -- effects computed on the committed values of its frame
  excs    : List Nat           -- and the arithmetic exceptions of computing them
deriving DecidableEq, Repr

/-- A completion whose successor entries are not all processed (R253, R258): node, next entry, entries, and the
instant from which it may be posted, or was posted. -/
structure Completion where
  stage : Nat
  frame : U32
  node  : Nat
  pos   : Nat
  len   : Nat
  at_   : Nat
deriving DecidableEq, Repr

/-- A loop engine LE00 to LE17 (R217, R218, R252 to R255). -/
structure Engine where
  service  : Service
  stage    : Option Nat        -- stage whose graph it serves
  logical  : Nat
  waitPost : List Completion   -- ended, the completion not yet posted
  queue    : List Completion   -- completion queue, at most 8
  portAt   : Nat               -- instant of the newest entry its decrement port processed
  freeAt   : Nat               -- instant from which it can make its next choice
  roomAt   : Nat               -- instant at which its completion queue last left full
  stallAt  : Option Nat        -- dispatch held since this instant (R263)
  stallFrom : Nat              -- the hold counts into port_stall_cycles from this instant on (R262)
  stalled  : Bool              -- event 0x0604 posted for this stall
deriving DecidableEq, Repr

/-- A prediction of an open frame (R269, R270): channel, predicted value, sample once it is usable and has passed. -/
structure Pred where
  channel : Nat
  xhat    : F32
  x       : Option F32
deriving DecidableEq, Repr

/-- A set-point's working value (R244). -/
structure SetPoint where
  param  : Nat
  work   : F32
  target : F32
  ramp   : Bool
deriving DecidableEq, Repr

/-- Values fixed for a frame (R229, R267): outputs of the forming units, CAN tap values, bs_stuck, exception count. -/
structure Snap where
  fu    : List U32
  can   : List (Nat × F32)
  stuck : Nat
  exc   : U32
deriving DecidableEq, Repr

/-- An open frame of a stage (R247, R264 to R276). -/
structure Frame where
  index     : U32
  spec      : Bool
  again     : Bool             -- reopened after a miss (R274)
  round     : Nat              -- t_round of its sample round
  length    : Nat              -- fixed, or predicted
  fixed     : Bool
  reload    : Nat              -- its frame reload, fixed or predicted
  cum       : Nat              -- sum of frame lengths since the start, this frame included
  preds     : List Pred
  jac       : List F32
  corrected : Bool
  complete  : Bool
  completeAt : Nat             -- quarters of 1 ns: a cycle after the last completion posted so far (R251)
  tReload   : U32              -- SYS values T_RELOAD and T_ROUND, fixed when it opens or at its reload (R229, R267)
  tRound    : U32
  rawSig    : List (Nat × U32) -- of a corrected frame: signals and state words as computed, before the correction (R268)
  rawWords  : List (Nat × U32)
  samples   : List (Nat × F32) -- scaled samples of its round, as they became usable
  sig       : List (Nat × U32) -- signals written
  words     : List (Nat × U32) -- state words written, index 4096 e + word
  ran       : List Nat         -- nodes that ran
  sets      : List (Nat × List Nat × Option Nat) -- compare sets written: group, values, period
  pubs      : List (Nat × U32) -- published words
  feeds     : List (Nat × List U32) -- feeds to forming units
  exc       : List (Nat × Nat) -- arithmetic exceptions: node, code
  snap      : Snap
  snapR     : Option Snap      -- of a frame opened ahead: the values at its frame reload
  mode      : Nat
  setps     : List SetPoint
  pars      : Option (List F32) -- of a committed frame: its parameter words (R229, R243)
deriving DecidableEq, Repr

/-- Parameter words written for frames from `apply` on (R243). -/
structure ParamWrite where
  apply : U32
  first : Nat
  vals  : List F32
deriving DecidableEq, Repr

/-- A predicted input of DILL_CONFIG. -/
structure DillInput where
  channel   : Nat
  predictor : Nat
  signal    : Nat
  tolAbs    : F32
  tolRel    : F32
deriving DecidableEq, Repr

/-- A correction target of DILL_CONFIG. -/
structure DillTarget where
  kind  : Nat
  sub   : Nat
  index : Nat
deriving DecidableEq, Repr

/-- Dill's configuration of a stage (R283). -/
structure DillConf where
  depth   : Nat
  inputs  : List DillInput
  targets : List DillTarget
  cutSpec : Nat
  limit   : Nat
  jParam  : Bool
  jBase   : Nat
deriving DecidableEq, Repr

/-- A stage S0 to S7: its graph, its run state, its committed values, Dill's and the scheduler's counters. -/
structure Stage where
  st         : StageState
  graph      : Option Graph
  mode       : Nat
  modes      : List (U32 × Nat)     -- mode changes with their first frame, oldest first (R245)
  frameIndex : U32                  -- frame in progress (R23)
  frameStart : Nat
  frameEnd   : Nat                  -- t_reload(n+1)
  divNow     : Nat                  -- D of the frame in progress
  divLeft    : Nat                  -- reloads left in the frame
  cumLen     : Nat                  -- lengths of all frames begun
  ts         : Option Nat           -- t_s (R343)
  startedAt  : Nat
  tStop      : Option Nat
  lastOff    : Nat                  -- turn-off of its last channel
  gateOpen   : Bool
  spaFlag    : Bool                 -- pulse-off by OVERRUN (R282 flags bit 2)
  notices    : List (U32 × Nat × Nat) -- frame reload notices on their way: index, reload, length
  snaps      : List (U32 × Snap)    -- values fixed at the newest frame reloads, newest first (R229, R292)
  frames     : List Frame           -- open frames, oldest first
  closed     : List Frame           -- committed frames of which an effect instance still waits for an input (R235, R250)
  newest     : U32                  -- newest frame ever opened
  dill       : DillConf
  sig        : List (Nat × U32)     -- committed signals
  words      : List (Nat × U32)     -- architectural state words, index 4096 e + word
  periods    : List (Nat × Nat)     -- committed period outputs by group
  lastRun    : List (Nat × Nat)     -- per node: cum at its last committed run
  hist       : List (Nat × List (Nat × F32)) -- t_round and samples of the newest committed frames, newest first
  writes     : List ParamWrite
  setps      : List SetPoint
  pub        : List (Nat × U32)     -- committed published words
  cFrame     : U32                  -- newest committed frame
  cReload    : Nat
  cTime      : U32                  -- its active-domain time
  cPeriod    : Nat
  cSnap      : Snap                 -- the values that frame read from FU, CAN and SYS space (R244)
  cRound     : U32                  -- its T_ROUND
  prevFrame  : U32                  -- the frame committed before it (R35, R39)
  commitQ    : Nat                  -- quarters of 1 ns: completion of its commit in the PWM island (R29, R35)
  prevRange  : Bytes                -- the stage's range and published words as the commit before left them (R35)
  prevPub    : List (Nat × U32)
  committed  : U32
  specCommits : U32
  inputMisses : U32
  periodMisses : U32
  overruns   : U32
  consecutive : Nat
  sorrelCount : Nat
  suspend    : Option U32           -- last frame of the suspension (R276)
  overrunPub : Bool                 -- an overrun since the previous t_pub
  slackMin   : U32
  slackLast  : U32
  exceptions : U32
  slotsPeak  : Nat
  slotWaits  : U32
  portStall  : U32
  latencyMax : Nat
  missBy     : List U32
  checked    : U32
  mismatches : U32
  handovers  : U32
  lastCause  : Nat                  -- cause of the last squash: 0 input miss, 1 period miss, 2 frame late
  handover   : Option (Nat × Nat)   -- hand-over in progress: retired engine, spare
  handDue    : Option (Nat × Nat)   -- hand-over to make at the next commit
  startCommits : U32                -- frames committed in STARTING (R374)
  startReq   : Option Owed          -- request of a start that waits (R136)
  startTag   : Byte                 -- tag of the request that started the stage (R138)
  waitStart  : Bool                 -- the start is released and STAGE_START_BEGIN is due
deriving DecidableEq, Repr

/-- An entry of the parameter queue (R261). -/
structure ParamReq where
  stage : Nat
  words : Nat
deriving DecidableEq, Repr

/-- An engine's state words and its committed signals, as a spare holds a copy of them (R279). -/
structure EngCopy where
  words : List (Nat × U32)
  sigs  : List (Nat × U32)
deriving DecidableEq, Repr

/-- A committed frame to replay, with its inputs, predictions and corrections, and the CRC-32C of what the engine wrote; `base` is the
copy it is replayed from, where the spare has copied the state again since it began. -/
structure Replay where
  frame : Frame
  crc   : U32
  base  : Option EngCopy
deriving DecidableEq, Repr

/-- A mismatch that awaits the second replay (R280): the engine, the first spare, the copy kept, the frame, and the first
spare's CRC-32C. -/
structure Doubt where
  engine : Nat
  first  : Nat
  copy   : EngCopy
  job    : Replay
  crc    : U32
deriving DecidableEq, Repr

/-- A spare engine's checking (R279, R280): the engine under check, the end of the dwell, the copy of its state, the frames
to replay, and the mismatches whose second replay it makes. -/
structure Checker where
  target   : Option Nat
  dwellEnd : Nat
  copy     : Option EngCopy
  replay   : Option Replay     -- in progress
  next     : Option Replay     -- follows it
  doubts   : List Doubt        -- oldest first
deriving DecidableEq, Repr

/-- A graph load or unload in progress (R223). -/
structure GraphLoad where
  stage  : Nat
  offset : Nat
  length : Nat
  crc    : U32
deriving DecidableEq, Repr

/-- The loop island. -/
structure Loop where
  mem      : List Host.Cell    -- graph memory
  stages   : List Stage
  engines  : List Engine
  insts    : List Inst
  pqueue   : List ParamReq     -- parameter queue, at most 8
  checkers : List Checker      -- of LE16 and LE17
  loads    : List GraphLoad
deriving DecidableEq, Repr

end Sys2Proof.Machine
end

