-- ==== Sys2Proof/Machine/StSafe.lean ====
section
/-! DEFINITION. State of the safety functions and of the field die with its link (spec/15, spec/16). -/

namespace Sys2Proof.Machine

open Sys2Proof

/-- One safety channel's view: the safety processor or Sorrel (R395, R396, R402). -/
structure SafeChan where
  level    : BitVec 16         -- DI15 to DI00 as this channel has debounced them
  raw      : BitVec 16         -- raw levels of the newest frame it used
  held     : List Nat          -- per input: time for which the raw level has held against the debounced one, in ns
  masked   : BitVec 16         -- inputs whose newest frame fell into their own mask window
  permits  : BitVec 4          -- permit per contactor entry
  safeBit  : Bool              -- SAFE bit it sends
  safeAt   : Nat               -- entry into SAFE, from which open_delay counts
deriving DecidableEq, Repr

/-- Supervision of one contactor entry (R406). -/
structure ContMon where
  applied  : Bool
  closed   : Bool              -- debounced feedback closed
  wasClosed : Bool             -- it has read closed since the switch-on
  since    : Nat               -- newest change of either
  fault    : Bool
deriving DecidableEq, Repr

/-- One trip element's timer (R409, R410). -/
structure TripTimer where
  since : Option Nat           -- the timer runs since
  armed : Bool
deriving DecidableEq, Repr

/-- The test cycle and the record of the mask window in progress (R401 to R403). -/
structure TestCycle where
  frame    : Nat               -- frame of the test cycle last sent, 0 to 1999
  seen     : Nat               -- frame of the test cycle that the newest uplink frame used answers
  window   : Option Nat        -- source whose mask window is being recorded
  lowRun   : List Nat          -- consecutive low frames per input
  dropSeen : BitVec 16         -- inputs low in 10 consecutive frames
  highTail : List Nat          -- consecutive high frames at the end, per input
  allHigh  : BitVec 16         -- inputs high in every frame
  missing  : List Nat          -- consecutive own windows high throughout, per input
deriving DecidableEq, Repr

/-- SF5's measurement (R408). Samples are v of the three channels, newest first, over the longest window of 1 / f_n. -/
structure GridMeas where
  samples  : List (List F32)
  cross    : List Nat          -- t_round of the newest positive zero crossings of the first channel, newest first
  volts    : List F32
  freq     : Option F32        -- none while it is not evaluated
  fHist    : List (Option F32) -- f of the last 200 ms, newest first
  rocof    : Option F32
  vshift   : Option F32
  v10      : F32
  v10Sum   : Rat               -- sum and count of V in the second in progress
  v10Count : Nat
  v10Secs  : List Rat          -- means of the last 600 s, newest first
deriving DecidableEq, Repr

/-- The safety functions (R395 to R421). -/
structure Safety where
  causes     : BitVec 16
  firstReason : Nat
  firstAt    : Option Nat      -- instant of the first latched cause; none for causes kept through a reset
  tSafe      : U32
  entries    : U32
  loaded     : Option Bytes
  block      : Option Bytes    -- committed block
  inOtp      : Bool
  proc       : SafeChan
  sorrel     : SafeChan
  fresh      : Bool            -- the next frame gives the debounced levels their first value
  discLatch  : Bool            -- ESTOP_DISCREPANCY latched
  discSince  : Option Nat      -- one input low, the other high since
  bothLow    : Bool            -- both have read low together since the latch
  test       : TestCycle
  dropouts   : BitVec 16       -- inputs whose newest own window showed a dropout
  cont       : List ContMon    -- Sorrel's supervision of the contactor entries
  contProc   : List ContMon    -- the safety processor's
  elems      : List TripTimer
  islandSet  : Bool            -- set in effect at the newest safety cycle
  grid       : GridMeas
  gridWait   : Bool            -- a GRID-set trip awaits reconnection (R411)
  insideSince : Option Nat     -- every GRID quantity inside since
  testDue    : Bool
  lastTest   : Nat             -- raw count of the last path test
  runTime    : Nat             -- ns of RUN since the last path test
  runSince   : Option Nat
  disagree   : Option Nat      -- the channels have disagreed since
deriving DecidableEq, Repr

/-- A field input as the field die keeps it (R422 to R427); instants are in the die's own time. -/
structure FieldIn where
  threshold : Nat
  countEdge : Nat
  debounce  : Nat              -- us
  gate      : Nat              -- ms, 0 off
  volts     : F32              -- at the ball against GND_FIELD
  pin       : Bool             -- level behind the front end, under the threshold
  pinSince  : Nat              -- instant from which it stands there to be sampled
  raw       : Bool             -- raw level: low under undervoltage
  level     : Bool             -- debounced
  rawSince  : Nat
  chatter   : Bool
  trans     : List Nat         -- instants of the newest raw transitions
  count     : U32
  lastRise  : Option Nat       -- newest counted rising edge
  lastFall  : Option Nat       -- newest counted falling edge
  gateEdges : List Nat         -- stamps of the counted edges in the gate in progress
  gateStart : Nat
  freq      : F32
  freqStatus : Nat
deriving DecidableEq, Repr

/-- A field output as the field die keeps it (R428 to R433); instants are in the die's own time. -/
structure FieldOut where
  safeState : Nat
  pullIn    : Nat              -- ms
  holdDuty  : Nat
  openDetect : Bool
  cmd       : Bool             -- command taken from the newest valid frame
  offAt     : Nat              -- instant of the newest command from on to off
  on        : Bool             -- applied level
  pulling   : Option Nat       -- end of pull-in
  econAt    : Nat              -- instant from which the output is economised (R428)
  hot       : Bool             -- its junction is above 160 degrees (R429)
  faults    : BitVec 5
  faultCur  : F32              -- current at the newest latched fault
  current   : F32
deriving DecidableEq, Repr

/-- A configuration on its way to the field die (R433, R434, R440); `names` are the outputs that the committed block names. -/
inductive DieConf where
  | input (n threshold countEdge debounce gate : Nat)
  | output (o owner safeState pullIn holdDuty : Nat) (openDetect : Bool)
  | link (timeout : Nat)
  | names (mask : Byte)
deriving DecidableEq, Repr

/-- A configuration record of the downlink mailbox, with the key by which it is acknowledged. -/
structure FioRec where
  key  : Nat
  conf : DieConf
deriving DecidableEq, Repr

/-- A downlink frame (R436). -/
structure DownFrame where
  seq        : U16
  doCmd      : Byte
  permProc   : Byte            -- DO7 to DO0
  permSorrel : Byte
  tp         : BitVec 4
  safeProc   : Bool
  safeSorrel : Bool
  swap       : Bool
  record     : Option FioRec
  begun      : Nat             -- instant at which the frame begins
deriving DecidableEq, Repr

/-- An uplink frame (R436), with what its mailbox rotation has delivered once it arrives. -/
structure UpFrame where
  seq       : U16
  raw       : BitVec 16
  debounced : BitVec 16
  chatter   : BitVec 16
  doApplied : Byte
  doFault   : Byte
  tp        : BitVec 4
  tpMis     : BitVec 4
  status    : BitVec 5         -- warning, undervoltage, overvoltage, safe states applied, last downlink frame in error
  vField    : U16              -- 10 mV
  edges     : BitVec 16
  sampled   : Nat
  taken     : Nat              -- configurations below this key are acknowledged
  counts    : List U32
  freqs     : List F32
  freqStats : List Nat
  currents  : List F32
  faultCodes : List (BitVec 5)
  faultCurs : List F32         -- current at each output's newest fault
  pulling   : Byte
  dieTemp   : F32
  spareErr  : Bool             -- the last copy on the spare lane was in error
  dieLost   : Bool             -- the die's link timeout has passed since the last report
deriving DecidableEq, Repr

/-- The field die and the isolation link (R422 to R442). -/
structure Field where
  -- field die
  clock0     : Nat             -- the die's own time at raw count 0: it goes on through a warm reset (R121)
  ins        : List FieldIn
  outs       : List FieldOut
  tpCmd      : BitVec 4        -- levels the sources drive
  tpRead     : BitVec 4        -- read back
  tpBad      : List Nat        -- consecutive mismatching frames per source
  tpMis      : BitVec 4
  warn       : Bool
  underV     : Bool
  overV      : Bool
  dieStop    : Bool
  timedOut   : Bool            -- link timeout: safe states until 8 consecutive valid frames
  safeSeen   : Bool            -- the newest valid frame carried a SAFE bit
  goodRun    : Nat             -- consecutive valid downlink frames
  lastDown   : Nat             -- arrival of the newest valid downlink frame, in the die's time
  answerDue  : Option Nat      -- a valid downlink frame awaits its answer at this instant of the die's time
  upSeq      : U16             -- own count while free-running
  upLast     : Nat             -- start of the newest uplink frame, in the die's time
  lastSeq    : U16             -- seq of the newest valid downlink frame
  downErr    : Bool
  spareDownErr : Bool
  dieLost    : Bool
  timeout    : Nat             -- us
  dieTemp    : F32
  vField     : F32
  taken      : Nat             -- configurations below this key have been taken
  named      : Byte            -- outputs that the committed block names, as the die was told
  edges      : BitVec 16       -- debounced changes since the previous uplink frame
  -- control die
  started    : Bool            -- BOOT has brought the link up
  seq        : U16
  doCmd      : Byte
  sentCmd    : Byte            -- as last sent
  owner      : List Nat        -- owner of each output: 0 host, 1 to 8 stage
  shutting   : List (Option Nat) -- shutdown bound of each output
  mailbox    : List FioRec     -- not yet acknowledged, oldest first
  nextKey    : Nat
  down       : Option DownFrame -- downlink frame in flight
  up         : Option UpFrame
  newest     : Option UpFrame  -- newest valid uplink frame
  stamps     : List U32        -- active-domain time of each input's newest debounced change (R437)
  lastUp     : Nat
  linkUp     : Bool
  linkLost   : Bool            -- its loss has been reported
  laneDown   : Nat
  laneUp     : Nat
  spareLanes : Nat
  laneErrs   : List (List Nat) -- instants of errored frames per lane
  swapNext   : Option Nat      -- announced swap: the lane that is left at the next frame
  framesOk   : U32
  crcErrors  : U32
  timeouts   : U32
  onSeq      : List U16        -- number of the first downlink frame that carries each output's present command (R432)
  cleared    : List U32        -- value at the last FIO_READ clear
  clearDue   : U16             -- counters that FIO_READ has cleared before any uplink frame showed them
  nextDown   : Nat             -- next downlink instant
deriving DecidableEq, Repr

end Sys2Proof.Machine
end

