-- ==== Sys2Proof/Machine/StForm.lean ====
section
/-! DEFINITION. State of the forming units FU0 and FU1 (spec/11, spec/12). -/

namespace Sys2Proof.Machine

open Sys2Proof

/-- Forming unit modes (R307). -/
inductive FuMode where
  | off | follow | sync | form | island | blackStart
deriving DecidableEq, Repr

/-- FU_CONFIG kind 0 (R312, R315). -/
structure PortConf where
  split : Bool
  fn    : F32
  vb    : F32
  sb    : F32
  fk    : F32
  dfmax : F32
  emax  : F32
  bpll  : F32
deriving DecidableEq, Repr

/-- FU_CONFIG kind 1. -/
structure LawConf where
  avg   : Bool
  h     : F32
  d     : F32
  mp    : F32
  nq    : F32
  rv    : F32
  xv    : F32
  rv0   : F32
  taup  : F32
  tauq  : F32
  rampP : F32
  rampQ : F32
  rampF : F32
  rampV : F32
deriving DecidableEq, Repr

/-- FU_CONFIG kind 2. -/
structure LimConf where
  freeze : Bool
  ilim   : F32
  rride  : F32
  xride  : F32
  exit   : F32
  rh3    : F32
  rh5    : F32
  rh7    : F32
deriving DecidableEq, Repr

/-- FU_CONFIG kind 3. -/
structure SyncConf where
  islAuto : Bool
  closeDf : F32
  closeDth : F32
  closeDv : F32
  islDf   : F32
  islTime : F32
  bsRate  : F32
  bsDead  : F32
deriving DecidableEq, Repr

/-- A request that waits for the start of a kernel period (R305, R307, R313). -/
inductive FuReq where
  | mode (m : FuMode)
  | off
  | setp (mask : Nat) (vals : List F32)
  | law (c : LawConf)
  | limits (c : LimConf)
deriving DecidableEq, Repr

/-- A feed (R286): its eight inputs, the t_round of its frame as a raw count and as stamped in the active domain (R24, R287), and
the feeding stage's mode in that frame. -/
structure FuFeed where
  vals : List F32
  tk   : Nat
  dom  : Nat                   -- ns
  mode : Nat
deriving DecidableEq, Repr

/-- A PLL of R299: the port's, or the grid-side tracker. -/
structure Pll where
  theta  : U64
  omega  : F32
  integ  : F32
  v      : F32
  locked : Bool
  since  : Option Nat          -- kernel instant since which the criteria hold
deriving DecidableEq, Repr

/-- A working set-point and its target (R305). -/
structure FuSet where
  work   : F32
  target : F32
  ramp   : Bool
deriving DecidableEq, Repr

/-- A restoration step under way (R337): the domain and instant (ns) of the step, old and new Δf_res, old and new ΔV_res. -/
structure FuMove where
  domain : Nat
  at_    : Int
  f0     : F32
  f1     : F32
  v0     : F32
  v1     : F32
deriving DecidableEq, Repr

/-- What restarts when a unit leaves OFF (R311): the law's own state and results. -/
structure FuRun where
  started  : Bool              -- a kernel period has completed
  kernel   : U32
  theta    : U64
  w        : F32               -- ω_v, p.u.
  e        : F32               -- E, p.u. peak
  pf       : F32
  qf       : F32
  sp       : FuSet
  sq       : FuSet
  sf       : FuSet
  sv       : FuSet
  soft     : Bool              -- V_w moves under R325
  ride     : Bool
  wHeld    : F32
  exitSince : Option Nat
  decay    : Option Nat        -- kernel instant at which RIDE ended
  rl       : F32
  xl       : F32
  k        : F32
  iMax     : F32               -- largest conductor current, A
  vRef     : List F32          -- vα*, vβ*, v0*, V
  iRef     : List F32          -- iα*, iβ*, i0*, A
  fClamp   : Bool
  eClamp   : Bool
  rideNs   : Nat
  bsEntry  : Nat
  bsSince  : Option Nat
  bsStalled : Bool
  closeSince : Option Nat
  permit   : Bool
  islSince : Option Nat
  harm     : List F32          -- harmonic extractors
  iHarm    : List F32
  pq       : List (F32 × F32)  -- half-period window of p and q, newest first
  resF     : F32
  resV     : F32
  resMove  : Option FuMove
  fAvg     : F32
  vAvg     : F32
  hist     : List (Nat × F32 × F32) -- kernel instant, f_v, V_m of the kernel periods of 100 ms, newest first
deriving DecidableEq, Repr

/-- A restoration schedule (R336). -/
structure FuSched where
  on     : Bool
  paused : Bool
  domain : Nat
  anchor : Nat
  period : Nat                 -- ms
  kf     : F32
  kv     : F32
  limF   : F32
  limV   : F32
  next   : Nat                 -- number of the next step
  halted : Bool                -- the domain has stopped
  resumed : Bool               -- it runs again, the first step since is still to come
  due    : Bool                -- the kernel period that runs takes the next step (R336)
deriving DecidableEq, Repr

/-- A forming unit. -/
structure FormingUnit where
  mode     : FuMode
  port     : PortConf
  law      : LawConf
  lim      : LimConf
  sync     : SyncConf
  feeding  : Option Nat        -- feeding stage (R285)
  feedDiv  : Nat               -- RATE_DIV + 1 of its FU_FEED node
  stored   : List (Option F32) -- targets set while OFF
  reqs     : List FuReq        -- wait for the next kernel period
  nowReqs  : List FuReq        -- of the kernel period that runs
  running  : Option FuFeed
  waiting  : Option FuFeed
  lastFeed : Nat
  tk       : Option Nat        -- instant of the newest kernel or monitor period
  tkDom    : Nat               -- its stamp in the active domain, ns (R287)
  tInt     : F32               -- its T_k
  pll      : Pll
  trk      : Pll
  vm       : F32
  vg       : F32
  sogi     : List F32          -- generalised integrators of split-phase operation
  present  : Bool              -- GRID_PRESENT
  gap      : Bool
  run      : FuRun
  shutting : Option Nat        -- a shutdown runs since
  offTaken : Bool              -- its targets have been set
  sched    : FuSched
  schedPub : FuSched           -- the schedule as the newest kernel period left it (R340)
  endQ     : Nat               -- quarter ns at which the newest kernel period was committed, 0 in OFF
  pubBytes : Bytes             -- the unit's range as it left it (R314)
  prevBytes : Bytes            -- the unit's range before it (R35, R314)
  feedGaps : U32
  dropped  : U32
  clamps   : U32
  pllLosses : U32
  rideEntries : U32
  permits  : U32
  islandings : U32
  resSteps : U32
  resSkipped : U32
deriving DecidableEq, Repr

end Sys2Proof.Machine
end

