-- ==== Sys2Proof/Machine/StRel.lean ====
section
/-! DEFINITION. State of Lovage, the memory protection, the OTP and the lifecycle (spec/21, spec/22). -/

namespace Sys2Proof.Machine

open Sys2Proof

/-- A retirement decided by Lovage (R533, R534): class, index, row, reason code of R536. -/
structure Retirement where
  cls    : Nat
  index  : Nat
  row    : Nat
  reason : Nat
deriving DecidableEq, Repr

/-- What an OTP programming operation writes (R541 to R545, R552, R413). -/
inductive OtpJob where
  | block (b slot : Nat) (content : Bytes)
  | counter (index value : Nat)
  | commission (slot : Nat) (bytes : Bytes)
  | transition (target : Nat)
deriving DecidableEq, Repr

/-- Reliability and lifecycle. `otp` lists the non-zero bytes of the OTP, word w at address 8 w (R540). -/
structure Rel where
  otp       : List Host.Cell
  transient : List U16        -- transient count per class
  waiting   : List Retirement -- decided, not yet handed over
  rows      : List (Nat × Nat × Option Nat) -- retired rows: macro, row, spare row
  canRows   : List (Nat × Nat) -- rows known to hold CAN message RAM: 512 macro + row, port
  unposted  : List (Nat × Bytes) -- class and data of the events 0x0F02 due once the log accepts events
  rowSeen   : List (Nat × Nat) -- 512 macro + row, raw count at which its last corrected error was written back
  sarRetired : List Bool
  macRetired : List Bool
  laneRetired : List Bool
  unitSeen  : List (Nat × Nat × Nat) -- compare unit mismatches: spare, unit, raw count
  unitWatch : List (Nat × Nat) -- units whose spare stays for further reloads: unit, reloads left
  engSeen   : List (Nat × Nat) -- verdicts: engine, raw count
  logWrites : List U64        -- entries on their way to the repair log
  volatiles : List U64
  logFull   : Bool            -- event 0x0F03 posted
  jobs      : List OtpJob     -- OTP writes accepted, made one at a time, the one in progress first (R543)
  nonce     : Option (Bytes × Nat) -- LC_TRANSITION nonce and its issue instant
  scrubReads : Nat            -- words read in the scrub pass in progress
  scrubPasses : U32
  corrected : U32
  uncorrectable : U32
  jtag      : JtagInstr       -- instruction in effect on the JTAG port
  jtagCode  : Byte            -- its code
deriving DecidableEq, Repr

end Sys2Proof.Machine
end

