-- ==== Sys2Proof/Machine/StSage.lean ====
section
/-! DEFINITION. State of Sage, the sealed meter (spec/20). -/

namespace Sys2Proof.Machine

open Sys2Proof

/-- Sage in reset, out of reset, and metering (R503). -/
inductive SagePhase where
  | inReset | released | metering
deriving DecidableEq, Repr

/-- Seal states (R520). -/
inductive SealState where
  | unsealed | isSealed | broken
deriving DecidableEq, Repr

/-- A change of seal state that the next Sage reset carries out (R520): with the generation to write, or a break by
token, or the break that the lifecycle transitions make. -/
inductive SealOp where
  | newSeal (gen : Nat) (params hash authority : Bytes)
  | breakToken
  | breakLifecycle
deriving DecidableEq, Repr

/-- An entry of the Sage log (R526), with the data of its event. -/
structure SageLogEntry where
  time    : U64
  code    : U16
  counter : U32
  data    : Bytes
deriving DecidableEq, Repr

/-- A signing due or in progress (R515, R516): type, host data, trigger of event 0x0E03, whether a request waits for it,
and bytes 0 to 191 once it has begun. -/
structure SignJob where
  checkpoint : Bool
  host       : Bytes
  trigger    : Nat
  asked      : Bool
  body       : Option Bytes
deriving DecidableEq, Repr

/-- Sage. `ticks` counts the 98.304 MHz clock; `time` and `slewLeft` are in 1/24576 ns. -/
structure Sage where
  phase      : SagePhase
  resetCause : Nat               -- cause of the newest reset (0x0E00)
  sealWas    : SealState         -- seal state before it
  supplyWarn : Bool
  clockFail  : Bool
  failSince  : Bool              -- CLOCK_FAIL since the last record
  fromCrystal : Bool
  retention  : Bool
  hostActive : Bool              -- a stage of the control die is not OFF, as last reported (R505, R514)
  hostEnded  : Bool              -- the last stage has gone OFF since the ticks were last read
  status     : Bytes             -- committed status as last crossed: device state, stages, FU0 mode
  lastActive : Nat               -- ticks at which a condition of ACTIVE was last seen
  ticks      : Nat
  windowStart : Nat
  time       : Nat
  slewLeft   : Int
  windowTime : U64               -- Sage time at the end of the last window
  lastStep   : Option Nat        -- Sage time of the last step, in ns
  quarter    : Nat               -- last whole quarter-hour of Sage time passed
  setTime    : List Nat          -- domains of the SAGE_SET_TIME requests that wait for a tie-point
  sealState  : SealState
  sealOp     : Option SealOp
  params     : Option Bytes      -- parameter block in use
  next       : Option Bytes      -- block that applies from the next window (R511)
  tails      : List (List Bool)  -- newest bits of MBS0 to MBS7, newest first, that a decimator still needs (R506)
  bitPhase   : Nat               -- bits since the last sample
  past       : List (List Rat)   -- newest raw samples of each input, newest first
  copies     : List (List (BitVec 96)) -- three copies of the energy accumulators, 2^-32 mWh (R508, R531)
  vrms       : List F32
  irms       : List F32
  pqs        : List F32          -- p, q, s, pf of each phase
  freq       : F32
  counter    : U32
  bootId     : Bytes
  notRestored : Bool
  restored   : Bool              -- a checkpoint has been accepted since the reset
  restoring  : Option Bytes
  n          : Nat               -- count n of the next record
  signing    : List SignJob      -- first in progress
  checkpoint : Bytes             -- newest checkpoint and record
  record     : Bytes
  log        : List SageLogEntry -- oldest first
  logNext    : Nat               -- index of the next entry
  logPosted  : Nat               -- index of the next entry to post
  nonce      : Option (Bytes × Nat) -- nonce and the tick of its issue
  pulseOn    : Bool              -- MPULSE enabled
  pulseAcc   : Nat               -- energy not yet emitted, 2^-32 mWh
  pulse      : Bool              -- level of MPULSE
  pulseStart : Option Nat        -- start of the newest impulse
  pulseLimited : Bool
  pulseStops : Bool              -- shutdown of MPULSE
  updates    : U32
  area       : Bytes             -- published area, bytes 0x000 to 0x3FF
deriving DecidableEq, Repr

/-- Sage in reset, its memory wiped. -/
def sage0 : Sage :=
  { phase := .inReset, resetCause := 0, sealWas := .unsealed, supplyWarn := false, clockFail := false, failSince := false, fromCrystal := true,
    retention := false, hostActive := false, hostEnded := false, status := [], lastActive := 0, ticks := 0, windowStart := 0, time := 0, slewLeft := 0, windowTime := 0,
    lastStep := none, quarter := 0, setTime := [], sealState := .unsealed, sealOp := none, params := none, next := none, tails := List.replicate 8 [],
    bitPhase := 0, past := List.replicate 8 [], copies := List.replicate 3 (List.replicate 10 0), vrms := List.replicate 4 0, irms := List.replicate 4 0, pqs := List.replicate 12 0, freq := 0, counter := 0,
    bootId := List.replicate 8 0, notRestored := false, restored := false, restoring := none, n := 0, signing := [], checkpoint := [], record := [],
    log := [], logNext := 0, logPosted := 0, nonce := none, pulseOn := false, pulseAcc := 0, pulse := false, pulseStart := none,
    pulseLimited := false, pulseStops := false, updates := 0, area := [] }

end Sys2Proof.Machine
end

