-- ==== Sys2Proof/Machine/Init.lean ====
section
/-! DEFINITION. Every part of the device as it stands in reset (spec/04 R121, R122, R124): single resources, which also
stand for an index beyond the part's resources, then whole units. -/

namespace Sys2Proof.Machine

open Sys2Proof

/-- The empty domain. -/
def Domain0 : Domain :=
  { source := .off, state := .off, backup := 0xFF, stepOk := false, anchor := 0, anchorRaw := 0, rho := 0, integ := 0,
    bandwidth := 0x3E800000#32, lockThr := 100, stepThr := 1000000, holdLimit := 60, slew := 10000, lastError := 0,
    errors16 := [], samples := 0, rejected := 0, steps := 0, inLock := 0, lastSample := none, lastTaken := none, spent := false, since := 0, holdSince := 0,
    everLocked := false, byGm := false, initCfg := 0, rateCfg := 0 }


def inst0 : TimeInst :=
  { enable := false, port := 0, domainNumber := 0, transport := 0, delayMech := 1, oneStep := false, priority1 := 128, priority2 := 128,
    logSync := 0, logAnnounce := 0, role := 0, clockClass := 248, gmIdentity := zeros 8, gmData := [], pathDelay := 0, syncs := 0,
    stepsRemoved := 0, lastAnnounce := 0, seqId := 0 }

def plan0 : Plan := { refSrc := 0, refMode := 1, fRef := 0x4BBEBC20#32, fDco := 0x4F6E6B28#32, bw := 0x48F42400#32 }
def adpll0 : Adpll :=
  { state := .off, plan := plan0, band := 0, fine := 0, fMeas := 0, phaseRms := 0, locks := 0, losses := 0, tLock := 0, lockNs := 0,
    relock := none, relockAt := 0, gated := [], alignAt := none, profiles := List.replicate 8 none }
def clkOut0 : ClkOut := { enable := false, cmos := false, level := 0, divider := 0, phase := 0, source := 0 }
def senseCh0 : SenseCh :=
  { nomScale := 0x3F800000#32, nomZero := 0, scale := 0x3F800000#32, zero := 0, delay := 0, focDec := 0, slowN := 0, slowM := 0, slowInt := [],
    slowComb := [], slowCount := 0, slowOk := false, slowOut := 0, stuck := false, conv := none }
def sarCore0 : SarCore := { seq := [0, 1, 2, 3, 4, 5, 6, 7], anchor := 0, phys := none, urgent := [] }
def acc0 : AccSet :=
  { a := 0xFF, b := 0xFF, mode := 0, sumA := 0, sumAA := 0, sumAB := 0, count := 0, cal := false, stale := false, sat := false, pub := zeros 32 }
def mmx0 : Tracker :=
  { src := 0xFF, mode := 0, min := 0, max := 0, tMin := 0, tMax := 0, count := 0, cal := false, stale := false, pub := zeros 24 }
def fltCh0 : FltCh :=
  { bits := [], hist := [], q := 0, rounds := 0, settled := false, stopped := false, idle := false, sat := 0, caps := [] }


def dillConf0 : DillConf := { depth := 0, inputs := [], targets := [], cutSpec := 0, limit := 4, jParam := false, jBase := 0 }

/-- The values of a frame before any has committed. -/
def snap0 : Snap := { fu := [], can := [], stuck := 0, exc := 0 }

def stage0 : Stage :=
  { st := .off, graph := none, mode := 0, modes := [], frameIndex := 0, frameStart := 0, frameEnd := 0, divNow := 1, divLeft := 0,
    cumLen := 0, ts := none, startedAt := 0, tStop := none, lastOff := 0, gateOpen := false, spaFlag := false, notices := [],
    snaps := [], frames := [], closed := [], newest := 0, dill := dillConf0, sig := [], words := [], periods := [], lastRun := [], hist := [], writes := [],
    setps := [], pub := [], cFrame := 0, cReload := 0, cTime := 0, cPeriod := 0, cSnap := snap0, cRound := 0, prevFrame := 0, commitQ := 0, prevRange := [], prevPub := [], committed := 0, specCommits := 0, inputMisses := 0,
    periodMisses := 0, overruns := 0, consecutive := 0, sorrelCount := 0, suspend := none, overrunPub := false,
    slackMin := 0xFFFFFFFF#32, slackLast := 0, exceptions := 0, slotsPeak := 0, slotWaits := 0, portStall := 0, latencyMax := 0,
    missBy := List.replicate 16 0, checked := 0, mismatches := 0, handovers := 0, lastCause := 2, handover := none,
    handDue := none, startCommits := 0, startReq := none, startTag := 0, waitStart := false }

def timer0 : Timer :=
  { stage := none, slave := false, master := 0, phase := 0, align := false, periodGroup := none, period := 0, pmin := 0, pmax := 0,
    running := false, reloaded := false, reloads := 0, lastReload := 0, nextReload := 0, pActive := 0, pEff := 0, clamps := 0 }

def group0 : Group := { timer := none, units := [], staging := none, pend := none, active := none, superseded := 0 }

def channel0 : Channel :=
  { role := 0, mode := 0, group := 0, posA := 0, posB := 0, partner := none, dtR := 0, dtF := 0, minpw := 0, enabled := false,
    pendEn := none, acc := 0, raw := false, cmd := false, onAt := none, onSince := 0, offAt := none, offHeld := false, disabling := false, stopped := false,
    pulses := [], leg := none, edgeAt := 0, fault := none, faultSrc := 0, trips := 0, lastTrip := none, tripAt := none, rawFault := none, rbFaults := 0, rbBad := false,
    refresh := 0, refreshed := false }

def unit0 : CompareUnit := { service := .inService, shadow := none, dwellEnd := 0, swapTo := none }
def flt0 : FltInput := { enable := false, low := false, active := false }
def cmp0 : Comparator :=
  { lowEn := false, highEn := false, hyst := 0, blank := 0, targets := [], thresh := [0, 0, 0, 0], codes := [0, 0, 0, 0],
    zone := 0, tripped := false, blankEnd := 0 }
def foc0 : FastDet := { lowEn := false, highEn := false, targets := [], lo := 0, hi := 0, bits := [], tripped := false }
/-- The defaults of PROT_CONFIG kind 3. -/
def hb0 : HalfBridge :=
  { vdsHs := 20, vdsLs := 20, vdsShort := 8, vdsBlank := 25, refreshThr := 97, tRefresh := 120, tPrecharge := 100,
    hsVds := 0, lsVds := 0, hsLatch := none, lsLatch := none, wordDue := false, bootLow := false, preEnd := none, preDue := false, refreshes := 0, vBoot := 0 }
def engine0 : Engine :=
  { service := .inService, stage := none, logical := 0, waitPost := [], queue := [], portAt := 0, freeAt := 0, roomAt := 0, stallAt := none, stallFrom := 0, stalled := false }


def checker0 : Checker := { target := none, dwellEnd := 0, copy := none, replay := none, next := none, doubts := [] }

def safeChan0 : SafeChan :=
  { level := 0, raw := 0, held := List.replicate 16 0, masked := 0, permits := 0, safeBit := false, safeAt := 0 }
def contMon0 : ContMon := { applied := false, closed := false, wasClosed := false, since := 0, fault := false }
def tripTimer0 : TripTimer := { since := none, armed := false }
def testCycle0 : TestCycle :=
  { frame := 1999, seen := 1999, window := none, lowRun := List.replicate 16 0, dropSeen := 0, highTail := List.replicate 16 0, allHigh := 0, missing := List.replicate 16 0 }
def gridMeas0 : GridMeas :=
  { samples := [[], [], []], cross := [], volts := [0, 0, 0], freq := none, fHist := [], rocof := none, vshift := none, v10 := 0,
    v10Sum := 0, v10Count := 0, v10Secs := [] }
/-- The spec gives threshold, debounce and pull-in no reset value (R423, R425, FIO_CONFIG). -/
def fieldIn0 : FieldIn :=
  { threshold := 0, countEdge := 0, debounce := 1, gate := 0, volts := 0, pin := false, pinSince := 0, raw := false, level := false, rawSince := 0, chatter := false,
    trans := [], count := 0, lastRise := none, lastFall := none, gateEdges := [], gateStart := 0, freq := 0, freqStatus := 3 }
def fieldOut0 : FieldOut :=
  { safeState := 0, pullIn := 0, holdDuty := 100, openDetect := false, cmd := false, offAt := 0, on := false, pulling := none, econAt := 0, hot := false, faults := 0, faultCur := 0, current := 0 }
def portConf0 : PortConf :=
  { split := false, fn := 0x42480000#32, vb := 0x43660000#32, sb := 0x462BE000#32, fk := 0x469C4000#32, dfmax := 0x40400000#32,
    emax := 0x3F933333#32, bpll := 0x41A00000#32 }
def lawConf0 : LawConf :=
  { avg := false, h := 0x40000000#32, d := 0x41A00000#32, mp := 0x40000000#32, nq := 0x40A00000#32, rv := 0x3CA3D70A#32, xv := 0x3DCCCCCD#32,
    rv0 := 0x3CA3D70A#32, taup := 0x3BA3D70A#32, tauq := 0x3CA3D70A#32, rampP := 0x3E4CCCCD#32, rampQ := 0x3E4CCCCD#32, rampF := 0x3F000000#32, rampV := 0x3DCCCCCD#32 }
def limConf0 : LimConf :=
  { freeze := false, ilim := 0x3F99999A#32, rride := 0x3DCCCCCD#32, xride := 0x3E99999A#32, exit := 0x3CA3D70A#32, rh3 := 0, rh5 := 0, rh7 := 0 }
def syncConf0 : SyncConf :=
  { islAuto := true, closeDf := 0x3DCCCCCD#32, closeDth := 0x3CE56042#32, closeDv := 0x3CF5C28F#32, islDf := 0x3F000000#32,
    islTime := 0x3E4CCCCD#32, bsRate := 0x40000000#32, bsDead := 0x3DCCCCCD#32 }
def pll0 : Pll := { theta := 0, omega := 0, integ := 0, v := 0, locked := false, since := none }
def fuSet0 : FuSet := { work := 0, target := 0, ramp := false }
def fuRun0 : FuRun :=
  { started := false, kernel := 0, theta := 0, w := 0, e := 0, pf := 0, qf := 0, sp := fuSet0, sq := fuSet0, sf := fuSet0, sv := fuSet0, soft := false, ride := false,
    wHeld := 0, exitSince := none, decay := none, rl := 0, xl := 0, k := 0, iMax := 0, vRef := [0, 0, 0], iRef := [0, 0, 0], fClamp := false,
    eClamp := false, rideNs := 0, bsEntry := 0, bsSince := none, bsStalled := false, closeSince := none, permit := false, islSince := none,
    harm := List.replicate 14 0, iHarm := [0, 0, 0], pq := [], resF := 0, resV := 0, resMove := none, fAvg := 0, vAvg := 0, hist := [] }
def fuSched0 : FuSched := { on := false, paused := false, domain := 0, anchor := 0, period := 0, kf := 0, kv := 0, limF := 0, limV := 0, next := 0, halted := false, resumed := false, due := false }
/-- A forming unit after reset: OFF, every parameter at its default (R312). -/
def fu0 : FormingUnit :=
  { mode := .off, port := portConf0, law := lawConf0, lim := limConf0, sync := syncConf0, feeding := none, feedDiv := 0, stored := [none, none, none, none],
    reqs := [], nowReqs := [], running := none, waiting := none, lastFeed := 0, tk := none, tkDom := 0, tInt := 0, pll := pll0, trk := pll0, vm := 0, vg := 0,
    sogi := List.replicate 6 0, present := false, gap := false, run := fuRun0, shutting := none, offTaken := false, sched := fuSched0, schedPub := fuSched0, endQ := 0, pubBytes := [], prevBytes := [], feedGaps := 0,
    dropped := 0, clamps := 0, pllLosses := 0, rideEntries := 0, permits := 0, islandings := 0, resSteps := 0, resSkipped := 0 }

/-! ### Whole units in reset -/

/-- Thyme: the raw count starts at 0; TD0 is FREE with value 0 and rate 0, and active (R443, R450). -/
def time0 : Thyme :=
  { raw := 0, onFallback := List.replicate 5 true, fbCount := 0, fbNs := 0, fbStart := none, fbPast := [],
    domains := { Domain0 with source := .free, state := .free } :: List.replicate 3 Domain0, active := 0, switch := none,
    degraded := false, history := [{ raw := 0, value := 0, dom := { Domain0 with source := .free, state := .free }, switch := none }] }

/-- The system in reset (R118 to R122): cause POWER_ON. -/
def sys0 : Sys :=
  { dev := .boot, lifecycle := .blank, phase := .inReset, cause := 0x01#8, intern := false, cold := true, bootsel := 0,
    bootPath := false, imageVersion := 0, requests := 0, errors := 0, stateChange := false, resetDue := none, causeOpen := false, longs := [],
    selftestFail := none, vendorOpen := false, safeOffA := false, safeOffB := false, faultN := false, released := false }

def cmd0 : CmdPort := { isOpen := false, requests := [], replies := [], waiting := [], miso := [], cpol := false, held := none }
def udp0 : Udp := { sessions := [], queue := [], nonces0 := [], nonces1 := [], sent := [] }
/-- The event log (R85, R91). -/
def evt0 : EventLog := { entries := [], nextSeq := 1, lost := 0, mask := 0x0000FFFE#32, excl := [] }
def bulk0 : BulkPort := { held := false, epoch := 0, lastUse := 0, refusedF := false, expired := false, refused := 0, out := [] }
def img0 : Image := { host := [], back := none, latched := [], epoch := 0, running := false, due := 0, rate := 10000, newRate := 10000 }
def sup0 : Supply := { flags := 0, warnCount := 0, volts := [0, 0, 0, 0, 0], tj := 0, tjMax := none, trims := [] }
def gov0 : Governor := { pullin := [], precharge := [], release := [], inPullin := [], lastPre := none, lastRelease := none, wakes := [] }
def stag0 : Staging := { isOpen := false, verifying := none, verified := none }
def eth0 : EthPort :=
  { enable := false, rgmii := false, speed := 0, linkSpeed := 0, pcp := 0, vid := 0, mac := zeros 6, ipv4 := 0, netmask := 0, gateway := 0,
    udpPort := 24760, link := false, rxFrames := 0, txFrames := 0, rxCrc := 0, rxDropped := 0, txLost := 0, linkLosses := 0 }
/-- The default plan of ADPLL-B (R541). -/
def planB0 : Plan := { plan0 with fDco := 0x4F3EBC20#32, bw := 0x48435000#32 }
def clk0 : Clocks := { plls := [adpll0, { adpll0 with plan := planB0 }], outs := List.replicate 10 clkOut0 }

/-- Assignment of a channel after reset: slot k holds channel k, FIR bypass, sinc order 3 and decimation 32 for
bitstream channels (R191). -/
def assign0 (k : Nat) : Assign := { ch := k, first := k, gang := 1, set := none, n := if k < 48 then 3 else 0, m := if k < 48 then 32 else 0, r := 1 }
def round0 : RoundVals :=
  { t := 0, dom := 0, vals := List.replicate 80 none, stale := [], slow := List.replicate 80 none, done := List.range 80, folded := true, marks := [] }
def sense0 : Sense :=
  { chans := List.replicate 80 senseCh0, cores := (List.range 4).map (fun c => { sarCore0 with phys := some c }), refState := 0, refDue := 0,
    urgentDone := 0, urgentDropped := 0, sarMismatch := 0, probe := none, sarPairs := List.replicate 4 [], sarFix := none, voltBad := [], accs := List.replicate 64 acc0,
    mmxs := List.replicate 64 mmx0, confs := [], cals := [], calMarks := [], nextRound := 0, round := round0, late := none, past := [], accRead := [], urgents := [] }
def filter0 : Filter :=
  { mem := [], sets := List.replicate 64 none, assigns := (List.range 80).map assign0, setsReq := List.replicate 64 none,
    assignsReq := (List.range 80).map assign0, changed := false, chans := List.replicate 80 fltCh0, macWin := [], lostLane := 0xFF }
/-- The PWM generator: units 96 to 103 are spares (R532); the gating cells are off. -/
def pwm0 : Pwm :=
  { timers := List.replicate 24 timer0, groups := List.replicate 32 group0, channels := List.replicate 96 channel0,
    units := List.replicate 96 unit0 ++ List.replicate 8 { unit0 with service := .spare }, flts := List.replicate 80 flt0,
    cmps := List.replicate 32 cmp0, focs := List.replicate 48 foc0, hbs := List.replicate 8 hb0, vdrvWarn := false, vdrvShut := false,
    tempWarn := false, tempShut := false, vdrv := 0, dieTemp := 0, multileg := 0, selftest := none, gateProc := false, gateSorrel := false }
/-- The loop island: engines 16 and 17 are spares (R217). -/
def loop0 : Loop :=
  { mem := [], stages := List.replicate 8 stage0, engines := List.replicate 16 engine0 ++ List.replicate 2 { engine0 with service := .spare },
    insts := [], pqueue := [], checkers := [checker0, checker0], loads := [] }
def safe0 : Safety :=
  { causes := 0, firstReason := 0, firstAt := none, tSafe := 0, entries := 0, loaded := none, block := none, inOtp := false, proc := safeChan0, sorrel := safeChan0,
    fresh := true, discLatch := false, discSince := none, bothLow := false, test := testCycle0, dropouts := 0, cont := List.replicate 4 contMon0, contProc := List.replicate 4 contMon0,
    elems := List.replicate 8 tripTimer0, islandSet := false, grid := gridMeas0, gridWait := false, insideSince := none, testDue := false,
    lastTest := 0, runTime := 0, runSince := none, disagree := none }
/-- The field die and the link: lanes 0 and 1 in service, lane 2 spare (R439), timeout 1 ms (R440). -/
def field0 : Field :=
  { clock0 := 0, ins := List.replicate 16 fieldIn0, outs := List.replicate 8 fieldOut0, tpCmd := 0, tpRead := 0, tpBad := List.replicate 4 0, tpMis := 0,
    warn := false, underV := false, overV := false, dieStop := false, timedOut := true, safeSeen := false, goodRun := 0, lastDown := 0,
    answerDue := none, upSeq := 0, upLast := 0, lastSeq := 0, downErr := false, spareDownErr := false, dieLost := false, timeout := 1000,
    dieTemp := 0, vField := 0, taken := 0, named := 0, edges := 0, started := false, seq := 0, doCmd := 0, sentCmd := 0, owner := List.replicate 8 0,
    shutting := List.replicate 8 none, mailbox := [], nextKey := 0, down := none, up := none, newest := none, stamps := List.replicate 16 0,
    lastUp := 0, linkUp := false, linkLost := false, laneDown := 0, laneUp := 1, spareLanes := 1, laneErrs := [[], [], []], swapNext := none,
    framesOk := 0, crcErrors := 0, timeouts := 0, onSeq := List.replicate 8 0, cleared := List.replicate 16 0, clearDue := 0, nextDown := 0 }
/-- The capture unit (R499). -/
def cap0 : Capture :=
  { mem := [], conf := none, st := .idle, stopReason := 0, bound := 0, factor := 1, ring := 16, stepAt := 0, seq := 0, release := 0, oldest := 0, rows := 0,
    dropped := 0, foreign := 0, triggers := 0, tTrig := 0, block := none, gap := false, trig := none, firedAt := 0, firedSrc := 0, firedEvt := none, postLeft := none, trigRowNo := 0,
    paced := false, armedIn := none, first := none, past := [], lastDue := 0, lastSeen := 0, frames := [], writes := [], traces := List.replicate 64 0, prev := List.replicate 64 0, havePrev := false, streamSeq := 0, dtRise := none,
    dtFall := none, identity := 0, delays := List.replicate 4 (List.replicate 4 0xFFFF#16), holdoff := List.replicate 4 0, holdWas := List.replicate 4 0,
    drives := List.replicate 4 none, fall := List.replicate 4 none, taken := List.replicate 4 none, everArmed := false, cal := none }
def rel0 : Rel :=
  { otp := [], transient := List.replicate 6 0, waiting := [], rows := [], canRows := [], unposted := [], rowSeen := [], sarRetired := List.replicate 5 false,
    macRetired := List.replicate 9 false, laneRetired := List.replicate 3 false, unitSeen := [], unitWatch := [], engSeen := [],
    logWrites := [], volatiles := [], logFull := false, jobs := [], nonce := none, scrubReads := 0,
    scrubPasses := 0, corrected := 0, uncorrectable := 0, jtag := .bypass, jtagCode := 0 }

end Sys2Proof.Machine
end

