-- ==== Sys2Proof/Machine/State.lean ====
section
/-! DEFINITION. The whole state of the 96G, the reasons a step can stop, and the state after reset. -/

namespace Sys2Proof.Machine

open Sys2Proof

/-- Reasons a step stops with a fault. No command of this block ends so. -/
inductive Fault where
  /-- Raised by nothing: the spec describes every error of the part as a reply status or an event. Safe. -/
  | unreachable
deriving DecidableEq, Repr

/-- Reasons a step is refused. -/
inductive Refusal where
  /-- The command has no meaning in the model yet. Safe. -/
  | notModelled (mnemonic : String)
  /-- A vendor test request that passes the checks of R81 inside a vendor session: the spec says vendor test
  opcodes are not documented. Safe: the machine goes no further. -/
  | vendorTest (opcode : U16)
deriving DecidableEq, Repr

/-- The state of the device: every register, queue, memory, mode and pin the spec names, and the queue of
commands that wait. -/
structure State where
  time    : Thyme
  sys     : Sys
  cmd     : CmdPort
  udp     : Udp
  evt     : EventLog
  bulk    : BulkPort
  img     : Image
  sup     : Supply
  gov     : Governor
  stag    : Staging
  eth     : List EthPort
  insts   : List TimeInst
  clk     : Clocks
  sense   : Sense
  flt     : Filter
  pwm     : Pwm
  loop    : Loop
  safe    : Safety
  field   : Field
  cap     : Capture
  fus     : List FormingUnit
  can     : Can
  sage    : Sage
  rel     : Rel
  free    : Nat              -- the model's own: how many free values have been drawn
  pending : List Instr
deriving DecidableEq, Repr

/-- The device in reset after power-on, before t_rel (R118 to R122, R124): every SRAM word zero, every output off. -/
def State.reset : State :=
  { time := time0, sys := sys0, cmd := cmd0, udp := udp0, evt := evt0, bulk := bulk0, img := img0, sup := sup0, gov := gov0, stag := stag0,
    eth := [eth0, eth0], insts := List.replicate 3 inst0, clk := clk0, sense := sense0, flt := filter0, pwm := pwm0, loop := loop0,
    safe := safe0, field := field0, cap := cap0, fus := List.replicate 2 fu0, can := can0, sage := sage0, rel := rel0, free := 0, pending := [] }

end Sys2Proof.Machine
end

