-- ==== Sys2Proof/Machine/OpsBase.lean ====
section
/-! DEFINITION. Shared operations: sparse memories, time, free values, the event log. -/

namespace Sys2Proof.Machine

open Sys2Proof

/-! ### Memories: lists of (address, byte), addresses rising, no zero byte listed -/

/-- The canonical form of a memory: addresses strictly rising, no byte equal to the 0 an unlisted address reads as. -/
def memWf : List Host.Cell → Bool
  | [] => true
  | [(_, v)] => v != 0
  | (a, v) :: (b, w) :: t => v != 0 && decide (a < b) && memWf ((b, w) :: t)

/-- The byte at an address: 0 where none is listed (the wipe of R124 leaves zero data). -/
def memRead (m : List Host.Cell) (a : Nat) : Byte :=
  match m with
  | [] => 0
  | (b, v) :: t => if a = b then v else if a < b then 0 else memRead t a

/-- Write one byte, keeping the canonical form. -/
def memWrite (m : List Host.Cell) (a : Nat) (x : Byte) : List Host.Cell :=
  match m with
  | [] => if x = 0 then [] else [(a, x)]
  | (b, v) :: t =>
    if a < b then (if x = 0 then (b, v) :: t else (a, x) :: (b, v) :: t)
    else if a = b then (if x = 0 then t else (a, x) :: t)
    else (b, v) :: memWrite t a x

/-- Write bytes from an address on. -/
def memWriteBytes (m : List Host.Cell) (a : Nat) : Bytes → List Host.Cell
  | [] => m
  | x :: t => memWriteBytes (memWrite m a x) (a + 1) t

/-- Read `n` bytes from an address on. -/
def memReadBytes (m : List Host.Cell) (a n : Nat) : Bytes := (List.range n).map (fun i => memRead m (a + i))

/-- Clear `n` bytes from an address on. -/
def memClear (m : List Host.Cell) (a n : Nat) : List Host.Cell := m.filter (fun c => !(decide (a ≤ c.1) && decide (c.1 < a + n)))

/-- The device unique identifier: the first two words of the vendor area of the OTP (R540). -/
def uidBytes (s : State) : Bytes := memReadBytes s.rel.otp (8 * 1152) 16

/-! ### Free values -/

/-- Draw a fresh free value: nothing in the model can tell its value. -/
def draw (s : State) : U32 × State := (Config.freeWord s.free, { s with free := s.free + 1 })

/-- Draw `n` free bytes. -/
def drawBytes : Nat → State → Bytes × State
  | 0, s => ([], s)
  | n + 1, s =>
    let (w, s1) := draw s
    let (t, s2) := drawBytes n s1
    (w.extractLsb' 0 8 :: t, s2)

/-- A level or pulse is qualified by the time it has lasted: always from `long` ns on, never below `short`; in between
it may or may not be, which a free value tells (R113, R118). -/
def qualified (short long held : Nat) (s : State) : Bool × State :=
  if held ≥ long then (true, s) else if held < short then (false, s)
  else let (w, s1) := draw s; (w.getLsbD 0, s1)

/-! ### Time (R448, R455) -/

/-- One nanosecond in the fixed-point unit of domain values, 2^-32 ns. -/
def ns1 : Int := 2 ^ 32

/-- T_d at an extended raw count, in 2^-32 ns (R448); ties of the rounding go up. -/
def domTime (d : Domain) (r : Nat) : Int :=
  let n : Int := (r : Int) - (d.anchorRaw : Int)
  d.anchor + n * ns1 + (n * d.rho + 2 ^ 7) / 2 ^ 8

/-- A domain that is running (R450). -/
def tdRunning (d : Domain) : Bool := d.state == .locked || d.state == .holdover || d.state == .free

/-- Domain TDd. -/
def getTd (s : State) (d : Nat) : Domain := s.time.domains.getD d Domain0

/-- The part of delta_0 not yet slewed off at a raw count, in 2^-32 ns (R455). -/
def switchLeft (w : Switch) (r : Nat) : Int :=
  let gone : Nat := (w.slew * (r - w.start) * 2 ^ 32) / 10 ^ 9
  let m := w.delta.natAbs - gone
  if w.delta < 0 then -(m : Int) else m

/-- The active time V in 2^-32 ns at a raw count (R455, R456). -/
def activeFixed (t : Thyme) (r : Nat) : Int :=
  let b := domTime (t.domains.getD t.active Domain0) r
  match t.switch with
  | none => b
  | some w => b - switchLeft w r

/-- The active time at a raw count up to now, by the mapping in effect then (R447, R454). -/
def activeAt (t : Thyme) (r : Nat) : Int :=
  match (t.history.takeWhile (fun m => decide (r < m.raw))).getLast? with
  | none => activeFixed t r
  | some m => domTime m.dom r - (match m.switch with | none => 0 | some w => switchLeft w r)

/-- The active time in whole ns now. -/
def activeNs (s : State) : Nat := (activeFixed s.time s.time.raw / ns1).toNat
/-- The 32-bit active-domain time now (R5). -/
def activeTime (s : State) : U32 := BitVec.ofNat 32 (activeNs s)
/-- The 16-bit fraction of the active time (R5). -/
def activeFrac (s : State) : U16 := BitVec.ofInt 16 (activeFixed s.time s.time.raw / 2 ^ 16)

/-- The extended raw count reaches at least an instant: a time-driven event acts at its due instant, or now if that
has passed. -/
def advanceTo (t : Nat) (s : State) : State := { s with time := { s.time with raw := max s.time.raw t } }

/-- The PWM island runs from the fallback oscillator. -/
def pwmFallback (s : State) : Bool := s.time.onFallback.getD 0 true

/-- The first count that equals or passes an instant: on fallback the raw count advances by 10 from where the interval
began (R443, R445). -/
def countReached (s : State) (t : Nat) : Nat :=
  match s.time.fbStart with
  | some a => if t ≤ a then a else a + 10 * ((t - a + 9) / 10)
  | none => t

/-! ### Events (R85 to R88) -/

/-- An entry's data field has eight bytes. -/
def eventData (d : Bytes) : Bytes := slice d 0 8

/-- The log accepts events once the wipe is over (R124: the log is SRAM). -/
def logLive (s : State) : Bool := s.sys.phase != .inReset && s.sys.phase != .wiping

/-- A new entry of the event log; dropped and counted while 4095 entries are unacknowledged (R87). -/
def logEvent (code : U16) (source : Nat) (data : Bytes) (s : State) : State :=
  if !logLive s then s
  else if s.evt.entries.length ≥ 4095 then { s with evt := { s.evt with lost := satInc s.evt.lost } }
  else
    let e : LogEntry := { seq := s.evt.nextSeq, time := activeTime s, code := code, source := BitVec.ofNat 8 source,
                          rept := 0, data := eventData data, read := false }
    { s with evt := { s.evt with entries := s.evt.entries ++ [e], nextSeq := s.evt.nextSeq + 1 } }

/-! ### Stages and timers -/

def getStage (s : State) (n : Nat) : Stage := s.loop.stages.getD n stage0
def getTimer (s : State) (n : Nat) : Timer := s.pwm.timers.getD n timer0

/-- The longest period of a timer in sixteenths of 1 ns: its largest period where a group modulates it (R345, R366). -/
def timerLongest (s : State) (t : Nat) : Nat :=
  let x := getTimer s t
  let y := if x.slave then getTimer s x.master else x
  if y.periodGroup.isSome then y.pmax else y.period

/-- The longest frame of a stage in sixteenths of 1 ns; with an automatic divider D periods reach the minimum frame
period, at most 16 of them (R21, R366). -/
def frameLongest (s : State) (n : Nat) : Nat :=
  match (getStage s n).graph with
  | none => 0
  | some g =>
    let p := timerLongest s g.frameTimer
    if g.divider ≠ 0 then g.divider * p else min (16 * p) (16 * g.minPeriod + p)

end Sys2Proof.Machine
end

