-- ==== Sys2Proof/Machine/OpsCap.lean ====
section
/-! DEFINITION. Shared operations of the capture unit: blocks, triggers, the trigger bus, shutdown (spec/19). -/

namespace Sys2Proof.Machine

open Sys2Proof

/-- Change the capture's state. -/
def updCap (f : Capture → Capture) (s : State) : State := { s with cap := f s.cap }

/-- Capture state codes (R498). -/
def capCode : CapState → Nat
  | .idle => 0 | .armed => 1 | .triggered => 2 | .done => 3 | .streaming => 4 | .shuttingDown => 5

/-- The capture is armed: it is neither IDLE nor DONE (R155). -/
def capArmed (s : State) : Bool := s.cap.st != .idle && s.cap.st != .done

/-- The configuration, or one of no use while none is set. -/
def capConf (s : State) : CapConf :=
  s.cap.conf.getD { mode := 0, stage := 0, nTraces := 1, dtChan := 0xFF, dec := 1, ring := 16, pre := 0, post := 0, trigOut := 0, port := 0, udpPort := 0, session := 0, terms := [] }

/-- Rows per block (R486). -/
def rowsPerBlock (n : Nat) : Nat := 4032 / (4 * n)

/-- Byte address of the block with a sequence number (R486). -/
def blockAddr (s : State) (seq : U32) : Nat := 4096 * (seq.toNat % s.cap.ring)

/-- Blocks valid and not released (R499). -/
def capFill (c : Capture) : Nat := (c.seq - c.oldest).toNat

/-- The trigger fields of a block, offsets 0x1E to 0x2B (R487): zero, and trig_row 0xFFFF, without a trigger. -/
def trigFields (tr : Option CapTrig) (row : Nat) (off : Int) : Bytes :=
  match tr with
  | none => n16 0xFFFF ++ zeros 12
  | some t => n16 row ++ i32b off ++ le32 (BitVec.ofInt 32 (t.at_ / ns1)) ++ le16 (BitVec.ofInt 16 (t.at_ / 2 ^ 16)) ++ n8 t.source ++ n8 t.driver

/-- The flags that a trigger sets in its block: TRIG, and TRIG_UNKNOWN for a pulse that names no driver (R487, R496). -/
def trigFlags (t : CapTrig) : Nat := if t.unknown then 33 else 1

/-- A block's header without its check value (R487). -/
def blockHeader (s : State) (b : CapBlock) : Bytes :=
  let k := capConf s
  n32 0x42435A4F ++ le32 s.cap.seq ++ le32 b.epoch ++ le32 b.first ++ le32 b.tFirst ++ n16 b.rows ++ n8 k.nTraces ++ n8 k.stage ++ n16 k.dec
    ++ n16 b.factor ++ n16 b.flags ++ trigFields b.trig b.trigRow b.trigOff ++ n16 (s.cap.dtRise.getD 0xFFFF) ++ n16 (s.cap.dtFall.getD 0xFFFF) ++ le32 s.cap.dropped

/-- The check value of a block stands over its header and rows (R487). -/
def blockCrc (s : State) (addr : Nat) (hdr : Bytes) (rows : Nat) : U32 :=
  crc32c (hdr ++ memReadBytes s.cap.mem (addr + 64) (rows * 4 * (capConf s).nTraces))

/-- Count a block as written. -/
def blockWritten (s : State) : State := updCap (fun c => { c with seq := c.seq + 1 }) s

/-- The factor follows the fill (R492); each change posts event 0x0D02, merged with an unacknowledged entry. -/
def setFactor (f : Nat) (s : State) : State :=
  let s1 := updCap (fun c => { c with factor := f }) s
  let d := n16 f ++ n16 (capFill s.cap)
  match s.evt.entries.findIdx? (fun e => e.code == 0x0D02#16) with
  | some i => { s1 with evt := { s1.evt with entries := upd s1.evt.entries i (fun e => { e with rept := satInc e.rept, data := eventData d }) } }
  | none => logEvent 0x0D02#16 0 d s1

/-- Above 75 % of the ring the factor doubles, and again with each further sixteenth of it; below 25 % it returns to 1 (R492). -/
def followFill (s : State) : State :=
  let ring := s.cap.ring
  let f := capFill s.cap
  if (capConf s).mode = 0 then s
  else if s.cap.factor > 1 ∧ 4 * f < ring then setFactor 1 (updCap (fun c => { c with stepAt := 12 * ring }) s)
  else if 16 * f > s.cap.stepAt ∧ s.cap.factor < 256 then
    setFactor (2 * s.cap.factor) (updCap (fun c => { c with stepAt := c.stepAt + ring }) s)
  else s

/-- Close the open block with further flags (R486): its header and check value are written. -/
def closeBlock (flags : Nat) (s : State) : State :=
  match s.cap.block with
  | none => s
  | some b =>
    let b := { b with flags := b.flags ||| flags }
    let a := blockAddr s s.cap.seq
    let h := blockHeader s b
    let s1 := updCap (fun c => { c with mem := memWriteBytes c.mem a (h ++ le32 (blockCrc s a h b.rows) ++ zeros 8), block := none, dtRise := none, dtFall := none }) s
    followFill (blockWritten s1)

/-- Rewrite the header of a closed block, with its check value. -/
def rewriteBlock (seq : U32) (f : Bytes → Bytes) (s : State) : State :=
  let a := blockAddr s seq
  let h := f (memReadBytes s.cap.mem a 0x34)
  updCap (fun c => { c with mem := memWriteBytes c.mem a (h ++ le32 (blockCrc s a h (n16At h 0x14))) }) s

/-- A header with further flags. -/
def orFlags (flags : Nat) (h : Bytes) : Bytes := h.take 0x1C ++ le16 (u16At h 0x1C ||| BitVec.ofNat 16 flags) ++ h.drop 0x1E
/-- A header with a trigger. -/
def withTrig (t : CapTrig) (row : Nat) (off : Int) (h : Bytes) : Bytes := orFlags (trigFlags t) (h.take 0x1E ++ trigFields (some t) row off ++ h.drop 0x2C)
/-- The open block with a trigger. -/
def trigBlock (t : CapTrig) (row : Nat) (off : Int) (b : CapBlock) : CapBlock :=
  { b with trig := some t, trigRow := row, trigOff := off, flags := b.flags ||| trigFlags t }

/-- The last block, open or closed, gets flags and, where it has come after the last row, the trigger, with trig_row 0xFFFF (R491). -/
def markLast (flags : Nat) (tr : Option CapTrig) (s : State) : State :=
  match s.cap.block with
  | some _ => updCap (fun c => { c with block := c.block.map (fun b =>
      let b1 := match tr with | some t => trigBlock t 0xFFFF 0 b | none => b
      { b1 with flags := b1.flags ||| flags }) }) s
  | none =>
    if s.cap.oldest = s.cap.seq then s
    else rewriteBlock (s.cap.seq - 1) (fun h => orFlags flags (match tr with | some t => withTrig t 0xFFFF 0 h | none => h)) s

/-- The end of a capture: event 0x0D00 (R491, R498, R500). -/
def capEnd (st : CapState) (reason : Nat) (s : State) : State :=
  let s1 := updCap (fun c => { c with st := st, trig := none, postLeft := none }) s
  logEvent 0x0D00#16 0 (n8 (capCode st) ++ n8 reason ++ zeros 2 ++ le32 s1.cap.seq) s1

/-- A one-shot capture is complete (R491): the last block closes, the oldest kept block is the one of the row pre_rows
before the trigger row, PRE_SHORT where that row is not held. A trigger without a row counts as after the last one. -/
def capDone (flags reason : Nat) (s : State) : State :=
  let no := if s.cap.trig.isSome then s.cap.rows.toNat else s.cap.trigRowNo
  let s1 := closeBlock 0 (markLast (flags ||| 16) s.cap.trig s)
  let pre := (capConf s1).pre
  let held (r : CapRow) : Bool := decide (r.no + pre = no) && decide (0 ≤ (r.seq - s1.cap.oldest).toInt)
  match s1.cap.past.find? held with
  | some r => capEnd .done reason (updCap (fun c => { c with oldest := r.seq }) s1)
  | none => capEnd .done reason (if s1.cap.oldest = s1.cap.seq then s1 else rewriteBlock s1.cap.oldest (orFlags 2) s1)

/-- No committed frame of the pacing stage still waits for its row, and the stage, which has been ENABLED, makes no more (R491). -/
def rowsEnded (s : State) : Bool :=
  s.cap.frames.isEmpty && s.cap.paced
    && (match s.loop.stages[(capConf s).stage]? with | some x => x.st != .enabled && x.st != .starting | none => true)

/-- A TRIGGERED capture whose rows have ended is DONE with POST_SHORT (R491), once the instant of its trigger is known. -/
def capRowsEnd (s : State) : State :=
  if s.cap.st = .triggered ∧ rowsEnded s ∧ s.cap.taken.all (·.isNone) then capDone 4 0 s else s

/-- Drive the configured lines low (R495): a line already low is not driven. -/
def driveLines (mask : Byte) (s : State) : State :=
  let now := s.time.raw
  updCap (fun c => { c with drives := c.drives.mapIdx (fun i d =>
    if mask.getLsbD i ∧ d.isNone ∧ (c.fall.getD i none).isNone then some (now, now + 100 + 40 * c.identity) else d) }) s

/-- The cycle of the Host island in which a raw count lies (R16, R18). -/
def hostCycle (s : State) (r : Nat) : Nat := if s.time.onFallback.getD 3 true then r / 10 else 2 * r / 5
/-- The newest trigger was taken in this Host-island cycle (R489). -/
def together (s : State) : Bool := s.cap.triggers != 0 && decide (hostCycle s s.cap.firedAt = hostCycle s s.time.raw)

/-- The active time of an instant now, in 2^-32 ns. -/
def nowFixed (s : State) : Int := activeFixed s.time s.time.raw

/-- The data of event 0x0D01 (R500). -/
def trigData (t : CapTrig) : Bytes := n8 t.source ++ n8 t.driver ++ zeros 2 ++ le32 (BitVec.ofInt 32 (t.at_ / ns1))

/-- The trigger row of a trigger dated back is the first row already written whose frame reload lies at or after it (R490). -/
def placeTrig (t : CapTrig) (s : State) : State :=
  match (s.cap.past.takeWhile (fun r => decide (t.at_ ≤ activeAt s.time r.reload))).getLast? with
  | none => s
  | some r =>
    let off := (activeAt s.time r.reload - t.at_) / ns1
    let s1 := if r.seq = s.cap.seq then updCap (fun c => { c with block := c.block.map (trigBlock t r.row off) }) s
      else if 0 ≤ (r.seq - s.cap.oldest).toInt then rewriteBlock r.seq (withTrig t r.row off) s else s
    updCap (fun c => { c with trig := none, trigRowNo := r.no, postLeft := if c.st = .triggered then some ((capConf s).post - (c.rows.toNat - 1 - r.no)) else none }) s1

/-- The trigger that stands, in the fields that name it (R490, R499). -/
def capNote (t : CapTrig) (s : State) : State :=
  updCap (fun c => { c with tTrig := BitVec.ofInt 32 (t.at_ / ns1), trig := some t, firedSrc := t.source }) s

/-- A trigger that stands finds its row among those written. In ONE_SHOT the capture is TRIGGERED, and DONE where no row is still
to come; in streaming the block closes (R486, R490, R491). -/
def capPlace (t : CapTrig) (s : State) : State :=
  match s.cap.st with
  | .armed | .triggered =>
    let s1 := placeTrig t (updCap (fun c => { c with st := .triggered }) s)
    if s1.cap.postLeft = some 0 then capDone 0 0 s1 else capRowsEnd s1
  | _ => closeBlock 0 (placeTrig t s)

/-- A trigger that fired at a raw count is taken: it is counted and posts event 0x0D01 (R489 to R492, R500). -/
def capTake (t : CapTrig) (fired : Nat) (s : State) : State :=
  let note := if logLive s && decide (s.evt.entries.length < 4095) then some s.evt.nextSeq else none
  let s1 := capNote t (updCap (fun c => { c with triggers := c.triggers + 1, firedAt := fired, firedEvt := note }) s)
  capPlace t (logEvent 0x0D01#16 0 (trigData t) s1)

/-- A lower term takes the place of the trigger of the same Host-island cycle (R489): it is no second trigger, and the event of the
first one, where the log holds it, carries its data. -/
def capReplace (t : CapTrig) (s : State) : State :=
  let s1 := capNote t s
  capPlace t { s1 with evt := { s1.evt with entries := s1.evt.entries.map (fun e =>
    if e.code == 0x0D01#16 && s.cap.firedEvt == some e.seq then { e with data := eventData (trigData t) } else e) } }

/-- An edge was taken in the present Host-island cycle (R489). -/
def edgeNow (s : State) (e : CapEdge) : Bool := decide (hostCycle s e.at_ = hostCycle s s.time.raw)

/-- The trigger of this Host-island cycle that a lower term replaces: one whose row has not been found, or the one for which an edge
of this cycle stands. -/
def sameCycle (s : State) : Option CapTrig :=
  match s.cap.taken.findSome? (fun o => o.bind (fun e => if edgeNow s e then e.was else none)) with
  | some t => some t
  | none => if together s then s.cap.trig else none

/-- Terms are evaluated while the capture is ARMED, and while it streams (R489, R492), and on to the end of the Host-island cycle
in which one fires. -/
def capListens (s : State) : Bool :=
  s.cap.st == .armed || s.cap.st == .streaming || (s.cap.st == .triggered && together s && (sameCycle s).isSome)

/-- A term, or a force (0xFF), fires: of several in one Host-island cycle the lowest counts (R489). Once an edge has been taken, a
ONE_SHOT capture takes no term of a later cycle, though the pulse is not yet over. -/
def mayFire (src : Nat) (s : State) : Bool :=
  capListens s && (sameCycle s).all (fun t => decide (src < t.source))
    && s.cap.taken.all (fun o => o.all (fun e => if edgeNow s e then decide (src < e.source) else s.cap.st == .streaming))

/-- The edges taken in this Host-island cycle no longer count: a lower term has fired (R489). -/
def dropEdges (s : State) : State :=
  updCap (fun c => { c with taken := c.taken.map (fun o => o.filter (fun e => !edgeNow s e)) }) s

/-- The falling edge of a line becomes the trigger of a term, once the width of the pulse is known (R496). It starts the line's
hold-off of 2 us (R495) and stands for the trigger of the same cycle that it replaces. -/
def takeEdge (line src edge : Nat) (s : State) : State :=
  let was := sameCycle s
  updCap (fun c => { c with taken := upd c.taken line (fun _ => some { source := src, at_ := s.time.raw, was := was }), trig := if was.isSome then none else c.trig
                            holdoff := upd c.holdoff line (fun _ => edge + 2000) }) (dropEdges s)

/-- A line that the capture would drive and that another device holds low (R495). -/
def heldLine (s : State) : Option Nat :=
  (List.range 4).find? (fun i => (capConf s).trigOut.getLsbD i && (s.cap.fall.getD i none).isSome && (s.cap.drives.getD i none).isNone)

/-- An own term fires (R489, R495): the lines that are free are driven low; where one is low already, its edge becomes the trigger. -/
def capFire (t : CapTrig) (s : State) : State :=
  if !mayFire t.source s then s
  else
    let s1 := driveLines (capConf s).trigOut s
    match heldLine s with
    | some i => takeEdge i t.source ((s.cap.fall.getD i none).getD 0) s1
    | none => if (sameCycle s).isSome then capReplace t (dropEdges s1) else capTake t s.time.raw (dropEdges s1)

/-- The first of the terms that an event fires: kinds 7 to 10 of R489. -/
def eventTerm (code : U16) (source : Nat) (data : Bytes) (t : CapTerm) : Bool :=
  (decide (t.kind = 7) && code == 0x0900#16 && decide (n8At data 2 = t.index))
    || (decide (t.kind = 8) && code == 0x0106#16 && decide (n8At data 1 = 4))
    || (decide (t.kind = 9) && code == 0x0606#16 && decide (source = t.index))
    || (decide (t.kind = 10) && code == t.code)

/-- An event occurs: it fires a term on it (R489). -/
def capEvent (code : U16) (source : Nat) (data : Bytes) (s : State) : State :=
  if !capListens s then s
  else
    match (capConf s).terms.findIdx? (eventTerm code source data) with
    | none => s
    | some i => capFire { at_ := nowFixed s, source := i, driver := 0xFF, unknown := false } s

/-- The bound of a capture's shutdown in ns: twice the pacing stage's longest frame and 2 us (R498). -/
def capBound (s : State) : Nat := ceilDiv (2 * frameLongest s (capConf s).stage) 16 + 2000

/-- The capture's shutdown begins (R498). -/
def capShutdown (reason : Nat) (s : State) : State :=
  if s.cap.st == .armed || s.cap.st == .triggered || s.cap.st == .streaming then
    updCap (fun c => { c with st := .shuttingDown, postLeft := none, taken := List.replicate 4 none, stopReason := reason, bound := s.time.raw + capBound s }) s
  else s

/-- A session closes: a capture that streams to it starts its shutdown (R494). -/
def capSessionClosed (port : Nat) (sid : U32) (s : State) : State :=
  if (capConf s).mode = 2 ∧ (capConf s).port = port ∧ (capConf s).session = sid then capShutdown 2 s else s

/-- Remaining time of the capture's shutdown in us (R140). -/
def capLeft (s : State) : Nat := max 1 (ceilDiv (s.cap.bound - s.time.raw) 1000)

/-- A CAPTURE node of a stage writes its inputs (R484): foreign writes, and writes beyond the traces, are counted. -/
def capWrite (stage : Nat) (frame : U32) (node first : Nat) (vals : List U32) (s : State) : State :=
  let k := capConf s
  if !(s.cap.st == .armed || s.cap.st == .triggered || s.cap.st == .streaming || s.cap.st == .shuttingDown) then s
  else
    let ok := (vals.zipIdx).filter (fun p => decide (stage = k.stage) && decide (first + p.2 < k.nTraces))
    updCap (fun c => { c with foreign := c.foreign + BitVec.ofNat 32 (vals.length - ok.length)
                              writes := c.writes ++ ok.map (fun p => (frame, first + p.2, node, p.1)) }) s

/-- A frame of the pacing stage has committed: its row is due once its CAPTURE instances have ended (R485). Arming applies from the
frame after the one then in progress (CAP_ARM). -/
def capCommit (stage : Nat) (frame : U32) (reload : Nat) (s : State) : State :=
  let after := match s.cap.armedIn with | some f => decide (0 < (frame - f).toInt) | none => true
  if decide (stage = (capConf s).stage) && (s.cap.st == .armed || s.cap.st == .triggered || s.cap.st == .streaming) && after then
    updCap (fun c => { c with frames := c.frames ++ [(frame, reload)], armedIn := none }) s
  else s

/-- A stage enters ENABLED: the rows of a capture that it paces end when it leaves that state (R491). -/
def capStageEnabled (stage : Nat) (s : State) : State :=
  if stage = (capConf s).stage then updCap (fun c => { c with paced := true }) s else s

/-- The pacing stage starts: its frames count from 0 again, so the schedule of rows begins anew, with GAP set in the first block. -/
def capStageStarts (stage : Nat) (s : State) : State :=
  if stage = (capConf s).stage then updCap (fun c => { c with armedIn := none, first := none, gap := c.rows != 0 }) s else s

/-- A measured dead time of dt_channel (R488). -/
def capDead (rising : Bool) (ns : Nat) (s : State) : State :=
  let least (o : Option Nat) : Option Nat := some (min (min ns 1023) (o.getD 1023))
  updCap (fun c => if rising then { c with dtRise := least c.dtRise } else { c with dtFall := least c.dtFall }) s

end Sys2Proof.Machine
end

