-- ==== Sys2Proof/Machine/Ops.lean ====
section
/-! DEFINITION. Shared operations: events, replies, long operations and the course of a request. -/

namespace Sys2Proof.Machine

open Sys2Proof

/-! ### Events (R85 to R88) -/

/-- The log entry of code and source that an occurrence would merge into: the newest such entry (R86; log 124). -/
def findMerge (s : State) (code : U16) (same : LogEntry → Bool) : Option Nat :=
  match s.evt.entries.reverse.findIdx? (fun e => e.code == code && same e) with
  | some i => some (s.evt.entries.length - 1 - i)
  | none => none

/-- Post an event: a new log entry, and a trigger for a capture term on this event (R489). -/
def post (code : U16) (source : Nat) (data : Bytes) (s : State) : State := capEvent code source data (logEvent code source data s)

/-- Post an event under a merging rule (R86): into the unacknowledged entry that `same` accepts, whose repeat count
saturates and whose data become `comb` of the old and the new; else as a new entry. -/
def postMergeWith (code : U16) (source : Nat) (data : Bytes) (same : LogEntry → Bool) (comb : Bytes → Bytes → Bytes)
    (s : State) : State :=
  match findMerge s code same with
  | some i =>
    capEvent code source data { s with evt := { s.evt with entries := upd s.evt.entries i (fun e =>
        { e with rept := satInc e.rept, data := comb e.data (eventData data) }) } }
  | none => post code source data s

/-- Post an event that merges with an unacknowledged entry of the same source. -/
def postMerge (code : U16) (source : Nat) (data : Bytes) (s : State) : State :=
  postMergeWith code source data (fun e => e.source == BitVec.ofNat 8 source) (fun _ n => n) s

/-- Unacknowledged events exist (EVENTS_PENDING, R51). -/
def eventsPending (s : State) : Bool := !s.evt.entries.isEmpty

/-! ### Codes -/

/-- Device state codes (R77). -/
def devCode : DevState → Nat
  | .boot => 0 | .config => 1 | .ready => 2 | .run => 3 | .safe => 4

/-- Lifecycle state codes (R544). -/
def lcCode : Lifecycle → Nat
  | .blank => 1 | .develop => 2 | .production => 3 | .commissioned => 4 | .returned => 5 | .ended => 6

def OK : U16 := 0x0000#16
def ACCEPTED : U16 := 0x0001#16
def DEFERRED : U16 := 0x0002#16
def E_OPCODE : U16 := 0x0100#16
def E_LENGTH : U16 := 0x0101#16
def E_CRC : U16 := 0x0102#16
def E_PARAM : U16 := 0x0103#16
def E_STATE : U16 := 0x0104#16
def E_LIFECYCLE : U16 := 0x0105#16
def E_LOCKED : U16 := 0x0106#16
def E_AUTH : U16 := 0x0107#16
def E_RESOURCE : U16 := 0x0108#16
def E_SHUTTING_DOWN : U16 := 0x0109#16
def E_TOO_LATE : U16 := 0x010A#16
def E_QUEUE_FULL : U16 := 0x010B#16
def E_NOT_READY : U16 := 0x010C#16
def E_SEALED : U16 := 0x010D#16
def E_VERIFY : U16 := 0x010E#16
def E_BUSY : U16 := 0x010F#16

/-- A status of 0x0100 or above is an error (R57). -/
def isError (st : U16) : Bool := decide (st.toNat ≥ 0x100)

/-- Move the device to another state, posting STATE_CHANGE (R78, event 0x0106). -/
def setDev (d : DevState) (opcode : Nat) (s : State) : State :=
  if s.sys.dev = d then s else
    post 0x0106#16 0 (n8 (devCode s.sys.dev) ++ n8 (devCode d) ++ n16 opcode) { s with sys := { s.sys with dev := d } }

/-! ### Requests (R50) -/

def reqFlags (r : Req) : Byte := byteAt r.bytes 1
def reqOpcode (r : Req) : U16 := u16At r.bytes 2
def reqTag (r : Req) : Byte := byteAt r.bytes 4
def reqLength (r : Req) : Nat := n16At r.bytes 6
/-- The parameter bytes that the length field announces. -/
def reqParams (r : Req) : Bytes := (r.bytes.drop 8).take (reqLength r)
/-- The opcode class. -/
def opClass (op : U16) : Nat := op.toNat / 256
def reqOnDone (r : Req) : Bool := (reqFlags r).getLsbD 0
def reqNoReply (r : Req) : Bool := (reqFlags r).getLsbD 1
def reqAuth (r : Req) : Bool := (reqFlags r).getLsbD 2

/-- What a request's later completion reply needs (R59). -/
def owedOf (r : Req) : Owed :=
  { opcode := reqOpcode r, tag := reqTag r, via := r.via, onDone := reqOnDone r, srcIp := r.srcIp, srcPort := r.srcPort }

/-! ### The OTP's settings blocks (R540, R541) -/

/-- The 256 bytes of slot g of settings block b (R540). -/
def otpSlot (s : State) (b g : Nat) : Bytes := memReadBytes s.rel.otp (8 * (128 * b + 32 * g)) 256

/-- A slot is valid: not all zero, its check value in bytes 252 to 255 (R541). -/
def slotValid (b : Nat) (x : Bytes) : Bool :=
  x.any (· != 0) && u32At x 252 == (if b = 2 then crc32 (x.take 252) else crc32c (x.take 252))

/-- The newest valid generation of a block and its bytes. -/
def newestGen (s : State) (b : Nat) : Option (Nat × Bytes) :=
  (([3, 2, 1, 0] : List Nat).map (fun g => (g, otpSlot s b g))).find? (fun p => slotValid b p.2)

/-- The lowest slot of a block that is all zero (R541). -/
def freeSlot (s : State) (b : Nat) : Option Nat :=
  ([0, 1, 2, 3] : List Nat).find? (fun g => (otpSlot s b g).all (· == 0))

/-- The bytes of a block: its newest valid generation, else zeros. -/
def blockBytes (s : State) (b : Nat) : Bytes :=
  match newestGen s b with
  | some p => p.2
  | none => zeros 256

/-- K_CMD, if block 0 holds one (R68, R541). -/
def kCmd (s : State) : Option Bytes :=
  match newestGen s 0 with
  | some p => some (slice p.2 0 32)
  | none => none

/-! ### UDP sessions (R67 to R75) -/

/-- The session of an identifier on a port. -/
def findSession (s : State) (port : Nat) (sid : U32) : Option Session :=
  s.udp.sessions.find? (fun x => decide (x.port = port) && x.sid == sid)

/-- Change the sessions of an identifier on a port. -/
def updSession (port : Nat) (sid : U32) (f : Session → Session) (s : State) : State :=
  { s with udp := { s.udp with sessions := s.udp.sessions.map (fun x => if x.port = port ∧ x.sid = sid then f x else x) } }

/-- Put a frame on an Ethernet port's wire. Nothing leaves a port that is disabled or has no link; a frame that finds the
island's clock stopped is lost and counted (R149, R461). -/
def ethPut (port : Nat) (f : EthPort → SentFrame) (s : State) : State :=
  match s.eth[port]? with
  | none => s
  | some e =>
    if !(e.enable && e.link) then s
    else if s.time.onFallback.getD 4 true then { s with eth := upd s.eth port (fun p => { p with txLost := p.txLost + 1 }) }
    else
      { s with eth := upd s.eth port (fun p => { p with txFrames := p.txFrames + 1 })
               udp := { s.udp with sent := s.udp.sent ++ [f e] } }

/-- The 802.1Q tag of a port's frames other than PTP: with a VID configured, that VID and the PCP (R459). -/
def portTag (e : EthPort) : Option (Nat × Nat) := if e.vid = 0 then none else some (e.vid, e.pcp)
/-- The first hop of a sent packet: its destination, or the gateway when that lies outside the netmask (R460). Without a
gateway it is the destination (log 167). -/
def nextHop (e : EthPort) (dst : U32) : U32 := if dst &&& e.netmask = e.ipv4 &&& e.netmask ∨ e.gateway = 0 then dst else e.gateway
/-- Send an IPv4 packet to a destination. -/
def ethSend (port : Nat) (dst : U32) (body : Bytes) (s : State) : State :=
  ethPut port (fun e => { port := port, tag := portTag e, hop := some (nextHop e dst), body := body }) s

/-- The first 8 bytes of the CMAC of a message (R67). -/
def cmac8 (key msg : Bytes) : Bytes := (aesCmac key msg).take 8

/-- The 16-byte CMAC of a message, used for K_S (R68). -/
def cmac16 (key msg : Bytes) : Bytes := aesCmac key msg

/-- Close a session (R70): event 0x010A with the reason; requests it still has waiting are dropped with it, and
completion replies owed to it are discarded when they would be formed (event 0x0109). -/
def closeSession (port : Nat) (sid : U32) (reason : Nat) (s : State) : State :=
  match findSession s port sid with
  | none => s
  | some _ =>
    capSessionClosed port sid <| post 0x010A#16 (port + 1) (le32 sid ++ n8 reason)
      { s with udp := { s.udp with sessions := s.udp.sessions.filter (fun x => !(decide (x.port = port) && x.sid == sid))
                                   queue := s.udp.queue.filter (fun r => !(r.via == Transport.udp port sid)) } }

/-- Close every session of a port. -/
def closePortSessions (port : Nat) (reason : Nat) (s : State) : State :=
  (s.udp.sessions.filter (fun x => x.port = port)).foldl (fun s x => closeSession port x.sid reason s) s

/-- A UDP reply datagram as sent (R67, R74): destination, then session, sequence, packet and CMAC. -/
def udpFrame (ip : U32) (port : U16) (sid seq : U32) (key packet : Bytes) : Bytes :=
  let body := le32 sid ++ le32 seq ++ packet
  le32 ip ++ le16 port ++ body ++ cmac8 key body

/-! ### Replies (R51 to R54, R64) -/

/-- The bytes of a reply packet (R51). -/
def replyBytes (s : State) (completion udp : Bool) (opcode : U16) (tag : Byte) (status : U16) (payload : Bytes) : Bytes :=
  let fl := flag completion 0 + flag (s.sys.lifecycle == .develop) 1 + flag udp 2 + flag (eventsPending s) 3
  let body := [0x5C#8] ++ n8 fl ++ le16 opcode ++ [tag, 0] ++ le16 status ++ le32 s.img.epoch ++ n16 payload.length ++ payload
  body ++ le32 (crc32c body)

/-- The replies in the queue that are not the reserved entry (R47). -/
def repliesHeld (s : State) : Nat := (s.cmd.replies.filter (fun q => !q.reserved)).length

/-- Waiting completion replies enter the queue while it has room (R64). -/
def admitWaiting (s : State) : State :=
  match s.cmd.waiting with
  | [] => s
  | q :: t => if repliesHeld s < 16 then { s with cmd := { s.cmd with replies := s.cmd.replies ++ [q], waiting := t } } else s

/-- A reply enters the command port's queue, or waits if the queue holds 16 (R64). -/
def enqueueReply (q : QReply) (s : State) : State :=
  if s.cmd.waiting.isEmpty ∧ repliesHeld s < 16 then { s with cmd := { s.cmd with replies := s.cmd.replies ++ [q] } }
  else { s with cmd := { s.cmd with waiting := s.cmd.waiting ++ [q] } }

/-- Form a reply and give it to its transport; an error status counts (SYS_STATUS). -/
def sendReply (completion : Bool) (via : Transport) (ip : U32) (port : U16) (opcode : U16) (tag : Byte) (status : U16)
    (payload : Bytes) (s : State) : State :=
  let s := if isError status then { s with sys := { s.sys with errors := s.sys.errors + 1 } } else s
  match via with
  | .cmd => enqueueReply { bytes := replyBytes s completion false opcode tag status payload, completion := completion, reserved := false } s
  | .udp p sid =>
    if sid = 0 then
      match kCmd s with
      | some k => ethSend p ip (udpFrame ip port 0 0 k (replyBytes s completion true opcode tag status payload)) s
      | none => s
    else
    match findSession s p sid with
    | none => if completion then post 0x0109#16 (p + 1) (le32 sid ++ le16 opcode ++ [tag]) s else s
    | some x =>
      let s1 := ethSend p ip (udpFrame ip port sid x.txSeq x.key (replyBytes s completion true opcode tag status payload)) s
      let s2 := updSession p sid (fun y => { y with txSeq := y.txSeq + 1 }) s1
      if x.txSeq = 0xFFFFFFFE#32 then closeSession p sid 1 s2 else s2

/-- The immediate reply to a request, under the suppression of R53. -/
def replyTo (r : Req) (status : U16) (payload : Bytes) (s : State) : State :=
  if reqNoReply r && !isError status then s
  else sendReply false r.via r.srcIp r.srcPort (reqOpcode r) (reqTag r) status payload s

/-- The completion reply owed to a request (R53, R59), or the event of R60 for an error nobody asked to hear of. -/
def settle (o : Owed) (status : U16) (payload : Bytes) (s : State) : State :=
  if o.onDone then sendReply true o.via o.srcIp o.srcPort o.opcode o.tag status payload s
  else if isError status then
    post 0x0108#16 (match o.via with | .cmd => 0 | .udp p _ => p + 1) (le16 o.opcode ++ [o.tag, 0] ++ le16 status) s
  else s

/-- Completion of a queued start, a long operation as well (R58, R136, R138); none for a start that owes no reply. -/
def settleStart (o : Option Owed) (status : U16) (payload : Bytes) (s : State) : State :=
  match o with
  | some o => settle o status payload s
  | none => s

/-! ### Long operations (R58 to R63) -/

/-- Long operations pending in a class (R61). -/
def longCount (s : State) (cls : Nat) : Nat := (s.sys.longs.filter (fun l => opClass l.owed.opcode = cls)).length

/-- The class of an opcode has no room for another long operation (R61). -/
def classFull (s : State) (op : U16) : Bool := decide (longCount s (opClass op) ≥ 4)

/-- A long operation of an opcode is pending. -/
def longPending (s : State) (op : U16) : Bool := s.sys.longs.any (fun l => l.owed.opcode == op && l.result.isNone)

/-- A long operation of an opcode and key is pending. -/
def longPendingKey (s : State) (op : U16) (key : Nat) : Bool :=
  s.sys.longs.any (fun l => l.owed.opcode == op && decide (l.key = key) && l.result.isNone)

/-- Deliver the results at the head of a class, in order of acceptance (R63). -/
def flushClass (cls : Nat) : Nat → State → State
  | 0, s => s
  | n + 1, s =>
    match s.sys.longs.find? (fun l => opClass l.owed.opcode = cls) with
    | none => s
    | some l =>
      match l.result with
      | none => s
      | some (st, pl) => flushClass cls n (settle l.owed st pl { s with sys := { s.sys with longs := s.sys.longs.erase l } })

/-- The oldest pending long operation of an opcode and key ends with a result (R59, R63). -/
def endLong (op : U16) (key : Nat) (status : U16) (payload : Bytes) (s : State) : State :=
  match s.sys.longs.findIdx? (fun l => l.owed.opcode == op && decide (l.key = key) && l.result.isNone) with
  | none => s
  | some i =>
    flushClass (opClass op) 4 { s with sys := { s.sys with longs := upd s.sys.longs i (fun l => { l with result := some (status, payload) }) } }

/-! ### Signals of the command port -/

/-- Level of BUSY (R47, R49). -/
def busyLevel (s : State) : Bool := !s.cmd.isOpen || decide ((s.cmd.requests.filter (fun r => r.refusal.isNone)).length ≥ 4)

/-- The event passes the mask (R91). -/
def drivesAttn (s : State) (e : LogEntry) : Bool :=
  let c := opClass e.code
  decide (1 ≤ c) && decide (c ≤ 15) && s.evt.mask.getLsbD c && !(s.evt.excl.contains e.code)

/-- ATTN_N is low (R66); it is high until the port opens (R49). -/
def attnLow (s : State) : Bool :=
  s.cmd.isOpen && (s.evt.entries.any (drivesAttn s) || (s.evt.mask.getLsbD 0 && s.cmd.replies.any (fun q => q.completion)))

/-- The port status byte (R44). -/
def portStatus (s : State) : Byte :=
  BitVec.ofNat 8 (0x80 + flag (s.sys.lifecycle == .develop) 3 + flag (attnLow s) 2 + flag (busyLevel s) 1 + flag (!s.cmd.replies.isEmpty) 0)

/-! ### Carrying out a request (R55) -/

/-- What a card answers. -/
inductive CardResult where
  | reject (status : U16) (payload : Bytes)   -- an error; no part is carried out
  | done (s : State) (payload : Bytes)        -- OK
  | failed (s : State) (status : U16) (payload : Bytes) -- an error that is the outcome of carrying the operation out
  | long (s : State) (key : Nat) (payload : Bytes)  -- ACCEPTED: a long operation begins
  | deferred (s : State) (position : Nat)     -- DEFERRED under the start governor (R135)
  | doneThen (s : State) (payload : Bytes) (after : State → State) -- OK, with an effect that follows the reply
  | later (s : State)                         -- accepted; the immediate reply is formed by a later event

/-- An error without payload. -/
def rejectWith (st : U16) : CardResult := .reject st []

/-- E_SHUTTING_DOWN with the remaining time (R56, R140): an upper bound in us, 1 once the bound has passed. -/
def shuttingDown (us : Nat) : CardResult := .reject E_SHUTTING_DOWN (n32 (max us 1))

/-- The assigned opcodes (R82). -/
def assigned (op : U16) : Bool :=
  let n := op.toNat
  let c := n / 256
  let l := n % 256
  match c with
  | 0x01 => l ≤ 4 || (0x10 ≤ l && l ≤ 0x12)
  | 0x02 => l ≤ 3
  | 0x03 => l ≤ 3 || l == 0x10 || l == 0x11
  | 0x04 => l ≤ 5
  | 0x05 => l ≤ 2
  | 0x06 => l ≤ 5
  | 0x07 => l ≤ 3
  | 0x08 => l ≤ 4
  | 0x09 => l ≤ 2
  | 0x0A => l ≤ 4
  | 0x0B => l ≤ 2
  | 0x0C => l ≤ 5
  | 0x0D => l ≤ 3
  | 0x0E => l ≤ 5
  | 0x0F => l ≤ 5
  | _ => false

/-- Classes and opcodes admitted in BOOT (R80). -/
def admittedBoot (op : U16) : Bool := op == 0x0100#16 || op == 0x0101#16 || op == 0x0102#16 || op == 0x0F03#16

/-- R55 steps 1 to 4, and 5 and 6 for class 0x7F (R81); session 0 carries nothing but a session open (R68). Steps 5 and
6 of other opcodes stand with their cards. The answer is none when the checks pass. -/
def headerCheck (s : State) (r : Req) : Option U16 :=
  let n := r.bytes.length
  if r.refusal.isSome then r.refusal
  else if crc32c (r.bytes.take (n - 4)) ≠ u32At r.bytes (n - 4) then some E_CRC
  else if reqLength r > 1024 ∨ n ≠ 12 + reqLength r then some E_LENGTH
  else if byteAt r.bytes 5 ≠ 0 ∨ (reqFlags r).extractLsb' 3 5 ≠ 0 then some E_PARAM
  else if opClass (reqOpcode r) = 0x7F then
    if s.sys.lifecycle = .production ∨ s.sys.lifecycle = .commissioned ∨ s.sys.lifecycle = .ended then some E_LIFECYCLE
    else if !s.sys.vendorOpen then some E_AUTH else none
  else if !assigned (reqOpcode r) then some E_OPCODE
  else if reqAuth r ≠ (match r.via with | .cmd => false | .udp _ _ => true) then some E_AUTH
  else if (reqOpcode r == 0x0311#16) != (match r.via with | .udp _ sid => sid == 0 | .cmd => false) then some E_AUTH
  else none

/-- A card: the refusals of R55 steps 5 and 6 that belong to it, then steps 7 to 14 and the effect. -/
structure Card where
  lifecycle : State → Req → Bool      -- step 5: allowed in the present lifecycle state
  allowed   : DevState → Bool         -- step 6: allowed in the present device state
  run       : State → Req → CardResult

/-- The device states of a card: CONFIG, READY, RUN, SAFE. -/
def inAll4 : DevState → Bool
  | .boot => false
  | _ => true

/-- The oldest request in the queue of a transport. -/
def frontRequest (s : State) (via : Transport) : Option Req :=
  match via with
  | .cmd => s.cmd.requests.head?
  | .udp _ _ => s.udp.queue.find? (fun r => r.via == via)

/-- A request taken earlier from a transport has yet to be carried out and answered (an SNS_ACC_READ before its latch,
an SNS_URGENT before its reply): the transport's next request waits for it (R62, R65). -/
def awaitsReply (s : State) (via : Transport) : Bool :=
  s.sense.accRead.any (fun w => w.req.via == via) || s.sense.urgents.any (fun w => w.req.via == via)

/-- The housekeeping pair holds a request of another transport for the full parameter queue (R261). -/
def pairHeld (s : State) (via : Transport) : Bool :=
  match s.cmd.held with
  | none => false
  | some v => v != via && (frontRequest s v).isSome

/-- The request that a transport's next turn takes: the oldest of its queue, once every earlier one of the transport is
answered (R65) and the pair holds none (R261); on the command port only while the reply queue has room for the waiting
completion replies and for its own reply (R47). -/
def nextRequest (s : State) (via : Transport) : Option Req :=
  if awaitsReply s via || pairHeld s via then none
  else
    match via with
    | .cmd => if repliesHeld s + s.cmd.waiting.length < 16 then frontRequest s .cmd else none
    | .udp p sid => frontRequest s (.udp p sid)

/-- A session has one request fewer that waits for its immediate reply (R75). -/
def oweLess (via : Transport) (s : State) : State :=
  match via with
  | .cmd => s
  | .udp p sid => updSession p sid (fun x => { x with owing := x.owing - 1 }) s

/-- A request taken from a session still waits for its immediate reply (R75). -/
def oweMore (via : Transport) (s : State) : State :=
  match via with
  | .cmd => s
  | .udp p sid => updSession p sid (fun x => { x with owing := x.owing + 1 }) s

/-- Take the oldest request from its queue; a held request is held no longer (R261). -/
def dropRequest (s : State) (via : Transport) : State :=
  let s1 := { s with cmd := { s.cmd with held := none } }
  match via with
  | .cmd => { s1 with cmd := { s1.cmd with requests := s1.cmd.requests.drop 1 } }
  | .udp _ _ =>
    match s1.udp.queue.find? (fun r => r.via == via) with
    | none => s1
    | some r =>
      let s2 := { s1 with udp := { s1.udp with queue := s1.udp.queue.erase r } }
      if r.refusal.isSome then s2 else oweLess via s2

/-- Count a request that is carried out. -/
def countRequest (s : State) : State := { s with sys := { s.sys with requests := s.sys.requests + 1 } }

/-- Answer a card's result. -/
def answer (r : Req) (s : State) : CardResult → State
  | .reject st pl => replyTo r st pl s
  | .done t pl => replyTo r OK pl t
  | .failed t st pl => replyTo r st pl t
  | .long t key pl =>
    replyTo r ACCEPTED pl { t with sys := { t.sys with longs := t.sys.longs ++ [{ owed := owedOf r, key := key, result := none }] } }
  | .deferred t pos => replyTo r DEFERRED (n16 pos) t
  | .doneThen t pl f => f (replyTo r OK pl t)
  | .later t => oweMore r.via t

/-- Answer the refused packets that stand at the front of a transport, in their turn (R45, R62, R75). -/
def flushRefused (via : Transport) : Nat → State → State
  | 0, s => s
  | n + 1, s =>
    match nextRequest s via with
    | none => s
    | some r =>
      match r.refusal with
      | none => s
      | some st => flushRefused via n (replyTo r st [] (dropRequest s via))

/-- Answer every refused packet whose turn has come on a transport. -/
def flushTurn (via : Transport) (s : State) : State := flushRefused via (s.cmd.requests.length + s.udp.queue.length) s

/-- The immediate reply of a request that was taken earlier (R62, R75). -/
def replyLater (r : Req) (status : U16) (payload : Bytes) (s : State) : State :=
  flushTurn r.via (replyTo r status payload (oweLess r.via s))

/-- Carry out a request taken from its queue (R55, R58): R55 steps 1 to 6, then the card. -/
def carryOut (card : Card) (r : Req) (s0 : State) : State :=
  match headerCheck s0 r with
  | some st => replyTo r st [] s0
  | none =>
    if !card.lifecycle s0 r then replyTo r E_LIFECYCLE [] s0
    else if !card.allowed s0.sys.dev then replyTo r E_STATE [] s0
    else
      match card.run (countRequest s0) r with
      | .reject st pl => answer r s0 (.reject st pl)
      | x => answer r s0 x

/-- Carry out the waiting request of a transport if it is one of this row, then answer the refused packets behind it.
The request does not occur where the queue is empty, its reply has no room, or it belongs to another row. -/
def runCard (mine : Req → Bool) (card : Card) (via : Transport) (s : State) : State :=
  match nextRequest s via with
  | none => s
  | some r =>
    if !mine r then s else flushTurn r.via (carryOut card r (dropRequest s via))

/-- The opcode of a request is this one. -/
def isOp (op : U16) (r : Req) : Bool := reqOpcode r == op

end Sys2Proof.Machine
end

