-- ==== Sys2Proof/Machine/OpsSafe.lean ====
section
/-! DEFINITION. The committed safety parameter block as the safety functions and the field die read it (R412), and the
outputs' commands (R430 to R433). -/

namespace Sys2Proof.Machine

open Sys2Proof

/-! ### The parameter block (R412) -/

def sf2On (b : Bytes) : Bool := (u16At b 6).getLsbD 0
def sf3On (b : Bytes) : Bool := (u16At b 6).getLsbD 1
def sf5On (b : Bytes) : Bool := (u16At b 6).getLsbD 2
def splitPhase (b : Bytes) : Bool := (u16At b 6).getLsbD 3

/-- A contactor entry: its number, output, feedback input, whether feedback is high when closed, open_delay in ms. -/
structure Contactor where
  k       : Nat
  output  : Nat
  input   : Nat
  highClosed : Bool
  delay   : Nat

/-- The enabled contactor entries of a block. -/
def blockContactors (b : Bytes) : List Contactor :=
  (List.range 4).filterMap (fun k =>
    let o := 0x18 + 4 * k
    if (byteAt b (o + 2)).getLsbD 0 then
      some { k := k, output := n8At b o, input := n8At b (o + 1), highClosed := (byteAt b (o + 2)).getLsbD 1, delay := n8At b (o + 3) }
    else none)

/-- The committed block's contactors. -/
def contactors (s : State) : List Contactor := match s.safe.block with | some b => blockContactors b | none => []
/-- The committed block names the output (R433, R434). -/
def namedOutput (s : State) (o : Nat) : Bool := (contactors s).any (fun c => decide (c.output = o))
/-- Each test-pulsed input of a block with its source and debounce time in ns (R401, R402). -/
def pulsedInputs (b : Bytes) : List (Nat × Nat × Nat) :=
  (if sf2On b then [(n8At b 0x0C, n8At b 0x0E, 1000 * n16At b 0x10), (n8At b 0x0D, n8At b 0x0F, 1000 * n16At b 0x10)] else [])
    ++ (if sf3On b then [(n8At b 0x14, n8At b 0x15, 1000 * n16At b 0x16)] else [])
/-- set_input of a block, if it names one. -/
def setInput (b : Bytes) : Option Nat := if n8At b 0x2A = 0xFF then none else some (n8At b 0x2A)
/-- The inputs debounced with fb_debounce (R406, R410). -/
def feedbackInputs (b : Bytes) : List Nat := (blockContactors b).map (·.input) ++ (setInput b).toList
/-- The debounce time of an input in ns; none for an input the block does not name. -/
def safeDebounce (b : Bytes) (n : Nat) : Option Nat :=
  match (pulsedInputs b).find? (fun p => p.1 = n) with
  | some p => some p.2.2
  | none => if (feedbackInputs b).contains n then some (1000 * n16At b 0x28) else none

/-- Trip element i of a set (R409): quantity, under, time in ms, threshold. -/
structure TripElem where
  quantity : Nat
  under    : Bool
  time     : Nat
  thr      : F32
def tripElem (b : Bytes) (island : Bool) (i : Nat) : TripElem :=
  let o := (if island then 0x90 else 0x50) + 8 * i
  { quantity := n8At b o, under := decide (n8At b (o + 1) = 1), time := n16At b (o + 2), thr := u32At b (o + 4) }

/-- Its values lie in their ranges (R412). -/
def tripElemOk (e : TripElem) (dir : Nat) : Bool :=
  decide (e.quantity ≤ 5) && decide (dir ≤ 1) && (decide (e.quantity ≠ 4 ∧ e.quantity ≠ 5) || decide (dir = 0))
    && decide (e.time ≤ 65000) && !f32Bad e.thr

/-- A block is within R412. An input serves one function only; the contactor entries are one function, and SF2's two
inputs are two (R397; log 165). -/
def safeBlockOk (b : Bytes) : Bool :=
  let within (v lo hi : Nat) : Bool := decide (lo ≤ v) && decide (v ≤ hi)
  let cs := List.range 4
  let used := (pulsedInputs b).map (·.1) ++ ((blockContactors b).map (·.input)).eraseDups ++ (setInput b).toList
  decide (b.length = 252) && u32At b 0 == 0x50535A4F#32 && u16At b 4 == 1#16 && decide (n16At b 6 < 16)
    && within (n8At b 0x0C) 0 15 && within (n8At b 0x0D) 0 15 && within (n8At b 0x0E) 0 3 && within (n8At b 0x0F) 0 3 && decide (n8At b 0x0E ≠ n8At b 0x0F)
    && within (n16At b 0x10) 10 65000 && within (n16At b 0x12) 10 500 && within (n8At b 0x14) 0 15 && within (n8At b 0x15) 0 3 && within (n16At b 0x16) 10 65000
    && cs.all (fun k => let o := 0x18 + 4 * k; within (n8At b o) 0 7 && within (n8At b (o + 1)) 0 15 && within (n8At b (o + 2)) 0 3 && within (n8At b (o + 3)) 0 100)
    && within (n16At b 0x28) 10 65000 && (within (n8At b 0x2A) 0 15 || decide (n8At b 0x2A = 0xFF)) && zeroAt b 0x2B 1
    && (decide (n16At b 0x2C = 50) || decide (n16At b 0x2C = 60)) && within (n16At b 0x2E) 0 600 && f32In (u32At b 0x30) 50 400
    && [0, 1, 2].all (fun i => within (n8At b (0x34 + i)) 0 79) && (!(splitPhase b) || decide (n8At b 0x36 = 0)) && zeroAt b 0x37 1
    && [0, 1, 2].all (fun i => (let x := u32At b (0x38 + 4 * i); !f32Bad x && decide (1 ≤ ratAbs (f32Val x)) && decide (ratAbs (f32Val x) ≤ 10000)))
    && [0, 1, 2].all (fun i => f32In (u32At b (0x44 + 4 * i)) (-1 / 10) (1 / 10))
    && [false, true].all (fun isl => (List.range 8).all (fun i => tripElemOk (tripElem b isl i) (n8At b ((if isl then 0x90 else 0x50) + 8 * i + 1))))
    && zeroAt b 0xD0 44 && used.eraseDups.length == used.length

/-! ### Permits (R396, R405) -/

def updProc (f : SafeChan → SafeChan) (s : State) : State := { s with safe := { s.safe with proc := f s.safe.proc } }
def updSorrel (f : SafeChan → SafeChan) (s : State) : State := { s with safe := { s.safe with sorrel := f s.safe.sorrel } }
/-- Both channels' views. -/
def updBoth (f : SafeChan → SafeChan) (s : State) : State := updSorrel f (updProc f s)

/-- Each channel sets the permits of the committed block's contactors, in RUN (R405). -/
def grantPermits (s : State) : State :=
  let m := (contactors s).foldl (fun m c => m ||| (1#4 <<< c.k)) 0#4
  updBoth (fun x => { x with permits := m }) s
/-- The device leaves RUN for READY, or the block is no longer committed: no permit stands. -/
def dropPermits (s : State) : State := updBoth (fun x => { x with permits := 0 }) s

/-- Permits as a mask of outputs, DO7 to DO0. -/
def permitMask (s : State) (x : SafeChan) : Byte :=
  (contactors s).foldl (fun m c => if x.permits.getLsbD c.k then m ||| (1#8 <<< c.output) else m) 0#8
/-- An output that the block names has both permits; any other output needs none (R405). -/
def permitted (s : State) (o : Nat) : Bool :=
  !namedOutput s o || ((permitMask s s.safe.proc).getLsbD o && (permitMask s s.safe.sorrel).getLsbD o)

/-! ### Output commands (R430, R432) -/

def getOutput (s : State) (o : Nat) : FieldOut := s.field.outs.getD o fieldOut0
def updOutput (o : Nat) (f : FieldOut → FieldOut) (s : State) : State := { s with field := { s.field with outs := upd s.field.outs o f } }
def getInput (s : State) (n : Nat) : FieldIn := s.field.ins.getD n fieldIn0
def updInput (n : Nat) (f : FieldIn → FieldIn) (s : State) : State := { s with field := { s.field with ins := upd s.field.ins n f } }

/-- A shutdown of an output begins, unless one runs (R430). -/
def outputStops (o : Nat) (s : State) : State :=
  { s with field := { s.field with shutting := upd s.field.shutting o (fun b => match b with | some t => some t | none => some (s.time.raw + 30000000)) } }

/-- The command of an output is taken back: its shutdown begins and its pull-in place is free (R430, R432). -/
def commandOff (o : Nat) (s : State) : State :=
  let s1 := if s.field.doCmd.getLsbD o then outputStops o s else s
  { s1 with field := { s1.field with doCmd := s1.field.doCmd &&& ~~~(1#8 <<< o) }
            gov := { s1.gov with inPullin := s1.gov.inPullin.filter (fun x => x ≠ o) } }

/-- The command of an output is given; with a pull-in time it takes a pull-in place (R432). The next
downlink frame is the first to carry it. The pull-in time is read as the die holds it (log 185). -/
def commandOn (o : Nat) (s : State) : State :=
  let place := decide ((getOutput s o).pullIn > 0) && !s.field.doCmd.getLsbD o
  { s with field := { s.field with doCmd := s.field.doCmd ||| (1#8 <<< o), onSeq := upd s.field.onSeq o (fun q => if s.field.doCmd.getLsbD o then q else s.field.seq + 1) }
           gov := { s.gov with inPullin := if place then s.gov.inPullin ++ [o] else s.gov.inPullin } }

/-- Places of pull-in that have come free go to the waiting outputs in order (R134, R136). -/
def servePullin : Nat → State → State
  | 0, s => s
  | n + 1, s =>
    match s.gov.pullin with
    | [] => s
    | e :: t => if s.gov.inPullin.length < 2 then servePullin n (settleStart e.owed OK [] (commandOn e.unit { s with gov := { s.gov with pullin := t } })) else s

end Sys2Proof.Machine
end

