-- ==== Sys2Proof/Machine/OpsStage.lean ====
section
/-! DEFINITION. Shared operations on stages, gate channels, the start governor and the safe state. -/

namespace Sys2Proof.Machine

open Sys2Proof

/-! ### Access by index -/

def getGroup (s : State) (n : Nat) : Group := s.pwm.groups.getD n group0
def getChan (s : State) (n : Nat) : Channel := s.pwm.channels.getD n channel0
def getUnit (s : State) (n : Nat) : CompareUnit := s.pwm.units.getD n unit0
def getHb (s : State) (n : Nat) : HalfBridge := s.pwm.hbs.getD n hb0
def getCmp (s : State) (n : Nat) : Comparator := s.pwm.cmps.getD n cmp0
def getFoc (s : State) (n : Nat) : FastDet := s.pwm.focs.getD n foc0
def getFlt (s : State) (n : Nat) : FltInput := s.pwm.flts.getD n flt0
def getEngine (s : State) (n : Nat) : Engine := s.loop.engines.getD n engine0

def updStage (n : Nat) (f : Stage → Stage) (s : State) : State := { s with loop := { s.loop with stages := upd s.loop.stages n f } }
def updTimer (n : Nat) (f : Timer → Timer) (s : State) : State := { s with pwm := { s.pwm with timers := upd s.pwm.timers n f } }
def updGroup (n : Nat) (f : Group → Group) (s : State) : State := { s with pwm := { s.pwm with groups := upd s.pwm.groups n f } }
def updChan (n : Nat) (f : Channel → Channel) (s : State) : State := { s with pwm := { s.pwm with channels := upd s.pwm.channels n f } }
def updUnit (n : Nat) (f : CompareUnit → CompareUnit) (s : State) : State := { s with pwm := { s.pwm with units := upd s.pwm.units n f } }
def updHb (n : Nat) (f : HalfBridge → HalfBridge) (s : State) : State := { s with pwm := { s.pwm with hbs := upd s.pwm.hbs n f } }
def updCmp (n : Nat) (f : Comparator → Comparator) (s : State) : State := { s with pwm := { s.pwm with cmps := upd s.pwm.cmps n f } }
def updFoc (n : Nat) (f : FastDet → FastDet) (s : State) : State := { s with pwm := { s.pwm with focs := upd s.pwm.focs n f } }
def updFlt (n : Nat) (f : FltInput → FltInput) (s : State) : State := { s with pwm := { s.pwm with flts := upd s.pwm.flts n f } }
def updEngine (n : Nat) (f : Engine → Engine) (s : State) : State := { s with loop := { s.loop with engines := upd s.loop.engines n f } }

/-- Do something for every index below n, in rising order. -/
def forEach (l : List Nat) (f : Nat → State → State) (s : State) : State := l.foldl (fun s i => f i s) s

/-! ### Codes and relations -/

/-- Stage state codes (R361). -/
def stageCode : StageState → Nat
  | .off => 0 | .starting => 1 | .enabled => 2 | .shuttingDown => 3 | .lockedOut => 4

/-- A stage is OFF. -/
def stageOff (s : State) (n : Nat) : Bool := (getStage s n).st == .off

/-- The timer of a channel: of its group, a follower's being its lead's (R348). -/
def chanGroup (s : State) (c : Nat) : Nat :=
  let x := getChan s c
  if x.role = 2 then (match x.partner with | some l => (getChan s l).group | none => x.group) else x.group
def chanTimer (s : State) (c : Nat) : Option Nat := if (getChan s c).role = 0 then none else (getGroup s (chanGroup s c)).timer
/-- The stage a channel belongs to. -/
def chanStage (s : State) (c : Nat) : Option Nat := (chanTimer s c).bind (fun t => (getTimer s t).stage)
/-- The channels of a stage, rising. -/
def stageChans (s : State) (n : Nat) : List Nat := (List.range 96).filter (fun c => chanStage s c = some n)
/-- The timers of a stage. -/
def stageTimers (s : State) (n : Nat) : List Nat := (List.range 24).filter (fun t => (getTimer s t).stage = some n)
/-- The groups of a stage. -/
def stageGroups (s : State) (n : Nat) : List Nat :=
  (List.range 32).filter (fun g => ((getGroup s g).timer.bind (fun t => (getTimer s t).stage)) = some n)
/-- The half-bridges of a stage. -/
def stageHbs (s : State) (n : Nat) : List Nat :=
  (List.range 8).filter (fun h => chanStage s (80 + 2 * h) = some n ∨ chanStage s (81 + 2 * h) = some n)
/-- The stage has channels among PWM00 to PWM79, so its start passes the driver-supply release (R134). -/
def needsRelease (s : State) (n : Nat) : Bool := (stageChans s n).any (fun c => decide (c < 80))
/-- MINPW of a lead or of a follower's lead. -/
def chanMinpw (s : State) (c : Nat) : Nat :=
  let x := getChan s c
  if x.role = 2 then (match x.partner with | some l => (getChan s l).minpw | none => 0) else x.minpw

/-- Both safety channels release the gating cells (R396). -/
def gatesPass (s : State) : Bool := s.pwm.gateProc && s.pwm.gateSorrel

/-- The channel as the PWM generator commands it, before protection (R362, R377). -/
def chanCommanded (s : State) (c : Nat) : Bool :=
  let x := getChan s c
  x.cmd && x.enabled && gatesPass s && (match chanStage s c with | some n => (getStage s n).gateOpen | none => false)

/-- The low side of a half-bridge is held on by its precharge (R382). -/
def precharging (s : State) (c : Nat) : Bool := decide (c ≥ 80) && decide (c % 2 = 1) && (getHb s ((c - 80) / 2)).preEnd.isSome && gatesPass s

/-- The gate-driver die's own latch lets the switch on (R380). -/
def dieHolds (s : State) (c : Nat) : Bool :=
  decide (c < 80) || (if c % 2 = 0 then (getHb s ((c - 80) / 2)).hsLatch.isNone else (getHb s ((c - 80) / 2)).lsLatch.isNone)

/-- The level that the PWM island drives: at the ball of PWM00 to PWM79, at the command input of the gate-driver die for
PWM80 to PWM95 (R362, R369, R376). -/
def chanLine (s : State) (c : Nat) : Bool := (precharging s c || chanCommanded s c) && (getChan s c).fault.isNone

/-- The level of a channel at its ball or gate (R362, R376, R380, R381). -/
def chanOut (s : State) (c : Nat) : Bool := chanLine s c && dieHolds s c && !(decide (c ≥ 80) && (s.pwm.vdrvShut || s.pwm.tempShut))

/-- The emitted signal of a channel ends; a disable that its minimum pulse held takes effect with it (R354, R368). -/
def emitOff (x : Channel) : Channel := { x with cmd := false, onAt := none, offHeld := false, enabled := x.enabled && !x.disabling, disabling := false }

/-! ### Compare sets, periods and frames (R21, R345, R351, R357, R360) -/

/-- The timer that a group is the period owner of. -/
def ownerOf (s : State) (g : Nat) : Option Nat := (List.range 24).find? (fun t => (getTimer s t).periodGroup = some g)

/-- The move of a group's staging set to pending, whole, in the cycle in which its commit or request completes, if that lies
before raw count `r`; an older pending set that was not taken is superseded (R357, R359, R360). -/
def moveStaged (r : Nat) (x : Group) : Group :=
  match x.staging with
  | none => x
  | some c => if c.done < r then { x with staging := none, pend := some c, superseded := if x.pend.isSome then x.superseded + 1 else x.superseded } else x
/-- A group's pending and staging sets are cleared; a staging set that had already replaced a pending one counts as superseding it
(R360, R367). -/
def clearSets (r : Nat) (x : Group) : Group := { moveStaged (r + 1) x with staging := none, pend := none }

/-- A set is written to the staging copy of a group (R357). A staging set whose move still lies ahead moves first. -/
def stageSet (g : Nat) (c : CompareSet) (s : State) : State :=
  updGroup g (fun x => { moveStaged (c.done + 1) x with staging := some c }) s

/-- The bit reversal of a four-bit pattern index (R351). -/
def rev4 (p : Nat) : Nat := (p % 2) * 8 + (p / 2 % 2) * 4 + (p / 4 % 2) * 2 + p / 8 % 2
/-- A start or period of sixteenths of 1 ns in whole ns under the fixed dither pattern (R351). -/
def dither (v p : Nat) : Nat := v / 16 + (if v % 16 > rev4 (p % 16) then 1 else 0)

/-- The divider of the frame that begins now (R20, R21). -/
def frameDiv (g : Graph) (pEff : Nat) : Nat :=
  if g.divider ≠ 0 then g.divider
  else match ((List.range 16).map (· + 1)).find? (fun d => decide (d * pEff ≥ g.minPeriod)) with | some d => d | none => 16

/-! ### Stage events and shutdown -/

/-- Sage meters from now on: a window begins, and a loaded parameter block applies from it (R507, R511); the decimators start
anew. -/
def sageOpen (x : Sage) : Sage :=
  { x with windowStart := x.ticks, lastActive := x.ticks, params := x.next.or x.params, next := none
           tails := List.replicate 8 [], bitPhase := 0, past := List.replicate 8 [] }

/-- A stage leaves OFF: Sage wakes from RETENTION and a window begins (R514). -/
def sageWake (s : State) : State :=
  if s.sage.phase != .metering then s
  else if s.sage.retention then { s with sage := { sageOpen s.sage with hostActive := true, hostEnded := false, retention := false } }
  else { s with sage := { s.sage with hostActive := true, hostEnded := false, lastActive := s.sage.ticks } }

/-- The device enters RUN or a stage leaves OFF: an instruction of the JTAG port that drives balls stays in effect no longer, the port
acts as BYPASS, and event 0x0F08 is posted (R548). -/
def jtagYield (s : State) : State :=
  match s.rel.jtag with
  | .extest | .intest | .clamp =>
    postMergeWith 0x0F08#16 0 [s.rel.jtagCode] (fun _ => true) (fun _ n => n) { s with rel := { s.rel with jtag := .bypass } }
  | _ => s

/-- A stage changes state: event 0x0800 with its cause (R374). -/
def setStage (n : Nat) (st : StageState) (cause : Nat) (s : State) : State :=
  let old := getStage s n
  if old.st = st then s else
    post 0x0800#16 n (n8 (stageCode old.st) ++ n8 (stageCode st) ++ n8 cause ++ [0] ++ le32 old.frameIndex)
      (updStage n (fun x => { x with st := st }) (if old.st = .off then jtagYield (sageWake s) else s))

/-! ### Operation slots and squash (R252, R253, R257, R273) -/

/-- A loop-island cycle in quarters of 1 ns: 1.25 ns, or 10 ns on the fallback oscillator (R18). -/
def loopCyc (s : State) : Nat := if s.time.onFallback.getD 1 true then 40 else 5
/-- Now, in the scheduler's quarters of 1 ns. -/
def qNow (s : State) : Nat := 4 * s.time.raw
/-- The instance belongs to an open frame of the list. -/
def ofFrames (n : Nat) (fs : List U32) (i : Inst) : Bool := decide (i.stage = n) && fs.contains i.frame && !i.committed
/-- The instance runs on its engine now: it has been chosen. -/
def isChosen (i : Inst) : Bool := match i.st with | .chosen _ _ => true | _ => false
/-- The instance holds an operation slot (R252). -/
def holdsSlot (i : Inst) : Bool := !i.dead && (match i.st with | .ready _ _ => true | .chosen _ _ => true | _ => false)
/-- Slots held on a logical engine of a stage. -/
def slotsHeld (s : State) (n home : Nat) : Nat := (s.loop.insts.filter (fun i => decide (i.stage = n) && decide (i.home = home) && holdsSlot i)).length
/-- An instance can take a slot: an ordinary one while at most 11 are held, a privileged one while one is free. -/
def canTake (s : State) (i : Inst) : Bool := decide (slotsHeld s i.stage i.home < (if i.priv then 16 else 12))
/-- The physical engine of a logical engine of a stage. -/
def physOf (s : State) (n home : Nat) : Nat := match (getStage s n).graph with | some g => g.phys.getD home 0xFF | none => 0xFF

/-- An entry of an engine's decrement port has been processed at an instant (R258): the next one follows, and a
completion without further entries leaves the queue. -/
def portDone (e q : Nat) (s : State) : State :=
  updEngine e (fun x => { x with portAt := q, roomAt := if x.queue.length ≥ 8 then q else x.roomAt, queue := match x.queue with
    | [] => []
    | c :: t => if c.pos + 1 ≥ c.len then t else { c with pos := c.pos + 1 } :: t }) s

/-- An instance takes a slot and is ready (R252); the stage's peak follows (R262). -/
def takeSlot (k : Nat) (i : Inst) (q due : Nat) (s : State) : State :=
  let s1 := { s with loop := { s.loop with insts := s.loop.insts.set k { i with st := .ready q due } } }
  let h := slotsHeld s1 i.stage i.home
  updStage i.stage (fun x => { x with slotsPeak := max x.slotsPeak h }) s1

/-- The waiting decrement that takes a freed slot next: due first, the lower node at the same cycle (R253). -/
def nextWaiting (s : State) (n home : Nat) : Option (Nat × Inst × Nat × Option Nat) :=
  ((s.loop.insts.zipIdx).filterMap (fun (i, k) => match i.st with
    | .noSlot d p => if i.stage = n ∧ i.home = home ∧ !i.dead ∧ canTake s i then some (k, i, d, p) else none
    | _ => none)).foldl (fun (m : Option (Nat × Inst × Nat × Option Nat)) x =>
      match m with
      | none => some x
      | some y => if x.2.2.1 < y.2.2.1 ∨ (x.2.2.1 = y.2.2.1 ∧ x.2.1.node < y.2.1.node) then some x else m) none

/-- Freed slots of a logical engine go to the waiting decrements; a port that waited goes on (R253). -/
def grantSlots (n home q : Nat) : Nat → State → State
  | 0, s => s
  | f + 1, s =>
    match nextWaiting s n home with
    | none => s
    | some (k, i, d, p) =>
      let s1 := takeSlot k i q d s
      grantSlots n home q f (match p with | some e => portDone (physOf s n e) q s1 | none => s1)

/-! ### Held dispatch (R253, R262, R263) -/

/-- An engine holds dispatch: its completion queue is full, it runs nothing, and an instance is ready. -/
def holdsDispatch (s : State) (e : Nat) : Bool :=
  let x := getEngine s e
  match x.stage with
  | none => false
  | some n =>
    let mine := s.loop.insts.filter (fun i => decide (i.stage = n) && decide (i.home = x.logical))
    decide (x.queue.length ≥ 8) && !(mine.any isChosen) && mine.any (fun i => !i.dead && (match i.st with | .ready _ _ => true | _ => false))

/-- The instant from which an engine holds dispatch: its queue full, its engine free, an instance ready. -/
def holdSince (s : State) (e : Nat) : Nat :=
  let x := getEngine s e
  let ready := s.loop.insts.filterMap (fun i => match i.st with
    | .ready a _ => if x.stage = some i.stage ∧ i.home = x.logical ∧ !i.dead then some a else none
    | _ => none)
  min (qNow s) (max (max x.freeAt (ready.foldl min (ready.headD 0))) (match x.queue.getLast? with | some c => c.at_ | none => 0))
/-- The instant up to which its hold lasted: until the queue had room, or else until now. -/
def holdUntil (s : State) (e : Nat) : Nat :=
  let x := getEngine s e
  if x.queue.length < 8 then min (qNow s) x.roomAt else qNow s
/-- The cycles of an engine's hold not yet counted (R262). -/
def heldCycles (s : State) (e : Nat) : Nat := if (getEngine s e).stallAt.isSome then (holdUntil s e - (getEngine s e).stallFrom) / loopCyc s else 0
/-- The engines of a stage. -/
def stageEngines (s : State) (n : Nat) : List Nat := (List.range 18).filter (fun e => (getEngine s e).stage = some n)
/-- port_stall_cycles of a stage as it stands now, holds in progress included, saturating (R262). -/
def portStallNow (s : State) (n : Nat) : U32 :=
  BitVec.ofNat 32 (min 0xFFFFFFFF ((getStage s n).portStall.toNat + ((stageEngines s n).map (heldCycles s)).sum))

/-- The hold of dispatch on an engine ends: its cycles count for the engine's stage (R262). -/
def endHold (e : Nat) (s : State) : State :=
  let x := getEngine s e
  let c := heldCycles s e
  let s1 := updEngine e (fun y => { y with stallAt := none, stalled := false }) s
  match x.stage with
  | some n => updStage n (fun y => { y with portStall := BitVec.ofNat 32 (min 0xFFFFFFFF (y.portStall.toNat + c)) }) s1
  | none => s1

/-- Follow a hold of dispatch on an engine: its start and its end. -/
def followHold (e : Nat) (s : State) : State :=
  match (getEngine s e).stallAt, holdsDispatch s e with
  | none, true => updEngine e (fun y => { y with stallAt := some (holdSince s e), stallFrom := holdSince s e }) s
  | some _, false => endHold e s
  | _, _ => s
/-- The same for every engine of a stage. -/
def followHolds (n : Nat) (s : State) : State := forEach (stageEngines s n) followHold s

/-- Squash frames of a stage (R257, R273): the frames, their instances and their queued completions go; an instance that
has been dispatched keeps its engine until it ends, its results dropped (R255, R256). A queue that was full has room, and a
port whose entry went is free, from now on. -/
def squash (n : Nat) (fs : List U32) (s : State) : State :=
  let q := qNow s
  let gone (c : Completion) : Bool := decide (c.stage = n) && fs.contains c.frame
  let s1 := { s with loop := { s.loop with
      stages := upd s.loop.stages n (fun x => { x with frames := x.frames.filter (fun f => !fs.contains f.index) })
      insts := (s.loop.insts.filter (fun i => !(ofFrames n fs i) || i.dead || isChosen i)).map
        (fun i => if ofFrames n fs i then { i with dead := true } else i)
      engines := s.loop.engines.map (fun e =>
        let rest := e.queue.filter (fun c => !gone c)
        { e with
          queue := rest
          waitPost := e.waitPost.filter (fun c => !gone c)
          roomAt := if e.queue.length ≥ 8 ∧ rest.length < 8 then q else e.roomAt
          portAt := if (e.queue.head?.map gone).getD false then max e.portAt q else e.portAt }) } }
  followHolds n (forEach (List.range 8) (fun h => grantSlots n h q 16) s1)

/-- Squash every open frame of a stage. -/
def squashAll (n : Nat) (s : State) : State := squash n ((getStage s n).frames.map (·.index)) s

/-- The bootstrap precharge of a channel's half-bridge is over: its low side is no longer held on (R382). -/
def endPrecharge (c : Nat) (s : State) : State :=
  if c < 80 then s else updHb ((c - 80) / 2) (fun h => { h with preEnd := none, preDue := false }) s

/-- A channel's emitted signal ends at once (R354: safe pulse-off and protection are exempt from the minimum pulse), and with it
a precharge of its half-bridge. -/
def chanOffNow (c : Nat) (s : State) : State :=
  endPrecharge c (updChan c (fun x => { emitOff x with raw := false, offAt := none, pulses := [], stopped := true }) s)

/-- A channel is turned off by a shutdown: at once, or held on until its minimum pulse has passed (R354). -/
def chanStop (c : Nat) (s : State) : State :=
  let x := getChan s c
  if x.cmd ∧ s.time.raw < x.onSince + chanMinpw s c then
    endPrecharge c (updChan c (fun x => { x with raw := false, onAt := none, pulses := [], stopped := true, offHeld := true }) s)
  else chanOffNow c s

/-- A start that waited in a queue is removed: its completion has status E_STATE and event 0x0122 records it (R138; the
opcode and tag of an act of a graph are zero, log 133). -/
def removedStart (e : GovEntry) (reason : Nat) (s : State) : State :=
  settleStart e.owed E_STATE [] (post 0x0122#16 0 (le16 e.opcode ++ [e.tag] ++ n8 reason) s)

/-- The precharges of some half-bridges leave the governor's queue: none of them is owed any more. -/
def dropPrecharges (hbs : List Nat) (s : State) : State :=
  { s with gov := { s.gov with precharge := s.gov.precharge.filter (fun e => !hbs.contains e.unit) }
           pwm := { s.pwm with hbs := s.pwm.hbs.mapIdx (fun i h => if hbs.contains i then { h with preDue := false } else h) } }

/-- Remove a stage's waiting start from the governor (R138): from the queue of driver supplies, or its precharges. -/
def removeStageStart (n : Nat) (reason : Nat) (s : State) : State :=
  let x := getStage s n
  let hbs := stageHbs s n
  let waits := s.gov.release.filter (fun e => decide (e.unit = n))
  let pre := s.gov.precharge.filter (fun e => hbs.contains e.unit)
  let gone := (waits ++ pre.map (fun e : GovEntry => { e with owed := x.startReq })).take 1
  let s1 := updStage n (fun x => { x with startReq := none, waitStart := false }) (dropPrecharges hbs
    { s with gov := { s.gov with release := s.gov.release.filter (fun e => !decide (e.unit = n)) } })
  gone.foldl (fun s e => removedStart e reason s) s1

/-- Remove an output's waiting switch-on from the governor (R138). -/
def removeOutputStart (o : Nat) (reason : Nat) (s : State) : State :=
  let q := s.gov.pullin.filter (fun e => decide (e.unit = o))
  q.foldl (fun s e => removedStart e reason s)
    { s with gov := { s.gov with pullin := s.gov.pullin.filter (fun e => !decide (e.unit = o)) } }

/-- Empty every queue of the start governor (R138). -/
def emptyGovernor (reason : Nat) (s : State) : State :=
  let s1 := forEach (List.range 8) (fun n => removeStageStart n reason) s
  let s2 := forEach (List.range 8) (fun o => removeOutputStart o reason) s1
  { s2 with gov := { s2.gov with pullin := [], precharge := [], release := [] } }

/-- Code of a forming unit mode (R307). -/
def fuCode : FuMode → Nat
  | .off => 0 | .follow => 1 | .sync => 2 | .form => 3 | .island => 4 | .blackStart => 5

/-- Remaining time of a stage's shutdown in us, rounded up (R140, R366): its timers' longest period, its longest
frame and 11 us after t_stop; 0 when it is not shutting down. -/
def stageLeft (s : State) (n : Nat) : Nat :=
  match (getStage s n).st, (getStage s n).tStop with
  | .shuttingDown, some t =>
    let p := (stageTimers s n).foldl (fun m t => max m (timerLongest s t)) 0
    max 1 (ceilDiv (t * 16 + p + frameLongest s n + 176000 - s.time.raw * 16) 16000)
  | _, _ => 0

/-- Remaining time of an output's shutdown in us (R430). -/
def outputLeft (s : State) (o : Nat) : Nat :=
  match s.field.shutting.getD o none with
  | some b => max 1 (ceilDiv (b - s.time.raw) 1000)
  | none => 0

/-- Remaining time of a RUN to READY transition in us: the longest of its shutdowns (R84). -/
def stateChangeLeft (s : State) : Nat :=
  ((List.range 8).map (fun n => max (stageLeft s n) (outputLeft s n))).foldl max 1

def getFu (s : State) (u : Nat) : FormingUnit := s.fus.getD u fu0
def updFu (u : Nat) (f : FormingUnit → FormingUnit) (s : State) : State := { s with fus := upd s.fus u f }

/-- FU_MODE_CHANGE (R308, R316). -/
def fuModeEvent (u : Nat) (old new : FuMode) (ride : Bool) (cause : Nat) (s : State) : State :=
  post 0x0700#16 u (n8 (fuCode old) ++ n8 (fuCode new) ++ n8 (flag ride 0) ++ n8 cause ++ le32 (getFu s u).run.kernel) s

/-- Targets set while a unit is OFF (R305, R306): by mask, P, Q, f, V. -/
def storeTargets (mask : Nat) (vals : List F32) (l : List (Option F32)) : List (Option F32) :=
  l.mapIdx (fun i o => if mask.testBit i then vals[i]? else o)

/-- A mode that a unit in OFF may still enter as things stand (R308); the dead-bus criterion is left to the kernel period. -/
def offAllows (x : FormingUnit) (m : FuMode) : Bool :=
  match m with
  | .follow => x.pll.locked
  | .sync => true
  | .form => x.pll.locked
  | .blackStart => !x.pll.locked
  | _ => false

/-- A request that still waits when its unit enters OFF: a mode is checked again and waits on or is dropped (R307), targets
are stored, parameters hold. -/
def fuLeftOver (u : Nat) (r : FuReq) (s : State) : State :=
  match r with
  | .mode m => if offAllows (getFu s u) m then updFu u (fun x => { x with reqs := x.reqs ++ [.mode m] }) s else post 0x0702#16 u (n8 (fuCode m) ++ n8 0) s
  | .off => s
  | .setp mask vals => updFu u (fun x => { x with stored := storeTargets mask vals x.stored }) s
  | .law c => updFu u (fun x => { x with law := c }) s
  | .limits c => updFu u (fun x => { x with lim := c }) s

/-- A forming unit enters OFF (R308, R310, R311, R336): its results, its shutdown and its schedule end. -/
def fuEnterOff (u cause : Nat) (reason : Option Nat) (s : State) : State :=
  let x := getFu s u
  if x.mode = .off then s
  else
    let s1 := fuModeEvent u x.mode .off false cause s
    let s2 := match reason with | some r => post 0x0703#16 u (n8 r) s1 | none => s1
    let s3 := updFu u (fun y => { y with mode := .off, run := fuRun0, reqs := [], nowReqs := [], shutting := none, offTaken := false, gap := false,
                                         sched := { y.sched with on := false, paused := false, halted := false, resumed := false, due := false }
                                         schedPub := { y.schedPub with on := false, paused := false }, endQ := 0, pubBytes := [], prevBytes := [] }) s2
    (x.nowReqs ++ x.reqs).foldl (fun s r => fuLeftOver u r s) s3

/-- A unit that no period runs in any more (R291): the PLLs read unlocked, and V_m reads 0.0. -/
def fuBlind (y : FormingUnit) : FormingUnit :=
  { y with running := none, waiting := none, tk := none, tkDom := 0, tInt := 0, pll := pll0, trk := pll0, vm := 0, vg := 0, sogi := List.replicate 6 0, present := false }

/-- A request that waits when no kernel period can start any more: a mode is dropped, since no unit leaves OFF then (R290). -/
def fuDropped (u : Nat) (r : FuReq) (s : State) : State :=
  match r with
  | .mode m => post 0x0702#16 u (n8 (fuCode m) ++ n8 0) s
  | _ => fuLeftOver u r s

/-- The feeding stage of a unit is no longer ENABLED (R291, R308): the unit enters OFF, and no monitor period runs. -/
def fuStageGone (u cause reason : Nat) (s : State) : State :=
  let s1 := fuEnterOff u cause (some reason) s
  let x := getFu s1 u
  let s2 := updFu u (fun y => { fuBlind y with reqs := [], nowReqs := [] }) s1
  (x.nowReqs ++ x.reqs).foldl (fun s r => fuDropped u r s) s2

/-- The forming units that a stage's graph feeds (R285). -/
def stageFus (s : State) (n : Nat) : List Nat := [0, 1].filter (fun u => (getFu s u).feeding = some n)

/-- A stage leaves ENABLED: its forming units enter OFF and pending sets are cleared (R308, R367). -/
def leaveEnabled (n cause reason : Nat) (s : State) : State :=
  let s1 := capRowsEnd (forEach (stageFus s n) (fun u => fuStageGone u cause reason) s)
  forEach (stageGroups s n) (fun g => updGroup g (clearSets s.time.raw)) s1

/-- The common part of a shutdown (R364): SHUTTING_DOWN from now, frames squashed, pending sets gone. A precharge not begun does
not begin any more, since every channel turns off and stays off. -/
def beginShutdown (n : Nat) (cause : Nat) (s : State) : State :=
  let s1 := setStage n .shuttingDown cause (dropPrecharges (stageHbs s n) s)
  let s2 := leaveEnabled n 2 0 (squashAll n s1)
  updStage n (fun x => { x with tStop := some s.time.raw, lastOff := s.time.raw, notices := [] }) s2

/-- The normal shutdown of a stage (R364): its channels turn off at the next reload of their timers, or at once where
the timers have not started yet. -/
def normalShutdown (n : Nat) (cause : Nat) (s : State) : State :=
  match (getStage s n).st with
  | .starting => if (getStage s n).ts.isSome then forEach (stageChans s n) chanStop (beginShutdown n cause s) else beginShutdown n cause s
  | .enabled => beginShutdown n cause s
  | _ => s

/-- A forced shutdown (R365): every channel of the stage turns off at once, subject to R354. In a stage that is shutting
down already it turns off the channels still on, and the 10 us of R366 count from there. -/
def forcedShutdown (n : Nat) (s : State) : State :=
  match (getStage s n).st with
  | .starting => forEach (stageChans s n) chanStop (beginShutdown n 2 s)
  | .enabled => forEach (stageChans s n) chanStop (beginShutdown n 2 s)
  | .shuttingDown =>
    let on := (stageChans s n).filter (fun c => !(getChan s c).stopped)
    forEach on chanStop (if on.isEmpty then s else updStage n (fun x => { x with lastOff := s.time.raw }) s)
  | _ => s

/-- The timers of a stage stop, their counters at 0 (R343): they run in STARTING, ENABLED and SHUTTING_DOWN only. -/
def stopTimers (n : Nat) (s : State) : State :=
  forEach (stageTimers s n) (fun t => updTimer t (fun x => { x with running := false, reloaded := false, lastReload := 0, nextReload := 0 })) s

/-- A stage is locked out by safe pulse-off (R343, R398): outputs off, open frames squashed, timers stopped. -/
def lockOut (n : Nat) (s : State) : State :=
  if stageOff s n then s else
    let s1 := setStage n .lockedOut 4 s
    let s2 := stopTimers n (leaveEnabled n 3 2 (squashAll n (dropPrecharges (stageHbs s1 n) s1)))
    updStage n (fun x => { x with gateOpen := false, notices := [], tStop := none }) (forEach (stageChans s n) chanOffNow s2)

/-- Parameter words written for frames up to one (none: all) stand in the image from now on (R243). -/
def foldWrites (n : Nat) (upTo : Option U32) (s : State) : State :=
  let x := getStage s n
  match x.graph with
  | none => s
  | some g =>
    let due (w : ParamWrite) : Bool := match upTo with | some f => decide (0 ≤ (f - w.apply).toInt) | none => true
    let m := (x.writes.filter due).foldl (fun m w => memWriteBytes m (g.offset + g.paramOff + 4 * w.first) (w.vals.flatMap le32)) s.loop.mem
    updStage n (fun y => { y with writes := y.writes.filter (fun w => !due w) }) { s with loop := { s.loop with mem := m } }

/-- The die's latch of an integrated switch clears (R380). -/
def clearDieLatch (c : Nat) (s : State) : State :=
  if c < 80 then s else updHb ((c - 80) / 2) (fun h => if c % 2 = 0 then { h with hsLatch := none } else { h with lsLatch := none }) s

/-- A channel of a stage that enters OFF (R367, R377): its faults clear, in the island and in the die; its accumulator is
cleared only when the stage enters ENABLED (R351). -/
def chanEntersOff (c : Nat) (s : State) : State :=
  clearDieLatch c (updChan c (fun x => { emitOff x with raw := false, pulses := [], stopped := false, fault := none, rawFault := none, refresh := 0, refreshed := false }) s)

/-- A stage enters OFF: timers stop, engines idle, protection faults of its channels clear, its channels are ready
for a later start (R343, R366, R367, R377). Pending sets are cleared; active sets stay (R32, R367). -/
def stageEntersOff (n : Nat) (cause : Nat) (s : State) : State :=
  let chs := stageChans s n
  let s1 := foldWrites n none (setStage n .off cause s)
  let s2 := squashAll n s1
  let s4 := stopTimers n (forEach chs chanEntersOff s2)
  let s5 := forEach (stageGroups s n) (fun g => updGroup g (clearSets s.time.raw)) s4
  let s5 := forEach (stageEngines s5 n) endHold s5
  let s6 := { s5 with loop := { s5.loop with insts := s5.loop.insts.filter (fun i => !decide (i.stage = n))
                                             engines := s5.loop.engines.map (fun e => if e.stage = some n then { e with queue := [], waitPost := [], portAt := 0, freeAt := 0, roomAt := 0 } else e) } }
  let s7 := forEach (stageHbs s n) (fun h => updHb h (fun x => { x with preEnd := none, preDue := false })) s6
  updStage n (fun x => { x with gateOpen := false, tStop := none, ts := none, notices := [], frames := [], closed := [], handover := none, handDue := none }) s7

/-- The period of RUN ends: both SAFE_OFF pins go low (R134). -/
def endRunPeriod (s : State) : State := { s with sys := { s.sys with safeOffA := false, safeOffB := false, released := false } }

/-- The device leaves RUN: waiting starts are removed and the RUN period ends (R134, R138). -/
def leaveRun (reason : Nat) (s : State) : State :=
  let s1 := endRunPeriod (emptyGovernor reason s)
  { s1 with safe := { s1.safe with runTime := s1.safe.runTime + (match s1.safe.runSince with | some t => s1.time.raw - t | none => 0), runSince := none } }

/-- Reason codes (R399). -/
def rMULTILEG : Nat := 1
def rOVERRUN : Nat := 2
def rCLOCK : Nat := 3
def rESTOP : Nat := 4
def rESTOP_DISCREPANCY : Nat := 5
def rINTERLOCK : Nat := 6
def rTEST_PULSE : Nat := 7
def rCONTACTOR : Nat := 8
def rGRID : Nat := 9
def rFIELD_LINK : Nat := 10
def rCHANNEL : Nat := 11
def rLOCKSTEP : Nat := 12
def rSAFETY_CLOCK : Nat := 13
def rSELFTEST : Nat := 14
def rPARAM : Nat := 15
def rSAFETY_ECC : Nat := 16

/-- The safe state is set (R398): every gating cell off, SAFE_OFF and FAULT_N low, every stage that is not OFF locked
out, every forming unit OFF, every governor queue emptied, the commands of outputs that are no contactors taken back, the
device in SAFE. -/
def setSafeState (s : State) : State :=
  let s1 := { s with pwm := { s.pwm with gateProc := false, gateSorrel := false }, sys := { s.sys with faultN := false } }
  let s2 := forEach (List.range 8) lockOut s1
  let s3 := forEach ((List.range 8).filter (fun o => !namedOutput s2 o)) commandOff (leaveRun 1 (forEach [0, 1] (fun u => fuStageGone u 3 2) s2))
  let s4 := setDev .safe 0 s3
  let s5 := { s4 with safe := { s4.safe with tSafe := activeTime s4, entries := s4.safe.entries + 1
                                             proc := { s4.safe.proc with safeBit := true, safeAt := s4.time.raw }
                                             sorrel := { s4.safe.sorrel with safeBit := true, safeAt := s4.time.raw } } }
  if s5.sys.stateChange then endLong 0x0103#16 0 E_STATE [] { s5 with sys := { s5.sys with stateChange := false } } else s5

/-- A safety function acts with a reason (R398, R399): the first cause records first_reason, causes of the same safety
cycle of 1 ms the lowest; a cause in SAFE only sets its bit and posts its event, and one already latched does nothing
more. In BOOT the cause is only latched, and BOOT ends in SAFE (R78, R400). `chan` is 0 for Sorrel and 1 for the safety
processor. -/
def safetyActs (reason chan source : Nat) (s : State) : State :=
  if s.safe.causes.getLsbD (reason - 1) then s
  else
    let was := s.sys.dev
    let first := if s.safe.causes = 0 then reason
      else if s.safe.firstAt.any (fun t => t / 1000000 == s.time.raw / 1000000) then min reason s.safe.firstReason else s.safe.firstReason
    let s1 := { s with safe := { s.safe with causes := s.safe.causes ||| (1#16 <<< (reason - 1)), firstReason := first
                                             firstAt := if s.safe.causes = 0 then some s.time.raw else s.safe.firstAt } }
    let s2 := if was = .safe ∨ was = .boot then s1 else setSafeState s1
    post 0x0A00#16 source (n8 reason ++ n8 chan ++ [0, 0] ++ n32 s2.safe.causes.toNat) s2

end Sys2Proof.Machine
end

