-- ==== Sys2Proof/Machine/OpsGraph.lean ====
section
/-! DEFINITION. Reading graph images in graph memory: headers, node descriptors, references, tables (R221 to R226). -/

namespace Sys2Proof.Machine

open Sys2Proof

/-- A node descriptor (R225). -/
structure Node where
  op       : Nat
  nIn      : Nat
  nOut     : Nat
  deps     : Nat
  effect   : Bool
  priv     : Bool
  pq       : Nat
  level    : Nat
  rateDiv  : Nat
  ratePhase : Nat
  succ     : Nat
  nSucc    : Nat
  home     : Nat
  param    : Nat
  cost     : Nat
  state    : Nat
  refs     : List Nat
  resv     : Nat               -- bits [87:83]
deriving DecidableEq, Repr

/-- The descriptor in 32 bytes (R225). -/
def nodeOfBytes (b : Bytes) : Node :=
  let x := n8At b 0
  let y := n8At b 2
  let z := n8At b 10
  { level := x % 16, pq := x / 16 % 4, priv := decide (x / 64 % 2 = 1), effect := decide (x / 128 = 1), deps := n8At b 1,
    nOut := y % 16, nIn := y / 16, op := n8At b 3, succ := n16At b 4, ratePhase := n8At b 6, rateDiv := n8At b 7, param := n16At b 8,
    home := z % 8, resv := z / 8, nSucc := n8At b 11, cost := n16At b 12, state := n16At b 14, refs := (List.range 8).map (fun k => n16At b (16 + 2 * k)) }

/-- Node i of a graph. -/
def graphNode (s : State) (g : Graph) (i : Nat) : Node := nodeOfBytes (memReadBytes s.loop.mem (g.offset + g.nodesOff + 32 * i) 32)
/-- Every node of a graph, in index order. -/
def graphNodes (s : State) (g : Graph) : List Node := (List.range g.nNodes).map (graphNode s g)
/-- Successor entry j: a node index (R222). -/
def graphSucc (s : State) (g : Graph) (j : Nat) : Nat := n16At (memReadBytes s.loop.mem (g.offset + g.succOff + 2 * j) 2) 0
/-- The successors of a node, in order. -/
def nodeSuccs (s : State) (g : Graph) (n : Node) : List Nat := (List.range n.nSucc).map (fun j => graphSucc s g (n.succ + j))
/-- Parameter word k as it stands in the image; a subnormal reads as zero (R223). -/
def graphParam (s : State) (g : Graph) (k : Nat) : F32 := f32Param (u32At (memReadBytes s.loop.mem (g.offset + g.paramOff + 4 * k) 4) 0)
/-- Code word k of the formula area. -/
def graphCode (s : State) (g : Graph) (k : Nat) : U32 := u32At (memReadBytes s.loop.mem (g.offset + g.codeOff + 4 * k) 4) 0

/-- The space and index of a reference (R226). -/
def refSpace (r : Nat) : Nat := r / 8192
def refIndex (r : Nat) : Nat := r % 8192
/-- The input and output references of a node. -/
def nodeIns (n : Node) : List Nat := n.refs.take n.nIn
def nodeOuts (n : Node) : List Nat := (n.refs.drop n.nIn).take n.nOut
/-- The distinct IN channels of a node (R229). -/
def nodeChans (n : Node) : List Nat := ((nodeIns n).filter (fun r => r ≠ 0xFFFF ∧ refSpace r = 2)).map refIndex |>.eraseDups
/-- A set-point entry: parameter word, measured reference, rate. -/
def setEntry (s : State) (g : Graph) (i : Nat) : Nat × Nat × F32 :=
  let b := memReadBytes s.loop.mem (g.offset + g.setOff + 8 * i) 8
  (n16At b 0, n16At b 2, u32At b 4)
/-- The channels that a graph reads: the IN references of its nodes (R229) and the measured references of its set-points (R222,
R244). -/
def graphChans (s : State) (g : Graph) : List Nat :=
  let sets := ((List.range g.nSet).map (fun i => (setEntry s g i).2.1)).filterMap (fun r => if refSpace r = 2 then some (refIndex r) else none)
  ((graphNodes s g).flatMap nodeChans ++ sets).eraseDups
/-- A modulation operation (R239). -/
def isMod (op : Nat) : Bool := decide (0x30 ≤ op) && decide (op ≤ 0x34)
/-- The group that a modulation node writes. -/
def modGroup (n : Node) : Option Nat :=
  if isMod n.op then ((nodeOuts n).find? (fun r => r ≠ 0xFFFF ∧ refSpace r = 5)).map refIndex else none
/-- The groups that a graph's modulation nodes write. -/
def graphGroups (s : State) (g : Graph) : List Nat := (graphNodes s g).filterMap modGroup
/-- A modulation node of any loaded graph writes the group (PWM_WRITE_GROUP). -/
def groupInGraph (s : State) (grp : Nat) : Bool :=
  (List.range 8).any (fun n => match (getStage s n).graph with | some g => (graphGroups s g).contains grp | none => false)

/-- The frame timer of a stage's graph. -/
def frameTimer (s : State) (n : Nat) : Option Nat := (getStage s n).graph.map (·.frameTimer)

end Sys2Proof.Machine
end

