-- ==== Sys2Proof/Machine/OpsProt.lean ====
section
/-! DEFINITION. Shared operations of gate protection: sources, latching, clearing at a rising command edge, and the
multi-leg escalation (R375 to R390). -/

namespace Sys2Proof.Machine

open Sys2Proof

/-- The leg of a channel (R390): as configured, else its lead's number mod 16. -/
def chanLeg (s : State) (c : Nat) : Nat :=
  let x := getChan s c
  match x.leg with
  | some l => l
  | none => (if x.role = 2 then x.partner.getD c else c) % 16

/-- A target's stage is not OFF (R375). -/
def targetLive (s : State) (c : Nat) : Bool := match chanStage s c with | some n => !stageOff s n | none => false

/-- Armed sources (R375). -/
def fltArmed (s : State) (c : Nat) : Bool := (getFlt s c).enable && targetLive s c
def cmpEnabled (x : Comparator) : Bool := x.lowEn || x.highEn
def cmpArmed (s : State) (k : Nat) : Bool := cmpEnabled (getCmp s k) && (getCmp s k).targets.any (targetLive s)
def focEnabled (x : FastDet) : Bool := x.lowEn || x.highEn
def focArmed (s : State) (k : Nat) : Bool := focEnabled (getFoc s k) && (getFoc s k).targets.any (targetLive s)

/-- A source is under a self-test (R391); kinds as PROT_CONFIG: 0 comparator, 1 fast detector, 3 half-bridge. -/
def underTest (s : State) (kind k : Nat) : Bool :=
  match s.pwm.selftest with
  | none => false
  | some t => match kind with | 0 => t.cmp.getLsbD k | 1 => t.foc.getLsbD k | 3 => t.hb.getLsbD k | _ => false
/-- A source turns its targets off: it is armed and not under a self-test (R375, R391). -/
def cmpActs (s : State) (k : Nat) : Bool := cmpArmed s k && !underTest s 0 k
def focActs (s : State) (k : Nat) : Bool := focArmed s k && !underTest s 1 k

/-- The comparator's zone is on a side that is enabled. -/
def cmpZoneOn (x : Comparator) : Bool :=
  match x.zone with
  | 1 => x.lowEn | 3 => x.lowEn | 2 => x.highEn | 4 => x.highEn | _ => false
/-- The comparator is in a short zone. -/
def cmpShort (x : Comparator) : Bool := cmpZoneOn x && decide (x.zone ≥ 3)

/-- A source that targets the channel is active at a rising command edge, which itself starts blanking (R377). -/
def sourceActive (s : State) (c : Nat) : Bool :=
  (decide (c < 80) && (getFlt s c).enable && (getFlt s c).active)
    || s.pwm.cmps.any (fun x => x.targets.contains c && (cmpShort x || (x.tripped && decide (x.blank = 0))))
    || s.pwm.focs.any (fun x => x.targets.contains c && x.tripped)
    || (decide (c ≥ 80) && (s.pwm.vdrvShut || s.pwm.tempShut
        || (let h := getHb s ((c - 80) / 2); if c % 2 = 0 then h.bootLow || decide (h.hsVds = 2) else decide (h.lsVds = 2))))

/-- Event 0x0900 for a channel; within 1 ms of an unacknowledged entry of the channel it merges into it (R378); an
event that a full log drops (R87) is no entry to merge into. -/
def tripEvent (c : Nat) (cause : Byte) (idx : Nat) (failed : Bool) (s : State) : State :=
  let x := getChan s c
  let data := [cause] ++ n8 idx ++ n8 ((chanStage s c).getD 0xFF) ++ n8 (flag failed 0) ++ le32 x.trips
  let recent := match x.lastTrip with | some t => decide (s.time.raw ≤ t + 1000000) | none => false
  if recent && (findMerge s 0x0900#16 (fun e => e.source == BitVec.ofNat 8 c)).isSome then postMerge 0x0900#16 c data s
  else
    let s1 := post 0x0900#16 c data s
    if s1.evt.nextSeq = s.evt.nextSeq then s1 else updChan c (fun y => { y with lastTrip := some s.time.raw }) s1

/-- Faults on two legs of one stage within 1 us make Sorrel act (R390). -/
def multileg (c : Nat) (cause : Byte) (s : State) : State :=
  if decide (cause = 6) || decide (cause = 7) || decide (cause = 8) then s
  else
    match chanStage s c with
    | none => s
    | some n =>
      let s1 := updChan c (fun x => { x with rawFault := some s.time.raw }) s
      let recent := (stageChans s1 n).filter (fun d => match (getChan s1 d).rawFault with | some t => decide (s.time.raw ≤ t + 1000) | none => false)
      let legs := (recent.map (chanLeg s1)).eraseDups
      if legs.length ≥ 2 ∧ (getStage s1 n).st ≠ .off ∧ (getStage s1 n).st ≠ .lockedOut then
        let bits := legs.foldl (fun m l => m ||| 2 ^ l) 0
        let s2 := post 0x0902#16 n (n16 bits ++ [0, 0] ++ le32 (getStage s1 n).frameIndex) { s1 with pwm := { s1.pwm with multileg := s1.pwm.multileg + 1 } }
        safetyActs rMULTILEG 0 n s2
      else s1

/-- A trip latches a protection fault on a channel and forces its output off (R376, R378). The latching is the raw fault that
Sorrel counts, but for a VDS monitor's, which it has from the die's fault line before the status word (R380, R390). -/
def tripChannel (cause : Byte) (idx : Nat) (c : Nat) (s : State) : State :=
  let s0 := updChan c (fun x => { x with tripAt := some s.time.raw }) s
  if (getChan s c).fault.isSome then s0
  else
    let s1 := tripEvent c cause idx false (updChan c (fun x => { x with fault := some cause, faultSrc := idx, trips := x.trips + 1 }) s0)
    if cause = 4 ∨ cause = 5 then s1 else multileg c cause s1

/-- An armed source trips on all its targets. -/
def tripTargets (cause : Byte) (idx : Nat) (ts : List Nat) (s : State) : State := forEach ts (tripChannel cause idx) s

/-- The rising command edge of a channel (R377, R380, R385, R387): blanking starts, and its fault clears in the
island and in the die if every source is inactive and none trips in this cycle; else a failed clear is reported. -/
def risingEdge (c : Nat) (s : State) : State :=
  let s0 := updChan c (fun x => { x with edgeAt := s.time.raw }) s
  let s1 := { s0 with pwm := { s0.pwm with cmps := s0.pwm.cmps.map (fun x => if x.targets.contains c then { x with blankEnd := s.time.raw + x.blank } else x) } }
  let held := sourceActive s1 c || decide ((getChan s1 c).tripAt = some s1.time.raw)
  match (getChan s1 c).fault with
  | none => if held then s1 else clearDieLatch c s1
  | some f =>
    if held then tripEvent c f (getChan s1 c).faultSrc true s1
    else clearDieLatch c (updChan c (fun x => { x with fault := none }) s1)

/-- Carry out a change and treat the rising command edges that it brings to the given channels. -/
def withEdges (cs : List Nat) (f : State → State) (s : State) : State :=
  let t := f s
  forEach (cs.filter (fun c => !chanCommanded s c && chanCommanded t c)) risingEdge t

/-- Sources already in their trip condition trip as they become armed (R375). -/
def armTrips (cs : List Nat) (s : State) : State :=
  let s1 := forEach cs (fun c s => if decide (c < 80) && fltArmed s c && (getFlt s c).active then tripChannel 0 c c s else s) s
  let s2 := forEach (List.range 32) (fun k s =>
    let x := getCmp s k
    if cmpActs s k && x.targets.any (fun t => cs.contains t) && cmpZoneOn x && (cmpShort x || decide (s.time.raw ≥ x.blankEnd)) then
      tripTargets (if cmpShort x then 2 else 1) k x.targets (updCmp k (fun y => { y with tripped := true }) s) else s) s1
  let s3 := forEach (List.range 48) (fun k s =>
    let x := getFoc s k
    if focActs s k && x.tripped && x.targets.any (fun t => cs.contains t) then tripTargets 3 k x.targets s else s) s2
  forEach (List.range 8) (fun h s =>
    if (getHb s h).bootLow && !underTest s 3 h && cs.contains (80 + 2 * h) && targetLive s (80 + 2 * h) then tripChannel 6 h (80 + 2 * h) s else s) s3

end Sys2Proof.Machine
end

