-- ==== Sys2Proof/Machine/OpsRel.lean ====
section
/-! DEFINITION. Shared operations of Lovage: retirements, spares, the repair log (R532 to R539). -/

namespace Sys2Proof.Machine

open Sys2Proof

/-- Word w of the OTP (R540). -/
def otpWord (s : State) (w : Nat) : U64 := u64At (memReadBytes s.rel.otp (8 * w) 8) 0
/-- Set bits of a word of the OTP: programming only sets bits. -/
def otpSet (w : Nat) (v : U64) (s : State) : State :=
  { s with rel := { s.rel with otp := memWriteBytes s.rel.otp (8 * w) (le64 (otpWord s w ||| v)) } }
/-- Program bytes from a byte address on. -/
def otpProgram (a : Nat) (b : Bytes) (s : State) : State :=
  { s with rel := { s.rel with otp := memWriteBytes s.rel.otp a ((b.zipIdx).map (fun p => p.1 ||| memRead s.rel.otp (a + p.2))) } }

/-- Places of the repair log that are used: it is written in order from word 0 (R536). -/
def logUsed (s : State) : Nat := ((List.range 64).filter (fun i => otpWord s (896 + i) ≠ 0)).length
/-- A place is free for one more entry. -/
def logFree (s : State) : Bool := decide (logUsed s + s.rel.logWrites.length < 64)

/-- A repair log entry (R536). -/
def logEntry (r : Retirement) (spare : Nat) (reason : Nat) : U64 :=
  BitVec.ofNat 64 (r.cls * 2 ^ 60 + (r.index % 256) * 2 ^ 52 + (r.row % 4096) * 2 ^ 40 + (spare % 256) * 2 ^ 32 + (reason % 256) * 2 ^ 24 + 0xA5)

/-- An entry is void when its mark or its reserved bits are wrong (R536). -/
def entryVoid (e : U64) : Bool := decide (e.toNat % 256 ≠ 0xA5) || decide (e.toNat / 256 % 65536 ≠ 0)
/-- The retirement that an entry names. -/
def entryRet (e : U64) : Retirement :=
  { cls := e.toNat / 2 ^ 60, index := e.toNat / 2 ^ 52 % 256, row := e.toNat / 2 ^ 40 % 4096, reason := e.toNat / 2 ^ 24 % 256 }
/-- Its index and row lie within its class (R536); rows of Sage memory never enter the repair log (R531). -/
def retInRange (r : Retirement) : Bool :=
  match r.cls with
  | 0 => decide (r.index < 108) && decide (r.row < 512)
  | 1 => decide (r.index < 5) && decide (r.row = 0)
  | 2 => decide (r.index < 9) && decide (r.row = 0)
  | 3 => decide (r.index < 104) && decide (r.row = 0)
  | 4 => decide (r.index < 18) && decide (r.row = 0)
  | 5 => decide (r.index < 3) && decide (r.row = 0)
  | _ => false

/-- The spare rows of a macro in use, and the lowest free one. -/
def rowSpares (s : State) (m : Nat) : List Nat := s.rel.rows.filterMap (fun (a, _, sp) => if a = m then sp else none)
def freeRow (s : State) (m : Nat) : Option Nat := ([0, 1, 2, 3] : List Nat).find? (fun k => !(rowSpares s m).contains k)

/-- Bytes a to a + n - 1 of a memory whose first macro is m lie in a row retired without a spare (R535). -/
def bytesLost (s : State) (m a n : Nat) : Bool :=
  s.rel.rows.any (fun (x, row, sp) => sp.isNone && decide (m ≤ x) && decide ((x - m) * 65536 + row * 128 < a + n) && decide (a < (x - m) * 65536 + row * 128 + 128))

/-- A row of the CAN message RAM of a port, or of the safety memory, is retired without a spare (R535). -/
def canRamLost (s : State) (p : Nat) : Bool := s.rel.rows.any (fun (x, row, sp) => sp.isNone && s.rel.canRows.contains (512 * x + row, p))
def safetyRamLost (s : State) : Bool := s.rel.rows.any (fun (x, _, sp) => sp.isNone && (decide (x = 106) || decide (x = 107)))

/-- SAR4, MAC8 and lane 2 are still spare. -/
def sar4Spare (s : State) : Bool := !(s.rel.sarRetired.getD 4 false) && s.sense.cores.all (fun c => c.phys ≠ some 4)
def mac8Spare (s : State) : Bool := !(s.rel.macRetired.getD 8 false) && (s.rel.macRetired.take 8).all (fun b => !b)
/-- SAR4 and MAC8 check: they are spare, and their own retirement is not decided (R534). -/
def sar4Checks (s : State) : Bool := sar4Spare s && !s.rel.waiting.any (fun r => decide (r.cls = 1) && decide (r.index = 4))
def mac8Checks (s : State) : Bool := mac8Spare s && !s.rel.waiting.any (fun r => decide (r.cls = 2) && decide (r.index = 8))

/-- Spares left in a class; in class 0, of the macro (R532). -/
def sparesLeft (s : State) (cls index : Nat) : Nat :=
  match cls with
  | 0 => 4 - (rowSpares s index).length
  | 1 => if sar4Spare s then 1 else 0
  | 2 => if mac8Spare s then 1 else 0
  | 3 => (s.pwm.units.filter (fun u => u.service == .spare)).length
  | 4 => (s.loop.engines.filter (fun e => e.service == .spare)).length
  | _ => s.field.spareLanes

/-- The resource is retired already (R534, R538). -/
def isRetired (s : State) (r : Retirement) : Bool :=
  match r.cls with
  | 0 => s.rel.rows.any (fun (a, b, _) => decide (a = r.index) && decide (b = r.row))
  | 1 => s.rel.sarRetired.getD r.index false
  | 2 => s.rel.macRetired.getD r.index false
  | 3 => (getUnit s r.index).service == .retired
  | 4 => (getEngine s r.index).service == .retired
  | _ => s.rel.laneRetired.getD r.index false

/-- A retirement is decided (R533): detections on a resource whose retirement is decided are discarded (R534). -/
def decideRetire (r : Retirement) (s : State) : State :=
  if isRetired s r ∨ s.rel.waiting.any (fun x => x.cls = r.cls ∧ x.index = r.index ∧ x.row = r.row) then s
  else { s with rel := { s.rel with waiting := s.rel.waiting ++ [r] } }

/-- The oldest decided retirement of a class. -/
def nextRetire (s : State) (cls : Nat) : Option Retirement := s.rel.waiting.find? (fun r => r.cls = cls)

/-- Event 0x0F02, which every retirement posts (R535): in BOOT it waits until the log accepts events. -/
def postRetired (cls : Nat) (d : Bytes) (s : State) : State :=
  if logLive s then post 0x0F02#16 cls d s else { s with rel := { s.rel with unposted := s.rel.unposted ++ [(cls, d)] } }
/-- The retirements of BOOT post their events. -/
def postUnposted (s : State) : State :=
  s.rel.unposted.foldl (fun s e => post 0x0F02#16 e.1 e.2 s) { s with rel := { s.rel with unposted := [] } }

/-- A retirement is carried out: it leaves the waiting list, its log entry is queued or stays volatile, and event
0x0F02 is posted (R535, R537, R539). Before the wipe of BOOT it comes from the log, and stands in it. -/
def finishRetire (r : Retirement) (spare : Option Nat) (s : State) : State :=
  let logged := !logLive s || logFree s
  let e := logEntry r (spare.getD 0xFF) r.reason
  let s1 := { s with rel := { s.rel with waiting := s.rel.waiting.erase r
                                         logWrites := if logged then s.rel.logWrites ++ [e] else s.rel.logWrites
                                         volatiles := if logged then s.rel.volatiles else s.rel.volatiles ++ [e] } }
  postRetired r.cls (n8 r.index ++ n8 (spare.getD 0xFF) ++ n8 (sparesLeft s1 r.cls r.index) ++ n8 r.reason ++ n8 (flag logged 0) ++ n16 r.row) s1

/-- A transient detection (R533): the class's count rises, saturating, and event 0x0F09 is posted. -/
def transient (cls index : Nat) (s : State) : State :=
  let c := satInc (s.rel.transient.getD cls 0)
  postMerge 0x0F09#16 cls (n8 index ++ zeros 3 ++ n32 c.toNat) { s with rel := { s.rel with transient := upd s.rel.transient cls (fun _ => c) } }

/-- Stages whose graph reads a channel (R170, R215). -/
def stageReads (s : State) (n ch : Nat) : Bool :=
  match (getStage s n).graph with
  | none => false
  | some g => (graphChans s g).contains ch
/-- The graph of a stage that is not OFF reads the channel. -/
def readLive (s : State) (ch : Nat) : Bool := (List.range 8).any (fun n => !stageOff s n && stageReads s n ch)
/-- Stages that are neither OFF nor already going there, of a list of channels they read. -/
def readersOf (s : State) (chs : List Nat) : List Nat :=
  (List.range 8).filter (fun n => ((getStage s n).st == .starting || (getStage s n).st == .enabled) && chs.any (stageReads s n))
/-- A set of small numbers as a bit field. -/
def bitField (l : List Nat) : Nat := l.foldl (fun m i => m ||| 2 ^ i) 0

/-- An in-service SAR core is retired at a round boundary (R169, R170): SAR4 applies the offset and gain difference that it measured
in its checks of that core (log 195). SAR4 itself merely stops checking. -/
def retireSar (r : Retirement) (s : State) : State :=
  let s1 := { s with rel := { s.rel with sarRetired := upd s.rel.sarRetired r.index (fun _ => true) }, sense := { s.sense with probe := none } }
  match s.sense.cores.findIdx? (fun c => c.phys = some r.index) with
  | none => finishRetire r none s1
  | some c =>
    if sar4Spare s ∧ r.index ≠ 4 then
      let s2 := { s1 with sense := { s1.sense with cores := upd s1.sense.cores c (fun x => { x with phys := some 4 }), sarFix := some (Config.sarOffset (s.sense.sarPairs.getD r.index []), Config.sarGain (s.sense.sarPairs.getD r.index [])) } }
      finishRetire r (some 4) (post 0x0402#16 r.index (n8 c ++ [4, 0]) s2)
    else
      let s2 := { s1 with sense := { s1.sense with cores := upd s1.sense.cores c (fun x => { x with phys := none }) } }
      let ns := readersOf s2 ((List.range 8).map (fun i => 48 + 8 * c + i))
      finishRetire r none (post 0x0405#16 c (n8 0xFF ++ n8 (bitField ns)) (forEach ns forcedShutdown s2))

/-- MAC lanes in service (R198, R215). -/
def lanes (s : State) : Nat := min 8 (9 - (s.rel.macRetired.filter (·)).length)

/-- Taps of an assignment's filter set; 0 in bypass. -/
def tapsOf (sets : List (Option FltSet)) (a : Assign) : Nat :=
  match a.set with | some k => (match sets.getD k none with | some f => f.taps | none => 0) | none => 0
/-- The MAC budget of an assignment (R198). -/
def withinBudget (l : Nat) (a : Assign) (t : Nat) : Bool := decide (t ≤ l * 10 * a.gang * a.r) && decide (t ≤ 512)

/-- Assignments stop (R215, R530): they deliver nothing new, and the stages that read them are forced down. -/
def stopChannels (chs : List Nat) (s : State) : List Nat × State :=
  let s1 := { s with flt := { s.flt with chans := s.flt.chans.mapIdx (fun c x => if chs.contains c then { x with stopped := true } else x) } }
  let ns := readersOf s1 chs
  (ns, forEach ns forcedShutdown s1)

/-- Every assignment among some channels stops, as R215 states for a lane that is lost; `lane` is that lane, 0xFF where none is
(R216). -/
def stopAssigned (lane : Nat) (chs : List Nat) (s : State) : State :=
  let live := chs.filter (fun c => !(match s.flt.chans[c]? with | some x => x.stopped | none => true))
  let (ns, s1) := stopChannels live s
  let bits := bitField live
  if live.isEmpty then s
  else post 0x0503#16 0xFF (n16 (bits / 2 ^ 64) ++ n8 (bitField ns) ++ n8 lane) (post 0x0503#16 lane (n64 (bits % 2 ^ 64)) s1)

/-- A MAC lane is retired at a round boundary (R214, R215): a spare MAC8 merely stops checking; once MAC8 serves, its loss
leaves L at 7 as any other lane's does. -/
def retireMac (r : Retirement) (s : State) : State :=
  let s1 := { s with rel := { s.rel with macRetired := upd s.rel.macRetired r.index (fun _ => true) }, flt := { s.flt with macWin := [] } }
  if r.index = 8 ∧ mac8Spare s then finishRetire r none s1
  else if mac8Spare s then finishRetire r (some 8) (post 0x0502#16 r.index (n8 8 ++ [0]) s1)
  else
    let l := lanes s1
    let s1 := { s1 with flt := { s1.flt with lostLane := r.index } }
    let chs := ((s1.flt.assigns.filter (fun a => !withinBudget l a (tapsOf s1.flt.sets a))).map (·.ch)).filter (fun c => !(match s1.flt.chans[c]? with | some x => x.stopped | none => false))
    let (ns, s2) := stopChannels chs s1
    let bits := bitField chs
    finishRetire r none (post 0x0503#16 0xFF (n16 (bits / 2 ^ 64) ++ n8 (bitField ns) ++ n8 r.index) (post 0x0503#16 r.index (n64 (bits % 2 ^ 64)) s2))

/-- A SAR core or a MAC lane whose function is off or idle, or which is a spare (R534): a core without a reference or without an
input in its sequence or its queue, a lane while no channel is assigned. -/
def roundIdle (s : State) (r : Retirement) : Bool :=
  if r.cls = 1 then
    match s.sense.cores.find? (fun c => c.phys = some r.index) with
    | none => true
    | some c => decide (s.sense.refState ≠ 2) || (c.seq.all (fun e => decide (e = 0xFF)) && c.urgent.isEmpty)
  else decide (r.index = 8) && mac8Spare s || s.flt.assigns.isEmpty

/-- The decided retirements of SAR cores and MAC lanes that are idle or spare take place at once, in order (R534). -/
def settleRound (s : State) : State :=
  forEach (List.range 9) (fun _ s =>
    let s1 := match nextRetire s 1 with | some r => if roundIdle s r then retireSar r s else s | none => s
    match nextRetire s1 2 with | some r => if roundIdle s1 r then retireMac r s1 else s1 | none => s1) s
/-- A retirement of a SAR core or a MAC lane is decided. -/
def decideRound (r : Retirement) (s : State) : State := settleRound (decideRetire r s)

/-- The decided retirements of SAR cores and MAC lanes take place at a round boundary, one of each class (R534). -/
def roundSwaps (s : State) : State :=
  let s1 := match nextRetire s 1 with | some r => retireSar r s | none => s
  match nextRetire s1 2 with | some r => retireMac r s1 | none => s1

/-! ### Compare units (R370 to R372, R534) -/

/-- The group and position that a unit backs. -/
def unitPlace (s : State) (u : Nat) : Option (Nat × Nat) :=
  (List.range 32).findSome? (fun g => ((getGroup s g).units.findIdx? (· = u)).map (fun p => (g, p)))
/-- The stage of that group. -/
def unitStage (s : State) (u : Nat) : Option Nat := (unitPlace s u).bind (fun p => (getGroup s p.1).timer.bind (fun t => (getTimer s t).stage))
/-- The lowest spare compare unit. -/
def spareUnit (s : State) : Option Nat := (List.range 104).find? (fun k => (getUnit s k).service == .spare)

/-- A spare takes a retired unit's place (R371). -/
def takeUnit (r : Retirement) (v : Nat) (s : State) : State :=
  let u := r.index
  let at_ := unitPlace s u
  let s1 := match at_ with | some (g, p) => updGroup g (fun x => { x with units := x.units.set p v }) s | none => s
  let s2 := updUnit u (fun x => { x with service := .retired, swapTo := none, shadow := none }) (updUnit v (fun x => { x with service := .inService, shadow := none }) s1)
  let s3 := { s2 with pwm := { s2.pwm with units := s2.pwm.units.map (fun x => if x.shadow = some u then { x with shadow := none } else x) }
                      rel := { s2.rel with unitWatch := s2.rel.unitWatch.filter (fun w => w.1 ≠ u) } }
  finishRetire r (some v) (post 0x0805#16 u (n8 v ++ n8 (sparesLeft s3 3 0) ++ n8 (at_.elim 0xFF Prod.fst) ++ n8 (at_.elim 0xFF Prod.snd)) s3)

/-- The decided retirements of compare units, in order: one that needs no hand-over takes place at once, one behind a
running stage waits for the next reload of its timer. -/
def arrangeUnits : Nat → State → State
  | 0, s => s
  | k + 1, s =>
    match nextRetire s 3 with
    | none => s
    | some r =>
      let u := r.index
      let st := unitStage s u
      let live := match st with | some n => !stageOff s n | none => false
      let gone := updUnit u (fun x => { x with service := .retired, shadow := none }) s
      if (getUnit s u).service = .spare then arrangeUnits k (finishRetire r none gone)
      else match (getUnit s u).swapTo.or (spareUnit s) with
        | some v => if live then updUnit u (fun x => { x with swapTo := some v }) s else arrangeUnits k (takeUnit r v s)
        | none =>
          let s1 := match live, st with | true, some n => forcedShutdown n gone | _, _ => gone
          let s2 := post 0x0806#16 u (n8 ((unitPlace s u).elim 0xFF Prod.fst) ++ n8 (if live then st.getD 0xFF else 0xFF)) s1
          arrangeUnits k (finishRetire r none s2)

/-- At a reload of a timer: a prepared hand-over of one of its units takes place, and watches count down (R371, R533). -/
def swapUnits (t : Nat) (s : State) : State :=
  let us := ((List.range 32).filter (fun g => (getGroup s g).timer = some t)).flatMap (fun g => (getGroup s g).units)
  let s1 := { s with rel := { s.rel with unitWatch := (s.rel.unitWatch.map (fun w => if us.contains w.1 then (w.1, w.2 - 1) else w)).filter (fun w => w.2 ≠ 0) } }
  match nextRetire s1 3 with
  | none => s1
  | some r =>
    match us.contains r.index, (getUnit s1 r.index).swapTo with
    | true, some v => arrangeUnits 8 (takeUnit r v s1)
    | _, _ => s1

end Sys2Proof.Machine
end

