-- ==== Sys2Proof/Machine/OpsSense.lean ====
section
/-! DEFINITION. Shared operations of clocks, sense inputs and the filter chain: modulator clocks, sinc and FIR
arithmetic, windows of accumulators and trackers, calibration and thresholds (spec/05, spec/06, spec/07). -/

namespace Sys2Proof.Machine

open Sys2Proof

def getPll (s : State) (i : Nat) : Adpll := s.clk.plls.getD i adpll0
def updPll (i : Nat) (f : Adpll → Adpll) (s : State) : State := { s with clk := { s.clk with plls := upd s.clk.plls i f } }
def getOut (s : State) (i : Nat) : ClkOut := s.clk.outs.getD i clkOut0
def updOut (i : Nat) (f : ClkOut → ClkOut) (s : State) : State := { s with clk := { s.clk with outs := upd s.clk.outs i f } }
def getSense (s : State) (c : Nat) : SenseCh := s.sense.chans.getD c senseCh0
def updSense (c : Nat) (f : SenseCh → SenseCh) (s : State) : State := { s with sense := { s.sense with chans := upd s.sense.chans c f } }
def getCore (s : State) (c : Nat) : SarCore := s.sense.cores.getD c sarCore0
def updCore (c : Nat) (f : SarCore → SarCore) (s : State) : State := { s with sense := { s.sense with cores := upd s.sense.cores c f } }
def getAcc (s : State) (i : Nat) : AccSet := s.sense.accs.getD i acc0
def getMmx (s : State) (i : Nat) : Tracker := s.sense.mmxs.getD i mmx0
def getFch (s : State) (c : Nat) : FltCh := s.flt.chans.getD c fltCh0
def updFch (c : Nat) (f : FltCh → FltCh) (s : State) : State := { s with flt := { s.flt with chans := upd s.flt.chans c f } }

/-- An ADPLL is LOCKED (R151). -/
def pllLocked (s : State) (i : Nat) : Bool := (getPll s i).state == .locked
/-- The values of a round that is still held. -/
def roundAt (s : State) (t : Nat) : Option RoundVals :=
  if s.sense.round.t = t then some s.sense.round
  else match s.sense.late with
    | some r => if r.t = t then some r else s.sense.past.find? (fun r => r.t = t)
    | none => (s.sense.past.find? (fun r => r.t = t)).map (fun r => { r with done := List.range 80 })

/-- The active-domain time in whole ns at a raw count. -/
def timeNs (s : State) (r : Nat) : Nat := (activeAt s.time r / ns1).toNat
/-- The same as a 32-bit field. -/
def timeAt (s : State) (r : Nat) : U32 := BitVec.ofNat 32 (timeNs s r)

/-! ### Modulator clocks (R156, R162, R163) -/

/-- The period of MCLKg in ns under ADPLL-B's plan. -/
def mclkPeriod (s : State) (g : Nat) : Rat :=
  let f := f32Val (getPll s 1).plan.fDco
  if f = 0 then 0 else (getOut s g).divider * 1000000000 / f
/-- MCLKg delivers bits: enabled and not gated (R145, R162). -/
def mclkRuns (s : State) (g : Nat) : Bool :=
  (getOut s g).enable && ((getPll s 1).state == .locked || (getPll s 1).state == .verify) && !((getPll s 1).gated.contains g)
/-- A capture delay in ns reaches or passes a period. -/
def delayTooLong (d : Nat) (period : Rat) : Bool := decide ((d : Rat) / 2 ≥ period)

/-- The capture delays of a channel: in effect, and accepted for the next round boundary (R163). -/
def delaysOf (s : State) (c : Nat) : List Nat :=
  (getSense s c).delay :: s.sense.confs.filterMap (fun q => match q with | .chan ch d _ _ _ _ _ => if ch = c then some d else none | _ => none)

/-- The filter sets and assignment of a channel as requested, and in effect. -/
def assignOf (l : List Assign) (c : Nat) : Option Assign := l.find? (fun a => a.ch = c)

/-- Rounds until an assignment is settled (R208): none while the group's MCLK is disabled. -/
def settleNeed (s : State) (sets : List (Option FltSet)) (a : Assign) : Option Nat :=
  let t := tapsOf sets a
  if a.ch ≥ 48 then some t
  else if !(mclkRuns s (a.ch / 6)) then none
  else some ((ratCeil (((a.n * (a.m - 1) + 1 : Nat) : Rat) * mclkPeriod s (a.ch / 6) / 1000)).toNat + t)

/-- A channel starts to settle anew (R208). -/
def unsettle (c : Nat) (s : State) : State :=
  let z := match assignOf s.flt.assigns c with | some a => settleNeed s s.flt.sets a = some 0 | none => false
  updFch c (fun x => { x with rounds := 0, settled := z }) s

/-- A bitstream channel without modulator clock: no bits, no history, raw value 0.0 (R162). -/
def silenced (x : FltCh) : FltCh := { x with bits := [], hist := [], q := 0, rounds := 0, settled := false, idle := true }

/-! ### Sinc and FIR arithmetic (R192 to R196) -/

/-- One convolution with M ones. -/
def boxcar (m : Nat) (w : List Nat) : List Nat :=
  (List.range (w.length + m - 1)).map (fun k => ((List.range m).map (fun j => if j ≤ k then w.getD (k - j) 0 else 0)).sum)
/-- The weights of the sinc^N sum over N (M - 1) + 1 bits. -/
def sincWeights (n m : Nat) : List Nat := (List.range n).foldl (fun w _ => boxcar m w) [1]
/-- The sinc output in Q1.23 (R193). -/
def sincOut (n m : Nat) (bits : List Bool) : Int :=
  let sum : Int := ((sincWeights n m).zip bits).foldl (fun t p => if p.2 then t + p.1 else t - p.1) 0
  min (ratRound (mkRat (sum * 2 ^ 23) (m ^ n))) (2 ^ 23 - 1)

/-- Coefficient h[i] of a filter set: bits [23:0] of its word (R201). -/
def coef (s : State) (f : FltSet) (i : Nat) : Int :=
  ((u32At (memReadBytes s.flt.mem (4 * (f.base + i)) 4) 0).extractLsb' 0 24).toInt
def coefs (s : State) (f : FltSet) : List Int := (List.range f.taps).map (coef s f)

/-- The FIR output in Q1.23 and whether it saturated (R195). -/
def firOut (h x : List Int) : Int × Bool :=
  let acc := ((h.zip x).map (fun p => p.1 * p.2)).sum
  let acc := if acc > 512 * 2 ^ 46 - 1 then 512 * 2 ^ 46 - 1 else if acc < -(512 * 2 ^ 46) then -(512 * 2 ^ 46) else acc
  let y := ratRound (mkRat acc (2 ^ 23))
  if y ≥ 2 ^ 23 then (2 ^ 23 - 1, true) else if y < -(2 ^ 23) then (-(2 ^ 23), true) else (y, false)

/-- The raw value of a Q1.23 output (R160, R197). -/
def rawOf (q : Int) : Rat := mkRat q (2 ^ 23)
/-- The scaled value y := scale (raw - zero) (R161), rounded once to binary32. -/
def scaled (x : SenseCh) (q : Int) : F32 := toF32 (f32Val x.scale * (rawOf q - f32Val x.zero))

/-! ### Fast detectors, input side (R187, R388) -/

/-- The sinc2 output of a fast detector over its last 2 D bits, newest first, scaled under R161. -/
def focOut (x : SenseCh) (bits : List Bool) : Rat :=
  let sum : Int := ((sincWeights 2 x.focDec).zip bits).foldl (fun t p => if p.2 then t + p.1 else t - p.1) 0
  f32Val x.scale * (mkRat sum (x.focDec * x.focDec) - f32Val x.zero)

/-- A fast detector's trip condition: it is on, its input has a clock and is not stuck, and the output lies outside a
threshold whose side is enabled (R187, R388). -/
def focBeyond (s : State) (k : Nat) : Bool :=
  let x := getFoc s k
  let y := getSense s k
  decide (y.focDec ≠ 0) && mclkRuns s (k / 6) && !y.stuck
    && ((x.lowEn && decide (focOut y x.bits < f32Val x.lo)) || (x.highEn && decide (f32Val x.hi < focOut y x.bits)))

/-- Evaluate a fast detector on the bits it holds. -/
def focEval (k : Nat) (s : State) : State := let b := focBeyond s k; updFoc k (fun x => { x with tripped := b }) s

/-- A group's MCLK changed: without it the histories of its channels are cleared at once, and with it they settle again
(R162, R208). A fast detector without its MCLK does not trip on that account (R187). -/
def mclkChanged (g : Nat) (s : State) : State :=
  forEach (List.range 6) (fun i s => focEval (6 * g + i) (unsettle (6 * g + i) s)) (if mclkRuns s g then s else forEach (List.range 6) (fun i => updFch (6 * g + i) silenced) s)

/-! ### Windows (R179 to R181) -/

/-- The sample of a source in a round, none where it delivers none, and whether the round makes its reader STALE (R178,
R179, R188, R190): a slow path does so in every round in which it is not settled or its channel's value is not new. -/
def sourceVal (s : State) (rv : RoundVals) (src : Nat) : Option F32 × Bool :=
  if src < 80 then
    match rv.vals.getD src none with
    | some v => (some v, rv.stale.contains src)
    | none => (none, true)
  else if 0x80 ≤ src ∧ src ≤ 0xCF then
    let c := src - 0x80
    (rv.slow.getD c none, !(getSense s c).slowOk || rv.stale.contains c)
  else (none, false)

/-- A source reads a channel whose coefficients changed at the boundary that begins the round (R176). -/
def calMarked (rv : RoundVals) (src : Nat) : Bool := rv.marks.any (fun c => decide (src = c) || decide (src = 0x80 + c))

/-- The newest value of a source, for a product of sources of different rates. -/
def newestVal (s : State) (rv : RoundVals) (src : Nat) : F32 :=
  if src < 80 then (rv.vals.getD src none).getD 0 else if 0x80 ≤ src ∧ src ≤ 0xCF then (getSense s (src - 0x80)).slowOut else 0

/-- Add a round to an accumulator set (R180). -/
def accAdd (s : State) (rv : RoundVals) (x : AccSet) : AccSet :=
  if x.mode = 0 then x
  else
    let (va, sa) := sourceVal s rv x.a
    let (_, sb) := sourceVal s rv x.b
    let x := if sa || sb then { x with stale := true } else x
    let x := if calMarked rv x.a || calMarked rv x.b then { x with cal := true } else x
    match va with
    | none => x
    | some a =>
      if x.count = 0xFFFFFFFF#32 then { x with sat := true }
      else
        let av := f32Val a
        let bv := f32Val (newestVal s rv x.b)
        let c := x.count + 1
        { x with sumA := toF64 (f64Val x.sumA + av), sumAA := toF64 (f64Val x.sumAA + av * av)
                 sumAB := if x.b = 0xFF then 0 else toF64 (f64Val x.sumAB + f64Val (toF64 (av * bv))), count := c
                 sat := x.sat || c == 0xFFFFFFFF#32 }

/-- Add a round to a tracker (R181). -/
def mmxAdd (s : State) (rv : RoundVals) (x : Tracker) : Tracker :=
  if x.mode = 0 then x
  else
    let (v, st) := sourceVal s rv x.src
    let x := if st then { x with stale := true } else x
    let x := if calMarked rv x.src then { x with cal := true } else x
    match v with
    | none => x
    | some a =>
      let x := { x with count := satInc x.count }
      let x := if x.count = 1 ∨ f32Lt a x.min then { x with min := a, tMin := BitVec.ofNat 32 rv.dom } else x
      if x.count = 1 ∨ f32Lt x.max a then { x with max := a, tMax := BitVec.ofNat 32 rv.dom } else x

/-- The samples of the newest round enter the windows, once, if the round began before an instant (R179). -/
def foldRound (t : Nat) (s : State) : State :=
  if s.sense.round.folded ∨ s.sense.round.t ≥ t then s
  else
    { s with sense := { s.sense with accs := s.sense.accs.map (accAdd s s.sense.round), mmxs := s.sense.mmxs.map (mmxAdd s s.sense.round),
                                     round := { s.sense.round with folded := true } } }

/-- An accumulator set entry (R180, R188). -/
def accEntry (x : AccSet) (tClose : U32) : Bytes :=
  let n : Rat := x.count.toNat
  let mean (v : F64) : F32 := if x.count = 0 then 0 else toF32 (f64Val v / n)
  let ms := f64Val x.sumAA / n
  let rms : F32 := if x.count = 0 then 0 else BitVec.ofNat 32 (min (sqrtMag ms.num.toNat ms.den) 0x7F800000)
  le32 (mean x.sumA) ++ le32 rms ++ le32 (if x.b = 0xFF then 0 else mean x.sumAB) ++ le32 x.count ++ le32 tClose ++ n8 x.a ++ n8 x.b ++ n8 x.mode
    ++ n8 (flag x.cal 0 + flag x.stale 1 + flag x.sat 2) ++ zeros 8

/-- A tracker entry (R188). -/
def mmxEntry (x : Tracker) : Bytes :=
  le32 x.min ++ le32 x.max ++ le32 x.tMin ++ le32 x.tMax ++ le32 x.count ++ n8 x.src ++ n8 x.mode ++ n8 (flag x.cal 0 + flag x.stale 1) ++ [0]

/-- A new window. -/
def accClear (x : AccSet) : AccSet := { acc0 with a := x.a, b := x.b, mode := x.mode, pub := x.pub }
def mmxClear (x : Tracker) : Tracker := { mmx0 with src := x.src, mode := x.mode, pub := x.pub }

/-- At t_pub the PUBLICATION windows close and begin anew; FREE sets show their running values (R179, R183). -/
def closeWindows (tPub : Nat) (s : State) : State :=
  let s1 := foldRound tPub s
  let d := timeAt s1 tPub
  let acc (x : AccSet) : AccSet :=
    if x.mode = 0 then { x with pub := accEntry x 0 } else
      let y := { x with pub := accEntry x d }
      if x.mode = 1 then accClear y else y
  let mm (x : Tracker) : Tracker :=
    let y := { x with pub := mmxEntry x }
    if x.mode = 1 then mmxClear y else y
  { s1 with sense := { s1.sense with accs := s1.sense.accs.map acc, mmxs := s1.sense.mmxs.map mm } }

/-! ### Thresholds (R186) and calibration (R176) -/

/-- The DAC code of a threshold in the channel's unit. -/
def dacCode (x : SenseCh) (y : F32) : Nat :=
  if f32Val x.scale = 0 then 0 else (ratRound (ratClamp (1024 * (f32Val x.zero + f32Val y / f32Val x.scale)) 0 1023)).toNat

/-- A calibration changes a channel at the coming round boundary: its comparator's codes follow, and every window that
contains the boundary, which is the window of the round beginning there (R179), sets CAL when it takes that round (R176). -/
def coefChanged (c : Nat) (s : State) : State :=
  let x := getSense s c
  let s1 := if c < 48 then s else updCmp (c - 48) (fun k => { k with codes := k.thresh.map (dacCode x) }) s
  { s1 with sense := { s1.sense with calMarks := c :: s1.sense.calMarks } }

/-- The channel is watched by a comparator or fast detector armed for a stage that is not OFF (R175). -/
def watchedLive (s : State) (c : Nat) : Bool := if c < 48 then focArmed s c else cmpArmed s (c - 48)
/-- The core of an analog channel has been lost (R170). -/
def chanLost (s : State) (c : Nat) : Bool := decide (48 ≤ c) && decide (c < 80) && (getCore s ((c - 48) / 8)).phys.isNone
/-- A channel is settled (R208). -/
def chanSettled (s : State) (c : Nat) : Bool := (assignOf s.flt.assigns c).isSome && (getFch s c).settled && !(getFch s c).stopped

end Sys2Proof.Machine
end

