-- ==== Sys2Proof/Machine/OpsCan.lean ====
section
/-! DEFINITION. Shared operations of the CAN ports: message RAM entries, error confinement, queues and taps (spec/18). -/

namespace Sys2Proof.Machine

open Sys2Proof

/-! ### Ports and message RAM (R471, R472) -/

def getCan (s : State) (p : Nat) : CanPort := s.can.ports.getD p canPort0
def updCan (p : Nat) (f : CanPort → CanPort) (s : State) : State := { s with can := { s.can with ports := upd s.can.ports p f } }

/-- Offset of a transmit entry, a receive entry and a filter in the message RAM. -/
def txAddr (p e : Nat) : Nat := 0x2000 * p + 80 * e
def rxAddr (p e : Nat) : Nat := 0x2000 * p + 0xA00 + 80 * e
def filterAddr (p k : Nat) : Nat := 0x2000 * p + 0x1E00 + 8 * k
/-- The 80 bytes of an entry. -/
def canEntry (s : State) (a : Nat) : Bytes := memReadBytes s.can.mem a 80
/-- The controller writes bytes of the message RAM. -/
def canWrite (a : Nat) (b : Bytes) (s : State) : State := { s with can := { s.can with mem := memWriteBytes s.can.mem a b } }
/-- The status byte of an entry. -/
def setEntryStatus (a st : Nat) (s : State) : State := canWrite (a + 6) (n8 st) s

/-- The transmit entry is reserved for a tap. -/
def tapEntry (x : CanPort) (e : Nat) : Bool := decide (32 - x.tapEntries ≤ e)
/-- The transmit entry is controller-owned (R472). -/
def canOwned (x : CanPort) (e : Nat) : Bool := tapEntry x e || x.queue.contains e
/-- Controller-owned transmit entries. -/
def txQueued (x : CanPort) : Nat := ((List.range 32).filter (canOwned x)).length
/-- The port runs: it is not OFF. -/
def canRuns (x : CanPort) : Bool := x.bus != .off

/-- Bytes of data that a data length code stands for. -/
def dlcLength (fdf : Bool) (dlc : Nat) : Nat :=
  if dlc ≤ 8 then dlc else if !fdf then 8 else ([12, 16, 20, 24, 32, 48, 64] : List Nat).getD (dlc - 9) 64

/-! ### States (R475, R482) -/

/-- The state code of the port block. -/
def canCode (x : CanPort) : Nat :=
  if x.shutting.isSome then 5 else match x.bus with | .off => 0 | .active => 1 | .passive => 2 | .busOff => 3 | .recovering => 4

/-- A port changes; event 0x0C00 if its state does (R475, R483). -/
def canChange (p : Nat) (f : CanPort → CanPort) (s : State) : State :=
  let x := getCan s p
  let y := f x
  let s1 := updCan p (fun _ => y) s
  if canCode x = canCode y then s1 else post 0x0C00#16 p (n8 (canCode x) ++ n8 (canCode y) ++ n16 y.tec ++ n8 y.recv ++ n8 y.lastError) s1

/-- An outcome is written to a transmit entry (R474): it leaves the queue, and event 0x0C01 confirms it where asked. -/
def txOutcome (p e st : Nat) (s : State) : State :=
  let a := txAddr p e
  let s1 := setEntryStatus a st (updCan p (fun x => { x with queue := x.queue.filter (· ≠ e) }) s)
  let b := canEntry s1 a
  if (byteAt b 4).getLsbD 3 then post 0x0C01#16 p (n8 e ++ n8 st ++ [0, 0] ++ le32 (u32At b 12)) s1 else s1

/-- The shutdown of a port ends (R481): every queued entry is CANCELLED, the port is OFF. -/
def canStop (p : Nat) (s : State) : State :=
  let s1 := forEach (getCan s p).queue (fun e s => updCan p (fun x => { x with txCancelled := x.txCancelled + 1 }) (txOutcome p e 3 s)) s
  let s2 := { s1 with can := { s1.can with tx := s1.can.tx.map (fun t => if t.2.port = p then (t.1, { t.2 with next := none }) else t) } }
  canChange p (fun x => { x with bus := .off, shutting := none, current := none, tooLate := false, away := false }) s2

/-- The error counters take new values (R475); in RESTRICTED mode they stay (R476). Bus-off ends a shutdown at once (R481). -/
def canCounters (p tec recv : Nat) (s : State) : State :=
  let x := getCan s p
  if x.restricted ∨ x.bus = .off ∨ x.bus = .busOff ∨ x.bus = .recovering then s
  else
    let bus : CanBus := if tec > 255 then .busOff else if tec ≥ 128 ∨ recv ≥ 128 then .passive else .active
    let s1 := canChange p (fun x => { x with tec := min tec 256, recv := recv, bus := bus, busOffs := if bus = .busOff then x.busOffs + 1 else x.busOffs }) s
    if bus = .busOff ∧ x.shutting.isSome then canStop p s1 else s1

/-- An error is counted (R475: as ISO 11898-1:2015 counts it; log 100). -/
def countError (p : Nat) (c : CanCount) (s : State) : State :=
  let x := getCan s p
  match c with
  | .receiver => canCounters p x.tec (min 255 (x.recv + 1)) s
  | .receiverFlag => canCounters p x.tec (min 255 (x.recv + 8)) s
  | .transmitter | .transmitterFlag => canCounters p (x.tec + 8) x.recv s
  | .none => s

/-- A frame received counts the receive counter down: from above 127 to a value of 119 to 127, which is free (log 100). -/
def countReceived (p : Nat) (s : State) : State :=
  let x := getCan s p
  if x.restricted then s
  else if x.recv ≤ 127 then canCounters p x.tec (x.recv - 1) s
  else let (w, s1) := draw s; canCounters p x.tec (119 + w.toNat % 9) s1

/-- A frame sent counts the transmit counter down (log 100). -/
def countSent (p : Nat) (s : State) : State := let x := getCan s p; canCounters p (x.tec - 1) x.recv s

/-! ### Receive taps (R478, R479) -/

/-- Bits of data as a number, the bit `start` least significant. -/
def dataBits (d : Bytes) (start n : Nat) : Nat :=
  ((d.zipIdx.map (fun (b, i) => b.toNat * 2 ^ (8 * i))).sum / 2 ^ start) % 2 ^ n

/-- The largest finite value of a sign. -/
def maxOf (neg : Bool) : F32 := if neg then 0xFF7FFFFF#32 else 0x7F7FFFFF#32
/-- The value of a field of received data, and whether it was replaced; none where it would be NaN (R478). -/
def fieldValue (f : CanField) (d : Bytes) : Option (F32 × Bool) :=
  let raw := dataBits d f.start f.length
  let w : F32 := BitVec.ofNat 32 raw
  if f.format = 2 ∧ f32Nan w then none
  else if f.format = 2 ∧ f32Bad w then some (maxOf (w.msb != f.scale.msb), true)
  else
    let n : Rat := match f.format with
      | 2 => f32Raw w
      | 1 => (((raw : Int) - (if raw ≥ 2 ^ (f.length - 1) then 2 ^ f.length else 0) : Int) : Rat)
      | _ => ((raw : Int) : Rat)
    let v := n * f32Val f.scale + f32Val f.offset
    let (r, ov) := engRound v
    some (r, ov || (decide (v ≠ 0) && fIsZero r))

/-- Identifier and IDE agree on the compared bits. -/
def idMatches (want mask id : U32) : Bool :=
  want.getLsbD 29 == id.getLsbD 29 && (want ^^^ id) &&& mask &&& 0x1FFFFFFF#32 == 0#32

/-- One receive tap on a valid frame: the tap, and by how much tap_drops grows. -/
def tapReceive (p now : Nat) (id : U32) (d : Bytes) (t : RxTap) : RxTap × Nat :=
  match t with
  | .value q want mask f tmo df _ _ =>
    if q ≠ p ∨ !idMatches want mask id then (t, 0)
    else if f.start + f.length > 8 * d.length then (t, 1)
    else match fieldValue f d with
      | none => (t, 1)
      | some (r, replaced) => (.value q want mask f tmo df r (some now), if replaced then 1 else 0)
  | .age _ => (t, 0)

/-- The value of a receive tap at an instant (R479). -/
def rxTapVal (c : Can) (now : Nat) (t : RxTap) : F32 :=
  match t with
  | .value _ _ _ _ _ _ v _ => v
  | .age k =>
    match c.rx.find? (fun x => x.1 = k) with
    | some (_, .value _ _ _ _ _ _ _ (some u)) => toF32 (mkRat (now - u : Nat) 1000000000)
    | _ => f32Max

/-- The receive taps as fixed for a frame: each configured index with its value (R479). -/
def canTaps (s : State) (now : Nat) : List (Nat × F32) := s.can.rx.map (fun x => (x.1, rxTapVal s.can now x.2))
/-- CAN-space index k of fixed taps; the spec states no value for an index without a tap: it is free. -/
def canTapAt (l : List (Nat × F32)) (k : Nat) : F32 :=
  match l.find? (fun x => x.1 = k) with
  | some x => x.2
  | none => Config.libWord 0x150 [] [] [] 0 k

/-! ### Transmit taps (R480) -/

/-- One input encoded into its field. -/
def encodeField (f : CanField) (x : F32) : Nat :=
  let v := (f32Val (((fnorm x).run []).1) - f32Val f.offset) / f32Val f.scale
  match f.format with
  | 2 => (engRound v).1.toNat
  | 1 =>
    let n := max (-(2 ^ (f.length - 1) : Int)) (min (2 ^ (f.length - 1) - 1) (ratRound v))
    (n % (2 ^ f.length : Int)).toNat
  | _ => (max 0 (min (2 ^ f.length - 1) (ratRound v))).toNat

/-- Put a field's bits into the data, taken as a number. -/
def putField (d : Nat) (f : CanField) (raw : Nat) : Nat :=
  let m := (2 ^ f.length - 1) * 2 ^ f.start
  (d - (d &&& m)) + raw * 2 ^ f.start

/-- A number as data bytes. -/
def dataBytes (d n : Nat) : Bytes := (List.range n).map (fun i => BitVec.ofNat 8 (d / 2 ^ (8 * i)))

/-- The data of a transmit tap's frame. -/
def tapData (t : TxTap) (vals : List U32) : Bytes :=
  slice (dataBytes ((t.fields.zip vals).foldl (fun d fv => putField d fv.1 (encodeField fv.1 fv.2)) 0) (dlcLength t.fdf t.dlc)) 0 64

/-- A frame enters a transmit tap's entry and is queued. -/
def queueTap (t : TxTap) (data : Bytes) (s : State) : State :=
  let b := le32 t.id ++ n8 (flag t.fdf 0 + flag t.brs 1) ++ n8 t.dlc ++ n8 1 ++ n8 0
  let a := txAddr t.port t.entry
  canWrite (a + 16) data (canWrite a b (updCan t.port (fun x => { x with queue := x.queue.filter (· ≠ t.entry) ++ [t.entry] }) s))

/-- A transmit tap's frame is dropped (R480, R483). A tap that is not configured names no port: port 0 counts it. -/
def tapDropped (p tap reason : Nat) (s : State) : State :=
  let s1 := updCan p (fun x => { x with tapDrops := x.tapDrops + 1 }) s
  postMerge 0x0C03#16 p (n8 tap ++ n8 reason ++ [0, 0] ++ le32 (getCan s1 p).tapDrops) s1

/-- Change a transmit tap. -/
def updTxTap (j : Nat) (f : TxTap → TxTap) (s : State) : State :=
  { s with can := { s.can with tx := s.can.tx.map (fun t => if t.1 = j then (j, f t.2) else t) } }

/-- A CAN_TX node's values reach transmit tap j (R480). -/
def canTxAct (j : Nat) (vals : List U32) (s : State) : State :=
  match s.can.tx.find? (fun t => t.1 = j) with
  | none => tapDropped 0 j 0 s
  | some (_, t) =>
    let x := getCan s t.port
    if t.fields.length < vals.length then tapDropped t.port j 1 s
    else if x.bus = .off ∨ x.bus = .busOff ∨ x.restricted then tapDropped t.port j 2 s
    else
      let d := tapData t vals
      let sup (s : State) : State := updCan t.port (fun x => { x with superseded := x.superseded + 1 }) s
      if x.current = some t.entry then
        updTxTap j (fun t => { t with next := some d }) (if t.next.isSome then sup s else s)
      else if x.queue.contains t.entry then canWrite (txAddr t.port t.entry + 16) d (sup s)
      else queueTap t d s

/-- The attempt of a transmit entry has ended: a tap's newer frame is queued now (R480). -/
def tapNext (p e : Nat) (s : State) : State :=
  match s.can.tx.find? (fun t => decide (t.2.port = p) && decide (t.2.entry = e) && t.2.next.isSome) with
  | some (j, t) => queueTap t (t.next.getD []) (updTxTap j (fun t => { t with next := none }) s)
  | none => s

/-! ### The end of an attempt, and the loss of the clock (R470, R474, R477) -/

/-- The attempt in transmission has failed: sent again later, or LATE_LOST where SINGLE_SHOT or a late cancel says so. -/
def attemptFailed (p : Nat) (s : State) : State :=
  let x := getCan s p
  match x.current with
  | none => s
  | some e =>
    let s1 := updCan p (fun x => { x with current := none, tooLate := false }) s
    let single := (byteAt (canEntry s (txAddr p e)) 4).getLsbD 4
    tapNext p e (if x.tooLate ∨ single then updCan p (fun x => { x with txLateLost := x.txLateLost + 1 }) (txOutcome p e 4 s1) else s1)

/-- The Host island moves to the fallback oscillator: every running port stops taking part (R470). -/
def canClockLost (s : State) : State :=
  forEach (List.range 6) (fun p s =>
    let x := getCan s p
    if !canRuns x ∨ x.away then s
    else
      let s1 := updCan p (fun x => { x with away := true, errors := if x.current.isSome then x.errors + 1 else x.errors }) s
      attemptFailed p s1) s

/-- The port takes part on the bus. -/
def canJoined (s : State) (x : CanPort) : Bool := !x.away && !(s.time.onFallback.getD 3 true)

end Sys2Proof.Machine
end

