-- ==== Sys2Proof/Machine/CmdPort.lean ====
section
/-! DEFINITION. Commands of the command port and of the UDP transport (spec/02): transactions, datagrams, the
system cards and the event cards. -/

namespace Sys2Proof.Machine

open Sys2Proof

/-! ### Transactions of the command port (R42 to R49) -/

/-- Event 0x0101 for an ignored or truncated transaction (R43, R45). -/
def framingEvent (first : Byte) (n : Nat) (s : State) : State := post 0x0101#16 0 ([first, 0] ++ n16 n) s

/-- The bytes sent in a transaction: the port status byte, then the given bytes (R44). -/
def sendMiso (cpol : Bool) (tail : Bytes) (s : State) : State :=
  { s with cmd := { s.cmd with miso := portStatus s :: tail, cpol := cpol } }

/-- A request as it stands in the request queue of the command port. -/
def cmdReq (refusal : Option U16) (bytes : Bytes) : Req :=
  { via := .cmd, seq := 0, srcIp := 0, srcPort := 0, refusal := refusal, bytes := bytes }

/-- A request written while BUSY is high (R48): event 0x0107, and E_QUEUE_FULL in the reserved entry if it is free. A
packet that CMD_CS_N cuts off as well is refused in the same way, without event 0x0101, its opcode and tag zero where
they did not arrive (log 125). -/
def refuseBusy (bytes : Bytes) (s : State) : State :=
  let s1 := post 0x0107#16 0 [] s
  if s1.cmd.replies.any (·.reserved) then s1 else
    let s2 := { s1 with sys := { s1.sys with errors := s1.sys.errors + 1 } }
    { s2 with cmd := { s2.cmd with replies := s2.cmd.replies ++
        [{ bytes := replyBytes s2 false false (u16At bytes 2) (byteAt bytes 4) E_QUEUE_FULL [], completion := false, reserved := true }] } }

/-- Take a written packet into the request queue (R45). One cut off is discarded with event 0x0101 and, where 8 bytes
arrived, answered E_LENGTH in its turn among the immediate replies (R62; log 8). -/
def takePacket (bytes : Bytes) (s : State) : State :=
  let n := 12 + n16At bytes 6
  if bytes.length < 8 then framingEvent (byteAt bytes 0) bytes.length s
  else if bytes.length < n then
    let s1 := framingEvent (byteAt bytes 0) bytes.length s
    flushTurn .cmd { s1 with cmd := { s1.cmd with requests := s1.cmd.requests ++ [cmdReq (some E_LENGTH) bytes] } }
  else { s with cmd := { s.cmd with requests := s.cmd.requests ++ [cmdReq none (bytes.take n)] } }

/-- REQUEST_WRITE (R42 to R48). The transaction is ignored until the port opens (R49, R122). -/
def execRequestWrite (cpol : Bool) (bytes : Bytes) (s : State) : Host.Outcome State Fault Refusal :=
  if !s.cmd.isOpen then .next s
  else
    let s1 := sendMiso cpol (zeros (bytes.length - 1)) s
    .next (if busyLevel s then refuseBusy bytes s1 else takePacket bytes s1)

/-- REPLY_READ (R43, R44, R46, R64): `n` bytes are clocked after the first. -/
def execReplyRead (cpol : Bool) (n : Nat) (s : State) : Host.Outcome State Fault Refusal :=
  if !s.cmd.isOpen then .next s
  else
    match s.cmd.replies with
    | [] => .next (sendMiso cpol (zeros n) s)
    | q :: t =>
      let s1 := sendMiso cpol (slice q.bytes 0 n) s
      .next (if n < q.bytes.length then s1 else flushTurn .cmd (admitWaiting { s1 with cmd := { s1.cmd with replies := t } }))

/-- STATUS_POLL (R43, R44). -/
def execStatusPoll (cpol : Bool) (n : Nat) (s : State) : Host.Outcome State Fault Refusal :=
  if !s.cmd.isOpen then .next s else .next (sendMiso cpol (zeros n) s)

/-- UNKNOWN_TRANSACTION (R43): ignored, event 0x0101. -/
def execUnknownTransaction (cpol : Bool) (first : Byte) (n : Nat) (s : State) : Host.Outcome State Fault Refusal :=
  if !s.cmd.isOpen then .next s
  else .next (framingEvent first (n + 1) (sendMiso cpol (zeros n) s))

/-! ### UDP datagrams (R67 to R75) -/

/-- Discard a datagram that does not authenticate (R71). -/
def udpAuthFail (port : Nat) (ip sid : U32) (s : State) : State := post 0x0102#16 (port + 1) (le32 ip ++ le32 sid) s

/-- Discard a replayed request (R72, R73). -/
def udpReplay (port : Nat) (sid seq : U32) (s : State) : State := post 0x0103#16 (port + 1) (le32 sid ++ le32 seq) s

/-- The host nonces kept for a port (R73). -/
def portNonces (s : State) (port : Nat) : List Bytes := if port = 0 then s.udp.nonces0 else s.udp.nonces1

/-- A request's sequence is acceptable: from 1 to 0xFFFFFFFE (R67), and above H, or within the last 64 and not yet
recorded (R72). One outside the range is discarded like a replay (log 126). -/
def seqFresh (x : Session) (seq : U32) : Bool :=
  decide (seq ≠ 0) && decide (seq ≠ 0xFFFFFFFF#32) &&
    (decide (seq.toNat > x.high.toNat) || (decide (seq.toNat + 63 ≥ x.high.toNat) && !x.window.contains seq))

/-- Record an accepted sequence (R72). -/
def recordSeq (seq : U32) (now : Nat) (x : Session) : Session :=
  let h := if seq.toNat > x.high.toNat then seq else x.high
  { x with high := h, window := (seq :: x.window).filter (fun q => decide (q.toNat + 63 ≥ h.toNat)), lastReq := now }

/-- The request of a datagram. -/
def udpReq (port : Nat) (sid seq ip : U32) (src : U16) (packet : Bytes) : Req :=
  { via := .udp port sid, seq := seq, srcIp := ip, srcPort := src, refusal := none, bytes := packet }

/-- A session-open datagram: session 0, sequence 0, under K_CMD, its nonce not among the last 64 (R68, R71, R73). One
with a sequence other than 0 is discarded with event 0x0102 (log 127). -/
def udpOpen (port : Nat) (ip : U32) (src : U16) (body mac packet : Bytes) (s : State) : State :=
  match kCmd s with
  | none => udpAuthFail port ip 0 s
  | some k =>
    if mac ≠ cmac8 k body ∨ u32At body 4 ≠ 0 ∨ packet.length ≠ 12 + n16At packet 6 then udpAuthFail port ip 0 s
    else if u16At packet 2 = 0x0311#16 ∧ (portNonces s port).contains (slice packet 8 16) then udpReplay port 0 0 s
    else { s with udp := { s.udp with queue := s.udp.queue ++ [udpReq port 0 0 ip src packet] } }

/-- A datagram of an open session (R71, R72, R75). One whose length disagrees with its packet is discarded under R71
(log 128); the packet's start byte is not looked at (log 129); a fifth request is answered E_QUEUE_FULL in its turn, its
sequence recorded and the idle time begun anew like an accepted one's (log 130). -/
def udpSession (port : Nat) (ip : U32) (src : U16) (x : Session) (seq : U32) (body mac packet : Bytes) (s : State) : State :=
  if mac ≠ cmac8 x.key body ∨ packet.length ≠ 12 + n16At packet 6 then udpAuthFail port ip x.sid s
  else if !seqFresh x seq then udpReplay port x.sid seq s
  else
    let s1 := updSession port x.sid (recordSeq seq s.time.raw) s
    let r := udpReq port x.sid seq ip src packet
    let s2 := if x.owing ≥ 4 then
        let s3 := post 0x0107#16 (port + 1) [] s1
        flushTurn r.via { s3 with udp := { s3.udp with queue := s3.udp.queue ++ [{ r with refusal := some E_QUEUE_FULL }] } }
      else updSession port x.sid (fun y => { y with owing := y.owing + 1 }) { s1 with udp := { s1.udp with queue := s1.udp.queue ++ [r] } }
    if seq = 0xFFFFFFFE#32 then closeSession port x.sid 1 s2 else s2

/-- The port takes frames: enabled, its link up, its island's clock running (R149, R459, R461). -/
def ethUp (s : State) (port : Nat) : Bool :=
  match s.eth[port]? with
  | some e => e.enable && e.link && !(s.time.onFallback.getD 4 true)
  | none => false

def updEth (p : Nat) (f : EthPort → EthPort) (s : State) : State := { s with eth := upd s.eth p f }
/-- Count a received frame. -/
def countRx (port : Nat) (s : State) : State := { s with eth := upd s.eth port (fun e => { e with rxFrames := e.rxFrames + 1 }) }

/-- Event 0x0312 (R467). -/
def ethErrors (p : Nat) (s : State) : State :=
  match s.eth[p]? with
  | none => s
  | some e => postMerge 0x0312#16 p (le32 e.rxCrc ++ le32 e.rxDropped) s
/-- A frame received and dropped (R459 to R461). -/
def ethDrop (p : Nat) (s : State) : State := ethErrors p (updEth p (fun e => { e with rxDropped := e.rxDropped + 1 }) s)
/-- A frame that finds its island's clock stopped on an enabled port with its link up counts in rx_dropped (R149, R461). -/
def missedRx (port : Nat) (s : State) : State :=
  match s.eth[port]? with
  | none => s
  | some e => if e.enable && e.link then ethDrop port s else s

/-- The port takes a frame of `len` bytes with this tag, none for an untagged one: up to 1522 bytes, and no tag but that of
the VID configured (R459). -/
def ethFits (s : State) (port : Nat) (tag : Option Nat) (len : Nat) : Bool :=
  decide (len ≤ 1522) && tag.all (fun v => decide (v ≠ 0) && s.eth[port]?.any (fun e => decide (e.vid = v)))
/-- A frame arrives: lost at a port that is not up (R461), discarded where it does not fit (R459), else counted and taken. -/
def ethTake (port : Nat) (tag : Option Nat) (len : Nat) (s : State) (run : State → Host.Outcome State Fault Refusal) : Host.Outcome State Fault Refusal :=
  if !ethUp s port then .next (missedRx port s)
  else
    let s1 := countRx port s
    if ethFits s port tag (len + 4 * tag.toList.length) then run s1 else .next (ethDrop port s1)
/-- Bytes of an untagged Ethernet frame that carries a UDP datagram: headers of 14, 20 and 8 bytes and the check sequence. -/
def udpLength (b : Bytes) : Nat := b.length + 46

/-- UDP_DATAGRAM (R67, R71 to R75). A datagram that finds its port down, or its island's clock stopped, is not
received and counts in rx_dropped (R461). -/
def execUdpDatagram (port : Nat) (tag : Option Nat) (srcIp : U32) (srcPort : U16) (bytes : Bytes) (s : State) : Host.Outcome State Fault Refusal :=
  ethTake port tag (udpLength bytes) s fun s1 =>
    let n := bytes.length
    let sid := u32At bytes 0
    let body := bytes.take (n - 8)
    let mac := bytes.drop (n - 8)
    let packet := body.drop 8
    if n < 28 then .next (udpAuthFail port srcIp sid s1)
    else if sid = 0 then .next (udpOpen port srcIp srcPort body mac packet s1)
    else
      match findSession s1 port sid with
      | none => .next (udpAuthFail port srcIp sid s1)
      | some x => .next (udpSession port srcIp srcPort x (u32At bytes 4) body mac packet s1)

/-- SESSION_IDLE_TIMEOUT (R70): 60 s without an accepted request. -/
def execSessionIdleTimeout (port : Nat) (session : U32) (s : State) : Host.Outcome State Fault Refusal :=
  match findSession s port session with
  | none => .next s
  | some x => .next (closeSession port session 0 (advanceTo (x.lastReq + 60000000000) s))

/-! ### Rows of split opcodes -/

/-- The kind byte of a request. -/
def kindByte (r : Req) : Nat := n8At (reqParams r) 0

/-- A request of an opcode whose kind byte is this one. -/
def isOpKind (op : U16) (k : Nat) (r : Req) : Bool := isOp op r && decide (kindByte r = k) && !(reqParams r).isEmpty
/-- A request of an opcode whose kind byte is none of those that later rows take. -/
def isOpElse (op : U16) (ks : List Nat) (r : Req) : Bool := isOp op r && ((reqParams r).isEmpty || !ks.contains (kindByte r))


/-! ### System cards -/

/-- Every lifecycle state admits the request. -/
def anyLc (_ : State) (_ : Req) : Bool := true

/-- The parameters have exactly this length. -/
def lenIs (r : Req) (n : Nat) : Bool := decide ((reqParams r).length = n)

/-- SYS_IDENTIFY's payload (R80's card). -/
def identifyPayload (s : State) : Bytes :=
  n32 0x00960000 ++ n16 0x00B1 ++ n8 (lcCode s.sys.lifecycle) ++ n8 (devCode s.sys.dev) ++ le32 Config.romVersion
    ++ le32 s.sys.imageVersion ++ uidBytes s ++ n8 s.sys.bootsel ++ [s.sys.cause] ++ zeros 2

/-- SYS_IDENTIFY. -/
def cardIdentify : Card :=
  { lifecycle := anyLc, allowed := fun _ => true,
    run := fun s r => if lenIs r 0 then .done s (identifyPayload s) else rejectWith E_PARAM }

def execSysIdentify (via : Transport) (s : State) : Host.Outcome State Fault Refusal :=
  .next (runCard (isOp 0x0100#16) cardIdentify via s)

/-- Entries not yet returned by EVT_READ. -/
def unreadCount (s : State) : Nat := (s.evt.entries.filter (fun e => !e.read)).length

/-- SYS_STATUS's payload. -/
def statusPayload (s : State) : Bytes :=
  n8 (devCode s.sys.dev) ++ n8 (lcCode s.sys.lifecycle)
    ++ n8 (flag s.safe.block.isSome 0 + flag (s.sys.dev == .safe) 1 + flag s.sys.stateChange 2) ++ [0]
    ++ le32 s.img.rate ++ n16 s.evt.entries.length ++ n16 (unreadCount s) ++ le32 s.evt.lost ++ le32 s.sys.requests
    ++ le32 s.sys.errors ++ n16 s.sys.longs.length ++ [s.sys.cause] ++ [0] ++ le32 (activeTime s)

/-- SYS_STATUS. -/
def cardStatus : Card :=
  { lifecycle := anyLc, allowed := fun _ => true,
    run := fun s r => if lenIs r 0 then .done s (statusPayload s) else rejectWith E_PARAM }

def execSysStatus (via : Transport) (s : State) : Host.Outcome State Fault Refusal :=
  .next (runCard (isOp 0x0101#16) cardStatus via s)

/-- A reset is due 100 us from now; one that is already due earlier stands, as the cold one of a transition if this one is that
(R121, R545; log 118). -/
def scheduleReset (cause : Byte) (s : State) : State :=
  let due := match s.sys.resetDue with
    | none => (s.time.raw + 100000, cause)
    | some (t, c) => (t, if cause = 0x06#8 then cause else c)
  { s with sys := { s.sys with resetDue := some due } }

/-- SYS_RESET: the reset starts 100 us after the reply (R121). -/
def cardReset : Card :=
  { lifecycle := anyLc, allowed := fun d => decide (d ≠ .run),
    run := fun s r =>
      let p := reqParams r
      if p.length ≠ 4 ∨ byteAt p 1 ≠ 0 ∨ u16At p 2 ≠ 0x5AA5#16 ∨ (n8At p 0 ≠ 1 ∧ n8At p 0 ≠ 2) then rejectWith E_PARAM
      else .done (scheduleReset (if n8At p 0 = 1 then 0x12#8 else 0x05#8) s) (n32 100) }

def execSysReset (via : Transport) (s : State) : Host.Outcome State Fault Refusal :=
  .next (runCard (isOp 0x0102#16) cardReset via s)

/-- Every stage, forming unit and field output is OFF (R83). -/
def allOff (s : State) : Bool :=
  (List.range 8).all (fun n => stageOff s n) && s.fus.all (fun f => f.mode == .off)
    && (List.range 8).all (fun o => !(s.field.doCmd.getLsbD o) && (s.field.shutting.getD o none).isNone)

/-- The READY condition of R79: committed parameters in PRODUCTION or COMMISSIONED; DEVELOP needs none. -/
def readyMet (s : State) : Bool :=
  match s.sys.lifecycle with
  | .develop => true
  | .production => s.safe.block.isSome
  | .commissioned => s.safe.block.isSome
  | _ => false

/-- A field output is commanded off: its waiting switch-on is removed, and its shutdown begins (R138, R430). -/
def outputOff (o : Nat) (reason : Nat) (s : State) : State := commandOff o (removeOutputStart o reason s)

/-- RUN to READY completes once every function is OFF (R83). -/
def finishStateChange (s : State) : State :=
  if s.sys.stateChange && allOff s then
    let s1 := leaveRun 2 { s with sys := { s.sys with stateChange := false } }
    let s2 := setDev .ready 0x0103 (dropPermits s1)
    endLong 0x0103#16 0 OK [] s2
  else s

/-- The pulse-off path test of R417 has passed: 24 h count anew. -/
def pathTestDone (s : State) : State :=
  { s with safe := { s.safe with testDue := false, runTime := 0, lastTest := s.time.raw } }

/-- A target that SYS_SET_STATE refuses by the device state (R79, R83): step 8 of R55, before the reserved bytes. -/
def pairRefused (s : State) (tgt : Nat) : Bool :=
  match s.sys.dev, tgt with
  | .config, 2 => !readyMet s
  | .config, 3 => true
  | .run, 1 => true
  | _, _ => false

/-- SYS_SET_STATE (R79, R83, R84, R417). `fail` is the pull-down that the path test finds failed, if any: the channel
(0 Sorrel, 1 safety processor) and its index. Starts that wait in the governor's queues are removed as RUN begins to end (log 186). -/
def setStateRun (fail : Option (Nat × Nat)) (s : State) (r : Req) : CardResult :=
  let p := reqParams r
  let tgt := n8At p 0
  let pay (s : State) : Bytes := n8 (devCode s.sys.dev) ++ zeros 3
  if s.sys.stateChange ∧ tgt = 3 then shuttingDown (stateChangeLeft s)
  else if pairRefused s tgt then rejectWith E_STATE
  else if p.length ≠ 4 ∨ !zeroAt p 1 3 ∨ tgt = 0 ∨ tgt > 3 then rejectWith E_PARAM
  else if s.sys.stateChange ∧ tgt = 2 then rejectWith E_BUSY
  else if tgt = devCode s.sys.dev then .done s (pay s)
  else
    match s.sys.dev, tgt with
    | .config, 2 =>
      match fail with
      | none => let t := setDev .ready 0x0103 (pathTestDone s); .done t (pay t)
      | some (ch, idx) => .failed (safetyActs rSELFTEST ch 0xFF (post 0x0A06#16 0 (n8 ch ++ n8 idx) s)) E_VERIFY []
    | .ready, 1 => let t := setDev .config 0x0103 s; .done t (pay t)
    | .ready, 3 =>
      let t := jtagYield <| setDev .run 0x0103 <| grantPermits { s with safe := { s.safe with runSince := some s.time.raw, elems := s.safe.elems.map (fun _ => { since := none, armed := false }) } }
      .done t (pay t)
    | .run, 2 =>
      if classFull s 0x0103#16 then rejectWith E_BUSY else
        let s1 := emptyGovernor 2 { s with sys := { s.sys with stateChange := true } }
        let s2 := forEach (List.range 8) (fun n => normalShutdown n 0) s1
        let s3 := forEach (List.range 8) (fun o => outputOff o 2) s2
        .long s3 0 (if allOff s3 then n8 (devCode .ready) ++ zeros 3 else pay s3)
    | _, _ => rejectWith E_STATE

/-- READY is refused by lifecycle in BLANK, RETURN and END (R79). -/
def setStateLc (s : State) (r : Req) : Bool :=
  !(decide (n8At (reqParams r) 0 = 2) && (s.sys.lifecycle == .blank || s.sys.lifecycle == .returned || s.sys.lifecycle == .ended))

def cardSetState (fail : Option (Nat × Nat)) : Card :=
  { lifecycle := setStateLc, allowed := fun d => d == .config || d == .ready || d == .run, run := setStateRun fail }

def execSysSetState (via : Transport) (fail : Option (Nat × Nat)) (s : State) : Host.Outcome State Fault Refusal :=
  .next (finishStateChange (runCard (isOp 0x0103#16) (cardSetState fail) via s))

/-- P of R33 for a rate, rounded to the nearest ns. -/
def pubPeriod (rate : Nat) : Nat := (2 * 1000000000 + rate) / (2 * rate)

/-- SYS_PUBLISH_RATE (R34). -/
def cardPublishRate : Card :=
  { lifecycle := anyLc, allowed := inAll4,
    run := fun s r =>
      let p := reqParams r
      let n := n32At p 0
      if p.length ≠ 4 ∨ n < 1000 ∨ n > 20000 then rejectWith E_PARAM
      else .done { s with img := { s.img with newRate := u32At p 0 } } (n32 n ++ n32 (pubPeriod n)) }

def execSysPublishRate (via : Transport) (s : State) : Host.Outcome State Fault Refusal :=
  .next (runCard (isOp 0x0104#16) cardPublishRate via s)

/-! ### Event cards -/

/-- An event log entry's 16 bytes. -/
def entryBytes (e : LogEntry) : Bytes := le32 e.time ++ le16 e.code ++ [e.source, e.rept] ++ slice e.data 0 8

/-- Mark the first n unread entries read. -/
def markRead : Nat → List LogEntry → List LogEntry
  | _, [] => []
  | 0, l => l
  | n + 1, e :: t => if e.read then e :: markRead (n + 1) t else { e with read := true } :: markRead n t

/-- EVT_READ (R89). Where it returns no entry, first_seq is the sequence of the next new entry (log 131). -/
def cardEvtRead : Card :=
  { lifecycle := anyLc, allowed := inAll4,
    run := fun s r =>
      let p := reqParams r
      let m := n16At p 0
      if p.length ≠ 4 ∨ !zeroAt p 2 2 ∨ m < 1 ∨ m > 63 then rejectWith E_PARAM
      else
        let u := s.evt.entries.filter (fun e => !e.read)
        let got := u.take m
        let first := match got with | e :: _ => e.seq | [] => s.evt.nextSeq
        .done { s with evt := { s.evt with entries := markRead m s.evt.entries } }
          (n16 got.length ++ n16 (u.length - got.length) ++ le32 first ++ got.flatMap entryBytes) }

def execEvtRead (via : Transport) (s : State) : Host.Outcome State Fault Refusal :=
  .next (runCard (isOp 0x0110#16) cardEvtRead via s)

/-- a is beyond b by signed 32-bit difference (R90). -/
def seqAfter (a b : U32) : Bool := decide (0 < (a - b).toInt)

/-- Once an entry is freed after drops, LOG_OVERFLOW is written and the counter cleared (R87). -/
def overflowEntry (s : State) : State :=
  if s.evt.lost ≠ 0 ∧ s.evt.entries.length < 4095 then
    post 0x0104#16 0 (le32 s.evt.lost) { s with evt := { s.evt with lost := 0 } }
  else s

/-- The sequence of the newest read entry, or of the newest acknowledged one if none is left. -/
def newestRead (s : State) : U32 :=
  match (s.evt.entries.filter (·.read)).getLast? with
  | some e => e.seq
  | none => (match s.evt.entries.head? with | some e => e.seq | none => s.evt.nextSeq) - 1

/-- EVT_ACK (R87, R90). -/
def cardEvtAck : Card :=
  { lifecycle := anyLc, allowed := inAll4,
    run := fun s r =>
      let p := reqParams r
      let upto := u32At p 0
      if p.length ≠ 4 ∨ seqAfter upto (newestRead s) then rejectWith E_PARAM
      else
        let keep := s.evt.entries.filter (fun e => !(e.read && !seqAfter e.seq upto))
        let n := s.evt.entries.length - keep.length
        let s1 := { s with evt := { s.evt with entries := keep } }
        let s2 := if n > 0 then overflowEntry s1 else s1
        .done s2 (n16 n ++ n16 s2.evt.entries.length) }

def execEvtAck (via : Transport) (s : State) : Host.Outcome State Fault Refusal :=
  .next (runCard (isOp 0x0111#16) cardEvtAck via s)

/-- EVT_MASK (R91). -/
def cardEvtMask : Card :=
  { lifecycle := anyLc, allowed := inAll4,
    run := fun s r =>
      let p := reqParams r
      let n := n16At p 4
      if n > 8 ∨ p.length ≠ 8 + 2 * n ∨ !zeroAt p 6 2 ∨ !zeroAt p 2 2 then rejectWith E_PARAM
      else .done { s with evt := { s.evt with mask := u32At p 0, excl := (List.range n).map (fun i => u16At p (8 + 2 * i)) } } (le32 (u32At p 0)) }

def execEvtMask (via : Transport) (s : State) : Host.Outcome State Fault Refusal :=
  .next (runCard (isOp 0x0112#16) cardEvtMask via s)

/-! ### Opcodes without a card -/

/-- UNASSIGNED_OPCODE (R82): every check that can fail ends in a rejection, the third with E_OPCODE. -/
def cardUnassigned : Card :=
  { lifecycle := anyLc, allowed := fun _ => true, run := fun _ _ => rejectWith E_OPCODE }

def execUnassignedOpcode (via : Transport) (s : State) : Host.Outcome State Fault Refusal :=
  .next (runCard (fun r => !assigned (reqOpcode r) && decide (opClass (reqOpcode r) ≠ 0x7F)) cardUnassigned via s)

/-- VENDOR_TEST_OPCODE (R81): E_LIFECYCLE, E_AUTH, or carried on by the vendor session, of which the spec says only
that its opcodes are not documented; there the model stops. -/
def execVendorTestOpcode (via : Transport) (s : State) : Host.Outcome State Fault Refusal :=
  match nextRequest s via with
  | none => .next s
  | some r =>
    if opClass (reqOpcode r) ≠ 0x7F then .next s
    else
      match headerCheck (dropRequest s via) r with
      | some st => .next (flushTurn r.via (replyTo r st [] (dropRequest s via)))
      | none => .refused (.vendorTest (reqOpcode r))

end Sys2Proof.Machine
end

