-- ==== Sys2Proof/Machine/OpsGrid.lean ====
section
/-! DEFINITION. The measurement of SF5 and its trip elements (R408 to R411). -/

namespace Sys2Proof.Machine

open Sys2Proof

def updGrid (f : GridMeas → GridMeas) (s : State) : State := { s with safe := { s.safe with grid := f s.safe.grid } }

/-- The voltage channels that a block uses: two in split-phase, else three. -/
def gridChans (b : Bytes) : Nat := if splitPhase b then 2 else 3
/-- Samples in 1 / f_n, one per round. -/
def gridWindow (b : Bytes) : Nat := (1000000 + n16At b 0x2C / 2) / n16At b 0x2C

/-- v of a channel of the block: v_scale x (raw - v_zero), rounded once (R408). -/
def gridVolt (s : State) (b : Bytes) (i : Nat) : F32 :=
  toF32 (f32Val (u32At b (0x38 + 4 * i)) * (rawOf (getFch s (n8At b (0x34 + i))).q - f32Val (u32At b (0x44 + 4 * i))))

/-- V of the first channel is at least 0.3 p.u. (R408). -/
def gridLive (b : Bytes) (g : GridMeas) : Bool := decide (10 * f32Val (g.volts.getD 0 0) ≥ 3 * f32Val (u32At b 0x30))

/-- The vector shift of the newest period against the mean of the four before (R408). -/
def gridShift (c : List Nat) : Option F32 :=
  match c with
  | c0 :: c1 :: _ :: _ :: _ :: c5 :: _ =>
    let tl : Rat := ((c0 - c1 : Nat) : Rat)
    let tm : Rat := ((c1 - c5 : Nat) : Rat) / 4
    if tm = 0 then none else some (toF32 (360 * ratAbs (tl - tm) / tm))
  | _ => none

/-- The safety processor takes the raw values of a round (R395). -/
def gridSample (t : Nat) (s : State) : State :=
  match s.safe.block with
  | none => s
  | some b =>
    if !sf5On b then s
    else
      let vs := (List.range 3).map (gridVolt s b)
      let old := (s.safe.grid.samples.getD 0 []).head?
      let crossing : Bool := match old with | some o => decide (f32Val o < 0) && decide (0 ≤ f32Val (vs.getD 0 0)) | none => false
      updGrid (fun g =>
        let c := if crossing then (t :: g.cross).take 6 else g.cross
        { g with samples := (List.range 3).map (fun i => (vs.getD i 0 :: g.samples.getD i []).take (gridWindow b)), cross := c
                 vshift := if crossing ∧ gridLive b g then gridShift c else g.vshift }) s

/-- The rms value of a channel over its window. -/
def gridRms (l : List F32) : F32 :=
  if l.isEmpty then 0 else toF32 (ratSqrt ((l.map (fun x => f32Val x * f32Val x)).sum / (l.length : Rat)))

/-- The quantities of a safety cycle (R408). -/
def gridQuantities (b : Bytes) (g : GridMeas) : GridMeas :=
  let volts := (List.range 3).map (fun i => if i < gridChans b then gridRms (g.samples.getD i []) else 0)
  let g1 := { g with volts := volts }
  let live := gridLive b g1
  let f : Option F32 := match live, g.cross with
    | true, c0 :: _ :: _ :: _ :: c4 :: _ => if c0 = c4 then none else some (toF32 (4000000000 / ((c0 - c4 : Nat) : Rat)))
    | _, _ => none
  let rocof : Option F32 := match f, g.fHist.getD 199 none with
    | some a, some o => some (toF32 (ratAbs (f32Val a - f32Val o) * 5))
    | _, _ => none
  let high := ((volts.take (gridChans b)).map f32Val).foldl max 0
  let sum := g.v10Sum + high
  let g2 := { g1 with freq := f, fHist := (f :: g.fHist).take 200, rocof := rocof, vshift := if live then g.vshift else none }
  if g.v10Count + 1 ≥ 1000 then
    let secs := (sum / 1000 :: g.v10Secs).take 600
    { g2 with v10Sum := 0, v10Count := 0, v10Secs := secs, v10 := toF32 (secs.sum / (secs.length : Rat)) }
  else { g2 with v10Sum := sum, v10Count := g.v10Count + 1 }

/-- The value that an element compares: p.u., Hz, Hz/s or degrees; none while it is not evaluated (R408, R409). -/
def elemValue (b : Bytes) (g : GridMeas) (e : TripElem) : Option Rat :=
  let base := f32Val (u32At b 0x30)
  let vs := (g.volts.take (gridChans b)).map f32Val
  match e.quantity with
  | 1 => some ((if e.under then vs.foldl min (vs.getD 0 0) else vs.foldl max 0) / base)
  | 2 => some (f32Val g.v10 / base)
  | 3 => g.freq.map f32Val
  | 4 => g.rocof.map f32Val
  | 5 => g.vshift.map f32Val
  | _ => none

/-- The hysteresis of an element (R409). -/
def elemHyst (e : TripElem) : Rat :=
  match e.quantity with
  | 1 => 1 / 100 | 2 => 1 / 100 | 3 => 2 / 100 | _ => f32Val e.thr / 10

/-- An element's timer after a cycle at an instant (R409, R410). -/
def elemStep (e : TripElem) (v : Option Rat) (now : Nat) (t : TripTimer) : TripTimer :=
  match v with
  | none => { t with since := none }
  | some q =>
    let thr := f32Val e.thr
    let beyond := if e.under then decide (q < thr) else decide (q > thr)
    let back := if e.under then decide (q ≥ thr + elemHyst e) else decide (q ≤ thr - elemHyst e)
    let armed := t.armed || (e.under && decide (q > thr + elemHyst e))
    { armed := armed, since := if back then none else match t.since with | some x => some x | none => if beyond && (armed || !e.under) then some now else none }

/-- Every quantity that the GRID set names lies inside its threshold (R411). -/
def gridInside (b : Bytes) (g : GridMeas) : Bool :=
  (List.range 8).all (fun i =>
    let e := tripElem b false i
    if e.quantity = 0 then true
    else match elemValue b g e with
      | some q => if e.under then decide (q ≥ f32Val e.thr) else decide (q ≤ f32Val e.thr)
      | none => false)

/-- SF5's part of a safety cycle (R408 to R411). -/
def gridCycle (s : State) : State :=
  match s.safe.block with
  | none => s
  | some b =>
    if !sf5On b then s
    else
      let s1 := updGrid (gridQuantities b) s
      let now := s1.time.raw
      let island := match setInput b with | some n => s1.safe.proc.level.getLsbD n | none => false
      let el0 := if island = s1.safe.islandSet then s1.safe.elems else List.replicate 8 tripTimer0
      let el := if s1.sys.dev = .run then el0.mapIdx (fun i t => let e := tripElem b island i; elemStep e (elemValue b s1.safe.grid e) now t) else List.replicate 8 tripTimer0
      { s1 with safe := { s1.safe with islandSet := island, elems := el
                                       insideSince := if gridInside b s1.safe.grid then some (s1.safe.insideSince.getD now) else none } }

end Sys2Proof.Machine
end

