-- ==== Sys2Proof/Machine/Sense.lean ====
section
/-! DEFINITION. Sense inputs: rounds, SAR conversions, stuck bitstreams, the reference, calibration, accumulators and
trackers, urgent conversions and their cards (spec/06). -/

namespace Sys2Proof.Machine

open Sys2Proof

/-! ### Rounds (R24, R26, R162, R166 to R170, R177, R190 to R199) -/

/-- Apply a setting at a round boundary (SNS_CONFIG). The codes of the window comparators stay as they are (log 191). -/
def applyConf (round : Nat) (k : SenseConf) (s : State) : State :=
  match k with
  | .chan c delay foc scale zero n m =>
    let t := updSense c (fun x =>
      let y := { x with delay := delay, focDec := foc, nomScale := scale, nomZero := zero, scale := scale, zero := zero }
      if x.slowN = n ∧ x.slowM = m then y
      else { y with slowN := n, slowM := m, slowInt := List.replicate n 0, slowComb := List.replicate n 0, slowCount := 0, slowOk := false, slowOut := 0 }) s
    if c < 48 then focEval c t else t
  | .seq c l => updCore c (fun x => { x with seq := l, anchor := round }) s
  | .acc i a b mode =>
    let x := { acc0 with a := a, b := b, mode := mode }
    { s with sense := { s.sense with accs := upd s.sense.accs i (fun _ => { x with pub := accEntry x 0 }) } }
  | .mmx i src mode =>
    let x := { mmx0 with src := src, mode := mode }
    { s with sense := { s.sense with mmxs := upd s.sense.mmxs i (fun _ => { x with pub := mmxEntry x }) } }

/-- Filter sets and assignments requested take effect (R205, R207). A changed assignment starts anew. Where only T
changed, the FIR history is cleared and the channel settles again, with its bits, its last output and its measurements
kept. Where T is unchanged everything is kept. An assignment that fails R198 with the lanes then in service stops (R215). The
round of the change's own boundary is the first of its window, and until its first output a slot delivers 0 (log 193). -/
def applyFilters (s : State) : State :=
  if !s.flt.changed then s
  else
    let old := s.flt
    let s1 := { s with flt := { s.flt with sets := s.flt.setsReq, assigns := s.flt.assignsReq, changed := false } }
    let fails (s : State) (c : Nat) : Bool := match assignOf s.flt.assigns c with | some x => !withinBudget (lanes s) x (tapsOf s.flt.sets x) | none => false
    let s2 := forEach (List.range 80) (fun c s =>
      let a := assignOf old.assigns c
      let b := assignOf s.flt.assigns c
      let sameT := match a with | some x => decide (tapsOf old.sets x = tapsOf s.flt.sets x) | none => true
      if a ≠ b then unsettle c (updFch c (fun x => { fltCh0 with sat := x.sat, caps := x.caps }) s)
      else if sameT then s
      else unsettle c (updFch c (fun x => { x with hist := [], stopped := x.stopped && fails s c }) s)) s1
    stopAssigned s2.flt.lostLane ((List.range 80).filter (fails s2)) s2

/-- The input of the FIR stage and the running state of a channel in a round: `bits` are the bits captured since the
previous round, oldest first; `fb` tells that the Filter island is on fallback (R445). Until the reference is settled an
analog channel reads 0.0 (R171). -/
def stepInput (s : State) (fb : Bool) (a : Assign) (bits : List Bool) (x : FltCh) : FltCh × Option Int :=
  if a.ch < 48 then
    if !(mclkRuns s (a.ch / 6)) then (silenced x, none)
    else
      let y := { x with bits := (bits.reverse ++ x.bits).take (a.n * (a.m - 1) + 1), idle := false }
      (y, if fb || x.stopped then none else some (sincOut a.n a.m y.bits))
  else if s.sense.refState ≠ 2 then ({ x with hist := [], q := 0 }, if fb || x.stopped then none else some 0)
  else
    (x, if fb || x.stopped then none else some (match (getSense s a.ch).conv with | some (code, _) => (code * 128 : Nat) | none => 0))

/-- The output of a channel for round r (R195, R196). -/
def stepOutput (s : State) (a : Assign) (r : Nat) (x : FltCh) (i : Option Int) : FltCh × Bool :=
  match i with
  | none => (x, false)
  | some v =>
    match a.set.bind (fun k => s.flt.sets.getD k none) with
    | none => ({ x with q := v, rounds := x.rounds + 1 }, false)
    | some f =>
      let y := { x with hist := (v :: x.hist).take f.taps, rounds := x.rounds + 1 }
      if a.r ≠ 0 ∧ r % a.r ≠ 0 then (y, false)
      else
        let (q, sat) := firOut (coefs s f) y.hist
        ({ y with q := q, sat := if sat then y.sat + 1 else y.sat }, sat)

/-- The capture term of every channel is measured at every round in which it captures (R211). -/
def measureCaps (r : Nat) (caps : List Nat) (s : State) : State :=
  forEach (List.range 80) (fun c s =>
    let cap : Option Nat :=
      if c < 48 then (if mclkRuns s (c / 6) then some (caps.getD c 0) else none)
      else (getSense s c).conv.map (fun q => (r * 1000 - (q.2 + 60)) * 4 / 5)
    updFch c (fun x => { x with caps := (cap :: x.caps).take 1024 }) s) s

/-- One channel's filter chain in a round; a saturation posts event 0x0500 (R195, R216). -/
def roundChannel (r : Nat) (fb : Bool) (bits : List (List Bool)) (a : Assign) (s : State) : State :=
  let x := getFch s a.ch
  let (y, i) := stepInput s fb a (bits.getD a.ch []) x
  let (z, sat) := stepOutput s a r y i
  let s1 := updFch a.ch (fun _ => z) s
  if sat then postMerge 0x0500#16 a.ch (le32 z.sat) s1 else s1

/-- The channel's value in a round is not new (R188, R190, R208, R445). -/
def chanStale (s : State) (fb : Bool) (c : Nat) : Bool :=
  (getSense s c).stuck || (decide (c < 48) && !(mclkRuns s (c / 6))) || chanLost s c || !(chanSettled s c) || fb

/-- One step of a slow path (R177): N integrators at the round rate, N combs at the output rate, unity gain at DC. -/
def slowStep (t : Nat) (v : F32) (x : SenseCh) : SenseCh × Option F32 :=
  if x.slowN = 0 then (x, none)
  else
    let inp := ratFloor (f32Val v * 2 ^ 149)
    let ints := (x.slowInt.foldl (fun (p : List Int × Int) i => (p.1 ++ [i + p.2], i + p.2)) ([], inp))
    let y := { x with slowInt := ints.1, slowCount := x.slowCount + 1 }
    if x.slowM = 0 ∨ t / 1000 % x.slowM ≠ 0 then (y, none)
    else
      let combs := x.slowComb.foldl (fun (p : List Int × Int) c => (p.1 ++ [p.2], p.2 - c)) ([], ints.2)
      let out := toF32 (mkRat combs.2 (x.slowM ^ x.slowN) / 2 ^ 149)
      ({ y with slowComb := combs.1, slowOut := out }, some out)

/-- A calibration takes this round's sample (R173 to R175). -/
def calStep (s : State) (rv : RoundVals) (k : CalRun) : CalRun :=
  if k.left = 0 then k
  else
    let v : Option Rat :=
      if k.slow then
        match rv.slow.getD k.ch none with
        | some y => if k.started then some (f32Val y / f32Val (getSense s k.ch).scale + f32Val (getSense s k.ch).zero) else none
        | none => none
      else match rv.vals.getD k.ch none with
        | some _ => some (rawOf (getFch s k.ch).q)
        | none => none
    match v with
    | some x => { k with started := true, left := k.left - 1, sum := k.sum + x, sumSq := k.sumSq + x * x }
    | none => { k with started := true }

/-- The comparison of R168 ends: a mismatch found in every comparison made, while SAR4 read its check voltage right,
retires the core (R533). -/
def sarConclude (p : SarProbe) (s : State) : State :=
  let s1 := { s with sense := { s.sense with probe := none } }
  let phys := (getCore s p.core).phys.getD 0xFF
  if p.done > 0 ∧ p.bad = p.done ∧ p.good then decideRound { cls := 1, index := phys, row := 0, reason := 3 } s1
  else forEach (List.range (1 + p.bad)) (fun _ => transient 1 phys) s1

/-- The start of the round of the multiple t, stamped with the count that stands, which on fallback may lie beyond t (R24,
R445). A lane swap or a core's retirement comes before changes of the chain (R209);
a comparison of R168 whose 16 rounds are over ends. -/
def startRound (t : Nat) (bits : List (List Bool)) (caps : List Nat) (s : State) : State :=
  let s0 := foldRound t s
  let s1 := match s0.sense.probe with | some p => if p.last < t / 1000 then sarConclude p s0 else s0 | none => s0
  let s2 := measureCaps (t / 1000) caps (applyFilters (roundSwaps (s1.sense.confs.foldl (fun s k => applyConf (t / 1000) k s) { s1 with sense := { s1.sense with confs := [] } })))
  let fb := s.time.onFallback.getD 2 true
  let s3 := s2.flt.assigns.foldl (fun s a => roundChannel (t / 1000) fb bits a s) s2
  let vals := (List.range 80).map (fun c => if (assignOf s3.flt.assigns c).isSome then some (scaled (getSense s3 c) (getFch s3 c).q) else none)
  let stale := (List.range 80).filter (chanStale s3 fb)
  let slows : List (SenseCh × Option F32) := (List.range 80).map (fun c => match vals.getD c none with | some v => slowStep t v (getSense s3 c) | none => (getSense s3 c, none))
  let late := if s.sense.round.done.contains 79 then none else some s.sense.round
  let rv : RoundVals := { t := t, dom := timeNs s3 (countReached s3 t), vals := vals, stale := stale, slow := slows.map Prod.snd, done := [], folded := false, marks := s3.sense.calMarks }
  let s4 := { s3 with sense := { s3.sense with chans := slows.map Prod.fst, round := rv, late := late, past := (s3.sense.round :: s3.sense.past).take 70, nextRound := t + 1000, calMarks := [] } }
  gridSample t { s4 with sense := { s4.sense with cals := s4.sense.cals.map (calStep s4 rv) } }

/-- ROUND_START (R24, R445): `bits` are the bits that each bitstream input captured since the previous round, or since its
MCLK last began to run if that is later, oldest first; `caps` their measured capture terms in units of 1.25 ns (R211). -/
def execRoundStart (bits : List (List Bool)) (caps : List Nat) (s : State) : Host.Outcome State Fault Refusal :=
  let t := max s.sense.nextRound (s.time.raw / 1000 * 1000)
  .next (startRound t bits caps (advanceTo (countReached s t) s))

/-! ### SAR conversions (R166 to R168, R184) -/

/-- The entry of a core's sequence at a conversion position of a round (R166). -/
def seqEntry (c : SarCore) (round p : Nat) : Nat :=
  if c.seq.isEmpty then 0xFF else c.seq.getD ((5 * (round - c.anchor) + p) % c.seq.length) 0xFF

/-- A conversion's result (R167). -/
def storeConv (ch code start : Nat) (s : State) : State := updSense ch (fun x => { x with conv := some (code, start) }) s

/-- A waiting request is served by a conversion of an input that starts at an instant: it named the input, and the start
lies within 2 us after it left the queue (R185). -/
def servedBy (ain start : Nat) (w : SenseWait) : Bool := w.left.getLsbD ain && decide (w.at0 ≤ start) && decide (start ≤ w.at0 + 2000)

/-- The queued input of a core that an idle position starting at an instant converts: the first that it serves. -/
def urgentInput (s : State) (core start : Nat) : Option Nat :=
  (getCore s core).urgent.find? (fun i => s.sense.urgents.any (servedBy (8 * core + i) start))

/-- An urgent conversion of an input is made (R184, R185). The input stays queued while a request that left the queue
after the start still waits for it. -/
def urgentDone (core i code start : Nat) (s : State) : State :=
  let ain := 8 * core + i
  let s1 := storeConv (48 + ain) code start s
  let rt := timeAt s1 (countReached s1 (s1.sense.round.t + 1000))
  let s2 := { s1 with sense := { s1.sense with
      urgentDone := s1.sense.urgentDone + 1
      urgents := s1.sense.urgents.map (fun w => if servedBy ain start w then
        { w with left := w.left &&& ~~~(1#32 <<< ain), conv := w.conv ||| (1#32 <<< ain), round := rt } else w) } }
  if s2.sense.urgents.any (fun w => w.left.getLsbD ain) then s2 else updCore core (fun x => { x with urgent := x.urgent.filter (· ≠ i) }) s2

/-- SAR4's check of a conversion (R168, R533): more than 32 LSB apart is a mismatch; the comparison goes on over the next
16 rounds, in each in which position 0 converts, and a mismatch that persists in all of them while SAR4 reads its check
voltage within 8 LSB retires the core. Mismatches that do not are transient. SAR4 itself is retired where it reads its check voltage
outside 8 LSB twice within 1 s; its check then gives no verdict (R534). -/
def sarCheck (core : Nat) (code : U16) (chk : U16 × U16) (s00 : State) : State :=
  let phys := (getCore s00 core).phys.getD 0xFF
  let s := { s00 with sense := { s00.sense with sarPairs := upd s00.sense.sarPairs phys (fun l => ((code.toNat, chk.1.toNat) :: l).take 64) } }
  if !(sar4Checks s00) then s00
  else
    let far (a b n : Nat) : Bool := decide (a > b + n) || decide (b > a + n)
    let bad := far code.toNat chk.1.toNat 32
    let volt := !(far chk.2.toNat 32768 8)
    let note (s : State) : State := postMerge 0x0404#16 phys (le16 code ++ le16 chk.1) { s with sense := { s.sense with sarMismatch := s.sense.sarMismatch + 1 } }
    match s.sense.probe with
    | none =>
      if !bad then s
      else note { s with sense := { s.sense with probe := some { core := core, last := s.sense.round.t / 1000 + 16, done := 0, bad := 0, good := true } } }
    | some p =>
      if p.core ≠ core then s
      else
        let recent := s.sense.voltBad.filter (fun t => decide (s.time.raw ≤ t + 1000000000))
        if !volt && !recent.isEmpty then decideRound { cls := 1, index := 4, row := 0, reason := 3 } { s with sense := { s.sense with probe := none } }
        else
          let q : SarProbe := { p with done := p.done + 1, bad := if bad then p.bad + 1 else p.bad, good := p.good && volt }
          let s1 := if volt then s else { s with sense := { s.sense with voltBad := s.time.raw :: recent } }
          let s2 := if bad then note s1 else s1
          if q.last ≤ s.sense.round.t / 1000 then sarConclude q s2
          else { s2 with sense := { s2.sense with probe := some q } }

/-- The code of a logical core: SAR4, once it serves one, corrects its own by the difference it measured (R169). -/
def sarCode (s : State) (core : Nat) (code : U16) : Nat :=
  match s.sense.sarFix with
  | some (o, g) => if (getCore s core).phys = some 4 then (ratClamp (ratRound (o + g * (code.toNat : Rat)) : Rat) 0 65535).floor.toNat else code.toNat
  | none => code.toNat

/-- The core SAR4 checks in a round: cores 0 to 3 in turn, or the one whose comparison it repeats. -/
def checkedCore (s : State) : Nat := match s.sense.probe with | some p => p.core | none => s.sense.round.t / 1000 % 4

/-- SAR_CONVERSION (R166): the conversion position p of a logical core completes with a code; `chk` holds SAR4's code of
the same sample and its reading of the 1.250 V check voltage, at position 0 of the core that it checks. -/
def execSarConversion (core p : Nat) (code : U16) (chk : Option (U16 × U16)) (s : State) : Host.Outcome State Fault Refusal :=
  let x := getCore s core
  if s.sense.refState ≠ 2 ∨ x.phys.isNone then .next s
  else
    let start := s.sense.round.t + 200 * p
    let s1 := advanceTo (start + 200) s
    let e := seqEntry x (s.sense.round.t / 1000) p
    let check (t : State) : State := match chk with | some k => if p = 0 ∧ checkedCore s = core then sarCheck core code k t else t | none => t
    if start < s.sense.refDue then .next s1
    else if e = 0xFF then
      match urgentInput s core start with
      | some i => .next (check (urgentDone core i (sarCode s core code) start s1))
      | none => .next s1
    else .next (check (storeConv (48 + 8 * core + e) (sarCode s core code) start s1))

/-! ### Stuck inputs (R164) and settling -/

/-- BS_STUCK: 64 capture instants without a transition. -/
def execBsStuck (ch : Nat) (level : Bool) (s : State) : Host.Outcome State Fault Refusal :=
  if (getSense s ch).stuck ∨ !(mclkRuns s (ch / 6)) then .next s
  else .next (postMerge 0x0401#16 ch (n8 (flag level 0)) (focEval ch (updSense ch (fun x => { x with stuck := true }) s)))

/-- BS_STUCK_CLEAR: the input shows a transition. -/
def execBsStuckClear (ch : Nat) (s : State) : Host.Outcome State Fault Refusal :=
  .next (updSense ch (fun x => { x with stuck := false }) s)

/-- REF_SETTLED (R171): 5 ms after the enable. -/
def execRefSettled (s : State) : Host.Outcome State Fault Refusal :=
  if s.sense.refState ≠ 1 then .next s
  else
    let s1 := advanceTo s.sense.refDue s
    .next (post 0x0400#16 0 [] { s1 with sense := { s1.sense with refState := 2 } })

/-- SLOW_PATH_SETTLED (R178): N M rounds after a change. -/
def execSlowPathSettled (ch : Nat) (s : State) : Host.Outcome State Fault Refusal :=
  let x := getSense s ch
  .next (if x.slowN > 0 ∧ x.slowCount ≥ x.slowN * x.slowM then updSense ch (fun y => { y with slowOk := true }) s else s)

/-- FILTER_SETTLED (R208): the sinc window and the FIR history have filled. -/
def execFilterSettled (ch : Nat) (s : State) : Host.Outcome State Fault Refusal :=
  match assignOf s.flt.assigns ch with
  | none => .next s
  | some a =>
    match settleNeed s s.flt.sets a with
    | some n => .next (if (getFch s ch).rounds ≥ n then updFch ch (fun x => { x with settled := true }) s else s)
    | none => .next s

/-! ### Cards -/

/-- A card of the sense class. -/
def snsCard (f : State → Req → CardResult) : Card := { lifecycle := anyLc, allowed := inAll4, run := f }

/-- Every stage is OFF. -/
def allStagesOff (s : State) : Bool := (List.range 8).all (fun n => stageOff s n)

/-- SNS_REF_ENABLE (R171, R172). With the reference off an input has no conversion, and reads 0.0 until a new one (log 192). -/
def refEnableRun (s : State) (r : Req) : CardResult :=
  let p := reqParams r
  if p.length ≥ 1 ∧ n8At p 0 = 0 ∧ (!allStagesOff s ∨ s.sense.cals.any (fun k => k.ch ≥ 48)) then rejectWith E_STATE
  else if p.length ≠ 4 ∨ n8At p 0 > 1 ∨ !zeroAt p 1 3 then rejectWith E_PARAM
  else
    let s1 := if n8At p 0 = 0 then { s with sense := { s.sense with refState := 0, chans := s.sense.chans.map (fun x => { x with conv := none }) } }
      else if s.sense.refState = 0 then { s with sense := { s.sense with refState := 1, refDue := s.time.raw + 5000000 } } else s
    .done s1 (n8 s1.sense.refState ++ zeros 3 ++ n32 (if s1.sense.refState = 1 then ceilDiv (s1.sense.refDue - s1.time.raw) 1000 else 0))

def execSnsRefEnable (via : Transport) (s : State) : Host.Outcome State Fault Refusal :=
  .next (runCard (isOp 0x0400#16) (snsCard refEnableRun) via s)

/-- Magnitude within a range. -/
def f32MagIn (x : F32) (lo hi : Rat) : Bool := !f32Bad x && decide (f32Val (toF32 lo) ≤ ratAbs (f32Val x)) && decide (ratAbs (f32Val x) ≤ f32Val (toF32 hi))

/-- SNS_CONFIG kind 0 (R161, R163, R177). -/
def cfgChannelRun (s : State) (r : Req) : CardResult :=
  let p := reqParams r
  let c := n8At p 1
  let n := n8At p 12
  let m := n32At p 16
  if p.length ≥ 2 ∧ c < 80 ∧ (readLive s c ∨ watchedLive s c) then rejectWith E_STATE
  else if p.length ≠ 20 ∨ n8At p 0 ≠ 0 ∨ c ≥ 80 ∨ n8At p 2 > 63 ∨ (n8At p 3 ≠ 0 ∧ (n8At p 3 < 8 ∨ n8At p 3 > 32)) ∨ (c ≥ 48 ∧ (n8At p 2 ≠ 0 ∨ n8At p 3 ≠ 0))
      ∨ !f32MagIn (u32At p 4) (1 / 1000000) 1000000 ∨ !f32In (u32At p 8) (-1) 1 ∨ n > 4 ∨ !zeroAt p 13 3
      ∨ (n = 0 ∧ m ≠ 0) ∨ (n ≠ 0 ∧ (m < 2 ∨ m > 1000000))
      ∨ (c < 48 ∧ (getOut s (c / 6)).enable ∧ delayTooLong (n8At p 2) (mclkPeriod s (c / 6))) then rejectWith E_PARAM
  else if chanLost s c then rejectWith E_RESOURCE
  else .done { s with sense := { s.sense with confs := s.sense.confs ++ [.chan c (n8At p 2) (n8At p 3) (u32At p 4) (f32Param (u32At p 8)) n m] } } []

def execSnsConfigChannel (via : Transport) (s : State) : Host.Outcome State Fault Refusal :=
  .next (runCard (isOpElse 0x0401#16 [1, 2, 3]) (snsCard cfgChannelRun) via s)

/-- SNS_CONFIG kind 1 (R166). -/
def cfgSequenceRun (s : State) (r : Req) : CardResult :=
  let p := reqParams r
  let c := n8At p 1
  let n := n8At p 2
  let l := (List.range 16).map (fun i => n8At p (4 + i))
  if p.length ≥ 2 ∧ c < 4 ∧ (List.range 8).any (fun i => readLive s (48 + 8 * c + i)) then rejectWith E_STATE
  else if p.length ≠ 20 ∨ c ≥ 4 ∨ n < 1 ∨ n > 16 ∨ n8At p 3 ≠ 0 ∨ (l.take n).any (fun v => v > 7 ∧ v ≠ 0xFF) ∨ (l.drop n).any (· ≠ 0xFF) then rejectWith E_PARAM
  else if (getCore s c).phys.isNone then rejectWith E_RESOURCE
  else .done { s with sense := { s.sense with confs := s.sense.confs ++ [.seq c (l.take n)] } } []

def execSnsConfigSequence (via : Transport) (s : State) : Host.Outcome State Fault Refusal :=
  .next (runCard (isOpKind 0x0401#16 1) (snsCard cfgSequenceRun) via s)

/-- The slow path of a channel as last requested. -/
def slowRequested (s : State) (c : Nat) : Bool :=
  s.sense.confs.foldl (fun b k => match k with | .chan d _ _ _ _ n _ => if d = c then decide (n > 0) else b | _ => b) (decide ((getSense s c).slowN > 0))
/-- A source code is valid; a slow-path source needs a slow path. -/
def sourceOk (s : State) (src : Nat) : Bool := decide (src < 80) || decide (src = 0xFF) || (decide (0x80 ≤ src) && decide (src ≤ 0xCF) && slowRequested s (src - 0x80))
/-- A source reads an input lost under R170. -/
def sourceLost (s : State) (src : Nat) : Bool := decide (src ≠ 0xFF) && chanLost s (if src ≥ 0x80 then src - 0x80 else src)

/-- SNS_CONFIG kind 2. -/
def cfgAccRun (s : State) (r : Req) : CardResult :=
  let p := reqParams r
  if p.length ≠ 8 ∨ n8At p 1 ≥ 64 ∨ !sourceOk s (n8At p 2) ∨ !sourceOk s (n8At p 3) ∨ n8At p 4 > 2 ∨ !zeroAt p 5 3 then rejectWith E_PARAM
  else if sourceLost s (n8At p 2) ∨ sourceLost s (n8At p 3) then rejectWith E_RESOURCE
  else .done { s with sense := { s.sense with confs := s.sense.confs ++ [.acc (n8At p 1) (n8At p 2) (n8At p 3) (n8At p 4)] } } []

def execSnsConfigAccumulator (via : Transport) (s : State) : Host.Outcome State Fault Refusal :=
  .next (runCard (isOpKind 0x0401#16 2) (snsCard cfgAccRun) via s)

/-- SNS_CONFIG kind 3. -/
def cfgTrackerRun (s : State) (r : Req) : CardResult :=
  let p := reqParams r
  if p.length ≠ 4 ∨ n8At p 1 ≥ 64 ∨ !sourceOk s (n8At p 2) ∨ n8At p 3 > 2 then rejectWith E_PARAM
  else if sourceLost s (n8At p 2) then rejectWith E_RESOURCE
  else .done { s with sense := { s.sense with confs := s.sense.confs ++ [.mmx (n8At p 1) (n8At p 2) (n8At p 3)] } } []

def execSnsConfigTracker (via : Transport) (s : State) : Host.Outcome State Fault Refusal :=
  .next (runCard (isOpKind 0x0401#16 3) (snsCard cfgTrackerRun) via s)

/-- SNS_CAL_ZERO and SNS_CAL_SPAN (R172 to R175). -/
def calRun (span : Bool) (s : State) (r : Req) : CardResult :=
  let p := reqParams r
  let c := n8At p 0
  let k : CalRun := { ch := c, span := span, slow := decide (n8At p 1 = 1), n := n16At p 2, applied := u32At p 4, started := false, left := n16At p 2, sum := 0, sumSq := 0 }
  if p.length ≥ 1 ∧ c < 80 ∧ (readLive s c ∨ watchedLive s c) then rejectWith E_STATE
  else if p.length ≠ (if span then 8 else 4) ∨ c ≥ 80 ∨ n8At p 1 > 1 ∨ n16At p 2 = 0 ∨ (span ∧ (f32Bad (u32At p 4) ∨ f32Val (u32At p 4) = 0))
      ∨ (n8At p 1 = 1 ∧ (getSense s c).slowN = 0) then rejectWith E_PARAM
  else if chanLost s c then rejectWith E_RESOURCE
  else if s.sense.cals.any (fun x => x.ch = c) ∨ classFull s (reqOpcode r) then rejectWith E_BUSY
  else if c ≥ 48 ∧ s.sense.refState ≠ 2 then rejectWith E_NOT_READY
  else .long { s with sense := { s.sense with cals := s.sense.cals ++ [k] } } c []

def execSnsCalZero (via : Transport) (s : State) : Host.Outcome State Fault Refusal :=
  .next (runCard (isOp 0x0402#16) (snsCard (calRun false)) via s)
def execSnsCalSpan (via : Transport) (s : State) : Host.Outcome State Fault Refusal :=
  .next (runCard (isOp 0x0403#16) (snsCard (calRun true)) via s)

/-- The population standard deviation of the raw samples. -/
def calSigma (k : CalRun) : F32 :=
  let m := k.sum / k.n
  let v := k.sumSq / k.n - m * m
  if v ≤ 0 then 0 else BitVec.ofNat 32 (min (sqrtMag v.num.toNat v.den) 0x7F800000)

/-- CAL_DONE (R173 to R176): the last sample is in; the coefficient takes effect at this round boundary. -/
def execCalDone (ch : Nat) (s : State) : Host.Outcome State Fault Refusal :=
  match s.sense.cals.find? (fun k => k.ch = ch ∧ k.left = 0) with
  | none => .next s
  | some k =>
    let s0 := foldRound s.sense.nextRound (advanceTo s.sense.nextRound s)
    let s1 := { s0 with sense := { s0.sense with cals := s0.sense.cals.erase k } }
    let x := getSense s1 ch
    let mean : Rat := k.sum / k.n
    let op : U16 := if k.span then 0x0403#16 else 0x0402#16
    if k.span then
      let d := mean - f32Val x.zero
      let sc := if d = 0 then 0 else f32Val k.applied / d
      let ratio := if f32Val x.nomScale = 0 then 0 else sc / f32Val x.nomScale
      if ratAbs d < 2 / 100 ∨ ratio < 8 / 10 ∨ ratio > 12 / 10 then .next (endLong op ch E_PARAM [] s1)
      else .next (endLong op ch OK (le32 (toF32 sc) ++ le32 x.scale ++ le32 (toF32 mean)) (coefChanged ch (updSense ch (fun y => { y with scale := toF32 sc }) s1)))
    else if ratAbs (mean - f32Val x.nomZero) > 1 / 10 then .next (endLong op ch E_PARAM [] s1)
    else .next (endLong op ch OK (le32 (toF32 mean) ++ le32 x.zero ++ le32 (calSigma k)) (coefChanged ch (updSense ch (fun y => { y with zero := toF32 mean }) s1)))

/-- A waiting request. -/
def senseWait (s : State) (r : Req) : SenseWait := { req := r, left := 0, conv := 0, drop := 0, at0 := s.time.raw, round := 0 }

/-- SNS_ACC_READ (R182): the sets are latched at the next round boundary, and the reply is formed there. -/
def accReadRun (s : State) (r : Req) : CardResult :=
  let p := reqParams r
  let first := n8At p 0
  let n := n8At p 1
  let fl := n8At p 2
  if p.length ≠ 4 ∨ first ≥ 64 ∨ n < 1 ∨ n > (if fl / 2 % 2 = 1 then 15 else 31) ∨ first + n > 64 ∨ fl > 3 ∨ n8At p 3 ≠ 0 then rejectWith E_PARAM
  else .later { s with sense := { s.sense with accRead := s.sense.accRead ++ [senseWait s r] } }

def execSnsAccRead (via : Transport) (s : State) : Host.Outcome State Fault Refusal :=
  .next (runCard (isOp 0x0404#16) (snsCard accReadRun) via s)

/-- The entries that a read returns: a FREE set as it stands, a PUBLICATION set as last published (R183; log 194). -/
def readAcc (s : State) (t : U32) (i : Nat) : Bytes := let x := getAcc s i; if x.mode = 2 then accEntry x t else x.pub
def readMmx (s : State) (i : Nat) : Bytes := let x := getMmx s i; if x.mode = 2 then mmxEntry x else x.pub

/-- ACC_LATCH (R179, R182, R183). -/
def execAccLatch (s : State) : Host.Outcome State Fault Refusal :=
  match s.sense.accRead with
  | [] => .next s
  | w :: rest =>
    let b := (w.at0 / 1000 + 1) * 1000
    let s1 := foldRound b (advanceTo (countReached s b) { s with sense := { s.sense with accRead := rest } })
    let p := reqParams w.req
    let is := (List.range (n8At p 1)).map (· + n8At p 0)
    let mm := decide (n8At p 2 / 2 % 2 = 1)
    let t := timeAt s1 (countReached s b)
    let pay := le32 t ++ n8 (n8At p 1) ++ zeros 3 ++ is.flatMap (readAcc s1 t) ++ (if mm then is.flatMap (readMmx s1) else [])
    let clr := decide (n8At p 2 % 2 = 1)
    let s2 := if !clr then s1 else
      { s1 with sense := { s1.sense with
          accs := s1.sense.accs.mapIdx (fun i x => if is.contains i ∧ x.mode = 2 then accClear x else x)
          mmxs := s1.sense.mmxs.mapIdx (fun i x => if mm ∧ is.contains i ∧ x.mode = 2 then mmxClear x else x) } }
    .next (replyLater w.req OK pay s2)

/-- Drop an urgent request (R185). -/
def dropUrgent (ain : Nat) (s : State) : State :=
  let n := s.sense.urgentDropped + 1
  postMerge 0x0403#16 ain (le32 n) { s with sense := { s.sense with urgentDropped := n } }

/-- SNS_URGENT (R184, R185): inputs enter their cores' queues in ascending order. -/
def urgentRun (s : State) (r : Req) : CardResult :=
  let p := reqParams r
  let mask := u32At p 0
  let ains := (List.range 32).filter (fun i => mask.getLsbD i)
  if p.length ≠ 4 ∨ mask = 0 then rejectWith E_PARAM
  else if ains.any (fun i => chanLost s (48 + i)) then rejectWith E_RESOURCE
  else if s.sense.refState ≠ 2 then rejectWith E_NOT_READY
  else
    let (w, s1) := ains.foldl (fun (q : SenseWait × State) i =>
      let c := i / 8
      let b := 1#32 <<< i
      if (getCore q.2 c).urgent.contains (i % 8) then ({ q.1 with left := q.1.left ||| b }, q.2)
      else if (getCore q.2 c).urgent.length ≥ 4 then ({ q.1 with drop := q.1.drop ||| b }, dropUrgent i q.2)
      else ({ q.1 with left := q.1.left ||| b }, updCore c (fun x => { x with urgent := x.urgent ++ [i % 8] }) q.2)) (senseWait s r, s)
    .later { s1 with sense := { s1.sense with urgents := s1.sense.urgents ++ [w] } }

def execSnsUrgent (via : Transport) (s : State) : Host.Outcome State Fault Refusal :=
  .next (runCard (isOp 0x0405#16) (snsCard urgentRun) via s)

/-- URGENT_REPLY (R185): what has not begun within 2 us is dropped; the reply is formed. -/
def execUrgentReply (s : State) : Host.Outcome State Fault Refusal :=
  match s.sense.urgents with
  | [] => .next s
  | w :: rest =>
    let s1 := { s with sense := { s.sense with urgents := rest } }
    let lost := (List.range 32).filter (fun i => w.left.getLsbD i)
    let s2 := if lost.isEmpty then s1 else advanceTo (w.at0 + 2000) s1
    let s3 := forEach lost (fun i s =>
      let keep := s.sense.urgents.any (fun v => v.left.getLsbD i)
      dropUrgent i (if keep then s else updCore (i / 8) (fun x => { x with urgent := x.urgent.filter (· ≠ i % 8) }) s)) s2
    .next (replyLater w.req OK (le32 w.conv ++ le32 (w.drop ||| w.left) ++ le32 w.round) s3)

end Sys2Proof.Machine
end

