-- ==== Sys2Proof/Machine/Clock.lean ====
section
/-! DEFINITION. Clock synthesis: plans, relocks, verification and gating, loss of lock, outputs (spec/05). -/

namespace Sys2Proof.Machine

open Sys2Proof

/-! ### Plans (R143, R152) -/

/-- The multiplication of the pre-scaler. -/
def preScale (mode : Nat) : Rat := match mode with | 0 => 1 | 1 => 2 | _ => 1 / 2
/-- f_PFD of a plan. -/
def fPfd (p : Plan) : Rat := f32Val p.fRef * preScale p.refMode
/-- N of a plan in units of 2^-24, rounded to nearest. -/
def planN (p : Plan) : Nat := if fPfd p = 0 then 0 else (ratRound (f32Val p.fDco / fPfd p * 2 ^ 24)).toNat

/-- A plan is within R143. -/
def planOk (pll : Nat) (p : Plan) : Bool :=
  let r := f32Val p.fRef
  let d := f32Val p.fDco
  let f := fPfd p
  let b := f32Val p.bw
  decide (p.refSrc < 3) && decide (p.refMode < 3) && !f32Bad p.fRef && !f32Bad p.fDco && !f32Bad p.bw
    && (match p.refSrc with
        | 0 => decide (20000000 ≤ r) && decide (r ≤ 50000000)
        | 1 => decide (10000000 ≤ r) && decide (r ≤ 100000000)
        | _ => decide (r = 100000000))
    && decide (10000000 ≤ f) && decide (f ≤ 100000000)
    && (if pll = 0 then decide (d = 4000000000) else decide (3000000000 ≤ d) && decide (d ≤ 4000000000))
    && decide (50000 ≤ b) && decide (b ≤ f / 20)

/-- A plan as 16 bytes of CLK_SET_PLAN. -/
def planAt (p : Bytes) (i : Nat) : Plan :=
  { refSrc := n8At p (i + 1), refMode := n8At p (i + 2), fRef := u32At p (i + 4), fDco := u32At p (i + 8), bw := u32At p (i + 12) }

/-- The lowest profile whose plan is the one in effect, 0xFF if none (R158). -/
def profileOf (x : Adpll) : Nat :=
  match x.profiles.findIdx? (fun o => match o with | some q => decide (q.plan = x.plan) | none => false) with
  | some i => i
  | none => 0xFF

/-! ### Relocks, gating and fallback (R144 to R149) -/

/-- The outputs of an ADPLL that exist to be released: A 0 to 3 the islands' clocks, B the enabled MCLKs and
SYNCCLK_OUT, and CLKOUT on the one that feeds it. -/
def pllOutputs (s : State) (i : Nat) : List Nat :=
  let clkout := if (getOut s 8).enable ∧ (getOut s 8).source = i then [8] else []
  if i = 0 then [0, 1, 2, 3] ++ clkout
  else (List.range 8).filter (fun g => (getOut s g).enable) ++ clkout ++ (if (getOut s 9).enable then [9] else [])

/-- The islands move to the fallback oscillator (R149); the interval on fallback is recorded (R444). -/
def toFallback (s : State) : State :=
  let s := if s.time.onFallback.getD 3 true then s else canClockLost s
  { s with time := { s.time with onFallback := List.replicate 5 true
                                 fbStart := if s.time.onFallback.getD 0 true then s.time.fbStart else some s.time.raw
                                 fbCount := if s.time.onFallback.getD 0 true then s.time.fbCount else s.time.fbCount + 1 } }

/-- The PWM island leaves fallback: the interval ends (R444). -/
def endFallback (s : State) : State :=
  match s.time.fbStart with
  | none => s
  | some t => { s with time := { s.time with fbNs := s.time.fbNs + (s.time.raw - t), fbStart := none, fbPast := (t, s.time.raw) :: s.time.fbPast } }

/-- Every output of an ADPLL: A 0 to 3 the islands' clocks and 8 CLKOUT, B 0 to 9. -/
def everyOutput (i : Nat) : List Nat := if i = 0 then [0, 1, 2, 3, 8] else List.range 10

/-- The outputs of an ADPLL are gated (R145): modulator clocks stop, and their channels settle anew later. -/
def gateOutputs (i : Nat) (s : State) : State :=
  let s1 := updPll i (fun x => { x with gated := everyOutput i, alignAt := none }) s
  if i = 0 then toFallback s1 else forEach (List.range 8) mclkChanged s1

/-- A relock starts (R145 to R149). -/
def startRelock (i : Nat) (hop : Bool) (req : Option U16) (attempt : Nat) (s : State) : State :=
  gateOutputs i (updPll i (fun x => { x with state := .search, relock := some { start := s.time.raw, hop := hop, request := req, attempt := attempt } }) s)

/-- The last driven output is released: the relock is complete (R145, R159). An output that is not enabled then stays gated
until it is enabled and verified (log 51). -/
def relockComplete (i : Nat) (s : State) : State :=
  let x := getPll s i
  let s1 := updPll i (fun x => { x with state := .locked, relock := none }) s
  let s2 := post 0x0200#16 i (n32 x.lockNs ++ n8 (profileOf x)) s1
  match x.relock.bind (·.request) with
  | some op => endLong op i OK (n32 x.lockNs) s2
  | none => s2

/-- The relock is complete once no output that is driven is gated (R145). -/
def finishVerify (i : Nat) (s : State) : State :=
  let x := getPll s i
  if x.state = .verify ∧ !(x.gated.any (pllOutputs s i).contains) then relockComplete i s else s

/-- The instant of an output's edge after the alignment edge in ns (R152), from which its edges follow every divider
cycles: none without a lock or where the fraction of N is not zero, when the spec gives no relation. The islands'
dividers of ADPLL-A, outputs 0 to 3, have no phase setting. -/
def outputEdge (s : State) (i out : Nat) : Option Rat :=
  let x := getPll s i
  match x.alignAt with
  | none => none
  | some t =>
    let phase := if i = 0 ∧ out < 4 then 0 else (getOut s out).phase
    if planN x.plan % 2 ^ 24 = 0 ∧ f32Val x.plan.fDco ≠ 0 then some ((t : Rat) + (phase : Rat) * 1000000000 / f32Val x.plan.fDco) else none

/-- ADPLL_LOCK (R144, R152): t_lock. `refEdge` ns later comes the first reference edge, the alignment edge. The measured DCO frequency, its phase error and, where a search found it, the
band and fine word come from the part; `hopLocked` tells that the stored band locked (R147). -/
def execAdpllLock (i : Nat) (hopLocked : Bool) (band : BitVec 6) (fine : U32) (f rms : F32) (refEdge : Nat) (s : State) : Host.Outcome State Fault Refusal :=
  let x := getPll s i
  match x.state, x.relock with
  | .search, some k =>
    let keep := k.hop && hopLocked
    let s1 := updPll i (fun y => { y with state := .verify, band := if keep then y.band else band, fine := if keep then y.fine else fine, fMeas := f, phaseRms := rms, locks := y.locks + 1
                                          tLock := activeTime s, lockNs := s.time.raw - k.start, gated := everyOutput i, alignAt := some (s.time.raw + refEdge)
                                          profiles := if s.sys.phase = .finished then y.profiles else y.profiles.set 0 (some { plan := y.plan, band := band, fine := fine }) }) s
    .next (finishVerify i s1)
  | _, _ => .next s

/-- Islands by clock output of ADPLL-A, as positions of PWM, Loop, Filter, Host, Ethernet (R143, R149). -/
def islandsOf (out : Nat) : List Nat := match out with | 0 => [0] | 1 => [1, 2] | 2 => [3] | 3 => [4] | _ => []

/-- OUTPUT_RELEASE (R145, R149): an output's 256 cycles have been verified, of one enabled after the relock too. -/
def execOutputRelease (i out : Nat) (s : State) : Host.Outcome State Fault Refusal :=
  let x := getPll s i
  if (x.state ≠ .verify ∧ x.state ≠ .locked) ∨ !(pllOutputs s i).contains out ∨ !x.gated.contains out then .next s
  else
    let s1 := updPll i (fun y => { y with gated := y.gated.filter (· ≠ out) }) s
    let s2 := if i = 0 then
        let s2 := { s1 with time := { s1.time with onFallback := s1.time.onFallback.mapIdx (fun k b => if (islandsOf out).contains k then false else b) } }
        if out = 0 then endFallback s2 else s2
      else if out < 8 then mclkChanged out s1 else s1
    .next (finishVerify i s2)

/-! ### Loss of lock (R148, R150) -/

/-- LOSS_OF_LOCK: reason 0 phase error, 1 reference missing, 2 output out of band. A plan or hop that it ends in VERIFY has
failed: event 0x0202 (R159; log 52). -/
def execLossOfLock (i reason : Nat) (s : State) : Host.Outcome State Fault Refusal :=
  let x := getPll s i
  if x.state ≠ .locked ∧ x.state ≠ .verify then .next s
  else
    let busy := !allStagesOff s
    let s1 := gateOutputs i (updPll i (fun y => { y with state := .lost, losses := y.losses + 1, relockAt := s.time.raw + 100000, relock := none }) s)
    let s2 := post 0x0201#16 i (n8 reason ++ n8 (flag busy 0)) s1
    let s3 := if busy then safetyActs rCLOCK 0 0xFF s2 else s2
    .next (match x.relock with
      | some { request := some op, attempt := n, .. } => endLong op i E_NOT_READY [] (post 0x0202#16 i (n8 n) s3)
      | _ => s3)

/-- RELOCK_START (R150): 100 us after a loss, on the plan in effect, from its stored profile if one matches. -/
def execRelockStart (i : Nat) (s : State) : Host.Outcome State Fault Refusal :=
  let x := getPll s i
  if x.state ≠ .lost then .next s
  else
    let s1 := advanceTo x.relockAt s
    let p := profileOf x
    let s2 := match x.profiles.getD p none with
      | some q => updPll i (fun y => { y with band := q.band, fine := q.fine }) s1
      | none => s1
    .next (startRelock i (decide (p ≠ 0xFF)) none 1 s2)

/-- The time limit of a relock in ns (R147, R150). -/
def relockLimit (k : Relock) : Nat :=
  let t := if k.hop then 162000 else 150000
  if k.request.isSome then t else 2 * t

/-- RELOCK_ATTEMPT_TIMEOUT (R150): a further attempt, or FAILED after the third; a requested relock fails at once. -/
def execRelockAttemptTimeout (i : Nat) (s : State) : Host.Outcome State Fault Refusal :=
  let x := getPll s i
  match x.state, x.relock with
  | .search, some k =>
    let s1 := advanceTo (k.start + relockLimit k) s
    if k.request.isNone ∧ k.attempt < 3 then .next (startRelock i k.hop none (k.attempt + 1) s1)
    else
      let s2 := post 0x0202#16 i (n8 k.attempt) (updPll i (fun y => { y with state := .failed, relock := none }) s1)
      .next (match k.request with | some op => endLong op i E_NOT_READY [] s2 | none => s2)
  | _, _ => .next s

/-! ### Cards -/

/-- A forming unit is not OFF. -/
def fuLive (s : State) : Bool := s.fus.any (fun f => f.mode != .off)

/-- R155 refuses a relock of an ADPLL now. -/
def relockRefused (s : State) (i : Nat) : Bool :=
  if i = 0 then s.sys.dev == .run || !allStagesOff s || fuLive s || capArmed s else !allStagesOff s

/-- An ADPLL is still relocking (R155); in LOST its relock has not started (R158). -/
def relocking (x : Adpll) : Bool := x.relock.isSome

/-- A plan of ADPLL-B under which an enabled MCLK would have a period that the capture delay of one of its group's inputs reaches
or passes: "No input therefore ever runs" so (R163). The cards name no status for it; E_PARAM is the model's (log 176). -/
def planTooFast (s : State) (i : Nat) (q : Plan) : Bool :=
  decide (i = 1) && (List.range 8).any (fun g =>
    let o := getOut s g
    let f : Rat := f32Val q.fDco / o.divider
    o.enable && (List.range 6).any (fun k => (delaysOf s (6 * g + k)).any (fun d => delayTooLong d (if f = 0 then 0 else 1000000000 / f))))

/-- CLK_SET_PLAN (R143, R155). -/
def setPlanRun (s : State) (r : Req) : CardResult :=
  let p := reqParams r
  let i := n8At p 0
  let q := planAt p 0
  if p.length ≥ 1 ∧ i < 2 ∧ relockRefused s i then rejectWith E_STATE
  else if p.length ≠ 16 ∨ i > 1 ∨ n8At p 3 ≠ 0 ∨ !planOk i q ∨ planTooFast s i q then rejectWith E_PARAM
  else if relocking (getPll s i) ∨ classFull s 0x0200#16 then rejectWith E_BUSY
  else
    let n := planN q
    let s1 := startRelock i false (some 0x0200#16) 1 (updPll i (fun x => { x with plan := q }) s)
    .long s1 i (n8 i ++ n8 (if n % 2 ^ 24 = 0 then 1 else 0) ++ n16 (n / 2 ^ 24) ++ n32 (n % 2 ^ 24) ++ le32 (toF32 (fPfd q)))

def execClkSetPlan (via : Transport) (s : State) : Host.Outcome State Fault Refusal :=
  .next (runCard (isOp 0x0200#16) (snsCard setPlanRun) via s)

/-- CLK_HOP (R147, R155). -/
def hopRun (s : State) (r : Req) : CardResult :=
  let p := reqParams r
  let i := n8At p 0
  if p.length ≥ 1 ∧ i < 2 ∧ relockRefused s i then rejectWith E_STATE
  else if p.length ≠ 4 ∨ i > 1 ∨ n8At p 1 > 7 ∨ !zeroAt p 2 2 then rejectWith E_PARAM
  else
    match (getPll s i).profiles.getD (n8At p 1) none with
    | none => rejectWith E_PARAM
    | some q =>
      if planTooFast s i q.plan then rejectWith E_PARAM
      else if relocking (getPll s i) ∨ classFull s 0x0201#16 then rejectWith E_BUSY
      else .long (startRelock i true (some 0x0201#16) 1 (updPll i (fun x => { x with plan := q.plan, band := q.band, fine := q.fine }) s)) i []

def execClkHop (via : Transport) (s : State) : Host.Outcome State Fault Refusal :=
  .next (runCard (isOp 0x0201#16) (snsCard hopRun) via s)

/-- CLK_STORE_SEARCH (R146, R155). -/
def storeSearchRun (s : State) (r : Req) : CardResult :=
  let p := reqParams r
  let i := n8At p 0
  if p.length ≠ 4 ∨ i > 1 ∨ n8At p 1 > 7 ∨ !zeroAt p 2 2 then rejectWith E_PARAM
  else if !pllLocked s i then rejectWith E_NOT_READY
  else
    let x := getPll s i
    .done (updPll i (fun x => { x with profiles := upd x.profiles (n8At p 1) (fun _ => some { plan := x.plan, band := x.band, fine := x.fine }) }) s)
      (n8 x.band.toNat ++ zeros 3 ++ le32 x.fMeas)

def execClkStoreSearch (via : Transport) (s : State) : Host.Outcome State Fault Refusal :=
  .next (runCard (isOp 0x0202#16) (snsCard storeSearchRun) via s)

/-- The frequency that feeds an output: ADPLL-B for MCLKs and SYNCCLK_OUT, CLKOUT's source for CLKOUT. -/
def outBase (s : State) (o src : Nat) : Rat :=
  if o ≠ 8 then f32Val (getPll s 1).plan.fDco
  else match src with
    | 0 => f32Val (getPll s 0).plan.fDco
    | 1 => f32Val (getPll s 1).plan.fDco
    | 2 => f32Val (getPll s 0).plan.fRef
    | _ => 100000000

/-- CLK_OUTPUT (R156, R157, R163). An MCLK feeds a stage whose graph reads one of its channels (log 190). -/
def clkOutputRun (s : State) (r : Req) : CardResult :=
  let p := reqParams r
  let o := n8At p 0
  let old := getOut s o
  let new : ClkOut := { enable := decide (n8At p 1 = 1), cmos := decide (n8At p 2 = 1), level := n8At p 3, divider := n16At p 4, phase := n16At p 6, source := n8At p 8 }
  let base := outBase s o new.source
  let f : Rat := if new.divider = 0 then 0 else base / new.divider
  let ranges := decide (n8At p 1 < 2) && decide (n8At p 2 < 2) && decide (n8At p 3 < 3) && zeroAt p 9 3 && decide (new.phase < new.divider)
    && (if o < 8 then decide (new.source = 0) && decide (75 ≤ new.divider) && decide (new.divider ≤ 800) && decide (5000000 ≤ f) && decide (f ≤ 40000000)
        else if o = 8 then decide (new.source < 4) && decide (4 ≤ new.divider) && decide (new.divider ≤ 4000) && decide (f ≤ (if new.cmos then 100000000 else 250000000))
        else decide (new.source = 0) && !new.cmos && decide (f = 100000000))
  if p.length ≥ 1 ∧ o < 8 ∧ new ≠ old ∧ (List.range 6).any (fun i => readLive s (6 * o + i)) then rejectWith E_STATE
  else if p.length ≠ 12 ∨ o > 9 ∨ !ranges then rejectWith E_PARAM
  else if o < 8 ∧ ((new.enable ∧ !old.enable) ∨ new.divider ≠ old.divider)
      ∧ (List.range 6).any (fun i => (delaysOf s (6 * o + i)).any (fun d => delayTooLong d (if f = 0 then 0 else 1000000000 / f))) then rejectWith E_PARAM
  else
    let s1 := updOut o (fun _ => new) s
    let s2 := if o < 8 ∧ new ≠ old then mclkChanged o s1 else s1
    .done (finishVerify 0 (finishVerify 1 s2)) (le32 (if new.enable then toF32 f else 0))

def execClkOutput (via : Transport) (s : State) : Host.Outcome State Fault Refusal :=
  .next (runCard (isOp 0x0203#16) (snsCard clkOutputRun) via s)

end Sys2Proof.Machine
end

