-- ==== Sys2Proof/Machine/Time.lean ====
section
/-! DEFINITION. Thyme: the domains, their servo, the active domain, and the time cards (spec/17 R443 to R458). -/

namespace Sys2Proof.Machine

open Sys2Proof

/-! ### Domains -/

def updTd (d : Nat) (f : Domain → Domain) (s : State) : State :=
  { s with time := { s.time with domains := upd s.time.domains d f } }

/-- Record the active time at this instant, so that later stamps of the last 4 s can be mapped back (R454). -/
def markActive (s : State) : State :=
  let m : TimeMark := { raw := s.time.raw, value := activeFixed s.time s.time.raw, dom := getTd s s.time.active, switch := s.time.switch }
  let old := s.time.history
  let keep := old.takeWhile (fun x => decide (x.raw + 4000000000 ≥ s.time.raw))
  { s with time := { s.time with history := m :: (keep ++ (old.drop keep.length).take 1) } }

/-- Set a domain's rate, re-anchoring it first so that it does not step (R448). -/
def setRho (d : Nat) (rho : Int) (s : State) : State :=
  let s1 := if s.time.active = d then markActive s else s
  updTd d (fun x => { x with anchor := domTime x s1.time.raw, anchorRaw := s1.time.raw, rho := rho }) s1

/-- The code of a source and of a domain state (R450). -/
def srcCode : TdSource → Nat
  | .off => 0 | .free => 1 | .host => 2 | .gptpA => 3 | .gptpB => 4 | .ptp => 5
def srcOf : Nat → TdSource
  | 1 => .free | 2 => .host | 3 => .gptpA | 4 => .gptpB | 5 => .ptp | _ => .off
def tdCode : TdState → Nat
  | .off => 0 | .acquiring => 1 | .locked => 2 | .holdover => 3 | .free => 4

/-- delta_0 in us as i32, saturating (event 0x0302). -/
def satUs (d : Int) : Bytes :=
  let u := d / (1000 * ns1)
  i32b (max (-2147483648) (min 2147483647 u))

/-- Event 0x0302 (R467). -/
def switchEvent (fromTd toTd kind : Nat) (d : Int) (s : State) : State :=
  post 0x0302#16 toTd (n8 fromTd ++ n8 toTd ++ n8 kind ++ [0] ++ satUs d) s

/-- Start a seamless switch of the active time onto a domain (R455, R456). -/
def startSwitch (b slew kind : Nat) (s : State) : State :=
  let s1 := markActive s
  let r := s1.time.raw
  let a := s1.time.active
  let d := domTime (getTd s1 b) r - activeFixed s1.time r
  switchEvent a b kind d
    { s1 with time := { s1.time with active := b, switch := some { fromTd := a, delta := d, slew := slew, start := r }, degraded := false } }

/-- The active domain has stopped running: its backup takes over, or ACTIVE_DEGRADED sets (R457). -/
def activeStopped (s : State) : State :=
  let a := getTd s s.time.active
  if tdRunning a then s
  else if a.backup < 4 ∧ tdRunning (getTd s a.backup) then startSwitch a.backup (getTd s a.backup).slew.toNat 1 s
  else if s.time.degraded then s
  else switchEvent s.time.active s.time.active 3 0 { s with time := { s.time with degraded := true } }

/-- A domain changes state: event 0x0300; a stop of the active domain has the consequences of R457. -/
def setTdState (d : Nat) (st : TdState) (s : State) : State :=
  let x := getTd s d
  if x.state = st then s else
    let s1 := updTd d (fun y => { y with state := st, everLocked := y.everLocked || st == .locked, holdSince := if st = .holdover then s.time.raw else y.holdSince }) s
    let s2 := post 0x0300#16 d (n8 (tdCode x.state) ++ n8 (tdCode st) ++ [0, 0] ++ le32 x.lastError) s1
    if d = s2.time.active then
      (if tdRunning (getTd s2 d) then { s2 with time := { s2.time with degraded := false } } else activeStopped s2)
    else s2

/-! ### The servo (R451 to R453) -/

/-- pi to 39 decimals. -/
def piRat : Rat := mkRat 3141592653589793238462643383279502884197 (10 ^ 39)
/-- kp and ki of a bandwidth in Hz. -/
def servoKp (b : Rat) : Rat := 2 * mkRat 707 1000 * 2 * piRat * b
def servoKi (b : Rat) : Rat := (2 * piRat * b) * (2 * piRat * b)
/-- An offset in 2^-32 ns as seconds. -/
def offsetSec (e : Int) : Rat := mkRat e (2 ^ 32 * 1000000000)
/-- A rate of 2^-40 units from a real rate, and the integrator in 2^-64 units. -/
def rhoOf (y : Rat) : Int := ratRound (y * (2 ^ 40 : Nat))
def integOf (y : Rat) : Int := ratRound (y * (2 ^ 64 : Nat))
def integRat (i : Int) : Rat := mkRat i (2 ^ 64)
/-- The rate that the integrator alone gives. -/
def integRho (x : Domain) : Int := rhoOf (ratClamp (integRat x.integ) (-(mkRat 1953 1000000)) (mkRat 1953 1000000))

/-- Time since the previous accepted sample in ns, at most 2 s, 0 for the first (R451). -/
def servoTau (x : Domain) (now : Nat) : Nat :=
  match x.lastSample with
  | some t => min (now - t) 2000000000
  | none => 0

/-- Magnitude of an offset against a threshold in ns. -/
def offAbove (e : Int) (n : Nat) : Bool := decide (e.natAbs > n * 2 ^ 32)

/-- Root mean square of the last samples, in ns (R465). -/
def errorRms (x : Domain) : F32 :=
  match x.errors16 with
  | [] => 0
  | l => toF32 (ratSqrt ((l.map (fun f => f32Val f * f32Val f)).foldl (· + ·) 0 / (l.length : Rat)))

/-- The state after an accepted sample (R452). -/
def tdNext (x : Domain) (e : Int) : TdState :=
  let inThr := !offAbove e x.lockThr.toNat
  match x.state with
  | .holdover => if inThr then .locked else .acquiring
  | .locked => if offAbove e (4 * x.lockThr.toNat) then .acquiring else .locked
  | .acquiring => if inThr && decide (x.inLock + 1 ≥ 4) then .locked else .acquiring
  | st => st

/-- A fallback interval lies between two instants (R444). -/
def fallbackBetween (s : State) (a b : Nat) : Bool :=
  s.time.fbStart.any (fun t => decide (t < b)) || s.time.fbPast.any (fun p => decide (a < p.2) && decide (p.1 < b))

/-- Take an offset sample (2^-32 ns) of the instant `at_` into a domain's servo; a fallback interval since the previous
accepted sample discards it (R444). The Boolean says whether it was accepted. -/
def servoSample (d : Nat) (e : Int) (at_ : Nat) (s : State) : Bool × State :=
  let x := getTd s d
  if x.lastSample.any (fun a => fallbackBetween s a at_) then
    let s1 := updTd d (fun y => { y with rejected := y.rejected + 1 }) s
    (false, postMerge 0x0303#16 d ([0, 0, 0, 0] ++ le32 (getTd s1 d).rejected) s1)
  else
    let step := x.state == .acquiring && x.stepOk && decide (s.time.active ≠ d) && offAbove e x.stepThr.toNat
    let b := f32Val x.bandwidth
    let i2 := if step then x.integ else integOf (integRat x.integ + servoKi b * offsetSec e * mkRat (servoTau x at_) 1000000000)
    let lim : Rat := mkRat 1953 1000000
    let y := ratClamp (integRat i2 + servoKp b * offsetSec e) (-lim) lim
    let le := toF32 (mkRat e (2 ^ 32))
    let next := tdNext x e
    let s1 := if step then
        post 0x0301#16 d (i64b (e / ns1)) (updTd d (fun z => { z with anchor := z.anchor + e, steps := z.steps + 1 }) s)
      else setRho d (rhoOf y) s
    let s2 := updTd d (fun z => { z with integ := i2, lastError := le, errors16 := (le :: z.errors16).take 16, samples := z.samples + 1, lastSample := some at_, lastTaken := some s.time.raw, spent := false, inLock := if offAbove e z.lockThr.toNat then 0 else z.inLock + 1 }) s1
    (true, setTdState d next s2)

/-! ### Time-driven events -/

/-- A domain whose servo runs: a source other than OFF and FREE, not held by a grandmaster. -/
def tdServo (x : Domain) : Bool := x.source != .off && x.source != .free && !x.byGm

/-- HOLDOVER_ENTRY (R452; log 48): 2 s without an accepted sample; the rate becomes the integrator's alone. -/
def execHoldoverEntry (d : Nat) (s : State) : Host.Outcome State Fault Refusal :=
  let x := getTd s d
  if tdServo x ∧ (x.state = .locked ∨ (x.state = .acquiring ∧ !x.spent)) then
    let s1 := advanceTo (x.lastTaken.getD x.since + 2000000000) s
    .next (setTdState d .holdover (setRho d (integRho x) s1))
  else .next s

/-- HOLDOVER_LIMIT_EXPIRY (R452, R457, R464). -/
def execHoldoverLimitExpiry (d : Nat) (s : State) : Host.Outcome State Fault Refusal :=
  let x := getTd s d
  if x.state = .holdover then
    let s1 := advanceTo (x.holdSince + x.holdLimit.toNat * 1000000000) s
    .next (setTdState d (if x.byGm then .free else .acquiring) (updTd d (fun y => { y with spent := true }) s1))
  else .next s

/-- The instant at which the slewed remainder of a switch reaches 0 (R455). -/
def switchEnd (w : Switch) : Nat := w.start + ceilDiv (w.delta.natAbs * 10 ^ 9) (w.slew * 2 ^ 32)

/-- SWITCH_COMPLETE (R455). -/
def execSwitchComplete (s : State) : Host.Outcome State Fault Refusal :=
  match s.time.switch with
  | none => .next s
  | some w =>
    let s1 := markActive (advanceTo (switchEnd w) s)
    .next (switchEvent w.fromTd s1.time.active 2 w.delta { s1 with time := { s1.time with switch := none } })

/-! ### Cards -/

/-- The time instance a source names. -/
def srcInst : TdSource → Option Nat
  | .gptpA => some 0 | .gptpB => some 1 | .ptp => some 2 | _ => none

/-- TIME_SET_DOMAIN (R450, R457). A domain given to the PTP instance while that is grandmaster is held by it at once, and its holdover begins then (R464). -/
def setDomainRun (s : State) (r : Req) : CardResult :=
  let p := reqParams r
  let d := n8At p 0
  let src := srcOf (n8At p 1)
  let bk := n8At p 2
  let bad := p.length ≠ 36 || decide (d > 3) || decide (n8At p 1 > 5) || decide (bk > 3 ∧ bk ≠ 0xFF) || decide (bk = d)
    || decide (n8At p 3 > 1) || !f32In (u32At p 16) (1 / 100) 4
    || decide (n32At p 20 < 10 ∨ n32At p 20 > 1000000) || decide (n32At p 24 < 1000 ∨ n32At p 24 > 1000000000)
    || decide (n32At p 28 < 1 ∨ n32At p 28 > 3600) || decide (n32At p 32 < 100 ∨ n32At p 32 > 100000)
    || ((srcInst src).isSome && (List.range 4).any (fun i => decide (i ≠ d) && (getTd s i).source == src))
  let x := getTd s d
  let same := src == x.source && u64At p 4 == x.initCfg && decide (i32At p 12 = x.rateCfg)
  if decide (p.length ≥ 16) && decide (d = s.time.active) && decide (d ≤ 3) && !same then rejectWith E_STATE
  else if bad then rejectWith E_PARAM
  else if d = s.time.active then
    .done (updTd d (fun y => { y with backup := bk, stepOk := decide (n8At p 3 = 1), bandwidth := f32Param (u32At p 16), lockThr := u32At p 20, stepThr := u32At p 24, holdLimit := u32At p 28, slew := u32At p 32 }) s) []
  else
    let gm := src == .ptp && decide ((s.insts.getD 2 inst0).role = 4)
    let st : TdState := match src with | .off => .off | .free => .free | _ => if gm then .holdover else .acquiring
    let s1 := updTd d (fun _ => { Domain0 with source := src, state := x.state, byGm := gm, backup := bk, stepOk := decide (n8At p 3 = 1), anchor := (n64At p 4 : Int) * ns1, anchorRaw := s.time.raw, rho := i32At p 12, integ := i32At p 12 * 2 ^ 24, bandwidth := f32Param (u32At p 16), lockThr := u32At p 20, stepThr := u32At p 24, holdLimit := u32At p 28, slew := u32At p 32, since := s.time.raw, holdSince := s.time.raw, initCfg := u64At p 4, rateCfg := i32At p 12 }) s
    .done (setTdState d st s1) []

def cardSetDomain : Card := { lifecycle := fun _ _ => true, allowed := inAll4, run := setDomainRun }

def execTimeSetDomain (via : Transport) (s : State) : Host.Outcome State Fault Refusal :=
  .next (runCard (isOp 0x0300#16) cardSetDomain via s)

/-- Map an active-domain value (2^-32 ns) of the past back to its extended raw count, to the nearest count (R454); `newer`
is a later count and its value. -/
def mapBack (v : Int) (newer : Nat × Int) : List TimeMark → Nat
  | [] => newer.1
  | m :: t =>
    if m.value ≤ v then
      let dv := newer.2 - m.value
      let n := (v - m.value) * ((newer.1 : Int) - (m.raw : Int))
      if dv = 0 then m.raw else m.raw + ((2 * n + dv) / (2 * dv)).toNat
    else mapBack v (m.raw, m.value) t

/-- The full value of a 32-bit stamp with fraction near the present active time: the value at most 2 s old, or none
where it is older or later than the present (R454). -/
def stampValue (s : State) (stamp : U32) (frac : U16) : Option Int :=
  let now := activeFixed s.time s.time.raw
  let lo : Int := (stamp.toNat : Int) * ns1 + (frac.toNat : Int) * 2 ^ 16
  let age := (now - lo) % (2 ^ 32 * ns1)
  if age ≤ 2000000000 * ns1 then some (now - age) else none

/-- TIME_FEED_OFFSET (R444, R451, R454). -/
def feedOffsetRun (s : State) (r : Req) : CardResult :=
  let p := reqParams r
  let d := n8At p 0
  let direct := n8At p 1 = 1
  let bad := p.length ≠ 24 || decide (d > 3) || decide (n8At p 1 > 1) || !zeroAt p 20 4 || (decide direct && !zeroAt p 2 6)
  if p.length ≠ 0 ∧ d ≤ 3 ∧ (getTd s d).source ≠ .host then rejectWith E_STATE
  else if bad then rejectWith E_PARAM
  else
    let go (e : Int) (at_ : Nat) : CardResult :=
      let q := servoSample d e at_ s
      .done q.2 (le32 (toF32 (mkRat e (2 ^ 32))) ++ n8 (tdCode (getTd q.2 d).state) ++ n8 (flag q.1 0) ++ zeros 2)
    if direct then go (i64At p 8 * ns1 + (n32At p 16 : Int)) s.time.raw
    else
      match stampValue s (u32At p 4) (u16At p 2) with
      | none =>
        let s1 := updTd d (fun y => { y with rejected := y.rejected + 1 }) s
        .failed (postMerge 0x0303#16 d ([1, 0, 0, 0] ++ le32 (getTd s1 d).rejected) s1) E_PARAM []
      | some v =>
        let c := mapBack v (s.time.raw, activeFixed s.time s.time.raw) s.time.history
        go ((n64At p 8 : Int) * ns1 + (n32At p 16 : Int) - domTime (getTd s d) c) c

def cardFeedOffset : Card := { lifecycle := fun _ _ => true, allowed := inAll4, run := feedOffsetRun }

def execTimeFeedOffset (via : Transport) (s : State) : Host.Outcome State Fault Refusal :=
  .next (runCard (isOp 0x0301#16) cardFeedOffset via s)

/-- TIME_SELECT_ACTIVE (R455, R456). -/
def selectActiveRun (s : State) (r : Req) : CardResult :=
  let p := reqParams r
  let d := n8At p 0
  let sl := n32At p 4
  if p.length ≠ 8 ∨ d > 3 ∨ !zeroAt p 1 3 ∨ sl < 100 ∨ sl > 100000 then rejectWith E_PARAM
  else if !tdRunning (getTd s d) then rejectWith E_NOT_READY
  else if d = s.time.active ∧ s.time.switch.isNone then .done s (zeros 12)
  else
    let t := startSwitch d sl 0 s
    let dl := match t.time.switch with | some w => w.delta | none => 0
    .done t (i64b (dl / ns1) ++ n32 (ceilDiv (dl.natAbs * 1000) (sl * 2 ^ 32)))

def cardSelectActive : Card := { lifecycle := fun _ _ => true, allowed := inAll4, run := selectActiveRun }

def execTimeSelectActive (via : Transport) (s : State) : Host.Outcome State Fault Refusal :=
  .next (runCard (isOp 0x0302#16) cardSelectActive via s)

/-- The flags of a domain (R465). -/
def tdFlags (s : State) (d : Nat) : Nat :=
  let x := getTd s d
  flag (decide (s.time.active = d)) 0 + flag (decide (s.time.active = d) && s.time.switch.isSome) 1 + flag x.byGm 2 + flag x.stepOk 3

/-- The remaining term of a switch in ns (R465). -/
def deltaLeft (s : State) : Int := match s.time.switch with | some w => switchLeft w s.time.raw / ns1 | none => 0
/-- The domain left by the switch in progress, 0xFF if none. -/
def switchFrom (s : State) : Nat := match s.time.switch with | some w => w.fromTd | none => 0xFF

/-- One domain of TIME_READ. -/
def timeEntry (s : State) (d : Nat) : Bytes :=
  let x := getTd s d
  let t := domTime x s.time.raw
  let n := (t / ns1).toNat
  n8 (tdCode x.state) ++ n8 (srcCode x.source) ++ n8 (tdFlags s d) ++ [0] ++ i32b x.rho ++ n64 n ++ n32 (t % ns1).toNat
    ++ n32 (n / 1000000000) ++ n32 (n % 1000000000) ++ zeros 4

/-- TIME_READ (R449): every value at one extended raw count. -/
def cardTimeRead : Card :=
  { lifecycle := fun _ _ => true, allowed := inAll4,
    run := fun s r =>
      if (reqParams r).length ≠ 0 then rejectWith E_PARAM
      else .done s (n64 s.time.raw ++ n64 (activeNs s) ++ i64b (deltaLeft s) ++ n8 s.time.active ++ n8 (switchFrom s) ++ zeros 6
        ++ (List.range 4).flatMap (timeEntry s)) }

def execTimeRead (via : Transport) (s : State) : Host.Outcome State Fault Refusal :=
  .next (runCard (isOp 0x0303#16) cardTimeRead via s)

end Sys2Proof.Machine
end

