-- ==== Sys2Proof/Machine/Eth.lean ====
section
/-! DEFINITION. The Ethernet ports, gPTP and IEEE 1588 instances, and the session card (spec/17 R459 to R467,
spec/02 R68, R69, R73). -/

namespace Sys2Proof.Machine

open Sys2Proof

def getInst (s : State) (i : Nat) : TimeInst := s.insts.getD i inst0
def updInst (i : Nat) (f : TimeInst → TimeInst) (s : State) : State := { s with insts := upd s.insts i f }
/-- The domain that an instance feeds. -/
def instDomain (s : State) (i : Nat) : Option Nat :=
  (List.range 4).find? (fun d => srcInst (getTd s d).source == some i)

/-- A link goes down (R461): the port's sessions close, and event 0x0310. -/
def linkDown (port : Nat) (s : State) : State :=
  let v := match s.eth[port]? with | some e => e.linkSpeed | none => 0
  post 0x0310#16 port (n8 0 ++ n8 v) (closePortSessions port 2 (updEth port (fun x => { x with link := false, linkLosses := x.linkLosses + 1 }) s))

/-- ETH_FRAME_DISCARDED (R459, R460): a bad frame check sequence counts in rx_crc; an excess length, a foreign tag, or
`other` (a fragment, options, an unsupported protocol) in rx_dropped. `len` is without the tag. -/
def execEthFrameDiscarded (port : Nat) (badFcs : Bool) (tag : Option Nat) (len : Nat) (other : Bool) (s : State) : Host.Outcome State Fault Refusal :=
  if badFcs && ethUp s port then .next (ethErrors port (updEth port (fun e => { e with rxCrc := e.rxCrc + 1 }) (countRx port s)))
  else ethTake port tag len s fun s1 => .next (if other then ethDrop port s1 else s1)

/-- ETH_LINK (R461): down closes the port's sessions and stops its instances' samples. The speed is the one configured, or
else the one negotiated. -/
def execEthLink (port : Nat) (up : Bool) (speed : Nat) (s : State) : Host.Outcome State Fault Refusal :=
  match s.eth[port]? with
  | none => .next s
  | some e =>
    let v := if e.speed = 0 then speed else e.speed
    if !e.enable ∨ e.link = up then .next s
    else if up then .next (post 0x0310#16 port (n8 1 ++ n8 v) (updEth port (fun x => { x with link := true, linkSpeed := v }) s))
    else .next (linkDown port s)

/-- Big-endian bytes of an IPv4 address. -/
def ipBytes (a : U32) : Bytes := (le32 a).reverse

/-- ARP_REQUEST (R460): a request for the port's address is answered; another is not for this port. -/
def execArpRequest (port : Nat) (tag : Option Nat) (target : U32) (senderMac : Bytes) (senderIp : U32) (s : State) : Host.Outcome State Fault Refusal :=
  ethTake port tag 64 s fun s1 =>
    .next (if s1.eth[port]?.any (fun e => e.ipv4 == target) then
      ethPut port (fun e => { port := port, tag := portTag e, hop := none,
                              body := [0x08#8, 0x06, 0, 1, 8, 0, 6, 4, 0, 2] ++ slice e.mac 0 6 ++ ipBytes e.ipv4 ++ slice senderMac 0 6 ++ ipBytes senderIp }) s1
    else s1)

/-- ICMP_ECHO (R460): requests of up to 576 bytes are answered, longer ones discarded. -/
def execIcmpEcho (port : Nat) (tag : Option Nat) (srcIp : U32) (data : Bytes) (s : State) : Host.Outcome State Fault Refusal :=
  ethTake port tag (data.length + 46) s fun s1 =>
    .next (if data.length > 576 then ethDrop port s1 else ethSend port srcIp (ipBytes srcIp ++ [0, 0] ++ data) s1)

/-! ### Time instances (R462 to R464) -/

/-- An instance takes a role: event 0x0311. -/
def setRole (i role : Nat) (cls : Byte) (s : State) : State :=
  let x := getInst s i
  let s1 := updInst i (fun y => { y with role := role, clockClass := cls }) s
  if x.role = role then s1 else post 0x0311#16 i (n8 x.role ++ n8 role ++ [cls]) s1

/-- The instance can exchange messages: enabled, its port up. -/
def instUp (s : State) (i : Nat) : Bool := (getInst s i).enable && ethUp s (getInst s i).port

/-- Bytes of an untagged frame with a PTP message of n bytes, in the instance's transport (R462). -/
def ptpLength (s : State) (i n : Nat) : Nat := max 64 (n + 18 + (if (getInst s i).transport = 1 then 28 else 0))

/-- PTP_SYNC (R462): one offset sample, the reference being origin + correction + path delay, in 2^-16 ns. -/
def execPtpSync (i : Nat) (tag : Option Nat) (origin correction delay : Int) (s : State) : Host.Outcome State Fault Refusal :=
  ethTake (getInst s i).port tag (ptpLength s i 44) s fun s0 =>
  if !instUp s0 i ∨ (getInst s0 i).role ≠ 2 then .next s0
  else
    let s1 := updInst i (fun y => { y with syncs := y.syncs + 1, pathDelay := toF32 (mkRat delay (2 ^ 16)) }) s0
    match instDomain s1 i with
    | none => .next s1
    | some d =>
      if (getTd s1 d).byGm then .next s1
      else .next (servoSample d ((origin + correction + delay) * 2 ^ 16 - domTime (getTd s1 d) s1.time.raw) s1.time.raw s1).2

/-- The clockClass that the PTP instance announces (R464). -/
def announcedClass (s : State) (i : Nat) : Byte :=
  match instDomain s i with
  | none => 248
  | some d =>
    let x := getTd s d
    if !x.everLocked then 248 else if x.state = .free then 52 else 7

/-- The instance's own clockIdentity. -/
def ownIdentity : Bytes := (List.range 8).map Config.clockIdentity

/-- The PTP instance becomes grandmaster (R464): its domain takes no samples and runs at its integrator rate. -/
def becomeGm (i : Nat) (s : State) : State :=
  let s1 := match instDomain s i with
    | none => s
    | some d =>
      let s2 := setRho d (integRho (getTd s d)) (updTd d (fun x => { x with byGm := true }) s)
      if (getTd s2 d).state = .free then s2 else setTdState d .holdover s2
  setRole i 4 (announcedClass s1 i) (updInst i (fun y => { y with gmIdentity := ownIdentity, gmData := [], stepsRemoved := 0 }) s1)

/-- The order of lists of numbers by their first difference. -/
def lexLt : List Nat → List Nat → Bool
  | a :: l, b :: m => decide (a < b) || (decide (a = b) && lexLt l m)
  | [], _ :: _ => true
  | _, [] => false

/-- A clock as the best master clock algorithm of IEEE 1588 ranks it (R462; log 49): priority1, clockClass, accuracy,
variance, priority2, identity; the lower is the better. -/
def clockData (prio1 cls acc : Byte) (var : U16) (prio2 : Byte) (gm : Bytes) : List Nat :=
  [prio1.toNat, cls.toNat, acc.toNat, var.toNat, prio2.toNat] ++ gm.map (·.toNat)

/-- An announced clock is better than the instance's own, and than the grandmaster it follows unless it is that one. A
gPTP instance is slave-only, so every master is better than it (R462). -/
def betterMaster (s : State) (i : Nat) (gm : Bytes) (d : List Nat) : Bool :=
  let x := getInst s i
  (decide (i < 2) || lexLt d (clockData x.priority1 (announcedClass s i) Config.ownAccuracy Config.ownVariance x.priority2 ownIdentity))
    && (decide (x.role ≠ 2) || x.gmIdentity == slice gm 0 8 || lexLt d x.gmData)

/-- PTP_ANNOUNCE (R464). -/
def execPtpAnnounce (i : Nat) (tag : Option Nat) (gm : Bytes) (prio1 cls acc : Byte) (var : U16) (prio2 : Byte) (steps : U16) (s : State) : Host.Outcome State Fault Refusal :=
  ethTake (getInst s i).port tag (ptpLength s i 64) s fun s1 =>
  if !instUp s1 i ∨ (getInst s1 i).role = 0 then .next s1
  else
    let d := clockData prio1 cls acc var prio2 gm
    if betterMaster s1 i gm d then
      let s2 := updInst i (fun y => { y with gmIdentity := slice gm 0 8, gmData := d, stepsRemoved := steps, lastAnnounce := s1.time.raw }) s1
      let s3 := setRole i 2 cls s2
      match instDomain s3 i with
      | none => .next s3
      | some d =>
        if (getTd s3 d).byGm then .next (setTdState d .acquiring (updTd d (fun x => { x with byGm := false, inLock := 0 }) s3)) else .next s3
    else if (getInst s1 i).role = 2 ∧ (getInst s1 i).gmIdentity ≠ slice gm 0 8 then .next s1
    else .next (becomeGm i s1)

/-- ANNOUNCE_RECEIPT_TIMEOUT (R464): the PTP instance selects itself; a gPTP instance listens again. -/
def execAnnounceReceiptTimeout (i : Nat) (s : State) : Host.Outcome State Fault Refusal :=
  let x := getInst s i
  if !x.enable ∨ (x.role ≠ 1 ∧ x.role ≠ 2) then .next s
  else if i < 2 then .next (setRole i 1 x.clockClass s)
  else .next (becomeGm i s)

/-- The time an instance carries at a raw count, in 2^-32 ns: its domain's, or the active time where it feeds none. -/
def instTime (s : State) (i r : Nat) : Int :=
  match instDomain s i with | some d => domTime (getTd s d) r | none => activeAt s.time r

/-- A PTP message as recorded: its kind, the instance's domain number, sequence, correction field in 2^-16 ns, and a tail. -/
def ptpMessage (x : TimeInst) (kind : Nat) (seq : U16) (correction : Int) (tail : Bytes) : Bytes :=
  n8 kind ++ [x.domainNumber] ++ le16 seq ++ i64b correction ++ tail
/-- A PTP message leaves (R459, R462): never tagged; by UDP it goes to 224.0.1.129, event messages to port 319, others to
port 320. -/
def ptpPut (x : TimeInst) (kind : Nat) (seq : U16) (correction : Int) (tail : Bytes) (s : State) : State :=
  let m := ptpMessage x kind seq correction tail
  let group : U32 := 0xE0000181#32
  ethPut x.port (fun _ => if x.transport = 1 then { port := x.port, tag := none, hop := some group, body := le32 group ++ n16 (if kind < 8 then 319 else 320) ++ m }
                          else { port := x.port, tag := none, hop := none, body := m }) s
/-- A time of 2^-32 ns as whole ns, and the rest of it as a correction in 2^-16 ns. -/
def ptpTime (t : Int) : Bytes := n64 (t / ns1).toNat
def ptpRest (t : Int) : Int := t % ns1 / 2 ^ 16

/-- PTP_SYNC_INTERVAL (R463, R464): as grandmaster the instance sends Sync, one-step with the correction written as it
leaves or two-step with a Follow_Up, or Announce; each carries the time of the domain it feeds. -/
def execPtpSyncInterval (i : Nat) (announce : Bool) (s : State) : Host.Outcome State Fault Refusal :=
  let x := getInst s i
  if !instUp s i ∨ x.role ≠ 4 then .next s
  else
    let cls := announcedClass s i
    let s1 := updInst i (fun y => { y with seqId := y.seqId + 1, clockClass := cls }) s
    let t := instTime s1 i s1.time.raw
    if announce then .next (ptpPut x 11 x.seqId 0 (ptpTime t ++ [x.priority1, cls, x.priority2]) s1)
    else if x.oneStep then .next (ptpPut x 0 x.seqId (ptpRest t) (ptpTime t) s1)
    else .next (ptpPut x 8 x.seqId (ptpRest t) (ptpTime t) (ptpPut x 0 x.seqId 0 (ptpTime t) s1))

/-- The answer to a request of the delay mechanism (R462, R463): peer-to-peer a Pdelay_Resp, one-step with its turnaround of
`turn` ns in the correction field or with a Follow_Up; end-to-end a grandmaster's Delay_Resp with the time of receipt. -/
def ptpAnswer (i : Nat) (seq : U16) (turn : Nat) (s : State) : State :=
  let x := getInst s i
  let t2 := instTime s i s.time.raw
  let t3 := instTime s i (s.time.raw + turn)
  if x.delayMech = 0 then (if x.role = 4 then ptpPut x 9 seq (ptpRest t2) (ptpTime t2) s else s)
  else if x.oneStep then ptpPut x 3 seq ((t3 - t2) / 2 ^ 16) (zeros 8) s
  else ptpPut x 10 seq (ptpRest t3) (ptpTime t3) (ptpPut x 3 seq (ptpRest t2) (ptpTime t2) s)

/-- The instance sends its own request of the delay mechanism: a Pdelay_Req, or as slave a Delay_Req (R462; log 168). -/
def ptpAsk (i : Nat) (s : State) : State :=
  let x := getInst s i
  if x.role = 0 ∨ (x.delayMech = 0 ∧ x.role ≠ 2) then s
  else
    let t := instTime s i s.time.raw
    ptpPut x (if x.delayMech = 1 then 2 else 1) x.seqId (ptpRest t) (ptpTime t) (updInst i (fun y => { y with seqId := y.seqId + 1 }) s)

/-- PTP_PDELAY (R462, R463): messages of the instance's delay mechanism. `what` 0: a request arrives and is answered;
1: a response arrives and gives the mean path delay; 2: the instance sends a request of its own. -/
def execPtpPdelay (i : Nat) (tag : Option Nat) (what : Nat) (seq : U16) (delay : Int) (turn : Nat) (s : State) : Host.Outcome State Fault Refusal :=
  if what ≥ 2 then .next (if instUp s i then ptpAsk i s else s)
  else ethTake (getInst s i).port tag (ptpLength s i 54) s fun s1 =>
    .next (if !instUp s1 i then s1
      else if what = 0 then ptpAnswer i seq turn s1
      else updInst i (fun y => { y with pathDelay := toF32 (mkRat delay (2 ^ 16)) }) s1)

/-! ### Cards -/

/-- A netmask is contiguous: its complement plus one is a power of two. -/
def maskOk (m : U32) : Bool := ((~~~m) &&& (~~~m + 1)) == 0

/-- The kind 0 fields that a port takes (R459). -/
def portOfParams (p : Bytes) (e : EthPort) : EthPort :=
  { e with enable := decide (n8At p 2 = 1), rgmii := decide (n8At p 3 = 1), speed := n8At p 4, pcp := n8At p 5, vid := n16At p 6, mac := slice p 8 6, ipv4 := u32At p 16, netmask := u32At p 20, gateway := u32At p 24, udpPort := u16At p 28, link := e.link && decide (n8At p 2 = 1) && e.enable, linkSpeed := if n8At p 4 = 0 then e.linkSpeed else n8At p 4 }

/-- The ranges of ETH_CONFIG kind 0. -/
def portParamsOk (p : Bytes) : Bool :=
  decide (p.length = 32) && decide (n8At p 1 < 2) && decide (n8At p 2 < 2) && decide (n8At p 3 < 2) && decide (n8At p 4 < 4)
    && !(decide (n8At p 4 = 0) && decide (n8At p 3 = 1)) && decide (n8At p 5 < 8) && decide (n16At p 6 ≤ 4094)
    && !((byteAt p 8).getLsbD 0) && zeroAt p 14 2 && maskOk (u32At p 20)
    && (u32At p 24 == 0 || (u32At p 24 &&& u32At p 20) == (u32At p 16 &&& u32At p 20)) && decide (n16At p 28 ≥ 1024) && zeroAt p 30 2


/-- A port takes its settings: its sessions close (R70, with the reason of a link loss), and with its enable its link goes
down (R461). -/
def applyPort (p : Bytes) (s : State) : State :=
  let port := n8At p 1
  let s1 := if n8At p 2 ≠ 1 ∧ s.eth[port]?.any (·.link) then linkDown port s else closePortSessions port 2 s
  updEth port (portOfParams p) s1

/-- ETH_CONFIG kind 0: a change to the port that carried the request takes effect after its reply. -/
def ethConfigPortRun (s : State) (r : Req) : CardResult :=
  let p := reqParams r
  let port := n8At p 1
  let e := s.eth.getD port { enable := false, rgmii := false, speed := 0, linkSpeed := 0, pcp := 0, vid := 0, mac := [], ipv4 := 0, netmask := 0, gateway := 0, udpPort := 0, link := false, rxFrames := 0, txFrames := 0, rxCrc := 0, rxDropped := 0, txLost := 0, linkLosses := 0 }
  if 4 ≤ p.length ∧ port < 2 ∧ e.enable ∧ e.rgmii ≠ decide (n8At p 3 = 1) then rejectWith E_STATE
  else if n8At p 0 ≠ 0 ∨ !portParamsOk p then rejectWith E_PARAM
  else if r.via = .cmd then .done (applyPort p s) []
  else .doneThen s [] (applyPort p)

def cardEthPort : Card := { lifecycle := fun _ _ => true, allowed := inAll4, run := ethConfigPortRun }

def execEthConfigPort (via : Transport) (s : State) : Host.Outcome State Fault Refusal :=
  .next (runCard (isOpElse 0x0310#16 [1]) cardEthPort via s)

/-- ETH_CONFIG kind 1 (R462). -/
def ethConfigInstRun (s : State) (r : Req) : CardResult :=
  let p := reqParams r
  let i := n8At p 1
  let g := decide (i < 2)
  let en := n8At p 3 = 1
  let ok := decide (p.length = 16) && decide (i < 3) && decide (n8At p 2 < 2) && decide (n8At p 3 < 2) && decide (n8At p 5 < 2)
    && decide (n8At p 6 < 2) && decide (n8At p 7 < 2) && zeroAt p 12 4
    && (!g || (decide (n8At p 5 = 0) && decide (n8At p 6 = 1) && decide (n8At p 8 = 255)))
    && decide (-7 ≤ i8At p 10) && decide (i8At p 10 ≤ 4) && decide (-3 ≤ i8At p 11) && decide (i8At p 11 ≤ 4)
  let clash := (List.range 3).any (fun j => decide (j ≠ i) && (getInst s j).enable && decide ((getInst s j).port = n8At p 2) && (getInst s j).domainNumber == byteAt p 4)
  if !ok ∨ (en ∧ clash) then rejectWith E_PARAM
  else
    let s1 := match instDomain s i with
      | some d => if (getTd s d).byGm then setTdState d .acquiring (updTd d (fun x => { x with byGm := false }) s) else s
      | none => s
    let s2 := updInst i (fun y => { y with enable := decide en, port := n8At p 2, domainNumber := byteAt p 4, transport := n8At p 5, delayMech := n8At p 6, oneStep := decide (n8At p 7 = 1), priority1 := byteAt p 8, priority2 := byteAt p 9, logSync := byteAt p 10, logAnnounce := byteAt p 11, lastAnnounce := s.time.raw }) s1
    .done (setRole i (if en then 1 else 0) (getInst s2 i).clockClass s2) []

def cardEthInst : Card := { lifecycle := fun _ _ => true, allowed := inAll4, run := ethConfigInstRun }

def execEthConfigInstance (via : Transport) (s : State) : Host.Outcome State Fault Refusal :=
  .next (runCard (isOpKind 0x0310#16 1) cardEthInst via s)

/-- The session to displace on a port: the one idle longest, if idle for at least 10 s (R69). -/
def idlest : List Session → Option Session
  | [] => none
  | x :: t => match idlest t with | some y => if x.lastReq ≤ y.lastReq then some x else some y | none => some x

/-- A session identifier not in use, nor that of a closed session still owed a reply, of a long operation, of a start that
waits (R70) or of a request whose reply a later event forms: the free draw, or
the least such number where the draw cannot serve. -/
def pickSid (s : State) (w : U32) : U32 :=
  let sidOf : Transport → Option U32 := fun v => match v with | .udp _ sid => some sid | .cmd => none
  let starts := s.loop.stages.filterMap (·.startReq) ++ (s.gov.pullin ++ s.gov.precharge ++ s.gov.release).filterMap (·.owed)
  let owed := (s.sys.longs.map (·.owed) ++ starts).filterMap (fun o => sidOf o.via)
  let later := (s.sense.accRead.map (·.req.via) ++ s.sense.urgents.map (·.req.via)).filterMap sidOf
  let used := s.udp.sessions.map (·.sid) ++ owed ++ later
  if w ≠ 0 ∧ !used.contains w then w
  else match ((List.range (used.length + 1)).map (fun i => BitVec.ofNat 32 (i + 1))).find? (fun c => !used.contains c) with | some c => c | none => 1

/-- ETH_SESSION_OPEN (R68, R69, R73). The idle time of a new session counts from its opening (log 132). -/
def sessionOpenRun (s : State) (r : Req) : CardResult :=
  let p := reqParams r
  match r.via, kCmd s with
  | .udp port _, some k =>
    if p.length ≠ 16 then rejectWith E_PARAM
    else
      let here := s.udp.sessions.filter (fun x => x.port = port)
      let victim := if here.length < 2 then none else idlest here
      let free := match victim with | none => decide (here.length < 2) | some x => decide (s.time.raw ≥ x.lastReq + 10000000000)
      if !free then rejectWith E_BUSY
      else
        let s1 := match victim with | some x => closeSession port x.sid 3 s | none => s
        let (nonce, s2) := drawBytes 16 s1
        let (w, s3) := draw s2
        let sid := pickSid s3 w
        let key := cmac16 k ([0x4F#8, 0x5A, 0x53, 0x4B] ++ p ++ nonce ++ le32 sid)
        let sess : Session := { port := port, sid := sid, ip := r.srcIp, key := key, high := 0, window := [], txSeq := 1, lastReq := s.time.raw, owing := 0 }
        let keep (l : List Bytes) : List Bytes := (p :: l).take 64
        .done { s3 with udp := { s3.udp with sessions := s3.udp.sessions ++ [sess], nonces0 := if port = 0 then keep s3.udp.nonces0 else s3.udp.nonces0, nonces1 := if port = 0 then s3.udp.nonces1 else keep s3.udp.nonces1 } }
          (nonce ++ le32 sid ++ n16 60 ++ n8 port ++ [0])
  | _, _ => rejectWith E_AUTH

def cardSessionOpen : Card := { lifecycle := fun _ _ => true, allowed := inAll4, run := sessionOpenRun }

/-- The session open, outside a session, whose turn has come repeats a nonce that was recorded while it waited (R73). -/
def openReplayed (s : State) (via : Transport) : Bool :=
  match via, nextRequest s via with
  | .udp port 0, some r => isOp 0x0311#16 r && (portNonces s port).contains (slice (reqParams r) 0 16)
  | _, _ => false

/-- ETH_SESSION_OPEN, or the discard of a replayed one without a reply (R73). -/
def execEthSessionOpen (via : Transport) (s : State) : Host.Outcome State Fault Refusal :=
  if openReplayed s via then
    .next (flushTurn via (udpReplay (match via with | .udp port _ => port | .cmd => 0) 0 0 (dropRequest s via)))
  else
  .next (runCard (isOp 0x0311#16) cardSessionOpen via s)

end Sys2Proof.Machine
end

