-- ==== Sys2Proof/Machine/OpsField.lean ====
section
/-! DEFINITION. Shared operations of the field die, the isolation link and the safety channels' inputs (spec/15 R401 to
R406, spec/16). -/

namespace Sys2Proof.Machine

open Sys2Proof

def updField (f : Field → Field) (s : State) : State := { s with field := f s.field }

/-- The field die's own time, in ns: it runs on through a warm reset, while the raw count starts anew (R121). -/
def dieNow (s : State) : Nat := s.field.clock0 + s.time.raw
/-- Time reaches at least an instant of the die. -/
def dieAt (t : Nat) (s : State) : State := advanceTo (t - s.field.clock0) s

/-! ### Outputs at the die (R428 to R434) -/

/-- A latched fault of a kind that holds the output off (R429): OVERCURRENT, THERMAL or VSUPPLY. -/
def holdsOff (x : FieldOut) : Bool := (x.faults &&& 0b11001#5) != 0

/-- A pull-in place is free again (R432); the next waiting output takes it. -/
def freePullin (o : Nat) (s : State) : State := servePullin 2 { s with gov := { s.gov with inPullin := s.gov.inPullin.filter (fun x => x ≠ o) } }

/-- The supply of the die lets it act on its outputs (R422). -/
def supplyDrives (s : State) : Bool := !s.field.underV && !s.field.overV && !s.field.dieStop

/-- The die drives an output (R422, R428, R429): a switch-on starts pull-in unless it is a safe state. The control die learns
of it from the uplink frames (R14). -/
def outDrive (o : Nat) (want safe : Bool) (s : State) : State :=
  let x := getOutput s o
  let w := want && !holdsOff x && supplyDrives s
  let pull := decide (x.pullIn > 0) && !safe
  if w && !x.on then
    let fin := dieNow s + 1000000 * x.pullIn
    updOutput o (fun x => { x with on := true, pulling := if pull then some fin else none, econAt := if pull then fin else dieNow s }) s
  else if !w && x.on then updOutput o (fun x => { x with on := false, pulling := none }) s
  else s

/-- The part of the 50 us period of an economised output that has passed (R428; its phase: log 161). -/
def econPhase (s : State) (o : Nat) : Nat := (dieNow s - (getOutput s o).econAt) % 50000
/-- The high-side switch of an output conducts: fully in pull-in, else for hold_duty of each 50 us period (R428). -/
def highSideOn (s : State) (o : Nat) : Bool :=
  let x := getOutput s o
  x.on && (x.pulling.isSome || decide (econPhase s o < 500 * x.holdDuty))
/-- The freewheel switch of an output conducts: in each off-phase of the economiser, and not at switch-off (R428). -/
def freewheelOn (s : State) (o : Nat) : Bool := (getOutput s o).on && !highSideOn s o

/-- The level of an output's safe state (R433); an output that the committed block names, as the die was told, is OFF. -/
def safeLevel (s : State) (o : Nat) : Bool :=
  let x := getOutput s o
  if s.field.named.getLsbD o then false else match x.safeState with | 1 => true | 2 => x.on | _ => false

/-- Every output takes its safe state (R434). -/
def applySafeStates (s : State) : State := forEach (List.range 8) (fun o s => outDrive o (safeLevel s o) true s) s

/-- The faults of an output whose condition stands, whatever its command: VSUPPLY while VFIELD is out of range, THERMAL while its
junction is above 160 degrees (R429; log 87). -/
def standingFaults (s : State) (x : FieldOut) : BitVec 5 :=
  (if s.field.underV || s.field.overV then 0b10000#5 else 0#5) ||| (if x.hot then 0b01000#5 else 0#5)

/-- A valid downlink frame's command for an output (R396, R429, R434). -/
def outCommand (f : DownFrame) (o : Nat) (s : State) : State :=
  let bit := f.doCmd.getLsbD o
  let s1 := updOutput o (fun x => { x with cmd := bit, offAt := if x.cmd && !bit then dieNow s else x.offAt
                                           faults := if bit && !x.cmd then x.faults &&& standingFaults s x else x.faults }) s
  if s1.field.named.getLsbD o then outDrive o (bit && f.permProc.getLsbD o && f.permSorrel.getLsbD o) false s1
  else if f.safeProc || f.safeSorrel then outDrive o (safeLevel s1 o) true s1
  else outDrive o bit false s1

/-- An output fault is latched at the die; kinds that hold the output off turn it off (R429). -/
def latchFault (o kind : Nat) (current : F32) (s : State) : State :=
  let x := getOutput s o
  if x.faults.getLsbD kind then s
  else
    let s1 := updOutput o (fun x => { x with faults := x.faults ||| (1#5 <<< kind), faultCur := current }) s
    if holdsOff (getOutput s1 o) then outDrive o false false s1 else s1

/-! ### Writes to outputs (R431, R432) -/

/-- An output can be switched on now: no pull-in, or a place is free and none waits before it (R134, R432). -/
def pullinFree (s : State) (o : Nat) : Bool :=
  decide ((getOutput s o).pullIn = 0) || (decide (s.gov.inPullin.length < 2) && s.gov.pullin.isEmpty)

/-- The output is commanded on or waits for it. -/
def outputGoing (s : State) (o : Nat) : Bool := s.field.doCmd.getLsbD o || s.gov.pullin.any (fun e => decide (e.unit = o))

/-- A graph write refused: event 0x0B04. -/
def writeRefused (o n why : Nat) (s : State) : State := postMerge 0x0B04#16 o (n8 n ++ n8 why) s

/-- An output is commanded off by a write: a waiting switch-on is removed, and a freed place is served (R138, R430). -/
def writeOff (o : Nat) (s : State) : State := servePullin 2 (commandOff o (removeOutputStart o 0 s))

/-- A stage writes an output (R40, R431). In SAFE every write is refused (R398; log 164). Outside RUN, without permits, or
in the output's shutdown a switch-on has no effect (R405, R139). -/
def fieldOutAct (n o : Nat) (on : Bool) (s : State) : State :=
  if s.field.owner.getD o 0 ≠ n + 1 then writeRefused o n 0 s
  else if s.sys.dev == .safe then s
  else if !on then writeOff o s
  else if s.sys.dev != .run || !permitted s o || (s.field.shutting.getD o none).isSome || outputGoing s o then s
  else if pullinFree s o then commandOn o s
  else if s.gov.pullin.length ≥ 8 then writeRefused o n 1 s
  else { s with gov := { s.gov with pullin := s.gov.pullin ++ [{ unit := o, opcode := 0, tag := 0, owed := none }] } }

/-! ### Inputs at the die (R424 to R427) -/

/-- The level that an input reads at a voltage under its threshold (R423); undefined between the two levels. -/
def inputLevel (threshold : Nat) (v : F32) : Option Bool :=
  let hi : Rat := match threshold with | 0 => 15 | 1 => 11 | _ => 13 / 2
  let lo : Rat := if threshold ≤ 1 then 5 else 7 / 2
  if hi ≤ f32Val v then some true else if f32Val v ≤ lo then some false else none

/-- The guaranteed rate of an input's counter in Hz (R426). -/
def maxRate (n : Nat) : Nat := if n ≥ 12 then 100000 else 10000
/-- The shortest pulse that an input's front end is sure to pass (R424). -/
def passTime (n : Nat) : Nat := if n ≥ 12 then 2000 else 20000

/-- An edge of an input is one that its counter counts (R426). -/
def counts (x : FieldIn) (lvl : Bool) : Bool := decide (x.countEdge = 3) || decide (x.countEdge = 1) && lvl || decide (x.countEdge = 2) && !lvl

/-- A counted edge (R426): one that follows the last of its direction sooner than the guaranteed rate allows leaves the
count open. Edges are stamped at 20 ns (R427). -/
def countEdge (n : Nat) (lvl : Bool) (now : Nat) (s : State) : State :=
  let x := getInput s n
  let late : Bool := match (if lvl then x.lastRise else x.lastFall) with | some t => decide (t + 1000000000 / maxRate n ≤ now) | none => true
  let (c, s1) := if late then (x.count + 1, s) else draw s
  updInput n (fun x => { x with count := c, lastRise := if lvl then some now else x.lastRise, lastFall := if lvl then x.lastFall else some now
                                gateEdges := if x.gate > 0 then x.gateEdges ++ [now / 20 * 20] else x.gateEdges }) s1

/-- DI12 to DI15 are sampled every 20 ns for their counters (R424): an edge of the level they read is counted there. -/
def fastEdge (n : Nat) (lvl : Bool) (s : State) : State := if n ≥ 12 ∧ counts (getInput s n) lvl then countEdge n lvl (ceilDiv (dieNow s) 20 * 20) s else s

/-- The raw level changes at a sample (R424, R425): it is counted on DI00 to DI11, with the stamp of its edge (R427), the debounce
starts anew, and 16 transitions within one debounce time are CHATTER. -/
def rawChange (n : Nat) (lvl : Bool) (edge now : Nat) (s : State) : State :=
  let x := getInput s n
  let tr := now :: x.trans.filter (fun t => decide (now < t + 1000 * x.debounce))
  let s1 := updInput n (fun x => { x with raw := lvl, rawSince := now, trans := tr, chatter := x.chatter || decide (tr.length ≥ 16) }) s
  if n < 12 ∧ counts x lvl then countEdge n lvl edge s1 else s1

/-- The die reads its inputs (R422): under undervoltage every input reads low, and a stopped die reads none. -/
def readable (s : State) : Bool := !s.field.underV && !s.field.dieStop

/-- The first sample of the raw level at or after an instant, every 1 us (R424; its phase: log 161). -/
def sampleAt (t : Nat) : Nat := ceilDiv t 1000 * 1000

/-- The sample that an input's level awaits is taken, if its instant lies before `r` (R424). -/
def sampleInput (r : Nat) (n : Nat) (s : State) : State :=
  let x := getInput s n
  let lvl := x.pin && readable s
  if lvl ≠ x.raw ∧ sampleAt x.pinSince < r then rawChange n lvl x.pinSince (sampleAt x.pinSince) s else s

/-- Every input's samples up to now are taken. -/
def sampleInputs (s : State) : State := forEach (List.range 16) (sampleInput (dieNow s + 1)) s

/-- The level behind the front end follows the ball (R423): an undefined level is a free value. A level that awaited a sample
is sampled first; the new one is sampled now if now is a sample's instant. -/
def seeInput (n : Nat) (s : State) : State :=
  let s0 := sampleInput (dieNow s) n s
  let x := getInput s0 n
  let (b, s1) := match inputLevel x.threshold x.volts with
    | some b => (b, s0)
    | none => let (w, s1) := draw s0; (w.getLsbD 0, s1)
  if b = x.pin then s1
  else
    let s2 := updInput n (fun x => { x with pin := b, pinSince := dieNow s }) s1
    sampleInput (dieNow s + 1) n (if readable s2 then fastEdge n b s2 else s2)

/-- The supply of the die has changed what it reads (R422): inputs that it no longer reads are low at once; those it reads
again are sampled anew. `was` says whether it read them before. -/
def followSupply (was : Bool) (s : State) : State :=
  forEach (List.range 16) (fun n s =>
    let x := getInput s n
    if was = readable s then s
    else if was then
      let s1 := if x.pin then fastEdge n false s else s
      if x.raw then rawChange n false (dieNow s) (dieNow s) s1 else s1
    else
      let s1 := updInput n (fun x => { x with pinSince := dieNow s }) s
      sampleInput (dieNow s + 1) n (if x.pin then fastEdge n true s1 else s1)) s

/-- The die takes a configuration record (R423 to R433, R440). -/
def dieConfig (c : DieConf) (s : State) : State :=
  match c with
  | .input n t e d g => seeInput n (updInput n (fun x => { x with threshold := t, countEdge := e, debounce := d, gate := g, gateStart := dieNow s, gateEdges := [], lastRise := none, lastFall := none, freq := 0, freqStatus := if g = 0 then 3 else 1 }) (sampleInput (dieNow s) n s))
  | .output o _ st p h od => updOutput o (fun x => { x with safeState := st, pullIn := p, holdDuty := h, openDetect := od }) s
  | .link t => updField (fun f => { f with timeout := t }) s
  | .names m => forEach ((List.range 8).filter (fun o => m.getLsbD o)) (fun o => updOutput o (fun x => { x with safeState := 0 })) (updField (fun f => { f with named := m }) s)

/-! ### Lanes (R438, R439, R533) -/

/-- VFIELD as an uplink frame carries it, in V. -/
def vFieldOf (u : UpFrame) : F32 := toF32 ((u.vField.toNat : Rat) / 100)
/-- VFIELD as the newest uplink frame shows it to the control die (R14). -/
def shownVField (s : State) : F32 := match s.field.newest with | some u => vFieldOf u | none => 0

/-- The lane that is neither the downlink's nor the uplink's. -/
def spareLane (s : State) : Nat := if s.field.laneDown ≠ 2 ∧ s.field.laneUp ≠ 2 then 2 else if s.field.laneDown ≠ 1 ∧ s.field.laneUp ≠ 1 then 1 else 0

/-- The link is lost for good: a lane in use is retired and no spare is left (R439). -/
def linkDead (s : State) : Bool := s.rel.laneRetired.getD s.field.laneDown false || s.rel.laneRetired.getD s.field.laneUp false

/-- A lane out of use is retired at once; one in use without a spare is retired without replacement (R534, R535). -/
def settleLanes (s : State) : State :=
  match nextRetire s 5 with
  | none => s
  | some r =>
    let inUse := decide (r.index = s.field.laneDown) || decide (r.index = s.field.laneUp)
    let mark (s : State) : State := { s with rel := { s.rel with laneRetired := upd s.rel.laneRetired r.index (fun _ => true) } }
    if !inUse then finishRetire r none (updField (fun f => { f with spareLanes := 0 }) (mark s))
    else if s.field.spareLanes = 0 then finishRetire r none (mark s)
    else s

/-- A frame in error on a lane (R438, R442): event 0x0B00; the eighth within 1 ms retires the lane, a single one is
transient (R533). -/
def laneError (lane dir : Nat) (s : State) : State :=
  let now := s.time.raw
  let l := now :: (s.field.laneErrs.getD lane []).filter (fun t => decide (now ≤ t + 1000000))
  let s1 := updField (fun f => { f with laneErrs := upd f.laneErrs lane (fun _ => l) }) s
  let s2 := postMerge 0x0B00#16 lane (n8 dir ++ zeros 3 ++ le32 s1.field.crcErrors) s1
  if l.length ≥ 8 then settleLanes (decideRetire { cls := 5, index := lane, row := 0, reason := 5 } s2) else transient 5 lane s2

/-- The announced swap takes place: the spare lane carries what the retired one carried (R439). -/
def swapLane (s : State) : State :=
  match s.field.swapNext, nextRetire s 5 with
  | some l, some r =>
    let sp := spareLane s
    let s1 := updField (fun f => { f with swapNext := none, spareLanes := 0, laneDown := if f.laneDown = l then sp else f.laneDown, laneUp := if f.laneUp = l then sp else f.laneUp }) s
    let s2 := { s1 with rel := { s1.rel with laneRetired := upd s1.rel.laneRetired l (fun _ => true) } }
    settleLanes (finishRetire r (some sp) (post 0x0B01#16 l (n8 sp ++ [0]) s2))
  | _, _ => updField (fun f => { f with swapNext := none }) s

/-- Eight bits of a list of eight. -/
def bits8 (p : Nat → Bool) : Byte := (List.range 8).foldl (fun m o => if p o then m ||| (1#8 <<< o) else m) 0
def bits16 (p : Nat → Bool) : BitVec 16 := (List.range 16).foldl (fun m o => if p o then m ||| (1#16 <<< o) else m) 0

/-- The outputs that the committed block names go to the die by a mailbox record (R434; log 85). -/
def sendNames (s : State) : State :=
  updField (fun f => { f with mailbox := f.mailbox ++ [{ key := f.nextKey, conf := .names (bits8 (namedOutput s)) }], nextKey := f.nextKey + 1 }) s

/-! ### Octets of a frame (R436, R438) -/

/-- A frame on the lane: bytes 0 to 29, then their CRC-16, most significant byte first (R436). -/
def withCrc16 (b : Bytes) : Bytes := let c := crc16 b; b ++ [(c >>> 8).truncate 8, c.truncate 8]
/-- A frame passes its length and its check (R438). -/
def frameOk (b : Bytes) : Bool := decide (b.length = 32) && (b == withCrc16 (b.take 30))
/-- The octets that a lane delivers of those sent. -/
def onLane (e : LaneErr) (b : Bytes) : Bytes :=
  (b.mapIdx (fun i x => x ^^^ e.flips.getD i 0)).take e.len ++ zeros (e.len - b.length)
/-- The lane changes nothing. -/
def laneIntact (e : LaneErr) : Bool := decide (e.len = 32) && e.flips.all (· == 0)

/-- The content of a configuration, by which its mailbox octets stand. -/
def confCode : DieConf → List Nat
  | .input n t e d g => [0, n, t, e, d, g]
  | .output o w st p h od => [1, o, w, st, p, h, if od then 1 else 0]
  | .link t => [2, t]
  | .names m => [3, m.toNat]
/-- The 20 octets of the downlink mailbox: zero without a record. -/
def downMailbox : Option FioRec → Bytes
  | none => zeros 20
  | some r => (List.range 20).map (Config.mailboxByte 0 (r.key :: confCode r.conf))
/-- The 32 octets of a downlink frame (R436). -/
def downOctets (f : DownFrame) : Bytes :=
  withCrc16 (le16 f.seq ++ [f.doCmd, f.permProc, f.permSorrel, f.tp.zeroExtend 8] ++ n8 (flag f.safeProc 0 + flag f.safeSorrel 1 + flag f.swap 2) ++ [0]
    ++ downMailbox f.record ++ [0, 0])
/-- A downlink frame as its fields read from octets; its record stands where its mailbox octets are those sent. -/
def downParse (b : Bytes) (f : DownFrame) : DownFrame :=
  { seq := u16At b 0, doCmd := byteAt b 2, permProc := byteAt b 3, permSorrel := byteAt b 4, tp := (byteAt b 5).truncate 4, safeProc := (byteAt b 6).getLsbD 0
    safeSorrel := (byteAt b 6).getLsbD 1, swap := (byteAt b 6).getLsbD 2, record := if slice b 8 20 == downMailbox f.record then f.record else none, begun := f.begun }
/-- The frame that arrives, if it passes its length and check; through an intact lane it is the one sent. -/
def downArrives (e : LaneErr) (f : DownFrame) : Option DownFrame :=
  if laneIntact e then some f
  else let b := onLane e (downOctets f); if frameOk b then some (downParse b f) else none

/-- The 12 octets of the uplink mailbox: part of what its rotation carries. -/
def upMailbox (u : UpFrame) : Bytes :=
  (List.range 12).map (Config.mailboxByte 1 ([u.taken, u.pulling.toNat, u.dieTemp.toNat] ++ u.counts.map (·.toNat) ++ u.freqs.map (·.toNat) ++ u.freqStats
    ++ u.currents.map (·.toNat) ++ u.faultCodes.map (·.toNat) ++ u.faultCurs.map (·.toNat) ++ [flag u.spareErr 0, flag u.dieLost 0, u.seq.toNat]))
/-- The 32 octets of an uplink frame (R436). -/
def upOctets (u : UpFrame) : Bytes :=
  withCrc16 (le16 u.seq ++ le16 u.raw ++ le16 u.debounced ++ le16 u.chatter ++ [u.doApplied, u.doFault] ++ n8 (u.tp.toNat + 16 * u.tpMis.toNat) ++ n8 u.status.toNat
    ++ le16 u.vField ++ le16 u.edges ++ upMailbox u ++ [0, 0])
/-- An uplink frame as its fields read from octets; what the mailbox carries stands where its octets are those sent, else
it is as the newest frame before it left it. -/
def upParse (b : Bytes) (u : UpFrame) (before : Option UpFrame) : UpFrame :=
  let m := if slice b 16 12 == upMailbox u then u else { before.getD u with spareErr := false, dieLost := false, sampled := u.sampled }
  { m with seq := u16At b 0, raw := u16At b 2, debounced := u16At b 4, chatter := u16At b 6, doApplied := byteAt b 8, doFault := byteAt b 9, tp := (byteAt b 10).truncate 4
           tpMis := (byteAt b 10 >>> 4).truncate 4, status := (byteAt b 11).truncate 5, vField := u16At b 12, edges := u16At b 14 }
/-- The uplink frame that arrives, if it passes its length and check. -/
def upArrives (e : LaneErr) (u : UpFrame) (before : Option UpFrame) : Option UpFrame :=
  if laneIntact e then some u
  else let b := onLane e (upOctets u); if frameOk b then some (upParse b u before) else none

/-- The test pulses commanded in a frame of the test cycle (R401). -/
def tpOf (frame : Nat) : BitVec 4 := if frame % 500 < 50 then 0xF#4 ^^^ (1#4 <<< (frame / 500)) else 0xF#4

/-! ### The safety channels take a frame (R395, R402, R403, R406) -/

/-- The source whose mask window a frame of the test cycle lies in. -/
def maskSource (frame : Nat) : Option Nat := if frame % 500 < 110 then some (frame / 500) else none

/-- A channel takes the raw levels of a frame that came dt after the last one; `msk` are the inputs in their own window. -/
def chanFrame (raw msk : BitVec 16) (dt : Nat) (x : SafeChan) : SafeChan :=
  { x with raw := (x.raw &&& msk) ||| (raw &&& ~~~msk), masked := msk
           held := (List.range 16).map (fun n =>
             let h := x.held.getD n 0
             if msk.getLsbD n then h
             else if raw.getLsbD n = x.level.getLsbD n then 0
             else if x.raw.getLsbD n = x.level.getLsbD n then 0
             else if x.masked.getLsbD n then h else h + dt) }

/-- The first frame gives a channel its levels; test-pulsed inputs start high, and a demand takes their debounce. -/
def chanFirst (raw pulsed : BitVec 16) (x : SafeChan) : SafeChan :=
  { x with level := raw ||| pulsed, raw := raw, held := List.replicate 16 0, masked := 0 }

/-- Record a frame of a mask window. -/
def windowFrame (src : Nat) (raw : BitVec 16) (t : TestCycle) : TestCycle :=
  let t := if t.window = some src then t else { t with window := some src, lowRun := List.replicate 16 0, dropSeen := 0, highTail := List.replicate 16 0, allHigh := 0xFFFF }
  let low := (List.range 16).map (fun n => if raw.getLsbD n then 0 else t.lowRun.getD n 0 + 1)
  { t with lowRun := low, dropSeen := t.dropSeen ||| bits16 (fun n => decide (low.getD n 0 ≥ 10)), allHigh := t.allHigh &&& raw
           highTail := (List.range 16).map (fun n => if raw.getLsbD n then t.highTail.getD n 0 + 1 else 0) }

/-- A channel's view and its supervision of the contactor entries: 0 Sorrel, 1 the safety processor. -/
def safeView (s : State) (ch : Nat) : SafeChan := if ch = 0 then s.safe.sorrel else s.safe.proc
def updView (ch : Nat) (f : SafeChan → SafeChan) (s : State) : State := if ch = 0 then updSorrel f s else updProc f s
def contView (s : State) (ch : Nat) : List ContMon := if ch = 0 then s.safe.cont else s.safe.contProc
def updCont (ch : Nat) (f : List ContMon → List ContMon) (s : State) : State :=
  if ch = 0 then { s with safe := { s.safe with cont := f s.safe.cont } } else { s with safe := { s.safe with contProc := f s.safe.contProc } }
/-- One entry's supervision after an applied command and a feedback: every change restarts the 30 ms (R406). -/
def contNext (ap cl : Bool) (now : Nat) (m : ContMon) : ContMon :=
  if ap = m.applied ∧ cl = m.closed then { m with wasClosed := m.wasClosed || (ap && cl) }
  else { applied := ap, closed := cl, wasClosed := (m.wasClosed && m.applied && ap) || (ap && cl), since := now, fault := false }
/-- A channel compares its debounced feedback of every entry with the applied command (R406). -/
def contStep (ch : Nat) (applied : Byte) (now : Nat) (s : State) : State :=
  (contactors s).foldl (fun s c => updCont ch (fun l => upd l c.k (contNext (applied.getLsbD c.output) ((safeView s ch).level.getLsbD c.input == c.highClosed) now)) s) s

/-- The frame of the test cycle that an uplink frame answers: its sequence number is the downlink frame's (R401, R436);
one the die sends on its own counts as the newest sent. -/
def answeredFrame (s : State) (u : UpFrame) : Nat :=
  let d := (s.field.seq - u.seq).toNat
  if d ≤ 2 then (s.safe.test.frame + 2000 - d) % 2000 else s.safe.test.frame

/-- Both channels take an uplink frame. -/
def safetyFrame (u : UpFrame) (before : Option UpFrame) (s0 : State) : State :=
  let fr := answeredFrame s0 u
  let s := { s0 with safe := { s0.safe with test := { s0.safe.test with seen := fr } } }
  match s.safe.block with
  | none => s
  | some b =>
    let src := maskSource fr
    let pulsed := (pulsedInputs b).foldl (fun m p => m ||| (1#16 <<< p.1)) 0#16
    let msk := (pulsedInputs b).foldl (fun m p => if src = some p.2.1 then m ||| (1#16 <<< p.1) else m) 0#16
    let dt := match before with | some f => u.sampled - f.sampled | none => 0
    let begun (l : List ContMon) : List ContMon := l.map (fun m => { m with since := u.sampled })
    let s1 := if s.safe.fresh then updBoth (chanFirst u.raw pulsed) (updCont 1 begun (updCont 0 begun { s with safe := { s.safe with fresh := false } }))
      else updBoth (chanFrame u.raw msk dt) s
    let s2 := match src with
      | some k => { s1 with safe := { s1.safe with test := windowFrame k u.raw s1.safe.test } }
      | none => s1
    forEach [0, 1] (fun ch => contStep ch u.doApplied u.sampled) s2

end Sys2Proof.Machine
end

