-- ==== Sys2Proof/Machine/OpsForm.lean ====
section
/-! DEFINITION. The law of the forming units: one kernel or monitor period, the outputs, and the delivery of feeds
(spec/11, spec/12). Voltages and currents are per-unit pairs: α, β and 0, or in split-phase operation the differential
part, its quadrature and the common part (R303). -/

namespace Sys2Proof.Machine

open Sys2Proof

/-- The value of a calculation whose exceptions nobody counts (R295). -/
def fpVal {α : Type} (x : Fp α) : α := (x.run []).1

/-! ### Bases and elementary quantities (R294, R300, R301) -/

def fHalf : F32 := 0x3F000000#32
def fRoot2 : F32 := 0x3FB504F3#32
def fHundred : F32 := 0x42C80000#32
/-- cos and sin of a turn fraction to within 1e-6 (R300): any binary32 in that distance may stand. -/
def near (exact err : Rat) : F32 :=
  let v := toF32 (exact + err)
  if ratAbs (f32Val v - exact) ≤ mkRat 1 1000000 then v else toF32 exact
def fuCos (th : U32) : F32 := near (cosTurn (mkRat th.toNat (2 ^ 32))) (Config.trigErr 0 th)
def fuSin (th : U32) : F32 := near (sinTurn (mkRat th.toNat (2 ^ 32))) (Config.trigErr 1 th)
/-- The turn fraction of an accumulator (R301). -/
def angleOf (t : U64) : U32 := t.extractLsb' 32 32
/-- angle_step of a speed in p.u. over an interval in ns (R301). -/
def angleStep (w fn : F32) (tns : Nat) : U64 :=
  BitVec.ofInt 64 (ratRound (f32Val (fpVal (fmul w fn)) * tns * (2 ^ 64 : Nat) / 1000000000))
/-- I_base and the peaks of 1 p.u. (R294). -/
def iBase (c : PortConf) : Fp F32 := do fdiv c.sb (← fmul (if c.split then fTwo else fThree) c.vb)
def vPeak (c : PortConf) : Fp F32 := fmul fRoot2 c.vb
def iPeak (c : PortConf) : Fp F32 := do fmul fRoot2 (← iBase c)
/-- The magnitude of a pair. -/
def fmag (a b : F32) : Fp F32 := do return fsqrt (← fadd (← fmul a a) (← fmul b b))
/-- The frequency band of ω_v and of the PLLs (R297, R299). -/
def bandLo (c : PortConf) : Fp F32 := do fsub fOne (← fdiv c.dfmax c.fn)
def bandHi (c : PortConf) : Fp F32 := do fadd fOne (← fdiv c.dfmax c.fn)
/-- 1 - exp(-T / tau). -/
def lagGain (t tau : F32) : Fp F32 := do fsub fOne (← felemExp (fneg (← fdiv t tau)))
/-- A first-order low-pass (R295). -/
def lag (old x g : F32) : Fp F32 := do fadd old (← fmul g (← fsub x old))
/-- The quantities a, b and c of αβ0 (R293). -/
def phasesOf (al be z : F32) : Fp (List F32) := do
  let h ← fmul al fHalf
  let q ← fmul 0x3F5DB3D7#32 be
  return [← fadd al z, ← fadd (← fsub q h) z, ← fadd (← fsub (fneg h) q) z]
/-- The amplitude-invariant Clarke transform. -/
def clarke (a b c : F32) : Fp (List F32) := do
  let al ← fdiv (← fsub a (← fmul fHalf (← fadd b c))) 0x3FC00000#32
  let be ← fdiv (← fsub b c) 0x3FDDB3D7#32
  return [al, be, ← fdiv (← fadd a (← fadd b c)) fThree]

/-! ### Inputs (R286, R303) -/

/-- The speed of the virtual rotor in rad/s at which the integrators run; a unit in OFF has none and takes f_n. -/
def sogiSpeed (x : FormingUnit) : Rat := (if x.mode = .off then 1 else f32Val x.run.w) * f32Val x.port.fn * twoPi

/-- The per-unit inputs of one period. -/
structure FuIn where
  a    : F32      -- voltage
  b    : F32
  z    : F32
  ia   : F32      -- current
  ib   : F32
  iz   : F32
  ga   : F32      -- grid side
  gb   : F32
  cond : F32      -- largest conductor current
  imag : F32      -- magnitude of the current
  sogi : List F32
  raw  : List F32 -- the feed

/-- The largest of some magnitudes. -/
def maxMag (l : List F32) : F32 := l.foldl (fun m v => fmax m (fabs v)) 0

/-- The inputs of a feed. The integrator of the current serves the law alone: a monitor period does not run it, and it starts
from 0 when the unit leaves OFF (R291, R311). -/
def readFeed (x : FormingUnit) (law : Bool) (vals : List F32) (t : F32) : Fp FuIn := do
  let c := x.port
  let raw ← vals.mapM fnorm
  let vp ← vPeak c
  let ip ← iPeak c
  let u (k : Nat) : Fp F32 := fdiv (raw.getD k 0) (if k = 3 ∨ k = 4 ∨ k = 5 then ip else vp)
  let (va, vb, v0) := (← u 0, ← u 1, ← u 2)
  let (ja, jb, j0) := (← u 3, ← u 4, ← u 5)
  let (ga, gb) := (← u 6, ← u 7)
  let imag ← fmag ja jb
  let ph ← phasesOf ja jb j0
  if c.split then
    let pv ← phasesOf va vb v0
    let part (l : List F32) : Fp (F32 × F32) := do
      return (← fmul fHalf (← fsub (l.getD 0 0) (l.getD 1 0)), ← fmul fHalf (← fadd (l.getD 0 0) (l.getD 1 0)))
    let (vs, vm) ← part pv
    let (is, im) ← part ph
    let gs ← fsub (← fmul 0x3F400000#32 ga) (← fmul 0x3EDDB3D7#32 gb)
    let st (k : Nat) : F32 × F32 := (x.sogi.getD k 0, x.sogi.getD (k + 1) 0)
    let step (v : F32) (p : F32 × F32) : Fp (F32 × F32) := sogi fRoot2 (toF32 (sogiSpeed x)) t v p
    let sv ← step vs (st 0)
    let si ← if law then step is (if x.mode = .off then (0, 0) else st 2) else pure (0, 0)
    let sg ← step gs (st 4)
    let n := fneg (← fadd (ph.getD 0 0) (ph.getD 1 0))
    return { a := vs, b := sv.2, z := vm, ia := is, ib := si.2, iz := im, ga := gs, gb := sg.2, cond := maxMag [ph.getD 0 0, ph.getD 1 0, n], imag := imag,
             sogi := [sv.1, sv.2, si.1, si.2, sg.1, sg.2], raw := raw }
  else
    return { a := va, b := vb, z := v0, ia := ja, ib := jb, iz := j0, ga := ga, gb := gb, cond := maxMag ((← fmul fThree j0) :: ph), imag := imag,
             sogi := x.sogi, raw := raw }

/-- A PLL over one period (R299): error, PI, speed, angle, and the criteria of lock. -/
def pllStep (c : PortConf) (p : Pll) (a b t : F32) (tns tk : Nat) : Fp Pll := do
  let v ← fmag a b
  let th := angleOf p.theta
  let vq ← fsub (← fmul b (fuCos th)) (← fmul a (fuSin th))
  let d ← fmul c.fn (fmax v 0x3DCCCCCD#32)
  let kp ← fdiv (← fmul 0x3FB4FDF4#32 c.bpll) d
  let ki ← fdiv (← fmul 0x40C90FDB#32 (← fmul c.bpll c.bpll)) d
  let integ ← fadd p.integ (← fmul (← fmul ki t) vq)
  let w := fclamp (← fadd fOne (← fadd (← fmul kp vq) integ)) (← bandLo c) (← bandHi c)
  let good := f32Le 0x3E99999A#32 v && f32Le (fabs vq) (← fmul 0x3D4CCCCD#32 v)
  return { theta := p.theta + angleStep w c.fn tns, omega := w, integ := integ, v := v, locked := p.locked && good,
           since := if good then some (p.since.getD tk) else none }

/-- V_m before its filter (R299): V in volts rms line-to-neutral, V x V_base (R293, R294), or V / sqrt 2 x V_base as R299
writes it. The spec does not say which of its two statements holds, and nothing in the model does (log 95). -/
def vMeasured (c : PortConf) (v : F32) : Fp F32 := do
  let peak ← fdiv v fRoot2
  fmul (if Config.vmAsWritten then peak else v) c.vb

/-- Both PLLs, V_m, V_g and the presence of the grid over one period (R291, R299, R327). -/
def measureStep (x : FormingUnit) (i : FuIn) (t : F32) (tns tk : Nat) : Fp FormingUnit := do
  let c := x.port
  let trk ← pllStep c x.trk i.ga i.gb t tns tk
  let port ← pllStep c x.pll i.a i.b t tns tk
  let g ← lagGain t x.law.tauq
  let vm ← lag x.vm (← vMeasured c port.v) g
  let vg ← lag x.vg (← fmul trk.v c.vb) g
  let fg ← fmul trk.omega c.fn
  let near := f32Le (fabs (← fsub fg c.fn)) c.dfmax && f32Le (← fmul 0x3F6147AE#32 c.vb) vg && f32Le vg (← fmul 0x3F8CCCCD#32 c.vb)
  return { x with pll := if x.mode = .sync then trk else port, trk := trk, vm := vm, vg := vg, sogi := i.sogi, present := trk.locked && near }

/-! ### Set-points (R305, R306, R325) -/

/-- One working value over one period. -/
def moveSet (p : FuSet) (fresh : Option F32) (meas step : F32) (first normal force : Bool) : Fp FuSet := do
  if first then return { work := meas, target := fresh.getD p.target, ramp := true }
  match fresh with
  | some t => return if normal ∨ force then { work := meas, target := t, ramp := true } else { work := t, target := t, ramp := false }
  | none =>
    if !p.ramp then return p
    else if !normal ∧ !force then return { p with work := p.target, ramp := false }
    else
      let gap ← fsub p.target p.work
      if f32Le (fabs gap) step then return { p with work := p.target, ramp := false }
      else return { p with work := ← fadd p.work (if gap.msb then fneg step else step) }

/-- V_w under R325: it rises to the target, never above V_m + 0.1 V_base. -/
def moveSoft (p : FuSet) (vm vb step : F32) : Fp FuSet := do
  let gap ← fsub p.target p.work
  let next ← if f32Le (fabs gap) step then pure p.target else fadd p.work (if gap.msb then fneg step else step)
  let cap ← fadd vm (← fmul 0x3DCCCCCD#32 vb)
  let v := if f32Lt p.work next ∧ f32Lt cap next then fmax p.work cap else next
  return { p with work := v, ramp := v != p.target }

/-! ### The current limit (R317, R318) -/

/-- The impedance in effect: R_L, X_L and R_L0 with a share g of the raised one. -/
def impedance (x : FormingUnit) (g : F32) : Fp (F32 × F32 × F32) := do
  let r ← fmul x.lim.rride g
  return (← fadd x.law.rv r, ← fadd x.law.xv (← fmul x.lim.xride g), ← fadd x.law.rv0 r)

/-- e - v, i_e and k for an internal voltage and an impedance Z, |Z| < 0.01 replaced. -/
structure Limited where
  zr : F32
  zi : F32
  da : F32
  db : F32
  ea : F32
  eb : F32
  k  : F32

def limitOf (x : FormingUnit) (i : FuIn) (e w rl xl : F32) (th : U32) : Fp Limited := do
  let zi0 ← fmul xl w
  let small := f32Lt (← fmag rl zi0) 0x3C23D70A#32
  let zr := if small then 0x3C23D70A#32 else rl
  let zi := if small then 0 else zi0
  let da ← fsub (← fmul e (fuCos th)) i.a
  let db ← fsub (← fmul e (fuSin th)) i.b
  let q ← fadd (← fmul zr zr) (← fmul zi zi)
  let ea ← fdiv (← fadd (← fmul da zr) (← fmul db zi)) q
  let eb ← fdiv (← fsub (← fmul db zr) (← fmul da zi)) q
  let m ← fmag ea eb
  let k ← if fIsZero m then pure fOne else (do return fmin fOne (← fdiv x.lim.ilim m))
  return { zr := zr, zi := zi, da := da, db := db, ea := ea, eb := eb, k := k }

/-- The angular frequency of the extractor at h = 3, 5, 7 and its gain: within what settles in 100 ms, four time constants
2 / (gain w) being taken as settled (R334). -/
def harmSpeed (x : FormingUnit) (j : Nat) : Rat := (2 * j + 3 : Nat) * sogiSpeed x
def harmGain (x : FormingUnit) (j : Nat) : Rat :=
  let w := harmSpeed x j
  ratClamp (Config.harmGain j) (if w ≤ 0 then 2 else min 2 (80 / w)) 2

/-- Harmonic extractors (R334): at 3, 5 and 7 times the rotor speed the in-phase words of α and β and their quadratures, which
hold the positive and the negative sequence, and at 3 times the zero part's. -/
def harmStep (x : FormingUnit) (i : FuIn) (t : F32) (st : List F32) : Fp (List F32) := do
  let w (k : Nat) : F32 := st.getD k 0
  let one (j : Nat) (v : F32) (p : F32 × F32) : Fp (F32 × F32) := sogi (toF32 (harmGain x j)) (toF32 (harmSpeed x j)) t v p
  let pairs ← (List.range 3).mapM (fun j => do
    let a ← one j i.ia (w (4 * j), w (4 * j + 2))
    let b ← one j i.ib (w (4 * j + 1), w (4 * j + 3))
    return [a.1, b.1, a.2, b.2])
  let z ← one 0 i.iz (w 12, w 13)
  return pairs.flatten ++ [z.1, z.2]

/-- rms harmonic current of the largest conductor at h = 3, 5, 7, in A (R318, R340). -/
def harmRms (c : PortConf) (st : List F32) : Fp (List F32) := do
  let ib ← iBase c
  (List.range 3).mapM (fun j => do
    let w (k : Nat) : F32 := st.getD k 0
    let zero (k : Nat) : F32 := if j = 0 then w (12 + k) else 0
    let parts (k : Nat) : Fp (List F32) := do
      let (a, b, z) := (w (4 * j + 2 * k), w (4 * j + 2 * k + 1), zero k)
      if c.split then return [← fadd z a, ← fsub z a, ← fmul fTwo z] else return (← phasesOf a b z) ++ [← fmul fThree z]
    let v ← parts 0
    let q ← parts 1
    let ms ← (v.zip q).mapM (fun p => fmag p.1 p.2)
    fmul ib (maxMag ms))

/-- Voltage references of a forming mode (R300, R303, R317): in-phase, quadrature and zero parts in p.u. -/
def formRef (x : FormingUnit) (i : FuIn) (l : Limited) (rl0 : F32) (harm : List F32) : Fp (List F32) := do
  let hs := [x.lim.rh3, x.lim.rh5, x.lim.rh7]
  let term (k : Nat) : Fp F32 := do
    let ts ← (List.range 3).mapM (fun j => fmul (hs.getD j 0) (harm.getD (4 * j + k) 0))
    fadd (ts.getD 0 0) (← fadd (ts.getD 1 0) (ts.getD 2 0))
  let va ← fadd i.a (← fmul l.k l.da)
  let vb ← fadd i.b (← fmul l.k l.db)
  let za ← fsub (← fmul l.zr i.ia) (← fmul l.zi i.ib)
  let zb ← fadd (← fmul l.zr i.ib) (← fmul l.zi i.ia)
  let a ← fsub (← fsub va za) (← term 0)
  let b ← fsub (← fsub vb zb) (← term 1)
  let z ← fsub (fneg (← fmul rl0 i.iz)) (← fmul x.lim.rh3 (harm.getD 12 0))
  return [a, b, z]

/-- A reference in p.u. as αβ0 quantities of a base. -/
def refOut (c : PortConf) (base : F32) (l : List F32) : Fp (List F32) := do
  let s ← l.mapM (fun v => fmul v base)
  if c.split then clarke (← fadd (s.getD 0 0) (s.getD 2 0)) (← fsub (s.getD 2 0) (s.getD 0 0)) 0 else return s

/-! ### Restoration offsets (R337, R338) -/

/-- An instant of a domain in ns. -/
def domNs (s : State) (d raw : Nat) : Int := domTime (getTd s d) raw / ns1
/-- Instant of step j of a schedule, in ns of its domain. -/
def stepNs (c : FuSched) (j : Nat) : Int := (c.anchor * 1000000000 + j * c.period * 1000000 : Nat)

/-- The offsets at a kernel instant: a step's move, which stands still while its domain has stopped (R339), or in FORM the way
to 0. `now` is the instant in the domain of the step, none while that is stopped. -/
def moveOffsets (x : FormingUnit) (now : Option Int) (tc : F32) : Fp (F32 × F32 × Option FuMove) := do
  let r := x.run
  if x.mode = .form ∨ x.mode = .follow then
    let down (v step : F32) : Fp F32 := do
      if f32Le (fabs v) step then return 0 else fadd v (if v.msb then step else fneg step)
    return (← down r.resF (← fmul x.law.rampF tc), ← down r.resV (← fmul (← fmul x.law.rampV x.port.vb) tc), none)
  match r.resMove with
  | none => return (r.resF, r.resV, none)
  | some m =>
    if x.mode ≠ .island then return (r.resF, r.resV, none)
    else match now with
    | none => return (r.resF, r.resV, r.resMove)
    | some n =>
      if n - m.at_ ≥ 100000000 then return (m.f1, m.v1, none)
      else
        let q : Rat := mkRat (max (n - m.at_) 0) 100000000
        let mix (a b : F32) : Fp F32 := fround (f32Val a + (f32Val b - f32Val a) * q)
        return (← mix m.f0 m.f1, ← mix m.v0 m.v1, r.resMove)

/-! ### Requests at the start of a kernel period (R305, R307, R308, R313, R322, R324, R330) -/

/-- A mode request is allowed now. -/
def modeAllowed (x : FormingUnit) (m : FuMode) : Bool :=
  match m, x.mode with
  | .follow, .off => x.pll.locked
  | .follow, .form => x.pll.locked && !x.run.ride
  | .sync, .off => true
  | .sync, .island => !x.run.ride
  | .form, .off => x.pll.locked
  | .form, .follow => x.pll.locked
  | .form, .sync => x.run.permit
  | .form, .island => x.run.permit
  | .island, .form => true
  | .island, .blackStart => true
  | .blackStart, .off => !x.pll.locked && f32Lt x.vm (fpVal (fmul x.sync.bsDead x.port.vb))
  | _, _ => false

/-- The record of a unit that leaves OFF, with its targets (R305, R306). -/
def freshRun (x : FormingUnit) : FuRun :=
  let tgt (k : Nat) (dflt : F32) : FuSet := { work := 0, target := (x.stored.getD k none).getD dflt, ramp := true }
  { fuRun0 with sp := tgt 0 0, sq := tgt 1 0, sf := tgt 2 x.port.fn, sv := tgt 3 x.port.vb, kernel := 0xFFFFFFFF#32, rl := x.law.rv, xl := x.law.xv }

/-- A unit enters a mode. `pre` is the unit as the kernel period found it. DECAY ends on entry into SYNC, where the impedance is
not raised (R322). -/
def enterMode (pre x : FormingUnit) (m : FuMode) (tk : Nat) : FormingUnit :=
  let r := if x.mode = .off then freshRun x else x.run
  let r1 := if m = .form ∧ (x.mode = .off ∨ x.mode = .follow) then { r with theta := pre.pll.theta, w := pre.pll.omega } else r
  let r2 := { r1 with soft := decide (x.mode = .off) && (m == .sync || m == .blackStart), bsEntry := tk, bsSince := none,
                      islSince := none, exitSince := if m = .form ∨ m = .island then r1.exitSince else none, decay := if m = .sync then none else r1.decay
                      permit := r1.permit && (m == .sync || m == .island), closeSince := if m = .sync ∨ m = .island then r1.closeSince else none }
  let r3 := if x.mode = .blackStart ∨ x.mode = .sync then { r2 with sv := { r2.sv with ramp := true } } else r2
  { x with mode := m, run := r3, stored := if x.mode = .off then [none, none, none, none] else x.stored }

/-- What the requests of a kernel period ask of it. -/
structure FuAsk where
  unit   : FormingUnit
  fresh  : List (Option F32)
  events : List (U16 × Bytes)
  back   : Bool                -- P_w, Q_w and V_w start at the measured quantities (R330)

/-- One request. `pre` is the unit as the kernel period found it, `leave` whether a unit may leave OFF (R290). -/
def takeReq (pre : FormingUnit) (leave : Bool) (tk : Nat) (q : FuAsk) (r : FuReq) : FuAsk :=
  let x := q.unit
  match r with
  | .law c => { q with unit := { x with law := c } }
  | .limits c => { q with unit := { x with lim := c } }
  | .off => if x.mode = .off then q else { q with unit := { x with offTaken := true }, fresh := storeTargets 3 [0, 0] q.fresh }
  | .setp mask vals =>
    if x.mode = .off then { q with unit := { x with stored := storeTargets mask vals x.stored } } else { q with fresh := storeTargets mask vals q.fresh }
  | .mode m =>
    if modeAllowed x m && (leave || x.mode != .off) then
      let y := enterMode pre x m tk
      { q with unit := y, back := q.back || (m == .form && (x.mode == .sync || x.mode == .island)), events := q.events ++ [(0x0700#16, n8 (fuCode x.mode) ++ n8 (fuCode m) ++ n8 (flag y.run.ride 0) ++ n8 0 ++ le32 (y.run.kernel + 1))] }
    else { q with events := q.events ++ [(0x0702#16, n8 (fuCode m) ++ n8 (fuCode x.mode))] }

/-! ### One kernel period (R295 to R304, R317 to R321, R325, R328) -/

/-- p and q (R296, R303). -/
def powerOf (c : PortConf) (i : FuIn) : Fp (F32 × F32) := do
  if c.split then
    return (← fmul fTwo (← fadd (← fmul i.a i.ia) (← fmul i.z i.iz)), ← fmul fTwo (← fsub (← fmul i.b i.ia) (← fmul i.a i.ib)))
  else
    return (← fadd (← fadd (← fmul i.a i.ia) (← fmul i.b i.ib)) (← fmul fTwo (← fmul i.z i.iz)), ← fsub (← fmul i.b i.ia) (← fmul i.a i.ib))

/-- Kernel periods of the half-period average (R296). -/
def avgWindow (x : FormingUnit) : Nat :=
  let f := f32Val (fpVal (fmul x.run.w x.port.fn))
  if f ≤ 0 then 1 else max 1 (ratRound (f32Val x.port.fk / (2 * f))).toNat
/-- The mean of a list of values, rounded once. -/
def meanOf (l : List F32) : F32 := (engRound ((l.map f32Val).sum / (max l.length 1 : Nat))).1

/-- P_f, Q_f and the window of the average. -/
def filterPower (x : FormingUnit) (i : FuIn) (tc : F32) : Fp (F32 × F32 × List (F32 × F32)) := do
  let r := x.run
  let now ← powerOf x.port i
  let on := x.law.avg || x.port.split
  let win := if on then (now :: r.pq).take (avgWindow x) else []
  let p := if on then meanOf (win.map Prod.fst) else now.1
  let q := if on then meanOf (win.map Prod.snd) else now.2
  if !r.started then return (p, q, win)
  else return (← lag r.pf p (← lagGain tc x.law.taup), ← lag r.qf q (← lagGain tc x.law.tauq), win)

/-- θ_g - θ_v as a signed fraction of a turn (R328). -/
def deltaOf (g v : U64) : Int := (angleOf g - angleOf v).toInt
/-- The same in turns. -/
def deltaTurns (d : Int) : F32 := toF32 (mkRat d (2 ^ 32))

/-- The working set-points after one period. In SYNC entered from OFF V_w starts at V_m and rises as in R325 until it has reached
its target or, with the grid present, V_g; from then on R305 and R328 hold. -/
def moveSets (x : FormingUnit) (fresh : List (Option F32)) (back : Bool) (mode : Nat) (tc : F32) : Fp FuRun := do
  let r := x.run
  let c := x.port
  let first := !r.started
  let normal := mode = 0
  let force := x.offTaken
  let rate (a b : F32) : Fp F32 := do fmul (← fmul a b) tc
  let f (k : Nat) : Option F32 := fresh.getD k none
  let sp ← moveSet r.sp (f 0) (← fmul r.pf c.sb) (← rate x.law.rampP c.sb) (first || back) normal force
  let sq ← moveSet r.sq (f 1) (← fmul r.qf c.sb) (← rate x.law.rampQ c.sb) (first || back) normal force
  let sf ← moveSet r.sf (f 2) (← fmul x.pll.omega c.fn) (← fmul x.law.rampF tc) first normal false
  let grid := x.mode = .sync ∧ x.present
  let aim := (f 3).getD r.sv.target
  let sv ← if r.soft ∧ !first then moveSoft { r.sv with target := if grid then x.vg else aim } x.vm c.vb (← rate x.sync.bsRate c.vb)
           else moveSet r.sv (f 3) x.vm (← rate x.law.rampV c.vb) (first || back) normal false
  let soft := r.soft && (x.mode == .blackStart || first || sv.ramp)
  let r1 := { r with sp := sp, sq := sq, sf := sf, sv := { sv with target := aim }, soft := soft }
  if grid then
    return { r1 with sp := { sp with work := ← fmul r.pf c.sb, ramp := true }, sq := { sq with work := ← fmul r.qf c.sb, ramp := true },
                     sv := { work := if soft then sv.work else x.vg, target := aim, ramp := true } }
  else return r1

/-- ω_0 of R297 and R328. -/
def omega0 (x : FormingUnit) (r : FuRun) (delta : Int) : Fp F32 := do
  let c := x.port
  let fw ← fdiv r.sf.work c.fn
  if x.mode = .sync then
    if x.present then
      let h ← fmul fHalf x.sync.closeDf
      fadd x.trk.omega (← fdiv (fclamp (← fmul 0x40A00000#32 (deltaTurns delta)) (fneg h) h) c.fn)
    else return fw
  else fadd fw (← fdiv r.resF c.fn)

/-- The swing equation by backward Euler (R295, R297), before the clamp. -/
def swing (x : FormingUnit) (r : FuRun) (w w0 tc : F32) : Fp F32 := do
  let c := x.port
  let mp ← fdiv x.law.mp fHundred
  let a ← fdiv tc (← fmul fTwo x.law.h)
  let drive ← fadd (← fsub (← fadd (← fdiv r.sp.work c.sb) (← fdiv w0 mp)) r.pf) (← fmul x.law.d x.pll.omega)
  fdiv (← fadd w (← fmul a drive)) (← fadd fOne (← fmul a (← fadd (← fdiv fOne mp) x.law.d)))

/-- E before its clamp (R298). -/
def droopE (x : FormingUnit) (r : FuRun) : Fp F32 := do
  let c := x.port
  let nq ← fdiv x.law.nq fHundred
  let base ← fdiv r.sv.work c.vb
  let res ← if x.mode = .sync then pure 0 else fdiv r.resV c.vb
  fadd (← fadd base res) (← fmul nq (← fsub (← fdiv r.sq.work c.sb) r.qf))

/-- The share g of the raised impedance (R317, R321). -/
def rideShare (x : FormingUnit) (r : FuRun) (tk : Nat) : Fp F32 :=
  if r.ride then return fOne
  else match r.decay with
    | none => return 0
    | some t => do return fmax 0 (← fsub fOne (← fdiv (secOf (tk - t)) x.lim.exit))
where secOf (ns : Nat) : F32 := toF32 (mkRat ns 1000000000)

/-- A forming mode over one period: speed, angle, E, the limit, the references. -/
def formLaw (x : FormingUnit) (i : FuIn) (r0 : FuRun) (delta : Int) (tc : F32) (tns tk : Nat) : Fp (FuRun × Bool) := do
  let c := x.port
  let w0 ← omega0 x r0 delta
  let start := if !r0.started ∧ (x.mode = .sync ∨ x.mode = .blackStart) then w0 else r0.w
  let raw ← swing x r0 start w0 tc
  let run := fclamp raw (← bandLo c) (← bandHi c)
  let e0 ← droopE x r0
  let e := fclamp e0 0 c.emax
  let frozen (ride : Bool) : Bool := ride && x.lim.freeze
  let held := if r0.ride then r0.wHeld else start
  let canRide := x.mode = .form ∨ x.mode = .island
  let speed (ride : Bool) : F32 := if frozen ride then held else run
  let w1 := speed r0.ride
  let th1 := r0.theta + angleStep w1 c.fn tns
  let trial ← limitOf x i e w1 r0.rl r0.xl (angleOf th1)
  let enters := decide canRide && !r0.ride && (f32Lt x.lim.ilim i.cond || f32Lt trial.k fOne)
  let ride := r0.ride || enters
  let w := speed ride
  let th := r0.theta + angleStep w c.fn tns
  let r1 := { r0 with ride := ride, decay := if enters then none else r0.decay, wHeld := held }
  let (rl, xl, rl0) ← impedance x (← rideShare x r1 tk)
  let l ← limitOf x i e w rl xl (angleOf th)
  let harm ← harmStep x i tc r0.harm
  let act := ride || f32Lt l.k fOne
  let iz := fclamp i.iz (fneg x.lim.ilim) x.lim.ilim
  let iref ← if act then (do return [← fmul l.k l.ea, ← fmul l.k l.eb, iz]) else pure [0, 0, 0]
  let calm := f32Le fOne l.k && f32Le i.cond (← fmul 0x3F666666#32 x.lim.ilim) && f32Le (← fmul fHalf c.vb) x.vm
  return ({ r1 with
    w := w, theta := th, e := e, rl := rl, xl := xl, k := l.k, harm := harm, iHarm := ← harmRms c harm
    vRef := ← refOut c (← vPeak c) (← formRef x i l rl0 harm), iRef := ← refOut c (← iPeak c) iref
    fClamp := !(frozen ride) && run != raw, eClamp := e != e0
    exitSince := if ride ∧ !enters ∧ calm then some (r0.exitSince.getD tk) else none }, enters)

/-- FOLLOW over one period (R304). E, k and the harmonic currents are not stated there; they are free. -/
def followLaw (x : FormingUnit) (i : FuIn) (r : FuRun) (tc : F32) : Fp FuRun := do
  let c := x.port
  let th := angleOf x.pll.theta
  let v := fmax x.pll.v 0x3DCCCCCD#32
  let va ← fmul v (fuCos th)
  let vb ← fmul v (fuSin th)
  let q ← fmul v v
  let pw ← fdiv r.sp.work c.sb
  let qw ← fdiv r.sq.work c.sb
  let ia ← fdiv (← fadd (← fmul pw va) (← fmul qw vb)) q
  let ib ← fdiv (← fsub (← fmul pw vb) (← fmul qw va)) q
  let m ← fmag ia ib
  let sc ← if f32Lt x.lim.ilim m then fdiv x.lim.ilim m else pure fOne
  let free (k : Nat) : Fp F32 := fnorm (Config.libWord 0x130 [i.a, i.b] [] [] tc k)
  return { r with theta := x.pll.theta, w := x.pll.omega, e := ← free 0, k := fclamp (← free 1) 0 fOne, iHarm := [fabs (← free 2), fabs (← free 3), fabs (← free 4)]
                  vRef := [i.raw.getD 0 0, i.raw.getD 1 0, 0], iRef := ← refOut c (← iPeak c) [← fmul ia sc, ← fmul ib sc, 0]
                  fClamp := false, eClamp := false, exitSince := none }

/-- Which of the closing criteria fail (R329): grid, frequency, angle, voltage. -/
def closeFails (x : FormingUnit) (r : FuRun) : Fp Nat := do
  let c := x.port
  let df ← fsub (← fmul r.w c.fn) (← fmul x.trk.omega c.fn)
  let dv ← fsub x.vm x.vg
  let d := deltaTurns (deltaOf x.trk.theta r.theta)
  return flag (!x.present) 0 + flag (f32Lt x.sync.closeDf (fabs df)) 1 + flag (f32Lt x.sync.closeDth (fabs d)) 2
    + flag (f32Lt (← fmul x.sync.closeDv c.vb) (fabs dv)) 3

/-- What a kernel period leaves: the unit, its events, the end of its shutdown. -/
structure KernelEnd where
  unit   : FormingUnit
  events : List (U16 × Bytes)
  ends   : Bool

/-- A kernel period that is not a monitor period. `pre` is the unit before its measurements, `now` the kernel instant
in the domain of a restoration step under way, none while that is stopped. -/
def kernelLaw (pre x : FormingUnit) (fresh : List (Option F32)) (back : Bool) (i : FuIn) (feed : FuFeed) (now : Option Int) (tc : F32) (tns : Nat) : Fp KernelEnd := do
  let c := x.port
  let (pf, qf, win) ← filterPower x i tc
  let (resF, resV, move) ← moveOffsets x now tc
  let r0 := { x.run with pf := pf, qf := qf, pq := win, resF := resF, resV := resV, resMove := move }
  let r1 ← moveSets { x with run := r0 } fresh back feed.mode tc
  let d0 := deltaOf pre.trk.theta (if x.run.started then x.run.theta else 0)
  let (r2, enters) ← if x.mode = .follow then (do return (← followLaw x i r1 tc, false)) else formLaw x i r1 d0 tc tns feed.tk
  let fails ← closeFails x r2
  let closing := x.mode = .sync ∨ x.mode = .island
  let fv ← fmul r2.w c.fn
  let isl := x.mode = .form ∧ !r2.ride ∧ x.sync.islAuto ∧ f32Lt x.sync.islDf (fabs (← fsub fv r2.sf.work))
  let level := r2.sv.work = r2.sv.target ∧ f32Le (fabs (← fsub x.vm r2.sv.work)) (← fmul x.sync.closeDv c.vb)
  let idx := x.run.kernel + 1
  let r3 := { r2 with
    started := true, kernel := idx, iMax := ← fmul i.cond (← iPeak c), rideNs := r2.rideNs + (if r2.ride then tns else 0)
    closeSince := if closing ∧ fails = 0 then some (r2.closeSince.getD feed.tk) else none, permit := r2.permit && decide closing && fails == 0
    islSince := if isl then some (r2.islSince.getD feed.tk) else none
    bsSince := if x.mode = .blackStart ∧ level then some (r2.bsSince.getD feed.tk) else none
    hist := ((feed.tk, fv, x.vm) :: r2.hist).filter (fun h => decide (feed.tk ≤ h.1 + 102000000)) }
  let ev1 := if enters then [(0x0700#16, n8 (fuCode x.mode) ++ n8 (fuCode x.mode) ++ n8 1 ++ n8 1 ++ le32 idx)] else []
  let ev2 := if r2.permit ∧ closing ∧ fails ≠ 0 then [(0x0710#16, n8 0 ++ n8 fails ++ [0, 0] ++ le32 (deltaTurns (deltaOf x.trk.theta r2.theta)))] else []
  let fg ← fmul x.trk.omega c.fn
  let ev3 := if x.mode = .island ∧ x.present ∧ !pre.present then [(0x0712#16, le32 x.vg ++ le32 fg)] else []
  let clamp := r3.fClamp || r3.eClamp
  let y := { x with run := r3, clamps := if clamp then x.clamps + 1 else x.clamps, rideEntries := if enters then x.rideEntries + 1 else x.rideEntries }
  let ends := x.offTaken ∧ fIsZero r3.sp.work ∧ fIsZero r3.sq.work ∧ f32Le i.imag 0x3D4CCCCD#32
  return { unit := y, events := ev1 ++ ev2 ++ ev3, ends := decide ends }

/-! ### Outputs (R292, R293, R314, R340) -/

/-- The flags field of a unit; in OFF it reads PLL_LOCKED alone (R314). -/
def fuFlags (x : FormingUnit) : Nat :=
  if x.mode = .off then flag x.pll.locked 1 else
  let r := x.run
  let ramp := r.sp.ramp ∨ r.sq.ramp ∨ r.sf.ramp ∨ r.sv.ramp
  flag r.ride 0 + flag x.pll.locked 1 + flag x.gap 2 + flag x.shutting.isSome 3 + flag r.fClamp 4 + flag r.eClamp 5 + flag (decide ramp) 6 + flag x.schedPub.on 7

/-- An αβ0 reference rotated by a turn fraction; the 0 part stays (R292). -/
def rotateRef (l : List F32) (d : U32) : Fp (List F32) := do
  let (a, b) := (l.getD 0 0, l.getD 1 0)
  return [← fsub (← fmul a (fuCos d)) (← fmul b (fuSin d)), ← fadd (← fmul a (fuSin d)) (← fmul b (fuCos d)), l.getD 2 0]

/-- Outputs of a unit for a reader at an instant (R292, R293). -/
def unitOutputs (s : State) (u reload : Nat) : List U32 :=
  let x := getFu s u
  let r := x.run
  if x.mode = .off ∨ !r.started then List.replicate 28 0
  else fpVal do
    let c := x.port
    let tk : U32 := BitVec.ofNat 32 x.tkDom
    let gap : Rat := mkRat ((timeAt s reload - tk).toInt) 1000000000
    let dt := ratClamp gap 0 (4 / f32Val c.fk)
    let fv ← fmul r.w c.fn
    let d : U32 := BitVec.ofInt 32 (ratRound (f32Val fv * dt * (2 ^ 32 : Nat)))
    let v ← rotateRef r.vRef d
    let i ← rotateRef r.iRef d
    let ph ← phasesOf (v.getD 0 0) (v.getD 1 0) (v.getD 2 0)
    return v ++ (if c.split then upd ph 2 (fun _ => 0) else ph) ++ i ++ [angleOf r.theta + d, ← fmul 0x40C90FDB#32 fv, fv, ← fmul r.e (← vPeak c), ← fmul r.pf c.sb,
      ← fmul r.qf c.sb, x.vm, ← fmul x.pll.omega c.fn, angleOf x.pll.theta + d, BitVec.ofNat 32 (fuCode x.mode), BitVec.ofNat 32 (fuFlags x), r.kernel,
      r.sp.work, r.sq.work, r.sf.work, r.sv.work, r.resF, r.resV, tk]

/-- The FU space as a frame reads it (R293). -/
def fuOutputs (s : State) (reload : Nat) : List U32 := unitOutputs s 0 reload ++ List.replicate 36 0 ++ unitOutputs s 1 reload

/-! ### Feeds (R286, R288, R291) -/

/-- A kernel or monitor period starts on a feed; the requests that wait belong to it (R305, R307). -/
def fuStart (u : Nat) (f : FuFeed) (s : State) : State :=
  updFu u (fun x => { x with running := some f, waiting := none, nowReqs := x.reqs, reqs := [] }) s

/-- A feed is delivered to a forming unit at a commit (R286, R288). -/
def fuDeliver (u : Nat) (vals : List U32) (f : Frame) (n : Nat) (s : State) : State :=
  let x := getFu s u
  if x.feeding ≠ some n ∨ (getStage s n).st ≠ .enabled then s
  else
    let feed : FuFeed := { vals := vals, tk := f.round, dom := match roundAt s f.round with | some r => r.dom | none => timeNs s f.round, mode := f.mode }
    let s1 := updFu u (fun y => { y with lastFeed := s.time.raw }) s
    if x.running.isNone then fuStart u feed s1
    else updFu u (fun y => { y with waiting := some feed, dropped := if x.waiting.isSome then y.dropped + 1 else y.dropped }) s1

end Sys2Proof.Machine
end

