-- ==== Sys2Proof/Machine/OpsLib.lean ====
section
/-! DEFINITION. The library of operations and the formula bytecode as functions of inputs, parameters and state words
(R236 to R242, R590, R591, R356). -/

namespace Sys2Proof.Machine

open Sys2Proof

/-- Word i of a list of binary32 words. -/
def wd (l : List F32) (i : Nat) : F32 := l.getD i 0
/-- A parameter with an integer meaning (R222). -/
def wholeOf (x : F32) : Nat := (ratFloor (f32Val x)).toNat
/-- The parameter is a whole number in a range. -/
def wholeIn (x : F32) (lo hi : Nat) : Bool := decide (f32Val x = ratFloor (f32Val x)) && decide ((lo : Rat) ≤ f32Val x) && decide (f32Val x ≤ hi)

/-- A sum of products, left to right. -/
def fdot : List (F32 × F32) → Fp F32
  | [] => return 0
  | (a, b) :: t => do
    let mut acc ← fmul a b
    for (c, d) in t do
      acc ← fadd acc (← fmul c d)
    return acc

/-! ### Library operations with binary32 results -/

/-- PI and PID after the controller sum (R237): the clamp, the integrator and the flag. -/
def piClose (v e i ki kaw lo hi t : F32) : Fp (F32 × F32 × F32) := do
  let u := fclamp v lo hi
  let i' ← fadd i (← fmul t (← fadd (← fmul ki e) (← fmul kaw (← fsub u v))))
  return (u, i', fBool (u != v))

/-- PI (R237). -/
def libPi (x p st : List F32) (t : F32) : Fp (List F32 × List F32) := do
  let e ← fsub (wd x 0) (wd x 1)
  let v ← fadd (← fadd (← fmul (wd p 0) e) (wd st 0)) (wd x 2)
  let (u, i, f) ← piClose v e (wd st 0) (wd p 1) (wd p 4) (wd p 2) (wd p 3) t
  return ([u, f], [i])

/-- PID (R237): state I, previous feedback, previous d. -/
def libPid (x p st : List F32) (t : F32) : Fp (List F32 × List F32) := do
  let e ← fsub (wd x 0) (wd x 1)
  let tf2 ← fmul fTwo (wd p 3)
  let num ← fsub (← fmul fTwo (← fsub (wd x 1) (wd st 1))) (← fmul (← fsub t tf2) (wd st 2))
  let d ← fdiv num (← fadd t tf2)
  let v ← fadd (← fsub (← fadd (← fmul (wd p 0) e) (wd st 0)) (← fmul (wd p 2) d)) (wd x 2)
  let (u, i, f) ← piClose v e (wd st 0) (wd p 1) (wd p 6) (wd p 4) (wd p 5) t
  return ([u, f], [i, wd x 1, d])

/-- Direct form II transposed (R238). -/
def biquad (b0 b1 b2 a1 a2 x s1 s2 : F32) : Fp (F32 × List F32) := do
  let y ← fadd (← fmul b0 x) s1
  let n1 ← fadd (← fsub (← fmul b1 x) (← fmul a1 y)) s2
  let n2 ← fsub (← fmul b2 x) (← fmul a2 y)
  return (y, [n1, n2])

/-- pi and sqrt 3 as binary32. -/
def fPi : F32 := 0x40490FDB#32
def fSqrt3 : F32 := 0x3FDDB3D7#32

/-- PR (R238): Tustin prewarped at the clamped frequency. -/
def libPr (x p st : List F32) (t : F32) : Fp (List F32 × List F32) := do
  let top ← fdiv (← fmul 0x3F666666#32 fPi) t
  let w := fmin (fmax (← fmul (wd p 2) (wd x 1)) fOne) top
  let c ← fdiv w (← felemTan (← fdiv (← fmul w t) fTwo))
  let ww ← fmul w w
  let cc ← fmul c c
  let ac ← fmul (← fmul fTwo (wd p 3)) c
  let bc ← fmul (← fmul (← fmul (wd p 1) fTwo) (wd p 3)) c
  let a0 ← fadd (← fadd cc ac) ww
  let b0 ← fdiv bc a0
  let a1 ← fdiv (← fmul fTwo (← fsub ww cc)) a0
  let a2 ← fdiv (← fadd (← fsub cc ac) ww) a0
  let (r, s) ← biquad b0 0 (fneg b0) a1 a2 (wd x 0) (wd st 0) (wd st 1)
  return ([← fadd (← fmul (wd p 0) (wd x 0)) r], s)

/-- LEAD_LAG: Tustin of k (1 + s tz) / (1 + s tp), direct form II transposed. -/
def libLeadLag (x p st : List F32) (t : F32) : Fp (List F32 × List F32) := do
  let z ← fdiv (← fmul fTwo (wd p 1)) t
  let q ← fdiv (← fmul fTwo (wd p 2)) t
  let a0 ← fadd fOne q
  let b0 ← fdiv (← fmul (wd p 0) (← fadd fOne z)) a0
  let b1 ← fdiv (← fmul (wd p 0) (← fsub fOne z)) a0
  let a1 ← fdiv (← fsub fOne q) a0
  let y ← fadd (← fmul b0 (wd x 0)) (wd st 0)
  return ([y], [← fsub (← fmul b1 (wd x 0)) (← fmul a1 y)])

/-- LUT: linear interpolation, held beyond the ends. -/
def libLut (x : F32) (p : List F32) : Fp F32 := do
  let m := wholeOf (wd p 0)
  let xs := (p.drop 1).take m
  let ys := (p.drop (1 + m)).take m
  if f32Nan x then fNan else
  match xs.findIdx? (fun v => fLess x v) with
  | none => return flush (ys.getLastD 0)
  | some 0 => return flush (wd ys 0)
  | some (j + 1) =>
    let num ← fmul (← fsub (wd ys (j + 1)) (wd ys j)) (← fsub x (wd xs j))
    fadd (wd ys j) (← fdiv num (← fsub (wd xs (j + 1)) (wd xs j)))

/-- CLARKE (R591). -/
def libClarke (x : List F32) : Fp (List F32) := do
  let (a, b, c) := (wd x 0, wd x 1, wd x 2)
  let al ← fdiv (← fsub (← fsub (← fmul fTwo a) b) c) fThree
  let be ← fdiv (← fsub b c) fSqrt3
  let z ← if x.length > 3 then fdiv (← fnegOp (wd x 3)) fThree else fdiv (← fadd (← fadd a b) c) fThree
  return [al, be, z]

/-- INV_CLARKE (R591). -/
def libInvClarke (x : List F32) : Fp (List F32) := do
  let (al, be, z) := (wd x 0, wd x 1, wd x 2)
  let h ← fdiv (← fnegOp al) fTwo
  let k ← fmul (← fdiv fSqrt3 fTwo) be
  return [← fadd al z, ← fadd (← fadd h k) z, ← fadd (← fsub h k) z, ← fmul (fneg fThree) z]

/-- PREDICT: x := A x + B u, k times. -/
def libPredict (x p : List F32) : Fp (List F32) := do
  let m := wholeOf (wd p 0)
  let u := x.drop m
  let row (i : Nat) : List F32 := ((p.drop (2 + i * m)).take m) ++ ((p.drop (2 + m * m + i * u.length)).take u.length)
  let once (v : List F32) : Fp (List F32) := (List.range m).mapM (fun i => fdot ((row i).zip (v ++ u)))
  let y ← once (x.take m)
  if wholeOf (wd p 1) ≥ 2 then once y else return y

/-- OBSERVER: x := A x + B u + L (y - C x), the state words holding x. -/
def libObserver (x p st : List F32) : Fp (List F32) := do
  let m := wholeOf (wd p 0)
  let np := wholeOf (wd p 1)
  let u := x.take np
  let y := x.drop np
  let q := y.length
  let v := st.take m
  let part (from_ n i : Nat) : List F32 := (p.drop (from_ + i * n)).take n
  let ma := 2
  let mb := ma + m * m
  let mc := mb + m * np
  let ml := mc + q * m
  let e ← (List.range q).mapM (fun i => do fsub (wd y i) (← fdot ((part mc m i).zip v)))
  (List.range m).mapM (fun i => do
    let ax ← fdot ((part ma m i).zip v)
    let bu ← if np = 0 then pure ax else do fadd ax (← fdot ((part mb np i).zip u))
    if q = 0 then pure bu else do fadd bu (← fdot ((part ml q i).zip e)))

/-- POWER: p, q and p0 of amplitude-invariant quantities in their units, as R294 and R296 give them in per unit. -/
def libPower (x : List F32) : Fp (List F32) := do
  let half3 : F32 := 0x3FC00000#32
  return [← fmul half3 (← fadd (← fmul (wd x 0) (wd x 3)) (← fmul (wd x 1) (wd x 4))),
          ← fmul half3 (← fsub (← fmul (wd x 1) (wd x 3)) (← fmul (wd x 0) (wd x 4))), ← fmul (← fmul fThree (wd x 2)) (wd x 5)]

/-- SEQUENCE: a generalised integrator on α and one on β; the sequences from the in-phase words and the lagging quadratures. -/
def libSequence (x p st : List F32) (t : F32) : Fp (List F32 × List F32) := do
  let step (v q : F32) (k : Nat) : Fp (F32 × F32) := sogi (wd p 0) (wd x 2) t v (q, wd st (k + 1))
  let a ← step (wd x 0) (wd st 0) 0
  let b ← step (wd x 1) (wd st 2) 2
  let half (v : F32) : Fp F32 := fmul 0x3F000000#32 v
  return ([← half (← fsub a.1 b.2), ← half (← fadd b.1 a.2), ← half (← fadd a.1 b.2), ← half (← fsub b.1 a.2)], [a.1, a.2, b.1, b.2])

/-- SRF_PLL in the form of R299: the error in quadrature, a PI, the speed within its bounds, the angle; the state words are the
angle and the integrator. -/
def libSrfPll (x p st : List F32) (t : F32) : Fp (List F32 × List F32) := do
  let th := wd st 0
  let c ← turnCos th
  let s ← turnSin th
  let vq ← fadd (← fmul (← fnegOp (wd x 0)) s) (← fmul (wd x 1) c)
  let amp := fsqrt (← fadd (← fmul (wd x 0) (wd x 0)) (← fmul (wd x 1) (wd x 1)))
  let i ← fadd (wd st 1) (← fmul (← fmul (wd p 1) t) vq)
  let w := fclamp (← fadd (wd p 2) (← fadd (← fmul (wd p 0) vq) i)) (wd p 3) (wd p 4)
  let turn ← fdiv (← fmul w t) (toF32 twoPi)
  let th1 := th + BitVec.ofInt 32 (ratRound (f32Val turn * (2 ^ 32 : Nat)))
  return ([th1, w, amp], [th1, i])

/-- RATE_LIMIT: the value itself where it lies within the step, else one step towards it. -/
def libRate (x y0 rise fall t : F32) : Fp F32 := do
  let up ← fmul rise t
  let down ← fmul fall t
  let d ← fsub x y0
  if f32Lt up d then fadd y0 up else if f32Lt d (fneg down) then fsub y0 down else fnorm x

/-- A library operation that writes signals: its outputs, the first N_OUT of them, and its state words (R236). -/
def libOp (op : Nat) (x p st : List F32) (t : F32) : Fp (List F32 × List F32) := do
  match op with
  | 0x01 => return (x, [])
  | 0x02 => return ([← fdot ((p.take x.length).zip x)], [])
  | 0x03 => return ([← fmul (wd x 0) (wd x 1)], [])
  | 0x04 => return ([← fclampOp (wd x 0) (wd p 0) (wd p 1), fBool (fLess (wd x 0) (wd p 0) || fLess (wd p 1) (wd x 0))], [])
  | 0x05 =>
    let y ← libRate (wd x 0) (wd st 0) (wd p 0) (wd p 1) t
    return ([y], [y])
  | 0x06 =>
    let y ← if f32Nan (wd x 0) then fNan else if fLess (wd p 0) (wd x 0) then fsub (wd x 0) (wd p 0)
      else if fLess (wd x 0) (fneg (wd p 0)) then fadd (wd x 0) (wd p 0) else pure 0
    return ([y], [])
  | 0x07 => return ([← libLut (wd x 0) p], [])
  | 0x10 => libPi x p st t
  | 0x11 => libPid x p st t
  | 0x12 => libPr x p st t
  | 0x13 =>
    let (y, s) ← biquad (wd p 0) (wd p 1) (wd p 2) (wd p 3) (wd p 4) (wd x 0) (wd st 0) (wd st 1)
    return ([y], s)
  | 0x14 => libLeadLag x p st t
  | 0x15 =>
    let g ← fsub fOne (← felemExp (← fdiv (fneg t) (wd p 0)))
    let y ← fadd (wd st 0) (← fmul g (← fsub (wd x 0) (wd st 0)))
    return ([y], [y])
  | 0x16 =>
    if x.length > 1 ∧ !fIsZero (wd x 1) then return ([0], [0])
    else
      let y := fclamp (← fadd (wd st 0) (← fmul (← fmul (wd p 0) (wd x 0)) t)) (wd p 1) (wd p 2)
      return ([y], [y])
  | 0x17 => return (st.drop (st.length - x.length), x ++ st.take (st.length - x.length))
  | 0x20 => return (← libClarke x, [])
  | 0x21 => return (← libInvClarke x, [])
  | 0x22 =>
    let c ← turnCos (wd x 2)
    let s ← turnSin (wd x 2)
    return ([← fadd (← fmul (wd x 0) c) (← fmul (wd x 1) s), ← fadd (← fmul (← fnegOp (wd x 0)) s) (← fmul (wd x 1) c)], [])
  | 0x23 =>
    let c ← turnCos (wd x 2)
    let s ← turnSin (wd x 2)
    return ([← fsub (← fmul (wd x 0) c) (← fmul (wd x 1) s), ← fadd (← fmul (wd x 0) s) (← fmul (wd x 1) c)], [])
  | 0x24 => return ([← turnSin (wd x 0), ← turnCos (wd x 0)], [])
  | 0x39 => return (← libPredict x p, [])
  | 0x3A =>
    let out := f32Nan (wd x 0) || fLess (wd x 0) (wd p 0) || fLess (wd p 1) (wd x 0)
    let c := if out then min (wholeOf (wd st 0) + 1) (wholeOf (wd p 2)) else 0
    return ([fBool (decide (c ≥ wholeOf (wd p 2)))], [f32OfInt c])
  | 0x38 =>
    let v ← libObserver x p st
    return (v, v)
  | 0x25 => libSrfPll x p st t
  | 0x26 => libSequence x p st t
  | 0x27 => return (← libPower x, [])
  | _ => return ([], [])

/-! ### Modulation operations (R239, R347, R356) -/

/-- A computed length or start in ns as sixteenths of 1 ns, nearest, held to the range of R347. -/
def toSixteenths (v : F32) : Nat := (max 0 (min (ratRound (16 * f32Val v)) (2 ^ 20 - 1))).toNat
/-- A computed start reduced modulo a period, both in sixteenths. -/
def startMod (v : F32) (p : Nat) : Nat := if p = 0 then 0 else ((ratRound (16 * f32Val v)) % (p : Int)).toNat
/-- Sixteenths of 1 ns as a binary32 in ns. -/
def nsOf (v : Nat) : F32 := toF32 (mkRat v 16)

/-- The compare values of a modulation operation, its period output and its state words; `per` is P in sixteenths. -/
def modOp (op : Nat) (x p st : List F32) (per : Nat) (t : F32) : Fp (List Nat × Option Nat × List F32) := do
  let pf := nsOf per
  match op with
  | 0x31 => return (← x.mapM (fun d => do return toSixteenths (← fmul (← fclampOp d 0 fOne) pf)), none, [])
  | 0x32 =>
    let f := fclamp (← fclampOp (wd x 0) (wd p 0) (wd p 1)) (wd p 0) (wd p 1)
    let pr := toSixteenths (← fdiv 0x4E6E6B28#32 f)
    let pp := nsOf pr
    let ph ← fmul (← fclampOp (wd x 1) (fneg (wd p 2)) (wd p 2)) pp
    let half ← fdiv pp fTwo
    return ([0, toSixteenths half, startMod ph pr, startMod (← fadd ph half) pr], some pr, [])
  | 0x33 =>
    let ph ← fmul (← fclampOp (wd x 0) (wd p 1) (wd p 0)) pf
    return ([0, startMod ph per], none, [])
  | 0x34 =>
    let m := wholeOf (wd p 0)
    let len := toSixteenths (← fmul (← fclampOp (wd x 0) 0 fOne) pf)
    let vs ← (List.range m).mapM (fun (k : Nat) => do
      if k = 0 then return [0, len]
      else
        let s ← fmul (← fadd (← fdiv (f32OfInt k) (f32OfInt m)) (wd x 1)) pf
        return [startMod s per, len])
    return (vs.flatten, none, [])
  | _ =>
    -- SVM_3L4L: the spec states the places of the legs, not the duties; in each half-cycle one of a leg's leads is 0
    let leg (l : Nat) : List Nat :=
      let d := min (Config.libWord op x p st t (2 * l)).toNat per
      if (Config.libWord op x p st t (2 * l + 1)).getLsbD 0 then [d, 0] else [0, d]
    let sts ← (List.range 2).mapM (fun i => fnorm (Config.libWord op x p st t (16 + i)))
    return (leg 0 ++ leg 1 ++ leg 2 ++ leg 3, none, sts)

/-! ### Formula bytecode (R241) -/

/-- A formula's run: stack, outputs, state words written, effects. -/
structure FxRun where
  stack : List F32
  outs  : List (Nat × F32)
  sts   : List (Nat × F32)
  acts  : List EffAct

/-- What a formula reads besides its stack. -/
structure FxEnv where
  code  : Nat → U32
  input : Nat → F32
  param : Nat → F32
  state : Nat → F32

/-- Two operands popped: a below b. -/
def fxBin (r : FxRun) (f : F32 → F32 → Fp F32) : Fp FxRun := do
  match r.stack with
  | b :: a :: t => return { r with stack := (← f a b) :: t }
  | _ => return r
def fxUn (r : FxRun) (f : F32 → Fp F32) : Fp FxRun := do
  match r.stack with
  | a :: t => return { r with stack := (← f a) :: t }
  | _ => return r
def fxPush (r : FxRun) (v : F32) : FxRun := { r with stack := v :: r.stack }

/-- A state word as the formula sees it: its own newest write, else the stored word. -/
def fxState (e : FxEnv) (r : FxRun) (k : Nat) : F32 := match r.sts.find? (fun p => p.1 = k) with | some p => p.2 | none => e.state k

/-- An instruction that neither jumps nor ends (R241). What it pushes is a result under R219, so that the stack holds finite
values only. -/
def fxStep (e : FxEnv) (ins k : Nat) (r : FxRun) : Fp FxRun := do
  match ins with
  | 0x02 => return fxPush r (← fnorm (e.input k))
  | 0x03 => match r.stack with | a :: t => return { r with stack := t, outs := (k, a) :: r.outs } | [] => return r
  | 0x04 => return fxPush r (← fnorm (fxState e r k))
  | 0x05 => match r.stack with | a :: t => return { r with stack := t, sts := (k, a) :: r.sts } | [] => return r
  | 0x06 => return fxPush r (← fnorm (e.param k))
  | 0x07 => match r.stack with | a :: t => return { r with stack := a :: a :: t } | [] => return r
  | 0x08 => return { r with stack := r.stack.drop 1 }
  | 0x09 => match r.stack with | b :: a :: t => return { r with stack := a :: b :: t } | _ => return r
  | 0x0A => fxBin r fadd
  | 0x0B => fxBin r fsub
  | 0x0C => fxBin r fmul
  | 0x0D => fxBin r fdiv
  | 0x0E => match r.stack with | c :: b :: a :: t => return { r with stack := (← fmac a b c) :: t } | _ => return r
  | 0x0F => fxBin r (fun a b => pure (fmin a b))
  | 0x10 => fxBin r (fun a b => pure (fmax a b))
  | 0x11 => fxUn r (fun a => pure (fabs a))
  | 0x12 => fxUn r fnegOp
  | 0x13 => fxUn r (fun a => pure (fsqrt a))
  | 0x14 => fxUn r felemSin
  | 0x15 => fxUn r felemCos
  | 0x16 => fxBin r felemAtan2
  | 0x17 => match r.stack with | hi :: lo :: x :: t => return { r with stack := fclamp x lo hi :: t } | _ => return r
  | 0x18 => fxBin r (fun a b => pure (fBool (f32Lt a b)))
  | 0x19 => match r.stack with | b :: a :: c :: t => return { r with stack := (if fIsZero c then b else a) :: t } | _ => return r
  | 0x1C => match r.stack with | a :: t => return { r with stack := t, acts := r.acts ++ [.event (BitVec.ofNat 16 k) a] } | [] => return r
  | 0x1D => match r.stack with | a :: t => return { r with stack := t, acts := r.acts ++ [.fieldOut k (!fIsZero a)] } | [] => return r
  | 0x1E => match r.stack with | a :: t => return { r with stack := t, acts := if fIsZero a then r.acts else r.acts ++ [.stop] } | [] => return r
  | 0x1F => fxUn r (fun a => pure (ffloor a))
  | _ => return r

/-- Run a formula from a code word; jumps go forward only, so the fuel of 1,024 words is enough (R242). -/
def fxRun (e : FxEnv) : Nat → Nat → FxRun → Fp FxRun
  | 0, _, r => return r
  | n + 1, pc, r => do
    let w := (e.code pc).toNat
    let ins := w / 2 ^ 27
    let k := w % 2 ^ 27
    match ins with
    | 0x00 => return r
    | 0x01 => fxRun e n (pc + 2) (fxPush r (← fnorm (e.code (pc + 1))))
    | 0x1A => fxRun e n (pc + k + 1) r
    | 0x1B =>
      match r.stack with
      | a :: t => fxRun e n (if fIsZero a then pc + k + 1 else pc + 1) { r with stack := t }
      | [] => return r
    | _ => fxRun e n (pc + 1) (← fxStep e ins k r)

end Sys2Proof.Machine
end

