-- ==== Sys2Proof/Machine/OpsImage.lean ====
section
/-! DEFINITION. The checks of a graph image: header, sections, references, library parameters, costs, states, the
successor table and formulas (R221 to R231, R236, R240 to R242, R250, R285). -/

namespace Sys2Proof.Machine

open Sys2Proof

/-- The header at an offset of graph memory (R221). -/
def readHeader (m : List Host.Cell) (off len : Nat) : Graph :=
  let h := memReadBytes m off 64
  { offset := off, length := len, engines := n8At h 7, frameTimer := n8At h 8, divider := n8At h 9, cut := n16At h 10, minPeriod := n32At h 12,
    nNodes := n16At h 0x10, nSucc := n16At h 0x12, nParams := n16At h 0x14, nSet := n8At h 0x16, pubBase := n16At h 0x18, pubWords := n16At h 0x1A,
    nodesOff := n32At h 0x1C, succOff := n32At h 0x20, paramOff := n32At h 0x24, setOff := n32At h 0x28, codeOff := n32At h 0x2C,
    codeWords := n32At h 0x30, initOff := n32At h 0x34, nInit := n16At h 0x38, version := u32At h 0x3C, phys := [] }

/-- The header's own fields are in range (R221). -/
def headerOk (m : List Host.Cell) (stage : Nat) (g : Graph) : Bool :=
  let h := memReadBytes m g.offset 64
  u32At h 0 == 0x52475A4F#32 && u16At h 4 == 1 && decide (n8At h 6 = stage) && byteAt h 0x17 == 0 && u16At h 0x3A == 0
    && decide (1 ≤ g.engines) && decide (g.engines ≤ 8) && decide (g.frameTimer ≤ 23) && decide (g.divider ≤ 16)
    && (if g.divider = 0 then decide (1000 ≤ g.minPeriod) && decide (g.minPeriod ≤ 1048560) else decide (g.minPeriod = 0))
    && decide (1 ≤ g.nNodes) && decide (g.nNodes ≤ 4096) && decide (g.nSucc ≤ 16384) && decide (g.nParams ≤ 8192) && decide (g.nSet ≤ 64)
    && decide (g.pubBase ≤ 9215) && decide (g.pubWords ≤ 9216) && decide (g.pubBase + g.pubWords ≤ 9216) && decide (g.codeWords ≤ 65536)
    && decide (g.nInit ≤ 1024)

/-- A state initialisation record: engine, first word, count; and its offset in the image. -/
def initRecs (m : List Host.Cell) (g : Graph) : Nat → Nat → List (Nat × Nat × Nat × Bool × Nat)
  | 0, _ => []
  | n + 1, off =>
    let h := memReadBytes m (g.offset + off) 8
    let c := n16At h 4
    (n8At h 0, n16At h 2, c, byteAt h 1 == 0 && u16At h 6 == 0, off) :: initRecs m g n (off + 8 + 4 * c)

/-- The records are within R222. -/
def initOk (m : List Host.Cell) (g : Graph) : Bool :=
  (initRecs m g g.nInit g.initOff).all (fun (e, o, c, z, _) => z && decide (e < g.engines) && decide (o ≤ 4095) && decide (1 ≤ c) && decide (o + c ≤ 4096))
/-- Length of the section of state initialisation records. -/
def initLen (m : List Host.Cell) (g : Graph) : Nat := ((initRecs m g g.nInit g.initOff).map (fun (_, _, c, _, _) => 8 + 4 * c)).sum

/-- The sections: offset, length, alignment. -/
def sectionsOf (m : List Host.Cell) (g : Graph) : List (Nat × Nat × Nat) :=
  [(0, 64, 1), (g.nodesOff, 32 * g.nNodes, 32), (g.succOff, 2 * g.nSucc, 4), (g.paramOff, 4 * g.nParams, 4), (g.setOff, 8 * g.nSet, 4),
   (g.codeOff, 4 * g.codeWords, 4), (g.initOff, initLen m g, 4)].filter (fun x => x.2.1 ≠ 0)

/-- Every section lies in the image, aligned, and none overlap (R221 to R223). -/
def sectionsOk (m : List Host.Cell) (g : Graph) : Bool :=
  let l := sectionsOf m g
  l.all (fun (o, n, a) => decide (o % a = 0) && decide (o + n ≤ g.length))
    && (l.zipIdx).all (fun (x, i) => (l.drop (i + 1)).all (fun y => decide (x.1 + x.2.1 ≤ y.1) || decide (y.1 + y.2.1 ≤ x.1)))

/-- An input reference of a graph (R226). -/
def inputRefOk (g : Graph) (r : Nat) : Bool :=
  let i := refIndex r
  match refSpace r with
  | 0 => decide (i < 1024 * g.engines)
  | 1 => decide (i < g.nParams)
  | 2 => decide (i < 80)
  | 3 => decide (i < 128)
  | 4 => decide (i < 256)
  | 6 => decide (i < 8)
  | _ => false

/-- Operation codes of effect nodes other than FORMULA (R236). -/
def isEffectOp (op : Nat) : Bool := op == 0x42 || op == 0x44 || op == 0x45 || op == 0x46 || op == 0x47

/-- The inputs an operation takes (R236); none for a code that is not in the library. -/
def opInputs (op : Nat) : Option (Nat × Nat) :=
  match op with
  | 0x01 => some (1, 4) | 0x02 => some (1, 7) | 0x03 => some (2, 2) | 0x04 => some (1, 1) | 0x05 => some (1, 1) | 0x06 => some (1, 1)
  | 0x07 => some (1, 1) | 0x10 => some (2, 3) | 0x11 => some (2, 3) | 0x12 => some (2, 2) | 0x13 => some (1, 1) | 0x14 => some (1, 1)
  | 0x15 => some (1, 1) | 0x16 => some (1, 2) | 0x17 => some (1, 4) | 0x20 => some (3, 4) | 0x21 => some (3, 3) | 0x22 => some (3, 3)
  | 0x23 => some (3, 3) | 0x24 => some (1, 1) | 0x25 => some (2, 2) | 0x26 => some (3, 3) | 0x27 => some (6, 6) | 0x30 => some (5, 5)
  | 0x31 => some (1, 8) | 0x32 => some (2, 2) | 0x33 => some (1, 1) | 0x34 => some (1, 2) | 0x38 => some (1, 8) | 0x39 => some (1, 8)
  | 0x3A => some (1, 1) | 0x40 => some (0, 8) | 0x41 => some (8, 8) | 0x42 => some (1, 8) | 0x43 => some (1, 8) | 0x44 => some (1, 8)
  | 0x45 => some (1, 2) | 0x46 => some (1, 1) | 0x47 => some (1, 1)
  | _ => none

/-- The outputs an operation with n inputs and the given parameters may have. -/
def opOutputs (op n : Nat) (p : Nat → F32) : Nat × Nat :=
  match op with
  | 0x01 => (n, n) | 0x17 => (n, n) | 0x04 => (1, 2) | 0x10 => (1, 2) | 0x11 => (1, 2) | 0x20 => (3, 3) | 0x21 => (3, 4) | 0x22 => (2, 2)
  | 0x23 => (2, 2) | 0x24 => (2, 2) | 0x25 => (3, 3) | 0x26 => (4, 4) | 0x27 => (3, 3) | 0x38 => (wholeOf (p 0), wholeOf (p 0))
  | 0x39 => (wholeOf (p 0), wholeOf (p 0)) | 0x40 => (0, 8)
  | 0x41 => (0, 0) | 0x42 => (0, 0) | 0x43 => (0, 0) | 0x44 => (0, 0) | 0x45 => (0, 0) | 0x46 => (0, 0) | 0x47 => (0, 0)
  | _ => (1, 1)

/-- Words of the parameter block. -/
def opParams (op n : Nat) (p : Nat → F32) : Nat :=
  let m := wholeOf (p 0)
  match op with
  | 0x02 => n | 0x04 => 2 | 0x05 => 2 | 0x06 => 1 | 0x07 => 1 + 2 * m | 0x10 => 5 | 0x11 => 7 | 0x12 => 4 | 0x13 => 5 | 0x14 => 3 | 0x15 => 1
  | 0x16 => 3 | 0x17 => 1 | 0x25 => 5 | 0x26 => 1 | 0x30 => 3 | 0x32 => 3 | 0x33 => 2 | 0x34 => 1
  | 0x38 => let k := wholeOf (p 1); 2 + m * m + m * k + 2 * (m * (n - k))
  | 0x39 => 2 + m * m + m * (n - m) | 0x3A => 3
  | 0x41 => 1 | 0x42 => 1 | 0x43 => 1 | 0x44 => 1 | 0x45 => 1 | 0x46 => 1
  | _ => 0

/-- State words of an operation but FORMULA. -/
def opState (op n : Nat) (p : Nat → F32) : Nat :=
  match op with
  | 0x05 => 1 | 0x10 => 1 | 0x11 => 3 | 0x12 => 2 | 0x13 => 2 | 0x14 => 1 | 0x15 => 1 | 0x16 => 1 | 0x17 => n * wholeOf (p 0) | 0x25 => 2
  | 0x26 => 4 | 0x30 => 2 | 0x38 => wholeOf (p 0) | 0x3A => 1
  | _ => 0

/-- The ceiling of log2. -/
def log2Ceil (m : Nat) : Nat := if m ≤ 1 then 0 else Nat.log2 (m - 1) + 1

/-- Cycles of an operation but FORMULA. -/
def opCycles (op n : Nat) (p : Nat → F32) : Nat :=
  let m := wholeOf (p 0)
  match op with
  | 0x01 => 2 + n | 0x02 => 4 + n | 0x03 => 3 | 0x04 => 4 | 0x05 => 6 | 0x06 => 4 | 0x07 => 8 + 2 * log2Ceil m | 0x10 => 14 | 0x11 => 22 | 0x12 => 20
  | 0x13 => 10 | 0x14 => 10 | 0x15 => 6 | 0x16 => 6 | 0x17 => 3 + n | 0x20 => 8 | 0x21 => 8 | 0x22 => 14 | 0x23 => 14 | 0x24 => 10 | 0x25 => 30
  | 0x26 => 40 | 0x27 => 12 | 0x30 => 60 | 0x31 => 4 + 2 * n | 0x32 => 24 | 0x33 => 16 | 0x34 => 8 + 4 * m | 0x38 => 2 * m * m + 6 * m
  | 0x39 => 2 * wholeOf (p 1) * m * m + 4 * m | 0x3A => 6 | 0x41 => 8 | 0x42 => 8 | 0x43 => 2 + n | 0x44 => 4 + n | 0x45 => 6 | 0x46 => 6
  | 0x47 => 4
  | _ => 0

/-- The parameters of an operation meet its ranges and orders (R236). -/
def opRanges (op n : Nat) (p : Nat → F32) : Bool :=
  let pos (i : Nat) : Bool := decide (0 < f32Val (p i))
  let nonneg (i : Nat) : Bool := decide (0 ≤ f32Val (p i))
  let le (i j : Nat) : Bool := f32Le (p i) (p j)
  match op with
  | 0x04 => le 0 1
  | 0x05 => pos 0 && pos 1
  | 0x06 => nonneg 0
  | 0x07 => wholeIn (p 0) 2 64 && (List.range (wholeOf (p 0) - 1)).all (fun i => f32Lt (p (1 + i)) (p (2 + i)))
  | 0x10 => le 2 3
  | 0x11 => pos 3 && le 4 5
  | 0x12 => wholeIn (p 2) 1 15
  | 0x14 => nonneg 1 && pos 2
  | 0x15 => pos 0
  | 0x16 => le 1 2
  | 0x17 => wholeIn (p 0) 1 16
  | 0x25 => le 3 4
  | 0x26 => pos 0
  | 0x30 => wholeIn (p 0) 0 1 && f32In (p 2) 0 (f32Val 0x3F933333#32)
  | 0x32 => f32In (p 0) 15259 10000000 && f32In (p 1) 15259 10000000 && le 0 1 && f32In (p 2) 0 (mkRat 1 2)
  | 0x33 => f32In (p 0) 0 (mkRat 1 2) && nonneg 1 && le 1 0
  | 0x34 => wholeIn (p 0) 2 8
  | 0x38 => wholeIn (p 0) 1 8 && wholeIn (p 1) 0 (n - 1)
  | 0x39 => wholeIn (p 0) 1 8 && decide (wholeOf (p 0) ≤ n) && wholeIn (p 1) 1 2
  | 0x3A => le 0 1 && wholeIn (p 2) 1 255
  | 0x41 => wholeIn (p 0) 0 1
  | 0x42 => wholeIn (p 0) 0 255
  | 0x43 => wholeIn (p 0) 0 9215
  | 0x44 => wholeIn (p 0) 0 63
  | 0x45 => wholeIn (p 0) 0 65535
  | 0x46 => wholeIn (p 0) 0 7
  | _ => true

/-! ### Formulas (R242) -/

/-- Pops, pushes and cycles of a formula instruction (R241). -/
def fxShape (ins : Nat) : Nat × Nat × Nat :=
  match ins with
  | 0x00 => (0, 0, 1) | 0x01 => (0, 1, 1) | 0x02 => (0, 1, 1) | 0x03 => (1, 0, 1) | 0x04 => (0, 1, 1) | 0x05 => (1, 0, 1) | 0x06 => (0, 1, 1)
  | 0x07 => (1, 2, 1) | 0x08 => (1, 0, 1) | 0x09 => (2, 2, 1) | 0x0A => (2, 1, 1) | 0x0B => (2, 1, 1) | 0x0C => (2, 1, 1) | 0x0D => (2, 1, 8)
  | 0x0E => (3, 1, 1) | 0x0F => (2, 1, 1) | 0x10 => (2, 1, 1) | 0x11 => (1, 1, 1) | 0x12 => (1, 1, 1) | 0x13 => (1, 1, 8) | 0x14 => (1, 1, 12)
  | 0x15 => (1, 1, 12) | 0x16 => (2, 1, 20) | 0x17 => (3, 1, 2) | 0x18 => (2, 1, 1) | 0x19 => (3, 1, 1) | 0x1A => (0, 0, 1) | 0x1B => (1, 0, 1)
  | 0x1C => (1, 0, 4) | 0x1D => (1, 0, 4) | 0x1E => (1, 0, 4) | _ => (1, 1, 1)

/-- An instruction of a formula: its word, code and operand. -/
structure FxIns where
  pos : Nat
  ins : Nat
  k   : Nat
deriving DecidableEq, Repr

/-- Read a formula from a word to its last HALT: the first HALT that no jump passes. -/
def fxScan (code : Nat → U32) (words : Nat) : Nat → Nat → Nat → Option (List FxIns)
  | 0, _, _ => none
  | n + 1, pos, far =>
    if pos ≥ words then none
    else
      let w := (code pos).toNat
      let i : FxIns := { pos := pos, ins := w / 2 ^ 27, k := w % 2 ^ 27 }
      if i.ins = 0 ∧ far ≤ pos then some [i]
      else
        let next := if i.ins = 1 then pos + 2 else pos + 1
        let far' := if i.ins = 0x1A ∨ i.ins = 0x1B then max far (pos + i.k + 1) else far
        (fxScan code words n next far').map (fun t => i :: t)

/-- An effect instruction. -/
def fxEffect (i : FxIns) : Bool := decide (0x1C ≤ i.ins) && decide (i.ins ≤ 0x1E)

/-- The operand is in range for the node (R241, R242). -/
def fxOperandOk (g : Graph) (n : Node) (i : FxIns) : Bool :=
  match i.ins with
  | 0x02 => decide (i.k < n.nIn)
  | 0x03 => decide (i.k < n.nOut)
  | 0x04 => decide (i.k ≤ 255) && decide (n.state ≠ 0xFFFF)
  | 0x05 => decide (i.k ≤ 255) && decide (n.state ≠ 0xFFFF)
  | 0x06 => decide (i.k < g.nParams)
  | 0x1A => true
  | 0x1B => true
  | 0x1C => decide (i.k ≤ 65535)
  | 0x1D => decide (i.k ≤ 7)
  | _ => decide (i.k = 0)

/-- The stack depths with which a word is reached, over the instructions before it: (word, depth). None where a path
pops from empty, passes 16 values, or is not empty at a HALT. -/
def fxDepths : List FxIns → List (Nat × Nat) → Bool
  | [], _ => true
  | i :: t, seen =>
    let ds := (seen.filter (fun p => p.1 = i.pos)).map Prod.snd |>.eraseDups
    let (pops, pushes, _) := fxShape i.ins
    let next := if i.ins = 1 then i.pos + 2 else i.pos + 1
    let outs := ds.map (fun d => d - pops + pushes)
    ds.all (fun d => decide (pops ≤ d) && decide (d - pops + pushes ≤ 16) && (i.ins ≠ 0 || decide (d = 0)))
      && fxDepths t (seen ++ (if i.ins = 0 then [] else if i.ins = 0x1A then outs.map (fun d => (i.pos + i.k + 1, d))
        else if i.ins = 0x1B then outs.flatMap (fun d => [(next, d), (i.pos + i.k + 1, d)]) else outs.map (fun d => (next, d))))

/-- The formula of a node, if it is within R242. -/
def formulaOf (s : State) (g : Graph) (n : Node) : Option (List FxIns) :=
  match fxScan (graphCode s g) g.codeWords 1024 n.param 0 with
  | none => none
  | some l =>
    let last := match l.getLast? with | some i => i.pos | none => n.param
    let eff := l.any fxEffect
    let jumps := l.all (fun i => if i.ins = 0x1A ∨ i.ins = 0x1B then l.any (fun j => j.pos = i.pos + i.k + 1) else true)
    if decide (last + 1 - n.param ≤ 1024) && jumps && l.all (fxOperandOk g n) && fxDepths l [(n.param, 0)]
        && (if eff then n.effect && decide (n.nOut = 0) && l.all (fun i => i.ins ≠ 3 && i.ins ≠ 5) else !n.effect) then some l
    else none

/-- Cycles and state words of a formula (R242). -/
def fxCost (l : List FxIns) : Nat := 6 + (l.map (fun i => (fxShape i.ins).2.2)).sum
def fxStateWords (l : List FxIns) : Nat := l.foldl (fun m i => if i.ins = 4 ∨ i.ins = 5 then max m (i.k + 1) else m) 0

/-! ### Nodes -/

/-- The parameter block of a node under a view of the parameter words. -/
def blockOf (p : Nat → F32) (n : Node) : Nat → F32 := fun i => p (n.param + i)
/-- The parameter block lies in the parameter area and meets its operation's ranges (R223, R236, R240). -/
def blockOk (g : Graph) (p : Nat → F32) (n : Node) : Bool :=
  n.op == 0x40 || (decide (opParams n.op n.nIn (blockOf p n) = 0) && opRanges n.op n.nIn (blockOf p n))
    || (decide (n.param < g.nParams) && opRanges n.op n.nIn (blockOf p n) && decide (n.param + opParams n.op n.nIn (blockOf p n) ≤ g.nParams)
        && (n.op != 0x43 || decide (wholeOf (blockOf p n 0) + n.nIn ≤ g.pubWords)))

/-- State words of a node. -/
def nodeState (s : State) (g : Graph) (n : Node) : Nat :=
  if n.op = 0x40 then (match formulaOf s g n with | some l => fxStateWords l | none => 0) else opState n.op n.nIn (blockOf (graphParam s g) n)

/-- The cost of a node (R231): its operation's cycles and 4 for each signal input from another engine. -/
def nodeCost (s : State) (g : Graph) (n : Node) : Nat :=
  let remote := ((nodeIns n).filter (fun r => refSpace r = 0 && refIndex r / 1024 ≠ n.home)).length
  (if n.op = 0x40 then (match formulaOf s g n with | some l => fxCost l | none => 0) else opCycles n.op n.nIn (blockOf (graphParam s g) n)) + 4 * remote

/-- One node's descriptor is within R225 to R231, R236, R240 to R242 and R250. -/
def nodeOk (s : State) (g : Graph) (n : Node) : Bool :=
  let p := graphParam s g
  match opInputs n.op with
  | none => false
  | some (lo, hi) =>
    let (olo, ohi) := opOutputs n.op n.nIn (blockOf p n)
    decide (n.resv = 0) && decide (n.home < g.engines) && decide (lo ≤ n.nIn) && decide (n.nIn ≤ hi) && decide (olo ≤ n.nOut) && decide (n.nOut ≤ ohi)
      && decide (n.nIn + n.nOut ≤ 8) && decide (n.ratePhase ≤ n.rateDiv) && (n.priv || (decide (n.pq = 0) && decide (n.level = 0)))
      && (!n.effect || (decide (n.nOut = 0) && decide (n.nSucc = 0))) && (n.op == 0x40 || n.effect == isEffectOp n.op)
      && decide (n.succ + n.nSucc ≤ g.nSucc || n.nSucc = 0)
      && (nodeIns n).all (fun r => r ≠ 0xFFFF && inputRefOk g r)
      && (nodeOuts n).all (fun r => if isMod n.op then decide (refSpace r = 5) && decide (refIndex r < 32)
          else decide (refSpace r = 0) && decide (refIndex r < 1024 * g.engines) && decide (refIndex r / 1024 = n.home))
      && (n.refs.drop (n.nIn + n.nOut)).all (· = 0xFFFF)
      && blockOk g p n && (n.op != 0x40 || (formulaOf s g n).isSome) && decide (n.cost = nodeCost s g n)
      && (if nodeState s g n = 0 then n.state == 0xFFFF else decide (n.state + nodeState s g n ≤ 4096))

/-- The state words of the nodes homed on each engine do not overlap (R223). -/
def statesApart (s : State) (g : Graph) (ns : List Node) : Bool :=
  let l := (ns.map (fun n => (n.home, n.state, nodeState s g n))).filter (fun x => x.2.2 ≠ 0)
  (l.zipIdx).all (fun (x, i) => (l.drop (i + 1)).all (fun y => x.1 ≠ y.1 || decide (x.2.1 + x.2.2 ≤ y.2.1) || decide (y.2.1 + y.2.2 ≤ x.2.1)))

/-- Words that PUBLISH nodes cover (R240). -/
def pubCover (s : State) (g : Graph) (n : Node) : List Nat :=
  if n.op = 0x43 then (List.range n.nIn).map (fun i => wholeOf (graphParam s g n.param) + i) else []

/-- How often each node is named within the successor ranges (R229). -/
def namedCount (s : State) (g : Graph) (ns : List Node) (i : Nat) : Nat := ((ns.flatMap (nodeSuccs s g)).filter (· = i)).length

/-- Remove nodes without predecessors until none is left: the successor table has no cycle (R229). -/
def acyclic (s : State) (g : Graph) : Nat → List Nat → Bool
  | 0, l => l.isEmpty
  | k + 1, l =>
    let named := (l.map (graphNode s g)).flatMap (nodeSuccs s g)
    let rest := l.filter (fun i => named.contains i)
    if rest.length = l.length then l.isEmpty else acyclic s g k rest

/-- The set-point table is within R222 and R223. -/
def setOk (s : State) (g : Graph) : Bool :=
  let l := (List.range g.nSet).map (setEntry s g)
  l.all (fun (p, r, v) => decide (p < g.nParams) && r ≠ 0xFFFF && inputRefOk g r && !f32Bad v && decide (0 < f32Val v)) && (l.map Prod.fst).Nodup

/-- Signals that a node writes. -/
def nodeSigs (n : Node) : List Nat := if isMod n.op then [] else ((nodeOuts n).filter (fun r => refSpace r = 0)).map refIndex

/-- The units that FU_FEED nodes of a graph name (R285). -/
def feedUnits (s : State) (g : Graph) : List Nat :=
  ((graphNodes s g).filter (fun n => n.op = 0x41)).map (fun n => wholeOf (graphParam s g n.param))

/-- Who feeds the units follows the graph's parameter words (R285): a unit that a graph no longer names has no feeding stage, and
one in OFF runs no monitor period then (R291). -/
def refeed (n : Nat) (s : State) : State :=
  match (getStage s n).graph with
  | none => s
  | some g =>
    let node (u : Nat) : Option Node := (graphNodes s g).find? (fun d => d.op = 0x41 && decide (wholeOf (graphParam s g d.param) = u))
    forEach [0, 1] (fun u s => match node u with
      | some d => updFu u (fun x => { x with feeding := some n, feedDiv := d.rateDiv + 1 }) s
      | none => if (getFu s u).feeding = some n then updFu u (fun x => { (if x.mode = .off then fuBlind x else x) with feeding := none, feedDiv := 0 }) s else s) s

/-- Parameter writes that are due enter the image (R243), and the feeds follow them (R285). -/
def applyWrites (n : Nat) (upTo : Option U32) (s : State) : State := refeed n (foldWrites n upTo s)

/-- A stage enters OFF, its writes in the image and its feeds with them. -/
def stageOver (n cause : Nat) (s : State) : State := refeed n (stageEntersOff n cause s)

/-- Other loaded graphs. -/
def otherGraphs (s : State) (stage : Nat) : List Graph :=
  ((List.range 8).filter (· ≠ stage)).filterMap (fun n => (getStage s n).graph)

/-- Two ranges of numbers do not meet. -/
def apart (a n b m : Nat) : Bool := n = 0 || m = 0 || decide (a + n ≤ b) || decide (b + m ≤ a)

/-- The units that a stage's graph names, or will name once its writes apply (R285). -/
def unitsClaimed (s : State) (n : Nat) (g : Graph) : List Nat :=
  feedUnits s g ++ ((graphNodes s g).filter (fun d => d.op = 0x41)).flatMap (fun d =>
    (((getStage s n).writes.filter (fun w => w.first ≤ d.param && d.param < w.first + w.vals.length)).map (fun w => wholeOf (f32Param (w.vals.getD (d.param - w.first) 0)))))

/-- Parameter words of a graph, as a view shows them, keep what holds of all loaded graphs: no unit is fed twice (R285), and
no two PUBLISH nodes cover the same word (R240). -/
def viewApart (s : State) (n : Nat) (g : Graph) (view : Nat → F32) : Bool :=
  let ns := graphNodes s g
  let units := (ns.filter (fun d => d.op = 0x41)).map (fun d => wholeOf (view d.param))
  units.Nodup
    && ((List.range 8).filter (· ≠ n)).all (fun k => match (getStage s k).graph with | some h => (unitsClaimed s k h).all (fun u => !units.contains u) | none => true)
    && (ns.flatMap (fun d => if d.op = 0x43 then (List.range d.nIn).map (fun i => wholeOf (view d.param) + i) else [])).Nodup

/-- The image meets every check that GRAPH_LOAD answers with E_PARAM (R223), but for the number of engines. -/
def imageOk (s : State) (stage : Nat) (g : Graph) : Bool :=
  let m := s.loop.mem
  decide (64 ≤ g.length) && headerOk m stage g && initOk m g && sectionsOk m g
    && (List.range g.nParams).all (fun k => !f32Bad (u32At (memReadBytes m (g.offset + g.paramOff + 4 * k) 4) 0))
    && (List.range g.nSucc).all (fun j => decide (graphSucc s g j < g.nNodes))
    && setOk s g
    && (let ns := graphNodes s g
        ns.all (nodeOk s g) && (ns.zipIdx).all (fun (n, i) => decide (n.deps = namedCount s g ns i + (nodeChans n).length))
          && acyclic s g g.nNodes (List.range g.nNodes) && statesApart s g ns && (ns.flatMap nodeSigs).Nodup && (ns.filterMap modGroup).Nodup
          && (ns.flatMap (pubCover s g)).Nodup
          && (feedUnits s g).Nodup && ((List.range 8).filter (· ≠ stage)).all (fun k => match (getStage s k).graph with
              | some h => (unitsClaimed s k h).all (fun u => !(feedUnits s g).contains u)
              | none => true)
          && (otherGraphs s stage).all (fun h => apart h.pubBase h.pubWords g.pubBase g.pubWords && apart h.offset h.length g.offset g.length)
          && decide (g.nNodes + ((otherGraphs s stage).map (·.nNodes)).sum ≤ 4096))

end Sys2Proof.Machine
end

