-- ==== Sys2Proof/Machine/OpsSched.lean ====
section
/-! DEFINITION. Shared operations of the dataflow scheduler and of Dill: frames, instances, values read by a node, and
what an instance computes (spec/08, spec/09, spec/10). -/

namespace Sys2Proof.Machine

open Sys2Proof

/-! ### Cycles, frames and instances -/

/-- The crossing from the loop island to the PWM island, in quarters of 1 ns (R16 to R18). -/
def crossPwm (s : State) : Nat := 2 * loopCyc s + 4 * (if pwmFallback s then 40 else 4)
/-- Time reaches at least an instant of the scheduler. -/
def advanceQ (q : Nat) (s : State) : State := advanceTo (ceilDiv q 4) s

/-- Frame a comes after frame b. -/
def frameAfter (a b : U32) : Bool := decide (0 < (a - b).toInt)
/-- An open frame of a stage. -/
def getFrame (s : State) (n : Nat) (idx : U32) : Option Frame := (getStage s n).frames.find? (fun f => f.index == idx)
/-- The head frame of a stage: the oldest open one (R247). -/
def headFrame (s : State) (n : Nat) : Option Frame := (getStage s n).frames.head?
def updFrame (n : Nat) (idx : U32) (f : Frame → Frame) (s : State) : State :=
  updStage n (fun x => { x with frames := x.frames.map (fun y => if y.index = idx then f y else y) }) s
/-- Open frames of a stage older than a frame, the nearest first. -/
def olderFrames (s : State) (n : Nat) (idx : U32) : List Frame := ((getStage s n).frames.filter (fun f => frameAfter idx f.index)).reverse

/-- The place of the live instance of a node in a frame. -/
def instAt (s : State) (n : Nat) (idx : U32) (node : Nat) : Option Nat :=
  s.loop.insts.findIdx? (fun i => decide (i.stage = n) && i.frame == idx && decide (i.node = node) && !i.dead)
def nodeInst (s : State) (k : Nat) : Option Inst := s.loop.insts[k]?
def setNodeInst (k : Nat) (i : Inst) (s : State) : State := { s with loop := { s.loop with insts := s.loop.insts.set k i } }
def dropInst (k : Nat) (s : State) : State := { s with loop := { s.loop with insts := s.loop.insts.eraseIdx k } }

/-- The graph of a stage, an empty one where none is loaded. -/
def stageGraph (s : State) (n : Nat) : Graph :=
  match (getStage s n).graph with
  | some g => g
  | none => { offset := 0, length := 0, engines := 0, frameTimer := 0, divider := 1, cut := 0, minPeriod := 0, nNodes := 0, nSucc := 0, nParams := 0, nSet := 0,
              pubBase := 0, pubWords := 0, nodesOff := 0, succOff := 0, paramOff := 0, setOff := 0, codeOff := 0, codeWords := 0, initOff := 0, nInit := 0,
              version := 0, phys := [] }

/-- The channels that a stage's graph reads, of which its frames hold samples. -/
def stageChannels (s : State) (n : Nat) : List Nat := graphChans s (stageGraph s n)

/-- A swap of one of the resources of a stage's start is in progress (R534): a row, core, lane, unit or engine whose decided
retirement is still to be carried out; the isolation lanes serve a graph that writes field outputs. -/
def swapPending (s : State) (n : Nat) : Bool :=
  let chs := stageChannels s n
  let phys := match (getStage s n).graph with | some g => g.phys | none => []
  s.rel.waiting.any (fun r => match r.cls with
    | 0 => phys.contains r.index || (decide (18 ≤ r.index) && decide (r.index ≤ 32) && (getStage s n).graph.any (fun g =>
        let a := (r.index - 18) * 65536 + 128 * r.row
        decide (a < g.offset + g.length) && decide (g.offset < a + 128)))
        || (decide (r.index = 33) && chs.any (fun c => (assignOf s.flt.assigns c).any (fun a => match a.set.bind (fun k => s.flt.sets.getD k none) with
            | some f => decide (4 * f.base < 128 * r.row + 128) && decide (128 * r.row < 4 * (f.base + f.taps))
            | none => false)))
    | 1 => chs.any (fun c => decide (48 ≤ c) && decide ((getCore s ((c - 48) / 8)).phys = some r.index))
    | 2 => !chs.isEmpty
    | 3 => (stageGroups s n).any (fun k => (getGroup s k).units.contains r.index)
    | 4 => phys.contains r.index
    | _ => (graphNodes s (stageGraph s n)).any (fun x => x.op == 0x46))

/-! ### Rounds and channels (R25, R27, R190) -/

/-- The slot in which a channel's output is delivered. -/
def slotOf (s : State) (c : Nat) : Option Nat := (assignOf s.flt.assigns c).map (fun a => a.first + a.gang - 1)
/-- The sample of a channel in a round, once it is usable. -/
def usableSample (s : State) (t c : Nat) : Option F32 :=
  match roundAt s t, slotOf s c with
  | some r, some k => if r.done.contains k ∨ r.t < s.sense.round.t ∧ k ≠ 79 then r.vals.getD c none else none
  | _, _ => none
/-- The latest round at or before an instant less a cut time (R27). -/
def roundBefore (t cut : Nat) : Nat := (t - cut) / 1000 * 1000

/-! ### Values (R226 to R229, R244, R267, R268) -/

/-- The bs_stuck bits (R164). -/
def stuckBits (s : State) : Nat := bitField ((List.range 48).filter (fun c => (getSense s c).stuck))
/-- The values that are fixed for a frame of a stage now (R229, R267): taps at its reload, or at its opening ahead of it (R479). -/
def takeSnap (s : State) (n reload : Nat) : Snap :=
  { fu := fuOutputs s reload, can := canTaps s (min reload s.time.raw), stuck := stuckBits s, exc := (getStage s n).exceptions }

/-- The newest write of a parameter word for frames up to one. -/
def writtenParam (ws : List ParamWrite) (idx : U32) (k : Nat) : Option F32 :=
  ws.foldl (fun m w => if !frameAfter w.apply idx ∧ w.first ≤ k ∧ k < w.first + w.vals.length then w.vals[k - w.first]? else m) none
/-- A parameter word as written for a frame, set-points at their target. -/
def paramFor (s : State) (n : Nat) (idx : U32) (k : Nat) : F32 :=
  match writtenParam (getStage s n).writes idx k with
  | some v => f32Param v
  | none => graphParam s (stageGraph s n) k
/-- A parameter word as a node of a frame reads it: a set-point's working value (R244); in a committed frame as it was for
that frame (R235). -/
def paramVal (s : State) (n : Nat) (f : Frame) (k : Nat) : F32 :=
  match f.setps.find? (fun p => p.param = k), f.pars with
  | some p, _ => p.work
  | none, some l => wd l k
  | none, none => paramFor s n f.index k

/-- A committed signal. -/
def committedSig (s : State) (n sg : Nat) : U32 := match (getStage s n).sig.find? (fun p => p.1 = sg) with | some p => p.2 | none => 0
/-- The signals and state words of an open frame as computed, before any correction (R268). -/
def computedSig (f : Frame) : List (Nat × U32) := if f.corrected then f.rawSig else f.sig
def computedWords (f : Frame) : List (Nat × U32) := if f.corrected then f.rawWords else f.words
/-- The value of a signal in the nearest frame older than one (R268). -/
def olderSig (s : State) (n : Nat) (idx : U32) (sg : Nat) : U32 :=
  match (olderFrames s n idx).findSome? (fun f => ((computedSig f).find? (fun p => p.1 = sg)).map Prod.snd) with
  | some v => v
  | none => committedSig s n sg
/-- The node that writes a signal. -/
def writerOf (s : State) (n sg : Nat) : Option Nat := (graphNodes s (stageGraph s n)).findIdx? (fun x => (nodeSigs x).contains sg)
/-- A node can be reached from another by successor entries (R228). -/
def reaches (s : State) (n b : Nat) : Nat → List Nat → Bool
  | 0, _ => false
  | k + 1, from_ =>
    let g := stageGraph s n
    let next := (from_.flatMap (fun i => nodeSuccs s g (graphNode s g i))).eraseDups
    next.contains b || (!next.isEmpty && reaches s n b k next)
/-- A signal as a node reads it (R227, R228); an effect node reads the committed values of its frame (R235). -/
def sigVal (s : State) (n : Nat) (f : Frame) (node : Nat) (effect : Bool) (sg : Nat) : U32 :=
  let own := (f.sig.find? (fun p => p.1 = sg)).map Prod.snd
  match own, writerOf s n sg with
  | some v, some w => if effect ∨ reaches s n node (stageGraph s n).nNodes [w] then v else olderSig s n f.index sg
  | _, _ => olderSig s n f.index sg

/-- An IN channel as a node reads it: its prediction in a frame opened ahead, else the sample (R248, R264). -/
def inVal (f : Frame) (effect : Bool) (c : Nat) : U32 :=
  let pred := if effect then none else (f.preds.find? (fun p => p.channel = c)).map (·.xhat)
  match pred with
  | some x => x
  | none => match f.samples.find? (fun p => p.1 = c) with | some p => p.2 | none => 0

/-- A length in ns as seconds. -/
def secondsOf (ns : Nat) : F32 := toF32 (mkRat ns 1000000000)
/-- A SYS value of a frame (R226). -/
def sysVal (f : Frame) (k : Nat) : U32 :=
  match k with
  | 0 => f.index
  | 1 => secondsOf f.length
  | 2 => BitVec.ofNat 32 f.mode
  | 3 => BitVec.ofNat 32 (f.snap.stuck % 2 ^ 32)
  | 4 => BitVec.ofNat 32 (f.snap.stuck / 2 ^ 32)
  | 5 => f.tReload
  | 6 => f.tRound
  | _ => f.snap.exc

/-- An input reference as a node of a frame reads it (R226). -/
def refVal (s : State) (n : Nat) (f : Frame) (node : Nat) (effect : Bool) (r : Nat) : U32 :=
  let i := refIndex r
  match refSpace r with
  | 0 => sigVal s n f node effect i
  | 1 => paramVal s n f i
  | 2 => inVal f effect i
  | 3 => f.snap.fu.getD i 0
  | 4 => canTapAt f.snap.can i
  | 6 => sysVal f i
  | _ => 0

/-- A state word, index 4096 e + word, as a frame reads it (R268). -/
def wordVal (s : State) (n : Nat) (f : Frame) (w : Nat) : U32 :=
  match f.words.find? (fun p => p.1 = w) with
  | some p => p.2
  | none =>
    match (olderFrames s n f.index).findSome? (fun f => ((computedWords f).find? (fun p => p.1 = w)).map Prod.snd) with
    | some v => v
    | none => match (getStage s n).words.find? (fun p => p.1 = w) with | some p => p.2 | none => 0

/-- A quantity in the newest committed frame, from which a ramp starts (R222, R244); an IN channel whose sample is not yet
usable for that frame counts as in the newest committed frame that has it (log 150). -/
def measuredVal (s : State) (n r : Nat) : U32 :=
  let x := getStage s n
  let i := refIndex r
  match refSpace r with
  | 0 => committedSig s n i
  | 1 => match x.setps.find? (fun p => p.param = i) with | some p => p.work | none => paramFor s n x.cFrame i
  | 2 => (x.hist.findSome? (fun h => (h.2.find? (fun p => p.1 = i)).map Prod.snd)).getD 0
  | 3 => x.cSnap.fu.getD i 0
  | 4 => canTapAt x.cSnap.can i
  | _ =>
    match i with
    | 0 => x.cFrame
    | 1 => secondsOf x.cPeriod
    | 2 => BitVec.ofNat 32 x.mode
    | 3 => BitVec.ofNat 32 (x.cSnap.stuck % 2 ^ 32)
    | 4 => BitVec.ofNat 32 (x.cSnap.stuck / 2 ^ 32)
    | 5 => x.cTime
    | 6 => x.cRound
    | _ => x.cSnap.exc

/-- One set-point in a new frame (R244): a write since the frame before starts a ramp from the measured value, or takes
the target at once outside mode NORMAL; a ramp moves by at most rate x length. -/
def moveSetpoint (s : State) (n : Nat) (base idx : U32) (len mode : Nat) (p : SetPoint) : SetPoint :=
  let fresh := writtenParam ((getStage s n).writes.filter (fun w => frameAfter w.apply base)) idx p.param
  let entry := (List.range (stageGraph s n).nSet).map (setEntry s (stageGraph s n)) |>.find? (fun e => e.1 = p.param)
  match fresh, entry with
  | some t, some (_, r, _) =>
    if mode = 0 then { p with work := measuredVal s n r, target := f32Param t, ramp := true } else { p with work := f32Param t, target := f32Param t, ramp := false }
  | _, _ =>
    if !p.ramp then p
    else if mode ≠ 0 then { p with work := p.target, ramp := false }
    else
      let rate := match entry with | some (_, _, v) => f32Val v | none => 0
      let step := rate * mkRat len 1000000000
      let gap := f32Val p.target - f32Val p.work
      if ratAbs gap ≤ step then { p with work := p.target, ramp := false }
      else { p with work := (engRound (f32Val p.work + (if gap < 0 then -step else step))).1 }

/-! ### Opening frames (R247, R248, R264 to R269) -/

/-- The mode of a frame (R245). -/
def modeFor (x : Stage) (idx : U32) : Nat := x.modes.foldl (fun m p => if frameAfter p.1 idx then m else p.2) x.mode

/-- The predicted length of a frame not yet reached (R267); a slave frame timer has its master's period, dithered under the
master's reload count (R344, R345). -/
def predictLen (s : State) (n : Nat) (idx : U32) : Nat :=
  let g := stageGraph s n
  let ft := getTimer s g.frameTimer
  let t := if ft.slave then getTimer s ft.master else ft
  let out := t.periodGroup.bind (fun grp =>
    match (olderFrames s n idx).findSome? (fun f => (f.sets.find? (fun x => x.1 = grp)).bind (fun x => x.2.2)) with
    | some p => some p
    | none => ((getStage s n).periods.find? (fun x => x.1 = grp)).map Prod.snd)
  let p := match out with | some p => max t.pmin (min p t.pmax) | none => t.period
  let pe := dither p (if ft.slave then t.reloads.toNat % 16 else idx.toNat % 16)
  frameDiv g pe * pe

/-- A prediction x^ of a channel, k frames ahead of the newest committed frame (R269). -/
def predict (s : State) (n k : Nat) (i : DillInput) : F32 :=
  let h := (getStage s n).hist
  let x (j : Nat) : F32 := match (h.getD j (0, [])).2.find? (fun p => p.1 = i.channel) with | some p => p.2 | none => 0
  let comb (a b c : F32) : F32 :=
    (do let t ← fsub (← fmul a (x 0)) (← fmul b (x 1)); if fIsZero c then return t else fadd t (← fmul c (x 2)) : Fp F32).run [] |>.1
  match i.predictor, k with
  | 0, _ => x 0
  | 1, 1 => comb fTwo fOne 0
  | 1, _ => comb fThree fTwo 0
  | 2, 1 => comb fThree fThree fOne
  | 2, _ => comb 0x40C00000#32 0x41000000#32 fThree
  | _, 1 => committedSig s n i.signal
  | _, _ => committedSig s n (i.signal + 1)

/-- The matrix J as it stands when a frame opens (R271). -/
def readJac (s : State) (n : Nat) (f : Frame) : List F32 :=
  let d := (getStage s n).dill
  (List.range (d.inputs.length * d.targets.length)).map (fun i => if d.jParam then paramVal s n f (d.jBase + i) else olderSig s n f.index (d.jBase + i))

/-- A new frame without its instances. `at_` gives reload, length and whether the length is fixed; `round` the sample
round where one is chosen already; `keep` the values of its reload where they are held. -/
def newFrame (s : State) (n : Nat) (idx : U32) (spec : Bool) (reload len : Nat) (fixed : Bool) (round : Option Nat) (keep : Option Snap) : Frame :=
  let x := getStage s n
  let g := stageGraph s n
  let prev := (olderFrames s n idx).head?
  let cum := if idx = x.frameIndex then x.cumLen else (match prev with | some p => p.cum | none => x.cumLen) + len
  let mode := modeFor x idx
  let base := match prev with | some p => (p.setps, p.index) | none => (x.setps, x.cFrame)
  let rd := round.getD (roundBefore (reload + len) (if spec then x.dill.cutSpec else g.cut))
  let f0 : Frame :=
    { index := idx, spec := spec, round := rd, tReload := timeAt s reload, tRound := timeAt s rd, completeAt := 0, rawSig := [], rawWords := [], length := len, fixed := fixed,
      reload := reload, cum := cum, preds := [], jac := [], corrected := false, complete := false, samples := [], sig := [], words := [], ran := [],
      sets := [], pubs := [], feeds := [], exc := [], snap := keep.getD (takeSnap s n reload), snapR := none, again := false, mode := mode,
      setps := base.1.map (moveSetpoint s n base.2 idx len mode), pars := none }
  if spec then
    let f1 := { f0 with preds := x.dill.inputs.map (fun (i : DillInput) => { channel := i.channel, xhat := predict s n (idx - x.cFrame).toNat i, x := none }) }
    { f1 with jac := readJac s n f1 }
  else f0

/-- A completion of a frame has been posted at an instant. The frame is reported complete in the cycle after the completion
of every instance but the effects has been posted (R251). -/
def checkComplete (n : Nat) (idx : U32) (q : Nat) (s : State) : State :=
  let more := s.loop.insts.any (fun i => decide (i.stage = n) && i.frame == idx && !i.dead && !i.effect)
  updFrame n idx (fun f => { f with complete := !more, completeAt := max f.completeAt (q + loopCyc s) }) s

/-- Post a completion, its engine's queue having room (R258); one without successor entries leaves the queue at once. -/
def postCompletion (e q : Nat) (c : Completion) (s : State) : State :=
  let s1 := match instAt s c.stage c.frame c.node with | some k => dropInst k s | none => s
  checkComplete c.stage c.frame q
    (if c.len = 0 then s1 else updEngine e (fun x => { x with queue := x.queue ++ [{ c with at_ := q }] }) s1)

/-- An instance has ended or is skipped: its completion is posted, or waits for room (R249, R253). A skip is posted in its
cycle, also while an ended instance's 2 cycles run, and takes room before it (R258): they wait in the order of their instants. -/
def endInst (k : Nat) (i : Inst) (q : Nat) (skip : Bool) (s : State) : State :=
  let g := stageGraph s i.stage
  let e := physOf s i.stage i.home
  let c : Completion := { stage := i.stage, frame := i.frame, node := i.node, pos := 0, len := (graphNode s g i.node).nSucc, at_ := q }
  if skip ∧ (getEngine s e).queue.length < 8 ∧ (getEngine s e).waitPost.all (fun d => decide (q ≤ d.at_)) then postCompletion e q c (setNodeInst k { i with st := .ended } s)
  else updEngine e (fun x => { x with waitPost := x.waitPost.takeWhile (fun d => decide (d.at_ ≤ q)) ++ c :: x.waitPost.dropWhile (fun d => decide (d.at_ ≤ q)) }) (setNodeInst k { i with st := .ended } s)

/-- Count and post arithmetic exceptions (R219, R246). -/
def countExceptions (n : Nat) (l : List (Nat × Nat)) (s : State) : State :=
  l.foldl (fun s p =>
    let s1 := updStage n (fun x => { x with exceptions := x.exceptions + 1 }) s
    postMerge 0x0601#16 n (n16 p.1 ++ n8 p.2 ++ [0] ++ le32 (getStage s1 n).exceptions) s1) s

/-- An instance's counter reaches zero at an instant (R248 to R250, R252, R253). `port` is the logical engine whose
decrement port carries the decrement; the answer says whether that port stops. An effect instance's exceptions count as it
takes its values (R219, R235). -/
def becomeDue (k : Nat) (q : Nat) (port : Option Nat) (s0 : State) : Bool × State :=
  match nodeInst s0 k with
  | none => (false, s0)
  | some i =>
    let s := if i.effect ∧ i.committed then countExceptions i.stage (i.excs.map (fun c => (i.node, c))) s0 else s0
    if !i.runs then (false, if i.effect then dropInst k s else endInst k i q true s)
    else if i.effect ∧ !i.committed then (false, setNodeInst k { i with st := .effectWait } s)
    else if canTake s i then (false, takeSlot k i q q s)
    else (port.isSome, updStage i.stage (fun x => { x with slotWaits := x.slotWaits + 1 }) (setNodeInst k { i with st := .noSlot q port } s))

/-- A decrement of a node's counter in a frame (R248). -/
def decrement (n : Nat) (idx : U32) (node q : Nat) (port : Option Nat) (s : State) : Bool × State :=
  match instAt s n idx node with
  | none => (false, s)
  | some k =>
    match nodeInst s k with
    | none => (false, s)
    | some i =>
      let s1 := setNodeInst k { i with counter := i.counter - 1 } s
      if i.counter = 1 ∧ i.st = .waiting then becomeDue k q port s1 else (false, s1)

/-- An IN channel becomes usable for a frame: every node that reads it is decremented (R248). -/
def channelUsable (n : Nat) (idx : U32) (c q : Nat) (s : State) : State :=
  let g := stageGraph s n
  forEach ((List.range g.nNodes).filter (fun i => (nodeChans (graphNode s g i)).contains c)) (fun i s => (decrement n idx i q none s).2) s

/-- Give a frame its instances (R247, R248): counters less the channels that are usable or predicted already. -/
def openInsts (n : Nat) (f : Frame) (s : State) : State :=
  let g := stageGraph s n
  let have_ : List Nat := f.preds.map (·.channel) ++ f.samples.map Prod.fst
  let mk (i : Nat) : Inst :=
    let d := graphNode s g i
    { stage := n, frame := f.index, node := i, counter := d.deps - ((nodeChans d).filter (fun c => have_.contains c)).length, st := .waiting, home := d.home,
      cost := d.cost, priv := d.priv, pq := d.pq, level := d.level, runs := decide (f.index.toNat % (d.rateDiv + 1) = d.ratePhase), effect := d.effect,
      committed := false, dead := false, acts := [], excs := [] }
  let s1 := { s with loop := { s.loop with insts := s.loop.insts ++ (List.range g.nNodes).map mk } }
  let q := qNow s
  checkComplete n f.index q <| forEach (List.range g.nNodes) (fun i s =>
    match instAt s n f.index i with
    | none => s
    | some k => match nodeInst s k with
      | some x => if x.counter = 0 ∧ x.st = .waiting then (becomeDue k q none s).2 else s
      | none => s) s1

/-- Open frames in index order. -/
def insertFrame (f : Frame) : List Frame → List Frame
  | [] => [f]
  | g :: t => if frameAfter f.index g.index then g :: insertFrame f t else f :: g :: t

/-- Open a frame: it joins the open frames, the samples already usable count at once (R247, R248). -/
def openFrame (n : Nat) (f0 : Frame) (s : State) : State :=
  let predicted := f0.preds.map (·.channel)
  let got := (stageChannels s n).filterMap (fun c => if predicted.contains c then none else (usableSample s f0.round c).map (fun v => (c, v)))
  let f := { f0 with samples := got }
  let x := getStage s n
  openInsts n f (updStage n (fun y => { y with frames := insertFrame f y.frames, newest := if frameAfter f.index x.newest then f.index else x.newest }) s)

/-- Reopen a squashed frame after an input or period miss: not speculative, its sample round the one chosen (R274). -/
def reopenFrame (n : Nat) (f : Frame) (s : State) : State :=
  openFrame n { newFrame s n f.index false f.reload f.length f.fixed (some f.round) (match f.snapR with | some r => some r | none => if f.spec then none else some f.snap) with again := true } s

/-- Squash a frame and every younger one (R273). -/
def squashFrom (n : Nat) (idx : U32) (s : State) : State :=
  squash n ((getStage s n).frames.filterMap (fun f => if frameAfter idx f.index then none else some f.index)) s

/-- A period miss or an input miss: the frame and the younger ones are squashed, and the frame is reopened (R273, R274). -/
def missFrame (n cause : Nat) (f : Frame) (s : State) : State :=
  reopenFrame n f (updStage n (fun x => { x with lastCause := cause }) (squashFrom n f.index s))

/-- The hit test of a predicted input (R270). -/
def hitTest (i : DillInput) (xhat v : F32) : Bool :=
  let r := (do let w ← fadd i.tolAbs (← fmul i.tolRel (fabs xhat)); let d ← fsub v xhat; return f32Le (fabs d) w : Fp Bool).run []
  r.1

/-- A sample becomes usable for an open frame (R248, R270, R274). -/
def deliverSample (n c : Nat) (v : F32) (q : Nat) (f : Frame) (s : State) : State :=
  let d := (getStage s n).dill
  match (if f.spec then f.preds.find? (fun p => p.channel = c) else none), d.inputs.findIdx? (fun i => i.channel = c) with
  | some p, some k =>
    if hitTest (d.inputs.getD k { channel := 0, predictor := 0, signal := 0, tolAbs := 0, tolRel := 0 }) p.xhat v then
      updFrame n f.index (fun y => { y with samples := y.samples ++ [(c, v)], preds := y.preds.map (fun z => if z.channel = c then { z with x := some v } else z) }) s
    else
      missFrame n 0 f (updStage n (fun x => { x with inputMisses := x.inputMisses + 1, missBy := upd x.missBy k (· + 1) }) s)
  | _, _ => channelUsable n f.index c q (updFrame n f.index (fun y => { y with samples := y.samples ++ [(c, v)] }) s)

/-- Predicted inputs of a speculative frame whose samples are usable already when it opens are tested at once (R270). -/
def testUsable (n : Nat) (idx : U32) (s : State) : State :=
  forEach ((getStage s n).dill.inputs.map (·.channel)) (fun c s =>
    match getFrame s n idx with
    | some f =>
      if f.spec then (match usableSample s f.round c with | some v => deliverSample n c v (qNow s) f s | none => s) else s
    | none => s) s

/-- Frames that the most demanding predictor of a stage needs (R265). -/
def predictorNeed (d : DillConf) : Nat := d.inputs.foldl (fun m i => max m (match i.predictor with | 1 => 2 | 2 => 3 | _ => 1)) 1

/-- Open frames ahead up to the run-ahead depth beyond the newest committed frame (R264, R265); none younger than a frame that was
reopened after a miss, until that one commits (R274). -/
def openAhead (n : Nat) (s : State) : State :=
  let x := getStage s n
  let d := x.dill
  if d.depth = 0 ∨ x.hist.length < predictorNeed d ∨ x.suspend.isSome ∨ x.handover.isSome ∨ !(x.st == .starting || x.st == .enabled) then s
  else
    (List.range d.depth).foldl (fun s j =>
      let x := getStage s n
      let idx := x.cFrame + BitVec.ofNat 32 (j + 1)
      if frameAfter idx x.frameIndex ∧ (getFrame s n idx).isNone ∧ x.frames.all (fun f => !f.again || frameAfter f.index idx) then
        let prev := (olderFrames s n idx).head?
        let reload := match prev with | some p => p.reload + p.length | none => x.frameEnd
        let reload := if idx = x.frameIndex + 1 then x.frameEnd else reload
        testUsable n idx (openFrame n (newFrame s n idx true reload (predictLen s n idx) false none none) s)
      else s) s

/-! ### What an instance computes (R232, R236 to R242) -/

/-- The period P of a group for a modulation operation, in sixteenths of 1 ns (R356). -/
def groupPeriod (s : State) (grp : Nat) : Nat :=
  match (getGroup s grp).timer with
  | none => 0
  | some t => let x := getTimer s t; if x.slave then (getTimer s x.master).period else x.period

/-- The node period T of a node in a frame in ns (R232). -/
def nodePeriod (s : State) (n : Nat) (f : Frame) (node : Nat) : Nat :=
  let prev := match (olderFrames s n f.index).find? (fun g => g.ran.contains node) with
    | some g => some g.cum
    | none => ((getStage s n).lastRun.find? (fun p => p.1 = node)).map Prod.snd
  match prev with | some c => f.cum - c | none => f.length

/-- What a node reads: inputs, parameter block, state words. -/
structure NodeEnv where
  x  : List F32
  p  : List F32
  st : List F32
  t  : F32

def nodeEnv (s : State) (n : Nat) (f : Frame) (i : Nat) (effect : Bool) : NodeEnv :=
  let g := stageGraph s n
  let d := graphNode s g i
  let pv := paramVal s n f
  { x := (nodeIns d).map (refVal s n f i effect)
    p := (List.range (opParams d.op d.nIn (blockOf pv d))).map (fun k => pv (d.param + k))
    st := (List.range (opState d.op d.nIn (blockOf pv d))).map (fun k => wordVal s n f (4096 * d.home + d.state + k))
    t := secondsOf (nodePeriod s n f i) }

/-- The run of a formula node. -/
def runFormula (s : State) (n : Nat) (f : Frame) (i : Nat) (effect : Bool) : Fp FxRun :=
  let g := stageGraph s n
  let d := graphNode s g i
  let xs := (nodeIns d).map (refVal s n f i effect)
  fxRun { code := graphCode s g, input := fun k => wd xs k, param := paramVal s n f, state := fun k => wordVal s n f (4096 * d.home + d.state + k) }
    1024 d.param { stack := [], outs := [], sts := [], acts := [] }

/-- Replace or add pairs in a list keyed by numbers, the new ones first. -/
def putAll {α : Type} (new old : List (Nat × α)) : List (Nat × α) := new ++ old.filter (fun p => !(new.any (fun q => q.1 = p.1)))

/-- A node without effect computes in its frame: signals, state words, compare sets, published values, feeds. -/
def computeNode (s : State) (n : Nat) (f : Frame) (i : Nat) : Frame :=
  let g := stageGraph s n
  let d := graphNode s g i
  let e := nodeEnv s n f i false
  let outs := (nodeOuts d).map refIndex
  let done (f : Frame) (ex : List Nat) : Frame := { f with ran := i :: f.ran, exc := f.exc ++ ex.reverse.map (fun c => (i, c)) }
  let words (l : List (Nat × F32)) : List (Nat × U32) := l.map (fun p => (4096 * d.home + d.state + p.1, p.2))
  if d.op = 0x40 then
    let (r, ex) := (runFormula s n f i false).run []
    let sg := outs.zipIdx.filterMap (fun (o, k) => (r.outs.find? (fun p => p.1 = k)).map (fun p => (o, p.2)))
    done { f with sig := putAll sg f.sig, words := putAll (words (r.sts.foldr (fun p acc => putAll [p] acc) [])) f.words } ex
  else if isMod d.op then
    let ((vals, per, st), ex) := (modOp d.op e.x e.p e.st (groupPeriod s (outs.headD 0)) e.t).run []
    done { f with sets := (outs.headD 0, vals, per) :: f.sets.filter (fun x => x.1 ≠ outs.headD 0), words := putAll (words (st.zipIdx.map (fun p => (p.2, p.1)))) f.words } ex
  else if d.op = 0x43 then
    done { f with pubs := putAll (e.x.zipIdx.map (fun p => (wholeOf (wd e.p 0) + p.2, p.1))) f.pubs } []
  else if d.op = 0x41 then
    done { f with feeds := f.feeds ++ [(wholeOf (wd e.p 0), e.x)] } []
  else
    let ((ys, st), ex) := (libOp d.op e.x e.p e.st e.t).run []
    done { f with sig := putAll (outs.zip ys) f.sig, words := putAll (words (st.zipIdx.map (fun p => (p.2, p.1)))) f.words } ex

/-- What an effect node will do, on the committed values of its frame (R235). -/
def effectActs (s : State) (n : Nat) (f : Frame) (i : Nat) : List EffAct × List Nat :=
  let g := stageGraph s n
  let d := graphNode s g i
  let e := nodeEnv s n f i true
  let c := !fIsZero (wd e.x 0)
  match d.op with
  | 0x40 => let (r, ex) := (runFormula s n f i true).run []; (r.acts, ex.reverse)
  | 0x42 => ([.canTx (wholeOf (wd e.p 0)) e.x], [])
  | 0x44 => ([.capture (wholeOf (wd e.p 0)) e.x], [])
  | 0x45 => (if c then [.event (BitVec.ofNat 16 (wholeOf (wd e.p 0))) (wd e.x 1)] else [], [])
  | 0x46 => ([.fieldOut (wholeOf (wd e.p 0)) c], [])
  | _ => (if c then [.stop] else [], [])

/-! ### What leaves the loop island (R40, R286, R441) -/

/-- An effect takes place (R235, R236, R241, R246). -/
def performAct (n node : Nat) (idx : U32) (a : EffAct) (s : State) : State :=
  match a with
  | .event tag v =>
    postMergeWith 0x0602#16 n (le16 tag ++ [0, 0] ++ le32 v) (fun e => e.source == BitVec.ofNat 8 n && u16At e.data 0 == tag) (fun _ d => d) s
  | .fieldOut o on => fieldOutAct n o on s
  | .stop =>
    if (getStage s n).st = .starting ∨ (getStage s n).st = .enabled then
      normalShutdown n 1 (post 0x0603#16 n (n16 node ++ [0, 0] ++ le32 idx) s)
    else s
  | .canTx tap vs => canTxAct tap vs s
  | .capture first vs => capWrite n idx node first vs s

/-! ### Engines out of service (R220, R281, R534) -/

/-- The lowest spare engine. -/
def spareEngine (s : State) : Option Nat := (List.range 18).find? (fun e => (getEngine s e).service == .spare)

/-- A spare's check in progress ends without a verdict (R534). -/
def stopCheck (k : Nat) (s : State) : State :=
  { s with loop := { s.loop with checkers := upd s.loop.checkers (k - 16) (fun c => { c with target := none, copy := none, replay := none, next := none, doubts := [] }) } }

/-- A spare takes an engine's place: its graph, its queues, its logical number (R252, R281). -/
def takeOver (e p : Nat) (s : State) : State :=
  let x := getEngine s e
  let s1 := updEngine e (fun _ => { engine0 with service := .retired }) (updEngine p (fun _ => { x with service := .inService }) s)
  let s2 := match x.stage with
    | some n => updStage n (fun y => { y with graph := y.graph.map (fun g => { g with phys := g.phys.map (fun k => if k = e then p else k) }) }) s1
    | none => s1
  stopCheck p (forEach [16, 17] (fun k s => if (s.loop.checkers.getD (k - 16) checker0).target = some e then stopCheck k s else s) s2)

/-- A retirement of an engine whose function is OFF or idle, of a spare, or with no spare left, takes place at once
(R220, R534, R535). -/
def swapIdleEngine (r : Retirement) (s : State) : State :=
  let x := getEngine s r.index
  let live := match x.stage with | some n => !stageOff s n | none => false
  if x.service == .spare then
    finishRetire r none (stopCheck r.index (updEngine r.index (fun y => { y with service := .retired }) s))
  else match spareEngine s with
    | some p => if live then s else finishRetire r (some p) (takeOver r.index p s)
    | none =>
      let s1 := updEngine r.index (fun y => { y with service := .retired }) s
      match x.stage with
      | some n => if live then finishRetire r none (post 0x0605#16 n (n8 r.index) (forcedShutdown n s1)) else finishRetire r none s1
      | none => finishRetire r none s1

/-- Carry out the decided engine retirements that need no hand-over, in order of detection, while none is in progress. -/
def settleEngines : Nat → State → State
  | 0, s => s
  | k + 1, s =>
    if (List.range 8).any (fun n => (getStage s n).handover.isSome) then s
    else match nextRetire s 4 with
      | none => s
      | some r => let t := swapIdleEngine r s; if t.rel.waiting.contains r then t else settleEngines k t

/-- The decided retirements of engines and compare units that need no hand-over any more. -/
def settleIdle (s : State) : State := arrangeUnits 8 (settleEngines 4 s)

end Sys2Proof.Machine
end

