-- ==== Sys2Proof/Machine/Pwm.lean ====
section
/-! DEFINITION. The PWM generator's commands: carrier timers, reloads, edges, stage starts and shutdowns, readback and
compare units, and the PWM cards (spec/13). -/

namespace Sys2Proof.Machine

open Sys2Proof

/-! ### Configuration cards -/

/-- A function's stage must be OFF and not shutting down (R139; the PWM cards). -/
def stageGate (s : State) (n : Nat) : Option CardResult :=
  match (getStage s n).st with
  | .off => none
  | .shuttingDown => some (shuttingDown (stageLeft s n))
  | _ => some (rejectWith E_STATE)

/-- The refusal of two stages: E_SHUTTING_DOWN of either comes before E_STATE (R55, R139). -/
def stageGate2 (s : State) (a b : Option Nat) : Option CardResult :=
  let ns := a.toList ++ b.toList
  match ns.filter (fun n => (getStage s n).st == .shuttingDown) with
  | [] => ns.findSome? (stageGate s)
  | l => some (shuttingDown ((l.map (stageLeft s)).foldl max 0))

/-- The shortest period of a timer in sixteenths of 1 ns (R355). -/
def shortest (s : State) (t : Nat) : Nat :=
  let x := getTimer s t
  let y := if x.slave then getTimer s x.master else x
  if y.periodGroup.isSome then y.pmin else y.period

/-- R355 holds for a lead on a timer. -/
def deadTimeFits (s : State) (t c : Nat) : Bool :=
  let x := getChan s c
  decide (shortest s t ≥ 16 * ((if x.partner.isSome then x.dtR + x.dtF else 0) + 2 * x.minpw))

/-- R355 holds for every lead on a timer and its slaves. -/
def timerFits (s : State) (t : Nat) : Bool :=
  (List.range 96).all (fun c => (getChan s c).role ≠ 1 ||
    (match chanTimer s c with
     | some u => if u = t ∨ ((getTimer s u).slave ∧ (getTimer s u).master = t) then deadTimeFits s u c else true
     | none => true))

/-- PWM_TIMER's reply. -/
def timerReply (s : State) (t : Nat) : Bytes :=
  let x := getTimer s t
  n8 (flag x.running 0) ++ zeros 3 ++ le32 x.reloads ++ n32 x.pActive ++ le32 x.clamps

/-- The ranges of PWM_TIMER's fields, but for a release. -/
def timerRanges (p : Bytes) : Bool :=
  decide (n8At p 1 < 8) && decide (n8At p 2 < 2) && decide (n8At p 3 < 24) && decide (n8At p 7 < 32 ∨ n8At p 7 = 0xFF)
    && zeroAt p 20 4
    && (if n8At p 2 = 1 then decide (n32At p 8 = 0) && decide (n32At p 12 = 0) && decide (n32At p 16 = 0) && decide (n8At p 7 = 0xFF)
        else decide (n8At p 3 = 0) && decide (n16At p 4 = 0) && decide (1600 ≤ n32At p 12) && decide (n32At p 12 ≤ n32At p 8)
          && decide (n32At p 8 ≤ n32At p 16) && decide (n32At p 16 ≤ 65535 * 16)
          && (decide (n8At p 7 ≠ 0xFF) || (decide (n32At p 12 = n32At p 8) && decide (n32At p 16 = n32At p 8))))

/-- Another timer names this one as its master. -/
def hasSlaves (s : State) (t : Nat) : Bool := s.pwm.timers.any (fun x => x.stage.isSome && x.slave && decide (x.master = t))
/-- A group names this timer. -/
def hasGroups (s : State) (t : Nat) : Bool := s.pwm.groups.any (fun g => g.timer = some t)

/-- PWM_TIMER, configuring or releasing (R342 to R345, R355). A master stays in the stage of its slaves (R344). -/
def timerRun (s : State) (r : Req) : CardResult :=
  let p := reqParams r
  let t := n8At p 0
  let old := getTimer s t
  if p.length = 0 ∨ t ≥ 24 then rejectWith E_PARAM
  else if n8At p 1 = 0xFF then
    match stageGate2 s old.stage none with
    | some e => e
    | none =>
      if p.length ≠ 24 ∨ n8At p 6 > 1 ∨ hasSlaves s t ∨ hasGroups s t then rejectWith E_PARAM
      else let s1 := updTimer t (fun x => { timer0 with clamps := x.clamps }) s; .done s1 (timerReply s1 t)
  else
    match stageGate2 s old.stage (if 1 < p.length ∧ n8At p 1 < 8 then some (n8At p 1) else none) with
    | some e => e
    | none =>
      let sl := n8At p 2 = 1
      let m := getTimer s (n8At p 3)
      let pg := if n8At p 7 = 0xFF then none else some (n8At p 7)
      let new : Timer := { timer0 with stage := some (n8At p 1), slave := decide sl, master := n8At p 3, phase := n16At p 4, align := decide (n8At p 6 % 2 = 1), periodGroup := pg, period := n32At p 8, pmin := n32At p 12, pmax := n32At p 16, reloads := old.reloads, clamps := old.clamps }
      let s1 := updTimer t (fun _ => new) s
      if p.length ≠ 24 ∨ n8At p 6 > 1 ∨ !timerRanges p then rejectWith E_PARAM
      else if sl ∧ (m.slave ∨ m.stage ≠ some (n8At p 1) ∨ n8At p 3 = t ∨ hasSlaves s t) then rejectWith E_PARAM
      else if hasSlaves s t ∧ old.stage ≠ some (n8At p 1) then rejectWith E_PARAM
      else if (match pg with | some g => decide ((getGroup s g).timer ≠ some t) | none => false) then rejectWith E_PARAM
      else if !timerFits s1 t then rejectWith E_PARAM
      else .done s1 (timerReply s1 t)

/-- A period field of a query is in range: 0, or 100.0 to 65,535.0 ns. -/
def periodInRange (v : Nat) : Bool := decide (v = 0) || (decide (1600 ≤ v) && decide (v ≤ 65535 * 16))

/-- PWM_TIMER with QUERY. -/
def timerQueryRun (s : State) (r : Req) : CardResult :=
  let p := reqParams r
  if p.length ≠ 24 ∨ n8At p 0 ≥ 24 ∨ n8At p 6 > 3 ∨ (n8At p 1 ≥ 8 ∧ n8At p 1 ≠ 0xFF) ∨ n8At p 2 > 1 ∨ n8At p 3 ≥ 24 ∨ (n8At p 7 ≥ 32 ∧ n8At p 7 ≠ 0xFF)
      ∨ !periodInRange (n32At p 8) ∨ !periodInRange (n32At p 12) ∨ !periodInRange (n32At p 16) ∨ !zeroAt p 20 4 then rejectWith E_PARAM
  else .done s (timerReply s (n8At p 0))

def pwmCard (f : State → Req → CardResult) : Card := { lifecycle := fun _ _ => true, allowed := inAll4, run := f }

/-- QUERY is set. -/
def timerQuery (r : Req) : Bool := isOp 0x0800#16 r && (byteAt (reqParams r) 6).getLsbD 1

def execPwmTimer (via : Transport) (s : State) : Host.Outcome State Fault Refusal :=
  .next (runCard (fun r => isOp 0x0800#16 r && !timerQuery r) (pwmCard timerRun) via s)

def execPwmTimerQuery (via : Transport) (s : State) : Host.Outcome State Fault Refusal :=
  .next (runCard timerQuery (pwmCard timerQueryRun) via s)

/-- The active value at a position of a group, 0 without an active set. -/
def activeVal (s : State) (g pos : Nat) : Nat := match (getGroup s g).active with | some a => a.vals.getD pos 0 | none => 0

/-- PWM_CHANNEL's reply for kinds 0 and 2. Only a lead has positions; a follower reports its lead's group. -/
def channelReply (s : State) (c : Nat) : Bytes :=
  let x := getChan s c
  let g := chanGroup s c
  let a := x.role = 1
  let b := x.role = 1 ∧ x.mode = 2
  let us := (getGroup s g).units
  n8 x.role ++ n8 (flag x.enabled 0) ++ n8 (if x.role ≠ 0 then g else 0xFF) ++ n8 (x.partner.getD 0xFF)
    ++ n8 (if a then us.getD x.posA 0xFF else 0xFF) ++ n8 (if b then us.getD x.posB 0xFF else 0xFF) ++ n16 x.acc
    ++ n32 (if a then activeVal s g x.posA else 0) ++ n32 (if b then activeVal s g x.posB else 0)
    ++ le32 x.rbFaults ++ le32 (if x.role ≠ 0 then (moveStaged (s.time.raw + 1) (getGroup s g)).superseded else 0)

/-- A channel becomes unused and disabled; counters since reset stay. -/
def unused (x : Channel) : Channel := { channel0 with trips := x.trips, rbFaults := x.rbFaults, leg := x.leg, lastTrip := x.lastTrip }

/-- Free a channel (R368): a lead's follower becomes unused with it, a follower leaves its lead without a partner. -/
def freeChannel (c : Nat) (s : State) : State :=
  let x := getChan s c
  let s1 := match x.role, x.partner with
    | 1, some f => updChan f unused s
    | 2, some l => updChan l (fun y => { y with partner := none }) s
    | _, _ => s
  updChan c unused s1

/-- PWM_CHANNEL kind 0 (R348 to R355, R368). R355 is checked against a timer that has a period; for one that no stage
holds yet the PWM_TIMER request that gives it one creates the combination. -/
def channelRun (s : State) (r : Req) : CardResult :=
  let p := reqParams r
  let c := n8At p 1
  let g := n8At p 4
  let gs := (getGroup s g).timer.bind (fun t => (getTimer s t).stage)
  if p.length < 2 ∨ n8At p 0 ≠ 0 ∨ c ≥ 96 then rejectWith E_PARAM
  else
    match stageGate2 s (chanStage s c) (if 4 < p.length ∧ n8At p 2 = 1 then gs else none) with
    | some e => e
    | none =>
      let pr := n8At p 7
      let par := if pr = 0xFF then none else some pr
      let x := getChan s c
      let ranges := decide (n8At p 2 < 2) && decide (n8At p 3 < 3) && decide (g < 32) && decide (pr < 96 ∨ pr = 0xFF)
        && decide (n16At p 8 < 1024) && decide (n16At p 10 < 1024) && zeroAt p 13 3
      if p.length ≠ 16 ∨ !ranges then rejectWith E_PARAM
      else if n8At p 2 = 0 then
        if n8At p 3 ≠ 0 then rejectWith E_PARAM
        else let s1 := freeChannel c s; .done s1 (channelReply s1 c)
      else
        let n := (getGroup s g).units.length
        let f := match par with | some f => getChan s f | none => channel0
        let parOk := match par with
          | none => true
          | some q => decide (q ≠ c) && (decide (f.role = 0) || (decide (f.role = 2) && decide (f.partner = some c)))
              && (if c ≥ 80 ∨ q ≥ 80 then decide (c ≥ 80) && decide (c % 2 = 0) && decide (q = c + 1) else true)
        if x.role = 2 ∨ (getGroup s g).timer.isNone ∨ n8At p 5 ≥ n ∨ (if n8At p 3 = 2 then n8At p 6 ≥ n else n8At p 6 ≠ 0) ∨ !parOk then rejectWith E_PARAM
        else
          let s1 := match x.partner with | some o => if some o = par then s else updChan o unused s | none => s
          let s2 := updChan c (fun y => { y with role := 1, mode := n8At p 3, group := g, posA := n8At p 5, posB := n8At p 6, partner := par, dtR := n16At p 8, dtF := n16At p 10, minpw := n8At p 12 }) s1
          let s3 := match par with | some q => updChan q (fun y => { y with role := 2, partner := some c, group := g }) s2 | none => s2
          if gs.isSome ∧ !deadTimeFits s3 ((getGroup s g).timer.getD 0) c then rejectWith E_PARAM
          else .done s3 (channelReply s3 c)

def execPwmChannelChannel (via : Transport) (s : State) : Host.Outcome State Fault Refusal :=
  .next (runCard (isOpElse 0x0801#16 [1, 2]) (pwmCard channelRun) via s)

/-- Units in service, units in use, and the free ones in rising order (R346). -/
def unitsUsed (s : State) : List Nat := s.pwm.groups.flatMap (·.units)
def unitsInService (s : State) : List Nat := (List.range 104).filter (fun u => (getUnit s u).service = .inService)
def unitsFree (s : State) : List Nat := (unitsInService s).filter (fun u => !(unitsUsed s).contains u)
/-- A unit has been retired. -/
def unitRetired (s : State) : Bool := s.pwm.units.any (fun u => u.service = .retired)

/-- PWM_CHANNEL's reply for kind 1. -/
def groupReply (s : State) (g : Nat) : Bytes :=
  let x := getGroup s g
  n8 (x.timer.getD 0xFF) ++ n8 x.units.length ++ n8 (unitsFree s).length ++ [0] ++ (List.range 16).flatMap (fun i => n8 (x.units.getD i 0xFF))

/-- The positions of a group that channels name: one more than the highest. -/
def groupNeed (s : State) (g : Nat) : Nat :=
  s.pwm.channels.foldl (fun m x => if x.role = 1 ∧ x.group = g then max m (max (x.posA + 1) (if x.mode = 2 then x.posB + 1 else 0)) else m) 0

/-- The units behind the positions of a group (R346, R372): a position keeps its unit while that is in service, and takes
the next free one otherwise; none where they do not suffice. -/
def backUnits : List (Option Nat) → List Nat → Option (List Nat)
  | [], _ => some []
  | some u :: t, fr => (backUnits t fr).map (u :: ·)
  | none :: t, u :: fr => (backUnits t fr).map (u :: ·)
  | none :: _, [] => none

/-- PWM_CHANNEL kind 1 (R346, R372). -/
def groupRun (s : State) (r : Req) : CardResult :=
  let p := reqParams r
  let g := n8At p 1
  let t := n8At p 2
  let x := getGroup s g
  let stOf (o : Option Nat) : Option Nat := o.bind (fun t => (getTimer s t).stage)
  if p.length < 2 ∨ g ≥ 32 then rejectWith E_PARAM
  else
    match stageGate2 s (stOf x.timer) (if 2 < p.length ∧ t < 24 then (getTimer s t).stage else none) with
    | some e => e
    | none =>
      let n := n8At p 3
      let named := decide (groupNeed s g > 0) || s.pwm.timers.any (fun y => y.periodGroup = some g)
      if p.length ≠ 8 ∨ !zeroAt p 4 4 ∨ (t ≥ 24 ∧ t ≠ 0xFF) then rejectWith E_PARAM
      else if t = 0xFF then
        if n ≠ 0 ∨ named then rejectWith E_PARAM
        else let s1 := updGroup g (fun y => { group0 with superseded := (moveStaged (s.time.raw + 1) y).superseded }) s; .done s1 (groupReply s1 g)
      else if n < 1 ∨ n > 16 then rejectWith E_PARAM
      else if named && (decide (x.timer ≠ some t) || decide (n < groupNeed s g)) then rejectWith E_PARAM
      else
        let old := (List.range n).map (fun i => (x.units[i]?).filter (fun u => (getUnit s u).service == .inService))
        let s0 := updGroup g (fun y => { y with units := old.filterMap id }) s
        match backUnits old (unitsFree s0) with
        | none => rejectWith (if unitRetired s then E_RESOURCE else E_PARAM)
        | some us =>
          let same := decide (x.timer = some t) && decide (x.units.length = n)
          let s1 := updGroup g (fun y => { (if same then y else clearSets s.time.raw y) with timer := some t, units := us }) s0
          .done s1 (groupReply s1 g)

def execPwmChannelGroup (via : Transport) (s : State) : Host.Outcome State Fault Refusal :=
  .next (runCard (isOpKind 0x0801#16 1) (pwmCard groupRun) via s)

/-- PWM_CHANNEL kind 2. -/
def channelQueryRun (s : State) (r : Req) : CardResult :=
  let p := reqParams r
  if p.length ≠ 4 ∨ n8At p 1 ≥ 96 ∨ !zeroAt p 2 2 then rejectWith E_PARAM else .done s (channelReply s (n8At p 1))

def execPwmChannelQuery (via : Transport) (s : State) : Host.Outcome State Fault Refusal :=
  .next (runCard (isOpKind 0x0801#16 2) (pwmCard channelQueryRun) via s)

/-- The channels that a 96-bit mask names. -/
def maskChans (p : Bytes) : List Nat := (List.range 96).filter (fun c => (byteAt p (c / 8)).getLsbD (c % 8))
/-- A channel and the other channel of its pair (R368). -/
def withPartner (s : State) (c : Nat) : List Nat := c :: (getChan s c).partner.toList
/-- The enables with the requests that wait for a reload, as a 96-bit mask. -/
def enableMask (s : State) : Bytes :=
  (List.range 12).map (fun i => BitVec.ofNat 8 ((List.range 8).foldl (fun m j =>
    let x := getChan s (8 * i + j); m + flag (x.pendEn.getD (x.enabled && !x.disabling)) j) 0))

/-- PWM_ENABLE and PWM_DISABLE: the change waits for the next reload of each channel's timer (R368). -/
def enableRun (on : Bool) (s : State) (r : Req) : CardResult :=
  let p := reqParams r
  let cs := maskChans p
  let shut := cs.filterMap (fun c => (chanStage s c).bind (fun n => if (getStage s n).st = .shuttingDown then some (stageLeft s n) else none))
  if on && !shut.isEmpty then shuttingDown (shut.foldl max 0)
  else if decide (p.length ≠ 12) || cs.isEmpty || cs.any (fun c => (getChan s c).role = 0) then rejectWith E_PARAM
  else
    let s1 := forEach (cs.flatMap (withPartner s)) (fun c => updChan c (fun x => { x with pendEn := some on })) s
    .done s1 (enableMask s1)

def execPwmEnable (via : Transport) (s : State) : Host.Outcome State Fault Refusal :=
  .next (runCard (isOp 0x0802#16) (pwmCard (enableRun true)) via s)

def execPwmDisable (via : Transport) (s : State) : Host.Outcome State Fault Refusal :=
  .next (runCard (isOp 0x0803#16) (pwmCard (enableRun false)) via s)

/-- One entry of PWM_WRITE_GROUP: group, period, values. -/
structure GroupWrite where
  group  : Nat
  count  : Nat
  resv   : Bool
  period : Nat
  vals   : List Nat
deriving DecidableEq, Repr

/-- The groups that PWM_WRITE_GROUP addresses, as far as its bytes reach: the state of these is checked before the length (R55). -/
def groupsNamed : Nat → Bytes → List Nat
  | 0, _ => []
  | n + 1, b => if b.length < 2 then [] else n8At b 0 :: groupsNamed n (b.drop (8 + 4 * n8At b 1))

/-- The entries of PWM_WRITE_GROUP, if the length matches exactly. -/
def groupWrites : Nat → Bytes → Option (List GroupWrite)
  | 0, b => if b.isEmpty then some [] else none
  | n + 1, b =>
    let c := n8At b 1
    let len := 8 + 4 * c
    if b.length < len then none else
      match groupWrites n (b.drop len) with
      | none => none
      | some t => some ({ group := n8At b 0, count := c, resv := zeroAt b 2 2, period := n32At b 4, vals := (List.range c).map (fun i => n32At b (8 + 4 * i)) } :: t)

/-- An entry is within the table (PWM_WRITE_GROUP). -/
def groupWriteOk (s : State) (w : GroupWrite) : Bool :=
  let x := getGroup s w.group
  decide (w.group < 32) && x.timer.isSome && decide (w.count = x.units.length) && w.resv && w.vals.all (fun v => decide (v < 2 ^ 20))
    && (match ownerOf s w.group with
        | some t => decide (w.period = 0) || (decide ((getTimer s t).pmin ≤ w.period) && decide (w.period ≤ (getTimer s t).pmax))
        | none => decide (w.period = 0))

/-- PWM_WRITE_GROUP (R357): every group's staging set becomes pending in one cycle, that of the request. -/
def writeGroupRun (s : State) (r : Req) : CardResult :=
  let p := reqParams r
  let n := n8At p 0
  if (groupsNamed (min n 4) (p.drop 4)).any (groupInGraph s) then rejectWith E_STATE
  else match groupWrites n (p.drop 4) with
  | none => rejectWith E_PARAM
  | some ws =>
    if p.length < 4 ∨ n < 1 ∨ n > 4 ∨ !zeroAt p 1 3 ∨ !(ws.all (groupWriteOk s)) then rejectWith E_PARAM
    else
      let s1 := ws.foldl (fun s w => stageSet w.group { vals := w.vals, period := if w.period = 0 then none else some w.period, frame := none, done := s.time.raw } s) s
      .done s1 (le32 (activeTime s1))

def execPwmWriteGroup (via : Transport) (s : State) : Host.Outcome State Fault Refusal :=
  .next (runCard (isOp 0x0804#16) (pwmCard writeGroupRun) via s)

/-! ### Starting a stage (R343, R362, R382) -/

/-- t_s (R343): 10 us after the start begins, or with ALIGN the first multiple of 1,000 ns not earlier than that. -/
def startInstant (align : Bool) (now : Nat) : Nat :=
  if align then ceilDiv (now + 10000) 1000 * 1000 else now + 10000

/-- Clear the signal and state areas and apply the state initialisation records (R234). -/
def initWords (s : State) (g : Graph) : List (Nat × U32) :=
  let rec go : Nat → Nat → List (Nat × U32) → List (Nat × U32)
    | 0, _, acc => acc
    | k + 1, off, acc =>
      let h := memReadBytes s.loop.mem off 8
      let e := n8At h 0
      let o := n16At h 2
      let c := n16At h 4
      let ws := (List.range c).map (fun i => (4096 * e + o + i, u32At (memReadBytes s.loop.mem (off + 8 + 4 * i) 4) 0))
      go k (off + 8 + 4 * c) (ws ++ acc.filter (fun x => !(ws.any (fun w => w.1 = x.1))))
  go g.nInit (g.offset + g.initOff) []

/-- Set-points of a graph, each working value at its target (R244). -/
def initSetpoints (s : State) (g : Graph) : List SetPoint :=
  (List.range g.nSet).map (fun i =>
    let p := n16At (memReadBytes s.loop.mem (g.offset + g.setOff + 8 * i) 2) 0
    { param := p, work := graphParam s g p, target := graphParam s g p, ramp := false })

/-- Engines leave idle, at most two in any 1 us (R134): from the newest two wakes, newest first, those after k more. -/
def wakeEngines (now : Nat) : Nat → List Nat → List Nat
  | 0, ws => ws
  | k + 1, ws =>
    let t := match ws with
      | b :: a :: _ => max (max now b) (a + 1000)
      | [b] => max now b
      | [] => now
    wakeEngines now k ((t :: ws).take 2)

/-- Half-bridges of a stage that a start precharges (R382). -/
def prechargeHbs (s : State) (n : Nat) : List Nat := (stageHbs s n).filter (fun h => (getHb s h).tPrecharge ≠ 0)
/-- The governor lets a precharge begin now (R134). -/
def prechargeFree (s : State) : Bool :=
  s.gov.precharge.isEmpty && (match s.gov.lastPre with | some t => decide (s.time.raw ≥ t + 50000) | none => true)
/-- A start of the stage has to wait for its first precharge (R135, R136). -/
def prechargeWaits (s : State) (n : Nat) : Bool := !(prechargeHbs s n).isEmpty && !prechargeFree s
/-- The precharges of a stage's half-bridges enter the governor's queue, but for those that wait in it already (R134, R382). -/
def queuePrecharges (n : Nat) (s : State) : State :=
  forEach ((prechargeHbs s n).filter (fun h => !(getHb s h).preDue)) (fun h s =>
    { (updHb h (fun x => { x with preDue := true }) s) with gov := { s.gov with precharge := s.gov.precharge ++ [{ unit := h, opcode := 0x0601, tag := (getStage s n).startTag, owed := none }] } }) s
/-- A start waits for its first precharge, with the completion that it owes; the stage stays OFF (R136, R362). -/
def awaitPrecharge (n : Nat) (owed : Option Owed) (s : State) : State :=
  updStage n (fun y => { y with startReq := owed, waitStart := false }) (queuePrecharges n s)

/-- A stage enters STARTING (R23, R134, R137, R234, R262, R282, R343, R382): frame index 0, counters cleared, areas
initialised, precharges queued, t_s fixed from the wake of its last engine. -/
def enterStarting (n : Nat) (s : State) : State :=
  match (getStage s n).graph with
  | none => s
  | some g =>
    let ft := getTimer s g.frameTimer
    let ws := wakeEngines s.time.raw g.engines s.gov.wakes
    let s1 := updStage n (fun x => { stage0 with
      st := x.st, graph := x.graph, mode := x.mode, dill := x.dill, startReq := x.startReq, startTag := x.startTag, ts := some (startInstant ft.align (max s.time.raw (ws.headD 0))), startedAt := s.time.raw,
      words := initWords s g, setps := initSetpoints s g, pub := [], exceptions := 0 }) { s with gov := { s.gov with wakes := ws } }
    let s2 := setStage n .starting 0 s1
    let s3 := queuePrecharges n (capStageStarts n s2)
    armTrips (stageChans s3 n) s3

/-- STAGE_START_BEGIN (R362, R534): a stage whose start the governor has let begin enters STARTING, once no swap of one of its
resources is in progress. The completion reply of a start that was DEFERRED is sent when its action begins (R136). -/
def execStageStartBegin (n : Nat) (s : State) : Host.Outcome State Fault Refusal :=
  let x := getStage s n
  if x.st = .off ∧ x.waitStart ∧ x.graph.isSome ∧ !swapPending s n then .next (enterStarting n s)
  else .next s

/-- The period that a timer's owner has active, in sixteenths of 1 ns. -/
def ownedPeriod (s : State) (t : Nat) : Option Nat := ((getTimer s t).periodGroup.bind (fun g => (getGroup s g).active)).bind (·.period)
/-- The period with which a timer starts, in sixteenths of 1 ns (R345): an owner's active set keeps its period over OFF. -/
def startPeriod (s : State) (t : Nat) : Nat :=
  let x := getTimer s t
  match ownedPeriod s t with
  | some p => max x.pmin (min p x.pmax)
  | none => x.period
/-- An owned period outside its bounds is clamped: the clamp is counted and reported (R345). -/
def countClamp (t p : Nat) (s : State) : State :=
  let x := getTimer s t
  if p < x.pmin ∨ p > x.pmax then postMerge 0x0801#16 t (n32 p) (updTimer t (fun y => { y with clamps := y.clamps + 1 }) s) else s

/-- TIMERS_START (R343, R344): at t_s the free-running timers start at 0, slaves with them; the lead's raw signal is
taken as having fallen at t_s, so followers turn on DT_f later (R352). -/
def execTimersStart (n : Nat) (s : State) : Host.Outcome State Fault Refusal :=
  let x := getStage s n
  match x.st, x.ts with
  | .starting, some t =>
    let s1 := advanceTo t s
    let r := s1.time.raw
    let s2 := forEach (stageTimers s1 n) (fun k s =>
      let y := getTimer s k
      let per := startPeriod s1 (if y.slave then y.master else k)
      let pe := dither per 0
      let off := if y.slave then (2 * y.phase * pe + 65536) / 131072 else pe
      updTimer k (fun z => { z with running := true, reloaded := false, reloads := 0, lastReload := r, nextReload := r + (if off = 0 then pe else off), pActive := per, pEff := pe }) (match ownedPeriod s k with | some p => countClamp k p s | none => s)) s1
    let s3 := forEach (stageChans s2 n) (fun c => updChan c (fun y => if y.role = 2 then { y with onAt := some (r + (match y.partner with | some l => (getChan s2 l).dtF | none => 0)) } else y)) s2
    .next (updStage n (fun y => { y with ts := none }) s3)
  | _, _ => .next s

/-! ### Reloads (R342 to R345, R347 to R353, R357 to R360, R384) -/

/-- The pending set of a group may be taken at a reload in this cycle (R358, R359). -/
def takeable (s : State) (c : CompareSet) (n : Nat) : Bool :=
  decide (c.done < s.time.raw) &&
    (match c.frame with
     | none => true
     | some f => let x := getStage s n; decide (x.frameIndex ≠ f ∧ 0 < (x.frameIndex - f).toInt) || (decide (x.frameIndex = f) && decide (s.time.raw ≥ x.frameEnd)))

/-- Take the pending sets of a timer's groups; the answer also says whether a graph's set was taken. -/
def takeSets (t n : Nat) (s : State) : Bool × State :=
  ((List.range 32).filter (fun g => (getGroup s g).timer = some t)).foldl (fun (q : Bool × State) g =>
    let q := (q.1, updGroup g (moveStaged q.2.time.raw) q.2)
    match (getGroup q.2 g).pend with
    | some c => if takeable q.2 c n then (q.1 || c.frame.isSome, updGroup g (fun x => { x with active := some c, pend := none }) q.2) else q
    | none => q) (false, s)

/-- The period of a free-running timer's next period in sixteenths of 1 ns, an owned one clamped (R345). -/
def nextPeriod (t : Nat) (s : State) : Nat × State :=
  let x := getTimer s t
  match x.periodGroup.bind (fun g => (getGroup s g).active) with
  | some a =>
    match a.period with
    | none => (if x.reloaded ∨ x.pActive ≠ 0 then x.pActive else x.period, s)
    | some p => (max x.pmin (min p x.pmax), countClamp t p s)
  | none => (x.period, s)

/-- Start and length of a channel's pulse for a compare set and a period, in sixteenths of 1 ns (R349). -/
def pulseOf (mode a b p : Nat) : Nat × Nat :=
  match mode with
  | 0 => (0, a)
  | 1 => (if p = 0 then 0 else a % p, p / 2)
  | _ => (if p = 0 then 0 else a % p, b)

/-- Form a lead's pulse for the period that begins now (R349 to R353): the accumulator makes whole ns, a pulse whose
on-time would fall below MINPW is dropped and carried. A high side on duty above its refresh threshold counts (R384). A
pulse lasts its length, and an always-on one at least until the start of the next period's pulse, so that two of them leave no
edge (R350). Without an
active set every value reads its reset value, 0 (R347). -/
def formPulse (c : Nat) (p pEff idx : Nat) (s : State) : State :=
  let x := getChan s c
  let (st, len) := pulseOf x.mode (activeVal s x.group x.posA) (activeVal s x.group x.posB) p
  let a := len + x.acc
  let li := a / 16
  let dt := if x.partner.isSome then x.dtR else 0
  let dropped := decide (li < dt + x.minpw) && decide (li ≠ 0)
  let on := s.time.raw + dither st idx
  let off := if len ≥ p then max (on + li) (s.time.raw + pEff + ceilDiv st 16) else on + li
  let acc' := if li = 0 then a else if dropped then min (a - 16 * dt) (16 * x.minpw) else a - 16 * li
  let hs := decide (c ≥ 80) && decide (c % 2 = 0)
  let h := getHb s ((c - 80) / 2)
  let cnt := if hs then (if len * 100 > h.refreshThr * p then x.refresh + 1 else 0) else x.refresh
  updChan c (fun y => { y with acc := acc', refresh := cnt, pulses := if li = 0 ∨ dropped then y.pulses else y.pulses ++ [{ on := on, off := off }] }) s

/-- Channel enables requested before this reload take effect (R368). A disabled channel's pulse is held by MINPW, and the
disable takes effect when the pulse ends (R354); an enable ends such a wait. -/
def applyEnables (t : Nat) (s : State) : State :=
  let cs := (List.range 96).filter (fun c => chanTimer s c = some t ∧ (getChan s c).pendEn.isSome)
  forEach cs (fun c s =>
    let x := getChan s c
    let on := x.pendEn.getD x.enabled
    if !on && x.cmd && decide (s.time.raw < x.onSince + chanMinpw s c) then updChan c (fun y => { y with pendEn := none, offHeld := true, disabling := true }) s
    else updChan c (fun y => { y with pendEn := none, enabled := on, disabling := false, offHeld := y.offHeld && y.stopped }) s) s

/-- Every precharge of the stage's half-bridges has ended (R362). -/
def prechargesDone (s : State) (n : Nat) : Bool :=
  (stageHbs s n).all (fun h => (getHb s h).preEnd.isNone && !(getHb s h).preDue)

/-- The stage enters ENABLED (R351, R362): the output gate opens, accumulators clear. -/
def enableStage (n : Nat) (s : State) : State :=
  let cs := stageChans s n
  let s1 := capStageEnabled n (setStage n .enabled 0 s)
  let s2 := forEach cs (fun c => updChan c (fun x => { x with acc := 0 })) s1
  withEdges cs (updStage n (fun x => { x with gateOpen := true })) s2

/-- A frame reload (R20, R23, R28, R229): the index rises, the frame's length and the values it reads are fixed; unless the stage is shutting down
(R364), a notice goes to the loop island. A dithered period may make a frame of a fixed D 999 ns long (log 184). -/
def frameReload (n d pEff : Nat) (notice : Bool) (s : State) : State :=
  let sn := takeSnap s n s.time.raw
  updStage n (fun x =>
    let len := d * pEff
    let i := x.frameIndex + 1
    { x with frameIndex := i, frameStart := s.time.raw, frameEnd := s.time.raw + len, divNow := d, divLeft := d, cumLen := x.cumLen + len,
             notices := if notice then x.notices ++ [(i, s.time.raw, len)] else x.notices, snaps := ((i, sn) :: x.snaps).take 4 }) s

/-- The pattern index of a timer: the frame index for a frame timer, else its reload count (R345, R351). -/
def patternIndex (s : State) (t n : Nat) : Nat :=
  if frameTimer s n = some t then (getStage s n).frameIndex.toNat % 16 else (getTimer s t).reloads.toNat % 16

/-- Channels of a timer turn off at its first reload after t_stop (R364). -/
def stopAtReload (t n : Nat) (s : State) : State :=
  forEach ((stageChans s n).filter (fun c => chanTimer s c = some t ∧ !(getChan s c).stopped)) (fun c s => updStage n (fun x => { x with lastOff := s.time.raw }) (chanStop c s)) s

/-- The reload of a timer, its due instant having come. Frames go on while the stage shuts down (R20, R23). A slave that
serves as frame timer has its master's P_eff in every period, as R344 says, also where R21 would keep one length for the
whole frame (DESIGN CHOICE, log 145). -/
def doReload (t n : Nat) (s : State) : State :=
  let s0 := swapUnits t (updTimer t (fun x => { x with reloads := x.reloads + 1, reloaded := true, lastReload := s.time.raw }) s)
  let isFt := decide (frameTimer s0 n = some t)
  let st := getStage s0 n
  let isFrame := isFt && (decide (st.divLeft ≤ 1))
  let runs := st.st == .starting || st.st == .enabled
  -- the frame that ends gives its sets
  let (took, s1) := takeSets t n (if isFrame then updStage n (fun x => { x with frameEnd := s0.time.raw }) s0 else s0)
  let x := getTimer s1 t
  let (p, s2) := if x.slave then ((getTimer s1 x.master).pActive, s1) else if isFt && !isFrame then (x.pActive, s1) else nextPeriod t s1
  let idx0 := if isFrame then (st.frameIndex.toNat + 1) % 16 else patternIndex s2 t n
  let pe := if x.slave then (getTimer s2 x.master).pEff else if isFt && !isFrame then x.pEff else dither p idx0
  let s3 := updTimer t (fun y => { y with pActive := p, pEff := pe, nextReload := s2.time.raw + pe }) s2
  let s4 := if x.slave then s3 else
    forEach ((List.range 24).filter (fun k => (getTimer s3 k).slave ∧ (getTimer s3 k).master = t ∧ (getTimer s3 k).running)) (fun k => updTimer k (fun y =>
      { y with nextReload := s3.time.raw + (2 * y.phase * pe + 65536) / 131072 })) s3
  let s5 := if isFrame then
      (match st.graph with | some g => frameReload n (frameDiv g pe) pe runs s4 | none => s4)
    else if isFt then updStage n (fun y => { y with divLeft := y.divLeft - 1 }) s4 else s4
  let s6 := withEdges (stageChans s5 n) (applyEnables t) s5
  if !runs then stopAtReload t n s6
  else
    let s7 := if isFrame && took && decide ((getStage s6 n).st = .starting) && prechargesDone s6 n then enableStage n s6 else s6
    forEach ((List.range 96).filter (fun c => (getChan s7 c).role = 1 ∧ chanTimer s7 c = some t)) (fun c => formPulse c p pe idx0) s7

/-- TIMER_RELOAD (R342, R358). -/
def execTimerReload (t : Nat) (s : State) : Host.Outcome State Fault Refusal :=
  let x := getTimer s t
  match x.stage with
  | none => .next s
  | some n => if !x.running then .next s else .next (doReload t n (advanceTo x.nextReload s))

/-- REFRESH_PERIOD (R384): the 32nd counted period's pulse ends t_refresh + DT_f before the next start, dithered or not, the
time removed, at most that (R351), is carried, and the count restarts; the first one since the stage started posts event 0x0901. -/
def execRefreshPeriod (h : Nat) (s : State) : Host.Outcome State Fault Refusal :=
  let c := 80 + 2 * h
  let x := getChan s c
  if x.refresh < 32 then .next s
  else
    let b := getHb s h
    let gap := b.tRefresh + x.dtF
    let (r, pe, st) := match chanTimer s c with
      | some t => ((getTimer s t).lastReload, (getTimer s t).pEff, (pulseOf x.mode (activeVal s x.group x.posA) (activeVal s x.group x.posB) (getTimer s t).pActive).1)
      | none => (0, 0, 0)
    let stop := r + pe + st / 16 - gap
    match x.pulses.getLast? with
    | none => .next (updChan c (fun y => { y with refresh := 0 }) s)
    | some q =>
      let cut := min (q.off - stop) gap
      let s1 := updChan c (fun y => { y with refresh := 0, refreshed := true, acc := y.acc + 16 * cut, pulses := y.pulses.dropLast ++ [{ on := q.on, off := min q.off stop }] }) s
      let s2 := updHb h (fun y => { y with refreshes := y.refreshes + 1 }) s1
      .next (if x.refreshed then s2 else post 0x0901#16 h [] s2)

/-! ### Edges (R350, R352 to R354) -/

/-- The end of the on-stretch that contains an instant: pulses that touch or overlap merge (R350). -/
def stretchEnd (ps : List Pulse) (t : Nat) : Nat → Nat
  | 0 => t
  | k + 1 =>
    match ps.find? (fun q => decide (q.on ≤ t) && decide (t < q.off)) with
    | some q => stretchEnd ps q.off k
    | none => t

/-- The earliest start of a pulse not yet over. -/
def nextOn (ps : List Pulse) (after : Nat) : Option Nat :=
  ps.foldl (fun m q => if q.on < after then m else match m with | none => some q.on | some v => some (min v q.on)) none

/-- The instant of a falling edge that a channel's pulse makes on its line now; none where the line is low already, its pulse cut
short or held off (R488). -/
def lineFell (s : State) (c : Nat) : Option Nat := if chanLine s c then some s.time.raw else none

/-- The lead turns off: its falling raw edge starts the follower's dead time (R352). -/
def leadFalls (c : Nat) (s : State) : State :=
  let x := getChan s c
  let s1 := updChan c (fun y => { emitOff y with raw := false, offAt := lineFell s c, pulses := y.pulses.filter (fun q => decide (q.off > s.time.raw)) }) s
  match x.partner with
  | none => s1
  | some f => updChan f (fun y => { y with onAt := some (s.time.raw + x.dtF) }) s1

/-- The lead's raw signal rises: the follower turns off and the lead's dead time starts (R352). -/
def leadRises (c : Nat) (s : State) : State :=
  let x := getChan s c
  let s1 := updChan c (fun y => { y with raw := true, onAt := some (s.time.raw + (if x.partner.isSome then x.dtR else 0)) }) s
  match x.partner with
  | none => s1
  | some f => updChan f (fun y => { emitOff y with offAt := if y.cmd then lineFell s f else y.offAt }) s1

/-- COMPARE_MATCH (R350): the next change of a lead's raw signal. A stretch that reaches the next reload of the lead's timer
ends only after that reload, whose pulse may continue it. -/
def execCompareMatch (c : Nat) (s : State) : Host.Outcome State Fault Refusal :=
  let x := getChan s c
  if x.role ≠ 1 ∨ x.stopped then .next s
  else if x.raw then
    let cur := x.pulses.foldl (fun m q => if q.on ≤ s.time.raw then max m q.on else m) 0
    let t := stretchEnd x.pulses cur x.pulses.length
    let waits : Bool := match chanTimer s c with | some k => (getTimer s k).running && decide ((getTimer s k).nextReload ≤ t) && decide (s.time.raw ≤ (getTimer s k).nextReload) && (getStage s ((chanStage s c).getD 0)).st != .shuttingDown | none => false
    .next (if waits then s else leadFalls c (advanceTo t s))
  else
    match nextOn x.pulses 0 with
    | none => .next s
    | some t => .next (leadRises c (advanceTo t s))

/-- A follower's pulse is judged when it would turn on, against the next rising edge already formed (R353). -/
def followerFits (s : State) (f : Nat) : Bool :=
  match (getChan s f).partner with
  | none => false
  | some l =>
    match nextOn (getChan s l).pulses 0 with
    | none => true
    | some t => decide (t ≥ s.time.raw + (getChan s l).minpw)

/-- The dead time that ends with the rising edge of a channel's line, where the capture measures it (R488): from the falling edge
that its partner's pulse has made since the last one measured. -/
def measureDead (c : Nat) (s : State) : State :=
  let d := (capConf s).dtChan
  let s1 := updChan c (fun y => { y with offAt := none }) s
  match (getChan s c).partner with
  | none => s1
  | some q =>
    let s2 := updChan q (fun y => { y with offAt := none }) s1
    match (getChan s q).offAt with
    | some t => if (c = d ∨ q = d) ∧ chanLine s c then capDead (decide (c = d)) (s.time.raw - t) s2 else s2
    | none => s2

/-- DEAD_TIME_EXPIRY (R352, R353, R377): the lead or follower turns on; a rising command edge may clear its fault. -/
def execDeadTimeExpiry (c : Nat) (s : State) : Host.Outcome State Fault Refusal :=
  let x := getChan s c
  match x.onAt with
  | none => .next s
  | some t =>
    let s1 := advanceTo t s
    let ok := if x.role = 2 then followerFits s1 c else x.raw
    if x.stopped ∨ !ok then .next (updChan c (fun y => { y with onAt := none }) s1)
    else .next (measureDead c (withEdges [c] (updChan c (fun y => { y with onAt := none, cmd := true, onSince := s1.time.raw })) s1))

/-- MINPW_EXPIRY (R354): a pulse held on by the minimum pulse rule turns off. -/
def execMinpwExpiry (c : Nat) (s : State) : Host.Outcome State Fault Refusal :=
  let x := getChan s c
  if !x.offHeld then .next s
  else
    let s1 := advanceTo (x.onSince + chanMinpw s c) s
    let s2 := updChan c emitOff s1
    .next (match chanStage s2 c with | some n => updStage n (fun y => { y with lastOff := max y.lastOff s2.time.raw }) s2 | none => s2)

/-! ### Start time-out and shutdown end (R363, R366) -/

/-- START_TIMEOUT (R363). -/
def execStartTimeout (n : Nat) (s : State) : Host.Outcome State Fault Refusal :=
  let x := getStage s n
  if x.st ≠ .starting then .next s
  else
    let s1 := advanceTo (x.startedAt + 100000000) s
    .next (normalShutdown n 3 (post 0x0807#16 n (le32 x.startCommits) s1))

/-- The stage's last effect node has ended (R366). -/
def effectsDone (s : State) (n : Nat) : Bool := !(s.loop.insts.any (fun i => decide (i.stage = n) && i.effect && !i.dead))

/-- STAGE_SHUTDOWN_END (R366): 10 us after the last channel turned off, and once the last effect node has ended. -/
def execStageShutdownEnd (n : Nat) (s : State) : Host.Outcome State Fault Refusal :=
  let x := getStage s n
  if x.st ≠ .shuttingDown ∨ !effectsDone s n ∨ (stageChans s n).any (fun c => !(getChan s c).stopped ∨ (getChan s c).offHeld) then .next s
  else .next (finishStateChange (settleIdle (stageOver n 0 (advanceTo (x.lastOff + 10000) s))))

/-! ### Readback and compare units (R369 to R372) -/

/-- READBACK_SAMPLE (R369): the ball, or for PWM80 to PWM95 the command input of the gate-driver die, is compared with the
level that the island drives; two mismatched samples in a row count one fault. -/
def execReadbackSample (c : Nat) (level : Bool) (s : State) : Host.Outcome State Fault Refusal :=
  let x := getChan s c
  let bad := level != chanLine s c
  if bad && x.rbBad then
    let s1 := updChan c (fun y => { y with rbBad := false, rbFaults := y.rbFaults + 1 }) s
    .next (postMerge 0x0803#16 c (n8 (flag (chanLine s c) 0) ++ zeros 3 ++ le32 (x.rbFaults + 1)) s1)
  else .next (updChan c (fun y => { y with rbBad := bad }) s)

/-- Units that a spare may shadow: in service behind a group of a stage that is not OFF, shadowed by no other spare. -/
def shadowable (s : State) (me : Nat) : List Nat :=
  let live := (List.range 32).filter (fun g => match (getGroup s g).timer.bind (fun t => (getTimer s t).stage) with | some n => !stageOff s n | none => false)
  let us := live.flatMap (fun g => (getGroup s g).units)
  (List.range 104).filter (fun u => us.contains u && !((List.range 104).any (fun k => decide (k ≠ me) && decide ((getUnit s k).shadow = some u))))

/-- The next element after one in a rising list, from the start after the last. -/
def cyclicNext (l : List Nat) (cur : Option Nat) : Option Nat :=
  match cur with
  | none => l.head?
  | some c => match l.find? (fun x => decide (x > c)) with | some x => some x | none => l.head?

/-- CU_SPARE_DWELL_EXPIRY (R370, R533): a spare unit's 1 ms dwell ends and it moves on, unless it stays on a unit after a
mismatch. -/
def execCuSpareDwellExpiry (u : Nat) (s : State) : Host.Outcome State Fault Refusal :=
  let x := getUnit s u
  if x.service ≠ .spare then .next s
  else
    let s1 := advanceTo x.dwellEnd s
    .next (updUnit u (fun y => { y with shadow := if s.rel.unitWatch.any (fun w => y.shadow = some w.1) then y.shadow else cyclicNext (shadowable s1 u) y.shadow, dwellEnd := s1.time.raw + 1000000 }) s1)

/-- CU_MISMATCH (R370, R533): a spare's edges differ from those of the unit it shadows. A second mismatch within 16
reloads retires the unit; mismatches on two units within 1 s retire the spare. -/
def execCuMismatch (k : Nat) (s : State) : Host.Outcome State Fault Refusal :=
  match (getUnit s k).service, (getUnit s k).shadow with
  | .spare, some u =>
    let reloads := match (unitPlace s u).bind (fun p => (getGroup s p.1).timer) with | some t => (getTimer s t).reloads | none => 0
    let s1 := postMerge 0x0804#16 u (n8 k ++ zeros 3 ++ le32 reloads) s
    let decided (i : Nat) : Bool := s.rel.waiting.any (fun r => r.cls = 3 ∧ r.index = i)
    if decided u ∨ decided k then .next s1
    else
      let now := s.time.raw
      let recent := s.rel.unitSeen.filter (fun m => decide (now ≤ m.2.2 + 1000000000))
      let s2 := { s1 with rel := { s1.rel with unitSeen := (k, u, now) :: recent } }
      if recent.any (fun m => m.1 = k ∧ m.2.1 ≠ u) then .next (arrangeUnits 8 (decideRetire { cls := 3, index := k, row := 0, reason := 3 } s2))
      else if s.rel.unitWatch.any (fun w => w.1 = u) then .next (arrangeUnits 8 (decideRetire { cls := 3, index := u, row := 0, reason := 3 } s2))
      else .next (transient 3 u { s2 with rel := { s2.rel with unitWatch := (u, 16) :: s2.rel.unitWatch } })
  | _, _ => .next s

end Sys2Proof.Machine
end

