-- ==== Sys2Proof/Machine/Prot.lean ====
section
/-! DEFINITION. Gate drive and protection: trips and releases of the sources, the gate-driver die, and the start
governor's precharges and driver-supply releases (spec/14, spec/04 R134 to R138). -/

namespace Sys2Proof.Machine

open Sys2Proof

/-! ### Fault returns (R379) -/

/-- FLT_TRIP: the input has been low for 20 ns. A disabled or unarmed input only shows its level. -/
def execFltTrip (c : Nat) (s : State) : Host.Outcome State Fault Refusal :=
  let s1 := updFlt c (fun x => { x with low := true, active := true }) s
  .next (if fltArmed s1 c then tripChannel 0 c c s1 else s1)

/-- FLT_HIGH: the ball is high again. -/
def execFltHigh (c : Nat) (s : State) : Host.Outcome State Fault Refusal :=
  .next (updFlt c (fun x => { x with low := false, active := false }) s)

/-! ### Window comparators (R386, R387) -/

/-- CMP_TRIP: the pin enters a zone, 1 low trip, 2 high trip, 3 low short, 4 high short. During blanking the trip zone
is ignored; the short zone never is. -/
def execCmpTrip (k zone : Nat) (s : State) : Host.Outcome State Fault Refusal :=
  let s1 := updCmp k (fun x => { x with zone := zone }) s
  let x := getCmp s1 k
  if !cmpZoneOn x then .next s1
  else if !cmpShort x ∧ s1.time.raw < x.blankEnd then .next s1
  else
    let s2 := updCmp k (fun y => { y with tripped := true }) s1
    .next (if cmpActs s2 k then tripTargets (if cmpShort x then 2 else 1) k x.targets s2 else s2)

/-- CMP_RELEASE: the pin is back inside the threshold of its side by the hysteresis. -/
def execCmpRelease (k : Nat) (s : State) : Host.Outcome State Fault Refusal :=
  .next (updCmp k (fun x => { x with zone := 0, tripped := false }) s)

/-- BLANKING_END: a pin still in the trip zone when blanking ends trips at that moment. -/
def execBlankingEnd (k : Nat) (s : State) : Host.Outcome State Fault Refusal :=
  let x := getCmp s k
  if x.blankEnd = 0 then .next s
  else
    let s1 := updCmp k (fun y => { y with blankEnd := 0 }) (advanceTo x.blankEnd s)
    if cmpZoneOn x && !cmpShort x then
      let s2 := updCmp k (fun y => { y with tripped := true }) s1
      .next (if cmpActs s2 k then tripTargets 1 k x.targets s2 else s2)
    else .next s1

/-! ### Fast overcurrent detectors (R388) -/

/-- FOC_TRIP: the detector evaluates its last 2 D bits, newest first, at a capture instant; a sinc2 output that passes the
low or the high threshold, on a side that is enabled, trips it. -/
def execFocTrip (k : Nat) (bits : List Bool) (s : State) : Host.Outcome State Fault Refusal :=
  let s1 := focEval k (updFoc k (fun x => { x with bits := bits }) s)
  .next (if (getFoc s1 k).tripped && !(getFoc s k).tripped && focActs s1 k then tripTargets 3 k (getFoc s k).targets s1 else s1)

/-- FOC_RELEASE: the detector evaluates its last 2 D bits, and is inactive where the output is back inside its
thresholds. -/
def execFocRelease (k : Nat) (bits : List Bool) (s : State) : Host.Outcome State Fault Refusal :=
  let s1 := focEval k (updFoc k (fun x => { x with bits := bits }) s)
  .next (if (getFoc s1 k).tripped then s else s1)

/-! ### Integrated half-bridges (R380 to R385) -/

/-- The switch of a half-bridge as a channel: the high side is even. -/
def hbChan (h : Nat) (high : Bool) : Nat := 80 + 2 * h + (if high then 0 else 1)

/-- The instant at which an integrated switch was last commanded on, by its command or by its precharge. -/
def commandedSince (s : State) (c : Nat) : Nat :=
  if chanCommanded s c then (getChan s c).edgeAt
  else ((getHb s ((c - 80) / 2)).preEnd.getD 0) - 1000 * (getHb s ((c - 80) / 2)).tPrecharge

/-- HB_MONITOR_TRIP: a VDS monitor of the die sees its trip or short level on a switch commanded on; the die turns the
switch off, latches the fault and pulls the fault line low, which Sorrel sees as well (R390). The trip level is ignored for vds_blank from the rising
command edge (R385). -/
def execHbMonitorTrip (h : Nat) (high short : Bool) (s : State) : Host.Outcome State Fault Refusal :=
  let c := hbChan h high
  if !(chanCommanded s c || precharging s c) then .next s
  else if !short ∧ s.time.raw < commandedSince s c + 10 * (getHb s h).vdsBlank then .next s
  else
    let cause : Byte := if short then 5 else 4
    let fresh := dieHolds s c && (getChan s c).fault.isNone
    if underTest s 3 h then .next s
    else
      let s1 := updHb h (fun x => if high then { x with hsVds := if short then 2 else 1, hsLatch := some cause, wordDue := true }
                             else { x with lsVds := if short then 2 else 1, lsLatch := some cause, wordDue := true }) s
      .next (if fresh then multileg c cause s1 else s1)

/-- HB_STATUS_WORD: the die's status word reaches the PWM island: the faults it names are latched, and it brings the
monitors' present conditions and the bootstrap voltage. -/
def execHbStatusWord (h : Nat) (hsVds lsVds : Nat) (vBoot : F32) (s : State) : Host.Outcome State Fault Refusal :=
  let x := getHb s h
  let s1 := updHb h (fun y => { y with hsVds := hsVds, lsVds := lsVds, wordDue := false, vBoot := vBoot, bootLow := y.bootLow && f32Lt vBoot 0x4109999A#32 }) s
  if !x.wordDue then .next s1
  else
    let s2 := match x.hsLatch with | some f => tripChannel f h (hbChan h true) s1 | none => s1
    .next (match x.lsLatch with | some f => tripChannel f h (hbChan h false) s2 | none => s2)

/-- BOOTSTRAP_UNDERVOLTAGE: below 8.0 V for 200 ns: a fault on the high side alone. -/
def execBootstrapUndervoltage (h : Nat) (vBoot : F32) (s : State) : Host.Outcome State Fault Refusal :=
  if !f32Lt vBoot 0x41000000#32 then .next s
  else
    let s1 := updHb h (fun y => { y with bootLow := true, vBoot := vBoot }) s
    .next (if targetLive s1 (hbChan h true) && !underTest s1 3 h then tripChannel 6 h (hbChan h true) s1 else s1)

/-- Fault every integrated channel whose output was on (R381). -/
def faultIntegrated (cause : Byte) (s : State) : State :=
  forEach (((List.range 16).map (· + 80)).filter (chanOut s)) (tripChannel cause (cause.toNat - 7)) s

/-- A value of VDRV or of the die temperature lies beyond a level of R381: 0 warning, 1 shutdown, 2 release. -/
def driverBeyond (temp : Bool) (level : Nat) (value : F32) : Bool :=
  let v := f32Val value
  !f32Bad value &&
    match temp, level with
    | true, 0 => decide (v ≥ 150)
    | true, 1 => decide (v ≥ 175)
    | true, _ => decide (v ≤ 160)
    | false, 0 => decide (v ≤ 98 / 10)
    | false, 1 => decide (v ≤ 9) || decide (v ≥ 165 / 10)
    | false, _ => decide (v ≥ 95 / 10) && decide (v ≤ 16)

/-- DRIVER_SUPPLY: VDRV (`temp` false) or the die temperature has held beyond a level for a time in ns: 0 warning,
1 shutdown, 2 release. It is acted on once it has held for 1 us (R381). -/
def execDriverSupply (temp : Bool) (level : Nat) (value : F32) (held : Nat) (s : State) : Host.Outcome State Fault Refusal :=
  let src := if temp then 1 else 0
  let s0 := if temp then { s with pwm := { s.pwm with dieTemp := value } } else { s with pwm := { s.pwm with vdrv := value } }
  if held < 1000 ∨ !driverBeyond temp level value then .next s0 else
  let s1 := post 0x0903#16 src (n8 level ++ zeros 3 ++ le32 value) s0
  let set (w d : Bool) (s : State) : State :=
    if temp then { s with pwm := { s.pwm with tempWarn := w, tempShut := d } } else { s with pwm := { s.pwm with vdrvWarn := w, vdrvShut := d } }
  let warn := driverBeyond temp 0 value
  match level with
  | 0 => .next (set true (if temp then s.pwm.tempShut else s.pwm.vdrvShut) s1)
  | 1 => .next (set (warn || (if temp then s.pwm.tempWarn else s.pwm.vdrvWarn)) true (faultIntegrated (if temp then 8 else 7) s1))
  | _ => .next (set warn false s1)

/-! ### The start governor (R134 to R137) -/

/-- PRECHARGE_START: the next waiting half-bridge's precharge begins, 50 us after the previous one at the earliest. A start that
waited for it begins with it: the stage enters STARTING and the completion is sent (R136, R362), unless a swap of one of its
resources is in progress (R534). -/
def execPrechargeStart (s : State) : Host.Outcome State Fault Refusal :=
  match s.gov.precharge with
  | [] => .next s
  | e :: t =>
    let s1 := match s.gov.lastPre with | some l => advanceTo (l + 50000) s | none => s
    let s2 := { s1 with gov := { s1.gov with precharge := t, lastPre := some s1.time.raw } }
    let begin (s : State) : State := updHb e.unit (fun h => { h with preDue := false, preEnd := some (s.time.raw + 1000 * h.tPrecharge) }) s
    match (List.range 8).find? (fun n => (stageHbs s1 n).contains e.unit) with
    | none => .next (dropPrecharges [e.unit] s)
    | some n =>
      match (getStage s1 n).st with
      | .starting => .next (begin s2)
      | .off =>
        if swapPending s1 n then .next s
        else .next (begin (settleStart (getStage s1 n).startReq OK [] (updStage n (fun x => { x with startReq := none }) (enterStarting n s2))))
      | _ => .next (dropPrecharges [e.unit] s)

/-- PRECHARGE_END: after t_precharge; a bootstrap still below its release level latches a fault on the high side. -/
def execPrechargeEnd (h : Nat) (vBoot : F32) (s : State) : Host.Outcome State Fault Refusal :=
  match (getHb s h).preEnd with
  | none => .next s
  | some t =>
    let low := f32Lt vBoot 0x4109999A#32
    let s1 := updHb h (fun x => { x with preEnd := none, vBoot := vBoot, bootLow := low }) (advanceTo t s)
    .next (if low then tripChannel 6 h (hbChan h true) s1 else s1)

/-- A stage passes its driver-supply release; the first of a RUN period raises both SAFE_OFF pins, unless a safety
channel holds them (R134, R396). -/
def passRelease (n : Nat) (s : State) : State :=
  let s1 := { s with gov := { s.gov with lastRelease := some s.time.raw }
                     sys := { s.sys with released := true, safeOffA := gatesPass s, safeOffB := gatesPass s } }
  updStage n (fun x => { x with waitStart := true }) s1

/-- The governor lets a driver-supply release pass now: none within the last 1 ms (R134). -/
def releaseFree (s : State) : Bool :=
  match s.gov.lastRelease with | some t => decide (s.time.raw ≥ t + 1000000) | none => true

/-- DRIVER_SUPPLY_RELEASE: the next waiting stage passes, 1 ms after the previous one at the earliest; the completion
reply of its start is sent when the start begins, which may have to wait for its first precharge next (R135, R136). -/
def execDriverSupplyRelease (s : State) : Host.Outcome State Fault Refusal :=
  match s.gov.release with
  | [] => .next s
  | e :: t =>
    let s1 := match s.gov.lastRelease with | some l => advanceTo (l + 1000000) s | none => s
    let s2 := passRelease e.unit { s1 with gov := { s1.gov with release := t } }
    .next (if prechargeWaits s2 e.unit then awaitPrecharge e.unit e.owed s2
      else settleStart e.owed OK [] (updStage e.unit (fun x => { x with startReq := none }) s2))

/-! ### Status and self-test -/

/-- A set of flags over n indexes as bytes. -/
def bitsOf (n : Nat) (f : Nat → Bool) : Bytes :=
  (List.range (n / 8)).map (fun i => BitVec.ofNat 8 ((List.range 8).foldl (fun m j => m + flag (f (8 * i + j)) j) 0))

/-- Bytes 0x3000 to 0x302B of the protection range (R392). -/
def protHead (s : State) : Bytes :=
  bitsOf 96 (fun c => (getChan s c).fault.isSome) ++ bitsOf 96 (fun c => decide (c < 80) && (getFlt s c).low)
    ++ bitsOf 32 (fun k => cmpZoneOn (getCmp s k)) ++ bitsOf 64 (fun k => (getFoc s k).tripped) ++ le32 s.pwm.multileg ++ le32 s.pwm.dieTemp

/-- PROT_STATUS: the range and the cause of every latched fault. -/
def protStatusRun (s : State) (r : Req) : CardResult :=
  if !lenIs r 0 then rejectWith E_PARAM
  else .done s (protHead s ++ (List.range 96).map (fun c => (getChan s c).fault.getD 0xFF))

def execProtStatus (via : Transport) (s : State) : Host.Outcome State Fault Refusal :=
  .next (runCard (isOp 0x0902#16) (pwmCard protStatusRun) via s)

end Sys2Proof.Machine
end

