-- ==== Sys2Proof/Machine/Graph.lean ====
section
/-! DEFINITION. The graph and Dill cards: loading, starting, stopping, parameters, configuration, statistics, and the
parameter queue (spec/08, spec/10). -/

namespace Sys2Proof.Machine

open Sys2Proof

/-- A card of the graph family. -/
def graphCard (f : State → Req → CardResult) : Card := { lifecycle := fun _ _ => true, allowed := inAll4, run := f }
/-- A card that RUN alone admits. -/
def runOnlyCard (f : State → Req → CardResult) : Card := { lifecycle := fun _ _ => true, allowed := fun d => d == .run, run := f }

/-! ### GRAPH_LOAD (R218, R220 to R224, R283) -/

/-- Bytes of the graph memory window. -/
def graphSize : Nat := 983040

/-- GRAPH_LOAD: the image is checked when the operation ends. -/
def loadRun (s : State) (r : Req) : CardResult :=
  let p := reqParams r
  let n := n8At p 0
  let off := n32At p 4
  let len := n32At p 8
  if decide (n < 8) && (getStage s n).st == .shuttingDown then shuttingDown (stageLeft s n)
  else if decide (n < 8) && !stageOff s n then rejectWith E_STATE
  else if p.length ≠ 16 ∨ n ≥ 8 ∨ !zeroAt p 1 3 ∨ off > 983008 ∨ off % 32 ≠ 0 ∨ (len ≠ 0 ∧ (len < 64 ∨ len > graphSize - off)) then rejectWith E_PARAM
  else if classFull s 0x0600#16 then rejectWith E_BUSY
  else .long { s with loop := { s.loop with loads := s.loop.loads ++ [{ stage := n, offset := off, length := len, crc := u32At p 12 }] } } 0 []

def execGraphLoad (via : Transport) (s : State) : Host.Outcome State Fault Refusal :=
  .next (runCard (isOp 0x0600#16) (graphCard loadRun) via s)

/-- The completion payload of GRAPH_LOAD. -/
def loadPayload (s : State) (n : Nat) : Bytes :=
  let used := ((List.range 8).filterMap (fun k => (getStage s k).graph)).map (·.nNodes) |>.sum
  match (getStage s n).graph with
  | some g => n8 n ++ n8 g.engines ++ n16 g.nNodes ++ (List.range 8).flatMap (fun i => n8 (g.phys.getD i 0xFF)) ++ le32 g.version ++ n16 (4096 - used) ++ [0, 0]
  | none => n8 n ++ [0, 0, 0] ++ List.replicate 8 0xFF#8 ++ zeros 4 ++ n16 (4096 - used) ++ [0, 0]

/-- A stage's graph is unloaded: its engines serve nothing, it feeds no forming unit, and Dill's configuration is the one
that GRAPH_LOAD sets (R218, R224, R283, R285). -/
def unloadGraph (n : Nat) (s : State) : State :=
  forEach (stageFus s n) (updFu · (fun x => { x with feeding := none, feedDiv := 0 })) <| updStage n (fun x => { x with graph := none, dill := dillConf0 })
    { s with loop := { s.loop with engines := s.loop.engines.map (fun e => if e.stage = some n then { engine0 with service := e.service } else e) } }

/-- Engines in service that serve no other loaded graph, lowest first (R218). -/
def enginesFree (s : State) (n : Nat) : List Nat :=
  (List.range 18).filter (fun e => (getEngine s e).service == .inService && ((getEngine s e).stage.isNone || decide ((getEngine s e).stage = some n)))

/-- A graph becomes loaded for its stage, on the lowest engines, with Dill's configuration at its defaults (R218, R224, R283). -/
def installGraph (n : Nat) (g : Graph) (s : State) : State :=
  let phys := (enginesFree s n).take g.engines
  let s1 := unloadGraph n s
  let s2 := phys.zipIdx.foldl (fun s (e, i) => updEngine e (fun x => { x with stage := some n, logical := i }) s) s1
  let s3 := updStage n (fun x => { x with graph := some { g with phys := phys }, dill := dillConf0 }) s2
  refeed n s3

/-- GRAPH_LOAD_DONE (R223, R224): the oldest load in progress ends. A failed load leaves the graph loaded before. -/
def execGraphLoadDone (s : State) : Host.Outcome State Fault Refusal :=
  match s.loop.loads with
  | [] => .next s
  | l :: t =>
    let s1 := { s with loop := { s.loop with loads := t } }
    let ended (st : U16) (pl : Bytes) (s : State) : State := endLong 0x0600#16 0 st pl s
    if crc32c (memReadBytes s.loop.mem l.offset l.length) ≠ l.crc then .next (ended E_VERIFY [] s1)
    else if !stageOff s1 l.stage then .next (ended E_STATE [] s1)
    else if l.length = 0 then let s2 := unloadGraph l.stage s1; .next (ended OK (loadPayload s2 l.stage) s2)
    else
      let g := readHeader s1.loop.mem l.offset l.length
      if !imageOk s1 l.stage g then .next (ended E_PARAM [] s1)
      else if bytesLost s1 18 l.offset l.length then .next (ended E_RESOURCE [] s1)
      else if (enginesFree s1 l.stage).length < g.engines then
        .next (ended (if s1.loop.engines.any (fun e => e.service == .retired) then E_RESOURCE else E_PARAM) [] s1)
      else let s2 := installGraph l.stage g s1; .next (ended OK (loadPayload s2 l.stage) s2)

/-! ### GRAPH_START (R22, R134, R135, R151, R170, R172, R208, R215, R220, R245, R373) -/

/-- Positions and channel mode that a modulation operation needs of its group (R356). -/
def modShape (s : State) (g : Graph) (n : Node) : Nat × Nat :=
  match n.op with
  | 0x30 => (8, 0) | 0x31 => (n.nIn, 0) | 0x32 => (4, 1) | 0x33 => (2, 1) | _ => (2 * wholeOf (graphParam s g n.param), 2)

/-- A group is configured as a modulation node of a stage requires (R373). -/
def groupReady (s : State) (n : Nat) (g : Graph) (d : Node) : Bool :=
  match modGroup d with
  | none => true
  | some grp =>
    let x := getGroup s grp
    let (need, mode) := modShape s g d
    let cs := (List.range 96).filter (fun c => (getChan s c).role = 1 ∧ (getChan s c).group = grp)
    (match x.timer with
     | some t => decide ((getTimer s t).stage = some n) && (d.op != 0x32 || decide ((getTimer s t).periodGroup = some grp))
     | none => false)
      && decide (x.units.length = need)
      && cs.all (fun c => let y := getChan s c
          decide (y.mode = mode) && (match y.partner with | some q => decide ((getChan s q).role = 2) | none => true))

/-- Timers and groups are as the graph requires (R373). -/
def startReady (s : State) (n : Nat) (g : Graph) : Bool :=
  decide ((getTimer s g.frameTimer).stage = some n) && (graphNodes s g).all (groupReady s n g)

/-- The shortest period of a graph's frame timer in sixteenths of 1 ns. -/
def frameShortest (s : State) (g : Graph) : Nat :=
  let x := getTimer s g.frameTimer
  let y := if x.slave then getTimer s x.master else x
  if y.periodGroup.isSome then y.pmin else y.period

/-- A resource of the start is retired (R170, R215, R220, R372). -/
def startLost (s : State) (n : Nat) (g : Graph) : Bool :=
  (stageChannels s n).any (fun c => chanLost s c || (getFch s c).stopped) || g.phys.any (fun e => (getEngine s e).service == .retired)
    || (stageGroups s n).any (fun k => (getGroup s k).units.any (fun u => (getUnit s u).service == .retired))

/-- A precondition in time is not met (R151, R172, R208). -/
def startUnready (s : State) (n : Nat) : Bool :=
  let chs := stageChannels s n
  let guarded := s.pwm.cmps.any (fun k => cmpEnabled k && k.targets.any (fun c => decide (chanStage s c = some n)))
  !pllLocked s 0 || (chs.any (fun c => decide (c < 48)) && !pllLocked s 1)
    || ((chs.any (fun c => decide (48 ≤ c)) || guarded) && s.sense.refState ≠ 2) || chs.any (fun c => !chanSettled s c)

/-- GRAPH_START's reply. -/
def startReply (s : State) (n : Nat) (frame : U32) : Bytes := n8 (stageCode (getStage s n).st) ++ zeros 3 ++ le32 frame

/-- GRAPH_START without MODE_ONLY (R135, R137, R362): a start nothing holds enters STARTING within the request; one that
waits for the driver supply, or for a swap in progress (R534), enters it at STAGE_START_BEGIN, one that waits for its first
precharge when that begins. -/
def startRun (s : State) (r : Req) : CardResult :=
  let p := reqParams r
  let n := n8At p 0
  let x := getStage s n
  let waits := x.waitStart || s.gov.release.any (fun e => decide (e.unit = n)) || s.gov.precharge.any (fun e => (stageHbs s n).contains e.unit)
  if decide (n < 8) && x.st == .shuttingDown then shuttingDown (stageLeft s n)
  else
    match (if n < 8 then some x.graph else none) with
    | some none => rejectWith E_STATE
    | none => rejectWith E_PARAM
    | some (some g) =>
      if x.st ≠ .off ∨ waits ∨ !startReady s n g then rejectWith E_STATE
      else if p.length ≠ 4 ∨ n8At p 1 > 3 ∨ n8At p 2 ≠ 0 ∨ byteAt p 3 ≠ 0 then rejectWith E_PARAM
      else if (if g.divider ≠ 0 then g.divider * frameShortest s g < 16000 else g.minPeriod < 1000) then rejectWith E_PARAM
      else if startLost s n g then rejectWith E_RESOURCE
      else if s.gov.release.length ≥ 8 ∨ s.gov.precharge.length + (prechargeHbs s n).length > 8 then rejectWith E_BUSY
      else if startUnready s n then rejectWith E_NOT_READY
      else
        let s1 := updStage n (fun y => { y with mode := n8At p 1, modes := [], startTag := reqTag r }) s
        if needsRelease s n ∧ (!s.gov.release.isEmpty ∨ !releaseFree s) then
          .deferred { s1 with gov := { s1.gov with release := s1.gov.release ++ [{ unit := n, opcode := 0x0601, tag := reqTag r, owed := some (owedOf r) }] } } (s.gov.release.length + 1)
        else
          let s2 := if needsRelease s n then passRelease n s1 else s1
          if prechargeWaits s n then .deferred (awaitPrecharge n (some (owedOf r)) s2) (s.gov.precharge.length + 1)
          else
            let s3 := if swapPending s n then updStage n (fun y => { y with waitStart := true }) s2 else enterStarting n s2
            .done s3 (startReply s3 n 0)

/-- MODE_ONLY is set. -/
def modeOnly (r : Req) : Bool := isOp 0x0601#16 r && (byteAt (reqParams r) 2).getLsbD 0

def execGraphStart (via : Transport) (s : State) : Host.Outcome State Fault Refusal :=
  .next (runCard (fun r => isOp 0x0601#16 r && !modeOnly r) (runOnlyCard startRun) via s)

/-- The first frame whose computation has not begun (R243, R245). -/
def applyFrame (s : State) (n : Nat) : U32 := (getStage s n).newest + 1
/-- A request enters the parameter queue (R261). -/
def enqueueParam (n words : Nat) (s : State) : State := { s with loop := { s.loop with pqueue := s.loop.pqueue ++ [{ stage := n, words := words }] } }
/-- The parameter queue is full (R261). -/
def paramFull (s : State) : Bool := decide (s.loop.pqueue.length ≥ 8)

/-- The pair holds the next request of a transport if it is one of this row (R261; log 73). -/
def holdRequest (mine : Req → Bool) (via : Transport) (s : State) : State :=
  match nextRequest s via with
  | none => s
  | some r => if mine r then { s with cmd := { s.cmd with held := some via } } else s

/-- A row whose requests pass through the parameter queue: the request is carried out, or held while the queue is full
(R261). -/
def paramRow (mine : Req → Bool) (card : Card) (via : Transport) (s : State) : State :=
  if paramFull s then holdRequest mine via s else runCard mine card via s

/-- GRAPH_START with MODE_ONLY (R245). -/
def modeOnlyRun (s : State) (r : Req) : CardResult :=
  let p := reqParams r
  let n := n8At p 0
  let x := getStage s n
  if n ≥ 8 then rejectWith E_PARAM
  else if x.st = .shuttingDown then shuttingDown (stageLeft s n)
  else if x.graph.isNone ∨ x.st ≠ .enabled then rejectWith E_STATE
  else if p.length ≠ 4 ∨ n8At p 1 > 3 ∨ n8At p 2 ≠ 1 ∨ byteAt p 3 ≠ 0 then rejectWith E_PARAM
  else
    let f := applyFrame s n
    let s1 := enqueueParam n 0 (updStage n (fun y => { y with modes := y.modes ++ [(f, n8At p 1)] }) s)
    .done s1 (startReply s1 n f)

def execGraphStartModeOnly (via : Transport) (s : State) : Host.Outcome State Fault Refusal :=
  .next (paramRow modeOnly (runOnlyCard modeOnlyRun) via s)

/-! ### GRAPH_STOP (R138, R364) -/

def stopRun (s : State) (r : Req) : CardResult :=
  let p := reqParams r
  let n := n8At p 0
  if p.length ≠ 4 ∨ n ≥ 8 ∨ !zeroAt p 1 3 then rejectWith E_PARAM
  else
    let s1 := removeStageStart n 0 s
    let s2 := if (getStage s1 n).st = .lockedOut then settleIdle (stageOver n 0 s1) else normalShutdown n 0 s1
    .done s2 (n8 (stageCode (getStage s2 n).st) ++ zeros 3 ++ n32 (stageLeft s2 n))

def execGraphStop (via : Transport) (s : State) : Host.Outcome State Fault Refusal :=
  .next (runCard (isOp 0x0602#16) (graphCard stopRun) via s)

/-! ### GRAPH_WRITE_PARAM (R223, R236, R243, R244) -/

def writeParamRun (s : State) (r : Req) : CardResult :=
  let p := reqParams r
  let n := n8At p 0
  let c := n16At p 2
  let first := n16At p 4
  let x := getStage s n
  if n ≥ 8 then rejectWith E_PARAM
  else if x.st = .shuttingDown then shuttingDown (stageLeft s n)
  else
    match x.graph with
    | none => rejectWith E_STATE
    | some g =>
      let vals := (List.range c).map (fun i => u32At p (8 + 4 * i))
      let f := if x.st = .off then 0xFFFFFFFF#32 else applyFrame s n
      let view (k : Nat) : F32 := if first ≤ k ∧ k < first + c then f32Param (vals.getD (k - first) 0) else if x.st = .off then graphParam s g k else paramFor s n f k
      if byteAt p 1 ≠ 0 ∨ c < 1 ∨ c > 254 ∨ p.length ≠ 8 + 4 * c ∨ first + c > g.nParams ∨ !zeroAt p 6 2 ∨ vals.any f32Bad then rejectWith E_PARAM
      else if !((graphNodes s g).all (blockOk g view)) || !viewApart s n g view then rejectWith E_PARAM
      else
        let s1 := updStage n (fun y => { y with writes := y.writes ++ [{ apply := f, first := first, vals := vals }] }) s
        let s2 := if x.st = .off then applyWrites n none s1 else s1
        .done (enqueueParam n c s2) (le32 f)

def execGraphWriteParam (via : Transport) (s : State) : Host.Outcome State Fault Refusal :=
  .next (paramRow (isOp 0x0605#16) (graphCard writeParamRun) via s)

/-- PARAM_QUEUE_TAKE (R261): the loop island takes the oldest request. -/
def execParamQueueTake (s : State) : Host.Outcome State Fault Refusal :=
  .next { s with loop := { s.loop with pqueue := s.loop.pqueue.drop 1 } }

/-! ### DILL_CONFIG (R264 to R272, R278, R283) -/

/-- The largest load of an engine in cycles, and the stage's shortest frame in cycles (R278). -/
def loadMax (s : State) (g : Graph) : Nat :=
  ((List.range g.engines).map (fun e => (((graphNodes s g).filter (fun d => d.home = e ∧ !d.effect)).map (·.cost)).sum)).foldl max 0
def frameMin (s : State) (g : Graph) : Nat :=
  if g.divider = 0 then g.minPeriod * 4 / 5 else g.divider * frameShortest s g / 20

/-- An input entry and a target entry. -/
def dillInputAt (p : Bytes) (o : Nat) : DillInput :=
  { channel := n8At p o, predictor := n8At p (o + 1), signal := n16At p (o + 2), tolAbs := f32Param (u32At p (o + 4)), tolRel := f32Param (u32At p (o + 8)) }
def dillTargetAt (p : Bytes) (o : Nat) : DillTarget := { kind := n8At p o, sub := n8At p (o + 1), index := n16At p (o + 2) }

def dillInputOk (s : State) (n : Nat) (g : Graph) (p : Bytes) (o : Nat) : Bool :=
  let i := dillInputAt p o
  (stageChannels s n).contains i.channel && decide (i.predictor ≤ 3) && (if i.predictor = 3 then decide (i.signal ≤ 1024 * g.engines - 2) && (((graphNodes s g).filter (fun d => !d.effect)).flatMap nodeSigs).contains i.signal else decide (i.signal = 0))
    && !f32Bad (u32At p (o + 4)) && decide (0 ≤ f32Val i.tolAbs) && f32In (u32At p (o + 8)) 0 1 && zeroAt p (o + 12) 4

def dillTargetOk (s : State) (g : Graph) (p : Bytes) (o : Nat) : Bool :=
  let t := dillTargetAt p o
  let ns := (graphNodes s g).filter (fun d => !d.effect)
  zeroAt p (o + 4) 4 &&
  match t.kind with
  | 0 => decide (t.sub ≤ 15) && (ns.filterMap modGroup).contains t.index
  | 1 => decide (t.sub = 0) && (ns.flatMap nodeSigs).contains t.index
  | 2 => decide (t.sub < g.engines) && decide (t.index ≤ 4095)
      && (graphNodes s g).any (fun d => decide (d.home = t.sub) && decide (d.state ≤ t.index) && decide (t.index < d.state + nodeState s g d))
  | _ => false

/-- The configuration that DILL_CONFIG asks for. -/
def dillOf (p : Bytes) : DillConf :=
  let ni := n8At p 2
  let nt := n8At p 3
  { depth := n8At p 1, inputs := (List.range ni).map (fun i => dillInputAt p (12 + 16 * i)), targets := (List.range nt).map (fun i => dillTargetAt p (12 + 16 * ni + 8 * i)),
    cutSpec := n16At p 4, limit := n8At p 6, jParam := decide (n8At p 7 = 1), jBase := n16At p 8 }

def dillRun (s : State) (r : Req) : CardResult :=
  let p := reqParams r
  let n := n8At p 0
  let ni := n8At p 2
  let nt := n8At p 3
  let x := getStage s n
  if n ≥ 8 then rejectWith E_PARAM
  else if x.st = .shuttingDown then shuttingDown (stageLeft s n)
  else
    match x.graph with
    | none => rejectWith E_STATE
    | some g =>
      let c := dillOf p
      let jn := nt * ni
      if x.st ≠ .off ∧ (c.depth ≠ 0 ∨ ni ≠ 0 ∨ nt ≠ 0) then rejectWith E_STATE
      else if p.length ≠ 12 + 16 * ni + 8 * nt ∨ c.depth > 2 ∨ ni > 16 ∨ nt > 16 ∨ (c.depth ≠ 0 ∧ ni = 0) ∨ c.limit = 0 ∨ n8At p 7 > 1 ∨ !zeroAt p 10 2 then rejectWith E_PARAM
      else if !((List.range ni).all (fun i => dillInputOk s n g p (12 + 16 * i))) ∨ !(decide (c.inputs.map (·.channel)).Nodup)
          ∨ !((List.range nt).all (fun i => dillTargetOk s g p (12 + 16 * ni + 8 * i))) then rejectWith E_PARAM
      else if jn ≠ 0 ∧ c.jBase + jn > (if c.jParam then g.nParams else 1024 * g.engines) then rejectWith E_PARAM
      else if c.depth ≠ 0 ∧ (c.depth + 1) * loadMax s g > frameMin s g then rejectWith E_PARAM
      else
        let s1 := updStage n (fun y => { y with dill := if x.st = .off then c else { y.dill with depth := 0, limit := c.limit } }) s
        .done s1 (n8 c.depth ++ zeros 3 ++ n32 (loadMax s g) ++ n32 (frameMin s g))

def execDillConfig (via : Transport) (s : State) : Host.Outcome State Fault Refusal :=
  .next (runCard (isOp 0x0603#16) (graphCard dillRun) via s)

/-! ### GRAPH_STATS (R282) -/

/-- Frames of a suspension left (R276). -/
def suspendLeft (x : Stage) : Nat := match x.suspend with | some e => min 16 (e - x.cFrame).toNat | none => 0
/-- An engine of a stage is under check (R279). -/
def underCheck (s : State) (n : Nat) : Bool := s.loop.checkers.any (fun c => match c.target with | some e => decide ((getEngine s e).stage = some n) | none => false)

/-- A stage's range of the state image, +0x00 to +0x9F (R282). -/
def stageRange (s : State) (n : Nat) : Bytes :=
  let x := getStage s n
  n8 (stageCode x.st) ++ n8 x.mode ++ n8 x.dill.depth ++ n8 (flag x.overrunPub 0 + flag x.suspend.isSome 1 + flag x.spaFlag 2 + flag (underCheck s n) 3)
    ++ le32 x.cFrame ++ le32 x.cTime ++ le32 (secondsOf x.cPeriod) ++ le32 x.committed ++ le32 x.specCommits ++ le32 x.inputMisses ++ le32 x.periodMisses
    ++ le32 x.overruns ++ n8 x.consecutive ++ n8 (suspendLeft x) ++ n8 x.dill.limit ++ [0] ++ le32 x.slackMin ++ le32 x.slackLast ++ le32 x.exceptions
    ++ n8 x.slotsPeak ++ zeros 3 ++ le32 x.slotWaits ++ le32 (portStallNow s n) ++ n16 x.latencyMax ++ [0, 0] ++ (x.missBy.take 16).flatMap le32
    ++ le32 x.checked ++ le32 x.mismatches ++ le32 x.handovers ++ (List.range 8).flatMap (fun i => n8 ((match x.graph with | some g => g.phys | none => []).getD i 0xFF))
    ++ zeros 8

/-- The counters that CLEAR clears (R282). -/
def clearStats (x : Stage) : Stage :=
  { x with committed := 0, specCommits := 0, inputMisses := 0, periodMisses := 0, overruns := 0, slackMin := 0xFFFFFFFF#32, slotsPeak := 0, slotWaits := 0,
           portStall := 0, latencyMax := 0, missBy := List.replicate 16 0, checked := 0, mismatches := 0, handovers := 0 }

/-- Holds of dispatch in progress count from now on. -/
def clearHolds (n : Nat) (s : State) : State := forEach (stageEngines s n) (fun e => updEngine e (fun y => { y with stallFrom := qNow s })) s

def statsRun (s : State) (r : Req) : CardResult :=
  let p := reqParams r
  let n := n8At p 0
  if p.length ≠ 4 ∨ n ≥ 8 ∨ n8At p 1 > 1 ∨ !zeroAt p 2 2 then rejectWith E_PARAM
  else .done (if n8At p 1 = 1 then clearHolds n (updStage n clearStats s) else s) (stageRange s n)

def execGraphStats (via : Transport) (s : State) : Host.Outcome State Fault Refusal :=
  .next (runCard (isOp 0x0604#16) (graphCard statsRun) via s)

end Sys2Proof.Machine
end

