-- ==== Sys2Proof/Machine/OpsSage.lean ====
section
/-! DEFINITION. Shared operations of Sage: its OTP block, time, log, windows, signing and published area (spec/20). -/

namespace Sys2Proof.Machine

open Sys2Proof

def updSage (f : Sage → Sage) (s : State) : State := { s with sage := f s.sage }

/-- The present value of energy accumulator i: the vote of its three copies, bit by bit (R531). -/
def sageVote (x : Sage) (i : Nat) : BitVec 96 :=
  let c (k : Nat) : BitVec 96 := (x.copies.getD k []).getD i 0
  (c 0 &&& c 1) ||| (c 0 &&& c 2) ||| (c 1 &&& c 2)
/-- The ten accumulators. -/
def sageRegs (x : Sage) : List (BitVec 96) := (List.range 10).map (sageVote x)
/-- The ten accumulators in their three copies. -/
def sageStore (regs : List (BitVec 96)) (x : Sage) : Sage := { x with copies := List.replicate 3 regs }

/-! ### The Sage block of OTP and the odometer (R519, R521) -/

/-- Byte addresses of the Sage block and the odometer in the OTP (R540). -/
def sageBlockAt : Nat := 8 * 992
def odometerAt : Nat := 8 * 960
/-- Seal generation entry g, 200 bytes. -/
def sealEntry (s : State) (g : Nat) : Bytes := memReadBytes s.rel.otp (sageBlockAt + 0xA0 + 200 * g) 200
def sealWritten (s : State) (g : Nat) : Bool := (sealEntry s g).any (· != 0)
/-- A generation is valid: not all zero, its check value matches (R521). -/
def sealValid (s : State) (g : Nat) : Bool := let b := sealEntry s g; b.any (· != 0) && u32At b 196 == crc32c (b.take 196)
/-- The present generation: the newest valid one. -/
def sealGen (s : State) : Option Nat := ([3, 2, 1, 0] : List Nat).find? (sealValid s)
/-- The highest generation that is not all zero. -/
def sealNewestWritten (s : State) : Option Nat := ([3, 2, 1, 0] : List Nat).find? (sealWritten s)
/-- The generation that the next seal writes; none when all four are used. -/
def sealNextGen (s : State) : Option Nat := match sealNewestWritten s with | none => some 0 | some g => if g < 3 then some (g + 1) else none
/-- Generations unused. -/
def gensLeft (s : State) : Nat := match sealNextGen s with | some g => 4 - g | none => 0
/-- Odometer bits consumed. -/
def odometer (s : State) : Nat :=
  (memReadBytes s.rel.otp odometerAt 256).foldl (fun n b => n + ((List.range 8).filter (fun i => b.getLsbD i)).length) 0
/-- Consume the next odometer bit. -/
def odometerStep (s : State) : State :=
  let k := odometer s
  { s with rel := { s.rel with otp := memWrite s.rel.otp (odometerAt + k / 8) (memRead s.rel.otp (odometerAt + k / 8) ||| (1#8 <<< (k % 8))) } }

/-- Codes of the seal states and the present generation. -/
def sealCode : SealState → Nat
  | .unsealed => 0 | .isSealed => 1 | .broken => 2
def sealGenByte (s : State) : Nat := (sealGen s).getD 0xFF
/-- The counter stored with the present generation, 0 without one (R523). -/
def storedCounter (s : State) : U32 := match sealGen s with | some g => u32At (sealEntry s g) 192 | none => 0

/-! ### Sage time and the Sage log (R524, R526) -/

/-- Ticks of a window of 200 ms. -/
def windowTicks : Nat := 19660800
/-- A time in ns as ticks, rounded up. -/
def ticksOf (ns : Rat) : Nat := (ratCeil (ns * 98304 / 1000000)).toNat

/-- The crystal count reaches at least a tick: Sage time follows, slewing at 100 us/s. While the clock has failed both stand
(R504). That the last stage went OFF before this tick ends a condition of ACTIVE here (R513). -/
def sageAdvance (t : Nat) (s : State) : State :=
  let x := s.sage
  let n := if x.clockFail then 0 else t - x.ticks
  let adj : Int := if x.slewLeft ≥ 0 then min x.slewLeft (25 * n : Nat) else max x.slewLeft (-(25 * n : Nat))
  updSage (fun x => { x with ticks := x.ticks + n, time := (x.time + 250000 * n + adj).toNat, slewLeft := x.slewLeft - adj
                             lastActive := if x.hostEnded then x.ticks + n else x.lastActive, hostEnded := false }) s
/-- The first tick at which Sage time has moved on by an amount of 1/24576 ns, a slew in progress ending on the way (R517, R524):
n ticks move it by the lesser of 250025 n and 250000 n + slew, or with a slew back by the greater of 249975 n and 250000 n + slew. -/
def ticksFor (slew : Int) (gap : Nat) : Nat :=
  if slew ≥ 0 then max (ceilDiv gap 250025) (ceilDiv (gap - slew.toNat) 250000) else min (ceilDiv gap 249975) (ceilDiv (gap + slew.natAbs) 250000)
/-- Sage time in ns. -/
def sageNs (s : State) : Nat := s.sage.time / 24576

/-- The housekeeping pair posts the new entries of the Sage log, once BOOT is over (R526). -/
def sagePostLog (s : State) : State :=
  if s.sys.phase != .finished then s
  else
    let first := s.sage.logNext - s.sage.log.length
    let fresh := s.sage.log.drop (s.sage.logPosted - first)
    fresh.foldl (fun s e => post e.code 0 e.data s) (updSage (fun x => { x with logPosted := x.logNext }) s)
/-- An entry enters the Sage log, the oldest of 512 making room. -/
def sageLog (code : U16) (data : Bytes) (s : State) : State :=
  let e : SageLogEntry := { time := BitVec.ofNat 64 (sageNs s), code := code, counter := s.sage.counter, data := data }
  sagePostLog (updSage (fun x => { x with log := (if x.log.length ≥ 512 then x.log.drop 1 else x.log) ++ [e], logNext := x.logNext + 1 }) s)
/-- An event of Sage that does not enter its log; nobody posts it while the control die is not up. -/
def sagePost (merge : Bool) (code : U16) (data : Bytes) (s : State) : State :=
  if s.sys.phase != .finished then s else if merge then postMerge code 0 data s else post code 0 data s

/-! ### Parameters (R510, R511) -/

def sageBlockOk (b : Bytes) : Bool :=
  decide (b.length = 128) && decide (n8At b 0 ≤ 1) && (decide (n8At b 1 = 50) || decide (n8At b 1 = 60)) && decide (n8At b 2 ≤ 2) && zeroAt b 3 1
    && decide (1 ≤ n32At b 4 ∧ n32At b 4 ≤ 100000) && f32In (u32At b 8) (mkRat 1 10000) (mkRat 1 10) && f32In (u32At b 12) 50 400
    && !f32Bad (u32At b 16) && decide (0 < f32Val (u32At b 16))
    && (List.range 8).all (fun k => f32In (u32At b (20 + 4 * k) &&& 0x7FFFFFFF#32) 1 100000 && f32In (u32At b (52 + 4 * k)) (-1 / 10) (1 / 10))
    && (List.range 4).all (fun k => f32In (u32At b (84 + 4 * k)) (-1 / 10000) (1 / 10000)) && zeroAt b 100 28

/-- Gain, offset and the other values in use; without a block gain 1, offset 0 and no threshold (R511). -/
def sageGain (x : Sage) (k : Nat) : Rat := match x.params with | some b => f32Val (u32At b (20 + 4 * k)) | none => 1
def sageOffset (x : Sage) (k : Nat) : Rat := match x.params with | some b => f32Val (u32At b (52 + 4 * k)) | none => 0
def sageIStart (x : Sage) : Rat := match x.params with | some b => f32Val (u32At b 16) | none => 0
/-- The delay added to MBSk in samples, and a quarter period of f_n (R507, R510); 50 Hz without a block (log 111). -/
def sagePhase (x : Sage) (k : Nat) : Rat := match x.params with | some b => if k < 4 then 32000 * f32Val (u32At b (84 + 4 * k)) else 0 | none => 0
def sageQuarter (x : Sage) : Rat := 8000 / (match x.params with | some b => (n8At b 1 : Rat) | none => 50)
/-- The parameter hash of the block in use, of an empty one without a block (R510, R515; log 111). -/
def sageHash (x : Sage) : Bytes := sha256 (x.params.getD [])
def sageSplit (x : Sage) : Bool := match x.params with | some b => decide (n8At b 0 = 1) | none => false

/-! ### Samples (R160, R506, R507) -/

/-- The sinc3 of decimation 256 over the newest bits, newest first: 1 for all ones, -1 for all zeros. -/
def sageSinc (l : List Bool) : Rat :=
  mkRat (((sincWeights 3 256).zip l).foldl (fun (t : Int) p => if p.2 then t + p.1 else t - p.1) 0) (2 ^ 24)
/-- The samples that an input gives with new bits, newest first, after `ph` bits since its last sample. -/
def sageFilter (ph : Nat) (tail bits : List Bool) : List Rat :=
  let l := bits.reverse ++ tail
  let c := ph + bits.length
  (List.range (c / 256)).map (fun j => sageSinc (l.drop (c % 256 + 256 * j)))
/-- The number of new samples, and the raw samples of each input, newest first. -/
def sageSamples (x : Sage) (bits : List (List Bool)) : Nat × List (List Rat) :=
  ((x.bitPhase + (bits.headD []).length) / 256,
   (List.range 8).map (fun k => sageFilter x.bitPhase (x.tails.getD k []) (bits.getD k []) ++ x.past.getD k []))
/-- What the decimators and the delays keep of new bits. -/
def sageKeep (bits : List (List Bool)) (x : Sage) : Sage :=
  { x with tails := (List.range 8).map (fun k => ((bits.getD k []).reverse ++ x.tails.getD k []).take 1021)
           bitPhase := (x.bitPhase + (bits.headD []).length) % 256
           past := (sageSamples x bits).2.map (fun l => l.take 200) }
/-- The value at a place between samples, newest first. -/
def sageAt (l : List Rat) (d : Rat) : Rat :=
  let i := (ratFloor d).toNat
  if d = i then l.getD i 0 else Config.sageBetween (l.drop i) (d - i)
/-- Sample j of MBSk, newest first, in A or V, delayed further by d samples. Every input stands 4 samples back, so that a phase
correction below 0 is a shift too (log 110). -/
def sageSample (x : Sage) (w : Nat × List (List Rat)) (k : Nat) (d : Rat) (j : Nat) : Rat :=
  sageGain x k * (sageAt (w.2.getD k []) ((j : Rat) + 4 + sagePhase x k + d) - sageOffset x k)
/-- The mean over the samples of a window. -/
def sageMean (w : Nat × List (List Rat)) (f : Nat → Rat) : Rat := ((List.range w.1).map f).sum / w.1

/-! ### Windows and energy (R507, R508, R512, R513) -/

/-- The rms value of a channel over a window. -/
def sageRms (x : Sage) (w : Nat × List (List Rat)) (k : Nat) : Rat := ratSqrt (sageMean w (fun j => sageSample x w k 0 j * sageSample x w k 0 j))
/-- Phases that are used. -/
def sagePhases (x : Sage) : List Nat := if sageSplit x then [0, 1] else [0, 1, 2]
/-- P and Q of a phase: v, and v delayed by a quarter period, times i. -/
def sageP (x : Sage) (w : Nat × List (List Rat)) (k : Nat) : Rat := sageMean w (fun j => sageSample x w (4 + k) 0 j * sageSample x w k 0 j)
def sageQ (x : Sage) (w : Nat × List (List Rat)) (k : Nat) : Rat := sageMean w (fun j => sageSample x w (4 + k) (sageQuarter x) j * sageSample x w k 0 j)

/-- A power in W over ticks as an amount of the accumulators, 2^-32 mWh, rounded down. -/
def energyOf (p : Rat) (ticks : Nat) : Nat := (ratFloor (p * mkRat ticks 98304000 * (10 / 36) * 2 ^ 32)).toNat

/-- The energies that a window adds to the registers (R508). -/
def windowEnergy (x : Sage) (w : Nat × List (List Rat)) (ticks : Nat) : List Nat :=
  let ks := (sagePhases x).filter (fun k => decide (sageRms x w k ≥ sageIStart x))
  let p := (ks.map (sageP x w)).sum
  let q := (ks.map (sageQ x w)).sum
  let ph (k : Nat) : Rat := if ks.contains k then sageP x w k else 0
  ([p, -p, q, -q, ph 0, ph 1, ph 2, -ph 0, -ph 1, -ph 2] : List Rat).map (fun v => if v > 0 then energyOf v ticks else 0)

/-- A window of a length in ticks ends, with the bits of its inputs: quantities, registers, pulse energy (R506 to R508, R512). -/
def sageMeasure (bits : List (List Bool)) (ticks : Nat) (s : State) : State :=
  let x := s.sage
  let w := sageSamples x bits
  let used := sagePhases x
  let f (v : Rat) : F32 := toF32 v
  let on (k : Nat) (v : Rat) : F32 := if used.contains k then f v else 0
  let e := windowEnergy x w ticks
  let src := match x.params with | some b => n8At b 2 | none => 0
  let pulse := if !x.pulseOn then 0 else (if src = 1 then 0 else e.getD 0 0) + (if src = 0 then 0 else e.getD 1 0)
  let acc := x.pulseAcc + pulse
  let due := match x.params with | some b => acc * n32At b 4 / (1000000 * 2 ^ 32) | none => 0
  let room := match x.params with | some b => (ratFloor (mkRat ticks 98304000 / (2 * f32Val (u32At b 8)))).toNat | none => 0
  let limited := x.pulseOn && decide (due > room)
  let pf (k : Nat) : F32 :=
    let v := sageRms x w k * sageRms x w (4 + k)
    if v = 0 then Config.libWord 0x160 [] [] [] 0 k else f (sageP x w k / v)
  let vAct := match x.params with | some b => used.any (fun k => decide (sageRms x w (4 + k) > f32Val (u32At b 12) / 20)) | none => used.any (fun k => decide (sageRms x w (4 + k) > 0))
  let act := vAct || used.any (fun k => decide (sageRms x w k > sageIStart x)) || x.hostActive
  let s1 := updSage (fun y => { sageKeep bits (sageStore (((sageRegs y).zip e).map (fun r => r.1 + BitVec.ofNat 96 r.2)) y) with
    pulseAcc := acc, pulseLimited := limited
    vrms := [on 0 (sageRms x w 4), on 1 (sageRms x w 5), on 2 (sageRms x w 6), f (sageRms x w 7)]
    irms := [on 0 (sageRms x w 0), on 1 (sageRms x w 1), on 2 (sageRms x w 2), f (sageRms x w 3)]
    pqs := [0, 1, 2].map (fun k => on k (sageP x w k)) ++ [0, 1, 2].map (fun k => on k (sageQ x w k))
      ++ [0, 1, 2].map (fun k => on k (sageRms x w k * sageRms x w (4 + k))) ++ [0, 1, 2].map (fun k => if used.contains k then pf k else 0)
    freq := Config.sageFreq ((w.2.getD 4 []).take w.1), windowTime := BitVec.ofNat 64 (sageNs s), windowStart := y.ticks, lastActive := if act then y.ticks else y.lastActive
    params := y.next.or y.params, next := none }) s
  if limited then sagePost true 0x0E06#16 [] s1 else s1

/-! ### Published area (R527) -/

/-- Bytes 0x000 to 0x3FF as they stand now. -/
def sageArea (s : State) : Bytes :=
  let x := s.sage
  let fl := flag x.notRestored 0 + flag x.fromCrystal 1 + flag x.clockFail 2 + flag x.supplyWarn 3 + flag (x.pulseOn && !x.pulseStops) 4 + flag x.pulseLimited 5
    + flag x.pulseStops 6
  let head := le32 x.updates ++ n8 (sealCode x.sealState) ++ n8 (sealGenByte s) ++ n8 (if x.retention then 1 else 0) ++ n8 fl ++ le64 x.windowTime ++ le32 x.counter
    ++ n16 (odometer s) ++ n16 (gensLeft s) ++ n32 (x.logNext - 1) ++ zeros 4 ++ (sageRegs x).flatMap (fun r => le64 (r.extractLsb' 32 64))
    ++ x.vrms.flatMap le32 ++ x.irms.flatMap le32 ++ x.pqs.flatMap le32 ++ le32 x.freq ++ x.bootId
  slice head 0 0x100 ++ memReadBytes s.rel.otp (sageBlockAt + 0x20) 128 ++ slice (sageHash x) 0 128 ++ slice x.checkpoint 0 256 ++ slice x.record 0 256

/-- Sage updates its published area. -/
def sagePublish (s : State) : State :=
  let s1 := updSage (fun x => { x with updates := x.updates + 1 }) s
  updSage (fun x => { x with area := sageArea s1 }) s1

/-! ### Signing (R515 to R517) -/

/-- Bytes 0 to 191 of a record signed now. -/
def recordBody (s : State) (j : SignJob) : Bytes :=
  let x := s.sage
  let fl := flag x.notRestored 0 + flag x.fromCrystal 1 + flag x.failSince 2 + flag x.supplyWarn 3
  le32 0x52535A4F#32 ++ n8 (if j.checkpoint then 1 else 0) ++ n8 (sealCode x.sealState) ++ n8 (sealGenByte s) ++ n8 fl
    ++ n32 (odometer s * 2 ^ 20 + x.n % 2 ^ 20) ++ le32 x.counter ++ le64 x.windowTime ++ uidBytes s ++ (sageRegs x).flatMap (fun r => le64 (r.extractLsb' 32 64))
    ++ slice j.host 0 32 ++ sageHash x ++ slice x.bootId 0 8

/-- The first signing that waits begins, none being in progress. -/
def startSigning (s : State) : State :=
  match s.sage.signing with
  | j :: t =>
    if j.body.isSome then s
    else updSage (fun x => { x with signing := { j with body := some (recordBody s j) } :: t, n := x.n + 1, failSince := x.clockFail }) s
  | [] => s
/-- A signing is due. -/
def queueSigning (j : SignJob) (s : State) : State := startSigning (updSage (fun x => { x with signing := x.signing ++ [j] }) s)
/-- A checkpoint is due: 0 period, 1 supply warning, 2 request, 3 metrology event. -/
def checkpointDue (trigger : Nat) (asked : Bool) (s : State) : State :=
  queueSigning { checkpoint := true, host := zeros 32, trigger := trigger, asked := asked, body := none } s

/-! ### Reset (R503) -/

/-- Sage resets: its memory is wiped; what it owed to the host ends with E_NOT_READY. A change of seal state is carried out by a
reset for it; a reset on the supply ends one that a token asked for unanswered in OTP, and makes the break that the lifecycle
demands (R520; log 113). -/
def sageResets (forSeal : Bool) (s : State) : State :=
  let x := s.sage
  let stays (o : SealOp) : Bool := forSeal || o == .breakLifecycle
  let op := match x.sealOp with | some o => if stays o then some o else none | none => none
  let owed := s.sys.longs.filter (fun l => opClass l.owed.opcode = 0x0E ∧ l.result.isNone ∧ (l.owed.opcode ≠ 0x0E05#16 ∨ op.isNone))
  let s1 := owed.foldl (fun s l => endLong l.owed.opcode l.key E_NOT_READY [] s) s
  let goal : SealState := match op with | none => x.sealState | some (.newSeal ..) => .isSealed | some _ => .broken
  updSage (fun _ => { sage0 with resetCause := if forSeal then 1 else 0, sealWas := x.sealState, sealState := goal, sealOp := op, supplyWarn := x.supplyWarn,
                                 hostActive := x.hostActive, status := x.status, fromCrystal := true }) s1

end Sys2Proof.Machine
end

