-- ==== Sys2Proof/Machine/OpsReset.lean ====
section
/-! DEFINITION. Shared operations: resets, the lifecycle area, rows of memory and retirements (spec/04, spec/21). -/

namespace Sys2Proof.Machine

open Sys2Proof

/-! ### The lifecycle area (R544). The spec does not place its fields: word 1120 holds the fuses, 1121 C, 1122 D, 1123 F. -/

/-- Set bits of a word. -/
def bitCount (w : U64) : Nat := ((List.range 64).filter (fun i => w.getLsbD i)).length
def lcC (s : State) : Nat := bitCount (otpWord s 1121)
def lcD (s : State) : Nat := bitCount (otpWord s 1122)
def lcF (s : State) : Nat := bitCount (otpWord s 1123 &&& 0xF#64)

/-- The lifecycle state that the area stands for. -/
def lifecycleOf (s : State) : Lifecycle :=
  let f := otpWord s 1120
  if f.getLsbD 3 then .ended else if f.getLsbD 2 then .returned
  else if f.getLsbD 1 then (if lcC s > lcD s then .commissioned else .production)
  else if f.getLsbD 0 then .develop else .blank

/-! ### Counters of block 6 (R542) -/

/-- A thermometer of n bits. -/
def thermometer (n : Nat) : U64 := BitVec.ofNat 64 (2 ^ n - 1)

/-- Set bits from the first on, over words of the OTP. -/
def countUp (s : State) (w : Nat) : Nat → Nat
  | 0 => 0
  | n + 1 =>
    let x := otpWord s w
    if x = BitVec.allOnes 64 then 64 + countUp s (w + 1) n
    else match (List.range 64).find? (fun i => !x.getLsbD i) with | some i => i | none => 64
/-- Counter 0, the image security version, or 1, the host counter. -/
def otpCounter (s : State) (k : Nat) : Nat := countUp s (768 + 64 * k) 64
/-- Raise a counter to a value. -/
def raiseCounter (k v : Nat) (s : State) : State :=
  forEach (List.range 64) (fun i s => if 64 * i < v then otpSet (768 + 64 * k + i) (thermometer (min 64 (v - 64 * i))) s else s) s

/-! ### Keys (R540, R541, R546, R551). The vendor area does not say where its fields lie: the unique identifier takes words 1152 and
1153, and the revocation of ROM keys bits 0 to 3 of word 1154 (log 13). -/

/-- A place of block 3 is revoked in any valid generation; `k` 0 for customer keys, 1 for vendor keys (R541). -/
def revoked (s : State) (k place : Nat) : Bool :=
  ([0, 1, 2, 3] : List Nat).any (fun g => let b := otpSlot s 3 g; slotValid 3 b && (byteAt b (192 + k)).getLsbD place)
/-- The vendor area revokes a ROM key (R540). -/
def romRevoked (s : State) (slot : Nat) : Bool := (otpWord s 1154).getLsbD slot
/-- A customer key hash place is set, and its 48 bytes. -/
def keyPlace (s : State) (place : Nat) : Bytes := slice (blockBytes s 3) (48 * place) 48
def keySet (s : State) (place : Nat) : Bool := (keyPlace s place).any (· != 0)
/-- K_IMG (R541). -/
def imageKey (s : State) : Bytes := slice (blockBytes s 3) 200 32
/-- A public key is the unrevoked vendor key of a ROM slot. -/
def romKeyOk (s : State) (slot : Nat) (key : Bytes) : Bool :=
  sha384 key == (List.range 48).map (Config.romKeyHash slot) && !revoked s 1 slot && !romRevoked s slot
/-- A public key is the unrevoked customer key of a place of block 3. -/
def customerKeyOk (s : State) (place : Nat) (key : Bytes) : Bool := decide (place < 4) && keySet s place && sha384 key == keyPlace s place && !revoked s 0 place

/-! ### Resets (R116, R118 to R123, R400) -/

/-- A reset from an internal source, which ends 10 us after its cause clears (R118, R119). -/
def internalCause (c : Byte) : Bool := [0x04#8, 0x05, 0x06, 0x12, 0x13, 0x14, 0x15].contains c

/-- The vendor area of the OTP, words 1152 to 2047: uid, trims and key revocation (R540). -/
def vendorArea (s : State) : List Host.Cell := s.rel.otp.filter (fun c => decide (1152 * 8 ≤ c.1))

/-- Causes 0x01 to 0x06 are cold resets. -/
def coldCause (c : Byte) : Bool := decide (c.toNat < 0x10)

/-- An instant as it stands on the raw count that starts anew with the reset. -/
def rebase (s : State) (t : Nat) : Nat := t - s.time.raw

/-- The field die through a warm reset: not reset, its link stops (R121). Its own time goes on, and every instant in it stands. -/
def fieldWarm (s : State) : Field :=
  let f := s.field
  { field0 with clock0 := dieNow s, ins := f.ins, outs := f.outs, lastDown := f.lastDown, upLast := f.upLast, tpCmd := f.tpCmd, tpRead := f.tpRead, tpBad := f.tpBad, tpMis := f.tpMis
                warn := f.warn, underV := f.underV, overV := f.overV, dieStop := f.dieStop, timedOut := f.timedOut, safeSeen := f.safeSeen, goodRun := f.goodRun
                upSeq := f.upSeq, downErr := f.downErr, spareDownErr := f.spareDownErr, dieLost := f.dieLost, timeout := f.timeout, dieTemp := f.dieTemp
                vField := f.vField, edges := f.edges, named := f.named, lastSeq := f.lastSeq, cleared := f.cleared, clearDue := f.clearDue }
/-- The field die through a cold reset: every output off, safe states forgotten; the levels at its balls and what it
supervises of VFIELD stay, and the junctions, so that VSUPPLY and THERMAL latch anew under them (R422, R429). -/
def fieldCold (s : State) : Field :=
  { field0 with ins := s.field.ins.map (fun x => let p := (inputLevel 0 x.volts).getD x.pin; { fieldIn0 with volts := x.volts, pin := p, raw := p && readable s })
                outs := s.field.outs.map (fun x => { fieldOut0 with current := x.current, hot := x.hot, faults := standingFaults s x })
                warn := s.field.warn, underV := s.field.underV, overV := s.field.overV, dieStop := s.field.dieStop, dieTemp := s.field.dieTemp, vField := s.field.vField }

/-- PWM and protection in reset: levels at the balls and supply conditions of the gate-driver die stay; in a warm reset
that die is not reset (R121), while the control die's own settings for it go. -/
def pwmReset (s : State) (cold : Bool) : Pwm :=
  { pwm0 with flts := s.pwm.flts.map (fun x => { flt0 with low := x.low, active := x.active }), vdrvWarn := s.pwm.vdrvWarn, vdrvShut := s.pwm.vdrvShut
              tempWarn := s.pwm.tempWarn, tempShut := s.pwm.tempShut, vdrv := s.pwm.vdrv, dieTemp := s.pwm.dieTemp
              hbs := if cold then pwm0.hbs else s.pwm.hbs.map (fun h => { h with preEnd := none, preDue := false, refreshes := 0, refreshThr := hb0.refreshThr, tRefresh := hb0.tRefresh, tPrecharge := hb0.tPrecharge }) }

/-- The latch of the safety causes through a reset (R400). The wait of R411 goes with its latched cause GRID and counts
anew (log 163). -/
def safeReset (s : State) : Safety :=
  let c := s.safe.causes &&& 0x07FF#16
  { safe0 with causes := c, firstReason := if c = 0 then 0 else s.safe.firstReason, gridWait := s.safe.gridWait && c.getLsbD (rGRID - 1), discLatch := s.safe.discLatch && c.getLsbD (rESTOP_DISCREPANCY - 1) }

/-- A reset starts (R118 to R123): what survives is the OTP, Sage, the latches and, in a warm reset, what R121 names. Of
several causes the first is recorded, and the lowest code of those that assert in the first one's cycle, before any time
passes (R120; log 21). A reset ends every shutdown of the control die (R140); it does not reach Sage (R123), whose pulse
output goes on with a shutdown in progress (log 135). -/
def startReset (cause : Byte) (s : State) : State :=
  let again := s.sys.phase == .inReset
  let cold := coldCause cause || (again && s.sys.cold)
  let latch := if !again then cause else if s.sys.causeOpen ∧ cause.toNat < s.sys.cause.toNat then cause else s.sys.cause
  { State.reset with
    pending := s.pending, free := s.free, sage := s.sage
    sys := { sys0 with cause := latch, intern := internalCause cause || (again && s.sys.intern), causeOpen := !again || s.sys.causeOpen, cold := cold, lifecycle := s.sys.lifecycle }
    sup := { sup0 with flags := s.sup.flags, volts := s.sup.volts, tj := s.sup.tj, trims := if cold then vendorArea s else s.sup.trims }
    rel := { rel0 with otp := s.rel.otp, rows := s.rel.rows.filter (fun r => decide (108 ≤ r.1)) }
    safe := safeReset s, pwm := pwmReset s cold
    clk := if cold then clk0 else { clk0 with plls := s.clk.plls.map (fun x => { x with profiles := List.replicate 8 none, relock := none, locks := 0, losses := 0, tLock := 0, relockAt := rebase s x.relockAt }) }
    field := if cold then fieldCold s else fieldWarm s }

/-! ### Retirements (R125, R532 to R538) -/

/-- A row of a macro is retired without a spare: the engine whose memory it is goes with it (R125, R535). -/
def rowGone (r : Retirement) (s : State) : State :=
  if r.index < 18 then settleEngines 4 (decideRetire { cls := 4, index := r.index, row := 0, reason := r.reason } s) else s

/-- A row's words are in its spare row, and it is remapped (R532); without a free spare row it is retired without one. -/
def remapRow (r : Retirement) (s : State) : State :=
  let k := freeRow s r.index
  let s1 := finishRetire r k { s with rel := { s.rel with rows := s.rel.rows ++ [(r.index, r.row, k)] } }
  if k.isNone then rowGone r s1 else s1

/-- Carry out the retirements that have been decided and need no hand-over. -/
def settleRetirements (s : State) : State := settleLanes (settleRound (settleIdle s))

/-- A retirement while nothing runs: decided and carried out at once (R534, R538). -/
def retireNow (r : Retirement) (s : State) : State :=
  if isRetired s r then s
  else
    let s1 := decideRetire r s
    if !s1.rel.waiting.contains r then s1
    else match r.cls with
      | 0 => remapRow r s1
      | 1 => retireSar r s1
      | 2 => retireMac r s1
      | 5 =>
        if s1.field.spareLanes > 0 ∧ (r.index = s1.field.laneDown ∨ r.index = s1.field.laneUp) then swapLane (updField (fun f => { f with swapNext := some r.index }) s1)
        else settleLanes s1
      | _ => settleIdle s1

/-- In BOOT the valid entries of the repair log are applied in log order, and are not logged again (R538). A row whose error made the
reset is still to be retired (R530). -/
def applyRepairLog (s : State) : State :=
  let s1 := forEach (List.range 64) (fun i s => let e := otpWord s (896 + i); if entryVoid e ∨ !retInRange (entryRet e) then s else retireNow (entryRet e) s) s
  { s1 with rel := { s1.rel with logWrites := [], volatiles := [], waiting := s.rel.waiting } }

/-! ### Graph memory (R99, R224, R530) -/

/-- The stage whose loaded image holds a byte of the graph memory. -/
def imageAt (s : State) (a : Nat) : Option Nat :=
  (List.range 8).find? (fun n => match (getStage s n).graph with | some g => decide (g.offset ≤ a) && decide (a < g.offset + g.length) | none => false)

end Sys2Proof.Machine
end

