-- ==== Sys2Proof/Machine/Safe.lean ====
section
/-! DEFINITION. The safety functions: inputs, test pulses, contactors, grid protection, diagnostics, commissioning and
leaving SAFE (spec/15). -/

namespace Sys2Proof.Machine

open Sys2Proof

/-! ### SF2 and SF3 (R402 to R404) -/

/-- The raw level has held against the debounced one for the input's debounce time (R402, R406). -/
def debounced (s : State) (ch n : Nat) : Bool :=
  let x := safeView s ch
  match s.safe.block with
  | none => false
  | some b =>
    match safeDebounce b n with
    | none => false
    | some d => !s.safe.fresh && (x.raw.getLsbD n != x.level.getLsbD n) && decide (d ≤ x.held.getD n 0)

/-- Track a discrepancy of the two SF2 inputs, and the end of a latched one (R404). -/
def discStep (s : State) : State :=
  match s.safe.block with
  | none => s
  | some b =>
    if !sf2On b then s
    else
      let a := s.safe.sorrel.level.getLsbD (n8At b 0x0C)
      let c := s.safe.sorrel.level.getLsbD (n8At b 0x0D)
      if s.safe.discLatch then
        if !a && !c then { s with safe := { s.safe with bothLow := true } }
        else if a && c && s.safe.bothLow then { s with safe := { s.safe with discLatch := false, bothLow := false, discSince := none } }
        else s
      else { s with safe := { s.safe with discSince := if a != c then some (s.safe.discSince.getD s.time.raw) else none } }

/-- A channel's debounced level of an input changes; a low SF2 or SF3 input is a demand (R404). -/
def takeLevel (ch n : Nat) (s : State) : State :=
  let lvl := (safeView s ch).raw.getLsbD n
  let s1 := updView ch (fun x => { x with level := if lvl then x.level ||| (1#16 <<< n) else x.level &&& ~~~(1#16 <<< n), held := upd x.held n (fun _ => 0) }) s
  let s2 := contStep ch (match s1.field.newest with | some u => u.doApplied | none => 0) s1.time.raw (if ch = 0 then discStep s1 else s1)
  match s2.safe.block with
  | none => s2
  | some b =>
    if lvl then s2
    else if sf2On b ∧ (n = n8At b 0x0C ∨ n = n8At b 0x0D) then safetyActs rESTOP ch 0xFF s2
    else if sf3On b ∧ n = n8At b 0x14 then safetyActs rINTERLOCK ch 0xFF s2
    else s2

/-- SAFETY_DEBOUNCE_EXPIRY (R402, R404, R406): a channel's debounce of an input expires. -/
def execSafetyDebounceExpiry (ch n : Nat) (s : State) : Host.Outcome State Fault Refusal :=
  .next (if debounced s ch n then takeLevel ch n s else s)

/-- ESTOP_DISCREPANCY (R404): one SF2 input has stayed high estop_disc after the other went low. -/
def execEstopDiscrepancy (s : State) : Host.Outcome State Fault Refusal :=
  match s.safe.block, s.safe.discSince with
  | some b, some t =>
    if s.safe.discLatch then .next s
    else .next (safetyActs rESTOP_DISCREPANCY 0 0xFF (advanceTo (t + 1000000 * n16At b 0x12) { s with safe := { s.safe with discLatch := true, bothLow := false } }))
  | _, _ => .next s

/-- The judgement of a test-pulsed input at the end of a mask window of a source (R402, R403). -/
def windowJudge (src : Nat) (p : Nat × Nat × Nat) (s : State) : State :=
  let t := s.safe.test
  let n := p.1
  let drop := t.dropSeen.getLsbD n && decide (t.highTail.getD n 0 ≥ 10)
  if p.2.1 = src then
    let m := if t.allHigh.getLsbD n then t.missing.getD n 0 + 1 else 0
    let s1 := { s with safe := { s.safe with dropouts := if drop then s.safe.dropouts ||| (1#16 <<< n) else s.safe.dropouts &&& ~~~(1#16 <<< n)
                                             test := { t with missing := upd t.missing n (fun _ => m) } } }
    if m ≥ 2 then safetyActs rTEST_PULSE 0 0xFF (post 0x0A02#16 n (n8 0 ++ n8 src) s1) else s1
  else if drop then safetyActs rTEST_PULSE 0 0xFF (post 0x0A02#16 n (n8 1 ++ n8 src) s)
  else s

/-- The mask window of a source is over: its last frame has been used, or the frames sent have passed it (R401). -/
def windowOver (t : TestCycle) (src : Nat) : Bool :=
  decide (t.seen / 500 = src ∧ 109 ≤ t.seen % 500) || !decide (t.frame / 500 = src ∧ t.frame % 500 ≤ 110)

/-- TEST_PULSE_WINDOW_END (R402, R403). -/
def execTestPulseWindowEnd (s : State) : Host.Outcome State Fault Refusal :=
  match s.safe.block, s.safe.test.window with
  | some b, some src =>
    if !windowOver s.safe.test src then .next s
    else
      let s1 := (pulsedInputs b).foldl (fun s p => windowJudge src p s) s
      .next { s1 with safe := { s1.safe with test := { s1.safe.test with window := none } } }
  | _, _ => .next s

/-! ### SF4 (R398, R405, R406) -/

/-- A channel sees a mismatch of an entry that it has not yet recognised. -/
def contWrong (s : State) (ch k : Nat) : Bool := let m := (contView s ch).getD k contMon0; m.applied != m.closed && !m.fault
/-- The channel whose 30 ms of an entry's mismatch end first, Sorrel where both end together (R406). -/
def contFirst (s : State) (k : Nat) : Option Nat :=
  match contWrong s 0 k, contWrong s 1 k with
  | true, true => some (if (s.safe.contProc.getD k contMon0).since < (s.safe.cont.getD k contMon0).since then 1 else 0)
  | true, false => some 0
  | false, true => some 1
  | false, false => none

/-- CONTACTOR_MISMATCH (R406): 30 ms of mismatch in a channel. The other channel's mismatch of the entry is then
recognised with it: one event and one cause. -/
def execContactorMismatch (k : Nat) (s : State) : Host.Outcome State Fault Refusal :=
  match contFirst s k with
  | none => .next s
  | some ch =>
    let m := (contView s ch).getD k contMon0
    if !(contactors s).any (fun c => decide (c.k = k)) ∨ s.safe.fresh then .next s
    else
      let kind := if !m.applied then 2 else if m.wasClosed then 1 else 0
      let seen (l : List ContMon) : List ContMon := upd l k (fun x => { x with fault := x.fault || x.applied != x.closed })
      let s1 := advanceTo (m.since + 30000000) (updCont 1 seen (updCont 0 seen s))
      .next (safetyActs rCONTACTOR ch 0xFF (post 0x0A03#16 k (n8 kind) s1))

/-- PERMIT_WITHDRAW (R398): a channel withdraws the permit of an entry open_delay after entry into SAFE; without both
permits the contactor's command is taken back. -/
def execPermitWithdraw (ch k : Nat) (s : State) : Host.Outcome State Fault Refusal :=
  match (contactors s).find? (fun c => c.k = k) with
  | none => .next s
  | some c =>
    let x := safeView s ch
    if s.sys.dev ≠ .safe ∨ !x.permits.getLsbD k then .next s
    else
      let s1 := updView ch (fun y => { y with permits := y.permits &&& ~~~(1#4 <<< k) }) (advanceTo (x.safeAt + 1000000 * c.delay) s)
      .next (commandOff c.output s1)

/-! ### SF5 and the safety cycle (R408 to R411, R416) -/

/-- The two channels see the inputs and the state alike (R416). -/
def channelsAgree (s : State) : Bool :=
  let a := s.safe.proc
  let b := s.safe.sorrel
  a.level == b.level && a.raw == b.raw && a.permits == b.permits && a.safeBit == b.safeBit

/-- SAFETY_CYCLE (R395, R407, R408, R416): the processor takes debounced levels, evaluates SF5, and compares itself with
Sorrel. -/
def execSafetyCycle (s : State) : Host.Outcome State Fault Refusal :=
  let s1 := forEach (List.range 16) (fun n s => if debounced s 1 n then takeLevel 1 n s else s) s
  let s2 := gridCycle s1
  .next { s2 with safe := { s2.safe with disagree := if channelsAgree s2 then none else some (s2.safe.disagree.getD s2.time.raw) } }

/-- GRID_TRIP (R409): an element's timer reaches its trip time. -/
def execGridTrip (e : Nat) (s : State) : Host.Outcome State Fault Refusal :=
  match s.safe.block, (s.safe.elems.getD e tripTimer0).since with
  | some b, some t =>
    if s.sys.dev ≠ .run then .next s
    else
      let el := tripElem b s.safe.islandSet e
      let s1 := advanceTo (t + 1000000 * el.time) { s with safe := { s.safe with gridWait := s.safe.gridWait || !s.safe.islandSet } }
      let v : F32 := match elemValue b s.safe.grid el with | some q => toF32 q | none => 0
      .next (safetyActs rGRID 1 0xFF (post 0x0A04#16 e (n8 (if s.safe.islandSet then 1 else 0) ++ n8 el.quantity ++ zeros 2 ++ le32 v) s1))
  | _, _ => .next s

/-- RECONNECTION_WAIT_END (R411). -/
def execReconnectionWaitEnd (s : State) : Host.Outcome State Fault Refusal :=
  match s.safe.block, s.safe.insideSince with
  | some b, some t =>
    if !s.safe.gridWait then .next s
    else
      let s1 := advanceTo (t + 1000000000 * n16At b 0x2E) s
      .next { s1 with safe := { s1.safe with gridWait := false } }
  | _, _ => .next s

/-! ### Diagnostics (R416, R417) -/

/-- SAFETY_LOCKSTEP_MISMATCH: the cores of the pair disagree. -/
def execSafetyLockstepMismatch (s : State) : Host.Outcome State Fault Refusal :=
  .next (if s.sys.phase = .inReset then s else safetyActs rLOCKSTEP 0 0xFF s)

/-- CHANNEL_DISAGREEMENT: the channels have disagreed for 10 ms, by their views or by a fault inside one of them. -/
def execChannelDisagreement (fault : Bool) (s : State) : Host.Outcome State Fault Refusal :=
  match s.safe.disagree with
  | some t => .next (safetyActs rCHANNEL 1 0xFF (advanceTo (t + 10000000) s))
  | none => .next (if fault && s.sys.phase != .inReset then safetyActs rCHANNEL 1 0xFF s else s)

/-- SAFETY_CLOCK: the Safety island's oscillator has been out of tolerance for 100 us. -/
def execSafetyClock (s : State) : Host.Outcome State Fault Refusal :=
  .next (if s.sys.phase = .inReset then s else safetyActs rSAFETY_CLOCK 0 0xFF s)

/-- PARAM_RECHECK: every 100 ms; `ok` tells that both copies of the committed block still agree with their check value. -/
def execParamRecheck (ok : Bool) (s : State) : Host.Outcome State Fault Refusal :=
  .next (if ok || s.safe.block.isNone then s else safetyActs rPARAM 1 0xFF s)

/-- Age of the last path test in s (R420). -/
def testAge (s : State) : Nat := (s.time.raw - s.safe.lastTest) / 1000000000

/-- TEST_DUE (R417): 24 h of RUN without a path test. -/
def execTestDue (s : State) : Host.Outcome State Fault Refusal :=
  match s.safe.runSince with
  | none => .next s
  | some t =>
    if s.safe.testDue then .next s
    else
      let s1 := advanceTo (t + (86400000000000 - s.safe.runTime)) s
      .next (post 0x0A05#16 0 (n32 (testAge s1)) { s1 with safe := { s1.safe with testDue := true } })

/-! ### The safety range (R420) -/

/-- A demand is present, or a test-pulsed input lacks its dropout (R415). -/
def demandPresent (s : State) : Bool :=
  match s.safe.block with
  | none => false
  | some b => (pulsedInputs b).any (fun p => !(s.safe.sorrel.level.getLsbD p.1) || !(s.safe.proc.level.getLsbD p.1) || !(s.safe.dropouts.getLsbD p.1))

/-- A contactor output is on, or its feedback does not read open (R415). -/
def contactorNotOpen (s : State) : Bool :=
  (contactors s).any (fun c => ([0, 1] : List Nat).any (fun ch => let m := (contView s ch).getD c.k contMon0; m.applied || m.closed))

/-- The wait of R411 runs: after a trip by the GRID set, while a committed block with SF5 says what to wait for (log 163). -/
def gridWaits (s : State) : Bool := s.safe.gridWait && s.safe.block.any sf5On

/-- What R415 still refuses: cause bits, 16 demand, 17 contactor, 18 reconnection wait. -/
def blocking (s : State) : Nat :=
  let c := s.safe.causes
  let pll := !pllLocked s 0 || (c.getLsbD (rCLOCK - 1) && !pllLocked s 1)
  ((c &&& 0xF800#16).toNat ||| flag s.safe.discLatch (rESTOP_DISCREPANCY - 1)) ||| flag pll (rCLOCK - 1) ||| flag (!s.field.linkUp) (rFIELD_LINK - 1)
    ||| flag (demandPresent s) 16 ||| flag (contactorNotOpen s) 17 ||| flag (gridWaits s) 18

/-- Remaining wait of R411 in ms. -/
def reconLeft (s : State) : Nat :=
  match s.safe.block with
  | none => 0
  | some b =>
    if !gridWaits s then 0
    else match s.safe.insideSince with
      | none => 1000 * n16At b 0x2E
      | some t => 1000 * n16At b 0x2E - (s.time.raw - t) / 1000000

/-- The flags of a contactor entry. -/
def contFlags (s : State) (k : Nat) : Nat :=
  if !(contactors s).any (fun c => decide (c.k = k)) then 0
  else
    let m := s.safe.cont.getD k contMon0
    flag m.applied 0 + flag (s.safe.proc.permits.getLsbD k) 1 + flag (s.safe.sorrel.permits.getLsbD k) 2 + flag m.closed 3 + flag (m.fault || (s.safe.contProc.getD k contMon0).fault) 4

/-- The 76 bytes 0x3800 to 0x384B. -/
def safeBytes (s : State) : Bytes :=
  let x := s.safe
  let g := x.grid
  n32 (flag x.block.isSome 0 + flag (x.block.isSome && x.inOtp) 1 + flag (s.sys.dev == .safe) 2 + flag x.testDue 3 + flag x.islandSet 4)
    ++ n8 x.firstReason ++ zeros 3 ++ n32 x.causes.toNat ++ n32 (if s.sys.dev = .safe then blocking s else 0) ++ le32 x.tSafe
    ++ (match x.block with | some b => le32 (crc32 b) ++ le32 (u32At b 8) | none => zeros 8) ++ le32 x.entries
    ++ n16 x.sorrel.level.toNat ++ n16 x.dropouts.toNat ++ (List.range 4).flatMap (fun k => n8 (contFlags s k)) ++ n32 (testAge s)
    ++ g.volts.flatMap le32 ++ le32 (g.freq.getD 0) ++ le32 (g.rocof.getD 0) ++ le32 g.v10
    ++ n8 (bitField ((List.range 8).filter (fun i => (x.elems.getD i tripTimer0).since.isSome)))
    ++ n8 (bitField ((List.range 8).filter (fun i => (x.elems.getD i tripTimer0).armed))) ++ zeros 2 ++ n32 (reconLeft s)

/-! ### Cards -/

def safeCard (allowed : DevState → Bool) (run : State → Req → CardResult) : Card := { lifecycle := anyLc, allowed := allowed, run := run }

/-- A block is committed by both channels (R413, R414); in RUN they set the permits of its contactors (R405). -/
def commitBlock (b : Bytes) (otp : Bool) (s : State) : State :=
  let t : State := { s with safe := { s.safe with block := some b, inOtp := otp, fresh := true, discSince := none, dropouts := 0, insideSince := none,
                                                  test := { testCycle0 with frame := s.safe.test.frame, seen := s.safe.test.seen }, cont := List.replicate 4 contMon0, contProc := List.replicate 4 contMon0
                                                  elems := List.replicate 8 tripTimer0, islandSet := false, grid := gridMeas0 } }
  sendNames (if s.sys.dev = .run then grantPermits t else t)

/-- SAFE_LOAD_PARAMS (R412, R414). -/
def loadParamsRun (s : State) (r : Req) : CardResult :=
  if s.sys.lifecycle = .commissioned then rejectWith E_LOCKED
  else if !safeBlockOk (reqParams r) then rejectWith E_PARAM
  else if safetyRamLost s then rejectWith E_RESOURCE
  else .done (sendNames (dropPermits { s with safe := { s.safe with loaded := some (reqParams r), block := none, inOtp := false } })) []

def execSafeLoadParams (via : Transport) (s : State) : Host.Outcome State Fault Refusal :=
  .next (runCard (isOp 0x0A00#16) (safeCard (· == .config) loadParamsRun) via s)

/-- SAFE_GET_CHECK. -/
def getCheckRun (s : State) (r : Req) : CardResult :=
  let p := reqParams r
  let b := if n8At p 0 = 0 then s.safe.loaded else s.safe.block
  if p.length ≥ 1 ∧ n8At p 0 < 2 ∧ b.isNone then rejectWith E_STATE
  else if p.length ≠ 4 ∨ n8At p 0 > 1 ∨ !zeroAt p 1 3 then rejectWith E_PARAM
  else match b with
    | some x => .done s (le32 (crc32 x) ++ le32 (crc32 x) ++ le32 (u32At x 8))
    | none => rejectWith E_STATE

def execSafeGetCheck (via : Transport) (s : State) : Host.Outcome State Fault Refusal :=
  .next (runCard (isOp 0x0A01#16) (safeCard inAll4 getCheckRun) via s)

/-- The lowest slot of a block that is all zero and that no waiting write takes (R541, R543). -/
def freeSlotNow (s : State) (b : Nat) : Option Nat :=
  let taken := s.rel.jobs.filterMap (fun j => match j with
    | .block c g _ => if c = b then some g else none
    | .commission g _ => if b = 2 then some g else none
    | _ => none)
  ([0, 1, 2, 3] : List Nat).find? (fun g => (otpSlot s b g).all (· == 0) && !taken.contains g)

/-- The event of a committed block (R421). -/
def paramsEvent (b : Bytes) (s : State) : State := post 0x0A08#16 0 (n8 1 ++ zeros 3 ++ le32 (crc32 b)) s

/-- SAFE_COMMISSION (R414). -/
def commissionRun (s : State) (r : Req) : CardResult :=
  let p := reqParams r
  match s.sys.lifecycle, s.safe.loaded with
  | .commissioned, _ => rejectWith E_LOCKED
  | _, none => rejectWith E_STATE
  | _, some b =>
    let persist := (byteAt p 4).getLsbD 0
    if p.length ≠ 8 ∨ n8At p 4 > 1 ∨ !zeroAt p 5 3 then rejectWith E_PARAM
    else
      match persist, freeSlotNow s 2 with
      | true, none => rejectWith E_RESOURCE
      | true, some g =>
        if classFull s 0x0A02#16 then rejectWith E_BUSY
        else if u32At p 0 ≠ crc32 b then rejectWith E_VERIFY
        else .long { s with rel := { s.rel with jobs := s.rel.jobs ++ [.commission g b] } } g []
      | false, _ =>
        if u32At p 0 ≠ crc32 b then rejectWith E_VERIFY
        else .done (paramsEvent b (commitBlock b false s)) (n8 0xFF ++ zeros 3)

/-- BLANK, RETURN and END do not commission. -/
def commissionLc (s : State) (_ : Req) : Bool := !(s.sys.lifecycle == .blank || s.sys.lifecycle == .returned || s.sys.lifecycle == .ended)

def execSafeCommission (via : Transport) (s : State) : Host.Outcome State Fault Refusal :=
  .next (runCard (isOp 0x0A02#16) { lifecycle := commissionLc, allowed := (· == .config), run := commissionRun } via s)

/-- SAFE_STATUS. -/
def safeStatusRun (s : State) (r : Req) : CardResult := if lenIs r 0 then .done s (safeBytes s) else rejectWith E_PARAM

def execSafeStatus (via : Transport) (s : State) : Host.Outcome State Fault Refusal :=
  .next (runCard (isOp 0x0A03#16) (safeCard inAll4 safeStatusRun) via s)

/-- The device leaves SAFE (R415): causes clear, stages unlock, the gating cells are released, FAULT_N goes high. Permits
that still wait for their open_delay end with it, and their outputs' commands (R405; log 164). -/
def leaveSafe (s0 : State) : State :=
  let s := (contactors s0).foldl (fun s c => commandOff c.output s) s0
  let c := s.safe.causes
  let s1 := updBoth (fun x => { x with safeBit := false, permits := 0 }) { s with
    safe := { s.safe with causes := 0, firstReason := 0, firstAt := none }
    pwm := { s.pwm with gateProc := true, gateSorrel := true }
    sys := { s.sys with faultN := true } }
  let s2 := forEach (List.range 8) (fun n s => if (getStage s n).st = .lockedOut then stageOver n 0 s else s) s1
  setDev .config 0x0A04 (post 0x0A01#16 0 (n32 c.toNat) (settleIdle s2))

/-- SAFE_ACK_FAULT (R415). -/
def ackFaultRun (s : State) (r : Req) : CardResult :=
  let p := reqParams r
  let b := blocking s
  if b ≠ 0 then .reject E_STATE (n32 b)
  else if p.length ≠ 4 ∨ u32At p 0 ≠ s.safe.causes.zeroExtend 32 then rejectWith E_PARAM
  else .done (leaveSafe s) (zeros 4)

def execSafeAckFault (via : Transport) (s : State) : Host.Outcome State Fault Refusal :=
  .next (runCard (isOp 0x0A04#16) (safeCard (· == .safe) ackFaultRun) via s)

end Sys2Proof.Machine
end

