-- ==== Sys2Proof/Machine/Rel.lean ====
section
/-! DEFINITION. Memory protection, spares, OTP, lifecycle and the debug lock (spec/21). -/

namespace Sys2Proof.Machine

open Sys2Proof

/-! ### Words read by the scrub (R529 to R533) -/

def updRel (f : Rel → Rel) (s : State) : State := { s with rel := f s.rel }

/-- A receive entry is dropped (R530): it leaves the FIFO at either end, and is emptied elsewhere. -/
def dropRx (p e : Nat) (s : State) : State :=
  let x := getCan s p
  let pos := (e + 64 - x.rxHead) % 64
  let s1 := canWrite (rxAddr p e) (zeros 80) (updCan p (fun y => { y with rxOverflow := y.rxOverflow + 1 }) s)
  if pos ≥ x.rxHeld then s
  else if pos = 0 then updCan p (fun y => { y with rxHead := (y.rxHead + 1) % 64, rxHeld := y.rxHeld - 1 }) s1
  else if pos + 1 = x.rxHeld then updCan p (fun y => { y with rxHeld := y.rxHeld - 1 }) s1
  else s1

/-- A transmit entry becomes CANCELLED (R530). -/
def dropTx (p e : Nat) (s : State) : State :=
  let x := getCan s p
  if !x.queue.contains e then s
  else updCan p (fun y => { y with txCancelled := y.txCancelled + 1, current := if y.current = some e then none else y.current }) (txOutcome p e 3 s)

/-- The channels whose assignments stop with an uncorrectable filter word (R530). -/
def eccChannels (s : State) (use : WordUse) : List Nat :=
  match use with
  | .set k => (s.flt.assigns.filter (fun x => x.set = some k)).map (·.ch)
  | .history c => (s.flt.assigns.filter (fun x => x.ch = c)).map (·.ch)
  | _ => []
/-- The stage that an uncorrectable word of a macro shuts down (event 0x0F01), the lowest of several. -/
def eccStage (s : State) (m w : Nat) (use : WordUse) : Option Nat :=
  (if m < 18 then (getEngine s m).stage else if m < 33 then imageAt s ((m - 18) * 65536 + 8 * w)
    else if m = 33 then (readersOf s ((eccChannels s use).filter (fun c => !(getFch s c).stopped))).head? else none).bind
    (fun n => if stageOff s n then none else some n)

/-- The reaction to an uncorrectable word (R530). A word of capture memory stays as it is read, which differs from what was written
in bits that are open; a copy of a Sage accumulator is lost until the next vote (R531). -/
def eccReaction (m w : Nat) (use : WordUse) (s : State) : State :=
  if m < 18 then
    match (getEngine s m).stage with | some n => forcedShutdown n s | none => s
  else if m < 33 then
    let a := (m - 18) * 65536 + 8 * w
    match imageAt s a with
    | some n => unloadGraph n (forcedShutdown n s)
    | none => { s with loop := { s.loop with mem := memClear s.loop.mem a 8 } }
  else if m = 33 then
    match use with
    | .set _ | .history _ => stopAssigned 0xFF (eccChannels s use) s
    | _ => { s with flt := { s.flt with mem := memClear s.flt.mem (8 * w) 8 } }
  else if m < 42 then
    match use with
    | .canTx p e => dropTx p e s
    | .canRx p e => dropRx p e s
    | .logEntry i => { s with evt := { s.evt with entries := upd s.evt.entries i (fun e => { e with time := 0, code := 0, source := 0, rept := 0, data := zeros 8 }) } }
    | _ =>
      let t := startReset 0x15#8 s
      updRel (fun x => { x with waiting := s.rel.waiting.filter (fun r => decide (r.cls = 0) && decide (r.index = m) && decide (r.row = w / 16)) }) t
  else if m < 106 then
    let a := (m - 42) * 65536 + 8 * w
    let (b, s1) := drawBytes 8 s
    { s1 with cap := { s1.cap with mem := memWriteBytes s1.cap.mem a (((memReadBytes s1.cap.mem a 8).zip b).map (fun p => p.1 ^^^ (p.2 ||| 1#8))) } }
  else if m < 108 then safetyActs rSAFETY_ECC 1 0xFF s
  else
    match use with
    | .sageCopy c i =>
      let (b, s1) := drawBytes 12 s
      updSage (fun x => { x with copies := upd x.copies c (fun l => upd l i (fun _ => BitVec.ofNat 96 (beNat b))) }) s1
    | _ => s

/-- A row of Sage memory is retired by the Sage core, and recorded in the Sage block where a spare row is left (R521, R531); event
0x0F02 (R535). -/
def retireSageRow (m row reason : Nat) (s : State) : State :=
  if s.rel.rows.any (fun r => decide (r.1 = m) && decide (r.2.1 = row)) then s
  else
    let k := freeRow s m
    let s1 := updRel (fun x => { x with rows := x.rows ++ [(m, row, k)] }) s
    let (s2, kept) := match k, (List.range 16).find? (fun i => n32At (memReadBytes s.rel.otp (sageBlockAt + 0x3C0 + 4 * i) 4) 0 = 0) with
      | some sp, some i => (otpProgram (sageBlockAt + 0x3C0 + 4 * i) (n32 (0x5A * 2 ^ 24 + (m - 108) * 2 ^ 22 + row * 2 ^ 13 + sp * 2 ^ 11)) s1, true)
      | _, _ => (s1, false)
    sagePost false 0x0F02#16 (n8 m ++ n8 (k.getD 0xFF) ++ n8 (4 - (rowSpares s2 m).length) ++ n8 reason ++ n8 (flag kept 0) ++ n16 row) s2

/-- A corrected word's history makes its row permanent: corrected again within 10 s. -/
def rowAgain (s : State) (m row : Nat) : Bool := s.rel.rowSeen.any (fun x => decide (x.1 = 512 * m + row) && decide (s.time.raw ≤ x.2 + 10000000000))

/-- One more word of the scrub pass over the control die's macros has been read (R531). -/
def scrubCount (m : Nat) (s : State) : State :=
  if m ≥ 108 then s
  else if s.rel.scrubReads + 1 ≥ 108 * 8192 then updRel (fun x => { x with scrubReads := 0, scrubPasses := x.scrubPasses + 1 }) s
  else updRel (fun x => { x with scrubReads := x.scrubReads + 1 }) s

/-- The raw count at which a row's last corrected error was written back. -/
def noteRow (m row : Nat) (s : State) : State :=
  updRel (fun x => { x with rowSeen := (512 * m + row, s.time.raw) :: x.rowSeen.filter (fun y => y.1 ≠ 512 * m + row) }) s
/-- A row that holds CAN message RAM is known as such from then on. -/
def noteUse (m row : Nat) (use : WordUse) (s : State) : State :=
  match use with
  | .canTx p _ | .canRx p _ => updRel (fun x => { x with canRows := if x.canRows.contains (512 * m + row, p) then x.canRows else x.canRows ++ [(512 * m + row, p)] }) s
  | _ => s

/-- A word of Sage memory with errors, which the Sage core handles (R521, R530, R531), in every state of the control die. -/
def sageWordBad (m w bits : Nat) (use : WordUse) (s : State) : State :=
  let row := w / 16
  if bits = 0 ∨ s.sage.phase = .inReset then s
  else if bits > 2 then eccReaction m w use (retireSageRow m row 2 s)
  else if bits = 2 then retireSageRow m row 1 (noteRow m row s)
  else if rowAgain s m row then retireSageRow m row 0 (noteRow m row s)
  else noteRow m row s

/-- SCRUB_READ (R529 to R533): word w of macro m is read with `bits` errors, 3 standing for more than two, by the scrub engine or
by another access; `use` says what the word holds where R530 asks. -/
def execScrubRead (m w bits : Nat) (use : WordUse) (scrub : Bool) (s : State) : Host.Outcome State Fault Refusal :=
  let row := w / 16
  let s1 := noteUse m row use (if scrub then scrubCount m s else s)
  if m ≥ 108 then .next (sageWordBad m w bits use s)
  else if !logLive s then .next s
  else if bits = 0 then .next s1
  else if bits ≤ 2 then
    let s2 := postMerge 0x0F00#16 m (n16 row ++ n8 (w % 16) ++ n8 bits) (updRel (fun x => { x with corrected := x.corrected + 1 }) s1)
    let s3 := noteRow m row s2
    .next (if bits = 2 then decideRetire { cls := 0, index := m, row := row, reason := 1 } s3
      else if rowAgain s m row then decideRetire { cls := 0, index := m, row := row, reason := 0 } s3
      else updRel (fun x => { x with transient := upd x.transient 0 satInc }) s3)
  else
    let st := eccStage s m w use
    let s2 := post 0x0F01#16 m (n16 w ++ n8 (st.getD 0xFF)) (updRel (fun x => { x with uncorrectable := x.uncorrectable + 1 }) s1)
    .next (eccReaction m w use (decideRetire { cls := 0, index := m, row := row, reason := 2 } s2))

/-- ROW_REMAP (R532, R534): the oldest decided row's copy ends. -/
def execRowRemap (s : State) : Host.Outcome State Fault Refusal :=
  .next (match nextRetire s 0 with | some r => remapRow r s | none => s)

/-- REPAIR_LOG_WRITE_DONE (R536, R537, R539): an entry is in its place; the last place taken is reported once. -/
def execRepairLogWriteDone (s : State) : Host.Outcome State Fault Refusal :=
  match s.rel.logWrites with
  | [] => .next s
  | e :: t =>
    let s1 := otpSet (896 + logUsed s) e (updRel (fun x => { x with logWrites := t }) s)
    .next (if logUsed s1 ≥ 64 ∧ !s1.rel.logFull then post 0x0F03#16 0 [] (updRel (fun x => { x with logFull := true }) s1) else s1)

/-! ### Spares (R532, R539, R553) -/

/-- In service, spares and retired of a class (R553). -/
def classCounts (s : State) (c : Nat) : Nat × Nat × Nat :=
  match c with
  | 0 =>
    let out := (s.rel.rows.filter (fun r => r.2.2.isNone)).length
    (57344 - out, 448 - (s.rel.rows.length - out), s.rel.rows.length)
  | 1 => ((s.sense.cores.filter (fun k => k.phys.isSome)).length, sparesLeft s 1 0, (s.rel.sarRetired.filter (·)).length)
  | 2 => (lanes s, sparesLeft s 2 0, (s.rel.macRetired.filter (·)).length)
  | 3 => ((s.pwm.units.filter (fun u => u.service == .inService)).length, sparesLeft s 3 0, (s.pwm.units.filter (fun u => u.service == .retired)).length)
  | 4 => ((s.loop.engines.filter (fun u => u.service == .inService)).length, sparesLeft s 4 0, (s.loop.engines.filter (fun u => u.service == .retired)).length)
  | _ =>
    let gone := (s.rel.laneRetired.filter (·)).length
    (min 2 (3 - gone), s.field.spareLanes, gone)
/-- The six class entries. -/
def classBytes (s : State) : Bytes :=
  (List.range 6).flatMap (fun c => let (a, b, r) := classCounts s c; n16 a ++ n16 b ++ n16 r ++ le16 (s.rel.transient.getD c 0))

def spareStatusRun (s : State) (r : Req) : CardResult :=
  if (reqParams r).length ≠ 0 then rejectWith E_PARAM
  else
    let v := s.rel.volatiles.take 64
    .done s (classBytes s ++ n8 (logUsed s) ++ n8 v.length ++ zeros 2 ++ v.flatMap le64)
def execSpareStatus (via : Transport) (s : State) : Host.Outcome State Fault Refusal :=
  .next (runCard (isOp 0x0F04#16) (graphCard spareStatusRun) via s)

/-- REPAIR_RESTORE (R539): each resource named is retired again, with reason 6. -/
def repairRestoreRun (s : State) (r : Req) : CardResult :=
  let p := reqParams r
  let n := n8At p 0
  let es := (List.range n).map (fun i => u64At p (4 + 8 * i))
  let busy := !allStagesOff s
  if busy then rejectWith E_STATE
  else if n = 0 ∨ n > 64 ∨ p.length ≠ 4 + 8 * n ∨ !zeroAt p 1 3 ∨ es.any (fun e => entryVoid e || !retInRange (entryRet e)) then rejectWith E_PARAM
  else
    let one (a : State × Nat × Nat) (e : U64) : State × Nat × Nat :=
      let q := { entryRet e with reason := 6 }
      let t := decideRetire q a.1
      if t.rel.waiting.contains q ∧ !a.1.rel.waiting.contains q then (t, a.2.1 + 1, a.2.2) else (a.1, a.2.1, a.2.2 + 1)
    let (s1, ap, al) := es.foldl one (s, 0, 0)
    .done (settleRetirements s1) (n8 ap ++ n8 al ++ zeros 2)
def execRepairRestore (via : Transport) (s : State) : Host.Outcome State Fault Refusal :=
  .next (runCard (isOp 0x0F05#16) { lifecycle := anyLc, allowed := (· == .config), run := repairRestoreRun } via s)

/-! ### OTP (R541 to R543) -/

/-- Reserved bytes of a block's content are zero. -/
def blockReservedOk (b : Nat) (c : Bytes) : Bool :=
  match b with
  | 0 => zeroAt c 96 156 && [32, 64].all (fun a => zeroAt c (a + 14) 2 && zeroAt c (a + 30) 2)
  | 1 => zeroAt c 32 220 && [0, 16].all (fun a => zeroAt c (a + 3) 1)
  | 3 => zeroAt c 194 6 && zeroAt c 232 20 && decide (n8At c 192 < 16) && decide (n8At c 193 < 16)
  | 4 => zeroAt c 12 240
  | _ => true
/-- No binary32 field of a block's content is a NaN or an infinity (R3): the plans of block 1. -/
def blockFinite (b : Nat) (c : Bytes) : Bool :=
  b != 1 || [4, 8, 12, 20, 24, 28].all (fun a => !f32Bad (u32At c a))
/-- A key field given as zero takes the key of the newest valid generation (R543). -/
def keepKey (s : State) (b a : Nat) (c : Bytes) : Bytes :=
  if zeroAt c a 32 then c.take a ++ slice (blockBytes s b) a 32 ++ c.drop (a + 32) else c
def withKeys (s : State) (b : Nat) (c : Bytes) : Bytes := match b with | 0 => keepKey s 0 0 c | 3 => keepKey s 3 200 c | _ => c
/-- The contents of block 3 that its newest generation and the waiting writes have. -/
def blocks3 (s : State) : List Bytes := blockBytes s 3 :: s.rel.jobs.filterMap (fun j => match j with | .block 3 _ c => some c | _ => none)
/-- From PRODUCTION on a set key hash stays, also one that a waiting write sets (R543). -/
def keysKept (s : State) (c : Bytes) : Bool :=
  (s.sys.lifecycle != .production && s.sys.lifecycle != .commissioned)
    || ([0, 1, 2, 3] : List Nat).all (fun k => (blocks3 s).all (fun b => (slice b (48 * k) 48).all (· == 0) || slice c (48 * k) 48 == slice b (48 * k) 48))

/-- The value that counter 1 will have once the waiting raises are made. -/
def counterNow (s : State) : Nat := s.rel.jobs.foldl (fun m j => match j with | .counter 1 v => max m v | _ => m) (otpCounter s 1)

/-- OTP_WRITE_BLOCK; the checks of R55 steps 4 to 6 stand here. -/
def otpWriteRun (s : State) (r : Req) : CardResult :=
  let p := reqParams r
  let b := n8At p 0
  let c := slice p 4 252
  let job (j : OtpJob) (key : Nat) : CardResult := .long (updRel (fun x => { x with jobs := x.jobs ++ [j] }) s) key []
  if (match r.via with | .cmd => false | .udp _ _ => true) && (decide (b = 0) || decide (b = 3)) then rejectWith E_AUTH
  else if s.sys.lifecycle = .returned ∨ s.sys.lifecycle = .ended then rejectWith E_LIFECYCLE
  else if s.sys.dev ≠ .config then rejectWith E_STATE
  else if b = 4 ∧ s.sys.lifecycle = .commissioned then rejectWith E_LOCKED
  else if !zeroAt p 1 3 ∨ b = 2 ∨ b > 6 then rejectWith E_PARAM
  else if b = 6 then
    if p.length ≠ 8 ∨ n16At p 4 ≠ 1 ∨ (n16At p 6 ≤ counterNow s ∧ counterNow s < 4096) then rejectWith E_PARAM
    else if n16At p 6 > 4096 ∨ counterNow s ≥ 4096 then rejectWith E_RESOURCE
    else if classFull s 0x0F00#16 then rejectWith E_BUSY
    else job (.counter 1 (n16At p 6)) 48
  else if p.length ≠ 256 ∨ !blockReservedOk b c ∨ !blockFinite b c ∨ (b = 3 ∧ !keysKept s c) then rejectWith E_PARAM
  else match freeSlotNow s b with
    | none => rejectWith E_RESOURCE
    | some g => if classFull s 0x0F00#16 then rejectWith E_BUSY else job (.block b g c) (8 * b + g)

def execOtpWriteBlock (via : Transport) (s : State) : Host.Outcome State Fault Refusal :=
  .next (runCard (isOp 0x0F00#16) { lifecycle := anyLc, allowed := fun _ => true, run := otpWriteRun } via s)

/-- A slot after a program verify that failed: invalid and used (R541); its other bytes are open. -/
def failedSlot (b g : Nat) (crc : Bytes → U32) (s : State) : State :=
  let (d, s1) := drawBytes 252 s
  otpProgram (8 * (128 * b + 32 * g)) (d ++ le32 (~~~(crc d))) s1

/-- Event 0x0F04. -/
def otpEvent (src g : Nat) (st : U16) (s : State) : State := post 0x0F04#16 src (n8 g ++ [0] ++ le16 st) s

/-- A block destroyed: every slot all ones (R545). -/
def destroySteps (b : Nat) : List (Nat × U64) := (List.range 128).map (fun i => (128 * b + i, BitVec.allOnes 64))
/-- The words that a transition programs, in order: the destructions first, the fuse or thermometer bit last (R545, R547). -/
def transitionSteps (s : State) (target : Nat) : List (Nat × U64) :=
  match target with
  | 2 => [(1120, 1)]
  | 3 =>
    if s.sys.lifecycle = .commissioned then
      let used := (([0, 1, 2, 3] : List Nat).filter (fun g => (otpSlot s 2 g).any (· != 0))).length
      [(1123, thermometer used), (1122, thermometer (lcD s + 1))]
    else [(1120, 2)]
  | 4 => [(1121, thermometer (lcC s + 1))]
  | 5 => destroySteps 0 ++ destroySteps 3 ++ [(1120, 4)]
  | _ => destroySteps 0 ++ destroySteps 3 ++ [(1120, 8)]
/-- The first n words of a transition are programmed. -/
def programSteps (n target : Nat) (s : State) : State := ((transitionSteps s target).take n).foldl (fun s e => otpSet e.1 e.2 s) s
/-- The OTP actions of a transition, all of them. -/
def programTransition (target : Nat) (s : State) : State := programSteps (transitionSteps s target).length target s
/-- A transition to RETURN or END breaks the Sage seal (R520, R545): the break is due from the end of its programming on, and no
reset of the control die drops it (log 189). -/
def breakSeal (target : Nat) (s : State) : State :=
  if (target = 5 ∨ target = 6) ∧ s.sage.sealState = .isSealed ∧ s.sage.sealOp.isNone then updSage (fun x => { x with sealOp := some .breakLifecycle }) s else s

/-- OTP_PROGRAM_DONE (R541, R543, R545, R413): the write in progress ends; `ok` is its program verify. -/
def execOtpProgramDone (ok : Bool) (s : State) : Host.Outcome State Fault Refusal :=
  match s.rel.jobs with
  | [] => .next s
  | j :: t =>
    let s1 := updRel (fun x => { x with jobs := t }) s
    let st : U16 := if ok then OK else E_VERIFY
    .next (match j with
      | .block b g c =>
        let d := withKeys s1 b c
        let s2 := if ok then otpProgram (8 * (128 * b + 32 * g)) (d ++ le32 (crc32c d)) s1 else failedSlot b g crc32c s1
        endLong 0x0F00#16 (8 * b + g) st (n8 g ++ zeros 3) (otpEvent b g st s2)
      | .counter k v => endLong 0x0F00#16 48 st (n8 0xFF ++ zeros 3) (otpEvent 6 0xFF st (if ok then raiseCounter k v s1 else s1))
      | .commission g d =>
        if ok then
          let s2 := otpProgram (8 * (256 + 32 * g)) (d ++ le32 (crc32 d)) s1
          endLong 0x0A02#16 g OK (n8 g ++ zeros 3) (otpEvent 2 g OK (paramsEvent d (commitBlock d true s2)))
        else endLong 0x0A02#16 g E_VERIFY [] (otpEvent 2 g E_VERIFY (failedSlot 2 g crc32 s1))
      | .transition tgt =>
        let s2 := endLong 0x0F02#16 tgt st [] (otpEvent 0x13 0xFF st (if ok then breakSeal tgt (programTransition tgt s1) else s1))
        scheduleReset 0x06#8 (if ok then forEach [0, 1] (fun p => closePortSessions p 4) s2 else s2))

/-- The first word of a region and its length in bytes. -/
def otpRegion (k g : Nat) : Option (Nat × Nat) :=
  match k with
  | 6 => some (768, 1024)
  | 0x10 => some (896, 512)
  | 0x11 => some (960, 256)
  | 0x12 => some (992, 1024)
  | 0x13 => some (1120, 256)
  | _ => if k < 6 ∧ g < 4 then some (128 * k + 32 * g, 256) else none
/-- A byte of a region that reads zero: K_CMD, K_IMG, the Sage private key. -/
def otpHidden (k a : Nat) : Bool := (decide (k = 0) && decide (a < 32)) || (decide (k = 3) && decide (200 ≤ a) && decide (a < 232)) || (decide (k = 0x12) && decide (a < 32))

/-- OTP_READ_BLOCK. -/
def otpReadRun (s : State) (r : Req) : CardResult :=
  let p := reqParams r
  let k := n8At p 0
  let gen := n8At p 1
  let o := n16At p 2
  let n := n16At p 4
  let g := if k < 6 ∧ gen = 0xFF then (match newestGen s k with | some x => x.1 | none => 0xFF) else gen
  let none_ := k < 6 ∧ gen = 0xFF ∧ g = 0xFF
  match otpRegion k (if none_ then 0 else g) with
  | none => rejectWith E_PARAM
  | some (w, len) =>
    if p.length ≠ 8 ∨ !zeroAt p 6 2 ∨ (k ≥ 6 ∧ gen ≠ 0) ∨ n = 0 ∨ n > 1024 ∨ o + n > len then rejectWith E_PARAM
    else
      let d := (List.range n).map (fun i => if none_ ∨ otpHidden k (o + i) then 0 else memRead s.rel.otp (8 * w + o + i))
      let valid := if none_ then false else if k < 6 then slotValid k (otpSlot s k g) else true
      .done s (n8 g ++ n8 (if valid then 1 else 0) ++ zeros 2 ++ d)

def execOtpReadBlock (via : Transport) (s : State) : Host.Outcome State Fault Refusal :=
  .next (runCard (isOp 0x0F01#16) (graphCard otpReadRun) via s)

/-! ### Lifecycle (R545 to R547) -/

def isLc (action : Nat) (r : Req) : Bool := isOp 0x0F02#16 r && decide ((reqParams r).length ≥ 1) && decide (n8At (reqParams r) 0 = action)
def isLcElse (r : Req) : Bool := isOp 0x0F02#16 r && !isLc 1 r

def commissionsLeft (s : State) : Nat := 64 - lcC s

/-- LC_TRANSITION query: a new nonce. -/
def lcQueryRun (s : State) (r : Req) : CardResult :=
  let p := reqParams r
  if p.length ≠ 4 ∨ !zeroAt p 0 4 then rejectWith E_PARAM
  else
    let (n, s1) := drawBytes 16 s
    .done (updRel (fun x => { x with nonce := some (n, s.time.raw) }) s1) (n8 (lcCode s.sys.lifecycle) ++ n8 (commissionsLeft s) ++ zeros 2 ++ n ++ uidBytes s)
def execLcTransitionQuery (via : Transport) (s : State) : Host.Outcome State Fault Refusal :=
  .next (runCard isLcElse (graphCard lcQueryRun) via s)

/-- A transition of R545 whose conditions hold. -/
def lcPair (s : State) (t : Nat) : Bool :=
  match s.sys.lifecycle, t with
  | .blank, 2 => true
  | .develop, 3 => ([0, 1, 2, 3] : List Nat).any (fun k => (slice (blockBytes s 3) (48 * k) 48).any (· != 0)
      && !([0, 1, 2, 3] : List Nat).any (fun g => let b := otpSlot s 3 g; slotValid 3 b && (byteAt b 192).getLsbD k))
  | .production, 4 => (match s.safe.block, newestGen s 2 with | some b, some (_, x) => s.safe.inOtp && x.take 252 == b | _, _ => false)
  | .commissioned, 3 => true
  | .ended, _ => false
  | _, 5 => true
  | _, 6 => true
  | _, _ => false
/-- A token is required (R545). -/
def lcNeedsToken (l : Lifecycle) (t : Nat) : Bool :=
  decide (t = 5) || (l == .commissioned && decide (t = 3)) || (decide (t = 6) && l != .blank && l != .develop)

/-- The key of a token is one that may sign it (R546): of a vendor's token a Welasfald key whose hash is in ROM, of a customer's one
whose hash is in block 3; neither revoked. -/
def tokenKeyOk (s : State) (vendor : Bool) (key : Bytes) : Bool :=
  ([0, 1, 2, 3] : List Nat).any (fun k => if vendor then romKeyOk s k key else customerKeyOk s k key)
/-- A lifecycle token is valid (R546): its nonce, its target, its key and its signature. -/
def lcTokenOk (s : State) (tok : Bytes) (t : Nat) : Bool :=
  (match s.rel.nonce with | some (n, _) => slice tok 0 16 == n | none => false) && decide (n8At tok 16 = t) && tokenKeyOk s (decide (t = 5)) (slice tok 20 96)
    && ecdsaOk p384c (slice tok 20 96) (sha384 ([0x4F#8, 0x5A, 0x4C, 0x43] ++ uidBytes s ++ slice tok 0 116)) (slice tok 116 96)

/-- LC_TRANSITION (R545, R546). -/
def lcRun (s : State) (r : Req) : CardResult :=
  let p := reqParams r
  let t := n8At p 1
  let l := s.sys.lifecycle
  let needs := lcNeedsToken l t
  let tok := slice p 4 212
  let s1 := updRel (fun x => { x with nonce := if needs then none else x.nonce }) s
  if p.length ≥ 2 ∧ 2 ≤ t ∧ t ≤ 6 ∧ !lcPair s t then rejectWith E_LIFECYCLE
  else if !(s.sys.dev == .config || (s.sys.dev == .safe && decide (5 ≤ t))) ∨ !allStagesOff s then rejectWith E_STATE
  else if t < 2 ∨ t > 6 ∨ !zeroAt p 2 2 ∨ p.length ≠ (if needs then 216 else 4) ∨ (needs ∧ !zeroAt tok 17 3) then rejectWith E_PARAM
  else if (l = .production ∧ t = 4 ∧ lcC s ≥ 64) ∨ (l = .commissioned ∧ t = 3 ∧ (freeSlot s 2).isNone) then rejectWith E_RESOURCE
  else if s.rel.jobs.any (fun j => match j with | .transition _ => true | _ => false) ∨ classFull s 0x0F02#16 then rejectWith E_BUSY
  else if needs ∧ !lcTokenOk s tok t then .failed s1 E_VERIFY []
  else .long (updRel (fun x => { x with jobs := x.jobs ++ [.transition t] }) s1) t []

def execLcTransition (via : Transport) (s : State) : Host.Outcome State Fault Refusal :=
  .next (runCard (isLc 1) (graphCard lcRun) via s)

/-- LC_NONCE_EXPIRY (R546): 10 min after its issue. -/
def execLcNonceExpiry (s : State) : Host.Outcome State Fault Refusal :=
  match s.rel.nonce with
  | none => .next s
  | some (_, t) => .next (updRel (fun x => { x with nonce := none }) (advanceTo (t + 600000000000) s))

/-! ### JTAG (R548) -/

/-- The instruction is admitted by the lifecycle, and by the device where it drives balls. -/
def jtagOk (s : State) (i : JtagInstr) : Bool :=
  let lc := match s.sys.lifecycle with
    | .production | .commissioned => i == .idcode || i == .bypass || i == .sample
    | .ended => i == .bypass
    | _ => true
  lc && ((i != .extest && i != .intest && i != .clamp) || (s.sys.dev != .run && allStagesOff s))

/-- JTAG_INSTRUCTION: with TRST_N low the TAP is held in reset and the port acts as BYPASS (R562); else the instruction takes effect,
or the port acts as BYPASS and event 0x0F08 is posted. -/
def execJtagInstruction (trstN : Bool) (i : JtagInstr) (code : Byte) (s : State) : Host.Outcome State Fault Refusal :=
  .next (if !trstN then updRel (fun x => { x with jtag := .bypass }) s
    else if jtagOk s i then updRel (fun x => { x with jtag := i, jtagCode := code }) s
    else postMergeWith 0x0F08#16 0 [code] (fun _ => true) (fun _ n => n) (updRel (fun x => { x with jtag := .bypass }) s))

/-! ### Range 0x5800 (R553) -/

/-- The 80 bytes 0x5800 to 0x584F. -/
def relBytes (s : State) : Bytes :=
  let dbg := s.sys.lifecycle == .blank || s.sys.vendorOpen
  n8 (lcCode s.sys.lifecycle) ++ n8 (flag dbg 0 + flag (decide (logUsed s ≥ 64)) 1 + flag (!s.rel.volatiles.isEmpty) 2) ++ n8 (logUsed s) ++ n8 (commissionsLeft s)
    ++ n32 (otpCounter s 0) ++ n32 (otpCounter s 1) ++ le32 s.rel.scrubPasses ++ le32 s.rel.corrected ++ le32 s.rel.uncorrectable
    ++ (List.range 6).flatMap (fun b => n8 (match newestGen s b with | some x => x.1 | none => 0xFF)) ++ n8 0xFF ++ [0] ++ classBytes s

end Sys2Proof.Machine
end

