-- ==== Sys2Proof/Machine/Boot.lean ====
section
/-! DEFINITION. Supplies, resets, the steps of BOOT and images (spec/04, spec/21). -/

namespace Sys2Proof.Machine

open Sys2Proof

/-! ### Supplies (R113 to R116, R142) -/

/-- The voltage of a rail, or the temperature for bit 5, over merged warnings: the lowest, or the highest. -/
def warnData (i : Nat) (old new : Bytes) : Bytes :=
  let a := u32At old 0
  let b := u32At new 0
  eventData (le32 (if (if i = 5 then f32Lt a b else f32Lt b a) then b else a))

/-- The thresholds of the control-die rails VDD_CORE, VDD_SER, VDD_18, VDD_IO and VDD_ANA (R113), in mV. -/
def railWarn (i : Nat) : Nat := [765, 765, 1720, 3150, 3150].getD i 0
def railReset (i : Nat) : Nat := [740, 740, 1650, 3000, 3000].getD i 0
def railRelease (i : Nat) : Nat := [755, 755, 1680, 3050, 3050].getD i 0
/-- A level in mV as a binary32 in V. -/
def milliVolt (n : Nat) : F32 := toF32 (mkRat n 1000)

/-- The level of a supply flag is past its warning level: a rail below its threshold, or the junction above 150 degrees. -/
def pastWarning (i : Nat) (v : F32) : Bool := if i = 5 then f32Lt (toF32 150) v else f32Lt v (milliVolt (railWarn i))

/-- SUPPLY_WARNING (R113, R115): a rail has been at v for `held` ns, or bit 5 the junction is at v degrees. -/
def execSupplyWarning (i : Nat) (v : F32) (held : Nat) (s : State) : Host.Outcome State Fault Refusal :=
  if i > 5 ∨ s.sup.flags.getLsbD i ∨ !pastWarning i v then .next s
  else
    let (ok, s0) := if i = 5 then (true, s) else qualified 500 1000 held s
    if !ok then .next s0
    else
      let s1 := { s0 with sup := { s0.sup with flags := s0.sup.flags ||| (1#6 <<< i), warnCount := satInc s0.sup.warnCount } }
      .next (postMergeWith 0x0120#16 i (le32 v) (fun e => e.source == BitVec.ofNat 8 i) (warnData i) s1)

/-- SUPPLY_WARNING_RELEASE (R113, R115): the level is no longer past its warning level. -/
def execSupplyWarningRelease (i : Nat) (v : F32) (held : Nat) (s : State) : Host.Outcome State Fault Refusal :=
  if i > 5 ∨ pastWarning i v then .next s
  else
    let (ok, s0) := if i = 5 then (true, s) else qualified 500 1000 held s
    .next (if ok then { s0 with sup := { s0.sup with flags := s0.sup.flags &&& ~~~(1#6 <<< i) } } else s0)

/-- The repair log entry being written when the supply fails is void, its place used (R537): which of its bits are set
is open, the last bit of its mark is not. -/
def voidLogWrite (s : State) : State :=
  match s.rel.logWrites with
  | [] => s
  | e :: _ =>
    let (a, s1) := draw s
    let (b, s2) := draw s1
    otpSet (896 + logUsed s2) ((e &&& (a ++ b) &&& ~~~(1#64)) ||| 0x80#64) s2

/-- A transition that is being programmed when the supply fails has programmed an open number of its words, in their order (R547). -/
def voidTransition (s : State) : State :=
  match s.rel.jobs with
  | .transition t :: _ =>
    let (w, s1) := draw s
    programSteps (w.toNat % ((transitionSteps s t).length + 1)) t s1
  | _ => s

/-- The cause latch has lost its supply: VDD_18 no longer above 1.0 V (R120, R400). -/
def latchLost (rail : Nat) (v : F32) : Bool := decide (rail = 2) && !f32Lt fOne v

/-- BROWN_OUT (R113, R116, R120, R400): a rail has been at v, below its reset threshold, for `held` ns. -/
def execBrownOut (rail : Nat) (v : F32) (held : Nat) (s : State) : Host.Outcome State Fault Refusal :=
  if rail > 4 ∨ !f32Lt v (milliVolt (railReset rail)) then .next s
  else
    let (ok, s0) := qualified 500 1000 held s
    if !ok then .next s0
    else
      let lost := latchLost rail v
      let s1 := startReset (if lost then 0x01#8 else 0x03#8) (voidTransition <| voidLogWrite { s0 with sup := { s0.sup with flags := s0.sup.flags ||| (1#6 <<< rail) } })
      .next (if lost then { s1 with sys := { s1.sys with cause := 0x01#8 }, safe := safe0 } else s1)

/-! ### Reset sources (R118, R119, R121) -/

/-- A reset pin has been low for `low` ns: always taken from 1 us on, never below 200 ns (R118). -/
def pinReset (cause : Byte) (low : Nat) (s : State) : State :=
  let (ok, s1) := qualified 200 1000 low s
  if ok then startReset cause s1 else s1

/-- PORST and WARMRST. -/
def execPorst (low : Nat) (s : State) : Host.Outcome State Fault Refusal := .next (pinReset 0x02#8 low s)
def execWarmrst (low : Nat) (s : State) : Host.Outcome State Fault Refusal := .next (pinReset 0x11#8 low s)
/-- THERMAL (R119): the junction above 165 degrees for 10 us. -/
def execThermal (tj : F32) (held : Nat) (s : State) : Host.Outcome State Fault Refusal :=
  .next (if f32Lt (toF32 165) tj ∧ held ≥ 10000 then startReset 0x04#8 s else s)
/-- WATCHDOG and LOCKSTEP: the housekeeping pair runs only outside reset. -/
def execWatchdog (s : State) : Host.Outcome State Fault Refusal := .next (if s.sys.phase = .inReset then s else startReset 0x13#8 s)
def execLockstep (s : State) : Host.Outcome State Fault Refusal := .next (if s.sys.phase = .inReset then s else startReset 0x14#8 s)

/-- RESET_DELAY_EXPIRY (R121, R545): 100 us after the reply. -/
def execResetDelayExpiry (s : State) : Host.Outcome State Fault Refusal :=
  match s.sys.resetDue with
  | none => .next s
  | some (t, cause) => .next (startReset cause (advanceTo t s))

/-! ### BOOT (R118, R124 to R130) -/

/-- The reset may end (R114, R118): both reset pins high, every rail of the control die above its release level, and
`clear` ns passed since the last internal cause that asserted in it cleared. -/
def releaseReady (rails : List F32) (porstN warmrstN : Bool) (clear : Nat) (s : State) : Bool :=
  porstN && warmrstN && (List.range 5).all (fun i => f32Lt (milliVolt (railRelease i)) (rails.getD i 0))
    && (!s.sys.intern || decide (clear ≥ 10000))

/-- RESET_RELEASE (R113, R114, R118, R128, R538, R544): the rails have been at their levels for `held` ns. At t_rel the raw
count is 0; BOOTSEL is latched, the OTP read, the repairs applied, and the wipe runs. -/
def execResetRelease (bootsel : Nat) (rails : List F32) (held : Nat) (porstN warmrstN : Bool) (clear : Nat) (s : State) : Host.Outcome State Fault Refusal :=
  if s.sys.phase ≠ .inReset ∨ !releaseReady rails porstN warmrstN clear s then .next s
  else
    let (ok, s0) := qualified 500 1000 held s
    if !ok then .next s0
    else .next (applyRepairLog { s0 with
      time := { s0.time with raw := 0, fbStart := some 0, fbCount := 1 }
      sys := { s0.sys with phase := .wiping, bootsel := bootsel % 4, lifecycle := lifecycleOf s0 } })

/-- The plan of an ADPLL in OTP block 1, or its default (R541). -/
def bootPlan (s : State) (i : Nat) : Plan :=
  let d := (clk0.plls.getD i adpll0).plan
  match newestGen s 1 with
  | some (_, b) => let p := planAt b (16 * i); if planOk i p then p else d
  | none => d

/-- The link to the field die starts at t_rel + 2.00 ms, so that the mailbox records with the safe states and the link
timeout of OTP block 4, which go to the die first, are sent by t_rel + 2.20 ms (R128; log 86). Through a warm reset the die
keeps what FIO_CONFIG gave it (R121, R433, R440). -/
def bootField (s : State) : State :=
  let b := blockBytes s 4
  let t := n32At b 8
  let ss (o : Nat) : Nat := let v := n8At b o; if v ≤ 2 then v else 0
  let confs : List DieConf := if !s.sys.cold then [] else (List.range 8).map (fun o => .output o 0 (ss o) 0 100 false) ++ [.link (if t < 50 ∨ t > 100000 then 1000 else t)]
  updField (fun f => { f with started := true, mailbox := confs.zipIdx.map (fun (c, k) => { key := f.nextKey + k, conf := c }), nextKey := f.nextKey + confs.length
                              lastUp := max s.time.raw 2000000, nextDown := max s.time.raw 2000000 }) s

/-- WIPE_DONE (R124, R125, R128): rows that failed their read-back are retired; `selftest` is the self-test that fails. -/
def execWipeDone (fails : List (Nat × Nat)) (selftest : Option Nat) (s : State) : Host.Outcome State Fault Refusal :=
  if s.sys.phase ≠ .wiping then .next s
  else
    let s1 := advanceTo 1500000 { s with sys := { s.sys with phase := .selfTest, selftestFail := selftest } }
    let s2 := fails.foldl (fun s f => if f.1 < 108 ∧ f.2 < 512 then retireNow { cls := 0, index := f.1, row := f.2, reason := 4 } s else s) (postUnposted s1)
    .next (bootField (forEach [0, 1] (fun i s => startRelock i false none 1 (updPll i (fun x => { x with plan := bootPlan s i, band := 0, fine := 0 }) s)) s2))

/-- The Ethernet settings of OTP block 0 (R541). -/
def bootEth (i : Nat) (s : State) : State :=
  let p := slice (blockBytes s 0) (32 + 32 * i) 32
  if portParamsOk p then { s with eth := upd s.eth i (portOfParams p) } else s

/-- COMMAND_PORT_OPEN (R49, R128, R130): BUSY goes low and the ports accept transactions. -/
def execCommandPortOpen (s : State) : Host.Outcome State Fault Refusal :=
  if s.sys.phase ≠ .selfTest then .next s
  else
    let s1 := advanceTo 2500000 { s with sys := { s.sys with phase := .portOpen }, cmd := { s.cmd with isOpen := true } }
    .next (if s1.sys.bootsel = 1 then { s1 with stag := { s1.stag with isOpen := true } } else if s1.sys.bootsel = 2 then bootEth 0 s1 else s1)

/-- Whether a self-test of BOOT failed: as reported, or an ADPLL that is not locked (R129, R151). -/
def bootFailure (s : State) : Option Nat := s.sys.selftestFail.or (if pllLocked s 0 && pllLocked s 1 then none else some 3)

/-- The committed block from OTP block 2, not below F (R413, R545). -/
def bootParams (s : State) : State :=
  match (([3, 2, 1, 0] : List Nat).map (fun g => (g, otpSlot s 2 g))).find? (fun p => slotValid 2 p.2 && decide (lcF s ≤ p.1)) with
  | some (_, b) => commitBlock (b.take 252) true s
  | none => post 0x0A08#16 0 (zeros 8) s

/-- BOOT ends (R33, R128, R129, R400, R552): with the version and security version of a staged image that starts. -/
def finishBoot (image : Option (U32 × U16)) (s : State) : State :=
  let kept := s.safe.causes
  let fail := bootFailure s
  let s0 := { s with stag := stag0, cap := { s.cap with mem := [] }, sys := { s.sys with phase := .finished, bootPath := image.isSome, imageVersion := (image.map Prod.fst).getD 0 } }
  let s1 := bootParams (forEach [0, 1] bootEth s0)
  let s2 := match fail with | some k => post 0x0A07#16 0 (n8 k) (safetyActs rSELFTEST 0 0xFF s1) | none => s1
  let safe := s2.safe.causes ≠ 0
  let s3 := if kept = 0 then s2 else post 0x0A00#16 0xFF (n8 s2.safe.firstReason ++ zeros 3 ++ n32 s2.safe.causes.toNat) s2
  let s4 := if safe then
      updBoth (fun x => { x with safeBit := true, safeAt := s3.time.raw }) { s3 with safe := { s3.safe with tSafe := activeTime s3, entries := s3.safe.entries + 1 } }
    else { s3 with pwm := { s3.pwm with gateProc := true, gateSorrel := true }, sys := { s3.sys with faultN := true } }
  let s5 := setDev (if safe then .safe else .config) 0 s4
  let s6 := match image with
    | some (_, svn) =>
      let old := otpCounter s5 0
      if !safe ∧ svn.toNat > old then post 0x0F07#16 0 (n16 old ++ le16 svn) (raiseCounter 0 svn.toNat s5) else s5
    | none => s5
  let s7 := post 0x0100#16 0 (n8 s6.sys.cause.toNat ++ n8 s6.sys.bootsel) s6
  let s8 := if s7.sys.cause = 0x06#8 then post 0x0F05#16 0 (n8 (lcCode s7.sys.lifecycle) ++ n8 (lcC s7) ++ n8 (lcD s7) ++ n8 (lcF s7)) s7 else s7
  sagePostLog { s8 with img := { s8.img with running := true, due := s8.time.raw / 1000 * 1000 + 1000 } }

/-- BOOT_COMPLETE (R128 to R130): without a staged image, or with boot select 11 from PRODUCTION on. -/
def execBootComplete (s : State) : Host.Outcome State Fault Refusal :=
  if s.sys.phase ≠ .portOpen then .next s
  else
    let late := s.sys.bootsel = 3 ∧ s.sys.lifecycle ≠ .blank ∧ s.sys.lifecycle ≠ .develop
    if s.sys.bootsel = 0 then .next (finishBoot none (advanceTo 4000000 s))
    else if late then .next (finishBoot none (post 0x0121#16 0 (n8 (lcCode s.sys.lifecycle)) (advanceTo 4000000 s)))
    else .next s

/-! ### Images (R131 to R133, R550 to R552) -/

/-- IMAGE_START (R132, R552). -/
def execImageStart (s : State) : Host.Outcome State Fault Refusal :=
  match s.sys.phase, s.stag.verified with
  | .portOpen, some v => .next (finishBoot (some v) s)
  | _, _ => .next s

/-- The staged bytes: they are held in capture memory (R131). -/
def stagedBytes (s : State) (a n : Nat) : Bytes := memReadBytes s.cap.mem a n

/-- The first step of R551 that the header, its payload, the OTP and the lifecycle fail. Step 1 holds every range of R550. -/
def imageStep (s : State) (h : Bytes) (staged : Nat) (step : Nat) : Bool :=
  let fl := u16At h 6
  let none_ := n8At h 15 = 0xFF
  let payload := stagedBytes s 512 (n32At h 16)
  match step with
  | 1 => u32At h 0 == 0x57465A4F#32 && u16At h 4 == 1#16 && decide (fl.toNat < 4) && zeroAt h 20 12 && zeroAt h 44 4 && zeroAt h 112 16
      && decide (n32At h 16 % 16 = 0) && decide (16 ≤ n32At h 16) && decide (n32At h 16 ≤ 2096640) && decide (staged = 512 + n32At h 16)
      && decide (n16At h 12 ≤ 4095) && decide (n8At h 14 ≤ 3) && (decide (n8At h 15 ≤ 3) || decide none_) && (fl.getLsbD 0 || zeroAt h 32 12)
      && (!decide none_ || (zeroAt h 224 96 && zeroAt h 416 96))
  | 2 => !fl.getLsbD 1 || s.sys.lifecycle == .blank || s.sys.lifecycle == .develop
  | 3 => romKeyOk s (n8At h 14) (slice h 128 96)
  | 4 => ecdsaOk p384c (slice h 128 96) (sha384 (slice h 0 320)) (slice h 320 96)
  | 5 => if none_ then !([0, 1, 2, 3] : List Nat).any (keySet s) else customerKeyOk s (n8At h 15) (slice h 224 96)
  | 6 => decide none_ || ecdsaOk p384c (slice h 224 96) (sha384 (slice h 0 416)) (slice h 416 96)
  | 7 => decide (otpCounter s 0 ≤ n16At h 12)
  | 8 => sha384 payload == slice h 64 48
  | 9 => !fl.getLsbD 0 || ((imageKey s).any (· != 0) && gcmTag (imageKey s) (slice h 32 12) (slice h 0 32) payload == slice h 48 16)
  | _ => true

/-- The first step that fails (R551). -/
def imageVerdict (s : State) (h : Bytes) (staged : Nat) : Option Nat :=
  ([1, 2, 3, 4, 5, 6, 7, 8, 9] : List Nat).find? (fun k => !imageStep s h staged k)

/-- A verified image with ENCRYPTED has its payload decrypted in place (R551, step 9). -/
def decryptImage (s : State) (h : Bytes) : State :=
  if (u16At h 6).getLsbD 0 then
    { s with cap := { s.cap with mem := memWriteBytes s.cap.mem 512 (gcmText (imageKey s) (slice h 32 12) (stagedBytes s 512 (n32At h 16))) } }
  else s

/-- An acknowledgement of the image service (R133). -/
def imageAck (ip : U32) (port : U16) (off : U32) (st : U16) (s : State) : State :=
  ethSend 0 ip (le32 ip ++ le16 port ++ le32 0x4D495A4F#32 ++ le32 off ++ le16 st ++ [0, 0]) s

/-- IMG_VERIFY_DONE (R132, R551): 0.5 ms per 64 KiB after its start. -/
def execImgVerifyDone (s : State) : Host.Outcome State Fault Refusal :=
  match s.stag.verifying with
  | none => .next s
  | some v =>
    let s1 := advanceTo (v.start + ceilDiv v.staged 65536 * 500000) s
    let h := stagedBytes s1 0 512
    let verdict := imageVerdict s1 h v.staged
    let ver : U32 := if verdict = some 1 then 0 else u32At h 8
    let pay := le32 ver ++ slice h 12 2 ++ n8 (verdict.getD 0) ++ [0]
    let st : U16 := if verdict.isSome then E_VERIFY else OK
    let s2 := match verdict with
      | some k => post 0x0F06#16 0 (n8 k ++ [0] ++ slice h 12 2 ++ le32 ver) { s1 with stag := { s1.stag with verifying := none, verified := none }, cap := { s1.cap with mem := [] } }
      | none => let d := decryptImage s1 h; { d with stag := { d.stag with verifying := none, verified := some (u32At h 8, u16At h 12) } }
    .next (match v.sender with
      | some (ip, port, off) => imageAck ip port off st s2
      | none => endLong 0x0F03#16 0 st pay s2)

/-- IMAGE_DATAGRAM (R133): on UDP port 24761 of ETH0 in BOOT with boot select 10, received like every frame (R149, R459). The
staged length is where the data of the datagram with LAST ends (log 188). -/
def execImageDatagram (tag : Option Nat) (ip : U32) (port : U16) (b : Bytes) (s00 : State) : Host.Outcome State Fault Refusal :=
  ethTake 0 tag (udpLength b) s00 fun s =>
  let n := n16At b 8
  let off := n32At b 4
  let ack (st : U16) (s : State) : State := imageAck ip port (u32At b 4) st s
  if s.sys.phase ≠ .portOpen ∨ s.sys.bootsel ≠ 2 then .next s
  else if b.length ≠ 16 + n ∨ n = 0 then .next (ack E_PARAM s)
  else if u32At b (12 + n) ≠ crc32c (b.take (12 + n)) then .next (ack E_CRC s)
  else if u32At b 0 ≠ 0x4D495A4F#32 ∨ n > 1024 ∨ off > 0x1FFC00 ∨ n16At b 10 > 1 then .next (ack E_PARAM s)
  else if bytesLost s 42 off n then .next (ack E_RESOURCE s)
  else if s.stag.verifying.isSome ∨ s.stag.verified.isSome then .next (ack E_BUSY s)
  else
    let s1 := { s with cap := { s.cap with mem := memWriteBytes s.cap.mem off (slice b 12 n) } }
    .next (if n16At b 10 = 1 then { s1 with stag := { s1.stag with verifying := some { start := s.time.raw, staged := off + n, sender := some (ip, port, u32At b 4) } } }
           else ack OK s1)

/-- IMG_VERIFY. -/
def imgVerifyRun (s : State) (r : Req) : CardResult :=
  let p := reqParams r
  let n := n32At p 0
  if s.sys.bootsel ≠ 1 then rejectWith E_STATE
  else if p.length ≠ 4 ∨ n < 528 ∨ n > 2097152 then rejectWith E_PARAM
  else if bytesLost s 42 0 n then rejectWith E_RESOURCE
  else if s.stag.verifying.isSome ∨ s.stag.verified.isSome then rejectWith E_BUSY
  else .long { s with stag := { s.stag with verifying := some { start := s.time.raw, staged := n, sender := none } } } 0 []

def execImgVerify (via : Transport) (s : State) : Host.Outcome State Fault Refusal :=
  .next (runCard (isOp 0x0F03#16) { lifecycle := anyLc, allowed := (· == .boot), run := imgVerifyRun } via s)

end Sys2Proof.Machine
end

