-- ==== Sys2Proof/Machine/Can.lean ====
section
/-! DEFINITION. The CAN family: port configuration, sending and receiving, error confinement and taps (spec/18). -/

namespace Sys2Proof.Machine

open Sys2Proof

/-! ### CAN_CONFIG (R469, R475, R476, R481) -/

/-- Timing fields of a CAN_CONFIG. -/
def timingOf (p : Bytes) : CanTiming :=
  { nPre := n16At p 4, nT1 := n16At p 6, nT2 := n8At p 8, nSjw := n8At p 9, dPre := n8At p 10, dT1 := n8At p 11, dT2 := n8At p 12, dSjw := n8At p 13, tdcOffset := n8At p 14 }
/-- 80 MHz clocks in a nominal and in a data bit. -/
def nominalClocks (t : CanTiming) : Nat := t.nPre * (1 + t.nT1 + t.nT2)
def dataClocks (t : CanTiming) : Nat := t.dPre * (1 + t.dT1 + t.dT2)
/-- The timing is within R469: ranges, at most 1 Mbit/s and 8 Mbit/s, the data rate not below the nominal rate. -/
def timingOk (t : CanTiming) : Bool :=
  decide (1 ≤ t.nPre ∧ t.nPre ≤ 512 ∧ 2 ≤ t.nT1 ∧ t.nT1 ≤ 256 ∧ 1 ≤ t.nT2 ∧ t.nT2 ≤ 128 ∧ 1 ≤ t.nSjw ∧ t.nSjw ≤ t.nT2)
    && decide (1 ≤ t.dPre ∧ t.dPre ≤ 32 ∧ 1 ≤ t.dT1 ∧ t.dT1 ≤ 32 ∧ 1 ≤ t.dT2 ∧ t.dT2 ≤ 16 ∧ 1 ≤ t.dSjw ∧ t.dSjw ≤ t.dT2)
    && decide (t.tdcOffset ≤ 127 ∧ nominalClocks t ≥ 80 ∧ dataClocks t ≥ 10 ∧ dataClocks t ≤ nominalClocks t)

/-- The reply payload: both rates. -/
def canRates (t : CanTiming) : Bytes := le32 (toF32 (mkRat 80000000 (nominalClocks t))) ++ le32 (toF32 (mkRat 80000000 (dataClocks t)))

/-- The remaining time of a port's shutdown in us (R481). -/
def canLeft (s : State) (x : CanPort) : Nat := match x.shutting with | some t => ceilDiv (t - s.time.raw) 1000 | none => 0

/-- A bound tap keeps its entry under another number of reserved entries. -/
def tapsKeep (s : State) (p n : Nat) : Bool := s.can.tx.all (fun t => decide (t.2.port ≠ p) || decide (32 - n ≤ t.2.entry))

/-- A port that was OFF starts, error-active with both counters at 0; on fallback it waits to rejoin (R470, R475). -/
def canStart (p : Nat) (s : State) : State :=
  canChange p (fun x => { x with bus := .active, tec := 0, recv := 0, away := s.time.onFallback.getD 3 true }) s

def canConfigRun (s : State) (r : Req) : CardResult :=
  let b := reqParams r
  let p := n8At b 0
  let mode := n8At b 1
  let x := getCan s p
  let t := timingOf b
  let fl := byteAt b 2
  let ok := b.length = 16 ∧ p ≤ 5 ∧ mode ≤ 2 ∧ fl.toNat < 16 ∧ n8At b 3 ≤ 16 ∧ byteAt b 15 = 0 ∧ timingOk t
  let same := x.timing = t ∧ x.fd = fl.getLsbD 0 ∧ x.tdcOn = fl.getLsbD 1 ∧ x.acceptAll = fl.getLsbD 2 ∧ x.inOrder = fl.getLsbD 3 ∧ x.tapEntries = n8At b 3
  if p > 5 then rejectWith E_PARAM
  else if x.shutting.isSome ∧ mode ≠ 2 then shuttingDown (canLeft s x)
  else if canRuns x ∧ ¬same then rejectWith E_STATE
  else if ¬ok ∨ !tapsKeep s p (n8At b 3) then rejectWith E_PARAM
  else if mode ≠ 2 ∧ canRamLost s p then rejectWith E_RESOURCE
  else if canRuns x then
    if mode = 2 then
      if x.shutting.isSome then .done s (canRates t)
      else if x.bus = .busOff then .done (canStop p s) (canRates t)
      else .done (canChange p (fun x => { x with shutting := some (s.time.raw + 1000000) }) s) (canRates t)
    else .done (updCan p (fun x => { x with restricted := decide (mode = 1) }) s) (canRates t)
  else
    let s1 := updCan p (fun x => { x with timing := t, fd := fl.getLsbD 0, tdcOn := fl.getLsbD 1, acceptAll := fl.getLsbD 2, inOrder := fl.getLsbD 3, tapEntries := n8At b 3,
                                          restricted := if mode = 2 then x.restricted else decide (mode = 1) }) s
    .done (if mode = 2 then s1 else canStart p s1) (canRates t)

def execCanConfig (via : Transport) (s : State) : Host.Outcome State Fault Refusal :=
  .next (runCard (isOp 0x0C00#16) (graphCard canConfigRun) via s)

/-! ### CAN_SEND, CAN_CANCEL, CAN_RX_ACK, CAN_RECOVER -/

/-- The head of a transmit entry may be sent (CAN_SEND). -/
def sendable (e : Bytes) : Bool :=
  let f := byteAt e 4
  !(u32At e 0).getLsbD 31 && decide (f.toNat < 32) && decide (n8At e 5 ≤ 15) && byteAt e 7 == 0
    && (f.getLsbD 0 || (!f.getLsbD 1 && decide (n8At e 5 ≤ 8))) && !((u32At e 0).getLsbD 30 && f.getLsbD 0)

def canSendRun (s : State) (r : Req) : CardResult :=
  let b := reqParams r
  let p := n8At b 0
  let e := n8At b 1
  let x := getCan s p
  if b.length = 0 ∨ p > 5 then rejectWith E_PARAM
  else if x.shutting.isSome then shuttingDown (canLeft s x)
  else if x.bus = .off then rejectWith E_STATE
  else if b.length ≠ 4 ∨ !zeroAt b 2 2 ∨ e > 31 ∨ canOwned x e ∨ !sendable (canEntry s (txAddr p e)) then rejectWith E_PARAM
  else if canRamLost s p then rejectWith E_RESOURCE
  else
    let s1 := setEntryStatus (txAddr p e) 1 (updCan p (fun x => { x with queue := x.queue ++ [e] }) s)
    .done s1 (n8 (txQueued (getCan s1 p)) ++ zeros 3)

def execCanSend (via : Transport) (s : State) : Host.Outcome State Fault Refusal :=
  .next (runCard (isOp 0x0C01#16) (graphCard canSendRun) via s)

def canCancelRun (s : State) (r : Req) : CardResult :=
  let b := reqParams r
  let p := n8At b 0
  let e := n8At b 1
  let x := getCan s p
  if b.length ≠ 4 ∨ p > 5 ∨ !zeroAt b 2 2 ∨ e > 31 ∨ tapEntry x e ∨ !x.queue.contains e then rejectWith E_PARAM
  else if x.current = some e then .failed (updCan p (fun x => { x with tooLate := true }) s) E_TOO_LATE []
  else .done (updCan p (fun x => { x with txCancelled := x.txCancelled + 1 }) (txOutcome p e 3 s)) (n8 3)

def execCanCancel (via : Transport) (s : State) : Host.Outcome State Fault Refusal :=
  .next (runCard (isOp 0x0C02#16) (graphCard canCancelRun) via s)

def canRxAckRun (s : State) (r : Req) : CardResult :=
  let b := reqParams r
  let p := n8At b 0
  let n := n8At b 1
  let x := getCan s p
  if b.length ≠ 4 ∨ p > 5 ∨ !zeroAt b 2 2 ∨ n = 0 ∨ n > x.rxHeld then rejectWith E_PARAM
  else
    let s1 := forEach (List.range n) (fun i => setEntryStatus (rxAddr p ((x.rxHead + i) % 64)) 0) s
    .done (updCan p (fun x => { x with rxHead := (x.rxHead + n) % 64, rxHeld := x.rxHeld - n }) s1) (n8 (x.rxHeld - n) ++ n8 ((x.rxHead + n) % 64) ++ [0, 0])

def execCanRxAck (via : Transport) (s : State) : Host.Outcome State Fault Refusal :=
  .next (runCard (isOp 0x0C03#16) (graphCard canRxAckRun) via s)

def canRecoverRun (s : State) (r : Req) : CardResult :=
  let b := reqParams r
  let p := n8At b 0
  if 1 ≤ b.length ∧ p ≤ 5 ∧ (getCan s p).bus ≠ .busOff then rejectWith E_STATE
  else if b.length ≠ 4 ∨ p > 5 ∨ !zeroAt b 1 3 then rejectWith E_PARAM
  else .done (canChange p (fun x => { x with bus := .recovering }) s) []

def execCanRecover (via : Transport) (s : State) : Host.Outcome State Fault Refusal :=
  .next (runCard (isOp 0x0C04#16) (graphCard canRecoverRun) via s)

/-! ### CAN_TAP (R478 to R480) -/

/-- A field entry. -/
def canFieldAt (b : Bytes) (o : Nat) : CanField :=
  { start := n16At b o, length := n8At b (o + 2), format := n8At b (o + 3), scale := f32Param (u32At b (o + 4)), offset := f32Param (u32At b (o + 8)) }
def canFieldOk (b : Bytes) (o : Nat) : Bool :=
  let f := canFieldAt b o
  decide (f.start ≤ 511) && decide (1 ≤ f.length ∧ f.length ≤ 32) && decide (f.format ≤ 2) && (decide (f.format ≠ 2) || decide (f.length = 32))
    && !f32Bad f.scale && !fIsZero f.scale && !f32Bad f.offset

/-- CAN-space indexes that a loaded graph reads, and transmit taps that it names. -/
def graphRxTaps (s : State) (g : Graph) : List Nat :=
  let sets := ((List.range g.nSet).map (fun i => (setEntry s g i).2.1)).filter (fun r => refSpace r = 4)
  ((graphNodes s g).flatMap (fun d => (nodeIns d).filter (fun r => refSpace r = 4)) ++ sets).map refIndex
def graphTxTaps (s : State) (g : Graph) : List Nat := ((graphNodes s g).filter (fun d => d.op = 0x42)).map (fun d => wholeOf (graphParam s g d.param))
/-- A tap is read or named by the graph of a stage that is not OFF. -/
def tapInUse (s : State) (rx : Bool) (k : Nat) : Bool :=
  (List.range 8).any (fun n => !stageOff s n && (match (getStage s n).graph with
    | some g => (if rx then graphRxTaps s g else graphTxTaps s g).contains k
    | none => false))

/-- The highest reserved entry of a port that no other transmit tap holds. -/
def freeTapEntry (s : State) (p j : Nat) : Option Nat :=
  ((List.range (getCan s p).tapEntries).map (31 - ·)).find? (fun e => !s.can.tx.any (fun t => decide (t.1 ≠ j) && decide (t.2.port = p) && decide (t.2.entry = e)))

/-- Delete a transmit tap; its queued frame leaves its entry. -/
def dropTxTap (j : Nat) (s : State) : State :=
  let s1 := match s.can.tx.find? (fun t => t.1 = j) with
    | some (_, t) => if (getCan s t.port).current = some t.entry then s else setEntryStatus (txAddr t.port t.entry) 0 (updCan t.port (fun x => { x with queue := x.queue.filter (· ≠ t.entry) }) s)
    | none => s
  { s1 with can := { s1.can with tx := s1.can.tx.filter (fun t => t.1 ≠ j) } }

def canTapRun (s : State) (r : Req) : CardResult :=
  let b := reqParams r
  let kind := n8At b 0
  let k := n8At b 1
  let p := n8At b 3
  let id := u32At b 4
  let nf := n8At b 13
  let rx := decide (kind < 2)
  if b.length < 2 ∨ kind > 2 then rejectWith E_PARAM
  else if tapInUse s rx k then rejectWith E_STATE
  else if b.length < 20 ∨ b.length ≠ 20 + 12 * nf ∨ n8At b 2 > 1 ∨ f32Bad (u32At b 16) ∨ (rx ∧ id.getLsbD 31)
      ∨ (List.range nf).any (fun i => f32Bad (u32At b (24 + 12 * i)) || f32Bad (u32At b (28 + 12 * i))) then rejectWith E_PARAM
  else if n8At b 2 = 0 then
    .done (if rx then { s with can := { s.can with rx := s.can.rx.filter (fun t => t.1 ≠ k) } } else dropTxTap k s) []
  else
    let putRx (t : RxTap) : CardResult := .done { s with can := { s.can with rx := (k, t) :: s.can.rx.filter (fun t => t.1 ≠ k) } } []
    match kind with
    | 0 =>
      if p > 5 ∨ id.getLsbD 31 ∨ n8At b 12 ≠ 0 ∨ nf ≠ 1 ∨ f32Bad (u32At b 16) ∨ !canFieldOk b 20 then rejectWith E_PARAM
      else putRx (.value p (id &&& 0x3FFFFFFF#32) (u32At b 8) (canFieldAt b 20) (n16At b 14) (f32Param (u32At b 16)) (f32Param (u32At b 16)) none)
    | 1 => if n8At b 12 ≠ 0 ∨ nf ≠ 0 ∨ id.getLsbD 31 then rejectWith E_PARAM else putRx (.age p)
    | _ =>
      let fdf := id.getLsbD 31
      let dlc := n8At b 12
      if p > 5 ∨ u32At b 8 ≠ 0 ∨ dlc > 15 ∨ (!fdf ∧ (dlc > 8 ∨ id.getLsbD 30)) ∨ nf = 0 ∨ nf > 8
          ∨ (List.range nf).any (fun i => !canFieldOk b (20 + 12 * i) || decide ((canFieldAt b (20 + 12 * i)).start + (canFieldAt b (20 + 12 * i)).length > 8 * dlcLength fdf dlc)) then
        rejectWith E_PARAM
      else match freeTapEntry s p k with
        | none => rejectWith E_PARAM
        | some e =>
          let keep := match s.can.tx.find? (fun t => t.1 = k) with | some (_, t) => if t.port = p then t.entry else e | none => e
          let t : TxTap := { port := p, id := id &&& 0x3FFFFFFF#32, fdf := fdf, brs := id.getLsbD 30, dlc := dlc,
                             fields := (List.range nf).map (fun i => canFieldAt b (20 + 12 * i)), entry := keep, next := none }
          let s1 := dropTxTap k s
          .done { s1 with can := { s1.can with tx := (k, t) :: s1.can.tx } } []

def execCanTap (via : Transport) (s : State) : Host.Outcome State Fault Refusal :=
  .next (runCard (isOp 0x0C05#16) (graphCard canTapRun) via s)

/-! ### What happens on the bus -/

/-- A frame matches an enabled acceptance filter of the port. -/
def filterPass (s : State) (p : Nat) (id : U32) : Bool :=
  (List.range 32).any (fun k =>
    let f := memReadBytes s.can.mem (filterAddr p k) 8
    (u32At f 0).getLsbD 31 && idMatches (u32At f 0) (u32At f 4) id)

/-- A valid frame enters the receive FIFO, or is dropped (R473). -/
def rxStore (p : Nat) (f : CanFrame) (stamp : U32) (s : State) : State :=
  let x := getCan s p
  if x.rxHeld ≥ 64 then
    let s1 := updCan p (fun x => { x with rxOverflow := x.rxOverflow + 1 }) s
    postMerge 0x0C02#16 p (le32 f.id ++ le32 (getCan s1 p).rxOverflow) s1
  else
    let a := rxAddr p ((x.rxHead + x.rxHeld) % 64)
    let b := le32 f.id ++ n8 (flag f.fdf 0 + flag f.brs 1 + flag f.esi 2) ++ n8 f.dlc ++ n8 5 ++ [0] ++ le32 stamp ++ le32 x.seq ++ slice f.data 0 64
    updCan p (fun x => { x with rxHeld := x.rxHeld + 1 }) (canWrite a b s)

/-- CAN_FRAME_RECEIVED (R473, R475, R476, R478): a valid frame whose start-of-frame bit was sampled `ago` ns before. -/
def execCanFrameReceived (p : Nat) (f : CanFrame) (ago : Nat) (s : State) : Host.Outcome State Fault Refusal :=
  let x := getCan s p
  if (x.bus ≠ .active ∧ x.bus ≠ .passive) ∨ !canJoined s x ∨ (f.fdf ∧ !x.fd) then .next s
  else
    let s1 := updCan p (fun x => { x with rxFrames := x.rxFrames + 1, seq := x.seq + 1 }) s
    let s2 := if x.acceptAll ∨ filterPass s1 p f.id then rxStore p f (timeAt s1 (s.time.raw - ago)) s1 else s1
    let ts := s2.can.rx.map (fun t => (t.1, tapReceive p s.time.raw f.id f.data t.2))
    let s3 := { s2 with can := { s2.can with rx := ts.map (fun t => (t.1, t.2.1)) } }
    .next (countReceived p (updCan p (fun x => { x with tapDrops := x.tapDrops + BitVec.ofNat 32 (ts.map (fun t => t.2.2)).sum }) s3))

/-- The rank of an identifier in arbitration (R11, R474; log 105): its first 11 bits, then a base identifier before an
extended one, then the 18 bits of the extension. -/
def arbRank (id : U32) : Nat :=
  let n := id.toNat % 2 ^ 29
  if id.getLsbD 29 then n / 2 ^ 18 * 2 ^ 19 + 2 ^ 18 + n % 2 ^ 18 else n % 2 ^ 11 * 2 ^ 19

/-- The queued entry that the next attempt sends (R474). -/
def nextToSend (s : State) (p : Nat) : Option Nat :=
  let x := getCan s p
  let idOf (e : Nat) : Nat := arbRank (u32At (canEntry s (txAddr p e)) 0)
  if x.inOrder then x.queue.head?
  else x.queue.foldl (fun m e => match m with | none => some e | some q => if idOf e < idOf q then some e else some q) none

/-- CAN_TX_ATTEMPT (R474, R447): an attempt starts and is stamped with the sampling point of its start-of-frame bit. -/
def execCanTxAttempt (p : Nat) (s : State) : Host.Outcome State Fault Refusal :=
  let x := getCan s p
  if (x.bus ≠ .active ∧ x.bus ≠ .passive) ∨ x.shutting.isSome ∨ x.restricted ∨ x.current.isSome ∨ !canJoined s x then .next s
  else match nextToSend s p with
    | none => .next s
    | some e =>
      let stamp := timeAt s (s.time.raw + x.timing.nPre * (1 + x.timing.nT1) * 25 / 2)
      .next (canWrite (txAddr p e + 8) (le32 stamp) (updCan p (fun x => { x with current := some e, tooLate := false }) s))

/-- CAN_TX_OUTCOME (R469, R474, R477, R480): 0 sent, 1 arbitration lost, 2 error; `tdc` is the delay measured in a
frame sent with BRS. -/
def execCanTxOutcome (p result : Nat) (tdc : Byte) (s : State) : Host.Outcome State Fault Refusal :=
  let x := getCan s p
  match x.current with
  | none => .next s
  | some e =>
    let a := txAddr p e
    let brs := (byteAt (canEntry s a) 4).getLsbD 1
    let s0 := if brs ∧ x.tdcOn ∧ result ≠ 1 then updCan p (fun x => { x with tdc := tdc }) s else s
    if result = 0 then
      let s1 := updCan p (fun x => { x with current := none, tooLate := false, seq := x.seq + 1, txSent := x.txSent + 1 }) s0
      .next (countSent p (tapNext p e (txOutcome p e 2 (canWrite (a + 12) (le32 (getCan s1 p).seq) s1))))
    else .next (attemptFailed p s0)

/-- CAN_BUS_ERROR (R475, R476): a protocol error with its code of last_error, and how it counts. -/
def execCanBusError (p code : Nat) (count : CanCount) (s : State) : Host.Outcome State Fault Refusal :=
  let x := getCan s p
  if (x.bus ≠ .active ∧ x.bus ≠ .passive) ∨ !canJoined s x then .next s
  else .next (countError p count (updCan p (fun x => { x with errors := x.errors + 1, lastError := code }) s))

/-- CAN_RECOVERY_DONE (R475). -/
def execCanRecoveryDone (p : Nat) (s : State) : Host.Outcome State Fault Refusal :=
  let x := getCan s p
  if x.bus ≠ .recovering ∨ !canJoined s x then .next s
  else
    let s1 := canChange p (fun x => { x with bus := .active, tec := 0, recv := 0 }) s
    .next s1

/-- CAN_SHUTDOWN_END (R481): the bus is idle. -/
def execCanShutdownEnd (p : Nat) (s : State) : Host.Outcome State Fault Refusal :=
  let x := getCan s p
  if x.shutting.isNone ∨ x.current.isSome then .next s else .next (canStop p s)

/-- CAN_TAP_TIMEOUT (R479). -/
def execCanTapTimeout (k : Nat) (s : State) : Host.Outcome State Fault Refusal :=
  match s.can.rx.find? (fun t => t.1 = k) with
  | some (_, .value p id m f tmo df v (some u)) =>
    if tmo = 0 ∨ v = df then .next s
    else
      let s1 := advanceTo (u + 1000000 * tmo) s
      .next { s1 with can := { s1.can with rx := s1.can.rx.map (fun t => if t.1 = k then (k, .value p id m f tmo df df (some u)) else t) } }
  | _ => .next s

/-- CAN_REJOIN (R470): 11 recessive bits after the clock is back; `lost` where a frame in reception was lost. -/
def execCanRejoin (p : Nat) (lost : Bool) (s : State) : Host.Outcome State Fault Refusal :=
  let x := getCan s p
  if !x.away ∨ s.time.onFallback.getD 3 true then .next s
  else .next (updCan p (fun x => { x with away := false, errors := if lost then x.errors + 1 else x.errors }) s)

end Sys2Proof.Machine
end

