-- ==== Sys2Proof/Machine/Capture.lean ====
section
/-! DEFINITION. The capture unit's commands: its cards, rows, the trigger bus and streaming (spec/19). -/

namespace Sys2Proof.Machine

open Sys2Proof

/-- A trigger term's 16 bytes; a subnormal level is zero (R3). -/
def termAt (p : Bytes) (i : Nat) : CapTerm :=
  { kind := n8At p i, index := n8At p (i + 1), code := u16At p (i + 2), level := f32Param (u32At p (i + 4)), level2 := f32Param (u32At p (i + 8)) }

/-- A term is within the table of R489. -/
def termOk (n : Nat) (p : Bytes) (i : Nat) : Bool :=
  let t := termAt p i
  zeroAt p (i + 12) 4 && !f32Bad t.level && !f32Bad t.level2 && decide (t.kind ≤ 10)
    && (if 1 ≤ t.kind ∧ t.kind ≤ 5 then decide (t.index < n) else if t.kind = 6 then decide (t.index < 4)
        else if t.kind = 7 ∨ t.kind = 9 then decide (t.index < 8) else decide (t.index = 0))
    && (decide (t.kind ≠ 5) || f32Lt t.level t.level2)

/-- CAP_CONFIG (R484 to R494). -/
def capConfigRun (s : State) (r : Req) : CardResult :=
  let p := reqParams r
  let k : CapConf := { mode := n8At p 0, stage := n8At p 1, nTraces := n8At p 2, dtChan := n8At p 3, dec := n16At p 4, ring := n16At p 6, pre := n32At p 8,
                       post := n32At p 12, trigOut := byteAt p 16, port := n8At p 17, udpPort := u16At p 18, session := u32At p 20,
                       terms := [termAt p 24, termAt p 40, termAt p 56, termAt p 72] }
  let rpb := rowsPerBlock k.nTraces
  if s.cap.st = .shuttingDown then shuttingDown (capLeft s)
  else if capArmed s then rejectWith E_STATE
  else if p.length ≠ 88 ∨ k.mode > 2 ∨ k.stage > 7 ∨ k.nTraces < 1 ∨ k.nTraces > 64 ∨ (k.dtChan ≥ 96 ∧ k.dtChan ≠ 0xFF) ∨ k.dec = 0 ∨ k.ring < 16 ∨ k.ring > 1024 ∨ k.trigOut.toNat ≥ 16
      ∨ !(([24, 40, 56, 72] : List Nat).all (termOk k.nTraces p)) then rejectWith E_PARAM
  else if k.dtChan ≠ 0xFF ∧ (getChan s k.dtChan).role ≠ 1 then rejectWith E_PARAM
  else if k.mode = 0 ∧ k.pre + k.post + 1 > (k.ring - 1) * rpb then rejectWith E_PARAM
  else if k.mode ≠ 0 ∧ (k.pre ≠ 0 ∨ k.post ≠ 0) then rejectWith E_PARAM
  else if k.mode = 2 ∧ (k.port > 1 ∨ k.udpPort.toNat < 1024 ∨ (findSession s k.port k.session).isNone) then rejectWith E_PARAM
  else if k.mode ≠ 2 ∧ (k.port ≠ 0 ∨ k.udpPort ≠ 0 ∨ k.session ≠ 0) then rejectWith E_PARAM
  else .done (updCap (fun c => { c with conf := some k }) s) (n16 rpb ++ zeros 2)

def execCapConfig (via : Transport) (s : State) : Host.Outcome State Fault Refusal :=
  .next (runCard (isOp 0x0D00#16) (snsCard capConfigRun) via s)

/-- CAP_ARM's reply. -/
def armReply (s : State) (us : Nat) : Bytes := n8 (capCode s.cap.st) ++ zeros 3 ++ n32 us

/-- The parameters of CAP_ARM are well formed. -/
def armParams (r : Req) : Bool := lenIs r 4 && decide (n8At (reqParams r) 0 ≤ 2) && zeroAt (reqParams r) 1 3

/-- CAP_ARM stop (R498). -/
def capStopRun (s : State) (r : Req) : CardResult :=
  if !armParams r then rejectWith E_PARAM
  else let s1 := capShutdown 1 s; .done s1 (armReply s1 (if s1.cap.st = .shuttingDown then capLeft s1 else 0))

/-- The capture as armed (R485, R499): the ring's validity and the counters are cleared. `running` is the pacing stage's frame in
progress, and `on` tells whether the stage is ENABLED. -/
def capArmState (c : Capture) (mode ring : Nat) (running : Option U32) (on : Bool) : Capture :=
  { c with st := if mode = 0 then .armed else .streaming, factor := 1, stepAt := 12 * ring, seq := 0, release := 0, oldest := 0, rows := 0, dropped := 0, foreign := 0, triggers := 0
           tTrig := 0, block := none, gap := false, trig := none, postLeft := none, trigRowNo := 0, first := none, lastDue := 0, lastSeen := 0, frames := [], writes := [], traces := List.replicate 64 0
           prev := List.replicate 64 0, havePrev := false, ring := ring, armedIn := running, paced := on, past := [], taken := List.replicate 4 none, streamSeq := 0, dtRise := none, dtFall := none, everArmed := true, stopReason := 0 }

/-- CAP_ARM arm (R151, R485); a ring over a row retired without a spare is refused (R535). -/
def capArmRun (s : State) (r : Req) : CardResult :=
  if s.cap.st = .shuttingDown then shuttingDown (capLeft s)
  else if capArmed s ∨ s.cap.conf.isNone then rejectWith E_STATE
  else if !armParams r then rejectWith E_PARAM
  else if bytesLost s 42 0 (4096 * (capConf s).ring) then rejectWith E_RESOURCE
  else if s.cap.cal.isSome then rejectWith E_BUSY
  else if !pllLocked s 0 then rejectWith E_NOT_READY
  else
    let k := capConf s
    let x := getStage s k.stage
    let running := match x.st with | .starting => some x.frameIndex | .enabled => some x.frameIndex | _ => none
    let s1 := updCap (fun c => capArmState c k.mode k.ring running (x.st == .enabled)) s
    .done s1 (armReply s1 0)

/-- CAP_ARM force (R489): ignored outside ARMED; a term of the same Host-island cycle, an edge that has been taken included, wins. -/
def capForceRun (s : State) (r : Req) : CardResult :=
  if !armParams r then rejectWith E_PARAM
  else
    let s1 := if s.cap.st = .armed ∧ mayFire 0xFF s then capTake { at_ := nowFixed s, source := 0xFF, driver := 0xFF, unknown := false } s.time.raw s else s
    .done s1 (armReply s1 0)

def execCapArmStop (via : Transport) (s : State) : Host.Outcome State Fault Refusal :=
  .next (runCard (isOpElse 0x0D01#16 [1, 2]) (snsCard capStopRun) via s)
def execCapArmArm (via : Transport) (s : State) : Host.Outcome State Fault Refusal :=
  .next (runCard (isOpKind 0x0D01#16 1) (snsCard capArmRun) via s)
def execCapArmForce (via : Transport) (s : State) : Host.Outcome State Fault Refusal :=
  .next (runCard (isOpKind 0x0D01#16 2) (snsCard capForceRun) via s)

/-- The capture status fields, 72 bytes (R499). -/
def capStatusBytes (s : State) : Bytes :=
  let c := s.cap
  let k := capConf s
  let pos (q : U32) : Nat := q.toNat % c.ring
  (if c.everArmed then
    n8 (capCode c.st) ++ n8 k.mode ++ n16 c.factor ++ n16 (pos c.oldest) ++ n16 (capFill c) ++ le32 c.seq ++ le32 c.release ++ le32 c.rows ++ le32 c.dropped
      ++ le32 c.foreign ++ le32 c.triggers ++ le32 c.tTrig
   else zeros 2 ++ n16 1 ++ zeros 32) ++ n8 c.identity ++ zeros 3 ++ (c.delays.flatMap (fun l => l.flatMap le16))

/-- Blocks up to a sequence number are released (R494); a release below an earlier one releases nothing more. -/
def releaseTo (q : U32) (s : State) : State :=
  followFill (updCap (fun c => { c with release := if 0 < (q - c.release).toInt then q else c.release, oldest := if 0 < (q + 1 - c.oldest).toInt then q + 1 else c.oldest }) s)

/-- CAP_STATUS (R494, R499). -/
def capStatusRun (s : State) (r : Req) : CardResult :=
  let p := reqParams r
  let q := u32At p 0
  let rel := n8At p 4 = 1
  if p.length ≠ 8 ∨ n8At p 4 > 1 ∨ !zeroAt p 5 3 ∨ (rel ∧ ((capConf s).mode ≠ 1 ∨ s.cap.conf.isNone ∨ s.cap.seq = 0 ∨ q.toNat ≥ s.cap.seq.toNat)) then rejectWith E_PARAM
  else let s1 := if rel then releaseTo q s else s; .done s1 (capStatusBytes s1)

def execCapStatus (via : Transport) (s : State) : Host.Outcome State Fault Refusal :=
  .next (runCard (isOp 0x0D02#16) (snsCard capStatusRun) via s)

/-- A calibration's pulse, of this device's identity, that starts at an instant (R495, R497). -/
def calPulse (k : TrigCal) (at_ : Nat) (s : State) : State :=
  updCap (fun c => { c with cal := some { k with count := k.count + 1, lastAt := at_, edge := none }, drives := upd c.drives k.line (fun _ => some (at_, at_ + 100 + 40 * k.identity)) }) s

/-- CAP_TRIGBUS_CAL (R497): set delays, respond or initiate. An initiator's first pulse starts at once, the others at 10 us spacing. -/
def trigCalRun (action : Nat) (s : State) (r : Req) : CardResult :=
  let p := reqParams r
  let ds := (List.range 4).map (fun i => u16At p (8 + 2 * i))
  let line := n8At p 1
  if capArmed s then rejectWith E_STATE
  else if p.length ≠ 16 ∨ n8At p 0 ≠ action ∨ line > 3 ∨ n8At p 2 > 3 ∨ n8At p 3 ≠ 0 ∨ !zeroAt p 6 2 then rejectWith E_PARAM
  else if action = 0 then
    if n16At p 4 ≠ 0 ∨ ds.any (fun d => d.toNat > 3200 ∧ d ≠ 0xFFFF#16) then rejectWith E_PARAM
    else .done (updCap (fun c => { c with identity := n8At p 2, delays := upd c.delays line (fun _ => ds) }) s) []
  else if n16At p 4 < 16 ∨ n16At p 4 > 1024 then rejectWith E_PARAM
  else if s.cap.cal.isSome ∨ classFull s 0x0D03#16 then rejectWith E_BUSY
  else
    let k : TrigCal := { initiate := decide (action = 2), line := line, identity := n8At p 2, reps := n16At p 4, count := 0, lastAt := s.time.raw, edge := none }
    .long (if action = 2 then calPulse k s.time.raw s else updCap (fun c => { c with cal := some k }) s) 0 []

def execCapTrigbusCalSet (via : Transport) (s : State) : Host.Outcome State Fault Refusal :=
  .next (runCard (isOpElse 0x0D03#16 [1, 2]) (snsCard (trigCalRun 0)) via s)
def execCapTrigbusCalRespond (via : Transport) (s : State) : Host.Outcome State Fault Refusal :=
  .next (runCard (isOpKind 0x0D03#16 1) (snsCard (trigCalRun 1)) via s)
def execCapTrigbusCalInitiate (via : Transport) (s : State) : Host.Outcome State Fault Refusal :=
  .next (runCard (isOpKind 0x0D03#16 2) (snsCard (trigCalRun 2)) via s)

/-- CAL_PULSE_RESPONSE (R497): the responder answers a received edge with a pulse of its own identity, exactly 1,000 ns after
it. -/
def execCalPulseResponse (s : State) : Host.Outcome State Fault Refusal :=
  match s.cap.cal with
  | none => .next s
  | some k =>
    match k.edge with
    | none => .next s
    | some e => if k.initiate ∨ k.count ≥ k.reps then .next s else let s1 := advanceTo (e + 1000) s; .next (calPulse k (e + 1000) s1)

/-- TRIGBUS_CAL_DONE (R497): the initiator's measured means and spread in ns; an unanswered pulse, or a spread above
4 ns, fails. It ends after its pulses or at one that goes unanswered, a responder after its pulses or 100 ms without one. -/
def execTrigbusCalDone (rt own spread : F32) (unanswered : Bool) (s : State) : Host.Outcome State Fault Refusal :=
  match s.cap.cal with
  | none => .next s
  | some k =>
    let s1 := updCap (fun c => { c with cal := none }) s
    if k.initiate then
      if !unanswered && decide (k.count < k.reps) then .next s
      else if unanswered || f32Lt 0x40800000#32 spread then .next (endLong 0x0D03#16 0 E_VERIFY [] s1)
      else .next (endLong 0x0D03#16 0 OK (le32 rt ++ le32 own ++ le32 spread) s1)
    else
      let s2 := if k.count < k.reps then advanceTo (k.lastAt + 100000000) s1 else s1
      .next (endLong 0x0D03#16 0 OK (n16 k.count) s2)

/-! ### Rows (R484 to R493) -/

/-- A trace condition of R489; a trace may hold any word, and is compared as binary32. -/
def traceTerm (prev cur : List U32) (have_ : Bool) (t : CapTerm) : Bool :=
  let v := cur.getD t.index 0
  let p := prev.getD t.index 0
  match t.kind with
  | 1 => anyLe t.level v
  | 2 => anyLe v t.level
  | 3 => have_ && anyLt p t.level && anyLe t.level v
  | 4 => have_ && anyLt t.level p && anyLe v t.level
  | 5 => anyLt v t.level || anyLt t.level2 v
  | _ => false

/-- The trace values of a frame (R484): the write of the highest node index wins, an unwritten trace repeats. -/
def frameTraces (c : Capture) (frame : U32) : List U32 :=
  c.traces.mapIdx (fun i old =>
    ((c.writes.filter (fun w => w.1 == frame && decide (w.2.1 = i))).foldl (fun (m : Nat × U32) w => if w.2.2.1 ≥ m.1 then (w.2.2.1, w.2.2.2) else m) (0, old)).2)

/-- A row's bytes. -/
def rowBytes (s : State) : Bytes := (s.cap.traces.take (capConf s).nTraces).flatMap le32

/-- Open a block at a factor for a row of a frame (R486): its memory reads zero beyond the rows. In a full ONE_SHOT ring it
overwrites the oldest block (R491). -/
def openBlock (frame : U32) (reload factor : Nat) (s : State) : State :=
  let a := blockAddr s s.cap.seq
  updCap (fun c => { c with mem := memClear c.mem a 4096, gap := false, oldest := if capFill c ≥ c.ring then c.oldest + 1 else c.oldest
                            block := some { epoch := s.img.epoch, first := frame, tFirst := timeAt s reload, factor := factor, rows := 0, flags := flag c.gap 3, trigRow := 0xFFFF, trigOff := 0, trig := none } }) s

/-- Append a row to the open block; it is the trigger row where it is the first at or after t_trig (R490). -/
def appendRow (reload : Nat) (s : State) : State :=
  match s.cap.block with
  | none => s
  | some b =>
    let a := blockAddr s s.cap.seq + 64 + b.rows * 4 * (capConf s).nTraces
    let s1 := updCap (fun c => { c with mem := memWriteBytes c.mem a (rowBytes s), rows := c.rows + 1, block := some { b with rows := b.rows + 1 }
                                        past := { no := c.rows.toNat, seq := c.seq, row := b.rows, reload := reload } :: c.past, postLeft := c.postLeft.map (· - 1) }) s
    let s2 := match s.cap.trig with | some t => placeTrig t s1 | none => s1
    if s2.cap.postLeft = some 0 then capDone 0 0 s2
    else if b.rows + 1 ≥ rowsPerBlock (capConf s).nTraces then closeBlock 0 s2 else s2

/-- A due frame between the newest committed one and this one was held or squashed (R485). -/
def dueMissed (s : State) (frame : U32) : Bool :=
  match s.cap.first with
  | none => false
  | some f =>
    let step := (capConf s).dec * s.cap.factor
    decide ((s.cap.lastSeen - f).toNat / step < ((frame - f).toNat - 1) / step)

/-- A sampled frame gives its row at the factor under which it was due, or none while the ring is full of unreleased blocks
(R492, R493). -/
def sampleRow (frame : U32) (reload factor : Nat) (s : State) : State :=
  let k := capConf s
  let s1 := updCap (fun c => { c with first := some (c.first.getD frame), lastDue := frame }) s
  let s2 := match s1.cap.block with
    | some b => if b.factor ≠ factor ∨ s1.cap.gap then closeBlock 0 s1 else s1
    | none => s1
  let s3 := match s2.cap.block with
    | some _ => some s2
    | none => if k.mode ≠ 0 ∧ capFill s2.cap ≥ s2.cap.ring then none else some (openBlock frame reload factor s2)
  match s3 with
  | some t => appendRow reload t
  | none =>
    let d := s2.cap.dropped + 1
    postMergeWith 0x0D03#16 0 (le32 d) (fun _ => true) (fun _ n => n) (updCap (fun c => { c with dropped := d, gap := true }) s2)

/-- The frame is due (R485): a whole multiple of dec x factor after the first sampled one. -/
def frameDue (s : State) (frame : U32) : Bool :=
  match s.cap.first with
  | none => true
  | some f => decide ((frame - f).toNat % ((capConf s).dec * s.cap.factor) = 0)

/-- A CAPTURE instance of a frame has not ended (R485). -/
def rowWaits (s : State) (frame : U32) : Bool :=
  let n := (capConf s).stage
  s.loop.insts.any (fun i => decide (i.stage = n) && i.effect && i.frame == frame && !i.dead && decide ((graphNode s (stageGraph s n) i.node).op = 0x44))

/-- CAPTURE_ROW_WRITE (R485, R486, R489): every CAPTURE instance of the oldest committed frame has ended. A due frame missed before
it closes the block; the trace terms are evaluated, and the row is written where the frame is due. -/
def execCaptureRowWrite (s : State) : Host.Outcome State Fault Refusal :=
  match s.cap.frames with
  | [] => .next s
  | (frame, reload) :: rest =>
    let k := capConf s
    if rowWaits s frame then .next s
    else
      let tr := frameTraces s.cap frame
      let due := frameDue s frame
      let s1 := updCap (fun c => { c with writes := c.writes.filter (fun w => w.1 != frame), traces := tr, prev := c.traces, havePrev := true }) s
      let s2 := if dueMissed s1 frame then closeBlock 0 (updCap (fun c => { c with gap := true }) s1) else s1
      let hit := if capListens s2 then k.terms.findIdx? (traceTerm s.cap.traces tr s.cap.havePrev) else none
      let s3 := match hit with
        | some i => capFire { at_ := activeAt s2.time reload, source := i, driver := 0xFF, unknown := false } s2
        | none => s2
      let s4 := if due ∧ s3.cap.st ≠ .done then sampleRow frame reload s.cap.factor s3 else s3
      .next (capRowsEnd (updCap (fun c => { c with frames := rest, lastSeen := frame }) s4))

/-! ### The trigger bus (R495, R496) -/

/-- The device that a pulse width names, within 15 ns. -/
def pulseDriver (w : Nat) : Option Nat := ([0, 1, 2, 3] : List Nat).find? (fun i => decide (w ≤ 100 + 40 * i + 15) && decide (100 + 40 * i ≤ w + 15))

/-- d[i] of a line, or the least calibrated one; where none is calibrated a free value within 0 to 3,200. -/
def busDelay (line : Nat) (drv : Option Nat) (s : State) : Nat × State :=
  let ds := s.cap.delays.getD line []
  let known := ds.filter (fun d => d ≠ 0xFFFF#16)
  let pick := match drv with
    | some i => if ds.getD i 0xFFFF#16 = 0xFFFF#16 then none else some (ds.getD i 0).toNat
    | none => known.foldl (fun m d => some (min d.toNat (m.getD d.toNat))) none
  match pick with
  | some d => (d, s)
  | none => let (v, s1) := draw s; (v.toNat % 3201, s1)

/-- The falling edge of a line (R495, R496): stamped, and taken outside hold-off by a calibration's responder (R497) or by a
capture with a term on the line. It starts the line's hold-off of 2 us where it is taken, and where this device drives the line. -/
def lineFalls (line : Nat) (s : State) : State :=
  let now := s.time.raw
  let s1 := updCap (fun c => { c with fall := upd c.fall line (fun _ => some now), holdWas := upd c.holdWas line (fun _ => c.holdoff.getD line 0) }) s
  let hold (s : State) : State := updCap (fun c => { c with holdoff := upd c.holdoff line (fun _ => now + 2000) }) s
  if now < s.cap.holdoff.getD line 0 then s1
  else if s.cap.cal.any (fun k => !k.initiate && decide (k.line = line)) then hold (updCap (fun c => { c with cal := c.cal.map (fun k => { k with edge := some now }) }) s1)
  else
    let own := if (s.cap.drives.getD line none).isSome then hold s1 else s1
    match (capConf s).terms.findIdx? (fun t => decide (t.kind = 6) && decide (t.index = line)) with
    | none => own
    | some i => if mayFire i s then takeEdge line i now s1 else own

/-- A low of less than 5 ns does not pass the receiver's glitch filter (R587): the line has not fallen. -/
def lineGlitch (line edge : Nat) (s : State) : State :=
  updCap (fun c =>
    { c with fall := upd c.fall line (fun _ => none), taken := upd c.taken line (fun _ => none), holdoff := upd c.holdoff line (fun _ => c.holdWas.getD line 0)
             trig := match (c.taken.getD line none).bind (·.was) with | some t => some t | none => c.trig
             cal := c.cal.map (fun k => if k.line = line ∧ k.edge = some edge then { k with edge := none } else k) }) s

/-- The low pulse of a line ends: an edge that was taken is the trigger, dated back by the delay of the driver that its width
names (R496). -/
def lineRises (line edge : Nat) (s : State) : State :=
  let width := s.time.raw - edge
  let s1 := updCap (fun c => { c with fall := upd c.fall line (fun _ => none), taken := upd c.taken line (fun _ => none) }) s
  if width < 5 then lineGlitch line edge s
  else
    match s.cap.taken.getD line none with
    | none => s1
    | some e =>
      let drv := pulseDriver width
      let (d, s2) := busDelay line drv s1
      let t : CapTrig := { at_ := activeAt s2.time edge - (d : Int) * 2 ^ 28, source := e.source, driver := drv.getD 0xFF, unknown := drv.isNone }
      let s3 := if e.was.isSome then capReplace t s2 else capTake t e.at_ s2
      if drv.isNone then post 0x0D04#16 line (n16 width) s3 else s3

/-- TRIG_BUS_EDGE (R496): a line falls (`low`) or rises. -/
def execTrigBusEdge (line : Nat) (low : Bool) (s : State) : Host.Outcome State Fault Refusal :=
  match s.cap.fall.getD line none with
  | none => .next (if low then lineFalls line s else s)
  | some e => .next (if low then s else lineRises line e s)

/-- TRIG_DRIVE_END (R495): a drive ends; a calibration's initiator starts its next pulse 10 us after the one before (R497). -/
def execTrigDriveEnd (line : Nat) (s : State) : Host.Outcome State Fault Refusal :=
  match s.cap.drives.getD line none with
  | none => .next s
  | some (_, t) =>
    let s1 := updCap (fun c => { c with drives := upd c.drives line (fun _ => none) }) (advanceTo t s)
    match s.cap.cal with
    | some k => .next (if k.initiate ∧ k.line = line ∧ k.count < k.reps then calPulse k (k.lastAt + 10000) s1 else s1)
    | none => .next s1

/-! ### Streaming and the end (R494, R498) -/

/-- One stream datagram (R494). -/
def streamDatagram (s : State) (x : Session) (part : Nat) : Bytes :=
  let k := capConf s
  let a := blockAddr s s.cap.oldest
  let body := le32 k.session ++ le32 (s.cap.streamSeq + 1) ++ le32 s.cap.oldest ++ n8 part ++ zeros 3 ++ memReadBytes s.cap.mem (a + 1024 * part) 1024
  le32 x.ip ++ le16 k.udpPort ++ body ++ cmac8 x.key body

/-- STREAM_BLOCK_SEND: the oldest unreleased block goes out in four datagrams and is released. -/
def execStreamBlockSend (s : State) : Host.Outcome State Fault Refusal :=
  let k := capConf s
  if k.mode ≠ 2 ∨ !capArmed s ∨ capFill s.cap = 0 then .next s
  else
    match findSession s k.port k.session with
    | none => .next s
    | some x =>
      let s1 := forEach [0, 1, 2, 3] (fun i s => updCap (fun c => { c with streamSeq := c.streamSeq + 1 }) (ethSend k.port x.ip (streamDatagram s x i) s)) s
      .next (releaseTo s1.cap.oldest s1)

/-- CAPTURE_SHUTDOWN_END (R498): the last row due has been written; the blocks stay readable. -/
def execCaptureShutdownEnd (s : State) : Host.Outcome State Fault Refusal :=
  if s.cap.st ≠ .shuttingDown ∨ !s.cap.frames.isEmpty then .next s
  else .next (capEnd .idle s.cap.stopReason (closeBlock 16 s))

end Sys2Proof.Machine
end

