-- ==== Sys2Proof/Machine/Field.lean ====
section
/-! DEFINITION. The isolation link, the field die's inputs and outputs, and the field cards (spec/16). -/

namespace Sys2Proof.Machine

open Sys2Proof

/-! ### Link frames (R436 to R440) -/

/-- DOWNLINK_SEND (R401, R436, R438, R439): every 10 us on the raw count. -/
def execDownlinkSend (s : State) : Host.Outcome State Fault Refusal :=
  if !s.field.started then .next s
  else
    let s1 := swapLane (advanceTo s.field.nextDown s)
    let fr := (s1.safe.test.frame + 1) % 2000
    let announce := match nextRetire s1 5 with
      | some r => if s1.field.spareLanes > 0 ∧ (r.index = s1.field.laneDown ∨ r.index = s1.field.laneUp) then some r.index else none
      | none => none
    let f : DownFrame :=
      { seq := s1.field.seq + 1, doCmd := s1.field.doCmd, permProc := permitMask s1 s1.safe.proc, permSorrel := permitMask s1 s1.safe.sorrel,
        tp := tpOf fr, safeProc := s1.safe.proc.safeBit, safeSorrel := s1.safe.sorrel.safeBit, swap := announce.isSome,
        record := s1.field.mailbox.head?, begun := s1.time.raw }
    .next { s1 with field := { s1.field with seq := f.seq, sentCmd := f.doCmd, swapNext := announce, down := if linkDead s1 then none else some f
                                             nextDown := s1.time.raw / 10000 * 10000 + 10000 }
                    safe := { s1.safe with test := { s1.safe.test with frame := fr } } }

/-- A valid downlink frame reaches the die (R434, R435, R438, R440). -/
def takeDown (f : DownFrame) (s : State) : State :=
  let x := s.field
  let good := x.goodRun + 1
  let timed := x.timedOut && decide (good < 8)
  let new := match f.record with | some r => decide (x.taken ≤ r.key) | none => false
  let drive : BitVec 4 := if timed then 0 else f.tp
  let s1 := updField (fun y => { y with
      goodRun := good, timedOut := timed, safeSeen := f.safeProc || f.safeSorrel, lastDown := dieNow s, lastSeq := f.seq, downErr := false
      answerDue := some (dieNow s + 5000), taken := match f.record with | some r => max x.taken (r.key + 1) | none => x.taken, tpCmd := drive }) s
  let s2 := match f.record with | some r => if new then dieConfig r.conf s1 else s1 | none => s1
  if timed then s2 else forEach (List.range 8) (outCommand f) s2

/-- A frame repeats the number of the newest valid one: it fails its sequence (R438; log 85). -/
def seqRepeats (s : State) (f : DownFrame) : Bool := !s.field.timedOut && f.seq == s.field.lastSeq

/-- DOWNLINK_RECEIVE (R438): the frame in flight arrives 2.72 us after it began, as its lane delivers it; `spare` is the
lane of its copy. -/
def execDownlinkReceive (lane spare : LaneErr) (s : State) : Host.Outcome State Fault Refusal :=
  match s.field.down with
  | none => .next s
  | some f =>
    let copy := decide (f.seq.toNat % 2 = 0) && (downArrives spare f).isNone && decide (s.field.spareLanes > 0)
    let s1 := updField (fun x => { x with down := none, spareDownErr := x.spareDownErr || copy }) (advanceTo (f.begun + 2720) s)
    if s1.field.dieStop then .next s1
    else match downArrives lane f with
      | none => .next (updField (fun x => { x with goodRun := 0, downErr := true }) s1)
      | some g => .next (if seqRepeats s1 g then updField (fun x => { x with goodRun := 0, downErr := true }) s1 else takeDown g s1)

/-- The die reads back its test-pulse sources for a frame (R435): `tpRead` is what they read. -/
def readBack (tpRead : BitVec 4) (s : State) : State :=
  let x := s.field
  let bad := (List.range 4).map (fun n => if tpRead.getLsbD n = x.tpCmd.getLsbD n then 0 else x.tpBad.getD n 0 + 1)
  updField (fun y => { y with tpRead := tpRead, tpBad := bad
                              tpMis := (List.range 4).foldl (fun (m : BitVec 4) n => if bad.getD n 0 ≥ 3 then m ||| (1#4 <<< n) else m) 0 }) s

/-- UPLINK_SEND (R435, R436): 5 us after a valid downlink frame arrived, or 10 us after the last one on the die's own time.
The die's measurements and what its test-pulse sources read come with it. -/
def execUplinkSend (vField dieTemp : F32) (currents : List F32) (tpRead : BitVec 4) (s : State) : Host.Outcome State Fault Refusal :=
  if !s.field.started ∨ s.field.dieStop then .next s
  else
    let answer := s.field.answerDue
    let s1 := readBack tpRead (sampleInputs (dieAt (answer.getD (s.field.upLast + 10000)) s))
    let x := s1.field
    let own := if answer.isSome then x.lastSeq else x.upSeq + 1
    let ins := List.range 16
    let st : BitVec 5 := BitVec.ofNat 5 (flag x.warn 0 + flag x.underV 1 + flag x.overV 2 + flag (x.timedOut || x.safeSeen) 3 + flag x.downErr 4)
    let u : UpFrame :=
      { seq := own, raw := bits16 (fun n => (getInput s1 n).raw), debounced := bits16 (fun n => (getInput s1 n).level)
        chatter := bits16 (fun n => (getInput s1 n).chatter), doApplied := bits8 (fun o => (getOutput s1 o).on), doFault := bits8 (fun o => (getOutput s1 o).faults != 0)
        tp := x.tpRead, tpMis := x.tpMis, status := st, vField := BitVec.ofInt 16 (ratRound (f32Val vField * 100)), edges := x.edges, sampled := s1.time.raw
        taken := x.taken, counts := ins.map (fun n => (getInput s1 n).count), freqs := ins.map (fun n => (getInput s1 n).freq)
        freqStats := ins.map (fun n => (getInput s1 n).freqStatus), currents := (List.range 8).map (fun o => currents.getD o 0)
        faultCodes := (List.range 8).map (fun o => (getOutput s1 o).faults), faultCurs := (List.range 8).map (fun o => (getOutput s1 o).faultCur), pulling := bits8 (fun o => (getOutput s1 o).pulling.isSome)
        dieTemp := dieTemp, spareErr := x.spareDownErr, dieLost := x.dieLost }
    .next (updField (fun y => { y with
      up := if linkDead s1 then none else some u, upSeq := own, upLast := dieNow s1, answerDue := none, edges := 0, downErr := false
      spareDownErr := false, dieLost := false, vField := vField, dieTemp := dieTemp
      outs := y.outs.mapIdx (fun o z => { z with current := currents.getD o 0 }) }) s1)

/-- An acknowledged configuration is complete (R433): its owner setting stands, its completion reply is formed. -/
def configDone (key : Nat) (s : State) : State :=
  match s.field.mailbox.find? (fun r => r.key = key) with
  | none => s
  | some r =>
    let s1 := updField (fun f => { f with mailbox := f.mailbox.filter (fun q => q.key ≠ key)
                                          owner := match r.conf with | .output o w _ _ _ _ => upd f.owner o (fun _ => w) | _ => f.owner }) s
    endLong 0x0B00#16 key OK [] s1

/-- The pull-in place of an output follows what an uplink frame shows of it (R14, R432): an output whose command the die has
taken and that is off holds none, but for a die in its safe states, out of which it pulls in anew; one that pulls in without
a place takes one (log 162). A frame that reports the last downlink frame in error answers none: the die numbers it itself. -/
def upPlace (u : UpFrame) (o : Nat) (s : State) : State :=
  let has := s.gov.inPullin.contains o
  let taken := !decide ((u.seq - s.field.onSeq.getD o 0).toInt < 0) && !u.status.getLsbD 4
  if has && !u.doApplied.getLsbD o && taken && !u.status.getLsbD 3 then freePullin o s
  else if !has && u.pulling.getLsbD o && s.field.doCmd.getLsbD o && taken then { s with gov := { s.gov with inPullin := s.gov.inPullin ++ [o] } }
  else s

/-- What an uplink frame shows for the first time of the outputs (R430, R442): faults, event 0x0B03; an output turned off
starts its shutdown, and one turned on again ends it. -/
def upOutput (u : UpFrame) (before : Option UpFrame) (o : Nat) (s : State) : State :=
  let codes := u.faultCodes.getD o 0
  let old : BitVec 5 := match before with | some b => b.faultCodes.getD o 0 | none => 0
  let was := match before with | some b => b.doApplied.getLsbD o | none => false
  let is := u.doApplied.getLsbD o
  let s0 := upPlace u o s
  let s1 := if codes &&& ~~~old ≠ 0 then post 0x0B03#16 o (n8 codes.toNat ++ zeros 3 ++ le32 (u.faultCurs.getD o 0)) s0 else s0
  if was && !is then outputStops o s1
  else if is && !was && (s1.field.doCmd.getLsbD o || u.status.getLsbD 3) then updField (fun f => { f with shutting := upd f.shutting o (fun _ => none) }) s1
  else s1

/-- What an uplink frame shows for the first time crosses with it (R14, R442): CHATTER, the VFIELD flags, test-pulse
mismatches, and what `upOutput` says. -/
def upShows (u : UpFrame) (before : Option UpFrame) (s : State) : State :=
  let chat : BitVec 16 := u.chatter &&& ~~~(match before with | some b => b.chatter | none => 0)
  let old : BitVec 5 := match before with | some b => b.status | none => 0
  let mis : BitVec 4 := u.tpMis &&& ~~~(match before with | some b => b.tpMis | none => 0)
  let cmd := tpOf (answeredFrame s u)
  let s1 := forEach (List.range 8) (upOutput u before) s
  let s2 := forEach (List.range 16) (fun n s => if chat.getLsbD n then postMerge 0x0B05#16 n (le32 (u.counts.getD n 0 - s.field.cleared.getD n 0)) s else s) s1
  let s3 := forEach (List.range 3) (fun k s =>
    if u.status.getLsbD k = old.getLsbD k then s else post 0x0B06#16 0 (n8 (if u.status.getLsbD k then k else 3) ++ zeros 3 ++ le32 (vFieldOf u)) s) s2
  forEach (List.range 4) (fun n s => if mis.getLsbD n then post 0x0B07#16 n (n8 (flag (cmd.getLsbD n) 0)) s else s) s3

/-- A valid uplink frame is used (R437 to R440). -/
def takeUp (u : UpFrame) (s : State) : State :=
  let before := s.field.newest
  let old : BitVec 16 := match before with | some b => b.debounced | none => 0
  let stamp := timeAt s u.sampled
  let s1 := updField (fun f => { f with newest := some u, framesOk := f.framesOk + 1, lastUp := s.time.raw, linkUp := true, linkLost := false
                                        timeouts := if u.dieLost then f.timeouts + 1 else f.timeouts
                                        cleared := f.cleared.mapIdx (fun n c => if f.clearDue.getLsbD n then u.counts.getD n 0 else c), clearDue := 0
                                        stamps := f.stamps.mapIdx (fun n t => if u.debounced.getLsbD n ≠ old.getLsbD n then stamp else t) }) s
  let s2 := if u.dieLost then post 0x0B02#16 0 (n8 1) s1 else s1
  let s3 := if u.status.getLsbD 4 then laneError s2.field.laneDown 0 (updField (fun f => { f with crcErrors := f.crcErrors + 1 }) s2) else s2
  let s4 := if u.spareErr ∧ s3.field.spareLanes > 0 then laneError (spareLane s3) 0 s3 else s3
  let s5 := upShows u before s4
  safetyFrame u before (((s5.field.mailbox.map (·.key)).filter (fun k => decide (k < u.taken))).foldl (fun s k => configDone k s) s5)

/-- An uplink frame repeats the number of the newest valid one (R438; log 85). -/
def upRepeats (s : State) (u : UpFrame) : Bool := s.field.linkUp && (match s.field.newest with | some b => b.seq == u.seq | none => false)

/-- UPLINK_RECEIVE (R437 to R439): the frame in flight arrives 3.22 us after its sampling instant, as its lane delivers it;
`spare` is the lane of its copy. -/
def execUplinkReceive (lane spare : LaneErr) (s : State) : Host.Outcome State Fault Refusal :=
  match s.field.up with
  | none => .next s
  | some u =>
    let s1 := updField (fun x => { x with up := none }) (advanceTo (u.sampled + 3220) s)
    let err := laneError s1.field.laneUp 1 (updField (fun f => { f with crcErrors := f.crcErrors + 1 }) s1)
    let s2 := match upArrives lane u s1.field.newest with | some v => if upRepeats s1 v then err else takeUp v s1 | none => err
    .next (if (upArrives spare u s1.field.newest).isNone ∧ u.seq.toNat % 2 = 1 ∧ s2.field.spareLanes > 0 then laneError (spareLane s2) 1 s2 else s2)

/-- FIELD_LINK_TIMEOUT (R434, R435, R440): the die has had no valid downlink frame for the timeout. -/
def execFieldLinkTimeout (s : State) : Host.Outcome State Fault Refusal :=
  if s.field.timedOut ∨ s.field.dieStop then .next s
  else
    let s1 := dieAt (s.field.lastDown + 1000 * s.field.timeout) s
    .next (applySafeStates (updField (fun f => { f with timedOut := true, goodRun := 0, dieLost := true, tpCmd := 0 }) s1))

/-- LINK_LOST (R440): the control die has had no valid uplink frame for the timeout. -/
def execLinkLost (s : State) : Host.Outcome State Fault Refusal :=
  if !s.field.started ∨ s.field.linkLost then .next s
  else
    let s1 := advanceTo (s.field.lastUp + 1000 * s.field.timeout) s
    let s2 := updField (fun f => { f with linkUp := false, linkLost := true, timeouts := f.timeouts + 1 }) s1
    .next (safetyActs rFIELD_LINK 0 0xFF (post 0x0B02#16 0 (n8 0) s2))

/-! ### VFIELD (R422) -/

/-- A level of VFIELD lies beyond the threshold of a kind (0 warning, 1 undervoltage, 2 overvoltage, 3 die stop), or beyond
its release. -/
def vBeyond (kind : Nat) (on : Bool) (v : F32) : Bool :=
  let (t, r) : Rat × Rat := match kind with | 0 => (17 / 2, 44 / 5) | 1 => (7, 15 / 2) | 2 => (40, 38) | _ => (9 / 2, 5)
  let q := f32Val v
  if kind = 2 then (if on then decide (t < q) else decide (q < r)) else (if on then decide (q < t) else decide (r < q))

/-- VFIELD (R422): it has been at v for `held` ns, which crosses the threshold of a kind (`on`) or its release; a level
counts once it has held for 10 us. The control die learns of it from the uplink frames. -/
def execVfield (kind : Nat) (on : Bool) (v : F32) (held : Nat) (s : State) : Host.Outcome State Fault Refusal :=
  let x := s.field
  let was := match kind with | 0 => x.warn | 1 => x.underV | 2 => x.overV | _ => x.dieStop
  if was = on ∨ !vBeyond kind on v ∨ held < 10000 then .next s
  else
    let s1 := updField (fun f => match kind with
      | 0 => { f with warn := on, vField := v }
      | 1 => { f with underV := on, vField := v }
      | 2 => { f with overV := on, vField := v }
      | _ => { f with dieStop := on, vField := v, timedOut := true, goodRun := 0, tpCmd := 0, answerDue := none, up := none }) s
    let s3 := if on ∧ (kind = 1 ∨ kind = 2) then forEach (List.range 8) (fun o => latchFault o 4 (getOutput s o).current) s1
      else if on ∧ kind = 3 then forEach (List.range 8) (fun o => outDrive o false false) s1 else s1
    .next (followSupply (readable s) s3)

/-! ### Inputs (R424 to R427) -/

/-- FIELD_INPUT_EDGE (R423, R424): the ball of an input has been at v for `held` ns. The front end passes what lasts long
enough; what is shorter it may pass or not. -/
def execFieldInputEdge (n : Nat) (v : F32) (held : Nat) (s : State) : Host.Outcome State Fault Refusal :=
  let (ok, s1) := qualified 0 (passTime n) held s
  .next (if ok then seeInput n (updInput n (fun x => { x with volts := v }) s1) else s1)

/-- INPUT_DEBOUNCE_EXPIRY (R425): unless a sample until then breaks the level that holds. -/
def execInputDebounceExpiry (n : Nat) (s00 : State) : Host.Outcome State Fault Refusal :=
  let s := sampleInput (dieNow s00 + 1) n s00
  let x := getInput s n
  let fin := x.rawSince + 1000 * x.debounce
  let s1 := sampleInput (max (dieNow s) fin + 1) n (dieAt fin s)
  if x.raw = x.level ∧ !x.chatter then .next s
  else if (getInput s1 n).rawSince ≠ x.rawSince then .next s1
  else
    let s2 := updInput n (fun y => { y with level := y.raw, chatter := false, trans := [] }) s1
    .next (if x.raw = x.level then s2 else updField (fun f => { f with edges := f.edges ||| (1#16 <<< n) }) s2)

/-- FREQ_GATE_END (R427): the counted edges up to the gate's end give the frequency; later ones lie in the next gate. -/
def execFreqGateEnd (n : Nat) (s00 : State) : Host.Outcome State Fault Refusal :=
  let fin := (getInput s00 n).gateStart + 1000000 * (getInput s00 n).gate
  let s := sampleInput (max (dieNow s00) fin + 1) n (dieAt fin s00)
  let x := getInput s n
  if (getInput s00 n).gate = 0 then .next s00
  else
    let es := x.gateEdges.filter (fun t => decide (t ≤ fin))
    let span := es.getLastD 0 - es.headD 0
    let f : Rat := if span = 0 then 0 else ((1000000000 * (es.length - 1) : Nat) : Rat) / (span : Rat)
    let res : F32 × Nat := if es.length < 2 then (0, 1) else if span = 0 ∨ f > maxRate n then (0, 2) else (toF32 f, 0)
    .next (updInput n (fun y => { y with freq := res.1, freqStatus := res.2, gateEdges := y.gateEdges.filter (fun t => decide (fin < t)), gateStart := fin }) s)

/-! ### Outputs (R428 to R430) -/

/-- PULLIN_END (R428, R432, R134). -/
def execPullinEnd (o : Nat) (s : State) : Host.Outcome State Fault Refusal :=
  match (getOutput s o).pulling with
  | none => .next s
  | some t => .next (freePullin o (updOutput o (fun x => { x with pulling := none }) (dieAt t s)))

/-- The instant of the die from which a fault's limit counts (R429): the newest switch-on in pull-in, its end or the switch-on
without one when economised, and the command off for SHORT_VFIELD. -/
def limitSince (x : FieldOut) (kind : Nat) : Nat :=
  if kind = 2 then x.offAt else match x.pulling with | some t => t - 1000000 * x.pullIn | none => x.econAt

/-- The condition of an output fault holds (R429): kinds 0 OVERCURRENT, by the current in A; 1 OPEN_LOAD, by the current;
2 SHORT_VFIELD, by the output's voltage; 3 THERMAL, by its junction in degrees. The quantity has been there for `held` ns, which
count from `limitSince` on. -/
def faultHolds (x : FieldOut) (kind : Nat) (value : F32) (held now : Nat) : Bool :=
  let v := f32Val value
  let t := min held (now - limitSince x kind)
  match kind with
  | 0 => x.on && decide (v > if x.pulling.isSome then 16 / 5 else 8 / 5) && decide (t ≥ 50000)
  | 1 => x.on && x.pulling.isNone && x.openDetect && decide (v < 1 / 50) && decide (t ≥ 10000000)
  | 2 => !x.cmd && decide (v > 4) && decide (t ≥ 1000000)
  | _ => decide (v > 160)

/-- OUTPUT_FAULT (R429): the quantity of the kind has been at `value` for `held` ns, the output's current being `current`.
A junction no longer above 160 degrees is noted, for the next commanded change to on. -/
def execOutputFault (o kind : Nat) (value current : F32) (held : Nat) (s : State) : Host.Outcome State Fault Refusal :=
  if s.field.dieStop then .next s
  else
    let holds := faultHolds (getOutput s o) kind value held (dieNow s)
    let s1 := if kind ≥ 3 then updOutput o (fun x => { x with hot := holds }) s else s
    .next (if holds then latchFault o kind current s1 else s1)

/-- An output as the newest uplink frame shows it (R441). -/
def shownOn (s : State) (o : Nat) : Bool := match s.field.newest with | some u => u.doApplied.getLsbD o | none => false
def shownPulling (s : State) (o : Nat) : Bool := match s.field.newest with | some u => u.pulling.getLsbD o | none => false

/-- A current is below 20 mA (R430). -/
def belowOff (c : F32) : Bool := decide (f32Val c < 1 / 50)
/-- The newest uplink frame shows the output off and its current below 20 mA. -/
def shownIdle (s : State) (o : Nat) : Bool := match s.field.newest with | some u => !u.doApplied.getLsbD o && belowOff (u.currents.getD o 0) | none => true

/-- OUTPUT_SHUTDOWN_END (R430, R139): the die reads the output off and its current below 20 mA, and the newest uplink frame
shows it so. -/
def execOutputShutdownEnd (o : Nat) (s : State) : Host.Outcome State Fault Refusal :=
  if (s.field.shutting.getD o none).isNone ∨ (getOutput s o).on ∨ !belowOff (getOutput s o).current ∨ !shownIdle s o then .next s
  else .next (finishStateChange (updField (fun f => { f with shutting := upd f.shutting o (fun _ => none) }) s))

/-! ### Cards -/

/-- A configuration goes into the mailbox as a long operation. -/
def sendConfig (c : DieConf) (s : State) : CardResult :=
  if linkDead s then rejectWith E_RESOURCE
  else if classFull s 0x0B00#16 then rejectWith E_BUSY
  else .long (updField (fun f => { f with mailbox := f.mailbox ++ [{ key := f.nextKey, conf := c }], nextKey := f.nextKey + 1 }) s) s.field.nextKey []

/-- FIO_CONFIG kind 0, and any length or kind that no other row takes. -/
def configInputRun (s : State) (r : Req) : CardResult :=
  let p := reqParams r
  let d := n32At p 4
  if p.length ≠ 12 ∨ n8At p 0 ≠ 0 ∨ n8At p 1 > 15 ∨ n8At p 2 > 2 ∨ n8At p 3 > 3 ∨ d < 1 ∨ d > 65000 ∨ n16At p 8 > 1000 ∨ !zeroAt p 10 2 then rejectWith E_PARAM
  else sendConfig (.input (n8At p 1) (n8At p 2) (n8At p 3) d (n16At p 8)) s

def execFioConfigInput (via : Transport) (s : State) : Host.Outcome State Fault Refusal :=
  .next (runCard (isOpElse 0x0B00#16 [1, 2]) (safeCard inAll4 configInputRun) via s)

/-- FIO_CONFIG kind 1 (R433, R139). -/
def configOutputRun (s : State) (r : Req) : CardResult :=
  let p := reqParams r
  let o := n8At p 1
  if p.length ≥ 2 ∧ o < 8 ∧ (s.field.shutting.getD o none).isSome then shuttingDown (outputLeft s o)
  else if p.length ≥ 2 ∧ o < 8 ∧ (outputGoing s o ∨ shownOn s o) then rejectWith E_STATE
  else if p.length ≠ 12 ∨ o > 7 ∨ n8At p 2 > 8 ∨ n8At p 3 > 2 ∨ n16At p 4 > 100 ∨ n8At p 6 < 20 ∨ n8At p 6 > 100 ∨ n8At p 7 > 1 ∨ !zeroAt p 8 4
      ∨ (namedOutput s o ∧ n8At p 3 ≠ 0) then rejectWith E_PARAM
  else sendConfig (.output o (n8At p 2) (n8At p 3) (n16At p 4) (n8At p 6) (decide (n8At p 7 = 1))) s

def execFioConfigOutput (via : Transport) (s : State) : Host.Outcome State Fault Refusal :=
  .next (runCard (isOpKind 0x0B00#16 1) (safeCard inAll4 configOutputRun) via s)

/-- FIO_CONFIG kind 2 (R440). -/
def configLinkRun (s : State) (r : Req) : CardResult :=
  let p := reqParams r
  let t := n32At p 4
  if s.sys.dev ≠ .config then rejectWith E_STATE
  else if p.length ≠ 8 ∨ !zeroAt p 1 3 ∨ t < 50 ∨ t > 100000 then rejectWith E_PARAM
  else sendConfig (.link t) s

def execFioConfigLink (via : Transport) (s : State) : Host.Outcome State Fault Refusal :=
  .next (runCard (isOpKind 0x0B00#16 2) (safeCard inAll4 configLinkRun) via s)

/-- The state code of an output: 0 off, 1 pull-in, 2 economised, 3 shutting down. -/
def outputState (s : State) (o : Nat) : Nat :=
  if (s.field.shutting.getD o none).isSome then 3
  else if !s.field.doCmd.getLsbD o then 0
  else if shownPulling s o ∨ (!shownOn s o ∧ (getOutput s o).pullIn > 0) then 1 else 2

/-- FIO_WRITE (R405, R430 to R432, R135, R138). A switch-on of an output that is on or waits in the pull-in queue is
answered OK and changes nothing (log 134). -/
def fioWriteRun (s : State) (r : Req) : CardResult :=
  let p := reqParams r
  let o := n8At p 0
  let on := decide (n8At p 1 = 1)
  if p.length ≥ 2 ∧ o < 8 ∧ on ∧ (s.field.shutting.getD o none).isSome then shuttingDown (outputLeft s o)
  else if p.length ≥ 2 ∧ o < 8 ∧ (s.field.owner.getD o 0 ≠ 0 ∨ (on ∧ (s.sys.dev ≠ .run ∨ !permitted s o))) then rejectWith E_STATE
  else if p.length ≠ 4 ∨ o > 7 ∨ n8At p 1 > 1 ∨ !zeroAt p 2 2 then rejectWith E_PARAM
  else if linkDead s then rejectWith E_RESOURCE
  else if !on then let t := writeOff o s; .done t (n8 (outputState t o) ++ zeros 3)
  else if outputGoing s o then .done s (n8 (outputState s o) ++ zeros 3)
  else if pullinFree s o then let t := commandOn o s; .done t (n8 (outputState t o) ++ zeros 3)
  else if s.gov.pullin.length ≥ 8 then rejectWith E_BUSY
  else .deferred { s with gov := { s.gov with pullin := s.gov.pullin ++ [{ unit := o, opcode := 0x0B01, tag := reqTag r, owed := some (owedOf r) }] } } (s.gov.pullin.length + 1)

def execFioWrite (via : Transport) (s : State) : Host.Outcome State Fault Refusal :=
  .next (runCard (isOp 0x0B01#16) (safeCard inAll4 fioWriteRun) via s)

/-- The frame that reads stand on before any has arrived: all zero, every frequency off. -/
def upFrame0 : UpFrame :=
  { seq := 0, raw := 0, debounced := 0, chatter := 0, doApplied := 0, doFault := 0, tp := 0, tpMis := 0, status := 0, vField := 0, edges := 0, sampled := 0,
    taken := 0, counts := List.replicate 16 0, freqs := List.replicate 16 0, freqStats := List.replicate 16 3, currents := List.replicate 8 0,
    faultCodes := List.replicate 8 0, faultCurs := List.replicate 8 0, pulling := 0, dieTemp := 0, spareErr := false, dieLost := false }

/-- The edge counters as the newest uplink frame shows them, 0 before any frame (R426, R441). -/
def shownCounts (s : State) : List U32 :=
  match s.field.newest with
  | none => List.replicate 16 0
  | some u => (List.range 16).map (fun n => u.counts.getD n 0 - s.field.cleared.getD n 0)

/-- The 232 bytes 0x4000 to 0x40E7 (R441). -/
def fieldBytes (s : State) : Bytes :=
  let x := s.field
  let u := x.newest.getD upFrame0
  n8 (if !x.linkUp then 0 else if u.status.getLsbD 3 then 2 else 1) ++ n8 x.laneDown ++ n8 x.laneUp ++ n8 x.spareLanes
    ++ n16 u.raw.toNat ++ n16 u.debounced.toNat ++ n16 u.chatter.toNat ++ [u.doApplied, x.sentCmd, u.doFault, u.pulling]
    ++ n8 (u.tp.toNat + 16 * u.tpMis.toNat) ++ n8 (u.status.toNat % 8 + flag (!x.linkUp) 3) ++ le32 (vFieldOf u) ++ le32 u.dieTemp
    ++ le32 x.framesOk ++ le32 x.crcErrors ++ le32 x.timeouts ++ zeros 12
    ++ (shownCounts s).flatMap le32 ++ u.freqs.flatMap le32 ++ u.freqStats.flatMap n8
    ++ u.currents.flatMap le32 ++ u.faultCodes.flatMap (fun c => n8 c.toNat)

/-- FIO_READ (R426): the fields, then the named counters are cleared. Before any uplink frame they are cleared as the first one
shows them. -/
def fioReadRun (s : State) (r : Req) : CardResult :=
  let p := reqParams r
  if p.length ≠ 4 ∨ !zeroAt p 2 2 then rejectWith E_PARAM
  else
    .done (match s.field.newest with
      | some u => updField (fun f => { f with cleared := f.cleared.mapIdx (fun n c => if (u16At p 0).getLsbD n then u.counts.getD n 0 else c) }) s
      | none => updField (fun f => { f with clearDue := f.clearDue ||| u16At p 0 }) s) (fieldBytes s)

def execFioRead (via : Transport) (s : State) : Host.Outcome State Fault Refusal :=
  .next (runCard (isOp 0x0B02#16) (safeCard inAll4 fioReadRun) via s)

end Sys2Proof.Machine
end

