-- ==== Sys2Proof/Machine/Form.lean ====
section
/-! DEFINITION. The forming family: kernel periods, what qualifies over them, and the FU_ cards (spec/11, spec/12). -/

namespace Sys2Proof.Machine

open Sys2Proof

/-! ### The forming range of the state image (R314, R340) -/

/-- Remaining time of a unit's shutdown in us (R309). -/
def fuLeft (s : State) (u : Nat) : Nat :=
  let x := getFu s u
  match x.shutting with
  | none => 0
  | some t =>
    let part (p rate : F32) : Rat := ratAbs (f32Val p) / f32Val x.port.sb / f32Val rate
    let a := max (part x.run.sp.work x.law.rampP) (part x.run.sq.work x.law.rampQ) + 16 / f32Val x.port.fk
    max 1 (min (ratCeil (a * 1000000)).toNat (ceilDiv (t + 2000000000 - s.time.raw) 1000))

/-- The 1,024 bytes of a unit. -/
def fuBytes (s : State) (u : Nat) : Bytes :=
  let x := getFu s u
  let r := x.run
  let c := x.port
  let on := x.mode ≠ .off
  let v (b : F32) : Bytes := le32 (if on then b else 0)
  let n (b : Nat) : Bytes := n32 (if on then b else 0)
  let tgt (k : Nat) (p : FuSet) (dflt : F32) : Bytes := le32 (if on then p.target else (x.stored.getD k none).getD dflt)
  let fv := fpVal (fmul r.w c.fn)
  let ran := x.tk.isSome
  let j := x.schedPub
  let next : Nat := if j.on then (stepNs j j.next).toNat else 0
  let dfl := flag x.present 0 + flag x.trk.locked 1 + (if on then flag r.permit 2 + flag r.islSince.isSome 3 + flag r.decay.isSome 4 + flag r.bsStalled 5 + flag j.paused 6 else 0)
  let hz (w : F32) : F32 := if ran then fpVal (fmul w c.fn) else 0
  n8 (fuCode x.mode) ++ n8 (x.feeding.getD 0xFF) ++ n8 (flag c.split 0) ++ [0] ++ v r.kernel ++ v (BitVec.ofNat 32 x.tkDom) ++ v x.tInt
    ++ v (angleOf r.theta) ++ v fv ++ v (fpVal (do fmul r.e (← vPeak c))) ++ v (fpVal (fmul r.pf c.sb)) ++ v (fpVal (fmul r.qf c.sb)) ++ le32 x.vm ++ le32 (hz x.pll.omega)
    ++ v r.sp.work ++ v r.sq.work ++ v r.sf.work ++ v r.sv.work ++ tgt 0 r.sp 0 ++ tgt 1 r.sq 0 ++ tgt 2 r.sf c.fn ++ tgt 3 r.sv c.vb ++ n32 (fuFlags x)
    ++ le32 x.feedGaps ++ le32 x.dropped ++ le32 x.clamps ++ le32 x.pllLosses ++ n32 (if on then fuLeft s u else 0) ++ zeros 28
    ++ n8 dfl ++ zeros 3 ++ le32 (hz x.trk.omega) ++ le32 x.vg ++ v (deltaTurns (deltaOf x.trk.theta r.theta)) ++ v r.k ++ v r.iMax ++ v x.rideEntries
    ++ n (min 0xFFFFFFFF (r.rideNs / 1000000)) ++ v x.permits ++ v x.islandings ++ v x.resSteps ++ v x.resSkipped ++ n (next / 1000000000) ++ n (next % 1000000000)
    ++ v r.fAvg ++ v r.vAvg ++ r.iHarm.flatMap v ++ zeros 52 ++ zeros 768

/-- Does a publication of t_pub still show a unit's range as its newest kernel period found it? That period was committed at or
after t_pub, or in the loop-island cycle of t_pub (R35). -/
def kernelLate (s : State) (tPub u : Nat) : Bool :=
  let x := getFu s u
  decide (x.endQ ≠ 0) && decide (4 * tPub / loopCyc s ≤ x.endQ / loopCyc s)

/-- A unit's range in a publication of t_pub (R35, R314). -/
def fuRange (s : State) (tPub u : Nat) : Bytes :=
  if (getFu s u).mode = .off then fuBytes s u else if kernelLate s tPub u then (getFu s u).prevBytes else (getFu s u).pubBytes

/-! ### KERNEL_END and what follows from it -/

/-- Post a period's events in order. -/
def postAll (u : Nat) (l : List (U16 × Bytes)) (s : State) : State := l.foldl (fun s e => post e.1 u e.2 s) s

/-- The nominal kernel interval in ns. -/
def nominalNs (c : PortConf) : Nat := (ratRound (1000000000 / f32Val c.fk)).toNat

/-- The first step of a schedule after an instant of its domain. -/
def stepAfter (c : FuSched) (now : Int) : Nat :=
  let a : Int := (c.anchor * 1000000000 : Nat)
  if now < a then 0 else ((now - a) / ((c.period * 1000000 : Nat) : Int)).toNat + 1

/-- A step is taken (R337): new offsets from the means of the 100 ms before it. Without a kernel period in that time the
spec states no mean; it is free. -/
def takeStep (s : State) (x : FormingUnit) (t : Int) : FormingUnit :=
  let c := x.sched
  let r := x.run
  let win := r.hist.filter (fun h => let d := domNs s c.domain h.1; decide (t - 100000000 ≤ d) && decide (d < t))
  let mean (l : List F32) (k : Nat) : F32 := if l.isEmpty then fpVal (fnorm (Config.libWord 0x140 [] [] [] 0 k)) else meanOf l
  let fAvg := mean (win.map (fun h => h.2.1)) 0
  let vAvg := mean (win.map (fun h => h.2.2)) 1
  let next (k old w avg lim : F32) : F32 :=
    fpVal do return fclamp (← fmul k (← fsub (← fadd old w) avg)) (fneg lim) lim
  { x with resSteps := x.resSteps + 1
           run := { r with fAvg := fAvg, vAvg := vAvg,
                           resMove := some { domain := c.domain, at_ := t, f0 := r.resF, f1 := next c.kf r.resF r.sf.work fAvg c.limF, v0 := r.resV, v1 := next c.kv r.resV r.sv.work vAvg c.limV } } }

/-- The kernel period that takes a step ends, in the mode that its requests have set (R307, R338): a step in ISLAND, else an
instant passed without one. -/
def takeDue (u : Nat) (s : State) : State :=
  let x := getFu s u
  let c := x.sched
  if !c.due then s
  else if !c.on ∨ c.paused then updFu u (fun y => { y with sched := { c with due := false } }) s
  else
    let y := if x.mode = .island then takeStep s x (stepNs c c.next) else { x with resSkipped := x.resSkipped + 1 }
    let s1 := updFu u (fun _ => { y with sched := { c with next := c.next + 1, resumed := false, due := false } }) s
    if c.resumed then post 0x0714#16 u (n8 c.domain ++ n8 1) s1 else s1

/-- The schedule at a kernel period: a paused one passes its instants, one that leaves OFF counts those that passed there
(R336, R338); a stopped domain is noted, and when it runs again the first instant after that is next, and the instants that
it jumped are counted (R339). -/
def followSchedule (s : State) (u : Nat) (first : Bool) (raw : Nat) : State :=
  let x := getFu s u
  let c := x.sched
  if !c.on then s
  else if !tdRunning (getTd s c.domain) then
    if c.halted then s else post 0x0714#16 u (n8 c.domain ++ n8 0) (updFu u (fun y => { y with sched := { c with halted := true, resumed := false } }) s)
  else
    let after := stepAfter c (domNs s c.domain raw)
    let j := max c.next after
    let passed (y : FormingUnit) : U32 := if c.paused then y.resSkipped else y.resSkipped + BitVec.ofNat 32 (j - c.next)
    if c.halted then updFu u (fun y => { y with resSkipped := passed y, sched := { c with halted := false, resumed := true, next := after } }) s
    else if c.paused ∨ first then updFu u (fun y => { y with resSkipped := passed y, sched := { c with next := j } }) s
    else s

/-- The unit's feeding stage is ENABLED (R290). -/
def feedEnabled (s : State) (x : FormingUnit) : Bool := match x.feeding with | some n => (getStage s n).st == .enabled | none => false
/-- The nominal feed interval lies within 10 % of 1 / f_k (R290). -/
def feedNominal (s : State) (x : FormingUnit) : Bool :=
  match x.feeding with
  | none => false
  | some n =>
    let g := stageGraph s n
    let t := getTimer s g.frameTimer
    let p := if t.slave then (getTimer s t.master).period else t.period
    let iv : Rat := (p : Rat) / 16 * (frameDiv g (p / 16) : Nat) * x.feedDiv
    let nom := 1000000000 / f32Val x.port.fk
    decide (nom * mkRat 9 10 ≤ iv) && decide (iv ≤ nom * mkRat 11 10)

/-- A kernel instant in the domain of the step under way, none while that domain is stopped (R337, R339). -/
def moveNow (s : State) (x : FormingUnit) (tk : Nat) : Option Int :=
  match x.run.resMove with
  | some m => if tdRunning (getTd s m.domain) then some (domNs s m.domain tk) else none
  | none => none

/-- A forming unit's period ends (R287, R291, R295): measurements, requests, the law or a monitor period. -/
def endPeriod (u : Nat) (feed : FuFeed) (s : State) : State :=
  let x := (getFu s u).nowReqs.foldl (fun (y : FormingUnit) r => match r with | .law c => { y with law := c } | .limits c => { y with lim := c } | _ => y) (getFu s u)
  let nominal := nominalNs x.port
  let since := if x.tk.isSome then feed.dom - x.tkDom else nominal
  let before := if x.mode = .off then fuBytes s u else x.pubBytes
  let pass (first : Bool) : FormingUnit × FuIn × F32 × F32 × FuAsk :=
    fpVal do
      let tns := if first then nominal else since
      let t ← if first then fdiv fOne x.port.fk else pure (toF32 (mkRat since 1000000000))
      let cap ← fdiv 0x40800000#32 x.port.fk
      let tc := fmin t cap
      let i ← readFeed x (first || x.mode != .off) feed.vals t
      let seen ← measureStep x i t tns feed.tk
      let ask := x.nowReqs.foldl (takeReq x (feedEnabled s x && feedNominal s x) feed.tk)
        { unit := { x with vm := seen.vm }, fresh := [none, none, none, none], events := [], back := false }
      let y ← measureStep { ask.unit with vm := x.vm } i t tns feed.tk
      return (y, i, t, tc, { ask with unit := y })
  let try1 := pass x.tk.isNone
  let leaves := x.mode = .off ∧ try1.2.2.2.2.unit.mode ≠ .off
  let tns := if leaves then nominal else since
  let (_, i, t, tc, ask) := if leaves then pass true else try1
  let y := ask.unit
  let lost := x.pll.locked && !y.pll.locked
  let y1 := { y with nowReqs := [], running := none, tk := some feed.tk, tkDom := feed.dom, tInt := t, pllLosses := if lost then y.pllLosses + 1 else y.pllLosses }
  let settleFeed (s : State) : State := match (getFu s u).waiting with | some f => fuStart u f s | none => s
  let s1 := postAll u ask.events s
  let lossEvent (s : State) : State := if lost then postMerge 0x0704#16 u (le32 y.pll.v) s else s
  if y.mode = .off then settleFeed (lossEvent (updFu u (fun _ => y1) s1))
  else
    let gap := decide (mkRat tns 1000000000 > 4 / f32Val y.port.fk)
    let s2 := followSchedule (takeDue u (updFu u (fun _ => y1) s1)) u leaves feed.tk
    let z := getFu s2 u
    let k := fpVal (kernelLaw x { z with gap := gap, feedGaps := if gap then z.feedGaps + 1 else z.feedGaps } ask.fresh ask.back i feed (moveNow s2 z feed.tk) tc tns)
    let s3 := updFu u (fun _ => { k.unit with schedPub := k.unit.sched, endQ := qNow s, prevBytes := before }) s2
    let s3 := updFu u (fun y => { y with pubBytes := fuBytes s3 u }) s3
    let s4 := if gap then postMerge 0x0701#16 u (n32 (tns / 1000)) s3 else s3
    let s5 := postAll u k.events (lossEvent s4)
    settleFeed (if k.ends then fuEnterOff u 0 none s5 else s5)

/-- KERNEL_END (R287, R288, R291): the running kernel or monitor period of a unit ends; a waiting feed starts the next. -/
def execKernelEnd (u : Nat) (s : State) : Host.Outcome State Fault Refusal :=
  .next (match (getFu s u).running with
    | none => s
    | some feed => endPeriod u feed s)

/-- FEED_TIMEOUT (R289): no feed for 16 / f_k. -/
def execFeedTimeout (u : Nat) (s : State) : Host.Outcome State Fault Refusal :=
  let x := getFu s u
  if x.mode = .off then .next s
  else
    let s1 := advanceTo (x.lastFeed + (ratCeil (16000000000 / f32Val x.port.fk)).toNat) s
    let s2 := fuEnterOff u 1 (some 1) (updFu u (fun y => { y with running := none, waiting := none }) s1)
    .next (if x.feeding.isNone then updFu u fuBlind s2 else s2)

/-- A condition has held from one kernel instant to the newest for a time in ns. -/
def heldFor (x : FormingUnit) (since : Option Nat) (ns : Rat) : Bool :=
  match since, x.tk with
  | some a, some b => decide ((((b - a : Nat) : Int) : Rat) ≥ ns)
  | _, _ => false
/-- A parameter in s as ns. -/
def nsParam (v : F32) : Rat := f32Val v * 1000000000

/-- PLL_LOCK_QUALIFIED (R299, R327): the criteria of a PLL have held for 10 ms; the tracker where `tracker`. -/
def execPllLockQualified (u : Nat) (tracker : Bool) (s : State) : Host.Outcome State Fault Refusal :=
  let x := getFu s u
  let p := if tracker then x.trk else x.pll
  if p.locked ∨ !heldFor x p.since 10000000 then .next s
  else
    let both := x.mode = .sync
    let lock (p : Pll) : Pll := { p with locked := true }
    .next (updFu u (fun y => { y with pll := if !tracker ∨ both then lock y.pll else y.pll, trk := if tracker ∨ both then lock y.trk else y.trk }) s)

/-- RIDE_EXIT (R321): the exit conditions have held for exit_time. -/
def execRideExit (u : Nat) (s : State) : Host.Outcome State Fault Refusal :=
  let x := getFu s u
  if x.mode = .off ∨ !x.run.ride ∨ !heldFor x x.run.exitSince (nsParam x.lim.exit) then .next s
  else .next (fuModeEvent u x.mode x.mode false 1 (updFu u (fun y => { y with run := { y.run with ride := false, exitSince := none, decay := x.tk } }) s))

/-- DECAY_END (R321): the raised impedance has decayed. -/
def execDecayEnd (u : Nat) (s : State) : Host.Outcome State Fault Refusal :=
  let x := getFu s u
  if x.run.ride ∨ !heldFor x x.run.decay (nsParam x.lim.exit) then .next s
  else .next (updFu u (fun y => { y with run := { y.run with decay := none } }) s)

/-- A unit enters ISLAND automatically (R326, R331). -/
def autoIsland (u : Nat) (s : State) : State :=
  let x := getFu s u
  fuModeEvent u x.mode .island x.run.ride 1 (updFu u (fun y => enterMode y y .island (y.tk.getD 0)) s)

/-- BLACK_START_END (R326): the bus has followed for 100 ms. -/
def execBlackStartEnd (u : Nat) (s : State) : Host.Outcome State Fault Refusal :=
  let x := getFu s u
  .next (if x.mode = .blackStart ∧ heldFor x x.run.bsSince 100000000 then autoIsland u s else s)

/-- BS_STALLED (R326): V_w has not reached its target 10 s after entry. -/
def execBsStalled (u : Nat) (s : State) : Host.Outcome State Fault Refusal :=
  let x := getFu s u
  if x.mode ≠ .blackStart ∨ x.run.bsStalled ∨ x.run.sv.work = x.run.sv.target ∨ !heldFor x (some x.run.bsEntry) 10000000000 then .next s
  else .next (post 0x0713#16 u (le32 x.vm ++ le32 x.run.sv.work) (updFu u (fun y => { y with run := { y.run with bsStalled := true } }) s))

/-- CLOSE_PERMIT (R329): the closing criteria have held for 40 ms. -/
def execClosePermit (u : Nat) (s : State) : Host.Outcome State Fault Refusal :=
  let x := getFu s u
  if x.run.permit ∨ !heldFor x x.run.closeSince 40000000 then .next s
  else .next (post 0x0710#16 u (n8 1 ++ zeros 3 ++ le32 (deltaTurns (deltaOf x.trk.theta x.run.theta)))
    (updFu u (fun y => { y with permits := y.permits + 1, run := { y.run with permit := true } }) s))

/-- ISLAND_DETECTED (R331): the frequency has been off for island_time. -/
def execIslandDetected (u : Nat) (s : State) : Host.Outcome State Fault Refusal :=
  let x := getFu s u
  if x.mode ≠ .form ∨ !heldFor x x.run.islSince (nsParam x.sync.islTime) then .next s
  else
    let s1 := post 0x0711#16 u (le32 (fpVal (fmul x.run.w x.port.fn)) ++ le32 x.run.kernel) (updFu u (fun y => { y with islandings := y.islandings + 1 }) s)
    .next (autoIsland u s1)

/-- FU_SHUTDOWN_TIMEOUT (R309): 2 s after a shutdown began. -/
def execFuShutdownTimeout (u : Nat) (s : State) : Host.Outcome State Fault Refusal :=
  match (getFu s u).shutting with
  | none => .next s
  | some t => .next (fuEnterOff u 0 none (advanceTo (t + 2000000000) s))

/-- RESTORATION_STEP (R336 to R339): the kernel period that runs is the first at or after the next step instant; it takes the
step, and its result shows when it ends (R340). -/
def execRestorationStep (u : Nat) (s : State) : Host.Outcome State Fault Refusal :=
  let x := getFu s u
  let c := x.sched
  match x.running with
  | none => .next s
  | some feed =>
    if x.mode = .off ∨ !c.on ∨ c.paused ∨ c.halted ∨ !tdRunning (getTd s c.domain) ∨ domNs s c.domain feed.tk < stepNs c c.next then .next s
    else .next (updFu u (fun y => { y with sched := { c with due := true } }) s)

/-! ### FU_CONFIG -/

/-- The kind byte of an FU_CONFIG. -/
def fuKind (r : Req) : Nat := n8At (reqParams r) 1
def isFuKind (k : Nat) (r : Req) : Bool := isOp 0x0700#16 r && decide ((reqParams r).length ≥ 2) && decide (fuKind r = k)
def isFuElse (r : Req) : Bool := isOp 0x0700#16 r && (decide ((reqParams r).length < 2) || !(([1, 2, 3] : List Nat).contains (fuKind r)))

/-- A kind that only an OFF unit takes. -/
def offKind (s : State) (u : Nat) (ok : Bool) (f : State → State) : CardResult :=
  if decide (u < 2) && (getFu s u).shutting.isSome then shuttingDown (fuLeft s u)
  else if decide (u < 2) && (getFu s u).mode != .off then rejectWith E_STATE
  else if !ok ∨ u ≥ 2 then rejectWith E_PARAM
  else .done (f s) []

/-- Kind 0: the port. -/
def fuPortRun (s : State) (r : Req) : CardResult :=
  let p := reqParams r
  let w (o : Nat) : F32 := u32At p o
  let ok := p.length = 36 ∧ n8At p 2 ≤ 1 ∧ byteAt p 3 = 0 ∧ zeroAt p 32 4 ∧ (w 4 = 0x42480000#32 ∨ w 4 = 0x42700000#32) ∧ f32In (w 8) 50 400
    ∧ f32In (w 12) 1000 200000 ∧ f32In (w 16) 10000 100000 ∧ f32In (w 20) (mkRat 1 2) 5 ∧ f32In (w 24) 1 (mkRat 13 10) ∧ f32In (w 28) 1 100
  if p.length < 2 ∨ n8At p 1 ≠ 0 then rejectWith E_PARAM
  else offKind s (n8At p 0) (decide ok) (fun s => enqueueParam (8 + n8At p 0) 9 (updFu (n8At p 0) (fun x => { x with
    port := { split := decide (n8At p 2 = 1), fn := w 4, vb := w 8, sb := w 12, fk := w 16, dfmax := w 20, emax := w 24, bpll := w 28 } }) s))

def execFuConfigPort (via : Transport) (s : State) : Host.Outcome State Fault Refusal :=
  .next (paramRow isFuElse (graphCard fuPortRun) via s)

/-- A request of a unit enters the parameter queue and waits for its next kernel period; an OFF unit takes it at once. -/
def fuEnqueue (u words : Nat) (q : FuReq) (s : State) : State :=
  let s1 := enqueueParam (8 + u) words s
  if (getFu s u).mode = .off ∧ (getFu s u).reqs.isEmpty ∧ (getFu s u).nowReqs.isEmpty then fuLeftOver u q s1
  else updFu u (fun x => { x with reqs := x.reqs ++ [q] }) s1

/-- Kind 1: the law. -/
def fuLawRun (s : State) (r : Req) : CardResult :=
  let p := reqParams r
  let w (o : Nat) : F32 := f32Param (u32At p o)
  let half := mkRat 1 2
  let ok := p.length = 64 ∧ n8At p 0 < 2 ∧ n8At p 2 ≤ 1 ∧ byteAt p 3 = 0 ∧ zeroAt p 56 8 ∧ f32In (u32At p 4) (mkRat 5 100) 30 ∧ f32In (u32At p 8) 0 200
    ∧ f32In (u32At p 12) (mkRat 1 10) 10 ∧ f32In (u32At p 16) (mkRat 1 10) 20 ∧ f32In (u32At p 20) 0 half ∧ f32In (u32At p 24) 0 half ∧ f32In (u32At p 28) 0 half
    ∧ f32In (u32At p 32) (mkRat 2 10000) (mkRat 1 10) ∧ f32In (u32At p 36) (mkRat 2 10000) (mkRat 1 10) ∧ f32In (u32At p 40) (mkRat 1 1000) 100
    ∧ f32In (u32At p 44) (mkRat 1 1000) 100 ∧ f32In (u32At p 48) (mkRat 1 100) 10 ∧ f32In (u32At p 52) (mkRat 1 100) 10
  if !decide ok then rejectWith E_PARAM
  else .done (fuEnqueue (n8At p 0) 16 (.law {
    avg := decide (n8At p 2 = 1), h := w 4, d := w 8, mp := w 12, nq := w 16, rv := w 20, xv := w 24, rv0 := w 28, taup := w 32
    tauq := w 36, rampP := w 40, rampQ := w 44, rampF := w 48, rampV := w 52 }) s) []

def execFuConfigLaw (via : Transport) (s : State) : Host.Outcome State Fault Refusal :=
  .next (paramRow (isFuKind 1) (graphCard fuLawRun) via s)

/-- Kind 2: limits and sharing. -/
def fuLimRun (s : State) (r : Req) : CardResult :=
  let p := reqParams r
  let w (o : Nat) : F32 := f32Param (u32At p o)
  let ok := p.length = 40 ∧ n8At p 0 < 2 ∧ n8At p 2 ≤ 1 ∧ byteAt p 3 = 0 ∧ zeroAt p 32 8 ∧ f32In (u32At p 4) 1 2 ∧ f32In (u32At p 8) 0 1 ∧ f32In (u32At p 12) 0 1
    ∧ f32In (u32At p 16) (mkRat 1 1000) 1 ∧ f32In (u32At p 20) 0 1 ∧ f32In (u32At p 24) 0 1 ∧ f32In (u32At p 28) 0 1
  if !decide ok then rejectWith E_PARAM
  else .done (fuEnqueue (n8At p 0) 10 (.limits {
    freeze := decide (n8At p 2 = 1), ilim := w 4, rride := w 8, xride := w 12, exit := w 16, rh3 := w 20, rh5 := w 24
    rh7 := w 28 }) s) []

def execFuConfigLimits (via : Transport) (s : State) : Host.Outcome State Fault Refusal :=
  .next (paramRow (isFuKind 2) (graphCard fuLimRun) via s)

/-- Kind 3: synchronisation, islanding and black start. -/
def fuSyncRun (s : State) (r : Req) : CardResult :=
  let p := reqParams r
  let w (o : Nat) : F32 := u32At p o
  let ok := p.length = 40 ∧ n8At p 2 ≤ 1 ∧ byteAt p 3 = 0 ∧ zeroAt p 32 8 ∧ f32In (w 4) (mkRat 1 100) (mkRat 1 2) ∧ f32In (w 8) (mkRat 1 1000) (mkRat 1 10)
    ∧ f32In (w 12) (mkRat 5 1000) (mkRat 1 10) ∧ f32In (w 16) (mkRat 1 10) 2 ∧ f32In (w 20) (mkRat 1 100) 2 ∧ f32In (w 24) (mkRat 1 10) 50
    ∧ f32In (w 28) (mkRat 2 100) (mkRat 3 10)
  offKind s (n8At p 0) (decide ok) (fun s => enqueueParam (8 + n8At p 0) 10 (updFu (n8At p 0) (fun x => { x with
    sync := { islAuto := decide (n8At p 2 = 1), closeDf := w 4, closeDth := w 8, closeDv := w 12, islDf := w 16, islTime := w 20, bsRate := w 24, bsDead := w 28 } }) s))

def execFuConfigSync (via : Transport) (s : State) : Host.Outcome State Fault Refusal :=
  .next (paramRow (isFuKind 3) (graphCard fuSyncRun) via s)

/-! ### FU_MODE, FU_SETPOINT, FU_SCHEDULE -/

/-- A mode of a code. -/
def fuModeOf (n : Nat) : Option FuMode :=
  match n with | 0 => some .off | 1 => some .follow | 2 => some .sync | 3 => some .form | 4 => some .island | 5 => some .blackStart | _ => none

/-- The kernel index of the first kernel period that starts after now. -/
def nextKernel (x : FormingUnit) : U32 :=
  let leaving := x.nowReqs.any (fun r => match r with | .mode _ => true | _ => false)
  if x.mode = .off then (if x.running.isSome ∧ leaving then 1 else 0)
  else x.run.kernel + 1 + (if x.running.isSome then 1 else 0)

/-- A transition that FU_MODE may ask for at once (R308): the closing and dead-bus criteria are left to the kernel period. -/
def modeListed (x : FormingUnit) (m : FuMode) : Bool :=
  match m, x.mode with
  | .follow, .off => x.pll.locked
  | .follow, .form => x.pll.locked
  | .sync, .off => true
  | .sync, .island => true
  | .form, .off => x.pll.locked
  | .form, .follow => x.pll.locked
  | .form, .sync => true
  | .form, .island => true
  | .island, .form => true
  | .island, .blackStart => true
  | .blackStart, .off => !x.pll.locked
  | _, _ => false

/-- A target other than OFF that the state of the unit or of its feeding stage refuses (R290, R308). -/
def modeRefused (s : State) (x : FormingUnit) (m : FuMode) : Bool :=
  m != .off && (!modeListed x m || (x.mode == .off && !feedEnabled s x))

/-- FU_MODE's reply. -/
def fuModeReply (s : State) (u : Nat) (apply : U32) : Bytes :=
  n8 (fuCode (getFu s u).mode) ++ n8 (fuFlags (getFu s u)) ++ [0, 0] ++ le32 apply

def fuModeRun (s : State) (r : Req) : CardResult :=
  let p := reqParams r
  let u := n8At p 0
  let x := getFu s u
  let m? := fuModeOf (n8At p 1)
  if m? ≠ some .off ∧ s.sys.dev ≠ .run then rejectWith E_STATE
  else if m? ≠ some .off ∧ u < 2 ∧ x.shutting.isSome then shuttingDown (fuLeft s u)
  else if u < 2 ∧ m?.any (modeRefused s x) then rejectWith E_STATE
  else if p.length ≠ 4 ∨ u ≥ 2 ∨ !zeroAt p 2 2 then rejectWith E_PARAM
  else match m? with
  | none => rejectWith E_PARAM
  | some m =>
    if m = .off then
      if x.mode = .off then .done (enqueueParam (8 + u) 1 s) (fuModeReply s u 0xFFFFFFFF#32)
      else if x.shutting.isSome then .done (enqueueParam (8 + u) 1 s) (fuModeReply s u (nextKernel x))
      else
        let s1 := enqueueParam (8 + u) 1 (updFu u (fun x => { x with shutting := some s.time.raw, reqs := x.reqs ++ [.off] }) s)
        .done s1 (fuModeReply s1 u (nextKernel x))
    else if x.mode = .off ∧ !feedNominal s x then rejectWith E_PARAM
    else if !pllLocked s 0 then rejectWith E_NOT_READY
    else .done (enqueueParam (8 + u) 1 (updFu u (fun x => { x with reqs := x.reqs ++ [.mode m] }) s)) (fuModeReply s u (nextKernel x))

def execFuMode (via : Transport) (s : State) : Host.Outcome State Fault Refusal :=
  .next (paramRow (isOp 0x0701#16) (graphCard fuModeRun) via s)

def fuSetpointRun (s : State) (r : Req) : CardResult :=
  let p := reqParams r
  let u := n8At p 0
  let x := getFu s u
  let c := x.port
  let w (o : Nat) : F32 := f32Param (u32At p o)
  let sb := f32Val c.sb
  let ok := p.length = 20 ∧ u < 2 ∧ 1 ≤ n8At p 1 ∧ n8At p 1 ≤ 15 ∧ zeroAt p 2 2 ∧ f32In (u32At p 4) (-sb) sb ∧ f32In (u32At p 8) (-sb) sb
    ∧ f32In (u32At p 12) (f32Val c.fn - f32Val c.dfmax) (f32Val c.fn + f32Val c.dfmax) ∧ f32In (u32At p 16) (f32Val c.vb * mkRat 8 10) (f32Val c.vb * mkRat 11 10)
  if u < 2 ∧ x.shutting.isSome then shuttingDown (fuLeft s u)
  else if !decide ok then rejectWith E_PARAM
  else
    let apply := if x.mode = .off then 0xFFFFFFFF#32 else nextKernel x
    .done (fuEnqueue u 5 (.setp (n8At p 1) [w 4, w 8, w 12, w 16]) s) (le32 apply)

def execFuSetpoint (via : Transport) (s : State) : Host.Outcome State Fault Refusal :=
  .next (paramRow (isOp 0x0702#16) (graphCard fuSetpointRun) via s)

def fuScheduleRun (s : State) (r : Req) : CardResult :=
  let p := reqParams r
  let u := n8At p 0
  let x := getFu s u
  let w (o : Nat) : F32 := f32Param (u32At p o)
  let ok := p.length = 28 ∧ u < 2 ∧ n8At p 1 ≤ 1 ∧ n8At p 2 ≤ 3 ∧ byteAt p 3 = 0 ∧ 100 ≤ n32At p 8 ∧ n32At p 8 ≤ 600000 ∧ f32In (u32At p 12) 0 1 ∧ f32In (u32At p 16) 0 1
    ∧ f32In (u32At p 20) 0 2 ∧ f32In (u32At p 24) 0 (f32Val x.port.vb / 10)
  if u < 2 ∧ x.shutting.isSome then shuttingDown (fuLeft s u)
  else if !decide ok then rejectWith E_PARAM
  else if !tdRunning (getTd s (n8At p 2)) then rejectWith E_NOT_READY
  else
    let c0 : FuSched := { on := true, paused := false, domain := n8At p 2, anchor := n32At p 4, period := n32At p 8, kf := w 12, kv := w 16, limF := w 20, limV := w 24,
                          next := 0, halted := false, resumed := false, due := false }
    let now := domNs s c0.domain s.time.raw
    let j := stepAfter c0 now
    let first := if j > 0 ∧ stepNs c0 (j - 1) = now then j - 1 else j
    let c := if n8At p 1 = 1 then { c0 with next := first } else { x.sched with paused := x.sched.on }
    .done (enqueueParam (8 + u) 7 (updFu u (fun y => { y with sched := c }) s)) []

def execFuSchedule (via : Transport) (s : State) : Host.Outcome State Fault Refusal :=
  .next (paramRow (isOp 0x0703#16) (graphCard fuScheduleRun) via s)

end Sys2Proof.Machine
end

