-- ==== Sys2Proof/Machine/Sage.lean ====
section
/-! DEFINITION. The Sage family (spec/20). -/

namespace Sys2Proof.Machine

open Sys2Proof

/-- Sage meters now. -/
def sageRuns (s : State) : Bool := s.sage.phase == .metering && !s.sage.clockFail && !s.sage.retention

/-! ### Supply, reset, clock (R501 to R504) -/

/-- A level of VDD_SAGE in V that has held for a time in ns acts from 1 us on (R501). -/
def sageLevel (beyond : Bool) (v : F32) (held : Nat) : Bool := beyond && !f32Bad v && decide (1000 ≤ held)
/-- VDD_SAGE is at or beyond its levels: warning, its release, reset, its release (R501). -/
def sageWarns (v : F32) : Bool := decide (f32Val v ≤ 295 / 100)
def sageWarnOver (v : F32) : Bool := decide (3 ≤ f32Val v)
def sageLow (v : F32) : Bool := decide (f32Val v ≤ 27 / 10)
def sageLowOver (v : F32) : Bool := decide (285 / 100 ≤ f32Val v)

/-- SAGE_SUPPLY_WARN (R501, R517): at a crystal count, VDD_SAGE has been at v for a time; the running window closes, with the bits
of its inputs, once metering has started. -/
def execSageSupplyWarn (at_ : Nat) (v : F32) (held : Nat) (bits : List (List Bool)) (s : State) : Host.Outcome State Fault Refusal :=
  let x := s.sage
  if x.supplyWarn ∨ !sageLevel (sageWarns v) v held then .next s
  else
    let s1 := updSage (fun x => { x with supplyWarn := true }) s
    if x.phase = .inReset then .next s1
    else
      let s2 := if x.phase = .metering then sageAdvance (min at_ ((x.windowStart / windowTicks + 1) * windowTicks)) s1 else s1
      let s3 := if sageRuns s2 then sagePublish (sageMeasure bits (s2.sage.ticks - x.windowStart) s2) else s2
      .next (checkpointDue 1 false (sagePost false 0x0E04#16 (le32 v) s3))

/-- SAGE_SUPPLY_WARN_RELEASE (R501). -/
def execSageSupplyWarnRelease (v : F32) (held : Nat) (s : State) : Host.Outcome State Fault Refusal :=
  .next (if sageLevel (sageWarnOver v) v held then updSage (fun x => { x with supplyWarn := false }) s else s)

/-- SAGE_RESET (R501, R503, R520): on the supply, or for a change of seal state that is due; a new seal writes its generation. -/
def execSageReset (forSeal : Bool) (v : F32) (held : Nat) (s : State) : Host.Outcome State Fault Refusal :=
  if !forSeal then .next (if sageLevel (sageLow v) v held then sageResets false s else s)
  else match s.sage.sealOp with
    | none => .next s
    | some (.newSeal g p h a) =>
      let e := slice p 0 128 ++ slice h 0 32 ++ slice a 0 32 ++ le32 s.sage.counter
      .next (sageResets true (otpProgram (sageBlockAt + 0xA0 + 200 * g) (e ++ le32 (crc32c e)) s))
    | some _ => .next (sageResets true s)

/-- Rows of Sage memory that the OTP records as retired (R521). -/
def sageRows (s : State) : List (Nat × Nat × Option Nat) :=
  (List.range 16).filterMap (fun i =>
    let e := n32At (memReadBytes s.rel.otp (sageBlockAt + 0x3C0 + 4 * i) 4) 0
    if e / 2 ^ 24 = 0x5A then some (108 + e / 2 ^ 22 % 4, e / 2 ^ 13 % 512, some (e / 2 ^ 11 % 4)) else none)

/-- Sage's private key and its public key, from its key area (R521). -/
def sagePrivate (s : State) : Nat := beNat (memReadBytes s.rel.otp sageBlockAt 32)
def sagePublic (s : State) : Bytes := memReadBytes s.rel.otp (sageBlockAt + 0x20) 64
/-- The key area is written at the first start (R515, R521): which private key is made is open, its public key follows from it, and
the bytes of the vendor's certificate are open. -/
def sageKeys (s : State) : State :=
  if (memReadBytes s.rel.otp sageBlockAt 160).any (· != 0) then s
  else
    let (b, s1) := drawBytes 32 s
    let d := ecScalar p256c b
    let (cert, s2) := drawBytes 64 s1
    otpProgram sageBlockAt (beBytes 32 d ++ ecPublic p256c d ++ cert) s2

/-- SAGE_RESET_RELEASE (R501, R503, R520, R521, R523): the seal that a lifecycle transition demands to break breaks here at the latest. -/
def execSageResetRelease (v : F32) (held : Nat) (s : State) : Host.Outcome State Fault Refusal :=
  if s.sage.phase ≠ .inReset ∨ !sageLevel (sageLowOver v) v held then .next s
  else
    let s1 := sageKeys { s with rel := { s.rel with rows := s.rel.rows.filter (fun r => r.1 < 108) ++ sageRows s } }
    let (boot, s2) := drawBytes 8 s1
    let op := s.sage.sealOp
    let failed := s.sage.sealState == .isSealed && (match sealNewestWritten s2 with | some g => !sealValid s2 g | none => true)
    let st : SealState := if failed ∨ op = some .breakLifecycle then .broken else s.sage.sealState
    let moved := failed || op.isSome
    let params := (sealGen s2).map (fun g => (sealEntry s2 g).take 128)
    let s3 := updSage (fun x => { x with phase := .released, bootId := boot, notRestored := true, sealState := st, sealOp := none, params := params
                                         counter := if moved then storedCounter s2 + 1 else storedCounter s2 }) s2
    let s4 := sageLog 0x0E00#16 (n8 s.sage.resetCause ++ n8 (sealCode st) ++ [0, 0] ++ le32 s3.sage.counter) s3
    let cause := match op with | some .breakLifecycle => 2 | some _ => if failed then 1 else 0 | none => 1
    let s5 := if moved then
        checkpointDue 3 false (sageLog 0x0E02#16 (n8 (sealCode (if op.isSome then s.sage.sealWas else s.sage.sealState)) ++ n8 (sealCode st) ++ n8 (sealGenByte s4) ++ n8 cause) s4)
      else s4
    .next (match op with
      | some (.newSeal ..) => endLong 0x0E05#16 2 OK (n8 (sealGenByte s5) ++ zeros 3) s5
      | some .breakToken => endLong 0x0E05#16 3 OK [] s5
      | _ => s5)

/-- SAGE_METERING_START (R503). -/
def execSageMeteringStart (s : State) : Host.Outcome State Fault Refusal :=
  if s.sage.phase ≠ .released then .next s
  else .next (updSage (fun x => { sageOpen x with phase := .metering, quarter := x.time / 24576 / 900000000000 }) s)

/-- SAGE_CLOCK_LOST (R504). -/
def execSageClockLost (s : State) : Host.Outcome State Fault Refusal :=
  if s.sage.phase = .inReset ∨ s.sage.clockFail then .next s
  else
    let stop (x : Sage) : Sage := { x with clockFail := true, failSince := true, pulse := false, pulseOn := x.pulseOn && !x.pulseStops, pulseStops := false }
    .next (sageLog 0x0E08#16 [0] (updSage stop s))

/-- SAGE_CLOCK_RESTORED (R504). -/
def execSageClockRestored (s : State) : Host.Outcome State Fault Refusal :=
  if !s.sage.clockFail then .next s else .next (sageLog 0x0E08#16 [1] (updSage (fun x => { x with clockFail := false }) s))

/-! ### Windows, pulses, activity (R507, R508, R511 to R514, R517) -/

/-- SAGE_WINDOW_END (R506 to R508, R517, R527): the running window reaches the next 200 ms boundary, with the bits of its inputs. -/
def execSageWindowEnd (bits : List (List Bool)) (s : State) : Host.Outcome State Fault Refusal :=
  if !sageRuns s then .next s
  else
    let x := s.sage
    let s1 := sageAdvance ((x.windowStart / windowTicks + 1) * windowTicks) s
    let s2 := sagePublish (sageMeasure bits (s1.sage.ticks - x.windowStart) s1)
    .next (if x.supplyWarn then checkpointDue 1 false s2 else s2)

/-- Energy of one impulse times pulse_const, in the accumulator's units, and the width in ticks (R512). -/
def impulseUnits : Nat := 1000000 * 2 ^ 32
def pulseTicks (b : Bytes) : Nat := ticksOf (f32Val (u32At b 8) * 1000000000)

/-- PULSE_EMIT (R512): energy for an impulse is due, none is in progress, and 2 x pulse_width have passed. -/
def execPulseEmit (s : State) : Host.Outcome State Fault Refusal :=
  let x := s.sage
  match x.params with
  | none => .next s
  | some b =>
    if x.phase ≠ .metering ∨ x.clockFail ∨ !x.pulseOn ∨ x.pulseStops ∨ x.pulse ∨ x.pulseAcc * n32At b 4 < impulseUnits then .next s
    else
      let s1 := sageAdvance (match x.pulseStart with | some t => t + 2 * pulseTicks b | none => 0) s
      .next (updSage (fun y => { y with pulse := true, pulseStart := some y.ticks, pulseAcc := y.pulseAcc - impulseUnits / n32At b 4 }) s1)

/-- PULSE_END (R512): pulse_width after its start; a shutdown of MPULSE ends with it. -/
def execPulseEnd (s : State) : Host.Outcome State Fault Refusal :=
  let x := s.sage
  match x.pulse, x.params, x.pulseStart with
  | true, some b, some t =>
    .next (updSage (fun y => { y with pulse := false, pulseOn := y.pulseOn && !y.pulseStops, pulseStops := false }) (sageAdvance (t + pulseTicks b) s))
  | _, _, _ => .next s

/-- RETENTION_ENTRY (R513): 10 s after the last condition of ACTIVE ended. -/
def execRetentionEntry (s : State) : Host.Outcome State Fault Refusal :=
  let x := s.sage
  if !sageRuns s ∨ x.hostActive ∨ x.hostEnded ∨ x.ticks ≤ x.lastActive then .next s
  else .next (updSage (fun y => { y with retention := true }) (sageAdvance (x.lastActive + 983040000) s))

/-- RETENTION_PROBE (R513): every 20 ms; a condition of ACTIVE found starts a window. -/
def execRetentionProbe (found : Bool) (s : State) : Host.Outcome State Fault Refusal :=
  if s.sage.phase ≠ .metering ∨ !s.sage.retention then .next s
  else
    let s1 := sageAdvance ((s.sage.ticks / 1966080 + 1) * 1966080) s
    .next (if found then updSage (fun y => { sageOpen y with retention := false }) s1 else s1)

/-! ### Tie-points and Sage time (R505, R524, R525) -/

/-- SAGE_TIE_POINT (R505, R524, R525): a tie-point, stamped with a crystal count; pending SAGE_SET_TIME requests compare. -/
def execSageTiePoint (count : Nat) (s : State) : Host.Outcome State Fault Refusal :=
  if s.sage.phase = .inReset ∨ s.sys.phase = .inReset then .next s
  else
    let s1 := updSage (fun x => { x with fromCrystal := false, setTime := [] }) (sageAdvance count s)
    let one (s : State) (d : Nat) : State :=
      let t := domTime (getTd s d) s.time.raw / ns1
      let off : Int := t - (sageNs s : Int)
      if off.natAbs ≤ 2000000000 then
        endLong 0x0E02#16 0 OK (i64b off ++ n8 0 ++ zeros 3) (updSage (fun x => { x with slewLeft := off * 24576 }) s)
      else if s.sage.sealState == .isSealed && (match s.sage.lastStep with | some u => decide (sageNs s < u + 86400000000000) | none => false) then
        endLong 0x0E02#16 0 E_SEALED [] s
      else
        let s2 := updSage (fun x => { x with time := t.toNat * 24576, slewLeft := 0, counter := x.counter + 1, lastStep := some t.toNat, quarter := t.toNat / 900000000000 }) s
        endLong 0x0E02#16 0 OK (i64b off ++ n8 1 ++ zeros 3) (checkpointDue 3 false (sageLog 0x0E05#16 (i64b off) s2))
    .next (s.sage.setTime.foldl one s1)

/-- TIE_POINTS_STOPPED (R505): the control die is in reset. -/
def execTiePointsStopped (s : State) : Host.Outcome State Fault Refusal :=
  if s.sys.phase = .inReset then .next (updSage (fun x => { x with fromCrystal := true }) s) else .next s

/-! ### Checkpoints and signing (R515 to R517) -/

/-- CHECKPOINT_DUE (R517): Sage time reaches the next whole quarter-hour. -/
def execCheckpointDue (s : State) : Host.Outcome State Fault Refusal :=
  if s.sage.phase ≠ .metering ∨ s.sage.clockFail then .next s
  else
    let due := (s.sage.quarter + 1) * 900000000000
    let s1 := sageAdvance (s.sage.ticks + ticksFor s.sage.slewLeft (due * 24576 - s.sage.time)) s
    .next (checkpointDue 0 false (updSage (fun x => { x with quarter := x.time / 24576 / 900000000000 }) s1))

/-- SIGNING_DONE (R515 to R517): signed with Sage's private key; the number that this one signature uses is open. -/
def execSigningDone (s : State) : Host.Outcome State Fault Refusal :=
  match s.sage.signing with
  | [] => .next s
  | j :: t =>
    match j.body with
    | none => .next s
    | some b =>
      let (k, s1) := drawBytes 32 s
      let rec_ := b ++ ecdsaSign p256c (sagePrivate s) (ecScalar p256c k) (sha256 b)
      let s2 := sagePublish (updSage (fun x => { x with signing := t, checkpoint := if j.checkpoint then rec_ else x.checkpoint, record := if j.checkpoint then x.record else rec_ }) s1)
      let s3 := if j.checkpoint then sagePost true 0x0E03#16 (slice b 8 4 ++ n8 j.trigger) s2 else s2
      .next (startSigning (if j.asked then endLong 0x0E01#16 0 OK rec_ s3 else s3))

/-! ### Cards -/

/-- What a card answers while Sage is in reset: nothing is carried out. What it rejects for its parameters, a lost resource or a
busy function comes first, then E_NOT_READY (R55, steps 10 to 14); nobody knows the seal or the log meanwhile (log 197). -/
def sageInReset (c : CardResult) : CardResult :=
  match c with
  | .reject st _ | .failed _ st _ => if st = E_PARAM ∨ st = E_RESOURCE ∨ st = E_BUSY then rejectWith st else rejectWith E_NOT_READY
  | _ => rejectWith E_NOT_READY

/-- A card that Sage answers. -/
def sageCard (f : State → Req → CardResult) : Card :=
  { lifecycle := fun _ _ => true, allowed := inAll4, run := fun s r => if s.sage.phase = .inReset then sageInReset (f s r) else f s r }

def sageReadRun (s : State) (r : Req) : CardResult :=
  if (reqParams r).length ≠ 0 then rejectWith E_PARAM else .done s (slice s.sage.area 0 204)

def execSageRead (via : Transport) (s : State) : Host.Outcome State Fault Refusal :=
  .next (runCard (isOp 0x0E00#16) (sageCard sageReadRun) via s)

def signedRecordRun (s : State) (r : Req) : CardResult :=
  let p := reqParams r
  let cp := decide (n8At p 0 = 1)
  if p.length ≠ 36 ∨ n8At p 0 > 1 ∨ !zeroAt p 1 3 ∨ (cp ∧ !zeroAt p 4 32) then rejectWith E_PARAM
  else if classFull s 0x0E01#16 then rejectWith E_BUSY
  else if s.sage.clockFail then rejectWith E_NOT_READY
  else .long (queueSigning { checkpoint := cp, host := slice p 4 32, trigger := 2, asked := true, body := none } s) 0 []

def execSageSignedRecord (via : Transport) (s : State) : Host.Outcome State Fault Refusal :=
  .next (runCard (isOp 0x0E01#16) (sageCard signedRecordRun) via s)

def setTimeRun (s : State) (r : Req) : CardResult :=
  let p := reqParams r
  let d := n8At p 0
  if p.length ≠ 4 ∨ d > 3 ∨ !zeroAt p 1 3 then rejectWith E_PARAM
  else if classFull s 0x0E02#16 then rejectWith E_BUSY
  else if !tdRunning (getTd s d) then rejectWith E_NOT_READY
  else .long (updSage (fun x => { x with setTime := x.setTime ++ [d] }) s) 0 []

def execSageSetTime (via : Transport) (s : State) : Host.Outcome State Fault Refusal :=
  .next (runCard (isOp 0x0E02#16) (sageCard setTimeRun) via s)

def eventLogRun (s : State) (r : Req) : CardResult :=
  let p := reqParams r
  let oldest := s.sage.logNext - s.sage.log.length
  let n := n8At p 4
  if p.length ≠ 8 ∨ !zeroAt p 5 3 ∨ n = 0 ∨ n > 63 ∨ s.sage.phase ≠ .inReset ∧ n32At p 0 ≥ s.sage.logNext then rejectWith E_PARAM
  else
    let es := (s.sage.log.drop (n32At p 0 - oldest)).take n
    .done s (n8 es.length ++ zeros 3 ++ n32 oldest ++ es.flatMap (fun e => le64 e.time ++ le16 e.code ++ [0, 0] ++ le32 e.counter))

def execSageEventLog (via : Transport) (s : State) : Host.Outcome State Fault Refusal :=
  .next (runCard (isOp 0x0E03#16) (sageCard eventLogRun) via s)

/-! ### Restore (R518, R519) -/

/-- SAGE_RESTORE (R518). -/
def restoreRun (s : State) (r : Req) : CardResult :=
  let p := reqParams r
  let refuse (st : U16) : CardResult := .failed (sagePost false 0x0E07#16 (n8 (st.toNat % 256) ++ zeros 3 ++ slice p 8 4) s) st []
  let x := s.sage
  let ok := ecdsaOk p256c (sagePublic s) (sha256 (slice p 0 192)) (slice p 192 64) && u32At p 0 == 0x52535A4F#32 && decide (n8At p 4 = 1) && slice p 24 16 == uidBytes s && decide (n8At p 6 = sealGenByte s)
    && decide (n32At p 8 ≥ odometer s * 2 ^ 20) && slice p 184 8 != x.bootId
  if x.restored then refuse E_STATE
  else if p.length ≠ 256 then refuse E_PARAM
  else if x.sealState = .broken then refuse E_SEALED
  else if odometer s ≥ 2048 then refuse E_RESOURCE
  else if classFull s 0x0E04#16 then refuse E_BUSY
  else if !ok then refuse E_VERIFY
  else .long (updSage (fun x => { x with restored := true, restoring := some p }) s) 0 []

def execSageRestore (via : Transport) (s : State) : Host.Outcome State Fault Refusal :=
  .next (runCard (isOp 0x0E04#16) (sageCard restoreRun) via s)

/-- SAGE_RESTORE_DONE (R519). No command lowers the counter, and a restore raises it (R523). -/
def execSageRestoreDone (s : State) : Host.Outcome State Fault Refusal :=
  match s.sage.restoring with
  | none => .next s
  | some p =>
    let s1 := odometerStep s
    let add := (List.range 10).map (fun i => BitVec.ofNat 96 (n64At p (40 + 8 * i) * 2 ^ 32))
    let s2 := updSage (fun x => { x with restoring := none, notRestored := false, counter := (if x.counter ≤ u32At p 12 then u32At p 12 else x.counter) + 1, n := 0, copies := List.replicate 3 (((sageRegs x).zip add).map (fun r => r.1 + r.2)) }) s1
    let s3 := checkpointDue 3 false (sageLog 0x0E01#16 (slice p 8 4 ++ le32 s2.sage.counter) s2)
    .next (endLong 0x0E04#16 0 OK (le32 s3.sage.counter ++ n16 (odometer s3) ++ [0, 0]) s3)

/-! ### The seal (R511, R512, R520, R522) -/

def sealAction (r : Req) : Nat := n8At (reqParams r) 0
/-- A SAGE_SEAL request of one action. -/
def isSeal (a : Nat) (r : Req) : Bool := isOp 0x0E05#16 r && decide ((reqParams r).length ≥ 1) && decide (sealAction r = a)
/-- Query, and every request whose action the card does not name. -/
def isSealElse (r : Req) : Bool := isOp 0x0E05#16 r && (decide ((reqParams r).length = 0) || decide (sealAction r = 0) || decide (sealAction r > 5))

def sealQueryRun (s : State) (r : Req) : CardResult :=
  let p := reqParams r
  if p.length ≠ 4 ∨ !zeroAt p 0 4 then rejectWith E_PARAM
  else
    let (nonce, s1) := drawBytes 16 s
    .done (updSage (fun x => { x with nonce := some (nonce, x.ticks) }) s1) (n8 (sealCode s.sage.sealState) ++ n8 (sealGenByte s) ++ n8 (gensLeft s) ++ [0] ++ nonce ++ uidBytes s)

def execSageSealQuery (via : Transport) (s : State) : Host.Outcome State Fault Refusal :=
  .next (runCard isSealElse (sageCard sealQueryRun) via s)

def sealLoadRun (s : State) (r : Req) : CardResult :=
  let p := reqParams r
  if p.length ≠ 132 ∨ !zeroAt p 1 3 ∨ !sageBlockOk (slice p 4 128) then rejectWith E_PARAM
  else if s.sage.sealState = .isSealed then rejectWith E_SEALED
  else .done (updSage (fun x => { x with next := some (slice p 4 128) }) s) (sha256 (slice p 4 128))

def execSageSealLoadParameters (via : Transport) (s : State) : Host.Outcome State Fault Refusal :=
  .next (runCard (isSeal 1) (sageCard sealLoadRun) via s)

/-- A token's checks but its signature (R522): nonce, action, generation, parameter hash. -/
def tokenOk (s : State) (t : Bytes) (action gen : Nat) (hash : Bytes) : Bool :=
  (match s.sage.nonce with | some (n, _) => slice t 0 16 == n | none => false) && decide (n8At t 16 = action) && decide (n8At t 17 = gen) && slice t 20 32 == hash
/-- The hash of what a seal token's signature covers (R522). -/
def tokenHash (s : State) (t : Bytes) : Bytes := sha256 ([0x4F#8, 0x5A, 0x53, 0x47] ++ uidBytes s ++ slice t 0 116)
/-- A seal token is signed by the key whose hash the newest generation holds, or for the first seal by the key that it carries
(R522). Of a key that only its hash names, the signature itself tells which key it can be. -/
def tokenSigned (s : State) (t : Bytes) : Bool :=
  match sealGen s with
  | none => ecdsaOk p256c (slice t 52 64) (tokenHash s t) (slice t 116 64)
  | some g => (ecKeysOf p256c (tokenHash s t) (slice t 116 64)).any (fun k => sha256 k == slice (sealEntry s g) 160 32 && ecdsaOk p256c k (tokenHash s t) (slice t 116 64))

/-- SAGE_SEAL seal (R520, R522). -/
def sealRun (s : State) (r : Req) : CardResult :=
  let p := reqParams r
  let t := slice p 4 180
  if p.length ≠ 184 ∨ !zeroAt p 1 3 ∨ !zeroAt t 18 2 then rejectWith E_PARAM
  else if s.sage.sealState = .isSealed then rejectWith E_SEALED
  else match sealNextGen s with
    | none => rejectWith E_RESOURCE
    | some g =>
      if s.sage.sealOp.isSome ∨ classFull s 0x0E05#16 then rejectWith E_BUSY
      else
        let s1 := updSage (fun x => { x with nonce := none }) s
        match s.sage.next.or s.sage.params with
        | none => .failed s1 E_VERIFY []
        | some b =>
          let noKey := zeroAt t 52 64
          let auth := if noKey then (match sealGen s with | some k => slice (sealEntry s k) 160 32 | none => zeros 32) else sha256 (slice t 52 64)
          if !tokenOk s t 2 g (sha256 b) ∨ !tokenSigned s t then .failed s1 E_VERIFY []
          else .long (updSage (fun x => { x with nonce := none, sealOp := some (.newSeal g b (sha256 b) auth) }) s) 2 []

/-- The card of a seal, not carried out in RETURN and END. -/
def cardSeal : Card :=
  { sageCard sealRun with lifecycle := fun s _ => s.sys.lifecycle != .returned && s.sys.lifecycle != .ended }
def execSageSealSeal (via : Transport) (s : State) : Host.Outcome State Fault Refusal :=
  .next (runCard (isSeal 2) cardSeal via s)

/-- SAGE_SEAL break. -/
def breakRun (s : State) (r : Req) : CardResult :=
  let p := reqParams r
  let t := slice p 4 180
  if p.length ≠ 184 ∨ !zeroAt p 1 3 ∨ !zeroAt t 18 2 then rejectWith E_PARAM
  else if s.sage.sealState ≠ .isSealed then rejectWith E_SEALED
  else if s.sage.sealOp.isSome ∨ classFull s 0x0E05#16 then rejectWith E_BUSY
  else if !tokenOk s t 3 (sealGenByte s) (zeros 32) ∨ !tokenSigned s t then .failed (updSage (fun x => { x with nonce := none }) s) E_VERIFY []
  else .long (updSage (fun x => { x with nonce := none, sealOp := some .breakToken }) s) 3 []

def execSageSealBreak (via : Transport) (s : State) : Host.Outcome State Fault Refusal :=
  .next (runCard (isSeal 3) (sageCard breakRun) via s)

/-- SEAL_NONCE_EXPIRY (R522): 10 min after its issue. -/
def execSealNonceExpiry (s : State) : Host.Outcome State Fault Refusal :=
  match s.sage.nonce with
  | none => .next s
  | some (_, t) => .next (updSage (fun x => { x with nonce := none }) (sageAdvance (t + 600 * 98304000) s))

/-- Remaining time of the MPULSE shutdown in us. -/
def pulseLeft (x : Sage) : Nat :=
  match x.pulseStops, x.params, x.pulseStart with
  | true, some b, some t => ceilDiv ((t + pulseTicks b - x.ticks) * 15625) 1536000
  | _, _, _ => 0

def pulseEnableRun (s : State) (r : Req) : CardResult :=
  let p := reqParams r
  if s.sage.pulseStops then shuttingDown (pulseLeft s.sage)
  else if p.length ≠ 4 ∨ !zeroAt p 1 3 then rejectWith E_PARAM
  else .done (updSage (fun x => { x with pulseOn := true, pulseAcc := 0 }) s) []

def execSageSealPulseEnable (via : Transport) (s : State) : Host.Outcome State Fault Refusal :=
  .next (runCard (isSeal 4) (sageCard pulseEnableRun) via s)

def pulseDisableRun (s : State) (r : Req) : CardResult :=
  let p := reqParams r
  if p.length ≠ 4 ∨ !zeroAt p 1 3 then rejectWith E_PARAM
  else
    let s1 := updSage (fun x => if x.pulse then { x with pulseStops := true } else { x with pulseOn := false, pulseLimited := false }) s
    .done s1 (n32 (pulseLeft s1.sage))

def execSageSealPulseDisable (via : Transport) (s : State) : Host.Outcome State Fault Refusal :=
  .next (runCard (isSeal 5) (sageCard pulseDisableRun) via s)

end Sys2Proof.Machine
end

