-- ==== Sys2Proof/Machine/Bulk.lean ====
section
/-! DEFINITION. The bulk port (spec/03), the publication of the state image (spec/01 R33 to R41) and the image's ranges. -/

namespace Sys2Proof.Machine

open Sys2Proof

/-! ### Ranges of the state image (R111) -/

/-- Does a publication of t_pub still show what a stage's newest commit found? That commit completes at or after t_pub, or
in the loop-island cycle of t_pub (R35). -/
def commitLate (s : State) (tPub n : Nat) : Bool :=
  let x := getStage s n
  decide (x.commitQ ≠ 0) && decide (4 * tPub / loopCyc s ≤ x.commitQ / loopCyc s)

/-- The frame index of a stage's range in a publication of t_pub (R35, R39). -/
def publishedFrame (s : State) (tPub n : Nat) : U32 := if commitLate s tPub n then (getStage s n).prevFrame else (getStage s n).cFrame

/-- 0x0000 to 0x003F (R112). -/
def headerBytes (s : State) (tPub : Nat) : Bytes :=
  let fl := flag (s.sys.lifecycle == .develop) 0 + flag s.safe.block.isSome 1 + flag (s.sys.dev == .safe) 2 + flag (eventsPending s) 3 + flag s.sys.stateChange 4
    + 256 * bitField ((List.range 8).filter (fun n => (getStage s n).overrunPub))
  le32 (s.img.epoch + 1) ++ le32 (timeAt s tPub) ++ n8 (devCode s.sys.dev) ++ n8 (lcCode s.sys.lifecycle) ++ n8 s.time.active ++ [0] ++ le32 s.img.rate ++ n32 fl
    ++ n16 1 ++ zeros 10 ++ (List.range 8).flatMap (fun n => le32 (publishedFrame s tPub n))

/-- The functions in shutdown (R141). -/
def shuttingBits (s : State) : List Nat :=
  (List.range 8).filter (fun n => (getStage s n).st == .shuttingDown) ++ ((List.range 2).filter (fun u => (getFu s u).shutting.isSome)).map (· + 8)
    ++ (if s.cap.st == .shuttingDown then [10] else []) ++ ((List.range 6).filter (fun p => (getCan s p).shutting.isSome)).map (· + 11)
    ++ ((List.range 8).filter (fun o => (s.field.shutting.getD o none).isSome)).map (· + 17) ++ (if s.sage.pulseStops then [25] else [])

/-- 0x0100 to 0x013B (R141). VFIELD is that of the newest uplink frame (R14). -/
def systemBytes (s : State) : Bytes :=
  n8 s.sys.cause.toNat ++ n8 s.sys.bootsel ++ n8 (flag s.sys.bootPath 0) ++ [0] ++ le32 s.sys.imageVersion ++ n32 s.sup.flags.toNat ++ le32 s.sup.warnCount
    ++ (List.range 5).flatMap (fun i => le32 (s.sup.volts.getD i 0)) ++ le32 s.pwm.vdrv ++ le32 (shownVField s) ++ le32 s.sup.tj ++ le32 (s.sup.tjMax.getD s.sup.tj)
    ++ n8 s.gov.pullin.length ++ n8 s.gov.precharge.length ++ n8 s.gov.release.length ++ n8 s.gov.inPullin.length ++ n32 (bitField (shuttingBits s))

/-- One ADPLL, +0x00 to +0x17 (R158). -/
def pllBytes (x : Adpll) : Bytes :=
  let st : Nat := match x.state with | .off => 0 | .search => 1 | .verify => 2 | .locked => 3 | .failed => 4 | .lost => 5
  n8 st ++ n8 (profileOf x) ++ n8 x.plan.refSrc ++ n8 x.plan.refMode ++ le32 x.fMeas ++ le32 x.phaseRms ++ le32 x.locks ++ le32 x.losses ++ le32 x.tLock

/-- One domain, +0x00 to +0x2B (R465). -/
def domainBytes (s : State) (d : Nat) : Bytes :=
  let x := getTd s d
  let h := if x.state == .holdover then (s.time.raw - x.holdSince) / 1000000000 else 0
  n8 (tdCode x.state) ++ n8 (srcCode x.source) ++ n8 x.backup ++ n8 (tdFlags s d) ++ zeros 4 ++ n64 (domTime x s.time.raw / ns1).toNat ++ i32b x.rho
    ++ le32 x.lastError ++ le32 (errorRms x) ++ le32 x.samples ++ le32 x.rejected ++ le32 x.steps ++ n32 h

/-- 0x0700 to 0x071F (R465). -/
def activeBytes (s : State) : Bytes :=
  n8 s.time.active ++ n8 (switchFrom s) ++ n8 (flag s.time.degraded 0 + flag (pwmFallback s) 1) ++ [0] ++ i64b (deltaLeft s) ++ le32 s.time.fbCount
    ++ n64 (s.time.fbNs + (match s.time.fbStart with | some a => s.time.raw - a | none => 0)) ++ n64 s.time.raw

/-- The sense status 0x2E00 to 0x2E1B (R188). -/
def senseStatus (s : State) : Bytes :=
  n8 s.sense.refState ++ zeros 3 ++ (List.range 4).flatMap (fun c => n8 ((getCore s c).phys.getD 0xFF)) ++ le32 s.sense.urgentDone ++ le32 s.sense.urgentDropped
    ++ bitsOf 64 (fun c => decide (c < 48) && (getSense s c).stuck) ++ le32 s.sense.sarMismatch

/-- One half-bridge, +0x00 to +0x0F (R392). -/
def hbBytes (s : State) (h : Nat) : Bytes :=
  let x := getHb s h
  let vds (l : Option Byte) : Bool := l == some 4#8 || l == some 5#8
  le32 x.vBoot ++ n8 (flag (vds x.hsLatch) 0 + flag (vds x.lsLatch) 1 + flag x.bootLow 2 + flag x.preEnd.isSome 3 + flag (decide (0 < (getChan s (hbChan h true)).refresh)) 4)
    ++ zeros 3 ++ le32 x.refreshes ++ zeros 4

/-- The supervision flags of the gate-driver die (R392). -/
def dieFlags (s : State) : Nat := flag s.pwm.vdrvWarn 0 + flag s.pwm.vdrvShut 1 + flag s.pwm.tempWarn 2 + flag s.pwm.tempShut 3

/-- One CAN port, +0x00 to +0x2F (R482). -/
def canBytes (x : CanPort) : Bytes :=
  n8 (canCode x) ++ n8 (flag x.restricted 0) ++ n16 x.tec ++ n8 x.recv ++ n8 x.lastError ++ n8 (txQueued x) ++ n8 x.rxHeld ++ n8 x.rxHead ++ n8 x.tdc.toNat ++ zeros 2
    ++ le32 x.txSent ++ le32 x.txCancelled ++ le32 x.txLateLost ++ le32 x.rxFrames ++ le32 x.rxOverflow ++ le32 x.tapDrops ++ le32 x.superseded ++ le32 x.busOffs
    ++ le32 x.errors

/-- One Ethernet port, +0x00 to +0x1B (R466). -/
def ethBytes (s : State) (p : Nat) : Bytes :=
  let x := s.eth.getD p eth0
  n8 (flag x.link 0) ++ n8 (if x.link then x.linkSpeed else x.speed) ++ n8 (flag x.rgmii 0) ++ n8 (s.udp.sessions.filter (fun y => y.port = p)).length
    ++ le32 x.rxFrames ++ le32 x.txFrames ++ le32 x.rxCrc ++ le32 x.rxDropped ++ le32 x.txLost ++ le32 x.linkLosses

/-- One time instance, +0x00 to +0x15 (R466). -/
def timeInstBytes (s : State) (i : Nat) : Bytes :=
  let x := getInst s i
  n8 x.role ++ n8 x.port ++ n8 x.domainNumber.toNat ++ n8 x.clockClass.toNat ++ slice x.gmIdentity 0 8 ++ le32 x.pathDelay ++ le32 x.syncs ++ le16 x.stepsRemoved

/-- The Sage published area: 4 KiB, whose upper part reads zero (R527); zero while Sage is in reset. -/
def sageWindow (s : State) : Bytes := slice s.sage.area 0 4096

/-- A stage's range as a publication of t_pub shows it (R35, R39, R41): of the newest commit that completed before t_pub, with
the stage's state, its run-ahead depth and its flags as they stand. -/
def publishedRange (s : State) (tPub n : Nat) : Bytes :=
  let now := stageRange s n
  if commitLate s tPub n then
    let old := (getStage s n).prevRange
    now.take 1 ++ (old.drop 1).take 1 ++ (now.drop 2).take 2 ++ old.drop 4
  else now

/-- The words a stage publishes in a publication of t_pub (R35). -/
def publishedWords (s : State) (tPub n : Nat) : List (Nat × U32) := if commitLate s tPub n then (getStage s n).prevPub else (getStage s n).pub

/-- Every piece of the image as it stands at t_pub, with its address, lowest first. -/
def imageParts (s : State) (tPub : Nat) : List (Nat × Bytes) :=
  let each (base step n : Nat) (f : Nat → Bytes) : List (Nat × Bytes) := (List.range n).map (fun i => (base + step * i, f i))
  [(0x0000, headerBytes s tPub), (0x0100, systemBytes s)]
    ++ each 0x0400 0x40 2 (fun i => pllBytes (getPll s i)) ++ [(0x0480, n32 (bitField ((List.range 10).filter (fun o => (s.clk.outs.getD o clkOut0).enable)))
        ++ n32 (bitField ((List.range 5).filter (fun i => s.time.onFallback.getD i true))))]
    ++ each 0x0600 0x40 4 (domainBytes s) ++ [(0x0700, activeBytes s)]
    ++ each 0x0800 0x400 2 (fuRange s tPub) ++ each 0x1000 0x200 8 (publishedRange s tPub)
    ++ each 0x2000 0x20 64 (fun i => (s.sense.accs.getD i acc0).pub) ++ each 0x2800 0x18 64 (fun i => (s.sense.mmxs.getD i mmx0).pub) ++ [(0x2E00, senseStatus s)]
    ++ [(0x3000, protHead s ++ n32 (dieFlags s))] ++ each 0x3100 0x10 8 (hbBytes s) ++ [(0x3200, (List.range 96).flatMap (fun c => le32 (getChan s c).trips))]
    ++ [(0x3800, safeBytes s), (0x4000, fieldBytes s)]
    ++ each 0x4800 0x80 6 (fun p => canBytes (getCan s p)) ++ each 0x4C00 0x100 2 (ethBytes s) ++ each 0x4E00 0x40 3 (timeInstBytes s)
    ++ [(0x5000, capStatusBytes s), (0x5800, relBytes s), (0x6000, sageWindow s)]
    ++ (List.range 8).flatMap (fun n =>
        let x := getStage s n
        match x.graph with
        | some g => ((publishedWords s tPub n).filter (fun p => p.1 < g.pubWords)).map (fun p => (0x7000 + 4 * (g.pubBase + p.1), le32 p.2))
        | none => [])

/-- The assembled image (R36). -/
def assemble (s : State) (tPub : Nat) : List Host.Cell := (imageParts s tPub).foldl (fun m p => memWriteBytes m p.1 p.2) []

/-! ### Publications (R33 to R37) -/

/-- The back buffer becomes the host-visible one, and the epoch increments (R36). -/
def swapImage (s : State) : State :=
  match s.img.back with
  | some b => { s with img := { s.img with host := b, back := none, epoch := s.img.epoch + 1 } }
  | none => s

/-- PUBLICATION_SWAP. -/
def execPublicationSwap (s : State) : Host.Outcome State Fault Refusal := .next (swapImage s)

/-- The committed status that crosses into Sage (R505): device state, state of every stage, FU0's mode. -/
def sageStatusNow (s : State) : Bytes :=
  n8 (devCode s.sys.dev) ++ (List.range 8).flatMap (fun n => n8 (stageCode (getStage s n).st)) ++ n8 (fuCode (getFu s 0).mode)

/-- The higher of two temperatures. -/
def maxTemp (a : Option F32) (b : F32) : F32 := match a with | some x => if f32Val x < f32Val b then b else x | none => b

/-- PUBLICATION_INSTANT (R33 to R36, R179, R505): the image of t_pub from the values as they stand, with the rail voltages
and the junction temperature as measured, and per ADPLL the measured DCO frequency and the RMS phase error of its last
1,024 PFD cycles (R158); the PUBLICATION windows close, and the overrun flags begin anew. -/
def execPublicationInstant (volts : List U32) (tj : U32) (plls : List (F32 × F32)) (s : State) : Host.Outcome State Fault Refusal :=
  if !s.img.running then .next s
  else
    let t := s.img.due
    let r := countReached s t
    let s1 := advanceTo r (swapImage s)
    let s2 := closeWindows r { s1 with clk := { s1.clk with plls := s1.clk.plls.mapIdx (fun i x => match plls[i]? with | some m => { x with fMeas := m.1, phaseRms := m.2 } | none => x) }, sup := { s1.sup with volts := volts, tj := tj, tjMax := some (maxTemp s1.sup.tjMax tj) } }
    let s3 := { s2 with img := { s2.img with back := some (assemble s2 r), rate := s2.img.newRate, due := t + pubPeriod s2.img.newRate.toNat } }
    let s4 := forEach (List.range 8) (fun n => updStage n (fun x => { x with overrunPub := false })) s3
    let active := (List.range 8).any (fun n => (getStage s4 n).st != .off)
    .next (updSage (fun x => { x with hostActive := active, hostEnded := (x.hostEnded || x.hostActive) && !active, status := sageStatusNow s4 }) s4)

/-! ### Windows (R99, R100) -/

inductive BulkWindow where
  | image | filter | graph | capture | can | log | staging | sage
deriving DecidableEq, Repr

def windowBase : BulkWindow → Nat
  | .image => 0 | .filter => 0x10000 | .graph => 0x100000 | .capture => 0x1000000 | .can => 0x2000000 | .log => 0x3000000 | .staging => 0x4000000 | .sage => 0x8000000
def windowSize : BulkWindow → Nat
  | .image => 0x10000 | .filter => 0x10000 | .graph => 0xF0000 | .capture => 0x400000 | .can => 0x10000 | .log => 0x10000 | .staging => 0x200000 | .sage => 0x1000
/-- Bursts wrap at the window's end; in graph memory and image staging they stop. -/
def windowWraps (w : BulkWindow) : Bool := w != .graph && w != .staging
/-- The window that holds an address. -/
def windowOf (a : Nat) : Option BulkWindow :=
  ([.image, .filter, .graph, .capture, .can, .log, .staging, .sage] : List BulkWindow).find? (fun w => decide (windowBase w ≤ a) && decide (a < windowBase w + windowSize w))

/-- The offset of a burst's byte in its window; none beyond the end of a window that stops. -/
def burstOffset (w : BulkWindow) (off i : Nat) : Option Nat :=
  if off + i < windowSize w then some (off + i) else if windowWraps w then some ((off + i) % windowSize w) else none

/-! ### Refusals (R101) -/

/-- A burst was refused in part: event 0x010B, the flag and the count (R101, R110). -/
def bulkRefused (a : Nat) (reason : Nat) (s : State) : State :=
  let d := n32 a ++ n8 reason
  postMergeWith 0x010B#16 0 d (fun e => e.data == eventData d) (fun o _ => o)
    { s with bulk := { s.bulk with refusedF := true, refused := satInc s.bulk.refused } }

/-- A burst outside every window (R100). -/
def bulkUnmapped (a : Nat) (write : Bool) (s : State) : State := post 0x0105#16 0 (n32 a ++ n8 (flag write 0)) s

/-! ### Reads (R97, R104, R105, R107, R109) -/

/-- A byte of the event log window (R104). -/
def logByte (s : State) (off : Nat) : Byte :=
  match s.evt.entries.find? (fun e => decide ((e.seq.toNat + 4095) % 4096 = off / 16)) with
  | some e => byteAt (entryBytes e) (off % 16)
  | none => 0

/-- A byte of a window as the bulk port reads it. Image staging is write-only and reads zero (R9, R99). -/
def windowByte (s : State) (w : BulkWindow) (off : Nat) : Byte :=
  match w with
  | .image => memRead s.img.latched off
  | .filter => if off < 0xC000 then memRead s.flt.mem off else 0
  | .graph => memRead s.loop.mem off
  | .capture => memRead s.cap.mem off
  | .can => memRead s.can.mem off
  | .log => logByte s off
  | .staging => 0
  | .sage => byteAt s.sage.area off

/-- The bytes driven: those of the burst up to the rise of BULK_CS_N, then 0x00 (R97). -/
def setOut (b : Bytes) (clocked : Nat) (s : State) : State := { s with bulk := { s.bulk with out := slice b 0 clocked } }

/-- A burst in the state image takes the latch unless one is held (R105, R107). -/
def takeLatch (s : State) : State :=
  if s.bulk.held then s
  else { s with img := { s.img with latched := s.img.host }, bulk := { s.bulk with epoch := s.img.epoch } }

/-- A READ or READ_HOLD burst of `n` bytes of which the host clocks `clocked`. -/
def bulkRead (hold : Bool) (a n clocked : Nat) (s : State) : State :=
  if !s.cmd.isOpen then s
  else
    match windowOf a with
    | none => bulkUnmapped a false (setOut (zeros n) clocked s)
    | some w =>
      let s1 := if w = .image then takeLatch s else s
      let k := min n clocked
      let s2 := setOut ((List.range k).map (fun i => match burstOffset w (a - windowBase w) i with | some o => windowByte s1 w o | none => 0)) clocked s1
      if w = .image then { s2 with bulk := { s2.bulk with held := hold, lastUse := s2.time.raw } } else s2

/-- BULK_READ: the address, the length field, and the bytes clocked before BULK_CS_N rises. -/
def execBulkRead (addr : U32) (len clocked : Nat) (s : State) : Host.Outcome State Fault Refusal := .next (bulkRead false addr.toNat (len + 1) clocked s)

/-- BULK_READ_HOLD. -/
def execBulkReadHold (addr : U32) (len clocked : Nat) (s : State) : Host.Outcome State Fault Refusal := .next (bulkRead true addr.toNat (len + 1) clocked s)

/-- BULK_RELEASE (R107): a command without data (R94). -/
def execBulkRelease (s : State) : Host.Outcome State Fault Refusal :=
  if !s.cmd.isOpen then .next s else .next (setOut [] 0 { s with bulk := { s.bulk with held := false } })

/-- BULK_STATUS (R110): the flags REFUSED and HOLD_EXPIRED clear with the read, also where BULK_CS_N cuts it off before
their byte is clocked out (log 137). -/
def execBulkStatus (clocked : Nat) (s : State) : Host.Outcome State Fault Refusal :=
  if !s.cmd.isOpen then .next s
  else
    let b := le32 s.bulk.epoch ++ n8 (flag s.bulk.held 0 + flag s.bulk.expired 1 + flag s.bulk.refusedF 2) ++ [0] ++ le16 s.bulk.refused
    let s1 := setOut b clocked s
    .next { s1 with bulk := { s1.bulk with refusedF := false, expired := false } }

/-- HOLD_LATCH_EXPIRY (R108): 100 ms after the last burst in the state image. -/
def execHoldLatchExpiry (s : State) : Host.Outcome State Fault Refusal :=
  if !s.bulk.held then .next s
  else
    let s1 := advanceTo (s.bulk.lastUse + 100000000) s
    .next { s1 with bulk := { s1.bulk with held := false, expired := true } }

/-- BULK_BAD_COMMAND (R94): a wrong complement, an unknown code, or a reserved bit of the length. The address of the event
is the header's where the port reads one, else free: no header follows a command that is not known. It raises event 0x010B, so
that STATUS counts it among the refused bursts (R110), though it starts no burst (DESIGN CHOICE, log 187). -/
def execBulkBadCommand (code compl : Byte) (addr : U32) (len : U16) (s : State) : Host.Outcome State Fault Refusal :=
  let known := code = 0xA1#8 ∨ code = 0xA3#8 ∨ code = 0xA5#8 ∨ code = 0xA7#8 ∨ code = 0xB2#8
  let long := (code = 0xA1#8 ∨ code = 0xA3#8 ∨ code = 0xB2#8) ∧ len.toNat ≥ 4096
  if !s.cmd.isOpen then .next s
  else if compl ≠ ~~~code ∨ ¬known then
    let (w, s1) := draw s
    .next (setOut [] 0 (bulkRefused w.toNat 5 s1))
  else if long then .next (setOut [] 0 (bulkRefused addr.toNat 5 s))
  else .next s

/-! ### Writes (R99, R101) -/

/-- The coefficient word is covered by a loaded set that an assignment names (R202). -/
def coefInUse (s : State) (w : Nat) : Bool :=
  let covers (sets : List (Option FltSet)) (as : List Assign) : Bool :=
    as.any (fun a => match a.set with
      | some k => match sets.getD k none with | some f => decide (f.base ≤ w) && decide (w < f.base + f.taps) | none => false
      | none => false)
  covers s.flt.sets s.flt.assigns || covers s.flt.setsReq s.flt.assignsReq

/-- The stage whose loaded image holds a byte of graph memory (R224). -/
def imageOwner (s : State) (off : Nat) : Option Nat :=
  (List.range 8).find? (fun n => match (getStage s n).graph with | some g => decide (g.offset ≤ off) && decide (off < g.offset + g.length) | none => false)

/-- What becomes of a byte written at an offset of a window: the state, and the reason of a refusal (R101). -/
def writeByte (w : BulkWindow) (off : Nat) (x : Byte) (s : State) : State × Option Nat :=
  match w with
  | .image | .log | .sage => (s, some 0)
  | .filter =>
    if off ≥ 0xC000 then (s, some 0) else if coefInUse s (off / 4) then (s, some 1)
    else ({ s with flt := { s.flt with mem := memWrite s.flt.mem off x } }, none)
  | .graph =>
    let put (t : State) : State := { t with loop := { t.loop with mem := memWrite t.loop.mem off x } }
    match imageOwner s off with
    | none => (put s, none)
    | some n => if (getStage s n).st != .off then (s, some 1) else (put (post 0x0600#16 n (n32 (windowBase .graph + off)) (unloadGraph n s)), none)
  | .capture => if capArmed s then (s, some 1) else ({ s with cap := { s.cap with mem := memWrite s.cap.mem off x } }, none)
  | .can =>
    let p := off / 0x2000
    let o := off % 0x2000
    let put : State × Option Nat := ({ s with can := { s.can with mem := memWrite s.can.mem off x } }, none)
    if off ≥ 0xC000 then (s, none)
    else if o < 0xA00 then (if canOwned (getCan s p) (o / 80) then (s, some 1) else if o % 80 = 6 then (s, none) else put)
    else if o < 0x1E00 then (s, some 0)
    else if o < 0x1F00 then (if canRuns (getCan s p) then (s, some 1) else put)
    else (s, some 0)
  | .staging =>
    if s.sys.dev = .boot ∧ s.sys.bootsel = 1 ∧ s.stag.isOpen then ({ s with cap := { s.cap with mem := memWrite s.cap.mem off x } }, none) else (s, some 2)

/-- The byte that follows the end of a window which stops: ignored in graph memory, refused with reason 3 in image
staging while that accepts writes (R99). -/
def pastEnd (s : State) (w : BulkWindow) : Option Nat :=
  if w = .staging then (if s.sys.dev = .boot ∧ s.sys.bootsel = 1 ∧ s.stag.isOpen then some 3 else some 2) else none

/-- The bytes of a write burst, in order; the first refusal with its address. -/
def writeBytes (w : BulkWindow) (off : Nat) : Nat → Bytes → State → Option (Nat × Nat) → State × Option (Nat × Nat)
  | _, [], s, r => (s, r)
  | i, x :: t, s, r =>
    let (s1, why) := match burstOffset w off i with
      | some o => writeByte w o x s
      | none => (s, pastEnd s w)
    let o := (burstOffset w off i).getD (off + i)
    writeBytes w off (i + 1) t s1 (r.or (why.map (fun k => (windowBase w + o, k))))

/-- BULK_WRITE: the address, the length field and the bytes clocked (R96, R97, R101). -/
def execBulkWrite (addr : U32) (len : Nat) (data : Bytes) (s : State) : Host.Outcome State Fault Refusal :=
  if !s.cmd.isOpen then .next s
  else
    let a := addr.toNat
    let b := data.take (len + 1)
    match windowOf a with
    | none => .next (bulkUnmapped a true (setOut [] 0 s))
    | some w =>
      let (s1, r) := writeBytes w (a - windowBase w) 0 b (setOut [] 0 s) none
      let s2 := if w = .image then { s1 with bulk := { s1.bulk with lastUse := s1.time.raw } } else s1
      .next (match r with | some (x, k) => bulkRefused x k s2 | none => s2)

end Sys2Proof.Machine
end

