-- ==== Sys2Proof/Machine/Filter.lean ====
section
/-! DEFINITION. The cards of the filter chain (spec/07). -/

namespace Sys2Proof.Machine

open Sys2Proof

/-- Channels whose requested assignment names a filter set. -/
def setUsers (s : State) (k : Nat) : List Nat := (s.flt.assignsReq.filter (fun a => a.set = some k)).map (·.ch)

/-- The sums of a filter set's coefficients: h, |h| and i h (R210). -/
def coefSums (h : List Int) : Int × Int × Int :=
  (h.sum, (h.map (fun v => (v.natAbs : Int))).sum, (h.zipIdx.map (fun p => p.1 * (p.2 : Int))).sum)

/-- FLT_LOAD (R201, R203, R205, R207). A load that would break R204 for the assignments naming the set, or R198 for one
that meets it, is turned away with the status of FLT_ASSIGN (DESIGN CHOICE, log 138: the card names neither). -/
def fltLoadRun (s : State) (r : Req) : CardResult :=
  let p := reqParams r
  let k := n8At p 0
  let t := n16At p 2
  let base := n16At p 4
  let old := s.flt.setsReq.getD k none
  let users := setUsers s k
  let sets := upd s.flt.setsReq k (fun _ => if t = 0 then none else some { typ := n8At p 1, taps := t, base := base })
  let tooLong := s.flt.assignsReq.filter (fun a => decide (a.set = some k) && withinBudget (lanes s) a (tapsOf s.flt.setsReq a) && !withinBudget (lanes s) a t)
  let words := (List.range t).map (fun i => u32At (memReadBytes s.flt.mem (4 * (base + i)) 4) 0)
  if p.length ≥ 4 ∧ k < 64 ∧ ((t = 0 ∧ !users.isEmpty) ∨ (old.any (fun f => decide (f.taps ≠ t)) ∧ users.any (readLive s))) then rejectWith E_STATE
  else if p.length ≠ 12 ∨ k ≥ 64 ∨ n8At p 1 > 2 ∨ t > 512 ∨ base > 12287 ∨ base + t > 12288 ∨ !zeroAt p 6 2 then rejectWith E_PARAM
  else if words.any (fun w => w.extractLsb' 24 8 ≠ 0#8) ∨ (n8At p 1 = 0 ∧ words ≠ words.reverse) then rejectWith E_PARAM
  else if t ≠ 0 ∧ (List.range 64).any (fun j => decide (j ≠ k) && (s.flt.setsReq.getD j none).any (fun f => decide (base < f.base + f.taps) && decide (f.base < base + t))) then rejectWith E_PARAM
  else if (s.flt.assignsReq.map (tapsOf sets)).sum > 4096 ∨ (!tooLong.isEmpty ∧ lanes s = 8) then rejectWith E_PARAM
  else if bytesLost s 33 (4 * base) (4 * t) ∨ !tooLong.isEmpty then rejectWith E_RESOURCE
  else if crc32c (memReadBytes s.flt.mem (4 * base) (4 * t)) ≠ u32At p 8 then rejectWith E_VERIFY
  else
    let f : FltSet := { typ := n8At p 1, taps := t, base := base }
    let (sh, sa, si) := coefSums (coefs s f)
    .done { s with flt := { s.flt with setsReq := sets, changed := true } }
      (le32 (toF32 (rawOf sh)) ++ le32 (toF32 (rawOf sa)) ++ le32 (if sh = 0 then 0 else toF32 ((si : Rat) / sh)))

def execFltLoad (via : Transport) (s : State) : Host.Outcome State Fault Refusal :=
  .next (runCard (isOp 0x0500#16) (snsCard fltLoadRun) via s)

/-- The slots of a run overlap. -/
def overlaps (a b : Assign) : Bool := decide (a.first < b.first + b.gang) && decide (b.first < a.first + a.gang)

/-- FLT_ASSIGN (R190, R198, R204 to R208). -/
def fltAssignRun (s : State) (r : Req) : CardResult :=
  let p := reqParams r
  let c := n8At p 2
  let set := if n8At p 3 = 0xFF then none else some (n8At p 3)
  let a : Assign := { ch := c, first := n8At p 0, gang := n8At p 1, set := set, n := n8At p 4, m := n16At p 6, r := n16At p 8 }
  let released := (s.flt.assignsReq.filter (fun b => decide (b.ch ≠ c) && overlaps a b)).map (·.ch)
  let rest := s.flt.assignsReq.filter (fun b => decide (b.ch ≠ c) && !(overlaps a b))
  let reply (s : State) (settle : Nat) : CardResult := .done s ((List.range 10).map (fun i => BitVec.ofNat 8 (bitField released / 256 ^ i)) ++ zeros 2 ++ n32 settle)
  let apply (l : List Assign) : State := { s with flt := { s.flt with assignsReq := l, changed := true } }
  if p.length ≥ 4 ∧ ((c < 80 ∧ readLive s c) ∨ released.any (readLive s)) then rejectWith E_STATE
  else if p.length ≠ 16 ∨ a.first > 79 ∨ a.gang < 1 ∨ a.gang > 8 ∨ a.first + a.gang > 80 ∨ (c > 79 ∧ c ≠ 0xFF) ∨ n8At p 5 ≠ 0 ∨ !zeroAt p 10 6 then rejectWith E_PARAM
  else if c = 0xFF then reply (apply rest) 0
  else
    let t := tapsOf s.flt.setsReq a
    let setBad := match set with | some k => decide (k ≥ 64) || (s.flt.setsReq.getD k none).isNone | none => decide (a.r ≠ 1)
    let sincBad := if c < 48 then decide (a.n < 1) || decide (a.n > 4) || decide (a.m < 4) || decide (a.m > 256) else decide (a.n ≠ 0) || decide (a.m ≠ 0)
    if setBad || sincBad || decide (a.r < 1) || decide (a.r > 64) then rejectWith E_PARAM
    else if t + (rest.map (tapsOf s.flt.setsReq)).sum > 4096 then rejectWith E_PARAM
    else if !(withinBudget (lanes s) a t) then rejectWith (if lanes s < 8 then E_RESOURCE else E_PARAM)
    else if chanLost s c then rejectWith E_RESOURCE
    else reply (apply (rest ++ [a])) ((settleNeed s s.flt.setsReq a).getD 0xFFFFFFFF)

def execFltAssign (via : Transport) (s : State) : Host.Outcome State Fault Refusal :=
  .next (runCard (isOp 0x0501#16) (snsCard fltAssignRun) via s)

/-- |H(f)| and, where H is not 0, the group delay in samples, of coefficients at an angle of w turns per sample (R210). -/
def firResponse (h : List Int) (w : Rat) : Rat × Option Rat :=
  let cs : List (Rat × Rat × Rat × Rat) := h.zipIdx.map (fun p => (cosTurn (w * p.2), sinTurn (w * p.2), (p.1 : Rat), (p.2 : Rat)))
  let re := (cs.map (fun p => p.1 * p.2.2.1)).sum
  let im := (cs.map (fun p => p.2.1 * p.2.2.1)).sum
  let dre := (cs.map (fun p => p.1 * (p.2.2.1 * p.2.2.2))).sum
  let dim := (cs.map (fun p => p.2.1 * (p.2.2.1 * p.2.2.2))).sum
  let m := re * re + im * im
  (ratSqrt m / 2 ^ 23, if m = 0 then none else some ((dre * re + dim * im) / m))

/-- FLT_QUERY_DELAY (R210 to R212). Where |H| is 0 the group delay has no value, and a free value stands for it. -/
def fltQueryRun (s : State) (r : Req) : CardResult :=
  let p := reqParams r
  let c := n8At p 0
  let f := f32Val (u32At p 4)
  if p.length ≠ 8 ∨ c ≥ 80 ∨ !zeroAt p 1 3 ∨ !f32In (u32At p 4) 0 500000 then rejectWith E_PARAM
  else
    let x := getFch s c
    match assignOf s.flt.assigns c with
    | none => .done s (n8 0xFF ++ zeros 35 ++ le32 x.sat)
    | some a =>
      let k := a.first + a.gang - 1
      let ns (v : Rat) : Bytes := le32 (toF32 (v / 1000000000))
      let caps := x.caps.filterMap id
      let cmin : Rat := (caps.foldl min (caps.headD 0) : Nat) * 5 / 4
      let cmax : Rat := (caps.foldl max 0 : Nat) * 5 / 4
      let sinc : Rat := if c < 48 then ((a.n * (a.m - 1) : Nat) : Rat) / 2 * mclkPeriod s (c / 6) else 0
      let (fir, gain, s1) : Rat × F32 × State :=
        match a.set.bind (fun k => s.flt.sets.getD k none) with
        | none => (0, 0x3F800000#32, s)
        | some g =>
          let (m, d) := firResponse (coefs s g) (f / 1000000)
          let (v, s1) := draw s
          if g.typ = 0 then (((g.taps - 1 : Nat) : Rat) / 2 * 1000, toF32 m, s)
          else match d with
            | some t => (t * 1000, toF32 m, s)
            | none => (f32Val v, toF32 m, s1)
      let fl := flag (chanSettled s c) 0 + flag (!caps.isEmpty && decide (cmin = cmax)) 1 + flag x.stopped 2
      .done s1 (n8 k ++ n8 fl ++ zeros 2 ++ ns cmin ++ ns cmax ++ ns sinc ++ ns fir ++ le32 gain ++ ns (cmin + sinc + fir) ++ ns (cmax + sinc + fir)
        ++ ns (20 + 125 / 10 * k) ++ le32 x.sat)

def execFltQueryDelay (via : Transport) (s : State) : Host.Outcome State Fault Refusal :=
  .next (runCard (isOp 0x0502#16) (snsCard fltQueryRun) via s)

end Sys2Proof.Machine
end

