-- ==== Sys2Proof/Machine/ProtCfg.lean ====
section
/-! DEFINITION. The configuration and self-test cards of gate protection (spec/14 R386 to R393). -/

namespace Sys2Proof.Machine

open Sys2Proof

/-- The targets of a comparator or fast detector: four bytes, 0xFF none. -/
def targetsAt (p : Bytes) (i : Nat) : List Nat := ((List.range 4).map (fun k => n8At p (i + k))).filter (· ≠ 0xFF)
/-- Targets are channels, all in one stage, and at least one where a side is enabled (R375; DESIGN CHOICE, log 139: a
request that enables no side may name none). -/
def targetsOk (s : State) (on : Bool) (ts : List Nat) : Bool :=
  (!on || !ts.isEmpty) && ts.all (fun c => decide (c < 96)) && decide (((ts.filterMap (chanStage s)).eraseDups).length ≤ 1)

/-- PROT_CONFIG kind 0 (R386, R387, R393). THRESH_ONLY changes only the thresholds. The zone last reported for the pin is
kept, so that a comparator already in a zone trips as it becomes armed (R375). -/
def cfgCmpRun (s : State) (r : Req) : CardResult :=
  let p := reqParams r
  let k := n8At p 1
  let fl := n8At p 2
  let only := fl % 2 = 1
  let x := getCmp s k
  let th := [u32At p 12, u32At p 16, u32At p 20, u32At p 24]
  let cs := th.map (dacCode (getSense s (48 + k)))
  let ts := targetsAt p 8
  let lo := decide (fl / 2 % 2 = 1)
  let hi := decide (fl / 4 % 2 = 1)
  let gate := decide (p.length ≥ 3) && decide (k < 32) && decide (fl % 2 = 0)
  if gate && cmpArmed s k then rejectWith E_STATE
  else if p.length ≠ 28 ∨ n8At p 0 ≠ 0 ∨ k ≥ 32 ∨ fl > 7 ∨ n8At p 3 > 3 ∨ n16At p 4 > 2047 ∨ !zeroAt p 6 2 ∨ !targetsOk s (!only && (lo || hi)) ts ∨ th.any f32Bad
      ∨ !(decide (cs.getD 2 0 ≤ cs.getD 0 0) && decide (cs.getD 0 0 < cs.getD 1 0) && decide (cs.getD 1 0 ≤ cs.getD 3 0)) then rejectWith E_PARAM
  else if (if only then cmpEnabled x else lo || hi) ∧ s.sense.refState ≠ 2 then rejectWith E_NOT_READY
  else
    let s1 := updCmp k (fun x => if only then { x with thresh := th, codes := cs }
      else
        let y := { cmp0 with lowEn := lo, highEn := hi, hyst := n8At p 3, blank := n16At p 4, targets := ts, thresh := th, codes := cs, zone := x.zone }
        { y with tripped := x.tripped && cmpZoneOn y }) s
    .done (armTrips ts s1) (cs.flatMap n16)

def execProtConfigComparator (via : Transport) (s : State) : Host.Outcome State Fault Refusal :=
  .next (runCard (isOpElse 0x0900#16 [1, 2, 3, 4]) (snsCard cfgCmpRun) via s)

/-- PROT_CONFIG kind 1 (R388, R393). The detector is evaluated at once on the bits it holds, so that one already beyond a
threshold trips as it becomes armed (R375). -/
def cfgFocRun (s : State) (r : Req) : CardResult :=
  let p := reqParams r
  let k := n8At p 1
  let fl := n8At p 2
  let only := fl % 2 = 1
  let ts := targetsAt p 4
  if p.length ≥ 3 ∧ k < 48 ∧ fl % 2 = 0 ∧ focArmed s k then rejectWith E_STATE
  else if p.length ≠ 24 ∨ k ≥ 48 ∨ fl > 7 ∨ n8At p 3 ≠ 0 ∨ !targetsOk s (decide (fl = 2) || decide (fl = 4) || decide (fl = 6)) ts ∨ f32Bad (u32At p 8) ∨ f32Bad (u32At p 12) ∨ !f32Lt (u32At p 8) (u32At p 12) ∨ !zeroAt p 16 8 then rejectWith E_PARAM
  else
    let s1 := updFoc k (fun x => if only then { x with lo := f32Param (u32At p 8), hi := f32Param (u32At p 12) }
      else { foc0 with lowEn := decide (fl / 2 % 2 = 1), highEn := decide (fl / 4 % 2 = 1), targets := ts, lo := f32Param (u32At p 8), hi := f32Param (u32At p 12), bits := x.bits }) s
    let s2 := focEval k s1
    .done (if (getFoc s k).tripped ∧ only then s2 else armTrips (getFoc s2 k).targets s2) []

def execProtConfigFastDetector (via : Transport) (s : State) : Host.Outcome State Fault Refusal :=
  .next (runCard (isOpKind 0x0900#16 1) (snsCard cfgFocRun) via s)

/-- PROT_CONFIG kind 2 (R379, R393). -/
def cfgFltRun (s : State) (r : Req) : CardResult :=
  let p := reqParams r
  let c := n8At p 1
  if p.length ≥ 2 ∧ c < 80 ∧ fltArmed s c then rejectWith E_STATE
  else if p.length ≠ 4 ∨ c ≥ 80 ∨ n8At p 2 > 1 ∨ n8At p 3 ≠ 0 then rejectWith E_PARAM
  else .done (armTrips [c] (updFlt c (fun x => { x with enable := decide (n8At p 2 = 1) }) s)) []

def execProtConfigFltInput (via : Transport) (s : State) : Host.Outcome State Fault Refusal :=
  .next (runCard (isOpKind 0x0900#16 2) (snsCard cfgFltRun) via s)

/-- The stage of either channel of a half-bridge is not OFF: its monitors are armed (R375). -/
def hbArmed (s : State) (h : Nat) : Bool := targetLive s (80 + 2 * h) || targetLive s (81 + 2 * h)

/-- PROT_CONFIG kind 3 (R380 to R384, R393). -/
def cfgHbRun (s : State) (r : Req) : CardResult :=
  let p := reqParams r
  let h := n8At p 1
  let pre := n16At p 10
  let c := 80 + 2 * h
  if p.length ≥ 2 ∧ h < 8 ∧ hbArmed s h then rejectWith E_STATE
  else if p.length ≠ 16 ∨ h ≥ 8 ∨ n8At p 2 < 2 ∨ n8At p 2 > 64 ∨ n8At p 3 < 2 ∨ n8At p 3 > 64 ∨ n8At p 4 < 4 ∨ n8At p 4 > 12 ∨ n8At p 5 < 5 ∨ n8At p 5 > 100
      ∨ n8At p 6 < 80 ∨ n8At p 6 > 99 ∨ n8At p 7 ≠ 0 ∨ n16At p 8 < 60 ∨ n16At p 8 > 500 ∨ (pre ≠ 0 ∧ pre < 10) ∨ pre > 1000 ∨ !zeroAt p 12 4 then rejectWith E_PARAM
  else if (match chanTimer s c with | some t => decide (16 * (n16At p 8 + (getChan s c).dtF) > shortest s t) | none => false) then rejectWith E_PARAM
  else .done (updHb h (fun x => { x with vdsHs := n8At p 2, vdsLs := n8At p 3, vdsShort := n8At p 4, vdsBlank := n8At p 5, refreshThr := n8At p 6, tRefresh := n16At p 8, tPrecharge := pre }) s) []

def execProtConfigHalfBridge (via : Transport) (s : State) : Host.Outcome State Fault Refusal :=
  .next (runCard (isOpKind 0x0900#16 3) (snsCard cfgHbRun) via s)

/-- PROT_CONFIG kind 4 (R390, R393). -/
def cfgLegRun (s : State) (r : Req) : CardResult :=
  let p := reqParams r
  let c := n8At p 1
  let l := n8At p 2
  match (if p.length ≥ 2 ∧ c < 96 then stageGate2 s (chanStage s c) none else none) with
  | some e => e
  | none =>
    if p.length ≠ 4 ∨ c ≥ 96 ∨ (l > 15 ∧ l ≠ 0xFF) ∨ n8At p 3 ≠ 0 then rejectWith E_PARAM
    else .done (updChan c (fun x => { x with leg := if l = 0xFF then none else some l }) s) []

def execProtConfigLeg (via : Transport) (s : State) : Host.Outcome State Fault Refusal :=
  .next (runCard (isOpKind 0x0900#16 4) (snsCard cfgLegRun) via s)

/-- PROT_SELFTEST (R391). -/
def selftestRun (s : State) (r : Req) : CardResult :=
  let p := reqParams r
  let t : SelfTest := { cmp := u32At p 0, foc := u64At p 4, hb := byteAt p 12 }
  if p.length ≥ 13 ∧ ((List.range 32).any (fun k => t.cmp.getLsbD k && cmpArmed s k) ∨ (List.range 48).any (fun k => t.foc.getLsbD k && focArmed s k)
      ∨ (List.range 8).any (fun h => t.hb.getLsbD h && hbArmed s h)) then rejectWith E_STATE
  else if p.length ≠ 16 ∨ !zeroAt p 10 2 ∨ !zeroAt p 13 3 ∨ (t.cmp = 0 ∧ t.foc = 0 ∧ t.hb = 0) then rejectWith E_PARAM
  else if s.pwm.selftest.isSome ∨ classFull s 0x0901#16 then rejectWith E_BUSY
  else if t.cmp ≠ 0 ∧ s.sense.refState ≠ 2 then rejectWith E_NOT_READY
  else .long { s with pwm := { s.pwm with selftest := some t } } 0 []

def execProtSelftest (via : Transport) (s : State) : Host.Outcome State Fault Refusal :=
  .next (runCard (isOp 0x0901#16) (snsCard selftestRun) via s)

/-- PROT_SELFTEST_DONE (R391): the sources that failed, with the step that failed, and for each comparator the difference in
codes between its search and its conversion, 0 where there is none; a difference above 8 is a failure. Only sources under test
can fail. A source of these that has become armed acts again from now on. -/
def execProtSelftestDone (cmp : U32) (foc : U64) (hb : Byte) (step : Byte) (diffs : List U16) (s : State) : Host.Outcome State Fault Refusal :=
  match s.pwm.selftest with
  | none => .next s
  | some t =>
    let diff (k : Nat) : U16 := if t.cmp.getLsbD k then diffs.getD k 0 else 0
    let c := (cmp ||| BitVec.ofNat 32 (bitField ((List.range 32).filter (fun k => decide (8 < (diff k).toNat))))) &&& t.cmp
    let f := foc &&& t.foc
    let h := hb &&& t.hb
    let most := ((List.range 32).map diff).foldl (fun m d => if m.toNat < d.toNat then d else m) 0
    let fail (kind i : Nat) (s : State) : State := post 0x0904#16 i (n8 kind ++ [step] ++ zeros 2 ++ le16 (if kind = 0 then diff i else 0)) s
    let s1 := forEach ((List.range 32).filter (fun i => c.getLsbD i)) (fail 0) { s with pwm := { s.pwm with selftest := none } }
    let s2 := forEach ((List.range 48).filter (fun i => f.getLsbD i)) (fail 1) s1
    let s3 := forEach ((List.range 8).filter (fun i => h.getLsbD i)) (fail 3) s2
    let targets := (List.range 32).flatMap (fun k => if t.cmp.getLsbD k then (getCmp s k).targets else [])
      ++ (List.range 48).flatMap (fun k => if t.foc.getLsbD k then (getFoc s k).targets else []) ++ ((List.range 8).filter (fun h => t.hb.getLsbD h)).map (fun h => 80 + 2 * h)
    .next (endLong 0x0901#16 0 (if c = 0 ∧ f = 0 ∧ h = 0 then OK else E_VERIFY) (le32 c ++ le64 f ++ [h] ++ zeros 3 ++ le16 most) (armTrips targets s3))

end Sys2Proof.Machine
end

