-- ==== Sys2Proof/Machine/Sched.lean ====
section
/-! DEFINITION. The events of the dataflow scheduler and of Dill: reload notices, samples, dispatch, completion, commit,
overrun, hand-over and checking (spec/09, spec/10). -/

namespace Sys2Proof.Machine

open Sys2Proof

/-- The stage computes frames: it is STARTING or ENABLED. -/
def stageLive (s : State) (n : Nat) : Bool := (getStage s n).st == .starting || (getStage s n).st == .enabled

/-! ### Frames and samples -/

/-- The reload notice of frame idx arrives (R247, R267): its length is fixed, or the frame opens on the values fixed at its
reload. A frame that has committed is not opened again. One that a miss reopened before its reload takes the length and the
values of its reload then (R229; log 169). -/
def noticeArrives (n : Nat) (idx : U32) (reload len : Nat) (s : State) : State :=
  let snap := ((getStage s n).snaps.find? (fun p => p.1 == idx)).map Prod.snd
  match getFrame s n idx with
  | none => if frameAfter idx (getStage s n).cFrame then openFrame n (newFrame s n idx false reload len true none snap) s else s
  | some f =>
    let g := { f with fixed := true, reload := reload, snapR := some (snap.getD (takeSnap s n reload)) }
    if f.spec ∧ f.length ≠ len then
      missFrame n 1 { g with length := len } (updStage n (fun x => { x with periodMisses := x.periodMisses + 1 }) s)
    else updFrame n idx (fun _ => if f.spec then g else { g with length := len, cum := f.cum - f.length + len, tReload := timeAt s reload, snap := g.snapR.getD g.snap }) s

/-- RELOAD_NOTICE (R247): the oldest notice of a stage reaches the loop island; during a hand-over it waits (R281). -/
def execReloadNotice (n : Nat) (s : State) : Host.Outcome State Fault Refusal :=
  let x := getStage s n
  match x.notices with
  | [] => .next s
  | (idx, reload, len) :: t =>
    if x.handover.isSome then .next s
    else
      let s1 := updStage n (fun y => { y with notices := t }) s
      .next (if stageLive s n then followHolds n (noticeArrives n idx reload len s1) else s1)

/-- MAC8 disagrees with the lane it checks in a slot (R213, R533): event 0x0501; four mismatches on a lane within 16
rounds, MAC8 matching every other lane, retire it, mismatches on two lanes retire MAC8. -/
def macMismatch (k round : Nat) (diff : U32) (s : State) : State :=
  if !mac8Checks s then s
  else
    let lane := k % 8
    let win := (round, lane) :: s.flt.macWin.filter (fun p => decide (round < p.1 + 16))
    let s1 := postMerge 0x0501#16 lane (n8 k ++ zeros 3 ++ le32 diff) { s with flt := { s.flt with macWin := win } }
    if win.any (fun p => p.2 ≠ lane) then decideRound { cls := 2, index := 8, row := 0, reason := 3 } s1
    else if win.length ≥ 4 then decideRound { cls := 2, index := lane, row := 0, reason := 3 } s1
    else transient 2 lane s1

/-- An effect instance of a committed frame waits for an input. -/
def effectWaits (s : State) (n : Nat) (idx : U32) : Bool :=
  s.loop.insts.any (fun i => decide (i.stage = n) && i.frame == idx && i.effect && i.committed && !i.dead && i.st == .waiting)

/-- A sample becomes usable for a committed frame (R248, R250): the effect instances that read the channel are decremented,
and one that becomes ready takes the values of its inputs then. -/
def deliverTo (n c : Nat) (v : F32) (q : Nat) (f : Frame) (s : State) : State :=
  let g := { f with samples := f.samples ++ [(c, v)] }
  let s1 := { s with loop := { s.loop with insts := s.loop.insts.map (fun i =>
    if i.stage = n ∧ i.frame = f.index ∧ i.effect ∧ i.runs ∧ !i.dead ∧ i.st = .waiting then { i with acts := (effectActs s n g i.node).1, excs := (effectActs s n g i.node).2 } else i) } }
  let s2 := channelUsable n f.index c q s1
  let more := effectWaits s2 n f.index
  followHolds n (updStage n (fun x => { x with closed := (x.closed.map (fun y => if y.index = f.index then g else y)).filter (fun y => y.index != f.index || more) }) s2)

/-- A sample joins those of the newest committed frames of its round, also once no instance waits for it (R244, R269). -/
def noteSample (n c : Nat) (v : F32) (t : Nat) (s : State) : State :=
  if !(stageChannels s n).contains c then s
  else updStage n (fun x => { x with hist := x.hist.map (fun h => if h.1 = t ∧ !(h.2.any (fun p => p.1 = c)) then (h.1, h.2 ++ [(c, v)]) else h) }) s

/-- The same for every committed frame of a stage whose sample round it is. -/
def deliverClosed (n c : Nat) (v : F32) (t q : Nat) (s : State) : State :=
  noteSample n c v t (((getStage s n).closed.filter (fun f => f.round = t)).foldl (fun s f => deliverTo n c v q f s) s)

/-- SLOT_OUTPUT (R25, R248, R250, R270): the sample of a slot becomes usable; `mac` is the difference MAC8 found in the slot. On
the Filter island's fallback a round delivers nothing new (R445). -/
def execSlotOutput (k : Nat) (mac : Option U32) (s : State) : Host.Outcome State Fault Refusal :=
  let late := k = 79 ∧ s.sense.late.isSome
  let rv := if late then s.sense.late.getD s.sense.round else s.sense.round
  let q := 4 * rv.t + 80 + 50 * k
  let s0 := advanceQ q s
  let s1 := match mac with | some d => macMismatch k (rv.t / 1000) d s0 | none => s0
  if s.time.onFallback.getD 2 true ∨ rv.done.contains k then .next s1
  else
    let mark (r : RoundVals) : RoundVals := { r with done := k :: r.done }
    let s2 := if late then { s1 with sense := { s1.sense with late := none, past := s1.sense.past.map (fun r => if r.t = rv.t then mark r else r) } }
      else { s1 with sense := { s1.sense with round := mark s1.sense.round } }
    match s.flt.assigns.find? (fun a => a.first + a.gang - 1 = k) with
    | none => .next s2
    | some a =>
      match rv.vals.getD a.ch none with
      | none => .next s2
      | some v =>
        let s3 := forEach (List.range 8) (fun n s => deliverClosed n a.ch v rv.t q s) s2
        .next (forEach ((List.range 8).filter (fun n => stageLive s n ∧ (stageChannels s n).contains a.ch)) (fun n s =>
          ((getStage s n).frames.filter (fun f => f.round = rv.t)).foldl (fun s f =>
            if ((getFrame s n f.index).map (fun y => y.spec == f.spec)).getD false then followHolds n (deliverSample n a.ch v q f s) else s) s) s3)

/-! ### Dispatch and completion (R252 to R259) -/

/-- The instance that runs on a logical engine of a stage. -/
def runningOn (s : State) (n home : Nat) : Option (Nat × Inst) :=
  ((s.loop.insts.zipIdx).find? (fun (i, _) => decide (i.stage = n) && decide (i.home = home) && isChosen i)).map (fun (i, k) => (k, i))

/-- Rank keys of a ready instance, the lowest first (R255). -/
def rankKey (s : State) (i : Inst) (since : Nat) : List Nat :=
  let fr := if i.committed then 1 else
    match headFrame s i.stage with
    | some h => if i.frame = h.index then 0 else 2 + (i.frame - h.index).toNat
    | none => 2
  [fr, if i.priv then i.pq else 4, if i.priv then 15 - i.level else 0, since, i.node]

/-- Lexicographic order of keys. -/
def keyLt : List Nat → List Nat → Bool
  | a :: t, b :: u => decide (a < b) || (decide (a = b) && keyLt t u)
  | _, _ => false

/-- Ready instances of a logical engine: place, instance, since, due. -/
def readyOn (s : State) (n home : Nat) : List (Nat × Inst × Nat × Nat) :=
  (s.loop.insts.zipIdx).filterMap (fun (i, k) => match i.st with
    | .ready a d => if i.stage = n ∧ i.home = home ∧ !i.dead then some (k, i, a, d) else none
    | _ => none)

/-- INSTANCE_DISPATCH (R255, R258, R259): a free engine chooses its highest-ranked ready instance. -/
def execInstanceDispatch (e : Nat) (s : State) : Host.Outcome State Fault Refusal :=
  let x := getEngine s e
  match x.stage with
  | none => .next s
  | some n =>
    let l := readyOn s n x.logical
    match l, ((runningOn s n x.logical).isNone && decide (x.queue.length < 8) : Bool) with
    | [], _ => .next s
    | y :: _, ok =>
      if !ok then .next s
      else
        let first := l.foldl (fun m z => min m z.2.2.1) y.2.2.1
        let at_ := max (max x.freeAt x.roomAt) first
        let cand := l.filter (fun z => decide (z.2.2.1 ≤ at_))
        let best := cand.foldl (fun (m : Nat × Inst × Nat × Nat) z => if keyLt (rankKey s z.2.1 z.2.2.1) (rankKey s m.2.1 m.2.2.1) then z else m) (cand.headD y)
        let start := at_ + 6 * loopCyc s
        let lat := (start - best.2.2.2) / loopCyc s
        let s1 := setNodeInst best.1 { best.2.1 with st := .chosen start best.2.2.2 } (advanceQ at_ s)
        let s2 := if best.2.1.priv then updStage n (fun y => { y with latencyMax := max y.latencyMax (min lat 65535) }) s1 else s1
        .next (followHolds n s2)

/-- INSTANCE_END (R232 to R242, R252, R256, R273): the running instance ends; its slot is freed, its results go to its
frame, an effect takes place. -/
def execInstanceEnd (e : Nat) (s : State) : Host.Outcome State Fault Refusal :=
  let x := getEngine s e
  match x.stage with
  | none => .next s
  | some n =>
    match runningOn s n x.logical with
    | none => .next s
    | some (k, i) =>
      let start := match i.st with | .chosen t _ => t | _ => 0
      let q := start + i.cost * loopCyc s
      let s1 := updEngine e (fun y => { y with freeAt := q }) (advanceQ q s)
      if i.dead then .next (followHolds n (dropInst k s1))
      else if i.effect then
        let s2 := grantSlots n i.home q 16 (dropInst k s1)
        .next (followHolds n (i.acts.foldl (fun s a => performAct n i.node i.frame a s) s2))
      else
        let s2 := match getFrame s1 n i.frame with | some f => updFrame n i.frame (fun _ => computeNode s1 n f i.node) s1 | none => s1
        .next (followHolds n (grantSlots n i.home q 16 (endInst k i (q + 2 * loopCyc s) false s2)))

/-- COMPLETION_POST (R253, R258): the oldest waiting completion of an engine enters its queue, which has room. -/
def execCompletionPost (e : Nat) (s : State) : Host.Outcome State Fault Refusal :=
  let x := getEngine s e
  match x.waitPost with
  | [] => .next s
  | c :: t =>
    if x.queue.length ≥ 8 then .next s
    else
      let q := max c.at_ x.roomAt
      let s1 := updEngine e (fun y => { y with waitPost := t }) (advanceQ q s)
      .next (followHolds c.stage (postCompletion e q c s1))

/-- SUCCESSOR_DECREMENT (R253, R258): an engine's decrement port processes the next entry; it stops at an entry whose
instance finds no slot. -/
def execSuccessorDecrement (e : Nat) (s : State) : Host.Outcome State Fault Refusal :=
  let x := getEngine s e
  match x.queue with
  | [] => .next s
  | c :: _ =>
    let g := stageGraph s c.stage
    let target := graphSucc s g ((graphNode s g c.node).succ + c.pos)
    let stopped := match instAt s c.stage c.frame target with
      | some k => (match nodeInst s k with | some i => (match i.st with | .noSlot _ p => decide (p = some x.logical) | _ => false) | none => false)
      | none => false
    if stopped then .next s
    else
      let t := max x.portAt c.at_ + loopCyc s
      let home := (graphNode s g target).home
      let due := if home = x.logical then t else t + 2 * loopCyc s
      let (wait, s1) := decrement c.stage c.frame target due (some x.logical) (advanceQ due s)
      .next (followHolds c.stage (if wait then s1 else portDone e t s1))

/-- SCHED_STALL (R263): an engine has held dispatch for 800 cycles. -/
def execSchedStall (e : Nat) (s : State) : Host.Outcome State Fault Refusal :=
  let x := getEngine s e
  match x.stallAt, x.stage, x.queue with
  | some t, some n, c :: _ =>
    if x.stalled ∨ !holdsDispatch s e then .next s
    else
      let s1 := updEngine e (fun y => { y with stalled := true }) (advanceQ (t + 800 * loopCyc s) s)
      .next (postMerge 0x0604#16 n (n8 e ++ zeros 3 ++ le32 c.frame) s1)
  | _, _, _ => .next s

/-! ### Correction and commit (R271, R272, R275, R276, R277, R281) -/

/-- The correction of target i: the sum over the predicted inputs (R271). -/
def correctionSum (f : Frame) (i : Nat) : Fp F32 := do
  let m := f.preds.length
  fdot (← (f.preds.zipIdx).mapM (fun (p, j) => do return (wd f.jac (i * m + j), ← fsub (p.x.getD p.xhat) p.xhat)))

/-- Correct one target that the frame wrote (R272). -/
def correctTarget (i : Nat) (t : DillTarget) (f : Frame) : Frame :=
  let apply (v : F32) : F32 × List Nat := (do fadd v (← correctionSum f i) : Fp F32).run []
  let note (ex : List Nat) (f : Frame) : Frame := { f with exc := f.exc ++ ex.map (fun c => (0xFFFF, c)) }
  match t.kind with
  | 0 =>
    match f.sets.find? (fun x => x.1 = t.index) with
    | none => f
    | some (g, vs, per) =>
      let (v, ex) := apply (nsOf (vs.getD t.sub 0))
      note ex { f with sets := (g, upd vs t.sub (fun _ => toSixteenths v), per) :: f.sets.filter (fun x => x.1 ≠ g) }
  | 1 =>
    match f.sig.find? (fun p => p.1 = t.index) with
    | none => f
    | some (k, v) => let (w, ex) := apply v; note ex { f with sig := putAll [(k, w)] f.sig }
  | _ =>
    let k := 4096 * t.sub + t.index
    match f.words.find? (fun p => p.1 = k) with
    | none => f
    | some (_, v) => let (w, ex) := apply v; note ex { f with words := putAll [(k, w)] f.words }

/-- Every predicted input of a frame has passed. -/
def allPassed (f : Frame) : Bool := f.preds.all (fun p => p.x.isSome)

/-- CORRECTION_DONE (R271, R272): the correction of the oldest frame that awaits it ends. -/
def execCorrectionDone (n : Nat) (s : State) : Host.Outcome State Fault Refusal :=
  match (getStage s n).frames.find? (fun f => f.spec && f.complete && allPassed f && !f.corrected) with
  | none => .next s
  | some f =>
    let ts := (getStage s n).dill.targets
    let g := (ts.zipIdx).foldl (fun f (t, i) => correctTarget i t f) f
    .next (updFrame n f.index (fun _ => { g with corrected := true, rawSig := f.sig, rawWords := f.words }) (advanceQ f.completeAt s))

/-- Dill may commit the head frame of a stage now (R251, R275): reported complete, its length fixed, so that no period miss
can be pending, and at or before the cutoff 26.5 ns before the reload that ends it. -/
def commitReady (s : State) (n : Nat) (f : Frame) : Bool :=
  stageLive s n && f.complete && decide (f.completeAt ≤ qNow s) && f.fixed && (!f.spec || (allPassed f && f.corrected)) && !((getStage s n).notices.any (fun x => x.1 == f.index))
    && (getStage s n).handover.isNone && decide (qNow s + 106 ≤ 4 * (f.reload + f.length))

/-- The stage takes a committed frame's results (R233, R275, R277, R282). -/
def takeFrame (n : Nat) (f : Frame) (s : State) : State :=
  let slack := (4 * (f.reload + f.length - 20) - (qNow s + crossPwm s)) / 4
  let pers := f.sets.filterMap (fun (g, _, p) => p.map (fun v => (g, v)))
  let before := stageRange s n
  let s1 := updStage n (fun x => { x with
    prevRange := before, prevPub := x.pub, prevFrame := x.cFrame, commitQ := qNow s + crossPwm s, cSnap := f.snap, cRound := f.tRound
    frames := x.frames.filter (fun y => y.index ≠ f.index)
    sig := putAll f.sig x.sig, words := putAll f.words x.words, periods := putAll pers x.periods
    lastRun := putAll (f.ran.map (fun i => (i, f.cum))) x.lastRun, hist := ((f.round, f.samples) :: x.hist).take 3, pub := putAll f.pubs x.pub
    cFrame := f.index, cReload := f.reload, cTime := if f.spec then timeAt s f.reload else f.tReload, cPeriod := f.length, startCommits := if x.st = .starting then x.startCommits + 1 else x.startCommits, committed := x.committed + 1
    specCommits := if f.spec then x.specCommits + 1 else x.specCommits, consecutive := 0, sorrelCount := 0
    slackMin := if slack < x.slackMin.toNat then BitVec.ofNat 32 slack else x.slackMin, slackLast := BitVec.ofNat 32 slack
    mode := f.mode, modes := x.modes.filter (fun p => frameAfter p.1 f.index), setps := f.setps, lastCause := 2 }) s
  countExceptions n f.exc (applyWrites n (some f.index) s1)

/-- Effect instances of a committed frame take the committed values of their frame, and those whose counters are zero become
ready (R235, R250). -/
def releaseEffects (n : Nat) (f : Frame) (q : Nat) (s0 s : State) : State :=
  let mine (i : Inst) : Bool := decide (i.stage = n) && i.frame == f.index && i.effect && !i.dead
  let nodes := (s.loop.insts.filter mine).map (·.node)
  let s1 := { s with loop := { s.loop with insts := s.loop.insts.map (fun i =>
    if mine i then { i with committed := true, acts := if i.runs then (effectActs s0 n f i.node).1 else [], excs := if i.runs then (effectActs s0 n f i.node).2 else [] } else i) } }
  forEach nodes (fun node s =>
    match instAt s n f.index node with
    | some k => (match nodeInst s k with | some i => if i.st = .effectWait then (becomeDue k q none s).2 else s | none => s)
    | none => s) s1

/-- A committed frame as its effect instances read it later (R229, R235): with every committed signal and state word, and its
parameter words. -/
def closedFrame (n : Nat) (f : Frame) (s : State) : Frame :=
  let sigs := (graphNodes s (stageGraph s n)).flatMap nodeSigs
  { f with sig := putAll f.sig (sigs.map (fun k => (k, committedSig s n k))), words := putAll f.words (getStage s n).words
           pars := some ((List.range (stageGraph s n).nParams).map (paramVal s n f)) }

/-- A committed frame is kept while an effect instance of it waits for an input (R235, R250). -/
def keepClosed (n : Nat) (f : Frame) (s : State) : State :=
  if effectWaits s n f.index then updStage n (fun x => { x with closed := x.closed ++ [closedFrame n f s] }) s else s

/-- Begin a hand-over of a retired engine of the stage, if one is decided and a spare is left (R281): the spare stops
checking. -/
def beginHandover (n : Nat) (s : State) : State :=
  match nextRetire s 4, spareEngine s with
  | some r, some p =>
    if (getEngine s r.index).stage = some n then stopCheck p (updStage n (fun x => { x with handover := some (r.index, p) }) (squashAll n s)) else s
  | _, _ => s

/-- What an engine of a stage wrote in a frame, as the check takes it: its state words, the signals and the compare values of
its nodes (R279; log 152). -/
def engineWrites (s : State) (n home : Nat) (f : Frame) : Bytes :=
  let nodes := (graphNodes s (stageGraph s n)).filter (fun d => d.home = home)
  let sigs := nodes.flatMap nodeSigs
  let groups := (nodes.filter (fun d => isMod d.op)).flatMap (fun d => (nodeOuts d).map refIndex)
  (f.words.filter (fun p => p.1 / 4096 = home)).flatMap (fun p => le32 p.2) ++ (f.sig.filter (fun p => sigs.contains p.1)).flatMap (fun p => le32 p.2)
    ++ (f.sets.filter (fun x => groups.contains x.1)).flatMap (fun x => x.2.1.flatMap n32)

/-- A copy of an engine's state area and of the committed signals of its stage (R279). -/
def engineCopy (s : State) (n home : Nat) : EngCopy :=
  { words := (getStage s n).words.filter (fun p => p.1 / 4096 = home), sigs := (getStage s n).sig }

/-- A spare that checks an engine of the stage meets a commit (R279): without a copy it copies the engine's state; else the
frame is to be replayed, after the one in progress if there is one. Where the frame before it still waits, that frame could
not begin before this commit: it is skipped, and the spare copies the state again. A replay in progress goes on from its own copy. -/
def checkerCommit (copy : EngCopy) (job : Replay) (c : Checker) : Checker :=
  match c.copy, c.replay, c.next with
  | none, _, _ => { c with copy := some copy, replay := none, next := none }
  | some _, none, _ => { c with replay := some job }
  | some _, some _, none => { c with next := some job }
  | some old, some r, some _ => { c with copy := some copy, replay := some { r with base := some (r.base.getD old) }, next := none }

/-- Dill commits a frame (R275). -/
def commitFrame (n : Nat) (f : Frame) (s : State) : State :=
  let q := qNow s
  let s1 := takeFrame n f s
  let s2 := f.sets.foldl (fun s (g, vs, per) => stageSet g { vals := vs, period := per, frame := some f.index, done := ceilDiv (q + crossPwm s) 4 } s) s1
  let s3 := f.feeds.foldl (fun s (u, vs) => fuDeliver u vs f n s) s2
  let s4 := capCommit n f.index f.reload (keepClosed n f (releaseEffects n f q s s3))
  let s5 := { s4 with loop := { s4.loop with checkers := s4.loop.checkers.map (fun c =>
    match c.target with
    | some e =>
      let x := getEngine s4 e
      if x.stage = some n then checkerCommit (engineCopy s4 n x.logical) { frame := f, crc := crc32c (engineWrites s4 n x.logical f), base := none } c else c
    | none => c) } }
  followHolds n (openAhead n (beginHandover n s5))

/-- COMMIT (R251, R275). -/
def execCommit (n : Nat) (s : State) : Host.Outcome State Fault Refusal :=
  match headFrame s n with
  | none => .next s
  | some f => let s1 := if f.complete then advanceQ f.completeAt s else s; .next (if commitReady s1 n f then commitFrame n f s1 else s)

/-- The frame whose deadline is next: the head frame with a fixed length, else a frame whose notice waits (R276). -/
def deadlineFrame (s : State) (n : Nat) : Option (U32 × Nat) :=
  match headFrame s n with
  | some f => if f.fixed then some (f.index, f.reload + f.length) else none
  | none => match (getStage s n).notices with | (i, r, l) :: _ => some (i, r + l) | [] => none

/-- An overrun of a stage (R276, R277, R284). -/
def overrun (n : Nat) (idx : U32) (s : State) : State :=
  let lost := getFrame s n idx
  let s1 := squashFrom n idx s
  let s2 := updStage n (fun x => { x with
    overruns := x.overruns + 1, consecutive := min 255 (x.consecutive + 1), overrunPub := true, suspend := some (idx + 16), sorrelCount := x.sorrelCount + 1
    notices := x.notices.filter (fun y => y.1 ≠ idx), setps := match lost with | some f => f.setps | none => x.setps }) s1
  let x := getStage s2 n
  let s3 := postMerge 0x0606#16 n (le32 idx ++ n8 x.consecutive ++ n8 x.lastCause) (applyWrites n (some idx) s2)
  let s4 := updStage n (fun y => { y with lastCause := 2 }) s3
  if x.sorrelCount ≥ x.dill.limit then
    safetyActs rOVERRUN 0 n (post 0x0607#16 n (le32 idx ++ n8 x.dill.limit) (updStage n (fun y => { y with spaFlag := true }) s4))
  else s4

/-- COMMIT_DEADLINE (R31, R276): 20 ns before the reload that ends it, a head frame that has not committed is squashed. -/
def execCommitDeadline (n : Nat) (s : State) : Host.Outcome State Fault Refusal :=
  match (if stageLive s n then deadlineFrame s n else none) with
  | none => .next s
  | some (idx, end_) => .next (followHolds n (overrun n idx (advanceTo (end_ - 20) s)))

/-- SUSPENSION_END (R276): the last frame of the suspension has committed, and frames are opened ahead again. -/
def execSuspensionEnd (n : Nat) (s : State) : Host.Outcome State Fault Refusal :=
  match (getStage s n).suspend with
  | none => .next s
  | some e => if frameAfter e (getStage s n).cFrame then .next s else .next (followHolds n (openAhead n (updStage n (fun x => { x with suspend := none }) s)))

/-- HANDOVER_DONE (R281): the spare serves the logical engine, and frames open again, first those whose notices waited
(R247), then those ahead (R264). -/
def execHandoverDone (n : Nat) (s : State) : Host.Outcome State Fault Refusal :=
  match (getStage s n).handover, nextRetire s 4 with
  | some (e, p), some r =>
    let s1 := updStage n (fun x => { x with handover := none, handovers := x.handovers + 1 }) (takeOver e p s)
    let s2 := finishRetire r (some p) s1
    let s3 := post 0x0609#16 n (n8 e ++ n8 p ++ n8 (sparesLeft s2 4 0) ++ [0] ++ le32 (getStage s2 n).cFrame) s2
    let s4 := settleEngines 4 s3
    let s5 := (getStage s4 n).notices.foldl (fun s (i, r, l) => if stageLive s n then noticeArrives n i r l s else s) (updStage n (fun y => { y with notices := [] }) s4)
    .next (followHolds n (openAhead n s5))
  | _, _ => .next s

/-! ### The rotating checker (R279, R280, R533) -/

/-- Engines that a spare may check: in service, of a stage that is not OFF, not checked by the other spare. -/
def checkable (s : State) (me : Nat) : List Nat :=
  (List.range 18).filter (fun e => (getEngine s e).service == .inService && (match (getEngine s e).stage with | some n => !stageOff s n | none => false)
    && decide ((s.loop.checkers.getD (1 - (me - 16)) checker0).target ≠ some e))

/-- CHECKER_DWELL_EXPIRY (R279): a spare engine moves on after 1 ms. -/
def execCheckerDwellExpiry (e : Nat) (s : State) : Host.Outcome State Fault Refusal :=
  if (getEngine s e).service ≠ .spare ∨ e < 16 ∨ (List.range 8).any (fun n => (getStage s n).handover.any (fun h => h.2 = e)) then .next s
  else
    let c := s.loop.checkers.getD (e - 16) checker0
    let s1 := advanceTo c.dwellEnd s
    .next { s1 with loop := { s1.loop with checkers := upd s1.loop.checkers (e - 16) (fun c =>
      { c with target := cyclicNext (checkable s1 e) c.target, dwellEnd := s1.time.raw + 1000000, copy := none, replay := none, next := none }) } }

/-- A verdict counts against an engine: a second one within 1 s retires it (R533). -/
def engineVerdict (e : Nat) (s : State) : State :=
  let recent := s.rel.engSeen.any (fun p => p.1 = e ∧ s.time.raw ≤ p.2 + 1000000000)
  if recent then decideRetire { cls := 4, index := e, row := 0, reason := 3 } s
  else transient 4 e { s with rel := { s.rel with engSeen := (e, s.time.raw) :: s.rel.engSeen.filter (fun p => p.1 ≠ e) } }

/-- The verdict on a mismatch after the second replay (R280): 0 the engine, 1 the first spare, 2 all, 3 unconfirmed, where the
one spare left repeats its own replay and does not find the same again. -/
def checkVerdict (lone : Bool) (own crc crc2 : U32) : Nat :=
  if crc2 = crc then 0 else if lone then 3 else if crc2 = own then 1 else 2

def updChecker (e : Nat) (f : Checker → Checker) (s : State) : State := { s with loop := { s.loop with checkers := upd s.loop.checkers (e - 16) f } }

/-- The second replay of a mismatch ends (R280): event 0x0608, and the verdict counts. -/
def secondReplay (e : Nat) (d : Doubt) (crc : U32) (s : State) : State :=
  let lone := decide (d.first = e)
  let v := checkVerdict lone d.job.crc d.crc crc
  let s1 := post 0x0608#16 d.engine (n8 d.first ++ n8 (if lone then 0xFF else e) ++ n8 v ++ [0] ++ le32 d.job.frame.index) s
  let who := match v with | 0 => [d.engine] | 1 => [d.first] | 2 => [d.engine, d.first, e] | _ => []
  settleEngines 4 (forEach who engineVerdict s1)

/-- The first replay of a frame ends (R279): where its CRC-32C is the commit's, the spare's own state follows the frame, unless it has
been copied anew since; else the copy that the frame was replayed from and its inputs are kept, the other spare, or this one where
it is the last, replays the frame, and this one copies the engine's state again. -/
def firstReplay (e t n : Nat) (copy : EngCopy) (job : Replay) (crc : U32) (s : State) : State :=
  let home := (getEngine s t).logical
  let s1 := updStage n (fun x => { x with checked := x.checked + 1 }) s
  if crc = job.crc then
    updChecker e (fun y => { y with replay := y.next, next := none, copy := if job.base.isSome then y.copy else some { words := putAll (job.frame.words.filter (fun p => p.1 / 4096 = home)) copy.words, sigs := putAll job.frame.sig copy.sigs } }) s1
  else
    let second := if (getEngine s (33 - e)).service = .spare then 33 - e else e
    updChecker second (fun y => { y with doubts := y.doubts ++ [{ engine := t, first := e, copy := job.base.getD copy, job := job, crc := crc }] })
      (updChecker e (fun y => { y with copy := if job.base.isSome then y.copy else none, replay := if job.base.isSome then y.next else none, next := none }) (updStage n (fun x => { x with mismatches := x.mismatches + 1 }) s1))

/-- CHECKER_REPLAY_DONE (R279, R280): a spare ends its oldest second replay, or else the replay in progress. `flip` is what a
defect makes of the CRC-32C of the replay: 0 where the replay gives the words of the commit. -/
def execCheckerReplayDone (e : Nat) (flip : U32) (s : State) : Host.Outcome State Fault Refusal :=
  let c := s.loop.checkers.getD (e - 16) checker0
  if e < 16 ∨ (getEngine s e).service ≠ .spare then .next s
  else match c.doubts, c.target, c.copy, c.replay with
    | d :: l, _, _, _ => .next (secondReplay e d (d.job.crc ^^^ flip) (updChecker e (fun y => { y with doubts := l }) s))
    | [], some t, some copy, some job =>
      (match (getEngine s t).stage with
      | none => .next s
      | some n => .next (firstReplay e t n copy job (job.crc ^^^ flip) s))
    | _, _, _, _ => .next s

end Sys2Proof.Machine
end

