-- ==== Sys2Proof/Machine/Dispatch.lean ====
section
/-! DEFINITION. The dispatch: one arm per command, each one direct call of its meaning. -/

namespace Sys2Proof.Machine

def exec (i : Instr) (s : State) : Host.Outcome State Fault Refusal :=
  match i with
  | .requestWrite cpol bytes => Sys2Proof.Machine.execRequestWrite cpol bytes s
  | .replyRead cpol n => Sys2Proof.Machine.execReplyRead cpol n s
  | .statusPoll cpol n => Sys2Proof.Machine.execStatusPoll cpol n s
  | .unknownTransaction cpol first n => Sys2Proof.Machine.execUnknownTransaction cpol first n s
  | .udpDatagram port tag srcIp srcPort bytes => Sys2Proof.Machine.execUdpDatagram port tag srcIp srcPort bytes s
  | .sessionIdleTimeout port session => Sys2Proof.Machine.execSessionIdleTimeout port session s
  | .sysIdentify via => Sys2Proof.Machine.execSysIdentify via s
  | .sysStatus via => Sys2Proof.Machine.execSysStatus via s
  | .sysReset via => Sys2Proof.Machine.execSysReset via s
  | .resetDelayExpiry => Sys2Proof.Machine.execResetDelayExpiry s
  | .sysSetState via fail => Sys2Proof.Machine.execSysSetState via fail s
  | .sysPublishRate via => Sys2Proof.Machine.execSysPublishRate via s
  | .evtRead via => Sys2Proof.Machine.execEvtRead via s
  | .evtAck via => Sys2Proof.Machine.execEvtAck via s
  | .evtMask via => Sys2Proof.Machine.execEvtMask via s
  | .bulkRead addr len clocked => Sys2Proof.Machine.execBulkRead addr len clocked s
  | .bulkReadHold addr len clocked => Sys2Proof.Machine.execBulkReadHold addr len clocked s
  | .bulkRelease => Sys2Proof.Machine.execBulkRelease s
  | .bulkStatus clocked => Sys2Proof.Machine.execBulkStatus clocked s
  | .bulkWrite addr len data => Sys2Proof.Machine.execBulkWrite addr len data s
  | .bulkBadCommand code compl addr len => Sys2Proof.Machine.execBulkBadCommand code compl addr len s
  | .holdLatchExpiry => Sys2Proof.Machine.execHoldLatchExpiry s
  | .supplyWarning i0 v held => Sys2Proof.Machine.execSupplyWarning i0 v held s
  | .brownOut rail v held => Sys2Proof.Machine.execBrownOut rail v held s
  | .porst low => Sys2Proof.Machine.execPorst low s
  | .warmrst low => Sys2Proof.Machine.execWarmrst low s
  | .thermal tj held => Sys2Proof.Machine.execThermal tj held s
  | .watchdog => Sys2Proof.Machine.execWatchdog s
  | .lockstep => Sys2Proof.Machine.execLockstep s
  | .resetRelease bootsel rails held porstN warmrstN clear => Sys2Proof.Machine.execResetRelease bootsel rails held porstN warmrstN clear s
  | .wipeDone fails selftest => Sys2Proof.Machine.execWipeDone fails selftest s
  | .bootComplete => Sys2Proof.Machine.execBootComplete s
  | .imageStart => Sys2Proof.Machine.execImageStart s
  | .imageDatagram tag ip port b => Sys2Proof.Machine.execImageDatagram tag ip port b s
  | .imgVerify via => Sys2Proof.Machine.execImgVerify via s
  | .imgVerifyDone => Sys2Proof.Machine.execImgVerifyDone s
  | .driverSupplyRelease => Sys2Proof.Machine.execDriverSupplyRelease s
  | .prechargeStart => Sys2Proof.Machine.execPrechargeStart s
  | .prechargeEnd h vBoot => Sys2Proof.Machine.execPrechargeEnd h vBoot s
  | .clkSetPlan via => Sys2Proof.Machine.execClkSetPlan via s
  | .clkHop via => Sys2Proof.Machine.execClkHop via s
  | .clkStoreSearch via => Sys2Proof.Machine.execClkStoreSearch via s
  | .clkOutput via => Sys2Proof.Machine.execClkOutput via s
  | .adpllLock i0 hopLocked band fine f rms refEdge => Sys2Proof.Machine.execAdpllLock i0 hopLocked band fine f rms refEdge s
  | .outputRelease i0 out => Sys2Proof.Machine.execOutputRelease i0 out s
  | .lossOfLock i0 reason => Sys2Proof.Machine.execLossOfLock i0 reason s
  | .relockStart i0 => Sys2Proof.Machine.execRelockStart i0 s
  | .relockAttemptTimeout i0 => Sys2Proof.Machine.execRelockAttemptTimeout i0 s
  | .roundStart bits caps => Sys2Proof.Machine.execRoundStart bits caps s
  | .slotOutput k mac => Sys2Proof.Machine.execSlotOutput k mac s
  | .sarConversion core p code chk => Sys2Proof.Machine.execSarConversion core p code chk s
  | .bsStuck ch level => Sys2Proof.Machine.execBsStuck ch level s
  | .refSettled => Sys2Proof.Machine.execRefSettled s
  | .slowPathSettled ch => Sys2Proof.Machine.execSlowPathSettled ch s
  | .filterSettled ch => Sys2Proof.Machine.execFilterSettled ch s
  | .snsRefEnable via => Sys2Proof.Machine.execSnsRefEnable via s
  | .snsConfigChannel via => Sys2Proof.Machine.execSnsConfigChannel via s
  | .snsConfigSequence via => Sys2Proof.Machine.execSnsConfigSequence via s
  | .snsConfigAccumulator via => Sys2Proof.Machine.execSnsConfigAccumulator via s
  | .snsConfigTracker via => Sys2Proof.Machine.execSnsConfigTracker via s
  | .snsCalZero via => Sys2Proof.Machine.execSnsCalZero via s
  | .snsCalSpan via => Sys2Proof.Machine.execSnsCalSpan via s
  | .calDone ch => Sys2Proof.Machine.execCalDone ch s
  | .snsAccRead via => Sys2Proof.Machine.execSnsAccRead via s
  | .accLatch => Sys2Proof.Machine.execAccLatch s
  | .snsUrgent via => Sys2Proof.Machine.execSnsUrgent via s
  | .urgentReply => Sys2Proof.Machine.execUrgentReply s
  | .fltLoad via => Sys2Proof.Machine.execFltLoad via s
  | .fltAssign via => Sys2Proof.Machine.execFltAssign via s
  | .fltQueryDelay via => Sys2Proof.Machine.execFltQueryDelay via s
  | .graphLoad via => Sys2Proof.Machine.execGraphLoad via s
  | .graphLoadDone => Sys2Proof.Machine.execGraphLoadDone s
  | .graphStart via => Sys2Proof.Machine.execGraphStart via s
  | .graphStartModeOnly via => Sys2Proof.Machine.execGraphStartModeOnly via s
  | .graphStop via => Sys2Proof.Machine.execGraphStop via s
  | .graphWriteParam via => Sys2Proof.Machine.execGraphWriteParam via s
  | .dillConfig via => Sys2Proof.Machine.execDillConfig via s
  | .graphStats via => Sys2Proof.Machine.execGraphStats via s
  | .paramQueueTake => Sys2Proof.Machine.execParamQueueTake s
  | .stageStartBegin n => Sys2Proof.Machine.execStageStartBegin n s
  | .timersStart n => Sys2Proof.Machine.execTimersStart n s
  | .timerReload t => Sys2Proof.Machine.execTimerReload t s
  | .refreshPeriod h => Sys2Proof.Machine.execRefreshPeriod h s
  | .reloadNotice n => Sys2Proof.Machine.execReloadNotice n s
  | .instanceDispatch e => Sys2Proof.Machine.execInstanceDispatch e s
  | .instanceEnd e => Sys2Proof.Machine.execInstanceEnd e s
  | .completionPost e => Sys2Proof.Machine.execCompletionPost e s
  | .successorDecrement e => Sys2Proof.Machine.execSuccessorDecrement e s
  | .schedStall e => Sys2Proof.Machine.execSchedStall e s
  | .correctionDone n => Sys2Proof.Machine.execCorrectionDone n s
  | .commit n => Sys2Proof.Machine.execCommit n s
  | .handoverDone n => Sys2Proof.Machine.execHandoverDone n s
  | .commitDeadline n => Sys2Proof.Machine.execCommitDeadline n s
  | .suspensionEnd n => Sys2Proof.Machine.execSuspensionEnd n s
  | .checkerDwellExpiry e => Sys2Proof.Machine.execCheckerDwellExpiry e s
  | .checkerReplayDone e flip => Sys2Proof.Machine.execCheckerReplayDone e flip s
  | .kernelEnd u => Sys2Proof.Machine.execKernelEnd u s
  | .feedTimeout u => Sys2Proof.Machine.execFeedTimeout u s
  | .pllLockQualified u tracker => Sys2Proof.Machine.execPllLockQualified u tracker s
  | .rideExit u => Sys2Proof.Machine.execRideExit u s
  | .decayEnd u => Sys2Proof.Machine.execDecayEnd u s
  | .blackStartEnd u => Sys2Proof.Machine.execBlackStartEnd u s
  | .bsStalled u => Sys2Proof.Machine.execBsStalled u s
  | .closePermit u => Sys2Proof.Machine.execClosePermit u s
  | .islandDetected u => Sys2Proof.Machine.execIslandDetected u s
  | .fuShutdownTimeout u => Sys2Proof.Machine.execFuShutdownTimeout u s
  | .restorationStep u => Sys2Proof.Machine.execRestorationStep u s
  | .fuConfigPort via => Sys2Proof.Machine.execFuConfigPort via s
  | .fuConfigLaw via => Sys2Proof.Machine.execFuConfigLaw via s
  | .fuConfigLimits via => Sys2Proof.Machine.execFuConfigLimits via s
  | .fuConfigSync via => Sys2Proof.Machine.execFuConfigSync via s
  | .fuMode via => Sys2Proof.Machine.execFuMode via s
  | .fuSetpoint via => Sys2Proof.Machine.execFuSetpoint via s
  | .fuSchedule via => Sys2Proof.Machine.execFuSchedule via s
  | .pwmTimer via => Sys2Proof.Machine.execPwmTimer via s
  | .pwmTimerQuery via => Sys2Proof.Machine.execPwmTimerQuery via s
  | .pwmChannelChannel via => Sys2Proof.Machine.execPwmChannelChannel via s
  | .pwmChannelGroup via => Sys2Proof.Machine.execPwmChannelGroup via s
  | .pwmChannelQuery via => Sys2Proof.Machine.execPwmChannelQuery via s
  | .pwmEnable via => Sys2Proof.Machine.execPwmEnable via s
  | .pwmDisable via => Sys2Proof.Machine.execPwmDisable via s
  | .pwmWriteGroup via => Sys2Proof.Machine.execPwmWriteGroup via s
  | .compareMatch c => Sys2Proof.Machine.execCompareMatch c s
  | .deadTimeExpiry c => Sys2Proof.Machine.execDeadTimeExpiry c s
  | .minpwExpiry c => Sys2Proof.Machine.execMinpwExpiry c s
  | .startTimeout n => Sys2Proof.Machine.execStartTimeout n s
  | .stageShutdownEnd n => Sys2Proof.Machine.execStageShutdownEnd n s
  | .readbackSample c level => Sys2Proof.Machine.execReadbackSample c level s
  | .cuSpareDwellExpiry u => Sys2Proof.Machine.execCuSpareDwellExpiry u s
  | .cuMismatch k => Sys2Proof.Machine.execCuMismatch k s
  | .fltTrip c => Sys2Proof.Machine.execFltTrip c s
  | .fltHigh c => Sys2Proof.Machine.execFltHigh c s
  | .cmpTrip k zone => Sys2Proof.Machine.execCmpTrip k zone s
  | .cmpRelease k => Sys2Proof.Machine.execCmpRelease k s
  | .blankingEnd k => Sys2Proof.Machine.execBlankingEnd k s
  | .focTrip k bits => Sys2Proof.Machine.execFocTrip k bits s
  | .hbMonitorTrip h high short => Sys2Proof.Machine.execHbMonitorTrip h high short s
  | .hbStatusWord h hsVds lsVds vBoot => Sys2Proof.Machine.execHbStatusWord h hsVds lsVds vBoot s
  | .bootstrapUndervoltage h vBoot => Sys2Proof.Machine.execBootstrapUndervoltage h vBoot s
  | .driverSupply temp level value held => Sys2Proof.Machine.execDriverSupply temp level value held s
  | .protConfigComparator via => Sys2Proof.Machine.execProtConfigComparator via s
  | .protConfigFastDetector via => Sys2Proof.Machine.execProtConfigFastDetector via s
  | .protConfigFltInput via => Sys2Proof.Machine.execProtConfigFltInput via s
  | .protConfigHalfBridge via => Sys2Proof.Machine.execProtConfigHalfBridge via s
  | .protConfigLeg via => Sys2Proof.Machine.execProtConfigLeg via s
  | .protSelftest via => Sys2Proof.Machine.execProtSelftest via s
  | .protSelftestDone cmp foc hb step diffs => Sys2Proof.Machine.execProtSelftestDone cmp foc hb step diffs s
  | .protStatus via => Sys2Proof.Machine.execProtStatus via s
  | .safetyCycle => Sys2Proof.Machine.execSafetyCycle s
  | .safetyDebounceExpiry ch n => Sys2Proof.Machine.execSafetyDebounceExpiry ch n s
  | .testPulseWindowEnd => Sys2Proof.Machine.execTestPulseWindowEnd s
  | .estopDiscrepancy => Sys2Proof.Machine.execEstopDiscrepancy s
  | .contactorMismatch k => Sys2Proof.Machine.execContactorMismatch k s
  | .permitWithdraw ch k => Sys2Proof.Machine.execPermitWithdraw ch k s
  | .gridTrip e => Sys2Proof.Machine.execGridTrip e s
  | .reconnectionWaitEnd => Sys2Proof.Machine.execReconnectionWaitEnd s
  | .safetyLockstepMismatch => Sys2Proof.Machine.execSafetyLockstepMismatch s
  | .channelDisagreement fault => Sys2Proof.Machine.execChannelDisagreement fault s
  | .safetyClock => Sys2Proof.Machine.execSafetyClock s
  | .paramRecheck ok => Sys2Proof.Machine.execParamRecheck ok s
  | .testDue => Sys2Proof.Machine.execTestDue s
  | .safeLoadParams via => Sys2Proof.Machine.execSafeLoadParams via s
  | .safeGetCheck via => Sys2Proof.Machine.execSafeGetCheck via s
  | .safeCommission via => Sys2Proof.Machine.execSafeCommission via s
  | .safeStatus via => Sys2Proof.Machine.execSafeStatus via s
  | .safeAckFault via => Sys2Proof.Machine.execSafeAckFault via s
  | .downlinkSend => Sys2Proof.Machine.execDownlinkSend s
  | .downlinkReceive lane spare => Sys2Proof.Machine.execDownlinkReceive lane spare s
  | .uplinkSend vField dieTemp currents tpRead => Sys2Proof.Machine.execUplinkSend vField dieTemp currents tpRead s
  | .uplinkReceive lane spare => Sys2Proof.Machine.execUplinkReceive lane spare s
  | .fieldLinkTimeout => Sys2Proof.Machine.execFieldLinkTimeout s
  | .linkLost => Sys2Proof.Machine.execLinkLost s
  | .vfield kind on v held => Sys2Proof.Machine.execVfield kind on v held s
  | .inputDebounceExpiry n => Sys2Proof.Machine.execInputDebounceExpiry n s
  | .freqGateEnd n => Sys2Proof.Machine.execFreqGateEnd n s
  | .pullinEnd o => Sys2Proof.Machine.execPullinEnd o s
  | .outputFault o kind value current held => Sys2Proof.Machine.execOutputFault o kind value current held s
  | .outputShutdownEnd o => Sys2Proof.Machine.execOutputShutdownEnd o s
  | .fioConfigInput via => Sys2Proof.Machine.execFioConfigInput via s
  | .fioConfigOutput via => Sys2Proof.Machine.execFioConfigOutput via s
  | .fioConfigLink via => Sys2Proof.Machine.execFioConfigLink via s
  | .fioWrite via => Sys2Proof.Machine.execFioWrite via s
  | .fioRead via => Sys2Proof.Machine.execFioRead via s
  | .timeSetDomain via => Sys2Proof.Machine.execTimeSetDomain via s
  | .timeFeedOffset via => Sys2Proof.Machine.execTimeFeedOffset via s
  | .timeSelectActive via => Sys2Proof.Machine.execTimeSelectActive via s
  | .timeRead via => Sys2Proof.Machine.execTimeRead via s
  | .holdoverEntry d => Sys2Proof.Machine.execHoldoverEntry d s
  | .holdoverLimitExpiry d => Sys2Proof.Machine.execHoldoverLimitExpiry d s
  | .switchComplete => Sys2Proof.Machine.execSwitchComplete s
  | .ptpSync i0 tag origin correction delay => Sys2Proof.Machine.execPtpSync i0 tag origin correction delay s
  | .ptpAnnounce i0 tag gm prio1 cls acc var prio2 steps => Sys2Proof.Machine.execPtpAnnounce i0 tag gm prio1 cls acc var prio2 steps s
  | .ptpPdelay i0 tag what seq delay turn => Sys2Proof.Machine.execPtpPdelay i0 tag what seq delay turn s
  | .ptpSyncInterval i0 announce => Sys2Proof.Machine.execPtpSyncInterval i0 announce s
  | .ethLink port up speed => Sys2Proof.Machine.execEthLink port up speed s
  | .arpRequest port tag target senderMac senderIp => Sys2Proof.Machine.execArpRequest port tag target senderMac senderIp s
  | .icmpEcho port tag srcIp data => Sys2Proof.Machine.execIcmpEcho port tag srcIp data s
  | .ethConfigPort via => Sys2Proof.Machine.execEthConfigPort via s
  | .ethConfigInstance via => Sys2Proof.Machine.execEthConfigInstance via s
  | .ethSessionOpen via => Sys2Proof.Machine.execEthSessionOpen via s
  | .canConfig via => Sys2Proof.Machine.execCanConfig via s
  | .canSend via => Sys2Proof.Machine.execCanSend via s
  | .canCancel via => Sys2Proof.Machine.execCanCancel via s
  | .canRxAck via => Sys2Proof.Machine.execCanRxAck via s
  | .canRecover via => Sys2Proof.Machine.execCanRecover via s
  | .canTap via => Sys2Proof.Machine.execCanTap via s
  | .canFrameReceived p f ago => Sys2Proof.Machine.execCanFrameReceived p f ago s
  | .canTxAttempt p => Sys2Proof.Machine.execCanTxAttempt p s
  | .canTxOutcome p result tdc => Sys2Proof.Machine.execCanTxOutcome p result tdc s
  | .canBusError p code count => Sys2Proof.Machine.execCanBusError p code count s
  | .canRecoveryDone p => Sys2Proof.Machine.execCanRecoveryDone p s
  | .canShutdownEnd p => Sys2Proof.Machine.execCanShutdownEnd p s
  | .canTapTimeout k => Sys2Proof.Machine.execCanTapTimeout k s
  | .capConfig via => Sys2Proof.Machine.execCapConfig via s
  | .capArmStop via => Sys2Proof.Machine.execCapArmStop via s
  | .capArmArm via => Sys2Proof.Machine.execCapArmArm via s
  | .capArmForce via => Sys2Proof.Machine.execCapArmForce via s
  | .capStatus via => Sys2Proof.Machine.execCapStatus via s
  | .capTrigbusCalSet via => Sys2Proof.Machine.execCapTrigbusCalSet via s
  | .capTrigbusCalRespond via => Sys2Proof.Machine.execCapTrigbusCalRespond via s
  | .capTrigbusCalInitiate via => Sys2Proof.Machine.execCapTrigbusCalInitiate via s
  | .calPulseResponse => Sys2Proof.Machine.execCalPulseResponse s
  | .trigbusCalDone rt own spread unanswered => Sys2Proof.Machine.execTrigbusCalDone rt own spread unanswered s
  | .captureRowWrite => Sys2Proof.Machine.execCaptureRowWrite s
  | .trigBusEdge line low => Sys2Proof.Machine.execTrigBusEdge line low s
  | .trigDriveEnd line => Sys2Proof.Machine.execTrigDriveEnd line s
  | .streamBlockSend => Sys2Proof.Machine.execStreamBlockSend s
  | .captureShutdownEnd => Sys2Proof.Machine.execCaptureShutdownEnd s
  | .sageSupplyWarn at_ v held bits => Sys2Proof.Machine.execSageSupplyWarn at_ v held bits s
  | .sageReset forSeal v held => Sys2Proof.Machine.execSageReset forSeal v held s
  | .sageResetRelease v held => Sys2Proof.Machine.execSageResetRelease v held s
  | .sageMeteringStart => Sys2Proof.Machine.execSageMeteringStart s
  | .sageClockLost => Sys2Proof.Machine.execSageClockLost s
  | .sageClockRestored => Sys2Proof.Machine.execSageClockRestored s
  | .sageWindowEnd bits => Sys2Proof.Machine.execSageWindowEnd bits s
  | .pulseEmit => Sys2Proof.Machine.execPulseEmit s
  | .pulseEnd => Sys2Proof.Machine.execPulseEnd s
  | .retentionEntry => Sys2Proof.Machine.execRetentionEntry s
  | .retentionProbe found => Sys2Proof.Machine.execRetentionProbe found s
  | .sageTiePoint count => Sys2Proof.Machine.execSageTiePoint count s
  | .checkpointDue => Sys2Proof.Machine.execCheckpointDue s
  | .signingDone => Sys2Proof.Machine.execSigningDone s
  | .sageRead via => Sys2Proof.Machine.execSageRead via s
  | .sageSignedRecord via => Sys2Proof.Machine.execSageSignedRecord via s
  | .sageSetTime via => Sys2Proof.Machine.execSageSetTime via s
  | .sageEventLog via => Sys2Proof.Machine.execSageEventLog via s
  | .sageRestore via => Sys2Proof.Machine.execSageRestore via s
  | .sageRestoreDone => Sys2Proof.Machine.execSageRestoreDone s
  | .sageSealQuery via => Sys2Proof.Machine.execSageSealQuery via s
  | .sageSealLoadParameters via => Sys2Proof.Machine.execSageSealLoadParameters via s
  | .sageSealSeal via => Sys2Proof.Machine.execSageSealSeal via s
  | .sageSealBreak via => Sys2Proof.Machine.execSageSealBreak via s
  | .sageSealPulseEnable via => Sys2Proof.Machine.execSageSealPulseEnable via s
  | .sageSealPulseDisable via => Sys2Proof.Machine.execSageSealPulseDisable via s
  | .sealNonceExpiry => Sys2Proof.Machine.execSealNonceExpiry s
  | .publicationInstant volts tj plls => Sys2Proof.Machine.execPublicationInstant volts tj plls s
  | .publicationSwap => Sys2Proof.Machine.execPublicationSwap s
  | .scrubRead m w bits use scrub => Sys2Proof.Machine.execScrubRead m w bits use scrub s
  | .rowRemap => Sys2Proof.Machine.execRowRemap s
  | .repairLogWriteDone => Sys2Proof.Machine.execRepairLogWriteDone s
  | .otpWriteBlock via => Sys2Proof.Machine.execOtpWriteBlock via s
  | .otpProgramDone ok => Sys2Proof.Machine.execOtpProgramDone ok s
  | .otpReadBlock via => Sys2Proof.Machine.execOtpReadBlock via s
  | .lcTransitionQuery via => Sys2Proof.Machine.execLcTransitionQuery via s
  | .lcTransition via => Sys2Proof.Machine.execLcTransition via s
  | .lcNonceExpiry => Sys2Proof.Machine.execLcNonceExpiry s
  | .spareStatus via => Sys2Proof.Machine.execSpareStatus via s
  | .repairRestore via => Sys2Proof.Machine.execRepairRestore via s
  | .jtagInstruction trstN i0 code => Sys2Proof.Machine.execJtagInstruction trstN i0 code s
  | .unassignedOpcode via => Sys2Proof.Machine.execUnassignedOpcode via s
  | .vendorTestOpcode via => Sys2Proof.Machine.execVendorTestOpcode via s
  | .commandPortOpen => Sys2Proof.Machine.execCommandPortOpen s
  | .bsStuckClear ch => Sys2Proof.Machine.execBsStuckClear ch s
  | .focRelease k bits => Sys2Proof.Machine.execFocRelease k bits s
  | .fieldInputEdge n v held => Sys2Proof.Machine.execFieldInputEdge n v held s
  | .supplyWarningRelease i0 v held => Sys2Proof.Machine.execSupplyWarningRelease i0 v held s
  | .sageSupplyWarnRelease v held => Sys2Proof.Machine.execSageSupplyWarnRelease v held s
  | .tiePointsStopped => Sys2Proof.Machine.execTiePointsStopped s
  | .announceReceiptTimeout i0 => Sys2Proof.Machine.execAnnounceReceiptTimeout i0 s
  | .ethFrameDiscarded port badFcs tag len other => Sys2Proof.Machine.execEthFrameDiscarded port badFcs tag len other s
  | .canRejoin p lost => Sys2Proof.Machine.execCanRejoin p lost s

end Sys2Proof.Machine
end

