-- ==== Sys2Proof/Machine/Idle.lean ====
section
/-! DEFINITION. What passes while no command waits: time (R443, R445). -/

namespace Sys2Proof.Machine

open Sys2Proof

/-- One cycle of the PWM island: the extended raw count adds 1, or 10 on the fallback oscillator; it stands at 0 until
t_rel, and a cycle in reset ends the one in which the reset was asserted (R120). What an instant brings is the command
of that instant. -/
def idleCycle (s : State) : State :=
  if s.sys.phase = .inReset then { s with sys := { s.sys with causeOpen := false } }
  else { s with time := { s.time with raw := s.time.raw + (if pwmFallback s then 10 else 1) } }

end Sys2Proof.Machine
end

