-- ==== Sys2Proof/Machine/Pins.lean ====
section
/-! DEFINITION. What the output balls carry that no other definition gives as a level (spec/22; R122, R156, R513): clock outputs,
CAN, JTAG, Ethernet and Sage. The gate channels are `chanOut`, BUSY `busyLevel`, ATTN_N `attnLow`, and the rest fields of State. -/

namespace Sys2Proof.Machine

open Sys2Proof

/-- What an output ball carries: a level, a clock or its complement, the bits of its protocol, high impedance, electrical idle. -/
inductive Ball where
  | low | high | clock | inverted | data | floating | idle
deriving DecidableEq, Repr

/-- An output pair that runs, or that is gated or disabled: in LVDS format P low and N high, in CMOS format both low, as N always is
(R156, R560, R562). -/
def pairBalls (runs cmos : Bool) : Ball × Ball :=
  (if runs then .clock else .low, if cmos then .low else if runs then .inverted else .high)
/-- Output i delivers its clock: MCLKg, CLKOUT from its source, SYNCCLK_OUT (R145, R157). -/
def outRuns (s : State) (i : Nat) : Bool :=
  let o := getOut s i
  let pll (k : Nat) : Bool := ((getPll s k).state == .locked || (getPll s k).state == .verify) && !((getPll s k).gated.contains i)
  if i < 8 then mclkRuns s i else o.enable && (if i = 9 then pll 1 else if o.source < 2 then pll o.source else true)
/-- MCLKg_P and MCLKg_N for i below 8, CLKOUT_P and CLKOUT_N, SYNCCLK_OUT_P and SYNCCLK_OUT_N. -/
def clkBalls (s : State) (i : Nat) : Ball × Ball := pairBalls (outRuns s i) (getOut s i).cmos

/-- CANp_TX: recessive unless the port takes part on its bus (R561). -/
def canBall (s : State) (p : Nat) : Ball :=
  match (getCan s p).bus with
  | .active | .passive => .data
  | .off | .busOff | .recovering => .high
/-- TDO: at high impedance in a reset; outside one the TAP drives it while it shifts. -/
def tdoBall (s : State) : Ball := if s.sys.phase = .inReset then .floating else .data
/-- The pair ETHn_SGTX, and ETHn_TXC, ETHn_TX_CTL and ETHn_TXD alike: those of the interface that is not selected, and all of a
port that is not enabled, stay as in reset (R563). -/
def ethBalls (s : State) (n : Nat) : Ball × Ball :=
  match s.eth[n]? with
  | some e => (if e.enable && !e.rgmii then .data else .idle, if e.enable && e.rgmii then .data else .low)
  | none => (.idle, .low)
/-- MCLK_SAGE at a tick of Sage's clock: running while Sage is ACTIVE, and in RETENTION for 2 ms in every 20 ms, from the instant of
each probe on (R513, R565); whatever the control die does. -/
def mclkSage (x : Sage) (tick : Nat) : Bool := x.phase != .inReset && !x.clockFail && (!x.retention || decide (tick % 1966080 < 196608))
/-- MPULSE: as Sage drives it, low after a Sage reset (R565). -/
def mpulseBall (x : Sage) : Ball := if x.pulse then .high else .low

end Sys2Proof.Machine
end

