-- ==== Sys2Proof/Safety.lean ====
section
/-! DEFINITION. What a safe run keeps, in the terms that claims use. -/

namespace Sys2Proof

open Sys2Proof.Machine

/-- Every addressed memory of the part is in its canonical form. -/
def MemoriesOk (s : State) : Prop :=
  memWf s.loop.mem = true ∧ memWf s.flt.mem = true ∧ memWf s.cap.mem = true ∧ memWf s.can.mem = true ∧ memWf s.rel.otp = true
    ∧ memWf s.img.host = true ∧ memWf s.img.latched = true ∧ (∀ b, s.img.back = some b → memWf b = true)

/-- No fuse of the OTP that is set in `s` is clear in `t` (R540: programming only sets bits). -/
def FusesKept (s t : State) : Prop := ∀ a, memRead s.rel.otp a &&& ~~~(memRead t.rel.otp a) = 0

/-! ### The part has its fixed numbers of resources: every list that stands for numbered resources has one place for each -/

def timeSized (x : Thyme) : Prop := x.domains.length = 4 ∧ x.onFallback.length = 5
def clkSized (x : Clocks) : Prop := x.plls.length = 2 ∧ x.outs.length = 10
def senseSized (x : Sense) : Prop := x.chans.length = 80 ∧ x.cores.length = 4 ∧ x.accs.length = 64 ∧ x.mmxs.length = 64
def fltSized (x : Filter) : Prop := x.chans.length = 80 ∧ x.sets.length = 64 ∧ x.setsReq.length = 64
def pwmSized (x : Pwm) : Prop :=
  x.timers.length = 24 ∧ x.groups.length = 32 ∧ x.channels.length = 96 ∧ x.units.length = 104 ∧ x.flts.length = 80 ∧ x.cmps.length = 32 ∧ x.focs.length = 48 ∧ x.hbs.length = 8
def loopSized (x : Loop) : Prop := x.stages.length = 8 ∧ x.engines.length = 18 ∧ x.checkers.length = 2
def safeSized (x : Safety) : Prop := x.cont.length = 4 ∧ x.contProc.length = 4 ∧ x.elems.length = 8 ∧ x.test.missing.length = 16
def fieldSized (x : Field) : Prop := x.ins.length = 16 ∧ x.outs.length = 8 ∧ x.shutting.length = 8 ∧ x.owner.length = 8
def capSized (x : Capture) : Prop := x.traces.length = 64 ∧ x.holdoff.length = 4 ∧ x.holdWas.length = 4 ∧ x.drives.length = 4 ∧ x.fall.length = 4 ∧ x.taken.length = 4
def relSized (x : Rel) : Prop := x.transient.length = 6 ∧ x.sarRetired.length = 5 ∧ x.macRetired.length = 9 ∧ x.laneRetired.length = 3
def sageSized (x : Sage) : Prop := x.copies.length = 3 ∧ (∀ c ∈ x.copies, c.length = 10) ∧ x.tails.length = 8 ∧ x.past.length = 8

/-- Every list of numbered resources has its length. -/
def Sized (s : State) : Prop :=
  timeSized s.time ∧ s.eth.length = 2 ∧ s.insts.length = 3 ∧ clkSized s.clk ∧ senseSized s.sense ∧ fltSized s.flt ∧ pwmSized s.pwm ∧ loopSized s.loop ∧ safeSized s.safe
    ∧ fieldSized s.field ∧ capSized s.cap ∧ s.fus.length = 2 ∧ s.can.ports.length = 6 ∧ sageSized s.sage ∧ relSized s.rel

/-- `t` differs from `s` at most in the event log and in the capture unit, which listens to events (R489). -/
def LogOnly (s t : State) : Prop := t = { s with evt := t.evt, cap := t.cap }

/-- `t` differs from `s` at most in what replies and completions reach: the command port's queues, the sessions, the
Ethernet ports, the error counter, the long operations still owed, the event log and the capture unit. -/
def ReplyOnly (s t : State) : Prop :=
  t = { s with cmd := t.cmd, udp := t.udp, eth := t.eth, evt := t.evt, cap := t.cap
               sys := { s.sys with errors := t.sys.errors, longs := t.sys.longs } }

/-- The request `r` is the next one of transport `via`, carries opcode `op` and passes the checks 1 to 4 of R55. -/
def Takes (op : U16) (via : Transport) (s : State) (r : Req) : Prop :=
  nextRequest s via = some r ∧ reqOpcode r = op ∧ headerCheck (dropRequest s via) r = none

/-- The state in which a request is carried out: it has left its queue and is counted. -/
def taken (s : State) (via : Transport) : State := countRequest (dropRequest s via)

end Sys2Proof
end

