-- ==== Sys2Proof/Certificates/Slice0/Obligations.lean ====
section
/-! DEFINITION. The statements for the provers: what the commands of the 96G do, by the rules of its spec. -/

open Sys2Proof Sys2Proof.Machine

namespace Sys2Proof.Claims

/-- The event log entry that an event makes now (R85). -/
def entryOf (s : State) (code : U16) (source : Nat) (data : Bytes) : LogEntry :=
  { seq := s.evt.nextSeq, time := activeTime s, code := code, source := BitVec.ofNat 8 source, rept := 0, data := eventData data, read := false }

/-- The reply to a request that its command carries out: the request has left its queue, `t` is what the command makes of
the rest of the state, and the refused packets behind it are answered in their turn (R62). -/
def replied (r : Req) (status : U16) (payload : Bytes) (t : State) : Host.Outcome State Fault Refusal :=
  .next (flushTurn r.via (replyTo r status payload t))

/-- The outcome of a request that is carried out but whose immediate reply a later event forms (R182, R185): it still counts
among those that wait for one (R62, R75). -/
def awaited (r : Req) (t : State) : Host.Outcome State Fault Refusal := .next (flushTurn r.via (oweMore r.via t))

/-- The state after a transaction of the command port sent the status byte and `tail` (R44). -/
def afterMiso (s : State) (cpol : Bool) (tail : Bytes) : State :=
  { s with cmd := { s.cmd with miso := portStatus s :: tail, cpol := cpol } }

/-- The image buffer that a burst of the state image reads: the held latch, else the host-visible image (R105, R107). -/
def latchOf (s : State) : List Host.Cell := if s.bulk.held then s.img.latched else s.img.host

/-- The state after a burst of `n` bytes that begins at offset `off` of the state image, of which `clocked` were clocked:
only the latch and the bytes driven change. -/
def afterImageBurst (hold : Bool) (off n clocked : Nat) (s : State) : State :=
  { s with img := { s.img with latched := latchOf s }
           bulk := { s.bulk with held := hold, epoch := if s.bulk.held then s.bulk.epoch else s.img.epoch, lastUse := s.time.raw
                                 out := slice ((List.range (min n clocked)).map (fun i => memRead (latchOf s) ((off + i) % 0x10000))) 0 clocked } }

/-- The outcome of a request that is accepted as a long operation (R58): the accepted reply, and the operation pending on what
its command makes of the rest of the state. -/
def accepted (r : Req) (key : Nat) (payload : Bytes) (t : State) : Host.Outcome State Fault Refusal :=
  replied r ACCEPTED payload { t with sys := { t.sys with longs := t.sys.longs ++ [{ owed := owedOf r, key := key, result := none }] } }

/-- A setting of the sense inputs is noted for the next round boundary. -/
def noted (k : SenseConf) (t : State) : State := { t with sense := { t.sense with confs := t.sense.confs ++ [k] } }

/-- No protection source is active: no FLT input, comparator zone, fast detector or bootstrap is in its trip condition. -/
def quiet (s : State) : Prop :=
  (∀ c < 80, (getFlt s c).active = false) ∧ (∀ k < 32, cmpZoneOn (getCmp s k) = false) ∧ (∀ k < 48, (getFoc s k).tripped = false) ∧ (∀ h < 8, (getHb s h).bootLow = false)

/-- The instant, in quarters of 1 ns, at which a free engine makes its next choice: when it and a ready instance are there. -/
def choiceAt (s : State) (e n : Nat) (y : Nat × Inst × Nat × Nat) : Nat :=
  max (max (getEngine s e).freeAt (getEngine s e).roomAt) ((readyOn s n (getEngine s e).logical).foldl (fun m z => min m z.2.2.1) y.2.2.1)

/-- The parameters of FU_CONFIG kinds 1 and 2 are in their ranges (spec/11). -/
def lawRanges (p : Bytes) : Prop :=
  p.length = 64 ∧ n8At p 0 < 2 ∧ n8At p 1 = 1 ∧ n8At p 2 ≤ 1 ∧ byteAt p 3 = 0 ∧ zeroAt p 56 8 = true ∧ f32In (u32At p 4) (5 / 100) 30 = true ∧ f32In (u32At p 8) 0 200 = true
    ∧ f32In (u32At p 12) (1 / 10) 10 = true ∧ f32In (u32At p 16) (1 / 10) 20 = true ∧ f32In (u32At p 20) 0 (1 / 2) = true ∧ f32In (u32At p 24) 0 (1 / 2) = true
    ∧ f32In (u32At p 28) 0 (1 / 2) = true ∧ f32In (u32At p 32) (2 / 10000) (1 / 10) = true ∧ f32In (u32At p 36) (2 / 10000) (1 / 10) = true ∧ f32In (u32At p 40) (1 / 1000) 100 = true
    ∧ f32In (u32At p 44) (1 / 1000) 100 = true ∧ f32In (u32At p 48) (1 / 100) 10 = true ∧ f32In (u32At p 52) (1 / 100) 10 = true
def limRanges (p : Bytes) : Prop :=
  p.length = 40 ∧ n8At p 0 < 2 ∧ n8At p 1 = 2 ∧ n8At p 2 ≤ 1 ∧ byteAt p 3 = 0 ∧ zeroAt p 32 8 = true ∧ f32In (u32At p 4) 1 2 = true ∧ f32In (u32At p 8) 0 1 = true
    ∧ f32In (u32At p 12) 0 1 = true ∧ f32In (u32At p 16) (1 / 1000) 1 = true ∧ f32In (u32At p 20) 0 1 = true ∧ f32In (u32At p 24) 0 1 = true ∧ f32In (u32At p 28) 0 1 = true

/-- The settings that FU_CONFIG kinds 1 and 2 give. -/
def lawOf (p : Bytes) : LawConf :=
  let w (o : Nat) : F32 := f32Param (u32At p o)
  { avg := decide (n8At p 2 = 1), h := w 4, d := w 8, mp := w 12, nq := w 16, rv := w 20, xv := w 24, rv0 := w 28, taup := w 32, tauq := w 36, rampP := w 40, rampQ := w 44,
    rampF := w 48, rampV := w 52 }
def limOf (p : Bytes) : LimConf :=
  let w (o : Nat) : F32 := f32Param (u32At p o)
  { freeze := decide (n8At p 2 = 1), ilim := w 4, rride := w 8, xride := w 12, exit := w 16, rh3 := w 20, rh5 := w 24, rh7 := w 28 }

/-- A unit is OFF and no request waits for it. -/
def fuIdle (s : State) (u : Nat) : Prop := (getFu s u).mode = .off ∧ (getFu s u).reqs = [] ∧ (getFu s u).nowReqs = []

/-- The stage that a list of optional stages names is OFF, for each that is there. -/
def allOff (s : State) (l : List (Option Nat)) : Prop := ∀ n, some n ∈ l → (getStage s n).st = .off

/-- The targets of a source lie on one leg of stage n, and no fault of another leg of that stage is recent. -/
def oneLeg (s : State) (n : Nat) (ts : List Nat) : Prop :=
  ∃ l : Nat, (∀ c ∈ ts, c < 96 ∧ chanStage s c = some n ∧ chanLeg s c = l) ∧ ∀ d ∈ stageChans s n, (getChan s d).rawFault = none ∨ chanLeg s d = l

/-- What a trip with a cause does to its targets: each has a fault, its own if it had one, and only the targets, the log and the
capture unit change. -/
def tripped (s t : State) (cause : Byte) (ts : List Nat) : Prop :=
  (∀ c ∈ ts, (getChan t c).fault = some ((getChan s c).fault.getD cause)) ∧ (∀ c, c ∉ ts → getChan t c = getChan s c)
    ∧ t = { s with pwm := { s.pwm with channels := t.pwm.channels }, evt := t.evt, cap := t.cap }

/-- From `s` a safety function has set the safe state for one reason, the first: the device is in SAFE with that cause alone. -/
def actedFor (s t : State) (reason : Nat) : Prop :=
  t.sys.dev = .safe ∧ t.safe.causes = 1#16 <<< (reason - 1) ∧ t.safe.firstReason = reason ∧ t.safe.entries = s.safe.entries + 1 ∧ t.sys.faultN = false

/-- The capture stays TRIGGERED once a trigger is taken: rows of its pacing stage are still to come. -/
def rowsToCome (s : State) : Prop :=
  s.cap.st = .armed ∧ s.cap.trig = none ∧ s.cap.postLeft = none
    ∧ (s.cap.frames ≠ [] ∨ s.cap.paced = false ∨ ((getStage s (capConf s).stage).st = .enabled ∨ (getStage s (capConf s).stage).st = .starting) ∧ (capConf s).stage < 8)

/-- No edge of a trigger-bus line has been taken whose pulse is not yet over. -/
def noneTaken (s : State) : Prop := ∀ o ∈ s.cap.taken, o = none

/-- Every row already written lies before an active time (R490). -/
def rowsBefore (s : State) (t : Int) : Prop := ∀ r, s.cap.past.head? = some r → activeAt s.time r.reload < t

/-- `t` differs from `s` in Sage only, and in the events that the housekeeping pair posts for it. -/
def SageOnly (s t : State) : Prop := t = { s with sage := t.sage, evt := t.evt, cap := t.cap }

/-- Sage's count, time and slew after it has run to a tick, if that lies ahead (R504, R524). -/
def ranTo (tick : Nat) (s : State) : Sage := (sageAdvance tick s).sage

/-- A Sage window with the bits of its inputs has been measured from `s` to `t`: each energy register has grown by the energy of the
window's length at the power that the contributing phases give it, if that is positive, its three copies are equal, and a loaded
parameter block is in use (R507, R508, R511, R531). -/
def windowAdded (s t : State) (bits : List (List Bool)) : Prop :=
  t.sage.copies = List.replicate 3 (sageRegs t.sage) ∧ t.sage.params = s.sage.next.or s.sage.params ∧ t.sage.next = none
    ∧ ∀ (w : Nat × List (List Rat)) (ks : List Nat) (p q : Rat) (reg : Nat → BitVec 96) (add : Nat → Rat → BitVec 96), w = sageSamples s.sage bits → (∀ i, reg i = (sageRegs t.sage).getD i 0) →
        (∀ k, k ∈ ks ↔ k ∈ sagePhases s.sage ∧ sageIStart s.sage ≤ sageRms s.sage w k) → ks.Pairwise (· < ·) → p = (ks.map (sageP s.sage w)).sum → q = (ks.map (sageQ s.sage w)).sum →
        (∀ i v, add i v = (sageRegs s.sage).getD i 0 + (if v > 0 then BitVec.ofNat 96 (energyOf v (t.sage.ticks - s.sage.windowStart)) else 0)) →
        reg 0 = add 0 p ∧ reg 1 = add 1 (-p) ∧ reg 2 = add 2 q ∧ reg 3 = add 3 (-q)
          ∧ ∀ k < 3, (k ∈ ks → reg (4 + k) = add (4 + k) (sageP s.sage w k) ∧ reg (7 + k) = add (7 + k) (-sageP s.sage w k)) ∧ (k ∉ ks → reg (4 + k) = add (4 + k) 0 ∧ reg (7 + k) = add (7 + k) 0)

/-- The table of R545 has a row from the present lifecycle state to the target, and what the row asks of the OTP holds: a customer key
set in block 3 and revoked by none of its generations for DEVELOP to PRODUCTION, a safety block committed from OTP that is its newest
generation for PRODUCTION to COMMISSIONED. -/
def lcListed (s : State) (tgt : Nat) : Bool :=
  match s.sys.lifecycle with
  | .blank => decide (tgt = 2 ∨ tgt = 5 ∨ tgt = 6)
  | .develop => decide (tgt = 5 ∨ tgt = 6) || (decide (tgt = 3) && (List.range 4).any (fun k => (slice (blockBytes s 3) (48 * k) 48).any (· != 0) && (List.range 4).all (fun g => !slotValid 3 (otpSlot s 3 g) || !(byteAt (otpSlot s 3 g) 192).getLsbD k)))
  | .production => decide (tgt = 5 ∨ tgt = 6) || (decide (tgt = 4) && s.safe.inOtp && s.safe.block.isSome && (newestGen s 2).map (fun x => x.2.take 252) == s.safe.block)
  | .commissioned => decide (tgt = 3 ∨ tgt = 5 ∨ tgt = 6)
  | .returned => decide (tgt = 5 ∨ tgt = 6)
  | .ended => false
/-- A transition that R545 lists and that requires a token. -/
def lcTokened (l : Lifecycle) (tgt : Nat) : Bool :=
  match l with
  | .blank | .develop => decide (tgt = 5)
  | .commissioned => decide (tgt = 3 ∨ tgt = 5 ∨ tgt = 6)
  | _ => decide (tgt = 5 ∨ tgt = 6)

/-- The OTP of `t` is that of `s` outside the bytes a to a + n - 1, and no fuse is cleared. -/
def otpOutside (s t : State) (a n : Nat) : Prop := FusesKept s t ∧ ∀ b, b < a ∨ a + n ≤ b → memRead t.rel.otp b = memRead s.rel.otp b

/-- An uplink frame shows no fault, flag or applied level that frame `b` before it did not show. -/
def noNews (v b : UpFrame) : Prop :=
  v.doApplied = b.doApplied ∧ v.faultCodes = b.faultCodes ∧ v.chatter = b.chatter ∧ (∀ k < 3, v.status.getLsbD k = b.status.getLsbD k) ∧ v.tpMis = b.tpMis

/-- The settings of a CAN_CONFIG are those that the port has. -/
def canSame (x : CanPort) (b : Bytes) : Prop :=
  x.timing = timingOf b ∧ x.fd = (byteAt b 2).getLsbD 0 ∧ x.tdcOn = (byteAt b 2).getLsbD 1 ∧ x.acceptAll = (byteAt b 2).getLsbD 2 ∧ x.inOrder = (byteAt b 2).getLsbD 3 ∧ x.tapEntries = n8At b 3

/-- The error counters of a CAN port after an error that counts so (R475; log 100). -/
def canCounted (x : CanPort) : CanCount → Nat × Nat
  | .receiver => (x.tec, min 255 (x.recv + 1))
  | .receiverFlag => (x.tec, min 255 (x.recv + 8))
  | .transmitter | .transmitterFlag => (x.tec + 8, x.recv)
  | .none => (x.tec, x.recv)

/-- A frame of `len` bytes before its tag, with the tag given, comes to an Ethernet port that is up and takes it (R459, R461). -/
def arrives (s : State) (port : Nat) (tag : Option Nat) (len : Nat) : Prop := ethUp s port = true ∧ ethFits s port tag (len + 4 * tag.toList.length) = true

/-- A port takes the settings of an ETH_CONFIG kind 0: its sessions close, and with its enable goes its link (R459, R461). -/
def portSet (port : Nat) (p : Bytes) (s : State) : State :=
  updEth port (portOfParams p) (if n8At p 2 = 1 ∨ (s.eth.getD port eth0).link = false then closePortSessions port 2 s else linkDown port s)

/-- The causes of a reset that are internal (R119). -/
def internalCauses : List Byte := [0x04#8, 0x05, 0x06, 0x12, 0x13, 0x14, 0x15]

/-- The transport whose next request a command takes, for the commands that do nothing but serve a request (every one
but SYS_SET_STATE, which also ends a state change that is ready to end). -/
def servedVia : Instr → Option Transport
  | .sysIdentify via | .sysStatus via | .sysReset via | .sysPublishRate via | .evtRead via | .evtAck via | .evtMask via | .imgVerify via
  | .clkSetPlan via | .clkHop via | .clkStoreSearch via | .clkOutput via | .snsRefEnable via | .snsConfigChannel via | .snsConfigSequence via
  | .snsConfigAccumulator via | .snsConfigTracker via | .snsCalZero via | .snsCalSpan via | .snsAccRead via | .snsUrgent via | .fltLoad via
  | .fltAssign via | .fltQueryDelay via | .graphLoad via | .graphStart via | .graphStartModeOnly via | .graphStop via | .graphWriteParam via
  | .dillConfig via | .graphStats via | .fuConfigPort via | .fuConfigLaw via | .fuConfigLimits via | .fuConfigSync via | .fuMode via | .fuSetpoint via
  | .fuSchedule via | .pwmTimer via | .pwmTimerQuery via | .pwmChannelChannel via | .pwmChannelGroup via | .pwmChannelQuery via | .pwmEnable via
  | .pwmDisable via | .pwmWriteGroup via | .protConfigComparator via | .protConfigFastDetector via | .protConfigFltInput via
  | .protConfigHalfBridge via | .protConfigLeg via | .protSelftest via | .protStatus via | .safeLoadParams via | .safeGetCheck via
  | .safeCommission via | .safeStatus via | .safeAckFault via | .fioConfigInput via | .fioConfigOutput via | .fioConfigLink via | .fioWrite via
  | .fioRead via | .timeSetDomain via | .timeFeedOffset via | .timeSelectActive via | .timeRead via | .ethConfigPort via | .ethConfigInstance via
  | .ethSessionOpen via | .canConfig via | .canSend via | .canCancel via | .canRxAck via | .canRecover via | .canTap via | .capConfig via
  | .capArmStop via | .capArmArm via | .capArmForce via | .capStatus via | .capTrigbusCalSet via | .capTrigbusCalRespond via
  | .capTrigbusCalInitiate via | .sageRead via | .sageSignedRecord via | .sageSetTime via | .sageEventLog via | .sageRestore via
  | .sageSealQuery via | .sageSealLoadParameters via | .sageSealSeal via | .sageSealBreak via | .sageSealPulseEnable via
  | .sageSealPulseDisable via | .otpWriteBlock via | .otpReadBlock via | .lcTransitionQuery via | .lcTransition via | .spareStatus via
  | .repairRestore via | .unassignedOpcode via | .vendorTestOpcode via => some via
  | _ => none

/-- The rows whose requests pass through the parameter queue (R261; log 73). -/
def paramRows (c : Instr) : Bool :=
  match c with
  | .graphWriteParam _ | .graphStartModeOnly _ | .fuConfigPort _ | .fuConfigLaw _ | .fuConfigLimits _ | .fuConfigSync _ | .fuMode _ | .fuSetpoint _ | .fuSchedule _ => true
  | _ => false

/-- A row of the opcode table is the one that a request belongs to, by its opcode and its kind or action byte: a byte that no row names,
or a packet too short to hold one, belongs to the first. SYS_SET_STATE stands apart. -/
def ownRow (c : Instr) (r : Req) : Bool :=
  let p := reqParams r
  let op (n : Nat) : Bool := decide ((reqOpcode r).toNat = n)
  let k : Nat := if p = [] then 0 else n8At p 0
  let fk : Nat := if p.length < 2 then 0 else n8At p 1
  match c with
  | .sysIdentify _ => op 0x0100
  | .sysStatus _ => op 0x0101
  | .sysReset _ => op 0x0102
  | .sysPublishRate _ => op 0x0104
  | .evtRead _ => op 0x0110
  | .evtAck _ => op 0x0111
  | .evtMask _ => op 0x0112
  | .clkSetPlan _ => op 0x0200
  | .clkHop _ => op 0x0201
  | .clkStoreSearch _ => op 0x0202
  | .clkOutput _ => op 0x0203
  | .timeSetDomain _ => op 0x0300
  | .timeFeedOffset _ => op 0x0301
  | .timeSelectActive _ => op 0x0302
  | .timeRead _ => op 0x0303
  | .ethConfigPort _ => op 0x0310 && !decide (1 ≤ k ∧ k ≤ 1)
  | .ethConfigInstance _ => op 0x0310 && decide (k = 1)
  | .ethSessionOpen _ => op 0x0311
  | .snsRefEnable _ => op 0x0400
  | .snsConfigChannel _ => op 0x0401 && !decide (1 ≤ k ∧ k ≤ 3)
  | .snsConfigSequence _ => op 0x0401 && decide (k = 1)
  | .snsConfigAccumulator _ => op 0x0401 && decide (k = 2)
  | .snsConfigTracker _ => op 0x0401 && decide (k = 3)
  | .snsCalZero _ => op 0x0402
  | .snsCalSpan _ => op 0x0403
  | .snsAccRead _ => op 0x0404
  | .snsUrgent _ => op 0x0405
  | .fltLoad _ => op 0x0500
  | .fltAssign _ => op 0x0501
  | .fltQueryDelay _ => op 0x0502
  | .graphLoad _ => op 0x0600
  | .graphStart _ => op 0x0601 && !(byteAt p 2).getLsbD 0
  | .graphStartModeOnly _ => op 0x0601 && (byteAt p 2).getLsbD 0
  | .graphStop _ => op 0x0602
  | .dillConfig _ => op 0x0603
  | .graphStats _ => op 0x0604
  | .graphWriteParam _ => op 0x0605
  | .fuConfigPort _ => op 0x0700 && !decide (1 ≤ fk ∧ fk ≤ 3)
  | .fuConfigLaw _ => op 0x0700 && decide (fk = 1)
  | .fuConfigLimits _ => op 0x0700 && decide (fk = 2)
  | .fuConfigSync _ => op 0x0700 && decide (fk = 3)
  | .fuMode _ => op 0x0701
  | .fuSetpoint _ => op 0x0702
  | .fuSchedule _ => op 0x0703
  | .pwmTimer _ => op 0x0800 && !(byteAt p 6).getLsbD 1
  | .pwmTimerQuery _ => op 0x0800 && (byteAt p 6).getLsbD 1
  | .pwmChannelChannel _ => op 0x0801 && !decide (1 ≤ k ∧ k ≤ 2)
  | .pwmChannelGroup _ => op 0x0801 && decide (k = 1)
  | .pwmChannelQuery _ => op 0x0801 && decide (k = 2)
  | .pwmEnable _ => op 0x0802
  | .pwmDisable _ => op 0x0803
  | .pwmWriteGroup _ => op 0x0804
  | .protConfigComparator _ => op 0x0900 && !decide (1 ≤ k ∧ k ≤ 4)
  | .protConfigFastDetector _ => op 0x0900 && decide (k = 1)
  | .protConfigFltInput _ => op 0x0900 && decide (k = 2)
  | .protConfigHalfBridge _ => op 0x0900 && decide (k = 3)
  | .protConfigLeg _ => op 0x0900 && decide (k = 4)
  | .protSelftest _ => op 0x0901
  | .protStatus _ => op 0x0902
  | .safeLoadParams _ => op 0x0A00
  | .safeGetCheck _ => op 0x0A01
  | .safeCommission _ => op 0x0A02
  | .safeStatus _ => op 0x0A03
  | .safeAckFault _ => op 0x0A04
  | .fioConfigInput _ => op 0x0B00 && !decide (1 ≤ k ∧ k ≤ 2)
  | .fioConfigOutput _ => op 0x0B00 && decide (k = 1)
  | .fioConfigLink _ => op 0x0B00 && decide (k = 2)
  | .fioWrite _ => op 0x0B01
  | .fioRead _ => op 0x0B02
  | .canConfig _ => op 0x0C00
  | .canSend _ => op 0x0C01
  | .canCancel _ => op 0x0C02
  | .canRxAck _ => op 0x0C03
  | .canRecover _ => op 0x0C04
  | .canTap _ => op 0x0C05
  | .capConfig _ => op 0x0D00
  | .capArmStop _ => op 0x0D01 && !decide (1 ≤ k ∧ k ≤ 2)
  | .capArmArm _ => op 0x0D01 && decide (k = 1)
  | .capArmForce _ => op 0x0D01 && decide (k = 2)
  | .capStatus _ => op 0x0D02
  | .capTrigbusCalSet _ => op 0x0D03 && !decide (1 ≤ k ∧ k ≤ 2)
  | .capTrigbusCalRespond _ => op 0x0D03 && decide (k = 1)
  | .capTrigbusCalInitiate _ => op 0x0D03 && decide (k = 2)
  | .sageRead _ => op 0x0E00
  | .sageSignedRecord _ => op 0x0E01
  | .sageSetTime _ => op 0x0E02
  | .sageEventLog _ => op 0x0E03
  | .sageRestore _ => op 0x0E04
  | .sageSealQuery _ => op 0x0E05 && !decide (1 ≤ k ∧ k ≤ 5)
  | .sageSealLoadParameters _ => op 0x0E05 && decide (k = 1)
  | .sageSealSeal _ => op 0x0E05 && decide (k = 2)
  | .sageSealBreak _ => op 0x0E05 && decide (k = 3)
  | .sageSealPulseEnable _ => op 0x0E05 && decide (k = 4)
  | .sageSealPulseDisable _ => op 0x0E05 && decide (k = 5)
  | .otpWriteBlock _ => op 0x0F00
  | .otpReadBlock _ => op 0x0F01
  | .lcTransitionQuery _ => op 0x0F02 && !decide (1 ≤ k ∧ k ≤ 1)
  | .lcTransition _ => op 0x0F02 && decide (k = 1)
  | .imgVerify _ => op 0x0F03
  | .spareStatus _ => op 0x0F04
  | .repairRestore _ => op 0x0F05
  | .vendorTestOpcode _ => decide (opClass (reqOpcode r) = 0x7F)
  | .unassignedOpcode _ => !assigned (reqOpcode r) && !decide (opClass (reqOpcode r) = 0x7F)
  | _ => false

/-- The bytes `b` have been stored at `off`, and every other byte is as it was. -/
def stored (m m' : List Host.Cell) (off : Nat) (b : Bytes) : Prop := ∀ a, memRead m' a = if off ≤ a ∧ a < off + b.length then b.getD (a - off) 0 else memRead m a

/-- What a write burst does whose first refused byte is at `addr`: the port drives nothing, the refusal is counted and flagged, and event
0x010B is posted with the address and the reason, or merged with the unacknowledged entry of the same two (R101, R110). -/
def burstRefused (addr k : Nat) (s : State) : State :=
  postMergeWith 0x010B#16 0 (n32 addr ++ n8 k) (fun e => e.data == eventData (n32 addr ++ n8 k)) (fun o _ => o)
    { s with bulk := { s.bulk with out := [], refusedF := true, refused := if s.bulk.refused = 0xFFFF#16 then s.bulk.refused else s.bulk.refused + 1 } }

/-- A pending set of a group of timer `k` may be taken by a reload of that timer at `r` (R358, R359): its move lies before, and a
graph's set belongs to a frame that has ended, or that this reload ends. -/
def ripe (s : State) (n k r : Nat) (c : CompareSet) : Prop :=
  c.done < r ∧ ∀ f, c.frame = some f → 0 < ((getStage s n).frameIndex - f).toInt
    ∨ ((getStage s n).frameIndex = f ∧ ((frameTimer s n = some k ∧ (getStage s n).divLeft ≤ 1) ∨ (getStage s n).frameEnd ≤ r))

/-- T_k in s (R287), and as the filters, the swing equation and the ramps take it (R289). -/
def tkOf (x : FormingUnit) (f : FuFeed) : F32 := toF32 (mkRat (f.dom - x.tkDom : Nat) 1000000000)
def tkCut (x : FormingUnit) (f : FuFeed) : F32 := fmin (tkOf x f) (fpVal (fdiv 0x40800000#32 x.port.fk))

/-- The swing equation of R297 by backward Euler as R295 writes it, with its clamp: from ω_v, f_w, Δf_res, P_w, P_f, ω_pll and T. -/
def swungTo (c : PortConf) (l : LawConf) (w fw df pw pf wpll t : F32) : F32 := fpVal do
  let w0 ← fadd (← fdiv fw c.fn) (← fdiv df c.fn)
  let mp ← fdiv l.mp fHundred
  let a ← fdiv t (← fmul fTwo l.h)
  let up ← fadd w (← fmul a (← fadd (← fsub (← fadd (← fdiv pw c.sb) (← fdiv w0 mp)) pf) (← fmul l.d wpll)))
  let v ← fdiv up (← fadd fOne (← fmul a (← fadd (← fdiv fOne mp) l.d)))
  return fclamp v (← fsub fOne (← fdiv c.dfmax c.fn)) (← fadd fOne (← fdiv c.dfmax c.fn))

/-- E of R298, clamped: from V_w, ΔV_res, Q_w and Q_f. -/
def droopTo (c : PortConf) (l : LawConf) (vw dv qw qf : F32) : F32 := fpVal do
  let nq ← fdiv l.nq fHundred
  return fclamp (← fadd (← fadd (← fdiv vw c.vb) (← fdiv dv c.vb)) (← fmul nq (← fsub (← fdiv qw c.sb) qf))) 0 c.emax

/-- The step of a 64-bit angle over an interval in ns (R301). -/
def stepOf (w fn : F32) (ns : Nat) : U64 := BitVec.ofInt 64 (ratRound (f32Val (fpVal (fmul w fn)) * ns * (2 ^ 64 : Nat) / 1000000000))

/-- A PLL after one period on a voltage (R299): its error, its PI, its speed and its angle; it keeps its lock while the criteria hold. -/
def pllTo (c : PortConf) (p q : Pll) (a b t : F32) (ns : Nat) : Prop :=
  ∃ v e d : F32, v = fpVal (do return fsqrt (← fadd (← fmul a a) (← fmul b b))) ∧ e = fpVal (do fsub (← fmul b (fuCos (angleOf p.theta))) (← fmul a (fuSin (angleOf p.theta))))
    ∧ d = fpVal (fmul c.fn (fmax v 0x3DCCCCCD#32))
    ∧ q.integ = fpVal (do fadd p.integ (← fmul (← fmul (← fdiv (← fmul 0x40C90FDB#32 (← fmul c.bpll c.bpll)) d) t) e))
    ∧ q.omega = fpVal (do return fclamp (← fadd fOne (← fadd (← fmul (← fdiv (← fmul 0x3FB4FDF4#32 c.bpll) d) e) q.integ)) (← fsub fOne (← fdiv c.dfmax c.fn)) (← fadd fOne (← fdiv c.dfmax c.fn)))
    ∧ q.theta = p.theta + stepOf q.omega c.fn ns ∧ q.v = v
    ∧ (q.locked = true ↔ p.locked = true ∧ f32Le 0x3E99999A#32 v = true ∧ f32Le (fabs e) (fpVal (fmul 0x3D4CCCCD#32 v)) = true)

/-- One working value over one period without a new target (R305): in NORMAL it moves to its target by at most a step, in another mode
a ramp ends at its target. -/
def ramped (old new : FuSet) (mode : Nat) (step : F32) : Prop :=
  new.target = old.target ∧ (old.ramp = false → new = old)
    ∧ (old.ramp = true → mode ≠ 0 → new.work = old.target ∧ new.ramp = false)
    ∧ ∀ gap, old.ramp = true → mode = 0 → gap = fpVal (fsub old.target old.work) →
        (f32Le (fabs gap) step = true → new.work = old.target ∧ new.ramp = false)
        ∧ (f32Le (fabs gap) step = false → new.work = fpVal (fadd old.work (if gap.msb then fneg step else step)) ∧ new.ramp = true)

/-- What a kernel period of a running unit without a request leaves, by R293 to R306: `y` from `x` and its feed. -/
def lawDone (x y : FormingUnit) (f : FuFeed) : Prop :=
  ∀ (c : PortConf) (r q : FuRun) (t : F32) (ns : Nat) (i : FuIn), c = x.port → r = x.run → q = y.run → t = tkCut x f → ns = f.dom - x.tkDom → i = fpVal (readFeed x true f.vals (tkOf x f)) →
    (c.split = false → ∀ k < 3,
      [i.a, i.b, i.z].getD k 0 = fpVal (do fdiv (← fnorm (f.vals.getD k 0)) (← fmul fRoot2 c.vb))
      ∧ [i.ia, i.ib, i.iz].getD k 0 = fpVal (do fdiv (← fnorm (f.vals.getD (3 + k) 0)) (← fmul fRoot2 (← fdiv c.sb (← fmul fThree c.vb)))))
    ∧ pllTo c x.pll y.pll i.a i.b (tkOf x f) ns
    ∧ (c.split = false → x.law.avg = false →
      q.pf = fpVal (do fadd r.pf (← fmul (← fsub fOne (← felemExp (fneg (← fdiv t x.law.taup)))) (← fsub (← fadd (← fadd (← fmul i.a i.ia) (← fmul i.b i.ib)) (← fmul fTwo (← fmul i.z i.iz))) r.pf)))
      ∧ q.qf = fpVal (do fadd r.qf (← fmul (← fsub fOne (← felemExp (fneg (← fdiv t x.law.tauq)))) (← fsub (← fsub (← fmul i.b i.ia) (← fmul i.a i.ib)) r.qf))))
    ∧ (c.split = true → q.pq.head? = some (fpVal (do fmul fTwo (← fadd (← fmul i.a i.ia) (← fmul i.z i.iz))), fpVal (do fmul fTwo (← fsub (← fmul i.b i.ia) (← fmul i.a i.ib)))))
    ∧ (x.offTaken = false → ramped r.sp q.sp f.mode (fpVal (do fmul (← fmul x.law.rampP c.sb) t)) ∧ ramped r.sq q.sq f.mode (fpVal (do fmul (← fmul x.law.rampQ c.sb) t))
      ∧ ramped r.sf q.sf f.mode (fpVal (fmul x.law.rampF t)) ∧ (r.soft = false → ramped r.sv q.sv f.mode (fpVal (do fmul (← fmul x.law.rampV c.vb) t))))
    ∧ (x.mode = .follow → q.theta = y.pll.theta ∧ q.w = y.pll.omega ∧ q.vRef = [fpVal (fnorm (f.vals.getD 0 0)), fpVal (fnorm (f.vals.getD 1 0)), 0]
      ∧ ∀ (v va vb v2 pw qw ia ib m sc : F32) (th : U32), v = fmax y.pll.v 0x3DCCCCCD#32 → th = angleOf y.pll.theta → va = fpVal (fmul v (fuCos th)) → vb = fpVal (fmul v (fuSin th)) →
          v2 = fpVal (fmul v v) → pw = fpVal (fdiv q.sp.work c.sb) → qw = fpVal (fdiv q.sq.work c.sb) →
          ia = fpVal (do fdiv (← fadd (← fmul pw va) (← fmul qw vb)) v2) → ib = fpVal (do fdiv (← fsub (← fmul pw vb) (← fmul qw va)) v2) →
          m = fpVal (do return fsqrt (← fadd (← fmul ia ia) (← fmul ib ib))) → sc = (if f32Lt x.lim.ilim m then fpVal (fdiv x.lim.ilim m) else fOne) → c.split = false →
          q.iRef.take 2 = [fpVal (do fmul (← fmul ia sc) (← fmul fRoot2 (← fdiv c.sb (← fmul fThree c.vb)))), fpVal (do fmul (← fmul ib sc) (← fmul fRoot2 (← fdiv c.sb (← fmul fThree c.vb))))])
    ∧ (x.mode = .form ∨ x.mode = .island ∨ x.mode = .blackStart →
      (q.ride = false ∨ x.lim.freeze = false → q.w = swungTo c x.law r.w q.sf.work q.resF q.sp.work q.pf y.pll.omega t)
      ∧ q.theta = r.theta + stepOf q.w c.fn ns ∧ q.e = droopTo c x.law q.sv.work q.resV q.sq.work q.qf
      ∧ (q.ride = false → q.decay = none → q.rl = fpVal (do fadd x.law.rv (← fmul x.lim.rride 0)) ∧ q.xl = fpVal (do fadd x.law.xv (← fmul x.lim.xride 0)))
      ∧ ∀ (th : U32) (xw r0 : F32) (h : Nat → F32) (p : List F32), th = angleOf q.theta → xw = fpVal (fmul q.xl q.w) → f32Lt (fpVal (do return fsqrt (← fadd (← fmul q.rl q.rl) (← fmul xw xw)))) 0x3C23D70A#32 = false →
          q.ride = false → q.decay = none → r0 = fpVal (do fadd x.law.rv0 (← fmul x.lim.rride 0)) →
          (∀ k, h k = fpVal (do fadd (← fmul x.lim.rh3 (q.harm.getD k 0)) (← fadd (← fmul x.lim.rh5 (q.harm.getD (4 + k) 0)) (← fmul x.lim.rh7 (q.harm.getD (8 + k) 0))))) →
          p = [fpVal (do fsub (← fsub (← fadd i.a (← fmul q.k (← fsub (← fmul q.e (fuCos th)) i.a))) (← fsub (← fmul q.rl i.ia) (← fmul xw i.ib))) (h 0)),
               fpVal (do fsub (← fsub (← fadd i.b (← fmul q.k (← fsub (← fmul q.e (fuSin th)) i.b))) (← fadd (← fmul q.rl i.ib) (← fmul xw i.ia))) (h 1)),
               fpVal (do fsub (fneg (← fmul r0 i.iz)) (← fmul x.lim.rh3 (q.harm.getD 12 0)))] →
          ∀ b : List F32, b = p.map (fun v => fpVal (do fmul v (← fmul fRoot2 c.vb))) →
            (c.split = false → q.vRef = b) ∧ (c.split = true → q.vRef = fpVal (do clarke (← fadd (b.getD 0 0) (b.getD 2 0)) (← fsub (b.getD 2 0) (b.getD 0 0)) 0)))

end Sys2Proof.Claims

open Sys2Proof.Claims

/-- For every command c and state s: the step of a state whose queue begins with c is exec of c on the state with the rest of the queue. That commands wait in one queue, first in and first out, is the form of the model, not a rule of the spec. -/
def Obligations.StepRunsFrontCommand : Prop :=
  ∀ (c : Instr) (rest : List Instr) (s : State),
    s.pending = c :: rest → step s = exec c { s with pending := rest }

/-- The model's choice (assumption log 1): a step on an empty queue answers a next state in which the extended raw count has advanced by one PWM cycle, 1 ns, or 10 ns on the fallback oscillator, and nothing else has changed; in reset nothing changes at all. -/
def Obligations.IdleStepPassesTime : Prop :=
  ∀ s : State, s.pending = [] →
    (s.sys.phase = .inReset → step s = .next s)
      ∧ (s.sys.phase ≠ .inReset → pwmFallback s = false → step s = .next { s with time := { s.time with raw := s.time.raw + 1 } })
      ∧ (s.sys.phase ≠ .inReset → pwmFallback s = true → step s = .next { s with time := { s.time with raw := s.time.raw + 10 } })

/-- In State.reset the device is in BOOT and held in reset with the command port closed, no request, reply, session or event waits, the next event sequence is 1, every stage, forming unit, field output, capture, CAN port and the Sage pulse output are off, the graph, filter, capture and CAN memories, the three buffers of the state image and the OTP list nothing, the safe-off and fault balls are low, every MCLK and the SYNC clock output rest with P low and N high, CAN transmits recessive, TDO is at high impedance and the Ethernet outputs are idle or low, the raw count is 0, domain 0 is FREE and active, and no command waits. The model's own choices in it are in log entries 13 and 120: the spec gives no value for the memories before the wipe nor for the OTP of the part. -/
def Obligations.ResetLeavesThePartStill : Prop :=
  State.reset.sys.dev = .boot ∧ State.reset.sys.phase = .inReset ∧ State.reset.cmd.isOpen = false
    ∧ State.reset.cmd.requests = [] ∧ State.reset.cmd.replies = [] ∧ State.reset.udp.sessions = []
    ∧ State.reset.evt.entries = [] ∧ State.reset.evt.nextSeq = 1 ∧ State.reset.evt.mask = 0x0000FFFE#32
    ∧ (∀ n, (getStage State.reset n).st = .off) ∧ (∀ f ∈ State.reset.fus, f.mode = .off) ∧ (∀ o ∈ State.reset.field.outs, o.on = false)
    ∧ State.reset.cap.st = .idle ∧ State.reset.sys.safeOffA = false ∧ State.reset.sys.safeOffB = false ∧ State.reset.sys.faultN = false
    ∧ State.reset.loop.mem = [] ∧ State.reset.flt.mem = [] ∧ State.reset.cap.mem = [] ∧ State.reset.can.mem = [] ∧ State.reset.img.host = []
    ∧ State.reset.img.back = none ∧ State.reset.img.latched = [] ∧ State.reset.rel.otp = [] ∧ (∀ p, (getCan State.reset p).bus = .off) ∧ State.reset.sage.pulseOn = false
    ∧ mpulseBall State.reset.sage = .low ∧ (∀ i, clkBalls State.reset i = (.low, .high)) ∧ (∀ p, canBall State.reset p = .high) ∧ tdoBall State.reset = .floating
    ∧ (∀ n, ethBalls State.reset n = (.idle, .low))
    ∧ State.reset.time.raw = 0 ∧ (getTd State.reset 0).state = .free ∧ State.reset.time.active = 0 ∧ State.reset.pending = []

/-- Once the wipe is over and while fewer than 4095 entries are unacknowledged, posting an event appends exactly one entry with the next sequence number, the active time, code, source and eight data bytes, unless the armed capture also takes it as its trigger, and nothing outside the event log and the capture unit changes. With 4095 entries the event is dropped and the lost counter counts it, saturating. If events had been dropped and the acknowledgement frees at least one entry, the log afterwards holds the kept entries and then one entry of code 0x0104 whose data are the lost count, and the lost counter is 0. Stated for a capture that does not listen to events. -/
def Obligations.EventsEnterTheLog : Prop :=
  (∀ (code : U16) (source : Nat) (data : Bytes) (s : State), logLive s = true →
    (LogOnly s (post code source data s))
      ∧ (s.evt.entries.length < 4095 → capListens s = false →
          post code source data s = { s with evt := { s.evt with entries := s.evt.entries ++ [entryOf s code source data], nextSeq := s.evt.nextSeq + 1 } })
      ∧ (s.evt.entries.length ≥ 4095 → capListens s = false →
          post code source data s = { s with evt := { s.evt with lost := if s.evt.lost = 0xFFFFFFFF#32 then s.evt.lost else s.evt.lost + 1 } })) ∧
  (∀ (via : Transport) (s : State) (r : Req) (upto : U32) (keep : List LogEntry), Takes 0x0111#16 via s r → s.sys.dev ≠ .boot → reqParams r = le32 upto →
    ¬ 0 < (upto - newestRead s).toInt → s.evt.lost ≠ 0 → logLive s = true → capListens s = false →
    keep = s.evt.entries.filter (fun e => !(e.read && decide (¬ 0 < (e.seq - upto).toInt))) → keep.length < s.evt.entries.length → keep.length < 4095 →
      exec (.evtAck via) s = replied r OK (n16 (s.evt.entries.length - keep.length) ++ n16 (keep.length + 1))
        { taken s via with evt := { s.evt with lost := 0, entries := keep ++ [entryOf s 0x0104#16 0 (le32 s.evt.lost)], nextSeq := s.evt.nextSeq + 1 } })

/-- Replying to a request changes nothing but the command port, the sessions and Ethernet ports, the error counter, the event log and the capture unit; so does answering the refused packets whose turn has come, and where none stands at the front of a transport that does nothing. A refused packet at the front is answered with its status and leaves its queue. On the command port with room and no completion reply waiting, an error reply appends exactly one entry with the packet of R51 to the reply queue and counts one error; with NO_REPLY set and a status below 0x0100 nothing happens at all. -/
def Obligations.RepliesReachTheirTransportOnly : Prop :=
  ∀ (r : Req) (st : U16) (pl : Bytes) (s : State),
    ReplyOnly s (replyTo r st pl s)
      ∧ (reqNoReply r = true → isError st = false → replyTo r st pl s = s)
      ∧ (r.via = .cmd → isError st = true → s.cmd.waiting = [] → repliesHeld s < 16 →
          (replyTo r st pl s).cmd.replies = s.cmd.replies ++
              [{ bytes := replyBytes s false false (reqOpcode r) (reqTag r) st pl, completion := false, reserved := false }]
            ∧ (replyTo r st pl s).sys.errors = s.sys.errors + 1)
      ∧ (r.via = .cmd → isError st = false → reqNoReply r = false → s.cmd.waiting = [] → repliesHeld s < 16 →
          replyTo r st pl s = { s with cmd := { s.cmd with replies := s.cmd.replies ++
              [{ bytes := replyBytes s false false (reqOpcode r) (reqTag r) st pl, completion := false, reserved := false }] } })
      ∧ (∀ v : Transport, ReplyOnly s (flushTurn v s)
          ∧ ((∀ q, nextRequest s v = some q → q.refusal = none) → flushTurn v s = s)
          ∧ (∀ q e, nextRequest s v = some q → q.refusal = some e → ∃ n, flushTurn v s = flushRefused v n (replyTo q e [] (dropRequest s v))))

/-- While the port is open every transaction sends the status byte first. A complete request packet written while BUSY is low joins the request queue. One that ends early posts event 0x0101 and, from 8 bytes on, waits for its turn in the request queue as refused with E_LENGTH; where no request and no reply waits it is answered at once, the opcode and tag echoed. A packet written while BUSY is high is discarded with event 0x0107 when the reserved entry is taken. A status poll changes only what was sent and the latched polarity; any other first byte posts event 0x0101. With the port open, BUSY high and the reserved reply entry free, a request write leaves the request queue as it was, appends to the reply queue one reserved entry with status E_QUEUE_FULL that echoes the packet's opcode and tag, counts one error and posts event 0x0107. The bytes sent in a transaction with an unknown first byte, the status byte and then zeros, are the model's choice (log 175), as are its other choices in log entries 8, 10, 125. -/
def Obligations.CommandPortTransactions : Prop :=
  (∀ (cpol : Bool) (s : State), s.cmd.isOpen = true →
    (∀ bytes : Bytes, busyLevel s = false → 12 + n16At bytes 6 ≤ bytes.length →
        exec (.requestWrite cpol bytes) s = .next { s with cmd := { s.cmd with
          miso := portStatus s :: zeros (bytes.length - 1), cpol := cpol,
          requests := s.cmd.requests ++ [{ via := .cmd, seq := 0, srcIp := 0, srcPort := 0, refusal := none, bytes := bytes.take (12 + n16At bytes 6) }] } })
    ∧ (∀ (bytes : Bytes) (t : State), busyLevel s = false → bytes.length < 12 + n16At bytes 6 →
        t = post 0x0101#16 0 ([byteAt bytes 0, 0] ++ n16 bytes.length) (afterMiso s cpol (zeros (bytes.length - 1))) →
        (bytes.length < 8 → exec (.requestWrite cpol bytes) s = .next t)
        ∧ (8 ≤ bytes.length → exec (.requestWrite cpol bytes) s = .next (flushTurn .cmd { t with cmd := { t.cmd with
              requests := s.cmd.requests ++ [{ via := .cmd, seq := 0, srcIp := 0, srcPort := 0, refusal := some E_LENGTH, bytes := bytes }] } }))
        ∧ (8 ≤ bytes.length → s.cmd.requests = [] → s.cmd.waiting = [] → s.cmd.held = none → s.cmd.replies = [] → awaitsReply s .cmd = false →
            ∃ u e, exec (.requestWrite cpol bytes) s = .next u ∧ u.cmd.requests = [] ∧ u.cmd.replies = [e] ∧ e.completion = false ∧ e.reserved = false
              ∧ slice e.bytes 2 3 = [byteAt bytes 2, byteAt bytes 3, byteAt bytes 4] ∧ u16At e.bytes 6 = E_LENGTH ∧ u.sys = { s.sys with errors := s.sys.errors + 1 }))
    ∧ (∀ bytes : Bytes, busyLevel s = true → s.cmd.replies.any (·.reserved) = true →
        exec (.requestWrite cpol bytes) s = .next (post 0x0107#16 0 [] (afterMiso s cpol (zeros (bytes.length - 1)))))
    ∧ (∀ n : Nat, exec (.statusPoll cpol n) s = .next (afterMiso s cpol (zeros n)))
    ∧ (∀ (first : Byte) (n : Nat), exec (.unknownTransaction cpol first n) s =
        .next (post 0x0101#16 0 ([first, 0] ++ n16 (n + 1)) (afterMiso s cpol (zeros n))))) ∧
  (∀ (cpol : Bool) (bytes : Bytes) (s : State), s.cmd.isOpen = true → busyLevel s = true → s.cmd.replies.any (·.reserved) = false →
    ∃ t e, exec (.requestWrite cpol bytes) s = .next t ∧ t.cmd.requests = s.cmd.requests
      ∧ t.cmd.replies = s.cmd.replies ++ [e] ∧ e.reserved = true ∧ e.completion = false ∧ slice e.bytes 2 3 = [byteAt bytes 2, byteAt bytes 3, byteAt bytes 4]
      ∧ u16At e.bytes 6 = 0x010B#16 ∧ t.sys = { s.sys with errors := s.sys.errors + 1 }
      ∧ t.evt = (post 0x0107#16 0 [] (afterMiso s cpol (zeros (bytes.length - 1)))).evt ∧ t.pwm = s.pwm ∧ t.loop = s.loop ∧ t.safe = s.safe ∧ t.field = s.field)

/-- With the port open and a reply q at the head, a reply read of n bytes after the first sends the status byte and the first n bytes of q, then zeros, never a byte of the next reply. If n is less than the length of q, q stays at the head and the queue is as it was. If all bytes are clocked, q has left, the oldest completion reply that waits, if one does, takes the room while fewer than 16 replies are held, and then the refused packets whose turn the room brings are answered, which no more than appends to the queue. With an empty queue the read returns the status byte and zeros. That the refused packets are answered then rests on log 8. -/
def Obligations.ReplyLeavesWhenFullyRead : Prop :=
  ∀ (cpol : Bool) (n : Nat) (s : State), s.cmd.isOpen = true →
    (s.cmd.replies = [] → exec (.replyRead cpol n) s = .next (afterMiso s cpol (zeros n)))
    ∧ ∀ (q : QReply) (t : List QReply), s.cmd.replies = q :: t →
      (n < q.bytes.length → exec (.replyRead cpol n) s = .next (afterMiso s cpol (q.bytes.take n)))
      ∧ (n ≥ q.bytes.length → ∃ more rest last, (more, rest) = (if ((t.filter (fun y => !y.reserved)).length < 16) then (s.cmd.waiting.take 1, s.cmd.waiting.drop 1) else ([], s.cmd.waiting))
          ∧ exec (.replyRead cpol n) s = .next (flushTurn .cmd { s with cmd := { s.cmd with
            miso := portStatus s :: (q.bytes ++ zeros (n - q.bytes.length)), cpol := cpol, replies := t ++ more, waiting := rest } })
          ∧ (∀ u, exec (.replyRead cpol n) s = .next u → u.cmd.replies = t ++ more ++ last))

/-- A well-formed SYS_IDENTIFY or SYS_STATUS with no parameters completes in every device state with OK; the reply to identify reports part, lifecycle, device state, versions, unique identifier, boot select and reset cause, that to status the counters; beyond the request leaving its queue and being counted, and its reply, nothing changes. Outside RUN a SYS_RESET with key 0x5AA5 and kind 1 or 2 answers OK with 100 us and schedules the reset 100,000 ns on, warm (cause 0x12) for kind 1 and cold (cause 0x05) for kind 2; a reset that is scheduled already stands as it is. At RESET_DELAY_EXPIRY of a scheduled reset the device is in BOOT and in reset with the cause latched, no request, reply or event waits, and the OTP is as it was. Outside BOOT a rate of 1,000 to 20,000 Hz answers OK with the rate and its period, 1,000,000,000 / rate rounded to the nearest nanosecond, and stores it as the rate that follows the next publication instant; the due instant and the present rate stay. A rate outside the range answers E_PARAM and changes nothing. The model's own choices in it are in log entries 6, 13, 118. -/
def Obligations.SystemRequests : Prop :=
  (∀ (via : Transport) (s : State) (r : Req),
    (Takes 0x0100#16 via s r → (reqParams r).length = 0 →
      exec (.sysIdentify via) s = replied r OK (n32 0x00960000 ++ n16 0x00B1 ++ n8 (lcCode s.sys.lifecycle) ++ n8 (devCode s.sys.dev) ++ le32 Config.romVersion
        ++ le32 s.sys.imageVersion ++ uidBytes s ++ n8 s.sys.bootsel ++ [s.sys.cause] ++ zeros 2) (taken s via))
    ∧ (Takes 0x0101#16 via s r → (reqParams r).length = 0 →
      exec (.sysStatus via) s = replied r OK (statusPayload (taken s via)) (taken s via))) ∧
  ((∀ (via : Transport) (s : State) (r : Req) (k : Byte), Takes 0x0102#16 via s r → s.sys.dev ≠ .run → reqParams r = [k, 0, 0xA5#8, 0x5A#8] → k = 1 ∨ k = 2 →
      exec (.sysReset via) s = replied r OK (n32 100)
        { taken s via with sys := { (taken s via).sys with resetDue := some (match s.sys.resetDue with
            | none => (s.time.raw + 100000, if k = 1 then 0x12#8 else 0x05#8) | some d => d) } })
    ∧ (∀ (s : State) (t : Nat) (cause : Byte), s.sys.resetDue = some (t, cause) → s.sys.phase ≠ .inReset →
      ∃ u, exec .resetDelayExpiry s = .next u ∧ u.sys.dev = .boot ∧ u.sys.phase = .inReset ∧ u.sys.cause = cause ∧ u.cmd.requests = [] ∧ u.cmd.replies = []
        ∧ u.evt.entries = [] ∧ u.rel.otp = s.rel.otp ∧ u.loop.mem = [] ∧ u.cap.mem = [] ∧ u.pending = s.pending)) ∧
  (∀ (via : Transport) (s : State) (r : Req) (rate : U32), Takes 0x0104#16 via s r → s.sys.dev ≠ .boot → reqParams r = le32 rate →
    (1000 ≤ rate.toNat → rate.toNat ≤ 20000 →
      exec (.sysPublishRate via) s = replied r OK (n32 rate.toNat ++ n32 ((2 * 1000000000 + rate.toNat) / (2 * rate.toNat)))
        { taken s via with img := { s.img with newRate := rate } })
    ∧ (rate.toNat < 1000 ∨ 20000 < rate.toNat → exec (.sysPublishRate via) s = replied r E_PARAM [] (dropRequest s via)))

/-- With no transition in progress, and whatever the path test finds where none is run: a target equal to the present state answers OK with no effect. CONFIG to READY, where the condition of R79 holds, answers OK in READY if the pulse-off path test finds no fault; with a fault it answers E_VERIFY, posts event 0x0A06 with the channel and the pull-down, and the SELFTEST reason puts the device in SAFE; where the condition does not hold it answers E_STATE. READY to CONFIG and READY to RUN answer OK in the new state. RUN to READY is accepted as a long operation that begins the normal shutdown of every stage and output. RUN to CONFIG and CONFIG to RUN answer E_STATE and change nothing, whatever the reserved bytes hold; so does every target in BOOT and in SAFE that the lifecycle does not refuse. While a transition is in progress a target READY answers E_BUSY and a target RUN E_SHUTTING_DOWN with the remaining time in us, at least 1. Entering RUN takes an instruction of the JTAG port that drives balls out of effect. That starts which wait in the governor's queues are removed as a RUN-to-READY transition begins is the model's choice (log 186). -/
def Obligations.SysSetStateTransitions : Prop :=
  (∀ (via : Transport) (s : State) (r : Req) (k : Byte), Takes 0x0103#16 via s r → s.sys.stateChange = false → reqParams r = [k, 0, 0, 0] →
    (∀ d fail, s.sys.dev = d → d ≠ .boot → d ≠ .safe → k.toNat = devCode d → (k = 2 → setStateLc s r = true) →
        exec (.sysSetState via fail) s = replied r OK [k, 0, 0, 0] (taken s via))
    ∧ (s.sys.dev = .config → k = 2 → readyMet s = true →
        exec (.sysSetState via none) s = replied r OK [2, 0, 0, 0] (setDev .ready 0x0103 { taken s via with
          safe := { s.safe with testDue := false, runTime := 0, lastTest := s.time.raw } })
        ∧ ∀ ch idx, s.safe.causes.getLsbD (rSELFTEST - 1) = false →
          ∃ t, exec (.sysSetState via (some (ch, idx))) s = replied r E_VERIFY [] t ∧ t.sys.dev = .safe
            ∧ t = safetyActs rSELFTEST ch 0xFF (post 0x0A06#16 0 (n8 ch ++ n8 idx) (taken s via)))
    ∧ (s.sys.dev = .ready → k = 1 → ∀ fail, exec (.sysSetState via fail) s = replied r OK [1, 0, 0, 0] (setDev .config 0x0103 (taken s via)))
    ∧ (s.sys.dev = .ready → k = 3 → ∀ fail, exec (.sysSetState via fail) s = replied r OK [3, 0, 0, 0] (jtagYield (setDev .run 0x0103 (grantPermits { taken s via with
          safe := { s.safe with runSince := some s.time.raw, elems := s.safe.elems.map (fun _ => { since := none, armed := false }) } }))))
    ∧ (s.sys.dev = .run → k = 2 → classFull s 0x0103#16 = false → setStateLc s r = true → ∀ fail,
        ∃ t pl, exec (.sysSetState via fail) s = .next (finishStateChange (flushTurn r.via (replyTo r ACCEPTED pl
            { t with sys := { t.sys with longs := t.sys.longs ++ [{ owed := owedOf r, key := 0, result := none }] } })))
          ∧ t = forEach (List.range 8) (fun o => outputOff o 2) (forEach (List.range 8) (fun n => normalShutdown n 0)
                  (emptyGovernor 2 { taken s via with sys := { (taken s via).sys with stateChange := true } })))) ∧
  (∀ (via : Transport) (s : State) (r : Req) (fail : Option (Nat × Nat)), Takes 0x0103#16 via s r → s.sys.stateChange = false → setStateLc s r = true →
    (s.sys.dev = .run ∧ n8At (reqParams r) 0 = 1) ∨ (s.sys.dev = .config ∧ n8At (reqParams r) 0 = 3) ∨ (s.sys.dev = .config ∧ n8At (reqParams r) 0 = 2 ∧ readyMet s = false) →
      exec (.sysSetState via fail) s = replied r E_STATE [] (dropRequest s via)) ∧
  (∀ (via : Transport) (s : State) (r : Req) (fail : Option (Nat × Nat)), Takes 0x0103#16 via s r → s.sys.stateChange = true → s.sys.dev = .run → setStateLc s r = true →
    Machine.allOff s = false →
      (reqParams r = [2, 0, 0, 0] → exec (.sysSetState via fail) s = replied r E_BUSY [] (dropRequest s via))
      ∧ (n8At (reqParams r) 0 = 3 → exec (.sysSetState via fail) s = replied r E_SHUTTING_DOWN (n32 (max 1 (stateChangeLeft s))) (dropRequest s via))) ∧
  (∀ (via : Transport) (s : State) (r : Req) (fail : Option (Nat × Nat)), Takes 0x0103#16 via s r → s.sys.stateChange = false → setStateLc s r = true →
    s.sys.dev = .boot ∨ s.sys.dev = .safe → exec (.sysSetState via fail) s = replied r E_STATE [] (dropRequest s via))

/-- In CONFIG, READY, RUN and SAFE, EVT_READ with max m from 1 to 63 answers OK with the oldest m unread entries, their number, how many unread remain and the sequence of the first; afterwards those are read and every other entry, its position and its content are as before: the unread entries are the earlier ones but the first m, so none is returned again, and no entry has left the log. An m outside 1 to 63 answers E_PARAM and changes nothing. With no entry to return, the sequence given is that of the next new entry: the model's choice (log 131). -/
def Obligations.EvtReadReturnsOldestUnread : Prop :=
  ∀ (via : Transport) (s : State) (r : Req) (m : U16), Takes 0x0110#16 via s r → s.sys.dev ≠ .boot → reqParams r = le16 m ++ [0, 0] →
    (1 ≤ m.toNat → m.toNat ≤ 63 → ∃ log : List LogEntry,
      exec (.evtRead via) s = replied r OK
          (n16 ((s.evt.entries.filter (fun e => !e.read)).take m.toNat).length
            ++ n16 ((s.evt.entries.filter (fun e => !e.read)).length - ((s.evt.entries.filter (fun e => !e.read)).take m.toNat).length)
            ++ le32 (match s.evt.entries.filter (fun e => !e.read) with | e :: _ => e.seq | [] => s.evt.nextSeq)
            ++ ((s.evt.entries.filter (fun e => !e.read)).take m.toNat).flatMap entryBytes)
          { taken s via with evt := { s.evt with entries := log } }
        ∧ log.filter (fun e => !e.read) = (s.evt.entries.filter (fun e => !e.read)).drop m.toNat
        ∧ log.map (fun e => { e with read := false }) = s.evt.entries.map (fun e => { e with read := false }))
    ∧ (m.toNat = 0 ∨ 63 < m.toNat → exec (.evtRead via) s = replied r E_PARAM [] (dropRequest s via))

/-- In CONFIG, READY, RUN and SAFE: an upto_seq beyond the newest read entry by signed 32-bit difference answers E_PARAM and changes nothing. Otherwise, when no event had been lost, the read entries whose sequence is not beyond upto_seq leave the log and free their positions, every other entry, the unread ones included, stays as it was, the reply gives their number and the number left, and nothing else changes. -/
def Obligations.EvtAckFreesReadEntriesOnly : Prop :=
  ∀ (via : Transport) (s : State) (r : Req) (upto : U32), Takes 0x0111#16 via s r → s.sys.dev ≠ .boot → reqParams r = le32 upto →
    (0 < (upto - newestRead s).toInt → exec (.evtAck via) s = replied r E_PARAM [] (dropRequest s via))
    ∧ (¬ 0 < (upto - newestRead s).toInt → s.evt.lost = 0 →
      exec (.evtAck via) s = replied r OK
          (n16 (s.evt.entries.length - (s.evt.entries.filter (fun e => !(e.read && decide (¬ 0 < (e.seq - upto).toInt)))).length)
            ++ n16 (s.evt.entries.filter (fun e => !(e.read && decide (¬ 0 < (e.seq - upto).toInt)))).length)
          { taken s via with evt := { s.evt with entries := s.evt.entries.filter (fun e => !(e.read && decide (¬ 0 < (e.seq - upto).toInt))) } })

/-- In CONFIG, READY, RUN and SAFE, EVT_MASK with up to 8 excluded codes, the matching length and zero reserved fields answers OK with the mask, replaces mask and exclusion list, and leaves every log entry as it was. An entry then drives ATTN_N exactly if its class is 1 to 15, that class bit is set and its code is not excluded. -/
def Obligations.EvtMaskGovernsAttentionOnly : Prop :=
  ∀ (via : Transport) (s : State) (r : Req) (n : Nat), Takes 0x0112#16 via s r → s.sys.dev ≠ .boot → n16At (reqParams r) 4 = n → n ≤ 8 →
    (reqParams r).length = 8 + 2 * n → zeroAt (reqParams r) 6 2 = true → zeroAt (reqParams r) 2 2 = true →
    exec (.evtMask via) s = replied r OK (le32 (u32At (reqParams r) 0))
        { taken s via with evt := { s.evt with mask := u32At (reqParams r) 0, excl := (List.range n).map (fun i => u16At (reqParams r) (8 + 2 * i)) } }
      ∧ ∀ (t : State) (e : LogEntry), drivesAttn t e = true ↔
          (1 ≤ e.code.toNat / 256 ∧ e.code.toNat / 256 ≤ 15 ∧ t.evt.mask.getLsbD (e.code.toNat / 256) = true ∧ e.code ∉ t.evt.excl)

/-- A datagram that finds its port down, or its island's clock stopped, is not received. On a port that is up it counts as a received frame, and one of more than 1522 bytes or with a tag that is not the port's is dropped. If it names an open session, its code authenticates and its length agrees, a sequence above the highest accepted one and below 0xFFFFFFFE joins the request queue as long as fewer than four requests of the session wait, and is recorded; with four waiting it is recorded, posts 0x0107 and is answered E_QUEUE_FULL in its turn. A sequence already recorded, or 0xFFFFFFFF, posts 0x0103; a wrong code, a length that disagrees, a session that is not open or a datagram below 28 bytes posts 0x0102. In those cases nothing but the frame counter, the log and a capture changes. A session-0 datagram under K_CMD with sequence 0 and a nonce not recorded joins the request queue. With K_CMD set, a 16-byte session open with a nonce that is not recorded on a port with fewer than two sessions answers OK with a 16-byte device nonce, the identifier, the idle limit of 60 s and the port, records the nonce, and adds exactly one session whose key is the CMAC over label, both nonces and identifier, with no sequence accepted and the first reply sequence 1; one whose nonce was recorded while it waited is discarded with event 0x0103. SESSION_IDLE_TIMEOUT of an open session removes it and its waiting requests and posts event 0x010A with reason 0, at 60 s after its last accepted request or at once if that has passed; of a session that is not open it does nothing. The model's own choices in it are in log entries 12, 14, 126, 128, 129 (any start byte of a packet is accepted), 130, 132, and 4 (the last clause). -/
def Obligations.SessionsAndTheirDatagrams : Prop :=
  (∀ (port : Nat) (tag : Option Nat) (ip : U32) (src : U16) (sid seq : U32) (packet mac : Bytes) (s : State) (x : Session),
    arrives s port tag (54 + packet.length + mac.length) → sid ≠ 0 → 12 ≤ packet.length → mac.length = 8 → findSession s port sid = some x → x.sid = sid → x.port = port →
    (mac = cmac8 x.key (le32 sid ++ le32 seq ++ packet) → packet.length = 12 + n16At packet 6 → x.high.toNat < seq.toNat → seq.toNat < 0xFFFFFFFE →
        (x.owing < 4 → ∃ t, exec (.udpDatagram port tag ip src (le32 sid ++ le32 seq ++ packet ++ mac)) s = .next t
          ∧ t.udp.queue = s.udp.queue ++ [{ via := .udp port sid, seq := seq, srcIp := ip, srcPort := src, refusal := none, bytes := packet }]
          ∧ t = { countRx port s with udp := t.udp } ∧ t.udp.sent = s.udp.sent
          ∧ t.udp.sessions = s.udp.sessions.map (fun y => if y.port = port ∧ y.sid = sid then
              { y with high := if seq.toNat > y.high.toNat then seq else y.high
                       window := (seq :: y.window).filter (fun q => decide (q.toNat + 63 ≥ (if seq.toNat > y.high.toNat then seq else y.high).toNat))
                       lastReq := s.time.raw, owing := y.owing + 1 } else y))
        ∧ (4 ≤ x.owing → ∀ t, t = post 0x0107#16 (port + 1) [] (updSession port sid (recordSeq seq s.time.raw) (countRx port s)) →
            exec (.udpDatagram port tag ip src (le32 sid ++ le32 seq ++ packet ++ mac)) s = .next (flushTurn (.udp port sid) { t with udp := { t.udp with
              queue := s.udp.queue ++ [{ via := .udp port sid, seq := seq, srcIp := ip, srcPort := src, refusal := some E_QUEUE_FULL, bytes := packet }] } })))
    ∧ (mac = cmac8 x.key (le32 sid ++ le32 seq ++ packet) → packet.length = 12 + n16At packet 6 →
        (x.window.contains seq = true ∧ seq.toNat ≤ x.high.toNat) ∨ seq = 0 ∨ seq = 0xFFFFFFFF#32 →
        exec (.udpDatagram port tag ip src (le32 sid ++ le32 seq ++ packet ++ mac)) s = .next (post 0x0103#16 (port + 1) (le32 sid ++ le32 seq) (countRx port s)))
    ∧ (mac ≠ cmac8 x.key (le32 sid ++ le32 seq ++ packet) ∨ packet.length ≠ 12 + n16At packet 6 →
        exec (.udpDatagram port tag ip src (le32 sid ++ le32 seq ++ packet ++ mac)) s = .next (post 0x0102#16 (port + 1) (le32 ip ++ le32 sid) (countRx port s)))) ∧
  (∀ (port : Nat) (tag : Option Nat) (ip : U32) (src : U16) (bytes : Bytes) (s : State),
    (ethUp s port = false → exec (.udpDatagram port tag ip src bytes) s = .next (missedRx port s))
    ∧ (ethUp s port = true → ¬ arrives s port tag (bytes.length + 46) → exec (.udpDatagram port tag ip src bytes) s = .next (ethDrop port (countRx port s)))
    ∧ (arrives s port tag (bytes.length + 46) → bytes.length < 28 ∨ (u32At bytes 0 ≠ 0 ∧ findSession s port (u32At bytes 0) = none) →
        exec (.udpDatagram port tag ip src bytes) s = .next (post 0x0102#16 (port + 1) (le32 ip ++ le32 (u32At bytes 0)) (countRx port s)))
    ∧ (∀ k packet : Bytes, arrives s port tag (bytes.length + 46) → kCmd s = some k → bytes = zeros 8 ++ packet ++ cmac8 k (zeros 8 ++ packet) →
        12 ≤ packet.length → packet.length = 12 + n16At packet 6 → (portNonces s port).contains (slice packet 8 16) = false →
        exec (.udpDatagram port tag ip src bytes) s = .next { countRx port s with udp := { s.udp with
          queue := s.udp.queue ++ [{ via := .udp port 0, seq := 0, srcIp := ip, srcPort := src, refusal := none, bytes := packet }] } })) ∧
  ((∀ (port : Nat) (s : State) (r : Req) (k p : Bytes), Takes 0x0311#16 (.udp port 0) s r → r.via = .udp port 0 → s.sys.dev ≠ .boot → kCmd s = some k →
      reqParams r = p → p.length = 16 →
      ((portNonces s port).contains p = false → ((taken s (.udp port 0)).udp.sessions.filter (fun x => x.port = port)).length < 2 →
        ∃ (nonce : Bytes) (sid : U32) (t : State),
        exec (.ethSessionOpen (.udp port 0)) s = replied r OK (nonce ++ le32 sid ++ n16 60 ++ n8 port ++ [0]) t
        ∧ nonce.length = 16 ∧ (portNonces t port).contains p = true
        ∧ t.udp.sessions = (taken s (.udp port 0)).udp.sessions ++ [{ port := port, sid := sid, ip := r.srcIp, high := 0, window := [], txSeq := 1, lastReq := s.time.raw, owing := 0
                                                                      key := cmac16 k ([0x4F#8, 0x5A, 0x53, 0x4B] ++ p ++ nonce ++ le32 sid) }]
        ∧ t = { taken s (.udp port 0) with udp := t.udp, free := t.free })
      ∧ ((portNonces s port).contains p = true →
        exec (.ethSessionOpen (.udp port 0)) s = .next (flushTurn (.udp port 0) (post 0x0103#16 (port + 1) (zeros 8) (dropRequest s (.udp port 0))))))
    ∧ (∀ (port : Nat) (sid : U32) (s : State),
      (findSession s port sid = none → exec (.sessionIdleTimeout port sid) s = .next s)
      ∧ ∀ x : Session, findSession s port sid = some x →
        ∃ t, exec (.sessionIdleTimeout port sid) s = .next t
          ∧ t.udp.sessions = s.udp.sessions.filter (fun y => !(decide (y.port = port) && y.sid == sid))
          ∧ t.udp.queue = s.udp.queue.filter (fun q => !(q.via == Transport.udp port sid))
          ∧ t.time = { s.time with raw := max s.time.raw (x.lastReq + 60000000000) }
          ∧ t = { s with time := t.time, udp := t.udp, evt := t.evt, cap := t.cap }
          ∧ t.evt = (post 0x010A#16 (port + 1) (le32 sid ++ [0]) { s with time := t.time, udp := t.udp }).evt))

/-- A request that is intact and well formed in length and header whose opcode is unassigned and not of class 0x7F leaves its queue and is answered E_OPCODE, and nothing else happens. One of class 0x7F is answered E_LIFECYCLE in PRODUCTION, COMMISSIONED and END, E_AUTH elsewhere without a vendor session; inside a vendor session the spec documents no effect and the model refuses it by name. The model's own choices in it are in log entry 123. -/
def Obligations.UnassignedAndVendorOpcodes : Prop :=
  ∀ (via : Transport) (s : State) (r : Req), nextRequest s via = some r → r.refusal = none →
    crc32c (r.bytes.take (r.bytes.length - 4)) = u32At r.bytes (r.bytes.length - 4) → reqLength r ≤ 1024 → r.bytes.length = 12 + reqLength r →
    byteAt r.bytes 5 = 0 → (reqFlags r).extractLsb' 3 5 = 0 →
    (assigned (reqOpcode r) = false → opClass (reqOpcode r) ≠ 0x7F → exec (.unassignedOpcode via) s = replied r E_OPCODE [] (dropRequest s via))
    ∧ (opClass (reqOpcode r) = 0x7F →
        ((s.sys.lifecycle = .production ∨ s.sys.lifecycle = .commissioned ∨ s.sys.lifecycle = .ended) →
            exec (.vendorTestOpcode via) s = replied r E_LIFECYCLE [] (dropRequest s via))
        ∧ (s.sys.lifecycle ≠ .production → s.sys.lifecycle ≠ .commissioned → s.sys.lifecycle ≠ .ended → s.sys.vendorOpen = false →
            exec (.vendorTestOpcode via) s = replied r E_AUTH [] (dropRequest s via))
        ∧ (s.sys.lifecycle ≠ .production → s.sys.lifecycle ≠ .commissioned → s.sys.lifecycle ≠ .ended → s.sys.vendorOpen = true →
            exec (.vendorTestOpcode via) s = .refused (.vendorTest (reqOpcode r))))

/-- With the ports open, a READ or READ_HOLD of len + 1 bytes that starts in the state image reads the buffer held, or latches the host-visible image if none is held; each byte driven is that buffer's byte, wrapping at the window's end. READ leaves no latch held, READ_HOLD leaves one held. RELEASE leaves none held at once and, having no data (R94), drives nothing. Nothing outside latch and bulk port changes. -/
def Obligations.ImageBurstsReadTheLatch : Prop :=
  ∀ (addr : U32) (len clocked : Nat) (s : State), s.cmd.isOpen = true →
    (addr.toNat < 0x10000 →
      exec (.bulkRead addr len clocked) s = .next (afterImageBurst false addr.toNat (len + 1) clocked s)
      ∧ exec (.bulkReadHold addr len clocked) s = .next (afterImageBurst true addr.toNat (len + 1) clocked s))
    ∧ exec .bulkRelease s = .next { s with bulk := { s.bulk with held := false, out := [] } }

/-- With the ports open, a READ or READ_HOLD that starts in the graph memory drives the bytes of that memory, 0x00 past the window's end, and changes nothing but the bytes driven; one that starts in the image staging window, which is written only, drives zeros, the model's choice (log 198); one in any other window but the state image drives that window's bytes, and none changes anything but the bytes driven. One that starts outside every window drives zeros and posts event 0x0105 with the address. With the ports open: STATUS drives epoch, flags and refused count and clears REFUSED and HOLD_EXPIRED, however many of its bytes are clocked; a command with a wrong complement, or an unknown one, and a read or write whose length has a reserved bit set, drive nothing, set REFUSED, count and post event 0x010B with reason 5; a command that is neither changes nothing. A held latch is released with HOLD_EXPIRED 100 ms after the last use of the state image, or at once if that has passed; with none held nothing happens. With the ports closed none of these commands does anything (R103). The model's own choices in it are in log entries 39, 40, 137, 187 and, where nothing happens, 4. -/
def Obligations.BulkReadsStatusAndExpiry : Prop :=
  (∀ (addr : U32) (len clocked : Nat) (s : State) (hold : Bool) (c : Instr), c = (if hold then .bulkReadHold addr len clocked else .bulkRead addr len clocked) →
    (s.cmd.isOpen = false → exec c s = .next s)
    ∧ (s.cmd.isOpen = true →
      (0x100000 ≤ addr.toNat → addr.toNat < 0x1F0000 → exec c s = .next { s with bulk := { s.bulk with
          out := slice ((List.range (min (len + 1) clocked)).map (fun i => if addr.toNat + i < 0x1F0000 then memRead s.loop.mem (addr.toNat - 0x100000 + i) else 0)) 0 clocked } })
      ∧ (0x4000000 ≤ addr.toNat → addr.toNat < 0x4200000 → exec c s = .next { s with bulk := { s.bulk with out := zeros clocked } })
      ∧ (∀ w, windowOf addr.toNat = some w → w ≠ .image → exec c s = .next { s with bulk := { s.bulk with
          out := slice ((List.range (min (len + 1) clocked)).map (fun i => match burstOffset w (addr.toNat - windowBase w) i with | some o => windowByte s w o | none => 0)) 0 clocked } })
      ∧ (windowOf addr.toNat = none → exec c s = .next (post 0x0105#16 0 (n32 addr.toNat ++ [0]) { s with bulk := { s.bulk with out := zeros clocked } })))) ∧
  (∀ (s : State),
    (∀ clocked : Nat, exec (.bulkStatus clocked) s = .next (if s.cmd.isOpen then { s with bulk := { s.bulk with refusedF := false, expired := false, out := slice (le32 s.bulk.epoch ++ n8 (flag s.bulk.held 0 + flag s.bulk.expired 1 + flag s.bulk.refusedF 2) ++ [0] ++ le16 s.bulk.refused) 0 clocked } } else s))
    ∧ (∀ (code compl : Byte) (addr : U32) (len : U16),
        (s.cmd.isOpen = false → exec (.bulkBadCommand code compl addr len) s = .next s)
        ∧ (s.cmd.isOpen = true → compl ≠ ~~~code ∨ code ∉ [0xA1#8, 0xA3#8, 0xA5#8, 0xA7#8, 0xB2#8] →
          ∃ a : Nat, exec (.bulkBadCommand code compl addr len) s = .next { (postMergeWith 0x010B#16 0 (n32 a ++ [5]) (fun e => e.data == eventData (n32 a ++ [5])) (fun o _ => o)
            { s with free := s.free + 1, bulk := { s.bulk with refusedF := true, refused := satInc s.bulk.refused } }) with
                                                                bulk := { s.bulk with refusedF := true, refused := satInc s.bulk.refused, out := [] } })
        ∧ (s.cmd.isOpen = true → code ∈ [0xA1#8, 0xA3#8, 0xB2#8] → compl = ~~~code → len.toNat ≥ 4096 →
          exec (.bulkBadCommand code compl addr len) s = .next { (postMergeWith 0x010B#16 0 (n32 addr.toNat ++ [5]) (fun e => e.data == eventData (n32 addr.toNat ++ [5])) (fun o _ => o)
            { s with bulk := { s.bulk with refusedF := true, refused := satInc s.bulk.refused } }) with
                                                                bulk := { s.bulk with refusedF := true, refused := satInc s.bulk.refused, out := [] } })
        ∧ (compl = ~~~code → code ∈ [0xA1#8, 0xA3#8, 0xA5#8, 0xA7#8, 0xB2#8] → len.toNat < 4096 ∨ code ∈ [0xA5#8, 0xA7#8] → exec (.bulkBadCommand code compl addr len) s = .next s))
    ∧ (s.bulk.held = true → exec .holdLatchExpiry s = .next { s with
        time := { s.time with raw := max s.time.raw (s.bulk.lastUse + 100000000) }, bulk := { s.bulk with held := false, expired := true } })
    ∧ (s.bulk.held = false → exec .holdLatchExpiry s = .next s))

/-- With the ports open, a WRITE whose bytes all lie in the graph memory window, where no loaded image holds any of the bytes, stores them: every byte of graph memory reads as the byte written, if the burst covers it, and otherwise as before. Nothing changes outside graph memory but the bytes the port drives, which are none. With the ports open, a WRITE of at least one byte that starts in the state image changes no memory: the REFUSED flag is set, the refused count rises by one (saturating), event 0x010B with the first address and reason 0 is posted once, merged with an unacknowledged entry of the same address and reason, and the burst counts as use of the state image. The same storing holds of the coefficient area where no word is in use, of capture memory while the capture is not armed, of the image staging window in BOOT with boot select 01, whose bytes capture memory holds, and of host-owned transmit entries and of acceptance filters of a port that is OFF in CAN message RAM, where a status byte stays as it was. A burst of at least one byte all of whose bytes are refused for one reason changes no memory and reports that reason: 0 for the history area, the event log, the Sage area, receive entries and the reserved end of a CAN port's area; 1 for words in use, for graph memory under a stage that is not OFF, for capture memory while armed, for controller-owned entries and the filters of a running port; 2 for the staging window at any other time. The model's own choices in it are in log entries 32, 41, 42. -/
def Obligations.BulkWritesStoreOrAreRefused : Prop :=
  (∀ (addr : U32) (len : Nat) (data : Bytes) (s : State), s.cmd.isOpen = true → memWf s.loop.mem = true →
    0x100000 ≤ addr.toNat → addr.toNat + (data.take (len + 1)).length ≤ 0x1F0000 → addr.toNat < 0x1F0000 →
    (∀ i < (data.take (len + 1)).length, imageOwner s (addr.toNat - 0x100000 + i) = none) →
    ∃ m, exec (.bulkWrite addr len data) s = .next { s with loop := { s.loop with mem := m }, bulk := { s.bulk with out := [] } }
      ∧ ∀ a, memRead m a = if addr.toNat - 0x100000 ≤ a ∧ a < addr.toNat - 0x100000 + (data.take (len + 1)).length
          then (data.take (len + 1)).getD (a - (addr.toNat - 0x100000)) 0 else memRead s.loop.mem a) ∧
  (∀ (addr : U32) (len : Nat) (data : Bytes) (s : State), s.cmd.isOpen = true → addr.toNat < 0x10000 → data ≠ [] →
    exec (.bulkWrite addr len data) s = .next (postMergeWith 0x010B#16 0 (n32 addr.toNat ++ [0]) (fun e => e.data == eventData (n32 addr.toNat ++ [0])) (fun o _ => o)
      { s with bulk := { s.bulk with out := [], lastUse := s.time.raw, refusedF := true, refused := if s.bulk.refused = 0xFFFF#16 then s.bulk.refused else s.bulk.refused + 1 } })) ∧
  (∀ (addr : U32) (len : Nat) (data b : Bytes) (s : State), s.cmd.isOpen = true → b = data.take (len + 1) →
    (0x10000 ≤ addr.toNat → addr.toNat < 0x1C000 → addr.toNat + b.length ≤ 0x1C000 → memWf s.flt.mem = true → (∀ i < b.length, coefInUse s ((addr.toNat - 0x10000 + i) / 4) = false) →
      ∃ m, exec (.bulkWrite addr len data) s = .next { s with flt := { s.flt with mem := m }, bulk := { s.bulk with out := [] } } ∧ stored s.flt.mem m (addr.toNat - 0x10000) b)
    ∧ (0x1000000 ≤ addr.toNat → addr.toNat < 0x1400000 → addr.toNat + b.length ≤ 0x1400000 → memWf s.cap.mem = true → s.cap.st = .idle ∨ s.cap.st = .done →
      ∃ m, exec (.bulkWrite addr len data) s = .next { s with cap := { s.cap with mem := m }, bulk := { s.bulk with out := [] } } ∧ stored s.cap.mem m (addr.toNat - 0x1000000) b)
    ∧ (0x4000000 ≤ addr.toNat → addr.toNat < 0x4200000 → addr.toNat + b.length ≤ 0x4200000 → memWf s.cap.mem = true → s.sys.dev = .boot → s.sys.bootsel = 1 → s.stag.isOpen = true →
      ∃ m, exec (.bulkWrite addr len data) s = .next { s with cap := { s.cap with mem := m }, bulk := { s.bulk with out := [] } } ∧ stored s.cap.mem m (addr.toNat - 0x4000000) b)
    ∧ (∀ p e, p < 6 → e < 32 → 0x2000000 + 0x2000 * p + 80 * e ≤ addr.toNat → addr.toNat < 0x2000000 + 0x2000 * p + 80 * e + 80 → addr.toNat + b.length ≤ 0x2000000 + 0x2000 * p + 80 * e + 80 →
      memWf s.can.mem = true →
      (canOwned (getCan s p) e = false → ∃ m, exec (.bulkWrite addr len data) s = .next { s with can := { s.can with mem := m }, bulk := { s.bulk with out := [] } }
        ∧ ∀ a, memRead m a = if addr.toNat - 0x2000000 ≤ a ∧ a < addr.toNat - 0x2000000 + b.length ∧ a ≠ 0x2000 * p + 80 * e + 6 then b.getD (a - (addr.toNat - 0x2000000)) 0 else memRead s.can.mem a)
      ∧ (canOwned (getCan s p) e = true → b ≠ [] → exec (.bulkWrite addr len data) s = .next (burstRefused addr.toNat 1 s)))
    ∧ (∀ p, p < 6 → 0x2000000 + 0x2000 * p + 0x1E00 ≤ addr.toNat → addr.toNat < 0x2000000 + 0x2000 * p + 0x1F00 → addr.toNat + b.length ≤ 0x2000000 + 0x2000 * p + 0x1F00 → memWf s.can.mem = true →
      ((getCan s p).bus = .off → ∃ m, exec (.bulkWrite addr len data) s = .next { s with can := { s.can with mem := m }, bulk := { s.bulk with out := [] } } ∧ stored s.can.mem m (addr.toNat - 0x2000000) b)
      ∧ ((getCan s p).bus ≠ .off → b ≠ [] → exec (.bulkWrite addr len data) s = .next (burstRefused addr.toNat 1 s)))
    ∧ (b ≠ [] →
      (0x1C000 ≤ addr.toNat → addr.toNat + b.length ≤ 0x20000 → exec (.bulkWrite addr len data) s = .next (burstRefused addr.toNat 0 s))
      ∧ (0x3000000 ≤ addr.toNat ∧ addr.toNat < 0x3010000 ∨ 0x8000000 ≤ addr.toNat ∧ addr.toNat < 0x8001000 → exec (.bulkWrite addr len data) s = .next (burstRefused addr.toNat 0 s))
      ∧ (∀ p, p < 6 → 0x2000000 + 0x2000 * p + 0xA00 ≤ addr.toNat → addr.toNat + b.length ≤ 0x2000000 + 0x2000 * p + 0x1E00
            ∨ 0x2000000 + 0x2000 * p + 0x1F00 ≤ addr.toNat ∧ addr.toNat + b.length ≤ 0x2000000 + 0x2000 * p + 0x2000 →
          exec (.bulkWrite addr len data) s = .next (burstRefused addr.toNat 0 s))
      ∧ (0x10000 ≤ addr.toNat → addr.toNat + b.length ≤ 0x1C000 → (∀ i < b.length, coefInUse s ((addr.toNat - 0x10000 + i) / 4) = true) → exec (.bulkWrite addr len data) s = .next (burstRefused addr.toNat 1 s))
      ∧ (0x100000 ≤ addr.toNat → addr.toNat + b.length ≤ 0x1F0000 → (∀ i < b.length, ∃ n, imageOwner s (addr.toNat - 0x100000 + i) = some n ∧ (getStage s n).st ≠ .off) →
          exec (.bulkWrite addr len data) s = .next (burstRefused addr.toNat 1 s))
      ∧ (0x1000000 ≤ addr.toNat → addr.toNat < 0x1400000 → s.cap.st ≠ .idle → s.cap.st ≠ .done → exec (.bulkWrite addr len data) s = .next (burstRefused addr.toNat 1 s))
      ∧ (0x4000000 ≤ addr.toNat → addr.toNat < 0x4200000 → s.sys.dev ≠ .boot ∨ s.sys.bootsel ≠ 1 ∨ s.stag.isOpen = false → exec (.bulkWrite addr len data) s = .next (burstRefused addr.toNat 2 s))))

/-- A rail below its warning threshold for 1 us, or the junction above 150 degrees, while its flag is clear, sets the flag, counts one warning and posts or merges event 0x0120 with the measured value; a level that is not past it, a set flag or a dip below 0.5 us changes nothing. A level back from it for 1 us clears that flag only. The part keeps working: outside flags, count, log and capture nothing changes. From any state outside reset, a PORST or WARMRST pin low for 1 us, a junction above 165 degrees for 10 us, WATCHDOG, LOCKSTEP and a rail below its reset threshold for 1 us lead to BOOT in reset with their own cause code latched and the cold or warm kind of R119; the command port is closed, no request, reply, event or session is left, every stage and forming unit is off, the gating cells are off and the safe-off pins low, the memories list nothing, the queue of commands and Sage are as they were, and, but for a brown-out that voids a repair-log write or stops a lifecycle transition that is being programmed, so is the OTP: a job in progress writes nothing more (log 27). Of VDD_18 at 1.0 V or less the cause is that of power-on. A pin low for less than 200 ns, a junction that is not past its threshold or for less than 10 us, and a rail that is not past its threshold or for less than 500 ns change nothing; between these and the times that are always taken R113 and R118 leave it open (log 136), and nothing is said. In reset, a PORST, WARMRST or THERMAL leaves the recorded cause as it is, but one of a lower code that asserts in the first cause's cycle, which takes its place, and that an internal cause has asserted is kept either way; a watchdog or lockstep fault of the housekeeping pair, which does not run in reset, changes nothing at all. The model's own choices in it are in log entries 21, 24, 135. -/
def Obligations.SupplyWarningsAndResets : Prop :=
  (∀ (i : Nat) (v : F32) (held : Nat) (s : State) (past : Bool), i ≤ 5 →
    past = (if i = 5 then f32Lt (toF32 150) v else f32Lt v (toF32 (mkRat (([765, 765, 1720, 3150, 3150] : List Nat).getD i 0) 1000))) →
    (past = true → s.sup.flags.getLsbD i = false → i = 5 ∨ 1000 ≤ held → ∃ t, exec (.supplyWarning i v held) s = .next t
        ∧ t.sup = { s.sup with flags := s.sup.flags ||| (1#6 <<< i), warnCount := satInc s.sup.warnCount }
        ∧ LogOnly { s with sup := t.sup } t
        ∧ (findMerge s 0x0120#16 (fun e => e.source == BitVec.ofNat 8 i) = none → t.evt = (post 0x0120#16 i (le32 v) { s with sup := t.sup }).evt))
    ∧ (past = false ∨ s.sup.flags.getLsbD i = true ∨ (i < 5 ∧ held < 500) → exec (.supplyWarning i v held) s = .next s)
    ∧ (past = false → i = 5 ∨ 1000 ≤ held → exec (.supplyWarningRelease i v held) s = .next { s with sup := { s.sup with flags := s.sup.flags &&& ~~~(1#6 <<< i) } })
    ∧ (past = true ∨ (i < 5 ∧ held < 500) → exec (.supplyWarningRelease i v held) s = .next s)) ∧
  (∀ (s : State), s.sys.phase ≠ .inReset → ∀ (c : Instr) (cause : Byte) (cold : Bool),
    (∃ low, 1000 ≤ low ∧ ((c = .porst low ∧ cause = 0x02#8 ∧ cold = true) ∨ (c = .warmrst low ∧ cause = 0x11#8 ∧ cold = false)))
      ∨ (∃ tj held, f32Lt (toF32 165) tj = true ∧ 10000 ≤ held ∧ c = .thermal tj held ∧ cause = 0x04#8 ∧ cold = true)
      ∨ (c = .watchdog ∧ cause = 0x13#8 ∧ cold = false) ∨ (c = .lockstep ∧ cause = 0x14#8 ∧ cold = false)
      ∨ (∃ rail v held, rail < 5 ∧ f32Lt v (toF32 (mkRat (([740, 740, 1650, 3000, 3000] : List Nat).getD rail 0) 1000)) = true ∧ 1000 ≤ held ∧ c = .brownOut rail v held
          ∧ cause = (if rail = 2 ∧ f32Lt fOne v = false then 0x01#8 else 0x03#8) ∧ cold = true) →
    ∃ t, exec c s = .next t ∧ t.sys.dev = .boot ∧ t.sys.phase = .inReset ∧ t.sys.cause = cause ∧ t.sys.cold = cold ∧ t.sys.intern = internalCauses.contains cause
      ∧ t.cmd = State.reset.cmd ∧ t.udp = State.reset.udp ∧ t.evt = State.reset.evt ∧ t.gov = State.reset.gov ∧ t.loop = State.reset.loop ∧ t.flt = State.reset.flt
      ∧ t.cap = State.reset.cap ∧ t.fus = State.reset.fus ∧ t.can = State.reset.can ∧ t.img = State.reset.img
      ∧ t.pwm.gateProc = false ∧ t.pwm.gateSorrel = false ∧ t.sys.safeOffA = false ∧ t.sys.safeOffB = false ∧ t.sys.faultN = false
      ∧ t.pending = s.pending ∧ t.sage = s.sage ∧ (s.rel.logWrites = [] → (∀ g, s.rel.jobs.head? ≠ some (.transition g)) → t.rel.otp = s.rel.otp)) ∧
  (∀ (s : State),
    (∀ low, low < 200 → exec (.porst low) s = .next s ∧ exec (.warmrst low) s = .next s)
    ∧ (∀ tj held, f32Lt (toF32 165) tj = false ∨ held < 10000 → exec (.thermal tj held) s = .next s)
    ∧ (∀ rail v held, rail < 5 → f32Lt v (toF32 (mkRat (([740, 740, 1650, 3000, 3000] : List Nat).getD rail 0) 1000)) = false ∨ held < 500 → exec (.brownOut rail v held) s = .next s)) ∧
  (∀ (s : State), s.sys.phase = .inReset →
    (∀ (c : Instr) (cause : Byte), (∃ low, 1000 ≤ low ∧ ((c = .porst low ∧ cause = 0x02#8) ∨ (c = .warmrst low ∧ cause = 0x11#8)))
        ∨ (∃ tj held, f32Lt (toF32 165) tj = true ∧ 10000 ≤ held ∧ c = .thermal tj held ∧ cause = 0x04#8) →
      ∃ t, exec c s = .next t ∧ t.sys.phase = .inReset ∧ t.sys.cause = (if s.sys.causeOpen = true ∧ cause.toNat < s.sys.cause.toNat then cause else s.sys.cause)
        ∧ t.sys.intern = (s.sys.intern || internalCauses.contains cause))
    ∧ exec .watchdog s = .next s ∧ exec .lockstep s = .next s)

/-- A reset ends once both reset pins are high, every rail of the control die has been above its release level for 1 us and, once an internal cause has asserted, 10 us have passed since it cleared; while a pin is low, a rail is not above its level or has been for less than 500 ns, or less than those 10 us have passed, RESET_RELEASE changes nothing; rails that have been up for 500 to 999 ns are left open (R113; log 136). At release from reset the raw count is 0 (log 23), BOOTSEL and the lifecycle are taken and the wipe runs. Its end, at 1.5 ms or at once if that has passed, starts the self-tests, the relock of both ADPLLs and the link to the field die, whose first frame is due at 2.0 ms; after a cold reset the nine records of OTP block 4 wait for it. The command port opens at 2.5 ms: BUSY goes low unless requests wait. BOOT completes at 4 ms without a staged image: the device is in CONFIG or in SAFE, publications run, and the first is due at the next 1 us boundary (log 30). Each row acts only in its own phase (log 4). The model's own choices in it are in log entries 3, 28, 86. -/
def Obligations.BootStepsInOrder : Prop :=
  ∀ (s : State),
    (s.sys.phase = .inReset → ∀ (bs : Nat) (rails : List F32) (held clear : Nat), 1000 ≤ held →
      (∀ i < 5, f32Lt (toF32 (mkRat (([755, 755, 1680, 3050, 3050] : List Nat).getD i 0) 1000)) (rails.getD i 0) = true) → (s.sys.intern = true → 10000 ≤ clear) →
        ∃ t, exec (.resetRelease bs rails held true true clear) s = .next t ∧ t.sys.phase = .wiping ∧ t.sys.bootsel = bs % 4 ∧ t.time.raw = 0
        ∧ t.sys.lifecycle = lifecycleOf s ∧ t.cmd.isOpen = s.cmd.isOpen)
    ∧ (∀ (bs : Nat) (rails : List F32) (held : Nat) (pn wn : Bool) (clear : Nat),
        pn = false ∨ wn = false ∨ (∃ i < 5, f32Lt (toF32 (mkRat (([755, 755, 1680, 3050, 3050] : List Nat).getD i 0) 1000)) (rails.getD i 0) = false)
          ∨ held < 500 ∨ (s.sys.intern = true ∧ clear < 10000) ∨ s.sys.phase ≠ .inReset →
        exec (.resetRelease bs rails held pn wn clear) s = .next s)
    ∧ (s.sys.phase = .wiping → ∀ st : Option Nat, ∃ t, exec (.wipeDone [] st) s = .next t ∧ t.sys.phase = .selfTest ∧ t.sys.selftestFail = st
        ∧ t.time.raw = max s.time.raw 1500000 ∧ t.cmd.isOpen = s.cmd.isOpen ∧ (clkSized s.clk → ∀ i < 2, (getPll t i).state = .search ∧ (getPll t i).relock = some { start := t.time.raw, hop := false, request := none, attempt := 1 })
        ∧ t.field.started = true ∧ t.field.nextDown = max t.time.raw 2000000
        ∧ (s.sys.cold = true → t.field.mailbox.length = 9) ∧ (s.sys.cold = false → t.field.mailbox = []))
    ∧ (s.sys.phase = .selfTest → ∃ t, exec .commandPortOpen s = .next t ∧ t.sys.phase = .portOpen ∧ t.cmd = { s.cmd with isOpen := true }
        ∧ t.time.raw = max s.time.raw 2500000 ∧ t.field = s.field ∧ (s.sys.bootsel = 1 → t.stag.isOpen = true))
    ∧ (s.sys.phase = .portOpen → s.sys.bootsel = 0 → ∃ t, exec .bootComplete s = .next t ∧ t.sys.phase = .finished ∧ (t.sys.dev = .config ∨ t.sys.dev = .safe)
        ∧ t.img.running = true ∧ t.time.raw = max s.time.raw 4000000 ∧ t.img.due = t.time.raw / 1000 * 1000 + 1000)
    ∧ (s.sys.phase ≠ .wiping → ∀ f st, exec (.wipeDone f st) s = .next s)
    ∧ (s.sys.phase ≠ .selfTest → exec .commandPortOpen s = .next s) ∧ (s.sys.phase ≠ .portOpen → exec .bootComplete s = .next s)

/-- In BOOT with boot select 10 an intact image datagram that a port which is up receives and takes counts as a received frame and stores its bytes in the staging memory; unless it is the last it is acknowledged OK, and the last begins the verification of what is staged. One that finds the port down, or its clock stopped, is not received; one too long, or with a foreign tag, is dropped. With boot select 01, IMG_VERIFY of 528 to 2,097,152 staged bytes is accepted as a long operation when no image is verified or in verification. At the end of a verification it is over; if every step passes, the version is recorded and the staged bytes are kept, with the payload of an image that is ENCRYPTED decrypted in place, and the answer is OK; otherwise they are cleared, event 0x0F06 is posted with the number of the first step that fails, and the answer is E_VERIFY. It goes to the sender of the image, or completes IMG_VERIFY. A verified image starts: BOOT finishes with its version on the image path. The staged length of an image received by datagrams is the model's choice (log 188), as are its other choices in log entries 32, 33, 196. -/
def Obligations.ImagesAreStagedVerifiedAndStarted : Prop :=
  ∀ (s : State),
    (ethUp s 0 = false → ∀ tag ip port b, exec (.imageDatagram tag ip port b) s = .next (missedRx 0 s))
    ∧ (∀ tag ip port b, ethUp s 0 = true → ¬ arrives s 0 tag (b.length + 46) → exec (.imageDatagram tag ip port b) s = .next (ethDrop 0 (countRx 0 s)))
    ∧ (s.sys.phase = .portOpen → s.sys.bootsel = 2 → s.stag.verifying = none → s.stag.verified = none → memWf s.cap.mem = true →
      ∀ (tag : Option Nat) (ip : U32) (port : U16) (b : Bytes) (n : Nat), bytesLost s 42 (n32At b 4) n = false → arrives s 0 tag (b.length + 46) → n = n16At b 8 → b.length = 16 + n → 0 < n → n ≤ 1024 → u32At b (12 + n) = crc32c (b.take (12 + n)) →
        u32At b 0 = 0x4D495A4F#32 → n32At b 4 ≤ 0x1FFC00 → n16At b 10 ≤ 1 →
        ∃ t, exec (.imageDatagram tag ip port b) s = .next t ∧ (∀ a, memRead t.cap.mem a = if n32At b 4 ≤ a ∧ a < n32At b 4 + n then byteAt b (12 + (a - n32At b 4)) else memRead s.cap.mem a)
          ∧ (n16At b 10 = 0 → t = ethSend 0 ip (le32 ip ++ le16 port ++ le32 0x4D495A4F#32 ++ le32 (u32At b 4) ++ le16 OK ++ [0, 0]) { countRx 0 s with cap := { s.cap with mem := t.cap.mem } })
          ∧ (n16At b 10 = 1 → t = { countRx 0 s with cap := { s.cap with mem := t.cap.mem }, stag := { s.stag with
              verifying := some { start := s.time.raw, staged := n32At b 4 + n, sender := some (ip, port, u32At b 4) } } }))
    ∧ (∀ (via : Transport) (r : Req), Takes 0x0F03#16 via s r → s.sys.dev = .boot → s.sys.bootsel = 1 → (reqParams r).length = 4 →
        528 ≤ n32At (reqParams r) 0 → n32At (reqParams r) 0 ≤ 2097152 → bytesLost s 42 0 (n32At (reqParams r) 0) = false → s.stag.verifying = none → s.stag.verified = none →
        exec (.imgVerify via) s = replied r ACCEPTED [] { taken s via with
          stag := { s.stag with verifying := some { start := s.time.raw, staged := n32At (reqParams r) 0, sender := none } }
          sys := { (taken s via).sys with longs := s.sys.longs ++ [{ owed := owedOf r, key := 0, result := none }] } })
    ∧ (∀ (v : Verification) (h : Bytes) (now : State), s.stag.verifying = some v → h = memReadBytes s.cap.mem 0 512 → now = advanceTo (v.start + ceilDiv v.staged 65536 * 500000) s →
        ∃ t u, exec .imgVerifyDone s = .next t ∧ t.stag.verifying = none ∧ t.time.raw = max s.time.raw (v.start + ceilDiv v.staged 65536 * 500000)
        ∧ (imageVerdict s h v.staged = none → t.stag.verified = some (u32At h 8, u16At h 12)
            ∧ u = { now with cap := { s.cap with mem := if (u16At h 6).getLsbD 0 then memWriteBytes s.cap.mem 512 (gcmText (imageKey s) (slice h 32 12) (memReadBytes s.cap.mem 512 (n32At h 16))) else s.cap.mem }
                             stag := { s.stag with verifying := none, verified := t.stag.verified } }
            ∧ (∀ ip port off, v.sender = some (ip, port, off) → t = ethSend 0 ip (le32 ip ++ le16 port ++ le32 0x4D495A4F#32 ++ le32 off ++ le16 OK ++ [0, 0]) u)
            ∧ (v.sender = none → t = endLong 0x0F03#16 0 OK (le32 (u32At h 8) ++ slice h 12 2 ++ [0, 0]) u))
        ∧ (∀ k, imageVerdict s h v.staged = some k → t.stag.verified = none
            ∧ u = post 0x0F06#16 0 (n8 k ++ [0] ++ slice h 12 2 ++ le32 (if k = 1 then 0 else u32At h 8)) { now with cap := { s.cap with mem := [] }, stag := { s.stag with verifying := none, verified := none } }
            ∧ (∀ ip port off, v.sender = some (ip, port, off) → t = ethSend 0 ip (le32 ip ++ le16 port ++ le32 0x4D495A4F#32 ++ le32 off ++ le16 E_VERIFY ++ [0, 0]) u)
            ∧ (v.sender = none → t = endLong 0x0F03#16 0 E_VERIFY (le32 (if k = 1 then 0 else u32At h 8) ++ slice h 12 2 ++ n8 k ++ [0]) u)))
    ∧ (∀ v : U32 × U16, s.sys.phase = .portOpen → s.stag.verified = some v → ∃ t, exec .imageStart s = .next t ∧ t.sys.phase = .finished ∧ t.sys.bootPath = true ∧ t.sys.imageVersion = v.1
        ∧ (t.sys.dev = .config ∨ t.sys.dev = .safe))

/-- DRIVER_SUPPLY_RELEASE passes the stage at the head of its queue, 1 ms after the previous release or at once if that has passed: the pins SAFE_OFF_A_N and SAFE_OFF_B_N take the level that the gating cells allow, and the start's completion is OK, unless the start has to wait for its first precharge as well. PRECHARGE_START begins the precharge of the half-bridge at the head of its queue, 50 us after the previous start, for the length set; a stage still OFF that waited for it enters STARTING with it and its completion is OK, once no swap of one of its resources is in progress; a precharge that no stage awaits leaves the queue. PRECHARGE_END ends a precharge at its time; if the bootstrap is still low the flag is set and the high side is tripped, else nothing but the measurement changes. With nothing waiting, or no precharge in progress, the rows change nothing (log 4). The model's own choices in it are in log entry 36. -/
def Obligations.StartGovernorServesInOrder : Prop :=
  ∀ (s : State),
    (∀ (e : GovEntry) (q : List GovEntry) (t0 : Nat) (u : State), s.gov.release = e :: q → t0 = max s.time.raw (match s.gov.lastRelease with | some l => l + 1000000 | none => 0) →
      u = updStage e.unit (fun x => { x with waitStart := true }) { s with
        time := { s.time with raw := t0 }, gov := { s.gov with release := q, lastRelease := some t0 }, sys := { s.sys with released := true, safeOffA := gatesPass s, safeOffB := gatesPass s } } →
      (prechargeWaits u e.unit = false → exec .driverSupplyRelease s = .next (settleStart e.owed OK [] (updStage e.unit (fun x => { x with startReq := none }) u)))
      ∧ (prechargeWaits u e.unit = true → exec .driverSupplyRelease s = .next (awaitPrecharge e.unit e.owed u)))
    ∧ (∀ (e : GovEntry) (q : List GovEntry) (t0 : Nat) (u : State), s.gov.precharge = e :: q → t0 = max s.time.raw (match s.gov.lastPre with | some l => l + 50000 | none => 0) →
      u = { s with time := { s.time with raw := t0 }, gov := { s.gov with precharge := q, lastPre := some t0 } } →
      ((∀ n < 8, (stageHbs s n).contains e.unit = false) → exec .prechargeStart s = .next (dropPrecharges [e.unit] s))
      ∧ ∀ n < 8, (stageHbs s n).contains e.unit = true → (∀ k < n, (stageHbs s k).contains e.unit = false) →
        ((getStage s n).st = .starting → exec .prechargeStart s = .next (updHb e.unit (fun h => { h with preDue := false, preEnd := some (t0 + 1000 * h.tPrecharge) }) u))
        ∧ ((getStage s n).st = .off → swapPending s n = true → exec .prechargeStart s = .next s)
        ∧ ((getStage s n).st = .off → swapPending s n = false →
            ∀ v, v = settleStart (getStage s n).startReq OK [] (updStage n (fun x => { x with startReq := none }) (enterStarting n u)) →
            exec .prechargeStart s = .next (updHb e.unit (fun h => { h with preDue := false, preEnd := some (v.time.raw + 1000 * h.tPrecharge) }) v))
        ∧ ((getStage s n).st ≠ .starting → (getStage s n).st ≠ .off → exec .prechargeStart s = .next (dropPrecharges [e.unit] s)))
    ∧ (∀ (h t0 : Nat) (vBoot : F32) (t : State), (getHb s h).preEnd = some t0 →
      t = updHb h (fun x => { x with preEnd := none, vBoot := vBoot, bootLow := f32Lt vBoot 0x4109999A#32 }) { s with time := { s.time with raw := max s.time.raw t0 } } →
      exec (.prechargeEnd h vBoot) s = .next (if f32Lt vBoot 0x4109999A#32 = true then tripChannel 6 h (hbChan h true) t else t))
    ∧ (s.gov.release = [] → exec .driverSupplyRelease s = .next s) ∧ (s.gov.precharge = [] → exec .prechargeStart s = .next s)
    ∧ (∀ (h : Nat) (vBoot : F32), (getHb s h).preEnd = none → exec (.prechargeEnd h vBoot) s = .next s)

/-- Where R155 does not refuse a relock, none is in progress and fewer than four clock operations of the class are pending: a plan within R143 is accepted, becomes the plan of that ADPLL and its relock starts as a full search, the reply giving the divider; a hop to a stored profile is accepted, takes plan, band and fine word from the profile and relocks from it. Everything else is as the start of the relock leaves it. A plan or a profile of ADPLL-B under which an enabled MCLK would have a period that the capture delay of an input of its group reaches is answered E_PARAM, which is the model's choice (log 176). With the ADPLL locked, CLK_STORE_SEARCH answers OK with band and measured frequency and stores plan, band and fine word in the profile named, nothing else. CLK_OUTPUT with settings in range answers OK with the frequency, 0 if disabled, and sets that output, CLKOUT, a modulator clock that no live channel reads or SYNCCLK_OUT; a changed modulator clock settles its channels anew, and an ADPLL in VERIFY whose last output that is gated is disabled by it is LOCKED; with no ADPLL in VERIFY and for no modulator clock nothing but the output changes. That VERIFY ends so is the model's reading (log 51), and so is which channels count as live (log 190). -/
def Obligations.ClockRequests : Prop :=
  (∀ (via : Transport) (s : State) (r : Req) (i : Nat), s.sys.dev ≠ .boot → n8At (reqParams r) 0 = i → i < 2 → relockRefused s i = false → relocking (getPll s i) = false →
    (Takes 0x0200#16 via s r → (reqParams r).length = 16 → n8At (reqParams r) 3 = 0 → planOk i (planAt (reqParams r) 0) = true →
      (planTooFast s i (planAt (reqParams r) 0) = true → exec (.clkSetPlan via) s = replied r E_PARAM [] (dropRequest s via))
      ∧ (planTooFast s i (planAt (reqParams r) 0) = false → classFull s 0x0200#16 = false → ∃ t pl, exec (.clkSetPlan via) s = replied r ACCEPTED pl { t with sys := { t.sys with longs := t.sys.longs ++ [{ owed := owedOf r, key := i, result := none }] } }
        ∧ t = startRelock i false (some 0x0200#16) 1 (updPll i (fun x => { x with plan := planAt (reqParams r) 0 }) (taken s via)) ∧ pl.length = 12))
    ∧ (∀ q : Profile, Takes 0x0201#16 via s r → (reqParams r).length = 4 → n8At (reqParams r) 1 < 8 → zeroAt (reqParams r) 2 2 = true →
      (getPll s i).profiles.getD (n8At (reqParams r) 1) none = some q →
      (planTooFast s i q.plan = true → exec (.clkHop via) s = replied r E_PARAM [] (dropRequest s via))
      ∧ (planTooFast s i q.plan = false → classFull s 0x0201#16 = false → ∃ t, exec (.clkHop via) s = replied r ACCEPTED [] { t with sys := { t.sys with longs := t.sys.longs ++ [{ owed := owedOf r, key := i, result := none }] } }
        ∧ t = startRelock i true (some 0x0201#16) 1 (updPll i (fun x => { x with plan := q.plan, band := q.band, fine := q.fine }) (taken s via))))) ∧
  (∀ (via : Transport) (s : State) (r : Req), s.sys.dev ≠ .boot →
    (∀ i : Nat, Takes 0x0202#16 via s r → (reqParams r).length = 4 → n8At (reqParams r) 0 = i → i < 2 → n8At (reqParams r) 1 < 8 → zeroAt (reqParams r) 2 2 = true → pllLocked s i = true →
      exec (.clkStoreSearch via) s = replied r OK (n8 (getPll s i).band.toNat ++ zeros 3 ++ le32 (getPll s i).fMeas)
        (updPll i (fun x => { x with profiles := upd x.profiles (n8At (reqParams r) 1) (fun _ => some { plan := (getPll s i).plan, band := (getPll s i).band, fine := (getPll s i).fine }) }) (taken s via)))
    ∧ (∀ (o en cmos lvl src : Byte) (d ph : U16) (new : ClkOut) (f : Rat), Takes 0x0203#16 via s r → reqParams r = [o, en, cmos, lvl] ++ le16 d ++ le16 ph ++ [src, 0, 0, 0] →
      en.toNat < 2 → cmos.toNat < 2 → lvl.toNat < 3 → ph.toNat < d.toNat → f = outBase s o.toNat src.toNat / d.toNat →
      new = { enable := decide (en = 1), cmos := decide (cmos = 1), level := lvl.toNat, divider := d.toNat, phase := ph.toNat, source := src.toNat } →
      (o = 8 → src.toNat < 4 → 4 ≤ d.toNat → d.toNat ≤ 4000 → f ≤ (if cmos = 1 then 100000000 else 250000000) →
        exec (.clkOutput via) s = replied r OK (le32 (if en = 1 then toF32 f else 0)) (finishVerify 0 (finishVerify 1 (updOut 8 (fun _ => new) (taken s via)))))
      ∧ (o = 9 → src = 0 → cmos = 0 → f = 100000000 →
        exec (.clkOutput via) s = replied r OK (le32 (if en = 1 then toF32 f else 0)) (finishVerify 0 (finishVerify 1 (updOut 9 (fun _ => new) (taken s via)))))
      ∧ (o.toNat < 8 → src = 0 → 75 ≤ d.toNat → d.toNat ≤ 800 → 5000000 ≤ f → f ≤ 40000000 → (∀ i < 6, readLive s (6 * o.toNat + i) = false) →
          (∀ i < 6, ∀ w ∈ delaysOf s (6 * o.toNat + i), delayTooLong w (1000000000 / f) = false) →
        exec (.clkOutput via) s = replied r OK (le32 (if en = 1 then toF32 f else 0)) (finishVerify 0 (finishVerify 1
          (if new = getOut s o.toNat then updOut o.toNat (fun _ => new) (taken s via) else mclkChanged o.toNat (updOut o.toNat (fun _ => new) (taken s via))))))
      ∧ ((getPll s 0).state ≠ .verify → (getPll s 1).state ≠ .verify →
          finishVerify 0 (finishVerify 1 (updOut o.toNat (fun _ => new) (taken s via))) = updOut o.toNat (fun _ => new) (taken s via))))

/-- startRelock, with which every relock begins, leaves the ADPLL in SEARCH with the relock recorded and all of its outputs gated. For ADPLL-A every island then runs from the fallback oscillator and, if the PWM island did not already, the fallback interval starts now and is counted; for ADPLL-B no island moves. At lock a searching ADPLL is in VERIFY with the measured values, one more lock counted, all of its outputs gated and the alignment edge at the next reference edge, and in LOCKED if it has no enabled output to verify. A verified output of it is no longer gated, and the islands that an output of ADPLL-A clocks leave the fallback oscillator; when no enabled one is left the ADPLL is LOCKED, and an output enabled later stays gated until it too is verified. A loss of lock, also in VERIFY, puts it in LOST and counts it; with a stage not OFF, Sorrel acts with reason CLOCK. In other states these rows change nothing (log 4). From 100 us after the loss the relock starts. An attempt that times out starts the next up to three, then the ADPLL is FAILED; one that a plan or hop requested fails at once. The failure posts event 0x0202 with the attempts made and, of a requested one, is answered E_NOT_READY. The model's own choices in it are in log entries 51, 52. -/
def Obligations.RelocksLocksAndLosses : Prop :=
  (∀ (i : Nat) (hop : Bool) (req : Option U16) (k : Nat) (s : State), i < 2 → s.clk.plls.length = 2 →
    (getPll (startRelock i hop req k s) i).state = .search
    ∧ (getPll (startRelock i hop req k s) i).relock = some { start := s.time.raw, hop := hop, request := req, attempt := k }
    ∧ (getPll (startRelock i hop req k s) i).gated = (if i = 0 then [0, 1, 2, 3, 8] else List.range 10)
    ∧ (i = 0 → (startRelock i hop req k s).time.onFallback = List.replicate 5 true
        ∧ (s.time.onFallback.getD 0 true = false → (startRelock i hop req k s).time.fbStart = some s.time.raw ∧ (startRelock i hop req k s).time.fbCount = s.time.fbCount + 1))
    ∧ (i = 1 → (startRelock i hop req k s).time = s.time)) ∧
  (∀ (i : Nat) (s : State), i < 2 → s.clk.plls.length = 2 →
    (∀ (k : Relock) (hopLocked : Bool) (band : BitVec 6) (fine : U32) (f rms : F32) (edge : Nat), (getPll s i).state = .search → (getPll s i).relock = some k →
      ∃ t, exec (.adpllLock i hopLocked band fine f rms edge) s = .next t ∧ (getPll t i).fMeas = f ∧ (getPll t i).phaseRms = rms ∧ (getPll t i).locks = (getPll s i).locks + 1
        ∧ (getPll t i).alignAt = some (s.time.raw + edge) ∧ (getPll t i).state = (if (pllOutputs s i).isEmpty then .locked else .verify)
        ∧ (getPll t i).gated = (if i = 0 then [0, 1, 2, 3, 8] else List.range 10) ∧ t.time = s.time)
    ∧ (∀ (out : Nat) (left : List Nat), (getPll s i).state = .verify ∨ (getPll s i).state = .locked → (pllOutputs s i).contains out = true → (getPll s i).gated.contains out = true →
      left = (getPll s i).gated.filter (· ≠ out) → ∃ t, exec (.outputRelease i out) s = .next t ∧ (getPll t i).gated = left
        ∧ ((getPll s i).state = .locked → (getPll t i).state = .locked ∧ (getPll t i).relock = (getPll s i).relock)
        ∧ ((getPll s i).state = .verify → if left.any (pllOutputs s i).contains then (getPll t i).state = .verify else (getPll t i).state = .locked ∧ (getPll t i).relock = none)
        ∧ t.time.raw = s.time.raw ∧ t.time.onFallback = (if i = 0 then s.time.onFallback.mapIdx (fun k b => if (islandsOf out).contains k then false else b) else s.time.onFallback))
    ∧ (∀ (out : Nat), ((getPll s i).state ≠ .verify ∧ (getPll s i).state ≠ .locked) ∨ (pllOutputs s i).contains out = false ∨ (getPll s i).gated.contains out = false → exec (.outputRelease i out) s = .next s)
    ∧ (∀ (hopLocked : Bool) (band : BitVec 6) (fine : U32) (f rms : F32) (edge : Nat), (getPll s i).state ≠ .search → exec (.adpllLock i hopLocked band fine f rms edge) s = .next s)
    ∧ (∀ reason : Nat, (getPll s i).state ≠ .locked → (getPll s i).state ≠ .verify → exec (.lossOfLock i reason) s = .next s)
    ∧ ((getPll s i).state ≠ .lost → exec (.relockStart i) s = .next s) ∧ ((getPll s i).state ≠ .search → exec (.relockAttemptTimeout i) s = .next s)
    ∧ (∀ reason : Nat, (getPll s i).state = .locked ∨ (getPll s i).state = .verify → allStagesOff s = true → ∃ t, exec (.lossOfLock i reason) s = .next t ∧ (getPll t i).state = .lost
        ∧ (getPll t i).losses = (getPll s i).losses + 1 ∧ (getPll t i).relockAt = s.time.raw + 100000 ∧ t.sys.dev = s.sys.dev ∧ t.safe = s.safe)
    ∧ (∀ reason : Nat, (getPll s i).state = .locked ∨ (getPll s i).state = .verify → allStagesOff s = false → s.sys.dev = .run → s.safe.causes = 0 →
        ∃ t, exec (.lossOfLock i reason) s = .next t ∧ t.sys.dev = .safe ∧ t.safe.causes = 4 ∧ t.safe.firstReason = 3)
    ∧ ((getPll s i).state = .lost → ∃ t, exec (.relockStart i) s = .next t ∧ (getPll t i).state = .search ∧ (getPll t i).plan = (getPll s i).plan
        ∧ t.time.raw = max s.time.raw (getPll s i).relockAt)
    ∧ (∀ k : Relock, (getPll s i).state = .search → (getPll s i).relock = some k →
        ∃ t, exec (.relockAttemptTimeout i) s = .next t ∧ t.time.raw = max s.time.raw (k.start + relockLimit k)
          ∧ (k.request = none ∧ k.attempt < 3 → (getPll t i).state = .search ∧ (getPll t i).relock = some { k with start := max s.time.raw (k.start + relockLimit k), attempt := k.attempt + 1 })
          ∧ (¬ (k.request = none ∧ k.attempt < 3) → (getPll t i).state = .failed ∧ (getPll t i).relock = none
            ∧ ∃ u, u = post 0x0202#16 i (n8 k.attempt) (updPll i (fun y => { y with state := .failed, relock := none }) { s with time := t.time })
              ∧ (k.request = none → t = u) ∧ ∀ op, k.request = some op → t = endLong op i E_NOT_READY [] u)))

/-- Setting the rate of a domain leaves the value that it and every other domain reads at the present raw count as it was, and from then on the domain reads its anchor plus the elapsed raw nanoseconds at the new rate. At the start of a switch to a domain, also during another switch, the active time reads what it read before. While a switch of slew up to 100,000 ns/s to a domain with a 32-bit rate lasts, and without any switch, the active time at a later raw count is never below that at an earlier one. The model's own choices in it are in log entry 47. -/
def Obligations.TimeNeverStepsOrReverses : Prop :=
  (∀ (d k : Nat) (rho : Int) (s : State), d < s.time.domains.length →
    domTime (getTd (setRho d rho s) k) s.time.raw = domTime (getTd s k) s.time.raw
    ∧ ∀ n : Nat, domTime (getTd (setRho d rho s) d) (s.time.raw + n) = domTime (getTd s d) s.time.raw + n * 2 ^ 32 + (n * rho + 2 ^ 7) / 2 ^ 8) ∧
  ((∀ (b slew kind : Nat) (s : State), activeFixed (startSwitch b slew kind s).time s.time.raw = activeFixed s.time s.time.raw)
    ∧ (∀ (t : Thyme) (r1 r2 : Nat), r1 ≤ r2 → -(2 ^ 31) ≤ (t.domains.getD t.active Domain0).rho → (t.domains.getD t.active Domain0).rho < 2 ^ 31 →
        (∀ w, t.switch = some w → w.start ≤ r1 ∧ w.slew ≤ 100000) → activeFixed t r1 ≤ activeFixed t r2))

/-- Setting a domain that is not active, from a source no other domain takes, with every field in range answers OK: the domain starts anew at the given value and rate in FREE, OFF or ACQUIRING by its source, in HOLDOVER, which begins now, where its PTP instance is grandmaster. For the active domain with source, value and rate as they are the other settings alone change; otherwise the reply is E_STATE. An offset for a domain fed by the host, given directly or as a timestamp of the last 2 s with its reference value, goes through the servo as of its own instant and the reply gives offset, state and acceptance; an older or later timestamp is counted as rejected and answered E_PARAM. Selecting a running domain other than the active one starts the seamless switch and the reply gives the difference and the duration; the active one without a switch answers zeros, a domain that does not run E_NOT_READY. TIME_READ answers OK and changes nothing. That the active domain is compared with its last configured values, and that a stamped sample has the instant of its stamp, is the model's reading (log 48); its other choices are in log entry 46. -/
def Obligations.TimeRequests : Prop :=
  ∀ (via : Transport) (s : State) (r : Req) (p : Bytes) (d : Nat), s.sys.dev ≠ .boot → reqParams r = p → n8At p 0 = d →
    (∀ k : Nat, Takes 0x0300#16 via s r → p.length = 36 → n8At p 1 = k → d < 4 → k < 6 → s.time.domains.length = 4 →
      (n8At p 2 < 4 ∨ n8At p 2 = 0xFF) → n8At p 2 ≠ d → n8At p 3 < 2 → f32In (u32At p 16) (1 / 100) 4 = true → 10 ≤ n32At p 20 → n32At p 20 ≤ 1000000 → 1000 ≤ n32At p 24 → n32At p 24 ≤ 1000000000 →
      1 ≤ n32At p 28 → n32At p 28 ≤ 3600 → 100 ≤ n32At p 32 → n32At p 32 ≤ 100000 → (∀ i < 4, i ≠ d → k ≥ 3 → (getTd s i).source ≠ srcOf k) →
      (d ≠ s.time.active → ∃ t, exec (.timeSetDomain via) s = replied r OK [] t ∧ (getTd t d).source = srcOf k ∧ (getTd t d).state = (if k = 0 then .off else if k = 1 then .free else if srcOf k = .ptp ∧ (getInst s 2).role = 4 then .holdover else .acquiring)
        ∧ domTime (getTd t d) s.time.raw = (n64At p 4 : Int) * 2 ^ 32 ∧ (getTd t d).rho = i32At p 12 ∧ (getTd t d).backup = n8At p 2 ∧ (getTd t d).lockThr = u32At p 20 ∧ (getTd t d).stepThr = u32At p 24
        ∧ (getTd t d).holdLimit = u32At p 28 ∧ (getTd t d).slew = u32At p 32 ∧ (getTd t d).stepOk = decide (n8At p 3 = 1) ∧ (∀ i, i ≠ d → getTd t i = getTd s i) ∧ t.time.active = s.time.active
        ∧ (srcOf k = .ptp → (getInst s 2).role = 4 → (getTd t d).holdSince = s.time.raw))
      ∧ (d = s.time.active → srcOf k = (getTd s d).source → u64At p 4 = (getTd s d).initCfg → i32At p 12 = (getTd s d).rateCfg →
        exec (.timeSetDomain via) s = replied r OK [] (updTd d (fun y => { y with backup := n8At p 2, stepOk := decide (n8At p 3 = 1), bandwidth := f32Param (u32At p 16), lockThr := u32At p 20, stepThr := u32At p 24, holdLimit := u32At p 28, slew := u32At p 32 }) (taken s via)))
      ∧ (d = s.time.active → srcOf k ≠ (getTd s d).source ∨ u64At p 4 ≠ (getTd s d).initCfg ∨ i32At p 12 ≠ (getTd s d).rateCfg → exec (.timeSetDomain via) s = replied r E_STATE [] (dropRequest s via)))
    ∧ (Takes 0x0301#16 via s r → p.length = 24 → d < 4 → zeroAt p 20 4 = true → (getTd s d).source = .host →
      (∀ (e : Int) (c : Nat) (ok : Bool) (t : State), (n8At p 1 = 1 ∧ zeroAt p 2 6 = true ∧ c = s.time.raw ∧ e = i64At p 8 * 2 ^ 32 + (n32At p 16 : Int))
          ∨ (n8At p 1 = 0 ∧ ∃ v, stampValue s (u32At p 4) (u16At p 2) = some v ∧ c = mapBack v (s.time.raw, activeFixed s.time s.time.raw) s.time.history
            ∧ e = (n64At p 8 : Int) * 2 ^ 32 + (n32At p 16 : Int) - domTime (getTd s d) c) →
        servoSample d e c (taken s via) = (ok, t) →
        exec (.timeFeedOffset via) s = replied r OK (le32 (toF32 (mkRat e (2 ^ 32))) ++ n8 (tdCode (getTd t d).state) ++ n8 (flag ok 0) ++ zeros 2) t)
      ∧ (n8At p 1 = 0 → stampValue s (u32At p 4) (u16At p 2) = none → ∃ t, exec (.timeFeedOffset via) s = replied r E_PARAM [] t ∧ (d < s.time.domains.length → (getTd t d).rejected = (getTd s d).rejected + 1)
          ∧ t.time.raw = s.time.raw ∧ LogOnly { taken s via with time := t.time } t))
    ∧ (Takes 0x0302#16 via s r → p.length = 8 → d < 4 → zeroAt p 1 3 = true → 100 ≤ n32At p 4 → n32At p 4 ≤ 100000 →
      (∀ t : State, tdRunning (getTd s d) = true → d ≠ s.time.active ∨ s.time.switch.isSome = true → t = startSwitch d (n32At p 4) 0 (taken s via) →
        ∃ w, t.time.switch = some w ∧ t.time.active = d ∧ w.delta = domTime (getTd s d) s.time.raw - activeFixed s.time s.time.raw ∧ w.slew = n32At p 4 ∧ w.start = s.time.raw
          ∧ exec (.timeSelectActive via) s = replied r OK (i64b (w.delta / 2 ^ 32) ++ n32 (ceilDiv (w.delta.natAbs * 1000) (n32At p 4 * 2 ^ 32))) t)
      ∧ (tdRunning (getTd s d) = true → d = s.time.active → s.time.switch = none → exec (.timeSelectActive via) s = replied r OK (zeros 12) (taken s via))
      ∧ (tdRunning (getTd s d) = false → exec (.timeSelectActive via) s = replied r E_NOT_READY [] (dropRequest s via)))
    ∧ (Takes 0x0303#16 via s r → p = [] → ∃ pl, exec (.timeRead via) s = replied r OK pl (taken s via) ∧ pl.length = 192 ∧ pl.take 8 = n64 s.time.raw)

/-- A locked or acquiring domain whose servo runs enters HOLDOVER 2 s after its last accepted sample, at the integrator's rate and without a step; one that acquires after its holdover limit only once it has accepted a sample again. A domain in HOLDOVER leaves it after holdover_limit for ACQUIRING, for FREE if a grandmaster holds it. A switch ends when its remainder reaches 0: the active domain stays, no switch is left, and the active time then reads the domain's. Where no domain is so far or no switch lasts, nothing happens (log 4). The model's own choices in it are in log entry 48. -/
def Obligations.DomainsHoldAndSwitchOnTime : Prop :=
  ∀ (s : State),
    (∀ d : Nat, d < s.time.domains.length → (getTd s d).state = .locked ∨ ((getTd s d).state = .acquiring ∧ (getTd s d).spent = false) → tdServo (getTd s d) = true →
      ∃ t, exec (.holdoverEntry d) s = .next t ∧ (getTd t d).state = .holdover ∧ (getTd t d).rho = integRho (getTd s d)
        ∧ t.time.raw = max s.time.raw ((getTd s d).lastTaken.getD (getTd s d).since + 2000000000) ∧ domTime (getTd t d) t.time.raw = domTime (getTd s d) t.time.raw)
    ∧ (∀ d : Nat, d < s.time.domains.length → (getTd s d).state = .holdover →
      ∃ t, exec (.holdoverLimitExpiry d) s = .next t ∧ (getTd t d).state = (if (getTd s d).byGm then .free else .acquiring)
        ∧ t.time.raw = max s.time.raw ((getTd s d).holdSince + (getTd s d).holdLimit.toNat * 1000000000))
    ∧ (∀ w : Switch, s.time.switch = some w → ∃ t, exec .switchComplete s = .next t ∧ t.time.switch = none ∧ t.time.active = s.time.active
        ∧ t.time.raw = max s.time.raw (w.start + ceilDiv (w.delta.natAbs * 10 ^ 9) (w.slew * 2 ^ 32)) ∧ activeFixed t.time t.time.raw = domTime (getTd s s.time.active) t.time.raw)
    ∧ (∀ d : Nat, ((getTd s d).state ≠ .locked ∧ ((getTd s d).state ≠ .acquiring ∨ (getTd s d).spent = true)) ∨ tdServo (getTd s d) = false → exec (.holdoverEntry d) s = .next s)
    ∧ (∀ d : Nat, (getTd s d).state ≠ .holdover → exec (.holdoverLimitExpiry d) s = .next s) ∧ (s.time.switch = none → exec .switchComplete s = .next s)

/-- A link that comes up on an enabled port is recorded with the speed configured, or else the one negotiated, and event 0x0310; one that goes down is counted, every session of the port is closed and then event 0x0310 posted. On a port that is up: a frame with a bad check sequence counts as received and in rx_crc, one longer than 1522 bytes, with a tag other than the port's, or discarded otherwise in rx_dropped, both merged into event 0x0312; an ARP request for the port's address and an echo request of up to 576 bytes are answered by exactly one frame with the port's own tag, the echo by way of the gateway where the sender lies outside the netmask; a longer echo request is dropped. Nothing else changes. A frame that finds its port's clock stopped counts in rx_dropped, with the event. With fields in range and no change of the pin mode of an enabled port, ETH_CONFIG kind 0 answers OK with the port's settings taken and its sessions closed, with a link lost where it disables the port, before the reply to the command port and after a reply over Ethernet. Kind 1 with fields in range and no clash with another enabled instance answers OK; the instance holds the settings and listens if enabled, else it is disabled; other instances are as they were. That a port without a gateway sends to the destination itself is the model's choice (log 167), as are its other choices in log entry 45. -/
def Obligations.EthernetPortsAndConfiguration : Prop :=
  (∀ (port : Nat) (s : State) (e : EthPort), s.eth[port]? = some e →
    (∀ speed v, v = (if e.speed = 0 then speed else e.speed) → e.enable = true → e.link = false → exec (.ethLink port true speed) s = .next (post 0x0310#16 port (n8 1 ++ n8 v)
        { s with eth := s.eth.set port { e with link := true, linkSpeed := v } }))
    ∧ (∀ speed, e.enable = true → e.link = true → ∃ t, exec (.ethLink port false speed) s = .next t ∧ (∀ x ∈ t.udp.sessions, x.port ≠ port)
        ∧ t.eth = s.eth.set port { e with link := false, linkLosses := e.linkLosses + 1 } ∧ t.loop = s.loop ∧ t.sys = s.sys
        ∧ t = post 0x0310#16 port (n8 0 ++ n8 e.linkSpeed) (closePortSessions port 2 { s with eth := t.eth }))
    ∧ (ethUp s port = false → (∀ bad tag len other, exec (.ethFrameDiscarded port bad tag len other) s = .next (missedRx port s)) ∧ (∀ tag target mac ip, exec (.arpRequest port tag target mac ip) s = .next (missedRx port s))
        ∧ (∀ tag ip data, exec (.icmpEcho port tag ip data) s = .next (missedRx port s)))
    ∧ (missedRx port s = if e.enable = true ∧ e.link = true then ethDrop port s else s)
    ∧ (ethDrop port s = postMerge 0x0312#16 port (le32 e.rxCrc ++ le32 (e.rxDropped + 1)) { s with eth := s.eth.set port { e with rxDropped := e.rxDropped + 1 } })
    ∧ (countRx port s = { s with eth := s.eth.set port { e with rxFrames := e.rxFrames + 1 } })
    ∧ (ethUp s port = true → ∀ tag len other, exec (.ethFrameDiscarded port true tag len other) s = .next (postMerge 0x0312#16 port (le32 (e.rxCrc + 1) ++ le32 e.rxDropped)
        { s with eth := s.eth.set port { e with rxFrames := e.rxFrames + 1, rxCrc := e.rxCrc + 1 } }))
    ∧ (∀ (tag : Option Nat) (len : Nat), arrives s port tag len ↔ ethUp s port = true ∧ len + 4 * tag.toList.length ≤ 1522 ∧ ∀ v, tag = some v → v ≠ 0 ∧ v = e.vid)
    ∧ (∀ (tag : Option Nat) (len : Nat) (other : Bool), ethUp s port = true →
        (¬ arrives s port tag len ∨ other = true → exec (.ethFrameDiscarded port false tag len other) s = .next (ethDrop port (countRx port s)))
        ∧ (arrives s port tag len → other = false → exec (.ethFrameDiscarded port false tag len other) s = .next (countRx port s)))
    ∧ (∀ (tag : Option Nat) (mac : Bytes) (ip target : U32), ethUp s port = true →
        (¬ arrives s port tag 64 → exec (.arpRequest port tag target mac ip) s = .next (ethDrop port (countRx port s)))
        ∧ (arrives s port tag 64 → target ≠ e.ipv4 → exec (.arpRequest port tag target mac ip) s = .next (countRx port s))
        ∧ (arrives s port tag 64 → target = e.ipv4 → ∃ body, exec (.arpRequest port tag target mac ip) s = .next { s with
            eth := s.eth.set port { e with rxFrames := e.rxFrames + 1, txFrames := e.txFrames + 1 }, udp := { s.udp with sent := s.udp.sent ++ [{ port := port, tag := portTag e, hop := none, body := body }] } }))
    ∧ (∀ (tag : Option Nat) (ip : U32) (data : Bytes), ethUp s port = true →
        (¬ arrives s port tag (data.length + 46) ∨ 576 < data.length → exec (.icmpEcho port tag ip data) s = .next (ethDrop port (countRx port s)))
        ∧ (arrives s port tag (data.length + 46) → data.length ≤ 576 → exec (.icmpEcho port tag ip data) s = .next { s with
            eth := s.eth.set port { e with rxFrames := e.rxFrames + 1, txFrames := e.txFrames + 1 }
            udp := { s.udp with sent := s.udp.sent ++ [{ port := port, tag := portTag e, hop := some (if ip &&& e.netmask = e.ipv4 &&& e.netmask ∨ e.gateway = 0 then ip else e.gateway), body := ipBytes ip ++ [0, 0] ++ data }] } }))) ∧
  (∀ (s : State) (r : Req), s.sys.dev ≠ .boot → Sized s →
    (Takes 0x0310#16 .cmd s r → r.via = .cmd → n8At (reqParams r) 0 = 0 → portParamsOk (reqParams r) = true →
      ((s.eth.getD (n8At (reqParams r) 1) eth0).enable = true → (s.eth.getD (n8At (reqParams r) 1) eth0).rgmii = decide (n8At (reqParams r) 3 = 1)) →
      exec (.ethConfigPort .cmd) s = replied r OK [] (portSet (n8At (reqParams r) 1) (reqParams r) (taken s .cmd)))
    ∧ (∀ (via : Transport) (port : Nat), Takes 0x0310#16 via s r → r.via ≠ .cmd → n8At (reqParams r) 0 = 0 → portParamsOk (reqParams r) = true → n8At (reqParams r) 1 = port →
      ((s.eth.getD port eth0).enable = true → (s.eth.getD port eth0).rgmii = decide (n8At (reqParams r) 3 = 1)) →
      exec (.ethConfigPort via) s = .next (flushTurn r.via (portSet port (reqParams r) (replyTo r OK [] (taken s via)))))
    ∧ (∀ (via : Transport) (p : Bytes) (i : Nat), Takes 0x0310#16 via s r → reqParams r = p → p.length = 16 → n8At p 0 = 1 → n8At p 1 = i → i < 3 → n8At p 2 < 2 → n8At p 3 < 2 → n8At p 5 < 2 → n8At p 6 < 2 → n8At p 7 < 2 →
      zeroAt p 12 4 = true → (i < 2 → n8At p 5 = 0 ∧ n8At p 6 = 1 ∧ n8At p 8 = 255) → -7 ≤ i8At p 10 → i8At p 10 ≤ 4 → -3 ≤ i8At p 11 → i8At p 11 ≤ 4 →
      (n8At p 3 = 1 → ∀ j < 3, j ≠ i → (getInst s j).enable = true → (getInst s j).port = n8At p 2 → (getInst s j).domainNumber ≠ byteAt p 4) → instDomain s i = none →
      ∃ t, exec (.ethConfigInstance via) s = replied r OK [] t ∧ getInst t i = { getInst s i with enable := decide (n8At p 3 = 1), port := n8At p 2, domainNumber := byteAt p 4, transport := n8At p 5, delayMech := n8At p 6, oneStep := decide (n8At p 7 = 1), priority1 := byteAt p 8, priority2 := byteAt p 9, logSync := byteAt p 10, logAnnounce := byteAt p 11, lastAnnounce := s.time.raw, role := if n8At p 3 = 1 then 1 else 0 }
        ∧ (∀ j, j ≠ i → getInst t j = getInst s j) ∧ t.time = s.time))

/-- For an enabled instance on a port that is up and takes the frame, the clauses on Announce and on its time-out being stated for an instance that serves no domain: a Sync to a slave counts, and feeds the servo of the domain it serves with the offset of origin, correction and path delay against that domain's value; an Announce of a better master, which for a gPTP instance without one every master is and for the IEEE 1588 instance one of lower priority1, makes the instance slave of it; a peer delay response records the mean path delay, and a peer delay request is answered by one frame, or two of a two-step instance; an instance with that mechanism, or a slave, sends requests of its own, each with the next sequence; as grandmaster the instance sends at its interval and its sequence advances; without an Announce a gPTP instance listens again and the IEEE 1588 instance becomes grandmaster. When the instance sends its own requests is the model's choice (log 168), as are its other choices in log entry 49. -/
def Obligations.PtpInstancesFollowTheirMaster : Prop :=
  ∀ (i : Nat) (s : State), Sized s → i < 3 →
    (∀ (tag : Option Nat) (origin correction delay : Int), arrives s (getInst s i).port tag (ptpLength s i 44) → (getInst s i).enable = true → (getInst s i).role = 2 →
        ∃ u, u = updInst i (fun y => { y with syncs := y.syncs + 1, pathDelay := toF32 (mkRat delay (2 ^ 16)) }) (countRx (getInst s i).port s)
        ∧ (instDomain s i = none → exec (.ptpSync i tag origin correction delay) s = .next u)
        ∧ (∀ d, instDomain s i = some d → (getTd s d).byGm = false →
            exec (.ptpSync i tag origin correction delay) s = .next (servoSample d ((origin + correction + delay) * 2 ^ 16 - domTime (getTd s d) s.time.raw) s.time.raw u).2))
    ∧ (∀ (tag : Option Nat) (gm : Bytes) (p1 cls acc p2 : Byte) (var steps : U16), arrives s (getInst s i).port tag (ptpLength s i 64) → (getInst s i).enable = true → (getInst s i).role ≠ 0 → instDomain s i = none →
        ((getInst s i).role ≠ 2 ∧ (i < 2 ∨ p1.toNat < (getInst s i).priority1.toNat)) ∨ betterMaster s i gm (clockData p1 cls acc var p2 gm) = true →
        ∃ t, exec (.ptpAnnounce i tag gm p1 cls acc var p2 steps) s = .next t ∧ (getInst t i).role = 2 ∧ (getInst t i).gmIdentity = slice gm 0 8 ∧ (getInst t i).stepsRemoved = steps
          ∧ (getInst t i).lastAnnounce = s.time.raw ∧ t.time = s.time)
    ∧ (∀ (tag : Option Nat) (seq : U16) (delay : Int) (turn : Nat), arrives s (getInst s i).port tag (ptpLength s i 54) → (getInst s i).enable = true →
        (exec (.ptpPdelay i tag 1 seq delay turn) s = .next (updInst i (fun y => { y with pathDelay := toF32 (mkRat delay (2 ^ 16)) }) (countRx (getInst s i).port s)))
        ∧ ((getInst s i).delayMech = 1 → ∃ t, exec (.ptpPdelay i tag 0 seq delay turn) s = .next t ∧ t.time = s.time ∧ t.insts = s.insts
            ∧ t.udp.sent.length = s.udp.sent.length + (if (getInst s i).oneStep then 1 else 2)))
    ∧ (∀ (tag : Option Nat) (seq : U16) (delay : Int) (turn : Nat), instUp s i = true → (getInst s i).role ≠ 0 → (getInst s i).delayMech = 1 ∨ (getInst s i).role = 2 →
        ∃ t, exec (.ptpPdelay i tag 2 seq delay turn) s = .next t ∧ (getInst t i).seqId = (getInst s i).seqId + 1 ∧ t.time = s.time ∧ t.udp.sent.length = s.udp.sent.length + 1)
    ∧ (∀ announce : Bool, instUp s i = true → (getInst s i).role = 4 → ∃ t, exec (.ptpSyncInterval i announce) s = .next t ∧ (getInst t i).seqId = (getInst s i).seqId + 1
          ∧ t.time = s.time ∧ t.udp.sent.length = s.udp.sent.length + (if announce || (getInst s i).oneStep then 1 else 2))
    ∧ ((getInst s i).enable = true → (getInst s i).role = 2 → instDomain s i = none → ∃ t, exec (.announceReceiptTimeout i) s = .next t ∧ (getInst t i).role = (if i < 2 then 1 else 4) ∧ t.time = s.time)
    ∧ (ethUp s (getInst s i).port = false → (∀ tag o c d, exec (.ptpSync i tag o c d) s = .next (missedRx (getInst s i).port s))
        ∧ (∀ tag q n d t, q < 2 → exec (.ptpPdelay i tag q n d t) s = .next (missedRx (getInst s i).port s))
        ∧ (∀ tag n d t, exec (.ptpPdelay i tag 2 n d t) s = .next s))

/-- A port that is OFF takes settings in range and starts error-active with both counters at 0, or stays OFF as the mode says. A port that runs takes no other settings: E_STATE; with its own it goes to or leaves RESTRICTED, or begins its shutdown of at most 1 ms, during which all but OFF is answered E_SHUTTING_DOWN. A sendable entry owned by the host joins the queue of a port that is not OFF with status QUEUED; a port that is OFF answers E_STATE, an entry that is not sendable or not the host's E_PARAM. A queued entry not in transmission leaves the queue with status CANCELLED and is counted; one in transmission answers E_TOO_LATE and stays. Acknowledged receive entries free their places. A port in bus-off starts to recover, any other answers E_STATE. A tap that no running graph reads or names is deleted or set, an age tap, a value tap with its default as value, a transmit tap with a reserved entry; one in use answers E_STATE. A port one of whose memory rows is lost without a spare is answered E_RESOURCE where it would start or send. Each answers as its card says and changes nothing else but the log. The model's own choices in it are in log entries 102, 103, 106. -/
def Obligations.CanRequests : Prop :=
  ∀ (via : Transport) (s : State) (r : Req) (b : Bytes) (p : Nat), s.sys.dev ≠ .boot → Sized s → reqParams r = b → n8At b 0 = p → p < 6 →
    (Takes 0x0C00#16 via s r →
      (b.length = 16 → n8At b 1 < 3 → n8At b 2 < 16 → n8At b 3 ≤ 16 → byteAt b 15 = 0 → timingOk (timingOf b) = true → tapsKeep s p (n8At b 3) = true →
        ((getCan s p).bus = .off → (getCan s p).shutting = none →
          (n8At b 1 < 2 → canRamLost s p = false → ∃ t, exec (.canConfig via) s = replied r OK (canRates (timingOf b)) t ∧ (getCan t p).bus = .active ∧ canSame (getCan t p) b ∧ (getCan t p).tec = 0 ∧ (getCan t p).recv = 0
            ∧ (getCan t p).restricted = decide (n8At b 1 = 1) ∧ (∀ q, q ≠ p → getCan t q = getCan s q) ∧ LogOnly { taken s via with can := t.can } t)
          ∧ (n8At b 1 = 2 → ∃ t, exec (.canConfig via) s = replied r OK (canRates (timingOf b)) t ∧ (getCan t p).bus = .off ∧ canSame (getCan t p) b ∧ (∀ q, q ≠ p → getCan t q = getCan s q)
            ∧ t = { taken s via with can := t.can }))
        ∧ ((getCan s p).bus ≠ .off → canSame (getCan s p) b → (getCan s p).shutting = none →
          (n8At b 1 < 2 → canRamLost s p = false → exec (.canConfig via) s = replied r OK (canRates (timingOf b)) (updCan p (fun x => { x with restricted := decide (n8At b 1 = 1) }) (taken s via)))
          ∧ (n8At b 1 = 2 → (getCan s p).bus ≠ .busOff → ∃ t, exec (.canConfig via) s = replied r OK (canRates (timingOf b)) t ∧ getCan t p = { getCan s p with shutting := some (s.time.raw + 1000000) }
            ∧ (∀ q, q ≠ p → getCan t q = getCan s q) ∧ LogOnly { taken s via with can := t.can } t))
        ∧ (n8At b 1 < 2 → canRamLost s p = true → (getCan s p).shutting = none → (getCan s p).bus = .off ∨ canSame (getCan s p) b →
          exec (.canConfig via) s = replied r E_RESOURCE [] (dropRequest s via)))
      ∧ ((getCan s p).bus ≠ .off → (getCan s p).shutting = none → ¬ canSame (getCan s p) b → exec (.canConfig via) s = replied r E_STATE [] (dropRequest s via))
      ∧ (∀ u, (getCan s p).shutting = some u → n8At b 1 ≠ 2 → exec (.canConfig via) s = replied r E_SHUTTING_DOWN (n32 (max (ceilDiv (u - s.time.raw) 1000) 1)) (dropRequest s via)))
    ∧ (∀ e : Nat, Takes 0x0C01#16 via s r → b.length = 4 → n8At b 1 = e → (getCan s p).shutting = none →
      (e < 32 → zeroAt b 2 2 = true → (getCan s p).bus ≠ .off → canOwned (getCan s p) e = false → sendable (canEntry s (txAddr p e)) = true → canRamLost s p = true →
        exec (.canSend via) s = replied r E_RESOURCE [] (dropRequest s via))
      ∧ (∀ t : State, canRamLost s p = false → e < 32 → zeroAt b 2 2 = true → (getCan s p).bus ≠ .off → canOwned (getCan s p) e = false → sendable (canEntry s (txAddr p e)) = true →
        t = canWrite (txAddr p e + 6) [1] (updCan p (fun x => { x with queue := x.queue ++ [e] }) (taken s via)) →
        exec (.canSend via) s = replied r OK (n8 (txQueued (getCan t p)) ++ zeros 3) t)
      ∧ ((getCan s p).bus = .off → exec (.canSend via) s = replied r E_STATE [] (dropRequest s via))
      ∧ ((getCan s p).bus ≠ .off → canOwned (getCan s p) e = true ∨ sendable (canEntry s (txAddr p e)) = false → exec (.canSend via) s = replied r E_PARAM [] (dropRequest s via)))
    ∧ (∀ e : Nat, Takes 0x0C02#16 via s r → b.length = 4 → n8At b 1 = e → e < 32 → zeroAt b 2 2 = true → tapEntry (getCan s p) e = false →
      ((getCan s p).queue.contains e = true → (getCan s p).current ≠ some e → ∃ t, exec (.canCancel via) s = replied r OK [3] t ∧ getCan t p = { getCan s p with queue := (getCan s p).queue.filter (· ≠ e), txCancelled := (getCan s p).txCancelled + 1 }
          ∧ t.can.rx = s.can.rx ∧ t.can.tx = s.can.tx ∧ LogOnly { taken s via with can := t.can } t ∧ t.can.mem = memWriteBytes s.can.mem (txAddr p e + 6) [3] ∧ (∀ q, q ≠ p → getCan t q = getCan s q))
      ∧ ((getCan s p).queue.contains e = true → (getCan s p).current = some e → exec (.canCancel via) s = replied r E_TOO_LATE [] (updCan p (fun x => { x with tooLate := true }) (taken s via)))
      ∧ ((getCan s p).queue.contains e = false → exec (.canCancel via) s = replied r E_PARAM [] (dropRequest s via)))
    ∧ (∀ n : Nat, Takes 0x0C03#16 via s r → b.length = 4 → n8At b 1 = n → 0 < n → n ≤ (getCan s p).rxHeld → zeroAt b 2 2 = true →
      ∃ t, exec (.canRxAck via) s = replied r OK (n8 ((getCan s p).rxHeld - n) ++ n8 (((getCan s p).rxHead + n) % 64) ++ [0, 0]) t
        ∧ (getCan t p).rxHeld = (getCan s p).rxHeld - n ∧ (getCan t p).rxHead = ((getCan s p).rxHead + n) % 64 ∧ t = { taken s via with can := t.can } ∧ t.can.rx = s.can.rx)
    ∧ (Takes 0x0C04#16 via s r → b.length = 4 →
      (zeroAt b 1 3 = true → (getCan s p).bus = .busOff → exec (.canRecover via) s = replied r OK [] (canChange p (fun x => { x with bus := .recovering }) (taken s via)))
      ∧ ((getCan s p).bus ≠ .busOff → exec (.canRecover via) s = replied r E_STATE [] (dropRequest s via)))
    ∧ (∀ k : Nat, p < 3 → Takes 0x0C05#16 via s r → n8At b 1 = k →
      (20 ≤ b.length → tapInUse s (decide (p < 2)) k = true → exec (.canTap via) s = replied r E_STATE [] (dropRequest s via))
      ∧ (tapInUse s (decide (p < 2)) k = false → f32Bad (u32At b 16) = false → b.length = 20 + 12 * n8At b 13 →
          (∀ i < n8At b 13, f32Bad (u32At b (24 + 12 * i)) = false ∧ f32Bad (u32At b (28 + 12 * i)) = false) →
        (n8At b 2 = 0 → p < 2 → (u32At b 4).getLsbD 31 = false → exec (.canTap via) s = replied r OK [] { taken s via with can := { s.can with rx := s.can.rx.filter (fun t => t.1 ≠ k) } })
        ∧ (n8At b 2 = 0 → p = 2 → exec (.canTap via) s = replied r OK [] (dropTxTap k (taken s via)))
        ∧ (n8At b 2 = 1 → p = 1 → n8At b 12 = 0 → n8At b 13 = 0 → (u32At b 4).getLsbD 31 = false →
          exec (.canTap via) s = replied r OK [] { taken s via with can := { s.can with rx := (k, .age (n8At b 3)) :: s.can.rx.filter (fun t => t.1 ≠ k) } })
        ∧ (n8At b 2 = 1 → p = 0 → n8At b 3 < 6 → n8At b 12 = 0 → n8At b 13 = 1 → (u32At b 4).getLsbD 31 = false → canFieldOk b 20 = true →
          exec (.canTap via) s = replied r OK [] { taken s via with can := { s.can with
            rx := (k, .value (n8At b 3) (u32At b 4 &&& 0x3FFFFFFF#32) (u32At b 8) (canFieldAt b 20) (n16At b 14) (f32Param (u32At b 16)) (f32Param (u32At b 16)) none) :: s.can.rx.filter (fun t => t.1 ≠ k) } })
        ∧ (∀ e : Nat, n8At b 2 = 1 → p = 2 → n8At b 3 < 6 → u32At b 8 = 0 → n8At b 12 ≤ 15 → ((u32At b 4).getLsbD 31 = false → n8At b 12 ≤ 8 ∧ (u32At b 4).getLsbD 30 = false) → 0 < n8At b 13 → n8At b 13 ≤ 8 →
          (∀ i < n8At b 13, canFieldOk b (20 + 12 * i) = true ∧ (canFieldAt b (20 + 12 * i)).start + (canFieldAt b (20 + 12 * i)).length ≤ 8 * dlcLength ((u32At b 4).getLsbD 31) (n8At b 12)) →
          freeTapEntry s (n8At b 3) k = some e → (∀ x ∈ s.can.tx, x.1 ≠ k) →
          ∃ t, exec (.canTap via) s = replied r OK [] t ∧ t.can.tx = (k, { port := n8At b 3, id := u32At b 4 &&& 0x3FFFFFFF#32, fdf := (u32At b 4).getLsbD 31, brs := (u32At b 4).getLsbD 30, dlc := n8At b 12, fields := (List.range (n8At b 13)).map (fun i => canFieldAt b (20 + 12 * i)), entry := e, next := none }) :: s.can.tx ∧ t = { taken s via with can := { s.can with tx := t.can.tx } })))

/-- On a port that takes part on its bus: a valid frame counts and lowers the receive counter, one that a filter wants enters the FIFO, in a full FIFO it is dropped and counted, one that no filter wants stays out; an attempt takes the entry that is next to send and stamps it; a sent frame counts and lowers the transmit counter, its entry is SENT and leaves the queue; a failed one stays queued, with SINGLE_SHOT or a late cancel it is LATE_LOST and leaves; an error counts with its code, and the counters decide passive and bus-off; in RESTRICTED they stay. A port in recovery returns error-active with counters 0; a shutdown ends OFF; a tap whose time has passed takes its default; a port rejoins the bus. Where nothing of it applies nothing happens (log 4). The model's own choices in it are in log entries 100, 101, 105. -/
def Obligations.CanBusEvents : Prop :=
  ∀ (p : Nat) (s : State), Sized s → p < 6 →
    (∀ f : CanFrame, (getCan s p).bus = .active → canJoined s (getCan s p) = true → (f.fdf = true → (getCan s p).fd = true) → s.can.rx = [] → (getCan s p).tec < 128 → (getCan s p).recv < 128 → ∀ ago : Nat,
        ((getCan s p).acceptAll = false → filterPass s p f.id = false →
          ∃ t, exec (.canFrameReceived p f ago) s = .next t
            ∧ getCan t p = { getCan s p with rxFrames := (getCan s p).rxFrames + 1, seq := (getCan s p).seq + 1, recv := if (getCan s p).restricted then (getCan s p).recv else (getCan s p).recv - 1 }
            ∧ t.can.mem = s.can.mem ∧ (∀ q, q ≠ p → getCan t q = getCan s q) ∧ t.evt = s.evt)
        ∧ ((getCan s p).acceptAll = true ∨ filterPass s p f.id = true → (getCan s p).rxHeld < 64 →
          ∃ t, exec (.canFrameReceived p f ago) s = .next t ∧ (getCan t p).rxHeld = (getCan s p).rxHeld + 1 ∧ (getCan t p).rxFrames = (getCan s p).rxFrames + 1
            ∧ t.can.mem = memWriteBytes s.can.mem (rxAddr p (((getCan s p).rxHead + (getCan s p).rxHeld) % 64)) (le32 f.id ++ n8 (flag f.fdf 0 + flag f.brs 1 + flag f.esi 2) ++ n8 f.dlc ++ n8 5 ++ [0]
              ++ le32 (timeAt s (s.time.raw - ago)) ++ le32 ((getCan s p).seq + 1) ++ slice f.data 0 64))
        ∧ ((getCan s p).acceptAll = true ∨ filterPass s p f.id = true → 64 ≤ (getCan s p).rxHeld →
          ∃ t, exec (.canFrameReceived p f ago) s = .next t ∧ (getCan t p).rxHeld = (getCan s p).rxHeld ∧ (getCan t p).rxOverflow = (getCan s p).rxOverflow + 1 ∧ t.can.mem = s.can.mem))
    ∧ (∀ (f : CanFrame) (ago : Nat), ((getCan s p).bus ≠ .active ∧ (getCan s p).bus ≠ .passive) ∨ canJoined s (getCan s p) = false ∨ (f.fdf = true ∧ (getCan s p).fd = false) → exec (.canFrameReceived p f ago) s = .next s)
    ∧ (∀ e : Nat, (getCan s p).bus = .active ∨ (getCan s p).bus = .passive → canJoined s (getCan s p) = true → (getCan s p).restricted = false → (getCan s p).shutting = none → (getCan s p).current = none → nextToSend s p = some e →
        exec (.canTxAttempt p) s = .next (canWrite (txAddr p e + 8) (le32 (timeAt s (s.time.raw + (getCan s p).timing.nPre * (1 + (getCan s p).timing.nT1) * 25 / 2))) (updCan p (fun x => { x with current := some e, tooLate := false }) s)))
    ∧ ((getCan s p).current.isSome = true ∨ (getCan s p).restricted = true ∨ (getCan s p).shutting.isSome = true ∨ nextToSend s p = none → exec (.canTxAttempt p) s = .next s)
    ∧ (∀ (code tec recv : Nat) (count : CanCount), (getCan s p).bus = .active ∨ (getCan s p).bus = .passive → canJoined s (getCan s p) = true → (tec, recv) = canCounted (getCan s p) count →
        ∃ t, exec (.canBusError p code count) s = .next t ∧ (getCan t p).errors = (getCan s p).errors + 1 ∧ (getCan t p).lastError = code ∧ (∀ q, q ≠ p → getCan t q = getCan s q)
          ∧ ((getCan s p).restricted = true ∨ count = .none → (getCan t p).tec = (getCan s p).tec ∧ (getCan t p).recv = (getCan s p).recv ∧ (getCan t p).bus = (getCan s p).bus)
          ∧ ((getCan s p).restricted = false → count ≠ .none → tec < 256 → (getCan t p).tec = tec ∧ (getCan t p).recv = recv ∧ (getCan t p).bus = (if 128 ≤ tec ∨ 128 ≤ recv then .passive else .active))
          ∧ ((getCan s p).restricted = false → count ≠ .none → 255 < tec → (getCan t p).bus = (if (getCan s p).shutting.isSome then .off else .busOff) ∧ (getCan t p).busOffs = (getCan s p).busOffs + 1))
    ∧ (∀ (code : Nat) (count : CanCount), ((getCan s p).bus ≠ .active ∧ (getCan s p).bus ≠ .passive) ∨ canJoined s (getCan s p) = false → exec (.canBusError p code count) s = .next s)
    ∧ (∀ (e result : Nat) (tdc : Byte), (getCan s p).current = some e → e ∈ (getCan s p).queue → s.can.tx = [] → (getCan s p).bus = .active → (getCan s p).tec < 128 → (getCan s p).recv < 128 →
        (result = 0 → ∃ t, exec (.canTxOutcome p result tdc) s = .next t ∧ (getCan t p).current = none ∧ (getCan t p).queue = (getCan s p).queue.filter (· ≠ e) ∧ (getCan t p).txSent = (getCan s p).txSent + 1
          ∧ (getCan t p).seq = (getCan s p).seq + 1 ∧ (getCan t p).tec = (if (getCan s p).restricted then (getCan s p).tec else (getCan s p).tec - 1)
          ∧ t.can.mem = memWriteBytes (memWriteBytes s.can.mem (txAddr p e + 12) (le32 ((getCan s p).seq + 1))) (txAddr p e + 6) [2] ∧ t.time = s.time)
        ∧ (result ≠ 0 → (byteAt (canEntry s (txAddr p e)) 4).getLsbD 4 = false → (getCan s p).tooLate = false →
          ∃ t, exec (.canTxOutcome p result tdc) s = .next t ∧ (getCan t p).current = none ∧ (getCan t p).queue = (getCan s p).queue ∧ t.can.mem = s.can.mem ∧ t.evt = s.evt)
        ∧ (result ≠ 0 → (byteAt (canEntry s (txAddr p e)) 4).getLsbD 4 = true ∨ (getCan s p).tooLate = true →
          ∃ t, exec (.canTxOutcome p result tdc) s = .next t ∧ (getCan t p).current = none ∧ (getCan t p).queue = (getCan s p).queue.filter (· ≠ e) ∧ (getCan t p).txLateLost = (getCan s p).txLateLost + 1
            ∧ t.can.mem = memWriteBytes s.can.mem (txAddr p e + 6) [4]))
    ∧ (∀ (result : Nat) (tdc : Byte), (getCan s p).current = none → exec (.canTxOutcome p result tdc) s = .next s)
    ∧ ((getCan s p).bus = .recovering → canJoined s (getCan s p) = true → ∃ t, exec (.canRecoveryDone p) s = .next t ∧ (getCan t p).bus = .active ∧ (getCan t p).tec = 0 ∧ (getCan t p).recv = 0 ∧ (∀ q, q ≠ p → getCan t q = getCan s q))
    ∧ ((getCan s p).bus ≠ .recovering → exec (.canRecoveryDone p) s = .next s)
    ∧ ((getCan s p).shutting.isSome = true → (getCan s p).current = none → ∃ t, exec (.canShutdownEnd p) s = .next t ∧ (getCan t p).bus = .off ∧ (getCan t p).shutting = none)
    ∧ ((getCan s p).shutting = none ∨ (getCan s p).current.isSome = true → exec (.canShutdownEnd p) s = .next s)
    ∧ (∀ lost : Bool, ((getCan s p).away = true → s.time.onFallback.getD 3 true = false → exec (.canRejoin p lost) s = .next (updCan p (fun x => { x with away := false, errors := if lost then x.errors + 1 else x.errors }) s))
        ∧ ((getCan s p).away = false ∨ s.time.onFallback.getD 3 true = true → exec (.canRejoin p lost) s = .next s))
    ∧ (∀ (k q : Nat) (id m : U32) (f : CanField) (tmo u : Nat) (df v : F32), s.can.rx = [(k, .value q id m f tmo df v (some u))] →
        (tmo ≠ 0 → v ≠ df → exec (.canTapTimeout k) s = .next { s with time := { s.time with raw := max s.time.raw (u + 1000000 * tmo) }, can := { s.can with rx := [(k, .value q id m f tmo df df (some u))] } })
        ∧ (tmo = 0 ∨ v = df → exec (.canTapTimeout k) s = .next s))

/-- The sinc output of a window of ones is 2^23 - 1 and of a window of zeros -2^23, for every order and decimation of at least 1. The FIR output of every history lies between -2^23 and 2^23 - 1; where the exact sum of products, rounded, lies in that range it is the output and nothing saturates; where it lies outside, the output is the nearest end and the saturation is marked. -/
def Obligations.FilterArithmeticStaysInQ123 : Prop :=
  (∀ n m : Nat, 0 < m → sincOut n m (List.replicate (n * (m - 1) + 1) true) = 2 ^ 23 - 1 ∧ sincOut n m (List.replicate (n * (m - 1) + 1) false) = -(2 ^ 23))
    ∧ ∀ h x : List Int, -(2 ^ 23) ≤ (firOut h x).1 ∧ (firOut h x).1 ≤ 2 ^ 23 - 1
      ∧ (∀ y : Int, ratRound (mkRat ((h.zip x).map (fun p => p.1 * p.2)).sum (2 ^ 23)) = y →
          (-(2 ^ 23) ≤ y → y ≤ 2 ^ 23 - 1 → firOut h x = (y, false))
          ∧ (2 ^ 23 ≤ y → firOut h x = (2 ^ 23 - 1, true)) ∧ (y < -(2 ^ 23) → firOut h x = (-(2 ^ 23), true)))

/-- A round starts at its boundary, on fallback at the first count that reaches it, with the settings, filter sets and assignments noted before in effect, of several settings of one thing the last, and every assigned channel has its scaled value. A slot delivers once a round at its instant, slot 79 also after the next round has begun. Where one stage is live and reads the channel and holds an open frame of that round, the sample joins the frame's and the channel becomes usable for it; of a frame opened on a prediction of that channel the prediction is tested, and the frame corrected or reopened after an input miss. Where no stage is live or holds committed frames nothing else changes. A conversion at a position of a core stores its code, which SAR4 corrects once it serves the core (log 195), for the input of the sequence; an idle position serves the first waiting urgent input, one without is idle; no conversion is made before the reference has settled. A mismatch with SAR4 counts and starts the comparison. A stuck input is recorded with event 0x0401, its fast detector is in no trip condition, and it is cleared by a transition; the reference settles after its 5 ms; slow paths and filters settle when their rounds have passed. Where nothing of it is due, nothing happens (log 4). That a served urgent input frees its place at the end of its conversion is the model's choice (log 178), as are its other choices in log entries 53, 54, 57. -/
def Obligations.RoundsAndConversions : Prop :=
  ∀ s : State, Sized s →
    (∀ (bits : List (List Bool)) (caps : List Nat), ∃ t, exec (.roundStart bits caps) s = .next t
        ∧ t.sense.round.t = max s.sense.nextRound (s.time.raw / 1000 * 1000) ∧ t.sense.nextRound = t.sense.round.t + 1000 ∧ (s.time.fbStart = none → t.time.raw = max s.time.raw t.sense.round.t)
        ∧ (∀ a, s.time.fbStart = some a → t.time.raw = max s.time.raw (if t.sense.round.t ≤ a then a else a + 10 * ((t.sense.round.t - a + 9) / 10)))
        ∧ t.sense.round.done = [] ∧ t.sense.confs = [] ∧ t.flt.changed = false ∧ t.sense.calMarks = []
        ∧ (∀ c < 80, t.sense.round.vals.getD c none = if (assignOf t.flt.assigns c).isSome then some (scaled (getSense t c) (getFch t c).q) else none)
        ∧ (s.rel.waiting = [] → s.sense.probe = none → s.flt.changed = true → t.flt.sets = s.flt.setsReq ∧ t.flt.assigns = s.flt.assignsReq)
        ∧ (∀ pre suf i a b mode, i < 64 → s.sense.confs = pre ++ .acc i a b mode :: suf → (∀ a' b' m', .acc i a' b' m' ∉ suf) → (getAcc t i).a = a ∧ (getAcc t i).b = b ∧ (getAcc t i).mode = mode ∧ (getAcc t i).count = 0)
        ∧ (∀ pre suf i a mode, i < 64 → s.sense.confs = pre ++ .mmx i a mode :: suf → (∀ a' m', .mmx i a' m' ∉ suf) → (getMmx t i).src = a ∧ (getMmx t i).mode = mode ∧ (getMmx t i).count = 0)
        ∧ (∀ pre suf c l, c < 4 → s.sense.confs = pre ++ .seq c l :: suf → (∀ l', .seq c l' ∉ suf) → (getCore t c).seq = l ∧ (getCore t c).anchor = t.sense.round.t / 1000)
        ∧ (∀ pre suf c d foc sc z n m, c < 80 → s.sense.confs = pre ++ .chan c d foc sc z n m :: suf → (∀ d' f' s' z' n' m', .chan c d' f' s' z' n' m' ∉ suf) → (getSense t c).delay = d ∧ (getSense t c).focDec = foc ∧ (getSense t c).scale = sc ∧ (getSense t c).zero = z
            ∧ (getSense t c).nomScale = sc ∧ (getSense t c).nomZero = z ∧ (getSense t c).slowN = n ∧ (getSense t c).slowM = m))
    ∧ (∀ k < 79, (s.time.onFallback.getD 2 true = false → s.sense.round.done.contains k = false →
          (∀ mac : Option U32, ∃ t, exec (.slotOutput k mac) s = .next t ∧ t.time.raw = max s.time.raw (s.sense.round.t + (80 + 50 * k + 3) / 4)
            ∧ t.sense.round = { s.sense.round with done := k :: s.sense.round.done })
          ∧ ((∀ n < 8, stageLive s n = false ∧ (getStage s n).closed = [] ∧ (getStage s n).hist = []) →
            exec (.slotOutput k none) s = .next { advanceTo (s.sense.round.t + (80 + 50 * k + 3) / 4) s with sense := { s.sense with round := { s.sense.round with done := k :: s.sense.round.done } } }))
        ∧ (s.time.onFallback.getD 2 true = true ∨ s.sense.round.done.contains k = true → exec (.slotOutput k none) s = .next (advanceTo (s.sense.round.t + (80 + 50 * k + 3) / 4) s)))
    ∧ (∀ (k n q : Nat) (f : Frame) (a : Assign) (v : F32) (rv : RoundVals) (base : State), k < 80 → s.time.onFallback.getD 2 true = false →
        rv = (if k = 79 then s.sense.late.getD s.sense.round else s.sense.round) → rv.done.contains k = false → q = 4 * rv.t + 80 + 50 * k →
        s.flt.assigns.find? (fun a => a.first + a.gang - 1 = k) = some a → rv.vals.getD a.ch none = some v →
        n < 8 → stageLive s n = true → (stageChannels s n).contains a.ch = true → (getStage s n).frames = [f] → f.round = rv.t →
        (∀ m < 8, (getStage s m).closed = [] ∧ (getStage s m).hist = [] ∧ (m ≠ n → stageLive s m = false)) →
        base = { s with
          time := { s.time with raw := max s.time.raw (rv.t + (80 + 50 * k + 3) / 4) }
          sense := if k = 79 ∧ s.sense.late.isSome = true then { s.sense with late := none, past := s.sense.past.map (fun r => if r.t = rv.t then { r with done := k :: r.done } else r) }
                   else { s.sense with round := { s.sense.round with done := k :: s.sense.round.done } } } →
        (f.spec = false ∨ (∀ p ∈ f.preds, p.channel ≠ a.ch) →
          exec (.slotOutput k none) s = .next (followHolds n (channelUsable n f.index a.ch q (updFrame n f.index (fun y => { y with samples := y.samples ++ [(a.ch, v)] }) base))))
        ∧ (∀ (p : Pred) (j : Nat) (i : DillInput), f.spec = true → f.preds.find? (fun p => p.channel = a.ch) = some p → (getStage s n).dill.inputs.findIdx? (fun i => i.channel = a.ch) = some j →
          (getStage s n).dill.inputs[j]? = some i →
          (hitTest i p.xhat v = true → exec (.slotOutput k none) s = .next (followHolds n (updFrame n f.index (fun y => { y with samples := y.samples ++ [(a.ch, v)], preds := y.preds.map (fun z => if z.channel = a.ch then { z with x := some v } else z) }) base)))
          ∧ (hitTest i p.xhat v = false → exec (.slotOutput k none) s = .next (followHolds n (missFrame n 0 f (updStage n (fun x => { x with inputMisses := x.inputMisses + 1, missBy := upd x.missBy j (· + 1) }) base))))))
    ∧ (∀ (core p start : Nat) (code : U16) (chk : Option (U16 × U16)), core < 4 → p < 5 → start = s.sense.round.t + 200 * p →
        (s.sense.refState ≠ 2 ∨ (getCore s core).phys = none → exec (.sarConversion core p code chk) s = .next s)
        ∧ (s.sense.refState = 2 → (getCore s core).phys.isSome = true →
          (start < s.sense.refDue → exec (.sarConversion core p code chk) s = .next (advanceTo (start + 200) s))
          ∧ (s.sense.refDue ≤ start → seqEntry (getCore s core) (s.sense.round.t / 1000) p = 0xFF → urgentInput s core start = none → exec (.sarConversion core p code chk) s = .next (advanceTo (start + 200) s))
          ∧ (s.sense.refDue ≤ start → chk = none ∨ p ≠ 0 ∨ checkedCore s ≠ core →
            (∀ e < 8, seqEntry (getCore s core) (s.sense.round.t / 1000) p = e →
              exec (.sarConversion core p code chk) s = .next (updSense (48 + 8 * core + e) (fun x => { x with conv := some (sarCode s core code, start) }) (advanceTo (start + 200) s)))
            ∧ (∀ i < 8, seqEntry (getCore s core) (s.sense.round.t / 1000) p = 0xFF → urgentInput s core start = some i →
              ∃ t, exec (.sarConversion core p code chk) s = .next t ∧ (getSense t (48 + 8 * core + i)).conv = some (sarCode s core code, start) ∧ t.sense.urgentDone = s.sense.urgentDone + 1
                ∧ t.sense.urgents = s.sense.urgents.map (fun w => if servedBy (8 * core + i) start w then { w with left := w.left &&& ~~~(1#32 <<< (8 * core + i)), conv := w.conv ||| (1#32 <<< (8 * core + i)), round := timeAt t (countReached t (s.sense.round.t + 1000)) } else w)
                ∧ (t.sense.urgents.any (fun w => w.left.getLsbD (8 * core + i)) = false → (getCore t core).urgent = (getCore s core).urgent.filter (· ≠ i)) ∧ t.flt = s.flt ∧ t.loop = s.loop ∧ t.pwm = s.pwm))
          ∧ (∀ (e : Nat) (k : U16 × U16), e < 8 → s.sense.refDue ≤ start → p = 0 → chk = some k → checkedCore s = core → seqEntry (getCore s core) (s.sense.round.t / 1000) p = e → sar4Spare s = true → s.sense.probe = none →
            k.1.toNat + 32 < code.toNat ∨ code.toNat + 32 < k.1.toNat →
            ∃ t, exec (.sarConversion core p code chk) s = .next t ∧ t.sense.sarMismatch = s.sense.sarMismatch + 1 ∧ t.sense.probe = some { core := core, last := s.sense.round.t / 1000 + 16, done := 0, bad := 0, good := true }
              ∧ (getSense t (48 + 8 * core + e)).conv = some (sarCode s core code, start))
          ∧ ((getCore s core).phys ≠ some 4 ∨ s.sense.sarFix = none → sarCode s core code = code.toNat)
          ∧ (∀ (o g : Rat) (y : Int), (getCore s core).phys = some 4 → s.sense.sarFix = some (o, g) → ratRound (o + g * (code.toNat : Rat)) = y →
              (sarCode s core code : Int) = (if y < 0 then 0 else if 65535 < y then 65535 else y))))
    ∧ (∀ (ch : Nat) (level : Bool), (ch < 48 → (getSense s ch).stuck = false → mclkRuns s (ch / 6) = true →
          exec (.bsStuck ch level) s = .next (postMerge 0x0401#16 ch (n8 (if level then 1 else 0)) (updFoc ch (fun x => { x with tripped := false }) (updSense ch (fun x => { x with stuck := true }) s))))
        ∧ ((getSense s ch).stuck = true ∨ mclkRuns s (ch / 6) = false → exec (.bsStuck ch level) s = .next s))
    ∧ (∀ ch : Nat, exec (.bsStuckClear ch) s = .next (updSense ch (fun x => { x with stuck := false }) s))
    ∧ (s.sense.refState = 1 → exec .refSettled s = .next (post 0x0400#16 0 [] { advanceTo s.sense.refDue s with sense := { s.sense with refState := 2 } }))
    ∧ (s.sense.refState ≠ 1 → exec .refSettled s = .next s)
    ∧ (∀ ch : Nat, (0 < (getSense s ch).slowN → (getSense s ch).slowN * (getSense s ch).slowM ≤ (getSense s ch).slowCount →
          exec (.slowPathSettled ch) s = .next (updSense ch (fun y => { y with slowOk := true }) s))
        ∧ ((getSense s ch).slowN = 0 ∨ (getSense s ch).slowCount < (getSense s ch).slowN * (getSense s ch).slowM → exec (.slowPathSettled ch) s = .next s))
    ∧ (∀ (ch n : Nat) (a : Assign), assignOf s.flt.assigns ch = some a → settleNeed s s.flt.sets a = some n →
        exec (.filterSettled ch) s = .next (if n ≤ (getFch s ch).rounds then updFch ch (fun x => { x with settled := true }) s else s))
    ∧ (∀ ch : Nat, assignOf s.flt.assigns ch = none → exec (.filterSettled ch) s = .next s)

/-- SNS_REF_ENABLE turns the reference on, settling for 5,000 us, reports one that is on, or turns it off where all stages are OFF and no analog input is being calibrated, else it answers E_STATE. SNS_CONFIG with settings in range for a channel, sequence, accumulator or tracker that nothing running depends on answers OK and notes them for the next round boundary, and nothing else. SNS_CAL_ZERO and SNS_CAL_SPAN are accepted and start a calibration. SNS_ACC_READ waits for the next boundary. SNS_URGENT enters each input in its core's queue, or drops and counts it where the queue is full, and waits for their conversions; an input queued already is waited for without a second entry. The model's own choices in it are in log entry 57. -/
def Obligations.SenseRequests : Prop :=
  ∀ (via : Transport) (s : State) (r : Req) (p : Bytes), s.sys.dev ≠ .boot → p = reqParams r → Sized s →
    (Takes 0x0400#16 via s r → p = [1, 0, 0, 0] → s.sense.refState = 0 →
      exec (.snsRefEnable via) s = replied r OK (n8 1 ++ zeros 3 ++ n32 5000) { taken s via with sense := { s.sense with refState := 1, refDue := s.time.raw + 5000000 } })
    ∧ (Takes 0x0400#16 via s r → p = [1, 0, 0, 0] → s.sense.refState ≠ 0 →
      exec (.snsRefEnable via) s = replied r OK (n8 s.sense.refState ++ zeros 3 ++ n32 (if s.sense.refState = 1 then ceilDiv (s.sense.refDue - s.time.raw) 1000 else 0)) (taken s via))
    ∧ (Takes 0x0400#16 via s r → p = [0, 0, 0, 0] → allStagesOff s = false ∨ (∃ k ∈ s.sense.cals, 48 ≤ k.ch) → exec (.snsRefEnable via) s = replied r E_STATE [] (dropRequest s via))
    ∧ (Takes 0x0400#16 via s r → p = [0, 0, 0, 0] → allStagesOff s = true → (∀ k ∈ s.sense.cals, k.ch < 48) →
      exec (.snsRefEnable via) s = replied r OK (zeros 8) { taken s via with sense := { s.sense with refState := 0, chans := s.sense.chans.map (fun x => { x with conv := none }) } })
    ∧ (∀ c d foc n m : Nat, Takes 0x0401#16 via s r → p.length = 20 → n8At p 0 = 0 → n8At p 1 = c → n8At p 2 = d → n8At p 3 = foc → n8At p 12 = n → n32At p 16 = m → zeroAt p 13 3 = true →
      c < 80 → readLive s c = false → watchedLive s c = false → chanLost s c = false → d ≤ 63 → (foc = 0 ∨ 8 ≤ foc ∧ foc ≤ 32) → (48 ≤ c → d = 0 ∧ foc = 0) →
      f32MagIn (u32At p 4) (1 / 1000000) 1000000 = true → f32In (u32At p 8) (-1) 1 = true → n ≤ 4 → (n = 0 → m = 0) → (n ≠ 0 → 2 ≤ m ∧ m ≤ 1000000) →
      (c < 48 → (getOut s (c / 6)).enable = true → delayTooLong d (mclkPeriod s (c / 6)) = false) →
      exec (.snsConfigChannel via) s = replied r OK [] (noted (.chan c d foc (u32At p 4) (f32Param (u32At p 8)) n m) (taken s via)))
    ∧ (∀ c n : Nat, Takes 0x0401#16 via s r → p.length = 20 → n8At p 0 = 1 → n8At p 1 = c → n8At p 2 = n → n8At p 3 = 0 → c < 4 → 1 ≤ n → n ≤ 16 → (∀ i < 8, readLive s (48 + 8 * c + i) = false) →
      (∀ i < n, n8At p (4 + i) < 8 ∨ n8At p (4 + i) = 0xFF) → (∀ i < 16, n ≤ i → n8At p (4 + i) = 0xFF) → (getCore s c).phys.isSome = true →
      exec (.snsConfigSequence via) s = replied r OK [] (noted (.seq c ((List.range n).map (fun i => n8At p (4 + i)))) (taken s via)))
    ∧ (∀ i a b mode : Nat, Takes 0x0401#16 via s r → p.length = 8 → n8At p 0 = 2 → n8At p 1 = i → n8At p 2 = a → n8At p 3 = b → n8At p 4 = mode → zeroAt p 5 3 = true → i < 64 → mode < 3 →
      sourceOk s a = true → sourceOk s b = true → sourceLost s a = false → sourceLost s b = false →
      exec (.snsConfigAccumulator via) s = replied r OK [] (noted (.acc i a b mode) (taken s via)))
    ∧ (∀ i a mode : Nat, Takes 0x0401#16 via s r → p.length = 4 → n8At p 0 = 3 → n8At p 1 = i → n8At p 2 = a → n8At p 3 = mode → i < 64 → mode < 3 → sourceOk s a = true → sourceLost s a = false →
      exec (.snsConfigTracker via) s = replied r OK [] (noted (.mmx i a mode) (taken s via)))
    ∧ (∀ c n : Nat, n8At p 0 = c → n16At p 2 = n → c < 80 → 0 < n → n8At p 1 < 2 → (n8At p 1 = 1 → 0 < (getSense s c).slowN) → readLive s c = false → watchedLive s c = false → chanLost s c = false →
      (∀ x ∈ s.sense.cals, x.ch ≠ c) → (48 ≤ c → s.sense.refState = 2) →
      (Takes 0x0402#16 via s r → p.length = 4 → classFull s 0x0402#16 = false → exec (.snsCalZero via) s = accepted r c [] { taken s via with sense := { s.sense with
          cals := s.sense.cals ++ [{ ch := c, span := false, slow := decide (n8At p 1 = 1), n := n, applied := u32At p 4, started := false, left := n, sum := 0, sumSq := 0 }] } })
      ∧ (Takes 0x0403#16 via s r → p.length = 8 → classFull s 0x0403#16 = false → f32Bad (u32At p 4) = false → f32Val (u32At p 4) ≠ 0 →
        exec (.snsCalSpan via) s = accepted r c [] { taken s via with sense := { s.sense with
          cals := s.sense.cals ++ [{ ch := c, span := true, slow := decide (n8At p 1 = 1), n := n, applied := u32At p 4, started := false, left := n, sum := 0, sumSq := 0 }] } }))
    ∧ (Takes 0x0404#16 via s r → p.length = 4 → n8At p 0 < 64 → 1 ≤ n8At p 1 → n8At p 2 ≤ 3 → n8At p 3 = 0 → n8At p 0 + n8At p 1 ≤ 64 → n8At p 1 ≤ (if 2 ≤ n8At p 2 then 15 else 31) →
      exec (.snsAccRead via) s = awaited r { taken s via with sense := { s.sense with accRead := s.sense.accRead ++ [{ req := r, left := 0, conv := 0, drop := 0, at0 := s.time.raw, round := 0 }] } })
    ∧ (Takes 0x0405#16 via s r → p.length = 4 → u32At p 0 ≠ 0 → (∀ i < 32, (u32At p 0).getLsbD i = true → chanLost s (48 + i) = false) → s.sense.refState = 2 →
      ∃ w t, exec (.snsUrgent via) s = awaited r t ∧ t.sense.urgents = s.sense.urgents ++ [w] ∧ w.req = r ∧ w.at0 = s.time.raw ∧ w.conv = 0 ∧ w.left ||| w.drop = u32At p 0 ∧ w.left &&& w.drop = 0
        ∧ t.sense.urgentDropped = s.sense.urgentDropped + BitVec.ofNat 32 ((List.range 32).filter (fun i => w.drop.getLsbD i)).length)
    ∧ (Takes 0x0405#16 via s r → p.length = 4 → u32At p 0 ≠ 0 → (∀ i < 32, (u32At p 0).getLsbD i = true → chanLost s (48 + i) = false) → s.sense.refState ≠ 2 → exec (.snsUrgent via) s = replied r E_NOT_READY [] (dropRequest s via))
    ∧ (∀ i < 32, Takes 0x0405#16 via s r → p = le32 (1#32 <<< i) → chanLost s (48 + i) = false → s.sense.refState = 2 →
      ((getCore s (i / 8)).urgent.contains (i % 8) = true →
        exec (.snsUrgent via) s = awaited r { taken s via with sense := { s.sense with urgents := s.sense.urgents ++ [{ req := r, left := 1#32 <<< i, conv := 0, drop := 0, at0 := s.time.raw, round := 0 }] } })
      ∧ ((getCore s (i / 8)).urgent.contains (i % 8) = false → (getCore s (i / 8)).urgent.length < 4 → ∃ u, u = updCore (i / 8) (fun x => { x with urgent := x.urgent ++ [i % 8] }) (taken s via) ∧
        exec (.snsUrgent via) s = awaited r { u with sense := { u.sense with urgents := u.sense.urgents ++ [{ req := r, left := 1#32 <<< i, conv := 0, drop := 0, at0 := s.time.raw, round := 0 }] } })
      ∧ ((getCore s (i / 8)).urgent.contains (i % 8) = false → 4 ≤ (getCore s (i / 8)).urgent.length → ∃ u, u = dropUrgent i (taken s via) ∧ u.sense.urgentDropped = s.sense.urgentDropped + 1 ∧
        exec (.snsUrgent via) s = awaited r { u with sense := { u.sense with urgents := u.sense.urgents ++ [{ req := r, left := 0, conv := 0, drop := 1#32 <<< i, at0 := s.time.raw, round := 0 }] } }))

/-- A finished zero calibration within 0.1 of the nominal zero sets the zero, one outside leaves it and completes with E_PARAM; a span calibration sets the scale Y / (mean - zero) within its limits. A latched SNS_ACC_READ is answered with boundary time and entries, clearing only FREE sets of its range, only if asked; on fallback the boundary is the first count at or after it. That sets of the two kinds in one reply cover windows that do not close together is the model's choice (log 194). SNS_URGENT is answered when its inputs are served, or 2 us after it with the rest dropped and counted. FLT_LOAD of a valid set of free words that keeps its users within their limits stores it as requested, one without taps deletes a set nothing names, FLT_ASSIGN assigns a channel or releases slots, from the next boundary; FLT_QUERY_DELAY changes nothing but the free-value counter. Where no calibration or request is due, nothing happens (log 4). The model's own choices in it are in log entries 57, 138. -/
def Obligations.CalibrationsLatchesAndFilters : Prop :=
  (∀ (ch : Nat) (k : CalRun) (s : State), Sized s → ch < 80 → s.sense.cals.find? (fun k => decide (k.ch = ch ∧ k.left = 0)) = some k →
      (k.span = false → ratAbs (k.sum / k.n - f32Val (getSense s ch).nomZero) ≤ 1 / 10 → ∃ t, exec (.calDone ch) s =
          .next (endLong 0x0402#16 ch OK (le32 (toF32 (k.sum / k.n)) ++ le32 (getSense s ch).zero ++ le32 (calSigma k)) t)
        ∧ getSense t ch = { getSense s ch with zero := toF32 (k.sum / k.n) } ∧ (∀ c, c ≠ ch → getSense t c = getSense s c) ∧ t.sense.cals = s.sense.cals.erase k ∧ t.flt = s.flt ∧ t.loop = s.loop
        ∧ t.time.raw = max s.time.raw s.sense.nextRound ∧ t.sense.calMarks = ch :: s.sense.calMarks ∧ (48 ≤ ch → (getCmp t (ch - 48)).codes = (getCmp s (ch - 48)).thresh.map (dacCode (getSense t ch))))
      ∧ (k.span = false → 1 / 10 < ratAbs (k.sum / k.n - f32Val (getSense s ch).nomZero) → ∃ t, exec (.calDone ch) s = .next (endLong 0x0402#16 ch E_PARAM [] t)
        ∧ t.sense.chans = s.sense.chans ∧ t.sense.cals = s.sense.cals.erase k ∧ t.pwm = s.pwm)
      ∧ (∀ d sc : Rat, k.span = true → d = k.sum / k.n - f32Val (getSense s ch).zero → sc = f32Val k.applied / d → f32Val (getSense s ch).nomScale ≠ 0 →
        ratAbs d < 2 / 100 ∨ sc / f32Val (getSense s ch).nomScale < 8 / 10 ∨ 12 / 10 < sc / f32Val (getSense s ch).nomScale → ∃ t, exec (.calDone ch) s = .next (endLong 0x0403#16 ch E_PARAM [] t)
        ∧ t.sense.chans = s.sense.chans ∧ t.sense.cals = s.sense.cals.erase k ∧ t.pwm = s.pwm)
      ∧ (∀ d sc : Rat, k.span = true → d = k.sum / k.n - f32Val (getSense s ch).zero → sc = f32Val k.applied / d → 2 / 100 ≤ ratAbs d → f32Val (getSense s ch).nomScale ≠ 0 →
        8 / 10 ≤ sc / f32Val (getSense s ch).nomScale → sc / f32Val (getSense s ch).nomScale ≤ 12 / 10 → ∃ t, exec (.calDone ch) s =
          .next (endLong 0x0403#16 ch OK (le32 (toF32 sc) ++ le32 (getSense s ch).scale ++ le32 (toF32 (k.sum / k.n))) t)
        ∧ getSense t ch = { getSense s ch with scale := toF32 sc } ∧ (∀ c, c ≠ ch → getSense t c = getSense s c) ∧ t.sense.cals = s.sense.cals.erase k))
    ∧ (∀ (ch : Nat) (s : State), s.sense.cals.find? (fun k => decide (k.ch = ch ∧ k.left = 0)) = none → exec (.calDone ch) s = .next s)
    ∧ (∀ s : State, (s.sense.accRead = [] → exec .accLatch s = .next s) ∧ (s.sense.urgents = [] → exec .urgentReply s = .next s))
    ∧ (∀ (s : State) (w : SenseWait) (rest : List SenseWait) (b first n fl : Nat), s.sense.accRead = w :: rest → b = (w.at0 / 1000 + 1) * 1000 →
        n8At (reqParams w.req) 0 = first → n8At (reqParams w.req) 1 = n → n8At (reqParams w.req) 2 = fl →
        ∃ pay t, exec .accLatch s = .next (replyLater w.req OK pay t) ∧ pay.take 8 = le32 (timeAt s (countReached s b)) ++ n8 n ++ zeros 3 ∧ t.time.raw = max s.time.raw (countReached s b) ∧ t.sense.accRead = rest
        ∧ (∀ i, getAcc t i = if fl % 2 = 1 ∧ first ≤ i ∧ i < first + n ∧ (getAcc (foldRound b s) i).mode = 2 then accClear (getAcc (foldRound b s) i) else getAcc (foldRound b s) i)
        ∧ t.flt = s.flt ∧ t.sense.chans = s.sense.chans)
    ∧ (∀ (s : State) (w : SenseWait) (rest : List SenseWait), s.sense.urgents = w :: rest → 
        (w.left = 0 → exec .urgentReply s = .next (replyLater w.req OK (le32 w.conv ++ le32 w.drop ++ le32 w.round) { s with sense := { s.sense with urgents := rest } }))
        ∧ (w.left ≠ 0 → ∃ t, exec .urgentReply s = .next (replyLater w.req OK (le32 w.conv ++ le32 (w.drop ||| w.left) ++ le32 w.round) t) ∧ t.time.raw = max s.time.raw (w.at0 + 2000) ∧ t.sense.urgents = rest
          ∧ t.sense.urgentDropped = s.sense.urgentDropped + BitVec.ofNat 32 ((List.range 32).filter (fun i => w.left.getLsbD i)).length))
    ∧ (∀ (via : Transport) (s : State) (r : Req) (p : Bytes), s.sys.dev ≠ .boot → p = reqParams r →
      (∀ (f : FltSet) (k : Nat), Takes 0x0500#16 via s r → p.length = 12 → n8At p 0 = k → n8At p 1 = f.typ → n16At p 2 = f.taps → n16At p 4 = f.base → zeroAt p 6 2 = true →
        k < 64 → f.typ < 3 → 0 < f.taps → f.taps ≤ 512 → f.base + f.taps ≤ 12288 → (s.flt.setsReq.getD k none).map (·.taps) = some f.taps ∨ (∀ c ∈ setUsers s k, readLive s c = false) →
        (∀ a ∈ s.flt.assignsReq, a.set = some k → withinBudget (lanes s) a f.taps = true) → (s.flt.assignsReq.map (tapsOf (upd s.flt.setsReq k (fun _ => some f)))).sum ≤ 4096 → bytesLost s 33 (4 * f.base) (4 * f.taps) = false →
        (∀ i < f.taps, memRead s.flt.mem (4 * (f.base + i) + 3) = 0) →
        (f.typ = 0 → ∀ i < f.taps, u32At (memReadBytes s.flt.mem (4 * (f.base + i)) 4) 0 = u32At (memReadBytes s.flt.mem (4 * (f.base + (f.taps - 1 - i))) 4) 0) →
        (∀ j < 64, j ≠ k → ∀ g, s.flt.setsReq.getD j none = some g → g.base + g.taps ≤ f.base ∨ f.base + f.taps ≤ g.base) →
        crc32c (memReadBytes s.flt.mem (4 * f.base) (4 * f.taps)) = u32At p 8 →
        ∃ pl, exec (.fltLoad via) s = replied r OK pl { taken s via with flt := { s.flt with setsReq := upd s.flt.setsReq k (fun _ => some f), changed := true } }
          ∧ pl.length = 12 ∧ pl.take 4 = le32 (toF32 (rawOf (coefs s f).sum)))
      ∧ (∀ k : Nat, Takes 0x0500#16 via s r → p.length = 12 → n8At p 0 = k → n8At p 1 < 3 → n16At p 2 = 0 → n16At p 4 ≤ 12287 → zeroAt p 6 2 = true → k < 64 → u32At p 8 = crc32c [] →
        bytesLost s 33 (4 * n16At p 4) 0 = false → setUsers s k = [] → (s.flt.assignsReq.map (tapsOf s.flt.setsReq)).sum ≤ 4096 →
        ∃ pl, exec (.fltLoad via) s = replied r OK pl { taken s via with flt := { s.flt with setsReq := upd s.flt.setsReq k (fun _ => none), changed := true } } ∧ pl.length = 12)
      ∧ (∀ k : Nat, Takes 0x0500#16 via s r → p.length = 12 → n8At p 0 = k → n16At p 2 = 0 → k < 64 → setUsers s k ≠ [] → exec (.fltLoad via) s = replied r E_STATE [] (dropRequest s via))
      ∧ (∀ (a : Assign), Takes 0x0501#16 via s r → p.length = 16 → n8At p 0 = a.first → n8At p 1 = a.gang → n8At p 2 = a.ch → n8At p 4 = a.n → n8At p 5 = 0 → n16At p 6 = a.m → n16At p 8 = a.r →
        zeroAt p 10 6 = true → (∀ x ∈ s.flt.assignsReq, x.ch ≠ a.ch → overlaps a x = true → readLive s x.ch = false) → (a.ch < 80 → readLive s a.ch = false) →
        1 ≤ a.gang → a.gang ≤ 8 → a.first + a.gang ≤ 80 →
        (a.ch = 0xFF → ∃ pl, pl.length = 16 ∧ exec (.fltAssign via) s = replied r OK pl
            { taken s via with flt := { s.flt with assignsReq := s.flt.assignsReq.filter (fun b => decide (b.ch ≠ a.ch) && !(overlaps a b)), changed := true } })
        ∧ (a.ch < 80 → a.set = none → n8At p 3 = 0xFF → a.r = 1 → (a.ch < 48 → 1 ≤ a.n ∧ a.n ≤ 4 ∧ 4 ≤ a.m ∧ a.m ≤ 256) → (48 ≤ a.ch → a.n = 0 ∧ a.m = 0) → chanLost s a.ch = false →
          ((s.flt.assignsReq.filter (fun b => decide (b.ch ≠ a.ch) && !(overlaps a b))).map (tapsOf s.flt.setsReq)).sum ≤ 4096 →
          ∃ pl, pl.length = 16 ∧ exec (.fltAssign via) s = replied r OK pl
            { taken s via with flt := { s.flt with assignsReq := s.flt.assignsReq.filter (fun b => decide (b.ch ≠ a.ch) && !(overlaps a b)) ++ [a], changed := true } })
        ∧ (∀ k f, a.ch < 80 → a.set = some k → n8At p 3 = k → k < 64 → s.flt.setsReq.getD k none = some f → 1 ≤ a.r → a.r ≤ 64 → (a.ch < 48 → 1 ≤ a.n ∧ a.n ≤ 4 ∧ 4 ≤ a.m ∧ a.m ≤ 256) →
          (48 ≤ a.ch → a.n = 0 ∧ a.m = 0) → chanLost s a.ch = false → withinBudget (lanes s) a f.taps = true →
          f.taps + ((s.flt.assignsReq.filter (fun b => decide (b.ch ≠ a.ch) && !(overlaps a b))).map (tapsOf s.flt.setsReq)).sum ≤ 4096 →
          ∃ pl, pl.length = 16 ∧ exec (.fltAssign via) s = replied r OK pl
            { taken s via with flt := { s.flt with assignsReq := s.flt.assignsReq.filter (fun b => decide (b.ch ≠ a.ch) && !(overlaps a b)) ++ [a], changed := true } }))
      ∧ (∀ c : Nat, Takes 0x0502#16 via s r → p.length = 8 → n8At p 0 = c → c < 80 → zeroAt p 1 3 = true → f32In (u32At p 4) 0 500000 = true →
        (assignOf s.flt.assigns c = none → exec (.fltQueryDelay via) s = replied r OK (n8 0xFF ++ zeros 35 ++ le32 (getFch s c).sat) (taken s via))
        ∧ (∀ a, assignOf s.flt.assigns c = some a → ∃ pl k, exec (.fltQueryDelay via) s = replied r OK pl { taken s via with free := s.free + k } ∧ pl.length = 40 ∧ k ≤ 1
          ∧ pl.take 1 = n8 (a.first + a.gang - 1) ∧ pl.drop 36 = le32 (getFch s c).sat)))

/-- GRAPH_LOAD of an OFF stage is accepted; at its end a sound image is loaded on the lowest free engines, an empty one unloads, a wrong check value, an unsound image, lost memory or a stage no longer OFF leaves the graph as it was. GRAPH_START of an OFF stage that meets R135 enters STARTING, waits for a swap in progress, or joins a queue of the start governor with DEFERRED and stays OFF; a stage without graph or not OFF answers E_STATE. MODE_ONLY and GRAPH_WRITE_PARAM on a running stage answer with the first frame they apply to and enter the parameter queue, on an OFF stage words go into the image; a full queue holds the request. GRAPH_STOP shuts a STARTING or ENABLED stage down, frees a locked-out one, and reports one that shuts down. DILL_CONFIG sets the stage's configuration, GRAPH_STATS reads and clears. Where nothing is being loaded, GRAPH_LOAD_DONE changes nothing (log 4). That t_s follows the wake of the last engine is the model's reading (log 147), that a parameter write is taken without a check of state area, N_OUT and COST its choice (log 181), as are its other choices in log entries 70, 72, 73, 158. -/
def Obligations.GraphRequests : Prop :=
  ∀ (via : Transport) (s : State) (r : Req) (p : Bytes) (n : Nat), s.sys.dev ≠ .boot → p = reqParams r → n8At p 0 = n → n < 8 → Sized s →
    (Takes 0x0600#16 via s r → p.length = 16 → zeroAt p 1 3 = true → stageOff s n = true → n32At p 4 % 32 = 0 → n32At p 4 ≤ 983008 →
      (n32At p 8 = 0 ∨ 64 ≤ n32At p 8 ∧ n32At p 4 + n32At p 8 ≤ 983040) → classFull s 0x0600#16 = false →
      exec (.graphLoad via) s = accepted r 0 [] { taken s via with loop := { s.loop with loads := s.loop.loads ++ [{ stage := n, offset := n32At p 4, length := n32At p 8, crc := u32At p 12 }] } })
    ∧ (∀ (l : GraphLoad) (t : List GraphLoad), s.loop.loads = l :: t → l.stage = n →
      (crc32c (memReadBytes s.loop.mem l.offset l.length) ≠ l.crc → exec .graphLoadDone s = .next (endLong 0x0600#16 0 E_VERIFY [] { s with loop := { s.loop with loads := t } }))
      ∧ (crc32c (memReadBytes s.loop.mem l.offset l.length) = l.crc → stageOff s n = false → exec .graphLoadDone s = .next (endLong 0x0600#16 0 E_STATE [] { s with loop := { s.loop with loads := t } }))
      ∧ (crc32c (memReadBytes s.loop.mem l.offset l.length) = l.crc → stageOff s n = true → l.length ≠ 0 → imageOk s n (readHeader s.loop.mem l.offset l.length) = false →
          exec .graphLoadDone s = .next (endLong 0x0600#16 0 E_PARAM [] { s with loop := { s.loop with loads := t } }))
      ∧ (crc32c (memReadBytes s.loop.mem l.offset l.length) = l.crc → stageOff s n = true → l.length ≠ 0 → imageOk s n (readHeader s.loop.mem l.offset l.length) = true → bytesLost s 18 l.offset l.length = true →
          exec .graphLoadDone s = .next (endLong 0x0600#16 0 E_RESOURCE [] { s with loop := { s.loop with loads := t } }))
      ∧ (crc32c (memReadBytes s.loop.mem l.offset l.length) = l.crc → stageOff s n = true → l.length = 0 → ∃ pl u, exec .graphLoadDone s = .next (endLong 0x0600#16 0 OK pl u)
          ∧ pl.take 2 = n8 n ++ [0] ∧ (getStage u n).graph = none ∧ (∀ e < 18, (getEngine u e).stage ≠ some n) ∧ u.loop.mem = s.loop.mem ∧ u.loop.loads = t ∧ u.pwm = s.pwm)
      ∧ (∀ g, crc32c (memReadBytes s.loop.mem l.offset l.length) = l.crc → stageOff s n = true → l.length ≠ 0 → g = readHeader s.loop.mem l.offset l.length → imageOk s n g = true →
          bytesLost s 18 l.offset l.length = false → g.engines ≤ (enginesFree s n).length → ∃ pl u, exec .graphLoadDone s = .next (endLong 0x0600#16 0 OK pl u)
          ∧ (getStage u n).graph = some { g with phys := (enginesFree s n).take g.engines } ∧ (getStage u n).dill = dillConf0 ∧ (getStage u n).st = .off ∧ u.loop.mem = s.loop.mem ∧ u.loop.loads = t ∧ u.pwm = s.pwm))
    ∧ (s.loop.loads = [] → exec .graphLoadDone s = .next s)
    ∧ (∀ m : Byte, Takes 0x0601#16 via s r → s.sys.dev = .run → p = [BitVec.ofNat 8 n, m, 0, 0] → (getStage s n).st ≠ .shuttingDown → (getStage s n).graph = none ∨ (getStage s n).st ≠ .off →
      exec (.graphStart via) s = replied r E_STATE [] (dropRequest s via))
    ∧ (∀ (g : Graph) (m : Byte), Takes 0x0601#16 via s r → s.sys.dev = .run → p = [BitVec.ofNat 8 n, m, 0, 0] → m.toNat ≤ 3 → (getStage s n).st = .off → (getStage s n).graph = some g →
      (getStage s n).waitStart = false → (∀ e ∈ s.gov.release, e.unit ≠ n) → (∀ e ∈ s.gov.precharge, (stageHbs s n).contains e.unit = false) → startReady s n g = true → (if g.divider ≠ 0 then 16000 ≤ g.divider * frameShortest s g else 1000 ≤ g.minPeriod) →
      startLost s n g = false → s.gov.release.length < 8 → s.gov.precharge.length + (prechargeHbs s n).length ≤ 8 → startUnready s n = false →
      ((needsRelease s n = true ∧ (s.gov.release ≠ [] ∨ releaseFree s = false)) → ∃ u, u = updStage n (fun y => { y with mode := m.toNat, modes := [], startTag := reqTag r }) (taken s via) ∧
        exec (.graphStart via) s = replied r DEFERRED (n16 (s.gov.release.length + 1)) { u with gov := { u.gov with release := u.gov.release ++ [{ unit := n, opcode := 0x0601, tag := reqTag r, owed := some (owedOf r) }] } })
      ∧ (¬ (needsRelease s n = true ∧ (s.gov.release ≠ [] ∨ releaseFree s = false)) → prechargeHbs s n = [] ∨ prechargeFree s = true → swapPending s n = true →
        ∃ t, exec (.graphStart via) s = replied r OK (zeros 8) t ∧ (getStage t n).st = .off ∧ (getStage t n).waitStart = true ∧ (getStage t n).mode = m.toNat ∧ t.time = s.time ∧ t.pwm = s.pwm)
      ∧ (¬ (needsRelease s n = true ∧ (s.gov.release ≠ [] ∨ releaseFree s = false)) → prechargeHbs s n ≠ [] → prechargeFree s = false →
        ∃ t, exec (.graphStart via) s = replied r DEFERRED (n16 (s.gov.precharge.length + 1)) t ∧ (getStage t n).st = .off ∧ (getStage t n).startReq = some (owedOf r) ∧ (getStage t n).mode = m.toNat
          ∧ ((∀ h ∈ prechargeHbs s n, (getHb s h).preDue = false) → t.gov.precharge = s.gov.precharge ++ (prechargeHbs s n).map (fun h => { unit := h, opcode := 0x0601, tag := reqTag r, owed := none })) ∧ t.time = s.time)
      ∧ (¬ (needsRelease s n = true ∧ (s.gov.release ≠ [] ∨ releaseFree s = false)) → swapPending s n = false → prechargeHbs s n = [] ∨ prechargeFree s = true → quiet s →
        ∃ t, exec (.graphStart via) s = replied r OK (n8 1 ++ zeros 7) t ∧ (getStage t n).st = .starting ∧ (getStage t n).mode = m.toNat ∧ (getStage t n).frameIndex = 0
          ∧ (getStage t n).ts = some (startInstant (getTimer s g.frameTimer).align (max s.time.raw ((wakeEngines s.time.raw g.engines s.gov.wakes).headD 0))) ∧ (getStage t n).gateOpen = false ∧ t.time = s.time
          ∧ (needsRelease s n = true → t.gov.lastRelease = some s.time.raw ∧ t.sys.released = true ∧ t.sys.safeOffA = gatesPass s ∧ t.sys.safeOffB = gatesPass s)))
    ∧ (∀ (m : Byte), Takes 0x0601#16 via s r → s.sys.dev = .run → p = [BitVec.ofNat 8 n, m, 1, 0] → m.toNat ≤ 3 → (getStage s n).st = .enabled → (getStage s n).graph ≠ none → paramFull s = false →
      exec (.graphStartModeOnly via) s = replied r OK (n8 2 ++ zeros 3 ++ le32 ((getStage s n).newest + 1))
        (enqueueParam n 0 (updStage n (fun y => { y with modes := y.modes ++ [((getStage s n).newest + 1, m.toNat)] }) (taken s via))))
    ∧ (paramFull s = true → (Takes 0x0601#16 via s r → modeOnly r = true → exec (.graphStartModeOnly via) s = .next { s with cmd := { s.cmd with held := some via } })
      ∧ (Takes 0x0605#16 via s r → exec (.graphWriteParam via) s = .next { s with cmd := { s.cmd with held := some via } }))
    ∧ (Takes 0x0602#16 via s r → p.length = 4 → zeroAt p 1 3 = true →
      ((getStage s n).st = .shuttingDown → ∃ t pl, exec (.graphStop via) s = replied r OK pl t ∧ (getStage t n).st = .shuttingDown ∧ (getStage t n).tStop = (getStage s n).tStop ∧ pl.take 1 = n8 3 ∧ t.pwm.channels = s.pwm.channels)
      ∧ ((getStage s n).st = .enabled ∨ (getStage s n).st = .starting → ∃ t pl, exec (.graphStop via) s = replied r OK pl t ∧ (getStage t n).st = .shuttingDown ∧ (getStage t n).tStop = some s.time.raw ∧ (getStage t n).frames = []
          ∧ pl.take 1 = n8 3 ∧ t.sys.dev = s.sys.dev ∧ t.safe = s.safe)
      ∧ ((getStage s n).st = .lockedOut → s.rel.waiting = [] → ∃ t, exec (.graphStop via) s = replied r OK (zeros 8) t ∧ (getStage t n).st = .off ∧ (getStage t n).frames = [])
      ∧ ((getStage s n).st = .off → ∃ t, exec (.graphStop via) s = replied r OK (zeros 8) t ∧ (getStage t n).st = .off ∧ (∀ e ∈ t.gov.release, e.unit ≠ n) ∧ t.pwm.channels = s.pwm.channels))
    ∧ (∀ (g : Graph) (c first : Nat) (view : Nat → F32), Takes 0x0605#16 via s r → paramFull s = false → byteAt p 1 = 0 → n16At p 2 = c → n16At p 4 = first → zeroAt p 6 2 = true → 1 ≤ c → c ≤ 254 → p.length = 8 + 4 * c →
      (getStage s n).graph = some g → first + c ≤ g.nParams → (∀ i < c, f32Bad (u32At p (8 + 4 * i)) = false) → (graphNodes s g).all (blockOk g view) = true → viewApart s n g view = true →
      ((getStage s n).st ≠ .off → (getStage s n).st ≠ .shuttingDown →
        (∀ k, view k = if first ≤ k ∧ k < first + c then f32Param (u32At p (8 + 4 * (k - first))) else paramFor s n ((getStage s n).newest + 1) k) →
        exec (.graphWriteParam via) s = replied r OK (le32 ((getStage s n).newest + 1)) (enqueueParam n c
          (updStage n (fun y => { y with writes := y.writes ++ [{ apply := (getStage s n).newest + 1, first := first, vals := (List.range c).map (fun i => u32At p (8 + 4 * i)) }] }) (taken s via))))
      ∧ ((getStage s n).st = .off → (getStage s n).writes = [] → (∀ k, view k = if first ≤ k ∧ k < first + c then f32Param (u32At p (8 + 4 * (k - first))) else graphParam s g k) →
        ∃ t, exec (.graphWriteParam via) s = replied r OK (le32 0xFFFFFFFF#32) t
          ∧ t.loop.mem = memWriteBytes s.loop.mem (g.offset + g.paramOff + 4 * first) ((List.range c).flatMap (fun i => le32 (u32At p (8 + 4 * i))))
          ∧ t.loop.pqueue = s.loop.pqueue ++ [{ stage := n, words := c }] ∧ t.pwm = s.pwm ∧ t.flt = s.flt))
    ∧ exec .paramQueueTake s = .next { s with loop := { s.loop with pqueue := s.loop.pqueue.drop 1 } }
    ∧ (∀ (g : Graph) (ni nt lim : Nat), Takes 0x0603#16 via s r → n8At p 2 = ni → n8At p 3 = nt → n8At p 6 = lim → p.length = 12 + 16 * ni + 8 * nt → (getStage s n).graph = some g → 1 ≤ lim → n8At p 7 ≤ 1 → zeroAt p 10 2 = true →
      ((getStage s n).st = .off → n8At p 1 ≤ 2 → ni ≤ 16 → nt ≤ 16 → (n8At p 1 ≠ 0 → ni ≠ 0) → (∀ i < ni, dillInputOk s n g p (12 + 16 * i) = true) → ((dillOf p).inputs.map (·.channel)).Nodup →
        (∀ i < nt, dillTargetOk s g p (12 + 16 * ni + 8 * i) = true) → (nt * ni ≠ 0 → n16At p 8 + nt * ni ≤ (if n8At p 7 = 1 then g.nParams else 1024 * g.engines)) →
        (n8At p 1 ≠ 0 → (n8At p 1 + 1) * loadMax s g ≤ frameMin s g) →
        exec (.dillConfig via) s = replied r OK (n8 (n8At p 1) ++ zeros 3 ++ n32 (loadMax s g) ++ n32 (frameMin s g)) (updStage n (fun y => { y with dill := dillOf p }) (taken s via)))
      ∧ ((getStage s n).st ≠ .off → (getStage s n).st ≠ .shuttingDown → n8At p 1 = 0 → ni = 0 → nt = 0 →
        exec (.dillConfig via) s = replied r OK (zeros 4 ++ n32 (loadMax s g) ++ n32 (frameMin s g)) (updStage n (fun y => { y with dill := { y.dill with depth := 0, limit := lim } }) (taken s via))))
    ∧ (Takes 0x0604#16 via s r → p.length = 4 → zeroAt p 2 2 = true →
      (n8At p 1 = 0 → exec (.graphStats via) s = replied r OK (stageRange s n) (taken s via))
      ∧ (n8At p 1 = 1 → exec (.graphStats via) s = replied r OK (stageRange s n) (clearHolds n (updStage n clearStats (taken s via)))))

/-- A released start that waits for no swap enters STARTING with frame index 0 and its t_s, from the wake of its last engine. At t_s the stage's free-running timers start, each reloading after its period, an owned one clamped to its bounds and the clamp counted. Each reload of a running timer counts, happens at its due instant and, ending a frame of a stage whose timers run, raises the frame index by one. A reload makes active the pending set of each group of its timer whose move lies before it and, of a graph's set, whose frame has ended, and leaves every other group as it is but for that move; channel enables requested before it take effect, but for a disable that MINPW holds; and the reload that ends a frame and takes a graph's set while every precharge has ended makes a STARTING stage ENABLED and opens its gate. The 32nd counted period of a high side is refreshed and counted, the first posting event 0x0901. A start not ENABLED after 100 ms posts event 0x0807 and shuts down. A shutdown ends OFF with no frame open, 10 us after its last channel turned off and once the effects have ended. Where nothing of it is due, nothing happens (log 4). That an owner's set from before OFF gives the period of the start is the model's reading (log 148); its other choices are in log entries 61, 145, 146, 147. -/
def Obligations.StagesStartReloadAndStop : Prop :=
  ∀ (s : State) (n : Nat), Sized s → n < 8 →
    (∀ g, (getStage s n).st = .off → (getStage s n).waitStart = true → (getStage s n).graph = some g → swapPending s n = false → quiet s → ∃ t, exec (.stageStartBegin n) s = .next t ∧ (getStage t n).st = .starting
        ∧ (getStage t n).waitStart = false ∧ (getStage t n).frameIndex = 0 ∧ (getStage t n).startedAt = s.time.raw ∧ (getStage t n).ts = some (startInstant (getTimer s g.frameTimer).align (max s.time.raw ((wakeEngines s.time.raw g.engines s.gov.wakes).headD 0)))
        ∧ (∀ m, m ≠ n → getStage t m = getStage s m) ∧ t.time = s.time)
    ∧ ((getStage s n).st ≠ .off ∨ (getStage s n).waitStart = false ∨ (getStage s n).graph = none ∨ swapPending s n = true → exec (.stageStartBegin n) s = .next s)
    ∧ ((getStage s n).st ≠ .starting ∨ (getStage s n).ts = none → exec (.timersStart n) s = .next s)
    ∧ (∀ k, (getTimer s k).stage = none ∨ (getTimer s k).running = false → exec (.timerReload k) s = .next s)
    ∧ (∀ i, (getStage s n).st = .starting → (getStage s n).ts = some i → ∃ t, exec (.timersStart n) s = .next t ∧ t.time.raw = max s.time.raw i ∧ (getStage t n).ts = none
        ∧ (∀ k < 24, (getTimer s k).stage = some n → (getTimer t k).running = true ∧ (getTimer t k).reloads = 0 ∧ (getTimer t k).lastReload = t.time.raw
            ∧ ((getTimer s k).slave = false → (getTimer t k).nextReload = t.time.raw + ceilDiv (startPeriod s k) 16)
            ∧ (∀ p, ownedPeriod s k = some p → startPeriod s k = max (getTimer s k).pmin (min p (getTimer s k).pmax)
                ∧ (getTimer t k).clamps = (getTimer s k).clamps + (if p < (getTimer s k).pmin ∨ (getTimer s k).pmax < p then 1 else 0)))
        ∧ (∀ k, (getTimer s k).stage ≠ some n → getTimer t k = getTimer s k))
    ∧ (∀ k < 24, (getTimer s k).stage = some n → (getTimer s k).running = true → ∃ t, exec (.timerReload k) s = .next t ∧ t.time.raw = max s.time.raw (getTimer s k).nextReload
        ∧ (getTimer t k).reloads = (getTimer s k).reloads + 1 ∧ (getTimer t k).lastReload = t.time.raw ∧ (getTimer t k).running = true ∧ (getTimer t k).nextReload = t.time.raw + (getTimer t k).pEff
        ∧ (s.rel.waiting = [] → (getStage s n).st = .enabled ∨ (getStage s n).st = .starting ∨ (getStage s n).st = .shuttingDown → frameTimer s n = some k → (getStage s n).divLeft ≤ 1 → (getStage t n).frameIndex = (getStage s n).frameIndex + 1 ∧ (getStage t n).frameStart = t.time.raw)
        ∧ (s.rel.waiting = [] → frameTimer s n ≠ some k → (getStage t n).frameIndex = (getStage s n).frameIndex)
        ∧ (∀ g < 32, s.rel.waiting = [] →
            ((getGroup s g).timer ≠ some k → getGroup t g = getGroup s g)
            ∧ (∀ x, (getGroup s g).timer = some k → x = moveStaged t.time.raw (getGroup s g) →
              (∀ c, x.pend = some c → ripe s n k t.time.raw c → getGroup t g = { x with pend := none, active := some c }
                ∧ (c.frame.isSome = true → (getStage s n).st = .starting → frameTimer s n = some k → (getStage s n).divLeft ≤ 1 →
                    (∀ h ∈ stageHbs s n, (getHb s h).preEnd = none ∧ (getHb s h).preDue = false) → (getStage t n).st = .enabled ∧ (getStage t n).gateOpen = true))
              ∧ ((∀ c, x.pend = some c → ¬ ripe s n k t.time.raw c) → getGroup t g = x)))
        ∧ (∀ c on, s.rel.waiting = [] → c < 96 → chanTimer s c = some k → (getChan s c).pendEn = some on → (getStage s n).st = .starting ∨ (getStage s n).st = .enabled →
            on = true ∨ (getChan s c).cmd = false ∨ (getChan s c).onSince + chanMinpw s c ≤ t.time.raw → (getChan t c).enabled = on ∧ (getChan t c).pendEn = none)
        ∧ (s.rel.waiting = [] → (∀ g < 32, (getGroup s g).timer = some k → ∀ c, (moveStaged t.time.raw (getGroup s g)).pend = some c → c.frame = none) → (getStage s n).st = .starting → (getStage t n).st = .starting ∧ (getStage t n).gateOpen = (getStage s n).gateOpen))
    ∧ (∀ h < 8, (getChan s (80 + 2 * h)).refresh < 32 → exec (.refreshPeriod h) s = .next s)
    ∧ (∀ h < 8, ∀ q, 32 ≤ (getChan s (80 + 2 * h)).refresh → (getChan s (80 + 2 * h)).pulses.getLast? = some q → ∃ u, exec (.refreshPeriod h) s = .next (if (getChan s (80 + 2 * h)).refreshed then u else post 0x0901#16 h [] u)
        ∧ (getChan u (80 + 2 * h)).refresh = 0 ∧ (getChan u (80 + 2 * h)).refreshed = true ∧ (getHb u h).refreshes = (getHb s h).refreshes + 1 ∧ (∀ c, c ≠ 80 + 2 * h → getChan u c = getChan s c)
        ∧ u = { s with pwm := { s.pwm with channels := u.pwm.channels, hbs := u.pwm.hbs } })
    ∧ (∀ h < 8, 32 ≤ (getChan s (80 + 2 * h)).refresh → (getChan s (80 + 2 * h)).pulses = [] → exec (.refreshPeriod h) s = .next (updChan (80 + 2 * h) (fun y => { y with refresh := 0 }) s))
    ∧ ((getStage s n).st ≠ .starting → exec (.startTimeout n) s = .next s)
    ∧ ((getStage s n).st ≠ .shuttingDown ∨ effectsDone s n = false ∨ (∃ c ∈ stageChans s n, (getChan s c).stopped = false ∨ (getChan s c).offHeld = true) → exec (.stageShutdownEnd n) s = .next s)
    ∧ ((getStage s n).st = .starting → ∃ t, exec (.startTimeout n) s = .next t ∧ (getStage t n).st = .shuttingDown ∧ t.time.raw = max s.time.raw ((getStage s n).startedAt + 100000000)
        ∧ (getStage t n).tStop = some t.time.raw ∧ (getStage t n).frames = [] ∧ t.sys.dev = s.sys.dev
        ∧ t = normalShutdown n 3 (post 0x0807#16 n (le32 (getStage s n).startCommits) (advanceTo ((getStage s n).startedAt + 100000000) s)))
    ∧ ((getStage s n).st = .shuttingDown → effectsDone s n = true → (∀ c ∈ stageChans s n, (getChan s c).stopped = true ∧ (getChan s c).offHeld = false) → s.rel.waiting = [] → s.sys.stateChange = false →
        ∃ t, exec (.stageShutdownEnd n) s = .next t ∧ (getStage t n).st = .off ∧ (getStage t n).frames = [] ∧ (getStage t n).gateOpen = false ∧ t.time.raw = max s.time.raw ((getStage s n).lastOff + 10000)
          ∧ (∀ m, m ≠ n → (getStage t m).st = (getStage s m).st) ∧ t.sys.dev = s.sys.dev)

/-- A reload notice opens its frame with the notice's length, or fixes the length of a frame that is open; where the length predicted for a speculative one was wrong that is a period miss, and a frame that has committed is not opened again. A free engine with a ready instance chooses one that was ready by then and that no such instance outranks, and it starts 6 cycles later. When it ends the engine is free, its results are in its frame. A waiting completion enters a queue of fewer than 8. Each entry of the decrement port takes a cycle, plus two to another engine, and lowers the counter of its node; at 0 an instance for which a slot is free becomes ready. 800 cycles of held dispatch post event 0x0604 once. Where nothing of it is due, nothing happens (log 4). The model's own choices in it are in log entries 66, 67, 155. -/
def Obligations.EnginesChooseAndPostInOrder : Prop :=
  ∀ (s : State) (e n : Nat), Sized s → n < 8 → e < 18 →
    (∀ idx reload len t, (getStage s n).notices = (idx, reload, len) :: t → (getStage s n).handover = none →
      (stageLive s n = false → exec (.reloadNotice n) s = .next (updStage n (fun y => { y with notices := t }) s))
      ∧ (stageLive s n = true → getFrame s n idx = none → frameAfter idx (getStage s n).cFrame = false → exec (.reloadNotice n) s = .next (followHolds n (updStage n (fun y => { y with notices := t }) s)))
      ∧ (∀ f, stageLive s n = true → getFrame s n idx = some f → f.spec = false ∨ f.length = len → ∃ u g, exec (.reloadNotice n) s = .next u ∧ getFrame u n idx = some g ∧ g.fixed = true ∧ g.reload = reload
          ∧ g.length = len ∧ g.samples = f.samples ∧ g.sig = f.sig ∧ (getStage u n).notices = t ∧ (getStage u n).periodMisses = (getStage s n).periodMisses ∧ u.time = s.time)
      ∧ (∀ f, stageLive s n = true → getFrame s n idx = some f → f.spec = true → f.length ≠ len → ∃ u g, exec (.reloadNotice n) s = .next u ∧ getFrame u n idx = some g ∧ g.spec = false ∧ g.fixed = true ∧ g.reload = reload
          ∧ g.length = len ∧ g.round = f.round ∧ (getStage u n).periodMisses = (getStage s n).periodMisses + 1 ∧ (getStage u n).notices = t ∧ u.time = s.time)
      ∧ (stageLive s n = true → getFrame s n idx = none → frameAfter idx (getStage s n).cFrame = true → ∃ u f, exec (.reloadNotice n) s = .next u ∧ getFrame u n idx = some f ∧ f.fixed = true ∧ f.length = len ∧ f.reload = reload ∧ f.spec = false
          ∧ (getStage u n).notices = t ∧ u.time = s.time ∧ u.pwm = s.pwm))
    ∧ ((getStage s n).notices = [] ∨ (getStage s n).handover.isSome = true → exec (.reloadNotice n) s = .next s)
    ∧ ((getEngine s e).stage = none ∨ ((getEngine s e).stage = some n ∧ (readyOn s n (getEngine s e).logical = [] ∨ (runningOn s n (getEngine s e).logical).isSome = true ∨ 8 ≤ (getEngine s e).queue.length)) →
      exec (.instanceDispatch e) s = .next s)
    ∧ ((getEngine s e).stage = none ∨ ((getEngine s e).stage = some n ∧ runningOn s n (getEngine s e).logical = none) → exec (.instanceEnd e) s = .next s)
    ∧ ((getEngine s e).waitPost = [] → exec (.completionPost e) s = .next s) ∧ ((getEngine s e).queue = [] → exec (.successorDecrement e) s = .next s)
    ∧ ((getEngine s e).stallAt = none ∨ (getEngine s e).stalled = true ∨ holdsDispatch s e = false → exec (.schedStall e) s = .next s)
    ∧ (∀ y l, (getEngine s e).stage = some n → readyOn s n (getEngine s e).logical = y :: l → runningOn s n (getEngine s e).logical = none → (getEngine s e).queue.length < 8 →
      ∃ z u, z ∈ y :: l ∧ z.2.2.1 ≤ choiceAt s e n y ∧ exec (.instanceDispatch e) s = .next u
        ∧ nodeInst u z.1 = some { z.2.1 with st := .chosen (choiceAt s e n y + 6 * loopCyc s) z.2.2.2 }
        ∧ (∀ w ∈ y :: l, w.2.2.1 ≤ choiceAt s e n y → keyLt (rankKey s w.2.1 w.2.2.1) (rankKey s z.2.1 z.2.2.1) = false)
        ∧ (∀ k, k ≠ z.1 → nodeInst u k = nodeInst s k) ∧ u.time.raw = max s.time.raw (ceilDiv (choiceAt s e n y) 4))
    ∧ (∀ k i start due q, (getEngine s e).stage = some n → runningOn s n (getEngine s e).logical = some (k, i) → i.st = .chosen start due → q = start + i.cost * loopCyc s →
      (i.dead = true → exec (.instanceEnd e) s = .next (followHolds n (dropInst k (updEngine e (fun y => { y with freeAt := q }) (advanceQ q s)))))
      ∧ (∀ f, i.dead = false → i.effect = false → getFrame s n i.frame = some f → ∃ u, exec (.instanceEnd e) s = .next u ∧ (getEngine u e).freeAt = q ∧ u.time.raw = max s.time.raw (ceilDiv q 4)
          ∧ getFrame u n i.frame = some (computeNode (updEngine e (fun y => { y with freeAt := q }) (advanceQ q s)) n f i.node))
      ∧ (i.dead = false → i.effect = true → ∃ u, exec (.instanceEnd e) s = .next u ∧ (getEngine u e).freeAt = q ∧ u.time.raw = max s.time.raw (ceilDiv q 4))
      ∧ (i.dead = false → i.effect = true → i.acts = [] → ∃ u, exec (.instanceEnd e) s = .next u ∧ (getEngine u e).freeAt = q ∧ u.time.raw = max s.time.raw (ceilDiv q 4) ∧ u.pwm = s.pwm ∧ u.field = s.field ∧ u.can = s.can))
    ∧ (∀ c t, (getEngine s e).waitPost = c :: t → c.len ≠ 0 →
      (8 ≤ (getEngine s e).queue.length → exec (.completionPost e) s = .next s)
      ∧ ((getEngine s e).queue.length < 8 → ∃ u, exec (.completionPost e) s = .next u ∧ (getEngine u e).waitPost = t
          ∧ (getEngine u e).queue = (getEngine s e).queue ++ [{ c with at_ := max c.at_ (getEngine s e).roomAt }] ∧ u.pwm = s.pwm))
    ∧ (∀ c t, (getEngine s e).waitPost = c :: t → c.len = 0 → (getEngine s e).queue.length < 8 → ∃ u, exec (.completionPost e) s = .next u ∧ (getEngine u e).waitPost = t ∧ (getEngine u e).queue = (getEngine s e).queue ∧ u.pwm = s.pwm)
    ∧ (∀ c t target k i due, (getEngine s e).queue = c :: t → target = graphSucc s (stageGraph s c.stage) ((graphNode s (stageGraph s c.stage) c.node).succ + c.pos) →
      instAt s c.stage c.frame target = some k → nodeInst s k = some i → i.st = .noSlot due (some (getEngine s e).logical) → exec (.successorDecrement e) s = .next s)
    ∧ (∀ c t target k i p due, (getEngine s e).queue = c :: t → target = graphSucc s (stageGraph s c.stage) ((graphNode s (stageGraph s c.stage) c.node).succ + c.pos) →
      instAt s c.stage c.frame target = some k → nodeInst s k = some i → i.st = .waiting → p = max (getEngine s e).portAt c.at_ + loopCyc s →
      due = (if (graphNode s (stageGraph s c.stage) target).home = (getEngine s e).logical then p else p + 2 * loopCyc s) →
      (1 < i.counter → ∃ u, exec (.successorDecrement e) s = .next u ∧ nodeInst u k = some { i with counter := i.counter - 1 } ∧ (getEngine u e).portAt = p
          ∧ (getEngine u e).queue = (if c.len ≤ c.pos + 1 then t else { c with pos := c.pos + 1 } :: t))
      ∧ (i.counter = 1 → i.runs = true → i.effect = false → canTake s i = true → ∃ u, exec (.successorDecrement e) s = .next u ∧ nodeInst u k = some { i with counter := 0, st := .ready due due } ∧ (getEngine u e).portAt = p))
    ∧ (∀ t c q, (getEngine s e).stallAt = some t → (getEngine s e).stage = some n → (getEngine s e).queue = c :: q → (getEngine s e).stalled = false → holdsDispatch s e = true →
      exec (.schedStall e) s = .next (postMerge 0x0604#16 n (n8 e ++ zeros 3 ++ le32 c.frame) (updEngine e (fun y => { y with stalled := true }) (advanceQ (t + 800 * loopCyc s) s))))

/-- The oldest speculative frame whose predictions all passed is corrected once it is reported complete; a target it did not write stays unwritten, which is the model's choice (log 71), and its own values stand beside the corrected ones. A head frame that meets R275 by the time it is reported complete commits: it is the newest committed frame, is counted and the consecutive count is 0; each of its compare sets is in its group's staging copy, to become pending once it has crossed to the PWM island, and no other group changes; one that does not stays. At its deadline an uncommitted head frame is an overrun: counted, speculation suspended for 16 frames; at the stage's limit Sorrel acts. A suspension ends once its last frame committed. A hand-over ends with the spare serving and counted. A spare dwells for 1 ms; a replay that agrees is counted and its values go into the spare's copy, unless the spare copied the engine anew since the frame; one that does not agree also counts a mismatch, and the other spare, or the same where it is the last, gets the frame for the second replay; when that ends the verdict of R280 is given, where the last spare finds no agreement event 0x0608 names no spare. Where nothing of it is due, nothing happens (log 4). The model's own choices in it are in log entries 69, 75, 151, 152. -/
def Obligations.DillCommitsMissesAndChecks : Prop :=
  ∀ (s : State) (n : Nat), Sized s → n < 8 →
    (∀ f, (getStage s n).frames.find? (fun f => f.spec && f.complete && allPassed f && !f.corrected) = some f → ∃ u g, exec (.correctionDone n) s = .next u ∧ getFrame u n f.index = some g ∧ g.corrected = true
        ∧ (∀ k, (∀ v, (k, v) ∉ f.sig) → ∀ v, (k, v) ∉ g.sig) ∧ g.samples = f.samples ∧ g.ran = f.ran ∧ g.rawSig = f.sig ∧ g.rawWords = f.words ∧ u.time.raw = max s.time.raw (ceilDiv f.completeAt 4)
        ∧ u = { s with time := u.time, loop := { s.loop with stages := u.loop.stages } } ∧ (∀ m, m ≠ n → getStage u m = getStage s m))
    ∧ ((getStage s n).frames.find? (fun f => f.spec && f.complete && allPassed f && !f.corrected) = none → exec (.correctionDone n) s = .next s)
    ∧ (headFrame s n = none → exec (.commit n) s = .next s)
    ∧ (∀ f z, headFrame s n = some f → z = (if f.complete then advanceQ f.completeAt s else s) → (commitReady z n f = false → exec (.commit n) s = .next s)
        ∧ (commitReady z n f = true → ∃ u, exec (.commit n) s = .next u ∧ (getStage u n).cFrame = f.index ∧ (getStage u n).cPeriod = f.length ∧ (getStage u n).cReload = f.reload
            ∧ (getStage u n).committed = (getStage s n).committed + 1 ∧ (getStage u n).consecutive = 0 ∧ (getStage u n).mode = f.mode ∧ u.time = z.time ∧ u.sys.dev = s.sys.dev
            ∧ ∀ g, ((∀ q ∈ f.sets, q.1 ≠ g) → getGroup u g = getGroup s g)
              ∧ ∀ vs per d, g < 32 → (g, vs, per) ∈ f.sets → (f.sets.map (fun q => q.1)).Nodup → d = ceilDiv (qNow z + crossPwm z) 4 →
                getGroup u g = { moveStaged (d + 1) (getGroup s g) with staging := some { vals := vs, period := per, frame := some f.index, done := d } }))
    ∧ (stageLive s n = false ∨ deadlineFrame s n = none → exec (.commitDeadline n) s = .next s)
    ∧ (∀ idx t, stageLive s n = true → deadlineFrame s n = some (idx, t) → ∃ u, exec (.commitDeadline n) s = .next u ∧ u.time.raw = max s.time.raw (t - 20)
        ∧ (getStage u n).overruns = (getStage s n).overruns + 1 ∧ (getStage u n).suspend = some (idx + 16) ∧ (getStage u n).committed = (getStage s n).committed
        ∧ ((getStage s n).sorrelCount + 1 < (getStage s n).dill.limit → u.sys.dev = s.sys.dev ∧ u.safe = s.safe)
        ∧ ((getStage s n).dill.limit ≤ (getStage s n).sorrelCount + 1 → s.sys.dev = .run → s.safe.causes = 0 → u.sys.dev = .safe ∧ u.safe.causes = 2 ∧ u.safe.firstReason = 2))
    ∧ ((getStage s n).suspend = none → exec (.suspensionEnd n) s = .next s)
    ∧ (∀ e, (getStage s n).suspend = some e → (frameAfter e (getStage s n).cFrame = true → exec (.suspensionEnd n) s = .next s)
        ∧ (frameAfter e (getStage s n).cFrame = false → ∃ u, exec (.suspensionEnd n) s = .next u ∧ (getStage u n).suspend = none ∧ u.time = s.time))
    ∧ ((getStage s n).handover = none ∨ nextRetire s 4 = none → exec (.handoverDone n) s = .next s)
    ∧ (∀ e p r, (getStage s n).handover = some (e, p) → s.rel.waiting = [r] → r.cls = 4 → e < 18 → p < 18 → e ≠ p → ∃ u, exec (.handoverDone n) s = .next u ∧ (getStage u n).handover = none
        ∧ (getStage u n).handovers = (getStage s n).handovers + 1 ∧ (getEngine u e).service = .retired ∧ (getEngine u p).service = .inService ∧ (getEngine u p).stage = (getEngine s e).stage ∧ u.rel.waiting = [])
    ∧ (∀ e c, e < 18 → c = s.loop.checkers.getD (e - 16) checker0 →
        (16 ≤ e → (getEngine s e).service = .spare → (∀ m < 8, ∀ h, (getStage s m).handover = some h → h.2 ≠ e) → ∃ u, exec (.checkerDwellExpiry e) s = .next u
          ∧ u = { advanceTo c.dwellEnd s with loop := { s.loop with checkers := u.loop.checkers } }
          ∧ u.loop.checkers.getD (e - 16) checker0 = { c with target := cyclicNext (checkable s e) c.target, dwellEnd := u.time.raw + 1000000, copy := none, replay := none, next := none })
        ∧ (e < 16 ∨ (getEngine s e).service ≠ .spare ∨ (∃ m < 8, ∃ h, (getStage s m).handover = some h ∧ h.2 = e) → exec (.checkerDwellExpiry e) s = .next s))
    ∧ (∀ e c flip, 16 ≤ e → e < 18 → c = s.loop.checkers.getD (e - 16) checker0 →
        ((getEngine s e).service ≠ .spare → exec (.checkerReplayDone e flip) s = .next s)
        ∧ (c.doubts = [] → c.target = none ∨ c.copy = none ∨ c.replay = none → exec (.checkerReplayDone e flip) s = .next s)
        ∧ (∀ t k job w, (getEngine s e).service = .spare → c.doubts = [] → c.target = some t → c.copy = some k → c.replay = some job → (getEngine s t).stage = some n → w = updStage n (fun x => { x with checked := x.checked + 1 }) s →
          (flip = 0 → exec (.checkerReplayDone e flip) s = .next (updChecker e (fun y => { y with replay := y.next, next := none, copy := if job.base.isSome then some k else some { words := putAll (job.frame.words.filter (fun q => q.1 / 4096 = (getEngine s t).logical)) k.words, sigs := putAll job.frame.sig k.sigs } }) w))
          ∧ (∀ b, flip ≠ 0 → b = (if (getEngine s (33 - e)).service = .spare then 33 - e else e) → ∃ u, exec (.checkerReplayDone e flip) s = .next u ∧ u = { s with loop := { s.loop with stages := u.loop.stages, checkers := u.loop.checkers } }
              ∧ (getStage u n).mismatches = (getStage s n).mismatches + 1 ∧ (getStage u n).checked = (getStage s n).checked + 1
              ∧ (u.loop.checkers.getD (b - 16) checker0).doubts = (s.loop.checkers.getD (b - 16) checker0).doubts ++ [{ engine := t, first := e, copy := job.base.getD k, job := job, crc := job.crc ^^^ flip }]
              ∧ (u.loop.checkers.getD (e - 16) checker0).target = some t ∧ (u.loop.checkers.getD (e - 16) checker0).copy = (if job.base.isSome then some k else none)
              ∧ (u.loop.checkers.getD (e - 16) checker0).replay = (if job.base.isSome then c.next else none) ∧ (u.loop.checkers.getD (e - 16) checker0).next = none))
        ∧ (∀ d l w, (getEngine s e).service = .spare → c.doubts = d :: l → w = updChecker e (fun y => { y with doubts := l }) s →
          (d.first = e → d.job.crc ^^^ flip ≠ d.crc → exec (.checkerReplayDone e flip) s = .next (settleEngines 4 (post 0x0608#16 d.engine (n8 e ++ n8 0xFF ++ n8 3 ++ [0] ++ le32 d.job.frame.index) w)))
          ∧ (s.rel.waiting = [] → s.rel.engSeen = [] → ∃ u, exec (.checkerReplayDone e flip) s = .next u ∧ u.rel.waiting = [] ∧ (getEngine u d.engine).service = (getEngine s d.engine).service ∧ u.loop.checkers = w.loop.checkers
              ∧ (d.job.crc ^^^ flip = d.crc → u.rel.engSeen = [(d.engine, s.time.raw)])
              ∧ (d.first ≠ e → d.job.crc ≠ d.crc → flip = 0 → u.rel.engSeen = [(d.first, s.time.raw)])
              ∧ (d.first ≠ e → d.job.crc ^^^ flip ≠ d.crc → flip ≠ 0 → d.engine ≠ d.first → d.engine ≠ e → u.rel.engSeen = [(e, s.time.raw), (d.first, s.time.raw), (d.engine, s.time.raw)]))))

/-- With room in the parameter queue each enters it. Port and synchronisation settings in range are taken by an OFF unit at once. Law and limits in range are taken at once by an OFF unit, else wait for its next kernel period. FU_MODE off starts the shutdown of a running unit, and changes nothing else on an OFF one; a listed transition in RUN, its preconditions met, waits for the kernel period. Set-points within the port's limits are stored or wait the same way. FU_SCHEDULE on a running domain starts the schedule or pauses it. No other unit changes; with the queue full the request is held. A running unit refuses port and synchronisation settings, a mode not listed or without its feeding stage is refused with E_STATE, outside the band with E_PARAM, without lock with E_NOT_READY, and during a shutdown the answer is E_SHUTTING_DOWN. When a request of an OFF unit is taken, and what a mode request waits for, is the model's choice (logs 92, 97); its other choices are in log entries 17, 73, 96, 99. -/
def Obligations.FormingRequests : Prop :=
  ∀ (via : Transport) (s : State) (r : Req) (p : Bytes) (u : Nat), s.sys.dev ≠ .boot → p = reqParams r → n8At p 0 = u → u < 2 → Sized s →
    (∀ held : State, paramFull s = true → held = { s with cmd := { s.cmd with held := some via } } →
      (Takes 0x0700#16 via s r → (isFuElse r = true → exec (.fuConfigPort via) s = .next held) ∧ (isFuKind 1 r = true → exec (.fuConfigLaw via) s = .next held)
        ∧ (isFuKind 2 r = true → exec (.fuConfigLimits via) s = .next held) ∧ (isFuKind 3 r = true → exec (.fuConfigSync via) s = .next held))
      ∧ (Takes 0x0701#16 via s r → exec (.fuMode via) s = .next held) ∧ (Takes 0x0702#16 via s r → exec (.fuSetpoint via) s = .next held) ∧ (Takes 0x0703#16 via s r → exec (.fuSchedule via) s = .next held))
    ∧ (∀ w : Nat, paramFull s = false → (getFu s u).shutting.isSome = true → w = max (fuLeft s u) 1 →
      (Takes 0x0700#16 via s r → 2 ≤ p.length → (n8At p 1 = 0 → exec (.fuConfigPort via) s = replied r E_SHUTTING_DOWN (n32 w) (dropRequest s via))
        ∧ (n8At p 1 = 3 → exec (.fuConfigSync via) s = replied r E_SHUTTING_DOWN (n32 w) (dropRequest s via)))
      ∧ (Takes 0x0701#16 via s r → s.sys.dev = .run → n8At p 1 ≠ 0 → exec (.fuMode via) s = replied r E_SHUTTING_DOWN (n32 w) (dropRequest s via))
      ∧ (Takes 0x0702#16 via s r → exec (.fuSetpoint via) s = replied r E_SHUTTING_DOWN (n32 w) (dropRequest s via))
      ∧ (Takes 0x0703#16 via s r → exec (.fuSchedule via) s = replied r E_SHUTTING_DOWN (n32 w) (dropRequest s via)))
    ∧ (paramFull s = false → (getFu s u).shutting = none →
      (Takes 0x0700#16 via s r → (getFu s u).mode ≠ .off → 2 ≤ p.length → (n8At p 1 = 0 → exec (.fuConfigPort via) s = replied r E_STATE [] (dropRequest s via)) ∧ (n8At p 1 = 3 → exec (.fuConfigSync via) s = replied r E_STATE [] (dropRequest s via)))
      ∧ (∀ m : FuMode, Takes 0x0701#16 via s r → fuModeOf (n8At p 1) = some m → m ≠ .off →
        (s.sys.dev ≠ .run → exec (.fuMode via) s = replied r E_STATE [] (dropRequest s via))
        ∧ (s.sys.dev = .run → modeListed (getFu s u) m = false ∨ ((getFu s u).mode = .off ∧ feedEnabled s (getFu s u) = false) → exec (.fuMode via) s = replied r E_STATE [] (dropRequest s via))
        ∧ (s.sys.dev = .run → p.length = 4 → zeroAt p 2 2 = true → modeListed (getFu s u) m = true → ((getFu s u).mode = .off → feedEnabled s (getFu s u) = true) →
          ((getFu s u).mode = .off → feedNominal s (getFu s u) = false → exec (.fuMode via) s = replied r E_PARAM [] (dropRequest s via))
          ∧ (((getFu s u).mode = .off → feedNominal s (getFu s u) = true) → pllLocked s 0 = false → exec (.fuMode via) s = replied r E_NOT_READY [] (dropRequest s via)))))
    ∧ (paramFull s = false →
      (Takes 0x0700#16 via s r → (getFu s u).mode = .off → (getFu s u).shutting = none → p.length = 36 → n8At p 1 = 0 → n8At p 2 ≤ 1 → byteAt p 3 = 0 → zeroAt p 32 4 = true →
        (u32At p 4 = 0x42480000#32 ∨ u32At p 4 = 0x42700000#32) → f32In (u32At p 8) 50 400 = true → f32In (u32At p 12) 1000 200000 = true → f32In (u32At p 16) 10000 100000 = true →
        f32In (u32At p 20) (1 / 2) 5 = true → f32In (u32At p 24) 1 (13 / 10) = true → f32In (u32At p 28) 1 100 = true →
        exec (.fuConfigPort via) s = replied r OK [] (enqueueParam (8 + u) 9 (updFu u (fun x => { x with port := { split := decide (n8At p 2 = 1), fn := u32At p 4, vb := u32At p 8, sb := u32At p 12, fk := u32At p 16, dfmax := u32At p 20, emax := u32At p 24, bpll := u32At p 28 } }) (taken s via))))
      ∧ (Takes 0x0700#16 via s r → lawRanges p →
        (fuIdle s u → exec (.fuConfigLaw via) s = replied r OK [] (updFu u (fun x => { x with law := lawOf p }) (enqueueParam (8 + u) 16 (taken s via))))
        ∧ (¬ fuIdle s u → exec (.fuConfigLaw via) s = replied r OK [] (updFu u (fun x => { x with reqs := x.reqs ++ [.law (lawOf p)] }) (enqueueParam (8 + u) 16 (taken s via)))))
      ∧ (Takes 0x0700#16 via s r → limRanges p →
        (fuIdle s u → exec (.fuConfigLimits via) s = replied r OK [] (updFu u (fun x => { x with lim := limOf p }) (enqueueParam (8 + u) 10 (taken s via))))
        ∧ (¬ fuIdle s u → exec (.fuConfigLimits via) s = replied r OK [] (updFu u (fun x => { x with reqs := x.reqs ++ [.limits (limOf p)] }) (enqueueParam (8 + u) 10 (taken s via)))))
      ∧ (Takes 0x0700#16 via s r → (getFu s u).mode = .off → (getFu s u).shutting = none → p.length = 40 → n8At p 1 = 3 → n8At p 2 ≤ 1 → byteAt p 3 = 0 → zeroAt p 32 8 = true →
        f32In (u32At p 4) (1 / 100) (1 / 2) = true → f32In (u32At p 8) (1 / 1000) (1 / 10) = true → f32In (u32At p 12) (5 / 1000) (1 / 10) = true → f32In (u32At p 16) (1 / 10) 2 = true →
        f32In (u32At p 20) (1 / 100) 2 = true → f32In (u32At p 24) (1 / 10) 50 = true → f32In (u32At p 28) (2 / 100) (3 / 10) = true →
        exec (.fuConfigSync via) s = replied r OK [] (enqueueParam (8 + u) 10 (updFu u (fun x => { x with sync := { islAuto := decide (n8At p 2 = 1), closeDf := u32At p 4, closeDth := u32At p 8, closeDv := u32At p 12, islDf := u32At p 16, islTime := u32At p 20, bsRate := u32At p 24, bsDead := u32At p 28 } }) (taken s via))))
      ∧ (Takes 0x0701#16 via s r → p = [BitVec.ofNat 8 u, 0, 0, 0] →
        ((getFu s u).mode = .off → exec (.fuMode via) s = replied r OK (fuModeReply s u 0xFFFFFFFF#32) (enqueueParam (8 + u) 1 (taken s via)))
        ∧ ((getFu s u).mode ≠ .off → (getFu s u).shutting = none → ∃ t, exec (.fuMode via) s = replied r OK (fuModeReply t u (nextKernel (getFu s u))) t
          ∧ t = enqueueParam (8 + u) 1 (updFu u (fun x => { x with shutting := some s.time.raw, reqs := x.reqs ++ [.off] }) (taken s via))))
      ∧ (∀ (k : Nat) (m : FuMode), Takes 0x0701#16 via s r → s.sys.dev = .run → p = [BitVec.ofNat 8 u, BitVec.ofNat 8 k, 0, 0] → k < 6 → fuModeOf k = some m → m ≠ .off → (getFu s u).shutting = none →
        modeListed (getFu s u) m = true → ((getFu s u).mode = .off → feedEnabled s (getFu s u) = true ∧ feedNominal s (getFu s u) = true) → pllLocked s 0 = true →
        exec (.fuMode via) s = replied r OK (fuModeReply s u (nextKernel (getFu s u))) (enqueueParam (8 + u) 1 (updFu u (fun x => { x with reqs := x.reqs ++ [.mode m] }) (taken s via))))
      ∧ (∀ (k : Nat) (vals : List F32), Takes 0x0702#16 via s r → p.length = 20 → n8At p 1 = k → 1 ≤ k → k ≤ 15 → zeroAt p 2 2 = true → (getFu s u).shutting = none →
        (∀ i < 2, f32In (u32At p (4 + 4 * i)) (-(f32Val (getFu s u).port.sb)) (f32Val (getFu s u).port.sb) = true) →
        f32In (u32At p 12) (f32Val (getFu s u).port.fn - f32Val (getFu s u).port.dfmax) (f32Val (getFu s u).port.fn + f32Val (getFu s u).port.dfmax) = true →
        f32In (u32At p 16) (f32Val (getFu s u).port.vb * (8 / 10)) (f32Val (getFu s u).port.vb * (11 / 10)) = true → vals = (List.range 4).map (fun i => f32Param (u32At p (4 + 4 * i))) →
        (fuIdle s u → exec (.fuSetpoint via) s = replied r OK (le32 0xFFFFFFFF#32) (updFu u (fun x => { x with stored := storeTargets k vals x.stored }) (enqueueParam (8 + u) 5 (taken s via))))
        ∧ (¬ fuIdle s u → exec (.fuSetpoint via) s = replied r OK (le32 (if (getFu s u).mode = .off then 0xFFFFFFFF#32 else nextKernel (getFu s u)))
            (updFu u (fun x => { x with reqs := x.reqs ++ [.setp k vals] }) (enqueueParam (8 + u) 5 (taken s via)))))
      ∧ (∀ d : Nat, Takes 0x0703#16 via s r → p.length = 28 → n8At p 2 = d → d < 4 → byteAt p 3 = 0 → 100 ≤ n32At p 8 → n32At p 8 ≤ 600000 → f32In (u32At p 12) 0 1 = true → f32In (u32At p 16) 0 1 = true →
        f32In (u32At p 20) 0 2 = true → f32In (u32At p 24) 0 (f32Val (getFu s u).port.vb / 10) = true → (getFu s u).shutting = none → tdRunning (getTd s d) = true →
        (n8At p 1 = 1 → ∃ t, exec (.fuSchedule via) s = replied r OK [] t ∧ (getFu t u).sched.on = true ∧ (getFu t u).sched.paused = false ∧ (getFu t u).sched.domain = d
          ∧ (getFu t u).sched.anchor = n32At p 4 ∧ (getFu t u).sched.period = n32At p 8 ∧ t = enqueueParam (8 + u) 7 (updFu u (fun x => { x with sched := (getFu t u).sched }) (taken s via)))
        ∧ (n8At p 1 = 0 → exec (.fuSchedule via) s = replied r OK [] (enqueueParam (8 + u) 7 (updFu u (fun x => { x with sched := { x.sched with paused := x.sched.on } }) (taken s via))))))

/-- A kernel period of a unit that is on, with no request, ends with the kernel index one higher; that of an OFF unit is a monitor period. The period of a running unit computes in binary32 what R293 to R306 state: per-unit inputs, the PLL, p and q and their low-passes, the ramps of the working values, and the law of its mode, with ω_v, θ_v, E and the voltage references, or in FOLLOW the current reference; the order of its roundings is the model's choice (log 199). Sixteen intervals without a feed turn a unit OFF. A PLL whose criteria held 10 ms is locked; RIDE ends after exit_time, its impedance decays; black start that followed 100 ms, and a detected island, enter ISLAND; a stalled black start posts 0x0713 once; closing criteria that held 40 ms give the permit with 0x0710; 2 s after its start a shutdown ends OFF; a step whose instant has come is taken by the running kernel period at its end, in ISLAND, else skipped. The other unit keeps its state. Where nothing of it is due, nothing happens (log 4). The model's own choices in it are in log entries 92, 93, 95, 98. -/
def Obligations.FormingPeriodsAndTimes : Prop :=
  ∀ (s : State) (u : Nat) (x : FormingUnit), Sized s → u < 2 → x = getFu s u →
    (x.running = none → exec (.kernelEnd u) s = .next s)
    ∧ (∀ f, x.running = some f → ∃ t, exec (.kernelEnd u) s = .next t ∧ (getFu t u).tk = some f.tk ∧ getFu t (1 - u) = getFu s (1 - u) ∧ t.loop = s.loop ∧ t.pwm = s.pwm ∧ t.time = s.time)
    ∧ (∀ f, x.running = some f → x.nowReqs = [] → x.waiting = none → x.mode ≠ .off → x.offTaken = false → x.sched.on = true → x.sched.paused = false → x.sched.halted = false → x.sched.due = true →
        ∃ t, exec (.kernelEnd u) s = .next t ∧ (getFu t u).sched.next = x.sched.next + 1 ∧ (getFu t u).sched.due = false
          ∧ (x.mode = .island → (getFu t u).resSteps = x.resSteps + 1 ∧ (getFu t u).resSkipped = x.resSkipped) ∧ (x.mode ≠ .island → (getFu t u).resSteps = x.resSteps ∧ (getFu t u).resSkipped = x.resSkipped + 1))
    ∧ (∀ f, x.running = some f → x.nowReqs = [] → x.waiting = none → x.tk.isSome = true → x.run.started = true → x.offTaken = false → x.mode ≠ .off → x.mode ≠ .sync →
        ∃ t, exec (.kernelEnd u) s = .next t ∧ lawDone x (getFu t u) f)
    ∧ (x.mode = .off → exec (.feedTimeout u) s = .next s)
    ∧ (∀ b : Bool, (if b then x.trk else x.pll).locked = true ∨ heldFor x (if b then x.trk else x.pll).since 10000000 = false → exec (.pllLockQualified u b) s = .next s)
    ∧ (∀ b : Bool, (if b then x.trk else x.pll).locked = false → heldFor x (if b then x.trk else x.pll).since 10000000 = true → x.mode = .sync →
        exec (.pllLockQualified u b) s = .next (updFu u (fun y => { y with pll := { y.pll with locked := true }, trk := { y.trk with locked := true } }) s))
    ∧ (x.mode = .off ∨ x.run.ride = false ∨ heldFor x x.run.exitSince (nsParam x.lim.exit) = false → exec (.rideExit u) s = .next s)
    ∧ (x.run.ride = true ∨ heldFor x x.run.decay (nsParam x.lim.exit) = false → exec (.decayEnd u) s = .next s)
    ∧ (x.mode ≠ .blackStart ∨ heldFor x x.run.bsSince 100000000 = false → exec (.blackStartEnd u) s = .next s)
    ∧ (x.mode ≠ .blackStart ∨ x.run.bsStalled = true ∨ x.run.sv.work = x.run.sv.target ∨ heldFor x (some x.run.bsEntry) 10000000000 = false → exec (.bsStalled u) s = .next s)
    ∧ (x.run.permit = true ∨ heldFor x x.run.closeSince 40000000 = false → exec (.closePermit u) s = .next s)
    ∧ (x.mode ≠ .form ∨ heldFor x x.run.islSince (nsParam x.sync.islTime) = false → exec (.islandDetected u) s = .next s)
    ∧ (x.shutting = none → exec (.fuShutdownTimeout u) s = .next s)
    ∧ (x.running = none ∨ x.mode = .off ∨ x.sched.on = false ∨ x.sched.paused = true ∨ x.sched.halted = true ∨ tdRunning (getTd s x.sched.domain) = false → exec (.restorationStep u) s = .next s)
    ∧ (∀ f, x.running = some f → x.nowReqs = [] → x.waiting = none →
        (x.mode ≠ .off → x.offTaken = false → ∃ t, exec (.kernelEnd u) s = .next t ∧ (getFu t u).mode = x.mode ∧ (getFu t u).run.kernel = x.run.kernel + 1 ∧ (getFu t u).tk = some f.tk
            ∧ (getFu t u).running = none ∧ getFu t (1 - u) = getFu s (1 - u) ∧ t.loop = s.loop ∧ t.pwm = s.pwm)
        ∧ (x.mode = .off → ∃ t, exec (.kernelEnd u) s = .next t ∧ (getFu t u).mode = .off ∧ (getFu t u).run = x.run ∧ (getFu t u).tk = some f.tk ∧ (getFu t u).running = none
            ∧ getFu t (1 - u) = getFu s (1 - u) ∧ t.loop = s.loop ∧ t.pwm = s.pwm))
    ∧ (x.mode ≠ .off → ∃ t, exec (.feedTimeout u) s = .next t ∧ (getFu t u).mode = .off ∧ (getFu t u).run = fuRun0 ∧ (getFu t u).running = none ∧ (getFu t u).waiting = none
        ∧ t.time.raw = max s.time.raw (x.lastFeed + (ratCeil (16000000000 / f32Val x.port.fk)).toNat) ∧ getFu t (1 - u) = getFu s (1 - u) ∧ t.loop = s.loop ∧ t.sys = s.sys)
    ∧ (x.pll.locked = false → heldFor x x.pll.since 10000000 = true → x.mode ≠ .sync → exec (.pllLockQualified u false) s = .next (updFu u (fun y => { y with pll := { y.pll with locked := true } }) s))
    ∧ (x.trk.locked = false → heldFor x x.trk.since 10000000 = true → x.mode ≠ .sync → exec (.pllLockQualified u true) s = .next (updFu u (fun y => { y with trk := { y.trk with locked := true } }) s))
    ∧ (x.mode ≠ .off → x.run.ride = true → heldFor x x.run.exitSince (nsParam x.lim.exit) = true → ∃ t, exec (.rideExit u) s = .next t ∧ (getFu t u).run.ride = false ∧ (getFu t u).run.decay = x.tk
        ∧ LogOnly { s with fus := t.fus } t ∧ (getFu t u).mode = x.mode ∧ getFu t (1 - u) = getFu s (1 - u))
    ∧ (x.run.ride = false → heldFor x x.run.decay (nsParam x.lim.exit) = true → exec (.decayEnd u) s = .next (updFu u (fun y => { y with run := { y.run with decay := none } }) s))
    ∧ (x.mode = .blackStart → heldFor x x.run.bsSince 100000000 = true → ∃ t, exec (.blackStartEnd u) s = .next t ∧ (getFu t u).mode = .island ∧ (getFu t u).run.kernel = x.run.kernel
        ∧ LogOnly { s with fus := t.fus } t ∧ getFu t (1 - u) = getFu s (1 - u))
    ∧ (x.mode = .blackStart → x.run.bsStalled = false → x.run.sv.work ≠ x.run.sv.target → heldFor x (some x.run.bsEntry) 10000000000 = true →
        exec (.bsStalled u) s = .next (post 0x0713#16 u (le32 x.vm ++ le32 x.run.sv.work) (updFu u (fun y => { y with run := { y.run with bsStalled := true } }) s)))
    ∧ (x.run.permit = false → heldFor x x.run.closeSince 40000000 = true → exec (.closePermit u) s = .next (post 0x0710#16 u (n8 1 ++ zeros 3 ++ le32 (deltaTurns (deltaOf x.trk.theta x.run.theta)))
        (updFu u (fun y => { y with permits := y.permits + 1, run := { y.run with permit := true } }) s)))
    ∧ (x.mode = .form → heldFor x x.run.islSince (nsParam x.sync.islTime) = true → ∃ t, exec (.islandDetected u) s = .next t ∧ (getFu t u).mode = .island ∧ (getFu t u).islandings = x.islandings + 1
        ∧ LogOnly { s with fus := t.fus } t ∧ getFu t (1 - u) = getFu s (1 - u))
    ∧ (∀ i, x.shutting = some i → x.mode ≠ .off → ∃ t, exec (.fuShutdownTimeout u) s = .next t ∧ (getFu t u).mode = .off ∧ (getFu t u).shutting = none ∧ (getFu t u).run = fuRun0
        ∧ t.time.raw = max s.time.raw (i + 2000000000) ∧ getFu t (1 - u) = getFu s (1 - u) ∧ t.loop = s.loop)
    ∧ (∀ f, x.running = some f → x.mode ≠ .off → x.sched.on = true → x.sched.paused = false → x.sched.halted = false → tdRunning (getTd s x.sched.domain) = true →
        exec (.restorationStep u) s = .next (if stepNs x.sched x.sched.next ≤ domNs s x.sched.domain f.tk then updFu u (fun y => { y with sched := { y.sched with due := true } }) s else s))

/-- For resources whose stages are OFF: a timer with fields in range and every dead time fitting takes its settings, a free one with no slave or group is released; a lead channel with valid positions and partner takes its settings and its follower follows it, a released one becomes unused; a group gets its timer and as many units, each position keeping the unit in service that it has and taking the next free one otherwise. Queries change nothing. A stage that shuts down is answered E_SHUTTING_DOWN, without enough units the answer is E_RESOURCE after a retirement, else E_PARAM. Enables of used channels and their partners wait for the next reload. Valid entries of PWM_WRITE_GROUP become their groups' staging sets, which move to pending in the cycle of the request. Nothing else changes. The model's own choices in it are in log entries 61, 62, 149. -/
def Obligations.PwmRequests : Prop :=
  ∀ (via : Transport) (s : State) (r : Req) (p : Bytes), s.sys.dev ≠ .boot → p = reqParams r → Sized s →
    (∀ t n : Nat, Takes 0x0800#16 via s r → p.length = 24 → n8At p 0 = t → t < 24 → n8At p 6 < 2 →
      (n8At p 1 = n → n < 8 → allOff s [(getTimer s t).stage, some n] → timerRanges p = true →
        (n8At p 2 = 1 → (getTimer s (n8At p 3)).slave = false ∧ (getTimer s (n8At p 3)).stage = some n ∧ n8At p 3 ≠ t ∧ hasSlaves s t = false) → (hasSlaves s t = true → (getTimer s t).stage = some n) →
        (n8At p 7 ≠ 0xFF → (getGroup s (n8At p 7)).timer = some t) →
        ∀ x : Timer, x = { timer0 with stage := some n, slave := decide (n8At p 2 = 1), master := n8At p 3, phase := n16At p 4, align := decide (n8At p 6 = 1), periodGroup := if n8At p 7 = 0xFF then none else some (n8At p 7), period := n32At p 8, pmin := n32At p 12, pmax := n32At p 16, reloads := (getTimer s t).reloads, clamps := (getTimer s t).clamps } →
        timerFits (updTimer t (fun _ => x) s) t = true →
        exec (.pwmTimer via) s = replied r OK (timerReply (updTimer t (fun _ => x) s) t) (updTimer t (fun _ => x) (taken s via)))
      ∧ (∀ m, n8At p 1 = 0xFF → (getTimer s t).stage = some m → (getStage s m).st = .shuttingDown → exec (.pwmTimer via) s = replied r E_SHUTTING_DOWN (n32 (max (stageLeft s m) 1)) (dropRequest s via))
      ∧ (∀ m, n8At p 1 = 0xFF → (getTimer s t).stage = some m → (getStage s m).st ≠ .shuttingDown → (getStage s m).st ≠ .off → exec (.pwmTimer via) s = replied r E_STATE [] (dropRequest s via))
      ∧ (n8At p 1 = 0xFF → allOff s [(getTimer s t).stage] → hasSlaves s t = false → hasGroups s t = false → ∃ pl, pl.length = 16 ∧
        exec (.pwmTimer via) s = replied r OK pl (updTimer t (fun x => { timer0 with clamps := x.clamps }) (taken s via))))
    ∧ (∀ t : Nat, Takes 0x0800#16 via s r → p.length = 24 → n8At p 0 = t → t < 24 → (n8At p 6 = 2 ∨ n8At p 6 = 3) → (n8At p 1 < 8 ∨ n8At p 1 = 0xFF) → n8At p 2 < 2 → n8At p 3 < 24 → (n8At p 7 < 32 ∨ n8At p 7 = 0xFF) →
      periodInRange (n32At p 8) = true → periodInRange (n32At p 12) = true → periodInRange (n32At p 16) = true → zeroAt p 20 4 = true →
      exec (.pwmTimerQuery via) s = replied r OK (timerReply s t) (taken s via))
    ∧ (∀ c g t m pa pb pr df dr mw : Nat, ∀ par : Option Nat, Takes 0x0801#16 via s r → p.length = 16 → n8At p 0 = 0 → n8At p 1 = c → n8At p 2 = 1 → n8At p 3 = m → n8At p 4 = g → n8At p 5 = pa → n8At p 6 = pb →
      n8At p 7 = pr → n16At p 8 = dr → n16At p 10 = df → n8At p 12 = mw → zeroAt p 13 3 = true → c < 96 → m < 3 → g < 32 → dr < 1024 → df < 1024 → (getGroup s g).timer = some t →
      allOff s [chanStage s c, (getTimer s t).stage] → pa < (getGroup s g).units.length → (if m = 2 then pb < (getGroup s g).units.length else pb = 0) → (getChan s c).role ≠ 2 → (getChan s c).partner ≠ some c →
      par = (if pr = 0xFF then none else some pr) → (pr = 0xFF ∨ pr < 96 ∧ pr ≠ c ∧ ((getChan s pr).role = 0 ∨ (getChan s pr).role = 2 ∧ (getChan s pr).partner = some c) ∧ (80 ≤ c ∨ 80 ≤ pr → c % 2 = 0 ∧ 80 ≤ c ∧ pr = c + 1)) →
      ((getTimer s t).stage ≠ none → 16 * ((if pr = 0xFF then 0 else dr + df) + 2 * mw) ≤ shortest s t) →
      ∃ pl u, exec (.pwmChannelChannel via) s = replied r OK pl u ∧ u = { taken s via with pwm := { s.pwm with channels := u.pwm.channels } }
        ∧ getChan u c = { getChan s c with role := 1, mode := m, group := g, posA := pa, posB := pb, partner := par, dtR := dr, dtF := df, minpw := mw }
        ∧ (∀ q, par = some q → (getChan u q).role = 2 ∧ (getChan u q).partner = some c ∧ (getChan u q).group = g)
        ∧ (∀ d, d ≠ c → some d ≠ par → some d ≠ (getChan s c).partner → getChan u d = getChan s d))
    ∧ (∀ c : Nat, Takes 0x0801#16 via s r → p.length = 16 → n8At p 1 = c → c < 96 → zeroAt p 0 1 = true → zeroAt p 2 14 = true → allOff s [chanStage s c] → (∀ q, (getChan s c).partner = some q → q ≠ c) →
      ∃ pl u, exec (.pwmChannelChannel via) s = replied r OK pl u ∧ u = { taken s via with pwm := { s.pwm with channels := u.pwm.channels } } ∧ getChan u c = unused (getChan s c)
        ∧ (∀ d, d ≠ c → some d ≠ (getChan s c).partner → getChan u d = getChan s d))
    ∧ (∀ g t n : Nat, ∀ (y : State) (old : List (Option Nat)), Takes 0x0801#16 via s r → p.length = 8 → n8At p 0 = 1 → n8At p 1 = g → g < 32 → zeroAt p 4 4 = true → n8At p 2 = t → n8At p 3 = n →
      allOff s [(getGroup s g).timer.bind (fun t => (getTimer s t).stage), if t < 24 then (getTimer s t).stage else none] →
      (t < 24 → 1 ≤ n → n ≤ 16 → ((getGroup s g).timer = some t ∧ groupNeed s g ≤ n ∨ groupNeed s g = 0 ∧ ∀ z ∈ s.pwm.timers, z.periodGroup ≠ some g) →
        old = (List.range n).map (fun i => ((getGroup s g).units[i]?).filter (fun v => (getUnit s v).service == .inService)) → y = updGroup g (fun z => { z with units := old.filterMap id }) s →
        (∀ us, backUnits old (unitsFree y) = some us → us.length = n ∧ (∀ i < n, ∀ v, old[i]? = some (some v) → us[i]? = some v)
          ∧ ∃ pl u, exec (.pwmChannelGroup via) s = replied r OK pl u ∧ u = { taken s via with pwm := { s.pwm with groups := u.pwm.groups } } ∧ (∀ h, h ≠ g → getGroup u h = getGroup s h)
            ∧ (getGroup u g).timer = some t ∧ (getGroup u g).units = us ∧ (getGroup u g).active = (getGroup s g).active)
        ∧ (backUnits old (unitsFree y) = none → exec (.pwmChannelGroup via) s = replied r (if unitRetired s then E_RESOURCE else E_PARAM) [] (dropRequest s via)))
      ∧ (t = 0xFF → n = 0 → groupNeed s g = 0 → (∀ z ∈ s.pwm.timers, z.periodGroup ≠ some g) → ∃ pl, pl.length = 20 ∧
        exec (.pwmChannelGroup via) s = replied r OK pl (updGroup g (fun z => { group0 with superseded := (moveStaged (s.time.raw + 1) z).superseded }) (taken s via))))
    ∧ (Takes 0x0801#16 via s r → p.length = 4 → n8At p 0 = 2 → n8At p 1 < 96 → zeroAt p 2 2 = true → exec (.pwmChannelQuery via) s = replied r OK (channelReply s (n8At p 1)) (taken s via))
    ∧ (p.length = 12 → maskChans p ≠ [] → (∀ c ∈ maskChans p, (getChan s c).role ≠ 0) →
      (Takes 0x0802#16 via s r → (∀ c ∈ maskChans p, ∀ n, chanStage s c = some n → (getStage s n).st ≠ .shuttingDown) →
        ∃ u, exec (.pwmEnable via) s = replied r OK (enableMask u) u ∧ u = { taken s via with pwm := { s.pwm with channels := u.pwm.channels } }
          ∧ ∀ c < 96, getChan u c = if c ∈ (maskChans p).flatMap (withPartner s) then { getChan s c with pendEn := some true } else getChan s c)
      ∧ (Takes 0x0803#16 via s r → ∃ u, exec (.pwmDisable via) s = replied r OK (enableMask u) u ∧ u = { taken s via with pwm := { s.pwm with channels := u.pwm.channels } }
          ∧ ∀ c < 96, getChan u c = if c ∈ (maskChans p).flatMap (withPartner s) then { getChan s c with pendEn := some false } else getChan s c))
    ∧ (∀ ws : List GroupWrite, Takes 0x0804#16 via s r → 4 ≤ p.length → 1 ≤ n8At p 0 → n8At p 0 ≤ 4 → zeroAt p 1 3 = true → groupWrites (n8At p 0) (p.drop 4) = some ws → (∀ w ∈ ws, groupInGraph s w.group = false ∧ groupWriteOk s w = true) →
      (ws.map (·.group)).Nodup → ∃ u, exec (.pwmWriteGroup via) s = replied r OK (le32 (activeTime s)) u ∧ u = { taken s via with pwm := { s.pwm with groups := u.pwm.groups } }
        ∧ (∀ w ∈ ws, getGroup u w.group = { moveStaged (s.time.raw + 1) (getGroup s w.group) with staging := some { vals := w.vals, period := if w.period = 0 then none else some w.period, frame := none, done := s.time.raw } })
        ∧ (∀ g, (∀ w ∈ ws, w.group ≠ g) → getGroup u g = getGroup s g))

/-- A lead's raw signal rises at the start of its next pulse: its own turn-on follows DT_r later and its partner turns off; it falls at the end of the stretch of touching pulses, one that reaches the next reload only after that: it turns off and the partner's turn-on follows DT_f later. When a dead time ends the lead whose raw signal is still on, or the follower that fits, turns on. A held pulse ends after MINPW. Two mismatched readback samples in a row count one fault with event 0x0803. Readback reads the level on the ball, or on the die's command input. A spare unit moves on every 1 ms unless its unit is watched; its first mismatch posts 0x0804 with the spare and the reload count of the unit's timer, and 0x0F09, is remembered and watched for 16 reloads. Where nothing of it is due, nothing happens (log 4). The model's own choices in it are in log entries 64, 148. -/
def Obligations.PwmEdgesReadbackAndSpares : Prop :=
  ∀ (s : State) (c : Nat) (x : Channel), Sized s → c < 96 → x = getChan s c →
    (x.role ≠ 1 ∨ x.stopped = true → exec (.compareMatch c) s = .next s) ∧ (x.onAt = none → exec (.deadTimeExpiry c) s = .next s) ∧ (x.offHeld = false → exec (.minpwExpiry c) s = .next s)
    ∧ (x.role = 1 → x.stopped = false → (∀ q, x.partner = some q → q < 96 ∧ q ≠ c) →
      (x.raw = false → nextOn x.pulses 0 = none → exec (.compareMatch c) s = .next s)
      ∧ (∀ t, x.raw = false → nextOn x.pulses 0 = some t → ∃ u, exec (.compareMatch c) s = .next u ∧ u.time.raw = max s.time.raw t
          ∧ getChan u c = { x with raw := true, onAt := some (u.time.raw + (if x.partner.isSome then x.dtR else 0)) }
          ∧ (∀ q, x.partner = some q → (getChan u q).cmd = false ∧ (getChan u q).onAt = none) ∧ (∀ d, d ≠ c → x.partner ≠ some d → getChan u d = getChan s d) ∧ u.loop = s.loop)
      ∧ (∀ t, x.raw = true → t = stretchEnd x.pulses (x.pulses.foldl (fun m q => if q.on ≤ s.time.raw then max m q.on else m) 0) x.pulses.length →
          (∀ k, chanTimer s c = some k → (getTimer s k).running = true → (getTimer s k).nextReload ≤ t → s.time.raw ≤ (getTimer s k).nextReload → (∀ n, chanStage s c = some n → (getStage s n).st ≠ .shuttingDown) →
            (chanStage s c).isSome = true → exec (.compareMatch c) s = .next s)
          ∧ ((∀ k, chanTimer s c = some k → (getTimer s k).running = false ∨ t < (getTimer s k).nextReload ∨ (getTimer s k).nextReload < s.time.raw ∨ (∃ n, chanStage s c = some n ∧ (getStage s n).st = .shuttingDown)) →
            ∃ u, exec (.compareMatch c) s = .next u ∧ u.time.raw = max s.time.raw t ∧ (getChan u c).raw = false ∧ (getChan u c).cmd = false ∧ (getChan u c).onAt = none
          ∧ (∀ q, x.partner = some q → (getChan u q).onAt = some (u.time.raw + x.dtF)) ∧ (∀ d, d ≠ c → x.partner ≠ some d → getChan u d = getChan s d) ∧ u.loop = s.loop)))
    ∧ (∀ t, x.onAt = some t →
      ((x.stopped = true ∨ (if x.role = 2 then followerFits (advanceTo t s) c else x.raw) = false) → exec (.deadTimeExpiry c) s = .next (updChan c (fun y => { y with onAt := none }) (advanceTo t s)))
      ∧ (x.stopped = false → (if x.role = 2 then followerFits (advanceTo t s) c else x.raw) = true → ∃ u, exec (.deadTimeExpiry c) s = .next u ∧ (getChan u c).cmd = true ∧ (getChan u c).onAt = none
          ∧ (getChan u c).onSince = max s.time.raw t ∧ u.time.raw = max s.time.raw t ∧ u.loop = s.loop ∧ u.sys = s.sys))
    ∧ (x.offHeld = true → ∃ u, exec (.minpwExpiry c) s = .next u ∧ (getChan u c).cmd = false ∧ (getChan u c).offHeld = false ∧ u.time.raw = max s.time.raw (x.onSince + chanMinpw s c)
        ∧ (∀ d, d ≠ c → getChan u d = getChan s d) ∧ u.evt = s.evt)
    ∧ (∀ level : Bool, (level = chanLine s c → exec (.readbackSample c level) s = .next (updChan c (fun y => { y with rbBad := false }) s))
      ∧ (level ≠ chanLine s c → x.rbBad = false → exec (.readbackSample c level) s = .next (updChan c (fun y => { y with rbBad := true }) s))
      ∧ (level ≠ chanLine s c → x.rbBad = true → exec (.readbackSample c level) s = .next (postMerge 0x0803#16 c (n8 (if chanLine s c then 1 else 0) ++ zeros 3 ++ le32 (x.rbFaults + 1))
          (updChan c (fun y => { y with rbBad := false, rbFaults := y.rbFaults + 1 }) s))))
    ∧ (∀ u < 104, (getUnit s u).service = .spare → (∀ w ∈ s.rel.unitWatch, (getUnit s u).shadow ≠ some w.1) → exec (.cuSpareDwellExpiry u) s =
        .next (updUnit u (fun y => { y with shadow := cyclicNext (shadowable s u) (getUnit s u).shadow, dwellEnd := max s.time.raw (getUnit s u).dwellEnd + 1000000 }) (advanceTo (getUnit s u).dwellEnd s)))
    ∧ (∀ u < 104, (getUnit s u).service = .spare → (∃ w ∈ s.rel.unitWatch, (getUnit s u).shadow = some w.1) → exec (.cuSpareDwellExpiry u) s =
        .next (updUnit u (fun y => { y with dwellEnd := max s.time.raw (getUnit s u).dwellEnd + 1000000 }) (advanceTo (getUnit s u).dwellEnd s)))
    ∧ (∀ u, (getUnit s u).service ≠ .spare → exec (.cuSpareDwellExpiry u) s = .next s ∧ exec (.cuMismatch u) s = .next s) ∧ (∀ u, (getUnit s u).shadow = none → exec (.cuMismatch u) s = .next s)
    ∧ (∀ k v, (getUnit s k).service = .spare → (getUnit s k).shadow = some v → s.rel.waiting = [] → s.rel.unitSeen = [] → s.rel.unitWatch = [] → ∃ t, exec (.cuMismatch k) s = .next t
        ∧ t.rel.unitSeen = [(k, v, s.time.raw)] ∧ t.rel.unitWatch = [(v, 16)] ∧ t.rel.waiting = [] ∧ t.pwm = s.pwm ∧ t.loop = s.loop
        ∧ ∀ p m w, unitPlace s v = some p → (getGroup s p.1).timer = some m → w = postMerge 0x0804#16 v (n8 k ++ zeros 3 ++ le32 (getTimer s m).reloads) s →
            t = transient 3 v { w with rel := { w.rel with unitSeen := [(k, v, s.time.raw)], unitWatch := [(v, 16)] } })

/-- In RUN with no safety cause latched: if an armed FLT input of a channel without a fault trips while another channel of the same ENABLED stage, on another leg, had a fault at most 1,000 ns before, then the device is in SAFE with cause and first reason MULTILEG, no stage is left STARTING, ENABLED or SHUTTING_DOWN, no gate output of any channel is on, every forming unit is OFF, and the counter of multi-leg faults has risen. -/
def Obligations.MultiLegFaultsSetTheSafeState : Prop :=
  ∀ (s : State) (c d n i : Nat), Sized s → c < 80 → d < 96 → s.sys.dev = .run → s.safe.causes = 0 → fltArmed s c = true → chanStage s c = some n → n < 8 → chanStage s d = some n → (getStage s n).st = .enabled → (getChan s c).fault = none →
    (getChan s d).rawFault = some i → s.time.raw ≤ i + 1000 → chanLeg s c ≠ chanLeg s d →
    ∃ t, exec (.fltTrip c) s = .next t ∧ t.sys.dev = .safe ∧ t.safe.causes = 1 ∧ t.safe.firstReason = 1 ∧ (∀ m < 8, (getStage t m).st = .off ∨ (getStage t m).st = .lockedOut)
      ∧ (∀ k < 96, chanOut t k = false) ∧ (∀ f ∈ t.fus, f.mode = .off) ∧ t.pwm.multileg = s.pwm.multileg + 1 ∧ (getChan t c).fault.isSome = true

/-- An active FLT input shows its level; armed it faults its channel with cause 0. A comparator in an enabled trip zone outside blanking, or in a short zone, is tripped; so is a fast detector that is on, with a running clock and an input that is not stuck, whose sinc2 output lies beyond the threshold of an enabled side. Armed they fault every target, causes 1, 2 and 3; a detector already tripped does not trip again. Releases clear only the source. A trip zone still there when blanking ends trips then. A VDS monitor of a switch that is commanded on or precharging, the trip level only after its blanking, latches in the die, and the switch has its raw fault then; the status word faults every channel whose latch is set. Low bootstrap faults the high side, cause 6, if its stage is not OFF. VDRV or the die temperature beyond a level of R381 for 1 us posts 0x0903: a warning is shown, a shutdown faults every integrated channel that is on, causes 7 and 8, and holds until release; held for less, or short of the level, only the value is taken. A fault already latched stays. A source under a self-test turns nothing off. Stated for trips whose targets lie on one leg of a stage in which no other leg had a recent fault. Where nothing of it applies, nothing happens (log 4). The model's own choices in it are in log entries 63, 140, 143. -/
def Obligations.ProtectionTripsAndReleases : Prop :=
  ∀ (s : State) (n : Nat), Sized s →
    (∀ c < 80, (fltArmed s c = false → exec (.fltTrip c) s = .next (updFlt c (fun x => { x with low := true, active := true }) s))
      ∧ (fltArmed s c = true → oneLeg s n [c] → ∃ t, exec (.fltTrip c) s = .next t ∧ tripped (updFlt c (fun x => { x with low := true, active := true }) s) t 0 [c])
      ∧ exec (.fltHigh c) s = .next (updFlt c (fun x => { x with low := false, active := false }) s))
    ∧ (∀ (k zone : Nat) (x : Comparator) (u : State), k < 32 → u = updCmp k (fun x => { x with zone := zone }) s → x = getCmp u k →
      ((cmpZoneOn x = false ∨ cmpShort x = false ∧ s.time.raw < x.blankEnd) → exec (.cmpTrip k zone) s = .next u)
      ∧ (cmpZoneOn x = true → (cmpShort x = true ∨ x.blankEnd ≤ s.time.raw) →
        (cmpActs s k = false → exec (.cmpTrip k zone) s = .next (updCmp k (fun y => { y with tripped := true }) u))
        ∧ (cmpActs s k = true → oneLeg s n x.targets → ∃ t, exec (.cmpTrip k zone) s = .next t ∧ tripped (updCmp k (fun y => { y with tripped := true }) u) t (if 3 ≤ zone then 2 else 1) x.targets)))
    ∧ (∀ k < 32, exec (.cmpRelease k) s = .next (updCmp k (fun x => { x with zone := 0, tripped := false }) s))
    ∧ (∀ (k : Nat) (x : Comparator) (u : State), k < 32 → x = getCmp s k → x.blankEnd ≠ 0 → u = updCmp k (fun y => { y with blankEnd := 0 }) (advanceTo x.blankEnd s) →
      ((cmpZoneOn x = false ∨ cmpShort x = true) → exec (.blankingEnd k) s = .next u)
      ∧ (cmpZoneOn x = true → cmpShort x = false → cmpActs s k = false → exec (.blankingEnd k) s = .next (updCmp k (fun y => { y with tripped := true }) u))
      ∧ (cmpZoneOn x = true → cmpShort x = false → cmpActs s k = true → oneLeg s n x.targets → ∃ t, exec (.blankingEnd k) s = .next t ∧ tripped (updCmp k (fun y => { y with tripped := true }) u) t 1 x.targets))
    ∧ (∀ k, (getCmp s k).blankEnd = 0 → exec (.blankingEnd k) s = .next s)
    ∧ (∀ (k : Nat) (bits : List Bool) (x : FastDet) (y : SenseCh) (u : State), k < 48 → x = getFoc s k → y = getSense s k →
      (y.focDec = 0 ∨ mclkRuns s (k / 6) = false ∨ y.stuck = true ∨ (x.lowEn = false ∨ f32Val x.lo ≤ focOut y bits) ∧ (x.highEn = false ∨ focOut y bits ≤ f32Val x.hi) → u = updFoc k (fun z => { z with bits := bits, tripped := false }) s →
        exec (.focTrip k bits) s = .next u ∧ exec (.focRelease k bits) s = .next u)
      ∧ (y.focDec ≠ 0 → mclkRuns s (k / 6) = true → y.stuck = false → (x.lowEn = true ∧ focOut y bits < f32Val x.lo) ∨ (x.highEn = true ∧ f32Val x.hi < focOut y bits) →
          u = updFoc k (fun z => { z with bits := bits, tripped := true }) s →
        (x.tripped = true ∨ focActs s k = false → exec (.focTrip k bits) s = .next u)
        ∧ (x.tripped = false → focActs s k = true → oneLeg s n x.targets → ∃ t, exec (.focTrip k bits) s = .next t ∧ tripped u t 3 x.targets)
        ∧ exec (.focRelease k bits) s = .next s))
    ∧ (∀ (h c : Nat) (high short : Bool) (u : State), h < 8 → c = 80 + 2 * h + (if high then 0 else 1) →
        u = updHb h (fun x => if high then { x with hsVds := if short then 2 else 1, hsLatch := some (if short then 5 else 4), wordDue := true } else { x with lsVds := if short then 2 else 1, lsLatch := some (if short then 5 else 4), wordDue := true }) s →
      ((chanCommanded s c = true ∨ precharging s c = true) → (short = true ∨ commandedSince s c + 10 * (getHb s h).vdsBlank ≤ s.time.raw) → underTest s 3 h = false →
        (dieHolds s c = false ∨ (getChan s c).fault.isSome = true ∨ chanStage s c = none → exec (.hbMonitorTrip h high short) s = .next u)
        ∧ (dieHolds s c = true → (getChan s c).fault = none → oneLeg s n [c] → exec (.hbMonitorTrip h high short) s = .next (updChan c (fun x => { x with rawFault := some s.time.raw }) u)))
      ∧ ((chanCommanded s c = false ∧ precharging s c = false) ∨ (short = false ∧ s.time.raw < commandedSince s c + 10 * (getHb s h).vdsBlank) ∨ underTest s 3 h = true → exec (.hbMonitorTrip h high short) s = .next s))
    ∧ (∀ (h a b : Nat) (v : F32) (u : State), h < 8 → u = updHb h (fun y => { y with hsVds := a, lsVds := b, wordDue := false, vBoot := v, bootLow := y.bootLow && f32Lt v 0x4109999A#32 }) s →
      ((getHb s h).wordDue = false ∨ (getHb s h).hsLatch = none ∧ (getHb s h).lsLatch = none → exec (.hbStatusWord h a b v) s = .next u)
      ∧ (∀ f, (getHb s h).wordDue = true → (getHb s h).hsLatch = some f → (getHb s h).lsLatch = none → oneLeg s n [80 + 2 * h] → ∃ t, exec (.hbStatusWord h a b v) s = .next t ∧ tripped u t f [80 + 2 * h])
      ∧ (∀ f, (getHb s h).wordDue = true → (getHb s h).hsLatch = none → (getHb s h).lsLatch = some f → oneLeg s n [81 + 2 * h] → ∃ t, exec (.hbStatusWord h a b v) s = .next t ∧ tripped u t f [81 + 2 * h])
      ∧ (∀ f g, (getHb s h).wordDue = true → (getHb s h).hsLatch = some f → (getHb s h).lsLatch = some g → oneLeg s n [80 + 2 * h, 81 + 2 * h] → ∃ t, exec (.hbStatusWord h a b v) s = .next t
          ∧ (getChan t (80 + 2 * h)).fault = some ((getChan s (80 + 2 * h)).fault.getD f) ∧ (getChan t (81 + 2 * h)).fault = some ((getChan s (81 + 2 * h)).fault.getD g)
          ∧ (∀ c, c ∉ [80 + 2 * h, 81 + 2 * h] → getChan t c = getChan s c) ∧ t = { u with pwm := { u.pwm with channels := t.pwm.channels }, evt := t.evt, cap := t.cap })
      ∧ (f32Lt v 0x41000000#32 = false → exec (.bootstrapUndervoltage h v) s = .next s)
      ∧ (f32Lt v 0x41000000#32 = true → targetLive s (80 + 2 * h) = false ∨ underTest s 3 h = true → exec (.bootstrapUndervoltage h v) s = .next (updHb h (fun y => { y with bootLow := true, vBoot := v }) s))
      ∧ (f32Lt v 0x41000000#32 = true → targetLive s (80 + 2 * h) = true → underTest s 3 h = false → ∃ t, exec (.bootstrapUndervoltage h v) s = .next t ∧ tripped (updHb h (fun y => { y with bootLow := true, vBoot := v }) s) t 6 [80 + 2 * h]))
    ∧ (∀ v : F32, f32Bad v = false →
      (driverBeyond false 0 v = true ↔ f32Val v ≤ 98 / 10) ∧ (driverBeyond false 1 v = true ↔ f32Val v ≤ 9 ∨ 165 / 10 ≤ f32Val v) ∧ (driverBeyond false 2 v = true ↔ 95 / 10 ≤ f32Val v ∧ f32Val v ≤ 16)
      ∧ (driverBeyond true 0 v = true ↔ 150 ≤ f32Val v) ∧ (driverBeyond true 1 v = true ↔ 175 ≤ f32Val v) ∧ (driverBeyond true 2 v = true ↔ f32Val v ≤ 160))
    ∧ (∀ (temp : Bool) (level held : Nat) (v : F32) (u : State), u = (if temp then { s with pwm := { s.pwm with dieTemp := v } } else { s with pwm := { s.pwm with vdrv := v } }) →
      (held < 1000 ∨ driverBeyond temp level v = false → exec (.driverSupply temp level v held) s = .next u)
      ∧ (1000 ≤ held → driverBeyond temp level v = true → ∀ w, w = post 0x0903#16 (if temp then 1 else 0) (n8 level ++ zeros 3 ++ le32 v) u →
        (level = 0 → exec (.driverSupply temp level v held) s = .next (if temp then { w with pwm := { w.pwm with tempWarn := true } } else { w with pwm := { w.pwm with vdrvWarn := true } }))
        ∧ (level = 2 → exec (.driverSupply temp level v held) s = .next (if temp then { w with pwm := { w.pwm with tempWarn := driverBeyond true 0 v, tempShut := false } } else { w with pwm := { w.pwm with vdrvWarn := driverBeyond false 0 v, vdrvShut := false } }))
        ∧ (level = 1 → ∃ t, exec (.driverSupply temp level v held) s = .next t ∧ t.loop = s.loop ∧ t.sys = s.sys ∧ (if temp then t.pwm.tempShut = true ∧ t.pwm.tempWarn = true ∧ t.pwm.dieTemp = v else t.pwm.vdrvShut = true ∧ t.pwm.vdrvWarn = (driverBeyond false 0 v || s.pwm.vdrvWarn) ∧ t.pwm.vdrv = v)
          ∧ ∀ c < 96, (getChan t c).fault = if 80 ≤ c ∧ chanOut s c = true then some ((getChan s c).fault.getD (if temp then 8 else 7)) else (getChan s c).fault)))

/-- While no source is in its trip condition: a source that is not armed takes its settings in range; THRESH_ONLY changes only the thresholds, also on an armed one; the reply to a comparator gives its four codes. A comparator keeps the zone last reported for its pin and a fast detector is evaluated on the bits it holds: one that its new settings find in its trip condition is tripped, and if a target's stage is not OFF it faults every target, causes 1, 2 and 3. A request without THRESH_ONLY of an armed source of kinds 0 to 3 answers E_STATE and changes nothing. A half-bridge whose stages are OFF takes its settings, a channel of an OFF stage its leg. PROT_SELFTEST of sources that are not armed is accepted; at its end the operation completes with OK if no source under test failed, else with E_VERIFY and one event 0x0904 per failed source, a comparator whose difference exceeds 8 codes among them; with none in progress its end does nothing (log 4). PROT_STATUS answers and changes nothing. Which sources fail, and with what difference, the row tells (log 15); the codes of the thresholds are rounded as log 60 says; the model's other choices in it are in log entries 139, 140, 141, 144, 171. -/
def Obligations.ProtectionRequests : Prop :=
  ∀ (via : Transport) (s : State) (r : Req) (p : Bytes), s.sys.dev ≠ .boot → p = reqParams r → Sized s → quiet s →
    (∀ (k fl : Nat) (th : List F32) (cs : List Nat), Takes 0x0900#16 via s r → p.length = 28 → n8At p 0 = 0 → n8At p 1 = k → k < 32 → n8At p 2 = fl → fl ≤ 7 → n8At p 3 ≤ 3 → n16At p 4 ≤ 2047 → zeroAt p 6 2 = true →
      targetsOk s (fl % 2 = 0 && decide (fl ≠ 0)) (targetsAt p 8) = true → th = [u32At p 12, u32At p 16, u32At p 20, u32At p 24] → (∀ y ∈ th, f32Bad y = false) → cs = th.map (dacCode (getSense s (48 + k))) →
      cs.getD 2 0 ≤ cs.getD 0 0 → cs.getD 0 0 < cs.getD 1 0 → cs.getD 1 0 ≤ cs.getD 3 0 →
      (fl % 2 = 0 → cmpArmed s k = false → (fl ≠ 0 → s.sense.refState = 2) → ∀ (y : Comparator) (w : State),
          y = { cmp0 with lowEn := decide (fl / 2 % 2 = 1), highEn := decide (fl / 4 % 2 = 1), hyst := n8At p 3, blank := n16At p 4, targets := targetsAt p 8, thresh := th, codes := cs, zone := (getCmp s k).zone } →
          w = updCmp k (fun x => { y with tripped := x.tripped && cmpZoneOn y }) (taken s via) →
        (cmpZoneOn y = false ∨ (∀ c ∈ y.targets, targetLive s c = false) ∨ underTest s 0 k = true → exec (.protConfigComparator via) s = replied r OK (cs.flatMap n16) w)
        ∧ (∀ n, cmpZoneOn y = true → (∃ c ∈ y.targets, targetLive s c = true) → underTest s 0 k = false → oneLeg s n y.targets → ∃ t, exec (.protConfigComparator via) s = replied r OK (cs.flatMap n16) t
            ∧ tripped (updCmp k (fun x => { x with tripped := true }) w) t (if cmpShort y then 2 else 1) y.targets))
      ∧ (fl % 2 = 1 → (cmpEnabled (getCmp s k) = true → s.sense.refState = 2) → exec (.protConfigComparator via) s = replied r OK (cs.flatMap n16) (updCmp k (fun x => { x with thresh := th, codes := cs }) (taken s via))))
    ∧ (∀ (k fl : Nat) (w : State), Takes 0x0900#16 via s r → p.length = 24 → n8At p 0 = 1 → n8At p 1 = k → k < 48 → n8At p 2 = fl → fl ≤ 7 → n8At p 3 = 0 → targetsOk s (fl % 2 = 0 && decide (fl ≠ 0)) (targetsAt p 4) = true →
      f32Bad (u32At p 8) = false → f32Bad (u32At p 12) = false → f32Lt (u32At p 8) (u32At p 12) = true → zeroAt p 16 8 = true → (fl % 2 = 0 → focArmed s k = false) →
      w = updFoc k (fun x => if fl % 2 = 1 then { x with lo := f32Param (u32At p 8), hi := f32Param (u32At p 12) } else
          { foc0 with lowEn := decide (fl / 2 % 2 = 1), highEn := decide (fl / 4 % 2 = 1), targets := targetsAt p 4, lo := f32Param (u32At p 8), hi := f32Param (u32At p 12), bits := x.bits }) (taken s via) →
      (focBeyond w k = false → exec (.protConfigFastDetector via) s = replied r OK [] w)
      ∧ (focBeyond w k = true → focActs w k = false → exec (.protConfigFastDetector via) s = replied r OK [] (updFoc k (fun x => { x with tripped := true }) w))
      ∧ (∀ n, focBeyond w k = true → focActs w k = true → oneLeg s n (getFoc w k).targets → ∃ t, exec (.protConfigFastDetector via) s = replied r OK [] t
          ∧ tripped (updFoc k (fun x => { x with tripped := true }) w) t 3 (getFoc w k).targets))
    ∧ (∀ c : Nat, Takes 0x0900#16 via s r → p.length = 4 → n8At p 0 = 2 → n8At p 1 = c → c < 80 → n8At p 2 ≤ 1 → n8At p 3 = 0 → fltArmed s c = false →
      exec (.protConfigFltInput via) s = replied r OK [] (updFlt c (fun x => { x with enable := decide (n8At p 2 = 1) }) (taken s via)))
    ∧ (∀ h : Nat, Takes 0x0900#16 via s r → p.length = 16 → n8At p 0 = 3 → n8At p 1 = h → h < 8 → hbArmed s h = false → 2 ≤ n8At p 2 → n8At p 2 ≤ 64 → 2 ≤ n8At p 3 → n8At p 3 ≤ 64 → 4 ≤ n8At p 4 → n8At p 4 ≤ 12 →
      5 ≤ n8At p 5 → n8At p 5 ≤ 100 → 80 ≤ n8At p 6 → n8At p 6 ≤ 99 → n8At p 7 = 0 → 60 ≤ n16At p 8 → n16At p 8 ≤ 500 → (n16At p 10 = 0 ∨ 10 ≤ n16At p 10) → n16At p 10 ≤ 1000 → zeroAt p 12 4 = true →
      (∀ t, chanTimer s (80 + 2 * h) = some t → 16 * (n16At p 8 + (getChan s (80 + 2 * h)).dtF) ≤ shortest s t) →
      exec (.protConfigHalfBridge via) s = replied r OK [] (updHb h (fun x => { x with vdsHs := n8At p 2, vdsLs := n8At p 3, vdsShort := n8At p 4, vdsBlank := n8At p 5, refreshThr := n8At p 6, tRefresh := n16At p 8, tPrecharge := n16At p 10 }) (taken s via)))
    ∧ (∀ c l : Nat, Takes 0x0900#16 via s r → p.length = 4 → n8At p 0 = 4 → n8At p 1 = c → c < 96 → n8At p 2 = l → (l ≤ 15 ∨ l = 0xFF) → n8At p 3 = 0 → allOff s [chanStage s c] →
      exec (.protConfigLeg via) s = replied r OK [] (updChan c (fun x => { x with leg := if l = 0xFF then none else some l }) (taken s via)))
    ∧ (Takes 0x0901#16 via s r → p.length = 16 → zeroAt p 10 2 = true → zeroAt p 13 3 = true → (u32At p 0 ≠ 0 ∨ u64At p 4 ≠ 0 ∨ byteAt p 12 ≠ 0) → s.pwm.selftest = none → classFull s 0x0901#16 = false → (u32At p 0 ≠ 0 → s.sense.refState = 2) →
      (∀ k < 32, (u32At p 0).getLsbD k = true → cmpArmed s k = false) → (∀ k < 48, (u64At p 4).getLsbD k = true → focArmed s k = false) → (∀ h < 8, (byteAt p 12).getLsbD h = true → hbArmed s h = false) →
      exec (.protSelftest via) s = accepted r 0 [] { taken s via with pwm := { s.pwm with selftest := some { cmp := u32At p 0, foc := u64At p 4, hb := byteAt p 12 } } })
    ∧ (Takes 0x0900#16 via s r → 4 ≤ p.length →
      (n8At p 0 = 0 → n8At p 1 < 32 → n8At p 2 % 2 = 0 → cmpArmed s (n8At p 1) = true → exec (.protConfigComparator via) s = replied r E_STATE [] (dropRequest s via))
      ∧ (n8At p 0 = 1 → n8At p 1 < 48 → n8At p 2 % 2 = 0 → focArmed s (n8At p 1) = true → exec (.protConfigFastDetector via) s = replied r E_STATE [] (dropRequest s via))
      ∧ (n8At p 0 = 2 → n8At p 1 < 80 → fltArmed s (n8At p 1) = true → exec (.protConfigFltInput via) s = replied r E_STATE [] (dropRequest s via))
      ∧ (n8At p 0 = 3 → n8At p 1 < 8 → hbArmed s (n8At p 1) = true → exec (.protConfigHalfBridge via) s = replied r E_STATE [] (dropRequest s via)))
    ∧ (s.pwm.selftest = none → ∀ cmp foc hb step diffs, exec (.protSelftestDone cmp foc hb step diffs) s = .next s)
    ∧ (∀ (t : SelfTest) (cmp c : U32) (foc : U64) (hb step : Byte) (diffs : List U16) (d : Nat → U16) (m : U16), s.pwm.selftest = some t → (∀ k, d k = if t.cmp.getLsbD k then diffs.getD k 0 else 0) →
        (∀ k < 32, c.getLsbD k = (t.cmp.getLsbD k && (cmp.getLsbD k || decide (8 < (d k).toNat)))) → (∀ k < 32, d k ≤ m) → (∃ k < 32, d k = m) →
      (c = 0 → foc &&& t.foc = 0 → hb &&& t.hb = 0 → exec (.protSelftestDone cmp foc hb step diffs) s =
        .next (endLong 0x0901#16 0 OK (zeros 16 ++ le16 m) { s with pwm := { s.pwm with selftest := none } }))
      ∧ (c ≠ 0 ∨ foc &&& t.foc ≠ 0 ∨ hb &&& t.hb ≠ 0 → ∃ u, exec (.protSelftestDone cmp foc hb step diffs) s =
        .next (endLong 0x0901#16 0 E_VERIFY (le32 c ++ le64 (foc &&& t.foc) ++ [hb &&& t.hb] ++ zeros 3 ++ le16 m) u) ∧ LogOnly { s with pwm := { s.pwm with selftest := none } } u
        ∧ ∀ fail : Nat → Nat → State → State, (∀ kind i z, fail kind i z = post 0x0904#16 i (n8 kind ++ [step] ++ zeros 2 ++ le16 (if kind = 0 then d i else 0)) z) →
            u = forEach ((List.range 8).filter (fun i => (hb &&& t.hb).getLsbD i)) (fail 3) (forEach ((List.range 48).filter (fun i => (foc &&& t.foc).getLsbD i)) (fail 1)
              (forEach ((List.range 32).filter (fun i => c.getLsbD i)) (fail 0) { s with pwm := { s.pwm with selftest := none } }))))
    ∧ (Takes 0x0902#16 via s r → p = [] → exec (.protStatus via) s = replied r OK (protHead s ++ (List.range 96).map (fun c => (getChan s c).fault.getD 0xFF)) (taken s via))

/-- Outside SAFE and BOOT, a reason not yet latched puts the device in SAFE: no stage is STARTING, ENABLED or SHUTTING_DOWN, no gate output is on, both forming units are OFF, every governor queue is empty, SAFE_OFF and FAULT_N are low, and the cause is latched with all others kept. In SAFE a further reason only latches its cause; in BOOT likewise, without entering SAFE yet. A cause that is latched already changes nothing. -/
def Obligations.SafeStateForEveryReason : Prop :=
  ∀ (reason ch src : Nat) (s t : State), Sized s → 1 ≤ reason → reason ≤ 16 → t = safetyActs reason ch src s →
    (s.safe.causes.getLsbD (reason - 1) = true → t = s)
    ∧ (s.safe.causes.getLsbD (reason - 1) = false → t.safe.causes = s.safe.causes ||| (1#16 <<< (reason - 1)) ∧ t.time = s.time
      ∧ ((s.sys.dev = .safe ∨ s.sys.dev = .boot) → LogOnly { s with safe := t.safe } t)
      ∧ (s.sys.dev ≠ .safe → s.sys.dev ≠ .boot → t.sys.dev = .safe ∧ (∀ m < 8, (getStage t m).st = .off ∨ (getStage t m).st = .lockedOut) ∧ (∀ k < 96, chanOut t k = false)
          ∧ (∀ f ∈ t.fus, f.mode = .off) ∧ t.gov.release = [] ∧ t.gov.precharge = [] ∧ t.gov.pullin = [] ∧ t.sys.safeOffA = false ∧ t.sys.safeOffB = false ∧ t.sys.faultN = false
          ∧ t.safe.proc.safeBit = true ∧ t.safe.sorrel.safeBit = true ∧ t.safe.entries = s.safe.entries + 1 ∧ t.loop.mem = s.loop.mem))

/-- In RUN with no cause latched: a debounced low level of an SF2 or SF3 input acts with ESTOP or INTERLOCK, a held discrepancy with ESTOP_DISCREPANCY, a second own window without the test pulse with TEST_PULSE, 30 ms of contactor mismatch in a channel with CONTACTOR, an element's trip time with GRID, channels that disagreed 10 ms with CHANNEL, and LOCKSTEP, SAFETY_CLOCK and PARAM alike. In SAFE a permit goes after its delay. The safety cycle takes debounced levels and notes whether the channels agree. The reconnection wait ends, and 24 h of RUN post event 0x0A05 once. In every state a debounce that has expired takes the raw level, and each of these events that finds nothing due, its block, timer, window or permit absent or its fault already latched, does nothing (log 4). Whether the channels disagree by a fault and whether the recheck passes the rows tell (log 80). What happens to permits and contactors in SAFE is partly the model's choice (log 83), as are its other choices in log entries 76, 78, 79, 81, 163. -/
def Obligations.SafetyFunctionsAct : Prop :=
  ∀ (s : State), Sized s →
    (∃ t, exec .safetyCycle s = .next t ∧ (t.safe.disagree = none ↔ channelsAgree t = true) ∧ ((∀ n < 16, debounced s 1 n = false) → t.safe.proc = s.safe.proc)
        ∧ (∀ n < 16, debounced s 1 n = true → s.safe.proc.raw.getLsbD n = true → t.safe.proc.level.getLsbD n = true))
    ∧ (∀ ch n, debounced s ch n = false → exec (.safetyDebounceExpiry ch n) s = .next s)
    ∧ (∀ ch n, ch < 2 → n < 16 → debounced s ch n = true → (safeView s ch).raw.getLsbD n = true → ∃ t, exec (.safetyDebounceExpiry ch n) s = .next t ∧ (safeView t ch).level.getLsbD n = true
        ∧ t.safe.causes = s.safe.causes ∧ t.sys = s.sys ∧ t.loop = s.loop ∧ t.pwm = s.pwm)
    ∧ (s.sys.dev = .run → s.safe.causes = 0 → s.sys.phase ≠ .inReset →
      (∀ ch n b, ch < 2 → n < 16 → debounced s ch n = true → (safeView s ch).raw.getLsbD n = false → s.safe.block = some b →
        (sf2On b = true → n = n8At b 0x0C ∨ n = n8At b 0x0D → ∃ t, exec (.safetyDebounceExpiry ch n) s = .next t ∧ actedFor s t 4 ∧ (safeView t ch).level.getLsbD n = false)
        ∧ (¬ (sf2On b = true ∧ (n = n8At b 0x0C ∨ n = n8At b 0x0D)) → sf3On b = true → n = n8At b 0x14 → ∃ t, exec (.safetyDebounceExpiry ch n) s = .next t ∧ actedFor s t 6 ∧ (safeView t ch).level.getLsbD n = false))
      ∧ (∀ b i, s.safe.block = some b → s.safe.discSince = some i → s.safe.discLatch = false → ∃ t, exec .estopDiscrepancy s = .next t ∧ actedFor s t 5 ∧ t.safe.discLatch = true ∧ t.time.raw = max s.time.raw (i + 1000000 * n16At b 0x12))
      ∧ (∀ b src p, s.safe.block = some b → s.safe.test.window = some src → windowOver s.safe.test src = true → p ∈ pulsedInputs b → p.2.1 = src → p.1 < 16 → s.safe.test.missing.length = 16 → s.safe.test.allHigh.getLsbD p.1 = true →
        1 ≤ s.safe.test.missing.getD p.1 0 → ∃ t, exec .testPulseWindowEnd s = .next t ∧ actedFor s t 7 ∧ t.safe.test.window = none)
      ∧ (∀ c ch, c ∈ contactors s → c.k < 4 → ch < 2 → s.safe.cont.length = 4 → s.safe.contProc.length = 4 → s.safe.fresh = false → contWrong s ch c.k = true →
          (contWrong s (1 - ch) c.k = true → ((contView s ch).getD c.k contMon0).since ≤ ((contView s (1 - ch)).getD c.k contMon0).since) →
        ∃ t, exec (.contactorMismatch c.k) s = .next t ∧ actedFor s t 8 ∧ ((contView t ch).getD c.k contMon0).fault = true ∧ (contWrong s (1 - ch) c.k = true → ((contView t (1 - ch)).getD c.k contMon0).fault = true)
          ∧ t.time.raw = max s.time.raw (((contView s ch).getD c.k contMon0).since + 30000000))
      ∧ (∀ e b i, s.safe.block = some b → (s.safe.elems.getD e tripTimer0).since = some i → ∃ t, exec (.gridTrip e) s = .next t ∧ actedFor s t 9 ∧ t.safe.gridWait = (s.safe.gridWait || !s.safe.islandSet)
          ∧ t.time.raw = max s.time.raw (i + 1000000 * (tripElem b s.safe.islandSet e).time))
      ∧ (∃ t, exec .safetyLockstepMismatch s = .next t ∧ actedFor s t 12 ∧ t.time = s.time)
      ∧ (∀ i fault, s.safe.disagree = some i → ∃ t, exec (.channelDisagreement fault) s = .next t ∧ actedFor s t 11 ∧ t.time.raw = max s.time.raw (i + 10000000))
      ∧ (s.safe.disagree = none → exec (.channelDisagreement false) s = .next s ∧ ∃ t, exec (.channelDisagreement true) s = .next t ∧ actedFor s t 11)
      ∧ (∃ t, exec .safetyClock s = .next t ∧ actedFor s t 13 ∧ t.time = s.time)
      ∧ (s.safe.block ≠ none → ∃ t, exec (.paramRecheck false) s = .next t ∧ actedFor s t 15))
    ∧ exec (.paramRecheck true) s = .next s ∧ (s.safe.block = none → exec (.paramRecheck false) s = .next s)
    ∧ (∀ ch n, ch < 2 → n < 16 → debounced s ch n = true → ∃ t, exec (.safetyDebounceExpiry ch n) s = .next t ∧ (safeView t ch).level.getLsbD n = (safeView s ch).raw.getLsbD n)
    ∧ (s.safe.block = none ∨ s.safe.discSince = none ∨ s.safe.discLatch = true → exec .estopDiscrepancy s = .next s)
    ∧ ((s.safe.block = none ∨ s.safe.test.window = none ∨ ∃ src, s.safe.test.window = some src ∧ windowOver s.safe.test src = false) → exec .testPulseWindowEnd s = .next s)
    ∧ (∀ k, ((∀ c ∈ contactors s, c.k ≠ k) ∨ s.safe.fresh = true ∨ (contWrong s 0 k = false ∧ contWrong s 1 k = false)) →
        exec (.contactorMismatch k) s = .next s)
    ∧ (∀ e, (s.safe.block = none ∨ (s.safe.elems.getD e tripTimer0).since = none ∨ s.sys.dev ≠ .run) → exec (.gridTrip e) s = .next s)
    ∧ (s.sys.phase = .inReset → exec .safetyLockstepMismatch s = .next s ∧ exec .safetyClock s = .next s ∧ (s.safe.disagree = none → ∀ fault, exec (.channelDisagreement fault) s = .next s))
    ∧ (∀ ch k, ((∀ c ∈ contactors s, c.k ≠ k) ∨ s.sys.dev ≠ .safe ∨ (safeView s ch).permits.getLsbD k = false) → exec (.permitWithdraw ch k) s = .next s)
    ∧ ((s.safe.block = none ∨ s.safe.insideSince = none ∨ s.safe.gridWait = false) → exec .reconnectionWaitEnd s = .next s)
    ∧ ((s.safe.runSince = none ∨ s.safe.testDue = true) → exec .testDue s = .next s)
    ∧ (∀ b src, s.safe.block = some b → s.safe.test.window = some src → windowOver s.safe.test src = true → pulsedInputs b = [] →
        exec .testPulseWindowEnd s = .next { s with safe := { s.safe with test := { s.safe.test with window := none } } })
    ∧ (∀ ch k c, (contactors s).find? (fun c => c.k = k) = some c → s.sys.dev = .safe → ch < 2 → k < 4 → c.output < 8 → (safeView s ch).permits.getLsbD k = true → ∃ t, exec (.permitWithdraw ch k) s = .next t
        ∧ (safeView t ch).permits = (safeView s ch).permits &&& ~~~(1#4 <<< k) ∧ safeView t (1 - ch) = safeView s (1 - ch) ∧ t.field.doCmd = s.field.doCmd &&& ~~~(1#8 <<< c.output)
        ∧ t.time.raw = max s.time.raw ((safeView s ch).safeAt + 1000000 * c.delay) ∧ t.sys = s.sys)
    ∧ (∀ b i, s.safe.block = some b → s.safe.insideSince = some i → s.safe.gridWait = true →
        exec .reconnectionWaitEnd s = .next { advanceTo (i + 1000000000 * n16At b 0x2E) s with safe := { s.safe with gridWait := false } })
    ∧ (∀ i u, s.safe.runSince = some i → s.safe.testDue = false → u = advanceTo (i + (86400000000000 - s.safe.runTime)) s →
        exec .testDue s = .next (post 0x0A05#16 0 (n32 (testAge u)) { u with safe := { s.safe with testDue := true } }))

/-- In CONFIG and not COMMISSIONED, a block within R412 is loaded, none is committed any more, and the field die is sent that no output is named; in COMMISSIONED it and SAFE_COMMISSION are answered E_LOCKED, and with a safety memory row lost E_RESOURCE, which is the model's choice (log 116). SAFE_GET_CHECK returns both check values of the loaded or the committed block. SAFE_COMMISSION with the block's check value commits it with event 0x0A08 and sends the die the outputs it names, or, made persistent, is accepted and queues the OTP write in the lowest free slot; a wrong value answers E_VERIFY. SAFE_STATUS changes nothing. SAFE_ACK_FAULT that names the causes when nothing blocks leaves SAFE for CONFIG: no cause, gates released, no stage locked out, FAULT_N high; else it answers E_STATE with what blocks. The model's own choices in it are in log entries 77, 82, 85. -/
def Obligations.SafetyRequests : Prop :=
  ∀ (via : Transport) (s : State) (r : Req) (p : Bytes), p = reqParams r → Sized s →
    (s.sys.dev = .config → s.sys.lifecycle = .commissioned → (Takes 0x0A00#16 via s r → exec (.safeLoadParams via) s = replied r E_LOCKED [] (dropRequest s via))
      ∧ (Takes 0x0A02#16 via s r → exec (.safeCommission via) s = replied r E_LOCKED [] (dropRequest s via)))
    ∧ (Takes 0x0A00#16 via s r → s.sys.dev = .config → s.sys.lifecycle ≠ .commissioned → safeBlockOk p = true → safetyRamLost s = true →
      exec (.safeLoadParams via) s = replied r E_RESOURCE [] (dropRequest s via))
    ∧ (Takes 0x0A00#16 via s r → s.sys.dev = .config → s.sys.lifecycle ≠ .commissioned → safeBlockOk p = true → safetyRamLost s = false →
      exec (.safeLoadParams via) s = replied r OK [] (sendNames (dropPermits { taken s via with safe := { s.safe with loaded := some p, block := none, inOtp := false } })))
    ∧ (∀ b, Takes 0x0A01#16 via s r → s.sys.dev ≠ .boot → p.length = 4 → zeroAt p 1 3 = true → (n8At p 0 = 0 ∧ s.safe.loaded = some b ∨ n8At p 0 = 1 ∧ s.safe.block = some b) →
      exec (.safeGetCheck via) s = replied r OK (le32 (crc32 b) ++ le32 (crc32 b) ++ le32 (u32At b 8)) (taken s via))
    ∧ (∀ b, Takes 0x0A02#16 via s r → s.sys.dev = .config → (s.sys.lifecycle = .develop ∨ s.sys.lifecycle = .production) → s.safe.loaded = some b → p.length = 8 → zeroAt p 5 3 = true →
      (n8At p 4 = 0 → u32At p 0 = crc32 b → ∃ t, exec (.safeCommission via) s = replied r OK (n8 0xFF ++ zeros 3) t ∧ t.safe.block = some b ∧ t.safe.inOtp = false ∧ t.safe.fresh = true
        ∧ t = post 0x0A08#16 0 (n8 1 ++ zeros 3 ++ le32 (crc32 b)) (sendNames { taken s via with safe := t.safe }))
      ∧ (∀ g, n8At p 4 = 1 → freeSlotNow s 2 = some g → classFull s 0x0A02#16 = false → u32At p 0 = crc32 b →
        exec (.safeCommission via) s = accepted r g [] { taken s via with rel := { s.rel with jobs := s.rel.jobs ++ [.commission g b] } })
      ∧ (n8At p 4 = 0 → u32At p 0 ≠ crc32 b → exec (.safeCommission via) s = replied r E_VERIFY [] (dropRequest s via)))
    ∧ (Takes 0x0A03#16 via s r → s.sys.dev ≠ .boot → p = [] → exec (.safeStatus via) s = replied r OK (safeBytes s) (taken s via))
    ∧ (Takes 0x0A04#16 via s r → s.sys.dev = .safe →
      (blocking s ≠ 0 → exec (.safeAckFault via) s = replied r E_STATE (n32 (blocking s)) (dropRequest s via))
      ∧ (blocking s = 0 → p = le32 (s.safe.causes.zeroExtend 32) → s.rel.waiting = [] → ∃ t, exec (.safeAckFault via) s = replied r OK (zeros 4) t ∧ t.sys.dev = .config ∧ t.safe.causes = 0 ∧ t.safe.firstReason = 0
        ∧ t.pwm.gateProc = true ∧ t.pwm.gateSorrel = true ∧ t.sys.faultN = true ∧ (∀ m < 8, (getStage t m).st ≠ .lockedOut) ∧ t.safe.proc.safeBit = false ∧ t.safe.sorrel.safeBit = false ∧ t.safe.block = s.safe.block ∧ t.time = s.time))

/-- Once the link is started, a downlink frame takes the next sequence number, the output commands, both permit masks, the SAFE bits, the oldest waiting record and the test pulse of its place in the cycle. A lane that changes no bit and loses none delivers the frame; one of another length, or whose changed octets fail the check, is in error, and so is one that repeats the newest valid number. A downlink frame in error ends the run of valid frames; a valid one restarts the timeout, owes an answer in 5 us, takes its record, and drives the outputs as it says, none while the supply forbids it. An uplink frame carries the levels of inputs, sampled up to then, and of outputs, and a test-pulse source whose read-back differed in three frames as a mismatch; a valid one becomes the newest and stamps every changed input, frees the pull-in place of an output that it shows off and gives one to an output that it shows pulling in without, one in error counts only, and the record it acknowledges completes. What a valid uplink frame shows for the first time, an output fault, CHATTER, a VFIELD flag, a test-pulse mismatch or an output turned off, is reported then, 0x0B03, 0x0B05, 0x0B06 and 0x0B07, and an output turned off starts its shutdown. After the timeout the field die applies the safe states; after its own the control die acts with FIELD_LINK. The instants of the die are on its own time, which a warm reset of the control die leaves running (log 23). With no frame in flight, a link not started, or a timeout already reported nothing happens (log 4). What the die measures the row tells (log 15); the model's other choices in it are in log entries 85, 86, 90, 91, 161, 162, 185. -/
def Obligations.LinkFramesCarryCommandsAndInputs : Prop :=
  ∀ (s : State), Sized s →
    (s.field.started = true → nextRetire s 5 = none → s.field.swapNext = none → linkDead s = false →
      ∃ (t : State) (f : DownFrame), exec .downlinkSend s = .next t ∧ t.field.down = some f ∧ f.seq = s.field.seq + 1 ∧ t.field.seq = f.seq ∧ f.doCmd = s.field.doCmd ∧ t.field.sentCmd = f.doCmd
        ∧ f.permProc = permitMask s s.safe.proc ∧ f.permSorrel = permitMask s s.safe.sorrel ∧ f.safeProc = s.safe.proc.safeBit ∧ f.safeSorrel = s.safe.sorrel.safeBit ∧ f.record = s.field.mailbox.head?
        ∧ t.time.raw = max s.time.raw s.field.nextDown ∧ f.begun = t.time.raw ∧ t.field.nextDown % 10000 = 0 ∧ f.begun < t.field.nextDown ∧ t.field.nextDown ≤ f.begun + 10000
        ∧ t.safe.test.frame = (s.safe.test.frame + 1) % 2000 ∧ (∀ k < 4, f.tp.getLsbD k = false ↔ t.safe.test.frame / 500 = k ∧ t.safe.test.frame % 500 < 50)
        ∧ t.field.mailbox = s.field.mailbox ∧ t.field.outs = s.field.outs ∧ t.safe.causes = s.safe.causes ∧ t.sys = s.sys ∧ t.evt = s.evt)
    ∧ (s.field.started = false → exec .downlinkSend s = .next s)
    ∧ (s.field.started = true → s.field.swapNext = none → linkDead s = true → ∃ t, exec .downlinkSend s = .next t ∧ t.field.down = none ∧ t.field.seq = s.field.seq + 1 ∧ t.field.sentCmd = s.field.doCmd ∧ t.evt = s.evt)
    ∧ (∀ (lane : LaneErr) (f : DownFrame), (lane.len = 32 → (∀ x ∈ lane.flips, x = 0) → downArrives lane f = some f) ∧ (lane.len ≠ 32 → downArrives lane f = none)
        ∧ ((∃ x ∈ lane.flips, x ≠ 0) → frameOk (onLane lane (downOctets f)) = false → downArrives lane f = none) ∧ frameOk (downOctets f) = true)
    ∧ (∀ lane spare : LaneErr, s.field.down = none → exec (.downlinkReceive lane spare) s = .next s)
    ∧ (∀ (f : DownFrame) (lane spare : LaneErr) (w : State), s.field.down = some f →
      w = { advanceTo (f.begun + 2720) s with field := { s.field with down := none, spareDownErr := s.field.spareDownErr || (f.seq.toNat % 2 = 0 && (downArrives spare f).isNone && decide (0 < s.field.spareLanes)) } } →
      (s.field.dieStop = true → exec (.downlinkReceive lane spare) s = .next w)
      ∧ (s.field.dieStop = false → downArrives lane f = none ∨ (∃ g, downArrives lane f = some g ∧ g.seq = s.field.lastSeq ∧ s.field.timedOut = false) →
          exec (.downlinkReceive lane spare) s = .next { w with field := { w.field with goodRun := 0, downErr := true } })
      ∧ (∀ g k n, s.field.dieStop = false → downArrives lane f = some g → s.field.timedOut = true ∨ g.seq ≠ s.field.lastSeq → g.record = some { key := k, conf := .link n } → s.field.taken ≤ k →
          ∃ t, exec (.downlinkReceive lane spare) s = .next t ∧ t.field.timeout = n ∧ t.field.taken = k + 1 ∧ t.field.answerDue = some (dieNow t + 5000))
      ∧ (∀ g late tp, s.field.dieStop = false → downArrives lane f = some g → s.field.timedOut = true ∨ g.seq ≠ s.field.lastSeq →
          late = (s.field.timedOut && decide (s.field.goodRun + 1 < 8)) → tp = (if late = true then 0 else g.tp) → g.record = none →
        ∃ t, exec (.downlinkReceive lane spare) s = .next t ∧ t.time.raw = max s.time.raw (f.begun + 2720) ∧ t.field.down = none ∧ t.field.goodRun = s.field.goodRun + 1 ∧ t.field.timedOut = late ∧ t.field.lastDown = dieNow t
          ∧ t.field.answerDue = some (dieNow t + 5000) ∧ t.field.lastSeq = g.seq ∧ t.field.tpCmd = tp ∧ t.field.tpMis = s.field.tpMis ∧ t.field.ins = s.field.ins ∧ t.gov = s.gov ∧ t.evt = s.evt ∧ t.safe = s.safe
          ∧ (late = true → t.field.outs = s.field.outs)
          ∧ (late = false → ∀ o < 8, (getOutput t o).cmd = g.doCmd.getLsbD o
              ∧ (g.doCmd.getLsbD o = false → g.safeProc = false → g.safeSorrel = false → (getOutput t o).on = false)
              ∧ (supplyDrives s = false → (getOutput t o).on = false)
              ∧ (supplyDrives s = true → g.doCmd.getLsbD o = true → (getOutput s o).faults = 0 → (if s.field.named.getLsbD o = true then g.permProc.getLsbD o = true ∧ g.permSorrel.getLsbD o = true else g.safeProc = false ∧ g.safeSorrel = false) → (getOutput t o).on = true)
              ∧ (s.field.named.getLsbD o = true → (g.permProc.getLsbD o = false ∨ g.permSorrel.getLsbD o = false) → (getOutput t o).on = false)
              ∧ (s.field.named.getLsbD o = false → (g.safeProc = true ∨ g.safeSorrel = true) → safeLevel s o = false → (getOutput t o).on = false))))
    ∧ (∀ v temp cs (rd : BitVec 4) (w : State), s.field.started = true → s.field.dieStop = false → linkDead s = false → w = sampleInputs (dieAt (s.field.answerDue.getD (s.field.upLast + 10000)) s) →
        ∃ (t : State) (u : UpFrame), exec (.uplinkSend v temp cs rd) s = .next t ∧ t.field.up = some u
        ∧ (∀ n < 16, u.raw.getLsbD n = (getInput w n).raw ∧ u.debounced.getLsbD n = (getInput w n).level ∧ u.counts.getD n 0 = (getInput w n).count ∧ u.freqs.getD n 0 = (getInput w n).freq)
        ∧ (∀ o < 8, u.doApplied.getLsbD o = (getOutput s o).on ∧ u.faultCodes.getD o 0 = (getOutput s o).faults) ∧ u.edges = s.field.edges ∧ t.field.edges = 0 ∧ t.field.answerDue = none ∧ u.taken = s.field.taken
        ∧ u.tp = rd ∧ (∀ k < 4, u.tpMis.getLsbD k = decide (3 ≤ (if rd.getLsbD k = s.field.tpCmd.getLsbD k then 0 else s.field.tpBad.getD k 0 + 1)))
        ∧ u.seq = (if s.field.answerDue.isSome then s.field.lastSeq else s.field.upSeq + 1) ∧ u.sampled = t.time.raw ∧ t.time.raw = max s.time.raw (s.field.answerDue.getD (s.field.upLast + 10000) - s.field.clock0)
        ∧ t = { w with field := t.field } ∧ t.field.ins = w.field.ins ∧ ((∀ n < 16, (getInput s n).raw = ((getInput s n).pin && readable s)) → t.field.ins = s.field.ins))
    ∧ (s.field.started = false ∨ s.field.dieStop = true → ∀ v temp cs rd, exec (.uplinkSend v temp cs rd) s = .next s)
    ∧ (s.field.started = true → s.field.dieStop = false → linkDead s = true → ∀ v temp cs rd, ∃ t, exec (.uplinkSend v temp cs rd) s = .next t ∧ t.field.up = none ∧ t.field.answerDue = none ∧ t.field.edges = 0)
    ∧ (∀ (lane : LaneErr) (u : UpFrame) (x : Option UpFrame), (lane.len = 32 → (∀ y ∈ lane.flips, y = 0) → upArrives lane u x = some u) ∧ (lane.len ≠ 32 → upArrives lane u x = none)
        ∧ ((∃ y ∈ lane.flips, y ≠ 0) → frameOk (onLane lane (upOctets u)) = false → upArrives lane u x = none) ∧ frameOk (upOctets u) = true)
    ∧ (∀ lane spare : LaneErr, s.field.up = none → exec (.uplinkReceive lane spare) s = .next s)
    ∧ (∀ (u : UpFrame) (lane spare : LaneErr), s.field.up = some u → (upArrives spare u s.field.newest).isSome = true ∨ u.seq.toNat % 2 = 0 ∨ s.field.spareLanes = 0 →
      (upArrives lane u s.field.newest = none ∨ (∃ v b, upArrives lane u s.field.newest = some v ∧ s.field.newest = some b ∧ b.seq = v.seq ∧ s.field.linkUp = true) →
        ∃ t, exec (.uplinkReceive lane spare) s = .next t ∧ t.field.up = none ∧ t.field.crcErrors = s.field.crcErrors + 1 ∧ t.field.newest = s.field.newest ∧ t.field.framesOk = s.field.framesOk ∧ t.field.lastUp = s.field.lastUp
          ∧ t.safe = s.safe ∧ t.loop = s.loop ∧ t.pwm = s.pwm ∧ t.sys = s.sys)
      ∧ (∀ v, upArrives lane u s.field.newest = some v → (∀ b, s.field.newest = some b → s.field.linkUp = true → b.seq ≠ v.seq) → ∃ t, exec (.uplinkReceive lane spare) s = .next t ∧ t.field.newest = some v ∧ t.field.framesOk = s.field.framesOk + 1)
      ∧ (∀ (v b : UpFrame) (w : State), upArrives lane u s.field.newest = some v → b = s.field.newest.getD upFrame0 → (s.field.newest = none ∨ s.field.linkUp = false ∨ b.seq ≠ v.seq) →
          v.dieLost = false → v.status.getLsbD 4 = false → v.spareErr = false → s.safe.block = none →
          w = { advanceTo (u.sampled + 3220) s with safe := { s.safe with test := { s.safe.test with seen := answeredFrame s v } }, field := { s.field with up := none, newest := some v, framesOk := s.field.framesOk + 1, lastUp := max s.time.raw (u.sampled + 3220), linkUp := true, linkLost := false, stamps := w.field.stamps, cleared := w.field.cleared, clearDue := 0, mailbox := [], owner := w.field.owner } } →
          w.field.cleared.length = s.field.cleared.length → (∀ n < s.field.cleared.length, w.field.cleared.getD n 0 = if s.field.clearDue.getLsbD n then v.counts.getD n 0 else s.field.cleared.getD n 0) →
          w.field.stamps.length = s.field.stamps.length → (∀ n < s.field.stamps.length, w.field.stamps.getD n 0 = if v.debounced.getLsbD n = b.debounced.getLsbD n then s.field.stamps.getD n 0 else timeAt (advanceTo (u.sampled + 3220) s) v.sampled) →
          (∀ o < 8, noNews v b → s.field.mailbox = [] → w.field.owner = s.field.owner → (v.seq - s.field.onSeq.getD o 0).toInt ≥ 0 → (∀ q < 8, q ≠ o → (q ∈ s.gov.inPullin → v.doApplied.getLsbD q = true) ∧ (q ∉ s.gov.inPullin → v.pulling.getLsbD q = false)) →
            (o ∈ s.gov.inPullin → s.gov.pullin = [] → v.doApplied.getLsbD o = false → v.status.getLsbD 3 = false → exec (.uplinkReceive lane spare) s = .next (freePullin o w))
            ∧ (o ∉ s.gov.inPullin → v.pulling.getLsbD o = true → s.field.doCmd.getLsbD o = true → exec (.uplinkReceive lane spare) s = .next { w with gov := { w.gov with inPullin := s.gov.inPullin ++ [o] } }))
          ∧ ((∀ o < 8, (o ∈ s.gov.inPullin → v.doApplied.getLsbD o = true) ∧ (o ∉ s.gov.inPullin → v.pulling.getLsbD o = false)) →
          (s.field.mailbox = [] → w.field.owner = s.field.owner →
            (noNews v b → exec (.uplinkReceive lane spare) s = .next w)
            ∧ (∀ o < 8, noNews v { b with faultCodes := v.faultCodes } → v.faultCodes.getD o 0 &&& ~~~(b.faultCodes.getD o 0) ≠ 0 → (∀ q, q ≠ o → v.faultCodes.getD q 0 = b.faultCodes.getD q 0) →
                exec (.uplinkReceive lane spare) s = .next { w with evt := (post 0x0B03#16 o (n8 (v.faultCodes.getD o 0).toNat ++ zeros 3 ++ le32 (v.faultCurs.getD o 0)) w).evt, cap := (post 0x0B03#16 o (n8 (v.faultCodes.getD o 0).toNat ++ zeros 3 ++ le32 (v.faultCurs.getD o 0)) w).cap })
            ∧ (∀ n < 16, noNews v { b with chatter := v.chatter } → v.chatter &&& ~~~b.chatter = 1#16 <<< n → ∃ t, exec (.uplinkReceive lane spare) s = .next t ∧ LogOnly w t ∧ t.evt = (postMerge 0x0B05#16 n (le32 (v.counts.getD n 0 - w.field.cleared.getD n 0)) w).evt)
            ∧ (∀ k < 3, noNews v { b with status := v.status } → v.status ^^^ b.status = 1#5 <<< k →
                ∃ t, exec (.uplinkReceive lane spare) s = .next t ∧ LogOnly w t ∧ t.evt = (post 0x0B06#16 0 (n8 (if v.status.getLsbD k then k else 3) ++ zeros 3 ++ le32 (vFieldOf v)) w).evt)
            ∧ (∀ n < 4, noNews v { b with tpMis := v.tpMis } → v.tpMis &&& ~~~b.tpMis = 1#4 <<< n → ∃ t, exec (.uplinkReceive lane spare) s = .next t ∧ LogOnly w t ∧ t.evt = (post 0x0B07#16 n (n8 (flag ((tpOf (answeredFrame s v)).getLsbD n) 0)) w).evt)
            ∧ (∀ o < 8, noNews v { b with doApplied := v.doApplied } → b.doApplied ^^^ v.doApplied = 1#8 <<< o → b.doApplied.getLsbD o = true → exec (.uplinkReceive lane spare) s = .next (outputStops o w)))
          ∧ (∀ k o x st p h od, noNews v b → s.field.mailbox = [{ key := k, conf := .output o x st p h od }] → k < v.taken → w.field.owner = upd s.field.owner o (fun _ => x) →
              ∃ w2, exec (.uplinkReceive lane spare) s = .next w2 ∧ w2.field = w.field ∧ w2.safe.test = w.safe.test ∧ ReplyOnly w w2))))
    ∧ (s.field.timedOut = false → s.field.dieStop = false →
      ∃ t, exec .fieldLinkTimeout s = .next t ∧ t.field.timedOut = true ∧ t.field.goodRun = 0 ∧ t.field.dieLost = true ∧ t.field.tpCmd = 0 ∧ t.time.raw = max s.time.raw (s.field.lastDown + 1000 * s.field.timeout - s.field.clock0) ∧ t.evt = s.evt ∧ t.safe = s.safe
        ∧ ∀ o < 8, (safeLevel s o = false → (getOutput t o).on = false) ∧ (safeLevel s o = true → holdsOff (getOutput s o) = false → supplyDrives s = true → (getOutput t o).on = true))
    ∧ (s.field.started = true → s.field.linkLost = false → s.sys.dev = .run → s.safe.causes = 0 →
      ∃ t, exec .linkLost s = .next t ∧ actedFor s t 10 ∧ t.field.linkUp = false ∧ t.field.linkLost = true ∧ t.field.timeouts = s.field.timeouts + 1 ∧ t.time.raw = max s.time.raw (s.field.lastUp + 1000 * s.field.timeout))
    ∧ (s.field.timedOut = true ∨ s.field.dieStop = true → exec .fieldLinkTimeout s = .next s) ∧ (s.field.started = false ∨ s.field.linkLost = true → exec .linkLost s = .next s)

/-- A VFIELD level that stands already, lies within the thresholds of R422, or has held for less than 10 us changes nothing. The
warning shows its flag; undervoltage and overvoltage latch VSUPPLY and turn every output off, and undervoltage or the die stop reads
every input low, until release; no event comes before an uplink frame shows it. A voltage beyond an input's threshold levels that
lasts as long as the front end needs gives it that level: the next sample, every 1 us, takes it, is counted as configured and starts
the debounce, DI12 to DI15 counting at once; after a debounce that no sample broke the debounced level follows and CHATTER ends.
Between the levels the level is free. A gate's end gives the frequency of the edges counted. Pull-in ends at its time and frees its
place. OVERCURRENT, OPEN_LOAD, SHORT_VFIELD and THERMAL have the conditions of R429, timed from the begin of the pull-in or the
economised drive, or from the command off: a new one is latched, and OVERCURRENT and THERMAL turn the output off; else nothing is
latched. A shutdown ends once the output is off with less than 20 mA and the newest uplink frame shows both. With a link in service,
a configuration in range of an input, of an output off and not commanded, or in CONFIG of the link timeout waits in the mailbox;
nothing else changes. FIO_WRITE off of a host output takes its command back and starts its shutdown; on, in RUN with permits, it
commands it, takes a pull-in place where the output pulls in, or waits for one as DEFERRED; one that is on or waits answers OK. A host
output is not switched on outside RUN. FIO_READ returns the fields and clears the counters it names. Where nothing of it applies,
nothing happens (log 4). The instants of the die are on its own time (log 23); what it measures the rows tell (log 15); how the
control die knows of a pull-in is the model's choice (logs 162, 185), as are its other choices in log entries 84, 87, 90, 134, 160, 161. -/
def Obligations.FieldDieAndItsRequests : Prop :=
  (∀ (s : State), Sized s →
    (∀ v : F32, (vBeyond 0 true v = true ↔ f32Val v < 17 / 2) ∧ (vBeyond 0 false v = true ↔ 44 / 5 < f32Val v) ∧ (vBeyond 1 true v = true ↔ f32Val v < 7) ∧ (vBeyond 1 false v = true ↔ 15 / 2 < f32Val v)
        ∧ (vBeyond 2 true v = true ↔ 40 < f32Val v) ∧ (vBeyond 2 false v = true ↔ f32Val v < 38) ∧ (vBeyond 3 true v = true ↔ f32Val v < 9 / 2) ∧ (vBeyond 3 false v = true ↔ 5 < f32Val v))
    ∧ (∀ kind v on held, kind ≤ 3 → (on = (match kind with | 0 => s.field.warn | 1 => s.field.underV | 2 => s.field.overV | _ => s.field.dieStop) ∨ vBeyond kind on v = false ∨ held < 10000) → exec (.vfield kind on v held) s = .next s)
    ∧ (∀ v on held, 10000 ≤ held →
        (vBeyond 0 on v = true → s.field.warn = !on → exec (.vfield 0 on v held) s = .next { s with field := { s.field with warn := on, vField := v } })
        ∧ (vBeyond 2 false v = true → s.field.overV = true → exec (.vfield 2 false v held) s = .next { s with field := { s.field with overV := false, vField := v } })
        ∧ (vBeyond 1 false v = true → s.field.underV = true → ∃ t, exec (.vfield 1 false v held) s = .next t ∧ t.field.underV = false ∧ (s.field.dieStop = false → ∀ n < 16, (getInput t n).pinSince = dieNow s ∧ (getInput t n).pin = (getInput s n).pin ∧ (getInput t n).raw = (if dieNow s % 1000 = 0 then (getInput s n).pin else (getInput s n).raw)) ∧ t.field.outs = s.field.outs ∧ t.evt = s.evt ∧ t.safe = s.safe)
        ∧ (vBeyond 3 false v = true → s.field.dieStop = true → ∃ t, exec (.vfield 3 false v held) s = .next t ∧ t.field.dieStop = false ∧ t.field.timedOut = true ∧ t.field.goodRun = 0 ∧ t.field.outs = s.field.outs ∧ t.evt = s.evt ∧ t.safe = s.safe)
        ∧ (vBeyond 3 true v = true → s.field.dieStop = false → ∃ t, exec (.vfield 3 true v held) s = .next t ∧ t.field.dieStop = true ∧ t.field.timedOut = true ∧ t.field.up = none ∧ t.field.answerDue = none ∧ (∀ o < 8, (getOutput t o).on = false) ∧ (s.field.underV = false ∨ (∀ n < 16, (getInput s n).raw = false) → ∀ n < 16, (getInput t n).raw = false) ∧ t.time = s.time ∧ t.safe = s.safe ∧ t.evt = s.evt))
    ∧ ((∀ o < 8, (getOutput s o).faults.getLsbD 4 = true → (getOutput s o).on = false) → ∀ v held, 10000 ≤ held →
        (vBeyond 1 true v = true → s.field.underV = false → ∃ t, exec (.vfield 1 true v held) s = .next t ∧ t.field.underV = true ∧ (∀ o < 8, (getOutput t o).faults.getLsbD 4 = true ∧ (getOutput t o).on = false) ∧ (s.field.dieStop = false ∨ (∀ n < 16, (getInput s n).raw = false) → ∀ n < 16, (getInput t n).raw = false) ∧ t.time = s.time ∧ t.safe = s.safe ∧ t.evt = s.evt)
        ∧ (vBeyond 2 true v = true → s.field.overV = false → ∃ t, exec (.vfield 2 true v held) s = .next t ∧ t.field.overV = true ∧ (∀ o < 8, (getOutput t o).faults.getLsbD 4 = true ∧ (getOutput t o).on = false) ∧ t.field.ins = s.field.ins ∧ t.time = s.time ∧ t.safe = s.safe ∧ t.evt = s.evt))
    ∧ (∀ (n held : Nat) (v : F32) (x : FieldIn), n < 16 → x = getInput s n →
        (∀ level : Bool, x.raw = (x.pin && readable s) → (if 12 ≤ n then 2000 else 20000) ≤ held → (level = true ∧ (if x.threshold = 0 then 15 else if x.threshold = 1 then 11 else 13 / 2) ≤ f32Val v) ∨ (level = false ∧ f32Val v ≤ (if x.threshold ≤ 1 then 5 else 7 / 2)) →
          (level = x.pin → exec (.fieldInputEdge n v held) s = .next (updInput n (fun x => { x with volts := v }) s))
          ∧ (level ≠ x.pin → readable s = true → (∀ i, (if level = true then x.lastRise else x.lastFall) = some i → i + 1000000000 / (if 12 ≤ n then 100000 else 10000) ≤ dieNow s) → ∃ t, exec (.fieldInputEdge n v held) s = .next t
            ∧ (getInput t n).pin = level ∧ (getInput t n).pinSince = dieNow s ∧ (getInput t n).volts = v ∧ (getInput t n).level = x.level ∧ (getInput t n).raw = (if dieNow s % 1000 = 0 then level else x.raw)
            ∧ (dieNow s % 1000 = 0 → (getInput t n).rawSince = dieNow s)
            ∧ (getInput t n).count = (if (12 ≤ n ∨ dieNow s % 1000 = 0) ∧ (x.countEdge = 3 ∨ x.countEdge = 1 ∧ level = true ∨ x.countEdge = 2 ∧ level = false) then x.count + 1 else x.count)
            ∧ (∀ m, m ≠ n → getInput t m = getInput s m) ∧ t = { s with field := { s.field with ins := t.field.ins } }))
        ∧ (∃ t, exec (.fieldInputEdge n v held) s = .next t ∧ (getInput t n).level = x.level ∧ (∀ m, m ≠ n → getInput t m = getInput s m) ∧ t.evt = s.evt))
    ∧ (∀ n x fin, getInput s n = x → fin = x.rawSince + 1000 * x.debounce →
        (x.raw = (x.pin && readable s) →
          (x.raw = x.level → x.chatter = false → exec (.inputDebounceExpiry n) s = .next s)
          ∧ (x.raw = x.level → x.chatter = true → exec (.inputDebounceExpiry n) s = .next (updInput n (fun y => { y with chatter := false, trans := [] }) (dieAt fin s)))
          ∧ (x.raw ≠ x.level → exec (.inputDebounceExpiry n) s = .next (updField (fun f => { f with edges := f.edges ||| (1#16 <<< n), ins := upd f.ins n (fun y => { y with level := y.raw, chatter := false, trans := [] }) }) (dieAt fin s))))
        ∧ (n < 16 → x.raw ≠ x.level → x.raw ≠ (x.pin && readable s) → dieNow s < sampleAt x.pinSince → x.rawSince < sampleAt x.pinSince → sampleAt x.pinSince ≤ fin →
          ∃ t, exec (.inputDebounceExpiry n) s = .next t ∧ (getInput t n).level = x.level ∧ (getInput t n).raw = x.level ∧ (getInput t n).rawSince = sampleAt x.pinSince ∧ t.field.edges = s.field.edges))
    ∧ (∀ n x es, n < 16 → getInput s n = x → (x.gate = 0 → exec (.freqGateEnd n) s = .next s)
        ∧ (0 < x.gate → x.raw = (x.pin && readable s) → es = x.gateEdges.filter (fun i => decide (i ≤ x.gateStart + 1000000 * x.gate)) →
            ∃ t, exec (.freqGateEnd n) s = .next t ∧ t = { dieAt (x.gateStart + 1000000 * x.gate) s with field := { s.field with ins := t.field.ins } } ∧ (∀ m, m ≠ n → getInput t m = getInput s m)
            ∧ (getInput t n).gateEdges = x.gateEdges.filter (fun i => decide (x.gateStart + 1000000 * x.gate < i)) ∧ (getInput t n).gateStart = x.gateStart + 1000000 * x.gate ∧ (getInput t n).count = x.count
            ∧ (es.length < 2 → (getInput t n).freqStatus = 1 ∧ (getInput t n).freq = 0)
            ∧ (∀ f : Rat, 2 ≤ es.length → es.headD 0 < es.getLastD 0 → f * (es.getLastD 0 - es.headD 0 : Nat) = 1000000000 * (es.length - 1 : Nat) →
                (f ≤ (if 12 ≤ n then 100000 else 10000) → (getInput t n).freqStatus = 0 ∧ (getInput t n).freq = toF32 f) ∧ (f > (if 12 ≤ n then 100000 else 10000) → (getInput t n).freqStatus = 2))))
    ∧ (∀ o, (getOutput s o).pulling = none → exec (.pullinEnd o) s = .next s)
    ∧ (∀ o i, (getOutput s o).pulling = some i → s.gov.pullin = [] → exec (.pullinEnd o) s = .next { updOutput o (fun x => { x with pulling := none }) (dieAt i s) with gov := { s.gov with inPullin := s.gov.inPullin.filter (fun x => x ≠ o) } })
    ∧ (∀ (x : FieldOut) (v : F32) (held now since : Nat), since = (match x.pulling with | some i => i - 1000000 * x.pullIn | none => x.econAt) →
        (faultHolds x 0 v held now = true ↔ x.on = true ∧ (if x.pulling.isSome then 16 / 5 else 8 / 5) < f32Val v ∧ 50000 ≤ held ∧ 50000 ≤ now - since)
        ∧ (faultHolds x 1 v held now = true ↔ x.on = true ∧ x.pulling = none ∧ x.openDetect = true ∧ f32Val v < 1 / 50 ∧ 10000000 ≤ held ∧ 10000000 ≤ now - since)
        ∧ (faultHolds x 2 v held now = true ↔ x.cmd = false ∧ 4 < f32Val v ∧ 1000000 ≤ held ∧ 1000000 ≤ now - x.offAt) ∧ (faultHolds x 3 v held now = true ↔ 160 < f32Val v))
    ∧ (∀ o kind v c held, o < 8 → kind ≤ 3 → s.field.dieStop = false →
        (faultHolds (getOutput s o) kind v held (dieNow s) = true → (getOutput s o).faults = 0 →
          ∃ t, exec (.outputFault o kind v c held) s = .next t ∧ (getOutput t o).faults = 1#5 <<< kind ∧ (getOutput t o).faultCur = c ∧ (getOutput t o).on = ((getOutput s o).on && (kind = 1 || kind = 2)) ∧ (kind = 3 → (getOutput t o).hot = true)
            ∧ (∀ q, q ≠ o → getOutput t q = getOutput s q) ∧ t.evt = s.evt ∧ t.time = s.time ∧ t.field.ins = s.field.ins)
        ∧ (kind < 3 → faultHolds (getOutput s o) kind v held (dieNow s) = false ∨ (getOutput s o).faults.getLsbD kind = true → exec (.outputFault o kind v c held) s = .next s)
        ∧ (kind = 3 → faultHolds (getOutput s o) kind v held (dieNow s) = false → exec (.outputFault o kind v c held) s = .next (updOutput o (fun x => { x with hot := false }) s)))
    ∧ (s.field.dieStop = true → ∀ o kind v c held, exec (.outputFault o kind v c held) s = .next s)
    ∧ (∀ o i, s.field.shutting.getD o none = some i → (getOutput s o).on = false → f32Val (getOutput s o).current < 1 / 50 → (∀ u, s.field.newest = some u → u.doApplied.getLsbD o = false ∧ f32Val (u.currents.getD o 0) < 1 / 50) → s.sys.stateChange = false →
        exec (.outputShutdownEnd o) s = .next { s with field := { s.field with shutting := upd s.field.shutting o (fun _ => none) } })
    ∧ (∀ o, (s.field.shutting.getD o none = none ∨ (getOutput s o).on = true ∨ 1 / 50 ≤ f32Val (getOutput s o).current ∨ (∃ u, s.field.newest = some u ∧ (u.doApplied.getLsbD o = true ∨ 1 / 50 ≤ f32Val (u.currents.getD o 0)))) → exec (.outputShutdownEnd o) s = .next s)) ∧
  (∀ (via : Transport) (s : State) (r : Req) (p : Bytes), p = reqParams r → s.sys.dev ≠ .boot → Sized s →
    (linkDead s = false → classFull s 0x0B00#16 = false → Takes 0x0B00#16 via s r → ∀ (o : Nat) (sent : DieConf → Host.Outcome State Fault Refusal), n8At p 1 = o →
      (∀ c, sent c = accepted r s.field.nextKey [] { taken s via with field := { s.field with mailbox := s.field.mailbox ++ [{ key := s.field.nextKey, conf := c }], nextKey := s.field.nextKey + 1 } }) →
      (p.length = 12 → n8At p 0 = 0 → o ≤ 15 → n8At p 2 ≤ 2 → n8At p 3 ≤ 3 → 1 ≤ n32At p 4 → n32At p 4 ≤ 65000 → n16At p 8 ≤ 1000 → zeroAt p 10 2 = true →
        exec (.fioConfigInput via) s = sent (.input o (n8At p 2) (n8At p 3) (n32At p 4) (n16At p 8)))
      ∧ (p.length = 12 → n8At p 0 = 1 → o < 8 → s.field.shutting.getD o none = none → outputGoing s o = false → shownOn s o = false → n8At p 2 ≤ 8 → n8At p 3 ≤ 2 → n16At p 4 ≤ 100 → 20 ≤ n8At p 6 → n8At p 6 ≤ 100 → n8At p 7 ≤ 1 →
          zeroAt p 8 4 = true → (namedOutput s o = true → n8At p 3 = 0) → exec (.fioConfigOutput via) s = sent (.output o (n8At p 2) (n8At p 3) (n16At p 4) (n8At p 6) (decide (n8At p 7 = 1))))
      ∧ (p.length = 8 → n8At p 0 = 2 → s.sys.dev = .config → zeroAt p 1 3 = true → 50 ≤ n32At p 4 → n32At p 4 ≤ 100000 → exec (.fioConfigLink via) s = sent (.link (n32At p 4))))
    ∧ (∀ o k : Byte, Takes 0x0B01#16 via s r → p = [o, k, 0, 0] → o.toNat < 8 → s.field.owner.getD o.toNat 0 = 0 → s.field.shutting.getD o.toNat none = none → linkDead s = false → s.field.shutting.length = 8 →
      (k = 0 → s.gov.pullin = [] → ∃ t, exec (.fioWrite via) s = replied r OK (n8 (outputState t o.toNat) ++ zeros 3) t
          ∧ t = { taken s via with field := { s.field with doCmd := s.field.doCmd &&& ~~~(1#8 <<< o.toNat), shutting := t.field.shutting }, gov := { s.gov with inPullin := s.gov.inPullin.filter (fun x => x ≠ o.toNat) } }
          ∧ t.field.shutting.getD o.toNat none = (if s.field.doCmd.getLsbD o.toNat then some (s.time.raw + 30000000) else none) ∧ ∀ q, q ≠ o.toNat → t.field.shutting.getD q none = s.field.shutting.getD q none)
      ∧ (k = 1 → s.sys.dev = .run → permitted s o.toNat = true →
        (outputGoing s o.toNat = true → exec (.fioWrite via) s = replied r OK (n8 (outputState s o.toNat) ++ zeros 3) (taken s via))
        ∧ (outputGoing s o.toNat = false →
          ((getOutput s o.toNat).pullIn = 0 → shownPulling s o.toNat = false → exec (.fioWrite via) s = replied r OK (n8 2 ++ zeros 3) { taken s via with field := { s.field with doCmd := s.field.doCmd ||| (1#8 <<< o.toNat), onSeq := upd s.field.onSeq o.toNat (fun _ => s.field.seq + 1) } })
          ∧ (0 < (getOutput s o.toNat).pullIn → shownOn s o.toNat = false → s.gov.inPullin.length < 2 → s.gov.pullin = [] →
              exec (.fioWrite via) s = replied r OK (n8 1 ++ zeros 3) { taken s via with field := { s.field with doCmd := s.field.doCmd ||| (1#8 <<< o.toNat), onSeq := upd s.field.onSeq o.toNat (fun _ => s.field.seq + 1) }, gov := { s.gov with inPullin := s.gov.inPullin ++ [o.toNat] } })
          ∧ (0 < (getOutput s o.toNat).pullIn → 2 ≤ s.gov.inPullin.length → s.gov.pullin.length < 8 → exec (.fioWrite via) s = replied r DEFERRED (n16 (s.gov.pullin.length + 1))
              { taken s via with gov := { s.gov with pullin := s.gov.pullin ++ [{ unit := o.toNat, opcode := 0x0B01, tag := reqTag r, owed := some (owedOf r) }] } })))
      ∧ (k = 1 → s.sys.dev ≠ .run → exec (.fioWrite via) s = replied r E_STATE [] (dropRequest s via)))
    ∧ (∀ m : U16, Takes 0x0B02#16 via s r → p.length = 4 → u16At p 0 = m → zeroAt p 2 2 = true → ∃ t, exec (.fioRead via) s = replied r OK (fieldBytes s) t ∧ t = { taken s via with field := { s.field with cleared := t.field.cleared, clearDue := t.field.clearDue } }
        ∧ (s.field.newest = none → t.field.cleared = s.field.cleared ∧ t.field.clearDue = s.field.clearDue ||| m)
        ∧ ∀ u, s.field.newest = some u → t.field.clearDue = s.field.clearDue ∧ t.field.cleared.length = s.field.cleared.length
          ∧ ∀ n < s.field.cleared.length, t.field.cleared.getD n 0 = if m.getLsbD n then u.counts.getD n 0 else s.field.cleared.getD n 0))

/-- While IDLE or DONE, a configuration in range is kept and its rows per block returned; arming with a configuration, a ring on rows that are not lost, no calibration running and ADPLL-A locked enters ARMED or STREAMING at factor 1 with every counter cleared and the memory kept; over a lost row it answers E_RESOURCE, without a configuration or while armed E_STATE. A stop of an armed capture begins its shutdown; elsewhere it changes nothing. A force of an ARMED capture for which no line's edge has been taken takes a trigger with source 0xFF at the instant of the request; where no row is still to come the capture is DONE at once. CAP_STATUS returns the fields, and in STREAM_BULK releases blocks up to the number it names, the last block released never falling back. Delays are set; a calibration is accepted as a long operation. That a lost row of the ring is answered so is the model's reading (log 116), and that an edge taken stands before a force its choice (log 108), as are its other choices in log entries 107, 172. -/
def Obligations.CaptureRequests : Prop :=
  ∀ (via : Transport) (s : State) (r : Req) (p : Bytes), p = reqParams r → s.sys.dev ≠ .boot → Sized s →
    (∀ k : CapConf, Takes 0x0D00#16 via s r → s.cap.st = .idle ∨ s.cap.st = .done → p.length = 88 → k.mode = n8At p 0 → k.stage = n8At p 1 → k.nTraces = n8At p 2 → k.dtChan = n8At p 3 → k.dec = n16At p 4 → k.ring = n16At p 6 →
      k.pre = n32At p 8 → k.post = n32At p 12 → k.trigOut = byteAt p 16 → k.port = n8At p 17 → k.udpPort = u16At p 18 → k.session = u32At p 20 → k.terms = [termAt p 24, termAt p 40, termAt p 56, termAt p 72] →
      k.stage ≤ 7 → 1 ≤ k.nTraces → k.nTraces ≤ 64 → (k.dtChan = 0xFF ∨ k.dtChan < 96 ∧ (getChan s k.dtChan).role = 1) → 1 ≤ k.dec → 16 ≤ k.ring → k.ring ≤ 1024 → k.trigOut.toNat < 16 → (∀ i < 4, termOk k.nTraces p (24 + 16 * i) = true) →
      (k.mode = 0 ∧ k.pre + k.post + 1 ≤ (k.ring - 1) * (1008 / k.nTraces) ∧ k.port = 0 ∧ k.udpPort = 0 ∧ k.session = 0 ∨ k.mode = 1 ∧ k.pre = 0 ∧ k.post = 0 ∧ k.port = 0 ∧ k.udpPort = 0 ∧ k.session = 0
        ∨ k.mode = 2 ∧ k.pre = 0 ∧ k.post = 0 ∧ k.port < 2 ∧ 1024 ≤ k.udpPort.toNat ∧ (findSession (taken s via) k.port k.session).isSome = true) →
      exec (.capConfig via) s = replied r OK (n16 (1008 / k.nTraces) ++ zeros 2) { taken s via with cap := { s.cap with conf := some k } })
    ∧ (∀ k, Takes 0x0D01#16 via s r → p = [1, 0, 0, 0] → s.cap.st = .idle ∨ s.cap.st = .done → s.cap.conf = some k → bytesLost s 42 0 (4096 * k.ring) = false → s.cap.cal = none → pllLocked s 0 = true →
      ∃ t, exec (.capArmArm via) s = replied r OK (n8 (if k.mode = 0 then 1 else 4) ++ zeros 7) t ∧ t = { taken s via with cap := t.cap } ∧ t.cap.st = (if k.mode = 0 then .armed else .streaming) ∧ t.cap.factor = 1 ∧ t.cap.ring = k.ring ∧ t.cap.past = [] ∧ t.cap.seq = 0 ∧ t.cap.release = 0 ∧ t.cap.oldest = 0
        ∧ t.cap.rows = 0 ∧ t.cap.dropped = 0 ∧ t.cap.foreign = 0 ∧ t.cap.triggers = 0 ∧ t.cap.block = none ∧ t.cap.trig = none ∧ t.cap.first = none ∧ t.cap.frames = [] ∧ t.cap.mem = s.cap.mem ∧ t.cap.conf = some k ∧ t.cap.delays = s.cap.delays ∧ t.cap.identity = s.cap.identity)
    ∧ (∀ k, Takes 0x0D01#16 via s r → p = [1, 0, 0, 0] →
      (s.cap.st = .armed ∨ s.cap.st = .triggered ∨ s.cap.st = .streaming ∨ (s.cap.st = .idle ∨ s.cap.st = .done) ∧ s.cap.conf = none → exec (.capArmArm via) s = replied r E_STATE [] (dropRequest s via))
      ∧ (s.cap.st = .idle ∨ s.cap.st = .done → s.cap.conf = some k → bytesLost s 42 0 (4096 * k.ring) = true → exec (.capArmArm via) s = replied r E_RESOURCE [] (dropRequest s via)))
    ∧ (Takes 0x0D01#16 via s r → p = [0, 0, 0, 0] →
      (s.cap.st = .idle ∨ s.cap.st = .done → exec (.capArmStop via) s = replied r OK (n8 (capCode s.cap.st) ++ zeros 7) (taken s via))
      ∧ (s.cap.st = .shuttingDown → exec (.capArmStop via) s = replied r OK (n8 5 ++ zeros 3 ++ n32 (capLeft s)) (taken s via))
      ∧ (s.cap.st = .armed ∨ s.cap.st = .triggered ∨ s.cap.st = .streaming → ∃ us, 1 ≤ us ∧ us ≤ capBound s / 1000 + 1 ∧
          exec (.capArmStop via) s = replied r OK (n8 5 ++ zeros 3 ++ n32 us) { taken s via with cap := { s.cap with st := .shuttingDown, postLeft := none, taken := List.replicate 4 none, stopReason := 1, bound := s.time.raw + capBound s } }))
    ∧ (Takes 0x0D01#16 via s r → p = [2, 0, 0, 0] →
      (s.cap.st ≠ .armed ∨ (∃ e, some e ∈ s.cap.taken ∧ e.source ≤ 0xFF) → exec (.capArmForce via) s = replied r OK (n8 (capCode s.cap.st) ++ zeros 7) (taken s via))
      ∧ (s.cap.st = .armed → s.cap.trig = none → noneTaken s → rowsEnded s = true → ∃ t, exec (.capArmForce via) s = replied r OK (n8 3 ++ zeros 7) t ∧ t.cap.st = .done ∧ t.cap.triggers = s.cap.triggers + 1 ∧ t.cap.block = none)
      ∧ (rowsToCome s → noneTaken s → rowsBefore s (nowFixed s) → ∀ u : State, u = { taken s via with cap := { s.cap with st := .triggered, triggers := s.cap.triggers + 1, firedAt := s.time.raw, firedSrc := 0xFF, firedEvt := (if logLive s && decide (s.evt.entries.length < 4095) then some s.evt.nextSeq else none), tTrig := BitVec.ofInt 32 (nowFixed s / ns1), trig := some { at_ := nowFixed s, source := 0xFF, driver := 0xFF, unknown := false } } } →
          exec (.capArmForce via) s = replied r OK (n8 2 ++ zeros 7) { u with evt := (logEvent 0x0D01#16 0 (n8 0xFF ++ n8 0xFF ++ zeros 2 ++ le32 u.cap.tTrig) u).evt }))
    ∧ (Takes 0x0D02#16 via s r → p.length = 8 → zeroAt p 5 3 = true →
      (n8At p 4 = 0 → exec (.capStatus via) s = replied r OK (capStatusBytes s) (taken s via))
      ∧ (∀ k q, n8At p 4 = 1 → s.cap.conf = some k → k.mode = 1 → u32At p 0 = q → q.toNat < s.cap.seq.toNat → ∃ t, exec (.capStatus via) s = replied r OK (capStatusBytes t) t ∧ t = { taken s via with cap := t.cap, evt := t.evt }
          ∧ t.cap.release = (if 0 < (q - s.cap.release).toInt then q else s.cap.release) ∧ t.cap.oldest = (if 0 < (q + 1 - s.cap.oldest).toInt then q + 1 else s.cap.oldest) ∧ t.cap.seq = s.cap.seq ∧ t.cap.mem = s.cap.mem ∧ t.cap.block = s.cap.block))
    ∧ (∀ line who : Nat, Takes 0x0D03#16 via s r → s.cap.st = .idle ∨ s.cap.st = .done → p.length = 16 → n8At p 1 = line → line < 4 → n8At p 2 = who → who < 4 → n8At p 3 = 0 → zeroAt p 6 2 = true →
      (∀ ds, n8At p 0 = 0 → n16At p 4 = 0 → ds = [u16At p 8, u16At p 10, u16At p 12, u16At p 14] → (∀ d ∈ ds, d.toNat ≤ 3200 ∨ d = 0xFFFF#16) →
        exec (.capTrigbusCalSet via) s = replied r OK [] { taken s via with cap := { s.cap with identity := who, delays := upd s.cap.delays line (fun _ => ds) } })
      ∧ (∀ n : Nat, n16At p 4 = n → 16 ≤ n → n ≤ 1024 → s.cap.cal = none → classFull s 0x0D03#16 = false →
        (n8At p 0 = 1 → exec (.capTrigbusCalRespond via) s = accepted r 0 [] { taken s via with cap := { s.cap with cal := some { initiate := false, line := line, identity := who, reps := n, count := 0, lastAt := s.time.raw, edge := none } } })
        ∧ (n8At p 0 = 2 → exec (.capTrigbusCalInitiate via) s = accepted r 0 [] { taken s via with cap := { s.cap with cal := some { initiate := true, line := line, identity := who, reps := n, count := 1, lastAt := s.time.raw, edge := none }, drives := upd s.cap.drives line (fun _ => some (s.time.raw, s.time.raw + 100 + 40 * who)) } })))

/-- A row waits until every CAPTURE instance of its frame has ended. A due row appends the newest trace values to the open block; a trace that no node wrote repeats. A frame that is not due writes nothing; where a due frame before it was missed the block closes, and the next row opens one with GAP. A trace term that the row meets takes a trigger, or, where another device holds a line low that the capture would drive, that line's edge. A falling edge of a trigger-bus line outside its hold-off is taken by a term on that line, which starts the hold-off, as does an edge of a line that this device drives; a lower term's edge takes the place of a trigger of the same Host-island cycle; at the end of its pulse it is the trigger, dated back by the delay of the driver that the width names, and a low of less than 5 ns leaves the line as it was. A drive ends at its time, and an initiator's next pulse follows 10 us after the one before. A responder answers each edge with a pulse of its own 1,000 ns later; a calibration ends with its result, E_VERIFY where a pulse went unanswered or the spread exceeds 4 ns. A streamed block goes out as four frames and is released. A shutdown with no row left ends IDLE with event 0x0D00. With no frame, drive, calibration, block or shutdown at hand these do nothing (log 4). The model's own choices in it are in log entries 107, 108, 172. -/
def Obligations.CaptureRowsTriggersAndStreams : Prop :=
  ∀ (s : State), Sized s → memWf s.cap.mem = true →
    (s.cap.frames = [] → exec .captureRowWrite s = .next s)
    ∧ (∀ f i l, s.cap.frames = (f, i) :: l →
      (rowWaits s f = true → exec .captureRowWrite s = .next s)
      ∧ (rowWaits s f = false → ∃ t, exec .captureRowWrite s = .next t ∧ t.cap.frames = l ∧ t.cap.lastSeen = f ∧ t.loop = s.loop ∧ t.time = s.time)
      ∧ (rowWaits s f = true ↔ ∃ x ∈ s.loop.insts, x.stage = (capConf s).stage ∧ x.effect = true ∧ x.frame = f ∧ x.dead = false ∧ (graphNode s (stageGraph s (capConf s).stage) x.node).op = 0x44))
    ∧ (∀ f i l k b m, ∀ tr : Nat → U32, s.cap.frames = (f, i) :: l → s.cap.conf = some k → rowWaits s f = false → s.cap.traces.length = 64 → 1 ≤ k.nTraces → k.nTraces ≤ 64 → m = k.dec * s.cap.factor →
      (∀ x < 64, tr x = s.cap.traces.getD x 0 ∧ (∀ w ∈ s.cap.writes, w.1 = f → w.2.1 ≠ x) ∨ ∃ w ∈ s.cap.writes, w.1 = f ∧ w.2.1 = x ∧ tr x = w.2.2.2 ∧ ∀ v ∈ s.cap.writes, v.1 = f → v.2.1 = x → v = w) →
      s.cap.block = some b →
      (s.cap.st = .streaming ∨ s.cap.st = .shuttingDown → (∀ x ∈ k.terms, x.kind = 0 ∨ 6 ≤ x.kind) → s.cap.gap = false → b.factor = s.cap.factor → 1 ≤ m → s.cap.trig = none → s.cap.postLeft = none → b.rows + 1 < 1008 / k.nTraces →
          ∀ q, s.cap.first = some q → ((f - q).toNat - 1) / m ≤ (s.cap.lastSeen - q).toNat / m → ∃ t, exec .captureRowWrite s = .next t ∧ t.cap.frames = l ∧ (∀ x < 64, t.cap.traces.getD x 0 = tr x) ∧ (∀ w ∈ t.cap.writes, w ∈ s.cap.writes ∧ w.1 ≠ f) ∧ t = { s with cap := t.cap }
            ∧ ((f - q).toNat % m ≠ 0 → t.cap.rows = s.cap.rows ∧ t.cap.block = some b ∧ t.cap.mem = s.cap.mem)
            ∧ ((f - q).toNat % m = 0 → t.cap.rows = s.cap.rows + 1 ∧ t.cap.block = some { b with rows := b.rows + 1 } ∧ t.cap.lastDue = f
                ∧ ∀ a : Nat, (∀ x z, x < k.nTraces → z < 4 → a = blockAddr s s.cap.seq + 64 + 4 * (b.rows * k.nTraces + x) + z → memRead t.cap.mem a = ((tr x) >>> (8 * z)).setWidth 8)
                    ∧ ((a < blockAddr s s.cap.seq + 64 + 4 * (b.rows * k.nTraces) ∨ blockAddr s s.cap.seq + 64 + 4 * (b.rows * k.nTraces + k.nTraces) ≤ a) → memRead t.cap.mem a = memRead s.cap.mem a)))
      ∧ (s.cap.st = .streaming ∨ s.cap.st = .shuttingDown → (∀ x ∈ k.terms, x.kind = 0 ∨ 6 ≤ x.kind) → 2 ≤ 1008 / k.nTraces → 1 ≤ m → s.cap.trig = none → s.cap.postLeft = none → capFill s.cap + 1 < s.cap.ring →
          ∀ q, s.cap.first = some q → (f - q).toNat % m = 0 → (s.cap.lastSeen - q).toNat / m < ((f - q).toNat - 1) / m →
          ∃ (t : State) (d : CapBlock), exec .captureRowWrite s = .next t ∧ t.cap.block = some d ∧ d.first = f ∧ d.rows = 1 ∧ d.flags = 8 ∧ t.cap.seq = s.cap.seq + 1 ∧ t.cap.rows = s.cap.rows + 1 ∧ t.cap.gap = false)
      ∧ (s.cap.st = .streaming ∨ s.cap.st = .shuttingDown → (∀ x ∈ k.terms, x.kind = 0 ∨ 6 ≤ x.kind) → 1 ≤ m → ∀ q, s.cap.first = some q → (f - q).toNat % m ≠ 0 → (s.cap.lastSeen - q).toNat / m < ((f - q).toNat - 1) / m →
          ∃ t, exec .captureRowWrite s = .next t ∧ t.cap.block = none ∧ t.cap.gap = true ∧ t.cap.seq = s.cap.seq + 1 ∧ t.cap.rows = s.cap.rows)
      ∧ (∀ x rest, k.terms = x :: rest → s.cap.st = .armed → s.cap.trig = none → noneTaken s → x.index < 64 → (x.kind = 1 ∧ anyLe x.level (tr x.index) = true ∨ x.kind = 2 ∧ anyLe (tr x.index) x.level = true ∨ x.kind = 5 ∧ (anyLt (tr x.index) x.level = true ∨ anyLt x.level2 (tr x.index) = true)) →
          (heldLine s = none → ∃ t, exec .captureRowWrite s = .next t ∧ t.cap.triggers = s.cap.triggers + 1 ∧ t.cap.tTrig = BitVec.ofInt 32 (activeAt s.time i / ns1) ∧ t.cap.st ≠ .armed)
          ∧ (∀ j, heldLine s = some j → s.cap.taken.length = 4 → ∃ t, exec .captureRowWrite s = .next t ∧ t.cap.triggers = s.cap.triggers ∧ t.cap.taken.getD j none = some { source := 0, at_ := s.time.raw, was := none })))
    ∧ (∀ line : Nat, line < 4 →
      (s.cap.fall.getD line none = none → exec (.trigBusEdge line false) s = .next s)
      ∧ (∀ e, s.cap.fall.getD line none = some e → exec (.trigBusEdge line true) s = .next s)
      ∧ (∀ c, s.cap.fall.getD line none = none → c = { s.cap with fall := upd s.cap.fall line (fun _ => some s.time.raw), holdWas := upd s.cap.holdWas line (fun _ => s.cap.holdoff.getD line 0) } →
        (s.time.raw < s.cap.holdoff.getD line 0 → exec (.trigBusEdge line true) s = .next { s with cap := c })
        ∧ (∀ k, s.cap.holdoff.getD line 0 ≤ s.time.raw → s.cap.cal = some k → k.initiate = false → k.line = line →
            exec (.trigBusEdge line true) s = .next { s with cap := { c with cal := some { k with edge := some s.time.raw }, holdoff := upd s.cap.holdoff line (fun _ => s.time.raw + 2000) } })
        ∧ (s.cap.holdoff.getD line 0 ≤ s.time.raw → (∀ k, s.cap.cal = some k → k.initiate = true ∨ k.line ≠ line) →
          (s.cap.st ≠ .armed ∧ s.cap.st ≠ .streaming ∧ s.cap.st ≠ .triggered ∨ (s.cap.st = .armed ∧ ∃ e, some e ∈ s.cap.taken ∧ hostCycle s e.at_ ≠ hostCycle s s.time.raw)
            ∨ (∀ x ∈ (capConf s).terms, x.kind ≠ 6 ∨ x.index ≠ line) →
            exec (.trigBusEdge line true) s = .next { s with cap := if (s.cap.drives.getD line none).isSome then { c with holdoff := upd s.cap.holdoff line (fun _ => s.time.raw + 2000) } else c })
          ∧ (∀ x rest, noneTaken s → (capConf s).terms = x :: rest → x.kind = 6 → x.index = line →
              (s.cap.st = .armed ∨ s.cap.st = .streaming → s.cap.trig = none ∨ together s = false →
                exec (.trigBusEdge line true) s = .next { s with cap := { c with taken := upd s.cap.taken line (fun _ => some { source := 0, at_ := s.time.raw, was := none }), holdoff := upd s.cap.holdoff line (fun _ => s.time.raw + 2000) } })
              ∧ (∀ t, s.cap.st = .triggered → together s = true → s.cap.trig = some t → 0 < t.source →
                exec (.trigBusEdge line true) s = .next { s with cap := { c with trig := none, taken := upd s.cap.taken line (fun _ => some { source := 0, at_ := s.time.raw, was := some t }), holdoff := upd s.cap.holdoff line (fun _ => s.time.raw + 2000) } }))))
      ∧ (∀ e, s.cap.fall.getD line none = some e →
        (s.time.raw - e < 5 → exec (.trigBusEdge line false) s = .next { s with cap := { s.cap with fall := upd s.cap.fall line (fun _ => none), taken := upd s.cap.taken line (fun _ => none), holdoff := upd s.cap.holdoff line (fun _ => s.cap.holdWas.getD line 0), trig := (match (s.cap.taken.getD line none).bind (fun x => x.was) with | some t => some t | none => s.cap.trig), cal := s.cap.cal.map (fun k => if k.line = line ∧ k.edge = some e then { k with edge := none } else k) } })
        ∧ (5 ≤ s.time.raw - e → s.cap.taken.getD line none = none → exec (.trigBusEdge line false) s = .next { s with cap := { s.cap with fall := upd s.cap.fall line (fun _ => none), taken := upd s.cap.taken line (fun _ => none) } })
        ∧ (∀ x j d at_, s.cap.taken.getD line none = some x → x.was = none → (∀ o ∈ upd s.cap.taken line (fun _ => none), o = none) → rowsToCome s → j < 4 → 85 + 40 * j ≤ s.time.raw - e → s.time.raw - e ≤ 115 + 40 * j →
            (s.cap.delays.getD line []).getD j 0xFFFF#16 = d → d ≠ 0xFFFF#16 → at_ = activeAt s.time e - (d.toNat : Int) * 2 ^ 28 → rowsBefore s at_ →
          ∃ t, exec (.trigBusEdge line false) s = .next t ∧ t.cap.st = .triggered ∧ t.cap.triggers = s.cap.triggers + 1 ∧ t.cap.trig = some { at_ := at_, source := x.source, driver := j, unknown := false } ∧ t.cap.tTrig = BitVec.ofInt 32 (at_ / ns1)
            ∧ t.cap.fall.getD line none = none ∧ t.cap.drives = s.cap.drives ∧ t.cap.mem = s.cap.mem ∧ LogOnly s t)))
    ∧ (∀ line, s.cap.drives.getD line none = none → exec (.trigDriveEnd line) s = .next s)
    ∧ (∀ line a i, s.cap.drives.getD line none = some (a, i) →
      ((∀ k, s.cap.cal = some k → k.initiate = false ∨ k.line ≠ line ∨ k.reps ≤ k.count) → exec (.trigDriveEnd line) s = .next { advanceTo i s with cap := { s.cap with drives := upd s.cap.drives line (fun _ => none) } })
      ∧ (∀ k, line < 4 → s.cap.cal = some k → k.initiate = true → k.line = line → k.count < k.reps → ∃ t, exec (.trigDriveEnd line) s = .next t ∧ t = { advanceTo i s with cap := { s.cap with cal := t.cap.cal, drives := t.cap.drives } }
          ∧ t.cap.cal = some { k with count := k.count + 1, lastAt := k.lastAt + 10000, edge := none } ∧ t.cap.drives.getD line none = some (k.lastAt + 10000, k.lastAt + 10000 + 100 + 40 * k.identity) ∧ (∀ j, j ≠ line → t.cap.drives.getD j none = s.cap.drives.getD j none)))
    ∧ (s.cap.cal = none → exec .calPulseResponse s = .next s ∧ ∀ a b c d, exec (.trigbusCalDone a b c d) s = .next s)
    ∧ (∀ c, s.cap.cal = some c →
      (c.initiate = true ∨ c.reps ≤ c.count ∨ c.edge = none → exec .calPulseResponse s = .next s)
      ∧ (∀ rt own spread un, c.initiate = false → c.count < c.reps → exec (.trigbusCalDone rt own spread un) s = .next (endLong 0x0D03#16 0 OK (n16 c.count) (advanceTo (c.lastAt + 100000000) { s with cap := { s.cap with cal := none } }))) ∧
      (∀ e, c.initiate = false → c.count < c.reps → c.edge = some e → exec .calPulseResponse s = .next { advanceTo (e + 1000) s with cap := { s.cap with cal := some { c with count := c.count + 1, lastAt := e + 1000, edge := none }, drives := upd s.cap.drives c.line (fun _ => some (e + 1000, e + 1000 + 100 + 40 * c.identity)) } })
      ∧ (∀ rt own spread un, c.initiate = true → un = false → c.count < c.reps → exec (.trigbusCalDone rt own spread un) s = .next s)
      ∧ (∀ rt own spread un, c.initiate = true → un = true ∨ c.reps ≤ c.count → exec (.trigbusCalDone rt own spread un) s = .next (if un = true ∨ f32Lt 0x40800000#32 spread = true then endLong 0x0D03#16 0 E_VERIFY [] { s with cap := { s.cap with cal := none } }
            else endLong 0x0D03#16 0 OK (le32 rt ++ le32 own ++ le32 spread) { s with cap := { s.cap with cal := none } }))
      ∧ (∀ rt own spread un, c.initiate = false → c.count = c.reps → exec (.trigbusCalDone rt own spread un) s = .next (endLong 0x0D03#16 0 OK (n16 c.reps) { s with cap := { s.cap with cal := none } })))
    ∧ (∀ k x e, s.cap.conf = some k → k.mode = 2 → s.cap.st = .streaming → 1 ≤ capFill s.cap → findSession s k.port k.session = some x → s.eth[k.port]? = some e → e.enable = true → e.link = true → s.time.onFallback.getD 4 true = false →
      ∃ (t : State) (f : Nat → Bytes), exec .streamBlockSend s = .next t ∧ t.cap.oldest = s.cap.oldest + 1 ∧ t.cap.release = (if 0 < (s.cap.oldest - s.cap.release).toInt then s.cap.oldest else s.cap.release) ∧ t.cap.streamSeq = s.cap.streamSeq + 4 ∧ t.cap.mem = s.cap.mem ∧ t.cap.seq = s.cap.seq ∧ t.udp = { s.udp with sent := s.udp.sent ++ (List.range 4).map (fun i => { port := k.port, tag := portTag e, hop := some (nextHop e x.ip), body := f i }) }
        ∧ ∀ i < 4, slice (f i) 22 1024 = memReadBytes s.cap.mem (blockAddr s s.cap.oldest + 1024 * i) 1024)
    ∧ (∀ k, k = capConf s → (k.mode ≠ 2 ∨ capArmed s = false ∨ capFill s.cap = 0 ∨ findSession s k.port k.session = none → exec .streamBlockSend s = .next s)
      ∧ (k.mode = 2 → capArmed s = true → 1 ≤ capFill s.cap → (findSession s k.port k.session).isSome = true → ∃ t, exec .streamBlockSend s = .next t ∧ t.cap.oldest = s.cap.oldest + 1 ∧ t.cap.release = (if 0 < (s.cap.oldest - s.cap.release).toInt then s.cap.oldest else s.cap.release) ∧ t.cap.mem = s.cap.mem))
    ∧ ((s.cap.st ≠ .shuttingDown ∨ s.cap.frames ≠ []) → exec .captureShutdownEnd s = .next s)
    ∧ (s.cap.st = .shuttingDown → s.cap.frames = [] → s.cap.block = none → exec .captureShutdownEnd s =
        .next (logEvent 0x0D00#16 0 (n8 0 ++ n8 s.cap.stopReason ++ zeros 2 ++ le32 s.cap.seq) { s with cap := { s.cap with st := .idle, trig := none, postLeft := none } }))
    ∧ (s.cap.st = .shuttingDown → s.cap.frames = [] → s.cap.block ≠ none → ∃ t, exec .captureShutdownEnd s = .next t ∧ t.cap.st = .idle ∧ t.cap.block = none ∧ t.cap.seq = s.cap.seq + 1 ∧ t = { s with cap := t.cap, evt := t.evt })

/-- A window runs to the next 200 ms boundary, is published, and adds to each energy register, kept in three equal copies, the energy that its contributing phases give it, computed from the bits of the inputs; a loaded parameter block applies from its end. A supply warning, VDD_SAGE at 2.95 V or less for 1 us, closes it early with the same sums and makes a checkpoint due, also before metering starts; 3.00 V releases it. Metering starts with a new window and the block that was loaded. An impulse takes its energy from the accumulator and lasts pulse_width. Ten seconds without activity enter RETENTION, a probe that finds some begins a window. A lost clock ends the impulse, stops Sage's count and is logged, as is its return. A tie-point ends crystal-only time; a waiting SAGE_SET_TIME slews up to 2 s and steps beyond it, which a seal allows once in 24 h. Where Sage does not run, or what the command ends or begins is not there, nothing happens (log 4). That the bits of a window and the measured supply are operands of its row is the model's choice (logs 15, 110), as are its other choices in log entries 109, 110, 111, 113. -/
def Obligations.SageMeasuresPulsesAndKeepsTime : Prop :=
  ∀ (s : State), Sized s →
    (sageRuns s = false → ∀ bits, exec (.sageWindowEnd bits) s = .next s)
    ∧ (∀ bits, sageRuns s = true → s.sage.ticks ≤ (s.sage.windowStart / 19660800 + 1) * 19660800 →
        ∃ t, exec (.sageWindowEnd bits) s = .next t ∧ SageOnly s t ∧ t.sage.ticks = (s.sage.windowStart / 19660800 + 1) * 19660800 ∧ t.sage.windowStart = t.sage.ticks ∧ t.sage.updates = s.sage.updates + 1
          ∧ (s.sage.supplyWarn = false → t.sage.signing = s.sage.signing) ∧ (s.sage.supplyWarn = true → t.sage.signing.length = s.sage.signing.length + 1) ∧ windowAdded s t bits)
    ∧ (∀ c v held bits, s.sage.supplyWarn = true ∨ f32Bad v = true ∨ 295 / 100 < f32Val v ∨ held < 1000 → exec (.sageSupplyWarn c v held bits) s = .next s)
    ∧ (∀ c v held bits, s.sage.supplyWarn = false → f32Bad v = false → f32Val v ≤ 295 / 100 → 1000 ≤ held →
      (s.sage.phase = .inReset → exec (.sageSupplyWarn c v held bits) s = .next { s with sage := { s.sage with supplyWarn := true } })
      ∧ (s.sage.phase ≠ .inReset → ∃ t, exec (.sageSupplyWarn c v held bits) s = .next t ∧ SageOnly s t ∧ t.sage.supplyWarn = true ∧ t.sage.signing.length = s.sage.signing.length + 1
        ∧ (s.sage.signing = [] → ∃ j, t.sage.signing = [j] ∧ j.checkpoint = true ∧ j.trigger = 1 ∧ j.body ≠ none)
        ∧ (sageRuns s = true → t.sage.updates = s.sage.updates + 1 ∧ t.sage.windowStart = t.sage.ticks ∧ t.sage.ticks = max s.sage.ticks (min c ((s.sage.windowStart / 19660800 + 1) * 19660800)) ∧ windowAdded s t bits)
        ∧ (sageRuns s = false → t.sage.copies = s.sage.copies ∧ t.sage.updates = s.sage.updates ∧ t.sage.windowStart = s.sage.windowStart)
        ∧ (s.sage.phase = .released → t.sage.ticks = s.sage.ticks)))
    ∧ (∀ v held, exec (.sageSupplyWarnRelease v held) s = .next (if f32Bad v = false ∧ 3 ≤ f32Val v ∧ 1000 ≤ held then { s with sage := { s.sage with supplyWarn := false } } else s))
    ∧ (∀ x, s.sage.phase = .released → x = { s.sage with windowStart := s.sage.ticks, lastActive := s.sage.ticks, params := s.sage.next.or s.sage.params, next := none, tails := List.replicate 8 [], bitPhase := 0, past := List.replicate 8 [] } →
      exec .sageMeteringStart s = .next { s with sage := { x with phase := .metering, quarter := s.sage.time / 24576 / 900000000000 } })
    ∧ (s.sage.phase ≠ .released → exec .sageMeteringStart s = .next s)
    ∧ ((s.sage.phase = .inReset ∨ s.sage.clockFail = true → exec .sageClockLost s = .next s)
      ∧ (s.sage.phase ≠ .inReset → s.sage.clockFail = false → ∃ t, exec .sageClockLost s = .next t ∧ SageOnly s t ∧ t.sage.clockFail = true ∧ t.sage.failSince = true ∧ t.sage.pulse = false ∧ t.sage.pulseOn = (s.sage.pulseOn && !s.sage.pulseStops) ∧ t.sage.pulseStops = false
          ∧ t.sage.copies = s.sage.copies ∧ t.sage.logNext = s.sage.logNext + 1 ∧ (t.sage.log.getLast?.map (fun e => (e.code, e.data))) = some (0x0E08#16, [0]))
      ∧ (s.sage.clockFail = false → exec .sageClockRestored s = .next s)
      ∧ (s.sage.clockFail = true → ∃ t, exec .sageClockRestored s = .next t ∧ SageOnly s t ∧ t.sage.clockFail = false ∧ t.sage.copies = s.sage.copies ∧ t.sage.ticks = s.sage.ticks ∧ t.sage.time = s.sage.time ∧ t.sage.logNext = s.sage.logNext + 1 ∧ (t.sage.log.getLast?.map (fun e => (e.code, e.data))) = some (0x0E08#16, [1])))
    ∧ (∀ b c, s.sage.params = some b → n32At b 4 = c → 0 < c → s.sage.phase = .metering → s.sage.clockFail = false →
      (s.sage.pulse = false → s.sage.pulseOn = true → s.sage.pulseStops = false →
        (s.sage.pulseAcc * c < 1000000 * 2 ^ 32 → exec .pulseEmit s = .next s)
        ∧ (∀ x, 1000000 * 2 ^ 32 ≤ s.sage.pulseAcc * c → x = ranTo (match s.sage.pulseStart with | some i => i + 2 * pulseTicks b | none => 0) s →
            exec .pulseEmit s = .next { s with sage := { x with pulse := true, pulseStart := some x.ticks, pulseAcc := s.sage.pulseAcc - 1000000 * 2 ^ 32 / c } }))
      ∧ (∀ i x, s.sage.pulse = true → s.sage.pulseStart = some i → x = ranTo (i + pulseTicks b) s → exec .pulseEnd s = .next { s with sage := { x with pulse := false, pulseOn := x.pulseOn && !x.pulseStops, pulseStops := false } }))
    ∧ ((s.sage.params = none ∨ s.sage.phase ≠ .metering ∨ s.sage.clockFail = true ∨ s.sage.pulseOn = false ∨ s.sage.pulseStops = true ∨ s.sage.pulse = true) → exec .pulseEmit s = .next s)
    ∧ ((s.sage.pulse = false ∨ s.sage.params = none ∨ s.sage.pulseStart = none) → exec .pulseEnd s = .next s)
    ∧ ((sageRuns s = false ∨ s.sage.hostActive = true ∨ s.sage.hostEnded = true ∨ s.sage.ticks ≤ s.sage.lastActive) → exec .retentionEntry s = .next s)
    ∧ (∀ x, sageRuns s = true → s.sage.hostActive = false → s.sage.hostEnded = false → s.sage.lastActive < s.sage.ticks → x = ranTo (s.sage.lastActive + 983040000) s →
      exec .retentionEntry s = .next { s with sage := { x with retention := true } } ∧ x.ticks = max s.sage.ticks (s.sage.lastActive + 983040000))
    ∧ ((s.sage.phase ≠ .metering ∨ s.sage.retention = false) → ∀ found, exec (.retentionProbe found) s = .next s)
    ∧ (∀ found x, s.sage.phase = .metering → s.sage.retention = true → x = ranTo ((s.sage.ticks / 1966080 + 1) * 1966080) s →
      exec (.retentionProbe found) s = .next { s with sage := if found = true then { x with retention := false, windowStart := x.ticks, lastActive := x.ticks, params := x.next.or x.params, next := none, tails := List.replicate 8 [], bitPhase := 0, past := List.replicate 8 [] } else x })
    ∧ (∀ c, (s.sage.phase = .inReset ∨ s.sys.phase = .inReset → exec (.sageTiePoint c) s = .next s)
      ∧ (s.sage.phase ≠ .inReset → s.sys.phase ≠ .inReset → ∃ t, exec (.sageTiePoint c) s = .next t ∧ t.sage.setTime = [] ∧ t.sage.fromCrystal = false ∧ (s.sage.clockFail = false → t.sage.ticks = max s.sage.ticks c) ∧ (s.sage.clockFail = true → t.sage.ticks = s.sage.ticks) ∧ t.sage.copies = s.sage.copies))
    ∧ (s.sys.phase = .inReset → exec .tiePointsStopped s = .next { s with sage := { s.sage with fromCrystal := true } })
    ∧ (s.sys.phase ≠ .inReset → exec .tiePointsStopped s = .next s)
    ∧ (∀ c u, s.sage.phase ≠ .inReset → s.sys.phase ≠ .inReset → u = { s with sage := { ranTo c s with fromCrystal := false, setTime := [] } } →
      (s.sage.setTime = [] → exec (.sageTiePoint c) s = .next u)
      ∧ (∀ d i off, s.sage.setTime = [d] → i = domTime (getTd s d) s.time.raw / ns1 → off = i - (sageNs u : Int) →
        (-2000000000 ≤ off → off ≤ 2000000000 → exec (.sageTiePoint c) s = .next (endLong 0x0E02#16 0 OK (i64b off ++ n8 0 ++ zeros 3) { u with sage := { u.sage with slewLeft := off * 24576 } }))
        ∧ (off < -2000000000 ∨ 2000000000 < off →
          (∀ l, s.sage.sealState = .isSealed → s.sage.lastStep = some l → sageNs u < l + 86400000000000 → exec (.sageTiePoint c) s = .next (endLong 0x0E02#16 0 E_SEALED [] u))
          ∧ (s.sage.sealState ≠ .isSealed ∨ s.sage.lastStep = none ∨ (∃ l, s.sage.lastStep = some l ∧ l + 86400000000000 ≤ sageNs u) → 0 ≤ i → s.sage.signing = [] → ∃ t t2 j, exec (.sageTiePoint c) s = .next t2 ∧ t2 = endLong 0x0E02#16 0 OK (i64b off ++ n8 1 ++ zeros 3) t ∧ SageOnly s t
              ∧ t.sage.time = i.toNat * 24576 ∧ t.sage.slewLeft = 0 ∧ t.sage.quarter = i.toNat / 900000000000 ∧ t.sage.counter = s.sage.counter + 1 ∧ t.sage.lastStep = some i.toNat ∧ t.sage.copies = s.sage.copies ∧ t.sage.signing = [j] ∧ j.checkpoint = true ∧ j.trigger = 3 ∧ t.sage.logNext = s.sage.logNext + 1))))

/-- A Sage reset, at 2.70 V or for a seal that is due, wipes it but keeps the seal state and the supply warning, and what it owed the host ends with E_NOT_READY; one for a new seal writes the generation and ends SEALED, one for a break ends BROKEN; one on the supply carries out only the break that a lifecycle transition demands. Its release, at 2.85 V, writes the key area if it is empty, draws a boot identifier, sets NOT_RESTORED and takes the newest valid generation's parameters and counter; a seal transition raises that by 1, makes a checkpoint due and ends the request for it. A whole quarter-hour, slewed or not, makes a checkpoint due. The end of a signing keeps the record with the signature of its SHA-256 by Sage's private key, and the next begins. A restore adds the checkpoint's registers, takes a counter above its counter and above Sage's own, clears NOT_RESTORED and consumes one odometer bit. A nonce ends 10 min after its issue. No fuse is cleared. Where what the command ends or begins is not there, nothing happens (log 4). That the number a signature uses and a boot identifier are free bytes, that the body of a record is fixed as its signing begins, that a supply reset drops a seal or a break asked for by a token, and the counter after a restore are the model's choices (logs 14, 113), as are its other choices in log entries 15, 109, 112, 114, 189. -/
def Obligations.SageResetsSignsAndRestores : Prop :=
  ∀ (s : State), Sized s →
    (∀ (x : Nat → Option SealOp → SealState → Sage) (v : F32) (held : Nat),
      (∀ cause op goal, x cause op goal = { sage0 with resetCause := cause, sealWas := s.sage.sealState, sealState := goal, sealOp := op, supplyWarn := s.sage.supplyWarn, hostActive := s.sage.hostActive, status := s.sage.status }) →
      (f32Bad v = false → f32Val v ≤ 27 / 10 → 1000 ≤ held →
        (s.sys.longs = [] → s.sage.sealOp ≠ some .breakLifecycle → exec (.sageReset false v held) s = .next { s with sage := x 0 none s.sage.sealState })
        ∧ (s.sys.longs = [] → s.sage.sealOp = some .breakLifecycle → exec (.sageReset false v held) s = .next { s with sage := x 0 (some .breakLifecycle) .broken })
        ∧ (∀ l, s.sys.longs = [l] → l.result = none → opClass l.owed.opcode = 0x0E → s.sage.sealOp ≠ some .breakLifecycle →
            exec (.sageReset false v held) s = .next { endLong l.owed.opcode l.key E_NOT_READY [] s with sage := x 0 none s.sage.sealState }))
      ∧ (s.sys.longs = [] → s.sage.sealOp = some .breakToken ∨ s.sage.sealOp = some .breakLifecycle → exec (.sageReset true v held) s = .next { s with sage := x 1 s.sage.sealOp .broken })
      ∧ (∀ g p h a e, s.sys.longs = [] → g < 4 → s.sage.sealOp = some (.newSeal g p h a) → e = slice p 0 128 ++ slice h 0 32 ++ slice a 0 32 ++ le32 s.sage.counter → memWf s.rel.otp = true →
          ∃ t, exec (.sageReset true v held) s = .next t ∧ t = { s with sage := x 1 s.sage.sealOp .isSealed, rel := { s.rel with otp := t.rel.otp } }
            ∧ FusesKept s t ∧ (sealWritten s g = false → sealEntry t g = e ++ le32 (crc32c e)) ∧ ∀ b, (b < 8096 + 200 * g ∨ 8296 + 200 * g ≤ b) → memRead t.rel.otp b = memRead s.rel.otp b))
    ∧ (∀ v held, s.sage.sealOp = none → exec (.sageReset true v held) s = .next s)
    ∧ (∀ v held, f32Bad v = true ∨ 27 / 10 < f32Val v ∨ held < 1000 → exec (.sageReset false v held) s = .next s)
    ∧ (∀ v held, f32Bad v = false → f32Val v ≤ 27 / 10 → 1000 ≤ held → ∃ t, exec (.sageReset false v held) s = .next t ∧ t.sage.phase = .inReset ∧ t.sage.copies = List.replicate 3 (List.replicate 10 0) ∧ t.sage.sealState = (if s.sage.sealOp = some .breakLifecycle then .broken else s.sage.sealState) ∧ t.rel = s.rel)
    ∧ (∀ v held, s.sage.phase ≠ .inReset ∨ f32Bad v = true ∨ f32Val v < 285 / 100 ∨ held < 1000 → exec (.sageResetRelease v held) s = .next s)
    ∧ (∀ v held, f32Bad v = false → 285 / 100 ≤ f32Val v → 1000 ≤ held → s.sage.phase = .inReset →
      (∃ t, exec (.sageResetRelease v held) s = .next t ∧ t.sage.phase = .released ∧ t.sage.notRestored = true ∧ t.sage.sealOp = none ∧ t.sage.bootId.length = 8)
      ∧ (memWf s.rel.otp = true → (memReadBytes s.rel.otp 7936 160).all (· == 0) = true → ∃ t, exec (.sageResetRelease v held) s = .next t ∧ otpOutside s t 7936 160 ∧ sagePublic t = ecPublic p256c (sagePrivate t))
      ∧ ((memReadBytes s.rel.otp 7936 160).any (· != 0) = true → s.sage.signing = [] →
        (s.sage.sealOp = none → (s.sage.sealState = .isSealed → ∃ g, sealNewestWritten s = some g ∧ sealValid s g = true) →
          ∃ t, exec (.sageResetRelease v held) s = .next t ∧ t.sage.phase = .released ∧ t.sage.notRestored = true ∧ t.sage.bootId.length = 8 ∧ t.sage.params = (sealGen s).map (fun g => (sealEntry s g).take 128) ∧ t.sage.counter = storedCounter s ∧ t.sage.sealState = s.sage.sealState
            ∧ t.sage.copies = s.sage.copies ∧ t.sage.signing = [] ∧ t.sage.logNext = s.sage.logNext + 1 ∧ t.rel = { s.rel with rows := t.rel.rows } ∧ t.sys = s.sys)
        ∧ (∀ g, s.sage.sealOp = none → s.sage.sealState = .isSealed → sealNewestWritten s = some g → sealValid s g = false →
          ∃ t j, exec (.sageResetRelease v held) s = .next t ∧ t.sage.phase = .released ∧ t.sage.sealState = .broken ∧ t.sage.counter = storedCounter s + 1 ∧ t.sage.signing = [j] ∧ j.checkpoint = true ∧ j.trigger = 3 ∧ t.rel.otp = s.rel.otp)
        ∧ (∀ g k p h a, s.sage.sealOp = some (.newSeal k p h a) → s.sage.sealState = .isSealed → sealNewestWritten s = some g → sealValid s g = true →
          ∃ t j, exec (.sageResetRelease v held) s = .next (endLong 0x0E05#16 2 OK (n8 (sealGenByte s) ++ zeros 3) t) ∧ t.sage.phase = .released ∧ t.sage.sealState = .isSealed ∧ t.sage.sealOp = none ∧ t.sage.params = (sealGen s).map (fun g => (sealEntry s g).take 128) ∧ t.sage.counter = storedCounter s + 1 ∧ t.sage.signing = [j] ∧ j.checkpoint = true ∧ j.trigger = 3 ∧ t.sage.logNext = s.sage.logNext + 2)
        ∧ (s.sage.sealOp = some .breakToken → s.sage.sealState = .broken →
          ∃ t j, exec (.sageResetRelease v held) s = .next (endLong 0x0E05#16 3 OK [] t) ∧ t.sage.phase = .released ∧ t.sage.sealState = .broken ∧ t.sage.sealOp = none ∧ t.sage.counter = storedCounter s + 1 ∧ t.sage.signing = [j] ∧ j.checkpoint = true ∧ j.trigger = 3)
        ∧ (s.sage.sealOp = some .breakLifecycle →
          ∃ t j, exec (.sageResetRelease v held) s = .next t ∧ t.sage.phase = .released ∧ t.sage.sealState = .broken ∧ t.sage.sealOp = none ∧ t.sage.counter = storedCounter s + 1 ∧ t.sage.signing = [j] ∧ j.checkpoint = true ∧ j.trigger = 3)))
    ∧ (s.sage.phase ≠ .metering ∨ s.sage.clockFail = true → exec .checkpointDue s = .next s)
    ∧ (s.sage.phase = .metering → s.sage.clockFail = false → ∃ t, exec .checkpointDue s = .next t ∧ t = { s with sage := t.sage } ∧ t.sage.signing.length = s.sage.signing.length + 1 ∧ s.sage.ticks ≤ t.sage.ticks)
    ∧ (∀ due, s.sage.phase = .metering → s.sage.clockFail = false → s.sage.signing = [] → due = (s.sage.quarter + 1) * 900000000000 * 24576 → s.sage.time ≤ due →
      ∃ t j b, exec .checkpointDue s = .next t ∧ t = { s with sage := t.sage } ∧ t.sage.signing = [j] ∧ j = { checkpoint := true, host := zeros 32, trigger := 0, asked := false, body := some b }
        ∧ b.length = 192 ∧ t.sage.n = s.sage.n + 1 ∧ due ≤ t.sage.time ∧ t.sage.time < due + 250025 ∧ t.sage.quarter = s.sage.quarter + 1)
    ∧ (s.sage.signing = [] → exec .signingDone s = .next s)
    ∧ (∀ j l, s.sage.signing = j :: l → (j.body = none → exec .signingDone s = .next s) ∧ (j.body ≠ none → ∃ t, exec .signingDone s = .next t ∧ t.sage.signing.length = l.length ∧ t.sage.updates = s.sage.updates + 1 ∧ t.sage.copies = s.sage.copies))
    ∧ (∀ j l b, s.sage.signing = j :: l → j.body = some b →
      (j.asked = false → (∀ k ∈ l, k.body = none) → ∃ (t : State) (num sig : Bytes), exec .signingDone s = .next t ∧ num.length = 32 ∧ sig = ecdsaSign p256c (sagePrivate s) (ecScalar p256c num) (sha256 b) ∧ t = { s with sage := t.sage, free := t.free, evt := t.evt, cap := t.cap }
        ∧ (j.checkpoint = true → t.sage.checkpoint = b ++ sig ∧ t.sage.record = s.sage.record) ∧ (j.checkpoint = false → t.sage.record = b ++ sig ∧ t.sage.checkpoint = s.sage.checkpoint) ∧ t.sage.updates = s.sage.updates + 1
        ∧ (l = [] → t.sage.signing = []) ∧ (∀ k r, l = k :: r → ∃ c, t.sage.signing = { k with body := some c } :: r) ∧ t.sage.copies = s.sage.copies)
      ∧ (l = [] → j.asked = true → j.checkpoint = false → ∃ (t : State) (num sig : Bytes), exec .signingDone s = .next (endLong 0x0E01#16 0 OK (b ++ sig) t) ∧ num.length = 32 ∧ sig = ecdsaSign p256c (sagePrivate s) (ecScalar p256c num) (sha256 b) ∧ t.sage.record = b ++ sig ∧ t.sage.signing = [] ∧ t.sys = s.sys))
    ∧ (s.sage.restoring = none → exec .sageRestoreDone s = .next s)
    ∧ (∀ p k, s.sage.restoring = some p → odometer s = k → k < 2048 → memWf s.rel.otp = true → s.sage.signing = [] → ∃ (t u : State) (j : SignJob), exec .sageRestoreDone s = .next u ∧ u = endLong 0x0E04#16 0 OK (le32 t.sage.counter ++ n16 (odometer t) ++ [0, 0]) t
        ∧ (∀ i < 10, (sageRegs t.sage).getD i 0 = (sageRegs s.sage).getD i 0 + BitVec.ofNat 96 (n64At p (40 + 8 * i) * 2 ^ 32)) ∧ t.sage.copies = List.replicate 3 (sageRegs t.sage)
        ∧ (s.sage.counter ≤ u32At p 12 → t.sage.counter = u32At p 12 + 1) ∧ (u32At p 12 < s.sage.counter → t.sage.counter = s.sage.counter + 1) ∧ t.sage.notRestored = false ∧ t.sage.restoring = none ∧ t.sage.signing = [j] ∧ j.checkpoint = true ∧ j.trigger = 3
        ∧ (∀ a, memRead t.rel.otp a = if a = 7680 + k / 8 then memRead s.rel.otp a ||| (1#8 <<< (k % 8)) else memRead s.rel.otp a) ∧ t.sys = s.sys)
    ∧ (s.sage.nonce = none → exec .sealNonceExpiry s = .next s)
    ∧ (∀ n i, s.sage.nonce = some (n, i) → exec .sealNonceExpiry s = .next { s with sage := { ranTo (i + 600 * 98304000) s with nonce := none } })

/-- While Sage is out of reset: SAGE_READ returns the first 204 bytes of the published area; SAGE_SIGNED_RECORD is accepted and begins at once if nothing is being signed; SAGE_SET_TIME waits for a tie-point; SAGE_EVENT_LOG returns the entries asked for that the log holds. A checkpoint that meets R518, its signature verifying with Sage's public key, is accepted, another answers E_VERIFY, a second one since the reset E_STATE, one to a broken seal E_SEALED and one with no odometer bit left E_RESOURCE. A query returns a new 16-byte nonce. Parameters load unless SEALED and apply from the next window. A seal or a break with a token that agrees and is signed by its authority is accepted, else E_VERIFY, and the nonce is used up either way; a token whose reserved bytes are not zero answers E_PARAM. MPULSE is enabled and disabled. In reset every well-formed one answers E_NOT_READY; a wrong length answers E_PARAM in both cases, which for the reset is the model's reading (log 197). How a key and a signature stand in bytes is the model's choice (log 14), as are its other choices in log entries 111, 113, 114. -/
def Obligations.SageRequests : Prop :=
  ∀ (via : Transport) (s : State) (r : Req) (p : Bytes), p = reqParams r → s.sys.dev ≠ .boot → Sized s →
    ((Takes 0x0E00#16 via s r → p ≠ [] → exec (.sageRead via) s = replied r E_PARAM [] (dropRequest s via))
      ∧ (Takes 0x0E01#16 via s r → p.length ≠ 36 → exec (.sageSignedRecord via) s = replied r E_PARAM [] (dropRequest s via))
      ∧ (Takes 0x0E02#16 via s r → p.length ≠ 4 → exec (.sageSetTime via) s = replied r E_PARAM [] (dropRequest s via))
      ∧ (Takes 0x0E03#16 via s r → p.length ≠ 8 ∨ n8At p 4 = 0 ∨ 63 < n8At p 4 → exec (.sageEventLog via) s = replied r E_PARAM [] (dropRequest s via))
      ∧ (Takes 0x0E05#16 via s r → (p = [] ∨ n8At p 0 = 0 ∧ p.length ≠ 4 ∨ 5 < n8At p 0 → exec (.sageSealQuery via) s = replied r E_PARAM [] (dropRequest s via))
        ∧ (p ≠ [] → (n8At p 0 = 1 → p.length ≠ 132 → exec (.sageSealLoadParameters via) s = replied r E_PARAM [] (dropRequest s via))
          ∧ (n8At p 0 = 2 → s.sys.lifecycle ≠ .returned → s.sys.lifecycle ≠ .ended → p.length ≠ 184 ∨ zeroAt p 22 2 = false → exec (.sageSealSeal via) s = replied r E_PARAM [] (dropRequest s via))
          ∧ (n8At p 0 = 2 → s.sys.lifecycle = .returned ∨ s.sys.lifecycle = .ended → exec (.sageSealSeal via) s = replied r E_LIFECYCLE [] (dropRequest s via))
          ∧ (n8At p 0 = 3 → p.length ≠ 184 ∨ zeroAt p 22 2 = false → exec (.sageSealBreak via) s = replied r E_PARAM [] (dropRequest s via))
          ∧ (n8At p 0 = 4 → s.sage.pulseStops = false → p.length ≠ 4 → exec (.sageSealPulseEnable via) s = replied r E_PARAM [] (dropRequest s via))
          ∧ (n8At p 0 = 5 → p.length ≠ 4 → exec (.sageSealPulseDisable via) s = replied r E_PARAM [] (dropRequest s via)))))
    ∧ (s.sage.phase = .inReset → (Takes 0x0E00#16 via s r → p = [] → exec (.sageRead via) s = replied r E_NOT_READY [] (dropRequest s via))
      ∧ (Takes 0x0E01#16 via s r → p.length = 36 → n8At p 0 ≤ 1 → zeroAt p 1 3 = true → (n8At p 0 = 1 → zeroAt p 4 32 = true) → classFull s 0x0E01#16 = false → exec (.sageSignedRecord via) s = replied r E_NOT_READY [] (dropRequest s via))
      ∧ (Takes 0x0E02#16 via s r → p.length = 4 → n8At p 0 < 4 → zeroAt p 1 3 = true → classFull s 0x0E02#16 = false → exec (.sageSetTime via) s = replied r E_NOT_READY [] (dropRequest s via))
      ∧ (Takes 0x0E03#16 via s r → p.length = 8 → zeroAt p 5 3 = true → 1 ≤ n8At p 4 → n8At p 4 ≤ 63 → exec (.sageEventLog via) s = replied r E_NOT_READY [] (dropRequest s via))
      ∧ (Takes 0x0E04#16 via s r → s.sage.restored = false →
        (p.length = 256 → odometer s < 2048 → classFull s 0x0E04#16 = false → exec (.sageRestore via) s = replied r E_NOT_READY [] (dropRequest s via)) ∧ (p.length ≠ 256 → exec (.sageRestore via) s = replied r E_PARAM [] (dropRequest s via)))
      ∧ (Takes 0x0E05#16 via s r → (p = [0, 0, 0, 0] → exec (.sageSealQuery via) s = replied r E_NOT_READY [] (dropRequest s via))
        ∧ (p.length = 132 → n8At p 0 = 1 → zeroAt p 1 3 = true → sageBlockOk (slice p 4 128) = true → exec (.sageSealLoadParameters via) s = replied r E_NOT_READY [] (dropRequest s via))
        ∧ (p.length = 184 → zeroAt p 1 3 = true → zeroAt p 22 2 = true → s.sage.sealOp = none → classFull s 0x0E05#16 = false →
          (n8At p 0 = 2 → s.sys.lifecycle ≠ .returned → s.sys.lifecycle ≠ .ended → sealNextGen s ≠ none → exec (.sageSealSeal via) s = replied r E_NOT_READY [] (dropRequest s via))
          ∧ (n8At p 0 = 3 → exec (.sageSealBreak via) s = replied r E_NOT_READY [] (dropRequest s via)))
        ∧ (p = [4, 0, 0, 0] → exec (.sageSealPulseEnable via) s = replied r E_NOT_READY [] (dropRequest s via))
        ∧ (p = [5, 0, 0, 0] → exec (.sageSealPulseDisable via) s = replied r E_NOT_READY [] (dropRequest s via))))
    ∧ (s.sage.phase ≠ .inReset → ∀ with_ : Sage → State, (∀ x, with_ x = { taken s via with sage := x }) →
      (Takes 0x0E00#16 via s r → p = [] → exec (.sageRead via) s = replied r OK (slice s.sage.area 0 204) (taken s via))
      ∧ (Takes 0x0E01#16 via s r → p.length = 36 → n8At p 0 ≤ 1 → zeroAt p 1 3 = true → (n8At p 0 = 1 → zeroAt p 4 32 = true) →
        (s.sage.clockFail = true → classFull s 0x0E01#16 = false → exec (.sageSignedRecord via) s = replied r E_NOT_READY [] (dropRequest s via))
        ∧ (∀ j, s.sage.clockFail = false → classFull s 0x0E01#16 = false → j = { checkpoint := decide (n8At p 0 = 1), host := slice p 4 32, trigger := 2, asked := true, body := none } →
          (s.sage.signing = [] → ∃ b, b.length = 192 ∧ exec (.sageSignedRecord via) s = accepted r 0 [] (with_ { s.sage with signing := [{ j with body := some b }], n := s.sage.n + 1, failSince := false }))
          ∧ (∀ k l, s.sage.signing = k :: l → k.body ≠ none → exec (.sageSignedRecord via) s = accepted r 0 [] (with_ { s.sage with signing := s.sage.signing ++ [j] }))))
      ∧ (∀ d : Nat, Takes 0x0E02#16 via s r → p.length = 4 → n8At p 0 = d → d < 4 → zeroAt p 1 3 = true → tdRunning (getTd s d) = true → classFull s 0x0E02#16 = false → exec (.sageSetTime via) s = accepted r 0 [] (with_ { s.sage with setTime := s.sage.setTime ++ [d] }))
      ∧ (∀ first n i es, Takes 0x0E03#16 via s r → p.length = 8 → zeroAt p 5 3 = true → n32At p 0 = i → n8At p 4 = n → 1 ≤ n → n ≤ 63 → first + s.sage.log.length = s.sage.logNext → es = (s.sage.log.drop (i - first)).take n →
        (i < s.sage.logNext → exec (.sageEventLog via) s = replied r OK (n8 es.length ++ zeros 3 ++ n32 first ++ es.flatMap (fun e => le64 e.time ++ le16 e.code ++ [0, 0] ++ le32 e.counter)) (taken s via))
        ∧ (s.sage.logNext ≤ i → exec (.sageEventLog via) s = replied r E_PARAM [] (dropRequest s via)))
      ∧ (Takes 0x0E04#16 via s r → s.sage.restored = true → ∃ t, exec (.sageRestore via) s = replied r E_STATE [] t ∧ LogOnly (taken s via) t)
      ∧ (Takes 0x0E04#16 via s r → p.length = 256 → s.sage.restored = false →
        (s.sage.sealState = .broken → ∃ t, exec (.sageRestore via) s = replied r E_SEALED [] t ∧ LogOnly (taken s via) t)
        ∧ (s.sage.sealState ≠ .broken → 2048 ≤ odometer s → ∃ t, exec (.sageRestore via) s = replied r E_RESOURCE [] t ∧ LogOnly (taken s via) t)
        ∧ (s.sage.sealState ≠ .broken → odometer s < 2048 → classFull s 0x0E04#16 = false →
          (ecdsaOk p256c (sagePublic s) (sha256 (slice p 0 192)) (slice p 192 64) = true → u32At p 0 = 0x52535A4F#32 → n8At p 4 = 1 → slice p 24 16 = uidBytes s → n8At p 6 = sealGenByte s → odometer s * 2 ^ 20 ≤ n32At p 8 → slice p 184 8 ≠ s.sage.bootId →
            exec (.sageRestore via) s = accepted r 0 [] (with_ { s.sage with restored := true, restoring := some p }))
          ∧ (ecdsaOk p256c (sagePublic s) (sha256 (slice p 0 192)) (slice p 192 64) = false ∨ n8At p 4 ≠ 1 ∨ slice p 24 16 ≠ uidBytes s ∨ n8At p 6 ≠ sealGenByte s ∨ n32At p 8 < odometer s * 2 ^ 20 ∨ slice p 184 8 = s.sage.bootId →
            ∃ t, exec (.sageRestore via) s = replied r E_VERIFY [] t ∧ LogOnly (taken s via) t)))
      ∧ (Takes 0x0E05#16 via s r → p = [0, 0, 0, 0] → ∃ (nonce : Bytes) (f : Nat), nonce.length = 16 ∧ exec (.sageSealQuery via) s = replied r OK (n8 (sealCode s.sage.sealState) ++ n8 (sealGenByte s) ++ n8 (gensLeft s) ++ [0] ++ nonce ++ uidBytes s) { with_ { s.sage with nonce := some (nonce, s.sage.ticks) } with free := f })
      ∧ (∀ b, Takes 0x0E05#16 via s r → p.length = 132 → n8At p 0 = 1 → zeroAt p 1 3 = true → slice p 4 128 = b → sageBlockOk b = true →
        (s.sage.sealState ≠ .isSealed → exec (.sageSealLoadParameters via) s = replied r OK (sha256 b) (with_ { s.sage with next := some b }))
        ∧ (s.sage.sealState = .isSealed → exec (.sageSealLoadParameters via) s = replied r E_SEALED [] (dropRequest s via)))
      ∧ (Takes 0x0E05#16 via s r → p.length = 184 → n8At p 0 = 2 → zeroAt p 1 3 = true → zeroAt p 22 2 = true → s.sys.lifecycle ≠ .returned → s.sys.lifecycle ≠ .ended →
        (s.sage.sealState = .isSealed → exec (.sageSealSeal via) s = replied r E_SEALED [] (dropRequest s via))
        ∧ (s.sage.sealState ≠ .isSealed → sealNextGen s = none → exec (.sageSealSeal via) s = replied r E_RESOURCE [] (dropRequest s via))
        ∧ (∀ g, s.sage.sealState ≠ .isSealed → s.sage.sealOp = none → sealNextGen s = some g → classFull s 0x0E05#16 = false →
          (s.sage.next = none → s.sage.params = none → exec (.sageSealSeal via) s = replied r E_VERIFY [] (with_ { s.sage with nonce := none }))
          ∧ (∀ b n i a, s.sage.next.or s.sage.params = some b → s.sage.nonce = some (n, i) → a = (if zeroAt p 56 64 = true then (match sealGen s with | some k => slice (sealEntry s k) 160 32 | none => zeros 32) else sha256 (slice p 56 64)) →
            (tokenSigned s (slice p 4 180) = true → slice p 4 16 = n → n8At p 20 = 2 → n8At p 21 = g → slice p 24 32 = sha256 b → exec (.sageSealSeal via) s = accepted r 2 [] (with_ { s.sage with nonce := none, sealOp := some (.newSeal g b (sha256 b) a) }))
            ∧ (tokenSigned s (slice p 4 180) = false ∨ slice p 4 16 ≠ n ∨ n8At p 20 ≠ 2 ∨ n8At p 21 ≠ g ∨ slice p 24 32 ≠ sha256 b → exec (.sageSealSeal via) s = replied r E_VERIFY [] (with_ { s.sage with nonce := none })))))
      ∧ (Takes 0x0E05#16 via s r → p.length = 184 → n8At p 0 = 3 → zeroAt p 1 3 = true → zeroAt p 22 2 = true →
        (s.sage.sealState ≠ .isSealed → exec (.sageSealBreak via) s = replied r E_SEALED [] (dropRequest s via))
        ∧ (∀ n i, s.sage.sealState = .isSealed → s.sage.sealOp = none → classFull s 0x0E05#16 = false → s.sage.nonce = some (n, i) →
          (tokenSigned s (slice p 4 180) = true → slice p 4 16 = n → n8At p 20 = 3 → n8At p 21 = sealGenByte s → zeroAt p 24 32 = true → exec (.sageSealBreak via) s = accepted r 3 [] (with_ { s.sage with nonce := none, sealOp := some .breakToken }))
          ∧ (tokenSigned s (slice p 4 180) = false ∨ slice p 4 16 ≠ n ∨ n8At p 20 ≠ 3 ∨ n8At p 21 ≠ sealGenByte s ∨ zeroAt p 24 32 = false → exec (.sageSealBreak via) s = replied r E_VERIFY [] (with_ { s.sage with nonce := none }))))
      ∧ (Takes 0x0E05#16 via s r → p = [4, 0, 0, 0] → s.sage.pulseStops = false → exec (.sageSealPulseEnable via) s = replied r OK [] (with_ { s.sage with pulseOn := true, pulseAcc := 0 }))
      ∧ (Takes 0x0E05#16 via s r → p = [5, 0, 0, 0] → (s.sage.pulseStops = true → s.sage.pulse = true → exec (.sageSealPulseDisable via) s = replied r OK (n32 (pulseLeft s.sage)) (taken s via)) ∧ (s.sage.pulseStops = false →
        (s.sage.pulse = false → exec (.sageSealPulseDisable via) s = replied r OK (n32 0) (with_ { s.sage with pulseOn := false, pulseLimited := false }))
        ∧ (s.sage.pulse = true → exec (.sageSealPulseDisable via) s = replied r OK (n32 (pulseLeft { s.sage with pulseStops := true })) (with_ { s.sage with pulseStops := true })))))

/-- A publication instant assembles the back buffer from the state of that instant, sets the next one a period on, takes the measured voltages, temperature and ADPLL values, and tells Sage whether a stage is not OFF; the swap makes it host-visible with the next epoch. The image's header carries the next epoch, t_pub in the active domain, the states, rate, flags and frame indexes; each stage's range is that of its newest commit completed before t_pub, as are its words, and each forming unit's range that of its newest completed period. While the log is not live a word read outside Sage does nothing. A word without errors only counts, if the scrub engine read it, and the last of a pass counts the pass. One corrected bit in a fresh row is transient, one in a row seen within 10 s and two bits or more decide the row's retirement. An uncorrectable word of graph memory is zeroed outside images and unloads the graph of an OFF stage; in filter memory without a use it is zeroed, in capture memory each of its bytes changes and no other; in housekeeping memory it resets the part, the retirement staying decided, but for a log entry or a CAN entry; in safety memory it acts with SAFETY_ECC. The Sage core remaps the rows of its memory itself and records that in its OTP block, and a lost copy of an accumulator is outvoted. A remap gives the row its lowest free spare, or retires it without one, and its log entry goes to the next place. That the errors of a word, its use and its reader are operands, and that a corrected row is remembered for 10 s, are the model's choices (log 116); that rows of Sage memory and actions without their cause do nothing more rests on log 4; the model's other choices in it are in log entries 15, 30, 43, 44, 154. -/
def Obligations.PublicationScrubAndRepairs : Prop :=
  ∀ (s : State), Sized s →
    (s.img.running = false → ∀ v tj ps, exec (.publicationInstant v tj ps) s = .next s)
    ∧ (s.img.running = true → 1 ≤ s.img.newRate.toNat → ∀ v tj ps, ∃ t b, exec (.publicationInstant v tj ps) s = .next t ∧ t.img.back = some b ∧ t.time.raw = max s.time.raw (countReached s s.img.due) ∧ (s.time.fbStart = none → countReached s s.img.due = s.img.due) ∧ t.img.rate = s.img.newRate ∧ t.img.newRate = s.img.newRate
        ∧ (∃ q, t.img.due = s.img.due + q ∧ 2 * (q * s.img.newRate.toNat) ≤ 2 * 1000000000 + s.img.newRate.toNat ∧ 2 * 1000000000 < 2 * (q * s.img.newRate.toNat) + s.img.newRate.toNat) ∧ t.sup.volts = v ∧ t.sup.tj = tj ∧ (∀ i < 2, ∀ x, ps[i]? = some x → (getPll t i).fMeas = x.1 ∧ (getPll t i).phaseRms = x.2)
        ∧ (s.img.back = none → t.img.host = s.img.host ∧ t.img.epoch = s.img.epoch) ∧ (∀ x, s.img.back = some x → t.img.host = x ∧ t.img.epoch = s.img.epoch + 1) ∧ (t.sage.hostActive = true ↔ ∃ n < 8, (getStage s n).st ≠ .off)
        ∧ (t.sage.hostEnded = true ↔ (s.sage.hostEnded = true ∨ s.sage.hostActive = true) ∧ ∀ n < 8, (getStage s n).st = .off)
        ∧ (∀ n < 8, (getStage t n).overrunPub = false) ∧ t.sys = s.sys ∧ t.pwm = s.pwm ∧ t.evt = s.evt
        ∧ ∀ (u : State) (r : Nat), r = countReached s s.img.due → u = { t with loop := s.loop, sage := s.sage, img := { t.img with back := none, rate := s.img.rate, due := s.img.due } } → b = assemble u r
          ∧ memReadBytes b 0 64 = le32 (t.img.epoch + 1) ++ le32 (timeAt t r) ++ n8 (devCode s.sys.dev) ++ n8 (lcCode s.sys.lifecycle) ++ n8 s.time.active ++ [0] ++ le32 s.img.rate
              ++ n32 (flag (s.sys.lifecycle == .develop) 0 + flag s.safe.block.isSome 1 + flag (s.sys.dev == .safe) 2 + flag (eventsPending s) 3 + flag s.sys.stateChange 4 + 256 * bitField ((List.range 8).filter (fun n => (getStage s n).overrunPub)))
              ++ n16 1 ++ zeros 10 ++ (List.range 8).flatMap (fun n => le32 (if commitLate u r n = true then (getStage s n).prevFrame else (getStage s n).cFrame))
          ∧ (∀ n < 8, commitLate u r n = false → ∀ k, k < 512 → k < (stageRange u n).length → memRead b (0x1000 + 0x200 * n + k) = (stageRange u n).getD k 0)
          ∧ (∀ n < 8, commitLate u r n = true → ∀ k, 4 ≤ k → k < 512 → k < (getStage s n).prevRange.length → memRead b (0x1000 + 0x200 * n + k) = (getStage s n).prevRange.getD k 0)
          ∧ (∀ i < 2, ∀ k, k < 1024 → k < (fuRange u r i).length → memRead b (0x800 + 0x400 * i + k) = (fuRange u r i).getD k 0)
          ∧ (∀ n g k v, n < 8 → (∀ m < 8, m ≠ n → (getStage s m).graph = none) → (getStage s n).graph = some g → k < g.pubWords → (if commitLate u r n = true then (getStage s n).prevPub else (getStage s n).pub) = [(k, v)] → memReadBytes b (0x7000 + 4 * (g.pubBase + k)) 4 = le32 v))
    ∧ (s.img.back = none → exec .publicationSwap s = .next s)
    ∧ (∀ b, s.img.back = some b → exec .publicationSwap s = .next { s with img := { s.img with host := b, back := none, epoch := s.img.epoch + 1 } })
    ∧ (logLive s = false → ∀ m w bits use scrub, m < 108 → exec (.scrubRead m w bits use scrub) s = .next s)
    ∧ (∀ m w use scrub, 108 ≤ m → exec (.scrubRead m w 0 use scrub) s = .next s ∧ (s.sage.phase = .inReset → ∀ bits, exec (.scrubRead m w bits use scrub) s = .next s)
      ∧ (s.sage.phase ≠ .inReset →
        (rowAgain s m (w / 16) = false → ∃ t, exec (.scrubRead m w 1 use scrub) s = .next t ∧ t = { s with rel := { s.rel with rowSeen := t.rel.rowSeen } } ∧ (512 * m + w / 16, s.time.raw) ∈ t.rel.rowSeen)
        ∧ ((∀ x ∈ s.rel.rows, x.1 ≠ m ∨ x.2.1 ≠ w / 16) → ∀ bits, bits = 2 ∨ bits = 1 ∧ rowAgain s m (w / 16) = true ∨ 3 ≤ bits ∧ (∀ c i, use ≠ .sageCopy c i) →
          ∃ t, exec (.scrubRead m w bits use scrub) s = .next t ∧ LogOnly { s with rel := t.rel } t ∧ t.rel.rows = s.rel.rows ++ [(m, w / 16, freeRow s m)]
            ∧ (freeRow s m = none → t.rel.otp = s.rel.otp)
            ∧ (∀ k i, freeRow s m = some k → i < 16 → m < 112 → w < 8192 → memWf s.rel.otp = true → n32At (memReadBytes s.rel.otp (8896 + 4 * i) 4) 0 = 0 → (∀ j < i, n32At (memReadBytes s.rel.otp (8896 + 4 * j) 4) 0 ≠ 0) →
                otpOutside s t (8896 + 4 * i) 4 ∧ n32At (memReadBytes t.rel.otp (8896 + 4 * i) 4) 0 = 0x5A * 2 ^ 24 + (m - 108) * 2 ^ 22 + w / 16 * 2 ^ 13 + k * 2 ^ 11))
        ∧ (∀ c i l, c < 3 → i < 10 → s.sage.copies = List.replicate 3 l → l.length = 10 → ∃ t, exec (.scrubRead m w 3 (.sageCopy c i) scrub) s = .next t ∧ sageRegs t.sage = l)))
    ∧ (logLive s = true → s.rel.scrubReads + 1 = 108 * 8192 → ∀ m w use, m < 108 → (∀ p e, use ≠ .canTx p e ∧ use ≠ .canRx p e) → exec (.scrubRead m w 0 use true) s = .next { s with rel := { s.rel with scrubReads := 0, scrubPasses := s.rel.scrubPasses + 1 } })
    ∧ (logLive s = true → ∀ m w use scrub, m < 108 → s.rel.scrubReads + 1 < 108 * 8192 →
      ((∀ p e, use ≠ .canTx p e ∧ use ≠ .canRx p e) → exec (.scrubRead m w 0 use scrub) s = .next (if scrub = true then { s with rel := { s.rel with scrubReads := s.rel.scrubReads + 1 } } else s))
      ∧ (∀ p e, use = .canTx p e ∨ use = .canRx p e → ∃ t, exec (.scrubRead m w 0 use scrub) s = .next t ∧ t = { s with rel := { s.rel with scrubReads := t.rel.scrubReads, canRows := t.rel.canRows } } ∧ (512 * m + w / 16, p) ∈ t.rel.canRows)
      ∧ (rowAgain s m (w / 16) = false → s.rel.transient.length = 6 → ∃ t, exec (.scrubRead m w 1 use scrub) s = .next t ∧ LogOnly { s with rel := t.rel } t ∧ t.rel.waiting = s.rel.waiting ∧ t.rel.corrected = s.rel.corrected + 1 ∧ t.rel.transient.getD 0 0 = satInc (s.rel.transient.getD 0 0) ∧ (512 * m + w / 16, s.time.raw) ∈ t.rel.rowSeen)
      ∧ (∀ bits x, bits = 1 ∧ rowAgain s m (w / 16) = true ∨ bits = 2 → x = { cls := 0, index := m, row := w / 16, reason := bits - 1 } → isRetired s x = false → (∀ y ∈ s.rel.waiting, y.cls ≠ 0 ∨ y.index ≠ m ∨ y.row ≠ w / 16) →
          ∃ t, exec (.scrubRead m w bits use scrub) s = .next t ∧ LogOnly { s with rel := t.rel } t ∧ t.rel.waiting = s.rel.waiting ++ [x] ∧ t.rel.corrected = s.rel.corrected + 1 ∧ t.rel.transient = s.rel.transient)
      ∧ (∀ a, 18 ≤ m → m < 33 → a = (m - 18) * 65536 + 8 * w → imageAt s a = none → memWf s.loop.mem = true → ∃ t, exec (.scrubRead m w 3 use scrub) s = .next t ∧ t.rel.uncorrectable = s.rel.uncorrectable + 1 ∧ t.loop = { s.loop with mem := t.loop.mem }
          ∧ ∀ b, memRead t.loop.mem b = if a ≤ b ∧ b < a + 8 then 0 else memRead s.loop.mem b)
      ∧ (∀ n, 18 ≤ m → m < 33 → imageAt s ((m - 18) * 65536 + 8 * w) = some n → (getStage s n).st = .off → ∃ t, exec (.scrubRead m w 3 use scrub) s = .next t ∧ (getStage t n).graph = none ∧ (getStage t n).st = .off ∧ t.loop.mem = s.loop.mem)
      ∧ (m < 18 → (getEngine s m).stage = none → ∃ t, exec (.scrubRead m w 3 use scrub) s = .next t ∧ LogOnly { s with rel := t.rel } t ∧ t.rel.uncorrectable = s.rel.uncorrectable + 1)
      ∧ (m = 33 → memWf s.flt.mem = true → ∃ t, exec (.scrubRead m w 3 .none scrub) s = .next t ∧ t.flt = { s.flt with mem := t.flt.mem } ∧ ∀ b, memRead t.flt.mem b = if 8 * w ≤ b ∧ b < 8 * w + 8 then 0 else memRead s.flt.mem b)
      ∧ (∀ a, 42 ≤ m → m < 106 → a = (m - 42) * 65536 + 8 * w → capListens s = false → memWf s.cap.mem = true → ∃ t, exec (.scrubRead m w 3 use scrub) s = .next t ∧ t.rel.uncorrectable = s.rel.uncorrectable + 1
          ∧ ∀ b, (a ≤ b ∧ b < a + 8 → memRead t.cap.mem b ≠ memRead s.cap.mem b) ∧ (b < a ∨ a + 8 ≤ b → memRead t.cap.mem b = memRead s.cap.mem b))
      ∧ (34 ≤ m → m < 42 → ((∃ i, use = .logEntry i) ∨ (∃ p e, use = .canTx p e ∨ use = .canRx p e)) → ∃ t, exec (.scrubRead m w 3 use scrub) s = .next t ∧ t.sys = s.sys ∧ t.rel.uncorrectable = s.rel.uncorrectable + 1)
      ∧ (34 ≤ m → m < 42 → ∃ t, exec (.scrubRead m w 3 .none scrub) s = .next t ∧ t.sys.phase = .inReset ∧ t.sys.cause = 0x15#8 ∧ t.pending = s.pending
          ∧ (isRetired s { cls := 0, index := m, row := w / 16, reason := 2 } = false → ∃ y ∈ t.rel.waiting, y.cls = 0 ∧ y.index = m ∧ y.row = w / 16))
      ∧ (106 ≤ m → s.sys.dev = .run → s.safe.causes = 0 → ∃ t, exec (.scrubRead m w 3 use scrub) s = .next t ∧ actedFor s t 16))
    ∧ (nextRetire s 0 = none → exec .rowRemap s = .next s)
    ∧ (∀ r k e, nextRetire s 0 = some r → freeRow s r.index = some k → k < 4 → r.index < 108 → r.row < 512 → r.reason < 7 → r.cls = 0 → e = BitVec.ofNat 64 (r.index * 2 ^ 52 + r.row * 2 ^ 40 + k * 2 ^ 32 + r.reason * 2 ^ 24 + 0xA5) →
        ∃ t, exec .rowRemap s = .next t ∧ LogOnly { s with rel := t.rel } t ∧ t.rel.rows = s.rel.rows ++ [(r.index, r.row, some k)] ∧ t.rel.waiting = s.rel.waiting.erase r ∧ t.rel.otp = s.rel.otp
          ∧ (logLive s = false ∨ logFree s = true → t.rel.logWrites = s.rel.logWrites ++ [e] ∧ t.rel.volatiles = s.rel.volatiles) ∧ (logLive s = true → logFree s = false → t.rel.volatiles = s.rel.volatiles ++ [e] ∧ t.rel.logWrites = s.rel.logWrites))
    ∧ (∀ r, nextRetire s 0 = some r → freeRow s r.index = none → 18 ≤ r.index → ∃ t, exec .rowRemap s = .next t ∧ LogOnly { s with rel := t.rel } t ∧ t.rel.rows = s.rel.rows ++ [(r.index, r.row, none)] ∧ t.rel.waiting = s.rel.waiting.erase r)
    ∧ (s.rel.logWrites = [] → exec .repairLogWriteDone s = .next s)
    ∧ (∀ e l k, s.rel.logWrites = e :: l → logUsed s = k → k < 64 → memWf s.rel.otp = true → ∃ t, exec .repairLogWriteDone s = .next t ∧ LogOnly { s with rel := t.rel } t ∧ t.rel.logWrites = l ∧ otpOutside s t (8 * (896 + k)) 8 ∧ otpWord t (896 + k) = otpWord s (896 + k) ||| e)

/-- In CONFIG a settings block in range, whose plans hold no NaN or infinity, is accepted into the lowest free slot; another answers E_PARAM; over UDP blocks 0 and 3 answer E_AUTH. At the end of a write the slot holds the block, a zero key field replaced by the newest key, and check value, or is spoilt with E_VERIFY; counters and fuses only rise. From every lifecycle state each transition of the table, and one from RETURN to RETURN, is accepted, with its token where one is required, and every other answers E_LIFECYCLE; a wrong token answers E_VERIFY and the nonce is used up. A transition that is programmed closes every session of the Ethernet ports, makes a reset due 100 us on, and to RETURN or END the break of the seal; one that failed programs nothing and makes the reset due. Reads return the bytes asked for, key bytes as zero. A query draws a nonce. SPARE_STATUS returns its fields; a restored repair is decided anew, and where nothing uses the resource carried out. JTAG instructions the lifecycle refuses, and all while TRST_N is low, act as BYPASS. That OTP writes queue and run one at a time and what a failed write leaves are the model's choices (log 117), as are the conditions of E_LIFECYCLE and RETURN to RETURN (log 118), the instant of the seal's break (log 189) and its other choices in log entries 14, 27, 119, 195; that a command whose subject is not there does nothing rests on log 4. -/
def Obligations.OtpLifecycleAndDebug : Prop :=
  ∀ (s : State), Sized s →
    (∀ (via : Transport) (r : Req) (p : Bytes), p = reqParams r →
      (∀ b g k : Nat, Takes 0x0F00#16 via s r → n8At p 0 = b → (b = 0 ∨ b = 1 ∨ b = 3 ∨ b = 4 ∨ b = 5) →
        ((∃ i u, r.via = .udp i u) → b = 0 ∨ b = 3 → exec (.otpWriteBlock via) s = replied r E_AUTH [] (dropRequest s via))
        ∧ (r.via = .cmd → s.sys.dev = .config → s.sys.lifecycle = .develop → p.length = 256 → zeroAt p 1 3 = true → blockReservedOk b (slice p 4 252) = true → blockFinite b (slice p 4 252) = true → freeSlotNow s b = some g → classFull s 0x0F00#16 = false → k = 8 * b + g →
            exec (.otpWriteBlock via) s = accepted r k [] { taken s via with rel := { s.rel with jobs := s.rel.jobs ++ [.block b g (slice p 4 252)] } }))
      ∧ (∀ b : Nat, Takes 0x0F00#16 via s r → n8At p 0 = b → r.via = .cmd → s.sys.dev = .config → s.sys.lifecycle = .develop → p.length = 256 → blockReservedOk b (slice p 4 252) = false ∨ blockFinite b (slice p 4 252) = false →
            exec (.otpWriteBlock via) s = replied r E_PARAM [] (dropRequest s via))
      ∧ (∀ v : Nat, Takes 0x0F00#16 via s r → r.via = .cmd → s.sys.dev = .config → s.sys.lifecycle = .develop → p.length = 8 → n8At p 0 = 6 → zeroAt p 1 3 = true → n16At p 4 = 1 → n16At p 6 = v → counterNow s < v → v ≤ 4096 → classFull s 0x0F00#16 = false →
            exec (.otpWriteBlock via) s = accepted r 48 [] { taken s via with rel := { s.rel with jobs := s.rel.jobs ++ [.counter 1 v] } })
      ∧ (∀ b g o n : Nat, Takes 0x0F01#16 via s r → s.sys.dev ≠ .boot → p.length = 8 → zeroAt p 6 2 = true → n8At p 0 = b → b < 6 → n8At p 1 = g → g < 4 → n16At p 2 = o → n16At p 4 = n → 1 ≤ n → o + n ≤ 256 →
            exec (.otpReadBlock via) s = replied r OK (n8 g ++ n8 (if slotValid b (otpSlot s b g) = true then 1 else 0) ++ zeros 2
              ++ (List.range n).map (fun i => if b = 0 ∧ o + i < 32 ∨ b = 3 ∧ 200 ≤ o + i ∧ o + i < 232 then 0 else memRead s.rel.otp (1024 * b + 256 * g + o + i))) (taken s via))
      ∧ (Takes 0x0F02#16 via s r → s.sys.dev ≠ .boot → p = [0, 0, 0, 0] → ∃ (n : Bytes) (f : Nat), n.length = 16 ∧ exec (.lcTransitionQuery via) s = replied r OK (n8 (lcCode s.sys.lifecycle) ++ n8 (64 - lcC s) ++ zeros 2 ++ n ++ uidBytes s)
              { taken s via with free := f, rel := { s.rel with nonce := some (n, s.time.raw) } })
      ∧ (∀ tgt : Nat, Takes 0x0F02#16 via s r → s.sys.dev ≠ .boot → n8At p 0 = 1 → n8At p 1 = tgt → 2 ≤ tgt → tgt ≤ 6 → 2 ≤ p.length →
        (lcListed s tgt = false → exec (.lcTransition via) s = replied r E_LIFECYCLE [] (dropRequest s via))
        ∧ (lcListed s tgt = true → (s.sys.dev ≠ .config ∧ (s.sys.dev ≠ .safe ∨ tgt < 5) ∨ ∃ n < 8, (getStage s n).st ≠ .off) → exec (.lcTransition via) s = replied r E_STATE [] (dropRequest s via))
        ∧ (lcListed s tgt = true → (s.sys.dev = .config ∨ s.sys.dev = .safe ∧ 5 ≤ tgt) → (∀ n < 8, (getStage s n).st = .off) →
          (∀ a, lcTokened s.sys.lifecycle tgt = false → p = [1, a, 0, 0] →
            (tgt = 4 → 64 ≤ lcC s → exec (.lcTransition via) s = replied r E_RESOURCE [] (dropRequest s via))
            ∧ ((tgt = 4 → lcC s < 64) → s.rel.jobs = [] → classFull s 0x0F02#16 = false → exec (.lcTransition via) s = accepted r tgt [] { taken s via with rel := { s.rel with jobs := [.transition tgt] } }))
          ∧ (∀ tok, lcTokened s.sys.lifecycle tgt = true → p.length = 216 → zeroAt p 2 2 = true → zeroAt p 21 3 = true → tok = slice p 4 212 → (tgt = 3 → freeSlot s 2 ≠ none) → s.rel.jobs = [] → classFull s 0x0F02#16 = false →
            exec (.lcTransition via) s = (if lcTokenOk s tok tgt = true then accepted r tgt [] { taken s via with rel := { s.rel with nonce := none, jobs := [.transition tgt] } } else replied r E_VERIFY [] { taken s via with rel := { s.rel with nonce := none } })
            ∧ (s.rel.nonce = none ∨ (∃ n i, s.rel.nonce = some (n, i) ∧ slice p 4 16 ≠ n) ∨ n8At p 20 ≠ tgt → exec (.lcTransition via) s = replied r E_VERIFY [] { taken s via with rel := { s.rel with nonce := none } }))))
      ∧ (Takes 0x0F04#16 via s r → s.sys.dev ≠ .boot → p = [] → exec (.spareStatus via) s = replied r OK (classBytes s ++ n8 (logUsed s) ++ n8 (min s.rel.volatiles.length 64) ++ zeros 2 ++ (s.rel.volatiles.take 64).flatMap le64) (taken s via))
      ∧ (∀ e x, Takes 0x0F05#16 via s r → s.sys.dev = .config → (∀ n < 8, (getStage s n).st = .off) → p = [1, 0, 0, 0] ++ le64 e → x = { entryRet e with reason := 6 } →
        (entryVoid e = true ∨ retInRange (entryRet e) = false → exec (.repairRestore via) s = replied r E_PARAM [] (dropRequest s via))
        ∧ (entryVoid e = false → retInRange (entryRet e) = true → s.rel.waiting = [] →
          (isRetired s x = true → exec (.repairRestore via) s = replied r OK (n8 0 ++ n8 1 ++ zeros 2) (taken s via))
          ∧ (x.cls = 0 → isRetired s x = false → exec (.repairRestore via) s = replied r OK (n8 1 ++ n8 0 ++ zeros 2) { taken s via with rel := { s.rel with waiting := [x] } })
          ∧ (1 ≤ x.cls → isRetired s x = false → ∃ t, exec (.repairRestore via) s = replied r OK (n8 1 ++ n8 0 ++ zeros 2) t ∧ (t.rel.waiting = [x] ∨ isRetired t x = true ∧ t.rel.waiting = []) ∧ t.rel.otp = s.rel.otp ∧ t.rel.rows = s.rel.rows))))
    ∧ (s.rel.jobs = [] → ∀ ok, exec (.otpProgramDone ok) s = .next s)
    ∧ (∀ l, memWf s.rel.otp = true →
      (∀ b g d ok, s.rel.jobs = .block b g d :: l → d.length = 252 → b < 6 → g < 4 → ∃ t, exec (.otpProgramDone ok) s = .next (endLong 0x0F00#16 (8 * b + g) (if ok = true then OK else E_VERIFY) (n8 g ++ zeros 3) t) ∧ t.rel = { s.rel with jobs := l, otp := t.rel.otp }
          ∧ otpOutside s t (1024 * b + 256 * g) 256 ∧ t.sys = s.sys ∧ t.safe = s.safe ∧ ((otpSlot s b g).all (· == 0) = true → (ok = true → otpSlot t b g = withKeys s b d ++ le32 (crc32c (withKeys s b d))) ∧ (ok = false → b ≠ 2 → slotValid b (otpSlot t b g) = false)))
      ∧ (∀ i v ok, s.rel.jobs = .counter i v :: l → i < 2 → v ≤ 4096 → ∃ t, exec (.otpProgramDone ok) s = .next (endLong 0x0F00#16 48 (if ok = true then OK else E_VERIFY) (n8 0xFF ++ zeros 3) t) ∧ LogOnly { s with rel := t.rel } t ∧ t.rel.jobs = l ∧ otpOutside s t (8 * (768 + 64 * i)) 512
          ∧ (ok = false → t.rel.otp = s.rel.otp) ∧ (ok = true → ∀ w < 4096, (otpWord t (768 + 64 * i + w / 64)).getLsbD (w % 64) = ((otpWord s (768 + 64 * i + w / 64)).getLsbD (w % 64) || decide (w < v))))
      ∧ (∀ g d, s.rel.jobs = .commission g d :: l → d.length = 252 → g < 4 → ∃ t, exec (.otpProgramDone true) s = .next (endLong 0x0A02#16 g OK (n8 g ++ zeros 3) t) ∧ t.rel.jobs = l ∧ t.safe.block = some d ∧ t.safe.inOtp = true ∧ otpOutside s t (8 * (256 + 32 * g)) 256 ∧ t.sys = s.sys)
      ∧ (∀ g d, s.rel.jobs = .commission g d :: l → ∃ t, exec (.otpProgramDone false) s = .next (endLong 0x0A02#16 g E_VERIFY [] t) ∧ t.rel.jobs = l ∧ t.safe = s.safe ∧ t.sys = s.sys)
      ∧ (∀ tgt, s.rel.jobs = .transition tgt :: l → s.sys.longs = [] → s.sys.resetDue = none → ∃ t, exec (.otpProgramDone false) s = .next t ∧ t.rel = { s.rel with jobs := l } ∧ t.udp.sessions = s.udp.sessions ∧ t.sage = s.sage ∧ t.sys = { s.sys with resetDue := some (s.time.raw + 100000, 0x06#8) })
      ∧ (∀ tgt, s.rel.jobs = .transition tgt :: l → s.sys.longs = [] → s.sys.resetDue = none → ∃ t, exec (.otpProgramDone true) s = .next t ∧ t.rel.jobs = l ∧ t.sys = { s.sys with resetDue := some (s.time.raw + 100000, 0x06#8) } ∧ FusesKept s t
          ∧ (∀ x ∈ t.udp.sessions, 2 ≤ x.port)
          ∧ ((tgt = 5 ∨ tgt = 6) → s.sage.sealState = .isSealed → s.sage.sealOp = none → t.sage = { s.sage with sealOp := some .breakLifecycle }) ∧ (tgt < 5 ∨ s.sage.sealState ≠ .isSealed → t.sage = s.sage)
          ∧ (tgt = 2 → otpWord t 1120 = otpWord s 1120 ||| 1) ∧ (tgt = 4 → otpWord t 1121 = otpWord s 1121 ||| thermometer (lcC s + 1)) ∧ (tgt = 3 → s.sys.lifecycle = .develop → otpWord t 1120 = otpWord s 1120 ||| 2)
          ∧ (tgt = 3 → s.sys.lifecycle = .commissioned → otpWord t 1122 = otpWord s 1122 ||| thermometer (lcD s + 1))
          ∧ (tgt = 5 → otpWord t 1120 = otpWord s 1120 ||| 4 ∧ ∀ w, w < 128 ∨ 384 ≤ w ∧ w < 512 → otpWord t w = BitVec.allOnes 64) ∧ (tgt = 6 → otpWord t 1120 = otpWord s 1120 ||| 8 ∧ ∀ w, w < 128 ∨ 384 ≤ w ∧ w < 512 → otpWord t w = BitVec.allOnes 64)))
    ∧ (s.rel.nonce = none → exec .lcNonceExpiry s = .next s)
    ∧ (∀ n i, s.rel.nonce = some (n, i) → exec .lcNonceExpiry s = .next { advanceTo (i + 600000000000) s with rel := { s.rel with nonce := none } })
    ∧ (∀ (i : JtagInstr) (c : Byte) (byLifecycle drives : Prop), (byLifecycle ↔ s.sys.lifecycle = .blank ∨ s.sys.lifecycle = .develop ∨ s.sys.lifecycle = .returned ∨ i = .bypass ∨ s.sys.lifecycle ≠ .ended ∧ (i = .idcode ∨ i = .sample)) → (drives ↔ i = .extest ∨ i = .intest ∨ i = .clamp) →
      exec (.jtagInstruction false i c) s = .next { s with rel := { s.rel with jtag := .bypass } }
      ∧ (byLifecycle → (drives → s.sys.dev ≠ .run ∧ ∀ n < 8, (getStage s n).st = .off) → exec (.jtagInstruction true i c) s = .next { s with rel := { s.rel with jtag := i, jtagCode := c } })
      ∧ ((¬ byLifecycle ∨ drives ∧ (s.sys.dev = .run ∨ ∃ n < 8, (getStage s n).st ≠ .off)) → ∃ t, exec (.jtagInstruction true i c) s = .next t ∧ LogOnly { s with rel := { s.rel with jtag := .bypass } } t))

/-- In the state after reset every list that stands for numbered resources (domains, ports, ADPLLs, channels, timers, groups, units, stages, engines, inputs, outputs, trigger lines, CAN ports, Sage registers) has one place for each, and every addressed memory is in its canonical form. -/
def Obligations.ResetHoldsEveryResource : Prop :=
  Sized State.reset ∧ MemoriesOk State.reset

/-- For every command with any operands and every state: if every list of resources has its length and every memory its canonical form, and the step answers a next state, then the same holds of that state, no fuse of the OTP that was set is clear in it, and its queue is the queue before without the command at its front. So no command, reset, wipe or restore clears a fuse. -/
def Obligations.EveryStepKeepsResourcesMemoriesAndFuses : Prop :=
  ∀ s t : State, step s = .next t → Sized s → MemoriesOk s →
    Sized t ∧ MemoriesOk t ∧ FusesKept s t ∧ t.pending = s.pending.drop 1

/-- For every command that serves requests, whatever its operands: where no request of its transport can be taken, it changes nothing. Where the next request fails the checks of CRC, length, header, opcode or authentication with a status, or was refused as it arrived, the row that the request belongs to by its opcode and kind takes it from its queue and sends the reply with that status and no payload, and does nothing else; every other row changes nothing (log 4). The row of SYS_SET_STATE does the same and then ends a state change whose functions are all off, whether or not a request is there. Two kinds do otherwise before any check: a session open whose nonce was recorded while it waited is discarded with event 0x0103 and no reply, and a request for the parameter queue while that is full is held (log 73). -/
def Obligations.RefusedRequestsLeaveOnlyTheirReply : Prop :=
  ∀ (via : Transport) (s : State),
    (nextRequest s via = none → (∀ c, servedVia c = some via → exec c s = .next s) ∧ ∀ fail, exec (.sysSetState via fail) s = .next (finishStateChange s))
    ∧ (∀ (r : Req) (st : U16), nextRequest s via = some r → headerCheck (dropRequest s via) r = some st → openReplayed s via = false →
        (∀ c, servedVia c = some via → ownRow c r = false → exec c s = .next s)
        ∧ (∀ c, servedVia c = some via → ownRow c r = true → (paramRows c = true → paramFull s = false) → exec c s = replied r st [] (dropRequest s via))
        ∧ (reqOpcode r ≠ 0x0103#16 → (∃ c, servedVia c = some via ∧ ownRow c r = true) ∧ ∀ fail, exec (.sysSetState via fail) s = .next (finishStateChange s))
        ∧ (reqOpcode r = 0x0103#16 → ∀ fail, exec (.sysSetState via fail) s = .next (finishStateChange (flushTurn r.via (replyTo r st [] (dropRequest s via))))))
    ∧ (∀ (port : Nat) (sid : U32), via = .udp port sid → openReplayed s via = true → exec (.ethSessionOpen via) s = .next (flushTurn via (post 0x0103#16 (port + 1) (zeros 8) (dropRequest s via))))
    ∧ (∀ r c, nextRequest s via = some r → paramFull s = true → servedVia c = some via → paramRows c = true → ownRow c r = true → exec c s = .next { s with cmd := { s.cmd with held := some via } })
end

