-- ==== Sys2Proof/Laws/Memory.lean ====
section
/-! SUPPORT. Laws of the sparse memories: every operation keeps the canonical form, a write is read back, and a write
leaves every other address as it was. -/

namespace Sys2Proof.Laws

open Sys2Proof Sys2Proof.Machine

/-- Every listed address is at least `a`. -/
def AddrGe (a : Nat) (m : List Host.Cell) : Prop := ∀ c ∈ m, a ≤ c.1

theorem memWf_tail {c : Host.Cell} {t : List Host.Cell} (h : memWf (c :: t) = true) : memWf t = true := by
  cases t with
  | nil => rfl
  | cons d t => obtain ⟨a, v⟩ := c; obtain ⟨b, w⟩ := d; simp [memWf] at h; exact h.2

theorem memWf_head {a : Nat} {v : Byte} {t : List Host.Cell} (h : memWf ((a, v) :: t) = true) : v ≠ 0 := by
  cases t with
  | nil => simpa [memWf] using h
  | cons d t => obtain ⟨b, w⟩ := d; simp [memWf] at h; exact h.1.1

theorem memWf_addrGe {a : Nat} {v : Byte} {t : List Host.Cell} (h : memWf ((a, v) :: t) = true) : AddrGe (a + 1) t := by
  induction t generalizing a v with
  | nil => intro c hc; cases hc
  | cons d t ih =>
    obtain ⟨b, w⟩ := d
    simp [memWf] at h
    intro c hc
    cases hc with
    | head => show a + 1 ≤ b; omega
    | tail _ hc => have := ih h.2 c hc; omega

theorem memWf_cons {a : Nat} {v : Byte} {t : List Host.Cell} (hv : v ≠ 0) (hge : AddrGe (a + 1) t) (ht : memWf t = true) :
    memWf ((a, v) :: t) = true := by
  cases t with
  | nil => simpa [memWf] using hv
  | cons d t =>
    obtain ⟨b, w⟩ := d
    have : a + 1 ≤ b := hge (b, w) (List.mem_cons_self ..)
    have hv' : ¬ v = 0#8 := hv
    have hab : a < b := by omega
    simp [memWf, hv', hab, ht]

theorem memWrite_addrGe {k : Nat} (m : List Host.Cell) (a : Nat) (x : Byte) (ha : k ≤ a) (hm : AddrGe k m) : AddrGe k (memWrite m a x) := by
  induction m with
  | nil => intro c hc; simp only [memWrite] at hc; split at hc <;> simp_all
  | cons d t ih =>
    obtain ⟨b, v⟩ := d
    have hb : k ≤ b := hm (b, v) (List.mem_cons_self ..)
    have ht : AddrGe k t := fun c hc => hm c (List.mem_cons_of_mem _ hc)
    intro c hc
    simp only [memWrite] at hc
    split at hc
    · split at hc
      · exact hm c hc
      · cases hc with
        | head => exact ha
        | tail _ hc => exact hm c hc
    · split at hc
      · split at hc
        · exact ht c hc
        · cases hc with
          | head => exact ha
          | tail _ hc => exact ht c hc
      · cases hc with
        | head => exact hb
        | tail _ hc => exact ih ht c hc

/-- A write keeps the canonical form. -/
theorem memWrite_wf (m : List Host.Cell) (a : Nat) (x : Byte) (h : memWf m = true) : memWf (memWrite m a x) = true := by
  induction m with
  | nil => simp only [memWrite]; split <;> simp_all [memWf]
  | cons d t ih =>
    obtain ⟨b, v⟩ := d
    have ht := memWf_tail h
    have hge := memWf_addrGe h
    have hv := memWf_head h
    simp only [memWrite]
    split
    · split
      · exact h
      · rename_i hab hx
        refine memWf_cons hx ?_ h
        intro c hc
        cases hc with
        | head => exact hab
        | tail _ hc => have := hge c hc; omega
    · split
      · split
        · exact ht
        · rename_i hx; subst_vars; exact memWf_cons hx hge ht
      · refine memWf_cons hv ?_ (ih ht)
        exact memWrite_addrGe t a x (by omega) hge

/-- Writing bytes keeps the canonical form. -/
theorem memWriteBytes_wf (b : Bytes) (m : List Host.Cell) (a : Nat) (h : memWf m = true) : memWf (memWriteBytes m a b) = true := by
  induction b generalizing m a with
  | nil => exact h
  | cons x t ih => exact ih _ _ (memWrite_wf m a x h)

theorem filter_addrGe {k : Nat} {m : List Host.Cell} (p : Host.Cell → Bool) (h : AddrGe k m) : AddrGe k (m.filter p) :=
  fun c hc => h c (List.mem_of_mem_filter hc)

/-- Dropping entries keeps the canonical form. -/
theorem filter_wf (p : Host.Cell → Bool) (m : List Host.Cell) (h : memWf m = true) : memWf (m.filter p) = true := by
  induction m with
  | nil => rfl
  | cons d t ih =>
    obtain ⟨b, v⟩ := d
    rw [List.filter_cons]
    split
    · exact memWf_cons (memWf_head h) (filter_addrGe p (memWf_addrGe h)) (ih (memWf_tail h))
    · exact ih (memWf_tail h)

/-- Clearing bytes keeps the canonical form. -/
theorem memClear_wf (m : List Host.Cell) (a n : Nat) (h : memWf m = true) : memWf (memClear m a n) = true := filter_wf _ m h

theorem memRead_of_addrGe {m : List Host.Cell} {a : Nat} (h : AddrGe (a + 1) m) : memRead m a = 0 := by
  cases m with
  | nil => rfl
  | cons d t =>
    obtain ⟨b, v⟩ := d
    have : a + 1 ≤ b := h (b, v) (List.mem_cons_self ..)
    simp only [memRead]
    split
    · omega
    · rw [if_pos (by omega)]

/-- A byte written is read back. -/
theorem memRead_memWrite_same (m : List Host.Cell) (a : Nat) (x : Byte) (h : memWf m = true) : memRead (memWrite m a x) a = x := by
  induction m with
  | nil => simp only [memWrite]; split <;> simp_all [memRead]
  | cons d t ih =>
    obtain ⟨b, v⟩ := d
    have hge := memWf_addrGe h
    simp only [memWrite]
    split
    · rename_i hab
      split
      · rename_i hx; subst hx; simp only [memRead]; rw [if_neg (by omega), if_pos hab]
      · simp [memRead]
    · split
      · rename_i hab
        subst hab
        split
        · rename_i hx; subst hx; exact memRead_of_addrGe hge
        · simp [memRead]
      · simp only [memRead]; rw [if_neg (by omega), if_neg (by omega)]; exact ih (memWf_tail h)

/-- A write leaves every other address as it was. -/
theorem memRead_memWrite_other (m : List Host.Cell) (a c : Nat) (x : Byte) (hc : c ≠ a) (h : memWf m = true) :
    memRead (memWrite m a x) c = memRead m c := by
  induction m with
  | nil => simp only [memWrite]; split <;> simp_all [memRead]
  | cons d t ih =>
    obtain ⟨b, v⟩ := d
    have hge := memWf_addrGe h
    simp only [memWrite]
    split
    · split
      · rfl
      · simp only [memRead, if_neg hc]; grind
    · split
      · rename_i hab
        subst hab
        split
        · simp only [memRead, if_neg hc]
          split
          · exact memRead_of_addrGe fun d hd => by have := hge d hd; omega
          · rfl
        · simp [memRead, if_neg hc]
      · simp only [memRead]; rw [ih (memWf_tail h)]

/-- The bytes written are read back, and every other address is as it was. -/
theorem memRead_memWriteBytes (b : Bytes) (m : List Host.Cell) (a c : Nat) (h : memWf m = true) :
    memRead (memWriteBytes m a b) c = if a ≤ c ∧ c < a + b.length then b.getD (c - a) 0 else memRead m c := by
  induction b generalizing m a with
  | nil => simp [memWriteBytes]
  | cons x t ih =>
    simp only [memWriteBytes, ih _ _ (memWrite_wf m a x h), List.length_cons]
    by_cases hc : c = a
    · subst hc
      simp [memRead_memWrite_same _ _ _ h]
    · rw [memRead_memWrite_other _ _ _ _ hc h]
      by_cases h1 : a + 1 ≤ c ∧ c < a + 1 + t.length
      · rw [if_pos h1, if_pos (by omega)]
        obtain ⟨k, rfl⟩ : ∃ k, c = a + 1 + k := ⟨c - (a + 1), by omega⟩
        rw [show a + 1 + k - (a + 1) = k by omega, show a + 1 + k - a = k + 1 by omega, List.getD_cons_succ]
      · rw [if_neg h1, if_neg (by omega)]

/-- The bytes cleared read 0, and every other address is as it was. -/
theorem memRead_memClear (m : List Host.Cell) (a n c : Nat) (h : memWf m = true) :
    memRead (memClear m a n) c = if a ≤ c ∧ c < a + n then 0 else memRead m c := by
  induction m with
  | nil => simp [memClear, memRead]
  | cons d t ih =>
    obtain ⟨b, v⟩ := d
    have ih := ih (memWf_tail h)
    have hge := memWf_addrGe h
    simp only [memClear, List.filter_cons] at ih ⊢
    by_cases hb : a ≤ b ∧ b < a + n
    · simp only [hb, decide_true, Bool.and_self, Bool.not_true, Bool.false_eq_true, if_false, ih, memRead]
      by_cases hcb : c = b
      · subst hcb; simp [hb]
      · by_cases hlt : c < b
        · rw [if_neg hcb, if_pos hlt, memRead_of_addrGe fun d hd => by have := hge d hd; omega]
        · rw [if_neg hcb, if_neg hlt]
    · have : (!(decide (a ≤ b) && decide (b < a + n))) = true := by simp; omega
      simp only [this, if_true, memRead, ih]
      by_cases hcb : c = b
      · subst hcb; simp [hb]
      · rw [if_neg hcb, if_neg hcb]; grind

end Sys2Proof.Laws
end

