-- ==== Sys2Proof/Laws/State.lean ====
section
/-! SUPPORT. One lemma per field per plain update of the state, each true by definition. -/

namespace Sys2Proof.Laws

open Sys2Proof Sys2Proof.Machine

/-! ### setOut -/

@[simp] theorem setOut_time (b : Bytes) (clocked : Nat) (s : State) : (setOut b clocked s).time = s.time := rfl
@[simp] theorem setOut_sys (b : Bytes) (clocked : Nat) (s : State) : (setOut b clocked s).sys = s.sys := rfl
@[simp] theorem setOut_cmd (b : Bytes) (clocked : Nat) (s : State) : (setOut b clocked s).cmd = s.cmd := rfl
@[simp] theorem setOut_udp (b : Bytes) (clocked : Nat) (s : State) : (setOut b clocked s).udp = s.udp := rfl
@[simp] theorem setOut_evt (b : Bytes) (clocked : Nat) (s : State) : (setOut b clocked s).evt = s.evt := rfl
@[simp] theorem setOut_bulk (b : Bytes) (clocked : Nat) (s : State) : (setOut b clocked s).bulk = { s.bulk with out := slice b 0 clocked } := rfl
@[simp] theorem setOut_img (b : Bytes) (clocked : Nat) (s : State) : (setOut b clocked s).img = s.img := rfl
@[simp] theorem setOut_sup (b : Bytes) (clocked : Nat) (s : State) : (setOut b clocked s).sup = s.sup := rfl
@[simp] theorem setOut_gov (b : Bytes) (clocked : Nat) (s : State) : (setOut b clocked s).gov = s.gov := rfl
@[simp] theorem setOut_stag (b : Bytes) (clocked : Nat) (s : State) : (setOut b clocked s).stag = s.stag := rfl
@[simp] theorem setOut_eth (b : Bytes) (clocked : Nat) (s : State) : (setOut b clocked s).eth = s.eth := rfl
@[simp] theorem setOut_insts (b : Bytes) (clocked : Nat) (s : State) : (setOut b clocked s).insts = s.insts := rfl
@[simp] theorem setOut_clk (b : Bytes) (clocked : Nat) (s : State) : (setOut b clocked s).clk = s.clk := rfl
@[simp] theorem setOut_sense (b : Bytes) (clocked : Nat) (s : State) : (setOut b clocked s).sense = s.sense := rfl
@[simp] theorem setOut_flt (b : Bytes) (clocked : Nat) (s : State) : (setOut b clocked s).flt = s.flt := rfl
@[simp] theorem setOut_pwm (b : Bytes) (clocked : Nat) (s : State) : (setOut b clocked s).pwm = s.pwm := rfl
@[simp] theorem setOut_loop (b : Bytes) (clocked : Nat) (s : State) : (setOut b clocked s).loop = s.loop := rfl
@[simp] theorem setOut_safe (b : Bytes) (clocked : Nat) (s : State) : (setOut b clocked s).safe = s.safe := rfl
@[simp] theorem setOut_field (b : Bytes) (clocked : Nat) (s : State) : (setOut b clocked s).field = s.field := rfl
@[simp] theorem setOut_cap (b : Bytes) (clocked : Nat) (s : State) : (setOut b clocked s).cap = s.cap := rfl
@[simp] theorem setOut_fus (b : Bytes) (clocked : Nat) (s : State) : (setOut b clocked s).fus = s.fus := rfl
@[simp] theorem setOut_can (b : Bytes) (clocked : Nat) (s : State) : (setOut b clocked s).can = s.can := rfl
@[simp] theorem setOut_sage (b : Bytes) (clocked : Nat) (s : State) : (setOut b clocked s).sage = s.sage := rfl
@[simp] theorem setOut_rel (b : Bytes) (clocked : Nat) (s : State) : (setOut b clocked s).rel = s.rel := rfl
@[simp] theorem setOut_free (b : Bytes) (clocked : Nat) (s : State) : (setOut b clocked s).free = s.free := rfl
@[simp] theorem setOut_pending (b : Bytes) (clocked : Nat) (s : State) : (setOut b clocked s).pending = s.pending := rfl

/-! ### countRx -/

@[simp] theorem countRx_time (port : Nat) (s : State) : (countRx port s).time = s.time := rfl
@[simp] theorem countRx_sys (port : Nat) (s : State) : (countRx port s).sys = s.sys := rfl
@[simp] theorem countRx_cmd (port : Nat) (s : State) : (countRx port s).cmd = s.cmd := rfl
@[simp] theorem countRx_udp (port : Nat) (s : State) : (countRx port s).udp = s.udp := rfl
@[simp] theorem countRx_evt (port : Nat) (s : State) : (countRx port s).evt = s.evt := rfl
@[simp] theorem countRx_bulk (port : Nat) (s : State) : (countRx port s).bulk = s.bulk := rfl
@[simp] theorem countRx_img (port : Nat) (s : State) : (countRx port s).img = s.img := rfl
@[simp] theorem countRx_sup (port : Nat) (s : State) : (countRx port s).sup = s.sup := rfl
@[simp] theorem countRx_gov (port : Nat) (s : State) : (countRx port s).gov = s.gov := rfl
@[simp] theorem countRx_stag (port : Nat) (s : State) : (countRx port s).stag = s.stag := rfl
@[simp] theorem countRx_eth (port : Nat) (s : State) : (countRx port s).eth = upd s.eth port (fun e => { e with rxFrames := e.rxFrames + 1 }) := rfl
@[simp] theorem countRx_insts (port : Nat) (s : State) : (countRx port s).insts = s.insts := rfl
@[simp] theorem countRx_clk (port : Nat) (s : State) : (countRx port s).clk = s.clk := rfl
@[simp] theorem countRx_sense (port : Nat) (s : State) : (countRx port s).sense = s.sense := rfl
@[simp] theorem countRx_flt (port : Nat) (s : State) : (countRx port s).flt = s.flt := rfl
@[simp] theorem countRx_pwm (port : Nat) (s : State) : (countRx port s).pwm = s.pwm := rfl
@[simp] theorem countRx_loop (port : Nat) (s : State) : (countRx port s).loop = s.loop := rfl
@[simp] theorem countRx_safe (port : Nat) (s : State) : (countRx port s).safe = s.safe := rfl
@[simp] theorem countRx_field (port : Nat) (s : State) : (countRx port s).field = s.field := rfl
@[simp] theorem countRx_cap (port : Nat) (s : State) : (countRx port s).cap = s.cap := rfl
@[simp] theorem countRx_fus (port : Nat) (s : State) : (countRx port s).fus = s.fus := rfl
@[simp] theorem countRx_can (port : Nat) (s : State) : (countRx port s).can = s.can := rfl
@[simp] theorem countRx_sage (port : Nat) (s : State) : (countRx port s).sage = s.sage := rfl
@[simp] theorem countRx_rel (port : Nat) (s : State) : (countRx port s).rel = s.rel := rfl
@[simp] theorem countRx_free (port : Nat) (s : State) : (countRx port s).free = s.free := rfl
@[simp] theorem countRx_pending (port : Nat) (s : State) : (countRx port s).pending = s.pending := rfl

/-! ### updInst -/

@[simp] theorem updInst_time (i : Nat) (f : TimeInst → TimeInst) (s : State) : (updInst i f s).time = s.time := rfl
@[simp] theorem updInst_sys (i : Nat) (f : TimeInst → TimeInst) (s : State) : (updInst i f s).sys = s.sys := rfl
@[simp] theorem updInst_cmd (i : Nat) (f : TimeInst → TimeInst) (s : State) : (updInst i f s).cmd = s.cmd := rfl
@[simp] theorem updInst_udp (i : Nat) (f : TimeInst → TimeInst) (s : State) : (updInst i f s).udp = s.udp := rfl
@[simp] theorem updInst_evt (i : Nat) (f : TimeInst → TimeInst) (s : State) : (updInst i f s).evt = s.evt := rfl
@[simp] theorem updInst_bulk (i : Nat) (f : TimeInst → TimeInst) (s : State) : (updInst i f s).bulk = s.bulk := rfl
@[simp] theorem updInst_img (i : Nat) (f : TimeInst → TimeInst) (s : State) : (updInst i f s).img = s.img := rfl
@[simp] theorem updInst_sup (i : Nat) (f : TimeInst → TimeInst) (s : State) : (updInst i f s).sup = s.sup := rfl
@[simp] theorem updInst_gov (i : Nat) (f : TimeInst → TimeInst) (s : State) : (updInst i f s).gov = s.gov := rfl
@[simp] theorem updInst_stag (i : Nat) (f : TimeInst → TimeInst) (s : State) : (updInst i f s).stag = s.stag := rfl
@[simp] theorem updInst_eth (i : Nat) (f : TimeInst → TimeInst) (s : State) : (updInst i f s).eth = s.eth := rfl
@[simp] theorem updInst_insts (i : Nat) (f : TimeInst → TimeInst) (s : State) : (updInst i f s).insts = upd s.insts i f := rfl
@[simp] theorem updInst_clk (i : Nat) (f : TimeInst → TimeInst) (s : State) : (updInst i f s).clk = s.clk := rfl
@[simp] theorem updInst_sense (i : Nat) (f : TimeInst → TimeInst) (s : State) : (updInst i f s).sense = s.sense := rfl
@[simp] theorem updInst_flt (i : Nat) (f : TimeInst → TimeInst) (s : State) : (updInst i f s).flt = s.flt := rfl
@[simp] theorem updInst_pwm (i : Nat) (f : TimeInst → TimeInst) (s : State) : (updInst i f s).pwm = s.pwm := rfl
@[simp] theorem updInst_loop (i : Nat) (f : TimeInst → TimeInst) (s : State) : (updInst i f s).loop = s.loop := rfl
@[simp] theorem updInst_safe (i : Nat) (f : TimeInst → TimeInst) (s : State) : (updInst i f s).safe = s.safe := rfl
@[simp] theorem updInst_field (i : Nat) (f : TimeInst → TimeInst) (s : State) : (updInst i f s).field = s.field := rfl
@[simp] theorem updInst_cap (i : Nat) (f : TimeInst → TimeInst) (s : State) : (updInst i f s).cap = s.cap := rfl
@[simp] theorem updInst_fus (i : Nat) (f : TimeInst → TimeInst) (s : State) : (updInst i f s).fus = s.fus := rfl
@[simp] theorem updInst_can (i : Nat) (f : TimeInst → TimeInst) (s : State) : (updInst i f s).can = s.can := rfl
@[simp] theorem updInst_sage (i : Nat) (f : TimeInst → TimeInst) (s : State) : (updInst i f s).sage = s.sage := rfl
@[simp] theorem updInst_rel (i : Nat) (f : TimeInst → TimeInst) (s : State) : (updInst i f s).rel = s.rel := rfl
@[simp] theorem updInst_free (i : Nat) (f : TimeInst → TimeInst) (s : State) : (updInst i f s).free = s.free := rfl
@[simp] theorem updInst_pending (i : Nat) (f : TimeInst → TimeInst) (s : State) : (updInst i f s).pending = s.pending := rfl

/-! ### updEth -/

@[simp] theorem updEth_time (p : Nat) (f : EthPort → EthPort) (s : State) : (updEth p f s).time = s.time := rfl
@[simp] theorem updEth_sys (p : Nat) (f : EthPort → EthPort) (s : State) : (updEth p f s).sys = s.sys := rfl
@[simp] theorem updEth_cmd (p : Nat) (f : EthPort → EthPort) (s : State) : (updEth p f s).cmd = s.cmd := rfl
@[simp] theorem updEth_udp (p : Nat) (f : EthPort → EthPort) (s : State) : (updEth p f s).udp = s.udp := rfl
@[simp] theorem updEth_evt (p : Nat) (f : EthPort → EthPort) (s : State) : (updEth p f s).evt = s.evt := rfl
@[simp] theorem updEth_bulk (p : Nat) (f : EthPort → EthPort) (s : State) : (updEth p f s).bulk = s.bulk := rfl
@[simp] theorem updEth_img (p : Nat) (f : EthPort → EthPort) (s : State) : (updEth p f s).img = s.img := rfl
@[simp] theorem updEth_sup (p : Nat) (f : EthPort → EthPort) (s : State) : (updEth p f s).sup = s.sup := rfl
@[simp] theorem updEth_gov (p : Nat) (f : EthPort → EthPort) (s : State) : (updEth p f s).gov = s.gov := rfl
@[simp] theorem updEth_stag (p : Nat) (f : EthPort → EthPort) (s : State) : (updEth p f s).stag = s.stag := rfl
@[simp] theorem updEth_eth (p : Nat) (f : EthPort → EthPort) (s : State) : (updEth p f s).eth = upd s.eth p f := rfl
@[simp] theorem updEth_insts (p : Nat) (f : EthPort → EthPort) (s : State) : (updEth p f s).insts = s.insts := rfl
@[simp] theorem updEth_clk (p : Nat) (f : EthPort → EthPort) (s : State) : (updEth p f s).clk = s.clk := rfl
@[simp] theorem updEth_sense (p : Nat) (f : EthPort → EthPort) (s : State) : (updEth p f s).sense = s.sense := rfl
@[simp] theorem updEth_flt (p : Nat) (f : EthPort → EthPort) (s : State) : (updEth p f s).flt = s.flt := rfl
@[simp] theorem updEth_pwm (p : Nat) (f : EthPort → EthPort) (s : State) : (updEth p f s).pwm = s.pwm := rfl
@[simp] theorem updEth_loop (p : Nat) (f : EthPort → EthPort) (s : State) : (updEth p f s).loop = s.loop := rfl
@[simp] theorem updEth_safe (p : Nat) (f : EthPort → EthPort) (s : State) : (updEth p f s).safe = s.safe := rfl
@[simp] theorem updEth_field (p : Nat) (f : EthPort → EthPort) (s : State) : (updEth p f s).field = s.field := rfl
@[simp] theorem updEth_cap (p : Nat) (f : EthPort → EthPort) (s : State) : (updEth p f s).cap = s.cap := rfl
@[simp] theorem updEth_fus (p : Nat) (f : EthPort → EthPort) (s : State) : (updEth p f s).fus = s.fus := rfl
@[simp] theorem updEth_can (p : Nat) (f : EthPort → EthPort) (s : State) : (updEth p f s).can = s.can := rfl
@[simp] theorem updEth_sage (p : Nat) (f : EthPort → EthPort) (s : State) : (updEth p f s).sage = s.sage := rfl
@[simp] theorem updEth_rel (p : Nat) (f : EthPort → EthPort) (s : State) : (updEth p f s).rel = s.rel := rfl
@[simp] theorem updEth_free (p : Nat) (f : EthPort → EthPort) (s : State) : (updEth p f s).free = s.free := rfl
@[simp] theorem updEth_pending (p : Nat) (f : EthPort → EthPort) (s : State) : (updEth p f s).pending = s.pending := rfl

/-! ### enqueueParam -/

@[simp] theorem enqueueParam_time (n words : Nat) (s : State) : (enqueueParam n words s).time = s.time := rfl
@[simp] theorem enqueueParam_sys (n words : Nat) (s : State) : (enqueueParam n words s).sys = s.sys := rfl
@[simp] theorem enqueueParam_cmd (n words : Nat) (s : State) : (enqueueParam n words s).cmd = s.cmd := rfl
@[simp] theorem enqueueParam_udp (n words : Nat) (s : State) : (enqueueParam n words s).udp = s.udp := rfl
@[simp] theorem enqueueParam_evt (n words : Nat) (s : State) : (enqueueParam n words s).evt = s.evt := rfl
@[simp] theorem enqueueParam_bulk (n words : Nat) (s : State) : (enqueueParam n words s).bulk = s.bulk := rfl
@[simp] theorem enqueueParam_img (n words : Nat) (s : State) : (enqueueParam n words s).img = s.img := rfl
@[simp] theorem enqueueParam_sup (n words : Nat) (s : State) : (enqueueParam n words s).sup = s.sup := rfl
@[simp] theorem enqueueParam_gov (n words : Nat) (s : State) : (enqueueParam n words s).gov = s.gov := rfl
@[simp] theorem enqueueParam_stag (n words : Nat) (s : State) : (enqueueParam n words s).stag = s.stag := rfl
@[simp] theorem enqueueParam_eth (n words : Nat) (s : State) : (enqueueParam n words s).eth = s.eth := rfl
@[simp] theorem enqueueParam_insts (n words : Nat) (s : State) : (enqueueParam n words s).insts = s.insts := rfl
@[simp] theorem enqueueParam_clk (n words : Nat) (s : State) : (enqueueParam n words s).clk = s.clk := rfl
@[simp] theorem enqueueParam_sense (n words : Nat) (s : State) : (enqueueParam n words s).sense = s.sense := rfl
@[simp] theorem enqueueParam_flt (n words : Nat) (s : State) : (enqueueParam n words s).flt = s.flt := rfl
@[simp] theorem enqueueParam_pwm (n words : Nat) (s : State) : (enqueueParam n words s).pwm = s.pwm := rfl
@[simp] theorem enqueueParam_loop (n words : Nat) (s : State) : (enqueueParam n words s).loop = { s.loop with pqueue := s.loop.pqueue ++ [{ stage := n, words := words }] } := rfl
@[simp] theorem enqueueParam_safe (n words : Nat) (s : State) : (enqueueParam n words s).safe = s.safe := rfl
@[simp] theorem enqueueParam_field (n words : Nat) (s : State) : (enqueueParam n words s).field = s.field := rfl
@[simp] theorem enqueueParam_cap (n words : Nat) (s : State) : (enqueueParam n words s).cap = s.cap := rfl
@[simp] theorem enqueueParam_fus (n words : Nat) (s : State) : (enqueueParam n words s).fus = s.fus := rfl
@[simp] theorem enqueueParam_can (n words : Nat) (s : State) : (enqueueParam n words s).can = s.can := rfl
@[simp] theorem enqueueParam_sage (n words : Nat) (s : State) : (enqueueParam n words s).sage = s.sage := rfl
@[simp] theorem enqueueParam_rel (n words : Nat) (s : State) : (enqueueParam n words s).rel = s.rel := rfl
@[simp] theorem enqueueParam_free (n words : Nat) (s : State) : (enqueueParam n words s).free = s.free := rfl
@[simp] theorem enqueueParam_pending (n words : Nat) (s : State) : (enqueueParam n words s).pending = s.pending := rfl

/-! ### countRequest -/

@[simp] theorem countRequest_time (s : State) : (countRequest s).time = s.time := rfl
@[simp] theorem countRequest_sys (s : State) : (countRequest s).sys = { s.sys with requests := s.sys.requests + 1 } := rfl
@[simp] theorem countRequest_cmd (s : State) : (countRequest s).cmd = s.cmd := rfl
@[simp] theorem countRequest_udp (s : State) : (countRequest s).udp = s.udp := rfl
@[simp] theorem countRequest_evt (s : State) : (countRequest s).evt = s.evt := rfl
@[simp] theorem countRequest_bulk (s : State) : (countRequest s).bulk = s.bulk := rfl
@[simp] theorem countRequest_img (s : State) : (countRequest s).img = s.img := rfl
@[simp] theorem countRequest_sup (s : State) : (countRequest s).sup = s.sup := rfl
@[simp] theorem countRequest_gov (s : State) : (countRequest s).gov = s.gov := rfl
@[simp] theorem countRequest_stag (s : State) : (countRequest s).stag = s.stag := rfl
@[simp] theorem countRequest_eth (s : State) : (countRequest s).eth = s.eth := rfl
@[simp] theorem countRequest_insts (s : State) : (countRequest s).insts = s.insts := rfl
@[simp] theorem countRequest_clk (s : State) : (countRequest s).clk = s.clk := rfl
@[simp] theorem countRequest_sense (s : State) : (countRequest s).sense = s.sense := rfl
@[simp] theorem countRequest_flt (s : State) : (countRequest s).flt = s.flt := rfl
@[simp] theorem countRequest_pwm (s : State) : (countRequest s).pwm = s.pwm := rfl
@[simp] theorem countRequest_loop (s : State) : (countRequest s).loop = s.loop := rfl
@[simp] theorem countRequest_safe (s : State) : (countRequest s).safe = s.safe := rfl
@[simp] theorem countRequest_field (s : State) : (countRequest s).field = s.field := rfl
@[simp] theorem countRequest_cap (s : State) : (countRequest s).cap = s.cap := rfl
@[simp] theorem countRequest_fus (s : State) : (countRequest s).fus = s.fus := rfl
@[simp] theorem countRequest_can (s : State) : (countRequest s).can = s.can := rfl
@[simp] theorem countRequest_sage (s : State) : (countRequest s).sage = s.sage := rfl
@[simp] theorem countRequest_rel (s : State) : (countRequest s).rel = s.rel := rfl
@[simp] theorem countRequest_free (s : State) : (countRequest s).free = s.free := rfl
@[simp] theorem countRequest_pending (s : State) : (countRequest s).pending = s.pending := rfl

/-! ### advanceTo -/

@[simp] theorem advanceTo_time (t : Nat) (s : State) : (advanceTo t s).time = { s.time with raw := max s.time.raw t } := rfl
@[simp] theorem advanceTo_sys (t : Nat) (s : State) : (advanceTo t s).sys = s.sys := rfl
@[simp] theorem advanceTo_cmd (t : Nat) (s : State) : (advanceTo t s).cmd = s.cmd := rfl
@[simp] theorem advanceTo_udp (t : Nat) (s : State) : (advanceTo t s).udp = s.udp := rfl
@[simp] theorem advanceTo_evt (t : Nat) (s : State) : (advanceTo t s).evt = s.evt := rfl
@[simp] theorem advanceTo_bulk (t : Nat) (s : State) : (advanceTo t s).bulk = s.bulk := rfl
@[simp] theorem advanceTo_img (t : Nat) (s : State) : (advanceTo t s).img = s.img := rfl
@[simp] theorem advanceTo_sup (t : Nat) (s : State) : (advanceTo t s).sup = s.sup := rfl
@[simp] theorem advanceTo_gov (t : Nat) (s : State) : (advanceTo t s).gov = s.gov := rfl
@[simp] theorem advanceTo_stag (t : Nat) (s : State) : (advanceTo t s).stag = s.stag := rfl
@[simp] theorem advanceTo_eth (t : Nat) (s : State) : (advanceTo t s).eth = s.eth := rfl
@[simp] theorem advanceTo_insts (t : Nat) (s : State) : (advanceTo t s).insts = s.insts := rfl
@[simp] theorem advanceTo_clk (t : Nat) (s : State) : (advanceTo t s).clk = s.clk := rfl
@[simp] theorem advanceTo_sense (t : Nat) (s : State) : (advanceTo t s).sense = s.sense := rfl
@[simp] theorem advanceTo_flt (t : Nat) (s : State) : (advanceTo t s).flt = s.flt := rfl
@[simp] theorem advanceTo_pwm (t : Nat) (s : State) : (advanceTo t s).pwm = s.pwm := rfl
@[simp] theorem advanceTo_loop (t : Nat) (s : State) : (advanceTo t s).loop = s.loop := rfl
@[simp] theorem advanceTo_safe (t : Nat) (s : State) : (advanceTo t s).safe = s.safe := rfl
@[simp] theorem advanceTo_field (t : Nat) (s : State) : (advanceTo t s).field = s.field := rfl
@[simp] theorem advanceTo_cap (t : Nat) (s : State) : (advanceTo t s).cap = s.cap := rfl
@[simp] theorem advanceTo_fus (t : Nat) (s : State) : (advanceTo t s).fus = s.fus := rfl
@[simp] theorem advanceTo_can (t : Nat) (s : State) : (advanceTo t s).can = s.can := rfl
@[simp] theorem advanceTo_sage (t : Nat) (s : State) : (advanceTo t s).sage = s.sage := rfl
@[simp] theorem advanceTo_rel (t : Nat) (s : State) : (advanceTo t s).rel = s.rel := rfl
@[simp] theorem advanceTo_free (t : Nat) (s : State) : (advanceTo t s).free = s.free := rfl
@[simp] theorem advanceTo_pending (t : Nat) (s : State) : (advanceTo t s).pending = s.pending := rfl

/-! ### updCan -/

@[simp] theorem updCan_time (p : Nat) (f : CanPort → CanPort) (s : State) : (updCan p f s).time = s.time := rfl
@[simp] theorem updCan_sys (p : Nat) (f : CanPort → CanPort) (s : State) : (updCan p f s).sys = s.sys := rfl
@[simp] theorem updCan_cmd (p : Nat) (f : CanPort → CanPort) (s : State) : (updCan p f s).cmd = s.cmd := rfl
@[simp] theorem updCan_udp (p : Nat) (f : CanPort → CanPort) (s : State) : (updCan p f s).udp = s.udp := rfl
@[simp] theorem updCan_evt (p : Nat) (f : CanPort → CanPort) (s : State) : (updCan p f s).evt = s.evt := rfl
@[simp] theorem updCan_bulk (p : Nat) (f : CanPort → CanPort) (s : State) : (updCan p f s).bulk = s.bulk := rfl
@[simp] theorem updCan_img (p : Nat) (f : CanPort → CanPort) (s : State) : (updCan p f s).img = s.img := rfl
@[simp] theorem updCan_sup (p : Nat) (f : CanPort → CanPort) (s : State) : (updCan p f s).sup = s.sup := rfl
@[simp] theorem updCan_gov (p : Nat) (f : CanPort → CanPort) (s : State) : (updCan p f s).gov = s.gov := rfl
@[simp] theorem updCan_stag (p : Nat) (f : CanPort → CanPort) (s : State) : (updCan p f s).stag = s.stag := rfl
@[simp] theorem updCan_eth (p : Nat) (f : CanPort → CanPort) (s : State) : (updCan p f s).eth = s.eth := rfl
@[simp] theorem updCan_insts (p : Nat) (f : CanPort → CanPort) (s : State) : (updCan p f s).insts = s.insts := rfl
@[simp] theorem updCan_clk (p : Nat) (f : CanPort → CanPort) (s : State) : (updCan p f s).clk = s.clk := rfl
@[simp] theorem updCan_sense (p : Nat) (f : CanPort → CanPort) (s : State) : (updCan p f s).sense = s.sense := rfl
@[simp] theorem updCan_flt (p : Nat) (f : CanPort → CanPort) (s : State) : (updCan p f s).flt = s.flt := rfl
@[simp] theorem updCan_pwm (p : Nat) (f : CanPort → CanPort) (s : State) : (updCan p f s).pwm = s.pwm := rfl
@[simp] theorem updCan_loop (p : Nat) (f : CanPort → CanPort) (s : State) : (updCan p f s).loop = s.loop := rfl
@[simp] theorem updCan_safe (p : Nat) (f : CanPort → CanPort) (s : State) : (updCan p f s).safe = s.safe := rfl
@[simp] theorem updCan_field (p : Nat) (f : CanPort → CanPort) (s : State) : (updCan p f s).field = s.field := rfl
@[simp] theorem updCan_cap (p : Nat) (f : CanPort → CanPort) (s : State) : (updCan p f s).cap = s.cap := rfl
@[simp] theorem updCan_fus (p : Nat) (f : CanPort → CanPort) (s : State) : (updCan p f s).fus = s.fus := rfl
@[simp] theorem updCan_can (p : Nat) (f : CanPort → CanPort) (s : State) : (updCan p f s).can = { s.can with ports := upd s.can.ports p f } := rfl
@[simp] theorem updCan_sage (p : Nat) (f : CanPort → CanPort) (s : State) : (updCan p f s).sage = s.sage := rfl
@[simp] theorem updCan_rel (p : Nat) (f : CanPort → CanPort) (s : State) : (updCan p f s).rel = s.rel := rfl
@[simp] theorem updCan_free (p : Nat) (f : CanPort → CanPort) (s : State) : (updCan p f s).free = s.free := rfl
@[simp] theorem updCan_pending (p : Nat) (f : CanPort → CanPort) (s : State) : (updCan p f s).pending = s.pending := rfl

/-! ### canWrite -/

@[simp] theorem canWrite_time (a : Nat) (b : Bytes) (s : State) : (canWrite a b s).time = s.time := rfl
@[simp] theorem canWrite_sys (a : Nat) (b : Bytes) (s : State) : (canWrite a b s).sys = s.sys := rfl
@[simp] theorem canWrite_cmd (a : Nat) (b : Bytes) (s : State) : (canWrite a b s).cmd = s.cmd := rfl
@[simp] theorem canWrite_udp (a : Nat) (b : Bytes) (s : State) : (canWrite a b s).udp = s.udp := rfl
@[simp] theorem canWrite_evt (a : Nat) (b : Bytes) (s : State) : (canWrite a b s).evt = s.evt := rfl
@[simp] theorem canWrite_bulk (a : Nat) (b : Bytes) (s : State) : (canWrite a b s).bulk = s.bulk := rfl
@[simp] theorem canWrite_img (a : Nat) (b : Bytes) (s : State) : (canWrite a b s).img = s.img := rfl
@[simp] theorem canWrite_sup (a : Nat) (b : Bytes) (s : State) : (canWrite a b s).sup = s.sup := rfl
@[simp] theorem canWrite_gov (a : Nat) (b : Bytes) (s : State) : (canWrite a b s).gov = s.gov := rfl
@[simp] theorem canWrite_stag (a : Nat) (b : Bytes) (s : State) : (canWrite a b s).stag = s.stag := rfl
@[simp] theorem canWrite_eth (a : Nat) (b : Bytes) (s : State) : (canWrite a b s).eth = s.eth := rfl
@[simp] theorem canWrite_insts (a : Nat) (b : Bytes) (s : State) : (canWrite a b s).insts = s.insts := rfl
@[simp] theorem canWrite_clk (a : Nat) (b : Bytes) (s : State) : (canWrite a b s).clk = s.clk := rfl
@[simp] theorem canWrite_sense (a : Nat) (b : Bytes) (s : State) : (canWrite a b s).sense = s.sense := rfl
@[simp] theorem canWrite_flt (a : Nat) (b : Bytes) (s : State) : (canWrite a b s).flt = s.flt := rfl
@[simp] theorem canWrite_pwm (a : Nat) (b : Bytes) (s : State) : (canWrite a b s).pwm = s.pwm := rfl
@[simp] theorem canWrite_loop (a : Nat) (b : Bytes) (s : State) : (canWrite a b s).loop = s.loop := rfl
@[simp] theorem canWrite_safe (a : Nat) (b : Bytes) (s : State) : (canWrite a b s).safe = s.safe := rfl
@[simp] theorem canWrite_field (a : Nat) (b : Bytes) (s : State) : (canWrite a b s).field = s.field := rfl
@[simp] theorem canWrite_cap (a : Nat) (b : Bytes) (s : State) : (canWrite a b s).cap = s.cap := rfl
@[simp] theorem canWrite_fus (a : Nat) (b : Bytes) (s : State) : (canWrite a b s).fus = s.fus := rfl
@[simp] theorem canWrite_can (a : Nat) (b : Bytes) (s : State) : (canWrite a b s).can = { s.can with mem := memWriteBytes s.can.mem a b } := rfl
@[simp] theorem canWrite_sage (a : Nat) (b : Bytes) (s : State) : (canWrite a b s).sage = s.sage := rfl
@[simp] theorem canWrite_rel (a : Nat) (b : Bytes) (s : State) : (canWrite a b s).rel = s.rel := rfl
@[simp] theorem canWrite_free (a : Nat) (b : Bytes) (s : State) : (canWrite a b s).free = s.free := rfl
@[simp] theorem canWrite_pending (a : Nat) (b : Bytes) (s : State) : (canWrite a b s).pending = s.pending := rfl

/-! ### updCap -/

@[simp] theorem updCap_time (f : Capture → Capture) (s : State) : (updCap f s).time = s.time := rfl
@[simp] theorem updCap_sys (f : Capture → Capture) (s : State) : (updCap f s).sys = s.sys := rfl
@[simp] theorem updCap_cmd (f : Capture → Capture) (s : State) : (updCap f s).cmd = s.cmd := rfl
@[simp] theorem updCap_udp (f : Capture → Capture) (s : State) : (updCap f s).udp = s.udp := rfl
@[simp] theorem updCap_evt (f : Capture → Capture) (s : State) : (updCap f s).evt = s.evt := rfl
@[simp] theorem updCap_bulk (f : Capture → Capture) (s : State) : (updCap f s).bulk = s.bulk := rfl
@[simp] theorem updCap_img (f : Capture → Capture) (s : State) : (updCap f s).img = s.img := rfl
@[simp] theorem updCap_sup (f : Capture → Capture) (s : State) : (updCap f s).sup = s.sup := rfl
@[simp] theorem updCap_gov (f : Capture → Capture) (s : State) : (updCap f s).gov = s.gov := rfl
@[simp] theorem updCap_stag (f : Capture → Capture) (s : State) : (updCap f s).stag = s.stag := rfl
@[simp] theorem updCap_eth (f : Capture → Capture) (s : State) : (updCap f s).eth = s.eth := rfl
@[simp] theorem updCap_insts (f : Capture → Capture) (s : State) : (updCap f s).insts = s.insts := rfl
@[simp] theorem updCap_clk (f : Capture → Capture) (s : State) : (updCap f s).clk = s.clk := rfl
@[simp] theorem updCap_sense (f : Capture → Capture) (s : State) : (updCap f s).sense = s.sense := rfl
@[simp] theorem updCap_flt (f : Capture → Capture) (s : State) : (updCap f s).flt = s.flt := rfl
@[simp] theorem updCap_pwm (f : Capture → Capture) (s : State) : (updCap f s).pwm = s.pwm := rfl
@[simp] theorem updCap_loop (f : Capture → Capture) (s : State) : (updCap f s).loop = s.loop := rfl
@[simp] theorem updCap_safe (f : Capture → Capture) (s : State) : (updCap f s).safe = s.safe := rfl
@[simp] theorem updCap_field (f : Capture → Capture) (s : State) : (updCap f s).field = s.field := rfl
@[simp] theorem updCap_cap (f : Capture → Capture) (s : State) : (updCap f s).cap = f s.cap := rfl
@[simp] theorem updCap_fus (f : Capture → Capture) (s : State) : (updCap f s).fus = s.fus := rfl
@[simp] theorem updCap_can (f : Capture → Capture) (s : State) : (updCap f s).can = s.can := rfl
@[simp] theorem updCap_sage (f : Capture → Capture) (s : State) : (updCap f s).sage = s.sage := rfl
@[simp] theorem updCap_rel (f : Capture → Capture) (s : State) : (updCap f s).rel = s.rel := rfl
@[simp] theorem updCap_free (f : Capture → Capture) (s : State) : (updCap f s).free = s.free := rfl
@[simp] theorem updCap_pending (f : Capture → Capture) (s : State) : (updCap f s).pending = s.pending := rfl

/-! ### updField -/

@[simp] theorem updField_time (f : Field → Field) (s : State) : (updField f s).time = s.time := rfl
@[simp] theorem updField_sys (f : Field → Field) (s : State) : (updField f s).sys = s.sys := rfl
@[simp] theorem updField_cmd (f : Field → Field) (s : State) : (updField f s).cmd = s.cmd := rfl
@[simp] theorem updField_udp (f : Field → Field) (s : State) : (updField f s).udp = s.udp := rfl
@[simp] theorem updField_evt (f : Field → Field) (s : State) : (updField f s).evt = s.evt := rfl
@[simp] theorem updField_bulk (f : Field → Field) (s : State) : (updField f s).bulk = s.bulk := rfl
@[simp] theorem updField_img (f : Field → Field) (s : State) : (updField f s).img = s.img := rfl
@[simp] theorem updField_sup (f : Field → Field) (s : State) : (updField f s).sup = s.sup := rfl
@[simp] theorem updField_gov (f : Field → Field) (s : State) : (updField f s).gov = s.gov := rfl
@[simp] theorem updField_stag (f : Field → Field) (s : State) : (updField f s).stag = s.stag := rfl
@[simp] theorem updField_eth (f : Field → Field) (s : State) : (updField f s).eth = s.eth := rfl
@[simp] theorem updField_insts (f : Field → Field) (s : State) : (updField f s).insts = s.insts := rfl
@[simp] theorem updField_clk (f : Field → Field) (s : State) : (updField f s).clk = s.clk := rfl
@[simp] theorem updField_sense (f : Field → Field) (s : State) : (updField f s).sense = s.sense := rfl
@[simp] theorem updField_flt (f : Field → Field) (s : State) : (updField f s).flt = s.flt := rfl
@[simp] theorem updField_pwm (f : Field → Field) (s : State) : (updField f s).pwm = s.pwm := rfl
@[simp] theorem updField_loop (f : Field → Field) (s : State) : (updField f s).loop = s.loop := rfl
@[simp] theorem updField_safe (f : Field → Field) (s : State) : (updField f s).safe = s.safe := rfl
@[simp] theorem updField_field (f : Field → Field) (s : State) : (updField f s).field = f s.field := rfl
@[simp] theorem updField_cap (f : Field → Field) (s : State) : (updField f s).cap = s.cap := rfl
@[simp] theorem updField_fus (f : Field → Field) (s : State) : (updField f s).fus = s.fus := rfl
@[simp] theorem updField_can (f : Field → Field) (s : State) : (updField f s).can = s.can := rfl
@[simp] theorem updField_sage (f : Field → Field) (s : State) : (updField f s).sage = s.sage := rfl
@[simp] theorem updField_rel (f : Field → Field) (s : State) : (updField f s).rel = s.rel := rfl
@[simp] theorem updField_free (f : Field → Field) (s : State) : (updField f s).free = s.free := rfl
@[simp] theorem updField_pending (f : Field → Field) (s : State) : (updField f s).pending = s.pending := rfl

/-! ### updGrid -/

@[simp] theorem updGrid_time (f : GridMeas → GridMeas) (s : State) : (updGrid f s).time = s.time := rfl
@[simp] theorem updGrid_sys (f : GridMeas → GridMeas) (s : State) : (updGrid f s).sys = s.sys := rfl
@[simp] theorem updGrid_cmd (f : GridMeas → GridMeas) (s : State) : (updGrid f s).cmd = s.cmd := rfl
@[simp] theorem updGrid_udp (f : GridMeas → GridMeas) (s : State) : (updGrid f s).udp = s.udp := rfl
@[simp] theorem updGrid_evt (f : GridMeas → GridMeas) (s : State) : (updGrid f s).evt = s.evt := rfl
@[simp] theorem updGrid_bulk (f : GridMeas → GridMeas) (s : State) : (updGrid f s).bulk = s.bulk := rfl
@[simp] theorem updGrid_img (f : GridMeas → GridMeas) (s : State) : (updGrid f s).img = s.img := rfl
@[simp] theorem updGrid_sup (f : GridMeas → GridMeas) (s : State) : (updGrid f s).sup = s.sup := rfl
@[simp] theorem updGrid_gov (f : GridMeas → GridMeas) (s : State) : (updGrid f s).gov = s.gov := rfl
@[simp] theorem updGrid_stag (f : GridMeas → GridMeas) (s : State) : (updGrid f s).stag = s.stag := rfl
@[simp] theorem updGrid_eth (f : GridMeas → GridMeas) (s : State) : (updGrid f s).eth = s.eth := rfl
@[simp] theorem updGrid_insts (f : GridMeas → GridMeas) (s : State) : (updGrid f s).insts = s.insts := rfl
@[simp] theorem updGrid_clk (f : GridMeas → GridMeas) (s : State) : (updGrid f s).clk = s.clk := rfl
@[simp] theorem updGrid_sense (f : GridMeas → GridMeas) (s : State) : (updGrid f s).sense = s.sense := rfl
@[simp] theorem updGrid_flt (f : GridMeas → GridMeas) (s : State) : (updGrid f s).flt = s.flt := rfl
@[simp] theorem updGrid_pwm (f : GridMeas → GridMeas) (s : State) : (updGrid f s).pwm = s.pwm := rfl
@[simp] theorem updGrid_loop (f : GridMeas → GridMeas) (s : State) : (updGrid f s).loop = s.loop := rfl
@[simp] theorem updGrid_safe (f : GridMeas → GridMeas) (s : State) : (updGrid f s).safe = { s.safe with grid := f s.safe.grid } := rfl
@[simp] theorem updGrid_field (f : GridMeas → GridMeas) (s : State) : (updGrid f s).field = s.field := rfl
@[simp] theorem updGrid_cap (f : GridMeas → GridMeas) (s : State) : (updGrid f s).cap = s.cap := rfl
@[simp] theorem updGrid_fus (f : GridMeas → GridMeas) (s : State) : (updGrid f s).fus = s.fus := rfl
@[simp] theorem updGrid_can (f : GridMeas → GridMeas) (s : State) : (updGrid f s).can = s.can := rfl
@[simp] theorem updGrid_sage (f : GridMeas → GridMeas) (s : State) : (updGrid f s).sage = s.sage := rfl
@[simp] theorem updGrid_rel (f : GridMeas → GridMeas) (s : State) : (updGrid f s).rel = s.rel := rfl
@[simp] theorem updGrid_free (f : GridMeas → GridMeas) (s : State) : (updGrid f s).free = s.free := rfl
@[simp] theorem updGrid_pending (f : GridMeas → GridMeas) (s : State) : (updGrid f s).pending = s.pending := rfl

/-! ### updProc -/

@[simp] theorem updProc_time (f : SafeChan → SafeChan) (s : State) : (updProc f s).time = s.time := rfl
@[simp] theorem updProc_sys (f : SafeChan → SafeChan) (s : State) : (updProc f s).sys = s.sys := rfl
@[simp] theorem updProc_cmd (f : SafeChan → SafeChan) (s : State) : (updProc f s).cmd = s.cmd := rfl
@[simp] theorem updProc_udp (f : SafeChan → SafeChan) (s : State) : (updProc f s).udp = s.udp := rfl
@[simp] theorem updProc_evt (f : SafeChan → SafeChan) (s : State) : (updProc f s).evt = s.evt := rfl
@[simp] theorem updProc_bulk (f : SafeChan → SafeChan) (s : State) : (updProc f s).bulk = s.bulk := rfl
@[simp] theorem updProc_img (f : SafeChan → SafeChan) (s : State) : (updProc f s).img = s.img := rfl
@[simp] theorem updProc_sup (f : SafeChan → SafeChan) (s : State) : (updProc f s).sup = s.sup := rfl
@[simp] theorem updProc_gov (f : SafeChan → SafeChan) (s : State) : (updProc f s).gov = s.gov := rfl
@[simp] theorem updProc_stag (f : SafeChan → SafeChan) (s : State) : (updProc f s).stag = s.stag := rfl
@[simp] theorem updProc_eth (f : SafeChan → SafeChan) (s : State) : (updProc f s).eth = s.eth := rfl
@[simp] theorem updProc_insts (f : SafeChan → SafeChan) (s : State) : (updProc f s).insts = s.insts := rfl
@[simp] theorem updProc_clk (f : SafeChan → SafeChan) (s : State) : (updProc f s).clk = s.clk := rfl
@[simp] theorem updProc_sense (f : SafeChan → SafeChan) (s : State) : (updProc f s).sense = s.sense := rfl
@[simp] theorem updProc_flt (f : SafeChan → SafeChan) (s : State) : (updProc f s).flt = s.flt := rfl
@[simp] theorem updProc_pwm (f : SafeChan → SafeChan) (s : State) : (updProc f s).pwm = s.pwm := rfl
@[simp] theorem updProc_loop (f : SafeChan → SafeChan) (s : State) : (updProc f s).loop = s.loop := rfl
@[simp] theorem updProc_safe (f : SafeChan → SafeChan) (s : State) : (updProc f s).safe = { s.safe with proc := f s.safe.proc } := rfl
@[simp] theorem updProc_field (f : SafeChan → SafeChan) (s : State) : (updProc f s).field = s.field := rfl
@[simp] theorem updProc_cap (f : SafeChan → SafeChan) (s : State) : (updProc f s).cap = s.cap := rfl
@[simp] theorem updProc_fus (f : SafeChan → SafeChan) (s : State) : (updProc f s).fus = s.fus := rfl
@[simp] theorem updProc_can (f : SafeChan → SafeChan) (s : State) : (updProc f s).can = s.can := rfl
@[simp] theorem updProc_sage (f : SafeChan → SafeChan) (s : State) : (updProc f s).sage = s.sage := rfl
@[simp] theorem updProc_rel (f : SafeChan → SafeChan) (s : State) : (updProc f s).rel = s.rel := rfl
@[simp] theorem updProc_free (f : SafeChan → SafeChan) (s : State) : (updProc f s).free = s.free := rfl
@[simp] theorem updProc_pending (f : SafeChan → SafeChan) (s : State) : (updProc f s).pending = s.pending := rfl

/-! ### updSorrel -/

@[simp] theorem updSorrel_time (f : SafeChan → SafeChan) (s : State) : (updSorrel f s).time = s.time := rfl
@[simp] theorem updSorrel_sys (f : SafeChan → SafeChan) (s : State) : (updSorrel f s).sys = s.sys := rfl
@[simp] theorem updSorrel_cmd (f : SafeChan → SafeChan) (s : State) : (updSorrel f s).cmd = s.cmd := rfl
@[simp] theorem updSorrel_udp (f : SafeChan → SafeChan) (s : State) : (updSorrel f s).udp = s.udp := rfl
@[simp] theorem updSorrel_evt (f : SafeChan → SafeChan) (s : State) : (updSorrel f s).evt = s.evt := rfl
@[simp] theorem updSorrel_bulk (f : SafeChan → SafeChan) (s : State) : (updSorrel f s).bulk = s.bulk := rfl
@[simp] theorem updSorrel_img (f : SafeChan → SafeChan) (s : State) : (updSorrel f s).img = s.img := rfl
@[simp] theorem updSorrel_sup (f : SafeChan → SafeChan) (s : State) : (updSorrel f s).sup = s.sup := rfl
@[simp] theorem updSorrel_gov (f : SafeChan → SafeChan) (s : State) : (updSorrel f s).gov = s.gov := rfl
@[simp] theorem updSorrel_stag (f : SafeChan → SafeChan) (s : State) : (updSorrel f s).stag = s.stag := rfl
@[simp] theorem updSorrel_eth (f : SafeChan → SafeChan) (s : State) : (updSorrel f s).eth = s.eth := rfl
@[simp] theorem updSorrel_insts (f : SafeChan → SafeChan) (s : State) : (updSorrel f s).insts = s.insts := rfl
@[simp] theorem updSorrel_clk (f : SafeChan → SafeChan) (s : State) : (updSorrel f s).clk = s.clk := rfl
@[simp] theorem updSorrel_sense (f : SafeChan → SafeChan) (s : State) : (updSorrel f s).sense = s.sense := rfl
@[simp] theorem updSorrel_flt (f : SafeChan → SafeChan) (s : State) : (updSorrel f s).flt = s.flt := rfl
@[simp] theorem updSorrel_pwm (f : SafeChan → SafeChan) (s : State) : (updSorrel f s).pwm = s.pwm := rfl
@[simp] theorem updSorrel_loop (f : SafeChan → SafeChan) (s : State) : (updSorrel f s).loop = s.loop := rfl
@[simp] theorem updSorrel_safe (f : SafeChan → SafeChan) (s : State) : (updSorrel f s).safe = { s.safe with sorrel := f s.safe.sorrel } := rfl
@[simp] theorem updSorrel_field (f : SafeChan → SafeChan) (s : State) : (updSorrel f s).field = s.field := rfl
@[simp] theorem updSorrel_cap (f : SafeChan → SafeChan) (s : State) : (updSorrel f s).cap = s.cap := rfl
@[simp] theorem updSorrel_fus (f : SafeChan → SafeChan) (s : State) : (updSorrel f s).fus = s.fus := rfl
@[simp] theorem updSorrel_can (f : SafeChan → SafeChan) (s : State) : (updSorrel f s).can = s.can := rfl
@[simp] theorem updSorrel_sage (f : SafeChan → SafeChan) (s : State) : (updSorrel f s).sage = s.sage := rfl
@[simp] theorem updSorrel_rel (f : SafeChan → SafeChan) (s : State) : (updSorrel f s).rel = s.rel := rfl
@[simp] theorem updSorrel_free (f : SafeChan → SafeChan) (s : State) : (updSorrel f s).free = s.free := rfl
@[simp] theorem updSorrel_pending (f : SafeChan → SafeChan) (s : State) : (updSorrel f s).pending = s.pending := rfl

/-! ### updOutput -/

@[simp] theorem updOutput_time (o : Nat) (f : FieldOut → FieldOut) (s : State) : (updOutput o f s).time = s.time := rfl
@[simp] theorem updOutput_sys (o : Nat) (f : FieldOut → FieldOut) (s : State) : (updOutput o f s).sys = s.sys := rfl
@[simp] theorem updOutput_cmd (o : Nat) (f : FieldOut → FieldOut) (s : State) : (updOutput o f s).cmd = s.cmd := rfl
@[simp] theorem updOutput_udp (o : Nat) (f : FieldOut → FieldOut) (s : State) : (updOutput o f s).udp = s.udp := rfl
@[simp] theorem updOutput_evt (o : Nat) (f : FieldOut → FieldOut) (s : State) : (updOutput o f s).evt = s.evt := rfl
@[simp] theorem updOutput_bulk (o : Nat) (f : FieldOut → FieldOut) (s : State) : (updOutput o f s).bulk = s.bulk := rfl
@[simp] theorem updOutput_img (o : Nat) (f : FieldOut → FieldOut) (s : State) : (updOutput o f s).img = s.img := rfl
@[simp] theorem updOutput_sup (o : Nat) (f : FieldOut → FieldOut) (s : State) : (updOutput o f s).sup = s.sup := rfl
@[simp] theorem updOutput_gov (o : Nat) (f : FieldOut → FieldOut) (s : State) : (updOutput o f s).gov = s.gov := rfl
@[simp] theorem updOutput_stag (o : Nat) (f : FieldOut → FieldOut) (s : State) : (updOutput o f s).stag = s.stag := rfl
@[simp] theorem updOutput_eth (o : Nat) (f : FieldOut → FieldOut) (s : State) : (updOutput o f s).eth = s.eth := rfl
@[simp] theorem updOutput_insts (o : Nat) (f : FieldOut → FieldOut) (s : State) : (updOutput o f s).insts = s.insts := rfl
@[simp] theorem updOutput_clk (o : Nat) (f : FieldOut → FieldOut) (s : State) : (updOutput o f s).clk = s.clk := rfl
@[simp] theorem updOutput_sense (o : Nat) (f : FieldOut → FieldOut) (s : State) : (updOutput o f s).sense = s.sense := rfl
@[simp] theorem updOutput_flt (o : Nat) (f : FieldOut → FieldOut) (s : State) : (updOutput o f s).flt = s.flt := rfl
@[simp] theorem updOutput_pwm (o : Nat) (f : FieldOut → FieldOut) (s : State) : (updOutput o f s).pwm = s.pwm := rfl
@[simp] theorem updOutput_loop (o : Nat) (f : FieldOut → FieldOut) (s : State) : (updOutput o f s).loop = s.loop := rfl
@[simp] theorem updOutput_safe (o : Nat) (f : FieldOut → FieldOut) (s : State) : (updOutput o f s).safe = s.safe := rfl
@[simp] theorem updOutput_field (o : Nat) (f : FieldOut → FieldOut) (s : State) : (updOutput o f s).field = { s.field with outs := upd s.field.outs o f } := rfl
@[simp] theorem updOutput_cap (o : Nat) (f : FieldOut → FieldOut) (s : State) : (updOutput o f s).cap = s.cap := rfl
@[simp] theorem updOutput_fus (o : Nat) (f : FieldOut → FieldOut) (s : State) : (updOutput o f s).fus = s.fus := rfl
@[simp] theorem updOutput_can (o : Nat) (f : FieldOut → FieldOut) (s : State) : (updOutput o f s).can = s.can := rfl
@[simp] theorem updOutput_sage (o : Nat) (f : FieldOut → FieldOut) (s : State) : (updOutput o f s).sage = s.sage := rfl
@[simp] theorem updOutput_rel (o : Nat) (f : FieldOut → FieldOut) (s : State) : (updOutput o f s).rel = s.rel := rfl
@[simp] theorem updOutput_free (o : Nat) (f : FieldOut → FieldOut) (s : State) : (updOutput o f s).free = s.free := rfl
@[simp] theorem updOutput_pending (o : Nat) (f : FieldOut → FieldOut) (s : State) : (updOutput o f s).pending = s.pending := rfl

/-! ### updInput -/

@[simp] theorem updInput_time (n : Nat) (f : FieldIn → FieldIn) (s : State) : (updInput n f s).time = s.time := rfl
@[simp] theorem updInput_sys (n : Nat) (f : FieldIn → FieldIn) (s : State) : (updInput n f s).sys = s.sys := rfl
@[simp] theorem updInput_cmd (n : Nat) (f : FieldIn → FieldIn) (s : State) : (updInput n f s).cmd = s.cmd := rfl
@[simp] theorem updInput_udp (n : Nat) (f : FieldIn → FieldIn) (s : State) : (updInput n f s).udp = s.udp := rfl
@[simp] theorem updInput_evt (n : Nat) (f : FieldIn → FieldIn) (s : State) : (updInput n f s).evt = s.evt := rfl
@[simp] theorem updInput_bulk (n : Nat) (f : FieldIn → FieldIn) (s : State) : (updInput n f s).bulk = s.bulk := rfl
@[simp] theorem updInput_img (n : Nat) (f : FieldIn → FieldIn) (s : State) : (updInput n f s).img = s.img := rfl
@[simp] theorem updInput_sup (n : Nat) (f : FieldIn → FieldIn) (s : State) : (updInput n f s).sup = s.sup := rfl
@[simp] theorem updInput_gov (n : Nat) (f : FieldIn → FieldIn) (s : State) : (updInput n f s).gov = s.gov := rfl
@[simp] theorem updInput_stag (n : Nat) (f : FieldIn → FieldIn) (s : State) : (updInput n f s).stag = s.stag := rfl
@[simp] theorem updInput_eth (n : Nat) (f : FieldIn → FieldIn) (s : State) : (updInput n f s).eth = s.eth := rfl
@[simp] theorem updInput_insts (n : Nat) (f : FieldIn → FieldIn) (s : State) : (updInput n f s).insts = s.insts := rfl
@[simp] theorem updInput_clk (n : Nat) (f : FieldIn → FieldIn) (s : State) : (updInput n f s).clk = s.clk := rfl
@[simp] theorem updInput_sense (n : Nat) (f : FieldIn → FieldIn) (s : State) : (updInput n f s).sense = s.sense := rfl
@[simp] theorem updInput_flt (n : Nat) (f : FieldIn → FieldIn) (s : State) : (updInput n f s).flt = s.flt := rfl
@[simp] theorem updInput_pwm (n : Nat) (f : FieldIn → FieldIn) (s : State) : (updInput n f s).pwm = s.pwm := rfl
@[simp] theorem updInput_loop (n : Nat) (f : FieldIn → FieldIn) (s : State) : (updInput n f s).loop = s.loop := rfl
@[simp] theorem updInput_safe (n : Nat) (f : FieldIn → FieldIn) (s : State) : (updInput n f s).safe = s.safe := rfl
@[simp] theorem updInput_field (n : Nat) (f : FieldIn → FieldIn) (s : State) : (updInput n f s).field = { s.field with ins := upd s.field.ins n f } := rfl
@[simp] theorem updInput_cap (n : Nat) (f : FieldIn → FieldIn) (s : State) : (updInput n f s).cap = s.cap := rfl
@[simp] theorem updInput_fus (n : Nat) (f : FieldIn → FieldIn) (s : State) : (updInput n f s).fus = s.fus := rfl
@[simp] theorem updInput_can (n : Nat) (f : FieldIn → FieldIn) (s : State) : (updInput n f s).can = s.can := rfl
@[simp] theorem updInput_sage (n : Nat) (f : FieldIn → FieldIn) (s : State) : (updInput n f s).sage = s.sage := rfl
@[simp] theorem updInput_rel (n : Nat) (f : FieldIn → FieldIn) (s : State) : (updInput n f s).rel = s.rel := rfl
@[simp] theorem updInput_free (n : Nat) (f : FieldIn → FieldIn) (s : State) : (updInput n f s).free = s.free := rfl
@[simp] theorem updInput_pending (n : Nat) (f : FieldIn → FieldIn) (s : State) : (updInput n f s).pending = s.pending := rfl

/-! ### updSage -/

@[simp] theorem updSage_time (f : Sage → Sage) (s : State) : (updSage f s).time = s.time := rfl
@[simp] theorem updSage_sys (f : Sage → Sage) (s : State) : (updSage f s).sys = s.sys := rfl
@[simp] theorem updSage_cmd (f : Sage → Sage) (s : State) : (updSage f s).cmd = s.cmd := rfl
@[simp] theorem updSage_udp (f : Sage → Sage) (s : State) : (updSage f s).udp = s.udp := rfl
@[simp] theorem updSage_evt (f : Sage → Sage) (s : State) : (updSage f s).evt = s.evt := rfl
@[simp] theorem updSage_bulk (f : Sage → Sage) (s : State) : (updSage f s).bulk = s.bulk := rfl
@[simp] theorem updSage_img (f : Sage → Sage) (s : State) : (updSage f s).img = s.img := rfl
@[simp] theorem updSage_sup (f : Sage → Sage) (s : State) : (updSage f s).sup = s.sup := rfl
@[simp] theorem updSage_gov (f : Sage → Sage) (s : State) : (updSage f s).gov = s.gov := rfl
@[simp] theorem updSage_stag (f : Sage → Sage) (s : State) : (updSage f s).stag = s.stag := rfl
@[simp] theorem updSage_eth (f : Sage → Sage) (s : State) : (updSage f s).eth = s.eth := rfl
@[simp] theorem updSage_insts (f : Sage → Sage) (s : State) : (updSage f s).insts = s.insts := rfl
@[simp] theorem updSage_clk (f : Sage → Sage) (s : State) : (updSage f s).clk = s.clk := rfl
@[simp] theorem updSage_sense (f : Sage → Sage) (s : State) : (updSage f s).sense = s.sense := rfl
@[simp] theorem updSage_flt (f : Sage → Sage) (s : State) : (updSage f s).flt = s.flt := rfl
@[simp] theorem updSage_pwm (f : Sage → Sage) (s : State) : (updSage f s).pwm = s.pwm := rfl
@[simp] theorem updSage_loop (f : Sage → Sage) (s : State) : (updSage f s).loop = s.loop := rfl
@[simp] theorem updSage_safe (f : Sage → Sage) (s : State) : (updSage f s).safe = s.safe := rfl
@[simp] theorem updSage_field (f : Sage → Sage) (s : State) : (updSage f s).field = s.field := rfl
@[simp] theorem updSage_cap (f : Sage → Sage) (s : State) : (updSage f s).cap = s.cap := rfl
@[simp] theorem updSage_fus (f : Sage → Sage) (s : State) : (updSage f s).fus = s.fus := rfl
@[simp] theorem updSage_can (f : Sage → Sage) (s : State) : (updSage f s).can = s.can := rfl
@[simp] theorem updSage_sage (f : Sage → Sage) (s : State) : (updSage f s).sage = f s.sage := rfl
@[simp] theorem updSage_rel (f : Sage → Sage) (s : State) : (updSage f s).rel = s.rel := rfl
@[simp] theorem updSage_free (f : Sage → Sage) (s : State) : (updSage f s).free = s.free := rfl
@[simp] theorem updSage_pending (f : Sage → Sage) (s : State) : (updSage f s).pending = s.pending := rfl

/-! ### setNodeInst -/

@[simp] theorem setNodeInst_time (k : Nat) (i : Inst) (s : State) : (setNodeInst k i s).time = s.time := rfl
@[simp] theorem setNodeInst_sys (k : Nat) (i : Inst) (s : State) : (setNodeInst k i s).sys = s.sys := rfl
@[simp] theorem setNodeInst_cmd (k : Nat) (i : Inst) (s : State) : (setNodeInst k i s).cmd = s.cmd := rfl
@[simp] theorem setNodeInst_udp (k : Nat) (i : Inst) (s : State) : (setNodeInst k i s).udp = s.udp := rfl
@[simp] theorem setNodeInst_evt (k : Nat) (i : Inst) (s : State) : (setNodeInst k i s).evt = s.evt := rfl
@[simp] theorem setNodeInst_bulk (k : Nat) (i : Inst) (s : State) : (setNodeInst k i s).bulk = s.bulk := rfl
@[simp] theorem setNodeInst_img (k : Nat) (i : Inst) (s : State) : (setNodeInst k i s).img = s.img := rfl
@[simp] theorem setNodeInst_sup (k : Nat) (i : Inst) (s : State) : (setNodeInst k i s).sup = s.sup := rfl
@[simp] theorem setNodeInst_gov (k : Nat) (i : Inst) (s : State) : (setNodeInst k i s).gov = s.gov := rfl
@[simp] theorem setNodeInst_stag (k : Nat) (i : Inst) (s : State) : (setNodeInst k i s).stag = s.stag := rfl
@[simp] theorem setNodeInst_eth (k : Nat) (i : Inst) (s : State) : (setNodeInst k i s).eth = s.eth := rfl
@[simp] theorem setNodeInst_insts (k : Nat) (i : Inst) (s : State) : (setNodeInst k i s).insts = s.insts := rfl
@[simp] theorem setNodeInst_clk (k : Nat) (i : Inst) (s : State) : (setNodeInst k i s).clk = s.clk := rfl
@[simp] theorem setNodeInst_sense (k : Nat) (i : Inst) (s : State) : (setNodeInst k i s).sense = s.sense := rfl
@[simp] theorem setNodeInst_flt (k : Nat) (i : Inst) (s : State) : (setNodeInst k i s).flt = s.flt := rfl
@[simp] theorem setNodeInst_pwm (k : Nat) (i : Inst) (s : State) : (setNodeInst k i s).pwm = s.pwm := rfl
@[simp] theorem setNodeInst_loop (k : Nat) (i : Inst) (s : State) : (setNodeInst k i s).loop = { s.loop with insts := s.loop.insts.set k i } := rfl
@[simp] theorem setNodeInst_safe (k : Nat) (i : Inst) (s : State) : (setNodeInst k i s).safe = s.safe := rfl
@[simp] theorem setNodeInst_field (k : Nat) (i : Inst) (s : State) : (setNodeInst k i s).field = s.field := rfl
@[simp] theorem setNodeInst_cap (k : Nat) (i : Inst) (s : State) : (setNodeInst k i s).cap = s.cap := rfl
@[simp] theorem setNodeInst_fus (k : Nat) (i : Inst) (s : State) : (setNodeInst k i s).fus = s.fus := rfl
@[simp] theorem setNodeInst_can (k : Nat) (i : Inst) (s : State) : (setNodeInst k i s).can = s.can := rfl
@[simp] theorem setNodeInst_sage (k : Nat) (i : Inst) (s : State) : (setNodeInst k i s).sage = s.sage := rfl
@[simp] theorem setNodeInst_rel (k : Nat) (i : Inst) (s : State) : (setNodeInst k i s).rel = s.rel := rfl
@[simp] theorem setNodeInst_free (k : Nat) (i : Inst) (s : State) : (setNodeInst k i s).free = s.free := rfl
@[simp] theorem setNodeInst_pending (k : Nat) (i : Inst) (s : State) : (setNodeInst k i s).pending = s.pending := rfl

/-! ### dropInst -/

@[simp] theorem dropInst_time (k : Nat) (s : State) : (dropInst k s).time = s.time := rfl
@[simp] theorem dropInst_sys (k : Nat) (s : State) : (dropInst k s).sys = s.sys := rfl
@[simp] theorem dropInst_cmd (k : Nat) (s : State) : (dropInst k s).cmd = s.cmd := rfl
@[simp] theorem dropInst_udp (k : Nat) (s : State) : (dropInst k s).udp = s.udp := rfl
@[simp] theorem dropInst_evt (k : Nat) (s : State) : (dropInst k s).evt = s.evt := rfl
@[simp] theorem dropInst_bulk (k : Nat) (s : State) : (dropInst k s).bulk = s.bulk := rfl
@[simp] theorem dropInst_img (k : Nat) (s : State) : (dropInst k s).img = s.img := rfl
@[simp] theorem dropInst_sup (k : Nat) (s : State) : (dropInst k s).sup = s.sup := rfl
@[simp] theorem dropInst_gov (k : Nat) (s : State) : (dropInst k s).gov = s.gov := rfl
@[simp] theorem dropInst_stag (k : Nat) (s : State) : (dropInst k s).stag = s.stag := rfl
@[simp] theorem dropInst_eth (k : Nat) (s : State) : (dropInst k s).eth = s.eth := rfl
@[simp] theorem dropInst_insts (k : Nat) (s : State) : (dropInst k s).insts = s.insts := rfl
@[simp] theorem dropInst_clk (k : Nat) (s : State) : (dropInst k s).clk = s.clk := rfl
@[simp] theorem dropInst_sense (k : Nat) (s : State) : (dropInst k s).sense = s.sense := rfl
@[simp] theorem dropInst_flt (k : Nat) (s : State) : (dropInst k s).flt = s.flt := rfl
@[simp] theorem dropInst_pwm (k : Nat) (s : State) : (dropInst k s).pwm = s.pwm := rfl
@[simp] theorem dropInst_loop (k : Nat) (s : State) : (dropInst k s).loop = { s.loop with insts := s.loop.insts.eraseIdx k } := rfl
@[simp] theorem dropInst_safe (k : Nat) (s : State) : (dropInst k s).safe = s.safe := rfl
@[simp] theorem dropInst_field (k : Nat) (s : State) : (dropInst k s).field = s.field := rfl
@[simp] theorem dropInst_cap (k : Nat) (s : State) : (dropInst k s).cap = s.cap := rfl
@[simp] theorem dropInst_fus (k : Nat) (s : State) : (dropInst k s).fus = s.fus := rfl
@[simp] theorem dropInst_can (k : Nat) (s : State) : (dropInst k s).can = s.can := rfl
@[simp] theorem dropInst_sage (k : Nat) (s : State) : (dropInst k s).sage = s.sage := rfl
@[simp] theorem dropInst_rel (k : Nat) (s : State) : (dropInst k s).rel = s.rel := rfl
@[simp] theorem dropInst_free (k : Nat) (s : State) : (dropInst k s).free = s.free := rfl
@[simp] theorem dropInst_pending (k : Nat) (s : State) : (dropInst k s).pending = s.pending := rfl

/-! ### updPll -/

@[simp] theorem updPll_time (i : Nat) (f : Adpll → Adpll) (s : State) : (updPll i f s).time = s.time := rfl
@[simp] theorem updPll_sys (i : Nat) (f : Adpll → Adpll) (s : State) : (updPll i f s).sys = s.sys := rfl
@[simp] theorem updPll_cmd (i : Nat) (f : Adpll → Adpll) (s : State) : (updPll i f s).cmd = s.cmd := rfl
@[simp] theorem updPll_udp (i : Nat) (f : Adpll → Adpll) (s : State) : (updPll i f s).udp = s.udp := rfl
@[simp] theorem updPll_evt (i : Nat) (f : Adpll → Adpll) (s : State) : (updPll i f s).evt = s.evt := rfl
@[simp] theorem updPll_bulk (i : Nat) (f : Adpll → Adpll) (s : State) : (updPll i f s).bulk = s.bulk := rfl
@[simp] theorem updPll_img (i : Nat) (f : Adpll → Adpll) (s : State) : (updPll i f s).img = s.img := rfl
@[simp] theorem updPll_sup (i : Nat) (f : Adpll → Adpll) (s : State) : (updPll i f s).sup = s.sup := rfl
@[simp] theorem updPll_gov (i : Nat) (f : Adpll → Adpll) (s : State) : (updPll i f s).gov = s.gov := rfl
@[simp] theorem updPll_stag (i : Nat) (f : Adpll → Adpll) (s : State) : (updPll i f s).stag = s.stag := rfl
@[simp] theorem updPll_eth (i : Nat) (f : Adpll → Adpll) (s : State) : (updPll i f s).eth = s.eth := rfl
@[simp] theorem updPll_insts (i : Nat) (f : Adpll → Adpll) (s : State) : (updPll i f s).insts = s.insts := rfl
@[simp] theorem updPll_clk (i : Nat) (f : Adpll → Adpll) (s : State) : (updPll i f s).clk = { s.clk with plls := upd s.clk.plls i f } := rfl
@[simp] theorem updPll_sense (i : Nat) (f : Adpll → Adpll) (s : State) : (updPll i f s).sense = s.sense := rfl
@[simp] theorem updPll_flt (i : Nat) (f : Adpll → Adpll) (s : State) : (updPll i f s).flt = s.flt := rfl
@[simp] theorem updPll_pwm (i : Nat) (f : Adpll → Adpll) (s : State) : (updPll i f s).pwm = s.pwm := rfl
@[simp] theorem updPll_loop (i : Nat) (f : Adpll → Adpll) (s : State) : (updPll i f s).loop = s.loop := rfl
@[simp] theorem updPll_safe (i : Nat) (f : Adpll → Adpll) (s : State) : (updPll i f s).safe = s.safe := rfl
@[simp] theorem updPll_field (i : Nat) (f : Adpll → Adpll) (s : State) : (updPll i f s).field = s.field := rfl
@[simp] theorem updPll_cap (i : Nat) (f : Adpll → Adpll) (s : State) : (updPll i f s).cap = s.cap := rfl
@[simp] theorem updPll_fus (i : Nat) (f : Adpll → Adpll) (s : State) : (updPll i f s).fus = s.fus := rfl
@[simp] theorem updPll_can (i : Nat) (f : Adpll → Adpll) (s : State) : (updPll i f s).can = s.can := rfl
@[simp] theorem updPll_sage (i : Nat) (f : Adpll → Adpll) (s : State) : (updPll i f s).sage = s.sage := rfl
@[simp] theorem updPll_rel (i : Nat) (f : Adpll → Adpll) (s : State) : (updPll i f s).rel = s.rel := rfl
@[simp] theorem updPll_free (i : Nat) (f : Adpll → Adpll) (s : State) : (updPll i f s).free = s.free := rfl
@[simp] theorem updPll_pending (i : Nat) (f : Adpll → Adpll) (s : State) : (updPll i f s).pending = s.pending := rfl

/-! ### updOut -/

@[simp] theorem updOut_time (i : Nat) (f : ClkOut → ClkOut) (s : State) : (updOut i f s).time = s.time := rfl
@[simp] theorem updOut_sys (i : Nat) (f : ClkOut → ClkOut) (s : State) : (updOut i f s).sys = s.sys := rfl
@[simp] theorem updOut_cmd (i : Nat) (f : ClkOut → ClkOut) (s : State) : (updOut i f s).cmd = s.cmd := rfl
@[simp] theorem updOut_udp (i : Nat) (f : ClkOut → ClkOut) (s : State) : (updOut i f s).udp = s.udp := rfl
@[simp] theorem updOut_evt (i : Nat) (f : ClkOut → ClkOut) (s : State) : (updOut i f s).evt = s.evt := rfl
@[simp] theorem updOut_bulk (i : Nat) (f : ClkOut → ClkOut) (s : State) : (updOut i f s).bulk = s.bulk := rfl
@[simp] theorem updOut_img (i : Nat) (f : ClkOut → ClkOut) (s : State) : (updOut i f s).img = s.img := rfl
@[simp] theorem updOut_sup (i : Nat) (f : ClkOut → ClkOut) (s : State) : (updOut i f s).sup = s.sup := rfl
@[simp] theorem updOut_gov (i : Nat) (f : ClkOut → ClkOut) (s : State) : (updOut i f s).gov = s.gov := rfl
@[simp] theorem updOut_stag (i : Nat) (f : ClkOut → ClkOut) (s : State) : (updOut i f s).stag = s.stag := rfl
@[simp] theorem updOut_eth (i : Nat) (f : ClkOut → ClkOut) (s : State) : (updOut i f s).eth = s.eth := rfl
@[simp] theorem updOut_insts (i : Nat) (f : ClkOut → ClkOut) (s : State) : (updOut i f s).insts = s.insts := rfl
@[simp] theorem updOut_clk (i : Nat) (f : ClkOut → ClkOut) (s : State) : (updOut i f s).clk = { s.clk with outs := upd s.clk.outs i f } := rfl
@[simp] theorem updOut_sense (i : Nat) (f : ClkOut → ClkOut) (s : State) : (updOut i f s).sense = s.sense := rfl
@[simp] theorem updOut_flt (i : Nat) (f : ClkOut → ClkOut) (s : State) : (updOut i f s).flt = s.flt := rfl
@[simp] theorem updOut_pwm (i : Nat) (f : ClkOut → ClkOut) (s : State) : (updOut i f s).pwm = s.pwm := rfl
@[simp] theorem updOut_loop (i : Nat) (f : ClkOut → ClkOut) (s : State) : (updOut i f s).loop = s.loop := rfl
@[simp] theorem updOut_safe (i : Nat) (f : ClkOut → ClkOut) (s : State) : (updOut i f s).safe = s.safe := rfl
@[simp] theorem updOut_field (i : Nat) (f : ClkOut → ClkOut) (s : State) : (updOut i f s).field = s.field := rfl
@[simp] theorem updOut_cap (i : Nat) (f : ClkOut → ClkOut) (s : State) : (updOut i f s).cap = s.cap := rfl
@[simp] theorem updOut_fus (i : Nat) (f : ClkOut → ClkOut) (s : State) : (updOut i f s).fus = s.fus := rfl
@[simp] theorem updOut_can (i : Nat) (f : ClkOut → ClkOut) (s : State) : (updOut i f s).can = s.can := rfl
@[simp] theorem updOut_sage (i : Nat) (f : ClkOut → ClkOut) (s : State) : (updOut i f s).sage = s.sage := rfl
@[simp] theorem updOut_rel (i : Nat) (f : ClkOut → ClkOut) (s : State) : (updOut i f s).rel = s.rel := rfl
@[simp] theorem updOut_free (i : Nat) (f : ClkOut → ClkOut) (s : State) : (updOut i f s).free = s.free := rfl
@[simp] theorem updOut_pending (i : Nat) (f : ClkOut → ClkOut) (s : State) : (updOut i f s).pending = s.pending := rfl

/-! ### updSense -/

@[simp] theorem updSense_time (c : Nat) (f : SenseCh → SenseCh) (s : State) : (updSense c f s).time = s.time := rfl
@[simp] theorem updSense_sys (c : Nat) (f : SenseCh → SenseCh) (s : State) : (updSense c f s).sys = s.sys := rfl
@[simp] theorem updSense_cmd (c : Nat) (f : SenseCh → SenseCh) (s : State) : (updSense c f s).cmd = s.cmd := rfl
@[simp] theorem updSense_udp (c : Nat) (f : SenseCh → SenseCh) (s : State) : (updSense c f s).udp = s.udp := rfl
@[simp] theorem updSense_evt (c : Nat) (f : SenseCh → SenseCh) (s : State) : (updSense c f s).evt = s.evt := rfl
@[simp] theorem updSense_bulk (c : Nat) (f : SenseCh → SenseCh) (s : State) : (updSense c f s).bulk = s.bulk := rfl
@[simp] theorem updSense_img (c : Nat) (f : SenseCh → SenseCh) (s : State) : (updSense c f s).img = s.img := rfl
@[simp] theorem updSense_sup (c : Nat) (f : SenseCh → SenseCh) (s : State) : (updSense c f s).sup = s.sup := rfl
@[simp] theorem updSense_gov (c : Nat) (f : SenseCh → SenseCh) (s : State) : (updSense c f s).gov = s.gov := rfl
@[simp] theorem updSense_stag (c : Nat) (f : SenseCh → SenseCh) (s : State) : (updSense c f s).stag = s.stag := rfl
@[simp] theorem updSense_eth (c : Nat) (f : SenseCh → SenseCh) (s : State) : (updSense c f s).eth = s.eth := rfl
@[simp] theorem updSense_insts (c : Nat) (f : SenseCh → SenseCh) (s : State) : (updSense c f s).insts = s.insts := rfl
@[simp] theorem updSense_clk (c : Nat) (f : SenseCh → SenseCh) (s : State) : (updSense c f s).clk = s.clk := rfl
@[simp] theorem updSense_sense (c : Nat) (f : SenseCh → SenseCh) (s : State) : (updSense c f s).sense = { s.sense with chans := upd s.sense.chans c f } := rfl
@[simp] theorem updSense_flt (c : Nat) (f : SenseCh → SenseCh) (s : State) : (updSense c f s).flt = s.flt := rfl
@[simp] theorem updSense_pwm (c : Nat) (f : SenseCh → SenseCh) (s : State) : (updSense c f s).pwm = s.pwm := rfl
@[simp] theorem updSense_loop (c : Nat) (f : SenseCh → SenseCh) (s : State) : (updSense c f s).loop = s.loop := rfl
@[simp] theorem updSense_safe (c : Nat) (f : SenseCh → SenseCh) (s : State) : (updSense c f s).safe = s.safe := rfl
@[simp] theorem updSense_field (c : Nat) (f : SenseCh → SenseCh) (s : State) : (updSense c f s).field = s.field := rfl
@[simp] theorem updSense_cap (c : Nat) (f : SenseCh → SenseCh) (s : State) : (updSense c f s).cap = s.cap := rfl
@[simp] theorem updSense_fus (c : Nat) (f : SenseCh → SenseCh) (s : State) : (updSense c f s).fus = s.fus := rfl
@[simp] theorem updSense_can (c : Nat) (f : SenseCh → SenseCh) (s : State) : (updSense c f s).can = s.can := rfl
@[simp] theorem updSense_sage (c : Nat) (f : SenseCh → SenseCh) (s : State) : (updSense c f s).sage = s.sage := rfl
@[simp] theorem updSense_rel (c : Nat) (f : SenseCh → SenseCh) (s : State) : (updSense c f s).rel = s.rel := rfl
@[simp] theorem updSense_free (c : Nat) (f : SenseCh → SenseCh) (s : State) : (updSense c f s).free = s.free := rfl
@[simp] theorem updSense_pending (c : Nat) (f : SenseCh → SenseCh) (s : State) : (updSense c f s).pending = s.pending := rfl

/-! ### updCore -/

@[simp] theorem updCore_time (c : Nat) (f : SarCore → SarCore) (s : State) : (updCore c f s).time = s.time := rfl
@[simp] theorem updCore_sys (c : Nat) (f : SarCore → SarCore) (s : State) : (updCore c f s).sys = s.sys := rfl
@[simp] theorem updCore_cmd (c : Nat) (f : SarCore → SarCore) (s : State) : (updCore c f s).cmd = s.cmd := rfl
@[simp] theorem updCore_udp (c : Nat) (f : SarCore → SarCore) (s : State) : (updCore c f s).udp = s.udp := rfl
@[simp] theorem updCore_evt (c : Nat) (f : SarCore → SarCore) (s : State) : (updCore c f s).evt = s.evt := rfl
@[simp] theorem updCore_bulk (c : Nat) (f : SarCore → SarCore) (s : State) : (updCore c f s).bulk = s.bulk := rfl
@[simp] theorem updCore_img (c : Nat) (f : SarCore → SarCore) (s : State) : (updCore c f s).img = s.img := rfl
@[simp] theorem updCore_sup (c : Nat) (f : SarCore → SarCore) (s : State) : (updCore c f s).sup = s.sup := rfl
@[simp] theorem updCore_gov (c : Nat) (f : SarCore → SarCore) (s : State) : (updCore c f s).gov = s.gov := rfl
@[simp] theorem updCore_stag (c : Nat) (f : SarCore → SarCore) (s : State) : (updCore c f s).stag = s.stag := rfl
@[simp] theorem updCore_eth (c : Nat) (f : SarCore → SarCore) (s : State) : (updCore c f s).eth = s.eth := rfl
@[simp] theorem updCore_insts (c : Nat) (f : SarCore → SarCore) (s : State) : (updCore c f s).insts = s.insts := rfl
@[simp] theorem updCore_clk (c : Nat) (f : SarCore → SarCore) (s : State) : (updCore c f s).clk = s.clk := rfl
@[simp] theorem updCore_sense (c : Nat) (f : SarCore → SarCore) (s : State) : (updCore c f s).sense = { s.sense with cores := upd s.sense.cores c f } := rfl
@[simp] theorem updCore_flt (c : Nat) (f : SarCore → SarCore) (s : State) : (updCore c f s).flt = s.flt := rfl
@[simp] theorem updCore_pwm (c : Nat) (f : SarCore → SarCore) (s : State) : (updCore c f s).pwm = s.pwm := rfl
@[simp] theorem updCore_loop (c : Nat) (f : SarCore → SarCore) (s : State) : (updCore c f s).loop = s.loop := rfl
@[simp] theorem updCore_safe (c : Nat) (f : SarCore → SarCore) (s : State) : (updCore c f s).safe = s.safe := rfl
@[simp] theorem updCore_field (c : Nat) (f : SarCore → SarCore) (s : State) : (updCore c f s).field = s.field := rfl
@[simp] theorem updCore_cap (c : Nat) (f : SarCore → SarCore) (s : State) : (updCore c f s).cap = s.cap := rfl
@[simp] theorem updCore_fus (c : Nat) (f : SarCore → SarCore) (s : State) : (updCore c f s).fus = s.fus := rfl
@[simp] theorem updCore_can (c : Nat) (f : SarCore → SarCore) (s : State) : (updCore c f s).can = s.can := rfl
@[simp] theorem updCore_sage (c : Nat) (f : SarCore → SarCore) (s : State) : (updCore c f s).sage = s.sage := rfl
@[simp] theorem updCore_rel (c : Nat) (f : SarCore → SarCore) (s : State) : (updCore c f s).rel = s.rel := rfl
@[simp] theorem updCore_free (c : Nat) (f : SarCore → SarCore) (s : State) : (updCore c f s).free = s.free := rfl
@[simp] theorem updCore_pending (c : Nat) (f : SarCore → SarCore) (s : State) : (updCore c f s).pending = s.pending := rfl

/-! ### updFch -/

@[simp] theorem updFch_time (c : Nat) (f : FltCh → FltCh) (s : State) : (updFch c f s).time = s.time := rfl
@[simp] theorem updFch_sys (c : Nat) (f : FltCh → FltCh) (s : State) : (updFch c f s).sys = s.sys := rfl
@[simp] theorem updFch_cmd (c : Nat) (f : FltCh → FltCh) (s : State) : (updFch c f s).cmd = s.cmd := rfl
@[simp] theorem updFch_udp (c : Nat) (f : FltCh → FltCh) (s : State) : (updFch c f s).udp = s.udp := rfl
@[simp] theorem updFch_evt (c : Nat) (f : FltCh → FltCh) (s : State) : (updFch c f s).evt = s.evt := rfl
@[simp] theorem updFch_bulk (c : Nat) (f : FltCh → FltCh) (s : State) : (updFch c f s).bulk = s.bulk := rfl
@[simp] theorem updFch_img (c : Nat) (f : FltCh → FltCh) (s : State) : (updFch c f s).img = s.img := rfl
@[simp] theorem updFch_sup (c : Nat) (f : FltCh → FltCh) (s : State) : (updFch c f s).sup = s.sup := rfl
@[simp] theorem updFch_gov (c : Nat) (f : FltCh → FltCh) (s : State) : (updFch c f s).gov = s.gov := rfl
@[simp] theorem updFch_stag (c : Nat) (f : FltCh → FltCh) (s : State) : (updFch c f s).stag = s.stag := rfl
@[simp] theorem updFch_eth (c : Nat) (f : FltCh → FltCh) (s : State) : (updFch c f s).eth = s.eth := rfl
@[simp] theorem updFch_insts (c : Nat) (f : FltCh → FltCh) (s : State) : (updFch c f s).insts = s.insts := rfl
@[simp] theorem updFch_clk (c : Nat) (f : FltCh → FltCh) (s : State) : (updFch c f s).clk = s.clk := rfl
@[simp] theorem updFch_sense (c : Nat) (f : FltCh → FltCh) (s : State) : (updFch c f s).sense = s.sense := rfl
@[simp] theorem updFch_flt (c : Nat) (f : FltCh → FltCh) (s : State) : (updFch c f s).flt = { s.flt with chans := upd s.flt.chans c f } := rfl
@[simp] theorem updFch_pwm (c : Nat) (f : FltCh → FltCh) (s : State) : (updFch c f s).pwm = s.pwm := rfl
@[simp] theorem updFch_loop (c : Nat) (f : FltCh → FltCh) (s : State) : (updFch c f s).loop = s.loop := rfl
@[simp] theorem updFch_safe (c : Nat) (f : FltCh → FltCh) (s : State) : (updFch c f s).safe = s.safe := rfl
@[simp] theorem updFch_field (c : Nat) (f : FltCh → FltCh) (s : State) : (updFch c f s).field = s.field := rfl
@[simp] theorem updFch_cap (c : Nat) (f : FltCh → FltCh) (s : State) : (updFch c f s).cap = s.cap := rfl
@[simp] theorem updFch_fus (c : Nat) (f : FltCh → FltCh) (s : State) : (updFch c f s).fus = s.fus := rfl
@[simp] theorem updFch_can (c : Nat) (f : FltCh → FltCh) (s : State) : (updFch c f s).can = s.can := rfl
@[simp] theorem updFch_sage (c : Nat) (f : FltCh → FltCh) (s : State) : (updFch c f s).sage = s.sage := rfl
@[simp] theorem updFch_rel (c : Nat) (f : FltCh → FltCh) (s : State) : (updFch c f s).rel = s.rel := rfl
@[simp] theorem updFch_free (c : Nat) (f : FltCh → FltCh) (s : State) : (updFch c f s).free = s.free := rfl
@[simp] theorem updFch_pending (c : Nat) (f : FltCh → FltCh) (s : State) : (updFch c f s).pending = s.pending := rfl

/-! ### updStage -/

@[simp] theorem updStage_time (n : Nat) (f : Stage → Stage) (s : State) : (updStage n f s).time = s.time := rfl
@[simp] theorem updStage_sys (n : Nat) (f : Stage → Stage) (s : State) : (updStage n f s).sys = s.sys := rfl
@[simp] theorem updStage_cmd (n : Nat) (f : Stage → Stage) (s : State) : (updStage n f s).cmd = s.cmd := rfl
@[simp] theorem updStage_udp (n : Nat) (f : Stage → Stage) (s : State) : (updStage n f s).udp = s.udp := rfl
@[simp] theorem updStage_evt (n : Nat) (f : Stage → Stage) (s : State) : (updStage n f s).evt = s.evt := rfl
@[simp] theorem updStage_bulk (n : Nat) (f : Stage → Stage) (s : State) : (updStage n f s).bulk = s.bulk := rfl
@[simp] theorem updStage_img (n : Nat) (f : Stage → Stage) (s : State) : (updStage n f s).img = s.img := rfl
@[simp] theorem updStage_sup (n : Nat) (f : Stage → Stage) (s : State) : (updStage n f s).sup = s.sup := rfl
@[simp] theorem updStage_gov (n : Nat) (f : Stage → Stage) (s : State) : (updStage n f s).gov = s.gov := rfl
@[simp] theorem updStage_stag (n : Nat) (f : Stage → Stage) (s : State) : (updStage n f s).stag = s.stag := rfl
@[simp] theorem updStage_eth (n : Nat) (f : Stage → Stage) (s : State) : (updStage n f s).eth = s.eth := rfl
@[simp] theorem updStage_insts (n : Nat) (f : Stage → Stage) (s : State) : (updStage n f s).insts = s.insts := rfl
@[simp] theorem updStage_clk (n : Nat) (f : Stage → Stage) (s : State) : (updStage n f s).clk = s.clk := rfl
@[simp] theorem updStage_sense (n : Nat) (f : Stage → Stage) (s : State) : (updStage n f s).sense = s.sense := rfl
@[simp] theorem updStage_flt (n : Nat) (f : Stage → Stage) (s : State) : (updStage n f s).flt = s.flt := rfl
@[simp] theorem updStage_pwm (n : Nat) (f : Stage → Stage) (s : State) : (updStage n f s).pwm = s.pwm := rfl
@[simp] theorem updStage_loop (n : Nat) (f : Stage → Stage) (s : State) : (updStage n f s).loop = { s.loop with stages := upd s.loop.stages n f } := rfl
@[simp] theorem updStage_safe (n : Nat) (f : Stage → Stage) (s : State) : (updStage n f s).safe = s.safe := rfl
@[simp] theorem updStage_field (n : Nat) (f : Stage → Stage) (s : State) : (updStage n f s).field = s.field := rfl
@[simp] theorem updStage_cap (n : Nat) (f : Stage → Stage) (s : State) : (updStage n f s).cap = s.cap := rfl
@[simp] theorem updStage_fus (n : Nat) (f : Stage → Stage) (s : State) : (updStage n f s).fus = s.fus := rfl
@[simp] theorem updStage_can (n : Nat) (f : Stage → Stage) (s : State) : (updStage n f s).can = s.can := rfl
@[simp] theorem updStage_sage (n : Nat) (f : Stage → Stage) (s : State) : (updStage n f s).sage = s.sage := rfl
@[simp] theorem updStage_rel (n : Nat) (f : Stage → Stage) (s : State) : (updStage n f s).rel = s.rel := rfl
@[simp] theorem updStage_free (n : Nat) (f : Stage → Stage) (s : State) : (updStage n f s).free = s.free := rfl
@[simp] theorem updStage_pending (n : Nat) (f : Stage → Stage) (s : State) : (updStage n f s).pending = s.pending := rfl

/-! ### updTimer -/

@[simp] theorem updTimer_time (n : Nat) (f : Timer → Timer) (s : State) : (updTimer n f s).time = s.time := rfl
@[simp] theorem updTimer_sys (n : Nat) (f : Timer → Timer) (s : State) : (updTimer n f s).sys = s.sys := rfl
@[simp] theorem updTimer_cmd (n : Nat) (f : Timer → Timer) (s : State) : (updTimer n f s).cmd = s.cmd := rfl
@[simp] theorem updTimer_udp (n : Nat) (f : Timer → Timer) (s : State) : (updTimer n f s).udp = s.udp := rfl
@[simp] theorem updTimer_evt (n : Nat) (f : Timer → Timer) (s : State) : (updTimer n f s).evt = s.evt := rfl
@[simp] theorem updTimer_bulk (n : Nat) (f : Timer → Timer) (s : State) : (updTimer n f s).bulk = s.bulk := rfl
@[simp] theorem updTimer_img (n : Nat) (f : Timer → Timer) (s : State) : (updTimer n f s).img = s.img := rfl
@[simp] theorem updTimer_sup (n : Nat) (f : Timer → Timer) (s : State) : (updTimer n f s).sup = s.sup := rfl
@[simp] theorem updTimer_gov (n : Nat) (f : Timer → Timer) (s : State) : (updTimer n f s).gov = s.gov := rfl
@[simp] theorem updTimer_stag (n : Nat) (f : Timer → Timer) (s : State) : (updTimer n f s).stag = s.stag := rfl
@[simp] theorem updTimer_eth (n : Nat) (f : Timer → Timer) (s : State) : (updTimer n f s).eth = s.eth := rfl
@[simp] theorem updTimer_insts (n : Nat) (f : Timer → Timer) (s : State) : (updTimer n f s).insts = s.insts := rfl
@[simp] theorem updTimer_clk (n : Nat) (f : Timer → Timer) (s : State) : (updTimer n f s).clk = s.clk := rfl
@[simp] theorem updTimer_sense (n : Nat) (f : Timer → Timer) (s : State) : (updTimer n f s).sense = s.sense := rfl
@[simp] theorem updTimer_flt (n : Nat) (f : Timer → Timer) (s : State) : (updTimer n f s).flt = s.flt := rfl
@[simp] theorem updTimer_pwm (n : Nat) (f : Timer → Timer) (s : State) : (updTimer n f s).pwm = { s.pwm with timers := upd s.pwm.timers n f } := rfl
@[simp] theorem updTimer_loop (n : Nat) (f : Timer → Timer) (s : State) : (updTimer n f s).loop = s.loop := rfl
@[simp] theorem updTimer_safe (n : Nat) (f : Timer → Timer) (s : State) : (updTimer n f s).safe = s.safe := rfl
@[simp] theorem updTimer_field (n : Nat) (f : Timer → Timer) (s : State) : (updTimer n f s).field = s.field := rfl
@[simp] theorem updTimer_cap (n : Nat) (f : Timer → Timer) (s : State) : (updTimer n f s).cap = s.cap := rfl
@[simp] theorem updTimer_fus (n : Nat) (f : Timer → Timer) (s : State) : (updTimer n f s).fus = s.fus := rfl
@[simp] theorem updTimer_can (n : Nat) (f : Timer → Timer) (s : State) : (updTimer n f s).can = s.can := rfl
@[simp] theorem updTimer_sage (n : Nat) (f : Timer → Timer) (s : State) : (updTimer n f s).sage = s.sage := rfl
@[simp] theorem updTimer_rel (n : Nat) (f : Timer → Timer) (s : State) : (updTimer n f s).rel = s.rel := rfl
@[simp] theorem updTimer_free (n : Nat) (f : Timer → Timer) (s : State) : (updTimer n f s).free = s.free := rfl
@[simp] theorem updTimer_pending (n : Nat) (f : Timer → Timer) (s : State) : (updTimer n f s).pending = s.pending := rfl

/-! ### updGroup -/

@[simp] theorem updGroup_time (n : Nat) (f : Group → Group) (s : State) : (updGroup n f s).time = s.time := rfl
@[simp] theorem updGroup_sys (n : Nat) (f : Group → Group) (s : State) : (updGroup n f s).sys = s.sys := rfl
@[simp] theorem updGroup_cmd (n : Nat) (f : Group → Group) (s : State) : (updGroup n f s).cmd = s.cmd := rfl
@[simp] theorem updGroup_udp (n : Nat) (f : Group → Group) (s : State) : (updGroup n f s).udp = s.udp := rfl
@[simp] theorem updGroup_evt (n : Nat) (f : Group → Group) (s : State) : (updGroup n f s).evt = s.evt := rfl
@[simp] theorem updGroup_bulk (n : Nat) (f : Group → Group) (s : State) : (updGroup n f s).bulk = s.bulk := rfl
@[simp] theorem updGroup_img (n : Nat) (f : Group → Group) (s : State) : (updGroup n f s).img = s.img := rfl
@[simp] theorem updGroup_sup (n : Nat) (f : Group → Group) (s : State) : (updGroup n f s).sup = s.sup := rfl
@[simp] theorem updGroup_gov (n : Nat) (f : Group → Group) (s : State) : (updGroup n f s).gov = s.gov := rfl
@[simp] theorem updGroup_stag (n : Nat) (f : Group → Group) (s : State) : (updGroup n f s).stag = s.stag := rfl
@[simp] theorem updGroup_eth (n : Nat) (f : Group → Group) (s : State) : (updGroup n f s).eth = s.eth := rfl
@[simp] theorem updGroup_insts (n : Nat) (f : Group → Group) (s : State) : (updGroup n f s).insts = s.insts := rfl
@[simp] theorem updGroup_clk (n : Nat) (f : Group → Group) (s : State) : (updGroup n f s).clk = s.clk := rfl
@[simp] theorem updGroup_sense (n : Nat) (f : Group → Group) (s : State) : (updGroup n f s).sense = s.sense := rfl
@[simp] theorem updGroup_flt (n : Nat) (f : Group → Group) (s : State) : (updGroup n f s).flt = s.flt := rfl
@[simp] theorem updGroup_pwm (n : Nat) (f : Group → Group) (s : State) : (updGroup n f s).pwm = { s.pwm with groups := upd s.pwm.groups n f } := rfl
@[simp] theorem updGroup_loop (n : Nat) (f : Group → Group) (s : State) : (updGroup n f s).loop = s.loop := rfl
@[simp] theorem updGroup_safe (n : Nat) (f : Group → Group) (s : State) : (updGroup n f s).safe = s.safe := rfl
@[simp] theorem updGroup_field (n : Nat) (f : Group → Group) (s : State) : (updGroup n f s).field = s.field := rfl
@[simp] theorem updGroup_cap (n : Nat) (f : Group → Group) (s : State) : (updGroup n f s).cap = s.cap := rfl
@[simp] theorem updGroup_fus (n : Nat) (f : Group → Group) (s : State) : (updGroup n f s).fus = s.fus := rfl
@[simp] theorem updGroup_can (n : Nat) (f : Group → Group) (s : State) : (updGroup n f s).can = s.can := rfl
@[simp] theorem updGroup_sage (n : Nat) (f : Group → Group) (s : State) : (updGroup n f s).sage = s.sage := rfl
@[simp] theorem updGroup_rel (n : Nat) (f : Group → Group) (s : State) : (updGroup n f s).rel = s.rel := rfl
@[simp] theorem updGroup_free (n : Nat) (f : Group → Group) (s : State) : (updGroup n f s).free = s.free := rfl
@[simp] theorem updGroup_pending (n : Nat) (f : Group → Group) (s : State) : (updGroup n f s).pending = s.pending := rfl

/-! ### updChan -/

@[simp] theorem updChan_time (n : Nat) (f : Channel → Channel) (s : State) : (updChan n f s).time = s.time := rfl
@[simp] theorem updChan_sys (n : Nat) (f : Channel → Channel) (s : State) : (updChan n f s).sys = s.sys := rfl
@[simp] theorem updChan_cmd (n : Nat) (f : Channel → Channel) (s : State) : (updChan n f s).cmd = s.cmd := rfl
@[simp] theorem updChan_udp (n : Nat) (f : Channel → Channel) (s : State) : (updChan n f s).udp = s.udp := rfl
@[simp] theorem updChan_evt (n : Nat) (f : Channel → Channel) (s : State) : (updChan n f s).evt = s.evt := rfl
@[simp] theorem updChan_bulk (n : Nat) (f : Channel → Channel) (s : State) : (updChan n f s).bulk = s.bulk := rfl
@[simp] theorem updChan_img (n : Nat) (f : Channel → Channel) (s : State) : (updChan n f s).img = s.img := rfl
@[simp] theorem updChan_sup (n : Nat) (f : Channel → Channel) (s : State) : (updChan n f s).sup = s.sup := rfl
@[simp] theorem updChan_gov (n : Nat) (f : Channel → Channel) (s : State) : (updChan n f s).gov = s.gov := rfl
@[simp] theorem updChan_stag (n : Nat) (f : Channel → Channel) (s : State) : (updChan n f s).stag = s.stag := rfl
@[simp] theorem updChan_eth (n : Nat) (f : Channel → Channel) (s : State) : (updChan n f s).eth = s.eth := rfl
@[simp] theorem updChan_insts (n : Nat) (f : Channel → Channel) (s : State) : (updChan n f s).insts = s.insts := rfl
@[simp] theorem updChan_clk (n : Nat) (f : Channel → Channel) (s : State) : (updChan n f s).clk = s.clk := rfl
@[simp] theorem updChan_sense (n : Nat) (f : Channel → Channel) (s : State) : (updChan n f s).sense = s.sense := rfl
@[simp] theorem updChan_flt (n : Nat) (f : Channel → Channel) (s : State) : (updChan n f s).flt = s.flt := rfl
@[simp] theorem updChan_pwm (n : Nat) (f : Channel → Channel) (s : State) : (updChan n f s).pwm = { s.pwm with channels := upd s.pwm.channels n f } := rfl
@[simp] theorem updChan_loop (n : Nat) (f : Channel → Channel) (s : State) : (updChan n f s).loop = s.loop := rfl
@[simp] theorem updChan_safe (n : Nat) (f : Channel → Channel) (s : State) : (updChan n f s).safe = s.safe := rfl
@[simp] theorem updChan_field (n : Nat) (f : Channel → Channel) (s : State) : (updChan n f s).field = s.field := rfl
@[simp] theorem updChan_cap (n : Nat) (f : Channel → Channel) (s : State) : (updChan n f s).cap = s.cap := rfl
@[simp] theorem updChan_fus (n : Nat) (f : Channel → Channel) (s : State) : (updChan n f s).fus = s.fus := rfl
@[simp] theorem updChan_can (n : Nat) (f : Channel → Channel) (s : State) : (updChan n f s).can = s.can := rfl
@[simp] theorem updChan_sage (n : Nat) (f : Channel → Channel) (s : State) : (updChan n f s).sage = s.sage := rfl
@[simp] theorem updChan_rel (n : Nat) (f : Channel → Channel) (s : State) : (updChan n f s).rel = s.rel := rfl
@[simp] theorem updChan_free (n : Nat) (f : Channel → Channel) (s : State) : (updChan n f s).free = s.free := rfl
@[simp] theorem updChan_pending (n : Nat) (f : Channel → Channel) (s : State) : (updChan n f s).pending = s.pending := rfl

/-! ### updUnit -/

@[simp] theorem updUnit_time (n : Nat) (f : CompareUnit → CompareUnit) (s : State) : (updUnit n f s).time = s.time := rfl
@[simp] theorem updUnit_sys (n : Nat) (f : CompareUnit → CompareUnit) (s : State) : (updUnit n f s).sys = s.sys := rfl
@[simp] theorem updUnit_cmd (n : Nat) (f : CompareUnit → CompareUnit) (s : State) : (updUnit n f s).cmd = s.cmd := rfl
@[simp] theorem updUnit_udp (n : Nat) (f : CompareUnit → CompareUnit) (s : State) : (updUnit n f s).udp = s.udp := rfl
@[simp] theorem updUnit_evt (n : Nat) (f : CompareUnit → CompareUnit) (s : State) : (updUnit n f s).evt = s.evt := rfl
@[simp] theorem updUnit_bulk (n : Nat) (f : CompareUnit → CompareUnit) (s : State) : (updUnit n f s).bulk = s.bulk := rfl
@[simp] theorem updUnit_img (n : Nat) (f : CompareUnit → CompareUnit) (s : State) : (updUnit n f s).img = s.img := rfl
@[simp] theorem updUnit_sup (n : Nat) (f : CompareUnit → CompareUnit) (s : State) : (updUnit n f s).sup = s.sup := rfl
@[simp] theorem updUnit_gov (n : Nat) (f : CompareUnit → CompareUnit) (s : State) : (updUnit n f s).gov = s.gov := rfl
@[simp] theorem updUnit_stag (n : Nat) (f : CompareUnit → CompareUnit) (s : State) : (updUnit n f s).stag = s.stag := rfl
@[simp] theorem updUnit_eth (n : Nat) (f : CompareUnit → CompareUnit) (s : State) : (updUnit n f s).eth = s.eth := rfl
@[simp] theorem updUnit_insts (n : Nat) (f : CompareUnit → CompareUnit) (s : State) : (updUnit n f s).insts = s.insts := rfl
@[simp] theorem updUnit_clk (n : Nat) (f : CompareUnit → CompareUnit) (s : State) : (updUnit n f s).clk = s.clk := rfl
@[simp] theorem updUnit_sense (n : Nat) (f : CompareUnit → CompareUnit) (s : State) : (updUnit n f s).sense = s.sense := rfl
@[simp] theorem updUnit_flt (n : Nat) (f : CompareUnit → CompareUnit) (s : State) : (updUnit n f s).flt = s.flt := rfl
@[simp] theorem updUnit_pwm (n : Nat) (f : CompareUnit → CompareUnit) (s : State) : (updUnit n f s).pwm = { s.pwm with units := upd s.pwm.units n f } := rfl
@[simp] theorem updUnit_loop (n : Nat) (f : CompareUnit → CompareUnit) (s : State) : (updUnit n f s).loop = s.loop := rfl
@[simp] theorem updUnit_safe (n : Nat) (f : CompareUnit → CompareUnit) (s : State) : (updUnit n f s).safe = s.safe := rfl
@[simp] theorem updUnit_field (n : Nat) (f : CompareUnit → CompareUnit) (s : State) : (updUnit n f s).field = s.field := rfl
@[simp] theorem updUnit_cap (n : Nat) (f : CompareUnit → CompareUnit) (s : State) : (updUnit n f s).cap = s.cap := rfl
@[simp] theorem updUnit_fus (n : Nat) (f : CompareUnit → CompareUnit) (s : State) : (updUnit n f s).fus = s.fus := rfl
@[simp] theorem updUnit_can (n : Nat) (f : CompareUnit → CompareUnit) (s : State) : (updUnit n f s).can = s.can := rfl
@[simp] theorem updUnit_sage (n : Nat) (f : CompareUnit → CompareUnit) (s : State) : (updUnit n f s).sage = s.sage := rfl
@[simp] theorem updUnit_rel (n : Nat) (f : CompareUnit → CompareUnit) (s : State) : (updUnit n f s).rel = s.rel := rfl
@[simp] theorem updUnit_free (n : Nat) (f : CompareUnit → CompareUnit) (s : State) : (updUnit n f s).free = s.free := rfl
@[simp] theorem updUnit_pending (n : Nat) (f : CompareUnit → CompareUnit) (s : State) : (updUnit n f s).pending = s.pending := rfl

/-! ### updHb -/

@[simp] theorem updHb_time (n : Nat) (f : HalfBridge → HalfBridge) (s : State) : (updHb n f s).time = s.time := rfl
@[simp] theorem updHb_sys (n : Nat) (f : HalfBridge → HalfBridge) (s : State) : (updHb n f s).sys = s.sys := rfl
@[simp] theorem updHb_cmd (n : Nat) (f : HalfBridge → HalfBridge) (s : State) : (updHb n f s).cmd = s.cmd := rfl
@[simp] theorem updHb_udp (n : Nat) (f : HalfBridge → HalfBridge) (s : State) : (updHb n f s).udp = s.udp := rfl
@[simp] theorem updHb_evt (n : Nat) (f : HalfBridge → HalfBridge) (s : State) : (updHb n f s).evt = s.evt := rfl
@[simp] theorem updHb_bulk (n : Nat) (f : HalfBridge → HalfBridge) (s : State) : (updHb n f s).bulk = s.bulk := rfl
@[simp] theorem updHb_img (n : Nat) (f : HalfBridge → HalfBridge) (s : State) : (updHb n f s).img = s.img := rfl
@[simp] theorem updHb_sup (n : Nat) (f : HalfBridge → HalfBridge) (s : State) : (updHb n f s).sup = s.sup := rfl
@[simp] theorem updHb_gov (n : Nat) (f : HalfBridge → HalfBridge) (s : State) : (updHb n f s).gov = s.gov := rfl
@[simp] theorem updHb_stag (n : Nat) (f : HalfBridge → HalfBridge) (s : State) : (updHb n f s).stag = s.stag := rfl
@[simp] theorem updHb_eth (n : Nat) (f : HalfBridge → HalfBridge) (s : State) : (updHb n f s).eth = s.eth := rfl
@[simp] theorem updHb_insts (n : Nat) (f : HalfBridge → HalfBridge) (s : State) : (updHb n f s).insts = s.insts := rfl
@[simp] theorem updHb_clk (n : Nat) (f : HalfBridge → HalfBridge) (s : State) : (updHb n f s).clk = s.clk := rfl
@[simp] theorem updHb_sense (n : Nat) (f : HalfBridge → HalfBridge) (s : State) : (updHb n f s).sense = s.sense := rfl
@[simp] theorem updHb_flt (n : Nat) (f : HalfBridge → HalfBridge) (s : State) : (updHb n f s).flt = s.flt := rfl
@[simp] theorem updHb_pwm (n : Nat) (f : HalfBridge → HalfBridge) (s : State) : (updHb n f s).pwm = { s.pwm with hbs := upd s.pwm.hbs n f } := rfl
@[simp] theorem updHb_loop (n : Nat) (f : HalfBridge → HalfBridge) (s : State) : (updHb n f s).loop = s.loop := rfl
@[simp] theorem updHb_safe (n : Nat) (f : HalfBridge → HalfBridge) (s : State) : (updHb n f s).safe = s.safe := rfl
@[simp] theorem updHb_field (n : Nat) (f : HalfBridge → HalfBridge) (s : State) : (updHb n f s).field = s.field := rfl
@[simp] theorem updHb_cap (n : Nat) (f : HalfBridge → HalfBridge) (s : State) : (updHb n f s).cap = s.cap := rfl
@[simp] theorem updHb_fus (n : Nat) (f : HalfBridge → HalfBridge) (s : State) : (updHb n f s).fus = s.fus := rfl
@[simp] theorem updHb_can (n : Nat) (f : HalfBridge → HalfBridge) (s : State) : (updHb n f s).can = s.can := rfl
@[simp] theorem updHb_sage (n : Nat) (f : HalfBridge → HalfBridge) (s : State) : (updHb n f s).sage = s.sage := rfl
@[simp] theorem updHb_rel (n : Nat) (f : HalfBridge → HalfBridge) (s : State) : (updHb n f s).rel = s.rel := rfl
@[simp] theorem updHb_free (n : Nat) (f : HalfBridge → HalfBridge) (s : State) : (updHb n f s).free = s.free := rfl
@[simp] theorem updHb_pending (n : Nat) (f : HalfBridge → HalfBridge) (s : State) : (updHb n f s).pending = s.pending := rfl

/-! ### updCmp -/

@[simp] theorem updCmp_time (n : Nat) (f : Comparator → Comparator) (s : State) : (updCmp n f s).time = s.time := rfl
@[simp] theorem updCmp_sys (n : Nat) (f : Comparator → Comparator) (s : State) : (updCmp n f s).sys = s.sys := rfl
@[simp] theorem updCmp_cmd (n : Nat) (f : Comparator → Comparator) (s : State) : (updCmp n f s).cmd = s.cmd := rfl
@[simp] theorem updCmp_udp (n : Nat) (f : Comparator → Comparator) (s : State) : (updCmp n f s).udp = s.udp := rfl
@[simp] theorem updCmp_evt (n : Nat) (f : Comparator → Comparator) (s : State) : (updCmp n f s).evt = s.evt := rfl
@[simp] theorem updCmp_bulk (n : Nat) (f : Comparator → Comparator) (s : State) : (updCmp n f s).bulk = s.bulk := rfl
@[simp] theorem updCmp_img (n : Nat) (f : Comparator → Comparator) (s : State) : (updCmp n f s).img = s.img := rfl
@[simp] theorem updCmp_sup (n : Nat) (f : Comparator → Comparator) (s : State) : (updCmp n f s).sup = s.sup := rfl
@[simp] theorem updCmp_gov (n : Nat) (f : Comparator → Comparator) (s : State) : (updCmp n f s).gov = s.gov := rfl
@[simp] theorem updCmp_stag (n : Nat) (f : Comparator → Comparator) (s : State) : (updCmp n f s).stag = s.stag := rfl
@[simp] theorem updCmp_eth (n : Nat) (f : Comparator → Comparator) (s : State) : (updCmp n f s).eth = s.eth := rfl
@[simp] theorem updCmp_insts (n : Nat) (f : Comparator → Comparator) (s : State) : (updCmp n f s).insts = s.insts := rfl
@[simp] theorem updCmp_clk (n : Nat) (f : Comparator → Comparator) (s : State) : (updCmp n f s).clk = s.clk := rfl
@[simp] theorem updCmp_sense (n : Nat) (f : Comparator → Comparator) (s : State) : (updCmp n f s).sense = s.sense := rfl
@[simp] theorem updCmp_flt (n : Nat) (f : Comparator → Comparator) (s : State) : (updCmp n f s).flt = s.flt := rfl
@[simp] theorem updCmp_pwm (n : Nat) (f : Comparator → Comparator) (s : State) : (updCmp n f s).pwm = { s.pwm with cmps := upd s.pwm.cmps n f } := rfl
@[simp] theorem updCmp_loop (n : Nat) (f : Comparator → Comparator) (s : State) : (updCmp n f s).loop = s.loop := rfl
@[simp] theorem updCmp_safe (n : Nat) (f : Comparator → Comparator) (s : State) : (updCmp n f s).safe = s.safe := rfl
@[simp] theorem updCmp_field (n : Nat) (f : Comparator → Comparator) (s : State) : (updCmp n f s).field = s.field := rfl
@[simp] theorem updCmp_cap (n : Nat) (f : Comparator → Comparator) (s : State) : (updCmp n f s).cap = s.cap := rfl
@[simp] theorem updCmp_fus (n : Nat) (f : Comparator → Comparator) (s : State) : (updCmp n f s).fus = s.fus := rfl
@[simp] theorem updCmp_can (n : Nat) (f : Comparator → Comparator) (s : State) : (updCmp n f s).can = s.can := rfl
@[simp] theorem updCmp_sage (n : Nat) (f : Comparator → Comparator) (s : State) : (updCmp n f s).sage = s.sage := rfl
@[simp] theorem updCmp_rel (n : Nat) (f : Comparator → Comparator) (s : State) : (updCmp n f s).rel = s.rel := rfl
@[simp] theorem updCmp_free (n : Nat) (f : Comparator → Comparator) (s : State) : (updCmp n f s).free = s.free := rfl
@[simp] theorem updCmp_pending (n : Nat) (f : Comparator → Comparator) (s : State) : (updCmp n f s).pending = s.pending := rfl

/-! ### updFoc -/

@[simp] theorem updFoc_time (n : Nat) (f : FastDet → FastDet) (s : State) : (updFoc n f s).time = s.time := rfl
@[simp] theorem updFoc_sys (n : Nat) (f : FastDet → FastDet) (s : State) : (updFoc n f s).sys = s.sys := rfl
@[simp] theorem updFoc_cmd (n : Nat) (f : FastDet → FastDet) (s : State) : (updFoc n f s).cmd = s.cmd := rfl
@[simp] theorem updFoc_udp (n : Nat) (f : FastDet → FastDet) (s : State) : (updFoc n f s).udp = s.udp := rfl
@[simp] theorem updFoc_evt (n : Nat) (f : FastDet → FastDet) (s : State) : (updFoc n f s).evt = s.evt := rfl
@[simp] theorem updFoc_bulk (n : Nat) (f : FastDet → FastDet) (s : State) : (updFoc n f s).bulk = s.bulk := rfl
@[simp] theorem updFoc_img (n : Nat) (f : FastDet → FastDet) (s : State) : (updFoc n f s).img = s.img := rfl
@[simp] theorem updFoc_sup (n : Nat) (f : FastDet → FastDet) (s : State) : (updFoc n f s).sup = s.sup := rfl
@[simp] theorem updFoc_gov (n : Nat) (f : FastDet → FastDet) (s : State) : (updFoc n f s).gov = s.gov := rfl
@[simp] theorem updFoc_stag (n : Nat) (f : FastDet → FastDet) (s : State) : (updFoc n f s).stag = s.stag := rfl
@[simp] theorem updFoc_eth (n : Nat) (f : FastDet → FastDet) (s : State) : (updFoc n f s).eth = s.eth := rfl
@[simp] theorem updFoc_insts (n : Nat) (f : FastDet → FastDet) (s : State) : (updFoc n f s).insts = s.insts := rfl
@[simp] theorem updFoc_clk (n : Nat) (f : FastDet → FastDet) (s : State) : (updFoc n f s).clk = s.clk := rfl
@[simp] theorem updFoc_sense (n : Nat) (f : FastDet → FastDet) (s : State) : (updFoc n f s).sense = s.sense := rfl
@[simp] theorem updFoc_flt (n : Nat) (f : FastDet → FastDet) (s : State) : (updFoc n f s).flt = s.flt := rfl
@[simp] theorem updFoc_pwm (n : Nat) (f : FastDet → FastDet) (s : State) : (updFoc n f s).pwm = { s.pwm with focs := upd s.pwm.focs n f } := rfl
@[simp] theorem updFoc_loop (n : Nat) (f : FastDet → FastDet) (s : State) : (updFoc n f s).loop = s.loop := rfl
@[simp] theorem updFoc_safe (n : Nat) (f : FastDet → FastDet) (s : State) : (updFoc n f s).safe = s.safe := rfl
@[simp] theorem updFoc_field (n : Nat) (f : FastDet → FastDet) (s : State) : (updFoc n f s).field = s.field := rfl
@[simp] theorem updFoc_cap (n : Nat) (f : FastDet → FastDet) (s : State) : (updFoc n f s).cap = s.cap := rfl
@[simp] theorem updFoc_fus (n : Nat) (f : FastDet → FastDet) (s : State) : (updFoc n f s).fus = s.fus := rfl
@[simp] theorem updFoc_can (n : Nat) (f : FastDet → FastDet) (s : State) : (updFoc n f s).can = s.can := rfl
@[simp] theorem updFoc_sage (n : Nat) (f : FastDet → FastDet) (s : State) : (updFoc n f s).sage = s.sage := rfl
@[simp] theorem updFoc_rel (n : Nat) (f : FastDet → FastDet) (s : State) : (updFoc n f s).rel = s.rel := rfl
@[simp] theorem updFoc_free (n : Nat) (f : FastDet → FastDet) (s : State) : (updFoc n f s).free = s.free := rfl
@[simp] theorem updFoc_pending (n : Nat) (f : FastDet → FastDet) (s : State) : (updFoc n f s).pending = s.pending := rfl

/-! ### updFlt -/

@[simp] theorem updFlt_time (n : Nat) (f : FltInput → FltInput) (s : State) : (updFlt n f s).time = s.time := rfl
@[simp] theorem updFlt_sys (n : Nat) (f : FltInput → FltInput) (s : State) : (updFlt n f s).sys = s.sys := rfl
@[simp] theorem updFlt_cmd (n : Nat) (f : FltInput → FltInput) (s : State) : (updFlt n f s).cmd = s.cmd := rfl
@[simp] theorem updFlt_udp (n : Nat) (f : FltInput → FltInput) (s : State) : (updFlt n f s).udp = s.udp := rfl
@[simp] theorem updFlt_evt (n : Nat) (f : FltInput → FltInput) (s : State) : (updFlt n f s).evt = s.evt := rfl
@[simp] theorem updFlt_bulk (n : Nat) (f : FltInput → FltInput) (s : State) : (updFlt n f s).bulk = s.bulk := rfl
@[simp] theorem updFlt_img (n : Nat) (f : FltInput → FltInput) (s : State) : (updFlt n f s).img = s.img := rfl
@[simp] theorem updFlt_sup (n : Nat) (f : FltInput → FltInput) (s : State) : (updFlt n f s).sup = s.sup := rfl
@[simp] theorem updFlt_gov (n : Nat) (f : FltInput → FltInput) (s : State) : (updFlt n f s).gov = s.gov := rfl
@[simp] theorem updFlt_stag (n : Nat) (f : FltInput → FltInput) (s : State) : (updFlt n f s).stag = s.stag := rfl
@[simp] theorem updFlt_eth (n : Nat) (f : FltInput → FltInput) (s : State) : (updFlt n f s).eth = s.eth := rfl
@[simp] theorem updFlt_insts (n : Nat) (f : FltInput → FltInput) (s : State) : (updFlt n f s).insts = s.insts := rfl
@[simp] theorem updFlt_clk (n : Nat) (f : FltInput → FltInput) (s : State) : (updFlt n f s).clk = s.clk := rfl
@[simp] theorem updFlt_sense (n : Nat) (f : FltInput → FltInput) (s : State) : (updFlt n f s).sense = s.sense := rfl
@[simp] theorem updFlt_flt (n : Nat) (f : FltInput → FltInput) (s : State) : (updFlt n f s).flt = s.flt := rfl
@[simp] theorem updFlt_pwm (n : Nat) (f : FltInput → FltInput) (s : State) : (updFlt n f s).pwm = { s.pwm with flts := upd s.pwm.flts n f } := rfl
@[simp] theorem updFlt_loop (n : Nat) (f : FltInput → FltInput) (s : State) : (updFlt n f s).loop = s.loop := rfl
@[simp] theorem updFlt_safe (n : Nat) (f : FltInput → FltInput) (s : State) : (updFlt n f s).safe = s.safe := rfl
@[simp] theorem updFlt_field (n : Nat) (f : FltInput → FltInput) (s : State) : (updFlt n f s).field = s.field := rfl
@[simp] theorem updFlt_cap (n : Nat) (f : FltInput → FltInput) (s : State) : (updFlt n f s).cap = s.cap := rfl
@[simp] theorem updFlt_fus (n : Nat) (f : FltInput → FltInput) (s : State) : (updFlt n f s).fus = s.fus := rfl
@[simp] theorem updFlt_can (n : Nat) (f : FltInput → FltInput) (s : State) : (updFlt n f s).can = s.can := rfl
@[simp] theorem updFlt_sage (n : Nat) (f : FltInput → FltInput) (s : State) : (updFlt n f s).sage = s.sage := rfl
@[simp] theorem updFlt_rel (n : Nat) (f : FltInput → FltInput) (s : State) : (updFlt n f s).rel = s.rel := rfl
@[simp] theorem updFlt_free (n : Nat) (f : FltInput → FltInput) (s : State) : (updFlt n f s).free = s.free := rfl
@[simp] theorem updFlt_pending (n : Nat) (f : FltInput → FltInput) (s : State) : (updFlt n f s).pending = s.pending := rfl

/-! ### updEngine -/

@[simp] theorem updEngine_time (n : Nat) (f : Engine → Engine) (s : State) : (updEngine n f s).time = s.time := rfl
@[simp] theorem updEngine_sys (n : Nat) (f : Engine → Engine) (s : State) : (updEngine n f s).sys = s.sys := rfl
@[simp] theorem updEngine_cmd (n : Nat) (f : Engine → Engine) (s : State) : (updEngine n f s).cmd = s.cmd := rfl
@[simp] theorem updEngine_udp (n : Nat) (f : Engine → Engine) (s : State) : (updEngine n f s).udp = s.udp := rfl
@[simp] theorem updEngine_evt (n : Nat) (f : Engine → Engine) (s : State) : (updEngine n f s).evt = s.evt := rfl
@[simp] theorem updEngine_bulk (n : Nat) (f : Engine → Engine) (s : State) : (updEngine n f s).bulk = s.bulk := rfl
@[simp] theorem updEngine_img (n : Nat) (f : Engine → Engine) (s : State) : (updEngine n f s).img = s.img := rfl
@[simp] theorem updEngine_sup (n : Nat) (f : Engine → Engine) (s : State) : (updEngine n f s).sup = s.sup := rfl
@[simp] theorem updEngine_gov (n : Nat) (f : Engine → Engine) (s : State) : (updEngine n f s).gov = s.gov := rfl
@[simp] theorem updEngine_stag (n : Nat) (f : Engine → Engine) (s : State) : (updEngine n f s).stag = s.stag := rfl
@[simp] theorem updEngine_eth (n : Nat) (f : Engine → Engine) (s : State) : (updEngine n f s).eth = s.eth := rfl
@[simp] theorem updEngine_insts (n : Nat) (f : Engine → Engine) (s : State) : (updEngine n f s).insts = s.insts := rfl
@[simp] theorem updEngine_clk (n : Nat) (f : Engine → Engine) (s : State) : (updEngine n f s).clk = s.clk := rfl
@[simp] theorem updEngine_sense (n : Nat) (f : Engine → Engine) (s : State) : (updEngine n f s).sense = s.sense := rfl
@[simp] theorem updEngine_flt (n : Nat) (f : Engine → Engine) (s : State) : (updEngine n f s).flt = s.flt := rfl
@[simp] theorem updEngine_pwm (n : Nat) (f : Engine → Engine) (s : State) : (updEngine n f s).pwm = s.pwm := rfl
@[simp] theorem updEngine_loop (n : Nat) (f : Engine → Engine) (s : State) : (updEngine n f s).loop = { s.loop with engines := upd s.loop.engines n f } := rfl
@[simp] theorem updEngine_safe (n : Nat) (f : Engine → Engine) (s : State) : (updEngine n f s).safe = s.safe := rfl
@[simp] theorem updEngine_field (n : Nat) (f : Engine → Engine) (s : State) : (updEngine n f s).field = s.field := rfl
@[simp] theorem updEngine_cap (n : Nat) (f : Engine → Engine) (s : State) : (updEngine n f s).cap = s.cap := rfl
@[simp] theorem updEngine_fus (n : Nat) (f : Engine → Engine) (s : State) : (updEngine n f s).fus = s.fus := rfl
@[simp] theorem updEngine_can (n : Nat) (f : Engine → Engine) (s : State) : (updEngine n f s).can = s.can := rfl
@[simp] theorem updEngine_sage (n : Nat) (f : Engine → Engine) (s : State) : (updEngine n f s).sage = s.sage := rfl
@[simp] theorem updEngine_rel (n : Nat) (f : Engine → Engine) (s : State) : (updEngine n f s).rel = s.rel := rfl
@[simp] theorem updEngine_free (n : Nat) (f : Engine → Engine) (s : State) : (updEngine n f s).free = s.free := rfl
@[simp] theorem updEngine_pending (n : Nat) (f : Engine → Engine) (s : State) : (updEngine n f s).pending = s.pending := rfl

/-! ### updFu -/

@[simp] theorem updFu_time (u : Nat) (f : FormingUnit → FormingUnit) (s : State) : (updFu u f s).time = s.time := rfl
@[simp] theorem updFu_sys (u : Nat) (f : FormingUnit → FormingUnit) (s : State) : (updFu u f s).sys = s.sys := rfl
@[simp] theorem updFu_cmd (u : Nat) (f : FormingUnit → FormingUnit) (s : State) : (updFu u f s).cmd = s.cmd := rfl
@[simp] theorem updFu_udp (u : Nat) (f : FormingUnit → FormingUnit) (s : State) : (updFu u f s).udp = s.udp := rfl
@[simp] theorem updFu_evt (u : Nat) (f : FormingUnit → FormingUnit) (s : State) : (updFu u f s).evt = s.evt := rfl
@[simp] theorem updFu_bulk (u : Nat) (f : FormingUnit → FormingUnit) (s : State) : (updFu u f s).bulk = s.bulk := rfl
@[simp] theorem updFu_img (u : Nat) (f : FormingUnit → FormingUnit) (s : State) : (updFu u f s).img = s.img := rfl
@[simp] theorem updFu_sup (u : Nat) (f : FormingUnit → FormingUnit) (s : State) : (updFu u f s).sup = s.sup := rfl
@[simp] theorem updFu_gov (u : Nat) (f : FormingUnit → FormingUnit) (s : State) : (updFu u f s).gov = s.gov := rfl
@[simp] theorem updFu_stag (u : Nat) (f : FormingUnit → FormingUnit) (s : State) : (updFu u f s).stag = s.stag := rfl
@[simp] theorem updFu_eth (u : Nat) (f : FormingUnit → FormingUnit) (s : State) : (updFu u f s).eth = s.eth := rfl
@[simp] theorem updFu_insts (u : Nat) (f : FormingUnit → FormingUnit) (s : State) : (updFu u f s).insts = s.insts := rfl
@[simp] theorem updFu_clk (u : Nat) (f : FormingUnit → FormingUnit) (s : State) : (updFu u f s).clk = s.clk := rfl
@[simp] theorem updFu_sense (u : Nat) (f : FormingUnit → FormingUnit) (s : State) : (updFu u f s).sense = s.sense := rfl
@[simp] theorem updFu_flt (u : Nat) (f : FormingUnit → FormingUnit) (s : State) : (updFu u f s).flt = s.flt := rfl
@[simp] theorem updFu_pwm (u : Nat) (f : FormingUnit → FormingUnit) (s : State) : (updFu u f s).pwm = s.pwm := rfl
@[simp] theorem updFu_loop (u : Nat) (f : FormingUnit → FormingUnit) (s : State) : (updFu u f s).loop = s.loop := rfl
@[simp] theorem updFu_safe (u : Nat) (f : FormingUnit → FormingUnit) (s : State) : (updFu u f s).safe = s.safe := rfl
@[simp] theorem updFu_field (u : Nat) (f : FormingUnit → FormingUnit) (s : State) : (updFu u f s).field = s.field := rfl
@[simp] theorem updFu_cap (u : Nat) (f : FormingUnit → FormingUnit) (s : State) : (updFu u f s).cap = s.cap := rfl
@[simp] theorem updFu_fus (u : Nat) (f : FormingUnit → FormingUnit) (s : State) : (updFu u f s).fus = upd s.fus u f := rfl
@[simp] theorem updFu_can (u : Nat) (f : FormingUnit → FormingUnit) (s : State) : (updFu u f s).can = s.can := rfl
@[simp] theorem updFu_sage (u : Nat) (f : FormingUnit → FormingUnit) (s : State) : (updFu u f s).sage = s.sage := rfl
@[simp] theorem updFu_rel (u : Nat) (f : FormingUnit → FormingUnit) (s : State) : (updFu u f s).rel = s.rel := rfl
@[simp] theorem updFu_free (u : Nat) (f : FormingUnit → FormingUnit) (s : State) : (updFu u f s).free = s.free := rfl
@[simp] theorem updFu_pending (u : Nat) (f : FormingUnit → FormingUnit) (s : State) : (updFu u f s).pending = s.pending := rfl

/-! ### endRunPeriod -/

@[simp] theorem endRunPeriod_time (s : State) : (endRunPeriod s).time = s.time := rfl
@[simp] theorem endRunPeriod_sys (s : State) : (endRunPeriod s).sys = { s.sys with safeOffA := false, safeOffB := false, released := false } := rfl
@[simp] theorem endRunPeriod_cmd (s : State) : (endRunPeriod s).cmd = s.cmd := rfl
@[simp] theorem endRunPeriod_udp (s : State) : (endRunPeriod s).udp = s.udp := rfl
@[simp] theorem endRunPeriod_evt (s : State) : (endRunPeriod s).evt = s.evt := rfl
@[simp] theorem endRunPeriod_bulk (s : State) : (endRunPeriod s).bulk = s.bulk := rfl
@[simp] theorem endRunPeriod_img (s : State) : (endRunPeriod s).img = s.img := rfl
@[simp] theorem endRunPeriod_sup (s : State) : (endRunPeriod s).sup = s.sup := rfl
@[simp] theorem endRunPeriod_gov (s : State) : (endRunPeriod s).gov = s.gov := rfl
@[simp] theorem endRunPeriod_stag (s : State) : (endRunPeriod s).stag = s.stag := rfl
@[simp] theorem endRunPeriod_eth (s : State) : (endRunPeriod s).eth = s.eth := rfl
@[simp] theorem endRunPeriod_insts (s : State) : (endRunPeriod s).insts = s.insts := rfl
@[simp] theorem endRunPeriod_clk (s : State) : (endRunPeriod s).clk = s.clk := rfl
@[simp] theorem endRunPeriod_sense (s : State) : (endRunPeriod s).sense = s.sense := rfl
@[simp] theorem endRunPeriod_flt (s : State) : (endRunPeriod s).flt = s.flt := rfl
@[simp] theorem endRunPeriod_pwm (s : State) : (endRunPeriod s).pwm = s.pwm := rfl
@[simp] theorem endRunPeriod_loop (s : State) : (endRunPeriod s).loop = s.loop := rfl
@[simp] theorem endRunPeriod_safe (s : State) : (endRunPeriod s).safe = s.safe := rfl
@[simp] theorem endRunPeriod_field (s : State) : (endRunPeriod s).field = s.field := rfl
@[simp] theorem endRunPeriod_cap (s : State) : (endRunPeriod s).cap = s.cap := rfl
@[simp] theorem endRunPeriod_fus (s : State) : (endRunPeriod s).fus = s.fus := rfl
@[simp] theorem endRunPeriod_can (s : State) : (endRunPeriod s).can = s.can := rfl
@[simp] theorem endRunPeriod_sage (s : State) : (endRunPeriod s).sage = s.sage := rfl
@[simp] theorem endRunPeriod_rel (s : State) : (endRunPeriod s).rel = s.rel := rfl
@[simp] theorem endRunPeriod_free (s : State) : (endRunPeriod s).free = s.free := rfl
@[simp] theorem endRunPeriod_pending (s : State) : (endRunPeriod s).pending = s.pending := rfl

/-! ### updRel -/

@[simp] theorem updRel_time (f : Rel → Rel) (s : State) : (updRel f s).time = s.time := rfl
@[simp] theorem updRel_sys (f : Rel → Rel) (s : State) : (updRel f s).sys = s.sys := rfl
@[simp] theorem updRel_cmd (f : Rel → Rel) (s : State) : (updRel f s).cmd = s.cmd := rfl
@[simp] theorem updRel_udp (f : Rel → Rel) (s : State) : (updRel f s).udp = s.udp := rfl
@[simp] theorem updRel_evt (f : Rel → Rel) (s : State) : (updRel f s).evt = s.evt := rfl
@[simp] theorem updRel_bulk (f : Rel → Rel) (s : State) : (updRel f s).bulk = s.bulk := rfl
@[simp] theorem updRel_img (f : Rel → Rel) (s : State) : (updRel f s).img = s.img := rfl
@[simp] theorem updRel_sup (f : Rel → Rel) (s : State) : (updRel f s).sup = s.sup := rfl
@[simp] theorem updRel_gov (f : Rel → Rel) (s : State) : (updRel f s).gov = s.gov := rfl
@[simp] theorem updRel_stag (f : Rel → Rel) (s : State) : (updRel f s).stag = s.stag := rfl
@[simp] theorem updRel_eth (f : Rel → Rel) (s : State) : (updRel f s).eth = s.eth := rfl
@[simp] theorem updRel_insts (f : Rel → Rel) (s : State) : (updRel f s).insts = s.insts := rfl
@[simp] theorem updRel_clk (f : Rel → Rel) (s : State) : (updRel f s).clk = s.clk := rfl
@[simp] theorem updRel_sense (f : Rel → Rel) (s : State) : (updRel f s).sense = s.sense := rfl
@[simp] theorem updRel_flt (f : Rel → Rel) (s : State) : (updRel f s).flt = s.flt := rfl
@[simp] theorem updRel_pwm (f : Rel → Rel) (s : State) : (updRel f s).pwm = s.pwm := rfl
@[simp] theorem updRel_loop (f : Rel → Rel) (s : State) : (updRel f s).loop = s.loop := rfl
@[simp] theorem updRel_safe (f : Rel → Rel) (s : State) : (updRel f s).safe = s.safe := rfl
@[simp] theorem updRel_field (f : Rel → Rel) (s : State) : (updRel f s).field = s.field := rfl
@[simp] theorem updRel_cap (f : Rel → Rel) (s : State) : (updRel f s).cap = s.cap := rfl
@[simp] theorem updRel_fus (f : Rel → Rel) (s : State) : (updRel f s).fus = s.fus := rfl
@[simp] theorem updRel_can (f : Rel → Rel) (s : State) : (updRel f s).can = s.can := rfl
@[simp] theorem updRel_sage (f : Rel → Rel) (s : State) : (updRel f s).sage = s.sage := rfl
@[simp] theorem updRel_rel (f : Rel → Rel) (s : State) : (updRel f s).rel = f s.rel := rfl
@[simp] theorem updRel_free (f : Rel → Rel) (s : State) : (updRel f s).free = s.free := rfl
@[simp] theorem updRel_pending (f : Rel → Rel) (s : State) : (updRel f s).pending = s.pending := rfl

end Sys2Proof.Laws
end

