-- ==== Sys2Proof/Laws/Shared.lean ====
section
/-! SUPPORT. What the shared operations over events, replies and requests can change, and what a card's outcome does. -/

namespace Sys2Proof

open Sys2Proof.Machine

/-! ### The two frames -/

theorem LogOnly.refl (s : State) : LogOnly s s := by unfold LogOnly; rfl
theorem LogOnly.trans {a b c : State} (h : LogOnly a b) (k : LogOnly b c) : LogOnly a c := by
  unfold LogOnly at *; rw [k, h]
theorem ReplyOnly.refl (s : State) : ReplyOnly s s := by unfold ReplyOnly; rfl
theorem ReplyOnly.trans {a b c : State} (h : ReplyOnly a b) (k : ReplyOnly b c) : ReplyOnly a c := by
  unfold ReplyOnly at *; rw [k, h]
theorem LogOnly.reply {a b : State} (h : LogOnly a b) : ReplyOnly a b := by
  unfold LogOnly at h; unfold ReplyOnly; rw [h]
theorem LogOnly.ofCap (s : State) (c : Capture) : LogOnly s { s with cap := c } := by unfold LogOnly; rfl
theorem LogOnly.ofEvt (s : State) (c : EventLog) : LogOnly s { s with evt := c } := by unfold LogOnly; rfl
theorem LogOnly.time {a b : State} (h : LogOnly a b) : b.time = a.time := by unfold LogOnly at h; rw [h]
theorem LogOnly.sys {a b : State} (h : LogOnly a b) : b.sys = a.sys := by unfold LogOnly at h; rw [h]
theorem LogOnly.cmd {a b : State} (h : LogOnly a b) : b.cmd = a.cmd := by unfold LogOnly at h; rw [h]
theorem LogOnly.udp {a b : State} (h : LogOnly a b) : b.udp = a.udp := by unfold LogOnly at h; rw [h]
theorem LogOnly.bulk {a b : State} (h : LogOnly a b) : b.bulk = a.bulk := by unfold LogOnly at h; rw [h]
theorem LogOnly.img {a b : State} (h : LogOnly a b) : b.img = a.img := by unfold LogOnly at h; rw [h]
theorem LogOnly.sup {a b : State} (h : LogOnly a b) : b.sup = a.sup := by unfold LogOnly at h; rw [h]
theorem LogOnly.gov {a b : State} (h : LogOnly a b) : b.gov = a.gov := by unfold LogOnly at h; rw [h]
theorem LogOnly.stag {a b : State} (h : LogOnly a b) : b.stag = a.stag := by unfold LogOnly at h; rw [h]
theorem LogOnly.eth {a b : State} (h : LogOnly a b) : b.eth = a.eth := by unfold LogOnly at h; rw [h]
theorem LogOnly.insts {a b : State} (h : LogOnly a b) : b.insts = a.insts := by unfold LogOnly at h; rw [h]
theorem LogOnly.clk {a b : State} (h : LogOnly a b) : b.clk = a.clk := by unfold LogOnly at h; rw [h]
theorem LogOnly.sense {a b : State} (h : LogOnly a b) : b.sense = a.sense := by unfold LogOnly at h; rw [h]
theorem LogOnly.flt {a b : State} (h : LogOnly a b) : b.flt = a.flt := by unfold LogOnly at h; rw [h]
theorem LogOnly.pwm {a b : State} (h : LogOnly a b) : b.pwm = a.pwm := by unfold LogOnly at h; rw [h]
theorem LogOnly.loop {a b : State} (h : LogOnly a b) : b.loop = a.loop := by unfold LogOnly at h; rw [h]
theorem LogOnly.safe {a b : State} (h : LogOnly a b) : b.safe = a.safe := by unfold LogOnly at h; rw [h]
theorem LogOnly.field {a b : State} (h : LogOnly a b) : b.field = a.field := by unfold LogOnly at h; rw [h]
theorem LogOnly.fus {a b : State} (h : LogOnly a b) : b.fus = a.fus := by unfold LogOnly at h; rw [h]
theorem LogOnly.can {a b : State} (h : LogOnly a b) : b.can = a.can := by unfold LogOnly at h; rw [h]
theorem LogOnly.sage {a b : State} (h : LogOnly a b) : b.sage = a.sage := by unfold LogOnly at h; rw [h]
theorem LogOnly.rel {a b : State} (h : LogOnly a b) : b.rel = a.rel := by unfold LogOnly at h; rw [h]
theorem LogOnly.free {a b : State} (h : LogOnly a b) : b.free = a.free := by unfold LogOnly at h; rw [h]
theorem LogOnly.pending {a b : State} (h : LogOnly a b) : b.pending = a.pending := by unfold LogOnly at h; rw [h]
theorem ReplyOnly.time {a b : State} (h : ReplyOnly a b) : b.time = a.time := by unfold ReplyOnly at h; rw [h]
theorem ReplyOnly.bulk {a b : State} (h : ReplyOnly a b) : b.bulk = a.bulk := by unfold ReplyOnly at h; rw [h]
theorem ReplyOnly.img {a b : State} (h : ReplyOnly a b) : b.img = a.img := by unfold ReplyOnly at h; rw [h]
theorem ReplyOnly.sup {a b : State} (h : ReplyOnly a b) : b.sup = a.sup := by unfold ReplyOnly at h; rw [h]
theorem ReplyOnly.gov {a b : State} (h : ReplyOnly a b) : b.gov = a.gov := by unfold ReplyOnly at h; rw [h]
theorem ReplyOnly.stag {a b : State} (h : ReplyOnly a b) : b.stag = a.stag := by unfold ReplyOnly at h; rw [h]
theorem ReplyOnly.insts {a b : State} (h : ReplyOnly a b) : b.insts = a.insts := by unfold ReplyOnly at h; rw [h]
theorem ReplyOnly.clk {a b : State} (h : ReplyOnly a b) : b.clk = a.clk := by unfold ReplyOnly at h; rw [h]
theorem ReplyOnly.sense {a b : State} (h : ReplyOnly a b) : b.sense = a.sense := by unfold ReplyOnly at h; rw [h]
theorem ReplyOnly.flt {a b : State} (h : ReplyOnly a b) : b.flt = a.flt := by unfold ReplyOnly at h; rw [h]
theorem ReplyOnly.pwm {a b : State} (h : ReplyOnly a b) : b.pwm = a.pwm := by unfold ReplyOnly at h; rw [h]
theorem ReplyOnly.loop {a b : State} (h : ReplyOnly a b) : b.loop = a.loop := by unfold ReplyOnly at h; rw [h]
theorem ReplyOnly.safe {a b : State} (h : ReplyOnly a b) : b.safe = a.safe := by unfold ReplyOnly at h; rw [h]
theorem ReplyOnly.field {a b : State} (h : ReplyOnly a b) : b.field = a.field := by unfold ReplyOnly at h; rw [h]
theorem ReplyOnly.fus {a b : State} (h : ReplyOnly a b) : b.fus = a.fus := by unfold ReplyOnly at h; rw [h]
theorem ReplyOnly.can {a b : State} (h : ReplyOnly a b) : b.can = a.can := by unfold ReplyOnly at h; rw [h]
theorem ReplyOnly.sage {a b : State} (h : ReplyOnly a b) : b.sage = a.sage := by unfold ReplyOnly at h; rw [h]
theorem ReplyOnly.rel {a b : State} (h : ReplyOnly a b) : b.rel = a.rel := by unfold ReplyOnly at h; rw [h]
theorem ReplyOnly.free {a b : State} (h : ReplyOnly a b) : b.free = a.free := by unfold ReplyOnly at h; rw [h]
theorem ReplyOnly.pending {a b : State} (h : ReplyOnly a b) : b.pending = a.pending := by unfold ReplyOnly at h; rw [h]

end Sys2Proof

namespace Sys2Proof.Laws

open Sys2Proof Sys2Proof.Machine

theorem updCap_log (f : Capture → Capture) (s : State) : LogOnly s (updCap f s) := .ofCap s _

/-! ### Events -/

theorem logEvent_log (c : U16) (n : Nat) (d : Bytes) (s : State) : LogOnly s (logEvent c n d s) := by
  unfold logEvent; split <;> [exact .refl s; (split <;> exact .ofEvt s _)]

theorem setFactor_log (f : Nat) (s : State) : LogOnly s (setFactor f s) := by
  unfold setFactor; dsimp only; split
  · exact (updCap_log _ s).trans (.ofEvt _ _)
  · exact (updCap_log _ s).trans (logEvent_log ..)

theorem followFill_log (s : State) : LogOnly s (followFill s) := by
  unfold followFill; dsimp only
  split
  · exact .refl s
  · split
    · exact (updCap_log _ s).trans (setFactor_log ..)
    · split
      · exact (updCap_log _ s).trans (setFactor_log ..)
      · exact .refl s

theorem closeBlock_log (k : Nat) (s : State) : LogOnly s (closeBlock k s) := by
  unfold closeBlock; split
  · exact .refl s
  · exact ((updCap_log _ s).trans (updCap_log _ _)).trans (followFill_log _)

theorem capEnd_log (x : CapState) (k : Nat) (s : State) : LogOnly s (capEnd x k s) := (updCap_log _ s).trans (logEvent_log ..)

theorem rewriteBlock_log (q : U32) (g : Bytes → Bytes) (s : State) : LogOnly s (rewriteBlock q g s) := by
  unfold rewriteBlock; exact updCap_log _ s

theorem markLast_log (n : Nat) (t : Option CapTrig) (s : State) : LogOnly s (markLast n t s) := by
  unfold markLast
  split
  · exact updCap_log _ s
  · split <;> [exact .refl s; exact rewriteBlock_log ..]

theorem capDone_log (a b : Nat) (s : State) : LogOnly s (capDone a b s) := by
  unfold capDone
  extract_lets no s1 pre held
  have h1 : LogOnly s s1 := (markLast_log ..).trans (closeBlock_log ..)
  split
  · exact (h1.trans (updCap_log _ _)).trans (capEnd_log ..)
  · refine LogOnly.trans ?_ (capEnd_log ..)
    split <;> [exact h1; exact h1.trans (rewriteBlock_log ..)]

theorem capRowsEnd_log (s : State) : LogOnly s (capRowsEnd s) := by
  unfold capRowsEnd; split <;> [exact capDone_log ..; exact .refl s]

theorem placeTrig_log (t : CapTrig) (s : State) : LogOnly s (placeTrig t s) := by
  unfold placeTrig; split
  · exact .refl s
  · extract_lets off s1
    refine LogOnly.trans ?_ (updCap_log _ _)
    dsimp only [s1]
    split
    · exact updCap_log _ s
    · split <;> [exact rewriteBlock_log ..; exact .refl s]

theorem capNote_log (t : CapTrig) (s : State) : LogOnly s (capNote t s) := updCap_log _ s

theorem capPlace_log (t : CapTrig) (s : State) : LogOnly s (capPlace t s) := by
  unfold capPlace
  split
  · extract_lets s1
    have h1 : LogOnly s s1 := (updCap_log _ s).trans (placeTrig_log ..)
    split <;> [exact h1.trans (capDone_log ..); exact h1.trans (capRowsEnd_log _)]
  · extract_lets s1
    have h1 : LogOnly s s1 := (updCap_log _ s).trans (placeTrig_log ..)
    split <;> [exact h1.trans (capDone_log ..); exact h1.trans (capRowsEnd_log _)]
  · exact (placeTrig_log ..).trans (closeBlock_log ..)

theorem capTake_log (t : CapTrig) (k : Nat) (s : State) : LogOnly s (capTake t k s) :=
  (((updCap_log _ s).trans (capNote_log t _)).trans (logEvent_log ..)).trans (capPlace_log ..)

theorem capReplace_log (t : CapTrig) (s : State) : LogOnly s (capReplace t s) :=
  ((capNote_log t s).trans (.ofEvt _ _)).trans (capPlace_log ..)

theorem dropEdges_log (s : State) : LogOnly s (dropEdges s) := updCap_log _ s
theorem takeEdge_log (l q e : Nat) (s : State) : LogOnly s (takeEdge l q e s) := by
  unfold takeEdge; exact (dropEdges_log s).trans (updCap_log _ _)
theorem driveLines_log (m : Byte) (s : State) : LogOnly s (driveLines m s) := by unfold driveLines; exact updCap_log _ s

theorem capFire_log (t : CapTrig) (s : State) : LogOnly s (capFire t s) := by
  unfold capFire; split
  · exact .refl s
  · extract_lets s1
    have h : LogOnly s s1 := driveLines_log ..
    have h2 : LogOnly s (dropEdges s1) := h.trans (dropEdges_log s1)
    split
    · exact h.trans (takeEdge_log ..)
    · split
      · exact h2.trans (capReplace_log t (dropEdges s1))
      · exact h2.trans (capTake_log t s.time.raw (dropEdges s1))

theorem capEvent_log (c : U16) (n : Nat) (d : Bytes) (s : State) : LogOnly s (capEvent c n d s) := by
  unfold capEvent; split <;> [exact .refl s; (split <;> [exact .refl s; exact capFire_log ..])]

/-- An event changes nothing but the log, and the capture that it triggers (R85, R489). -/
theorem post_log (c : U16) (n : Nat) (d : Bytes) (s : State) : LogOnly s (post c n d s) := (logEvent_log ..).trans (capEvent_log ..)

theorem postMergeWith_log (c : U16) (n : Nat) (d : Bytes) (f : LogEntry → Bool) (g : Bytes → Bytes → Bytes) (s : State) :
    LogOnly s (postMergeWith c n d f g s) := by
  unfold postMergeWith; split <;> [exact (LogOnly.ofEvt s _).trans (capEvent_log ..); exact post_log ..]

theorem postMerge_log (c : U16) (n : Nat) (d : Bytes) (s : State) : LogOnly s (postMerge c n d s) := postMergeWith_log ..

/-! ### Replies -/

theorem updSession_reply (p : Nat) (q : U32) (f : Session → Session) (s : State) : ReplyOnly s (updSession p q f s) := by
  unfold ReplyOnly; rfl

theorem capShutdown_log (k : Nat) (s : State) : LogOnly s (capShutdown k s) := by
  unfold capShutdown; split <;> [exact updCap_log _ s; exact .refl s]

theorem capSessionClosed_log (p : Nat) (q : U32) (s : State) : LogOnly s (capSessionClosed p q s) := by
  unfold capSessionClosed; split <;> [exact capShutdown_log ..; exact .refl s]

theorem closeSession_reply (p : Nat) (q : U32) (k : Nat) (s : State) : ReplyOnly s (closeSession p q k s) := by
  unfold closeSession; split
  · exact .refl s
  · refine ReplyOnly.trans ?_ ((post_log ..).trans (capSessionClosed_log ..)).reply
    unfold ReplyOnly; rfl

theorem ethPut_reply (p : Nat) (g : EthPort → SentFrame) (s : State) : ReplyOnly s (ethPut p g s) := by
  unfold ethPut ReplyOnly; (repeat' split) <;> rfl

theorem ethSend_reply (p : Nat) (d : U32) (b : Bytes) (s : State) : ReplyOnly s (ethSend p d b s) := ethPut_reply ..

theorem admitWaiting_reply (s : State) : ReplyOnly s (admitWaiting s) := by
  unfold admitWaiting ReplyOnly; split <;> [rfl; (split <;> rfl)]

theorem enqueueReply_reply (q : QReply) (s : State) : ReplyOnly s (enqueueReply q s) := by
  unfold enqueueReply ReplyOnly; split <;> rfl

theorem countError_reply (st : U16) (s : State) :
    ReplyOnly s (if isError st = true then { s with sys := { s.sys with errors := s.sys.errors + 1 } } else s) := by
  unfold ReplyOnly; split <;> rfl

/-- A reply reaches its transport and changes nothing else (R51, R64, R74). -/
theorem sendReply_reply (c : Bool) (v : Transport) (i : U32) (p o : U16) (t : Byte) (st : U16) (b : Bytes) (s : State) :
    ReplyOnly s (sendReply c v i p o t st b s) := by
  unfold sendReply; dsimp only
  refine (countError_reply st s).trans ?_
  generalize (if isError st = true then { s with sys := { s.sys with errors := s.sys.errors + 1 } } else s) = u
  split
  · exact enqueueReply_reply ..
  · split
    · split <;> [exact ethSend_reply ..; exact .refl u]
    · split
      · split <;> [exact (post_log ..).reply; exact .refl u]
      · split
        · exact ((ethSend_reply ..).trans (updSession_reply ..)).trans (closeSession_reply ..)
        · exact (ethSend_reply ..).trans (updSession_reply ..)

theorem replyTo_reply (r : Req) (st : U16) (b : Bytes) (s : State) : ReplyOnly s (replyTo r st b s) := by
  unfold replyTo; split <;> [exact .refl s; exact sendReply_reply ..]

theorem settle_reply (o : Owed) (st : U16) (b : Bytes) (s : State) : ReplyOnly s (settle o st b s) := by
  unfold settle; split <;> [exact sendReply_reply ..; (split <;> [exact (post_log ..).reply; exact .refl s])]

theorem settleStart_reply (o : Option Owed) (st : U16) (b : Bytes) (s : State) : ReplyOnly s (settleStart o st b s) := by
  unfold settleStart; split <;> [exact settle_reply ..; exact .refl s]

theorem flushClass_reply (c n : Nat) (s : State) : ReplyOnly s (flushClass c n s) := by
  induction n generalizing s with
  | zero => exact .refl s
  | succ n ih =>
    unfold flushClass
    split
    · exact .refl s
    · split
      · exact .refl s
      · refine ReplyOnly.trans ?_ (ih _)
        refine ReplyOnly.trans ?_ (settle_reply ..)
        unfold ReplyOnly; rfl

/-- The end of a long operation reaches those who wait for it and changes nothing else (R59, R63). -/
theorem endLong_reply (o : U16) (k : Nat) (st : U16) (b : Bytes) (s : State) : ReplyOnly s (endLong o k st b s) := by
  unfold endLong; split
  · exact .refl s
  · refine ReplyOnly.trans ?_ (flushClass_reply ..)
    unfold ReplyOnly; rfl

/-- Taking a request changes nothing but the command port and the sessions. -/
theorem dropRequest_change (s : State) (v : Transport) :
    dropRequest s v = { s with cmd := (dropRequest s v).cmd, udp := (dropRequest s v).udp } := by
  unfold dropRequest; dsimp only; split
  · rfl
  · split
    · rfl
    · split <;> rfl

/-- Taking a request changes nothing but what replies reach. -/
theorem dropRequest_reply (s : State) (v : Transport) : ReplyOnly s (dropRequest s v) := by
  unfold ReplyOnly; rw [dropRequest_change s v]

/-! ### The fields that events and replies leave alone -/

@[simp] theorem logEvent_time (c : U16) (n : Nat) (d : Bytes) (s : State) : (logEvent c n d s).time = s.time := (logEvent_log c n d s).time
@[simp] theorem logEvent_sys (c : U16) (n : Nat) (d : Bytes) (s : State) : (logEvent c n d s).sys = s.sys := (logEvent_log c n d s).sys
@[simp] theorem logEvent_cmd (c : U16) (n : Nat) (d : Bytes) (s : State) : (logEvent c n d s).cmd = s.cmd := (logEvent_log c n d s).cmd
@[simp] theorem logEvent_udp (c : U16) (n : Nat) (d : Bytes) (s : State) : (logEvent c n d s).udp = s.udp := (logEvent_log c n d s).udp
@[simp] theorem logEvent_bulk (c : U16) (n : Nat) (d : Bytes) (s : State) : (logEvent c n d s).bulk = s.bulk := (logEvent_log c n d s).bulk
@[simp] theorem logEvent_img (c : U16) (n : Nat) (d : Bytes) (s : State) : (logEvent c n d s).img = s.img := (logEvent_log c n d s).img
@[simp] theorem logEvent_sup (c : U16) (n : Nat) (d : Bytes) (s : State) : (logEvent c n d s).sup = s.sup := (logEvent_log c n d s).sup
@[simp] theorem logEvent_gov (c : U16) (n : Nat) (d : Bytes) (s : State) : (logEvent c n d s).gov = s.gov := (logEvent_log c n d s).gov
@[simp] theorem logEvent_stag (c : U16) (n : Nat) (d : Bytes) (s : State) : (logEvent c n d s).stag = s.stag := (logEvent_log c n d s).stag
@[simp] theorem logEvent_eth (c : U16) (n : Nat) (d : Bytes) (s : State) : (logEvent c n d s).eth = s.eth := (logEvent_log c n d s).eth
@[simp] theorem logEvent_insts (c : U16) (n : Nat) (d : Bytes) (s : State) : (logEvent c n d s).insts = s.insts := (logEvent_log c n d s).insts
@[simp] theorem logEvent_clk (c : U16) (n : Nat) (d : Bytes) (s : State) : (logEvent c n d s).clk = s.clk := (logEvent_log c n d s).clk
@[simp] theorem logEvent_sense (c : U16) (n : Nat) (d : Bytes) (s : State) : (logEvent c n d s).sense = s.sense := (logEvent_log c n d s).sense
@[simp] theorem logEvent_flt (c : U16) (n : Nat) (d : Bytes) (s : State) : (logEvent c n d s).flt = s.flt := (logEvent_log c n d s).flt
@[simp] theorem logEvent_pwm (c : U16) (n : Nat) (d : Bytes) (s : State) : (logEvent c n d s).pwm = s.pwm := (logEvent_log c n d s).pwm
@[simp] theorem logEvent_loop (c : U16) (n : Nat) (d : Bytes) (s : State) : (logEvent c n d s).loop = s.loop := (logEvent_log c n d s).loop
@[simp] theorem logEvent_safe (c : U16) (n : Nat) (d : Bytes) (s : State) : (logEvent c n d s).safe = s.safe := (logEvent_log c n d s).safe
@[simp] theorem logEvent_field (c : U16) (n : Nat) (d : Bytes) (s : State) : (logEvent c n d s).field = s.field := (logEvent_log c n d s).field
@[simp] theorem logEvent_fus (c : U16) (n : Nat) (d : Bytes) (s : State) : (logEvent c n d s).fus = s.fus := (logEvent_log c n d s).fus
@[simp] theorem logEvent_can (c : U16) (n : Nat) (d : Bytes) (s : State) : (logEvent c n d s).can = s.can := (logEvent_log c n d s).can
@[simp] theorem logEvent_sage (c : U16) (n : Nat) (d : Bytes) (s : State) : (logEvent c n d s).sage = s.sage := (logEvent_log c n d s).sage
@[simp] theorem logEvent_rel (c : U16) (n : Nat) (d : Bytes) (s : State) : (logEvent c n d s).rel = s.rel := (logEvent_log c n d s).rel
@[simp] theorem logEvent_free (c : U16) (n : Nat) (d : Bytes) (s : State) : (logEvent c n d s).free = s.free := (logEvent_log c n d s).free
@[simp] theorem logEvent_pending (c : U16) (n : Nat) (d : Bytes) (s : State) : (logEvent c n d s).pending = s.pending := (logEvent_log c n d s).pending

@[simp] theorem post_time (c : U16) (n : Nat) (d : Bytes) (s : State) : (post c n d s).time = s.time := (post_log c n d s).time
@[simp] theorem post_sys (c : U16) (n : Nat) (d : Bytes) (s : State) : (post c n d s).sys = s.sys := (post_log c n d s).sys
@[simp] theorem post_cmd (c : U16) (n : Nat) (d : Bytes) (s : State) : (post c n d s).cmd = s.cmd := (post_log c n d s).cmd
@[simp] theorem post_udp (c : U16) (n : Nat) (d : Bytes) (s : State) : (post c n d s).udp = s.udp := (post_log c n d s).udp
@[simp] theorem post_bulk (c : U16) (n : Nat) (d : Bytes) (s : State) : (post c n d s).bulk = s.bulk := (post_log c n d s).bulk
@[simp] theorem post_img (c : U16) (n : Nat) (d : Bytes) (s : State) : (post c n d s).img = s.img := (post_log c n d s).img
@[simp] theorem post_sup (c : U16) (n : Nat) (d : Bytes) (s : State) : (post c n d s).sup = s.sup := (post_log c n d s).sup
@[simp] theorem post_gov (c : U16) (n : Nat) (d : Bytes) (s : State) : (post c n d s).gov = s.gov := (post_log c n d s).gov
@[simp] theorem post_stag (c : U16) (n : Nat) (d : Bytes) (s : State) : (post c n d s).stag = s.stag := (post_log c n d s).stag
@[simp] theorem post_eth (c : U16) (n : Nat) (d : Bytes) (s : State) : (post c n d s).eth = s.eth := (post_log c n d s).eth
@[simp] theorem post_insts (c : U16) (n : Nat) (d : Bytes) (s : State) : (post c n d s).insts = s.insts := (post_log c n d s).insts
@[simp] theorem post_clk (c : U16) (n : Nat) (d : Bytes) (s : State) : (post c n d s).clk = s.clk := (post_log c n d s).clk
@[simp] theorem post_sense (c : U16) (n : Nat) (d : Bytes) (s : State) : (post c n d s).sense = s.sense := (post_log c n d s).sense
@[simp] theorem post_flt (c : U16) (n : Nat) (d : Bytes) (s : State) : (post c n d s).flt = s.flt := (post_log c n d s).flt
@[simp] theorem post_pwm (c : U16) (n : Nat) (d : Bytes) (s : State) : (post c n d s).pwm = s.pwm := (post_log c n d s).pwm
@[simp] theorem post_loop (c : U16) (n : Nat) (d : Bytes) (s : State) : (post c n d s).loop = s.loop := (post_log c n d s).loop
@[simp] theorem post_safe (c : U16) (n : Nat) (d : Bytes) (s : State) : (post c n d s).safe = s.safe := (post_log c n d s).safe
@[simp] theorem post_field (c : U16) (n : Nat) (d : Bytes) (s : State) : (post c n d s).field = s.field := (post_log c n d s).field
@[simp] theorem post_fus (c : U16) (n : Nat) (d : Bytes) (s : State) : (post c n d s).fus = s.fus := (post_log c n d s).fus
@[simp] theorem post_can (c : U16) (n : Nat) (d : Bytes) (s : State) : (post c n d s).can = s.can := (post_log c n d s).can
@[simp] theorem post_sage (c : U16) (n : Nat) (d : Bytes) (s : State) : (post c n d s).sage = s.sage := (post_log c n d s).sage
@[simp] theorem post_rel (c : U16) (n : Nat) (d : Bytes) (s : State) : (post c n d s).rel = s.rel := (post_log c n d s).rel
@[simp] theorem post_free (c : U16) (n : Nat) (d : Bytes) (s : State) : (post c n d s).free = s.free := (post_log c n d s).free
@[simp] theorem post_pending (c : U16) (n : Nat) (d : Bytes) (s : State) : (post c n d s).pending = s.pending := (post_log c n d s).pending

@[simp] theorem postMergeWith_time (c : U16) (n : Nat) (d : Bytes) (f : LogEntry → Bool) (g : Bytes → Bytes → Bytes) (s : State) : (postMergeWith c n d f g s).time = s.time := (postMergeWith_log c n d f g s).time
@[simp] theorem postMergeWith_sys (c : U16) (n : Nat) (d : Bytes) (f : LogEntry → Bool) (g : Bytes → Bytes → Bytes) (s : State) : (postMergeWith c n d f g s).sys = s.sys := (postMergeWith_log c n d f g s).sys
@[simp] theorem postMergeWith_cmd (c : U16) (n : Nat) (d : Bytes) (f : LogEntry → Bool) (g : Bytes → Bytes → Bytes) (s : State) : (postMergeWith c n d f g s).cmd = s.cmd := (postMergeWith_log c n d f g s).cmd
@[simp] theorem postMergeWith_udp (c : U16) (n : Nat) (d : Bytes) (f : LogEntry → Bool) (g : Bytes → Bytes → Bytes) (s : State) : (postMergeWith c n d f g s).udp = s.udp := (postMergeWith_log c n d f g s).udp
@[simp] theorem postMergeWith_bulk (c : U16) (n : Nat) (d : Bytes) (f : LogEntry → Bool) (g : Bytes → Bytes → Bytes) (s : State) : (postMergeWith c n d f g s).bulk = s.bulk := (postMergeWith_log c n d f g s).bulk
@[simp] theorem postMergeWith_img (c : U16) (n : Nat) (d : Bytes) (f : LogEntry → Bool) (g : Bytes → Bytes → Bytes) (s : State) : (postMergeWith c n d f g s).img = s.img := (postMergeWith_log c n d f g s).img
@[simp] theorem postMergeWith_sup (c : U16) (n : Nat) (d : Bytes) (f : LogEntry → Bool) (g : Bytes → Bytes → Bytes) (s : State) : (postMergeWith c n d f g s).sup = s.sup := (postMergeWith_log c n d f g s).sup
@[simp] theorem postMergeWith_gov (c : U16) (n : Nat) (d : Bytes) (f : LogEntry → Bool) (g : Bytes → Bytes → Bytes) (s : State) : (postMergeWith c n d f g s).gov = s.gov := (postMergeWith_log c n d f g s).gov
@[simp] theorem postMergeWith_stag (c : U16) (n : Nat) (d : Bytes) (f : LogEntry → Bool) (g : Bytes → Bytes → Bytes) (s : State) : (postMergeWith c n d f g s).stag = s.stag := (postMergeWith_log c n d f g s).stag
@[simp] theorem postMergeWith_eth (c : U16) (n : Nat) (d : Bytes) (f : LogEntry → Bool) (g : Bytes → Bytes → Bytes) (s : State) : (postMergeWith c n d f g s).eth = s.eth := (postMergeWith_log c n d f g s).eth
@[simp] theorem postMergeWith_insts (c : U16) (n : Nat) (d : Bytes) (f : LogEntry → Bool) (g : Bytes → Bytes → Bytes) (s : State) : (postMergeWith c n d f g s).insts = s.insts := (postMergeWith_log c n d f g s).insts
@[simp] theorem postMergeWith_clk (c : U16) (n : Nat) (d : Bytes) (f : LogEntry → Bool) (g : Bytes → Bytes → Bytes) (s : State) : (postMergeWith c n d f g s).clk = s.clk := (postMergeWith_log c n d f g s).clk
@[simp] theorem postMergeWith_sense (c : U16) (n : Nat) (d : Bytes) (f : LogEntry → Bool) (g : Bytes → Bytes → Bytes) (s : State) : (postMergeWith c n d f g s).sense = s.sense := (postMergeWith_log c n d f g s).sense
@[simp] theorem postMergeWith_flt (c : U16) (n : Nat) (d : Bytes) (f : LogEntry → Bool) (g : Bytes → Bytes → Bytes) (s : State) : (postMergeWith c n d f g s).flt = s.flt := (postMergeWith_log c n d f g s).flt
@[simp] theorem postMergeWith_pwm (c : U16) (n : Nat) (d : Bytes) (f : LogEntry → Bool) (g : Bytes → Bytes → Bytes) (s : State) : (postMergeWith c n d f g s).pwm = s.pwm := (postMergeWith_log c n d f g s).pwm
@[simp] theorem postMergeWith_loop (c : U16) (n : Nat) (d : Bytes) (f : LogEntry → Bool) (g : Bytes → Bytes → Bytes) (s : State) : (postMergeWith c n d f g s).loop = s.loop := (postMergeWith_log c n d f g s).loop
@[simp] theorem postMergeWith_safe (c : U16) (n : Nat) (d : Bytes) (f : LogEntry → Bool) (g : Bytes → Bytes → Bytes) (s : State) : (postMergeWith c n d f g s).safe = s.safe := (postMergeWith_log c n d f g s).safe
@[simp] theorem postMergeWith_field (c : U16) (n : Nat) (d : Bytes) (f : LogEntry → Bool) (g : Bytes → Bytes → Bytes) (s : State) : (postMergeWith c n d f g s).field = s.field := (postMergeWith_log c n d f g s).field
@[simp] theorem postMergeWith_fus (c : U16) (n : Nat) (d : Bytes) (f : LogEntry → Bool) (g : Bytes → Bytes → Bytes) (s : State) : (postMergeWith c n d f g s).fus = s.fus := (postMergeWith_log c n d f g s).fus
@[simp] theorem postMergeWith_can (c : U16) (n : Nat) (d : Bytes) (f : LogEntry → Bool) (g : Bytes → Bytes → Bytes) (s : State) : (postMergeWith c n d f g s).can = s.can := (postMergeWith_log c n d f g s).can
@[simp] theorem postMergeWith_sage (c : U16) (n : Nat) (d : Bytes) (f : LogEntry → Bool) (g : Bytes → Bytes → Bytes) (s : State) : (postMergeWith c n d f g s).sage = s.sage := (postMergeWith_log c n d f g s).sage
@[simp] theorem postMergeWith_rel (c : U16) (n : Nat) (d : Bytes) (f : LogEntry → Bool) (g : Bytes → Bytes → Bytes) (s : State) : (postMergeWith c n d f g s).rel = s.rel := (postMergeWith_log c n d f g s).rel
@[simp] theorem postMergeWith_free (c : U16) (n : Nat) (d : Bytes) (f : LogEntry → Bool) (g : Bytes → Bytes → Bytes) (s : State) : (postMergeWith c n d f g s).free = s.free := (postMergeWith_log c n d f g s).free
@[simp] theorem postMergeWith_pending (c : U16) (n : Nat) (d : Bytes) (f : LogEntry → Bool) (g : Bytes → Bytes → Bytes) (s : State) : (postMergeWith c n d f g s).pending = s.pending := (postMergeWith_log c n d f g s).pending

@[simp] theorem postMerge_time (c : U16) (n : Nat) (d : Bytes) (s : State) : (postMerge c n d s).time = s.time := (postMerge_log c n d s).time
@[simp] theorem postMerge_sys (c : U16) (n : Nat) (d : Bytes) (s : State) : (postMerge c n d s).sys = s.sys := (postMerge_log c n d s).sys
@[simp] theorem postMerge_cmd (c : U16) (n : Nat) (d : Bytes) (s : State) : (postMerge c n d s).cmd = s.cmd := (postMerge_log c n d s).cmd
@[simp] theorem postMerge_udp (c : U16) (n : Nat) (d : Bytes) (s : State) : (postMerge c n d s).udp = s.udp := (postMerge_log c n d s).udp
@[simp] theorem postMerge_bulk (c : U16) (n : Nat) (d : Bytes) (s : State) : (postMerge c n d s).bulk = s.bulk := (postMerge_log c n d s).bulk
@[simp] theorem postMerge_img (c : U16) (n : Nat) (d : Bytes) (s : State) : (postMerge c n d s).img = s.img := (postMerge_log c n d s).img
@[simp] theorem postMerge_sup (c : U16) (n : Nat) (d : Bytes) (s : State) : (postMerge c n d s).sup = s.sup := (postMerge_log c n d s).sup
@[simp] theorem postMerge_gov (c : U16) (n : Nat) (d : Bytes) (s : State) : (postMerge c n d s).gov = s.gov := (postMerge_log c n d s).gov
@[simp] theorem postMerge_stag (c : U16) (n : Nat) (d : Bytes) (s : State) : (postMerge c n d s).stag = s.stag := (postMerge_log c n d s).stag
@[simp] theorem postMerge_eth (c : U16) (n : Nat) (d : Bytes) (s : State) : (postMerge c n d s).eth = s.eth := (postMerge_log c n d s).eth
@[simp] theorem postMerge_insts (c : U16) (n : Nat) (d : Bytes) (s : State) : (postMerge c n d s).insts = s.insts := (postMerge_log c n d s).insts
@[simp] theorem postMerge_clk (c : U16) (n : Nat) (d : Bytes) (s : State) : (postMerge c n d s).clk = s.clk := (postMerge_log c n d s).clk
@[simp] theorem postMerge_sense (c : U16) (n : Nat) (d : Bytes) (s : State) : (postMerge c n d s).sense = s.sense := (postMerge_log c n d s).sense
@[simp] theorem postMerge_flt (c : U16) (n : Nat) (d : Bytes) (s : State) : (postMerge c n d s).flt = s.flt := (postMerge_log c n d s).flt
@[simp] theorem postMerge_pwm (c : U16) (n : Nat) (d : Bytes) (s : State) : (postMerge c n d s).pwm = s.pwm := (postMerge_log c n d s).pwm
@[simp] theorem postMerge_loop (c : U16) (n : Nat) (d : Bytes) (s : State) : (postMerge c n d s).loop = s.loop := (postMerge_log c n d s).loop
@[simp] theorem postMerge_safe (c : U16) (n : Nat) (d : Bytes) (s : State) : (postMerge c n d s).safe = s.safe := (postMerge_log c n d s).safe
@[simp] theorem postMerge_field (c : U16) (n : Nat) (d : Bytes) (s : State) : (postMerge c n d s).field = s.field := (postMerge_log c n d s).field
@[simp] theorem postMerge_fus (c : U16) (n : Nat) (d : Bytes) (s : State) : (postMerge c n d s).fus = s.fus := (postMerge_log c n d s).fus
@[simp] theorem postMerge_can (c : U16) (n : Nat) (d : Bytes) (s : State) : (postMerge c n d s).can = s.can := (postMerge_log c n d s).can
@[simp] theorem postMerge_sage (c : U16) (n : Nat) (d : Bytes) (s : State) : (postMerge c n d s).sage = s.sage := (postMerge_log c n d s).sage
@[simp] theorem postMerge_rel (c : U16) (n : Nat) (d : Bytes) (s : State) : (postMerge c n d s).rel = s.rel := (postMerge_log c n d s).rel
@[simp] theorem postMerge_free (c : U16) (n : Nat) (d : Bytes) (s : State) : (postMerge c n d s).free = s.free := (postMerge_log c n d s).free
@[simp] theorem postMerge_pending (c : U16) (n : Nat) (d : Bytes) (s : State) : (postMerge c n d s).pending = s.pending := (postMerge_log c n d s).pending

@[simp] theorem replyTo_time (r : Req) (st : U16) (b : Bytes) (s : State) : (replyTo r st b s).time = s.time := (replyTo_reply r st b s).time
@[simp] theorem replyTo_bulk (r : Req) (st : U16) (b : Bytes) (s : State) : (replyTo r st b s).bulk = s.bulk := (replyTo_reply r st b s).bulk
@[simp] theorem replyTo_img (r : Req) (st : U16) (b : Bytes) (s : State) : (replyTo r st b s).img = s.img := (replyTo_reply r st b s).img
@[simp] theorem replyTo_sup (r : Req) (st : U16) (b : Bytes) (s : State) : (replyTo r st b s).sup = s.sup := (replyTo_reply r st b s).sup
@[simp] theorem replyTo_gov (r : Req) (st : U16) (b : Bytes) (s : State) : (replyTo r st b s).gov = s.gov := (replyTo_reply r st b s).gov
@[simp] theorem replyTo_stag (r : Req) (st : U16) (b : Bytes) (s : State) : (replyTo r st b s).stag = s.stag := (replyTo_reply r st b s).stag
@[simp] theorem replyTo_insts (r : Req) (st : U16) (b : Bytes) (s : State) : (replyTo r st b s).insts = s.insts := (replyTo_reply r st b s).insts
@[simp] theorem replyTo_clk (r : Req) (st : U16) (b : Bytes) (s : State) : (replyTo r st b s).clk = s.clk := (replyTo_reply r st b s).clk
@[simp] theorem replyTo_sense (r : Req) (st : U16) (b : Bytes) (s : State) : (replyTo r st b s).sense = s.sense := (replyTo_reply r st b s).sense
@[simp] theorem replyTo_flt (r : Req) (st : U16) (b : Bytes) (s : State) : (replyTo r st b s).flt = s.flt := (replyTo_reply r st b s).flt
@[simp] theorem replyTo_pwm (r : Req) (st : U16) (b : Bytes) (s : State) : (replyTo r st b s).pwm = s.pwm := (replyTo_reply r st b s).pwm
@[simp] theorem replyTo_loop (r : Req) (st : U16) (b : Bytes) (s : State) : (replyTo r st b s).loop = s.loop := (replyTo_reply r st b s).loop
@[simp] theorem replyTo_safe (r : Req) (st : U16) (b : Bytes) (s : State) : (replyTo r st b s).safe = s.safe := (replyTo_reply r st b s).safe
@[simp] theorem replyTo_field (r : Req) (st : U16) (b : Bytes) (s : State) : (replyTo r st b s).field = s.field := (replyTo_reply r st b s).field
@[simp] theorem replyTo_fus (r : Req) (st : U16) (b : Bytes) (s : State) : (replyTo r st b s).fus = s.fus := (replyTo_reply r st b s).fus
@[simp] theorem replyTo_can (r : Req) (st : U16) (b : Bytes) (s : State) : (replyTo r st b s).can = s.can := (replyTo_reply r st b s).can
@[simp] theorem replyTo_sage (r : Req) (st : U16) (b : Bytes) (s : State) : (replyTo r st b s).sage = s.sage := (replyTo_reply r st b s).sage
@[simp] theorem replyTo_rel (r : Req) (st : U16) (b : Bytes) (s : State) : (replyTo r st b s).rel = s.rel := (replyTo_reply r st b s).rel
@[simp] theorem replyTo_free (r : Req) (st : U16) (b : Bytes) (s : State) : (replyTo r st b s).free = s.free := (replyTo_reply r st b s).free
@[simp] theorem replyTo_pending (r : Req) (st : U16) (b : Bytes) (s : State) : (replyTo r st b s).pending = s.pending := (replyTo_reply r st b s).pending

@[simp] theorem settle_time (o : Owed) (st : U16) (b : Bytes) (s : State) : (settle o st b s).time = s.time := (settle_reply o st b s).time
@[simp] theorem settle_bulk (o : Owed) (st : U16) (b : Bytes) (s : State) : (settle o st b s).bulk = s.bulk := (settle_reply o st b s).bulk
@[simp] theorem settle_img (o : Owed) (st : U16) (b : Bytes) (s : State) : (settle o st b s).img = s.img := (settle_reply o st b s).img
@[simp] theorem settle_sup (o : Owed) (st : U16) (b : Bytes) (s : State) : (settle o st b s).sup = s.sup := (settle_reply o st b s).sup
@[simp] theorem settle_gov (o : Owed) (st : U16) (b : Bytes) (s : State) : (settle o st b s).gov = s.gov := (settle_reply o st b s).gov
@[simp] theorem settle_stag (o : Owed) (st : U16) (b : Bytes) (s : State) : (settle o st b s).stag = s.stag := (settle_reply o st b s).stag
@[simp] theorem settle_insts (o : Owed) (st : U16) (b : Bytes) (s : State) : (settle o st b s).insts = s.insts := (settle_reply o st b s).insts
@[simp] theorem settle_clk (o : Owed) (st : U16) (b : Bytes) (s : State) : (settle o st b s).clk = s.clk := (settle_reply o st b s).clk
@[simp] theorem settle_sense (o : Owed) (st : U16) (b : Bytes) (s : State) : (settle o st b s).sense = s.sense := (settle_reply o st b s).sense
@[simp] theorem settle_flt (o : Owed) (st : U16) (b : Bytes) (s : State) : (settle o st b s).flt = s.flt := (settle_reply o st b s).flt
@[simp] theorem settle_pwm (o : Owed) (st : U16) (b : Bytes) (s : State) : (settle o st b s).pwm = s.pwm := (settle_reply o st b s).pwm
@[simp] theorem settle_loop (o : Owed) (st : U16) (b : Bytes) (s : State) : (settle o st b s).loop = s.loop := (settle_reply o st b s).loop
@[simp] theorem settle_safe (o : Owed) (st : U16) (b : Bytes) (s : State) : (settle o st b s).safe = s.safe := (settle_reply o st b s).safe
@[simp] theorem settle_field (o : Owed) (st : U16) (b : Bytes) (s : State) : (settle o st b s).field = s.field := (settle_reply o st b s).field
@[simp] theorem settle_fus (o : Owed) (st : U16) (b : Bytes) (s : State) : (settle o st b s).fus = s.fus := (settle_reply o st b s).fus
@[simp] theorem settle_can (o : Owed) (st : U16) (b : Bytes) (s : State) : (settle o st b s).can = s.can := (settle_reply o st b s).can
@[simp] theorem settle_sage (o : Owed) (st : U16) (b : Bytes) (s : State) : (settle o st b s).sage = s.sage := (settle_reply o st b s).sage
@[simp] theorem settle_rel (o : Owed) (st : U16) (b : Bytes) (s : State) : (settle o st b s).rel = s.rel := (settle_reply o st b s).rel
@[simp] theorem settle_free (o : Owed) (st : U16) (b : Bytes) (s : State) : (settle o st b s).free = s.free := (settle_reply o st b s).free
@[simp] theorem settle_pending (o : Owed) (st : U16) (b : Bytes) (s : State) : (settle o st b s).pending = s.pending := (settle_reply o st b s).pending

@[simp] theorem settleStart_time (o : Option Owed) (st : U16) (b : Bytes) (s : State) : (settleStart o st b s).time = s.time := (settleStart_reply o st b s).time
@[simp] theorem settleStart_bulk (o : Option Owed) (st : U16) (b : Bytes) (s : State) : (settleStart o st b s).bulk = s.bulk := (settleStart_reply o st b s).bulk
@[simp] theorem settleStart_img (o : Option Owed) (st : U16) (b : Bytes) (s : State) : (settleStart o st b s).img = s.img := (settleStart_reply o st b s).img
@[simp] theorem settleStart_sup (o : Option Owed) (st : U16) (b : Bytes) (s : State) : (settleStart o st b s).sup = s.sup := (settleStart_reply o st b s).sup
@[simp] theorem settleStart_gov (o : Option Owed) (st : U16) (b : Bytes) (s : State) : (settleStart o st b s).gov = s.gov := (settleStart_reply o st b s).gov
@[simp] theorem settleStart_stag (o : Option Owed) (st : U16) (b : Bytes) (s : State) : (settleStart o st b s).stag = s.stag := (settleStart_reply o st b s).stag
@[simp] theorem settleStart_insts (o : Option Owed) (st : U16) (b : Bytes) (s : State) : (settleStart o st b s).insts = s.insts := (settleStart_reply o st b s).insts
@[simp] theorem settleStart_clk (o : Option Owed) (st : U16) (b : Bytes) (s : State) : (settleStart o st b s).clk = s.clk := (settleStart_reply o st b s).clk
@[simp] theorem settleStart_sense (o : Option Owed) (st : U16) (b : Bytes) (s : State) : (settleStart o st b s).sense = s.sense := (settleStart_reply o st b s).sense
@[simp] theorem settleStart_flt (o : Option Owed) (st : U16) (b : Bytes) (s : State) : (settleStart o st b s).flt = s.flt := (settleStart_reply o st b s).flt
@[simp] theorem settleStart_pwm (o : Option Owed) (st : U16) (b : Bytes) (s : State) : (settleStart o st b s).pwm = s.pwm := (settleStart_reply o st b s).pwm
@[simp] theorem settleStart_loop (o : Option Owed) (st : U16) (b : Bytes) (s : State) : (settleStart o st b s).loop = s.loop := (settleStart_reply o st b s).loop
@[simp] theorem settleStart_safe (o : Option Owed) (st : U16) (b : Bytes) (s : State) : (settleStart o st b s).safe = s.safe := (settleStart_reply o st b s).safe
@[simp] theorem settleStart_field (o : Option Owed) (st : U16) (b : Bytes) (s : State) : (settleStart o st b s).field = s.field := (settleStart_reply o st b s).field
@[simp] theorem settleStart_fus (o : Option Owed) (st : U16) (b : Bytes) (s : State) : (settleStart o st b s).fus = s.fus := (settleStart_reply o st b s).fus
@[simp] theorem settleStart_can (o : Option Owed) (st : U16) (b : Bytes) (s : State) : (settleStart o st b s).can = s.can := (settleStart_reply o st b s).can
@[simp] theorem settleStart_sage (o : Option Owed) (st : U16) (b : Bytes) (s : State) : (settleStart o st b s).sage = s.sage := (settleStart_reply o st b s).sage
@[simp] theorem settleStart_rel (o : Option Owed) (st : U16) (b : Bytes) (s : State) : (settleStart o st b s).rel = s.rel := (settleStart_reply o st b s).rel
@[simp] theorem settleStart_free (o : Option Owed) (st : U16) (b : Bytes) (s : State) : (settleStart o st b s).free = s.free := (settleStart_reply o st b s).free
@[simp] theorem settleStart_pending (o : Option Owed) (st : U16) (b : Bytes) (s : State) : (settleStart o st b s).pending = s.pending := (settleStart_reply o st b s).pending

@[simp] theorem endLong_time (o : U16) (k : Nat) (st : U16) (b : Bytes) (s : State) : (endLong o k st b s).time = s.time := (endLong_reply o k st b s).time
@[simp] theorem endLong_bulk (o : U16) (k : Nat) (st : U16) (b : Bytes) (s : State) : (endLong o k st b s).bulk = s.bulk := (endLong_reply o k st b s).bulk
@[simp] theorem endLong_img (o : U16) (k : Nat) (st : U16) (b : Bytes) (s : State) : (endLong o k st b s).img = s.img := (endLong_reply o k st b s).img
@[simp] theorem endLong_sup (o : U16) (k : Nat) (st : U16) (b : Bytes) (s : State) : (endLong o k st b s).sup = s.sup := (endLong_reply o k st b s).sup
@[simp] theorem endLong_gov (o : U16) (k : Nat) (st : U16) (b : Bytes) (s : State) : (endLong o k st b s).gov = s.gov := (endLong_reply o k st b s).gov
@[simp] theorem endLong_stag (o : U16) (k : Nat) (st : U16) (b : Bytes) (s : State) : (endLong o k st b s).stag = s.stag := (endLong_reply o k st b s).stag
@[simp] theorem endLong_insts (o : U16) (k : Nat) (st : U16) (b : Bytes) (s : State) : (endLong o k st b s).insts = s.insts := (endLong_reply o k st b s).insts
@[simp] theorem endLong_clk (o : U16) (k : Nat) (st : U16) (b : Bytes) (s : State) : (endLong o k st b s).clk = s.clk := (endLong_reply o k st b s).clk
@[simp] theorem endLong_sense (o : U16) (k : Nat) (st : U16) (b : Bytes) (s : State) : (endLong o k st b s).sense = s.sense := (endLong_reply o k st b s).sense
@[simp] theorem endLong_flt (o : U16) (k : Nat) (st : U16) (b : Bytes) (s : State) : (endLong o k st b s).flt = s.flt := (endLong_reply o k st b s).flt
@[simp] theorem endLong_pwm (o : U16) (k : Nat) (st : U16) (b : Bytes) (s : State) : (endLong o k st b s).pwm = s.pwm := (endLong_reply o k st b s).pwm
@[simp] theorem endLong_loop (o : U16) (k : Nat) (st : U16) (b : Bytes) (s : State) : (endLong o k st b s).loop = s.loop := (endLong_reply o k st b s).loop
@[simp] theorem endLong_safe (o : U16) (k : Nat) (st : U16) (b : Bytes) (s : State) : (endLong o k st b s).safe = s.safe := (endLong_reply o k st b s).safe
@[simp] theorem endLong_field (o : U16) (k : Nat) (st : U16) (b : Bytes) (s : State) : (endLong o k st b s).field = s.field := (endLong_reply o k st b s).field
@[simp] theorem endLong_fus (o : U16) (k : Nat) (st : U16) (b : Bytes) (s : State) : (endLong o k st b s).fus = s.fus := (endLong_reply o k st b s).fus
@[simp] theorem endLong_can (o : U16) (k : Nat) (st : U16) (b : Bytes) (s : State) : (endLong o k st b s).can = s.can := (endLong_reply o k st b s).can
@[simp] theorem endLong_sage (o : U16) (k : Nat) (st : U16) (b : Bytes) (s : State) : (endLong o k st b s).sage = s.sage := (endLong_reply o k st b s).sage
@[simp] theorem endLong_rel (o : U16) (k : Nat) (st : U16) (b : Bytes) (s : State) : (endLong o k st b s).rel = s.rel := (endLong_reply o k st b s).rel
@[simp] theorem endLong_free (o : U16) (k : Nat) (st : U16) (b : Bytes) (s : State) : (endLong o k st b s).free = s.free := (endLong_reply o k st b s).free
@[simp] theorem endLong_pending (o : U16) (k : Nat) (st : U16) (b : Bytes) (s : State) : (endLong o k st b s).pending = s.pending := (endLong_reply o k st b s).pending

@[simp] theorem closeSession_time (p : Nat) (q : U32) (k : Nat) (s : State) : (closeSession p q k s).time = s.time := (closeSession_reply p q k s).time
@[simp] theorem closeSession_bulk (p : Nat) (q : U32) (k : Nat) (s : State) : (closeSession p q k s).bulk = s.bulk := (closeSession_reply p q k s).bulk
@[simp] theorem closeSession_img (p : Nat) (q : U32) (k : Nat) (s : State) : (closeSession p q k s).img = s.img := (closeSession_reply p q k s).img
@[simp] theorem closeSession_sup (p : Nat) (q : U32) (k : Nat) (s : State) : (closeSession p q k s).sup = s.sup := (closeSession_reply p q k s).sup
@[simp] theorem closeSession_gov (p : Nat) (q : U32) (k : Nat) (s : State) : (closeSession p q k s).gov = s.gov := (closeSession_reply p q k s).gov
@[simp] theorem closeSession_stag (p : Nat) (q : U32) (k : Nat) (s : State) : (closeSession p q k s).stag = s.stag := (closeSession_reply p q k s).stag
@[simp] theorem closeSession_insts (p : Nat) (q : U32) (k : Nat) (s : State) : (closeSession p q k s).insts = s.insts := (closeSession_reply p q k s).insts
@[simp] theorem closeSession_clk (p : Nat) (q : U32) (k : Nat) (s : State) : (closeSession p q k s).clk = s.clk := (closeSession_reply p q k s).clk
@[simp] theorem closeSession_sense (p : Nat) (q : U32) (k : Nat) (s : State) : (closeSession p q k s).sense = s.sense := (closeSession_reply p q k s).sense
@[simp] theorem closeSession_flt (p : Nat) (q : U32) (k : Nat) (s : State) : (closeSession p q k s).flt = s.flt := (closeSession_reply p q k s).flt
@[simp] theorem closeSession_pwm (p : Nat) (q : U32) (k : Nat) (s : State) : (closeSession p q k s).pwm = s.pwm := (closeSession_reply p q k s).pwm
@[simp] theorem closeSession_loop (p : Nat) (q : U32) (k : Nat) (s : State) : (closeSession p q k s).loop = s.loop := (closeSession_reply p q k s).loop
@[simp] theorem closeSession_safe (p : Nat) (q : U32) (k : Nat) (s : State) : (closeSession p q k s).safe = s.safe := (closeSession_reply p q k s).safe
@[simp] theorem closeSession_field (p : Nat) (q : U32) (k : Nat) (s : State) : (closeSession p q k s).field = s.field := (closeSession_reply p q k s).field
@[simp] theorem closeSession_fus (p : Nat) (q : U32) (k : Nat) (s : State) : (closeSession p q k s).fus = s.fus := (closeSession_reply p q k s).fus
@[simp] theorem closeSession_can (p : Nat) (q : U32) (k : Nat) (s : State) : (closeSession p q k s).can = s.can := (closeSession_reply p q k s).can
@[simp] theorem closeSession_sage (p : Nat) (q : U32) (k : Nat) (s : State) : (closeSession p q k s).sage = s.sage := (closeSession_reply p q k s).sage
@[simp] theorem closeSession_rel (p : Nat) (q : U32) (k : Nat) (s : State) : (closeSession p q k s).rel = s.rel := (closeSession_reply p q k s).rel
@[simp] theorem closeSession_free (p : Nat) (q : U32) (k : Nat) (s : State) : (closeSession p q k s).free = s.free := (closeSession_reply p q k s).free
@[simp] theorem closeSession_pending (p : Nat) (q : U32) (k : Nat) (s : State) : (closeSession p q k s).pending = s.pending := (closeSession_reply p q k s).pending

@[simp] theorem dropRequest_time (s : State) (v : Transport) : (dropRequest s v).time = s.time := (dropRequest_reply s v).time
@[simp] theorem dropRequest_bulk (s : State) (v : Transport) : (dropRequest s v).bulk = s.bulk := (dropRequest_reply s v).bulk
@[simp] theorem dropRequest_img (s : State) (v : Transport) : (dropRequest s v).img = s.img := (dropRequest_reply s v).img
@[simp] theorem dropRequest_sup (s : State) (v : Transport) : (dropRequest s v).sup = s.sup := (dropRequest_reply s v).sup
@[simp] theorem dropRequest_gov (s : State) (v : Transport) : (dropRequest s v).gov = s.gov := (dropRequest_reply s v).gov
@[simp] theorem dropRequest_stag (s : State) (v : Transport) : (dropRequest s v).stag = s.stag := (dropRequest_reply s v).stag
@[simp] theorem dropRequest_insts (s : State) (v : Transport) : (dropRequest s v).insts = s.insts := (dropRequest_reply s v).insts
@[simp] theorem dropRequest_clk (s : State) (v : Transport) : (dropRequest s v).clk = s.clk := (dropRequest_reply s v).clk
@[simp] theorem dropRequest_sense (s : State) (v : Transport) : (dropRequest s v).sense = s.sense := (dropRequest_reply s v).sense
@[simp] theorem dropRequest_flt (s : State) (v : Transport) : (dropRequest s v).flt = s.flt := (dropRequest_reply s v).flt
@[simp] theorem dropRequest_pwm (s : State) (v : Transport) : (dropRequest s v).pwm = s.pwm := (dropRequest_reply s v).pwm
@[simp] theorem dropRequest_loop (s : State) (v : Transport) : (dropRequest s v).loop = s.loop := (dropRequest_reply s v).loop
@[simp] theorem dropRequest_safe (s : State) (v : Transport) : (dropRequest s v).safe = s.safe := (dropRequest_reply s v).safe
@[simp] theorem dropRequest_field (s : State) (v : Transport) : (dropRequest s v).field = s.field := (dropRequest_reply s v).field
@[simp] theorem dropRequest_fus (s : State) (v : Transport) : (dropRequest s v).fus = s.fus := (dropRequest_reply s v).fus
@[simp] theorem dropRequest_can (s : State) (v : Transport) : (dropRequest s v).can = s.can := (dropRequest_reply s v).can
@[simp] theorem dropRequest_sage (s : State) (v : Transport) : (dropRequest s v).sage = s.sage := (dropRequest_reply s v).sage
@[simp] theorem dropRequest_rel (s : State) (v : Transport) : (dropRequest s v).rel = s.rel := (dropRequest_reply s v).rel
@[simp] theorem dropRequest_free (s : State) (v : Transport) : (dropRequest s v).free = s.free := (dropRequest_reply s v).free
@[simp] theorem dropRequest_pending (s : State) (v : Transport) : (dropRequest s v).pending = s.pending := (dropRequest_reply s v).pending

@[simp] theorem ethSend_time (p : Nat) (d : U32) (b : Bytes) (s : State) : (ethSend p d b s).time = s.time := (ethSend_reply p d b s).time
@[simp] theorem ethSend_bulk (p : Nat) (d : U32) (b : Bytes) (s : State) : (ethSend p d b s).bulk = s.bulk := (ethSend_reply p d b s).bulk
@[simp] theorem ethSend_img (p : Nat) (d : U32) (b : Bytes) (s : State) : (ethSend p d b s).img = s.img := (ethSend_reply p d b s).img
@[simp] theorem ethSend_sup (p : Nat) (d : U32) (b : Bytes) (s : State) : (ethSend p d b s).sup = s.sup := (ethSend_reply p d b s).sup
@[simp] theorem ethSend_gov (p : Nat) (d : U32) (b : Bytes) (s : State) : (ethSend p d b s).gov = s.gov := (ethSend_reply p d b s).gov
@[simp] theorem ethSend_stag (p : Nat) (d : U32) (b : Bytes) (s : State) : (ethSend p d b s).stag = s.stag := (ethSend_reply p d b s).stag
@[simp] theorem ethSend_insts (p : Nat) (d : U32) (b : Bytes) (s : State) : (ethSend p d b s).insts = s.insts := (ethSend_reply p d b s).insts
@[simp] theorem ethSend_clk (p : Nat) (d : U32) (b : Bytes) (s : State) : (ethSend p d b s).clk = s.clk := (ethSend_reply p d b s).clk
@[simp] theorem ethSend_sense (p : Nat) (d : U32) (b : Bytes) (s : State) : (ethSend p d b s).sense = s.sense := (ethSend_reply p d b s).sense
@[simp] theorem ethSend_flt (p : Nat) (d : U32) (b : Bytes) (s : State) : (ethSend p d b s).flt = s.flt := (ethSend_reply p d b s).flt
@[simp] theorem ethSend_pwm (p : Nat) (d : U32) (b : Bytes) (s : State) : (ethSend p d b s).pwm = s.pwm := (ethSend_reply p d b s).pwm
@[simp] theorem ethSend_loop (p : Nat) (d : U32) (b : Bytes) (s : State) : (ethSend p d b s).loop = s.loop := (ethSend_reply p d b s).loop
@[simp] theorem ethSend_safe (p : Nat) (d : U32) (b : Bytes) (s : State) : (ethSend p d b s).safe = s.safe := (ethSend_reply p d b s).safe
@[simp] theorem ethSend_field (p : Nat) (d : U32) (b : Bytes) (s : State) : (ethSend p d b s).field = s.field := (ethSend_reply p d b s).field
@[simp] theorem ethSend_fus (p : Nat) (d : U32) (b : Bytes) (s : State) : (ethSend p d b s).fus = s.fus := (ethSend_reply p d b s).fus
@[simp] theorem ethSend_can (p : Nat) (d : U32) (b : Bytes) (s : State) : (ethSend p d b s).can = s.can := (ethSend_reply p d b s).can
@[simp] theorem ethSend_sage (p : Nat) (d : U32) (b : Bytes) (s : State) : (ethSend p d b s).sage = s.sage := (ethSend_reply p d b s).sage
@[simp] theorem ethSend_rel (p : Nat) (d : U32) (b : Bytes) (s : State) : (ethSend p d b s).rel = s.rel := (ethSend_reply p d b s).rel
@[simp] theorem ethSend_free (p : Nat) (d : U32) (b : Bytes) (s : State) : (ethSend p d b s).free = s.free := (ethSend_reply p d b s).free
@[simp] theorem ethSend_pending (p : Nat) (d : U32) (b : Bytes) (s : State) : (ethSend p d b s).pending = s.pending := (ethSend_reply p d b s).pending

@[simp] theorem dropRequest_sys (s : State) (v : Transport) : (dropRequest s v).sys = s.sys := by rw [dropRequest_change]
@[simp] theorem dropRequest_evt (s : State) (v : Transport) : (dropRequest s v).evt = s.evt := by rw [dropRequest_change]
@[simp] theorem dropRequest_eth (s : State) (v : Transport) : (dropRequest s v).eth = s.eth := by rw [dropRequest_change]
@[simp] theorem dropRequest_cap (s : State) (v : Transport) : (dropRequest s v).cap = s.cap := by rw [dropRequest_change]

/-! ### A request that is carried out -/

@[simp] theorem taken_time (s : State) (v : Transport) : (taken s v).time = s.time := dropRequest_time s v
@[simp] theorem taken_evt (s : State) (v : Transport) : (taken s v).evt = s.evt := dropRequest_evt s v
@[simp] theorem taken_bulk (s : State) (v : Transport) : (taken s v).bulk = s.bulk := dropRequest_bulk s v
@[simp] theorem taken_img (s : State) (v : Transport) : (taken s v).img = s.img := dropRequest_img s v
@[simp] theorem taken_sup (s : State) (v : Transport) : (taken s v).sup = s.sup := dropRequest_sup s v
@[simp] theorem taken_gov (s : State) (v : Transport) : (taken s v).gov = s.gov := dropRequest_gov s v
@[simp] theorem taken_stag (s : State) (v : Transport) : (taken s v).stag = s.stag := dropRequest_stag s v
@[simp] theorem taken_eth (s : State) (v : Transport) : (taken s v).eth = s.eth := dropRequest_eth s v
@[simp] theorem taken_insts (s : State) (v : Transport) : (taken s v).insts = s.insts := dropRequest_insts s v
@[simp] theorem taken_clk (s : State) (v : Transport) : (taken s v).clk = s.clk := dropRequest_clk s v
@[simp] theorem taken_sense (s : State) (v : Transport) : (taken s v).sense = s.sense := dropRequest_sense s v
@[simp] theorem taken_flt (s : State) (v : Transport) : (taken s v).flt = s.flt := dropRequest_flt s v
@[simp] theorem taken_pwm (s : State) (v : Transport) : (taken s v).pwm = s.pwm := dropRequest_pwm s v
@[simp] theorem taken_loop (s : State) (v : Transport) : (taken s v).loop = s.loop := dropRequest_loop s v
@[simp] theorem taken_safe (s : State) (v : Transport) : (taken s v).safe = s.safe := dropRequest_safe s v
@[simp] theorem taken_field (s : State) (v : Transport) : (taken s v).field = s.field := dropRequest_field s v
@[simp] theorem taken_cap (s : State) (v : Transport) : (taken s v).cap = s.cap := dropRequest_cap s v
@[simp] theorem taken_fus (s : State) (v : Transport) : (taken s v).fus = s.fus := dropRequest_fus s v
@[simp] theorem taken_can (s : State) (v : Transport) : (taken s v).can = s.can := dropRequest_can s v
@[simp] theorem taken_sage (s : State) (v : Transport) : (taken s v).sage = s.sage := dropRequest_sage s v
@[simp] theorem taken_rel (s : State) (v : Transport) : (taken s v).rel = s.rel := dropRequest_rel s v
@[simp] theorem taken_free (s : State) (v : Transport) : (taken s v).free = s.free := dropRequest_free s v
@[simp] theorem taken_pending (s : State) (v : Transport) : (taken s v).pending = s.pending := dropRequest_pending s v
@[simp] theorem taken_sys (s : State) (v : Transport) : (taken s v).sys = { s.sys with requests := s.sys.requests + 1 } := by simp [taken]

/-- Answering the refused packets whose turn has come changes nothing but what replies reach. -/
theorem flushRefused_reply (v : Transport) (n : Nat) (s : State) : ReplyOnly s (flushRefused v n s) := by
  induction n generalizing s with
  | zero => exact .refl s
  | succ n ih =>
    unfold flushRefused; split
    · exact .refl s
    · split
      · exact .refl s
      · exact ((dropRequest_reply ..).trans (replyTo_reply ..)).trans (ih _)

theorem flushTurn_reply (v : Transport) (s : State) : ReplyOnly s (flushTurn v s) := flushRefused_reply v _ s

@[simp] theorem flushTurn_time (v : Transport) (s : State) : (flushTurn v s).time = s.time := (flushTurn_reply v s).time
@[simp] theorem flushTurn_bulk (v : Transport) (s : State) : (flushTurn v s).bulk = s.bulk := (flushTurn_reply v s).bulk
@[simp] theorem flushTurn_img (v : Transport) (s : State) : (flushTurn v s).img = s.img := (flushTurn_reply v s).img
@[simp] theorem flushTurn_sup (v : Transport) (s : State) : (flushTurn v s).sup = s.sup := (flushTurn_reply v s).sup
@[simp] theorem flushTurn_gov (v : Transport) (s : State) : (flushTurn v s).gov = s.gov := (flushTurn_reply v s).gov
@[simp] theorem flushTurn_stag (v : Transport) (s : State) : (flushTurn v s).stag = s.stag := (flushTurn_reply v s).stag
@[simp] theorem flushTurn_insts (v : Transport) (s : State) : (flushTurn v s).insts = s.insts := (flushTurn_reply v s).insts
@[simp] theorem flushTurn_clk (v : Transport) (s : State) : (flushTurn v s).clk = s.clk := (flushTurn_reply v s).clk
@[simp] theorem flushTurn_sense (v : Transport) (s : State) : (flushTurn v s).sense = s.sense := (flushTurn_reply v s).sense
@[simp] theorem flushTurn_flt (v : Transport) (s : State) : (flushTurn v s).flt = s.flt := (flushTurn_reply v s).flt
@[simp] theorem flushTurn_pwm (v : Transport) (s : State) : (flushTurn v s).pwm = s.pwm := (flushTurn_reply v s).pwm
@[simp] theorem flushTurn_loop (v : Transport) (s : State) : (flushTurn v s).loop = s.loop := (flushTurn_reply v s).loop
@[simp] theorem flushTurn_safe (v : Transport) (s : State) : (flushTurn v s).safe = s.safe := (flushTurn_reply v s).safe
@[simp] theorem flushTurn_field (v : Transport) (s : State) : (flushTurn v s).field = s.field := (flushTurn_reply v s).field
@[simp] theorem flushTurn_fus (v : Transport) (s : State) : (flushTurn v s).fus = s.fus := (flushTurn_reply v s).fus
@[simp] theorem flushTurn_can (v : Transport) (s : State) : (flushTurn v s).can = s.can := (flushTurn_reply v s).can
@[simp] theorem flushTurn_sage (v : Transport) (s : State) : (flushTurn v s).sage = s.sage := (flushTurn_reply v s).sage
@[simp] theorem flushTurn_rel (v : Transport) (s : State) : (flushTurn v s).rel = s.rel := (flushTurn_reply v s).rel
@[simp] theorem flushTurn_free (v : Transport) (s : State) : (flushTurn v s).free = s.free := (flushTurn_reply v s).free
@[simp] theorem flushTurn_pending (v : Transport) (s : State) : (flushTurn v s).pending = s.pending := (flushTurn_reply v s).pending

/-- With no refused packet at the front of the transport, nothing is answered. -/
theorem flushTurn_idle {v : Transport} {s : State} (h : ∀ r, nextRequest s v = some r → r.refusal = none) : flushTurn v s = s := by
  unfold flushTurn
  cases s.cmd.requests.length + s.udp.queue.length with
  | zero => rfl
  | succ n =>
    unfold flushRefused; split
    · rfl
    · rename_i r hr; rw [h r hr]

/-! ### Cards -/

/-- A request that a header check of R55 refuses: it leaves its queue and is answered with the error. -/
theorem runCard_refused {mine : Req → Bool} {card : Card} {via : Transport} {s : State} {r : Req} {st : U16}
    (hr : nextRequest s via = some r) (hm : mine r = true) (hh : headerCheck (dropRequest s via) r = some st) :
    runCard mine card via s = flushTurn r.via (replyTo r st [] (dropRequest s via)) := by
  simp [runCard, carryOut, hr, hm, hh]

/-- A request that passes the header checks and belongs to the card: the answer to what the card makes of it. A
rejection leaves the state in which it stood before it was counted. -/
theorem runCard_takes {mine : Req → Bool} {card : Card} {via : Transport} {s : State} {r : Req} {op : U16}
    (h : Takes op via s r) (hm : mine r = true)
    (hl : card.lifecycle (dropRequest s via) r = true) (ha : card.allowed s.sys.dev = true) :
    runCard mine card via s = flushTurn r.via (answer r (dropRequest s via) (card.run (taken s via) r)) := by
  obtain ⟨hr, -, hh⟩ := h
  simp only [runCard, carryOut, hr, hm, hh, hl, dropRequest_sys, ha, taken]
  simp only [Bool.not_true, Bool.false_eq_true, if_false]
  split <;> simp_all

/-- A card that is carried out with OK. -/
theorem runCard_done {mine : Req → Bool} {card : Card} {via : Transport} {s t : State} {r : Req} {op : U16} {pl : Bytes}
    (h : Takes op via s r) (hm : mine r = true) (hl : card.lifecycle (dropRequest s via) r = true) (ha : card.allowed s.sys.dev = true)
    (hr : card.run (taken s via) r = .done t pl) : runCard mine card via s = flushTurn r.via (replyTo r OK pl t) := by
  rw [runCard_takes h hm hl ha, hr]; rfl

/-- A card that begins a long operation. -/
theorem runCard_long {mine : Req → Bool} {card : Card} {via : Transport} {s t : State} {r : Req} {op : U16} {k : Nat} {pl : Bytes}
    (h : Takes op via s r) (hm : mine r = true) (hl : card.lifecycle (dropRequest s via) r = true) (ha : card.allowed s.sys.dev = true)
    (hr : card.run (taken s via) r = .long t k pl) :
    runCard mine card via s =
      flushTurn r.via (replyTo r ACCEPTED pl { t with sys := { t.sys with longs := t.sys.longs ++ [{ owed := owedOf r, key := k, result := none }] } }) := by
  rw [runCard_takes h hm hl ha, hr]; rfl

/-- A card whose operation ends in an error. -/
theorem runCard_failed {mine : Req → Bool} {card : Card} {via : Transport} {s t : State} {r : Req} {op st : U16} {pl : Bytes}
    (h : Takes op via s r) (hm : mine r = true) (hl : card.lifecycle (dropRequest s via) r = true) (ha : card.allowed s.sys.dev = true)
    (hr : card.run (taken s via) r = .failed t st pl) : runCard mine card via s = flushTurn r.via (replyTo r st pl t) := by
  rw [runCard_takes h hm hl ha, hr]; rfl

/-- A card that rejects: the request is answered and no part of it carried out (R55). -/
theorem runCard_reject {mine : Req → Bool} {card : Card} {via : Transport} {s : State} {r : Req} {op st : U16} {pl : Bytes}
    (h : Takes op via s r) (hm : mine r = true) (hl : card.lifecycle (dropRequest s via) r = true) (ha : card.allowed s.sys.dev = true)
    (hr : card.run (taken s via) r = .reject st pl) : runCard mine card via s = flushTurn r.via (replyTo r st pl (dropRequest s via)) := by
  rw [runCard_takes h hm hl ha, hr]; rfl

theorem isOp_takes {op : U16} {via : Transport} {s : State} {r : Req} (h : Takes op via s r) : isOp op r = true := by
  simp [isOp, h.2.1]

/-- A request of another row, or none at all, is not taken. -/
theorem runCard_other {mine : Req → Bool} {card : Card} {via : Transport} {s : State}
    (h : ∀ r, nextRequest s via = some r → mine r = false) : runCard mine card via s = s := by
  unfold runCard
  split
  · rfl
  · rename_i r hr; simp [h r hr]

end Sys2Proof.Laws
end

