-- ==== Sys2Proof/Laws/Keeps.lean ====
section
/-! SUPPORT. What every operation of the model keeps: the queue of commands, the fixed numbers of resources, the canonical
form of every memory, and the fuses of the OTP that are set. -/

namespace Sys2Proof

open Sys2Proof.Machine

def fltOk (x : Filter) : Prop := fltSized x ∧ memWf x.mem = true
def loopOk (x : Loop) : Prop := loopSized x ∧ memWf x.mem = true
def capOk (x : Capture) : Prop := capSized x ∧ memWf x.mem = true
def canOk (x : Can) : Prop := x.ports.length = 6 ∧ memWf x.mem = true
def imgOk (x : Image) : Prop := memWf x.host = true ∧ memWf x.latched = true ∧ ∀ b, x.back = some b → memWf b = true
def relOk (x : Rel) : Prop := relSized x ∧ memWf x.otp = true

/-- No fuse that one OTP has set is clear in the other. -/
def fusesIn (a b : List Host.Cell) : Prop := ∀ k, memRead a k &&& ~~~(memRead b k) = 0

/-- From one state to another the queue stays; and if every list of resources has its length and every memory is in its
form, that is so afterwards too, and no fuse is cleared. -/
def Keeps (s t : State) : Prop := t.pending = s.pending ∧ (Sized s ∧ MemoriesOk s → (Sized t ∧ MemoriesOk t) ∧ FusesKept s t)

theorem fusesIn_refl (a : List Host.Cell) : fusesIn a a := fun _ => by simp
theorem fusesIn_trans {a b c : List Host.Cell} (h : fusesIn a b) (k : fusesIn b c) : fusesIn a c := by
  intro i
  have h := h i
  have k := k i
  generalize memRead a i = x at *; generalize memRead b i = y at *; generalize memRead c i = z at *
  apply BitVec.eq_of_getLsbD_eq
  intro j hj
  have h := congrArg (fun v => v.getLsbD j) h
  have k := congrArg (fun v => v.getLsbD j) k
  simp [hj] at h k ⊢
  intro hx
  exact k (h hx)

theorem Keeps.refl (s : State) : Keeps s s := ⟨rfl, fun h => ⟨h, fusesIn_refl _⟩⟩
theorem Keeps.trans {a b c : State} (h : Keeps a b) (k : Keeps b c) : Keeps a c :=
  ⟨k.1.trans h.1, fun x => let y := h.2 x; let z := k.2 y.1; ⟨z.1, fusesIn_trans y.2 z.2⟩⟩

/-- A change of a state's fields that keeps each of them keeps the whole. -/
theorem Keeps.upd {s0 X : State} (h : Keeps s0 X) {time sys cmd udp evt bulk img sup gov stag eth insts clk sense flt pwm loop safe field cap fus can sage rel free}
    (h1 : timeSized X.time → timeSized time := by exact id) (h2 : X.eth.length = 2 → List.length eth = 2 := by exact id) (h3 : X.insts.length = 3 → List.length insts = 3 := by exact id)
    (h4 : clkSized X.clk → clkSized clk := by exact id) (h5 : senseSized X.sense → senseSized sense := by exact id) (h6 : fltOk X.flt → fltOk flt := by exact id)
    (h7 : pwmSized X.pwm → pwmSized pwm := by exact id) (h8 : loopOk X.loop → loopOk loop := by exact id) (h9 : safeSized X.safe → safeSized safe := by exact id)
    (h10 : fieldSized X.field → fieldSized field := by exact id) (h11 : capOk X.cap → capOk cap := by exact id) (h12 : X.fus.length = 2 → List.length fus = 2 := by exact id)
    (h13 : canOk X.can → canOk can := by exact id) (h14 : sageSized X.sage → sageSized sage := by exact id) (h15 : relOk X.rel → relOk rel := by exact id)
    (h16 : relOk X.rel → fusesIn X.rel.otp rel.otp := by exact fun _ => fusesIn_refl _) (h17 : imgOk X.img → imgOk img := by exact id) :
    Keeps s0 (State.mk time sys cmd udp evt bulk img sup gov stag eth insts clk sense flt pwm loop safe field cap fus can sage rel free X.pending) := by
  refine Keeps.trans h ⟨rfl, fun x => ?_⟩
  obtain ⟨⟨a1, a2, a3, a4, a5, a6, a7, a8, a9, a10, a11, a12, a13, a14, a15⟩, m1, m2, m3, m4, m5, m6, m7, m8⟩ := x
  have f := h6 ⟨a6, m2⟩
  have l := h8 ⟨a8, m1⟩
  have c := h11 ⟨a11, m3⟩
  have n := h13 ⟨a13, m4⟩
  have r := h15 ⟨a15, m5⟩
  have i := h17 ⟨m6, m7, m8⟩
  exact ⟨⟨⟨h1 a1, h2 a2, h3 a3, h4 a4, h5 a5, f.1, h7 a7, l.1, h9 a9, h10 a10, c.1, h12 a12, n.1, h14 a14, r.1⟩, l.2, f.2, c.2, n.2, r.2, i.1, i.2.1, i.2.2⟩, h16 ⟨a15, m5⟩⟩

theorem keeps_ite {z : State} {c : Prop} [Decidable c] {s t : State} (h : c → Keeps z s) (k : ¬ c → Keeps z t) : Keeps z (if c then s else t) := by
  split
  · exact h ‹_›
  · exact k ‹_›
theorem fusesIn_writeBytes {m : List Host.Cell} {a : Nat} {b : Bytes} (h : memWf m = true) (hb : ∀ i, i < b.length → memRead m (a + i) &&& ~~~(b.getD i 0) = 0) : fusesIn m (memWriteBytes m a b) := by
  intro k
  rw [Laws.memRead_memWriteBytes b m a k h]
  split
  · have := hb (k - a) (by omega)
    rwa [show a + (k - a) = k by omega] at this
  · simp
theorem byte_or (x y : Byte) : x &&& ~~~(y ||| x) = 0 := by
  apply BitVec.eq_of_getLsbD_eq
  intro i hi
  simp [hi]
  intro h1 h2
  exact h1
theorem keeps_forEach {s0 : State} (l : List Nat) (f : Nat → State → State) (s : State) (h : Keeps s0 s) (hf : ∀ i s, Keeps s0 s → Keeps s0 (f i s)) : Keeps s0 (forEach l f s) := by
  unfold forEach
  induction l generalizing s with
  | nil => exact h
  | cons a t ih => exact ih _ (hf a s h)
theorem keeps_foldl {s0 : State} {β : Type} (l : List β) (f : State → β → State) (s : State) (h : Keeps s0 s) (hf : ∀ s b, Keeps s0 s → Keeps s0 (f s b)) : Keeps s0 (l.foldl f s) := by
  induction l generalizing s with
  | nil => exact h
  | cons a t ih => exact ih _ (hf s a h)
theorem keeps_foldl_fst {s0 : State} {β γ : Type} (l : List β) (f : State × γ → β → State × γ) (a : State × γ) (h : Keeps s0 a.1) (hf : ∀ a b, Keeps s0 a.1 → Keeps s0 (f a b).1) : Keeps s0 (l.foldl f a).1 := by
  induction l generalizing a with
  | nil => exact h
  | cons b t ih => exact ih _ (hf a b h)
theorem keeps_foldl_snd {s0 : State} {β γ : Type} (l : List β) (f : γ × State → β → γ × State) (a : γ × State) (h : Keeps s0 a.2) (hf : ∀ a b, Keeps s0 a.2 → Keeps s0 (f a b).2) : Keeps s0 (l.foldl f a).2 := by
  induction l generalizing a with
  | nil => exact h
  | cons b t ih => exact ih _ (hf a b h)

/-- What a card answers keeps the state it was given. -/
def KeepsCard (s0 : State) : CardResult → Prop
  | .reject _ _ => True
  | .done t _ => Keeps s0 t
  | .failed t _ _ => Keeps s0 t
  | .long t _ _ => Keeps s0 t
  | .deferred t _ => Keeps s0 t
  | .doneThen t _ f => Keeps s0 t ∧ ∀ u, Keeps s0 u → Keeps s0 (f u)
  | .later t => Keeps s0 t

/-- What a command answers keeps the state: of a next state. -/
def KeepsNext (s0 : State) (o : Host.Outcome State Fault Refusal) : Prop := ∀ t, o = .next t → Keeps s0 t

theorem kc_reject (z : State) (a : U16) (b : Bytes) : KeepsCard z (.reject a b) := trivial
theorem kc_rejectWith (z : State) (a : U16) : KeepsCard z (rejectWith a) := trivial
theorem kc_shutting (z : State) (n : Nat) : KeepsCard z (shuttingDown n) := trivial
theorem kc_done {z t : State} {p : Bytes} (h : Keeps z t) : KeepsCard z (.done t p) := h
theorem kc_failed {z t : State} {a : U16} {p : Bytes} (h : Keeps z t) : KeepsCard z (.failed t a p) := h
theorem kc_long {z t : State} {k : Nat} {p : Bytes} (h : Keeps z t) : KeepsCard z (.long t k p) := h
theorem kc_deferred {z t : State} {k : Nat} (h : Keeps z t) : KeepsCard z (.deferred t k) := h
theorem kc_later {z t : State} (h : Keeps z t) : KeepsCard z (.later t) := h
theorem kc_doneThen {z t : State} (p : Bytes) {f : State → State} (h : Keeps z t) (k : ∀ u, Keeps z u → Keeps z (f u)) : KeepsCard z (.doneThen t p f) := ⟨h, k⟩
theorem kc_ite {z : State} {c : Prop} [Decidable c] {s t : CardResult} (h : c → KeepsCard z s) (k : ¬ c → KeepsCard z t) : KeepsCard z (if c then s else t) := by
  split
  · exact h ‹_›
  · exact k ‹_›
theorem kn_ite {z : State} {c : Prop} [Decidable c] {s t : Host.Outcome State Fault Refusal} (h : c → KeepsNext z s) (k : ¬ c → KeepsNext z t) : KeepsNext z (if c then s else t) := by
  split
  · exact h ‹_›
  · exact k ‹_›
theorem kn_next {z t : State} (h : Keeps z t) : KeepsNext z (.next t) := by intro u hu; cases hu; exact h
theorem kn_refused {z : State} (r : Refusal) : KeepsNext z (.refused r) := by intro u hu; cases hu
theorem kn_fault {z : State} (f : Fault) : KeepsNext z (.fault f) := by intro u hu; cases hu

theorem upd_length {α : Type} (l : List α) (n : Nat) (f : α → α) : (upd l n f).length = l.length := by unfold upd; simp
theorem upd_getElem {α : Type} (l : List α) (n j : Nat) (f : α → α) (h : j < (upd l n f).length) (h' : j < l.length) : (upd l n f)[j] = if n = j then f l[j] else l[j] :=
  List.getElem_modify f n l j h

end Sys2Proof
end

