-- ==== Sys2Proof/Laws/KeepsShared.lean ====
section
/-! SUPPORT. What the shared operations, the command port, time and Ethernet keep, one lemma an operation: the
queue, the numbers of resources, the form of the memories and the fuses. -/

namespace Sys2Proof

set_option linter.all false
set_option Elab.async false

open Sys2Proof.Machine
open Sys2Proof.Laws

/-! ### OpsBase.lean -/

theorem keeps_draw {z : State} (s : State) (h : Keeps z s) : Keeps z (draw s).2 := by
  unfold draw
  try dsimp only
  repeat' (first | with_reducible assumption | fail_if_no_progress (with_reducible refine Keeps.upd ?_))
theorem keeps_draw_eq {z : State} {s : State} {xx : U32} {tt : State} (hee : draw s = (xx, tt)) (h : Keeps z s) : Keeps z tt := by
  have := keeps_draw s h
  rw [hee] at this; exact this

theorem keeps_drawBytes {z : State} (n : Nat) : ∀ s : State, Keeps z s → Keeps z (drawBytes n s).2 := by
  induction n with
  | zero => intro s h; exact h
  | succ n ih => intro s h; exact ih _ (keeps_draw s h)
theorem keeps_drawBytes_eq {z : State} {n : Nat} {s : State} {x : Bytes} {t : State} (e : drawBytes n s = (x, t)) (h : Keeps z s) : Keeps z t := by
  have := keeps_drawBytes n s h
  rw [e] at this; exact this

theorem keeps_advanceTo {z : State} (t : Nat) (s : State) (h : Keeps z s) : Keeps z (advanceTo t s) := by
  unfold advanceTo
  try dsimp only
  repeat' (first
      | with_reducible assumption
      | fail_if_no_progress (with_reducible refine Keeps.upd ?_ (h1 := fun hh => by simpa [timeSized, upd_length, List.length_map, List.length_mapIdx] using hh)))

theorem keeps_logEvent {z : State} (code : U16) (source : Nat) (data : Bytes) (s : State) (h : Keeps z s) : Keeps z (logEvent code source data s) := by
  unfold logEvent
  try dsimp only
  repeat' (first
      | with_reducible assumption | fail_if_no_progress (with_reducible refine Keeps.upd ?_ (h1 := fun hh => hh)) | with_reducible apply keeps_ite | split
      | intro _)

/-! ### OpsCap.lean -/

theorem keeps_updCap {z : State} (f : Capture → Capture) (s : State) (h : Keeps z s) (hf : ∀ c, capOk c → capOk (f c)) : Keeps z (updCap f s) := by
  unfold updCap
  exact Keeps.upd h (h11 := hf _)

theorem keeps_blockWritten {z : State} (s : State) (h : Keeps z s) : Keeps z (blockWritten s) := by
  unfold blockWritten
  try dsimp only
  repeat' (first
      | with_reducible assumption
      | fail_if_no_progress (with_reducible refine Keeps.upd ?_) | with_reducible apply keeps_updCap
      | (show capOk _; (repeat' split) <;> simp_all [capOk, capSized, upd_length, memWrite_wf, memWriteBytes_wf, memClear_wf]) | split | intro _ | with_reducible apply keeps_ite)

theorem keeps_setFactor {z : State} (f : Nat) (s : State) (h : Keeps z s) : Keeps z (setFactor f s) := by
  unfold setFactor
  try dsimp only
  repeat' (first
      | with_reducible assumption | with_reducible apply keeps_updCap | with_reducible apply keeps_logEvent
      | (show capOk _; (repeat' split) <;> simp_all [capOk, capSized, upd_length, memWrite_wf, memWriteBytes_wf, memClear_wf])
      | fail_if_no_progress (with_reducible refine Keeps.upd ?_) | split | intro _ | with_reducible apply keeps_ite)

theorem keeps_followFill {z : State} (s : State) (h : Keeps z s) : Keeps z (followFill s) := by
  unfold followFill
  try dsimp only
  repeat' (first
      | with_reducible assumption
      | fail_if_no_progress (with_reducible refine Keeps.upd ?_) | with_reducible apply keeps_setFactor | with_reducible apply keeps_updCap
      | (show capOk _; (repeat' split) <;> simp_all [capOk, capSized, upd_length, memWrite_wf, memWriteBytes_wf, memClear_wf]) | with_reducible apply keeps_ite
      | split | intro _)

theorem keeps_closeBlock {z : State} (flags : Nat) (s : State) (h : Keeps z s) : Keeps z (closeBlock flags s) := by
  unfold closeBlock
  try dsimp only
  repeat' (first
      | with_reducible assumption | with_reducible apply keeps_updCap | with_reducible apply keeps_followFill | with_reducible apply keeps_blockWritten
      | (show capOk _; (repeat' split) <;> simp_all [capOk, capSized, upd_length, memWrite_wf, memWriteBytes_wf, memClear_wf]) | split | intro _)

theorem keeps_capEnd {z : State} (st : CapState) (reason : Nat) (s : State) (h : Keeps z s) : Keeps z (capEnd st reason s) := by
  unfold capEnd
  try dsimp only
  repeat' (first
      | with_reducible assumption
      | fail_if_no_progress (with_reducible refine Keeps.upd ?_) | with_reducible apply keeps_updCap | with_reducible apply keeps_logEvent
      | (show capOk _; (repeat' split) <;> simp_all [capOk, capSized, upd_length, memWrite_wf, memWriteBytes_wf, memClear_wf]) | intro _ | with_reducible apply keeps_ite)

theorem keeps_rewriteBlock {z : State} (seq : U32) (f : Bytes → Bytes) (s : State) (h : Keeps z s) : Keeps z (rewriteBlock seq f s) := by
  unfold rewriteBlock
  try dsimp only
  repeat' (first
      | with_reducible assumption | with_reducible apply keeps_updCap | fail_if_no_progress (with_reducible refine Keeps.upd ?_)
      | (show capOk _; (repeat' split) <;> simp_all [capOk, capSized, upd_length, memWrite_wf, memWriteBytes_wf, memClear_wf]) | with_reducible apply keeps_ite
      | split | intro _)

theorem keeps_markLast {z : State} (flags : Nat) (tr : Option CapTrig) (s : State) (h : Keeps z s) : Keeps z (markLast flags tr s) := by
  unfold markLast
  try dsimp only
  repeat' (first
      | with_reducible assumption | with_reducible apply keeps_updCap | with_reducible apply keeps_rewriteBlock
      | fail_if_no_progress (with_reducible refine Keeps.upd ?_)
      | (show capOk _; (repeat' split) <;> simp_all [capOk, capSized, upd_length, memWrite_wf, memWriteBytes_wf, memClear_wf]) | with_reducible apply keeps_ite
      | split | intro _)

theorem keeps_capDone {z : State} (flags reason : Nat) (s : State) (h : Keeps z s) : Keeps z (capDone flags reason s) := by
  unfold capDone
  try dsimp only
  repeat' (first
      | with_reducible assumption
      | with_reducible apply keeps_markLast
      | fail_if_no_progress (with_reducible refine Keeps.upd ?_) | with_reducible apply keeps_updCap | with_reducible apply keeps_closeBlock
      | with_reducible apply keeps_capEnd
      | (show capOk _; (repeat' split) <;> simp_all [capOk, capSized, upd_length, memWrite_wf, memWriteBytes_wf, memClear_wf]) | with_reducible apply keeps_ite
      | split | intro _ | with_reducible apply keeps_rewriteBlock)

theorem keeps_driveLines {z : State} (mask : Byte) (s : State) (h : Keeps z s) : Keeps z (driveLines mask s) := by
  unfold driveLines
  try dsimp only
  repeat' (first
      | with_reducible assumption
      | fail_if_no_progress (with_reducible refine Keeps.upd ?_) | with_reducible apply keeps_updCap
      | (show capOk _; (repeat' split) <;> simp_all [capOk, capSized, upd_length, memWrite_wf, memWriteBytes_wf, memClear_wf]) | intro _ | with_reducible apply keeps_ite)

theorem keeps_placeTrig {z : State} (t : CapTrig) (s : State) (h : Keeps z s) : Keeps z (placeTrig t s) := by
  unfold placeTrig
  try dsimp only
  repeat' (first
      | with_reducible assumption | with_reducible apply keeps_updCap | with_reducible apply keeps_rewriteBlock | with_reducible apply keeps_post
      | fail_if_no_progress (with_reducible refine Keeps.upd ?_)
      | (show capOk _; (repeat' split) <;> simp_all [capOk, capSized, upd_length, memWrite_wf, memWriteBytes_wf, memClear_wf]) | with_reducible apply keeps_ite
      | split | intro _)

theorem keeps_capRowsEnd {z : State} (s : State) (h : Keeps z s) : Keeps z (capRowsEnd s) := by
  unfold capRowsEnd
  try dsimp only
  repeat' (first | with_reducible assumption | with_reducible apply keeps_capDone | with_reducible apply keeps_ite | intro _)

theorem keeps_capNote {z : State} (t : CapTrig) (s : State) (h : Keeps z s) : Keeps z (capNote t s) := by
  unfold capNote
  try dsimp only
  repeat' (first
      | with_reducible assumption | with_reducible apply keeps_updCap
      | fail_if_no_progress (with_reducible refine Keeps.upd ?_)
      | (show capOk _; (repeat' split) <;> simp_all [capOk, capSized, upd_length, memWrite_wf, memWriteBytes_wf, memClear_wf]) | with_reducible apply keeps_ite
      | split | intro _)

theorem keeps_capPlace {z : State} (t : CapTrig) (s : State) (h : Keeps z s) : Keeps z (capPlace t s) := by
  unfold capPlace
  try dsimp only
  repeat' (first
      | with_reducible assumption | with_reducible apply keeps_placeTrig | with_reducible apply keeps_capDone | with_reducible apply keeps_capRowsEnd | with_reducible apply keeps_closeBlock | with_reducible apply keeps_updCap
      | fail_if_no_progress (with_reducible refine Keeps.upd ?_)
      | (show capOk _; (repeat' split) <;> simp_all [capOk, capSized, upd_length, memWrite_wf, memWriteBytes_wf, memClear_wf]) | with_reducible apply keeps_ite
      | split | intro _)

theorem keeps_capTake {z : State} (t : CapTrig) (k : Nat) (s : State) (h : Keeps z s) : Keeps z (capTake t k s) := by
  unfold capTake
  try dsimp only
  repeat' (first
      | with_reducible assumption | with_reducible apply keeps_capPlace | with_reducible apply keeps_logEvent | with_reducible apply keeps_capNote | with_reducible apply keeps_updCap
      | fail_if_no_progress (with_reducible refine Keeps.upd ?_)
      | (show capOk _; (repeat' split) <;> simp_all [capOk, capSized, upd_length, memWrite_wf, memWriteBytes_wf, memClear_wf]) | with_reducible apply keeps_ite
      | split | intro _)

theorem keeps_capReplace {z : State} (t : CapTrig) (s : State) (h : Keeps z s) : Keeps z (capReplace t s) := by
  unfold capReplace
  try dsimp only
  repeat' (first
      | with_reducible assumption | with_reducible apply keeps_capPlace | with_reducible apply keeps_capNote
      | fail_if_no_progress (with_reducible refine Keeps.upd ?_)
      | (show capOk _; (repeat' split) <;> simp_all [capOk, capSized, upd_length, memWrite_wf, memWriteBytes_wf, memClear_wf]) | with_reducible apply keeps_ite
      | split | intro _)

theorem keeps_dropEdges {z : State} (s : State) (h : Keeps z s) : Keeps z (dropEdges s) := by
  unfold dropEdges
  try dsimp only
  repeat' (first
      | with_reducible assumption | with_reducible apply keeps_updCap
      | fail_if_no_progress (with_reducible refine Keeps.upd ?_)
      | (show capOk _; (repeat' split) <;> simp_all [capOk, capSized, upd_length, memWrite_wf, memWriteBytes_wf, memClear_wf]) | with_reducible apply keeps_ite
      | split | intro _)

theorem keeps_takeEdge {z : State} (l q e : Nat) (s : State) (h : Keeps z s) : Keeps z (takeEdge l q e s) := by
  unfold takeEdge
  try dsimp only
  repeat' (first
      | with_reducible assumption | with_reducible apply keeps_dropEdges | with_reducible apply keeps_updCap
      | fail_if_no_progress (with_reducible refine Keeps.upd ?_)
      | (show capOk _; (repeat' split) <;> simp_all [capOk, capSized, upd_length, memWrite_wf, memWriteBytes_wf, memClear_wf]) | with_reducible apply keeps_ite
      | split | intro _)

theorem keeps_capFire {z : State} (t : CapTrig) (s : State) (h : Keeps z s) : Keeps z (capFire t s) := by
  unfold capFire
  try dsimp only
  repeat' (first
      | with_reducible assumption | with_reducible apply keeps_takeEdge | with_reducible apply keeps_capReplace | with_reducible apply keeps_capTake | with_reducible apply keeps_dropEdges | with_reducible apply keeps_driveLines
      | fail_if_no_progress (with_reducible refine Keeps.upd ?_)
      | (show capOk _; (repeat' split) <;> simp_all [capOk, capSized, upd_length, memWrite_wf, memWriteBytes_wf, memClear_wf]) | with_reducible apply keeps_ite
      | split | intro _)

theorem keeps_capEvent {z : State} (code : U16) (source : Nat) (data : Bytes) (s : State) (h : Keeps z s) : Keeps z (capEvent code source data s) := by
  unfold capEvent
  try dsimp only
  repeat' (first | with_reducible assumption | with_reducible apply keeps_capFire | with_reducible apply keeps_ite | split | intro _)

theorem keeps_capShutdown {z : State} (reason : Nat) (s : State) (h : Keeps z s) : Keeps z (capShutdown reason s) := by
  unfold capShutdown
  try dsimp only
  repeat' (first
      | with_reducible assumption
      | fail_if_no_progress (with_reducible refine Keeps.upd ?_) | with_reducible apply keeps_updCap
      | (show capOk _; (repeat' split) <;> simp_all [capOk, capSized, upd_length, memWrite_wf, memWriteBytes_wf, memClear_wf]) | with_reducible apply keeps_ite
      | intro _)

theorem keeps_capSessionClosed {z : State} (port : Nat) (sid : U32) (s : State) (h : Keeps z s) : Keeps z (capSessionClosed port sid s) := by
  unfold capSessionClosed
  try dsimp only
  repeat' (first | with_reducible assumption | with_reducible apply keeps_capShutdown | with_reducible apply keeps_ite | intro _)

theorem keeps_capWrite {z : State} (stage : Nat) (frame : U32) (node first : Nat) (vals : List U32) (s : State) (h : Keeps z s) : Keeps z (capWrite stage frame node first vals s) := by
  unfold capWrite
  try dsimp only
  repeat' (first
      | with_reducible assumption
      | fail_if_no_progress (with_reducible refine Keeps.upd ?_) | with_reducible apply keeps_updCap
      | (show capOk _; (repeat' split) <;> simp_all [capOk, capSized, upd_length, memWrite_wf, memWriteBytes_wf, memClear_wf]) | with_reducible apply keeps_ite
      | intro _)

theorem keeps_capCommit {z : State} (stage : Nat) (frame : U32) (reload : Nat) (s : State) (h : Keeps z s) : Keeps z (capCommit stage frame reload s) := by
  unfold capCommit
  try dsimp only
  repeat' (first
      | with_reducible assumption
      | fail_if_no_progress (with_reducible refine Keeps.upd ?_) | with_reducible apply keeps_updCap
      | (show capOk _; (repeat' split) <;> simp_all [capOk, capSized, upd_length, memWrite_wf, memWriteBytes_wf, memClear_wf]) | with_reducible apply keeps_ite
      | intro _)

theorem keeps_capDead {z : State} (rising : Bool) (ns : Nat) (s : State) (h : Keeps z s) : Keeps z (capDead rising ns s) := by
  unfold capDead
  try dsimp only
  repeat' (first
      | with_reducible assumption | with_reducible apply keeps_updCap
      | (show capOk _; (repeat' split) <;> simp_all [capOk, capSized, upd_length, memWrite_wf, memWriteBytes_wf, memClear_wf]) | split | intro _)

/-! ### Ops.lean -/

theorem keeps_post {z : State} (code : U16) (source : Nat) (data : Bytes) (s : State) (h : Keeps z s) : Keeps z (post code source data s) := by
  unfold post
  try dsimp only
  repeat' (first | with_reducible assumption | with_reducible apply keeps_capEvent | with_reducible apply keeps_logEvent)

theorem keeps_postMergeWith {z : State} (code : U16) (source : Nat) (data : Bytes) (same : LogEntry → Bool) (comb : Bytes → Bytes → Bytes) (s : State) (h : Keeps z s) : Keeps z (postMergeWith code source data same comb s) := by
  unfold postMergeWith
  try dsimp only
  repeat' (first
      | with_reducible assumption | with_reducible apply keeps_capEvent | with_reducible apply keeps_post
      | fail_if_no_progress (with_reducible refine Keeps.upd ?_) | split)

theorem keeps_postMerge {z : State} (code : U16) (source : Nat) (data : Bytes) (s : State) (h : Keeps z s) : Keeps z (postMerge code source data s) := by
  unfold postMerge
  try dsimp only
  repeat' (first | with_reducible assumption | with_reducible apply keeps_postMergeWith)

theorem keeps_setDev {z : State} (d : DevState) (opcode : Nat) (s : State) (h : Keeps z s) : Keeps z (setDev d opcode s) := by
  unfold setDev
  try dsimp only
  repeat' (first
      | with_reducible assumption | with_reducible apply keeps_post | fail_if_no_progress (with_reducible refine Keeps.upd ?_) | with_reducible apply keeps_ite
      | intro _)

theorem keeps_updSession {z : State} (port : Nat) (sid : U32) (f : Session → Session) (s : State) (h : Keeps z s) : Keeps z (updSession port sid f s) := by
  unfold updSession
  try dsimp only
  repeat' (first | with_reducible assumption | fail_if_no_progress (with_reducible refine Keeps.upd ?_) | with_reducible apply keeps_ite | split | intro _)

theorem keeps_ethPut {z : State} (port : Nat) (f : EthPort → SentFrame) (s : State) (h : Keeps z s) : Keeps z (ethPut port f s) := by
  unfold ethPut
  try dsimp only
  repeat' (first
      | with_reducible assumption
      | fail_if_no_progress (with_reducible refine Keeps.upd ?_ (h2 := fun hh => by first | exact hh | ((repeat' split) <;> simp_all [upd_length, List.length_map, List.length_mapIdx, memWrite_wf, memWriteBytes_wf, memClear_wf])))
      | with_reducible apply keeps_ite | split | intro _)

theorem keeps_ethSend {z : State} (port : Nat) (dst : U32) (body : Bytes) (s : State) (h : Keeps z s) : Keeps z (ethSend port dst body s) := by
  unfold ethSend
  try dsimp only
  repeat' (first
      | with_reducible assumption | with_reducible apply keeps_ethPut | with_reducible apply keeps_ite | split | intro _)

theorem keeps_closeSession {z : State} (port : Nat) (sid : U32) (reason : Nat) (s : State) (h : Keeps z s) : Keeps z (closeSession port sid reason s) := by
  unfold closeSession
  try dsimp only
  repeat' (first
      | with_reducible assumption | with_reducible apply keeps_capSessionClosed | with_reducible apply keeps_post
      | fail_if_no_progress (with_reducible refine Keeps.upd ?_) | split)

theorem keeps_closePortSessions {z : State} (port : Nat) (reason : Nat) (s : State) (h : Keeps z s) : Keeps z (closePortSessions port reason s) := by
  unfold closePortSessions
  try dsimp only
  repeat' (first | with_reducible assumption | with_reducible apply keeps_closeSession | with_reducible apply keeps_foldl | intro _)

theorem keeps_admitWaiting {z : State} (s : State) (h : Keeps z s) : Keeps z (admitWaiting s) := by
  unfold admitWaiting
  try dsimp only
  repeat' (first | with_reducible assumption | fail_if_no_progress (with_reducible refine Keeps.upd ?_) | with_reducible apply keeps_ite | split | intro _)

theorem keeps_enqueueReply {z : State} (q : QReply) (s : State) (h : Keeps z s) : Keeps z (enqueueReply q s) := by
  unfold enqueueReply
  try dsimp only
  repeat' (first | with_reducible assumption | fail_if_no_progress (with_reducible refine Keeps.upd ?_) | with_reducible apply keeps_ite | intro _)

theorem keeps_sendReply {z : State} (completion : Bool) (via : Transport) (ip : U32) (port : U16) (opcode : U16) (tag : Byte) (status : U16) (payload : Bytes) (s : State) (h : Keeps z s) : Keeps z (sendReply completion via ip port opcode tag status payload s) := by
  unfold sendReply
  try dsimp only
  repeat' (first
      | with_reducible assumption | with_reducible apply keeps_enqueueReply | with_reducible apply keeps_ethSend | with_reducible apply keeps_post
      | with_reducible apply keeps_updSession | with_reducible apply keeps_closeSession | fail_if_no_progress (with_reducible refine Keeps.upd ?_)
      | with_reducible apply keeps_ite | split | intro _)

theorem keeps_replyTo {z : State} (r : Req) (status : U16) (payload : Bytes) (s : State) (h : Keeps z s) : Keeps z (replyTo r status payload s) := by
  unfold replyTo
  try dsimp only
  repeat' (first | with_reducible assumption | with_reducible apply keeps_sendReply | with_reducible apply keeps_ite | intro _)

theorem keeps_settle {z : State} (o : Owed) (status : U16) (payload : Bytes) (s : State) (h : Keeps z s) : Keeps z (settle o status payload s) := by
  unfold settle
  try dsimp only
  repeat' (first | with_reducible assumption | with_reducible apply keeps_sendReply | with_reducible apply keeps_post | with_reducible apply keeps_ite | split | intro _)

theorem keeps_settleStart {z : State} (o : Option Owed) (status : U16) (payload : Bytes) (s : State) (h : Keeps z s) : Keeps z (settleStart o status payload s) := by
  unfold settleStart
  try dsimp only
  repeat' (first | with_reducible assumption | with_reducible apply keeps_settle | split)

theorem keeps_flushClass {z : State} (cls : Nat) (k : Nat) : ∀ s : State, Keeps z s → Keeps z (flushClass cls k s) := by
  induction k with
  | zero => intro s h; unfold flushClass; exact h
  | succ k ih =>
    intro s h
    unfold flushClass
    try dsimp only
    repeat' (first
        | with_reducible assumption | with_reducible apply ih | with_reducible apply keeps_settle | fail_if_no_progress (with_reducible refine Keeps.upd ?_)
        | split)

theorem keeps_endLong {z : State} (op : U16) (key : Nat) (status : U16) (payload : Bytes) (s : State) (h : Keeps z s) : Keeps z (endLong op key status payload s) := by
  unfold endLong
  try dsimp only
  repeat' (first | with_reducible assumption | with_reducible apply keeps_flushClass | fail_if_no_progress (with_reducible refine Keeps.upd ?_) | split)

theorem keeps_oweLess {z : State} (via : Transport) (s : State) (h : Keeps z s) : Keeps z (oweLess via s) := by
  unfold oweLess
  try dsimp only
  repeat' (first
      | with_reducible assumption | with_reducible apply keeps_updSession | fail_if_no_progress (with_reducible refine Keeps.upd ?_) | with_reducible apply keeps_ite
      | split | intro _)

theorem keeps_dropRequest {z : State} (s : State) (via : Transport) (h : Keeps z s) : Keeps z (dropRequest s via) := by
  unfold dropRequest
  try dsimp only
  repeat' (first
      | with_reducible assumption
      | with_reducible apply keeps_oweLess | with_reducible apply keeps_updSession | fail_if_no_progress (with_reducible refine Keeps.upd ?_) | split | with_reducible apply keeps_ite | intro _)

theorem keeps_countRequest {z : State} (s : State) (h : Keeps z s) : Keeps z (countRequest s) := by
  unfold countRequest
  try dsimp only
  repeat' (first | with_reducible assumption | fail_if_no_progress (with_reducible refine Keeps.upd ?_))

theorem keeps_oweMore {z : State} (via : Transport) (s : State) (h : Keeps z s) : Keeps z (oweMore via s) := by
  unfold oweMore
  try dsimp only
  repeat' (first
      | with_reducible assumption | with_reducible apply keeps_updSession | fail_if_no_progress (with_reducible refine Keeps.upd ?_) | with_reducible apply keeps_ite
      | split | intro _)

theorem keeps_answer {z : State} (r : Req) (s : State) (x : CardResult) (h : Keeps z s) (hx : KeepsCard z x) : Keeps z (answer r s x) := by
  cases x <;> unfold answer <;> simp only [KeepsCard] at hx
  case reject => exact keeps_replyTo _ _ _ _ h
  case done => exact keeps_replyTo _ _ _ _ hx
  case failed => exact keeps_replyTo _ _ _ _ hx
  case long => exact keeps_replyTo _ _ _ _ (Keeps.upd hx)
  case deferred => exact keeps_replyTo _ _ _ _ hx
  case doneThen => exact hx.2 _ (keeps_replyTo _ _ _ _ hx.1)
  case later => exact keeps_oweMore _ _ hx

theorem keeps_flushRefused {z : State} (via : Transport) (k : Nat) : ∀ s : State, Keeps z s → Keeps z (flushRefused via k s) := by
  induction k with
  | zero => intro s h; unfold flushRefused; exact h
  | succ k ih =>
    intro s h
    unfold flushRefused
    try dsimp only
    repeat' (first
        | with_reducible assumption | with_reducible apply ih | with_reducible apply keeps_replyTo | with_reducible apply keeps_dropRequest
        | with_reducible apply keeps_ite | split | intro _)

theorem keeps_flushTurn {z : State} (via : Transport) (s : State) (h : Keeps z s) : Keeps z (flushTurn via s) := by
  unfold flushTurn
  try dsimp only
  repeat' (first
      | with_reducible assumption | with_reducible apply keeps_flushRefused | with_reducible apply keeps_ite | split | intro _)

theorem keeps_carryOut {z : State} (card : Card) (r : Req) (s : State) (h : Keeps z s) (hc : ∀ s r, Keeps z s → KeepsCard z (card.run s r)) : Keeps z (carryOut card r s) := by
  have hk := hc (countRequest s) r (keeps_countRequest _ h)
  unfold carryOut
  split
  · exact keeps_replyTo _ _ _ _ h
  · split
    · exact keeps_replyTo _ _ _ _ h
    · split
      · exact keeps_replyTo _ _ _ _ h
      · split
        · exact keeps_answer _ _ _ h trivial
        · exact keeps_answer _ _ _ h hk

theorem keeps_runCard {z : State} (mine : Req → Bool) (card : Card) (via : Transport) (s : State) (h : Keeps z s) (hc : ∀ s r, Keeps z s → KeepsCard z (card.run s r)) : Keeps z (runCard mine card via s) := by
  unfold runCard
  split
  · exact h
  · split
    · exact h
    · exact keeps_flushTurn _ _ (keeps_carryOut _ _ _ (keeps_dropRequest _ _ h) hc)

/-! ### OpsSafe.lean -/

theorem keeps_updProc {z : State} (f : SafeChan → SafeChan) (s : State) (h : Keeps z s) : Keeps z (updProc f s) := by
  unfold updProc
  try dsimp only
  repeat' (first
      | with_reducible assumption
      | fail_if_no_progress (with_reducible refine Keeps.upd ?_ (h9 := fun hh => by simpa [safeSized, upd_length, List.length_map, List.length_mapIdx] using hh)))

theorem keeps_updSorrel {z : State} (f : SafeChan → SafeChan) (s : State) (h : Keeps z s) : Keeps z (updSorrel f s) := by
  unfold updSorrel
  try dsimp only
  repeat' (first
      | with_reducible assumption
      | fail_if_no_progress (with_reducible refine Keeps.upd ?_ (h9 := fun hh => by simpa [safeSized, upd_length, List.length_map, List.length_mapIdx] using hh)))

theorem keeps_updBoth {z : State} (f : SafeChan → SafeChan) (s : State) (h : Keeps z s) : Keeps z (updBoth f s) := by
  unfold updBoth
  try dsimp only
  repeat' (first | with_reducible assumption | with_reducible apply keeps_updSorrel | with_reducible apply keeps_updProc)

theorem keeps_grantPermits {z : State} (s : State) (h : Keeps z s) : Keeps z (grantPermits s) := by
  unfold grantPermits
  try dsimp only
  repeat' (first | with_reducible assumption | with_reducible apply keeps_updBoth)

theorem keeps_dropPermits {z : State} (s : State) (h : Keeps z s) : Keeps z (dropPermits s) := by
  unfold dropPermits
  try dsimp only
  repeat' (first | with_reducible assumption | with_reducible apply keeps_updBoth)

theorem keeps_updOutput {z : State} (o : Nat) (f : FieldOut → FieldOut) (s : State) (h : Keeps z s) : Keeps z (updOutput o f s) := by
  unfold updOutput
  try dsimp only
  repeat' (first
      | with_reducible assumption
      | fail_if_no_progress (with_reducible refine Keeps.upd ?_ (h10 := fun hh => by simpa [fieldSized, upd_length, List.length_map, List.length_mapIdx] using hh)))

theorem keeps_updInput {z : State} (n : Nat) (f : FieldIn → FieldIn) (s : State) (h : Keeps z s) : Keeps z (updInput n f s) := by
  unfold updInput
  try dsimp only
  repeat' (first
      | with_reducible assumption
      | fail_if_no_progress (with_reducible refine Keeps.upd ?_ (h10 := fun hh => by simpa [fieldSized, upd_length, List.length_map, List.length_mapIdx] using hh)))

theorem keeps_outputStops {z : State} (o : Nat) (s : State) (h : Keeps z s) : Keeps z (outputStops o s) := by
  unfold outputStops
  try dsimp only
  repeat' (first
      | with_reducible assumption
      | fail_if_no_progress (with_reducible refine Keeps.upd ?_ (h10 := fun hh => by simpa [fieldSized, upd_length, List.length_map, List.length_mapIdx] using hh)))

theorem keeps_commandOff {z : State} (o : Nat) (s : State) (h : Keeps z s) : Keeps z (commandOff o s) := by
  unfold commandOff
  try dsimp only
  repeat' (first
      | with_reducible assumption | with_reducible apply keeps_outputStops
      | fail_if_no_progress (with_reducible refine Keeps.upd ?_ (h10 := fun hh => by simpa [fieldSized, upd_length, List.length_map, List.length_mapIdx] using hh))
      | with_reducible apply keeps_ite | intro _ | split)

theorem keeps_commandOn {z : State} (o : Nat) (s : State) (h : Keeps z s) : Keeps z (commandOn o s) := by
  unfold commandOn
  try dsimp only
  repeat' (first
      | with_reducible assumption
      | fail_if_no_progress (with_reducible refine Keeps.upd ?_ (h10 := fun hh => by simpa [fieldSized, upd_length, List.length_map, List.length_mapIdx] using hh)) | with_reducible apply keeps_ite | split | intro _)

theorem keeps_servePullin {z : State}  (k : Nat) : ∀ s : State, Keeps z s → Keeps z (servePullin  k s) := by
  induction k with
  | zero => intro s h; unfold servePullin; exact h
  | succ k ih =>
    intro s h
    unfold servePullin
    try dsimp only
    repeat' (first
        | with_reducible assumption | with_reducible apply ih | with_reducible apply keeps_settleStart | with_reducible apply keeps_commandOn
        | fail_if_no_progress (with_reducible refine Keeps.upd ?_) | with_reducible apply keeps_ite | split | intro _)

/-! ### OpsStage.lean -/

theorem keeps_updStage {z : State} (n : Nat) (f : Stage → Stage) (s : State) (h : Keeps z s) : Keeps z (updStage n f s) := by
  unfold updStage
  try dsimp only
  repeat' (first
      | with_reducible assumption
      | fail_if_no_progress (with_reducible refine Keeps.upd ?_ (h8 := fun hh => by simpa [loopOk, loopSized, upd_length, List.length_map, List.length_mapIdx] using hh)))

theorem keeps_updTimer {z : State} (n : Nat) (f : Timer → Timer) (s : State) (h : Keeps z s) : Keeps z (updTimer n f s) := by
  unfold updTimer
  try dsimp only
  repeat' (first
      | with_reducible assumption
      | fail_if_no_progress (with_reducible refine Keeps.upd ?_ (h7 := fun hh => by simpa [pwmSized, upd_length, List.length_map, List.length_mapIdx] using hh)))

theorem keeps_updGroup {z : State} (n : Nat) (f : Group → Group) (s : State) (h : Keeps z s) : Keeps z (updGroup n f s) := by
  unfold updGroup
  try dsimp only
  repeat' (first
      | with_reducible assumption
      | fail_if_no_progress (with_reducible refine Keeps.upd ?_ (h7 := fun hh => by simpa [pwmSized, upd_length, List.length_map, List.length_mapIdx] using hh)))

theorem keeps_updChan {z : State} (n : Nat) (f : Channel → Channel) (s : State) (h : Keeps z s) : Keeps z (updChan n f s) := by
  unfold updChan
  try dsimp only
  repeat' (first
      | with_reducible assumption
      | fail_if_no_progress (with_reducible refine Keeps.upd ?_ (h7 := fun hh => by simpa [pwmSized, upd_length, List.length_map, List.length_mapIdx] using hh)))

theorem keeps_updUnit {z : State} (n : Nat) (f : CompareUnit → CompareUnit) (s : State) (h : Keeps z s) : Keeps z (updUnit n f s) := by
  unfold updUnit
  try dsimp only
  repeat' (first
      | with_reducible assumption
      | fail_if_no_progress (with_reducible refine Keeps.upd ?_ (h7 := fun hh => by simpa [pwmSized, upd_length, List.length_map, List.length_mapIdx] using hh)))

theorem keeps_updHb {z : State} (n : Nat) (f : HalfBridge → HalfBridge) (s : State) (h : Keeps z s) : Keeps z (updHb n f s) := by
  unfold updHb
  try dsimp only
  repeat' (first
      | with_reducible assumption
      | fail_if_no_progress (with_reducible refine Keeps.upd ?_ (h7 := fun hh => by simpa [pwmSized, upd_length, List.length_map, List.length_mapIdx] using hh)))

theorem keeps_updCmp {z : State} (n : Nat) (f : Comparator → Comparator) (s : State) (h : Keeps z s) : Keeps z (updCmp n f s) := by
  unfold updCmp
  try dsimp only
  repeat' (first
      | with_reducible assumption
      | fail_if_no_progress (with_reducible refine Keeps.upd ?_ (h7 := fun hh => by simpa [pwmSized, upd_length, List.length_map, List.length_mapIdx] using hh)))

theorem keeps_updFoc {z : State} (n : Nat) (f : FastDet → FastDet) (s : State) (h : Keeps z s) : Keeps z (updFoc n f s) := by
  unfold updFoc
  try dsimp only
  repeat' (first
      | with_reducible assumption
      | fail_if_no_progress (with_reducible refine Keeps.upd ?_ (h7 := fun hh => by simpa [pwmSized, upd_length, List.length_map, List.length_mapIdx] using hh)))

theorem keeps_updFlt {z : State} (n : Nat) (f : FltInput → FltInput) (s : State) (h : Keeps z s) : Keeps z (updFlt n f s) := by
  unfold updFlt
  try dsimp only
  repeat' (first
      | with_reducible assumption
      | fail_if_no_progress (with_reducible refine Keeps.upd ?_ (h7 := fun hh => by simpa [pwmSized, upd_length, List.length_map, List.length_mapIdx] using hh)))

theorem keeps_updEngine {z : State} (n : Nat) (f : Engine → Engine) (s : State) (h : Keeps z s) : Keeps z (updEngine n f s) := by
  unfold updEngine
  try dsimp only
  repeat' (first
      | with_reducible assumption
      | fail_if_no_progress (with_reducible refine Keeps.upd ?_ (h8 := fun hh => by simpa [loopOk, loopSized, upd_length, List.length_map, List.length_mapIdx] using hh)))

theorem keeps_sageWake {z : State} (s : State) (h : Keeps z s) : Keeps z (sageWake s) := by
  unfold sageWake
  try dsimp only
  repeat' (first
      | with_reducible assumption | fail_if_no_progress (with_reducible refine Keeps.upd ?_ (h14 := fun hh => by simp_all [sageSized, sageOpen])) | fail_if_no_progress (with_reducible refine Keeps.upd ?_ (h14 := fun hh => hh)) | with_reducible apply keeps_ite | split
      | intro _)

theorem keeps_jtagYield {z : State} (s : State) (h : Keeps z s) : Keeps z (jtagYield s) := by
  unfold jtagYield
  try dsimp only
  repeat' (first
      | with_reducible assumption | with_reducible apply keeps_postMergeWith | fail_if_no_progress (with_reducible refine Keeps.upd ?_ (h15 := fun hh => by simpa [relOk, relSized] using hh) (h16 := fun _ => fusesIn_refl _)) | split | intro _)

theorem keeps_setStage {z : State} (n : Nat) (st : StageState) (cause : Nat) (s : State) (h : Keeps z s) : Keeps z (setStage n st cause s) := by
  unfold setStage
  try dsimp only
  repeat' (first
      | with_reducible assumption | with_reducible apply keeps_post | with_reducible apply keeps_updStage | with_reducible apply keeps_sageWake | with_reducible apply keeps_jtagYield
      | with_reducible apply keeps_ite | split | intro _)

theorem keeps_portDone {z : State} (e q : Nat) (s : State) (h : Keeps z s) : Keeps z (portDone e q s) := by
  unfold portDone
  try dsimp only
  repeat' (first | with_reducible assumption | with_reducible apply keeps_updEngine)

theorem keeps_takeSlot {z : State} (k : Nat) (i : Inst) (q due : Nat) (s : State) (h : Keeps z s) : Keeps z (takeSlot k i q due s) := by
  unfold takeSlot
  try dsimp only
  repeat' (first
      | with_reducible assumption | with_reducible apply keeps_updStage
      | fail_if_no_progress (with_reducible refine Keeps.upd ?_ (h3 := fun hh => hh) (h8 := fun hh => by simpa [loopOk, loopSized, upd_length, List.length_map, List.length_mapIdx] using hh)))

theorem keeps_grantSlots {z : State} (n home q : Nat) (k : Nat) : ∀ s : State, Keeps z s → Keeps z (grantSlots n home q k s) := by
  induction k with
  | zero => intro s h; unfold grantSlots; exact h
  | succ k ih =>
    intro s h
    unfold grantSlots
    try dsimp only
    repeat' (first | with_reducible assumption | with_reducible apply ih | with_reducible apply keeps_takeSlot | with_reducible apply keeps_portDone | split | with_reducible apply keeps_ite | intro _)

theorem keeps_endHold {z : State} (e : Nat) (s : State) (h : Keeps z s) : Keeps z (endHold e s) := by
  unfold endHold
  try dsimp only
  repeat' (first
      | with_reducible assumption | with_reducible apply keeps_updEngine | with_reducible apply keeps_updStage
      | fail_if_no_progress (with_reducible refine Keeps.upd ?_) | with_reducible apply keeps_ite | split | intro _)

theorem keeps_followHold {z : State} (e : Nat) (s : State) (h : Keeps z s) : Keeps z (followHold e s) := by
  unfold followHold
  try dsimp only
  repeat' (first
      | with_reducible assumption
      | with_reducible apply keeps_endHold
      | fail_if_no_progress (with_reducible refine Keeps.upd ?_) | with_reducible apply keeps_updEngine | with_reducible apply keeps_updStage | split | with_reducible apply keeps_ite | intro _)

theorem keeps_followHolds {z : State} (n : Nat) (s : State) (h : Keeps z s) : Keeps z (followHolds n s) := by
  unfold followHolds
  try dsimp only
  repeat' (first | with_reducible assumption | with_reducible apply keeps_followHold | with_reducible apply keeps_forEach | with_reducible apply keeps_ite | split | intro _)

theorem keeps_squash {z : State} (n : Nat) (fs : List U32) (s : State) (h : Keeps z s) : Keeps z (squash n fs s) := by
  unfold squash
  try dsimp only
  repeat' (first
      | with_reducible assumption
      | with_reducible apply keeps_followHolds | with_reducible apply keeps_grantSlots | with_reducible apply keeps_forEach
      | fail_if_no_progress (with_reducible refine Keeps.upd ?_ (h3 := fun hh => hh) (h8 := fun hh => by simpa [loopOk, loopSized, upd_length, List.length_map, List.length_mapIdx] using hh))
      | intro _ | with_reducible apply keeps_ite | split)

theorem keeps_squashAll {z : State} (n : Nat) (s : State) (h : Keeps z s) : Keeps z (squashAll n s) := by
  unfold squashAll
  try dsimp only
  repeat' (first | with_reducible assumption | with_reducible apply keeps_squash)

theorem keeps_endPrecharge {z : State} (c : Nat) (s : State) (h : Keeps z s) : Keeps z (endPrecharge c s) := by
  unfold endPrecharge
  try dsimp only
  repeat' (first
      | with_reducible assumption | with_reducible apply keeps_updHb | fail_if_no_progress (with_reducible refine Keeps.upd ?_) | with_reducible apply keeps_ite
      | split | intro _)

theorem keeps_chanOffNow {z : State} (c : Nat) (s : State) (h : Keeps z s) : Keeps z (chanOffNow c s) := by
  unfold chanOffNow
  try dsimp only
  repeat' (first
      | with_reducible assumption
      | with_reducible apply keeps_endPrecharge | with_reducible apply keeps_updChan | with_reducible apply keeps_ite | split | intro _)

theorem keeps_chanStop {z : State} (c : Nat) (s : State) (h : Keeps z s) : Keeps z (chanStop c s) := by
  unfold chanStop
  try dsimp only
  repeat' (first
      | with_reducible assumption
      | with_reducible apply keeps_endPrecharge
      | fail_if_no_progress (with_reducible refine Keeps.upd ?_) | with_reducible apply keeps_updChan | with_reducible apply keeps_chanOffNow | with_reducible apply keeps_ite | intro _ | split)

theorem keeps_removedStart {z : State} (e : GovEntry) (reason : Nat) (s : State) (h : Keeps z s) : Keeps z (removedStart e reason s) := by
  unfold removedStart
  try dsimp only
  repeat' (first
      | with_reducible assumption | with_reducible apply keeps_settleStart | with_reducible apply keeps_post | with_reducible apply keeps_ite | split | intro _)

theorem keeps_dropPrecharges {z : State} (hbs : List Nat) (s : State) (h : Keeps z s) : Keeps z (dropPrecharges hbs s) := by
  unfold dropPrecharges
  try dsimp only
  repeat' (first
      | with_reducible assumption
      | fail_if_no_progress (with_reducible refine Keeps.upd ?_ (h7 := fun hh => by first | exact hh | ((repeat' split) <;> simp_all [pwmSized, upd_length, List.length_map, List.length_mapIdx, memWrite_wf, memWriteBytes_wf, memClear_wf])))
      | with_reducible apply keeps_ite | split | intro _)

theorem keeps_removeStageStart {z : State} (n : Nat) (reason : Nat) (s : State) (h : Keeps z s) : Keeps z (removeStageStart n reason s) := by
  unfold removeStageStart
  try dsimp only
  repeat' (first
      | with_reducible assumption
      | with_reducible apply keeps_dropPrecharges
      | with_reducible apply keeps_foldl_fst
      | with_reducible apply keeps_foldl_snd | with_reducible apply keeps_removedStart | with_reducible apply keeps_updStage | with_reducible apply keeps_foldl
      | fail_if_no_progress (with_reducible refine Keeps.upd ?_ (h7 := fun hh => by first | exact hh | (simpa [pwmSized, upd_length, List.length_map, List.length_mapIdx] using hh)))
      | with_reducible apply keeps_ite | intro _ | split)

theorem keeps_removeOutputStart {z : State} (o : Nat) (reason : Nat) (s : State) (h : Keeps z s) : Keeps z (removeOutputStart o reason s) := by
  unfold removeOutputStart
  try dsimp only
  repeat' (first
      | with_reducible assumption
      | with_reducible apply keeps_foldl_fst
      | with_reducible apply keeps_foldl_snd | with_reducible apply keeps_removedStart | with_reducible apply keeps_foldl
      | fail_if_no_progress (with_reducible refine Keeps.upd ?_) | intro _ | with_reducible apply keeps_ite | split)

theorem keeps_emptyGovernor {z : State} (reason : Nat) (s : State) (h : Keeps z s) : Keeps z (emptyGovernor reason s) := by
  unfold emptyGovernor
  try dsimp only
  repeat' (first
      | with_reducible assumption | with_reducible apply keeps_removeStageStart | with_reducible apply keeps_removeOutputStart
      | with_reducible apply keeps_forEach | fail_if_no_progress (with_reducible refine Keeps.upd ?_) | intro _)

theorem keeps_updFu {z : State} (u : Nat) (f : FormingUnit → FormingUnit) (s : State) (h : Keeps z s) : Keeps z (updFu u f s) := by
  unfold updFu
  try dsimp only
  repeat' (first
      | with_reducible assumption
      | fail_if_no_progress (with_reducible refine Keeps.upd ?_ (h12 := fun hh => by simpa [upd_length, List.length_map, List.length_mapIdx] using hh)))

theorem keeps_fuModeEvent {z : State} (u : Nat) (old new : FuMode) (ride : Bool) (cause : Nat) (s : State) (h : Keeps z s) : Keeps z (fuModeEvent u old new ride cause s) := by
  unfold fuModeEvent
  try dsimp only
  repeat' (first | with_reducible assumption | with_reducible apply keeps_post)

theorem keeps_fuLeftOver {z : State} (u : Nat) (r : FuReq) (s : State) (h : Keeps z s) : Keeps z (fuLeftOver u r s) := by
  unfold fuLeftOver
  try dsimp only
  repeat' (first
      | with_reducible assumption
      | fail_if_no_progress (with_reducible refine Keeps.upd ?_) | with_reducible apply keeps_post | with_reducible apply keeps_updFu | split | with_reducible apply keeps_ite | intro _)

theorem keeps_fuEnterOff {z : State} (u cause : Nat) (reason : Option Nat) (s : State) (h : Keeps z s) : Keeps z (fuEnterOff u cause reason s) := by
  unfold fuEnterOff
  try dsimp only
  repeat' (first
      | with_reducible assumption
      | with_reducible apply keeps_foldl_fst
      | with_reducible apply keeps_foldl_snd
      | fail_if_no_progress (with_reducible refine Keeps.upd ?_) | with_reducible apply keeps_fuModeEvent | with_reducible apply keeps_post | with_reducible apply keeps_updFu
      | with_reducible apply keeps_fuLeftOver | with_reducible apply keeps_foldl | with_reducible apply keeps_ite | split | intro _)

theorem keeps_fuDropped {z : State} (u : Nat) (r : FuReq) (s : State) (h : Keeps z s) : Keeps z (fuDropped u r s) := by
  unfold fuDropped
  try dsimp only
  repeat' (first
      | with_reducible assumption | with_reducible apply keeps_post | with_reducible apply keeps_fuLeftOver | with_reducible apply keeps_ite | split | intro _)

theorem keeps_fuStageGone {z : State} (u cause reason : Nat) (s : State) (h : Keeps z s) : Keeps z (fuStageGone u cause reason s) := by
  unfold fuStageGone
  try dsimp only
  repeat' (first
      | with_reducible assumption
      | with_reducible apply keeps_fuDropped
      | with_reducible apply keeps_foldl_fst
      | with_reducible apply keeps_foldl_snd | with_reducible apply keeps_fuEnterOff | with_reducible apply keeps_updFu | with_reducible apply keeps_fuLeftOver
      | with_reducible apply keeps_foldl | intro _ | with_reducible apply keeps_ite | split)

theorem keeps_leaveEnabled {z : State} (n cause reason : Nat) (s : State) (h : Keeps z s) : Keeps z (leaveEnabled n cause reason s) := by
  unfold leaveEnabled
  try dsimp only
  repeat' (first
      | with_reducible assumption
      | fail_if_no_progress (with_reducible refine Keeps.upd ?_) | with_reducible apply keeps_capRowsEnd | with_reducible apply keeps_fuStageGone | with_reducible apply keeps_updGroup
      | with_reducible apply keeps_forEach | intro _ | with_reducible apply keeps_ite | split)

theorem keeps_beginShutdown {z : State} (n : Nat) (cause : Nat) (s : State) (h : Keeps z s) : Keeps z (beginShutdown n cause s) := by
  unfold beginShutdown
  try dsimp only
  repeat' (first
      | with_reducible assumption
      | with_reducible apply keeps_dropPrecharges
      | fail_if_no_progress (with_reducible refine Keeps.upd ?_) | with_reducible apply keeps_setStage | with_reducible apply keeps_leaveEnabled | with_reducible apply keeps_squashAll
      | with_reducible apply keeps_updStage | with_reducible apply keeps_ite | split | intro _)

theorem keeps_normalShutdown {z : State} (n : Nat) (cause : Nat) (s : State) (h : Keeps z s) : Keeps z (normalShutdown n cause s) := by
  unfold normalShutdown
  try dsimp only
  repeat' (first
      | with_reducible assumption | with_reducible apply keeps_chanStop | with_reducible apply keeps_beginShutdown | with_reducible apply keeps_forEach
      | with_reducible apply keeps_ite | split | intro _)

theorem keeps_forcedShutdown {z : State} (n : Nat) (s : State) (h : Keeps z s) : Keeps z (forcedShutdown n s) := by
  unfold forcedShutdown
  try dsimp only
  repeat' (first
      | with_reducible assumption
      | with_reducible apply keeps_updStage
      | fail_if_no_progress (with_reducible refine Keeps.upd ?_) | with_reducible apply keeps_chanStop | with_reducible apply keeps_beginShutdown | with_reducible apply keeps_forEach | split | with_reducible apply keeps_ite | intro _)

theorem keeps_stopTimers {z : State} (n : Nat) (s : State) (h : Keeps z s) : Keeps z (stopTimers n s) := by
  unfold stopTimers
  try dsimp only
  repeat' (first
      | with_reducible assumption | with_reducible apply keeps_forEach | with_reducible apply keeps_updTimer
      | fail_if_no_progress (with_reducible refine Keeps.upd ?_) | with_reducible apply keeps_ite | split | intro _)

theorem keeps_lockOut {z : State} (n : Nat) (s : State) (h : Keeps z s) : Keeps z (lockOut n s) := by
  unfold lockOut
  try dsimp only
  repeat' (first
      | with_reducible assumption
      | with_reducible apply keeps_dropPrecharges
      | with_reducible apply keeps_stopTimers
      | fail_if_no_progress (with_reducible refine Keeps.upd ?_) | with_reducible apply keeps_setStage | with_reducible apply keeps_leaveEnabled | with_reducible apply keeps_squashAll
      | with_reducible apply keeps_updStage | with_reducible apply keeps_chanOffNow | with_reducible apply keeps_forEach | with_reducible apply keeps_ite
      | intro _ | split)

theorem foldWrites_wf {β : Type} (l : List β) (a : β → Nat) (b : β → Bytes) (m : List Host.Cell) (h : memWf m = true) : memWf (l.foldl (fun m w => memWriteBytes m (a w) (b w)) m) = true := by
  induction l generalizing m with
  | nil => exact h
  | cons x t ih => exact ih _ (memWriteBytes_wf _ _ _ h)
theorem keeps_foldWrites {z : State} (n : Nat) (upTo : Option U32) (s : State) (h : Keeps z s) : Keeps z (foldWrites n upTo s) := by
  unfold foldWrites
  dsimp only
  split
  · exact h
  · exact keeps_updStage _ _ _ (Keeps.upd h (h8 := fun hh => ⟨hh.1, foldWrites_wf _ _ _ _ hh.2⟩))

theorem keeps_clearDieLatch {z : State} (c : Nat) (s : State) (h : Keeps z s) : Keeps z (clearDieLatch c s) := by
  unfold clearDieLatch
  try dsimp only
  repeat' (first
      | with_reducible assumption | with_reducible apply keeps_updHb | fail_if_no_progress (with_reducible refine Keeps.upd ?_) | with_reducible apply keeps_ite
      | split | intro _)

theorem keeps_chanEntersOff {z : State} (c : Nat) (s : State) (h : Keeps z s) : Keeps z (chanEntersOff c s) := by
  unfold chanEntersOff
  try dsimp only
  repeat' (first
      | with_reducible assumption | with_reducible apply keeps_clearDieLatch | with_reducible apply keeps_updChan | with_reducible apply keeps_ite | split | intro _)

theorem keeps_stageEntersOff {z : State} (n : Nat) (cause : Nat) (s : State) (h : Keeps z s) : Keeps z (stageEntersOff n cause s) := by
  unfold stageEntersOff
  try dsimp only
  repeat' (first
      | with_reducible assumption
      | with_reducible apply keeps_stopTimers
      | with_reducible apply keeps_chanEntersOff
      | with_reducible apply keeps_endHold | with_reducible apply keeps_foldWrites | with_reducible apply keeps_setStage | with_reducible apply keeps_squashAll
      | with_reducible apply keeps_updChan | with_reducible apply keeps_updTimer | with_reducible apply keeps_updGroup | with_reducible apply keeps_updHb
      | with_reducible apply keeps_updStage | with_reducible apply keeps_forEach
      | fail_if_no_progress (with_reducible refine Keeps.upd ?_ (h3 := fun hh => hh) (h8 := fun hh => by simpa [loopOk, loopSized, upd_length, List.length_map, List.length_mapIdx] using hh))
      | intro _ | with_reducible apply keeps_ite | split)

theorem keeps_endRunPeriod {z : State} (s : State) (h : Keeps z s) : Keeps z (endRunPeriod s) := by
  unfold endRunPeriod
  try dsimp only
  repeat' (first | with_reducible assumption | fail_if_no_progress (with_reducible refine Keeps.upd ?_))

theorem keeps_leaveRun {z : State} (reason : Nat) (s : State) (h : Keeps z s) : Keeps z (leaveRun reason s) := by
  unfold leaveRun
  try dsimp only
  repeat' (first
      | with_reducible assumption | with_reducible apply keeps_endRunPeriod | with_reducible apply keeps_emptyGovernor
      | fail_if_no_progress (with_reducible refine Keeps.upd ?_ (h9 := fun hh => by simpa [safeSized, upd_length, List.length_map, List.length_mapIdx] using hh)))

theorem keeps_setSafeState {z : State} (s : State) (h : Keeps z s) : Keeps z (setSafeState s) := by
  unfold setSafeState
  try dsimp only
  repeat' (first
      | with_reducible assumption | with_reducible apply keeps_lockOut | with_reducible apply keeps_commandOff | with_reducible apply keeps_leaveRun
      | with_reducible apply keeps_fuStageGone | with_reducible apply keeps_setDev | with_reducible apply keeps_endLong | with_reducible apply keeps_forEach
      | fail_if_no_progress (with_reducible refine Keeps.upd ?_ (h7 := fun hh => by first | exact hh | (simpa [pwmSized, upd_length, List.length_map, List.length_mapIdx] using hh)) (h9 := fun hh => by first | exact hh | (simpa [safeSized, upd_length, List.length_map, List.length_mapIdx] using hh)))
      | with_reducible apply keeps_ite | intro _)

theorem keeps_safetyActs {z : State} (reason chan source : Nat) (s : State) (h : Keeps z s) : Keeps z (safetyActs reason chan source s) := by
  unfold safetyActs
  try dsimp only
  repeat' (first
      | with_reducible assumption | with_reducible apply keeps_setSafeState | with_reducible apply keeps_post
      | fail_if_no_progress (with_reducible refine Keeps.upd ?_ (h9 := fun hh => by simpa [safeSized, upd_length, List.length_map, List.length_mapIdx] using hh))
      | with_reducible apply keeps_ite | split | intro _)

/-! ### CmdPort.lean -/

theorem keeps_framingEvent {z : State} (first : Byte) (n : Nat) (s : State) (h : Keeps z s) : Keeps z (framingEvent first n s) := by
  unfold framingEvent
  try dsimp only
  repeat' (first | with_reducible assumption | with_reducible apply keeps_post)

theorem keeps_sendMiso {z : State} (cpol : Bool) (tail : Bytes) (s : State) (h : Keeps z s) : Keeps z (sendMiso cpol tail s) := by
  unfold sendMiso
  try dsimp only
  repeat' (first | with_reducible assumption | fail_if_no_progress (with_reducible refine Keeps.upd ?_))

theorem keeps_refuseBusy {z : State} (bytes : Bytes) (s : State) (h : Keeps z s) : Keeps z (refuseBusy bytes s) := by
  unfold refuseBusy
  try dsimp only
  repeat' (first
      | with_reducible assumption | with_reducible apply keeps_post | fail_if_no_progress (with_reducible refine Keeps.upd ?_) | with_reducible apply keeps_ite
      | intro _ | split)

theorem keeps_takePacket {z : State} (bytes : Bytes) (s : State) (h : Keeps z s) : Keeps z (takePacket bytes s) := by
  unfold takePacket
  try dsimp only
  repeat' (first
      | with_reducible assumption
      | with_reducible apply keeps_flushTurn | with_reducible apply keeps_framingEvent | fail_if_no_progress (with_reducible refine Keeps.upd ?_)
      | with_reducible apply keeps_ite | split | intro _)

theorem keeps_execRequestWrite {z : State} (cpol : Bool) (bytes : Bytes) (s : State) (hk0 : Keeps z s) : KeepsNext z (execRequestWrite cpol bytes s) := by
  unfold execRequestWrite
  try dsimp only
  repeat' (first
      | with_reducible assumption | with_reducible apply kn_next | with_reducible apply kn_ite | with_reducible apply keeps_sendMiso
      | with_reducible apply keeps_refuseBusy | with_reducible apply keeps_takePacket | split | intro _)

theorem keeps_execReplyRead {z : State} (cpol : Bool) (n : Nat) (s : State) (hk0 : Keeps z s) : KeepsNext z (execReplyRead cpol n s) := by
  unfold execReplyRead
  try dsimp only
  repeat' (first
      | with_reducible assumption
      | with_reducible apply keeps_flushTurn | with_reducible apply kn_next | with_reducible apply kn_ite | with_reducible apply keeps_sendMiso
      | with_reducible apply keeps_admitWaiting | fail_if_no_progress (with_reducible refine Keeps.upd ?_) | split | intro _ | with_reducible apply keeps_ite)

theorem keeps_execStatusPoll {z : State} (cpol : Bool) (n : Nat) (s : State) (hk0 : Keeps z s) : KeepsNext z (execStatusPoll cpol n s) := by
  unfold execStatusPoll
  try dsimp only
  repeat' (first | with_reducible assumption | with_reducible apply kn_next | with_reducible apply kn_ite | with_reducible apply keeps_sendMiso | intro _)

theorem keeps_execUnknownTransaction {z : State} (cpol : Bool) (first : Byte) (n : Nat) (s : State) (hk0 : Keeps z s) : KeepsNext z (execUnknownTransaction cpol first n s) := by
  unfold execUnknownTransaction
  try dsimp only
  repeat' (first
      | with_reducible assumption | with_reducible apply kn_next | with_reducible apply kn_ite | with_reducible apply keeps_framingEvent
      | with_reducible apply keeps_sendMiso | intro _)

theorem keeps_udpAuthFail {z : State} (port : Nat) (ip sid : U32) (s : State) (h : Keeps z s) : Keeps z (udpAuthFail port ip sid s) := by
  unfold udpAuthFail
  try dsimp only
  repeat' (first | with_reducible assumption | with_reducible apply keeps_post)

theorem keeps_udpReplay {z : State} (port : Nat) (sid seq : U32) (s : State) (h : Keeps z s) : Keeps z (udpReplay port sid seq s) := by
  unfold udpReplay
  try dsimp only
  repeat' (first | with_reducible assumption | with_reducible apply keeps_post)

theorem keeps_udpOpen {z : State} (port : Nat) (ip : U32) (src : U16) (body mac packet : Bytes) (s : State) (h : Keeps z s) : Keeps z (udpOpen port ip src body mac packet s) := by
  unfold udpOpen
  try dsimp only
  repeat' (first
      | with_reducible assumption | with_reducible apply keeps_udpAuthFail | with_reducible apply keeps_udpReplay
      | fail_if_no_progress (with_reducible refine Keeps.upd ?_) | with_reducible apply keeps_ite | split | intro _)

theorem keeps_udpSession {z : State} (port : Nat) (ip : U32) (src : U16) (x : Session) (seq : U32) (body mac packet : Bytes) (s : State) (h : Keeps z s) : Keeps z (udpSession port ip src x seq body mac packet s) := by
  unfold udpSession
  try dsimp only
  repeat' (first
      | with_reducible assumption
      | with_reducible apply keeps_flushTurn | with_reducible apply keeps_udpAuthFail | with_reducible apply keeps_udpReplay | with_reducible apply keeps_updSession
      | with_reducible apply keeps_sendReply | with_reducible apply keeps_post | with_reducible apply keeps_closeSession
      | fail_if_no_progress (with_reducible refine Keeps.upd ?_) | with_reducible apply keeps_ite | split | intro _)

theorem keeps_countRx {z : State} (port : Nat) (s : State) (h : Keeps z s) : Keeps z (countRx port s) := by
  unfold countRx
  try dsimp only
  repeat' (first
      | with_reducible assumption
      | fail_if_no_progress (with_reducible refine Keeps.upd ?_ (h2 := fun hh => by simpa [upd_length, List.length_map, List.length_mapIdx] using hh)) | with_reducible apply keeps_ite | split | intro _)

theorem keeps_ethErrors {z : State} (p : Nat) (s : State) (h : Keeps z s) : Keeps z (ethErrors p s) := by
  unfold ethErrors
  try dsimp only
  repeat' (first | with_reducible assumption | with_reducible apply keeps_postMerge | split | with_reducible apply keeps_ite | intro _)

theorem keeps_updEth {z : State} (p : Nat) (f : EthPort → EthPort) (s : State) (h : Keeps z s) : Keeps z (updEth p f s) := by
  unfold updEth
  try dsimp only
  repeat' (first
      | with_reducible assumption
      | fail_if_no_progress (with_reducible refine Keeps.upd ?_ (h2 := fun hh => by simpa [upd_length, List.length_map, List.length_mapIdx] using hh)) | with_reducible apply keeps_ite | split | intro _)

theorem keeps_ethDrop {z : State} (p : Nat) (s : State) (h : Keeps z s) : Keeps z (ethDrop p s) := by
  unfold ethDrop
  try dsimp only
  repeat' (first
      | with_reducible assumption
      | fail_if_no_progress (with_reducible refine Keeps.upd ?_) | with_reducible apply keeps_ethErrors | with_reducible apply keeps_updEth | with_reducible apply keeps_ite | split | intro _)

theorem keeps_missedRx {z : State} (port : Nat) (s : State) (h : Keeps z s) : Keeps z (missedRx port s) := by
  unfold missedRx
  try dsimp only
  repeat' (first
      | with_reducible assumption
      | with_reducible apply keeps_ethDrop
      | fail_if_no_progress (with_reducible refine Keeps.upd ?_ (h2 := fun hh => by first | exact hh | ((repeat' split) <;> simp_all [upd_length, List.length_map, List.length_mapIdx, memWrite_wf, memWriteBytes_wf, memClear_wf])))
      | with_reducible apply keeps_ite | split | intro _)

theorem keeps_ethTake {z : State} (port : Nat) (tag : Option Nat) (len : Nat) (s : State) (run : State → Host.Outcome State Fault Refusal) (h : Keeps z s) (hr : ∀ t, Keeps z t → KeepsNext z (run t)) : KeepsNext z (ethTake port tag len s run) := by
  unfold ethTake
  try dsimp only
  have hs : KeepsNext z (run (countRx port s)) := hr _ (keeps_countRx _ _ h)
  repeat' (first
      | with_reducible assumption | with_reducible apply kn_next | with_reducible apply keeps_missedRx | with_reducible apply keeps_countRx
      | with_reducible apply keeps_ethDrop | with_reducible apply kn_ite | with_reducible apply keeps_ite | split | intro _)

theorem keeps_execUdpDatagram {z : State} (port : Nat) (tag : Option Nat) (srcIp : U32) (srcPort : U16) (bytes : Bytes) (s : State) (h : Keeps z s) : KeepsNext z (execUdpDatagram port tag srcIp srcPort bytes s) := by
  unfold execUdpDatagram
  try dsimp only
  repeat' (first
      | with_reducible assumption | with_reducible apply kn_next | with_reducible refine keeps_ethTake _ _ _ _ _ ?_ (fun _ _ => ?_) | with_reducible apply keeps_udpAuthFail
      | with_reducible apply keeps_udpOpen | with_reducible apply keeps_udpSession | with_reducible apply kn_ite | with_reducible apply keeps_ite | split | intro _)

theorem keeps_execSessionIdleTimeout {z : State} (port : Nat) (session : U32) (s : State) (hk0 : Keeps z s) : KeepsNext z (execSessionIdleTimeout port session s) := by
  unfold execSessionIdleTimeout
  try dsimp only
  repeat' (first | with_reducible assumption | with_reducible apply kn_next | with_reducible apply keeps_closeSession | with_reducible apply keeps_advanceTo | split)

theorem keeps_cardIdentify {z : State}  : ∀ s r, Keeps z s → KeepsCard z (cardIdentify.run s r) := by
  intro s r hk0
  unfold cardIdentify
  dsimp only
  repeat' (first | with_reducible assumption | exact trivial | with_reducible apply kc_done | with_reducible apply kc_ite | intro _)

theorem keeps_execSysIdentify {z : State} (via : Transport) (s : State) (hk0 : Keeps z s) : KeepsNext z (execSysIdentify via s) := by
  unfold execSysIdentify
  try dsimp only
  repeat' (first | with_reducible assumption | with_reducible apply kn_next | with_reducible apply keeps_runCard | with_reducible apply keeps_cardIdentify)

theorem keeps_cardStatus {z : State}  : ∀ s r, Keeps z s → KeepsCard z (cardStatus.run s r) := by
  intro s r hk0
  unfold cardStatus
  dsimp only
  repeat' (first | with_reducible assumption | exact trivial | with_reducible apply kc_done | with_reducible apply kc_ite | intro _)

theorem keeps_execSysStatus {z : State} (via : Transport) (s : State) (hk0 : Keeps z s) : KeepsNext z (execSysStatus via s) := by
  unfold execSysStatus
  try dsimp only
  repeat' (first | with_reducible assumption | with_reducible apply kn_next | with_reducible apply keeps_runCard | with_reducible apply keeps_cardStatus)

theorem keeps_scheduleReset {z : State} (cause : Byte) (s : State) (h : Keeps z s) : Keeps z (scheduleReset cause s) := by
  unfold scheduleReset
  try dsimp only
  repeat' (first
      | with_reducible assumption | fail_if_no_progress (with_reducible refine Keeps.upd ?_) | with_reducible apply keeps_ite | split | intro _)

theorem keeps_cardReset {z : State}  : ∀ s r, Keeps z s → KeepsCard z (cardReset.run s r) := by
  intro s r hk0
  unfold cardReset
  dsimp only
  repeat' (first
      | with_reducible assumption
      | with_reducible apply keeps_scheduleReset | exact trivial | with_reducible apply kc_done | fail_if_no_progress (with_reducible refine Keeps.upd ?_)
      | with_reducible apply kc_ite | split | intro _ | with_reducible apply keeps_ite)

theorem keeps_execSysReset {z : State} (via : Transport) (s : State) (hk0 : Keeps z s) : KeepsNext z (execSysReset via s) := by
  unfold execSysReset
  try dsimp only
  repeat' (first | with_reducible assumption | with_reducible apply kn_next | with_reducible apply keeps_runCard | with_reducible apply keeps_cardReset)

theorem keeps_outputOff {z : State} (o : Nat) (reason : Nat) (s : State) (h : Keeps z s) : Keeps z (outputOff o reason s) := by
  unfold outputOff
  try dsimp only
  repeat' (first | with_reducible assumption | with_reducible apply keeps_commandOff | with_reducible apply keeps_removeOutputStart)

theorem keeps_finishStateChange {z : State} (s : State) (h : Keeps z s) : Keeps z (finishStateChange s) := by
  unfold finishStateChange
  try dsimp only
  repeat' (first
      | with_reducible assumption | with_reducible apply keeps_leaveRun | with_reducible apply keeps_setDev | with_reducible apply keeps_dropPermits
      | with_reducible apply keeps_endLong | fail_if_no_progress (with_reducible refine Keeps.upd ?_) | with_reducible apply keeps_ite | intro _)

theorem keeps_pathTestDone {z : State} (s : State) (h : Keeps z s) : Keeps z (pathTestDone s) := by
  unfold pathTestDone
  try dsimp only
  repeat' (first
      | with_reducible assumption
      | fail_if_no_progress (with_reducible refine Keeps.upd ?_ (h9 := fun hh => by simpa [safeSized, upd_length, List.length_map, List.length_mapIdx] using hh)) | with_reducible apply keeps_ite | split | intro _)

theorem keeps_setStateRun {z : State} (fail : Option (Nat × Nat)) (s : State) (r : Req) (hk0 : Keeps z s) : KeepsCard z (setStateRun fail s r) := by
  unfold setStateRun
  try dsimp only
  repeat' (first
      | with_reducible assumption | exact trivial | with_reducible apply kc_done | with_reducible apply kc_failed | with_reducible apply kc_long
      | with_reducible apply keeps_setDev | with_reducible apply keeps_jtagYield | with_reducible apply keeps_pathTestDone | with_reducible apply keeps_safetyActs | with_reducible apply keeps_post
      | with_reducible apply keeps_grantPermits | with_reducible apply keeps_emptyGovernor | with_reducible apply keeps_normalShutdown
      | with_reducible apply keeps_outputOff | with_reducible apply keeps_forEach
      | fail_if_no_progress (with_reducible refine Keeps.upd ?_ (h9 := fun hh => by first | exact hh | (simpa [safeSized, upd_length, List.length_map, List.length_mapIdx] using hh)))
      | with_reducible apply kc_ite | split | intro _ | with_reducible apply keeps_ite)

theorem keeps_cardSetState {z : State} (fail : Option (Nat × Nat)) : ∀ s r, Keeps z s → KeepsCard z ((cardSetState fail).run s r) := by
  intro s r hk0
  unfold cardSetState
  dsimp only
  repeat' (first | with_reducible assumption | with_reducible apply keeps_setStateRun)

theorem keeps_execSysSetState {z : State} (via : Transport) (fail : Option (Nat × Nat)) (s : State) (hk0 : Keeps z s) : KeepsNext z (execSysSetState via fail s) := by
  unfold execSysSetState
  try dsimp only
  repeat' (first
      | with_reducible assumption | with_reducible apply kn_next | with_reducible apply keeps_finishStateChange | with_reducible apply keeps_runCard
      | with_reducible apply keeps_cardSetState)

theorem keeps_cardPublishRate {z : State}  : ∀ s r, Keeps z s → KeepsCard z (cardPublishRate.run s r) := by
  intro s r hk0
  unfold cardPublishRate
  dsimp only
  repeat' (first
      | with_reducible assumption | exact trivial | with_reducible apply kc_done
      | fail_if_no_progress (with_reducible refine Keeps.upd ?_ (h17 := fun hh => by simpa [imgOk, upd_length, List.length_map, List.length_mapIdx] using hh))
      | with_reducible apply kc_ite | intro _)

theorem keeps_execSysPublishRate {z : State} (via : Transport) (s : State) (hk0 : Keeps z s) : KeepsNext z (execSysPublishRate via s) := by
  unfold execSysPublishRate
  try dsimp only
  repeat' (first | with_reducible assumption | with_reducible apply kn_next | with_reducible apply keeps_runCard | with_reducible apply keeps_cardPublishRate)

theorem keeps_cardEvtRead {z : State}  : ∀ s r, Keeps z s → KeepsCard z (cardEvtRead.run s r) := by
  intro s r hk0
  unfold cardEvtRead
  dsimp only
  repeat' (first
      | with_reducible assumption | exact trivial | with_reducible apply kc_done | fail_if_no_progress (with_reducible refine Keeps.upd ?_)
      | with_reducible apply kc_ite | split | intro _)

theorem keeps_execEvtRead {z : State} (via : Transport) (s : State) (hk0 : Keeps z s) : KeepsNext z (execEvtRead via s) := by
  unfold execEvtRead
  try dsimp only
  repeat' (first | with_reducible assumption | with_reducible apply kn_next | with_reducible apply keeps_runCard | with_reducible apply keeps_cardEvtRead)

theorem keeps_overflowEntry {z : State} (s : State) (h : Keeps z s) : Keeps z (overflowEntry s) := by
  unfold overflowEntry
  try dsimp only
  repeat' (first
      | with_reducible assumption | with_reducible apply keeps_post | fail_if_no_progress (with_reducible refine Keeps.upd ?_) | with_reducible apply keeps_ite
      | intro _)

theorem keeps_cardEvtAck {z : State}  : ∀ s r, Keeps z s → KeepsCard z (cardEvtAck.run s r) := by
  intro s r hk0
  unfold cardEvtAck
  dsimp only
  repeat' (first
      | with_reducible assumption | exact trivial | with_reducible apply kc_done | with_reducible apply keeps_overflowEntry
      | fail_if_no_progress (with_reducible refine Keeps.upd ?_) | with_reducible apply kc_ite | split | intro _)

theorem keeps_execEvtAck {z : State} (via : Transport) (s : State) (hk0 : Keeps z s) : KeepsNext z (execEvtAck via s) := by
  unfold execEvtAck
  try dsimp only
  repeat' (first | with_reducible assumption | with_reducible apply kn_next | with_reducible apply keeps_runCard | with_reducible apply keeps_cardEvtAck)

theorem keeps_cardEvtMask {z : State}  : ∀ s r, Keeps z s → KeepsCard z (cardEvtMask.run s r) := by
  intro s r hk0
  unfold cardEvtMask
  dsimp only
  repeat' (first
      | with_reducible assumption | exact trivial | with_reducible apply kc_done | fail_if_no_progress (with_reducible refine Keeps.upd ?_)
      | with_reducible apply kc_ite | intro _)

theorem keeps_execEvtMask {z : State} (via : Transport) (s : State) (hk0 : Keeps z s) : KeepsNext z (execEvtMask via s) := by
  unfold execEvtMask
  try dsimp only
  repeat' (first | with_reducible assumption | with_reducible apply kn_next | with_reducible apply keeps_runCard | with_reducible apply keeps_cardEvtMask)

theorem keeps_cardUnassigned {z : State}  : ∀ s r, Keeps z s → KeepsCard z (cardUnassigned.run s r) := by
  intro s r hk0
  unfold cardUnassigned
  dsimp only
  repeat' (exact trivial)

theorem keeps_execUnassignedOpcode {z : State} (via : Transport) (s : State) (hk0 : Keeps z s) : KeepsNext z (execUnassignedOpcode via s) := by
  unfold execUnassignedOpcode
  try dsimp only
  repeat' (first | with_reducible assumption | with_reducible apply kn_next | with_reducible apply keeps_runCard | with_reducible apply keeps_cardUnassigned)

theorem keeps_execVendorTestOpcode {z : State} (via : Transport) (s : State) (hk0 : Keeps z s) : KeepsNext z (execVendorTestOpcode via s) := by
  unfold execVendorTestOpcode
  try dsimp only
  repeat' (first
      | with_reducible assumption
      | with_reducible apply keeps_flushTurn | with_reducible apply kn_next | with_reducible apply kn_refused | with_reducible apply kn_ite
      | with_reducible apply keeps_dropRequest | with_reducible apply keeps_replyTo | split | intro _ | with_reducible apply keeps_ite)

/-! ### Time.lean -/

theorem keeps_updTd {z : State} (d : Nat) (f : Domain → Domain) (s : State) (h : Keeps z s) : Keeps z (updTd d f s) := by
  unfold updTd
  try dsimp only
  repeat' (first
      | with_reducible assumption
      | fail_if_no_progress (with_reducible refine Keeps.upd ?_ (h1 := fun hh => by simpa [timeSized, upd_length, List.length_map, List.length_mapIdx] using hh)))

theorem keeps_markActive {z : State} (s : State) (h : Keeps z s) : Keeps z (markActive s) := by
  unfold markActive
  try dsimp only
  repeat' (first
      | with_reducible assumption
      | fail_if_no_progress (with_reducible refine Keeps.upd ?_ (h1 := fun hh => by simpa [timeSized, upd_length, List.length_map, List.length_mapIdx] using hh)) | with_reducible apply keeps_ite | split | intro _)

theorem keeps_setRho {z : State} (d : Nat) (rho : Int) (s : State) (h : Keeps z s) : Keeps z (setRho d rho s) := by
  unfold setRho
  try dsimp only
  repeat' (first | with_reducible assumption | with_reducible apply keeps_markActive | with_reducible apply keeps_updTd | with_reducible apply keeps_ite | intro _)

theorem keeps_switchEvent {z : State} (fromTd toTd kind : Nat) (d : Int) (s : State) (h : Keeps z s) : Keeps z (switchEvent fromTd toTd kind d s) := by
  unfold switchEvent
  try dsimp only
  repeat' (first | with_reducible assumption | with_reducible apply keeps_post)

theorem keeps_startSwitch {z : State} (b slew kind : Nat) (s : State) (h : Keeps z s) : Keeps z (startSwitch b slew kind s) := by
  unfold startSwitch
  try dsimp only
  repeat' (first
      | with_reducible assumption | with_reducible apply keeps_markActive | with_reducible apply keeps_switchEvent
      | fail_if_no_progress (with_reducible refine Keeps.upd ?_ (h1 := fun hh => by simpa [timeSized, upd_length, List.length_map, List.length_mapIdx] using hh)))

theorem keeps_activeStopped {z : State} (s : State) (h : Keeps z s) : Keeps z (activeStopped s) := by
  unfold activeStopped
  try dsimp only
  repeat' (first
      | with_reducible assumption | with_reducible apply keeps_startSwitch | with_reducible apply keeps_switchEvent
      | fail_if_no_progress (with_reducible refine Keeps.upd ?_ (h1 := fun hh => by simpa [timeSized, upd_length, List.length_map, List.length_mapIdx] using hh))
      | with_reducible apply keeps_ite | split | intro _)

theorem keeps_setTdState {z : State} (d : Nat) (st : TdState) (s : State) (h : Keeps z s) : Keeps z (setTdState d st s) := by
  unfold setTdState
  try dsimp only
  repeat' (first
      | with_reducible assumption | with_reducible apply keeps_updTd | with_reducible apply keeps_post | with_reducible apply keeps_activeStopped
      | fail_if_no_progress (with_reducible refine Keeps.upd ?_ (h1 := fun hh => by simpa [timeSized, upd_length, List.length_map, List.length_mapIdx] using hh))
      | with_reducible apply keeps_ite | split | intro _)

theorem keeps_servoSample {z : State} (d : Nat) (e : Int) (at_ : Nat) (s : State) (h : Keeps z s) : Keeps z (servoSample d e at_ s).2 := by
  unfold servoSample
  try dsimp only
  repeat' (first
      | with_reducible assumption | with_reducible apply keeps_updTd | with_reducible apply keeps_postMerge | with_reducible apply keeps_post
      | with_reducible apply keeps_setRho | with_reducible apply keeps_setTdState | fail_if_no_progress (with_reducible refine Keeps.upd ?_)
      | with_reducible apply keeps_ite | split | intro _)

theorem keeps_servoSample_eq {z : State} {d : Nat} {e : Int} {a : Nat} {s : State} {xx : Bool} {tt : State} (hee : servoSample d e a s = (xx, tt)) (h : Keeps z s) : Keeps z tt := by
  have := keeps_servoSample d e a s h
  rw [hee] at this; exact this

theorem keeps_execHoldoverEntry {z : State} (d : Nat) (s : State) (hk0 : Keeps z s) : KeepsNext z (execHoldoverEntry d s) := by
  unfold execHoldoverEntry
  try dsimp only
  repeat' (first
      | with_reducible assumption | with_reducible apply kn_next | with_reducible apply kn_ite | with_reducible apply keeps_advanceTo
      | with_reducible apply keeps_setTdState | with_reducible apply keeps_setRho | intro _ | with_reducible apply keeps_ite | split)

theorem keeps_execHoldoverLimitExpiry {z : State} (d : Nat) (s : State) (hk0 : Keeps z s) : KeepsNext z (execHoldoverLimitExpiry d s) := by
  unfold execHoldoverLimitExpiry
  try dsimp only
  repeat' (first
      | with_reducible assumption
      | with_reducible apply keeps_updTd
      | fail_if_no_progress (with_reducible refine Keeps.upd ?_) | with_reducible apply kn_next | with_reducible apply kn_ite | with_reducible apply keeps_advanceTo
      | with_reducible apply keeps_setTdState | split | intro _ | with_reducible apply keeps_ite)

theorem keeps_execSwitchComplete {z : State} (s : State) (hk0 : Keeps z s) : KeepsNext z (execSwitchComplete s) := by
  unfold execSwitchComplete
  try dsimp only
  repeat' (first
      | with_reducible assumption | with_reducible apply kn_next | with_reducible apply keeps_markActive | with_reducible apply keeps_advanceTo
      | with_reducible apply keeps_switchEvent
      | fail_if_no_progress (with_reducible refine Keeps.upd ?_ (h1 := fun hh => by simpa [timeSized, upd_length, List.length_map, List.length_mapIdx] using hh))
      | split | with_reducible apply kn_ite | with_reducible apply keeps_ite | intro _)

theorem keeps_setDomainRun {z : State} (s : State) (r : Req) (hk0 : Keeps z s) : KeepsCard z (setDomainRun s r) := by
  unfold setDomainRun
  try dsimp only
  repeat' (first
      | with_reducible assumption
      | fail_if_no_progress (with_reducible refine Keeps.upd ?_) | exact trivial | with_reducible apply kc_done | with_reducible apply keeps_updTd | with_reducible apply keeps_setTdState
      | with_reducible apply kc_ite | split | intro _ | with_reducible apply keeps_ite)

theorem keeps_cardSetDomain {z : State}  : ∀ s r, Keeps z s → KeepsCard z (cardSetDomain.run s r) := by
  intro s r hk0
  unfold cardSetDomain
  dsimp only
  repeat' (first | with_reducible assumption | with_reducible apply keeps_setDomainRun)

theorem keeps_execTimeSetDomain {z : State} (via : Transport) (s : State) (hk0 : Keeps z s) : KeepsNext z (execTimeSetDomain via s) := by
  unfold execTimeSetDomain
  try dsimp only
  repeat' (first | with_reducible assumption | with_reducible apply kn_next | with_reducible apply keeps_runCard | with_reducible apply keeps_cardSetDomain | with_reducible apply kn_ite | with_reducible apply keeps_ite | split | intro _)

theorem keeps_feedOffsetRun {z : State} (s : State) (r : Req) (hk0 : Keeps z s) : KeepsCard z (feedOffsetRun s r) := by
  unfold feedOffsetRun
  try dsimp only
  repeat' (first
      | with_reducible assumption
      | fail_if_no_progress (with_reducible refine Keeps.upd ?_) | exact trivial | with_reducible apply kc_done | with_reducible apply kc_failed | with_reducible apply keeps_servoSample
      | with_reducible apply keeps_updTd | with_reducible apply keeps_postMerge | with_reducible apply kc_ite | split | intro _ | with_reducible apply keeps_ite)

theorem keeps_cardFeedOffset {z : State}  : ∀ s r, Keeps z s → KeepsCard z (cardFeedOffset.run s r) := by
  intro s r hk0
  unfold cardFeedOffset
  dsimp only
  repeat' (first | with_reducible assumption | with_reducible apply keeps_feedOffsetRun)

theorem keeps_execTimeFeedOffset {z : State} (via : Transport) (s : State) (hk0 : Keeps z s) : KeepsNext z (execTimeFeedOffset via s) := by
  unfold execTimeFeedOffset
  try dsimp only
  repeat' (first | with_reducible assumption | with_reducible apply kn_next | with_reducible apply keeps_runCard | with_reducible apply keeps_cardFeedOffset)

theorem keeps_selectActiveRun {z : State} (s : State) (r : Req) (hk0 : Keeps z s) : KeepsCard z (selectActiveRun s r) := by
  unfold selectActiveRun
  try dsimp only
  repeat' (first
      | with_reducible assumption | exact trivial | with_reducible apply kc_done | with_reducible apply keeps_startSwitch | with_reducible apply kc_ite | split
      | intro _)

theorem keeps_cardSelectActive {z : State}  : ∀ s r, Keeps z s → KeepsCard z (cardSelectActive.run s r) := by
  intro s r hk0
  unfold cardSelectActive
  dsimp only
  repeat' (first | with_reducible assumption | with_reducible apply keeps_selectActiveRun)

theorem keeps_execTimeSelectActive {z : State} (via : Transport) (s : State) (hk0 : Keeps z s) : KeepsNext z (execTimeSelectActive via s) := by
  unfold execTimeSelectActive
  try dsimp only
  repeat' (first | with_reducible assumption | with_reducible apply kn_next | with_reducible apply keeps_runCard | with_reducible apply keeps_cardSelectActive)

theorem keeps_cardTimeRead {z : State}  : ∀ s r, Keeps z s → KeepsCard z (cardTimeRead.run s r) := by
  intro s r hk0
  unfold cardTimeRead
  dsimp only
  repeat' (first | with_reducible assumption | exact trivial | with_reducible apply kc_done | with_reducible apply kc_ite | intro _)

theorem keeps_execTimeRead {z : State} (via : Transport) (s : State) (hk0 : Keeps z s) : KeepsNext z (execTimeRead via s) := by
  unfold execTimeRead
  try dsimp only
  repeat' (first | with_reducible assumption | with_reducible apply kn_next | with_reducible apply keeps_runCard | with_reducible apply keeps_cardTimeRead)

/-! ### Eth.lean -/

theorem keeps_updInst {z : State} (i : Nat) (f : TimeInst → TimeInst) (s : State) (h : Keeps z s) : Keeps z (updInst i f s) := by
  unfold updInst
  try dsimp only
  repeat' (first
      | with_reducible assumption
      | fail_if_no_progress (with_reducible refine Keeps.upd ?_ (h3 := fun hh => by simpa [upd_length, List.length_map, List.length_mapIdx] using hh)) | with_reducible apply keeps_ite | split | intro _)

theorem keeps_execEthFrameDiscarded {z : State} (port : Nat) (badFcs : Bool) (tag : Option Nat) (len : Nat) (other : Bool) (s : State) (h : Keeps z s) : KeepsNext z (execEthFrameDiscarded port badFcs tag len other s) := by
  unfold execEthFrameDiscarded
  try dsimp only
  repeat' (first
      | with_reducible assumption | with_reducible apply kn_next | with_reducible apply keeps_ethErrors | with_reducible apply keeps_updEth
      | with_reducible apply keeps_countRx | with_reducible refine keeps_ethTake _ _ _ _ _ ?_ (fun _ _ => ?_) | with_reducible apply keeps_ethDrop
      | fail_if_no_progress (with_reducible refine Keeps.upd ?_) | with_reducible apply kn_ite | with_reducible apply keeps_ite | split | intro _)

theorem keeps_linkDown {z : State} (port : Nat) (s : State) (h : Keeps z s) : Keeps z (linkDown port s) := by
  unfold linkDown
  try dsimp only
  repeat' (first
      | with_reducible assumption | with_reducible apply keeps_post | with_reducible apply keeps_closePortSessions | with_reducible apply keeps_updEth
      | fail_if_no_progress (with_reducible refine Keeps.upd ?_) | with_reducible apply keeps_ite | split | intro _)

theorem keeps_execEthLink {z : State} (port : Nat) (up : Bool) (speed : Nat) (s : State) (hk0 : Keeps z s) : KeepsNext z (execEthLink port up speed s) := by
  unfold execEthLink
  try dsimp only
  repeat' (first
      | with_reducible assumption
      | with_reducible apply keeps_linkDown
      | fail_if_no_progress (with_reducible refine Keeps.upd ?_) | with_reducible apply kn_next | with_reducible apply kn_ite | with_reducible apply keeps_post
      | with_reducible apply keeps_updEth | with_reducible apply keeps_closePortSessions | split | intro _ | with_reducible apply keeps_ite)

theorem keeps_execArpRequest {z : State} (port : Nat) (tag : Option Nat) (target : U32) (senderMac : Bytes) (senderIp : U32) (s : State) (h : Keeps z s) : KeepsNext z (execArpRequest port tag target senderMac senderIp s) := by
  unfold execArpRequest
  try dsimp only
  repeat' (first
      | with_reducible assumption | with_reducible apply kn_next | with_reducible refine keeps_ethTake _ _ _ _ _ ?_ (fun _ _ => ?_) | with_reducible apply keeps_ethPut
      | with_reducible apply kn_ite | with_reducible apply keeps_ite | split | intro _)

theorem keeps_execIcmpEcho {z : State} (port : Nat) (tag : Option Nat) (srcIp : U32) (data : Bytes) (s : State) (h : Keeps z s) : KeepsNext z (execIcmpEcho port tag srcIp data s) := by
  unfold execIcmpEcho
  try dsimp only
  repeat' (first
      | with_reducible assumption | with_reducible apply kn_next | with_reducible refine keeps_ethTake _ _ _ _ _ ?_ (fun _ _ => ?_) | with_reducible apply keeps_ethDrop
      | with_reducible apply keeps_ethSend | with_reducible apply kn_ite | with_reducible apply keeps_ite | split | intro _)

theorem keeps_setRole {z : State} (i role : Nat) (cls : Byte) (s : State) (h : Keeps z s) : Keeps z (setRole i role cls s) := by
  unfold setRole
  try dsimp only
  repeat' (first | with_reducible assumption | with_reducible apply keeps_updInst | with_reducible apply keeps_post | with_reducible apply keeps_ite | intro _)

theorem keeps_execPtpSync {z : State} (i : Nat) (tag : Option Nat) (origin correction delay : Int) (s : State) (h : Keeps z s) : KeepsNext z (execPtpSync i tag origin correction delay s) := by
  unfold execPtpSync
  try dsimp only
  repeat' (first
      | with_reducible assumption | with_reducible apply kn_next | with_reducible refine keeps_ethTake _ _ _ _ _ ?_ (fun _ _ => ?_) | with_reducible apply keeps_updInst
      | with_reducible apply keeps_servoSample | fail_if_no_progress (with_reducible refine Keeps.upd ?_) | with_reducible apply kn_ite
      | with_reducible apply keeps_ite | split | intro _)

theorem keeps_becomeGm {z : State} (i : Nat) (s : State) (h : Keeps z s) : Keeps z (becomeGm i s) := by
  unfold becomeGm
  try dsimp only
  repeat' (first
      | with_reducible assumption
      | with_reducible apply keeps_updInst
      | fail_if_no_progress (with_reducible refine Keeps.upd ?_) | with_reducible apply keeps_setRho | with_reducible apply keeps_updTd | with_reducible apply keeps_setTdState
      | with_reducible apply keeps_setRole | with_reducible apply keeps_ite | split | intro _)

theorem keeps_execPtpAnnounce {z : State} (i : Nat) (tag : Option Nat) (gm : Bytes) (prio1 cls acc : Byte) (var : U16) (prio2 : Byte) (steps : U16) (s : State) (h : Keeps z s) : KeepsNext z (execPtpAnnounce i tag gm prio1 cls acc var prio2 steps s) := by
  unfold execPtpAnnounce
  try dsimp only
  repeat' (first
      | with_reducible assumption | with_reducible apply kn_next | with_reducible refine keeps_ethTake _ _ _ _ _ ?_ (fun _ _ => ?_) | with_reducible apply keeps_updInst
      | with_reducible apply keeps_setRole | with_reducible apply keeps_setTdState | with_reducible apply keeps_updTd | with_reducible apply keeps_becomeGm
      | fail_if_no_progress (with_reducible refine Keeps.upd ?_) | with_reducible apply kn_ite | with_reducible apply keeps_ite | split | intro _)

theorem keeps_execAnnounceReceiptTimeout {z : State} (i : Nat) (s : State) (hk0 : Keeps z s) : KeepsNext z (execAnnounceReceiptTimeout i s) := by
  unfold execAnnounceReceiptTimeout
  try dsimp only
  repeat' (first
      | with_reducible assumption | with_reducible apply kn_next | with_reducible apply kn_ite | with_reducible apply keeps_setRole
      | with_reducible apply keeps_becomeGm | split | intro _)

theorem keeps_ptpPut {z : State} (x : TimeInst) (kind : Nat) (seq : U16) (correction : Int) (tail : Bytes) (s : State) (h : Keeps z s) : Keeps z (ptpPut x kind seq correction tail s) := by
  unfold ptpPut
  try dsimp only
  repeat' (first
      | with_reducible assumption | with_reducible apply keeps_ethPut | with_reducible apply keeps_ite | split | intro _)

theorem keeps_execPtpSyncInterval {z : State} (i : Nat) (announce : Bool) (s : State) (hk0 : Keeps z s) : KeepsNext z (execPtpSyncInterval i announce s) := by
  unfold execPtpSyncInterval
  try dsimp only
  repeat' (first
      | with_reducible assumption
      | with_reducible apply keeps_ptpPut
      | fail_if_no_progress (with_reducible refine Keeps.upd ?_) | with_reducible apply kn_next | with_reducible apply kn_ite | with_reducible apply keeps_updInst
      | with_reducible apply keeps_ethSend | split | intro _ | with_reducible apply keeps_ite)

theorem keeps_ptpAnswer {z : State} (i : Nat) (seq : U16) (turn : Nat) (s : State) (h : Keeps z s) : Keeps z (ptpAnswer i seq turn s) := by
  unfold ptpAnswer
  try dsimp only
  repeat' (first
      | with_reducible assumption | with_reducible apply keeps_ptpPut | with_reducible apply keeps_ite | split | intro _)

theorem keeps_ptpAsk {z : State} (i : Nat) (s : State) (h : Keeps z s) : Keeps z (ptpAsk i s) := by
  unfold ptpAsk
  try dsimp only
  repeat' (first
      | with_reducible assumption | with_reducible apply keeps_ptpPut | with_reducible apply keeps_updInst | fail_if_no_progress (with_reducible refine Keeps.upd ?_)
      | with_reducible apply keeps_ite | split | intro _)

theorem keeps_execPtpPdelay {z : State} (i : Nat) (tag : Option Nat) (what : Nat) (seq : U16) (delay : Int) (turn : Nat) (s : State) (h : Keeps z s) : KeepsNext z (execPtpPdelay i tag what seq delay turn s) := by
  unfold execPtpPdelay
  try dsimp only
  repeat' (first
      | with_reducible assumption | with_reducible apply kn_next | with_reducible apply keeps_ptpAsk | with_reducible refine keeps_ethTake _ _ _ _ _ ?_ (fun _ _ => ?_)
      | with_reducible apply keeps_ptpAnswer | with_reducible apply keeps_updInst | fail_if_no_progress (with_reducible refine Keeps.upd ?_)
      | with_reducible apply kn_ite | with_reducible apply keeps_ite | split | intro _)

theorem keeps_applyPort {z : State} (p : Bytes) (s : State) (h : Keeps z s) : Keeps z (applyPort p s) := by
  unfold applyPort
  try dsimp only
  repeat' (first
      | with_reducible assumption
      | with_reducible apply keeps_linkDown | with_reducible apply keeps_updEth | with_reducible apply keeps_closePortSessions | with_reducible apply keeps_ite | split | intro _)

theorem keeps_ethConfigPortRun {z : State} (s : State) (r : Req) (hk0 : Keeps z s) : KeepsCard z (ethConfigPortRun s r) := by
  unfold ethConfigPortRun
  try dsimp only
  repeat' (first
      | with_reducible assumption | exact trivial | with_reducible apply kc_done | with_reducible refine kc_doneThen _ ?_ (fun _ _ => ?_)
      | with_reducible apply keeps_applyPort | with_reducible apply kc_ite | split | intro _)

theorem keeps_cardEthPort {z : State}  : ∀ s r, Keeps z s → KeepsCard z (cardEthPort.run s r) := by
  intro s r hk0
  unfold cardEthPort
  dsimp only
  repeat' (first | with_reducible assumption | with_reducible apply keeps_ethConfigPortRun)

theorem keeps_execEthConfigPort {z : State} (via : Transport) (s : State) (hk0 : Keeps z s) : KeepsNext z (execEthConfigPort via s) := by
  unfold execEthConfigPort
  try dsimp only
  repeat' (first | with_reducible assumption | with_reducible apply kn_next | with_reducible apply keeps_runCard | with_reducible apply keeps_cardEthPort)

theorem keeps_ethConfigInstRun {z : State} (s : State) (r : Req) (hk0 : Keeps z s) : KeepsCard z (ethConfigInstRun s r) := by
  unfold ethConfigInstRun
  try dsimp only
  repeat' (first
      | with_reducible assumption | exact trivial | with_reducible apply kc_done | with_reducible apply keeps_setTdState | with_reducible apply keeps_updTd
      | with_reducible apply keeps_updInst | with_reducible apply keeps_setRole | with_reducible apply kc_ite | split | intro _)

theorem keeps_cardEthInst {z : State}  : ∀ s r, Keeps z s → KeepsCard z (cardEthInst.run s r) := by
  intro s r hk0
  unfold cardEthInst
  dsimp only
  repeat' (first | with_reducible assumption | with_reducible apply keeps_ethConfigInstRun)

theorem keeps_execEthConfigInstance {z : State} (via : Transport) (s : State) (hk0 : Keeps z s) : KeepsNext z (execEthConfigInstance via s) := by
  unfold execEthConfigInstance
  try dsimp only
  repeat' (first | with_reducible assumption | with_reducible apply kn_next | with_reducible apply keeps_runCard | with_reducible apply keeps_cardEthInst)

theorem keeps_sessionOpenRun {z : State} (s : State) (r : Req) (hk0 : Keeps z s) : KeepsCard z (sessionOpenRun s r) := by
  unfold sessionOpenRun
  try dsimp only
  repeat' (first
      | with_reducible assumption | exact trivial | with_reducible apply kc_done | with_reducible apply keeps_closeSession
      | with_reducible apply keeps_drawBytes | with_reducible apply keeps_draw | fail_if_no_progress (with_reducible refine Keeps.upd ?_)
      | with_reducible apply kc_ite | split | intro _)

theorem keeps_cardSessionOpen {z : State}  : ∀ s r, Keeps z s → KeepsCard z (cardSessionOpen.run s r) := by
  intro s r hk0
  unfold cardSessionOpen
  dsimp only
  repeat' (first | with_reducible assumption | with_reducible apply keeps_sessionOpenRun | with_reducible apply kc_ite | with_reducible apply keeps_ite | split | intro _)

theorem keeps_execEthSessionOpen {z : State} (via : Transport) (s : State) (hk0 : Keeps z s) : KeepsNext z (execEthSessionOpen via s) := by
  unfold execEthSessionOpen
  try dsimp only
  repeat' (first
      | with_reducible assumption
      | with_reducible apply keeps_flushTurn
      | with_reducible apply keeps_udpReplay
      | with_reducible apply keeps_dropRequest | with_reducible apply kn_next | with_reducible apply keeps_runCard | with_reducible apply keeps_cardSessionOpen | with_reducible apply kn_ite | with_reducible apply keeps_ite | split | intro _)

/-! ### OpsProt.lean -/

theorem keeps_tripEvent {z : State} (c : Nat) (cause : Byte) (idx : Nat) (failed : Bool) (s : State) (h : Keeps z s) : Keeps z (tripEvent c cause idx failed s) := by
  unfold tripEvent
  try dsimp only
  repeat' (first
      | with_reducible assumption
      | fail_if_no_progress (with_reducible refine Keeps.upd ?_) | with_reducible apply keeps_postMerge | with_reducible apply keeps_updChan | with_reducible apply keeps_post
      | with_reducible apply keeps_ite | split | intro _)

theorem keeps_multileg {z : State} (c : Nat) (cause : Byte) (s : State) (h : Keeps z s) : Keeps z (multileg c cause s) := by
  unfold multileg
  try dsimp only
  repeat' (first
      | with_reducible assumption
      | with_reducible apply keeps_foldl
      | with_reducible apply keeps_foldl_fst
      | with_reducible apply keeps_foldl_snd | with_reducible apply keeps_updChan | with_reducible apply keeps_post | with_reducible apply keeps_safetyActs
      | fail_if_no_progress (with_reducible refine Keeps.upd ?_ (h7 := fun hh => by simpa [pwmSized, upd_length, List.length_map, List.length_mapIdx] using hh))
      | with_reducible apply keeps_ite | split | intro _)

theorem keeps_tripChannel {z : State} (cause : Byte) (idx : Nat) (c : Nat) (s : State) (h : Keeps z s) : Keeps z (tripChannel cause idx c s) := by
  unfold tripChannel
  try dsimp only
  repeat' (first
      | with_reducible assumption
      | fail_if_no_progress (with_reducible refine Keeps.upd ?_) | with_reducible apply keeps_tripEvent | with_reducible apply keeps_updChan | with_reducible apply keeps_multileg
      | with_reducible apply keeps_ite | intro _ | split)

theorem keeps_tripTargets {z : State} (cause : Byte) (idx : Nat) (ts : List Nat) (s : State) (h : Keeps z s) : Keeps z (tripTargets cause idx ts s) := by
  unfold tripTargets
  try dsimp only
  repeat' (first | with_reducible assumption | with_reducible apply keeps_tripChannel | with_reducible apply keeps_forEach)

theorem keeps_risingEdge {z : State} (c : Nat) (s : State) (h : Keeps z s) : Keeps z (risingEdge c s) := by
  unfold risingEdge
  try dsimp only
  repeat' (first
      | with_reducible assumption
      | with_reducible apply keeps_clearDieLatch | with_reducible apply keeps_tripEvent | with_reducible apply keeps_updChan | with_reducible apply keeps_updHb
      | fail_if_no_progress (with_reducible refine Keeps.upd ?_ (h7 := fun hh => by simpa [pwmSized, upd_length, List.length_map, List.length_mapIdx] using hh))
      | with_reducible apply keeps_ite | split | intro _)

theorem keeps_withEdges {z : State} (cs : List Nat) (f : State → State) (s : State) (h : Keeps z s) (hf : ∀ s, Keeps z s → Keeps z (f s)) : Keeps z (withEdges cs f s) := by
  unfold withEdges
  exact keeps_forEach _ _ _ (hf _ h) (fun _ _ k => keeps_risingEdge _ _ k)

theorem keeps_armTrips {z : State} (cs : List Nat) (s : State) (h : Keeps z s) : Keeps z (armTrips cs s) := by
  unfold armTrips
  try dsimp only
  repeat' (first
      | with_reducible assumption
      | fail_if_no_progress (with_reducible refine Keeps.upd ?_) | with_reducible apply keeps_tripChannel | with_reducible apply keeps_tripTargets | with_reducible apply keeps_updCmp
      | with_reducible apply keeps_forEach | split | intro _ | with_reducible apply keeps_ite)

end Sys2Proof
end

