-- ==== Sys2Proof/Laws/KeepsStages.lean ====
section
/-! SUPPORT. What the operations of the units, PWM and protection keep, one lemma an operation: the
queue, the numbers of resources, the form of the memories and the fuses. -/

namespace Sys2Proof

set_option linter.all false
set_option Elab.async false

open Sys2Proof.Machine
open Sys2Proof.Laws

/-! ### OpsRel.lean -/

theorem get64 (x y : U32) (j : Nat) : BitVec.getLsbD (w := 64) (x ++ y) j = if j < 32 then y.getLsbD j else x.getLsbD (j - 32) := BitVec.getLsbD_append
theorem get32 (x y : U16) (j : Nat) : BitVec.getLsbD (w := 32) (x ++ y) j = if j < 16 then y.getLsbD j else x.getLsbD (j - 16) := BitVec.getLsbD_append
theorem get16 (x y : Byte) (j : Nat) : BitVec.getLsbD (w := 16) (x ++ y) j = if j < 8 then y.getLsbD j else x.getLsbD (j - 8) := BitVec.getLsbD_append
theorem word_bits (b0 b1 b2 b3 b4 b5 b6 b7 : Byte) (v : U64) (i : Nat) (hi : i < 8) :
    (le64 (u64At [b0, b1, b2, b3, b4, b5, b6, b7] 0 ||| v)).getD i 0 = v.extractLsb' (8 * i) 8 ||| [b0, b1, b2, b3, b4, b5, b6, b7].getD i 0 := by
  obtain rfl | rfl | rfl | rfl | rfl | rfl | rfl | rfl : i = 0 ∨ i = 1 ∨ i = 2 ∨ i = 3 ∨ i = 4 ∨ i = 5 ∨ i = 6 ∨ i = 7 := by omega
  all_goals
    simp only [le64, le32, le16, u64At, u32At, u16At, byteAt, List.getD_cons_succ, List.getD_cons_zero, List.cons_append, List.nil_append]
    apply BitVec.eq_of_getLsbD_eq
    intro j hj
    simp only [BitVec.getLsbD_extractLsb', BitVec.getLsbD_or, get64, get32, get16, hj]
    obtain rfl | rfl | rfl | rfl | rfl | rfl | rfl | rfl : j = 0 ∨ j = 1 ∨ j = 2 ∨ j = 3 ∨ j = 4 ∨ j = 5 ∨ j = 6 ∨ j = 7 := by omega
    all_goals simp [Bool.or_comm]
theorem word_byte (m : List Host.Cell) (a : Nat) (v : U64) (i : Nat) (hi : i < 8) : memRead m (a + i) &&& ~~~((le64 (u64At (memReadBytes m a 8) 0 ||| v)).getD i 0) = 0 := by
  have h8 : memReadBytes m a 8 = [memRead m (a + 0), memRead m (a + 1), memRead m (a + 2), memRead m (a + 3), memRead m (a + 4), memRead m (a + 5), memRead m (a + 6), memRead m (a + 7)] := rfl
  rw [h8, word_bits _ _ _ _ _ _ _ _ v i hi]
  have : [memRead m (a + 0), memRead m (a + 1), memRead m (a + 2), memRead m (a + 3), memRead m (a + 4), memRead m (a + 5), memRead m (a + 6), memRead m (a + 7)].getD i 0 = memRead m (a + i) := by
    obtain rfl | rfl | rfl | rfl | rfl | rfl | rfl | rfl : i = 0 ∨ i = 1 ∨ i = 2 ∨ i = 3 ∨ i = 4 ∨ i = 5 ∨ i = 6 ∨ i = 7 := by omega
    all_goals rfl
  rw [this, byte_or]
theorem keeps_otpSet {z : State} (w : Nat) (v : U64) (s : State) (h : Keeps z s) : Keeps z (otpSet w v s) := by
  unfold otpSet
  refine Keeps.upd h (h15 := fun hh => ⟨hh.1, memWriteBytes_wf _ _ _ hh.2⟩) (h16 := fun hh => fusesIn_writeBytes hh.2 ?_)
  intro i hi
  exact word_byte _ _ _ i hi

theorem keeps_otpProgram {z : State} (a : Nat) (b : Bytes) (s : State) (h : Keeps z s) : Keeps z (otpProgram a b s) := by
  unfold otpProgram
  refine Keeps.upd h (h15 := fun hh => ⟨hh.1, memWriteBytes_wf _ _ _ hh.2⟩) (h16 := fun hh => fusesIn_writeBytes hh.2 ?_)
  intro i hi
  simp only [List.length_map, List.length_zipIdx] at hi
  simp [List.getD_eq_getElem?_getD, hi, byte_or]

theorem keeps_decideRetire {z : State} (r : Retirement) (s : State) (h : Keeps z s) : Keeps z (decideRetire r s) := by
  unfold decideRetire
  try dsimp only
  repeat' (first
      | with_reducible assumption
      | fail_if_no_progress (with_reducible refine Keeps.upd ?_ (h15 := fun hh => by simpa [relOk, relSized, upd_length, List.length_map, List.length_mapIdx] using hh))
      | with_reducible apply keeps_ite | intro _)

theorem keeps_postRetired {z : State} (c : Nat) (d : Bytes) (s : State) (h : Keeps z s) : Keeps z (postRetired c d s) := by
  unfold postRetired
  try dsimp only
  repeat' (first
      | with_reducible assumption | with_reducible apply keeps_post
      | fail_if_no_progress (with_reducible refine Keeps.upd ?_ (h15 := fun hh => by simpa [relOk, relSized] using hh))
      | with_reducible apply keeps_ite | intro _)

theorem keeps_postUnposted {z : State} (s : State) (h : Keeps z s) : Keeps z (postUnposted s) := by
  unfold postUnposted
  try dsimp only
  repeat' (first
      | with_reducible assumption | with_reducible apply keeps_foldl | with_reducible apply keeps_post
      | fail_if_no_progress (with_reducible refine Keeps.upd ?_ (h15 := fun hh => by simpa [relOk, relSized] using hh))
      | intro _)

theorem keeps_finishRetire {z : State} (r : Retirement) (spare : Option Nat) (s : State) (h : Keeps z s) : Keeps z (finishRetire r spare s) := by
  unfold finishRetire
  try dsimp only
  repeat' (first
      | with_reducible assumption | with_reducible apply keeps_postRetired
      | fail_if_no_progress (with_reducible refine Keeps.upd ?_ (h15 := fun hh => by simpa [relOk, relSized, upd_length, List.length_map, List.length_mapIdx] using hh)))

theorem keeps_transient {z : State} (cls index : Nat) (s : State) (h : Keeps z s) : Keeps z (transient cls index s) := by
  unfold transient
  try dsimp only
  repeat' (first
      | with_reducible assumption | with_reducible apply keeps_postMerge
      | fail_if_no_progress (with_reducible refine Keeps.upd ?_ (h15 := fun hh => by simpa [relOk, relSized, upd_length, List.length_map, List.length_mapIdx] using hh)))

theorem keeps_retireSar {z : State} (r : Retirement) (s : State) (h : Keeps z s) : Keeps z (retireSar r s) := by
  unfold retireSar
  try dsimp only
  repeat' (first
      | with_reducible assumption | with_reducible apply keeps_finishRetire | with_reducible apply keeps_post | with_reducible apply keeps_forcedShutdown
      | with_reducible apply keeps_forEach
      | fail_if_no_progress (with_reducible refine Keeps.upd ?_ (h5 := fun hh => by simpa [senseSized, upd_length, List.length_map, List.length_mapIdx] using hh) (h15 := fun hh => by simpa [relOk, relSized, upd_length, List.length_map, List.length_mapIdx] using hh))
      | with_reducible apply keeps_ite | split | intro _)

theorem keeps_stopChannels {z : State} (chs : List Nat) (s : State) (h : Keeps z s) : Keeps z (stopChannels chs s).2 := by
  unfold stopChannels
  try dsimp only
  repeat' (first
      | with_reducible assumption | with_reducible apply keeps_forcedShutdown | with_reducible apply keeps_forEach
      | fail_if_no_progress (with_reducible refine Keeps.upd ?_ (h6 := fun hh => by simpa [fltOk, fltSized, upd_length, List.length_map, List.length_mapIdx] using hh)) | with_reducible apply keeps_ite | split | intro _)
theorem keeps_stopChannels_eq {z : State} {chs : List Nat} {s : State} {xx : List Nat} {tt : State} (hee : stopChannels chs s = (xx, tt)) (h : Keeps z s) : Keeps z tt := by
  have := keeps_stopChannels chs s h
  rw [hee] at this; exact this

theorem keeps_retireMac {z : State} (r : Retirement) (s : State) (h : Keeps z s) : Keeps z (retireMac r s) := by
  unfold retireMac
  try dsimp only
  repeat' (first
      | with_reducible assumption | with_reducible apply keeps_finishRetire | with_reducible apply keeps_post | with_reducible apply keeps_stopChannels
      | fail_if_no_progress (with_reducible refine Keeps.upd ?_ (h6 := fun hh => by simpa [fltOk, fltSized, upd_length, List.length_map, List.length_mapIdx] using hh) (h15 := fun hh => by simpa [relOk, relSized, upd_length, List.length_map, List.length_mapIdx] using hh))
      | with_reducible apply keeps_ite | split | intro _)

theorem keeps_roundSwaps {z : State} (s : State) (h : Keeps z s) : Keeps z (roundSwaps s) := by
  unfold roundSwaps
  try dsimp only
  repeat' (first | with_reducible assumption | with_reducible apply keeps_retireSar | with_reducible apply keeps_retireMac | split)

theorem keeps_settleRound {z : State} (s : State) (h : Keeps z s) : Keeps z (settleRound s) := by
  unfold settleRound
  refine keeps_forEach _ _ _ h (fun _ t ht => ?_)
  dsimp only
  repeat' (first | with_reducible assumption | with_reducible apply keeps_retireSar | with_reducible apply keeps_retireMac | with_reducible apply keeps_ite | split | intro _)

theorem keeps_decideRound {z : State} (r : Retirement) (s : State) (h : Keeps z s) : Keeps z (decideRound r s) :=
  keeps_settleRound _ (keeps_decideRetire _ _ h)

theorem keeps_takeUnit {z : State} (r : Retirement) (v : Nat) (s : State) (h : Keeps z s) : Keeps z (takeUnit r v s) := by
  unfold takeUnit
  try dsimp only
  repeat' (first
      | with_reducible assumption | with_reducible apply keeps_updGroup | with_reducible apply keeps_updUnit | with_reducible apply keeps_finishRetire
      | with_reducible apply keeps_post
      | fail_if_no_progress (with_reducible refine Keeps.upd ?_ (h7 := fun hh => by simpa [pwmSized, upd_length, List.length_map, List.length_mapIdx] using hh) (h15 := fun hh => by simpa [relOk, relSized, upd_length, List.length_map, List.length_mapIdx] using hh))
      | split)

theorem keeps_arrangeUnits {z : State}  (k : Nat) : ∀ s : State, Keeps z s → Keeps z (arrangeUnits  k s) := by
  induction k with
  | zero => intro s h; unfold arrangeUnits; exact h
  | succ k ih =>
    intro s h
    unfold arrangeUnits
    try dsimp only
    repeat' (first
        | with_reducible assumption | with_reducible apply ih | with_reducible apply keeps_updUnit | with_reducible apply keeps_finishRetire
        | with_reducible apply keeps_takeUnit | with_reducible apply keeps_forcedShutdown | with_reducible apply keeps_post | with_reducible apply keeps_ite
        | split | intro _)

theorem keeps_swapUnits {z : State} (t : Nat) (s : State) (h : Keeps z s) : Keeps z (swapUnits t s) := by
  unfold swapUnits
  try dsimp only
  repeat' (first
      | with_reducible assumption | with_reducible apply keeps_arrangeUnits | with_reducible apply keeps_takeUnit
      | fail_if_no_progress (with_reducible refine Keeps.upd ?_ (h15 := fun hh => by simpa [relOk, relSized, upd_length, List.length_map, List.length_mapIdx] using hh))
      | split)

/-! ### OpsSense.lean -/

theorem keeps_updPll {z : State} (i : Nat) (f : Adpll → Adpll) (s : State) (h : Keeps z s) : Keeps z (updPll i f s) := by
  unfold updPll
  try dsimp only
  repeat' (first
      | with_reducible assumption
      | fail_if_no_progress (with_reducible refine Keeps.upd ?_ (h4 := fun hh => by simpa [clkSized, upd_length, List.length_map, List.length_mapIdx] using hh)))

theorem keeps_updOut {z : State} (i : Nat) (f : ClkOut → ClkOut) (s : State) (h : Keeps z s) : Keeps z (updOut i f s) := by
  unfold updOut
  try dsimp only
  repeat' (first
      | with_reducible assumption
      | fail_if_no_progress (with_reducible refine Keeps.upd ?_ (h4 := fun hh => by simpa [clkSized, upd_length, List.length_map, List.length_mapIdx] using hh)))

theorem keeps_updSense {z : State} (c : Nat) (f : SenseCh → SenseCh) (s : State) (h : Keeps z s) : Keeps z (updSense c f s) := by
  unfold updSense
  try dsimp only
  repeat' (first
      | with_reducible assumption
      | fail_if_no_progress (with_reducible refine Keeps.upd ?_ (h5 := fun hh => by simpa [senseSized, upd_length, List.length_map, List.length_mapIdx] using hh)))

theorem keeps_updCore {z : State} (c : Nat) (f : SarCore → SarCore) (s : State) (h : Keeps z s) : Keeps z (updCore c f s) := by
  unfold updCore
  try dsimp only
  repeat' (first
      | with_reducible assumption
      | fail_if_no_progress (with_reducible refine Keeps.upd ?_ (h5 := fun hh => by simpa [senseSized, upd_length, List.length_map, List.length_mapIdx] using hh)))

theorem keeps_updFch {z : State} (c : Nat) (f : FltCh → FltCh) (s : State) (h : Keeps z s) : Keeps z (updFch c f s) := by
  unfold updFch
  try dsimp only
  repeat' (first
      | with_reducible assumption
      | fail_if_no_progress (with_reducible refine Keeps.upd ?_ (h6 := fun hh => by simpa [fltOk, fltSized, upd_length, List.length_map, List.length_mapIdx] using hh)))

theorem keeps_unsettle {z : State} (c : Nat) (s : State) (h : Keeps z s) : Keeps z (unsettle c s) := by
  unfold unsettle
  try dsimp only
  repeat' (first | with_reducible assumption | with_reducible apply keeps_updFch)

theorem keeps_focEval {z : State} (k : Nat) (s : State) (h : Keeps z s) : Keeps z (focEval k s) := by
  unfold focEval
  try dsimp only
  repeat' (first | with_reducible assumption | with_reducible apply keeps_updFoc)

theorem keeps_mclkChanged {z : State} (g : Nat) (s : State) (h : Keeps z s) : Keeps z (mclkChanged g s) := by
  unfold mclkChanged
  try dsimp only
  repeat' (first
      | with_reducible assumption
      | with_reducible apply keeps_updFch | with_reducible apply keeps_unsettle | with_reducible apply keeps_focEval | with_reducible apply keeps_forEach | intro _ | with_reducible apply keeps_ite | split)

theorem keeps_foldRound {z : State} (t : Nat) (s : State) (h : Keeps z s) : Keeps z (foldRound t s) := by
  unfold foldRound
  try dsimp only
  repeat' (first
      | with_reducible assumption
      | fail_if_no_progress (with_reducible refine Keeps.upd ?_ (h5 := fun hh => by simpa [senseSized, upd_length, List.length_map, List.length_mapIdx] using hh))
      | with_reducible apply keeps_ite | intro _)

theorem keeps_closeWindows {z : State} (tPub : Nat) (s : State) (h : Keeps z s) : Keeps z (closeWindows tPub s) := by
  unfold closeWindows
  try dsimp only
  repeat' (first
      | with_reducible assumption | with_reducible apply keeps_foldRound
      | fail_if_no_progress (with_reducible refine Keeps.upd ?_ (h5 := fun hh => by simpa [senseSized, upd_length, List.length_map, List.length_mapIdx] using hh)))

theorem keeps_coefChanged {z : State} (c : Nat) (s : State) (h : Keeps z s) : Keeps z (coefChanged c s) := by
  unfold coefChanged
  try dsimp only
  repeat' (first
      | with_reducible assumption | with_reducible apply keeps_updCmp
      | fail_if_no_progress (with_reducible refine Keeps.upd ?_ (h5 := fun hh => by simpa [senseSized, upd_length, List.length_map, List.length_mapIdx] using hh))
      | with_reducible apply keeps_ite | intro _ | split)

/-! ### OpsField.lean -/

theorem keeps_updField {z : State} (f : Field → Field) (s : State) (h : Keeps z s) (hf : ∀ c, fieldSized c → fieldSized (f c)) : Keeps z (updField f s) := by
  unfold updField
  exact Keeps.upd h (h10 := hf _)

theorem keeps_freePullin {z : State} (o : Nat) (s : State) (h : Keeps z s) : Keeps z (freePullin o s) := by
  unfold freePullin
  try dsimp only
  repeat' (first | with_reducible assumption | with_reducible apply keeps_servePullin | fail_if_no_progress (with_reducible refine Keeps.upd ?_) | with_reducible apply keeps_ite | split | intro _)

theorem keeps_outDrive {z : State} (o : Nat) (want safe : Bool) (s : State) (h : Keeps z s) : Keeps z (outDrive o want safe s) := by
  unfold outDrive
  try dsimp only
  repeat' (first
      | with_reducible assumption
      | fail_if_no_progress (with_reducible refine Keeps.upd ?_) | with_reducible apply keeps_freePullin | with_reducible apply keeps_updOutput | with_reducible apply keeps_updField
      | with_reducible apply keeps_outputStops | (show fieldSized _; (repeat' split) <;> simp_all [fieldSized, upd_length]) | with_reducible apply keeps_ite
      | split | intro _)

theorem keeps_applySafeStates {z : State} (s : State) (h : Keeps z s) : Keeps z (applySafeStates s) := by
  unfold applySafeStates
  try dsimp only
  repeat' (first | with_reducible assumption | with_reducible apply keeps_outDrive | with_reducible apply keeps_forEach | intro _)

theorem keeps_outCommand {z : State} (f : DownFrame) (o : Nat) (s : State) (h : Keeps z s) : Keeps z (outCommand f o s) := by
  unfold outCommand
  try dsimp only
  repeat' (first
      | with_reducible assumption
      | fail_if_no_progress (with_reducible refine Keeps.upd ?_) | with_reducible apply keeps_updOutput | with_reducible apply keeps_outDrive | with_reducible apply keeps_ite | split
      | intro _)

theorem keeps_latchFault {z : State} (o kind : Nat) (current : F32) (s : State) (h : Keeps z s) : Keeps z (latchFault o kind current s) := by
  unfold latchFault
  try dsimp only
  repeat' (first
      | with_reducible assumption
      | fail_if_no_progress (with_reducible refine Keeps.upd ?_) | with_reducible apply keeps_post | with_reducible apply keeps_updOutput | with_reducible apply keeps_outDrive
      | with_reducible apply keeps_ite | split | intro _)

theorem keeps_writeRefused {z : State} (o n why : Nat) (s : State) (h : Keeps z s) : Keeps z (writeRefused o n why s) := by
  unfold writeRefused
  try dsimp only
  repeat' (first | with_reducible assumption | with_reducible apply keeps_postMerge)

theorem keeps_writeOff {z : State} (o : Nat) (s : State) (h : Keeps z s) : Keeps z (writeOff o s) := by
  unfold writeOff
  try dsimp only
  repeat' (first
      | with_reducible assumption | with_reducible apply keeps_servePullin | with_reducible apply keeps_commandOff
      | with_reducible apply keeps_removeOutputStart)

theorem keeps_fieldOutAct {z : State} (n o : Nat) (on : Bool) (s : State) (h : Keeps z s) : Keeps z (fieldOutAct n o on s) := by
  unfold fieldOutAct
  try dsimp only
  repeat' (first
      | with_reducible assumption | with_reducible apply keeps_writeRefused | with_reducible apply keeps_writeOff | with_reducible apply keeps_commandOn
      | fail_if_no_progress (with_reducible refine Keeps.upd ?_) | with_reducible apply keeps_ite | split | intro _)

theorem keeps_countEdge {z : State} (n : Nat) (lvl : Bool) (now : Nat) (s : State) (h : Keeps z s) : Keeps z (countEdge n lvl now s) := by
  unfold countEdge
  try dsimp only
  repeat' (first
      | with_reducible assumption | with_reducible apply keeps_draw | with_reducible apply keeps_updInput | fail_if_no_progress (with_reducible refine Keeps.upd ?_)
      | with_reducible apply keeps_ite | split | intro _)

theorem keeps_rawChange {z : State} (n : Nat) (lvl : Bool) (edge now : Nat) (s : State) (h : Keeps z s) : Keeps z (rawChange n lvl edge now s) := by
  unfold rawChange
  try dsimp only
  repeat' (first
      | with_reducible assumption | with_reducible apply keeps_updInput | with_reducible apply keeps_countEdge
      | fail_if_no_progress (with_reducible refine Keeps.upd ?_) | with_reducible apply keeps_ite | split | intro _)

theorem keeps_fastEdge {z : State} (n : Nat) (lvl : Bool) (s : State) (h : Keeps z s) : Keeps z (fastEdge n lvl s) := by
  unfold fastEdge
  try dsimp only
  repeat' (first
      | with_reducible assumption | with_reducible apply keeps_countEdge | with_reducible apply keeps_ite | split | intro _)

theorem keeps_sampleInput {z : State} (r : Nat) (n : Nat) (s : State) (h : Keeps z s) : Keeps z (sampleInput r n s) := by
  unfold sampleInput
  try dsimp only
  repeat' (first
      | with_reducible assumption | with_reducible apply keeps_rawChange | with_reducible apply keeps_ite | split | intro _)

theorem keeps_followSupply {z : State} (was : Bool) (s : State) (h : Keeps z s) : Keeps z (followSupply was s) := by
  unfold followSupply
  try dsimp only
  repeat' (first
      | with_reducible assumption | with_reducible apply keeps_forEach | with_reducible apply keeps_fastEdge | with_reducible apply keeps_rawChange
      | with_reducible apply keeps_updInput | with_reducible apply keeps_sampleInput | fail_if_no_progress (with_reducible refine Keeps.upd ?_)
      | with_reducible apply keeps_ite | split | intro _)

theorem keeps_seeInput {z : State} (n : Nat) (s : State) (h : Keeps z s) : Keeps z (seeInput n s) := by
  unfold seeInput
  try dsimp only
  repeat' (first
      | with_reducible assumption
      | with_reducible apply keeps_sampleInput
      | with_reducible apply keeps_fastEdge | with_reducible apply keeps_updInput | with_reducible apply keeps_draw | fail_if_no_progress (with_reducible refine Keeps.upd ?_)
      | with_reducible apply keeps_ite | split | intro _)

theorem keeps_dieConfig {z : State} (c : DieConf) (s : State) (h : Keeps z s) : Keeps z (dieConfig c s) := by
  unfold dieConfig
  try dsimp only
  repeat' (first
      | with_reducible assumption
      | with_reducible apply keeps_sampleInput
      | with_reducible apply keeps_followSupply
      | with_reducible apply keeps_seeInput
      | with_reducible apply keeps_countEdge
      | with_reducible apply keeps_forEach
      | fail_if_no_progress (with_reducible refine Keeps.upd ?_) | with_reducible apply keeps_updInput | with_reducible apply keeps_updOutput | with_reducible apply keeps_updField
      | (show fieldSized _; (repeat' split) <;> simp_all [fieldSized, upd_length]) | split | intro _ | with_reducible apply keeps_ite)

theorem keeps_settleLanes {z : State} (s : State) (h : Keeps z s) : Keeps z (settleLanes s) := by
  unfold settleLanes
  try dsimp only
  repeat' (first
      | with_reducible assumption | with_reducible apply keeps_finishRetire | with_reducible apply keeps_updField
      | (show fieldSized _; (repeat' split) <;> simp_all [fieldSized, upd_length])
      | fail_if_no_progress (with_reducible refine Keeps.upd ?_ (h15 := fun hh => by simpa [relOk, relSized, upd_length, List.length_map, List.length_mapIdx] using hh))
      | with_reducible apply keeps_ite | split | intro _)

theorem keeps_laneError {z : State} (lane dir : Nat) (s : State) (h : Keeps z s) : Keeps z (laneError lane dir s) := by
  unfold laneError
  try dsimp only
  repeat' (first
      | with_reducible assumption | with_reducible apply keeps_updField | with_reducible apply keeps_postMerge | with_reducible apply keeps_settleLanes
      | with_reducible apply keeps_decideRetire | with_reducible apply keeps_transient
      | (show fieldSized _; (repeat' split) <;> simp_all [fieldSized, upd_length]) | with_reducible apply keeps_ite | intro _)

theorem keeps_swapLane {z : State} (s : State) (h : Keeps z s) : Keeps z (swapLane s) := by
  unfold swapLane
  try dsimp only
  repeat' (first
      | with_reducible assumption | with_reducible apply keeps_updField | with_reducible apply keeps_settleLanes | with_reducible apply keeps_finishRetire
      | with_reducible apply keeps_post | (show fieldSized _; (repeat' split) <;> simp_all [fieldSized, upd_length])
      | fail_if_no_progress (with_reducible refine Keeps.upd ?_ (h15 := fun hh => by simpa [relOk, relSized, upd_length, List.length_map, List.length_mapIdx] using hh))
      | split | intro _)

theorem keeps_updCont {z : State} (ch : Nat) (f : List ContMon → List ContMon) (s : State) (h : Keeps z s) (hf : ∀ l, (f l).length = l.length) : Keeps z (updCont ch f s) := by
  unfold updCont
  exact keeps_ite (fun _ => Keeps.upd h (h9 := fun hh => by simpa [safeSized, hf] using hh)) (fun _ => Keeps.upd h (h9 := fun hh => by simpa [safeSized, hf] using hh))

theorem keeps_contStep {z : State} (ch : Nat) (applied : Byte) (now : Nat) (s : State) (h : Keeps z s) : Keeps z (contStep ch applied now s) := by
  unfold contStep
  exact keeps_foldl _ _ _ h (fun t c k => keeps_updCont _ _ _ k (fun l => by simp [upd_length]))

theorem keeps_safetyFrame {z : State} (u : UpFrame) (before : Option UpFrame) (s0 : State) (h : Keeps z s0) : Keeps z (safetyFrame u before s0) := by
  unfold safetyFrame
  extract_lets +onlyGivenNames fr q1 q2 s
  have h0 : Keeps z s := Keeps.upd h (h9 := fun hh => by simpa [safeSized] using hh)
  clear_value s
  split
  · exact h0
  · extract_lets +onlyGivenNames src pulsed msk dt begun q3 s1 q4 s2
    have hb : ∀ l, (begun l).length = l.length := fun l => by simp [begun]
    have h1 : Keeps z s1 := by
      simp only [s1]
      split
      · exact keeps_updBoth _ _ (keeps_updCont _ _ _ (keeps_updCont _ _ _ (Keeps.upd h0 (h9 := fun hh => by simpa [safeSized] using hh)) hb) hb)
      · exact keeps_updBoth _ _ h0
    clear_value s1 src
    have h2 : Keeps z s2 := by
      simp only [s2]
      split
      · refine Keeps.upd h1 (h9 := fun hh => ?_)
        unfold windowFrame
        simp only [safeSized, q4] at hh ⊢
        (repeat' split) <;> simp_all [upd_length]
      · exact h1
    clear_value s2
    exact keeps_forEach _ _ _ h2 (fun _ _ k => keeps_contStep _ _ _ _ k)

/-! ### OpsForm.lean -/

theorem keeps_fuStart {z : State} (u : Nat) (f : FuFeed) (s : State) (h : Keeps z s) : Keeps z (fuStart u f s) := by
  unfold fuStart
  try dsimp only
  repeat' (first | with_reducible assumption | with_reducible apply keeps_updFu)

theorem keeps_fuDeliver {z : State} (u : Nat) (vals : List U32) (f : Frame) (n : Nat) (s : State) (h : Keeps z s) : Keeps z (fuDeliver u vals f n s) := by
  unfold fuDeliver
  try dsimp only
  repeat' (first
      | with_reducible assumption
      | fail_if_no_progress (with_reducible refine Keeps.upd ?_) | with_reducible apply keeps_updFu | with_reducible apply keeps_fuStart | with_reducible apply keeps_ite | split | intro _)

/-! ### OpsCan.lean -/

theorem keeps_updCan {z : State} (p : Nat) (f : CanPort → CanPort) (s : State) (h : Keeps z s) : Keeps z (updCan p f s) := by
  unfold updCan
  try dsimp only
  repeat' (first
      | with_reducible assumption
      | fail_if_no_progress (with_reducible refine Keeps.upd ?_ (h13 := fun hh => by simpa [canOk, upd_length, List.length_map, List.length_mapIdx] using hh)))

theorem keeps_canWrite {z : State} (a : Nat) (b : Bytes) (s : State) (h : Keeps z s) : Keeps z (canWrite a b s) := by
  unfold canWrite
  try dsimp only
  repeat' (first
      | with_reducible assumption
      | fail_if_no_progress (with_reducible refine Keeps.upd ?_ (h13 := fun hh => by (repeat' split) <;> simp_all [canOk, upd_length, List.length_map, List.length_mapIdx, memWrite_wf, memWriteBytes_wf, memClear_wf])))

theorem keeps_setEntryStatus {z : State} (a st : Nat) (s : State) (h : Keeps z s) : Keeps z (setEntryStatus a st s) := by
  unfold setEntryStatus
  try dsimp only
  repeat' (first | with_reducible assumption | with_reducible apply keeps_canWrite)

theorem keeps_canChange {z : State} (p : Nat) (f : CanPort → CanPort) (s : State) (h : Keeps z s) : Keeps z (canChange p f s) := by
  unfold canChange
  try dsimp only
  repeat' (first | with_reducible assumption | with_reducible apply keeps_updCan | with_reducible apply keeps_post | with_reducible apply keeps_ite | intro _)

theorem keeps_txOutcome {z : State} (p e st : Nat) (s : State) (h : Keeps z s) : Keeps z (txOutcome p e st s) := by
  unfold txOutcome
  try dsimp only
  repeat' (first
      | with_reducible assumption | with_reducible apply keeps_setEntryStatus | with_reducible apply keeps_updCan | with_reducible apply keeps_post
      | with_reducible apply keeps_ite | intro _)

theorem keeps_canStop {z : State} (p : Nat) (s : State) (h : Keeps z s) : Keeps z (canStop p s) := by
  unfold canStop
  try dsimp only
  repeat' (first
      | with_reducible assumption | with_reducible apply keeps_updCan | with_reducible apply keeps_txOutcome | with_reducible apply keeps_canChange
      | with_reducible apply keeps_forEach
      | fail_if_no_progress (with_reducible refine Keeps.upd ?_ (h13 := fun hh => by simpa [canOk, upd_length, List.length_map, List.length_mapIdx] using hh))
      | intro _)

theorem keeps_canCounters {z : State} (p tec recv : Nat) (s : State) (h : Keeps z s) : Keeps z (canCounters p tec recv s) := by
  unfold canCounters
  try dsimp only
  repeat' (first
      | with_reducible assumption
      | fail_if_no_progress (with_reducible refine Keeps.upd ?_) | with_reducible apply keeps_canChange | with_reducible apply keeps_canStop | with_reducible apply keeps_ite | split | intro _)

theorem keeps_queueTap {z : State} (t : TxTap) (data : Bytes) (s : State) (h : Keeps z s) : Keeps z (queueTap t data s) := by
  unfold queueTap
  try dsimp only
  repeat' (first | with_reducible assumption | with_reducible apply keeps_canWrite | with_reducible apply keeps_updCan)

theorem keeps_tapDropped {z : State} (p tap reason : Nat) (s : State) (h : Keeps z s) : Keeps z (tapDropped p tap reason s) := by
  unfold tapDropped
  try dsimp only
  repeat' (first | with_reducible assumption | with_reducible apply keeps_updCan | with_reducible apply keeps_postMerge)

theorem keeps_updTxTap {z : State} (j : Nat) (f : TxTap → TxTap) (s : State) (h : Keeps z s) : Keeps z (updTxTap j f s) := by
  unfold updTxTap
  try dsimp only
  repeat' (first
      | with_reducible assumption
      | fail_if_no_progress (with_reducible refine Keeps.upd ?_ (h13 := fun hh => by simpa [canOk, upd_length, List.length_map, List.length_mapIdx] using hh)))

theorem keeps_canTxAct {z : State} (j : Nat) (vals : List U32) (s : State) (h : Keeps z s) : Keeps z (canTxAct j vals s) := by
  unfold canTxAct
  try dsimp only
  repeat' (first
      | with_reducible assumption | with_reducible apply keeps_tapDropped | with_reducible apply keeps_updCan | with_reducible apply keeps_updTxTap
      | with_reducible apply keeps_canWrite | with_reducible apply keeps_queueTap | with_reducible apply keeps_ite | split | intro _)

theorem keeps_tapNext {z : State} (p e : Nat) (s : State) (h : Keeps z s) : Keeps z (tapNext p e s) := by
  unfold tapNext
  try dsimp only
  repeat' (first | with_reducible assumption | with_reducible apply keeps_queueTap | with_reducible apply keeps_updTxTap | split)

theorem keeps_attemptFailed {z : State} (p : Nat) (s : State) (h : Keeps z s) : Keeps z (attemptFailed p s) := by
  unfold attemptFailed
  try dsimp only
  repeat' (first
      | with_reducible assumption | with_reducible apply keeps_updCan | with_reducible apply keeps_tapNext | with_reducible apply keeps_txOutcome
      | with_reducible apply keeps_ite | split | intro _)

theorem keeps_canClockLost {z : State} (s : State) (h : Keeps z s) : Keeps z (canClockLost s) := by
  unfold canClockLost
  try dsimp only
  repeat' (first
      | with_reducible assumption | with_reducible apply keeps_updCan | with_reducible apply keeps_attemptFailed | with_reducible apply keeps_forEach | split
      | intro _)

/-! ### OpsSched.lean -/

theorem keeps_advanceQ {z : State} (q : Nat) (s : State) (h : Keeps z s) : Keeps z (advanceQ q s) := by
  unfold advanceQ
  try dsimp only
  repeat' (first | with_reducible assumption | with_reducible apply keeps_advanceTo)

theorem keeps_updFrame {z : State} (n : Nat) (idx : U32) (f : Frame → Frame) (s : State) (h : Keeps z s) : Keeps z (updFrame n idx f s) := by
  unfold updFrame
  try dsimp only
  repeat' (first | with_reducible assumption | with_reducible apply keeps_updStage)

theorem keeps_setNodeInst {z : State} (k : Nat) (i : Inst) (s : State) (h : Keeps z s) : Keeps z (setNodeInst k i s) := by
  unfold setNodeInst
  try dsimp only
  repeat' (first
      | with_reducible assumption
      | fail_if_no_progress (with_reducible refine Keeps.upd ?_ (h3 := fun hh => hh) (h8 := fun hh => by simpa [loopOk, loopSized, upd_length, List.length_map, List.length_mapIdx] using hh)))

theorem keeps_dropInst {z : State} (k : Nat) (s : State) (h : Keeps z s) : Keeps z (dropInst k s) := by
  unfold dropInst
  try dsimp only
  repeat' (first
      | with_reducible assumption
      | fail_if_no_progress (with_reducible refine Keeps.upd ?_ (h3 := fun hh => hh) (h8 := fun hh => by simpa [loopOk, loopSized, upd_length, List.length_map, List.length_mapIdx] using hh)))

theorem keeps_checkComplete {z : State} (n : Nat) (idx : U32) (q : Nat) (s : State) (h : Keeps z s) : Keeps z (checkComplete n idx q s) := by
  unfold checkComplete
  try dsimp only
  repeat' (first
      | with_reducible assumption | with_reducible apply keeps_updFrame | fail_if_no_progress (with_reducible refine Keeps.upd ?_) | with_reducible apply keeps_ite
      | split | intro _)

theorem keeps_postCompletion {z : State} (e q : Nat) (c : Completion) (s : State) (h : Keeps z s) : Keeps z (postCompletion e q c s) := by
  unfold postCompletion
  try dsimp only
  repeat' (first
      | with_reducible assumption
      | fail_if_no_progress (with_reducible refine Keeps.upd ?_) | with_reducible apply keeps_dropInst | with_reducible apply keeps_checkComplete | with_reducible apply keeps_updEngine
      | with_reducible apply keeps_ite | split | intro _)

theorem keeps_endInst {z : State} (k : Nat) (i : Inst) (q : Nat) (skip : Bool) (s : State) (h : Keeps z s) : Keeps z (endInst k i q skip s) := by
  unfold endInst
  try dsimp only
  repeat' (first
      | with_reducible assumption
      | fail_if_no_progress (with_reducible refine Keeps.upd ?_) | with_reducible apply keeps_postCompletion | with_reducible apply keeps_setNodeInst | with_reducible apply keeps_updEngine
      | with_reducible apply keeps_ite | intro _ | split)

theorem keeps_countExceptions {z : State} (n : Nat) (l : List (Nat × Nat)) (s : State) (h : Keeps z s) : Keeps z (countExceptions n l s) := by
  unfold countExceptions
  try dsimp only
  repeat' (first | with_reducible assumption | with_reducible apply keeps_updStage | with_reducible apply keeps_postMerge | with_reducible apply keeps_foldl | intro _)

theorem keeps_becomeDue {z : State} (k : Nat) (q : Nat) (port : Option Nat) (s0 : State) (h : Keeps z s0) : Keeps z (becomeDue k q port s0).2 := by
  unfold becomeDue
  try dsimp only
  repeat' (first
      | with_reducible assumption | with_reducible apply keeps_countExceptions | with_reducible apply keeps_dropInst | with_reducible apply keeps_endInst
      | with_reducible apply keeps_setNodeInst | with_reducible apply keeps_takeSlot | with_reducible apply keeps_updStage
      | fail_if_no_progress (with_reducible refine Keeps.upd ?_) | with_reducible apply keeps_ite | split | intro _)

theorem keeps_becomeDue_eq {z : State} {k : Nat} {q : Nat} {port : Option Nat} {s : State} {xx : Bool} {tt : State} (hee : becomeDue k q port s = (xx, tt)) (h : Keeps z s) : Keeps z tt := by
  have := keeps_becomeDue k q port s h
  rw [hee] at this; exact this

theorem keeps_decrement {z : State} (n : Nat) (idx : U32) (node q : Nat) (port : Option Nat) (s : State) (h : Keeps z s) : Keeps z (decrement n idx node q port s).2 := by
  unfold decrement
  try dsimp only
  repeat' (first | with_reducible assumption | with_reducible apply keeps_setNodeInst | with_reducible apply keeps_becomeDue | split)
theorem keeps_decrement_eq {z : State} {n : Nat} {idx : U32} {node q : Nat} {port : Option Nat} {s : State} {xx : Bool} {tt : State} (hee : decrement n idx node q port s = (xx, tt)) (h : Keeps z s) : Keeps z tt := by
  have := keeps_decrement n idx node q port s h
  rw [hee] at this; exact this

theorem keeps_channelUsable {z : State} (n : Nat) (idx : U32) (c q : Nat) (s : State) (h : Keeps z s) : Keeps z (channelUsable n idx c q s) := by
  unfold channelUsable
  try dsimp only
  repeat' (first | with_reducible assumption | with_reducible apply keeps_decrement | with_reducible apply keeps_forEach | intro _)

theorem keeps_openInsts {z : State} (n : Nat) (f : Frame) (s : State) (h : Keeps z s) : Keeps z (openInsts n f s) := by
  unfold openInsts
  try dsimp only
  repeat' (first
      | with_reducible assumption
      | with_reducible apply keeps_checkComplete | with_reducible apply keeps_becomeDue | with_reducible apply keeps_forEach
      | fail_if_no_progress (with_reducible refine Keeps.upd ?_ (h3 := fun hh => hh) (h8 := fun hh => by simpa [loopOk, loopSized, upd_length, List.length_map, List.length_mapIdx] using hh))
      | split | intro _ | with_reducible apply keeps_ite)

theorem keeps_openFrame {z : State} (n : Nat) (f0 : Frame) (s : State) (h : Keeps z s) : Keeps z (openFrame n f0 s) := by
  unfold openFrame
  try dsimp only
  repeat' (first
      | with_reducible assumption
      | fail_if_no_progress (with_reducible refine Keeps.upd ?_) | with_reducible apply keeps_openInsts | with_reducible apply keeps_updStage | with_reducible apply keeps_ite | split | intro _)

theorem keeps_reopenFrame {z : State} (n : Nat) (f : Frame) (s : State) (h : Keeps z s) : Keeps z (reopenFrame n f s) := by
  unfold reopenFrame
  try dsimp only
  repeat' (first | with_reducible assumption | with_reducible apply keeps_openFrame)

theorem keeps_squashFrom {z : State} (n : Nat) (idx : U32) (s : State) (h : Keeps z s) : Keeps z (squashFrom n idx s) := by
  unfold squashFrom
  try dsimp only
  repeat' (first | with_reducible assumption | with_reducible apply keeps_squash)

theorem keeps_missFrame {z : State} (n cause : Nat) (f : Frame) (s : State) (h : Keeps z s) : Keeps z (missFrame n cause f s) := by
  unfold missFrame
  try dsimp only
  repeat' (first | with_reducible assumption | with_reducible apply keeps_reopenFrame | with_reducible apply keeps_updStage | with_reducible apply keeps_squashFrom)

theorem keeps_deliverSample {z : State} (n c : Nat) (v : F32) (q : Nat) (f : Frame) (s : State) (h : Keeps z s) : Keeps z (deliverSample n c v q f s) := by
  unfold deliverSample
  try dsimp only
  repeat' (first
      | with_reducible assumption
      | fail_if_no_progress (with_reducible refine Keeps.upd ?_) | with_reducible apply keeps_updFrame | with_reducible apply keeps_missFrame | with_reducible apply keeps_updStage
      | with_reducible apply keeps_channelUsable | with_reducible apply keeps_ite | split | intro _)

theorem keeps_testUsable {z : State} (n : Nat) (idx : U32) (s : State) (h : Keeps z s) : Keeps z (testUsable n idx s) := by
  unfold testUsable
  try dsimp only
  repeat' (first
      | with_reducible assumption | with_reducible apply keeps_forEach | with_reducible apply keeps_deliverSample | with_reducible apply keeps_ite | split | intro _)

theorem keeps_openAhead {z : State} (n : Nat) (s : State) (h : Keeps z s) : Keeps z (openAhead n s) := by
  unfold openAhead
  try dsimp only
  repeat' (first
      | with_reducible assumption
      | with_reducible apply keeps_testUsable
      | with_reducible apply keeps_foldl_fst
      | with_reducible apply keeps_foldl_snd | with_reducible apply keeps_openFrame | with_reducible apply keeps_foldl | with_reducible apply keeps_ite | split | intro _)

theorem keeps_performAct {z : State} (n node : Nat) (idx : U32) (a : EffAct) (s : State) (h : Keeps z s) : Keeps z (performAct n node idx a s) := by
  unfold performAct
  try dsimp only
  repeat' (first
      | with_reducible assumption | with_reducible apply keeps_postMergeWith | with_reducible apply keeps_fieldOutAct
      | with_reducible apply keeps_normalShutdown | with_reducible apply keeps_post | with_reducible apply keeps_canTxAct | with_reducible apply keeps_capWrite
      | with_reducible apply keeps_ite | split | intro _)

theorem keeps_stopCheck {z : State} (k : Nat) (s : State) (h : Keeps z s) : Keeps z (stopCheck k s) := by
  unfold stopCheck
  try dsimp only
  repeat' (first
      | with_reducible assumption
      | fail_if_no_progress (with_reducible refine Keeps.upd ?_ (h8 := fun hh => by simpa [loopOk, loopSized, upd_length, List.length_map, List.length_mapIdx] using hh)) | with_reducible apply keeps_ite | split | intro _)

theorem keeps_takeOver {z : State} (e p : Nat) (s : State) (h : Keeps z s) : Keeps z (takeOver e p s) := by
  unfold takeOver
  try dsimp only
  repeat' (first
      | with_reducible assumption | with_reducible apply keeps_updEngine | with_reducible apply keeps_updStage | with_reducible apply keeps_stopCheck
      | with_reducible apply keeps_forEach | split | intro _)

theorem keeps_swapIdleEngine {z : State} (r : Retirement) (s : State) (h : Keeps z s) : Keeps z (swapIdleEngine r s) := by
  unfold swapIdleEngine
  try dsimp only
  repeat' (first
      | with_reducible assumption | with_reducible apply keeps_finishRetire | with_reducible apply keeps_stopCheck | with_reducible apply keeps_updEngine
      | with_reducible apply keeps_takeOver | with_reducible apply keeps_post | with_reducible apply keeps_forcedShutdown | with_reducible apply keeps_ite
      | split | intro _)

theorem keeps_settleEngines {z : State}  (k : Nat) : ∀ s : State, Keeps z s → Keeps z (settleEngines  k s) := by
  induction k with
  | zero => intro s h; unfold settleEngines; exact h
  | succ k ih =>
    intro s h
    unfold settleEngines
    try dsimp only
    repeat' (first | with_reducible assumption | with_reducible apply ih | with_reducible apply keeps_swapIdleEngine | with_reducible apply keeps_ite | split | intro _)

theorem keeps_settleIdle {z : State} (s : State) (h : Keeps z s) : Keeps z (settleIdle s) := by
  unfold settleIdle
  try dsimp only
  repeat' (first | with_reducible assumption | with_reducible apply keeps_arrangeUnits | with_reducible apply keeps_settleEngines)

/-! ### Pwm.lean -/

theorem keeps_stageGate {z : State} (s : State) (n : Nat) (hk0 : Keeps z s) (x : CardResult) (hx : stageGate s n = some x) : KeepsCard z x := by
  unfold stageGate at hx
  try dsimp only at hx
  repeat' (first | cases hx | exact trivial | split at hx)

theorem keeps_stageGate2 {z : State} (s : State) (a b : Option Nat) (hk0 : Keeps z s) (x : CardResult) (hx : stageGate2 s a b = some x) : KeepsCard z x := by
  unfold stageGate2 at hx
  dsimp only at hx
  split at hx
  · obtain ⟨n, -, hn⟩ := List.exists_of_findSome?_eq_some hx
    exact keeps_stageGate s n hk0 _ hn
  · cases hx; exact trivial

theorem keeps_timerRun {z : State} (s : State) (r : Req) (hk0 : Keeps z s) : KeepsCard z (timerRun s r) := by
  unfold timerRun
  try dsimp only
  repeat' (first
      | with_reducible assumption
      | fail_if_no_progress (with_reducible refine Keeps.upd ?_) | exact trivial | with_reducible apply kc_done | with_reducible apply keeps_updTimer
      | (exact keeps_stageGate2 _ _ _ (by assumption) _ (by with_reducible assumption)) | with_reducible apply kc_ite | split | intro _ | with_reducible apply keeps_ite)

theorem keeps_timerQueryRun {z : State} (s : State) (r : Req) (hk0 : Keeps z s) : KeepsCard z (timerQueryRun s r) := by
  unfold timerQueryRun
  try dsimp only
  repeat' (first | with_reducible assumption | exact trivial | with_reducible apply kc_done | with_reducible apply kc_ite | intro _ | with_reducible apply keeps_ite | split)

theorem keeps_pwmCard {z : State} (f : State → Req → CardResult) (hf : ∀ s r, Keeps z s → KeepsCard z (f s r)) : ∀ s r, Keeps z s → KeepsCard z ((pwmCard f).run s r) := by
  intro s r hk0
  unfold pwmCard
  dsimp only
  repeat' (with_reducible exact hf _ _ hk0)

theorem keeps_execPwmTimer {z : State} (via : Transport) (s : State) (hk0 : Keeps z s) : KeepsNext z (execPwmTimer via s) := by
  unfold execPwmTimer
  try dsimp only
  repeat' (first
      | with_reducible assumption | with_reducible apply kn_next | with_reducible apply keeps_runCard | with_reducible apply keeps_pwmCard
      | with_reducible apply keeps_timerRun)

theorem keeps_execPwmTimerQuery {z : State} (via : Transport) (s : State) (hk0 : Keeps z s) : KeepsNext z (execPwmTimerQuery via s) := by
  unfold execPwmTimerQuery
  try dsimp only
  repeat' (first
      | with_reducible assumption | with_reducible apply kn_next | with_reducible apply keeps_runCard | with_reducible apply keeps_pwmCard
      | with_reducible apply keeps_timerQueryRun)

theorem keeps_freeChannel {z : State} (c : Nat) (s : State) (h : Keeps z s) : Keeps z (freeChannel c s) := by
  unfold freeChannel
  try dsimp only
  repeat' (first
      | with_reducible assumption
      | fail_if_no_progress (with_reducible refine Keeps.upd ?_) | with_reducible apply keeps_updChan | split | with_reducible apply keeps_ite | intro _)

theorem keeps_channelRun {z : State} (s : State) (r : Req) (hk0 : Keeps z s) : KeepsCard z (channelRun s r) := by
  unfold channelRun
  extract_lets +onlyGivenNames p c g gs
  clear_value p c g gs
  refine kc_ite (fun _ => trivial) (fun _ => ?_)
  split
  · exact keeps_stageGate2 _ _ _ hk0 _ (by assumption)
  · extract_lets +onlyGivenNames pr par x ranges
    clear_value pr par x ranges
    refine kc_ite (fun _ => trivial) (fun _ => ?_)
    refine kc_ite (fun _ => ?_) (fun _ => ?_)
    · exact kc_ite (fun _ => trivial) (fun _ => keeps_freeChannel _ _ hk0)
    · extract_lets +onlyGivenNames n f parOk
      refine kc_ite (fun _ => trivial) (fun _ => ?_)
      extract_lets +onlyGivenNames s1 s2 s3
      have h1 : Keeps z s1 := by
        simp only [s1]
        split
        · split
          · exact hk0
          · exact keeps_updChan _ _ _ hk0
        · exact hk0
      clear_value s1
      have h2 : Keeps z s2 := keeps_updChan _ _ _ h1
      clear_value s2
      have h3 : Keeps z s3 := by
        simp only [s3]
        split
        · exact keeps_updChan _ _ _ h2
        · exact h2
      exact kc_ite (fun _ => trivial) (fun _ => h3)

theorem keeps_execPwmChannelChannel {z : State} (via : Transport) (s : State) (hk0 : Keeps z s) : KeepsNext z (execPwmChannelChannel via s) := by
  unfold execPwmChannelChannel
  try dsimp only
  repeat' (first
      | with_reducible assumption | with_reducible apply kn_next | with_reducible apply keeps_runCard | with_reducible apply keeps_pwmCard
      | with_reducible apply keeps_channelRun)

theorem keeps_groupRun {z : State} (s : State) (r : Req) (hk0 : Keeps z s) : KeepsCard z (groupRun s r) := by
  unfold groupRun
  try dsimp only
  repeat' (first
      | with_reducible assumption
      | fail_if_no_progress (with_reducible refine Keeps.upd ?_) | exact trivial | with_reducible apply kc_done | with_reducible apply keeps_updGroup
      | (exact keeps_stageGate2 _ _ _ (by assumption) _ (by with_reducible assumption)) | with_reducible apply kc_ite | split | intro _ | with_reducible apply keeps_ite)

theorem keeps_execPwmChannelGroup {z : State} (via : Transport) (s : State) (hk0 : Keeps z s) : KeepsNext z (execPwmChannelGroup via s) := by
  unfold execPwmChannelGroup
  try dsimp only
  repeat' (first
      | with_reducible assumption | with_reducible apply kn_next | with_reducible apply keeps_runCard | with_reducible apply keeps_pwmCard
      | with_reducible apply keeps_groupRun)

theorem keeps_channelQueryRun {z : State} (s : State) (r : Req) (hk0 : Keeps z s) : KeepsCard z (channelQueryRun s r) := by
  unfold channelQueryRun
  try dsimp only
  repeat' (first | with_reducible assumption | exact trivial | with_reducible apply kc_done | with_reducible apply kc_ite | intro _)

theorem keeps_execPwmChannelQuery {z : State} (via : Transport) (s : State) (hk0 : Keeps z s) : KeepsNext z (execPwmChannelQuery via s) := by
  unfold execPwmChannelQuery
  try dsimp only
  repeat' (first
      | with_reducible assumption | with_reducible apply kn_next | with_reducible apply keeps_runCard | with_reducible apply keeps_pwmCard
      | with_reducible apply keeps_channelQueryRun)

theorem keeps_enableRun {z : State} (on : Bool) (s : State) (r : Req) (hk0 : Keeps z s) : KeepsCard z (enableRun on s r) := by
  unfold enableRun
  try dsimp only
  repeat' (first
      | with_reducible assumption | exact trivial | with_reducible apply kc_done | with_reducible apply keeps_updChan | with_reducible apply keeps_forEach
      | with_reducible apply kc_ite | split | intro _)

theorem keeps_execPwmEnable {z : State} (via : Transport) (s : State) (hk0 : Keeps z s) : KeepsNext z (execPwmEnable via s) := by
  unfold execPwmEnable
  try dsimp only
  repeat' (first
      | with_reducible assumption | with_reducible apply kn_next | with_reducible apply keeps_runCard | with_reducible apply keeps_pwmCard
      | with_reducible apply keeps_enableRun)

theorem keeps_execPwmDisable {z : State} (via : Transport) (s : State) (hk0 : Keeps z s) : KeepsNext z (execPwmDisable via s) := by
  unfold execPwmDisable
  try dsimp only
  repeat' (first
      | with_reducible assumption | with_reducible apply kn_next | with_reducible apply keeps_runCard | with_reducible apply keeps_pwmCard
      | with_reducible apply keeps_enableRun)

theorem keeps_stageSet {z : State} (g : Nat) (c : CompareSet) (s : State) (h : Keeps z s) : Keeps z (stageSet g c s) := by
  unfold stageSet
  try dsimp only
  repeat' (first
      | with_reducible assumption | with_reducible apply keeps_updGroup | with_reducible apply keeps_ite | split | intro _)

theorem keeps_writeGroupRun {z : State} (s : State) (r : Req) (hk0 : Keeps z s) : KeepsCard z (writeGroupRun s r) := by
  unfold writeGroupRun
  try dsimp only
  repeat' (first
      | with_reducible assumption
      | with_reducible apply keeps_stageSet
      | with_reducible apply keeps_foldl_fst
      | with_reducible apply keeps_foldl_snd | exact trivial | with_reducible apply kc_done | with_reducible apply keeps_foldl
      | with_reducible apply kc_ite | split | intro _ | with_reducible apply keeps_ite)

theorem keeps_execPwmWriteGroup {z : State} (via : Transport) (s : State) (hk0 : Keeps z s) : KeepsNext z (execPwmWriteGroup via s) := by
  unfold execPwmWriteGroup
  try dsimp only
  repeat' (first
      | with_reducible assumption | with_reducible apply kn_next | with_reducible apply keeps_runCard | with_reducible apply keeps_pwmCard
      | with_reducible apply keeps_writeGroupRun)

theorem keeps_capStageStarts {z : State} (stage : Nat) (s : State) (h : Keeps z s) : Keeps z (capStageStarts stage s) := by
  unfold capStageStarts
  try dsimp only
  repeat' (first
      | with_reducible assumption | with_reducible apply keeps_updCap | fail_if_no_progress (with_reducible refine Keeps.upd ?_)
      | (show capOk _; (repeat' split) <;> simp_all [capOk, capSized, upd_length, memWrite_wf, memWriteBytes_wf, memClear_wf]) | with_reducible apply keeps_ite
      | split | intro _)

theorem keeps_queuePrecharges {z : State} (n : Nat) (s : State) (h : Keeps z s) : Keeps z (queuePrecharges n s) := by
  unfold queuePrecharges
  try dsimp only
  repeat' (first
      | with_reducible assumption | with_reducible apply keeps_forEach | with_reducible apply keeps_updHb | fail_if_no_progress (with_reducible refine Keeps.upd ?_)
      | with_reducible apply keeps_ite | split | intro _)

theorem keeps_enterStarting {z : State} (n : Nat) (s : State) (h : Keeps z s) : Keeps z (enterStarting n s) := by
  unfold enterStarting
  try dsimp only
  repeat' (first
      | with_reducible assumption
      | with_reducible apply keeps_queuePrecharges
      | with_reducible apply keeps_capStageStarts | with_reducible apply keeps_setStage | with_reducible apply keeps_updStage | with_reducible apply keeps_updHb
      | with_reducible apply keeps_armTrips | with_reducible apply keeps_forEach | fail_if_no_progress (with_reducible refine Keeps.upd ?_) | split | intro _ | with_reducible apply keeps_ite)

theorem keeps_execStageStartBegin {z : State} (n : Nat) (s : State) (hk0 : Keeps z s) : KeepsNext z (execStageStartBegin n s) := by
  unfold execStageStartBegin
  try dsimp only
  repeat' (first | with_reducible assumption | with_reducible apply kn_next | with_reducible apply kn_ite | with_reducible apply keeps_enterStarting | intro _ | with_reducible apply keeps_ite | split)

theorem keeps_countClamp {z : State} (t p : Nat) (s : State) (h : Keeps z s) : Keeps z (countClamp t p s) := by
  unfold countClamp
  try dsimp only
  repeat' (first
      | with_reducible assumption | with_reducible apply keeps_postMerge | with_reducible apply keeps_updTimer
      | fail_if_no_progress (with_reducible refine Keeps.upd ?_) | with_reducible apply keeps_ite | split | intro _)

theorem keeps_execTimersStart {z : State} (n : Nat) (s : State) (hk0 : Keeps z s) : KeepsNext z (execTimersStart n s) := by
  unfold execTimersStart
  try dsimp only
  repeat' (first
      | with_reducible assumption
      | with_reducible apply keeps_countClamp
      | fail_if_no_progress (with_reducible refine Keeps.upd ?_) | with_reducible apply kn_next | with_reducible apply keeps_advanceTo | with_reducible apply keeps_updTimer
      | with_reducible apply keeps_updChan | with_reducible apply keeps_updStage | with_reducible apply keeps_forEach | split | intro _ | with_reducible apply kn_ite | with_reducible apply keeps_ite)

theorem keeps_takeSets {z : State} (t n : Nat) (s : State) (h : Keeps z s) : Keeps z (takeSets t n s).2 := by
  unfold takeSets
  refine keeps_foldl_snd _ _ _ h fun a b k0 => ?_
  extract_lets q
  have k : Keeps z q.2 := keeps_updGroup _ _ _ k0
  split
  · split
    · exact keeps_updGroup _ _ _ k
    · exact k
  · exact k
theorem keeps_takeSets_eq {z : State} {t n : Nat} {s : State} {xx : Bool} {tt : State} (hee : takeSets t n s = (xx, tt)) (h : Keeps z s) : Keeps z tt := by
  have := keeps_takeSets t n s h
  rw [hee] at this; exact this

theorem keeps_nextPeriod {z : State} (t : Nat) (s : State) (h : Keeps z s) : Keeps z (nextPeriod t s).2 := by
  unfold nextPeriod
  try dsimp only
  repeat' (first
      | with_reducible assumption
      | with_reducible apply keeps_countClamp | with_reducible apply keeps_postMerge | with_reducible apply keeps_updTimer | split | with_reducible apply keeps_ite | intro _)
theorem keeps_nextPeriod_eq {z : State} {t : Nat} {s : State} {xx : Nat} {tt : State} (hee : nextPeriod t s = (xx, tt)) (h : Keeps z s) : Keeps z tt := by
  have := keeps_nextPeriod t s h
  rw [hee] at this; exact this

theorem keeps_formPulse {z : State} (c : Nat) (p pEff idx : Nat) (s : State) (h : Keeps z s) : Keeps z (formPulse c p pEff idx s) := by
  unfold formPulse
  try dsimp only
  repeat' (first
      | with_reducible assumption
      | fail_if_no_progress (with_reducible refine Keeps.upd ?_) | with_reducible apply keeps_updChan | split | with_reducible apply keeps_ite | intro _)

theorem keeps_applyEnables {z : State} (t : Nat) (s : State) (h : Keeps z s) : Keeps z (applyEnables t s) := by
  unfold applyEnables
  try dsimp only
  repeat' (first
      | with_reducible assumption
      | fail_if_no_progress (with_reducible refine Keeps.upd ?_) | with_reducible apply keeps_updChan | with_reducible apply keeps_forEach | split | intro _ | with_reducible apply keeps_ite)

theorem keeps_capStageEnabled {z : State} (n : Nat) (s : State) (h : Keeps z s) : Keeps z (capStageEnabled n s) := by
  unfold capStageEnabled
  try dsimp only
  repeat' (first
      | with_reducible assumption | with_reducible apply keeps_updCap
      | (show capOk _; (repeat' split) <;> simp_all [capOk, capSized, upd_length]) | with_reducible apply keeps_ite | intro _)

theorem keeps_enableStage {z : State} (n : Nat) (s : State) (h : Keeps z s) : Keeps z (enableStage n s) := by
  unfold enableStage
  try dsimp only
  repeat' (first
      | with_reducible assumption | with_reducible apply keeps_setStage | with_reducible apply keeps_capStageEnabled | with_reducible apply keeps_updChan | with_reducible apply keeps_withEdges
      | with_reducible apply keeps_updStage | with_reducible apply keeps_forEach | intro _)

theorem keeps_frameReload {z : State} (n d pEff : Nat) (notice : Bool) (s : State) (h : Keeps z s) : Keeps z (frameReload n d pEff notice s) := by
  unfold frameReload
  try dsimp only
  repeat' (first
      | with_reducible assumption | with_reducible apply keeps_updStage | fail_if_no_progress (with_reducible refine Keeps.upd ?_) | with_reducible apply keeps_ite
      | split | intro _)

theorem keeps_stopAtReload {z : State} (t n : Nat) (s : State) (h : Keeps z s) : Keeps z (stopAtReload t n s) := by
  unfold stopAtReload
  try dsimp only
  repeat' (first
      | with_reducible assumption
      | fail_if_no_progress (with_reducible refine Keeps.upd ?_) | with_reducible apply keeps_updStage | with_reducible apply keeps_chanStop | with_reducible apply keeps_forEach | intro _ | with_reducible apply keeps_ite | split)

theorem keeps_doReload {z : State} (t n : Nat) (s : State) (h : Keeps z s) : Keeps z (doReload t n s) := by
  unfold doReload
  extract_lets +onlyGivenNames s0 isFt st isFrame runs
  have h0 : Keeps z s0 := keeps_swapUnits _ _ (keeps_updTimer _ _ _ h)
  clear_value s0
  split
  rename_i took s1 e1
  have h1 : Keeps z s1 := by
    refine keeps_takeSets_eq e1 ?_
    split
    · exact keeps_updStage _ _ _ h0
    · exact h0
  extract_lets +onlyGivenNames x
  split
  rename_i p s2 e2
  have h2 : Keeps z s2 := by
    split at e2
    · cases e2; exact h1
    · split at e2
      · cases e2; exact h1
      · exact keeps_nextPeriod_eq e2 h1
  extract_lets +onlyGivenNames idx0 pe s3 s4 s5
  have h3 : Keeps z s3 := keeps_updTimer _ _ _ h2
  clear_value s3
  have h4 : Keeps z s4 := by
    simp only [s4]
    split
    · exact h3
    · exact keeps_forEach _ _ _ h3 (fun _ _ k => keeps_updTimer _ _ _ k)
  clear_value s4
  have h5 : Keeps z s5 := by
    simp only [s5]
    split
    · split
      · exact keeps_frameReload _ _ _ _ _ h4
      · exact h4
    · split
      · exact keeps_updStage _ _ _ h4
      · exact h4
  clear_value s5
  extract_lets +onlyGivenNames s6
  have h6 : Keeps z s6 := keeps_withEdges _ _ _ h5 (fun _ k => keeps_applyEnables _ _ k)
  clear_value s6
  split
  · exact keeps_stopAtReload _ _ _ h6
  · extract_lets +onlyGivenNames s7
    have h7 : Keeps z s7 := by
      simp only [s7]
      split
      · exact keeps_enableStage _ _ h6
      · exact h6
    clear_value s7
    exact keeps_forEach _ _ _ h7 (fun _ _ k => keeps_formPulse _ _ _ _ _ k)

theorem keeps_execTimerReload {z : State} (t : Nat) (s : State) (hk0 : Keeps z s) : KeepsNext z (execTimerReload t s) := by
  unfold execTimerReload
  try dsimp only
  repeat' (first
      | with_reducible assumption | with_reducible apply kn_next | with_reducible apply kn_ite | with_reducible apply keeps_doReload
      | with_reducible apply keeps_advanceTo | split | intro _)

theorem keeps_execRefreshPeriod {z : State} (h : Nat) (s : State) (hk0 : Keeps z s) : KeepsNext z (execRefreshPeriod h s) := by
  unfold execRefreshPeriod
  try dsimp only
  repeat' (first
      | with_reducible assumption
      | fail_if_no_progress (with_reducible refine Keeps.upd ?_) | with_reducible apply kn_next | with_reducible apply kn_ite | with_reducible apply keeps_updChan
      | with_reducible apply keeps_updHb | with_reducible apply keeps_post | split | intro _ | with_reducible apply keeps_ite)

theorem keeps_leadFalls {z : State} (c : Nat) (s : State) (h : Keeps z s) : Keeps z (leadFalls c s) := by
  unfold leadFalls
  try dsimp only
  repeat' (first
      | with_reducible assumption
      | fail_if_no_progress (with_reducible refine Keeps.upd ?_) | with_reducible apply keeps_updChan | split | with_reducible apply keeps_ite | intro _)

theorem keeps_leadRises {z : State} (c : Nat) (s : State) (h : Keeps z s) : Keeps z (leadRises c s) := by
  unfold leadRises
  try dsimp only
  repeat' (first
      | with_reducible assumption
      | fail_if_no_progress (with_reducible refine Keeps.upd ?_) | with_reducible apply keeps_updChan | split | with_reducible apply keeps_ite | intro _)

theorem keeps_execCompareMatch {z : State} (c : Nat) (s : State) (hk0 : Keeps z s) : KeepsNext z (execCompareMatch c s) := by
  unfold execCompareMatch
  try dsimp only
  repeat' (first
      | with_reducible assumption
      | with_reducible apply keeps_foldl
      | with_reducible apply keeps_foldl_fst
      | with_reducible apply keeps_foldl_snd | with_reducible apply kn_next | with_reducible apply kn_ite | with_reducible apply keeps_leadFalls
      | with_reducible apply keeps_advanceTo | with_reducible apply keeps_leadRises | split | intro _ | with_reducible apply keeps_ite)

theorem keeps_measureDead {z : State} (c : Nat) (s : State) (h : Keeps z s) : Keeps z (measureDead c s) := by
  unfold measureDead
  try dsimp only
  repeat' (first
      | with_reducible assumption
      | with_reducible apply keeps_updChan
      | fail_if_no_progress (with_reducible refine Keeps.upd ?_) | with_reducible apply keeps_capDead | with_reducible apply keeps_ite | split | intro _)

theorem keeps_execDeadTimeExpiry {z : State} (c : Nat) (s : State) (hk0 : Keeps z s) : KeepsNext z (execDeadTimeExpiry c s) := by
  unfold execDeadTimeExpiry
  try dsimp only
  repeat' (first
      | with_reducible assumption | with_reducible apply kn_next | with_reducible apply kn_ite | with_reducible apply keeps_advanceTo
      | with_reducible apply keeps_updChan | with_reducible apply keeps_measureDead | with_reducible apply keeps_withEdges | split | intro _)

theorem keeps_execMinpwExpiry {z : State} (c : Nat) (s : State) (hk0 : Keeps z s) : KeepsNext z (execMinpwExpiry c s) := by
  unfold execMinpwExpiry
  try dsimp only
  repeat' (first
      | with_reducible assumption
      | fail_if_no_progress (with_reducible refine Keeps.upd ?_) | with_reducible apply kn_next | with_reducible apply kn_ite | with_reducible apply keeps_advanceTo
      | with_reducible apply keeps_updChan | with_reducible apply keeps_updStage | split | intro _ | with_reducible apply keeps_ite)

theorem keeps_execStartTimeout {z : State} (n : Nat) (s : State) (hk0 : Keeps z s) : KeepsNext z (execStartTimeout n s) := by
  unfold execStartTimeout
  try dsimp only
  repeat' (first
      | with_reducible assumption | with_reducible apply kn_next | with_reducible apply kn_ite | with_reducible apply keeps_advanceTo
      | with_reducible apply keeps_normalShutdown | with_reducible apply keeps_post | intro _ | with_reducible apply keeps_ite | split)

theorem keeps_refeed {z : State} (n : Nat) (s : State) (h : Keeps z s) : Keeps z (refeed n s) := by
  unfold refeed
  try dsimp only
  repeat' (first
      | with_reducible assumption | with_reducible apply keeps_forEach | with_reducible apply keeps_updFu | fail_if_no_progress (with_reducible refine Keeps.upd ?_)
      | with_reducible apply keeps_ite | split | intro _)

theorem keeps_stageOver {z : State} (n cause : Nat) (s : State) (h : Keeps z s) : Keeps z (stageOver n cause s) := by
  unfold stageOver
  try dsimp only
  repeat' (first
      | with_reducible assumption | with_reducible apply keeps_refeed | with_reducible apply keeps_stageEntersOff | with_reducible apply keeps_ite | split | intro _)

theorem keeps_execStageShutdownEnd {z : State} (n : Nat) (s : State) (hk0 : Keeps z s) : KeepsNext z (execStageShutdownEnd n s) := by
  unfold execStageShutdownEnd
  try dsimp only
  repeat' (first
      | with_reducible assumption
      | with_reducible apply keeps_stageOver | with_reducible apply kn_next | with_reducible apply kn_ite | with_reducible apply keeps_finishStateChange
      | with_reducible apply keeps_settleIdle | with_reducible apply keeps_stageEntersOff | with_reducible apply keeps_advanceTo | intro _ | with_reducible apply keeps_ite | split)

theorem keeps_execReadbackSample {z : State} (c : Nat) (level : Bool) (s : State) (hk0 : Keeps z s) : KeepsNext z (execReadbackSample c level s) := by
  unfold execReadbackSample
  try dsimp only
  repeat' (first
      | with_reducible assumption
      | fail_if_no_progress (with_reducible refine Keeps.upd ?_) | with_reducible apply kn_next | with_reducible apply kn_ite | with_reducible apply keeps_updChan
      | with_reducible apply keeps_postMerge | intro _ | with_reducible apply keeps_ite | split)

theorem keeps_execCuSpareDwellExpiry {z : State} (u : Nat) (s : State) (hk0 : Keeps z s) : KeepsNext z (execCuSpareDwellExpiry u s) := by
  unfold execCuSpareDwellExpiry
  try dsimp only
  repeat' (first
      | with_reducible assumption | with_reducible apply kn_next | with_reducible apply kn_ite | with_reducible apply keeps_advanceTo
      | with_reducible apply keeps_updUnit | intro _)

theorem keeps_execCuMismatch {z : State} (k : Nat) (s : State) (hk0 : Keeps z s) : KeepsNext z (execCuMismatch k s) := by
  unfold execCuMismatch
  try dsimp only
  repeat' (first
      | with_reducible assumption | with_reducible apply kn_next | with_reducible apply kn_ite | with_reducible apply keeps_postMerge
      | with_reducible apply keeps_arrangeUnits | with_reducible apply keeps_decideRetire | with_reducible apply keeps_transient
      | fail_if_no_progress (with_reducible refine Keeps.upd ?_ (h15 := fun hh => by simpa [relOk, relSized, upd_length, List.length_map, List.length_mapIdx] using hh))
      | split | intro _)

/-! ### Prot.lean -/

theorem keeps_execFltTrip {z : State} (c : Nat) (s : State) (hk0 : Keeps z s) : KeepsNext z (execFltTrip c s) := by
  unfold execFltTrip
  try dsimp only
  repeat' (first
      | with_reducible assumption | with_reducible apply kn_next | with_reducible apply keeps_updFlt | with_reducible apply keeps_tripChannel
      | with_reducible apply keeps_ite | intro _)

theorem keeps_execFltHigh {z : State} (c : Nat) (s : State) (hk0 : Keeps z s) : KeepsNext z (execFltHigh c s) := by
  unfold execFltHigh
  try dsimp only
  repeat' (first | with_reducible assumption | with_reducible apply kn_next | with_reducible apply keeps_updFlt)

theorem keeps_execCmpTrip {z : State} (k zone : Nat) (s : State) (hk0 : Keeps z s) : KeepsNext z (execCmpTrip k zone s) := by
  unfold execCmpTrip
  try dsimp only
  repeat' (first
      | with_reducible assumption
      | fail_if_no_progress (with_reducible refine Keeps.upd ?_) | with_reducible apply kn_next | with_reducible apply kn_ite | with_reducible apply keeps_updCmp
      | with_reducible apply keeps_tripTargets | split | intro _ | with_reducible apply keeps_ite)

theorem keeps_execCmpRelease {z : State} (k : Nat) (s : State) (hk0 : Keeps z s) : KeepsNext z (execCmpRelease k s) := by
  unfold execCmpRelease
  try dsimp only
  repeat' (first | with_reducible assumption | with_reducible apply kn_next | with_reducible apply keeps_updCmp)

theorem keeps_execBlankingEnd {z : State} (k : Nat) (s : State) (hk0 : Keeps z s) : KeepsNext z (execBlankingEnd k s) := by
  unfold execBlankingEnd
  try dsimp only
  repeat' (first
      | with_reducible assumption
      | fail_if_no_progress (with_reducible refine Keeps.upd ?_) | with_reducible apply kn_next | with_reducible apply kn_ite | with_reducible apply keeps_updCmp
      | with_reducible apply keeps_advanceTo | with_reducible apply keeps_tripTargets | split | intro _ | with_reducible apply keeps_ite)

theorem keeps_execFocTrip {z : State} (k : Nat) (bits : List Bool) (s : State) (h : Keeps z s) : KeepsNext z (execFocTrip k bits s) := by
  unfold execFocTrip
  try dsimp only
  repeat' (first
      | with_reducible assumption | with_reducible apply kn_next | with_reducible apply keeps_focEval | with_reducible apply keeps_updFoc
      | with_reducible apply keeps_tripTargets | fail_if_no_progress (with_reducible refine Keeps.upd ?_) | with_reducible apply kn_ite
      | with_reducible apply keeps_ite | split | intro _)

theorem keeps_execFocRelease {z : State} (k : Nat) (bits : List Bool) (s : State) (h : Keeps z s) : KeepsNext z (execFocRelease k bits s) := by
  unfold execFocRelease
  try dsimp only
  repeat' (first
      | with_reducible assumption | with_reducible apply kn_next | with_reducible apply keeps_focEval | with_reducible apply keeps_updFoc
      | fail_if_no_progress (with_reducible refine Keeps.upd ?_) | with_reducible apply kn_ite | with_reducible apply keeps_ite | split | intro _)

theorem keeps_execHbMonitorTrip {z : State} (h : Nat) (high short : Bool) (s : State) (hk0 : Keeps z s) : KeepsNext z (execHbMonitorTrip h high short s) := by
  unfold execHbMonitorTrip
  try dsimp only
  repeat' (first
      | with_reducible assumption
      | with_reducible apply keeps_multileg
      | fail_if_no_progress (with_reducible refine Keeps.upd ?_) | with_reducible apply kn_next | with_reducible apply kn_ite | with_reducible apply keeps_updHb | split | intro _ | with_reducible apply keeps_ite)

theorem keeps_execHbStatusWord {z : State} (h : Nat) (hsVds lsVds : Nat) (vBoot : F32) (s : State) (hk0 : Keeps z s) : KeepsNext z (execHbStatusWord h hsVds lsVds vBoot s) := by
  unfold execHbStatusWord
  try dsimp only
  repeat' (first
      | with_reducible assumption | with_reducible apply kn_next | with_reducible apply kn_ite | with_reducible apply keeps_updHb
      | with_reducible apply keeps_tripChannel | split | intro _)

theorem keeps_execBootstrapUndervoltage {z : State} (h : Nat) (vBoot : F32) (s : State) (hk0 : Keeps z s) : KeepsNext z (execBootstrapUndervoltage h vBoot s) := by
  unfold execBootstrapUndervoltage
  try dsimp only
  repeat' (first
      | with_reducible assumption
      | fail_if_no_progress (with_reducible refine Keeps.upd ?_) | with_reducible apply kn_next | with_reducible apply kn_ite | with_reducible apply keeps_updHb
      | with_reducible apply keeps_tripChannel | split | intro _ | with_reducible apply keeps_ite)

theorem keeps_faultIntegrated {z : State} (cause : Byte) (s : State) (h : Keeps z s) : Keeps z (faultIntegrated cause s) := by
  unfold faultIntegrated
  try dsimp only
  repeat' (first | with_reducible assumption | with_reducible apply keeps_tripChannel | with_reducible apply keeps_forEach)

theorem keeps_execDriverSupply {z : State} (temp : Bool) (level : Nat) (value : F32) (held : Nat) (s : State) (h : Keeps z s) : KeepsNext z (execDriverSupply temp level value held s) := by
  unfold execDriverSupply
  try dsimp only
  repeat' (first
      | with_reducible assumption | with_reducible apply kn_next | with_reducible apply keeps_post | with_reducible apply keeps_faultIntegrated
      | fail_if_no_progress (with_reducible refine Keeps.upd ?_ (h7 := fun hh => by first | exact hh | ((repeat' split) <;> simp_all [pwmSized, upd_length, List.length_map, List.length_mapIdx, memWrite_wf, memWriteBytes_wf, memClear_wf])))
      | with_reducible apply kn_ite | with_reducible apply keeps_ite | split | intro _)

theorem keeps_execPrechargeStart {z : State} (s : State) (hk0 : Keeps z s) : KeepsNext z (execPrechargeStart s) := by
  unfold execPrechargeStart
  try dsimp only
  repeat' (first
      | with_reducible assumption
      | with_reducible apply keeps_dropPrecharges
      | with_reducible apply keeps_enterStarting | with_reducible apply kn_next | with_reducible apply keeps_advanceTo | with_reducible apply keeps_updHb
      | with_reducible apply keeps_settleStart | with_reducible apply keeps_updStage | fail_if_no_progress (with_reducible refine Keeps.upd ?_) | split | with_reducible apply kn_ite | with_reducible apply keeps_ite | intro _)

theorem keeps_execPrechargeEnd {z : State} (h : Nat) (vBoot : F32) (s : State) (hk0 : Keeps z s) : KeepsNext z (execPrechargeEnd h vBoot s) := by
  unfold execPrechargeEnd
  try dsimp only
  repeat' (first
      | with_reducible assumption | with_reducible apply kn_next | with_reducible apply keeps_updHb | with_reducible apply keeps_advanceTo
      | with_reducible apply keeps_tripChannel | with_reducible apply keeps_ite | split | intro _)

theorem keeps_passRelease {z : State} (n : Nat) (s : State) (h : Keeps z s) : Keeps z (passRelease n s) := by
  unfold passRelease
  try dsimp only
  repeat' (first | with_reducible assumption | with_reducible apply keeps_updStage | fail_if_no_progress (with_reducible refine Keeps.upd ?_))

theorem keeps_awaitPrecharge {z : State} (n : Nat) (owed : Option Owed) (s : State) (h : Keeps z s) : Keeps z (awaitPrecharge n owed s) := by
  unfold awaitPrecharge
  try dsimp only
  repeat' (first
      | with_reducible assumption | with_reducible apply keeps_updStage | with_reducible apply keeps_queuePrecharges
      | fail_if_no_progress (with_reducible refine Keeps.upd ?_) | with_reducible apply keeps_ite | split | intro _)

theorem keeps_execDriverSupplyRelease {z : State} (s : State) (hk0 : Keeps z s) : KeepsNext z (execDriverSupplyRelease s) := by
  unfold execDriverSupplyRelease
  try dsimp only
  repeat' (first
      | with_reducible assumption
      | with_reducible apply keeps_awaitPrecharge | with_reducible apply kn_next | with_reducible apply keeps_advanceTo | with_reducible apply keeps_passRelease
      | with_reducible apply keeps_settleStart | with_reducible apply keeps_updStage | fail_if_no_progress (with_reducible refine Keeps.upd ?_) | split | with_reducible apply kn_ite | with_reducible apply keeps_ite | intro _)

theorem keeps_protStatusRun {z : State} (s : State) (r : Req) (hk0 : Keeps z s) : KeepsCard z (protStatusRun s r) := by
  unfold protStatusRun
  try dsimp only
  repeat' (first | with_reducible assumption | exact trivial | with_reducible apply kc_done | with_reducible apply kc_ite | intro _)

theorem keeps_execProtStatus {z : State} (via : Transport) (s : State) (hk0 : Keeps z s) : KeepsNext z (execProtStatus via s) := by
  unfold execProtStatus
  try dsimp only
  repeat' (first
      | with_reducible assumption | with_reducible apply kn_next | with_reducible apply keeps_runCard | with_reducible apply keeps_pwmCard
      | with_reducible apply keeps_protStatusRun)

/-! ### OpsGrid.lean -/

theorem keeps_updGrid {z : State} (f : GridMeas → GridMeas) (s : State) (h : Keeps z s) : Keeps z (updGrid f s) := by
  unfold updGrid
  try dsimp only
  repeat' (first
      | with_reducible assumption
      | fail_if_no_progress (with_reducible refine Keeps.upd ?_ (h9 := fun hh => by simpa [safeSized, upd_length, List.length_map, List.length_mapIdx] using hh)))

theorem keeps_gridSample {z : State} (t : Nat) (s : State) (h : Keeps z s) : Keeps z (gridSample t s) := by
  unfold gridSample
  try dsimp only
  repeat' (first | with_reducible assumption | with_reducible apply keeps_updGrid | with_reducible apply keeps_ite | split | intro _)

theorem keeps_gridCycle {z : State} (s : State) (h : Keeps z s) : Keeps z (gridCycle s) := by
  unfold gridCycle
  try dsimp only
  repeat' (first
      | with_reducible assumption | with_reducible apply keeps_updGrid
      | fail_if_no_progress (with_reducible refine Keeps.upd ?_ (h9 := fun hh => by first | (simpa [safeSized, upd_length, List.length_map, List.length_mapIdx] using hh) | ((repeat' split) <;> simp_all [safeSized, upd_length, List.length_map, List.length_mapIdx, memWrite_wf, memWriteBytes_wf, memClear_wf])))
      | with_reducible apply keeps_ite | split | intro _)

end Sys2Proof
end

