-- ==== Sys2Proof/Laws/KeepsSense.lean ====
section
/-! SUPPORT. What sensing, filters, protection setup, capture and clocks keep, one lemma an operation: the
queue, the numbers of resources, the form of the memories and the fuses. -/

namespace Sys2Proof

set_option linter.all false
set_option Elab.async false

open Sys2Proof.Machine
open Sys2Proof.Laws

/-! ### Sense.lean -/

theorem keeps_applyConf {z : State} (round : Nat) (k : SenseConf) (s : State) (h : Keeps z s) : Keeps z (applyConf round k s) := by
  unfold applyConf
  try dsimp only
  repeat' (first
      | with_reducible assumption
      | with_reducible apply keeps_focEval | with_reducible apply keeps_updSense | with_reducible apply keeps_updCore
      | fail_if_no_progress (with_reducible refine Keeps.upd ?_ (h5 := fun hh => by simpa [senseSized, upd_length, List.length_map, List.length_mapIdx] using hh))
      | split | with_reducible apply keeps_ite | intro _)

theorem keeps_stopAssigned {z : State} (lane : Nat) (chs : List Nat) (s : State) (h : Keeps z s) : Keeps z (stopAssigned lane chs s) := by
  unfold stopAssigned
  try dsimp only
  repeat' (first | with_reducible assumption | with_reducible apply keeps_stopChannels | with_reducible apply keeps_post | with_reducible apply keeps_ite | intro _ | split)

theorem keeps_applyFilters {z : State} (s : State) (h : Keeps z s) : Keeps z (applyFilters s) := by
  unfold applyFilters
  refine keeps_ite (fun _ => h) (fun _ => ?_)
  extract_lets +onlyGivenNames old s1
  have h1 : Keeps z s1 := Keeps.upd h (h6 := fun hh => ⟨⟨hh.1.1, hh.1.2.2, hh.1.2.2⟩, hh.2⟩)
  clear_value s1
  extract_lets +onlyGivenNames fails s2
  refine keeps_stopAssigned _ _ _ (keeps_forEach _ _ _ h1 (fun c t ht => ?_))
  extract_lets +onlyGivenNames a b sameT
  exact keeps_ite (fun _ => keeps_unsettle _ _ (keeps_updFch _ _ _ ht))
    (fun _ => keeps_ite (fun _ => ht) (fun _ => keeps_unsettle _ _ (keeps_updFch _ _ _ ht)))

theorem keeps_roundChannel {z : State} (r : Nat) (fb : Bool) (bits : List (List Bool)) (a : Assign) (s : State) (h : Keeps z s) : Keeps z (roundChannel r fb bits a s) := by
  unfold roundChannel
  try dsimp only
  repeat' (first
      | with_reducible assumption | with_reducible apply keeps_updFch | with_reducible apply keeps_postMerge | with_reducible apply keeps_ite | split | intro _)

theorem keeps_measureCaps {z : State} (r : Nat) (caps : List Nat) (s : State) (h : Keeps z s) : Keeps z (measureCaps r caps s) := by
  unfold measureCaps
  try dsimp only
  repeat' (first
      | with_reducible assumption | with_reducible apply keeps_forEach | with_reducible apply keeps_updFch | fail_if_no_progress (with_reducible refine Keeps.upd ?_)
      | with_reducible apply keeps_ite | split | intro _)

theorem keeps_sarConclude {z : State} (p : SarProbe) (s : State) (h : Keeps z s) : Keeps z (sarConclude p s) := by
  unfold sarConclude
  try dsimp only
  repeat' (first
      | with_reducible assumption | with_reducible apply keeps_decideRound | with_reducible apply keeps_forEach | with_reducible apply keeps_transient
      | fail_if_no_progress (with_reducible refine Keeps.upd ?_ (h5 := fun hh => by first | exact hh | ((repeat' split) <;> simp_all [senseSized, upd_length, List.length_map, List.length_mapIdx, memWrite_wf, memWriteBytes_wf, memClear_wf])))
      | with_reducible apply keeps_ite | split | intro _)

theorem keeps_startRound {z : State} (t : Nat) (bits : List (List Bool)) (caps : List Nat) (s : State) (h : Keeps z s) : Keeps z (startRound t bits caps s) := by
  unfold startRound
  try dsimp only
  repeat' (first
      | with_reducible assumption
      | with_reducible apply keeps_sarConclude
      | with_reducible apply keeps_measureCaps
      | with_reducible apply keeps_foldl_fst
      | with_reducible apply keeps_foldl_snd | with_reducible apply keeps_foldRound | with_reducible apply keeps_applyFilters | with_reducible apply keeps_applyConf
      | with_reducible apply keeps_roundSwaps | with_reducible apply keeps_roundChannel | with_reducible apply keeps_gridSample
      | with_reducible apply keeps_foldl
      | fail_if_no_progress (with_reducible refine Keeps.upd ?_ (h5 := fun hh => by first | (simpa [senseSized, upd_length, List.length_map, List.length_mapIdx] using hh) | ((repeat' split) <;> simp_all [senseSized, upd_length, List.length_map, List.length_mapIdx, memWrite_wf, memWriteBytes_wf, memClear_wf])))
      | split | intro _ | with_reducible apply keeps_ite)

theorem keeps_execRoundStart {z : State} (bits : List (List Bool)) (caps : List Nat) (s : State) (hk0 : Keeps z s) : KeepsNext z (execRoundStart bits caps s) := by
  unfold execRoundStart
  try dsimp only
  repeat' (first | with_reducible assumption | with_reducible apply kn_next | with_reducible apply keeps_startRound | with_reducible apply keeps_advanceTo | with_reducible apply kn_ite | with_reducible apply keeps_ite | split | intro _)

theorem keeps_storeConv {z : State} (ch code start : Nat) (s : State) (h : Keeps z s) : Keeps z (storeConv ch code start s) := by
  unfold storeConv
  try dsimp only
  repeat' (first
      | with_reducible assumption
      | fail_if_no_progress (with_reducible refine Keeps.upd ?_) | with_reducible apply keeps_updSense | with_reducible apply keeps_ite | split | intro _)

theorem keeps_urgentDone {z : State} (core i code start : Nat) (s : State) (h : Keeps z s) : Keeps z (urgentDone core i code start s) := by
  unfold urgentDone
  try dsimp only
  repeat' (first
      | with_reducible assumption | with_reducible apply keeps_updCore | with_reducible apply keeps_storeConv
      | fail_if_no_progress (with_reducible refine Keeps.upd ?_ (h5 := fun hh => by simpa [senseSized, upd_length, List.length_map, List.length_mapIdx] using hh)) | with_reducible apply keeps_ite | split | intro _)

theorem keeps_sarCheck {z : State} (core : Nat) (code : U16) (chk : U16 × U16) (s : State) (h : Keeps z s) : Keeps z (sarCheck core code chk s) := by
  unfold sarCheck
  try dsimp only
  repeat' (first
      | with_reducible assumption
      | with_reducible apply keeps_sarConclude | with_reducible apply keeps_postMerge | with_reducible apply keeps_transient | with_reducible apply keeps_decideRound
      | fail_if_no_progress (with_reducible refine Keeps.upd ?_ (h5 := fun hh => by simpa [senseSized, upd_length, List.length_map, List.length_mapIdx] using hh))
      | with_reducible apply keeps_ite | split | intro _)

theorem keeps_execSarConversion {z : State} (core p : Nat) (code : U16) (chk : Option (U16 × U16)) (s : State) (hk0 : Keeps z s) : KeepsNext z (execSarConversion core p code chk s) := by
  unfold execSarConversion
  try dsimp only
  repeat' (first
      | with_reducible assumption | with_reducible apply kn_next | with_reducible apply kn_ite | with_reducible apply keeps_advanceTo
      | with_reducible apply keeps_urgentDone | with_reducible apply keeps_storeConv | with_reducible apply keeps_sarCheck | split | intro _ | with_reducible apply keeps_ite)

theorem keeps_execBsStuck {z : State} (ch : Nat) (level : Bool) (s : State) (hk0 : Keeps z s) : KeepsNext z (execBsStuck ch level s) := by
  unfold execBsStuck
  try dsimp only
  repeat' (first
      | with_reducible assumption | with_reducible apply kn_next | with_reducible apply kn_ite | with_reducible apply keeps_postMerge
      | with_reducible apply keeps_focEval | with_reducible apply keeps_updSense | intro _)

theorem keeps_execBsStuckClear {z : State} (ch : Nat) (s : State) (hk0 : Keeps z s) : KeepsNext z (execBsStuckClear ch s) := by
  unfold execBsStuckClear
  try dsimp only
  repeat' (first | with_reducible assumption | with_reducible apply kn_next | with_reducible apply keeps_updSense)

theorem keeps_execRefSettled {z : State} (s : State) (hk0 : Keeps z s) : KeepsNext z (execRefSettled s) := by
  unfold execRefSettled
  try dsimp only
  repeat' (first
      | with_reducible assumption | with_reducible apply kn_next | with_reducible apply kn_ite | with_reducible apply keeps_advanceTo
      | with_reducible apply keeps_post
      | fail_if_no_progress (with_reducible refine Keeps.upd ?_ (h5 := fun hh => by simpa [senseSized, upd_length, List.length_map, List.length_mapIdx] using hh))
      | intro _)

theorem keeps_execSlowPathSettled {z : State} (ch : Nat) (s : State) (hk0 : Keeps z s) : KeepsNext z (execSlowPathSettled ch s) := by
  unfold execSlowPathSettled
  try dsimp only
  repeat' (first | with_reducible assumption | with_reducible apply kn_next | with_reducible apply keeps_updSense | with_reducible apply keeps_ite | intro _)

theorem keeps_execFilterSettled {z : State} (ch : Nat) (s : State) (hk0 : Keeps z s) : KeepsNext z (execFilterSettled ch s) := by
  unfold execFilterSettled
  try dsimp only
  repeat' (first | with_reducible assumption | with_reducible apply kn_next | with_reducible apply keeps_updFch | with_reducible apply keeps_ite | split | intro _)

theorem keeps_snsCard {z : State} (f : State → Req → CardResult) (hf : ∀ s r, Keeps z s → KeepsCard z (f s r)) : ∀ s r, Keeps z s → KeepsCard z ((snsCard f).run s r) := by
  intro s r hk0
  unfold snsCard
  dsimp only
  repeat' (with_reducible exact hf _ _ hk0)

theorem keeps_refEnableRun {z : State} (s : State) (r : Req) (hk0 : Keeps z s) : KeepsCard z (refEnableRun s r) := by
  unfold refEnableRun
  try dsimp only
  repeat' (first
      | with_reducible assumption | exact trivial | with_reducible apply kc_done
      | fail_if_no_progress (with_reducible refine Keeps.upd ?_ (h5 := fun hh => by simpa [senseSized, upd_length, List.length_map, List.length_mapIdx] using hh))
      | with_reducible apply kc_ite | split | intro _ | with_reducible apply keeps_ite)

theorem keeps_execSnsRefEnable {z : State} (via : Transport) (s : State) (hk0 : Keeps z s) : KeepsNext z (execSnsRefEnable via s) := by
  unfold execSnsRefEnable
  try dsimp only
  repeat' (first
      | with_reducible assumption | with_reducible apply kn_next | with_reducible apply keeps_runCard | with_reducible apply keeps_snsCard
      | with_reducible apply keeps_refEnableRun)

theorem keeps_cfgChannelRun {z : State} (s : State) (r : Req) (hk0 : Keeps z s) : KeepsCard z (cfgChannelRun s r) := by
  unfold cfgChannelRun
  try dsimp only
  repeat' (first
      | with_reducible assumption | exact trivial | with_reducible apply kc_done
      | fail_if_no_progress (with_reducible refine Keeps.upd ?_ (h5 := fun hh => by simpa [senseSized, upd_length, List.length_map, List.length_mapIdx] using hh))
      | with_reducible apply kc_ite | split | intro _)

theorem keeps_execSnsConfigChannel {z : State} (via : Transport) (s : State) (hk0 : Keeps z s) : KeepsNext z (execSnsConfigChannel via s) := by
  unfold execSnsConfigChannel
  try dsimp only
  repeat' (first
      | with_reducible assumption | with_reducible apply kn_next | with_reducible apply keeps_runCard | with_reducible apply keeps_snsCard
      | with_reducible apply keeps_cfgChannelRun)

theorem keeps_cfgSequenceRun {z : State} (s : State) (r : Req) (hk0 : Keeps z s) : KeepsCard z (cfgSequenceRun s r) := by
  unfold cfgSequenceRun
  try dsimp only
  repeat' (first
      | with_reducible assumption | exact trivial | with_reducible apply kc_done
      | fail_if_no_progress (with_reducible refine Keeps.upd ?_ (h5 := fun hh => by simpa [senseSized, upd_length, List.length_map, List.length_mapIdx] using hh))
      | with_reducible apply kc_ite | split | intro _)

theorem keeps_execSnsConfigSequence {z : State} (via : Transport) (s : State) (hk0 : Keeps z s) : KeepsNext z (execSnsConfigSequence via s) := by
  unfold execSnsConfigSequence
  try dsimp only
  repeat' (first
      | with_reducible assumption | with_reducible apply kn_next | with_reducible apply keeps_runCard | with_reducible apply keeps_snsCard
      | with_reducible apply keeps_cfgSequenceRun)

theorem keeps_cfgAccRun {z : State} (s : State) (r : Req) (hk0 : Keeps z s) : KeepsCard z (cfgAccRun s r) := by
  unfold cfgAccRun
  try dsimp only
  repeat' (first
      | with_reducible assumption | exact trivial | with_reducible apply kc_done
      | fail_if_no_progress (with_reducible refine Keeps.upd ?_ (h5 := fun hh => by simpa [senseSized, upd_length, List.length_map, List.length_mapIdx] using hh))
      | with_reducible apply kc_ite | split | intro _)

theorem keeps_execSnsConfigAccumulator {z : State} (via : Transport) (s : State) (hk0 : Keeps z s) : KeepsNext z (execSnsConfigAccumulator via s) := by
  unfold execSnsConfigAccumulator
  try dsimp only
  repeat' (first
      | with_reducible assumption | with_reducible apply kn_next | with_reducible apply keeps_runCard | with_reducible apply keeps_snsCard
      | with_reducible apply keeps_cfgAccRun)

theorem keeps_cfgTrackerRun {z : State} (s : State) (r : Req) (hk0 : Keeps z s) : KeepsCard z (cfgTrackerRun s r) := by
  unfold cfgTrackerRun
  try dsimp only
  repeat' (first
      | with_reducible assumption | exact trivial | with_reducible apply kc_done
      | fail_if_no_progress (with_reducible refine Keeps.upd ?_ (h5 := fun hh => by simpa [senseSized, upd_length, List.length_map, List.length_mapIdx] using hh))
      | with_reducible apply kc_ite | split | intro _)

theorem keeps_execSnsConfigTracker {z : State} (via : Transport) (s : State) (hk0 : Keeps z s) : KeepsNext z (execSnsConfigTracker via s) := by
  unfold execSnsConfigTracker
  try dsimp only
  repeat' (first
      | with_reducible assumption | with_reducible apply kn_next | with_reducible apply keeps_runCard | with_reducible apply keeps_snsCard
      | with_reducible apply keeps_cfgTrackerRun)

theorem keeps_calRun {z : State} (span : Bool) (s : State) (r : Req) (hk0 : Keeps z s) : KeepsCard z (calRun span s r) := by
  unfold calRun
  try dsimp only
  repeat' (first
      | with_reducible assumption | exact trivial | with_reducible apply kc_long
      | fail_if_no_progress (with_reducible refine Keeps.upd ?_ (h5 := fun hh => by simpa [senseSized, upd_length, List.length_map, List.length_mapIdx] using hh))
      | with_reducible apply kc_ite | split | intro _)

theorem keeps_execSnsCalZero {z : State} (via : Transport) (s : State) (hk0 : Keeps z s) : KeepsNext z (execSnsCalZero via s) := by
  unfold execSnsCalZero
  try dsimp only
  repeat' (first
      | with_reducible assumption | with_reducible apply kn_next | with_reducible apply keeps_runCard | with_reducible apply keeps_snsCard
      | with_reducible apply keeps_calRun)

theorem keeps_execSnsCalSpan {z : State} (via : Transport) (s : State) (hk0 : Keeps z s) : KeepsNext z (execSnsCalSpan via s) := by
  unfold execSnsCalSpan
  try dsimp only
  repeat' (first
      | with_reducible assumption | with_reducible apply kn_next | with_reducible apply keeps_runCard | with_reducible apply keeps_snsCard
      | with_reducible apply keeps_calRun)

theorem keeps_execCalDone {z : State} (ch : Nat) (s : State) (hk0 : Keeps z s) : KeepsNext z (execCalDone ch s) := by
  unfold execCalDone
  try dsimp only
  repeat' (first
      | with_reducible assumption | with_reducible apply kn_next | with_reducible apply kn_ite | with_reducible apply keeps_foldRound
      | with_reducible apply keeps_advanceTo | with_reducible apply keeps_endLong | with_reducible apply keeps_coefChanged | with_reducible apply keeps_updSense
      | fail_if_no_progress (with_reducible refine Keeps.upd ?_ (h5 := fun hh => by simpa [senseSized, upd_length, List.length_map, List.length_mapIdx] using hh))
      | split | intro _)

theorem keeps_accReadRun {z : State} (s : State) (r : Req) (hk0 : Keeps z s) : KeepsCard z (accReadRun s r) := by
  unfold accReadRun
  try dsimp only
  repeat' (first
      | with_reducible assumption | exact trivial | with_reducible apply kc_later
      | fail_if_no_progress (with_reducible refine Keeps.upd ?_ (h5 := fun hh => by simpa [senseSized, upd_length, List.length_map, List.length_mapIdx] using hh))
      | with_reducible apply kc_ite | split | intro _)

theorem keeps_execSnsAccRead {z : State} (via : Transport) (s : State) (hk0 : Keeps z s) : KeepsNext z (execSnsAccRead via s) := by
  unfold execSnsAccRead
  try dsimp only
  repeat' (first
      | with_reducible assumption | with_reducible apply kn_next | with_reducible apply keeps_runCard | with_reducible apply keeps_snsCard
      | with_reducible apply keeps_accReadRun)

theorem keeps_replyLater {z : State} (r : Req) (status : U16) (payload : Bytes) (s : State) (h : Keeps z s) : Keeps z (replyLater r status payload s) := by
  unfold replyLater
  try dsimp only
  repeat' (first
      | with_reducible assumption | with_reducible apply keeps_flushTurn | with_reducible apply keeps_replyTo | with_reducible apply keeps_oweLess
      | with_reducible apply keeps_ite | split | intro _)

theorem keeps_execAccLatch {z : State} (s : State) (hk0 : Keeps z s) : KeepsNext z (execAccLatch s) := by
  unfold execAccLatch
  try dsimp only
  repeat' (first
      | with_reducible assumption
      | with_reducible apply keeps_replyLater | with_reducible apply kn_next | with_reducible apply keeps_foldRound | with_reducible apply keeps_advanceTo
      | with_reducible apply keeps_replyTo
      | fail_if_no_progress (with_reducible refine Keeps.upd ?_ (h5 := fun hh => by simpa [senseSized, upd_length, List.length_map, List.length_mapIdx] using hh))
      | with_reducible apply keeps_ite | split | intro _ | with_reducible apply kn_ite)

theorem keeps_dropUrgent {z : State} (ain : Nat) (s : State) (h : Keeps z s) : Keeps z (dropUrgent ain s) := by
  unfold dropUrgent
  try dsimp only
  repeat' (first
      | with_reducible assumption | with_reducible apply keeps_postMerge
      | fail_if_no_progress (with_reducible refine Keeps.upd ?_ (h5 := fun hh => by simpa [senseSized, upd_length, List.length_map, List.length_mapIdx] using hh)))

theorem keeps_urgentRun {z : State} (s : State) (r : Req) (hk0 : Keeps z s) : KeepsCard z (urgentRun s r) := by
  unfold urgentRun
  extract_lets p mask ains
  refine kc_ite (fun _ => trivial) (fun _ => kc_ite (fun _ => trivial) (fun _ => kc_ite (fun _ => trivial) (fun _ => ?_)))
  split
  rename_i w s1 he
  have h1 : Keeps z s1 := by
    have := keeps_foldl_snd (s0 := z) ains (fun (q : SenseWait × State) i =>
      let c := i / 8
      let b := 1#32 <<< i
      if (getCore q.2 c).urgent.contains (i % 8) then ({ q.1 with left := q.1.left ||| b }, q.2)
      else if (getCore q.2 c).urgent.length ≥ 4 then ({ q.1 with drop := q.1.drop ||| b }, dropUrgent i q.2)
      else ({ q.1 with left := q.1.left ||| b }, updCore c (fun x => { x with urgent := x.urgent ++ [i % 8] }) q.2)) (senseWait s r, s) hk0 (fun a b k => by
        dsimp only
        split
        · exact k
        · split
          · exact keeps_dropUrgent _ _ k
          · exact keeps_updCore _ _ _ k)
    rw [he] at this
    exact this
  exact Keeps.upd h1 (h5 := fun hh => by simpa [senseSized] using hh)

theorem keeps_execSnsUrgent {z : State} (via : Transport) (s : State) (hk0 : Keeps z s) : KeepsNext z (execSnsUrgent via s) := by
  unfold execSnsUrgent
  try dsimp only
  repeat' (first
      | with_reducible assumption | with_reducible apply kn_next | with_reducible apply keeps_runCard | with_reducible apply keeps_snsCard
      | with_reducible apply keeps_urgentRun)

theorem keeps_execUrgentReply {z : State} (s : State) (hk0 : Keeps z s) : KeepsNext z (execUrgentReply s) := by
  unfold execUrgentReply
  try dsimp only
  repeat' (first
      | with_reducible assumption
      | with_reducible apply keeps_replyLater | with_reducible apply kn_next | with_reducible apply keeps_advanceTo | with_reducible apply keeps_dropUrgent
      | with_reducible apply keeps_updCore | with_reducible apply keeps_replyTo | with_reducible apply keeps_forEach
      | fail_if_no_progress (with_reducible refine Keeps.upd ?_ (h5 := fun hh => by simpa [senseSized, upd_length, List.length_map, List.length_mapIdx] using hh))
      | with_reducible apply keeps_ite | split | intro _ | with_reducible apply kn_ite)

/-! ### Filter.lean -/

theorem keeps_fltLoadRun {z : State} (s : State) (r : Req) (hk0 : Keeps z s) : KeepsCard z (fltLoadRun s r) := by
  unfold fltLoadRun
  try dsimp only
  repeat' (first
      | with_reducible assumption | exact trivial | with_reducible apply kc_done
      | fail_if_no_progress (with_reducible refine Keeps.upd ?_ (h6 := fun hh => by simpa [fltOk, fltSized, upd_length, List.length_map, List.length_mapIdx] using hh))
      | with_reducible apply kc_ite | split | intro _ | with_reducible apply keeps_ite)

theorem keeps_execFltLoad {z : State} (via : Transport) (s : State) (hk0 : Keeps z s) : KeepsNext z (execFltLoad via s) := by
  unfold execFltLoad
  try dsimp only
  repeat' (first
      | with_reducible assumption | with_reducible apply kn_next | with_reducible apply keeps_runCard | with_reducible apply keeps_snsCard
      | with_reducible apply keeps_fltLoadRun)

theorem keeps_fltAssignRun {z : State} (s : State) (r : Req) (hk0 : Keeps z s) : KeepsCard z (fltAssignRun s r) := by
  unfold fltAssignRun
  extract_lets +onlyGivenNames p c set a released rest reply q apply t setBad sincBad
  have ha : ∀ l n, KeepsCard z (reply (apply l) n) := fun l n => Keeps.upd hk0 (h6 := fun hh => hh)
  clear_value reply apply
  repeat' (first | exact ha _ _ | exact trivial | refine kc_ite (fun _ => ?_) (fun _ => ?_))

theorem keeps_execFltAssign {z : State} (via : Transport) (s : State) (hk0 : Keeps z s) : KeepsNext z (execFltAssign via s) := by
  unfold execFltAssign
  try dsimp only
  repeat' (first
      | with_reducible assumption | with_reducible apply kn_next | with_reducible apply keeps_runCard | with_reducible apply keeps_snsCard
      | with_reducible apply keeps_fltAssignRun)

theorem keeps_fltQueryRun {z : State} (s : State) (r : Req) (hk0 : Keeps z s) : KeepsCard z (fltQueryRun s r) := by
  unfold fltQueryRun
  try dsimp only
  repeat' (first
      | with_reducible assumption
      | with_reducible apply keeps_foldl
      | with_reducible apply keeps_foldl_fst
      | with_reducible apply keeps_foldl_snd | exact trivial | with_reducible apply kc_done | with_reducible apply keeps_draw | with_reducible apply kc_ite | split
      | intro _ | with_reducible apply keeps_ite)

theorem keeps_execFltQueryDelay {z : State} (via : Transport) (s : State) (hk0 : Keeps z s) : KeepsNext z (execFltQueryDelay via s) := by
  unfold execFltQueryDelay
  try dsimp only
  repeat' (first
      | with_reducible assumption | with_reducible apply kn_next | with_reducible apply keeps_runCard | with_reducible apply keeps_snsCard
      | with_reducible apply keeps_fltQueryRun)

/-! ### ProtCfg.lean -/

theorem keeps_cfgCmpRun {z : State} (s : State) (r : Req) (hk0 : Keeps z s) : KeepsCard z (cfgCmpRun s r) := by
  unfold cfgCmpRun
  try dsimp only
  repeat' (first
      | with_reducible assumption
      | fail_if_no_progress (with_reducible refine Keeps.upd ?_) | exact trivial | with_reducible apply kc_done | with_reducible apply keeps_updCmp | with_reducible apply keeps_armTrips
      | with_reducible apply kc_ite | split | intro _ | with_reducible apply keeps_ite)

theorem keeps_execProtConfigComparator {z : State} (via : Transport) (s : State) (hk0 : Keeps z s) : KeepsNext z (execProtConfigComparator via s) := by
  unfold execProtConfigComparator
  try dsimp only
  repeat' (first
      | with_reducible assumption | with_reducible apply kn_next | with_reducible apply keeps_runCard | with_reducible apply keeps_snsCard
      | with_reducible apply keeps_cfgCmpRun | with_reducible apply kn_ite | with_reducible apply keeps_ite | split | intro _)

theorem keeps_cfgFocRun {z : State} (s : State) (r : Req) (hk0 : Keeps z s) : KeepsCard z (cfgFocRun s r) := by
  unfold cfgFocRun
  try dsimp only
  repeat' (first
      | with_reducible assumption
      | with_reducible apply keeps_focEval
      | fail_if_no_progress (with_reducible refine Keeps.upd ?_) | exact trivial | with_reducible apply kc_done | with_reducible apply keeps_updFoc | with_reducible apply keeps_armTrips
      | with_reducible apply kc_ite | split | intro _ | with_reducible apply keeps_ite)

theorem keeps_execProtConfigFastDetector {z : State} (via : Transport) (s : State) (hk0 : Keeps z s) : KeepsNext z (execProtConfigFastDetector via s) := by
  unfold execProtConfigFastDetector
  try dsimp only
  repeat' (first
      | with_reducible assumption | with_reducible apply kn_next | with_reducible apply keeps_runCard | with_reducible apply keeps_snsCard
      | with_reducible apply keeps_cfgFocRun)

theorem keeps_cfgFltRun {z : State} (s : State) (r : Req) (hk0 : Keeps z s) : KeepsCard z (cfgFltRun s r) := by
  unfold cfgFltRun
  try dsimp only
  repeat' (first
      | with_reducible assumption | exact trivial | with_reducible apply kc_done | with_reducible apply keeps_armTrips | with_reducible apply keeps_updFlt
      | with_reducible apply kc_ite | split | intro _)

theorem keeps_execProtConfigFltInput {z : State} (via : Transport) (s : State) (hk0 : Keeps z s) : KeepsNext z (execProtConfigFltInput via s) := by
  unfold execProtConfigFltInput
  try dsimp only
  repeat' (first
      | with_reducible assumption | with_reducible apply kn_next | with_reducible apply keeps_runCard | with_reducible apply keeps_snsCard
      | with_reducible apply keeps_cfgFltRun)

theorem keeps_cfgHbRun {z : State} (s : State) (r : Req) (hk0 : Keeps z s) : KeepsCard z (cfgHbRun s r) := by
  unfold cfgHbRun
  try dsimp only
  repeat' (first
      | with_reducible assumption | exact trivial | with_reducible apply kc_done | with_reducible apply keeps_updHb | with_reducible apply kc_ite | split
      | intro _)

theorem keeps_execProtConfigHalfBridge {z : State} (via : Transport) (s : State) (hk0 : Keeps z s) : KeepsNext z (execProtConfigHalfBridge via s) := by
  unfold execProtConfigHalfBridge
  try dsimp only
  repeat' (first
      | with_reducible assumption | with_reducible apply kn_next | with_reducible apply keeps_runCard | with_reducible apply keeps_snsCard
      | with_reducible apply keeps_cfgHbRun)

theorem keeps_cfgLegRun {z : State} (s : State) (r : Req) (hk0 : Keeps z s) : KeepsCard z (cfgLegRun s r) := by
  unfold cfgLegRun
  dsimp only
  split
  · rename_i e he
    split at he
    · exact keeps_stageGate2 _ _ _ hk0 _ he
    · cases he
  · split
    · exact trivial
    · exact keeps_updChan _ _ _ hk0

theorem keeps_execProtConfigLeg {z : State} (via : Transport) (s : State) (hk0 : Keeps z s) : KeepsNext z (execProtConfigLeg via s) := by
  unfold execProtConfigLeg
  try dsimp only
  repeat' (first
      | with_reducible assumption | with_reducible apply kn_next | with_reducible apply keeps_runCard | with_reducible apply keeps_snsCard
      | with_reducible apply keeps_cfgLegRun)

theorem keeps_selftestRun {z : State} (s : State) (r : Req) (hk0 : Keeps z s) : KeepsCard z (selftestRun s r) := by
  unfold selftestRun
  try dsimp only
  repeat' (first
      | with_reducible assumption | exact trivial | with_reducible apply kc_long
      | fail_if_no_progress (with_reducible refine Keeps.upd ?_ (h7 := fun hh => by simpa [pwmSized, upd_length, List.length_map, List.length_mapIdx] using hh))
      | with_reducible apply kc_ite | split | intro _)

theorem keeps_execProtSelftest {z : State} (via : Transport) (s : State) (hk0 : Keeps z s) : KeepsNext z (execProtSelftest via s) := by
  unfold execProtSelftest
  try dsimp only
  repeat' (first
      | with_reducible assumption | with_reducible apply kn_next | with_reducible apply keeps_runCard | with_reducible apply keeps_snsCard
      | with_reducible apply keeps_selftestRun | with_reducible apply kn_ite | with_reducible apply keeps_ite | split | intro _)

theorem keeps_execProtSelftestDone {z : State} (cmp : U32) (foc : U64) (hb : Byte) (step : Byte) (diffs : List U16) (s : State) (h : Keeps z s) : KeepsNext z (execProtSelftestDone cmp foc hb step diffs s) := by
  unfold execProtSelftestDone
  try dsimp only
  repeat' (first
      | with_reducible assumption | with_reducible apply kn_next | with_reducible apply keeps_post | with_reducible apply keeps_forEach
      | with_reducible apply keeps_endLong | with_reducible apply keeps_armTrips | with_reducible apply keeps_foldl | with_reducible apply keeps_foldl_fst
      | with_reducible apply keeps_foldl_snd
      | fail_if_no_progress (with_reducible refine Keeps.upd ?_ (h7 := fun hh => by first | exact hh | ((repeat' split) <;> simp_all [pwmSized, upd_length, List.length_map, List.length_mapIdx, memWrite_wf, memWriteBytes_wf, memClear_wf])))
      | with_reducible apply kn_ite | with_reducible apply keeps_ite | split | intro _)

/-! ### Capture.lean -/

theorem keeps_capConfigRun {z : State} (s : State) (r : Req) (hk0 : Keeps z s) : KeepsCard z (capConfigRun s r) := by
  unfold capConfigRun
  try dsimp only
  repeat' (first
      | with_reducible assumption | exact trivial | with_reducible apply kc_done | with_reducible apply keeps_updCap
      | (show capOk _; (repeat' split) <;> simp_all [capOk, capSized, upd_length, memWrite_wf, memWriteBytes_wf, memClear_wf]) | with_reducible apply kc_ite
      | split | intro _)

theorem keeps_execCapConfig {z : State} (via : Transport) (s : State) (hk0 : Keeps z s) : KeepsNext z (execCapConfig via s) := by
  unfold execCapConfig
  try dsimp only
  repeat' (first
      | with_reducible assumption | with_reducible apply kn_next | with_reducible apply keeps_runCard | with_reducible apply keeps_snsCard
      | with_reducible apply keeps_capConfigRun)

theorem keeps_capStopRun {z : State} (s : State) (r : Req) (hk0 : Keeps z s) : KeepsCard z (capStopRun s r) := by
  unfold capStopRun
  try dsimp only
  repeat' (first
      | with_reducible assumption | exact trivial | with_reducible apply kc_done | with_reducible apply keeps_capShutdown | with_reducible apply kc_ite | split
      | intro _ | with_reducible apply keeps_ite)

theorem keeps_capArmRun {z : State} (s : State) (r : Req) (hk0 : Keeps z s) : KeepsCard z (capArmRun s r) := by
  unfold capArmRun
  repeat' (first | exact trivial | refine kc_ite (fun _ => ?_) (fun _ => ?_))
  exact keeps_updCap _ _ hk0 (fun c hc => ⟨⟨by rfl, hc.1.2.1, hc.1.2.2.1, hc.1.2.2.2.1, hc.1.2.2.2.2.1, by rfl⟩, hc.2⟩)

theorem keeps_capForceRun {z : State} (s : State) (r : Req) (hk0 : Keeps z s) : KeepsCard z (capForceRun s r) := by
  unfold capForceRun
  try dsimp only
  repeat' (first
      | with_reducible assumption
      | with_reducible apply keeps_capTake | exact trivial | with_reducible apply kc_done | with_reducible apply keeps_capFire | with_reducible apply kc_ite | split
      | intro _ | with_reducible apply keeps_ite)

theorem keeps_execCapArmStop {z : State} (via : Transport) (s : State) (hk0 : Keeps z s) : KeepsNext z (execCapArmStop via s) := by
  unfold execCapArmStop
  try dsimp only
  repeat' (first
      | with_reducible assumption | with_reducible apply kn_next | with_reducible apply keeps_runCard | with_reducible apply keeps_snsCard
      | with_reducible apply keeps_capStopRun)

theorem keeps_execCapArmArm {z : State} (via : Transport) (s : State) (hk0 : Keeps z s) : KeepsNext z (execCapArmArm via s) := by
  unfold execCapArmArm
  try dsimp only
  repeat' (first
      | with_reducible assumption | with_reducible apply kn_next | with_reducible apply keeps_runCard | with_reducible apply keeps_snsCard
      | with_reducible apply keeps_capArmRun)

theorem keeps_execCapArmForce {z : State} (via : Transport) (s : State) (hk0 : Keeps z s) : KeepsNext z (execCapArmForce via s) := by
  unfold execCapArmForce
  try dsimp only
  repeat' (first
      | with_reducible assumption | with_reducible apply kn_next | with_reducible apply keeps_runCard | with_reducible apply keeps_snsCard
      | with_reducible apply keeps_capForceRun)

theorem keeps_releaseTo {z : State} (q : U32) (s : State) (h : Keeps z s) : Keeps z (releaseTo q s) := by
  unfold releaseTo
  try dsimp only
  repeat' (first
      | with_reducible assumption | with_reducible apply keeps_followFill | with_reducible apply keeps_updCap
      | (show capOk _; (repeat' split) <;> simp_all [capOk, capSized, upd_length, memWrite_wf, memWriteBytes_wf, memClear_wf]) | split | intro _)

theorem keeps_capStatusRun {z : State} (s : State) (r : Req) (hk0 : Keeps z s) : KeepsCard z (capStatusRun s r) := by
  unfold capStatusRun
  try dsimp only
  repeat' (first
      | with_reducible assumption | exact trivial | with_reducible apply kc_done | with_reducible apply keeps_releaseTo | with_reducible apply kc_ite | split
      | intro _)

theorem keeps_execCapStatus {z : State} (via : Transport) (s : State) (hk0 : Keeps z s) : KeepsNext z (execCapStatus via s) := by
  unfold execCapStatus
  try dsimp only
  repeat' (first
      | with_reducible assumption | with_reducible apply kn_next | with_reducible apply keeps_runCard | with_reducible apply keeps_snsCard
      | with_reducible apply keeps_capStatusRun)

theorem keeps_calPulse {z : State} (k : TrigCal) (at_ : Nat) (s : State) (h : Keeps z s) : Keeps z (calPulse k at_ s) := by
  unfold calPulse
  try dsimp only
  repeat' (first
      | with_reducible assumption | with_reducible apply keeps_updCap | fail_if_no_progress (with_reducible refine Keeps.upd ?_)
      | (show capOk _; (repeat' split) <;> simp_all [capOk, capSized, upd_length, memWrite_wf, memWriteBytes_wf, memClear_wf]) | with_reducible apply keeps_ite
      | split | intro _)

theorem keeps_trigCalRun {z : State} (action : Nat) (s : State) (r : Req) (hk0 : Keeps z s) : KeepsCard z (trigCalRun action s r) := by
  unfold trigCalRun
  try dsimp only
  repeat' (first
      | with_reducible assumption
      | with_reducible apply keeps_calPulse
      | fail_if_no_progress (with_reducible refine Keeps.upd ?_) | exact trivial | with_reducible apply kc_done | with_reducible apply kc_long | with_reducible apply keeps_updCap
      | (show capOk _; (repeat' split) <;> simp_all [capOk, capSized, upd_length, memWrite_wf, memWriteBytes_wf, memClear_wf]) | with_reducible apply kc_ite
      | split | intro _ | with_reducible apply keeps_ite)

theorem keeps_execCapTrigbusCalSet {z : State} (via : Transport) (s : State) (hk0 : Keeps z s) : KeepsNext z (execCapTrigbusCalSet via s) := by
  unfold execCapTrigbusCalSet
  try dsimp only
  repeat' (first
      | with_reducible assumption | with_reducible apply kn_next | with_reducible apply keeps_runCard | with_reducible apply keeps_snsCard
      | with_reducible apply keeps_trigCalRun)

theorem keeps_execCapTrigbusCalRespond {z : State} (via : Transport) (s : State) (hk0 : Keeps z s) : KeepsNext z (execCapTrigbusCalRespond via s) := by
  unfold execCapTrigbusCalRespond
  try dsimp only
  repeat' (first
      | with_reducible assumption | with_reducible apply kn_next | with_reducible apply keeps_runCard | with_reducible apply keeps_snsCard
      | with_reducible apply keeps_trigCalRun)

theorem keeps_execCapTrigbusCalInitiate {z : State} (via : Transport) (s : State) (hk0 : Keeps z s) : KeepsNext z (execCapTrigbusCalInitiate via s) := by
  unfold execCapTrigbusCalInitiate
  try dsimp only
  repeat' (first
      | with_reducible assumption | with_reducible apply kn_next | with_reducible apply keeps_runCard | with_reducible apply keeps_snsCard
      | with_reducible apply keeps_trigCalRun | with_reducible apply kn_ite | with_reducible apply keeps_ite | split | intro _)

theorem keeps_execCalPulseResponse {z : State} (s : State) (hk0 : Keeps z s) : KeepsNext z (execCalPulseResponse s) := by
  unfold execCalPulseResponse
  try dsimp only
  repeat' (first
      | with_reducible assumption
      | with_reducible apply keeps_advanceTo
      | with_reducible apply keeps_calPulse | with_reducible apply kn_next | with_reducible apply kn_ite | with_reducible apply keeps_updCap
      | (show capOk _; (repeat' split) <;> simp_all [capOk, capSized, upd_length, memWrite_wf, memWriteBytes_wf, memClear_wf]) | split | intro _ | with_reducible apply keeps_ite)

theorem keeps_execTrigbusCalDone {z : State} (rt own spread : F32) (unanswered : Bool) (s : State) (hk0 : Keeps z s) : KeepsNext z (execTrigbusCalDone rt own spread unanswered s) := by
  unfold execTrigbusCalDone
  try dsimp only
  repeat' (first
      | with_reducible assumption
      | fail_if_no_progress (with_reducible refine Keeps.upd ?_) | with_reducible apply kn_next | with_reducible apply kn_ite | with_reducible apply keeps_updCap
      | with_reducible apply keeps_endLong | with_reducible apply keeps_advanceTo
      | (show capOk _; (repeat' split) <;> simp_all [capOk, capSized, upd_length, memWrite_wf, memWriteBytes_wf, memClear_wf]) | split | intro _ | with_reducible apply keeps_ite)

theorem keeps_openBlock {z : State} (frame : U32) (reload factor : Nat) (s : State) (h : Keeps z s) : Keeps z (openBlock frame reload factor s) := by
  unfold openBlock
  try dsimp only
  repeat' (first
      | with_reducible assumption | with_reducible apply keeps_updCap | fail_if_no_progress (with_reducible refine Keeps.upd ?_)
      | (show capOk _; (repeat' split) <;> simp_all [capOk, capSized, upd_length, memWrite_wf, memWriteBytes_wf, memClear_wf]) | with_reducible apply keeps_ite
      | split | intro _)

theorem keeps_appendRow {z : State} (reload : Nat) (s : State) (h : Keeps z s) : Keeps z (appendRow reload s) := by
  unfold appendRow
  try dsimp only
  repeat' (first
      | with_reducible assumption
      | with_reducible apply keeps_placeTrig
      | with_reducible apply keeps_post
      | fail_if_no_progress (with_reducible refine Keeps.upd ?_) | with_reducible apply keeps_updCap | with_reducible apply keeps_capDone | with_reducible apply keeps_closeBlock
      | (show capOk _; (repeat' split) <;> simp_all [capOk, capSized, upd_length, memWrite_wf, memWriteBytes_wf, memClear_wf]) | with_reducible apply keeps_ite
      | split | intro _)

theorem keeps_sampleRow {z : State} (frame : U32) (reload factor : Nat) (s : State) (h : Keeps z s) : Keeps z (sampleRow frame reload factor s) := by
  unfold sampleRow
  extract_lets +onlyGivenNames k s1 s2
  have h1 : Keeps z s1 := keeps_updCap _ _ h (fun c hc => hc)
  clear_value s1
  have h2 : Keeps z s2 := by
    simp only [s2]
    split
    · split
      · exact keeps_closeBlock _ _ h1
      · exact h1
    · exact h1
  clear_value s2
  extract_lets +onlyGivenNames s3
  have h3 : ∀ t, s3 = some t → Keeps z t := by
    intro t ht
    simp only [s3] at ht
    split at ht
    · cases ht; exact h2
    · split at ht
      · cases ht
      · cases ht; exact keeps_openBlock _ _ _ _ h2
  clear_value s3
  split
  · exact keeps_appendRow _ _ (h3 _ rfl)
  · extract_lets +onlyGivenNames d
    exact keeps_postMergeWith _ _ _ _ _ _ (keeps_updCap _ _ h2 (fun c hc => hc))

theorem keeps_execCaptureRowWrite {z : State} (s : State) (hk0 : Keeps z s) : KeepsNext z (execCaptureRowWrite s) := by
  unfold execCaptureRowWrite
  split
  · exact kn_next hk0
  · rename_i frame reload rest hf
    extract_lets +onlyGivenNames k
    refine kn_ite (fun _ => kn_next hk0) (fun _ => ?_)
    extract_lets +onlyGivenNames tr due s1 s2 hit s3 s4
    have h1 : Keeps z s1 := by
      simp only [s1, updCap]
      exact Keeps.upd hk0 (h11 := fun hh => ⟨⟨by simp [tr, frameTraces, hh.1.1], hh.1.2⟩, hh.2⟩)
    have h2 : Keeps z s2 := keeps_ite (fun _ => keeps_closeBlock _ _ (keeps_updCap _ _ h1 (fun c hc => hc))) (fun _ => h1)
    have h3 : Keeps z s3 := by
      have ho : ∀ o : Option Nat, Keeps z (match o with
          | some i => capFire { at_ := activeAt s2.time reload, source := i, driver := 0xFF, unknown := false } s2
          | none => s2) := fun o => by cases o <;> [exact h2; exact keeps_capFire _ _ h2]
      exact ho hit
    have h4 : Keeps z s4 := keeps_ite (fun _ => keeps_sampleRow _ _ _ _ h3) (fun _ => h3)
    exact kn_next (keeps_capRowsEnd _ (keeps_updCap _ _ h4 (fun c hc => hc)))

theorem keeps_busDelay {z : State} (line : Nat) (drv : Option Nat) (s : State) (h : Keeps z s) : Keeps z (busDelay line drv s).2 := by
  unfold busDelay
  try dsimp only
  repeat' (first
      | with_reducible assumption
      | with_reducible apply keeps_foldl
      | with_reducible apply keeps_foldl_fst
      | with_reducible apply keeps_foldl_snd | with_reducible apply keeps_draw | split | with_reducible apply keeps_ite | intro _)
theorem keeps_busDelay_eq {z : State} {line : Nat} {drv : Option Nat} {s : State} {xx : Nat} {tt : State} (hee : busDelay line drv s = (xx, tt)) (h : Keeps z s) : Keeps z tt := by
  have := keeps_busDelay line drv s h
  rw [hee] at this; exact this

theorem keeps_lineFalls {z : State} (line : Nat) (s : State) (h : Keeps z s) : Keeps z (lineFalls line s) := by
  unfold lineFalls
  try dsimp only
  repeat' (first
      | with_reducible assumption | with_reducible apply keeps_takeEdge | with_reducible apply keeps_updCap | fail_if_no_progress (with_reducible refine Keeps.upd ?_)
      | (show capOk _; (repeat' split) <;> simp_all [capOk, capSized, upd_length, memWrite_wf, memWriteBytes_wf, memClear_wf]) | with_reducible apply keeps_ite
      | split | intro _)

theorem keeps_lineGlitch {z : State} (line edge : Nat) (s : State) (h : Keeps z s) : Keeps z (lineGlitch line edge s) := by
  unfold lineGlitch
  exact keeps_updCap _ _ h (fun c hc => by show capOk _; simp_all [capOk, capSized, upd_length])

theorem keeps_lineRises {z : State} (line edge : Nat) (s : State) (h : Keeps z s) : Keeps z (lineRises line edge s) := by
  unfold lineRises
  try dsimp only
  repeat' (first
      | with_reducible assumption | with_reducible apply keeps_updCap | with_reducible apply keeps_post | with_reducible apply keeps_busDelay
      | with_reducible apply keeps_capTake | with_reducible apply keeps_capReplace | with_reducible apply keeps_lineGlitch | fail_if_no_progress (with_reducible refine Keeps.upd ?_)
      | (show capOk _; (repeat' split) <;> simp_all [capOk, capSized, upd_length, memWrite_wf, memWriteBytes_wf, memClear_wf]) | with_reducible apply keeps_ite
      | split | intro _)

theorem keeps_execTrigBusEdge {z : State} (line : Nat) (low : Bool) (s : State) (h : Keeps z s) : KeepsNext z (execTrigBusEdge line low s) := by
  unfold execTrigBusEdge
  try dsimp only
  repeat' (first
      | with_reducible assumption | with_reducible apply kn_next | with_reducible apply keeps_lineFalls | with_reducible apply keeps_lineRises
      | with_reducible apply kn_ite | with_reducible apply keeps_ite | split | intro _)

theorem keeps_execTrigDriveEnd {z : State} (line : Nat) (s : State) (hk0 : Keeps z s) : KeepsNext z (execTrigDriveEnd line s) := by
  unfold execTrigDriveEnd
  try dsimp only
  repeat' (first
      | with_reducible assumption
      | with_reducible apply keeps_calPulse
      | fail_if_no_progress (with_reducible refine Keeps.upd ?_) | with_reducible apply kn_next | with_reducible apply keeps_updCap | with_reducible apply keeps_advanceTo
      | (show capOk _; (repeat' split) <;> simp_all [capOk, capSized, upd_length, memWrite_wf, memWriteBytes_wf, memClear_wf]) | split | intro _ | with_reducible apply kn_ite | with_reducible apply keeps_ite)

theorem keeps_execStreamBlockSend {z : State} (s : State) (hk0 : Keeps z s) : KeepsNext z (execStreamBlockSend s) := by
  unfold execStreamBlockSend
  try dsimp only
  repeat' (first
      | with_reducible assumption
      | fail_if_no_progress (with_reducible refine Keeps.upd ?_) | with_reducible apply kn_next | with_reducible apply kn_ite | with_reducible apply keeps_updCap
      | with_reducible apply keeps_ethSend | with_reducible apply keeps_releaseTo
      | (show capOk _; (repeat' split) <;> simp_all [capOk, capSized, upd_length, memWrite_wf, memWriteBytes_wf, memClear_wf])
      | with_reducible apply keeps_forEach | split | intro _ | with_reducible apply keeps_ite)

theorem keeps_execCaptureShutdownEnd {z : State} (s : State) (hk0 : Keeps z s) : KeepsNext z (execCaptureShutdownEnd s) := by
  unfold execCaptureShutdownEnd
  try dsimp only
  repeat' (first
      | with_reducible assumption | with_reducible apply kn_next | with_reducible apply kn_ite | with_reducible apply keeps_capEnd
      | with_reducible apply keeps_closeBlock | intro _)

/-! ### Clock.lean -/

theorem keeps_toFallback {z : State} (s : State) (h : Keeps z s) : Keeps z (toFallback s) := by
  unfold toFallback
  try dsimp only
  repeat' (first
      | with_reducible assumption | with_reducible apply keeps_canClockLost
      | fail_if_no_progress (with_reducible refine Keeps.upd ?_ (h1 := fun hh => by (repeat' split) <;> simp_all [timeSized, upd_length, List.length_map, List.length_mapIdx, memWrite_wf, memWriteBytes_wf, memClear_wf]))
      | with_reducible apply keeps_ite | intro _)

theorem keeps_endFallback {z : State} (s : State) (h : Keeps z s) : Keeps z (endFallback s) := by
  unfold endFallback
  try dsimp only
  repeat' (first
      | with_reducible assumption
      | fail_if_no_progress (with_reducible refine Keeps.upd ?_ (h1 := fun hh => by simpa [timeSized, upd_length, List.length_map, List.length_mapIdx] using hh))
      | split | with_reducible apply keeps_ite | intro _)

theorem keeps_gateOutputs {z : State} (i : Nat) (s : State) (h : Keeps z s) : Keeps z (gateOutputs i s) := by
  unfold gateOutputs
  try dsimp only
  repeat' (first
      | with_reducible assumption
      | fail_if_no_progress (with_reducible refine Keeps.upd ?_) | with_reducible apply keeps_updPll | with_reducible apply keeps_toFallback | with_reducible apply keeps_mclkChanged
      | with_reducible apply keeps_forEach | with_reducible apply keeps_ite | split | intro _)

theorem keeps_startRelock {z : State} (i : Nat) (hop : Bool) (req : Option U16) (attempt : Nat) (s : State) (h : Keeps z s) : Keeps z (startRelock i hop req attempt s) := by
  unfold startRelock
  try dsimp only
  repeat' (first
      | with_reducible assumption
      | fail_if_no_progress (with_reducible refine Keeps.upd ?_) | with_reducible apply keeps_gateOutputs | with_reducible apply keeps_updPll | with_reducible apply keeps_ite | split | intro _)

theorem keeps_relockComplete {z : State} (i : Nat) (s : State) (h : Keeps z s) : Keeps z (relockComplete i s) := by
  unfold relockComplete
  try dsimp only
  repeat' (first
      | with_reducible assumption
      | fail_if_no_progress (with_reducible refine Keeps.upd ?_) | with_reducible apply keeps_updPll | with_reducible apply keeps_post | with_reducible apply keeps_endLong | split | with_reducible apply keeps_ite | intro _)

theorem keeps_finishVerify {z : State} (i : Nat) (s : State) (h : Keeps z s) : Keeps z (finishVerify i s) := by
  unfold finishVerify
  try dsimp only
  repeat' (first
      | with_reducible assumption | with_reducible apply keeps_relockComplete | with_reducible apply keeps_ite | split | intro _)

theorem keeps_execAdpllLock {z : State} (i : Nat) (hopLocked : Bool) (band : BitVec 6) (fine : U32) (f rms : F32) (refEdge : Nat) (s : State) (h : Keeps z s) : KeepsNext z (execAdpllLock i hopLocked band fine f rms refEdge s) := by
  unfold execAdpllLock
  try dsimp only
  repeat' (first
      | with_reducible assumption | with_reducible apply kn_next | with_reducible apply keeps_updPll | with_reducible apply keeps_finishVerify
      | fail_if_no_progress (with_reducible refine Keeps.upd ?_) | with_reducible apply kn_ite | with_reducible apply keeps_ite | split | intro _)

theorem keeps_execOutputRelease {z : State} (i out : Nat) (s : State) (hk0 : Keeps z s) : KeepsNext z (execOutputRelease i out s) := by
  unfold execOutputRelease
  try dsimp only
  repeat' (first
      | with_reducible assumption
      | with_reducible apply keeps_finishVerify | with_reducible apply kn_next | with_reducible apply kn_ite | with_reducible apply keeps_updPll
      | with_reducible apply keeps_endFallback | with_reducible apply keeps_mclkChanged | with_reducible apply keeps_relockComplete
      | fail_if_no_progress (with_reducible refine Keeps.upd ?_ (h1 := fun hh => by simpa [timeSized, upd_length, List.length_map, List.length_mapIdx] using hh))
      | split | intro _ | with_reducible apply keeps_ite)

theorem keeps_execLossOfLock {z : State} (i reason : Nat) (s : State) (hk0 : Keeps z s) : KeepsNext z (execLossOfLock i reason s) := by
  unfold execLossOfLock
  try dsimp only
  repeat' (first
      | with_reducible assumption
      | fail_if_no_progress (with_reducible refine Keeps.upd ?_) | with_reducible apply kn_next | with_reducible apply kn_ite | with_reducible apply keeps_gateOutputs
      | with_reducible apply keeps_updPll | with_reducible apply keeps_post | with_reducible apply keeps_safetyActs | with_reducible apply keeps_endLong | split
      | intro _ | with_reducible apply keeps_ite)

theorem keeps_execRelockStart {z : State} (i : Nat) (s : State) (hk0 : Keeps z s) : KeepsNext z (execRelockStart i s) := by
  unfold execRelockStart
  try dsimp only
  repeat' (first
      | with_reducible assumption | with_reducible apply kn_next | with_reducible apply kn_ite | with_reducible apply keeps_advanceTo
      | with_reducible apply keeps_updPll | with_reducible apply keeps_startRelock | split | intro _)

theorem keeps_execRelockAttemptTimeout {z : State} (i : Nat) (s : State) (hk0 : Keeps z s) : KeepsNext z (execRelockAttemptTimeout i s) := by
  unfold execRelockAttemptTimeout
  try dsimp only
  repeat' (first
      | with_reducible assumption | with_reducible apply kn_next | with_reducible apply kn_ite | with_reducible apply keeps_advanceTo
      | with_reducible apply keeps_startRelock | with_reducible apply keeps_post | with_reducible apply keeps_updPll | with_reducible apply keeps_endLong
      | split | intro _)

theorem keeps_setPlanRun {z : State} (s : State) (r : Req) (hk0 : Keeps z s) : KeepsCard z (setPlanRun s r) := by
  unfold setPlanRun
  try dsimp only
  repeat' (first
      | with_reducible assumption | exact trivial | with_reducible apply kc_long | with_reducible apply keeps_startRelock | with_reducible apply keeps_updPll
      | with_reducible apply kc_ite | split | intro _)

theorem keeps_execClkSetPlan {z : State} (via : Transport) (s : State) (hk0 : Keeps z s) : KeepsNext z (execClkSetPlan via s) := by
  unfold execClkSetPlan
  try dsimp only
  repeat' (first
      | with_reducible assumption | with_reducible apply kn_next | with_reducible apply keeps_runCard | with_reducible apply keeps_snsCard
      | with_reducible apply keeps_setPlanRun)

theorem keeps_hopRun {z : State} (s : State) (r : Req) (hk0 : Keeps z s) : KeepsCard z (hopRun s r) := by
  unfold hopRun
  try dsimp only
  repeat' (first
      | with_reducible assumption | exact trivial | with_reducible apply kc_long | with_reducible apply keeps_startRelock | with_reducible apply keeps_updPll
      | with_reducible apply kc_ite | split | intro _)

theorem keeps_execClkHop {z : State} (via : Transport) (s : State) (hk0 : Keeps z s) : KeepsNext z (execClkHop via s) := by
  unfold execClkHop
  try dsimp only
  repeat' (first
      | with_reducible assumption | with_reducible apply kn_next | with_reducible apply keeps_runCard | with_reducible apply keeps_snsCard
      | with_reducible apply keeps_hopRun)

theorem keeps_storeSearchRun {z : State} (s : State) (r : Req) (hk0 : Keeps z s) : KeepsCard z (storeSearchRun s r) := by
  unfold storeSearchRun
  try dsimp only
  repeat' (first
      | with_reducible assumption | exact trivial | with_reducible apply kc_done | with_reducible apply keeps_updPll | with_reducible apply kc_ite | split
      | intro _)

theorem keeps_execClkStoreSearch {z : State} (via : Transport) (s : State) (hk0 : Keeps z s) : KeepsNext z (execClkStoreSearch via s) := by
  unfold execClkStoreSearch
  try dsimp only
  repeat' (first
      | with_reducible assumption | with_reducible apply kn_next | with_reducible apply keeps_runCard | with_reducible apply keeps_snsCard
      | with_reducible apply keeps_storeSearchRun)

theorem keeps_clkOutputRun {z : State} (s : State) (r : Req) (hk0 : Keeps z s) : KeepsCard z (clkOutputRun s r) := by
  unfold clkOutputRun
  try dsimp only
  repeat' (first
      | with_reducible assumption
      | with_reducible apply keeps_finishVerify | exact trivial | with_reducible apply kc_done | with_reducible apply keeps_updOut | with_reducible apply keeps_mclkChanged
      | with_reducible apply kc_ite | split | intro _ | with_reducible apply keeps_ite)

theorem keeps_execClkOutput {z : State} (via : Transport) (s : State) (hk0 : Keeps z s) : KeepsNext z (execClkOutput via s) := by
  unfold execClkOutput
  try dsimp only
  repeat' (first
      | with_reducible assumption | with_reducible apply kn_next | with_reducible apply keeps_runCard | with_reducible apply keeps_snsCard
      | with_reducible apply keeps_clkOutputRun)

end Sys2Proof
end

