-- ==== Sys2Proof/Laws/KeepsLoop.lean ====
section
/-! SUPPORT. What graphs, the scheduler, safety, field, forming and CAN keep, one lemma an operation: the
queue, the numbers of resources, the form of the memories and the fuses. -/

namespace Sys2Proof

set_option linter.all false
set_option Elab.async false

open Sys2Proof.Machine
open Sys2Proof.Laws

/-! ### Graph.lean -/

theorem keeps_graphCard {z : State} (f : State → Req → CardResult) (hf : ∀ s r, Keeps z s → KeepsCard z (f s r)) : ∀ s r, Keeps z s → KeepsCard z ((graphCard f).run s r) := by
  intro s r hk0
  unfold graphCard
  dsimp only
  repeat' (with_reducible exact hf _ _ hk0)

theorem keeps_runOnlyCard {z : State} (f : State → Req → CardResult) (hf : ∀ s r, Keeps z s → KeepsCard z (f s r)) : ∀ s r, Keeps z s → KeepsCard z ((runOnlyCard f).run s r) := by
  intro s r hk0
  unfold runOnlyCard
  dsimp only
  repeat' (with_reducible exact hf _ _ hk0)

theorem keeps_loadRun {z : State} (s : State) (r : Req) (hk0 : Keeps z s) : KeepsCard z (loadRun s r) := by
  unfold loadRun
  try dsimp only
  repeat' (first
      | with_reducible assumption | exact trivial | with_reducible apply kc_long
      | fail_if_no_progress (with_reducible refine Keeps.upd ?_ (h8 := fun hh => by simpa [loopOk, loopSized, upd_length, List.length_map, List.length_mapIdx] using hh))
      | with_reducible apply kc_ite | split | intro _)

theorem keeps_execGraphLoad {z : State} (via : Transport) (s : State) (hk0 : Keeps z s) : KeepsNext z (execGraphLoad via s) := by
  unfold execGraphLoad
  try dsimp only
  repeat' (first
      | with_reducible assumption | with_reducible apply kn_next | with_reducible apply keeps_runCard | with_reducible apply keeps_graphCard
      | with_reducible apply keeps_loadRun)

theorem keeps_unloadGraph {z : State} (n : Nat) (s : State) (h : Keeps z s) : Keeps z (unloadGraph n s) := by
  unfold unloadGraph
  try dsimp only
  repeat' (first
      | with_reducible assumption | with_reducible apply keeps_updFu | with_reducible apply keeps_updStage | with_reducible apply keeps_forEach
      | fail_if_no_progress (with_reducible refine Keeps.upd ?_ (h8 := fun hh => by simpa [loopOk, loopSized, upd_length, List.length_map, List.length_mapIdx] using hh))
      | intro _ | with_reducible apply keeps_ite | split)

theorem keeps_installGraph {z : State} (n : Nat) (g : Graph) (s : State) (h : Keeps z s) : Keeps z (installGraph n g s) := by
  unfold installGraph
  try dsimp only
  repeat' (first
      | with_reducible assumption
      | with_reducible apply keeps_refeed
      | with_reducible apply keeps_foldl_fst
      | with_reducible apply keeps_foldl_snd
      | fail_if_no_progress (with_reducible refine Keeps.upd ?_) | with_reducible apply keeps_unloadGraph | with_reducible apply keeps_updEngine | with_reducible apply keeps_updStage
      | with_reducible apply keeps_updFu | with_reducible apply keeps_foldl | intro _ | with_reducible apply keeps_ite | split)

theorem keeps_execGraphLoadDone {z : State} (s : State) (hk0 : Keeps z s) : KeepsNext z (execGraphLoadDone s) := by
  unfold execGraphLoadDone
  try dsimp only
  repeat' (first
      | with_reducible assumption | with_reducible apply kn_next | with_reducible apply kn_ite | with_reducible apply keeps_endLong
      | with_reducible apply keeps_unloadGraph | with_reducible apply keeps_installGraph
      | fail_if_no_progress (with_reducible refine Keeps.upd ?_ (h8 := fun hh => by simpa [loopOk, loopSized, upd_length, List.length_map, List.length_mapIdx] using hh))
      | split | intro _)

theorem keeps_startRun {z : State} (s : State) (r : Req) (hk0 : Keeps z s) : KeepsCard z (startRun s r) := by
  unfold startRun
  extract_lets p n x waits s1 gov s2 s3
  have h1 : Keeps z s1 := keeps_updStage _ _ _ hk0
  have h2 : Keeps z s2 := keeps_ite (fun _ => keeps_passRelease _ _ h1) (fun _ => h1)
  have h3 : Keeps z s3 := keeps_ite (fun _ => keeps_updStage _ _ _ h2) (fun _ => keeps_enterStarting _ _ h2)
  refine kc_ite (fun _ => kc_shutting _ _) fun _ => ?_
  split
  · exact kc_rejectWith _ _
  · exact kc_rejectWith _ _
  · repeat refine kc_ite (fun _ => kc_rejectWith _ _) fun _ => ?_
    refine kc_ite (fun _ => kc_deferred (Keeps.upd h1)) fun _ => ?_
    exact kc_ite (fun _ => kc_deferred (keeps_awaitPrecharge _ _ _ h2)) fun _ => kc_done h3

theorem keeps_execGraphStart {z : State} (via : Transport) (s : State) (hk0 : Keeps z s) : KeepsNext z (execGraphStart via s) := by
  unfold execGraphStart
  try dsimp only
  repeat' (first
      | with_reducible assumption | with_reducible apply kn_next | with_reducible apply keeps_runCard | with_reducible apply keeps_runOnlyCard
      | with_reducible apply keeps_startRun)

theorem keeps_enqueueParam {z : State} (n words : Nat) (s : State) (h : Keeps z s) : Keeps z (enqueueParam n words s) := by
  unfold enqueueParam
  try dsimp only
  repeat' (first
      | with_reducible assumption
      | fail_if_no_progress (with_reducible refine Keeps.upd ?_ (h8 := fun hh => by simpa [loopOk, loopSized, upd_length, List.length_map, List.length_mapIdx] using hh)))

theorem keeps_modeOnlyRun {z : State} (s : State) (r : Req) (hk0 : Keeps z s) : KeepsCard z (modeOnlyRun s r) := by
  unfold modeOnlyRun
  try dsimp only
  repeat' (first
      | with_reducible assumption | exact trivial | with_reducible apply kc_done | with_reducible apply keeps_enqueueParam | with_reducible apply keeps_updStage
      | with_reducible apply kc_ite | split | intro _)

theorem keeps_holdRequest {z : State} (mine : Req → Bool) (via : Transport) (s : State) (h : Keeps z s) : Keeps z (holdRequest mine via s) := by
  unfold holdRequest
  try dsimp only
  repeat' (first
      | with_reducible assumption | fail_if_no_progress (with_reducible refine Keeps.upd ?_) | with_reducible apply keeps_ite | split | intro _)

theorem keeps_paramRow {z : State} (mine : Req → Bool) (card : Card) (via : Transport) (s : State) (h : Keeps z s) (hc : ∀ s r, Keeps z s → KeepsCard z (card.run s r)) : Keeps z (paramRow mine card via s) := by
  unfold paramRow
  try dsimp only
  repeat' (first
      | with_reducible assumption | with_reducible apply keeps_runCard | with_reducible apply keeps_holdRequest | with_reducible apply keeps_ite | split | intro _)

theorem keeps_execGraphStartModeOnly {z : State} (via : Transport) (s : State) (hk0 : Keeps z s) : KeepsNext z (execGraphStartModeOnly via s) := by
  unfold execGraphStartModeOnly
  try dsimp only
  repeat' (first
      | with_reducible assumption
      | with_reducible apply keeps_paramRow | with_reducible apply kn_next | with_reducible apply keeps_runCard | with_reducible apply keeps_runOnlyCard
      | with_reducible apply keeps_modeOnlyRun | with_reducible apply keeps_ite | intro _ | with_reducible apply kn_ite | split)

theorem keeps_stopRun {z : State} (s : State) (r : Req) (hk0 : Keeps z s) : KeepsCard z (stopRun s r) := by
  unfold stopRun
  try dsimp only
  repeat' (first
      | with_reducible assumption
      | with_reducible apply keeps_stageOver | exact trivial | with_reducible apply kc_done | with_reducible apply keeps_removeStageStart
      | with_reducible apply keeps_settleIdle | with_reducible apply keeps_stageEntersOff | with_reducible apply keeps_normalShutdown
      | with_reducible apply kc_ite | split | intro _ | with_reducible apply keeps_ite)

theorem keeps_execGraphStop {z : State} (via : Transport) (s : State) (hk0 : Keeps z s) : KeepsNext z (execGraphStop via s) := by
  unfold execGraphStop
  try dsimp only
  repeat' (first
      | with_reducible assumption | with_reducible apply kn_next | with_reducible apply keeps_runCard | with_reducible apply keeps_graphCard
      | with_reducible apply keeps_stopRun)

theorem keeps_applyWrites {z : State} (n : Nat) (upTo : Option U32) (s : State) (h : Keeps z s) : Keeps z (applyWrites n upTo s) := by
  unfold applyWrites
  try dsimp only
  repeat' (first
      | with_reducible assumption | with_reducible apply keeps_refeed | with_reducible apply keeps_foldWrites | with_reducible apply keeps_ite | split | intro _)

theorem keeps_writeParamRun {z : State} (s : State) (r : Req) (hk0 : Keeps z s) : KeepsCard z (writeParamRun s r) := by
  unfold writeParamRun
  try dsimp only
  repeat' (first
      | with_reducible assumption
      | fail_if_no_progress (with_reducible refine Keeps.upd ?_) | exact trivial | with_reducible apply kc_done | with_reducible apply keeps_updStage | with_reducible apply keeps_foldWrites
      | with_reducible apply keeps_enqueueParam | with_reducible apply kc_ite | split | intro _ | with_reducible apply keeps_applyWrites | with_reducible apply keeps_ite)

theorem keeps_execGraphWriteParam {z : State} (via : Transport) (s : State) (hk0 : Keeps z s) : KeepsNext z (execGraphWriteParam via s) := by
  unfold execGraphWriteParam
  try dsimp only
  repeat' (first
      | with_reducible assumption
      | with_reducible apply keeps_paramRow | with_reducible apply kn_next | with_reducible apply keeps_runCard | with_reducible apply keeps_graphCard
      | with_reducible apply keeps_writeParamRun | with_reducible apply keeps_ite | intro _ | with_reducible apply kn_ite | split)

theorem keeps_execParamQueueTake {z : State} (s : State) (hk0 : Keeps z s) : KeepsNext z (execParamQueueTake s) := by
  unfold execParamQueueTake
  try dsimp only
  repeat' (first
      | with_reducible assumption | with_reducible apply kn_next
      | fail_if_no_progress (with_reducible refine Keeps.upd ?_ (h8 := fun hh => by simpa [loopOk, loopSized, upd_length, List.length_map, List.length_mapIdx] using hh)))

theorem keeps_dillRun {z : State} (s : State) (r : Req) (hk0 : Keeps z s) : KeepsCard z (dillRun s r) := by
  unfold dillRun
  try dsimp only
  repeat' (first
      | with_reducible assumption | exact trivial | with_reducible apply kc_done | with_reducible apply keeps_updStage | with_reducible apply kc_ite | split
      | intro _)

theorem keeps_execDillConfig {z : State} (via : Transport) (s : State) (hk0 : Keeps z s) : KeepsNext z (execDillConfig via s) := by
  unfold execDillConfig
  try dsimp only
  repeat' (first
      | with_reducible assumption | with_reducible apply kn_next | with_reducible apply keeps_runCard | with_reducible apply keeps_graphCard
      | with_reducible apply keeps_dillRun)

theorem keeps_clearHolds {z : State} (n : Nat) (s : State) (h : Keeps z s) : Keeps z (clearHolds n s) := by
  unfold clearHolds
  try dsimp only
  repeat' (first
      | with_reducible assumption | with_reducible apply keeps_forEach | with_reducible apply keeps_updEngine
      | fail_if_no_progress (with_reducible refine Keeps.upd ?_) | with_reducible apply keeps_ite | split | intro _)

theorem keeps_statsRun {z : State} (s : State) (r : Req) (hk0 : Keeps z s) : KeepsCard z (statsRun s r) := by
  unfold statsRun
  try dsimp only
  repeat' (first
      | with_reducible assumption
      | with_reducible apply keeps_clearHolds | exact trivial | with_reducible apply kc_done | with_reducible apply keeps_updStage | with_reducible apply kc_ite | split
      | intro _ | with_reducible apply keeps_ite)

theorem keeps_execGraphStats {z : State} (via : Transport) (s : State) (hk0 : Keeps z s) : KeepsNext z (execGraphStats via s) := by
  unfold execGraphStats
  try dsimp only
  repeat' (first
      | with_reducible assumption | with_reducible apply kn_next | with_reducible apply keeps_runCard | with_reducible apply keeps_graphCard
      | with_reducible apply keeps_statsRun)

/-! ### Sched.lean -/

theorem keeps_noticeArrives {z : State} (n : Nat) (idx : U32) (reload len : Nat) (s : State) (h : Keeps z s) : Keeps z (noticeArrives n idx reload len s) := by
  unfold noticeArrives
  try dsimp only
  repeat' (first
      | with_reducible assumption
      | fail_if_no_progress (with_reducible refine Keeps.upd ?_) | with_reducible apply keeps_openFrame | with_reducible apply keeps_missFrame | with_reducible apply keeps_updStage
      | with_reducible apply keeps_updFrame | with_reducible apply keeps_ite | split | intro _)

theorem keeps_execReloadNotice {z : State} (n : Nat) (s : State) (hk0 : Keeps z s) : KeepsNext z (execReloadNotice n s) := by
  unfold execReloadNotice
  try dsimp only
  repeat' (first
      | with_reducible assumption
      | with_reducible apply keeps_followHolds
      | fail_if_no_progress (with_reducible refine Keeps.upd ?_) | with_reducible apply kn_next | with_reducible apply kn_ite | with_reducible apply keeps_updStage
      | with_reducible apply keeps_noticeArrives | split | intro _ | with_reducible apply keeps_ite)

theorem keeps_macMismatch {z : State} (k round : Nat) (diff : U32) (s : State) (h : Keeps z s) : Keeps z (macMismatch k round diff s) := by
  unfold macMismatch
  try dsimp only
  repeat' (first
      | with_reducible assumption | with_reducible apply keeps_postMerge | with_reducible apply keeps_decideRound | with_reducible apply keeps_transient
      | fail_if_no_progress (with_reducible refine Keeps.upd ?_ (h6 := fun hh => by simpa [fltOk, fltSized, upd_length, List.length_map, List.length_mapIdx] using hh))
      | with_reducible apply keeps_ite | split | intro _)

theorem keeps_deliverTo {z : State} (n c : Nat) (v : F32) (q : Nat) (f : Frame) (s : State) (h : Keeps z s) : Keeps z (deliverTo n c v q f s) := by
  unfold deliverTo
  try dsimp only
  repeat' (first
      | with_reducible assumption | with_reducible apply keeps_countExceptions | with_reducible apply keeps_channelUsable | with_reducible apply keeps_followHolds
      | with_reducible apply keeps_updStage
      | fail_if_no_progress (with_reducible refine Keeps.upd ?_ (h3 := fun hh => by first | exact hh | ((repeat' split) <;> simp_all [upd_length, List.length_map, List.length_mapIdx, memWrite_wf, memWriteBytes_wf, memClear_wf])) (h8 := fun hh => by first | exact hh | ((repeat' split) <;> simp_all [loopOk, loopSized, upd_length, List.length_map, List.length_mapIdx, memWrite_wf, memWriteBytes_wf, memClear_wf])))
      | with_reducible apply keeps_ite | split | intro _)

theorem keeps_noteSample {z : State} (n c : Nat) (v : F32) (t : Nat) (s : State) (h : Keeps z s) : Keeps z (noteSample n c v t s) := by
  unfold noteSample
  try dsimp only
  repeat' (first
      | with_reducible assumption | with_reducible apply keeps_updStage | fail_if_no_progress (with_reducible refine Keeps.upd ?_) | with_reducible apply keeps_ite
      | split | intro _)

theorem keeps_deliverClosed {z : State} (n c : Nat) (v : F32) (t q : Nat) (s : State) (h : Keeps z s) : Keeps z (deliverClosed n c v t q s) := by
  unfold deliverClosed
  try dsimp only
  repeat' (first
      | with_reducible assumption
      | with_reducible apply keeps_noteSample | with_reducible apply keeps_deliverTo | with_reducible apply keeps_foldl | with_reducible apply keeps_foldl_fst
      | with_reducible apply keeps_foldl_snd | with_reducible apply keeps_ite | split | intro _)

theorem keeps_execSlotOutput {z : State} (k : Nat) (mac : Option U32) (s : State) (hk0 : Keeps z s) : KeepsNext z (execSlotOutput k mac s) := by
  unfold execSlotOutput
  try dsimp only
  repeat' (first
      | with_reducible assumption
      | with_reducible apply keeps_deliverClosed
      | with_reducible apply keeps_foldl_fst
      | with_reducible apply keeps_foldl_snd | with_reducible apply kn_next | with_reducible apply kn_ite | with_reducible apply keeps_advanceQ
      | with_reducible apply keeps_macMismatch | with_reducible apply keeps_followHolds | with_reducible apply keeps_deliverSample
      | with_reducible apply keeps_forEach | with_reducible apply keeps_foldl
      | fail_if_no_progress (with_reducible refine Keeps.upd ?_ (h5 := fun hh => by simpa [senseSized, upd_length, List.length_map, List.length_mapIdx] using hh))
      | split | intro _ | with_reducible apply keeps_ite)

theorem keeps_execInstanceDispatch {z : State} (e : Nat) (s : State) (hk0 : Keeps z s) : KeepsNext z (execInstanceDispatch e s) := by
  unfold execInstanceDispatch
  try dsimp only
  repeat' (first
      | with_reducible assumption | with_reducible apply kn_next | with_reducible apply kn_ite | with_reducible apply keeps_setNodeInst
      | with_reducible apply keeps_advanceQ | with_reducible apply keeps_updStage | with_reducible apply keeps_followHolds | split | intro _)

theorem keeps_execInstanceEnd {z : State} (e : Nat) (s : State) (hk0 : Keeps z s) : KeepsNext z (execInstanceEnd e s) := by
  unfold execInstanceEnd
  try dsimp only
  repeat' (first
      | with_reducible assumption | with_reducible apply kn_next | with_reducible apply kn_ite | with_reducible apply keeps_updEngine
      | with_reducible apply keeps_advanceQ | with_reducible apply keeps_followHolds | with_reducible apply keeps_dropInst
      | with_reducible apply keeps_grantSlots | with_reducible apply keeps_performAct | with_reducible apply keeps_updFrame | with_reducible apply keeps_endInst
      | with_reducible apply keeps_foldl | split | intro _)

theorem keeps_execCompletionPost {z : State} (e : Nat) (s : State) (hk0 : Keeps z s) : KeepsNext z (execCompletionPost e s) := by
  unfold execCompletionPost
  try dsimp only
  repeat' (first
      | with_reducible assumption | with_reducible apply kn_next | with_reducible apply kn_ite | with_reducible apply keeps_updEngine
      | with_reducible apply keeps_advanceQ | with_reducible apply keeps_followHolds | with_reducible apply keeps_postCompletion | split | intro _)

theorem keeps_execSuccessorDecrement {z : State} (e : Nat) (s : State) (hk0 : Keeps z s) : KeepsNext z (execSuccessorDecrement e s) := by
  unfold execSuccessorDecrement
  try dsimp only
  repeat' (first
      | with_reducible assumption | with_reducible apply kn_next | with_reducible apply kn_ite | with_reducible apply keeps_decrement
      | with_reducible apply keeps_advanceQ | with_reducible apply keeps_followHolds | with_reducible apply keeps_portDone | split | intro _)

theorem keeps_execSchedStall {z : State} (e : Nat) (s : State) (hk0 : Keeps z s) : KeepsNext z (execSchedStall e s) := by
  unfold execSchedStall
  try dsimp only
  repeat' (first
      | with_reducible assumption
      | fail_if_no_progress (with_reducible refine Keeps.upd ?_) | with_reducible apply kn_next | with_reducible apply kn_ite | with_reducible apply keeps_updEngine
      | with_reducible apply keeps_advanceQ | with_reducible apply keeps_postMerge | split | intro _ | with_reducible apply keeps_ite)

theorem keeps_execCorrectionDone {z : State} (n : Nat) (s : State) (hk0 : Keeps z s) : KeepsNext z (execCorrectionDone n s) := by
  unfold execCorrectionDone
  try dsimp only
  repeat' (first
      | with_reducible assumption
      | with_reducible apply keeps_advanceQ
      | with_reducible apply keeps_foldl
      | with_reducible apply keeps_foldl_fst
      | with_reducible apply keeps_foldl_snd
      | fail_if_no_progress (with_reducible refine Keeps.upd ?_) | with_reducible apply kn_next | with_reducible apply keeps_updFrame | split | with_reducible apply kn_ite | with_reducible apply keeps_ite | intro _)

theorem keeps_takeFrame {z : State} (n : Nat) (f : Frame) (s : State) (h : Keeps z s) : Keeps z (takeFrame n f s) := by
  unfold takeFrame
  try dsimp only
  repeat' (first
      | with_reducible assumption | with_reducible apply keeps_updStage | with_reducible apply keeps_countExceptions | with_reducible apply keeps_applyWrites
      | fail_if_no_progress (with_reducible refine Keeps.upd ?_) | with_reducible apply keeps_ite | split | intro _)

theorem keeps_releaseEffects {z : State} (n : Nat) (f : Frame) (q : Nat) (s0 s : State) (h : Keeps z s) : Keeps z (releaseEffects n f q s0 s) := by
  unfold releaseEffects
  try dsimp only
  repeat' (first
      | with_reducible assumption | with_reducible apply keeps_forEach | with_reducible apply keeps_becomeDue
      | fail_if_no_progress (with_reducible refine Keeps.upd ?_ (h3 := fun hh => by first | exact hh | ((repeat' split) <;> simp_all [upd_length, List.length_map, List.length_mapIdx, memWrite_wf, memWriteBytes_wf, memClear_wf])) (h8 := fun hh => by first | exact hh | ((repeat' split) <;> simp_all [loopOk, loopSized, upd_length, List.length_map, List.length_mapIdx, memWrite_wf, memWriteBytes_wf, memClear_wf])))
      | with_reducible apply keeps_ite | split | intro _)

theorem keeps_beginHandover {z : State} (n : Nat) (s : State) (h : Keeps z s) : Keeps z (beginHandover n s) := by
  unfold beginHandover
  try dsimp only
  repeat' (first
      | with_reducible assumption
      | with_reducible apply keeps_stopCheck
      | fail_if_no_progress (with_reducible refine Keeps.upd ?_) | with_reducible apply keeps_updStage | with_reducible apply keeps_squashAll | with_reducible apply keeps_ite | split
      | intro _)

theorem keeps_keepClosed {z : State} (n : Nat) (f : Frame) (s : State) (h : Keeps z s) : Keeps z (keepClosed n f s) := by
  unfold keepClosed
  try dsimp only
  repeat' (first
      | with_reducible assumption | with_reducible apply keeps_updStage | fail_if_no_progress (with_reducible refine Keeps.upd ?_) | with_reducible apply keeps_ite
      | split | intro _)

theorem keeps_commitFrame {z : State} (n : Nat) (f : Frame) (s : State) (h : Keeps z s) : Keeps z (commitFrame n f s) := by
  unfold commitFrame
  try dsimp only
  repeat' (first
      | with_reducible assumption
      | with_reducible apply keeps_stageSet
      | with_reducible apply keeps_keepClosed
      | with_reducible apply keeps_foldl_fst
      | with_reducible apply keeps_foldl_snd | with_reducible apply keeps_takeFrame | with_reducible apply keeps_fuDeliver
      | with_reducible apply keeps_capCommit | with_reducible apply keeps_releaseEffects | with_reducible apply keeps_followHolds
      | with_reducible apply keeps_openAhead | with_reducible apply keeps_beginHandover | with_reducible apply keeps_foldl
      | fail_if_no_progress (with_reducible refine Keeps.upd ?_ (h8 := fun hh => by simpa [loopOk, loopSized, upd_length, List.length_map, List.length_mapIdx] using hh))
      | intro _ | with_reducible apply keeps_ite | split)

theorem keeps_execCommit {z : State} (n : Nat) (s : State) (hk0 : Keeps z s) : KeepsNext z (execCommit n s) := by
  unfold execCommit
  try dsimp only
  repeat' (first
      | with_reducible assumption
      | with_reducible apply keeps_advanceQ | with_reducible apply kn_next | with_reducible apply keeps_commitFrame | with_reducible apply keeps_ite | split | intro _ | with_reducible apply kn_ite)

theorem keeps_overrun {z : State} (n : Nat) (idx : U32) (s : State) (h : Keeps z s) : Keeps z (overrun n idx s) := by
  unfold overrun
  try dsimp only
  repeat' (first
      | with_reducible assumption
      | fail_if_no_progress (with_reducible refine Keeps.upd ?_) | with_reducible apply keeps_squashFrom | with_reducible apply keeps_updStage | with_reducible apply keeps_postMerge
      | with_reducible apply keeps_foldWrites | with_reducible apply keeps_safetyActs | with_reducible apply keeps_post | with_reducible apply keeps_ite | split
      | intro _ | with_reducible apply keeps_applyWrites)

theorem keeps_execCommitDeadline {z : State} (n : Nat) (s : State) (hk0 : Keeps z s) : KeepsNext z (execCommitDeadline n s) := by
  unfold execCommitDeadline
  try dsimp only
  repeat' (first
      | with_reducible assumption | with_reducible apply kn_next | with_reducible apply keeps_followHolds | with_reducible apply keeps_overrun
      | with_reducible apply keeps_advanceTo | split)

theorem keeps_execSuspensionEnd {z : State} (n : Nat) (s : State) (hk0 : Keeps z s) : KeepsNext z (execSuspensionEnd n s) := by
  unfold execSuspensionEnd
  try dsimp only
  repeat' (first
      | with_reducible assumption
      | fail_if_no_progress (with_reducible refine Keeps.upd ?_) | with_reducible apply kn_next | with_reducible apply kn_ite | with_reducible apply keeps_followHolds
      | with_reducible apply keeps_openAhead | with_reducible apply keeps_updStage | split | intro _ | with_reducible apply keeps_ite)

theorem keeps_execHandoverDone {z : State} (n : Nat) (s : State) (hk0 : Keeps z s) : KeepsNext z (execHandoverDone n s) := by
  unfold execHandoverDone
  try dsimp only
  repeat' (first
      | with_reducible assumption
      | with_reducible apply keeps_noticeArrives
      | with_reducible apply keeps_foldl
      | with_reducible apply keeps_foldl_fst
      | with_reducible apply keeps_foldl_snd
      | fail_if_no_progress (with_reducible refine Keeps.upd ?_) | with_reducible apply kn_next | with_reducible apply keeps_updStage | with_reducible apply keeps_takeOver
      | with_reducible apply keeps_finishRetire | with_reducible apply keeps_post | with_reducible apply keeps_followHolds
      | with_reducible apply keeps_openAhead | with_reducible apply keeps_settleEngines | split | with_reducible apply kn_ite | with_reducible apply keeps_ite | intro _)

theorem keeps_execCheckerDwellExpiry {z : State} (e : Nat) (s : State) (hk0 : Keeps z s) : KeepsNext z (execCheckerDwellExpiry e s) := by
  unfold execCheckerDwellExpiry
  try dsimp only
  repeat' (first
      | with_reducible assumption | with_reducible apply kn_next | with_reducible apply kn_ite | with_reducible apply keeps_advanceTo
      | fail_if_no_progress (with_reducible refine Keeps.upd ?_ (h8 := fun hh => by simpa [loopOk, loopSized, upd_length, List.length_map, List.length_mapIdx] using hh))
      | intro _ | with_reducible apply keeps_ite | split)

theorem keeps_engineVerdict {z : State} (e : Nat) (s : State) (h : Keeps z s) : Keeps z (engineVerdict e s) := by
  unfold engineVerdict
  try dsimp only
  repeat' (first
      | with_reducible assumption | with_reducible apply keeps_decideRetire | with_reducible apply keeps_transient
      | fail_if_no_progress (with_reducible refine Keeps.upd ?_ (h15 := fun hh => by simpa [relOk, relSized, upd_length, List.length_map, List.length_mapIdx] using hh))
      | with_reducible apply keeps_ite | intro _)

theorem keeps_updChecker {z : State} (e : Nat) (f : Checker → Checker) (s : State) (h : Keeps z s) : Keeps z (updChecker e f s) := by
  unfold updChecker
  try dsimp only
  repeat' (first
      | with_reducible assumption
      | fail_if_no_progress (with_reducible refine Keeps.upd ?_ (h8 := fun hh => by first | exact hh | ((repeat' split) <;> simp_all [loopOk, loopSized, upd_length, List.length_map, List.length_mapIdx, memWrite_wf, memWriteBytes_wf, memClear_wf])))
      | with_reducible apply keeps_ite | split | intro _)

theorem keeps_secondReplay {z : State} (e : Nat) (d : Doubt) (crc : U32) (s : State) (h : Keeps z s) : Keeps z (secondReplay e d crc s) := by
  unfold secondReplay
  try dsimp only
  repeat' (first
      | with_reducible assumption | with_reducible apply keeps_post | with_reducible apply keeps_settleEngines | with_reducible apply keeps_forEach
      | with_reducible apply keeps_engineVerdict | with_reducible apply keeps_ite | split | intro _)

theorem keeps_firstReplay {z : State} (e t n : Nat) (copy : EngCopy) (job : Replay) (crc : U32) (s : State) (h : Keeps z s) : Keeps z (firstReplay e t n copy job crc s) := by
  unfold firstReplay
  try dsimp only
  repeat' (first
      | with_reducible assumption | with_reducible apply keeps_updStage | with_reducible apply keeps_updChecker
      | fail_if_no_progress (with_reducible refine Keeps.upd ?_) | with_reducible apply keeps_ite | split | intro _)

theorem keeps_execCheckerReplayDone {z : State} (e : Nat) (flip : U32) (s : State) (h : Keeps z s) : KeepsNext z (execCheckerReplayDone e flip s) := by
  unfold execCheckerReplayDone
  try dsimp only
  repeat' (first
      | with_reducible assumption | with_reducible apply kn_next | with_reducible apply keeps_secondReplay | with_reducible apply keeps_updChecker
      | with_reducible apply keeps_firstReplay | fail_if_no_progress (with_reducible refine Keeps.upd ?_) | with_reducible apply kn_ite
      | with_reducible apply keeps_ite | split | intro _)

/-! ### Safe.lean -/

theorem keeps_updView {z : State} (ch : Nat) (f : SafeChan → SafeChan) (s : State) (h : Keeps z s) : Keeps z (updView ch f s) := by
  unfold updView
  try dsimp only
  repeat' (first | with_reducible assumption | with_reducible apply keeps_updSorrel | with_reducible apply keeps_updProc | with_reducible apply keeps_ite | intro _ | split)

theorem keeps_discStep {z : State} (s : State) (h : Keeps z s) : Keeps z (discStep s) := by
  unfold discStep
  try dsimp only
  repeat' (first
      | with_reducible assumption
      | fail_if_no_progress (with_reducible refine Keeps.upd ?_ (h9 := fun hh => by simpa [safeSized, upd_length, List.length_map, List.length_mapIdx] using hh))
      | with_reducible apply keeps_ite | split | intro _)

theorem keeps_takeLevel {z : State} (ch n : Nat) (s : State) (h : Keeps z s) : Keeps z (takeLevel ch n s) := by
  unfold takeLevel
  try dsimp only
  repeat' (first
      | with_reducible assumption
      | fail_if_no_progress (with_reducible refine Keeps.upd ?_) | with_reducible apply keeps_updView | with_reducible apply keeps_contStep | with_reducible apply keeps_discStep
      | with_reducible apply keeps_safetyActs | with_reducible apply keeps_ite | split | intro _)

theorem keeps_execSafetyDebounceExpiry {z : State} (ch n : Nat) (s : State) (hk0 : Keeps z s) : KeepsNext z (execSafetyDebounceExpiry ch n s) := by
  unfold execSafetyDebounceExpiry
  try dsimp only
  repeat' (first | with_reducible assumption | with_reducible apply kn_next | with_reducible apply keeps_takeLevel | with_reducible apply keeps_ite | intro _)

theorem keeps_execEstopDiscrepancy {z : State} (s : State) (hk0 : Keeps z s) : KeepsNext z (execEstopDiscrepancy s) := by
  unfold execEstopDiscrepancy
  try dsimp only
  repeat' (first
      | with_reducible assumption | with_reducible apply kn_next | with_reducible apply kn_ite | with_reducible apply keeps_safetyActs
      | with_reducible apply keeps_advanceTo
      | fail_if_no_progress (with_reducible refine Keeps.upd ?_ (h9 := fun hh => by simpa [safeSized, upd_length, List.length_map, List.length_mapIdx] using hh))
      | split | intro _)

theorem keeps_windowJudge {z : State} (src : Nat) (p : Nat × Nat × Nat) (s : State) (h : Keeps z s) : Keeps z (windowJudge src p s) := by
  unfold windowJudge
  try dsimp only
  repeat' (first
      | with_reducible assumption | with_reducible apply keeps_safetyActs | with_reducible apply keeps_post
      | fail_if_no_progress (with_reducible refine Keeps.upd ?_ (h9 := fun hh => by simpa [safeSized, upd_length, List.length_map, List.length_mapIdx] using hh))
      | with_reducible apply keeps_ite | split | intro _)

theorem keeps_execTestPulseWindowEnd {z : State} (s : State) (hk0 : Keeps z s) : KeepsNext z (execTestPulseWindowEnd s) := by
  unfold execTestPulseWindowEnd
  try dsimp only
  repeat' (first
      | with_reducible assumption | with_reducible apply kn_next | with_reducible apply kn_ite | with_reducible apply keeps_windowJudge
      | with_reducible apply keeps_foldl
      | fail_if_no_progress (with_reducible refine Keeps.upd ?_ (h9 := fun hh => by simpa [safeSized, upd_length, List.length_map, List.length_mapIdx] using hh))
      | split | intro _)

theorem keeps_execContactorMismatch {z : State} (k : Nat) (s : State) (hk0 : Keeps z s) : KeepsNext z (execContactorMismatch k s) := by
  unfold execContactorMismatch
  try dsimp only
  repeat' (first
      | with_reducible assumption
      | with_reducible refine keeps_updCont _ _ _ ?_ (fun _ => upd_length _ _ _) | with_reducible apply kn_next | with_reducible apply kn_ite | with_reducible apply keeps_advanceTo
      | with_reducible apply keeps_safetyActs | with_reducible apply keeps_post
      | fail_if_no_progress (with_reducible refine Keeps.upd ?_ (h9 := fun hh => by simpa [safeSized, upd_length, List.length_map, List.length_mapIdx] using hh))
      | split | intro _ | with_reducible apply keeps_ite)

theorem keeps_execPermitWithdraw {z : State} (ch k : Nat) (s : State) (hk0 : Keeps z s) : KeepsNext z (execPermitWithdraw ch k s) := by
  unfold execPermitWithdraw
  try dsimp only
  repeat' (first
      | with_reducible assumption | with_reducible apply kn_next | with_reducible apply kn_ite | with_reducible apply keeps_updView
      | with_reducible apply keeps_advanceTo | with_reducible apply keeps_commandOff | split | intro _)

theorem keeps_execSafetyCycle {z : State} (s : State) (hk0 : Keeps z s) : KeepsNext z (execSafetyCycle s) := by
  unfold execSafetyCycle
  try dsimp only
  repeat' (first
      | with_reducible assumption | with_reducible apply kn_next | with_reducible apply keeps_takeLevel | with_reducible apply keeps_gridCycle
      | with_reducible apply keeps_forEach
      | fail_if_no_progress (with_reducible refine Keeps.upd ?_ (h9 := fun hh => by simpa [safeSized, upd_length, List.length_map, List.length_mapIdx] using hh))
      | split | intro _)

theorem keeps_execGridTrip {z : State} (e : Nat) (s : State) (hk0 : Keeps z s) : KeepsNext z (execGridTrip e s) := by
  unfold execGridTrip
  try dsimp only
  repeat' (first
      | with_reducible assumption | with_reducible apply kn_next | with_reducible apply kn_ite | with_reducible apply keeps_advanceTo
      | with_reducible apply keeps_safetyActs | with_reducible apply keeps_post
      | fail_if_no_progress (with_reducible refine Keeps.upd ?_ (h9 := fun hh => by simpa [safeSized, upd_length, List.length_map, List.length_mapIdx] using hh))
      | split | intro _)

theorem keeps_execReconnectionWaitEnd {z : State} (s : State) (hk0 : Keeps z s) : KeepsNext z (execReconnectionWaitEnd s) := by
  unfold execReconnectionWaitEnd
  try dsimp only
  repeat' (first
      | with_reducible assumption | with_reducible apply kn_next | with_reducible apply kn_ite | with_reducible apply keeps_advanceTo
      | fail_if_no_progress (with_reducible refine Keeps.upd ?_ (h9 := fun hh => by simpa [safeSized, upd_length, List.length_map, List.length_mapIdx] using hh))
      | split | intro _)

theorem keeps_execSafetyLockstepMismatch {z : State} (s : State) (hk0 : Keeps z s) : KeepsNext z (execSafetyLockstepMismatch s) := by
  unfold execSafetyLockstepMismatch
  try dsimp only
  repeat' (first | with_reducible assumption | with_reducible apply kn_next | with_reducible apply keeps_safetyActs | with_reducible apply keeps_ite | intro _)

theorem keeps_execChannelDisagreement {z : State} (fault : Bool) (s : State) (hk0 : Keeps z s) : KeepsNext z (execChannelDisagreement fault s) := by
  unfold execChannelDisagreement
  try dsimp only
  repeat' (first
      | with_reducible assumption | with_reducible apply kn_next | with_reducible apply keeps_safetyActs | with_reducible apply keeps_advanceTo
      | with_reducible apply keeps_ite | split | intro _)

theorem keeps_execSafetyClock {z : State} (s : State) (hk0 : Keeps z s) : KeepsNext z (execSafetyClock s) := by
  unfold execSafetyClock
  try dsimp only
  repeat' (first | with_reducible assumption | with_reducible apply kn_next | with_reducible apply keeps_safetyActs | with_reducible apply keeps_ite | intro _)

theorem keeps_execParamRecheck {z : State} (ok : Bool) (s : State) (hk0 : Keeps z s) : KeepsNext z (execParamRecheck ok s) := by
  unfold execParamRecheck
  try dsimp only
  repeat' (first | with_reducible assumption | with_reducible apply kn_next | with_reducible apply keeps_safetyActs | with_reducible apply keeps_ite | intro _)

theorem keeps_execTestDue {z : State} (s : State) (hk0 : Keeps z s) : KeepsNext z (execTestDue s) := by
  unfold execTestDue
  try dsimp only
  repeat' (first
      | with_reducible assumption | with_reducible apply kn_next | with_reducible apply kn_ite | with_reducible apply keeps_advanceTo
      | with_reducible apply keeps_post
      | fail_if_no_progress (with_reducible refine Keeps.upd ?_ (h9 := fun hh => by simpa [safeSized, upd_length, List.length_map, List.length_mapIdx] using hh))
      | split | intro _)

theorem keeps_safeCard {z : State} (allowed : DevState → Bool) (run : State → Req → CardResult) (hf : ∀ s r, Keeps z s → KeepsCard z (run s r)) : ∀ s r, Keeps z s → KeepsCard z ((safeCard allowed run).run s r) := by
  intro s r hk0
  unfold safeCard
  dsimp only
  repeat' (with_reducible exact hf _ _ hk0)

theorem keeps_sendNames {z : State} (s : State) (h : Keeps z s) : Keeps z (sendNames s) := by
  unfold sendNames
  try dsimp only
  repeat' (first
      | with_reducible assumption | with_reducible apply keeps_updField | fail_if_no_progress (with_reducible refine Keeps.upd ?_)
      | (show fieldSized _; (repeat' split) <;> simp_all [fieldSized, upd_length, List.length_map, List.length_mapIdx]) | with_reducible apply keeps_ite | split
      | intro _)

theorem keeps_commitBlock {z : State} (b : Bytes) (otp : Bool) (s : State) (h : Keeps z s) : Keeps z (commitBlock b otp s) := by
  unfold commitBlock
  extract_lets +onlyGivenNames m x t
  have ht : Keeps z t := Keeps.upd h (h9 := fun hh => by
    simp only [safeSized, x, m] at hh ⊢
    have : testCycle0.missing.length = 16 := by rfl
    simp_all)
  exact keeps_sendNames _ (keeps_ite (fun _ => keeps_grantPermits _ ht) (fun _ => ht))

theorem keeps_loadParamsRun {z : State} (s : State) (r : Req) (hk0 : Keeps z s) : KeepsCard z (loadParamsRun s r) := by
  unfold loadParamsRun
  try dsimp only
  repeat' (first
      | with_reducible assumption
      | with_reducible apply keeps_sendNames | exact trivial | with_reducible apply kc_done | with_reducible apply keeps_dropPermits
      | fail_if_no_progress (with_reducible refine Keeps.upd ?_ (h9 := fun hh => by simpa [safeSized, upd_length, List.length_map, List.length_mapIdx] using hh))
      | with_reducible apply kc_ite | split | intro _ | with_reducible apply keeps_ite)

theorem keeps_execSafeLoadParams {z : State} (via : Transport) (s : State) (hk0 : Keeps z s) : KeepsNext z (execSafeLoadParams via s) := by
  unfold execSafeLoadParams
  try dsimp only
  repeat' (first
      | with_reducible assumption | with_reducible apply kn_next | with_reducible apply keeps_runCard | with_reducible apply keeps_safeCard
      | with_reducible apply keeps_loadParamsRun)

theorem keeps_getCheckRun {z : State} (s : State) (r : Req) (hk0 : Keeps z s) : KeepsCard z (getCheckRun s r) := by
  unfold getCheckRun
  try dsimp only
  repeat' (first | with_reducible assumption | exact trivial | with_reducible apply kc_done | with_reducible apply kc_ite | split | intro _)

theorem keeps_execSafeGetCheck {z : State} (via : Transport) (s : State) (hk0 : Keeps z s) : KeepsNext z (execSafeGetCheck via s) := by
  unfold execSafeGetCheck
  try dsimp only
  repeat' (first
      | with_reducible assumption | with_reducible apply kn_next | with_reducible apply keeps_runCard | with_reducible apply keeps_safeCard
      | with_reducible apply keeps_getCheckRun)

theorem keeps_paramsEvent {z : State} (b : Bytes) (s : State) (h : Keeps z s) : Keeps z (paramsEvent b s) := by
  unfold paramsEvent
  try dsimp only
  repeat' (first | with_reducible assumption | with_reducible apply keeps_post)

theorem keeps_commissionRun {z : State} (s : State) (r : Req) (hk0 : Keeps z s) : KeepsCard z (commissionRun s r) := by
  unfold commissionRun
  try dsimp only
  repeat' (first
      | with_reducible assumption | exact trivial | with_reducible apply kc_done | with_reducible apply kc_long | with_reducible apply keeps_paramsEvent
      | with_reducible apply keeps_commitBlock
      | fail_if_no_progress (with_reducible refine Keeps.upd ?_ (h15 := fun hh => by simpa [relOk, relSized, upd_length, List.length_map, List.length_mapIdx] using hh))
      | with_reducible apply kc_ite | split | intro _)

theorem keeps_execSafeCommission {z : State} (via : Transport) (s : State) (hk0 : Keeps z s) : KeepsNext z (execSafeCommission via s) := by
  unfold execSafeCommission
  try dsimp only
  repeat' (first | with_reducible assumption | with_reducible apply kn_next | with_reducible apply keeps_runCard | with_reducible apply keeps_commissionRun)

theorem keeps_safeStatusRun {z : State} (s : State) (r : Req) (hk0 : Keeps z s) : KeepsCard z (safeStatusRun s r) := by
  unfold safeStatusRun
  try dsimp only
  repeat' (first | with_reducible assumption | exact trivial | with_reducible apply kc_done | with_reducible apply kc_ite | intro _)

theorem keeps_execSafeStatus {z : State} (via : Transport) (s : State) (hk0 : Keeps z s) : KeepsNext z (execSafeStatus via s) := by
  unfold execSafeStatus
  try dsimp only
  repeat' (first
      | with_reducible assumption | with_reducible apply kn_next | with_reducible apply keeps_runCard | with_reducible apply keeps_safeCard
      | with_reducible apply keeps_safeStatusRun | with_reducible apply kn_ite | with_reducible apply keeps_ite | split | intro _)

theorem keeps_leaveSafe {z : State} (s0 : State) (h : Keeps z s0) : Keeps z (leaveSafe s0) := by
  unfold leaveSafe
  try dsimp only
  repeat' (first
      | with_reducible assumption | with_reducible apply keeps_commandOff | with_reducible apply keeps_updBoth | with_reducible apply keeps_forEach
      | with_reducible apply keeps_stageOver | with_reducible apply keeps_setDev | with_reducible apply keeps_post | with_reducible apply keeps_settleIdle
      | with_reducible apply keeps_foldl | with_reducible apply keeps_foldl_fst | with_reducible apply keeps_foldl_snd
      | fail_if_no_progress (with_reducible refine Keeps.upd ?_ (h7 := fun hh => by first | exact hh | ((repeat' split) <;> simp_all [pwmSized, upd_length, List.length_map, List.length_mapIdx, memWrite_wf, memWriteBytes_wf, memClear_wf])) (h9 := fun hh => by first | exact hh | ((repeat' split) <;> simp_all [safeSized, upd_length, List.length_map, List.length_mapIdx, memWrite_wf, memWriteBytes_wf, memClear_wf])))
      | with_reducible apply keeps_ite | split | intro _)

theorem keeps_ackFaultRun {z : State} (s : State) (r : Req) (hk0 : Keeps z s) : KeepsCard z (ackFaultRun s r) := by
  unfold ackFaultRun
  try dsimp only
  repeat' (first
      | with_reducible assumption | exact trivial | with_reducible apply kc_done | with_reducible apply keeps_leaveSafe | with_reducible apply kc_ite | split
      | intro _)

theorem keeps_execSafeAckFault {z : State} (via : Transport) (s : State) (hk0 : Keeps z s) : KeepsNext z (execSafeAckFault via s) := by
  unfold execSafeAckFault
  try dsimp only
  repeat' (first
      | with_reducible assumption | with_reducible apply kn_next | with_reducible apply keeps_runCard | with_reducible apply keeps_safeCard
      | with_reducible apply keeps_ackFaultRun)

/-! ### Field.lean -/

theorem keeps_execDownlinkSend {z : State} (s : State) (hk0 : Keeps z s) : KeepsNext z (execDownlinkSend s) := by
  unfold execDownlinkSend
  try dsimp only
  repeat' (first
      | with_reducible assumption | with_reducible apply kn_next | with_reducible apply kn_ite | with_reducible apply keeps_swapLane
      | with_reducible apply keeps_advanceTo
      | fail_if_no_progress (with_reducible refine Keeps.upd ?_ (h9 := fun hh => by simpa [safeSized, upd_length, List.length_map, List.length_mapIdx] using hh) (h10 := fun hh => by simpa [fieldSized, upd_length, List.length_map, List.length_mapIdx] using hh))
      | split | intro _)

theorem keeps_takeDown {z : State} (f : DownFrame) (s : State) (h : Keeps z s) : Keeps z (takeDown f s) := by
  unfold takeDown
  try dsimp only
  repeat' (first
      | with_reducible assumption | with_reducible apply keeps_updField | with_reducible apply keeps_dieConfig | with_reducible apply keeps_forEach
      | with_reducible apply keeps_outCommand | fail_if_no_progress (with_reducible refine Keeps.upd ?_)
      | (show fieldSized _; (repeat' split) <;> simp_all [fieldSized, upd_length, List.length_map, List.length_mapIdx]) | with_reducible apply keeps_ite | split
      | intro _)

theorem keeps_execDownlinkReceive {z : State} (lane spare : LaneErr) (s : State) (h : Keeps z s) : KeepsNext z (execDownlinkReceive lane spare s) := by
  unfold execDownlinkReceive
  try dsimp only
  repeat' (first
      | with_reducible assumption | with_reducible apply kn_next | with_reducible apply keeps_updField | with_reducible apply keeps_advanceTo
      | with_reducible apply keeps_takeDown | fail_if_no_progress (with_reducible refine Keeps.upd ?_)
      | (show fieldSized _; (repeat' split) <;> simp_all [fieldSized, upd_length, List.length_map, List.length_mapIdx]) | with_reducible apply kn_ite
      | with_reducible apply keeps_ite | split | intro _)

theorem keeps_dieAt {z : State} (t : Nat) (s : State) (h : Keeps z s) : Keeps z (dieAt t s) := keeps_advanceTo _ _ h

theorem keeps_sampleInputs {z : State} (s : State) (h : Keeps z s) : Keeps z (sampleInputs s) := by
  unfold sampleInputs
  try dsimp only
  repeat' (first
      | with_reducible assumption | with_reducible apply keeps_forEach | with_reducible apply keeps_sampleInput | with_reducible apply keeps_ite | split | intro _)

theorem keeps_readBack {z : State} (tpRead : BitVec 4) (s : State) (h : Keeps z s) : Keeps z (readBack tpRead s) := by
  unfold readBack
  try dsimp only
  repeat' (first
      | with_reducible assumption | with_reducible apply keeps_updField | with_reducible apply keeps_foldl | with_reducible apply keeps_foldl_fst
      | with_reducible apply keeps_foldl_snd | fail_if_no_progress (with_reducible refine Keeps.upd ?_)
      | (show fieldSized _; (repeat' split) <;> simp_all [fieldSized, upd_length, List.length_map, List.length_mapIdx]) | with_reducible apply keeps_ite | split
      | intro _)

theorem keeps_execUplinkSend {z : State} (vField dieTemp : F32) (currents : List F32) (tpRead : BitVec 4) (s : State) (h : Keeps z s) : KeepsNext z (execUplinkSend vField dieTemp currents tpRead s) := by
  unfold execUplinkSend
  try dsimp only
  repeat' (first
      | with_reducible assumption | with_reducible apply kn_next | with_reducible apply keeps_dieAt | with_reducible apply keeps_readBack
      | with_reducible apply keeps_sampleInputs | with_reducible apply keeps_dieAt | with_reducible apply keeps_advanceTo | with_reducible apply keeps_updField
      | fail_if_no_progress (with_reducible refine Keeps.upd ?_)
      | (show fieldSized _; (repeat' split) <;> simp_all [fieldSized, upd_length, List.length_map, List.length_mapIdx]) | with_reducible apply kn_ite
      | with_reducible apply keeps_ite | split | intro _)

theorem keeps_configDone {z : State} (key : Nat) (s : State) (h : Keeps z s) : Keeps z (configDone key s) := by
  unfold configDone
  try dsimp only
  repeat' (first
      | with_reducible assumption
      | fail_if_no_progress (with_reducible refine Keeps.upd ?_) | with_reducible apply keeps_updField | with_reducible apply keeps_endLong
      | (show fieldSized _; (repeat' split) <;> simp_all [fieldSized, upd_length]) | split | intro _ | with_reducible apply keeps_ite)

theorem keeps_upPlace {z : State} (u : UpFrame) (o : Nat) (s : State) (h : Keeps z s) : Keeps z (upPlace u o s) := by
  unfold upPlace
  try dsimp only
  repeat' (first
      | with_reducible assumption | with_reducible apply keeps_freePullin | fail_if_no_progress (with_reducible refine Keeps.upd ?_) | with_reducible apply keeps_ite
      | split | intro _)

theorem keeps_upOutput {z : State} (u : UpFrame) (before : Option UpFrame) (o : Nat) (s : State) (h : Keeps z s) : Keeps z (upOutput u before o s) := by
  unfold upOutput
  try dsimp only
  repeat' (first
      | with_reducible assumption
      | with_reducible apply keeps_upPlace | with_reducible apply keeps_post | with_reducible apply keeps_outputStops | with_reducible apply keeps_updField
      | fail_if_no_progress (with_reducible refine Keeps.upd ?_)
      | (show fieldSized _; (repeat' split) <;> simp_all [fieldSized, upd_length, List.length_map, List.length_mapIdx]) | with_reducible apply keeps_ite | split
      | intro _)

theorem keeps_upShows {z : State} (u : UpFrame) (before : Option UpFrame) (s : State) (h : Keeps z s) : Keeps z (upShows u before s) := by
  unfold upShows
  try dsimp only
  repeat' (first
      | with_reducible assumption | with_reducible apply keeps_forEach | with_reducible apply keeps_upOutput | with_reducible apply keeps_postMerge
      | with_reducible apply keeps_post | with_reducible apply keeps_ite | split | intro _)

theorem keeps_takeUp {z : State} (u : UpFrame) (s : State) (h : Keeps z s) : Keeps z (takeUp u s) := by
  unfold takeUp
  try dsimp only
  repeat' (first
      | with_reducible assumption
      | with_reducible apply keeps_upShows
      | with_reducible apply keeps_foldl_fst
      | with_reducible apply keeps_foldl_snd
      | fail_if_no_progress (with_reducible refine Keeps.upd ?_) | with_reducible apply keeps_updField | with_reducible apply keeps_post | with_reducible apply keeps_laneError
      | with_reducible apply keeps_safetyFrame | with_reducible apply keeps_configDone
      | (show fieldSized _; (repeat' split) <;> simp_all [fieldSized, upd_length]) | with_reducible apply keeps_foldl | with_reducible apply keeps_ite | split
      | intro _)

theorem keeps_execUplinkReceive {z : State} (lane spare : LaneErr) (s : State) (h : Keeps z s) : KeepsNext z (execUplinkReceive lane spare s) := by
  unfold execUplinkReceive
  try dsimp only
  repeat' (first
      | with_reducible assumption | with_reducible apply kn_next | with_reducible apply keeps_updField | with_reducible apply keeps_dieAt | with_reducible apply keeps_advanceTo
      | with_reducible apply keeps_laneError | with_reducible apply keeps_takeUp | fail_if_no_progress (with_reducible refine Keeps.upd ?_)
      | (show fieldSized _; (repeat' split) <;> simp_all [fieldSized, upd_length, List.length_map, List.length_mapIdx]) | with_reducible apply kn_ite
      | with_reducible apply keeps_ite | split | intro _)

theorem keeps_execFieldLinkTimeout {z : State} (s : State) (hk0 : Keeps z s) : KeepsNext z (execFieldLinkTimeout s) := by
  unfold execFieldLinkTimeout
  try dsimp only
  repeat' (first
      | with_reducible assumption | with_reducible apply kn_next | with_reducible apply kn_ite | with_reducible apply keeps_dieAt | with_reducible apply keeps_advanceTo
      | with_reducible apply keeps_applySafeStates | with_reducible apply keeps_updField
      | (show fieldSized _; (repeat' split) <;> simp_all [fieldSized, upd_length]) | intro _)

theorem keeps_execLinkLost {z : State} (s : State) (hk0 : Keeps z s) : KeepsNext z (execLinkLost s) := by
  unfold execLinkLost
  try dsimp only
  repeat' (first
      | with_reducible assumption
      | fail_if_no_progress (with_reducible refine Keeps.upd ?_) | with_reducible apply kn_next | with_reducible apply kn_ite | with_reducible apply keeps_dieAt | with_reducible apply keeps_advanceTo
      | with_reducible apply keeps_updField | with_reducible apply keeps_safetyActs | with_reducible apply keeps_post
      | (show fieldSized _; (repeat' split) <;> simp_all [fieldSized, upd_length]) | intro _ | with_reducible apply keeps_ite)

theorem keeps_execVfield {z : State} (kind : Nat) (on : Bool) (v : F32) (held : Nat) (s : State) (h : Keeps z s) : KeepsNext z (execVfield kind on v held s) := by
  unfold execVfield
  try dsimp only
  repeat' (first
      | with_reducible assumption | with_reducible apply kn_next | with_reducible apply keeps_updField | with_reducible apply keeps_forEach
      | with_reducible apply keeps_latchFault | with_reducible apply keeps_outDrive | with_reducible apply keeps_followSupply
      | fail_if_no_progress (with_reducible refine Keeps.upd ?_)
      | (show fieldSized _; (repeat' split) <;> simp_all [fieldSized, upd_length, List.length_map, List.length_mapIdx]) | with_reducible apply kn_ite
      | with_reducible apply keeps_ite | split | intro _)

theorem keeps_qualified {z : State} (short long held : Nat) (s : State) (h : Keeps z s) : Keeps z (qualified short long held s).2 := by
  unfold qualified
  try dsimp only
  repeat' (first
      | with_reducible assumption | with_reducible apply keeps_draw | with_reducible apply keeps_ite | split | intro _)

theorem keeps_execFieldInputEdge {z : State} (n : Nat) (v : F32) (held : Nat) (s : State) (h : Keeps z s) : KeepsNext z (execFieldInputEdge n v held s) := by
  unfold execFieldInputEdge
  try dsimp only
  repeat' (first
      | with_reducible assumption | with_reducible apply kn_next | with_reducible apply keeps_qualified | with_reducible apply keeps_seeInput
      | with_reducible apply keeps_updInput | fail_if_no_progress (with_reducible refine Keeps.upd ?_) | with_reducible apply kn_ite | with_reducible apply keeps_ite
      | split | intro _)

theorem keeps_execInputDebounceExpiry {z : State} (n : Nat) (s00 : State) (h : Keeps z s00) : KeepsNext z (execInputDebounceExpiry n s00) := by
  unfold execInputDebounceExpiry
  try dsimp only
  repeat' (first
      | with_reducible assumption | with_reducible apply kn_next | with_reducible apply keeps_sampleInput | with_reducible apply keeps_dieAt | with_reducible apply keeps_advanceTo
      | with_reducible apply keeps_updInput | with_reducible apply keeps_updField | fail_if_no_progress (with_reducible refine Keeps.upd ?_)
      | (show fieldSized _; (repeat' split) <;> simp_all [fieldSized, upd_length, List.length_map, List.length_mapIdx]) | with_reducible apply kn_ite
      | with_reducible apply keeps_ite | split | intro _)

theorem keeps_execFreqGateEnd {z : State} (n : Nat) (s00 : State) (h : Keeps z s00) : KeepsNext z (execFreqGateEnd n s00) := by
  unfold execFreqGateEnd
  try dsimp only
  repeat' (first
      | with_reducible assumption | with_reducible apply kn_next | with_reducible apply keeps_sampleInput | with_reducible apply keeps_dieAt | with_reducible apply keeps_advanceTo
      | with_reducible apply keeps_updInput | fail_if_no_progress (with_reducible refine Keeps.upd ?_) | with_reducible apply kn_ite | with_reducible apply keeps_ite
      | split | intro _)

theorem keeps_execPullinEnd {z : State} (o : Nat) (s : State) (hk0 : Keeps z s) : KeepsNext z (execPullinEnd o s) := by
  unfold execPullinEnd
  try dsimp only
  repeat' (first
      | with_reducible assumption
      | fail_if_no_progress (with_reducible refine Keeps.upd ?_) | with_reducible apply kn_next | with_reducible apply keeps_freePullin | with_reducible apply keeps_updOutput
      | with_reducible apply keeps_dieAt | with_reducible apply keeps_advanceTo | split | with_reducible apply kn_ite | with_reducible apply keeps_ite | intro _)

theorem keeps_execOutputFault {z : State} (o kind : Nat) (value current : F32) (held : Nat) (s : State) (h : Keeps z s) : KeepsNext z (execOutputFault o kind value current held s) := by
  unfold execOutputFault
  try dsimp only
  repeat' (first
      | with_reducible assumption | with_reducible apply kn_next | with_reducible apply keeps_updOutput | with_reducible apply keeps_latchFault
      | fail_if_no_progress (with_reducible refine Keeps.upd ?_) | with_reducible apply kn_ite | with_reducible apply keeps_ite | split | intro _)

theorem keeps_execOutputShutdownEnd {z : State} (o : Nat) (s : State) (hk0 : Keeps z s) : KeepsNext z (execOutputShutdownEnd o s) := by
  unfold execOutputShutdownEnd
  try dsimp only
  repeat' (first
      | with_reducible assumption
      | fail_if_no_progress (with_reducible refine Keeps.upd ?_) | with_reducible apply kn_next | with_reducible apply kn_ite | with_reducible apply keeps_finishStateChange
      | with_reducible apply keeps_updField | (show fieldSized _; (repeat' split) <;> simp_all [fieldSized, upd_length]) | intro _ | with_reducible apply keeps_ite)

theorem keeps_sendConfig {z : State} (c : DieConf) (s : State) (hk0 : Keeps z s) : KeepsCard z (sendConfig c s) := by
  unfold sendConfig
  try dsimp only
  repeat' (first
      | with_reducible assumption | exact trivial | with_reducible apply kc_long | with_reducible apply keeps_updField
      | (show fieldSized _; (repeat' split) <;> simp_all [fieldSized, upd_length]) | with_reducible apply kc_ite | split | intro _)

theorem keeps_configInputRun {z : State} (s : State) (r : Req) (hk0 : Keeps z s) : KeepsCard z (configInputRun s r) := by
  unfold configInputRun
  try dsimp only
  repeat' (first | with_reducible assumption | exact trivial | with_reducible apply keeps_sendConfig | with_reducible apply kc_ite | intro _)

theorem keeps_execFioConfigInput {z : State} (via : Transport) (s : State) (hk0 : Keeps z s) : KeepsNext z (execFioConfigInput via s) := by
  unfold execFioConfigInput
  try dsimp only
  repeat' (first
      | with_reducible assumption | with_reducible apply kn_next | with_reducible apply keeps_runCard | with_reducible apply keeps_safeCard
      | with_reducible apply keeps_configInputRun)

theorem keeps_configOutputRun {z : State} (s : State) (r : Req) (hk0 : Keeps z s) : KeepsCard z (configOutputRun s r) := by
  unfold configOutputRun
  try dsimp only
  repeat' (first | with_reducible assumption | exact trivial | with_reducible apply keeps_sendConfig | with_reducible apply kc_ite | split | intro _ | with_reducible apply keeps_ite)

theorem keeps_execFioConfigOutput {z : State} (via : Transport) (s : State) (hk0 : Keeps z s) : KeepsNext z (execFioConfigOutput via s) := by
  unfold execFioConfigOutput
  try dsimp only
  repeat' (first
      | with_reducible assumption | with_reducible apply kn_next | with_reducible apply keeps_runCard | with_reducible apply keeps_safeCard
      | with_reducible apply keeps_configOutputRun)

theorem keeps_configLinkRun {z : State} (s : State) (r : Req) (hk0 : Keeps z s) : KeepsCard z (configLinkRun s r) := by
  unfold configLinkRun
  try dsimp only
  repeat' (first | with_reducible assumption | exact trivial | with_reducible apply keeps_sendConfig | with_reducible apply kc_ite | split | intro _)

theorem keeps_execFioConfigLink {z : State} (via : Transport) (s : State) (hk0 : Keeps z s) : KeepsNext z (execFioConfigLink via s) := by
  unfold execFioConfigLink
  try dsimp only
  repeat' (first
      | with_reducible assumption | with_reducible apply kn_next | with_reducible apply keeps_runCard | with_reducible apply keeps_safeCard
      | with_reducible apply keeps_configLinkRun)

theorem keeps_fioWriteRun {z : State} (s : State) (r : Req) (hk0 : Keeps z s) : KeepsCard z (fioWriteRun s r) := by
  unfold fioWriteRun
  try dsimp only
  repeat' (first
      | with_reducible assumption | exact trivial | with_reducible apply kc_done | with_reducible apply kc_deferred | with_reducible apply keeps_writeOff
      | with_reducible apply keeps_commandOn | fail_if_no_progress (with_reducible refine Keeps.upd ?_) | with_reducible apply kc_ite | split | intro _ | with_reducible apply keeps_ite)

theorem keeps_execFioWrite {z : State} (via : Transport) (s : State) (hk0 : Keeps z s) : KeepsNext z (execFioWrite via s) := by
  unfold execFioWrite
  try dsimp only
  repeat' (first
      | with_reducible assumption | with_reducible apply kn_next | with_reducible apply keeps_runCard | with_reducible apply keeps_safeCard
      | with_reducible apply keeps_fioWriteRun)

theorem keeps_fioReadRun {z : State} (s : State) (r : Req) (hk0 : Keeps z s) : KeepsCard z (fioReadRun s r) := by
  unfold fioReadRun
  try dsimp only
  repeat' (first
      | with_reducible assumption | exact trivial | with_reducible apply kc_done | with_reducible apply keeps_updField
      | (show fieldSized _; (repeat' split) <;> simp_all [fieldSized, upd_length]) | with_reducible apply kc_ite | split | intro _)

theorem keeps_execFioRead {z : State} (via : Transport) (s : State) (hk0 : Keeps z s) : KeepsNext z (execFioRead via s) := by
  unfold execFioRead
  try dsimp only
  repeat' (first
      | with_reducible assumption | with_reducible apply kn_next | with_reducible apply keeps_runCard | with_reducible apply keeps_safeCard
      | with_reducible apply keeps_fioReadRun)

/-! ### Form.lean -/

theorem keeps_postAll {z : State} (u : Nat) (l : List (U16 × Bytes)) (s : State) (h : Keeps z s) : Keeps z (postAll u l s) := by
  unfold postAll
  try dsimp only
  repeat' (first | with_reducible assumption | with_reducible apply keeps_post | with_reducible apply keeps_foldl | intro _)

theorem keeps_followSchedule {z : State} (s : State) (u : Nat) (first : Bool) (raw : Nat) (h : Keeps z s) : Keeps z (followSchedule s u first raw) := by
  unfold followSchedule
  try dsimp only
  repeat' (first
      | with_reducible assumption
      | fail_if_no_progress (with_reducible refine Keeps.upd ?_) | with_reducible apply keeps_post | with_reducible apply keeps_updFu | with_reducible apply keeps_ite | split | intro _)

theorem keeps_takeDue {z : State} (u : Nat) (s : State) (h : Keeps z s) : Keeps z (takeDue u s) := by
  unfold takeDue
  try dsimp only
  repeat' (first
      | with_reducible assumption | with_reducible apply keeps_updFu | with_reducible apply keeps_post | fail_if_no_progress (with_reducible refine Keeps.upd ?_)
      | with_reducible apply keeps_ite | split | intro _)

theorem keeps_endPeriod {z : State} (u : Nat) (feed : FuFeed) (s : State) (h : Keeps z s) : Keeps z (endPeriod u feed s) := by
  unfold endPeriod
  extract_lets +onlyGivenNames x nominal since before pass try1 leaves tns
  split
  extract_lets +onlyGivenNames y lost y1 settleFeed s1 lossEvent
  have hs : ∀ s, Keeps z s → Keeps z (settleFeed s) := by
    intro s k
    simp only [settleFeed]
    split
    · exact keeps_fuStart _ _ _ k
    · exact k
  have hl : ∀ s, Keeps z s → Keeps z (lossEvent s) := by
    intro s k
    simp only [lossEvent]
    split
    · exact keeps_postMerge _ _ _ _ k
    · exact k
  have h1 : Keeps z s1 := keeps_postAll _ _ _ h
  clear_value s1 settleFeed lossEvent
  split
  · exact hs _ (hl _ (keeps_updFu _ _ _ h1))
  · extract_lets +onlyGivenNames gap s2 z2 k e3 s3' s3 s4 s5
    have h2 : Keeps z s2 := keeps_followSchedule _ _ _ _ (keeps_takeDue _ _ (keeps_updFu _ _ _ h1))
    clear_value s2
    have h3 : Keeps z s3 := keeps_updFu _ _ _ (keeps_updFu _ _ _ h2)
    clear_value s3
    have h4 : Keeps z s4 := by
      simp only [s4]
      split
      · exact keeps_postMerge _ _ _ _ h3
      · exact h3
    clear_value s4
    have h5 : Keeps z s5 := keeps_postAll _ _ _ (hl _ h4)
    clear_value s5
    refine hs _ ?_
    split
    · exact keeps_fuEnterOff _ _ _ _ h5
    · exact h5

theorem keeps_execKernelEnd {z : State} (u : Nat) (s : State) (hk0 : Keeps z s) : KeepsNext z (execKernelEnd u s) := by
  unfold execKernelEnd
  try dsimp only
  repeat' (first | with_reducible assumption | with_reducible apply kn_next | with_reducible apply keeps_endPeriod | split)

theorem keeps_execFeedTimeout {z : State} (u : Nat) (s : State) (hk0 : Keeps z s) : KeepsNext z (execFeedTimeout u s) := by
  unfold execFeedTimeout
  try dsimp only
  repeat' (first
      | with_reducible assumption
      | fail_if_no_progress (with_reducible refine Keeps.upd ?_) | with_reducible apply kn_next | with_reducible apply kn_ite | with_reducible apply keeps_advanceTo
      | with_reducible apply keeps_fuEnterOff | with_reducible apply keeps_updFu | intro _ | with_reducible apply keeps_ite | split)

theorem keeps_execPllLockQualified {z : State} (u : Nat) (tracker : Bool) (s : State) (hk0 : Keeps z s) : KeepsNext z (execPllLockQualified u tracker s) := by
  unfold execPllLockQualified
  try dsimp only
  repeat' (first | with_reducible assumption | with_reducible apply kn_next | with_reducible apply kn_ite | with_reducible apply keeps_updFu | split | intro _)

theorem keeps_execRideExit {z : State} (u : Nat) (s : State) (hk0 : Keeps z s) : KeepsNext z (execRideExit u s) := by
  unfold execRideExit
  try dsimp only
  repeat' (first
      | with_reducible assumption | with_reducible apply kn_next | with_reducible apply kn_ite | with_reducible apply keeps_fuModeEvent
      | with_reducible apply keeps_updFu | intro _)

theorem keeps_execDecayEnd {z : State} (u : Nat) (s : State) (hk0 : Keeps z s) : KeepsNext z (execDecayEnd u s) := by
  unfold execDecayEnd
  try dsimp only
  repeat' (first | with_reducible assumption | with_reducible apply kn_next | with_reducible apply kn_ite | with_reducible apply keeps_updFu | intro _)

theorem keeps_autoIsland {z : State} (u : Nat) (s : State) (h : Keeps z s) : Keeps z (autoIsland u s) := by
  unfold autoIsland
  try dsimp only
  repeat' (first | with_reducible assumption | with_reducible apply keeps_fuModeEvent | with_reducible apply keeps_updFu)

theorem keeps_execBlackStartEnd {z : State} (u : Nat) (s : State) (hk0 : Keeps z s) : KeepsNext z (execBlackStartEnd u s) := by
  unfold execBlackStartEnd
  try dsimp only
  repeat' (first | with_reducible assumption | with_reducible apply kn_next | with_reducible apply keeps_autoIsland | with_reducible apply keeps_ite | intro _)

theorem keeps_execBsStalled {z : State} (u : Nat) (s : State) (hk0 : Keeps z s) : KeepsNext z (execBsStalled u s) := by
  unfold execBsStalled
  try dsimp only
  repeat' (first
      | with_reducible assumption | with_reducible apply kn_next | with_reducible apply kn_ite | with_reducible apply keeps_post
      | with_reducible apply keeps_updFu | intro _)

theorem keeps_execClosePermit {z : State} (u : Nat) (s : State) (hk0 : Keeps z s) : KeepsNext z (execClosePermit u s) := by
  unfold execClosePermit
  try dsimp only
  repeat' (first
      | with_reducible assumption | with_reducible apply kn_next | with_reducible apply kn_ite | with_reducible apply keeps_post
      | with_reducible apply keeps_updFu | intro _)

theorem keeps_execIslandDetected {z : State} (u : Nat) (s : State) (hk0 : Keeps z s) : KeepsNext z (execIslandDetected u s) := by
  unfold execIslandDetected
  try dsimp only
  repeat' (first
      | with_reducible assumption | with_reducible apply kn_next | with_reducible apply kn_ite | with_reducible apply keeps_post
      | with_reducible apply keeps_updFu | with_reducible apply keeps_autoIsland | intro _)

theorem keeps_execFuShutdownTimeout {z : State} (u : Nat) (s : State) (hk0 : Keeps z s) : KeepsNext z (execFuShutdownTimeout u s) := by
  unfold execFuShutdownTimeout
  try dsimp only
  repeat' (first | with_reducible assumption | with_reducible apply kn_next | with_reducible apply keeps_fuEnterOff | with_reducible apply keeps_advanceTo | split)

theorem keeps_execRestorationStep {z : State} (u : Nat) (s : State) (hk0 : Keeps z s) : KeepsNext z (execRestorationStep u s) := by
  unfold execRestorationStep
  try dsimp only
  repeat' (first
      | with_reducible assumption
      | fail_if_no_progress (with_reducible refine Keeps.upd ?_) | with_reducible apply kn_next | with_reducible apply kn_ite | with_reducible apply keeps_updFu
      | with_reducible apply keeps_post | split | intro _ | with_reducible apply keeps_ite)

theorem keeps_offKind {z : State} (s : State) (u : Nat) (ok : Bool) (f : State → State) (hk0 : Keeps z s) (hf : Keeps z (f s)) : KeepsCard z (offKind s u ok f) := by
  unfold offKind
  repeat' (first | exact hf | exact trivial | split)

theorem keeps_fuPortRun {z : State} (s : State) (r : Req) (hk0 : Keeps z s) : KeepsCard z (fuPortRun s r) := by
  unfold fuPortRun
  try dsimp only
  repeat' (first
      | with_reducible assumption | exact trivial | with_reducible apply kc_done
      | fail_if_no_progress (with_reducible refine Keeps.upd ?_) | with_reducible apply keeps_offKind | with_reducible apply keeps_enqueueParam | with_reducible apply keeps_updFu | with_reducible apply kc_ite | with_reducible apply keeps_ite | split | intro _)

theorem keeps_execFuConfigPort {z : State} (via : Transport) (s : State) (hk0 : Keeps z s) : KeepsNext z (execFuConfigPort via s) := by
  unfold execFuConfigPort
  try dsimp only
  repeat' (first
      | with_reducible assumption
      | with_reducible apply keeps_paramRow | with_reducible apply kn_next | with_reducible apply keeps_runCard | with_reducible apply keeps_graphCard
      | with_reducible apply keeps_fuPortRun | with_reducible apply keeps_ite | intro _ | with_reducible apply kn_ite | split)

theorem keeps_fuEnqueue {z : State} (u words : Nat) (q : FuReq) (s : State) (h : Keeps z s) : Keeps z (fuEnqueue u words q s) := by
  unfold fuEnqueue
  try dsimp only
  repeat' (first
      | with_reducible assumption | with_reducible apply keeps_enqueueParam | with_reducible apply keeps_fuLeftOver | with_reducible apply keeps_updFu
      | with_reducible apply keeps_ite | intro _)

theorem keeps_fuLawRun {z : State} (s : State) (r : Req) (hk0 : Keeps z s) : KeepsCard z (fuLawRun s r) := by
  unfold fuLawRun
  try dsimp only
  repeat' (first
      | with_reducible assumption | exact trivial | with_reducible apply kc_done | with_reducible apply keeps_fuEnqueue | with_reducible apply kc_ite | intro _)

theorem keeps_execFuConfigLaw {z : State} (via : Transport) (s : State) (hk0 : Keeps z s) : KeepsNext z (execFuConfigLaw via s) := by
  unfold execFuConfigLaw
  try dsimp only
  repeat' (first
      | with_reducible assumption
      | with_reducible apply keeps_paramRow | with_reducible apply kn_next | with_reducible apply keeps_runCard | with_reducible apply keeps_graphCard
      | with_reducible apply keeps_fuLawRun | with_reducible apply keeps_ite | intro _ | with_reducible apply kn_ite | split)

theorem keeps_fuLimRun {z : State} (s : State) (r : Req) (hk0 : Keeps z s) : KeepsCard z (fuLimRun s r) := by
  unfold fuLimRun
  try dsimp only
  repeat' (first
      | with_reducible assumption | exact trivial | with_reducible apply kc_done | with_reducible apply keeps_fuEnqueue | with_reducible apply kc_ite | intro _)

theorem keeps_execFuConfigLimits {z : State} (via : Transport) (s : State) (hk0 : Keeps z s) : KeepsNext z (execFuConfigLimits via s) := by
  unfold execFuConfigLimits
  try dsimp only
  repeat' (first
      | with_reducible assumption
      | with_reducible apply keeps_paramRow | with_reducible apply kn_next | with_reducible apply keeps_runCard | with_reducible apply keeps_graphCard
      | with_reducible apply keeps_fuLimRun | with_reducible apply keeps_ite | intro _ | with_reducible apply kn_ite | split)

theorem keeps_fuSyncRun {z : State} (s : State) (r : Req) (hk0 : Keeps z s) : KeepsCard z (fuSyncRun s r) := by
  unfold fuSyncRun
  try dsimp only
  repeat' (first | with_reducible assumption | with_reducible apply keeps_offKind | with_reducible apply keeps_enqueueParam | with_reducible apply keeps_updFu)

theorem keeps_execFuConfigSync {z : State} (via : Transport) (s : State) (hk0 : Keeps z s) : KeepsNext z (execFuConfigSync via s) := by
  unfold execFuConfigSync
  try dsimp only
  repeat' (first
      | with_reducible assumption
      | with_reducible apply keeps_paramRow | with_reducible apply kn_next | with_reducible apply keeps_runCard | with_reducible apply keeps_graphCard
      | with_reducible apply keeps_fuSyncRun | with_reducible apply keeps_ite | intro _ | with_reducible apply kn_ite | split)

theorem keeps_fuModeRun {z : State} (s : State) (r : Req) (hk0 : Keeps z s) : KeepsCard z (fuModeRun s r) := by
  unfold fuModeRun
  try dsimp only
  repeat' (first
      | with_reducible assumption
      | fail_if_no_progress (with_reducible refine Keeps.upd ?_) | exact trivial | with_reducible apply kc_done | with_reducible apply keeps_enqueueParam | with_reducible apply keeps_updFu
      | with_reducible apply kc_ite | split | intro _ | with_reducible apply keeps_ite)

theorem keeps_execFuMode {z : State} (via : Transport) (s : State) (hk0 : Keeps z s) : KeepsNext z (execFuMode via s) := by
  unfold execFuMode
  try dsimp only
  repeat' (first
      | with_reducible assumption
      | with_reducible apply keeps_paramRow | with_reducible apply kn_next | with_reducible apply keeps_runCard | with_reducible apply keeps_graphCard
      | with_reducible apply keeps_fuModeRun | with_reducible apply keeps_ite | intro _ | with_reducible apply kn_ite | split)

theorem keeps_fuSetpointRun {z : State} (s : State) (r : Req) (hk0 : Keeps z s) : KeepsCard z (fuSetpointRun s r) := by
  unfold fuSetpointRun
  try dsimp only
  repeat' (first
      | with_reducible assumption | exact trivial | with_reducible apply kc_done | with_reducible apply keeps_fuEnqueue | with_reducible apply kc_ite | split
      | intro _)

theorem keeps_execFuSetpoint {z : State} (via : Transport) (s : State) (hk0 : Keeps z s) : KeepsNext z (execFuSetpoint via s) := by
  unfold execFuSetpoint
  try dsimp only
  repeat' (first
      | with_reducible assumption
      | with_reducible apply keeps_paramRow | with_reducible apply kn_next | with_reducible apply keeps_runCard | with_reducible apply keeps_graphCard
      | with_reducible apply keeps_fuSetpointRun | with_reducible apply keeps_ite | intro _ | with_reducible apply kn_ite | split)

theorem keeps_fuScheduleRun {z : State} (s : State) (r : Req) (hk0 : Keeps z s) : KeepsCard z (fuScheduleRun s r) := by
  unfold fuScheduleRun
  try dsimp only
  repeat' (first
      | with_reducible assumption
      | fail_if_no_progress (with_reducible refine Keeps.upd ?_) | exact trivial | with_reducible apply kc_done | with_reducible apply keeps_enqueueParam | with_reducible apply keeps_updFu
      | with_reducible apply kc_ite | split | intro _ | with_reducible apply keeps_ite)

theorem keeps_execFuSchedule {z : State} (via : Transport) (s : State) (hk0 : Keeps z s) : KeepsNext z (execFuSchedule via s) := by
  unfold execFuSchedule
  try dsimp only
  repeat' (first
      | with_reducible assumption
      | with_reducible apply keeps_paramRow | with_reducible apply kn_next | with_reducible apply keeps_runCard | with_reducible apply keeps_graphCard
      | with_reducible apply keeps_fuScheduleRun | with_reducible apply keeps_ite | intro _ | with_reducible apply kn_ite | split)

/-! ### Can.lean -/

theorem keeps_canStart {z : State} (p : Nat) (s : State) (h : Keeps z s) : Keeps z (canStart p s) := by
  unfold canStart
  try dsimp only
  repeat' (first | with_reducible assumption | with_reducible apply keeps_canChange)

theorem keeps_canConfigRun {z : State} (s : State) (r : Req) (hk0 : Keeps z s) : KeepsCard z (canConfigRun s r) := by
  unfold canConfigRun
  try dsimp only
  repeat' (first
      | with_reducible assumption | exact trivial | with_reducible apply kc_done | with_reducible apply keeps_canStop | with_reducible apply keeps_canChange
      | with_reducible apply keeps_updCan | with_reducible apply keeps_canStart | with_reducible apply kc_ite | split | intro _)

theorem keeps_execCanConfig {z : State} (via : Transport) (s : State) (hk0 : Keeps z s) : KeepsNext z (execCanConfig via s) := by
  unfold execCanConfig
  try dsimp only
  repeat' (first
      | with_reducible assumption | with_reducible apply kn_next | with_reducible apply keeps_runCard | with_reducible apply keeps_graphCard
      | with_reducible apply keeps_canConfigRun)

theorem keeps_canSendRun {z : State} (s : State) (r : Req) (hk0 : Keeps z s) : KeepsCard z (canSendRun s r) := by
  unfold canSendRun
  try dsimp only
  repeat' (first
      | with_reducible assumption
      | fail_if_no_progress (with_reducible refine Keeps.upd ?_) | exact trivial | with_reducible apply kc_done | with_reducible apply keeps_setEntryStatus | with_reducible apply keeps_updCan
      | with_reducible apply kc_ite | split | intro _ | with_reducible apply keeps_ite)

theorem keeps_execCanSend {z : State} (via : Transport) (s : State) (hk0 : Keeps z s) : KeepsNext z (execCanSend via s) := by
  unfold execCanSend
  try dsimp only
  repeat' (first
      | with_reducible assumption | with_reducible apply kn_next | with_reducible apply keeps_runCard | with_reducible apply keeps_graphCard
      | with_reducible apply keeps_canSendRun)

theorem keeps_canCancelRun {z : State} (s : State) (r : Req) (hk0 : Keeps z s) : KeepsCard z (canCancelRun s r) := by
  unfold canCancelRun
  try dsimp only
  repeat' (first
      | with_reducible assumption | exact trivial | with_reducible apply kc_done | with_reducible apply kc_failed | with_reducible apply keeps_updCan
      | with_reducible apply keeps_txOutcome | with_reducible apply kc_ite | split | intro _)

theorem keeps_execCanCancel {z : State} (via : Transport) (s : State) (hk0 : Keeps z s) : KeepsNext z (execCanCancel via s) := by
  unfold execCanCancel
  try dsimp only
  repeat' (first
      | with_reducible assumption | with_reducible apply kn_next | with_reducible apply keeps_runCard | with_reducible apply keeps_graphCard
      | with_reducible apply keeps_canCancelRun)

theorem keeps_canRxAckRun {z : State} (s : State) (r : Req) (hk0 : Keeps z s) : KeepsCard z (canRxAckRun s r) := by
  unfold canRxAckRun
  try dsimp only
  repeat' (first
      | with_reducible assumption | exact trivial | with_reducible apply kc_done | with_reducible apply keeps_setEntryStatus | with_reducible apply keeps_updCan
      | with_reducible apply keeps_forEach | with_reducible apply kc_ite | intro _)

theorem keeps_execCanRxAck {z : State} (via : Transport) (s : State) (hk0 : Keeps z s) : KeepsNext z (execCanRxAck via s) := by
  unfold execCanRxAck
  try dsimp only
  repeat' (first
      | with_reducible assumption | with_reducible apply kn_next | with_reducible apply keeps_runCard | with_reducible apply keeps_graphCard
      | with_reducible apply keeps_canRxAckRun)

theorem keeps_canRecoverRun {z : State} (s : State) (r : Req) (hk0 : Keeps z s) : KeepsCard z (canRecoverRun s r) := by
  unfold canRecoverRun
  try dsimp only
  repeat' (first
      | with_reducible assumption | exact trivial | with_reducible apply kc_done | with_reducible apply keeps_canChange | with_reducible apply kc_ite | split
      | intro _)

theorem keeps_execCanRecover {z : State} (via : Transport) (s : State) (hk0 : Keeps z s) : KeepsNext z (execCanRecover via s) := by
  unfold execCanRecover
  try dsimp only
  repeat' (first
      | with_reducible assumption | with_reducible apply kn_next | with_reducible apply keeps_runCard | with_reducible apply keeps_graphCard
      | with_reducible apply keeps_canRecoverRun)

theorem keeps_dropTxTap {z : State} (j : Nat) (s : State) (h : Keeps z s) : Keeps z (dropTxTap j s) := by
  unfold dropTxTap
  try dsimp only
  repeat' (first
      | with_reducible assumption | with_reducible apply keeps_setEntryStatus | with_reducible apply keeps_updCan
      | fail_if_no_progress (with_reducible refine Keeps.upd ?_ (h13 := fun hh => by simpa [canOk, upd_length, List.length_map, List.length_mapIdx] using hh))
      | with_reducible apply keeps_ite | split | intro _)

theorem keeps_canTapRun {z : State} (s : State) (r : Req) (hk0 : Keeps z s) : KeepsCard z (canTapRun s r) := by
  unfold canTapRun
  try dsimp only
  repeat' (first
      | with_reducible assumption | exact trivial | with_reducible apply kc_done | with_reducible apply keeps_dropTxTap
      | fail_if_no_progress (with_reducible refine Keeps.upd ?_ (h13 := fun hh => by simpa [canOk, upd_length, List.length_map, List.length_mapIdx] using hh))
      | with_reducible apply kc_ite | split | intro _ | with_reducible apply keeps_ite)

theorem keeps_execCanTap {z : State} (via : Transport) (s : State) (hk0 : Keeps z s) : KeepsNext z (execCanTap via s) := by
  unfold execCanTap
  try dsimp only
  repeat' (first
      | with_reducible assumption | with_reducible apply kn_next | with_reducible apply keeps_runCard | with_reducible apply keeps_graphCard
      | with_reducible apply keeps_canTapRun)

theorem keeps_rxStore {z : State} (p : Nat) (f : CanFrame) (stamp : U32) (s : State) (h : Keeps z s) : Keeps z (rxStore p f stamp s) := by
  unfold rxStore
  try dsimp only
  repeat' (first
      | with_reducible assumption
      | fail_if_no_progress (with_reducible refine Keeps.upd ?_) | with_reducible apply keeps_updCan | with_reducible apply keeps_postMerge | with_reducible apply keeps_canWrite
      | with_reducible apply keeps_ite | intro _ | split)

theorem keeps_countReceived {z : State} (p : Nat) (s : State) (h : Keeps z s) : Keeps z (countReceived p s) := by
  unfold countReceived
  try dsimp only
  repeat' (first
      | with_reducible assumption | with_reducible apply keeps_canCounters | with_reducible apply keeps_draw | with_reducible apply keeps_ite | split | intro _)

theorem keeps_execCanFrameReceived {z : State} (p : Nat) (f : CanFrame) (ago : Nat) (s : State) (h : Keeps z s) : KeepsNext z (execCanFrameReceived p f ago s) := by
  unfold execCanFrameReceived
  try dsimp only
  repeat' (first
      | with_reducible assumption | with_reducible apply kn_next | with_reducible apply keeps_updCan | with_reducible apply keeps_rxStore
      | with_reducible apply keeps_countReceived
      | fail_if_no_progress (with_reducible refine Keeps.upd ?_ (h13 := fun hh => by first | exact hh | ((repeat' split) <;> simp_all [canOk, upd_length, List.length_map, List.length_mapIdx, memWrite_wf, memWriteBytes_wf, memClear_wf])))
      | with_reducible apply kn_ite | with_reducible apply keeps_ite | split | intro _)

theorem keeps_execCanTxAttempt {z : State} (p : Nat) (s : State) (hk0 : Keeps z s) : KeepsNext z (execCanTxAttempt p s) := by
  unfold execCanTxAttempt
  try dsimp only
  repeat' (first
      | with_reducible assumption | with_reducible apply kn_next | with_reducible apply kn_ite | with_reducible apply keeps_canWrite
      | with_reducible apply keeps_updCan | split | intro _)

theorem keeps_countSent {z : State} (p : Nat) (s : State) (h : Keeps z s) : Keeps z (countSent p s) := by
  unfold countSent
  try dsimp only
  repeat' (first
      | with_reducible assumption | with_reducible apply keeps_canCounters | with_reducible apply keeps_ite | split | intro _)

theorem keeps_execCanTxOutcome {z : State} (p result : Nat) (tdc : Byte) (s : State) (h : Keeps z s) : KeepsNext z (execCanTxOutcome p result tdc s) := by
  unfold execCanTxOutcome
  try dsimp only
  repeat' (first
      | with_reducible assumption | with_reducible apply kn_next | with_reducible apply keeps_updCan | with_reducible apply keeps_countSent
      | with_reducible apply keeps_tapNext | with_reducible apply keeps_txOutcome | with_reducible apply keeps_canWrite | with_reducible apply keeps_attemptFailed
      | fail_if_no_progress (with_reducible refine Keeps.upd ?_) | with_reducible apply kn_ite | with_reducible apply keeps_ite | split | intro _)

theorem keeps_countError {z : State} (p : Nat) (c : CanCount) (s : State) (h : Keeps z s) : Keeps z (countError p c s) := by
  unfold countError
  try dsimp only
  repeat' (first
      | with_reducible assumption | with_reducible apply keeps_canCounters | with_reducible apply keeps_ite | split | intro _)

theorem keeps_execCanBusError {z : State} (p code : Nat) (count : CanCount) (s : State) (h : Keeps z s) : KeepsNext z (execCanBusError p code count s) := by
  unfold execCanBusError
  try dsimp only
  repeat' (first
      | with_reducible assumption | with_reducible apply kn_next | with_reducible apply keeps_countError | with_reducible apply keeps_updCan
      | fail_if_no_progress (with_reducible refine Keeps.upd ?_) | with_reducible apply kn_ite | with_reducible apply keeps_ite | split | intro _)

theorem keeps_execCanRecoveryDone {z : State} (p : Nat) (s : State) (hk0 : Keeps z s) : KeepsNext z (execCanRecoveryDone p s) := by
  unfold execCanRecoveryDone
  try dsimp only
  repeat' (first | with_reducible assumption | with_reducible apply kn_next | with_reducible apply kn_ite | with_reducible apply keeps_canChange | intro _)

theorem keeps_execCanShutdownEnd {z : State} (p : Nat) (s : State) (hk0 : Keeps z s) : KeepsNext z (execCanShutdownEnd p s) := by
  unfold execCanShutdownEnd
  try dsimp only
  repeat' (first | with_reducible assumption | with_reducible apply kn_next | with_reducible apply kn_ite | with_reducible apply keeps_canStop | intro _)

theorem keeps_execCanTapTimeout {z : State} (k : Nat) (s : State) (hk0 : Keeps z s) : KeepsNext z (execCanTapTimeout k s) := by
  unfold execCanTapTimeout
  try dsimp only
  repeat' (first
      | with_reducible assumption | with_reducible apply kn_next | with_reducible apply kn_ite | with_reducible apply keeps_advanceTo
      | fail_if_no_progress (with_reducible refine Keeps.upd ?_ (h13 := fun hh => by simpa [canOk, upd_length, List.length_map, List.length_mapIdx] using hh))
      | split | intro _)

theorem keeps_execCanRejoin {z : State} (p : Nat) (lost : Bool) (s : State) (hk0 : Keeps z s) : KeepsNext z (execCanRejoin p lost s) := by
  unfold execCanRejoin
  try dsimp only
  repeat' (first | with_reducible assumption | with_reducible apply kn_next | with_reducible apply kn_ite | with_reducible apply keeps_updCan | split | intro _)

end Sys2Proof
end

