-- ==== Sys2Proof/Laws/KeepsWhole.lean ====
section
/-! SUPPORT. What Sage, resets, boot, repair, publication and the bulk port keep, one lemma an operation: the
queue, the numbers of resources, the form of the memories and the fuses. -/

namespace Sys2Proof

set_option linter.all false
set_option Elab.async false

open Sys2Proof.Machine
open Sys2Proof.Laws

/-! ### OpsSage.lean -/

theorem sageSized_of {x y : Sage} (h1 : y.copies = x.copies) (h2 : y.tails = x.tails) (h3 : y.past = x.past) (h : sageSized x) : sageSized y := by
  unfold sageSized
  rw [h1, h2, h3]
  exact h
theorem sageSized_open {x : Sage} (h : sageSized x) : sageSized (sageOpen x) := ⟨h.1, h.2.1, rfl, rfl⟩
theorem sageSized_store {x : Sage} {r : List (BitVec 96)} (hr : r.length = 10) (h : sageSized x) : sageSized (sageStore r x) :=
  ⟨by simp [sageStore], by intro c hc; simp only [sageStore, List.mem_replicate] at hc; rw [hc.2]; exact hr, h.2.2⟩
theorem sageSized_keep {x : Sage} (b : List (List Bool)) (h : sageSized x) : sageSized (sageKeep b x) :=
  ⟨h.1, h.2.1, by simp [sageKeep], by simp [sageKeep, sageSamples]⟩
theorem sageRegs_length (x : Sage) : (sageRegs x).length = 10 := by simp [sageRegs]
theorem sageSized_sage0 : sageSized sage0 := by
  refine ⟨rfl, fun c hc => ?_, rfl, rfl⟩
  simp only [sage0, List.mem_replicate] at hc
  rw [hc.2]; rfl

theorem keeps_updSage {z : State} (f : Sage → Sage) (s : State) (h : Keeps z s) (hf : ∀ c : Sage, sageSized c → sageSized (f c)) : Keeps z (updSage f s) := by
  unfold updSage
  exact Keeps.upd h (h14 := hf _)

theorem keeps_odometerStep {z : State} (s : State) (h : Keeps z s) : Keeps z (odometerStep s) := by
  unfold odometerStep
  refine Keeps.upd h (h15 := fun hh => ⟨hh.1, memWrite_wf _ _ _ hh.2⟩) (h16 := fun hh k => ?_)
  by_cases hk : k = odometerAt + odometer s / 8
  · subst hk
    rw [memRead_memWrite_same _ _ _ hh.2, BitVec.or_comm, byte_or]
  · rw [memRead_memWrite_other _ _ _ _ hk hh.2]; simp

theorem keeps_sageAdvance {z : State} (t : Nat) (s : State) (h : Keeps z s) : Keeps z (sageAdvance t s) := by
  unfold sageAdvance
  try dsimp only
  repeat' (first | with_reducible assumption | with_reducible apply keeps_updSage | (intro c hc; first | exact sageSized_of (x := c) (by rfl) (by rfl) (by rfl) hc | exact sageSized_of (x := sageOpen c) (by rfl) (by rfl) (by rfl) (sageSized_open hc)) | split | intro _)

theorem keeps_sagePostLog {z : State} (s : State) (h : Keeps z s) : Keeps z (sagePostLog s) := by
  unfold sagePostLog
  try dsimp only
  repeat' (first
      | with_reducible assumption | with_reducible apply keeps_post | with_reducible apply keeps_updSage | (intro c hc; first | exact sageSized_of (x := c) (by rfl) (by rfl) (by rfl) hc | exact sageSized_of (x := sageOpen c) (by rfl) (by rfl) (by rfl) (sageSized_open hc)) | with_reducible apply keeps_foldl
      | with_reducible apply keeps_ite | intro _)

theorem keeps_sageLog {z : State} (code : U16) (data : Bytes) (s : State) (h : Keeps z s) : Keeps z (sageLog code data s) := by
  unfold sageLog
  try dsimp only
  repeat' (first | with_reducible assumption | with_reducible apply keeps_sagePostLog | with_reducible apply keeps_updSage | (intro c hc; first | exact sageSized_of (x := c) (by rfl) (by rfl) (by rfl) hc | exact sageSized_of (x := sageOpen c) (by rfl) (by rfl) (by rfl) (sageSized_open hc)) | split | intro _)

theorem keeps_sagePost {z : State} (merge : Bool) (code : U16) (data : Bytes) (s : State) (h : Keeps z s) : Keeps z (sagePost merge code data s) := by
  unfold sagePost
  try dsimp only
  repeat' (first | with_reducible assumption | with_reducible apply keeps_postMerge | with_reducible apply keeps_post | with_reducible apply keeps_ite | split | intro _)

theorem keeps_sageMeasure {z : State} (bits : List (List Bool)) (ticks : Nat) (s : State) (h : Keeps z s) : Keeps z (sageMeasure bits ticks s) := by
  unfold sageMeasure
  extract_lets +onlyGivenNames x w used f on e src pulse acc due room limited pf vAct act s1
  have he : List.length e = 10 := by simp only [e, windowEnergy]; (first | rfl | simp)
  have h1 : Keeps z s1 := keeps_updSage _ _ h (fun c hc => sageSized_of (by rfl) (by rfl) (by rfl)
    <| sageSized_keep bits (sageSized_store (x := c) (r := ((sageRegs c).zip e).map (fun r => r.1 + BitVec.ofNat 96 r.2)) (by simp [sageRegs_length, he]) hc))
  clear_value s1
  split
  · exact keeps_sagePost _ _ _ _ h1
  · exact h1

theorem keeps_sagePublish {z : State} (s : State) (h : Keeps z s) : Keeps z (sagePublish s) := by
  unfold sagePublish
  try dsimp only
  repeat' (first | with_reducible assumption | with_reducible apply keeps_updSage | (intro c hc; first | exact sageSized_of (x := c) (by rfl) (by rfl) (by rfl) hc | exact sageSized_of (x := sageOpen c) (by rfl) (by rfl) (by rfl) (sageSized_open hc)) | intro _)

theorem keeps_startSigning {z : State} (s : State) (h : Keeps z s) : Keeps z (startSigning s) := by
  unfold startSigning
  try dsimp only
  repeat' (first | with_reducible assumption | with_reducible apply keeps_updSage | (intro c hc; first | exact sageSized_of (x := c) (by rfl) (by rfl) (by rfl) hc | exact sageSized_of (x := sageOpen c) (by rfl) (by rfl) (by rfl) (sageSized_open hc)) | with_reducible apply keeps_ite | split | intro _)

theorem keeps_queueSigning {z : State} (j : SignJob) (s : State) (h : Keeps z s) : Keeps z (queueSigning j s) := by
  unfold queueSigning
  try dsimp only
  repeat' (first | with_reducible assumption | with_reducible apply keeps_startSigning | with_reducible apply keeps_updSage | (intro c hc; first | exact sageSized_of (x := c) (by rfl) (by rfl) (by rfl) hc | exact sageSized_of (x := sageOpen c) (by rfl) (by rfl) (by rfl) (sageSized_open hc)) | intro _)

theorem keeps_checkpointDue {z : State} (trigger : Nat) (asked : Bool) (s : State) (h : Keeps z s) : Keeps z (checkpointDue trigger asked s) := by
  unfold checkpointDue
  try dsimp only
  repeat' (first | with_reducible assumption | with_reducible apply keeps_queueSigning)

theorem keeps_sageResets {z : State} (forSeal : Bool) (s : State) (h : Keeps z s) : Keeps z (sageResets forSeal s) := by
  unfold sageResets
  extract_lets +onlyGivenNames x stays op owed s1 goal
  exact keeps_updSage _ _ (keeps_foldl _ _ _ h (fun _ _ k => keeps_endLong _ _ _ _ _ k)) (fun _ _ => sageSized_sage0)

/-! ### Sage.lean -/

theorem keeps_execSageSupplyWarn {z : State} (at_ : Nat) (v : F32) (held : Nat) (bits : List (List Bool)) (s : State) (h : Keeps z s) : KeepsNext z (execSageSupplyWarn at_ v held bits s) := by
  unfold execSageSupplyWarn
  try dsimp only
  repeat' (first
      | with_reducible assumption | with_reducible apply kn_next | with_reducible apply keeps_updSage | (intro c hc; first | exact sageSized_of (x := c) (by rfl) (by rfl) (by rfl) hc | exact sageSized_of (x := sageOpen c) (by rfl) (by rfl) (by rfl) (sageSized_open hc)) | with_reducible apply keeps_sageAdvance
      | with_reducible apply keeps_sagePublish | with_reducible apply keeps_sageMeasure | with_reducible apply keeps_checkpointDue
      | with_reducible apply keeps_sagePost | fail_if_no_progress (with_reducible refine Keeps.upd ?_) | with_reducible apply kn_ite | with_reducible apply keeps_ite
      | split | intro _)

theorem keeps_execSageSupplyWarnRelease {z : State} (v : F32) (held : Nat) (s : State) (h : Keeps z s) : KeepsNext z (execSageSupplyWarnRelease v held s) := by
  unfold execSageSupplyWarnRelease
  try dsimp only
  repeat' (first
      | with_reducible assumption | with_reducible apply kn_next | with_reducible apply keeps_updSage | (intro c hc; first | exact sageSized_of (x := c) (by rfl) (by rfl) (by rfl) hc | exact sageSized_of (x := sageOpen c) (by rfl) (by rfl) (by rfl) (sageSized_open hc)) | fail_if_no_progress (with_reducible refine Keeps.upd ?_)
      | with_reducible apply kn_ite | with_reducible apply keeps_ite | split | intro _)

theorem keeps_execSageReset {z : State} (forSeal : Bool) (v : F32) (held : Nat) (s : State) (h : Keeps z s) : KeepsNext z (execSageReset forSeal v held s) := by
  unfold execSageReset
  try dsimp only
  repeat' (first
      | with_reducible assumption | with_reducible apply kn_next | with_reducible apply keeps_sageResets | with_reducible apply keeps_otpProgram
      | with_reducible apply keeps_updSage | (intro c hc; first | exact sageSized_of (x := c) (by rfl) (by rfl) (by rfl) hc | exact sageSized_of (x := sageOpen c) (by rfl) (by rfl) (by rfl) (sageSized_open hc)) | fail_if_no_progress (with_reducible refine Keeps.upd ?_) | with_reducible apply kn_ite | with_reducible apply keeps_ite
      | split | intro _)

theorem keeps_sageKeys {z : State} (s : State) (h : Keeps z s) : Keeps z (sageKeys s) := by
  unfold sageKeys
  try dsimp only
  repeat' (first | with_reducible assumption | with_reducible apply keeps_drawBytes | with_reducible apply keeps_otpProgram | with_reducible apply keeps_ite | intro _)

theorem keeps_execSageResetRelease {z : State} (v : F32) (held : Nat) (s : State) (h : Keeps z s) : KeepsNext z (execSageResetRelease v held s) := by
  unfold execSageResetRelease
  try dsimp only
  repeat' (first
      | with_reducible assumption | with_reducible apply kn_next | with_reducible apply keeps_sageKeys | with_reducible apply keeps_drawBytes
      | with_reducible apply keeps_updSage | (intro c hc; first | exact sageSized_of (x := c) (by rfl) (by rfl) (by rfl) hc | exact sageSized_of (x := sageOpen c) (by rfl) (by rfl) (by rfl) (sageSized_open hc)) | with_reducible apply keeps_sageLog | with_reducible apply keeps_checkpointDue | with_reducible apply keeps_sagePublish
      | with_reducible apply keeps_endLong
      | fail_if_no_progress (with_reducible refine Keeps.upd ?_ (h15 := fun hh => by first | exact hh | ((repeat' split) <;> simp_all [relOk, relSized, upd_length, List.length_map, List.length_mapIdx, memWrite_wf, memWriteBytes_wf, memClear_wf])))
      | with_reducible apply kn_ite | with_reducible apply keeps_ite | split | intro _)

theorem keeps_execSageMeteringStart {z : State} (s : State) (hk0 : Keeps z s) : KeepsNext z (execSageMeteringStart s) := by
  unfold execSageMeteringStart
  try dsimp only
  repeat' (first | with_reducible assumption | with_reducible apply kn_next | with_reducible apply kn_ite | with_reducible apply keeps_updSage | (intro c hc; first | exact sageSized_of (x := c) (by rfl) (by rfl) (by rfl) hc | exact sageSized_of (x := sageOpen c) (by rfl) (by rfl) (by rfl) (sageSized_open hc)) | intro _)

theorem keeps_execSageClockLost {z : State} (s : State) (hk0 : Keeps z s) : KeepsNext z (execSageClockLost s) := by
  unfold execSageClockLost
  try dsimp only
  repeat' (first
      | with_reducible assumption | with_reducible apply kn_next | with_reducible apply kn_ite | with_reducible apply keeps_sageLog
      | with_reducible apply keeps_updSage | (intro c hc; first | exact sageSized_of (x := c) (by rfl) (by rfl) (by rfl) hc | exact sageSized_of (x := sageOpen c) (by rfl) (by rfl) (by rfl) (sageSized_open hc)) | intro _)

theorem keeps_execSageClockRestored {z : State} (s : State) (hk0 : Keeps z s) : KeepsNext z (execSageClockRestored s) := by
  unfold execSageClockRestored
  try dsimp only
  repeat' (first
      | with_reducible assumption | with_reducible apply kn_next | with_reducible apply kn_ite | with_reducible apply keeps_sageLog
      | with_reducible apply keeps_updSage | (intro c hc; first | exact sageSized_of (x := c) (by rfl) (by rfl) (by rfl) hc | exact sageSized_of (x := sageOpen c) (by rfl) (by rfl) (by rfl) (sageSized_open hc)) | intro _)

theorem keeps_execSageWindowEnd {z : State} (bits : List (List Bool)) (s : State) (hk0 : Keeps z s) : KeepsNext z (execSageWindowEnd bits s) := by
  unfold execSageWindowEnd
  try dsimp only
  repeat' (first
      | with_reducible assumption | with_reducible apply kn_next | with_reducible apply kn_ite | with_reducible apply keeps_sageAdvance
      | with_reducible apply keeps_sagePublish | with_reducible apply keeps_sageMeasure | with_reducible apply keeps_checkpointDue | split | intro _)

theorem keeps_execPulseEmit {z : State} (s : State) (hk0 : Keeps z s) : KeepsNext z (execPulseEmit s) := by
  unfold execPulseEmit
  try dsimp only
  repeat' (first
      | with_reducible assumption | with_reducible apply kn_next | with_reducible apply kn_ite | with_reducible apply keeps_sageAdvance
      | with_reducible apply keeps_updSage | (intro c hc; first | exact sageSized_of (x := c) (by rfl) (by rfl) (by rfl) hc | exact sageSized_of (x := sageOpen c) (by rfl) (by rfl) (by rfl) (sageSized_open hc)) | split | intro _)

theorem keeps_execPulseEnd {z : State} (s : State) (hk0 : Keeps z s) : KeepsNext z (execPulseEnd s) := by
  unfold execPulseEnd
  try dsimp only
  repeat' (first
      | with_reducible assumption | with_reducible apply kn_next | with_reducible apply keeps_updSage | (intro c hc; first | exact sageSized_of (x := c) (by rfl) (by rfl) (by rfl) hc | exact sageSized_of (x := sageOpen c) (by rfl) (by rfl) (by rfl) (sageSized_open hc)) | with_reducible apply keeps_sageAdvance | split | intro _)

theorem keeps_execRetentionEntry {z : State} (s : State) (hk0 : Keeps z s) : KeepsNext z (execRetentionEntry s) := by
  unfold execRetentionEntry
  try dsimp only
  repeat' (first
      | with_reducible assumption | with_reducible apply kn_next | with_reducible apply kn_ite | with_reducible apply keeps_updSage | (intro c hc; first | exact sageSized_of (x := c) (by rfl) (by rfl) (by rfl) hc | exact sageSized_of (x := sageOpen c) (by rfl) (by rfl) (by rfl) (sageSized_open hc))
      | with_reducible apply keeps_sageAdvance | intro _)

theorem keeps_execRetentionProbe {z : State} (found : Bool) (s : State) (hk0 : Keeps z s) : KeepsNext z (execRetentionProbe found s) := by
  unfold execRetentionProbe
  try dsimp only
  repeat' (first
      | with_reducible assumption | with_reducible apply kn_next | with_reducible apply kn_ite | with_reducible apply keeps_sageAdvance
      | with_reducible apply keeps_updSage | (intro c hc; first | exact sageSized_of (x := c) (by rfl) (by rfl) (by rfl) hc | exact sageSized_of (x := sageOpen c) (by rfl) (by rfl) (by rfl) (sageSized_open hc)) | split | intro _)

theorem keeps_execSageTiePoint {z : State} (count : Nat) (s : State) (hk0 : Keeps z s) : KeepsNext z (execSageTiePoint count s) := by
  unfold execSageTiePoint
  try dsimp only
  repeat' (first
      | with_reducible assumption | with_reducible apply kn_next | with_reducible apply kn_ite | with_reducible apply keeps_updSage | (intro c hc; first | exact sageSized_of (x := c) (by rfl) (by rfl) (by rfl) hc | exact sageSized_of (x := sageOpen c) (by rfl) (by rfl) (by rfl) (sageSized_open hc))
      | with_reducible apply keeps_sageAdvance | with_reducible apply keeps_endLong | with_reducible apply keeps_checkpointDue
      | with_reducible apply keeps_sageLog | with_reducible apply keeps_foldl | split | intro _)

theorem keeps_execTiePointsStopped {z : State} (s : State) (hk0 : Keeps z s) : KeepsNext z (execTiePointsStopped s) := by
  unfold execTiePointsStopped
  try dsimp only
  repeat' (first | with_reducible assumption | with_reducible apply kn_next | with_reducible apply kn_ite | with_reducible apply keeps_updSage | (intro c hc; first | exact sageSized_of (x := c) (by rfl) (by rfl) (by rfl) hc | exact sageSized_of (x := sageOpen c) (by rfl) (by rfl) (by rfl) (sageSized_open hc)) | intro _)

theorem keeps_execCheckpointDue {z : State} (s : State) (hk0 : Keeps z s) : KeepsNext z (execCheckpointDue s) := by
  unfold execCheckpointDue
  try dsimp only
  repeat' (first
      | with_reducible assumption | with_reducible apply kn_next | with_reducible apply kn_ite | with_reducible apply keeps_sageAdvance
      | with_reducible apply keeps_checkpointDue | with_reducible apply keeps_updSage | (intro c hc; first | exact sageSized_of (x := c) (by rfl) (by rfl) (by rfl) hc | exact sageSized_of (x := sageOpen c) (by rfl) (by rfl) (by rfl) (sageSized_open hc)) | split | intro _)

theorem keeps_execSigningDone {z : State} (s : State) (hk0 : Keeps z s) : KeepsNext z (execSigningDone s) := by
  unfold execSigningDone
  try dsimp only
  repeat' (first
      | with_reducible assumption | with_reducible apply kn_next | with_reducible apply keeps_drawBytes | with_reducible apply keeps_sagePublish
      | with_reducible apply keeps_updSage | (intro c hc; first | exact sageSized_of (x := c) (by rfl) (by rfl) (by rfl) hc | exact sageSized_of (x := sageOpen c) (by rfl) (by rfl) (by rfl) (sageSized_open hc)) | with_reducible apply keeps_sagePost | with_reducible apply keeps_startSigning | with_reducible apply keeps_endLong
      | with_reducible apply keeps_ite | split | intro _)

theorem kc_sageInReset (z : State) (c : CardResult) : KeepsCard z (sageInReset c) := by
  unfold sageInReset
  repeat' (first | exact trivial | split)

theorem keeps_sageCard {z : State} (f : State → Req → CardResult) (hf : ∀ s r, Keeps z s → KeepsCard z (f s r)) : ∀ s r, Keeps z s → KeepsCard z ((sageCard f).run s r) := by
  intro s r hk0
  unfold sageCard
  dsimp only
  exact kc_ite (fun _ => kc_sageInReset _ _) (fun _ => hf _ _ hk0)

theorem keeps_sageReadRun {z : State} (s : State) (r : Req) (hk0 : Keeps z s) : KeepsCard z (sageReadRun s r) := by
  unfold sageReadRun
  try dsimp only
  repeat' (first | with_reducible assumption | exact trivial | with_reducible apply kc_done | with_reducible apply kc_ite | intro _)

theorem keeps_execSageRead {z : State} (via : Transport) (s : State) (hk0 : Keeps z s) : KeepsNext z (execSageRead via s) := by
  unfold execSageRead
  try dsimp only
  repeat' (first
      | with_reducible assumption | with_reducible apply kn_next | with_reducible apply keeps_runCard | with_reducible apply keeps_sageCard
      | with_reducible apply keeps_sageReadRun)

theorem keeps_signedRecordRun {z : State} (s : State) (r : Req) (hk0 : Keeps z s) : KeepsCard z (signedRecordRun s r) := by
  unfold signedRecordRun
  try dsimp only
  repeat' (first
      | with_reducible assumption | exact trivial | with_reducible apply kc_long | with_reducible apply keeps_queueSigning | with_reducible apply kc_ite | split
      | intro _)

theorem keeps_execSageSignedRecord {z : State} (via : Transport) (s : State) (hk0 : Keeps z s) : KeepsNext z (execSageSignedRecord via s) := by
  unfold execSageSignedRecord
  try dsimp only
  repeat' (first
      | with_reducible assumption | with_reducible apply kn_next | with_reducible apply keeps_runCard | with_reducible apply keeps_sageCard
      | with_reducible apply keeps_signedRecordRun)

theorem keeps_setTimeRun {z : State} (s : State) (r : Req) (hk0 : Keeps z s) : KeepsCard z (setTimeRun s r) := by
  unfold setTimeRun
  try dsimp only
  repeat' (first
      | with_reducible assumption | exact trivial | with_reducible apply kc_long | with_reducible apply keeps_updSage | (intro c hc; first | exact sageSized_of (x := c) (by rfl) (by rfl) (by rfl) hc | exact sageSized_of (x := sageOpen c) (by rfl) (by rfl) (by rfl) (sageSized_open hc)) | with_reducible apply kc_ite | split
      | intro _)

theorem keeps_execSageSetTime {z : State} (via : Transport) (s : State) (hk0 : Keeps z s) : KeepsNext z (execSageSetTime via s) := by
  unfold execSageSetTime
  try dsimp only
  repeat' (first
      | with_reducible assumption | with_reducible apply kn_next | with_reducible apply keeps_runCard | with_reducible apply keeps_sageCard
      | with_reducible apply keeps_setTimeRun)

theorem keeps_eventLogRun {z : State} (s : State) (r : Req) (hk0 : Keeps z s) : KeepsCard z (eventLogRun s r) := by
  unfold eventLogRun
  try dsimp only
  repeat' (first | with_reducible assumption | exact trivial | with_reducible apply kc_done | with_reducible apply kc_ite | intro _)

theorem keeps_execSageEventLog {z : State} (via : Transport) (s : State) (hk0 : Keeps z s) : KeepsNext z (execSageEventLog via s) := by
  unfold execSageEventLog
  try dsimp only
  repeat' (first
      | with_reducible assumption | with_reducible apply kn_next | with_reducible apply keeps_runCard | with_reducible apply keeps_sageCard
      | with_reducible apply keeps_eventLogRun)

theorem keeps_restoreRun {z : State} (s : State) (r : Req) (hk0 : Keeps z s) : KeepsCard z (restoreRun s r) := by
  unfold restoreRun
  try dsimp only
  repeat' (first
      | with_reducible assumption
      | fail_if_no_progress (with_reducible refine Keeps.upd ?_) | with_reducible apply kc_failed | with_reducible apply kc_long | with_reducible apply keeps_sagePost
      | with_reducible apply keeps_updSage | (intro c hc; first | exact sageSized_of (x := c) (by rfl) (by rfl) (by rfl) hc | exact sageSized_of (x := sageOpen c) (by rfl) (by rfl) (by rfl) (sageSized_open hc)) | with_reducible apply kc_ite | split | intro _ | with_reducible apply keeps_ite)

theorem keeps_execSageRestore {z : State} (via : Transport) (s : State) (hk0 : Keeps z s) : KeepsNext z (execSageRestore via s) := by
  unfold execSageRestore
  try dsimp only
  repeat' (first
      | with_reducible assumption | with_reducible apply kn_next | with_reducible apply keeps_runCard | with_reducible apply keeps_sageCard
      | with_reducible apply keeps_restoreRun)

theorem keeps_execSageRestoreDone {z : State} (s : State) (hk0 : Keeps z s) : KeepsNext z (execSageRestoreDone s) := by
  unfold execSageRestoreDone
  try dsimp only
  repeat' (first
      | with_reducible assumption | with_reducible apply kn_next | with_reducible apply keeps_odometerStep | with_reducible apply keeps_updSage | (intro c hc; first | exact sageSized_of (x := c) (by rfl) (by rfl) (by rfl) hc | exact sageSized_of (x := sageOpen c) (by rfl) (by rfl) (by rfl) (sageSized_open hc))
      | with_reducible apply keeps_checkpointDue | with_reducible apply keeps_sageLog | with_reducible apply keeps_endLong
      | (show sageSized _; simp_all [sageSized, odometerStep, sageRegs]) | split | intro _)

theorem keeps_sealQueryRun {z : State} (s : State) (r : Req) (hk0 : Keeps z s) : KeepsCard z (sealQueryRun s r) := by
  unfold sealQueryRun
  try dsimp only
  repeat' (first
      | with_reducible assumption | exact trivial | with_reducible apply kc_done | with_reducible apply keeps_drawBytes | with_reducible apply keeps_updSage | (intro c hc; first | exact sageSized_of (x := c) (by rfl) (by rfl) (by rfl) hc | exact sageSized_of (x := sageOpen c) (by rfl) (by rfl) (by rfl) (sageSized_open hc))
      | with_reducible apply kc_ite | intro _)

theorem keeps_execSageSealQuery {z : State} (via : Transport) (s : State) (hk0 : Keeps z s) : KeepsNext z (execSageSealQuery via s) := by
  unfold execSageSealQuery
  try dsimp only
  repeat' (first
      | with_reducible assumption | with_reducible apply kn_next | with_reducible apply keeps_runCard | with_reducible apply keeps_sageCard
      | with_reducible apply keeps_sealQueryRun)

theorem keeps_sealLoadRun {z : State} (s : State) (r : Req) (hk0 : Keeps z s) : KeepsCard z (sealLoadRun s r) := by
  unfold sealLoadRun
  try dsimp only
  repeat' (first
      | with_reducible assumption | exact trivial | with_reducible apply kc_done | with_reducible apply keeps_updSage | (intro c hc; first | exact sageSized_of (x := c) (by rfl) (by rfl) (by rfl) hc | exact sageSized_of (x := sageOpen c) (by rfl) (by rfl) (by rfl) (sageSized_open hc)) | with_reducible apply kc_ite | split
      | intro _)

theorem keeps_execSageSealLoadParameters {z : State} (via : Transport) (s : State) (hk0 : Keeps z s) : KeepsNext z (execSageSealLoadParameters via s) := by
  unfold execSageSealLoadParameters
  try dsimp only
  repeat' (first
      | with_reducible assumption | with_reducible apply kn_next | with_reducible apply keeps_runCard | with_reducible apply keeps_sageCard
      | with_reducible apply keeps_sealLoadRun)

theorem keeps_sealRun {z : State} (s : State) (r : Req) (hk0 : Keeps z s) : KeepsCard z (sealRun s r) := by
  unfold sealRun
  try dsimp only
  repeat' (first
      | with_reducible assumption
      | fail_if_no_progress (with_reducible refine Keeps.upd ?_) | exact trivial | with_reducible apply kc_failed | with_reducible apply kc_long | with_reducible apply keeps_updSage | (intro c hc; first | exact sageSized_of (x := c) (by rfl) (by rfl) (by rfl) hc | exact sageSized_of (x := sageOpen c) (by rfl) (by rfl) (by rfl) (sageSized_open hc))
      | with_reducible apply kc_ite | split | intro _ | with_reducible apply keeps_ite)

theorem keeps_cardSeal {z : State} : ∀ s r, Keeps z s → KeepsCard z (cardSeal.run s r) := by
  intro s r hk0
  unfold cardSeal
  dsimp only
  repeat' (first | with_reducible assumption | with_reducible apply keeps_sageCard | with_reducible apply keeps_sealRun)

theorem keeps_execSageSealSeal {z : State} (via : Transport) (s : State) (hk0 : Keeps z s) : KeepsNext z (execSageSealSeal via s) := by
  unfold execSageSealSeal
  try dsimp only
  repeat' (first | with_reducible assumption | with_reducible apply kn_next | with_reducible apply keeps_runCard | with_reducible apply keeps_cardSeal)

theorem keeps_breakRun {z : State} (s : State) (r : Req) (hk0 : Keeps z s) : KeepsCard z (breakRun s r) := by
  unfold breakRun
  try dsimp only
  repeat' (first
      | with_reducible assumption
      | fail_if_no_progress (with_reducible refine Keeps.upd ?_) | exact trivial | with_reducible apply kc_failed | with_reducible apply kc_long | with_reducible apply keeps_updSage | (intro c hc; first | exact sageSized_of (x := c) (by rfl) (by rfl) (by rfl) hc | exact sageSized_of (x := sageOpen c) (by rfl) (by rfl) (by rfl) (sageSized_open hc))
      | with_reducible apply kc_ite | split | intro _ | with_reducible apply keeps_ite)

theorem keeps_execSageSealBreak {z : State} (via : Transport) (s : State) (hk0 : Keeps z s) : KeepsNext z (execSageSealBreak via s) := by
  unfold execSageSealBreak
  try dsimp only
  repeat' (first
      | with_reducible assumption | with_reducible apply kn_next | with_reducible apply keeps_runCard | with_reducible apply keeps_sageCard
      | with_reducible apply keeps_breakRun)

theorem keeps_execSealNonceExpiry {z : State} (s : State) (hk0 : Keeps z s) : KeepsNext z (execSealNonceExpiry s) := by
  unfold execSealNonceExpiry
  try dsimp only
  repeat' (first
      | with_reducible assumption | with_reducible apply kn_next | with_reducible apply keeps_updSage | (intro c hc; first | exact sageSized_of (x := c) (by rfl) (by rfl) (by rfl) hc | exact sageSized_of (x := sageOpen c) (by rfl) (by rfl) (by rfl) (sageSized_open hc)) | with_reducible apply keeps_sageAdvance | split | intro _)

theorem keeps_pulseEnableRun {z : State} (s : State) (r : Req) (hk0 : Keeps z s) : KeepsCard z (pulseEnableRun s r) := by
  unfold pulseEnableRun
  try dsimp only
  repeat' (first
      | with_reducible assumption | exact trivial | with_reducible apply kc_done | with_reducible apply keeps_updSage | (intro c hc; first | exact sageSized_of (x := c) (by rfl) (by rfl) (by rfl) hc | exact sageSized_of (x := sageOpen c) (by rfl) (by rfl) (by rfl) (sageSized_open hc)) | with_reducible apply kc_ite | split
      | intro _)

theorem keeps_execSageSealPulseEnable {z : State} (via : Transport) (s : State) (hk0 : Keeps z s) : KeepsNext z (execSageSealPulseEnable via s) := by
  unfold execSageSealPulseEnable
  try dsimp only
  repeat' (first
      | with_reducible assumption | with_reducible apply kn_next | with_reducible apply keeps_runCard | with_reducible apply keeps_sageCard
      | with_reducible apply keeps_pulseEnableRun)

theorem keeps_pulseDisableRun {z : State} (s : State) (r : Req) (hk0 : Keeps z s) : KeepsCard z (pulseDisableRun s r) := by
  unfold pulseDisableRun
  try dsimp only
  repeat' (first
      | with_reducible assumption | exact trivial | with_reducible apply kc_done | with_reducible apply keeps_updSage | (intro c hc; first | exact sageSized_of (x := c) (by rfl) (by rfl) (by rfl) hc | (split <;> exact sageSized_of (x := c) (by rfl) (by rfl) (by rfl) hc) | exact sageSized_of (x := sageOpen c) (by rfl) (by rfl) (by rfl) (sageSized_open hc)) | with_reducible apply kc_ite | split
      | intro _)

theorem keeps_execSageSealPulseDisable {z : State} (via : Transport) (s : State) (hk0 : Keeps z s) : KeepsNext z (execSageSealPulseDisable via s) := by
  unfold execSageSealPulseDisable
  try dsimp only
  repeat' (first
      | with_reducible assumption | with_reducible apply kn_next | with_reducible apply keeps_runCard | with_reducible apply keeps_sageCard
      | with_reducible apply keeps_pulseDisableRun)

/-! ### OpsReset.lean -/

theorem keeps_raiseCounter {z : State} (k v : Nat) (s : State) (h : Keeps z s) : Keeps z (raiseCounter k v s) := by
  unfold raiseCounter
  try dsimp only
  repeat' (first | with_reducible assumption | with_reducible apply keeps_otpSet | with_reducible apply keeps_forEach | split | intro _)

theorem keeps_startReset {z : State} (cause : Byte) (s : State) (h : Keeps z s) : Keeps z (startReset cause s) := by
  unfold startReset
  extract_lets +onlyGivenNames again cold latch
  clear_value again cold latch
  refine Keeps.trans h ⟨rfl, fun x => ⟨⟨?_, ?_⟩, fusesIn_refl _⟩⟩
  · obtain ⟨⟨a1, a2, a3, a4, a5, a6, a7, a8, a9, a10, a11, a12, a13, a14, a15⟩, m⟩ := x
    refine ⟨?_, rfl, rfl, ?_, ?_, ?_, ?_, ?_, ?_, ?_, ?_, rfl, rfl, a14, ⟨rfl, rfl, rfl, rfl⟩⟩
    · show timeSized State.reset.time; unfold timeSized; decide
    · dsimp only; split <;> [(unfold clkSized; decide); exact ⟨by simp [a4.1], rfl⟩]
    · show senseSized State.reset.sense; unfold senseSized; decide
    · show fltSized State.reset.flt; unfold fltSized; decide
    · obtain ⟨b1, b2, b3, b4, b5, b6, b7, b8⟩ := a7
      refine ⟨rfl, rfl, rfl, rfl, ?_, rfl, rfl, ?_⟩
      · simp [pwmReset, b5]
      · simp only [pwmReset]; split <;> [rfl; simp [b8]]
    · show loopSized State.reset.loop; unfold loopSized; decide
    · exact ⟨rfl, rfl, rfl, rfl⟩
    · obtain ⟨b1, b2, b3, b4⟩ := a10
      dsimp only
      split
      · exact ⟨by simp [fieldCold, b1], by simp [fieldCold, b2], rfl, rfl⟩
      · exact ⟨by simp [fieldWarm, b1], by simp [fieldWarm, b2], rfl, rfl⟩
    · show capSized State.reset.cap; unfold capSized; decide
  · obtain ⟨_, m1, m2, m3, m4, m5, m6⟩ := x
    exact ⟨rfl, rfl, rfl, rfl, m5, rfl, rfl, fun _ hb => by cases hb⟩

theorem keeps_rowGone {z : State} (r : Retirement) (s : State) (h : Keeps z s) : Keeps z (rowGone r s) := by
  unfold rowGone
  try dsimp only
  repeat' (first
      | with_reducible assumption | with_reducible apply keeps_settleEngines | with_reducible apply keeps_decideRetire | with_reducible apply keeps_ite
      | intro _)

theorem keeps_remapRow {z : State} (r : Retirement) (s : State) (h : Keeps z s) : Keeps z (remapRow r s) := by
  unfold remapRow
  try dsimp only
  repeat' (first
      | with_reducible assumption | with_reducible apply keeps_finishRetire | with_reducible apply keeps_rowGone
      | fail_if_no_progress (with_reducible refine Keeps.upd ?_ (h15 := fun hh => by simpa [relOk, relSized, upd_length, List.length_map, List.length_mapIdx] using hh))
      | with_reducible apply keeps_ite | intro _)

theorem keeps_settleRetirements {z : State} (s : State) (h : Keeps z s) : Keeps z (settleRetirements s) :=
  keeps_settleLanes _ (keeps_settleRound _ (keeps_settleIdle _ h))

theorem keeps_retireNow {z : State} (r : Retirement) (s : State) (h : Keeps z s) : Keeps z (retireNow r s) := by
  unfold retireNow
  try dsimp only
  repeat' (first
      | with_reducible assumption | with_reducible apply keeps_decideRetire | with_reducible apply keeps_remapRow | with_reducible apply keeps_retireSar
      | with_reducible apply keeps_retireMac | with_reducible apply keeps_swapLane | with_reducible apply keeps_updField
      | with_reducible apply keeps_settleLanes | with_reducible apply keeps_settleIdle
      | (show fieldSized _; (repeat' split) <;> simp_all [fieldSized, upd_length]) | with_reducible apply keeps_ite | split | intro _)

theorem keeps_applyRepairLog {z : State} (s : State) (h : Keeps z s) : Keeps z (applyRepairLog s) := by
  unfold applyRepairLog
  try dsimp only
  repeat' (first
      | with_reducible assumption | with_reducible apply keeps_retireNow | with_reducible apply keeps_forEach
      | fail_if_no_progress (with_reducible refine Keeps.upd ?_ (h15 := fun hh => by simpa [relOk, relSized, upd_length, List.length_map, List.length_mapIdx] using hh))
      | split | intro _)

/-! ### Boot.lean -/

theorem keeps_execSupplyWarning {z : State} (i : Nat) (v : F32) (held : Nat) (s : State) (h : Keeps z s) : KeepsNext z (execSupplyWarning i v held s) := by
  unfold execSupplyWarning
  try dsimp only
  repeat' (first
      | with_reducible assumption | with_reducible apply kn_next | with_reducible apply keeps_qualified | with_reducible apply keeps_postMergeWith
      | fail_if_no_progress (with_reducible refine Keeps.upd ?_) | with_reducible apply kn_ite | with_reducible apply keeps_ite | split | intro _)

theorem keeps_execSupplyWarningRelease {z : State} (i : Nat) (v : F32) (held : Nat) (s : State) (h : Keeps z s) : KeepsNext z (execSupplyWarningRelease i v held s) := by
  unfold execSupplyWarningRelease
  try dsimp only
  repeat' (first
      | with_reducible assumption | with_reducible apply kn_next | with_reducible apply keeps_qualified | fail_if_no_progress (with_reducible refine Keeps.upd ?_)
      | with_reducible apply kn_ite | with_reducible apply keeps_ite | split | intro _)

theorem keeps_voidLogWrite {z : State} (s : State) (h : Keeps z s) : Keeps z (voidLogWrite s) := by
  unfold voidLogWrite
  try dsimp only
  repeat' (first | with_reducible assumption | with_reducible apply keeps_draw | with_reducible apply keeps_otpSet | split)

theorem keeps_programSteps {z : State} (n target : Nat) (s : State) (h : Keeps z s) : Keeps z (programSteps n target s) :=
  keeps_foldl _ _ _ h (fun _ _ k => keeps_otpSet _ _ _ k)
theorem keeps_programTransition {z : State} (target : Nat) (s : State) (h : Keeps z s) : Keeps z (programTransition target s) :=
  keeps_programSteps _ _ _ h
theorem keeps_breakSeal {z : State} (target : Nat) (s : State) (h : Keeps z s) : Keeps z (breakSeal target s) :=
  keeps_ite (fun _ => keeps_updSage _ _ h (fun _ hc => hc)) (fun _ => h)

theorem keeps_voidTransition {z : State} (s : State) (h : Keeps z s) : Keeps z (voidTransition s) := by
  unfold voidTransition
  try dsimp only
  repeat' (first | with_reducible assumption | with_reducible apply keeps_programSteps | with_reducible apply keeps_draw | split)

theorem keeps_execBrownOut {z : State} (rail : Nat) (v : F32) (held : Nat) (s : State) (hk0 : Keeps z s) : KeepsNext z (execBrownOut rail v held s) := by
  unfold execBrownOut
  refine kn_ite (fun _ => kn_next hk0) (fun _ => ?_)
  have h0 := keeps_qualified 500 1000 held s hk0
  split
  rename_i ok s0 e
  rw [e] at h0
  refine kn_ite (fun _ => kn_next h0) (fun _ => ?_)
  extract_lets +onlyGivenNames lost q s1
  have h1 : Keeps z s1 := keeps_startReset _ _ (keeps_voidTransition _ (keeps_voidLogWrite _ (Keeps.upd h0)))
  clear_value s1
  refine kn_next ?_
  split
  · exact Keeps.upd h1 (h9 := fun _ => ⟨by rfl, by rfl, by rfl, by rfl⟩)
  · exact h1

theorem keeps_pinReset {z : State} (cause : Byte) (low : Nat) (s : State) (h : Keeps z s) : Keeps z (pinReset cause low s) := by
  unfold pinReset
  try dsimp only
  repeat' (first
      | with_reducible assumption | with_reducible apply keeps_qualified | with_reducible apply keeps_startReset | with_reducible apply keeps_ite | split | intro _)

theorem keeps_execPorst {z : State} (low : Nat) (s : State) (h : Keeps z s) : KeepsNext z (execPorst low s) := by
  unfold execPorst
  try dsimp only
  repeat' (first
      | with_reducible assumption | with_reducible apply kn_next | with_reducible apply keeps_pinReset | with_reducible apply kn_ite | with_reducible apply keeps_ite
      | split | intro _)

theorem keeps_execWarmrst {z : State} (low : Nat) (s : State) (h : Keeps z s) : KeepsNext z (execWarmrst low s) := by
  unfold execWarmrst
  try dsimp only
  repeat' (first
      | with_reducible assumption | with_reducible apply kn_next | with_reducible apply keeps_pinReset | with_reducible apply kn_ite | with_reducible apply keeps_ite
      | split | intro _)

theorem keeps_execThermal {z : State} (tj : F32) (held : Nat) (s : State) (h : Keeps z s) : KeepsNext z (execThermal tj held s) := by
  unfold execThermal
  try dsimp only
  repeat' (first
      | with_reducible assumption | with_reducible apply kn_next | with_reducible apply keeps_startReset | with_reducible apply kn_ite
      | with_reducible apply keeps_ite | split | intro _)

theorem keeps_execWatchdog {z : State} (s : State) (hk0 : Keeps z s) : KeepsNext z (execWatchdog s) := by
  unfold execWatchdog
  try dsimp only
  repeat' (first | with_reducible assumption | with_reducible apply kn_next | with_reducible apply keeps_startReset | with_reducible apply keeps_ite | intro _)

theorem keeps_execLockstep {z : State} (s : State) (hk0 : Keeps z s) : KeepsNext z (execLockstep s) := by
  unfold execLockstep
  try dsimp only
  repeat' (first | with_reducible assumption | with_reducible apply kn_next | with_reducible apply keeps_startReset | with_reducible apply keeps_ite | intro _)

theorem keeps_execResetDelayExpiry {z : State} (s : State) (hk0 : Keeps z s) : KeepsNext z (execResetDelayExpiry s) := by
  unfold execResetDelayExpiry
  try dsimp only
  repeat' (first
      | with_reducible assumption
      | fail_if_no_progress (with_reducible refine Keeps.upd ?_) | with_reducible apply kn_next | with_reducible apply keeps_startReset | with_reducible apply keeps_advanceTo
      | with_reducible apply keeps_updSage | (intro c hc; first | exact sageSized_of (x := c) (by rfl) (by rfl) (by rfl) hc | exact sageSized_of (x := sageOpen c) (by rfl) (by rfl) (by rfl) (sageSized_open hc)) | with_reducible apply keeps_ite | split | intro _ | with_reducible apply kn_ite)

theorem keeps_execResetRelease {z : State} (bootsel : Nat) (rails : List F32) (held : Nat) (porstN warmrstN : Bool) (clear : Nat) (s : State) (h : Keeps z s) : KeepsNext z (execResetRelease bootsel rails held porstN warmrstN clear s) := by
  unfold execResetRelease
  try dsimp only
  repeat' (first
      | with_reducible assumption | with_reducible apply kn_next | with_reducible apply keeps_qualified | with_reducible apply keeps_applyRepairLog
      | fail_if_no_progress (with_reducible refine Keeps.upd ?_ (h1 := fun hh => by first | exact hh | ((repeat' split) <;> simp_all [timeSized, upd_length, List.length_map, List.length_mapIdx, memWrite_wf, memWriteBytes_wf, memClear_wf])))
      | with_reducible apply kn_ite | with_reducible apply keeps_ite | split | intro _)

theorem keeps_bootField {z : State} (s : State) (h : Keeps z s) : Keeps z (bootField s) := by
  unfold bootField
  try dsimp only
  repeat' (first
      | with_reducible assumption
      | fail_if_no_progress (with_reducible refine Keeps.upd ?_) | with_reducible apply keeps_updField | (show fieldSized _; (repeat' split) <;> simp_all [fieldSized, upd_length]) | split
      | intro _ | with_reducible apply keeps_ite)

theorem keeps_execWipeDone {z : State} (fails : List (Nat × Nat)) (selftest : Option Nat) (s : State) (hk0 : Keeps z s) : KeepsNext z (execWipeDone fails selftest s) := by
  unfold execWipeDone
  try dsimp only
  repeat' (first
      | with_reducible assumption
      | with_reducible apply keeps_bootField | with_reducible apply keeps_postUnposted
      | with_reducible apply keeps_foldl_fst
      | with_reducible apply keeps_foldl_snd | with_reducible apply kn_next | with_reducible apply kn_ite | with_reducible apply keeps_advanceTo
      | with_reducible apply keeps_retireNow | with_reducible apply keeps_startRelock | with_reducible apply keeps_updPll | with_reducible apply keeps_forEach
      | with_reducible apply keeps_foldl | fail_if_no_progress (with_reducible refine Keeps.upd ?_) | split | intro _ | with_reducible apply keeps_ite)

theorem keeps_bootEth {z : State} (i : Nat) (s : State) (h : Keeps z s) : Keeps z (bootEth i s) := by
  unfold bootEth
  try dsimp only
  repeat' (first
      | with_reducible assumption
      | fail_if_no_progress (with_reducible refine Keeps.upd ?_ (h2 := fun hh => by simpa [upd_length, List.length_map, List.length_mapIdx] using hh))
      | with_reducible apply keeps_ite | intro _)

theorem keeps_execCommandPortOpen {z : State} (s : State) (hk0 : Keeps z s) : KeepsNext z (execCommandPortOpen s) := by
  unfold execCommandPortOpen
  try dsimp only
  repeat' (first
      | with_reducible assumption | with_reducible apply kn_next | with_reducible apply kn_ite | with_reducible apply keeps_bootField
      | with_reducible apply keeps_advanceTo | with_reducible apply keeps_bootEth | fail_if_no_progress (with_reducible refine Keeps.upd ?_) | split | intro _ | with_reducible apply keeps_ite)

theorem keeps_bootParams {z : State} (s : State) (h : Keeps z s) : Keeps z (bootParams s) := by
  unfold bootParams
  try dsimp only
  repeat' (first | with_reducible assumption | with_reducible apply keeps_commitBlock | with_reducible apply keeps_post | split)

theorem keeps_finishBoot {z : State} (image : Option (U32 × U16)) (s : State) (h : Keeps z s) : Keeps z (finishBoot image s) := by
  unfold finishBoot
  extract_lets +onlyGivenNames kept fail q1 q2 s0 s1 s2 safe s3 q3 q4 q5 s4 s5
  extract_lets +onlyGivenNames old s6 s7 s8
  have h0 : Keeps z s0 := Keeps.upd h (h11 := fun hh => ⟨hh.1, rfl⟩)
  clear_value s0
  have h1 : Keeps z s1 := keeps_bootParams _ (keeps_forEach _ _ _ h0 (fun _ _ k => keeps_bootEth _ _ k))
  clear_value s1
  clear_value fail
  have h2 : Keeps z s2 := by
    simp only [s2]
    split
    · exact keeps_post _ _ _ _ (keeps_safetyActs _ _ _ _ h1)
    · exact h1
  clear_value s2
  have h3 : Keeps z s3 := by
    simp only [s3]
    split
    · exact h2
    · exact keeps_post _ _ _ _ h2
  clear_value s3
  have h4 : Keeps z s4 := by
    simp only [s4, q3, q4, q5]
    refine keeps_ite (fun _ => ?_) (fun _ => ?_)
    · exact keeps_updBoth _ _ (Keeps.upd h3 (h9 := fun hh => by simpa [safeSized] using hh))
    · exact Keeps.upd h3 (h7 := fun hh => by simpa [pwmSized] using hh)
  clear_value s4
  have h5 : Keeps z s5 := keeps_setDev _ _ _ h4
  clear_value s5
  have h6 : Keeps z s6 := by
    simp only [s6]
    split
    · split
      · exact keeps_post _ _ _ _ (keeps_raiseCounter _ _ _ h5)
      · exact h5
    · exact h5
  clear_value s6
  have h7 : Keeps z s7 := keeps_post _ _ _ _ h6
  clear_value s7
  have h8 : Keeps z s8 := by
    simp only [s8]
    split
    · exact keeps_post _ _ _ _ h7
    · exact h7
  clear_value s8
  exact keeps_sagePostLog _ (Keeps.upd h8 (h17 := fun hh => hh))

theorem keeps_execBootComplete {z : State} (s : State) (hk0 : Keeps z s) : KeepsNext z (execBootComplete s) := by
  unfold execBootComplete
  try dsimp only
  repeat' (first
      | with_reducible assumption | with_reducible apply kn_next | with_reducible apply kn_ite | with_reducible apply keeps_finishBoot
      | with_reducible apply keeps_advanceTo | with_reducible apply keeps_post | split | intro _)

theorem keeps_execImageStart {z : State} (s : State) (hk0 : Keeps z s) : KeepsNext z (execImageStart s) := by
  unfold execImageStart
  try dsimp only
  repeat' (first | with_reducible assumption | with_reducible apply kn_next | with_reducible apply keeps_finishBoot | split)

theorem keeps_imageAck {z : State} (ip : U32) (port : U16) (off : U32) (st : U16) (s : State) (h : Keeps z s) : Keeps z (imageAck ip port off st s) := by
  unfold imageAck
  try dsimp only
  repeat' (first | with_reducible assumption | with_reducible apply keeps_ethSend | with_reducible apply keeps_ite | split | intro _)

theorem keeps_decryptImage {z : State} (s : State) (b : Bytes) (h : Keeps z s) : Keeps z (decryptImage s b) :=
  keeps_ite (fun _ => Keeps.upd h (h11 := fun hh => ⟨hh.1, memWriteBytes_wf _ _ _ hh.2⟩)) (fun _ => h)

theorem keeps_execImgVerifyDone {z : State} (s : State) (hk0 : Keeps z s) : KeepsNext z (execImgVerifyDone s) := by
  unfold execImgVerifyDone
  split
  · exact kn_next hk0
  · rename_i v hv
    extract_lets s1 h verdict ver pay st x0 x1 d x2 s2
    have h1 : Keeps z s1 := keeps_advanceTo _ _ hk0
    have h2 : Keeps z s2 := by
      simp only [s2, x0, x1, x2, d]
      clear_value verdict s1
      split
      · exact keeps_post _ _ _ _ (Keeps.upd h1 (h11 := fun hh => ⟨hh.1, by rfl⟩))
      · exact Keeps.upd (keeps_decryptImage _ _ h1)
    clear_value s2
    refine kn_next ?_
    split
    · exact keeps_imageAck _ _ _ _ _ h2
    · exact keeps_endLong _ _ _ _ _ h2

theorem keeps_execImageDatagram {z : State} (tag : Option Nat) (ip : U32) (port : U16) (b : Bytes) (s00 : State) (h : Keeps z s00) : KeepsNext z (execImageDatagram tag ip port b s00) := by
  unfold execImageDatagram
  try dsimp only
  repeat' (first
      | with_reducible assumption | with_reducible apply kn_next | with_reducible apply keeps_ethTake | with_reducible apply keeps_imageAck
      | fail_if_no_progress (with_reducible refine Keeps.upd ?_ (h11 := fun hh => by first | exact hh | ((repeat' split) <;> simp_all [capOk, capSized, upd_length, List.length_map, List.length_mapIdx, memWrite_wf, memWriteBytes_wf, memClear_wf])))
      | with_reducible apply kn_ite | with_reducible apply keeps_ite | split | intro _)

theorem keeps_imgVerifyRun {z : State} (s : State) (r : Req) (hk0 : Keeps z s) : KeepsCard z (imgVerifyRun s r) := by
  unfold imgVerifyRun
  try dsimp only
  repeat' (first
      | with_reducible assumption | exact trivial | with_reducible apply kc_long | fail_if_no_progress (with_reducible refine Keeps.upd ?_)
      | with_reducible apply kc_ite | split | intro _)

theorem keeps_execImgVerify {z : State} (via : Transport) (s : State) (hk0 : Keeps z s) : KeepsNext z (execImgVerify via s) := by
  unfold execImgVerify
  try dsimp only
  repeat' (first | with_reducible assumption | with_reducible apply kn_next | with_reducible apply keeps_runCard | with_reducible apply keeps_imgVerifyRun)

/-! ### Rel.lean -/

theorem keeps_updRel {z : State} (f : Rel → Rel) (s : State) (h : Keeps z s) (hf : ∀ c, relOk c → relOk (f c)) (hg : ∀ c, (f c).otp = c.otp) : Keeps z (updRel f s) := by
  unfold updRel
  exact Keeps.upd h (h15 := hf _) (h16 := fun _ => by rw [hg]; exact fusesIn_refl _)

theorem keeps_dropRx {z : State} (p e : Nat) (s : State) (h : Keeps z s) : Keeps z (dropRx p e s) := by
  unfold dropRx
  try dsimp only
  repeat' (first | with_reducible assumption | with_reducible apply keeps_canWrite | with_reducible apply keeps_updCan | with_reducible apply keeps_ite | split | intro _)

theorem keeps_dropTx {z : State} (p e : Nat) (s : State) (h : Keeps z s) : Keeps z (dropTx p e s) := by
  unfold dropTx
  try dsimp only
  repeat' (first | with_reducible assumption | with_reducible apply keeps_updCan | with_reducible apply keeps_txOutcome | with_reducible apply keeps_ite | intro _)

theorem copies_upd {l : List (List (BitVec 96))} {c i : Nat} {v : BitVec 96} (h : ∀ x ∈ l, x.length = 10) {x : List (BitVec 96)} (hx : x ∈ upd l c (fun k => upd k i (fun _ => v))) : x.length = 10 := by
  obtain ⟨j, hj, rfl⟩ := List.mem_iff_getElem.1 hx
  have hj' : j < l.length := by simpa [upd_length] using hj
  rw [upd_getElem _ _ _ _ _ hj']
  split
  · rw [upd_length]; exact h _ (List.getElem_mem hj')
  · exact h _ (List.getElem_mem hj')

theorem keeps_eccReaction {z : State} (m w : Nat) (use : WordUse) (s : State) (h : Keeps z s) : Keeps z (eccReaction m w use s) := by
  unfold eccReaction
  try dsimp only
  repeat' (first
      | with_reducible assumption | with_reducible apply keeps_forcedShutdown | with_reducible apply keeps_unloadGraph | with_reducible apply keeps_stopAssigned
      | with_reducible apply keeps_dropTx | with_reducible apply keeps_dropRx | with_reducible apply keeps_startReset | with_reducible apply keeps_drawBytes
      | with_reducible apply keeps_safetyActs | with_reducible apply keeps_updRel
      | (refine keeps_updSage _ _ ?_ (fun c hc => ⟨by simp [upd_length, hc.1], fun l hl => copies_upd hc.2.1 hl, hc.2.2⟩))
      | (show relOk _; assumption) | (show Rel.otp _ = Rel.otp _; rfl)
      | fail_if_no_progress (with_reducible refine Keeps.upd ?_ (h1 := fun hh => hh) (h6 := fun hh => by first | exact hh | ((repeat' split) <;> simp_all [fltOk, fltSized, upd_length, List.length_map, List.length_mapIdx, memWrite_wf, memWriteBytes_wf, memClear_wf])) (h8 := fun hh => by first | exact hh | ((repeat' split) <;> simp_all [loopOk, loopSized, upd_length, List.length_map, List.length_mapIdx, memWrite_wf, memWriteBytes_wf, memClear_wf])) (h11 := fun hh => by first | exact hh | ((repeat' split) <;> simp_all [capOk, capSized, upd_length, List.length_map, List.length_mapIdx, memWrite_wf, memWriteBytes_wf, memClear_wf])))
      | with_reducible apply keeps_ite | split | intro _)

theorem keeps_retireSageRow {z : State} (m row reason : Nat) (s : State) (h : Keeps z s) : Keeps z (retireSageRow m row reason s) := by
  unfold retireSageRow
  try dsimp only
  repeat' (first
      | with_reducible assumption | with_reducible apply keeps_sagePost | with_reducible apply keeps_updRel | with_reducible apply keeps_otpProgram
      | (show relOk _; (repeat' split) <;> simp_all [relOk, relSized, upd_length, memWrite_wf, memWriteBytes_wf, memClear_wf]) | (show Rel.otp _ = Rel.otp _; rfl)
      | with_reducible apply keeps_ite | split | intro _)

theorem keeps_scrubCount {z : State} (m : Nat) (s : State) (h : Keeps z s) : Keeps z (scrubCount m s) := by
  unfold scrubCount
  try dsimp only
  repeat' (first
      | with_reducible assumption | with_reducible apply keeps_updRel
      | (show relOk _; (repeat' split) <;> simp_all [relOk, relSized, upd_length, memWrite_wf, memWriteBytes_wf, memClear_wf]) | (show Rel.otp _ = Rel.otp _; rfl)
      | with_reducible apply keeps_ite | split | intro _)

theorem keeps_noteRow {z : State} (m row : Nat) (s : State) (h : Keeps z s) : Keeps z (noteRow m row s) :=
  keeps_updRel _ _ h (fun _ hc => hc) (fun _ => rfl)

theorem keeps_noteUse {z : State} (m row : Nat) (use : WordUse) (s : State) (h : Keeps z s) : Keeps z (noteUse m row use s) := by
  unfold noteUse
  try dsimp only
  repeat' (first
      | with_reducible assumption | with_reducible apply keeps_updRel | with_reducible apply keeps_eccReaction | with_reducible apply keeps_retireSageRow | with_reducible apply keeps_noteRow
      | (show relOk _; (repeat' split) <;> simp_all [relOk, relSized]) | (show Rel.otp _ = Rel.otp _; rfl)
      | with_reducible apply keeps_ite | split | intro _)

theorem keeps_sageWordBad {z : State} (m w bits : Nat) (use : WordUse) (s : State) (h : Keeps z s) : Keeps z (sageWordBad m w bits use s) := by
  unfold sageWordBad
  try dsimp only
  repeat' (first
      | with_reducible assumption | with_reducible apply keeps_updRel | with_reducible apply keeps_eccReaction | with_reducible apply keeps_retireSageRow | with_reducible apply keeps_noteRow
      | (show relOk _; (repeat' split) <;> simp_all [relOk, relSized]) | (show Rel.otp _ = Rel.otp _; rfl)
      | with_reducible apply keeps_ite | split | intro _)

theorem keeps_execScrubRead {z : State} (m w bits : Nat) (use : WordUse) (scrub : Bool) (s : State) (hk0 : Keeps z s) : KeepsNext z (execScrubRead m w bits use scrub s) := by
  unfold execScrubRead
  try dsimp only
  repeat' (first
      | with_reducible assumption | with_reducible apply kn_next | with_reducible apply kn_ite | with_reducible apply keeps_scrubCount | with_reducible apply keeps_noteUse
      | with_reducible apply keeps_noteRow | with_reducible apply keeps_sageWordBad
      | with_reducible apply keeps_updRel | with_reducible apply keeps_postMerge
      | with_reducible apply keeps_decideRetire | with_reducible apply keeps_post | with_reducible apply keeps_eccReaction
      | (show relOk _; (repeat' split) <;> simp_all [relOk, relSized, upd_length, memWrite_wf, memWriteBytes_wf, memClear_wf]) | (show Rel.otp _ = Rel.otp _; rfl) | with_reducible apply keeps_ite | split
      | intro _)

theorem keeps_execRowRemap {z : State} (s : State) (hk0 : Keeps z s) : KeepsNext z (execRowRemap s) := by
  unfold execRowRemap
  try dsimp only
  repeat' (first | with_reducible assumption | with_reducible apply kn_next | with_reducible apply keeps_remapRow | split)

theorem keeps_execRepairLogWriteDone {z : State} (s : State) (hk0 : Keeps z s) : KeepsNext z (execRepairLogWriteDone s) := by
  unfold execRepairLogWriteDone
  try dsimp only
  repeat' (first
      | with_reducible assumption | with_reducible apply kn_next | with_reducible apply keeps_otpSet | with_reducible apply keeps_updRel
      | with_reducible apply keeps_post | (show relOk _; (repeat' split) <;> simp_all [relOk, relSized, upd_length, memWrite_wf, memWriteBytes_wf, memClear_wf])
      | (show Rel.otp _ = Rel.otp _; rfl) | with_reducible apply keeps_ite | split | intro _)

theorem keeps_spareStatusRun {z : State} (s : State) (r : Req) (hk0 : Keeps z s) : KeepsCard z (spareStatusRun s r) := by
  unfold spareStatusRun
  try dsimp only
  repeat' (first | with_reducible assumption | exact trivial | with_reducible apply kc_done | with_reducible apply kc_ite | intro _)

theorem keeps_execSpareStatus {z : State} (via : Transport) (s : State) (hk0 : Keeps z s) : KeepsNext z (execSpareStatus via s) := by
  unfold execSpareStatus
  try dsimp only
  repeat' (first
      | with_reducible assumption | with_reducible apply kn_next | with_reducible apply keeps_runCard | with_reducible apply keeps_graphCard
      | with_reducible apply keeps_spareStatusRun)

theorem keeps_repairRestoreRun {z : State} (s : State) (r : Req) (hk0 : Keeps z s) : KeepsCard z (repairRestoreRun s r) := by
  unfold repairRestoreRun
  extract_lets +onlyGivenNames p n es busy
  refine kc_ite (fun _ => trivial) (fun _ => kc_ite (fun _ => trivial) (fun _ => ?_))
  extract_lets one
  split
  rename_i s1 ap al he
  have h1 : Keeps z s1 := by
    have := keeps_foldl_fst (s0 := z) es one (s, 0, 0) hk0 (fun a b k => by
      simp only [one]
      split
      · exact keeps_decideRetire _ _ k
      · exact k)
    rw [he] at this
    exact this
  exact keeps_settleRetirements _ h1

theorem keeps_execRepairRestore {z : State} (via : Transport) (s : State) (hk0 : Keeps z s) : KeepsNext z (execRepairRestore via s) := by
  unfold execRepairRestore
  try dsimp only
  repeat' (first | with_reducible assumption | with_reducible apply kn_next | with_reducible apply keeps_runCard | with_reducible apply keeps_repairRestoreRun)

theorem keeps_otpWriteRun {z : State} (s : State) (r : Req) (hk0 : Keeps z s) : KeepsCard z (otpWriteRun s r) := by
  unfold otpWriteRun
  try dsimp only
  repeat' (first
      | with_reducible assumption
      | fail_if_no_progress (with_reducible refine Keeps.upd ?_) | exact trivial | with_reducible apply kc_long | with_reducible apply keeps_updRel
      | (show relOk _; (repeat' split) <;> simp_all [relOk, relSized, upd_length, memWrite_wf, memWriteBytes_wf, memClear_wf]) | (show Rel.otp _ = Rel.otp _; rfl)
      | with_reducible apply kc_ite | split | intro _ | with_reducible apply keeps_ite)

theorem keeps_execOtpWriteBlock {z : State} (via : Transport) (s : State) (hk0 : Keeps z s) : KeepsNext z (execOtpWriteBlock via s) := by
  unfold execOtpWriteBlock
  try dsimp only
  repeat' (first | with_reducible assumption | with_reducible apply kn_next | with_reducible apply keeps_runCard | with_reducible apply keeps_otpWriteRun)

theorem keeps_failedSlot {z : State} (b g : Nat) (crc : Bytes → U32) (s : State) (h : Keeps z s) : Keeps z (failedSlot b g crc s) := by
  unfold failedSlot
  try dsimp only
  repeat' (first | with_reducible assumption | with_reducible apply keeps_drawBytes | with_reducible apply keeps_otpProgram)

theorem keeps_otpEvent {z : State} (src g : Nat) (st : U16) (s : State) (h : Keeps z s) : Keeps z (otpEvent src g st s) := by
  unfold otpEvent
  try dsimp only
  repeat' (first | with_reducible assumption | with_reducible apply keeps_post)

theorem keeps_execOtpProgramDone {z : State} (ok : Bool) (s : State) (hk0 : Keeps z s) : KeepsNext z (execOtpProgramDone ok s) := by
  unfold execOtpProgramDone
  try dsimp only
  repeat' (first
      | with_reducible assumption
      | with_reducible apply keeps_scheduleReset
      | with_reducible apply keeps_forEach
      | with_reducible apply keeps_closePortSessions | with_reducible apply kn_next | with_reducible apply keeps_updRel | with_reducible apply keeps_otpProgram
      | with_reducible apply keeps_failedSlot | with_reducible apply keeps_endLong | with_reducible apply keeps_otpEvent
      | with_reducible apply keeps_raiseCounter | with_reducible apply keeps_paramsEvent | with_reducible apply keeps_commitBlock
      | with_reducible apply keeps_programTransition | with_reducible apply keeps_breakSeal
      | (show relOk _; (repeat' split) <;> simp_all [relOk, relSized, upd_length, memWrite_wf, memWriteBytes_wf, memClear_wf]) | (show Rel.otp _ = Rel.otp _; rfl)
      | fail_if_no_progress (with_reducible refine Keeps.upd ?_) | with_reducible apply keeps_ite | split | intro _ | with_reducible apply kn_ite)

theorem keeps_otpReadRun {z : State} (s : State) (r : Req) (hk0 : Keeps z s) : KeepsCard z (otpReadRun s r) := by
  unfold otpReadRun
  try dsimp only
  repeat' (first | with_reducible assumption | exact trivial | with_reducible apply kc_done | with_reducible apply kc_ite | split | intro _)

theorem keeps_execOtpReadBlock {z : State} (via : Transport) (s : State) (hk0 : Keeps z s) : KeepsNext z (execOtpReadBlock via s) := by
  unfold execOtpReadBlock
  try dsimp only
  repeat' (first
      | with_reducible assumption | with_reducible apply kn_next | with_reducible apply keeps_runCard | with_reducible apply keeps_graphCard
      | with_reducible apply keeps_otpReadRun)

theorem keeps_lcQueryRun {z : State} (s : State) (r : Req) (hk0 : Keeps z s) : KeepsCard z (lcQueryRun s r) := by
  unfold lcQueryRun
  try dsimp only
  repeat' (first
      | with_reducible assumption | exact trivial | with_reducible apply kc_done | with_reducible apply keeps_drawBytes | with_reducible apply keeps_updRel
      | (show relOk _; (repeat' split) <;> simp_all [relOk, relSized, upd_length, memWrite_wf, memWriteBytes_wf, memClear_wf]) | (show Rel.otp _ = Rel.otp _; rfl)
      | with_reducible apply kc_ite | intro _)

theorem keeps_execLcTransitionQuery {z : State} (via : Transport) (s : State) (hk0 : Keeps z s) : KeepsNext z (execLcTransitionQuery via s) := by
  unfold execLcTransitionQuery
  try dsimp only
  repeat' (first
      | with_reducible assumption | with_reducible apply kn_next | with_reducible apply keeps_runCard | with_reducible apply keeps_graphCard
      | with_reducible apply keeps_lcQueryRun)

theorem keeps_lcRun {z : State} (s : State) (r : Req) (hk0 : Keeps z s) : KeepsCard z (lcRun s r) := by
  unfold lcRun
  try dsimp only
  repeat' (first
      | with_reducible assumption
      | fail_if_no_progress (with_reducible refine Keeps.upd ?_) | exact trivial | with_reducible apply kc_failed | with_reducible apply kc_long | with_reducible apply keeps_updRel
      | (show relOk _; (repeat' split) <;> simp_all [relOk, relSized, upd_length, memWrite_wf, memWriteBytes_wf, memClear_wf]) | (show Rel.otp _ = Rel.otp _; rfl)
      | with_reducible apply kc_ite | split | intro _ | with_reducible apply keeps_ite)

theorem keeps_execLcTransition {z : State} (via : Transport) (s : State) (hk0 : Keeps z s) : KeepsNext z (execLcTransition via s) := by
  unfold execLcTransition
  try dsimp only
  repeat' (first
      | with_reducible assumption | with_reducible apply kn_next | with_reducible apply keeps_runCard | with_reducible apply keeps_graphCard
      | with_reducible apply keeps_lcRun)

theorem keeps_execLcNonceExpiry {z : State} (s : State) (hk0 : Keeps z s) : KeepsNext z (execLcNonceExpiry s) := by
  unfold execLcNonceExpiry
  try dsimp only
  repeat' (first
      | with_reducible assumption | with_reducible apply kn_next | with_reducible apply keeps_updRel | with_reducible apply keeps_advanceTo
      | (show relOk _; (repeat' split) <;> simp_all [relOk, relSized, upd_length, memWrite_wf, memWriteBytes_wf, memClear_wf]) | (show Rel.otp _ = Rel.otp _; rfl) | split
      | intro _)

theorem keeps_execJtagInstruction {z : State} (trstN : Bool) (i : JtagInstr) (code : Byte) (s : State) (hk0 : Keeps z s) : KeepsNext z (execJtagInstruction trstN i code s) := by
  unfold execJtagInstruction
  try dsimp only
  repeat' (first
      | with_reducible assumption | with_reducible apply kn_next | with_reducible apply keeps_updRel | with_reducible apply keeps_postMergeWith
      | (show relOk _; (repeat' split) <;> simp_all [relOk, relSized, upd_length, memWrite_wf, memWriteBytes_wf, memClear_wf]) | (show Rel.otp _ = Rel.otp _; rfl)
      | with_reducible apply keeps_ite | intro _)

/-! ### Bulk.lean -/

theorem keeps_swapImage {z : State} (s : State) (h : Keeps z s) : Keeps z (swapImage s) := by
  unfold swapImage
  try dsimp only
  repeat' (first
      | with_reducible assumption
      | fail_if_no_progress (with_reducible refine Keeps.upd ?_ (h17 := fun hh => by (repeat' split) <;> simp_all [imgOk, upd_length, List.length_map, List.length_mapIdx, memWrite_wf, memWriteBytes_wf, memClear_wf]))
      | split)

theorem keeps_execPublicationSwap {z : State} (s : State) (hk0 : Keeps z s) : KeepsNext z (execPublicationSwap s) := by
  unfold execPublicationSwap
  try dsimp only
  repeat' (first | with_reducible assumption | with_reducible apply kn_next | with_reducible apply keeps_swapImage)

theorem assemble_wf (s : State) (t : Nat) : memWf (assemble s t) = true := by
  unfold assemble
  exact foldWrites_wf (imageParts s t) (fun p => p.1) (fun p => p.2) [] rfl
theorem keeps_execPublicationInstant {z : State} (volts : List U32) (tj : U32) (plls : List (F32 × F32)) (s : State) (hk0 : Keeps z s) : KeepsNext z (execPublicationInstant volts tj plls s) := by
  unfold execPublicationInstant
  refine kn_ite (fun _ => kn_next hk0) (fun _ => ?_)
  extract_lets +onlyGivenNames t r
  clear_value r
  extract_lets +onlyGivenNames s1 q1 q2 s2 q3 s3 s4
  have h1 : Keeps z s1 := keeps_advanceTo _ _ (keeps_swapImage _ hk0)
  clear_value s1
  have h2 : Keeps z s2 := keeps_closeWindows _ _ (Keeps.upd h1 (h4 := fun hh => by simpa [clkSized] using hh))
  clear_value s2
  have hw : ∀ b, some (assemble s2 r) = some b → memWf b = true := fun b hb => by
    rw [← Option.some.inj hb]; exact assemble_wf s2 r
  have h3 : Keeps z s3 := Keeps.upd h2 (h17 := fun hh => ⟨hh.1, hh.2.1, hw⟩)
  clear_value s3
  have h4 : Keeps z s4 := keeps_forEach _ _ _ h3 (fun _ _ k => keeps_updStage _ _ _ k)
  clear_value s4
  exact kn_next (keeps_updSage _ _ h4 (fun _ h => h))

theorem keeps_bulkRefused {z : State} (a : Nat) (reason : Nat) (s : State) (h : Keeps z s) : Keeps z (bulkRefused a reason s) := by
  unfold bulkRefused
  try dsimp only
  repeat' (first | with_reducible assumption | with_reducible apply keeps_postMergeWith | fail_if_no_progress (with_reducible refine Keeps.upd ?_))

theorem keeps_bulkUnmapped {z : State} (a : Nat) (write : Bool) (s : State) (h : Keeps z s) : Keeps z (bulkUnmapped a write s) := by
  unfold bulkUnmapped
  try dsimp only
  repeat' (first | with_reducible assumption | with_reducible apply keeps_post)

theorem keeps_setOut {z : State} (b : Bytes) (clocked : Nat) (s : State) (h : Keeps z s) : Keeps z (setOut b clocked s) := by
  unfold setOut
  try dsimp only
  repeat' (first | with_reducible assumption | fail_if_no_progress (with_reducible refine Keeps.upd ?_))

theorem keeps_takeLatch {z : State} (s : State) (h : Keeps z s) : Keeps z (takeLatch s) := by
  unfold takeLatch
  try dsimp only
  repeat' (first
      | with_reducible assumption
      | fail_if_no_progress (with_reducible refine Keeps.upd ?_ (h17 := fun hh => by (repeat' split) <;> simp_all [imgOk, upd_length, List.length_map, List.length_mapIdx, memWrite_wf, memWriteBytes_wf, memClear_wf]))
      | with_reducible apply keeps_ite | intro _)

theorem keeps_bulkRead {z : State} (hold : Bool) (a n clocked : Nat) (s : State) (h : Keeps z s) : Keeps z (bulkRead hold a n clocked s) := by
  unfold bulkRead
  try dsimp only
  repeat' (first
      | with_reducible assumption | with_reducible apply keeps_bulkUnmapped | with_reducible apply keeps_setOut | with_reducible apply keeps_takeLatch
      | with_reducible apply keeps_drawBytes | fail_if_no_progress (with_reducible refine Keeps.upd ?_) | with_reducible apply keeps_ite | split | intro _)

theorem keeps_execBulkRead {z : State} (addr : U32) (len clocked : Nat) (s : State) (hk0 : Keeps z s) : KeepsNext z (execBulkRead addr len clocked s) := by
  unfold execBulkRead
  try dsimp only
  repeat' (first | with_reducible assumption | with_reducible apply kn_next | with_reducible apply keeps_bulkRead)

theorem keeps_execBulkReadHold {z : State} (addr : U32) (len clocked : Nat) (s : State) (hk0 : Keeps z s) : KeepsNext z (execBulkReadHold addr len clocked s) := by
  unfold execBulkReadHold
  try dsimp only
  repeat' (first | with_reducible assumption | with_reducible apply kn_next | with_reducible apply keeps_bulkRead)

theorem keeps_execBulkRelease {z : State} (s : State) (hk0 : Keeps z s) : KeepsNext z (execBulkRelease s) := by
  unfold execBulkRelease
  try dsimp only
  repeat' (first
      | with_reducible assumption | with_reducible apply kn_next | with_reducible apply kn_ite | with_reducible apply keeps_setOut | fail_if_no_progress (with_reducible refine Keeps.upd ?_)
      | intro _ | with_reducible apply keeps_ite | split)

theorem keeps_execBulkStatus {z : State} (clocked : Nat) (s : State) (hk0 : Keeps z s) : KeepsNext z (execBulkStatus clocked s) := by
  unfold execBulkStatus
  try dsimp only
  repeat' (first
      | with_reducible assumption | with_reducible apply kn_next | with_reducible apply kn_ite | with_reducible apply keeps_setOut
      | fail_if_no_progress (with_reducible refine Keeps.upd ?_) | intro _)

theorem keeps_execHoldLatchExpiry {z : State} (s : State) (hk0 : Keeps z s) : KeepsNext z (execHoldLatchExpiry s) := by
  unfold execHoldLatchExpiry
  try dsimp only
  repeat' (first
      | with_reducible assumption | with_reducible apply kn_next | with_reducible apply kn_ite | with_reducible apply keeps_advanceTo
      | fail_if_no_progress (with_reducible refine Keeps.upd ?_) | intro _)

theorem keeps_execBulkBadCommand {z : State} (code compl : Byte) (addr : U32) (len : U16) (s : State) (hk0 : Keeps z s) : KeepsNext z (execBulkBadCommand code compl addr len s) := by
  unfold execBulkBadCommand
  try dsimp only
  repeat' (first
      | with_reducible assumption | with_reducible apply kn_next | with_reducible apply kn_ite | with_reducible apply keeps_draw
      | with_reducible apply keeps_setOut | with_reducible apply keeps_bulkRefused | split | intro _)

theorem keeps_writeByte {z : State} (w : BulkWindow) (off : Nat) (x : Byte) (s : State) (h : Keeps z s) : Keeps z (writeByte w off x s).1 := by
  unfold writeByte
  try dsimp only
  repeat' (first
      | with_reducible assumption | with_reducible apply keeps_post | with_reducible apply keeps_unloadGraph
      | fail_if_no_progress (with_reducible refine Keeps.upd ?_ (h6 := fun hh => by first | exact hh | ((repeat' split) <;> simp_all [fltOk, fltSized, upd_length, List.length_map, List.length_mapIdx, memWrite_wf, memWriteBytes_wf, memClear_wf])) (h8 := fun hh => by first | exact hh | ((repeat' split) <;> simp_all [loopOk, loopSized, upd_length, List.length_map, List.length_mapIdx, memWrite_wf, memWriteBytes_wf, memClear_wf])) (h11 := fun hh => by first | exact hh | ((repeat' split) <;> simp_all [capOk, capSized, upd_length, List.length_map, List.length_mapIdx, memWrite_wf, memWriteBytes_wf, memClear_wf])) (h13 := fun hh => by first | exact hh | ((repeat' split) <;> simp_all [canOk, upd_length, List.length_map, List.length_mapIdx, memWrite_wf, memWriteBytes_wf, memClear_wf])))
      | split)
theorem keeps_writeByte_eq {z : State} {w : BulkWindow} {off : Nat} {x : Byte} {s : State} {xx : Option Nat} {tt : State} (hee : writeByte w off x s = (tt, xx)) (h : Keeps z s) : Keeps z tt := by
  have := keeps_writeByte w off x s h
  rw [hee] at this; exact this

theorem keeps_writeBytes {z : State} (w : BulkWindow) (off : Nat) : ∀ (b : Bytes) (i : Nat) (s : State) (r : Option (Nat × Nat)), Keeps z s → Keeps z (writeBytes w off i b s r).1 := by
  intro b
  induction b with
  | nil => intro i s r h; exact h
  | cons x t ih =>
    intro i s r h
    unfold writeBytes
    split
    rename_i s1 why he
    refine ih _ _ _ ?_
    split at he
    · exact keeps_writeByte_eq he h
    · cases he; exact h

theorem keeps_execBulkWrite {z : State} (addr : U32) (len : Nat) (data : Bytes) (s : State) (hk0 : Keeps z s) : KeepsNext z (execBulkWrite addr len data s) := by
  unfold execBulkWrite
  refine kn_ite (fun _ => kn_next hk0) (fun _ => ?_)
  extract_lets +onlyGivenNames a b
  split
  · exact kn_next (keeps_bulkUnmapped _ _ _ (keeps_setOut _ _ _ hk0))
  · rename_i w hw
    split
    rename_i s1 r he
    extract_lets +onlyGivenNames q s2
    have h1 : Keeps z s1 := by
      have := keeps_writeBytes (z := z) w (a - windowBase w) b 0 _ none (keeps_setOut [] 0 s hk0)
      rw [he] at this
      exact this
    have h2 : Keeps z s2 := by
      simp only [s2]
      split
      · exact Keeps.upd h1
      · exact h1
    clear_value s2
    refine kn_next ?_
    split
    · exact keeps_bulkRefused _ _ _ h2
    · exact h2

/-! ### Idle.lean -/

theorem keeps_idleCycle {z : State} (s : State) (h : Keeps z s) : Keeps z (idleCycle s) := by
  unfold idleCycle
  try dsimp only
  repeat' (first
      | with_reducible assumption
      | fail_if_no_progress (with_reducible refine Keeps.upd ?_ (h1 := fun hh => by simpa [timeSized, upd_length, List.length_map, List.length_mapIdx] using hh))
      | with_reducible apply keeps_ite | split | intro _)

end Sys2Proof
end

