-- ==== Sys2Proof/WellFormed.lean ====
section
/-! DEFINITION. Which commands are well formed: every index within the part's resources and every value within
the range the spec gives it. The machine itself is total on ill-formed commands. -/

namespace Sys2Proof

/-- A transport names one of the two Ethernet ports (R67). -/
def Transport.wf : Transport → Bool
  | .cmd => true
  | .udp p _ => decide (p < 2)

/-- The VID of a received frame's tag has 12 bits (R459). -/
def vidOk (tag : Option Nat) : Bool := tag.all (fun v => decide (v < 4096))

/-- A lane delivers at most 64 octets for a frame and flips bits of its 32 (R436). -/
def LaneErr.wf (e : LaneErr) : Bool := decide (e.flips.length ≤ 32) && decide (e.len ≤ 64)

/-- The bits of the eight Sage inputs, as many of each (R506). -/
def streamsOk (l : List (List Bool)) : Bool := decide (l.length = 8) && l.all (fun b => decide (b.length = (l.headD []).length))

/-- The bounds of a command's operands. -/
def Instr.WellFormed (i : Instr) : Bool :=
  match i with
  | .requestWrite _ bytes => decide (bytes.head? = some 0xC5#8)
  | .replyRead _ _ => true
  | .statusPoll _ _ => true
  | .unknownTransaction _ first _ => decide (first ≠ 0xC5#8 ∧ first ≠ 0x3A#8 ∧ first ≠ 0x00#8)
  | .udpDatagram port tag _ _ _ => decide (port < 2) && vidOk tag
  | .sessionIdleTimeout port _ => decide (port < 2)
  | .sysIdentify via => via.wf
  | .sysStatus via => via.wf
  | .sysReset via => via.wf
  | .resetDelayExpiry => true
  | .sysSetState via _ => via.wf
  | .sysPublishRate via => via.wf
  | .evtRead via => via.wf
  | .evtAck via => via.wf
  | .evtMask via => via.wf
  | .bulkRead _ len clocked => decide (len < 4096) && decide (clocked < 65536)
  | .bulkReadHold _ len clocked => decide (len < 4096) && decide (clocked < 65536)
  | .bulkRelease => true
  | .bulkStatus clocked => decide (clocked < 65536)
  | .bulkWrite _ len _ => decide (len < 4096)
  | .bulkBadCommand _ _ _ _ => true
  | .holdLatchExpiry => true
  | .supplyWarning i _ _ => decide (i < 6)
  | .brownOut rail _ _ => decide (rail < 5)
  | .porst _ => true
  | .warmrst _ => true
  | .thermal _ _ => true
  | .watchdog => true
  | .lockstep => true
  | .resetRelease bootsel rails _ _ _ _ => decide (bootsel < 4) && decide (rails.length = 5)
  | .wipeDone fails selftest => fails.all (fun f => decide (f.1 < 108) && decide (f.2 < 512)) && selftest.all (fun k => decide (k < 4))
  | .bootComplete => true
  | .imageStart => true
  | .imageDatagram tag _ _ _ => vidOk tag
  | .imgVerify via => via.wf
  | .imgVerifyDone => true
  | .driverSupplyRelease => true
  | .prechargeStart => true
  | .prechargeEnd h _ => decide (h < 8)
  | .clkSetPlan via => via.wf
  | .clkHop via => via.wf
  | .clkStoreSearch via => via.wf
  | .clkOutput via => via.wf
  | .adpllLock i _ _ _ _ _ _ => decide (i < 2)
  | .outputRelease i out => decide (i < 2) && decide (out < 10)
  | .lossOfLock i reason => decide (i < 2) && decide (reason < 3)
  | .relockStart i => decide (i < 2)
  | .relockAttemptTimeout i => decide (i < 2)
  | .roundStart _ _ => true
  | .slotOutput k _ => decide (k < 80)
  | .sarConversion core p _ _ => decide (core < 4) && decide (p < 5)
  | .bsStuck ch _ => decide (ch < 48)
  | .refSettled => true
  | .slowPathSettled ch => decide (ch < 80)
  | .filterSettled ch => decide (ch < 80)
  | .snsRefEnable via => via.wf
  | .snsConfigChannel via => via.wf
  | .snsConfigSequence via => via.wf
  | .snsConfigAccumulator via => via.wf
  | .snsConfigTracker via => via.wf
  | .snsCalZero via => via.wf
  | .snsCalSpan via => via.wf
  | .calDone ch => decide (ch < 80)
  | .snsAccRead via => via.wf
  | .accLatch => true
  | .snsUrgent via => via.wf
  | .urgentReply => true
  | .fltLoad via => via.wf
  | .fltAssign via => via.wf
  | .fltQueryDelay via => via.wf
  | .graphLoad via => via.wf
  | .graphLoadDone => true
  | .graphStart via => via.wf
  | .graphStartModeOnly via => via.wf
  | .graphStop via => via.wf
  | .graphWriteParam via => via.wf
  | .dillConfig via => via.wf
  | .graphStats via => via.wf
  | .paramQueueTake => true
  | .stageStartBegin n => decide (n < 8)
  | .timersStart n => decide (n < 8)
  | .timerReload t => decide (t < 24)
  | .refreshPeriod h => decide (h < 8)
  | .reloadNotice n => decide (n < 8)
  | .instanceDispatch e => decide (e < 18)
  | .instanceEnd e => decide (e < 18)
  | .completionPost e => decide (e < 18)
  | .successorDecrement e => decide (e < 18)
  | .schedStall e => decide (e < 18)
  | .correctionDone n => decide (n < 8)
  | .commit n => decide (n < 8)
  | .handoverDone n => decide (n < 8)
  | .commitDeadline n => decide (n < 8)
  | .suspensionEnd n => decide (n < 8)
  | .checkerDwellExpiry e => decide (16 ≤ e) && decide (e < 18)
  | .checkerReplayDone e _ => decide (16 ≤ e) && decide (e < 18)
  | .kernelEnd u => decide (u < 2)
  | .feedTimeout u => decide (u < 2)
  | .pllLockQualified u _ => decide (u < 2)
  | .rideExit u => decide (u < 2)
  | .decayEnd u => decide (u < 2)
  | .blackStartEnd u => decide (u < 2)
  | .bsStalled u => decide (u < 2)
  | .closePermit u => decide (u < 2)
  | .islandDetected u => decide (u < 2)
  | .fuShutdownTimeout u => decide (u < 2)
  | .restorationStep u => decide (u < 2)
  | .fuConfigPort via => via.wf
  | .fuConfigLaw via => via.wf
  | .fuConfigLimits via => via.wf
  | .fuConfigSync via => via.wf
  | .fuMode via => via.wf
  | .fuSetpoint via => via.wf
  | .fuSchedule via => via.wf
  | .pwmTimer via => via.wf
  | .pwmTimerQuery via => via.wf
  | .pwmChannelChannel via => via.wf
  | .pwmChannelGroup via => via.wf
  | .pwmChannelQuery via => via.wf
  | .pwmEnable via => via.wf
  | .pwmDisable via => via.wf
  | .pwmWriteGroup via => via.wf
  | .compareMatch c => decide (c < 96)
  | .deadTimeExpiry c => decide (c < 96)
  | .minpwExpiry c => decide (c < 96)
  | .startTimeout n => decide (n < 8)
  | .stageShutdownEnd n => decide (n < 8)
  | .readbackSample c _ => decide (c < 96)
  | .cuSpareDwellExpiry u => decide (u < 104)
  | .cuMismatch k => decide (96 ≤ k) && decide (k < 104)
  | .fltTrip c => decide (c < 80)
  | .fltHigh c => decide (c < 80)
  | .cmpTrip k zone => decide (k < 32) && decide (zone < 5)
  | .cmpRelease k => decide (k < 32)
  | .blankingEnd k => decide (k < 32)
  | .focTrip k bits => decide (k < 48) && decide (bits.length ≤ 64)
  | .hbMonitorTrip h _ _ => decide (h < 8)
  | .hbStatusWord h hsVds lsVds _ => decide (h < 8) && decide (hsVds < 3) && decide (lsVds < 3)
  | .bootstrapUndervoltage h _ => decide (h < 8)
  | .driverSupply _ level _ _ => decide (level < 3)
  | .protConfigComparator via => via.wf
  | .protConfigFastDetector via => via.wf
  | .protConfigFltInput via => via.wf
  | .protConfigHalfBridge via => via.wf
  | .protConfigLeg via => via.wf
  | .protSelftest via => via.wf
  | .protSelftestDone _ _ _ _ _ => true
  | .protStatus via => via.wf
  | .safetyCycle => true
  | .safetyDebounceExpiry ch n => decide (ch < 2) && decide (n < 16)
  | .testPulseWindowEnd => true
  | .estopDiscrepancy => true
  | .contactorMismatch k => decide (k < 4)
  | .permitWithdraw ch k => decide (ch < 2) && decide (k < 4)
  | .gridTrip e => decide (e < 8)
  | .reconnectionWaitEnd => true
  | .safetyLockstepMismatch => true
  | .channelDisagreement _ => true
  | .safetyClock => true
  | .paramRecheck _ => true
  | .testDue => true
  | .safeLoadParams via => via.wf
  | .safeGetCheck via => via.wf
  | .safeCommission via => via.wf
  | .safeStatus via => via.wf
  | .safeAckFault via => via.wf
  | .downlinkSend => true
  | .downlinkReceive lane spare => lane.wf && spare.wf
  | .uplinkSend _ _ currents _ => decide (currents.length = 8)
  | .uplinkReceive lane spare => lane.wf && spare.wf
  | .fieldLinkTimeout => true
  | .linkLost => true
  | .vfield kind _ _ _ => decide (kind < 4)
  | .inputDebounceExpiry n => decide (n < 16)
  | .freqGateEnd n => decide (n < 16)
  | .pullinEnd o => decide (o < 8)
  | .outputFault o kind _ _ _ => decide (o < 8) && decide (kind < 4)
  | .outputShutdownEnd o => decide (o < 8)
  | .fioConfigInput via => via.wf
  | .fioConfigOutput via => via.wf
  | .fioConfigLink via => via.wf
  | .fioWrite via => via.wf
  | .fioRead via => via.wf
  | .timeSetDomain via => via.wf
  | .timeFeedOffset via => via.wf
  | .timeSelectActive via => via.wf
  | .timeRead via => via.wf
  | .holdoverEntry d => decide (d < 4)
  | .holdoverLimitExpiry d => decide (d < 4)
  | .switchComplete => true
  | .ptpSync i tag _ _ _ => decide (i < 3) && vidOk tag
  | .ptpAnnounce i tag gm _ _ _ _ _ _ => decide (i < 3) && vidOk tag && decide (gm.length = 8)
  | .ptpPdelay i tag what _ _ _ => decide (i < 3) && vidOk tag && decide (what < 3)
  | .ptpSyncInterval i _ => decide (i < 3)
  | .ethLink port _ speed => decide (port < 2) && decide (speed < 4)
  | .arpRequest port tag _ senderMac _ => decide (port < 2) && vidOk tag && decide (senderMac.length = 6)
  | .icmpEcho port tag _ _ => decide (port < 2) && vidOk tag
  | .ethConfigPort via => via.wf
  | .ethConfigInstance via => via.wf
  | .ethSessionOpen via => via.wf
  | .canConfig via => via.wf
  | .canSend via => via.wf
  | .canCancel via => via.wf
  | .canRxAck via => via.wf
  | .canRecover via => via.wf
  | .canTap via => via.wf
  | .canFrameReceived p f _ => decide (p < 6) && !f.id.getLsbD 31 && decide (f.dlc < 16) && (f.fdf || decide (f.dlc ≤ 8))
  | .canTxAttempt p => decide (p < 6)
  | .canTxOutcome p result _ => decide (p < 6) && decide (result < 3)
  | .canBusError p code _ => decide (p < 6) && decide (1 ≤ code) && decide (code ≤ 5)
  | .canRecoveryDone p => decide (p < 6)
  | .canShutdownEnd p => decide (p < 6)
  | .canTapTimeout k => decide (k < 256)
  | .capConfig via => via.wf
  | .capArmStop via => via.wf
  | .capArmArm via => via.wf
  | .capArmForce via => via.wf
  | .capStatus via => via.wf
  | .capTrigbusCalSet via => via.wf
  | .capTrigbusCalRespond via => via.wf
  | .capTrigbusCalInitiate via => via.wf
  | .calPulseResponse => true
  | .trigbusCalDone _ _ _ _ => true
  | .captureRowWrite => true
  | .trigBusEdge line _ => decide (line < 4)
  | .trigDriveEnd line => decide (line < 4)
  | .streamBlockSend => true
  | .captureShutdownEnd => true
  | .sageSupplyWarn _ _ _ bits => streamsOk bits
  | .sageReset _ _ _ => true
  | .sageResetRelease _ _ => true
  | .sageMeteringStart => true
  | .sageClockLost => true
  | .sageClockRestored => true
  | .sageWindowEnd bits => streamsOk bits
  | .pulseEmit => true
  | .pulseEnd => true
  | .retentionEntry => true
  | .retentionProbe _ => true
  | .sageTiePoint _ => true
  | .checkpointDue => true
  | .signingDone => true
  | .sageRead via => via.wf
  | .sageSignedRecord via => via.wf
  | .sageSetTime via => via.wf
  | .sageEventLog via => via.wf
  | .sageRestore via => via.wf
  | .sageRestoreDone => true
  | .sageSealQuery via => via.wf
  | .sageSealLoadParameters via => via.wf
  | .sageSealSeal via => via.wf
  | .sageSealBreak via => via.wf
  | .sageSealPulseEnable via => via.wf
  | .sageSealPulseDisable via => via.wf
  | .sealNonceExpiry => true
  | .publicationInstant volts _ plls => volts.length == 5 && plls.length == 2
  | .publicationSwap => true
  | .scrubRead m w bits _ _ => decide (m < 112) && decide (w < 8192) && decide (bits < 4)
  | .rowRemap => true
  | .repairLogWriteDone => true
  | .otpWriteBlock via => via.wf
  | .otpProgramDone _ => true
  | .otpReadBlock via => via.wf
  | .lcTransitionQuery via => via.wf
  | .lcTransition via => via.wf
  | .lcNonceExpiry => true
  | .spareStatus via => via.wf
  | .repairRestore via => via.wf
  | .jtagInstruction _ _ _ => true
  | .unassignedOpcode via => via.wf
  | .vendorTestOpcode via => via.wf
  | .commandPortOpen => true
  | .bsStuckClear ch => decide (ch < 48)
  | .focRelease k bits => decide (k < 48) && decide (bits.length ≤ 64)
  | .fieldInputEdge n _ _ => decide (n < 16)
  | .supplyWarningRelease i _ _ => decide (i < 6)
  | .sageSupplyWarnRelease _ _ => true
  | .tiePointsStopped => true
  | .announceReceiptTimeout i => decide (i < 3)
  | .ethFrameDiscarded port _ tag _ _ => decide (port < 2) && vidOk tag
  | .canRejoin p _ => decide (p < 6)

end Sys2Proof
end

