-- ==== Sys2Proof/Tests/Slice0.lean ====
section
/-! SUPPORT. Witnesses that the hypotheses of the obligations can be met together, well-formedness
refusals, and a few results worked out by hand from the spec's own examples. -/

set_option Elab.async false
set_option linter.unusedVariables false

namespace Sys2Proof.Tests
open Sys2Proof Machine Claims

/-- A request packet on the command port with its CRC. -/
def pkt (op : Nat) (p : Bytes) : Bytes := [0, 0] ++ n16 op ++ [7, 0] ++ n16 p.length ++ p
def mk (op : Nat) (p : Bytes) : Req :=
  { via := .cmd, seq := 0, srcIp := 0, srcPort := 0, refusal := none, bytes := pkt op p ++ le32 (crc32c (pkt op p)) }
/-- The part after BOOT in a device state. -/
def part (d : DevState) : State := { State.reset with sys := { State.reset.sys with dev := d, phase := .finished }, cmd := { State.reset.cmd with isOpen := true } }
/-- A request waits at the command port. -/
def ask (s : State) (op : Nat) (p : Bytes) : State := { s with cmd := { s.cmd with requests := [mk op p] } }
def devel (d : DevState) : State := { part d with sys := { (part d).sys with lifecycle := .develop } }
def oneEntry : LogEntry := { seq := 5, time := 0, code := 0x0107#16, source := 0, rept := 0, data := zeros 8, read := true }
/-- An entry read, and three events lost. -/
def ackState : State := { part .config with evt := { evt0 with entries := [oneEntry], nextSeq := 6, lost := 3 } }
def fullLog : State := { part .config with evt := { evt0 with entries := List.replicate 4095 oneEntry } }
def oneReply : QReply := { bytes := zeros 12, completion := false, reserved := false }
def withReply : State := { part .config with cmd := { (part .config).cmd with replies := [oneReply] } }
/-- Four requests wait, and with them the reserved reply or not. -/
def busyPort : State := { part .config with cmd := { (part .config).cmd with requests := List.replicate 4 (mk 0x0100 []) } }
def busyReserved : State := { busyPort with cmd := { busyPort.cmd with replies := [{ oneReply with reserved := true }] } }
def ethOn (s : State) : State :=
  { s with eth := upd s.eth 0 (fun e => { e with enable := true, link := true }), time := { s.time with onFallback := List.replicate 5 false } }
def sess1 : Session := { port := 0, sid := 7, ip := 1, key := zeros 32, high := 4, window := [4], txSeq := 0, lastReq := 0, owing := 0 }
def sessState : State := ethOn { part .config with udp := { (part .config).udp with sessions := [sess1] } }
/-- An authenticated request of session 0 on ETH0. -/
def mkOpen (p : Bytes) : Req :=
  let b : Bytes := [0xC5, 4] ++ n16 0x0311 ++ [7, 0] ++ n16 p.length ++ p
  { via := .udp 0 0, seq := 1, srcIp := 1, srcPort := 9, refusal := none, bytes := b ++ le32 (crc32c b) }
/-- Settings block 0 with a key of one set bit. -/
def slot0 : Bytes := 1 :: zeros 251 ++ le32 (crc32c (1 :: zeros 251))
def withKey (s : State) : State := { s with rel := { s.rel with otp := memWriteBytes [] 0 slot0 } }
def inBoot (p : BootPhase) (bs : Nat) : State := { State.reset with sys := { State.reset.sys with phase := p, bootsel := bs } }
def stagedHead : Bytes := le32 0x4D495A4F#32 ++ n32 0 ++ n16 1 ++ n16 0 ++ [9]
def stagedPkt : Bytes := stagedHead ++ le32 (crc32c (stagedHead.take 13))
def pllSt (i : Nat) (k : PllState) (s : State) : State := updPll i (fun x => { x with state := k }) s
def prof0 : Profile := { plan := plan0, band := 3, fine := 4 }
/-- A configured part with both ADPLLs locked. -/
def locked2 : State := pllSt 1 .locked (pllSt 0 .locked (part .config))
def relk : Relock := { start := 0, hop := false, request := none, attempt := 1 }
def td (d : Nat) (src : TdSource) (k : TdState) (s : State) : State := updTd d (fun x => { x with source := src, state := k }) s
def swch : Switch := { fromTd := 0, delta := 1000, slew := 100, start := 0 }
def inst (i role : Nat) (s : State) : State := ethOn (updInst i (fun y => { y with enable := true, port := 0, role := role }) s)
def clocked (s : State) : State := { s with time := { s.time with onFallback := List.replicate 5 false } }
/-- CAN port p runs. -/
def canOn (p : Nat) (f : CanPort → CanPort) : State := clocked (updCan p (fun x => f { x with bus := .active, fd := true }) (part .config))
def frame0 : CanFrame := { id := 5, fdf := true, brs := false, esi := false, dlc := 1, data := [9] }
def fld : CanField := { start := 0, length := 8, format := 0, scale := 0x3F800000#32, offset := 0 }
def senseOn : State := clocked { part .config with sense := { (part .config).sense with refState := 2 } }
def cal (ch : Nat) (span : Bool) (sum : Rat) : CalRun := { ch := ch, span := span, slow := false, n := 1, applied := 0x3F800000#32, started := true, left := 0, sum := sum, sumSq := 0 }
def withCal (k : CalRun) : State := { senseOn with sense := { senseOn.sense with cals := [k] } }
def waits (op : Nat) (p : Bytes) : SenseWait := { req := mk op p, left := 0, conv := 1, drop := 2, at0 := 5, round := 3 }
def zeroTap : FltSet := { typ := 0, taps := 1, base := 0 }
def asg (ch : Nat) (set : Option Nat) (n m : Nat) : Assign := { ch := ch, first := 79, gang := 1, set := set, n := n, m := m, r := 1 }
def withSet : State := { part .config with flt := { (part .config).flt with setsReq := upd (part .config).flt.setsReq 63 (fun _ => some zeroTap) } }
/-- An image of stage 7 with two COPY nodes: node 0 copies channel 79 into signal 0 and starts node 1, which copies signal 0
into signal 1; one parameter word. -/
def image7 : Bytes :=
  [0x4F, 0x5A, 0x47, 0x52, 1, 0, 7, 1, 23, 1, 0, 0] ++ n32 0 ++ n16 2 ++ n16 1 ++ n16 1 ++ [0, 0] ++ n16 0 ++ n16 0 ++ n32 64 ++ n32 128 ++ n32 132 ++ n32 0 ++ n32 0 ++ n32 0 ++ n32 0
  ++ n16 0 ++ n16 0 ++ n32 9
  ++ ([0, 1, 0x11, 0x01] ++ n16 0 ++ [0, 0] ++ n16 0 ++ [0, 1] ++ n16 3 ++ n16 0xFFFF ++ n16 (2 * 8192 + 79) ++ n16 0 ++ List.replicate 12 0xFF)
  ++ ([0, 1, 0x11, 0x01] ++ n16 0 ++ [0, 0] ++ n16 0 ++ [0, 0] ++ n16 3 ++ n16 0xFFFF ++ n16 0 ++ n16 1 ++ List.replicate 12 0xFF)
  ++ n16 1 ++ n16 0 ++ n32 0
def gmem : List Host.Cell := memWriteBytes [] 0 image7
def graph7 : Graph := { readHeader gmem 0 136 with phys := [0] }
/-- A locked, referenced part with the image in graph memory and timer 23 given to stage 7. -/
def island (d : DevState) : State :=
  let s := clocked (pllSt 1 .locked (pllSt 0 .locked (part d)))
  updFch 79 (fun x => { x with settled := true })
    (updTimer 23 (fun x => { x with stage := some 7, period := 800000 }) { s with loop := { s.loop with mem := gmem }, sense := { s.sense with refState := 2 } })
/-- Stage 7 with its graph loaded, in a state. -/
def stage7 (k : StageState) (f : Stage → Stage) (s : State) : State := updStage 7 (fun x => f { x with st := k, graph := some graph7 }) s
def loading (s : State) (l : GraphLoad) : State := { s with loop := { s.loop with loads := [l] } }
/-- PWM0 is a lead of stage 7. -/
def chan0 (s : State) : State :=
  updGroup 0 (fun x => { x with timer := some 23 }) (updChan 0 (fun x => { x with role := 1 }) s)
def released (s : State) : State := { s with gov := { s.gov with release := [{ unit := 1, opcode := 0, tag := 0, owed := none }] } }
def fullQ (s : State) : State := { s with loop := { s.loop with pqueue := List.replicate 8 { stage := 0, words := 0 } } }
def fr0 : Frame :=
  { index := 5, spec := true, round := 0, length := 50000, fixed := true, reload := 1000, cum := 0, preds := [], jac := [], corrected := false, complete := true, completeAt := 0
    tReload := 0, tRound := 0, rawSig := [], rawWords := [], samples := [], sig := [], words := [], ran := [], sets := [], pubs := [], feeds := [], exc := [], snap := { fu := [], can := [], stuck := 0, exc := 0 }
    snapR := none, mode := 0, setps := [], pars := none, again := false }
def in0 (k : InstState) : Inst :=
  { stage := 7, frame := 5, node := 0, counter := 1, st := k, home := 0, cost := 3, priv := false, pq := 0, level := 0, runs := true, effect := false, committed := false, dead := false, acts := [], excs := [] }
def compl : Completion := { stage := 7, frame := 5, node := 0, pos := 0, len := 1, at_ := 8 }
/-- Stage 7 runs on engine 0 with one open frame and these instances. -/
def running7 (l : List Inst) (f : Engine → Engine) : State :=
  let s := stage7 .enabled (fun x => { x with frames := [fr0] }) (island .run)
  updEngine 0 (fun x => f { x with stage := some 7 }) { s with loop := { s.loop with insts := l } }
def retire4 : Retirement := { cls := 4, index := 0, row := 0, reason := 0 }
theorem allOff_of (s : State) (l : List (Option Nat)) (h : l.all (fun o => match o with | none => true | some n => decide ((getStage s n).st = .off)) = true) : allOff s l := by
  intro n hn
  have := List.all_eq_true.mp h _ hn
  simpa using this
theorem opt_of {P : Nat → Prop} [DecidablePred P] (o : Option Nat) (h : (match o with | none => true | some n => decide (P n)) = true) : ∀ n, o = some n → P n := by
  intro n hn
  subst hn
  simpa using h
theorem opt_all {α : Type} {P : α → Prop} [DecidablePred P] (o : Option α) (h : o.all (fun a => decide (P a)) = true) : ∀ a, o = some a → P a := by
  intro a ha
  subst ha
  simpa using h
theorem list_of {P : Nat → Prop} [DecidablePred P] (l : List Nat) (f : Nat → Option Nat)
    (h : l.all (fun c => match f c with | none => true | some n => decide (P n)) = true) : ∀ c ∈ l, ∀ n, f c = some n → P n :=
  fun c hc => opt_of _ (List.all_eq_true.mp h c hc)
theorem all_of {α : Type} {P : α → Prop} [DecidablePred P] {l : List α} (h : l.all (fun a => decide (P a)) = true) : ∀ a ∈ l, P a :=
  fun a ha => of_decide_eq_true (List.all_eq_true.mp h a ha)
/-- Group 31 on timer 23 of stage 7 with two compare units. -/
def group31 (d : DevState) : State := updGroup 31 (fun x => { x with timer := some 23, units := [0, 1] }) (island d)
def fuOn (u : Nat) (f : FormingUnit → FormingUnit) (s : State) : State := updFu u (fun x => f { x with mode := .island, feeding := some 7, feedDiv := 1 }) s
def feed0 : FuFeed := { vals := List.replicate 8 0, tk := 2000000000, mode := 0, dom := 0 }
/-- A safety block of SF2 on DI0 and DI15, SF3 on DI1, contactor entry 3 on output 7 with feedback DI14. -/
def blk : Bytes :=
  le32 0x50535A4F#32 ++ n16 1 ++ n16 3 ++ n32 77 ++ [0, 15, 0, 1] ++ n16 10 ++ n16 10 ++ [1, 2] ++ n16 10 ++ zeros 12 ++ [7, 14, 3, 100] ++ n16 10 ++ [0xFF, 0]
  ++ n16 50 ++ n16 600 ++ le32 0x43660000#32 ++ [0, 1, 79, 0] ++ le32 0x3F800000#32 ++ le32 0x3F800000#32 ++ le32 0x3F800000#32 ++ zeros 184
def cont3 : Contactor := { k := 3, output := 7, input := 14, highClosed := true, delay := 100 }
/-- A part whose committed block is `blk`, with a change of the safety unit. -/
def safePart (d : DevState) (f : Safety → Safety) : State :=
  let s := island d
  { s with safe := f { s.safe with block := some blk, fresh := false } }
def fieldPart (d : DevState) (f : Field → Field) : State := updField f (island d)
def down0 : DownFrame :=
  { seq := 3, doCmd := 0, permProc := 0, permSorrel := 0, tp := 5, safeProc := false, safeSorrel := false, swap := false, record := none, begun := 100 }
def up0 : UpFrame :=
  { seq := 3, raw := 1, debounced := 1, chatter := 0, doApplied := 0, doFault := 0, tp := 0, tpMis := 0, status := 0, vField := 2400, edges := 0, sampled := 500, taken := 1
    counts := List.replicate 16 0, freqs := List.replicate 16 0, freqStats := List.replicate 16 0, currents := List.replicate 8 0, faultCodes := List.replicate 8 0, faultCurs := List.replicate 8 0
    pulling := 0, dieTemp := 0, spareErr := false, dieLost := false }
/-- An uplink frame `v` after `b` is on its way, with this mailbox; and the part when both channels and the link have taken it. -/
def upState (b v : UpFrame) (m : List FioRec) : State := fieldPart .run (fun x => { x with up := some v, newest := some b, linkUp := true, mailbox := m })
def takenUp (s : State) (v : UpFrame) (o : List Nat) : State :=
  { advanceTo (v.sampled + 3220) s with
    safe := { s.safe with test := { s.safe.test with seen := answeredFrame s v } }
    field := { s.field with owner := o, mailbox := [], up := none, newest := some v, lastUp := max s.time.raw (v.sampled + 3220), linkUp := true, linkLost := false, framesOk := s.field.framesOk + 1 } }
def upTaken (b v : UpFrame) (m : List FioRec) (o : List Nat) : State := takenUp (upState b v m) v o
def b0 : UpFrame := { up0 with seq := 2 }
theorem u16_join (v : U16) : v.extractLsb' 8 8 ++ v.extractLsb' 0 8 = v := by
  refine BitVec.eq_of_getLsbD_eq fun i hi => ?_
  rw [BitVec.getLsbD_append, BitVec.getLsbD_extractLsb', BitVec.getLsbD_extractLsb']
  by_cases h : i < 8
  · simp [h]
  · have : 8 + (i - 8) = i := by omega
    simp [h, this]; intro _; omega
theorem u32_join (v : U32) : v.extractLsb' 16 16 ++ v.extractLsb' 0 16 = v := by
  refine BitVec.eq_of_getLsbD_eq fun i hi => ?_
  rw [BitVec.getLsbD_append, BitVec.getLsbD_extractLsb', BitVec.getLsbD_extractLsb']
  by_cases h : i < 16
  · simp [h]
  · have : 16 + (i - 16) = i := by omega
    simp [h, this]; intro _; omega
theorem getD_app (a b : Bytes) (i : Nat) : (a ++ b).getD (a.length + i) 0 = b.getD i 0 := by
  simp [List.getD, List.getElem?_append_right]
theorem u32At_app (a : Bytes) (v : U32) : u32At (a ++ le32 v) a.length = v := by
  have k (i : Nat) : byteAt (a ++ le32 v) (a.length + i) = byteAt (le32 v) i := getD_app ..
  have k0 : byteAt (a ++ le32 v) a.length = byteAt (le32 v) 0 := k 0
  simp only [u32At, u16At, Nat.add_assoc, k, k0]
  exact (congrArg₂ (· ++ ·) (u16_join _) (u16_join _)).trans (u32_join v)
theorem pkt_length (op : Nat) (p : Bytes) : (pkt op p).length = 8 + p.length := by simp [pkt, n16, le16]; omega
theorem mk_opcode (op : Nat) (p : Bytes) : reqOpcode (mk op p) = BitVec.ofNat 16 op := u16_join _
theorem mk_length (op : Nat) (p : Bytes) (h : p.length ≤ 1024) : reqLength (mk op p) = p.length := by
  have : reqLength (mk op p) = (BitVec.ofNat 16 p.length).toNat := congrArg BitVec.toNat (u16_join _)
  rw [this, BitVec.toNat_ofNat]; omega
theorem mk_params (op : Nat) (p : Bytes) (h : p.length ≤ 1024) : reqParams (mk op p) = p := by
  have e : (mk op p).bytes.drop 8 = p ++ le32 (crc32c (pkt op p)) := rfl
  rw [reqParams, mk_length op p h, e, List.take_left']; rfl
/-- A request that `mk` builds passes the checks 1 to 4 of R55 at the command port. -/
theorem takes_mk (s : State) (op : Nat) (p : Bytes) (w : U16) (hw : BitVec.ofNat 16 op = w) (hp : p.length ≤ 1024) (ha : assigned w = true) (hc : opClass w ≠ 0x7F)
    (hs : w ≠ 0x0311#16)
    (hq : repliesHeld s + s.cmd.waiting.length < 16) (hr : (awaitsReply (ask s op p) .cmd || pairHeld (ask s op p) .cmd) = false) : Takes w .cmd (ask s op p) (mk op p) := by
  subst hw
  have hb : (mk op p).bytes = pkt op p ++ le32 (crc32c (pkt op p)) := rfl
  have hn : (mk op p).bytes.length = (pkt op p).length + 4 := by rw [hb]; simp [le32, le16]
  refine ⟨(if_neg (by simp [hr])).trans (if_pos hq), mk_opcode op p, ?_⟩
  have h1 : crc32c ((mk op p).bytes.take ((mk op p).bytes.length - 4)) = u32At (mk op p).bytes ((mk op p).bytes.length - 4) := by
    rw [hn, Nat.add_sub_cancel, hb, u32At_app, List.take_left']; rfl
  have h2 : ¬ (reqLength (mk op p) > 1024 ∨ (mk op p).bytes.length ≠ 12 + reqLength (mk op p)) := by
    rw [mk_length op p hp, hn, pkt_length]; omega
  have h3 : byteAt (mk op p).bytes 5 = 0 := rfl
  have h4 : reqFlags (mk op p) = 0 := rfl
  have h5 : reqAuth (mk op p) = false := by rw [reqAuth, h4]; rfl
  have h6 : (mk op p).refusal = none := rfl
  have h7 : (mk op p).via = .cmd := rfl
  simp [headerCheck, h1, h2, h3, h4, h5, h6, h7, hc, ha, hs, mk_opcode]
def term0 : CapTerm := { kind := 0, index := 0, code := 0, level := 0, level2 := 0 }
def conf0 : CapConf :=
  { mode := 1, stage := 7, nTraces := 2, dtChan := 0xFF, dec := 1, ring := 16, pre := 0, post := 0, trigOut := 0, port := 0, udpPort := 0, session := 0, terms := [term0] }
def capPart (d : DevState) (f : Capture → Capture) : State := updCap (fun x => f { x with conf := some conf0 }) (island d)
def blk0 : CapBlock := { epoch := 0, first := 0, tFirst := 0, factor := 1, rows := 0, flags := 0, trigRow := 0, trigOff := 0, trig := none }
def cal0 : TrigCal := { initiate := false, line := 0, identity := 0, reps := 16, count := 0, lastAt := 0, edge := none }
/-- One frame whose row is due, with one trace written. -/
def rowPart (st : CapState) (k : CapConf) : State :=
  capPart .run (fun x => { x with conf := some k, st := st, frames := [(5, 100)], writes := [(5, 0, 0, 0x3F800000#32)], block := some blk0, first := some 5 })
/-- One sample of each input: 256 bits, all of them ones. -/
def bits0 : List (List Bool) := List.replicate 8 (List.replicate 256 true)
/-- A Sage block within R511. -/
def sblk : Bytes :=
  [0, 50, 0, 0] ++ n32 1 ++ le32 0x3C23D70B#32 ++ le32 0x43660000#32 ++ le32 0x3F800000#32 ++ (List.replicate 8 (le32 0x3F800000#32)).flatten ++ zeros 76
def sagePart (f : Sage → Sage) : State := updSage (fun x => f { x with phase := .metering }) (island .config)
def sealOtp (crc : U32) : List Host.Cell := memWriteBytes [] 7936 (1 :: zeros 159 ++ (1 :: zeros 195) ++ le32 crc)
/-- The public key of the private key 1, and its signature of a message with the number 1, given its second half. -/
def keyOne : Bytes := beBytes 32 p256c.gx ++ beBytes 32 p256c.gy
def sigOne (s : Nat) : Bytes := beBytes 32 p256c.gx ++ beBytes 32 s
def job0 : SignJob := { checkpoint := true, host := zeros 32, trigger := 2, asked := false, body := some (zeros 192) }
def relPart (f : Rel → Rel) : State := updRel f (island .config)
/-- An authenticated request of session 7 on ETH0. -/
def mkSess (op : Nat) (p : Bytes) : Req :=
  let b : Bytes := [0xC5, 4] ++ n16 op ++ [7, 0] ++ n16 p.length ++ p
  { via := .udp 0 7, seq := 5, srcIp := 1, srcPort := 9, refusal := none, bytes := b ++ le32 (crc32c b) }
def sessAsk (op : Nat) (p : Bytes) : State := { sessState with udp := { sessState.udp with queue := [mkSess op p] } }

/-! ### The algorithms of R10, by the examples of their standards (FIPS 180-4, RFC 4493, the GCM submission, FIPS 186-5) -/

theorem test_sha256_abc : beNat (sha256 [0x61, 0x62, 0x63]) = 0xBA7816BF8F01CFEA414140DE5DAE2223B00361A396177A9CB410FF61F20015AD := by decide +kernel
theorem test_sha384_abc : beNat (sha384 [0x61, 0x62, 0x63]) =
    0xCB00753F45A35E8BB5A03D699AC65007272C32AB0EDED1631A8B605A43FF5BED8086072BA1E7CC2358BAECA134C825A7 := by decide +kernel
theorem test_cmac_of_nothing : beNat (aesCmac (beBytes 16 0x2B7E151628AED2A6ABF7158809CF4F3C) []) = 0xBB1D6929E95937287FA37D129B756746 := by decide +kernel
theorem test_gcm_zero_block : beNat (gcmText (zeros 32) (zeros 12) (zeros 16)) = 0xCEA7403D4D606B6E074EC5D3BAF39D18
    ∧ beNat (gcmTag (zeros 32) (zeros 12) [] (beBytes 16 0xCEA7403D4D606B6E074EC5D3BAF39D18)) = 0xD0D1C8A799996BF0265B98B5D48AB919 := by decide +kernel
theorem test_curves_have_their_order :
    ([p256c, p384c] : List Curve).all (fun c => ecMul c (c.n - 1) (some (c.gx, c.gy)) == some (c.gx, c.p - c.gy) && ecMul c c.n (some (c.gx, c.gy)) == none) = true := by
  decide +kernel
theorem test_signature_verifies_and_a_changed_hash_does_not :
    ecdsaOk p256c (ecPublic p256c 5) (sha256 []) (ecdsaSign p256c 5 7 (sha256 [])) = true
      ∧ ecdsaOk p256c (ecPublic p256c 5) (sha256 [0]) (ecdsaSign p256c 5 7 (sha256 [])) = false
      ∧ ecPublic p256c 5 ∈ ecKeysOf p256c (sha256 []) (ecdsaSign p256c 5 7 (sha256 [])) := by decide +kernel

/-! ### Well-formedness: for each check a command that it refuses, one past the bound, and the last one it lets pass -/

def wfFrame : CanFrame := { id := 0, fdf := false, brs := false, esi := false, dlc := 8, data := zeros 8 }
theorem test_wellFormed_refuses_transports :
    ([.sysIdentify (.udp 2 7), .sysStatus (.udp 2 7), .sysReset (.udp 2 7), .sysSetState (.udp 2 7) none, .sysPublishRate (.udp 2 7), .evtRead (.udp 2 7),
      .evtAck (.udp 2 7), .evtMask (.udp 2 7), .imgVerify (.udp 2 7), .clkSetPlan (.udp 2 7), .clkHop (.udp 2 7), .clkStoreSearch (.udp 2 7),
      .clkOutput (.udp 2 7), .snsRefEnable (.udp 2 7), .snsConfigChannel (.udp 2 7), .snsConfigSequence (.udp 2 7), .snsConfigAccumulator (.udp 2 7),
      .snsConfigTracker (.udp 2 7), .snsCalZero (.udp 2 7), .snsCalSpan (.udp 2 7), .snsAccRead (.udp 2 7), .snsUrgent (.udp 2 7), .fltLoad (.udp 2 7),
      .fltAssign (.udp 2 7), .fltQueryDelay (.udp 2 7), .graphLoad (.udp 2 7), .graphStart (.udp 2 7), .graphStartModeOnly (.udp 2 7), .graphStop (.udp 2 7),
      .graphWriteParam (.udp 2 7), .dillConfig (.udp 2 7), .graphStats (.udp 2 7), .fuConfigPort (.udp 2 7), .fuConfigLaw (.udp 2 7),
      .fuConfigLimits (.udp 2 7), .fuConfigSync (.udp 2 7), .fuMode (.udp 2 7), .fuSetpoint (.udp 2 7), .fuSchedule (.udp 2 7), .pwmTimer (.udp 2 7),
      .pwmTimerQuery (.udp 2 7), .pwmChannelChannel (.udp 2 7), .pwmChannelGroup (.udp 2 7), .pwmChannelQuery (.udp 2 7), .pwmEnable (.udp 2 7),
      .pwmDisable (.udp 2 7), .pwmWriteGroup (.udp 2 7), .protConfigComparator (.udp 2 7), .protConfigFastDetector (.udp 2 7),
      .protConfigFltInput (.udp 2 7), .protConfigHalfBridge (.udp 2 7), .protConfigLeg (.udp 2 7), .protSelftest (.udp 2 7), .protStatus (.udp 2 7),
      .safeLoadParams (.udp 2 7), .safeGetCheck (.udp 2 7), .safeCommission (.udp 2 7), .safeStatus (.udp 2 7), .safeAckFault (.udp 2 7),
      .fioConfigInput (.udp 2 7), .fioConfigOutput (.udp 2 7), .fioConfigLink (.udp 2 7), .fioWrite (.udp 2 7), .fioRead (.udp 2 7),
      .timeSetDomain (.udp 2 7), .timeFeedOffset (.udp 2 7), .timeSelectActive (.udp 2 7), .timeRead (.udp 2 7), .ethConfigPort (.udp 2 7),
      .ethConfigInstance (.udp 2 7), .ethSessionOpen (.udp 2 7), .canConfig (.udp 2 7), .canSend (.udp 2 7), .canCancel (.udp 2 7), .canRxAck (.udp 2 7),
      .canRecover (.udp 2 7), .canTap (.udp 2 7), .capConfig (.udp 2 7), .capArmStop (.udp 2 7), .capArmArm (.udp 2 7), .capArmForce (.udp 2 7),
      .capStatus (.udp 2 7), .capTrigbusCalSet (.udp 2 7), .capTrigbusCalRespond (.udp 2 7), .capTrigbusCalInitiate (.udp 2 7), .sageRead (.udp 2 7),
      .sageSignedRecord (.udp 2 7), .sageSetTime (.udp 2 7), .sageEventLog (.udp 2 7), .sageRestore (.udp 2 7), .sageSealQuery (.udp 2 7),
      .sageSealLoadParameters (.udp 2 7), .sageSealSeal (.udp 2 7), .sageSealBreak (.udp 2 7), .sageSealPulseEnable (.udp 2 7),
      .sageSealPulseDisable (.udp 2 7), .otpWriteBlock (.udp 2 7), .otpReadBlock (.udp 2 7), .lcTransitionQuery (.udp 2 7), .lcTransition (.udp 2 7),
      .spareStatus (.udp 2 7), .repairRestore (.udp 2 7), .unassignedOpcode (.udp 2 7), .vendorTestOpcode (.udp 2 7)] : List Instr).all (fun i => !i.WellFormed) = true := by decide +kernel
theorem test_wellFormed_passes_transports :
    ([.sysIdentify (.udp 1 7), .sysStatus (.udp 1 7), .sysReset (.udp 1 7), .sysSetState (.udp 1 7) none, .sysPublishRate (.udp 1 7), .evtRead (.udp 1 7),
      .evtAck (.udp 1 7), .evtMask (.udp 1 7), .imgVerify (.udp 1 7), .clkSetPlan (.udp 1 7), .clkHop (.udp 1 7), .clkStoreSearch (.udp 1 7),
      .clkOutput (.udp 1 7), .snsRefEnable (.udp 1 7), .snsConfigChannel (.udp 1 7), .snsConfigSequence (.udp 1 7), .snsConfigAccumulator (.udp 1 7),
      .snsConfigTracker (.udp 1 7), .snsCalZero (.udp 1 7), .snsCalSpan (.udp 1 7), .snsAccRead (.udp 1 7), .snsUrgent (.udp 1 7), .fltLoad (.udp 1 7),
      .fltAssign (.udp 1 7), .fltQueryDelay (.udp 1 7), .graphLoad (.udp 1 7), .graphStart (.udp 1 7), .graphStartModeOnly (.udp 1 7), .graphStop (.udp 1 7),
      .graphWriteParam (.udp 1 7), .dillConfig (.udp 1 7), .graphStats (.udp 1 7), .fuConfigPort (.udp 1 7), .fuConfigLaw (.udp 1 7),
      .fuConfigLimits (.udp 1 7), .fuConfigSync (.udp 1 7), .fuMode (.udp 1 7), .fuSetpoint (.udp 1 7), .fuSchedule (.udp 1 7), .pwmTimer (.udp 1 7),
      .pwmTimerQuery (.udp 1 7), .pwmChannelChannel (.udp 1 7), .pwmChannelGroup (.udp 1 7), .pwmChannelQuery (.udp 1 7), .pwmEnable (.udp 1 7),
      .pwmDisable (.udp 1 7), .pwmWriteGroup (.udp 1 7), .protConfigComparator (.udp 1 7), .protConfigFastDetector (.udp 1 7),
      .protConfigFltInput (.udp 1 7), .protConfigHalfBridge (.udp 1 7), .protConfigLeg (.udp 1 7), .protSelftest (.udp 1 7), .protStatus (.udp 1 7),
      .safeLoadParams (.udp 1 7), .safeGetCheck (.udp 1 7), .safeCommission (.udp 1 7), .safeStatus (.udp 1 7), .safeAckFault (.udp 1 7),
      .fioConfigInput (.udp 1 7), .fioConfigOutput (.udp 1 7), .fioConfigLink (.udp 1 7), .fioWrite (.udp 1 7), .fioRead (.udp 1 7),
      .timeSetDomain (.udp 1 7), .timeFeedOffset (.udp 1 7), .timeSelectActive (.udp 1 7), .timeRead (.udp 1 7), .ethConfigPort (.udp 1 7),
      .ethConfigInstance (.udp 1 7), .ethSessionOpen (.udp 1 7), .canConfig (.udp 1 7), .canSend (.udp 1 7), .canCancel (.udp 1 7), .canRxAck (.udp 1 7),
      .canRecover (.udp 1 7), .canTap (.udp 1 7), .capConfig (.udp 1 7), .capArmStop (.udp 1 7), .capArmArm (.udp 1 7), .capArmForce (.udp 1 7),
      .capStatus (.udp 1 7), .capTrigbusCalSet (.udp 1 7), .capTrigbusCalRespond (.udp 1 7), .capTrigbusCalInitiate (.udp 1 7), .sageRead (.udp 1 7),
      .sageSignedRecord (.udp 1 7), .sageSetTime (.udp 1 7), .sageEventLog (.udp 1 7), .sageRestore (.udp 1 7), .sageSealQuery (.udp 1 7),
      .sageSealLoadParameters (.udp 1 7), .sageSealSeal (.udp 1 7), .sageSealBreak (.udp 1 7), .sageSealPulseEnable (.udp 1 7),
      .sageSealPulseDisable (.udp 1 7), .otpWriteBlock (.udp 1 7), .otpReadBlock (.udp 1 7), .lcTransitionQuery (.udp 1 7), .lcTransition (.udp 1 7),
      .spareStatus (.udp 1 7), .repairRestore (.udp 1 7), .unassignedOpcode (.udp 1 7), .vendorTestOpcode (.udp 1 7)] : List Instr).all (·.WellFormed) = true := by decide +kernel
theorem test_wellFormed_refuses_indexes :
    ([.bulkStatus 65536, .resetRelease 4 (List.replicate 5 0) 1000 true true 0, .resetRelease 3 [] 1000 true true 0, .relockStart 2, .relockAttemptTimeout 2, .slowPathSettled 80, .filterSettled 80, .calDone 80, .stageStartBegin 8,
      .timersStart 8, .timerReload 24, .refreshPeriod 8, .reloadNotice 8, .instanceDispatch 18, .instanceEnd 18, .completionPost 18, .successorDecrement 18,
      .schedStall 18, .correctionDone 8, .commit 8, .handoverDone 8, .commitDeadline 8, .suspensionEnd 8, .kernelEnd 2, .feedTimeout 2, .rideExit 2,
      .decayEnd 2, .blackStartEnd 2, .bsStalled 2, .closePermit 2, .islandDetected 2, .fuShutdownTimeout 2, .restorationStep 2, .compareMatch 96,
      .deadTimeExpiry 96, .minpwExpiry 96, .startTimeout 8, .stageShutdownEnd 8, .cuSpareDwellExpiry 104, .fltTrip 80, .fltHigh 80, .cmpRelease 32,
      .blankingEnd 32, .contactorMismatch 4, .gridTrip 8, .inputDebounceExpiry 16, .freqGateEnd 16, .pullinEnd 8, .outputShutdownEnd 8, .holdoverEntry 4,
      .holdoverLimitExpiry 4, .canTxAttempt 6, .canRecoveryDone 6, .canShutdownEnd 6, .canTapTimeout 256, .trigDriveEnd 4, .bsStuckClear 48, .focRelease 48 [], .focRelease 47 (List.replicate 65 true),
      .supplyWarningRelease 6 0 0, .announceReceiptTimeout 3] : List Instr).all (fun i => !i.WellFormed) = true := by decide +kernel
theorem test_wellFormed_passes_indexes :
    ([.bulkStatus 65535, .resetRelease 3 (List.replicate 5 0) 1000 true true 0, .relockStart 1, .relockAttemptTimeout 1, .slowPathSettled 79, .filterSettled 79, .calDone 79, .stageStartBegin 7,
      .timersStart 7, .timerReload 23, .refreshPeriod 7, .reloadNotice 7, .instanceDispatch 17, .instanceEnd 17, .completionPost 17, .successorDecrement 17,
      .schedStall 17, .correctionDone 7, .commit 7, .handoverDone 7, .commitDeadline 7, .suspensionEnd 7, .kernelEnd 1, .feedTimeout 1, .rideExit 1,
      .decayEnd 1, .blackStartEnd 1, .bsStalled 1, .closePermit 1, .islandDetected 1, .fuShutdownTimeout 1, .restorationStep 1, .compareMatch 95,
      .deadTimeExpiry 95, .minpwExpiry 95, .startTimeout 7, .stageShutdownEnd 7, .cuSpareDwellExpiry 103, .fltTrip 79, .fltHigh 79, .cmpRelease 31,
      .blankingEnd 31, .contactorMismatch 3, .gridTrip 7, .inputDebounceExpiry 15, .freqGateEnd 15, .pullinEnd 7, .outputShutdownEnd 7, .holdoverEntry 3,
      .holdoverLimitExpiry 3, .canTxAttempt 5, .canRecoveryDone 5, .canShutdownEnd 5, .canTapTimeout 255, .trigDriveEnd 3, .bsStuckClear 47, .focRelease 47 (List.replicate 64 true),
      .supplyWarningRelease 5 0 0, .announceReceiptTimeout 2] : List Instr).all (·.WellFormed) = true := by decide +kernel
theorem test_wellFormed_refuses_operands :
    ([.requestWrite true [0x3A], .unknownTransaction true 0xC5 4, .unknownTransaction true 0x3A 4, .unknownTransaction true 0 4, .udpDatagram 2 none 1 2 [], .udpDatagram 1 (some 4096) 1 2 [],
      .sessionIdleTimeout 2 7, .bulkRead 0 4096 4, .bulkRead 0 1 65536, .bulkReadHold 0 4096 4, .bulkReadHold 0 1 65536, .bulkWrite 0 4096 [],
      .supplyWarning 6 0 0, .brownOut 5 0 0, .wipeDone [(108, 0)] none, .wipeDone [(0, 512)] none, .wipeDone [] (some 4), 
      .prechargeEnd 8 0, .adpllLock 2 true 0 0 0 0 0, .outputRelease 2 0, .outputRelease 0 10, .lossOfLock 2 0, .lossOfLock 0 3,
      .slotOutput 80 none, .sarConversion 4 0 0 none, .sarConversion 0 5 0 none, .bsStuck 48 true, .checkerDwellExpiry 15, .checkerDwellExpiry 18,
      .checkerReplayDone 15 0, .checkerReplayDone 18 0, .pllLockQualified 2 true, .readbackSample 96 true] : List Instr).all (fun i => !i.WellFormed) = true := by decide +kernel
theorem test_wellFormed_refuses_more_operands :
    ([.cuMismatch 95, .cuMismatch 104, .cmpTrip 32 0, .cmpTrip 0 5, .focTrip 48 [], .focTrip 47 (List.replicate 65 true), .hbMonitorTrip 8 true true, .hbStatusWord 8 0 0 0, .hbStatusWord 0 3 0 0,
      .hbStatusWord 0 0 3 0, .bootstrapUndervoltage 8 0, .driverSupply true 3 0 0, .safetyDebounceExpiry 2 0, .safetyDebounceExpiry 0 16, .permitWithdraw 2 0,
      .permitWithdraw 0 4, .uplinkSend 0 0 [0] 0, .vfield 4 true 0 0, .outputFault 8 0 0 0 0, .outputFault 0 4 0 0 0, .ptpSync 3 none 0 0 0, .ptpSync 0 (some 4096) 0 0 0, .ptpAnnounce 3 none (zeros 8) 0 0 0 0 0 0,
      .ptpAnnounce 0 (some 4096) (zeros 8) 0 0 0 0 0 0, .ptpAnnounce 0 none (zeros 7) 0 0 0 0 0 0, .ptpPdelay 3 none 0 0 0 0, .ptpPdelay 0 (some 4096) 0 0 0 0, .ptpPdelay 0 none 3 0 0 0, .ptpSyncInterval 3 true, .ethLink 2 true 0, .ethLink 0 true 4, .arpRequest 2 none 0 (zeros 6) 0, .arpRequest 0 (some 4096) 0 (zeros 6) 0,
      .arpRequest 0 none 0 (zeros 5) 0, .icmpEcho 2 none 0 [], .icmpEcho 0 (some 4096) 0 [], .imageDatagram (some 4096) 0 0 [], .canFrameReceived 6 wfFrame 0, .canFrameReceived 0 { wfFrame with id := 0x80000000 } 0,
      .canFrameReceived 0 { wfFrame with fdf := true, dlc := 16 } 0, .canFrameReceived 0 { wfFrame with dlc := 9 } 0, .canTxOutcome 6 0 0, .canTxOutcome 0 3 0,
      .canBusError 6 1 .none, .canBusError 0 0 .none, .canBusError 0 6 .none, .trigBusEdge 4 true, .publicationInstant [0] 0 [(0, 0), (0, 0)], .publicationInstant [0, 0, 0, 0, 0] 0 [(0, 0)],
      .scrubRead 112 0 0 .none true, .scrubRead 0 8192 0 .none true, .scrubRead 0 0 4 .none true, .fieldInputEdge 16 0 0, .downlinkReceive { flips := zeros 33, len := 32 } { flips := [], len := 32 }, .uplinkReceive { flips := [], len := 32 } { flips := [], len := 65 }, .ethFrameDiscarded 2 true none 64 false, .ethFrameDiscarded 1 true (some 4096) 64 false, .canRejoin 6 true, .sageWindowEnd [], .sageSupplyWarn 0 0 0 [], .sageWindowEnd (List.replicate 7 [] ++ [[true]])] : List Instr).all (fun i => !i.WellFormed) = true := by decide +kernel
theorem test_wellFormed_passes_operands :
    ([.requestWrite true [0xC5], .unknownTransaction true 0xC6 4, .udpDatagram 1 (some 4095) 1 2 [], .sessionIdleTimeout 1 7, .bulkRead 0 4095 65535, .bulkReadHold 0 4095 65535,
      .bulkWrite 0 4095 [], .supplyWarning 5 0 0, .brownOut 4 0 0, .wipeDone [(107, 511)] (some 3),  .prechargeEnd 7 0,
      .adpllLock 1 true 0 0 0 0 0, .outputRelease 1 9, .lossOfLock 1 2, .slotOutput 79 none, .sarConversion 3 4 0 none, .bsStuck 47 true, .checkerDwellExpiry 16,
      .checkerReplayDone 17 0, .pllLockQualified 1 true, .readbackSample 95 true, .cuMismatch 96, .cuMismatch 103, .cmpTrip 31 4, .focTrip 47 (List.replicate 64 true),
      .hbMonitorTrip 7 true true, .hbStatusWord 7 2 2 0, .bootstrapUndervoltage 7 0, .driverSupply true 2 0 0, .safetyDebounceExpiry 1 15, .permitWithdraw 1 3,
      .uplinkSend 0 0 (List.replicate 8 0) 0, .vfield 3 true 0 0, .outputFault 7 3 0 0 0, .ptpSync 2 (some 4095) 0 0 0, .ptpAnnounce 2 (some 4095) (zeros 8) 0 0 0 0 0 0, .ptpPdelay 2 (some 4095) 2 0 0 0,
      .ptpSyncInterval 2 true, .ethLink 1 true 3, .arpRequest 1 (some 4095) 0 (zeros 6) 0, .icmpEcho 1 (some 4095) 0 [], .imageDatagram (some 4095) 0 0 [], .canFrameReceived 5 wfFrame 0, .canFrameReceived 5 { wfFrame with fdf := true, dlc := 15 } 0, .canTxOutcome 5 2 255,
      .canBusError 5 5 .transmitter, .trigBusEdge 3 true,
      .publicationInstant [0, 0, 0, 0, 0] 0 [(0, 0), (0, 0)], .scrubRead 111 8191 3 .none true, .fieldInputEdge 15 0 0, .downlinkReceive { flips := zeros 32, len := 64 } { flips := [], len := 32 }, .uplinkReceive { flips := [], len := 32 } { flips := [], len := 64 }, .ethFrameDiscarded 1 true (some 4095) 64 false, .canRejoin 5 true, .sageWindowEnd (List.replicate 8 [true])] : List Instr).all (·.WellFormed) = true := by decide +kernel

/-! ### Results that the spec works out in its examples -/

/-- spec/02: the publication rate 10,000 Hz with tag 7 in epoch 0x0000_3A1C; the first 22 bytes of the reply. -/
theorem test_publishRate_reply :
    (match exec (.sysPublishRate .cmd) { ask (part .config) 0x0104 [0x10, 0x27, 0, 0] with img := { (part .config).img with epoch := 0x3A1C } } with
      | .next t => t.cmd.replies.map (fun q => q.bytes.take 22)
      | _ => []) = [[0x5C, 0x00, 0x04, 0x01, 0x07, 0x00, 0x00, 0x00, 0x1C, 0x3A, 0x00, 0x00, 0x08, 0x00, 0x10, 0x27, 0x00, 0x00, 0xA0, 0x86, 0x01, 0x00]] := by
  decide +kernel
/-- spec/01: an automatic divider with a minimum of 4,000 ns at 250, 320 and 400 kHz. -/
theorem test_frame_divider : [64000, 50000, 40000].map (frameDiv { graph7 with divider := 0, minPeriod := 64000 }) = [1, 2, 2] := by decide
/-- spec/19: 64 traces give 15 rows in a block. -/
theorem test_rows_per_block : rowsPerBlock 64 = 15 := by decide
/-- One period of the light load example of spec/13: P = 5,000 ns, L = 60.25 ns, DT_r = DT_f = 25 ns, MINPW = 40 ns. -/
def lightLoad (s : State) : State := formPulse 80 80000 5000 0 s
def lightStart : State :=
  updGroup 0 (fun x => { x with active := some { vals := [964], period := none, frame := none, done := 0 } })
    (updChan 80 (fun x => { x with role := 1, partner := some 81, dtR := 25, dtF := 25, minpw := 40 }) (part .run))
/-- spec/13: the accumulator, in 1/16 ns, after each of the example's four periods, and the raw lengths of its two pulses. -/
theorem test_light_load_accumulates :
    let s1 := lightLoad lightStart
    let s2 := lightLoad s1
    let s3 := lightLoad s2
    let s4 := lightLoad s3
    [s1, s2, s3, s4].map (fun s => (getChan s 80).acc) = [564, 8, 572, 0] ∧ (getChan s4 80).pulses.map (fun q => q.off - q.on) = [95, 96] := by decide +kernel
/-- spec/13 R353: with no minimum pulse, a pulse that ends before its dead time is not emitted and carries nothing. -/
theorem test_pulse_within_dead_time : (getChan (lightLoad (updChan 80 (fun x => { x with minpw := 0, dtR := 61 }) lightStart)) 80).pulses = []
    ∧ (getChan (lightLoad (updChan 80 (fun x => { x with minpw := 0, dtR := 61 }) lightStart)) 80).acc = 0 := by decide +kernel

/-- A leaf of a witness: a decidable fact, or one of the hypotheses that the lemmas above turn into one. -/
theorem met {P : Prop} (h : P := by
    (try (constructorm* _ ∧ _)) <;> first
      | (with_reducible exact (mk_params _ _ (by decide +kernel)).symm)
      | (with_reducible exact ⟨0, 7, rfl⟩)
      | (with_reducible exact all_of (by decide +kernel))
      | decide +kernel
      | (exact takes_mk _ _ _ _ rfl (by decide +kernel) rfl (by decide) (by decide) (by decide +kernel) (by decide +kernel))
      | (unfold Takes; decide +kernel)
      | (unfold Sized timeSized clkSized senseSized fltSized pwmSized loopSized safeSized fieldSized capSized sageSized relSized; decide +kernel)
      | (unfold quiet; decide +kernel)
      | (unfold rowsToCome; decide +kernel)
      | (unfold arrives; decide +kernel)
      | (unfold noneTaken; decide +kernel)
      | (unfold rowsBefore; exact opt_all _ (by decide +kernel))
      | (exact opt_all _ (by decide +kernel))
      | (unfold canSame; decide +kernel)
      | (unfold noNews; decide +kernel)
      | (unfold lawRanges; decide +kernel)
      | (unfold limRanges; decide +kernel)
      | (unfold fuIdle; decide +kernel)
      | (exact allOff_of _ _ (by decide +kernel))
      | (exact opt_of _ (by decide +kernel))
      | (exact list_of _ _ (by decide +kernel))
      | (unfold oneLeg; first | exact ⟨0, by decide +kernel⟩ | exact ⟨15, by decide +kernel⟩ | exact ⟨14, by decide +kernel⟩)
      | rfl
      | (intros; rfl)) : P := h

/-- The hypotheses of `Obligations.StepRunsFrontCommand`, met leaf by leaf. -/
theorem witness_StepRunsFrontCommand :
    (∃ (c : Instr) (rest : List Instr) (s : State), s.pending = c :: rest) := by
  exact ⟨.porst 1000, [], { State.reset with pending := [.porst 1000] }, met⟩

/-- The hypotheses of `Obligations.IdleStepPassesTime`, met leaf by leaf. -/
theorem witness_IdleStepPassesTime :
    (∃ (s : State), s.pending = [] ∧ s.sys.phase = BootPhase.inReset)
    ∧ (∃ (s : State), s.pending = [] ∧ s.sys.phase ≠ BootPhase.inReset ∧ pwmFallback s = false)
    ∧ (∃ (s : State), s.pending = [] ∧ s.sys.phase ≠ BootPhase.inReset ∧ pwmFallback s = true) := by
  refine ⟨?_, ?_, ?_⟩
  · exact ⟨State.reset, met⟩
  · exact ⟨clocked (part .config), met⟩
  · exact ⟨part .config, met⟩

/-- The hypotheses of `Obligations.ResetLeavesThePartStill`, met leaf by leaf. -/
theorem witness_ResetLeavesThePartStill :
    (∃ (f : FormingUnit), f ∈ State.reset.fus)
    ∧ (∃ (o : FieldOut), o ∈ State.reset.field.outs) := by
  refine ⟨?_, ?_⟩
  · exact ⟨fu0, met⟩
  · exact ⟨fieldOut0, met⟩

/-- The hypotheses of `Obligations.EventsEnterTheLog`, met leaf by leaf. -/
theorem witness_EventsEnterTheLog :
    (∃ (code : U16) (source : ℕ) (data : Bytes) (s : State), logLive s = true ∧ s.evt.entries.length < 4095 ∧ capListens s = false)
    ∧ (∃ (code : U16) (source : ℕ) (data : Bytes) (s : State), logLive s = true ∧ s.evt.entries.length ≥ 4095 ∧ capListens s = false)
    ∧ (∃ (via : Transport) (s : State) (r : Req) (upto : U32) (keep : List LogEntry), Takes 0x111#16 via s r ∧ s.sys.dev ≠ DevState.boot ∧ reqParams r = le32 upto ∧ (¬0 < BitVec.toInt (upto - newestRead s)) ∧ s.evt.lost ≠ 0 ∧ logLive s = true ∧ capListens s = false ∧ (keep = List.filter (fun e => !(e.read && decide ¬0 < BitVec.toInt (e.seq - upto))) s.evt.entries) ∧ keep.length < s.evt.entries.length ∧ keep.length < 4095) := by
  refine ⟨?_, ?_, ?_⟩
  · exact ⟨0x0101, 0, [], part .config, met⟩
  · exact ⟨0x0101, 0, [], fullLog, met⟩
  · exact ⟨.cmd, ask ackState 0x0111 [5, 0, 0, 0], mk 0x0111 [5, 0, 0, 0], 5, [], met⟩

/-- The hypotheses of `Obligations.RepliesReachTheirTransportOnly`, met leaf by leaf. -/
theorem witness_RepliesReachTheirTransportOnly :
    (∃ (r : Req) (st : U16) (pl : Bytes) (s : State), reqNoReply r = true ∧ isError st = false)
    ∧ (∃ (r : Req) (st : U16) (pl : Bytes) (s : State), r.via = Transport.cmd ∧ isError st = true ∧ s.cmd.waiting = [] ∧ repliesHeld s < 16)
    ∧ (∃ (r : Req) (st : U16) (pl : Bytes) (s : State), r.via = Transport.cmd ∧ isError st = false ∧ reqNoReply r = false ∧ s.cmd.waiting = [] ∧ repliesHeld s < 16)
    ∧ (∃ (r : Req) (st : U16) (pl : Bytes) (s : State) (v : Transport), (∀ (q : Req), nextRequest s v = some q → q.refusal = none))
    ∧ (∃ (r : Req) (st : U16) (pl : Bytes) (s : State) (v : Transport) (q : Req) (e : U16), nextRequest s v = some q ∧ q.refusal = some e) := by
  refine ⟨?_, ?_, ?_, ?_, ?_⟩
  · exact ⟨({ mk 0x0100 [] with bytes := [0xC5, 2] }), OK, [], part .config, met⟩
  · exact ⟨mk 0x0100 [], E_PARAM, [], part .config, met⟩
  · exact ⟨mk 0x0100 [], OK, [], part .config, met⟩
  · exact ⟨mk 0x0100 [], OK, [], part .config, .cmd, met⟩
  · exact ⟨mk 0x0100 [], OK, [], { part .config with cmd := { (part .config).cmd with requests := [({ mk 0x0100 [] with refusal := some E_CRC })] } }, .cmd, ({ mk 0x0100 [] with refusal := some E_CRC }), E_CRC, met⟩

/-- The hypotheses of `Obligations.CommandPortTransactions`, met leaf by leaf. -/
theorem witness_CommandPortTransactions :
    (∃ (cpol : Bool) (s : State) (bytes : Bytes), s.cmd.isOpen = true ∧ busyLevel s = false ∧ 12 + n16At bytes 6 ≤ List.length bytes)
    ∧ (∃ (cpol : Bool) (s : State) (bytes : Bytes), s.cmd.isOpen = true ∧ busyLevel s = false ∧ List.length bytes < 12 + n16At bytes 6 ∧ List.length bytes < 8)
    ∧ (∃ (cpol : Bool) (s : State) (bytes : Bytes), s.cmd.isOpen = true ∧ busyLevel s = false ∧ List.length bytes < 12 + n16At bytes 6 ∧ 8 ≤ List.length bytes ∧ s.cmd.requests = [] ∧ s.cmd.waiting = [] ∧ s.cmd.held = none ∧ s.cmd.replies = [] ∧ awaitsReply s Transport.cmd = false)
    ∧ (∃ (cpol : Bool) (s : State) (bytes : Bytes), s.cmd.isOpen = true ∧ busyLevel s = true ∧ ((s.cmd.replies.any fun x => x.reserved) = true))
    ∧ (∃ (cpol : Bool) (s : State) (n : ℕ), s.cmd.isOpen = true)
    ∧ (∃ (cpol : Bool) (s : State) (first : Byte) (n : ℕ), s.cmd.isOpen = true)
    ∧ (∃ (cpol : Bool) (bytes : Bytes) (s : State), s.cmd.isOpen = true ∧ busyLevel s = true ∧ ((s.cmd.replies.any fun x => x.reserved) = false)) := by
  refine ⟨?_, ?_, ?_, ?_, ?_, ?_, ?_⟩
  · exact ⟨true, part .config, (mk 0x0100 []).bytes, met⟩
  · exact ⟨true, part .config, [0xC5, 0, 0, 0, 0, 0, 0], met⟩
  · exact ⟨true, part .config, pkt 0x0100 [], met⟩
  · exact ⟨true, busyReserved, (mk 0x0100 []).bytes, met⟩
  · exact ⟨true, part .config, 4, met⟩
  · exact ⟨true, part .config, 0xC6, 4, met⟩
  · exact ⟨true, (mk 0x0100 []).bytes, busyPort, met⟩

/-- The hypotheses of `Obligations.ReplyLeavesWhenFullyRead`, met leaf by leaf. -/
theorem witness_ReplyLeavesWhenFullyRead :
    (∃ (cpol : Bool) (n : ℕ) (s : State), s.cmd.isOpen = true ∧ s.cmd.replies = [])
    ∧ (∃ (cpol : Bool) (n : ℕ) (s : State) (q : QReply) (t : List QReply), s.cmd.isOpen = true ∧ s.cmd.replies = q :: t ∧ n < List.length q.bytes)
    ∧ (∃ (cpol : Bool) (n : ℕ) (s : State) (q : QReply) (t : List QReply), s.cmd.isOpen = true ∧ s.cmd.replies = q :: t ∧ n ≥ List.length q.bytes) := by
  refine ⟨?_, ?_, ?_⟩
  · exact ⟨true, 1, part .config, met⟩
  · exact ⟨true, 11, withReply, oneReply, [], met⟩
  · exact ⟨true, 12, withReply, oneReply, [], met⟩

/-- The hypotheses of `Obligations.SystemRequests`, met leaf by leaf. -/
theorem witness_SystemRequests :
    (∃ (via : Transport) (s : State) (r : Req), Takes 0x100#16 via s r ∧ List.length (reqParams r) = 0)
    ∧ (∃ (via : Transport) (s : State) (r : Req), Takes 0x101#16 via s r ∧ List.length (reqParams r) = 0)
    ∧ (∃ (via : Transport) (s : State) (r : Req) (k : Byte), Takes 0x102#16 via s r ∧ s.sys.dev ≠ DevState.run ∧ reqParams r = [k, 0, 0xA5#8, 0x5A#8] ∧ (k = 1 ∨ k = 2))
    ∧ (∃ (s : State) (t : ℕ) (cause : Byte), s.sys.resetDue = some (t, cause) ∧ s.sys.phase ≠ BootPhase.inReset)
    ∧ (∃ (via : Transport) (s : State) (r : Req) (rate : U32), Takes 0x104#16 via s r ∧ s.sys.dev ≠ DevState.boot ∧ reqParams r = le32 rate ∧ 1000 ≤ BitVec.toNat rate ∧ BitVec.toNat rate ≤ 20000)
    ∧ (∃ (via : Transport) (s : State) (r : Req) (rate : U32), Takes 0x104#16 via s r ∧ s.sys.dev ≠ DevState.boot ∧ reqParams r = le32 rate ∧ (BitVec.toNat rate < 1000 ∨ 20000 < BitVec.toNat rate)) := by
  refine ⟨?_, ?_, ?_, ?_, ?_, ?_⟩
  · exact ⟨.cmd, ask (part .boot) 0x0100 [], mk 0x0100 [], met⟩
  · exact ⟨.cmd, ask (part .run) 0x0101 [], mk 0x0101 [], met⟩
  · exact ⟨.cmd, ask (part .config) 0x0102 [2, 0, 0xA5, 0x5A], mk 0x0102 [2, 0, 0xA5, 0x5A], 2, met⟩
  · exact ⟨({ part .config with sys := { (part .config).sys with resetDue := some (100, 0x05) } }), 100, 0x05, met⟩
  · exact ⟨.cmd, ask (part .config) 0x0104 [0xE8, 3, 0, 0], mk 0x0104 [0xE8, 3, 0, 0], 1000, met⟩
  · exact ⟨.cmd, ask (part .config) 0x0104 [0xE7, 3, 0, 0], mk 0x0104 [0xE7, 3, 0, 0], 999, met⟩

/-- The hypotheses of `Obligations.SysSetStateTransitions`, met leaf by leaf (part 1 of 2). -/
theorem witness_SysSetStateTransitions :
    (∃ (via : Transport) (s : State) (r : Req) (k : Byte) (d : DevState) (fail : Option (ℕ × ℕ)), Takes 0x103#16 via s r ∧ s.sys.stateChange = false ∧ reqParams r = [k, 0, 0, 0] ∧ s.sys.dev = d ∧ d ≠ DevState.boot ∧ d ≠ DevState.safe ∧ BitVec.toNat k = devCode d ∧ (k = 2 → setStateLc s r = true))
    ∧ (∃ (via : Transport) (s : State) (r : Req) (k : Byte) (ch : ℕ) (idx : ℕ), Takes 0x103#16 via s r ∧ s.sys.stateChange = false ∧ reqParams r = [k, 0, 0, 0] ∧ s.sys.dev = DevState.config ∧ k = 2 ∧ readyMet s = true ∧ s.safe.causes.getLsbD (rSELFTEST - 1) = false)
    ∧ (∃ (via : Transport) (s : State) (r : Req) (k : Byte) (fail : Option (ℕ × ℕ)), Takes 0x103#16 via s r ∧ s.sys.stateChange = false ∧ reqParams r = [k, 0, 0, 0] ∧ s.sys.dev = DevState.ready ∧ k = 1)
    ∧ (∃ (via : Transport) (s : State) (r : Req) (k : Byte) (fail : Option (ℕ × ℕ)), Takes 0x103#16 via s r ∧ s.sys.stateChange = false ∧ reqParams r = [k, 0, 0, 0] ∧ s.sys.dev = DevState.ready ∧ k = 3)
    ∧ (∃ (via : Transport) (s : State) (r : Req) (k : Byte) (fail : Option (ℕ × ℕ)), Takes 0x103#16 via s r ∧ s.sys.stateChange = false ∧ reqParams r = [k, 0, 0, 0] ∧ s.sys.dev = DevState.run ∧ k = 2 ∧ classFull s 0x103#16 = false ∧ setStateLc s r = true) := by
  refine ⟨?_, ?_, ?_, ?_, ?_⟩
  · exact ⟨.cmd, ask (devel .ready) 0x0103 [2, 0, 0, 0], mk 0x0103 [2, 0, 0, 0], 2, .ready, none, met⟩
  · exact ⟨.cmd, ask (devel .config) 0x0103 [2, 0, 0, 0], mk 0x0103 [2, 0, 0, 0], 2, 79, 1, met⟩
  · exact ⟨.cmd, ask (devel .ready) 0x0103 [1, 0, 0, 0], mk 0x0103 [1, 0, 0, 0], 1, none, met⟩
  · exact ⟨.cmd, ask (devel .ready) 0x0103 [3, 0, 0, 0], mk 0x0103 [3, 0, 0, 0], 3, none, met⟩
  · exact ⟨.cmd, ask (devel .run) 0x0103 [2, 0, 0, 0], mk 0x0103 [2, 0, 0, 0], 2, none, met⟩

/-- The hypotheses of `Obligations.SysSetStateTransitions`, met leaf by leaf (part 2 of 2). -/
theorem witness_SysSetStateTransitions_2 :
    (∃ (via : Transport) (s : State) (r : Req) (fail : Option (ℕ × ℕ)), Takes 0x103#16 via s r ∧ s.sys.stateChange = false ∧ setStateLc s r = true ∧ (s.sys.dev = DevState.run ∧ n8At (reqParams r) 0 = 1 ∨ s.sys.dev = DevState.config ∧ n8At (reqParams r) 0 = 3 ∨ s.sys.dev = DevState.config ∧ n8At (reqParams r) 0 = 2 ∧ readyMet s = false))
    ∧ (∃ (via : Transport) (s : State) (r : Req) (fail : Option (ℕ × ℕ)), Takes 0x103#16 via s r ∧ s.sys.stateChange = true ∧ s.sys.dev = DevState.run ∧ setStateLc s r = true ∧ Machine.allOff s = false ∧ reqParams r = [2, 0, 0, 0])
    ∧ (∃ (via : Transport) (s : State) (r : Req) (fail : Option (ℕ × ℕ)), Takes 0x103#16 via s r ∧ s.sys.stateChange = true ∧ s.sys.dev = DevState.run ∧ setStateLc s r = true ∧ Machine.allOff s = false ∧ n8At (reqParams r) 0 = 3)
    ∧ (∃ (via : Transport) (s : State) (r : Req) (fail : Option (ℕ × ℕ)), Takes 0x103#16 via s r ∧ s.sys.stateChange = false ∧ setStateLc s r = true ∧ (s.sys.dev = DevState.boot ∨ s.sys.dev = DevState.safe)) := by
  refine ⟨?_, ?_, ?_, ?_⟩
  · exact ⟨.cmd, ask (devel .config) 0x0103 [3, 9, 0, 0], mk 0x0103 [3, 9, 0, 0], none, met⟩
  · exact ⟨.cmd, ask ((stage7 .enabled id { devel .run with sys := { (devel .run).sys with stateChange := true } })) 0x0103 [2, 0, 0, 0], mk 0x0103 [2, 0, 0, 0], none, met⟩
  · exact ⟨.cmd, ask ((stage7 .enabled id { devel .run with sys := { (devel .run).sys with stateChange := true } })) 0x0103 [3, 0, 0, 0], mk 0x0103 [3, 0, 0, 0], none, met⟩
  · exact ⟨.cmd, ask (devel .safe) 0x0103 [1, 0, 0, 0], mk 0x0103 [1, 0, 0, 0], none, met⟩

/-- The hypotheses of `Obligations.EvtReadReturnsOldestUnread`, met leaf by leaf. -/
theorem witness_EvtReadReturnsOldestUnread :
    (∃ (via : Transport) (s : State) (r : Req) (m : U16), Takes 0x110#16 via s r ∧ s.sys.dev ≠ DevState.boot ∧ reqParams r = le16 m ++ [0, 0] ∧ 1 ≤ BitVec.toNat m ∧ BitVec.toNat m ≤ 63)
    ∧ (∃ (via : Transport) (s : State) (r : Req) (m : U16), Takes 0x110#16 via s r ∧ s.sys.dev ≠ DevState.boot ∧ reqParams r = le16 m ++ [0, 0] ∧ (BitVec.toNat m = 0 ∨ 63 < BitVec.toNat m)) := by
  refine ⟨?_, ?_⟩
  · exact ⟨.cmd, ask (part .config) 0x0110 [1, 0, 0, 0], mk 0x0110 [1, 0, 0, 0], 1, met⟩
  · exact ⟨.cmd, ask (part .config) 0x0110 [64, 0, 0, 0], mk 0x0110 [64, 0, 0, 0], 64, met⟩

/-- The hypotheses of `Obligations.EvtAckFreesReadEntriesOnly`, met leaf by leaf. -/
theorem witness_EvtAckFreesReadEntriesOnly :
    (∃ (via : Transport) (s : State) (r : Req) (upto : U32), Takes 0x111#16 via s r ∧ s.sys.dev ≠ DevState.boot ∧ reqParams r = le32 upto ∧ 0 < BitVec.toInt (upto - newestRead s))
    ∧ (∃ (via : Transport) (s : State) (r : Req) (upto : U32), Takes 0x111#16 via s r ∧ s.sys.dev ≠ DevState.boot ∧ reqParams r = le32 upto ∧ (¬0 < BitVec.toInt (upto - newestRead s)) ∧ s.evt.lost = 0) := by
  refine ⟨?_, ?_⟩
  · exact ⟨.cmd, ask { ackState with evt := { ackState.evt with lost := 0 } } 0x0111 [6, 0, 0, 0], mk 0x0111 [6, 0, 0, 0], 6, met⟩
  · exact ⟨.cmd, ask { ackState with evt := { ackState.evt with lost := 0 } } 0x0111 [5, 0, 0, 0], mk 0x0111 [5, 0, 0, 0], 5, met⟩

/-- The hypotheses of `Obligations.EvtMaskGovernsAttentionOnly`, met leaf by leaf. -/
theorem witness_EvtMaskGovernsAttentionOnly :
    (∃ (via : Transport) (s : State) (r : Req) (n : ℕ) (t : State) (e : LogEntry), Takes 0x112#16 via s r ∧ s.sys.dev ≠ DevState.boot ∧ n16At (reqParams r) 4 = n ∧ n ≤ 8 ∧ List.length (reqParams r) = 8 + 2 * n ∧ zeroAt (reqParams r) 6 2 = true ∧ zeroAt (reqParams r) 2 2 = true) := by
  exact ⟨.cmd, ask (part .config) 0x0112 [0, 0, 0, 0, 8, 0, 0, 0, 1, 1, 1, 1, 1, 1, 1, 1, 1, 1, 1, 1, 1, 1, 1, 1], mk 0x0112 [0, 0, 0, 0, 8, 0, 0, 0, 1, 1, 1, 1, 1, 1, 1, 1, 1, 1, 1, 1, 1, 1, 1, 1], 8, part .config, oneEntry, met⟩

/-- The hypotheses of `Obligations.SessionsAndTheirDatagrams`, met leaf by leaf (part 1 of 2). -/
theorem witness_SessionsAndTheirDatagrams :
    (∃ (port : ℕ) (tag : Option ℕ) (ip : U32) (src : U16) (sid : U32) (seq : U32) (packet : Bytes) (mac : Bytes) (s : State) (x : Session), arrives s port tag (54 + List.length packet + List.length mac) ∧ sid ≠ 0 ∧ 12 ≤ List.length packet ∧ List.length mac = 8 ∧ findSession s port sid = some x ∧ x.sid = sid ∧ x.port = port ∧ mac = cmac8 x.key (le32 sid ++ le32 seq ++ packet) ∧ List.length packet = 12 + n16At packet 6 ∧ BitVec.toNat x.high < BitVec.toNat seq ∧ BitVec.toNat seq < 4294967294 ∧ x.owing < 4)
    ∧ (∃ (port : ℕ) (tag : Option ℕ) (ip : U32) (src : U16) (sid : U32) (seq : U32) (packet : Bytes) (mac : Bytes) (s : State) (x : Session), arrives s port tag (54 + List.length packet + List.length mac) ∧ sid ≠ 0 ∧ 12 ≤ List.length packet ∧ List.length mac = 8 ∧ findSession s port sid = some x ∧ x.sid = sid ∧ x.port = port ∧ mac = cmac8 x.key (le32 sid ++ le32 seq ++ packet) ∧ List.length packet = 12 + n16At packet 6 ∧ BitVec.toNat x.high < BitVec.toNat seq ∧ BitVec.toNat seq < 4294967294 ∧ 4 ≤ x.owing)
    ∧ (∃ (port : ℕ) (tag : Option ℕ) (ip : U32) (src : U16) (sid : U32) (seq : U32) (packet : Bytes) (mac : Bytes) (s : State) (x : Session), arrives s port tag (54 + List.length packet + List.length mac) ∧ sid ≠ 0 ∧ 12 ≤ List.length packet ∧ List.length mac = 8 ∧ findSession s port sid = some x ∧ x.sid = sid ∧ x.port = port ∧ mac = cmac8 x.key (le32 sid ++ le32 seq ++ packet) ∧ List.length packet = 12 + n16At packet 6 ∧ (x.window.contains seq = true ∧ BitVec.toNat seq ≤ BitVec.toNat x.high ∨ seq = 0 ∨ seq = 0xFFFFFFFF#32))
    ∧ (∃ (port : ℕ) (tag : Option ℕ) (ip : U32) (src : U16) (sid : U32) (seq : U32) (packet : Bytes) (mac : Bytes) (s : State) (x : Session), arrives s port tag (54 + List.length packet + List.length mac) ∧ sid ≠ 0 ∧ 12 ≤ List.length packet ∧ List.length mac = 8 ∧ findSession s port sid = some x ∧ x.sid = sid ∧ x.port = port ∧ (mac ≠ cmac8 x.key (le32 sid ++ le32 seq ++ packet) ∨ List.length packet ≠ 12 + n16At packet 6))
    ∧ (∃ (port : ℕ) (tag : Option ℕ) (ip : U32) (src : U16) (bytes : Bytes) (s : State), ethUp s port = false)
    ∧ (∃ (port : ℕ) (tag : Option ℕ) (ip : U32) (src : U16) (bytes : Bytes) (s : State), ethUp s port = true ∧ (¬arrives s port tag (List.length bytes + 46))) := by
  refine ⟨?_, ?_, ?_, ?_, ?_, ?_⟩
  · exact ⟨0, none, 1, 2, 7, 5, (mk 0x0100 []).bytes, cmac8 (zeros 32) (le32 7 ++ le32 5 ++ (mk 0x0100 []).bytes), sessState, sess1, met⟩
  · exact ⟨0, none, 1, 2, 7, 5, (mk 0x0100 []).bytes, cmac8 (zeros 32) (le32 7 ++ le32 5 ++ (mk 0x0100 []).bytes), { sessState with udp := { sessState.udp with sessions := [{ sess1 with owing := 4 }] } }, { sess1 with owing := 4 }, met⟩
  · exact ⟨0, none, 1, 2, 7, 4, (mk 0x0100 []).bytes, cmac8 (zeros 32) (le32 7 ++ le32 4 ++ (mk 0x0100 []).bytes), sessState, sess1, met⟩
  · exact ⟨0, none, 1, 2, 7, 5, pkt 0x0100 [] ++ zeros 8, zeros 8, sessState, sess1, met, met, met, met, met, met, met, Or.inr (by decide +kernel)⟩
  · exact ⟨0, none, 1, 2, [], part .config, met⟩
  · exact ⟨0, some 1, 1, 2, [], sessState, met⟩

/-- The hypotheses of `Obligations.SessionsAndTheirDatagrams`, met leaf by leaf (part 2 of 2). -/
theorem witness_SessionsAndTheirDatagrams_2 :
    (∃ (port : ℕ) (tag : Option ℕ) (ip : U32) (src : U16) (bytes : Bytes) (s : State), arrives s port tag (List.length bytes + 46) ∧ (List.length bytes < 28 ∨ u32At bytes 0 ≠ 0 ∧ findSession s port (u32At bytes 0) = none))
    ∧ (∃ (port : ℕ) (tag : Option ℕ) (ip : U32) (src : U16) (bytes : Bytes) (s : State) (k : Bytes) (packet : Bytes), arrives s port tag (List.length bytes + 46) ∧ kCmd s = some k ∧ bytes = zeros 8 ++ packet ++ cmac8 k (zeros 8 ++ packet) ∧ 12 ≤ List.length packet ∧ List.length packet = 12 + n16At packet 6 ∧ (portNonces s port).contains (slice packet 8 16) = false)
    ∧ (∃ (port : ℕ) (s : State) (r : Req) (k : Bytes) (p : Bytes), Takes 0x311#16 (Transport.udp port 0) s r ∧ r.via = Transport.udp port 0 ∧ s.sys.dev ≠ DevState.boot ∧ kCmd s = some k ∧ reqParams r = p ∧ List.length p = 16 ∧ (portNonces s port).contains p = false ∧ ((List.filter (fun x => decide (x.port = port)) (taken s (Transport.udp port 0)).udp.sessions).length < 2))
    ∧ (∃ (port : ℕ) (s : State) (r : Req) (k : Bytes) (p : Bytes), Takes 0x311#16 (Transport.udp port 0) s r ∧ r.via = Transport.udp port 0 ∧ s.sys.dev ≠ DevState.boot ∧ kCmd s = some k ∧ reqParams r = p ∧ List.length p = 16 ∧ (portNonces s port).contains p = true)
    ∧ (∃ (port : ℕ) (sid : U32) (s : State), findSession s port sid = none)
    ∧ (∃ (port : ℕ) (sid : U32) (s : State) (x : Session), findSession s port sid = some x) := by
  refine ⟨?_, ?_, ?_, ?_, ?_, ?_⟩
  · exact ⟨0, none, 1, 2, zeros 27, sessState, met⟩
  · exact ⟨0, none, 1, 2, zeros 8 ++ (mkOpen (zeros 16)).bytes ++ cmac8 (1 :: zeros 31) (zeros 8 ++ (mkOpen (zeros 16)).bytes), withKey sessState, 1 :: zeros 31, (mkOpen (zeros 16)).bytes, met⟩
  · exact ⟨0, withKey { part .config with udp := { (part .config).udp with queue := [mkOpen (zeros 16)] } }, mkOpen (zeros 16), 1 :: zeros 31, zeros 16, met⟩
  · exact ⟨0, withKey { part .config with udp := { (part .config).udp with queue := [mkOpen (zeros 16)], nonces0 := [zeros 16] } }, mkOpen (zeros 16), 1 :: zeros 31, zeros 16, met⟩
  · exact ⟨0, 7, part .config, met⟩
  · exact ⟨0, 7, sessState, sess1, met⟩

/-- The hypotheses of `Obligations.UnassignedAndVendorOpcodes`, met leaf by leaf. -/
theorem witness_UnassignedAndVendorOpcodes :
    (∃ (via : Transport) (s : State) (r : Req), nextRequest s via = some r ∧ r.refusal = none ∧ crc32c (List.take (List.length r.bytes - 4) r.bytes) = u32At r.bytes (List.length r.bytes - 4) ∧ reqLength r ≤ 1024 ∧ List.length r.bytes = 12 + reqLength r ∧ byteAt r.bytes 5 = 0 ∧ BitVec.extractLsb' 3 5 (reqFlags r) = 0 ∧ assigned (reqOpcode r) = false ∧ opClass (reqOpcode r) ≠ 127)
    ∧ (∃ (via : Transport) (s : State) (r : Req), nextRequest s via = some r ∧ r.refusal = none ∧ crc32c (List.take (List.length r.bytes - 4) r.bytes) = u32At r.bytes (List.length r.bytes - 4) ∧ reqLength r ≤ 1024 ∧ List.length r.bytes = 12 + reqLength r ∧ byteAt r.bytes 5 = 0 ∧ BitVec.extractLsb' 3 5 (reqFlags r) = 0 ∧ opClass (reqOpcode r) = 127 ∧ (s.sys.lifecycle = Lifecycle.production ∨ s.sys.lifecycle = Lifecycle.commissioned ∨ s.sys.lifecycle = Lifecycle.ended))
    ∧ (∃ (via : Transport) (s : State) (r : Req), nextRequest s via = some r ∧ r.refusal = none ∧ crc32c (List.take (List.length r.bytes - 4) r.bytes) = u32At r.bytes (List.length r.bytes - 4) ∧ reqLength r ≤ 1024 ∧ List.length r.bytes = 12 + reqLength r ∧ byteAt r.bytes 5 = 0 ∧ BitVec.extractLsb' 3 5 (reqFlags r) = 0 ∧ opClass (reqOpcode r) = 127 ∧ s.sys.lifecycle ≠ Lifecycle.production ∧ s.sys.lifecycle ≠ Lifecycle.commissioned ∧ s.sys.lifecycle ≠ Lifecycle.ended ∧ s.sys.vendorOpen = false)
    ∧ (∃ (via : Transport) (s : State) (r : Req), nextRequest s via = some r ∧ r.refusal = none ∧ crc32c (List.take (List.length r.bytes - 4) r.bytes) = u32At r.bytes (List.length r.bytes - 4) ∧ reqLength r ≤ 1024 ∧ List.length r.bytes = 12 + reqLength r ∧ byteAt r.bytes 5 = 0 ∧ BitVec.extractLsb' 3 5 (reqFlags r) = 0 ∧ opClass (reqOpcode r) = 127 ∧ s.sys.lifecycle ≠ Lifecycle.production ∧ s.sys.lifecycle ≠ Lifecycle.commissioned ∧ s.sys.lifecycle ≠ Lifecycle.ended ∧ s.sys.vendorOpen = true) := by
  refine ⟨?_, ?_, ?_, ?_⟩
  · exact ⟨.cmd, ask (part .config) 0x0105 [], mk 0x0105 [], met⟩
  · exact ⟨.cmd, ask { part .config with sys := { (part .config).sys with lifecycle := .production } } 0x7F01 [], mk 0x7F01 [], met⟩
  · exact ⟨.cmd, ask (devel .config) 0x7F01 [], mk 0x7F01 [], met⟩
  · exact ⟨.cmd, ask { part .config with sys := { (part .config).sys with lifecycle := .develop, vendorOpen := true } } 0x7F01 [], mk 0x7F01 [], met⟩

/-- The hypotheses of `Obligations.ImageBurstsReadTheLatch`, met leaf by leaf. -/
theorem witness_ImageBurstsReadTheLatch :
    (∃ (addr : U32) (len : ℕ) (clocked : ℕ) (s : State), s.cmd.isOpen = true ∧ BitVec.toNat addr < 65536) := by
  exact ⟨0xFFFF#32, 3, 4, part .config, met⟩

/-- The hypotheses of `Obligations.BulkReadsStatusAndExpiry`, met leaf by leaf (part 1 of 2). -/
theorem witness_BulkReadsStatusAndExpiry :
    (∃ (addr : U32) (len : ℕ) (clocked : ℕ) (s : State) (hold : Bool), s.cmd.isOpen = false)
    ∧ (∃ (addr : U32) (len : ℕ) (clocked : ℕ) (s : State) (hold : Bool), s.cmd.isOpen = true ∧ 1048576 ≤ BitVec.toNat addr ∧ BitVec.toNat addr < 2031616)
    ∧ (∃ (addr : U32) (len : ℕ) (clocked : ℕ) (s : State) (hold : Bool), s.cmd.isOpen = true ∧ 67108864 ≤ BitVec.toNat addr ∧ BitVec.toNat addr < 69206016)
    ∧ (∃ (addr : U32) (len : ℕ) (clocked : ℕ) (s : State) (hold : Bool) (w : BulkWindow), s.cmd.isOpen = true ∧ windowOf (BitVec.toNat addr) = some w ∧ w ≠ BulkWindow.image)
    ∧ (∃ (addr : U32) (len : ℕ) (clocked : ℕ) (s : State) (hold : Bool), s.cmd.isOpen = true ∧ windowOf (BitVec.toNat addr) = none)
    ∧ (∃ (s : State) (code : Byte) (compl : Byte) (addr : U32) (len : U16), s.cmd.isOpen = false) := by
  refine ⟨?_, ?_, ?_, ?_, ?_, ?_⟩
  · exact ⟨0x00100000, 4, 4, State.reset, true, met⟩
  · exact ⟨2031615, 4, 4, part .config, true, met⟩
  · exact ⟨69206015, 4, 4, part .config, false, met⟩
  · exact ⟨0x03000000, 4, 4, part .config, true, .log, met⟩
  · exact ⟨0x0C000000, 4, 4, part .config, true, met⟩
  · exact ⟨State.reset, 0xA1, 0xA1, 0, 0, met⟩

/-- The hypotheses of `Obligations.BulkReadsStatusAndExpiry`, met leaf by leaf (part 2 of 2). -/
theorem witness_BulkReadsStatusAndExpiry_2 :
    (∃ (s : State) (code : Byte) (compl : Byte) (addr : U32) (len : U16), s.cmd.isOpen = true ∧ (compl ≠ ~~~code ∨ code ∉ [0xA1#8, 0xA3#8, 0xA5#8, 0xA7#8, 0xB2#8]))
    ∧ (∃ (s : State) (code : Byte) (addr : U32) (len : U16), s.cmd.isOpen = true ∧ code ∈ [0xA1#8, 0xA3#8, 0xB2#8] ∧ BitVec.toNat len ≥ 4096)
    ∧ (∃ (s : State) (code : Byte) (addr : U32) (len : U16), code ∈ [0xA1#8, 0xA3#8, 0xA5#8, 0xA7#8, 0xB2#8] ∧ (BitVec.toNat len < 4096 ∨ code ∈ [0xA5#8, 0xA7#8]))
    ∧ (∃ (s : State), s.bulk.held = true)
    ∧ (∃ (s : State), s.bulk.held = false) := by
  refine ⟨?_, ?_, ?_, ?_, ?_⟩
  · exact ⟨part .config, 0xA1#8, 0xA1#8, 0, 0, met⟩
  · exact ⟨part .config, 0xA1#8, 5, 4096, met⟩
  · exact ⟨part .config, 0xA1#8, 0, 0, met⟩
  · exact ⟨({ part .config with bulk := { bulk0 with held := true } }), met⟩
  · exact ⟨part .config, met⟩

/-- The hypotheses of `Obligations.BulkWritesStoreOrAreRefused`, met leaf by leaf (part 1 of 2). -/
theorem witness_BulkWritesStoreOrAreRefused :
    (∃ (addr : U32) (len : ℕ) (data : Bytes) (s : State), s.cmd.isOpen = true ∧ memWf s.loop.mem = true ∧ 1048576 ≤ BitVec.toNat addr ∧ BitVec.toNat addr + (List.take (len + 1) data).length ≤ 2031616 ∧ BitVec.toNat addr < 2031616 ∧ (∀ i < (List.take (len + 1) data).length, imageOwner s (BitVec.toNat addr - 1048576 + i) = none))
    ∧ (∃ (addr : U32) (len : ℕ) (data : Bytes) (s : State), s.cmd.isOpen = true ∧ BitVec.toNat addr < 65536 ∧ data ≠ [])
    ∧ (∃ (addr : U32) (len : ℕ) (data : Bytes) (b : Bytes) (s : State), s.cmd.isOpen = true ∧ b = List.take (len + 1) data ∧ 65536 ≤ BitVec.toNat addr ∧ BitVec.toNat addr < 114688 ∧ BitVec.toNat addr + List.length b ≤ 114688 ∧ memWf s.flt.mem = true ∧ (∀ i < List.length b, coefInUse s ((BitVec.toNat addr - 65536 + i) / 4) = false))
    ∧ (∃ (addr : U32) (len : ℕ) (data : Bytes) (b : Bytes) (s : State), s.cmd.isOpen = true ∧ b = List.take (len + 1) data ∧ 16777216 ≤ BitVec.toNat addr ∧ BitVec.toNat addr < 20971520 ∧ BitVec.toNat addr + List.length b ≤ 20971520 ∧ memWf s.cap.mem = true ∧ (s.cap.st = CapState.idle ∨ s.cap.st = CapState.done))
    ∧ (∃ (addr : U32) (len : ℕ) (data : Bytes) (b : Bytes) (s : State), s.cmd.isOpen = true ∧ b = List.take (len + 1) data ∧ 67108864 ≤ BitVec.toNat addr ∧ BitVec.toNat addr < 69206016 ∧ BitVec.toNat addr + List.length b ≤ 69206016 ∧ memWf s.cap.mem = true ∧ s.sys.dev = DevState.boot ∧ s.sys.bootsel = 1 ∧ s.stag.isOpen = true)
    ∧ (∃ (addr : U32) (len : ℕ) (data : Bytes) (b : Bytes) (s : State) (p : ℕ) (e : ℕ), s.cmd.isOpen = true ∧ b = List.take (len + 1) data ∧ p < 6 ∧ e < 32 ∧ 33554432 + 8192 * p + 80 * e ≤ BitVec.toNat addr ∧ BitVec.toNat addr < 33554432 + 8192 * p + 80 * e + 80 ∧ BitVec.toNat addr + List.length b ≤ 33554432 + 8192 * p + 80 * e + 80 ∧ memWf s.can.mem = true ∧ canOwned (getCan s p) e = false)
    ∧ (∃ (addr : U32) (len : ℕ) (data : Bytes) (b : Bytes) (s : State) (p : ℕ) (e : ℕ), s.cmd.isOpen = true ∧ b = List.take (len + 1) data ∧ p < 6 ∧ e < 32 ∧ 33554432 + 8192 * p + 80 * e ≤ BitVec.toNat addr ∧ BitVec.toNat addr < 33554432 + 8192 * p + 80 * e + 80 ∧ BitVec.toNat addr + List.length b ≤ 33554432 + 8192 * p + 80 * e + 80 ∧ memWf s.can.mem = true ∧ canOwned (getCan s p) e = true ∧ b ≠ [])
    ∧ (∃ (addr : U32) (len : ℕ) (data : Bytes) (b : Bytes) (s : State) (p : ℕ), s.cmd.isOpen = true ∧ b = List.take (len + 1) data ∧ p < 6 ∧ 33554432 + 8192 * p + 7680 ≤ BitVec.toNat addr ∧ BitVec.toNat addr < 33554432 + 8192 * p + 7936 ∧ BitVec.toNat addr + List.length b ≤ 33554432 + 8192 * p + 7936 ∧ memWf s.can.mem = true ∧ (getCan s p).bus = CanBus.off) := by
  refine ⟨?_, ?_, ?_, ?_, ?_, ?_, ?_, ?_⟩
  · exact ⟨0x1EFFFF#32, 0, [5, 6], part .config, met⟩
  · exact ⟨0xFFFF#32, 0, [5], part .config, met⟩
  · exact ⟨65536#32, 0, [5], [5], part .config, met⟩
  · exact ⟨16777216#32, 0, [5], [5], part .config, met⟩
  · exact ⟨67108864#32, 0, [5], [5], { inBoot .portOpen 1 with cmd := { (inBoot .portOpen 1).cmd with isOpen := true }, stag := { (inBoot .portOpen 1).stag with isOpen := true } }, met⟩
  · exact ⟨33597872#32, 0, [5], [5], part .config, 5, 31, met⟩
  · exact ⟨33597872#32, 0, [5], [5], canOn 5 (fun x => { x with queue := [31] }), 5, 31, met⟩
  · exact ⟨33603072#32, 0, [5], [5], part .config, 5, met⟩

/-- The hypotheses of `Obligations.BulkWritesStoreOrAreRefused`, met leaf by leaf (part 2 of 2). -/
theorem witness_BulkWritesStoreOrAreRefused_2 :
    (∃ (addr : U32) (len : ℕ) (data : Bytes) (b : Bytes) (s : State) (p : ℕ), s.cmd.isOpen = true ∧ b = List.take (len + 1) data ∧ p < 6 ∧ 33554432 + 8192 * p + 7680 ≤ BitVec.toNat addr ∧ BitVec.toNat addr < 33554432 + 8192 * p + 7936 ∧ BitVec.toNat addr + List.length b ≤ 33554432 + 8192 * p + 7936 ∧ memWf s.can.mem = true ∧ (getCan s p).bus ≠ CanBus.off ∧ b ≠ [])
    ∧ (∃ (addr : U32) (len : ℕ) (data : Bytes) (b : Bytes) (s : State), s.cmd.isOpen = true ∧ b = List.take (len + 1) data ∧ b ≠ [] ∧ 114688 ≤ BitVec.toNat addr ∧ BitVec.toNat addr + List.length b ≤ 131072)
    ∧ (∃ (addr : U32) (len : ℕ) (data : Bytes) (b : Bytes) (s : State), s.cmd.isOpen = true ∧ b = List.take (len + 1) data ∧ b ≠ [] ∧ (50331648 ≤ BitVec.toNat addr ∧ BitVec.toNat addr < 50397184 ∨ 134217728 ≤ BitVec.toNat addr ∧ BitVec.toNat addr < 134221824))
    ∧ (∃ (addr : U32) (len : ℕ) (data : Bytes) (b : Bytes) (s : State) (p : ℕ), s.cmd.isOpen = true ∧ b = List.take (len + 1) data ∧ b ≠ [] ∧ p < 6 ∧ 33554432 + 8192 * p + 2560 ≤ BitVec.toNat addr ∧ (BitVec.toNat addr + List.length b ≤ 33554432 + 8192 * p + 7680 ∨ 33554432 + 8192 * p + 7936 ≤ BitVec.toNat addr ∧ BitVec.toNat addr + List.length b ≤ 33554432 + 8192 * p + 8192))
    ∧ (∃ (addr : U32) (len : ℕ) (data : Bytes) (b : Bytes) (s : State), s.cmd.isOpen = true ∧ b = List.take (len + 1) data ∧ b ≠ [] ∧ 65536 ≤ BitVec.toNat addr ∧ BitVec.toNat addr + List.length b ≤ 114688 ∧ (∀ i < List.length b, coefInUse s ((BitVec.toNat addr - 65536 + i) / 4) = true))
    ∧ (∃ (addr : U32) (len : ℕ) (data : Bytes) (b : Bytes) (s : State), s.cmd.isOpen = true ∧ b = List.take (len + 1) data ∧ b ≠ [] ∧ 1048576 ≤ BitVec.toNat addr ∧ BitVec.toNat addr + List.length b ≤ 2031616 ∧ (∀ i < List.length b, ∃ n, imageOwner s (BitVec.toNat addr - 1048576 + i) = some n ∧ (getStage s n).st ≠ StageState.off))
    ∧ (∃ (addr : U32) (len : ℕ) (data : Bytes) (b : Bytes) (s : State), s.cmd.isOpen = true ∧ b = List.take (len + 1) data ∧ b ≠ [] ∧ 16777216 ≤ BitVec.toNat addr ∧ BitVec.toNat addr < 20971520 ∧ s.cap.st ≠ CapState.idle ∧ s.cap.st ≠ CapState.done)
    ∧ (∃ (addr : U32) (len : ℕ) (data : Bytes) (b : Bytes) (s : State), s.cmd.isOpen = true ∧ b = List.take (len + 1) data ∧ b ≠ [] ∧ 67108864 ≤ BitVec.toNat addr ∧ BitVec.toNat addr < 69206016 ∧ (s.sys.dev ≠ DevState.boot ∨ s.sys.bootsel ≠ 1 ∨ s.stag.isOpen = false)) := by
  refine ⟨?_, ?_, ?_, ?_, ?_, ?_, ?_, ?_⟩
  · exact ⟨33603072#32, 0, [5], [5], canOn 5 id, 5, met⟩
  · exact ⟨114688#32, 0, [5], [5], part .config, met⟩
  · exact ⟨134217728#32, 0, [5], [5], part .config, met⟩
  · exact ⟨33597952#32, 0, [5], [5], part .config, 5, met⟩
  · exact ⟨65536#32, 0, [5], [5], { withSet with flt := { withSet.flt with assignsReq := [asg 79 (some 63) 1 1] } }, met⟩
  · exact ⟨1048576#32, 1, [5, 6], [5, 6], stage7 .enabled id (part .config), met, met, met, met, met, (by intro i hi; exact ⟨7, by revert hi; revert i; decide +kernel⟩)⟩
  · exact ⟨16777216#32, 0, [5], [5], { part .config with cap := { (part .config).cap with st := .armed } }, met⟩
  · exact ⟨67108864#32, 0, [5], [5], part .config, met⟩

/-- The hypotheses of `Obligations.SupplyWarningsAndResets`, met leaf by leaf (part 1 of 2). -/
theorem witness_SupplyWarningsAndResets :
    (∃ (i : ℕ) (v : F32) (held : ℕ) (s : State) (past : Bool), i ≤ 5 ∧ (past = if i = 5 then f32Lt (toF32 150) v else f32Lt v (toF32 (mkRat (↑([765, 765, 1720, 3150, 3150].getD i 0)) 1000))) ∧ past = true ∧ s.sup.flags.getLsbD i = false ∧ (i = 5 ∨ 1000 ≤ held))
    ∧ (∃ (i : ℕ) (v : F32) (held : ℕ) (s : State) (past : Bool), i ≤ 5 ∧ (past = if i = 5 then f32Lt (toF32 150) v else f32Lt v (toF32 (mkRat (↑([765, 765, 1720, 3150, 3150].getD i 0)) 1000))) ∧ (past = false ∨ s.sup.flags.getLsbD i = true ∨ i < 5 ∧ held < 500))
    ∧ (∃ (i : ℕ) (v : F32) (held : ℕ) (s : State) (past : Bool), i ≤ 5 ∧ (past = if i = 5 then f32Lt (toF32 150) v else f32Lt v (toF32 (mkRat (↑([765, 765, 1720, 3150, 3150].getD i 0)) 1000))) ∧ past = false ∧ (i = 5 ∨ 1000 ≤ held))
    ∧ (∃ (i : ℕ) (v : F32) (held : ℕ) (s : State) (past : Bool), i ≤ 5 ∧ (past = if i = 5 then f32Lt (toF32 150) v else f32Lt v (toF32 (mkRat (↑([765, 765, 1720, 3150, 3150].getD i 0)) 1000))) ∧ (past = true ∨ i < 5 ∧ held < 500))
    ∧ (∃ (s : State) (c : Instr) (cause : Byte) (cold : Bool), s.sys.phase ≠ BootPhase.inReset ∧ ((∃ low, 1000 ≤ low ∧ (c = Instr.porst low ∧ cause = 2#8 ∧ cold = true ∨ c = Instr.warmrst low ∧ cause = 0x11#8 ∧ cold = false)) ∨ (∃ tj held, f32Lt (toF32 165) tj = true ∧ 10000 ≤ held ∧ c = Instr.thermal tj held ∧ cause = 4#8 ∧ cold = true) ∨ c = Instr.watchdog ∧ cause = 0x13#8 ∧ cold = false ∨ c = Instr.lockstep ∧ cause = 0x14#8 ∧ cold = false ∨ ∃ rail v held, rail < 5 ∧ f32Lt v (toF32 (mkRat (↑([740, 740, 1650, 3000, 3000].getD rail 0)) 1000)) = true ∧ 1000 ≤ held ∧ c = Instr.brownOut rail v held ∧ (cause = if rail = 2 ∧ f32Lt fOne v = false then 1#8 else 3#8) ∧ cold = true)) := by
  refine ⟨?_, ?_, ?_, ?_, ?_⟩
  · exact ⟨5, 0x43160001#32, 0, part .run, true, met⟩
  · exact ⟨5, 0x43160000#32, 0, part .run, false, met⟩
  · exact ⟨0, toF32 (mkRat 765 1000), 1000, part .run, false, met⟩
  · exact ⟨4, 0, 499, part .run, true, met⟩
  · exact ⟨part .run, .porst 1000, 2, true, met, Or.inl ⟨1000, by decide, Or.inl ⟨rfl, rfl, rfl⟩⟩⟩

/-- The hypotheses of `Obligations.SupplyWarningsAndResets`, met leaf by leaf (part 2 of 2). -/
theorem witness_SupplyWarningsAndResets_2 :
    (∃ (s : State) (low : ℕ), low < 200)
    ∧ (∃ (s : State) (tj : F32) (held : ℕ), (f32Lt (toF32 165) tj = false ∨ held < 10000))
    ∧ (∃ (s : State) (rail : ℕ) (v : F32) (held : ℕ), rail < 5 ∧ (f32Lt v (toF32 (mkRat (↑([740, 740, 1650, 3000, 3000].getD rail 0)) 1000)) = false ∨ held < 500))
    ∧ (∃ (s : State) (c : Instr) (cause : Byte), s.sys.phase = BootPhase.inReset ∧ ((∃ low, 1000 ≤ low ∧ (c = Instr.porst low ∧ cause = 2#8 ∨ c = Instr.warmrst low ∧ cause = 0x11#8)) ∨ ∃ tj held, f32Lt (toF32 165) tj = true ∧ 10000 ≤ held ∧ c = Instr.thermal tj held ∧ cause = 4#8)) := by
  refine ⟨?_, ?_, ?_, ?_⟩
  · exact ⟨State.reset, 199, met⟩
  · exact ⟨State.reset, toF32 165, 10000, met⟩
  · exact ⟨part .run, 4, 0, 499, met⟩
  · exact ⟨State.reset, .porst 1000, 2, met, Or.inl ⟨1000, by decide, Or.inl ⟨rfl, rfl⟩⟩⟩

/-- The hypotheses of `Obligations.BootStepsInOrder`, met leaf by leaf. -/
theorem witness_BootStepsInOrder :
    (∃ (s : State) (bs : ℕ) (rails : List F32) (held : ℕ) (clear : ℕ), s.sys.phase = BootPhase.inReset ∧ 1000 ≤ held ∧ (∀ i < 5, f32Lt (toF32 (mkRat (↑([755, 755, 1680, 3050, 3050].getD i 0)) 1000)) (rails.getD i 0) = true) ∧ (s.sys.intern = true → 10000 ≤ clear))
    ∧ (∃ (s : State) (bs : ℕ) (rails : List F32) (held : ℕ) (pn : Bool) (wn : Bool) (clear : ℕ), (pn = false ∨ wn = false ∨ (∃ i < 5, f32Lt (toF32 (mkRat (↑([755, 755, 1680, 3050, 3050].getD i 0)) 1000)) (rails.getD i 0) = false) ∨ held < 500 ∨ s.sys.intern = true ∧ clear < 10000 ∨ s.sys.phase ≠ BootPhase.inReset))
    ∧ (∃ (s : State) (st : Option ℕ), s.sys.phase = BootPhase.wiping)
    ∧ (∃ (s : State), s.sys.phase = BootPhase.selfTest)
    ∧ (∃ (s : State), s.sys.phase = BootPhase.portOpen ∧ s.sys.bootsel = 0)
    ∧ (∃ (s : State) (f : List (ℕ × ℕ)) (st : Option ℕ), s.sys.phase ≠ BootPhase.wiping)
    ∧ (∃ (s : State), s.sys.phase ≠ BootPhase.selfTest)
    ∧ (∃ (s : State), s.sys.phase ≠ BootPhase.portOpen) := by
  refine ⟨?_, ?_, ?_, ?_, ?_, ?_, ?_, ?_⟩
  · exact ⟨{ State.reset with sys := { State.reset.sys with intern := true } }, 3, List.replicate 5 0x40A00000#32, 1000, 10000, met⟩
  · exact ⟨State.reset, 3, List.replicate 5 0x40A00000#32, 1000, false, true, 0, met⟩
  · exact ⟨inBoot .wiping 0, some 3, met⟩
  · exact ⟨inBoot .selfTest 0, met⟩
  · exact ⟨inBoot .portOpen 0, met⟩
  · exact ⟨State.reset, [], none, met⟩
  · exact ⟨inBoot .inReset 0, met⟩
  · exact ⟨inBoot .inReset 0, met⟩

/-- The hypotheses of `Obligations.ImagesAreStagedVerifiedAndStarted`, met leaf by leaf. -/
theorem witness_ImagesAreStagedVerifiedAndStarted :
    (∃ (s : State) (tag : Option ℕ) (ip : U32) (port : U16) (b : Bytes), ethUp s 0 = false)
    ∧ (∃ (s : State) (tag : Option ℕ) (ip : U32) (port : U16) (b : Bytes), ethUp s 0 = true ∧ (¬arrives s 0 tag (List.length b + 46)))
    ∧ (∃ (s : State) (tag : Option ℕ) (ip : U32) (port : U16) (b : Bytes) (n : ℕ), s.sys.phase = BootPhase.portOpen ∧ s.sys.bootsel = 2 ∧ s.stag.verifying = none ∧ s.stag.verified = none ∧ memWf s.cap.mem = true ∧ bytesLost s 42 (n32At b 4) n = false ∧ arrives s 0 tag (List.length b + 46) ∧ n = n16At b 8 ∧ List.length b = 16 + n ∧ 0 < n ∧ n ≤ 1024 ∧ u32At b (12 + n) = crc32c (List.take (12 + n) b) ∧ u32At b 0 = 0x4D495A4F#32 ∧ n32At b 4 ≤ 2096128 ∧ n16At b 10 ≤ 1)
    ∧ (∃ (s : State) (via : Transport) (r : Req), Takes 0xF03#16 via s r ∧ s.sys.dev = DevState.boot ∧ s.sys.bootsel = 1 ∧ List.length (reqParams r) = 4 ∧ 528 ≤ n32At (reqParams r) 0 ∧ n32At (reqParams r) 0 ≤ 2097152 ∧ bytesLost s 42 0 (n32At (reqParams r) 0) = false ∧ s.stag.verifying = none ∧ s.stag.verified = none)
    ∧ (∃ (s : State) (v : Verification), s.stag.verifying = some v)
    ∧ (∃ (s : State) (v : U32 × U16), s.sys.phase = BootPhase.portOpen ∧ s.stag.verified = some v) := by
  refine ⟨?_, ?_, ?_, ?_, ?_, ?_⟩
  · exact ⟨inBoot .portOpen 2, none, 1, 2, stagedPkt, met⟩
  · exact ⟨ethOn (inBoot .portOpen 2), some 1, 1, 2, stagedPkt, met⟩
  · exact ⟨ethOn (inBoot .portOpen 2), none, 1, 2, stagedPkt, 1, met⟩
  · exact ⟨ask { inBoot .portOpen 1 with cmd := (part .config).cmd } 0x0F03 [16, 2, 0, 0], .cmd, mk 0x0F03 [16, 2, 0, 0], met⟩
  · exact ⟨({ inBoot .portOpen 1 with stag := { stag0 with verifying := some { start := 5, staged := 528, sender := none } } }), ({ start := 5, staged := 528, sender := none }), met⟩
  · exact ⟨({ inBoot .portOpen 1 with stag := { stag0 with verified := some (1, 2) } }), (1, 2), met⟩

/-- The hypotheses of `Obligations.StartGovernorServesInOrder`, met leaf by leaf (part 1 of 2). -/
theorem witness_StartGovernorServesInOrder :
    (∃ (s : State) (e : GovEntry) (q : List GovEntry) (t0 : ℕ) (u : State), s.gov.release = e :: q ∧ t0 = max s.time.raw (match s.gov.lastRelease with | some l => l + 1000000 | none => 0) ∧ (u = updStage e.unit (fun x => { x with waitStart := true }) { s with time := { s.time with raw := t0 }, sys := { s.sys with safeOffA := gatesPass s, safeOffB := gatesPass s, released := true }, gov := { s.gov with release := q, lastRelease := some t0 } }) ∧ prechargeWaits u e.unit = false)
    ∧ (∃ (s : State) (e : GovEntry) (q : List GovEntry) (t0 : ℕ) (u : State), s.gov.release = e :: q ∧ t0 = max s.time.raw (match s.gov.lastRelease with | some l => l + 1000000 | none => 0) ∧ (u = updStage e.unit (fun x => { x with waitStart := true }) { s with time := { s.time with raw := t0 }, sys := { s.sys with safeOffA := gatesPass s, safeOffB := gatesPass s, released := true }, gov := { s.gov with release := q, lastRelease := some t0 } }) ∧ prechargeWaits u e.unit = true)
    ∧ (∃ (s : State) (e : GovEntry) (q : List GovEntry), s.gov.precharge = e :: q ∧ (∀ n < 8, (stageHbs s n).contains e.unit = false))
    ∧ (∃ (s : State) (e : GovEntry) (q : List GovEntry) (n : ℕ), s.gov.precharge = e :: q ∧ n < 8 ∧ (stageHbs s n).contains e.unit = true ∧ (∀ k < n, (stageHbs s k).contains e.unit = false) ∧ (getStage s n).st = StageState.starting)
    ∧ (∃ (s : State) (e : GovEntry) (q : List GovEntry) (n : ℕ), s.gov.precharge = e :: q ∧ n < 8 ∧ (stageHbs s n).contains e.unit = true ∧ (∀ k < n, (stageHbs s k).contains e.unit = false) ∧ (getStage s n).st = StageState.off ∧ swapPending s n = true)
    ∧ (∃ (s : State) (e : GovEntry) (q : List GovEntry) (n : ℕ), s.gov.precharge = e :: q ∧ n < 8 ∧ (stageHbs s n).contains e.unit = true ∧ (∀ k < n, (stageHbs s k).contains e.unit = false) ∧ (getStage s n).st = StageState.off ∧ swapPending s n = false) := by
  refine ⟨?_, ?_, ?_, ?_, ?_, ?_⟩
  · exact ⟨{ part .run with gov := { gov0 with release := [({ unit := 7, opcode := 0, tag := 0, owed := none } : GovEntry)] } }, ({ unit := 7, opcode := 0, tag := 0, owed := none } : GovEntry), [], 0, updStage 7 (fun x => { x with waitStart := true }) { ({ part .run with gov := { gov0 with release := [({ unit := 7, opcode := 0, tag := 0, owed := none } : GovEntry)] } }) with time := { ({ part .run with gov := { gov0 with release := [({ unit := 7, opcode := 0, tag := 0, owed := none } : GovEntry)] } }).time with raw := 0 }, sys := { ({ part .run with gov := { gov0 with release := [({ unit := 7, opcode := 0, tag := 0, owed := none } : GovEntry)] } }).sys with safeOffA := gatesPass ({ part .run with gov := { gov0 with release := [({ unit := 7, opcode := 0, tag := 0, owed := none } : GovEntry)] } }), safeOffB := gatesPass ({ part .run with gov := { gov0 with release := [({ unit := 7, opcode := 0, tag := 0, owed := none } : GovEntry)] } }), released := true }, gov := { ({ part .run with gov := { gov0 with release := [({ unit := 7, opcode := 0, tag := 0, owed := none } : GovEntry)] } }).gov with release := [], lastRelease := some 0 } }, met⟩
  · exact ⟨{ updGroup 31 (fun x => { x with timer := some 23 }) (updChan 95 (fun x => { x with role := 1, group := 31 }) (island .run)) with gov := { gov0 with release := [({ unit := 7, opcode := 0, tag := 0, owed := none } : GovEntry)], lastPre := some 0 } }, ({ unit := 7, opcode := 0, tag := 0, owed := none } : GovEntry), [], 0, updStage 7 (fun x => { x with waitStart := true }) { ({ updGroup 31 (fun x => { x with timer := some 23 }) (updChan 95 (fun x => { x with role := 1, group := 31 }) (island .run)) with gov := { gov0 with release := [({ unit := 7, opcode := 0, tag := 0, owed := none } : GovEntry)], lastPre := some 0 } }) with time := { ({ updGroup 31 (fun x => { x with timer := some 23 }) (updChan 95 (fun x => { x with role := 1, group := 31 }) (island .run)) with gov := { gov0 with release := [({ unit := 7, opcode := 0, tag := 0, owed := none } : GovEntry)], lastPre := some 0 } }).time with raw := 0 }, sys := { ({ updGroup 31 (fun x => { x with timer := some 23 }) (updChan 95 (fun x => { x with role := 1, group := 31 }) (island .run)) with gov := { gov0 with release := [({ unit := 7, opcode := 0, tag := 0, owed := none } : GovEntry)], lastPre := some 0 } }).sys with safeOffA := gatesPass ({ updGroup 31 (fun x => { x with timer := some 23 }) (updChan 95 (fun x => { x with role := 1, group := 31 }) (island .run)) with gov := { gov0 with release := [({ unit := 7, opcode := 0, tag := 0, owed := none } : GovEntry)], lastPre := some 0 } }), safeOffB := gatesPass ({ updGroup 31 (fun x => { x with timer := some 23 }) (updChan 95 (fun x => { x with role := 1, group := 31 }) (island .run)) with gov := { gov0 with release := [({ unit := 7, opcode := 0, tag := 0, owed := none } : GovEntry)], lastPre := some 0 } }), released := true }, gov := { ({ updGroup 31 (fun x => { x with timer := some 23 }) (updChan 95 (fun x => { x with role := 1, group := 31 }) (island .run)) with gov := { gov0 with release := [({ unit := 7, opcode := 0, tag := 0, owed := none } : GovEntry)], lastPre := some 0 } }).gov with release := [], lastRelease := some 0 } }, met⟩
  · exact ⟨{ part .run with gov := { gov0 with precharge := [({ unit := 1, opcode := 0, tag := 0, owed := none } : GovEntry)] } }, ({ unit := 1, opcode := 0, tag := 0, owed := none } : GovEntry), [], met⟩
  · exact ⟨{ stage7 .starting id (updGroup 31 (fun x => { x with timer := some 23 }) (updChan 95 (fun x => { x with role := 1, group := 31 }) (island .run))) with gov := { gov0 with precharge := [({ unit := 7, opcode := 0, tag := 0, owed := none } : GovEntry)] } }, ({ unit := 7, opcode := 0, tag := 0, owed := none } : GovEntry), [], 7, met⟩
  · exact ⟨{ stage7 .off id (updGroup 31 (fun x => { x with timer := some 23 }) (updChan 95 (fun x => { x with role := 1, group := 31 }) (island .run))) with gov := { gov0 with precharge := [({ unit := 7, opcode := 0, tag := 0, owed := none } : GovEntry)] }, rel := { (island .run).rel with waiting := [retire4] } }, ({ unit := 7, opcode := 0, tag := 0, owed := none } : GovEntry), [], 7, met⟩
  · exact ⟨{ stage7 .off id (updGroup 31 (fun x => { x with timer := some 23 }) (updChan 95 (fun x => { x with role := 1, group := 31 }) (island .run))) with gov := { gov0 with precharge := [({ unit := 7, opcode := 0, tag := 0, owed := none } : GovEntry)] } }, ({ unit := 7, opcode := 0, tag := 0, owed := none } : GovEntry), [], 7, met⟩

/-- The hypotheses of `Obligations.StartGovernorServesInOrder`, met leaf by leaf (part 2 of 2). -/
theorem witness_StartGovernorServesInOrder_2 :
    (∃ (s : State) (e : GovEntry) (q : List GovEntry) (n : ℕ), s.gov.precharge = e :: q ∧ n < 8 ∧ (stageHbs s n).contains e.unit = true ∧ (∀ k < n, (stageHbs s k).contains e.unit = false) ∧ (getStage s n).st ≠ StageState.starting ∧ (getStage s n).st ≠ StageState.off)
    ∧ (∃ (s : State) (h : ℕ) (t0 : ℕ) (vBoot : F32), (getHb s h).preEnd = some t0)
    ∧ (∃ (s : State), s.gov.release = [])
    ∧ (∃ (s : State), s.gov.precharge = [])
    ∧ (∃ (s : State) (h : ℕ) (vBoot : F32), (getHb s h).preEnd = none) := by
  refine ⟨?_, ?_, ?_, ?_, ?_⟩
  · exact ⟨{ stage7 .enabled id (updGroup 31 (fun x => { x with timer := some 23 }) (updChan 95 (fun x => { x with role := 1, group := 31 }) (island .run))) with gov := { gov0 with precharge := [({ unit := 7, opcode := 0, tag := 0, owed := none } : GovEntry)] } }, ({ unit := 7, opcode := 0, tag := 0, owed := none } : GovEntry), [], 7, met⟩
  · exact ⟨({ part .run with pwm := (updHb 7 (fun x => { x with preEnd := some 3 }) (part .run)).pwm }), 7, 3, 0x41200000#32, met⟩
  · exact ⟨({ part .run with pwm := (updHb 7 (fun x => { x with preEnd := some 3 }) (part .run)).pwm }), met⟩
  · exact ⟨({ part .run with pwm := (updHb 7 (fun x => { x with preEnd := some 3 }) (part .run)).pwm }), met⟩
  · exact ⟨part .run, 7, 0, met⟩

/-- The hypotheses of `Obligations.ClockRequests`, met leaf by leaf (part 1 of 2). -/
theorem witness_ClockRequests :
    (∃ (via : Transport) (s : State) (r : Req) (i : ℕ), s.sys.dev ≠ DevState.boot ∧ n8At (reqParams r) 0 = i ∧ i < 2 ∧ relockRefused s i = false ∧ relocking (getPll s i) = false ∧ Takes 0x200#16 via s r ∧ List.length (reqParams r) = 16 ∧ n8At (reqParams r) 3 = 0 ∧ planOk i (planAt (reqParams r) 0) = true ∧ planTooFast s i (planAt (reqParams r) 0) = true)
    ∧ (∃ (via : Transport) (s : State) (r : Req) (i : ℕ), s.sys.dev ≠ DevState.boot ∧ n8At (reqParams r) 0 = i ∧ i < 2 ∧ relockRefused s i = false ∧ relocking (getPll s i) = false ∧ Takes 0x200#16 via s r ∧ List.length (reqParams r) = 16 ∧ n8At (reqParams r) 3 = 0 ∧ planOk i (planAt (reqParams r) 0) = true ∧ planTooFast s i (planAt (reqParams r) 0) = false ∧ classFull s 0x200#16 = false)
    ∧ (∃ (via : Transport) (s : State) (r : Req) (i : ℕ) (q : Profile), s.sys.dev ≠ DevState.boot ∧ n8At (reqParams r) 0 = i ∧ i < 2 ∧ relockRefused s i = false ∧ relocking (getPll s i) = false ∧ Takes 0x201#16 via s r ∧ List.length (reqParams r) = 4 ∧ n8At (reqParams r) 1 < 8 ∧ zeroAt (reqParams r) 2 2 = true ∧ (getPll s i).profiles.getD (n8At (reqParams r) 1) none = some q ∧ planTooFast s i q.plan = true)
    ∧ (∃ (via : Transport) (s : State) (r : Req) (i : ℕ) (q : Profile), s.sys.dev ≠ DevState.boot ∧ n8At (reqParams r) 0 = i ∧ i < 2 ∧ relockRefused s i = false ∧ relocking (getPll s i) = false ∧ Takes 0x201#16 via s r ∧ List.length (reqParams r) = 4 ∧ n8At (reqParams r) 1 < 8 ∧ zeroAt (reqParams r) 2 2 = true ∧ (getPll s i).profiles.getD (n8At (reqParams r) 1) none = some q ∧ planTooFast s i q.plan = false ∧ classFull s 0x201#16 = false)
    ∧ (∃ (via : Transport) (s : State) (r : Req) (i : ℕ), s.sys.dev ≠ DevState.boot ∧ Takes 0x202#16 via s r ∧ List.length (reqParams r) = 4 ∧ n8At (reqParams r) 0 = i ∧ i < 2 ∧ n8At (reqParams r) 1 < 8 ∧ zeroAt (reqParams r) 2 2 = true ∧ pllLocked s i = true) := by
  refine ⟨?_, ?_, ?_, ?_, ?_⟩
  · exact ⟨.cmd, ask (({ locked2 with clk := { locked2.clk with outs := upd locked2.clk.outs 0 (fun x => { x with enable := true, divider := 1 }) }, sense := { locked2.sense with chans := upd locked2.sense.chans 0 (fun x => { x with delay := 100 }) } })) 0x0200 [1, 0, 0, 0, 32, 188, 190, 75, 40, 107, 110, 79, 0, 36, 244, 72], mk 0x0200 [1, 0, 0, 0, 32, 188, 190, 75, 40, 107, 110, 79, 0, 36, 244, 72], 1, met⟩
  · exact ⟨.cmd, ask locked2 0x0200 [0, 0, 0, 0, 32, 188, 190, 75, 40, 107, 110, 79, 0, 36, 244, 72], mk 0x0200 [0, 0, 0, 0, 32, 188, 190, 75, 40, 107, 110, 79, 0, 36, 244, 72], 0, met⟩
  · exact ⟨.cmd, ask (updPll 1 (fun x => { x with profiles := [none, some prof0] }) ({ locked2 with clk := { locked2.clk with outs := upd locked2.clk.outs 0 (fun x => { x with enable := true, divider := 1 }) }, sense := { locked2.sense with chans := upd locked2.sense.chans 0 (fun x => { x with delay := 100 }) } })) 0x0201 [1, 1, 0, 0], mk 0x0201 [1, 1, 0, 0], 1, prof0, met⟩
  · exact ⟨.cmd, ask (updPll 1 (fun x => { x with profiles := [none, some prof0] }) locked2) 0x0201 [1, 1, 0, 0], mk 0x0201 [1, 1, 0, 0], 1, prof0, met⟩
  · exact ⟨.cmd, ask locked2 0x0202 [1, 7, 0, 0], mk 0x0202 [1, 7, 0, 0], 1, met⟩

/-- The hypotheses of `Obligations.ClockRequests`, met leaf by leaf (part 2 of 2). -/
theorem witness_ClockRequests_2 :
    (∃ (via : Transport) (s : State) (r : Req) (o : Byte) (en : Byte) (cmos : Byte) (lvl : Byte) (src : Byte) (d : U16) (ph : U16) (f : ℚ), s.sys.dev ≠ DevState.boot ∧ Takes 0x203#16 via s r ∧ reqParams r = [o, en, cmos, lvl] ++ le16 d ++ le16 ph ++ [src, 0, 0, 0] ∧ BitVec.toNat en < 2 ∧ BitVec.toNat cmos < 2 ∧ BitVec.toNat lvl < 3 ∧ BitVec.toNat ph < BitVec.toNat d ∧ f = outBase s (BitVec.toNat o) (BitVec.toNat src) / ↑(BitVec.toNat d) ∧ o = 8 ∧ BitVec.toNat src < 4 ∧ 4 ≤ BitVec.toNat d ∧ BitVec.toNat d ≤ 4000 ∧ (f ≤ if cmos = 1 then 100000000 else 250000000))
    ∧ (∃ (via : Transport) (s : State) (r : Req) (o : Byte) (en : Byte) (cmos : Byte) (lvl : Byte) (src : Byte) (d : U16) (ph : U16) (f : ℚ), s.sys.dev ≠ DevState.boot ∧ Takes 0x203#16 via s r ∧ reqParams r = [o, en, cmos, lvl] ++ le16 d ++ le16 ph ++ [src, 0, 0, 0] ∧ BitVec.toNat en < 2 ∧ BitVec.toNat cmos < 2 ∧ BitVec.toNat lvl < 3 ∧ BitVec.toNat ph < BitVec.toNat d ∧ f = outBase s (BitVec.toNat o) (BitVec.toNat src) / ↑(BitVec.toNat d) ∧ o = 9 ∧ src = 0 ∧ cmos = 0 ∧ f = 100000000)
    ∧ (∃ (via : Transport) (s : State) (r : Req) (o : Byte) (en : Byte) (cmos : Byte) (lvl : Byte) (src : Byte) (d : U16) (ph : U16) (f : ℚ), s.sys.dev ≠ DevState.boot ∧ Takes 0x203#16 via s r ∧ reqParams r = [o, en, cmos, lvl] ++ le16 d ++ le16 ph ++ [src, 0, 0, 0] ∧ BitVec.toNat en < 2 ∧ BitVec.toNat cmos < 2 ∧ BitVec.toNat lvl < 3 ∧ BitVec.toNat ph < BitVec.toNat d ∧ f = outBase s (BitVec.toNat o) (BitVec.toNat src) / ↑(BitVec.toNat d) ∧ BitVec.toNat o < 8 ∧ src = 0 ∧ 75 ≤ BitVec.toNat d ∧ BitVec.toNat d ≤ 800 ∧ 5000000 ≤ f ∧ f ≤ 40000000 ∧ (∀ i < 6, readLive s (6 * BitVec.toNat o + i) = false) ∧ (∀ i < 6, ∀ w ∈ delaysOf s (6 * BitVec.toNat o + i), delayTooLong w (1000000000 / f) = false))
    ∧ (∃ (via : Transport) (s : State) (r : Req) (o : Byte) (en : Byte) (cmos : Byte) (lvl : Byte) (src : Byte) (d : U16) (ph : U16), s.sys.dev ≠ DevState.boot ∧ Takes 0x203#16 via s r ∧ reqParams r = [o, en, cmos, lvl] ++ le16 d ++ le16 ph ++ [src, 0, 0, 0] ∧ BitVec.toNat en < 2 ∧ BitVec.toNat cmos < 2 ∧ BitVec.toNat lvl < 3 ∧ BitVec.toNat ph < BitVec.toNat d ∧ (getPll s 0).state ≠ PllState.verify ∧ (getPll s 1).state ≠ PllState.verify) := by
  refine ⟨?_, ?_, ?_, ?_⟩
  · exact ⟨.cmd, ask (locked2) 0x0203 [8, 1, 1, 2, 4, 0, 3, 0, 3, 0, 0, 0], mk 0x0203 [8, 1, 1, 2, 4, 0, 3, 0, 3, 0, 0, 0], 8, 1, 1, 2, 3, 4, 3, 25000000, met⟩
  · exact ⟨.cmd, ask (locked2) 0x0203 [9, 1, 0, 2, 32, 0, 31, 0, 0, 0, 0, 0], mk 0x0203 [9, 1, 0, 2, 32, 0, 31, 0, 0, 0, 0, 0], 9, 1, 0, 2, 0, 32, 31, 100000000, met⟩
  · exact ⟨.cmd, ask (locked2) 0x0203 [7, 1, 0, 2, 80, 0, 79, 0, 0, 0, 0, 0], mk 0x0203 [7, 1, 0, 2, 80, 0, 79, 0, 0, 0, 0, 0], 7, 1, 0, 2, 0, 80, 79, 40000000, met⟩
  · exact ⟨.cmd, ask (locked2) 0x0203 [8, 1, 1, 2, 4, 0, 3, 0, 3, 0, 0, 0], mk 0x0203 [8, 1, 1, 2, 4, 0, 3, 0, 3, 0, 0, 0], 8, 1, 1, 2, 3, 4, 3, met⟩

/-- The hypotheses of `Obligations.RelocksLocksAndLosses`, met leaf by leaf (part 1 of 2). -/
theorem witness_RelocksLocksAndLosses :
    (∃ (i : ℕ) (hop : Bool) (req : Option U16) (k : ℕ) (s : State), i < 2 ∧ s.clk.plls.length = 2 ∧ i = 0 ∧ s.time.onFallback.getD 0 true = false)
    ∧ (∃ (i : ℕ) (hop : Bool) (req : Option U16) (k : ℕ) (s : State), i < 2 ∧ s.clk.plls.length = 2 ∧ i = 1)
    ∧ (∃ (i : ℕ) (s : State) (k : Relock) (hopLocked : Bool) (band : BitVec 6) (fine : U32) (f : F32) (rms : F32) (edge : ℕ), i < 2 ∧ s.clk.plls.length = 2 ∧ (getPll s i).state = PllState.search ∧ (getPll s i).relock = some k)
    ∧ (∃ (i : ℕ) (s : State) (out : ℕ), i < 2 ∧ s.clk.plls.length = 2 ∧ ((getPll s i).state = PllState.verify ∨ (getPll s i).state = PllState.locked) ∧ (pllOutputs s i).contains out = true ∧ (getPll s i).gated.contains out = true)
    ∧ (∃ (i : ℕ) (s : State) (out : ℕ), i < 2 ∧ s.clk.plls.length = 2 ∧ ((getPll s i).state ≠ PllState.verify ∧ (getPll s i).state ≠ PllState.locked ∨ (pllOutputs s i).contains out = false ∨ (getPll s i).gated.contains out = false))
    ∧ (∃ (i : ℕ) (s : State) (hopLocked : Bool) (band : BitVec 6) (fine : U32) (f : F32) (rms : F32) (edge : ℕ), i < 2 ∧ s.clk.plls.length = 2 ∧ (getPll s i).state ≠ PllState.search) := by
  refine ⟨?_, ?_, ?_, ?_, ?_, ?_⟩
  · exact ⟨0, true, none, 2, ({ locked2 with time := { locked2.time with onFallback := List.replicate 5 false, raw := 9 } }), met⟩
  · exact ⟨1, true, none, 2, locked2, met⟩
  · exact ⟨1, pllSt 1 .search (updPll 1 (fun x => { x with relock := some relk }) locked2), relk, false, 3, 4, 0x4F6E6B28#32, 5, 0, met⟩
  · exact ⟨0, pllSt 0 .verify (updPll 0 (fun x => { x with gated := [2, 3] }) locked2), 3, met⟩
  · exact ⟨1, locked2, 2, met⟩
  · exact ⟨1, locked2, true, 3, 4, 0, 0, 0, met⟩

/-- The hypotheses of `Obligations.RelocksLocksAndLosses`, met leaf by leaf (part 2 of 2). -/
theorem witness_RelocksLocksAndLosses_2 :
    (∃ (i : ℕ) (s : State) (reason : ℕ), i < 2 ∧ s.clk.plls.length = 2 ∧ (getPll s i).state ≠ PllState.locked ∧ (getPll s i).state ≠ PllState.verify)
    ∧ (∃ (i : ℕ) (s : State), i < 2 ∧ s.clk.plls.length = 2 ∧ (getPll s i).state ≠ PllState.lost)
    ∧ (∃ (i : ℕ) (s : State) (reason : ℕ), i < 2 ∧ s.clk.plls.length = 2 ∧ ((getPll s i).state = PllState.locked ∨ (getPll s i).state = PllState.verify) ∧ allStagesOff s = true)
    ∧ (∃ (i : ℕ) (s : State) (reason : ℕ), i < 2 ∧ s.clk.plls.length = 2 ∧ ((getPll s i).state = PllState.locked ∨ (getPll s i).state = PllState.verify) ∧ allStagesOff s = false ∧ s.sys.dev = DevState.run ∧ s.safe.causes = 0)
    ∧ (∃ (i : ℕ) (s : State), i < 2 ∧ s.clk.plls.length = 2 ∧ (getPll s i).state = PllState.lost) := by
  refine ⟨?_, ?_, ?_, ?_, ?_⟩
  · exact ⟨1, part .config, 2, met⟩
  · exact ⟨1, locked2, met⟩
  · exact ⟨1, pllSt 1 .verify (updPll 1 (fun x => { x with gated := [2, 9] }) locked2), 9, met⟩
  · exact ⟨1, pllSt 1 .locked { (part .run) with loop := { (part .run).loop with stages := upd (part .run).loop.stages 0 (fun x => { x with st := .enabled }) } }, 2, met⟩
  · exact ⟨0, pllSt 0 .lost locked2, met⟩

/-- The hypotheses of `Obligations.TimeNeverStepsOrReverses`, met leaf by leaf. -/
theorem witness_TimeNeverStepsOrReverses :
    (∃ (d : ℕ) (k : ℕ) (rho : ℤ) (s : State) (n : ℕ), d < s.time.domains.length)
    ∧ (∃ (t : Thyme) (r1 : ℕ) (r2 : ℕ), r1 ≤ r2 ∧ -2 ^ 31 ≤ (t.domains.getD t.active Domain0).rho ∧ (t.domains.getD t.active Domain0).rho < 2 ^ 31 ∧ (∀ (w : Switch), t.switch = some w → w.start ≤ r1 ∧ w.slew ≤ 100000)) := by
  refine ⟨?_, ?_⟩
  · exact ⟨3, 0, 0, part .config, 0, met⟩
  · exact ⟨({ (part .config).time with switch := some swch }), 0, 100, met⟩

/-- The hypotheses of `Obligations.TimeRequests`, met leaf by leaf (part 1 of 2). -/
theorem witness_TimeRequests :
    (∃ (via : Transport) (s : State) (r : Req) (p : Bytes) (d : ℕ) (k : ℕ), s.sys.dev ≠ DevState.boot ∧ reqParams r = p ∧ n8At p 0 = d ∧ Takes 0x300#16 via s r ∧ List.length p = 36 ∧ n8At p 1 = k ∧ d < 4 ∧ k < 6 ∧ s.time.domains.length = 4 ∧ (n8At p 2 < 4 ∨ n8At p 2 = 255) ∧ n8At p 2 ≠ d ∧ n8At p 3 < 2 ∧ f32In (u32At p 16) (1 / 100) 4 = true ∧ 10 ≤ n32At p 20 ∧ n32At p 20 ≤ 1000000 ∧ 1000 ≤ n32At p 24 ∧ n32At p 24 ≤ 1000000000 ∧ 1 ≤ n32At p 28 ∧ n32At p 28 ≤ 3600 ∧ 100 ≤ n32At p 32 ∧ n32At p 32 ≤ 100000 ∧ (∀ i < 4, i ≠ d → k ≥ 3 → (getTd s i).source ≠ srcOf k) ∧ d ≠ s.time.active)
    ∧ (∃ (via : Transport) (s : State) (r : Req) (p : Bytes) (d : ℕ) (k : ℕ), s.sys.dev ≠ DevState.boot ∧ reqParams r = p ∧ n8At p 0 = d ∧ Takes 0x300#16 via s r ∧ List.length p = 36 ∧ n8At p 1 = k ∧ d < 4 ∧ k < 6 ∧ s.time.domains.length = 4 ∧ (n8At p 2 < 4 ∨ n8At p 2 = 255) ∧ n8At p 2 ≠ d ∧ n8At p 3 < 2 ∧ f32In (u32At p 16) (1 / 100) 4 = true ∧ 10 ≤ n32At p 20 ∧ n32At p 20 ≤ 1000000 ∧ 1000 ≤ n32At p 24 ∧ n32At p 24 ≤ 1000000000 ∧ 1 ≤ n32At p 28 ∧ n32At p 28 ≤ 3600 ∧ 100 ≤ n32At p 32 ∧ n32At p 32 ≤ 100000 ∧ (∀ i < 4, i ≠ d → k ≥ 3 → (getTd s i).source ≠ srcOf k) ∧ d = s.time.active ∧ srcOf k = (getTd s d).source ∧ u64At p 4 = (getTd s d).initCfg ∧ i32At p 12 = (getTd s d).rateCfg)
    ∧ (∃ (via : Transport) (s : State) (r : Req) (p : Bytes) (d : ℕ) (k : ℕ), s.sys.dev ≠ DevState.boot ∧ reqParams r = p ∧ n8At p 0 = d ∧ Takes 0x300#16 via s r ∧ List.length p = 36 ∧ n8At p 1 = k ∧ d < 4 ∧ k < 6 ∧ s.time.domains.length = 4 ∧ (n8At p 2 < 4 ∨ n8At p 2 = 255) ∧ n8At p 2 ≠ d ∧ n8At p 3 < 2 ∧ f32In (u32At p 16) (1 / 100) 4 = true ∧ 10 ≤ n32At p 20 ∧ n32At p 20 ≤ 1000000 ∧ 1000 ≤ n32At p 24 ∧ n32At p 24 ≤ 1000000000 ∧ 1 ≤ n32At p 28 ∧ n32At p 28 ≤ 3600 ∧ 100 ≤ n32At p 32 ∧ n32At p 32 ≤ 100000 ∧ (∀ i < 4, i ≠ d → k ≥ 3 → (getTd s i).source ≠ srcOf k) ∧ d = s.time.active ∧ (srcOf k ≠ (getTd s d).source ∨ u64At p 4 ≠ (getTd s d).initCfg ∨ i32At p 12 ≠ (getTd s d).rateCfg))
    ∧ (∃ (via : Transport) (s : State) (r : Req) (p : Bytes) (d : ℕ) (e : ℤ) (c : ℕ) (ok : Bool) (t : State), s.sys.dev ≠ DevState.boot ∧ reqParams r = p ∧ n8At p 0 = d ∧ Takes 0x301#16 via s r ∧ List.length p = 24 ∧ d < 4 ∧ zeroAt p 20 4 = true ∧ (getTd s d).source = TdSource.host ∧ (n8At p 1 = 1 ∧ zeroAt p 2 6 = true ∧ c = s.time.raw ∧ e = i64At p 8 * 2 ^ 32 + ↑(n32At p 16) ∨ n8At p 1 = 0 ∧ ∃ v, stampValue s (u32At p 4) (u16At p 2) = some v ∧ c = mapBack v (s.time.raw, activeFixed s.time s.time.raw) s.time.history ∧ e = ↑(n64At p 8) * 2 ^ 32 + ↑(n32At p 16) - domTime (getTd s d) c) ∧ servoSample d e c (taken s via) = (ok, t))
    ∧ (∃ (via : Transport) (s : State) (r : Req) (p : Bytes) (d : ℕ), s.sys.dev ≠ DevState.boot ∧ reqParams r = p ∧ n8At p 0 = d ∧ Takes 0x301#16 via s r ∧ List.length p = 24 ∧ d < 4 ∧ zeroAt p 20 4 = true ∧ (getTd s d).source = TdSource.host ∧ n8At p 1 = 0 ∧ stampValue s (u32At p 4) (u16At p 2) = none) := by
  refine ⟨?_, ?_, ?_, ?_, ?_⟩
  · exact ⟨.cmd, ask (part .config) 0x0300 [3, 5, 255, 0, 0, 0, 0, 0, 0, 0, 0, 0, 0, 0, 0, 0, 0, 0, 128, 63, 10, 0, 0, 0, 232, 3, 0, 0, 16, 14, 0, 0, 160, 134, 1, 0], mk 0x0300 [3, 5, 255, 0, 0, 0, 0, 0, 0, 0, 0, 0, 0, 0, 0, 0, 0, 0, 128, 63, 10, 0, 0, 0, 232, 3, 0, 0, 16, 14, 0, 0, 160, 134, 1, 0], [3, 5, 255, 0, 0, 0, 0, 0, 0, 0, 0, 0, 0, 0, 0, 0, 0, 0, 128, 63, 10, 0, 0, 0, 232, 3, 0, 0, 16, 14, 0, 0, 160, 134, 1, 0], 3, 5, met⟩
  · exact ⟨.cmd, ask (part .config) 0x0300 [0, 1, 255, 0, 0, 0, 0, 0, 0, 0, 0, 0, 0, 0, 0, 0, 0, 0, 128, 63, 10, 0, 0, 0, 232, 3, 0, 0, 16, 14, 0, 0, 160, 134, 1, 0], mk 0x0300 [0, 1, 255, 0, 0, 0, 0, 0, 0, 0, 0, 0, 0, 0, 0, 0, 0, 0, 128, 63, 10, 0, 0, 0, 232, 3, 0, 0, 16, 14, 0, 0, 160, 134, 1, 0], [0, 1, 255, 0, 0, 0, 0, 0, 0, 0, 0, 0, 0, 0, 0, 0, 0, 0, 128, 63, 10, 0, 0, 0, 232, 3, 0, 0, 16, 14, 0, 0, 160, 134, 1, 0], 0, 1, met⟩
  · exact ⟨.cmd, ask (part .config) 0x0300 [0, 2, 255, 0, 0, 0, 0, 0, 0, 0, 0, 0, 0, 0, 0, 0, 0, 0, 128, 63, 10, 0, 0, 0, 232, 3, 0, 0, 16, 14, 0, 0, 160, 134, 1, 0], mk 0x0300 [0, 2, 255, 0, 0, 0, 0, 0, 0, 0, 0, 0, 0, 0, 0, 0, 0, 0, 128, 63, 10, 0, 0, 0, 232, 3, 0, 0, 16, 14, 0, 0, 160, 134, 1, 0], [0, 2, 255, 0, 0, 0, 0, 0, 0, 0, 0, 0, 0, 0, 0, 0, 0, 0, 128, 63, 10, 0, 0, 0, 232, 3, 0, 0, 16, 14, 0, 0, 160, 134, 1, 0], 0, 2, met⟩
  · exact ⟨.cmd, ask (td 3 .host .locked (part .config)) 0x0301 [3, 1, 0, 0, 0, 0, 0, 0, 2, 0, 0, 0, 0, 0, 0, 0, 1, 0, 0, 0, 0, 0, 0, 0], mk 0x0301 [3, 1, 0, 0, 0, 0, 0, 0, 2, 0, 0, 0, 0, 0, 0, 0, 1, 0, 0, 0, 0, 0, 0, 0], [3, 1, 0, 0, 0, 0, 0, 0, 2, 0, 0, 0, 0, 0, 0, 0, 1, 0, 0, 0, 0, 0, 0, 0], 3, 8589934593, 0, (servoSample 3 8589934593 0 (taken (ask (td 3 .host .locked (part .config)) 0x0301 [3, 1, 0, 0, 0, 0, 0, 0, 2, 0, 0, 0, 0, 0, 0, 0, 1, 0, 0, 0, 0, 0, 0, 0]) .cmd)).1, (servoSample 3 8589934593 0 (taken (ask (td 3 .host .locked (part .config)) 0x0301 [3, 1, 0, 0, 0, 0, 0, 0, 2, 0, 0, 0, 0, 0, 0, 0, 1, 0, 0, 0, 0, 0, 0, 0]) .cmd)).2, met⟩
  · exact ⟨.cmd, ask (td 3 .host .locked (part .config)) 0x0301 [3, 0, 0, 0, 1, 0, 0, 0, 2, 0, 0, 0, 0, 0, 0, 0, 1, 0, 0, 0, 0, 0, 0, 0], mk 0x0301 [3, 0, 0, 0, 1, 0, 0, 0, 2, 0, 0, 0, 0, 0, 0, 0, 1, 0, 0, 0, 0, 0, 0, 0], [3, 0, 0, 0, 1, 0, 0, 0, 2, 0, 0, 0, 0, 0, 0, 0, 1, 0, 0, 0, 0, 0, 0, 0], 3, met⟩

/-- The hypotheses of `Obligations.TimeRequests`, met leaf by leaf (part 2 of 2). -/
theorem witness_TimeRequests_2 :
    (∃ (via : Transport) (s : State) (r : Req) (p : Bytes) (d : ℕ), s.sys.dev ≠ DevState.boot ∧ reqParams r = p ∧ n8At p 0 = d ∧ Takes 0x302#16 via s r ∧ List.length p = 8 ∧ d < 4 ∧ zeroAt p 1 3 = true ∧ 100 ≤ n32At p 4 ∧ n32At p 4 ≤ 100000 ∧ tdRunning (getTd s d) = true ∧ (d ≠ s.time.active ∨ s.time.switch.isSome = true))
    ∧ (∃ (via : Transport) (s : State) (r : Req) (p : Bytes) (d : ℕ), s.sys.dev ≠ DevState.boot ∧ reqParams r = p ∧ n8At p 0 = d ∧ Takes 0x302#16 via s r ∧ List.length p = 8 ∧ d < 4 ∧ zeroAt p 1 3 = true ∧ 100 ≤ n32At p 4 ∧ n32At p 4 ≤ 100000 ∧ tdRunning (getTd s d) = true ∧ d = s.time.active ∧ s.time.switch = none)
    ∧ (∃ (via : Transport) (s : State) (r : Req) (p : Bytes) (d : ℕ), s.sys.dev ≠ DevState.boot ∧ reqParams r = p ∧ n8At p 0 = d ∧ Takes 0x302#16 via s r ∧ List.length p = 8 ∧ d < 4 ∧ zeroAt p 1 3 = true ∧ 100 ≤ n32At p 4 ∧ n32At p 4 ≤ 100000 ∧ tdRunning (getTd s d) = false)
    ∧ (∃ (via : Transport) (s : State) (r : Req) (p : Bytes) (d : ℕ), s.sys.dev ≠ DevState.boot ∧ reqParams r = p ∧ n8At p 0 = d ∧ Takes 0x303#16 via s r ∧ p = []) := by
  refine ⟨?_, ?_, ?_, ?_⟩
  · exact ⟨.cmd, ask (td 3 .host .locked (part .config)) 0x0302 [3, 0, 0, 0, 100, 0, 0, 0], mk 0x0302 [3, 0, 0, 0, 100, 0, 0, 0], [3, 0, 0, 0, 100, 0, 0, 0], 3, met⟩
  · exact ⟨.cmd, ask (td 0 .host .locked (part .config)) 0x0302 [0, 0, 0, 0, 100, 0, 0, 0], mk 0x0302 [0, 0, 0, 0, 100, 0, 0, 0], [0, 0, 0, 0, 100, 0, 0, 0], 0, met⟩
  · exact ⟨.cmd, ask (part .config) 0x0302 [3, 0, 0, 0, 100, 0, 0, 0], mk 0x0302 [3, 0, 0, 0, 100, 0, 0, 0], [3, 0, 0, 0, 100, 0, 0, 0], 3, met⟩
  · exact ⟨.cmd, ask (part .config) 0x0303 [], mk 0x0303 [], [], 0, met⟩

/-- The hypotheses of `Obligations.DomainsHoldAndSwitchOnTime`, met leaf by leaf. -/
theorem witness_DomainsHoldAndSwitchOnTime :
    (∃ (s : State) (d : ℕ), d < s.time.domains.length ∧ ((getTd s d).state = TdState.locked ∨ (getTd s d).state = TdState.acquiring ∧ (getTd s d).spent = false) ∧ tdServo (getTd s d) = true)
    ∧ (∃ (s : State) (d : ℕ), d < s.time.domains.length ∧ (getTd s d).state = TdState.holdover)
    ∧ (∃ (s : State) (w : Switch), s.time.switch = some w)
    ∧ (∃ (s : State) (d : ℕ), ((getTd s d).state ≠ TdState.locked ∧ ((getTd s d).state ≠ TdState.acquiring ∨ (getTd s d).spent = true) ∨ tdServo (getTd s d) = false))
    ∧ (∃ (s : State) (d : ℕ), (getTd s d).state ≠ TdState.holdover)
    ∧ (∃ (s : State), s.time.switch = none) := by
  refine ⟨?_, ?_, ?_, ?_, ?_, ?_⟩
  · exact ⟨td 3 .host .locked (part .run), 3, met⟩
  · exact ⟨td 3 .host .holdover (part .run), 3, met⟩
  · exact ⟨({ part .run with time := { (part .run).time with switch := some swch } }), swch, met⟩
  · exact ⟨td 3 .host .holdover (part .run), 3, met⟩
  · exact ⟨td 3 .host .locked (part .run), 3, met⟩
  · exact ⟨td 3 .host .holdover (part .run), met⟩

/-- The hypotheses of `Obligations.EthernetPortsAndConfiguration`, met leaf by leaf (part 1 of 2). -/
theorem witness_EthernetPortsAndConfiguration :
    (∃ (port : ℕ) (s : State) (e : EthPort) (speed : ℕ), s.eth[port]? = some e ∧ e.enable = true ∧ e.link = false)
    ∧ (∃ (port : ℕ) (s : State) (e : EthPort) (speed : ℕ), s.eth[port]? = some e ∧ e.enable = true ∧ e.link = true)
    ∧ (∃ (port : ℕ) (s : State) (e : EthPort) (bad : Bool) (tag : Option ℕ) (len : ℕ) (other : Bool), s.eth[port]? = some e ∧ ethUp s port = false)
    ∧ (∃ (port : ℕ) (s : State) (e : EthPort) (tag : Option ℕ) (target : U32) (mac : Bytes) (ip : U32), s.eth[port]? = some e ∧ ethUp s port = false)
    ∧ (∃ (port : ℕ) (s : State) (e : EthPort) (tag : Option ℕ) (ip : U32) (data : Bytes), s.eth[port]? = some e ∧ ethUp s port = false)
    ∧ (∃ (port : ℕ) (s : State) (e : EthPort) (tag : Option ℕ) (len : ℕ) (other : Bool), s.eth[port]? = some e ∧ ethUp s port = true ∧ (¬arrives s port tag len ∨ other = true))
    ∧ (∃ (port : ℕ) (s : State) (e : EthPort) (tag : Option ℕ) (len : ℕ), s.eth[port]? = some e ∧ ethUp s port = true ∧ arrives s port tag len) := by
  refine ⟨?_, ?_, ?_, ?_, ?_, ?_, ?_⟩
  · exact ⟨0, ({ part .config with eth := [{ eth0 with enable := true, link := false }, eth0], time := { (part .config).time with onFallback := List.replicate 5 false } }), ({ eth0 with enable := true, link := false }), 3, met⟩
  · exact ⟨0, ({ part .config with eth := [{ eth0 with enable := true, link := true, ipv4 := 7 }, eth0], time := { (part .config).time with onFallback := List.replicate 5 false } }), ({ eth0 with enable := true, link := true, ipv4 := 7 }), 3, met⟩
  · exact ⟨0, ({ part .config with eth := [({ eth0 with enable := true, link := false }), eth0], time := { (part .config).time with onFallback := List.replicate 5 false } }), ({ eth0 with enable := true, link := false }), true, none, 64, false, met⟩
  · exact ⟨1, part .config, eth0, none, 8, zeros 6, 9, met⟩
  · exact ⟨1, part .config, eth0, none, 9, zeros 576, met⟩
  · exact ⟨0, ({ part .config with eth := [({ eth0 with enable := true, link := true, ipv4 := 7 }), eth0], time := { (part .config).time with onFallback := List.replicate 5 false } }), ({ eth0 with enable := true, link := true, ipv4 := 7 }), some 1, 64, false, met⟩
  · exact ⟨0, ({ part .config with eth := [({ eth0 with enable := true, link := true, ipv4 := 7 }), eth0], time := { (part .config).time with onFallback := List.replicate 5 false } }), ({ eth0 with enable := true, link := true, ipv4 := 7 }), none, 64, met⟩

/-- The hypotheses of `Obligations.EthernetPortsAndConfiguration`, met leaf by leaf (part 2 of 2). -/
theorem witness_EthernetPortsAndConfiguration_2 :
    (∃ (port : ℕ) (s : State) (e : EthPort) (tag : Option ℕ) (mac : Bytes) (ip : U32) (target : U32), s.eth[port]? = some e ∧ ethUp s port = true ∧ (¬arrives s port tag 64))
    ∧ (∃ (port : ℕ) (s : State) (e : EthPort) (tag : Option ℕ) (mac : Bytes) (ip : U32) (target : U32), s.eth[port]? = some e ∧ ethUp s port = true ∧ arrives s port tag 64 ∧ target ≠ e.ipv4)
    ∧ (∃ (port : ℕ) (s : State) (e : EthPort) (tag : Option ℕ) (ip : U32) (data : Bytes), s.eth[port]? = some e ∧ ethUp s port = true ∧ (¬arrives s port tag (List.length data + 46) ∨ 576 < List.length data))
    ∧ (∃ (port : ℕ) (s : State) (e : EthPort) (tag : Option ℕ) (ip : U32) (data : Bytes), s.eth[port]? = some e ∧ ethUp s port = true ∧ arrives s port tag (List.length data + 46) ∧ List.length data ≤ 576)
    ∧ (∃ (s : State) (r : Req), s.sys.dev ≠ DevState.boot ∧ Sized s ∧ Takes 0x310#16 Transport.cmd s r ∧ r.via = Transport.cmd ∧ n8At (reqParams r) 0 = 0 ∧ portParamsOk (reqParams r) = true ∧ ((s.eth.getD (n8At (reqParams r) 1) eth0).enable = true → (s.eth.getD (n8At (reqParams r) 1) eth0).rgmii = decide (n8At (reqParams r) 3 = 1)))
    ∧ (∃ (s : State) (r : Req) (via : Transport) (port : ℕ), s.sys.dev ≠ DevState.boot ∧ Sized s ∧ Takes 0x310#16 via s r ∧ r.via ≠ Transport.cmd ∧ n8At (reqParams r) 0 = 0 ∧ portParamsOk (reqParams r) = true ∧ n8At (reqParams r) 1 = port ∧ ((s.eth.getD port eth0).enable = true → (s.eth.getD port eth0).rgmii = decide (n8At (reqParams r) 3 = 1)))
    ∧ (∃ (s : State) (r : Req) (via : Transport) (p : Bytes) (i : ℕ), s.sys.dev ≠ DevState.boot ∧ Sized s ∧ Takes 0x310#16 via s r ∧ reqParams r = p ∧ List.length p = 16 ∧ n8At p 0 = 1 ∧ n8At p 1 = i ∧ i < 3 ∧ n8At p 2 < 2 ∧ n8At p 3 < 2 ∧ n8At p 5 < 2 ∧ n8At p 6 < 2 ∧ n8At p 7 < 2 ∧ zeroAt p 12 4 = true ∧ (i < 2 → n8At p 5 = 0 ∧ n8At p 6 = 1 ∧ n8At p 8 = 255) ∧ -7 ≤ i8At p 10 ∧ i8At p 10 ≤ 4 ∧ -3 ≤ i8At p 11 ∧ i8At p 11 ≤ 4 ∧ (n8At p 3 = 1 → ∀ j < 3, j ≠ i → (getInst s j).enable = true → (getInst s j).port = n8At p 2 → (getInst s j).domainNumber ≠ byteAt p 4) ∧ instDomain s i = none) := by
  refine ⟨?_, ?_, ?_, ?_, ?_, ?_, ?_⟩
  · exact ⟨0, ({ part .config with eth := [({ eth0 with enable := true, link := true, ipv4 := 7 }), eth0], time := { (part .config).time with onFallback := List.replicate 5 false } }), ({ eth0 with enable := true, link := true, ipv4 := 7 }), some 1, zeros 6, 9, 8, met⟩
  · exact ⟨0, ({ part .config with eth := [({ eth0 with enable := true, link := true, ipv4 := 7 }), eth0], time := { (part .config).time with onFallback := List.replicate 5 false } }), ({ eth0 with enable := true, link := true, ipv4 := 7 }), none, zeros 6, 9, 8, met⟩
  · exact ⟨0, ({ part .config with eth := [({ eth0 with enable := true, link := true, ipv4 := 7 }), eth0], time := { (part .config).time with onFallback := List.replicate 5 false } }), ({ eth0 with enable := true, link := true, ipv4 := 7 }), none, 9, zeros 577, met⟩
  · exact ⟨0, ({ part .config with eth := [({ eth0 with enable := true, link := true, ipv4 := 7 }), eth0], time := { (part .config).time with onFallback := List.replicate 5 false } }), ({ eth0 with enable := true, link := true, ipv4 := 7 }), none, 9, zeros 576, met⟩
  · exact ⟨ask (part .config) 0x0310 [0, 1, 1, 1, 1, 7, 254, 15, 2, 0, 0, 0, 0, 9, 0, 0, 5, 0, 0, 10, 0, 255, 255, 255, 1, 0, 0, 10, 184, 96, 0, 0], mk 0x0310 [0, 1, 1, 1, 1, 7, 254, 15, 2, 0, 0, 0, 0, 9, 0, 0, 5, 0, 0, 10, 0, 255, 255, 255, 1, 0, 0, 10, 184, 96, 0, 0], met⟩
  · exact ⟨sessAsk 0x0310 [0, 1, 1, 1, 3, 7, 254, 15, 2, 0, 0, 0, 0, 1, 0, 0, 1, 0, 168, 192, 0, 0, 0, 0, 0, 0, 0, 0, 0, 4, 0, 0], mkSess 0x0310 [0, 1, 1, 1, 3, 7, 254, 15, 2, 0, 0, 0, 0, 1, 0, 0, 1, 0, 168, 192, 0, 0, 0, 0, 0, 0, 0, 0, 0, 4, 0, 0], .udp 0 7, 1, met⟩
  · exact ⟨ask (part .config) 0x0310 [1, 2, 0, 1, 5, 1, 0, 1, 3, 0, 249, 253, 0, 0, 0, 0], mk 0x0310 [1, 2, 0, 1, 5, 1, 0, 1, 3, 0, 249, 253, 0, 0, 0, 0], .cmd, [1, 2, 0, 1, 5, 1, 0, 1, 3, 0, 249, 253, 0, 0, 0, 0], 2, met⟩

/-- The hypotheses of `Obligations.PtpInstancesFollowTheirMaster`, met leaf by leaf (part 1 of 2). -/
theorem witness_PtpInstancesFollowTheirMaster :
    (∃ (i : ℕ) (s : State) (tag : Option ℕ) (origin : ℤ) (correction : ℤ) (delay : ℤ), Sized s ∧ i < 3 ∧ arrives s (getInst s i).port tag (ptpLength s i 44) ∧ (getInst s i).enable = true ∧ (getInst s i).role = 2)
    ∧ (∃ (i : ℕ) (s : State) (tag : Option ℕ) (gm : Bytes) (p1 : Byte) (cls : Byte) (acc : Byte) (p2 : Byte) (var : U16) (steps : U16), Sized s ∧ i < 3 ∧ arrives s (getInst s i).port tag (ptpLength s i 64) ∧ (getInst s i).enable = true ∧ (getInst s i).role ≠ 0 ∧ instDomain s i = none ∧ ((getInst s i).role ≠ 2 ∧ (i < 2 ∨ BitVec.toNat p1 < BitVec.toNat (getInst s i).priority1) ∨ betterMaster s i gm (clockData p1 cls acc var p2 gm) = true))
    ∧ (∃ (i : ℕ) (s : State) (tag : Option ℕ) (seq : U16) (delay : ℤ) (turn : ℕ), Sized s ∧ i < 3 ∧ arrives s (getInst s i).port tag (ptpLength s i 54) ∧ (getInst s i).enable = true ∧ (getInst s i).delayMech = 1)
    ∧ (∃ (i : ℕ) (s : State) (tag : Option ℕ) (seq : U16) (delay : ℤ) (turn : ℕ), Sized s ∧ i < 3 ∧ instUp s i = true ∧ (getInst s i).role ≠ 0 ∧ ((getInst s i).delayMech = 1 ∨ (getInst s i).role = 2))
    ∧ (∃ (i : ℕ) (s : State) (announce : Bool), Sized s ∧ i < 3 ∧ instUp s i = true ∧ (getInst s i).role = 4) := by
  refine ⟨?_, ?_, ?_, ?_, ?_⟩
  · exact ⟨2, inst 2 2 (part .config), none, -5, 1, 100, met⟩
  · exact ⟨2, inst 2 1 (part .config), none, zeros 8, 0, 0, 0, 0, 0, 0, met⟩
  · exact ⟨2, inst 2 2 (part .config), none, 0, -7, 5, met⟩
  · exact ⟨2, inst 2 2 (part .config), none, 0, -7, 5, met⟩
  · exact ⟨2, inst 2 4 (part .run), true, met⟩

/-- The hypotheses of `Obligations.PtpInstancesFollowTheirMaster`, met leaf by leaf (part 2 of 2). -/
theorem witness_PtpInstancesFollowTheirMaster_2 :
    (∃ (i : ℕ) (s : State), Sized s ∧ i < 3 ∧ (getInst s i).enable = true ∧ (getInst s i).role = 2 ∧ instDomain s i = none)
    ∧ (∃ (i : ℕ) (s : State) (tag : Option ℕ) (o : ℤ) (c : ℤ) (d : ℤ), Sized s ∧ i < 3 ∧ ethUp s (getInst s i).port = false)
    ∧ (∃ (i : ℕ) (s : State) (tag : Option ℕ) (q : ℕ) (n : U16) (d : ℤ) (t : ℕ), Sized s ∧ i < 3 ∧ ethUp s (getInst s i).port = false ∧ q < 2)
    ∧ (∃ (i : ℕ) (s : State) (tag : Option ℕ) (n : U16) (d : ℤ) (t : ℕ), Sized s ∧ i < 3 ∧ ethUp s (getInst s i).port = false) := by
  refine ⟨?_, ?_, ?_, ?_⟩
  · exact ⟨2, inst 2 2 (part .run), met⟩
  · exact ⟨2, part .config, none, 0, 0, 0, met⟩
  · exact ⟨2, part .config, none, 1, 0, 0, 0, met⟩
  · exact ⟨2, part .config, none, 0, 0, 0, met⟩

/-- The hypotheses of `Obligations.CanRequests`, met leaf by leaf (part 1 of 3). -/
theorem witness_CanRequests :
    (∃ (via : Transport) (s : State) (r : Req) (b : Bytes) (p : ℕ), s.sys.dev ≠ DevState.boot ∧ Sized s ∧ reqParams r = b ∧ n8At b 0 = p ∧ p < 6 ∧ Takes 0xC00#16 via s r ∧ List.length b = 16 ∧ n8At b 1 < 3 ∧ n8At b 2 < 16 ∧ n8At b 3 ≤ 16 ∧ byteAt b 15 = 0 ∧ timingOk (timingOf b) = true ∧ tapsKeep s p (n8At b 3) = true ∧ (getCan s p).bus = CanBus.off ∧ (getCan s p).shutting = none ∧ n8At b 1 < 2 ∧ canRamLost s p = false)
    ∧ (∃ (via : Transport) (s : State) (r : Req) (b : Bytes) (p : ℕ), s.sys.dev ≠ DevState.boot ∧ Sized s ∧ reqParams r = b ∧ n8At b 0 = p ∧ p < 6 ∧ Takes 0xC00#16 via s r ∧ List.length b = 16 ∧ n8At b 1 < 3 ∧ n8At b 2 < 16 ∧ n8At b 3 ≤ 16 ∧ byteAt b 15 = 0 ∧ timingOk (timingOf b) = true ∧ tapsKeep s p (n8At b 3) = true ∧ (getCan s p).bus = CanBus.off ∧ (getCan s p).shutting = none ∧ n8At b 1 = 2)
    ∧ (∃ (via : Transport) (s : State) (r : Req) (b : Bytes) (p : ℕ), s.sys.dev ≠ DevState.boot ∧ Sized s ∧ reqParams r = b ∧ n8At b 0 = p ∧ p < 6 ∧ Takes 0xC00#16 via s r ∧ List.length b = 16 ∧ n8At b 1 < 3 ∧ n8At b 2 < 16 ∧ n8At b 3 ≤ 16 ∧ byteAt b 15 = 0 ∧ timingOk (timingOf b) = true ∧ tapsKeep s p (n8At b 3) = true ∧ (getCan s p).bus ≠ CanBus.off ∧ canSame (getCan s p) b ∧ (getCan s p).shutting = none ∧ n8At b 1 < 2 ∧ canRamLost s p = false)
    ∧ (∃ (via : Transport) (s : State) (r : Req) (b : Bytes) (p : ℕ), s.sys.dev ≠ DevState.boot ∧ Sized s ∧ reqParams r = b ∧ n8At b 0 = p ∧ p < 6 ∧ Takes 0xC00#16 via s r ∧ List.length b = 16 ∧ n8At b 1 < 3 ∧ n8At b 2 < 16 ∧ n8At b 3 ≤ 16 ∧ byteAt b 15 = 0 ∧ timingOk (timingOf b) = true ∧ tapsKeep s p (n8At b 3) = true ∧ (getCan s p).bus ≠ CanBus.off ∧ canSame (getCan s p) b ∧ (getCan s p).shutting = none ∧ n8At b 1 = 2 ∧ (getCan s p).bus ≠ CanBus.busOff)
    ∧ (∃ (via : Transport) (s : State) (r : Req) (b : Bytes) (p : ℕ), s.sys.dev ≠ DevState.boot ∧ Sized s ∧ reqParams r = b ∧ n8At b 0 = p ∧ p < 6 ∧ Takes 0xC00#16 via s r ∧ List.length b = 16 ∧ n8At b 1 < 3 ∧ n8At b 2 < 16 ∧ n8At b 3 ≤ 16 ∧ byteAt b 15 = 0 ∧ timingOk (timingOf b) = true ∧ tapsKeep s p (n8At b 3) = true ∧ n8At b 1 < 2 ∧ canRamLost s p = true ∧ (getCan s p).shutting = none ∧ ((getCan s p).bus = CanBus.off ∨ canSame (getCan s p) b))
    ∧ (∃ (via : Transport) (s : State) (r : Req) (b : Bytes) (p : ℕ), s.sys.dev ≠ DevState.boot ∧ Sized s ∧ reqParams r = b ∧ n8At b 0 = p ∧ p < 6 ∧ Takes 0xC00#16 via s r ∧ (getCan s p).bus ≠ CanBus.off ∧ (getCan s p).shutting = none ∧ (¬canSame (getCan s p) b))
    ∧ (∃ (via : Transport) (s : State) (r : Req) (b : Bytes) (p : ℕ) (u : ℕ), s.sys.dev ≠ DevState.boot ∧ Sized s ∧ reqParams r = b ∧ n8At b 0 = p ∧ p < 6 ∧ Takes 0xC00#16 via s r ∧ (getCan s p).shutting = some u ∧ n8At b 1 ≠ 2)
    ∧ (∃ (via : Transport) (s : State) (r : Req) (b : Bytes) (p : ℕ) (e : ℕ), s.sys.dev ≠ DevState.boot ∧ Sized s ∧ reqParams r = b ∧ n8At b 0 = p ∧ p < 6 ∧ Takes 0xC01#16 via s r ∧ List.length b = 4 ∧ n8At b 1 = e ∧ (getCan s p).shutting = none ∧ e < 32 ∧ zeroAt b 2 2 = true ∧ (getCan s p).bus ≠ CanBus.off ∧ canOwned (getCan s p) e = false ∧ sendable (canEntry s (txAddr p e)) = true ∧ canRamLost s p = true) := by
  refine ⟨?_, ?_, ?_, ?_, ?_, ?_, ?_, ?_⟩
  · exact ⟨.cmd, ask (part .config) 0x0C00 [5, 1, 15, 16, 2, 0, 31, 0, 8, 8, 1, 7, 2, 2, 127, 0], mk 0x0C00 [5, 1, 15, 16, 2, 0, 31, 0, 8, 8, 1, 7, 2, 2, 127, 0], [5, 1, 15, 16, 2, 0, 31, 0, 8, 8, 1, 7, 2, 2, 127, 0], 5, met⟩
  · exact ⟨.cmd, ask (part .config) 0x0C00 [5, 2, 15, 16, 2, 0, 31, 0, 8, 8, 1, 7, 2, 2, 127, 0], mk 0x0C00 [5, 2, 15, 16, 2, 0, 31, 0, 8, 8, 1, 7, 2, 2, 127, 0], [5, 2, 15, 16, 2, 0, 31, 0, 8, 8, 1, 7, 2, 2, 127, 0], 5, met⟩
  · exact ⟨.cmd, ask (canOn 5 (fun x => { x with timing := timingOf [5, 1, 15, 16, 2, 0, 31, 0, 8, 8, 1, 7, 2, 2, 127, 0], fd := true, tdcOn := true, acceptAll := true, inOrder := true, tapEntries := 16 })) 0x0C00 [5, 1, 15, 16, 2, 0, 31, 0, 8, 8, 1, 7, 2, 2, 127, 0], mk 0x0C00 [5, 1, 15, 16, 2, 0, 31, 0, 8, 8, 1, 7, 2, 2, 127, 0], [5, 1, 15, 16, 2, 0, 31, 0, 8, 8, 1, 7, 2, 2, 127, 0], 5, met⟩
  · exact ⟨.cmd, ask (canOn 5 (fun x => { x with timing := timingOf [5, 1, 15, 16, 2, 0, 31, 0, 8, 8, 1, 7, 2, 2, 127, 0], fd := true, tdcOn := true, acceptAll := true, inOrder := true, tapEntries := 16 })) 0x0C00 [5, 2, 15, 16, 2, 0, 31, 0, 8, 8, 1, 7, 2, 2, 127, 0], mk 0x0C00 [5, 2, 15, 16, 2, 0, 31, 0, 8, 8, 1, 7, 2, 2, 127, 0], [5, 2, 15, 16, 2, 0, 31, 0, 8, 8, 1, 7, 2, 2, 127, 0], 5, met⟩
  · exact ⟨.cmd, ask (updRel (fun x => { x with canRows := [(17408, 5)], rows := [(34, 0, none)] }) (part .config)) 0x0C00 [5, 1, 15, 16, 2, 0, 31, 0, 8, 8, 1, 7, 2, 2, 127, 0], mk 0x0C00 [5, 1, 15, 16, 2, 0, 31, 0, 8, 8, 1, 7, 2, 2, 127, 0], [5, 1, 15, 16, 2, 0, 31, 0, 8, 8, 1, 7, 2, 2, 127, 0], 5, met⟩
  · exact ⟨.cmd, ask (canOn 5 id) 0x0C00 [5, 1, 15, 16, 2, 0, 31, 0, 8, 8, 1, 7, 2, 2, 127, 0], mk 0x0C00 [5, 1, 15, 16, 2, 0, 31, 0, 8, 8, 1, 7, 2, 2, 127, 0], [5, 1, 15, 16, 2, 0, 31, 0, 8, 8, 1, 7, 2, 2, 127, 0], 5, met⟩
  · exact ⟨.cmd, ask (canOn 5 (fun x => { x with shutting := some 9 })) 0x0C00 [5, 1, 15, 16, 2, 0, 31, 0, 8, 8, 1, 7, 2, 2, 127, 0], mk 0x0C00 [5, 1, 15, 16, 2, 0, 31, 0, 8, 8, 1, 7, 2, 2, 127, 0], [5, 1, 15, 16, 2, 0, 31, 0, 8, 8, 1, 7, 2, 2, 127, 0], 5, 9, met⟩
  · exact ⟨.cmd, ask (updRel (fun x => { x with canRows := [(17408, 5)], rows := [(34, 0, none)] }) (canOn 5 id)) 0x0C01 [5, 31, 0, 0], mk 0x0C01 [5, 31, 0, 0], [5, 31, 0, 0], 5, 31, met⟩

/-- The hypotheses of `Obligations.CanRequests`, met leaf by leaf (part 2 of 3). -/
theorem witness_CanRequests_2 :
    (∃ (via : Transport) (s : State) (r : Req) (b : Bytes) (p : ℕ) (e : ℕ), s.sys.dev ≠ DevState.boot ∧ Sized s ∧ reqParams r = b ∧ n8At b 0 = p ∧ p < 6 ∧ Takes 0xC01#16 via s r ∧ List.length b = 4 ∧ n8At b 1 = e ∧ (getCan s p).shutting = none ∧ canRamLost s p = false ∧ e < 32 ∧ zeroAt b 2 2 = true ∧ (getCan s p).bus ≠ CanBus.off ∧ canOwned (getCan s p) e = false ∧ sendable (canEntry s (txAddr p e)) = true)
    ∧ (∃ (via : Transport) (s : State) (r : Req) (b : Bytes) (p : ℕ) (e : ℕ), s.sys.dev ≠ DevState.boot ∧ Sized s ∧ reqParams r = b ∧ n8At b 0 = p ∧ p < 6 ∧ Takes 0xC01#16 via s r ∧ List.length b = 4 ∧ n8At b 1 = e ∧ (getCan s p).shutting = none ∧ (getCan s p).bus = CanBus.off)
    ∧ (∃ (via : Transport) (s : State) (r : Req) (b : Bytes) (p : ℕ) (e : ℕ), s.sys.dev ≠ DevState.boot ∧ Sized s ∧ reqParams r = b ∧ n8At b 0 = p ∧ p < 6 ∧ Takes 0xC01#16 via s r ∧ List.length b = 4 ∧ n8At b 1 = e ∧ (getCan s p).shutting = none ∧ (getCan s p).bus ≠ CanBus.off ∧ (canOwned (getCan s p) e = true ∨ sendable (canEntry s (txAddr p e)) = false))
    ∧ (∃ (via : Transport) (s : State) (r : Req) (b : Bytes) (p : ℕ) (e : ℕ), s.sys.dev ≠ DevState.boot ∧ Sized s ∧ reqParams r = b ∧ n8At b 0 = p ∧ p < 6 ∧ Takes 0xC02#16 via s r ∧ List.length b = 4 ∧ n8At b 1 = e ∧ e < 32 ∧ zeroAt b 2 2 = true ∧ tapEntry (getCan s p) e = false ∧ (getCan s p).queue.contains e = true ∧ (getCan s p).current ≠ some e)
    ∧ (∃ (via : Transport) (s : State) (r : Req) (b : Bytes) (p : ℕ) (e : ℕ), s.sys.dev ≠ DevState.boot ∧ Sized s ∧ reqParams r = b ∧ n8At b 0 = p ∧ p < 6 ∧ Takes 0xC02#16 via s r ∧ List.length b = 4 ∧ n8At b 1 = e ∧ e < 32 ∧ zeroAt b 2 2 = true ∧ tapEntry (getCan s p) e = false ∧ (getCan s p).queue.contains e = true ∧ (getCan s p).current = some e)
    ∧ (∃ (via : Transport) (s : State) (r : Req) (b : Bytes) (p : ℕ) (e : ℕ), s.sys.dev ≠ DevState.boot ∧ Sized s ∧ reqParams r = b ∧ n8At b 0 = p ∧ p < 6 ∧ Takes 0xC02#16 via s r ∧ List.length b = 4 ∧ n8At b 1 = e ∧ e < 32 ∧ zeroAt b 2 2 = true ∧ tapEntry (getCan s p) e = false ∧ (getCan s p).queue.contains e = false)
    ∧ (∃ (via : Transport) (s : State) (r : Req) (b : Bytes) (p : ℕ) (n : ℕ), s.sys.dev ≠ DevState.boot ∧ Sized s ∧ reqParams r = b ∧ n8At b 0 = p ∧ p < 6 ∧ Takes 0xC03#16 via s r ∧ List.length b = 4 ∧ n8At b 1 = n ∧ 0 < n ∧ n ≤ (getCan s p).rxHeld ∧ zeroAt b 2 2 = true)
    ∧ (∃ (via : Transport) (s : State) (r : Req) (b : Bytes) (p : ℕ), s.sys.dev ≠ DevState.boot ∧ Sized s ∧ reqParams r = b ∧ n8At b 0 = p ∧ p < 6 ∧ Takes 0xC04#16 via s r ∧ List.length b = 4 ∧ zeroAt b 1 3 = true ∧ (getCan s p).bus = CanBus.busOff) := by
  refine ⟨?_, ?_, ?_, ?_, ?_, ?_, ?_, ?_⟩
  · exact ⟨.cmd, ask (canOn 5 id) 0x0C01 [5, 31, 0, 0], mk 0x0C01 [5, 31, 0, 0], [5, 31, 0, 0], 5, 31, met⟩
  · exact ⟨.cmd, ask (part .config) 0x0C01 [5, 31, 0, 0], mk 0x0C01 [5, 31, 0, 0], [5, 31, 0, 0], 5, 31, met⟩
  · exact ⟨.cmd, ask (canOn 5 (fun x => { x with queue := [31] })) 0x0C01 [5, 31, 0, 0], mk 0x0C01 [5, 31, 0, 0], [5, 31, 0, 0], 5, 31, met⟩
  · exact ⟨.cmd, ask (canOn 5 (fun x => { x with queue := [31] })) 0x0C02 [5, 31, 0, 0], mk 0x0C02 [5, 31, 0, 0], [5, 31, 0, 0], 5, 31, met⟩
  · exact ⟨.cmd, ask (canOn 5 (fun x => { x with queue := [31], current := some 31 })) 0x0C02 [5, 31, 0, 0], mk 0x0C02 [5, 31, 0, 0], [5, 31, 0, 0], 5, 31, met⟩
  · exact ⟨.cmd, ask (canOn 5 id) 0x0C02 [5, 31, 0, 0], mk 0x0C02 [5, 31, 0, 0], [5, 31, 0, 0], 5, 31, met⟩
  · exact ⟨.cmd, ask (canOn 5 (fun x => { x with rxHeld := 64, rxHead := 1 })) 0x0C03 [5, 64, 0, 0], mk 0x0C03 [5, 64, 0, 0], [5, 64, 0, 0], 5, 64, met⟩
  · exact ⟨.cmd, ask (canOn 5 (fun x => { x with bus := .busOff })) 0x0C04 [5, 0, 0, 0], mk 0x0C04 [5, 0, 0, 0], [5, 0, 0, 0], 5, met⟩

/-- The hypotheses of `Obligations.CanRequests`, met leaf by leaf (part 3 of 3). -/
theorem witness_CanRequests_3 :
    (∃ (via : Transport) (s : State) (r : Req) (b : Bytes) (p : ℕ), s.sys.dev ≠ DevState.boot ∧ Sized s ∧ reqParams r = b ∧ n8At b 0 = p ∧ p < 6 ∧ Takes 0xC04#16 via s r ∧ List.length b = 4 ∧ (getCan s p).bus ≠ CanBus.busOff)
    ∧ (∃ (via : Transport) (s : State) (r : Req) (b : Bytes) (p : ℕ) (k : ℕ), s.sys.dev ≠ DevState.boot ∧ Sized s ∧ reqParams r = b ∧ n8At b 0 = p ∧ p < 6 ∧ p < 3 ∧ Takes 0xC05#16 via s r ∧ n8At b 1 = k ∧ 20 ≤ List.length b ∧ tapInUse s (decide (p < 2)) k = true)
    ∧ (∃ (via : Transport) (s : State) (r : Req) (b : Bytes) (p : ℕ) (k : ℕ), s.sys.dev ≠ DevState.boot ∧ Sized s ∧ reqParams r = b ∧ n8At b 0 = p ∧ p < 6 ∧ p < 3 ∧ Takes 0xC05#16 via s r ∧ n8At b 1 = k ∧ tapInUse s (decide (p < 2)) k = false ∧ f32Bad (u32At b 16) = false ∧ List.length b = 20 + 12 * n8At b 13 ∧ (∀ i < n8At b 13, f32Bad (u32At b (24 + 12 * i)) = false ∧ f32Bad (u32At b (28 + 12 * i)) = false) ∧ n8At b 2 = 0 ∧ p < 2 ∧ BitVec.getLsbD (u32At b 4) 31 = false)
    ∧ (∃ (via : Transport) (s : State) (r : Req) (b : Bytes) (p : ℕ) (k : ℕ), s.sys.dev ≠ DevState.boot ∧ Sized s ∧ reqParams r = b ∧ n8At b 0 = p ∧ p < 6 ∧ p < 3 ∧ Takes 0xC05#16 via s r ∧ n8At b 1 = k ∧ tapInUse s (decide (p < 2)) k = false ∧ f32Bad (u32At b 16) = false ∧ List.length b = 20 + 12 * n8At b 13 ∧ (∀ i < n8At b 13, f32Bad (u32At b (24 + 12 * i)) = false ∧ f32Bad (u32At b (28 + 12 * i)) = false) ∧ n8At b 2 = 0 ∧ p = 2)
    ∧ (∃ (via : Transport) (s : State) (r : Req) (b : Bytes) (p : ℕ) (k : ℕ), s.sys.dev ≠ DevState.boot ∧ Sized s ∧ reqParams r = b ∧ n8At b 0 = p ∧ p < 6 ∧ p < 3 ∧ Takes 0xC05#16 via s r ∧ n8At b 1 = k ∧ tapInUse s (decide (p < 2)) k = false ∧ f32Bad (u32At b 16) = false ∧ List.length b = 20 + 12 * n8At b 13 ∧ (∀ i < n8At b 13, f32Bad (u32At b (24 + 12 * i)) = false ∧ f32Bad (u32At b (28 + 12 * i)) = false) ∧ n8At b 2 = 1 ∧ p = 1 ∧ n8At b 12 = 0 ∧ n8At b 13 = 0 ∧ BitVec.getLsbD (u32At b 4) 31 = false)
    ∧ (∃ (via : Transport) (s : State) (r : Req) (b : Bytes) (p : ℕ) (k : ℕ), s.sys.dev ≠ DevState.boot ∧ Sized s ∧ reqParams r = b ∧ n8At b 0 = p ∧ p < 6 ∧ p < 3 ∧ Takes 0xC05#16 via s r ∧ n8At b 1 = k ∧ tapInUse s (decide (p < 2)) k = false ∧ f32Bad (u32At b 16) = false ∧ List.length b = 20 + 12 * n8At b 13 ∧ (∀ i < n8At b 13, f32Bad (u32At b (24 + 12 * i)) = false ∧ f32Bad (u32At b (28 + 12 * i)) = false) ∧ n8At b 2 = 1 ∧ p = 0 ∧ n8At b 3 < 6 ∧ n8At b 12 = 0 ∧ n8At b 13 = 1 ∧ BitVec.getLsbD (u32At b 4) 31 = false ∧ canFieldOk b 20 = true)
    ∧ (∃ (via : Transport) (s : State) (r : Req) (b : Bytes) (p : ℕ) (k : ℕ) (e : ℕ), s.sys.dev ≠ DevState.boot ∧ Sized s ∧ reqParams r = b ∧ n8At b 0 = p ∧ p < 6 ∧ p < 3 ∧ Takes 0xC05#16 via s r ∧ n8At b 1 = k ∧ tapInUse s (decide (p < 2)) k = false ∧ f32Bad (u32At b 16) = false ∧ List.length b = 20 + 12 * n8At b 13 ∧ (∀ i < n8At b 13, f32Bad (u32At b (24 + 12 * i)) = false ∧ f32Bad (u32At b (28 + 12 * i)) = false) ∧ n8At b 2 = 1 ∧ p = 2 ∧ n8At b 3 < 6 ∧ u32At b 8 = 0 ∧ n8At b 12 ≤ 15 ∧ (BitVec.getLsbD (u32At b 4) 31 = false → n8At b 12 ≤ 8 ∧ BitVec.getLsbD (u32At b 4) 30 = false) ∧ 0 < n8At b 13 ∧ n8At b 13 ≤ 8 ∧ (∀ i < n8At b 13, canFieldOk b (20 + 12 * i) = true ∧ (canFieldAt b (20 + 12 * i)).start + (canFieldAt b (20 + 12 * i)).length ≤ 8 * dlcLength (BitVec.getLsbD (u32At b 4) 31) (n8At b 12)) ∧ freeTapEntry s (n8At b 3) k = some e ∧ (∀ x ∈ s.can.tx, x.1 ≠ k)) := by
  refine ⟨?_, ?_, ?_, ?_, ?_, ?_, ?_⟩
  · exact ⟨.cmd, ask (canOn 5 id) 0x0C04 [5, 0, 0, 0], mk 0x0C04 [5, 0, 0, 0], [5, 0, 0, 0], 5, met⟩
  · exact ⟨.cmd, ask ({ stage7 .enabled id (island .run) with loop := { (stage7 .enabled id (island .run)).loop with mem := memWriteBytes gmem 80 (n16 33023) } }) 0x0C05 [0, 255, 0, 0, 0, 0, 0, 0, 0, 0, 0, 0, 0, 0, 0, 0, 0, 0, 0, 0], mk 0x0C05 [0, 255, 0, 0, 0, 0, 0, 0, 0, 0, 0, 0, 0, 0, 0, 0, 0, 0, 0, 0], [0, 255, 0, 0, 0, 0, 0, 0, 0, 0, 0, 0, 0, 0, 0, 0, 0, 0, 0, 0], 0, 255, met⟩
  · exact ⟨.cmd, ask (part .config) 0x0C05 [0, 255, 0, 0, 0, 0, 0, 0, 0, 0, 0, 0, 0, 0, 0, 0, 0, 0, 0, 0], mk 0x0C05 [0, 255, 0, 0, 0, 0, 0, 0, 0, 0, 0, 0, 0, 0, 0, 0, 0, 0, 0, 0], [0, 255, 0, 0, 0, 0, 0, 0, 0, 0, 0, 0, 0, 0, 0, 0, 0, 0, 0, 0], 0, 255, met⟩
  · exact ⟨.cmd, ask (part .config) 0x0C05 [2, 255, 0, 0, 0, 0, 0, 0, 0, 0, 0, 0, 0, 0, 0, 0, 0, 0, 0, 0], mk 0x0C05 [2, 255, 0, 0, 0, 0, 0, 0, 0, 0, 0, 0, 0, 0, 0, 0, 0, 0, 0, 0], [2, 255, 0, 0, 0, 0, 0, 0, 0, 0, 0, 0, 0, 0, 0, 0, 0, 0, 0, 0], 2, 255, met⟩
  · exact ⟨.cmd, ask (part .config) 0x0C05 [1, 255, 1, 0, 0, 0, 0, 0, 0, 0, 0, 0, 0, 0, 0, 0, 0, 0, 0, 0], mk 0x0C05 [1, 255, 1, 0, 0, 0, 0, 0, 0, 0, 0, 0, 0, 0, 0, 0, 0, 0, 0, 0], [1, 255, 1, 0, 0, 0, 0, 0, 0, 0, 0, 0, 0, 0, 0, 0, 0, 0, 0, 0], 1, 255, met⟩
  · exact ⟨.cmd, ask (part .config) 0x0C05 [0, 255, 1, 5, 0, 0, 0, 0, 0, 0, 0, 0, 0, 1, 0, 0, 0, 0, 0, 0, 255, 1, 32, 2, 0, 0, 128, 63, 0, 0, 0, 0], mk 0x0C05 [0, 255, 1, 5, 0, 0, 0, 0, 0, 0, 0, 0, 0, 1, 0, 0, 0, 0, 0, 0, 255, 1, 32, 2, 0, 0, 128, 63, 0, 0, 0, 0], [0, 255, 1, 5, 0, 0, 0, 0, 0, 0, 0, 0, 0, 1, 0, 0, 0, 0, 0, 0, 255, 1, 32, 2, 0, 0, 128, 63, 0, 0, 0, 0], 0, 255, met⟩
  · exact ⟨.cmd, ask (canOn 5 (fun x => { x with tapEntries := 16 })) 0x0C05 [2, 255, 1, 5, 0, 0, 0, 128, 0, 0, 0, 0, 15, 8, 0, 0, 0, 0, 0, 0, 224, 1, 32, 2, 0, 0, 128, 63, 0, 0, 0, 0, 224, 1, 32, 2, 0, 0, 128, 63, 0, 0, 0, 0, 224, 1, 32, 2, 0, 0, 128, 63, 0, 0, 0, 0, 224, 1, 32, 2, 0, 0, 128, 63, 0, 0, 0, 0, 224, 1, 32, 2, 0, 0, 128, 63, 0, 0, 0, 0, 224, 1, 32, 2, 0, 0, 128, 63, 0, 0, 0, 0, 224, 1, 32, 2, 0, 0, 128, 63, 0, 0, 0, 0, 224, 1, 32, 2, 0, 0, 128, 63, 0, 0, 0, 0], mk 0x0C05 [2, 255, 1, 5, 0, 0, 0, 128, 0, 0, 0, 0, 15, 8, 0, 0, 0, 0, 0, 0, 224, 1, 32, 2, 0, 0, 128, 63, 0, 0, 0, 0, 224, 1, 32, 2, 0, 0, 128, 63, 0, 0, 0, 0, 224, 1, 32, 2, 0, 0, 128, 63, 0, 0, 0, 0, 224, 1, 32, 2, 0, 0, 128, 63, 0, 0, 0, 0, 224, 1, 32, 2, 0, 0, 128, 63, 0, 0, 0, 0, 224, 1, 32, 2, 0, 0, 128, 63, 0, 0, 0, 0, 224, 1, 32, 2, 0, 0, 128, 63, 0, 0, 0, 0, 224, 1, 32, 2, 0, 0, 128, 63, 0, 0, 0, 0], [2, 255, 1, 5, 0, 0, 0, 128, 0, 0, 0, 0, 15, 8, 0, 0, 0, 0, 0, 0, 224, 1, 32, 2, 0, 0, 128, 63, 0, 0, 0, 0, 224, 1, 32, 2, 0, 0, 128, 63, 0, 0, 0, 0, 224, 1, 32, 2, 0, 0, 128, 63, 0, 0, 0, 0, 224, 1, 32, 2, 0, 0, 128, 63, 0, 0, 0, 0, 224, 1, 32, 2, 0, 0, 128, 63, 0, 0, 0, 0, 224, 1, 32, 2, 0, 0, 128, 63, 0, 0, 0, 0, 224, 1, 32, 2, 0, 0, 128, 63, 0, 0, 0, 0, 224, 1, 32, 2, 0, 0, 128, 63, 0, 0, 0, 0], 2, 255, 31, met⟩

/-- The hypotheses of `Obligations.CanBusEvents`, met leaf by leaf (part 1 of 3). -/
theorem witness_CanBusEvents :
    (∃ (p : ℕ) (s : State) (f : CanFrame) (ago : ℕ), Sized s ∧ p < 6 ∧ (getCan s p).bus = CanBus.active ∧ canJoined s (getCan s p) = true ∧ (f.fdf = true → (getCan s p).fd = true) ∧ s.can.rx = [] ∧ (getCan s p).tec < 128 ∧ (getCan s p).recv < 128 ∧ (getCan s p).acceptAll = false ∧ filterPass s p f.id = false)
    ∧ (∃ (p : ℕ) (s : State) (f : CanFrame) (ago : ℕ), Sized s ∧ p < 6 ∧ (getCan s p).bus = CanBus.active ∧ canJoined s (getCan s p) = true ∧ (f.fdf = true → (getCan s p).fd = true) ∧ s.can.rx = [] ∧ (getCan s p).tec < 128 ∧ (getCan s p).recv < 128 ∧ ((getCan s p).acceptAll = true ∨ filterPass s p f.id = true) ∧ (getCan s p).rxHeld < 64)
    ∧ (∃ (p : ℕ) (s : State) (f : CanFrame) (ago : ℕ), Sized s ∧ p < 6 ∧ (getCan s p).bus = CanBus.active ∧ canJoined s (getCan s p) = true ∧ (f.fdf = true → (getCan s p).fd = true) ∧ s.can.rx = [] ∧ (getCan s p).tec < 128 ∧ (getCan s p).recv < 128 ∧ ((getCan s p).acceptAll = true ∨ filterPass s p f.id = true) ∧ 64 ≤ (getCan s p).rxHeld)
    ∧ (∃ (p : ℕ) (s : State) (f : CanFrame) (ago : ℕ), Sized s ∧ p < 6 ∧ ((getCan s p).bus ≠ CanBus.active ∧ (getCan s p).bus ≠ CanBus.passive ∨ canJoined s (getCan s p) = false ∨ f.fdf = true ∧ (getCan s p).fd = false))
    ∧ (∃ (p : ℕ) (s : State) (e : ℕ), Sized s ∧ p < 6 ∧ ((getCan s p).bus = CanBus.active ∨ (getCan s p).bus = CanBus.passive) ∧ canJoined s (getCan s p) = true ∧ (getCan s p).restricted = false ∧ (getCan s p).shutting = none ∧ (getCan s p).current = none ∧ nextToSend s p = some e)
    ∧ (∃ (p : ℕ) (s : State), Sized s ∧ p < 6 ∧ ((getCan s p).current.isSome = true ∨ (getCan s p).restricted = true ∨ (getCan s p).shutting.isSome = true ∨ nextToSend s p = none))
    ∧ (∃ (p : ℕ) (s : State) (code : ℕ) (tec : ℕ) (recv : ℕ) (count : CanCount), Sized s ∧ p < 6 ∧ ((getCan s p).bus = CanBus.active ∨ (getCan s p).bus = CanBus.passive) ∧ canJoined s (getCan s p) = true ∧ (tec, recv) = canCounted (getCan s p) count) := by
  refine ⟨?_, ?_, ?_, ?_, ?_, ?_, ?_⟩
  · exact ⟨5, canOn 5 id, frame0, 100, met⟩
  · exact ⟨5, canOn 5 (fun x => { x with acceptAll := true, rxHeld := 63 }), frame0, 100, met⟩
  · exact ⟨5, canOn 5 (fun x => { x with acceptAll := true, rxHeld := 64 }), frame0, 100, met⟩
  · exact ⟨5, canOn 5 (fun x => { x with bus := .busOff }), frame0, 100, met⟩
  · exact ⟨5, canOn 5 (fun x => { x with queue := [31, 3] }), 31, met⟩
  · exact ⟨5, canOn 5 (fun x => { x with shutting := some 9 }), met⟩
  · exact ⟨5, canOn 5 (fun x => { x with tec := 248 }), 5, 256, 0, .transmitter, met⟩

/-- The hypotheses of `Obligations.CanBusEvents`, met leaf by leaf (part 2 of 3). -/
theorem witness_CanBusEvents_2 :
    (∃ (p : ℕ) (s : State) (code : ℕ) (count : CanCount), Sized s ∧ p < 6 ∧ ((getCan s p).bus ≠ CanBus.active ∧ (getCan s p).bus ≠ CanBus.passive ∨ canJoined s (getCan s p) = false))
    ∧ (∃ (p : ℕ) (s : State) (e : ℕ) (tdc : Byte), Sized s ∧ p < 6 ∧ (getCan s p).current = some e ∧ e ∈ (getCan s p).queue ∧ s.can.tx = [] ∧ (getCan s p).bus = CanBus.active ∧ (getCan s p).tec < 128 ∧ (getCan s p).recv < 128)
    ∧ (∃ (p : ℕ) (s : State) (e : ℕ) (result : ℕ) (tdc : Byte), Sized s ∧ p < 6 ∧ (getCan s p).current = some e ∧ e ∈ (getCan s p).queue ∧ s.can.tx = [] ∧ (getCan s p).bus = CanBus.active ∧ (getCan s p).tec < 128 ∧ (getCan s p).recv < 128 ∧ result ≠ 0 ∧ BitVec.getLsbD (byteAt (canEntry s (txAddr p e)) 4) 4 = false ∧ (getCan s p).tooLate = false)
    ∧ (∃ (p : ℕ) (s : State) (e : ℕ) (result : ℕ) (tdc : Byte), Sized s ∧ p < 6 ∧ (getCan s p).current = some e ∧ e ∈ (getCan s p).queue ∧ s.can.tx = [] ∧ (getCan s p).bus = CanBus.active ∧ (getCan s p).tec < 128 ∧ (getCan s p).recv < 128 ∧ result ≠ 0 ∧ (BitVec.getLsbD (byteAt (canEntry s (txAddr p e)) 4) 4 = true ∨ (getCan s p).tooLate = true))
    ∧ (∃ (p : ℕ) (s : State) (result : ℕ) (tdc : Byte), Sized s ∧ p < 6 ∧ (getCan s p).current = none)
    ∧ (∃ (p : ℕ) (s : State), Sized s ∧ p < 6 ∧ (getCan s p).bus = CanBus.recovering ∧ canJoined s (getCan s p) = true)
    ∧ (∃ (p : ℕ) (s : State), Sized s ∧ p < 6 ∧ (getCan s p).bus ≠ CanBus.recovering) := by
  refine ⟨?_, ?_, ?_, ?_, ?_, ?_, ?_⟩
  · exact ⟨5, part .config, 5, .none, met⟩
  · exact ⟨5, canOn 5 (fun x => { x with queue := [3], current := some 3 }), 3, 7, met⟩
  · exact ⟨5, canOn 5 (fun x => { x with queue := [3], current := some 3 }), 3, 2, 255, met⟩
  · exact ⟨5, canOn 5 (fun x => { x with queue := [3], current := some 3, tooLate := true }), 3, 2, 255, met⟩
  · exact ⟨5, canOn 5 id, 0, 255, met⟩
  · exact ⟨5, canOn 5 (fun x => { x with bus := .recovering }), met⟩
  · exact ⟨5, canOn 5 (fun x => { x with shutting := some 9 }), met⟩

/-- The hypotheses of `Obligations.CanBusEvents`, met leaf by leaf (part 3 of 3). -/
theorem witness_CanBusEvents_3 :
    (∃ (p : ℕ) (s : State), Sized s ∧ p < 6 ∧ (getCan s p).shutting.isSome = true ∧ (getCan s p).current = none)
    ∧ (∃ (p : ℕ) (s : State), Sized s ∧ p < 6 ∧ ((getCan s p).shutting = none ∨ (getCan s p).current.isSome = true))
    ∧ (∃ (p : ℕ) (s : State) (lost : Bool), Sized s ∧ p < 6 ∧ (getCan s p).away = true ∧ s.time.onFallback.getD 3 true = false)
    ∧ (∃ (p : ℕ) (s : State) (lost : Bool), Sized s ∧ p < 6 ∧ ((getCan s p).away = false ∨ s.time.onFallback.getD 3 true = true))
    ∧ (∃ (p : ℕ) (s : State) (k : ℕ) (q : ℕ) (id : U32) (m : U32) (f : CanField) (tmo : ℕ) (u : ℕ) (df : F32) (v : F32), Sized s ∧ p < 6 ∧ s.can.rx = [(k, RxTap.value q id m f tmo df v (some u))] ∧ tmo ≠ 0 ∧ v ≠ df)
    ∧ (∃ (p : ℕ) (s : State) (k : ℕ) (q : ℕ) (id : U32) (m : U32) (f : CanField) (tmo : ℕ) (u : ℕ) (df : F32) (v : F32), Sized s ∧ p < 6 ∧ s.can.rx = [(k, RxTap.value q id m f tmo df v (some u))] ∧ (tmo = 0 ∨ v = df)) := by
  refine ⟨?_, ?_, ?_, ?_, ?_, ?_⟩
  · exact ⟨5, canOn 5 (fun x => { x with shutting := some 9 }), met⟩
  · exact ⟨5, canOn 5 (fun x => { x with bus := .recovering }), met⟩
  · exact ⟨5, canOn 5 (fun x => { x with away := true }), true, met⟩
  · exact ⟨5, canOn 5 (fun x => { x with queue := [31, 3] }), 31, met⟩
  · exact ⟨0, ({ part .config with can := { can0 with rx := [(255, .value 0 0 0 fld 10 0 1 (some 9))] } }), 255, 0, 0, 0, fld, 10, 9, 0, 1, met⟩
  · exact ⟨5, { part .config with can := { can0 with rx := [(255, .value 0 0 0 fld 0 0 1 (some 9))] } }, 255, 0, 0, 0, fld, 0, 9, 0, 1, met⟩

/-- The hypotheses of `Obligations.FilterArithmeticStaysInQ123`, met leaf by leaf. -/
theorem witness_FilterArithmeticStaysInQ123 :
    (∃ (n : ℕ) (m : ℕ), 0 < m)
    ∧ (∃ (h : List ℤ) (x : List ℤ) (y : ℤ), (ratRound (mkRat (List.map (fun p => p.1 * p.2) (h.zip x)).sum (2 ^ 23)) = y) ∧ -2 ^ 23 ≤ y ∧ y ≤ 2 ^ 23 - 1)
    ∧ (∃ (h : List ℤ) (x : List ℤ) (y : ℤ), (ratRound (mkRat (List.map (fun p => p.1 * p.2) (h.zip x)).sum (2 ^ 23)) = y) ∧ 2 ^ 23 ≤ y)
    ∧ (∃ (h : List ℤ) (x : List ℤ) (y : ℤ), (ratRound (mkRat (List.map (fun p => p.1 * p.2) (h.zip x)).sum (2 ^ 23)) = y) ∧ y < -2 ^ 23) := by
  refine ⟨?_, ?_, ?_, ?_⟩
  · exact ⟨5, 2, met⟩
  · exact ⟨[2 ^ 23], [2 ^ 23 - 1], 2 ^ 23 - 1, met⟩
  · exact ⟨[2 ^ 23], [2 ^ 23], 2 ^ 23, met⟩
  · exact ⟨[2 ^ 23], [-2 ^ 23 - 1], -2 ^ 23 - 1, met⟩

/-- The hypotheses of `Obligations.RoundsAndConversions`, met leaf by leaf (part 1 of 3). -/
theorem witness_RoundsAndConversions :
    (∃ (s : State) (bits : List (List Bool)) (caps : List ℕ), Sized s)
    ∧ (∃ (s : State) (k : ℕ) (mac : Option U32), Sized s ∧ k < 79 ∧ s.time.onFallback.getD 2 true = false ∧ s.sense.round.done.contains k = false)
    ∧ (∃ (s : State) (k : ℕ), Sized s ∧ k < 79 ∧ s.time.onFallback.getD 2 true = false ∧ s.sense.round.done.contains k = false ∧ (∀ n < 8, stageLive s n = false ∧ (getStage s n).closed = [] ∧ (getStage s n).hist = []))
    ∧ (∃ (s : State) (k : ℕ), Sized s ∧ k < 79 ∧ (s.time.onFallback.getD 2 true = true ∨ s.sense.round.done.contains k = true))
    ∧ (∃ (s : State) (k : ℕ) (n : ℕ) (f : Frame) (a : Assign) (v : F32) (rv : RoundVals), Sized s ∧ k < 80 ∧ s.time.onFallback.getD 2 true = false ∧ (rv = if k = 79 then s.sense.late.getD s.sense.round else s.sense.round) ∧ rv.done.contains k = false ∧ (List.find? (fun a => decide (a.first + a.gang - 1 = k)) s.flt.assigns = some a) ∧ rv.vals.getD a.ch none = some v ∧ n < 8 ∧ stageLive s n = true ∧ (stageChannels s n).contains a.ch = true ∧ (getStage s n).frames = [f] ∧ f.round = rv.t ∧ (∀ m < 8, (getStage s m).closed = [] ∧ (getStage s m).hist = [] ∧ (m ≠ n → stageLive s m = false)) ∧ (f.spec = false ∨ ∀ p ∈ f.preds, p.channel ≠ a.ch))
    ∧ (∃ (s : State) (k : ℕ) (n : ℕ) (f : Frame) (a : Assign) (v : F32) (rv : RoundVals) (p : Pred) (j : ℕ) (i : DillInput), Sized s ∧ k < 80 ∧ s.time.onFallback.getD 2 true = false ∧ (rv = if k = 79 then s.sense.late.getD s.sense.round else s.sense.round) ∧ rv.done.contains k = false ∧ (List.find? (fun a => decide (a.first + a.gang - 1 = k)) s.flt.assigns = some a) ∧ rv.vals.getD a.ch none = some v ∧ n < 8 ∧ stageLive s n = true ∧ (stageChannels s n).contains a.ch = true ∧ (getStage s n).frames = [f] ∧ f.round = rv.t ∧ (∀ m < 8, (getStage s m).closed = [] ∧ (getStage s m).hist = [] ∧ (m ≠ n → stageLive s m = false)) ∧ f.spec = true ∧ (List.find? (fun p => decide (p.channel = a.ch)) f.preds = some p) ∧ (List.findIdx? (fun i => decide (i.channel = a.ch)) (getStage s n).dill.inputs = some j) ∧ (getStage s n).dill.inputs[j]? = some i ∧ hitTest i p.xhat v = true)
    ∧ (∃ (s : State) (k : ℕ) (n : ℕ) (f : Frame) (a : Assign) (v : F32) (rv : RoundVals) (p : Pred) (j : ℕ) (i : DillInput), Sized s ∧ k < 80 ∧ s.time.onFallback.getD 2 true = false ∧ (rv = if k = 79 then s.sense.late.getD s.sense.round else s.sense.round) ∧ rv.done.contains k = false ∧ (List.find? (fun a => decide (a.first + a.gang - 1 = k)) s.flt.assigns = some a) ∧ rv.vals.getD a.ch none = some v ∧ n < 8 ∧ stageLive s n = true ∧ (stageChannels s n).contains a.ch = true ∧ (getStage s n).frames = [f] ∧ f.round = rv.t ∧ (∀ m < 8, (getStage s m).closed = [] ∧ (getStage s m).hist = [] ∧ (m ≠ n → stageLive s m = false)) ∧ f.spec = true ∧ (List.find? (fun p => decide (p.channel = a.ch)) f.preds = some p) ∧ (List.findIdx? (fun i => decide (i.channel = a.ch)) (getStage s n).dill.inputs = some j) ∧ (getStage s n).dill.inputs[j]? = some i ∧ hitTest i p.xhat v = false)
    ∧ (∃ (s : State) (core : ℕ) (p : ℕ) (code : U16) (chk : Option (U16 × U16)), Sized s ∧ core < 4 ∧ p < 5 ∧ (s.sense.refState ≠ 2 ∨ (getCore s core).phys = none)) := by
  refine ⟨?_, ?_, ?_, ?_, ?_, ?_, ?_, ?_⟩
  · exact ⟨senseOn, [], [], met⟩
  · exact ⟨{ senseOn with sense := { (senseOn).sense with round := { senseOn.sense.round with done := [] } } }, 78, none, met⟩
  · exact ⟨({ senseOn with sense := { senseOn.sense with round := { senseOn.sense.round with done := [] } } }), 78, met⟩
  · exact ⟨{ senseOn with sense := { (senseOn).sense with round := { senseOn.sense.round with done := [78] } } }, 78, met⟩
  · exact ⟨({ running7 [] id with flt := { (running7 [] id).flt with assigns := [asg 79 none 1 1] }, sense := { (running7 [] id).sense with round := { (running7 [] id).sense.round with vals := List.replicate 80 (some 0), done := [], t := 0 } } }), 79, 7, fr0, asg 79 none 1 1, 0, { (running7 [] id).sense.round with vals := List.replicate 80 (some 0), done := [], t := 0 }, met⟩
  · exact ⟨updStage 7 (fun x => { x with frames := [{ fr0 with preds := [({ channel := 79, xhat := 0, x := none } : Pred)] }], dill := { x.dill with inputs := [({ channel := 79, predictor := 0, signal := 0, tolAbs := 0x3F800000#32, tolRel := 0 } : DillInput)] } }) ({ running7 [] id with flt := { (running7 [] id).flt with assigns := [asg 79 none 1 1] }, sense := { (running7 [] id).sense with round := { (running7 [] id).sense.round with vals := List.replicate 80 (some 0), done := [], t := 0 } } }), 79, 7, { fr0 with preds := [({ channel := 79, xhat := 0, x := none } : Pred)] }, asg 79 none 1 1, 0, { (running7 [] id).sense.round with vals := List.replicate 80 (some 0), done := [], t := 0 }, ({ channel := 79, xhat := 0, x := none } : Pred), 0, ({ channel := 79, predictor := 0, signal := 0, tolAbs := 0x3F800000#32, tolRel := 0 } : DillInput), met⟩
  · exact ⟨updStage 7 (fun x => { x with frames := [{ fr0 with preds := [({ channel := 79, xhat := 0, x := none } : Pred)] }], dill := { x.dill with inputs := [({ channel := 79, predictor := 0, signal := 0, tolAbs := 0x3F800000#32, tolRel := 0 } : DillInput)] } }) ({ running7 [] id with flt := { (running7 [] id).flt with assigns := [asg 79 none 1 1] }, sense := { (running7 [] id).sense with round := { (running7 [] id).sense.round with vals := List.replicate 80 (some 0x40000000#32), done := [], t := 0 } } }), 79, 7, { fr0 with preds := [({ channel := 79, xhat := 0, x := none } : Pred)] }, asg 79 none 1 1, 0x40000000#32, { (running7 [] id).sense.round with vals := List.replicate 80 (some 0x40000000#32), done := [], t := 0 }, ({ channel := 79, xhat := 0, x := none } : Pred), 0, ({ channel := 79, predictor := 0, signal := 0, tolAbs := 0x3F800000#32, tolRel := 0 } : DillInput), met⟩
  · exact ⟨part .config, 3, 4, 77, none, met⟩

/-- The hypotheses of `Obligations.RoundsAndConversions`, met leaf by leaf (part 2 of 3). -/
theorem witness_RoundsAndConversions_2 :
    (∃ (s : State) (core : ℕ) (p : ℕ) (start : ℕ) (code : U16) (chk : Option (U16 × U16)), Sized s ∧ core < 4 ∧ p < 5 ∧ start = s.sense.round.t + 200 * p ∧ s.sense.refState = 2 ∧ (getCore s core).phys.isSome = true ∧ start < s.sense.refDue)
    ∧ (∃ (s : State) (core : ℕ) (p : ℕ) (start : ℕ) (code : U16) (chk : Option (U16 × U16)), Sized s ∧ core < 4 ∧ p < 5 ∧ start = s.sense.round.t + 200 * p ∧ s.sense.refState = 2 ∧ (getCore s core).phys.isSome = true ∧ s.sense.refDue ≤ start ∧ seqEntry (getCore s core) (s.sense.round.t / 1000) p = 255 ∧ urgentInput s core start = none)
    ∧ (∃ (s : State) (core : ℕ) (p : ℕ) (start : ℕ) (code : U16) (chk : Option (U16 × U16)) (e : ℕ), Sized s ∧ core < 4 ∧ p < 5 ∧ start = s.sense.round.t + 200 * p ∧ s.sense.refState = 2 ∧ (getCore s core).phys.isSome = true ∧ s.sense.refDue ≤ start ∧ (chk = none ∨ p ≠ 0 ∨ checkedCore s ≠ core) ∧ e < 8 ∧ seqEntry (getCore s core) (s.sense.round.t / 1000) p = e)
    ∧ (∃ (s : State) (core : ℕ) (p : ℕ) (start : ℕ) (code : U16) (chk : Option (U16 × U16)) (i : ℕ), Sized s ∧ core < 4 ∧ p < 5 ∧ start = s.sense.round.t + 200 * p ∧ s.sense.refState = 2 ∧ (getCore s core).phys.isSome = true ∧ s.sense.refDue ≤ start ∧ (chk = none ∨ p ≠ 0 ∨ checkedCore s ≠ core) ∧ i < 8 ∧ seqEntry (getCore s core) (s.sense.round.t / 1000) p = 255 ∧ urgentInput s core start = some i)
    ∧ (∃ (s : State) (core : ℕ) (p : ℕ) (start : ℕ) (code : U16) (e : ℕ) (k : U16 × U16), Sized s ∧ core < 4 ∧ p < 5 ∧ start = s.sense.round.t + 200 * p ∧ s.sense.refState = 2 ∧ (getCore s core).phys.isSome = true ∧ e < 8 ∧ s.sense.refDue ≤ start ∧ p = 0 ∧ checkedCore s = core ∧ seqEntry (getCore s core) (s.sense.round.t / 1000) p = e ∧ sar4Spare s = true ∧ s.sense.probe = none ∧ (BitVec.toNat k.1 + 32 < BitVec.toNat code ∨ BitVec.toNat code + 32 < BitVec.toNat k.1))
    ∧ (∃ (s : State) (core : ℕ) (p : ℕ) (code : U16) (chk : Option (U16 × U16)), Sized s ∧ core < 4 ∧ p < 5 ∧ s.sense.refState = 2 ∧ (getCore s core).phys.isSome = true ∧ ((getCore s core).phys ≠ some 4 ∨ s.sense.sarFix = none))
    ∧ (∃ (s : State) (core : ℕ) (p : ℕ) (code : U16) (chk : Option (U16 × U16)) (o : ℚ) (g : ℚ) (y : ℤ), Sized s ∧ core < 4 ∧ p < 5 ∧ s.sense.refState = 2 ∧ (getCore s core).phys.isSome = true ∧ (getCore s core).phys = some 4 ∧ s.sense.sarFix = some (o, g) ∧ ratRound (o + g * ↑(BitVec.toNat code)) = y)
    ∧ (∃ (s : State) (ch : ℕ) (level : Bool), Sized s ∧ ch < 48 ∧ (getSense s ch).stuck = false ∧ mclkRuns s (ch / 6) = true) := by
  refine ⟨?_, ?_, ?_, ?_, ?_, ?_, ?_, ?_⟩
  · exact ⟨{ senseOn with sense := { (senseOn).sense with refDue := 801 } }, 0, 4, senseOn.sense.round.t + 800, 77, none, met⟩
  · exact ⟨updCore 0 (fun x => { x with seq := [0xFF] }) senseOn, 0, 4, senseOn.sense.round.t + 800, 77, none, met⟩
  · exact ⟨senseOn, 0, 4, senseOn.sense.round.t + 800, 77, none, 4, met⟩
  · exact ⟨{ (updCore 0 (fun x => { x with seq := [0xFF], urgent := [7] }) senseOn) with sense := { ((updCore 0 (fun x => { x with seq := [0xFF], urgent := [7] }) senseOn)).sense with urgents := [{ waits 0x0405 [128, 0, 0, 0] with left := 0x80, at0 := senseOn.sense.round.t }] } }, 0, 4, senseOn.sense.round.t + 800, 77, none, 7, met⟩
  · exact ⟨senseOn, 0, 0, senseOn.sense.round.t, 100, 0, (67, 0), met⟩
  · exact ⟨senseOn, 3, 4, 77, none, met⟩
  · exact ⟨{ senseOn with sense := { senseOn.sense with cores := upd senseOn.sense.cores 3 (fun x => { x with phys := some 4 }), sarFix := some (1, 2) } }, 3, 4, 77, none, 1, 2, 155, met⟩
  · exact ⟨pllSt 1 .locked (updOut 7 (fun x => { x with enable := true }) senseOn), 47, true, met⟩

/-- The hypotheses of `Obligations.RoundsAndConversions`, met leaf by leaf (part 3 of 3). -/
theorem witness_RoundsAndConversions_3 :
    (∃ (s : State) (ch : ℕ) (level : Bool), Sized s ∧ ((getSense s ch).stuck = true ∨ mclkRuns s (ch / 6) = false))
    ∧ (∃ (s : State), Sized s ∧ s.sense.refState = 1)
    ∧ (∃ (s : State), Sized s ∧ s.sense.refState ≠ 1)
    ∧ (∃ (s : State) (ch : ℕ), Sized s ∧ 0 < (getSense s ch).slowN ∧ (getSense s ch).slowN * (getSense s ch).slowM ≤ (getSense s ch).slowCount)
    ∧ (∃ (s : State) (ch : ℕ), Sized s ∧ ((getSense s ch).slowN = 0 ∨ (getSense s ch).slowCount < (getSense s ch).slowN * (getSense s ch).slowM))
    ∧ (∃ (s : State) (ch : ℕ) (n : ℕ) (a : Assign), Sized s ∧ assignOf s.flt.assigns ch = some a ∧ settleNeed s s.flt.sets a = some n)
    ∧ (∃ (s : State) (ch : ℕ), Sized s ∧ assignOf s.flt.assigns ch = none) := by
  refine ⟨?_, ?_, ?_, ?_, ?_, ?_, ?_⟩
  · exact ⟨senseOn, 47, true, met⟩
  · exact ⟨({ senseOn with sense := { senseOn.sense with refState := 1 } }), met⟩
  · exact ⟨senseOn, met⟩
  · exact ⟨updSense 79 (fun x => { x with slowN := 4, slowM := 5, slowCount := 20 }) senseOn, 79, met⟩
  · exact ⟨updFch 79 (fun x => { x with settled := false }) senseOn, 79, met⟩
  · exact ⟨updFch 79 (fun x => { x with settled := false }) senseOn, 79, 0, assign0 79, met⟩
  · exact ⟨{ part .config with flt := { (part .config).flt with assigns := [] } }, 79, met⟩

/-- The hypotheses of `Obligations.SenseRequests`, met leaf by leaf (part 1 of 2). -/
theorem witness_SenseRequests :
    (∃ (via : Transport) (s : State) (r : Req) (p : Bytes), s.sys.dev ≠ DevState.boot ∧ p = reqParams r ∧ Sized s ∧ Takes 0x400#16 via s r ∧ p = [1, 0, 0, 0] ∧ s.sense.refState = 0)
    ∧ (∃ (via : Transport) (s : State) (r : Req) (p : Bytes), s.sys.dev ≠ DevState.boot ∧ p = reqParams r ∧ Sized s ∧ Takes 0x400#16 via s r ∧ p = [1, 0, 0, 0] ∧ s.sense.refState ≠ 0)
    ∧ (∃ (via : Transport) (s : State) (r : Req) (p : Bytes), s.sys.dev ≠ DevState.boot ∧ p = reqParams r ∧ Sized s ∧ Takes 0x400#16 via s r ∧ p = [0, 0, 0, 0] ∧ (allStagesOff s = false ∨ ∃ k ∈ s.sense.cals, 48 ≤ k.ch))
    ∧ (∃ (via : Transport) (s : State) (r : Req) (p : Bytes), s.sys.dev ≠ DevState.boot ∧ p = reqParams r ∧ Sized s ∧ Takes 0x400#16 via s r ∧ p = [0, 0, 0, 0] ∧ allStagesOff s = true ∧ (∀ k ∈ s.sense.cals, k.ch < 48))
    ∧ (∃ (via : Transport) (s : State) (r : Req) (p : Bytes) (c : ℕ) (d : ℕ) (foc : ℕ) (n : ℕ) (m : ℕ), s.sys.dev ≠ DevState.boot ∧ p = reqParams r ∧ Sized s ∧ Takes 0x401#16 via s r ∧ List.length p = 20 ∧ n8At p 0 = 0 ∧ n8At p 1 = c ∧ n8At p 2 = d ∧ n8At p 3 = foc ∧ n8At p 12 = n ∧ n32At p 16 = m ∧ zeroAt p 13 3 = true ∧ c < 80 ∧ readLive s c = false ∧ watchedLive s c = false ∧ chanLost s c = false ∧ d ≤ 63 ∧ (foc = 0 ∨ 8 ≤ foc ∧ foc ≤ 32) ∧ (48 ≤ c → d = 0 ∧ foc = 0) ∧ f32MagIn (u32At p 4) (1 / 1000000) 1000000 = true ∧ f32In (u32At p 8) (-1) 1 = true ∧ n ≤ 4 ∧ (n = 0 → m = 0) ∧ (n ≠ 0 → 2 ≤ m ∧ m ≤ 1000000) ∧ (c < 48 → (getOut s (c / 6)).enable = true → delayTooLong d (mclkPeriod s (c / 6)) = false))
    ∧ (∃ (via : Transport) (s : State) (r : Req) (p : Bytes) (c : ℕ) (n : ℕ), s.sys.dev ≠ DevState.boot ∧ p = reqParams r ∧ Sized s ∧ Takes 0x401#16 via s r ∧ List.length p = 20 ∧ n8At p 0 = 1 ∧ n8At p 1 = c ∧ n8At p 2 = n ∧ n8At p 3 = 0 ∧ c < 4 ∧ 1 ≤ n ∧ n ≤ 16 ∧ (∀ i < 8, readLive s (48 + 8 * c + i) = false) ∧ (∀ i < n, n8At p (4 + i) < 8 ∨ n8At p (4 + i) = 255) ∧ (∀ i < 16, n ≤ i → n8At p (4 + i) = 255) ∧ (getCore s c).phys.isSome = true)
    ∧ (∃ (via : Transport) (s : State) (r : Req) (p : Bytes) (i : ℕ) (a : ℕ) (b : ℕ) (mode : ℕ), s.sys.dev ≠ DevState.boot ∧ p = reqParams r ∧ Sized s ∧ Takes 0x401#16 via s r ∧ List.length p = 8 ∧ n8At p 0 = 2 ∧ n8At p 1 = i ∧ n8At p 2 = a ∧ n8At p 3 = b ∧ n8At p 4 = mode ∧ zeroAt p 5 3 = true ∧ i < 64 ∧ mode < 3 ∧ sourceOk s a = true ∧ sourceOk s b = true ∧ sourceLost s a = false ∧ sourceLost s b = false)
    ∧ (∃ (via : Transport) (s : State) (r : Req) (p : Bytes) (i : ℕ) (a : ℕ) (mode : ℕ), s.sys.dev ≠ DevState.boot ∧ p = reqParams r ∧ Sized s ∧ Takes 0x401#16 via s r ∧ List.length p = 4 ∧ n8At p 0 = 3 ∧ n8At p 1 = i ∧ n8At p 2 = a ∧ n8At p 3 = mode ∧ i < 64 ∧ mode < 3 ∧ sourceOk s a = true ∧ sourceLost s a = false) := by
  refine ⟨?_, ?_, ?_, ?_, ?_, ?_, ?_, ?_⟩
  · exact ⟨.cmd, ask (part .config) 0x0400 [1, 0, 0, 0], mk 0x0400 [1, 0, 0, 0], [1, 0, 0, 0], met⟩
  · exact ⟨.cmd, ask (senseOn) 0x0400 [1, 0, 0, 0], mk 0x0400 [1, 0, 0, 0], [1, 0, 0, 0], met⟩
  · exact ⟨.cmd, ask (withCal (cal 79 false 0)) 0x0400 [0, 0, 0, 0], mk 0x0400 [0, 0, 0, 0], [0, 0, 0, 0], met⟩
  · exact ⟨.cmd, ask senseOn 0x0400 [0, 0, 0, 0], mk 0x0400 [0, 0, 0, 0], [0, 0, 0, 0], met⟩
  · exact ⟨.cmd, ask (part .config) 0x0401 [0, 79, 0, 0, 0, 0, 128, 63, 0, 0, 128, 191, 4, 0, 0, 0, 64, 66, 15, 0], mk 0x0401 [0, 79, 0, 0, 0, 0, 128, 63, 0, 0, 128, 191, 4, 0, 0, 0, 64, 66, 15, 0], [0, 79, 0, 0, 0, 0, 128, 63, 0, 0, 128, 191, 4, 0, 0, 0, 64, 66, 15, 0], 79, 0, 0, 4, 1000000, met⟩
  · exact ⟨.cmd, ask (senseOn) 0x0401 [1, 3, 16, 0, 7, 7, 7, 7, 7, 7, 7, 7, 7, 7, 7, 7, 7, 7, 7, 255], mk 0x0401 [1, 3, 16, 0, 7, 7, 7, 7, 7, 7, 7, 7, 7, 7, 7, 7, 7, 7, 7, 255], [1, 3, 16, 0, 7, 7, 7, 7, 7, 7, 7, 7, 7, 7, 7, 7, 7, 7, 7, 255], 3, 16, met⟩
  · exact ⟨.cmd, ask (part .config) 0x0401 [2, 63, 79, 255, 2, 0, 0, 0], mk 0x0401 [2, 63, 79, 255, 2, 0, 0, 0], [2, 63, 79, 255, 2, 0, 0, 0], 63, 79, 255, 2, met⟩
  · exact ⟨.cmd, ask (part .config) 0x0401 [3, 63, 79, 2], mk 0x0401 [3, 63, 79, 2], [3, 63, 79, 2], 63, 79, 2, met⟩

/-- The hypotheses of `Obligations.SenseRequests`, met leaf by leaf (part 2 of 2). -/
theorem witness_SenseRequests_2 :
    (∃ (via : Transport) (s : State) (r : Req) (p : Bytes) (c : ℕ) (n : ℕ), s.sys.dev ≠ DevState.boot ∧ p = reqParams r ∧ Sized s ∧ n8At p 0 = c ∧ n16At p 2 = n ∧ c < 80 ∧ 0 < n ∧ n8At p 1 < 2 ∧ (n8At p 1 = 1 → 0 < (getSense s c).slowN) ∧ readLive s c = false ∧ watchedLive s c = false ∧ chanLost s c = false ∧ (∀ x ∈ s.sense.cals, x.ch ≠ c) ∧ (48 ≤ c → s.sense.refState = 2) ∧ Takes 0x402#16 via s r ∧ List.length p = 4 ∧ classFull s 0x402#16 = false)
    ∧ (∃ (via : Transport) (s : State) (r : Req) (p : Bytes) (c : ℕ) (n : ℕ), s.sys.dev ≠ DevState.boot ∧ p = reqParams r ∧ Sized s ∧ n8At p 0 = c ∧ n16At p 2 = n ∧ c < 80 ∧ 0 < n ∧ n8At p 1 < 2 ∧ (n8At p 1 = 1 → 0 < (getSense s c).slowN) ∧ readLive s c = false ∧ watchedLive s c = false ∧ chanLost s c = false ∧ (∀ x ∈ s.sense.cals, x.ch ≠ c) ∧ (48 ≤ c → s.sense.refState = 2) ∧ Takes 0x403#16 via s r ∧ List.length p = 8 ∧ classFull s 0x403#16 = false ∧ f32Bad (u32At p 4) = false ∧ f32Val (u32At p 4) ≠ 0)
    ∧ (∃ (via : Transport) (s : State) (r : Req) (p : Bytes), s.sys.dev ≠ DevState.boot ∧ p = reqParams r ∧ Sized s ∧ Takes 0x404#16 via s r ∧ List.length p = 4 ∧ n8At p 0 < 64 ∧ 1 ≤ n8At p 1 ∧ n8At p 2 ≤ 3 ∧ n8At p 3 = 0 ∧ n8At p 0 + n8At p 1 ≤ 64 ∧ (n8At p 1 ≤ if 2 ≤ n8At p 2 then 15 else 31))
    ∧ (∃ (via : Transport) (s : State) (r : Req) (p : Bytes), s.sys.dev ≠ DevState.boot ∧ p = reqParams r ∧ Sized s ∧ Takes 0x405#16 via s r ∧ List.length p = 4 ∧ u32At p 0 ≠ 0 ∧ (∀ i < 32, BitVec.getLsbD (u32At p 0) i = true → chanLost s (48 + i) = false) ∧ s.sense.refState = 2)
    ∧ (∃ (via : Transport) (s : State) (r : Req) (p : Bytes), s.sys.dev ≠ DevState.boot ∧ p = reqParams r ∧ Sized s ∧ Takes 0x405#16 via s r ∧ List.length p = 4 ∧ u32At p 0 ≠ 0 ∧ (∀ i < 32, BitVec.getLsbD (u32At p 0) i = true → chanLost s (48 + i) = false) ∧ s.sense.refState ≠ 2)
    ∧ (∃ (via : Transport) (s : State) (r : Req) (p : Bytes) (i : ℕ), s.sys.dev ≠ DevState.boot ∧ p = reqParams r ∧ Sized s ∧ i < 32 ∧ Takes 0x405#16 via s r ∧ p = le32 (1#32 <<< i) ∧ chanLost s (48 + i) = false ∧ s.sense.refState = 2 ∧ (getCore s (i / 8)).urgent.contains (i % 8) = true)
    ∧ (∃ (via : Transport) (s : State) (r : Req) (p : Bytes) (i : ℕ), s.sys.dev ≠ DevState.boot ∧ p = reqParams r ∧ Sized s ∧ i < 32 ∧ Takes 0x405#16 via s r ∧ p = le32 (1#32 <<< i) ∧ chanLost s (48 + i) = false ∧ s.sense.refState = 2 ∧ (getCore s (i / 8)).urgent.contains (i % 8) = false ∧ (getCore s (i / 8)).urgent.length < 4)
    ∧ (∃ (via : Transport) (s : State) (r : Req) (p : Bytes) (i : ℕ), s.sys.dev ≠ DevState.boot ∧ p = reqParams r ∧ Sized s ∧ i < 32 ∧ Takes 0x405#16 via s r ∧ p = le32 (1#32 <<< i) ∧ chanLost s (48 + i) = false ∧ s.sense.refState = 2 ∧ (getCore s (i / 8)).urgent.contains (i % 8) = false ∧ 4 ≤ (getCore s (i / 8)).urgent.length) := by
  refine ⟨?_, ?_, ?_, ?_, ?_, ?_, ?_, ?_⟩
  · exact ⟨.cmd, ask (senseOn) 0x0402 [79, 0, 255, 255], mk 0x0402 [79, 0, 255, 255], [79, 0, 255, 255], 79, 65535, met⟩
  · exact ⟨.cmd, ask (senseOn) 0x0403 [79, 0, 255, 255, 0, 0, 128, 191], mk 0x0403 [79, 0, 255, 255, 0, 0, 128, 191], [79, 0, 255, 255, 0, 0, 128, 191], 79, 65535, met⟩
  · exact ⟨.cmd, ask (part .config) 0x0404 [33, 31, 1, 0], mk 0x0404 [33, 31, 1, 0], [33, 31, 1, 0], met⟩
  · exact ⟨.cmd, ask senseOn 0x0405 [0, 0, 0, 128], mk 0x0405 [0, 0, 0, 128], [0, 0, 0, 128], met⟩
  · exact ⟨.cmd, ask (part .config) 0x0405 [0, 0, 0, 128], mk 0x0405 [0, 0, 0, 128], [0, 0, 0, 128], met⟩
  · exact ⟨.cmd, ask (updCore 3 (fun x => { x with urgent := [7] }) senseOn) 0x0405 [0, 0, 0, 128], mk 0x0405 [0, 0, 0, 128], [0, 0, 0, 128], 31, met⟩
  · exact ⟨.cmd, ask senseOn 0x0405 [0, 0, 0, 128], mk 0x0405 [0, 0, 0, 128], [0, 0, 0, 128], 31, met⟩
  · exact ⟨.cmd, ask (updCore 3 (fun x => { x with urgent := [0, 1, 2, 3] }) senseOn) 0x0405 [0, 0, 0, 128], mk 0x0405 [0, 0, 0, 128], [0, 0, 0, 128], 31, met⟩

/-- The hypotheses of `Obligations.CalibrationsLatchesAndFilters`, met leaf by leaf (part 1 of 3). -/
theorem witness_CalibrationsLatchesAndFilters :
    (∃ (ch : ℕ) (k : CalRun) (s : State), Sized s ∧ ch < 80 ∧ (List.find? (fun k => decide (k.ch = ch ∧ k.left = 0)) s.sense.cals = some k) ∧ k.span = false ∧ ratAbs (k.sum / ↑k.n - f32Val (getSense s ch).nomZero) ≤ 1 / 10)
    ∧ (∃ (ch : ℕ) (k : CalRun) (s : State), Sized s ∧ ch < 80 ∧ (List.find? (fun k => decide (k.ch = ch ∧ k.left = 0)) s.sense.cals = some k) ∧ k.span = false ∧ 1 / 10 < ratAbs (k.sum / ↑k.n - f32Val (getSense s ch).nomZero))
    ∧ (∃ (ch : ℕ) (k : CalRun) (s : State) (d : ℚ) (sc : ℚ), Sized s ∧ ch < 80 ∧ (List.find? (fun k => decide (k.ch = ch ∧ k.left = 0)) s.sense.cals = some k) ∧ k.span = true ∧ d = k.sum / ↑k.n - f32Val (getSense s ch).zero ∧ sc = f32Val k.applied / d ∧ f32Val (getSense s ch).nomScale ≠ 0 ∧ (ratAbs d < 2 / 100 ∨ sc / f32Val (getSense s ch).nomScale < 8 / 10 ∨ 12 / 10 < sc / f32Val (getSense s ch).nomScale))
    ∧ (∃ (ch : ℕ) (k : CalRun) (s : State) (d : ℚ) (sc : ℚ), Sized s ∧ ch < 80 ∧ (List.find? (fun k => decide (k.ch = ch ∧ k.left = 0)) s.sense.cals = some k) ∧ k.span = true ∧ d = k.sum / ↑k.n - f32Val (getSense s ch).zero ∧ sc = f32Val k.applied / d ∧ 2 / 100 ≤ ratAbs d ∧ f32Val (getSense s ch).nomScale ≠ 0 ∧ 8 / 10 ≤ sc / f32Val (getSense s ch).nomScale ∧ sc / f32Val (getSense s ch).nomScale ≤ 12 / 10)
    ∧ (∃ (ch : ℕ) (s : State), (List.find? (fun k => decide (k.ch = ch ∧ k.left = 0)) s.sense.cals = none))
    ∧ (∃ (s : State), s.sense.accRead = []) := by
  refine ⟨?_, ?_, ?_, ?_, ?_, ?_⟩
  · exact ⟨79, cal 79 false 0, withCal (cal 79 false 0), met⟩
  · exact ⟨79, cal 79 false 1, withCal (cal 79 false 1), met⟩
  · exact ⟨79, cal 79 true (1 / 100), withCal (cal 79 true (1 / 100)), 1 / 100, 100, met⟩
  · exact ⟨79, cal 79 true (10 / 12), withCal (cal 79 true (10 / 12)), 10 / 12, 12 / 10, met⟩
  · exact ⟨79, part .config, met⟩
  · exact ⟨({ senseOn with sense := { senseOn.sense with urgents := [waits 0x0405 [3, 0, 0, 0]] } }), met⟩

/-- The hypotheses of `Obligations.CalibrationsLatchesAndFilters`, met leaf by leaf (part 2 of 3). -/
theorem witness_CalibrationsLatchesAndFilters_2 :
    (∃ (s : State), s.sense.urgents = [])
    ∧ (∃ (s : State) (w : SenseWait) (rest : List SenseWait) (first : ℕ) (n : ℕ) (fl : ℕ), s.sense.accRead = w :: rest ∧ n8At (reqParams w.req) 0 = first ∧ n8At (reqParams w.req) 1 = n ∧ n8At (reqParams w.req) 2 = fl)
    ∧ (∃ (s : State) (w : SenseWait) (rest : List SenseWait), s.sense.urgents = w :: rest ∧ w.left = 0)
    ∧ (∃ (s : State) (w : SenseWait) (rest : List SenseWait), s.sense.urgents = w :: rest ∧ w.left ≠ 0)
    ∧ (∃ (via : Transport) (s : State) (r : Req) (p : Bytes) (f : FltSet) (k : ℕ), s.sys.dev ≠ DevState.boot ∧ p = reqParams r ∧ Takes 0x500#16 via s r ∧ List.length p = 12 ∧ n8At p 0 = k ∧ n8At p 1 = f.typ ∧ n16At p 2 = f.taps ∧ n16At p 4 = f.base ∧ zeroAt p 6 2 = true ∧ k < 64 ∧ f.typ < 3 ∧ 0 < f.taps ∧ f.taps ≤ 512 ∧ f.base + f.taps ≤ 12288 ∧ (Option.map (fun x => x.taps) (s.flt.setsReq.getD k none) = some f.taps ∨ ∀ c ∈ setUsers s k, readLive s c = false) ∧ (∀ a ∈ s.flt.assignsReq, a.set = some k → withinBudget (lanes s) a f.taps = true) ∧ ((List.map (tapsOf (upd s.flt.setsReq k fun x => some f)) s.flt.assignsReq).sum ≤ 4096) ∧ bytesLost s 33 (4 * f.base) (4 * f.taps) = false ∧ (∀ i < f.taps, memRead s.flt.mem (4 * (f.base + i) + 3) = 0) ∧ (f.typ = 0 → ∀ i < f.taps, u32At (memReadBytes s.flt.mem (4 * (f.base + i)) 4) 0 = u32At (memReadBytes s.flt.mem (4 * (f.base + (f.taps - 1 - i))) 4) 0) ∧ (∀ j < 64, j ≠ k → ∀ (g : FltSet), s.flt.setsReq.getD j none = some g → g.base + g.taps ≤ f.base ∨ f.base + f.taps ≤ g.base) ∧ crc32c (memReadBytes s.flt.mem (4 * f.base) (4 * f.taps)) = u32At p 8)
    ∧ (∃ (via : Transport) (s : State) (r : Req) (p : Bytes) (k : ℕ), s.sys.dev ≠ DevState.boot ∧ p = reqParams r ∧ Takes 0x500#16 via s r ∧ List.length p = 12 ∧ n8At p 0 = k ∧ n8At p 1 < 3 ∧ n16At p 2 = 0 ∧ n16At p 4 ≤ 12287 ∧ zeroAt p 6 2 = true ∧ k < 64 ∧ u32At p 8 = crc32c [] ∧ bytesLost s 33 (4 * n16At p 4) 0 = false ∧ setUsers s k = [] ∧ (List.map (tapsOf s.flt.setsReq) s.flt.assignsReq).sum ≤ 4096) := by
  refine ⟨?_, ?_, ?_, ?_, ?_, ?_⟩
  · exact ⟨withCal (cal 79 false 0), met⟩
  · exact ⟨({ senseOn with sense := { senseOn.sense with accRead := [waits 0x0404 [60, 4, 1, 0]] } }), waits 0x0404 [60, 4, 1, 0], [], 60, 4, 1, met⟩
  · exact ⟨({ senseOn with sense := { senseOn.sense with urgents := [waits 0x0405 [3, 0, 0, 0]] } }), waits 0x0405 [3, 0, 0, 0], [], met⟩
  · exact ⟨{ senseOn with sense := { (senseOn).sense with urgents := [{ waits 0x0405 [3, 0, 0, 0] with left := 1 }] } }, { waits 0x0405 [3, 0, 0, 0] with left := 1 }, [], met⟩
  · exact ⟨.cmd, ask (part .config) 0x0500 [63, 0, 1, 0, 0, 0, 0, 0, 199, 75, 103, 72], mk 0x0500 [63, 0, 1, 0, 0, 0, 0, 0, 199, 75, 103, 72], [63, 0, 1, 0, 0, 0, 0, 0, 199, 75, 103, 72], zeroTap, 63, met⟩
  · exact ⟨.cmd, ask (part .config) 0x0500 [63, 0, 0, 0, 255, 47, 0, 0, 0, 0, 0, 0], mk 0x0500 [63, 0, 0, 0, 255, 47, 0, 0, 0, 0, 0, 0], [63, 0, 0, 0, 255, 47, 0, 0, 0, 0, 0, 0], 63, met⟩

/-- The hypotheses of `Obligations.CalibrationsLatchesAndFilters`, met leaf by leaf (part 3 of 3). -/
theorem witness_CalibrationsLatchesAndFilters_3 :
    (∃ (via : Transport) (s : State) (r : Req) (p : Bytes) (k : ℕ), s.sys.dev ≠ DevState.boot ∧ p = reqParams r ∧ Takes 0x500#16 via s r ∧ List.length p = 12 ∧ n8At p 0 = k ∧ n16At p 2 = 0 ∧ k < 64 ∧ setUsers s k ≠ [])
    ∧ (∃ (via : Transport) (s : State) (r : Req) (p : Bytes) (a : Assign), s.sys.dev ≠ DevState.boot ∧ p = reqParams r ∧ Takes 0x501#16 via s r ∧ List.length p = 16 ∧ n8At p 0 = a.first ∧ n8At p 1 = a.gang ∧ n8At p 2 = a.ch ∧ n8At p 4 = a.n ∧ n8At p 5 = 0 ∧ n16At p 6 = a.m ∧ n16At p 8 = a.r ∧ zeroAt p 10 6 = true ∧ (∀ x ∈ s.flt.assignsReq, x.ch ≠ a.ch → overlaps a x = true → readLive s x.ch = false) ∧ (a.ch < 80 → readLive s a.ch = false) ∧ 1 ≤ a.gang ∧ a.gang ≤ 8 ∧ a.first + a.gang ≤ 80 ∧ a.ch = 255)
    ∧ (∃ (via : Transport) (s : State) (r : Req) (p : Bytes) (a : Assign), s.sys.dev ≠ DevState.boot ∧ p = reqParams r ∧ Takes 0x501#16 via s r ∧ List.length p = 16 ∧ n8At p 0 = a.first ∧ n8At p 1 = a.gang ∧ n8At p 2 = a.ch ∧ n8At p 4 = a.n ∧ n8At p 5 = 0 ∧ n16At p 6 = a.m ∧ n16At p 8 = a.r ∧ zeroAt p 10 6 = true ∧ (∀ x ∈ s.flt.assignsReq, x.ch ≠ a.ch → overlaps a x = true → readLive s x.ch = false) ∧ (a.ch < 80 → readLive s a.ch = false) ∧ 1 ≤ a.gang ∧ a.gang ≤ 8 ∧ a.first + a.gang ≤ 80 ∧ a.ch < 80 ∧ a.set = none ∧ n8At p 3 = 255 ∧ a.r = 1 ∧ (a.ch < 48 → 1 ≤ a.n ∧ a.n ≤ 4 ∧ 4 ≤ a.m ∧ a.m ≤ 256) ∧ (48 ≤ a.ch → a.n = 0 ∧ a.m = 0) ∧ chanLost s a.ch = false ∧ ((List.map (tapsOf s.flt.setsReq) (List.filter (fun b => decide (b.ch ≠ a.ch) && !overlaps a b) s.flt.assignsReq)).sum ≤ 4096))
    ∧ (∃ (via : Transport) (s : State) (r : Req) (p : Bytes) (a : Assign) (k : ℕ) (f : FltSet), s.sys.dev ≠ DevState.boot ∧ p = reqParams r ∧ Takes 0x501#16 via s r ∧ List.length p = 16 ∧ n8At p 0 = a.first ∧ n8At p 1 = a.gang ∧ n8At p 2 = a.ch ∧ n8At p 4 = a.n ∧ n8At p 5 = 0 ∧ n16At p 6 = a.m ∧ n16At p 8 = a.r ∧ zeroAt p 10 6 = true ∧ (∀ x ∈ s.flt.assignsReq, x.ch ≠ a.ch → overlaps a x = true → readLive s x.ch = false) ∧ (a.ch < 80 → readLive s a.ch = false) ∧ 1 ≤ a.gang ∧ a.gang ≤ 8 ∧ a.first + a.gang ≤ 80 ∧ a.ch < 80 ∧ a.set = some k ∧ n8At p 3 = k ∧ k < 64 ∧ s.flt.setsReq.getD k none = some f ∧ 1 ≤ a.r ∧ a.r ≤ 64 ∧ (a.ch < 48 → 1 ≤ a.n ∧ a.n ≤ 4 ∧ 4 ≤ a.m ∧ a.m ≤ 256) ∧ (48 ≤ a.ch → a.n = 0 ∧ a.m = 0) ∧ chanLost s a.ch = false ∧ withinBudget (lanes s) a f.taps = true ∧ (f.taps + (List.map (tapsOf s.flt.setsReq) (List.filter (fun b => decide (b.ch ≠ a.ch) && !overlaps a b) s.flt.assignsReq)).sum ≤ 4096))
    ∧ (∃ (via : Transport) (s : State) (r : Req) (p : Bytes) (c : ℕ), s.sys.dev ≠ DevState.boot ∧ p = reqParams r ∧ Takes 0x502#16 via s r ∧ List.length p = 8 ∧ n8At p 0 = c ∧ c < 80 ∧ zeroAt p 1 3 = true ∧ f32In (u32At p 4) 0 500000 = true ∧ assignOf s.flt.assigns c = none)
    ∧ (∃ (via : Transport) (s : State) (r : Req) (p : Bytes) (c : ℕ) (a : Assign), s.sys.dev ≠ DevState.boot ∧ p = reqParams r ∧ Takes 0x502#16 via s r ∧ List.length p = 8 ∧ n8At p 0 = c ∧ c < 80 ∧ zeroAt p 1 3 = true ∧ f32In (u32At p 4) 0 500000 = true ∧ assignOf s.flt.assigns c = some a) := by
  refine ⟨?_, ?_, ?_, ?_, ?_, ?_⟩
  · exact ⟨.cmd, ask ({ part .config with flt := { (part .config).flt with assignsReq := [asg 79 (some 63) 0 0] } }) 0x0500 [63, 0, 0, 0, 255, 47, 0, 0, 0, 0, 0, 0], mk 0x0500 [63, 0, 0, 0, 255, 47, 0, 0, 0, 0, 0, 0], [63, 0, 0, 0, 255, 47, 0, 0, 0, 0, 0, 0], 63, met⟩
  · exact ⟨.cmd, ask (part .config) 0x0501 [79, 1, 255, 0, 0, 0, 0, 0, 0, 0, 0, 0, 0, 0, 0, 0], mk 0x0501 [79, 1, 255, 0, 0, 0, 0, 0, 0, 0, 0, 0, 0, 0, 0, 0], [79, 1, 255, 0, 0, 0, 0, 0, 0, 0, 0, 0, 0, 0, 0, 0], ({ ch := 255, first := 79, gang := 1, set := none, n := 0, m := 0, r := 0 }), met⟩
  · exact ⟨.cmd, ask (part .config) 0x0501 [79, 1, 79, 255, 0, 0, 0, 0, 1, 0, 0, 0, 0, 0, 0, 0], mk 0x0501 [79, 1, 79, 255, 0, 0, 0, 0, 1, 0, 0, 0, 0, 0, 0, 0], [79, 1, 79, 255, 0, 0, 0, 0, 1, 0, 0, 0, 0, 0, 0, 0], asg 79 none 0 0, met⟩
  · exact ⟨.cmd, ask (withSet) 0x0501 [79, 1, 47, 63, 4, 0, 0, 1, 1, 0, 0, 0, 0, 0, 0, 0], mk 0x0501 [79, 1, 47, 63, 4, 0, 0, 1, 1, 0, 0, 0, 0, 0, 0, 0], [79, 1, 47, 63, 4, 0, 0, 1, 1, 0, 0, 0, 0, 0, 0, 0], asg 47 (some 63) 4 256, 63, zeroTap, met⟩
  · exact ⟨.cmd, ask { part .config with flt := { (part .config).flt with assigns := [] } } 0x0502 [79, 0, 0, 0, 0, 36, 244, 72], mk 0x0502 [79, 0, 0, 0, 0, 36, 244, 72], [79, 0, 0, 0, 0, 36, 244, 72], 79, met⟩
  · exact ⟨.cmd, ask (part .config) 0x0502 [79, 0, 0, 0, 0, 36, 244, 72], mk 0x0502 [79, 0, 0, 0, 0, 36, 244, 72], [79, 0, 0, 0, 0, 36, 244, 72], 79, assign0 79, met⟩

/-- The hypotheses of `Obligations.GraphRequests`, met leaf by leaf (part 1 of 4). -/
theorem witness_GraphRequests :
    (∃ (via : Transport) (s : State) (r : Req) (p : Bytes) (n : ℕ), s.sys.dev ≠ DevState.boot ∧ p = reqParams r ∧ n8At p 0 = n ∧ n < 8 ∧ Sized s ∧ Takes 0x600#16 via s r ∧ List.length p = 16 ∧ zeroAt p 1 3 = true ∧ stageOff s n = true ∧ n32At p 4 % 32 = 0 ∧ n32At p 4 ≤ 983008 ∧ (n32At p 8 = 0 ∨ 64 ≤ n32At p 8 ∧ n32At p 4 + n32At p 8 ≤ 983040) ∧ classFull s 0x600#16 = false)
    ∧ (∃ (via : Transport) (s : State) (r : Req) (p : Bytes) (n : ℕ) (l : GraphLoad) (t : List GraphLoad), s.sys.dev ≠ DevState.boot ∧ p = reqParams r ∧ n8At p 0 = n ∧ n < 8 ∧ Sized s ∧ s.loop.loads = l :: t ∧ l.stage = n ∧ crc32c (memReadBytes s.loop.mem l.offset l.length) ≠ l.crc)
    ∧ (∃ (via : Transport) (s : State) (r : Req) (p : Bytes) (n : ℕ) (l : GraphLoad) (t : List GraphLoad), s.sys.dev ≠ DevState.boot ∧ p = reqParams r ∧ n8At p 0 = n ∧ n < 8 ∧ Sized s ∧ s.loop.loads = l :: t ∧ l.stage = n ∧ crc32c (memReadBytes s.loop.mem l.offset l.length) = l.crc ∧ stageOff s n = false)
    ∧ (∃ (via : Transport) (s : State) (r : Req) (p : Bytes) (n : ℕ) (l : GraphLoad) (t : List GraphLoad), s.sys.dev ≠ DevState.boot ∧ p = reqParams r ∧ n8At p 0 = n ∧ n < 8 ∧ Sized s ∧ s.loop.loads = l :: t ∧ l.stage = n ∧ crc32c (memReadBytes s.loop.mem l.offset l.length) = l.crc ∧ stageOff s n = true ∧ l.length ≠ 0 ∧ imageOk s n (readHeader s.loop.mem l.offset l.length) = false)
    ∧ (∃ (via : Transport) (s : State) (r : Req) (p : Bytes) (n : ℕ) (l : GraphLoad) (t : List GraphLoad), s.sys.dev ≠ DevState.boot ∧ p = reqParams r ∧ n8At p 0 = n ∧ n < 8 ∧ Sized s ∧ s.loop.loads = l :: t ∧ l.stage = n ∧ crc32c (memReadBytes s.loop.mem l.offset l.length) = l.crc ∧ stageOff s n = true ∧ l.length ≠ 0 ∧ imageOk s n (readHeader s.loop.mem l.offset l.length) = true ∧ bytesLost s 18 l.offset l.length = true)
    ∧ (∃ (via : Transport) (s : State) (r : Req) (p : Bytes) (n : ℕ) (l : GraphLoad) (t : List GraphLoad), s.sys.dev ≠ DevState.boot ∧ p = reqParams r ∧ n8At p 0 = n ∧ n < 8 ∧ Sized s ∧ s.loop.loads = l :: t ∧ l.stage = n ∧ crc32c (memReadBytes s.loop.mem l.offset l.length) = l.crc ∧ stageOff s n = true ∧ l.length = 0)
    ∧ (∃ (via : Transport) (s : State) (r : Req) (p : Bytes) (n : ℕ) (l : GraphLoad) (t : List GraphLoad) (g : Machine.Graph), s.sys.dev ≠ DevState.boot ∧ p = reqParams r ∧ n8At p 0 = n ∧ n < 8 ∧ Sized s ∧ s.loop.loads = l :: t ∧ l.stage = n ∧ crc32c (memReadBytes s.loop.mem l.offset l.length) = l.crc ∧ stageOff s n = true ∧ l.length ≠ 0 ∧ g = readHeader s.loop.mem l.offset l.length ∧ imageOk s n g = true ∧ bytesLost s 18 l.offset l.length = false ∧ g.engines ≤ (enginesFree s n).length) := by
  refine ⟨?_, ?_, ?_, ?_, ?_, ?_, ?_⟩
  · exact ⟨.cmd, ask (island .run) 0x0600 [7, 0, 0, 0, 0, 0, 0, 0, 136, 0, 0, 0, 3, 0, 0, 0], mk 0x0600 [7, 0, 0, 0, 0, 0, 0, 0, 136, 0, 0, 0, 3, 0, 0, 0], [7, 0, 0, 0, 0, 0, 0, 0, 136, 0, 0, 0, 3, 0, 0, 0], 7, met⟩
  · exact ⟨.cmd, loading (island .run) { stage := 7, offset := 0, length := 136, crc := 0 }, mk 0x0600 [7], [7], 7, ({ stage := 7, offset := 0, length := 136, crc := 0 }), [], met⟩
  · exact ⟨.cmd, loading (stage7 .enabled id (island .run)) { stage := 7, offset := 32, length := 0, crc := crc32c (memReadBytes gmem 32 0) }, mk 0x0600 [7], [7], 7, ({ stage := 7, offset := 32, length := 0, crc := crc32c (memReadBytes gmem 32 0) }), [], met⟩
  · exact ⟨.cmd, loading (island .run) { stage := 7, offset := 32, length := 104, crc := crc32c (memReadBytes gmem 32 104) }, mk 0x0600 [7], [7], 7, { stage := 7, offset := 32, length := 104, crc := crc32c (memReadBytes gmem 32 104) }, [], met⟩
  · exact ⟨.cmd, loading ({ island .run with rel := { (island .run).rel with rows := [(18, 0, none)] } }) { stage := 7, offset := 0, length := 136, crc := crc32c (memReadBytes gmem 0 136) }, mk 0x0600 [7], [7], 7, ({ stage := 7, offset := 0, length := 136, crc := crc32c (memReadBytes gmem 0 136) }), [], met⟩
  · exact ⟨.cmd, loading (island .run) { stage := 7, offset := 32, length := 0, crc := crc32c (memReadBytes gmem 32 0) }, mk 0x0600 [7], [7], 7, ({ stage := 7, offset := 32, length := 0, crc := crc32c (memReadBytes gmem 32 0) }), [], met⟩
  · exact ⟨.cmd, loading (island .run) { stage := 7, offset := 0, length := 136, crc := crc32c (memReadBytes gmem 0 136) }, mk 0x0600 [7], [7], 7, ({ stage := 7, offset := 0, length := 136, crc := crc32c (memReadBytes gmem 0 136) }), [], readHeader gmem 0 136, met⟩

/-- The hypotheses of `Obligations.GraphRequests`, met leaf by leaf (part 2 of 4). -/
theorem witness_GraphRequests_2 :
    (∃ (via : Transport) (s : State) (r : Req) (p : Bytes) (n : ℕ), s.sys.dev ≠ DevState.boot ∧ p = reqParams r ∧ n8At p 0 = n ∧ n < 8 ∧ Sized s ∧ s.loop.loads = [])
    ∧ (∃ (via : Transport) (s : State) (r : Req) (p : Bytes) (n : ℕ) (m : Byte), s.sys.dev ≠ DevState.boot ∧ p = reqParams r ∧ n8At p 0 = n ∧ n < 8 ∧ Sized s ∧ Takes 0x601#16 via s r ∧ s.sys.dev = DevState.run ∧ p = [BitVec.ofNat 8 n, m, 0, 0] ∧ (getStage s n).st ≠ StageState.shuttingDown ∧ ((getStage s n).graph = none ∨ (getStage s n).st ≠ StageState.off))
    ∧ (∃ (via : Transport) (s : State) (r : Req) (p : Bytes) (n : ℕ) (g : Machine.Graph) (m : Byte), s.sys.dev ≠ DevState.boot ∧ p = reqParams r ∧ n8At p 0 = n ∧ n < 8 ∧ Sized s ∧ Takes 0x601#16 via s r ∧ s.sys.dev = DevState.run ∧ p = [BitVec.ofNat 8 n, m, 0, 0] ∧ BitVec.toNat m ≤ 3 ∧ (getStage s n).st = StageState.off ∧ (getStage s n).graph = some g ∧ (getStage s n).waitStart = false ∧ (∀ e ∈ s.gov.release, e.unit ≠ n) ∧ (∀ e ∈ s.gov.precharge, (stageHbs s n).contains e.unit = false) ∧ startReady s n g = true ∧ (if g.divider ≠ 0 then 16000 ≤ g.divider * frameShortest s g else 1000 ≤ g.minPeriod) ∧ startLost s n g = false ∧ s.gov.release.length < 8 ∧ s.gov.precharge.length + (prechargeHbs s n).length ≤ 8 ∧ startUnready s n = false ∧ (needsRelease s n = true ∧ (s.gov.release ≠ [] ∨ releaseFree s = false)))
    ∧ (∃ (via : Transport) (s : State) (r : Req) (p : Bytes) (n : ℕ) (g : Machine.Graph) (m : Byte), s.sys.dev ≠ DevState.boot ∧ p = reqParams r ∧ n8At p 0 = n ∧ n < 8 ∧ Sized s ∧ Takes 0x601#16 via s r ∧ s.sys.dev = DevState.run ∧ p = [BitVec.ofNat 8 n, m, 0, 0] ∧ BitVec.toNat m ≤ 3 ∧ (getStage s n).st = StageState.off ∧ (getStage s n).graph = some g ∧ (getStage s n).waitStart = false ∧ (∀ e ∈ s.gov.release, e.unit ≠ n) ∧ (∀ e ∈ s.gov.precharge, (stageHbs s n).contains e.unit = false) ∧ startReady s n g = true ∧ (if g.divider ≠ 0 then 16000 ≤ g.divider * frameShortest s g else 1000 ≤ g.minPeriod) ∧ startLost s n g = false ∧ s.gov.release.length < 8 ∧ s.gov.precharge.length + (prechargeHbs s n).length ≤ 8 ∧ startUnready s n = false ∧ (¬(needsRelease s n = true ∧ (s.gov.release ≠ [] ∨ releaseFree s = false))) ∧ (prechargeHbs s n = [] ∨ prechargeFree s = true) ∧ swapPending s n = true)
    ∧ (∃ (via : Transport) (s : State) (r : Req) (p : Bytes) (n : ℕ) (g : Machine.Graph) (m : Byte), s.sys.dev ≠ DevState.boot ∧ p = reqParams r ∧ n8At p 0 = n ∧ n < 8 ∧ Sized s ∧ Takes 0x601#16 via s r ∧ s.sys.dev = DevState.run ∧ p = [BitVec.ofNat 8 n, m, 0, 0] ∧ BitVec.toNat m ≤ 3 ∧ (getStage s n).st = StageState.off ∧ (getStage s n).graph = some g ∧ (getStage s n).waitStart = false ∧ (∀ e ∈ s.gov.release, e.unit ≠ n) ∧ (∀ e ∈ s.gov.precharge, (stageHbs s n).contains e.unit = false) ∧ startReady s n g = true ∧ (if g.divider ≠ 0 then 16000 ≤ g.divider * frameShortest s g else 1000 ≤ g.minPeriod) ∧ startLost s n g = false ∧ s.gov.release.length < 8 ∧ s.gov.precharge.length + (prechargeHbs s n).length ≤ 8 ∧ startUnready s n = false ∧ (¬(needsRelease s n = true ∧ (s.gov.release ≠ [] ∨ releaseFree s = false))) ∧ prechargeHbs s n ≠ [] ∧ prechargeFree s = false)
    ∧ (∃ (via : Transport) (s : State) (r : Req) (p : Bytes) (n : ℕ) (g : Machine.Graph) (m : Byte), s.sys.dev ≠ DevState.boot ∧ p = reqParams r ∧ n8At p 0 = n ∧ n < 8 ∧ Sized s ∧ Takes 0x601#16 via s r ∧ s.sys.dev = DevState.run ∧ p = [BitVec.ofNat 8 n, m, 0, 0] ∧ BitVec.toNat m ≤ 3 ∧ (getStage s n).st = StageState.off ∧ (getStage s n).graph = some g ∧ (getStage s n).waitStart = false ∧ (∀ e ∈ s.gov.release, e.unit ≠ n) ∧ (∀ e ∈ s.gov.precharge, (stageHbs s n).contains e.unit = false) ∧ startReady s n g = true ∧ (if g.divider ≠ 0 then 16000 ≤ g.divider * frameShortest s g else 1000 ≤ g.minPeriod) ∧ startLost s n g = false ∧ s.gov.release.length < 8 ∧ s.gov.precharge.length + (prechargeHbs s n).length ≤ 8 ∧ startUnready s n = false ∧ (¬(needsRelease s n = true ∧ (s.gov.release ≠ [] ∨ releaseFree s = false))) ∧ swapPending s n = false ∧ (prechargeHbs s n = [] ∨ prechargeFree s = true) ∧ quiet s)
    ∧ (∃ (via : Transport) (s : State) (r : Req) (p : Bytes) (n : ℕ) (m : Byte), s.sys.dev ≠ DevState.boot ∧ p = reqParams r ∧ n8At p 0 = n ∧ n < 8 ∧ Sized s ∧ Takes 0x601#16 via s r ∧ s.sys.dev = DevState.run ∧ p = [BitVec.ofNat 8 n, m, 1, 0] ∧ BitVec.toNat m ≤ 3 ∧ (getStage s n).st = StageState.enabled ∧ (getStage s n).graph ≠ none ∧ paramFull s = false) := by
  refine ⟨?_, ?_, ?_, ?_, ?_, ?_, ?_⟩
  · exact ⟨.cmd, ask (fullQ (stage7 .enabled id (island .run))) 0x0601 [7, 3, 1, 0], mk 0x0601 [7, 3, 1, 0], [7, 3, 1, 0], 7, met⟩
  · exact ⟨.cmd, ask (stage7 .enabled id (island .run)) 0x0601 [7, 3, 0, 0], mk 0x0601 [7, 3, 0, 0], [7, 3, 0, 0], 7, 3, met⟩
  · exact ⟨.cmd, ask (released (chan0 (stage7 .off id (island .run)))) 0x0601 [7, 3, 0, 0], mk 0x0601 [7, 3, 0, 0], [7, 3, 0, 0], 7, graph7, 3, met⟩
  · exact ⟨.cmd, ask ({ stage7 .off id (island .run) with rel := { (island .run).rel with waiting := [retire4] } }) 0x0601 [7, 3, 0, 0], mk 0x0601 [7, 3, 0, 0], [7, 3, 0, 0], 7, graph7, 3, met⟩
  · exact ⟨.cmd, ask ({ (updHb 0 (fun x => { x with tPrecharge := 100 }) (updGroup 0 (fun x => { x with timer := some 23 }) (updChan 80 (fun x => { x with role := 1 }) (stage7 .off id (island .run))))) with gov := { (island .run).gov with lastPre := some 0 } }) 0x0601 [7, 3, 0, 0], mk 0x0601 [7, 3, 0, 0], [7, 3, 0, 0], 7, graph7, 3, met⟩
  · exact ⟨.cmd, ask (stage7 .off id (island .run)) 0x0601 [7, 3, 0, 0], mk 0x0601 [7, 3, 0, 0], [7, 3, 0, 0], 7, graph7, 3, met⟩
  · exact ⟨.cmd, ask (stage7 .enabled id (island .run)) 0x0601 [7, 3, 1, 0], mk 0x0601 [7, 3, 1, 0], [7, 3, 1, 0], 7, 3, met⟩

/-- The hypotheses of `Obligations.GraphRequests`, met leaf by leaf (part 3 of 4). -/
theorem witness_GraphRequests_3 :
    (∃ (via : Transport) (s : State) (r : Req) (p : Bytes) (n : ℕ), s.sys.dev ≠ DevState.boot ∧ p = reqParams r ∧ n8At p 0 = n ∧ n < 8 ∧ Sized s ∧ paramFull s = true ∧ Takes 0x601#16 via s r ∧ modeOnly r = true)
    ∧ (∃ (via : Transport) (s : State) (r : Req) (p : Bytes) (n : ℕ), s.sys.dev ≠ DevState.boot ∧ p = reqParams r ∧ n8At p 0 = n ∧ n < 8 ∧ Sized s ∧ paramFull s = true ∧ Takes 0x605#16 via s r)
    ∧ (∃ (via : Transport) (s : State) (r : Req) (p : Bytes) (n : ℕ), s.sys.dev ≠ DevState.boot ∧ p = reqParams r ∧ n8At p 0 = n ∧ n < 8 ∧ Sized s ∧ Takes 0x602#16 via s r ∧ List.length p = 4 ∧ zeroAt p 1 3 = true ∧ (getStage s n).st = StageState.shuttingDown)
    ∧ (∃ (via : Transport) (s : State) (r : Req) (p : Bytes) (n : ℕ), s.sys.dev ≠ DevState.boot ∧ p = reqParams r ∧ n8At p 0 = n ∧ n < 8 ∧ Sized s ∧ Takes 0x602#16 via s r ∧ List.length p = 4 ∧ zeroAt p 1 3 = true ∧ ((getStage s n).st = StageState.enabled ∨ (getStage s n).st = StageState.starting))
    ∧ (∃ (via : Transport) (s : State) (r : Req) (p : Bytes) (n : ℕ), s.sys.dev ≠ DevState.boot ∧ p = reqParams r ∧ n8At p 0 = n ∧ n < 8 ∧ Sized s ∧ Takes 0x602#16 via s r ∧ List.length p = 4 ∧ zeroAt p 1 3 = true ∧ (getStage s n).st = StageState.lockedOut ∧ s.rel.waiting = [])
    ∧ (∃ (via : Transport) (s : State) (r : Req) (p : Bytes) (n : ℕ), s.sys.dev ≠ DevState.boot ∧ p = reqParams r ∧ n8At p 0 = n ∧ n < 8 ∧ Sized s ∧ Takes 0x602#16 via s r ∧ List.length p = 4 ∧ zeroAt p 1 3 = true ∧ (getStage s n).st = StageState.off)
    ∧ (∃ (via : Transport) (s : State) (r : Req) (p : Bytes) (n : ℕ) (g : Machine.Graph) (c : ℕ) (first : ℕ) (view : ℕ → F32), s.sys.dev ≠ DevState.boot ∧ p = reqParams r ∧ n8At p 0 = n ∧ n < 8 ∧ Sized s ∧ Takes 0x605#16 via s r ∧ paramFull s = false ∧ byteAt p 1 = 0 ∧ n16At p 2 = c ∧ n16At p 4 = first ∧ zeroAt p 6 2 = true ∧ 1 ≤ c ∧ c ≤ 254 ∧ List.length p = 8 + 4 * c ∧ (getStage s n).graph = some g ∧ first + c ≤ g.nParams ∧ (∀ i < c, f32Bad (u32At p (8 + 4 * i)) = false) ∧ (graphNodes s g).all (blockOk g view) = true ∧ viewApart s n g view = true ∧ (getStage s n).st ≠ StageState.off ∧ (getStage s n).st ≠ StageState.shuttingDown ∧ (∀ (k : ℕ), view k = if first ≤ k ∧ k < first + c then f32Param (u32At p (8 + 4 * (k - first))) else paramFor s n ((getStage s n).newest + 1) k)) := by
  refine ⟨?_, ?_, ?_, ?_, ?_, ?_, ?_⟩
  · exact ⟨.cmd, ask (fullQ (stage7 .enabled id (island .run))) 0x0601 [7, 3, 1, 0], mk 0x0601 [7, 3, 1, 0], [7, 3, 1, 0], 7, met⟩
  · exact ⟨.cmd, ask (fullQ (stage7 .enabled id (island .run))) 0x0605 [7], mk 0x0605 [7], [7], 7, met⟩
  · exact ⟨.cmd, ask (stage7 .shuttingDown id (island .run)) 0x0602 [7, 0, 0, 0], mk 0x0602 [7, 0, 0, 0], [7, 0, 0, 0], 7, met⟩
  · exact ⟨.cmd, ask (stage7 .enabled id (island .run)) 0x0602 [7, 0, 0, 0], mk 0x0602 [7, 0, 0, 0], [7, 0, 0, 0], 7, met⟩
  · exact ⟨.cmd, ask (stage7 .lockedOut id (island .run)) 0x0602 [7, 0, 0, 0], mk 0x0602 [7, 0, 0, 0], [7, 0, 0, 0], 7, met⟩
  · exact ⟨.cmd, ask (stage7 .off id (island .run)) 0x0602 [7, 0, 0, 0], mk 0x0602 [7, 0, 0, 0], [7, 0, 0, 0], 7, met⟩
  · exact ⟨.cmd, ask (stage7 .starting (fun x => { x with newest := 6 }) (island .run)) 0x0605 [7, 0, 1, 0, 0, 0, 0, 0, 0, 0, 0, 64], mk 0x0605 [7, 0, 1, 0, 0, 0, 0, 0, 0, 0, 0, 64], [7, 0, 1, 0, 0, 0, 0, 0, 0, 0, 0, 64], 7, graph7, 1, 0, (fun k => if 0 ≤ k ∧ k < 0 + 1 then f32Param (u32At ([7, 0, 1, 0, 0, 0, 0, 0, 0, 0, 0, 64] : Bytes) (8 + 4 * (k - 0))) else paramFor (ask (stage7 .starting (fun x => { x with newest := 6 }) (island .run)) 0x605 [7, 0, 1, 0, 0, 0, 0, 0, 0, 0, 0, 64]) 7 ((getStage (ask (stage7 .starting (fun x => { x with newest := 6 }) (island .run)) 0x605 [7, 0, 1, 0, 0, 0, 0, 0, 0, 0, 0, 64]) 7).newest + 1) k), met⟩

/-- The hypotheses of `Obligations.GraphRequests`, met leaf by leaf (part 4 of 4). -/
theorem witness_GraphRequests_4 :
    (∃ (via : Transport) (s : State) (r : Req) (p : Bytes) (n : ℕ) (g : Machine.Graph) (c : ℕ) (first : ℕ) (view : ℕ → F32), s.sys.dev ≠ DevState.boot ∧ p = reqParams r ∧ n8At p 0 = n ∧ n < 8 ∧ Sized s ∧ Takes 0x605#16 via s r ∧ paramFull s = false ∧ byteAt p 1 = 0 ∧ n16At p 2 = c ∧ n16At p 4 = first ∧ zeroAt p 6 2 = true ∧ 1 ≤ c ∧ c ≤ 254 ∧ List.length p = 8 + 4 * c ∧ (getStage s n).graph = some g ∧ first + c ≤ g.nParams ∧ (∀ i < c, f32Bad (u32At p (8 + 4 * i)) = false) ∧ (graphNodes s g).all (blockOk g view) = true ∧ viewApart s n g view = true ∧ (getStage s n).st = StageState.off ∧ (getStage s n).writes = [] ∧ (∀ (k : ℕ), view k = if first ≤ k ∧ k < first + c then f32Param (u32At p (8 + 4 * (k - first))) else graphParam s g k))
    ∧ (∃ (via : Transport) (s : State) (r : Req) (p : Bytes) (n : ℕ) (g : Machine.Graph) (ni : ℕ) (nt : ℕ) (lim : ℕ), s.sys.dev ≠ DevState.boot ∧ p = reqParams r ∧ n8At p 0 = n ∧ n < 8 ∧ Sized s ∧ Takes 0x603#16 via s r ∧ n8At p 2 = ni ∧ n8At p 3 = nt ∧ n8At p 6 = lim ∧ List.length p = 12 + 16 * ni + 8 * nt ∧ (getStage s n).graph = some g ∧ 1 ≤ lim ∧ n8At p 7 ≤ 1 ∧ zeroAt p 10 2 = true ∧ (getStage s n).st = StageState.off ∧ n8At p 1 ≤ 2 ∧ ni ≤ 16 ∧ nt ≤ 16 ∧ (n8At p 1 ≠ 0 → ni ≠ 0) ∧ (∀ i < ni, dillInputOk s n g p (12 + 16 * i) = true) ∧ ((List.map (fun x => x.channel) (dillOf p).inputs).Nodup) ∧ (∀ i < nt, dillTargetOk s g p (12 + 16 * ni + 8 * i) = true) ∧ (nt * ni ≠ 0 → n16At p 8 + nt * ni ≤ if n8At p 7 = 1 then g.nParams else 1024 * g.engines) ∧ (n8At p 1 ≠ 0 → (n8At p 1 + 1) * loadMax s g ≤ frameMin s g))
    ∧ (∃ (via : Transport) (s : State) (r : Req) (p : Bytes) (n : ℕ) (g : Machine.Graph) (ni : ℕ) (nt : ℕ) (lim : ℕ), s.sys.dev ≠ DevState.boot ∧ p = reqParams r ∧ n8At p 0 = n ∧ n < 8 ∧ Sized s ∧ Takes 0x603#16 via s r ∧ n8At p 2 = ni ∧ n8At p 3 = nt ∧ n8At p 6 = lim ∧ List.length p = 12 + 16 * ni + 8 * nt ∧ (getStage s n).graph = some g ∧ 1 ≤ lim ∧ n8At p 7 ≤ 1 ∧ zeroAt p 10 2 = true ∧ (getStage s n).st ≠ StageState.off ∧ (getStage s n).st ≠ StageState.shuttingDown ∧ n8At p 1 = 0 ∧ ni = 0 ∧ nt = 0)
    ∧ (∃ (via : Transport) (s : State) (r : Req) (p : Bytes) (n : ℕ), s.sys.dev ≠ DevState.boot ∧ p = reqParams r ∧ n8At p 0 = n ∧ n < 8 ∧ Sized s ∧ Takes 0x604#16 via s r ∧ List.length p = 4 ∧ zeroAt p 2 2 = true ∧ n8At p 1 = 0)
    ∧ (∃ (via : Transport) (s : State) (r : Req) (p : Bytes) (n : ℕ), s.sys.dev ≠ DevState.boot ∧ p = reqParams r ∧ n8At p 0 = n ∧ n < 8 ∧ Sized s ∧ Takes 0x604#16 via s r ∧ List.length p = 4 ∧ zeroAt p 2 2 = true ∧ n8At p 1 = 1) := by
  refine ⟨?_, ?_, ?_, ?_, ?_⟩
  · exact ⟨.cmd, ask (stage7 .off id (island .run)) 0x0605 [7, 0, 1, 0, 0, 0, 0, 0, 0, 0, 0, 64], mk 0x0605 [7, 0, 1, 0, 0, 0, 0, 0, 0, 0, 0, 64], [7, 0, 1, 0, 0, 0, 0, 0, 0, 0, 0, 64], 7, graph7, 1, 0, (fun k => if 0 ≤ k ∧ k < 0 + 1 then f32Param (u32At ([7, 0, 1, 0, 0, 0, 0, 0, 0, 0, 0, 64] : Bytes) (8 + 4 * (k - 0))) else graphParam (ask (stage7 .off id (island .run)) 0x605 [7, 0, 1, 0, 0, 0, 0, 0, 0, 0, 0, 64]) graph7 k), met⟩
  · exact ⟨.cmd, ask (stage7 .off id (island .run)) 0x0603 [7, 2, 1, 1, 0, 0, 4, 0, 0, 0, 0, 0, 79, 3, 1, 0, 0, 0, 0, 0, 0, 0, 128, 63, 0, 0, 0, 0, 1, 0, 1, 0, 0, 0, 0, 0], mk 0x0603 [7, 2, 1, 1, 0, 0, 4, 0, 0, 0, 0, 0, 79, 3, 1, 0, 0, 0, 0, 0, 0, 0, 128, 63, 0, 0, 0, 0, 1, 0, 1, 0, 0, 0, 0, 0], [7, 2, 1, 1, 0, 0, 4, 0, 0, 0, 0, 0, 79, 3, 1, 0, 0, 0, 0, 0, 0, 0, 128, 63, 0, 0, 0, 0, 1, 0, 1, 0, 0, 0, 0, 0], 7, graph7, 1, 1, 4, met⟩
  · exact ⟨.cmd, ask (stage7 .enabled id (island .run)) 0x0603 [7, 0, 0, 0, 0, 0, 4, 0, 0, 0, 0, 0], mk 0x0603 [7, 0, 0, 0, 0, 0, 4, 0, 0, 0, 0, 0], [7, 0, 0, 0, 0, 0, 4, 0, 0, 0, 0, 0], 7, graph7, 0, 0, 4, met⟩
  · exact ⟨.cmd, ask (stage7 .enabled id (island .run)) 0x0604 [7, 0, 0, 0], mk 0x0604 [7, 0, 0, 0], [7, 0, 0, 0], 7, met⟩
  · exact ⟨.cmd, ask (stage7 .enabled id (island .run)) 0x0604 [7, 1, 0, 0], mk 0x0604 [7, 1, 0, 0], [7, 1, 0, 0], 7, met⟩

/-- The hypotheses of `Obligations.StagesStartReloadAndStop`, met leaf by leaf (part 1 of 2). -/
theorem witness_StagesStartReloadAndStop :
    (∃ (s : State) (n : ℕ) (g : Machine.Graph), Sized s ∧ n < 8 ∧ (getStage s n).st = StageState.off ∧ (getStage s n).waitStart = true ∧ (getStage s n).graph = some g ∧ swapPending s n = false ∧ quiet s)
    ∧ (∃ (s : State) (n : ℕ), Sized s ∧ n < 8 ∧ ((getStage s n).st ≠ StageState.off ∨ (getStage s n).waitStart = false ∨ (getStage s n).graph = none ∨ swapPending s n = true))
    ∧ (∃ (s : State) (n : ℕ), Sized s ∧ n < 8 ∧ ((getStage s n).st ≠ StageState.starting ∨ (getStage s n).ts = none))
    ∧ (∃ (s : State) (n : ℕ) (k : ℕ), Sized s ∧ n < 8 ∧ ((getTimer s k).stage = none ∨ (getTimer s k).running = false))
    ∧ (∃ (s : State) (n : ℕ) (i : ℕ), Sized s ∧ n < 8 ∧ (getStage s n).st = StageState.starting ∧ (getStage s n).ts = some i)
    ∧ (∃ (s : State) (n : ℕ) (k : ℕ), Sized s ∧ n < 8 ∧ k < 24 ∧ (getTimer s k).stage = some n ∧ (getTimer s k).running = true) := by
  refine ⟨?_, ?_, ?_, ?_, ?_, ?_⟩
  · exact ⟨stage7 .off (fun x => { x with waitStart := true }) (island .run), 7, graph7, met⟩
  · exact ⟨stage7 .shuttingDown id (island .run), 7, met⟩
  · exact ⟨stage7 .off (fun x => { x with waitStart := true }) (island .run), 7, met⟩
  · exact ⟨stage7 .starting (fun x => { x with ts := some 900 }) (island .run), 7, 900, met⟩
  · exact ⟨stage7 .starting (fun x => { x with ts := some 900 }) (island .run), 7, 900, met⟩
  · exact ⟨updTimer 23 (fun x => { x with running := true, nextReload := 77 }) (stage7 .enabled id (island .run)), 7, 23, met⟩

/-- The hypotheses of `Obligations.StagesStartReloadAndStop`, met leaf by leaf (part 2 of 2). -/
theorem witness_StagesStartReloadAndStop_2 :
    (∃ (s : State) (n : ℕ) (h : ℕ), Sized s ∧ n < 8 ∧ h < 8 ∧ (getChan s (80 + 2 * h)).refresh < 32)
    ∧ (∃ (s : State) (n : ℕ) (h : ℕ) (q : Pulse), Sized s ∧ n < 8 ∧ h < 8 ∧ 32 ≤ (getChan s (80 + 2 * h)).refresh ∧ (getChan s (80 + 2 * h)).pulses.getLast? = some q)
    ∧ (∃ (s : State) (n : ℕ) (h : ℕ), Sized s ∧ n < 8 ∧ h < 8 ∧ 32 ≤ (getChan s (80 + 2 * h)).refresh ∧ (getChan s (80 + 2 * h)).pulses = [])
    ∧ (∃ (s : State) (n : ℕ), Sized s ∧ n < 8 ∧ (getStage s n).st ≠ StageState.starting)
    ∧ (∃ (s : State) (n : ℕ), Sized s ∧ n < 8 ∧ ((getStage s n).st ≠ StageState.shuttingDown ∨ effectsDone s n = false ∨ ∃ c ∈ stageChans s n, (getChan s c).stopped = false ∨ (getChan s c).offHeld = true))
    ∧ (∃ (s : State) (n : ℕ), Sized s ∧ n < 8 ∧ (getStage s n).st = StageState.shuttingDown ∧ effectsDone s n = true ∧ (∀ c ∈ stageChans s n, (getChan s c).stopped = true ∧ (getChan s c).offHeld = false) ∧ s.rel.waiting = [] ∧ s.sys.stateChange = false) := by
  refine ⟨?_, ?_, ?_, ?_, ?_, ?_⟩
  · exact ⟨island .run, 0, 7, met⟩
  · exact ⟨updChan 94 (fun x => { x with refresh := 32, pulses := [{ on := 3, off := 9 }] }) (island .run), 0, 7, ({ on := 3, off := 9 }), met⟩
  · exact ⟨updChan 94 (fun x => { x with refresh := 32 }) (island .run), 0, 7, met⟩
  · exact ⟨updTimer 23 (fun x => { x with running := true, nextReload := 77 }) (stage7 .enabled id (island .run)), 7, met⟩
  · exact ⟨stage7 .off (fun x => { x with waitStart := true }) (island .run), 7, met⟩
  · exact ⟨stage7 .shuttingDown id (island .run), 7, met⟩

/-- The hypotheses of `Obligations.EnginesChooseAndPostInOrder`, met leaf by leaf (part 1 of 3). -/
theorem witness_EnginesChooseAndPostInOrder :
    (∃ (s : State) (e : ℕ) (n : ℕ) (idx : U32) (reload : ℕ) (len : ℕ) (t : List (U32 × ℕ × ℕ)), Sized s ∧ n < 8 ∧ e < 18 ∧ (getStage s n).notices = (idx, reload, len) :: t ∧ (getStage s n).handover = none ∧ stageLive s n = false)
    ∧ (∃ (s : State) (e : ℕ) (n : ℕ) (idx : U32) (reload : ℕ) (len : ℕ) (t : List (U32 × ℕ × ℕ)), Sized s ∧ n < 8 ∧ e < 18 ∧ (getStage s n).notices = (idx, reload, len) :: t ∧ (getStage s n).handover = none ∧ stageLive s n = true ∧ getFrame s n idx = none ∧ frameAfter idx (getStage s n).cFrame = false)
    ∧ (∃ (s : State) (e : ℕ) (n : ℕ) (idx : U32) (reload : ℕ) (len : ℕ) (t : List (U32 × ℕ × ℕ)) (f : Frame), Sized s ∧ n < 8 ∧ e < 18 ∧ (getStage s n).notices = (idx, reload, len) :: t ∧ (getStage s n).handover = none ∧ stageLive s n = true ∧ getFrame s n idx = some f ∧ (f.spec = false ∨ f.length = len))
    ∧ (∃ (s : State) (e : ℕ) (n : ℕ) (idx : U32) (reload : ℕ) (len : ℕ) (t : List (U32 × ℕ × ℕ)) (f : Frame), Sized s ∧ n < 8 ∧ e < 18 ∧ (getStage s n).notices = (idx, reload, len) :: t ∧ (getStage s n).handover = none ∧ stageLive s n = true ∧ getFrame s n idx = some f ∧ f.spec = true ∧ f.length ≠ len)
    ∧ (∃ (s : State) (e : ℕ) (n : ℕ) (idx : U32) (reload : ℕ) (len : ℕ) (t : List (U32 × ℕ × ℕ)), Sized s ∧ n < 8 ∧ e < 18 ∧ (getStage s n).notices = (idx, reload, len) :: t ∧ (getStage s n).handover = none ∧ stageLive s n = true ∧ getFrame s n idx = none ∧ frameAfter idx (getStage s n).cFrame = true)
    ∧ (∃ (s : State) (e : ℕ) (n : ℕ), Sized s ∧ n < 8 ∧ e < 18 ∧ ((getStage s n).notices = [] ∨ (getStage s n).handover.isSome = true))
    ∧ (∃ (s : State) (e : ℕ) (n : ℕ), Sized s ∧ n < 8 ∧ e < 18 ∧ ((getEngine s e).stage = none ∨ (getEngine s e).stage = some n ∧ (readyOn s n (getEngine s e).logical = [] ∨ (runningOn s n (getEngine s e).logical).isSome = true ∨ 8 ≤ (getEngine s e).queue.length)))
    ∧ (∃ (s : State) (e : ℕ) (n : ℕ), Sized s ∧ n < 8 ∧ e < 18 ∧ ((getEngine s e).stage = none ∨ (getEngine s e).stage = some n ∧ runningOn s n (getEngine s e).logical = none)) := by
  refine ⟨?_, ?_, ?_, ?_, ?_, ?_, ?_, ?_⟩
  · exact ⟨stage7 .off (fun x => { x with notices := [(6, 51000, 50000)] }) (island .run), 0, 7, 6, 51000, 50000, [], met⟩
  · exact ⟨stage7 .enabled (fun x => { x with cFrame := 6, notices := [(6, 51000, 50000)] }) (island .run), 0, 7, 6, 51000, 50000, [], met⟩
  · exact ⟨stage7 .enabled (fun x => { x with frames := [fr0], notices := [(5, 51000, 50000)] }) (island .run), 0, 7, 5, 51000, 50000, [], fr0, met⟩
  · exact ⟨stage7 .enabled (fun x => { x with frames := [fr0], notices := [(5, 51000, 49999)] }) (island .run), 0, 7, 5, 51000, 49999, [], fr0, met⟩
  · exact ⟨stage7 .enabled (fun x => { x with notices := [(6, 51000, 50000)] }) (island .run), 0, 7, 6, 51000, 50000, [], met⟩
  · exact ⟨island .run, 17, 7, met⟩
  · exact ⟨island .run, 17, 7, met⟩
  · exact ⟨island .run, 17, 7, met⟩

/-- The hypotheses of `Obligations.EnginesChooseAndPostInOrder`, met leaf by leaf (part 2 of 3). -/
theorem witness_EnginesChooseAndPostInOrder_2 :
    (∃ (s : State) (e : ℕ) (n : ℕ), Sized s ∧ n < 8 ∧ e < 18 ∧ (getEngine s e).waitPost = [])
    ∧ (∃ (s : State) (e : ℕ) (n : ℕ), Sized s ∧ n < 8 ∧ e < 18 ∧ (getEngine s e).queue = [])
    ∧ (∃ (s : State) (e : ℕ) (n : ℕ), Sized s ∧ n < 8 ∧ e < 18 ∧ ((getEngine s e).stallAt = none ∨ (getEngine s e).stalled = true ∨ holdsDispatch s e = false))
    ∧ (∃ (s : State) (e : ℕ) (n : ℕ) (y : ℕ × Inst × ℕ × ℕ) (l : List (ℕ × Inst × ℕ × ℕ)), Sized s ∧ n < 8 ∧ e < 18 ∧ (getEngine s e).stage = some n ∧ readyOn s n (getEngine s e).logical = y :: l ∧ runningOn s n (getEngine s e).logical = none ∧ (getEngine s e).queue.length < 8)
    ∧ (∃ (s : State) (e : ℕ) (n : ℕ) (k : ℕ) (i : Inst) (start : ℕ) (due : ℕ), Sized s ∧ n < 8 ∧ e < 18 ∧ (getEngine s e).stage = some n ∧ runningOn s n (getEngine s e).logical = some (k, i) ∧ i.st = InstState.chosen start due ∧ i.dead = true)
    ∧ (∃ (s : State) (e : ℕ) (n : ℕ) (k : ℕ) (i : Inst) (start : ℕ) (due : ℕ) (f : Frame), Sized s ∧ n < 8 ∧ e < 18 ∧ (getEngine s e).stage = some n ∧ runningOn s n (getEngine s e).logical = some (k, i) ∧ i.st = InstState.chosen start due ∧ i.dead = false ∧ i.effect = false ∧ getFrame s n i.frame = some f)
    ∧ (∃ (s : State) (e : ℕ) (n : ℕ) (k : ℕ) (i : Inst) (start : ℕ) (due : ℕ), Sized s ∧ n < 8 ∧ e < 18 ∧ (getEngine s e).stage = some n ∧ runningOn s n (getEngine s e).logical = some (k, i) ∧ i.st = InstState.chosen start due ∧ i.dead = false ∧ i.effect = true ∧ i.acts = [])
    ∧ (∃ (s : State) (e : ℕ) (n : ℕ) (c : Completion) (t : List Completion), Sized s ∧ n < 8 ∧ e < 18 ∧ (getEngine s e).waitPost = c :: t ∧ c.len ≠ 0 ∧ 8 ≤ (getEngine s e).queue.length) := by
  refine ⟨?_, ?_, ?_, ?_, ?_, ?_, ?_, ?_⟩
  · exact ⟨island .run, 17, 7, met⟩
  · exact ⟨island .run, 17, 7, met⟩
  · exact ⟨island .run, 17, 7, met⟩
  · exact ⟨running7 [in0 (.ready 5 8)] id, 0, 7, (0, in0 (.ready 5 8), 5, 8), [], met⟩
  · exact ⟨running7 [{ in0 (.chosen 5 8) with dead := true }] id, 0, 7, 0, { in0 (.chosen 5 8) with dead := true }, 5, 8, met⟩
  · exact ⟨running7 [in0 (.chosen 5 8)] id, 0, 7, 0, in0 (.chosen 5 8), 5, 8, fr0, met⟩
  · exact ⟨running7 [{ in0 (.chosen 5 8) with effect := true }] id, 0, 7, 0, { in0 (.chosen 5 8) with effect := true }, 5, 8, met⟩
  · exact ⟨running7 [] (fun x => { x with waitPost := [compl], queue := List.replicate 8 compl }), 0, 7, compl, [], met⟩

/-- The hypotheses of `Obligations.EnginesChooseAndPostInOrder`, met leaf by leaf (part 3 of 3). -/
theorem witness_EnginesChooseAndPostInOrder_3 :
    (∃ (s : State) (e : ℕ) (n : ℕ) (c : Completion) (t : List Completion), Sized s ∧ n < 8 ∧ e < 18 ∧ (getEngine s e).waitPost = c :: t ∧ c.len ≠ 0 ∧ (getEngine s e).queue.length < 8)
    ∧ (∃ (s : State) (e : ℕ) (n : ℕ) (c : Completion) (t : List Completion), Sized s ∧ n < 8 ∧ e < 18 ∧ (getEngine s e).waitPost = c :: t ∧ c.len = 0 ∧ (getEngine s e).queue.length < 8)
    ∧ (∃ (s : State) (e : ℕ) (n : ℕ) (c : Completion) (t : List Completion) (target : ℕ) (k : ℕ) (i : Inst) (due : ℕ), Sized s ∧ n < 8 ∧ e < 18 ∧ (getEngine s e).queue = c :: t ∧ target = graphSucc s (stageGraph s c.stage) ((graphNode s (stageGraph s c.stage) c.node).succ + c.pos) ∧ instAt s c.stage c.frame target = some k ∧ nodeInst s k = some i ∧ i.st = InstState.noSlot due (some (getEngine s e).logical))
    ∧ (∃ (s : State) (e : ℕ) (n : ℕ) (c : Completion) (t : List Completion) (target : ℕ) (k : ℕ) (i : Inst), Sized s ∧ n < 8 ∧ e < 18 ∧ (getEngine s e).queue = c :: t ∧ target = graphSucc s (stageGraph s c.stage) ((graphNode s (stageGraph s c.stage) c.node).succ + c.pos) ∧ instAt s c.stage c.frame target = some k ∧ nodeInst s k = some i ∧ i.st = InstState.waiting ∧ 1 < i.counter)
    ∧ (∃ (s : State) (e : ℕ) (n : ℕ) (c : Completion) (t : List Completion) (target : ℕ) (k : ℕ) (i : Inst), Sized s ∧ n < 8 ∧ e < 18 ∧ (getEngine s e).queue = c :: t ∧ target = graphSucc s (stageGraph s c.stage) ((graphNode s (stageGraph s c.stage) c.node).succ + c.pos) ∧ instAt s c.stage c.frame target = some k ∧ nodeInst s k = some i ∧ i.st = InstState.waiting ∧ i.counter = 1 ∧ i.runs = true ∧ i.effect = false ∧ canTake s i = true)
    ∧ (∃ (s : State) (e : ℕ) (n : ℕ) (t : ℕ) (c : Completion) (q : List Completion), Sized s ∧ n < 8 ∧ e < 18 ∧ (getEngine s e).stallAt = some t ∧ (getEngine s e).stage = some n ∧ (getEngine s e).queue = c :: q ∧ (getEngine s e).stalled = false ∧ holdsDispatch s e = true) := by
  refine ⟨?_, ?_, ?_, ?_, ?_, ?_⟩
  · exact ⟨running7 [] (fun x => { x with waitPost := [compl], queue := List.replicate 7 compl }), 0, 7, compl, [], met⟩
  · exact ⟨running7 [] (fun x => { x with waitPost := [{ compl with len := 0 }] }), 0, 7, { compl with len := 0 }, [], met⟩
  · exact ⟨running7 [{ in0 (.noSlot 13 (some 0)) with node := 1 }] (fun x => { x with queue := [compl] }), 0, 7, compl, [], 1, 0, { in0 (.noSlot 13 (some 0)) with node := 1 }, 13, met⟩
  · exact ⟨running7 [{ in0 .waiting with node := 1, counter := 2 }] (fun x => { x with queue := [compl] }), 0, 7, compl, [], 1, 0, { in0 .waiting with node := 1, counter := 2 }, met⟩
  · exact ⟨running7 [{ in0 .waiting with node := 1 }] (fun x => { x with queue := [compl] }), 0, 7, compl, [], 1, 0, { in0 .waiting with node := 1 }, met⟩
  · exact ⟨running7 [in0 (.ready 5 8)] (fun x => { x with stallAt := some 3, queue := List.replicate 8 compl }), 0, 7, 3, compl, List.replicate 7 compl, met⟩

/-- The hypotheses of `Obligations.DillCommitsMissesAndChecks`, met leaf by leaf (part 1 of 3). -/
theorem witness_DillCommitsMissesAndChecks :
    (∃ (s : State) (n : ℕ) (f : Frame), Sized s ∧ n < 8 ∧ (List.find? (fun f => f.spec && f.complete && allPassed f && !f.corrected) (getStage s n).frames = some f))
    ∧ (∃ (s : State) (n : ℕ), Sized s ∧ n < 8 ∧ (List.find? (fun f => f.spec && f.complete && allPassed f && !f.corrected) (getStage s n).frames = none))
    ∧ (∃ (s : State) (n : ℕ), Sized s ∧ n < 8 ∧ headFrame s n = none)
    ∧ (∃ (s : State) (n : ℕ) (f : Frame) (z : State), Sized s ∧ n < 8 ∧ headFrame s n = some f ∧ (z = if f.complete = true then advanceQ f.completeAt s else s) ∧ commitReady z n f = false)
    ∧ (∃ (s : State) (n : ℕ) (f : Frame) (z : State), Sized s ∧ n < 8 ∧ headFrame s n = some f ∧ (z = if f.complete = true then advanceQ f.completeAt s else s) ∧ commitReady z n f = true)
    ∧ (∃ (s : State) (n : ℕ), Sized s ∧ n < 8 ∧ (stageLive s n = false ∨ deadlineFrame s n = none))
    ∧ (∃ (s : State) (n : ℕ) (idx : U32) (t : ℕ), Sized s ∧ n < 8 ∧ stageLive s n = true ∧ deadlineFrame s n = some (idx, t)) := by
  refine ⟨?_, ?_, ?_, ?_, ?_, ?_, ?_⟩
  · exact ⟨running7 [] id, 7, fr0, met⟩
  · exact ⟨stage7 .enabled (fun x => { x with suspend := some 6, cFrame := 6 }) (island .run), 7, met⟩
  · exact ⟨stage7 .enabled (fun x => { x with suspend := some 6 }) (island .run), 7, met⟩
  · exact ⟨stage7 .enabled (fun x => { x with frames := [{ fr0 with complete := false }] }) (island .run), 7, { fr0 with complete := false }, stage7 .enabled (fun x => { x with frames := [{ fr0 with complete := false }] }) (island .run), met⟩
  · exact ⟨stage7 .enabled (fun x => { x with frames := [{ fr0 with spec := false }] }) (island .run), 7, { fr0 with spec := false }, advanceQ 0 (stage7 .enabled (fun x => { x with frames := [{ fr0 with spec := false }] }) (island .run)), met⟩
  · exact ⟨stage7 .enabled (fun x => { x with suspend := some 6, cFrame := 6 }) (island .run), 7, met⟩
  · exact ⟨running7 [] id, 7, 5, 51000, met⟩

/-- The hypotheses of `Obligations.DillCommitsMissesAndChecks`, met leaf by leaf (part 2 of 3). -/
theorem witness_DillCommitsMissesAndChecks_2 :
    (∃ (s : State) (n : ℕ), Sized s ∧ n < 8 ∧ (getStage s n).suspend = none)
    ∧ (∃ (s : State) (n : ℕ) (e : U32), Sized s ∧ n < 8 ∧ (getStage s n).suspend = some e ∧ frameAfter e (getStage s n).cFrame = true)
    ∧ (∃ (s : State) (n : ℕ) (e : U32), Sized s ∧ n < 8 ∧ (getStage s n).suspend = some e ∧ frameAfter e (getStage s n).cFrame = false)
    ∧ (∃ (s : State) (n : ℕ), Sized s ∧ n < 8 ∧ ((getStage s n).handover = none ∨ nextRetire s 4 = none))
    ∧ (∃ (s : State) (n : ℕ) (e : ℕ) (p : ℕ) (r : Retirement), Sized s ∧ n < 8 ∧ (getStage s n).handover = some (e, p) ∧ s.rel.waiting = [r] ∧ r.cls = 4 ∧ e < 18 ∧ p < 18 ∧ e ≠ p)
    ∧ (∃ (s : State) (n : ℕ) (e : ℕ), Sized s ∧ n < 8 ∧ e < 18 ∧ 16 ≤ e ∧ (getEngine s e).service = Service.spare ∧ (∀ m < 8, ∀ (h : ℕ × ℕ), (getStage s m).handover = some h → h.2 ≠ e))
    ∧ (∃ (s : State) (n : ℕ) (e : ℕ), Sized s ∧ n < 8 ∧ e < 18 ∧ (e < 16 ∨ (getEngine s e).service ≠ Service.spare ∨ ∃ m < 8, ∃ h, (getStage s m).handover = some h ∧ h.2 = e)) := by
  refine ⟨?_, ?_, ?_, ?_, ?_, ?_, ?_⟩
  · exact ⟨stage7 .enabled (fun x => { x with frames := [{ fr0 with spec := false }] }) (island .run), 7, met⟩
  · exact ⟨stage7 .enabled (fun x => { x with suspend := some 6 }) (island .run), 7, 6, met⟩
  · exact ⟨stage7 .enabled (fun x => { x with suspend := some 6, cFrame := 6 }) (island .run), 7, 6, met⟩
  · exact ⟨stage7 .enabled (fun x => { x with frames := [{ fr0 with spec := false }] }) (island .run), 7, met⟩
  · exact ⟨{ stage7 .enabled (fun x => { x with handover := some (0, 16) }) (island .run) with rel := { (island .run).rel with waiting := [retire4] } }, 7, 0, 16, retire4, met⟩
  · exact ⟨updEngine 16 (fun x => { x with service := .spare }) (running7 [] id), 7, 16, met⟩
  · exact ⟨stage7 .enabled (fun x => { x with suspend := some 6 }) (island .run), 7, 6, met⟩

/-- The hypotheses of `Obligations.DillCommitsMissesAndChecks`, met leaf by leaf (part 3 of 3). -/
theorem witness_DillCommitsMissesAndChecks_3 :
    (∃ (s : State) (n : ℕ) (e : ℕ) (flip : U32), Sized s ∧ n < 8 ∧ 16 ≤ e ∧ e < 18 ∧ (getEngine s e).service ≠ Service.spare)
    ∧ (∃ (s : State) (n : ℕ) (e : ℕ) (c : Checker) (flip : U32), Sized s ∧ n < 8 ∧ 16 ≤ e ∧ e < 18 ∧ c = s.loop.checkers.getD (e - 16) checker0 ∧ c.doubts = [] ∧ (c.target = none ∨ c.copy = none ∨ c.replay = none))
    ∧ (∃ (s : State) (n : ℕ) (e : ℕ) (c : Checker) (t : ℕ) (k : EngCopy) (job : Replay), Sized s ∧ n < 8 ∧ 16 ≤ e ∧ e < 18 ∧ c = s.loop.checkers.getD (e - 16) checker0 ∧ (getEngine s e).service = Service.spare ∧ c.doubts = [] ∧ c.target = some t ∧ c.copy = some k ∧ c.replay = some job ∧ (getEngine s t).stage = some n)
    ∧ (∃ (s : State) (n : ℕ) (e : ℕ) (c : Checker) (flip : U32) (t : ℕ) (k : EngCopy) (job : Replay), Sized s ∧ n < 8 ∧ 16 ≤ e ∧ e < 18 ∧ c = s.loop.checkers.getD (e - 16) checker0 ∧ (getEngine s e).service = Service.spare ∧ c.doubts = [] ∧ c.target = some t ∧ c.copy = some k ∧ c.replay = some job ∧ (getEngine s t).stage = some n ∧ flip ≠ 0)
    ∧ (∃ (s : State) (n : ℕ) (e : ℕ) (c : Checker) (flip : U32) (d : Doubt) (l : List Doubt), Sized s ∧ n < 8 ∧ 16 ≤ e ∧ e < 18 ∧ c = s.loop.checkers.getD (e - 16) checker0 ∧ (getEngine s e).service = Service.spare ∧ c.doubts = d :: l ∧ d.first = e ∧ d.job.crc ^^^ flip ≠ d.crc)
    ∧ (∃ (s : State) (n : ℕ) (e : ℕ) (c : Checker) (flip : U32) (d : Doubt) (l : List Doubt), Sized s ∧ n < 8 ∧ 16 ≤ e ∧ e < 18 ∧ c = s.loop.checkers.getD (e - 16) checker0 ∧ (getEngine s e).service = Service.spare ∧ c.doubts = d :: l ∧ s.rel.waiting = [] ∧ s.rel.engSeen = []) := by
  refine ⟨?_, ?_, ?_, ?_, ?_, ?_⟩
  · exact ⟨updEngine 17 (fun x => { x with service := .retired }) (island .run), 7, 17, 5, met⟩
  · exact ⟨island .run, 7, 17, checker0, 5, met⟩
  · exact ⟨{ updEngine 16 (fun x => { x with service := .spare }) (running7 [] id) with loop := { (updEngine 16 (fun x => { x with service := .spare }) (running7 [] id)).loop with checkers := [({ checker0 with target := some 0, copy := some { words := [], sigs := [] }, replay := some { frame := fr0, crc := 0, base := none } } : Checker), checker0] } }, 7, 16, ({ checker0 with target := some 0, copy := some { words := [], sigs := [] }, replay := some { frame := fr0, crc := 0, base := none } } : Checker), 0, { words := [], sigs := [] }, { frame := fr0, crc := 0, base := none }, met⟩
  · exact ⟨{ updEngine 16 (fun x => { x with service := .spare }) (running7 [] id) with loop := { (updEngine 16 (fun x => { x with service := .spare }) (running7 [] id)).loop with checkers := [({ checker0 with target := some 0, copy := some { words := [], sigs := [] }, replay := some { frame := fr0, crc := 0, base := none } } : Checker), checker0] } }, 7, 16, ({ checker0 with target := some 0, copy := some { words := [], sigs := [] }, replay := some { frame := fr0, crc := 0, base := none } } : Checker), 4, 0, { words := [], sigs := [] }, { frame := fr0, crc := 0, base := none }, met⟩
  · exact ⟨{ updEngine 16 (fun x => { x with service := .spare }) (running7 [] id) with loop := { (updEngine 16 (fun x => { x with service := .spare }) (running7 [] id)).loop with checkers := [({ checker0 with doubts := [({ engine := 0, first := 16, copy := { words := [], sigs := [] }, job := { frame := fr0, crc := 0, base := none }, crc := 1 } : Doubt)] } : Checker), checker0] } }, 7, 16, ({ checker0 with doubts := [({ engine := 0, first := 16, copy := { words := [], sigs := [] }, job := { frame := fr0, crc := 0, base := none }, crc := 1 } : Doubt)] } : Checker), 0, ({ engine := 0, first := 16, copy := { words := [], sigs := [] }, job := { frame := fr0, crc := 0, base := none }, crc := 1 } : Doubt), [], met⟩
  · exact ⟨{ updEngine 16 (fun x => { x with service := .spare }) (running7 [] id) with loop := { (updEngine 16 (fun x => { x with service := .spare }) (running7 [] id)).loop with checkers := [({ checker0 with doubts := [({ engine := 0, first := 16, copy := { words := [], sigs := [] }, job := { frame := fr0, crc := 0, base := none }, crc := 1 } : Doubt)] } : Checker), checker0] } }, 7, 16, ({ checker0 with doubts := [({ engine := 0, first := 16, copy := { words := [], sigs := [] }, job := { frame := fr0, crc := 0, base := none }, crc := 1 } : Doubt)] } : Checker), 1, ({ engine := 0, first := 16, copy := { words := [], sigs := [] }, job := { frame := fr0, crc := 0, base := none }, crc := 1 } : Doubt), [], met⟩

/-- The hypotheses of `Obligations.FormingRequests`, met leaf by leaf (part 1 of 4). -/
theorem witness_FormingRequests :
    (∃ (via : Transport) (s : State) (r : Req) (p : Bytes) (u : ℕ), s.sys.dev ≠ DevState.boot ∧ p = reqParams r ∧ n8At p 0 = u ∧ u < 2 ∧ Sized s ∧ paramFull s = true ∧ Takes 0x700#16 via s r ∧ isFuElse r = true)
    ∧ (∃ (via : Transport) (s : State) (r : Req) (p : Bytes) (u : ℕ), s.sys.dev ≠ DevState.boot ∧ p = reqParams r ∧ n8At p 0 = u ∧ u < 2 ∧ Sized s ∧ paramFull s = true ∧ Takes 0x700#16 via s r ∧ isFuKind 1 r = true)
    ∧ (∃ (via : Transport) (s : State) (r : Req) (p : Bytes) (u : ℕ), s.sys.dev ≠ DevState.boot ∧ p = reqParams r ∧ n8At p 0 = u ∧ u < 2 ∧ Sized s ∧ paramFull s = true ∧ Takes 0x700#16 via s r ∧ isFuKind 2 r = true)
    ∧ (∃ (via : Transport) (s : State) (r : Req) (p : Bytes) (u : ℕ), s.sys.dev ≠ DevState.boot ∧ p = reqParams r ∧ n8At p 0 = u ∧ u < 2 ∧ Sized s ∧ paramFull s = true ∧ Takes 0x700#16 via s r ∧ isFuKind 3 r = true)
    ∧ (∃ (via : Transport) (s : State) (r : Req) (p : Bytes) (u : ℕ), s.sys.dev ≠ DevState.boot ∧ p = reqParams r ∧ n8At p 0 = u ∧ u < 2 ∧ Sized s ∧ paramFull s = true ∧ Takes 0x701#16 via s r)
    ∧ (∃ (via : Transport) (s : State) (r : Req) (p : Bytes) (u : ℕ), s.sys.dev ≠ DevState.boot ∧ p = reqParams r ∧ n8At p 0 = u ∧ u < 2 ∧ Sized s ∧ paramFull s = true ∧ Takes 0x702#16 via s r)
    ∧ (∃ (via : Transport) (s : State) (r : Req) (p : Bytes) (u : ℕ), s.sys.dev ≠ DevState.boot ∧ p = reqParams r ∧ n8At p 0 = u ∧ u < 2 ∧ Sized s ∧ paramFull s = true ∧ Takes 0x703#16 via s r)
    ∧ (∃ (via : Transport) (s : State) (r : Req) (p : Bytes) (u : ℕ), s.sys.dev ≠ DevState.boot ∧ p = reqParams r ∧ n8At p 0 = u ∧ u < 2 ∧ Sized s ∧ paramFull s = false ∧ (getFu s u).shutting.isSome = true ∧ Takes 0x700#16 via s r ∧ 2 ≤ List.length p ∧ n8At p 1 = 0) := by
  refine ⟨?_, ?_, ?_, ?_, ?_, ?_, ?_, ?_⟩
  · exact ⟨.cmd, ask (fullQ (island .run)) 0x0700 [1, 0, 1, 0, 0, 0, 72, 66, 0, 0, 200, 67, 0, 80, 67, 72, 0, 80, 195, 71, 0, 0, 160, 64, 0, 0, 160, 63, 0, 0, 200, 66, 0, 0, 0, 0], mk 0x0700 [1, 0, 1, 0, 0, 0, 72, 66, 0, 0, 200, 67, 0, 80, 67, 72, 0, 80, 195, 71, 0, 0, 160, 64, 0, 0, 160, 63, 0, 0, 200, 66, 0, 0, 0, 0], [1, 0, 1, 0, 0, 0, 72, 66, 0, 0, 200, 67, 0, 80, 67, 72, 0, 80, 195, 71, 0, 0, 160, 64, 0, 0, 160, 63, 0, 0, 200, 66, 0, 0, 0, 0], 1, met⟩
  · exact ⟨.cmd, ask (fullQ (island .run)) 0x0700 [1, 1], mk 0x0700 [1, 1], [1, 1], 1, met⟩
  · exact ⟨.cmd, ask (fullQ (island .run)) 0x0700 [1, 2], mk 0x0700 [1, 2], [1, 2], 1, met⟩
  · exact ⟨.cmd, ask (fullQ (island .run)) 0x0700 [1, 3], mk 0x0700 [1, 3], [1, 3], 1, met⟩
  · exact ⟨.cmd, ask (fullQ (island .run)) 0x0701 [1], mk 0x0701 [1], [1], 1, met⟩
  · exact ⟨.cmd, ask (fullQ (island .run)) 0x0702 [1], mk 0x0702 [1], [1], 1, met⟩
  · exact ⟨.cmd, ask (fullQ (island .run)) 0x0703 [1], mk 0x0703 [1], [1], 1, met⟩
  · exact ⟨.cmd, ask (fuOn 1 (fun x => { x with shutting := some 9 }) (island .run)) 0x0700 [1, 0], mk 0x0700 [1, 0], [1, 0], 1, met⟩

/-- The hypotheses of `Obligations.FormingRequests`, met leaf by leaf (part 2 of 4). -/
theorem witness_FormingRequests_2 :
    (∃ (via : Transport) (s : State) (r : Req) (p : Bytes) (u : ℕ), s.sys.dev ≠ DevState.boot ∧ p = reqParams r ∧ n8At p 0 = u ∧ u < 2 ∧ Sized s ∧ paramFull s = false ∧ (getFu s u).shutting.isSome = true ∧ Takes 0x700#16 via s r ∧ 2 ≤ List.length p ∧ n8At p 1 = 3)
    ∧ (∃ (via : Transport) (s : State) (r : Req) (p : Bytes) (u : ℕ), s.sys.dev ≠ DevState.boot ∧ p = reqParams r ∧ n8At p 0 = u ∧ u < 2 ∧ Sized s ∧ paramFull s = false ∧ (getFu s u).shutting.isSome = true ∧ Takes 0x701#16 via s r ∧ s.sys.dev = DevState.run ∧ n8At p 1 ≠ 0)
    ∧ (∃ (via : Transport) (s : State) (r : Req) (p : Bytes) (u : ℕ), s.sys.dev ≠ DevState.boot ∧ p = reqParams r ∧ n8At p 0 = u ∧ u < 2 ∧ Sized s ∧ paramFull s = false ∧ (getFu s u).shutting.isSome = true ∧ Takes 0x702#16 via s r)
    ∧ (∃ (via : Transport) (s : State) (r : Req) (p : Bytes) (u : ℕ), s.sys.dev ≠ DevState.boot ∧ p = reqParams r ∧ n8At p 0 = u ∧ u < 2 ∧ Sized s ∧ paramFull s = false ∧ (getFu s u).shutting.isSome = true ∧ Takes 0x703#16 via s r)
    ∧ (∃ (via : Transport) (s : State) (r : Req) (p : Bytes) (u : ℕ), s.sys.dev ≠ DevState.boot ∧ p = reqParams r ∧ n8At p 0 = u ∧ u < 2 ∧ Sized s ∧ paramFull s = false ∧ (getFu s u).shutting = none ∧ Takes 0x700#16 via s r ∧ (getFu s u).mode ≠ FuMode.off ∧ 2 ≤ List.length p ∧ n8At p 1 = 0)
    ∧ (∃ (via : Transport) (s : State) (r : Req) (p : Bytes) (u : ℕ), s.sys.dev ≠ DevState.boot ∧ p = reqParams r ∧ n8At p 0 = u ∧ u < 2 ∧ Sized s ∧ paramFull s = false ∧ (getFu s u).shutting = none ∧ Takes 0x700#16 via s r ∧ (getFu s u).mode ≠ FuMode.off ∧ 2 ≤ List.length p ∧ n8At p 1 = 3)
    ∧ (∃ (via : Transport) (s : State) (r : Req) (p : Bytes) (u : ℕ) (m : FuMode), s.sys.dev ≠ DevState.boot ∧ p = reqParams r ∧ n8At p 0 = u ∧ u < 2 ∧ Sized s ∧ paramFull s = false ∧ (getFu s u).shutting = none ∧ Takes 0x701#16 via s r ∧ fuModeOf (n8At p 1) = some m ∧ m ≠ FuMode.off ∧ s.sys.dev ≠ DevState.run)
    ∧ (∃ (via : Transport) (s : State) (r : Req) (p : Bytes) (u : ℕ) (m : FuMode), s.sys.dev ≠ DevState.boot ∧ p = reqParams r ∧ n8At p 0 = u ∧ u < 2 ∧ Sized s ∧ paramFull s = false ∧ (getFu s u).shutting = none ∧ Takes 0x701#16 via s r ∧ fuModeOf (n8At p 1) = some m ∧ m ≠ FuMode.off ∧ s.sys.dev = DevState.run ∧ (modeListed (getFu s u) m = false ∨ (getFu s u).mode = FuMode.off ∧ feedEnabled s (getFu s u) = false)) := by
  refine ⟨?_, ?_, ?_, ?_, ?_, ?_, ?_, ?_⟩
  · exact ⟨.cmd, ask (fuOn 1 (fun x => { x with shutting := some 9 }) (island .run)) 0x0700 [1, 3], mk 0x0700 [1, 3], [1, 3], 1, met⟩
  · exact ⟨.cmd, ask (fuOn 1 (fun x => { x with shutting := some 9 }) (island .run)) 0x0701 [1, 2], mk 0x0701 [1, 2], [1, 2], 1, met⟩
  · exact ⟨.cmd, ask (fuOn 1 (fun x => { x with shutting := some 9 }) (island .run)) 0x0702 [1], mk 0x0702 [1], [1], 1, met⟩
  · exact ⟨.cmd, ask (fuOn 1 (fun x => { x with shutting := some 9 }) (island .run)) 0x0703 [1], mk 0x0703 [1], [1], 1, met⟩
  · exact ⟨.cmd, ask (fuOn 1 id (stage7 .enabled id (island .run))) 0x0700 [1, 0], mk 0x0700 [1, 0], [1, 0], 1, met⟩
  · exact ⟨.cmd, ask (fuOn 1 id (stage7 .enabled id (island .run))) 0x0700 [1, 3], mk 0x0700 [1, 3], [1, 3], 1, met⟩
  · exact ⟨.cmd, ask (island .config) 0x0701 [1, 2, 0, 0], mk 0x0701 [1, 2, 0, 0], [1, 2, 0, 0], 1, .sync, met⟩
  · exact ⟨.cmd, ask (island .run) 0x0701 [1, 2, 0, 0], mk 0x0701 [1, 2, 0, 0], [1, 2, 0, 0], 1, .sync, met⟩

/-- The hypotheses of `Obligations.FormingRequests`, met leaf by leaf (part 3 of 4). -/
theorem witness_FormingRequests_3 :
    (∃ (via : Transport) (s : State) (r : Req) (p : Bytes) (u : ℕ) (m : FuMode), s.sys.dev ≠ DevState.boot ∧ p = reqParams r ∧ n8At p 0 = u ∧ u < 2 ∧ Sized s ∧ paramFull s = false ∧ (getFu s u).shutting = none ∧ Takes 0x701#16 via s r ∧ fuModeOf (n8At p 1) = some m ∧ m ≠ FuMode.off ∧ s.sys.dev = DevState.run ∧ List.length p = 4 ∧ zeroAt p 2 2 = true ∧ modeListed (getFu s u) m = true ∧ ((getFu s u).mode = FuMode.off → feedEnabled s (getFu s u) = true) ∧ (getFu s u).mode = FuMode.off ∧ feedNominal s (getFu s u) = false)
    ∧ (∃ (via : Transport) (s : State) (r : Req) (p : Bytes) (u : ℕ) (m : FuMode), s.sys.dev ≠ DevState.boot ∧ p = reqParams r ∧ n8At p 0 = u ∧ u < 2 ∧ Sized s ∧ paramFull s = false ∧ (getFu s u).shutting = none ∧ Takes 0x701#16 via s r ∧ fuModeOf (n8At p 1) = some m ∧ m ≠ FuMode.off ∧ s.sys.dev = DevState.run ∧ List.length p = 4 ∧ zeroAt p 2 2 = true ∧ modeListed (getFu s u) m = true ∧ ((getFu s u).mode = FuMode.off → feedEnabled s (getFu s u) = true) ∧ ((getFu s u).mode = FuMode.off → feedNominal s (getFu s u) = true) ∧ pllLocked s 0 = false)
    ∧ (∃ (via : Transport) (s : State) (r : Req) (p : Bytes) (u : ℕ), s.sys.dev ≠ DevState.boot ∧ p = reqParams r ∧ n8At p 0 = u ∧ u < 2 ∧ Sized s ∧ paramFull s = false ∧ Takes 0x700#16 via s r ∧ (getFu s u).mode = FuMode.off ∧ (getFu s u).shutting = none ∧ List.length p = 36 ∧ n8At p 1 = 0 ∧ n8At p 2 ≤ 1 ∧ byteAt p 3 = 0 ∧ zeroAt p 32 4 = true ∧ (u32At p 4 = 0x42480000#32 ∨ u32At p 4 = 0x42700000#32) ∧ f32In (u32At p 8) 50 400 = true ∧ f32In (u32At p 12) 1000 200000 = true ∧ f32In (u32At p 16) 10000 100000 = true ∧ f32In (u32At p 20) (1 / 2) 5 = true ∧ f32In (u32At p 24) 1 (13 / 10) = true ∧ f32In (u32At p 28) 1 100 = true)
    ∧ (∃ (via : Transport) (s : State) (r : Req) (p : Bytes) (u : ℕ), s.sys.dev ≠ DevState.boot ∧ p = reqParams r ∧ n8At p 0 = u ∧ u < 2 ∧ Sized s ∧ paramFull s = false ∧ Takes 0x700#16 via s r ∧ lawRanges p ∧ fuIdle s u)
    ∧ (∃ (via : Transport) (s : State) (r : Req) (p : Bytes) (u : ℕ), s.sys.dev ≠ DevState.boot ∧ p = reqParams r ∧ n8At p 0 = u ∧ u < 2 ∧ Sized s ∧ paramFull s = false ∧ Takes 0x700#16 via s r ∧ lawRanges p ∧ (¬fuIdle s u))
    ∧ (∃ (via : Transport) (s : State) (r : Req) (p : Bytes) (u : ℕ), s.sys.dev ≠ DevState.boot ∧ p = reqParams r ∧ n8At p 0 = u ∧ u < 2 ∧ Sized s ∧ paramFull s = false ∧ Takes 0x700#16 via s r ∧ limRanges p ∧ fuIdle s u)
    ∧ (∃ (via : Transport) (s : State) (r : Req) (p : Bytes) (u : ℕ), s.sys.dev ≠ DevState.boot ∧ p = reqParams r ∧ n8At p 0 = u ∧ u < 2 ∧ Sized s ∧ paramFull s = false ∧ Takes 0x700#16 via s r ∧ limRanges p ∧ (¬fuIdle s u))
    ∧ (∃ (via : Transport) (s : State) (r : Req) (p : Bytes) (u : ℕ), s.sys.dev ≠ DevState.boot ∧ p = reqParams r ∧ n8At p 0 = u ∧ u < 2 ∧ Sized s ∧ paramFull s = false ∧ Takes 0x700#16 via s r ∧ (getFu s u).mode = FuMode.off ∧ (getFu s u).shutting = none ∧ List.length p = 40 ∧ n8At p 1 = 3 ∧ n8At p 2 ≤ 1 ∧ byteAt p 3 = 0 ∧ zeroAt p 32 8 = true ∧ f32In (u32At p 4) (1 / 100) (1 / 2) = true ∧ f32In (u32At p 8) (1 / 1000) (1 / 10) = true ∧ f32In (u32At p 12) (5 / 1000) (1 / 10) = true ∧ f32In (u32At p 16) (1 / 10) 2 = true ∧ f32In (u32At p 20) (1 / 100) 2 = true ∧ f32In (u32At p 24) (1 / 10) 50 = true ∧ f32In (u32At p 28) (2 / 100) (3 / 10) = true) := by
  refine ⟨?_, ?_, ?_, ?_, ?_, ?_, ?_, ?_⟩
  · exact ⟨.cmd, ask (updFu 1 (fun x => { x with feeding := some 7, feedDiv := 1 }) (stage7 .enabled id (updTimer 23 (fun x => { x with period := 1600000 }) (island .run)))) 0x0701 [1, 2, 0, 0], mk 0x0701 [1, 2, 0, 0], [1, 2, 0, 0], 1, .sync, met⟩
  · exact ⟨.cmd, ask (updFu 1 (fun x => { x with feeding := some 7, feedDiv := 1 }) (pllSt 0 .lost (stage7 .enabled id (island .run)))) 0x0701 [1, 2, 0, 0], mk 0x0701 [1, 2, 0, 0], [1, 2, 0, 0], 1, .sync, met⟩
  · exact ⟨.cmd, ask (island .run) 0x0700 [1, 0, 1, 0, 0, 0, 72, 66, 0, 0, 200, 67, 0, 80, 67, 72, 0, 80, 195, 71, 0, 0, 160, 64, 0, 0, 160, 63, 0, 0, 200, 66, 0, 0, 0, 0], mk 0x0700 [1, 0, 1, 0, 0, 0, 72, 66, 0, 0, 200, 67, 0, 80, 67, 72, 0, 80, 195, 71, 0, 0, 160, 64, 0, 0, 160, 63, 0, 0, 200, 66, 0, 0, 0, 0], [1, 0, 1, 0, 0, 0, 72, 66, 0, 0, 200, 67, 0, 80, 67, 72, 0, 80, 195, 71, 0, 0, 160, 64, 0, 0, 160, 63, 0, 0, 200, 66, 0, 0, 0, 0], 1, met⟩
  · exact ⟨.cmd, ask (island .run) 0x0700 [1, 1, 1, 0, 0, 0, 240, 65, 0, 0, 72, 67, 0, 0, 32, 65, 0, 0, 160, 65, 0, 0, 0, 63, 0, 0, 0, 63, 0, 0, 0, 63, 205, 204, 76, 61, 205, 204, 76, 61, 0, 0, 200, 66, 0, 0, 200, 66, 0, 0, 32, 65, 0, 0, 32, 65, 0, 0, 0, 0, 0, 0, 0, 0], mk 0x0700 [1, 1, 1, 0, 0, 0, 240, 65, 0, 0, 72, 67, 0, 0, 32, 65, 0, 0, 160, 65, 0, 0, 0, 63, 0, 0, 0, 63, 0, 0, 0, 63, 205, 204, 76, 61, 205, 204, 76, 61, 0, 0, 200, 66, 0, 0, 200, 66, 0, 0, 32, 65, 0, 0, 32, 65, 0, 0, 0, 0, 0, 0, 0, 0], [1, 1, 1, 0, 0, 0, 240, 65, 0, 0, 72, 67, 0, 0, 32, 65, 0, 0, 160, 65, 0, 0, 0, 63, 0, 0, 0, 63, 0, 0, 0, 63, 205, 204, 76, 61, 205, 204, 76, 61, 0, 0, 200, 66, 0, 0, 200, 66, 0, 0, 32, 65, 0, 0, 32, 65, 0, 0, 0, 0, 0, 0, 0, 0], 1, met⟩
  · exact ⟨.cmd, ask (fuOn 1 id (stage7 .enabled id (island .run))) 0x0700 [1, 1, 1, 0, 0, 0, 240, 65, 0, 0, 72, 67, 0, 0, 32, 65, 0, 0, 160, 65, 0, 0, 0, 63, 0, 0, 0, 63, 0, 0, 0, 63, 205, 204, 76, 61, 205, 204, 76, 61, 0, 0, 200, 66, 0, 0, 200, 66, 0, 0, 32, 65, 0, 0, 32, 65, 0, 0, 0, 0, 0, 0, 0, 0], mk 0x0700 [1, 1, 1, 0, 0, 0, 240, 65, 0, 0, 72, 67, 0, 0, 32, 65, 0, 0, 160, 65, 0, 0, 0, 63, 0, 0, 0, 63, 0, 0, 0, 63, 205, 204, 76, 61, 205, 204, 76, 61, 0, 0, 200, 66, 0, 0, 200, 66, 0, 0, 32, 65, 0, 0, 32, 65, 0, 0, 0, 0, 0, 0, 0, 0], [1, 1, 1, 0, 0, 0, 240, 65, 0, 0, 72, 67, 0, 0, 32, 65, 0, 0, 160, 65, 0, 0, 0, 63, 0, 0, 0, 63, 0, 0, 0, 63, 205, 204, 76, 61, 205, 204, 76, 61, 0, 0, 200, 66, 0, 0, 200, 66, 0, 0, 32, 65, 0, 0, 32, 65, 0, 0, 0, 0, 0, 0, 0, 0], 1, met⟩
  · exact ⟨.cmd, ask (island .run) 0x0700 [1, 2, 1, 0, 0, 0, 0, 64, 0, 0, 128, 63, 0, 0, 128, 63, 0, 0, 128, 63, 0, 0, 128, 63, 0, 0, 128, 63, 0, 0, 128, 63, 0, 0, 0, 0, 0, 0, 0, 0], mk 0x0700 [1, 2, 1, 0, 0, 0, 0, 64, 0, 0, 128, 63, 0, 0, 128, 63, 0, 0, 128, 63, 0, 0, 128, 63, 0, 0, 128, 63, 0, 0, 128, 63, 0, 0, 0, 0, 0, 0, 0, 0], [1, 2, 1, 0, 0, 0, 0, 64, 0, 0, 128, 63, 0, 0, 128, 63, 0, 0, 128, 63, 0, 0, 128, 63, 0, 0, 128, 63, 0, 0, 128, 63, 0, 0, 0, 0, 0, 0, 0, 0], 1, met⟩
  · exact ⟨.cmd, ask (fuOn 1 id (stage7 .enabled id (island .run))) 0x0700 [1, 2, 1, 0, 0, 0, 0, 64, 0, 0, 128, 63, 0, 0, 128, 63, 0, 0, 128, 63, 0, 0, 128, 63, 0, 0, 128, 63, 0, 0, 128, 63, 0, 0, 0, 0, 0, 0, 0, 0], mk 0x0700 [1, 2, 1, 0, 0, 0, 0, 64, 0, 0, 128, 63, 0, 0, 128, 63, 0, 0, 128, 63, 0, 0, 128, 63, 0, 0, 128, 63, 0, 0, 128, 63, 0, 0, 0, 0, 0, 0, 0, 0], [1, 2, 1, 0, 0, 0, 0, 64, 0, 0, 128, 63, 0, 0, 128, 63, 0, 0, 128, 63, 0, 0, 128, 63, 0, 0, 128, 63, 0, 0, 128, 63, 0, 0, 0, 0, 0, 0, 0, 0], 1, met⟩
  · exact ⟨.cmd, ask (island .run) 0x0700 [1, 3, 1, 0, 0, 0, 0, 63, 0, 0, 128, 61, 0, 0, 128, 61, 0, 0, 0, 64, 0, 0, 128, 63, 0, 0, 72, 66, 0, 0, 128, 62, 0, 0, 0, 0, 0, 0, 0, 0], mk 0x0700 [1, 3, 1, 0, 0, 0, 0, 63, 0, 0, 128, 61, 0, 0, 128, 61, 0, 0, 0, 64, 0, 0, 128, 63, 0, 0, 72, 66, 0, 0, 128, 62, 0, 0, 0, 0, 0, 0, 0, 0], [1, 3, 1, 0, 0, 0, 0, 63, 0, 0, 128, 61, 0, 0, 128, 61, 0, 0, 0, 64, 0, 0, 128, 63, 0, 0, 72, 66, 0, 0, 128, 62, 0, 0, 0, 0, 0, 0, 0, 0], 1, met⟩

/-- The hypotheses of `Obligations.FormingRequests`, met leaf by leaf (part 4 of 4). -/
theorem witness_FormingRequests_4 :
    (∃ (via : Transport) (s : State) (r : Req) (p : Bytes) (u : ℕ), s.sys.dev ≠ DevState.boot ∧ p = reqParams r ∧ n8At p 0 = u ∧ u < 2 ∧ Sized s ∧ paramFull s = false ∧ Takes 0x701#16 via s r ∧ p = [BitVec.ofNat 8 u, 0, 0, 0] ∧ (getFu s u).mode = FuMode.off)
    ∧ (∃ (via : Transport) (s : State) (r : Req) (p : Bytes) (u : ℕ), s.sys.dev ≠ DevState.boot ∧ p = reqParams r ∧ n8At p 0 = u ∧ u < 2 ∧ Sized s ∧ paramFull s = false ∧ Takes 0x701#16 via s r ∧ p = [BitVec.ofNat 8 u, 0, 0, 0] ∧ (getFu s u).mode ≠ FuMode.off ∧ (getFu s u).shutting = none)
    ∧ (∃ (via : Transport) (s : State) (r : Req) (p : Bytes) (u : ℕ) (k : ℕ) (m : FuMode), s.sys.dev ≠ DevState.boot ∧ p = reqParams r ∧ n8At p 0 = u ∧ u < 2 ∧ Sized s ∧ paramFull s = false ∧ Takes 0x701#16 via s r ∧ s.sys.dev = DevState.run ∧ p = [BitVec.ofNat 8 u, BitVec.ofNat 8 k, 0, 0] ∧ k < 6 ∧ fuModeOf k = some m ∧ m ≠ FuMode.off ∧ (getFu s u).shutting = none ∧ modeListed (getFu s u) m = true ∧ ((getFu s u).mode = FuMode.off → feedEnabled s (getFu s u) = true ∧ feedNominal s (getFu s u) = true) ∧ pllLocked s 0 = true)
    ∧ (∃ (via : Transport) (s : State) (r : Req) (p : Bytes) (u : ℕ) (k : ℕ), s.sys.dev ≠ DevState.boot ∧ p = reqParams r ∧ n8At p 0 = u ∧ u < 2 ∧ Sized s ∧ paramFull s = false ∧ Takes 0x702#16 via s r ∧ List.length p = 20 ∧ n8At p 1 = k ∧ 1 ≤ k ∧ k ≤ 15 ∧ zeroAt p 2 2 = true ∧ (getFu s u).shutting = none ∧ (∀ i < 2, f32In (u32At p (4 + 4 * i)) (-f32Val (getFu s u).port.sb) (f32Val (getFu s u).port.sb) = true) ∧ f32In (u32At p 12) (f32Val (getFu s u).port.fn - f32Val (getFu s u).port.dfmax) (f32Val (getFu s u).port.fn + f32Val (getFu s u).port.dfmax) = true ∧ f32In (u32At p 16) (f32Val (getFu s u).port.vb * (8 / 10)) (f32Val (getFu s u).port.vb * (11 / 10)) = true ∧ fuIdle s u)
    ∧ (∃ (via : Transport) (s : State) (r : Req) (p : Bytes) (u : ℕ) (k : ℕ), s.sys.dev ≠ DevState.boot ∧ p = reqParams r ∧ n8At p 0 = u ∧ u < 2 ∧ Sized s ∧ paramFull s = false ∧ Takes 0x702#16 via s r ∧ List.length p = 20 ∧ n8At p 1 = k ∧ 1 ≤ k ∧ k ≤ 15 ∧ zeroAt p 2 2 = true ∧ (getFu s u).shutting = none ∧ (∀ i < 2, f32In (u32At p (4 + 4 * i)) (-f32Val (getFu s u).port.sb) (f32Val (getFu s u).port.sb) = true) ∧ f32In (u32At p 12) (f32Val (getFu s u).port.fn - f32Val (getFu s u).port.dfmax) (f32Val (getFu s u).port.fn + f32Val (getFu s u).port.dfmax) = true ∧ f32In (u32At p 16) (f32Val (getFu s u).port.vb * (8 / 10)) (f32Val (getFu s u).port.vb * (11 / 10)) = true ∧ (¬fuIdle s u))
    ∧ (∃ (via : Transport) (s : State) (r : Req) (p : Bytes) (u : ℕ) (d : ℕ), s.sys.dev ≠ DevState.boot ∧ p = reqParams r ∧ n8At p 0 = u ∧ u < 2 ∧ Sized s ∧ paramFull s = false ∧ Takes 0x703#16 via s r ∧ List.length p = 28 ∧ n8At p 2 = d ∧ d < 4 ∧ byteAt p 3 = 0 ∧ 100 ≤ n32At p 8 ∧ n32At p 8 ≤ 600000 ∧ f32In (u32At p 12) 0 1 = true ∧ f32In (u32At p 16) 0 1 = true ∧ f32In (u32At p 20) 0 2 = true ∧ f32In (u32At p 24) 0 (f32Val (getFu s u).port.vb / 10) = true ∧ (getFu s u).shutting = none ∧ tdRunning (getTd s d) = true ∧ n8At p 1 = 1)
    ∧ (∃ (via : Transport) (s : State) (r : Req) (p : Bytes) (u : ℕ) (d : ℕ), s.sys.dev ≠ DevState.boot ∧ p = reqParams r ∧ n8At p 0 = u ∧ u < 2 ∧ Sized s ∧ paramFull s = false ∧ Takes 0x703#16 via s r ∧ List.length p = 28 ∧ n8At p 2 = d ∧ d < 4 ∧ byteAt p 3 = 0 ∧ 100 ≤ n32At p 8 ∧ n32At p 8 ≤ 600000 ∧ f32In (u32At p 12) 0 1 = true ∧ f32In (u32At p 16) 0 1 = true ∧ f32In (u32At p 20) 0 2 = true ∧ f32In (u32At p 24) 0 (f32Val (getFu s u).port.vb / 10) = true ∧ (getFu s u).shutting = none ∧ tdRunning (getTd s d) = true ∧ n8At p 1 = 0) := by
  refine ⟨?_, ?_, ?_, ?_, ?_, ?_, ?_⟩
  · exact ⟨.cmd, ask (island .run) 0x0701 [1, 0, 0, 0], mk 0x0701 [1, 0, 0, 0], [1, 0, 0, 0], 1, met⟩
  · exact ⟨.cmd, ask (fuOn 1 id (stage7 .enabled id (island .run))) 0x0701 [1, 0, 0, 0], mk 0x0701 [1, 0, 0, 0], [1, 0, 0, 0], 1, met⟩
  · exact ⟨.cmd, ask (updFu 1 (fun x => { x with feeding := some 7, feedDiv := 1 }) (stage7 .enabled id (island .run))) 0x0701 [1, 2, 0, 0], mk 0x0701 [1, 2, 0, 0], [1, 2, 0, 0], 1, 2, .sync, met⟩
  · exact ⟨.cmd, ask (island .run) 0x0702 [1, 15, 0, 0, 0, 0, 0, 0, 0, 0, 0, 0, 0, 0, 72, 66, 0, 0, 102, 67], mk 0x0702 [1, 15, 0, 0, 0, 0, 0, 0, 0, 0, 0, 0, 0, 0, 72, 66, 0, 0, 102, 67], [1, 15, 0, 0, 0, 0, 0, 0, 0, 0, 0, 0, 0, 0, 72, 66, 0, 0, 102, 67], 1, 15, met⟩
  · exact ⟨.cmd, ask (fuOn 1 id (stage7 .enabled id (island .run))) 0x0702 [1, 15, 0, 0, 0, 0, 0, 0, 0, 0, 0, 0, 0, 0, 72, 66, 0, 0, 102, 67], mk 0x0702 [1, 15, 0, 0, 0, 0, 0, 0, 0, 0, 0, 0, 0, 0, 72, 66, 0, 0, 102, 67], [1, 15, 0, 0, 0, 0, 0, 0, 0, 0, 0, 0, 0, 0, 72, 66, 0, 0, 102, 67], 1, 15, met⟩
  · exact ⟨.cmd, ask (island .run) 0x0703 [1, 1, 0, 0, 0, 0, 0, 0, 192, 39, 9, 0, 0, 0, 128, 63, 0, 0, 128, 63, 0, 0, 0, 64, 0, 0, 184, 65], mk 0x0703 [1, 1, 0, 0, 0, 0, 0, 0, 192, 39, 9, 0, 0, 0, 128, 63, 0, 0, 128, 63, 0, 0, 0, 64, 0, 0, 184, 65], [1, 1, 0, 0, 0, 0, 0, 0, 192, 39, 9, 0, 0, 0, 128, 63, 0, 0, 128, 63, 0, 0, 0, 64, 0, 0, 184, 65], 1, 0, met⟩
  · exact ⟨.cmd, ask (island .run) 0x0703 [1, 0, 0, 0, 0, 0, 0, 0, 192, 39, 9, 0, 0, 0, 128, 63, 0, 0, 128, 63, 0, 0, 0, 64, 0, 0, 184, 65], mk 0x0703 [1, 0, 0, 0, 0, 0, 0, 0, 192, 39, 9, 0, 0, 0, 128, 63, 0, 0, 128, 63, 0, 0, 0, 64, 0, 0, 184, 65], [1, 0, 0, 0, 0, 0, 0, 0, 192, 39, 9, 0, 0, 0, 128, 63, 0, 0, 128, 63, 0, 0, 0, 64, 0, 0, 184, 65], 1, 0, met⟩

/-- The hypotheses of `Obligations.FormingPeriodsAndTimes`, met leaf by leaf (part 1 of 4). -/
theorem witness_FormingPeriodsAndTimes :
    (∃ (s : State) (u : ℕ) (x : FormingUnit), Sized s ∧ u < 2 ∧ x = getFu s u ∧ x.running = none)
    ∧ (∃ (s : State) (u : ℕ) (x : FormingUnit) (f : FuFeed), Sized s ∧ u < 2 ∧ x = getFu s u ∧ x.running = some f ∧ x.nowReqs = [] ∧ x.waiting = none ∧ x.mode ≠ FuMode.off ∧ x.offTaken = false ∧ x.sched.on = true ∧ x.sched.paused = false ∧ x.sched.halted = false ∧ x.sched.due = true)
    ∧ (∃ (s : State) (u : ℕ) (x : FormingUnit) (f : FuFeed), Sized s ∧ u < 2 ∧ x = getFu s u ∧ x.running = some f ∧ x.nowReqs = [] ∧ x.waiting = none ∧ x.tk.isSome = true ∧ x.run.started = true ∧ x.offTaken = false ∧ x.mode ≠ FuMode.off ∧ x.mode ≠ FuMode.sync)
    ∧ (∃ (s : State) (u : ℕ) (x : FormingUnit), Sized s ∧ u < 2 ∧ x = getFu s u ∧ x.mode = FuMode.off)
    ∧ (∃ (s : State) (u : ℕ) (x : FormingUnit) (b : Bool), Sized s ∧ u < 2 ∧ x = getFu s u ∧ ((if b = true then x.trk else x.pll).locked = true ∨ heldFor x (if b = true then x.trk else x.pll).since 10000000 = false))
    ∧ (∃ (s : State) (u : ℕ) (x : FormingUnit) (b : Bool), Sized s ∧ u < 2 ∧ x = getFu s u ∧ (if b = true then x.trk else x.pll).locked = false ∧ heldFor x (if b = true then x.trk else x.pll).since 10000000 = true ∧ x.mode = FuMode.sync)
    ∧ (∃ (s : State) (u : ℕ) (x : FormingUnit), Sized s ∧ u < 2 ∧ x = getFu s u ∧ (x.mode = FuMode.off ∨ x.run.ride = false ∨ heldFor x x.run.exitSince (nsParam x.lim.exit) = false)) := by
  refine ⟨?_, ?_, ?_, ?_, ?_, ?_, ?_⟩
  · exact ⟨(fuOn 1 (fun x => { x with lastFeed := 0 }) (island .run)), 1, getFu (fuOn 1 (fun x => { x with lastFeed := 0 }) (island .run)) 1, met⟩
  · exact ⟨fuOn 1 (fun x => { x with running := some feed0, sched := { fuSched0 with on := true, period := 100, next := 1, due := true } }) (island .run), 1, getFu (fuOn 1 (fun x => { x with running := some feed0, sched := { fuSched0 with on := true, period := 100, next := 1, due := true } }) (island .run)) 1, feed0, met⟩
  · exact ⟨(updFu 1 (fun x => { x with running := some feed0, tk := some 0, mode := .island, run := { x.run with started := true } }) (island .run)), 1, getFu (updFu 1 (fun x => { x with running := some feed0, tk := some 0, mode := .island, run := { x.run with started := true } }) (island .run)) 1, feed0, met⟩
  · exact ⟨island .run, 1, getFu (island .run) 1, met⟩
  · exact ⟨(fuOn 1 (fun x => { x with shutting := some 9 }) (island .run)), 1, getFu (fuOn 1 (fun x => { x with shutting := some 9 }) (island .run)) 1, 9, met⟩
  · exact ⟨fuOn 1 (fun x => { x with mode := .sync, tk := some 10000000, pll := { x.pll with locked := false, since := some 0 } }) (island .run), 1, getFu (fuOn 1 (fun x => { x with mode := .sync, tk := some 10000000, pll := { x.pll with locked := false, since := some 0 } }) (island .run)) 1, false, met⟩
  · exact ⟨(fuOn 1 (fun x => { x with tk := some 10000000000, mode := .form, run := { fuRun0 with islSince := some 0 } }) (island .run)), 1, getFu (fuOn 1 (fun x => { x with tk := some 10000000000, mode := .form, run := { fuRun0 with islSince := some 0 } }) (island .run)) 1, met⟩

/-- The hypotheses of `Obligations.FormingPeriodsAndTimes`, met leaf by leaf (part 2 of 4). -/
theorem witness_FormingPeriodsAndTimes_2 :
    (∃ (s : State) (u : ℕ) (x : FormingUnit), Sized s ∧ u < 2 ∧ x = getFu s u ∧ (x.run.ride = true ∨ heldFor x x.run.decay (nsParam x.lim.exit) = false))
    ∧ (∃ (s : State) (u : ℕ) (x : FormingUnit), Sized s ∧ u < 2 ∧ x = getFu s u ∧ (x.mode ≠ FuMode.blackStart ∨ heldFor x x.run.bsSince 100000000 = false))
    ∧ (∃ (s : State) (u : ℕ) (x : FormingUnit), Sized s ∧ u < 2 ∧ x = getFu s u ∧ (x.mode ≠ FuMode.blackStart ∨ x.run.bsStalled = true ∨ x.run.sv.work = x.run.sv.target ∨ heldFor x (some x.run.bsEntry) 10000000000 = false))
    ∧ (∃ (s : State) (u : ℕ) (x : FormingUnit), Sized s ∧ u < 2 ∧ x = getFu s u ∧ (x.run.permit = true ∨ heldFor x x.run.closeSince 40000000 = false))
    ∧ (∃ (s : State) (u : ℕ) (x : FormingUnit), Sized s ∧ u < 2 ∧ x = getFu s u ∧ (x.mode ≠ FuMode.form ∨ heldFor x x.run.islSince (nsParam x.sync.islTime) = false))
    ∧ (∃ (s : State) (u : ℕ) (x : FormingUnit), Sized s ∧ u < 2 ∧ x = getFu s u ∧ x.shutting = none)
    ∧ (∃ (s : State) (u : ℕ) (x : FormingUnit), Sized s ∧ u < 2 ∧ x = getFu s u ∧ (x.running = none ∨ x.mode = FuMode.off ∨ x.sched.on = false ∨ x.sched.paused = true ∨ x.sched.halted = true ∨ tdRunning (getTd s x.sched.domain) = false)) := by
  refine ⟨?_, ?_, ?_, ?_, ?_, ?_, ?_⟩
  · exact ⟨(fuOn 1 (fun x => { x with tk := some 10000000000, mode := .form, run := { fuRun0 with islSince := some 0 } }) (island .run)), 1, getFu (fuOn 1 (fun x => { x with tk := some 10000000000, mode := .form, run := { fuRun0 with islSince := some 0 } }) (island .run)) 1, met⟩
  · exact ⟨(fuOn 1 (fun x => { x with tk := some 40000000, mode := .sync, run := { fuRun0 with closeSince := some 0 } }) (island .run)), 1, getFu (fuOn 1 (fun x => { x with tk := some 40000000, mode := .sync, run := { fuRun0 with closeSince := some 0 } }) (island .run)) 1, met⟩
  · exact ⟨(fuOn 1 (fun x => { x with tk := some 20000000000, run := { fuRun0 with ride := true, exitSince := some 0 } }) (island .run)), 1, getFu (fuOn 1 (fun x => { x with tk := some 20000000000, run := { fuRun0 with ride := true, exitSince := some 0 } }) (island .run)) 1, met⟩
  · exact ⟨(fuOn 1 (fun x => { x with tk := some 100000000, mode := .blackStart, run := { fuRun0 with bsSince := some 0 } }) (island .run)), 1, getFu (fuOn 1 (fun x => { x with tk := some 100000000, mode := .blackStart, run := { fuRun0 with bsSince := some 0 } }) (island .run)) 1, met⟩
  · exact ⟨(fuOn 1 (fun x => { x with tk := some 20000000000, run := { fuRun0 with decay := some 0 } }) (island .run)), 1, getFu (fuOn 1 (fun x => { x with tk := some 20000000000, run := { fuRun0 with decay := some 0 } }) (island .run)) 1, met⟩
  · exact ⟨(fuOn 1 (fun x => { x with lastFeed := 0 }) (island .run)), 1, getFu (fuOn 1 (fun x => { x with lastFeed := 0 }) (island .run)) 1, met⟩
  · exact ⟨(fuOn 1 (fun x => { x with running := some feed0 }) (island .run)), 1, getFu (fuOn 1 (fun x => { x with running := some feed0 }) (island .run)) 1, met⟩

/-- The hypotheses of `Obligations.FormingPeriodsAndTimes`, met leaf by leaf (part 3 of 4). -/
theorem witness_FormingPeriodsAndTimes_3 :
    (∃ (s : State) (u : ℕ) (x : FormingUnit) (f : FuFeed), Sized s ∧ u < 2 ∧ x = getFu s u ∧ x.running = some f ∧ x.nowReqs = [] ∧ x.waiting = none ∧ x.mode = FuMode.off)
    ∧ (∃ (s : State) (u : ℕ) (x : FormingUnit), Sized s ∧ u < 2 ∧ x = getFu s u ∧ x.pll.locked = false ∧ heldFor x x.pll.since 10000000 = true ∧ x.mode ≠ FuMode.sync)
    ∧ (∃ (s : State) (u : ℕ) (x : FormingUnit), Sized s ∧ u < 2 ∧ x = getFu s u ∧ x.trk.locked = false ∧ heldFor x x.trk.since 10000000 = true ∧ x.mode ≠ FuMode.sync)
    ∧ (∃ (s : State) (u : ℕ) (x : FormingUnit), Sized s ∧ u < 2 ∧ x = getFu s u ∧ x.mode ≠ FuMode.off ∧ x.run.ride = true ∧ heldFor x x.run.exitSince (nsParam x.lim.exit) = true)
    ∧ (∃ (s : State) (u : ℕ) (x : FormingUnit), Sized s ∧ u < 2 ∧ x = getFu s u ∧ x.run.ride = false ∧ heldFor x x.run.decay (nsParam x.lim.exit) = true)
    ∧ (∃ (s : State) (u : ℕ) (x : FormingUnit), Sized s ∧ u < 2 ∧ x = getFu s u ∧ x.mode = FuMode.blackStart ∧ heldFor x x.run.bsSince 100000000 = true)
    ∧ (∃ (s : State) (u : ℕ) (x : FormingUnit), Sized s ∧ u < 2 ∧ x = getFu s u ∧ x.mode = FuMode.blackStart ∧ x.run.bsStalled = false ∧ x.run.sv.work ≠ x.run.sv.target ∧ heldFor x (some x.run.bsEntry) 10000000000 = true) := by
  refine ⟨?_, ?_, ?_, ?_, ?_, ?_, ?_⟩
  · exact ⟨(updFu 1 (fun x => { x with running := some feed0 }) (island .run)), 1, getFu (updFu 1 (fun x => { x with running := some feed0 }) (island .run)) 1, feed0, met⟩
  · exact ⟨(fuOn 1 (fun x => { x with tk := some 10000000, pll := { pll0 with since := some 0 } }) (island .run)), 1, getFu (fuOn 1 (fun x => { x with tk := some 10000000, pll := { pll0 with since := some 0 } }) (island .run)) 1, met⟩
  · exact ⟨(fuOn 1 (fun x => { x with tk := some 10000000, trk := { pll0 with since := some 0 } }) (island .run)), 1, getFu (fuOn 1 (fun x => { x with tk := some 10000000, trk := { pll0 with since := some 0 } }) (island .run)) 1, met⟩
  · exact ⟨(fuOn 1 (fun x => { x with tk := some 20000000000, run := { fuRun0 with ride := true, exitSince := some 0 } }) (island .run)), 1, getFu (fuOn 1 (fun x => { x with tk := some 20000000000, run := { fuRun0 with ride := true, exitSince := some 0 } }) (island .run)) 1, met⟩
  · exact ⟨(fuOn 1 (fun x => { x with tk := some 20000000000, run := { fuRun0 with decay := some 0 } }) (island .run)), 1, getFu (fuOn 1 (fun x => { x with tk := some 20000000000, run := { fuRun0 with decay := some 0 } }) (island .run)) 1, met⟩
  · exact ⟨(fuOn 1 (fun x => { x with tk := some 100000000, mode := .blackStart, run := { fuRun0 with bsSince := some 0 } }) (island .run)), 1, getFu (fuOn 1 (fun x => { x with tk := some 100000000, mode := .blackStart, run := { fuRun0 with bsSince := some 0 } }) (island .run)) 1, met⟩
  · exact ⟨(fuOn 1 (fun x => { x with tk := some 10000000000, mode := .blackStart, run := { fuRun0 with sv := { fuSet0 with target := 0x3F800000#32 } } }) (island .run)), 1, getFu (fuOn 1 (fun x => { x with tk := some 10000000000, mode := .blackStart, run := { fuRun0 with sv := { fuSet0 with target := 0x3F800000#32 } } }) (island .run)) 1, met⟩

/-- The hypotheses of `Obligations.FormingPeriodsAndTimes`, met leaf by leaf (part 4 of 4). -/
theorem witness_FormingPeriodsAndTimes_4 :
    (∃ (s : State) (u : ℕ) (x : FormingUnit), Sized s ∧ u < 2 ∧ x = getFu s u ∧ x.run.permit = false ∧ heldFor x x.run.closeSince 40000000 = true)
    ∧ (∃ (s : State) (u : ℕ) (x : FormingUnit), Sized s ∧ u < 2 ∧ x = getFu s u ∧ x.mode = FuMode.form ∧ heldFor x x.run.islSince (nsParam x.sync.islTime) = true)
    ∧ (∃ (s : State) (u : ℕ) (x : FormingUnit) (i : ℕ), Sized s ∧ u < 2 ∧ x = getFu s u ∧ x.shutting = some i ∧ x.mode ≠ FuMode.off)
    ∧ (∃ (s : State) (u : ℕ) (x : FormingUnit) (f : FuFeed), Sized s ∧ u < 2 ∧ x = getFu s u ∧ x.running = some f ∧ x.mode ≠ FuMode.off ∧ x.sched.on = true ∧ x.sched.paused = false ∧ x.sched.halted = false ∧ tdRunning (getTd s x.sched.domain) = true) := by
  refine ⟨?_, ?_, ?_, ?_⟩
  · exact ⟨(fuOn 1 (fun x => { x with tk := some 40000000, mode := .sync, run := { fuRun0 with closeSince := some 0 } }) (island .run)), 1, getFu (fuOn 1 (fun x => { x with tk := some 40000000, mode := .sync, run := { fuRun0 with closeSince := some 0 } }) (island .run)) 1, met⟩
  · exact ⟨(fuOn 1 (fun x => { x with tk := some 10000000000, mode := .form, run := { fuRun0 with islSince := some 0 } }) (island .run)), 1, getFu (fuOn 1 (fun x => { x with tk := some 10000000000, mode := .form, run := { fuRun0 with islSince := some 0 } }) (island .run)) 1, met⟩
  · exact ⟨(fuOn 1 (fun x => { x with shutting := some 9 }) (island .run)), 1, getFu (fuOn 1 (fun x => { x with shutting := some 9 }) (island .run)) 1, 9, met⟩
  · exact ⟨(fuOn 1 (fun x => { x with running := some feed0, sched := { fuSched0 with on := true, period := 100, next := 1 } }) (island .run)), 1, getFu (fuOn 1 (fun x => { x with running := some feed0, sched := { fuSched0 with on := true, period := 100, next := 1 } }) (island .run)) 1, feed0, met⟩

/-- The hypotheses of `Obligations.PwmRequests`, met leaf by leaf (part 1 of 2). -/
theorem witness_PwmRequests :
    (∃ (via : Transport) (s : State) (r : Req) (p : Bytes) (t : ℕ) (n : ℕ) (x : Timer), s.sys.dev ≠ DevState.boot ∧ p = reqParams r ∧ Sized s ∧ Takes 0x800#16 via s r ∧ List.length p = 24 ∧ n8At p 0 = t ∧ t < 24 ∧ n8At p 6 < 2 ∧ n8At p 1 = n ∧ n < 8 ∧ Claims.allOff s [(getTimer s t).stage, some n] ∧ timerRanges p = true ∧ (n8At p 2 = 1 → (getTimer s (n8At p 3)).slave = false ∧ (getTimer s (n8At p 3)).stage = some n ∧ n8At p 3 ≠ t ∧ hasSlaves s t = false) ∧ (hasSlaves s t = true → (getTimer s t).stage = some n) ∧ (n8At p 7 ≠ 255 → (getGroup s (n8At p 7)).timer = some t) ∧ (x = { timer0 with stage := some n, slave := decide (n8At p 2 = 1), master := n8At p 3, phase := n16At p 4, align := decide (n8At p 6 = 1), periodGroup := if n8At p 7 = 255 then none else some (n8At p 7), period := n32At p 8, pmin := n32At p 12, pmax := n32At p 16, reloads := (getTimer s t).reloads, clamps := (getTimer s t).clamps }) ∧ (timerFits (updTimer t (fun x_1 => x) s) t = true))
    ∧ (∃ (via : Transport) (s : State) (r : Req) (p : Bytes) (t : ℕ) (n : ℕ) (m : ℕ), s.sys.dev ≠ DevState.boot ∧ p = reqParams r ∧ Sized s ∧ Takes 0x800#16 via s r ∧ List.length p = 24 ∧ n8At p 0 = t ∧ t < 24 ∧ n8At p 6 < 2 ∧ n8At p 1 = 255 ∧ (getTimer s t).stage = some m ∧ (getStage s m).st = StageState.shuttingDown)
    ∧ (∃ (via : Transport) (s : State) (r : Req) (p : Bytes) (t : ℕ) (n : ℕ) (m : ℕ), s.sys.dev ≠ DevState.boot ∧ p = reqParams r ∧ Sized s ∧ Takes 0x800#16 via s r ∧ List.length p = 24 ∧ n8At p 0 = t ∧ t < 24 ∧ n8At p 6 < 2 ∧ n8At p 1 = 255 ∧ (getTimer s t).stage = some m ∧ (getStage s m).st ≠ StageState.shuttingDown ∧ (getStage s m).st ≠ StageState.off)
    ∧ (∃ (via : Transport) (s : State) (r : Req) (p : Bytes) (t : ℕ) (n : ℕ), s.sys.dev ≠ DevState.boot ∧ p = reqParams r ∧ Sized s ∧ Takes 0x800#16 via s r ∧ List.length p = 24 ∧ n8At p 0 = t ∧ t < 24 ∧ n8At p 6 < 2 ∧ n8At p 1 = 255 ∧ Claims.allOff s [(getTimer s t).stage] ∧ hasSlaves s t = false ∧ hasGroups s t = false)
    ∧ (∃ (via : Transport) (s : State) (r : Req) (p : Bytes) (t : ℕ), s.sys.dev ≠ DevState.boot ∧ p = reqParams r ∧ Sized s ∧ Takes 0x800#16 via s r ∧ List.length p = 24 ∧ n8At p 0 = t ∧ t < 24 ∧ (n8At p 6 = 2 ∨ n8At p 6 = 3) ∧ (n8At p 1 < 8 ∨ n8At p 1 = 255) ∧ n8At p 2 < 2 ∧ n8At p 3 < 24 ∧ (n8At p 7 < 32 ∨ n8At p 7 = 255) ∧ periodInRange (n32At p 8) = true ∧ periodInRange (n32At p 12) = true ∧ periodInRange (n32At p 16) = true ∧ zeroAt p 20 4 = true)
    ∧ (∃ (via : Transport) (s : State) (r : Req) (p : Bytes) (c : ℕ) (g : ℕ) (t : ℕ) (m : ℕ) (pa : ℕ) (pb : ℕ) (pr : ℕ) (df : ℕ) (dr : ℕ) (mw : ℕ), s.sys.dev ≠ DevState.boot ∧ p = reqParams r ∧ Sized s ∧ Takes 0x801#16 via s r ∧ List.length p = 16 ∧ n8At p 0 = 0 ∧ n8At p 1 = c ∧ n8At p 2 = 1 ∧ n8At p 3 = m ∧ n8At p 4 = g ∧ n8At p 5 = pa ∧ n8At p 6 = pb ∧ n8At p 7 = pr ∧ n16At p 8 = dr ∧ n16At p 10 = df ∧ n8At p 12 = mw ∧ zeroAt p 13 3 = true ∧ c < 96 ∧ m < 3 ∧ g < 32 ∧ dr < 1024 ∧ df < 1024 ∧ (getGroup s g).timer = some t ∧ Claims.allOff s [chanStage s c, (getTimer s t).stage] ∧ pa < (getGroup s g).units.length ∧ (if m = 2 then pb < (getGroup s g).units.length else pb = 0) ∧ (getChan s c).role ≠ 2 ∧ (getChan s c).partner ≠ some c ∧ (pr = 255 ∨ pr < 96 ∧ pr ≠ c ∧ ((getChan s pr).role = 0 ∨ (getChan s pr).role = 2 ∧ (getChan s pr).partner = some c) ∧ (80 ≤ c ∨ 80 ≤ pr → c % 2 = 0 ∧ 80 ≤ c ∧ pr = c + 1)) ∧ ((getTimer s t).stage ≠ none → 16 * ((if pr = 255 then 0 else dr + df) + 2 * mw) ≤ shortest s t))
    ∧ (∃ (via : Transport) (s : State) (r : Req) (p : Bytes) (c : ℕ), s.sys.dev ≠ DevState.boot ∧ p = reqParams r ∧ Sized s ∧ Takes 0x801#16 via s r ∧ List.length p = 16 ∧ n8At p 1 = c ∧ c < 96 ∧ zeroAt p 0 1 = true ∧ zeroAt p 2 14 = true ∧ Claims.allOff s [chanStage s c] ∧ (∀ (q : ℕ), (getChan s c).partner = some q → q ≠ c)) := by
  refine ⟨?_, ?_, ?_, ?_, ?_, ?_, ?_⟩
  · exact ⟨.cmd, ask (updGroup 31 (fun x => { x with timer := some 23 }) (island .config)) 0x0800 [23, 7, 0, 0, 0, 0, 1, 31, 128, 62, 0, 0, 64, 6, 0, 0, 240, 255, 15, 0, 0, 0, 0, 0], mk 0x0800 [23, 7, 0, 0, 0, 0, 1, 31, 128, 62, 0, 0, 64, 6, 0, 0, 240, 255, 15, 0, 0, 0, 0, 0], [23, 7, 0, 0, 0, 0, 1, 31, 128, 62, 0, 0, 64, 6, 0, 0, 240, 255, 15, 0, 0, 0, 0, 0], 23, 7, { timer0 with stage := some 7, slave := false, master := 0, phase := 0, align := true, periodGroup := some 31, period := 16000, pmin := 1600, pmax := 1048560 }, met⟩
  · exact ⟨.cmd, ask (stage7 .shuttingDown id (island .config)) 0x0800 [23, 255, 0, 0, 0, 0, 0, 0, 0, 0, 0, 0, 0, 0, 0, 0, 0, 0, 0, 0, 0, 0, 0, 0], mk 0x0800 [23, 255, 0, 0, 0, 0, 0, 0, 0, 0, 0, 0, 0, 0, 0, 0, 0, 0, 0, 0, 0, 0, 0, 0], [23, 255, 0, 0, 0, 0, 0, 0, 0, 0, 0, 0, 0, 0, 0, 0, 0, 0, 0, 0, 0, 0, 0, 0], 23, 7, 7, met⟩
  · exact ⟨.cmd, ask (stage7 .enabled id (island .config)) 0x0800 [23, 255, 0, 0, 0, 0, 0, 0, 0, 0, 0, 0, 0, 0, 0, 0, 0, 0, 0, 0, 0, 0, 0, 0], mk 0x0800 [23, 255, 0, 0, 0, 0, 0, 0, 0, 0, 0, 0, 0, 0, 0, 0, 0, 0, 0, 0, 0, 0, 0, 0], [23, 255, 0, 0, 0, 0, 0, 0, 0, 0, 0, 0, 0, 0, 0, 0, 0, 0, 0, 0, 0, 0, 0, 0], 23, 7, 7, met⟩
  · exact ⟨.cmd, ask (island .config) 0x0800 [23, 255, 0, 0, 0, 0, 0, 0, 0, 0, 0, 0, 0, 0, 0, 0, 0, 0, 0, 0, 0, 0, 0, 0], mk 0x0800 [23, 255, 0, 0, 0, 0, 0, 0, 0, 0, 0, 0, 0, 0, 0, 0, 0, 0, 0, 0, 0, 0, 0, 0], [23, 255, 0, 0, 0, 0, 0, 0, 0, 0, 0, 0, 0, 0, 0, 0, 0, 0, 0, 0, 0, 0, 0, 0], 23, 7, met⟩
  · exact ⟨.cmd, ask (island .config) 0x0800 [23, 0, 0, 0, 0, 0, 3, 0, 0, 0, 0, 0, 0, 0, 0, 0, 0, 0, 0, 0, 0, 0, 0, 0], mk 0x0800 [23, 0, 0, 0, 0, 0, 3, 0, 0, 0, 0, 0, 0, 0, 0, 0, 0, 0, 0, 0, 0, 0, 0, 0], [23, 0, 0, 0, 0, 0, 3, 0, 0, 0, 0, 0, 0, 0, 0, 0, 0, 0, 0, 0, 0, 0, 0, 0], 23, met⟩
  · exact ⟨.cmd, ask (group31 .config) 0x0801 [0, 94, 1, 2, 31, 0, 1, 95, 255, 3, 255, 3, 255, 0, 0, 0], mk 0x0801 [0, 94, 1, 2, 31, 0, 1, 95, 255, 3, 255, 3, 255, 0, 0, 0], [0, 94, 1, 2, 31, 0, 1, 95, 255, 3, 255, 3, 255, 0, 0, 0], 94, 31, 23, 2, 0, 1, 95, 1023, 1023, 255, met⟩
  · exact ⟨.cmd, ask (group31 .config) 0x0801 [0, 95, 0, 0, 0, 0, 0, 0, 0, 0, 0, 0, 0, 0, 0, 0], mk 0x0801 [0, 95, 0, 0, 0, 0, 0, 0, 0, 0, 0, 0, 0, 0, 0, 0], [0, 95, 0, 0, 0, 0, 0, 0, 0, 0, 0, 0, 0, 0, 0, 0], 95, met⟩

/-- The hypotheses of `Obligations.PwmRequests`, met leaf by leaf (part 2 of 2). -/
theorem witness_PwmRequests_2 :
    (∃ (via : Transport) (s : State) (r : Req) (p : Bytes) (g : ℕ) (t : ℕ) (n : ℕ) (y : State) (old : List (Option ℕ)) (us : List ℕ) (i : ℕ) (v : ℕ), s.sys.dev ≠ DevState.boot ∧ p = reqParams r ∧ Sized s ∧ Takes 0x801#16 via s r ∧ List.length p = 8 ∧ n8At p 0 = 1 ∧ n8At p 1 = g ∧ g < 32 ∧ zeroAt p 4 4 = true ∧ n8At p 2 = t ∧ n8At p 3 = n ∧ (Claims.allOff s [(getGroup s g).timer.bind fun t => (getTimer s t).stage, if t < 24 then (getTimer s t).stage else none]) ∧ t < 24 ∧ 1 ≤ n ∧ n ≤ 16 ∧ ((getGroup s g).timer = some t ∧ groupNeed s g ≤ n ∨ groupNeed s g = 0 ∧ ∀ z ∈ s.pwm.timers, z.periodGroup ≠ some g) ∧ (old = List.map (fun i => Option.filter (fun v => (getUnit s v).service == Service.inService) (getGroup s g).units[i]?) (List.range n)) ∧ (y = updGroup g (fun z => { z with units := List.filterMap id old }) s) ∧ backUnits old (unitsFree y) = some us ∧ i < n ∧ old[i]? = some (some v))
    ∧ (∃ (via : Transport) (s : State) (r : Req) (p : Bytes) (g : ℕ) (t : ℕ) (n : ℕ) (y : State) (old : List (Option ℕ)), s.sys.dev ≠ DevState.boot ∧ p = reqParams r ∧ Sized s ∧ Takes 0x801#16 via s r ∧ List.length p = 8 ∧ n8At p 0 = 1 ∧ n8At p 1 = g ∧ g < 32 ∧ zeroAt p 4 4 = true ∧ n8At p 2 = t ∧ n8At p 3 = n ∧ (Claims.allOff s [(getGroup s g).timer.bind fun t => (getTimer s t).stage, if t < 24 then (getTimer s t).stage else none]) ∧ t < 24 ∧ 1 ≤ n ∧ n ≤ 16 ∧ ((getGroup s g).timer = some t ∧ groupNeed s g ≤ n ∨ groupNeed s g = 0 ∧ ∀ z ∈ s.pwm.timers, z.periodGroup ≠ some g) ∧ (old = List.map (fun i => Option.filter (fun v => (getUnit s v).service == Service.inService) (getGroup s g).units[i]?) (List.range n)) ∧ (y = updGroup g (fun z => { z with units := List.filterMap id old }) s) ∧ backUnits old (unitsFree y) = none)
    ∧ (∃ (via : Transport) (s : State) (r : Req) (p : Bytes) (g : ℕ) (t : ℕ) (n : ℕ) (y : State) (old : List (Option ℕ)), s.sys.dev ≠ DevState.boot ∧ p = reqParams r ∧ Sized s ∧ Takes 0x801#16 via s r ∧ List.length p = 8 ∧ n8At p 0 = 1 ∧ n8At p 1 = g ∧ g < 32 ∧ zeroAt p 4 4 = true ∧ n8At p 2 = t ∧ n8At p 3 = n ∧ (Claims.allOff s [(getGroup s g).timer.bind fun t => (getTimer s t).stage, if t < 24 then (getTimer s t).stage else none]) ∧ t = 255 ∧ n = 0 ∧ groupNeed s g = 0 ∧ (∀ z ∈ s.pwm.timers, z.periodGroup ≠ some g))
    ∧ (∃ (via : Transport) (s : State) (r : Req) (p : Bytes), s.sys.dev ≠ DevState.boot ∧ p = reqParams r ∧ Sized s ∧ Takes 0x801#16 via s r ∧ List.length p = 4 ∧ n8At p 0 = 2 ∧ n8At p 1 < 96 ∧ zeroAt p 2 2 = true)
    ∧ (∃ (via : Transport) (s : State) (r : Req) (p : Bytes), s.sys.dev ≠ DevState.boot ∧ p = reqParams r ∧ Sized s ∧ List.length p = 12 ∧ maskChans p ≠ [] ∧ (∀ c ∈ maskChans p, (getChan s c).role ≠ 0) ∧ Takes 0x802#16 via s r ∧ (∀ c ∈ maskChans p, ∀ (n : ℕ), chanStage s c = some n → (getStage s n).st ≠ StageState.shuttingDown))
    ∧ (∃ (via : Transport) (s : State) (r : Req) (p : Bytes), s.sys.dev ≠ DevState.boot ∧ p = reqParams r ∧ Sized s ∧ List.length p = 12 ∧ maskChans p ≠ [] ∧ (∀ c ∈ maskChans p, (getChan s c).role ≠ 0) ∧ Takes 0x803#16 via s r)
    ∧ (∃ (via : Transport) (s : State) (r : Req) (p : Bytes) (ws : List GroupWrite), s.sys.dev ≠ DevState.boot ∧ p = reqParams r ∧ Sized s ∧ Takes 0x804#16 via s r ∧ 4 ≤ List.length p ∧ 1 ≤ n8At p 0 ∧ n8At p 0 ≤ 4 ∧ zeroAt p 1 3 = true ∧ groupWrites (n8At p 0) (List.drop 4 p) = some ws ∧ (∀ w ∈ ws, groupInGraph s w.group = false ∧ groupWriteOk s w = true) ∧ ((List.map (fun x => x.group) ws).Nodup)) := by
  refine ⟨?_, ?_, ?_, ?_, ?_, ?_, ?_⟩
  · exact ⟨.cmd, ask (group31 .config) 0x0801 [1, 31, 23, 16, 0, 0, 0, 0], mk 0x0801 [1, 31, 23, 16, 0, 0, 0, 0], [1, 31, 23, 16, 0, 0, 0, 0], 31, 23, 16, updGroup 31 (fun z => { z with units := [0, 1] }) (ask (group31 .config) 0x0801 [1, 31, 23, 16, 0, 0, 0, 0]), [some 0, some 1] ++ List.replicate 14 none, List.range 16, 1, 1, met⟩
  · exact ⟨.cmd, ask (updGroup 0 (fun x => { x with units := List.range 90 }) (island .config)) 0x0801 [1, 31, 23, 16, 0, 0, 0, 0], mk 0x0801 [1, 31, 23, 16, 0, 0, 0, 0], [1, 31, 23, 16, 0, 0, 0, 0], 31, 23, 16, updGroup 31 (fun z => { z with units := [] }) (ask (updGroup 0 (fun x => { x with units := List.range 90 }) (island .config)) 0x0801 [1, 31, 23, 16, 0, 0, 0, 0]), List.replicate 16 none, met⟩
  · exact ⟨.cmd, ask (island .config) 0x0801 [1, 31, 255, 0, 0, 0, 0, 0], mk 0x0801 [1, 31, 255, 0, 0, 0, 0, 0], [1, 31, 255, 0, 0, 0, 0, 0], 31, 255, 0, updGroup 31 (fun z => { z with units := [] }) (ask (island .config) 0x0801 [1, 31, 255, 0, 0, 0, 0, 0]), [], met⟩
  · exact ⟨.cmd, ask (island .config) 0x0801 [2, 95, 0, 0], mk 0x0801 [2, 95, 0, 0], [2, 95, 0, 0], met⟩
  · exact ⟨.cmd, ask (updChan 95 (fun x => { x with role := 1 }) (group31 .config)) 0x0802 [0, 0, 0, 0, 0, 0, 0, 0, 0, 0, 0, 128], mk 0x0802 [0, 0, 0, 0, 0, 0, 0, 0, 0, 0, 0, 128], [0, 0, 0, 0, 0, 0, 0, 0, 0, 0, 0, 128], met⟩
  · exact ⟨.cmd, ask (updChan 95 (fun x => { x with role := 1 }) (group31 .config)) 0x0803 [0, 0, 0, 0, 0, 0, 0, 0, 0, 0, 0, 128], mk 0x0803 [0, 0, 0, 0, 0, 0, 0, 0, 0, 0, 0, 128], [0, 0, 0, 0, 0, 0, 0, 0, 0, 0, 0, 128], met⟩
  · exact ⟨.cmd, ask (group31 .config) 0x0804 [1, 0, 0, 0, 31, 2, 0, 0, 0, 0, 0, 0, 255, 255, 15, 0, 5, 0, 0, 0], mk 0x0804 [1, 0, 0, 0, 31, 2, 0, 0, 0, 0, 0, 0, 255, 255, 15, 0, 5, 0, 0, 0], [1, 0, 0, 0, 31, 2, 0, 0, 0, 0, 0, 0, 255, 255, 15, 0, 5, 0, 0, 0], [{ group := 31, count := 2, resv := true, period := 0, vals := [1048575, 5] }], met⟩

/-- The hypotheses of `Obligations.PwmEdgesReadbackAndSpares`, met leaf by leaf (part 1 of 3). -/
theorem witness_PwmEdgesReadbackAndSpares :
    (∃ (s : State) (c : ℕ) (x : Channel), Sized s ∧ c < 96 ∧ x = getChan s c ∧ (x.role ≠ 1 ∨ x.stopped = true))
    ∧ (∃ (s : State) (c : ℕ) (x : Channel), Sized s ∧ c < 96 ∧ x = getChan s c ∧ x.onAt = none)
    ∧ (∃ (s : State) (c : ℕ) (x : Channel), Sized s ∧ c < 96 ∧ x = getChan s c ∧ x.offHeld = false)
    ∧ (∃ (s : State) (c : ℕ) (x : Channel), Sized s ∧ c < 96 ∧ x = getChan s c ∧ x.role = 1 ∧ x.stopped = false ∧ (∀ (q : ℕ), x.partner = some q → q < 96 ∧ q ≠ c) ∧ x.raw = false ∧ nextOn x.pulses 0 = none)
    ∧ (∃ (s : State) (c : ℕ) (x : Channel) (t : ℕ), Sized s ∧ c < 96 ∧ x = getChan s c ∧ x.role = 1 ∧ x.stopped = false ∧ (∀ (q : ℕ), x.partner = some q → q < 96 ∧ q ≠ c) ∧ x.raw = false ∧ nextOn x.pulses 0 = some t)
    ∧ (∃ (s : State) (c : ℕ) (x : Channel) (t : ℕ) (k : ℕ), Sized s ∧ c < 96 ∧ x = getChan s c ∧ x.role = 1 ∧ x.stopped = false ∧ (∀ (q : ℕ), x.partner = some q → q < 96 ∧ q ≠ c) ∧ x.raw = true ∧ (t = stretchEnd x.pulses (List.foldl (fun m q => if q.on ≤ s.time.raw then max m q.on else m) 0 x.pulses) x.pulses.length) ∧ chanTimer s c = some k ∧ (getTimer s k).running = true ∧ (getTimer s k).nextReload ≤ t ∧ s.time.raw ≤ (getTimer s k).nextReload ∧ (∀ (n : ℕ), chanStage s c = some n → (getStage s n).st ≠ StageState.shuttingDown) ∧ (chanStage s c).isSome = true) := by
  refine ⟨?_, ?_, ?_, ?_, ?_, ?_⟩
  · exact ⟨(updChan 95 (fun x => { x with offHeld := true }) (island .run)), 95, getChan (updChan 95 (fun x => { x with offHeld := true }) (island .run)) 95, met⟩
  · exact ⟨(updChan 95 (fun x => { x with offHeld := true }) (island .run)), 95, getChan (updChan 95 (fun x => { x with offHeld := true }) (island .run)) 95, met⟩
  · exact ⟨(updChan 95 (fun x => { x with role := 1 }) (island .run)), 95, getChan (updChan 95 (fun x => { x with role := 1 }) (island .run)) 95, met⟩
  · exact ⟨(updChan 95 (fun x => { x with role := 1 }) (island .run)), 95, getChan (updChan 95 (fun x => { x with role := 1 }) (island .run)) 95, met⟩
  · exact ⟨(updChan 95 (fun x => { x with role := 1, pulses := [{ on := 3, off := 9 }] }) (island .run)), 95, getChan (updChan 95 (fun x => { x with role := 1, pulses := [{ on := 3, off := 9 }] }) (island .run)) 95, 3, met⟩
  · exact ⟨updTimer 23 (fun x => { x with running := true, nextReload := 5 }) (updChan 94 (fun x => { x with role := 1, group := 31, raw := true, pulses := [{ on := 0, off := 9 }] }) (group31 .run)), 94, getChan (updTimer 23 (fun x => { x with running := true, nextReload := 5 }) (updChan 94 (fun x => { x with role := 1, group := 31, raw := true, pulses := [{ on := 0, off := 9 }] }) (group31 .run))) 94, 9, 23, met⟩

/-- The hypotheses of `Obligations.PwmEdgesReadbackAndSpares`, met leaf by leaf (part 2 of 3). -/
theorem witness_PwmEdgesReadbackAndSpares_2 :
    (∃ (s : State) (c : ℕ) (x : Channel) (t : ℕ), Sized s ∧ c < 96 ∧ x = getChan s c ∧ x.role = 1 ∧ x.stopped = false ∧ (∀ (q : ℕ), x.partner = some q → q < 96 ∧ q ≠ c) ∧ x.raw = true ∧ (t = stretchEnd x.pulses (List.foldl (fun m q => if q.on ≤ s.time.raw then max m q.on else m) 0 x.pulses) x.pulses.length) ∧ (∀ (k : ℕ), chanTimer s c = some k → (getTimer s k).running = false ∨ t < (getTimer s k).nextReload ∨ (getTimer s k).nextReload < s.time.raw ∨ ∃ n, chanStage s c = some n ∧ (getStage s n).st = StageState.shuttingDown))
    ∧ (∃ (s : State) (c : ℕ) (x : Channel) (t : ℕ), Sized s ∧ c < 96 ∧ x = getChan s c ∧ x.onAt = some t ∧ (x.stopped = true ∨ (if x.role = 2 then followerFits (advanceTo t s) c else x.raw) = false))
    ∧ (∃ (s : State) (c : ℕ) (x : Channel) (t : ℕ), Sized s ∧ c < 96 ∧ x = getChan s c ∧ x.onAt = some t ∧ x.stopped = false ∧ (if x.role = 2 then followerFits (advanceTo t s) c else x.raw) = true)
    ∧ (∃ (s : State) (c : ℕ) (x : Channel), Sized s ∧ c < 96 ∧ x = getChan s c ∧ x.offHeld = true)
    ∧ (∃ (s : State) (c : ℕ) (x : Channel) (level : Bool), Sized s ∧ c < 96 ∧ x = getChan s c ∧ level ≠ chanLine s c ∧ x.rbBad = false)
    ∧ (∃ (s : State) (c : ℕ) (x : Channel) (level : Bool), Sized s ∧ c < 96 ∧ x = getChan s c ∧ level ≠ chanLine s c ∧ x.rbBad = true) := by
  refine ⟨?_, ?_, ?_, ?_, ?_, ?_⟩
  · exact ⟨(updChan 95 (fun x => { x with role := 1, raw := true, pulses := [{ on := 0, off := 9 }] }) (island .run)), 95, getChan (updChan 95 (fun x => { x with role := 1, raw := true, pulses := [{ on := 0, off := 9 }] }) (island .run)) 95, 9, met⟩
  · exact ⟨(updChan 95 (fun x => { x with role := 1, onAt := some 7, stopped := true }) (island .run)), 95, getChan (updChan 95 (fun x => { x with role := 1, onAt := some 7, stopped := true }) (island .run)) 95, 7, met⟩
  · exact ⟨(updChan 95 (fun x => { x with role := 1, onAt := some 7, raw := true }) (island .run)), 95, getChan (updChan 95 (fun x => { x with role := 1, onAt := some 7, raw := true }) (island .run)) 95, 7, met⟩
  · exact ⟨(updChan 95 (fun x => { x with offHeld := true }) (island .run)), 95, getChan (updChan 95 (fun x => { x with offHeld := true }) (island .run)) 95, met⟩
  · exact ⟨(updChan 95 (fun x => { x with role := 1 }) (island .run)), 95, getChan (updChan 95 (fun x => { x with role := 1 }) (island .run)) 95, true, met⟩
  · exact ⟨(updChan 95 (fun x => { x with role := 1, rbBad := true }) (island .run)), 95, getChan (updChan 95 (fun x => { x with role := 1, rbBad := true }) (island .run)) 95, true, met⟩

/-- The hypotheses of `Obligations.PwmEdgesReadbackAndSpares`, met leaf by leaf (part 3 of 3). -/
theorem witness_PwmEdgesReadbackAndSpares_3 :
    (∃ (s : State) (c : ℕ) (u : ℕ), Sized s ∧ c < 96 ∧ u < 104 ∧ (getUnit s u).service = Service.spare ∧ (∀ w ∈ s.rel.unitWatch, (getUnit s u).shadow ≠ some w.1))
    ∧ (∃ (s : State) (c : ℕ) (u : ℕ), Sized s ∧ c < 96 ∧ u < 104 ∧ (getUnit s u).service = Service.spare ∧ (∃ w ∈ s.rel.unitWatch, (getUnit s u).shadow = some w.1))
    ∧ (∃ (s : State) (c : ℕ) (u : ℕ), Sized s ∧ c < 96 ∧ (getUnit s u).service ≠ Service.spare)
    ∧ (∃ (s : State) (c : ℕ) (u : ℕ), Sized s ∧ c < 96 ∧ (getUnit s u).shadow = none)
    ∧ (∃ (s : State) (c : ℕ) (k : ℕ) (v : ℕ), Sized s ∧ c < 96 ∧ (getUnit s k).service = Service.spare ∧ (getUnit s k).shadow = some v ∧ s.rel.waiting = [] ∧ s.rel.unitSeen = [] ∧ s.rel.unitWatch = []) := by
  refine ⟨?_, ?_, ?_, ?_, ?_⟩
  · exact ⟨(updUnit 103 (fun x => { x with service := .spare, shadow := some 1 }) (island .run)), 0, 103, met⟩
  · exact ⟨{ updUnit 103 (fun x => { x with service := .spare, shadow := some 1 }) (island .run) with rel := { (updUnit 103 (fun x => { x with service := .spare, shadow := some 1 }) (island .run)).rel with unitWatch := [(1, 3)] } }, 0, 103, met⟩
  · exact ⟨island .run, 0, 0, met⟩
  · exact ⟨island .run, 0, 0, met⟩
  · exact ⟨updUnit 103 (fun x => { x with service := .spare, shadow := some 1 }) (island .run), 0, 103, 1, met⟩

/-- The hypotheses of `Obligations.MultiLegFaultsSetTheSafeState`, met leaf by leaf. -/
theorem witness_MultiLegFaultsSetTheSafeState :
    (∃ (s : State) (c : ℕ) (d : ℕ) (n : ℕ) (i : ℕ), Sized s ∧ c < 80 ∧ d < 96 ∧ s.sys.dev = DevState.run ∧ s.safe.causes = 0 ∧ fltArmed s c = true ∧ chanStage s c = some n ∧ n < 8 ∧ chanStage s d = some n ∧ (getStage s n).st = StageState.enabled ∧ (getChan s c).fault = none ∧ (getChan s d).rawFault = some i ∧ s.time.raw ≤ i + 1000 ∧ chanLeg s c ≠ chanLeg s d) := by
  exact ⟨(updFlt 0 (fun x => { x with enable := true }) (updChan 1 (fun x => { x with role := 1, rawFault := some 0 }) (chan0 (stage7 .enabled id (island .run))))), 0, 1, 7, 0, met⟩

/-- The hypotheses of `Obligations.ProtectionTripsAndReleases`, met leaf by leaf (part 1 of 4). -/
theorem witness_ProtectionTripsAndReleases :
    (∃ (s : State) (n : ℕ) (c : ℕ), Sized s ∧ c < 80 ∧ fltArmed s c = false)
    ∧ (∃ (s : State) (n : ℕ) (c : ℕ), Sized s ∧ c < 80 ∧ fltArmed s c = true ∧ oneLeg s n [c])
    ∧ (∃ (s : State) (n : ℕ) (k : ℕ) (zone : ℕ) (x : Comparator) (u : State), Sized s ∧ k < 32 ∧ (u = updCmp k (fun x => { x with zone := zone }) s) ∧ x = getCmp u k ∧ (cmpZoneOn x = false ∨ cmpShort x = false ∧ s.time.raw < x.blankEnd))
    ∧ (∃ (s : State) (n : ℕ) (k : ℕ) (zone : ℕ) (x : Comparator) (u : State), Sized s ∧ k < 32 ∧ (u = updCmp k (fun x => { x with zone := zone }) s) ∧ x = getCmp u k ∧ cmpZoneOn x = true ∧ (cmpShort x = true ∨ x.blankEnd ≤ s.time.raw) ∧ cmpActs s k = false)
    ∧ (∃ (s : State) (n : ℕ) (k : ℕ) (zone : ℕ) (x : Comparator) (u : State), Sized s ∧ k < 32 ∧ (u = updCmp k (fun x => { x with zone := zone }) s) ∧ x = getCmp u k ∧ cmpZoneOn x = true ∧ (cmpShort x = true ∨ x.blankEnd ≤ s.time.raw) ∧ cmpActs s k = true ∧ oneLeg s n x.targets)
    ∧ (∃ (s : State) (n : ℕ) (k : ℕ) (x : Comparator), Sized s ∧ k < 32 ∧ x = getCmp s k ∧ x.blankEnd ≠ 0 ∧ (cmpZoneOn x = false ∨ cmpShort x = true))
    ∧ (∃ (s : State) (n : ℕ) (k : ℕ) (x : Comparator), Sized s ∧ k < 32 ∧ x = getCmp s k ∧ x.blankEnd ≠ 0 ∧ cmpZoneOn x = true ∧ cmpShort x = false ∧ cmpActs s k = false) := by
  refine ⟨?_, ?_, ?_, ?_, ?_, ?_, ?_⟩
  · exact ⟨island .run, 7, 79, met⟩
  · exact ⟨(updFlt 0 (fun x => { x with enable := true }) (chan0 (stage7 .enabled id (island .run)))), 7, 0, met⟩
  · exact ⟨(updCmp 31 (fun x => { x with blankEnd := 9, highEn := true }) (island .run)), 7, 31, 2, getCmp (updCmp 31 (fun x => { x with zone := 2 }) (updCmp 31 (fun x => { x with blankEnd := 9, highEn := true }) (island .run))) 31, (updCmp 31 (fun x => { x with zone := 2 }) (updCmp 31 (fun x => { x with blankEnd := 9, highEn := true }) (island .run))), met⟩
  · exact ⟨(updCmp 31 (fun x => { x with highEn := true }) (island .run)), 7, 31, 4, getCmp (updCmp 31 (fun x => { x with zone := 4 }) (updCmp 31 (fun x => { x with highEn := true }) (island .run))) 31, (updCmp 31 (fun x => { x with zone := 4 }) (updCmp 31 (fun x => { x with highEn := true }) (island .run))), met⟩
  · exact ⟨(updCmp 31 (fun x => { x with highEn := true, targets := [0] }) (chan0 (stage7 .enabled id (island .run)))), 7, 31, 4, getCmp (updCmp 31 (fun x => { x with zone := 4 }) (updCmp 31 (fun x => { x with highEn := true, targets := [0] }) (chan0 (stage7 .enabled id (island .run))))) 31, (updCmp 31 (fun x => { x with zone := 4 }) (updCmp 31 (fun x => { x with highEn := true, targets := [0] }) (chan0 (stage7 .enabled id (island .run))))), met⟩
  · exact ⟨(updCmp 31 (fun x => { x with blankEnd := 9 }) (island .run)), 7, 31, getCmp (updCmp 31 (fun x => { x with blankEnd := 9 }) (island .run)) 31, met⟩
  · exact ⟨updCmp 31 (fun x => { x with blankEnd := 9, highEn := true, zone := 2 }) (island .run), 7, 31, getCmp (updCmp 31 (fun x => { x with blankEnd := 9, highEn := true, zone := 2 }) (island .run)) 31, met⟩

/-- The hypotheses of `Obligations.ProtectionTripsAndReleases`, met leaf by leaf (part 2 of 4). -/
theorem witness_ProtectionTripsAndReleases_2 :
    (∃ (s : State) (n : ℕ) (k : ℕ) (x : Comparator), Sized s ∧ k < 32 ∧ x = getCmp s k ∧ x.blankEnd ≠ 0 ∧ cmpZoneOn x = true ∧ cmpShort x = false ∧ cmpActs s k = true ∧ oneLeg s n x.targets)
    ∧ (∃ (s : State) (n : ℕ) (k : ℕ), Sized s ∧ (getCmp s k).blankEnd = 0)
    ∧ (∃ (s : State) (n : ℕ) (k : ℕ) (bits : List Bool) (x : FastDet) (y : SenseCh), Sized s ∧ k < 48 ∧ x = getFoc s k ∧ y = getSense s k ∧ (y.focDec = 0 ∨ mclkRuns s (k / 6) = false ∨ y.stuck = true ∨ (x.lowEn = false ∨ f32Val x.lo ≤ focOut y bits) ∧ (x.highEn = false ∨ focOut y bits ≤ f32Val x.hi)))
    ∧ (∃ (s : State) (n : ℕ) (k : ℕ) (bits : List Bool) (x : FastDet) (y : SenseCh), Sized s ∧ k < 48 ∧ x = getFoc s k ∧ y = getSense s k ∧ y.focDec ≠ 0 ∧ mclkRuns s (k / 6) = true ∧ y.stuck = false ∧ (x.lowEn = true ∧ focOut y bits < f32Val x.lo ∨ x.highEn = true ∧ f32Val x.hi < focOut y bits) ∧ (x.tripped = true ∨ focActs s k = false))
    ∧ (∃ (s : State) (n : ℕ) (k : ℕ) (bits : List Bool) (x : FastDet) (y : SenseCh), Sized s ∧ k < 48 ∧ x = getFoc s k ∧ y = getSense s k ∧ y.focDec ≠ 0 ∧ mclkRuns s (k / 6) = true ∧ y.stuck = false ∧ (x.lowEn = true ∧ focOut y bits < f32Val x.lo ∨ x.highEn = true ∧ f32Val x.hi < focOut y bits) ∧ x.tripped = false ∧ focActs s k = true ∧ oneLeg s n x.targets)
    ∧ (∃ (s : State) (n : ℕ) (h : ℕ) (c : ℕ) (high : Bool) (short : Bool), Sized s ∧ h < 8 ∧ (c = 80 + 2 * h + if high = true then 0 else 1) ∧ (chanCommanded s c = true ∨ precharging s c = true) ∧ (short = true ∨ commandedSince s c + 10 * (getHb s h).vdsBlank ≤ s.time.raw) ∧ underTest s 3 h = false ∧ (dieHolds s c = false ∨ (getChan s c).fault.isSome = true ∨ chanStage s c = none))
    ∧ (∃ (s : State) (n : ℕ) (h : ℕ) (c : ℕ) (high : Bool) (short : Bool), Sized s ∧ h < 8 ∧ (c = 80 + 2 * h + if high = true then 0 else 1) ∧ (chanCommanded s c = true ∨ precharging s c = true) ∧ (short = true ∨ commandedSince s c + 10 * (getHb s h).vdsBlank ≤ s.time.raw) ∧ underTest s 3 h = false ∧ dieHolds s c = true ∧ (getChan s c).fault = none ∧ oneLeg s n [c]) := by
  refine ⟨?_, ?_, ?_, ?_, ?_, ?_, ?_⟩
  · exact ⟨(updCmp 31 (fun x => { x with blankEnd := 9, zone := 2, highEn := true, targets := [0] }) (chan0 (stage7 .enabled id (island .run)))), 7, 31, getCmp (updCmp 31 (fun x => { x with blankEnd := 9, zone := 2, highEn := true, targets := [0] }) (chan0 (stage7 .enabled id (island .run)))) 31, met⟩
  · exact ⟨island .run, 7, 31, met⟩
  · exact ⟨island .run, 7, 47, [], getFoc (island .run) 47, getSense (island .run) 47, met⟩
  · exact ⟨updFoc 47 (fun x => { x with highEn := true, targets := [0], tripped := true }) (updSense 47 (fun x => { x with focDec := 8, scale := 0x3F800000#32 }) (updOut 7 (fun x => { x with enable := true }) (chan0 (stage7 .enabled id (island .run))))), 7, 47, List.replicate 64 true, getFoc (updFoc 47 (fun x => { x with highEn := true, targets := [0], tripped := true }) (updSense 47 (fun x => { x with focDec := 8, scale := 0x3F800000#32 }) (updOut 7 (fun x => { x with enable := true }) (chan0 (stage7 .enabled id (island .run)))))) 47, getSense (updFoc 47 (fun x => { x with highEn := true, targets := [0], tripped := true }) (updSense 47 (fun x => { x with focDec := 8, scale := 0x3F800000#32 }) (updOut 7 (fun x => { x with enable := true }) (chan0 (stage7 .enabled id (island .run)))))) 47, met⟩
  · exact ⟨updFoc 47 (fun x => { x with highEn := true, targets := [0] }) (updSense 47 (fun x => { x with focDec := 8, scale := 0x3F800000#32 }) (updOut 7 (fun x => { x with enable := true }) (chan0 (stage7 .enabled id (island .run))))), 7, 47, List.replicate 64 true, getFoc (updFoc 47 (fun x => { x with highEn := true, targets := [0] }) (updSense 47 (fun x => { x with focDec := 8, scale := 0x3F800000#32 }) (updOut 7 (fun x => { x with enable := true }) (chan0 (stage7 .enabled id (island .run)))))) 47, getSense (updFoc 47 (fun x => { x with highEn := true, targets := [0] }) (updSense 47 (fun x => { x with focDec := 8, scale := 0x3F800000#32 }) (updOut 7 (fun x => { x with enable := true }) (chan0 (stage7 .enabled id (island .run)))))) 47, met⟩
  · exact ⟨updHb 7 (fun x => { x with lsLatch := some 9 }) (updChan 95 (fun x => { x with cmd := true, enabled := true, onSince := 0 }) (stage7 .enabled (fun x => { x with gateOpen := true }) (updGroup 31 (fun x => { x with timer := some 23 }) (updChan 95 (fun x => { x with role := 1, group := 31 }) { island .run with pwm := { (island .run).pwm with gateProc := true, gateSorrel := true } })))), 7, 7, 95, false, true, met⟩
  · exact ⟨updChan 95 (fun x => { x with cmd := true, enabled := true, onSince := 0 }) (stage7 .enabled (fun x => { x with gateOpen := true }) (updGroup 31 (fun x => { x with timer := some 23 }) (updChan 95 (fun x => { x with role := 1, group := 31 }) { island .run with pwm := { (island .run).pwm with gateProc := true, gateSorrel := true } }))), 7, 7, 95, false, true, met⟩

/-- The hypotheses of `Obligations.ProtectionTripsAndReleases`, met leaf by leaf (part 3 of 4). -/
theorem witness_ProtectionTripsAndReleases_3 :
    (∃ (s : State) (n : ℕ) (h : ℕ) (c : ℕ) (high : Bool) (short : Bool), Sized s ∧ h < 8 ∧ (c = 80 + 2 * h + if high = true then 0 else 1) ∧ (chanCommanded s c = false ∧ precharging s c = false ∨ short = false ∧ s.time.raw < commandedSince s c + 10 * (getHb s h).vdsBlank ∨ underTest s 3 h = true))
    ∧ (∃ (s : State) (n : ℕ) (h : ℕ) (a : ℕ) (b : ℕ) (v : F32), Sized s ∧ h < 8 ∧ ((getHb s h).wordDue = false ∨ (getHb s h).hsLatch = none ∧ (getHb s h).lsLatch = none))
    ∧ (∃ (s : State) (n : ℕ) (h : ℕ) (a : ℕ) (b : ℕ) (v : F32) (f : Byte), Sized s ∧ h < 8 ∧ (getHb s h).wordDue = true ∧ (getHb s h).hsLatch = some f ∧ (getHb s h).lsLatch = none ∧ oneLeg s n [80 + 2 * h])
    ∧ (∃ (s : State) (n : ℕ) (h : ℕ) (a : ℕ) (b : ℕ) (v : F32) (f : Byte), Sized s ∧ h < 8 ∧ (getHb s h).wordDue = true ∧ (getHb s h).hsLatch = none ∧ (getHb s h).lsLatch = some f ∧ oneLeg s n [81 + 2 * h])
    ∧ (∃ (s : State) (n : ℕ) (h : ℕ) (a : ℕ) (b : ℕ) (v : F32) (f : Byte) (g : Byte), Sized s ∧ h < 8 ∧ (getHb s h).wordDue = true ∧ (getHb s h).hsLatch = some f ∧ (getHb s h).lsLatch = some g ∧ oneLeg s n [80 + 2 * h, 81 + 2 * h])
    ∧ (∃ (s : State) (n : ℕ) (h : ℕ) (a : ℕ) (b : ℕ) (v : F32), Sized s ∧ h < 8 ∧ f32Lt v 0x41000000#32 = false)
    ∧ (∃ (s : State) (n : ℕ) (h : ℕ) (a : ℕ) (b : ℕ) (v : F32), Sized s ∧ h < 8 ∧ f32Lt v 0x41000000#32 = true ∧ (targetLive s (80 + 2 * h) = false ∨ underTest s 3 h = true)) := by
  refine ⟨?_, ?_, ?_, ?_, ?_, ?_, ?_⟩
  · exact ⟨island .run, 7, 7, 95, false, true, met⟩
  · exact ⟨(island .run), 7, 7, 2, 1, 0x41000000#32, met⟩
  · exact ⟨(updHb 7 (fun x => { x with wordDue := true, hsLatch := some 9 }) (updChan 95 (fun x => { x with role := 1, group := 31, cmd := true, enabled := true }) (updChan 94 (fun x => { x with role := 1, group := 31, cmd := true, enabled := true }) (stage7 .enabled (fun x => { x with gateOpen := true }) { group31 .run with pwm := { (group31 .run).pwm with gateProc := true, gateSorrel := true } })))), 7, 7, 1, 0, 0x41000000#32, 9, met⟩
  · exact ⟨(updHb 7 (fun x => { x with wordDue := true, lsLatch := some 9 }) (updChan 95 (fun x => { x with role := 1, group := 31, cmd := true, enabled := true }) (updChan 94 (fun x => { x with role := 1, group := 31, cmd := true, enabled := true }) (stage7 .enabled (fun x => { x with gateOpen := true }) { group31 .run with pwm := { (group31 .run).pwm with gateProc := true, gateSorrel := true } })))), 7, 7, 0, 2, 0x41000000#32, 9, met⟩
  · exact ⟨updHb 7 (fun x => { x with wordDue := true, hsLatch := some 9, lsLatch := some 9 }) (updChan 95 (fun x => { x with role := 2, partner := some 94, cmd := true, enabled := true }) (updChan 94 (fun x => { x with role := 1, group := 31, partner := some 95, cmd := true, enabled := true }) (stage7 .enabled (fun x => { x with gateOpen := true }) { group31 .run with pwm := { (group31 .run).pwm with gateProc := true, gateSorrel := true } }))), 7, 7, 0, 0, 0, 9, 9, met⟩
  · exact ⟨(island .run), 7, 7, 2, 1, 0x41000000#32, met⟩
  · exact ⟨island .run, 7, 7, 0, 0, 0, met⟩

/-- The hypotheses of `Obligations.ProtectionTripsAndReleases`, met leaf by leaf (part 4 of 4). -/
theorem witness_ProtectionTripsAndReleases_4 :
    (∃ (s : State) (n : ℕ) (h : ℕ) (a : ℕ) (b : ℕ) (v : F32), Sized s ∧ h < 8 ∧ f32Lt v 0x41000000#32 = true ∧ targetLive s (80 + 2 * h) = true ∧ underTest s 3 h = false)
    ∧ (∃ (s : State) (n : ℕ) (v : F32), Sized s ∧ f32Bad v = false)
    ∧ (∃ (s : State) (n : ℕ) (temp : Bool) (level : ℕ) (held : ℕ) (v : F32), Sized s ∧ (held < 1000 ∨ driverBeyond temp level v = false))
    ∧ (∃ (s : State) (n : ℕ) (temp : Bool) (level : ℕ) (held : ℕ) (v : F32), Sized s ∧ 1000 ≤ held ∧ driverBeyond temp level v = true ∧ level = 0)
    ∧ (∃ (s : State) (n : ℕ) (temp : Bool) (level : ℕ) (held : ℕ) (v : F32), Sized s ∧ 1000 ≤ held ∧ driverBeyond temp level v = true ∧ level = 2)
    ∧ (∃ (s : State) (n : ℕ) (temp : Bool) (level : ℕ) (held : ℕ) (v : F32), Sized s ∧ 1000 ≤ held ∧ driverBeyond temp level v = true ∧ level = 1) := by
  refine ⟨?_, ?_, ?_, ?_, ?_, ?_⟩
  · exact ⟨(updChan 94 (fun x => { x with role := 1, group := 31, cmd := true, enabled := true }) (stage7 .enabled (fun x => { x with gateOpen := true }) { group31 .run with pwm := { (group31 .run).pwm with gateProc := true, gateSorrel := true } })), 7, 7, 0, 0, 0x40FFFFFF#32, met⟩
  · exact ⟨island .run, 7, 31, met⟩
  · exact ⟨island .run, 7, true, 0, 999, 0, met⟩
  · exact ⟨island .run, 7, true, 0, 1000, 0x43480000#32, met⟩
  · exact ⟨island .run, 7, true, 2, 1000, 0x41A00000#32, met⟩
  · exact ⟨island .run, 7, true, 1, 1000, 0x43480000#32, met⟩

/-- The hypotheses of `Obligations.ProtectionRequests`, met leaf by leaf (part 1 of 3). -/
theorem witness_ProtectionRequests :
    (∃ (via : Transport) (s : State) (r : Req) (p : Bytes) (k : ℕ) (fl : ℕ) (th : List F32) (cs : List ℕ) (y : Comparator), s.sys.dev ≠ DevState.boot ∧ p = reqParams r ∧ Sized s ∧ quiet s ∧ Takes 0x900#16 via s r ∧ List.length p = 28 ∧ n8At p 0 = 0 ∧ n8At p 1 = k ∧ k < 32 ∧ n8At p 2 = fl ∧ fl ≤ 7 ∧ n8At p 3 ≤ 3 ∧ n16At p 4 ≤ 2047 ∧ zeroAt p 6 2 = true ∧ targetsOk s (decide (fl % 2 = 0) && decide (fl ≠ 0)) (targetsAt p 8) = true ∧ th = [u32At p 12, u32At p 16, u32At p 20, u32At p 24] ∧ (∀ y ∈ th, f32Bad y = false) ∧ cs = List.map (dacCode (getSense s (48 + k))) th ∧ cs.getD 2 0 ≤ cs.getD 0 0 ∧ cs.getD 0 0 < cs.getD 1 0 ∧ cs.getD 1 0 ≤ cs.getD 3 0 ∧ fl % 2 = 0 ∧ cmpArmed s k = false ∧ (fl ≠ 0 → s.sense.refState = 2) ∧ y = { cmp0 with lowEn := decide (fl / 2 % 2 = 1), highEn := decide (fl / 4 % 2 = 1), hyst := n8At p 3, blank := n16At p 4, targets := targetsAt p 8, thresh := th, codes := cs, zone := (getCmp s k).zone } ∧ (cmpZoneOn y = false ∨ (∀ c ∈ y.targets, targetLive s c = false) ∨ underTest s 0 k = true))
    ∧ (∃ (via : Transport) (s : State) (r : Req) (p : Bytes) (k : ℕ) (fl : ℕ) (th : List F32) (cs : List ℕ) (y : Comparator) (n : ℕ), s.sys.dev ≠ DevState.boot ∧ p = reqParams r ∧ Sized s ∧ quiet s ∧ Takes 0x900#16 via s r ∧ List.length p = 28 ∧ n8At p 0 = 0 ∧ n8At p 1 = k ∧ k < 32 ∧ n8At p 2 = fl ∧ fl ≤ 7 ∧ n8At p 3 ≤ 3 ∧ n16At p 4 ≤ 2047 ∧ zeroAt p 6 2 = true ∧ targetsOk s (decide (fl % 2 = 0) && decide (fl ≠ 0)) (targetsAt p 8) = true ∧ th = [u32At p 12, u32At p 16, u32At p 20, u32At p 24] ∧ (∀ y ∈ th, f32Bad y = false) ∧ cs = List.map (dacCode (getSense s (48 + k))) th ∧ cs.getD 2 0 ≤ cs.getD 0 0 ∧ cs.getD 0 0 < cs.getD 1 0 ∧ cs.getD 1 0 ≤ cs.getD 3 0 ∧ fl % 2 = 0 ∧ cmpArmed s k = false ∧ (fl ≠ 0 → s.sense.refState = 2) ∧ y = { cmp0 with lowEn := decide (fl / 2 % 2 = 1), highEn := decide (fl / 4 % 2 = 1), hyst := n8At p 3, blank := n16At p 4, targets := targetsAt p 8, thresh := th, codes := cs, zone := (getCmp s k).zone } ∧ cmpZoneOn y = true ∧ (∃ c ∈ y.targets, targetLive s c = true) ∧ underTest s 0 k = false ∧ oneLeg s n y.targets)
    ∧ (∃ (via : Transport) (s : State) (r : Req) (p : Bytes) (k : ℕ) (fl : ℕ) (th : List F32) (cs : List ℕ), s.sys.dev ≠ DevState.boot ∧ p = reqParams r ∧ Sized s ∧ quiet s ∧ Takes 0x900#16 via s r ∧ List.length p = 28 ∧ n8At p 0 = 0 ∧ n8At p 1 = k ∧ k < 32 ∧ n8At p 2 = fl ∧ fl ≤ 7 ∧ n8At p 3 ≤ 3 ∧ n16At p 4 ≤ 2047 ∧ zeroAt p 6 2 = true ∧ targetsOk s (decide (fl % 2 = 0) && decide (fl ≠ 0)) (targetsAt p 8) = true ∧ th = [u32At p 12, u32At p 16, u32At p 20, u32At p 24] ∧ (∀ y ∈ th, f32Bad y = false) ∧ cs = List.map (dacCode (getSense s (48 + k))) th ∧ cs.getD 2 0 ≤ cs.getD 0 0 ∧ cs.getD 0 0 < cs.getD 1 0 ∧ cs.getD 1 0 ≤ cs.getD 3 0 ∧ fl % 2 = 1 ∧ (cmpEnabled (getCmp s k) = true → s.sense.refState = 2))
    ∧ (∃ (via : Transport) (s : State) (r : Req) (p : Bytes) (k : ℕ) (fl : ℕ) (w : State), s.sys.dev ≠ DevState.boot ∧ p = reqParams r ∧ Sized s ∧ quiet s ∧ Takes 0x900#16 via s r ∧ List.length p = 24 ∧ n8At p 0 = 1 ∧ n8At p 1 = k ∧ k < 48 ∧ n8At p 2 = fl ∧ fl ≤ 7 ∧ n8At p 3 = 0 ∧ targetsOk s (decide (fl % 2 = 0) && decide (fl ≠ 0)) (targetsAt p 4) = true ∧ f32Bad (u32At p 8) = false ∧ f32Bad (u32At p 12) = false ∧ f32Lt (u32At p 8) (u32At p 12) = true ∧ zeroAt p 16 8 = true ∧ (fl % 2 = 0 → focArmed s k = false) ∧ (w = updFoc k (fun x => if fl % 2 = 1 then { x with lo := f32Param (u32At p 8), hi := f32Param (u32At p 12) } else { foc0 with lowEn := decide (fl / 2 % 2 = 1), highEn := decide (fl / 4 % 2 = 1), targets := targetsAt p 4, lo := f32Param (u32At p 8), hi := f32Param (u32At p 12), bits := x.bits }) (taken s via)) ∧ focBeyond w k = false)
    ∧ (∃ (via : Transport) (s : State) (r : Req) (p : Bytes) (k : ℕ) (fl : ℕ) (w : State), s.sys.dev ≠ DevState.boot ∧ p = reqParams r ∧ Sized s ∧ quiet s ∧ Takes 0x900#16 via s r ∧ List.length p = 24 ∧ n8At p 0 = 1 ∧ n8At p 1 = k ∧ k < 48 ∧ n8At p 2 = fl ∧ fl ≤ 7 ∧ n8At p 3 = 0 ∧ targetsOk s (decide (fl % 2 = 0) && decide (fl ≠ 0)) (targetsAt p 4) = true ∧ f32Bad (u32At p 8) = false ∧ f32Bad (u32At p 12) = false ∧ f32Lt (u32At p 8) (u32At p 12) = true ∧ zeroAt p 16 8 = true ∧ (fl % 2 = 0 → focArmed s k = false) ∧ (w = updFoc k (fun x => if fl % 2 = 1 then { x with lo := f32Param (u32At p 8), hi := f32Param (u32At p 12) } else { foc0 with lowEn := decide (fl / 2 % 2 = 1), highEn := decide (fl / 4 % 2 = 1), targets := targetsAt p 4, lo := f32Param (u32At p 8), hi := f32Param (u32At p 12), bits := x.bits }) (taken s via)) ∧ focBeyond w k = true ∧ focActs w k = false)
    ∧ (∃ (via : Transport) (s : State) (r : Req) (p : Bytes) (k : ℕ) (fl : ℕ) (w : State) (n : ℕ), s.sys.dev ≠ DevState.boot ∧ p = reqParams r ∧ Sized s ∧ quiet s ∧ Takes 0x900#16 via s r ∧ List.length p = 24 ∧ n8At p 0 = 1 ∧ n8At p 1 = k ∧ k < 48 ∧ n8At p 2 = fl ∧ fl ≤ 7 ∧ n8At p 3 = 0 ∧ targetsOk s (decide (fl % 2 = 0) && decide (fl ≠ 0)) (targetsAt p 4) = true ∧ f32Bad (u32At p 8) = false ∧ f32Bad (u32At p 12) = false ∧ f32Lt (u32At p 8) (u32At p 12) = true ∧ zeroAt p 16 8 = true ∧ (fl % 2 = 0 → focArmed s k = false) ∧ (w = updFoc k (fun x => if fl % 2 = 1 then { x with lo := f32Param (u32At p 8), hi := f32Param (u32At p 12) } else { foc0 with lowEn := decide (fl / 2 % 2 = 1), highEn := decide (fl / 4 % 2 = 1), targets := targetsAt p 4, lo := f32Param (u32At p 8), hi := f32Param (u32At p 12), bits := x.bits }) (taken s via)) ∧ focBeyond w k = true ∧ focActs w k = true ∧ oneLeg s n (getFoc w k).targets) := by
  refine ⟨?_, ?_, ?_, ?_, ?_, ?_⟩
  · exact ⟨.cmd, ask (island .config) 0x0900 [0, 31, 6, 3, 255, 7, 0, 0, 0, 255, 255, 255, 0, 0, 128, 62, 0, 0, 0, 63, 0, 0, 0, 62, 0, 0, 64, 63], mk 0x0900 [0, 31, 6, 3, 255, 7, 0, 0, 0, 255, 255, 255, 0, 0, 128, 62, 0, 0, 0, 63, 0, 0, 0, 62, 0, 0, 64, 63], [0, 31, 6, 3, 255, 7, 0, 0, 0, 255, 255, 255, 0, 0, 128, 62, 0, 0, 0, 63, 0, 0, 0, 62, 0, 0, 64, 63], 31, 6, [0x3E800000#32, 0x3F000000#32, 0x3E000000#32, 0x3F400000#32], [256, 512, 128, 768], { cmp0 with lowEn := true, highEn := true, hyst := 3, blank := 2047, targets := [0], thresh := [0x3E800000#32, 0x3F000000#32, 0x3E000000#32, 0x3F400000#32], codes := [256, 512, 128, 768], zone := 0 }, met⟩
  · exact ⟨.cmd, ask (updCmp 31 (fun x => { x with zone := 2 }) (chan0 (stage7 .enabled id (island .config)))) 0x0900 [0, 31, 6, 3, 255, 7, 0, 0, 0, 255, 255, 255, 0, 0, 128, 62, 0, 0, 0, 63, 0, 0, 0, 62, 0, 0, 64, 63], mk 0x0900 [0, 31, 6, 3, 255, 7, 0, 0, 0, 255, 255, 255, 0, 0, 128, 62, 0, 0, 0, 63, 0, 0, 0, 62, 0, 0, 64, 63], [0, 31, 6, 3, 255, 7, 0, 0, 0, 255, 255, 255, 0, 0, 128, 62, 0, 0, 0, 63, 0, 0, 0, 62, 0, 0, 64, 63], 31, 6, [0x3E800000#32, 0x3F000000#32, 0x3E000000#32, 0x3F400000#32], [256, 512, 128, 768], { cmp0 with lowEn := true, highEn := true, hyst := 3, blank := 2047, targets := [0], thresh := [0x3E800000#32, 0x3F000000#32, 0x3E000000#32, 0x3F400000#32], codes := [256, 512, 128, 768], zone := 2 }, 7, met⟩
  · exact ⟨.cmd, ask (island .config) 0x0900 [0, 31, 7, 3, 255, 7, 0, 0, 255, 255, 255, 255, 0, 0, 128, 62, 0, 0, 0, 63, 0, 0, 0, 62, 0, 0, 64, 63], mk 0x0900 [0, 31, 7, 3, 255, 7, 0, 0, 255, 255, 255, 255, 0, 0, 128, 62, 0, 0, 0, 63, 0, 0, 0, 62, 0, 0, 64, 63], [0, 31, 7, 3, 255, 7, 0, 0, 255, 255, 255, 255, 0, 0, 128, 62, 0, 0, 0, 63, 0, 0, 0, 62, 0, 0, 64, 63], 31, 7, [0x3E800000#32, 0x3F000000#32, 0x3E000000#32, 0x3F400000#32], [256, 512, 128, 768], met⟩
  · exact ⟨.cmd, ask (island .config) 0x0900 [1, 47, 6, 0, 0, 255, 255, 255, 0, 0, 128, 191, 0, 0, 0, 63, 0, 0, 0, 0, 0, 0, 0, 0], mk 0x0900 [1, 47, 6, 0, 0, 255, 255, 255, 0, 0, 128, 191, 0, 0, 0, 63, 0, 0, 0, 0, 0, 0, 0, 0], [1, 47, 6, 0, 0, 255, 255, 255, 0, 0, 128, 191, 0, 0, 0, 63, 0, 0, 0, 0, 0, 0, 0, 0], 47, 6, updFoc 47 (fun x => { foc0 with lowEn := true, highEn := true, targets := [0], lo := 0xBF800000#32, hi := 0x3F000000#32, bits := x.bits }) (taken (ask (island .config) 0x0900 [1, 47, 6, 0, 0, 255, 255, 255, 0, 0, 128, 191, 0, 0, 0, 63, 0, 0, 0, 0, 0, 0, 0, 0]) .cmd), met⟩
  · exact ⟨.cmd, ask (updFoc 47 (fun x => { x with bits := List.replicate 16 true }) (updOut 7 (fun x => { x with enable := true }) (updSense 47 (fun x => { x with focDec := 8 }) (island .config)))) 0x0900 [1, 47, 6, 0, 0, 255, 255, 255, 0, 0, 128, 191, 0, 0, 0, 63, 0, 0, 0, 0, 0, 0, 0, 0], mk 0x0900 [1, 47, 6, 0, 0, 255, 255, 255, 0, 0, 128, 191, 0, 0, 0, 63, 0, 0, 0, 0, 0, 0, 0, 0], [1, 47, 6, 0, 0, 255, 255, 255, 0, 0, 128, 191, 0, 0, 0, 63, 0, 0, 0, 0, 0, 0, 0, 0], 47, 6, updFoc 47 (fun x => { foc0 with lowEn := true, highEn := true, targets := [0], lo := 0xBF800000#32, hi := 0x3F000000#32, bits := x.bits }) (taken (ask (updFoc 47 (fun x => { x with bits := List.replicate 16 true }) (updOut 7 (fun x => { x with enable := true }) (updSense 47 (fun x => { x with focDec := 8 }) (island .config)))) 0x0900 [1, 47, 6, 0, 0, 255, 255, 255, 0, 0, 128, 191, 0, 0, 0, 63, 0, 0, 0, 0, 0, 0, 0, 0]) .cmd), met⟩
  · exact ⟨.cmd, ask (updFoc 47 (fun x => { x with bits := List.replicate 16 true }) (updOut 7 (fun x => { x with enable := true }) (updSense 47 (fun x => { x with focDec := 8 }) (chan0 (stage7 .enabled id (island .config)))))) 0x0900 [1, 47, 6, 0, 0, 255, 255, 255, 0, 0, 128, 191, 0, 0, 0, 63, 0, 0, 0, 0, 0, 0, 0, 0], mk 0x0900 [1, 47, 6, 0, 0, 255, 255, 255, 0, 0, 128, 191, 0, 0, 0, 63, 0, 0, 0, 0, 0, 0, 0, 0], [1, 47, 6, 0, 0, 255, 255, 255, 0, 0, 128, 191, 0, 0, 0, 63, 0, 0, 0, 0, 0, 0, 0, 0], 47, 6, updFoc 47 (fun x => { foc0 with lowEn := true, highEn := true, targets := [0], lo := 0xBF800000#32, hi := 0x3F000000#32, bits := x.bits }) (taken (ask (updFoc 47 (fun x => { x with bits := List.replicate 16 true }) (updOut 7 (fun x => { x with enable := true }) (updSense 47 (fun x => { x with focDec := 8 }) (chan0 (stage7 .enabled id (island .config)))))) 0x0900 [1, 47, 6, 0, 0, 255, 255, 255, 0, 0, 128, 191, 0, 0, 0, 63, 0, 0, 0, 0, 0, 0, 0, 0]) .cmd), 7, met⟩

/-- The hypotheses of `Obligations.ProtectionRequests`, met leaf by leaf (part 2 of 3). -/
theorem witness_ProtectionRequests_2 :
    (∃ (via : Transport) (s : State) (r : Req) (p : Bytes) (c : ℕ), s.sys.dev ≠ DevState.boot ∧ p = reqParams r ∧ Sized s ∧ quiet s ∧ Takes 0x900#16 via s r ∧ List.length p = 4 ∧ n8At p 0 = 2 ∧ n8At p 1 = c ∧ c < 80 ∧ n8At p 2 ≤ 1 ∧ n8At p 3 = 0 ∧ fltArmed s c = false)
    ∧ (∃ (via : Transport) (s : State) (r : Req) (p : Bytes) (h : ℕ), s.sys.dev ≠ DevState.boot ∧ p = reqParams r ∧ Sized s ∧ quiet s ∧ Takes 0x900#16 via s r ∧ List.length p = 16 ∧ n8At p 0 = 3 ∧ n8At p 1 = h ∧ h < 8 ∧ hbArmed s h = false ∧ 2 ≤ n8At p 2 ∧ n8At p 2 ≤ 64 ∧ 2 ≤ n8At p 3 ∧ n8At p 3 ≤ 64 ∧ 4 ≤ n8At p 4 ∧ n8At p 4 ≤ 12 ∧ 5 ≤ n8At p 5 ∧ n8At p 5 ≤ 100 ∧ 80 ≤ n8At p 6 ∧ n8At p 6 ≤ 99 ∧ n8At p 7 = 0 ∧ 60 ≤ n16At p 8 ∧ n16At p 8 ≤ 500 ∧ (n16At p 10 = 0 ∨ 10 ≤ n16At p 10) ∧ n16At p 10 ≤ 1000 ∧ zeroAt p 12 4 = true ∧ (∀ (t : ℕ), chanTimer s (80 + 2 * h) = some t → 16 * (n16At p 8 + (getChan s (80 + 2 * h)).dtF) ≤ shortest s t))
    ∧ (∃ (via : Transport) (s : State) (r : Req) (p : Bytes) (c : ℕ) (l : ℕ), s.sys.dev ≠ DevState.boot ∧ p = reqParams r ∧ Sized s ∧ quiet s ∧ Takes 0x900#16 via s r ∧ List.length p = 4 ∧ n8At p 0 = 4 ∧ n8At p 1 = c ∧ c < 96 ∧ n8At p 2 = l ∧ (l ≤ 15 ∨ l = 255) ∧ n8At p 3 = 0 ∧ Claims.allOff s [chanStage s c])
    ∧ (∃ (via : Transport) (s : State) (r : Req) (p : Bytes), s.sys.dev ≠ DevState.boot ∧ p = reqParams r ∧ Sized s ∧ quiet s ∧ Takes 0x901#16 via s r ∧ List.length p = 16 ∧ zeroAt p 10 2 = true ∧ zeroAt p 13 3 = true ∧ (u32At p 0 ≠ 0 ∨ u64At p 4 ≠ 0 ∨ byteAt p 12 ≠ 0) ∧ s.pwm.selftest = none ∧ classFull s 0x901#16 = false ∧ (u32At p 0 ≠ 0 → s.sense.refState = 2) ∧ (∀ k < 32, BitVec.getLsbD (u32At p 0) k = true → cmpArmed s k = false) ∧ (∀ k < 48, BitVec.getLsbD (u64At p 4) k = true → focArmed s k = false) ∧ (∀ h < 8, BitVec.getLsbD (byteAt p 12) h = true → hbArmed s h = false))
    ∧ (∃ (via : Transport) (s : State) (r : Req) (p : Bytes), s.sys.dev ≠ DevState.boot ∧ p = reqParams r ∧ Sized s ∧ quiet s ∧ Takes 0x900#16 via s r ∧ 4 ≤ List.length p ∧ n8At p 0 = 0 ∧ n8At p 1 < 32 ∧ n8At p 2 % 2 = 0 ∧ cmpArmed s (n8At p 1) = true)
    ∧ (∃ (via : Transport) (s : State) (r : Req) (p : Bytes), s.sys.dev ≠ DevState.boot ∧ p = reqParams r ∧ Sized s ∧ quiet s ∧ Takes 0x900#16 via s r ∧ 4 ≤ List.length p ∧ n8At p 0 = 1 ∧ n8At p 1 < 48 ∧ n8At p 2 % 2 = 0 ∧ focArmed s (n8At p 1) = true) := by
  refine ⟨?_, ?_, ?_, ?_, ?_, ?_⟩
  · exact ⟨.cmd, ask (island .config) 0x0900 [2, 79, 1, 0], mk 0x0900 [2, 79, 1, 0], [2, 79, 1, 0], 79, met⟩
  · exact ⟨.cmd, ask (updChan 94 (fun x => { x with role := 1, group := 31 }) (group31 .config)) 0x0900 [3, 7, 64, 2, 12, 100, 99, 0, 244, 1, 232, 3, 0, 0, 0, 0], mk 0x0900 [3, 7, 64, 2, 12, 100, 99, 0, 244, 1, 232, 3, 0, 0, 0, 0], [3, 7, 64, 2, 12, 100, 99, 0, 244, 1, 232, 3, 0, 0, 0, 0], 7, met⟩
  · exact ⟨.cmd, ask (group31 .config) 0x0900 [4, 95, 15, 0], mk 0x0900 [4, 95, 15, 0], [4, 95, 15, 0], 95, 15, met⟩
  · exact ⟨.cmd, ask (island .config) 0x0901 [0, 0, 0, 128, 0, 0, 0, 0, 0, 0, 0, 0, 128, 0, 0, 0], mk 0x0901 [0, 0, 0, 128, 0, 0, 0, 0, 0, 0, 0, 0, 128, 0, 0, 0], [0, 0, 0, 128, 0, 0, 0, 0, 0, 0, 0, 0, 128, 0, 0, 0], met⟩
  · exact ⟨.cmd, ask (updCmp 31 (fun x => { x with highEn := true, targets := [0] }) (chan0 (stage7 .enabled id (island .config)))) 0x0900 [0, 31, 6, 3], mk 0x0900 [0, 31, 6, 3], [0, 31, 6, 3], met⟩
  · exact ⟨.cmd, ask (updFoc 47 (fun x => { x with highEn := true, targets := [0] }) (chan0 (stage7 .enabled id (island .config)))) 0x0900 [1, 47, 6, 0], mk 0x0900 [1, 47, 6, 0], [1, 47, 6, 0], met⟩

/-- The hypotheses of `Obligations.ProtectionRequests`, met leaf by leaf (part 3 of 3). -/
theorem witness_ProtectionRequests_3 :
    (∃ (via : Transport) (s : State) (r : Req) (p : Bytes), s.sys.dev ≠ DevState.boot ∧ p = reqParams r ∧ Sized s ∧ quiet s ∧ Takes 0x900#16 via s r ∧ 4 ≤ List.length p ∧ n8At p 0 = 2 ∧ n8At p 1 < 80 ∧ fltArmed s (n8At p 1) = true)
    ∧ (∃ (via : Transport) (s : State) (r : Req) (p : Bytes), s.sys.dev ≠ DevState.boot ∧ p = reqParams r ∧ Sized s ∧ quiet s ∧ Takes 0x900#16 via s r ∧ 4 ≤ List.length p ∧ n8At p 0 = 3 ∧ n8At p 1 < 8 ∧ hbArmed s (n8At p 1) = true)
    ∧ (∃ (via : Transport) (s : State) (r : Req) (cmp : U32) (foc : U64) (hb : Byte) (step : Byte) (diffs : List U16), s.sys.dev ≠ DevState.boot ∧ Sized s ∧ quiet s ∧ s.pwm.selftest = none)
    ∧ (∃ (via : Transport) (s : State) (r : Req) (t : SelfTest) (cmp : U32) (c : U32) (foc : U64) (hb : Byte) (step : Byte) (diffs : List U16) (d : ℕ → U16) (m : U16), s.sys.dev ≠ DevState.boot ∧ Sized s ∧ quiet s ∧ s.pwm.selftest = some t ∧ (∀ (k : ℕ), d k = if BitVec.getLsbD t.cmp k = true then diffs.getD k 0 else 0) ∧ (∀ k < 32, BitVec.getLsbD c k = (BitVec.getLsbD t.cmp k && (BitVec.getLsbD cmp k || decide (8 < BitVec.toNat (d k))))) ∧ (∀ k < 32, d k ≤ m) ∧ (∃ k < 32, d k = m) ∧ c = 0 ∧ foc &&& t.foc = 0 ∧ hb &&& t.hb = 0)
    ∧ (∃ (via : Transport) (s : State) (r : Req) (t : SelfTest) (cmp : U32) (c : U32) (foc : U64) (hb : Byte) (step : Byte) (diffs : List U16) (d : ℕ → U16) (m : U16), s.sys.dev ≠ DevState.boot ∧ Sized s ∧ quiet s ∧ s.pwm.selftest = some t ∧ (∀ (k : ℕ), d k = if BitVec.getLsbD t.cmp k = true then diffs.getD k 0 else 0) ∧ (∀ k < 32, BitVec.getLsbD c k = (BitVec.getLsbD t.cmp k && (BitVec.getLsbD cmp k || decide (8 < BitVec.toNat (d k))))) ∧ (∀ k < 32, d k ≤ m) ∧ (∃ k < 32, d k = m) ∧ (c ≠ 0 ∨ foc &&& t.foc ≠ 0 ∨ hb &&& t.hb ≠ 0))
    ∧ (∃ (via : Transport) (s : State) (r : Req) (p : Bytes), s.sys.dev ≠ DevState.boot ∧ p = reqParams r ∧ Sized s ∧ quiet s ∧ Takes 0x902#16 via s r ∧ p = []) := by
  refine ⟨?_, ?_, ?_, ?_, ?_, ?_⟩
  · exact ⟨.cmd, ask (updFlt 0 (fun x => { x with enable := true }) (chan0 (stage7 .enabled id (island .config)))) 0x0900 [2, 0, 1, 0], mk 0x0900 [2, 0, 1, 0], [2, 0, 1, 0], met⟩
  · exact ⟨.cmd, ask (updChan 94 (fun x => { x with role := 1, group := 31 }) (stage7 .enabled id (group31 .config))) 0x0900 [3, 7, 0, 0], mk 0x0900 [3, 7, 0, 0], [3, 7, 0, 0], met⟩
  · exact ⟨.cmd, island .config, mk 0 [], 0, 0, 0, 0, [], met⟩
  · exact ⟨.cmd, ({ island .config with pwm := { (island .config).pwm with selftest := some { cmp := 5, foc := 6, hb := 7 } } }), mk 0 [], ({ cmp := 5, foc := 6, hb := 7 }), 0, 0, 0, 0, 1, [8, 9, 3], (fun k => if BitVec.getLsbD (5#32) k = true then ([8, 9, 3] : List U16).getD k 0 else 0), 8, met⟩
  · exact ⟨.cmd, ({ island .config with pwm := { (island .config).pwm with selftest := some { cmp := 5, foc := 6, hb := 7 } } }), mk 0 [], ({ cmp := 5, foc := 6, hb := 7 }), 0, 1, 0, 0, 1, [9], (fun k => if BitVec.getLsbD (5#32) k = true then ([9] : List U16).getD k 0 else 0), 9, met⟩
  · exact ⟨.cmd, ask (island .config) 0x0902 [], mk 0x0902 [], [], met⟩

/-- The hypotheses of `Obligations.SafeStateForEveryReason`, met leaf by leaf. -/
theorem witness_SafeStateForEveryReason :
    (∃ (reason : ℕ) (ch : ℕ) (src : ℕ) (s : State), Sized s ∧ 1 ≤ reason ∧ reason ≤ 16 ∧ s.safe.causes.getLsbD (reason - 1) = true)
    ∧ (∃ (reason : ℕ) (ch : ℕ) (src : ℕ) (s : State), Sized s ∧ 1 ≤ reason ∧ reason ≤ 16 ∧ s.safe.causes.getLsbD (reason - 1) = false ∧ (s.sys.dev = DevState.safe ∨ s.sys.dev = DevState.boot))
    ∧ (∃ (reason : ℕ) (ch : ℕ) (src : ℕ) (s : State) (m : ℕ), Sized s ∧ 1 ≤ reason ∧ reason ≤ 16 ∧ s.safe.causes.getLsbD (reason - 1) = false ∧ s.sys.dev ≠ DevState.safe ∧ s.sys.dev ≠ DevState.boot ∧ m < 8)
    ∧ (∃ (reason : ℕ) (ch : ℕ) (src : ℕ) (s : State) (k : ℕ), Sized s ∧ 1 ≤ reason ∧ reason ≤ 16 ∧ s.safe.causes.getLsbD (reason - 1) = false ∧ s.sys.dev ≠ DevState.safe ∧ s.sys.dev ≠ DevState.boot ∧ k < 96)
    ∧ (∃ (reason : ℕ) (ch : ℕ) (src : ℕ) (s : State) (t : State) (f : FormingUnit), Sized s ∧ 1 ≤ reason ∧ reason ≤ 16 ∧ t = safetyActs reason ch src s ∧ s.safe.causes.getLsbD (reason - 1) = false ∧ s.sys.dev ≠ DevState.safe ∧ s.sys.dev ≠ DevState.boot ∧ f ∈ t.fus) := by
  refine ⟨?_, ?_, ?_, ?_, ?_⟩
  · exact ⟨16, 0, 255, ({ island .run with safe := { (island .run).safe with causes := 0x8000 } }), met⟩
  · exact ⟨1, 0, 255, (island .safe), met⟩
  · exact ⟨16, 0, 255, (stage7 .enabled id (island .run)), 7, met⟩
  · exact ⟨16, 0, 255, (island .run), 95, met⟩
  · exact ⟨16, 0, 255, (fuOn 1 id (island .run)), safetyActs 16 0 255 (fuOn 1 id (island .run)), fu0, met⟩

/-- The hypotheses of `Obligations.SafetyFunctionsAct`, met leaf by leaf (part 1 of 3). -/
theorem witness_SafetyFunctionsAct :
    (∃ (s : State) (ch : ℕ) (n : ℕ), Sized s ∧ debounced s ch n = false)
    ∧ (∃ (s : State) (ch : ℕ) (n : ℕ), Sized s ∧ ch < 2 ∧ n < 16 ∧ debounced s ch n = true ∧ (safeView s ch).raw.getLsbD n = true)
    ∧ (∃ (s : State) (ch : ℕ) (n : ℕ) (b : Bytes), Sized s ∧ s.sys.dev = DevState.run ∧ s.safe.causes = 0 ∧ s.sys.phase ≠ BootPhase.inReset ∧ ch < 2 ∧ n < 16 ∧ debounced s ch n = true ∧ (safeView s ch).raw.getLsbD n = false ∧ s.safe.block = some b ∧ sf2On b = true ∧ (n = n8At b 12 ∨ n = n8At b 13))
    ∧ (∃ (s : State) (ch : ℕ) (n : ℕ) (b : Bytes), Sized s ∧ s.sys.dev = DevState.run ∧ s.safe.causes = 0 ∧ s.sys.phase ≠ BootPhase.inReset ∧ ch < 2 ∧ n < 16 ∧ debounced s ch n = true ∧ (safeView s ch).raw.getLsbD n = false ∧ s.safe.block = some b ∧ (¬(sf2On b = true ∧ (n = n8At b 12 ∨ n = n8At b 13))) ∧ sf3On b = true ∧ n = n8At b 20)
    ∧ (∃ (s : State) (b : Bytes) (i : ℕ), Sized s ∧ s.sys.dev = DevState.run ∧ s.safe.causes = 0 ∧ s.sys.phase ≠ BootPhase.inReset ∧ s.safe.block = some b ∧ s.safe.discSince = some i ∧ s.safe.discLatch = false)
    ∧ (∃ (s : State) (b : Bytes) (src : ℕ) (p : ℕ × ℕ × ℕ), Sized s ∧ s.sys.dev = DevState.run ∧ s.safe.causes = 0 ∧ s.sys.phase ≠ BootPhase.inReset ∧ s.safe.block = some b ∧ s.safe.test.window = some src ∧ windowOver s.safe.test src = true ∧ p ∈ pulsedInputs b ∧ p.2.1 = src ∧ p.1 < 16 ∧ s.safe.test.missing.length = 16 ∧ s.safe.test.allHigh.getLsbD p.1 = true ∧ 1 ≤ s.safe.test.missing.getD p.1 0)
    ∧ (∃ (s : State) (c : Contactor) (ch : ℕ), Sized s ∧ s.sys.dev = DevState.run ∧ s.safe.causes = 0 ∧ s.sys.phase ≠ BootPhase.inReset ∧ c ∈ contactors s ∧ c.k < 4 ∧ ch < 2 ∧ s.safe.cont.length = 4 ∧ s.safe.contProc.length = 4 ∧ s.safe.fresh = false ∧ contWrong s ch c.k = true ∧ (contWrong s (1 - ch) c.k = true → ((contView s ch).getD c.k contMon0).since ≤ ((contView s (1 - ch)).getD c.k contMon0).since))
    ∧ (∃ (s : State) (e : ℕ) (b : Bytes) (i : ℕ), Sized s ∧ s.sys.dev = DevState.run ∧ s.safe.causes = 0 ∧ s.sys.phase ≠ BootPhase.inReset ∧ s.safe.block = some b ∧ (s.safe.elems.getD e tripTimer0).since = some i) := by
  refine ⟨?_, ?_, ?_, ?_, ?_, ?_, ?_, ?_⟩
  · exact ⟨island .run, 0, 15, met⟩
  · exact ⟨safePart .run (fun x => { x with proc := { x.proc with raw := 0xFFFF, held := List.replicate 16 10000 } }), 1, 15, met⟩
  · exact ⟨safePart .run (fun x => { x with proc := { x.proc with level := 0xFFFF, held := List.replicate 16 10000 }, sorrel := { x.sorrel with level := 0xFFFF, held := List.replicate 16 10000 } }), 0, 15, blk, met⟩
  · exact ⟨safePart .run (fun x => { x with proc := { x.proc with level := 0xFFFF, held := List.replicate 16 10000 }, sorrel := { x.sorrel with level := 0xFFFF, held := List.replicate 16 10000 } }), 1, 1, blk, met⟩
  · exact ⟨safePart .run (fun x => { x with discSince := some 3 }), blk, 3, met⟩
  · exact ⟨safePart .run (fun x => { x with test := { x.test with window := some 0, seen := 109, allHigh := 1, missing := List.replicate 16 1 } }), blk, 0, (0, 0, 10000), met⟩
  · exact ⟨safePart .run (fun x => { x with cont := x.cont.map (fun y => { y with applied := true }) }), cont3, 0, met, met, met, met, List.mem_singleton.mpr rfl, met⟩
  · exact ⟨safePart .run (fun x => { x with elems := List.replicate 8 { tripTimer0 with since := some 4 } }), 7, blk, 4, met⟩

/-- The hypotheses of `Obligations.SafetyFunctionsAct`, met leaf by leaf (part 2 of 3). -/
theorem witness_SafetyFunctionsAct_2 :
    (∃ (s : State) (i : ℕ) (fault : Bool), Sized s ∧ s.sys.dev = DevState.run ∧ s.safe.causes = 0 ∧ s.sys.phase ≠ BootPhase.inReset ∧ s.safe.disagree = some i)
    ∧ (∃ (s : State), Sized s ∧ s.sys.dev = DevState.run ∧ s.safe.causes = 0 ∧ s.sys.phase ≠ BootPhase.inReset ∧ s.safe.disagree = none)
    ∧ (∃ (s : State), Sized s ∧ s.sys.dev = DevState.run ∧ s.safe.causes = 0 ∧ s.sys.phase ≠ BootPhase.inReset ∧ s.safe.block ≠ none)
    ∧ (∃ (s : State), Sized s ∧ s.safe.block = none)
    ∧ (∃ (s : State), Sized s ∧ (s.safe.block = none ∨ s.safe.discSince = none ∨ s.safe.discLatch = true))
    ∧ (∃ (s : State), Sized s ∧ (s.safe.block = none ∨ s.safe.test.window = none ∨ ∃ src, s.safe.test.window = some src ∧ windowOver s.safe.test src = false))
    ∧ (∃ (s : State) (k : ℕ), Sized s ∧ ((∀ c ∈ contactors s, c.k ≠ k) ∨ s.safe.fresh = true ∨ contWrong s 0 k = false ∧ contWrong s 1 k = false))
    ∧ (∃ (s : State) (e : ℕ), Sized s ∧ (s.safe.block = none ∨ (s.safe.elems.getD e tripTimer0).since = none ∨ s.sys.dev ≠ DevState.run)) := by
  refine ⟨?_, ?_, ?_, ?_, ?_, ?_, ?_, ?_⟩
  · exact ⟨(safePart .run (fun x => { x with disagree := some 4 })), 4, true, met⟩
  · exact ⟨(safePart .run (fun x => { x with fresh := false })), met⟩
  · exact ⟨(safePart .run (fun x => { x with fresh := false })), met⟩
  · exact ⟨island .run, met⟩
  · exact ⟨(safePart .run (fun x => { x with fresh := false })), met⟩
  · exact ⟨(safePart .run (fun x => { x with disagree := some 4 })), met⟩
  · exact ⟨island .run, 3, met⟩
  · exact ⟨island .run, 7, met⟩

/-- The hypotheses of `Obligations.SafetyFunctionsAct`, met leaf by leaf (part 3 of 3). -/
theorem witness_SafetyFunctionsAct_3 :
    (∃ (s : State) (fault : Bool), Sized s ∧ s.sys.phase = BootPhase.inReset ∧ s.safe.disagree = none)
    ∧ (∃ (s : State) (ch : ℕ) (k : ℕ), Sized s ∧ ((∀ c ∈ contactors s, c.k ≠ k) ∨ s.sys.dev ≠ DevState.safe ∨ (safeView s ch).permits.getLsbD k = false))
    ∧ (∃ (s : State), Sized s ∧ (s.safe.block = none ∨ s.safe.insideSince = none ∨ s.safe.gridWait = false))
    ∧ (∃ (s : State), Sized s ∧ (s.safe.runSince = none ∨ s.safe.testDue = true))
    ∧ (∃ (s : State) (b : Bytes) (src : ℕ), Sized s ∧ s.safe.block = some b ∧ s.safe.test.window = some src ∧ windowOver s.safe.test src = true ∧ pulsedInputs b = [])
    ∧ (∃ (s : State) (ch : ℕ) (k : ℕ) (c : Contactor), Sized s ∧ (List.find? (fun c => decide (c.k = k)) (contactors s) = some c) ∧ s.sys.dev = DevState.safe ∧ ch < 2 ∧ k < 4 ∧ c.output < 8 ∧ (safeView s ch).permits.getLsbD k = true)
    ∧ (∃ (s : State) (b : Bytes) (i : ℕ), Sized s ∧ s.safe.block = some b ∧ s.safe.insideSince = some i ∧ s.safe.gridWait = true)
    ∧ (∃ (s : State) (i : ℕ), Sized s ∧ s.safe.runSince = some i ∧ s.safe.testDue = false) := by
  refine ⟨?_, ?_, ?_, ?_, ?_, ?_, ?_, ?_⟩
  · exact ⟨State.reset, true, met⟩
  · exact ⟨island .run, 1, 3, met⟩
  · exact ⟨(safePart .run (fun x => { x with fresh := false })), met⟩
  · exact ⟨(safePart .run (fun x => { x with fresh := false })), met⟩
  · exact ⟨safePart .run (fun x => { x with test := { x.test with window := some 0, seen := 109 }, block := some (zeros 252) }), zeros 252, 0, met⟩
  · exact ⟨safePart .safe (fun x => { x with proc := { x.proc with permits := 15 } }), 1, 3, cont3, met⟩
  · exact ⟨safePart .run (fun x => { x with insideSince := some 4, gridWait := true }), blk, 4, met⟩
  · exact ⟨safePart .run (fun x => { x with runSince := some 4 }), 4, met⟩

/-- The hypotheses of `Obligations.SafetyRequests`, met leaf by leaf (part 1 of 2). -/
theorem witness_SafetyRequests :
    (∃ (via : Transport) (s : State) (r : Req), Sized s ∧ s.sys.dev = DevState.config ∧ s.sys.lifecycle = Lifecycle.commissioned ∧ Takes 0xA00#16 via s r)
    ∧ (∃ (via : Transport) (s : State) (r : Req), Sized s ∧ s.sys.dev = DevState.config ∧ s.sys.lifecycle = Lifecycle.commissioned ∧ Takes 0xA02#16 via s r)
    ∧ (∃ (via : Transport) (s : State) (r : Req) (p : Bytes), p = reqParams r ∧ Sized s ∧ Takes 0xA00#16 via s r ∧ s.sys.dev = DevState.config ∧ s.sys.lifecycle ≠ Lifecycle.commissioned ∧ safeBlockOk p = true ∧ safetyRamLost s = true)
    ∧ (∃ (via : Transport) (s : State) (r : Req) (p : Bytes), p = reqParams r ∧ Sized s ∧ Takes 0xA00#16 via s r ∧ s.sys.dev = DevState.config ∧ s.sys.lifecycle ≠ Lifecycle.commissioned ∧ safeBlockOk p = true ∧ safetyRamLost s = false)
    ∧ (∃ (via : Transport) (s : State) (r : Req) (p : Bytes) (b : Bytes), p = reqParams r ∧ Sized s ∧ Takes 0xA01#16 via s r ∧ s.sys.dev ≠ DevState.boot ∧ List.length p = 4 ∧ zeroAt p 1 3 = true ∧ (n8At p 0 = 0 ∧ s.safe.loaded = some b ∨ n8At p 0 = 1 ∧ s.safe.block = some b))
    ∧ (∃ (via : Transport) (s : State) (r : Req) (p : Bytes) (b : Bytes), p = reqParams r ∧ Sized s ∧ Takes 0xA02#16 via s r ∧ s.sys.dev = DevState.config ∧ (s.sys.lifecycle = Lifecycle.develop ∨ s.sys.lifecycle = Lifecycle.production) ∧ s.safe.loaded = some b ∧ List.length p = 8 ∧ zeroAt p 5 3 = true ∧ n8At p 4 = 0 ∧ u32At p 0 = crc32 b) := by
  refine ⟨?_, ?_, ?_, ?_, ?_, ?_⟩
  · exact ⟨.cmd, ask ({ island .config with sys := { (island .config).sys with lifecycle := .commissioned } }) 0x0A00 [], mk 0x0A00 [], met⟩
  · exact ⟨.cmd, ask ({ island .config with sys := { (island .config).sys with lifecycle := .commissioned } }) 0x0A02 [], mk 0x0A02 [], met⟩
  · exact ⟨.cmd, ask (updRel (fun x => { x with rows := [(107, 0, none)] }) (island .config)) 0x0A00 blk, mk 0x0A00 blk, blk, met⟩
  · exact ⟨.cmd, ask (island .config) 0x0a00 (blk), mk 0x0a00 (blk), blk, met⟩
  · exact ⟨.cmd, ask (safePart .config (fun x => { x with loaded := some blk })) 0x0a01 [0, 0, 0, 0], mk 0x0a01 [0, 0, 0, 0], [0, 0, 0, 0], blk, met⟩
  · exact ⟨.cmd, ask ({ (safePart .config (fun x => { x with loaded := some blk })) with sys := { (island .config).sys with lifecycle := .develop } }) 0x0a02 ((le32 (crc32 blk) ++ [0, 0, 0, 0])), mk 0x0a02 ((le32 (crc32 blk) ++ [0, 0, 0, 0])), (le32 (crc32 blk) ++ [0, 0, 0, 0]), blk, met⟩

/-- The hypotheses of `Obligations.SafetyRequests`, met leaf by leaf (part 2 of 2). -/
theorem witness_SafetyRequests_2 :
    (∃ (via : Transport) (s : State) (r : Req) (p : Bytes) (b : Bytes) (g : ℕ), p = reqParams r ∧ Sized s ∧ Takes 0xA02#16 via s r ∧ s.sys.dev = DevState.config ∧ (s.sys.lifecycle = Lifecycle.develop ∨ s.sys.lifecycle = Lifecycle.production) ∧ s.safe.loaded = some b ∧ List.length p = 8 ∧ zeroAt p 5 3 = true ∧ n8At p 4 = 1 ∧ freeSlotNow s 2 = some g ∧ classFull s 0xA02#16 = false ∧ u32At p 0 = crc32 b)
    ∧ (∃ (via : Transport) (s : State) (r : Req) (p : Bytes) (b : Bytes), p = reqParams r ∧ Sized s ∧ Takes 0xA02#16 via s r ∧ s.sys.dev = DevState.config ∧ (s.sys.lifecycle = Lifecycle.develop ∨ s.sys.lifecycle = Lifecycle.production) ∧ s.safe.loaded = some b ∧ List.length p = 8 ∧ zeroAt p 5 3 = true ∧ n8At p 4 = 0 ∧ u32At p 0 ≠ crc32 b)
    ∧ (∃ (via : Transport) (s : State) (r : Req) (p : Bytes), p = reqParams r ∧ Sized s ∧ Takes 0xA03#16 via s r ∧ s.sys.dev ≠ DevState.boot ∧ p = [])
    ∧ (∃ (via : Transport) (s : State) (r : Req), Sized s ∧ Takes 0xA04#16 via s r ∧ s.sys.dev = DevState.safe ∧ blocking s ≠ 0)
    ∧ (∃ (via : Transport) (s : State) (r : Req) (p : Bytes), p = reqParams r ∧ Sized s ∧ Takes 0xA04#16 via s r ∧ s.sys.dev = DevState.safe ∧ blocking s = 0 ∧ p = le32 (BitVec.zeroExtend 32 s.safe.causes) ∧ s.rel.waiting = []) := by
  refine ⟨?_, ?_, ?_, ?_, ?_⟩
  · exact ⟨.cmd, ask ({ (safePart .config (fun x => { x with loaded := some blk })) with sys := { (island .config).sys with lifecycle := .develop } }) 0x0a02 ((le32 (crc32 blk) ++ [1, 0, 0, 0])), mk 0x0a02 ((le32 (crc32 blk) ++ [1, 0, 0, 0])), (le32 (crc32 blk) ++ [1, 0, 0, 0]), blk, 0, met⟩
  · exact ⟨.cmd, ask ({ (safePart .config (fun x => { x with loaded := some blk })) with sys := { (island .config).sys with lifecycle := .develop } }) 0x0a02 (zeros 8), mk 0x0a02 (zeros 8), zeros 8, blk, met⟩
  · exact ⟨.cmd, ask (island .config) 0x0a03 [], mk 0x0a03 [], [], met⟩
  · exact ⟨.cmd, ask (safePart .safe (fun x => { x with discLatch := true })) 0x0a04 [0, 0, 0, 0], mk 0x0a04 [0, 0, 0, 0], met⟩
  · exact ⟨.cmd, ask ({ island .safe with safe := { (island .safe).safe with causes := 1 }, field := { (island .safe).field with linkUp := true } }) 0x0a04 (le32 1#32), mk 0x0a04 (le32 1#32), le32 1#32, met⟩

/-- The hypotheses of `Obligations.LinkFramesCarryCommandsAndInputs`, met leaf by leaf (part 1 of 5). -/
theorem witness_LinkFramesCarryCommandsAndInputs :
    (∃ (s : State), Sized s ∧ s.field.started = true ∧ nextRetire s 5 = none ∧ s.field.swapNext = none ∧ linkDead s = false)
    ∧ (∃ (s : State), Sized s ∧ s.field.started = false)
    ∧ (∃ (s : State), Sized s ∧ s.field.started = true ∧ s.field.swapNext = none ∧ linkDead s = true)
    ∧ (∃ (s : State) (lane : LaneErr) (f : DownFrame), Sized s ∧ lane.len = 32 ∧ (∀ x ∈ lane.flips, x = 0))
    ∧ (∃ (s : State) (lane : LaneErr) (f : DownFrame), Sized s ∧ lane.len ≠ 32)
    ∧ (∃ (s : State) (lane : LaneErr) (f : DownFrame), Sized s ∧ (∃ x ∈ lane.flips, x ≠ 0) ∧ frameOk (onLane lane (downOctets f)) = false)
    ∧ (∃ (s : State) (lane : LaneErr) (spare : LaneErr), Sized s ∧ s.field.down = none) := by
  refine ⟨?_, ?_, ?_, ?_, ?_, ?_, ?_⟩
  · exact ⟨(fieldPart .run (fun x => { x with started := true })), met⟩
  · exact ⟨(fieldPart .run (fun x => { x with up := some up0 })), met⟩
  · exact ⟨{ fieldPart .run (fun x => { x with started := true }) with rel := { (island .run).rel with laneRetired := [true, false, false] } }, met⟩
  · exact ⟨island .run, { flips := [], len := 32 }, down0, met⟩
  · exact ⟨island .run, { flips := [], len := 31 }, down0, met⟩
  · exact ⟨island .run, { flips := [1], len := 32 }, down0, met⟩
  · exact ⟨island .run, { flips := [], len := 32 }, { flips := [], len := 32 }, met⟩

/-- The hypotheses of `Obligations.LinkFramesCarryCommandsAndInputs`, met leaf by leaf (part 2 of 5). -/
theorem witness_LinkFramesCarryCommandsAndInputs_2 :
    (∃ (s : State) (f : DownFrame) (lane : LaneErr) (spare : LaneErr), Sized s ∧ s.field.down = some f ∧ s.field.dieStop = true)
    ∧ (∃ (s : State) (f : DownFrame) (lane : LaneErr) (spare : LaneErr), Sized s ∧ s.field.down = some f ∧ s.field.dieStop = false ∧ (downArrives lane f = none ∨ ∃ g, downArrives lane f = some g ∧ g.seq = s.field.lastSeq ∧ s.field.timedOut = false))
    ∧ (∃ (s : State) (f : DownFrame) (lane : LaneErr) (spare : LaneErr) (g : DownFrame) (k : ℕ) (n : ℕ), Sized s ∧ s.field.down = some f ∧ s.field.dieStop = false ∧ downArrives lane f = some g ∧ (s.field.timedOut = true ∨ g.seq ≠ s.field.lastSeq) ∧ g.record = some { key := k, conf := DieConf.link n } ∧ s.field.taken ≤ k)
    ∧ (∃ (s : State) (f : DownFrame) (lane : LaneErr) (spare : LaneErr) (g : DownFrame), Sized s ∧ s.field.down = some f ∧ s.field.dieStop = false ∧ downArrives lane f = some g ∧ (s.field.timedOut = true ∨ g.seq ≠ s.field.lastSeq) ∧ g.record = none)
    ∧ (∃ (s : State) (v : F32) (temp : F32) (cs : List F32) (rd : BitVec 4), Sized s ∧ s.field.started = true ∧ s.field.dieStop = false ∧ linkDead s = false)
    ∧ (∃ (s : State) (v : F32) (temp : F32) (cs : List F32) (rd : BitVec 4), Sized s ∧ (s.field.started = false ∨ s.field.dieStop = true))
    ∧ (∃ (s : State) (v : F32) (temp : F32) (cs : List F32) (rd : BitVec 4), Sized s ∧ s.field.started = true ∧ s.field.dieStop = false ∧ linkDead s = true) := by
  refine ⟨?_, ?_, ?_, ?_, ?_, ?_, ?_⟩
  · exact ⟨fieldPart .run (fun x => { x with down := some down0, dieStop := true }), down0, { flips := [], len := 32 }, { flips := [], len := 32 }, met⟩
  · exact ⟨fieldPart .run (fun x => { x with down := some down0 }), down0, { flips := [1], len := 32 }, { flips := [], len := 32 }, met, met, met, Or.inl (by decide +kernel)⟩
  · exact ⟨fieldPart .run (fun x => { x with down := some { down0 with record := some { key := 1, conf := .link 5 } } }), { down0 with record := some { key := 1, conf := .link 5 } }, { flips := [], len := 32 }, { flips := [], len := 32 }, { down0 with record := some { key := 1, conf := .link 5 } }, 1, 5, met⟩
  · exact ⟨fieldPart .run (fun x => { x with down := some down0 }), down0, { flips := [], len := 32 }, { flips := [], len := 32 }, down0, met⟩
  · exact ⟨(fieldPart .run (fun x => { x with started := true })), 0, 0, List.replicate 8 0, 0, met⟩
  · exact ⟨island .run, 0, 0, List.replicate 8 0, 0, met⟩
  · exact ⟨{ fieldPart .run (fun x => { x with started := true }) with rel := { (island .run).rel with laneRetired := [true, false, false] } }, 0, 0, List.replicate 8 0, 0, met⟩

/-- The hypotheses of `Obligations.LinkFramesCarryCommandsAndInputs`, met leaf by leaf (part 3 of 5). -/
theorem witness_LinkFramesCarryCommandsAndInputs_3 :
    (∃ (s : State) (lane : LaneErr) (u : UpFrame) (x : Option UpFrame), Sized s ∧ lane.len = 32 ∧ (∀ y ∈ lane.flips, y = 0))
    ∧ (∃ (s : State) (lane : LaneErr) (u : UpFrame) (x : Option UpFrame), Sized s ∧ lane.len ≠ 32)
    ∧ (∃ (s : State) (lane : LaneErr) (u : UpFrame) (x : Option UpFrame), Sized s ∧ (∃ y ∈ lane.flips, y ≠ 0) ∧ frameOk (onLane lane (upOctets u)) = false)
    ∧ (∃ (s : State) (lane : LaneErr) (spare : LaneErr), Sized s ∧ s.field.up = none)
    ∧ (∃ (s : State) (u : UpFrame) (lane : LaneErr) (spare : LaneErr), Sized s ∧ s.field.up = some u ∧ ((upArrives spare u s.field.newest).isSome = true ∨ BitVec.toNat u.seq % 2 = 0 ∨ s.field.spareLanes = 0) ∧ (upArrives lane u s.field.newest = none ∨ ∃ v b, upArrives lane u s.field.newest = some v ∧ s.field.newest = some b ∧ b.seq = v.seq ∧ s.field.linkUp = true))
    ∧ (∃ (s : State) (u : UpFrame) (lane : LaneErr) (spare : LaneErr) (v : UpFrame), Sized s ∧ s.field.up = some u ∧ ((upArrives spare u s.field.newest).isSome = true ∨ BitVec.toNat u.seq % 2 = 0 ∨ s.field.spareLanes = 0) ∧ upArrives lane u s.field.newest = some v ∧ (∀ (b : UpFrame), s.field.newest = some b → s.field.linkUp = true → b.seq ≠ v.seq))
    ∧ (∃ (s : State) (u : UpFrame) (lane : LaneErr) (spare : LaneErr) (v : UpFrame) (b : UpFrame) (w : State) (o : ℕ), Sized s ∧ s.field.up = some u ∧ ((upArrives spare u s.field.newest).isSome = true ∨ BitVec.toNat u.seq % 2 = 0 ∨ s.field.spareLanes = 0) ∧ upArrives lane u s.field.newest = some v ∧ b = s.field.newest.getD upFrame0 ∧ (s.field.newest = none ∨ s.field.linkUp = false ∨ b.seq ≠ v.seq) ∧ v.dieLost = false ∧ v.status.getLsbD 4 = false ∧ v.spareErr = false ∧ s.safe.block = none ∧ w = { advanceTo (u.sampled + 3220) s with safe := { s.safe with test := { s.safe.test with seen := answeredFrame s v } }, field := { s.field with owner := w.field.owner, mailbox := [], up := none, newest := some v, stamps := w.field.stamps, lastUp := max s.time.raw (u.sampled + 3220), linkUp := true, linkLost := false, framesOk := s.field.framesOk + 1, cleared := w.field.cleared, clearDue := 0 } } ∧ w.field.cleared.length = s.field.cleared.length ∧ (∀ n < s.field.cleared.length, w.field.cleared.getD n 0 = if BitVec.getLsbD s.field.clearDue n = true then v.counts.getD n 0 else s.field.cleared.getD n 0) ∧ w.field.stamps.length = s.field.stamps.length ∧ (∀ n < s.field.stamps.length, w.field.stamps.getD n 0 = if v.debounced.getLsbD n = b.debounced.getLsbD n then s.field.stamps.getD n 0 else timeAt (advanceTo (u.sampled + 3220) s) v.sampled) ∧ o < 8 ∧ noNews v b ∧ s.field.mailbox = [] ∧ w.field.owner = s.field.owner ∧ BitVec.toInt (v.seq - s.field.onSeq.getD o 0) ≥ 0 ∧ (∀ q < 8, q ≠ o → (q ∈ s.gov.inPullin → BitVec.getLsbD v.doApplied q = true) ∧ (q ∉ s.gov.inPullin → BitVec.getLsbD v.pulling q = false)) ∧ o ∈ s.gov.inPullin ∧ s.gov.pullin = [] ∧ BitVec.getLsbD v.doApplied o = false ∧ v.status.getLsbD 3 = false) := by
  refine ⟨?_, ?_, ?_, ?_, ?_, ?_, ?_⟩
  · exact ⟨island .run, { flips := [], len := 32 }, up0, none, met⟩
  · exact ⟨island .run, { flips := [], len := 31 }, up0, none, met⟩
  · exact ⟨island .run, { flips := [1], len := 31 }, up0, none, met⟩
  · exact ⟨island .run, { flips := [], len := 32 }, { flips := [], len := 32 }, met⟩
  · exact ⟨fieldPart .run (fun x => { x with up := some up0 }), up0, { flips := [], len := 31 }, { flips := [], len := 32 }, met, met, met, Or.inl (by decide +kernel)⟩
  · exact ⟨fieldPart .run (fun x => { x with up := some up0 }), up0, { flips := [], len := 32 }, { flips := [], len := 32 }, up0, met, met, met, met, (fun b hb => absurd (show (none : Option UpFrame) = some b from hb) (by simp))⟩
  · exact ⟨{ upState b0 up0 [] with gov := { (upState b0 up0 []).gov with inPullin := [7] } }, up0, { flips := [], len := 32 }, { flips := [], len := 32 }, up0, b0, takenUp ({ upState b0 up0 [] with gov := { (upState b0 up0 []).gov with inPullin := [7] } }) up0 (List.replicate 8 0), 7, met⟩

/-- The hypotheses of `Obligations.LinkFramesCarryCommandsAndInputs`, met leaf by leaf (part 4 of 5). -/
theorem witness_LinkFramesCarryCommandsAndInputs_4 :
    (∃ (s : State) (u : UpFrame) (lane : LaneErr) (spare : LaneErr) (v : UpFrame) (b : UpFrame) (w : State) (o : ℕ), Sized s ∧ s.field.up = some u ∧ ((upArrives spare u s.field.newest).isSome = true ∨ BitVec.toNat u.seq % 2 = 0 ∨ s.field.spareLanes = 0) ∧ upArrives lane u s.field.newest = some v ∧ b = s.field.newest.getD upFrame0 ∧ (s.field.newest = none ∨ s.field.linkUp = false ∨ b.seq ≠ v.seq) ∧ v.dieLost = false ∧ v.status.getLsbD 4 = false ∧ v.spareErr = false ∧ s.safe.block = none ∧ w = { advanceTo (u.sampled + 3220) s with safe := { s.safe with test := { s.safe.test with seen := answeredFrame s v } }, field := { s.field with owner := w.field.owner, mailbox := [], up := none, newest := some v, stamps := w.field.stamps, lastUp := max s.time.raw (u.sampled + 3220), linkUp := true, linkLost := false, framesOk := s.field.framesOk + 1, cleared := w.field.cleared, clearDue := 0 } } ∧ w.field.cleared.length = s.field.cleared.length ∧ (∀ n < s.field.cleared.length, w.field.cleared.getD n 0 = if BitVec.getLsbD s.field.clearDue n = true then v.counts.getD n 0 else s.field.cleared.getD n 0) ∧ w.field.stamps.length = s.field.stamps.length ∧ (∀ n < s.field.stamps.length, w.field.stamps.getD n 0 = if v.debounced.getLsbD n = b.debounced.getLsbD n then s.field.stamps.getD n 0 else timeAt (advanceTo (u.sampled + 3220) s) v.sampled) ∧ o < 8 ∧ noNews v b ∧ s.field.mailbox = [] ∧ w.field.owner = s.field.owner ∧ BitVec.toInt (v.seq - s.field.onSeq.getD o 0) ≥ 0 ∧ (∀ q < 8, q ≠ o → (q ∈ s.gov.inPullin → BitVec.getLsbD v.doApplied q = true) ∧ (q ∉ s.gov.inPullin → BitVec.getLsbD v.pulling q = false)) ∧ o ∉ s.gov.inPullin ∧ BitVec.getLsbD v.pulling o = true ∧ BitVec.getLsbD s.field.doCmd o = true)
    ∧ (∃ (s : State) (u : UpFrame) (lane : LaneErr) (spare : LaneErr) (v : UpFrame) (b : UpFrame) (w : State), Sized s ∧ s.field.up = some u ∧ ((upArrives spare u s.field.newest).isSome = true ∨ BitVec.toNat u.seq % 2 = 0 ∨ s.field.spareLanes = 0) ∧ upArrives lane u s.field.newest = some v ∧ b = s.field.newest.getD upFrame0 ∧ (s.field.newest = none ∨ s.field.linkUp = false ∨ b.seq ≠ v.seq) ∧ v.dieLost = false ∧ v.status.getLsbD 4 = false ∧ v.spareErr = false ∧ s.safe.block = none ∧ w = { advanceTo (u.sampled + 3220) s with safe := { s.safe with test := { s.safe.test with seen := answeredFrame s v } }, field := { s.field with owner := w.field.owner, mailbox := [], up := none, newest := some v, stamps := w.field.stamps, lastUp := max s.time.raw (u.sampled + 3220), linkUp := true, linkLost := false, framesOk := s.field.framesOk + 1, cleared := w.field.cleared, clearDue := 0 } } ∧ w.field.cleared.length = s.field.cleared.length ∧ (∀ n < s.field.cleared.length, w.field.cleared.getD n 0 = if BitVec.getLsbD s.field.clearDue n = true then v.counts.getD n 0 else s.field.cleared.getD n 0) ∧ w.field.stamps.length = s.field.stamps.length ∧ (∀ n < s.field.stamps.length, w.field.stamps.getD n 0 = if v.debounced.getLsbD n = b.debounced.getLsbD n then s.field.stamps.getD n 0 else timeAt (advanceTo (u.sampled + 3220) s) v.sampled) ∧ (∀ o < 8, (o ∈ s.gov.inPullin → BitVec.getLsbD v.doApplied o = true) ∧ (o ∉ s.gov.inPullin → BitVec.getLsbD v.pulling o = false)) ∧ s.field.mailbox = [] ∧ w.field.owner = s.field.owner ∧ noNews v b)
    ∧ (∃ (s : State) (u : UpFrame) (lane : LaneErr) (spare : LaneErr) (v : UpFrame) (b : UpFrame) (w : State) (o : ℕ), Sized s ∧ s.field.up = some u ∧ ((upArrives spare u s.field.newest).isSome = true ∨ BitVec.toNat u.seq % 2 = 0 ∨ s.field.spareLanes = 0) ∧ upArrives lane u s.field.newest = some v ∧ b = s.field.newest.getD upFrame0 ∧ (s.field.newest = none ∨ s.field.linkUp = false ∨ b.seq ≠ v.seq) ∧ v.dieLost = false ∧ v.status.getLsbD 4 = false ∧ v.spareErr = false ∧ s.safe.block = none ∧ w = { advanceTo (u.sampled + 3220) s with safe := { s.safe with test := { s.safe.test with seen := answeredFrame s v } }, field := { s.field with owner := w.field.owner, mailbox := [], up := none, newest := some v, stamps := w.field.stamps, lastUp := max s.time.raw (u.sampled + 3220), linkUp := true, linkLost := false, framesOk := s.field.framesOk + 1, cleared := w.field.cleared, clearDue := 0 } } ∧ w.field.cleared.length = s.field.cleared.length ∧ (∀ n < s.field.cleared.length, w.field.cleared.getD n 0 = if BitVec.getLsbD s.field.clearDue n = true then v.counts.getD n 0 else s.field.cleared.getD n 0) ∧ w.field.stamps.length = s.field.stamps.length ∧ (∀ n < s.field.stamps.length, w.field.stamps.getD n 0 = if v.debounced.getLsbD n = b.debounced.getLsbD n then s.field.stamps.getD n 0 else timeAt (advanceTo (u.sampled + 3220) s) v.sampled) ∧ (∀ o < 8, (o ∈ s.gov.inPullin → BitVec.getLsbD v.doApplied o = true) ∧ (o ∉ s.gov.inPullin → BitVec.getLsbD v.pulling o = false)) ∧ s.field.mailbox = [] ∧ w.field.owner = s.field.owner ∧ o < 8 ∧ noNews v { b with faultCodes := v.faultCodes } ∧ v.faultCodes.getD o 0 &&& ~~~b.faultCodes.getD o 0 ≠ 0 ∧ (∀ (q : ℕ), q ≠ o → v.faultCodes.getD q 0 = b.faultCodes.getD q 0))
    ∧ (∃ (s : State) (u : UpFrame) (lane : LaneErr) (spare : LaneErr) (v : UpFrame) (b : UpFrame) (w : State) (n : ℕ), Sized s ∧ s.field.up = some u ∧ ((upArrives spare u s.field.newest).isSome = true ∨ BitVec.toNat u.seq % 2 = 0 ∨ s.field.spareLanes = 0) ∧ upArrives lane u s.field.newest = some v ∧ b = s.field.newest.getD upFrame0 ∧ (s.field.newest = none ∨ s.field.linkUp = false ∨ b.seq ≠ v.seq) ∧ v.dieLost = false ∧ v.status.getLsbD 4 = false ∧ v.spareErr = false ∧ s.safe.block = none ∧ w = { advanceTo (u.sampled + 3220) s with safe := { s.safe with test := { s.safe.test with seen := answeredFrame s v } }, field := { s.field with owner := w.field.owner, mailbox := [], up := none, newest := some v, stamps := w.field.stamps, lastUp := max s.time.raw (u.sampled + 3220), linkUp := true, linkLost := false, framesOk := s.field.framesOk + 1, cleared := w.field.cleared, clearDue := 0 } } ∧ w.field.cleared.length = s.field.cleared.length ∧ (∀ n < s.field.cleared.length, w.field.cleared.getD n 0 = if BitVec.getLsbD s.field.clearDue n = true then v.counts.getD n 0 else s.field.cleared.getD n 0) ∧ w.field.stamps.length = s.field.stamps.length ∧ (∀ n < s.field.stamps.length, w.field.stamps.getD n 0 = if v.debounced.getLsbD n = b.debounced.getLsbD n then s.field.stamps.getD n 0 else timeAt (advanceTo (u.sampled + 3220) s) v.sampled) ∧ (∀ o < 8, (o ∈ s.gov.inPullin → BitVec.getLsbD v.doApplied o = true) ∧ (o ∉ s.gov.inPullin → BitVec.getLsbD v.pulling o = false)) ∧ s.field.mailbox = [] ∧ w.field.owner = s.field.owner ∧ n < 16 ∧ noNews v { b with chatter := v.chatter } ∧ v.chatter &&& ~~~b.chatter = 1#16 <<< n)
    ∧ (∃ (s : State) (u : UpFrame) (lane : LaneErr) (spare : LaneErr) (v : UpFrame) (b : UpFrame) (w : State) (k : ℕ), Sized s ∧ s.field.up = some u ∧ ((upArrives spare u s.field.newest).isSome = true ∨ BitVec.toNat u.seq % 2 = 0 ∨ s.field.spareLanes = 0) ∧ upArrives lane u s.field.newest = some v ∧ b = s.field.newest.getD upFrame0 ∧ (s.field.newest = none ∨ s.field.linkUp = false ∨ b.seq ≠ v.seq) ∧ v.dieLost = false ∧ v.status.getLsbD 4 = false ∧ v.spareErr = false ∧ s.safe.block = none ∧ w = { advanceTo (u.sampled + 3220) s with safe := { s.safe with test := { s.safe.test with seen := answeredFrame s v } }, field := { s.field with owner := w.field.owner, mailbox := [], up := none, newest := some v, stamps := w.field.stamps, lastUp := max s.time.raw (u.sampled + 3220), linkUp := true, linkLost := false, framesOk := s.field.framesOk + 1, cleared := w.field.cleared, clearDue := 0 } } ∧ w.field.cleared.length = s.field.cleared.length ∧ (∀ n < s.field.cleared.length, w.field.cleared.getD n 0 = if BitVec.getLsbD s.field.clearDue n = true then v.counts.getD n 0 else s.field.cleared.getD n 0) ∧ w.field.stamps.length = s.field.stamps.length ∧ (∀ n < s.field.stamps.length, w.field.stamps.getD n 0 = if v.debounced.getLsbD n = b.debounced.getLsbD n then s.field.stamps.getD n 0 else timeAt (advanceTo (u.sampled + 3220) s) v.sampled) ∧ (∀ o < 8, (o ∈ s.gov.inPullin → BitVec.getLsbD v.doApplied o = true) ∧ (o ∉ s.gov.inPullin → BitVec.getLsbD v.pulling o = false)) ∧ s.field.mailbox = [] ∧ w.field.owner = s.field.owner ∧ k < 3 ∧ noNews v { b with status := v.status } ∧ v.status ^^^ b.status = 1#5 <<< k)
    ∧ (∃ (s : State) (u : UpFrame) (lane : LaneErr) (spare : LaneErr) (v : UpFrame) (b : UpFrame) (w : State) (n : ℕ), Sized s ∧ s.field.up = some u ∧ ((upArrives spare u s.field.newest).isSome = true ∨ BitVec.toNat u.seq % 2 = 0 ∨ s.field.spareLanes = 0) ∧ upArrives lane u s.field.newest = some v ∧ b = s.field.newest.getD upFrame0 ∧ (s.field.newest = none ∨ s.field.linkUp = false ∨ b.seq ≠ v.seq) ∧ v.dieLost = false ∧ v.status.getLsbD 4 = false ∧ v.spareErr = false ∧ s.safe.block = none ∧ w = { advanceTo (u.sampled + 3220) s with safe := { s.safe with test := { s.safe.test with seen := answeredFrame s v } }, field := { s.field with owner := w.field.owner, mailbox := [], up := none, newest := some v, stamps := w.field.stamps, lastUp := max s.time.raw (u.sampled + 3220), linkUp := true, linkLost := false, framesOk := s.field.framesOk + 1, cleared := w.field.cleared, clearDue := 0 } } ∧ w.field.cleared.length = s.field.cleared.length ∧ (∀ n < s.field.cleared.length, w.field.cleared.getD n 0 = if BitVec.getLsbD s.field.clearDue n = true then v.counts.getD n 0 else s.field.cleared.getD n 0) ∧ w.field.stamps.length = s.field.stamps.length ∧ (∀ n < s.field.stamps.length, w.field.stamps.getD n 0 = if v.debounced.getLsbD n = b.debounced.getLsbD n then s.field.stamps.getD n 0 else timeAt (advanceTo (u.sampled + 3220) s) v.sampled) ∧ (∀ o < 8, (o ∈ s.gov.inPullin → BitVec.getLsbD v.doApplied o = true) ∧ (o ∉ s.gov.inPullin → BitVec.getLsbD v.pulling o = false)) ∧ s.field.mailbox = [] ∧ w.field.owner = s.field.owner ∧ n < 4 ∧ noNews v { b with tpMis := v.tpMis } ∧ v.tpMis &&& ~~~b.tpMis = 1#4 <<< n)
    ∧ (∃ (s : State) (u : UpFrame) (lane : LaneErr) (spare : LaneErr) (v : UpFrame) (b : UpFrame) (w : State) (o : ℕ), Sized s ∧ s.field.up = some u ∧ ((upArrives spare u s.field.newest).isSome = true ∨ BitVec.toNat u.seq % 2 = 0 ∨ s.field.spareLanes = 0) ∧ upArrives lane u s.field.newest = some v ∧ b = s.field.newest.getD upFrame0 ∧ (s.field.newest = none ∨ s.field.linkUp = false ∨ b.seq ≠ v.seq) ∧ v.dieLost = false ∧ v.status.getLsbD 4 = false ∧ v.spareErr = false ∧ s.safe.block = none ∧ w = { advanceTo (u.sampled + 3220) s with safe := { s.safe with test := { s.safe.test with seen := answeredFrame s v } }, field := { s.field with owner := w.field.owner, mailbox := [], up := none, newest := some v, stamps := w.field.stamps, lastUp := max s.time.raw (u.sampled + 3220), linkUp := true, linkLost := false, framesOk := s.field.framesOk + 1, cleared := w.field.cleared, clearDue := 0 } } ∧ w.field.cleared.length = s.field.cleared.length ∧ (∀ n < s.field.cleared.length, w.field.cleared.getD n 0 = if BitVec.getLsbD s.field.clearDue n = true then v.counts.getD n 0 else s.field.cleared.getD n 0) ∧ w.field.stamps.length = s.field.stamps.length ∧ (∀ n < s.field.stamps.length, w.field.stamps.getD n 0 = if v.debounced.getLsbD n = b.debounced.getLsbD n then s.field.stamps.getD n 0 else timeAt (advanceTo (u.sampled + 3220) s) v.sampled) ∧ (∀ o < 8, (o ∈ s.gov.inPullin → BitVec.getLsbD v.doApplied o = true) ∧ (o ∉ s.gov.inPullin → BitVec.getLsbD v.pulling o = false)) ∧ s.field.mailbox = [] ∧ w.field.owner = s.field.owner ∧ o < 8 ∧ noNews v { b with doApplied := v.doApplied } ∧ b.doApplied ^^^ v.doApplied = 1#8 <<< o ∧ BitVec.getLsbD b.doApplied o = true) := by
  refine ⟨?_, ?_, ?_, ?_, ?_, ?_, ?_⟩
  · exact ⟨updField (fun x => { x with doCmd := 0x80 }) (upState b0 ({ up0 with pulling := 0x80 }) []), { up0 with pulling := 0x80 }, { flips := [], len := 32 }, { flips := [], len := 32 }, { up0 with pulling := 0x80 }, b0, takenUp (updField (fun x => { x with doCmd := 0x80 }) (upState b0 ({ up0 with pulling := 0x80 }) [])) ({ up0 with pulling := 0x80 }) (List.replicate 8 0), 7, met⟩
  · exact ⟨upState b0 up0 [], up0, { flips := [], len := 32 }, { flips := [], len := 32 }, up0, b0, upTaken b0 up0 [] (List.replicate 8 0), met⟩
  · exact ⟨upState b0 ({ up0 with faultCodes := [0, 0, 0, 0, 0, 0, 0, 1] }) [], { up0 with faultCodes := [0, 0, 0, 0, 0, 0, 0, 1] }, { flips := [], len := 32 }, { flips := [], len := 32 }, { up0 with faultCodes := [0, 0, 0, 0, 0, 0, 0, 1] }, b0, upTaken b0 ({ up0 with faultCodes := [0, 0, 0, 0, 0, 0, 0, 1] }) [] (List.replicate 8 0), 7, met, met, met, met, met, met, met, met, met, met, met, met, met, met, met, met, met, met, met, met, met, (fun q hq => if h : q < 7 then (by clear hq; revert h; revert q; decide +kernel) else if h8 : q = 7 then absurd h8 hq else (by rw [List.getD_eq_default _ _ (show 8 ≤ q by omega), List.getD_eq_default _ _ (show 8 ≤ q by omega)]))⟩
  · exact ⟨upState b0 ({ up0 with chatter := 0x8000 }) [], ({ up0 with chatter := 0x8000 }), { flips := [], len := 32 }, { flips := [], len := 32 }, ({ up0 with chatter := 0x8000 }), b0, upTaken b0 ({ up0 with chatter := 0x8000 }) [] (List.replicate 8 0), 15, met⟩
  · exact ⟨upState b0 ({ up0 with status := 4 }) [], ({ up0 with status := 4 }), { flips := [], len := 32 }, { flips := [], len := 32 }, ({ up0 with status := 4 }), b0, upTaken b0 ({ up0 with status := 4 }) [] (List.replicate 8 0), 2, met⟩
  · exact ⟨upState b0 ({ up0 with tpMis := 8 }) [], ({ up0 with tpMis := 8 }), { flips := [], len := 32 }, { flips := [], len := 32 }, ({ up0 with tpMis := 8 }), b0, upTaken b0 ({ up0 with tpMis := 8 }) [] (List.replicate 8 0), 3, met⟩
  · exact ⟨upState ({ b0 with doApplied := 0x80 }) up0 [], up0, { flips := [], len := 32 }, { flips := [], len := 32 }, up0, ({ b0 with doApplied := 0x80 }), upTaken ({ b0 with doApplied := 0x80 }) up0 [] (List.replicate 8 0), 7, met⟩

/-- The hypotheses of `Obligations.LinkFramesCarryCommandsAndInputs`, met leaf by leaf (part 5 of 5). -/
theorem witness_LinkFramesCarryCommandsAndInputs_5 :
    (∃ (s : State) (u : UpFrame) (lane : LaneErr) (spare : LaneErr) (v : UpFrame) (b : UpFrame) (w : State) (k : ℕ) (o : ℕ) (x : ℕ) (st : ℕ) (p : ℕ) (h : ℕ) (od : Bool), Sized s ∧ s.field.up = some u ∧ ((upArrives spare u s.field.newest).isSome = true ∨ BitVec.toNat u.seq % 2 = 0 ∨ s.field.spareLanes = 0) ∧ upArrives lane u s.field.newest = some v ∧ b = s.field.newest.getD upFrame0 ∧ (s.field.newest = none ∨ s.field.linkUp = false ∨ b.seq ≠ v.seq) ∧ v.dieLost = false ∧ v.status.getLsbD 4 = false ∧ v.spareErr = false ∧ s.safe.block = none ∧ w = { advanceTo (u.sampled + 3220) s with safe := { s.safe with test := { s.safe.test with seen := answeredFrame s v } }, field := { s.field with owner := w.field.owner, mailbox := [], up := none, newest := some v, stamps := w.field.stamps, lastUp := max s.time.raw (u.sampled + 3220), linkUp := true, linkLost := false, framesOk := s.field.framesOk + 1, cleared := w.field.cleared, clearDue := 0 } } ∧ w.field.cleared.length = s.field.cleared.length ∧ (∀ n < s.field.cleared.length, w.field.cleared.getD n 0 = if BitVec.getLsbD s.field.clearDue n = true then v.counts.getD n 0 else s.field.cleared.getD n 0) ∧ w.field.stamps.length = s.field.stamps.length ∧ (∀ n < s.field.stamps.length, w.field.stamps.getD n 0 = if v.debounced.getLsbD n = b.debounced.getLsbD n then s.field.stamps.getD n 0 else timeAt (advanceTo (u.sampled + 3220) s) v.sampled) ∧ (∀ o < 8, (o ∈ s.gov.inPullin → BitVec.getLsbD v.doApplied o = true) ∧ (o ∉ s.gov.inPullin → BitVec.getLsbD v.pulling o = false)) ∧ noNews v b ∧ s.field.mailbox = [{ key := k, conf := DieConf.output o x st p h od }] ∧ k < v.taken ∧ (w.field.owner = upd s.field.owner o fun x_1 => x))
    ∧ (∃ (s : State), Sized s ∧ s.field.timedOut = false ∧ s.field.dieStop = false)
    ∧ (∃ (s : State), Sized s ∧ s.field.started = true ∧ s.field.linkLost = false ∧ s.sys.dev = DevState.run ∧ s.safe.causes = 0)
    ∧ (∃ (s : State), Sized s ∧ (s.field.timedOut = true ∨ s.field.dieStop = true))
    ∧ (∃ (s : State), Sized s ∧ (s.field.started = false ∨ s.field.linkLost = true)) := by
  refine ⟨?_, ?_, ?_, ?_, ?_⟩
  · exact ⟨upState b0 up0 [{ key := 0, conf := .output 7 1 0 0 0 false }], up0, { flips := [], len := 32 }, { flips := [], len := 32 }, up0, b0, upTaken b0 up0 [{ key := 0, conf := .output 7 1 0 0 0 false }] ([0, 0, 0, 0, 0, 0, 0, 1]), 0, 7, 1, 0, 0, 0, false, met⟩
  · exact ⟨(fieldPart .run (fun x => { x with timedOut := false })), met⟩
  · exact ⟨(fieldPart .run (fun x => { x with started := true })), met⟩
  · exact ⟨(fieldPart .run (fun x => { x with down := some down0 })), met⟩
  · exact ⟨(fieldPart .run (fun x => { x with timedOut := false })), met⟩

/-- The hypotheses of `Obligations.FieldDieAndItsRequests`, met leaf by leaf (part 1 of 5). -/
theorem witness_FieldDieAndItsRequests :
    (∃ (s : State) (kind : ℕ) (v : F32) (on : Bool) (held : ℕ), Sized s ∧ kind ≤ 3 ∧ ((on = match kind with | 0 => s.field.warn | 1 => s.field.underV | 2 => s.field.overV | x => s.field.dieStop) ∨ vBeyond kind on v = false ∨ held < 10000))
    ∧ (∃ (s : State) (v : F32) (on : Bool) (held : ℕ), Sized s ∧ 10000 ≤ held ∧ vBeyond 0 on v = true ∧ s.field.warn = !on)
    ∧ (∃ (s : State) (v : F32) (on : Bool) (held : ℕ), Sized s ∧ 10000 ≤ held ∧ vBeyond 2 false v = true ∧ s.field.overV = true)
    ∧ (∃ (s : State) (v : F32) (on : Bool) (held : ℕ), Sized s ∧ 10000 ≤ held ∧ vBeyond 1 false v = true ∧ s.field.underV = true)
    ∧ (∃ (s : State) (v : F32) (on : Bool) (held : ℕ), Sized s ∧ 10000 ≤ held ∧ vBeyond 3 false v = true ∧ s.field.dieStop = true)
    ∧ (∃ (s : State) (v : F32) (on : Bool) (held : ℕ), Sized s ∧ 10000 ≤ held ∧ vBeyond 3 true v = true ∧ s.field.dieStop = false)
    ∧ (∃ (s : State) (v : F32) (held : ℕ), Sized s ∧ (∀ o < 8, (getOutput s o).faults.getLsbD 4 = true → (getOutput s o).on = false) ∧ 10000 ≤ held ∧ vBeyond 1 true v = true ∧ s.field.underV = false) := by
  refine ⟨?_, ?_, ?_, ?_, ?_, ?_, ?_⟩
  · exact ⟨island .run, 3, 0x41C00000#32, true, 9999, met⟩
  · exact ⟨island .run, 0x41000000#32, true, 10000, met⟩
  · exact ⟨fieldPart .run (fun x => { x with overV := true }), 0x41C00000#32, false, 10000, met⟩
  · exact ⟨fieldPart .run (fun x => { x with underV := true }), 0x41C00000#32, false, 10000, met⟩
  · exact ⟨fieldPart .run (fun x => { x with dieStop := true }), 0x41C00000#32, false, 10000, met⟩
  · exact ⟨island .run, 0x40400000#32, true, 10000, met⟩
  · exact ⟨island .run, 0x40C00000#32, 10000, met⟩

/-- The hypotheses of `Obligations.FieldDieAndItsRequests`, met leaf by leaf (part 2 of 5). -/
theorem witness_FieldDieAndItsRequests_2 :
    (∃ (s : State) (v : F32) (held : ℕ), Sized s ∧ (∀ o < 8, (getOutput s o).faults.getLsbD 4 = true → (getOutput s o).on = false) ∧ 10000 ≤ held ∧ vBeyond 2 true v = true ∧ s.field.overV = false)
    ∧ (∃ (s : State) (n : ℕ) (held : ℕ) (v : F32) (x : FieldIn) (level : Bool), Sized s ∧ n < 16 ∧ x = getInput s n ∧ x.raw = (x.pin && readable s) ∧ (if 12 ≤ n then 2000 else 20000) ≤ held ∧ (level = true ∧ (if x.threshold = 0 then 15 else if x.threshold = 1 then 11 else 13 / 2) ≤ f32Val v ∨ level = false ∧ f32Val v ≤ if x.threshold ≤ 1 then 5 else 7 / 2) ∧ level = x.pin)
    ∧ (∃ (s : State) (n : ℕ) (held : ℕ) (v : F32) (x : FieldIn) (level : Bool), Sized s ∧ n < 16 ∧ x = getInput s n ∧ x.raw = (x.pin && readable s) ∧ (if 12 ≤ n then 2000 else 20000) ≤ held ∧ (level = true ∧ (if x.threshold = 0 then 15 else if x.threshold = 1 then 11 else 13 / 2) ≤ f32Val v ∨ level = false ∧ f32Val v ≤ if x.threshold ≤ 1 then 5 else 7 / 2) ∧ level ≠ x.pin ∧ readable s = true ∧ (∀ (i : ℕ), (if level = true then x.lastRise else x.lastFall) = some i → (i + 1000000000 / if 12 ≤ n then 100000 else 10000) ≤ dieNow s))
    ∧ (∃ (s : State) (n : ℕ) (x : FieldIn), Sized s ∧ getInput s n = x ∧ x.raw = (x.pin && readable s) ∧ x.raw = x.level ∧ x.chatter = false)
    ∧ (∃ (s : State) (n : ℕ) (x : FieldIn), Sized s ∧ getInput s n = x ∧ x.raw = (x.pin && readable s) ∧ x.raw = x.level ∧ x.chatter = true)
    ∧ (∃ (s : State) (n : ℕ) (x : FieldIn), Sized s ∧ getInput s n = x ∧ x.raw = (x.pin && readable s) ∧ x.raw ≠ x.level)
    ∧ (∃ (s : State) (n : ℕ) (x : FieldIn) (fin : ℕ), Sized s ∧ getInput s n = x ∧ fin = x.rawSince + 1000 * x.debounce ∧ n < 16 ∧ x.raw ≠ x.level ∧ x.raw ≠ (x.pin && readable s) ∧ dieNow s < sampleAt x.pinSince ∧ x.rawSince < sampleAt x.pinSince ∧ sampleAt x.pinSince ≤ fin) := by
  refine ⟨?_, ?_, ?_, ?_, ?_, ?_, ?_⟩
  · exact ⟨island .run, 0x42480000#32, 10000, met⟩
  · exact ⟨fieldPart .run (fun x => { x with underV := false, dieStop := false }), 15, 20000, 0, fieldIn0, false, met⟩
  · exact ⟨fieldPart .run (fun x => { x with underV := false, dieStop := false }), 15, 2000, 0x41700000#32, fieldIn0, true, met⟩
  · exact ⟨island .run, 15, fieldIn0, met⟩
  · exact ⟨updInput 15 (fun x => { x with chatter := true }) (island .run), 15, { fieldIn0 with chatter := true }, met⟩
  · exact ⟨updInput 15 (fun x => { x with pin := true, raw := true }) (fieldPart .run (fun x => { x with underV := false, dieStop := false })), 15, { fieldIn0 with pin := true, raw := true }, met⟩
  · exact ⟨updInput 15 (fun x => { x with raw := true, pinSince := 1 }) (fieldPart .run (fun x => { x with underV := false, dieStop := false })), 15, { fieldIn0 with raw := true, pinSince := 1 }, 1000, met⟩

/-- The hypotheses of `Obligations.FieldDieAndItsRequests`, met leaf by leaf (part 3 of 5). -/
theorem witness_FieldDieAndItsRequests_3 :
    (∃ (s : State) (n : ℕ) (x : FieldIn) (es : List ℕ), Sized s ∧ n < 16 ∧ getInput s n = x ∧ x.gate = 0)
    ∧ (∃ (s : State) (n : ℕ) (x : FieldIn), Sized s ∧ n < 16 ∧ getInput s n = x ∧ 0 < x.gate ∧ x.raw = (x.pin && readable s))
    ∧ (∃ (s : State) (o : ℕ), Sized s ∧ (getOutput s o).pulling = none)
    ∧ (∃ (s : State) (o : ℕ) (i : ℕ), Sized s ∧ (getOutput s o).pulling = some i ∧ s.gov.pullin = [])
    ∧ (∃ (s : State) (x : FieldOut) (v : F32) (held : ℕ) (now : ℕ), Sized s)
    ∧ (∃ (s : State) (o : ℕ) (kind : ℕ) (v : F32) (c : F32) (held : ℕ), Sized s ∧ o < 8 ∧ kind ≤ 3 ∧ s.field.dieStop = false ∧ faultHolds (getOutput s o) kind v held (dieNow s) = true ∧ (getOutput s o).faults = 0)
    ∧ (∃ (s : State) (o : ℕ) (kind : ℕ) (v : F32) (c : F32) (held : ℕ), Sized s ∧ o < 8 ∧ kind ≤ 3 ∧ s.field.dieStop = false ∧ kind < 3 ∧ (faultHolds (getOutput s o) kind v held (dieNow s) = false ∨ (getOutput s o).faults.getLsbD kind = true)) := by
  refine ⟨?_, ?_, ?_, ?_, ?_, ?_, ?_⟩
  · exact ⟨island .run, 15, fieldIn0, [], met⟩
  · exact ⟨updInput 15 (fun x => { x with gate := 10 }) (island .run), 15, { fieldIn0 with gate := 10 }, met⟩
  · exact ⟨island .run, 7, met⟩
  · exact ⟨updOutput 7 (fun x => { x with pulling := some 9 }) (island .run), 7, 9, met⟩
  · exact ⟨island .run, fieldOut0, 0, 0, 0, met⟩
  · exact ⟨fieldPart .run (fun x => { x with underV := false, dieStop := false }), 7, 3, 0x43210000#32, 0, 0, met⟩
  · exact ⟨fieldPart .run (fun x => { x with underV := false, dieStop := false }), 7, 0, 0, 0, 0, met⟩

/-- The hypotheses of `Obligations.FieldDieAndItsRequests`, met leaf by leaf (part 4 of 5). -/
theorem witness_FieldDieAndItsRequests_4 :
    (∃ (s : State) (o : ℕ) (kind : ℕ) (v : F32) (c : F32) (held : ℕ), Sized s ∧ o < 8 ∧ kind ≤ 3 ∧ s.field.dieStop = false ∧ kind = 3 ∧ faultHolds (getOutput s o) kind v held (dieNow s) = false)
    ∧ (∃ (s : State) (o : ℕ) (kind : ℕ) (v : F32) (c : F32) (held : ℕ), Sized s ∧ s.field.dieStop = true)
    ∧ (∃ (s : State) (o : ℕ) (i : ℕ), Sized s ∧ s.field.shutting.getD o none = some i ∧ (getOutput s o).on = false ∧ f32Val (getOutput s o).current < 1 / 50 ∧ (∀ (u : UpFrame), s.field.newest = some u → BitVec.getLsbD u.doApplied o = false ∧ f32Val (u.currents.getD o 0) < 1 / 50) ∧ s.sys.stateChange = false)
    ∧ (∃ (s : State) (o : ℕ), Sized s ∧ (s.field.shutting.getD o none = none ∨ (getOutput s o).on = true ∨ 1 / 50 ≤ f32Val (getOutput s o).current ∨ ∃ u, s.field.newest = some u ∧ (BitVec.getLsbD u.doApplied o = true ∨ 1 / 50 ≤ f32Val (u.currents.getD o 0))))
    ∧ (∃ (via : Transport) (s : State) (r : Req) (p : Bytes) (o : ℕ) (sent : DieConf → Host.Outcome State Fault Refusal), p = reqParams r ∧ s.sys.dev ≠ DevState.boot ∧ Sized s ∧ linkDead s = false ∧ classFull s 0xB00#16 = false ∧ Takes 0xB00#16 via s r ∧ n8At p 1 = o ∧ (∀ (c : DieConf), sent c = accepted r s.field.nextKey [] ({ taken s via with field := { s.field with mailbox := s.field.mailbox ++ [{ key := s.field.nextKey, conf := c }], nextKey := s.field.nextKey + 1 } })) ∧ List.length p = 12 ∧ n8At p 0 = 0 ∧ o ≤ 15 ∧ n8At p 2 ≤ 2 ∧ n8At p 3 ≤ 3 ∧ 1 ≤ n32At p 4 ∧ n32At p 4 ≤ 65000 ∧ n16At p 8 ≤ 1000 ∧ zeroAt p 10 2 = true)
    ∧ (∃ (via : Transport) (s : State) (r : Req) (p : Bytes) (o : ℕ) (sent : DieConf → Host.Outcome State Fault Refusal), p = reqParams r ∧ s.sys.dev ≠ DevState.boot ∧ Sized s ∧ linkDead s = false ∧ classFull s 0xB00#16 = false ∧ Takes 0xB00#16 via s r ∧ n8At p 1 = o ∧ (∀ (c : DieConf), sent c = accepted r s.field.nextKey [] ({ taken s via with field := { s.field with mailbox := s.field.mailbox ++ [{ key := s.field.nextKey, conf := c }], nextKey := s.field.nextKey + 1 } })) ∧ List.length p = 12 ∧ n8At p 0 = 1 ∧ o < 8 ∧ s.field.shutting.getD o none = none ∧ outputGoing s o = false ∧ shownOn s o = false ∧ n8At p 2 ≤ 8 ∧ n8At p 3 ≤ 2 ∧ n16At p 4 ≤ 100 ∧ 20 ≤ n8At p 6 ∧ n8At p 6 ≤ 100 ∧ n8At p 7 ≤ 1 ∧ zeroAt p 8 4 = true ∧ (namedOutput s o = true → n8At p 3 = 0))
    ∧ (∃ (via : Transport) (s : State) (r : Req) (p : Bytes) (o : ℕ) (sent : DieConf → Host.Outcome State Fault Refusal), p = reqParams r ∧ s.sys.dev ≠ DevState.boot ∧ Sized s ∧ linkDead s = false ∧ classFull s 0xB00#16 = false ∧ Takes 0xB00#16 via s r ∧ n8At p 1 = o ∧ (∀ (c : DieConf), sent c = accepted r s.field.nextKey [] ({ taken s via with field := { s.field with mailbox := s.field.mailbox ++ [{ key := s.field.nextKey, conf := c }], nextKey := s.field.nextKey + 1 } })) ∧ List.length p = 8 ∧ n8At p 0 = 2 ∧ s.sys.dev = DevState.config ∧ zeroAt p 1 3 = true ∧ 50 ≤ n32At p 4 ∧ n32At p 4 ≤ 100000) := by
  refine ⟨?_, ?_, ?_, ?_, ?_, ?_, ?_⟩
  · exact ⟨fieldPart .run (fun x => { x with underV := false, dieStop := false }), 7, 3, 0, 0, 0, met⟩
  · exact ⟨fieldPart .run (fun x => { x with dieStop := true }), 7, 3, 0, 0, 0, met⟩
  · exact ⟨fieldPart .run (fun x => { x with shutting := upd x.shutting 7 (fun _ => some 8) }), 7, 8, met⟩
  · exact ⟨island .run, 7, met⟩
  · exact ⟨.cmd, ask (island .config) 0x0b00 [0, 15, 2, 3, 232, 253, 0, 0, 232, 3, 0, 0], mk 0x0b00 [0, 15, 2, 3, 232, 253, 0, 0, 232, 3, 0, 0], [0, 15, 2, 3, 232, 253, 0, 0, 232, 3, 0, 0], 15, (fun c => accepted (mk 0x0b00 [0, 15, 2, 3, 232, 253, 0, 0, 232, 3, 0, 0]) (ask (island .config) 0x0b00 [0, 15, 2, 3, 232, 253, 0, 0, 232, 3, 0, 0]).field.nextKey [] { taken (ask (island .config) 0x0b00 [0, 15, 2, 3, 232, 253, 0, 0, 232, 3, 0, 0]) .cmd with field := { (ask (island .config) 0x0b00 [0, 15, 2, 3, 232, 253, 0, 0, 232, 3, 0, 0]).field with mailbox := (ask (island .config) 0x0b00 [0, 15, 2, 3, 232, 253, 0, 0, 232, 3, 0, 0]).field.mailbox ++ [{ key := (ask (island .config) 0x0b00 [0, 15, 2, 3, 232, 253, 0, 0, 232, 3, 0, 0]).field.nextKey, conf := c }], nextKey := (ask (island .config) 0x0b00 [0, 15, 2, 3, 232, 253, 0, 0, 232, 3, 0, 0]).field.nextKey + 1 } }), met⟩
  · exact ⟨.cmd, ask (island .config) 0x0b00 [1, 7, 8, 2, 100, 0, 100, 1, 0, 0, 0, 0], mk 0x0b00 [1, 7, 8, 2, 100, 0, 100, 1, 0, 0, 0, 0], [1, 7, 8, 2, 100, 0, 100, 1, 0, 0, 0, 0], 7, (fun c => accepted (mk 0x0b00 [1, 7, 8, 2, 100, 0, 100, 1, 0, 0, 0, 0]) (ask (island .config) 0x0b00 [1, 7, 8, 2, 100, 0, 100, 1, 0, 0, 0, 0]).field.nextKey [] { taken (ask (island .config) 0x0b00 [1, 7, 8, 2, 100, 0, 100, 1, 0, 0, 0, 0]) .cmd with field := { (ask (island .config) 0x0b00 [1, 7, 8, 2, 100, 0, 100, 1, 0, 0, 0, 0]).field with mailbox := (ask (island .config) 0x0b00 [1, 7, 8, 2, 100, 0, 100, 1, 0, 0, 0, 0]).field.mailbox ++ [{ key := (ask (island .config) 0x0b00 [1, 7, 8, 2, 100, 0, 100, 1, 0, 0, 0, 0]).field.nextKey, conf := c }], nextKey := (ask (island .config) 0x0b00 [1, 7, 8, 2, 100, 0, 100, 1, 0, 0, 0, 0]).field.nextKey + 1 } }), met⟩
  · exact ⟨.cmd, ask (island .config) 0x0b00 [2, 0, 0, 0, 160, 134, 1, 0], mk 0x0b00 [2, 0, 0, 0, 160, 134, 1, 0], [2, 0, 0, 0, 160, 134, 1, 0], 0, (fun c => accepted (mk 0x0b00 [2, 0, 0, 0, 160, 134, 1, 0]) (ask (island .config) 0x0b00 [2, 0, 0, 0, 160, 134, 1, 0]).field.nextKey [] { taken (ask (island .config) 0x0b00 [2, 0, 0, 0, 160, 134, 1, 0]) .cmd with field := { (ask (island .config) 0x0b00 [2, 0, 0, 0, 160, 134, 1, 0]).field with mailbox := (ask (island .config) 0x0b00 [2, 0, 0, 0, 160, 134, 1, 0]).field.mailbox ++ [{ key := (ask (island .config) 0x0b00 [2, 0, 0, 0, 160, 134, 1, 0]).field.nextKey, conf := c }], nextKey := (ask (island .config) 0x0b00 [2, 0, 0, 0, 160, 134, 1, 0]).field.nextKey + 1 } }), met⟩

/-- The hypotheses of `Obligations.FieldDieAndItsRequests`, met leaf by leaf (part 5 of 5). -/
theorem witness_FieldDieAndItsRequests_5 :
    (∃ (via : Transport) (s : State) (r : Req) (p : Bytes) (o : Byte) (k : Byte), p = reqParams r ∧ s.sys.dev ≠ DevState.boot ∧ Sized s ∧ Takes 0xB01#16 via s r ∧ p = [o, k, 0, 0] ∧ BitVec.toNat o < 8 ∧ s.field.owner.getD (BitVec.toNat o) 0 = 0 ∧ s.field.shutting.getD (BitVec.toNat o) none = none ∧ linkDead s = false ∧ s.field.shutting.length = 8 ∧ k = 0 ∧ s.gov.pullin = [])
    ∧ (∃ (via : Transport) (s : State) (r : Req) (p : Bytes) (o : Byte) (k : Byte), p = reqParams r ∧ s.sys.dev ≠ DevState.boot ∧ Sized s ∧ Takes 0xB01#16 via s r ∧ p = [o, k, 0, 0] ∧ BitVec.toNat o < 8 ∧ s.field.owner.getD (BitVec.toNat o) 0 = 0 ∧ s.field.shutting.getD (BitVec.toNat o) none = none ∧ linkDead s = false ∧ s.field.shutting.length = 8 ∧ k = 1 ∧ s.sys.dev = DevState.run ∧ permitted s (BitVec.toNat o) = true ∧ outputGoing s (BitVec.toNat o) = true)
    ∧ (∃ (via : Transport) (s : State) (r : Req) (p : Bytes) (o : Byte) (k : Byte), p = reqParams r ∧ s.sys.dev ≠ DevState.boot ∧ Sized s ∧ Takes 0xB01#16 via s r ∧ p = [o, k, 0, 0] ∧ BitVec.toNat o < 8 ∧ s.field.owner.getD (BitVec.toNat o) 0 = 0 ∧ s.field.shutting.getD (BitVec.toNat o) none = none ∧ linkDead s = false ∧ s.field.shutting.length = 8 ∧ k = 1 ∧ s.sys.dev = DevState.run ∧ permitted s (BitVec.toNat o) = true ∧ outputGoing s (BitVec.toNat o) = false ∧ (getOutput s (BitVec.toNat o)).pullIn = 0 ∧ shownPulling s (BitVec.toNat o) = false)
    ∧ (∃ (via : Transport) (s : State) (r : Req) (p : Bytes) (o : Byte) (k : Byte), p = reqParams r ∧ s.sys.dev ≠ DevState.boot ∧ Sized s ∧ Takes 0xB01#16 via s r ∧ p = [o, k, 0, 0] ∧ BitVec.toNat o < 8 ∧ s.field.owner.getD (BitVec.toNat o) 0 = 0 ∧ s.field.shutting.getD (BitVec.toNat o) none = none ∧ linkDead s = false ∧ s.field.shutting.length = 8 ∧ k = 1 ∧ s.sys.dev = DevState.run ∧ permitted s (BitVec.toNat o) = true ∧ outputGoing s (BitVec.toNat o) = false ∧ 0 < (getOutput s (BitVec.toNat o)).pullIn ∧ shownOn s (BitVec.toNat o) = false ∧ s.gov.inPullin.length < 2 ∧ s.gov.pullin = [])
    ∧ (∃ (via : Transport) (s : State) (r : Req) (p : Bytes) (o : Byte) (k : Byte), p = reqParams r ∧ s.sys.dev ≠ DevState.boot ∧ Sized s ∧ Takes 0xB01#16 via s r ∧ p = [o, k, 0, 0] ∧ BitVec.toNat o < 8 ∧ s.field.owner.getD (BitVec.toNat o) 0 = 0 ∧ s.field.shutting.getD (BitVec.toNat o) none = none ∧ linkDead s = false ∧ s.field.shutting.length = 8 ∧ k = 1 ∧ s.sys.dev = DevState.run ∧ permitted s (BitVec.toNat o) = true ∧ outputGoing s (BitVec.toNat o) = false ∧ 0 < (getOutput s (BitVec.toNat o)).pullIn ∧ 2 ≤ s.gov.inPullin.length ∧ s.gov.pullin.length < 8)
    ∧ (∃ (via : Transport) (s : State) (r : Req) (p : Bytes) (o : Byte) (k : Byte), p = reqParams r ∧ s.sys.dev ≠ DevState.boot ∧ Sized s ∧ Takes 0xB01#16 via s r ∧ p = [o, k, 0, 0] ∧ BitVec.toNat o < 8 ∧ s.field.owner.getD (BitVec.toNat o) 0 = 0 ∧ s.field.shutting.getD (BitVec.toNat o) none = none ∧ linkDead s = false ∧ s.field.shutting.length = 8 ∧ k = 1 ∧ s.sys.dev ≠ DevState.run)
    ∧ (∃ (via : Transport) (s : State) (r : Req) (p : Bytes) (m : U16), p = reqParams r ∧ s.sys.dev ≠ DevState.boot ∧ Sized s ∧ Takes 0xB02#16 via s r ∧ List.length p = 4 ∧ u16At p 0 = m ∧ zeroAt p 2 2 = true) := by
  refine ⟨?_, ?_, ?_, ?_, ?_, ?_, ?_⟩
  · exact ⟨.cmd, ask (island .run) 0x0B01 [7, 0, 0, 0], mk 0x0B01 [7, 0, 0, 0], [7, 0, 0, 0], 7, 0, met⟩
  · exact ⟨.cmd, ask (fieldPart .run (fun x => { x with doCmd := 0x80 })) 0x0B01 [7, 1, 0, 0], mk 0x0B01 [7, 1, 0, 0], [7, 1, 0, 0], 7, 1, met⟩
  · exact ⟨.cmd, ask (island .run) 0x0B01 [7, 1, 0, 0], mk 0x0B01 [7, 1, 0, 0], [7, 1, 0, 0], 7, 1, met⟩
  · exact ⟨.cmd, ask (updOutput 7 (fun x => { x with pullIn := 50 }) (island .run)) 0x0B01 [7, 1, 0, 0], mk 0x0B01 [7, 1, 0, 0], [7, 1, 0, 0], 7, 1, met⟩
  · exact ⟨.cmd, ask ({ (updOutput 7 (fun x => { x with pullIn := 50 }) (island .run)) with gov := { (island .run).gov with inPullin := [1, 2] } }) 0x0B01 [7, 1, 0, 0], mk 0x0B01 [7, 1, 0, 0], [7, 1, 0, 0], 7, 1, met⟩
  · exact ⟨.cmd, ask (island .config) 0x0B01 [7, 1, 0, 0], mk 0x0B01 [7, 1, 0, 0], [7, 1, 0, 0], 7, 1, met⟩
  · exact ⟨.cmd, ask (island .config) 0x0b02 [255, 255, 0, 0], mk 0x0b02 [255, 255, 0, 0], [255, 255, 0, 0], 0xFFFF, met⟩

/-- The hypotheses of `Obligations.CaptureRequests`, met leaf by leaf (part 1 of 2). -/
theorem witness_CaptureRequests :
    (∃ (via : Transport) (s : State) (r : Req) (p : Bytes) (k : CapConf), p = reqParams r ∧ s.sys.dev ≠ DevState.boot ∧ Sized s ∧ Takes 0xD00#16 via s r ∧ (s.cap.st = CapState.idle ∨ s.cap.st = CapState.done) ∧ List.length p = 88 ∧ k.mode = n8At p 0 ∧ k.stage = n8At p 1 ∧ k.nTraces = n8At p 2 ∧ k.dtChan = n8At p 3 ∧ k.dec = n16At p 4 ∧ k.ring = n16At p 6 ∧ k.pre = n32At p 8 ∧ k.post = n32At p 12 ∧ k.trigOut = byteAt p 16 ∧ k.port = n8At p 17 ∧ k.udpPort = u16At p 18 ∧ k.session = u32At p 20 ∧ k.terms = [termAt p 24, termAt p 40, termAt p 56, termAt p 72] ∧ k.stage ≤ 7 ∧ 1 ≤ k.nTraces ∧ k.nTraces ≤ 64 ∧ (k.dtChan = 255 ∨ k.dtChan < 96 ∧ (getChan s k.dtChan).role = 1) ∧ 1 ≤ k.dec ∧ 16 ≤ k.ring ∧ k.ring ≤ 1024 ∧ BitVec.toNat k.trigOut < 16 ∧ (∀ i < 4, termOk k.nTraces p (24 + 16 * i) = true) ∧ (k.mode = 0 ∧ k.pre + k.post + 1 ≤ (k.ring - 1) * (1008 / k.nTraces) ∧ k.port = 0 ∧ k.udpPort = 0 ∧ k.session = 0 ∨ k.mode = 1 ∧ k.pre = 0 ∧ k.post = 0 ∧ k.port = 0 ∧ k.udpPort = 0 ∧ k.session = 0 ∨ k.mode = 2 ∧ k.pre = 0 ∧ k.post = 0 ∧ k.port < 2 ∧ 1024 ≤ BitVec.toNat k.udpPort ∧ (findSession (taken s via) k.port k.session).isSome = true))
    ∧ (∃ (via : Transport) (s : State) (r : Req) (p : Bytes) (k : CapConf), p = reqParams r ∧ s.sys.dev ≠ DevState.boot ∧ Sized s ∧ Takes 0xD01#16 via s r ∧ p = [1, 0, 0, 0] ∧ (s.cap.st = CapState.idle ∨ s.cap.st = CapState.done) ∧ s.cap.conf = some k ∧ bytesLost s 42 0 (4096 * k.ring) = false ∧ s.cap.cal = none ∧ pllLocked s 0 = true)
    ∧ (∃ (via : Transport) (s : State) (r : Req) (p : Bytes) (k : CapConf), p = reqParams r ∧ s.sys.dev ≠ DevState.boot ∧ Sized s ∧ Takes 0xD01#16 via s r ∧ p = [1, 0, 0, 0] ∧ (s.cap.st = CapState.armed ∨ s.cap.st = CapState.triggered ∨ s.cap.st = CapState.streaming ∨ (s.cap.st = CapState.idle ∨ s.cap.st = CapState.done) ∧ s.cap.conf = none))
    ∧ (∃ (via : Transport) (s : State) (r : Req) (p : Bytes) (k : CapConf), p = reqParams r ∧ s.sys.dev ≠ DevState.boot ∧ Sized s ∧ Takes 0xD01#16 via s r ∧ p = [1, 0, 0, 0] ∧ (s.cap.st = CapState.idle ∨ s.cap.st = CapState.done) ∧ s.cap.conf = some k ∧ bytesLost s 42 0 (4096 * k.ring) = true)
    ∧ (∃ (via : Transport) (s : State) (r : Req) (p : Bytes), p = reqParams r ∧ s.sys.dev ≠ DevState.boot ∧ Sized s ∧ Takes 0xD01#16 via s r ∧ p = [0, 0, 0, 0] ∧ (s.cap.st = CapState.idle ∨ s.cap.st = CapState.done))
    ∧ (∃ (via : Transport) (s : State) (r : Req) (p : Bytes), p = reqParams r ∧ s.sys.dev ≠ DevState.boot ∧ Sized s ∧ Takes 0xD01#16 via s r ∧ p = [0, 0, 0, 0] ∧ s.cap.st = CapState.shuttingDown)
    ∧ (∃ (via : Transport) (s : State) (r : Req) (p : Bytes), p = reqParams r ∧ s.sys.dev ≠ DevState.boot ∧ Sized s ∧ Takes 0xD01#16 via s r ∧ p = [0, 0, 0, 0] ∧ (s.cap.st = CapState.armed ∨ s.cap.st = CapState.triggered ∨ s.cap.st = CapState.streaming))
    ∧ (∃ (via : Transport) (s : State) (r : Req) (p : Bytes), p = reqParams r ∧ s.sys.dev ≠ DevState.boot ∧ Sized s ∧ Takes 0xD01#16 via s r ∧ p = [2, 0, 0, 0] ∧ (s.cap.st ≠ CapState.armed ∨ ∃ e, some e ∈ s.cap.taken ∧ e.source ≤ 255)) := by
  refine ⟨?_, ?_, ?_, ?_, ?_, ?_, ?_, ?_⟩
  · exact ⟨.cmd, ask (updChan 95 (fun x => { x with role := 1 }) (island .config)) 0x0d00 [0, 7, 64, 95, 1, 0, 0, 4, 240, 59, 0, 0, 0, 0, 0, 0, 15, 0, 0, 0, 0, 0, 0, 0, 1, 63, 0, 0, 0, 0, 128, 63, 0, 0, 0, 0, 0, 0, 0, 0, 5, 0, 0, 0, 0, 0, 128, 191, 0, 0, 0, 64, 0, 0, 0, 0, 6, 3, 0, 0, 0, 0, 0, 0, 0, 0, 0, 0, 0, 0, 0, 0, 0, 0, 0, 0, 0, 0, 0, 0, 0, 0, 0, 0, 0, 0, 0, 0], mk 0x0d00 [0, 7, 64, 95, 1, 0, 0, 4, 240, 59, 0, 0, 0, 0, 0, 0, 15, 0, 0, 0, 0, 0, 0, 0, 1, 63, 0, 0, 0, 0, 128, 63, 0, 0, 0, 0, 0, 0, 0, 0, 5, 0, 0, 0, 0, 0, 128, 191, 0, 0, 0, 64, 0, 0, 0, 0, 6, 3, 0, 0, 0, 0, 0, 0, 0, 0, 0, 0, 0, 0, 0, 0, 0, 0, 0, 0, 0, 0, 0, 0, 0, 0, 0, 0, 0, 0, 0, 0], [0, 7, 64, 95, 1, 0, 0, 4, 240, 59, 0, 0, 0, 0, 0, 0, 15, 0, 0, 0, 0, 0, 0, 0, 1, 63, 0, 0, 0, 0, 128, 63, 0, 0, 0, 0, 0, 0, 0, 0, 5, 0, 0, 0, 0, 0, 128, 191, 0, 0, 0, 64, 0, 0, 0, 0, 6, 3, 0, 0, 0, 0, 0, 0, 0, 0, 0, 0, 0, 0, 0, 0, 0, 0, 0, 0, 0, 0, 0, 0, 0, 0, 0, 0, 0, 0, 0, 0], ({ mode := 0, stage := 7, nTraces := 64, dtChan := 95, dec := 1, ring := 1024, pre := 15344, post := 0, trigOut := 15, port := 0, udpPort := 0, session := 0, terms := [{ kind := 1, index := 63, code := 0, level := 0x3F800000#32, level2 := 0 }, { kind := 5, index := 0, code := 0, level := 0xBF800000#32, level2 := 0x40000000#32 }, { kind := 6, index := 3, code := 0, level := 0, level2 := 0 }, term0] }), met⟩
  · exact ⟨.cmd, ask (capPart .config (fun x => { x with st := .done })) 0x0d01 [1, 0, 0, 0], mk 0x0d01 [1, 0, 0, 0], [1, 0, 0, 0], conf0, met⟩
  · exact ⟨.cmd, ask (capPart .config (fun x => { x with st := .armed })) 0x0D01 [1, 0, 0, 0], mk 0x0D01 [1, 0, 0, 0], [1, 0, 0, 0], conf0, met⟩
  · exact ⟨.cmd, ask ({ (capPart .config (fun x => { x with st := .done })) with rel := { (island .config).rel with rows := [(42, 0, none)] } }) 0x0D01 [1, 0, 0, 0], mk 0x0D01 [1, 0, 0, 0], [1, 0, 0, 0], conf0, met⟩
  · exact ⟨.cmd, ask (capPart .config (fun x => { x with st := .done })) 0x0d01 [0, 0, 0, 0], mk 0x0d01 [0, 0, 0, 0], [0, 0, 0, 0], met⟩
  · exact ⟨.cmd, ask (capPart .config (fun x => { x with st := .shuttingDown })) 0x0D01 [0, 0, 0, 0], mk 0x0D01 [0, 0, 0, 0], [0, 0, 0, 0], met⟩
  · exact ⟨.cmd, ask (capPart .config (fun x => { x with st := .streaming })) 0x0d01 [0, 0, 0, 0], mk 0x0d01 [0, 0, 0, 0], [0, 0, 0, 0], met⟩
  · exact ⟨.cmd, ask (capPart .config (fun x => { x with st := .streaming })) 0x0D01 [2, 0, 0, 0], mk 0x0D01 [2, 0, 0, 0], [2, 0, 0, 0], met, met, met, met, met, Or.inl (by decide +kernel)⟩

/-- The hypotheses of `Obligations.CaptureRequests`, met leaf by leaf (part 2 of 2). -/
theorem witness_CaptureRequests_2 :
    (∃ (via : Transport) (s : State) (r : Req) (p : Bytes), p = reqParams r ∧ s.sys.dev ≠ DevState.boot ∧ Sized s ∧ Takes 0xD01#16 via s r ∧ p = [2, 0, 0, 0] ∧ s.cap.st = CapState.armed ∧ s.cap.trig = none ∧ noneTaken s ∧ rowsEnded s = true)
    ∧ (∃ (via : Transport) (s : State) (r : Req) (p : Bytes), p = reqParams r ∧ s.sys.dev ≠ DevState.boot ∧ Sized s ∧ Takes 0xD01#16 via s r ∧ p = [2, 0, 0, 0] ∧ rowsToCome s ∧ noneTaken s ∧ rowsBefore s (nowFixed s))
    ∧ (∃ (via : Transport) (s : State) (r : Req) (p : Bytes), p = reqParams r ∧ s.sys.dev ≠ DevState.boot ∧ Sized s ∧ Takes 0xD02#16 via s r ∧ List.length p = 8 ∧ zeroAt p 5 3 = true ∧ n8At p 4 = 0)
    ∧ (∃ (via : Transport) (s : State) (r : Req) (p : Bytes) (k : CapConf) (q : U32), p = reqParams r ∧ s.sys.dev ≠ DevState.boot ∧ Sized s ∧ Takes 0xD02#16 via s r ∧ List.length p = 8 ∧ zeroAt p 5 3 = true ∧ n8At p 4 = 1 ∧ s.cap.conf = some k ∧ k.mode = 1 ∧ u32At p 0 = q ∧ BitVec.toNat q < BitVec.toNat s.cap.seq)
    ∧ (∃ (via : Transport) (s : State) (r : Req) (p : Bytes) (line : ℕ) (who : ℕ) (ds : List U16), p = reqParams r ∧ s.sys.dev ≠ DevState.boot ∧ Sized s ∧ Takes 0xD03#16 via s r ∧ (s.cap.st = CapState.idle ∨ s.cap.st = CapState.done) ∧ List.length p = 16 ∧ n8At p 1 = line ∧ line < 4 ∧ n8At p 2 = who ∧ who < 4 ∧ n8At p 3 = 0 ∧ zeroAt p 6 2 = true ∧ n8At p 0 = 0 ∧ n16At p 4 = 0 ∧ ds = [u16At p 8, u16At p 10, u16At p 12, u16At p 14] ∧ (∀ d ∈ ds, BitVec.toNat d ≤ 3200 ∨ d = 0xFFFF#16))
    ∧ (∃ (via : Transport) (s : State) (r : Req) (p : Bytes) (line : ℕ) (who : ℕ) (n : ℕ), p = reqParams r ∧ s.sys.dev ≠ DevState.boot ∧ Sized s ∧ Takes 0xD03#16 via s r ∧ (s.cap.st = CapState.idle ∨ s.cap.st = CapState.done) ∧ List.length p = 16 ∧ n8At p 1 = line ∧ line < 4 ∧ n8At p 2 = who ∧ who < 4 ∧ n8At p 3 = 0 ∧ zeroAt p 6 2 = true ∧ n16At p 4 = n ∧ 16 ≤ n ∧ n ≤ 1024 ∧ s.cap.cal = none ∧ classFull s 0xD03#16 = false ∧ n8At p 0 = 1)
    ∧ (∃ (via : Transport) (s : State) (r : Req) (p : Bytes) (line : ℕ) (who : ℕ) (n : ℕ), p = reqParams r ∧ s.sys.dev ≠ DevState.boot ∧ Sized s ∧ Takes 0xD03#16 via s r ∧ (s.cap.st = CapState.idle ∨ s.cap.st = CapState.done) ∧ List.length p = 16 ∧ n8At p 1 = line ∧ line < 4 ∧ n8At p 2 = who ∧ who < 4 ∧ n8At p 3 = 0 ∧ zeroAt p 6 2 = true ∧ n16At p 4 = n ∧ 16 ≤ n ∧ n ≤ 1024 ∧ s.cap.cal = none ∧ classFull s 0xD03#16 = false ∧ n8At p 0 = 2) := by
  refine ⟨?_, ?_, ?_, ?_, ?_, ?_, ?_⟩
  · exact ⟨.cmd, ask (capPart .config (fun x => { x with st := .armed, rows := 1, paced := true })) 0x0D01 [2, 0, 0, 0], mk 0x0D01 [2, 0, 0, 0], [2, 0, 0, 0], met⟩
  · exact ⟨.cmd, ask (capPart .config (fun x => { x with st := .armed, frames := [(5, 100)] })) 0x0d01 [2, 0, 0, 0], mk 0x0d01 [2, 0, 0, 0], [2, 0, 0, 0], met⟩
  · exact ⟨.cmd, ask (island .config) 0x0d02 [0, 0, 0, 0, 0, 0, 0, 0], mk 0x0d02 [0, 0, 0, 0, 0, 0, 0, 0], [0, 0, 0, 0, 0, 0, 0, 0], met⟩
  · exact ⟨.cmd, ask (capPart .config (fun x => { x with seq := 3 })) 0x0D02 [2, 0, 0, 0, 1, 0, 0, 0], mk 0x0D02 [2, 0, 0, 0, 1, 0, 0, 0], [2, 0, 0, 0, 1, 0, 0, 0], conf0, 2, met⟩
  · exact ⟨.cmd, ask (island .config) 0x0D03 [0, 3, 3, 0, 0, 0, 0, 0, 128, 12, 128, 12, 128, 12, 255, 255], mk 0x0D03 [0, 3, 3, 0, 0, 0, 0, 0, 128, 12, 128, 12, 128, 12, 255, 255], [0, 3, 3, 0, 0, 0, 0, 0, 128, 12, 128, 12, 128, 12, 255, 255], 3, 3, [3200, 3200, 3200, 65535], met⟩
  · exact ⟨.cmd, ask (island .config) 0x0D03 [1, 3, 3, 0, 0, 4, 0, 0, 128, 12, 128, 12, 128, 12, 255, 255], mk 0x0D03 [1, 3, 3, 0, 0, 4, 0, 0, 128, 12, 128, 12, 128, 12, 255, 255], [1, 3, 3, 0, 0, 4, 0, 0, 128, 12, 128, 12, 128, 12, 255, 255], 3, 3, 1024, met⟩
  · exact ⟨.cmd, ask (island .config) 0x0D03 [2, 3, 3, 0, 16, 0, 0, 0, 128, 12, 128, 12, 128, 12, 255, 255], mk 0x0D03 [2, 3, 3, 0, 16, 0, 0, 0, 128, 12, 128, 12, 128, 12, 255, 255], [2, 3, 3, 0, 16, 0, 0, 0, 128, 12, 128, 12, 128, 12, 255, 255], 3, 3, 16, met⟩

/-- The hypotheses of `Obligations.CaptureRowsTriggersAndStreams`, met leaf by leaf (part 1 of 4). -/
theorem witness_CaptureRowsTriggersAndStreams :
    (∃ (s : State), Sized s ∧ memWf s.cap.mem = true ∧ s.cap.frames = [])
    ∧ (∃ (s : State) (f : U32) (i : ℕ) (l : List (U32 × ℕ)), Sized s ∧ memWf s.cap.mem = true ∧ s.cap.frames = (f, i) :: l ∧ rowWaits s f = true)
    ∧ (∃ (s : State) (f : U32) (i : ℕ) (l : List (U32 × ℕ)), Sized s ∧ memWf s.cap.mem = true ∧ s.cap.frames = (f, i) :: l ∧ rowWaits s f = false)
    ∧ (∃ (s : State) (f : U32) (i : ℕ) (l : List (U32 × ℕ)) (k : CapConf) (b : CapBlock) (m : ℕ) (tr : ℕ → U32) (q : U32), Sized s ∧ memWf s.cap.mem = true ∧ s.cap.frames = (f, i) :: l ∧ s.cap.conf = some k ∧ rowWaits s f = false ∧ s.cap.traces.length = 64 ∧ 1 ≤ k.nTraces ∧ k.nTraces ≤ 64 ∧ m = k.dec * s.cap.factor ∧ (∀ x < 64, (tr x = s.cap.traces.getD x 0 ∧ ∀ w ∈ s.cap.writes, w.1 = f → w.2.1 ≠ x) ∨ ∃ w ∈ s.cap.writes, w.1 = f ∧ w.2.1 = x ∧ tr x = w.2.2.2 ∧ ∀ v ∈ s.cap.writes, v.1 = f → v.2.1 = x → v = w) ∧ s.cap.block = some b ∧ (s.cap.st = CapState.streaming ∨ s.cap.st = CapState.shuttingDown) ∧ (∀ x ∈ k.terms, x.kind = 0 ∨ 6 ≤ x.kind) ∧ s.cap.gap = false ∧ b.factor = s.cap.factor ∧ 1 ≤ m ∧ s.cap.trig = none ∧ s.cap.postLeft = none ∧ b.rows + 1 < 1008 / k.nTraces ∧ s.cap.first = some q ∧ (BitVec.toNat (f - q) - 1) / m ≤ BitVec.toNat (s.cap.lastSeen - q) / m)
    ∧ (∃ (s : State) (f : U32) (i : ℕ) (l : List (U32 × ℕ)) (k : CapConf) (b : CapBlock) (m : ℕ) (tr : ℕ → U32) (q : U32), Sized s ∧ memWf s.cap.mem = true ∧ s.cap.frames = (f, i) :: l ∧ s.cap.conf = some k ∧ rowWaits s f = false ∧ s.cap.traces.length = 64 ∧ 1 ≤ k.nTraces ∧ k.nTraces ≤ 64 ∧ m = k.dec * s.cap.factor ∧ (∀ x < 64, (tr x = s.cap.traces.getD x 0 ∧ ∀ w ∈ s.cap.writes, w.1 = f → w.2.1 ≠ x) ∨ ∃ w ∈ s.cap.writes, w.1 = f ∧ w.2.1 = x ∧ tr x = w.2.2.2 ∧ ∀ v ∈ s.cap.writes, v.1 = f → v.2.1 = x → v = w) ∧ s.cap.block = some b ∧ (s.cap.st = CapState.streaming ∨ s.cap.st = CapState.shuttingDown) ∧ (∀ x ∈ k.terms, x.kind = 0 ∨ 6 ≤ x.kind) ∧ 2 ≤ 1008 / k.nTraces ∧ 1 ≤ m ∧ s.cap.trig = none ∧ s.cap.postLeft = none ∧ capFill s.cap + 1 < s.cap.ring ∧ s.cap.first = some q ∧ BitVec.toNat (f - q) % m = 0 ∧ BitVec.toNat (s.cap.lastSeen - q) / m < (BitVec.toNat (f - q) - 1) / m)
    ∧ (∃ (s : State) (f : U32) (i : ℕ) (l : List (U32 × ℕ)) (k : CapConf) (b : CapBlock) (m : ℕ) (tr : ℕ → U32) (q : U32), Sized s ∧ memWf s.cap.mem = true ∧ s.cap.frames = (f, i) :: l ∧ s.cap.conf = some k ∧ rowWaits s f = false ∧ s.cap.traces.length = 64 ∧ 1 ≤ k.nTraces ∧ k.nTraces ≤ 64 ∧ m = k.dec * s.cap.factor ∧ (∀ x < 64, (tr x = s.cap.traces.getD x 0 ∧ ∀ w ∈ s.cap.writes, w.1 = f → w.2.1 ≠ x) ∨ ∃ w ∈ s.cap.writes, w.1 = f ∧ w.2.1 = x ∧ tr x = w.2.2.2 ∧ ∀ v ∈ s.cap.writes, v.1 = f → v.2.1 = x → v = w) ∧ s.cap.block = some b ∧ (s.cap.st = CapState.streaming ∨ s.cap.st = CapState.shuttingDown) ∧ (∀ x ∈ k.terms, x.kind = 0 ∨ 6 ≤ x.kind) ∧ 1 ≤ m ∧ s.cap.first = some q ∧ BitVec.toNat (f - q) % m ≠ 0 ∧ BitVec.toNat (s.cap.lastSeen - q) / m < (BitVec.toNat (f - q) - 1) / m)
    ∧ (∃ (s : State) (f : U32) (i : ℕ) (l : List (U32 × ℕ)) (k : CapConf) (b : CapBlock) (tr : ℕ → U32) (x : CapTerm) (rest : List CapTerm), Sized s ∧ memWf s.cap.mem = true ∧ s.cap.frames = (f, i) :: l ∧ s.cap.conf = some k ∧ rowWaits s f = false ∧ s.cap.traces.length = 64 ∧ 1 ≤ k.nTraces ∧ k.nTraces ≤ 64 ∧ (∀ x < 64, (tr x = s.cap.traces.getD x 0 ∧ ∀ w ∈ s.cap.writes, w.1 = f → w.2.1 ≠ x) ∨ ∃ w ∈ s.cap.writes, w.1 = f ∧ w.2.1 = x ∧ tr x = w.2.2.2 ∧ ∀ v ∈ s.cap.writes, v.1 = f → v.2.1 = x → v = w) ∧ s.cap.block = some b ∧ k.terms = x :: rest ∧ s.cap.st = CapState.armed ∧ s.cap.trig = none ∧ noneTaken s ∧ x.index < 64 ∧ (x.kind = 1 ∧ anyLe x.level (tr x.index) = true ∨ x.kind = 2 ∧ anyLe (tr x.index) x.level = true ∨ x.kind = 5 ∧ (anyLt (tr x.index) x.level = true ∨ anyLt x.level2 (tr x.index) = true)) ∧ heldLine s = none)
    ∧ (∃ (s : State) (f : U32) (i : ℕ) (l : List (U32 × ℕ)) (k : CapConf) (b : CapBlock) (tr : ℕ → U32) (x : CapTerm) (rest : List CapTerm) (j : ℕ), Sized s ∧ memWf s.cap.mem = true ∧ s.cap.frames = (f, i) :: l ∧ s.cap.conf = some k ∧ rowWaits s f = false ∧ s.cap.traces.length = 64 ∧ 1 ≤ k.nTraces ∧ k.nTraces ≤ 64 ∧ (∀ x < 64, (tr x = s.cap.traces.getD x 0 ∧ ∀ w ∈ s.cap.writes, w.1 = f → w.2.1 ≠ x) ∨ ∃ w ∈ s.cap.writes, w.1 = f ∧ w.2.1 = x ∧ tr x = w.2.2.2 ∧ ∀ v ∈ s.cap.writes, v.1 = f → v.2.1 = x → v = w) ∧ s.cap.block = some b ∧ k.terms = x :: rest ∧ s.cap.st = CapState.armed ∧ s.cap.trig = none ∧ noneTaken s ∧ x.index < 64 ∧ (x.kind = 1 ∧ anyLe x.level (tr x.index) = true ∨ x.kind = 2 ∧ anyLe (tr x.index) x.level = true ∨ x.kind = 5 ∧ (anyLt (tr x.index) x.level = true ∨ anyLt x.level2 (tr x.index) = true)) ∧ heldLine s = some j ∧ s.cap.taken.length = 4) := by
  refine ⟨?_, ?_, ?_, ?_, ?_, ?_, ?_, ?_⟩
  · exact ⟨(island .run), met⟩
  · exact ⟨{ rowPart .streaming conf0 with loop := { (running7 [{ in0 .effectWait with effect := true }] id).loop with mem := memWriteBytes gmem 67 [0x44] } }, 5, 100, [], met⟩
  · exact ⟨rowPart .streaming conf0, 5, 100, [], met⟩
  · exact ⟨rowPart .streaming conf0, 5, 100, [], conf0, blk0, 1, (fun x => if x = 0 then 0x3F800000#32 else 0), 5, met⟩
  · exact ⟨updCap (fun x => { x with lastSeen := 4, first := some 4, frames := [(7, 100)], writes := [(7, 0, 0, 0x3F800000#32)] }) (rowPart .streaming conf0), 7, 100, [], conf0, blk0, 1, (fun x => if x = 0 then 0x3F800000#32 else 0), 4, met⟩
  · exact ⟨updCap (fun x => { x with lastSeen := 4, first := some 4, factor := 2, frames := [(7, 100)], writes := [(7, 0, 0, 0x3F800000#32)] }) (rowPart .streaming conf0), 7, 100, [], conf0, blk0, 2, (fun x => if x = 0 then 0x3F800000#32 else 0), 4, met⟩
  · exact ⟨rowPart .armed ({ conf0 with terms := [{ term0 with kind := 1, level := 0x3F800000#32 }] }), 5, 100, [], { conf0 with terms := [{ term0 with kind := 1, level := 0x3F800000#32 }] }, blk0, (fun x => if x = 0 then 0x3F800000#32 else 0), { term0 with kind := 1, level := 0x3F800000#32 }, [], met⟩
  · exact ⟨updCap (fun x => { x with fall := [none, none, none, some 5] }) (rowPart .armed ({ conf0 with terms := [{ term0 with kind := 1, level := 0x3F800000#32 }], trigOut := 8 })), 5, 100, [], { conf0 with terms := [{ term0 with kind := 1, level := 0x3F800000#32 }], trigOut := 8 }, blk0, (fun x => if x = 0 then 0x3F800000#32 else 0), { term0 with kind := 1, level := 0x3F800000#32 }, [], 3, met⟩

/-- The hypotheses of `Obligations.CaptureRowsTriggersAndStreams`, met leaf by leaf (part 2 of 4). -/
theorem witness_CaptureRowsTriggersAndStreams_2 :
    (∃ (s : State) (line : ℕ), Sized s ∧ memWf s.cap.mem = true ∧ line < 4 ∧ s.cap.fall.getD line none = none ∧ s.time.raw < s.cap.holdoff.getD line 0)
    ∧ (∃ (s : State) (line : ℕ) (k : TrigCal), Sized s ∧ memWf s.cap.mem = true ∧ line < 4 ∧ s.cap.fall.getD line none = none ∧ s.cap.holdoff.getD line 0 ≤ s.time.raw ∧ s.cap.cal = some k ∧ k.initiate = false ∧ k.line = line)
    ∧ (∃ (s : State) (line : ℕ), Sized s ∧ memWf s.cap.mem = true ∧ line < 4 ∧ s.cap.fall.getD line none = none ∧ s.cap.holdoff.getD line 0 ≤ s.time.raw ∧ (∀ (k : TrigCal), s.cap.cal = some k → k.initiate = true ∨ k.line ≠ line) ∧ (s.cap.st ≠ CapState.armed ∧ s.cap.st ≠ CapState.streaming ∧ s.cap.st ≠ CapState.triggered ∨ (s.cap.st = CapState.armed ∧ ∃ e, some e ∈ s.cap.taken ∧ hostCycle s e.at_ ≠ hostCycle s s.time.raw) ∨ ∀ x ∈ (capConf s).terms, x.kind ≠ 6 ∨ x.index ≠ line))
    ∧ (∃ (s : State) (line : ℕ) (x : CapTerm) (rest : List CapTerm), Sized s ∧ memWf s.cap.mem = true ∧ line < 4 ∧ s.cap.fall.getD line none = none ∧ s.cap.holdoff.getD line 0 ≤ s.time.raw ∧ (∀ (k : TrigCal), s.cap.cal = some k → k.initiate = true ∨ k.line ≠ line) ∧ noneTaken s ∧ (capConf s).terms = x :: rest ∧ x.kind = 6 ∧ x.index = line ∧ (s.cap.st = CapState.armed ∨ s.cap.st = CapState.streaming) ∧ (s.cap.trig = none ∨ together s = false))
    ∧ (∃ (s : State) (line : ℕ) (x : CapTerm) (rest : List CapTerm) (t : CapTrig), Sized s ∧ memWf s.cap.mem = true ∧ line < 4 ∧ s.cap.fall.getD line none = none ∧ s.cap.holdoff.getD line 0 ≤ s.time.raw ∧ (∀ (k : TrigCal), s.cap.cal = some k → k.initiate = true ∨ k.line ≠ line) ∧ noneTaken s ∧ (capConf s).terms = x :: rest ∧ x.kind = 6 ∧ x.index = line ∧ s.cap.st = CapState.triggered ∧ together s = true ∧ s.cap.trig = some t ∧ 0 < t.source)
    ∧ (∃ (s : State) (line : ℕ) (e : ℕ), Sized s ∧ memWf s.cap.mem = true ∧ line < 4 ∧ s.cap.fall.getD line none = some e ∧ s.time.raw - e < 5)
    ∧ (∃ (s : State) (line : ℕ) (e : ℕ), Sized s ∧ memWf s.cap.mem = true ∧ line < 4 ∧ s.cap.fall.getD line none = some e ∧ 5 ≤ s.time.raw - e ∧ s.cap.taken.getD line none = none)
    ∧ (∃ (s : State) (line : ℕ) (e : ℕ) (x : CapEdge) (j : ℕ) (d : U16) (at_ : ℤ), Sized s ∧ memWf s.cap.mem = true ∧ line < 4 ∧ s.cap.fall.getD line none = some e ∧ s.cap.taken.getD line none = some x ∧ x.was = none ∧ (∀ o ∈ upd s.cap.taken line fun x => none, o = none) ∧ rowsToCome s ∧ j < 4 ∧ 85 + 40 * j ≤ s.time.raw - e ∧ s.time.raw - e ≤ 115 + 40 * j ∧ (s.cap.delays.getD line []).getD j 0xFFFF#16 = d ∧ d ≠ 0xFFFF#16 ∧ at_ = activeAt s.time e - ↑(BitVec.toNat d) * 2 ^ 28 ∧ rowsBefore s at_) := by
  refine ⟨?_, ?_, ?_, ?_, ?_, ?_, ?_, ?_⟩
  · exact ⟨capPart .config (fun x => { x with holdoff := [9, 9, 9, 9] }), 3, met⟩
  · exact ⟨capPart .config (fun x => { x with cal := some { cal0 with line := 3 } }), 3, { cal0 with line := 3 }, met⟩
  · exact ⟨capPart .config id, 3, met, met, met, met, met, met, Or.inl (by decide +kernel)⟩
  · exact ⟨updCap (fun x => { x with conf := some { conf0 with terms := [{ term0 with kind := 6, index := 3 }] }, st := .armed, frames := [(5, 100)] }) (island .run), 3, { term0 with kind := 6, index := 3 }, [], met⟩
  · exact ⟨updCap (fun x => { x with conf := some { conf0 with terms := [{ term0 with kind := 6, index := 3 }] }, st := .triggered, frames := [(5, 100)], triggers := 1, trig := some ({ at_ := 0, source := 1, driver := 0, unknown := false } : CapTrig) }) (island .run), 3, { term0 with kind := 6, index := 3 }, [], ({ at_ := 0, source := 1, driver := 0, unknown := false } : CapTrig), met⟩
  · exact ⟨capPart .config (fun x => { x with fall := [none, none, none, some 5] }), 3, 5, met⟩
  · exact ⟨(let s := capPart .config (fun x => { x with fall := [none, none, none, some 5] }); { s with time := { s.time with raw := 300 } }), 3, 5, met⟩
  · exact ⟨updCap (fun x => { x with conf := some { conf0 with terms := [{ term0 with kind := 6, index := 3 }] }, st := .armed, frames := [(5, 100)], fall := [none, none, none, some 65], taken := [none, none, none, some ({ source := 0, at_ := 65, was := none } : CapEdge)], delays := List.replicate 4 [1, 2, 3, 3200] }) { island .run with time := { (island .run).time with raw := 300 } }, 3, 65, ({ source := 0, at_ := 65, was := none } : CapEdge), 3, 3200, activeAt (island .run).time 65 - 3200 * 2 ^ 28, met⟩

/-- The hypotheses of `Obligations.CaptureRowsTriggersAndStreams`, met leaf by leaf (part 3 of 4). -/
theorem witness_CaptureRowsTriggersAndStreams_3 :
    (∃ (s : State) (line : ℕ), Sized s ∧ memWf s.cap.mem = true ∧ s.cap.drives.getD line none = none)
    ∧ (∃ (s : State) (line : ℕ) (a : ℕ) (i : ℕ), Sized s ∧ memWf s.cap.mem = true ∧ s.cap.drives.getD line none = some (a, i) ∧ (∀ (k : TrigCal), s.cap.cal = some k → k.initiate = false ∨ k.line ≠ line ∨ k.reps ≤ k.count))
    ∧ (∃ (s : State) (line : ℕ) (a : ℕ) (i : ℕ) (k : TrigCal), Sized s ∧ memWf s.cap.mem = true ∧ s.cap.drives.getD line none = some (a, i) ∧ line < 4 ∧ s.cap.cal = some k ∧ k.initiate = true ∧ k.line = line ∧ k.count < k.reps)
    ∧ (∃ (s : State) (a : F32) (b : F32) (c : F32) (d : Bool), Sized s ∧ memWf s.cap.mem = true ∧ s.cap.cal = none)
    ∧ (∃ (s : State) (c : TrigCal), Sized s ∧ memWf s.cap.mem = true ∧ s.cap.cal = some c ∧ (c.initiate = true ∨ c.reps ≤ c.count ∨ c.edge = none))
    ∧ (∃ (s : State) (c : TrigCal) (rt : F32) (own : F32) (spread : F32) (un : Bool), Sized s ∧ memWf s.cap.mem = true ∧ s.cap.cal = some c ∧ c.initiate = false ∧ c.count < c.reps)
    ∧ (∃ (s : State) (c : TrigCal) (e : ℕ), Sized s ∧ memWf s.cap.mem = true ∧ s.cap.cal = some c ∧ c.initiate = false ∧ c.count < c.reps ∧ c.edge = some e)
    ∧ (∃ (s : State) (c : TrigCal) (rt : F32) (own : F32) (spread : F32), Sized s ∧ memWf s.cap.mem = true ∧ s.cap.cal = some c ∧ c.initiate = true ∧ c.count < c.reps) := by
  refine ⟨?_, ?_, ?_, ?_, ?_, ?_, ?_, ?_⟩
  · exact ⟨(island .run), 3, met⟩
  · exact ⟨capPart .config (fun x => { x with drives := [none, none, none, some (8, 9)] }), 3, 8, 9, met⟩
  · exact ⟨capPart .config (fun x => { x with drives := [none, none, none, some (8, 9)], cal := some { cal0 with initiate := true, line := 3 } }), 3, 8, 9, { cal0 with initiate := true, line := 3 }, met⟩
  · exact ⟨island .run, 0, 0, 0, false, met⟩
  · exact ⟨(capPart .config (fun x => { x with cal := some { cal0 with initiate := true } })), ({ cal0 with initiate := true }), met⟩
  · exact ⟨capPart .config (fun x => { x with cal := some cal0 }), cal0, 0, 0, 0, false, met⟩
  · exact ⟨capPart .config (fun x => { x with cal := some { cal0 with edge := some 5 } }), { cal0 with edge := some 5 }, 5, met⟩
  · exact ⟨(capPart .config (fun x => { x with cal := some { cal0 with initiate := true } })), ({ cal0 with initiate := true }), 0, 0, 0x40800001#32, met⟩

/-- The hypotheses of `Obligations.CaptureRowsTriggersAndStreams`, met leaf by leaf (part 4 of 4). -/
theorem witness_CaptureRowsTriggersAndStreams_4 :
    (∃ (s : State) (c : TrigCal) (rt : F32) (own : F32) (spread : F32) (un : Bool), Sized s ∧ memWf s.cap.mem = true ∧ s.cap.cal = some c ∧ c.initiate = true ∧ (un = true ∨ c.reps ≤ c.count))
    ∧ (∃ (s : State) (c : TrigCal) (rt : F32) (own : F32) (spread : F32) (un : Bool), Sized s ∧ memWf s.cap.mem = true ∧ s.cap.cal = some c ∧ c.initiate = false ∧ c.count = c.reps)
    ∧ (∃ (s : State) (k : CapConf) (x : Session) (e : EthPort), Sized s ∧ memWf s.cap.mem = true ∧ s.cap.conf = some k ∧ k.mode = 2 ∧ s.cap.st = CapState.streaming ∧ 1 ≤ capFill s.cap ∧ findSession s k.port k.session = some x ∧ s.eth[k.port]? = some e ∧ e.enable = true ∧ e.link = true ∧ s.time.onFallback.getD 4 true = false)
    ∧ (∃ (s : State) (k : CapConf), Sized s ∧ memWf s.cap.mem = true ∧ k = capConf s ∧ (k.mode ≠ 2 ∨ capArmed s = false ∨ capFill s.cap = 0 ∨ findSession s k.port k.session = none))
    ∧ (∃ (s : State) (k : CapConf), Sized s ∧ memWf s.cap.mem = true ∧ k = capConf s ∧ k.mode = 2 ∧ capArmed s = true ∧ 1 ≤ capFill s.cap ∧ (findSession s k.port k.session).isSome = true)
    ∧ (∃ (s : State), Sized s ∧ memWf s.cap.mem = true ∧ (s.cap.st ≠ CapState.shuttingDown ∨ s.cap.frames ≠ []))
    ∧ (∃ (s : State), Sized s ∧ memWf s.cap.mem = true ∧ s.cap.st = CapState.shuttingDown ∧ s.cap.frames = [] ∧ s.cap.block = none)
    ∧ (∃ (s : State), Sized s ∧ memWf s.cap.mem = true ∧ s.cap.st = CapState.shuttingDown ∧ s.cap.frames = [] ∧ s.cap.block ≠ none) := by
  refine ⟨?_, ?_, ?_, ?_, ?_, ?_, ?_, ?_⟩
  · exact ⟨(capPart .config (fun x => { x with cal := some { cal0 with initiate := true } })), ({ cal0 with initiate := true }), 0, 0, 0x40800001#32, true, met⟩
  · exact ⟨(capPart .config (fun x => { x with cal := some { cal0 with count := 16 } })), ({ cal0 with count := 16 }), 0, 0, 0, false, met⟩
  · exact ⟨updCap (fun x => { x with conf := some { conf0 with mode := 2, session := 7 }, st := .streaming, seq := 1 }) sessState, { conf0 with mode := 2, session := 7 }, sess1, { eth0 with enable := true, link := true }, met⟩
  · exact ⟨island .run, capConf (island .run), met⟩
  · exact ⟨updCap (fun x => { x with conf := some { conf0 with mode := 2, session := 7 }, st := .streaming, seq := 1 }) sessState, { conf0 with mode := 2, session := 7 }, met⟩
  · exact ⟨(capPart .config (fun x => { x with cal := some cal0 })), met⟩
  · exact ⟨(capPart .config (fun x => { x with st := .shuttingDown })), met⟩
  · exact ⟨(capPart .config (fun x => { x with st := .shuttingDown, block := some blk0 })), met⟩

/-- The hypotheses of `Obligations.SageMeasuresPulsesAndKeepsTime`, met leaf by leaf (part 1 of 4). -/
theorem witness_SageMeasuresPulsesAndKeepsTime :
    (∃ (s : State) (bits : List (List Bool)), Sized s ∧ sageRuns s = false)
    ∧ (∃ (s : State) (bits : List (List Bool)), Sized s ∧ sageRuns s = true ∧ s.sage.ticks ≤ (s.sage.windowStart / 19660800 + 1) * 19660800)
    ∧ (∃ (s : State) (c : ℕ) (v : F32) (held : ℕ) (bits : List (List Bool)), Sized s ∧ (s.sage.supplyWarn = true ∨ f32Bad v = true ∨ 295 / 100 < f32Val v ∨ held < 1000))
    ∧ (∃ (s : State) (c : ℕ) (v : F32) (held : ℕ) (bits : List (List Bool)), Sized s ∧ s.sage.supplyWarn = false ∧ f32Bad v = false ∧ f32Val v ≤ 295 / 100 ∧ 1000 ≤ held ∧ s.sage.phase = SagePhase.inReset)
    ∧ (∃ (s : State) (c : ℕ) (v : F32) (held : ℕ) (bits : List (List Bool)), Sized s ∧ s.sage.supplyWarn = false ∧ f32Bad v = false ∧ f32Val v ≤ 295 / 100 ∧ 1000 ≤ held ∧ s.sage.phase ≠ SagePhase.inReset)
    ∧ (∃ (s : State) (v : F32) (held : ℕ), Sized s)
    ∧ (∃ (s : State), Sized s ∧ s.sage.phase = SagePhase.released) := by
  refine ⟨?_, ?_, ?_, ?_, ?_, ?_, ?_⟩
  · exact ⟨(island .config), bits0, met⟩
  · exact ⟨sagePart id, bits0, met⟩
  · exact ⟨(sagePart (fun x => { x with supplyWarn := true })), 5, 0, 0, bits0, met⟩
  · exact ⟨updSage (fun x => { x with phase := .inReset }) (island .config), 5, 0x40000000#32, 1000, bits0, met⟩
  · exact ⟨sagePart id, 5, 0x40000000#32, 1000, bits0, met⟩
  · exact ⟨(sagePart (fun x => { x with supplyWarn := true })), 0, 0, met⟩
  · exact ⟨(sagePart (fun x => { x with phase := .released })), met⟩

/-- The hypotheses of `Obligations.SageMeasuresPulsesAndKeepsTime`, met leaf by leaf (part 2 of 4). -/
theorem witness_SageMeasuresPulsesAndKeepsTime_2 :
    (∃ (s : State), Sized s ∧ s.sage.phase ≠ SagePhase.released)
    ∧ (∃ (s : State), Sized s ∧ (s.sage.phase = SagePhase.inReset ∨ s.sage.clockFail = true))
    ∧ (∃ (s : State), Sized s ∧ s.sage.phase ≠ SagePhase.inReset ∧ s.sage.clockFail = false)
    ∧ (∃ (s : State), Sized s ∧ s.sage.clockFail = false)
    ∧ (∃ (s : State), Sized s ∧ s.sage.clockFail = true)
    ∧ (∃ (s : State) (b : Bytes) (c : ℕ), Sized s ∧ s.sage.params = some b ∧ n32At b 4 = c ∧ 0 < c ∧ s.sage.phase = SagePhase.metering ∧ s.sage.clockFail = false ∧ s.sage.pulse = false ∧ s.sage.pulseOn = true ∧ s.sage.pulseStops = false ∧ s.sage.pulseAcc * c < 1000000 * 2 ^ 32)
    ∧ (∃ (s : State) (b : Bytes) (c : ℕ), Sized s ∧ s.sage.params = some b ∧ n32At b 4 = c ∧ 0 < c ∧ s.sage.phase = SagePhase.metering ∧ s.sage.clockFail = false ∧ s.sage.pulse = false ∧ s.sage.pulseOn = true ∧ s.sage.pulseStops = false ∧ 1000000 * 2 ^ 32 ≤ s.sage.pulseAcc * c) := by
  refine ⟨?_, ?_, ?_, ?_, ?_, ?_, ?_⟩
  · exact ⟨sagePart id, met⟩
  · exact ⟨(sagePart (fun x => { x with clockFail := true })), met⟩
  · exact ⟨sagePart id, met⟩
  · exact ⟨sagePart id, met⟩
  · exact ⟨(sagePart (fun x => { x with clockFail := true })), met⟩
  · exact ⟨sagePart (fun x => { x with params := some sblk, pulseOn := true }), sblk, 1, met⟩
  · exact ⟨sagePart (fun x => { x with params := some sblk, pulseOn := true, pulseAcc := 1000000 * 2 ^ 32 }), sblk, 1, met⟩

/-- The hypotheses of `Obligations.SageMeasuresPulsesAndKeepsTime`, met leaf by leaf (part 3 of 4). -/
theorem witness_SageMeasuresPulsesAndKeepsTime_3 :
    (∃ (s : State) (b : Bytes) (c : ℕ) (i : ℕ), Sized s ∧ s.sage.params = some b ∧ n32At b 4 = c ∧ 0 < c ∧ s.sage.phase = SagePhase.metering ∧ s.sage.clockFail = false ∧ s.sage.pulse = true ∧ s.sage.pulseStart = some i)
    ∧ (∃ (s : State), Sized s ∧ (s.sage.params = none ∨ s.sage.phase ≠ SagePhase.metering ∨ s.sage.clockFail = true ∨ s.sage.pulseOn = false ∨ s.sage.pulseStops = true ∨ s.sage.pulse = true))
    ∧ (∃ (s : State), Sized s ∧ (s.sage.pulse = false ∨ s.sage.params = none ∨ s.sage.pulseStart = none))
    ∧ (∃ (s : State), Sized s ∧ (sageRuns s = false ∨ s.sage.hostActive = true ∨ s.sage.hostEnded = true ∨ s.sage.ticks ≤ s.sage.lastActive))
    ∧ (∃ (s : State), Sized s ∧ sageRuns s = true ∧ s.sage.hostActive = false ∧ s.sage.hostEnded = false ∧ s.sage.lastActive < s.sage.ticks)
    ∧ (∃ (s : State) (found : Bool), Sized s ∧ (s.sage.phase ≠ SagePhase.metering ∨ s.sage.retention = false))
    ∧ (∃ (s : State) (found : Bool), Sized s ∧ s.sage.phase = SagePhase.metering ∧ s.sage.retention = true) := by
  refine ⟨?_, ?_, ?_, ?_, ?_, ?_, ?_⟩
  · exact ⟨sagePart (fun x => { x with params := some sblk, pulseOn := true, pulse := true, pulseStart := some 7 }), sblk, 1, 7, met⟩
  · exact ⟨sagePart id, met⟩
  · exact ⟨(island .config), met⟩
  · exact ⟨(sagePart (fun x => { x with clockFail := true })), met⟩
  · exact ⟨(sagePart (fun x => { x with ticks := 5 })), met⟩
  · exact ⟨sagePart id, true, met⟩
  · exact ⟨(sagePart (fun x => { x with retention := true })), true, met⟩

/-- The hypotheses of `Obligations.SageMeasuresPulsesAndKeepsTime`, met leaf by leaf (part 4 of 4). -/
theorem witness_SageMeasuresPulsesAndKeepsTime_4 :
    (∃ (s : State) (c : ℕ), Sized s ∧ (s.sage.phase = SagePhase.inReset ∨ s.sys.phase = BootPhase.inReset))
    ∧ (∃ (s : State), Sized s ∧ s.sys.phase = BootPhase.inReset)
    ∧ (∃ (s : State), Sized s ∧ s.sys.phase ≠ BootPhase.inReset)
    ∧ (∃ (s : State) (c : ℕ), Sized s ∧ s.sage.phase ≠ SagePhase.inReset ∧ s.sys.phase ≠ BootPhase.inReset ∧ s.sage.setTime = [])
    ∧ (∃ (s : State) (c : ℕ) (u : State) (d : ℕ) (i : ℤ) (off : ℤ), Sized s ∧ s.sage.phase ≠ SagePhase.inReset ∧ s.sys.phase ≠ BootPhase.inReset ∧ u = { s with sage := { ranTo c s with fromCrystal := false, setTime := [] } } ∧ s.sage.setTime = [d] ∧ i = domTime (getTd s d) s.time.raw / ns1 ∧ off = i - ↑(sageNs u) ∧ -2000000000 ≤ off ∧ off ≤ 2000000000)
    ∧ (∃ (s : State) (c : ℕ) (u : State) (d : ℕ) (i : ℤ) (off : ℤ) (l : ℕ), Sized s ∧ s.sage.phase ≠ SagePhase.inReset ∧ s.sys.phase ≠ BootPhase.inReset ∧ u = { s with sage := { ranTo c s with fromCrystal := false, setTime := [] } } ∧ s.sage.setTime = [d] ∧ i = domTime (getTd s d) s.time.raw / ns1 ∧ off = i - ↑(sageNs u) ∧ (off < -2000000000 ∨ 2000000000 < off) ∧ s.sage.sealState = SealState.isSealed ∧ s.sage.lastStep = some l ∧ sageNs u < l + 86400000000000)
    ∧ (∃ (s : State) (c : ℕ) (u : State) (d : ℕ) (i : ℤ) (off : ℤ), Sized s ∧ s.sage.phase ≠ SagePhase.inReset ∧ s.sys.phase ≠ BootPhase.inReset ∧ u = { s with sage := { ranTo c s with fromCrystal := false, setTime := [] } } ∧ s.sage.setTime = [d] ∧ i = domTime (getTd s d) s.time.raw / ns1 ∧ off = i - ↑(sageNs u) ∧ (off < -2000000000 ∨ 2000000000 < off) ∧ (s.sage.sealState ≠ SealState.isSealed ∨ s.sage.lastStep = none ∨ ∃ l, s.sage.lastStep = some l ∧ l + 86400000000000 ≤ sageNs u) ∧ 0 ≤ i ∧ s.sage.signing = []) := by
  refine ⟨?_, ?_, ?_, ?_, ?_, ?_, ?_⟩
  · exact ⟨(island .config), 5, met⟩
  · exact ⟨State.reset, met⟩
  · exact ⟨(island .config), met⟩
  · exact ⟨sagePart id, 5, met⟩
  · exact ⟨sagePart (fun x => { x with setTime := [0] }), 0, { (sagePart (fun x => { x with setTime := [0] })) with sage := { ranTo 0 (sagePart (fun x => { x with setTime := [0] })) with fromCrystal := false, setTime := [] } }, 0, 0, 0, met⟩
  · exact ⟨sagePart (fun x => { x with setTime := [0], sealState := .isSealed, time := 3000000000 * 24576, lastStep := some 2999999999 }), 0, { (sagePart (fun x => { x with setTime := [0], sealState := .isSealed, time := 3000000000 * 24576, lastStep := some 2999999999 })) with sage := { ranTo 0 (sagePart (fun x => { x with setTime := [0], sealState := .isSealed, time := 3000000000 * 24576, lastStep := some 2999999999 })) with fromCrystal := false, setTime := [] } }, 0, 0, -3000000000, 2999999999, met⟩
  · exact ⟨sagePart (fun x => { x with setTime := [0], time := 3000000000 * 24576 }), 0, { (sagePart (fun x => { x with setTime := [0], time := 3000000000 * 24576 })) with sage := { ranTo 0 (sagePart (fun x => { x with setTime := [0], time := 3000000000 * 24576 })) with fromCrystal := false, setTime := [] } }, 0, 0, -3000000000, met⟩

/-- The hypotheses of `Obligations.SageResetsSignsAndRestores`, met leaf by leaf (part 1 of 4). -/
theorem witness_SageResetsSignsAndRestores :
    (∃ (s : State) (x : ℕ → Option SealOp → SealState → Sage) (v : F32) (held : ℕ), Sized s ∧ (∀ (cause : ℕ) (op : Option SealOp) (goal : SealState), x cause op goal = { sage0 with resetCause := cause, sealWas := s.sage.sealState, supplyWarn := s.sage.supplyWarn, hostActive := s.sage.hostActive, status := s.sage.status, sealState := goal, sealOp := op }) ∧ f32Bad v = false ∧ f32Val v ≤ 27 / 10 ∧ 1000 ≤ held ∧ s.sys.longs = [] ∧ s.sage.sealOp ≠ some SealOp.breakLifecycle)
    ∧ (∃ (s : State) (x : ℕ → Option SealOp → SealState → Sage) (v : F32) (held : ℕ), Sized s ∧ (∀ (cause : ℕ) (op : Option SealOp) (goal : SealState), x cause op goal = { sage0 with resetCause := cause, sealWas := s.sage.sealState, supplyWarn := s.sage.supplyWarn, hostActive := s.sage.hostActive, status := s.sage.status, sealState := goal, sealOp := op }) ∧ f32Bad v = false ∧ f32Val v ≤ 27 / 10 ∧ 1000 ≤ held ∧ s.sys.longs = [] ∧ s.sage.sealOp = some SealOp.breakLifecycle)
    ∧ (∃ (s : State) (x : ℕ → Option SealOp → SealState → Sage) (v : F32) (held : ℕ) (l : LongOp), Sized s ∧ (∀ (cause : ℕ) (op : Option SealOp) (goal : SealState), x cause op goal = { sage0 with resetCause := cause, sealWas := s.sage.sealState, supplyWarn := s.sage.supplyWarn, hostActive := s.sage.hostActive, status := s.sage.status, sealState := goal, sealOp := op }) ∧ f32Bad v = false ∧ f32Val v ≤ 27 / 10 ∧ 1000 ≤ held ∧ s.sys.longs = [l] ∧ l.result = none ∧ opClass l.owed.opcode = 14 ∧ s.sage.sealOp ≠ some SealOp.breakLifecycle)
    ∧ (∃ (s : State) (x : ℕ → Option SealOp → SealState → Sage) (v : F32) (held : ℕ), Sized s ∧ (∀ (cause : ℕ) (op : Option SealOp) (goal : SealState), x cause op goal = { sage0 with resetCause := cause, sealWas := s.sage.sealState, supplyWarn := s.sage.supplyWarn, hostActive := s.sage.hostActive, status := s.sage.status, sealState := goal, sealOp := op }) ∧ s.sys.longs = [] ∧ (s.sage.sealOp = some SealOp.breakToken ∨ s.sage.sealOp = some SealOp.breakLifecycle))
    ∧ (∃ (s : State) (x : ℕ → Option SealOp → SealState → Sage) (v : F32) (held : ℕ) (g : ℕ) (p : Bytes) (h : Bytes) (a : Bytes), Sized s ∧ (∀ (cause : ℕ) (op : Option SealOp) (goal : SealState), x cause op goal = { sage0 with resetCause := cause, sealWas := s.sage.sealState, supplyWarn := s.sage.supplyWarn, hostActive := s.sage.hostActive, status := s.sage.status, sealState := goal, sealOp := op }) ∧ s.sys.longs = [] ∧ g < 4 ∧ s.sage.sealOp = some (SealOp.newSeal g p h a) ∧ memWf s.rel.otp = true)
    ∧ (∃ (s : State) (v : F32) (held : ℕ), Sized s ∧ s.sage.sealOp = none)
    ∧ (∃ (s : State) (v : F32) (held : ℕ), Sized s ∧ (f32Bad v = true ∨ 27 / 10 < f32Val v ∨ held < 1000)) := by
  refine ⟨?_, ?_, ?_, ?_, ?_, ?_, ?_⟩
  · exact ⟨(sagePart id), (fun cause op goal => { sage0 with resetCause := cause, sealWas := ((sagePart id)).sage.sealState, supplyWarn := ((sagePart id)).sage.supplyWarn, hostActive := ((sagePart id)).sage.hostActive, status := ((sagePart id)).sage.status, sealState := goal, sealOp := op }), 0x40000000#32, 1000, met, fun _ _ _ => rfl, met, met, met, met, met⟩
  · exact ⟨(sagePart (fun x => { x with sealOp := some .breakLifecycle })), (fun cause op goal => { sage0 with resetCause := cause, sealWas := ((sagePart (fun x => { x with sealOp := some .breakLifecycle }))).sage.sealState, supplyWarn := ((sagePart (fun x => { x with sealOp := some .breakLifecycle }))).sage.supplyWarn, hostActive := ((sagePart (fun x => { x with sealOp := some .breakLifecycle }))).sage.hostActive, status := ((sagePart (fun x => { x with sealOp := some .breakLifecycle }))).sage.status, sealState := goal, sealOp := op }), 0x40000000#32, 1000, met, fun _ _ _ => rfl, met, met, met, met, met⟩
  · exact ⟨({ sagePart id with sys := { (sagePart id).sys with longs := [({ owed := { opcode := 0x0E01#16, tag := 0, via := .cmd, onDone := false, srcIp := 0, srcPort := 0 }, key := 0, result := none } : LongOp)] } }), (fun cause op goal => { sage0 with resetCause := cause, sealWas := (({ sagePart id with sys := { (sagePart id).sys with longs := [({ owed := { opcode := 0x0E01#16, tag := 0, via := .cmd, onDone := false, srcIp := 0, srcPort := 0 }, key := 0, result := none } : LongOp)] } })).sage.sealState, supplyWarn := (({ sagePart id with sys := { (sagePart id).sys with longs := [({ owed := { opcode := 0x0E01#16, tag := 0, via := .cmd, onDone := false, srcIp := 0, srcPort := 0 }, key := 0, result := none } : LongOp)] } })).sage.supplyWarn, hostActive := (({ sagePart id with sys := { (sagePart id).sys with longs := [({ owed := { opcode := 0x0E01#16, tag := 0, via := .cmd, onDone := false, srcIp := 0, srcPort := 0 }, key := 0, result := none } : LongOp)] } })).sage.hostActive, status := (({ sagePart id with sys := { (sagePart id).sys with longs := [({ owed := { opcode := 0x0E01#16, tag := 0, via := .cmd, onDone := false, srcIp := 0, srcPort := 0 }, key := 0, result := none } : LongOp)] } })).sage.status, sealState := goal, sealOp := op }), 0x40000000#32, 1000, ({ owed := { opcode := 0x0E01#16, tag := 0, via := .cmd, onDone := false, srcIp := 0, srcPort := 0 }, key := 0, result := none } : LongOp), met, fun _ _ _ => rfl, met, met, met, met, met, met, met⟩
  · exact ⟨(sagePart (fun x => { x with sealOp := some .breakToken })), (fun cause op goal => { sage0 with resetCause := cause, sealWas := ((sagePart (fun x => { x with sealOp := some .breakToken }))).sage.sealState, supplyWarn := ((sagePart (fun x => { x with sealOp := some .breakToken }))).sage.supplyWarn, hostActive := ((sagePart (fun x => { x with sealOp := some .breakToken }))).sage.hostActive, status := ((sagePart (fun x => { x with sealOp := some .breakToken }))).sage.status, sealState := goal, sealOp := op }), 0, 0, met, fun _ _ _ => rfl, met, met⟩
  · exact ⟨(sagePart (fun x => { x with sealOp := some (.newSeal 3 (zeros 128) (zeros 32) (zeros 32)) })), (fun cause op goal => { sage0 with resetCause := cause, sealWas := ((sagePart (fun x => { x with sealOp := some (.newSeal 3 (zeros 128) (zeros 32) (zeros 32)) }))).sage.sealState, supplyWarn := ((sagePart (fun x => { x with sealOp := some (.newSeal 3 (zeros 128) (zeros 32) (zeros 32)) }))).sage.supplyWarn, hostActive := ((sagePart (fun x => { x with sealOp := some (.newSeal 3 (zeros 128) (zeros 32) (zeros 32)) }))).sage.hostActive, status := ((sagePart (fun x => { x with sealOp := some (.newSeal 3 (zeros 128) (zeros 32) (zeros 32)) }))).sage.status, sealState := goal, sealOp := op }), 0, 0, 3, zeros 128, zeros 32, zeros 32, met, fun _ _ _ => rfl, met, met, met, met⟩
  · exact ⟨island .config, 0, 0, met⟩
  · exact ⟨sagePart id, 0x40800000#32, 1000, met⟩

/-- The hypotheses of `Obligations.SageResetsSignsAndRestores`, met leaf by leaf (part 2 of 4). -/
theorem witness_SageResetsSignsAndRestores_2 :
    (∃ (s : State) (v : F32) (held : ℕ), Sized s ∧ f32Bad v = false ∧ f32Val v ≤ 27 / 10 ∧ 1000 ≤ held)
    ∧ (∃ (s : State) (v : F32) (held : ℕ), Sized s ∧ (s.sage.phase ≠ SagePhase.inReset ∨ f32Bad v = true ∨ f32Val v < 285 / 100 ∨ held < 1000))
    ∧ (∃ (s : State) (v : F32) (held : ℕ), Sized s ∧ f32Bad v = false ∧ 285 / 100 ≤ f32Val v ∧ 1000 ≤ held ∧ s.sage.phase = SagePhase.inReset ∧ memWf s.rel.otp = true ∧ ((List.all (memReadBytes s.rel.otp 7936 160) fun x => x == 0) = true))
    ∧ (∃ (s : State) (v : F32) (held : ℕ), Sized s ∧ f32Bad v = false ∧ 285 / 100 ≤ f32Val v ∧ 1000 ≤ held ∧ s.sage.phase = SagePhase.inReset ∧ ((List.any (memReadBytes s.rel.otp 7936 160) fun x => x != 0) = true) ∧ s.sage.signing = [] ∧ s.sage.sealOp = none ∧ (s.sage.sealState = SealState.isSealed → ∃ g, sealNewestWritten s = some g ∧ sealValid s g = true))
    ∧ (∃ (s : State) (v : F32) (held : ℕ) (g : ℕ), Sized s ∧ f32Bad v = false ∧ 285 / 100 ≤ f32Val v ∧ 1000 ≤ held ∧ s.sage.phase = SagePhase.inReset ∧ ((List.any (memReadBytes s.rel.otp 7936 160) fun x => x != 0) = true) ∧ s.sage.signing = [] ∧ s.sage.sealOp = none ∧ s.sage.sealState = SealState.isSealed ∧ sealNewestWritten s = some g ∧ sealValid s g = false)
    ∧ (∃ (s : State) (v : F32) (held : ℕ) (g : ℕ) (k : ℕ) (p : Bytes) (h : Bytes) (a : Bytes), Sized s ∧ f32Bad v = false ∧ 285 / 100 ≤ f32Val v ∧ 1000 ≤ held ∧ s.sage.phase = SagePhase.inReset ∧ ((List.any (memReadBytes s.rel.otp 7936 160) fun x => x != 0) = true) ∧ s.sage.signing = [] ∧ s.sage.sealOp = some (SealOp.newSeal k p h a) ∧ s.sage.sealState = SealState.isSealed ∧ sealNewestWritten s = some g ∧ sealValid s g = true)
    ∧ (∃ (s : State) (v : F32) (held : ℕ), Sized s ∧ f32Bad v = false ∧ 285 / 100 ≤ f32Val v ∧ 1000 ≤ held ∧ s.sage.phase = SagePhase.inReset ∧ ((List.any (memReadBytes s.rel.otp 7936 160) fun x => x != 0) = true) ∧ s.sage.signing = [] ∧ s.sage.sealOp = some SealOp.breakToken ∧ s.sage.sealState = SealState.broken) := by
  refine ⟨?_, ?_, ?_, ?_, ?_, ?_, ?_⟩
  · exact ⟨sagePart id, 0x40000000#32, 1000, met⟩
  · exact ⟨sagePart id, 0, 0, met⟩
  · exact ⟨updSage (fun x => { x with phase := .inReset }) (island .config), 0x40400000#32, 1000, met⟩
  · exact ⟨({ (updSage (fun x => { x with phase := .inReset }) (island .config)) with rel := { (island .config).rel with otp := sealOtp (crc32c (1 :: zeros 195)) } }), 0x40400000#32, 1000, met⟩
  · exact ⟨({ (updSage (fun x => { x with phase := .inReset, sealState := .isSealed }) (island .config)) with rel := { (island .config).rel with otp := sealOtp (1) } }), 0x40400000#32, 1000, 0, met⟩
  · exact ⟨({ (updSage (fun x => { x with phase := .inReset, sealOp := some (.newSeal 3 (zeros 128) (zeros 32) (zeros 32)), sealState := .isSealed }) (island .config)) with rel := { (island .config).rel with otp := sealOtp (crc32c (1 :: zeros 195)) } }), 0x40400000#32, 1000, 0, 3, zeros 128, zeros 32, zeros 32, met⟩
  · exact ⟨({ (updSage (fun x => { x with phase := .inReset, sealOp := some .breakToken, sealState := .broken }) (island .config)) with rel := { (island .config).rel with otp := sealOtp (crc32c (1 :: zeros 195)) } }), 0x40400000#32, 1000, met⟩

/-- The hypotheses of `Obligations.SageResetsSignsAndRestores`, met leaf by leaf (part 3 of 4). -/
theorem witness_SageResetsSignsAndRestores_3 :
    (∃ (s : State) (v : F32) (held : ℕ), Sized s ∧ f32Bad v = false ∧ 285 / 100 ≤ f32Val v ∧ 1000 ≤ held ∧ s.sage.phase = SagePhase.inReset ∧ ((List.any (memReadBytes s.rel.otp 7936 160) fun x => x != 0) = true) ∧ s.sage.signing = [] ∧ s.sage.sealOp = some SealOp.breakLifecycle)
    ∧ (∃ (s : State), Sized s ∧ (s.sage.phase ≠ SagePhase.metering ∨ s.sage.clockFail = true))
    ∧ (∃ (s : State) (due : ℕ), Sized s ∧ s.sage.phase = SagePhase.metering ∧ s.sage.clockFail = false ∧ s.sage.signing = [] ∧ due = (s.sage.quarter + 1) * 900000000000 * 24576 ∧ s.sage.time ≤ due)
    ∧ (∃ (s : State), Sized s ∧ s.sage.signing = [])
    ∧ (∃ (s : State) (j : SignJob) (l : List SignJob), Sized s ∧ s.sage.signing = j :: l ∧ j.body = none)
    ∧ (∃ (s : State) (j : SignJob) (l : List SignJob), Sized s ∧ s.sage.signing = j :: l ∧ j.body ≠ none)
    ∧ (∃ (s : State) (j : SignJob) (l : List SignJob) (b : Bytes), Sized s ∧ s.sage.signing = j :: l ∧ j.body = some b ∧ j.asked = false ∧ (∀ k ∈ l, k.body = none)) := by
  refine ⟨?_, ?_, ?_, ?_, ?_, ?_, ?_⟩
  · exact ⟨({ (updSage (fun x => { x with phase := .inReset, sealOp := some .breakLifecycle }) (island .config)) with rel := { (island .config).rel with otp := sealOtp (crc32c (1 :: zeros 195)) } }), 0x40400000#32, 1000, met⟩
  · exact ⟨(island .config), met⟩
  · exact ⟨sagePart id, 900000000000 * 24576, met⟩
  · exact ⟨(island .config), met⟩
  · exact ⟨sagePart (fun x => { x with signing := [{ job0 with body := none }] }), { job0 with body := none }, [], met⟩
  · exact ⟨sagePart (fun x => { x with signing := [job0] }), job0, [], met⟩
  · exact ⟨sagePart (fun x => { x with signing := [job0] }), job0, [], zeros 192, met⟩

/-- The hypotheses of `Obligations.SageResetsSignsAndRestores`, met leaf by leaf (part 4 of 4). -/
theorem witness_SageResetsSignsAndRestores_4 :
    (∃ (s : State) (j : SignJob) (l : List SignJob) (b : Bytes), Sized s ∧ s.sage.signing = j :: l ∧ j.body = some b ∧ l = [] ∧ j.asked = true ∧ j.checkpoint = false)
    ∧ (∃ (s : State), Sized s ∧ s.sage.restoring = none)
    ∧ (∃ (s : State) (p : Bytes) (k : ℕ), Sized s ∧ s.sage.restoring = some p ∧ odometer s = k ∧ k < 2048 ∧ memWf s.rel.otp = true ∧ s.sage.signing = [])
    ∧ (∃ (s : State), Sized s ∧ s.sage.nonce = none)
    ∧ (∃ (s : State) (n : Bytes) (i : ℕ), Sized s ∧ s.sage.nonce = some (n, i)) := by
  refine ⟨?_, ?_, ?_, ?_, ?_⟩
  · exact ⟨sagePart (fun x => { x with signing := [{ job0 with checkpoint := false, asked := true }] }), { job0 with checkpoint := false, asked := true }, [], zeros 192, met⟩
  · exact ⟨(island .config), met⟩
  · exact ⟨sagePart (fun x => { x with restoring := some (zeros 256) }), zeros 256, 0, met⟩
  · exact ⟨(island .config), met⟩
  · exact ⟨sagePart (fun x => { x with nonce := some (zeros 16, 4) }), zeros 16, 4, met⟩

/-- The hypotheses of `Obligations.SageRequests`, met leaf by leaf (part 1 of 7). -/
theorem witness_SageRequests :
    (∃ (via : Transport) (s : State) (r : Req) (p : Bytes), p = reqParams r ∧ s.sys.dev ≠ DevState.boot ∧ Sized s ∧ Takes 0xE00#16 via s r ∧ p ≠ [])
    ∧ (∃ (via : Transport) (s : State) (r : Req) (p : Bytes), p = reqParams r ∧ s.sys.dev ≠ DevState.boot ∧ Sized s ∧ Takes 0xE01#16 via s r ∧ List.length p ≠ 36)
    ∧ (∃ (via : Transport) (s : State) (r : Req) (p : Bytes), p = reqParams r ∧ s.sys.dev ≠ DevState.boot ∧ Sized s ∧ Takes 0xE02#16 via s r ∧ List.length p ≠ 4)
    ∧ (∃ (via : Transport) (s : State) (r : Req) (p : Bytes), p = reqParams r ∧ s.sys.dev ≠ DevState.boot ∧ Sized s ∧ Takes 0xE03#16 via s r ∧ (List.length p ≠ 8 ∨ n8At p 4 = 0 ∨ 63 < n8At p 4))
    ∧ (∃ (via : Transport) (s : State) (r : Req) (p : Bytes), p = reqParams r ∧ s.sys.dev ≠ DevState.boot ∧ Sized s ∧ Takes 0xE05#16 via s r ∧ (p = [] ∨ n8At p 0 = 0 ∧ List.length p ≠ 4 ∨ 5 < n8At p 0))
    ∧ (∃ (via : Transport) (s : State) (r : Req) (p : Bytes), p = reqParams r ∧ s.sys.dev ≠ DevState.boot ∧ Sized s ∧ Takes 0xE05#16 via s r ∧ p ≠ [] ∧ n8At p 0 = 1 ∧ List.length p ≠ 132)
    ∧ (∃ (via : Transport) (s : State) (r : Req) (p : Bytes), p = reqParams r ∧ s.sys.dev ≠ DevState.boot ∧ Sized s ∧ Takes 0xE05#16 via s r ∧ p ≠ [] ∧ n8At p 0 = 2 ∧ s.sys.lifecycle ≠ Lifecycle.returned ∧ s.sys.lifecycle ≠ Lifecycle.ended ∧ (List.length p ≠ 184 ∨ zeroAt p 22 2 = false))
    ∧ (∃ (via : Transport) (s : State) (r : Req) (p : Bytes), p = reqParams r ∧ s.sys.dev ≠ DevState.boot ∧ Sized s ∧ Takes 0xE05#16 via s r ∧ p ≠ [] ∧ n8At p 0 = 2 ∧ (s.sys.lifecycle = Lifecycle.returned ∨ s.sys.lifecycle = Lifecycle.ended)) := by
  refine ⟨?_, ?_, ?_, ?_, ?_, ?_, ?_, ?_⟩
  · exact ⟨.cmd, ask (island .config) 0x0E00 [1], mk 0x0E00 [1], [1], met⟩
  · exact ⟨.cmd, ask (island .config) 0x0E01 [1], mk 0x0E01 [1], [1], met⟩
  · exact ⟨.cmd, ask (island .config) 0x0E02 [1], mk 0x0E02 [1], [1], met⟩
  · exact ⟨.cmd, ask (island .config) 0x0E03 [], mk 0x0E03 [], [], met⟩
  · exact ⟨.cmd, ask (island .config) 0x0E05 [], mk 0x0E05 [], [], met⟩
  · exact ⟨.cmd, ask (island .config) 0x0E05 [1], mk 0x0E05 [1], [1], met⟩
  · exact ⟨.cmd, ask ({ island .config with sys := { (island .config).sys with lifecycle := .develop } }) 0x0E05 [2], mk 0x0E05 [2], [2], met⟩
  · exact ⟨.cmd, ask ({ island .config with sys := { (island .config).sys with lifecycle := .ended } }) 0x0E05 [2], mk 0x0E05 [2], [2], met⟩

/-- The hypotheses of `Obligations.SageRequests`, met leaf by leaf (part 2 of 7). -/
theorem witness_SageRequests_2 :
    (∃ (via : Transport) (s : State) (r : Req) (p : Bytes), p = reqParams r ∧ s.sys.dev ≠ DevState.boot ∧ Sized s ∧ Takes 0xE05#16 via s r ∧ p ≠ [] ∧ n8At p 0 = 3 ∧ (List.length p ≠ 184 ∨ zeroAt p 22 2 = false))
    ∧ (∃ (via : Transport) (s : State) (r : Req) (p : Bytes), p = reqParams r ∧ s.sys.dev ≠ DevState.boot ∧ Sized s ∧ Takes 0xE05#16 via s r ∧ p ≠ [] ∧ n8At p 0 = 4 ∧ s.sage.pulseStops = false ∧ List.length p ≠ 4)
    ∧ (∃ (via : Transport) (s : State) (r : Req) (p : Bytes), p = reqParams r ∧ s.sys.dev ≠ DevState.boot ∧ Sized s ∧ Takes 0xE05#16 via s r ∧ p ≠ [] ∧ n8At p 0 = 5 ∧ List.length p ≠ 4)
    ∧ (∃ (via : Transport) (s : State) (r : Req) (p : Bytes), p = reqParams r ∧ s.sys.dev ≠ DevState.boot ∧ Sized s ∧ s.sage.phase = SagePhase.inReset ∧ Takes 0xE00#16 via s r ∧ p = [])
    ∧ (∃ (via : Transport) (s : State) (r : Req) (p : Bytes), p = reqParams r ∧ s.sys.dev ≠ DevState.boot ∧ Sized s ∧ s.sage.phase = SagePhase.inReset ∧ Takes 0xE01#16 via s r ∧ List.length p = 36 ∧ n8At p 0 ≤ 1 ∧ zeroAt p 1 3 = true ∧ (n8At p 0 = 1 → zeroAt p 4 32 = true) ∧ classFull s 0xE01#16 = false)
    ∧ (∃ (via : Transport) (s : State) (r : Req) (p : Bytes), p = reqParams r ∧ s.sys.dev ≠ DevState.boot ∧ Sized s ∧ s.sage.phase = SagePhase.inReset ∧ Takes 0xE02#16 via s r ∧ List.length p = 4 ∧ n8At p 0 < 4 ∧ zeroAt p 1 3 = true ∧ classFull s 0xE02#16 = false)
    ∧ (∃ (via : Transport) (s : State) (r : Req) (p : Bytes), p = reqParams r ∧ s.sys.dev ≠ DevState.boot ∧ Sized s ∧ s.sage.phase = SagePhase.inReset ∧ Takes 0xE03#16 via s r ∧ List.length p = 8 ∧ zeroAt p 5 3 = true ∧ 1 ≤ n8At p 4 ∧ n8At p 4 ≤ 63)
    ∧ (∃ (via : Transport) (s : State) (r : Req) (p : Bytes), p = reqParams r ∧ s.sys.dev ≠ DevState.boot ∧ Sized s ∧ s.sage.phase = SagePhase.inReset ∧ Takes 0xE04#16 via s r ∧ s.sage.restored = false ∧ List.length p = 256 ∧ odometer s < 2048 ∧ classFull s 0xE04#16 = false) := by
  refine ⟨?_, ?_, ?_, ?_, ?_, ?_, ?_, ?_⟩
  · exact ⟨.cmd, ask (island .config) 0x0E05 [3], mk 0x0E05 [3], [3], met⟩
  · exact ⟨.cmd, ask (island .config) 0x0E05 [4], mk 0x0E05 [4], [4], met⟩
  · exact ⟨.cmd, ask (island .config) 0x0E05 [5], mk 0x0E05 [5], [5], met⟩
  · exact ⟨.cmd, ask (updSage (fun x => { x with phase := .inReset }) (island .config)) 0x0E00 [], mk 0x0E00 [], [], met⟩
  · exact ⟨.cmd, ask (updSage (fun x => { x with phase := .inReset }) (island .config)) 0x0E01 ((zeros 36)), mk 0x0E01 ((zeros 36)), (zeros 36), met⟩
  · exact ⟨.cmd, ask (updSage (fun x => { x with phase := .inReset }) (island .config)) 0x0E02 [3, 0, 0, 0], mk 0x0E02 [3, 0, 0, 0], [3, 0, 0, 0], met⟩
  · exact ⟨.cmd, ask (updSage (fun x => { x with phase := .inReset }) (island .config)) 0x0E03 [0, 0, 0, 0, 63, 0, 0, 0], mk 0x0E03 [0, 0, 0, 0, 63, 0, 0, 0], [0, 0, 0, 0, 63, 0, 0, 0], met⟩
  · exact ⟨.cmd, ask (updSage (fun x => { x with phase := .inReset }) (island .config)) 0x0E04 ((zeros 256)), mk 0x0E04 ((zeros 256)), (zeros 256), met⟩

/-- The hypotheses of `Obligations.SageRequests`, met leaf by leaf (part 3 of 7). -/
theorem witness_SageRequests_3 :
    (∃ (via : Transport) (s : State) (r : Req) (p : Bytes), p = reqParams r ∧ s.sys.dev ≠ DevState.boot ∧ Sized s ∧ s.sage.phase = SagePhase.inReset ∧ Takes 0xE04#16 via s r ∧ s.sage.restored = false ∧ List.length p ≠ 256)
    ∧ (∃ (via : Transport) (s : State) (r : Req) (p : Bytes), p = reqParams r ∧ s.sys.dev ≠ DevState.boot ∧ Sized s ∧ s.sage.phase = SagePhase.inReset ∧ Takes 0xE05#16 via s r ∧ p = [0, 0, 0, 0])
    ∧ (∃ (via : Transport) (s : State) (r : Req) (p : Bytes), p = reqParams r ∧ s.sys.dev ≠ DevState.boot ∧ Sized s ∧ s.sage.phase = SagePhase.inReset ∧ Takes 0xE05#16 via s r ∧ List.length p = 132 ∧ n8At p 0 = 1 ∧ zeroAt p 1 3 = true ∧ sageBlockOk (slice p 4 128) = true)
    ∧ (∃ (via : Transport) (s : State) (r : Req) (p : Bytes), p = reqParams r ∧ s.sys.dev ≠ DevState.boot ∧ Sized s ∧ s.sage.phase = SagePhase.inReset ∧ Takes 0xE05#16 via s r ∧ List.length p = 184 ∧ zeroAt p 1 3 = true ∧ zeroAt p 22 2 = true ∧ s.sage.sealOp = none ∧ classFull s 0xE05#16 = false ∧ n8At p 0 = 2 ∧ s.sys.lifecycle ≠ Lifecycle.returned ∧ s.sys.lifecycle ≠ Lifecycle.ended ∧ sealNextGen s ≠ none)
    ∧ (∃ (via : Transport) (s : State) (r : Req) (p : Bytes), p = reqParams r ∧ s.sys.dev ≠ DevState.boot ∧ Sized s ∧ s.sage.phase = SagePhase.inReset ∧ Takes 0xE05#16 via s r ∧ List.length p = 184 ∧ zeroAt p 1 3 = true ∧ zeroAt p 22 2 = true ∧ s.sage.sealOp = none ∧ classFull s 0xE05#16 = false ∧ n8At p 0 = 3)
    ∧ (∃ (via : Transport) (s : State) (r : Req) (p : Bytes), p = reqParams r ∧ s.sys.dev ≠ DevState.boot ∧ Sized s ∧ s.sage.phase = SagePhase.inReset ∧ Takes 0xE05#16 via s r ∧ p = [4, 0, 0, 0])
    ∧ (∃ (via : Transport) (s : State) (r : Req) (p : Bytes), p = reqParams r ∧ s.sys.dev ≠ DevState.boot ∧ Sized s ∧ s.sage.phase = SagePhase.inReset ∧ Takes 0xE05#16 via s r ∧ p = [5, 0, 0, 0])
    ∧ (∃ (via : Transport) (s : State) (r : Req) (p : Bytes) (with_ : Sage → State), p = reqParams r ∧ s.sys.dev ≠ DevState.boot ∧ Sized s ∧ s.sage.phase ≠ SagePhase.inReset ∧ (∀ (x : Sage), with_ x = { taken s via with sage := x }) ∧ Takes 0xE00#16 via s r ∧ p = []) := by
  refine ⟨?_, ?_, ?_, ?_, ?_, ?_, ?_, ?_⟩
  · exact ⟨.cmd, ask (updSage (fun x => { x with phase := .inReset }) (island .config)) 0x0E04 [1], mk 0x0E04 [1], [1], met⟩
  · exact ⟨.cmd, ask (updSage (fun x => { x with phase := .inReset }) (island .config)) 0x0E05 [0, 0, 0, 0], mk 0x0E05 [0, 0, 0, 0], [0, 0, 0, 0], met⟩
  · exact ⟨.cmd, ask (updSage (fun x => { x with phase := .inReset }) (island .config)) 0x0E05 (([1, 0, 0, 0] ++ sblk)), mk 0x0E05 (([1, 0, 0, 0] ++ sblk)), ([1, 0, 0, 0] ++ sblk), met⟩
  · exact ⟨.cmd, ask (updSage (fun x => { x with phase := .inReset }) (island .config)) 0x0E05 ((2 :: zeros 183)), mk 0x0E05 ((2 :: zeros 183)), (2 :: zeros 183), met⟩
  · exact ⟨.cmd, ask (updSage (fun x => { x with phase := .inReset }) (island .config)) 0x0E05 ((3 :: zeros 183)), mk 0x0E05 ((3 :: zeros 183)), (3 :: zeros 183), met⟩
  · exact ⟨.cmd, ask (updSage (fun x => { x with phase := .inReset }) (island .config)) 0x0E05 [4, 0, 0, 0], mk 0x0E05 [4, 0, 0, 0], [4, 0, 0, 0], met⟩
  · exact ⟨.cmd, ask (updSage (fun x => { x with phase := .inReset }) (island .config)) 0x0E05 [5, 0, 0, 0], mk 0x0E05 [5, 0, 0, 0], [5, 0, 0, 0], met⟩
  · exact ⟨.cmd, ask (sagePart id) 0x0E00 [], mk 0x0E00 [], [], fun x => { taken (ask (sagePart id) 0x0E00 []) .cmd with sage := x }, met⟩

/-- The hypotheses of `Obligations.SageRequests`, met leaf by leaf (part 4 of 7). -/
theorem witness_SageRequests_4 :
    (∃ (via : Transport) (s : State) (r : Req) (p : Bytes) (with_ : Sage → State), p = reqParams r ∧ s.sys.dev ≠ DevState.boot ∧ Sized s ∧ s.sage.phase ≠ SagePhase.inReset ∧ (∀ (x : Sage), with_ x = { taken s via with sage := x }) ∧ Takes 0xE01#16 via s r ∧ List.length p = 36 ∧ n8At p 0 ≤ 1 ∧ zeroAt p 1 3 = true ∧ (n8At p 0 = 1 → zeroAt p 4 32 = true) ∧ s.sage.clockFail = true ∧ classFull s 0xE01#16 = false)
    ∧ (∃ (via : Transport) (s : State) (r : Req) (p : Bytes) (with_ : Sage → State), p = reqParams r ∧ s.sys.dev ≠ DevState.boot ∧ Sized s ∧ s.sage.phase ≠ SagePhase.inReset ∧ (∀ (x : Sage), with_ x = { taken s via with sage := x }) ∧ Takes 0xE01#16 via s r ∧ List.length p = 36 ∧ n8At p 0 ≤ 1 ∧ zeroAt p 1 3 = true ∧ (n8At p 0 = 1 → zeroAt p 4 32 = true) ∧ s.sage.clockFail = false ∧ classFull s 0xE01#16 = false ∧ s.sage.signing = [])
    ∧ (∃ (via : Transport) (s : State) (r : Req) (p : Bytes) (with_ : Sage → State) (k : SignJob) (l : List SignJob), p = reqParams r ∧ s.sys.dev ≠ DevState.boot ∧ Sized s ∧ s.sage.phase ≠ SagePhase.inReset ∧ (∀ (x : Sage), with_ x = { taken s via with sage := x }) ∧ Takes 0xE01#16 via s r ∧ List.length p = 36 ∧ n8At p 0 ≤ 1 ∧ zeroAt p 1 3 = true ∧ (n8At p 0 = 1 → zeroAt p 4 32 = true) ∧ s.sage.clockFail = false ∧ classFull s 0xE01#16 = false ∧ s.sage.signing = k :: l ∧ k.body ≠ none)
    ∧ (∃ (via : Transport) (s : State) (r : Req) (p : Bytes) (with_ : Sage → State) (d : ℕ), p = reqParams r ∧ s.sys.dev ≠ DevState.boot ∧ Sized s ∧ s.sage.phase ≠ SagePhase.inReset ∧ (∀ (x : Sage), with_ x = { taken s via with sage := x }) ∧ Takes 0xE02#16 via s r ∧ List.length p = 4 ∧ n8At p 0 = d ∧ d < 4 ∧ zeroAt p 1 3 = true ∧ tdRunning (getTd s d) = true ∧ classFull s 0xE02#16 = false)
    ∧ (∃ (via : Transport) (s : State) (r : Req) (p : Bytes) (with_ : Sage → State) (first : ℕ) (n : ℕ) (i : ℕ), p = reqParams r ∧ s.sys.dev ≠ DevState.boot ∧ Sized s ∧ s.sage.phase ≠ SagePhase.inReset ∧ (∀ (x : Sage), with_ x = { taken s via with sage := x }) ∧ Takes 0xE03#16 via s r ∧ List.length p = 8 ∧ zeroAt p 5 3 = true ∧ n32At p 0 = i ∧ n8At p 4 = n ∧ 1 ≤ n ∧ n ≤ 63 ∧ first + s.sage.log.length = s.sage.logNext ∧ i < s.sage.logNext)
    ∧ (∃ (via : Transport) (s : State) (r : Req) (p : Bytes) (with_ : Sage → State) (first : ℕ) (n : ℕ) (i : ℕ), p = reqParams r ∧ s.sys.dev ≠ DevState.boot ∧ Sized s ∧ s.sage.phase ≠ SagePhase.inReset ∧ (∀ (x : Sage), with_ x = { taken s via with sage := x }) ∧ Takes 0xE03#16 via s r ∧ List.length p = 8 ∧ zeroAt p 5 3 = true ∧ n32At p 0 = i ∧ n8At p 4 = n ∧ 1 ≤ n ∧ n ≤ 63 ∧ first + s.sage.log.length = s.sage.logNext ∧ s.sage.logNext ≤ i)
    ∧ (∃ (via : Transport) (s : State) (r : Req) (with_ : Sage → State), s.sys.dev ≠ DevState.boot ∧ Sized s ∧ s.sage.phase ≠ SagePhase.inReset ∧ (∀ (x : Sage), with_ x = { taken s via with sage := x }) ∧ Takes 0xE04#16 via s r ∧ s.sage.restored = true)
    ∧ (∃ (via : Transport) (s : State) (r : Req) (p : Bytes) (with_ : Sage → State), p = reqParams r ∧ s.sys.dev ≠ DevState.boot ∧ Sized s ∧ s.sage.phase ≠ SagePhase.inReset ∧ (∀ (x : Sage), with_ x = { taken s via with sage := x }) ∧ Takes 0xE04#16 via s r ∧ List.length p = 256 ∧ s.sage.restored = false ∧ s.sage.sealState = SealState.broken) := by
  refine ⟨?_, ?_, ?_, ?_, ?_, ?_, ?_, ?_⟩
  · exact ⟨.cmd, (ask (sagePart (fun x => { x with clockFail := true })) 0x0e01 [1, 0, 0, 0, 0, 0, 0, 0, 0, 0, 0, 0, 0, 0, 0, 0, 0, 0, 0, 0, 0, 0, 0, 0, 0, 0, 0, 0, 0, 0, 0, 0, 0, 0, 0, 0]), mk 0x0e01 [1, 0, 0, 0, 0, 0, 0, 0, 0, 0, 0, 0, 0, 0, 0, 0, 0, 0, 0, 0, 0, 0, 0, 0, 0, 0, 0, 0, 0, 0, 0, 0, 0, 0, 0, 0], [1, 0, 0, 0, 0, 0, 0, 0, 0, 0, 0, 0, 0, 0, 0, 0, 0, 0, 0, 0, 0, 0, 0, 0, 0, 0, 0, 0, 0, 0, 0, 0, 0, 0, 0, 0], (fun x => { taken (ask (sagePart (fun x => { x with clockFail := true })) 0x0e01 [1, 0, 0, 0, 0, 0, 0, 0, 0, 0, 0, 0, 0, 0, 0, 0, 0, 0, 0, 0, 0, 0, 0, 0, 0, 0, 0, 0, 0, 0, 0, 0, 0, 0, 0, 0]) .cmd with sage := x }), met⟩
  · exact ⟨.cmd, (ask (sagePart id) 0x0e01 [1, 0, 0, 0, 0, 0, 0, 0, 0, 0, 0, 0, 0, 0, 0, 0, 0, 0, 0, 0, 0, 0, 0, 0, 0, 0, 0, 0, 0, 0, 0, 0, 0, 0, 0, 0]), mk 0x0e01 [1, 0, 0, 0, 0, 0, 0, 0, 0, 0, 0, 0, 0, 0, 0, 0, 0, 0, 0, 0, 0, 0, 0, 0, 0, 0, 0, 0, 0, 0, 0, 0, 0, 0, 0, 0], [1, 0, 0, 0, 0, 0, 0, 0, 0, 0, 0, 0, 0, 0, 0, 0, 0, 0, 0, 0, 0, 0, 0, 0, 0, 0, 0, 0, 0, 0, 0, 0, 0, 0, 0, 0], (fun x => { taken (ask (sagePart id) 0x0e01 [1, 0, 0, 0, 0, 0, 0, 0, 0, 0, 0, 0, 0, 0, 0, 0, 0, 0, 0, 0, 0, 0, 0, 0, 0, 0, 0, 0, 0, 0, 0, 0, 0, 0, 0, 0]) .cmd with sage := x }), met⟩
  · exact ⟨.cmd, ask (sagePart (fun x => { x with signing := [job0] })) 0x0E01 [1, 0, 0, 0, 0, 0, 0, 0, 0, 0, 0, 0, 0, 0, 0, 0, 0, 0, 0, 0, 0, 0, 0, 0, 0, 0, 0, 0, 0, 0, 0, 0, 0, 0, 0, 0], mk 0x0E01 [1, 0, 0, 0, 0, 0, 0, 0, 0, 0, 0, 0, 0, 0, 0, 0, 0, 0, 0, 0, 0, 0, 0, 0, 0, 0, 0, 0, 0, 0, 0, 0, 0, 0, 0, 0], [1, 0, 0, 0, 0, 0, 0, 0, 0, 0, 0, 0, 0, 0, 0, 0, 0, 0, 0, 0, 0, 0, 0, 0, 0, 0, 0, 0, 0, 0, 0, 0, 0, 0, 0, 0], fun x => { taken (ask (sagePart (fun x => { x with signing := [job0] })) 0x0E01 [1, 0, 0, 0, 0, 0, 0, 0, 0, 0, 0, 0, 0, 0, 0, 0, 0, 0, 0, 0, 0, 0, 0, 0, 0, 0, 0, 0, 0, 0, 0, 0, 0, 0, 0, 0]) .cmd with sage := x }, job0, [], met⟩
  · exact ⟨.cmd, (ask (sagePart id) 0x0e02 [0, 0, 0, 0]), mk 0x0e02 [0, 0, 0, 0], [0, 0, 0, 0], (fun x => { taken (ask (sagePart id) 0x0e02 [0, 0, 0, 0]) .cmd with sage := x }), 0, met⟩
  · exact ⟨.cmd, ask (sagePart (fun x => { x with log := [{ time := 1, code := 2, counter := 3, data := zeros 8 }], logNext := 5 })) 0x0E03 [4, 0, 0, 0, 63, 0, 0, 0], mk 0x0E03 [4, 0, 0, 0, 63, 0, 0, 0], [4, 0, 0, 0, 63, 0, 0, 0], fun x => { taken (ask (sagePart (fun x => { x with log := [{ time := 1, code := 2, counter := 3, data := zeros 8 }], logNext := 5 })) 0x0E03 [4, 0, 0, 0, 63, 0, 0, 0]) .cmd with sage := x }, 4, 63, 4, met⟩
  · exact ⟨.cmd, ask (sagePart (fun x => { x with log := [{ time := 1, code := 2, counter := 3, data := zeros 8 }], logNext := 5 })) 0x0E03 [5, 0, 0, 0, 63, 0, 0, 0], mk 0x0E03 [5, 0, 0, 0, 63, 0, 0, 0], [5, 0, 0, 0, 63, 0, 0, 0], fun x => { taken (ask (sagePart (fun x => { x with log := [{ time := 1, code := 2, counter := 3, data := zeros 8 }], logNext := 5 })) 0x0E03 [5, 0, 0, 0, 63, 0, 0, 0]) .cmd with sage := x }, 4, 63, 5, met⟩
  · exact ⟨.cmd, ask (sagePart (fun x => { x with restored := true })) 0x0E04 [], mk 0x0E04 [], fun x => { taken (ask (sagePart (fun x => { x with restored := true })) 0x0E04 []) .cmd with sage := x }, met⟩
  · exact ⟨.cmd, ask (sagePart (fun x => { x with sealState := .broken })) 0x0E04 ((zeros 256)), mk 0x0E04 ((zeros 256)), ((zeros 256)), fun x => { taken (ask (sagePart (fun x => { x with sealState := .broken })) 0x0E04 ((zeros 256))) .cmd with sage := x }, met⟩

/-- The hypotheses of `Obligations.SageRequests`, met leaf by leaf (part 5 of 7). -/
theorem witness_SageRequests_5 :
    (∃ (via : Transport) (s : State) (r : Req) (p : Bytes) (with_ : Sage → State), p = reqParams r ∧ s.sys.dev ≠ DevState.boot ∧ Sized s ∧ s.sage.phase ≠ SagePhase.inReset ∧ (∀ (x : Sage), with_ x = { taken s via with sage := x }) ∧ Takes 0xE04#16 via s r ∧ List.length p = 256 ∧ s.sage.restored = false ∧ s.sage.sealState ≠ SealState.broken ∧ 2048 ≤ odometer s)
    ∧ (∃ (via : Transport) (s : State) (r : Req) (p : Bytes) (with_ : Sage → State), p = reqParams r ∧ s.sys.dev ≠ DevState.boot ∧ Sized s ∧ s.sage.phase ≠ SagePhase.inReset ∧ (∀ (x : Sage), with_ x = { taken s via with sage := x }) ∧ Takes 0xE04#16 via s r ∧ List.length p = 256 ∧ s.sage.restored = false ∧ s.sage.sealState ≠ SealState.broken ∧ odometer s < 2048 ∧ classFull s 0xE04#16 = false ∧ ecdsaOk p256c (sagePublic s) (sha256 (slice p 0 192)) (slice p 192 64) = true ∧ u32At p 0 = 0x52535A4F#32 ∧ n8At p 4 = 1 ∧ slice p 24 16 = uidBytes s ∧ n8At p 6 = sealGenByte s ∧ odometer s * 2 ^ 20 ≤ n32At p 8 ∧ slice p 184 8 ≠ s.sage.bootId)
    ∧ (∃ (via : Transport) (s : State) (r : Req) (p : Bytes) (with_ : Sage → State), p = reqParams r ∧ s.sys.dev ≠ DevState.boot ∧ Sized s ∧ s.sage.phase ≠ SagePhase.inReset ∧ (∀ (x : Sage), with_ x = { taken s via with sage := x }) ∧ Takes 0xE04#16 via s r ∧ List.length p = 256 ∧ s.sage.restored = false ∧ s.sage.sealState ≠ SealState.broken ∧ odometer s < 2048 ∧ classFull s 0xE04#16 = false ∧ (ecdsaOk p256c (sagePublic s) (sha256 (slice p 0 192)) (slice p 192 64) = false ∨ n8At p 4 ≠ 1 ∨ slice p 24 16 ≠ uidBytes s ∨ n8At p 6 ≠ sealGenByte s ∨ n32At p 8 < odometer s * 2 ^ 20 ∨ slice p 184 8 = s.sage.bootId))
    ∧ (∃ (via : Transport) (s : State) (r : Req) (p : Bytes) (with_ : Sage → State), p = reqParams r ∧ s.sys.dev ≠ DevState.boot ∧ Sized s ∧ s.sage.phase ≠ SagePhase.inReset ∧ (∀ (x : Sage), with_ x = { taken s via with sage := x }) ∧ Takes 0xE05#16 via s r ∧ p = [0, 0, 0, 0])
    ∧ (∃ (via : Transport) (s : State) (r : Req) (p : Bytes) (with_ : Sage → State) (b : Bytes), p = reqParams r ∧ s.sys.dev ≠ DevState.boot ∧ Sized s ∧ s.sage.phase ≠ SagePhase.inReset ∧ (∀ (x : Sage), with_ x = { taken s via with sage := x }) ∧ Takes 0xE05#16 via s r ∧ List.length p = 132 ∧ n8At p 0 = 1 ∧ zeroAt p 1 3 = true ∧ slice p 4 128 = b ∧ sageBlockOk b = true ∧ s.sage.sealState ≠ SealState.isSealed)
    ∧ (∃ (via : Transport) (s : State) (r : Req) (p : Bytes) (with_ : Sage → State) (b : Bytes), p = reqParams r ∧ s.sys.dev ≠ DevState.boot ∧ Sized s ∧ s.sage.phase ≠ SagePhase.inReset ∧ (∀ (x : Sage), with_ x = { taken s via with sage := x }) ∧ Takes 0xE05#16 via s r ∧ List.length p = 132 ∧ n8At p 0 = 1 ∧ zeroAt p 1 3 = true ∧ slice p 4 128 = b ∧ sageBlockOk b = true ∧ s.sage.sealState = SealState.isSealed)
    ∧ (∃ (via : Transport) (s : State) (r : Req) (p : Bytes) (with_ : Sage → State), p = reqParams r ∧ s.sys.dev ≠ DevState.boot ∧ Sized s ∧ s.sage.phase ≠ SagePhase.inReset ∧ (∀ (x : Sage), with_ x = { taken s via with sage := x }) ∧ Takes 0xE05#16 via s r ∧ List.length p = 184 ∧ n8At p 0 = 2 ∧ zeroAt p 1 3 = true ∧ zeroAt p 22 2 = true ∧ s.sys.lifecycle ≠ Lifecycle.returned ∧ s.sys.lifecycle ≠ Lifecycle.ended ∧ s.sage.sealState = SealState.isSealed)
    ∧ (∃ (via : Transport) (s : State) (r : Req) (p : Bytes) (with_ : Sage → State), p = reqParams r ∧ s.sys.dev ≠ DevState.boot ∧ Sized s ∧ s.sage.phase ≠ SagePhase.inReset ∧ (∀ (x : Sage), with_ x = { taken s via with sage := x }) ∧ Takes 0xE05#16 via s r ∧ List.length p = 184 ∧ n8At p 0 = 2 ∧ zeroAt p 1 3 = true ∧ zeroAt p 22 2 = true ∧ s.sys.lifecycle ≠ Lifecycle.returned ∧ s.sys.lifecycle ≠ Lifecycle.ended ∧ s.sage.sealState ≠ SealState.isSealed ∧ sealNextGen s = none) := by
  refine ⟨?_, ?_, ?_, ?_, ?_, ?_, ?_, ?_⟩
  · exact ⟨.cmd, ask (updRel (fun x => { x with otp := memWriteBytes [] odometerAt (List.replicate 256 0xFF) }) (sagePart id)) 0x0E04 ((zeros 256)), mk 0x0E04 ((zeros 256)), ((zeros 256)), fun x => { taken (ask (updRel (fun x => { x with otp := memWriteBytes [] odometerAt (List.replicate 256 0xFF) }) (sagePart id)) 0x0E04 ((zeros 256))) .cmd with sage := x }, met⟩
  · exact ⟨.cmd, ask (updRel (fun x => { x with otp := memWriteBytes [] 7968 keyOne }) (sagePart id)) 0x0E04 ((le32 0x52535A4F#32 ++ [1, 0, 0xFF, 0] ++ zeros 176 ++ [1] ++ zeros 7 ++ sigOne 0xAA0EA28A733F2439EC3ED3A8B25D06B77A2358DA1F578196FB3B3A6760E73211)), mk 0x0E04 ((le32 0x52535A4F#32 ++ [1, 0, 0xFF, 0] ++ zeros 176 ++ [1] ++ zeros 7 ++ sigOne 0xAA0EA28A733F2439EC3ED3A8B25D06B77A2358DA1F578196FB3B3A6760E73211)), ((le32 0x52535A4F#32 ++ [1, 0, 0xFF, 0] ++ zeros 176 ++ [1] ++ zeros 7 ++ sigOne 0xAA0EA28A733F2439EC3ED3A8B25D06B77A2358DA1F578196FB3B3A6760E73211)), fun x => { taken (ask (updRel (fun x => { x with otp := memWriteBytes [] 7968 keyOne }) (sagePart id)) 0x0E04 ((le32 0x52535A4F#32 ++ [1, 0, 0xFF, 0] ++ zeros 176 ++ [1] ++ zeros 7 ++ sigOne 0xAA0EA28A733F2439EC3ED3A8B25D06B77A2358DA1F578196FB3B3A6760E73211))) .cmd with sage := x }, met⟩
  · exact ⟨.cmd, (ask (sagePart id) 0x0e04 (zeros 256)), mk 0x0e04 (zeros 256), (zeros 256), (fun x => { taken (ask (sagePart id) 0x0e04 (zeros 256)) .cmd with sage := x }), met⟩
  · exact ⟨.cmd, (ask (sagePart id) 0x0e05 [0, 0, 0, 0]), mk 0x0e05 [0, 0, 0, 0], [0, 0, 0, 0], (fun x => { taken (ask (sagePart id) 0x0e05 [0, 0, 0, 0]) .cmd with sage := x }), met⟩
  · exact ⟨.cmd, (ask (sagePart id) 0x0e05 ([1, 0, 0, 0] ++ sblk)), mk 0x0e05 ([1, 0, 0, 0] ++ sblk), ([1, 0, 0, 0] ++ sblk), (fun x => { taken (ask (sagePart id) 0x0e05 ([1, 0, 0, 0] ++ sblk)) .cmd with sage := x }), sblk, met⟩
  · exact ⟨.cmd, (ask (sagePart (fun x => { x with sealState := .isSealed })) 0x0e05 ([1, 0, 0, 0] ++ sblk)), mk 0x0e05 ([1, 0, 0, 0] ++ sblk), ([1, 0, 0, 0] ++ sblk), (fun x => { taken (ask (sagePart (fun x => { x with sealState := .isSealed })) 0x0e05 ([1, 0, 0, 0] ++ sblk)) .cmd with sage := x }), sblk, met⟩
  · exact ⟨.cmd, ask (sagePart (fun x => { x with sealState := .isSealed })) 0x0E05 ((2 :: zeros 183)), mk 0x0E05 ((2 :: zeros 183)), ((2 :: zeros 183)), fun x => { taken (ask (sagePart (fun x => { x with sealState := .isSealed })) 0x0E05 ((2 :: zeros 183))) .cmd with sage := x }, met⟩
  · exact ⟨.cmd, ask (updRel (fun x => { x with otp := memWriteBytes [] (sageBlockAt + 0xA0 + 600) [1] }) (sagePart id)) 0x0E05 ((2 :: zeros 183)), mk 0x0E05 ((2 :: zeros 183)), ((2 :: zeros 183)), fun x => { taken (ask (updRel (fun x => { x with otp := memWriteBytes [] (sageBlockAt + 0xA0 + 600) [1] }) (sagePart id)) 0x0E05 ((2 :: zeros 183))) .cmd with sage := x }, met⟩

/-- The hypotheses of `Obligations.SageRequests`, met leaf by leaf (part 6 of 7). -/
theorem witness_SageRequests_6 :
    (∃ (via : Transport) (s : State) (r : Req) (p : Bytes) (with_ : Sage → State) (g : ℕ), p = reqParams r ∧ s.sys.dev ≠ DevState.boot ∧ Sized s ∧ s.sage.phase ≠ SagePhase.inReset ∧ (∀ (x : Sage), with_ x = { taken s via with sage := x }) ∧ Takes 0xE05#16 via s r ∧ List.length p = 184 ∧ n8At p 0 = 2 ∧ zeroAt p 1 3 = true ∧ zeroAt p 22 2 = true ∧ s.sys.lifecycle ≠ Lifecycle.returned ∧ s.sys.lifecycle ≠ Lifecycle.ended ∧ s.sage.sealState ≠ SealState.isSealed ∧ s.sage.sealOp = none ∧ sealNextGen s = some g ∧ classFull s 0xE05#16 = false ∧ s.sage.next = none ∧ s.sage.params = none)
    ∧ (∃ (via : Transport) (s : State) (r : Req) (p : Bytes) (with_ : Sage → State) (g : ℕ) (b : Bytes) (n : Bytes) (i : ℕ), p = reqParams r ∧ s.sys.dev ≠ DevState.boot ∧ Sized s ∧ s.sage.phase ≠ SagePhase.inReset ∧ (∀ (x : Sage), with_ x = { taken s via with sage := x }) ∧ Takes 0xE05#16 via s r ∧ List.length p = 184 ∧ n8At p 0 = 2 ∧ zeroAt p 1 3 = true ∧ zeroAt p 22 2 = true ∧ s.sys.lifecycle ≠ Lifecycle.returned ∧ s.sys.lifecycle ≠ Lifecycle.ended ∧ s.sage.sealState ≠ SealState.isSealed ∧ s.sage.sealOp = none ∧ sealNextGen s = some g ∧ classFull s 0xE05#16 = false ∧ s.sage.next.or s.sage.params = some b ∧ s.sage.nonce = some (n, i) ∧ tokenSigned s (slice p 4 180) = true ∧ slice p 4 16 = n ∧ n8At p 20 = 2 ∧ n8At p 21 = g ∧ slice p 24 32 = sha256 b)
    ∧ (∃ (via : Transport) (s : State) (r : Req) (p : Bytes) (with_ : Sage → State) (g : ℕ) (b : Bytes) (n : Bytes) (i : ℕ), p = reqParams r ∧ s.sys.dev ≠ DevState.boot ∧ Sized s ∧ s.sage.phase ≠ SagePhase.inReset ∧ (∀ (x : Sage), with_ x = { taken s via with sage := x }) ∧ Takes 0xE05#16 via s r ∧ List.length p = 184 ∧ n8At p 0 = 2 ∧ zeroAt p 1 3 = true ∧ zeroAt p 22 2 = true ∧ s.sys.lifecycle ≠ Lifecycle.returned ∧ s.sys.lifecycle ≠ Lifecycle.ended ∧ s.sage.sealState ≠ SealState.isSealed ∧ s.sage.sealOp = none ∧ sealNextGen s = some g ∧ classFull s 0xE05#16 = false ∧ s.sage.next.or s.sage.params = some b ∧ s.sage.nonce = some (n, i) ∧ (tokenSigned s (slice p 4 180) = false ∨ slice p 4 16 ≠ n ∨ n8At p 20 ≠ 2 ∨ n8At p 21 ≠ g ∨ slice p 24 32 ≠ sha256 b))
    ∧ (∃ (via : Transport) (s : State) (r : Req) (p : Bytes) (with_ : Sage → State), p = reqParams r ∧ s.sys.dev ≠ DevState.boot ∧ Sized s ∧ s.sage.phase ≠ SagePhase.inReset ∧ (∀ (x : Sage), with_ x = { taken s via with sage := x }) ∧ Takes 0xE05#16 via s r ∧ List.length p = 184 ∧ n8At p 0 = 3 ∧ zeroAt p 1 3 = true ∧ zeroAt p 22 2 = true ∧ s.sage.sealState ≠ SealState.isSealed)
    ∧ (∃ (via : Transport) (s : State) (r : Req) (p : Bytes) (with_ : Sage → State) (n : Bytes) (i : ℕ), p = reqParams r ∧ s.sys.dev ≠ DevState.boot ∧ Sized s ∧ s.sage.phase ≠ SagePhase.inReset ∧ (∀ (x : Sage), with_ x = { taken s via with sage := x }) ∧ Takes 0xE05#16 via s r ∧ List.length p = 184 ∧ n8At p 0 = 3 ∧ zeroAt p 1 3 = true ∧ zeroAt p 22 2 = true ∧ s.sage.sealState = SealState.isSealed ∧ s.sage.sealOp = none ∧ classFull s 0xE05#16 = false ∧ s.sage.nonce = some (n, i) ∧ tokenSigned s (slice p 4 180) = true ∧ slice p 4 16 = n ∧ n8At p 20 = 3 ∧ n8At p 21 = sealGenByte s ∧ zeroAt p 24 32 = true)
    ∧ (∃ (via : Transport) (s : State) (r : Req) (p : Bytes) (with_ : Sage → State) (n : Bytes) (i : ℕ), p = reqParams r ∧ s.sys.dev ≠ DevState.boot ∧ Sized s ∧ s.sage.phase ≠ SagePhase.inReset ∧ (∀ (x : Sage), with_ x = { taken s via with sage := x }) ∧ Takes 0xE05#16 via s r ∧ List.length p = 184 ∧ n8At p 0 = 3 ∧ zeroAt p 1 3 = true ∧ zeroAt p 22 2 = true ∧ s.sage.sealState = SealState.isSealed ∧ s.sage.sealOp = none ∧ classFull s 0xE05#16 = false ∧ s.sage.nonce = some (n, i) ∧ (tokenSigned s (slice p 4 180) = false ∨ slice p 4 16 ≠ n ∨ n8At p 20 ≠ 3 ∨ n8At p 21 ≠ sealGenByte s ∨ zeroAt p 24 32 = false))
    ∧ (∃ (via : Transport) (s : State) (r : Req) (p : Bytes) (with_ : Sage → State), p = reqParams r ∧ s.sys.dev ≠ DevState.boot ∧ Sized s ∧ s.sage.phase ≠ SagePhase.inReset ∧ (∀ (x : Sage), with_ x = { taken s via with sage := x }) ∧ Takes 0xE05#16 via s r ∧ p = [4, 0, 0, 0] ∧ s.sage.pulseStops = false)
    ∧ (∃ (via : Transport) (s : State) (r : Req) (p : Bytes) (with_ : Sage → State), p = reqParams r ∧ s.sys.dev ≠ DevState.boot ∧ Sized s ∧ s.sage.phase ≠ SagePhase.inReset ∧ (∀ (x : Sage), with_ x = { taken s via with sage := x }) ∧ Takes 0xE05#16 via s r ∧ p = [5, 0, 0, 0] ∧ s.sage.pulseStops = true ∧ s.sage.pulse = true) := by
  refine ⟨?_, ?_, ?_, ?_, ?_, ?_, ?_, ?_⟩
  · exact ⟨.cmd, ask (sagePart id) 0x0E05 ((2 :: zeros 183)), mk 0x0E05 ((2 :: zeros 183)), ((2 :: zeros 183)), fun x => { taken (ask (sagePart id) 0x0E05 ((2 :: zeros 183))) .cmd with sage := x }, 0, met⟩
  · exact ⟨.cmd, ask (sagePart (fun x => { x with next := some [], nonce := some (zeros 16, 5) })) 0x0E05 (([2, 0, 0, 0] ++ zeros 16 ++ [2, 0, 0, 0] ++ beBytes 32 0xE3B0C44298FC1C149AFBF4C8996FB92427AE41E4649B934CA495991B7852B855 ++ keyOne ++ sigOne 0xAC4242B715354076D2FC4CDA0B7A9CBCC4F6C22A272BAE611627B32EA1CA0197)), mk 0x0E05 (([2, 0, 0, 0] ++ zeros 16 ++ [2, 0, 0, 0] ++ beBytes 32 0xE3B0C44298FC1C149AFBF4C8996FB92427AE41E4649B934CA495991B7852B855 ++ keyOne ++ sigOne 0xAC4242B715354076D2FC4CDA0B7A9CBCC4F6C22A272BAE611627B32EA1CA0197)), (([2, 0, 0, 0] ++ zeros 16 ++ [2, 0, 0, 0] ++ beBytes 32 0xE3B0C44298FC1C149AFBF4C8996FB92427AE41E4649B934CA495991B7852B855 ++ keyOne ++ sigOne 0xAC4242B715354076D2FC4CDA0B7A9CBCC4F6C22A272BAE611627B32EA1CA0197)), fun x => { taken (ask (sagePart (fun x => { x with next := some [], nonce := some (zeros 16, 5) })) 0x0E05 (([2, 0, 0, 0] ++ zeros 16 ++ [2, 0, 0, 0] ++ beBytes 32 0xE3B0C44298FC1C149AFBF4C8996FB92427AE41E4649B934CA495991B7852B855 ++ keyOne ++ sigOne 0xAC4242B715354076D2FC4CDA0B7A9CBCC4F6C22A272BAE611627B32EA1CA0197))) .cmd with sage := x }, 0, [], zeros 16, 5, met⟩
  · exact ⟨.cmd, ask (sagePart (fun x => { x with next := some sblk, nonce := some (zeros 16, 5) })) 0x0E05 ((2 :: zeros 183)), mk 0x0E05 ((2 :: zeros 183)), ((2 :: zeros 183)), fun x => { taken (ask (sagePart (fun x => { x with next := some sblk, nonce := some (zeros 16, 5) })) 0x0E05 ((2 :: zeros 183))) .cmd with sage := x }, 0, sblk, zeros 16, 5, met⟩
  · exact ⟨.cmd, ask (sagePart id) 0x0E05 ((3 :: zeros 183)), mk 0x0E05 ((3 :: zeros 183)), ((3 :: zeros 183)), fun x => { taken (ask (sagePart id) 0x0E05 ((3 :: zeros 183))) .cmd with sage := x }, met⟩
  · exact ⟨.cmd, ask (sagePart (fun x => { x with sealState := .isSealed, nonce := some (zeros 16, 5) })) 0x0E05 (([3, 0, 0, 0] ++ zeros 16 ++ [3, 255, 0, 0] ++ zeros 32 ++ keyOne ++ sigOne 0x8A2F60B9530A6802C76DDCC87B1059D98A59BBD996250D5AE6296C3450107DC4)), mk 0x0E05 (([3, 0, 0, 0] ++ zeros 16 ++ [3, 255, 0, 0] ++ zeros 32 ++ keyOne ++ sigOne 0x8A2F60B9530A6802C76DDCC87B1059D98A59BBD996250D5AE6296C3450107DC4)), (([3, 0, 0, 0] ++ zeros 16 ++ [3, 255, 0, 0] ++ zeros 32 ++ keyOne ++ sigOne 0x8A2F60B9530A6802C76DDCC87B1059D98A59BBD996250D5AE6296C3450107DC4)), fun x => { taken (ask (sagePart (fun x => { x with sealState := .isSealed, nonce := some (zeros 16, 5) })) 0x0E05 (([3, 0, 0, 0] ++ zeros 16 ++ [3, 255, 0, 0] ++ zeros 32 ++ keyOne ++ sigOne 0x8A2F60B9530A6802C76DDCC87B1059D98A59BBD996250D5AE6296C3450107DC4))) .cmd with sage := x }, zeros 16, 5, met⟩
  · exact ⟨.cmd, ask (sagePart (fun x => { x with sealState := .isSealed, nonce := some (zeros 16, 5) })) 0x0E05 ([3, 0, 0, 0] ++ zeros 16 ++ [3, 255, 0, 0] ++ zeros 32 ++ List.replicate 128 1), mk 0x0E05 ([3, 0, 0, 0] ++ zeros 16 ++ [3, 255, 0, 0] ++ zeros 32 ++ List.replicate 128 1), ([3, 0, 0, 0] ++ zeros 16 ++ [3, 255, 0, 0] ++ zeros 32 ++ List.replicate 128 1), fun x => { taken (ask (sagePart (fun x => { x with sealState := .isSealed, nonce := some (zeros 16, 5) })) 0x0E05 ([3, 0, 0, 0] ++ zeros 16 ++ [3, 255, 0, 0] ++ zeros 32 ++ List.replicate 128 1)) .cmd with sage := x }, zeros 16, 5, met⟩
  · exact ⟨.cmd, (ask (sagePart id) 0x0e05 [4, 0, 0, 0]), mk 0x0e05 [4, 0, 0, 0], [4, 0, 0, 0], (fun x => { taken (ask (sagePart id) 0x0e05 [4, 0, 0, 0]) .cmd with sage := x }), met⟩
  · exact ⟨.cmd, ask (sagePart (fun x => { x with pulse := true, pulseStops := true })) 0x0E05 [5, 0, 0, 0], mk 0x0E05 [5, 0, 0, 0], [5, 0, 0, 0], fun x => { taken (ask (sagePart (fun x => { x with pulse := true, pulseStops := true })) 0x0E05 [5, 0, 0, 0]) .cmd with sage := x }, met⟩

/-- The hypotheses of `Obligations.SageRequests`, met leaf by leaf (part 7 of 7). -/
theorem witness_SageRequests_7 :
    (∃ (via : Transport) (s : State) (r : Req) (p : Bytes) (with_ : Sage → State), p = reqParams r ∧ s.sys.dev ≠ DevState.boot ∧ Sized s ∧ s.sage.phase ≠ SagePhase.inReset ∧ (∀ (x : Sage), with_ x = { taken s via with sage := x }) ∧ Takes 0xE05#16 via s r ∧ p = [5, 0, 0, 0] ∧ s.sage.pulseStops = false ∧ s.sage.pulse = false)
    ∧ (∃ (via : Transport) (s : State) (r : Req) (p : Bytes) (with_ : Sage → State), p = reqParams r ∧ s.sys.dev ≠ DevState.boot ∧ Sized s ∧ s.sage.phase ≠ SagePhase.inReset ∧ (∀ (x : Sage), with_ x = { taken s via with sage := x }) ∧ Takes 0xE05#16 via s r ∧ p = [5, 0, 0, 0] ∧ s.sage.pulseStops = false ∧ s.sage.pulse = true) := by
  refine ⟨?_, ?_⟩
  · exact ⟨.cmd, (ask (sagePart id) 0x0e05 [5, 0, 0, 0]), mk 0x0e05 [5, 0, 0, 0], [5, 0, 0, 0], (fun x => { taken (ask (sagePart id) 0x0e05 [5, 0, 0, 0]) .cmd with sage := x }), met⟩
  · exact ⟨.cmd, (ask (sagePart (fun x => { x with pulse := true })) 0x0e05 [5, 0, 0, 0]), mk 0x0e05 [5, 0, 0, 0], [5, 0, 0, 0], (fun x => { taken (ask (sagePart (fun x => { x with pulse := true })) 0x0e05 [5, 0, 0, 0]) .cmd with sage := x }), met⟩

/-- The hypotheses of `Obligations.PublicationScrubAndRepairs`, met leaf by leaf (part 1 of 4). -/
theorem witness_PublicationScrubAndRepairs :
    (∃ (s : State) (v : List U32) (tj : U32) (ps : List (F32 × F32)), Sized s ∧ s.img.running = false)
    ∧ (∃ (s : State) (v : List U32) (tj : U32) (ps : List (F32 × F32)), Sized s ∧ s.img.running = true ∧ 1 ≤ BitVec.toNat s.img.newRate)
    ∧ (∃ (s : State), Sized s ∧ s.img.back = none)
    ∧ (∃ (s : State) (b : List Host.Cell), Sized s ∧ s.img.back = some b)
    ∧ (∃ (s : State) (m : ℕ) (w : ℕ) (bits : ℕ) (use : WordUse) (scrub : Bool), Sized s ∧ logLive s = false ∧ m < 108)
    ∧ (∃ (s : State) (m : ℕ) (w : ℕ) (use : WordUse) (scrub : Bool) (bits : ℕ), Sized s ∧ 108 ≤ m ∧ s.sage.phase = SagePhase.inReset)
    ∧ (∃ (s : State) (m : ℕ) (w : ℕ) (use : WordUse) (scrub : Bool), Sized s ∧ 108 ≤ m ∧ s.sage.phase ≠ SagePhase.inReset ∧ rowAgain s m (w / 16) = false) := by
  refine ⟨?_, ?_, ?_, ?_, ?_, ?_, ?_⟩
  · exact ⟨island .config, [], 0, [], met⟩
  · exact ⟨{ island .run with img := { (island .run).img with running := true, newRate := 1 } }, [], 0, [], met⟩
  · exact ⟨(island .config), met⟩
  · exact ⟨({ island .run with img := { (island .run).img with back := some [] } }), [], met⟩
  · exact ⟨State.reset, 107, 8191, 0, .none, true, met⟩
  · exact ⟨updSage (fun x => { x with phase := .inReset }) (island .config), 111, 8191, .none, true, 1, met⟩
  · exact ⟨sagePart id, 111, 8191, .none, true, met⟩

/-- The hypotheses of `Obligations.PublicationScrubAndRepairs`, met leaf by leaf (part 2 of 4). -/
theorem witness_PublicationScrubAndRepairs_2 :
    (∃ (s : State) (m : ℕ) (w : ℕ) (use : WordUse) (scrub : Bool) (bits : ℕ), Sized s ∧ 108 ≤ m ∧ s.sage.phase ≠ SagePhase.inReset ∧ (∀ x ∈ s.rel.rows, x.1 ≠ m ∨ x.2.1 ≠ w / 16) ∧ (bits = 2 ∨ bits = 1 ∧ rowAgain s m (w / 16) = true ∨ 3 ≤ bits ∧ ∀ (c i : ℕ), use ≠ WordUse.sageCopy c i))
    ∧ (∃ (s : State) (m : ℕ) (w : ℕ) (use : WordUse) (scrub : Bool) (c : ℕ) (i : ℕ) (l : List (BitVec 96)), Sized s ∧ 108 ≤ m ∧ s.sage.phase ≠ SagePhase.inReset ∧ c < 3 ∧ i < 10 ∧ s.sage.copies = List.replicate 3 l ∧ l.length = 10)
    ∧ (∃ (s : State) (m : ℕ) (w : ℕ) (use : WordUse), Sized s ∧ logLive s = true ∧ s.rel.scrubReads + 1 = 108 * 8192 ∧ m < 108 ∧ (∀ (p e : ℕ), use ≠ WordUse.canTx p e ∧ use ≠ WordUse.canRx p e))
    ∧ (∃ (s : State) (m : ℕ) (w : ℕ) (use : WordUse) (scrub : Bool), Sized s ∧ logLive s = true ∧ m < 108 ∧ s.rel.scrubReads + 1 < 108 * 8192 ∧ (∀ (p e : ℕ), use ≠ WordUse.canTx p e ∧ use ≠ WordUse.canRx p e))
    ∧ (∃ (s : State) (m : ℕ) (w : ℕ) (use : WordUse) (scrub : Bool) (p : ℕ) (e : ℕ), Sized s ∧ logLive s = true ∧ m < 108 ∧ s.rel.scrubReads + 1 < 108 * 8192 ∧ (use = WordUse.canTx p e ∨ use = WordUse.canRx p e))
    ∧ (∃ (s : State) (m : ℕ) (w : ℕ) (use : WordUse) (scrub : Bool), Sized s ∧ logLive s = true ∧ m < 108 ∧ s.rel.scrubReads + 1 < 108 * 8192 ∧ rowAgain s m (w / 16) = false ∧ s.rel.transient.length = 6)
    ∧ (∃ (s : State) (m : ℕ) (w : ℕ) (use : WordUse) (scrub : Bool) (bits : ℕ) (x : Retirement), Sized s ∧ logLive s = true ∧ m < 108 ∧ s.rel.scrubReads + 1 < 108 * 8192 ∧ (bits = 1 ∧ rowAgain s m (w / 16) = true ∨ bits = 2) ∧ x = { cls := 0, index := m, row := w / 16, reason := bits - 1 } ∧ isRetired s x = false ∧ (∀ y ∈ s.rel.waiting, y.cls ≠ 0 ∨ y.index ≠ m ∨ y.row ≠ w / 16)) := by
  refine ⟨?_, ?_, ?_, ?_, ?_, ?_, ?_⟩
  · exact ⟨sagePart id, 111, 8191, .none, true, 2, met, met, met, met, Or.inl rfl⟩
  · exact ⟨sagePart (fun x => { x with copies := List.replicate 3 (List.replicate 10 0) }), 111, 8191, .none, true, 2, 9, List.replicate 10 0, met⟩
  · exact ⟨updRel (fun x => { x with scrubReads := 108 * 8192 - 1 }) (island .config), 107, 8191, .none, met, met, met, met, (fun _ _ => ⟨nofun, nofun⟩)⟩
  · exact ⟨island .config, 107, 8191, .none, true, met, met, met, met, (fun _ _ => ⟨nofun, nofun⟩)⟩
  · exact ⟨island .config, 107, 8191, .canTx 5 3, true, 5, 3, met⟩
  · exact ⟨island .config, 107, 8191, .none, true, met⟩
  · exact ⟨island .config, 107, 8191, .none, true, 2, { cls := 0, index := 107, row := 511, reason := 1 }, met⟩

/-- The hypotheses of `Obligations.PublicationScrubAndRepairs`, met leaf by leaf (part 3 of 4). -/
theorem witness_PublicationScrubAndRepairs_3 :
    (∃ (s : State) (m : ℕ) (w : ℕ) (use : WordUse) (scrub : Bool) (a : ℕ), Sized s ∧ logLive s = true ∧ m < 108 ∧ s.rel.scrubReads + 1 < 108 * 8192 ∧ 18 ≤ m ∧ m < 33 ∧ a = (m - 18) * 65536 + 8 * w ∧ imageAt s a = none ∧ memWf s.loop.mem = true)
    ∧ (∃ (s : State) (m : ℕ) (w : ℕ) (use : WordUse) (scrub : Bool) (n : ℕ), Sized s ∧ logLive s = true ∧ m < 108 ∧ s.rel.scrubReads + 1 < 108 * 8192 ∧ 18 ≤ m ∧ m < 33 ∧ imageAt s ((m - 18) * 65536 + 8 * w) = some n ∧ (getStage s n).st = StageState.off)
    ∧ (∃ (s : State) (m : ℕ) (w : ℕ) (use : WordUse) (scrub : Bool), Sized s ∧ logLive s = true ∧ m < 108 ∧ s.rel.scrubReads + 1 < 108 * 8192 ∧ m < 18 ∧ (getEngine s m).stage = none)
    ∧ (∃ (s : State) (m : ℕ) (w : ℕ) (use : WordUse) (scrub : Bool), Sized s ∧ logLive s = true ∧ m < 108 ∧ s.rel.scrubReads + 1 < 108 * 8192 ∧ m = 33 ∧ memWf s.flt.mem = true)
    ∧ (∃ (s : State) (m : ℕ) (w : ℕ) (use : WordUse) (scrub : Bool), Sized s ∧ logLive s = true ∧ m < 108 ∧ s.rel.scrubReads + 1 < 108 * 8192 ∧ 42 ≤ m ∧ m < 106 ∧ capListens s = false ∧ memWf s.cap.mem = true)
    ∧ (∃ (s : State) (m : ℕ) (w : ℕ) (use : WordUse) (scrub : Bool), Sized s ∧ logLive s = true ∧ m < 108 ∧ s.rel.scrubReads + 1 < 108 * 8192 ∧ 34 ≤ m ∧ m < 42 ∧ ((∃ i, use = WordUse.logEntry i) ∨ ∃ p e, use = WordUse.canTx p e ∨ use = WordUse.canRx p e))
    ∧ (∃ (s : State) (m : ℕ) (w : ℕ) (use : WordUse) (scrub : Bool), Sized s ∧ logLive s = true ∧ m < 108 ∧ s.rel.scrubReads + 1 < 108 * 8192 ∧ 106 ≤ m ∧ s.sys.dev = DevState.run ∧ s.safe.causes = 0) := by
  refine ⟨?_, ?_, ?_, ?_, ?_, ?_, ?_⟩
  · exact ⟨island .config, 32, 8191, .none, true, 983032, met⟩
  · exact ⟨(stage7 .off id (island .config)), 18, 0, .none, true, 7, met⟩
  · exact ⟨island .config, 17, 8191, .none, true, met⟩
  · exact ⟨island .config, 33, 8191, .none, true, met⟩
  · exact ⟨island .config, 105, 8191, .none, true, met⟩
  · exact ⟨island .config, 41, 8191, .logEntry 3, true, met, met, met, met, met, met, .inl ⟨3, rfl⟩⟩
  · exact ⟨(island .run), 107, 0, .none, true, met⟩

/-- The hypotheses of `Obligations.PublicationScrubAndRepairs`, met leaf by leaf (part 4 of 4). -/
theorem witness_PublicationScrubAndRepairs_4 :
    (∃ (s : State), Sized s ∧ nextRetire s 0 = none)
    ∧ (∃ (s : State) (r : Retirement) (k : ℕ), Sized s ∧ nextRetire s 0 = some r ∧ freeRow s r.index = some k ∧ k < 4 ∧ r.index < 108 ∧ r.row < 512 ∧ r.reason < 7 ∧ r.cls = 0)
    ∧ (∃ (s : State) (r : Retirement), Sized s ∧ nextRetire s 0 = some r ∧ freeRow s r.index = none ∧ 18 ≤ r.index)
    ∧ (∃ (s : State), Sized s ∧ s.rel.logWrites = [])
    ∧ (∃ (s : State) (e : U64) (l : List U64) (k : ℕ), Sized s ∧ s.rel.logWrites = e :: l ∧ logUsed s = k ∧ k < 64 ∧ memWf s.rel.otp = true) := by
  refine ⟨?_, ?_, ?_, ?_, ?_⟩
  · exact ⟨(island .config), met⟩
  · exact ⟨relPart (fun x => { x with waiting := [{ cls := 0, index := 107, row := 511, reason := 6 }] }), { cls := 0, index := 107, row := 511, reason := 6 }, 0, met⟩
  · exact ⟨relPart (fun x => { x with waiting := [{ cls := 0, index := 111, row := 511, reason := 6 }], rows := [(111, 0, some 0), (111, 1, some 1), (111, 2, some 2), (111, 3, some 3)] }), { cls := 0, index := 111, row := 511, reason := 6 }, met⟩
  · exact ⟨(island .config), met⟩
  · exact ⟨relPart (fun x => { x with logWrites := [7] }), 7, [], 0, met⟩

/-- The hypotheses of `Obligations.OtpLifecycleAndDebug`, met leaf by leaf (part 1 of 4). -/
theorem witness_OtpLifecycleAndDebug :
    (∃ (s : State) (via : Transport) (r : Req) (p : Bytes) (b : ℕ) (g : ℕ) (k : ℕ), Sized s ∧ p = reqParams r ∧ Takes 0xF00#16 via s r ∧ n8At p 0 = b ∧ (b = 0 ∨ b = 1 ∨ b = 3 ∨ b = 4 ∨ b = 5) ∧ (∃ i u, r.via = Transport.udp i u) ∧ (b = 0 ∨ b = 3))
    ∧ (∃ (s : State) (via : Transport) (r : Req) (p : Bytes) (b : ℕ) (g : ℕ), Sized s ∧ p = reqParams r ∧ Takes 0xF00#16 via s r ∧ n8At p 0 = b ∧ (b = 0 ∨ b = 1 ∨ b = 3 ∨ b = 4 ∨ b = 5) ∧ r.via = Transport.cmd ∧ s.sys.dev = DevState.config ∧ s.sys.lifecycle = Lifecycle.develop ∧ List.length p = 256 ∧ zeroAt p 1 3 = true ∧ blockReservedOk b (slice p 4 252) = true ∧ blockFinite b (slice p 4 252) = true ∧ freeSlotNow s b = some g ∧ classFull s 0xF00#16 = false)
    ∧ (∃ (s : State) (via : Transport) (r : Req) (p : Bytes) (b : ℕ), Sized s ∧ p = reqParams r ∧ Takes 0xF00#16 via s r ∧ n8At p 0 = b ∧ r.via = Transport.cmd ∧ s.sys.dev = DevState.config ∧ s.sys.lifecycle = Lifecycle.develop ∧ List.length p = 256 ∧ (blockReservedOk b (slice p 4 252) = false ∨ blockFinite b (slice p 4 252) = false))
    ∧ (∃ (s : State) (via : Transport) (r : Req) (p : Bytes) (v : ℕ), Sized s ∧ p = reqParams r ∧ Takes 0xF00#16 via s r ∧ r.via = Transport.cmd ∧ s.sys.dev = DevState.config ∧ s.sys.lifecycle = Lifecycle.develop ∧ List.length p = 8 ∧ n8At p 0 = 6 ∧ zeroAt p 1 3 = true ∧ n16At p 4 = 1 ∧ n16At p 6 = v ∧ counterNow s < v ∧ v ≤ 4096 ∧ classFull s 0xF00#16 = false)
    ∧ (∃ (s : State) (via : Transport) (r : Req) (p : Bytes) (b : ℕ) (g : ℕ) (o : ℕ) (n : ℕ), Sized s ∧ p = reqParams r ∧ Takes 0xF01#16 via s r ∧ s.sys.dev ≠ DevState.boot ∧ List.length p = 8 ∧ zeroAt p 6 2 = true ∧ n8At p 0 = b ∧ b < 6 ∧ n8At p 1 = g ∧ g < 4 ∧ n16At p 2 = o ∧ n16At p 4 = n ∧ 1 ≤ n ∧ o + n ≤ 256)
    ∧ (∃ (s : State) (via : Transport) (r : Req) (p : Bytes), Sized s ∧ p = reqParams r ∧ Takes 0xF02#16 via s r ∧ s.sys.dev ≠ DevState.boot ∧ p = [0, 0, 0, 0])
    ∧ (∃ (s : State) (via : Transport) (r : Req) (p : Bytes) (tgt : ℕ), Sized s ∧ p = reqParams r ∧ Takes 0xF02#16 via s r ∧ s.sys.dev ≠ DevState.boot ∧ n8At p 0 = 1 ∧ n8At p 1 = tgt ∧ 2 ≤ tgt ∧ tgt ≤ 6 ∧ 2 ≤ List.length p ∧ lcListed s tgt = false) := by
  refine ⟨?_, ?_, ?_, ?_, ?_, ?_, ?_⟩
  · exact ⟨sessAsk 0x0F00 [3, 0, 0, 0], .udp 0 7, mkSess 0x0F00 [3, 0, 0, 0], [3, 0, 0, 0], 3, 0, 0, met⟩
  · exact ⟨ask ({ island .config with sys := { (island .config).sys with lifecycle := .develop } }) 0x0F00 ([4] ++ zeros 255), .cmd, mk 0x0F00 ([4] ++ zeros 255), ([4] ++ zeros 255), 4, 0, met⟩
  · exact ⟨ask ({ island .config with sys := { (island .config).sys with lifecycle := .develop } }) 0x0F00 ([1] ++ zeros 3 ++ List.replicate 252 0xFF), .cmd, mk 0x0F00 ([1] ++ zeros 3 ++ List.replicate 252 0xFF), ([1] ++ zeros 3 ++ List.replicate 252 0xFF), 1, met⟩
  · exact ⟨(ask ({ (island .config) with sys := { (island .config).sys with lifecycle := .develop } }) 0x0f00 [6, 0, 0, 0, 1, 0, 0, 16]), .cmd, mk 0x0f00 [6, 0, 0, 0, 1, 0, 0, 16], [6, 0, 0, 0, 1, 0, 0, 16], 4096, met⟩
  · exact ⟨ask (island .config) 0x0F01 [5, 3, 0, 0, 0, 1, 0, 0], .cmd, mk 0x0F01 [5, 3, 0, 0, 0, 1, 0, 0], [5, 3, 0, 0, 0, 1, 0, 0], 5, 3, 0, 256, met⟩
  · exact ⟨(ask (island .config) 0x0f02 [0, 0, 0, 0]), .cmd, mk 0x0f02 [0, 0, 0, 0], [0, 0, 0, 0], met⟩
  · exact ⟨ask ({ island .config with sys := { (island .config).sys with lifecycle := .ended } }) 0x0F02 [1, 6, 0, 0], .cmd, mk 0x0F02 [1, 6, 0, 0], [1, 6, 0, 0], 6, met⟩

/-- The hypotheses of `Obligations.OtpLifecycleAndDebug`, met leaf by leaf (part 2 of 4). -/
theorem witness_OtpLifecycleAndDebug_2 :
    (∃ (s : State) (via : Transport) (r : Req) (p : Bytes) (tgt : ℕ), Sized s ∧ p = reqParams r ∧ Takes 0xF02#16 via s r ∧ s.sys.dev ≠ DevState.boot ∧ n8At p 0 = 1 ∧ n8At p 1 = tgt ∧ 2 ≤ tgt ∧ tgt ≤ 6 ∧ 2 ≤ List.length p ∧ lcListed s tgt = true ∧ (s.sys.dev ≠ DevState.config ∧ (s.sys.dev ≠ DevState.safe ∨ tgt < 5) ∨ ∃ n < 8, (getStage s n).st ≠ StageState.off))
    ∧ (∃ (s : State) (via : Transport) (r : Req) (p : Bytes) (tgt : ℕ) (a : Byte), Sized s ∧ p = reqParams r ∧ Takes 0xF02#16 via s r ∧ s.sys.dev ≠ DevState.boot ∧ n8At p 0 = 1 ∧ n8At p 1 = tgt ∧ 2 ≤ tgt ∧ tgt ≤ 6 ∧ 2 ≤ List.length p ∧ lcListed s tgt = true ∧ (s.sys.dev = DevState.config ∨ s.sys.dev = DevState.safe ∧ 5 ≤ tgt) ∧ (∀ n < 8, (getStage s n).st = StageState.off) ∧ lcTokened s.sys.lifecycle tgt = false ∧ p = [1, a, 0, 0] ∧ tgt = 4 ∧ 64 ≤ lcC s)
    ∧ (∃ (s : State) (via : Transport) (r : Req) (p : Bytes) (tgt : ℕ) (a : Byte), Sized s ∧ p = reqParams r ∧ Takes 0xF02#16 via s r ∧ s.sys.dev ≠ DevState.boot ∧ n8At p 0 = 1 ∧ n8At p 1 = tgt ∧ 2 ≤ tgt ∧ tgt ≤ 6 ∧ 2 ≤ List.length p ∧ lcListed s tgt = true ∧ (s.sys.dev = DevState.config ∨ s.sys.dev = DevState.safe ∧ 5 ≤ tgt) ∧ (∀ n < 8, (getStage s n).st = StageState.off) ∧ lcTokened s.sys.lifecycle tgt = false ∧ p = [1, a, 0, 0] ∧ (tgt = 4 → lcC s < 64) ∧ s.rel.jobs = [] ∧ classFull s 0xF02#16 = false)
    ∧ (∃ (s : State) (via : Transport) (r : Req) (p : Bytes) (tgt : ℕ), Sized s ∧ p = reqParams r ∧ Takes 0xF02#16 via s r ∧ s.sys.dev ≠ DevState.boot ∧ n8At p 0 = 1 ∧ n8At p 1 = tgt ∧ 2 ≤ tgt ∧ tgt ≤ 6 ∧ 2 ≤ List.length p ∧ lcListed s tgt = true ∧ (s.sys.dev = DevState.config ∨ s.sys.dev = DevState.safe ∧ 5 ≤ tgt) ∧ (∀ n < 8, (getStage s n).st = StageState.off) ∧ lcTokened s.sys.lifecycle tgt = true ∧ List.length p = 216 ∧ zeroAt p 2 2 = true ∧ zeroAt p 21 3 = true ∧ (tgt = 3 → freeSlot s 2 ≠ none) ∧ s.rel.jobs = [] ∧ classFull s 0xF02#16 = false ∧ (s.rel.nonce = none ∨ (∃ n i, s.rel.nonce = some (n, i) ∧ slice p 4 16 ≠ n) ∨ n8At p 20 ≠ tgt))
    ∧ (∃ (s : State) (via : Transport) (r : Req) (p : Bytes), Sized s ∧ p = reqParams r ∧ Takes 0xF04#16 via s r ∧ s.sys.dev ≠ DevState.boot ∧ p = [])
    ∧ (∃ (s : State) (via : Transport) (r : Req) (p : Bytes) (e : U64), Sized s ∧ p = reqParams r ∧ Takes 0xF05#16 via s r ∧ s.sys.dev = DevState.config ∧ (∀ n < 8, (getStage s n).st = StageState.off) ∧ p = [1, 0, 0, 0] ++ le64 e ∧ (entryVoid e = true ∨ retInRange (entryRet e) = false))
    ∧ (∃ (s : State) (via : Transport) (r : Req) (p : Bytes) (e : U64) (x : Retirement), Sized s ∧ p = reqParams r ∧ Takes 0xF05#16 via s r ∧ s.sys.dev = DevState.config ∧ (∀ n < 8, (getStage s n).st = StageState.off) ∧ p = [1, 0, 0, 0] ++ le64 e ∧ x = { entryRet e with reason := 6 } ∧ entryVoid e = false ∧ retInRange (entryRet e) = true ∧ s.rel.waiting = [] ∧ isRetired s x = true) := by
  refine ⟨?_, ?_, ?_, ?_, ?_, ?_, ?_⟩
  · exact ⟨ask ({ island .config with sys := { (island .config).sys with lifecycle := .blank, dev := .ready } }) 0x0F02 [1, 2, 0, 0], .cmd, mk 0x0F02 [1, 2, 0, 0], [1, 2, 0, 0], 2, met⟩
  · exact ⟨ask ({ (updRel (fun x => { x with otp := memWriteBytes (memWriteBytes [] (8 * 1121) (List.replicate 8 0xFF)) 2048 ((blk ++ zeros (252 - blk.length)) ++ le32 (crc32 (blk ++ zeros (252 - blk.length)))) }) (island .config)) with sys := { (island .config).sys with lifecycle := .production }, safe := { (island .config).safe with inOtp := true, block := some (blk ++ zeros (252 - blk.length)) } }) 0x0F02 [1, 4, 0, 0], .cmd, mk 0x0F02 [1, 4, 0, 0], [1, 4, 0, 0], 4, 4, met⟩
  · exact ⟨ask ({ island .config with sys := { (island .config).sys with lifecycle := .blank } }) 0x0F02 [1, 2, 0, 0], .cmd, mk 0x0F02 [1, 2, 0, 0], [1, 2, 0, 0], 2, 2, met⟩
  · exact ⟨ask ({ island .config with sys := { (island .config).sys with lifecycle := .blank } }) 0x0F02 ([1, 5] ++ zeros 214), .cmd, mk 0x0F02 ([1, 5] ++ zeros 214), ([1, 5] ++ zeros 214), 5, met, met, met, met, met, met, met, met, met, met, met, met, met, met, met, met, met, met, met, Or.inl rfl⟩
  · exact ⟨(ask (island .config) 0x0f04 []), .cmd, mk 0x0f04 [], [], met⟩
  · exact ⟨ask (island .config) 0x0F05 ([1, 0, 0, 0] ++ le64 0x6f1ff00060000a5#64), .cmd, mk 0x0F05 ([1, 0, 0, 0] ++ le64 0x6f1ff00060000a5#64), ([1, 0, 0, 0] ++ le64 0x6f1ff00060000a5#64), 0x6f1ff00060000a5#64, met⟩
  · exact ⟨ask (relPart (fun x => { x with laneRetired := [true, true, true] })) 0x0F05 ([1, 0, 0, 0] ++ le64 0x50000000010000a5#64), .cmd, mk 0x0F05 ([1, 0, 0, 0] ++ le64 0x50000000010000a5#64), ([1, 0, 0, 0] ++ le64 0x50000000010000a5#64), 0x50000000010000a5#64, { entryRet 0x50000000010000a5#64 with reason := 6 }, met⟩

/-- The hypotheses of `Obligations.OtpLifecycleAndDebug`, met leaf by leaf (part 3 of 4). -/
theorem witness_OtpLifecycleAndDebug_3 :
    (∃ (s : State) (via : Transport) (r : Req) (p : Bytes) (e : U64) (x : Retirement), Sized s ∧ p = reqParams r ∧ Takes 0xF05#16 via s r ∧ s.sys.dev = DevState.config ∧ (∀ n < 8, (getStage s n).st = StageState.off) ∧ p = [1, 0, 0, 0] ++ le64 e ∧ x = { entryRet e with reason := 6 } ∧ entryVoid e = false ∧ retInRange (entryRet e) = true ∧ s.rel.waiting = [] ∧ x.cls = 0 ∧ isRetired s x = false)
    ∧ (∃ (s : State) (via : Transport) (r : Req) (p : Bytes) (e : U64) (x : Retirement), Sized s ∧ p = reqParams r ∧ Takes 0xF05#16 via s r ∧ s.sys.dev = DevState.config ∧ (∀ n < 8, (getStage s n).st = StageState.off) ∧ p = [1, 0, 0, 0] ++ le64 e ∧ x = { entryRet e with reason := 6 } ∧ entryVoid e = false ∧ retInRange (entryRet e) = true ∧ s.rel.waiting = [] ∧ 1 ≤ x.cls ∧ isRetired s x = false)
    ∧ (∃ (s : State) (ok : Bool), Sized s ∧ s.rel.jobs = [])
    ∧ (∃ (s : State) (l : List OtpJob) (b : ℕ) (g : ℕ) (d : Bytes) (ok : Bool), Sized s ∧ memWf s.rel.otp = true ∧ s.rel.jobs = OtpJob.block b g d :: l ∧ List.length d = 252 ∧ b < 6 ∧ g < 4)
    ∧ (∃ (s : State) (l : List OtpJob) (i : ℕ) (v : ℕ) (ok : Bool), Sized s ∧ memWf s.rel.otp = true ∧ s.rel.jobs = OtpJob.counter i v :: l ∧ i < 2 ∧ v ≤ 4096)
    ∧ (∃ (s : State) (l : List OtpJob) (g : ℕ) (d : Bytes), Sized s ∧ memWf s.rel.otp = true ∧ s.rel.jobs = OtpJob.commission g d :: l ∧ List.length d = 252 ∧ g < 4)
    ∧ (∃ (s : State) (l : List OtpJob) (tgt : ℕ), Sized s ∧ memWf s.rel.otp = true ∧ s.rel.jobs = OtpJob.transition tgt :: l ∧ s.sys.longs = [] ∧ s.sys.resetDue = none) := by
  refine ⟨?_, ?_, ?_, ?_, ?_, ?_, ?_⟩
  · exact ⟨ask (relPart id) 0x0F05 ([1, 0, 0, 0] ++ le64 0x06b1ff00010000a5#64), .cmd, mk 0x0F05 ([1, 0, 0, 0] ++ le64 0x06b1ff00010000a5#64), ([1, 0, 0, 0] ++ le64 0x06b1ff00010000a5#64), 0x06b1ff00010000a5#64, { entryRet 0x06b1ff00010000a5#64 with reason := 6 }, met⟩
  · exact ⟨ask (relPart (fun x => { x with laneRetired := [true, true, false] })) 0x0F05 ([1, 0, 0, 0] ++ le64 0x50200000010000a5#64), .cmd, mk 0x0F05 ([1, 0, 0, 0] ++ le64 0x50200000010000a5#64), ([1, 0, 0, 0] ++ le64 0x50200000010000a5#64), 0x50200000010000a5#64, { entryRet 0x50200000010000a5#64 with reason := 6 }, met⟩
  · exact ⟨island .config, true, met⟩
  · exact ⟨(relPart (fun x => { x with jobs := [.block 5 3 (zeros 252)] })), [], 5, 3, zeros 252, true, met⟩
  · exact ⟨(relPart (fun x => { x with jobs := [.counter 1 4096] })), [], 1, 4096, true, met⟩
  · exact ⟨relPart (fun x => { x with jobs := [.commission 3 (zeros 252)] }), [], 3, zeros 252, met⟩
  · exact ⟨(relPart (fun x => { x with jobs := [.transition 2] })), [], 2, met⟩

/-- The hypotheses of `Obligations.OtpLifecycleAndDebug`, met leaf by leaf (part 4 of 4). -/
theorem witness_OtpLifecycleAndDebug_4 :
    (∃ (s : State), Sized s ∧ s.rel.nonce = none)
    ∧ (∃ (s : State) (n : Bytes) (i : ℕ), Sized s ∧ s.rel.nonce = some (n, i))
    ∧ (∃ (s : State) (i : JtagInstr) (c : Byte) (byLifecycle : Prop) (drives : Prop), Sized s ∧ (byLifecycle ↔ s.sys.lifecycle = Lifecycle.blank ∨ s.sys.lifecycle = Lifecycle.develop ∨ s.sys.lifecycle = Lifecycle.returned ∨ i = JtagInstr.bypass ∨ s.sys.lifecycle ≠ Lifecycle.ended ∧ (i = JtagInstr.idcode ∨ i = JtagInstr.sample)) ∧ (drives ↔ i = JtagInstr.extest ∨ i = JtagInstr.intest ∨ i = JtagInstr.clamp) ∧ byLifecycle ∧ (drives → s.sys.dev ≠ DevState.run ∧ ∀ n < 8, (getStage s n).st = StageState.off))
    ∧ (∃ (s : State) (i : JtagInstr) (c : Byte) (byLifecycle : Prop) (drives : Prop), Sized s ∧ (byLifecycle ↔ s.sys.lifecycle = Lifecycle.blank ∨ s.sys.lifecycle = Lifecycle.develop ∨ s.sys.lifecycle = Lifecycle.returned ∨ i = JtagInstr.bypass ∨ s.sys.lifecycle ≠ Lifecycle.ended ∧ (i = JtagInstr.idcode ∨ i = JtagInstr.sample)) ∧ (drives ↔ i = JtagInstr.extest ∨ i = JtagInstr.intest ∨ i = JtagInstr.clamp) ∧ (¬byLifecycle ∨ drives ∧ (s.sys.dev = DevState.run ∨ ∃ n < 8, (getStage s n).st ≠ StageState.off))) := by
  refine ⟨?_, ?_, ?_, ?_⟩
  · exact ⟨(island .config), met⟩
  · exact ⟨relPart (fun x => { x with nonce := some (zeros 16, 5) }), zeros 16, 5, met⟩
  · exact ⟨(island .config), .bypass, 0, True, False, met⟩
  · exact ⟨(island .run), .extest, 0, True, True, met⟩

/-- The hypotheses of `Obligations.EveryStepKeepsResourcesMemoriesAndFuses`, met leaf by leaf. -/
theorem witness_EveryStepKeepsResourcesMemoriesAndFuses :
    (∃ (s : State) (t : State), step s = Host.Outcome.next t ∧ Sized s ∧ MemoriesOk s) := by
  exact ⟨State.reset, State.reset, rfl, met, by decide +kernel, by decide +kernel, by decide +kernel, by decide +kernel, by decide +kernel, by decide +kernel, by decide +kernel, fun b h => by cases h⟩

/-- The hypotheses of `Obligations.RefusedRequestsLeaveOnlyTheirReply`, met leaf by leaf. -/
theorem witness_RefusedRequestsLeaveOnlyTheirReply :
    (∃ (via : Transport) (s : State) (c : Instr), nextRequest s via = none ∧ servedVia c = some via)
    ∧ (∃ (via : Transport) (s : State) (fail : Option (ℕ × ℕ)), nextRequest s via = none)
    ∧ (∃ (via : Transport) (s : State) (r : Req) (st : U16) (c : Instr), nextRequest s via = some r ∧ headerCheck (dropRequest s via) r = some st ∧ openReplayed s via = false ∧ servedVia c = some via ∧ ownRow c r = false)
    ∧ (∃ (via : Transport) (s : State) (r : Req) (st : U16) (c : Instr), nextRequest s via = some r ∧ headerCheck (dropRequest s via) r = some st ∧ openReplayed s via = false ∧ servedVia c = some via ∧ ownRow c r = true ∧ (paramRows c = true → paramFull s = false))
    ∧ (∃ (via : Transport) (s : State) (r : Req) (st : U16) (fail : Option (ℕ × ℕ)), nextRequest s via = some r ∧ headerCheck (dropRequest s via) r = some st ∧ openReplayed s via = false ∧ reqOpcode r ≠ 0x103#16)
    ∧ (∃ (via : Transport) (s : State) (r : Req) (st : U16) (fail : Option (ℕ × ℕ)), nextRequest s via = some r ∧ headerCheck (dropRequest s via) r = some st ∧ openReplayed s via = false ∧ reqOpcode r = 0x103#16)
    ∧ (∃ (via : Transport) (s : State) (port : ℕ) (sid : U32), via = Transport.udp port sid ∧ openReplayed s via = true)
    ∧ (∃ (via : Transport) (s : State) (r : Req) (c : Instr), nextRequest s via = some r ∧ paramFull s = true ∧ servedVia c = some via ∧ paramRows c = true ∧ ownRow c r = true) := by
  refine ⟨?_, ?_, ?_, ?_, ?_, ?_, ?_, ?_⟩
  · exact ⟨.cmd, State.reset, .sysStatus .cmd, met⟩
  · exact ⟨.cmd, State.reset, none, met⟩
  · exact ⟨.cmd, ask (part .config) 0x0105 [], mk 0x0105 [], E_OPCODE, .sysStatus .cmd, met⟩
  · exact ⟨.cmd, { part .config with cmd := { (part .config).cmd with requests := [{ mk 0x0101 [] with bytes := pkt 0x0101 [] ++ zeros 4 }] } }, { mk 0x0101 [] with bytes := pkt 0x0101 [] ++ zeros 4 }, E_CRC, .sysStatus .cmd, met⟩
  · exact ⟨.cmd, { part .config with cmd := { (part .config).cmd with requests := [{ mk 0x0101 [] with bytes := pkt 0x0101 [] ++ zeros 4 }] } }, { mk 0x0101 [] with bytes := pkt 0x0101 [] ++ zeros 4 }, E_CRC, none, met⟩
  · exact ⟨.cmd, { part .config with cmd := { (part .config).cmd with requests := [{ mk 0x0103 [] with bytes := pkt 0x0103 [] ++ zeros 4 }] } }, { mk 0x0103 [] with bytes := pkt 0x0103 [] ++ zeros 4 }, E_CRC, none, met⟩
  · exact ⟨.udp 0 0, { sessState with udp := { sessState.udp with queue := [mkOpen (zeros 32)], nonces0 := [zeros 16] } }, 0, 0, met⟩
  · exact ⟨.cmd, fullQ (ask (island .run) 0x0605 []), mk 0x0605 [], .graphWriteParam .cmd, met⟩

end Sys2Proof.Tests
end

namespace Sys2Proof.Proofs

open Sys2Proof Sys2Proof.Machine Sys2Proof.Claims

/-! ### O32: SAR4's check while its own retirement is decided -/

/-- Two retirements of SAR cores are decided: that of core 1, which converts until the next round boundary, and behind it that of
SAR4, which read its check voltage wrong twice (R533, R534). -/
def sarsDecided : List Retirement := [{ cls := 1, index := 1, row := 0, reason := 3 }, { cls := 1, index := 4, row := 0, reason := 3 }]

/-- The part in reset but for a settled reference and those two retirements. SAR4 is still spare. -/
def sar4Leaving : State :=
  { State.reset with sense := { State.reset.sense with refState := 2 }, rel := { State.reset.rel with waiting := sarsDecided } }

theorem sar4Leaving_sized : Sized sar4Leaving := by
  simp only [Sized, timeSized, clkSized, senseSized, fltSized, pwmSized, loopSized, safeSized, fieldSized, capSized, sageSized, relSized]
  decide

/-- SAR4 gives no verdict once its own retirement is decided (R534). -/
theorem sarCheck_of_not_checks {core : Nat} {code : U16} {chk : U16 × U16} {s : State} (h : sar4Checks s = false) :
    sarCheck core code chk s = s := by
  simp [sarCheck, h]

/-- A code 100 apart from SAR4's at position 0 of the core that SAR4 checks: the conversion is stored and no mismatch counted. -/
theorem exec_sarConversion_sar4Leaving :
    exec (.sarConversion 0 0 100 (some (0, 0))) sar4Leaving = .next (storeConv 48 100 0 (advanceTo 200 sar4Leaving)) := by
  have hq : sar4Checks (storeConv 48 100 0 (advanceTo 200 sar4Leaving)) = false := by decide
  exact congrArg Host.Outcome.next (sarCheck_of_not_checks (core := 0) (code := 100) (chk := (0, 0)) hq)

/-- Refutes O32: the statement lets SAR4 check while it is spare, but its check also needs that its own retirement is not decided. With
that retirement waiting behind that of core 1 a mismatch of 100 LSB is neither counted nor starts a comparison. -/
theorem not_roundsAndConversions : ¬ Obligations.RoundsAndConversions := by
  unfold Obligations.RoundsAndConversions
  intro h
  obtain ⟨-, -, -, hsar, -⟩ := h sar4Leaving sar4Leaving_sized
  obtain ⟨-, hon⟩ := hsar 0 0 0 100 (some (0, 0)) (by decide) (by decide) rfl
  obtain ⟨-, -, -, hmis, -⟩ := hon rfl rfl
  obtain ⟨t, ht, hcount, -⟩ := hmis 0 (0, 0) (by decide) (by decide) rfl rfl rfl rfl (by decide) rfl (by decide)
  rw [exec_sarConversion_sar4Leaving] at ht
  injection ht with ht
  have hzero : t.sense.sarMismatch = sar4Leaving.sense.sarMismatch := by rw [← ht]; rfl
  rw [hzero] at hcount
  exact absurd hcount (by decide)

end Sys2Proof.Proofs

namespace Sys2Proof.Proofs

open Sys2Proof Sys2Proof.Machine Sys2Proof.Claims Sys2Proof.Laws

/-! ### Numbered resources: what an update at a place leaves to be read -/

theorem getD_upd_same {α : Type} {l : List α} {n : Nat} (f : α → α) (d : α) (h : n < l.length) : (upd l n f).getD n d = f (l.getD n d) := by
  simp [upd, List.getD, h]

theorem getD_upd_ne {α : Type} {l : List α} {n m : Nat} (f : α → α) (d : α) (h : m ≠ n) : (upd l n f).getD m d = l.getD m d := by
  simp [upd, List.getD, Ne.symm h]

/-- A change that a reading does not show leaves every place's reading, also beyond the list. -/
theorem getD_upd_map {α β : Type} {g : α → β} {f : α → α} (h : ∀ x, g (f x) = g x) (l : List α) (n m : Nat) (d : α) :
    g ((upd l n f).getD m d) = g (l.getD m d) := by
  by_cases hm : m = n
  · subst hm
    by_cases hl : m < l.length
    · rw [getD_upd_same f d hl, h]
    · simp [upd, List.getD, hl]
  · rw [getD_upd_ne f d hm]

theorem map_upd_of_eq {α β : Type} {g : α → β} {f : α → α} (h : ∀ x, g (f x) = g x) (l : List α) (n : Nat) : (upd l n f).map g = l.map g := by
  apply List.ext_getElem?
  intro i
  simp only [upd, List.getElem?_map, List.getElem?_modify]
  cases l[i]? with
  | none => simp
  | some x => by_cases hi : n = i <;> simp [hi, h]

@[simp] theorem getStage_updStage_ne {n m : Nat} {f : Stage → Stage} {s : State} (h : m ≠ n) : getStage (updStage n f s) m = getStage s m := getD_upd_ne f _ h
theorem getStage_updStage_same {n : Nat} {f : Stage → Stage} {s : State} (h : n < s.loop.stages.length) : getStage (updStage n f s) n = f (getStage s n) := getD_upd_same f _ h
@[simp] theorem getTimer_updTimer_ne {n m : Nat} {f : Timer → Timer} {s : State} (h : m ≠ n) : getTimer (updTimer n f s) m = getTimer s m := getD_upd_ne f _ h
theorem getTimer_updTimer_same {n : Nat} {f : Timer → Timer} {s : State} (h : n < s.pwm.timers.length) : getTimer (updTimer n f s) n = f (getTimer s n) := getD_upd_same f _ h
@[simp] theorem getGroup_updGroup_ne {n m : Nat} {f : Group → Group} {s : State} (h : m ≠ n) : getGroup (updGroup n f s) m = getGroup s m := getD_upd_ne f _ h
theorem getGroup_updGroup_same {n : Nat} {f : Group → Group} {s : State} (h : n < s.pwm.groups.length) : getGroup (updGroup n f s) n = f (getGroup s n) := getD_upd_same f _ h
@[simp] theorem getChan_updChan_ne {n m : Nat} {f : Channel → Channel} {s : State} (h : m ≠ n) : getChan (updChan n f s) m = getChan s m := getD_upd_ne f _ h
theorem getChan_updChan_same {n : Nat} {f : Channel → Channel} {s : State} (h : n < s.pwm.channels.length) : getChan (updChan n f s) n = f (getChan s n) := getD_upd_same f _ h
@[simp] theorem getHb_updHb_ne {n m : Nat} {f : HalfBridge → HalfBridge} {s : State} (h : m ≠ n) : getHb (updHb n f s) m = getHb s m := getD_upd_ne f _ h
theorem getHb_updHb_same {n : Nat} {f : HalfBridge → HalfBridge} {s : State} (h : n < s.pwm.hbs.length) : getHb (updHb n f s) n = f (getHb s n) := getD_upd_same f _ h

/-! ### Readings of the state that an operation leaves

A reading `v` is any function of the state. Each lemma says that an operation leaves it, given that the operation's own plain
updates do. -/

/-- A reading that shows neither the event log nor the capture unit. -/
def LogBlind {α : Type} (v : State → α) : Prop := ∀ (s : State) (e : EventLog) (c : Capture), v { s with evt := e, cap := c } = v s

theorem LogBlind.of_log {α : Type} {v : State → α} (hv : LogBlind v) {s t : State} (h : LogOnly s t) : v t = v s := by
  rw [show t = { s with evt := t.evt, cap := t.cap } from h]; exact hv ..

theorem forEach_reading {α : Type} {v : State → α} {f : Nat → State → State} (h : ∀ i s, v (f i s) = v s) (l : List Nat) (s : State) :
    v (forEach l f s) = v s := by
  unfold forEach
  induction l generalizing s with
  | nil => rfl
  | cons i l ih => exact (ih _).trans (h i s)

theorem foldl_reading {α β : Type} {v : State → α} {f : State → β → State} (h : ∀ s b, v (f s b) = v s) (l : List β) (s : State) :
    v (l.foldl f s) = v s := by
  induction l generalizing s with
  | nil => rfl
  | cons b l ih => exact (ih _).trans (h s b)

/-- What no shutdown of a stage and no retirement touches: time, the safety functions, the timers, and of the system all but what
replies count. -/
def standing (s : State) : Thyme × Safety × List Timer × Sys := (s.time, s.safe, s.pwm.timers, { s.sys with errors := 0, longs := [] })


/-! #### The scheduler's bookkeeping -/

/-- A stage but for what the scheduler counts of its slots and stalls (R262). -/
def bookkept (x : Stage) : Stage := { x with slotsPeak := 0, portStall := 0 }

/-- A reading that shows neither the scheduler's instances and engines nor what it counts per stage. -/
def SchedBlind {α : Type} (v : State → α) : Prop :=
  ∀ (s : State) (st : List Stage) (es : List Engine) (is : List Inst), st.map bookkept = s.loop.stages.map bookkept →
    v { s with loop := { s.loop with stages := st, engines := es, insts := is } } = v s

section
variable {α : Type} {v : State → α} (hv : SchedBlind v)
include hv

theorem updEngine_reading (e : Nat) (f : Engine → Engine) (s : State) : v (updEngine e f s) = v s := hv s s.loop.stages _ s.loop.insts rfl

theorem updStage_reading_of_bookkept {f : Stage → Stage} (hf : ∀ x, bookkept (f x) = bookkept x) (n : Nat) (s : State) : v (updStage n f s) = v s :=
  hv s _ s.loop.engines s.loop.insts (map_upd_of_eq hf ..)

theorem takeSlot_reading (k : Nat) (i : Inst) (q d : Nat) (s : State) : v (takeSlot k i q d s) = v s :=
  (updStage_reading_of_bookkept hv (by exact fun _ => rfl) ..).trans (hv s s.loop.stages s.loop.engines _ rfl)

theorem grantSlots_reading (n home q f : Nat) (s : State) : v (grantSlots n home q f s) = v s := by
  induction f generalizing s with
  | zero => rfl
  | succ f ih =>
    unfold grantSlots
    split
    · rfl
    · next k i d p _ =>
      refine (ih _).trans ?_
      cases p with
      | none => exact takeSlot_reading hv ..
      | some e => exact (updEngine_reading hv ..).trans (takeSlot_reading hv ..)

theorem endHold_reading (e : Nat) (s : State) : v (endHold e s) = v s := by
  unfold endHold
  dsimp only
  split
  · exact (updStage_reading_of_bookkept hv (by exact fun _ => rfl) ..).trans (updEngine_reading hv ..)
  · exact updEngine_reading hv ..

theorem followHold_reading (e : Nat) (s : State) : v (followHold e s) = v s := by
  unfold followHold
  split
  · exact updEngine_reading hv ..
  · exact endHold_reading hv ..
  · rfl

theorem followHolds_reading (n : Nat) (s : State) : v (followHolds n s) = v s := forEach_reading (followHold_reading hv) _ s

/-- A squash takes frames from its stage, and else leaves what the scheduler's bookkeeping does not touch (R257, R273). -/
theorem squash_reading (n : Nat) (fs : List U32) (s : State) :
    v (squash n fs s) = v (updStage n (fun x => { x with frames := x.frames.filter (fun f => !fs.contains f.index) }) s) := by
  unfold squash
  exact ((followHolds_reading hv ..).trans (forEach_reading (fun h s => grantSlots_reading hv n h (qNow _) 16 s) _ _)).trans
    (hv (updStage n (fun x => { x with frames := x.frames.filter (fun f => !fs.contains f.index) }) s) _ _ _ rfl)

end

/-- The stages but for the scheduler's counts. -/
def stagesShown (s : State) : List Stage := s.loop.stages.map bookkept

theorem stagesShown_schedBlind : SchedBlind stagesShown := fun _ _ _ _ h => h

theorem getStage_of_stagesShown {s t : State} (h : stagesShown t = stagesShown s) (m : Nat) : bookkept (getStage t m) = bookkept (getStage s m) := by
  have hm : ∀ u : State, bookkept (getStage u m) = (stagesShown u).getD m (bookkept stage0) := fun u => (List.getD_map ..).symm
  rw [hm, hm, h]

theorem stages_length_of_stagesShown {s t : State} (h : stagesShown t = stagesShown s) : t.loop.stages.length = s.loop.stages.length := by
  simpa [stagesShown] using congrArg List.length h

/-! #### Channels, half-bridges and gate edges -/

/-- A reading that shows neither channels nor half-bridges. -/
def GateBlind {α : Type} (v : State → α) : Prop :=
  ∀ (s : State) (cs : List Channel) (hs : List HalfBridge), v { s with pwm := { s.pwm with channels := cs, hbs := hs } } = v s

section
variable {α : Type} {v : State → α} (hv : GateBlind v)
include hv

theorem updChan_reading (c : Nat) (f : Channel → Channel) (s : State) : v (updChan c f s) = v s := hv s _ s.pwm.hbs
theorem updHb_reading (h : Nat) (f : HalfBridge → HalfBridge) (s : State) : v (updHb h f s) = v s := hv s s.pwm.channels _

theorem endPrecharge_reading (c : Nat) (s : State) : v (endPrecharge c s) = v s := by
  unfold endPrecharge
  split
  · rfl
  · exact updHb_reading hv ..

theorem clearDieLatch_reading (c : Nat) (s : State) : v (clearDieLatch c s) = v s := by
  unfold clearDieLatch
  split
  · rfl
  · exact updHb_reading hv ..

theorem chanOffNow_reading (c : Nat) (s : State) : v (chanOffNow c s) = v s := (endPrecharge_reading hv ..).trans (updChan_reading hv ..)

theorem chanStop_reading (c : Nat) (s : State) : v (chanStop c s) = v s := by
  unfold chanStop
  dsimp only
  split
  · exact (endPrecharge_reading hv ..).trans (updChan_reading hv ..)
  · exact chanOffNow_reading hv ..

theorem chanEntersOff_reading (c : Nat) (s : State) : v (chanEntersOff c s) = v s := (clearDieLatch_reading hv ..).trans (updChan_reading hv ..)

end

theorem standing_gateBlind : GateBlind standing := fun _ _ _ => rfl
theorem stagesShown_gateBlind : GateBlind stagesShown := fun _ _ _ => rfl

/-! #### Forming units -/

/-- A reading that shows neither the forming units nor the log. -/
def FormBlind {α : Type} (v : State → α) : Prop :=
  ∀ (s : State) (fs : List FormingUnit) (e : EventLog) (c : Capture), v { s with fus := fs, evt := e, cap := c } = v s

theorem FormBlind.log {α : Type} {v : State → α} (hv : FormBlind v) : LogBlind v := fun s e c => hv s s.fus e c

section
variable {α : Type} {v : State → α} (hv : FormBlind v)
include hv

theorem updFu_reading (u : Nat) (f : FormingUnit → FormingUnit) (s : State) : v (updFu u f s) = v s := hv s _ s.evt s.cap
theorem formPost_reading (c : U16) (n : Nat) (d : Bytes) (s : State) : v (post c n d s) = v s := hv.log.of_log (post_log ..)

theorem fuLeftOver_reading (u : Nat) (r : FuReq) (s : State) : v (fuLeftOver u r s) = v s := by
  unfold fuLeftOver
  split
  · split
    · exact updFu_reading hv ..
    · exact formPost_reading hv ..
  · rfl
  · exact updFu_reading hv ..
  · exact updFu_reading hv ..
  · exact updFu_reading hv ..

theorem fuDropped_reading (u : Nat) (r : FuReq) (s : State) : v (fuDropped u r s) = v s := by
  unfold fuDropped
  split
  · exact formPost_reading hv ..
  · exact fuLeftOver_reading hv ..

theorem fuEnterOff_reading (u cause : Nat) (reason : Option Nat) (s : State) : v (fuEnterOff u cause reason s) = v s := by
  unfold fuEnterOff
  dsimp only
  split
  · rfl
  · refine (foldl_reading (fun s r => fuLeftOver_reading hv u r s) _ _).trans ((updFu_reading hv ..).trans ?_)
    cases reason with
    | none => exact formPost_reading hv ..
    | some r => exact (formPost_reading hv ..).trans (formPost_reading hv ..)

theorem fuStageGone_reading (u cause reason : Nat) (s : State) : v (fuStageGone u cause reason s) = v s :=
  (foldl_reading (fun s r => fuDropped_reading hv u r s) _ _).trans ((updFu_reading hv ..).trans (fuEnterOff_reading hv ..))

/-- Leaving ENABLED, but for the compare sets of its groups, is a matter of the forming units and the capture (R308, R491). -/
theorem leaveEnabled_reading_of_groups (hg : ∀ g f s, v (updGroup g f s) = v s) (n cause reason : Nat) (s : State) :
    v (leaveEnabled n cause reason s) = v s :=
  (forEach_reading (fun g s => hg g _ s) _ _).trans
    ((hv.log.of_log (capRowsEnd_log _)).trans (forEach_reading (fun u s => fuStageGone_reading hv u cause reason s) _ _))

end

theorem stagesShown_formBlind : FormBlind stagesShown := fun _ _ _ _ => rfl


/-! #### Shutdowns and retirements

`IslandBlind` readings show nothing that a stage's shutdown touches, `RunBlind` ones nothing that a retirement or a stage that leaves
OFF touches either. -/

/-- A reading that shows, of the loop and the PWM island, the forming units, the governor and the log, at most the timers. -/
def IslandBlind {α : Type} (v : State → α) : Prop :=
  ∀ (s : State) (l : Loop) (fs : List FormingUnit) (gov : Governor) (e : EventLog) (c : Capture) (gs : List Group) (cs : List Channel)
    (us : List CompareUnit) (ks : List Comparator) (hs : List HalfBridge),
    v { s with loop := l, fus := fs, gov := gov, evt := e, cap := c, pwm := { s.pwm with groups := gs, channels := cs, units := us, cmps := ks, hbs := hs } } = v s

theorem IslandBlind.log {α : Type} {v : State → α} (hv : IslandBlind v) : LogBlind v :=
  fun s e c => hv s s.loop s.fus s.gov e c s.pwm.groups s.pwm.channels s.pwm.units s.pwm.cmps s.pwm.hbs
theorem IslandBlind.sched {α : Type} {v : State → α} (hv : IslandBlind v) : SchedBlind v :=
  fun s _ _ _ _ => hv s _ s.fus s.gov s.evt s.cap s.pwm.groups s.pwm.channels s.pwm.units s.pwm.cmps s.pwm.hbs
theorem IslandBlind.gate {α : Type} {v : State → α} (hv : IslandBlind v) : GateBlind v :=
  fun s cs hs => hv s s.loop s.fus s.gov s.evt s.cap s.pwm.groups cs s.pwm.units s.pwm.cmps hs
theorem IslandBlind.form {α : Type} {v : State → α} (hv : IslandBlind v) : FormBlind v :=
  fun s fs e c => hv s s.loop fs s.gov e c s.pwm.groups s.pwm.channels s.pwm.units s.pwm.cmps s.pwm.hbs

theorem post_reading {α : Type} {v : State → α} (hv : LogBlind v) (c : U16) (n : Nat) (d : Bytes) (s : State) : v (post c n d s) = v s :=
  hv.of_log (post_log ..)
theorem postMerge_reading {α : Type} {v : State → α} (hv : LogBlind v) (c : U16) (n : Nat) (d : Bytes) (s : State) : v (postMerge c n d s) = v s :=
  hv.of_log (postMerge_log ..)

/-- A stage that is not OFF changes its state: itself and the log alone. -/
theorem setStage_reading_of_live {α : Type} {v : State → α} (hl : LogBlind v) {n : Nat} (hst : ∀ f s, v (updStage n f s) = v s) {s : State}
    (h : (getStage s n).st ≠ .off) (st : StageState) (cause : Nat) : v (setStage n st cause s) = v s := by
  unfold setStage
  dsimp only
  split
  · rfl
  · exact (post_reading hl ..).trans (hst ..)

section
variable {α : Type} {v : State → α} (hv : IslandBlind v)
include hv

theorem updStage_reading (n : Nat) (f : Stage → Stage) (s : State) : v (updStage n f s) = v s :=
  hv s _ s.fus s.gov s.evt s.cap s.pwm.groups s.pwm.channels s.pwm.units s.pwm.cmps s.pwm.hbs
theorem updGroup_reading (g : Nat) (f : Group → Group) (s : State) : v (updGroup g f s) = v s :=
  hv s s.loop s.fus s.gov s.evt s.cap _ s.pwm.channels s.pwm.units s.pwm.cmps s.pwm.hbs
theorem updUnit_reading (u : Nat) (f : CompareUnit → CompareUnit) (s : State) : v (updUnit u f s) = v s :=
  hv s s.loop s.fus s.gov s.evt s.cap s.pwm.groups s.pwm.channels _ s.pwm.cmps s.pwm.hbs

theorem squashAll_reading (n : Nat) (s : State) : v (squashAll n s) = v s :=
  (squash_reading hv.sched ..).trans (updStage_reading hv ..)

theorem leaveEnabled_reading (n cause reason : Nat) (s : State) : v (leaveEnabled n cause reason s) = v s :=
  leaveEnabled_reading_of_groups hv.form (updGroup_reading hv) n cause reason s

theorem dropPrecharges_reading (l : List Nat) (s : State) : v (dropPrecharges l s) = v s :=
  hv s s.loop s.fus _ s.evt s.cap s.pwm.groups s.pwm.channels s.pwm.units s.pwm.cmps _

theorem beginShutdown_reading_of_live {n : Nat} {s : State} (h : (getStage s n).st ≠ .off) (cause : Nat) : v (beginShutdown n cause s) = v s := by
  unfold beginShutdown
  rw [updStage_reading hv, leaveEnabled_reading hv, squashAll_reading hv, setStage_reading_of_live hv.log (updStage_reading hv n) (by exact h), dropPrecharges_reading hv]

theorem forcedShutdown_reading (n : Nat) (s : State) : v (forcedShutdown n s) = v s := by
  have hstop : ∀ l u, v (forEach l chanStop u) = v u := fun l u => forEach_reading (chanStop_reading hv.gate) l u
  unfold forcedShutdown
  split
  · next h => exact (hstop ..).trans (beginShutdown_reading_of_live hv (by simp [h]) 2)
  · next h => exact (hstop ..).trans (beginShutdown_reading_of_live hv (by simp [h]) 2)
  · refine (hstop ..).trans ?_
    split
    · rfl
    · exact updStage_reading hv ..
  · rfl

end

/-- A reading that shows nothing either of what retirements and Sage's wake touch. -/
def RunBlind {α : Type} (v : State → α) : Prop :=
  IslandBlind v ∧ ∀ (s : State) (r : Rel) (x : Sage), v { s with rel := r, sage := x } = v s

section
variable {α : Type} {v : State → α} (hv : RunBlind v)
include hv

theorem updRel_reading (r : Rel) (s : State) : v { s with rel := r } = v s := hv.2 s r s.sage

theorem postRetired_reading (k : Nat) (d : Bytes) (s : State) : v (postRetired k d s) = v s := by
  unfold postRetired
  split
  · exact post_reading hv.1.log ..
  · exact updRel_reading hv ..

theorem finishRetire_reading (r : Retirement) (sp : Option Nat) (s : State) : v (finishRetire r sp s) = v s :=
  (postRetired_reading hv ..).trans (updRel_reading hv ..)

theorem putUnit_reading (place : Option (Nat × Nat)) (u : Nat) (s : State) :
    v (match place with | some (g, p) => updGroup g (fun x => { x with units := x.units.set p u }) s | none => s) = v s := by
  cases place with
  | none => rfl
  | some place => exact updGroup_reading hv.1 ..

theorem updUnits_reading (us : List CompareUnit) (r : Rel) (s : State) : v { s with pwm := { s.pwm with units := us }, rel := r } = v s :=
  (hv.1 { s with rel := r } s.loop s.fus s.gov s.evt s.cap s.pwm.groups s.pwm.channels us s.pwm.cmps s.pwm.hbs).trans (updRel_reading hv ..)

theorem takeUnit_reading (r : Retirement) (u : Nat) (s : State) : v (takeUnit r u s) = v s :=
  (finishRetire_reading hv ..).trans ((post_reading hv.1.log ..).trans ((updUnits_reading hv ..).trans
    ((updUnit_reading hv.1 ..).trans ((updUnit_reading hv.1 ..).trans (putUnit_reading hv (unitPlace s r.index) u s)))))

theorem forceLive_reading (live : Bool) (stage : Option Nat) (s : State) :
    v (match live, stage with | true, some n => forcedShutdown n s | _, _ => s) = v s := by
  cases live with
  | false => rfl
  | true =>
    cases stage with
    | none => rfl
    | some n => exact forcedShutdown_reading hv.1 n s

theorem arrangeUnits_reading (k : Nat) (s : State) : v (arrangeUnits k s) = v s := by
  induction k generalizing s with
  | zero => rfl
  | succ k ih =>
    unfold arrangeUnits
    split
    · rfl
    · next r _ =>
      extract_lets u st live gone
      have hgone : v gone = v s := updUnit_reading hv.1 ..
      split
      · rw [ih, finishRetire_reading hv, hgone]
      · split
        · cases live with
          | true => exact updUnit_reading hv.1 ..
          | false => exact (ih _).trans (takeUnit_reading hv ..)
        · exact (ih _).trans ((finishRetire_reading hv ..).trans ((post_reading hv.1.log ..).trans ((forceLive_reading hv live st gone).trans hgone)))

theorem swapUnits_reading (t : Nat) (s : State) : v (swapUnits t s) = v s := by
  unfold swapUnits
  dsimp only
  split
  · exact updRel_reading hv ..
  · split
    · rw [arrangeUnits_reading hv, takeUnit_reading hv, updRel_reading hv]
    · exact updRel_reading hv ..

end

theorem standing_runBlind : RunBlind standing := ⟨fun _ _ _ _ _ _ _ _ _ _ _ => rfl, fun _ _ _ => rfl⟩


/-! #### What a reload reads of channels and half-bridges -/

/-- What a channel's configuration says of its timer and its minimum pulse (R348, R349). -/
def wiring (x : Channel) : Nat × Option Nat × Nat × Nat := (x.role, x.partner, x.group, x.minpw)
/-- What a reload decides of a channel: whether it is enabled, and what waits for the next reload (R368). -/
def switchOf (x : Channel) : Bool × Option Bool := (x.enabled, x.pendEn)
/-- How far a half-bridge's precharge has come (R382). -/
def prechargeOf (h : HalfBridge) : Option Nat × Bool := (h.preEnd, h.preDue)

/-- The wiring of the PWM island: channels to groups, groups to timers, timers to stages, and the precharges. -/
def wired (s : State) : List (Nat × Option Nat × Nat × Nat) × List (Option Nat) × List (Option Nat) × List (Option Nat × Bool) :=
  (s.pwm.channels.map wiring, s.pwm.groups.map (·.timer), s.pwm.timers.map (·.stage), s.pwm.hbs.map prechargeOf)
/-- The enables of the channels. -/
def switches (s : State) : List (Bool × Option Bool) := s.pwm.channels.map switchOf

section
variable {s t : State}

theorem switchOf_getChan_of_switches (h : switches t = switches s) (c : Nat) : switchOf (getChan t c) = switchOf (getChan s c) := by
  have hc : ∀ u : State, switchOf (getChan u c) = (switches u).getD c (switchOf channel0) := fun u => (List.getD_map ..).symm
  rw [hc, hc, h]

variable (h : wired t = wired s)
include h

theorem wiring_getChan_of_wired (c : Nat) : wiring (getChan t c) = wiring (getChan s c) := by
  have hc : ∀ u : State, wiring (getChan u c) = (wired u).1.getD c (wiring channel0) := fun u => (List.getD_map ..).symm
  rw [hc, hc, h]
theorem getGroup_timer_of_wired (g : Nat) : (getGroup t g).timer = (getGroup s g).timer := by
  have hg : ∀ u : State, (getGroup u g).timer = (wired u).2.1.getD g none := fun u => (List.getD_map (f := Group.timer) ..).symm
  rw [hg, hg, h]
theorem getTimer_stage_of_wired (k : Nat) : (getTimer t k).stage = (getTimer s k).stage := by
  have hk : ∀ u : State, (getTimer u k).stage = (wired u).2.2.1.getD k none := fun u => (List.getD_map (f := Timer.stage) ..).symm
  rw [hk, hk, h]
theorem precharge_getHb_of_wired (b : Nat) : prechargeOf (getHb t b) = prechargeOf (getHb s b) := by
  have hb : ∀ u : State, prechargeOf (getHb u b) = (wired u).2.2.2.getD b (prechargeOf hb0) := fun u => (List.getD_map ..).symm
  rw [hb, hb, h]

theorem getChan_role_of_wired (c : Nat) : (getChan t c).role = (getChan s c).role := congrArg (·.1) (wiring_getChan_of_wired h c)
theorem getChan_partner_of_wired (c : Nat) : (getChan t c).partner = (getChan s c).partner := congrArg (·.2.1) (wiring_getChan_of_wired h c)
theorem getChan_group_of_wired (c : Nat) : (getChan t c).group = (getChan s c).group := congrArg (·.2.2.1) (wiring_getChan_of_wired h c)
theorem getChan_minpw_of_wired (c : Nat) : (getChan t c).minpw = (getChan s c).minpw := congrArg (·.2.2.2) (wiring_getChan_of_wired h c)

theorem chanMinpw_of_wired (c : Nat) : chanMinpw t c = chanMinpw s c := by
  simp only [chanMinpw, getChan_role_of_wired h, getChan_partner_of_wired h, getChan_minpw_of_wired h]
theorem chanTimer_of_wired (c : Nat) : chanTimer t c = chanTimer s c := by
  simp only [chanTimer, chanGroup, getChan_role_of_wired h, getChan_partner_of_wired h, getChan_group_of_wired h, getGroup_timer_of_wired h]
theorem chanStage_of_wired (c : Nat) : chanStage t c = chanStage s c := by
  simp only [chanStage, chanTimer_of_wired h, getTimer_stage_of_wired h]
theorem stageHbs_of_wired (n : Nat) : stageHbs t n = stageHbs s n := by
  simp only [stageHbs, chanStage_of_wired h]
theorem prechargesDone_of_wired (n : Nat) : prechargesDone t n = prechargesDone s n := by
  have hb : ∀ b, (getHb t b).preEnd = (getHb s b).preEnd ∧ (getHb t b).preDue = (getHb s b).preDue :=
    fun b => ⟨congrArg (·.1) (precharge_getHb_of_wired h b), congrArg (·.2) (precharge_getHb_of_wired h b)⟩
  simp only [prechargesDone, stageHbs_of_wired h, hb]

end

/-! #### Rising command edges -/

/-- A reading that shows of the gates and the log at most the wiring, the precharges and the channels' enables. -/
def EdgeBlind {α : Type} (v : State → α) : Prop :=
  ∀ (s : State) (cs : List Channel) (ks : List Comparator) (hs : List HalfBridge) (e : EventLog) (c : Capture),
    cs.map wiring = s.pwm.channels.map wiring → cs.map switchOf = s.pwm.channels.map switchOf → hs.map prechargeOf = s.pwm.hbs.map prechargeOf →
    v { s with evt := e, cap := c, pwm := { s.pwm with channels := cs, cmps := ks, hbs := hs } } = v s

theorem EdgeBlind.log {α : Type} {v : State → α} (hv : EdgeBlind v) : LogBlind v :=
  fun s e c => hv s s.pwm.channels s.pwm.cmps s.pwm.hbs e c rfl rfl rfl

section
variable {α : Type} {v : State → α} (hv : EdgeBlind v)
include hv

theorem updChan_reading_of_kept {f : Channel → Channel} (hw : ∀ x, wiring (f x) = wiring x) (hs : ∀ x, switchOf (f x) = switchOf x) (c : Nat) (s : State) :
    v (updChan c f s) = v s :=
  hv s _ s.pwm.cmps s.pwm.hbs s.evt s.cap (map_upd_of_eq hw ..) (map_upd_of_eq hs ..) rfl

theorem clearDieLatch_reading_of_edgeBlind (c : Nat) (s : State) : v (clearDieLatch c s) = v s := by
  unfold clearDieLatch
  split
  · rfl
  · refine hv s s.pwm.channels s.pwm.cmps _ s.evt s.cap rfl rfl (map_upd_of_eq (fun x => ?_) ..)
    split <;> rfl

theorem tripEvent_reading (c : Nat) (cause : Byte) (idx : Nat) (failed : Bool) (s : State) : v (tripEvent c cause idx failed s) = v s := by
  unfold tripEvent
  extract_lets _ data _ s1
  split
  · exact postMerge_reading hv.log ..
  · split
    · exact post_reading hv.log ..
    · exact (updChan_reading_of_kept hv (by exact fun _ => rfl) (by exact fun _ => rfl) ..).trans (post_reading hv.log ..)

theorem risingEdge_reading (c : Nat) (s : State) : v (risingEdge c s) = v s := by
  unfold risingEdge
  extract_lets s0 _ s1 held
  have hs1 : v s1 = v s :=
    (hv s0 s0.pwm.channels _ s0.pwm.hbs s0.evt s0.cap rfl rfl rfl).trans (updChan_reading_of_kept hv (by exact fun _ => rfl) (by exact fun _ => rfl) ..)
  split
  · split
    · exact hs1
    · exact (clearDieLatch_reading_of_edgeBlind hv ..).trans hs1
  · split
    · exact (tripEvent_reading hv ..).trans hs1
    · exact (clearDieLatch_reading_of_edgeBlind hv ..).trans
        ((updChan_reading_of_kept hv (by exact fun _ => rfl) (by exact fun _ => rfl) ..).trans hs1)

theorem withEdges_reading (cs : List Nat) (f : State → State) (s : State) : v (withEdges cs f s) = v (f s) :=
  forEach_reading (risingEdge_reading hv) _ _

theorem formPulse_reading (c p pEff idx : Nat) (s : State) : v (formPulse c p pEff idx s) = v s :=
  updChan_reading_of_kept hv (by exact fun _ => rfl) (by exact fun _ => rfl) ..

end

theorem switches_edgeBlind : EdgeBlind switches := fun _ _ _ _ _ _ _ h _ => h
theorem wired_edgeBlind : EdgeBlind wired := fun s _ _ _ _ _ hw _ hp => by
  simp only [wired, hw, hp]

/-! #### Enables -/

theorem updChan_wired {f : Channel → Channel} (hf : ∀ x, wiring (f x) = wiring x) (c : Nat) (s : State) : wired (updChan c f s) = wired s := by
  simp only [wired, updChan, map_upd_of_eq hf]

/-- The enable or disable that waits for a channel is carried out (R354, R368). -/
def enableChan (c : Nat) (s : State) : State :=
  let x := getChan s c
  let on := x.pendEn.getD x.enabled
  if !on && x.cmd && decide (s.time.raw < x.onSince + chanMinpw s c) then updChan c (fun y => { y with pendEn := none, offHeld := true, disabling := true }) s
  else updChan c (fun y => { y with pendEn := none, enabled := on, disabling := false, offHeld := y.offHeld && y.stopped }) s

/-- It is an update of that channel that keeps its wiring. -/
theorem enableChan_cases (c : Nat) (s : State) : ∃ f, enableChan c s = updChan c f s ∧ ∀ x, wiring (f x) = wiring x := by
  unfold enableChan
  extract_lets x on
  split
  · exact ⟨_, rfl, fun _ => rfl⟩
  · exact ⟨_, rfl, fun _ => rfl⟩

theorem applyEnables_reading {α : Type} {v : State → α} (hv : GateBlind v) (t : Nat) (s : State) : v (applyEnables t s) = v s := by
  refine forEach_reading (fun c u => ?_) _ s
  obtain ⟨f, hf, -⟩ := enableChan_cases c u
  exact (congrArg v hf).trans (updChan_reading hv ..)

theorem applyEnables_wired (t : Nat) (s : State) : wired (applyEnables t s) = wired s := by
  refine forEach_reading (fun c u => ?_) _ s
  obtain ⟨f, hf, hw⟩ := enableChan_cases c u
  exact (congrArg wired hf).trans (updChan_wired hw ..)

/-- Of steps for several numbers, of which only the one for `c` shows, that one is made in a state that reads as the first. -/
theorem forEach_reading_at {α : Type} {v : State → α} {f : Nat → State → State} {c : Nat} (h : ∀ i s, i ≠ c → v (f i s) = v s) {l : List Nat}
    (hl : l.Nodup) (hc : c ∈ l) (s : State) : ∃ u, v u = v s ∧ v (forEach l f s) = v (f c u) := by
  induction l generalizing s with
  | nil => simp at hc
  | cons i l ih =>
    obtain ⟨hi, hl⟩ := List.nodup_cons.mp hl
    by_cases hic : i = c
    · subst hic
      refine ⟨s, rfl, ?_⟩
      have hrest : ∀ (m : List Nat) (u : State), i ∉ m → v (forEach m f u) = v u := by
        intro m
        induction m with
        | nil => exact fun _ _ => rfl
        | cons j m ihm =>
          intro u hm
          obtain ⟨hj, hm⟩ := not_or.mp (mt List.mem_cons.mpr hm)
          exact (ihm (f j u) hm).trans (h j u (Ne.symm hj))
      exact hrest l (f i s) hi
    · obtain ⟨u, hu, hv⟩ := ih hl ((List.mem_cons.mp hc).resolve_left (Ne.symm hic)) (f i s)
      exact ⟨u, hu.trans (h i s hic), hv⟩

/-- What `enableChan c` reads. -/
def seenBy (c : Nat) (s : State) : Nat × Channel × Nat × Nat := (s.time.raw, getChan s c, chanMinpw s c, s.pwm.channels.length)

theorem enableChan_seenBy_ne {c i : Nat} (h : i ≠ c) (s : State) : seenBy c (enableChan i s) = seenBy c s := by
  obtain ⟨f, hf, hw⟩ := enableChan_cases i s
  rw [hf]
  simp only [seenBy, getChan_updChan_ne h.symm, chanMinpw_of_wired (updChan_wired hw i s)]
  simp [updChan, upd_length]

theorem enableChan_same {c : Nat} {on : Bool} {s : State} (hlen : c < s.pwm.channels.length) (hp : (getChan s c).pendEn = some on)
    (hw : on = true ∨ (getChan s c).cmd = false ∨ (getChan s c).onSince + chanMinpw s c ≤ s.time.raw) :
    switchOf (getChan (enableChan c s) c) = (on, none) := by
  have hnot : (!on && (getChan s c).cmd && decide (s.time.raw < (getChan s c).onSince + chanMinpw s c)) = false := by
    rcases hw with h | h | h <;> simp [h]
  simp only [enableChan, hp, Option.getD_some, hnot, Bool.false_eq_true, if_false, getChan_updChan_same hlen, switchOf]

/-- An enable, or a disable that no minimum pulse holds, is in effect after the reload of the channel's timer (R354, R368). -/
theorem switchOf_getChan_applyEnables {t c : Nat} {on : Bool} {s : State} (hlen : s.pwm.channels.length = 96) (hc : c < 96) (ht : chanTimer s c = some t)
    (hp : (getChan s c).pendEn = some on) (hw : on = true ∨ (getChan s c).cmd = false ∨ (getChan s c).onSince + chanMinpw s c ≤ s.time.raw) :
    switchOf (getChan (applyEnables t s) c) = (on, none) := by
  obtain ⟨u, hu, hv⟩ := forEach_reading_at (v := seenBy c) (fun _ s hi => enableChan_seenBy_ne hi s) (List.nodup_range.filter _)
    (l := (List.range 96).filter (fun c => chanTimer s c = some t ∧ (getChan s c).pendEn.isSome)) (by simp [hc, ht, hp]) s
  obtain ⟨hraw, hchan, hmin, hlen'⟩ := Prod.ext_iff.mp hu |>.imp id (fun h => Prod.ext_iff.mp h |>.imp id Prod.ext_iff.mp)
  have hfin : getChan (applyEnables t s) c = getChan (enableChan c u) c := congrArg (·.2.1) hv
  rw [hfin]
  simp only [seenBy] at hraw hchan hmin hlen'
  exact enableChan_same (by omega) (hchan ▸ hp) (by rw [hchan, hmin, hraw]; exact hw)


/-! ### The parts of a reload (R342 to R345, R357 to R364) -/

/-- The reload is counted, and a prepared hand-over of one of the timer's units takes place. -/
def reloadStart (t : Nat) (s : State) : State :=
  swapUnits t (updTimer t (fun x => { x with reloads := x.reloads + 1, reloaded := true, lastReload := s.time.raw }) s)
/-- The reload of the timer ends a frame of the stage. -/
def endsFrame (t n : Nat) (s : State) : Bool := decide (frameTimer s n = some t) && decide ((getStage s n).divLeft ≤ 1)
/-- The reload of the timer lies within a frame of the stage. -/
def inFrame (t n : Nat) (s : State) : Bool := decide (frameTimer s n = some t) && !endsFrame t n s
/-- The stage is STARTING or ENABLED. -/
def stageRuns (n : Nat) (s : State) : Bool := (getStage s n).st == .starting || (getStage s n).st == .enabled
/-- A frame that ends here ends now. -/
def frameEnded (t n : Nat) (s : State) : State := if endsFrame t n s then updStage n (fun x => { x with frameEnd := s.time.raw }) s else s
/-- The timer's next period, in sixteenths of 1 ns. -/
def newPeriod (t : Nat) (mid : Bool) (s : State) : Nat × State :=
  if (getTimer s t).slave then ((getTimer s (getTimer s t).master).pActive, s) else if mid then ((getTimer s t).pActive, s) else nextPeriod t s
/-- The dither pattern's index in that period. -/
def newIndex (t n : Nat) (s0 s : State) : Nat := if endsFrame t n s0 then ((getStage s0 n).frameIndex.toNat + 1) % 16 else patternIndex s t n
/-- Its length in ns; `x` is the timer before it. -/
def newLength (mid : Bool) (x : Timer) (p idx : Nat) (s : State) : Nat := if x.slave then (getTimer s x.master).pEff else if mid then x.pEff else dither p idx
/-- The timer takes its period. -/
def timerSet (t p pe : Nat) (s : State) : State := updTimer t (fun y => { y with pActive := p, pEff := pe, nextReload := s.time.raw + pe }) s
/-- The slaves of a free-running timer follow it. -/
def slavesSet (t pe : Nat) (slave : Bool) (s : State) : State :=
  if slave then s else
    forEach ((List.range 24).filter (fun k => (getTimer s k).slave ∧ (getTimer s k).master = t ∧ (getTimer s k).running)) (fun k => updTimer k (fun y =>
      { y with nextReload := s.time.raw + (2 * y.phase * pe + 65536) / 131072 })) s
/-- A frame begins, or goes on. -/
def frameStep (t n pe : Nat) (s0 s : State) : State :=
  if endsFrame t n s0 then
    (match (getStage s0 n).graph with | some g => frameReload n (frameDiv g pe) pe (stageRuns n s0) s | none => s)
  else if decide (frameTimer s0 n = some t) then updStage n (fun y => { y with divLeft := y.divLeft - 1 }) s else s
/-- The reload that ends a frame and takes a graph's set makes a STARTING stage ENABLED. -/
def enableStep (t n : Nat) (took : Bool) (s0 s : State) : State :=
  if endsFrame t n s0 && took && decide ((getStage s n).st = .starting) && prechargesDone s n then enableStage n s else s
/-- The leads of the timer form their pulses. -/
def pulsesFormed (t p pe idx : Nat) (s : State) : State :=
  forEach ((List.range 96).filter (fun c => (getChan s c).role = 1 ∧ chanTimer s c = some t)) (fun c => formPulse c p pe idx) s
/-- The gates of the timer's channels at the reload. -/
def gatesStep (t n p pe idx : Nat) (took : Bool) (s0 s : State) : State :=
  if !stageRuns n s0 then stopAtReload t n (withEdges (stageChans s n) (applyEnables t) s)
  else pulsesFormed t p pe idx (enableStep t n took s0 (withEdges (stageChans s n) (applyEnables t) s))

/-- The period that begins: the state with the timers set, the period in sixteenths, its length and its index. -/
def periodStep (t n : Nat) (s0 s : State) : State × Nat × Nat × Nat :=
  let q := newPeriod t (inFrame t n s0) s
  let idx := newIndex t n s0 q.2
  let pe := newLength (inFrame t n s0) (getTimer s t) q.1 idx q.2
  (slavesSet t pe (getTimer s t).slave (timerSet t q.1 pe q.2), q.1, pe, idx)

/-- A reload from its counted start on. -/
def reloadRest (t n : Nat) (s : State) : State :=
  let q := takeSets t n (frameEnded t n s)
  let r := periodStep t n s q.2
  gatesStep t n r.2.1 r.2.2.1 r.2.2.2 q.1 s (frameStep t n r.2.2.1 s r.1)

theorem doReload_eq (t n : Nat) (s : State) : doReload t n s = reloadRest t n (reloadStart t s) := by
  unfold doReload
  extract_lets s0 isFt st isFrame runs
  change _ = reloadRest t n s0
  clear_value s0
  have hend : (if isFrame = true then updStage n (fun x => { x with frameEnd := s0.time.raw }) s0 else s0) = frameEnded t n s0 := rfl
  rw [hend]
  unfold reloadRest
  extract_lets q r
  rcases hq : takeSets t n (frameEnded t n s0) with ⟨took, s1⟩
  have hr : r = periodStep t n s0 s1 := by simp only [r, q, hq]
  simp -zeta only [hr, q, hq]
  extract_lets x idx pe s3 s4 s5 s6 s7
  have hs4 : s4 = slavesSet t pe x.slave s3 := rfl
  have hper : periodStep t n s0 s1 = (slavesSet t pe x.slave s3, (newPeriod t (inFrame t n s0) s1).1, pe, idx) := rfl
  rw [hper, ← hs4]
  have hs5 : s5 = frameStep t n pe s0 s4 := rfl
  clear_value s4 pe idx
  rfl


/-! #### The sets that a reload takes (R357 to R360) -/

/-- A group at a reload of its timer: its staging set moves, and its pending set becomes active where it may be taken. The answer
says whether a graph's set was taken. -/
def takeGroup (n g : Nat) (s : State) : Bool × State :=
  let s1 := updGroup g (moveStaged s.time.raw) s
  match (getGroup s1 g).pend with
  | some c => if takeable s1 c n then (c.frame.isSome, updGroup g (fun x => { x with active := some c, pend := none }) s1) else (false, s1)
  | none => (false, s1)

/-- The groups of a timer. -/
def timerGroups (t : Nat) (s : State) : List Nat := (List.range 32).filter (fun g => (getGroup s g).timer = some t)

theorem takeSets_eq (t n : Nat) (s : State) :
    takeSets t n s = (timerGroups t s).foldl (fun q g => (q.1 || (takeGroup n g q.2).1, (takeGroup n g q.2).2)) (false, s) := by
  unfold takeSets timerGroups takeGroup
  congr 1
  funext q g
  dsimp only
  split
  · next c hp => by_cases ht : takeable (updGroup g (moveStaged q.2.time.raw) q.2) c n <;> simp [hp, ht]
  · next hp => simp [hp]

/-- The state but for the compare groups. -/
def groupless (s : State) : State := { s with pwm := { s.pwm with groups := [] } }
/-- What `takeGroup n g` reads. -/
def seenByGroup (g : Nat) (s : State) : State × Group × Nat := (groupless s, getGroup s g, s.pwm.groups.length)

/-- A group whose set is taken, or not. -/
theorem takeGroup_cases (n g : Nat) (s : State) : ∃ b f, takeGroup n g s = (b, updGroup g f s) ∧ ∀ x, (f x).timer = x.timer := by
  have hmove : ∀ x : Group, (moveStaged s.time.raw x).timer = x.timer := by
    intro x
    unfold moveStaged
    split
    · rfl
    · split <;> rfl
  have htwo : ∀ f h : Group → Group, updGroup g h (updGroup g f s) = updGroup g (h ∘ f) s := by
    intro f h
    simp [updGroup, upd, List.modify_modify_eq]
  unfold takeGroup
  dsimp only
  split
  · split
    · exact ⟨_, _, Prod.ext rfl (htwo ..), hmove⟩
    · exact ⟨_, _, rfl, hmove⟩
  · exact ⟨_, _, rfl, hmove⟩

theorem takeable_of_groupless {s u : State} (h : groupless u = groupless s) (c : CompareSet) (n : Nat) : takeable u c n = takeable s c n :=
  calc takeable u c n = takeable (groupless u) c n := rfl
    _ = takeable (groupless s) c n := by rw [h]
    _ = takeable s c n := rfl

theorem takeGroup_groupless (n g : Nat) (s : State) : groupless (takeGroup n g s).2 = groupless s := by
  obtain ⟨b, f, h, -⟩ := takeGroup_cases n g s
  rw [h]; rfl

theorem takeGroup_seen_ne {n g i : Nat} (h : i ≠ g) (s : State) : seenByGroup g (takeGroup n i s).2 = seenByGroup g s := by
  obtain ⟨b, f, hf, -⟩ := takeGroup_cases n i s
  rw [hf]
  simp only [seenByGroup, getGroup_updGroup_ne h.symm]
  simp [updGroup, upd_length, groupless]

/-- A set that may be taken becomes active. -/
theorem takeGroup_of_takeable {n g : Nat} {s : State} {c : CompareSet} (hlen : g < s.pwm.groups.length)
    (hp : (moveStaged s.time.raw (getGroup s g)).pend = some c) (ht : takeable s c n = true) :
    (takeGroup n g s).1 = c.frame.isSome ∧ getGroup (takeGroup n g s).2 g = { moveStaged s.time.raw (getGroup s g) with active := some c, pend := none } := by
  have hg := getGroup_updGroup_same (f := moveStaged s.time.raw) hlen
  have hlen' : g < (updGroup g (moveStaged s.time.raw) s).pwm.groups.length := by simpa [updGroup, upd_length] using hlen
  have ht' : takeable (updGroup g (moveStaged s.time.raw) s) c n = true := ht
  unfold takeGroup
  dsimp only
  rw [hg, hp]
  dsimp only
  rw [if_pos ht', getGroup_updGroup_same hlen', hg]
  exact ⟨rfl, rfl⟩

/-- A group without a set that may be taken has its staging set moved alone. -/
theorem takeGroup_of_not_takeable {n g : Nat} {s : State} (hlen : g < s.pwm.groups.length)
    (h : ∀ c, (moveStaged s.time.raw (getGroup s g)).pend = some c → takeable s c n = false) :
    (takeGroup n g s).1 = false ∧ getGroup (takeGroup n g s).2 g = moveStaged s.time.raw (getGroup s g) := by
  have hg := getGroup_updGroup_same (f := moveStaged s.time.raw) hlen
  unfold takeGroup
  dsimp only
  rw [hg]
  split
  · next c hp =>
    have ht : takeable (updGroup g (moveStaged s.time.raw) s) c n = false := h c hp
    rw [if_neg (by simp [ht])]
    exact ⟨rfl, hg⟩
  · exact ⟨rfl, hg⟩

theorem takeGroup_fst_of_seen {n g : Nat} {s u : State} (hlen : g < s.pwm.groups.length) (h : seenByGroup g u = seenByGroup g s) :
    (takeGroup n g u).1 = (takeGroup n g s).1 := by
  obtain ⟨hs, hg, hl⟩ := Prod.ext_iff.mp h |>.imp id Prod.ext_iff.mp
  simp only [seenByGroup] at hs hg hl
  have hraw : u.time.raw = s.time.raw := congrArg (·.time.raw) hs
  by_cases hc : ∃ c, (moveStaged s.time.raw (getGroup s g)).pend = some c ∧ takeable s c n = true
  · obtain ⟨c, hp, ht⟩ := hc
    rw [(takeGroup_of_takeable hlen hp ht).1, (takeGroup_of_takeable (by omega) (by rw [hraw, hg]; exact hp) (by rw [takeable_of_groupless hs]; exact ht)).1]
  · have hn : ∀ c, (moveStaged s.time.raw (getGroup s g)).pend = some c → takeable s c n = false := by
      intro c hp
      simpa using fun ht => hc ⟨c, hp, ht⟩
    rw [(takeGroup_of_not_takeable hlen hn).1, (takeGroup_of_not_takeable (by omega) (by rw [hraw, hg]; simpa [takeable_of_groupless hs] using hn)).1]

theorem foldl_takeGroup_snd (n : Nat) (l : List Nat) (b : Bool) (s : State) :
    (l.foldl (fun q g => (q.1 || (takeGroup n g q.2).1, (takeGroup n g q.2).2)) (b, s)).2 = forEach l (fun g s => (takeGroup n g s).2) s := by
  induction l generalizing b s with
  | nil => rfl
  | cons g l ih => exact ih _ _

theorem takeSets_snd (t n : Nat) (s : State) : (takeSets t n s).2 = forEach (timerGroups t s) (fun g s => (takeGroup n g s).2) s := by
  rw [takeSets_eq, foldl_takeGroup_snd]

theorem foldl_takeGroup_fst (n : Nat) {l : List Nat} (hl : l.Nodup) (b : Bool) {s : State} (hlen : ∀ g ∈ l, g < s.pwm.groups.length) :
    (l.foldl (fun q g => (q.1 || (takeGroup n g q.2).1, (takeGroup n g q.2).2)) (b, s)).1 = (b || l.any (fun g => (takeGroup n g s).1)) := by
  induction l generalizing b s with
  | nil => simp
  | cons i l ih =>
    obtain ⟨hi, hl⟩ := List.nodup_cons.mp hl
    have hseen : ∀ g ∈ l, seenByGroup g (takeGroup n i s).2 = seenByGroup g s := fun g hg => takeGroup_seen_ne (fun h : i = g => hi (h ▸ hg)) s
    have hg' : ∀ g ∈ l, g < (takeGroup n i s).2.pwm.groups.length := by
      intro g hg
      have : (takeGroup n i s).2.pwm.groups.length = s.pwm.groups.length := congrArg (·.2.2) (hseen g hg)
      rw [this]; exact hlen g (List.mem_cons_of_mem _ hg)
    rw [List.foldl_cons, ih hl _ hg', List.any_cons, Bool.or_assoc]
    congr 2
    rw [Bool.eq_iff_iff, List.any_eq_true, List.any_eq_true]
    have hfst : ∀ g ∈ l, (takeGroup n g (takeGroup n i s).2).1 = (takeGroup n g s).1 :=
      fun g hg => takeGroup_fst_of_seen (hlen g (List.mem_cons_of_mem _ hg)) (hseen g hg)
    exact exists_congr fun g => and_congr_right fun hg => by rw [hfst g hg]

section
variable {t n : Nat} {s : State}

theorem takeSets_groupless : groupless (takeSets t n s).2 = groupless s := by
  rw [takeSets_snd]; exact forEach_reading (takeGroup_groupless n) _ s

/-- A graph's set was taken if some group of the timer gives one. -/
theorem takeSets_fst (hlen : s.pwm.groups.length = 32) : (takeSets t n s).1 = (timerGroups t s).any (fun g => (takeGroup n g s).1) := by
  rw [takeSets_eq, foldl_takeGroup_fst n (show (timerGroups t s).Nodup from List.nodup_range.filter _) false (fun g hg => ?_), Bool.false_or]
  simp only [timerGroups, List.mem_filter, List.mem_range] at hg
  omega

theorem getGroup_takeSets_other {g : Nat} (hg : (getGroup s g).timer ≠ some t) : getGroup (takeSets t n s).2 g = getGroup s g := by
  rw [takeSets_snd]
  have hnot : g ∉ timerGroups t s := by simp [timerGroups, hg]
  generalize timerGroups t s = l at hnot
  clear hg
  induction l generalizing s with
  | nil => rfl
  | cons i l ih =>
    obtain ⟨hi, hl⟩ := not_or.mp (mt List.mem_cons.mpr hnot)
    exact (ih hl).trans (congrArg (·.2.1) (takeGroup_seen_ne (n := n) (Ne.symm hi) s))

/-- A group of the timer is as its own step leaves it. -/
theorem getGroup_takeSets_of_timer {g : Nat} (hg : g < 32) (ht : (getGroup s g).timer = some t) :
    ∃ u, seenByGroup g u = seenByGroup g s ∧ getGroup (takeSets t n s).2 g = getGroup (takeGroup n g u).2 g := by
  rw [takeSets_snd]
  obtain ⟨u, hu, hv⟩ := forEach_reading_at (v := seenByGroup g) (f := fun g s => (takeGroup n g s).2) (fun i s hi => takeGroup_seen_ne hi s)
    (List.nodup_range.filter _) (show g ∈ timerGroups t s by simp [timerGroups, hg, ht]) s
  exact ⟨u, hu, congrArg (·.2.1) hv⟩

end

/-! #### The period that begins (R342 to R345) -/

theorem forEach_reading_mem {α : Type} {v : State → α} {f : Nat → State → State} {l : List Nat} (h : ∀ i ∈ l, ∀ s, v (f i s) = v s) (s : State) :
    v (forEach l f s) = v s := by
  unfold forEach
  induction l generalizing s with
  | nil => rfl
  | cons i l ih => exact (ih (fun j hj => h j (List.mem_cons_of_mem _ hj)) _).trans (h i List.mem_cons_self s)

/-- A reading that shows of the timers and the log at most the timers' stages. -/
def TimerBlind {α : Type} (v : State → α) : Prop :=
  ∀ (s : State) (ts : List Timer) (e : EventLog) (c : Capture), ts.map (·.stage) = s.pwm.timers.map (·.stage) →
    v { s with evt := e, cap := c, pwm := { s.pwm with timers := ts } } = v s

theorem TimerBlind.log {α : Type} {v : State → α} (hv : TimerBlind v) : LogBlind v := fun s e c => hv s s.pwm.timers e c rfl

section
variable {α : Type} {v : State → α} (hv : TimerBlind v)
include hv

theorem updTimer_reading {f : Timer → Timer} (hf : ∀ x, (f x).stage = x.stage) (k : Nat) (s : State) : v (updTimer k f s) = v s :=
  hv s _ s.evt s.cap (map_upd_of_eq hf ..)

theorem countClamp_reading (k p : Nat) (s : State) : v (countClamp k p s) = v s := by
  unfold countClamp
  extract_lets x
  split
  · exact (postMerge_reading hv.log ..).trans (updTimer_reading hv (by exact fun _ => rfl) ..)
  · rfl

end

/-- A new period changes the state by a clamp alone. -/
theorem newPeriod_snd (t : Nat) (mid : Bool) (s : State) : (newPeriod t mid s).2 = s ∨ ∃ p, (newPeriod t mid s).2 = countClamp t p s := by
  unfold newPeriod
  split
  · exact .inl rfl
  · split
    · exact .inl rfl
    · unfold nextPeriod
      extract_lets x
      split
      · split
        · exact .inl rfl
        · exact .inr ⟨_, rfl⟩
      · exact .inl rfl

theorem newPeriod_reading {α : Type} {v : State → α} (hc : ∀ t p s, v (countClamp t p s) = v s) (t : Nat) (mid : Bool) (s : State) :
    v (newPeriod t mid s).2 = v s := by
  rcases newPeriod_snd t mid s with h | ⟨p, h⟩
  · rw [h]
  · rw [h]; exact hc ..

theorem periodStep_reading {α : Type} {v : State → α} (hv : TimerBlind v) (t n : Nat) (s0 s : State) : v (periodStep t n s0 s).1 = v s := by
  unfold periodStep slavesSet timerSet
  extract_lets q idx pe
  have hset : ∀ p, v (updTimer t (fun y => { y with pActive := p, pEff := pe, nextReload := q.2.time.raw + pe }) q.2) = v s :=
    fun p => (updTimer_reading hv (by exact fun _ => rfl) ..).trans (newPeriod_reading (countClamp_reading hv) ..)
  dsimp only
  split
  · exact hset _
  · exact (forEach_reading (fun k s => updTimer_reading hv (by exact fun _ => rfl) k s) _ _).trans (hset _)

/-- What the reload has counted of a timer. -/
def beatOf (x : Timer) : U32 × Nat × Bool × Bool := (x.reloads, x.lastReload, x.running, x.slave)

theorem updTimer_getTimer_reading {α : Type} {g : Timer → α} {f : Timer → Timer} (hf : ∀ x, g (f x) = g x) (k m : Nat) (s : State) :
    g (getTimer (updTimer k f s) m) = g (getTimer s m) := getD_upd_map hf ..

theorem countClamp_beatOf (m k p : Nat) (s : State) : beatOf (getTimer (countClamp k p s) m) = beatOf (getTimer s m) := by
  unfold countClamp
  extract_lets x
  split
  · exact (postMerge_reading (v := fun s => beatOf (getTimer s m)) (fun _ _ _ => rfl) ..).trans (updTimer_getTimer_reading (g := beatOf) (by exact fun _ => rfl) ..)
  · rfl

theorem countClamp_timers_length (k p : Nat) (s : State) : (countClamp k p s).pwm.timers.length = s.pwm.timers.length := by
  unfold countClamp
  extract_lets x
  split
  · exact (postMerge_reading (v := fun s => s.pwm.timers.length) (fun _ _ _ => rfl) ..).trans (by simp [updTimer, upd_length])
  · rfl

/-- The timer that reloads: what is counted of it stays, and its next reload lies a period's length on. -/
theorem getTimer_periodStep {t : Nat} {s : State} (hlen : t < s.pwm.timers.length) (n : Nat) (s0 : State) :
    beatOf (getTimer (periodStep t n s0 s).1 t) = beatOf (getTimer s t)
      ∧ (getTimer (periodStep t n s0 s).1 t).nextReload = s.time.raw + (getTimer (periodStep t n s0 s).1 t).pEff := by
  unfold periodStep slavesSet timerSet
  extract_lets q idx pe
  have hbeat : beatOf (getTimer q.2 t) = beatOf (getTimer s t) := newPeriod_reading (v := fun s => beatOf (getTimer s t)) (countClamp_beatOf t) ..
  have hraw : q.2.time.raw = s.time.raw := newPeriod_reading (v := fun s => s.time.raw) (countClamp_reading (v := fun s => s.time.raw) (fun _ _ _ _ _ => rfl)) ..
  have hlen' : t < q.2.pwm.timers.length := by
    have : q.2.pwm.timers.length = s.pwm.timers.length := newPeriod_reading (v := fun s => s.pwm.timers.length) countClamp_timers_length ..
    omega
  dsimp only
  generalize hu : updTimer t (fun y => { y with pActive := q.1, pEff := pe, nextReload := q.2.time.raw + pe }) q.2 = u
  have hget : getTimer u t = { getTimer q.2 t with pActive := q.1, pEff := pe, nextReload := q.2.time.raw + pe } := hu ▸ getTimer_updTimer_same hlen'
  have hown : beatOf (getTimer u t) = beatOf (getTimer s t) ∧ (getTimer u t).nextReload = s.time.raw + (getTimer u t).pEff := by
    rw [hget, hraw]; exact ⟨hbeat, rfl⟩
  split
  · exact hown
  · next hslave =>
    have hself : (getTimer u t).slave = (getTimer s t).slave := congrArg (·.2.2.2) hown.1
    rw [forEach_reading_mem (v := fun s => getTimer s t) (fun k hk s => ?_) u]
    · exact hown
    · have hk' : (getTimer u k).slave = true := by simp only [List.mem_filter, decide_eq_true_eq] at hk; exact hk.2.1
      have hne : t ≠ k := by rintro rfl; exact hslave (hself ▸ hk')
      exact getTimer_updTimer_ne hne

/-! #### The frame, and the gates -/

/-- The parts of a stage that a reload changes with a frame or with ENABLED. -/
def faceOf (x : Stage) : StageState × Bool × U32 × Nat := (x.st, x.gateOpen, x.frameIndex, x.frameStart)

theorem frameStep_eq (t n pe : Nat) (s0 s : State) : ∃ f, frameStep t n pe s0 s = updStage n f s
    ∧ (∀ x, (f x).st = x.st ∧ (f x).gateOpen = x.gateOpen)
    ∧ (endsFrame t n s0 = false → ∀ x, (f x).frameIndex = x.frameIndex)
    ∧ (endsFrame t n s0 = true → (getStage s0 n).graph.isSome → ∀ x, (f x).frameIndex = x.frameIndex + 1 ∧ (f x).frameStart = s.time.raw) := by
  have hid : updStage n id s = s := by simp [updStage, upd]
  unfold frameStep
  split
  · next he =>
    split
    · next g hg => exact ⟨_, rfl, fun _ => ⟨rfl, rfl⟩, by simp [he], fun _ _ _ => ⟨rfl, rfl⟩⟩
    · next hg => exact ⟨id, hid.symm, fun _ => ⟨rfl, rfl⟩, by simp [he], by simp [hg]⟩
  · next he =>
    split
    · exact ⟨_, rfl, fun _ => ⟨rfl, rfl⟩, fun _ _ => rfl, fun h => absurd h he⟩
    · exact ⟨id, hid.symm, fun _ => ⟨rfl, rfl⟩, fun _ _ => rfl, fun h => absurd h he⟩

/-- A stage that leaves OFF wakes Sage and ends a JTAG instruction's hold of the balls (R514, R548). -/
theorem leaveOff_reading {α : Type} {v : State → α} (hl : LogBlind v) (hr : ∀ (s : State) (r : Rel) (x : Sage), v { s with rel := r, sage := x } = v s) (s : State) :
    v (jtagYield (sageWake s)) = v s := by
  have hwake : v (sageWake s) = v s := by
    unfold sageWake
    split
    · rfl
    · split <;> exact hr s s.rel _
  have hyield : ∀ u c m, v (postMergeWith 0x0F08#16 0 c m (fun _ n => n) { u with rel := { u.rel with jtag := .bypass } }) = v u :=
    fun u c m => (hl.of_log (postMergeWith_log ..)).trans (hr u _ u.sage)
  unfold jtagYield
  split
  · exact (hyield ..).trans hwake
  · exact (hyield ..).trans hwake
  · exact (hyield ..).trans hwake
  · exact hwake

/-- A stage that is set to a state is in it, and else as it was. -/
theorem getStage_setStage_same {n : Nat} {s : State} (h : n < s.loop.stages.length) (st : StageState) (cause : Nat) :
    getStage (setStage n st cause s) n = { getStage s n with st := st } := by
  unfold setStage
  extract_lets old
  split
  · next he => rw [← he]
  · refine (post_reading (v := fun s => getStage s n) (fun _ _ _ => rfl) ..).trans ?_
    have hu : (if old.st = .off then jtagYield (sageWake s) else s).loop = s.loop := by
      split
      · exact leaveOff_reading (v := State.loop) (fun _ _ _ => rfl) (fun _ _ _ => rfl) s
      · rfl
    have hget : getStage (if old.st = .off then jtagYield (sageWake s) else s) n = getStage s n := congrArg (fun l => l.stages.getD n stage0) hu
    rw [getStage_updStage_same (by rw [hu]; exact h), hget]


theorem capStageEnabled_log (n : Nat) (s : State) : LogOnly s (capStageEnabled n s) := by
  unfold capStageEnabled
  split
  · exact updCap_log ..
  · exact LogOnly.refl s

/-- A live stage that enters ENABLED, for a reading of what edges leave and no stage shows. -/
theorem enableStage_reading {α : Type} {v : State → α} (hv : EdgeBlind v) (hst : ∀ n f s, v (updStage n f s) = v s) {n : Nat} {s : State}
    (h : (getStage s n).st ≠ .off) : v (enableStage n s) = v s := by
  have hset : v (setStage n .enabled 0 s) = v s := setStage_reading_of_live hv.log (hst n) h ..
  refine (withEdges_reading hv ..).trans ((hst ..).trans ((forEach_reading (fun c u => ?_) _ _).trans ((hv.log.of_log (capStageEnabled_log ..)).trans hset)))
  exact updChan_reading_of_kept hv (by exact fun _ => rfl) (by exact fun _ => rfl) ..

theorem loop_edgeBlind : EdgeBlind State.loop := fun _ _ _ _ _ _ _ _ _ => rfl
theorem getStage_of_loop {s t : State} (h : t.loop = s.loop) (n : Nat) : getStage t n = getStage s n := congrArg (fun l => l.stages.getD n stage0) h

/-- The stage is ENABLED, its gate open (R362). -/
theorem getStage_enableStage {n : Nat} {s : State} (hlen : n < s.loop.stages.length) (h : (getStage s n).st ≠ .off) :
    getStage (enableStage n s) n = { getStage s n with st := .enabled, gateOpen := true } := by
  have hacc : ∀ l u, (forEach l (fun c => updChan c (fun x => { x with acc := 0 })) u).loop = u.loop :=
    fun l u => forEach_reading (v := State.loop) (by exact fun _ _ => rfl) l u
  unfold enableStage
  extract_lets cs s1 s2
  have hs2 : getStage s2 n = { getStage s n with st := .enabled } := by
    refine (getStage_of_loop (hacc cs s1) n).trans ((getStage_of_loop (capStageEnabled_log ..).loop n).trans ?_)
    exact getStage_setStage_same hlen ..
  have hlen2 : n < s2.loop.stages.length := by
    have hl : s2.loop.stages.length = (setStage n .enabled 0 s).loop.stages.length := by rw [hacc, (capStageEnabled_log ..).loop]
    have hset : (setStage n .enabled 0 s).loop.stages.length = s.loop.stages.length :=
      setStage_reading_of_live (v := fun s => s.loop.stages.length) (fun _ _ _ => rfl) (fun f s => by simp [updStage, upd_length]) h ..
    omega
  rw [getStage_of_loop (withEdges_reading loop_edgeBlind ..), getStage_updStage_same hlen2, hs2]

/-- Time, timers and groups. -/
def ground (s : State) : Thyme × List Timer × List Group := (s.time, s.pwm.timers, s.pwm.groups)

theorem ground_edgeBlind : EdgeBlind ground := fun _ _ _ _ _ _ _ _ _ => rfl
theorem ground_gateBlind : GateBlind ground := fun _ _ _ => rfl

theorem stopAtReload_reading {α : Type} {v : State → α} (hv : GateBlind v) (hst : ∀ r n s, v (updStage n (fun x => { x with lastOff := r }) s) = v s) (t n : Nat) (s : State) :
    v (stopAtReload t n s) = v s :=
  forEach_reading (fun c u => (hst ..).trans (chanStop_reading hv c u)) _ s

theorem pulsesFormed_reading {α : Type} {v : State → α} (hv : EdgeBlind v) (t p pe idx : Nat) (s : State) : v (pulsesFormed t p pe idx s) = v s :=
  forEach_reading (fun c u => formPulse_reading hv c p pe idx u) _ s

section
variable (t n p pe idx : Nat) (took : Bool) (s0 s : State)

/-- The condition under which a reload makes the stage ENABLED, read before its edges. -/
def enables : Bool := endsFrame t n s0 && took && decide ((getStage s n).st = .starting) && prechargesDone s n

theorem edges_loop : (withEdges (stageChans s n) (applyEnables t) s).loop = s.loop :=
  (withEdges_reading loop_edgeBlind ..).trans (applyEnables_reading (v := State.loop) (fun _ _ _ => rfl) t s)
theorem edges_wired : wired (withEdges (stageChans s n) (applyEnables t) s) = wired s :=
  (withEdges_reading wired_edgeBlind ..).trans (applyEnables_wired t s)

theorem enableStep_eq : enableStep t n took s0 (withEdges (stageChans s n) (applyEnables t) s)
    = if enables t n took s0 s then enableStage n (withEdges (stageChans s n) (applyEnables t) s) else withEdges (stageChans s n) (applyEnables t) s := by
  unfold enableStep enables
  rw [getStage_of_loop (edges_loop t n s), prechargesDone_of_wired (edges_wired t n s)]

theorem gatesStep_reading_of_runs {α : Type} {v : State → α} (hv : EdgeBlind v) (hst : ∀ n f s, v (updStage n f s) = v s) (hr : stageRuns n s0 = true) :
    v (gatesStep t n p pe idx took s0 s) = v (applyEnables t s) := by
  unfold gatesStep
  rw [if_neg (by simp [hr]), pulsesFormed_reading hv, enableStep_eq, ← withEdges_reading hv (stageChans s n) (applyEnables t) s]
  split
  · next h =>
    simp only [enables, Bool.and_eq_true, decide_eq_true_eq] at h
    exact enableStage_reading hv hst (by rw [getStage_of_loop (edges_loop t n s), h.1.2]; decide)
  · rfl

theorem gatesStep_ground : ground (gatesStep t n p pe idx took s0 s) = ground s := by
  have happ : ground (applyEnables t s) = ground s := applyEnables_reading ground_gateBlind t s
  by_cases hr : stageRuns n s0 = true
  · exact (gatesStep_reading_of_runs t n p pe idx took s0 s ground_edgeBlind (fun _ _ _ => rfl) hr).trans happ
  · unfold gatesStep
    rw [if_pos (by simpa using hr), stopAtReload_reading ground_gateBlind (fun _ _ _ => rfl), withEdges_reading ground_edgeBlind, happ]

/-- The stage after its reload's gates: ENABLED with its gate open, or with its face as before. -/
theorem gatesStep_face (hlen : n < s.loop.stages.length) :
    faceOf (getStage (gatesStep t n p pe idx took s0 s) n)
      = if stageRuns n s0 && enables t n took s0 s then (.enabled, true, (getStage s n).frameIndex, (getStage s n).frameStart) else faceOf (getStage s n) := by
  have hedge := getStage_of_loop (edges_loop t n s) n
  unfold gatesStep
  by_cases hr : stageRuns n s0 = true
  · rw [if_neg (by simp [hr]), getStage_of_loop (pulsesFormed_reading loop_edgeBlind ..), enableStep_eq, hr, Bool.true_and]
    split
    · next h =>
      simp only [enables, Bool.and_eq_true, decide_eq_true_eq] at h
      rw [getStage_enableStage (by rw [edges_loop]; exact hlen) (by rw [hedge, h.1.2]; decide), hedge]
      rfl
    · rw [hedge]
  · have hface : ∀ r m u, faceOf (getStage (updStage m (fun x => { x with lastOff := r }) u) n) = faceOf (getStage u n) :=
      fun r m u => getD_upd_map (by exact fun _ => rfl) ..
    rw [if_pos (by simpa using hr), if_neg (by simp [hr]),
      stopAtReload_reading (v := fun u => faceOf (getStage u n)) (fun _ _ _ => rfl) (fun r m u => hface r m u), hedge]

end


/-! #### A whole reload -/

theorem frameEnded_reading {α : Type} {v : State → α} (t n : Nat) (s : State)
    (hst : ∀ u, v (updStage n (fun x => { x with frameEnd := s.time.raw }) u) = v u) : v (frameEnded t n s) = v s := by
  unfold frameEnded
  split
  · exact hst s
  · rfl

theorem wired_timerBlind : TimerBlind wired := fun s _ _ _ h => by simp only [wired, h]

section
variable (t n : Nat) (s : State)

/-- The state of a reload after its sets are taken, its period and its frame begun: before its gates. -/
def reloadFramed : State := frameStep t n (periodStep t n s (takeSets t n (frameEnded t n s)).2).2.2.1 s (periodStep t n s (takeSets t n (frameEnded t n s)).2).1

theorem reloadRest_eq : ∃ p pe idx, reloadRest t n s = gatesStep t n p pe idx (takeSets t n (frameEnded t n s)).1 s (reloadFramed t n s) := ⟨_, _, _, rfl⟩

theorem reloadFramed_reading {α : Type} {v : State → α} (ht : TimerBlind v) (hg : ∀ g f u, (∀ x, (f x).timer = x.timer) → v (updGroup g f u) = v u)
    (hst : ∀ f u, v (updStage n f u) = v u) : v (reloadFramed t n s) = v s := by
  unfold reloadFramed
  obtain ⟨f, hf, -⟩ := frameStep_eq t n (periodStep t n s (takeSets t n (frameEnded t n s)).2).2.2.1 s (periodStep t n s (takeSets t n (frameEnded t n s)).2).1
  rw [hf, hst, periodStep_reading ht, takeSets_snd]
  refine (forEach_reading (fun g u => ?_) _ _).trans (frameEnded_reading t n s (hst _))
  obtain ⟨b, f, h, hf⟩ := takeGroup_cases n g u
  rw [h]
  exact hg g f u hf

theorem reloadFramed_wired : wired (reloadFramed t n s) = wired s :=
  reloadFramed_reading t n s wired_timerBlind (fun g f u hf => by simp only [wired, updGroup, map_upd_of_eq hf]) (fun _ _ => rfl)
theorem reloadFramed_channels : (reloadFramed t n s).pwm.channels = s.pwm.channels :=
  reloadFramed_reading (v := fun s => s.pwm.channels) t n s (fun _ _ _ _ _ => rfl) (fun _ _ _ _ => rfl) (fun _ _ => rfl)
theorem reloadFramed_time : (reloadFramed t n s).time = s.time :=
  reloadFramed_reading (v := State.time) t n s (fun _ _ _ _ _ => rfl) (fun _ _ _ _ => rfl) (fun _ _ => rfl)

theorem takeSets_reading_of_groupless {α : Type} {v : State → α} (h : ∀ u, v (groupless u) = v u) : v (takeSets t n s).2 = v s := by
  rw [← h, takeSets_groupless, h]

/-- Time, and the timer that reloads. -/
theorem reloadRest_timer (hlen : t < s.pwm.timers.length) : (reloadRest t n s).time = s.time
    ∧ beatOf (getTimer (reloadRest t n s) t) = beatOf (getTimer s t) ∧ (getTimer (reloadRest t n s) t).nextReload = s.time.raw + (getTimer (reloadRest t n s) t).pEff := by
  obtain ⟨p, pe, idx, h⟩ := reloadRest_eq t n s
  have hground := gatesStep_ground t n p pe idx (takeSets t n (frameEnded t n s)).1 s (reloadFramed t n s)
  rw [← h] at hground
  have htimers : (reloadRest t n s).pwm.timers = (periodStep t n s (takeSets t n (frameEnded t n s)).2).1.pwm.timers := by
    obtain ⟨f, hf, -⟩ := frameStep_eq t n (periodStep t n s (takeSets t n (frameEnded t n s)).2).2.2.1 s (periodStep t n s (takeSets t n (frameEnded t n s)).2).1
    exact (congrArg (·.2.1) hground).trans (congrArg (fun u => u.pwm.timers) hf)
  have hget : getTimer (reloadRest t n s) t = getTimer (periodStep t n s (takeSets t n (frameEnded t n s)).2).1 t := congrArg (fun l => l.getD t timer0) htimers
  have htook : ∀ {α : Type} (v : State → α), (∀ u, v (groupless u) = v u) → (∀ u, v (updStage n (fun x => { x with frameEnd := s.time.raw }) u) = v u) →
      v (takeSets t n (frameEnded t n s)).2 = v s :=
    fun v hv hst => (takeSets_reading_of_groupless t n _ hv).trans (frameEnded_reading t n s hst)
  obtain ⟨hbeat, hnext⟩ := getTimer_periodStep (s := (takeSets t n (frameEnded t n s)).2)
    (by rw [htook (fun s => s.pwm.timers) (fun _ => rfl) (fun _ => rfl)]; exact hlen) n s
  refine ⟨(congrArg (·.1) hground).trans (reloadFramed_time t n s), ?_, ?_⟩
  · rw [hget, hbeat, htook (fun s => getTimer s t) (fun _ => rfl) (fun _ => rfl)]
  · rw [hget, hnext, htook (fun s => s.time.raw) (fun _ => rfl) (fun _ => rfl)]

/-- A group is as the taking of sets leaves it. -/
theorem getGroup_reloadRest (g : Nat) : getGroup (reloadRest t n s) g = getGroup (takeSets t n (frameEnded t n s)).2 g := by
  obtain ⟨p, pe, idx, h⟩ := reloadRest_eq t n s
  have hground := gatesStep_ground t n p pe idx (takeSets t n (frameEnded t n s)).1 s (reloadFramed t n s)
  rw [← h] at hground
  have hgroups : (reloadRest t n s).pwm.groups = (takeSets t n (frameEnded t n s)).2.pwm.groups := by
    obtain ⟨f, hf, -⟩ := frameStep_eq t n (periodStep t n s (takeSets t n (frameEnded t n s)).2).2.2.1 s (periodStep t n s (takeSets t n (frameEnded t n s)).2).1
    refine ((congrArg (·.2.2) hground).trans (congrArg (fun u => u.pwm.groups) hf)).trans ?_
    exact periodStep_reading (v := fun s => s.pwm.groups) (fun _ _ _ _ _ => rfl) t n s _
  exact congrArg (fun l => l.getD g group0) hgroups

/-- The frame of the stage that the reload belongs to. -/
theorem getStage_reloadFramed (hlen : n < s.loop.stages.length) :
    ((getStage (reloadFramed t n s) n).st = (getStage s n).st ∧ (getStage (reloadFramed t n s) n).gateOpen = (getStage s n).gateOpen)
    ∧ (endsFrame t n s = false → (getStage (reloadFramed t n s) n).frameIndex = (getStage s n).frameIndex)
    ∧ (endsFrame t n s = true → (getStage s n).graph.isSome →
        (getStage (reloadFramed t n s) n).frameIndex = (getStage s n).frameIndex + 1 ∧ (getStage (reloadFramed t n s) n).frameStart = s.time.raw) := by
  obtain ⟨f, hf, hface, hin, hend⟩ := frameStep_eq t n (periodStep t n s (takeSets t n (frameEnded t n s)).2).2.2.1 s (periodStep t n s (takeSets t n (frameEnded t n s)).2).1
  have hloop : (periodStep t n s (takeSets t n (frameEnded t n s)).2).1.loop = (frameEnded t n s).loop :=
    (periodStep_reading (v := State.loop) (fun _ _ _ _ _ => rfl) t n s _).trans (takeSets_reading_of_groupless t n _ (fun _ => rfl))
  have hraw : (periodStep t n s (takeSets t n (frameEnded t n s)).2).1.time.raw = s.time.raw :=
    ((periodStep_reading (v := fun s => s.time.raw) (fun _ _ _ _ _ => rfl) t n s _).trans (takeSets_reading_of_groupless (v := fun s => s.time.raw) t n _ (fun _ => rfl))).trans
      (frameEnded_reading (v := fun s => s.time.raw) t n s (fun _ => rfl))
  obtain ⟨k, hk⟩ : ∃ k, getStage (frameEnded t n s) n = { getStage s n with frameEnd := k } := by
    unfold frameEnded
    split
    · exact ⟨_, getStage_updStage_same hlen⟩
    · exact ⟨_, rfl⟩
  have hlen' : n < (frameEnded t n s).loop.stages.length := by
    rw [frameEnded_reading (v := fun s => s.loop.stages.length) t n s (fun u => by simp [updStage, upd_length])]; exact hlen
  have hget : getStage (reloadFramed t n s) n = f { getStage s n with frameEnd := k } := by
    unfold reloadFramed
    rw [hf, getStage_updStage_same (by rw [hloop]; exact hlen'), getStage_of_loop hloop, hk]
  rw [hget]
  exact ⟨hface _, fun h => hin h _, fun h hg => ⟨(hend h hg _).1, (hend h hg _).2.trans hraw⟩⟩

/-- A channel's enable that waits for this reload takes effect. -/
theorem switchOf_getChan_reloadRest {c : Nat} {on : Bool} (hlen : s.pwm.channels.length = 96) (hc : c < 96) (ht : chanTimer s c = some t)
    (hp : (getChan s c).pendEn = some on) (hruns : stageRuns n s = true)
    (hw : on = true ∨ (getChan s c).cmd = false ∨ (getChan s c).onSince + chanMinpw s c ≤ s.time.raw) :
    switchOf (getChan (reloadRest t n s) c) = (on, none) := by
  obtain ⟨p, pe, idx, h⟩ := reloadRest_eq t n s
  have hchans := reloadFramed_channels t n s
  have hwired := reloadFramed_wired t n s
  have hget : getChan (reloadFramed t n s) c = getChan s c := congrArg (fun l => l.getD c channel0) hchans
  rw [h, switchOf_getChan_of_switches (gatesStep_reading_of_runs t n p pe idx _ s _ switches_edgeBlind (fun _ _ _ => rfl) hruns)]
  refine switchOf_getChan_applyEnables (by rw [hchans]; exact hlen) hc (by rw [chanTimer_of_wired hwired]; exact ht) (by rw [hget]; exact hp) ?_
  rw [hget, chanMinpw_of_wired hwired, reloadFramed_time]
  exact hw

end

/-- A reload while no retirement is decided: the timer's count, and watches of compare units. -/
theorem reloadStart_of_none_waiting {t : Nat} {s : State} (h : s.rel.waiting = []) :
    ∃ r, reloadStart t s = { updTimer t (fun x => { x with reloads := x.reloads + 1, reloaded := true, lastReload := s.time.raw }) s with rel := r } := by
  unfold reloadStart swapUnits
  extract_lets us r1 s1
  have hnone : nextRetire s1 3 = none := by simp [nextRetire, s1, r1, h]
  rw [hnone]
  exact ⟨_, rfl⟩


section
variable {t n : Nat} {s : State}

theorem endsFrame_iff : endsFrame t n s = true ↔ frameTimer s n = some t ∧ (getStage s n).divLeft ≤ 1 := by
  simp [endsFrame]

/-- A set may be taken at a reload exactly where R359 says so. -/
theorem takeable_frameEnded (hlen : n < s.loop.stages.length) (c : CompareSet) : takeable (frameEnded t n s) c n = true ↔ ripe s n t s.time.raw c := by
  have hstage : (getStage (frameEnded t n s) n).frameIndex = (getStage s n).frameIndex
      ∧ (getStage (frameEnded t n s) n).frameEnd = if endsFrame t n s then s.time.raw else (getStage s n).frameEnd := by
    unfold frameEnded
    split
    · rw [getStage_updStage_same hlen]; exact ⟨rfl, rfl⟩
    · exact ⟨rfl, rfl⟩
  have hraw : (frameEnded t n s).time.raw = s.time.raw := frameEnded_reading (v := fun s => s.time.raw) t n s (fun _ => rfl)
  unfold takeable ripe
  dsimp only
  rw [hraw, hstage.1, hstage.2, Bool.and_eq_true, decide_eq_true_eq]
  refine and_congr_right fun _ => ?_
  cases hf : c.frame with
  | none => simp
  | some f =>
    simp only [Bool.or_eq_true, Bool.and_eq_true, decide_eq_true_eq, Option.some.injEq, forall_eq']
    by_cases hi : (getStage s n).frameIndex = f
    · by_cases he : endsFrame t n s = true
      · simp [hi, he, endsFrame_iff.mp he]
      · have hno : ¬ (frameTimer s n = some t ∧ (getStage s n).divLeft ≤ 1) := fun h => he (endsFrame_iff.mpr h)
        simp [hi, he, hno]
    · simp [hi]

/-- A group that is not the timer's, one whose set is taken, and one whose set is not (R357 to R360). -/
theorem getGroup_reloadRest_other {g : Nat} (hg : (getGroup s g).timer ≠ some t) : getGroup (reloadRest t n s) g = getGroup s g := by
  have hsame : ∀ i, getGroup (frameEnded t n s) i = getGroup s i := fun i => frameEnded_reading (v := fun s => getGroup s i) t n s (fun _ => rfl)
  rw [getGroup_reloadRest, getGroup_takeSets_other (by rw [hsame]; exact hg), hsame]

theorem getGroup_reloadRest_of_timer (hst : n < s.loop.stages.length) (hgr : s.pwm.groups.length = 32) {g : Nat} (hg : g < 32) (ht : (getGroup s g).timer = some t) :
    (∀ c, (moveStaged s.time.raw (getGroup s g)).pend = some c → ripe s n t s.time.raw c →
      getGroup (reloadRest t n s) g = { moveStaged s.time.raw (getGroup s g) with pend := none, active := some c })
    ∧ ((∀ c, (moveStaged s.time.raw (getGroup s g)).pend = some c → ¬ ripe s n t s.time.raw c) → getGroup (reloadRest t n s) g = moveStaged s.time.raw (getGroup s g)) := by
  have hsame : getGroup (frameEnded t n s) g = getGroup s g := frameEnded_reading (v := fun s => getGroup s g) t n s (fun _ => rfl)
  have hraw : (frameEnded t n s).time.raw = s.time.raw := frameEnded_reading (v := fun s => s.time.raw) t n s (fun _ => rfl)
  have hlen : (frameEnded t n s).pwm.groups.length = 32 := (frameEnded_reading (v := fun s => s.pwm.groups.length) t n s (fun _ => rfl)).trans hgr
  obtain ⟨u, hu, hget⟩ := getGroup_takeSets_of_timer (t := t) (n := n) (s := frameEnded t n s) hg (by rw [hsame]; exact ht)
  obtain ⟨hless, hgu, hlu⟩ := Prod.ext_iff.mp hu |>.imp id Prod.ext_iff.mp
  simp only [seenByGroup] at hless hgu hlu
  have hru : u.time.raw = s.time.raw := (show u.time.raw = _ from congrArg (·.time.raw) hless).trans hraw
  have hmove : moveStaged u.time.raw (getGroup u g) = moveStaged s.time.raw (getGroup s g) := by rw [hru, hgu, hsame]
  have htake : ∀ c, takeable u c n = true ↔ ripe s n t s.time.raw c := fun c => by rw [takeable_of_groupless hless, takeable_frameEnded hst]
  rw [getGroup_reloadRest, hget]
  constructor
  · intro c hp hc
    rw [(takeGroup_of_takeable (by omega) (by rw [hmove]; exact hp) ((htake c).mpr hc)).2, hmove]
  · intro hno
    rw [(takeGroup_of_not_takeable (by omega) (fun c hp => ?_)).2, hmove]
    rw [hmove] at hp
    exact Bool.eq_false_iff.mpr (mt (htake c).mp (hno c hp))

/-- Whether a graph's set is taken. -/
theorem takeSets_fst_of_ripe (hst : n < s.loop.stages.length) (hgr : s.pwm.groups.length = 32) {g : Nat} (hg : g < 32) (ht : (getGroup s g).timer = some t)
    {c : CompareSet} (hp : (moveStaged s.time.raw (getGroup s g)).pend = some c) (hc : ripe s n t s.time.raw c) (hf : c.frame.isSome = true) :
    (takeSets t n (frameEnded t n s)).1 = true := by
  have hgroups : (frameEnded t n s).pwm.groups = s.pwm.groups := frameEnded_reading (v := fun s => s.pwm.groups) t n s (fun _ => rfl)
  have hsame : ∀ i, getGroup (frameEnded t n s) i = getGroup s i := fun i => congrArg (fun l => l.getD i group0) hgroups
  have hraw : (frameEnded t n s).time.raw = s.time.raw := frameEnded_reading (v := fun s => s.time.raw) t n s (fun _ => rfl)
  rw [takeSets_fst (by rw [hgroups]; exact hgr), List.any_eq_true]
  refine ⟨g, by simp [timerGroups, hsame, hg, ht], ?_⟩
  rw [(takeGroup_of_takeable (by rw [hgroups]; omega) (by rw [hraw, hsame]; exact hp) ((takeable_frameEnded hst c).mpr hc)).1, hf]

theorem takeSets_fst_of_no_frame (hgr : s.pwm.groups.length = 32)
    (h : ∀ g < 32, (getGroup s g).timer = some t → ∀ c, (moveStaged s.time.raw (getGroup s g)).pend = some c → c.frame = none) :
    (takeSets t n (frameEnded t n s)).1 = false := by
  have hgroups : (frameEnded t n s).pwm.groups = s.pwm.groups := frameEnded_reading (v := fun s => s.pwm.groups) t n s (fun _ => rfl)
  have hsame : ∀ i, getGroup (frameEnded t n s) i = getGroup s i := fun i => congrArg (fun l => l.getD i group0) hgroups
  have hraw : (frameEnded t n s).time.raw = s.time.raw := frameEnded_reading (v := fun s => s.time.raw) t n s (fun _ => rfl)
  rw [takeSets_fst (by rw [hgroups]; exact hgr), Bool.eq_false_iff, Ne, List.any_eq_true]
  rintro ⟨g, hg, htook⟩
  simp only [timerGroups, List.mem_filter, List.mem_range, decide_eq_true_eq, hsame] at hg
  have hlen : g < (frameEnded t n s).pwm.groups.length := by rw [hgroups]; omega
  by_cases hc : ∃ c, (moveStaged (frameEnded t n s).time.raw (getGroup (frameEnded t n s) g)).pend = some c ∧ takeable (frameEnded t n s) c n = true
  · obtain ⟨c, hp, htk⟩ := hc
    have hnone : c.frame = none := h g hg.1 hg.2 c (by rw [← hraw, ← hsame]; exact hp)
    rw [(takeGroup_of_takeable hlen hp htk).1, hnone] at htook
    exact absurd htook (by decide)
  · have hno : (takeGroup n g (frameEnded t n s)).1 = false :=
      (takeGroup_of_not_takeable hlen fun c hp => Bool.eq_false_iff.mpr fun htk => hc ⟨c, hp, htk⟩).1
    rw [hno] at htook
    exact absurd htook (by decide)

theorem reloadFramed_stages_length : (reloadFramed t n s).loop.stages.length = s.loop.stages.length :=
  reloadFramed_reading (v := fun s => s.loop.stages.length) t n s (fun _ _ _ _ _ => rfl) (fun _ _ _ _ => rfl) (fun f u => by simp [updStage, upd_length])

/-- The frame of the stage after a reload. -/
theorem frame_reloadRest (hlen : n < s.loop.stages.length) :
    (endsFrame t n s = false → (getStage (reloadRest t n s) n).frameIndex = (getStage s n).frameIndex)
    ∧ (endsFrame t n s = true → (getStage s n).graph.isSome →
        (getStage (reloadRest t n s) n).frameIndex = (getStage s n).frameIndex + 1 ∧ (getStage (reloadRest t n s) n).frameStart = s.time.raw) := by
  obtain ⟨p, pe, idx, h⟩ := reloadRest_eq t n s
  obtain ⟨-, hin, hend⟩ := getStage_reloadFramed t n s hlen
  have hface := gatesStep_face t n p pe idx (takeSets t n (frameEnded t n s)).1 s (reloadFramed t n s) (by rw [reloadFramed_stages_length]; exact hlen)
  rw [← h] at hface
  have hindex : (getStage (reloadRest t n s) n).frameIndex = (getStage (reloadFramed t n s) n).frameIndex
      ∧ (getStage (reloadRest t n s) n).frameStart = (getStage (reloadFramed t n s) n).frameStart := by
    split at hface
    · exact ⟨congrArg (·.2.2.1) hface, congrArg (·.2.2.2) hface⟩
    · exact ⟨congrArg (·.2.2.1) hface, congrArg (·.2.2.2) hface⟩
  rw [hindex.1, hindex.2]
  exact ⟨hin, hend⟩

/-- A STARTING stage whose frame ends with a graph's set, and whose precharges have ended, is ENABLED (R362). -/
theorem enabled_reloadRest (hlen : n < s.loop.stages.length) (hst : (getStage s n).st = .starting) (he : endsFrame t n s = true)
    (htook : (takeSets t n (frameEnded t n s)).1 = true) (hpre : prechargesDone s n = true) :
    (getStage (reloadRest t n s) n).st = .enabled ∧ (getStage (reloadRest t n s) n).gateOpen = true := by
  obtain ⟨p, pe, idx, h⟩ := reloadRest_eq t n s
  obtain ⟨⟨hst', -⟩, -⟩ := getStage_reloadFramed t n s hlen
  have hface := gatesStep_face t n p pe idx (takeSets t n (frameEnded t n s)).1 s (reloadFramed t n s) (by rw [reloadFramed_stages_length]; exact hlen)
  have hruns : stageRuns n s = true := by simp [stageRuns, hst]
  have hen : enables t n (takeSets t n (frameEnded t n s)).1 s (reloadFramed t n s) = true := by
    simp [enables, he, htook, hst', hst, prechargesDone_of_wired (reloadFramed_wired t n s), hpre]
  rw [← h, hruns, hen, if_pos (by rfl)] at hface
  exact ⟨congrArg (·.1) hface, congrArg (·.2.1) hface⟩

/-- Without a graph's set the stage stays as it was (R362). -/
theorem still_reloadRest (hlen : n < s.loop.stages.length) (htook : (takeSets t n (frameEnded t n s)).1 = false) :
    (getStage (reloadRest t n s) n).st = (getStage s n).st ∧ (getStage (reloadRest t n s) n).gateOpen = (getStage s n).gateOpen := by
  obtain ⟨p, pe, idx, h⟩ := reloadRest_eq t n s
  obtain ⟨⟨hst, hgate⟩, -⟩ := getStage_reloadFramed t n s hlen
  have hface := gatesStep_face t n p pe idx (takeSets t n (frameEnded t n s)).1 s (reloadFramed t n s) (by rw [reloadFramed_stages_length]; exact hlen)
  have hen : enables t n (takeSets t n (frameEnded t n s)).1 s (reloadFramed t n s) = false := by simp [enables, htook]
  rw [← h, hen, Bool.and_false, if_neg Bool.false_ne_true] at hface
  exact ⟨(congrArg (·.1) hface).trans hst, (congrArg (·.2.1) hface).trans hgate⟩

end


theorem endsFrame_of_stage {t n : Nat} {s u : State} (h : getStage u n = getStage s n) : endsFrame t n u = endsFrame t n s := by
  rw [Bool.eq_iff_iff, endsFrame_iff, endsFrame_iff, frameTimer, frameTimer, h]

/-- What a reload says of its timer, also while it hands over a compare unit. -/
theorem doReload_timer {t : Nat} {s : State} (hlen : t < s.pwm.timers.length) (n : Nat) : (doReload t n s).time = s.time
    ∧ (getTimer (doReload t n s) t).reloads = (getTimer s t).reloads + 1 ∧ (getTimer (doReload t n s) t).lastReload = s.time.raw
    ∧ (getTimer (doReload t n s) t).running = (getTimer s t).running
    ∧ (getTimer (doReload t n s) t).nextReload = s.time.raw + (getTimer (doReload t n s) t).pEff := by
  have hstand : standing (reloadStart t s) = standing (updTimer t (fun x => { x with reloads := x.reloads + 1, reloaded := true, lastReload := s.time.raw }) s) :=
    swapUnits_reading standing_runBlind t _
  have htime : (reloadStart t s).time = s.time := congrArg (·.1) hstand
  have htimers : (reloadStart t s).pwm.timers = upd s.pwm.timers t (fun x => { x with reloads := x.reloads + 1, reloaded := true, lastReload := s.time.raw }) :=
    congrArg (·.2.2.1) hstand
  have hget : getTimer (reloadStart t s) t = { getTimer s t with reloads := (getTimer s t).reloads + 1, reloaded := true, lastReload := s.time.raw } :=
    (congrArg (fun l => l.getD t timer0) htimers).trans (getD_upd_same _ _ hlen)
  obtain ⟨hrest, hbeat, hnext⟩ := reloadRest_timer t n (reloadStart t s) (by rw [htimers, upd_length]; exact hlen)
  rw [doReload_eq, hrest, htime]
  rw [hget] at hbeat
  exact ⟨rfl, congrArg (·.1) hbeat, congrArg (·.2.1) hbeat, congrArg (·.2.2.1) hbeat, by rw [hnext, htime]⟩

section
variable {t n : Nat} {s : State} (hw : s.rel.waiting = []) (hst : n < s.loop.stages.length)
include hw

/-- A reload while no retirement is decided is that of a state which differs in the timer's count and the unit watches. -/
theorem doReload_of_none_waiting : ∃ u, doReload t n s = reloadRest t n u ∧ u.loop = s.loop ∧ u.time = s.time ∧ u.pwm.groups = s.pwm.groups
    ∧ u.pwm.channels = s.pwm.channels ∧ wired u = wired s := by
  obtain ⟨r, hr⟩ := reloadStart_of_none_waiting (t := t) hw
  refine ⟨_, (doReload_eq t n s).trans (congrArg _ hr), rfl, rfl, rfl, rfl, ?_⟩
  exact updTimer_reading wired_timerBlind (by exact fun _ => rfl) t s

include hst

theorem frame_doReload : (endsFrame t n s = false → (getStage (doReload t n s) n).frameIndex = (getStage s n).frameIndex)
    ∧ (endsFrame t n s = true → (getStage (doReload t n s) n).frameIndex = (getStage s n).frameIndex + 1 ∧ (getStage (doReload t n s) n).frameStart = s.time.raw) := by
  obtain ⟨u, hu, hloop, htime, -⟩ := doReload_of_none_waiting (t := t) (n := n) hw
  have hstage : getStage u n = getStage s n := getStage_of_loop hloop n
  have hends : endsFrame t n u = endsFrame t n s := endsFrame_of_stage hstage
  obtain ⟨hin, hend⟩ := frame_reloadRest (t := t) (s := u) (by rw [hloop]; exact hst)
  rw [hu]
  rw [hends, hstage] at hin hend
  refine ⟨hin, fun h => ?_⟩
  have hgraph : (getStage s n).graph.isSome := by
    have hf := (endsFrame_iff.mp h).1
    simp only [frameTimer, Option.map_eq_some_iff] at hf
    obtain ⟨g, hg, -⟩ := hf
    rw [hg]; rfl
  rw [htime] at hend
  exact hend h hgraph

theorem getGroup_doReload (hgr : s.pwm.groups.length = 32) {g : Nat} (hg : g < 32) :
    ((getGroup s g).timer ≠ some t → getGroup (doReload t n s) g = getGroup s g)
    ∧ ((getGroup s g).timer = some t →
      (∀ c, (moveStaged s.time.raw (getGroup s g)).pend = some c → ripe s n t s.time.raw c →
        getGroup (doReload t n s) g = { moveStaged s.time.raw (getGroup s g) with pend := none, active := some c })
      ∧ ((∀ c, (moveStaged s.time.raw (getGroup s g)).pend = some c → ¬ ripe s n t s.time.raw c) →
        getGroup (doReload t n s) g = moveStaged s.time.raw (getGroup s g))) := by
  obtain ⟨u, hu, hloop, htime, hgroups, -⟩ := doReload_of_none_waiting (t := t) (n := n) hw
  have hgroup : getGroup u g = getGroup s g := congrArg (fun l => l.getD g group0) hgroups
  have hripe : ∀ c, ripe u n t s.time.raw c ↔ ripe s n t s.time.raw c := fun c => by simp only [ripe, frameTimer, getStage_of_loop hloop n]
  rw [hu, ← hgroup]
  refine ⟨fun h => getGroup_reloadRest_other h, fun ht => ?_⟩
  obtain ⟨hyes, hno⟩ := getGroup_reloadRest_of_timer (n := n) (s := u) (by rw [hloop]; exact hst) (by rw [hgroups]; exact hgr) hg ht
  rw [htime] at hyes hno
  exact ⟨fun c hp hc => hyes c hp ((hripe c).mpr hc), fun h => hno fun c hp hc => h c hp ((hripe c).mp hc)⟩

theorem enabled_doReload (hgr : s.pwm.groups.length = 32) {g : Nat} (hg : g < 32) (ht : (getGroup s g).timer = some t) {c : CompareSet}
    (hp : (moveStaged s.time.raw (getGroup s g)).pend = some c) (hc : ripe s n t s.time.raw c) (hf : c.frame.isSome = true)
    (hstart : (getStage s n).st = .starting) (he : endsFrame t n s = true) (hpre : prechargesDone s n = true) :
    (getStage (doReload t n s) n).st = .enabled ∧ (getStage (doReload t n s) n).gateOpen = true := by
  obtain ⟨u, hu, hloop, htime, hgroups, -, hwired⟩ := doReload_of_none_waiting (t := t) (n := n) hw
  have hgroup : getGroup u g = getGroup s g := congrArg (fun l => l.getD g group0) hgroups
  have hstage : getStage u n = getStage s n := getStage_of_loop hloop n
  have hlen : n < u.loop.stages.length := by rw [hloop]; exact hst
  have htook := takeSets_fst_of_ripe (t := t) (n := n) (s := u) hlen (by rw [hgroups]; exact hgr) hg (by rw [hgroup]; exact ht) (c := c)
    (by rw [htime, hgroup]; exact hp) (by simpa only [htime, ripe, frameTimer, hstage] using hc) hf
  rw [hu]
  exact enabled_reloadRest hlen (by rw [hstage]; exact hstart) (by rw [endsFrame_of_stage hstage]; exact he) htook
    (by rw [prechargesDone_of_wired hwired]; exact hpre)

theorem still_doReload (hgr : s.pwm.groups.length = 32)
    (h : ∀ g < 32, (getGroup s g).timer = some t → ∀ c, (moveStaged s.time.raw (getGroup s g)).pend = some c → c.frame = none) :
    (getStage (doReload t n s) n).st = (getStage s n).st ∧ (getStage (doReload t n s) n).gateOpen = (getStage s n).gateOpen := by
  obtain ⟨u, hu, hloop, htime, hgroups, -⟩ := doReload_of_none_waiting (t := t) (n := n) hw
  have hgroup : ∀ g, getGroup u g = getGroup s g := fun g => congrArg (fun l => l.getD g group0) hgroups
  rw [hu, ← getStage_of_loop hloop n]
  exact still_reloadRest (by rw [hloop]; exact hst) (takeSets_fst_of_no_frame (by rw [hgroups]; exact hgr) (by simpa only [hgroup, htime] using h))

omit hst in
theorem enabled_getChan_doReload {c : Nat} {on : Bool} (hlen : s.pwm.channels.length = 96) (hc : c < 96) (ht : chanTimer s c = some t)
    (hp : (getChan s c).pendEn = some on) (hruns : (getStage s n).st = .starting ∨ (getStage s n).st = .enabled)
    (hmin : on = true ∨ (getChan s c).cmd = false ∨ (getChan s c).onSince + chanMinpw s c ≤ s.time.raw) :
    (getChan (doReload t n s) c).enabled = on ∧ (getChan (doReload t n s) c).pendEn = none := by
  obtain ⟨u, hu, hloop, htime, -, hchans, hwired⟩ := doReload_of_none_waiting (t := t) (n := n) hw
  have hchan : getChan u c = getChan s c := congrArg (fun l => l.getD c channel0) hchans
  have hswitch := switchOf_getChan_reloadRest t n u (by rw [hchans]; exact hlen) hc (by rw [chanTimer_of_wired hwired]; exact ht) (by rw [hchan]; exact hp)
    (by simpa [stageRuns, getStage_of_loop hloop n] using hruns) (by rw [hchan, chanMinpw_of_wired hwired, htime]; exact hmin)
  rw [hu]
  exact ⟨congrArg (·.1) hswitch, congrArg (·.2) hswitch⟩

end

theorem prechargesDone_iff (s : State) (n : Nat) : prechargesDone s n = true ↔ ∀ h ∈ stageHbs s n, (getHb s h).preEnd = none ∧ (getHb s h).preDue = false := by
  simp [prechargesDone]


/-! ### A start that begins (R362, R375) -/

theorem forEach_eq_self {f : Nat → State → State} {l : List Nat} {s : State} (h : ∀ i ∈ l, f i s = s) : forEach l f s = s := by
  unfold forEach
  induction l with
  | nil => rfl
  | cons i l ih => rw [List.foldl_cons, h i List.mem_cons_self, ih (fun j hj => h j (List.mem_cons_of_mem _ hj))]

/-- While no source is in its trip condition none trips as it becomes armed (R375). -/
theorem armTrips_of_quiet {s : State} (h : quiet s) (cs : List Nat) : armTrips cs s = s := by
  obtain ⟨hflt, hcmp, hfoc, hhb⟩ := h
  unfold armTrips
  extract_lets s1 s2 s3
  have hs1 : s1 = s := forEach_eq_self fun c _ => by
    by_cases hc : c < 80
    · simp [hflt c hc]
    · simp [hc]
  have hs2 : s2 = s := by
    rw [← hs1]
    exact forEach_eq_self fun k hk => by rw [hs1]; simp [hcmp k (List.mem_range.mp hk)]
  have hs3 : s3 = s := by
    rw [← hs2]
    exact forEach_eq_self fun k hk => by rw [hs2]; simp [hfoc k (List.mem_range.mp hk)]
  rw [hs3]
  exact forEach_eq_self fun b hb => by simp [hhb b (List.mem_range.mp hb)]

/-- What `quiet` reads. -/
def sources (s : State) : List FltInput × List Comparator × List FastDet × List Bool := (s.pwm.flts, s.pwm.cmps, s.pwm.focs, s.pwm.hbs.map (·.bootLow))

theorem quiet_of_sources {s t : State} (h : sources t = sources s) (hq : quiet s) : quiet t := by
  obtain ⟨hflt, hcmp, hfoc, hhb⟩ := hq
  have hboot : ∀ u : State, ∀ b, (getHb u b).bootLow = (sources u).2.2.2.getD b false := fun u b => (List.getD_map (f := HalfBridge.bootLow) ..).symm
  have hf : t.pwm.flts = s.pwm.flts := congrArg (·.1) h
  have hc : t.pwm.cmps = s.pwm.cmps := congrArg (·.2.1) h
  have ho : t.pwm.focs = s.pwm.focs := congrArg (·.2.2.1) h
  refine ⟨fun c hc => ?_, fun k hk => ?_, fun k hk => ?_, fun b hb => ?_⟩
  · rw [getFlt, hf]; exact hflt c hc
  · rw [getCmp, hc]; exact hcmp k hk
  · rw [getFoc, ho]; exact hfoc k hk
  · rw [hboot, h, ← hboot]; exact hhb b hb

theorem capStageStarts_log (n : Nat) (s : State) : LogOnly s (capStageStarts n s) := by
  unfold capStageStarts
  split
  · exact updCap_log ..
  · exact LogOnly.refl s

theorem queuePrecharges_reading {α : Type} {v : State → α} (hh : ∀ h s, v (updHb h (fun x => { x with preDue := true }) s) = v s)
    (hg : ∀ g s, v { s with gov := g } = v s) (n : Nat) (s : State) : v (queuePrecharges n s) = v s :=
  forEach_reading (fun h s => (hg _ (updHb h (fun x => { x with preDue := true }) s)).trans (hh h s)) _ s

/-- A stage changes state, for a reading of what a stage that leaves OFF does not touch. -/
theorem setStage_reading {α : Type} {v : State → α} (hl : LogBlind v) (hr : ∀ (s : State) (r : Rel) (x : Sage), v { s with rel := r, sage := x } = v s)
    (n : Nat) (st : StageState) (cause : Nat) (hst : ∀ s, v (updStage n (fun x => { x with st := st }) s) = v s) (s : State) : v (setStage n st cause s) = v s := by
  unfold setStage
  extract_lets old
  split
  · rfl
  · refine (post_reading hl ..).trans ((hst _).trans ?_)
    split
    · exact leaveOff_reading hl hr s
    · rfl

/-- The state of a start before its sources arm. -/
def startQueued (n : Nat) (f : Stage → Stage) (g : Governor) (s : State) : State :=
  queuePrecharges n (capStageStarts n (setStage n .starting 0 (updStage n f { s with gov := g })))

theorem startQueued_reading {α : Type} {v : State → α} (hl : LogBlind v) (hr : ∀ (s : State) (r : Rel) (x : Sage), v { s with rel := r, sage := x } = v s)
    (hh : ∀ h s, v (updHb h (fun x => { x with preDue := true }) s) = v s) (hg : ∀ g s, v { s with gov := g } = v s) {n : Nat}
    (hst : ∀ f s, v (updStage n f s) = v s) (f : Stage → Stage) (g : Governor) (s : State) : v (startQueued n f g s) = v s :=
  (queuePrecharges_reading hh hg ..).trans ((hl.of_log (capStageStarts_log ..)).trans
    ((setStage_reading hl hr n _ _ (hst _) _).trans ((hst ..).trans (hg ..))))

theorem startQueued_quiet {n : Nat} {s : State} (h : quiet s) (f : Stage → Stage) (g : Governor) : quiet (startQueued n f g s) :=
  quiet_of_sources (startQueued_reading (v := sources) (fun _ _ _ => rfl) (fun _ _ _ => rfl)
    (fun b s => by simp only [sources, updHb, map_upd_of_eq (g := HalfBridge.bootLow) (f := fun x => { x with preDue := true }) (fun _ => rfl)])
    (fun _ _ => rfl) (fun _ _ => rfl) f g s) h

theorem getStage_startQueued {n : Nat} {s : State} (hlen : n < s.loop.stages.length) (f : Stage → Stage) (g : Governor) :
    getStage (startQueued n f g s) n = { f (getStage s n) with st := .starting } := by
  refine (queuePrecharges_reading (v := fun s => getStage s n) (fun _ _ => rfl) (fun _ _ => rfl) ..).trans
    (((show LogBlind (fun s => getStage s n) from fun _ _ _ => rfl).of_log (capStageStarts_log ..)).trans ?_)
  dsimp only
  rw [getStage_setStage_same (by simpa [updStage, upd_length] using hlen)]
  exact congrArg (fun x : Stage => { x with st := .starting }) (getStage_updStage_same (s := { s with gov := g }) hlen)

/-- A stage that enters STARTING while no source is in its trip condition. -/
theorem enterStarting_of_quiet {n : Nat} {s : State} {g : Graph} (hlen : n < s.loop.stages.length) (hg : (getStage s n).graph = some g) (hq : quiet s) :
    let t := enterStarting n s
    (getStage t n).st = .starting ∧ (getStage t n).waitStart = false ∧ (getStage t n).frameIndex = 0 ∧ (getStage t n).startedAt = s.time.raw
      ∧ (getStage t n).ts = some (startInstant (getTimer s g.frameTimer).align (max s.time.raw ((wakeEngines s.time.raw g.engines s.gov.wakes).headD 0)))
      ∧ (∀ m, m ≠ n → getStage t m = getStage s m) ∧ t.time = s.time := by
  have hstart : ∃ (f : Stage → Stage) (gov : Governor), enterStarting n s = startQueued n f gov s ∧ ∀ x, (f x).waitStart = false ∧ (f x).frameIndex = 0
      ∧ (f x).startedAt = s.time.raw
      ∧ (f x).ts = some (startInstant (getTimer s g.frameTimer).align (max s.time.raw ((wakeEngines s.time.raw g.engines s.gov.wakes).headD 0))) := by
    unfold enterStarting
    rw [hg]
    dsimp only
    refine ⟨_, _, armTrips_of_quiet (startQueued_quiet hq _ _) _, fun _ => ⟨rfl, rfl, rfl, rfl⟩⟩
  obtain ⟨f, gov, ht, hf⟩ := hstart
  obtain ⟨hwait, hframe, hat, hts⟩ := hf (getStage s n)
  intro t
  have htn : getStage t n = { f (getStage s n) with st := .starting } := (congrArg (getStage · n) ht).trans (getStage_startQueued hlen f gov)
  rw [htn]
  refine ⟨rfl, hwait, hframe, hat, hts, fun m hm => ?_, ?_⟩
  · exact (congrArg (getStage · m) ht).trans (startQueued_reading (v := fun s => getStage s m) (fun _ _ _ => rfl) (fun _ _ _ => rfl) (fun _ _ => rfl) (fun _ _ => rfl)
      (fun _ _ => getStage_updStage_ne hm) f gov s)
  · exact (congrArg State.time ht).trans (startQueued_reading (v := State.time) (fun _ _ _ => rfl) (fun _ _ _ => rfl) (fun _ _ => rfl) (fun _ _ => rfl) (fun _ _ => rfl) f gov s)


/-! ### The start of the timers (R343 to R345) -/

/-- The step of TIMERS_START for one timer; `s1` is the state at t_s. -/
def startTimer (s1 : State) (k : Nat) (s : State) : State :=
  let y := getTimer s k
  let per := startPeriod s1 (if y.slave then y.master else k)
  let pe := dither per 0
  let off := if y.slave then (2 * y.phase * pe + 65536) / 131072 else pe
  updTimer k (fun z => { z with running := true, reloaded := false, reloads := 0, lastReload := s1.time.raw,
                                nextReload := s1.time.raw + (if off = 0 then pe else off), pActive := per, pEff := pe })
    (match ownedPeriod s k with | some p => countClamp k p s | none => s)
/-- Its step for one channel: the followers turn on after their dead time. -/
def startFollower (r : Nat) (s2 : State) (c : Nat) : State → State :=
  updChan c (fun y => if y.role = 2 then { y with onAt := some (r + (match y.partner with | some l => (getChan s2 l).dtF | none => 0)) } else y)

theorem execTimersStart_of_starting {n : Nat} {s : State} {i : Nat} (hst : (getStage s n).st = .starting) (hts : (getStage s n).ts = some i) :
    let s1 := advanceTo i s
    let s2 := forEach (stageTimers s1 n) (startTimer s1) s1
    execTimersStart n s = .next (updStage n (fun y => { y with ts := none }) (forEach (stageChans s2 n) (startFollower s1.time.raw s2) s2)) := by
  unfold execTimersStart
  dsimp only
  rw [hst, hts]
  rfl

/-- What `startTimer s1 k` reads. -/
def seenByTimer (k : Nat) (s : State) : Timer × List Group × Nat := (getTimer s k, s.pwm.groups, s.pwm.timers.length)

theorem ownedPeriod_of_seen {k : Nat} {s u : State} (h : seenByTimer k u = seenByTimer k s) : ownedPeriod u k = ownedPeriod s k := by
  obtain ⟨ht, hg, -⟩ := Prod.ext_iff.mp h |>.imp id Prod.ext_iff.mp
  simp only [seenByTimer] at ht hg
  have hgroup : ∀ g, getGroup u g = getGroup s g := fun g => congrArg (fun l => l.getD g group0) hg
  simp only [ownedPeriod, ht, hgroup]

/-- A clamp is counted at its timer. -/
theorem countClamp_cases (k p : Nat) (s : State) : ∃ u, LogOnly u (countClamp k p s) ∧
    u = updTimer k (fun y => { y with clamps := y.clamps + (if p < (getTimer s k).pmin ∨ (getTimer s k).pmax < p then 1 else 0) }) s := by
  unfold countClamp
  extract_lets x
  refine ⟨_, ?_, rfl⟩
  split
  · exact postMerge_log ..
  · have hid : updTimer k (fun y => { y with clamps := y.clamps + 0 }) s = s := by
      have : (fun y : Timer => { y with clamps := y.clamps + 0 }) = id := funext fun y => by simp
      rw [this]; simp [updTimer, upd]
    rw [hid]
    exact LogOnly.refl s

theorem seenByTimer_countClamp_ne {k i : Nat} (h : i ≠ k) (p : Nat) (s : State) : seenByTimer k (countClamp i p s) = seenByTimer k s := by
  obtain ⟨u, hlog, hu⟩ := countClamp_cases i p s
  rw [(show LogBlind (seenByTimer k) from fun _ _ _ => rfl).of_log hlog, hu]
  simp only [seenByTimer, getTimer_updTimer_ne h.symm]
  simp [updTimer, upd_length]

theorem getTimer_countClamp_same {k : Nat} {s : State} (hlen : k < s.pwm.timers.length) (p : Nat) :
    getTimer (countClamp k p s) k = { getTimer s k with clamps := (getTimer s k).clamps + (if p < (getTimer s k).pmin ∨ (getTimer s k).pmax < p then 1 else 0) } := by
  obtain ⟨u, hlog, hu⟩ := countClamp_cases k p s
  rw [(show LogBlind (fun s => getTimer s k) from fun _ _ _ => rfl).of_log hlog, hu]
  exact getTimer_updTimer_same hlen

theorem startTimer_seen_ne {s1 : State} {k i : Nat} (h : i ≠ k) (s : State) : seenByTimer k (startTimer s1 i s) = seenByTimer k s := by
  unfold startTimer
  extract_lets y per pe off
  have hupd : ∀ f u, seenByTimer k (updTimer i f u) = seenByTimer k u := by
    intro f u
    simp only [seenByTimer, getTimer_updTimer_ne h.symm]
    simp [updTimer, upd_length]
  rw [hupd]
  split
  · exact seenByTimer_countClamp_ne h ..
  · rfl

theorem dither_zero (v : Nat) : dither v 0 = ceilDiv v 16 := by
  have h0 : rev4 (0 % 16) = 0 := by decide
  unfold dither ceilDiv
  rw [h0]
  split <;> omega

/-- A timer that starts. -/
theorem startTimer_same {s1 : State} {k : Nat} {s : State} (hlen : k < s.pwm.timers.length) :
    let z := getTimer (startTimer s1 k s) k
    z.running = true ∧ z.reloads = 0 ∧ z.lastReload = s1.time.raw
      ∧ ((getTimer s k).slave = false → z.nextReload = s1.time.raw + ceilDiv (startPeriod s1 k) 16)
      ∧ (∀ p, ownedPeriod s k = some p → z.clamps = (getTimer s k).clamps + (if p < (getTimer s k).pmin ∨ (getTimer s k).pmax < p then 1 else 0)) := by
  unfold startTimer
  extract_lets y per pe off z
  have hlen' : k < (match ownedPeriod s k with | some p => countClamp k p s | none => s).pwm.timers.length := by
    split
    · rw [countClamp_timers_length]; exact hlen
    · exact hlen
  have hz : z = _ := getTimer_updTimer_same hlen'
  rw [hz]
  refine ⟨rfl, rfl, rfl, fun hs => ?_, fun p hp => ?_⟩
  · have hy : y.slave = false := hs
    have hper : pe = ceilDiv (startPeriod s1 k) 16 := by simp only [pe, per, hy, dither_zero, Bool.false_eq_true, if_false]
    have hoff : off = pe := by simp only [off, hy, Bool.false_eq_true, if_false]
    rw [hoff, ite_self, hper]
  · rw [hp]
    exact congrArg Timer.clamps (getTimer_countClamp_same hlen p)

/-- The free-running timers of the stage start; the others stay as they are. -/
theorem getTimer_timersStart (n : Nat) (s1 : State) :
    (∀ k < 24, (getTimer s1 k).stage = some n → ∃ u, seenByTimer k u = seenByTimer k s1
        ∧ getTimer (forEach (stageTimers s1 n) (startTimer s1) s1) k = getTimer (startTimer s1 k u) k)
    ∧ (∀ k, (getTimer s1 k).stage ≠ some n → getTimer (forEach (stageTimers s1 n) (startTimer s1) s1) k = getTimer s1 k) := by
  constructor
  · intro k hk hs
    obtain ⟨u, hu, hv⟩ := forEach_reading_at (v := seenByTimer k) (fun i s hi => startTimer_seen_ne (s1 := s1) hi s)
      (l := stageTimers s1 n) (List.nodup_range.filter _) (by simp [stageTimers, hk, hs]) s1
    exact ⟨u, hu, congrArg (·.1) hv⟩
  · intro k hs
    refine forEach_reading_mem (v := fun s => getTimer s k) (fun i hi s => ?_) s1
    have hne : i ≠ k := by
      rintro rfl
      simp only [stageTimers, List.mem_filter, decide_eq_true_eq] at hi
      exact hs hi.2
    exact congrArg (·.1) (startTimer_seen_ne hne s)

theorem startTimer_reading {α : Type} {v : State → α} (hv : TimerBlind v) (s1 : State) (k : Nat) (s : State) : v (startTimer s1 k s) = v s := by
  unfold startTimer
  extract_lets y per pe off
  rw [updTimer_reading hv (by exact fun _ => rfl)]
  split
  · exact countClamp_reading hv ..
  · rfl

theorem startPeriod_of_owned {s : State} {k p : Nat} (h : ownedPeriod s k = some p) : startPeriod s k = max (getTimer s k).pmin (min p (getTimer s k).pmax) := by
  simp only [startPeriod, h]

/-- TIMERS_START of a stage whose t_s has come. -/
theorem timersStart_of_starting {n i : Nat} {s : State} (hs : Sized s) (hn : n < 8) (hst : (getStage s n).st = .starting) (hts : (getStage s n).ts = some i) :
    ∃ t, exec (.timersStart n) s = .next t ∧ t.time.raw = max s.time.raw i ∧ (getStage t n).ts = none
        ∧ (∀ k < 24, (getTimer s k).stage = some n → (getTimer t k).running = true ∧ (getTimer t k).reloads = 0 ∧ (getTimer t k).lastReload = t.time.raw
            ∧ ((getTimer s k).slave = false → (getTimer t k).nextReload = t.time.raw + ceilDiv (startPeriod s k) 16)
            ∧ (∀ p, ownedPeriod s k = some p → startPeriod s k = max (getTimer s k).pmin (min p (getTimer s k).pmax)
                ∧ (getTimer t k).clamps = (getTimer s k).clamps + (if p < (getTimer s k).pmin ∨ (getTimer s k).pmax < p then 1 else 0)))
        ∧ (∀ k, (getTimer s k).stage ≠ some n → getTimer t k = getTimer s k) := by
  obtain ⟨-, -, -, -, -, -, ⟨htim, -⟩, ⟨hstages, -⟩, -⟩ := hs
  refine ⟨_, execTimersStart_of_starting hst hts, ?_⟩
  generalize hs1 : advanceTo i s = s1
  have hraw : s1.time.raw = max s.time.raw i := by rw [← hs1]; rfl
  have hget : ∀ k, getTimer s1 k = getTimer s k := fun k => by rw [← hs1]; rfl
  have hown : ∀ k, ownedPeriod s1 k = ownedPeriod s k := fun k => by rw [← hs1]; rfl
  have hper : ∀ k, startPeriod s1 k = startPeriod s k := fun k => by rw [← hs1]; rfl
  have hlen : s1.pwm.timers.length = 24 := by rw [← hs1]; exact htim
  have hloop : s1.loop = s.loop := by rw [← hs1]; rfl
  generalize hs2 : forEach (stageTimers s1 n) (startTimer s1) s1 = s2
  generalize hs3 : forEach (stageChans s2 n) (startFollower s1.time.raw s2) s2 = s3
  have hchan : ∀ {α : Type} (v : State → α), GateBlind v → v s3 = v s2 := fun v hv => by
    rw [← hs3]; exact forEach_reading (fun c u => updChan_reading hv ..) _ _
  have htime : s3.time = s1.time := by
    rw [hchan State.time (fun _ _ _ => rfl), ← hs2]; exact forEach_reading (startTimer_reading (v := State.time) (fun _ _ _ _ _ => rfl) s1) _ _
  have hl3 : s3.loop = s.loop := by
    rw [hchan State.loop (fun _ _ _ => rfl), ← hs2, ← hloop]; exact forEach_reading (startTimer_reading (v := State.loop) (fun _ _ _ _ _ => rfl) s1) _ _
  have ht3 : ∀ k, getTimer (updStage n (fun y => { y with ts := none }) s3) k = getTimer s2 k := fun k => hchan (fun s => getTimer s k) (fun _ _ _ => rfl)
  obtain ⟨hmine, hother⟩ := getTimer_timersStart n s1
  rw [hs2] at hmine hother
  have htraw : (updStage n (fun y => { y with ts := none }) s3).time.raw = s1.time.raw := congrArg (·.raw) htime
  refine ⟨htraw.trans hraw, ?_, fun k hk hs => ?_, fun k hs => ?_⟩
  · rw [getStage_updStage_same (by rw [hl3, hstages]; exact hn)]
  · obtain ⟨u, hu, hk2⟩ := hmine k hk (by rw [hget]; exact hs)
    have hgu : getTimer u k = getTimer s k := (congrArg (·.1) hu).trans (hget k)
    have hlu : u.pwm.timers.length = 24 := (congrArg (·.2.2) hu).trans hlen
    obtain ⟨hrun, hrel, hlast, hnext, hclamp⟩ := startTimer_same (s1 := s1) (k := k) (s := u) (by omega)
    rw [ht3, hk2, htraw]
    refine ⟨hrun, hrel, hlast, fun h => ?_, fun p hp => ⟨startPeriod_of_owned hp, ?_⟩⟩
    · rw [hnext (by rw [hgu]; exact h), hper]
    · rw [hclamp p (by rw [ownedPeriod_of_seen hu, hown]; exact hp), hgu]
  · rw [ht3, hother k (by rw [hget]; exact hs), hget]


/-! ### Refresh periods (R384) -/

theorem execRefreshPeriod_of_due {h : Nat} {s : State} {q : Pulse} (hr : 32 ≤ (getChan s (80 + 2 * h)).refresh)
    (hq : (getChan s (80 + 2 * h)).pulses.getLast? = some q) : ∃ f u, u = updHb h (fun y => { y with refreshes := y.refreshes + 1 }) (updChan (80 + 2 * h) f s)
      ∧ (∀ y, (f y).refresh = 0 ∧ (f y).refreshed = true)
      ∧ execRefreshPeriod h s = .next (if (getChan s (80 + 2 * h)).refreshed then u else post 0x0901#16 h [] u) := by
  unfold execRefreshPeriod
  extract_lets c x b gap
  rw [if_neg (by exact not_lt.mpr hr)]
  split
  rw [show x.pulses.getLast? = some q from hq]
  exact ⟨_, _, rfl, fun _ => ⟨rfl, rfl⟩, rfl⟩

theorem execRefreshPeriod_of_no_pulse {h : Nat} {s : State} (hr : 32 ≤ (getChan s (80 + 2 * h)).refresh) (hp : (getChan s (80 + 2 * h)).pulses = []) :
    execRefreshPeriod h s = .next (updChan (80 + 2 * h) (fun y => { y with refresh := 0 }) s) := by
  unfold execRefreshPeriod
  extract_lets c x b gap
  rw [if_neg (by exact not_lt.mpr hr)]
  split
  rw [show x.pulses = [] from hp]
  rfl

theorem refreshPeriod_of_due {h : Nat} {s : State} {q : Pulse} (hs : Sized s) (hh : h < 8) (hr : 32 ≤ (getChan s (80 + 2 * h)).refresh)
    (hq : (getChan s (80 + 2 * h)).pulses.getLast? = some q) :
    ∃ u, exec (.refreshPeriod h) s = .next (if (getChan s (80 + 2 * h)).refreshed then u else post 0x0901#16 h [] u)
      ∧ (getChan u (80 + 2 * h)).refresh = 0 ∧ (getChan u (80 + 2 * h)).refreshed = true ∧ (getHb u h).refreshes = (getHb s h).refreshes + 1
      ∧ (∀ c, c ≠ 80 + 2 * h → getChan u c = getChan s c) ∧ u = { s with pwm := { s.pwm with channels := u.pwm.channels, hbs := u.pwm.hbs } } := by
  obtain ⟨-, -, -, -, -, -, ⟨-, -, hchans, -, -, -, -, hhbs⟩, -⟩ := hs
  obtain ⟨f, u, hu, hf, hexec⟩ := execRefreshPeriod_of_due hr hq
  have hchan : getChan u (80 + 2 * h) = f (getChan s (80 + 2 * h)) := by
    rw [hu]; exact getChan_updChan_same (by rw [hchans]; omega)
  refine ⟨u, hexec, by rw [hchan]; exact (hf _).1, by rw [hchan]; exact (hf _).2, ?_, fun c hc => ?_, by rw [hu]; rfl⟩
  · rw [hu, getHb_updHb_same (by show h < s.pwm.hbs.length; rw [hhbs]; exact hh)]
    rfl
  · rw [hu]; exact getChan_updChan_ne hc

/-! ### The start time-out and the end of a shutdown (R363, R364, R366) -/

theorem filter_not_contains_map_index (l : List Frame) : l.filter (fun f => !(l.map (·.index)).contains f.index) = [] := by
  refine List.filter_eq_nil_iff.mpr fun f hf => ?_
  have h : (l.map (·.index)).contains f.index = true := List.contains_iff_mem.mpr (List.mem_map_of_mem hf)
  rw [h]
  decide

/-- The stage after every open frame of it is squashed. -/
theorem getStage_squashAll {n : Nat} {s : State} (hlen : n < s.loop.stages.length) :
    bookkept (getStage (squashAll n s) n) = bookkept { getStage s n with frames := [] } := by
  have h := getStage_of_stagesShown (squash_reading stagesShown_schedBlind n ((getStage s n).frames.map (·.index)) s) n
  rw [getStage_updStage_same hlen, filter_not_contains_map_index] at h
  exact h

theorem stagesShown_leaveEnabled (n cause reason : Nat) (s : State) : stagesShown (leaveEnabled n cause reason s) = stagesShown s :=
  leaveEnabled_reading_of_groups stagesShown_formBlind (fun _ _ _ => rfl) n cause reason s

theorem stagesShown_length {s t : State} {n : Nat} {f : Stage → Stage} (h : stagesShown t = stagesShown (updStage n f s)) :
    t.loop.stages.length = s.loop.stages.length := by
  rw [stages_length_of_stagesShown h]; simp [updStage, upd_length]

/-- A stage whose shutdown begins (R364). -/
theorem getStage_beginShutdown {n : Nat} {s : State} (hlen : n < s.loop.stages.length) (hst : (getStage s n).st ≠ .off) (cause : Nat) :
    let x := getStage (beginShutdown n cause s) n
    x.st = .shuttingDown ∧ x.frames = [] ∧ x.tStop = some s.time.raw := by
  unfold beginShutdown
  extract_lets s1 s2 x
  have hlen1 : s1.loop.stages.length = s.loop.stages.length :=
    setStage_reading_of_live (v := fun s => s.loop.stages.length) (fun _ _ _ => rfl) (fun f s => by simp [updStage, upd_length]) (by exact hst) ..
  have hget1 : getStage s1 n = { getStage s n with st := .shuttingDown } := getStage_setStage_same (by exact hlen) ..
  have hshown : stagesShown s2 = stagesShown (squashAll n s1) := stagesShown_leaveEnabled ..
  have hlen2 : s2.loop.stages.length = s.loop.stages.length := by
    rw [stages_length_of_stagesShown hshown, ← hlen1]
    exact stagesShown_length (squash_reading stagesShown_schedBlind ..)
  have hget2 : bookkept (getStage s2 n) = bookkept { getStage s n with st := .shuttingDown, frames := [] } := by
    rw [getStage_of_stagesShown hshown, getStage_squashAll (by omega), hget1]
  have hx : x = _ := getStage_updStage_same (by omega)
  rw [hx]
  exact ⟨congrArg Stage.st hget2, congrArg Stage.frames hget2, rfl⟩

theorem stagesShown_chanStops (l : List Nat) (s : State) : stagesShown (forEach l chanStop s) = stagesShown s :=
  forEach_reading (chanStop_reading stagesShown_gateBlind) l s

theorem standing_islandBlind : IslandBlind standing := standing_runBlind.1

/-- A normal shutdown of a STARTING stage, whether its timers run or not. -/
theorem normalShutdown_of_starting {n : Nat} {s : State} (hlen : n < s.loop.stages.length) (hst : (getStage s n).st = .starting) (cause : Nat) :
    let t := normalShutdown n cause s
    (getStage t n).st = .shuttingDown ∧ (getStage t n).tStop = some s.time.raw ∧ (getStage t n).frames = [] ∧ t.time = s.time ∧ t.sys.dev = s.sys.dev := by
  intro t
  have hoff : (getStage s n).st ≠ .off := by rw [hst]; decide
  obtain ⟨hsd, hframes, hstop⟩ := getStage_beginShutdown hlen hoff cause
  have ht : stagesShown t = stagesShown (beginShutdown n cause s) ∧ standing t = standing (beginShutdown n cause s) := by
    simp only [t, normalShutdown, hst]
    split
    · exact ⟨stagesShown_chanStops .., forEach_reading (chanStop_reading standing_gateBlind) ..⟩
    · exact ⟨rfl, rfl⟩
  have hget := getStage_of_stagesShown ht.1 n
  have hstand : standing t = standing s := ht.2.trans (beginShutdown_reading_of_live standing_islandBlind hoff cause)
  exact ⟨(congrArg Stage.st hget).trans hsd, (congrArg Stage.tStop hget).trans hstop, (congrArg Stage.frames hget).trans hframes,
    congrArg (·.1) hstand, congrArg (fun x => x.2.2.2.dev) hstand⟩


/-- A reading that shows, of the loop, the PWM island and the log, at most the states of the stages. -/
def OffBlind {α : Type} (v : State → α) : Prop :=
  ∀ (s : State) (l : Loop) (ts : List Timer) (gs : List Group) (cs : List Channel) (hs : List HalfBridge) (e : EventLog) (c : Capture),
    l.stages.map (·.st) = s.loop.stages.map (·.st) →
    v { s with loop := l, evt := e, cap := c, pwm := { s.pwm with timers := ts, groups := gs, channels := cs, hbs := hs } } = v s

section
variable {α : Type} {v : State → α} (hv : OffBlind v)
include hv

theorem OffBlind.log : LogBlind v := fun s e c => hv s s.loop s.pwm.timers s.pwm.groups s.pwm.channels s.pwm.hbs e c rfl
theorem OffBlind.gate : GateBlind v := fun s cs hs => hv s s.loop s.pwm.timers s.pwm.groups cs hs s.evt s.cap rfl
theorem OffBlind.sched : SchedBlind v := fun s st es is h =>
  hv s { s.loop with stages := st, engines := es, insts := is } s.pwm.timers s.pwm.groups s.pwm.channels s.pwm.hbs s.evt s.cap
    (by have h' := congrArg (List.map Stage.st) h; rw [List.map_map, List.map_map] at h'; exact h')

theorem updStage_reading_of_st {f : Stage → Stage} (hf : ∀ x, (f x).st = x.st) (n : Nat) (s : State) : v (updStage n f s) = v s :=
  hv s { s.loop with stages := upd s.loop.stages n f } s.pwm.timers s.pwm.groups s.pwm.channels s.pwm.hbs s.evt s.cap (map_upd_of_eq hf ..)

theorem foldWrites_reading (n : Nat) (upTo : Option U32) (s : State) : v (foldWrites n upTo s) = v s := by
  unfold foldWrites
  extract_lets x due
  split
  · rfl
  · exact (updStage_reading_of_st hv (by exact fun _ => rfl) ..).trans
      (hv s { s.loop with mem := _ } s.pwm.timers s.pwm.groups s.pwm.channels s.pwm.hbs s.evt s.cap rfl)

theorem stopTimers_reading (n : Nat) (s : State) : v (stopTimers n s) = v s :=
  forEach_reading (fun _ u => hv u u.loop _ u.pwm.groups u.pwm.channels u.pwm.hbs u.evt u.cap rfl) _ s

/-- A stage enters OFF: a matter of its state and of what its stop clears (R343, R366, R367). -/
theorem stageEntersOff_reading (n cause : Nat) (s : State) : v (stageEntersOff n cause s) = v (setStage n .off cause s) := by
  unfold stageEntersOff
  extract_lets chs s1 s2 s4 s5 s5' l6 s6 s7
  have h2 : v s2 = v (setStage n .off cause s) := ((squash_reading hv.sched ..).trans (updStage_reading_of_st hv (by exact fun _ => rfl) ..)).trans (foldWrites_reading hv ..)
  have h4 : v s4 = v s2 := (stopTimers_reading hv ..).trans (forEach_reading (chanEntersOff_reading hv.gate) _ _)
  have h5 : v s5 = v s4 := forEach_reading (fun _ u => hv u u.loop u.pwm.timers _ u.pwm.channels u.pwm.hbs u.evt u.cap rfl) _ _
  have h5' : v s5' = v s5 := forEach_reading (endHold_reading hv.sched) _ _
  have h6 : v s6 = v s5' := hv.sched s5' s5'.loop.stages _ _ rfl
  have h7 : v s7 = v s6 := forEach_reading (fun h u => updHb_reading hv.gate h _ u) _ _
  exact (updStage_reading_of_st hv (by exact fun _ => rfl) ..).trans (h7.trans (h6.trans (h5'.trans (h5.trans (h4.trans h2)))))

end

theorem refeed_reading {α : Type} {v : State → α} (hv : FormBlind v) (n : Nat) (s : State) : v (refeed n s) = v s := by
  unfold refeed
  split
  · rfl
  · extract_lets node
    refine forEach_reading (fun u s => ?_) _ s
    split
    · exact updFu_reading hv ..
    · split
      · exact updFu_reading hv ..
      · rfl

/-- The states of the stages. -/
def stageStates (s : State) : List StageState := s.loop.stages.map (·.st)
theorem stageStates_offBlind : OffBlind stageStates := fun _ _ _ _ _ _ _ _ h => h

theorem getStage_st_of_stageStates {s t : State} (h : stageStates t = stageStates s) (m : Nat) : (getStage t m).st = (getStage s m).st := by
  have hm : ∀ u : State, (getStage u m).st = (stageStates u).getD m .off := fun u => (List.getD_map (f := Stage.st) ..).symm
  rw [hm, hm, h]

theorem getStage_setStage_ne_of_live {n m : Nat} {s : State} (hm : m ≠ n) (h : (getStage s n).st ≠ .off) (st : StageState) (cause : Nat) :
    getStage (setStage n st cause s) m = getStage s m :=
  setStage_reading_of_live (v := fun s => getStage s m) (fun _ _ _ => rfl) (fun _ _ => getStage_updStage_ne hm) h st cause

/-- A stage that ends its shutdown is OFF, without an open frame; the other stages keep their states, and time, device and
retirements stay. -/
theorem stageOver_of_live {n : Nat} {s : State} (hlen : n < s.loop.stages.length) (h : (getStage s n).st ≠ .off) (cause : Nat) :
    let t := stageOver n cause s
    (getStage t n).st = .off ∧ (getStage t n).frames = [] ∧ (getStage t n).gateOpen = false ∧ (∀ m, m ≠ n → (getStage t m).st = (getStage s m).st)
      ∧ t.time = s.time ∧ t.sys = s.sys ∧ t.rel = s.rel := by
  intro t
  have hloop : t.loop = (stageEntersOff n cause s).loop := refeed_reading (v := State.loop) (fun _ _ _ _ => rfl) ..
  have hget : ∀ m, getStage t m = getStage (stageEntersOff n cause s) m := getStage_of_loop hloop
  have hstates := stageEntersOff_reading stageStates_offBlind n cause s
  have hcore : ∀ {α : Type} (v : State → α), OffBlind v → FormBlind v → (∀ f u, v (updStage n f u) = v u) → v t = v s := fun v ho hf hst =>
    (refeed_reading hf ..).trans ((stageEntersOff_reading ho ..).trans (setStage_reading_of_live ho.log hst h ..))
  have hfin : ∃ u, stageEntersOff n cause s = updStage n (fun x => { x with gateOpen := false, tStop := none, ts := none, notices := [], frames := [], closed := [], handover := none, handDue := none }) u :=
    ⟨_, rfl⟩
  have hlen' : (stageEntersOff n cause s).loop.stages.length = s.loop.stages.length := by
    have hset := setStage_reading_of_live (v := fun s => s.loop.stages.length) (fun _ _ _ => rfl) (fun f u => by simp [updStage, upd_length]) h .off cause
    simpa [stageStates, hset] using congrArg List.length hstates
  obtain ⟨u, hu⟩ := hfin
  have hclear : (getStage t n).frames = [] ∧ (getStage t n).gateOpen = false := by
    have hlu : n < u.loop.stages.length := by
      rw [hu] at hlen'
      simp only [updStage, upd_length] at hlen'
      omega
    rw [hget, hu, getStage_updStage_same hlu]
    exact ⟨rfl, rfl⟩
  refine ⟨?_, hclear.1, hclear.2, fun m hm => ?_, ?_, ?_, ?_⟩
  · rw [hget, getStage_st_of_stageStates hstates, getStage_setStage_same hlen]
  · rw [hget, getStage_st_of_stageStates hstates, getStage_setStage_ne_of_live hm h]
  · exact hcore State.time (fun _ _ _ _ _ _ _ _ _ => rfl) (fun _ _ _ _ => rfl) (fun _ _ => rfl)
  · exact hcore State.sys (fun _ _ _ _ _ _ _ _ _ => rfl) (fun _ _ _ _ => rfl) (fun _ _ => rfl)
  · exact hcore State.rel (fun _ _ _ _ _ _ _ _ _ => rfl) (fun _ _ _ _ => rfl) (fun _ _ => rfl)

theorem settleIdle_of_none_waiting {s : State} (h : s.rel.waiting = []) : settleIdle s = s := by
  have hno : ∀ c, nextRetire s c = none := fun c => by simp [nextRetire, h]
  have heng : settleEngines 4 s = s := by
    unfold settleEngines
    rw [hno]
    split <;> rfl
  unfold settleIdle
  rw [heng]
  unfold arrangeUnits
  rw [hno]

theorem finishStateChange_of_no_change {s : State} (h : s.sys.stateChange = false) : finishStateChange s = s := by
  simp [finishStateChange, h]


/-! ### O36 -/

/-- STAGE_START_BEGIN of a start that may begin while no source is in its trip condition. -/
theorem stageStartBegin_of_ready {n : Nat} {s : State} {g : Graph} (hoff : (getStage s n).st = .off)
    (hwait : (getStage s n).waitStart = true) (hg : (getStage s n).graph = some g) (hswap : swapPending s n = false) :
    exec (.stageStartBegin n) s = .next (enterStarting n s) := by
  show execStageStartBegin n s = _
  simp [execStageStartBegin, hoff, hwait, hg, hswap]

theorem stageStartBegin_of_not_ready {n : Nat} {s : State}
    (h : (getStage s n).st ≠ .off ∨ (getStage s n).waitStart = false ∨ (getStage s n).graph = none ∨ swapPending s n = true) :
    exec (.stageStartBegin n) s = .next s := by
  show execStageStartBegin n s = _
  unfold execStageStartBegin
  extract_lets x
  refine if_neg fun hr => ?_
  obtain ⟨hoff, hwait, hgraph, hswap⟩ := hr
  rcases h with h | h | h | h
  · exact h hoff
  · exact absurd (hwait.symm.trans h) (by decide)
  · simp only [x, h, Option.isSome_none, Bool.false_eq_true] at hgraph
  · simp only [h, Bool.not_true, Bool.false_eq_true] at hswap

theorem timersStart_of_not_due {n : Nat} {s : State} (h : (getStage s n).st ≠ .starting ∨ (getStage s n).ts = none) : exec (.timersStart n) s = .next s := by
  show execTimersStart n s = _
  unfold execTimersStart
  extract_lets x
  split
  · next t hst hts => exact absurd hst (h.resolve_right (by simp only [x] at hts; simp [hts]))
  · rfl

theorem timerReload_of_not_running {k : Nat} {s : State} (h : (getTimer s k).stage = none ∨ (getTimer s k).running = false) : exec (.timerReload k) s = .next s := by
  show execTimerReload k s = _
  unfold execTimerReload
  extract_lets x
  split
  · rfl
  · next n hn =>
    have hr : x.running = false := h.resolve_left (by simp only [x] at hn; simp [hn])
    simp [hr]

theorem timerReload_of_running {k n : Nat} {s : State} (hst : (getTimer s k).stage = some n) (hr : (getTimer s k).running = true) :
    exec (.timerReload k) s = .next (doReload k n (advanceTo (getTimer s k).nextReload s)) := by
  show execTimerReload k s = _
  simp [execTimerReload, hst, hr]

theorem stageShutdownEnd_of_not_over {n : Nat} {s : State}
    (h : (getStage s n).st ≠ .shuttingDown ∨ effectsDone s n = false ∨ ∃ c ∈ stageChans s n, (getChan s c).stopped = false ∨ (getChan s c).offHeld = true) :
    exec (.stageShutdownEnd n) s = .next s := by
  show execStageShutdownEnd n s = _
  unfold execStageShutdownEnd
  extract_lets x
  refine if_pos ?_
  rcases h with h | h | ⟨c, hc, h⟩
  · exact .inl h
  · exact .inr (.inl (by simp [h]))
  · exact .inr (.inr (List.any_eq_true.mpr ⟨c, hc, by simpa using h⟩))

theorem stageShutdownEnd_of_over {n : Nat} {s : State} (hst : (getStage s n).st = .shuttingDown) (he : effectsDone s n = true)
    (hc : ∀ c ∈ stageChans s n, (getChan s c).stopped = true ∧ (getChan s c).offHeld = false) :
    exec (.stageShutdownEnd n) s = .next (finishStateChange (settleIdle (stageOver n 0 (advanceTo ((getStage s n).lastOff + 10000) s)))) := by
  show execStageShutdownEnd n s = _
  unfold execStageShutdownEnd
  extract_lets x
  refine if_neg ?_
  rintro (h | h | h)
  · exact h hst
  · simp [he] at h
  · obtain ⟨c, hm, h⟩ := List.any_eq_true.mp h
    simp [hc c hm] at h

/-- Settles O36, clause by clause: a start's steps are updates that a stage, a timer, a group or a channel does or does not show; a
reload falls into its count, its sets, its period, its frame and its gates, each read on its own. -/
theorem stagesStartReloadAndStop : Obligations.StagesStartReloadAndStop := by
  unfold Obligations.StagesStartReloadAndStop
  intro s n hs hn
  have hsized := hs
  obtain ⟨-, -, -, -, -, -, ⟨htim, hgrp, hchan, -⟩, ⟨hstages, -⟩, -⟩ := hsized
  have hlen : n < s.loop.stages.length := by omega
  refine ⟨?begin, stageStartBegin_of_not_ready, timersStart_of_not_due, fun _ => timerReload_of_not_running, fun i => timersStart_of_starting hs hn, ?reload,
    ?idle, fun h hh q => refreshPeriod_of_due hs hh, fun h _ => execRefreshPeriod_of_no_pulse, ?starting, stageShutdownEnd_of_not_over, ?timeout, ?ended⟩
  case begin =>
    intro g hoff hwait hg hswap hq
    exact ⟨_, stageStartBegin_of_ready hoff hwait hg hswap, enterStarting_of_quiet hlen hg hq⟩
  case reload =>
    intro k hk hst hrun
    refine ⟨_, timerReload_of_running hst hrun, ?_⟩
    set u := advanceTo (getTimer s k).nextReload s
    obtain ⟨htime, hrel, hlast, hrunning, hnext⟩ := doReload_timer (s := u) (t := k) (by exact htim.symm ▸ hk) n
    rw [htime]
    have hends : frameTimer s n ≠ some k → endsFrame k n u = false := fun hf => Bool.eq_false_iff.mpr fun h => hf (endsFrame_iff.mp h).1
    refine ⟨rfl, hrel, hlast, hrunning.trans hrun, hnext, fun hw _ hf hd => (frame_doReload (s := u) hw hlen).2 (endsFrame_iff.mpr ⟨hf, hd⟩),
      fun hw hf => (frame_doReload (s := u) hw hlen).1 (hends hf), fun g hg hw => ?_,
      fun c on hw hc ht hp hst' hmin => enabled_getChan_doReload (s := u) hw hchan hc ht hp hst' hmin, fun hw hno hst' => ?_⟩
    · obtain ⟨hother, hmine⟩ := getGroup_doReload (s := u) (t := k) hw hlen hgrp hg
      refine ⟨hother, ?_⟩
      rintro x ht rfl
      obtain ⟨hyes, hnot⟩ := hmine ht
      exact ⟨fun c hp hc => ⟨hyes c hp hc, fun hf hst' hft hdiv hpre =>
        enabled_doReload (s := u) hw hlen hgrp hg ht hp hc hf hst' (endsFrame_iff.mpr ⟨hft, hdiv⟩) ((prechargesDone_iff u n).mpr hpre)⟩, hnot⟩
    · obtain ⟨hst2, hgate⟩ := still_doReload (s := u) (t := k) hw hlen hgrp hno
      exact ⟨hst2.trans hst', hgate⟩
  case idle =>
    intro h _ hr
    show execRefreshPeriod h s = _
    simp [execRefreshPeriod, hr]
  case starting =>
    intro h
    show execStartTimeout n s = _
    simp [execStartTimeout, h]
  case timeout =>
    intro hst
    have hpost := post_log 0x0807#16 n (le32 (getStage s n).startCommits) (advanceTo ((getStage s n).startedAt + 100000000) s)
    obtain ⟨h1, h2, h3, h4, h5⟩ := normalShutdown_of_starting (n := n) (s := post 0x0807#16 n (le32 (getStage s n).startCommits) (advanceTo ((getStage s n).startedAt + 100000000) s))
      (by rw [hpost.loop]; exact hlen) (by rw [getStage_of_loop hpost.loop]; exact hst) 3
    refine ⟨_, ?_, h1, ?_, ?_, h3, h5.trans (congrArg Sys.dev hpost.sys), rfl⟩
    · show execStartTimeout n s = _
      simp [execStartTimeout, hst]
    · rw [h4, hpost.time]; rfl
    · rw [h2, h4]
  case ended =>
    intro hst he hc hw hsc
    have hoff : (getStage s n).st ≠ .off := by rw [hst]; decide
    obtain ⟨h1, h2, h3, h4, htime, hsys, hrel⟩ := stageOver_of_live (s := advanceTo ((getStage s n).lastOff + 10000) s) hlen hoff 0
    have hfin : finishStateChange (settleIdle (stageOver n 0 (advanceTo ((getStage s n).lastOff + 10000) s)))
        = stageOver n 0 (advanceTo ((getStage s n).lastOff + 10000) s) := by
      rw [settleIdle_of_none_waiting (by rw [hrel]; exact hw), finishStateChange_of_no_change (by rw [hsys]; exact hsc)]
    refine ⟨_, (stageShutdownEnd_of_over hst he hc).trans (congrArg _ hfin), h1, h2, h3, ?_, h4, congrArg Sys.dev hsys⟩
    rw [htime]; rfl

end Sys2Proof.Proofs

namespace Sys2Proof.Proofs

open Sys2Proof Sys2Proof.Machine Sys2Proof.Claims Sys2Proof.Laws

/-! ### Bytes and words of a memory -/

theorem le16_length (v : U16) : (le16 v).length = 2 := rfl
theorem le32_length (v : U32) : (le32 v).length = 4 := rfl
theorem le64_length (v : U64) : (le64 v).length = 8 := rfl

theorem u16At_le16 (v : U16) : u16At (le16 v) 0 = v := by
  show v.extractLsb' 8 8 ++ v.extractLsb' 0 8 = v
  apply BitVec.eq_of_getLsbD_eq
  intro j hj
  rw [get16, BitVec.getLsbD_extractLsb', BitVec.getLsbD_extractLsb']
  split
  · next h => simp [h]
  · next h => simp [show j - 8 < 8 by omega, show 8 + (j - 8) = j by omega]

theorem u32At_le32 (v : U32) : u32At (le32 v) 0 = v := by
  show u16At (le16 (v.extractLsb' 16 16)) 0 ++ u16At (le16 (v.extractLsb' 0 16)) 0 = v
  rw [u16At_le16, u16At_le16]
  apply BitVec.eq_of_getLsbD_eq
  intro j hj
  rw [get32, BitVec.getLsbD_extractLsb', BitVec.getLsbD_extractLsb']
  split
  · next h => simp [h]
  · next h => simp [show j - 16 < 16 by omega, show 16 + (j - 16) = j by omega]

theorem u64At_le64 (v : U64) : u64At (le64 v) 0 = v := by
  show u32At (le32 (v.extractLsb' 32 32)) 0 ++ u32At (le32 (v.extractLsb' 0 32)) 0 = v
  rw [u32At_le32, u32At_le32]
  apply BitVec.eq_of_getLsbD_eq
  intro j hj
  rw [get64, BitVec.getLsbD_extractLsb', BitVec.getLsbD_extractLsb']
  split
  · next h => simp [h]
  · next h => simp [show j - 32 < 32 by omega, show 32 + (j - 32) = j by omega]

theorem memReadBytes_length (m : List Host.Cell) (a n : Nat) : (memReadBytes m a n).length = n := by simp [memReadBytes]
theorem memReadBytes_getD (m : List Host.Cell) (a : Nat) {n i : Nat} (h : i < n) : (memReadBytes m a n).getD i 0 = memRead m (a + i) := by
  simp [memReadBytes, List.getD, h]

/-- Bytes that a memory holds from an address on are read from there. -/
theorem memReadBytes_eq {m : List Host.Cell} {a : Nat} {b : Bytes} (h : ∀ i < b.length, memRead m (a + i) = b.getD i 0) : memReadBytes m a b.length = b := by
  apply List.ext_getElem (memReadBytes_length ..)
  intro i hi hb
  have := memReadBytes_getD m a hb
  rw [h i hb] at this
  simpa [List.getD, hi, hb] using this

theorem memReadBytes_memWriteBytes {m : List Host.Cell} (h : memWf m = true) (a : Nat) (b : Bytes) : memReadBytes (memWriteBytes m a b) a b.length = b :=
  memReadBytes_eq fun i hi => by rw [memRead_memWriteBytes b m a _ h, if_pos (by omega), Nat.add_sub_cancel_left]

theorem memRead_memWriteBytes_outside {m : List Host.Cell} (h : memWf m = true) {a : Nat} {b : Bytes} {c : Nat} (hc : c < a ∨ a + b.length ≤ c) :
    memRead (memWriteBytes m a b) c = memRead m c := by
  rw [memRead_memWriteBytes b m a c h, if_neg (by omega)]

/-! ### O56: repair log writes (R536) -/

/-- A word of the OTP that is programmed. -/
theorem otpSet_spec {w : Nat} {v : U64} {s : State} (h : memWf s.rel.otp = true) :
    otpOutside s (otpSet w v s) (8 * w) 8 ∧ otpWord (otpSet w v s) w = otpWord s w ||| v := by
  refine ⟨⟨fusesIn_writeBytes h fun i hi => ?_, fun b hb => memRead_memWriteBytes_outside h hb⟩, ?_⟩
  · rw [le64_length] at hi
    exact word_byte s.rel.otp (8 * w) v i hi
  · exact (congrArg (u64At · 0) (memReadBytes_memWriteBytes h (8 * w) (le64 (otpWord s w ||| v)))).trans (u64At_le64 _)

theorem otpOutside_of_otp {s t s' t' : State} {a n : Nat} (h : otpOutside s t a n) (hs : s'.rel.otp = s.rel.otp) (ht : t'.rel.otp = t.rel.otp) :
    otpOutside s' t' a n := by
  unfold otpOutside FusesKept at *
  rw [hs, ht]
  exact h

theorem otpWord_of_otp {s t : State} (h : t.rel.otp = s.rel.otp) (w : Nat) : otpWord t w = otpWord s w := by
  rw [otpWord, otpWord, h]

/-- An entry is in its place; a full log is reported once (R539). -/
def programmed (s : State) : State :=
  if logUsed s ≥ 64 ∧ !s.rel.logFull then post 0x0F03#16 0 [] (updRel (fun x => { x with logFull := true }) s) else s

theorem programmed_log (s : State) : ∃ b, LogOnly { s with rel := { s.rel with logFull := b } } (programmed s) := by
  unfold programmed
  split
  · exact ⟨true, post_log ..⟩
  · exact ⟨s.rel.logFull, LogOnly.refl s⟩

theorem repairLogWriteDone_of_queued {s : State} {e : U64} {l : List U64} (hq : s.rel.logWrites = e :: l) (h : memWf s.rel.otp = true) :
    ∃ t, exec .repairLogWriteDone s = .next t ∧ LogOnly { s with rel := t.rel } t ∧ t.rel.logWrites = l
      ∧ otpOutside s t (8 * (896 + logUsed s)) 8 ∧ otpWord t (896 + logUsed s) = otpWord s (896 + logUsed s) ||| e := by
  obtain ⟨hout, hword⟩ := otpSet_spec (w := 896 + logUsed s) (v := e) (s := updRel (fun x => { x with logWrites := l }) s) h
  have hexec : exec .repairLogWriteDone s = .next (programmed (otpSet (896 + logUsed s) e (updRel (fun x => { x with logWrites := l }) s))) := by
    show execRepairLogWriteDone s = _
    unfold execRepairLogWriteDone
    rw [hq]
    rfl
  obtain ⟨o, ho⟩ : ∃ o, otpSet (896 + logUsed s) e (updRel (fun x => { x with logWrites := l }) s) = { s with rel := { s.rel with logWrites := l, otp := o } } :=
    ⟨_, rfl⟩
  rw [ho] at hout hword hexec
  obtain ⟨b, hlog⟩ := programmed_log { s with rel := { s.rel with logWrites := l, otp := o } }
  have hrel : (programmed { s with rel := { s.rel with logWrites := l, otp := o } }).rel = { s.rel with logWrites := l, otp := o, logFull := b } := hlog.rel
  refine ⟨_, hexec, by rw [hrel]; exact hlog, by rw [hrel], otpOutside_of_otp hout rfl (by rw [hrel]), ?_⟩
  rw [otpWord_of_otp (s := { s with rel := { s.rel with logWrites := l, otp := o } }) (by rw [hrel]), hword,
    otpWord_of_otp (s := s) (t := updRel (fun x => { x with logWrites := l }) s) rfl]


/-! ### O56: rows (R531, R532, R535) -/

theorem postRetired_log (k : Nat) (d : Bytes) (s : State) : ∃ un, LogOnly { s with rel := { s.rel with unposted := un } } (postRetired k d s) := by
  unfold postRetired
  split
  · exact ⟨s.rel.unposted, post_log ..⟩
  · exact ⟨_, LogOnly.refl _⟩

/-- A retirement that is carried out: it leaves the list, and its entry is queued or stays volatile (R535, R537). -/
theorem finishRetire_spec (r : Retirement) (sp : Option Nat) (s : State) : ∃ un,
    LogOnly { s with rel := { s.rel with
        waiting := s.rel.waiting.erase r
        logWrites := if !logLive s || logFree s then s.rel.logWrites ++ [logEntry r (sp.getD 0xFF) r.reason] else s.rel.logWrites
        volatiles := if !logLive s || logFree s then s.rel.volatiles else s.rel.volatiles ++ [logEntry r (sp.getD 0xFF) r.reason]
        unposted := un } } (finishRetire r sp s) := by
  obtain ⟨un, h⟩ := postRetired_log r.cls _ _
  exact ⟨un, h⟩

/-- A row that is remapped, or retired without a spare while no engine goes with it. -/
theorem remapRow_eq {r : Retirement} {s : State} (h : (freeRow s r.index).isSome ∨ 18 ≤ r.index) :
    remapRow r s = finishRetire r (freeRow s r.index) { s with rel := { s.rel with rows := s.rel.rows ++ [(r.index, r.row, freeRow s r.index)] } } := by
  unfold remapRow
  extract_lets k r1 s1
  split
  · next hk =>
    have hge : 18 ≤ r.index := h.resolve_left (by rw [Option.isNone_iff_eq_none] at hk; simp [k] at hk; simp [hk])
    rw [rowGone, if_neg (by omega)]
  · rfl

theorem rowRemap_of_next {r : Retirement} {s : State} (hr : nextRetire s 0 = some r) (h : (freeRow s r.index).isSome ∨ 18 ≤ r.index) :
    ∃ t un, exec .rowRemap s = .next t ∧ LogOnly { s with rel := { s.rel with
        rows := s.rel.rows ++ [(r.index, r.row, freeRow s r.index)]
        waiting := s.rel.waiting.erase r
        logWrites := if !logLive s || logFree s then s.rel.logWrites ++ [logEntry r ((freeRow s r.index).getD 0xFF) r.reason] else s.rel.logWrites
        volatiles := if !logLive s || logFree s then s.rel.volatiles else s.rel.volatiles ++ [logEntry r ((freeRow s r.index).getD 0xFF) r.reason]
        unposted := un } } t := by
  obtain ⟨un, hlog⟩ := finishRetire_spec r (freeRow s r.index) { s with rel := { s.rel with rows := s.rel.rows ++ [(r.index, r.row, freeRow s r.index)] } }
  refine ⟨_, un, ?_, hlog⟩
  show execRowRemap s = _
  unfold execRowRemap
  rw [hr]
  exact congrArg _ (remapRow_eq h)

theorem logEntry_of_row {r : Retirement} {k : Nat} (hc : r.cls = 0) (hi : r.index < 108) (hrow : r.row < 512) (hk : k < 4) (hre : r.reason < 7) :
    logEntry r k r.reason = BitVec.ofNat 64 (r.index * 2 ^ 52 + r.row * 2 ^ 40 + k * 2 ^ 32 + r.reason * 2 ^ 24 + 0xA5) := by
  unfold logEntry
  rw [hc, Nat.mod_eq_of_lt (show r.index < 256 by omega), Nat.mod_eq_of_lt (show r.row < 4096 by omega), Nat.mod_eq_of_lt (show k < 256 by omega),
    Nat.mod_eq_of_lt (show r.reason < 256 by omega), Nat.zero_mul, Nat.zero_add]

/-! #### Rows of Sage memory -/

theorem sagePost_log (merge : Bool) (c : U16) (d : Bytes) (s : State) : LogOnly s (sagePost merge c d s) := by
  unfold sagePost
  split
  · exact LogOnly.refl s
  · split
    · exact postMerge_log ..
    · exact post_log ..

/-- The place of the Sage block's record that is free next (R521). -/
def sageRecord (s : State) : Option Nat := (List.range 16).find? (fun i => n32At (memReadBytes s.rel.otp (sageBlockAt + 0x3C0 + 4 * i) 4) 0 = 0)
/-- The word that records a remapped row of Sage memory. -/
def sageRowWord (m row k : Nat) : Nat := 0x5A * 2 ^ 24 + (m - 108) * 2 ^ 22 + row * 2 ^ 13 + k * 2 ^ 11

/-- The record is programmed where a spare and a place are free. -/
def sageRecorded (m row : Nat) (k place : Option Nat) (s : State) : State :=
  match k, place with
  | some k, some i => otpProgram (sageBlockAt + 0x3C0 + 4 * i) (n32 (sageRowWord m row k)) s
  | _, _ => s

theorem sageRecorded_eq (m row : Nat) (k place : Option Nat) (rows : List (Nat × Nat × Option Nat)) (s : State) :
    sageRecorded m row k place { s with rel := { s.rel with rows := rows } }
      = { s with rel := { s.rel with rows := rows, otp := (sageRecorded m row k place s).rel.otp } } := by
  cases k with
  | none => rfl
  | some k =>
    cases place with
    | none => rfl
    | some i => rfl

theorem retireSageRow_eq {m row : Nat} {s : State} (h : ∀ x ∈ s.rel.rows, x.1 ≠ m ∨ x.2.1 ≠ row) (reason : Nat) : ∃ d,
    retireSageRow m row reason s
      = sagePost false 0x0F02#16 d (sageRecorded m row (freeRow s m) (sageRecord s) { s with rel := { s.rel with rows := s.rel.rows ++ [(m, row, freeRow s m)] } }) := by
  have hany : ¬ (s.rel.rows.any (fun r => decide (r.1 = m) && decide (r.2.1 = row))) = true := by
    intro ht
    obtain ⟨x, hx, hp⟩ := List.any_eq_true.mp ht
    simp only [Bool.and_eq_true, decide_eq_true_eq] at hp
    exact (h x hx).elim (· hp.1) (· hp.2)
  unfold retireSageRow
  rw [if_neg hany]
  cases hk : freeRow s m with
  | none => exact ⟨_, rfl⟩
  | some k =>
    cases hi : sageRecord s with
    | none =>
      unfold sageRecord at hi
      rw [hi]
      exact ⟨_, rfl⟩
    | some i =>
      unfold sageRecord at hi
      rw [hi]
      exact ⟨_, rfl⟩

/-- A row of Sage memory that was not retired is, with its lowest free spare, and where a place is free a record of it is programmed. -/
theorem retireSageRow_spec {m row : Nat} {s : State} (h : ∀ x ∈ s.rel.rows, x.1 ≠ m ∨ x.2.1 ≠ row) (reason : Nat) :
    LogOnly { s with rel := { s.rel with rows := s.rel.rows ++ [(m, row, freeRow s m)], otp := (sageRecorded m row (freeRow s m) (sageRecord s) s).rel.otp } }
      (retireSageRow m row reason s) := by
  obtain ⟨d, hd⟩ := retireSageRow_eq h reason
  rw [hd, ← sageRecorded_eq m row (freeRow s m) (sageRecord s)]
  exact sagePost_log ..

/-! #### What the record programs -/

theorem append_eq_zero {m n : Nat} {x : BitVec m} {y : BitVec n} (h : x ++ y = 0) : x = 0 ∧ y = 0 := by
  have hbit : ∀ i, (x ++ y).getLsbD i = false := fun i => by rw [h]; simp
  constructor
  · apply BitVec.eq_of_getLsbD_eq
    intro i hi
    simpa [BitVec.getLsbD_append] using hbit (n + i)
  · apply BitVec.eq_of_getLsbD_eq
    intro i hi
    simpa [BitVec.getLsbD_append, hi] using hbit i

/-- Four bytes that read as the number 0 are 0. -/
theorem memRead_of_n32At_zero {m : List Host.Cell} {a : Nat} (h : n32At (memReadBytes m a 4) 0 = 0) {i : Nat} (hi : i < 4) : memRead m (a + i) = 0 := by
  have hz : u32At (memReadBytes m a 4) 0 = 0 := BitVec.eq_of_toNat_eq (by simpa [n32At] using h)
  obtain ⟨hhigh, hlow⟩ := append_eq_zero hz
  obtain ⟨h3, h2⟩ := append_eq_zero hhigh
  obtain ⟨h1, h0⟩ := append_eq_zero hlow
  obtain rfl | rfl | rfl | rfl : i = 0 ∨ i = 1 ∨ i = 2 ∨ i = 3 := by omega
  · exact h0
  · exact h1
  · exact h2
  · exact h3

/-- Bytes programmed where the fuses are clear are read back, and nothing else changes. -/
theorem otpProgram_of_clear {a : Nat} {b : Bytes} {s : State} (hwf : memWf s.rel.otp = true) (hz : ∀ i < b.length, memRead s.rel.otp (a + i) = 0) :
    otpOutside s (otpProgram a b s) a b.length ∧ memReadBytes (otpProgram a b s).rel.otp a b.length = b := by
  have hb : (b.zipIdx).map (fun p => p.1 ||| memRead s.rel.otp (a + p.2)) = b := by
    apply List.ext_getElem (by simp)
    intro i hi hi'
    simp [hz i hi']
  have hotp : (otpProgram a b s).rel.otp = memWriteBytes s.rel.otp a b := congrArg (memWriteBytes s.rel.otp a) hb
  refine ⟨⟨fun c => ?_, fun c hc => by rw [hotp]; exact memRead_memWriteBytes_outside hwf hc⟩, by rw [hotp]; exact memReadBytes_memWriteBytes hwf a b⟩
  rw [hotp]
  exact fusesIn_writeBytes hwf (fun i hi => by rw [hz i hi]; simp) c

theorem sageRecord_eq_some {s : State} {i : Nat} (hi : i < 16) (hz : n32At (memReadBytes s.rel.otp (8896 + 4 * i) 4) 0 = 0)
    (hno : ∀ j < i, n32At (memReadBytes s.rel.otp (8896 + 4 * j) 4) 0 ≠ 0) : sageRecord s = some i := by
  unfold sageRecord
  have hbase : sageBlockAt + 0x3C0 = 8896 := by decide
  rw [hbase, List.find?_range_eq_some]
  refine ⟨by simpa using hz, by simpa using hi, fun j hj => by simpa using hno j hj⟩

theorem n32At_n32 {v : Nat} (h : v < 2 ^ 32) : n32At (n32 v) 0 = v := by
  rw [n32At, n32, u32At_le32, BitVec.toNat_ofNat, Nat.mod_eq_of_lt h]

/-- The record of a remapped row of Sage memory (R521). -/
theorem sageRecorded_otp {m row k i : Nat} {s : State} (hk : k < 4) (hm : m < 112) (hrow : row < 512) (hwf : memWf s.rel.otp = true)
    (hz : n32At (memReadBytes s.rel.otp (8896 + 4 * i) 4) 0 = 0) :
    let t := sageRecorded m row (some k) (some i) s
    otpOutside s t (8896 + 4 * i) 4 ∧ n32At (memReadBytes t.rel.otp (8896 + 4 * i) 4) 0 = sageRowWord m row k := by
  have hbase : sageBlockAt + 0x3C0 = 8896 := by decide
  have hword : sageRowWord m row k < 2 ^ 32 := by unfold sageRowWord; omega
  obtain ⟨hout, hread⟩ := otpProgram_of_clear (a := 8896 + 4 * i) (b := n32 (sageRowWord m row k)) hwf (fun j hj => memRead_of_n32At_zero hz hj)
  intro t
  have ht : t = otpProgram (8896 + 4 * i) (n32 (sageRowWord m row k)) s := by simp only [t, sageRecorded, hbase]
  rw [ht]
  have hread4 : memReadBytes (otpProgram (8896 + 4 * i) (n32 (sageRowWord m row k)) s).rel.otp (8896 + 4 * i) 4 = n32 (sageRowWord m row k) := hread
  exact ⟨hout, by rw [hread4]; exact n32At_n32 hword⟩


/-! #### Words of Sage memory (R521, R530, R531) -/

theorem scrubRead_of_sage {m : Nat} (hm : 108 ≤ m) (w bits : Nat) (use : WordUse) (scrub : Bool) (s : State) :
    exec (.scrubRead m w bits use scrub) s = .next (sageWordBad m w bits use s) := by
  show execScrubRead m w bits use scrub s = _
  unfold execScrubRead
  extract_lets row s1
  exact if_pos hm

theorem sageWordBad_of_idle {m w bits : Nat} {use : WordUse} {s : State} (h : bits = 0 ∨ s.sage.phase = .inReset) : sageWordBad m w bits use s = s := by
  unfold sageWordBad
  extract_lets row
  exact if_pos h

/-- An uncorrectable word of Sage memory that is no copy of an accumulator is a matter of its row alone. -/
theorem eccReaction_of_sage {m : Nat} (hm : 108 ≤ m) (w : Nat) {use : WordUse} (hu : ∀ c i, use ≠ .sageCopy c i) (s : State) : eccReaction m w use s = s := by
  unfold eccReaction
  rw [if_neg (by omega), if_neg (by omega), if_neg (by omega), if_neg (by omega), if_neg (by omega), if_neg (by omega)]
  cases use with
  | sageCopy c i => exact absurd rfl (hu c i)
  | _ => rfl

/-- A row of Sage memory that is not retired, and has come to be, is retired by the Sage core. -/
theorem scrubRead_retires_sageRow {m w bits : Nat} {use : WordUse} {s : State} (hm : 108 ≤ m) (hon : s.sage.phase ≠ .inReset)
    (hb : bits = 2 ∨ bits = 1 ∧ rowAgain s m (w / 16) = true ∨ 3 ≤ bits ∧ ∀ c i, use ≠ .sageCopy c i) (scrub : Bool) :
    ∃ seen reason, exec (.scrubRead m w bits use scrub) s = .next (retireSageRow m (w / 16) reason { s with rel := { s.rel with rowSeen := seen } }) := by
  have hnot : ∀ b, b ≠ 0 → ¬ (b = 0 ∨ s.sage.phase = .inReset) := fun b hb h => h.elim hb hon
  rw [scrubRead_of_sage hm]
  unfold sageWordBad
  extract_lets row
  rcases hb with rfl | ⟨rfl, hagain⟩ | ⟨h3, hu⟩
  · rw [if_neg (hnot 2 (by decide)), if_neg (by decide), if_pos rfl]
    exact ⟨_, 1, rfl⟩
  · rw [if_neg (hnot 1 (by decide)), if_neg (by decide), if_neg (by decide), if_pos hagain]
    exact ⟨_, 0, rfl⟩
  · rw [if_neg (hnot bits (by omega)), if_pos (by omega), eccReaction_of_sage hm w hu]
    exact ⟨s.rel.rowSeen, 2, rfl⟩

theorem scrubRead_sageRow {m w bits : Nat} {use : WordUse} {s : State} (hm : 108 ≤ m) (hon : s.sage.phase ≠ .inReset)
    (hrows : ∀ x ∈ s.rel.rows, x.1 ≠ m ∨ x.2.1 ≠ w / 16)
    (hb : bits = 2 ∨ bits = 1 ∧ rowAgain s m (w / 16) = true ∨ 3 ≤ bits ∧ ∀ c i, use ≠ .sageCopy c i) (scrub : Bool) :
    ∃ t, exec (.scrubRead m w bits use scrub) s = .next t ∧ LogOnly { s with rel := t.rel } t ∧ t.rel.rows = s.rel.rows ++ [(m, w / 16, freeRow s m)]
      ∧ (freeRow s m = none → t.rel.otp = s.rel.otp)
      ∧ (∀ k i, freeRow s m = some k → i < 16 → m < 112 → w < 8192 → memWf s.rel.otp = true → n32At (memReadBytes s.rel.otp (8896 + 4 * i) 4) 0 = 0 →
          (∀ j < i, n32At (memReadBytes s.rel.otp (8896 + 4 * j) 4) 0 ≠ 0) →
          otpOutside s t (8896 + 4 * i) 4 ∧ n32At (memReadBytes t.rel.otp (8896 + 4 * i) 4) 0 = 0x5A * 2 ^ 24 + (m - 108) * 2 ^ 22 + w / 16 * 2 ^ 13 + k * 2 ^ 11) := by
  obtain ⟨seen, reason, hexec⟩ := scrubRead_retires_sageRow hm hon hb scrub
  have hlog := retireSageRow_spec (s := { s with rel := { s.rel with rowSeen := seen } }) hrows reason
  generalize retireSageRow m (w / 16) reason { s with rel := { s.rel with rowSeen := seen } } = t at hexec hlog
  have hrel : t.rel = { s.rel with
      rowSeen := seen, rows := s.rel.rows ++ [(m, w / 16, freeRow s m)]
      otp := (sageRecorded m (w / 16) (freeRow s m) (sageRecord s) { s with rel := { s.rel with rowSeen := seen } }).rel.otp } := hlog.rel
  have hotp : t.rel.otp = (sageRecorded m (w / 16) (freeRow s m) (sageRecord s) { s with rel := { s.rel with rowSeen := seen } }).rel.otp := by rw [hrel]
  refine ⟨t, hexec, by rw [hrel]; exact hlog, by rw [hrel], fun hk => ?_, fun k i hk hi hm' hw hwf hz hno => ?_⟩
  · rw [hotp, hk]; rfl
  · have hk4 : k < 4 := by
      have := List.mem_of_find?_eq_some hk
      simp only [List.mem_cons, List.not_mem_nil, or_false] at this
      omega
    rw [hk, sageRecord_eq_some hi hz hno] at hotp
    obtain ⟨hout, hword⟩ := sageRecorded_otp (s := { s with rel := { s.rel with rowSeen := seen } }) hk4 hm' (show w / 16 < 512 by omega) hwf hz
    exact ⟨otpOutside_of_otp hout rfl hotp, by rw [hotp]; exact hword⟩

theorem drawBytes_snd (n : Nat) (s : State) : ∃ k, (drawBytes n s).2 = { s with free := k } := by
  induction n generalizing s with
  | zero => exact ⟨s.free, rfl⟩
  | succ n ih =>
    obtain ⟨k, hk⟩ := ih (draw s).2
    exact ⟨k, hk⟩

theorem drawBytes_fst_length (n : Nat) (s : State) : (drawBytes n s).1.length = n := by
  induction n generalizing s with
  | zero => rfl
  | succ n ih => exact congrArg (· + 1) (ih (draw s).2)

theorem retireSageRow_sage (m row reason : Nat) (s : State) : (retireSageRow m row reason s).sage = s.sage := by
  by_cases h : ∀ x ∈ s.rel.rows, x.1 ≠ m ∨ x.2.1 ≠ row
  · exact (retireSageRow_spec h reason).sage
  · have hany : (s.rel.rows.any fun r => decide (r.1 = m) && decide (r.2.1 = row)) = true := by
      push Not at h
      obtain ⟨x, hx, hp⟩ := h
      exact List.any_eq_true.mpr ⟨x, hx, by simp [hp]⟩
    unfold retireSageRow
    rw [if_pos hany]

/-- Two equal copies outvote the third, bit by bit (R531). -/
theorem vote_of_two (x y : BitVec 96) : (y &&& x ||| y &&& x ||| x &&& x = x) ∧ (x &&& y ||| x &&& x ||| y &&& x = x) ∧ (x &&& x ||| x &&& y ||| x &&& y = x) := by
  refine ⟨?_, ?_, ?_⟩ <;>
  · apply BitVec.eq_of_getLsbD_eq
    intro i _
    simp only [BitVec.getLsbD_or, BitVec.getLsbD_and]
    cases x.getLsbD i <;> cases y.getLsbD i <;> rfl

/-- A copy of an accumulator that is lost leaves the accumulators as they are. -/
theorem sageRegs_of_lost_copy {x : Sage} {l : List (BitVec 96)} (hx : x.copies = List.replicate 3 l) (hl : l.length = 10) {c : Nat} (hc : c < 3)
    (f : List (BitVec 96) → List (BitVec 96)) : sageRegs { x with copies := upd x.copies c f } = l := by
  have hvote : ∀ j, sageVote { x with copies := upd x.copies c f } j = l.getD j 0 := by
    intro j
    obtain ⟨h0, h1, h2⟩ := vote_of_two (l.getD j 0) ((f l).getD j 0)
    unfold sageVote
    rw [hx]
    obtain rfl | rfl | rfl : c = 0 ∨ c = 1 ∨ c = 2 := by omega
    · exact h0
    · exact h1
    · exact h2
  apply List.ext_getElem (by simp [sageRegs, hl])
  intro j hj hj'
  simp [sageRegs, hvote, List.getD, hj']

theorem scrubRead_sageCopy {m w c i : Nat} {s : State} {l : List (BitVec 96)} (hm : 108 ≤ m) (hon : s.sage.phase ≠ .inReset) (hc : c < 3)
    (hs : s.sage.copies = List.replicate 3 l) (hl : l.length = 10) (scrub : Bool) :
    ∃ t, exec (.scrubRead m w 3 (.sageCopy c i) scrub) s = .next t ∧ sageRegs t.sage = l := by
  refine ⟨_, scrubRead_of_sage hm .., ?_⟩
  unfold sageWordBad
  extract_lets row
  rw [if_neg (by simp [hon]), if_pos (by decide)]
  unfold eccReaction
  rw [if_neg (by omega), if_neg (by omega), if_neg (by omega), if_neg (by omega), if_neg (by omega), if_neg (by omega)]
  have hu := retireSageRow_sage m row 2 s
  generalize retireSageRow m row 2 s = u at hu
  obtain ⟨k, hk⟩ := drawBytes_snd 12 u
  generalize drawBytes 12 u = d at hk
  obtain ⟨b, s1⟩ := d
  have hs1 : s1.sage = s.sage := (congrArg State.sage hk).trans hu
  show sageRegs { s1.sage with copies := upd s1.sage.copies c (fun l => upd l i (fun _ => BitVec.ofNat 96 (beNat b))) } = l
  rw [hs1]
  exact sageRegs_of_lost_copy hs hl hc _

theorem scrubRead_sage_fresh {m w : Nat} {s : State} (hm : 108 ≤ m) (hon : s.sage.phase ≠ .inReset) (hf : rowAgain s m (w / 16) = false) (use : WordUse) (scrub : Bool) :
    ∃ t, exec (.scrubRead m w 1 use scrub) s = .next t ∧ t = { s with rel := { s.rel with rowSeen := t.rel.rowSeen } } ∧ (512 * m + w / 16, s.time.raw) ∈ t.rel.rowSeen := by
  refine ⟨noteRow m (w / 16) s, ?_, rfl, List.mem_cons_self⟩
  rw [scrubRead_of_sage hm]
  unfold sageWordBad
  extract_lets row
  rw [if_neg (by simp [hon]), if_neg (by decide), if_neg (by decide), if_neg (by rw [hf]; decide)]


/-! ### O56: words of the control die's memories (R529 to R533) -/

/-- A word has been read: by the scrub engine it counts, and a CAN word makes its row known. -/
def wordRead (m w : Nat) (use : WordUse) (scrub : Bool) (s : State) : State := noteUse m (w / 16) use (if scrub then scrubCount m s else s)

theorem wordRead_eq (m w : Nat) (use : WordUse) (scrub : Bool) (s : State) : ∃ n p c,
    wordRead m w use scrub s = { s with rel := { s.rel with scrubReads := n, scrubPasses := p, canRows := c } } := by
  have hcount : ∃ n p, (if scrub then scrubCount m s else s) = { s with rel := { s.rel with scrubReads := n, scrubPasses := p } } := by
    unfold scrubCount
    split
    · split
      · exact ⟨s.rel.scrubReads, s.rel.scrubPasses, rfl⟩
      · split
        · exact ⟨_, _, rfl⟩
        · exact ⟨_, s.rel.scrubPasses, rfl⟩
    · exact ⟨s.rel.scrubReads, s.rel.scrubPasses, rfl⟩
  obtain ⟨n, p, h⟩ := hcount
  unfold wordRead
  rw [h]
  unfold noteUse
  split
  · exact ⟨n, p, _, rfl⟩
  · exact ⟨n, p, _, rfl⟩
  · exact ⟨n, p, s.rel.canRows, rfl⟩

theorem LogOnly.eq {s t : State} (h : LogOnly s t) : ∃ e c, t = { s with evt := e, cap := c } := ⟨_, _, h⟩

section
variable {m : Nat} {s : State} (hm : m < 108)
include hm

theorem scrubRead_of_dead_log (h : logLive s = false) (w bits : Nat) (use : WordUse) (scrub : Bool) : exec (.scrubRead m w bits use scrub) s = .next s := by
  show execScrubRead m w bits use scrub s = _
  unfold execScrubRead
  extract_lets row s1
  rw [if_neg (by omega), if_pos (by simp [h])]

variable (hlive : logLive s = true)
include hlive

theorem scrubRead_clean (w : Nat) (use : WordUse) (scrub : Bool) : exec (.scrubRead m w 0 use scrub) s = .next (wordRead m w use scrub s) := by
  show execScrubRead m w 0 use scrub s = _
  unfold execScrubRead
  extract_lets row s1
  rw [if_neg (by omega), if_neg (by simp [hlive]), if_pos rfl]
  rfl

/-- A word with one or two bits corrected, before its row's fate. -/
def corrected (m w bits : Nat) (use : WordUse) (scrub : Bool) (s : State) : State :=
  noteRow m (w / 16) (postMerge 0x0F00#16 m (n16 (w / 16) ++ n8 (w % 16) ++ n8 bits) (updRel (fun x => { x with corrected := x.corrected + 1 }) (wordRead m w use scrub s)))

omit hm hlive in
theorem corrected_spec (w bits : Nat) (use : WordUse) (scrub : Bool) : ∃ r, LogOnly { s with rel := r } (corrected m w bits use scrub s)
    ∧ (corrected m w bits use scrub s).rel = r ∧ r.corrected = s.rel.corrected + 1 ∧ r.waiting = s.rel.waiting ∧ r.transient = s.rel.transient ∧ r.rows = s.rel.rows
    ∧ (512 * m + w / 16, s.time.raw) ∈ r.rowSeen := by
  obtain ⟨n, p, c, h⟩ := wordRead_eq m w use scrub s
  unfold corrected
  rw [h]
  obtain ⟨e, k, hu⟩ := LogOnly.eq (postMerge_log 0x0F00#16 m (n16 (w / 16) ++ n8 (w % 16) ++ n8 bits)
    (updRel (fun x => { x with corrected := x.corrected + 1 }) { s with rel := { s.rel with scrubReads := n, scrubPasses := p, canRows := c } }))
  rw [hu]
  exact ⟨_, rfl, rfl, rfl, rfl, rfl, rfl, List.mem_cons_self⟩

theorem scrubRead_corrected {bits : Nat} (hb : bits = 1 ∨ bits = 2) (w : Nat) (use : WordUse) (scrub : Bool) :
    exec (.scrubRead m w bits use scrub) s = .next (if bits = 2 then decideRetire { cls := 0, index := m, row := w / 16, reason := 1 } (corrected m w bits use scrub s)
      else if rowAgain s m (w / 16) then decideRetire { cls := 0, index := m, row := w / 16, reason := 0 } (corrected m w bits use scrub s)
      else updRel (fun x => { x with transient := upd x.transient 0 satInc }) (corrected m w bits use scrub s)) := by
  show execScrubRead m w bits use scrub s = _
  unfold execScrubRead
  extract_lets row s1
  rw [if_neg (by omega), if_neg (by simp [hlive]), if_neg (by omega), if_pos (by omega)]
  rfl

/-- One corrected bit in a row without one of late is transient. -/
theorem scrubRead_transient {w : Nat} (hf : rowAgain s m (w / 16) = false) (ht : s.rel.transient.length = 6) (use : WordUse) (scrub : Bool) :
    ∃ t, exec (.scrubRead m w 1 use scrub) s = .next t ∧ LogOnly { s with rel := t.rel } t ∧ t.rel.waiting = s.rel.waiting ∧ t.rel.corrected = s.rel.corrected + 1
      ∧ t.rel.transient.getD 0 0 = satInc (s.rel.transient.getD 0 0) ∧ (512 * m + w / 16, s.time.raw) ∈ t.rel.rowSeen := by
  obtain ⟨r, hlog, hr, hcor, hwait, htrans, -, hseen⟩ := corrected_spec (m := m) (s := s) w 1 use scrub
  obtain ⟨e, k, hu⟩ := LogOnly.eq hlog
  have hexec := scrubRead_corrected hm hlive (.inl rfl) w use scrub
  rw [if_neg (by decide), if_neg (by rw [hf]; decide), hu] at hexec
  refine ⟨_, hexec, by unfold LogOnly; rfl, hwait, hcor, ?_, hseen⟩
  show (upd r.transient 0 satInc).getD 0 0 = _
  rw [getD_upd_same _ _ (by rw [htrans]; omega), htrans]

omit hm hlive in
/-- A row is decided to be retired, unless it is retired or decided already (R533, R534). -/
theorem decideRetire_of_new {x : Retirement} {s : State} (hr : isRetired s x = false) (hw : ∀ y ∈ s.rel.waiting, y.cls ≠ x.cls ∨ y.index ≠ x.index ∨ y.row ≠ x.row) :
    decideRetire x s = { s with rel := { s.rel with waiting := s.rel.waiting ++ [x] } } := by
  unfold decideRetire
  rw [if_neg]
  rintro (h | h)
  · rw [hr] at h; exact absurd h (by decide)
  · obtain ⟨y, hy, hp⟩ := List.any_eq_true.mp h
    simp only [decide_eq_true_eq] at hp
    rcases hw y hy with h | h | h
    · exact h hp.1
    · exact h hp.2.1
    · exact h hp.2.2

omit hm hlive in
theorem isRetired_row_of_rows {s t : State} (h : t.rel.rows = s.rel.rows) (a b c : Nat) :
    isRetired t { cls := 0, index := a, row := b, reason := c } = isRetired s { cls := 0, index := a, row := b, reason := c } := by
  simp only [isRetired, h]

/-- Two corrected bits, or one in a row that had one of late, decide the row's retirement. -/
theorem scrubRead_permanent {w bits : Nat} {x : Retirement} (hb : bits = 1 ∧ rowAgain s m (w / 16) = true ∨ bits = 2)
    (hx : x = { cls := 0, index := m, row := w / 16, reason := bits - 1 }) (hr : isRetired s x = false)
    (hw : ∀ y ∈ s.rel.waiting, y.cls ≠ 0 ∨ y.index ≠ m ∨ y.row ≠ w / 16) (use : WordUse) (scrub : Bool) :
    ∃ t, exec (.scrubRead m w bits use scrub) s = .next t ∧ LogOnly { s with rel := t.rel } t ∧ t.rel.waiting = s.rel.waiting ++ [x]
      ∧ t.rel.corrected = s.rel.corrected + 1 ∧ t.rel.transient = s.rel.transient := by
  obtain ⟨r, hlog, hrel, hcor, hwait, htrans, hrows, -⟩ := corrected_spec (m := m) (s := s) w bits use scrub
  subst hx
  have hexec : exec (.scrubRead m w bits use scrub) s = .next (decideRetire { cls := 0, index := m, row := w / 16, reason := bits - 1 } (corrected m w bits use scrub s)) := by
    rw [scrubRead_corrected hm hlive (hb.imp (·.1) id)]
    rcases hb with ⟨rfl, ha⟩ | rfl
    · rw [if_neg (by decide), if_pos ha]
    · rw [if_pos rfl]
  obtain ⟨e, k, hu⟩ := LogOnly.eq hlog
  rw [decideRetire_of_new ((isRetired_row_of_rows (s := s) (by rw [hrel, hrows]) ..).trans hr) (by rw [hrel, hwait]; exact hw)] at hexec
  rw [hu] at hexec
  exact ⟨_, hexec, by unfold LogOnly; rfl, congrArg (· ++ _) hwait, hcor, htrans⟩

omit hm hlive in
theorem capEvent_of_deaf {s : State} (h : capListens s = false) (c : U16) (n : Nat) (d : Bytes) : capEvent c n d s = s := by
  simp [capEvent, h]

omit hm hlive in
theorem logEvent_eq (c : U16) (n : Nat) (d : Bytes) (s : State) : ∃ e, logEvent c n d s = { s with evt := e } := by
  unfold logEvent
  split
  · exact ⟨s.evt, rfl⟩
  · split
    · exact ⟨_, rfl⟩
    · exact ⟨_, rfl⟩

omit hm hlive in
/-- An event that no capture listens to changes the log alone. -/
theorem post_of_deaf {s : State} (h : capListens s = false) (c : U16) (n : Nat) (d : Bytes) : ∃ e, post c n d s = { s with evt := e } := by
  obtain ⟨e, he⟩ := logEvent_eq c n d s
  exact ⟨e, by unfold post; rw [he, capEvent_of_deaf (by exact h)]⟩

/-- A word with more bits wrong, before the reaction: it is counted and posted, and its row's retirement is decided. -/
def spoilt (m w : Nat) (use : WordUse) (scrub : Bool) (s : State) : State :=
  decideRetire { cls := 0, index := m, row := w / 16, reason := 2 }
    (post 0x0F01#16 m (n16 w ++ n8 ((eccStage s m w use).getD 0xFF)) (updRel (fun x => { x with uncorrectable := x.uncorrectable + 1 }) (wordRead m w use scrub s)))

theorem scrubRead_spoilt (w : Nat) (use : WordUse) (scrub : Bool) :
    exec (.scrubRead m w 3 use scrub) s = .next (eccReaction m w use (spoilt m w use scrub s)) := by
  show execScrubRead m w 3 use scrub s = _
  unfold execScrubRead
  extract_lets row s1
  rw [if_neg (by omega), if_neg (by simp [hlive]), if_neg (by decide), if_neg (by decide)]
  rfl

omit hm hlive in
theorem decideRetire_eq (x : Retirement) (s : State) : ∃ l, decideRetire x s = { s with rel := { s.rel with waiting := l } }
    ∧ (isRetired s x = false → ∃ y ∈ l, y.cls = x.cls ∧ y.index = x.index ∧ y.row = x.row) := by
  unfold decideRetire
  split
  · next h =>
    refine ⟨s.rel.waiting, rfl, fun hr => ?_⟩
    obtain ⟨y, hy, hp⟩ := List.any_eq_true.mp (h.resolve_left (by rw [hr]; decide))
    exact ⟨y, hy, by simpa using hp⟩
  · exact ⟨_, rfl, fun _ => ⟨x, by simp, rfl, rfl, rfl⟩⟩

omit hm hlive in
/-- It changes the retirements and the log, and no capture that does not listen. -/
theorem spoilt_spec (w : Nat) (use : WordUse) (scrub : Bool) : ∃ r e c, spoilt m w use scrub s = { s with rel := r, evt := e, cap := c }
    ∧ r.uncorrectable = s.rel.uncorrectable + 1 ∧ (capListens s = false → c = s.cap)
    ∧ (isRetired s { cls := 0, index := m, row := w / 16, reason := 2 } = false → ∃ y ∈ r.waiting, y.cls = 0 ∧ y.index = m ∧ y.row = w / 16) := by
  obtain ⟨n, p, k, hw⟩ := wordRead_eq m w use scrub s
  unfold spoilt
  rw [hw]
  have hpost : ∃ e c, post 0x0F01#16 m (n16 w ++ n8 ((eccStage s m w use).getD 0xFF))
      (updRel (fun x => { x with uncorrectable := x.uncorrectable + 1 }) { s with rel := { s.rel with scrubReads := n, scrubPasses := p, canRows := k } })
      = { s with rel := { s.rel with scrubReads := n, scrubPasses := p, canRows := k, uncorrectable := s.rel.uncorrectable + 1 }, evt := e, cap := c }
      ∧ (capListens s = false → c = s.cap) := by
    by_cases hd : capListens s = false
    · obtain ⟨e, he⟩ := post_of_deaf (s := updRel (fun x => { x with uncorrectable := x.uncorrectable + 1 })
        { s with rel := { s.rel with scrubReads := n, scrubPasses := p, canRows := k } }) (by exact hd) 0x0F01#16 m (n16 w ++ n8 ((eccStage s m w use).getD 0xFF))
      exact ⟨e, s.cap, he, fun _ => rfl⟩
    · obtain ⟨e, c, he⟩ := LogOnly.eq (post_log 0x0F01#16 m (n16 w ++ n8 ((eccStage s m w use).getD 0xFF)) (updRel (fun x => { x with uncorrectable := x.uncorrectable + 1 })
        { s with rel := { s.rel with scrubReads := n, scrubPasses := p, canRows := k } }))
      exact ⟨e, c, he, fun h => absurd h hd⟩
  obtain ⟨e, c, he, hc⟩ := hpost
  rw [he]
  obtain ⟨l, hl, hy⟩ := decideRetire_eq { cls := 0, index := m, row := w / 16, reason := 2 }
    { s with rel := { s.rel with scrubReads := n, scrubPasses := p, canRows := k, uncorrectable := s.rel.uncorrectable + 1 }, evt := e, cap := c }
  rw [hl]
  exact ⟨_, _, _, rfl, rfl, hc, fun hr => hy ((isRetired_row_of_rows (s := s) rfl ..).trans hr)⟩

end


/-! ### O56: a word without errors (R530) -/

/-- The scrub engine has read a word. -/
def scrubbed (m : Nat) (scrub : Bool) (s : State) : State := if scrub = true then scrubCount m s else s

theorem wordRead_of_plain {use : WordUse} (h : ∀ p e, use ≠ .canTx p e ∧ use ≠ .canRx p e) (m w : Nat) (scrub : Bool) (s : State) :
    wordRead m w use scrub s = scrubbed m scrub s := by
  unfold wordRead noteUse
  split
  · next p e => exact absurd rfl (h p e).1
  · next p e => exact absurd rfl (h p e).2
  · rfl

theorem scrubCount_of_last {m : Nat} {s : State} (hm : m < 108) (h : s.rel.scrubReads + 1 = 108 * 8192) :
    scrubCount m s = { s with rel := { s.rel with scrubReads := 0, scrubPasses := s.rel.scrubPasses + 1 } } := by
  unfold scrubCount
  rw [if_neg (by omega), if_pos (by omega)]
  rfl

theorem scrubCount_of_inner {m : Nat} {s : State} (hm : m < 108) (h : s.rel.scrubReads + 1 < 108 * 8192) :
    scrubCount m s = { s with rel := { s.rel with scrubReads := s.rel.scrubReads + 1 } } := by
  unfold scrubCount
  rw [if_neg (by omega), if_neg (by omega)]
  rfl

theorem scrubbed_of_inner {m : Nat} {s : State} (hm : m < 108) (h : s.rel.scrubReads + 1 < 108 * 8192) (scrub : Bool) :
    scrubbed m scrub s = if scrub = true then { s with rel := { s.rel with scrubReads := s.rel.scrubReads + 1 } } else s := by
  unfold scrubbed
  rw [scrubCount_of_inner hm h]

/-- A CAN word makes its row one of its port. -/
theorem wordRead_of_can {use : WordUse} {p e : Nat} (h : use = .canTx p e ∨ use = .canRx p e) {m : Nat} {s : State} (hm : m < 108)
    (hr : s.rel.scrubReads + 1 < 108 * 8192) (w : Nat) (scrub : Bool) : ∃ n l,
    wordRead m w use scrub s = { s with rel := { s.rel with scrubReads := n, canRows := l } } ∧ (512 * m + w / 16, p) ∈ l := by
  have hrows : ∀ l : List (Nat × Nat), (512 * m + w / 16, p) ∈ if l.contains (512 * m + w / 16, p) then l else l ++ [(512 * m + w / 16, p)] := fun l => by
    split
    · next hc => exact List.contains_iff_mem.mp hc
    · simp
  have hnote : ∀ u, noteUse m (w / 16) use u = { u with rel := { u.rel with
      canRows := if u.rel.canRows.contains (512 * m + w / 16, p) then u.rel.canRows else u.rel.canRows ++ [(512 * m + w / 16, p)] } } := fun u => by
    rcases h with rfl | rfl
    · rfl
    · rfl
  show ∃ n l, noteUse m (w / 16) use (scrubbed m scrub s) = _ ∧ _
  rw [scrubbed_of_inner hm hr, hnote]
  split
  · exact ⟨_, _, rfl, hrows _⟩
  · exact ⟨s.rel.scrubReads, _, rfl, hrows _⟩

section
variable {m : Nat} {s : State} (hm : m < 108) (hlive : logLive s = true)
include hm hlive

/-- The last word of a pass counts the pass. -/
theorem scrubRead_clean_last (h : s.rel.scrubReads + 1 = 108 * 8192) {use : WordUse} (hu : ∀ p e, use ≠ .canTx p e ∧ use ≠ .canRx p e) (w : Nat) :
    exec (.scrubRead m w 0 use true) s = .next { s with rel := { s.rel with scrubReads := 0, scrubPasses := s.rel.scrubPasses + 1 } } := by
  rw [scrubRead_clean hm hlive, wordRead_of_plain hu]
  exact congrArg _ (scrubCount_of_last hm h)

theorem scrubRead_clean_inner (h : s.rel.scrubReads + 1 < 108 * 8192) {use : WordUse} (hu : ∀ p e, use ≠ .canTx p e ∧ use ≠ .canRx p e) (w : Nat) (scrub : Bool) :
    exec (.scrubRead m w 0 use scrub) s = .next (if scrub = true then { s with rel := { s.rel with scrubReads := s.rel.scrubReads + 1 } } else s) := by
  rw [scrubRead_clean hm hlive, wordRead_of_plain hu, scrubbed_of_inner hm h]

theorem scrubRead_clean_can (h : s.rel.scrubReads + 1 < 108 * 8192) {use : WordUse} {p e : Nat} (hu : use = .canTx p e ∨ use = .canRx p e) (w : Nat) (scrub : Bool) :
    ∃ t, exec (.scrubRead m w 0 use scrub) s = .next t ∧ t = { s with rel := { s.rel with scrubReads := t.rel.scrubReads, canRows := t.rel.canRows } }
      ∧ (512 * m + w / 16, p) ∈ t.rel.canRows := by
  obtain ⟨n, l, ht, hmem⟩ := wordRead_of_can hu hm h w scrub
  rw [scrubRead_clean hm hlive, ht]
  exact ⟨_, rfl, rfl, hmem⟩

end


/-! ### O56: what a spoilt word does (R532) -/

section
variable {m w : Nat} {use : WordUse} {s : State}

theorem eccReaction_of_engine (hm : m < 18) (h : (getEngine s m).stage = none) : eccReaction m w use s = s := by
  unfold eccReaction
  rw [if_pos hm, h]

theorem eccReaction_of_image {n : Nat} (h18 : 18 ≤ m) (hm : m < 33) (hi : imageAt s ((m - 18) * 65536 + 8 * w) = some n) :
    eccReaction m w use s = unloadGraph n (forcedShutdown n s) := by
  unfold eccReaction
  rw [if_neg (by omega), if_pos hm]
  extract_lets a
  rw [show imageAt s a = some n from hi]

theorem eccReaction_of_graph (h18 : 18 ≤ m) (hm : m < 33) (hi : imageAt s ((m - 18) * 65536 + 8 * w) = none) :
    eccReaction m w use s = { s with loop := { s.loop with mem := memClear s.loop.mem ((m - 18) * 65536 + 8 * w) 8 } } := by
  unfold eccReaction
  rw [if_neg (by omega), if_pos hm]
  extract_lets a
  rw [show imageAt s a = none from hi]

theorem eccReaction_of_filter : eccReaction 33 w .none s = { s with flt := { s.flt with mem := memClear s.flt.mem (8 * w) 8 } } := rfl

theorem eccReaction_of_canTx {p e : Nat} (h34 : 34 ≤ m) (hm : m < 42) : eccReaction m w (.canTx p e) s = dropTx p e s := by
  unfold eccReaction
  rw [if_neg (by omega), if_neg (by omega), if_neg (by omega), if_pos hm]

theorem eccReaction_of_canRx {p e : Nat} (h34 : 34 ≤ m) (hm : m < 42) : eccReaction m w (.canRx p e) s = dropRx p e s := by
  unfold eccReaction
  rw [if_neg (by omega), if_neg (by omega), if_neg (by omega), if_pos hm]

theorem eccReaction_of_logEntry {i : Nat} (h34 : 34 ≤ m) (hm : m < 42) : eccReaction m w (.logEntry i) s = 
    { s with evt := { s.evt with entries := upd s.evt.entries i (fun e => { e with time := 0, code := 0, source := 0, rept := 0, data := zeros 8 }) } } := by
  unfold eccReaction
  rw [if_neg (by omega), if_neg (by omega), if_neg (by omega), if_pos hm]

theorem eccReaction_of_house (h34 : 34 ≤ m) (hm : m < 42) : eccReaction m w .none s = 
    updRel (fun x => { x with waiting := s.rel.waiting.filter (fun r => decide (r.cls = 0) && decide (r.index = m) && decide (r.row = w / 16)) }) (startReset 0x15#8 s) := by
  unfold eccReaction
  rw [if_neg (by omega), if_neg (by omega), if_neg (by omega), if_pos hm]

/-- The bytes a spoilt word of capture memory holds: each one changed. -/
def garbled (s : State) (a : Nat) : Bytes := ((memReadBytes s.cap.mem a 8).zip (drawBytes 8 s).1).map (fun p => p.1 ^^^ (p.2 ||| 1#8))

theorem eccReaction_of_capture (h42 : 42 ≤ m) (hm : m < 106) : ∃ k, eccReaction m w use s =
    { s with free := k, cap := { s.cap with mem := memWriteBytes s.cap.mem ((m - 42) * 65536 + 8 * w) (garbled s ((m - 42) * 65536 + 8 * w)) } } := by
  obtain ⟨k, hk⟩ := drawBytes_snd 8 s
  refine ⟨k, ?_⟩
  unfold eccReaction garbled
  rw [if_neg (by omega), if_neg (by omega), if_neg (by omega), if_neg (by omega), if_pos hm]
  generalize drawBytes 8 s = d at hk
  obtain ⟨b, s1⟩ := d
  subst hk
  rfl

theorem eccReaction_of_safety (h106 : 106 ≤ m) (hm : m < 108) : eccReaction m w use s = safetyActs rSAFETY_ECC 1 0xFF s := by
  unfold eccReaction
  rw [if_neg (by omega), if_neg (by omega), if_neg (by omega), if_neg (by omega), if_neg (by omega), if_pos hm]

end

section
variable {m : Nat} {s : State} (hm : m < 108) (hlive : logLive s = true)
include hm hlive

/-- A spoilt word of an engine without a stage. -/
theorem scrubRead_spoilt_engine (h18 : m < 18) (hs : (getEngine s m).stage = none) (w : Nat) (use : WordUse) (scrub : Bool) :
    ∃ t, exec (.scrubRead m w 3 use scrub) s = .next t ∧ LogOnly { s with rel := t.rel } t ∧ t.rel.uncorrectable = s.rel.uncorrectable + 1 := by
  obtain ⟨r, e, c, hu, hcount, -⟩ := spoilt_spec (m := m) (s := s) w use scrub
  have hexec := scrubRead_spoilt hm hlive w use scrub
  rw [hu, eccReaction_of_engine h18 (by exact hs)] at hexec
  exact ⟨_, hexec, by unfold LogOnly; rfl, hcount⟩

/-- A spoilt word of graph memory outside images is zeroed. -/
theorem scrubRead_spoilt_graph {a w : Nat} (h18 : 18 ≤ m) (h33 : m < 33) (ha : a = (m - 18) * 65536 + 8 * w) (hi : imageAt s a = none)
    (hwf : memWf s.loop.mem = true) (use : WordUse) (scrub : Bool) :
    ∃ t, exec (.scrubRead m w 3 use scrub) s = .next t ∧ t.rel.uncorrectable = s.rel.uncorrectable + 1 ∧ t.loop = { s.loop with mem := t.loop.mem }
      ∧ ∀ b, memRead t.loop.mem b = if a ≤ b ∧ b < a + 8 then 0 else memRead s.loop.mem b := by
  obtain ⟨r, e, c, hu, hcount, -⟩ := spoilt_spec (m := m) (s := s) w use scrub
  have hexec := scrubRead_spoilt hm hlive w use scrub
  subst ha
  have himage : imageAt { s with rel := r, evt := e, cap := c } ((m - 18) * 65536 + 8 * w) = none := hi
  rw [hu, eccReaction_of_graph h18 h33 himage] at hexec
  exact ⟨_, hexec, hcount, rfl, fun b => memRead_memClear _ _ _ b hwf⟩

/-- A spoilt word of filter memory without a use is zeroed. -/
theorem scrubRead_spoilt_filter (h33 : m = 33) (hwf : memWf s.flt.mem = true) (w : Nat) (scrub : Bool) :
    ∃ t, exec (.scrubRead m w 3 .none scrub) s = .next t ∧ t.flt = { s.flt with mem := t.flt.mem }
      ∧ ∀ b, memRead t.flt.mem b = if 8 * w ≤ b ∧ b < 8 * w + 8 then 0 else memRead s.flt.mem b := by
  obtain ⟨r, e, c, hu, -⟩ := spoilt_spec (m := m) (s := s) w .none scrub
  have hexec := scrubRead_spoilt hm hlive w .none scrub
  subst h33
  rw [hu, eccReaction_of_filter] at hexec
  exact ⟨_, hexec, rfl, fun b => memRead_memClear _ _ _ b hwf⟩

omit hm hlive in
/-- An image's stage is one of the stages, and holds a graph. -/
theorem lt_length_of_imageAt {a n : Nat} (h : imageAt s a = some n) : n < s.loop.stages.length := by
  have hgraph := List.find?_some h
  by_contra hn
  rw [getStage, List.getD_eq_default _ _ (by omega)] at hgraph
  exact Bool.noConfusion hgraph

omit hm hlive in
theorem forcedShutdown_of_off {n : Nat} (h : (getStage s n).st = .off) : forcedShutdown n s = s := by
  unfold forcedShutdown
  rw [h]

omit hm hlive in
/-- A stage loses its graph and keeps its state, and the graph memory stays. -/
theorem unloadGraph_spec {n : Nat} (hn : n < s.loop.stages.length) :
    (getStage (unloadGraph n s) n).graph = none ∧ (getStage (unloadGraph n s) n).st = (getStage s n).st ∧ (unloadGraph n s).loop.mem = s.loop.mem := by
  have hloop : ∀ l f u, (forEach l (updFu · f) u).loop = u.loop := fun l f u =>
    forEach_reading (v := State.loop) (f := (updFu · f)) (fun _ _ => rfl) l u
  unfold unloadGraph
  rw [getStage_of_loop (hloop ..), getStage_updStage_same (by exact hn), hloop]
  exact ⟨rfl, rfl, rfl⟩

/-- A spoilt word of an image of an OFF stage unloads its graph. -/
theorem scrubRead_spoilt_image {n w : Nat} (h18 : 18 ≤ m) (h33 : m < 33) (hi : imageAt s ((m - 18) * 65536 + 8 * w) = some n)
    (hoff : (getStage s n).st = .off) (use : WordUse) (scrub : Bool) :
    ∃ t, exec (.scrubRead m w 3 use scrub) s = .next t ∧ (getStage t n).graph = none ∧ (getStage t n).st = .off ∧ t.loop.mem = s.loop.mem := by
  obtain ⟨r, e, c, hu, -⟩ := spoilt_spec (m := m) (s := s) w use scrub
  have hexec := scrubRead_spoilt hm hlive w use scrub
  have himage : imageAt { s with rel := r, evt := e, cap := c } ((m - 18) * 65536 + 8 * w) = some n := hi
  have hstate : (getStage { s with rel := r, evt := e, cap := c } n).st = .off := hoff
  rw [hu, eccReaction_of_image h18 h33 himage, forcedShutdown_of_off hstate] at hexec
  obtain ⟨hgraph, hst, hmem⟩ := unloadGraph_spec (s := { s with rel := r, evt := e, cap := c }) (lt_length_of_imageAt himage)
  exact ⟨_, hexec, hgraph, hst.trans hstate, hmem⟩

omit hm hlive in
theorem garbled_length (a : Nat) : (garbled s a).length = 8 := by
  simp [garbled, memReadBytes_length, drawBytes_fst_length]

omit hm hlive in
theorem xor_odd_ne (x y : Byte) : x ^^^ (y ||| 1#8) ≠ x := by
  intro h
  have hbit := congrArg (fun v : Byte => v.getLsbD 0) h
  simp at hbit

omit hm hlive in
theorem garbled_getD_ne {a i : Nat} (hi : i < 8) : (garbled s a).getD i 0 ≠ memRead s.cap.mem (a + i) := by
  have hl : i < (drawBytes 8 s).1.length := by rw [drawBytes_fst_length]; exact hi
  have hr : i < (memReadBytes s.cap.mem a 8).length := by rw [memReadBytes_length]; exact hi
  have hread := memReadBytes_getD s.cap.mem a hi
  have hget : (garbled s a).getD i 0 = (memReadBytes s.cap.mem a 8)[i] ^^^ ((drawBytes 8 s).1[i] ||| 1#8) := by
    unfold garbled
    rw [List.getD_eq_getElem _ _ (by simpa using ⟨hr, hl⟩), List.getElem_map, List.getElem_zip]
    rfl
  rw [hget, ← hread, List.getD_eq_getElem _ _ hr]
  exact xor_odd_ne _ _

/-- A spoilt word of capture memory: each of its bytes changes and no other. -/
theorem scrubRead_spoilt_capture {a w : Nat} (h42 : 42 ≤ m) (h106 : m < 106) (ha : a = (m - 42) * 65536 + 8 * w) (hd : capListens s = false)
    (hwf : memWf s.cap.mem = true) (use : WordUse) (scrub : Bool) :
    ∃ t, exec (.scrubRead m w 3 use scrub) s = .next t ∧ t.rel.uncorrectable = s.rel.uncorrectable + 1
      ∧ ∀ b, (a ≤ b ∧ b < a + 8 → memRead t.cap.mem b ≠ memRead s.cap.mem b) ∧ (b < a ∨ a + 8 ≤ b → memRead t.cap.mem b = memRead s.cap.mem b) := by
  obtain ⟨r, e, c, hu, hcount, hcap, -⟩ := spoilt_spec (m := m) (s := s) w use scrub
  have hexec := scrubRead_spoilt hm hlive w use scrub
  rw [hu, hcap hd] at hexec
  subst ha
  obtain ⟨k, hk⟩ := eccReaction_of_capture (w := w) (use := use) (s := { s with rel := r, evt := e, cap := s.cap }) h42 h106
  rw [hk] at hexec
  refine ⟨_, hexec, hcount, fun b => ⟨fun hb => ?_, fun hb => memRead_memWriteBytes_outside hwf (by rw [garbled_length]; exact hb)⟩⟩
  obtain ⟨i, rfl⟩ := Nat.exists_eq_add_of_le hb.1
  rw [memRead_memWriteBytes _ _ _ _ (by exact hwf), if_pos (by rw [garbled_length]; omega), Nat.add_sub_cancel_left]
  exact garbled_getD_ne (s := { s with rel := r, evt := e, cap := s.cap }) (by omega)

end

/-- A reading that shows neither the CAN ports and their memory nor the log. -/
def CanBlind {α : Type} (v : State → α) : Prop := ∀ (s : State) (x : Can) (e : EventLog) (c : Capture), v { s with can := x, evt := e, cap := c } = v s

section
variable {α : Type} {v : State → α} (hv : CanBlind v)
include hv

theorem can_reading (s : State) (x : Can) : v { s with can := x } = v s := hv s x s.evt s.cap

theorem txOutcome_reading (p e st : Nat) (s : State) : v (txOutcome p e st s) = v s := by
  unfold txOutcome
  extract_lets a s1 b
  have h1 : v s1 = v s := can_reading hv s s1.can
  split
  · exact (post_reading (fun s e c => hv s s.can e c) ..).trans h1
  · exact h1

theorem dropTx_reading (p e : Nat) (s : State) : v (dropTx p e s) = v s := by
  unfold dropTx
  extract_lets x
  split
  · rfl
  · exact (can_reading hv ..).trans (txOutcome_reading hv ..)

theorem dropRx_reading (p e : Nat) (s : State) : v (dropRx p e s) = v s := by
  unfold dropRx
  extract_lets x pos s1
  have h1 : v s1 = v s := can_reading hv s s1.can
  split
  · rfl
  · split
    · exact (can_reading hv ..).trans h1
    · split
      · exact (can_reading hv ..).trans h1
      · exact h1

end

section
variable {m : Nat} {s : State} (hm : m < 108) (hlive : logLive s = true)
include hm hlive

/-- A spoilt word of a log entry or a CAN entry leaves the part in operation. -/
theorem scrubRead_spoilt_entry (h34 : 34 ≤ m) (h42 : m < 42) {use : WordUse} (hu : (∃ i, use = .logEntry i) ∨ ∃ p e, use = .canTx p e ∨ use = .canRx p e)
    (w : Nat) (scrub : Bool) :
    ∃ t, exec (.scrubRead m w 3 use scrub) s = .next t ∧ t.sys = s.sys ∧ t.rel.uncorrectable = s.rel.uncorrectable + 1 := by
  obtain ⟨r, e, c, hsp, hcount, -⟩ := spoilt_spec (m := m) (s := s) w use scrub
  have hexec := scrubRead_spoilt hm hlive w use scrub
  rw [hsp] at hexec
  rcases hu with ⟨i, rfl⟩ | ⟨p, k, rfl | rfl⟩
  · rw [eccReaction_of_logEntry h34 h42] at hexec
    exact ⟨_, hexec, rfl, hcount⟩
  · rw [eccReaction_of_canTx h34 h42] at hexec
    exact ⟨_, hexec, dropTx_reading (v := State.sys) (fun _ _ _ _ => rfl) .., (congrArg Rel.uncorrectable (dropTx_reading (v := State.rel) (fun _ _ _ _ => rfl) ..)).trans hcount⟩
  · rw [eccReaction_of_canRx h34 h42] at hexec
    exact ⟨_, hexec, dropRx_reading (v := State.sys) (fun _ _ _ _ => rfl) .., (congrArg Rel.uncorrectable (dropRx_reading (v := State.rel) (fun _ _ _ _ => rfl) ..)).trans hcount⟩

omit hm in
/-- A reset out of operation latches its cause. -/
theorem startReset_of_live (cause : Byte) : (startReset cause s).sys.phase = .inReset ∧ (startReset cause s).sys.cause = cause ∧ (startReset cause s).pending = s.pending := by
  have hphase : (s.sys.phase == .inReset) = false := by
    simp only [logLive, Bool.and_eq_true] at hlive
    simpa using hlive.1
  refine ⟨rfl, ?_, rfl⟩
  show (if (!(s.sys.phase == .inReset)) = true then cause else _) = cause
  rw [hphase]
  rfl

/-- A spoilt word of housekeeping memory without a use resets the part; the retirement stays decided. -/
theorem scrubRead_spoilt_house (h34 : 34 ≤ m) (h42 : m < 42) (w : Nat) (scrub : Bool) :
    ∃ t, exec (.scrubRead m w 3 .none scrub) s = .next t ∧ t.sys.phase = .inReset ∧ t.sys.cause = 0x15#8 ∧ t.pending = s.pending
      ∧ (isRetired s { cls := 0, index := m, row := w / 16, reason := 2 } = false → ∃ y ∈ t.rel.waiting, y.cls = 0 ∧ y.index = m ∧ y.row = w / 16) := by
  obtain ⟨r, e, c, hu, -, -, hwait⟩ := spoilt_spec (m := m) (s := s) w .none scrub
  have hexec := scrubRead_spoilt hm hlive w .none scrub
  rw [hu, eccReaction_of_house h34 h42] at hexec
  obtain ⟨hphase, hcause, hpend⟩ := startReset_of_live (s := { s with rel := r, evt := e, cap := c }) hlive 0x15#8
  refine ⟨_, hexec, hphase, hcause, hpend, fun hr => ?_⟩
  obtain ⟨y, hy, hcls, hindex, hrow⟩ := hwait hr
  exact ⟨y, List.mem_filter.mpr ⟨hy, by simp [hcls, hindex, hrow]⟩, hcls, hindex, hrow⟩

end


/-! ### O56: a spoilt word of safety memory (R398, R415) -/

/-- The device state, FAULT_N and the causes latched with their first and their count. -/
def guarded (s : State) : DevState × Bool × BitVec 16 × Nat × U32 := (s.sys.dev, s.sys.faultN, s.safe.causes, s.safe.firstReason, s.safe.entries)

theorem guarded_of_reply {s t : State} (h : ReplyOnly s t) : guarded t = guarded s := by
  rw [show t = _ from h]; rfl

theorem guarded_gov (s : State) (g : Governor) : guarded { s with gov := g } = guarded s := rfl

theorem lockOut_reading {α : Type} {v : State → α} (hr : RunBlind v) (ho : OffBlind v) (n : Nat) (s : State) : v (lockOut n s) = v s := by
  unfold lockOut
  split
  · rfl
  · extract_lets s1 s2
    have h1 : v s1 = v s := setStage_reading hr.1.log hr.2 n _ _ (fun u => updStage_reading hr.1 ..) s
    have h2 : v s2 = v s1 := (stopTimers_reading ho ..).trans ((leaveEnabled_reading hr.1 ..).trans ((squashAll_reading hr.1 ..).trans (dropPrecharges_reading hr.1 ..)))
    exact (updStage_reading hr.1 ..).trans ((forEach_reading (chanOffNow_reading hr.1.gate) _ _).trans (h2.trans h1))

theorem guarded_runBlind : RunBlind guarded := ⟨fun _ _ _ _ _ _ _ _ _ _ _ => rfl, fun _ _ _ => rfl⟩
theorem guarded_offBlind : OffBlind guarded := fun _ _ _ _ _ _ _ _ _ => rfl

theorem removedStart_guarded (e : GovEntry) (reason : Nat) (s : State) : guarded (removedStart e reason s) = guarded s :=
  (guarded_of_reply (settleStart_reply ..)).trans (post_reading guarded_runBlind.1.log ..)

theorem removeStageStart_guarded (n reason : Nat) (s : State) : guarded (removeStageStart n reason s) = guarded s :=
  (foldl_reading (fun s e => removedStart_guarded e reason s) _ _).trans
    ((updStage_reading guarded_runBlind.1 ..).trans ((dropPrecharges_reading guarded_runBlind.1 ..).trans (guarded_gov ..)))

theorem removeOutputStart_guarded (o reason : Nat) (s : State) : guarded (removeOutputStart o reason s) = guarded s :=
  (foldl_reading (fun s e => removedStart_guarded e reason s) _ _).trans (guarded_gov ..)

theorem emptyGovernor_guarded (reason : Nat) (s : State) : guarded (emptyGovernor reason s) = guarded s :=
  (guarded_gov ..).trans ((forEach_reading (fun o s => removeOutputStart_guarded o reason s) _ _).trans (forEach_reading (fun n s => removeStageStart_guarded n reason s) _ s))

theorem leaveRun_guarded (reason : Nat) (s : State) : guarded (leaveRun reason s) = guarded s := by
  have h := emptyGovernor_guarded reason s
  unfold leaveRun
  generalize emptyGovernor reason s = t at h ⊢
  exact h

theorem commandOff_guarded (o : Nat) (s : State) : guarded (commandOff o s) = guarded s := by
  have hstop : guarded (if s.field.doCmd.getLsbD o then outputStops o s else s) = guarded s := by
    split
    · rfl
    · rfl
  exact hstop

theorem setDev_guarded (d : DevState) (op : Nat) (s : State) : guarded (setDev d op s) = (d, (guarded s).2) := by
  unfold setDev
  split
  · next h => rw [← h]; rfl
  · exact post_reading guarded_runBlind.1.log ..

/-- Every stage is locked out, the gates closed and FAULT_N low. -/
def safeStages (s : State) : State :=
  forEach (List.range 8) lockOut { s with pwm := { s.pwm with gateProc := false, gateSorrel := false }, sys := { s.sys with faultN := false } }
/-- The forming units, the governor and the outputs have stopped too. -/
def safeOutputs (s : State) : State :=
  forEach ((List.range 8).filter (fun o => !namedOutput (safeStages s) o)) commandOff (leaveRun 1 (forEach [0, 1] (fun u => fuStageGone u 3 2) (safeStages s)))
/-- The device is SAFE. -/
def safeDeclared (s : State) : State :=
  let t := setDev .safe 0 (safeOutputs s)
  { t with safe := { t.safe with tSafe := activeTime t, entries := t.safe.entries + 1
                                 proc := { t.safe.proc with safeBit := true, safeAt := t.time.raw }
                                 sorrel := { t.safe.sorrel with safeBit := true, safeAt := t.time.raw } } }

theorem setSafeState_eq (s : State) : setSafeState s = if (safeDeclared s).sys.stateChange then
    endLong 0x0103#16 0 E_STATE [] { safeDeclared s with sys := { (safeDeclared s).sys with stateChange := false } } else safeDeclared s := by
  unfold setSafeState safeDeclared safeOutputs safeStages
  with_reducible rfl

theorem safeStages_guarded (s : State) : guarded (safeStages s) = (s.sys.dev, false, (guarded s).2.2) :=
  forEach_reading (fun n s => lockOut_reading guarded_runBlind guarded_offBlind n s) _ _

theorem safeOutputs_guarded (s : State) : guarded (safeOutputs s) = guarded (safeStages s) :=
  (forEach_reading commandOff_guarded _ _).trans ((leaveRun_guarded ..).trans (forEach_reading (fun u s => fuStageGone_reading guarded_runBlind.1.form u 3 2 s) _ _))

/-- The device is SAFE with FAULT_N low, one entry more, the causes as they are. -/
theorem safeDeclared_guarded (s : State) : guarded (safeDeclared s) = (.safe, false, s.safe.causes, s.safe.firstReason, s.safe.entries + 1) := by
  have hdev : guarded (setDev .safe 0 (safeOutputs s)) = (.safe, false, s.safe.causes, s.safe.firstReason, s.safe.entries) := by
    rw [setDev_guarded, safeOutputs_guarded, safeStages_guarded]; rfl
  unfold safeDeclared
  generalize setDev .safe 0 (safeOutputs s) = t at hdev
  simp only [guarded, Prod.mk.injEq] at hdev ⊢
  obtain ⟨hd, hfault, hcauses, hfirst, hentries⟩ := hdev
  exact ⟨hd, hfault, hcauses, hfirst, congrArg (· + 1) hentries⟩

theorem setSafeState_guarded (s : State) : guarded (setSafeState s) = guarded (safeDeclared s) := by
  rw [setSafeState_eq]
  generalize safeDeclared s = t
  split
  · rw [guarded_of_reply (endLong_reply ..)]; rfl
  · rfl

/-- A reason is latched as the first one. -/
def firstLatched (reason : Nat) (s : State) : State :=
  { s with safe := { s.safe with causes := 0 ||| (1#16 <<< (reason - 1)), firstReason := reason, firstAt := some s.time.raw } }

theorem safetyActs_of_first {s : State} (hdev : s.sys.dev = .run) (hc : s.safe.causes = 0) (reason chan source : Nat) : ∃ d,
    safetyActs reason chan source s = post 0x0A00#16 source d (setSafeState (firstLatched reason s)) := by
  unfold safetyActs firstLatched
  simp only [hc, hdev, show BitVec.getLsbD (0 : BitVec 16) (reason - 1) = false by simp, Bool.false_eq_true, reduceCtorEq, or_self, if_false, if_true]
  exact ⟨_, by with_reducible rfl⟩

/-- The first reason in RUN brings the safe state. -/
theorem safetyActs_of_run {s : State} (hdev : s.sys.dev = .run) (hc : s.safe.causes = 0) (reason chan source : Nat) :
    actedFor s (safetyActs reason chan source s) reason := by
  have hguard : guarded (safetyActs reason chan source s) = (.safe, false, 0 ||| (1#16 <<< (reason - 1)), reason, s.safe.entries + 1) := by
    obtain ⟨d, hd⟩ := safetyActs_of_first hdev hc reason chan source
    rw [hd, post_reading guarded_runBlind.1.log, setSafeState_guarded, safeDeclared_guarded]
    rfl
  simp only [guarded, Prod.mk.injEq] at hguard
  obtain ⟨hd, hfault, hcauses, hfirst, hentries⟩ := hguard
  exact ⟨hd, hcauses.trans (BitVec.zero_or ..), hfirst, hentries, hfault⟩

/-- A spoilt word of safety memory acts with SAFETY_ECC. -/
theorem scrubRead_spoilt_safety {m : Nat} {s : State} (hm : m < 108) (hlive : logLive s = true) (h106 : 106 ≤ m) (hdev : s.sys.dev = .run)
    (hc : s.safe.causes = 0) (w : Nat) (use : WordUse) (scrub : Bool) : ∃ t, exec (.scrubRead m w 3 use scrub) s = .next t ∧ actedFor s t 16 := by
  obtain ⟨r, e, c, hu, -⟩ := spoilt_spec (m := m) (s := s) w use scrub
  have hexec := scrubRead_spoilt hm hlive w use scrub
  rw [hu, eccReaction_of_safety h106 hm] at hexec
  exact ⟨_, hexec, safetyActs_of_run (s := { s with rel := r, evt := e, cap := c }) hdev hc rSAFETY_ECC 1 0xFF⟩


/-! ### O56: row remaps, repair log writes and the swap (R112, R533, R536) -/

theorem rowRemap_of_none {s : State} (h : nextRetire s 0 = none) : exec .rowRemap s = .next s := by
  show execRowRemap s = _
  unfold execRowRemap
  rw [h]

theorem repairLogWriteDone_of_none {s : State} (h : s.rel.logWrites = []) : exec .repairLogWriteDone s = .next s := by
  show execRepairLogWriteDone s = _
  unfold execRepairLogWriteDone
  rw [h]

/-- A row gets its lowest free spare; its log entry waits for its place, or for a log that is live again. -/
theorem rowRemap_of_spare {s : State} {r : Retirement} {k : Nat} {e : U64} (hr : nextRetire s 0 = some r) (hk : freeRow s r.index = some k) (hk4 : k < 4)
    (hi : r.index < 108) (hrow : r.row < 512) (hre : r.reason < 7) (hc : r.cls = 0)
    (he : e = BitVec.ofNat 64 (r.index * 2 ^ 52 + r.row * 2 ^ 40 + k * 2 ^ 32 + r.reason * 2 ^ 24 + 0xA5)) :
    ∃ t, exec .rowRemap s = .next t ∧ LogOnly { s with rel := t.rel } t ∧ t.rel.rows = s.rel.rows ++ [(r.index, r.row, some k)] ∧ t.rel.waiting = s.rel.waiting.erase r
      ∧ t.rel.otp = s.rel.otp
      ∧ (logLive s = false ∨ logFree s = true → t.rel.logWrites = s.rel.logWrites ++ [e] ∧ t.rel.volatiles = s.rel.volatiles)
      ∧ (logLive s = true → logFree s = false → t.rel.volatiles = s.rel.volatiles ++ [e] ∧ t.rel.logWrites = s.rel.logWrites) := by
  obtain ⟨t, un, hexec, hlog⟩ := rowRemap_of_next hr (.inl (by rw [hk]; rfl))
  rw [hk, Option.getD_some, logEntry_of_row hc hi hrow hk4 hre, ← he] at hlog
  have hrel : t.rel = { s.rel with
      rows := s.rel.rows ++ [(r.index, r.row, some k)]
      waiting := s.rel.waiting.erase r
      logWrites := if !logLive s || logFree s then s.rel.logWrites ++ [e] else s.rel.logWrites
      volatiles := if !logLive s || logFree s then s.rel.volatiles else s.rel.volatiles ++ [e]
      unposted := un } := hlog.rel
  refine ⟨t, hexec, by rw [hrel]; exact hlog, by rw [hrel], by rw [hrel], by rw [hrel], fun h => ?_, fun hlive hfree => ?_⟩
  · have hroom : (!logLive s || logFree s) = true := by
      rcases h with h | h
      · simp [h]
      · simp [h]
    rw [hrel]
    exact ⟨if_pos hroom, if_pos hroom⟩
  · have hroom : ¬ (!logLive s || logFree s) = true := by simp [hlive, hfree]
    rw [hrel]
    exact ⟨if_neg hroom, if_neg hroom⟩

/-- A row without a free spare is retired. -/
theorem rowRemap_of_full {s : State} {r : Retirement} (hr : nextRetire s 0 = some r) (hk : freeRow s r.index = none) (h18 : 18 ≤ r.index) :
    ∃ t, exec .rowRemap s = .next t ∧ LogOnly { s with rel := t.rel } t ∧ t.rel.rows = s.rel.rows ++ [(r.index, r.row, none)] ∧ t.rel.waiting = s.rel.waiting.erase r := by
  obtain ⟨t, un, hexec, hlog⟩ := rowRemap_of_next hr (.inr h18)
  rw [hk] at hlog
  have hrel := hlog.rel
  refine ⟨t, hexec, by rw [hrel]; exact hlog, by rw [hrel], by rw [hrel]⟩

theorem swapImage_of_none {s : State} (h : s.img.back = none) : swapImage s = s := by
  unfold swapImage
  rw [h]

theorem swapImage_of_back {s : State} {b : List Host.Cell} (h : s.img.back = some b) :
    swapImage s = { s with img := { s.img with host := b, back := none, epoch := s.img.epoch + 1 } } := by
  unfold swapImage
  rw [h]


/-! ### O56: reading the pieces of an image (R35, R36, R111) -/

/-- Pieces are written into a memory one after the other. -/
def writeParts (l : List (Nat × Bytes)) (m : List Host.Cell) : List Host.Cell := l.foldl (fun m p => memWriteBytes m p.1 p.2) m

theorem writeParts_wf (l : List (Nat × Bytes)) {m : List Host.Cell} (h : memWf m = true) : memWf (writeParts l m) = true :=
  foldWrites_wf l (fun p => p.1) (fun p => p.2) m h

/-- Pieces that begin above a byte leave it alone. -/
theorem memRead_writeParts_above {l : List (Nat × Bytes)} {m : List Host.Cell} (hwf : memWf m = true) {c : Nat} (h : ∀ p ∈ l, c < p.1) :
    memRead (writeParts l m) c = memRead m c := by
  induction l generalizing m with
  | nil => rfl
  | cons p l ih =>
    exact (ih (memWriteBytes_wf _ _ _ hwf) (fun q hq => h q (List.mem_cons_of_mem _ hq))).trans
      (memRead_memWriteBytes_outside hwf (.inl (h p List.mem_cons_self)))

/-- A byte of a piece that no later piece covers. -/
theorem memRead_writeParts {pre post : List (Nat × Bytes)} {a : Nat} {b : Bytes} {k : Nat} (hk : k < b.length) (h : ∀ p ∈ post, a + k < p.1) :
    memRead (writeParts (pre ++ (a, b) :: post) []) (a + k) = b.getD k 0 := by
  have hpre : memWf (writeParts pre []) = true := writeParts_wf pre rfl
  have hsplit : writeParts (pre ++ (a, b) :: post) [] = writeParts post (memWriteBytes (writeParts pre []) a b) := List.foldl_append ..
  rw [hsplit, memRead_writeParts_above (memWriteBytes_wf _ _ _ hpre) h, memRead_memWriteBytes _ _ _ _ hpre, if_pos (by omega), Nat.add_sub_cancel_left]

/-- Pieces that begin at an address or above it. -/
def Above (a : Nat) (l : List (Nat × Bytes)) : Prop := ∀ p ∈ l, a ≤ p.1

theorem above_nil (a : Nat) : Above a [] := by simp [Above]
theorem above_cons {a : Nat} {p : Nat × Bytes} {l : List (Nat × Bytes)} : Above a (p :: l) ↔ a ≤ p.1 ∧ Above a l := by simp [Above]
theorem above_append {a : Nat} {l r : List (Nat × Bytes)} : Above a (l ++ r) ↔ Above a l ∧ Above a r := List.forall_mem_append

/-- A row of `n` pieces, `step` apart. -/
def eachPart (base step n : Nat) (f : Nat → Bytes) : List (Nat × Bytes) := (List.range n).map (fun i => (base + step * i, f i))

theorem above_eachPart {a base : Nat} (h : a ≤ base) (step n : Nat) (f : Nat → Bytes) : Above a (eachPart base step n f) := fun p hp => by
  obtain ⟨i, -, rfl⟩ := List.mem_map.mp hp
  exact h.trans (Nat.le_add_right ..)

/-- What stands before and after a number below `n`. -/
theorem range_split {i n : Nat} (h : i < n) : ∃ l r, List.range n = l ++ i :: r ∧ (∀ j ∈ l, j < i) ∧ ∀ j ∈ r, i < j := by
  obtain ⟨l, r, hsplit⟩ := List.append_of_mem (List.mem_range.mpr h)
  have hsorted : (l ++ i :: r).Pairwise (· < ·) := hsplit ▸ List.pairwise_lt_range
  obtain ⟨-, hright, hcross⟩ := List.pairwise_append.mp hsorted
  exact ⟨l, r, hsplit, fun j hj => hcross j hj i List.mem_cons_self, (List.pairwise_cons.mp hright).1⟩

/-- A byte of a piece of a row, when what follows begins above the row. -/
theorem memRead_writeParts_each {pre post : List (Nat × Bytes)} {base step n i k : Nat} {f : Nat → Bytes} (hi : i < n) (hstep : k < step) (hk : k < (f i).length)
    (hpost : Above (base + step * n) post) : memRead (writeParts (pre ++ eachPart base step n f ++ post) []) (base + step * i + k) = (f i).getD k 0 := by
  obtain ⟨l, r, hsplit, -, hr⟩ := range_split hi
  have hnext : ∀ j, i < j → base + step * i + k < base + step * j := fun j hj => by
    have hmul : step * (i + 1) ≤ step * j := Nat.mul_le_mul_left step hj
    rw [Nat.mul_succ] at hmul
    omega
  have hparts : pre ++ eachPart base step n f ++ post = (pre ++ l.map (fun i => (base + step * i, f i))) ++ (base + step * i, f i) :: (r.map (fun i => (base + step * i, f i)) ++ post) := by
    unfold eachPart
    rw [hsplit]
    simp
  rw [hparts]
  refine memRead_writeParts hk fun p hp => ?_
  rcases List.mem_append.mp hp with hp | hp
  · obtain ⟨j, hj, rfl⟩ := List.mem_map.mp hp
    exact hnext j (hr j hj)
  · exact Nat.lt_of_lt_of_le (hnext n hi) (hpost p hp)

/-- The pieces between the header and the forming units. -/
def lowParts (s : State) : List (Nat × Bytes) :=
  [(0x0100, systemBytes s)] ++ eachPart 0x0400 0x40 2 (fun i => pllBytes (getPll s i)) ++ [(0x0480, n32 (bitField ((List.range 10).filter (fun o => (s.clk.outs.getD o clkOut0).enable)))
        ++ n32 (bitField ((List.range 5).filter (fun i => s.time.onFallback.getD i true))))]
    ++ eachPart 0x0600 0x40 4 (domainBytes s) ++ [(0x0700, activeBytes s)]

/-- The pieces between the stages and the published words. -/
def highParts (s : State) : List (Nat × Bytes) :=
  eachPart 0x2000 0x20 64 (fun i => (s.sense.accs.getD i acc0).pub) ++ eachPart 0x2800 0x18 64 (fun i => (s.sense.mmxs.getD i mmx0).pub) ++ [(0x2E00, senseStatus s)]
    ++ [(0x3000, protHead s ++ n32 (dieFlags s))] ++ eachPart 0x3100 0x10 8 (hbBytes s) ++ [(0x3200, (List.range 96).flatMap (fun c => le32 (getChan s c).trips))]
    ++ [(0x3800, safeBytes s), (0x4000, fieldBytes s)]
    ++ eachPart 0x4800 0x80 6 (fun p => canBytes (getCan s p)) ++ eachPart 0x4C00 0x100 2 (ethBytes s) ++ eachPart 0x4E00 0x40 3 (timeInstBytes s)
    ++ [(0x5000, capStatusBytes s), (0x5800, relBytes s), (0x6000, sageWindow s)]

/-- The pieces of the words a stage publishes. -/
def stageWords (s : State) (tPub n : Nat) : List (Nat × Bytes) :=
  match (getStage s n).graph with
  | some g => ((publishedWords s tPub n).filter (fun p => p.1 < g.pubWords)).map (fun p => (0x7000 + 4 * (g.pubBase + p.1), le32 p.2))
  | none => []

theorem imageParts_eq (s : State) (tPub : Nat) : imageParts s tPub = (0, headerBytes s tPub) :: (lowParts s
    ++ (eachPart 0x0800 0x400 2 (fuRange s tPub) ++ (eachPart 0x1000 0x200 8 (publishedRange s tPub) ++ (highParts s ++ (List.range 8).flatMap (stageWords s tPub))))) := by
  simp only [imageParts, lowParts, highParts, eachPart, List.append_assoc, List.cons_append, List.nil_append]
  rfl

theorem assemble_eq (s : State) (tPub : Nat) : assemble s tPub = writeParts (imageParts s tPub) [] := rfl

theorem above_lowParts (s : State) : Above 0x100 (lowParts s) := by
  simp [lowParts, above_append, above_cons, above_nil, above_eachPart]

theorem above_highParts (s : State) : Above 0x2000 (highParts s) := by
  simp [highParts, above_append, above_cons, above_nil, above_eachPart]

theorem above_stageWords (s : State) (tPub n : Nat) : Above 0x7000 (stageWords s tPub n) := by
  unfold stageWords
  split
  · intro p hp
    obtain ⟨q, -, rfl⟩ := List.mem_map.mp hp
    exact Nat.le_add_right ..
  · exact above_nil _

theorem Above.mono {a c : Nat} {l : List (Nat × Bytes)} (h : Above c l) (hac : a ≤ c) : Above a l := fun p hp => hac.trans (h p hp)

theorem above_words (s : State) (tPub : Nat) : Above 0x7000 ((List.range 8).flatMap (stageWords s tPub)) := fun p hp => by
  obtain ⟨n, -, hp⟩ := List.mem_flatMap.mp hp
  exact above_stageWords s tPub n p hp

/-- What follows the stages in an image. -/
theorem above_rest (s : State) (tPub : Nat) : Above 0x2000 (highParts s ++ (List.range 8).flatMap (stageWords s tPub)) :=
  above_append.mpr ⟨above_highParts s, (above_words s tPub).mono (by decide)⟩

theorem headerBytes_length (s : State) (tPub : Nat) : (headerBytes s tPub).length = 64 := by
  simp [headerBytes, le32_length, n8, n32, n16, zeros, le16_length, List.length_flatMap]

/-- The header of an image. -/
theorem assemble_header (s : State) (tPub : Nat) : memReadBytes (assemble s tPub) 0 64 = headerBytes s tPub := by
  have hfu : Above 0x100 (eachPart 0x0800 0x400 2 (fuRange s tPub)) := above_eachPart (by decide) _ _ _
  have hstages : Above 0x100 (eachPart 0x1000 0x200 8 (publishedRange s tPub)) := above_eachPart (by decide) _ _ _
  have hrest := above_append.mpr ⟨above_lowParts s, above_append.mpr ⟨hfu, above_append.mpr ⟨hstages, (above_rest s tPub).mono (show 0x100 ≤ 0x2000 by decide)⟩⟩⟩
  have hlen := headerBytes_length s tPub
  rw [assemble_eq, imageParts_eq, ← hlen]
  generalize lowParts s ++ _ = post at hrest
  exact memReadBytes_eq fun i hi => memRead_writeParts (pre := []) hi fun p hp => by have := hrest p hp; omega

/-- The range of a stage in an image. -/
theorem assemble_stage (s : State) (tPub : Nat) {n k : Nat} (hn : n < 8) (hk : k < 512) (hl : k < (publishedRange s tPub n).length) :
    memRead (assemble s tPub) (0x1000 + 0x200 * n + k) = (publishedRange s tPub n).getD k 0 := by
  have h := memRead_writeParts_each (pre := (0, headerBytes s tPub) :: (lowParts s ++ eachPart 0x0800 0x400 2 (fuRange s tPub)))
    (base := 0x1000) (f := publishedRange s tPub) hn hk hl (above_rest s tPub)
  rw [assemble_eq, imageParts_eq]
  simpa only [List.append_assoc, List.cons_append] using h

/-- The range of a forming unit in an image. -/
theorem assemble_fu (s : State) (tPub : Nat) {i k : Nat} (hi : i < 2) (hk : k < 1024) (hl : k < (fuRange s tPub i).length) :
    memRead (assemble s tPub) (0x800 + 0x400 * i + k) = (fuRange s tPub i).getD k 0 := by
  have hstages : Above (0x800 + 0x400 * 2) (eachPart 0x1000 0x200 8 (publishedRange s tPub)) := above_eachPart (by decide) _ _ _
  have h := memRead_writeParts_each (pre := (0, headerBytes s tPub) :: lowParts s)
    (base := 0x800) (f := fuRange s tPub) hi hk hl (above_append.mpr ⟨hstages, (above_rest s tPub).mono (show 0x800 + 0x400 * 2 ≤ 0x2000 by decide)⟩)
  rw [assemble_eq, imageParts_eq]
  simpa only [List.append_assoc, List.cons_append] using h

/-- The words of the one stage with a graph. -/
theorem words_of_alone {s : State} {tPub n : Nat} (hn : n < 8) (hothers : ∀ m < 8, m ≠ n → (getStage s m).graph = none) :
    (List.range 8).flatMap (stageWords s tPub) = stageWords s tPub n := by
  obtain ⟨l, r, hsplit, hl, hr⟩ := range_split hn
  have hnone : ∀ m ∈ List.range 8, m ≠ n → stageWords s tPub m = [] := fun m hm hne => by
    unfold stageWords
    rw [hothers m (List.mem_range.mp hm) hne]
  rw [hsplit] at hnone ⊢
  have hleft : l.flatMap (stageWords s tPub) = [] :=
    List.flatMap_eq_nil_iff.mpr fun m hm => hnone m (List.mem_append_left _ hm) (hl m hm).ne
  have hright : r.flatMap (stageWords s tPub) = [] :=
    List.flatMap_eq_nil_iff.mpr fun m hm => hnone m (List.mem_append_right _ (List.mem_cons_of_mem _ hm)) (hr m hm).ne'
  rw [List.flatMap_append, List.flatMap_cons, hleft, hright, List.nil_append, List.append_nil]

/-- A stage's word in an image when no other stage holds a graph. -/
theorem assemble_word {s : State} {tPub n k : Nat} {g : Machine.Graph} {v : U32} (hn : n < 8) (hothers : ∀ m < 8, m ≠ n → (getStage s m).graph = none)
    (hg : (getStage s n).graph = some g) (hk : k < g.pubWords) (hw : publishedWords s tPub n = [(k, v)]) :
    memReadBytes (assemble s tPub) (0x7000 + 4 * (g.pubBase + k)) 4 = le32 v := by
  have hown : stageWords s tPub n = [(0x7000 + 4 * (g.pubBase + k), le32 v)] := by
    unfold stageWords
    rw [hg, hw]
    simp [hk]
  rw [assemble_eq, imageParts_eq, words_of_alone hn hothers, hown, ← List.append_assoc, ← List.append_assoc, ← List.append_assoc, ← List.cons_append]
  exact memReadBytes_eq (b := le32 v) fun i hi => memRead_writeParts hi (by simp)


/-! ### O56: a publication instant (R33 to R36, R112, R505) -/

theorem publishedRange_of_early {s : State} {tPub n : Nat} (h : commitLate s tPub n = false) : publishedRange s tPub n = stageRange s n := by
  unfold publishedRange
  rw [h]
  rfl

theorem stageRange_length (s : State) (n : Nat) : 4 ≤ (stageRange s n).length := by
  unfold stageRange
  extract_lets x
  simp only [List.length_append, n8, List.length_cons, List.length_nil]
  omega

/-- While its newest commit is late, a stage's range shows, from its fourth byte on, what the commit before found. -/
theorem publishedRange_of_late {s : State} {tPub n k : Nat} (h : commitLate s tPub n = true) (h4 : 4 ≤ k) (hk : k < (getStage s n).prevRange.length) :
    k < (publishedRange s tPub n).length ∧ (publishedRange s tPub n).getD k 0 = (getStage s n).prevRange.getD k 0 := by
  have hnow := stageRange_length s n
  have hrange : publishedRange s tPub n = ((stageRange s n).take 1 ++ ((getStage s n).prevRange.drop 1).take 1 ++ ((stageRange s n).drop 2).take 2) ++ (getStage s n).prevRange.drop 4 := by
    unfold publishedRange
    rw [h]
    rfl
  have hhead : ((stageRange s n).take 1 ++ ((getStage s n).prevRange.drop 1).take 1 ++ ((stageRange s n).drop 2).take 2).length = 4 := by
    simp only [List.length_append, List.length_take, List.length_drop]
    omega
  rw [hrange]
  constructor
  · rw [List.length_append, hhead, List.length_drop]
    omega
  · rw [List.getD_append_right _ _ _ _ (by omega), hhead]
    simp [List.getD, show 4 + (k - 4) = k by omega]

/-- An ADPLL with its measured frequency and phase error. -/
def measuredPll (ps : List (F32 × F32)) (i : Nat) (x : Adpll) : Adpll := match ps[i]? with | some m => { x with fMeas := m.1, phaseRms := m.2 } | none => x

/-- What a publication instant's image is assembled from. -/
def pubMoment (v : List U32) (tj : U32) (ps : List (F32 × F32)) (s : State) : State :=
  let r := countReached s s.img.due
  let s1 := advanceTo r (swapImage s)
  closeWindows r { s1 with clk := { s1.clk with plls := s1.clk.plls.mapIdx (measuredPll ps) }, sup := { s1.sup with volts := v, tj := tj, tjMax := some (maxTemp s1.sup.tjMax tj) } }

theorem swapImage_eq (s : State) : swapImage s = { s with img := (swapImage s).img } := by
  unfold swapImage
  split
  · rfl
  · rfl

theorem swapImage_img (s : State) : (swapImage s).img.back = none ∧ (swapImage s).img.rate = s.img.rate ∧ (swapImage s).img.newRate = s.img.newRate
    ∧ (swapImage s).img.due = s.img.due ∧ (s.img.back = none → (swapImage s).img.host = s.img.host ∧ (swapImage s).img.epoch = s.img.epoch)
    ∧ ∀ x, s.img.back = some x → (swapImage s).img.host = x ∧ (swapImage s).img.epoch = s.img.epoch + 1 := by
  cases hb : s.img.back with
  | none =>
    rw [swapImage_of_none hb]
    exact ⟨hb, rfl, rfl, rfl, fun _ => ⟨rfl, rfl⟩, fun x hx => absurd hx (by simp)⟩
  | some b =>
    rw [swapImage_of_back hb]
    exact ⟨rfl, rfl, rfl, rfl, fun h => absurd h (by simp), fun x hx => ⟨Option.some.inj hx, rfl⟩⟩

theorem closeWindows_eq (r : Nat) (s : State) : ∃ x, closeWindows r s = { s with sense := x } := by
  have hfold : ∃ x, foldRound r s = { s with sense := x } := by
    unfold foldRound
    split
    · exact ⟨s.sense, rfl⟩
    · exact ⟨_, rfl⟩
  obtain ⟨x, hx⟩ := hfold
  unfold closeWindows
  rw [hx]
  exact ⟨_, rfl⟩

theorem pubMoment_eq (v : List U32) (tj : U32) (ps : List (F32 × F32)) (s : State) : ∃ x, pubMoment v tj ps s = { s with
    img := (swapImage s).img, sense := x
    time := { s.time with raw := max s.time.raw (countReached s s.img.due) }
    clk := { s.clk with plls := s.clk.plls.mapIdx (measuredPll ps) }
    sup := { s.sup with volts := v, tj := tj, tjMax := some (maxTemp s.sup.tjMax tj) } } := by
  unfold pubMoment
  rw [swapImage_eq s]
  exact closeWindows_eq ..

/-- The image's place, rate and next instant after a publication instant. -/
def pubImage (u : State) (s : State) : Image :=
  { u.img with back := some (assemble u (countReached s s.img.due)), rate := u.img.newRate, due := s.img.due + pubPeriod u.img.newRate.toNat }

/-- The overrun flags begin anew. -/
def overrunsCleared (s : State) : State := forEach (List.range 8) (fun n => updStage n (fun x => { x with overrunPub := false })) s

/-- Whether a stage is not OFF, and what crosses into Sage. -/
def sageTold (s : State) : State :=
  let active := (List.range 8).any (fun n => (getStage s n).st != .off)
  updSage (fun x => { x with hostActive := active, hostEnded := (x.hostEnded || x.hostActive) && !active, status := sageStatusNow s }) s

theorem publicationInstant_of_running {s : State} (h : s.img.running = true) (v : List U32) (tj : U32) (ps : List (F32 × F32)) :
    exec (.publicationInstant v tj ps) s
      = .next (sageTold (overrunsCleared { pubMoment v tj ps s with img := pubImage (pubMoment v tj ps s) s })) := by
  show execPublicationInstant v tj ps s = _
  unfold execPublicationInstant
  rw [if_neg (by simp [h])]
  rfl

theorem publicationInstant_of_idle {s : State} (h : s.img.running = false) (v : List U32) (tj : U32) (ps : List (F32 × F32)) :
    exec (.publicationInstant v tj ps) s = .next s := by
  show execPublicationInstant v tj ps s = _
  unfold execPublicationInstant
  rw [if_pos (by simp [h])]


theorem forEach_loop {f : Nat → State → State} (h : ∀ i s, ∃ l, f i s = { s with loop := l }) (l : List Nat) (s : State) : ∃ x, forEach l f s = { s with loop := x } := by
  induction l generalizing s with
  | nil => exact ⟨s.loop, rfl⟩
  | cons i l ih =>
    obtain ⟨x, hx⟩ := h i s
    obtain ⟨y, hy⟩ := ih (f i s)
    rw [hx] at hy
    refine ⟨y, ?_⟩
    show forEach l f (f i s) = _
    rw [hx]
    exact hy

/-- The overrun flags are all that changes. -/
theorem overrunsCleared_spec (s : State) : ∃ l, overrunsCleared s = { s with loop := l } ∧ (∀ n, (l.stages.getD n stage0).st = (getStage s n).st)
    ∧ ∀ n < 8, (l.stages.getD n stage0).overrunPub = false := by
  obtain ⟨l, hl⟩ := forEach_loop (f := fun n => updStage n (fun x => { x with overrunPub := false })) (fun n s => ⟨_, rfl⟩) (List.range 8) s
  have hget : ∀ n, getStage (overrunsCleared s) n = l.stages.getD n stage0 := fun n => by
    unfold overrunsCleared
    rw [hl]
    rfl
  have hstates : stageStates (overrunsCleared s) = stageStates s :=
    forEach_reading (f := fun n => updStage n (fun x => { x with overrunPub := false })) (fun n u => updStage_reading_of_st stageStates_offBlind (by exact fun _ => rfl) n u) _ s
  refine ⟨l, hl, fun n => by rw [← hget]; exact getStage_st_of_stageStates hstates n, fun n hn => ?_⟩
  obtain ⟨u, -, hu⟩ := forEach_reading_at (v := fun s => (getStage s n).overrunPub) (f := fun n => updStage n (fun x => { x with overrunPub := false }))
    (fun i s hi => by rw [getStage_updStage_ne (Ne.symm hi)]) List.nodup_range (List.mem_range.mpr hn) s
  rw [← hget]
  refine hu.trans ?_
  by_cases hlen : n < u.loop.stages.length
  · rw [getStage_updStage_same hlen]
  · have hout : (updStage n (fun x => { x with overrunPub := false }) u).loop.stages.length ≤ n := by
      show (upd u.loop.stages n _).length ≤ n
      rw [upd_length]
      omega
    rw [getStage, List.getD_eq_default _ _ hout]
    rfl

/-- Some stage is not OFF. -/
def anyActive (s : State) : Bool := (List.range 8).any (fun n => (getStage s n).st != .off)

theorem anyActive_iff (s : State) : anyActive s = true ↔ ∃ n < 8, (getStage s n).st ≠ .off := by
  simp [anyActive, List.any_eq_true]

/-- The state after a publication instant. -/
theorem publicationInstant_spec {s : State} (h : s.img.running = true) (v : List U32) (tj : U32) (ps : List (F32 × F32)) : ∃ t l st,
    exec (.publicationInstant v tj ps) s = .next t ∧ t = { pubMoment v tj ps s with
      img := pubImage (pubMoment v tj ps s) s, loop := l
      sage := { s.sage with hostActive := anyActive s, hostEnded := (s.sage.hostEnded || s.sage.hostActive) && !anyActive s, status := st } }
    ∧ ∀ n < 8, (l.stages.getD n stage0).overrunPub = false := by
  obtain ⟨x, hx⟩ := pubMoment_eq v tj ps s
  obtain ⟨l, hl, hst, hover⟩ := overrunsCleared_spec { pubMoment v tj ps s with img := pubImage (pubMoment v tj ps s) s }
  have hactive : (List.range 8).any (fun n => (l.stages.getD n stage0).st != .off) = anyActive s := by
    have hst' : ∀ n, (l.stages.getD n stage0).st = (getStage s n).st := fun n => (hst n).trans (by rw [hx]; rfl)
    unfold anyActive
    simp only [hst']
  have hsage : (pubMoment v tj ps s).sage = s.sage := by rw [hx]
  refine ⟨_, l, sageStatusNow (overrunsCleared { pubMoment v tj ps s with img := pubImage (pubMoment v tj ps s) s }), publicationInstant_of_running h v tj ps, ?_, hover⟩
  rw [hl, ← hactive, ← hsage]
  rfl

theorem pubPeriod_spec {rate : Nat} (h : 1 ≤ rate) :
    2 * (pubPeriod rate * rate) ≤ 2 * 1000000000 + rate ∧ 2 * 1000000000 < 2 * (pubPeriod rate * rate) + rate := by
  have hle : pubPeriod rate * (2 * rate) ≤ 2 * 1000000000 + rate := Nat.div_mul_le_self ..
  have hlt : 2 * 1000000000 + rate < (pubPeriod rate + 1) * (2 * rate) := Nat.lt_mul_of_div_lt (Nat.lt_succ_self _) (by omega)
  rw [Nat.add_mul, Nat.one_mul] at hlt
  rw [Nat.mul_left_comm] at hle hlt
  omega

theorem getPll_measured {s : State} {ps : List (F32 × F32)} {plls : List Adpll} (hs : s.clk.plls = plls.mapIdx (measuredPll ps)) {i : Nat} (hi : i < plls.length) {x : F32 × F32} (hx : ps[i]? = some x) :
    (getPll s i).fMeas = x.1 ∧ (getPll s i).phaseRms = x.2 := by
  have hget : getPll s i = measuredPll ps i plls[i] := by
    unfold getPll
    rw [hs]
    simp [List.getD, hi]
  rw [hget]
  unfold measuredPll
  rw [hx]
  exact ⟨rfl, rfl⟩

theorem countReached_of_clock {s : State} (h : s.time.fbStart = none) (t : Nat) : countReached s t = t := by
  unfold countReached
  rw [h]


/-- `m` is what a publication instant of `s` assembles its image from: `s` at that instant, with its measurements, after the swap. -/
structure Moment (v : List U32) (tj : U32) (ps : List (F32 × F32)) (s m : State) : Prop where
  sys : m.sys = s.sys
  pwm : m.pwm = s.pwm
  evt : m.evt = s.evt
  safe : m.safe = s.safe
  loop : m.loop = s.loop
  sage : m.sage = s.sage
  img : m.img = (swapImage s).img
  active : m.time.active = s.time.active
  raw : m.time.raw = max s.time.raw (countReached s s.img.due)
  volts : m.sup.volts = v
  tj : m.sup.tj = tj
  plls : m.clk.plls = s.clk.plls.mapIdx (measuredPll ps)

theorem pubMoment_moment (v : List U32) (tj : U32) (ps : List (F32 × F32)) (s : State) : Moment v tj ps s (pubMoment v tj ps s) := by
  obtain ⟨x, hx⟩ := pubMoment_eq v tj ps s
  rw [hx]
  exact ⟨rfl, rfl, rfl, rfl, rfl, rfl, rfl, rfl, rfl, rfl, rfl, rfl⟩

theorem image_restored {i : Image} {rate : U32} {due : Nat} (hb : i.back = none) (hr : i.rate = rate) (hd : i.due = due) : { i with back := none, rate := rate, due := due } = i := by
  subst hr hd
  rw [← hb]

section
variable {v : List U32} {tj : U32} {ps : List (F32 × F32)} {s m : State} (hm : Moment v tj ps s m)
include hm

/-- What the image was assembled from, told from the state after the publication instant. -/
theorem moment_of_after {t : State} {l : Loop} {x : Sage} (ht : t = { m with img := pubImage m s, loop := l, sage := x }) :
    { t with loop := s.loop, sage := s.sage, img := { t.img with back := none, rate := s.img.rate, due := s.img.due } } = m := by
  obtain ⟨hback, hrate, -, hdue, -⟩ := swapImage_img s
  rw [← hm.img] at hback hrate hdue
  have hrestored : { t.img with back := none, rate := s.img.rate, due := s.img.due } = m.img := by
    rw [ht]
    exact image_restored hback hrate hdue
  rw [hrestored, ht, ← hm.loop, ← hm.sage]

/-- The header shows the device and the stages of the instant. -/
theorem moment_header (r : Nat) : memReadBytes (assemble m r) 0 64
    = le32 (m.img.epoch + 1) ++ le32 (timeAt m r) ++ n8 (devCode s.sys.dev) ++ n8 (lcCode s.sys.lifecycle) ++ n8 s.time.active ++ [0] ++ le32 s.img.rate
      ++ n32 (flag (s.sys.lifecycle == .develop) 0 + flag s.safe.block.isSome 1 + flag (s.sys.dev == .safe) 2 + flag (eventsPending s) 3 + flag s.sys.stateChange 4
        + 256 * bitField ((List.range 8).filter (fun n => (getStage s n).overrunPub)))
      ++ n16 1 ++ zeros 10 ++ (List.range 8).flatMap (fun n => le32 (if commitLate m r n = true then (getStage s n).prevFrame else (getStage s n).cFrame)) := by
  have hrate : m.img.rate = s.img.rate := by rw [hm.img]; exact (swapImage_img s).2.1
  rw [assemble_header]
  simp only [headerBytes, publishedFrame, eventsPending, hm.sys, hm.active, hrate, hm.safe, hm.evt, getStage_of_loop hm.loop]

/-- A stage's range is that of its newest commit, or of the one before while that commit is late. -/
theorem moment_stage (r : Nat) {n : Nat} (hn : n < 8) :
    (commitLate m r n = false → ∀ k, k < 512 → k < (stageRange m n).length → memRead (assemble m r) (0x1000 + 0x200 * n + k) = (stageRange m n).getD k 0)
    ∧ (commitLate m r n = true → ∀ k, 4 ≤ k → k < 512 → k < (getStage s n).prevRange.length →
        memRead (assemble m r) (0x1000 + 0x200 * n + k) = (getStage s n).prevRange.getD k 0) := by
  refine ⟨fun hc k hk hl => ?_, fun hc k h4 hk hl => ?_⟩
  · have h := assemble_stage m r hn hk (by rw [publishedRange_of_early hc]; exact hl)
    rwa [publishedRange_of_early hc] at h
  · rw [← getStage_of_loop hm.loop] at hl ⊢
    obtain ⟨hlen, hget⟩ := publishedRange_of_late hc h4 hl
    exact (assemble_stage m r hn hk hlen).trans hget

/-- A stage's word is that of the same commit. -/
theorem moment_word (r : Nat) {n k : Nat} {g : Machine.Graph} {w : U32} (hn : n < 8) (hothers : ∀ o < 8, o ≠ n → (getStage s o).graph = none)
    (hg : (getStage s n).graph = some g) (hk : k < g.pubWords) (hw : (if commitLate m r n = true then (getStage s n).prevPub else (getStage s n).pub) = [(k, w)]) :
    memReadBytes (assemble m r) (0x7000 + 4 * (g.pubBase + k)) 4 = le32 w := by
  simp only [← getStage_of_loop hm.loop] at hothers hg hw
  exact assemble_word hn hothers hg hk hw

end

/-- Settles O56: each piece of an image is read back at its address, a word of a memory is followed through its count, its row and
its reaction, and a row through its remap and its log entry. -/
theorem publicationScrubAndRepairs : Obligations.PublicationScrubAndRepairs := by
  unfold Obligations.PublicationScrubAndRepairs
  intro s hsized
  refine ⟨fun hidle v tj ps => publicationInstant_of_idle hidle v tj ps, fun hrun hrate v tj ps => ?_, fun h => congrArg _ (swapImage_of_none h),
    fun b h => congrArg _ (swapImage_of_back h), fun h m w bits use scrub hm => scrubRead_of_dead_log hm h w bits use scrub, fun m w use scrub hm => ?_,
    fun hlive hlast m w use hm hu => scrubRead_clean_last hm hlive hlast hu w, fun hlive m w use scrub hm hinner => ?_, rowRemap_of_none,
    fun r k e hr hk hk4 hi hrow hre hc he => rowRemap_of_spare hr hk hk4 hi hrow hre hc he, fun r hr hk h18 => rowRemap_of_full hr hk h18,
    repairLogWriteDone_of_none, fun e l k hq hused _ hwf => hused ▸ repairLogWriteDone_of_queued hq hwf⟩
  · obtain ⟨t, l, st, hexec, ht, hover⟩ := publicationInstant_spec hrun v tj ps
    have hm := pubMoment_moment v tj ps s
    generalize pubMoment v tj ps s = m at hm ht
    have himg : t.img = pubImage m s := by rw [ht]
    have htime : t.time = m.time := by rw [ht]
    have hsage : t.sage.hostActive = anyActive s ∧ t.sage.hostEnded = ((s.sage.hostEnded || s.sage.hostActive) && !anyActive s) := by rw [ht]; exact ⟨rfl, rfl⟩
    have hlen : s.clk.plls.length = 2 := hsized.2.2.2.1.1
    obtain ⟨-, -, hnew, -, hnone, hsome⟩ := swapImage_img s
    rw [← hm.img] at hnew hnone hsome
    obtain ⟨hle, hlt⟩ := pubPeriod_spec hrate
    refine ⟨t, assemble m (countReached s s.img.due), hexec, by rw [himg]; rfl, by rw [htime, hm.raw], fun hc => countReached_of_clock hc _,
      by rw [himg]; exact hnew, by rw [himg]; exact hnew, ⟨pubPeriod s.img.newRate.toNat, by rw [himg, ← hnew]; rfl, hle, hlt⟩,
      by rw [ht]; exact hm.volts, by rw [ht]; exact hm.tj, fun i hi y hy => getPll_measured (by rw [ht]; exact hm.plls) (by omega) hy,
      by rw [himg]; exact hnone, by rw [himg]; exact hsome, by rw [hsage.1]; exact anyActive_iff s, ?_,
      by rw [ht]; exact hover, by rw [ht]; exact hm.sys, by rw [ht]; exact hm.pwm, by rw [ht]; exact hm.evt, fun u r hr hu => ?_⟩
    · rw [hsage.2, Bool.and_eq_true, Bool.or_eq_true, Bool.not_eq_true', ← Bool.not_eq_true, anyActive_iff]
      simp only [ne_eq, not_exists, not_and, not_not]
    · have hum : u = m := hu.trans (moment_of_after hm ht)
      have htimeAt : timeAt t r = timeAt m r := by rw [timeAt, timeAt, timeNs, timeNs, htime]
      subst hum
      rw [himg, htimeAt, ← hr]
      exact ⟨rfl, moment_header hm r, fun n hn => (moment_stage hm r hn).1, fun n hn => (moment_stage hm r hn).2, fun i hi k hk hl => assemble_fu u r hi hk hl,
        fun n g k w hn hothers hg hk hw => moment_word hm r hn hothers hg hk hw⟩
  · exact ⟨by rw [scrubRead_of_sage hm, sageWordBad_of_idle (.inl rfl)], fun hoff bits => by rw [scrubRead_of_sage hm, sageWordBad_of_idle (.inr hoff)],
      fun hon => ⟨fun hf => scrubRead_sage_fresh hm hon hf use scrub, fun hrows bits hb => scrubRead_sageRow hm hon hrows hb scrub,
        fun c i l hc _ hs hl => scrubRead_sageCopy hm hon hc hs hl scrub⟩⟩
  · exact ⟨fun hu => scrubRead_clean_inner hm hlive hinner hu w scrub, fun p e hu => scrubRead_clean_can hm hlive hinner hu w scrub,
      fun hf ht => scrubRead_transient hm hlive hf ht use scrub, fun bits x hb hx hr hw => scrubRead_permanent hm hlive hb hx hr hw use scrub,
      fun a h18 h33 ha hi hwf => scrubRead_spoilt_graph hm hlive h18 h33 ha hi hwf use scrub,
      fun n h18 h33 hi hoff => scrubRead_spoilt_image hm hlive h18 h33 hi hoff use scrub,
      fun h18 hs => scrubRead_spoilt_engine hm hlive h18 hs w use scrub, fun h33 hwf => scrubRead_spoilt_filter hm hlive h33 hwf w scrub,
      fun a h42 h106 ha hd hwf => scrubRead_spoilt_capture hm hlive h42 h106 ha hd hwf use scrub,
      fun h34 h42 hu => scrubRead_spoilt_entry hm hlive h34 h42 hu w scrub, fun h34 h42 => scrubRead_spoilt_house hm hlive h34 h42 w scrub,
      fun h106 hdev hc => scrubRead_spoilt_safety hm hlive h106 hdev hc w use scrub⟩

end Sys2Proof.Proofs

namespace Sys2Proof.Proofs

open Sys2Proof Sys2Proof.Machine Sys2Proof.Claims Sys2Proof.Laws

/-! ### Events in the log (R85, R87) -/

/-- A capture that does not listen takes no event as its trigger (R489). -/
theorem post_deaf {s : State} (h : capListens s = false) (code : U16) (source : Nat) (data : Bytes) :
    post code source data s = logEvent code source data s := by
  obtain ⟨e, he⟩ := logEvent_eq code source data s
  rw [post, he, capEvent_of_deaf (by exact h)]

theorem post_of_room {s : State} (hlive : logLive s = true) (hroom : s.evt.entries.length < 4095) (hdeaf : capListens s = false)
    (code : U16) (source : Nat) (data : Bytes) :
    post code source data s =
      { s with evt := { s.evt with entries := s.evt.entries ++ [entryOf s code source data], nextSeq := s.evt.nextSeq + 1 } } := by
  rw [post_deaf hdeaf, logEvent, if_neg (by simp [hlive]), if_neg (by omega)]
  rfl

theorem post_of_full {s : State} (hlive : logLive s = true) (hfull : s.evt.entries.length ≥ 4095) (hdeaf : capListens s = false)
    (code : U16) (source : Nat) (data : Bytes) :
    post code source data s =
      { s with evt := { s.evt with lost := if s.evt.lost = 0xFFFFFFFF#32 then s.evt.lost else s.evt.lost + 1 } } := by
  rw [post_deaf hdeaf, logEvent, if_neg (by simp [hlive]), if_pos hfull]
  rfl

/-! ### A request row, by what its card makes of the request (R55) -/

section
variable {mine : Req → Bool} {card : Card} {via : Transport} {s : State} {r : Req} {op : U16} (h : Takes op via s r) (hm : mine r = true)
  (hl : card.lifecycle (dropRequest s via) r = true) (ha : card.allowed s.sys.dev = true)
include h hm hl ha

theorem next_runCard_done {t : State} {pl : Bytes} (hr : card.run (taken s via) r = .done t pl) :
    Host.Outcome.next (runCard mine card via s) = replied r OK pl t := congrArg _ (runCard_done h hm hl ha hr)

theorem next_runCard_long {t : State} {k : Nat} {pl : Bytes} (hr : card.run (taken s via) r = .long t k pl) :
    Host.Outcome.next (runCard mine card via s) = accepted r k pl t := congrArg _ (runCard_long h hm hl ha hr)

theorem next_runCard_failed {t : State} {st : U16} {pl : Bytes} (hr : card.run (taken s via) r = .failed t st pl) :
    Host.Outcome.next (runCard mine card via s) = replied r st pl t := congrArg _ (runCard_failed h hm hl ha hr)

theorem next_runCard_reject {st : U16} {pl : Bytes} (hr : card.run (taken s via) r = .reject st pl) :
    Host.Outcome.next (runCard mine card via s) = replied r st pl (dropRequest s via) := congrArg _ (runCard_reject h hm hl ha hr)

end

/-- A card that the device state does not allow (R55, step 6). -/
theorem next_runCard_refused_state {mine : Req → Bool} {card : Card} {via : Transport} {s : State} {r : Req} {op : U16} (h : Takes op via s r) (hm : mine r = true)
    (hl : card.lifecycle (dropRequest s via) r = true) (ha : card.allowed s.sys.dev = false) :
    Host.Outcome.next (runCard mine card via s) = replied r E_STATE [] (dropRequest s via) := by
  obtain ⟨hr, -, hh⟩ := h
  simp [runCard, carryOut, hr, hm, hh, hl, ha, replied]

/-- A card that the lifecycle state does not allow (R55, step 5). -/
theorem next_runCard_refused_lifecycle {mine : Req → Bool} {card : Card} {via : Transport} {s : State} {r : Req} {op : U16} (h : Takes op via s r) (hm : mine r = true)
    (hl : card.lifecycle (dropRequest s via) r = false) :
    Host.Outcome.next (runCard mine card via s) = replied r E_LIFECYCLE [] (dropRequest s via) := by
  obtain ⟨hr, -, hh⟩ := h
  simp [runCard, carryOut, hr, hm, hh, hl, replied]

theorem inAll4_of_ne_boot {d : DevState} (h : d ≠ .boot) : inAll4 d = true := by cases d <;> simp_all [inAll4]

/-! ### EVT_ACK (R87, R90) -/

@[simp] theorem newestRead_taken (s : State) (via : Transport) : newestRead (taken s via) = newestRead s := by simp [newestRead]
@[simp] theorem logLive_taken (s : State) (via : Transport) : logLive (taken s via) = logLive s := by simp [logLive]

/-- Whether the capture listens shows in time and in the capture alone. -/
theorem capListens_congr {s t : State} (ht : t.time = s.time) (hc : t.cap = s.cap) : capListens t = capListens s := by
  have hcycle (r : Nat) : hostCycle t r = hostCycle s r := by rw [hostCycle, hostCycle, ht]
  have htogether : together t = together s := by rw [together, together, hcycle, hcycle, hc, ht]
  have hedge (e : CapEdge) : edgeNow t e = edgeNow s e := by rw [edgeNow, edgeNow, hcycle, hcycle, ht]
  have hsame : sameCycle t = sameCycle s := by simp only [sameCycle, hedge, htogether, hc]
  rw [capListens, capListens, hc, htogether, hsame]

/-- The entries that an acknowledgement up to a sequence leaves: those not read, and those beyond it. -/
def keptEntries (upto : U32) (l : List LogEntry) : List LogEntry := l.filter (fun e => !(e.read && decide (¬ 0 < (e.seq - upto).toInt)))

theorem keptEntries_eq_filter_seqAfter (upto : U32) (l : List LogEntry) : l.filter (fun e => !(e.read && !seqAfter e.seq upto)) = keptEntries upto l := by
  simp only [keptEntries, seqAfter, decide_not]

section
variable {s : State} {r : Req} {upto : U32} (hp : reqParams r = le32 upto)
include hp

theorem evtAck_run_beyond (h : 0 < (upto - newestRead s).toInt) : cardEvtAck.run s r = .reject E_PARAM [] := by
  simp only [cardEvtAck, hp, u32At_le32]
  exact if_pos (.inr (decide_eq_true h))

theorem evtAck_run (h : ¬ 0 < (upto - newestRead s).toInt) {s' : State}
    (hs : s' = if s.evt.entries.length - (keptEntries upto s.evt.entries).length > 0
      then overflowEntry { s with evt := { s.evt with entries := keptEntries upto s.evt.entries } }
      else { s with evt := { s.evt with entries := keptEntries upto s.evt.entries } }) :
    cardEvtAck.run s r = .done s' (n16 (s.evt.entries.length - (keptEntries upto s.evt.entries).length) ++ n16 s'.evt.entries.length) := by
  subst hs
  simp only [cardEvtAck, hp, u32At_le32, keptEntries_eq_filter_seqAfter]
  exact if_neg (not_or.mpr ⟨fun hne => hne rfl, fun hafter => h (of_decide_eq_true hafter)⟩)

end

theorem overflowEntry_of_none_lost {s : State} (h : s.evt.lost = 0) : overflowEntry s = s := by simp [overflowEntry, h]

theorem overflowEntry_of_lost {s : State} (h : s.evt.lost ≠ 0) (hroom : s.evt.entries.length < 4095) (hlive : logLive s = true) (hdeaf : capListens s = false) :
    overflowEntry s = { s with evt := { s.evt with
      lost := 0, entries := s.evt.entries ++ [entryOf s 0x0104#16 0 (le32 s.evt.lost)], nextSeq := s.evt.nextSeq + 1 } } := by
  rw [overflowEntry, if_pos ⟨h, hroom⟩, post_of_room (by exact hlive) (by exact hroom) (by exact hdeaf)]
  rfl

/-- Settles O4, by the three things that an event can do to a log without a listening capture. -/
theorem eventsEnterTheLog : Obligations.EventsEnterTheLog := by
  unfold Obligations.EventsEnterTheLog
  refine ⟨fun code source data s hlive => ⟨post_log .., fun hroom hdeaf => post_of_room hlive hroom hdeaf .., fun hfull hdeaf => post_of_full hlive hfull hdeaf ..⟩, ?_⟩
  intro via s r upto keep htakes hdev hp hle hlost hlive hdeaf hkeep hfewer hroom
  replace hkeep : keep = keptEntries upto s.evt.entries := hkeep
  subst hkeep
  have hover := overflowEntry_of_lost (s := { taken s via with evt := { s.evt with entries := keptEntries upto s.evt.entries } }) hlost hroom
    ((logLive_taken s via).trans hlive) ((capListens_congr (taken_time s via) (taken_cap s via)).trans hdeaf)
  refine next_runCard_done htakes (isOp_takes htakes) rfl (inAll4_of_ne_boot hdev) ?_
  rw [evtAck_run hp (by simpa using hle) rfl, taken_evt, if_pos (by omega), hover]
  simp [entryOf, activeTime, activeNs]

/-- Settles O11: beyond the newest read entry EVT_ACK rejects, else it drops the acknowledged entries and no other. -/
theorem evtAckFreesReadEntriesOnly : Obligations.EvtAckFreesReadEntriesOnly := by
  unfold Obligations.EvtAckFreesReadEntriesOnly
  intro via s r upto htakes hdev hp
  refine ⟨fun h => next_runCard_reject htakes (isOp_takes htakes) rfl (inAll4_of_ne_boot hdev) (evtAck_run_beyond hp (by simpa using h)), fun h hlost => ?_⟩
  refine next_runCard_done htakes (isOp_takes htakes) rfl (inAll4_of_ne_boot hdev) ?_
  rw [evtAck_run hp (by simpa using h) rfl, taken_evt, overflowEntry_of_none_lost (by exact hlost), ite_self]
  rfl

/-! ### EVT_READ (R89) -/

theorem unread_markRead (n : Nat) (l : List LogEntry) :
    (markRead n l).filter (fun e => !e.read) = (l.filter (fun e => !e.read)).drop n := by
  induction l generalizing n with
  | nil => simp [markRead]
  | cons e l ih =>
    cases n with
    | zero => simp [markRead]
    | succ n => cases h : e.read <;> simp [markRead, h, ih]

/-- Marking entries read changes nothing else of them and moves none. -/
theorem markRead_map_unread (n : Nat) (l : List LogEntry) :
    (markRead n l).map (fun e => { e with read := false }) = l.map (fun e => { e with read := false }) := by
  induction l generalizing n with
  | nil => simp [markRead]
  | cons e l ih =>
    cases n with
    | zero => simp [markRead]
    | succ n => cases h : e.read <;> simp [markRead, h, ih]

theorem n16At_le16_append (m : U16) (b : Bytes) : n16At (le16 m ++ b) 0 = m.toNat := congrArg BitVec.toNat (u16At_le16 m)

/-- Settles O10: the log after it is the one with the first m unread entries marked read. -/
theorem evtReadReturnsOldestUnread : Obligations.EvtReadReturnsOldestUnread := by
  unfold Obligations.EvtReadReturnsOldestUnread
  intro via s r m htakes hdev hp
  have hlen : (le16 m ++ [0, 0]).length = 4 := rfl
  have hzero : zeroAt (le16 m ++ [0, 0]) 2 2 = true := rfl
  refine ⟨fun hlo hhi => ⟨markRead m.toNat s.evt.entries, ?_, unread_markRead .., markRead_map_unread ..⟩, fun hm => ?_⟩
  · refine next_runCard_done htakes (isOp_takes htakes) rfl (inAll4_of_ne_boot hdev) ?_
    obtain ⟨k, hk⟩ : ∃ k, m.toNat = k + 1 := Nat.exists_eq_add_of_le' hlo
    simp only [cardEvtRead, hp, hlen, hzero, n16At_le16_append, taken_evt, hk]
    rw [if_neg (by simp; omega)]
    cases s.evt.entries.filter (fun e => !e.read) <;> rfl
  · refine next_runCard_reject htakes (isOp_takes htakes) rfl (inAll4_of_ne_boot hdev) ?_
    simp only [cardEvtRead, hp, hlen, hzero, n16At_le16_append]
    exact if_pos (by omega)

/-! ### EVT_MASK (R91) -/

theorem drivesAttn_iff (t : State) (e : LogEntry) : drivesAttn t e = true ↔
    1 ≤ e.code.toNat / 256 ∧ e.code.toNat / 256 ≤ 15 ∧ t.evt.mask.getLsbD (e.code.toNat / 256) = true ∧ e.code ∉ t.evt.excl := by
  rw [show e.code.toNat / 256 = opClass e.code from rfl]
  simp [drivesAttn, and_assoc]

/-- Settles O12. -/
theorem evtMaskGovernsAttentionOnly : Obligations.EvtMaskGovernsAttentionOnly := by
  unfold Obligations.EvtMaskGovernsAttentionOnly
  intro via s r n htakes hdev hn hle hlen hz6 hz2
  refine ⟨next_runCard_done htakes (isOp_takes htakes) rfl (inAll4_of_ne_boot hdev) ?_, drivesAttn_iff⟩
  simp [cardEvtMask, hn, hlen, hz6, hz2, Nat.not_lt.mpr hle]

/-! ### Opcodes without a card (R81, R82) -/

/-- An intact request, well formed in length and header, is checked next by its opcode (R55, steps 1 to 3). -/
theorem headerCheck_of_wellFormed {s : State} {r : Req} (href : r.refusal = none)
    (hcrc : crc32c (r.bytes.take (r.bytes.length - 4)) = u32At r.bytes (r.bytes.length - 4)) (hmax : reqLength r ≤ 1024)
    (hlen : r.bytes.length = 12 + reqLength r) (hres : byteAt r.bytes 5 = 0) (hflags : (reqFlags r).extractLsb' 3 5 = 0) :
    (opClass (reqOpcode r) = 0x7F → headerCheck s r =
        if s.sys.lifecycle = .production ∨ s.sys.lifecycle = .commissioned ∨ s.sys.lifecycle = .ended then some E_LIFECYCLE
        else if !s.sys.vendorOpen then some E_AUTH else none)
      ∧ (opClass (reqOpcode r) ≠ 0x7F → assigned (reqOpcode r) = false → headerCheck s r = some E_OPCODE) := by
  have hmax' : ¬ (reqLength r > 1024 ∨ r.bytes.length ≠ 12 + reqLength r) := by omega
  constructor
  · intro hclass
    rw [headerCheck, href, if_neg (by simp), if_neg (by simp [hcrc]), if_neg hmax', if_neg (by simp [hres, hflags]), if_pos hclass]
  · intro hclass hun
    rw [headerCheck, href, if_neg (by simp), if_neg (by simp [hcrc]), if_neg hmax', if_neg (by simp [hres, hflags]), if_neg hclass,
      if_pos (by simp [hun])]

/-- A vendor opcode is answered where a check of R81 fails, and stops the model where none does. -/
theorem vendorTestOpcode_of_next {via : Transport} {s : State} {r : Req} (hr : nextRequest s via = some r) (hclass : opClass (reqOpcode r) = 0x7F) :
    exec (.vendorTestOpcode via) s = (match headerCheck (dropRequest s via) r with
      | some st => replied r st [] (dropRequest s via)
      | none => .refused (.vendorTest (reqOpcode r))) := by
  show execVendorTestOpcode via s = _
  simp only [execVendorTestOpcode, hr, hclass]
  rfl

/-- Settles O14. -/
theorem unassignedAndVendorOpcodes : Obligations.UnassignedAndVendorOpcodes := by
  unfold Obligations.UnassignedAndVendorOpcodes
  intro via s r hr href hcrc hmax hlen hres hflags
  obtain ⟨hvendor, hunassigned⟩ := headerCheck_of_wellFormed (s := dropRequest s via) href hcrc hmax hlen hres hflags
  refine ⟨fun hun hclass => congrArg _ (runCard_refused hr (by simp [hun, hclass]) (hunassigned hclass hun)), fun hclass => ?_⟩
  rw [vendorTestOpcode_of_next hr hclass, hvendor hclass, dropRequest_sys]
  refine ⟨fun hl => by rw [if_pos hl], fun hp hc he hv => ?_, fun hp hc he hv => ?_⟩
  · rw [if_neg (by simp [hp, hc, he]), if_pos (by simp [hv])]
  · rw [if_neg (by simp [hp, hc, he]), if_neg (by simp [hv])]

end Sys2Proof.Proofs

namespace Sys2Proof.Proofs

open Sys2Proof Sys2Proof.Machine Sys2Proof.Claims Sys2Proof.Laws

/-! ### Reply packets (R51) -/

theorem le16_u16At (b : Bytes) (i : Nat) : le16 (u16At b i) = [byteAt b i, byteAt b (i + 1)] := by
  rw [le16, u16At, BitVec.extractLsb'_append_eq_right, BitVec.extractLsb'_append_eq_left]

theorem slice_replyBytes_opcode (s : State) (c u : Bool) (op : U16) (tag : Byte) (st : U16) (pl : Bytes) :
    slice (replyBytes s c u op tag st pl) 2 3 = le16 op ++ [tag] := rfl

theorem u16At_replyBytes_status (s : State) (c u : Bool) (op : U16) (tag : Byte) (st : U16) (pl : Bytes) :
    u16At (replyBytes s c u op tag st pl) 6 = st := u16At_le16 st

/-! ### Immediate replies (R47, R53, R64) -/

/-- An immediate reply of the command port, as it stands in the reply queue. -/
def cmdReply (s : State) (op : U16) (tag : Byte) (st : U16) (pl : Bytes) (reserved : Bool) : QReply :=
  { bytes := replyBytes s false false op tag st pl, completion := false, reserved := reserved }

theorem replyTo_of_suppressed {r : Req} {st : U16} (hno : reqNoReply r = true) (hst : isError st = false) (pl : Bytes) (s : State) :
    replyTo r st pl s = s := by simp [replyTo, hno, hst]

section
variable {r : Req} {st : U16} {s : State} (hvia : r.via = .cmd) (hwait : s.cmd.waiting = []) (hroom : repliesHeld s < 16)
include hvia hwait hroom

theorem replyTo_cmd_error (hst : isError st = true) (pl : Bytes) :
    replyTo r st pl s = { s with
      sys := { s.sys with errors := s.sys.errors + 1 }
      cmd := { s.cmd with replies := s.cmd.replies ++ [cmdReply s (reqOpcode r) (reqTag r) st pl false] } } := by
  rw [replyTo, if_neg (by simp [hst])]
  simp only [sendReply, hvia, hst, if_true, enqueueReply]
  exact if_pos ⟨by simp [hwait], hroom⟩

theorem replyTo_cmd_ok (hst : isError st = false) (hno : reqNoReply r = false) (pl : Bytes) :
    replyTo r st pl s = { s with cmd := { s.cmd with replies := s.cmd.replies ++ [cmdReply s (reqOpcode r) (reqTag r) st pl false] } } := by
  rw [replyTo, if_neg (by simp [hno])]
  simp only [sendReply, hvia, hst, enqueueReply]
  exact if_pos ⟨by simp [hwait], hroom⟩

end

/-! ### Refused packets whose turn has come (R62) -/

/-- The next request of a transport stands in one of the queues. -/
theorem queued_of_nextRequest {s : State} {v : Transport} {q : Req} (h : nextRequest s v = some q) : 0 < s.cmd.requests.length + s.udp.queue.length := by
  unfold nextRequest at h
  split at h
  · cases h
  · cases v with
    | cmd =>
      simp only [frontRequest] at h
      split at h
      · have := List.length_pos_of_mem (List.mem_of_head? h); omega
      · cases h
    | udp p sid =>
      have := List.length_pos_of_mem (List.mem_of_find?_eq_some h); omega

theorem flushRefused_step {s : State} {v : Transport} {q : Req} {e : U16} (h : nextRequest s v = some q) (he : q.refusal = some e) (n : Nat) :
    flushRefused v (n + 1) s = flushRefused v n (replyTo q e [] (dropRequest s v)) := by
  simp [flushRefused, h, he]

theorem flushRefused_idle {s : State} {v : Transport} (h : nextRequest s v = none) (n : Nat) : flushRefused v n s = s := by
  cases n <;> simp [flushRefused, h]

theorem flushTurn_refused {s : State} {v : Transport} {q : Req} {e : U16} (h : nextRequest s v = some q) (he : q.refusal = some e) :
    ∃ n, flushTurn v s = flushRefused v n (replyTo q e [] (dropRequest s v)) := by
  obtain ⟨n, hn⟩ := Nat.exists_eq_add_of_le' (queued_of_nextRequest h)
  exact ⟨n, by rw [flushTurn, hn, flushRefused_step h he]⟩

/-- Settles O5. -/
theorem repliesReachTheirTransportOnly : Obligations.RepliesReachTheirTransportOnly := by
  unfold Obligations.RepliesReachTheirTransportOnly
  intro r st pl s
  refine ⟨replyTo_reply .., fun hno hst => replyTo_of_suppressed hno hst .., fun hvia hst hwait hroom => ?_,
    fun hvia hst hno hwait hroom => replyTo_cmd_ok hvia hwait hroom hst hno pl,
    fun v => ⟨flushTurn_reply .., flushTurn_idle, fun q e hq he => flushTurn_refused hq he⟩⟩
  rw [replyTo_cmd_error hvia hwait hroom hst pl]
  exact ⟨rfl, rfl⟩

/-! ### Transactions of the command port (R42 to R49) -/

theorem cmdReply_opcode (s : State) (b : Bytes) (st : U16) (pl : Bytes) (k : Bool) :
    slice (cmdReply s (u16At b 2) (byteAt b 4) st pl k).bytes 2 3 = [byteAt b 2, byteAt b 3, byteAt b 4] := by
  rw [cmdReply, slice_replyBytes_opcode, le16_u16At]; rfl

theorem cmdReply_status (s : State) (op : U16) (tag : Byte) (st : U16) (pl : Bytes) (k : Bool) : u16At (cmdReply s op tag st pl k).bytes 6 = st :=
  u16At_replyBytes_status ..

theorem requestWrite_of_open {s : State} (h : s.cmd.isOpen = true) (cpol : Bool) (bytes : Bytes) :
    exec (.requestWrite cpol bytes) s =
      .next (if busyLevel s then refuseBusy bytes (afterMiso s cpol (zeros (bytes.length - 1))) else takePacket bytes (afterMiso s cpol (zeros (bytes.length - 1)))) := by
  show execRequestWrite cpol bytes s = _
  simp only [execRequestWrite, h]
  rfl

theorem takePacket_whole {bytes : Bytes} (h : 12 + n16At bytes 6 ≤ bytes.length) (s : State) :
    takePacket bytes s = { s with cmd := { s.cmd with requests := s.cmd.requests ++ [cmdReq none (bytes.take (12 + n16At bytes 6))] } } := by
  unfold takePacket
  exact (if_neg (by omega)).trans (if_neg (by omega))

theorem takePacket_stub {bytes : Bytes} (h : bytes.length < 8) (s : State) : takePacket bytes s = framingEvent (byteAt bytes 0) bytes.length s := by
  unfold takePacket
  exact if_pos h

theorem takePacket_cut {bytes : Bytes} (h8 : 8 ≤ bytes.length) (h : bytes.length < 12 + n16At bytes 6) {s t : State} (ht : t = framingEvent (byteAt bytes 0) bytes.length s) :
    takePacket bytes s = flushTurn .cmd { t with cmd := { t.cmd with requests := t.cmd.requests ++ [cmdReq (some E_LENGTH) bytes] } } := by
  subst ht
  unfold takePacket
  exact (if_neg (by omega)).trans (if_pos h)

/-- No request waits at the command port, no reply waits, and none is owed: the port is at rest. -/
structure PortAtRest (s : State) : Prop where
  requests : s.cmd.requests = []
  waiting : s.cmd.waiting = []
  held : s.cmd.held = none
  replies : s.cmd.replies = []
  owes : awaitsReply s .cmd = false

theorem nextRequest_cmd_of_rest {s : State} (h : PortAtRest s) (l : List Req) :
    nextRequest { s with cmd := { s.cmd with requests := l } } .cmd = l.head? := by
  have howes : awaitsReply { s with cmd := { s.cmd with requests := l } } .cmd = false := h.owes
  have hheld : pairHeld { s with cmd := { s.cmd with requests := l } } .cmd = false := by simp [pairHeld, h.held]
  have hroom : repliesHeld { s with cmd := { s.cmd with requests := l } } + s.cmd.waiting.length < 16 := by simp [repliesHeld, h.replies, h.waiting]
  rw [nextRequest, howes, hheld]
  exact if_pos hroom

/-- A refused packet that comes to a port at rest is answered at once. -/
theorem flushTurn_cmd_of_rest {s : State} (h : PortAtRest s) {q : Req} (hvia : q.via = .cmd) {e : U16} (he : q.refusal = some e) (herr : isError e = true) :
    flushTurn .cmd { s with cmd := { s.cmd with requests := [q] } } =
      { s with sys := { s.sys with errors := s.sys.errors + 1 }, cmd := { s.cmd with replies := [cmdReply s (reqOpcode q) (reqTag q) e [] false] } } := by
  obtain ⟨n, hn⟩ := flushTurn_refused (nextRequest_cmd_of_rest h [q]) he
  have hdrop : dropRequest { s with cmd := { s.cmd with requests := [q] } } .cmd = s := by
    obtain ⟨hreq, -, hheld, -, -⟩ := h
    show { s with cmd := { s.cmd with held := none, requests := [] } } = s
    rw [← hreq, ← hheld]
  rw [hn, hdrop, replyTo_cmd_error hvia h.waiting (by simp [repliesHeld, h.replies]) herr, h.replies]
  refine flushRefused_idle ?_ n
  show (if _ then _ else _) = _
  simp [frontRequest, h.requests]

/-- The truncated transaction and the event for it leave a port at rest. -/
theorem PortAtRest.framing {s : State} (h : PortAtRest s) (cpol : Bool) (tail : Bytes) (first : Byte) (n : Nat) :
    PortAtRest (framingEvent first n (afterMiso s cpol tail)) := by
  have hcmd : (framingEvent first n (afterMiso s cpol tail)).cmd = (afterMiso s cpol tail).cmd := post_cmd ..
  have hsense : (framingEvent first n (afterMiso s cpol tail)).sense = s.sense := post_sense ..
  exact ⟨hcmd ▸ h.requests, hcmd ▸ h.waiting, hcmd ▸ h.held, hcmd ▸ h.replies, by rw [awaitsReply, hsense]; exact h.owes⟩

theorem refuseBusy_of_taken {s : State} (h : s.cmd.replies.any (·.reserved) = true) (bytes : Bytes) : refuseBusy bytes s = post 0x0107#16 0 [] s := by
  simp [refuseBusy, h]

theorem refuseBusy_of_free {s t : State} (h : s.cmd.replies.any (·.reserved) = false) (bytes : Bytes) (ht : t = post 0x0107#16 0 [] s) :
    refuseBusy bytes s = { t with
      sys := { t.sys with errors := t.sys.errors + 1 }
      cmd := { t.cmd with replies := t.cmd.replies ++ [cmdReply t (u16At bytes 2) (byteAt bytes 4) E_QUEUE_FULL [] true] } } := by
  have hcmd : t.cmd = s.cmd := ht ▸ post_cmd ..
  simp only [refuseBusy, ← ht]
  exact if_neg (by simp [hcmd, h])

/-- Settles O6. -/
theorem commandPortTransactions : Obligations.CommandPortTransactions := by
  unfold Obligations.CommandPortTransactions
  refine ⟨fun cpol s hopen => ⟨fun bytes hbusy hlen => ?_, fun bytes t hbusy hlen ht => ?_, fun bytes hbusy hres => ?_, fun n => ?_, fun first n => ?_⟩,
    fun cpol bytes s hopen hbusy hres => ?_⟩
  · rw [requestWrite_of_open hopen, hbusy, if_neg (by simp), takePacket_whole hlen]
    rfl
  · rw [requestWrite_of_open hopen, hbusy, if_neg (by simp)]
    have htcmd : t.cmd = (afterMiso s cpol (zeros (bytes.length - 1))).cmd := ht ▸ post_cmd ..
    refine ⟨fun h8 => by rw [takePacket_stub h8, ht, framingEvent], fun h8 => by rw [takePacket_cut h8 hlen ht, htcmd]; rfl,
      fun h8 hreq hwait hheld hrep howes => ?_⟩
    have hrest := PortAtRest.framing ⟨hreq, hwait, hheld, hrep, howes⟩ cpol (zeros (bytes.length - 1)) (byteAt bytes 0) bytes.length
    rw [show framingEvent _ _ _ = t from ht.symm] at hrest
    rw [takePacket_cut h8 hlen ht, hrest.requests, List.nil_append, flushTurn_cmd_of_rest hrest (q := cmdReq (some E_LENGTH) bytes) rfl rfl rfl]
    exact ⟨_, _, rfl, hrest.requests, rfl, rfl, rfl, cmdReply_opcode .., cmdReply_status .., by rw [ht, post_sys]; rfl⟩
  · rw [requestWrite_of_open hopen, hbusy, if_pos rfl, refuseBusy_of_taken (by exact hres)]
  · show execStatusPoll cpol n s = _
    simp only [execStatusPoll, hopen]
    rfl
  · show execUnknownTransaction cpol first n s = _
    simp only [execUnknownTransaction, hopen]
    rfl
  · rw [requestWrite_of_open hopen, hbusy, if_pos rfl, refuseBusy_of_free (by exact hres) bytes rfl, post_sys, post_cmd]
    exact ⟨_, _, rfl, rfl, rfl, rfl, rfl, cmdReply_opcode .., cmdReply_status .., rfl, rfl, post_pwm .., post_loop .., post_safe .., post_field ..⟩

/-! ### Reading replies (R46, R62, R64) -/

theorem slice_of_le {b : Bytes} {n : Nat} (h : n ≤ b.length) : slice b 0 n = b.take n := by simp [slice, h]
theorem slice_of_ge {b : Bytes} {n : Nat} (h : b.length ≤ n) : slice b 0 n = b ++ zeros (n - b.length) := by simp [slice, zeros, h]

/-- From `s` to `t` replies have been appended to the command port's queue, and none has left it. -/
def RepliesAppended (s t : State) : Prop := ∃ l, t.cmd.replies = s.cmd.replies ++ l

theorem RepliesAppended.of_cmd {s t : State} (h : t.cmd = s.cmd) : RepliesAppended s t := ⟨[], by simp [h]⟩
theorem RepliesAppended.trans {a b c : State} (h : RepliesAppended a b) (k : RepliesAppended b c) : RepliesAppended a c := by
  obtain ⟨l, hl⟩ := h
  obtain ⟨m, hm⟩ := k
  exact ⟨l ++ m, by rw [hm, hl, List.append_assoc]⟩

theorem enqueueReply_appends (q : QReply) (s : State) : RepliesAppended s (enqueueReply q s) := by
  unfold enqueueReply
  split
  · exact ⟨[q], rfl⟩
  · exact ⟨[], by simp⟩

theorem ethSend_cmd (p : Nat) (d : U32) (b : Bytes) (s : State) : (ethSend p d b s).cmd = s.cmd := by
  unfold ethSend ethPut
  (repeat' split) <;> rfl

theorem closeSession_cmd (p : Nat) (q : U32) (k : Nat) (s : State) : (closeSession p q k s).cmd = s.cmd := by
  unfold closeSession
  split
  · rfl
  · exact ((post_log ..).trans (capSessionClosed_log ..)).cmd

theorem sendReply_appends (c : Bool) (v : Transport) (i : U32) (p o : U16) (t : Byte) (st : U16) (b : Bytes) (s : State) :
    RepliesAppended s (sendReply c v i p o t st b s) := by
  unfold sendReply
  dsimp only
  have hcount : (if isError st = true then { s with sys := { s.sys with errors := s.sys.errors + 1 } } else s).cmd = s.cmd := by split <;> rfl
  generalize (if isError st = true then { s with sys := { s.sys with errors := s.sys.errors + 1 } } else s) = u at hcount
  refine (RepliesAppended.of_cmd hcount).trans ?_
  split
  · exact enqueueReply_appends ..
  · split
    · split
      · exact .of_cmd (ethSend_cmd ..)
      · exact .of_cmd rfl
    · split
      · split
        · exact .of_cmd (post_cmd ..)
        · exact .of_cmd rfl
      · split
        · exact .of_cmd ((closeSession_cmd ..).trans (ethSend_cmd ..))
        · exact .of_cmd (ethSend_cmd ..)

theorem replyTo_appends (r : Req) (st : U16) (b : Bytes) (s : State) : RepliesAppended s (replyTo r st b s) := by
  unfold replyTo
  split
  · exact .of_cmd rfl
  · exact sendReply_appends ..

theorem dropRequest_appends (s : State) (v : Transport) : RepliesAppended s (dropRequest s v) := by
  refine ⟨[], ?_⟩
  unfold dropRequest
  cases v with
  | cmd => simp
  | udp p sid =>
    dsimp only
    split
    · simp
    · split
      · simp
      · simp [oweLess, updSession]

theorem flushTurn_appends (v : Transport) (s : State) : RepliesAppended s (flushTurn v s) := by
  unfold flushTurn
  generalize s.cmd.requests.length + s.udp.queue.length = n
  induction n generalizing s with
  | zero => exact .of_cmd rfl
  | succ n ih =>
    unfold flushRefused
    split
    · exact .of_cmd rfl
    · split
      · exact .of_cmd rfl
      · exact ((dropRequest_appends ..).trans (replyTo_appends ..)).trans (ih _)

theorem admitWaiting_eq {s : State} {more rest : List QReply}
    (h : (more, rest) = if repliesHeld s < 16 then (s.cmd.waiting.take 1, s.cmd.waiting.drop 1) else ([], s.cmd.waiting)) :
    admitWaiting s = { s with cmd := { s.cmd with replies := s.cmd.replies ++ more, waiting := rest } } := by
  unfold admitWaiting
  split
  · next hw =>
    rw [hw, List.take_nil, List.drop_nil, ite_self, Prod.mk.injEq] at h
    obtain ⟨rfl, rfl⟩ := h
    rw [List.append_nil, ← hw]
  · next q t hw =>
    split
    · next hroom =>
      rw [if_pos hroom, hw] at h
      obtain ⟨rfl, rfl⟩ := Prod.mk.inj h
      rfl
    · next hfull =>
      rw [if_neg hfull] at h
      obtain ⟨rfl, rfl⟩ := Prod.mk.inj h
      rw [List.append_nil]

/-- A reply at the head is read in part, and stays, or in full, and leaves (R46). -/
theorem replyRead_of_head {s : State} (hopen : s.cmd.isOpen = true) {q : QReply} {t : List QReply} (hq : s.cmd.replies = q :: t) (cpol : Bool) (n : Nat) :
    exec (.replyRead cpol n) s = .next (if n < q.bytes.length then afterMiso s cpol (slice q.bytes 0 n)
      else flushTurn .cmd (admitWaiting { s with cmd := { s.cmd with miso := portStatus s :: slice q.bytes 0 n, cpol := cpol, replies := t } })) := by
  show execReplyRead cpol n s = _
  rw [execReplyRead, if_neg (by simp [hopen])]
  simp only [hq]
  rfl

/-- Settles O7. -/
theorem replyLeavesWhenFullyRead : Obligations.ReplyLeavesWhenFullyRead := by
  unfold Obligations.ReplyLeavesWhenFullyRead
  intro cpol n s hopen
  refine ⟨fun hnil => ?_, fun q t hq => ⟨fun hn => ?_, fun hn => ?_⟩⟩
  · show execReplyRead cpol n s = _
    simp only [execReplyRead, hopen, hnil]
    rfl
  · rw [replyRead_of_head hopen hq, if_pos hn, slice_of_le hn.le]
  · generalize hsplit : (if (t.filter (fun y => !y.reserved)).length < 16 then (s.cmd.waiting.take 1, s.cmd.waiting.drop 1) else ([], s.cmd.waiting)) = p
    have hadmit := admitWaiting_eq (s := { s with cmd := { s.cmd with miso := portStatus s :: (q.bytes ++ zeros (n - q.bytes.length)), cpol := cpol, replies := t } })
      (more := p.1) (rest := p.2) hsplit.symm
    have hexec := replyRead_of_head hopen hq cpol n
    rw [if_neg (by omega), slice_of_ge hn, hadmit] at hexec
    obtain ⟨last, hlast⟩ := flushTurn_appends .cmd { s with cmd := { s.cmd with
        miso := portStatus s :: (q.bytes ++ zeros (n - q.bytes.length)), cpol := cpol, replies := t ++ p.1, waiting := p.2 } }
    refine ⟨p.1, p.2, last, rfl, hexec, fun u hu => ?_⟩
    rw [hexec] at hu
    injection hu with hu
    exact hu ▸ hlast

end Sys2Proof.Proofs

namespace Sys2Proof.Proofs

open Sys2Proof Sys2Proof.Machine Sys2Proof.Claims Sys2Proof.Laws

/-! ### The state in reset (R121, R122) -/

/-- Every element of a list and the default have a property, so whatever is read at an index has it. -/
theorem getD_of_forall {α : Type} {P : α → Prop} {l : List α} {d : α} (hl : ∀ x ∈ l, P x) (hd : P d) (i : Nat) : P (l.getD i d) := by
  rw [List.getD_eq_getElem?_getD]
  cases h : l[i]? with
  | none => exact hd
  | some x => exact hl x (List.mem_of_getElem? h)

theorem clkBalls_reset (i : Nat) : clkBalls State.reset i = (.low, .high) := by
  by_cases hi : i < 10
  · revert hi
    revert i
    decide
  · have hcmos : (getOut State.reset i).cmos = false := getD_of_forall (P := fun o : ClkOut => o.cmos = false) (by decide) rfl i
    have henable : (getOut State.reset i).enable = false := getD_of_forall (P := fun o : ClkOut => o.enable = false) (by decide) rfl i
    have hrest : outRuns State.reset i = false := by
      rw [outRuns, if_neg (by omega), henable]; rfl
    rw [clkBalls, hrest, hcmos]; rfl

theorem ethBalls_reset (n : Nat) : ethBalls State.reset n = (.idle, .low) := by
  match n with
  | 0 | 1 => rfl
  | n + 2 => rfl

/-- Settles O3, unit by unit; what is numbered is alike at every index. -/
theorem resetLeavesThePartStill : Obligations.ResetLeavesThePartStill := by
  unfold Obligations.ResetLeavesThePartStill
  have hcan (p : Nat) : (getCan State.reset p).bus = .off := getD_of_forall (P := fun x : CanPort => x.bus = .off) (by decide) rfl p
  refine ⟨rfl, rfl, rfl, rfl, rfl, rfl, rfl, rfl, rfl, fun n => getD_of_forall (P := fun x : Stage => x.st = .off) (by decide) rfl n, by decide, by decide,
    rfl, rfl, rfl, rfl, rfl, rfl, rfl, rfl, rfl, rfl, rfl, rfl, hcan, rfl, rfl, clkBalls_reset, fun p => ?_, rfl, ethBalls_reset, rfl, rfl, rfl, rfl⟩
  rw [canBall, hcan]

/-! ### System requests (R80, R121, R34) -/

/-- Taking and counting a request changes nothing but the command port, the sessions and the counter. -/
theorem taken_change (s : State) (via : Transport) :
    taken s via = { s with cmd := (taken s via).cmd, udp := (taken s via).udp, sys := { s.sys with requests := s.sys.requests + 1 } } := by
  rw [taken, countRequest, dropRequest_change]

@[simp] theorem uidBytes_taken (s : State) (via : Transport) : uidBytes (taken s via) = uidBytes s := by simp [uidBytes]

theorem scheduleReset_eq {cause : Byte} (h : cause ≠ 0x06#8) (s : State) :
    scheduleReset cause s = { s with sys := { s.sys with resetDue := some (s.sys.resetDue.getD (s.time.raw + 100000, cause)) } } := by
  unfold scheduleReset
  cases s.sys.resetDue <;> simp [h]

theorem reset_run {s : State} {r : Req} {k : Byte} (hp : reqParams r = [k, 0, 0xA5#8, 0x5A#8]) (hk : k = 1 ∨ k = 2) :
    cardReset.run s r = .done (scheduleReset (if k = 1 then 0x12#8 else 0x05#8) s) (n32 100) := by
  obtain rfl | rfl := hk <;> simp only [cardReset, hp] <;> rfl

/-- A reset outside one latches its own cause, and holds no request, reply, event or memory. -/
theorem startReset_of_running {s : State} (h : s.sys.phase ≠ .inReset) (cause : Byte) : (startReset cause s).sys.cause = cause := by
  simp [startReset, h]

theorem publishRate_run {s : State} {r : Req} {rate : U32} (hp : reqParams r = le32 rate) :
    cardPublishRate.run s r = if rate.toNat < 1000 ∨ rate.toNat > 20000 then .reject E_PARAM []
      else .done { s with img := { s.img with newRate := rate } } (n32 rate.toNat ++ n32 (pubPeriod rate.toNat)) := by
  have hlen : ¬ (le32 rate).length ≠ 4 := fun h => h rfl
  simp only [cardPublishRate, hp, n32At, u32At_le32, hlen, false_or]
  rfl

/-- Settles O8. -/
theorem systemRequests : Obligations.SystemRequests := by
  unfold Obligations.SystemRequests
  refine ⟨fun via s r => ⟨fun htakes hlen => ?_, fun htakes hlen => ?_⟩,
    ⟨fun via s r k htakes hdev hp hk => ?_, fun s t cause hdue hphase => ?_⟩, fun via s r rate htakes hdev hp => ⟨fun hlo hhi => ?_, fun hout => ?_⟩⟩
  · refine next_runCard_done htakes (isOp_takes htakes) rfl rfl ?_
    exact (if_pos (decide_eq_true hlen)).trans (by simp only [identifyPayload, taken_sys, uidBytes_taken])
  · refine next_runCard_done htakes (isOp_takes htakes) rfl rfl ?_
    exact if_pos (decide_eq_true hlen)
  · refine next_runCard_done htakes (isOp_takes htakes) rfl (decide_eq_true hdev) ?_
    rw [reset_run hp hk, scheduleReset_eq (by split <;> decide)]
    simp only [taken_time, taken_sys]
    cases s.sys.resetDue <;> rfl
  · have hexec : exec .resetDelayExpiry s = .next (startReset cause (advanceTo t s)) := by
      show execResetDelayExpiry s = _
      simp only [execResetDelayExpiry, hdue]
    exact ⟨_, hexec, rfl, rfl, startReset_of_running (by exact hphase) cause, rfl, rfl, rfl, rfl, rfl, rfl, rfl⟩
  · refine next_runCard_done htakes (isOp_takes htakes) rfl (inAll4_of_ne_boot hdev) ?_
    rw [publishRate_run hp, if_neg (by omega), taken_img]
    rfl
  · refine next_runCard_reject htakes (isOp_takes htakes) rfl (inAll4_of_ne_boot hdev) ?_
    rw [publishRate_run hp, if_pos (by omega)]

end Sys2Proof.Proofs

namespace Sys2Proof.Proofs

open Sys2Proof Sys2Proof.Machine Sys2Proof.Claims Sys2Proof.Laws

/-! ### Readings that no safe state touches -/

/-- A reading that shows nothing of what replies reach. -/
def ReplyBlind {α : Type} (v : State → α) : Prop := ∀ s t : State, ReplyOnly s t → v t = v s

section
variable {α : Type} {v : State → α} (hrun : RunBlind v) (hreply : ReplyBlind v)
include hrun hreply

omit hreply in
theorem gov_reading (s : State) (g : Governor) : v { s with gov := g } = v s :=
  hrun.1 s s.loop s.fus g s.evt s.cap s.pwm.groups s.pwm.channels s.pwm.units s.pwm.cmps s.pwm.hbs

theorem removedStart_reading (e : GovEntry) (reason : Nat) (s : State) : v (removedStart e reason s) = v s :=
  (hreply _ _ (settleStart_reply ..)).trans (post_reading hrun.1.log ..)

theorem removeStageStart_reading (n reason : Nat) (s : State) : v (removeStageStart n reason s) = v s :=
  (foldl_reading (fun s e => removedStart_reading hrun hreply e reason s) _ _).trans
    ((updStage_reading hrun.1 ..).trans ((dropPrecharges_reading hrun.1 ..).trans (gov_reading hrun ..)))

theorem removeOutputStart_reading (o reason : Nat) (s : State) : v (removeOutputStart o reason s) = v s :=
  (foldl_reading (fun s e => removedStart_reading hrun hreply e reason s) _ _).trans (gov_reading hrun ..)

theorem emptyGovernor_reading (reason : Nat) (s : State) : v (emptyGovernor reason s) = v s :=
  (gov_reading hrun ..).trans ((forEach_reading (fun o s => removeOutputStart_reading hrun hreply o reason s) _ _).trans
    (forEach_reading (fun n s => removeStageStart_reading hrun hreply n reason s) _ s))

end

/-- A reading that shows of what the safe state sets at most BOOT's progress and a state change in progress. -/
structure DeclareBlind {α : Type} (v : State → α) : Prop where
  run : RunBlind v
  off : OffBlind v
  reply : ReplyBlind v
  declared : ∀ (s : State) (y : Sys) (x : Safety) (f : Field) (g h : Bool), y.phase = s.sys.phase → y.stateChange = s.sys.stateChange →
    v { s with sys := y, safe := x, field := f, pwm := { s.pwm with gateProc := g, gateSorrel := h } } = v s

section
variable {α : Type} {v : State → α} (hv : DeclareBlind v)
include hv

theorem DeclareBlind.setDev_reading (d : DevState) (op : Nat) (s : State) : v (setDev d op s) = v s := by
  unfold setDev
  split
  · rfl
  · exact (post_reading hv.run.1.log ..).trans (hv.declared s _ s.safe s.field s.pwm.gateProc s.pwm.gateSorrel rfl rfl)

theorem DeclareBlind.field_reading (f : Field) (s : State) : v { s with field := f } = v s :=
  hv.declared s s.sys s.safe f s.pwm.gateProc s.pwm.gateSorrel rfl rfl

theorem DeclareBlind.safe_reading (x : Safety) (s : State) : v { s with safe := x } = v s :=
  hv.declared s s.sys x s.field s.pwm.gateProc s.pwm.gateSorrel rfl rfl

theorem DeclareBlind.commandOff_reading (o : Nat) (s : State) : v (commandOff o s) = v s := by
  have hstop : v (if s.field.doCmd.getLsbD o then outputStops o s else s) = v s := by
    split
    · exact hv.field_reading ..
    · rfl
  unfold commandOff
  generalize (if s.field.doCmd.getLsbD o then outputStops o s else s) = t at hstop
  exact (hv.field_reading _ { t with gov := { t.gov with inPullin := t.gov.inPullin.filter (fun x => x ≠ o) } }).trans ((gov_reading hv.run ..).trans hstop)

theorem DeclareBlind.endRunPeriod_reading (s : State) : v (endRunPeriod s) = v s :=
  hv.declared s { s.sys with safeOffA := false, safeOffB := false, released := false } s.safe s.field s.pwm.gateProc s.pwm.gateSorrel rfl rfl

theorem DeclareBlind.leaveRun_reading (reason : Nat) (s : State) : v (leaveRun reason s) = v s := by
  have h : v (endRunPeriod (emptyGovernor reason s)) = v s :=
    (hv.endRunPeriod_reading _).trans (emptyGovernor_reading hv.run hv.reply reason s)
  unfold leaveRun
  generalize endRunPeriod (emptyGovernor reason s) = u at h ⊢
  exact (hv.safe_reading ..).trans h

/-- Declaring the safe state stops stages, units, starts and outputs, and sets the device's own state. -/
theorem DeclareBlind.safeDeclared_reading (s : State) : v (safeDeclared s) = v s := by
  have hstages : v (safeStages s) = v s :=
    (forEach_reading (fun n s => lockOut_reading hv.run hv.off n s) _ _).trans (hv.declared s _ s.safe s.field _ _ rfl rfl)
  have houtputs : v (safeOutputs s) = v (safeStages s) :=
    (forEach_reading hv.commandOff_reading _ _).trans ((hv.leaveRun_reading ..).trans
      (forEach_reading (fun u s => fuStageGone_reading hv.run.1.form u 3 2 s) _ _))
  have hdev := hv.setDev_reading .safe 0 (safeOutputs s)
  unfold safeDeclared
  generalize setDev .safe 0 (safeOutputs s) = t at hdev
  exact (hv.safe_reading ..).trans (hdev.trans (houtputs.trans hstages))

end

/-! ### A state change in progress (R83, R84) -/

/-- A RUN to READY transition is in progress. -/
def changing (s : State) : Bool := s.sys.stateChange

theorem changing_declareBlind : DeclareBlind changing where
  run := ⟨fun _ _ _ _ _ _ _ _ _ _ _ => rfl, fun _ _ _ => rfl⟩
  off _ _ _ _ _ _ _ _ _ := rfl
  reply s t h := by rw [show t = _ from h]; rfl
  declared _ _ _ _ _ _ _ h := h

theorem setDev_changing (d : DevState) (op : Nat) (s : State) : changing (setDev d op s) = changing s := changing_declareBlind.setDev_reading d op s

theorem setDev_dev (d : DevState) (op : Nat) (s : State) : (setDev d op s).sys.dev = d := by
  unfold setDev
  split
  · assumption
  · rw [post_sys]

/-- The JTAG port gives the balls back: a matter of the repair state and the log (R548). -/
theorem jtagYield_reading {α : Type} {v : State → α} (hv : RunBlind v) (s : State) : v (jtagYield s) = v s := by
  have hmerge (d : Bytes) (x : Rel) : v (postMergeWith 0x0F08#16 0 d (fun _ => true) (fun _ n => n) { s with rel := x }) = v s :=
    (hv.1.log.of_log (postMergeWith_log ..)).trans (updRel_reading hv ..)
  unfold jtagYield
  split
  · exact hmerge ..
  · exact hmerge ..
  · exact hmerge ..
  · rfl

theorem setSafeState_changing {s : State} (h : changing s = false) : changing (setSafeState s) = false := by
  have hdeclared : changing (safeDeclared s) = false := (changing_declareBlind.safeDeclared_reading s).trans h
  rw [setSafeState_eq, if_neg (by rw [show (safeDeclared s).sys.stateChange = false from hdeclared]; simp), hdeclared]

/-- The reason of a safety function is latched beside those that stand (R399, R400). -/
def reasonLatched (reason : Nat) (s : State) : State :=
  { s with safe := { s.safe with
      causes := s.safe.causes ||| (1#16 <<< (reason - 1))
      firstReason := if s.safe.causes = 0 then reason
        else if s.safe.firstAt.any (fun t => t / 1000000 == s.time.raw / 1000000) then min reason s.safe.firstReason else s.safe.firstReason
      firstAt := if s.safe.causes = 0 then some s.time.raw else s.safe.firstAt } }

/-- A reason that is new, outside SAFE and BOOT, sets the safe state (R398). -/
theorem safetyActs_of_new {s : State} {reason : Nat} (hnew : s.safe.causes.getLsbD (reason - 1) = false) (hsafe : s.sys.dev ≠ .safe) (hboot : s.sys.dev ≠ .boot)
    (chan source : Nat) : ∃ d, safetyActs reason chan source s = post 0x0A00#16 source d (setSafeState (reasonLatched reason s)) := by
  unfold safetyActs reasonLatched
  simp only [hnew, hsafe, hboot, Bool.false_eq_true, or_self, if_false]
  exact ⟨_, by with_reducible rfl⟩

section
variable {s : State} {reason : Nat} (hnew : s.safe.causes.getLsbD (reason - 1) = false) (hsafe : s.sys.dev ≠ .safe) (hboot : s.sys.dev ≠ .boot)
include hnew hsafe hboot

theorem safetyActs_dev (chan source : Nat) : (safetyActs reason chan source s).sys.dev = .safe := by
  obtain ⟨d, hd⟩ := safetyActs_of_new hnew hsafe hboot chan source
  have hguard := (setSafeState_guarded (reasonLatched reason s)).trans (safeDeclared_guarded _)
  rw [hd, post_sys]
  generalize setSafeState (reasonLatched reason s) = t at hguard ⊢
  exact congrArg Prod.fst hguard

theorem safetyActs_changing (h : changing s = false) (chan source : Nat) : changing (safetyActs reason chan source s) = false := by
  obtain ⟨d, hd⟩ := safetyActs_of_new hnew hsafe hboot chan source
  rw [hd, post_reading changing_declareBlind.run.1.log]
  exact setSafeState_changing h

end

theorem finishStateChange_of_idle {s : State} (h : changing s = false) : finishStateChange s = s := by
  rw [finishStateChange, if_neg (by rw [show s.sys.stateChange = false from h]; simp)]

theorem replied_changing (r : Req) (st : U16) (pl : Bytes) (t : State) : changing (flushTurn r.via (replyTo r st pl t)) = changing t :=
  (changing_declareBlind.reply _ _ (flushTurn_reply ..)).trans (changing_declareBlind.reply _ _ (replyTo_reply ..))

theorem dropRequest_changing (s : State) (via : Transport) : changing (dropRequest s via) = changing s := changing_declareBlind.reply _ _ (dropRequest_reply ..)
theorem taken_changing (s : State) (via : Transport) : changing (taken s via) = changing s := by simp [changing]

/-! ### SYS_SET_STATE (R77 to R84) -/

/-- The row ends a state change that is ready to end, after its request. -/
theorem sysSetState_of_replied {via : Transport} {s t : State} {r : Req} {st : U16} {pl : Bytes} {fail : Option (Nat × Nat)} (ht : changing t = false)
    (h : Host.Outcome.next (runCard (isOp 0x0103#16) (cardSetState fail) via s) = replied r st pl t) :
    exec (.sysSetState via fail) s = replied r st pl t := by
  show Host.Outcome.next (finishStateChange _) = _
  injection h with h
  rw [h, finishStateChange_of_idle (by rw [replied_changing, ht])]
  rfl

theorem setState_allowed {fail : Option (Nat × Nat)} {d : DevState} (hb : d ≠ .boot) (hs : d ≠ .safe) : (cardSetState fail).allowed d = true := by
  cases d <;> simp_all [cardSetState]

@[simp] theorem readyMet_taken (s : State) (via : Transport) : readyMet (taken s via) = readyMet s := by simp [readyMet]

theorem setStateLc_drop (s : State) (via : Transport) (r : Req) : setStateLc (dropRequest s via) r = setStateLc s r := by simp [setStateLc]

section
variable {s : State} {r : Req} (fail : Option (Nat × Nat))

/-- A target RUN while RUN ends is refused with the time that is left (R84). -/
theorem setStateRun_shuttingDown (hchange : s.sys.stateChange = true) (ht : n8At (reqParams r) 0 = 3) :
    setStateRun fail s r = .reject E_SHUTTING_DOWN (n32 (max (stateChangeLeft s) 1)) := by
  unfold setStateRun
  exact if_pos ⟨hchange, ht⟩

theorem setStateRun_refused (hchange : ¬ (s.sys.stateChange = true ∧ n8At (reqParams r) 0 = 3)) (hpair : pairRefused s (n8At (reqParams r) 0) = true) :
    setStateRun fail s r = .reject E_STATE [] := by
  unfold setStateRun
  exact (if_neg hchange).trans (if_pos hpair)

/-- A target READY while RUN ends is busy (R84). -/
theorem setStateRun_busy (hp : reqParams r = [2, 0, 0, 0]) (hchange : s.sys.stateChange = true) (hdev : s.sys.dev = .run) :
    setStateRun fail s r = .reject E_BUSY [] := by
  simp only [setStateRun, pairRefused, hp, hchange, hdev]
  rfl

section
variable (hidle : s.sys.stateChange = false)
include hidle

theorem setStateRun_present {k : Byte} (hp : reqParams r = [k, 0, 0, 0]) (hb : s.sys.dev ≠ .boot) (hs : s.sys.dev ≠ .safe) (hk : k.toNat = devCode s.sys.dev) :
    setStateRun fail s r = .done s [k, 0, 0, 0] := by
  have hkey : k = BitVec.ofNat 8 (devCode s.sys.dev) := by rw [← hk, BitVec.ofNat_toNat, BitVec.setWidth_eq]
  subst hkey
  revert hb hs
  simp only [setStateRun, pairRefused, hp, hidle]
  cases s.sys.dev <;> intro hb hs
  · exact absurd rfl hb
  · rfl
  · rfl
  · rfl
  · exact absurd rfl hs

theorem setStateRun_configReady (hp : reqParams r = [2, 0, 0, 0]) (hdev : s.sys.dev = .config) (hmet : readyMet s = true) :
    setStateRun none s r = .done (setDev .ready 0x0103 (pathTestDone s)) [2, 0, 0, 0] := by
  have hready : (setDev .ready 0x0103 (pathTestDone s)).sys.dev = .ready := setDev_dev ..
  simp only [setStateRun, pairRefused, hp, hidle, hdev, hready, hmet]
  rfl

theorem setStateRun_pathTestFails (hp : reqParams r = [2, 0, 0, 0]) (hdev : s.sys.dev = .config) (hmet : readyMet s = true) (ch idx : Nat) :
    setStateRun (some (ch, idx)) s r = .failed (safetyActs rSELFTEST ch 0xFF (post 0x0A06#16 0 (n8 ch ++ n8 idx) s)) E_VERIFY [] := by
  simp only [setStateRun, pairRefused, hp, hidle, hdev, hmet]
  rfl

theorem setStateRun_readyConfig (hp : reqParams r = [1, 0, 0, 0]) (hdev : s.sys.dev = .ready) :
    setStateRun fail s r = .done (setDev .config 0x0103 s) [1, 0, 0, 0] := by
  have hconfig : (setDev .config 0x0103 s).sys.dev = .config := setDev_dev ..
  simp only [setStateRun, pairRefused, hp, hidle, hdev, hconfig]
  rfl

/-- RUN begins: its time is counted, the trip elements start anew, permits are granted, and JTAG yields (R77, R405, R548). -/
def runEntered (s : State) : State :=
  jtagYield (setDev .run 0x0103 (grantPermits { s with safe := { s.safe with
    runSince := some s.time.raw, elems := s.safe.elems.map (fun _ => { since := none, armed := false }) } }))

omit hidle in
theorem runEntered_dev (s : State) : (runEntered s).sys.dev = .run :=
  (jtagYield_reading (v := fun s => s.sys.dev) ⟨fun _ _ _ _ _ _ _ _ _ _ _ => rfl, fun _ _ _ => rfl⟩ _).trans (setDev_dev ..)

omit hidle in
theorem runEntered_changing (s : State) : changing (runEntered s) = changing s := (jtagYield_reading changing_declareBlind.run _).trans (setDev_changing ..)

theorem setStateRun_readyRun (hp : reqParams r = [3, 0, 0, 0]) (hdev : s.sys.dev = .ready) :
    setStateRun fail s r = .done (runEntered s) [3, 0, 0, 0] := by
  have hrun := runEntered_dev s
  unfold runEntered at hrun
  simp only [setStateRun, pairRefused, hp, hidle, hdev, hrun]
  rfl

/-- Every shutdown of a RUN to READY transition has begun (R83, R138). -/
def runEnding (s : State) : State :=
  forEach (List.range 8) (fun o => outputOff o 2) (forEach (List.range 8) (fun n => normalShutdown n 0)
    (emptyGovernor 2 { s with sys := { s.sys with stateChange := true } }))

theorem setStateRun_runReady (hp : reqParams r = [2, 0, 0, 0]) (hdev : s.sys.dev = .run) (hroom : classFull s 0x0103#16 = false) :
    ∃ pl, setStateRun fail s r = .long (runEnding s) 0 pl := by
  have hlen : ([2, 0, 0, 0] : Bytes).length = 4 := rfl
  have htgt : n8At ([2, 0, 0, 0] : Bytes) 0 = 2 := rfl
  have hzero : zeroAt ([2, 0, 0, 0] : Bytes) 1 3 = true := rfl
  unfold setStateRun runEnding
  simp only [pairRefused, hp, hidle, hdev, hroom, hlen, htgt, hzero, devCode]
  simp only [Bool.false_eq_true, false_and, if_false, ne_eq, not_true_eq_false, Bool.not_true, OfNat.ofNat_ne_zero, Nat.reduceLT, gt_iff_lt, or_self, Nat.reduceEqDiff]
  exact ⟨_, by with_reducible rfl⟩

end
end

section
variable {via : Transport} {s : State} {r : Req} (htakes : Takes 0x0103#16 via s r)
include htakes

section
variable (hlc : setStateLc s r = true) (hb : s.sys.dev ≠ .boot) (hs : s.sys.dev ≠ .safe) {fail : Option (Nat × Nat)}
include hlc hb hs

theorem sysSetState_done {t : State} {pl : Bytes} (ht : changing t = false) (hr : setStateRun fail (taken s via) r = .done t pl) :
    exec (.sysSetState via fail) s = replied r OK pl t :=
  sysSetState_of_replied ht (next_runCard_done htakes (isOp_takes htakes) ((setStateLc_drop ..).trans hlc) (setState_allowed hb hs) hr)

theorem sysSetState_failed {t : State} {st : U16} {pl : Bytes} (ht : changing t = false) (hr : setStateRun fail (taken s via) r = .failed t st pl) :
    exec (.sysSetState via fail) s = replied r st pl t :=
  sysSetState_of_replied ht (next_runCard_failed htakes (isOp_takes htakes) ((setStateLc_drop ..).trans hlc) (setState_allowed hb hs) hr)

theorem sysSetState_reject {st : U16} {pl : Bytes} (hchange : s.sys.stateChange = false) (hr : setStateRun fail (taken s via) r = .reject st pl) :
    exec (.sysSetState via fail) s = replied r st pl (dropRequest s via) :=
  sysSetState_of_replied ((dropRequest_changing ..).trans hchange)
    (next_runCard_reject htakes (isOp_takes htakes) ((setStateLc_drop ..).trans hlc) (setState_allowed hb hs) hr)

/-- With a function still on, a state change goes on behind a request that is rejected. -/
theorem sysSetState_reject_unfinished {st : U16} {pl : Bytes} (hoff : Machine.allOff s = false) (hr : setStateRun fail (taken s via) r = .reject st pl) :
    exec (.sysSetState via fail) s = replied r st pl (dropRequest s via) := by
  have hall : ReplyBlind Machine.allOff := fun s t h => by rw [show t = _ from h]; rfl
  have hkept : Machine.allOff (flushTurn r.via (replyTo r st pl (dropRequest s via))) = false := by
    rw [hall _ _ (flushTurn_reply ..), hall _ _ (replyTo_reply ..), hall _ _ (dropRequest_reply ..), hoff]
  have hnext := next_runCard_reject htakes (isOp_takes htakes) (card := cardSetState fail) ((setStateLc_drop ..).trans hlc) (setState_allowed hb hs) hr
  show Host.Outcome.next (finishStateChange _) = _
  injection hnext with hnext
  rw [hnext, finishStateChange, if_neg (by simp [hkept])]
  rfl

end
end

/-- The lifecycle refuses a target READY alone (R79). -/
theorem setStateLc_of_ne {s : State} {r : Req} (h : n8At (reqParams r) 0 ≠ 2) : setStateLc s r = true := by simp [setStateLc, h]
theorem setStateLc_of_readyMet {s : State} {r : Req} (h : readyMet s = true) : setStateLc s r = true := by
  revert h
  unfold readyMet setStateLc
  cases s.sys.lifecycle <;> simp

/-- Settles O9. -/
theorem sysSetStateTransitions : Obligations.SysSetStateTransitions := by
  unfold Obligations.SysSetStateTransitions
  refine ⟨fun via s r k htakes hidle hp => ⟨fun d fail hd hb hs hk hlc => ?_, fun hd hk hmet => ?_, fun hd hk fail => ?_, fun hd hk fail => ?_,
      fun hd hk hroom hlc fail => ?_⟩, fun via s r fail htakes hidle hlc hpair => ?_, fun via s r fail htakes hchange hd hlc hoff => ⟨fun hp => ?_, fun ht => ?_⟩,
    fun via s r fail htakes hidle hlc hd => ?_⟩
  · subst hd
    have hlc' : setStateLc s r = true := by
      by_cases h2 : k = 2
      · exact hlc h2
      · refine setStateLc_of_ne ?_
        rw [hp]
        exact fun h => h2 (BitVec.eq_of_toNat_eq h)
    exact sysSetState_done htakes hlc' hb hs ((taken_changing ..).trans hidle)
      (setStateRun_present fail (by simpa using hidle) hp (by simpa using hb) (by simpa using hs) (by simpa using hk))
  · subst hk
    have hlc : setStateLc s r = true := setStateLc_of_readyMet hmet
    have hb : s.sys.dev ≠ .boot := by simp [hd]
    have hs : s.sys.dev ≠ .safe := by simp [hd]
    refine ⟨?_, fun ch idx hnew => ⟨_, ?_, ?_, rfl⟩⟩
    · rw [sysSetState_done htakes hlc hb hs (by exact (setDev_changing ..).trans ((taken_changing s via).trans hidle))
        (setStateRun_configReady (by simpa using hidle) hp (by simpa using hd) (by simpa using hmet))]
      simp only [pathTestDone, taken_safe, taken_time]
    · exact sysSetState_failed htakes hlc hb hs
        (safetyActs_changing (by simpa using hnew) (by simp [hd]) (by simp [hd])
          ((post_reading changing_declareBlind.run.1.log ..).trans ((taken_changing s via).trans hidle)) ch 0xFF)
        (setStateRun_pathTestFails (by simpa using hidle) hp (by simpa using hd) (by simpa using hmet) ch idx)
    · exact safetyActs_dev (by simpa using hnew) (by simp [hd]) (by simp [hd]) ..
  · subst hk
    exact sysSetState_done htakes (setStateLc_of_ne (by rw [hp]; decide)) (by simp [hd]) (by simp [hd])
      ((setDev_changing ..).trans ((taken_changing s via).trans hidle)) (setStateRun_readyConfig fail (by simpa using hidle) hp (by simpa using hd))
  · subst hk
    rw [sysSetState_done htakes (setStateLc_of_ne (by rw [hp]; decide)) (by simp [hd]) (by simp [hd])
      ((runEntered_changing _).trans ((taken_changing s via).trans hidle)) (setStateRun_readyRun fail (by simpa using hidle) hp (by simpa using hd))]
    simp only [runEntered, taken_safe, taken_time]
  · subst hk
    obtain ⟨pl, hrun⟩ := setStateRun_runReady (s := taken s via) fail (by simpa using hidle) hp (by simpa using hd) (by simpa [classFull, longCount] using hroom)
    refine ⟨runEnding (taken s via), pl, ?_, rfl⟩
    have hnext := next_runCard_long htakes (isOp_takes htakes) (card := cardSetState fail) ((setStateLc_drop ..).trans hlc)
      (setState_allowed (by simp [hd]) (by simp [hd])) hrun
    injection hnext with hnext
    exact congrArg (fun t => Host.Outcome.next (finishStateChange t)) hnext
  · have hlive : s.sys.dev ≠ .boot ∧ s.sys.dev ≠ .safe := by
      obtain ⟨hd, -⟩ | ⟨hd, -⟩ | ⟨hd, -⟩ := hpair <;> simp [hd]
    refine sysSetState_reject htakes hlc hlive.1 hlive.2 hidle (setStateRun_refused fail (by simp [hidle]) ?_)
    obtain ⟨hd, ht⟩ | ⟨hd, ht⟩ | ⟨hd, ht, hmet⟩ := hpair
    · simp [pairRefused, hd, ht]
    · simp [pairRefused, hd, ht]
    · simp [pairRefused, hd, ht, hmet]
  · exact sysSetState_reject_unfinished htakes hlc (by simp [hd]) (by simp [hd]) hoff (setStateRun_busy fail hp (by simpa using hchange) (by simpa using hd))
  · have hleft : stateChangeLeft (taken s via) = stateChangeLeft s := by rw [taken_change]; rfl
    rw [sysSetState_reject_unfinished htakes hlc (by simp [hd]) (by simp [hd]) hoff (setStateRun_shuttingDown fail (by simpa using hchange) ht), hleft, max_comm]
  · refine sysSetState_of_replied ((dropRequest_changing ..).trans hidle)
      (next_runCard_refused_state htakes (isOp_takes htakes) ((setStateLc_drop ..).trans hlc) ?_)
    obtain hd | hd := hd
    · rw [hd]; rfl
    · rw [hd]; rfl

end Sys2Proof.Proofs

/-! ## Requests that a check refuses before their card -/

namespace Sys2Proof.Proofs

open Sys2Proof Sys2Proof.Machine Sys2Proof.Claims Sys2Proof.Laws

/-! ### The rows that serve requests -/

/-- How a command serves the next request of a transport: through its card, through the parameter queue, or as one of the two rows
that look at the request before any check of R55. -/
inductive ServedAs (c : Instr) (via : Transport) (s : State) : Prop
  | card (hp : paramRows c = false) (mine : Req → Bool) (card : Card) (hc : exec c s = .next (runCard mine card via s)) (hm : ∀ r, mine r = ownRow c r)
  | param (hp : paramRows c = true) (mine : Req → Bool) (card : Card) (hc : exec c s = .next (paramRow mine card via s)) (hm : ∀ r, mine r = ownRow c r)
  | sessionOpen (hc : c = .ethSessionOpen via)
  | vendor (hc : c = .vendorTestOpcode via)

section
variable {r : Req} {n : Nat}

theorem isOp_eq_decide (hn : n < 65536) : isOp (BitVec.ofNat 16 n) r = decide ((reqOpcode r).toNat = n) := by
  rw [isOp, Bool.eq_iff_iff, beq_iff_eq, decide_eq_true_iff, ← BitVec.toNat_inj, BitVec.toNat_ofNat, Nat.mod_eq_of_lt hn]

/-- The kind or action byte by which `ownRow` sorts a request, 0 where the packet holds none. -/
def kindOf (r : Req) : Nat := if reqParams r = [] then 0 else n8At (reqParams r) 0

theorem isOpKind_eq_own {k : Nat} (hn : n < 65536) (hk : 0 < k) :
    isOpKind (BitVec.ofNat 16 n) k r = (decide ((reqOpcode r).toNat = n) && decide (kindOf r = k)) := by
  rw [isOpKind, isOp_eq_decide hn, kindOf, kindByte, Bool.and_assoc]
  by_cases he : reqParams r = []
  · simp [he, hk.ne]
  · simp [he, List.isEmpty_eq_false_iff.2 he]

theorem isOpElse_eq_own {ks : List Nat} {m : Nat} (hn : n < 65536) (hks : ∀ k, ks.contains k = decide (1 ≤ k ∧ k ≤ m)) :
    isOpElse (BitVec.ofNat 16 n) ks r = (decide ((reqOpcode r).toNat = n) && !decide (1 ≤ kindOf r ∧ kindOf r ≤ m)) := by
  rw [isOpElse, isOp_eq_decide hn, kindOf, kindByte, hks]
  by_cases he : reqParams r = []
  · simp [he]
  · simp [he, List.isEmpty_eq_false_iff.2 he]

theorem contains_upto1 (k : Nat) : [1].contains k = decide (1 ≤ k ∧ k ≤ 1) := by
  rw [Bool.eq_iff_iff]; simp; omega
theorem contains_upto2 (k : Nat) : [1, 2].contains k = decide (1 ≤ k ∧ k ≤ 2) := by
  rw [Bool.eq_iff_iff]; simp; omega
theorem contains_upto3 (k : Nat) : [1, 2, 3].contains k = decide (1 ≤ k ∧ k ≤ 3) := by
  rw [Bool.eq_iff_iff]; simp; omega
theorem contains_upto4 (k : Nat) : [1, 2, 3, 4].contains k = decide (1 ≤ k ∧ k ≤ 4) := by
  rw [Bool.eq_iff_iff]; simp; omega

/-- An action byte at the front of the parameters, for the rows that ask for its presence by the length. -/
theorem action_eq_kindOf {a : Nat} (ha : 0 < a) :
    (decide ((reqParams r).length ≥ 1) && decide (n8At (reqParams r) 0 = a)) = decide (kindOf r = a) := by
  rw [kindOf]
  by_cases he : reqParams r = []
  · simp [he, ha.ne]
  · simp [he, Nat.one_le_iff_ne_zero]

theorem isSeal_eq_own {a : Nat} (ha : 0 < a) : isSeal a r = (decide ((reqOpcode r).toNat = 0x0E05) && decide (kindOf r = a)) := by
  rw [isSeal, isOp_eq_decide (by decide), sealAction, Bool.and_assoc, action_eq_kindOf ha]

theorem isSealElse_eq_own : isSealElse r = (decide ((reqOpcode r).toNat = 0x0E05) && !decide (1 ≤ kindOf r ∧ kindOf r ≤ 5)) := by
  rw [isSealElse, isOp_eq_decide (by decide), sealAction, kindOf]
  by_cases he : reqParams r = []
  · simp [he]
  · rw [Bool.eq_iff_iff]; simp [he]

theorem isLc_eq_own : isLc 1 r = (decide ((reqOpcode r).toNat = 0x0F02) && decide (kindOf r = 1)) := by
  rw [isLc, isOp_eq_decide (by decide), Bool.and_assoc, action_eq_kindOf (by decide)]

theorem isLcElse_eq_own : isLcElse r = (decide ((reqOpcode r).toNat = 0x0F02) && !decide (1 ≤ kindOf r ∧ kindOf r ≤ 1)) := by
  rw [isLcElse, isLc_eq_own, isOp_eq_decide (by decide), Bool.eq_iff_iff]
  simp; omega

/-- The kind byte of FU_CONFIG, its second. -/
def fuKindOf (r : Req) : Nat := if (reqParams r).length < 2 then 0 else n8At (reqParams r) 1

theorem isFuKind_eq_own {k : Nat} (hk : 0 < k) : isFuKind k r = (decide ((reqOpcode r).toNat = 0x0700) && decide (fuKindOf r = k)) := by
  rw [isFuKind, isOp_eq_decide (by decide), fuKind, fuKindOf, Bool.and_assoc]
  by_cases he : (reqParams r).length < 2
  · simp [he, hk.ne]
  · simp [he, Nat.le_of_not_lt he]

theorem isFuElse_eq_own : isFuElse r = (decide ((reqOpcode r).toNat = 0x0700) && !decide (1 ≤ fuKindOf r ∧ fuKindOf r ≤ 3)) := by
  rw [isFuElse, isOp_eq_decide (by decide), fuKind, fuKindOf, contains_upto3]
  by_cases he : (reqParams r).length < 2 <;> simp [he]

theorem modeOnly_eq_own : modeOnly r = (decide ((reqOpcode r).toNat = 0x0601) && (byteAt (reqParams r) 2).getLsbD 0) := by
  rw [modeOnly, isOp_eq_decide (by decide)]

theorem graphStart_eq_own : (isOp 0x0601#16 r && !modeOnly r) = (decide ((reqOpcode r).toNat = 0x0601) && !(byteAt (reqParams r) 2).getLsbD 0) := by
  rw [modeOnly_eq_own, isOp_eq_decide (by decide), Bool.not_and, Bool.and_or_distrib_left, Bool.and_not_self, Bool.false_or]

theorem timerQuery_eq_own : timerQuery r = (decide ((reqOpcode r).toNat = 0x0800) && (byteAt (reqParams r) 6).getLsbD 1) := by
  rw [timerQuery, isOp_eq_decide (by decide)]

theorem pwmTimer_eq_own : (isOp 0x0800#16 r && !timerQuery r) = (decide ((reqOpcode r).toNat = 0x0800) && !(byteAt (reqParams r) 6).getLsbD 1) := by
  rw [timerQuery_eq_own, isOp_eq_decide (by decide), Bool.not_and, Bool.and_or_distrib_left, Bool.and_not_self, Bool.false_or]

theorem unassigned_eq_own : (!assigned (reqOpcode r) && decide (opClass (reqOpcode r) ≠ 0x7F)) = (!assigned (reqOpcode r) && !decide (opClass (reqOpcode r) = 0x7F)) := by
  rw [decide_not]

end

/-- Every command that serves requests does so for the requests of its own row. -/
theorem servedAs_of_servedVia {c : Instr} {via : Transport} (s : State) (h : servedVia c = some via) : ServedAs c via s := by
  cases c <;> cases h
  case ethSessionOpen => exact .sessionOpen rfl
  case vendorTestOpcode => exact .vendor rfl
  case unassignedOpcode => exact .card rfl _ _ rfl fun _ => unassigned_eq_own
  case graphStart => exact .card rfl _ _ rfl fun _ => graphStart_eq_own
  case graphStartModeOnly => exact .param rfl _ _ rfl fun _ => modeOnly_eq_own
  case pwmTimer => exact .card rfl _ _ rfl fun _ => pwmTimer_eq_own
  case pwmTimerQuery => exact .card rfl _ _ rfl fun _ => timerQuery_eq_own
  case fuConfigPort => exact .param rfl _ _ rfl fun _ => isFuElse_eq_own
  case fuConfigLaw | fuConfigLimits | fuConfigSync => exact .param rfl _ _ rfl fun _ => isFuKind_eq_own (by decide)
  case sageSealQuery => exact .card rfl _ _ rfl fun _ => isSealElse_eq_own
  case sageSealLoadParameters | sageSealSeal | sageSealBreak | sageSealPulseEnable | sageSealPulseDisable =>
    exact .card rfl _ _ rfl fun _ => isSeal_eq_own (by decide)
  case lcTransitionQuery => exact .card rfl _ _ rfl fun _ => isLcElse_eq_own
  case lcTransition => exact .card rfl _ _ rfl fun _ => isLc_eq_own
  case ethConfigPort => exact .card rfl _ _ rfl fun _ => isOpElse_eq_own (by decide) contains_upto1
  case pwmChannelChannel | fioConfigInput | capArmStop | capTrigbusCalSet =>
    exact .card rfl _ _ rfl fun _ => isOpElse_eq_own (by decide) contains_upto2
  case snsConfigChannel => exact .card rfl _ _ rfl fun _ => isOpElse_eq_own (by decide) contains_upto3
  case protConfigComparator => exact .card rfl _ _ rfl fun _ => isOpElse_eq_own (by decide) contains_upto4
  case ethConfigInstance | snsConfigSequence | snsConfigAccumulator | snsConfigTracker | pwmChannelGroup | pwmChannelQuery
      | protConfigFastDetector | protConfigFltInput | protConfigHalfBridge | protConfigLeg | fioConfigOutput | fioConfigLink | capArmArm
      | capArmForce | capTrigbusCalRespond | capTrigbusCalInitiate =>
    exact .card rfl _ _ rfl fun _ => isOpKind_eq_own (by decide) (by decide)
  case graphWriteParam | fuMode | fuSetpoint | fuSchedule => exact .param rfl _ _ rfl fun _ => isOp_eq_decide (by decide)
  all_goals exact .card rfl _ _ rfl fun _ => isOp_eq_decide (by decide)


/-! ### What a row does with a request that is refused, of another row, held or not there -/

section
variable {c : Instr} {via : Transport} {s : State} {r : Req}

theorem paramRow_other {mine : Req → Bool} {card : Card} (h : ∀ r, nextRequest s via = some r → mine r = false) : paramRow mine card via s = s := by
  rw [paramRow, runCard_other h, holdRequest]
  split
  · split
    · rfl
    · rename_i r hr; rw [if_neg (by simp [h r hr])]
  · rfl

theorem paramRow_held {mine : Req → Bool} {card : Card} (hr : nextRequest s via = some r) (hm : mine r = true) (hf : paramFull s = true) :
    paramRow mine card via s = { s with cmd := { s.cmd with held := some via } } := by
  rw [paramRow, if_pos hf, holdRequest, hr]
  exact if_pos hm

theorem openReplayed_of_none (h : nextRequest s via = none) : openReplayed s via = false := by
  unfold openReplayed; rw [h]; split <;> simp_all

/-- Where no request of its own row can be taken, a command changes nothing. -/
theorem exec_served_other (hv : servedVia c = some via) (ho : openReplayed s via = false) (h : ∀ r, nextRequest s via = some r → ownRow c r = false) :
    exec c s = .next s := by
  cases servedAs_of_servedVia s hv with
  | card hp mine card hc hm => rw [hc, runCard_other fun r hr => (hm r).trans (h r hr)]
  | param hp mine card hc hm => rw [hc, paramRow_other fun r hr => (hm r).trans (h r hr)]
  | sessionOpen hc =>
    subst hc
    have hm (r : Req) (hr : nextRequest s via = some r) : isOp 0x0311#16 r = false := by
      rw [isOp_eq_decide (by decide)]; exact h r hr
    show execEthSessionOpen via s = _
    unfold execEthSessionOpen
    rw [if_neg (by simp [ho]), runCard_other hm]
  | vendor hc =>
    subst hc
    show execVendorTestOpcode via s = _
    unfold execVendorTestOpcode
    split
    · rfl
    · rename_i r hr; exact if_pos (by simpa [ownRow] using h r hr)

/-- A request of its own row that a check of R55 refuses is answered with its status. -/
theorem exec_served_refused {st : U16} (hv : servedVia c = some via) (hr : nextRequest s via = some r) (hh : headerCheck (dropRequest s via) r = some st)
    (ho : openReplayed s via = false) (hown : ownRow c r = true) (hf : paramRows c = true → paramFull s = false) :
    exec c s = replied r st [] (dropRequest s via) := by
  cases servedAs_of_servedVia s hv with
  | card hp mine card hc hm => rw [hc, runCard_refused hr ((hm r).trans hown) hh]; rfl
  | param hp mine card hc hm =>
    rw [hc, paramRow, if_neg (by simp [hf hp]), runCard_refused hr ((hm r).trans hown) hh]; rfl
  | sessionOpen hc =>
    subst hc
    have hm : isOp 0x0311#16 r = true := by rw [isOp_eq_decide (by decide)]; exact hown
    show execEthSessionOpen via s = _
    unfold execEthSessionOpen
    rw [if_neg (by simp [ho]), runCard_refused hr hm hh]; rfl
  | vendor hc =>
    subst hc
    show execVendorTestOpcode via s = _
    rw [execVendorTestOpcode, hr]
    simp only [hh]
    exact if_neg (by simpa [ownRow] using hown)

/-- A request for the parameter queue while that is full is held. -/
theorem exec_served_held (hv : servedVia c = some via) (hr : nextRequest s via = some r) (hf : paramFull s = true) (hp : paramRows c = true)
    (hown : ownRow c r = true) : exec c s = .next { s with cmd := { s.cmd with held := some via } } := by
  cases servedAs_of_servedVia s hv with
  | card hp' => rw [hp'] at hp; cases hp
  | param hp mine card hc hm => rw [hc, paramRow_held hr ((hm r).trans hown) hf]
  | sessionOpen hc => subst hc; cases hp
  | vendor hc => subst hc; cases hp

/-- A session open whose nonce was recorded while it waited is discarded with event 0x0103. -/
theorem exec_ethSessionOpen_replayed {port : Nat} {sid : U32} (hv : via = .udp port sid) (ho : openReplayed s via = true) :
    exec (.ethSessionOpen via) s = .next (flushTurn via (post 0x0103#16 (port + 1) (zeros 8) (dropRequest s via))) := by
  subst hv
  show execEthSessionOpen _ s = _
  unfold execEthSessionOpen
  rw [if_pos ho]
  rfl

theorem exec_sysSetState_other {fail : Option (Nat × Nat)} (h : ∀ r, nextRequest s via = some r → isOp 0x0103#16 r = false) :
    exec (.sysSetState via fail) s = .next (finishStateChange s) := by
  show Host.Outcome.next (finishStateChange (runCard (isOp 0x0103#16) (cardSetState fail) via s)) = _
  rw [runCard_other h]

theorem exec_sysSetState_refused {fail : Option (Nat × Nat)} {st : U16} (hr : nextRequest s via = some r) (hop : reqOpcode r = 0x0103#16)
    (hh : headerCheck (dropRequest s via) r = some st) :
    exec (.sysSetState via fail) s = .next (finishStateChange (flushTurn r.via (replyTo r st [] (dropRequest s via)))) := by
  show Host.Outcome.next (finishStateChange (runCard (isOp 0x0103#16) (cardSetState fail) via s)) = _
  rw [runCard_refused hr (by simp [isOp, hop]) hh]

end

/-! ### Every request has its row -/

/-- A row that serves requests takes this one. -/
def HasRow (via : Transport) (r : Req) : Prop := ∃ c, servedVia c = some via ∧ ownRow c r = true

theorem and_decide_true {a b : Prop} [Decidable a] [Decidable b] (ha : a) (hb : b) : (decide a && decide b) = true := by simp [ha, hb]
theorem and_not_decide_true {a b : Prop} [Decidable a] [Decidable b] (ha : a) (hb : ¬ b) : (decide a && !decide b) = true := by simp [ha, hb]

section
variable {via : Transport} {r : Req}

theorem hasRow_ethConfig (h : (reqOpcode r).toNat = 0x0310) : HasRow via r := by
  rcases (by omega : ¬ (1 ≤ kindOf r ∧ kindOf r ≤ 1) ∨ kindOf r = 1) with hk | hk
  exacts [⟨.ethConfigPort via, rfl, and_not_decide_true h hk⟩, ⟨.ethConfigInstance via, rfl, and_decide_true h hk⟩]

theorem hasRow_snsConfig (h : (reqOpcode r).toNat = 0x0401) : HasRow via r := by
  rcases (by omega : ¬ (1 ≤ kindOf r ∧ kindOf r ≤ 3) ∨ kindOf r = 1 ∨ kindOf r = 2 ∨ kindOf r = 3) with hk | hk | hk | hk
  exacts [⟨.snsConfigChannel via, rfl, and_not_decide_true h hk⟩, ⟨.snsConfigSequence via, rfl, and_decide_true h hk⟩,
    ⟨.snsConfigAccumulator via, rfl, and_decide_true h hk⟩, ⟨.snsConfigTracker via, rfl, and_decide_true h hk⟩]

theorem hasRow_graphStart (h : (reqOpcode r).toNat = 0x0601) : HasRow via r := by
  cases hb : (byteAt (reqParams r) 2).getLsbD 0 with
  | false => exact ⟨.graphStart via, rfl, (Bool.and_eq_true _ _).mpr ⟨decide_eq_true h, congrArg (!·) hb⟩⟩
  | true => exact ⟨.graphStartModeOnly via, rfl, (Bool.and_eq_true _ _).mpr ⟨decide_eq_true h, hb⟩⟩

theorem hasRow_fuConfig (h : (reqOpcode r).toNat = 0x0700) : HasRow via r := by
  rcases (by omega : ¬ (1 ≤ fuKindOf r ∧ fuKindOf r ≤ 3) ∨ fuKindOf r = 1 ∨ fuKindOf r = 2 ∨ fuKindOf r = 3) with hk | hk | hk | hk
  exacts [⟨.fuConfigPort via, rfl, and_not_decide_true h hk⟩, ⟨.fuConfigLaw via, rfl, and_decide_true h hk⟩,
    ⟨.fuConfigLimits via, rfl, and_decide_true h hk⟩, ⟨.fuConfigSync via, rfl, and_decide_true h hk⟩]

theorem hasRow_pwmTimer (h : (reqOpcode r).toNat = 0x0800) : HasRow via r := by
  cases hb : (byteAt (reqParams r) 6).getLsbD 1 with
  | false => exact ⟨.pwmTimer via, rfl, (Bool.and_eq_true _ _).mpr ⟨decide_eq_true h, congrArg (!·) hb⟩⟩
  | true => exact ⟨.pwmTimerQuery via, rfl, (Bool.and_eq_true _ _).mpr ⟨decide_eq_true h, hb⟩⟩

theorem hasRow_pwmChannel (h : (reqOpcode r).toNat = 0x0801) : HasRow via r := by
  rcases (by omega : ¬ (1 ≤ kindOf r ∧ kindOf r ≤ 2) ∨ kindOf r = 1 ∨ kindOf r = 2) with hk | hk | hk
  exacts [⟨.pwmChannelChannel via, rfl, and_not_decide_true h hk⟩, ⟨.pwmChannelGroup via, rfl, and_decide_true h hk⟩,
    ⟨.pwmChannelQuery via, rfl, and_decide_true h hk⟩]

theorem hasRow_protConfig (h : (reqOpcode r).toNat = 0x0900) : HasRow via r := by
  rcases (by omega : ¬ (1 ≤ kindOf r ∧ kindOf r ≤ 4) ∨ kindOf r = 1 ∨ kindOf r = 2 ∨ kindOf r = 3 ∨ kindOf r = 4) with hk | hk | hk | hk | hk
  exacts [⟨.protConfigComparator via, rfl, and_not_decide_true h hk⟩, ⟨.protConfigFastDetector via, rfl, and_decide_true h hk⟩,
    ⟨.protConfigFltInput via, rfl, and_decide_true h hk⟩, ⟨.protConfigHalfBridge via, rfl, and_decide_true h hk⟩,
    ⟨.protConfigLeg via, rfl, and_decide_true h hk⟩]

theorem hasRow_fioConfig (h : (reqOpcode r).toNat = 0x0B00) : HasRow via r := by
  rcases (by omega : ¬ (1 ≤ kindOf r ∧ kindOf r ≤ 2) ∨ kindOf r = 1 ∨ kindOf r = 2) with hk | hk | hk
  exacts [⟨.fioConfigInput via, rfl, and_not_decide_true h hk⟩, ⟨.fioConfigOutput via, rfl, and_decide_true h hk⟩,
    ⟨.fioConfigLink via, rfl, and_decide_true h hk⟩]

theorem hasRow_capArm (h : (reqOpcode r).toNat = 0x0D01) : HasRow via r := by
  rcases (by omega : ¬ (1 ≤ kindOf r ∧ kindOf r ≤ 2) ∨ kindOf r = 1 ∨ kindOf r = 2) with hk | hk | hk
  exacts [⟨.capArmStop via, rfl, and_not_decide_true h hk⟩, ⟨.capArmArm via, rfl, and_decide_true h hk⟩,
    ⟨.capArmForce via, rfl, and_decide_true h hk⟩]

theorem hasRow_capTrigbusCal (h : (reqOpcode r).toNat = 0x0D03) : HasRow via r := by
  rcases (by omega : ¬ (1 ≤ kindOf r ∧ kindOf r ≤ 2) ∨ kindOf r = 1 ∨ kindOf r = 2) with hk | hk | hk
  exacts [⟨.capTrigbusCalSet via, rfl, and_not_decide_true h hk⟩, ⟨.capTrigbusCalRespond via, rfl, and_decide_true h hk⟩,
    ⟨.capTrigbusCalInitiate via, rfl, and_decide_true h hk⟩]

theorem hasRow_sageSeal (h : (reqOpcode r).toNat = 0x0E05) : HasRow via r := by
  rcases (by omega : ¬ (1 ≤ kindOf r ∧ kindOf r ≤ 5) ∨ kindOf r = 1 ∨ kindOf r = 2 ∨ kindOf r = 3 ∨ kindOf r = 4 ∨ kindOf r = 5) with hk | hk | hk | hk | hk | hk
  exacts [⟨.sageSealQuery via, rfl, and_not_decide_true h hk⟩, ⟨.sageSealLoadParameters via, rfl, and_decide_true h hk⟩,
    ⟨.sageSealSeal via, rfl, and_decide_true h hk⟩, ⟨.sageSealBreak via, rfl, and_decide_true h hk⟩,
    ⟨.sageSealPulseEnable via, rfl, and_decide_true h hk⟩, ⟨.sageSealPulseDisable via, rfl, and_decide_true h hk⟩]

theorem hasRow_lcTransition (h : (reqOpcode r).toNat = 0x0F02) : HasRow via r := by
  rcases (by omega : ¬ (1 ≤ kindOf r ∧ kindOf r ≤ 1) ∨ kindOf r = 1) with hk | hk
  exacts [⟨.lcTransitionQuery via, rfl, and_not_decide_true h hk⟩, ⟨.lcTransition via, rfl, and_decide_true h hk⟩]

/-- Every assigned opcode but that of SYS_SET_STATE stands in a row, class by class. -/
theorem hasRow_of_assigned (ha : assigned (reqOpcode r) = true) (hne : (reqOpcode r).toNat ≠ 0x0103) : HasRow via r := by
  have hn := Nat.div_add_mod (reqOpcode r).toNat 256
  unfold assigned at ha
  dsimp only at ha
  split at ha <;> rename_i hc <;> simp only [hc, Bool.or_eq_true, Bool.and_eq_true, decide_eq_true_eq, beq_iff_eq, Bool.false_eq_true] at ha hn
  · rcases (by omega : (reqOpcode r).toNat = 0x0100 ∨ (reqOpcode r).toNat = 0x0101 ∨ (reqOpcode r).toNat = 0x0102 ∨ (reqOpcode r).toNat = 0x0104 ∨ (reqOpcode r).toNat = 0x0110 ∨ (reqOpcode r).toNat = 0x0111 ∨ (reqOpcode r).toNat = 0x0112) with h | h | h | h | h | h | h
    exacts [⟨.sysIdentify via, rfl, decide_eq_true h⟩, ⟨.sysStatus via, rfl, decide_eq_true h⟩, ⟨.sysReset via, rfl, decide_eq_true h⟩,
      ⟨.sysPublishRate via, rfl, decide_eq_true h⟩, ⟨.evtRead via, rfl, decide_eq_true h⟩, ⟨.evtAck via, rfl, decide_eq_true h⟩,
      ⟨.evtMask via, rfl, decide_eq_true h⟩]
  · rcases (by omega : (reqOpcode r).toNat = 0x0200 ∨ (reqOpcode r).toNat = 0x0201 ∨ (reqOpcode r).toNat = 0x0202 ∨ (reqOpcode r).toNat = 0x0203) with h | h | h | h
    exacts [⟨.clkSetPlan via, rfl, decide_eq_true h⟩, ⟨.clkHop via, rfl, decide_eq_true h⟩, ⟨.clkStoreSearch via, rfl, decide_eq_true h⟩,
      ⟨.clkOutput via, rfl, decide_eq_true h⟩]
  · rcases (by omega : (reqOpcode r).toNat = 0x0300 ∨ (reqOpcode r).toNat = 0x0301 ∨ (reqOpcode r).toNat = 0x0302 ∨ (reqOpcode r).toNat = 0x0303 ∨ (reqOpcode r).toNat = 0x0310 ∨ (reqOpcode r).toNat = 0x0311) with h | h | h | h | h | h
    exacts [⟨.timeSetDomain via, rfl, decide_eq_true h⟩, ⟨.timeFeedOffset via, rfl, decide_eq_true h⟩, ⟨.timeSelectActive via, rfl, decide_eq_true h⟩,
      ⟨.timeRead via, rfl, decide_eq_true h⟩, hasRow_ethConfig h, ⟨.ethSessionOpen via, rfl, decide_eq_true h⟩]
  · rcases (by omega : (reqOpcode r).toNat = 0x0400 ∨ (reqOpcode r).toNat = 0x0401 ∨ (reqOpcode r).toNat = 0x0402 ∨ (reqOpcode r).toNat = 0x0403 ∨ (reqOpcode r).toNat = 0x0404 ∨ (reqOpcode r).toNat = 0x0405) with h | h | h | h | h | h
    exacts [⟨.snsRefEnable via, rfl, decide_eq_true h⟩, hasRow_snsConfig h, ⟨.snsCalZero via, rfl, decide_eq_true h⟩,
      ⟨.snsCalSpan via, rfl, decide_eq_true h⟩, ⟨.snsAccRead via, rfl, decide_eq_true h⟩, ⟨.snsUrgent via, rfl, decide_eq_true h⟩]
  · rcases (by omega : (reqOpcode r).toNat = 0x0500 ∨ (reqOpcode r).toNat = 0x0501 ∨ (reqOpcode r).toNat = 0x0502) with h | h | h
    exacts [⟨.fltLoad via, rfl, decide_eq_true h⟩, ⟨.fltAssign via, rfl, decide_eq_true h⟩, ⟨.fltQueryDelay via, rfl, decide_eq_true h⟩]
  · rcases (by omega : (reqOpcode r).toNat = 0x0600 ∨ (reqOpcode r).toNat = 0x0601 ∨ (reqOpcode r).toNat = 0x0602 ∨ (reqOpcode r).toNat = 0x0603 ∨ (reqOpcode r).toNat = 0x0604 ∨ (reqOpcode r).toNat = 0x0605) with h | h | h | h | h | h
    exacts [⟨.graphLoad via, rfl, decide_eq_true h⟩, hasRow_graphStart h, ⟨.graphStop via, rfl, decide_eq_true h⟩,
      ⟨.dillConfig via, rfl, decide_eq_true h⟩, ⟨.graphStats via, rfl, decide_eq_true h⟩, ⟨.graphWriteParam via, rfl, decide_eq_true h⟩]
  · rcases (by omega : (reqOpcode r).toNat = 0x0700 ∨ (reqOpcode r).toNat = 0x0701 ∨ (reqOpcode r).toNat = 0x0702 ∨ (reqOpcode r).toNat = 0x0703) with h | h | h | h
    exacts [hasRow_fuConfig h, ⟨.fuMode via, rfl, decide_eq_true h⟩, ⟨.fuSetpoint via, rfl, decide_eq_true h⟩,
      ⟨.fuSchedule via, rfl, decide_eq_true h⟩]
  · rcases (by omega : (reqOpcode r).toNat = 0x0800 ∨ (reqOpcode r).toNat = 0x0801 ∨ (reqOpcode r).toNat = 0x0802 ∨ (reqOpcode r).toNat = 0x0803 ∨ (reqOpcode r).toNat = 0x0804) with h | h | h | h | h
    exacts [hasRow_pwmTimer h, hasRow_pwmChannel h, ⟨.pwmEnable via, rfl, decide_eq_true h⟩,
      ⟨.pwmDisable via, rfl, decide_eq_true h⟩, ⟨.pwmWriteGroup via, rfl, decide_eq_true h⟩]
  · rcases (by omega : (reqOpcode r).toNat = 0x0900 ∨ (reqOpcode r).toNat = 0x0901 ∨ (reqOpcode r).toNat = 0x0902) with h | h | h
    exacts [hasRow_protConfig h, ⟨.protSelftest via, rfl, decide_eq_true h⟩, ⟨.protStatus via, rfl, decide_eq_true h⟩]
  · rcases (by omega : (reqOpcode r).toNat = 0x0A00 ∨ (reqOpcode r).toNat = 0x0A01 ∨ (reqOpcode r).toNat = 0x0A02 ∨ (reqOpcode r).toNat = 0x0A03 ∨ (reqOpcode r).toNat = 0x0A04) with h | h | h | h | h
    exacts [⟨.safeLoadParams via, rfl, decide_eq_true h⟩, ⟨.safeGetCheck via, rfl, decide_eq_true h⟩, ⟨.safeCommission via, rfl, decide_eq_true h⟩,
      ⟨.safeStatus via, rfl, decide_eq_true h⟩, ⟨.safeAckFault via, rfl, decide_eq_true h⟩]
  · rcases (by omega : (reqOpcode r).toNat = 0x0B00 ∨ (reqOpcode r).toNat = 0x0B01 ∨ (reqOpcode r).toNat = 0x0B02) with h | h | h
    exacts [hasRow_fioConfig h, ⟨.fioWrite via, rfl, decide_eq_true h⟩, ⟨.fioRead via, rfl, decide_eq_true h⟩]
  · rcases (by omega : (reqOpcode r).toNat = 0x0C00 ∨ (reqOpcode r).toNat = 0x0C01 ∨ (reqOpcode r).toNat = 0x0C02 ∨ (reqOpcode r).toNat = 0x0C03 ∨ (reqOpcode r).toNat = 0x0C04 ∨ (reqOpcode r).toNat = 0x0C05) with h | h | h | h | h | h
    exacts [⟨.canConfig via, rfl, decide_eq_true h⟩, ⟨.canSend via, rfl, decide_eq_true h⟩, ⟨.canCancel via, rfl, decide_eq_true h⟩,
      ⟨.canRxAck via, rfl, decide_eq_true h⟩, ⟨.canRecover via, rfl, decide_eq_true h⟩, ⟨.canTap via, rfl, decide_eq_true h⟩]
  · rcases (by omega : (reqOpcode r).toNat = 0x0D00 ∨ (reqOpcode r).toNat = 0x0D01 ∨ (reqOpcode r).toNat = 0x0D02 ∨ (reqOpcode r).toNat = 0x0D03) with h | h | h | h
    exacts [⟨.capConfig via, rfl, decide_eq_true h⟩, hasRow_capArm h, ⟨.capStatus via, rfl, decide_eq_true h⟩,
      hasRow_capTrigbusCal h]
  · rcases (by omega : (reqOpcode r).toNat = 0x0E00 ∨ (reqOpcode r).toNat = 0x0E01 ∨ (reqOpcode r).toNat = 0x0E02 ∨ (reqOpcode r).toNat = 0x0E03 ∨ (reqOpcode r).toNat = 0x0E04 ∨ (reqOpcode r).toNat = 0x0E05) with h | h | h | h | h | h
    exacts [⟨.sageRead via, rfl, decide_eq_true h⟩, ⟨.sageSignedRecord via, rfl, decide_eq_true h⟩, ⟨.sageSetTime via, rfl, decide_eq_true h⟩,
      ⟨.sageEventLog via, rfl, decide_eq_true h⟩, ⟨.sageRestore via, rfl, decide_eq_true h⟩, hasRow_sageSeal h]
  · rcases (by omega : (reqOpcode r).toNat = 0x0F00 ∨ (reqOpcode r).toNat = 0x0F01 ∨ (reqOpcode r).toNat = 0x0F02 ∨ (reqOpcode r).toNat = 0x0F03 ∨ (reqOpcode r).toNat = 0x0F04 ∨ (reqOpcode r).toNat = 0x0F05) with h | h | h | h | h | h
    exacts [⟨.otpWriteBlock via, rfl, decide_eq_true h⟩, ⟨.otpReadBlock via, rfl, decide_eq_true h⟩, hasRow_lcTransition h,
      ⟨.imgVerify via, rfl, decide_eq_true h⟩, ⟨.spareStatus via, rfl, decide_eq_true h⟩, ⟨.repairRestore via, rfl, decide_eq_true h⟩]

theorem hasRow_of_ne (hne : reqOpcode r ≠ 0x0103#16) : HasRow via r := by
  by_cases hv : opClass (reqOpcode r) = 0x7F
  · exact ⟨.vendorTestOpcode via, rfl, decide_eq_true hv⟩
  · cases ha : assigned (reqOpcode r) with
    | false => exact ⟨.unassignedOpcode via, rfl, by simp [ownRow, ha, hv]⟩
    | true => exact hasRow_of_assigned ha fun h => hne (BitVec.eq_of_toNat_eq h)

end

/-- Settles O60: each command serves the requests of its own row alone, and the header checks come before its card. -/
theorem refusedRequestsLeaveOnlyTheirReply : Obligations.RefusedRequestsLeaveOnlyTheirReply := by
  intro via s
  refine ⟨fun hn => ⟨fun c hv => ?_, fun fail => exec_sysSetState_other (by simp [hn])⟩, fun r st hr hh ho => ⟨fun c hv hown => ?_, fun c hv hown hf => exec_served_refused hv hr hh ho hown hf, fun hne => ⟨hasRow_of_ne hne, fun fail => ?_⟩,
    fun hop fail => exec_sysSetState_refused hr hop hh⟩, fun port sid hv ho => exec_ethSessionOpen_replayed hv ho, fun r c hr hf hv hp hown => exec_served_held hv hr hf hp hown⟩
  · exact exec_served_other hv (openReplayed_of_none hn) (by simp [hn])
  · refine exec_served_other hv ho fun r' hr' => ?_
    cases hr.symm.trans hr'
    exact hown
  · refine exec_sysSetState_other fun r' hr' => ?_
    cases hr.symm.trans hr'
    simpa [isOp] using hne

end Sys2Proof.Proofs

/-! ## Sessions and their datagrams -/

namespace Sys2Proof.Proofs

open Sys2Proof Sys2Proof.Machine Sys2Proof.Claims Sys2Proof.Laws

/-! ### Frames that come to an Ethernet port -/

section
variable {port len : Nat} {tag : Option Nat} {s : State} {run : State → Host.Outcome State Fault Refusal}

theorem ethTake_of_arrives (h : arrives s port tag len) : ethTake port tag len s run = run (countRx port s) := by
  obtain ⟨hup, hfits⟩ := h
  unfold ethTake
  rw [if_neg (by simp [hup])]
  exact if_pos hfits

theorem ethTake_of_misfit (hup : ethUp s port = true) (h : ¬ arrives s port tag len) : ethTake port tag len s run = .next (ethDrop port (countRx port s)) := by
  unfold ethTake
  rw [if_neg (by simp [hup])]
  exact if_neg fun hfits => h ⟨hup, hfits⟩

theorem ethTake_of_down (hup : ethUp s port = false) : ethTake port tag len s run = .next (missedRx port s) :=
  if_pos (by simp [hup])

end

/-! ### Datagrams by their session identifier -/

section
variable {port : Nat} {tag : Option Nat} {ip : U32} {src : U16} {bytes : Bytes} {s : State}

theorem udpDatagram_of_down (hup : ethUp s port = false) : exec (.udpDatagram port tag ip src bytes) s = .next (missedRx port s) := by
  show execUdpDatagram port tag ip src bytes s = _
  unfold execUdpDatagram
  exact ethTake_of_down hup

theorem udpDatagram_of_misfit (hup : ethUp s port = true) (h : ¬ arrives s port tag (bytes.length + 46)) :
    exec (.udpDatagram port tag ip src bytes) s = .next (ethDrop port (countRx port s)) := by
  show execUdpDatagram port tag ip src bytes s = _
  unfold execUdpDatagram
  exact ethTake_of_misfit hup h

theorem udpDatagram_short (h : arrives s port tag (bytes.length + 46)) (hn : bytes.length < 28) :
    exec (.udpDatagram port tag ip src bytes) s = .next (udpAuthFail port ip (u32At bytes 0) (countRx port s)) := by
  show execUdpDatagram port tag ip src bytes s = _
  unfold execUdpDatagram
  rw [udpLength, ethTake_of_arrives h]
  exact if_pos hn

theorem udpDatagram_open (h : arrives s port tag (bytes.length + 46)) (hn : ¬ bytes.length < 28) (h0 : u32At bytes 0 = 0) :
    exec (.udpDatagram port tag ip src bytes) s = .next (udpOpen port ip src (bytes.take (bytes.length - 8)) (bytes.drop (bytes.length - 8))
      ((bytes.take (bytes.length - 8)).drop 8) (countRx port s)) := by
  show execUdpDatagram port tag ip src bytes s = _
  unfold execUdpDatagram
  rw [udpLength, ethTake_of_arrives h]
  exact (if_neg hn).trans (if_pos h0)

theorem udpDatagram_of_session (h : arrives s port tag (bytes.length + 46)) (hn : ¬ bytes.length < 28) (h0 : u32At bytes 0 ≠ 0) :
    exec (.udpDatagram port tag ip src bytes) s = .next ((findSession s port (u32At bytes 0)).elim (udpAuthFail port ip (u32At bytes 0) (countRx port s))
      fun x => udpSession port ip src x (u32At bytes 4) (bytes.take (bytes.length - 8)) (bytes.drop (bytes.length - 8))
        ((bytes.take (bytes.length - 8)).drop 8) (countRx port s)) := by
  show execUdpDatagram port tag ip src bytes s = _
  unfold execUdpDatagram
  rw [udpLength, ethTake_of_arrives h]
  refine (if_neg hn).trans ((if_neg h0).trans ?_)
  have hf : findSession (countRx port s) port (u32At bytes 0) = findSession s port (u32At bytes 0) := rfl
  rw [hf]
  cases findSession s port (u32At bytes 0) <;> rfl

end

/-! ### A datagram of an open session -/

theorem u32At_le32_append (a : U32) (l : Bytes) : u32At (le32 a ++ l) 0 = a := u32At_le32 a
theorem u32At_le32_append_le32 (a b : U32) (l : Bytes) : u32At (le32 a ++ (le32 b ++ l)) 4 = b := u32At_le32 b

section
variable {port : Nat} {tag : Option Nat} {ip sid seq : U32} {src : U16} {packet mac : Bytes} {s : State} {x : Session}

/-- A datagram of an open session, taken apart. -/
theorem udpDatagram_parts (h : arrives s port tag (54 + packet.length + mac.length)) (hsid : sid ≠ 0) (hp : 12 ≤ packet.length) (hmac : mac.length = 8)
    (hx : findSession s port sid = some x) :
    exec (.udpDatagram port tag ip src (le32 sid ++ le32 seq ++ packet ++ mac)) s
      = .next (udpSession port ip src x seq (le32 sid ++ le32 seq ++ packet) mac packet (countRx port s)) := by
  have hlen : (le32 sid ++ le32 seq ++ packet ++ mac).length = (le32 sid ++ le32 seq ++ packet).length + 8 := by rw [List.length_append, hmac]
  have hbody : (le32 sid ++ le32 seq ++ packet).length = 8 + packet.length := by simp [le32_length]; omega
  have h0 : u32At (le32 sid ++ le32 seq ++ packet ++ mac) 0 = sid := by simp only [List.append_assoc, u32At_le32_append]
  have h4 : u32At (le32 sid ++ le32 seq ++ packet ++ mac) 4 = seq := by simp only [List.append_assoc, u32At_le32_append_le32]
  rw [udpDatagram_of_session (by rw [hlen, hbody]; convert h using 1; omega) (by rw [hlen, hbody]; omega) (by rw [h0]; exact hsid), h0, h4, hx, hlen, Nat.add_sub_cancel,
    List.take_left, List.drop_left]
  rfl

theorem udpSession_wrong {body : Bytes} (h : mac ≠ cmac8 x.key body ∨ packet.length ≠ 12 + n16At packet 6) :
    udpSession port ip src x seq body mac packet s = udpAuthFail port ip x.sid s := if_pos h

theorem udpSession_replayed {body : Bytes} (hmac : mac = cmac8 x.key body) (hlen : packet.length = 12 + n16At packet 6) (h : seqFresh x seq = false) :
    udpSession port ip src x seq body mac packet s = udpReplay port x.sid seq s := by
  unfold udpSession
  rw [if_neg (by simp [← hmac, ← hlen]), if_pos (by simp [h])]

/-- A fresh request of a session with room joins the queue; its sequence is recorded. -/
theorem udpSession_taken {body : Bytes} (hmac : mac = cmac8 x.key body) (hlen : packet.length = 12 + n16At packet 6) (h : seqFresh x seq = true)
    (hlast : seq ≠ 0xFFFFFFFE#32) (hroom : x.owing < 4) :
    udpSession port ip src x seq body mac packet s =
      { s with udp := { s.udp with
          sessions := s.udp.sessions.map (fun y => if y.port = port ∧ y.sid = x.sid then { recordSeq seq s.time.raw y with owing := y.owing + 1 } else y)
          queue := s.udp.queue ++ [udpReq port x.sid seq ip src packet] } } := by
  unfold udpSession
  rw [if_neg (by simp [← hmac, ← hlen]), if_neg (by simp [h])]
  dsimp only
  rw [if_neg hlast, if_neg (by omega)]
  simp only [updSession, List.map_map]
  congr 2
  refine List.map_congr_left fun y _ => ?_
  by_cases hy : y.port = port ∧ y.sid = x.sid
  · simp [hy, recordSeq]
  · simp [hy]

/-- A fifth request waits for its turn as refused with E_QUEUE_FULL; its sequence is recorded. -/
theorem udpSession_full {body : Bytes} (hmac : mac = cmac8 x.key body) (hlen : packet.length = 12 + n16At packet 6) (h : seqFresh x seq = true)
    (hlast : seq ≠ 0xFFFFFFFE#32) (hfull : 4 ≤ x.owing) {t : State} (ht : t = post 0x0107#16 (port + 1) [] (updSession port x.sid (recordSeq seq s.time.raw) s)) :
    udpSession port ip src x seq body mac packet s = flushTurn (.udp port x.sid)
      { t with udp := { t.udp with queue := s.udp.queue ++ [{ udpReq port x.sid seq ip src packet with refusal := some E_QUEUE_FULL }] } } := by
  have hq : t.udp = (updSession port x.sid (recordSeq seq s.time.raw) s).udp := by
    rw [ht]; exact post_reading (v := State.udp) (fun _ _ _ => rfl) ..
  unfold udpSession
  rw [if_neg (by simp [← hmac, ← hlen]), if_neg (by simp [h])]
  dsimp only
  rw [if_neg hlast, if_pos hfull, ← ht]
  have hqueue : t.udp.queue = s.udp.queue := by rw [hq]; rfl
  rw [hqueue]
  rfl

theorem seqFresh_of_lt (h : x.high.toNat < seq.toNat) (h' : seq.toNat < 0xFFFFFFFE) : seqFresh x seq = true := by
  have h0 : seq ≠ 0#32 := by rintro rfl; simp at h
  have h1 : seq ≠ 0xFFFFFFFF#32 := by rintro rfl; simp at h'
  simp [seqFresh, h0, h1, h]

theorem seqFresh_of_recorded (h : (x.window.contains seq = true ∧ seq.toNat ≤ x.high.toNat) ∨ seq = 0 ∨ seq = 0xFFFFFFFF#32) : seqFresh x seq = false := by
  unfold seqFresh
  obtain ⟨hw, hh⟩ | rfl | rfl := h
  · rw [hw]; simp [hh]
  · simp
  · simp

end


/-! ### Opening a session -/

theorem slice_all {b : Bytes} {n : Nat} (h : b.length = n) : slice b 0 n = b := by
  rw [slice_of_le h.ge, ← h, List.take_length]

/-- A session-0 datagram under K_CMD whose nonce is not recorded joins the queue. -/
theorem udpOpen_taken {port : Nat} {ip : U32} {src : U16} {k packet mac : Bytes} {s : State} (hk : kCmd s = some k) (hmac : mac = cmac8 k (zeros 8 ++ packet))
    (hlen : packet.length = 12 + n16At packet 6) (hn : (portNonces s port).contains (slice packet 8 16) = false) :
    udpOpen port ip src (zeros 8 ++ packet) mac packet s = { s with udp := { s.udp with queue := s.udp.queue ++ [udpReq port 0 0 ip src packet] } } := by
  unfold udpOpen
  rw [hk]
  have h4 : u32At (zeros 8 ++ packet) 4 = 0 := by
    show u32At (zeros 8) 4 = 0
    decide
  dsimp only
  rw [if_neg (by simp [← hmac, ← hlen, h4]), if_neg (fun h => by rw [hn] at h; exact Bool.noConfusion h.2)]

/-- A session opens on a port with room. -/
theorem sessionOpenRun_room {port : Nat} {sid0 : U32} {s : State} {r : Req} {k p : Bytes} (hvia : r.via = .udp port sid0) (hk : kCmd s = some k)
    (hp : reqParams r = p) (hlen : p.length = 16) (hroom : (s.udp.sessions.filter (fun x => x.port = port)).length < 2) :
    ∃ (nonce : Bytes) (sid : U32) (t : State), sessionOpenRun s r = .done t (nonce ++ le32 sid ++ n16 60 ++ n8 port ++ [0])
      ∧ nonce.length = 16 ∧ (portNonces t port).contains p = true
      ∧ t.udp.sessions = s.udp.sessions ++ [{ port := port, sid := sid, ip := r.srcIp, high := 0, window := [], txSeq := 1, lastReq := s.time.raw, owing := 0
                                              key := cmac16 k ([0x4F#8, 0x5A, 0x53, 0x4B] ++ p ++ nonce ++ le32 sid) }]
      ∧ t = { s with udp := t.udp, free := t.free } := by
  unfold sessionOpenRun
  rw [hvia, hk, hp]
  dsimp only
  rw [if_neg (by simp [hlen]), if_pos hroom]
  obtain ⟨f, hf⟩ := drawBytes_snd 16 s
  have hl := drawBytes_fst_length 16 s
  generalize drawBytes 16 s = d at hf hl
  obtain ⟨nonce, s2⟩ := d
  simp only at hf hl
  subst hf
  refine ⟨nonce, _, _, if_neg (by simp [hroom]), hl, ?_, rfl, rfl⟩
  by_cases h0 : port = 0 <;> simp [portNonces, h0, draw]


theorem kCmd_taken (s : State) (via : Transport) : kCmd (taken s via) = kCmd s := by rw [taken_change]; rfl

section
variable {port : Nat} {s : State} {r : Req} {p : Bytes}

theorem openReplayed_of_takes (h : Takes 0x0311#16 (.udp port 0) s r) (hp : reqParams r = p) (hlen : p.length = 16) :
    openReplayed s (.udp port 0) = (portNonces s port).contains p := by
  unfold openReplayed
  rw [h.1]
  show (isOp 0x0311#16 r && (portNonces s port).contains (slice (reqParams r) 0 16)) = _
  rw [isOp_takes h, hp, slice_all hlen, Bool.true_and]

/-- A request to open a session on a port with room is answered with the nonce, the identifier, the idle limit and the port. -/
theorem ethSessionOpen_room {k : Bytes} (h : Takes 0x0311#16 (.udp port 0) s r) (hvia : r.via = .udp port 0) (hb : s.sys.dev ≠ .boot) (hk : kCmd s = some k)
    (hp : reqParams r = p) (hlen : p.length = 16) (hn : (portNonces s port).contains p = false)
    (hroom : ((taken s (.udp port 0)).udp.sessions.filter (fun x => x.port = port)).length < 2) :
    ∃ (nonce : Bytes) (sid : U32) (t : State),
      exec (.ethSessionOpen (.udp port 0)) s = replied r OK (nonce ++ le32 sid ++ n16 60 ++ n8 port ++ [0]) t
      ∧ nonce.length = 16 ∧ (portNonces t port).contains p = true
      ∧ t.udp.sessions = (taken s (.udp port 0)).udp.sessions ++ [{ port := port, sid := sid, ip := r.srcIp, high := 0, window := [], txSeq := 1, lastReq := s.time.raw, owing := 0
                                                                    key := cmac16 k ([0x4F#8, 0x5A, 0x53, 0x4B] ++ p ++ nonce ++ le32 sid) }]
      ∧ t = { taken s (.udp port 0) with udp := t.udp, free := t.free } := by
  obtain ⟨nonce, sid, t, hrun, hnonce, hkept, hsess, ht⟩ := sessionOpenRun_room (s := taken s (.udp port 0)) hvia ((kCmd_taken ..).trans hk) hp hlen hroom
  have htime : (taken s (.udp port 0)).time.raw = s.time.raw := by simp only [taken_time]
  rw [htime] at hsess
  refine ⟨nonce, sid, t, ?_, hnonce, hkept, hsess, ht⟩
  show execEthSessionOpen _ s = _
  unfold execEthSessionOpen
  rw [if_neg (by rw [openReplayed_of_takes h hp hlen, hn]; decide)]
  exact next_runCard_done h (isOp_takes h) rfl (inAll4_of_ne_boot hb) hrun

end

/-! ### The idle time -/

/-- A state without a session and the requests that wait in it. -/
def withoutSession (port : Nat) (sid : U32) (s : State) : State :=
  { s with udp := { s.udp with sessions := s.udp.sessions.filter (fun y => !(decide (y.port = port) && y.sid == sid))
                               queue := s.udp.queue.filter (fun q => !(q.via == Transport.udp port sid)) } }

section
variable {port : Nat} {sid : U32}

theorem closeSession_of_found {k : Nat} {s : State} {x : Session} (hx : findSession s port sid = some x) :
    closeSession port sid k s = capSessionClosed port sid (post 0x010A#16 (port + 1) (le32 sid ++ n8 k) (withoutSession port sid s)) := by
  unfold closeSession
  rw [hx]
  rfl

theorem capSessionClosed_evt (s : State) : (capSessionClosed port sid s).evt = s.evt := by
  unfold capSessionClosed capShutdown
  (repeat' split) <;> rfl

end

theorem sessionIdleTimeout_none {port : Nat} {sid : U32} {s : State} (h : findSession s port sid = none) : exec (.sessionIdleTimeout port sid) s = .next s := by
  show execSessionIdleTimeout port sid s = _
  unfold execSessionIdleTimeout
  rw [h]

theorem sessionIdleTimeout_some {port : Nat} {sid : U32} {s : State} {x : Session} (h : findSession s port sid = some x) :
    exec (.sessionIdleTimeout port sid) s = .next (closeSession port sid 0 (advanceTo (x.lastReq + 60000000000) s)) := by
  show execSessionIdleTimeout port sid s = _
  unfold execSessionIdleTimeout
  rw [h]


theorem cmac8_length (key msg : Bytes) : (cmac8 key msg).length = 8 := by simp [cmac8, aesCmac, beBytes]

/-- Settles O13: datagrams by their session identifier, the opening of a session and the end of its idle time. -/
theorem sessionsAndTheirDatagrams : Obligations.SessionsAndTheirDatagrams := by
  refine ⟨fun port tag ip src sid seq packet mac s x harr hsid hp hmac hx hxs hxp => ?_, fun port tag ip src bytes s => ?_,
    fun port s r k p h hvia hb hk hpar hlen => ⟨ethSessionOpen_room h hvia hb hk hpar hlen, fun hn => ?_⟩, fun port sid s => ⟨sessionIdleTimeout_none, fun x hx => ?_⟩⟩
  · rw [udpDatagram_parts harr hsid hp hmac hx]
    subst hxs hxp
    refine ⟨fun hm hl hlt hlast => ⟨fun hroom => ?_, fun hfull t ht => ?_⟩, fun hm hl h => ?_, fun h => congrArg _ (udpSession_wrong h)⟩
    · rw [udpSession_taken hm hl (seqFresh_of_lt hlt hlast) (by rintro rfl; simp at hlast) hroom]
      exact ⟨_, rfl, rfl, rfl, rfl, rfl⟩
    · rw [udpSession_full hm hl (seqFresh_of_lt hlt hlast) (by rintro rfl; simp at hlast) hfull ht]
      rfl
    · rw [udpSession_replayed hm hl (seqFresh_of_recorded h)]
      rfl
  · refine ⟨udpDatagram_of_down, udpDatagram_of_misfit, fun harr h => ?_, fun k packet harr hk hb hp hl hn => ?_⟩
    · by_cases hlt : bytes.length < 28
      · exact udpDatagram_short harr hlt
      · obtain hlt' | ⟨h0, hf⟩ := h
        · exact absurd hlt' hlt
        · rw [udpDatagram_of_session harr hlt h0, hf]
          rfl
    · have hlen : bytes.length = (zeros 8 ++ packet).length + 8 := by rw [hb, List.length_append (bs := cmac8 ..), cmac8_length]
      have hz : (zeros 8 ++ packet).length = 8 + packet.length := by simp [zeros]; omega
      have h0 : u32At bytes 0 = 0 := by
        rw [hb]
        show u32At (zeros 8) 0 = 0
        decide
      rw [udpDatagram_open harr (by omega) h0, hlen, Nat.add_sub_cancel, hb, List.take_left, List.drop_left]
      exact congrArg _ (udpOpen_taken (s := countRx port s) hk rfl hl hn)
  · exact exec_ethSessionOpen_replayed rfl (by rw [openReplayed_of_takes h hpar hlen, hn])
  · have hc := closeSession_of_found (k := 0) (s := advanceTo (x.lastReq + 60000000000) s) hx
    refine ⟨_, sessionIdleTimeout_some hx, ?_⟩
    have hlog : LogOnly (withoutSession port sid (advanceTo (x.lastReq + 60000000000) s)) (closeSession port sid 0 (advanceTo (x.lastReq + 60000000000) s)) := by
      rw [hc]; exact (post_log ..).trans (capSessionClosed_log ..)
    have hevt := (congrArg State.evt hc).trans (capSessionClosed_evt _)
    generalize closeSession port sid 0 (advanceTo (x.lastReq + 60000000000) s) = t at hlog hevt
    exact ⟨by rw [hlog.udp]; rfl, by rw [hlog.udp]; rfl, by rw [hlog.time]; rfl, Eq.trans hlog (by rw [hlog.udp, hlog.time]; rfl), by rw [hevt, hlog.udp, hlog.time]; rfl⟩

end Sys2Proof.Proofs

/-! ## The steps of BOOT -/

namespace Sys2Proof.Proofs

open Sys2Proof Sys2Proof.Machine Sys2Proof.Claims Sys2Proof.Laws

/-! ### Readings that no retirement touches -/

/-- A reading that shows nothing of what a retirement outside RUN changes: the sense path, the filters and the field link beside what a
run changes. -/
structure RetireBlind {α : Type} (v : State → α) : Prop where
  run : RunBlind v
  paths : ∀ (s : State) (x : Sense) (y : Machine.Filter) (f : Field) (r : Rel), v { s with sense := x, flt := y, field := f, rel := r } = v s

section
variable {α : Type} {v : State → α} (hv : RetireBlind v)
include hv

theorem RetireBlind.decideRetire_reading (r : Retirement) (s : State) : v (decideRetire r s) = v s := by
  unfold decideRetire
  split
  · rfl
  · exact updRel_reading hv.run ..

theorem RetireBlind.shutAll_reading (ns : List Nat) (s : State) : v (forEach ns forcedShutdown s) = v s :=
  forEach_reading (forcedShutdown_reading hv.run.1) ns s

theorem RetireBlind.retireSar_reading (r : Retirement) (s : State) : v (retireSar r s) = v s := by
  have hpost (c : U16) (n : Nat) (d : Bytes) (s : State) : v (post c n d s) = v s := post_reading hv.run.1.log ..
  have hfinish (sp : Option Nat) (s : State) : v (finishRetire r sp s) = v s := finishRetire_reading hv.run ..
  unfold retireSar
  split
  · exact (hfinish ..).trans (hv.paths s ..)
  · split
    · exact (hfinish ..).trans ((hpost ..).trans (hv.paths s ..))
    · exact (hfinish ..).trans ((hpost ..).trans ((hv.shutAll_reading ..).trans (hv.paths s ..)))

theorem RetireBlind.stopChannels_reading (chs : List Nat) (s : State) : v (stopChannels chs s).2 = v s :=
  (hv.shutAll_reading ..).trans (hv.paths s s.sense _ s.field s.rel)

theorem RetireBlind.retireMac_reading (r : Retirement) (s : State) : v (retireMac r s) = v s := by
  have hpost (c : U16) (n : Nat) (d : Bytes) (s : State) : v (post c n d s) = v s := post_reading hv.run.1.log ..
  have hfinish (sp : Option Nat) (s : State) : v (finishRetire r sp s) = v s := finishRetire_reading hv.run ..
  unfold retireMac
  split
  · exact (hfinish ..).trans (hv.paths s ..)
  · split
    · exact (hfinish ..).trans ((hpost ..).trans (hv.paths s ..))
    · exact (hfinish ..).trans ((hpost ..).trans ((hpost ..).trans ((hv.stopChannels_reading ..).trans (hv.paths s ..))))

theorem RetireBlind.field_reading (f : Field) (s : State) : v { s with field := f } = v s := hv.paths s s.sense s.flt f s.rel

theorem RetireBlind.settleLanes_reading (s : State) : v (settleLanes s) = v s := by
  have hfinish (r : Retirement) (sp : Option Nat) (s : State) : v (finishRetire r sp s) = v s := finishRetire_reading hv.run ..
  unfold settleLanes
  split
  · rfl
  · dsimp only
    split
    · exact (hfinish ..).trans (hv.paths s ..)
    · split
      · exact (hfinish ..).trans (updRel_reading hv.run ..)
      · rfl

theorem RetireBlind.swapLane_reading (s : State) : v (swapLane s) = v s := by
  unfold swapLane
  split
  · exact (hv.settleLanes_reading ..).trans ((finishRetire_reading hv.run ..).trans ((post_reading hv.run.1.log ..).trans (hv.paths s ..)))
  · exact hv.field_reading ..

theorem RetireBlind.stopCheck_reading (k : Nat) (s : State) : v (stopCheck k s) = v s :=
  hv.run.1 s { s.loop with checkers := _ } s.fus s.gov s.evt s.cap s.pwm.groups s.pwm.channels s.pwm.units s.pwm.cmps s.pwm.hbs

theorem RetireBlind.takeOver_reading (e p : Nat) (s : State) : v (takeOver e p s) = v s := by
  have hengine (e : Nat) (f : Engine → Engine) (s : State) : v (updEngine e f s) = v s := updEngine_reading hv.run.1.sched ..
  have hcheck (k : Nat) (s : State) : v (if (s.loop.checkers.getD (k - 16) checker0).target = some e then stopCheck k s else s) = v s := by
    split
    · exact hv.stopCheck_reading ..
    · rfl
  unfold takeOver
  refine (hv.stopCheck_reading ..).trans ((forEach_reading hcheck _ _).trans ?_)
  split
  · exact (updStage_reading hv.run.1 ..).trans ((hengine ..).trans (hengine ..))
  · exact (hengine ..).trans (hengine ..)

theorem RetireBlind.swapIdleEngine_reading (r : Retirement) (s : State) : v (swapIdleEngine r s) = v s := by
  have hfinish (sp : Option Nat) (s : State) : v (finishRetire r sp s) = v s := finishRetire_reading hv.run ..
  have hengine (f : Engine → Engine) (s : State) : v (updEngine r.index f s) = v s := updEngine_reading hv.run.1.sched ..
  unfold swapIdleEngine
  extract_lets x live s1
  have h1 : v s1 = v s := hengine ..
  split
  · exact (hfinish ..).trans ((hv.stopCheck_reading ..).trans (hengine ..))
  · split
    · split
      · rfl
      · exact (hfinish ..).trans (hv.takeOver_reading ..)
    · split
      · split
        · exact (hfinish ..).trans ((post_reading hv.run.1.log ..).trans ((forcedShutdown_reading hv.run.1 ..).trans h1))
        · exact (hfinish ..).trans h1
      · exact (hfinish ..).trans h1

theorem RetireBlind.settleEngines_reading (k : Nat) (s : State) : v (settleEngines k s) = v s := by
  induction k generalizing s with
  | zero => rfl
  | succ k ih =>
    unfold settleEngines
    split
    · rfl
    · split
      · rfl
      · dsimp only
        split
        · exact hv.swapIdleEngine_reading ..
        · exact (ih _).trans (hv.swapIdleEngine_reading ..)

theorem RetireBlind.settleIdle_reading (s : State) : v (settleIdle s) = v s :=
  (arrangeUnits_reading hv.run ..).trans (hv.settleEngines_reading ..)

theorem RetireBlind.rowGone_reading (r : Retirement) (s : State) : v (rowGone r s) = v s := by
  unfold rowGone
  split
  · exact (hv.settleEngines_reading ..).trans (hv.decideRetire_reading ..)
  · rfl

theorem RetireBlind.remapRow_reading (r : Retirement) (s : State) : v (remapRow r s) = v s := by
  unfold remapRow
  extract_lets k _ s1
  have h1 : v s1 = v s := (finishRetire_reading hv.run ..).trans (updRel_reading hv.run ..)
  split
  · exact (hv.rowGone_reading ..).trans h1
  · exact h1

theorem RetireBlind.retireNow_reading (r : Retirement) (s : State) : v (retireNow r s) = v s := by
  have hdecide := hv.decideRetire_reading r s
  unfold retireNow
  split
  · rfl
  · dsimp only
    generalize decideRetire r s = t at hdecide
    split
    · exact hdecide
    · refine Eq.trans ?_ hdecide
      split
      · exact hv.remapRow_reading ..
      · exact hv.retireSar_reading ..
      · exact hv.retireMac_reading ..
      · split
        · exact (hv.swapLane_reading ..).trans (hv.field_reading ..)
        · exact hv.settleLanes_reading ..
      · exact hv.settleIdle_reading ..

theorem RetireBlind.applyRepairLog_reading (s : State) : v (applyRepairLog s) = v s := by
  refine (updRel_reading hv.run ..).trans (forEach_reading (fun i u => ?_) _ s)
  dsimp only
  split
  · rfl
  · exact hv.retireNow_reading ..

end


/-! ### The release -/

/-- What a retirement of BOOT leaves: time, the system's state, the command port and the clocks. -/
def unretired (s : State) : Thyme × Sys × CmdPort × Clocks := (s.time, s.sys, s.cmd, s.clk)

theorem unretired_retireBlind : RetireBlind unretired := ⟨⟨fun _ _ _ _ _ _ _ _ _ _ _ => rfl, fun _ _ _ => rfl⟩, fun _ _ _ _ _ => rfl⟩

section
variable {s : State} {bs held clear : Nat} {rails : List F32}

/-- The reset pins, the rails and the last internal cause let the reset end. -/
theorem releaseReady_iff {pn wn : Bool} : releaseReady rails pn wn clear s = true ↔ pn = true ∧ wn = true
    ∧ (∀ i < 5, f32Lt (toF32 (mkRat (([755, 755, 1680, 3050, 3050] : List Nat).getD i 0) 1000)) (rails.getD i 0) = true) ∧ (s.sys.intern = true → 10000 ≤ clear) := by
  have hintern : (!s.sys.intern || decide (clear ≥ 10000)) = true ↔ (s.sys.intern = true → 10000 ≤ clear) := by
    cases s.sys.intern <;> simp
  rw [releaseReady, Bool.and_eq_true, Bool.and_eq_true, Bool.and_eq_true, hintern, List.all_eq_true]
  simp only [List.mem_range, and_assoc]
  exact Iff.rfl

/-- The state at t_rel, before the repairs are applied (R118, R128, R544). -/
def released (bs : Nat) (s : State) : State :=
  { s with time := { s.time with raw := 0, fbStart := some 0, fbCount := 1 }
           sys := { s.sys with phase := .wiping, bootsel := bs % 4, lifecycle := lifecycleOf s } }

theorem resetRelease_ends (hphase : s.sys.phase = .inReset) (hready : releaseReady rails true true clear s = true) (hheld : 1000 ≤ held) :
    exec (.resetRelease bs rails held true true clear) s = .next (applyRepairLog (released bs s)) := by
  show execResetRelease bs rails held true true clear s = _
  unfold execResetRelease qualified
  rw [if_neg (by simp [hphase, hready]), if_pos hheld]
  rfl

theorem resetRelease_stays {pn wn : Bool} (h : s.sys.phase ≠ .inReset ∨ releaseReady rails pn wn clear s = false ∨ held < 500) :
    exec (.resetRelease bs rails held pn wn clear) s = .next s := by
  show execResetRelease bs rails held pn wn clear s = _
  unfold execResetRelease
  by_cases hgo : s.sys.phase ≠ .inReset ∨ (!releaseReady rails pn wn clear s) = true
  · exact if_pos hgo
  · have hheld : held < 500 := by
      push Not at hgo
      obtain h | h | h := h
      · exact absurd hgo.1 h
      · rw [h] at hgo; simp at hgo
      · exact h
    rw [if_neg hgo, qualified, if_neg (by omega), if_pos hheld]
    rfl

end

/-! ### The end of the wipe -/

/-- What a relock and a lost clock leave: the raw count, the system's state, the command port; and the clocks. -/
def clocked (s : State) : Nat × Sys × CmdPort × Clocks := (s.time.raw, s.sys, s.cmd, s.clk)

theorem clocked_canBlind : CanBlind clocked := fun _ _ _ _ => rfl

theorem attemptFailed_reading {α : Type} {v : State → α} (hv : CanBlind v) (p : Nat) (s : State) : v (attemptFailed p s) = v s := by
  have hcan (x : Can) (s : State) : v { s with can := x } = v s := can_reading hv s x
  have hnext (e : Nat) (s : State) : v (tapNext p e s) = v s := by
    unfold tapNext
    split
    · exact (hcan ..).trans ((hcan ..).trans ((hcan ..).trans (hcan ..)))
    · rfl
  unfold attemptFailed
  dsimp only
  split
  · rfl
  · refine (hnext ..).trans ?_
    split
    · exact (hcan ..).trans ((txOutcome_reading hv ..).trans (hcan ..))
    · exact hcan ..

theorem canClockLost_clocked (s : State) : clocked (canClockLost s) = clocked s := by
  refine forEach_reading (fun p s => ?_) _ s
  dsimp only
  split
  · rfl
  · exact attemptFailed_reading clocked_canBlind p _

theorem toFallback_clocked (s : State) : clocked (toFallback s) = clocked s := by
  have h := canClockLost_clocked s
  unfold toFallback
  split
  · rfl
  · generalize canClockLost s = t at h
    exact h

theorem updFch_clocked (c : Nat) (f : FltCh → FltCh) (s : State) : clocked (updFch c f s) = clocked s := rfl
theorem focEval_clocked (k : Nat) (s : State) : clocked (focEval k s) = clocked s := rfl

theorem mclkChanged_clocked (g : Nat) (s : State) : clocked (mclkChanged g s) = clocked s := by
  have hclear : clocked (if mclkRuns s g then s else forEach (List.range 6) (fun i => updFch (6 * g + i) silenced) s) = clocked s := by
    split
    · rfl
    · exact forEach_reading (fun i u => updFch_clocked (6 * g + i) silenced u) _ s
  exact (forEach_reading (fun i u => (focEval_clocked (6 * g + i) _).trans (updFch_clocked ..)) _ _).trans hclear

theorem gateOutputs_clocked (i : Nat) (s : State) : clocked (gateOutputs i s) = clocked (updPll i (fun x => { x with gated := everyOutput i, alignAt := none }) s) := by
  unfold gateOutputs
  dsimp only
  split
  · exact toFallback_clocked ..
  · exact forEach_reading mclkChanged_clocked _ _

/-- The relock of an ADPLL begins with its plan of BOOT. -/
def relockPlan (i : Nat) (s : State) : State := startRelock i false none 1 (updPll i (fun x => { x with plan := bootPlan s i, band := 0, fine := 0 }) s)

theorem relockPlan_clocked (i : Nat) (s : State) : ∃ f g h : Adpll → Adpll, clocked (relockPlan i s) = clocked (updPll i f (updPll i g (updPll i h s)))
    ∧ ∀ x, (f (g x)).state = .search ∧ (f (g x)).relock = some { start := s.time.raw, hop := false, request := none, attempt := 1 } :=
  ⟨_, _, _, gateOutputs_clocked i _, fun _ => ⟨rfl, rfl⟩⟩

theorem getPll_of_clocked {s t : State} (h : clocked t = clocked s) (j : Nat) : getPll t j = getPll s j :=
  congrArg (fun c => c.2.2.2.plls.getD j adpll0) h

section
variable {s : State} {i : Nat}

theorem relockPlan_rest : (relockPlan i s).time.raw = s.time.raw ∧ (relockPlan i s).sys = s.sys ∧ (relockPlan i s).cmd = s.cmd
    ∧ (relockPlan i s).clk.plls.length = s.clk.plls.length := by
  obtain ⟨f, g, h, hc, -⟩ := relockPlan_clocked i s
  generalize relockPlan i s = t at hc
  simp only [clocked, Prod.mk.injEq] at hc
  obtain ⟨hraw, hsys, hcmd, hclk⟩ := hc
  exact ⟨hraw, hsys, hcmd, by rw [hclk]; simp only [updPll, upd_length]⟩

theorem getPll_relockPlan_ne {j : Nat} (hj : j ≠ i) : getPll (relockPlan i s) j = getPll s j := by
  obtain ⟨f, g, h, hc, -⟩ := relockPlan_clocked i s
  rw [getPll_of_clocked hc]
  simp only [getPll, updPll, getD_upd_ne _ _ hj]

theorem getPll_relockPlan_same (hi : i < s.clk.plls.length) : (getPll (relockPlan i s) i).state = .search
    ∧ (getPll (relockPlan i s) i).relock = some { start := s.time.raw, hop := false, request := none, attempt := 1 } := by
  obtain ⟨f, g, h, hc, hx⟩ := relockPlan_clocked i s
  have hget : getPll (relockPlan i s) i = f (g (h (getPll s i))) := by
    rw [getPll_of_clocked hc]
    simp only [getPll, updPll]
    rw [getD_upd_same _ _ (by simpa only [upd_length] using hi), getD_upd_same _ _ (by simpa only [upd_length] using hi), getD_upd_same _ _ hi]
  rw [hget]
  exact hx _

end


theorem postUnposted_reading {α : Type} {v : State → α} (hv : RunBlind v) (s : State) : v (postUnposted s) = v s :=
  (foldl_reading (fun _ _ => post_reading hv.1.log ..) _ _).trans (updRel_reading hv ..)

theorem clocked_runBlind : RunBlind clocked := ⟨fun _ _ _ _ _ _ _ _ _ _ _ => rfl, fun _ _ _ => rfl⟩

/-- The wipe has ended, and the self-tests have begun with this outcome. -/
def wiped (st : Option Nat) (s : State) : State := advanceTo 1500000 { s with sys := { s.sys with phase := .selfTest, selftestFail := st } }

section
variable {s : State}

theorem wipeDone_ends (h : s.sys.phase = .wiping) (st : Option Nat) :
    exec (.wipeDone [] st) s = .next (bootField (relockPlan 1 (relockPlan 0 (postUnposted (wiped st s))))) := by
  show execWipeDone [] st s = _
  unfold execWipeDone
  rw [if_neg (by simp [h])]
  unfold forEach relockPlan wiped
  simp only [List.foldl_nil, List.foldl_cons]

/-- The link to the field die starts; after a cold reset nine records wait for it (R128; log 86). -/
theorem bootField_field (s : State) : (bootField s).field.started = true ∧ (bootField s).field.nextDown = max s.time.raw 2000000
    ∧ (s.sys.cold = true → (bootField s).field.mailbox.length = 9) ∧ (s.sys.cold = false → (bootField s).field.mailbox = []) := by
  refine ⟨rfl, rfl, fun h => ?_, fun h => ?_⟩
  · simp [bootField, updField, h]
  · simp [bootField, updField, h]

theorem wipeDone_step (h : s.sys.phase = .wiping) (st : Option Nat) : ∃ t, exec (.wipeDone [] st) s = .next t ∧ t.sys.phase = .selfTest ∧ t.sys.selftestFail = st
    ∧ t.time.raw = max s.time.raw 1500000 ∧ t.cmd.isOpen = s.cmd.isOpen
    ∧ (clkSized s.clk → ∀ i < 2, (getPll t i).state = .search ∧ (getPll t i).relock = some { start := t.time.raw, hop := false, request := none, attempt := 1 })
    ∧ t.field.started = true ∧ t.field.nextDown = max t.time.raw 2000000
    ∧ (s.sys.cold = true → t.field.mailbox.length = 9) ∧ (s.sys.cold = false → t.field.mailbox = []) := by
  have hposted := postUnposted_reading clocked_runBlind (wiped st s)
  rw [wipeDone_ends h]
  generalize postUnposted (wiped st s) = u at hposted
  simp only [clocked, Prod.mk.injEq] at hposted
  obtain ⟨hraw, hsys, hcmd, hclk⟩ := hposted
  obtain ⟨hraw0, hsys0, hcmd0, hlen0⟩ := relockPlan_rest (s := u) (i := 0)
  obtain ⟨hraw1, hsys1, hcmd1, -⟩ := relockPlan_rest (s := relockPlan 0 u) (i := 1)
  have hlocks (hs : clkSized s.clk) (i : Nat) (hi : i < 2) : (getPll (relockPlan 1 (relockPlan 0 u)) i).state = .search
      ∧ (getPll (relockPlan 1 (relockPlan 0 u)) i).relock = some { start := u.time.raw, hop := false, request := none, attempt := 1 } := by
    have hlen : u.clk.plls.length = 2 := by rw [hclk]; exact hs.1
    obtain rfl | rfl : i = 0 ∨ i = 1 := by omega
    · rw [getPll_relockPlan_ne (by decide)]
      exact getPll_relockPlan_same (by omega)
    · rw [← hraw0]
      exact getPll_relockPlan_same (by omega)
  generalize relockPlan 1 (relockPlan 0 u) = w at hraw1 hsys1 hcmd1 hlocks
  obtain ⟨hstarted, hdown, hcold, hwarm⟩ := bootField_field w
  have hsysw : w.sys = (wiped st s).sys := hsys1.trans (hsys0.trans hsys)
  have hraww : w.time.raw = u.time.raw := hraw1.trans hraw0
  refine ⟨_, rfl, congrArg (·.phase) hsysw, congrArg (·.selftestFail) hsysw, hraww.trans hraw, congrArg (·.isOpen) (hcmd1.trans (hcmd0.trans hcmd)), fun hs i hi => ?_,
    hstarted, hdown, fun h => hcold ?_, fun h => hwarm ?_⟩
  · obtain ⟨hstate, hrelock⟩ := hlocks hs i hi
    exact ⟨hstate, by rw [← hraww] at hrelock; exact hrelock⟩
  · rw [hsysw]; exact h
  · rw [hsysw]; exact h

/-! ### The command port opens -/

theorem commandPortOpen_step (h : s.sys.phase = .selfTest) : ∃ t, exec .commandPortOpen s = .next t ∧ t.sys.phase = .portOpen ∧ t.cmd = { s.cmd with isOpen := true }
    ∧ t.time.raw = max s.time.raw 2500000 ∧ t.field = s.field ∧ (s.sys.bootsel = 1 → t.stag.isOpen = true) := by
  refine ⟨_, if_neg (by simp [h]), ?_⟩
  dsimp only
  have heth (i : Nat) (u : State) : ∃ l, bootEth i u = { u with eth := l } := by
    unfold bootEth
    dsimp only
    split
    · exact ⟨_, rfl⟩
    · exact ⟨_, rfl⟩
  split
  · exact ⟨rfl, rfl, rfl, rfl, fun _ => rfl⟩
  · next hsel =>
    split
    · obtain ⟨l, hl⟩ := heth 0 (advanceTo 2500000 { s with sys := { s.sys with phase := .portOpen }, cmd := { s.cmd with isOpen := true } })
      rw [hl]
      exact ⟨rfl, rfl, rfl, rfl, fun h => absurd h hsel⟩
    · exact ⟨rfl, rfl, rfl, rfl, fun h => absurd h hsel⟩

end

/-! ### The completion of BOOT -/

/-- How far BOOT has come, and when. -/
def progress (s : State) : Nat × BootPhase := (s.time.raw, s.sys.phase)

theorem progress_declareBlind : DeclareBlind progress where
  run := ⟨fun _ _ _ _ _ _ _ _ _ _ _ => rfl, fun _ _ _ => rfl⟩
  off _ _ _ _ _ _ _ _ _ := rfl
  reply s t h := by rw [show t = _ from h]; rfl
  declared _ _ _ _ _ _ h _ := congrArg (Prod.mk _) h

theorem setSafeState_progress (s : State) : progress (setSafeState s) = progress s := by
  have h := progress_declareBlind.safeDeclared_reading s
  rw [setSafeState_eq]
  generalize safeDeclared s = t at h
  split
  · exact (progress_declareBlind.reply _ _ (endLong_reply ..)).trans h
  · exact h

theorem safetyActs_progress (reason chan source : Nat) (s : State) : progress (safetyActs reason chan source s) = progress s := by
  have hpost (c : U16) (n : Nat) (d : Bytes) (s : State) : progress (post c n d s) = progress s := post_reading progress_declareBlind.run.1.log ..
  unfold safetyActs
  split
  · rfl
  · refine (hpost ..).trans ?_
    split
    · rfl
    · exact setSafeState_progress _

theorem bootParams_progress (s : State) : progress (bootParams s) = progress s := by
  unfold bootParams
  split
  · unfold commitBlock
    dsimp only
    split <;> rfl
  · exact post_reading progress_declareBlind.run.1.log ..

theorem sagePostLog_reading {α : Type} {v : State → α} (hv : RunBlind v) (s : State) : v (sagePostLog s) = v s := by
  unfold sagePostLog
  split
  · rfl
  · exact (foldl_reading (fun u e => post_reading hv.1.log ..) _ _).trans (hv.2 s s.rel _)


theorem bootEth_reading (i : Nat) (s : State) : progress (bootEth i s) = progress s := by
  unfold bootEth
  dsimp only
  split <;> rfl

/-- How far BOOT has come, the device's state and the publications. -/
def startUp (s : State) : (Nat × BootPhase) × DevState × Image := (progress s, s.sys.dev, s.img)

theorem startUp_runBlind : RunBlind startUp := ⟨fun _ _ _ _ _ _ _ _ _ _ _ => rfl, fun _ _ _ => rfl⟩

/-- BOOT ends without a staged image: in CONFIG or in SAFE, with publications from the next boundary on (R78, R129; log 30). -/
theorem finishBoot_none (s : State) : (finishBoot none s).time.raw = s.time.raw ∧ (finishBoot none s).sys.phase = .finished
    ∧ ((finishBoot none s).sys.dev = .config ∨ (finishBoot none s).sys.dev = .safe)
    ∧ (finishBoot none s).img.running = true ∧ (finishBoot none s).img.due = s.time.raw / 1000 * 1000 + 1000 := by
  have hpost (c : U16) (n : Nat) (d : Bytes) (u : State) : progress (post c n d u) = progress u := post_reading progress_declareBlind.run.1.log ..
  have hpostUp (c : U16) (n : Nat) (d : Bytes) (u : State) : startUp (post c n d u) = startUp u := post_reading startUp_runBlind.1.log ..
  unfold finishBoot
  extract_lets kept fail _ _ s0 s1 s2 safe s3 _ _ _ s4 s5 _ s6 s7 s8
  have h1 : progress s1 = (s.time.raw, .finished) := (bootParams_progress _).trans (forEach_reading bootEth_reading _ s0)
  have h2 : progress s2 = progress s1 := by
    cases hf : fail with
    | none => simp only [s2, hf]
    | some k => simp only [s2, hf]; exact (hpost ..).trans (safetyActs_progress ..)
  have h3 : progress s3 = progress s2 := by
    unfold s3
    split
    · rfl
    · exact hpost ..
  have h4 : progress s4 = progress s3 := by
    unfold s4
    split <;> rfl
  have h5 : progress s5 = progress s4 := progress_declareBlind.setDev_reading ..
  have hdev : s5.sys.dev = .config ∨ s5.sys.dev = .safe := by
    rw [show s5.sys.dev = _ from setDev_dev ..]
    split
    · exact .inr rfl
    · exact .inl rfl
  have h8 : startUp s8 = startUp s5 := by
    have h7 : startUp s7 = startUp s5 := hpostUp ..
    unfold s8
    split
    · exact (hpostUp ..).trans h7
    · exact h7
  simp only [startUp, Prod.mk.injEq] at h8
  obtain ⟨hprog, hdev8, himg8⟩ := h8
  have hplace : progress s8 = (s.time.raw, .finished) := hprog.trans (h5.trans (h4.trans (h3.trans (h2.trans h1))))
  clear_value s8
  simp only [progress, Prod.mk.injEq] at hplace
  obtain ⟨hraw, hphase⟩ := hplace
  have hpub := sagePostLog_reading startUp_runBlind { s8 with img := { s8.img with running := true, due := s8.time.raw / 1000 * 1000 + 1000 } }
  generalize sagePostLog _ = t at hpub ⊢
  simp only [startUp, progress, Prod.mk.injEq] at hpub
  obtain ⟨⟨htraw, htphase⟩, htdev, htimg⟩ := hpub
  refine ⟨htraw.trans hraw, htphase.trans hphase, ?_, by rw [htimg], by rw [htimg, hraw]⟩
  rw [htdev, hdev8]
  exact hdev

/-- Settles O19: each row of BOOT in its own phase, and none outside it. -/
theorem bootStepsInOrder : Obligations.BootStepsInOrder := by
  refine fun s => ⟨fun hphase bs rails held clear hheld hrails hclear => ?_, fun bs rails held pn wn clear h => resetRelease_stays ?_, wipeDone_step, commandPortOpen_step,
    fun hphase hsel => ?_, fun hphase f st => if_pos hphase, fun hphase => if_pos hphase, fun hphase => if_pos hphase⟩
  · refine ⟨_, resetRelease_ends hphase (releaseReady_iff.mpr ⟨rfl, rfl, hrails, hclear⟩) hheld, ?_⟩
    have hkept := unretired_retireBlind.applyRepairLog_reading (released bs s)
    generalize applyRepairLog (released bs s) = t at hkept
    simp only [unretired, Prod.mk.injEq] at hkept
    obtain ⟨htime, hsys, hcmd, -⟩ := hkept
    rw [htime, hsys, hcmd]
    exact ⟨rfl, rfl, rfl, rfl, rfl⟩
  · by_cases hready : releaseReady rails pn wn clear s = true
    · obtain ⟨hp, hw, hr, hc⟩ := releaseReady_iff.mp hready
      obtain h | h | ⟨i, hi, h⟩ | h | ⟨h, h'⟩ | h := h
      · rw [hp] at h; cases h
      · rw [hw] at h; cases h
      · rw [hr i hi] at h; cases h
      · exact .inr (.inr h)
      · exact absurd (hc h) (by omega)
      · exact .inl h
    · exact .inr (.inl (by simpa using hready))
  · obtain ⟨hraw, hdone, hdev, hrun, hdue⟩ := finishBoot_none (advanceTo 4000000 s)
    refine ⟨_, ?_, hdone, hdev, hrun, hraw, ?_⟩
    · show execBootComplete s = _
      unfold execBootComplete
      rw [if_neg (by simp [hphase])]
      exact if_pos hsel
    · rw [hdue, hraw]

end Sys2Proof.Proofs

/-! ## Ethernet ports and their configuration -/

namespace Sys2Proof.Proofs

open Sys2Proof Sys2Proof.Machine Sys2Proof.Claims Sys2Proof.Laws

/-! ### Operations on a port of the list -/

theorem upd_eq_set {α : Type} {l : List α} {n : Nat} {x : α} (h : l[n]? = some x) (f : α → α) : upd l n f = l.set n (f x) := by
  obtain ⟨hlt, rfl⟩ := List.getElem?_eq_some_iff.mp h
  refine List.ext_getElem? fun m => ?_
  simp only [upd, List.getElem?_modify, List.getElem?_set]
  by_cases hm : n = m
  · subst hm
    simp [hlt]
  · simp [hm]

section
variable {port : Nat} {s : State} {e : EthPort} (he : s.eth[port]? = some e)
include he

theorem updEth_of_some (f : EthPort → EthPort) : updEth port f s = { s with eth := s.eth.set port (f e) } := by
  rw [updEth, upd_eq_set he]

theorem eth_set_getElem? (e' : EthPort) : (s.eth.set port e')[port]? = some e' := by
  simp [(List.getElem?_eq_some_iff.mp he).1]

theorem countRx_of_some : countRx port s = { s with eth := s.eth.set port { e with rxFrames := e.rxFrames + 1 } } :=
  updEth_of_some he _

theorem countRx_getElem? : (countRx port s).eth[port]? = some { e with rxFrames := e.rxFrames + 1 } := by
  rw [countRx_of_some he]; exact eth_set_getElem? he _

theorem ethErrors_of_some : ethErrors port s = postMerge 0x0312#16 port (le32 e.rxCrc ++ le32 e.rxDropped) s := by
  unfold ethErrors; rw [he]

theorem ethDrop_of_some : ethDrop port s =
    postMerge 0x0312#16 port (le32 e.rxCrc ++ le32 (e.rxDropped + 1)) { s with eth := s.eth.set port { e with rxDropped := e.rxDropped + 1 } } := by
  rw [ethDrop, updEth_of_some he, ethErrors_of_some (eth_set_getElem? he _)]

theorem missedRx_of_some : missedRx port s = if e.enable = true ∧ e.link = true then ethDrop port s else s := by
  unfold missedRx
  rw [he]
  simp only [Bool.and_eq_true]

theorem ethUp_iff : ethUp s port = true ↔ e.enable = true ∧ e.link = true ∧ s.time.onFallback.getD 4 true = false := by
  unfold ethUp
  rw [he]
  simp [and_assoc]

theorem arrives_iff (tag : Option Nat) (len : Nat) :
    arrives s port tag len ↔ ethUp s port = true ∧ len + 4 * tag.toList.length ≤ 1522 ∧ ∀ v, tag = some v → v ≠ 0 ∧ v = e.vid := by
  rw [arrives, ethFits, Bool.and_eq_true, decide_eq_true_eq, he]
  cases tag with
  | none => simp
  | some v =>
    simp only [Option.all_some, Option.any_some, Bool.and_eq_true, decide_eq_true_eq, Option.some.injEq, forall_eq']
    rw [eq_comm (a := e.vid)]

/-- A port that is up puts a frame on its wire. -/
theorem ethPut_of_up (hup : ethUp s port = true) (f : EthPort → SentFrame) :
    ethPut port f s = { s with eth := s.eth.set port { e with txFrames := e.txFrames + 1 }, udp := { s.udp with sent := s.udp.sent ++ [f e] } } := by
  obtain ⟨hen, hlink, hrun⟩ := (ethUp_iff he).mp hup
  unfold ethPut
  rw [he]
  dsimp only
  rw [if_neg (by simp [hen, hlink]), if_neg (by rw [hrun]; decide), upd_eq_set he]

/-- A port that is up receives a frame and answers it with one. -/
theorem ethPut_countRx_of_up (hup : ethUp s port = true) (f : EthPort → SentFrame) :
    ethPut port f (countRx port s) = { s with
      eth := s.eth.set port { e with rxFrames := e.rxFrames + 1, txFrames := e.txFrames + 1 }
      udp := { s.udp with sent := s.udp.sent ++ [f { e with rxFrames := e.rxFrames + 1 }] } } := by
  have hup' : ethUp (countRx port s) port = true :=
    (ethUp_iff (countRx_getElem? he)).mpr ((ethUp_iff he).mp hup)
  rw [ethPut_of_up (countRx_getElem? he) hup', countRx_of_some he]
  simp only [List.set_set]

end

/-! ### Links -/

/-- A session that closes has left, whether or not it was open. -/
theorem closeSession_sessions (port : Nat) (sid : U32) (k : Nat) (s : State) :
    (closeSession port sid k s).udp.sessions = s.udp.sessions.filter (fun y => !(decide (y.port = port) && y.sid == sid)) := by
  cases hx : findSession s port sid with
  | none =>
    have hnone : ∀ y ∈ s.udp.sessions, (!(decide (y.port = port) && y.sid == sid)) = true := by
      simpa [findSession, imp_iff_not_or] using hx
    rw [List.filter_eq_self.mpr hnone]
    unfold closeSession
    rw [hx]
  | some x =>
    rw [closeSession_of_found hx, (capSessionClosed_log ..).udp, post_udp]
    rfl

theorem closeSession_change (port : Nat) (sid : U32) (k : Nat) (s : State) :
    LogOnly { s with udp := (closeSession port sid k s).udp } (closeSession port sid k s) := by
  cases hx : findSession s port sid with
  | none =>
    have h : closeSession port sid k s = s := by unfold closeSession; rw [hx]
    rw [h]
    exact .refl s
  | some x =>
    have h : LogOnly (withoutSession port sid s) (closeSession port sid k s) := by
      rw [closeSession_of_found hx]; exact (post_log ..).trans (capSessionClosed_log ..)
    rw [h.udp]
    exact h

/-- A reading that shows neither sessions and their requests nor the log and the capture. -/
def SessionBlind {α : Type} (v : State → α) : Prop := LogBlind v ∧ ∀ (s : State) (u : Udp), v { s with udp := u } = v s

theorem closeSession_reading {α : Type} {v : State → α} (hv : SessionBlind v) (port : Nat) (sid : U32) (k : Nat) (s : State) : v (closeSession port sid k s) = v s :=
  (hv.1.of_log (closeSession_change port sid k s)).trans (hv.2 ..)

theorem closePortSessions_reading {α : Type} {v : State → α} (hv : SessionBlind v) (port k : Nat) (s : State) : v (closePortSessions port k s) = v s :=
  foldl_reading (fun s (x : Session) => closeSession_reading hv port x.sid k s) _ s

theorem closed_sessions (port k : Nat) (l : List Session) (s : State) :
    ∀ y ∈ (l.foldl (fun s x => closeSession port x.sid k s) s).udp.sessions, y ∈ s.udp.sessions ∧ ∀ x ∈ l, ¬ (y.port = port ∧ y.sid = x.sid) := by
  induction l generalizing s with
  | nil => exact fun y hy => ⟨hy, fun x hx => absurd hx List.not_mem_nil⟩
  | cons x l ih =>
    intro y hy
    obtain ⟨hmem, hl⟩ := ih (closeSession port x.sid k s) y hy
    rw [closeSession_sessions, List.mem_filter] at hmem
    obtain ⟨hmem, hx⟩ := hmem
    exact ⟨hmem, List.forall_mem_cons.mpr ⟨by simpa [imp_iff_not_or] using hx, hl⟩⟩

/-- After a port's sessions are closed, none of them is left. -/
theorem closePortSessions_none (port k : Nat) (s : State) : ∀ y ∈ (closePortSessions port k s).udp.sessions, y.port ≠ port := by
  intro y hy hport
  obtain ⟨hmem, hl⟩ := closed_sessions port k _ s y hy
  exact hl y (List.mem_filter.mpr ⟨hmem, decide_eq_true hport⟩) ⟨hport, rfl⟩

section
variable {port : Nat} {s : State} {e : EthPort} (he : s.eth[port]? = some e)
include he

theorem ethLink_up {speed : Nat} (hen : e.enable = true) (hlink : e.link = false) :
    exec (.ethLink port true speed) s = .next (post 0x0310#16 port (n8 1 ++ n8 (if e.speed = 0 then speed else e.speed))
      { s with eth := s.eth.set port { e with link := true, linkSpeed := if e.speed = 0 then speed else e.speed } }) := by
  show execEthLink port true speed s = _
  unfold execEthLink
  rw [he]
  dsimp only
  rw [if_neg (by simp [hen, hlink]), if_pos rfl, updEth_of_some he]

theorem ethLink_down {speed : Nat} (hen : e.enable = true) (hlink : e.link = true) : exec (.ethLink port false speed) s = .next (linkDown port s) := by
  show execEthLink port false speed s = _
  unfold execEthLink
  rw [he]
  dsimp only
  rw [if_neg (by simp [hen, hlink]), if_neg (by decide)]

theorem linkDown_of_some : linkDown port s = post 0x0310#16 port (n8 0 ++ n8 e.linkSpeed)
    (closePortSessions port 2 { s with eth := s.eth.set port { e with link := false, linkLosses := e.linkLosses + 1 } }) := by
  unfold linkDown
  rw [he, updEth_of_some he]

/-- A link that is lost: counted, its sessions closed, and nothing else but the log and the capture changed. -/
theorem linkDown_step : (∀ x ∈ (linkDown port s).udp.sessions, x.port ≠ port)
    ∧ (linkDown port s).eth = s.eth.set port { e with link := false, linkLosses := e.linkLosses + 1 } ∧ (linkDown port s).loop = s.loop ∧ (linkDown port s).sys = s.sys := by
  have hclosed := closePortSessions_none port 2 { s with eth := s.eth.set port { e with link := false, linkLosses := e.linkLosses + 1 } }
  have hrest := closePortSessions_reading (v := fun s => (s.eth, s.loop, s.sys)) ⟨fun _ _ _ => rfl, fun _ _ => rfl⟩ port 2
    { s with eth := s.eth.set port { e with link := false, linkLosses := e.linkLosses + 1 } }
  rw [linkDown_of_some he]
  generalize closePortSessions port 2 _ = t at hclosed hrest ⊢
  simp only [Prod.mk.injEq] at hrest
  obtain ⟨heth, hloop, hsys⟩ := hrest
  rw [post_udp, post_eth, post_loop, post_sys]
  exact ⟨hclosed, heth, hloop, hsys⟩

end

/-! ### Frames that are discarded, and those that are answered -/

section
variable {port len : Nat} {tag : Option Nat} {s : State} {e : EthPort}

theorem ethFrameDiscarded_of_down (hup : ethUp s port = false) (bad other : Bool) :
    exec (.ethFrameDiscarded port bad tag len other) s = .next (missedRx port s) := by
  show execEthFrameDiscarded port bad tag len other s = _
  unfold execEthFrameDiscarded
  rw [if_neg (by simp [hup]), ethTake_of_down hup]

theorem ethFrameDiscarded_bad (he : s.eth[port]? = some e) (hup : ethUp s port = true) (other : Bool) :
    exec (.ethFrameDiscarded port true tag len other) s = .next (postMerge 0x0312#16 port (le32 (e.rxCrc + 1) ++ le32 e.rxDropped)
      { s with eth := s.eth.set port { e with rxFrames := e.rxFrames + 1, rxCrc := e.rxCrc + 1 } }) := by
  show execEthFrameDiscarded port true tag len other s = _
  unfold execEthFrameDiscarded
  rw [if_pos (by simp [hup]), updEth_of_some (countRx_getElem? he), ethErrors_of_some (eth_set_getElem? (countRx_getElem? he) _), countRx_of_some he]
  simp only [List.set_set]

theorem ethFrameDiscarded_good (hup : ethUp s port = true) (other : Bool) :
    (¬ arrives s port tag len ∨ other = true → exec (.ethFrameDiscarded port false tag len other) s = .next (ethDrop port (countRx port s)))
    ∧ (arrives s port tag len → other = false → exec (.ethFrameDiscarded port false tag len other) s = .next (countRx port s)) := by
  have hexec : exec (.ethFrameDiscarded port false tag len other) s = ethTake port tag len s fun s1 => .next (if other then ethDrop port s1 else s1) := rfl
  rw [hexec]
  by_cases harr : arrives s port tag len
  · rw [ethTake_of_arrives harr]
    refine ⟨fun h => ?_, fun _ h => by rw [h]; rfl⟩
    rw [h.resolve_left (not_not_intro harr)]
    rfl
  · exact ⟨fun _ => ethTake_of_misfit hup harr, fun h => absurd h harr⟩

theorem arpRequest_eq (target : U32) (mac : Bytes) (ip : U32) : exec (.arpRequest port tag target mac ip) s = ethTake port tag 64 s fun s1 =>
    .next (if s1.eth[port]?.any (fun e => e.ipv4 == target) then
      ethPut port (fun e => { port := port, tag := portTag e, hop := none,
                              body := [0x08#8, 0x06, 0, 1, 8, 0, 6, 4, 0, 2] ++ slice e.mac 0 6 ++ ipBytes e.ipv4 ++ slice mac 0 6 ++ ipBytes ip }) s1
    else s1) := rfl

theorem arpRequest_step (he : s.eth[port]? = some e) (hup : ethUp s port = true) (mac : Bytes) (ip target : U32) :
    (¬ arrives s port tag 64 → exec (.arpRequest port tag target mac ip) s = .next (ethDrop port (countRx port s)))
    ∧ (arrives s port tag 64 → target ≠ e.ipv4 → exec (.arpRequest port tag target mac ip) s = .next (countRx port s))
    ∧ (arrives s port tag 64 → target = e.ipv4 → ∃ body, exec (.arpRequest port tag target mac ip) s = .next { s with
        eth := s.eth.set port { e with rxFrames := e.rxFrames + 1, txFrames := e.txFrames + 1 }, udp := { s.udp with sent := s.udp.sent ++ [{ port := port, tag := portTag e, hop := none, body := body }] } }) := by
  rw [arpRequest_eq]
  refine ⟨ethTake_of_misfit hup, fun harr ht => ?_, fun harr ht => ?_⟩
  · rw [ethTake_of_arrives harr, countRx_getElem? he, if_neg (by simpa using ht.symm)]
  · rw [ethTake_of_arrives harr, countRx_getElem? he, if_pos (by simpa using ht.symm), ethPut_countRx_of_up he hup]
    exact ⟨_, rfl⟩

theorem icmpEcho_eq (ip : U32) (data : Bytes) : exec (.icmpEcho port tag ip data) s = ethTake port tag (data.length + 46) s fun s1 =>
    .next (if data.length > 576 then ethDrop port s1 else ethSend port ip (ipBytes ip ++ [0, 0] ++ data) s1) := rfl

theorem icmpEcho_step (he : s.eth[port]? = some e) (hup : ethUp s port = true) (ip : U32) (data : Bytes) :
    (¬ arrives s port tag (data.length + 46) ∨ 576 < data.length → exec (.icmpEcho port tag ip data) s = .next (ethDrop port (countRx port s)))
    ∧ (arrives s port tag (data.length + 46) → data.length ≤ 576 → exec (.icmpEcho port tag ip data) s = .next { s with
        eth := s.eth.set port { e with rxFrames := e.rxFrames + 1, txFrames := e.txFrames + 1 }
        udp := { s.udp with sent := s.udp.sent ++ [{ port := port, tag := portTag e, hop := some (if ip &&& e.netmask = e.ipv4 &&& e.netmask ∨ e.gateway = 0 then ip else e.gateway), body := ipBytes ip ++ [0, 0] ++ data }] } }) := by
  rw [icmpEcho_eq]
  by_cases harr : arrives s port tag (data.length + 46)
  · rw [ethTake_of_arrives harr]
    refine ⟨fun h => by rw [if_pos (h.resolve_left (not_not_intro harr))], fun _ h => ?_⟩
    rw [if_neg (by omega), ethSend, ethPut_countRx_of_up he hup]
    rfl
  · exact ⟨fun _ => ethTake_of_misfit hup harr, fun h => absurd h harr⟩

end


/-! ### The configuration of a port and of a time source -/

theorem applyPort_eq_portSet (p : Bytes) (s : State) : applyPort p s = portSet (n8At p 1) p s := by
  unfold applyPort portSet
  dsimp only
  congr 1
  cases he : s.eth[n8At p 1]? with
  | none =>
    have hd : (s.eth.getD (n8At p 1) eth0).link = false := by rw [List.getD_eq_getElem?_getD, he]; rfl
    rw [if_neg (by simp), if_pos (.inr hd)]
  | some e =>
    have hd : (s.eth.getD (n8At p 1) eth0).link = e.link := by rw [List.getD_eq_getElem?_getD, he]; rfl
    rw [hd]
    by_cases hn : n8At p 2 = 1
    · simp [hn]
    · cases hl : e.link <;> simp [hn, hl]

theorem portParamsOk_iff_length {p : Bytes} (h : portParamsOk p = true) : p.length = 32 ∧ n8At p 1 < 2 := by
  simp only [portParamsOk, Bool.and_eq_true, decide_eq_true_eq] at h
  tauto

/-- The pin mode of an enabled port stays. -/
def pinsKept (s : State) (p : Bytes) : Prop := (s.eth.getD (n8At p 1) eth0).enable = true → (s.eth.getD (n8At p 1) eth0).rgmii = decide (n8At p 3 = 1)

section
variable {via : Transport} {s : State} {r : Req}

theorem ethConfigPortRun_of_ok (hs : s.eth.length = 2) (h0 : n8At (reqParams r) 0 = 0) (hok : portParamsOk (reqParams r) = true) (hpins : pinsKept s (reqParams r)) :
    ethConfigPortRun s r = if r.via = .cmd then .done (applyPort (reqParams r) s) [] else .doneThen s [] (applyPort (reqParams r)) := by
  obtain ⟨-, hport⟩ := portParamsOk_iff_length hok
  unfold ethConfigPortRun
  extract_lets p port e
  have he : e = s.eth.getD (n8At (reqParams r) 1) eth0 := by
    simp only [e, port, p, List.getD_eq_getElem?_getD, List.getElem?_eq_getElem (by omega : n8At (reqParams r) 1 < s.eth.length), Option.getD_some]
  rw [if_neg (by rintro ⟨-, -, hen, hne⟩; rw [he] at hen hne; exact hne (hpins hen)), if_neg (by simp [p, h0, hok])]

theorem isOpElse_of_kind0 (h : Takes 0x0310#16 via s r) (h0 : n8At (reqParams r) 0 = 0) : isOpElse 0x0310#16 [1] r = true := by
  simp [isOpElse, isOp_takes h, kindByte, h0]

theorem ethConfigPort_cmd (hb : s.sys.dev ≠ .boot) (hs : Sized s) (h : Takes 0x0310#16 .cmd s r) (hvia : r.via = .cmd) (h0 : n8At (reqParams r) 0 = 0)
    (hok : portParamsOk (reqParams r) = true) (hpins : pinsKept s (reqParams r)) :
    exec (.ethConfigPort .cmd) s = replied r OK [] (portSet (n8At (reqParams r) 1) (reqParams r) (taken s .cmd)) := by
  have heth : (taken s .cmd).eth = s.eth := by rw [taken_change]
  have hrun := ethConfigPortRun_of_ok (s := taken s .cmd) (by rw [heth]; exact hs.2.1) h0 hok (by unfold pinsKept; rw [heth]; exact hpins)
  rw [if_pos hvia, applyPort_eq_portSet] at hrun
  exact next_runCard_done h (isOpElse_of_kind0 h h0) rfl (inAll4_of_ne_boot hb) hrun

theorem ethConfigPort_udp (hb : s.sys.dev ≠ .boot) (hs : Sized s) (h : Takes 0x0310#16 via s r) (hvia : r.via ≠ .cmd) (h0 : n8At (reqParams r) 0 = 0)
    (hok : portParamsOk (reqParams r) = true) (hpins : pinsKept s (reqParams r)) :
    exec (.ethConfigPort via) s = .next (flushTurn r.via (portSet (n8At (reqParams r) 1) (reqParams r) (replyTo r OK [] (taken s via)))) := by
  have heth : (taken s via).eth = s.eth := by rw [taken_change]
  have hrun := ethConfigPortRun_of_ok (s := taken s via) (by rw [heth]; exact hs.2.1) h0 hok (by unfold pinsKept; rw [heth]; exact hpins)
  rw [if_neg hvia] at hrun
  show Host.Outcome.next (runCard (isOpElse 0x0310#16 [1]) cardEthPort via s) = _
  rw [runCard_takes h (isOpElse_of_kind0 h h0) rfl (inAll4_of_ne_boot hb), ← applyPort_eq_portSet]
  exact congrArg (fun x => Host.Outcome.next (flushTurn r.via (answer r (dropRequest s via) x))) hrun

end


/-- The settings of an ETH_CONFIG kind 1 (R462). -/
def instSettings (p : Bytes) (now : Nat) (x : TimeInst) : TimeInst :=
  { x with enable := decide (n8At p 3 = 1), port := n8At p 2, domainNumber := byteAt p 4, transport := n8At p 5, delayMech := n8At p 6, oneStep := decide (n8At p 7 = 1)
           priority1 := byteAt p 8, priority2 := byteAt p 9, logSync := byteAt p 10, logAnnounce := byteAt p 11, lastAnnounce := now }

/-- The configured one takes its settings and its first role; the others and time stay. -/
theorem setRole_of_settings {i : Nat} {s : State} (hi : i < s.insts.length) (role : Nat) (f : TimeInst → TimeInst) :
    getInst (setRole i role (getInst (updInst i f s) i).clockClass (updInst i f s)) i = { f (getInst s i) with role := role }
    ∧ (∀ j, j ≠ i → getInst (setRole i role (getInst (updInst i f s) i).clockClass (updInst i f s)) j = getInst s j)
    ∧ (setRole i role (getInst (updInst i f s) i).clockClass (updInst i f s)).time = s.time := by
  have hget (g : TimeInst → TimeInst) (t : State) (ht : t.insts.length = s.insts.length) : getInst (updInst i g t) i = g (getInst t i) :=
    getD_upd_same _ _ (ht ▸ hi)
  have hlen (g : TimeInst → TimeInst) (t : State) : (updInst i g t).insts.length = t.insts.length := upd_length ..
  have hother (g : TimeInst → TimeInst) (t : State) (j : Nat) (hj : j ≠ i) : getInst (updInst i g t) j = getInst t j := getD_upd_ne _ _ hj
  have hrole (t : State) (c : Byte) : (setRole i role c t).insts = (updInst i (fun y => { y with role := role, clockClass := c }) t).insts ∧ (setRole i role c t).time = t.time := by
    unfold setRole
    dsimp only
    split
    · exact ⟨rfl, rfl⟩
    · rw [post_insts, post_time]; exact ⟨rfl, rfl⟩
  obtain ⟨hinsts, htime⟩ := hrole (updInst i f s) (getInst (updInst i f s) i).clockClass
  have hread (j : Nat) : getInst (setRole i role (getInst (updInst i f s) i).clockClass (updInst i f s)) j = _ := congrArg (·.getD j inst0) hinsts
  refine ⟨?_, fun j hj => ?_, htime⟩
  · rw [hread]
    refine (hget _ _ (hlen f s)).trans ?_
    rw [hget f s rfl]
  · rw [hread]
    exact (hother _ _ j hj).trans (hother _ _ j hj)

/-- The ranges of an ETH_CONFIG kind 1. -/
structure InstParamsOk (p : Bytes) (i : Nat) : Prop where
  length : p.length = 16
  inst : n8At p 1 = i
  lt : i < 3
  port : n8At p 2 < 2
  enable : n8At p 3 < 2
  transport : n8At p 5 < 2
  delayMech : n8At p 6 < 2
  oneStep : n8At p 7 < 2
  reserved : zeroAt p 12 4 = true
  gptp : i < 2 → n8At p 5 = 0 ∧ n8At p 6 = 1 ∧ n8At p 8 = 255
  sync : -7 ≤ i8At p 10 ∧ i8At p 10 ≤ 4
  announce : -3 ≤ i8At p 11 ∧ i8At p 11 ≤ 4

theorem ethConfigInstRun_of_ok {s : State} {r : Req} {p : Bytes} {i : Nat} (hp : reqParams r = p) (hok : InstParamsOk p i)
    (hclash : n8At p 3 = 1 → ∀ j < 3, j ≠ i → (getInst s j).enable = true → (getInst s j).port = n8At p 2 → (getInst s j).domainNumber ≠ byteAt p 4)
    (hd : instDomain s i = none) :
    ethConfigInstRun s r = .done (setRole i (if n8At p 3 = 1 then 1 else 0) (getInst (updInst i (instSettings p s.time.raw) s) i).clockClass
      (updInst i (instSettings p s.time.raw) s)) [] := by
  obtain ⟨hlen, rfl, hlt, hport, hen, htr, hdm, hone, hres, hg, ⟨hs1, hs2⟩, ha1, ha2⟩ := hok
  unfold ethConfigInstRun
  rw [hp]
  extract_lets q i g en ok clash s1 s2
  have hgok : (!g || (decide (n8At q 5 = 0) && decide (n8At q 6 = 1) && decide (n8At q 8 = 255))) = true := by
    by_cases hi : n8At p 1 < 2
    · obtain ⟨h5, h6, h8⟩ := hg hi
      simp [q, h5, h6, h8]
    · simp [g, i, q, hi]
  have hokt : ok = true := by
    unfold ok
    rw [hgok]
    simp [hlen, i, q, hlt, hport, hen, htr, hdm, hone, hres, hs1, hs2, ha1, ha2]
  have hnoclash : ¬ (en ∧ clash = true) := by
    rintro ⟨hen1, hc⟩
    simp only [clash, List.any_eq_true, List.mem_range, Bool.and_eq_true, decide_eq_true_eq, beq_iff_eq] at hc
    obtain ⟨j, hj, ⟨⟨hji, hjen⟩, hjp⟩, hjd⟩ := hc
    exact hclash hen1 j hj hji hjen hjp hjd
  rw [if_neg (by rw [hokt]; simpa using hnoclash)]
  have hs1 : s1 = s := by unfold s1; rw [hd]
  unfold s2
  rw [hs1]
  rfl


theorem isOpKind1_of_takes {via : Transport} {s : State} {r : Req} {op : U16} {p : Bytes} {k : Nat} (h : Takes op via s r) (hp : reqParams r = p) (hlen : 0 < p.length)
    (hk : n8At p 0 = k) : isOpKind op k r = true := by
  simp [isOpKind, isOp_takes h, kindByte, hp, hk, List.length_pos_iff.mp hlen]

/-- The time source takes the settings of an ETH_CONFIG kind 1. -/
theorem ethConfigInstance_step {via : Transport} {s : State} {r : Req} {p : Bytes} {i : Nat} (hb : s.sys.dev ≠ .boot) (hs : Sized s) (h : Takes 0x0310#16 via s r)
    (hp : reqParams r = p) (h0 : n8At p 0 = 1) (hok : InstParamsOk p i)
    (hclash : n8At p 3 = 1 → ∀ j < 3, j ≠ i → (getInst s j).enable = true → (getInst s j).port = n8At p 2 → (getInst s j).domainNumber ≠ byteAt p 4)
    (hd : instDomain s i = none) :
    ∃ t, exec (.ethConfigInstance via) s = replied r OK [] t ∧ getInst t i = { instSettings p s.time.raw (getInst s i) with role := if n8At p 3 = 1 then 1 else 0 }
      ∧ (∀ j, j ≠ i → getInst t j = getInst s j) ∧ t.time = s.time := by
  have hinsts : (taken s via).insts = s.insts := by rw [taken_change]
  have htime := taken_time s via
  have hget (j : Nat) : getInst (taken s via) j = getInst s j := by rw [getInst, hinsts]; rfl
  have hrun := ethConfigInstRun_of_ok (s := taken s via) hp hok (by simpa only [hget] using hclash) (by rw [← hd]; unfold instDomain getTd; rw [htime])
  rw [htime] at hrun
  obtain ⟨hi, hother, ht⟩ := setRole_of_settings (s := taken s via) (by rw [hinsts, hs.2.2.1]; exact hok.lt) (if n8At p 3 = 1 then 1 else 0) (instSettings p s.time.raw)
  refine ⟨_, next_runCard_done h (isOpKind1_of_takes h hp (by rw [hok.length]; decide) h0) rfl (inAll4_of_ne_boot hb) hrun, ?_, fun j hj => ?_, ht.trans htime⟩
  · rw [hi, hget]
  · rw [hother j hj, hget]

/-- Settles O27: the port's events, each by its one outcome, and the two kinds of ETH_CONFIG. -/
theorem ethernetPortsAndConfiguration : Obligations.EthernetPortsAndConfiguration := by
  refine ⟨fun port s e he => ⟨fun speed v hv hen hlink => hv ▸ ethLink_up he hen hlink, fun speed hen hlink => ?_,
    fun hup => ⟨fun bad tag len other => ethFrameDiscarded_of_down hup bad other, fun tag target mac ip => (arpRequest_eq ..).trans (ethTake_of_down hup),
      fun tag ip data => (icmpEcho_eq ..).trans (ethTake_of_down hup)⟩,
    missedRx_of_some he, ethDrop_of_some he, countRx_of_some he, fun hup tag len other => ethFrameDiscarded_bad he hup other, arrives_iff he,
    fun tag len other hup => ethFrameDiscarded_good hup other, fun tag mac ip target hup => arpRequest_step he hup mac ip target, fun tag ip data hup => icmpEcho_step he hup ip data⟩,
    fun s r hb hs => ⟨ethConfigPort_cmd hb hs, ?_, ?_⟩⟩
  · obtain ⟨hclosed, heth, hloop, hsys⟩ := linkDown_step he
    refine ⟨_, ethLink_down he hen hlink, hclosed, heth, hloop, hsys, ?_⟩
    rw [heth]
    exact linkDown_of_some he
  · rintro via port h hvia h0 hok rfl hpins
    exact ethConfigPort_udp hb hs h hvia h0 hok hpins
  · intro via p i h hp hlen h0 hi hlt hport hen htr hdm hone hres hg hs1 hs2 ha1 ha2 hclash hd
    exact ethConfigInstance_step hb hs h hp h0 ⟨hlen, hi, hlt, hport, hen, htr, hdm, hone, hres, hg, ⟨hs1, hs2⟩, ⟨ha1, ha2⟩⟩ hclash hd

end Sys2Proof.Proofs

/-! ## The requests of Sage -/

namespace Sys2Proof.Proofs

open Sys2Proof Sys2Proof.Machine Sys2Proof.Claims Sys2Proof.Laws

/-! ### Lengths and fields of strings -/

theorem beBytes_length (n v : Nat) : (beBytes n v).length = n := by simp [beBytes]

theorem shaRound_length (c : Sha) (v : List Nat) (kw : Nat × Nat) : (shaRound c v kw).length = v.length := by
  unfold shaRound
  split <;> rfl

theorem shaBlock_length (c : Sha) (h : List Nat) (b : Bytes) : (shaBlock c h b).length = h.length := by
  have hrounds (l : List (Nat × Nat)) (v : List Nat) : (l.foldl (shaRound c) v).length = v.length := by
    induction l generalizing v with
    | nil => rfl
    | cons kw l ih => exact (ih _).trans (shaRound_length ..)
  simp [shaBlock, hrounds]

theorem sha256_length (b : Bytes) : (sha256 b).length = 32 := by
  have hblocks (l : List Bytes) (h : List Nat) : (l.foldl (shaBlock sha256c) h).length = h.length := by
    induction l generalizing h with
    | nil => rfl
    | cons b l ih => exact (ih _).trans (shaBlock_length ..)
  have hflat (l : List Nat) : (l.flatMap (beBytes 4)).length = 4 * l.length := by
    simp [List.length_flatMap, beBytes_length, Nat.mul_comm]
  show (((chunks _ _).foldl (shaBlock sha256c) sha256c.h0).flatMap (beBytes 4) |>.take 32).length = 32
  rw [List.length_take, hflat, hblocks]
  rfl

theorem slice_length (b : Bytes) (i n : Nat) : (slice b i n).length = n := by simp [slice]

theorem byteAt_slice {b : Bytes} {i n j : Nat} (hj : j < n) (hb : i + n ≤ b.length) : byteAt (slice b i n) j = byteAt b (i + j) := by
  have ht : ((b.drop i).take n).length = n := by simp; omega
  simp only [byteAt, slice, ht, Nat.sub_self, List.replicate_zero, List.append_nil]
  simp [List.getD_eq_getElem?_getD, hj]

theorem slice_eq_take_drop {b : Bytes} {i n : Nat} (hb : i + n ≤ b.length) : slice b i n = (b.drop i).take n := by
  have ht : ((b.drop i).take n).length = n := by simp; omega
  simp only [slice, ht, Nat.sub_self, List.replicate_zero, List.append_nil]

/-- A part of a part of a string that holds both. -/
theorem slice_slice {b : Bytes} {i n j m : Nat} (hj : j + m ≤ n) (hb : i + n ≤ b.length) : slice (slice b i n) j m = slice b (i + j) m := by
  rw [slice_eq_take_drop (by rw [slice_length]; exact hj), slice_eq_take_drop hb, slice_eq_take_drop (by omega), List.drop_take, List.drop_drop, List.take_take,
    Nat.min_eq_left (by omega)]

theorem zeroAt_slice {b : Bytes} {i n j m : Nat} (hj : j + m ≤ n) (hb : i + n ≤ b.length) : zeroAt (slice b i n) j m = zeroAt b (i + j) m := by
  rw [zeroAt, ← slice_eq_take_drop (by rw [slice_length]; exact hj), slice_slice hj hb, slice_eq_take_drop (by omega), zeroAt]

theorem slice_eq_zeros_iff {b : Bytes} {i n : Nat} (hb : i + n ≤ b.length) : slice b i n = zeros n ↔ zeroAt b i n = true := by
  have ht : ((b.drop i).take n).length = n := by simp; omega
  rw [slice_eq_take_drop hb, zeros, List.eq_replicate_iff, zeroAt, List.all_eq_true]
  simp [ht]

/-! ### A row of Sage (R55; log 197) -/

/-- A request of class 0x0E that its row takes, and whose card is Sage's with this function. -/
structure SageRow (op : U16) (mine : Req → Bool) (card : Card) (f : State → Req → CardResult) (via : Transport) (s : State) (r : Req) : Prop where
  takes : Takes op via s r
  mine : mine r = true
  lifecycle : card.lifecycle (dropRequest s via) r = true
  allowed : card.allowed s.sys.dev = true
  run : card.run = (sageCard f).run

section
variable {op : U16} {mine : Req → Bool} {card : Card} {f : State → Req → CardResult} {via : Transport} {s : State} {r : Req} (row : SageRow op mine card f via s r)
include row

theorem SageRow.run_live (h : s.sage.phase ≠ .inReset) : card.run (taken s via) r = f (taken s via) r := by
  rw [row.run]
  exact if_neg (by rw [taken_sage]; exact h)

theorem SageRow.run_reset (h : s.sage.phase = .inReset) : card.run (taken s via) r = sageInReset (f (taken s via) r) := by
  rw [row.run]
  exact if_pos (by rw [taken_sage]; exact h)

theorem SageRow.done (h : s.sage.phase ≠ .inReset) {t : State} {pl : Bytes} (hf : f (taken s via) r = .done t pl) :
    Host.Outcome.next (runCard mine card via s) = replied r OK pl t :=
  next_runCard_done row.takes row.mine row.lifecycle row.allowed ((row.run_live h).trans hf)

theorem SageRow.long (h : s.sage.phase ≠ .inReset) {t : State} {k : Nat} {pl : Bytes} (hf : f (taken s via) r = .long t k pl) :
    Host.Outcome.next (runCard mine card via s) = accepted r k pl t :=
  next_runCard_long row.takes row.mine row.lifecycle row.allowed ((row.run_live h).trans hf)

theorem SageRow.failed (h : s.sage.phase ≠ .inReset) {t : State} {st : U16} {pl : Bytes} (hf : f (taken s via) r = .failed t st pl) :
    Host.Outcome.next (runCard mine card via s) = replied r st pl t :=
  next_runCard_failed row.takes row.mine row.lifecycle row.allowed ((row.run_live h).trans hf)

theorem SageRow.reject (h : s.sage.phase ≠ .inReset) {st : U16} (hf : f (taken s via) r = rejectWith st) :
    Host.Outcome.next (runCard mine card via s) = replied r st [] (dropRequest s via) :=
  next_runCard_reject row.takes row.mine row.lifecycle row.allowed ((row.run_live h).trans hf)

/-- In reset the answer is what is left of the card's. -/
theorem SageRow.inReset (h : s.sage.phase = .inReset) {st : U16} (hf : sageInReset (f (taken s via) r) = rejectWith st) :
    Host.Outcome.next (runCard mine card via s) = replied r st [] (dropRequest s via) :=
  next_runCard_reject row.takes row.mine row.lifecycle row.allowed ((row.run_reset h).trans hf)

/-- Parameters that are not well formed are rejected in reset as outside it. -/
theorem SageRow.param (hf : f (taken s via) r = rejectWith E_PARAM) :
    Host.Outcome.next (runCard mine card via s) = replied r E_PARAM [] (dropRequest s via) := by
  by_cases h : s.sage.phase = .inReset
  · exact row.inReset h (by rw [hf]; rfl)
  · exact row.reject h hf

end

/-- What a card answers that in reset comes to E_NOT_READY. -/
def BecomesNotReady (c : CardResult) : Prop := sageInReset c = rejectWith E_NOT_READY

theorem becomesNotReady_done (t : State) (pl : Bytes) : BecomesNotReady (.done t pl) := rfl
theorem becomesNotReady_long (t : State) (k : Nat) (pl : Bytes) : BecomesNotReady (.long t k pl) := rfl
theorem becomesNotReady_sealed : BecomesNotReady (rejectWith E_SEALED) := by simp [BecomesNotReady, sageInReset, rejectWith, E_SEALED, E_PARAM, E_RESOURCE, E_BUSY]
theorem becomesNotReady_notReady : BecomesNotReady (rejectWith E_NOT_READY) := by simp [BecomesNotReady, sageInReset, rejectWith, E_NOT_READY, E_PARAM, E_RESOURCE, E_BUSY]
theorem becomesNotReady_verify (t : State) : BecomesNotReady (.failed t E_VERIFY []) := by simp [BecomesNotReady, sageInReset, E_VERIFY, E_PARAM, E_RESOURCE, E_BUSY]
theorem becomesNotReady_failedSealed (t : State) : BecomesNotReady (.failed t E_SEALED []) := by simp [BecomesNotReady, sageInReset, E_SEALED, E_PARAM, E_RESOURCE, E_BUSY]
theorem becomesNotReady_shuttingDown (us : Nat) : BecomesNotReady (shuttingDown us) := by
  simp [BecomesNotReady, sageInReset, shuttingDown, E_SHUTTING_DOWN, E_PARAM, E_RESOURCE, E_BUSY]


section
variable {via : Transport} {s : State} {r : Req} {f : State → Req → CardResult}

theorem sageRow_of_op {op : U16} (h : Takes op via s r) (hb : s.sys.dev ≠ .boot) : SageRow op (isOp op) (sageCard f) f via s r :=
  ⟨h, isOp_takes h, rfl, inAll4_of_ne_boot hb, rfl⟩

theorem isSeal_of_takes {a : Nat} (h : Takes 0x0E05#16 via s r) (hne : reqParams r ≠ []) (hk : n8At (reqParams r) 0 = a) : isSeal a r = true := by
  simp [isSeal, isOp_takes h, sealAction, hk, Nat.one_le_iff_ne_zero, hne]

theorem sageRow_of_action {a : Nat} (h : Takes 0x0E05#16 via s r) (hb : s.sys.dev ≠ .boot) (hne : reqParams r ≠ []) (hk : n8At (reqParams r) 0 = a) :
    SageRow 0x0E05#16 (isSeal a) (sageCard f) f via s r :=
  ⟨h, isSeal_of_takes h hne hk, rfl, inAll4_of_ne_boot hb, rfl⟩

theorem sageRow_query (h : Takes 0x0E05#16 via s r) (hb : s.sys.dev ≠ .boot) (hk : reqParams r = [] ∨ n8At (reqParams r) 0 = 0 ∨ 5 < n8At (reqParams r) 0) :
    SageRow 0x0E05#16 isSealElse (sageCard f) f via s r := by
  refine ⟨h, ?_, rfl, inAll4_of_ne_boot hb, rfl⟩
  obtain hk | hk | hk := hk
  · simp [isSealElse, isOp_takes h, hk]
  · simp [isSealElse, isOp_takes h, sealAction, hk]
  · simp [isSealElse, isOp_takes h, sealAction, hk]

theorem sageRow_seal (h : Takes 0x0E05#16 via s r) (hb : s.sys.dev ≠ .boot) (hne : reqParams r ≠ []) (hk : n8At (reqParams r) 0 = 2)
    (hret : s.sys.lifecycle ≠ .returned) (hend : s.sys.lifecycle ≠ .ended) : SageRow 0x0E05#16 (isSeal 2) cardSeal sealRun via s r :=
  ⟨h, isSeal_of_takes h hne hk, by simp [cardSeal, hret, hend], inAll4_of_ne_boot hb, rfl⟩

/-! ### What a request leaves of the state that Sage's cards read -/

theorem updSage_taken (g : Sage → Sage) : updSage g (taken s via) = { taken s via with sage := g s.sage } := by rw [updSage, taken_sage]

@[simp] theorem classFull_taken (op : U16) : classFull (taken s via) op = classFull s op := by rw [taken_change]; rfl
@[simp] theorem odometer_taken : odometer (taken s via) = odometer s := by rw [taken_change]; rfl
@[simp] theorem sealGen_taken : sealGen (taken s via) = sealGen s := by rw [taken_change]; rfl
@[simp] theorem sealEntry_taken (g : Nat) : sealEntry (taken s via) g = sealEntry s g := by rw [taken_change]; rfl
@[simp] theorem sealNextGen_taken : sealNextGen (taken s via) = sealNextGen s := by rw [taken_change]; rfl
@[simp] theorem sealGenByte_taken : sealGenByte (taken s via) = sealGenByte s := by rw [taken_change]; rfl
@[simp] theorem gensLeft_taken : gensLeft (taken s via) = gensLeft s := by rw [taken_change]; rfl
@[simp] theorem sagePublic_taken : sagePublic (taken s via) = sagePublic s := by rw [taken_change]; rfl
@[simp] theorem tokenSigned_taken (t : Bytes) : tokenSigned (taken s via) t = tokenSigned s t := by rw [taken_change]; rfl
@[simp] theorem getTd_taken (d : Nat) : getTd (taken s via) d = getTd s d := by rw [taken_change]; rfl

end

/-! ### SAGE_READ -/

section
variable {u : State} {r : Req}

theorem sageReadRun_wrong (h : reqParams r ≠ []) : sageReadRun u r = rejectWith E_PARAM := if_pos (by simpa using h)
theorem sageReadRun_formed (h : reqParams r = []) : sageReadRun u r = .done u (slice u.sage.area 0 204) := if_neg (by simp [h])

/-! ### SAGE_SIGNED_RECORD -/

/-- The ranges of a SAGE_SIGNED_RECORD. -/
structure RecordParamsOk (p : Bytes) : Prop where
  length : p.length = 36
  kind : n8At p 0 ≤ 1
  reserved : zeroAt p 1 3 = true
  host : n8At p 0 = 1 → zeroAt p 4 32 = true

/-- The signing that a SAGE_SIGNED_RECORD asks for. -/
def askedRecord (p : Bytes) : SignJob := { checkpoint := decide (n8At p 0 = 1), host := slice p 4 32, trigger := 2, asked := true, body := none }

theorem signedRecordRun_wrong (h : (reqParams r).length ≠ 36) : signedRecordRun u r = rejectWith E_PARAM := if_pos (.inl h)

theorem signedRecordRun_formed (hok : RecordParamsOk (reqParams r)) (hroom : classFull u 0x0E01#16 = false) :
    signedRecordRun u r = if u.sage.clockFail then rejectWith E_NOT_READY else .long (queueSigning (askedRecord (reqParams r)) u) 0 [] := by
  obtain ⟨hlen, hkind, hres, hhost⟩ := hok
  unfold signedRecordRun
  dsimp only
  rw [if_neg (by simp [hlen, hkind, hres]; exact hhost), if_neg (by simp [hroom])]
  rfl

theorem recordBody_length (u : State) (j : SignJob) : (recordBody u j).length = 192 := by
  have hregs : ((sageRegs u.sage).flatMap (fun r => le64 (r.extractLsb' 32 64))).length = 80 := by
    simp [List.length_flatMap, le64_length, sageRegs_length]
  simp [recordBody, hregs, le32_length, le64_length, n8, n32, uidBytes, memReadBytes_length, slice_length, sageHash, sha256_length]

/-- A signing begins at once where none waits. -/
theorem queueSigning_idle (hnone : u.sage.signing = []) (hfail : u.sage.clockFail = false) {j : SignJob} (hj : j.body = none) :
    ∃ b, b.length = 192 ∧ queueSigning j u = { u with sage := { u.sage with signing := [{ j with body := some b }], n := u.sage.n + 1, failSince := false } } := by
  refine ⟨recordBody (updSage (fun x => { x with signing := x.signing ++ [j] }) u) j, recordBody_length .., ?_⟩
  unfold queueSigning startSigning updSage
  simp only [hnone, List.nil_append, hj, hfail]
  rfl

/-- A signing waits behind the one in progress. -/
theorem queueSigning_busy {k : SignJob} {l : List SignJob} (hsign : u.sage.signing = k :: l) (hk : k.body ≠ none) (j : SignJob) :
    queueSigning j u = { u with sage := { u.sage with signing := u.sage.signing ++ [j] } } := by
  unfold queueSigning startSigning updSage
  simp only [hsign, List.cons_append]
  exact if_pos (Option.isSome_iff_ne_none.mpr hk)

/-! ### SAGE_SET_TIME and SAGE_EVENT_LOG -/

theorem setTimeRun_wrong (h : (reqParams r).length ≠ 4) : setTimeRun u r = rejectWith E_PARAM := if_pos (.inl h)

theorem setTimeRun_formed (hlen : (reqParams r).length = 4) (hd : n8At (reqParams r) 0 < 4) (hres : zeroAt (reqParams r) 1 3 = true) (hroom : classFull u 0x0E02#16 = false) :
    setTimeRun u r = if tdRunning (getTd u (n8At (reqParams r) 0)) then .long (updSage (fun x => { x with setTime := x.setTime ++ [n8At (reqParams r) 0] }) u) 0 []
      else rejectWith E_NOT_READY := by
  unfold setTimeRun
  dsimp only
  rw [if_neg (by simp [hlen, hres]; omega), if_neg (by simp [hroom])]
  cases tdRunning (getTd u (n8At (reqParams r) 0)) <;> rfl

theorem eventLogRun_wrong (h : (reqParams r).length ≠ 8 ∨ n8At (reqParams r) 4 = 0 ∨ 63 < n8At (reqParams r) 4) : eventLogRun u r = rejectWith E_PARAM :=
  if_pos (by tauto)

theorem eventLogRun_beyond (hlive : u.sage.phase ≠ .inReset) (h : u.sage.logNext ≤ n32At (reqParams r) 0) : eventLogRun u r = rejectWith E_PARAM :=
  if_pos (by tauto)

theorem eventLogRun_formed (hlen : (reqParams r).length = 8) (hres : zeroAt (reqParams r) 5 3 = true) (h1 : 1 ≤ n8At (reqParams r) 4) (h63 : n8At (reqParams r) 4 ≤ 63)
    (hin : u.sage.phase ≠ .inReset → n32At (reqParams r) 0 < u.sage.logNext) {first : Nat} (hfirst : first = u.sage.logNext - u.sage.log.length) {es : List SageLogEntry}
    (hes : es = (u.sage.log.drop (n32At (reqParams r) 0 - first)).take (n8At (reqParams r) 4)) :
    eventLogRun u r = .done u (n8 es.length ++ zeros 3 ++ n32 first ++ es.flatMap (fun e => le64 e.time ++ le16 e.code ++ [0, 0] ++ le32 e.counter)) := by
  subst hes hfirst
  unfold eventLogRun
  dsimp only
  have hn : ¬ (n8At (reqParams r) 4 = 0) := by omega
  rw [if_neg (by simp only [hlen, hres, hn, not_true, Bool.not_true, Bool.false_eq_true, false_or, ne_eq, not_or, not_and, not_le]; exact ⟨by omega, hin⟩)]

/-! ### SAGE_RESTORE (R518) -/

/-- A restore that is refused: with event 0x0E07, and nothing else but the log and the capture changed. -/
def RestoreRefused (u : State) (r : Req) (st : U16) : Prop := ∃ t, restoreRun u r = .failed t st [] ∧ LogOnly u t

/-- A checkpoint that meets R518. -/
structure CheckpointOk (u : State) (p : Bytes) : Prop where
  signed : ecdsaOk p256c (sagePublic u) (sha256 (slice p 0 192)) (slice p 192 64) = true
  magic : u32At p 0 = 0x52535A4F#32
  kind : n8At p 4 = 1
  uid : slice p 24 16 = uidBytes u
  generation : n8At p 6 = sealGenByte u
  sequence : odometer u * 2 ^ 20 ≤ n32At p 8
  boot : slice p 184 8 ≠ u.sage.bootId

theorem checkpointOk_iff (u : State) (p : Bytes) :
    (ecdsaOk p256c (sagePublic u) (sha256 (slice p 0 192)) (slice p 192 64) && u32At p 0 == 0x52535A4F#32 && decide (n8At p 4 = 1) && slice p 24 16 == uidBytes u
      && decide (n8At p 6 = sealGenByte u) && decide (n32At p 8 ≥ odometer u * 2 ^ 20) && slice p 184 8 != u.sage.bootId) = true ↔ CheckpointOk u p := by
  simp only [Bool.and_eq_true, beq_iff_eq, decide_eq_true_eq, bne_iff_ne, and_assoc]
  exact ⟨fun ⟨h1, h2, h3, h4, h5, h6, h7⟩ => ⟨h1, h2, h3, h4, h5, h6, h7⟩, fun ⟨h1, h2, h3, h4, h5, h6, h7⟩ => ⟨h1, h2, h3, h4, h5, h6, h7⟩⟩

theorem restoreRun_again (h : u.sage.restored = true) : RestoreRefused u r E_STATE := by
  refine ⟨_, if_pos h, sagePost_log ..⟩

section
variable (h : u.sage.restored = false)
include h

theorem restoreRun_wrong (hlen : (reqParams r).length ≠ 256) : RestoreRefused u r E_PARAM :=
  ⟨_, (if_neg (by simp [h])).trans (if_pos hlen), sagePost_log ..⟩

variable (hlen : (reqParams r).length = 256)
include hlen

theorem restoreRun_broken (hseal : u.sage.sealState = .broken) : RestoreRefused u r E_SEALED :=
  ⟨_, (if_neg (by simp [h])).trans ((if_neg (not_not_intro hlen)).trans (if_pos hseal)), sagePost_log ..⟩

variable (hseal : u.sage.sealState ≠ .broken)
include hseal

theorem restoreRun_spent (hodo : 2048 ≤ odometer u) : RestoreRefused u r E_RESOURCE :=
  ⟨_, (if_neg (by simp [h])).trans ((if_neg (not_not_intro hlen)).trans ((if_neg hseal).trans (if_pos hodo))), sagePost_log ..⟩

variable (hodo : odometer u < 2048) (hroom : classFull u 0x0E04#16 = false)
include hodo hroom

theorem restoreRun_bad (hbad : ¬ CheckpointOk u (reqParams r)) : RestoreRefused u r E_VERIFY := by
  rw [← checkpointOk_iff, Bool.not_eq_true] at hbad
  refine ⟨_, (if_neg (by simp [h])).trans ((if_neg (not_not_intro hlen)).trans ((if_neg hseal).trans ((if_neg (by omega)).trans ((if_neg (by simp [hroom])).trans (if_pos ?_))))), sagePost_log ..⟩
  rw [hbad]
  rfl

theorem restoreRun_good (hok : CheckpointOk u (reqParams r)) :
    restoreRun u r = .long { u with sage := { u.sage with restored := true, restoring := some (reqParams r) } } 0 [] := by
  rw [← checkpointOk_iff] at hok
  refine (if_neg (by simp [h])).trans ((if_neg (not_not_intro hlen)).trans ((if_neg hseal).trans ((if_neg (by omega)).trans ((if_neg (by simp [hroom])).trans (if_neg ?_)))))
  rw [hok]
  decide

end

end


/-! ### SAGE_SEAL: the query, the parameters and MPULSE (R511, R512) -/

section
variable {u : State} {r : Req}

theorem sealQueryRun_wrong (h : (reqParams r).length ≠ 4 ∨ zeroAt (reqParams r) 0 4 = false) : sealQueryRun u r = rejectWith E_PARAM :=
  if_pos (by simpa using h)

theorem zeroAt_first {b : Bytes} {n : Nat} (hn : 0 < n) (h : n8At b 0 ≠ 0) : zeroAt b 0 n = false := by
  cases b with
  | nil => exact absurd rfl h
  | cons x b =>
    obtain ⟨m, rfl⟩ : ∃ m, n = m + 1 := ⟨n - 1, by omega⟩
    have hx : x ≠ 0#8 := fun hx => h (by rw [hx]; rfl)
    simp [zeroAt, hx]

theorem sealQueryRun_formed (hp : reqParams r = [0, 0, 0, 0]) : ∃ (nonce : Bytes) (f : Nat), nonce.length = 16 ∧
    sealQueryRun u r = .done { u with sage := { u.sage with nonce := some (nonce, u.sage.ticks) }, free := f }
      (n8 (sealCode u.sage.sealState) ++ n8 (sealGenByte u) ++ n8 (gensLeft u) ++ [0] ++ nonce ++ uidBytes u) := by
  obtain ⟨f, hf⟩ := drawBytes_snd 16 u
  have hl := drawBytes_fst_length 16 u
  unfold sealQueryRun
  rw [hp]
  dsimp only
  rw [if_neg (by decide)]
  generalize drawBytes 16 u = d at hf hl
  obtain ⟨nonce, v⟩ := d
  simp only at hf hl
  subst hf
  exact ⟨nonce, f, hl, rfl⟩

theorem sealLoadRun_wrong (h : (reqParams r).length ≠ 132) : sealLoadRun u r = rejectWith E_PARAM := if_pos (.inl h)

theorem sealLoadRun_formed (hlen : (reqParams r).length = 132) (hres : zeroAt (reqParams r) 1 3 = true) (hblock : sageBlockOk (slice (reqParams r) 4 128) = true) :
    sealLoadRun u r = if u.sage.sealState = .isSealed then rejectWith E_SEALED
      else .done (updSage (fun x => { x with next := some (slice (reqParams r) 4 128) }) u) (sha256 (slice (reqParams r) 4 128)) :=
  if_neg (by simp [hlen, hres, hblock])

theorem pulseEnableRun_wrong (hstops : u.sage.pulseStops = false) (h : (reqParams r).length ≠ 4) : pulseEnableRun u r = rejectWith E_PARAM :=
  (if_neg (by simp [hstops])).trans (if_pos (.inl h))

theorem pulseEnableRun_formed (hp : reqParams r = [4, 0, 0, 0]) :
    pulseEnableRun u r = if u.sage.pulseStops then shuttingDown (pulseLeft u.sage) else .done (updSage (fun x => { x with pulseOn := true, pulseAcc := 0 }) u) [] := by
  unfold pulseEnableRun
  rw [hp]
  rfl

theorem pulseDisableRun_wrong (h : (reqParams r).length ≠ 4) : pulseDisableRun u r = rejectWith E_PARAM := if_pos (.inl h)

/-- MPULSE disabled: at once, or after the pulse in progress. -/
def pulseDisabled (x : Sage) : Sage := if x.pulse then { x with pulseStops := true } else { x with pulseOn := false, pulseLimited := false }

theorem pulseDisableRun_formed (hp : reqParams r = [5, 0, 0, 0]) :
    pulseDisableRun u r = .done (updSage pulseDisabled u) (n32 (pulseLeft (pulseDisabled u.sage))) := by
  unfold pulseDisableRun
  rw [hp]
  rfl

/-! ### SAGE_SEAL: tokens (R520, R522) -/

/-- The ranges of a SAGE_SEAL with a token. -/
structure TokenParamsOk (p : Bytes) : Prop where
  length : p.length = 184
  reserved : zeroAt p 1 3 = true
  token : zeroAt p 22 2 = true

theorem token_refused {p : Bytes} (h : p.length ≠ 184 ∨ zeroAt p 22 2 = false) : p.length ≠ 184 ∨ (!zeroAt p 1 3) = true ∨ (!zeroAt (slice p 4 180) 18 2) = true := by
  by_cases hlen : p.length = 184
  · rw [zeroAt_slice (by decide) (by omega)]
    simp [h.resolve_left (not_not_intro hlen)]
  · exact .inl hlen

theorem TokenParamsOk.accepted {p : Bytes} (h : TokenParamsOk p) : ¬ (p.length ≠ 184 ∨ (!zeroAt p 1 3) = true ∨ (!zeroAt (slice p 4 180) 18 2) = true) := by
  rw [zeroAt_slice (by decide) (by rw [h.length])]
  simp [h.length, h.reserved, h.token]

/-- What a token must agree with, and its signature. -/
structure TokenAgrees (u : State) (p : Bytes) (action gen : Nat) (hash n : Bytes) : Prop where
  signed : tokenSigned u (slice p 4 180) = true
  nonce : slice p 4 16 = n
  action : n8At p 20 = action
  generation : n8At p 21 = gen
  hash : slice p 24 32 = hash

theorem tokenAgrees_iff {p : Bytes} (hlen : p.length = 184) {n : Bytes} {i action gen : Nat} {hash : Bytes} (hn : u.sage.nonce = some (n, i)) :
    (!tokenOk u (slice p 4 180) action gen hash) = true ∨ (!tokenSigned u (slice p 4 180)) = true ↔ ¬ TokenAgrees u p action gen hash n := by
  have hok : tokenOk u (slice p 4 180) action gen hash = true ↔ slice p 4 16 = n ∧ n8At p 20 = action ∧ n8At p 21 = gen ∧ slice p 24 32 = hash := by
    unfold tokenOk
    rw [hn, slice_slice (by decide) (by omega), slice_slice (by decide) (by omega), n8At, n8At, byteAt_slice (by decide) (by omega), byteAt_slice (by decide) (by omega)]
    simp only [Bool.and_eq_true, beq_iff_eq, decide_eq_true_eq, and_assoc, n8At]
  rw [Bool.not_eq_true', Bool.not_eq_true', ← Bool.not_eq_true, ← Bool.not_eq_true, ← not_and_or, not_iff_not, hok]
  exact ⟨fun ⟨⟨h1, h2, h3, h4⟩, h5⟩ => ⟨h5, h1, h2, h3, h4⟩, fun ⟨h5, h1, h2, h3, h4⟩ => ⟨⟨h1, h2, h3, h4⟩, h5⟩⟩

theorem sealRun_wrong (h : (reqParams r).length ≠ 184 ∨ zeroAt (reqParams r) 22 2 = false) : sealRun u r = rejectWith E_PARAM := if_pos (token_refused h)
theorem breakRun_wrong (h : (reqParams r).length ≠ 184 ∨ zeroAt (reqParams r) 22 2 = false) : breakRun u r = rejectWith E_PARAM := if_pos (token_refused h)

section
variable (hok : TokenParamsOk (reqParams r))
include hok

theorem sealRun_sealed (h : u.sage.sealState = .isSealed) : sealRun u r = rejectWith E_SEALED := (if_neg hok.accepted).trans (if_pos h)

theorem sealRun_spent (h : u.sage.sealState ≠ .isSealed) (hgen : sealNextGen u = none) : sealRun u r = rejectWith E_RESOURCE := by
  unfold sealRun
  dsimp only
  rw [if_neg hok.accepted, if_neg h, hgen]

/-- The authority of a new seal: the key that the token carries, or for none the one before it. -/
def sealAuth (u : State) (p : Bytes) : Bytes :=
  if zeroAt p 56 64 then (sealGen u).elim (zeros 32) fun k => slice (sealEntry u k) 160 32 else sha256 (slice p 56 64)

/-- A seal in an open state, with a generation left: the parameter block decides, then the token. -/
theorem sealRun_open (h : u.sage.sealState ≠ .isSealed) {g : Nat} (hgen : sealNextGen u = some g) (hop : u.sage.sealOp = none) (hroom : classFull u 0x0E05#16 = false) :
    sealRun u r = (u.sage.next.or u.sage.params).elim (.failed (updSage (fun x => { x with nonce := none }) u) E_VERIFY []) fun b =>
      if (!tokenOk u (slice (reqParams r) 4 180) 2 g (sha256 b)) = true ∨ (!tokenSigned u (slice (reqParams r) 4 180)) = true then .failed (updSage (fun x => { x with nonce := none }) u) E_VERIFY []
      else .long (updSage (fun x => { x with nonce := none, sealOp := some (.newSeal g b (sha256 b) (sealAuth u (reqParams r))) }) u) 2 [] := by
  unfold sealRun sealAuth
  dsimp only
  rw [if_neg hok.accepted, if_neg h, hgen]
  dsimp only
  rw [if_neg (by simp [hop, hroom])]
  cases u.sage.next.or u.sage.params with
  | none => rfl
  | some b =>
    dsimp only [Option.elim_some]
    rw [zeroAt_slice (by decide) (by rw [hok.length]), slice_slice (by decide) (by rw [hok.length])]
    cases sealGen u <;> rfl

theorem breakRun_unsealed (h : u.sage.sealState ≠ .isSealed) : breakRun u r = rejectWith E_SEALED := (if_neg hok.accepted).trans (if_pos h)

theorem breakRun_sealed (h : u.sage.sealState = .isSealed) (hop : u.sage.sealOp = none) (hroom : classFull u 0x0E05#16 = false) :
    breakRun u r = if (!tokenOk u (slice (reqParams r) 4 180) 3 (sealGenByte u) (zeros 32)) = true ∨ (!tokenSigned u (slice (reqParams r) 4 180)) = true
      then .failed (updSage (fun x => { x with nonce := none }) u) E_VERIFY [] else .long (updSage (fun x => { x with nonce := none, sealOp := some .breakToken }) u) 3 [] :=
  (if_neg hok.accepted).trans ((if_neg (not_not_intro h)).trans (if_neg (by simp [hop, hroom])))

end

end

end Sys2Proof.Proofs

/-! ## The requests of Sage, row by row -/

namespace Sys2Proof.Proofs

open Sys2Proof Sys2Proof.Machine Sys2Proof.Claims Sys2Proof.Laws

/-! ### What comes to E_NOT_READY in reset -/

section
variable {u : State} {r : Req}

theorem RestoreRefused.becomesNotReady {st : U16} (h : RestoreRefused u r st) (hst : st = E_SEALED ∨ st = E_VERIFY) : BecomesNotReady (restoreRun u r) := by
  obtain ⟨t, ht, -⟩ := h
  rw [ht]
  obtain rfl | rfl := hst
  · exact becomesNotReady_failedSealed t
  · exact becomesNotReady_verify t

theorem signedRecordRun_becomes (hok : RecordParamsOk (reqParams r)) (hroom : classFull u 0x0E01#16 = false) : BecomesNotReady (signedRecordRun u r) := by
  rw [signedRecordRun_formed hok hroom]
  split
  · exact becomesNotReady_notReady
  · exact becomesNotReady_long ..

theorem setTimeRun_becomes (hlen : (reqParams r).length = 4) (hd : n8At (reqParams r) 0 < 4) (hres : zeroAt (reqParams r) 1 3 = true) (hroom : classFull u 0x0E02#16 = false) :
    BecomesNotReady (setTimeRun u r) := by
  rw [setTimeRun_formed hlen hd hres hroom]
  split
  · exact becomesNotReady_long ..
  · exact becomesNotReady_notReady

theorem restoreRun_becomes (h : u.sage.restored = false) (hlen : (reqParams r).length = 256) (hodo : odometer u < 2048) (hroom : classFull u 0x0E04#16 = false) :
    BecomesNotReady (restoreRun u r) := by
  by_cases hseal : u.sage.sealState = .broken
  · exact (restoreRun_broken h hlen hseal).becomesNotReady (.inl rfl)
  · by_cases hok : CheckpointOk u (reqParams r)
    · rw [restoreRun_good h hlen hseal hodo hroom hok]
      exact becomesNotReady_long ..
    · exact (restoreRun_bad h hlen hseal hodo hroom hok).becomesNotReady (.inr rfl)

theorem sealLoadRun_becomes (hlen : (reqParams r).length = 132) (hres : zeroAt (reqParams r) 1 3 = true) (hblock : sageBlockOk (slice (reqParams r) 4 128) = true) :
    BecomesNotReady (sealLoadRun u r) := by
  rw [sealLoadRun_formed hlen hres hblock]
  split
  · exact becomesNotReady_sealed
  · exact becomesNotReady_done ..

theorem sealRun_becomes (hok : TokenParamsOk (reqParams r)) (hop : u.sage.sealOp = none) (hroom : classFull u 0x0E05#16 = false) (hgen : sealNextGen u ≠ none) :
    BecomesNotReady (sealRun u r) := by
  by_cases hseal : u.sage.sealState = .isSealed
  · rw [sealRun_sealed hok hseal]
    exact becomesNotReady_sealed
  · obtain ⟨g, hg⟩ := Option.ne_none_iff_exists'.mp hgen
    rw [sealRun_open hok hseal hg hop hroom]
    cases u.sage.next.or u.sage.params with
    | none => exact becomesNotReady_verify _
    | some b =>
      rw [Option.elim_some]
      split
      · exact becomesNotReady_verify _
      · exact becomesNotReady_long ..

theorem breakRun_becomes (hok : TokenParamsOk (reqParams r)) (hop : u.sage.sealOp = none) (hroom : classFull u 0x0E05#16 = false) : BecomesNotReady (breakRun u r) := by
  by_cases hseal : u.sage.sealState = .isSealed
  · rw [breakRun_sealed hok hseal hop hroom]
    split
    · exact becomesNotReady_verify _
    · exact becomesNotReady_long ..
  · rw [breakRun_unsealed hok hseal]
    exact becomesNotReady_sealed

theorem pulseEnableRun_becomes (hp : reqParams r = [4, 0, 0, 0]) : BecomesNotReady (pulseEnableRun u r) := by
  rw [pulseEnableRun_formed hp]
  split
  · exact becomesNotReady_shuttingDown _
  · exact becomesNotReady_done ..

end

section
variable {via : Transport} {s : State} {r : Req} (hb : s.sys.dev ≠ .boot)
include hb

/-! ### Requests that are not well formed -/

/-- A request of another length, or with a token whose reserved bytes are not zero, in reset and outside it. -/
theorem sageRequests_wrong :
    (Takes 0x0E00#16 via s r → reqParams r ≠ [] → exec (.sageRead via) s = replied r E_PARAM [] (dropRequest s via))
      ∧ (Takes 0x0E01#16 via s r → (reqParams r).length ≠ 36 → exec (.sageSignedRecord via) s = replied r E_PARAM [] (dropRequest s via))
      ∧ (Takes 0x0E02#16 via s r → (reqParams r).length ≠ 4 → exec (.sageSetTime via) s = replied r E_PARAM [] (dropRequest s via))
      ∧ (Takes 0x0E03#16 via s r → (reqParams r).length ≠ 8 ∨ n8At (reqParams r) 4 = 0 ∨ 63 < n8At (reqParams r) 4 → exec (.sageEventLog via) s = replied r E_PARAM [] (dropRequest s via)) :=
  ⟨fun h hp => (sageRow_of_op h hb).param (sageReadRun_wrong hp), fun h hl => (sageRow_of_op h hb).param (signedRecordRun_wrong hl),
    fun h hl => (sageRow_of_op h hb).param (setTimeRun_wrong hl), fun h hw => (sageRow_of_op h hb).param (eventLogRun_wrong hw)⟩

theorem sageSeal_wrong (h : Takes 0x0E05#16 via s r) :
    (reqParams r = [] ∨ n8At (reqParams r) 0 = 0 ∧ (reqParams r).length ≠ 4 ∨ 5 < n8At (reqParams r) 0 → exec (.sageSealQuery via) s = replied r E_PARAM [] (dropRequest s via))
    ∧ (reqParams r ≠ [] → (n8At (reqParams r) 0 = 1 → (reqParams r).length ≠ 132 → exec (.sageSealLoadParameters via) s = replied r E_PARAM [] (dropRequest s via))
      ∧ (n8At (reqParams r) 0 = 2 → s.sys.lifecycle ≠ .returned → s.sys.lifecycle ≠ .ended → (reqParams r).length ≠ 184 ∨ zeroAt (reqParams r) 22 2 = false →
        exec (.sageSealSeal via) s = replied r E_PARAM [] (dropRequest s via))
      ∧ (n8At (reqParams r) 0 = 2 → s.sys.lifecycle = .returned ∨ s.sys.lifecycle = .ended → exec (.sageSealSeal via) s = replied r E_LIFECYCLE [] (dropRequest s via))
      ∧ (n8At (reqParams r) 0 = 3 → (reqParams r).length ≠ 184 ∨ zeroAt (reqParams r) 22 2 = false → exec (.sageSealBreak via) s = replied r E_PARAM [] (dropRequest s via))
      ∧ (n8At (reqParams r) 0 = 4 → s.sage.pulseStops = false → (reqParams r).length ≠ 4 → exec (.sageSealPulseEnable via) s = replied r E_PARAM [] (dropRequest s via))
      ∧ (n8At (reqParams r) 0 = 5 → (reqParams r).length ≠ 4 → exec (.sageSealPulseDisable via) s = replied r E_PARAM [] (dropRequest s via))) := by
  refine ⟨fun hq => ?_, fun hne => ⟨fun hk hl => (sageRow_of_action h hb hne hk).param (sealLoadRun_wrong hl),
    fun hk hret hend hw => (sageRow_seal h hb hne hk hret hend).param (sealRun_wrong hw), fun hk hlc => ?_, fun hk hw => (sageRow_of_action h hb hne hk).param (breakRun_wrong hw),
    fun hk hstops hl => (sageRow_of_action h hb hne hk).param (pulseEnableRun_wrong (by rw [taken_sage]; exact hstops) hl),
    fun hk hl => (sageRow_of_action h hb hne hk).param (pulseDisableRun_wrong hl)⟩⟩
  · refine (sageRow_query h hb (by tauto)).param (sealQueryRun_wrong ?_)
    obtain hp | ⟨-, hl⟩ | hk := hq
    · exact .inl (by simp [hp])
    · exact .inl hl
    · exact .inr (zeroAt_first (by decide) (by omega))
  · refine next_runCard_refused_lifecycle h (isSeal_of_takes h hne hk) ?_
    obtain hlc | hlc := hlc <;> simp [cardSeal, hlc]

/-! ### Requests in reset -/

section
variable (hreset : s.sage.phase = .inReset)
include hreset

theorem sageRequests_inReset :
    (Takes 0x0E00#16 via s r → reqParams r = [] → exec (.sageRead via) s = replied r E_NOT_READY [] (dropRequest s via))
      ∧ (Takes 0x0E01#16 via s r → RecordParamsOk (reqParams r) → classFull s 0x0E01#16 = false → exec (.sageSignedRecord via) s = replied r E_NOT_READY [] (dropRequest s via))
      ∧ (Takes 0x0E02#16 via s r → (reqParams r).length = 4 → n8At (reqParams r) 0 < 4 → zeroAt (reqParams r) 1 3 = true → classFull s 0x0E02#16 = false →
        exec (.sageSetTime via) s = replied r E_NOT_READY [] (dropRequest s via))
      ∧ (Takes 0x0E03#16 via s r → (reqParams r).length = 8 → zeroAt (reqParams r) 5 3 = true → 1 ≤ n8At (reqParams r) 4 → n8At (reqParams r) 4 ≤ 63 →
        exec (.sageEventLog via) s = replied r E_NOT_READY [] (dropRequest s via))
      ∧ (Takes 0x0E04#16 via s r → s.sage.restored = false →
        ((reqParams r).length = 256 → odometer s < 2048 → classFull s 0x0E04#16 = false → exec (.sageRestore via) s = replied r E_NOT_READY [] (dropRequest s via))
        ∧ ((reqParams r).length ≠ 256 → exec (.sageRestore via) s = replied r E_PARAM [] (dropRequest s via))) := by
  refine ⟨fun h hp => (sageRow_of_op h hb).inReset hreset (by rw [sageReadRun_formed hp]; rfl),
    fun h hok hroom => (sageRow_of_op h hb).inReset hreset (signedRecordRun_becomes hok (by simpa using hroom)),
    fun h hl hd hres hroom => (sageRow_of_op h hb).inReset hreset (setTimeRun_becomes hl hd hres (by simpa using hroom)), fun h hl hres h1 h63 => ?_,
    fun h hnew => ⟨fun hl hodo hroom => (sageRow_of_op h hb).inReset hreset (restoreRun_becomes (by simpa using hnew) hl (by simpa using hodo) (by simpa using hroom)), fun hl => ?_⟩⟩
  · refine (sageRow_of_op h hb).inReset hreset ?_
    rw [eventLogRun_formed hl hres h1 h63 (fun hlive => absurd (by rw [taken_sage]; exact hreset) hlive) rfl rfl]
    rfl
  · obtain ⟨t, ht, -⟩ := restoreRun_wrong (u := taken s via) (r := r) (by simpa using hnew) hl
    exact (sageRow_of_op h hb).inReset hreset (by rw [ht]; rfl)

theorem sageSeal_inReset (h : Takes 0x0E05#16 via s r) :
    (reqParams r = [0, 0, 0, 0] → exec (.sageSealQuery via) s = replied r E_NOT_READY [] (dropRequest s via))
    ∧ ((reqParams r).length = 132 → n8At (reqParams r) 0 = 1 → zeroAt (reqParams r) 1 3 = true → sageBlockOk (slice (reqParams r) 4 128) = true →
      exec (.sageSealLoadParameters via) s = replied r E_NOT_READY [] (dropRequest s via))
    ∧ (TokenParamsOk (reqParams r) → s.sage.sealOp = none → classFull s 0x0E05#16 = false →
      (n8At (reqParams r) 0 = 2 → s.sys.lifecycle ≠ .returned → s.sys.lifecycle ≠ .ended → sealNextGen s ≠ none → exec (.sageSealSeal via) s = replied r E_NOT_READY [] (dropRequest s via))
      ∧ (n8At (reqParams r) 0 = 3 → exec (.sageSealBreak via) s = replied r E_NOT_READY [] (dropRequest s via)))
    ∧ (reqParams r = [4, 0, 0, 0] → exec (.sageSealPulseEnable via) s = replied r E_NOT_READY [] (dropRequest s via))
    ∧ (reqParams r = [5, 0, 0, 0] → exec (.sageSealPulseDisable via) s = replied r E_NOT_READY [] (dropRequest s via)) := by
  have hne {n : Nat} (hl : (reqParams r).length = n + 1) : reqParams r ≠ [] := by rintro hp; rw [hp] at hl; cases hl
  refine ⟨fun hp => ?_, fun hl hk hres hblock => (sageRow_of_action h hb (hne hl) hk).inReset hreset (sealLoadRun_becomes hl hres hblock),
    fun hok hop hroom => ⟨fun hk hret hend hgen => ?_, fun hk => ?_⟩, fun hp => ?_, fun hp => ?_⟩
  · obtain ⟨nonce, f, -, hrun⟩ := sealQueryRun_formed (u := taken s via) hp
    exact (sageRow_query h hb (by rw [hp]; exact .inr (.inl rfl))).inReset hreset (by rw [hrun]; rfl)
  · exact (sageRow_seal h hb (hne hok.length) hk hret hend).inReset hreset (sealRun_becomes hok (by simpa using hop) (by simpa using hroom) (by simpa using hgen))
  · exact (sageRow_of_action h hb (hne hok.length) hk).inReset hreset (breakRun_becomes hok (by simpa using hop) (by simpa using hroom))
  · exact (sageRow_of_action h hb (by simp [hp]) (by rw [hp]; rfl)).inReset hreset (pulseEnableRun_becomes hp)
  · exact (sageRow_of_action h hb (by simp [hp]) (by rw [hp]; rfl)).inReset hreset (by rw [pulseDisableRun_formed hp]; rfl)

end

/-! ### Requests outside reset -/

section
variable (hlive : s.sage.phase ≠ .inReset)
include hlive

theorem sageRead_live (h : Takes 0x0E00#16 via s r) (hp : reqParams r = []) : exec (.sageRead via) s = replied r OK (slice s.sage.area 0 204) (taken s via) := by
  have hrun := sageReadRun_formed (u := taken s via) hp
  rw [taken_sage] at hrun
  exact (sageRow_of_op h hb).done hlive hrun

theorem sageSignedRecord_live (h : Takes 0x0E01#16 via s r) (hok : RecordParamsOk (reqParams r)) (hroom : classFull s 0x0E01#16 = false) :
    (s.sage.clockFail = true → exec (.sageSignedRecord via) s = replied r E_NOT_READY [] (dropRequest s via))
    ∧ (s.sage.clockFail = false →
      (s.sage.signing = [] → ∃ b, b.length = 192 ∧ exec (.sageSignedRecord via) s = accepted r 0 []
        { taken s via with sage := { s.sage with signing := [{ askedRecord (reqParams r) with body := some b }], n := s.sage.n + 1, failSince := false } })
      ∧ (∀ k l, s.sage.signing = k :: l → k.body ≠ none → exec (.sageSignedRecord via) s = accepted r 0 []
        { taken s via with sage := { s.sage with signing := s.sage.signing ++ [askedRecord (reqParams r)] } })) := by
  have row : SageRow 0x0E01#16 (isOp 0x0E01#16) (sageCard signedRecordRun) signedRecordRun via s r := sageRow_of_op h hb
  have hrun := signedRecordRun_formed (u := taken s via) hok (by simpa using hroom)
  rw [taken_sage] at hrun
  refine ⟨fun hfail => row.reject hlive (hrun.trans (if_pos hfail)), fun hfail => ⟨fun hsign => ?_, fun k l hsign hk => ?_⟩⟩
  · obtain ⟨b, hlen, hq⟩ := queueSigning_idle (u := taken s via) (by rw [taken_sage]; exact hsign) (by rw [taken_sage]; exact hfail) (j := askedRecord (reqParams r)) rfl
    rw [taken_sage] at hq
    exact ⟨b, hlen, row.long hlive (hrun.trans ((if_neg (by simp [hfail])).trans (by rw [hq])))⟩
  · have hq := queueSigning_busy (u := taken s via) (by rw [taken_sage]; exact hsign) hk (askedRecord (reqParams r))
    rw [taken_sage] at hq
    exact row.long hlive (hrun.trans ((if_neg (by simp [hfail])).trans (by rw [hq])))

theorem sageSetTime_live (h : Takes 0x0E02#16 via s r) (hl : (reqParams r).length = 4) (hd : n8At (reqParams r) 0 < 4) (hres : zeroAt (reqParams r) 1 3 = true)
    (hruns : tdRunning (getTd s (n8At (reqParams r) 0)) = true) (hroom : classFull s 0x0E02#16 = false) :
    exec (.sageSetTime via) s = accepted r 0 [] { taken s via with sage := { s.sage with setTime := s.sage.setTime ++ [n8At (reqParams r) 0] } } := by
  have hrun := setTimeRun_formed (u := taken s via) hl hd hres (by simpa using hroom)
  rw [if_pos (by simpa using hruns), updSage_taken] at hrun
  exact (sageRow_of_op h hb).long hlive hrun

theorem sageEventLog_live (h : Takes 0x0E03#16 via s r) (hl : (reqParams r).length = 8) (hres : zeroAt (reqParams r) 5 3 = true) (h1 : 1 ≤ n8At (reqParams r) 4)
    (h63 : n8At (reqParams r) 4 ≤ 63) {first : Nat} (hfirst : first + s.sage.log.length = s.sage.logNext) {es : List SageLogEntry}
    (hes : es = (s.sage.log.drop (n32At (reqParams r) 0 - first)).take (n8At (reqParams r) 4)) :
    (n32At (reqParams r) 0 < s.sage.logNext → exec (.sageEventLog via) s = replied r OK
      (n8 es.length ++ zeros 3 ++ n32 first ++ es.flatMap (fun e => le64 e.time ++ le16 e.code ++ [0, 0] ++ le32 e.counter)) (taken s via))
    ∧ (s.sage.logNext ≤ n32At (reqParams r) 0 → exec (.sageEventLog via) s = replied r E_PARAM [] (dropRequest s via)) := by
  refine ⟨fun hin => (sageRow_of_op h hb).done hlive (eventLogRun_formed hl hres h1 h63 (fun _ => by rw [taken_sage]; exact hin) ?_ (by rw [taken_sage]; exact hes)),
    fun hout => (sageRow_of_op h hb).reject hlive (eventLogRun_beyond (by rw [taken_sage]; exact hlive) (by rw [taken_sage]; exact hout))⟩
  rw [taken_sage]
  omega

omit hb hlive in
theorem checkpointOk_taken : CheckpointOk (taken s via) (reqParams r) ↔ CheckpointOk s (reqParams r) := by
  rw [← checkpointOk_iff, ← checkpointOk_iff, sagePublic_taken, uidBytes_taken, sealGenByte_taken, odometer_taken, taken_sage]

theorem sageRestore_refused (h : Takes 0x0E04#16 via s r) {st : U16} (href : RestoreRefused (taken s via) r st) :
    ∃ t, exec (.sageRestore via) s = replied r st [] t ∧ LogOnly (taken s via) t := by
  obtain ⟨t, ht, hlog⟩ := href
  exact ⟨t, (sageRow_of_op h hb).failed hlive ht, hlog⟩

theorem sageRestore_live (h : Takes 0x0E04#16 via s r) (hl : (reqParams r).length = 256) (hnew : s.sage.restored = false) :
    (s.sage.sealState = .broken → ∃ t, exec (.sageRestore via) s = replied r E_SEALED [] t ∧ LogOnly (taken s via) t)
    ∧ (s.sage.sealState ≠ .broken → 2048 ≤ odometer s → ∃ t, exec (.sageRestore via) s = replied r E_RESOURCE [] t ∧ LogOnly (taken s via) t)
    ∧ (s.sage.sealState ≠ .broken → odometer s < 2048 → classFull s 0x0E04#16 = false →
      (CheckpointOk s (reqParams r) → exec (.sageRestore via) s = accepted r 0 [] { taken s via with sage := { s.sage with restored := true, restoring := some (reqParams r) } })
      ∧ (¬ CheckpointOk s (reqParams r) → ∃ t, exec (.sageRestore via) s = replied r E_VERIFY [] t ∧ LogOnly (taken s via) t)) := by
  have hnew' : (taken s via).sage.restored = false := by rw [taken_sage]; exact hnew
  refine ⟨fun hseal => sageRestore_refused hb hlive h (restoreRun_broken hnew' hl (by rw [taken_sage]; exact hseal)),
    fun hseal hodo => sageRestore_refused hb hlive h (restoreRun_spent hnew' hl (by rw [taken_sage]; exact hseal) (by rw [odometer_taken]; exact hodo)),
    fun hseal hodo hroom => ⟨fun hok => ?_, fun hbad => sageRestore_refused hb hlive h (restoreRun_bad hnew' hl (by rw [taken_sage]; exact hseal) (by rw [odometer_taken]; exact hodo)
      (by rw [classFull_taken]; exact hroom) (fun hok => hbad (checkpointOk_taken.mp hok)))⟩⟩
  have hrun := restoreRun_good hnew' hl (by rw [taken_sage]; exact hseal) (by rw [odometer_taken]; exact hodo) (by rw [classFull_taken]; exact hroom) (checkpointOk_taken.mpr hok)
  rw [taken_sage] at hrun
  exact (sageRow_of_op h hb).long hlive hrun

theorem sageSealQuery_live (h : Takes 0x0E05#16 via s r) (hp : reqParams r = [0, 0, 0, 0]) : ∃ (nonce : Bytes) (f : Nat), nonce.length = 16 ∧
    exec (.sageSealQuery via) s = replied r OK (n8 (sealCode s.sage.sealState) ++ n8 (sealGenByte s) ++ n8 (gensLeft s) ++ [0] ++ nonce ++ uidBytes s)
      { taken s via with sage := { s.sage with nonce := some (nonce, s.sage.ticks) }, free := f } := by
  obtain ⟨nonce, f, hlen, hrun⟩ := sealQueryRun_formed (u := taken s via) hp
  rw [taken_sage, sealGenByte_taken, gensLeft_taken, uidBytes_taken] at hrun
  exact ⟨nonce, f, hlen, (sageRow_query h hb (by rw [hp]; exact .inr (.inl rfl))).done hlive hrun⟩

theorem sageSealLoad_live (h : Takes 0x0E05#16 via s r) (hl : (reqParams r).length = 132) (hk : n8At (reqParams r) 0 = 1) (hres : zeroAt (reqParams r) 1 3 = true)
    (hblock : sageBlockOk (slice (reqParams r) 4 128) = true) :
    (s.sage.sealState ≠ .isSealed → exec (.sageSealLoadParameters via) s = replied r OK (sha256 (slice (reqParams r) 4 128))
      { taken s via with sage := { s.sage with next := some (slice (reqParams r) 4 128) } })
    ∧ (s.sage.sealState = .isSealed → exec (.sageSealLoadParameters via) s = replied r E_SEALED [] (dropRequest s via)) := by
  have row : SageRow 0x0E05#16 (isSeal 1) (sageCard sealLoadRun) sealLoadRun via s r := sageRow_of_action h hb (by rintro hp; rw [hp] at hl; cases hl) hk
  have hrun := sealLoadRun_formed (u := taken s via) hl hres hblock
  rw [updSage_taken, taken_sage] at hrun
  exact ⟨fun hs => row.done hlive (hrun.trans (if_neg hs)), fun hs => row.reject hlive (hrun.trans (if_pos hs))⟩

omit hb hlive in
theorem tokenAgrees_taken {p n hash : Bytes} {action gen : Nat} : TokenAgrees (taken s via) p action gen hash n ↔ TokenAgrees s p action gen hash n :=
  ⟨fun ⟨h1, h2, h3, h4, h5⟩ => ⟨by rwa [tokenSigned_taken] at h1, h2, h3, h4, h5⟩, fun ⟨h1, h2, h3, h4, h5⟩ => ⟨by rwa [tokenSigned_taken], h2, h3, h4, h5⟩⟩

omit hb hlive in
theorem sealAuth_taken (p : Bytes) : sealAuth (taken s via) p = sealAuth s p := by simp only [sealAuth, sealGen_taken, sealEntry_taken]

theorem sageSealSeal_live (h : Takes 0x0E05#16 via s r) (hk : n8At (reqParams r) 0 = 2) (hok : TokenParamsOk (reqParams r)) (hret : s.sys.lifecycle ≠ .returned)
    (hend : s.sys.lifecycle ≠ .ended) :
    (s.sage.sealState = .isSealed → exec (.sageSealSeal via) s = replied r E_SEALED [] (dropRequest s via))
    ∧ (s.sage.sealState ≠ .isSealed → sealNextGen s = none → exec (.sageSealSeal via) s = replied r E_RESOURCE [] (dropRequest s via))
    ∧ (∀ g, s.sage.sealState ≠ .isSealed → s.sage.sealOp = none → sealNextGen s = some g → classFull s 0x0E05#16 = false →
      (s.sage.next = none → s.sage.params = none → exec (.sageSealSeal via) s = replied r E_VERIFY [] { taken s via with sage := { s.sage with nonce := none } })
      ∧ (∀ b n i, s.sage.next.or s.sage.params = some b → s.sage.nonce = some (n, i) →
        (TokenAgrees s (reqParams r) 2 g (sha256 b) n → exec (.sageSealSeal via) s = accepted r 2 []
          { taken s via with sage := { s.sage with nonce := none, sealOp := some (.newSeal g b (sha256 b) (sealAuth s (reqParams r))) } })
        ∧ (¬ TokenAgrees s (reqParams r) 2 g (sha256 b) n → exec (.sageSealSeal via) s = replied r E_VERIFY [] { taken s via with sage := { s.sage with nonce := none } }))) := by
  have row : SageRow 0x0E05#16 (isSeal 2) cardSeal sealRun via s r := sageRow_seal h hb (by rintro hp; have hl := hok.length; rw [hp] at hl; cases hl) hk hret hend
  refine ⟨fun hs => row.reject hlive (sealRun_sealed hok (by rw [taken_sage]; exact hs)),
    fun hs hgen => row.reject hlive (sealRun_spent hok (by rw [taken_sage]; exact hs) (by rw [sealNextGen_taken]; exact hgen)), fun g hs hop hgen hroom => ?_⟩
  have hrun := sealRun_open (u := taken s via) hok (by rw [taken_sage]; exact hs) (by rw [sealNextGen_taken]; exact hgen) (by rw [taken_sage]; exact hop) (by rw [classFull_taken]; exact hroom)
  simp only [updSage_taken] at hrun
  rw [sealAuth_taken] at hrun
  refine ⟨fun hnext hparams => row.failed hlive (hrun.trans ?_), fun b n i hblock hnonce => ⟨fun hagree => row.long hlive (hrun.trans ?_), fun hnot => row.failed hlive (hrun.trans ?_)⟩⟩
  · have hnone : s.sage.next.or s.sage.params = none := by rw [hnext, hparams]; rfl
    rw [taken_sage, hnone]
    rfl
  · rw [taken_sage, hblock, Option.elim_some, if_neg]
    rw [tokenAgrees_iff hok.length (by rw [taken_sage]; exact hnonce), tokenAgrees_taken]
    exact not_not_intro hagree
  · rw [taken_sage, hblock, Option.elim_some, if_pos]
    rw [tokenAgrees_iff hok.length (by rw [taken_sage]; exact hnonce), tokenAgrees_taken]
    exact hnot

theorem sageSealBreak_live (h : Takes 0x0E05#16 via s r) (hk : n8At (reqParams r) 0 = 3) (hok : TokenParamsOk (reqParams r)) :
    (s.sage.sealState ≠ .isSealed → exec (.sageSealBreak via) s = replied r E_SEALED [] (dropRequest s via))
    ∧ (∀ n i, s.sage.sealState = .isSealed → s.sage.sealOp = none → classFull s 0x0E05#16 = false → s.sage.nonce = some (n, i) →
      (TokenAgrees s (reqParams r) 3 (sealGenByte s) (zeros 32) n → exec (.sageSealBreak via) s = accepted r 3 []
        { taken s via with sage := { s.sage with nonce := none, sealOp := some .breakToken } })
      ∧ (¬ TokenAgrees s (reqParams r) 3 (sealGenByte s) (zeros 32) n → exec (.sageSealBreak via) s = replied r E_VERIFY [] { taken s via with sage := { s.sage with nonce := none } })) := by
  have row : SageRow 0x0E05#16 (isSeal 3) (sageCard breakRun) breakRun via s r := sageRow_of_action h hb (by rintro hp; have hl := hok.length; rw [hp] at hl; cases hl) hk
  refine ⟨fun hs => row.reject hlive (breakRun_unsealed hok (by rw [taken_sage]; exact hs)), fun n i hs hop hroom hnonce => ?_⟩
  have hrun := breakRun_sealed (u := taken s via) hok (by rw [taken_sage]; exact hs) (by rw [taken_sage]; exact hop) (by rw [classFull_taken]; exact hroom)
  have hiff := tokenAgrees_iff (u := taken s via) hok.length (action := 3) (gen := sealGenByte (taken s via)) (hash := zeros 32) (by rw [taken_sage]; exact hnonce)
  rw [updSage_taken, updSage_taken] at hrun
  rw [tokenAgrees_taken, sealGenByte_taken] at hiff
  rw [sealGenByte_taken] at hrun
  exact ⟨fun hagree => row.long hlive (hrun.trans (if_neg fun hc => hiff.mp hc hagree)), fun hnot => row.failed hlive (hrun.trans (if_pos (hiff.mpr hnot)))⟩

theorem sagePulse_live (h : Takes 0x0E05#16 via s r) :
    (reqParams r = [4, 0, 0, 0] → s.sage.pulseStops = false → exec (.sageSealPulseEnable via) s = replied r OK [] { taken s via with sage := { s.sage with pulseOn := true, pulseAcc := 0 } })
    ∧ (reqParams r = [5, 0, 0, 0] → exec (.sageSealPulseDisable via) s = replied r OK (n32 (pulseLeft (pulseDisabled s.sage))) { taken s via with sage := pulseDisabled s.sage }) := by
  refine ⟨fun hp hstops => ?_, fun hp => ?_⟩
  · have hrun := pulseEnableRun_formed (u := taken s via) hp
    rw [updSage_taken, if_neg (by rw [taken_sage, hstops]; decide)] at hrun
    exact (sageRow_of_action h hb (by simp [hp]) (by rw [hp]; rfl)).done hlive hrun
  · have hrun := pulseDisableRun_formed (u := taken s via) hp
    rw [updSage_taken, taken_sage] at hrun
    exact (sageRow_of_action h hb (by simp [hp]) (by rw [hp]; rfl)).done hlive hrun

end

end

/-! ### MPULSE as it is disabled -/

theorem pulseDisabled_stopping {x : Sage} (hstops : x.pulseStops = true) (hpulse : x.pulse = true) : pulseDisabled x = x := by
  rw [pulseDisabled, if_pos hpulse, ← hstops]

theorem pulseDisabled_between {x : Sage} (hpulse : x.pulse = false) : pulseDisabled x = { x with pulseOn := false, pulseLimited := false } := if_neg (by simp [hpulse])

theorem pulseDisabled_within {x : Sage} (hpulse : x.pulse = true) : pulseDisabled x = { x with pulseStops := true } := if_pos hpulse

theorem pulseLeft_of_running {x : Sage} (hstops : x.pulseStops = false) : pulseLeft x = 0 := by
  unfold pulseLeft
  rw [hstops]


/-- Settles O55: each request of class 0x0E by its own card, in and out of Sage's reset. -/
theorem sageRequests : Obligations.SageRequests := by
  rintro via s r _ rfl hb -
  obtain ⟨hread, hrecord, htime, hlog⟩ := sageRequests_wrong (via := via) (r := r) hb
  refine ⟨⟨hread, hrecord, htime, hlog, sageSeal_wrong hb⟩, fun hreset => ?_, fun hlive with_ hw => ?_⟩
  · obtain ⟨hread, hrecord, htime, hlog, hrestore⟩ := sageRequests_inReset (via := via) (r := r) hb hreset
    refine ⟨hread, fun h hl hk hres hhost => hrecord h ⟨hl, hk, hres, hhost⟩, htime, hlog, hrestore, fun h => ?_⟩
    obtain ⟨hquery, hload, htoken, hpulse⟩ := sageSeal_inReset hb hreset h
    exact ⟨hquery, hload, fun hl hres htok => htoken ⟨hl, hres, htok⟩, hpulse⟩
  · obtain rfl : with_ = fun x => { taken s via with sage := x } := funext hw
    refine ⟨sageRead_live hb hlive, fun h hl hk hres hhost => ?_, ?_, ?_, ?_, ?_, sageSealQuery_live hb hlive, ?_, ?_, ?_, fun h hp hstops => (sagePulse_live hb hlive h).1 hp hstops, ?_⟩
    · exact ⟨fun hfail hroom => (sageSignedRecord_live hb hlive h ⟨hl, hk, hres, hhost⟩ hroom).1 hfail,
        fun j hfail hroom hj => hj ▸ (sageSignedRecord_live hb hlive h ⟨hl, hk, hres, hhost⟩ hroom).2 hfail⟩
    · rintro d h hl rfl hd hres hruns hroom
      exact sageSetTime_live hb hlive h hl hd hres hruns hroom
    · rintro first n i es h hl hres rfl rfl h1 h63 hfirst hes
      exact sageEventLog_live hb hlive h hl hres h1 h63 hfirst hes
    · exact fun h hagain => sageRestore_refused hb hlive h (restoreRun_again (by rw [taken_sage]; exact hagain))
    · intro h hl hnew
      obtain ⟨hbroken, hspent, hopen⟩ := sageRestore_live hb hlive h hl hnew
      refine ⟨hbroken, hspent, fun hseal hodo hroom => ?_⟩
      obtain ⟨hgood, hbad⟩ := hopen hseal hodo hroom
      exact ⟨fun h1 h2 h3 h4 h5 h6 h7 => hgood ⟨h1, h2, h3, h4, h5, h6, h7⟩, fun hfails => hbad fun ⟨h1, h2, h3, h4, h5, h6, h7⟩ => by simp_all; omega⟩
    · rintro b h hl hk hres rfl hblock
      exact sageSealLoad_live hb hlive h hl hk hres hblock
    · intro h hl hk hres htok hret hend
      obtain ⟨hsealed, hspent, hopen⟩ := sageSealSeal_live hb hlive h hk ⟨hl, hres, htok⟩ hret hend
      refine ⟨hsealed, hspent, fun g hs hop hgen hroom => ?_⟩
      obtain ⟨hnone, hblock⟩ := hopen g hs hop hgen hroom
      refine ⟨hnone, fun b n i a hb' hn ha => ?_⟩
      obtain ⟨hagree, hnot⟩ := hblock b n i hb' hn
      have hauth : a = sealAuth s (reqParams r) := by
        rw [ha, sealAuth]
        cases sealGen s <;> rfl
      subst hauth
      exact ⟨fun h1 h2 h3 h4 h5 => hagree ⟨h1, h2, h3, h4, h5⟩, fun hfails => hnot fun ⟨h1, h2, h3, h4, h5⟩ => by simp_all⟩
    · intro h hl hk hres htok
      obtain ⟨hunsealed, hsealed⟩ := sageSealBreak_live hb hlive h hk ⟨hl, hres, htok⟩
      refine ⟨hunsealed, fun n i hs hop hroom hn => ?_⟩
      obtain ⟨hagree, hnot⟩ := hsealed n i hs hop hroom hn
      have hz : slice (reqParams r) 24 32 = zeros 32 ↔ zeroAt (reqParams r) 24 32 = true := slice_eq_zeros_iff (by rw [hl]; decide)
      exact ⟨fun h1 h2 h3 h4 h5 => hagree ⟨h1, h2, h3, h4, hz.mpr h5⟩, fun hfails => hnot fun ⟨h1, h2, h3, h4, h5⟩ => by have := hz.mp h5; simp_all⟩
    · intro h hp
      have hrun := (sagePulse_live hb hlive h).2 hp
      refine ⟨fun hstops hpulse => ?_, fun hstops => ⟨fun hpulse => ?_, fun hpulse => ?_⟩⟩
      · rw [pulseDisabled_stopping hstops hpulse] at hrun
        rw [hrun]
        congr 1
        rw [← taken_sage s via]
      · rw [pulseDisabled_between hpulse] at hrun
        rw [hrun, pulseLeft_of_running (by exact hstops)]
      · rw [pulseDisabled_within hpulse] at hrun
        exact hrun

end Sys2Proof.Proofs

/-! ## The bulk port -/

namespace Sys2Proof.Proofs

open Sys2Proof Sys2Proof.Machine Sys2Proof.Claims Sys2Proof.Laws

/-! ### Windows (R99) -/

theorem window_unique {a : Nat} {v w : BulkWindow} (hv : windowBase v ≤ a ∧ a < windowBase v + windowSize v) (hw : windowBase w ≤ a ∧ a < windowBase w + windowSize w) : v = w := by
  cases v <;> cases w <;> simp only [windowBase, windowSize, reduceCtorEq] at hv hw ⊢ <;> omega

theorem windowOf_eq_some_iff {a : Nat} {w : BulkWindow} : windowOf a = some w ↔ windowBase w ≤ a ∧ a < windowBase w + windowSize w := by
  refine ⟨fun h => by simpa using List.find?_some h, fun h => ?_⟩
  have hfound : (windowOf a).isSome = true := List.find?_isSome.mpr ⟨w, by cases w <;> decide, by simpa using h⟩
  obtain ⟨v, hv⟩ := Option.isSome_iff_exists.mp hfound
  have hin : windowBase v ≤ a ∧ a < windowBase v + windowSize v := by simpa using List.find?_some hv
  rw [hv, window_unique hin h]

theorem burstOffset_of_lt {w : BulkWindow} {off i : Nat} (h : off + i < windowSize w) : burstOffset w off i = some (off + i) := if_pos h

/-- A window that wraps has a byte for every place of a burst. -/
theorem burstOffset_of_wraps {w : BulkWindow} (h : windowWraps w = true) (off i : Nat) : burstOffset w off i = some ((off + i) % windowSize w) := by
  by_cases hlt : off + i < windowSize w
  · rw [burstOffset_of_lt hlt, Nat.mod_eq_of_lt hlt]
  · rw [burstOffset, if_neg hlt, if_pos h]

/-- Beyond the end of a window that stops there is no byte. -/
theorem burstOffset_beyond {w : BulkWindow} {off i : Nat} (h : windowWraps w = false) (hge : windowSize w ≤ off + i) : burstOffset w off i = none := by
  rw [burstOffset, if_neg (by omega), if_neg (by simp [h])]

/-! ### Reads (R97, R105, R107) -/

/-- The byte that a burst from an offset of a window drives in its place: 0x00 beyond the end of a window that stops. -/
def burstByte (s : State) (w : BulkWindow) (off i : Nat) : Byte :=
  match burstOffset w off i with
  | some o => windowByte s w o
  | none => 0

theorem burstByte_image (s : State) (off i : Nat) : burstByte s .image off i = memRead s.img.latched ((off + i) % 0x10000) := by
  rw [burstByte, burstOffset_of_wraps rfl]
  rfl

theorem burstByte_graph (s : State) (off i : Nat) : burstByte s .graph off i = if off + i < 0xF0000 then memRead s.loop.mem (off + i) else 0 := by
  unfold burstByte
  by_cases hin : off + i < 0xF0000
  · rw [burstOffset_of_lt hin, if_pos hin]
    rfl
  · rw [burstOffset_beyond rfl (Nat.le_of_not_lt hin), if_neg hin]

theorem burstByte_staging (s : State) (off i : Nat) : burstByte s .staging off i = 0 := by
  unfold burstByte
  split <;> rfl

theorem slice_zeros (k n : Nat) : slice (zeros k) 0 n = zeros n := by
  have hlen : min n k + (n - min n k) = n := by omega
  simp [slice, zeros, hlen]

section
variable {s : State} (hopen : s.cmd.isOpen = true)
include hopen

theorem bulkRead_of_window {hold : Bool} {a n clocked : Nat} {w : BulkWindow} (hw : windowOf a = some w) (hne : w ≠ .image) :
    bulkRead hold a n clocked s = setOut ((List.range (min n clocked)).map (burstByte s w (a - windowBase w))) clocked s := by
  simp only [bulkRead, hopen, hw, if_neg hne]
  rfl

theorem bulkRead_of_graph {hold : Bool} {a n clocked : Nat} (hlo : 0x100000 ≤ a) (hhi : a < 0x1F0000) :
    bulkRead hold a n clocked s = setOut ((List.range (min n clocked)).map (fun i => if a + i < 0x1F0000 then memRead s.loop.mem (a - 0x100000 + i) else 0)) clocked s := by
  have hw : windowOf a = some .graph := windowOf_eq_some_iff.mpr ⟨hlo, hhi⟩
  have hbytes : burstByte s .graph (a - 0x100000) = fun i => if a + i < 0x1F0000 then memRead s.loop.mem (a - 0x100000 + i) else 0 := by
    funext i
    rw [burstByte_graph]
    exact if_congr (by omega) rfl rfl
  rw [bulkRead_of_window hopen hw (by decide), ← hbytes]
  rfl

/-- The staging window is not read: the port drives zeros (log 198). -/
theorem bulkRead_of_staging {hold : Bool} {a n clocked : Nat} (hlo : 0x4000000 ≤ a) (hhi : a < 0x4200000) :
    bulkRead hold a n clocked s = { s with bulk := { s.bulk with out := zeros clocked } } := by
  have hw : windowOf a = some .staging := windowOf_eq_some_iff.mpr ⟨hlo, hhi⟩
  have hbytes : (List.range (min n clocked)).map (burstByte s .staging (a - windowBase .staging)) = zeros (min n clocked) := by
    rw [funext (burstByte_staging s _)]
    simp [zeros]
  rw [bulkRead_of_window hopen hw (by decide), hbytes, setOut, slice_zeros]

theorem bulkRead_of_none {hold : Bool} {a n clocked : Nat} (hw : windowOf a = none) : bulkRead hold a n clocked s = bulkUnmapped a false (setOut (zeros n) clocked s) := by
  simp only [bulkRead, hopen, hw]
  rfl

theorem bulkRead_of_image {hold : Bool} {a n clocked : Nat} (ha : a < 0x10000) : bulkRead hold a n clocked s = afterImageBurst hold a n clocked s := by
  have hw : windowOf a = some .image := windowOf_eq_some_iff.mpr ⟨Nat.zero_le a, by simpa [windowBase, windowSize] using ha⟩
  have hbytes : burstByte (takeLatch s) .image a = fun i => memRead (latchOf s) ((a + i) % 0x10000) := by
    funext i
    rw [burstByte_image]
    unfold takeLatch latchOf
    split <;> rfl
  have hrun : bulkRead hold a n clocked s = { setOut ((List.range (min n clocked)).map (burstByte (takeLatch s) .image a)) clocked (takeLatch s) with
      bulk := { (setOut ((List.range (min n clocked)).map (burstByte (takeLatch s) .image a)) clocked (takeLatch s)).bulk with held := hold, lastUse := (takeLatch s).time.raw } } := by
    simp only [bulkRead, hopen, hw]
    rfl
  rw [hrun, hbytes]
  unfold afterImageBurst takeLatch latchOf
  split <;> rfl

end

theorem bulkRead_closed {s : State} (h : s.cmd.isOpen = false) (hold : Bool) (a n clocked : Nat) : bulkRead hold a n clocked s = s := if_pos (by simp [h])

/-- READ and READ_HOLD differ in the latch they leave. -/
theorem exec_read (hold : Bool) (addr : U32) (len clocked : Nat) (s : State) :
    exec (if hold then .bulkReadHold addr len clocked else .bulkRead addr len clocked) s = .next (bulkRead hold addr.toNat (len + 1) clocked s) := by
  cases hold <;> rfl

theorem bulkRelease_open {s : State} (hopen : s.cmd.isOpen = true) : exec .bulkRelease s = .next { s with bulk := { s.bulk with held := false, out := [] } } :=
  if_neg (by simp [hopen])

/-- Settles O15: the burst reads the latch, which it takes where none is held. -/
theorem imageBurstsReadTheLatch : Obligations.ImageBurstsReadTheLatch := by
  intro addr len clocked s hopen
  refine ⟨fun ha => ⟨?_, ?_⟩, bulkRelease_open hopen⟩
  · exact (exec_read false addr len clocked s).trans (congrArg _ (bulkRead_of_image hopen ha))
  · exact (exec_read true addr len clocked s).trans (congrArg _ (bulkRead_of_image hopen ha))

/-! ### Refused bursts and bad commands (R94, R101) -/

/-- A burst or command that is refused drives nothing. -/
theorem setOut_bulkRefused (a k : Nat) (s : State) : setOut [] 0 (bulkRefused a k s) =
    { postMergeWith 0x010B#16 0 (n32 a ++ n8 k) (fun e => e.data == eventData (n32 a ++ n8 k)) (fun o _ => o)
        { s with bulk := { s.bulk with refusedF := true, refused := satInc s.bulk.refused } } with
      bulk := { s.bulk with refusedF := true, refused := satInc s.bulk.refused, out := [] } } := by
  unfold setOut bulkRefused
  rw [postMergeWith_bulk]
  rfl

/-- The codes of the bulk port's commands (R94). -/
theorem mem_bulkCodes_iff {code : Byte} :
    code ∈ [0xA1#8, 0xA3#8, 0xA5#8, 0xA7#8, 0xB2#8] ↔ code = 0xA1#8 ∨ code = 0xA3#8 ∨ code = 0xA5#8 ∨ code = 0xA7#8 ∨ code = 0xB2#8 := by simp

theorem mem_lengthCodes_iff {code : Byte} : code ∈ [0xA1#8, 0xA3#8, 0xB2#8] ↔ code = 0xA1#8 ∨ code = 0xA3#8 ∨ code = 0xB2#8 := by simp

section
variable {s : State} (code compl : Byte) (addr : U32) (len : U16)

theorem bulkBadCommand_closed (h : s.cmd.isOpen = false) : exec (.bulkBadCommand code compl addr len) s = .next s := if_pos (by simp [h])

theorem bulkBadCommand_unknown (hopen : s.cmd.isOpen = true) (hbad : compl ≠ ~~~code ∨ code ∉ [0xA1#8, 0xA3#8, 0xA5#8, 0xA7#8, 0xB2#8]) :
    exec (.bulkBadCommand code compl addr len) s = .next (setOut [] 0 (bulkRefused (draw s).1.toNat 5 (draw s).2)) := by
  rw [mem_bulkCodes_iff] at hbad
  exact (if_neg (by simp [hopen])).trans (if_pos hbad)

theorem bulkBadCommand_known (hopen : s.cmd.isOpen = true) (hcompl : compl = ~~~code) (hcode : code ∈ [0xA1#8, 0xA3#8, 0xA5#8, 0xA7#8, 0xB2#8]) :
    exec (.bulkBadCommand code compl addr len) s =
      if (code = 0xA1#8 ∨ code = 0xA3#8 ∨ code = 0xB2#8) ∧ len.toNat ≥ 4096 then .next (setOut [] 0 (bulkRefused addr.toNat 5 s)) else .next s := by
  rw [mem_bulkCodes_iff] at hcode
  exact (if_neg (by simp [hopen])).trans (if_neg (by simp [hcompl, hcode]))

end

/-! ### STATUS and the expiry of the latch (R108, R110) -/

theorem bulkStatus_open {s : State} (hopen : s.cmd.isOpen = true) (clocked : Nat) : exec (.bulkStatus clocked) s = .next { s with bulk := { s.bulk with
    refusedF := false, expired := false
    out := slice (le32 s.bulk.epoch ++ n8 (flag s.bulk.held 0 + flag s.bulk.expired 1 + flag s.bulk.refusedF 2) ++ [0] ++ le16 s.bulk.refused) 0 clocked } } :=
  if_neg (by simp [hopen])

theorem bulkStatus_closed {s : State} (h : s.cmd.isOpen = false) (clocked : Nat) : exec (.bulkStatus clocked) s = .next s := if_pos (by simp [h])

theorem holdLatchExpiry_held {s : State} (h : s.bulk.held = true) : exec .holdLatchExpiry s = .next { s with
    time := { s.time with raw := max s.time.raw (s.bulk.lastUse + 100000000) }, bulk := { s.bulk with held := false, expired := true } } :=
  if_neg (by simp [h])

theorem holdLatchExpiry_idle {s : State} (h : s.bulk.held = false) : exec .holdLatchExpiry s = .next s := if_pos (by simp [h])

/-- Settles O16: reads by their window, and the port's other commands each by its one outcome. -/
theorem bulkReadsStatusAndExpiry : Obligations.BulkReadsStatusAndExpiry := by
  refine ⟨?_, fun s => ⟨fun clocked => ?_, fun code compl addr len => ⟨bulkBadCommand_closed code compl addr len, fun hopen hbad => ?_, fun hopen hcode hcompl hlong => ?_, fun hcompl hcode hshort => ?_⟩,
    holdLatchExpiry_held, holdLatchExpiry_idle⟩⟩
  · rintro addr len clocked s hold c rfl
    rw [exec_read]
    refine ⟨fun hclosed => congrArg _ (bulkRead_closed hclosed ..), fun hopen => ⟨fun hlo hhi => congrArg _ (bulkRead_of_graph hopen hlo hhi), fun hlo hhi => congrArg _ (bulkRead_of_staging hopen hlo hhi),
      fun w hw hne => ?_, fun hw => ?_⟩⟩
    · rw [bulkRead_of_window hopen hw hne]
      rfl
    · rw [bulkRead_of_none hopen hw, setOut, slice_zeros]
      rfl
  · split
    next hopen => exact bulkStatus_open hopen clocked
    next hclosed => exact bulkStatus_closed (by simpa using hclosed) clocked
  · exact ⟨(draw s).1.toNat, (bulkBadCommand_unknown code compl addr len hopen hbad).trans (congrArg _ (setOut_bulkRefused ..))⟩
  · have hknown : code ∈ [0xA1#8, 0xA3#8, 0xA5#8, 0xA7#8, 0xB2#8] := by
      rcases mem_lengthCodes_iff.mp hcode with rfl | rfl | rfl <;> decide
    rw [bulkBadCommand_known code compl addr len hopen hcompl hknown, if_pos ⟨mem_lengthCodes_iff.mp hcode, hlong⟩, setOut_bulkRefused]
    rfl
  · cases hopen : s.cmd.isOpen with
    | false => exact bulkBadCommand_closed code compl addr len hopen
    | true =>
      rw [bulkBadCommand_known code compl addr len hopen hcompl hcode, if_neg]
      rintro ⟨hlong, hge⟩
      rcases hshort with hlt | hmem
      · omega
      · rcases hlong with rfl | rfl | rfl <;> simp at hmem

/-! ### Bytes of a write burst (R99, R101) -/

/-- What becomes of the byte of a write burst in place `i` of the burst: the state, and the reason of a refusal. -/
def burstWrite (w : BulkWindow) (off i : Nat) (x : Byte) (s : State) : State × Option Nat :=
  match burstOffset w off i with
  | some o => writeByte w o x s
  | none => (s, pastEnd s w)

theorem burstWrite_of_lt {w : BulkWindow} {off i : Nat} (h : off + i < windowSize w) (x : Byte) (s : State) : burstWrite w off i x s = writeByte w (off + i) x s := by
  rw [burstWrite, burstOffset_of_lt h]

/-- A byte at whatever place of a window that takes none, for one reason. -/
theorem burstWrite_refused {w : BulkWindow} {s : State} {k : Nat} {x : Byte} (h : ∀ o, writeByte w o x s = (s, some k))
    (hend : windowWraps w = false → pastEnd s w = some k) (off i : Nat) : burstWrite w off i x s = (s, some k) := by
  unfold burstWrite
  split
  next => exact h _
  next hnone =>
    rw [hend]
    refine Bool.eq_false_iff.mpr fun hwraps => ?_
    rw [burstOffset_of_wraps hwraps] at hnone
    cases hnone

theorem writeBytes_cons (w : BulkWindow) (off i : Nat) (x : Byte) (t : Bytes) (s : State) (r : Option (Nat × Nat)) :
    writeBytes w off i (x :: t) s r = writeBytes w off (i + 1) t (burstWrite w off i x s).1
      (r.or ((burstWrite w off i x s).2.map (fun k => (windowBase w + (burstOffset w off i).getD (off + i), k)))) := rfl

/-- Once a refusal is found, bytes that change nothing leave it and the state. -/
theorem writeBytes_of_found {w : BulkWindow} {off : Nat} {s : State} (b : Bytes) (i : Nat) (e : Nat × Nat)
    (h : ∀ j, i ≤ j → j < i + b.length → ∀ x, (burstWrite w off j x s).1 = s) : writeBytes w off i b s (some e) = (s, some e) := by
  induction b generalizing i with
  | nil => rfl
  | cons x t ih =>
    simp only [List.length_cons] at h
    rw [writeBytes_cons, h i (by omega) (by omega), Option.some_or]
    exact ih (i + 1) fun j hlo hhi => h j (by omega) (by omega)

/-- A burst all of whose bytes are refused for one reason: the first of them is reported. -/
theorem writeBytes_refused {w : BulkWindow} {off k : Nat} {s : State} {b : Bytes} (hne : b ≠ []) (hoff : off < windowSize w)
    (h : ∀ j, j < b.length → ∀ x, burstWrite w off j x s = (s, some k)) : writeBytes w off 0 b s none = (s, some (windowBase w + off, k)) := by
  cases b with
  | nil => exact absurd rfl hne
  | cons x t =>
    simp only [List.length_cons] at h
    rw [writeBytes_cons, h 0 (by omega), burstOffset_of_lt (by omega)]
    exact writeBytes_of_found t 1 _ fun j hlo hhi x => congrArg Prod.fst (h j (by omega) x)

/-- A burst each of whose bytes is stored in the memory that `put` places in the state, or lies where `skip` leaves the memory as it is. -/
theorem writeBytes_stores {w : BulkWindow} {off : Nat} {skip : Nat → Bool} {put : List Host.Cell → State} (b : Bytes) (i : Nat) (m : List Host.Cell) (hm : memWf m = true)
    (hend : off + (i + b.length) ≤ windowSize w)
    (h : ∀ j, i ≤ j → j < i + b.length → ∀ x m, writeByte w (off + j) x (put m) = (put (if skip (off + j) then m else memWrite m (off + j) x), none)) :
    ∃ m', writeBytes w off i b (put m) none = (put m', none)
      ∧ ∀ a, memRead m' a = if off + i ≤ a ∧ a < off + i + b.length ∧ skip a = false then b.getD (a - (off + i)) 0 else memRead m a := by
  induction b generalizing i m with
  | nil => exact ⟨m, rfl, fun a => by rw [if_neg (by simp only [List.length_nil]; omega)]⟩
  | cons x t ih =>
    simp only [List.length_cons] at hend h ⊢
    have hm1 : memWf (if skip (off + i) then m else memWrite m (off + i) x) = true := by
      split
      · exact hm
      · exact memWrite_wf m _ x hm
    obtain ⟨m', hrun, hread⟩ := ih (i + 1) _ hm1 (by omega) fun j hlo hhi => h j (by omega) (by omega)
    refine ⟨m', ?_, fun a => ?_⟩
    · rw [writeBytes_cons, burstWrite_of_lt (by omega), h i (by omega) (by omega)]
      exact hrun
    · rw [hread a]
      by_cases ha : a = off + i
      · subst ha
        rw [if_neg (by omega)]
        cases hs : skip (off + i)
        · simp [memRead_memWrite_same _ _ _ hm]
        · simp
      · have hother : memRead (if skip (off + i) then m else memWrite m (off + i) x) a = memRead m a := by
          split
          · rfl
          · exact memRead_memWrite_other m _ a x ha hm
        rw [hother]
        by_cases hin : off + (i + 1) ≤ a ∧ a < off + (i + 1) + t.length ∧ skip a = false
        · obtain ⟨c, rfl⟩ : ∃ c, a = off + (i + 1) + c := ⟨a - (off + (i + 1)), by omega⟩
          rw [if_pos hin, if_pos ⟨by omega, by omega, hin.2.2⟩, show off + (i + 1) + c - (off + (i + 1)) = c by omega,
            show off + (i + 1) + c - (off + i) = c + 1 by omega, List.getD_cons_succ]
        · rw [if_neg hin, if_neg fun ⟨hlo, hhi, hskip⟩ => hin ⟨by omega, by omega, hskip⟩]

/-! ### Write bursts (R96, R97, R101) -/

theorem bulkRefused_setOut (a k : Nat) (s : State) : bulkRefused a k (setOut [] 0 s) = burstRefused a k s := rfl

section
variable {s : State} (hopen : s.cmd.isOpen = true) {addr : U32} {len : Nat} {data b : Bytes} (hb : b = data.take (len + 1)) {w : BulkWindow}
  (hlo : windowBase w ≤ addr.toNat)
include hopen hb hlo

theorem bulkWrite_of_writeBytes (hhi : addr.toNat < windowBase w + windowSize w) {t : State} {r : Option (Nat × Nat)}
    (h : writeBytes w (addr.toNat - windowBase w) 0 b (setOut [] 0 s) none = (t, r)) :
    exec (.bulkWrite addr len data) s = .next (r.elim (if w = .image then { t with bulk := { t.bulk with lastUse := t.time.raw } } else t)
      fun e => bulkRefused e.1 e.2 (if w = .image then { t with bulk := { t.bulk with lastUse := t.time.raw } } else t)) := by
  subst hb
  have hw : windowOf addr.toNat = some w := windowOf_eq_some_iff.mpr ⟨hlo, hhi⟩
  show execBulkWrite addr len data s = _
  simp only [execBulkWrite, hopen, hw, h]
  cases r <;> rfl

/-- A burst in any window but the state image all of whose bytes are refused for one reason. -/
theorem bulkWrite_refused {k : Nat} (hhi : addr.toNat < windowBase w + windowSize w) (himage : w ≠ .image) (hne : b ≠ [])
    (h : ∀ j, j < b.length → ∀ x, burstWrite w (addr.toNat - windowBase w) j x (setOut [] 0 s) = (setOut [] 0 s, some k)) :
    exec (.bulkWrite addr len data) s = .next (burstRefused addr.toNat k s) := by
  rw [bulkWrite_of_writeBytes hopen hb hlo hhi (writeBytes_refused hne (by omega) h), if_neg himage, Nat.add_sub_of_le hlo]
  exact congrArg _ (bulkRefused_setOut ..)

/-- The same of a window that takes no byte at all. -/
theorem bulkWrite_refused_anywhere {k : Nat} (hhi : addr.toNat < windowBase w + windowSize w) (himage : w ≠ .image) (hne : b ≠ [])
    (h : ∀ o x, writeByte w o x (setOut [] 0 s) = (setOut [] 0 s, some k)) (hend : windowWraps w = false → pastEnd (setOut [] 0 s) w = some k) :
    exec (.bulkWrite addr len data) s = .next (burstRefused addr.toNat k s) :=
  bulkWrite_refused hopen hb hlo hhi himage hne fun j _ x => burstWrite_refused (fun o => h o x) hend _ j

/-- The same of a burst that ends within its window. -/
theorem bulkWrite_refused_within {k : Nat} (hend : addr.toNat + b.length ≤ windowBase w + windowSize w) (himage : w ≠ .image) (hne : b ≠ [])
    (h : ∀ j, j < b.length → ∀ x, writeByte w (addr.toNat - windowBase w + j) x (setOut [] 0 s) = (setOut [] 0 s, some k)) :
    exec (.bulkWrite addr len data) s = .next (burstRefused addr.toNat k s) := by
  have hpos := List.length_pos_of_ne_nil hne
  exact bulkWrite_refused hopen hb hlo (by omega) himage hne fun j hj x => (burstWrite_of_lt (by omega) ..).trans (h j hj x)

/-- A burst in any window but the state image whose bytes go to the memory that `put` places in the state, all but those of `skip`. -/
theorem bulkWrite_stores_but (skip : Nat → Bool) (put : List Host.Cell → State) {m : List Host.Cell} (hhi : addr.toNat < windowBase w + windowSize w)
    (hend : addr.toNat + b.length ≤ windowBase w + windowSize w) (himage : w ≠ .image) (hput : put m = setOut [] 0 s) (hm : memWf m = true)
    (h : ∀ j, j < b.length → ∀ x m, writeByte w (addr.toNat - windowBase w + j) x (put m) =
      (put (if skip (addr.toNat - windowBase w + j) then m else memWrite m (addr.toNat - windowBase w + j) x), none)) :
    ∃ m', exec (.bulkWrite addr len data) s = .next (put m') ∧ ∀ a, memRead m' a =
      if addr.toNat - windowBase w ≤ a ∧ a < addr.toNat - windowBase w + b.length ∧ skip a = false then b.getD (a - (addr.toNat - windowBase w)) 0 else memRead m a := by
  obtain ⟨m', hrun, hread⟩ := writeBytes_stores b 0 m hm (by omega) fun j _ hj => h j (by omega)
  rw [hput] at hrun
  refine ⟨m', ?_, hread⟩
  rw [bulkWrite_of_writeBytes hopen hb hlo hhi hrun, if_neg himage]
  rfl

/-- A burst all of whose bytes go to the memory that `put` places in the state. -/
theorem bulkWrite_stores (put : List Host.Cell → State) {m : List Host.Cell} (hhi : addr.toNat < windowBase w + windowSize w)
    (hend : addr.toNat + b.length ≤ windowBase w + windowSize w) (himage : w ≠ .image) (hput : put m = setOut [] 0 s) (hm : memWf m = true)
    (h : ∀ j, j < b.length → ∀ x m, writeByte w (addr.toNat - windowBase w + j) x (put m) = (put (memWrite m (addr.toNat - windowBase w + j) x), none)) :
    ∃ m', exec (.bulkWrite addr len data) s = .next (put m') ∧ stored m m' (addr.toNat - windowBase w) b := by
  obtain ⟨m', hrun, hread⟩ := bulkWrite_stores_but hopen hb hlo (fun _ => false) put hhi hend himage hput hm h
  exact ⟨m', hrun, fun a => (hread a).trans (by simp only [and_true])⟩

end

/-- A WRITE in the state image is refused, and counts as a use of it (R108). -/
theorem bulkWrite_image {s : State} (hopen : s.cmd.isOpen = true) {addr : U32} (haddr : addr.toNat < 0x10000) {data : Bytes} (hne : data ≠ []) (len : Nat) :
    exec (.bulkWrite addr len data) s = .next (bulkRefused addr.toNat 0 { setOut [] 0 s with bulk := { (setOut [] 0 s).bulk with lastUse := s.time.raw } }) := by
  have hrefused : ∀ j, j < (data.take (len + 1)).length → ∀ x, burstWrite .image addr.toNat j x (setOut [] 0 s) = (setOut [] 0 s, some 0) :=
    fun j _ x => burstWrite_refused (fun _ => rfl) (fun h => by cases h) _ _
  have hnonempty : data.take (len + 1) ≠ [] := by simpa using hne
  have hin : addr.toNat < windowBase .image + windowSize .image := (Nat.zero_add _).symm ▸ haddr
  rw [bulkWrite_of_writeBytes hopen rfl (w := .image) (Nat.zero_le _) hin (writeBytes_refused hnonempty haddr hrefused), if_pos rfl]
  simp only [Option.elim_some, windowBase, Nat.zero_add]
  rfl

/-! ### A byte written in a window (R99, R101) -/

section
variable {s : State} {off : Nat} (x : Byte)

theorem writeByte_coef_reserved (h : 0xC000 ≤ off) : writeByte .filter off x s = (s, some 0) := if_pos h

theorem writeByte_coef_inUse (h : off < 0xC000) (huse : coefInUse s (off / 4) = true) : writeByte .filter off x s = (s, some 1) :=
  (if_neg (Nat.not_le.mpr h)).trans (if_pos huse)

theorem writeByte_coef_free (h : off < 0xC000) (huse : coefInUse s (off / 4) = false) :
    writeByte .filter off x s = ({ s with flt := { s.flt with mem := memWrite s.flt.mem off x } }, none) :=
  (if_neg (Nat.not_le.mpr h)).trans (if_neg (by simp [huse]))

theorem writeByte_graph_free (h : imageOwner s off = none) : writeByte .graph off x s = ({ s with loop := { s.loop with mem := memWrite s.loop.mem off x } }, none) := by
  simp only [writeByte, h]

theorem writeByte_graph_live {n : Nat} (h : imageOwner s off = some n) (hst : (getStage s n).st ≠ .off) : writeByte .graph off x s = (s, some 1) := by
  simp [writeByte, h, hst]

theorem capArmed_eq_false_iff : capArmed s = false ↔ s.cap.st = .idle ∨ s.cap.st = .done := by
  simp only [capArmed, Bool.and_eq_false_iff, bne_eq_false_iff_eq]

theorem writeByte_capture_armed (h : capArmed s = true) : writeByte .capture off x s = (s, some 1) := if_pos h

theorem writeByte_capture_free (h : capArmed s = false) : writeByte .capture off x s = ({ s with cap := { s.cap with mem := memWrite s.cap.mem off x } }, none) :=
  if_neg (by simp [h])

/-- The staging window may be written (R131). -/
def StagingOpen (s : State) : Prop := s.sys.dev = .boot ∧ s.sys.bootsel = 1 ∧ s.stag.isOpen = true

theorem writeByte_staging_open (h : StagingOpen s) : writeByte .staging off x s = ({ s with cap := { s.cap with mem := memWrite s.cap.mem off x } }, none) := if_pos h

theorem writeByte_staging_closed (h : ¬ StagingOpen s) : writeByte .staging off x s = (s, some 2) := if_neg h

theorem pastEnd_staging_closed (h : ¬ StagingOpen s) : pastEnd s .staging = some 2 := if_neg h

variable {p : Nat} (hp : p < 6)
include hp

/-- A byte of a port's area, by its offset in the area (R471). -/
theorem writeByte_can {o : Nat} (ho : o < 0x2000) (hoff : off = 0x2000 * p + o) : writeByte .can off x s =
    if o < 0xA00 then (if canOwned (getCan s p) (o / 80) then (s, some 1) else if o % 80 = 6 then (s, none) else ({ s with can := { s.can with mem := memWrite s.can.mem off x } }, none))
    else if o < 0x1E00 then (s, some 0)
    else if o < 0x1F00 then (if canRuns (getCan s p) then (s, some 1) else ({ s with can := { s.can with mem := memWrite s.can.mem off x } }, none))
    else (s, some 0) := by
  have hdiv : off / 0x2000 = p := by omega
  have hmod : off % 0x2000 = o := by omega
  simp only [writeByte, hdiv, hmod]
  exact if_neg (by omega)

theorem writeByte_can_readOnly (h : 0x2000 * p + 0xA00 ≤ off ∧ off < 0x2000 * p + 0x1E00 ∨ 0x2000 * p + 0x1F00 ≤ off ∧ off < 0x2000 * p + 0x2000) :
    writeByte .can off x s = (s, some 0) := by
  rw [writeByte_can x hp (o := off - 0x2000 * p) (by omega) (by omega), if_neg (by omega)]
  split
  · rfl
  · rw [if_neg (by omega)]

theorem writeByte_can_filter (hlo : 0x2000 * p + 0x1E00 ≤ off) (hhi : off < 0x2000 * p + 0x1F00) :
    writeByte .can off x s = if canRuns (getCan s p) then (s, some 1) else ({ s with can := { s.can with mem := memWrite s.can.mem off x } }, none) := by
  rw [writeByte_can x hp (o := off - 0x2000 * p) (by omega) (by omega), if_neg (by omega), if_neg (by omega), if_pos (by omega)]

variable {e : Nat} (he : e < 32) (hlo : txAddr p e ≤ off) (hhi : off < txAddr p e + 80)
include he hlo hhi

theorem writeByte_can_owned (h : canOwned (getCan s p) e = true) : writeByte .can off x s = (s, some 1) := by
  unfold txAddr at hlo hhi
  have hentry : (off - 0x2000 * p) / 80 = e := by omega
  rw [writeByte_can x hp (o := off - 0x2000 * p) (by omega) (by omega), if_pos (by omega), hentry, if_pos h]

/-- A host-owned entry takes every byte but its status. -/
theorem writeByte_can_hostOwned (h : canOwned (getCan s p) e = false) :
    writeByte .can off x s = ({ s with can := { s.can with mem := if off = txAddr p e + 6 then s.can.mem else memWrite s.can.mem off x } }, none) := by
  unfold txAddr at hlo hhi ⊢
  have hentry : (off - 0x2000 * p) / 80 = e := by omega
  have hstatus : (off - 0x2000 * p) % 80 = 6 ↔ off = 0x2000 * p + 80 * e + 6 := by omega
  rw [writeByte_can x hp (o := off - 0x2000 * p) (by omega) (by omega), if_pos (by omega), hentry, if_neg (by simp [h])]
  simp only [hstatus]
  split <;> rfl

end

/-! ### Write bursts in a CAN port's message RAM (R471) -/

theorem txAddr_end_le {p e : Nat} (hp : p < 6) (he : e < 32) : txAddr p e + 80 ≤ 0xC000 := by
  unfold txAddr
  omega

theorem canWindow : windowBase .can = 0x2000000 ∧ windowSize .can = 0x10000 := ⟨rfl, rfl⟩

section
variable {s : State} (hopen : s.cmd.isOpen = true) {addr : U32} {len : Nat} {data b : Bytes} (hb : b = data.take (len + 1)) {p : Nat} (hp : p < 6)
include hopen hb hp

theorem bulkWrite_can_readOnly (hne : b ≠ [])
    (h : 0x2000000 + 0x2000 * p + 0xA00 ≤ addr.toNat ∧ addr.toNat + b.length ≤ 0x2000000 + 0x2000 * p + 0x1E00
      ∨ 0x2000000 + 0x2000 * p + 0x1F00 ≤ addr.toNat ∧ addr.toNat + b.length ≤ 0x2000000 + 0x2000 * p + 0x2000) :
    exec (.bulkWrite addr len data) s = .next (burstRefused addr.toNat 0 s) := by
  obtain ⟨hbase, hsize⟩ := canWindow
  exact bulkWrite_refused_within (w := .can) hopen hb (by omega) (by omega) (by decide) hne
    fun j hj x => writeByte_can_readOnly x hp (by omega)

section
variable (hlo : 0x2000000 + 0x2000 * p + 0x1E00 ≤ addr.toNat) (hend : addr.toNat + b.length ≤ 0x2000000 + 0x2000 * p + 0x1F00)
include hlo hend

theorem bulkWrite_filters_off (hhi : addr.toNat < 0x2000000 + 0x2000 * p + 0x1F00) (hm : memWf s.can.mem = true) (hoff : (getCan s p).bus = .off) :
    ∃ m, exec (.bulkWrite addr len data) s = .next { s with can := { s.can with mem := m }, bulk := { s.bulk with out := [] } } ∧ stored s.can.mem m (addr.toNat - 0x2000000) b := by
  obtain ⟨hbase, hsize⟩ := canWindow
  have hruns : canRuns (getCan s p) = false := by simp [canRuns, hoff]
  refine bulkWrite_stores (w := .can) hopen hb (by omega) (fun m => { s with can := { s.can with mem := m }, bulk := { s.bulk with out := [] } })
    (by omega) (by omega) (by decide) rfl hm fun j hj x m => ?_
  rw [writeByte_can_filter x hp (by omega) (by omega)]
  exact if_neg (ne_true_of_eq_false hruns)

theorem bulkWrite_filters_running (hne : b ≠ []) (hrun : (getCan s p).bus ≠ .off) : exec (.bulkWrite addr len data) s = .next (burstRefused addr.toNat 1 s) := by
  obtain ⟨hbase, hsize⟩ := canWindow
  have hruns : canRuns (getCan s p) = true := by simpa [canRuns] using hrun
  refine bulkWrite_refused_within (w := .can) hopen hb (by omega) (by omega) (by decide) hne fun j hj x => ?_
  rw [writeByte_can_filter x hp (by omega) (by omega)]
  exact if_pos hruns

end

variable {e : Nat} (he : e < 32) (hlo : 0x2000000 + txAddr p e ≤ addr.toNat) (hend : addr.toNat + b.length ≤ 0x2000000 + txAddr p e + 80)
include he hlo hend

/-- A burst within a host-owned entry stores all its bytes but the status byte. -/
theorem bulkWrite_entry_hostOwned (hhi : addr.toNat < 0x2000000 + txAddr p e + 80) (hm : memWf s.can.mem = true) (hhost : canOwned (getCan s p) e = false) :
    ∃ m, exec (.bulkWrite addr len data) s = .next { s with can := { s.can with mem := m }, bulk := { s.bulk with out := [] } }
      ∧ ∀ a, memRead m a = if addr.toNat - 0x2000000 ≤ a ∧ a < addr.toNat - 0x2000000 + b.length ∧ a ≠ txAddr p e + 6 then b.getD (a - (addr.toNat - 0x2000000)) 0 else memRead s.can.mem a := by
  obtain ⟨hbase, hsize⟩ := canWindow
  have hentry := txAddr_end_le hp he
  obtain ⟨m, hrun, hread⟩ := bulkWrite_stores_but (w := .can) (addr := addr) hopen hb (by omega) (fun a => decide (a = txAddr p e + 6))
    (fun m => { s with can := { s.can with mem := m }, bulk := { s.bulk with out := [] } }) (by omega)
    (by omega) (by decide) rfl hm fun j hj x m => by
      rw [writeByte_can_hostOwned x hp he (by omega) (by omega) (by exact hhost)]
      simp only [decide_eq_true_eq]
  refine ⟨m, hrun, fun a => (hread a).trans ?_⟩
  simp only [decide_eq_false_iff_not]
  rfl

theorem bulkWrite_entry_owned (hne : b ≠ []) (howned : canOwned (getCan s p) e = true) : exec (.bulkWrite addr len data) s = .next (burstRefused addr.toNat 1 s) := by
  obtain ⟨hbase, hsize⟩ := canWindow
  have hentry := txAddr_end_le hp he
  exact bulkWrite_refused_within (w := .can) hopen hb (by omega) (by omega) (by decide) hne
    fun j hj x => writeByte_can_owned x hp he (by omega) (by omega) howned

end

/-- Settles O17: what becomes of a burst follows from what becomes of each of its bytes in its window. -/
theorem bulkWritesStoreOrAreRefused : Obligations.BulkWritesStoreOrAreRefused := by
  refine ⟨fun addr len data s hopen hm hlo hend hhi hfree => ?_, fun addr len data s hopen haddr hne => ?_, fun addr len data b s hopen hb => ⟨?_, ?_, ?_, ?_, ?_, ?_⟩⟩
  · exact bulkWrite_stores (w := .graph) hopen rfl hlo (fun m => { s with loop := { s.loop with mem := m }, bulk := { s.bulk with out := [] } }) hhi hend (by decide) rfl hm
      fun j hj x m => writeByte_graph_free x (hfree j hj)
  · exact bulkWrite_image hopen haddr hne len
  · intro hlo hhi hend hm hfree
    exact bulkWrite_stores (w := .filter) hopen hb hlo (fun m => { s with flt := { s.flt with mem := m }, bulk := { s.bulk with out := [] } }) (hhi.trans (by decide))
      (hend.trans (by decide)) (by decide) rfl hm fun j hj x m => writeByte_coef_free x (by simp only [windowBase]; omega) (hfree j hj)
  · intro hlo hhi hend hm hst
    exact bulkWrite_stores (w := .capture) hopen hb hlo (fun m => { s with cap := { s.cap with mem := m }, bulk := { s.bulk with out := [] } }) hhi hend (by decide) rfl hm
      fun j hj x m => writeByte_capture_free x (capArmed_eq_false_iff.mpr hst)
  · intro hlo hhi hend hm hdev hsel hstag
    exact bulkWrite_stores (w := .staging) hopen hb hlo (fun m => { s with cap := { s.cap with mem := m }, bulk := { s.bulk with out := [] } }) hhi hend (by decide) rfl hm
      fun j hj x m => writeByte_staging_open x ⟨hdev, hsel, hstag⟩
  · intro p e hp he hlo hhi hend hm
    rw [show 0x2000000 + 0x2000 * p + 80 * e = 0x2000000 + txAddr p e from Nat.add_assoc ..] at hlo hhi hend
    exact ⟨bulkWrite_entry_hostOwned hopen hb hp he hlo hend hhi hm, fun howned hne => bulkWrite_entry_owned hopen hb hp he hlo hend hne howned⟩
  · exact fun p hp hlo hhi hend hm => ⟨bulkWrite_filters_off hopen hb hp hlo hend hhi hm, fun hrun hne => bulkWrite_filters_running hopen hb hp hlo hend hne hrun⟩
  · refine fun hne => ⟨fun hlo hend => ?_, ?_, fun p hp hlo hend => ?_, fun hlo hend huse => ?_, fun hlo hend hlive => ?_, fun hlo hhi hidle hdone => ?_, fun hlo hhi hclosed => ?_⟩
    · exact bulkWrite_refused_within (w := .filter) hopen hb (Nat.le_trans (by decide) hlo) hend (by decide) hne
        fun j hj x => writeByte_coef_reserved x (by simp only [windowBase]; omega)
    · rintro (⟨hlo, hhi⟩ | ⟨hlo, hhi⟩)
      · exact bulkWrite_refused_anywhere (w := .log) hopen hb hlo hhi (by decide) hne (fun _ _ => rfl) (fun h => by cases h)
      · exact bulkWrite_refused_anywhere (w := .sage) hopen hb hlo hhi (by decide) hne (fun _ _ => rfl) (fun h => by cases h)
    · exact bulkWrite_can_readOnly hopen hb hp hne (hend.imp_left fun hend => ⟨hlo, hend⟩)
    · exact bulkWrite_refused_within (w := .filter) hopen hb hlo (hend.trans (by decide)) (by decide) hne
        fun j hj x => writeByte_coef_inUse x (by simp only [windowBase]; omega) (huse j hj)
    · refine bulkWrite_refused_within (w := .graph) hopen hb hlo hend (by decide) hne fun j hj x => ?_
      obtain ⟨n, howner, hst⟩ := hlive j hj
      exact writeByte_graph_live x howner hst
    · have harmed : capArmed (setOut [] 0 s) = true := by simp [capArmed, hidle, hdone]
      exact bulkWrite_refused_anywhere (w := .capture) hopen hb hlo hhi (by decide) hne (fun _ x => writeByte_capture_armed x harmed) (fun h => by cases h)
    · have hshut : ¬ StagingOpen (setOut [] 0 s) := by
        rintro ⟨hdev, hsel, hstag⟩
        rcases hclosed with h | h | h
        · exact h hdev
        · exact h hsel
        · exact Bool.false_ne_true (h.symm.trans hstag)
      exact bulkWrite_refused_anywhere (w := .staging) hopen hb hlo hhi (by decide) hne
        (fun _ x => writeByte_staging_closed x hshut) (fun _ => pastEnd_staging_closed hshut)

end Sys2Proof.Proofs

namespace Sys2Proof.Proofs

open Sys2Proof Sys2Proof.Machine Sys2Proof.Claims Sys2Proof.Laws

/-! ### O58: the part in reset -/

theorem sized_reset : Sized State.reset :=
  have htime : timeSized time0 := ⟨rfl, rfl⟩
  have hclk : clkSized clk0 := ⟨rfl, rfl⟩
  have hsense : senseSized sense0 := ⟨rfl, rfl, rfl, rfl⟩
  have hflt : fltSized filter0 := ⟨rfl, rfl, rfl⟩
  have hpwm : pwmSized pwm0 := ⟨rfl, rfl, rfl, rfl, rfl, rfl, rfl, rfl⟩
  have hloop : loopSized loop0 := ⟨rfl, rfl, rfl⟩
  have hsafe : safeSized safe0 := ⟨rfl, rfl, rfl, rfl⟩
  have hfield : fieldSized field0 := ⟨rfl, rfl, rfl, rfl⟩
  have hcap : capSized cap0 := ⟨rfl, rfl, rfl, rfl, rfl, rfl⟩
  have hrel : relSized rel0 := ⟨rfl, rfl, rfl, rfl⟩
  ⟨htime, rfl, rfl, hclk, hsense, hflt, hpwm, hloop, hsafe, hfield, hcap, rfl, rfl, sageSized_sage0, hrel⟩

theorem memoriesOk_reset : MemoriesOk State.reset :=
  ⟨rfl, rfl, rfl, rfl, rfl, rfl, rfl, fun _ h => nomatch h⟩

/-- Settles O58, unit by unit. -/
theorem resetHoldsEveryResource : Obligations.ResetHoldsEveryResource := ⟨sized_reset, memoriesOk_reset⟩

end Sys2Proof.Proofs

namespace Sys2Proof.Proofs

open Sys2Proof Sys2Proof.Machine Sys2Proof.Claims Sys2Proof.Laws

/-! ### O18: levels and pulses that are qualified (R113, R118) -/

section
variable {short long held : Nat} {s : State}

theorem qualified_of_long (h : long ≤ held) : qualified short long held s = (true, s) := if_pos h

theorem qualified_of_short (h : held < short) (hle : short ≤ long) : qualified short long held s = (false, s) :=
  (if_neg (by omega)).trans (if_pos h)

end

/-! ### O18: supply warnings (R113, R115) -/

/-- A warning is taken: its flag is set and it is counted. -/
def warned (i : Nat) (s : State) : State := { s with sup := { s.sup with flags := s.sup.flags ||| (1#6 <<< i), warnCount := satInc s.sup.warnCount } }

section
variable {i held : Nat} {v : F32} {s : State}

/-- The junction's level is taken at once, a rail's after 1 us. -/
theorem warning_qualified (h : i = 5 ∨ 1000 ≤ held) : (if i = 5 then (true, s) else qualified 500 1000 held s) = (true, s) := by
  split
  · rfl
  · next hi => exact qualified_of_long (h.resolve_left hi)

theorem warning_unqualified (hi : i < 5) (h : held < 500) : (if i = 5 then (true, s) else qualified 500 1000 held s) = (false, s) :=
  (if_neg (by omega)).trans (qualified_of_short h (by omega))

theorem supplyWarning_taken (hi : i ≤ 5) (hpast : pastWarning i v = true) (hclear : s.sup.flags.getLsbD i = false) (hheld : i = 5 ∨ 1000 ≤ held) :
    exec (.supplyWarning i v held) s = .next (postMergeWith 0x0120#16 i (le32 v) (fun e => e.source == BitVec.ofNat 8 i) (warnData i) (warned i s)) := by
  show execSupplyWarning i v held s = _
  unfold execSupplyWarning
  rw [if_neg (by simp [hpast, hclear]; omega), warning_qualified hheld]
  rfl

theorem supplyWarning_ignored (h : pastWarning i v = false ∨ s.sup.flags.getLsbD i = true ∨ (i < 5 ∧ held < 500)) :
    exec (.supplyWarning i v held) s = .next s := by
  show execSupplyWarning i v held s = _
  unfold execSupplyWarning
  obtain h | h | ⟨hi, hheld⟩ := h
  · exact if_pos (.inr (.inr (by simp [h])))
  · exact if_pos (.inr (.inl h))
  · rw [warning_unqualified hi hheld]
    split <;> rfl

theorem supplyWarningRelease_taken (hi : i ≤ 5) (hpast : pastWarning i v = false) (hheld : i = 5 ∨ 1000 ≤ held) :
    exec (.supplyWarningRelease i v held) s = .next { s with sup := { s.sup with flags := s.sup.flags &&& ~~~(1#6 <<< i) } } := by
  show execSupplyWarningRelease i v held s = _
  unfold execSupplyWarningRelease
  rw [if_neg (by simp [hpast]; omega), warning_qualified hheld]
  rfl

theorem supplyWarningRelease_ignored (h : pastWarning i v = true ∨ (i < 5 ∧ held < 500)) : exec (.supplyWarningRelease i v held) s = .next s := by
  show execSupplyWarningRelease i v held s = _
  unfold execSupplyWarningRelease
  obtain h | ⟨hi, hheld⟩ := h
  · exact if_pos (.inr h)
  · rw [warning_unqualified hi hheld]
    split <;> rfl

end

theorem postMergeWith_new {c : U16} {n : Nat} {d : Bytes} {f : LogEntry → Bool} (g : Bytes → Bytes → Bytes) {s : State} (h : findMerge s c f = none) :
    postMergeWith c n d f g s = post c n d s := by
  unfold postMergeWith
  rw [h]

/-! ### O18: resets (R116, R118 to R123) -/

/-- The part is in BOOT in reset, from `s`, for this cause and of this kind (R118 to R123). -/
def ResetFrom (s t : State) (cause : Byte) (cold : Bool) : Prop :=
  t.sys.dev = .boot ∧ t.sys.phase = .inReset ∧ t.sys.cause = cause ∧ t.sys.cold = cold ∧ t.sys.intern = internalCauses.contains cause
    ∧ t.cmd = State.reset.cmd ∧ t.udp = State.reset.udp ∧ t.evt = State.reset.evt ∧ t.gov = State.reset.gov ∧ t.loop = State.reset.loop ∧ t.flt = State.reset.flt
    ∧ t.cap = State.reset.cap ∧ t.fus = State.reset.fus ∧ t.can = State.reset.can ∧ t.img = State.reset.img
    ∧ t.pwm.gateProc = false ∧ t.pwm.gateSorrel = false ∧ t.sys.safeOffA = false ∧ t.sys.safeOffB = false ∧ t.sys.faultN = false
    ∧ t.pending = s.pending ∧ t.sage = s.sage ∧ (s.rel.logWrites = [] → (∀ g, s.rel.jobs.head? ≠ some (.transition g)) → t.rel.otp = s.rel.otp)

/-- What the supply's failure may leave before the reset: OTP words half written, free values drawn, a supply flag set. -/
def failing (s : State) (x : Supply) (otp : List Host.Cell) (k : Nat) : State := { s with sup := x, rel := { s.rel with otp := otp }, free := k }

section
variable {s : State}

/-- From outside reset, every cause is latched as the first, and the kind is its own (R119, R120). -/
theorem startReset_resetFrom (h : s.sys.phase ≠ .inReset) (cause : Byte) (x : Supply) (otp : List Host.Cell) (k : Nat)
    (hotp : s.rel.logWrites = [] → (∀ g, s.rel.jobs.head? ≠ some (.transition g)) → otp = s.rel.otp) :
    ResetFrom s (startReset cause (failing s x otp k)) cause (coldCause cause) := by
  have hagain : (s.sys.phase == .inReset) = false := by simpa using h
  refine ⟨rfl, rfl, startReset_of_running (by exact h) cause, ?_, ?_, rfl, rfl, rfl, rfl, rfl, rfl, rfl, rfl, rfl, rfl, rfl, rfl, rfl, rfl, rfl, rfl, rfl, hotp⟩
  · show (coldCause cause || (s.sys.phase == .inReset && s.sys.cold)) = _
    simp [hagain]
  · show (internalCause cause || (s.sys.phase == .inReset && s.sys.intern)) = _
    rw [hagain]
    exact Bool.or_false _

theorem startReset_resetFrom_self (h : s.sys.phase ≠ .inReset) (cause : Byte) : ResetFrom s (startReset cause s) cause (coldCause cause) :=
  startReset_resetFrom h cause s.sup s.rel.otp s.free fun _ _ => rfl

/-- In reset, the recorded cause gives way only to a lower one of its own cycle, and an internal cause stays known (R120). -/
theorem startReset_again (h : s.sys.phase = .inReset) (cause : Byte) : (startReset cause s).sys.phase = .inReset
    ∧ (startReset cause s).sys.cause = (if s.sys.causeOpen = true ∧ cause.toNat < s.sys.cause.toNat then cause else s.sys.cause)
    ∧ (startReset cause s).sys.intern = (s.sys.intern || internalCauses.contains cause) := by
  have hagain : (s.sys.phase == .inReset) = true := by simpa using h
  refine ⟨rfl, ?_, ?_⟩
  · simp [startReset, hagain]
  · show (internalCause cause || (s.sys.phase == .inReset && s.sys.intern)) = _
    rw [hagain, Bool.true_and, Bool.or_comm]
    rfl

/-- Programming changes words of the OTP alone. -/
theorem programSteps_otp (n target : Nat) (s : State) : ∃ otp, programSteps n target s = { s with rel := { s.rel with otp := otp } } := by
  unfold programSteps
  generalize (transitionSteps s target).take n = l
  induction l generalizing s with
  | nil => exact ⟨s.rel.otp, rfl⟩
  | cons e l ih => exact ih (otpSet e.1 e.2 s)

theorem voidLogWrite_otp (s : State) : ∃ otp k, voidLogWrite s = { s with rel := { s.rel with otp := otp }, free := k } ∧ (s.rel.logWrites = [] → otp = s.rel.otp) := by
  unfold voidLogWrite
  split
  · exact ⟨s.rel.otp, s.free, rfl, fun _ => rfl⟩
  · next hw => exact ⟨_, _, rfl, fun h => absurd (hw.symm.trans h) (by simp)⟩

theorem voidTransition_otp (s : State) : ∃ otp k, voidTransition s = { s with rel := { s.rel with otp := otp }, free := k }
    ∧ ((∀ g, s.rel.jobs.head? ≠ some (.transition g)) → otp = s.rel.otp) := by
  unfold voidTransition
  split
  · next g _ hj =>
    dsimp only [draw]
    obtain ⟨otp, ho⟩ := programSteps_otp ((Config.freeWord s.free).toNat % ((transitionSteps s g).length + 1)) g { s with free := s.free + 1 }
    exact ⟨otp, s.free + 1, ho, fun h => absurd (by rw [hj]; rfl) (h g)⟩
  · exact ⟨s.rel.otp, s.free, rfl, fun _ => rfl⟩

/-- A supply that fails leaves the repair log and a transition void or half programmed, and nothing else changed (R537, R547). -/
theorem voided_failing (s : State) (x : Supply) : ∃ otp k, voidTransition (voidLogWrite { s with sup := x }) = failing s x otp k
    ∧ (s.rel.logWrites = [] → (∀ g, s.rel.jobs.head? ≠ some (.transition g)) → otp = s.rel.otp) := by
  obtain ⟨o1, k1, h1, hlog⟩ := voidLogWrite_otp { s with sup := x }
  obtain ⟨o2, k2, h2, htrans⟩ := voidTransition_otp { s with sup := x, rel := { s.rel with otp := o1 }, free := k1 }
  exact ⟨o2, k2, by rw [h1, h2]; rfl, fun hl hj => (htrans hj).trans (hlog hl)⟩

end

/-! ### O18: the reset sources -/

section
variable {s : State}

theorem pinReset_taken {low : Nat} (h : 1000 ≤ low) (cause : Byte) : pinReset cause low s = startReset cause s := by
  unfold pinReset
  rw [qualified_of_long h]
  rfl

theorem pinReset_ignored {low : Nat} (h : low < 200) (cause : Byte) : pinReset cause low s = s := by
  unfold pinReset
  rw [qualified_of_short h (by omega)]
  rfl

theorem porst_taken {low : Nat} (h : 1000 ≤ low) : exec (.porst low) s = .next (startReset 0x02#8 s) := congrArg Host.Outcome.next (pinReset_taken h 0x02#8)
theorem warmrst_taken {low : Nat} (h : 1000 ≤ low) : exec (.warmrst low) s = .next (startReset 0x11#8 s) := congrArg Host.Outcome.next (pinReset_taken h 0x11#8)
theorem porst_ignored {low : Nat} (h : low < 200) : exec (.porst low) s = .next s := congrArg Host.Outcome.next (pinReset_ignored h 0x02#8)
theorem warmrst_ignored {low : Nat} (h : low < 200) : exec (.warmrst low) s = .next s := congrArg Host.Outcome.next (pinReset_ignored h 0x11#8)

theorem thermal_taken {tj : F32} {held : Nat} (htj : f32Lt (toF32 165) tj = true) (hheld : 10000 ≤ held) :
    exec (.thermal tj held) s = .next (startReset 0x04#8 s) := congrArg _ (if_pos ⟨htj, hheld⟩)

theorem thermal_ignored {tj : F32} {held : Nat} (h : f32Lt (toF32 165) tj = false ∨ held < 10000) : exec (.thermal tj held) s = .next s :=
  congrArg _ (if_neg (by
    rintro ⟨htj, hheld⟩
    obtain h | h := h
    · rw [h] at htj; cases htj
    · omega))

theorem watchdog_outside (h : s.sys.phase ≠ .inReset) : exec .watchdog s = .next (startReset 0x13#8 s) := congrArg _ (if_neg h)
theorem lockstep_outside (h : s.sys.phase ≠ .inReset) : exec .lockstep s = .next (startReset 0x14#8 s) := congrArg _ (if_neg h)
theorem watchdog_inReset (h : s.sys.phase = .inReset) : exec .watchdog s = .next s := congrArg _ (if_pos h)
theorem lockstep_inReset (h : s.sys.phase = .inReset) : exec .lockstep s = .next s := congrArg _ (if_pos h)

/-- The latch has lost its supply where VDD_18 is at 1.0 V or less (R120). -/
theorem latchLost_iff {rail : Nat} {v : F32} : latchLost rail v = true ↔ rail = 2 ∧ f32Lt fOne v = false := by simp [latchLost]

theorem brownOut_ignored {rail : Nat} {v : F32} {held : Nat} (h : f32Lt v (milliVolt (railReset rail)) = false ∨ held < 500) : exec (.brownOut rail v held) s = .next s := by
  show execBrownOut rail v held s = _
  unfold execBrownOut
  obtain h | h := h
  · exact if_pos (.inr (by simp [h]))
  · rw [qualified_of_short h (by omega)]
    split <;> rfl

theorem brownOut_resetFrom (hphase : s.sys.phase ≠ .inReset) {rail : Nat} {v : F32} {held : Nat} (hrail : rail < 5) (hv : f32Lt v (milliVolt (railReset rail)) = true)
    (hheld : 1000 ≤ held) : ∃ t, exec (.brownOut rail v held) s = .next t ∧ ResetFrom s t (if rail = 2 ∧ f32Lt fOne v = false then 0x01#8 else 0x03#8) true := by
  show ∃ t, execBrownOut rail v held s = _ ∧ _
  unfold execBrownOut
  rw [if_neg (by simp [hv]; omega), qualified_of_long hheld]
  obtain ⟨otp, k, hvoid, hotp⟩ := voided_failing s { s.sup with flags := s.sup.flags ||| (1#6 <<< rail) }
  refine ⟨_, rfl, ?_⟩
  rw [hvoid]
  by_cases hlost : latchLost rail v = true
  · simp only [if_pos hlost, if_pos (latchLost_iff.mp hlost)]
    obtain ⟨hdev, hph, -, hrest⟩ := startReset_resetFrom hphase 0x01#8 _ otp k hotp
    exact ⟨hdev, hph, rfl, hrest⟩
  · simp only [if_neg hlost, if_neg (mt latchLost_iff.mpr hlost)]
    exact startReset_resetFrom hphase 0x03#8 _ otp k hotp

end

/-- Settles O18: warnings by whether their level is qualified, and resets by their source. -/
theorem supplyWarningsAndResets : Obligations.SupplyWarningsAndResets := by
  refine ⟨fun i v held s past hi hpast => ?_, fun s hphase c cause cold hc => ?_, fun s => ⟨fun low h => ⟨porst_ignored h, warmrst_ignored h⟩, fun tj held => thermal_ignored, fun rail v held _ => brownOut_ignored⟩,
    fun s hphase => ⟨fun c cause hc => ?_, watchdog_inReset hphase, lockstep_inReset hphase⟩⟩
  · have hpw : past = pastWarning i v := hpast
    subst hpw
    refine ⟨fun hp hf hheld => ?_, supplyWarning_ignored, supplyWarningRelease_taken hi, supplyWarningRelease_ignored⟩
    have hlog := postMergeWith_log 0x0120#16 i (le32 v) (fun e => e.source == BitVec.ofNat 8 i) (warnData i) (warned i s)
    refine ⟨_, supplyWarning_taken hi hp hf hheld, hlog.sup, ?_, fun hnone => ?_⟩
    · rw [hlog.sup]
      exact hlog
    · rw [hlog.sup, postMergeWith_new (s := warned i s) _ hnone]
      rfl
  · obtain ⟨low, hlow, ⟨rfl, rfl, rfl⟩ | ⟨rfl, rfl, rfl⟩⟩ | ⟨tj, held, htj, hheld, rfl, rfl, rfl⟩ | ⟨rfl, rfl, rfl⟩ | ⟨rfl, rfl, rfl⟩ | ⟨rail, v, held, hrail, hv, hheld, rfl, rfl, rfl⟩ := hc
    · exact ⟨_, porst_taken hlow, startReset_resetFrom_self hphase _⟩
    · exact ⟨_, warmrst_taken hlow, startReset_resetFrom_self hphase _⟩
    · exact ⟨_, thermal_taken htj hheld, startReset_resetFrom_self hphase _⟩
    · exact ⟨_, watchdog_outside hphase, startReset_resetFrom_self hphase _⟩
    · exact ⟨_, lockstep_outside hphase, startReset_resetFrom_self hphase _⟩
    · exact brownOut_resetFrom hphase hrail hv hheld
  · obtain ⟨low, hlow, ⟨rfl, rfl⟩ | ⟨rfl, rfl⟩⟩ | ⟨tj, held, htj, hheld, rfl, rfl⟩ := hc
    · exact ⟨_, porst_taken hlow, startReset_again hphase _⟩
    · exact ⟨_, warmrst_taken hlow, startReset_again hphase _⟩
    · exact ⟨_, thermal_taken htj hheld, startReset_again hphase _⟩

end Sys2Proof.Proofs

namespace Sys2Proof.Proofs

open Sys2Proof Sys2Proof.Machine Sys2Proof.Claims Sys2Proof.Laws

/-! ### O21: the start governor's queues (R134 to R136) -/

/-- The raw count is at `t`. -/
def timeAtRaw (t : Nat) (s : State) : State := { s with time := { s.time with raw := t } }

theorem stageHbs_timeAtRaw (t : Nat) (s : State) (n : Nat) : stageHbs (timeAtRaw t s) n = stageHbs s n := rfl

/-- The instant of the governor's next act: `gap` after the last of its kind, or now (R134). -/
def nextAct (now gap : Nat) (last : Option Nat) : Nat := max now (match last with | some l => l + gap | none => 0)

theorem advance_nextAct (gap : Nat) (last : Option Nat) (s : State) :
    (match last with | some l => advanceTo (l + gap) s | none => s) = timeAtRaw (nextAct s.time.raw gap last) s := by
  cases last with
  | some l => rfl
  | none =>
    show s = timeAtRaw (max s.time.raw 0) s
    rw [Nat.max_zero]
    rfl

section
variable {s : State} {e : GovEntry} {q : List GovEntry}

/-- The stage at the head of the queue has passed its driver-supply release (R134, R396). -/
def releasePassed (e : GovEntry) (q : List GovEntry) (t : Nat) (s : State) : State :=
  updStage e.unit (fun x => { x with waitStart := true }) { s with
    time := { s.time with raw := t }, gov := { s.gov with release := q, lastRelease := some t }, sys := { s.sys with released := true, safeOffA := gatesPass s, safeOffB := gatesPass s } }

theorem driverSupplyRelease_head (hq : s.gov.release = e :: q) : ∀ u, u = releasePassed e q (nextAct s.time.raw 1000000 s.gov.lastRelease) s →
    exec .driverSupplyRelease s = .next (if prechargeWaits u e.unit then awaitPrecharge e.unit e.owed u
      else settleStart e.owed OK [] (updStage e.unit (fun x => { x with startReq := none }) u)) := by
  rintro _ rfl
  show execDriverSupplyRelease s = _
  unfold execDriverSupplyRelease
  simp -zeta only [hq]
  extract_lets s1
  have hs1 : s1 = timeAtRaw (nextAct s.time.raw 1000000 s.gov.lastRelease) s := advance_nextAct ..
  clear_value s1
  subst hs1
  rfl

/-- The precharge at the head of the queue has left it (R134). -/
def prechargePassed (q : List GovEntry) (t : Nat) (s : State) : State :=
  { s with time := { s.time with raw := t }, gov := { s.gov with precharge := q, lastPre := some t } }

/-- A half-bridge's precharge begins now, for the length set (R382). -/
def beginPrecharge (h : Nat) (s : State) : State := updHb h (fun x => { x with preDue := false, preEnd := some (s.time.raw + 1000 * x.tPrecharge) }) s

theorem prechargeStart_unowned (hq : s.gov.precharge = e :: q) (h : ∀ n < 8, (stageHbs s n).contains e.unit = false) :
    exec .prechargeStart s = .next (dropPrecharges [e.unit] s) := by
  have hfind (t : Nat) : (List.range 8).find? (fun n => (stageHbs (timeAtRaw t s) n).contains e.unit) = none :=
    List.find?_eq_none.mpr fun n hn => Bool.eq_false_iff.mp (h n (List.mem_range.mp hn))
  show execPrechargeStart s = _
  unfold execPrechargeStart
  simp -zeta only [hq]
  extract_lets s1
  have hs1 : s1 = timeAtRaw (nextAct s.time.raw 50000 s.gov.lastPre) s := advance_nextAct ..
  clear_value s1
  subst hs1
  rw [hfind]

/-- What the head of the precharge queue does is decided by the state of the stage that it serves, the first that has its half-bridge. -/
theorem prechargeStart_head (hq : s.gov.precharge = e :: q) {n : Nat} (hn : n < 8) (hhas : (stageHbs s n).contains e.unit = true)
    (hfirst : ∀ k < n, (stageHbs s k).contains e.unit = false) : ∀ u, u = prechargePassed q (nextAct s.time.raw 50000 s.gov.lastPre) s →
    exec .prechargeStart s = match (getStage s n).st with
      | .starting => .next (beginPrecharge e.unit u)
      | .off =>
        if swapPending s n then .next s
        else .next (beginPrecharge e.unit (settleStart (getStage s n).startReq OK [] (updStage n (fun x => { x with startReq := none }) (enterStarting n u))))
      | _ => .next (dropPrecharges [e.unit] s) := by
  rintro _ rfl
  have hfind (t : Nat) : (List.range 8).find? (fun n => (stageHbs (timeAtRaw t s) n).contains e.unit) = some n :=
    List.find?_range_eq_some.mpr ⟨hhas, List.mem_range.mpr hn, fun k hk => by rw [stageHbs_timeAtRaw, hfirst k hk]; rfl⟩
  show execPrechargeStart s = _
  unfold execPrechargeStart
  simp -zeta only [hq]
  extract_lets s1
  have hs1 : s1 = timeAtRaw (nextAct s.time.raw 50000 s.gov.lastPre) s := advance_nextAct ..
  clear_value s1
  subst hs1
  rw [hfind]
  rfl

theorem prechargeEnd_due {h t0 : Nat} (hend : (getHb s h).preEnd = some t0) (vBoot : F32) : ∀ t,
    t = updHb h (fun x => { x with preEnd := none, vBoot := vBoot, bootLow := f32Lt vBoot 0x4109999A#32 }) (advanceTo t0 s) →
    exec (.prechargeEnd h vBoot) s = .next (if f32Lt vBoot 0x4109999A#32 = true then tripChannel 6 h (hbChan h true) t else t) := by
  rintro _ rfl
  show execPrechargeEnd h vBoot s = _
  unfold execPrechargeEnd
  rw [hend]

theorem prechargeEnd_idle {h : Nat} (hend : (getHb s h).preEnd = none) (vBoot : F32) : exec (.prechargeEnd h vBoot) s = .next s := by
  show execPrechargeEnd h vBoot s = _
  unfold execPrechargeEnd
  rw [hend]

theorem driverSupplyRelease_idle (h : s.gov.release = []) : exec .driverSupplyRelease s = .next s := by
  show execDriverSupplyRelease s = _
  unfold execDriverSupplyRelease
  rw [h]

theorem prechargeStart_idle (h : s.gov.precharge = []) : exec .prechargeStart s = .next s := by
  show execPrechargeStart s = _
  unfold execPrechargeStart
  rw [h]

end

/-- Settles O21: each queue by its head, and nothing without one. -/
theorem startGovernorServesInOrder : Obligations.StartGovernorServesInOrder := by
  refine fun s => ⟨fun e q t0 u hq ht hu => ?_, fun e q t0 u hq ht hu => ⟨prechargeStart_unowned hq, fun n hn hhas hfirst => ?_⟩, fun h t0 vBoot t hend => prechargeEnd_due hend vBoot t,
    driverSupplyRelease_idle, prechargeStart_idle, fun h vBoot hend => prechargeEnd_idle hend vBoot⟩
  · have hexec := driverSupplyRelease_head hq u (by rw [hu, ht]; rfl)
    refine ⟨fun hw => ?_, fun hw => ?_⟩
    · rw [hexec, hw]
      rfl
    · rw [hexec, hw]
      rfl
  · have hexec := prechargeStart_head hq hn hhas hfirst u (by rw [hu, ht]; rfl)
    refine ⟨fun hst => ?_, fun hst hswap => ?_, fun hst hswap v hv => ?_, fun hs ho => ?_⟩
    · rw [hexec, hst, hu]
      rfl
    · rw [hexec, hst]
      exact if_pos hswap
    · rw [hexec, hst, hv]
      exact if_neg (by simp [hswap])
    · rw [hexec]
      generalize (getStage s n).st = st at hs ho
      cases st with
      | starting => exact absurd rfl hs
      | off => exact absurd rfl ho
      | enabled | shuttingDown | lockedOut => rfl

end Sys2Proof.Proofs

namespace Sys2Proof.Proofs

open Sys2Proof Sys2Proof.Machine Sys2Proof.Claims Sys2Proof.Laws

/-! ### O20: image datagrams (R131, R133) -/

section
variable {tag : Option Nat} {ip : U32} {port : U16} {b : Bytes} {s : State}

theorem imageDatagram_of_down (hup : ethUp s 0 = false) : exec (.imageDatagram tag ip port b) s = .next (missedRx 0 s) := by
  show execImageDatagram tag ip port b s = _
  unfold execImageDatagram
  exact ethTake_of_down hup

theorem imageDatagram_of_misfit (hup : ethUp s 0 = true) (h : ¬ arrives s 0 tag (b.length + 46)) :
    exec (.imageDatagram tag ip port b) s = .next (ethDrop 0 (countRx 0 s)) := by
  show execImageDatagram tag ip port b s = _
  unfold execImageDatagram
  exact ethTake_of_misfit hup h

/-- An image datagram whose fields are all in range and whose check value is right (R133). -/
structure DatagramOk (b : Bytes) (n : Nat) : Prop where
  count : n = n16At b 8
  length : b.length = 16 + n
  pos : 0 < n
  le : n ≤ 1024
  check : u32At b (12 + n) = crc32c (b.take (12 + n))
  magic : u32At b 0 = 0x4D495A4F#32
  offset : n32At b 4 ≤ 0x1FFC00
  flags : n16At b 10 ≤ 1

/-- The data of a datagram are in the staging memory (R131). -/
def stagedAt (b : Bytes) (n : Nat) (s : State) : State := { s with cap := { s.cap with mem := memWriteBytes s.cap.mem (n32At b 4) (slice b 12 n) } }

/-- The verification of what is staged has begun, for the sender of the datagram that ended it. -/
def lastStaged (b : Bytes) (n : Nat) (ip : U32) (port : U16) (s : State) : State :=
  { s with stag := { s.stag with verifying := some { start := s.time.raw, staged := n32At b 4 + n, sender := some (ip, port, u32At b 4) } } }

theorem imageDatagram_staged (hphase : s.sys.phase = .portOpen) (hsel : s.sys.bootsel = 2) (hidle : s.stag.verifying = none) (hnew : s.stag.verified = none) {n : Nat}
    (hkept : bytesLost s 42 (n32At b 4) n = false) (harr : arrives s 0 tag (b.length + 46)) (hok : DatagramOk b n) :
    exec (.imageDatagram tag ip port b) s = .next (if n16At b 10 = 1 then lastStaged b n ip port (stagedAt b n (countRx 0 s))
      else imageAck ip port (u32At b 4) OK (stagedAt b n (countRx 0 s))) := by
  obtain ⟨rfl, hlen, hpos, hle, hcheck, hmagic, hoff, hflags⟩ := hok
  show execImageDatagram tag ip port b s = _
  unfold execImageDatagram
  rw [udpLength, ethTake_of_arrives harr]
  have hlost : bytesLost (countRx 0 s) 42 (n32At b 4) (n16At b 8) = false := hkept
  dsimp only
  rw [if_neg (by simp [hphase, hsel]), if_neg (by omega), if_neg (by simpa using hcheck), if_neg (by simp [hmagic]; omega), if_neg (by simp [hlost]), if_neg (by simp [hidle, hnew])]
  rfl

/-- The data of an intact datagram are read back at its offset, and all else is as it was. -/
theorem memRead_stagedAt (hwf : memWf s.cap.mem = true) {n : Nat} (hlen : b.length = 16 + n) (a : Nat) :
    memRead (stagedAt b n s).cap.mem a = if n32At b 4 ≤ a ∧ a < n32At b 4 + n then byteAt b (12 + (a - n32At b 4)) else memRead s.cap.mem a := by
  show memRead (memWriteBytes s.cap.mem (n32At b 4) (slice b 12 n)) a = _
  rw [memRead_memWriteBytes _ _ _ _ hwf, slice_length]
  split
  · exact byteAt_slice (by omega) (by omega)
  · rfl

end

theorem ethSend_cap (p : Nat) (d : U32) (b : Bytes) (s : State) : (ethSend p d b s).cap = s.cap := by
  unfold ethSend ethPut
  split
  · rfl
  · split
    · rfl
    · split <;> rfl

/-! ### O20: verification (R132, R551) -/

theorem bytesLost_taken (s : State) (via : Transport) (m a n : Nat) : bytesLost (taken s via) m a n = bytesLost s m a n := by rw [taken_change]; rfl

theorem imgVerify_accepted {via : Transport} {s : State} {r : Req} (h : Takes 0x0F03#16 via s r) (hdev : s.sys.dev = .boot) (hsel : s.sys.bootsel = 1)
    (hlen : (reqParams r).length = 4) (hlo : 528 ≤ n32At (reqParams r) 0) (hhi : n32At (reqParams r) 0 ≤ 2097152) (hkept : bytesLost s 42 0 (n32At (reqParams r) 0) = false)
    (hidle : s.stag.verifying = none) (hnew : s.stag.verified = none) :
    exec (.imgVerify via) s = accepted r 0 [] { taken s via with stag := { s.stag with verifying := some { start := s.time.raw, staged := n32At (reqParams r) 0, sender := none } } } := by
  refine next_runCard_long h (isOp_takes h) rfl (decide_eq_true hdev) ?_
  show imgVerifyRun (taken s via) r = _
  unfold imgVerifyRun
  dsimp only
  rw [if_neg (by simp [hsel]), if_neg (by omega), if_neg (by simp [bytesLost_taken, hkept]), if_neg (by simp [hidle, hnew]), taken_stag, taken_time]

theorem countUp_of_otp {s t : State} (h : t.rel.otp = s.rel.otp) (w n : Nat) : countUp t w n = countUp s w n := by
  induction n generalizing w with
  | zero => rfl
  | succ n ih => simp only [countUp, otpWord_of_otp h, ih]

/-- The steps of a verification read the OTP, the lifecycle and what is staged, not the time (R551). -/
theorem imageStep_advanceTo (t : Nat) (s : State) (h : Bytes) (n k : Nat) : imageStep (advanceTo t s) h n k = imageStep s h n k := by
  have hrom (slot : Nat) (key : Bytes) : romKeyOk (advanceTo t s) slot key = romKeyOk s slot key := rfl
  have hcustomer (place : Nat) (key : Bytes) : customerKeyOk (advanceTo t s) place key = customerKeyOk s place key := rfl
  have hcounter : otpCounter (advanceTo t s) 0 = otpCounter s 0 := countUp_of_otp (s := s) (t := advanceTo t s) rfl _ 64
  have hkey : imageKey (advanceTo t s) = imageKey s := rfl
  have hstaged (a n : Nat) : stagedBytes (advanceTo t s) a n = stagedBytes s a n := rfl
  simp only [imageStep, hrom, hcustomer, hcounter, hkey, hstaged, advanceTo_sys]
  rfl

theorem imageVerdict_advanceTo (t : Nat) (s : State) (h : Bytes) (n : Nat) : imageVerdict (advanceTo t s) h n = imageVerdict s h n := by
  simp only [imageVerdict, imageStep_advanceTo]

/-- The version that a verdict names: none where the header itself is wrong (R551). -/
def verdictVersion (h : Bytes) (x : Option Nat) : U32 := if x = some 1 then 0 else u32At h 8

/-- The verification of the staged image is over, with this verdict on its header `h` (R132, R551). -/
def verified (h : Bytes) (s : State) (x : Option Nat) : State :=
  match x with
  | some k => post 0x0F06#16 0 (n8 k ++ [0] ++ slice h 12 2 ++ le32 (verdictVersion h x))
      { s with cap := { s.cap with mem := [] }, stag := { s.stag with verifying := none, verified := none } }
  | none => { s with
      cap := { s.cap with mem := if (u16At h 6).getLsbD 0 then memWriteBytes s.cap.mem 512 (gcmText (imageKey s) (slice h 32 12) (memReadBytes s.cap.mem 512 (n32At h 16))) else s.cap.mem }
      stag := { s.stag with verifying := none, verified := some (u32At h 8, u16At h 12) } }

/-- The status of a verdict and the bytes that IMG_VERIFY completes with (R132). -/
def verdictStatus (x : Option Nat) : U16 := if x.isSome then E_VERIFY else OK
def verdictBytes (h : Bytes) (x : Option Nat) : Bytes := le32 (verdictVersion h x) ++ slice h 12 2 ++ n8 (x.getD 0) ++ [0]

/-- The end of a verification goes to whoever asked for it: the sender of the image, or IMG_VERIFY (R132, R133). -/
def verdictSent (h : Bytes) (x : Option Nat) (s : State) : Option (U32 × U16 × U32) → State
  | some (ip, port, off) => imageAck ip port off (verdictStatus x) s
  | none => endLong 0x0F03#16 0 (verdictStatus x) (verdictBytes h x) s

theorem verdictSent_reply (h : Bytes) (x : Option Nat) (s : State) (dest : Option (U32 × U16 × U32)) : ReplyOnly s (verdictSent h x s dest) := by
  cases dest with
  | some y => exact ethSend_reply ..
  | none => exact endLong_reply ..

theorem verified_time (h : Bytes) (s : State) (x : Option Nat) : (verified h s x).time = s.time := by
  cases x with
  | none => rfl
  | some k => exact post_time ..

theorem verified_stag (h : Bytes) (s : State) (x : Option Nat) :
    (verified h s x).stag = { s.stag with verifying := none, verified := if x = none then some (u32At h 8, u16At h 12) else none } := by
  cases x with
  | none => rfl
  | some k => exact post_stag ..

theorem decryptImage_eq (s : State) (h : Bytes) : { decryptImage s h with stag := { (decryptImage s h).stag with verifying := none, verified := some (u32At h 8, u16At h 12) } } = verified h s none := by
  unfold decryptImage verified
  split <;> rfl

theorem imgVerifyDone_due {v : Verification} {h : Bytes} {now s : State} (hv : s.stag.verifying = some v) (hh : h = memReadBytes s.cap.mem 0 512)
    (hnow : now = advanceTo (v.start + ceilDiv v.staged 65536 * 500000) s) :
    exec .imgVerifyDone s = .next (verdictSent h (imageVerdict s h v.staged) (verified h now (imageVerdict s h v.staged)) v.sender) := by
  show execImgVerifyDone s = _
  unfold execImgVerifyDone
  split
  · next hnone => rw [hnone] at hv; cases hv
  · next w hw =>
    obtain rfl : w = v := Option.some.inj (hw.symm.trans hv)
    extract_lets s1 h1 verdict
    have hs1 : s1 = now := hnow.symm
    have hh1 : h1 = h := hh.symm
    have hx : verdict = imageVerdict s h w.staged := by rw [← hh1]; exact imageVerdict_advanceTo ..
    rw [← hx, ← hh1, ← hs1]
    clear_value verdict h1 s1
    cases verdict with
    | none =>
      rw [← decryptImage_eq]
      cases w.sender <;> rfl
    | some k => cases w.sender <;> rfl

/-! ### O20: the start of a verified image (R132, R552) -/

/-- How far BOOT has come and the image that it has started. -/
def imageRun (s : State) : BootPhase × Bool × U32 := (s.sys.phase, s.sys.bootPath, s.sys.imageVersion)

theorem imageRun_runBlind : RunBlind imageRun := ⟨fun _ _ _ _ _ _ _ _ _ _ _ => rfl, fun _ _ _ => rfl⟩
theorem imageRun_offBlind : OffBlind imageRun := fun _ _ _ _ _ _ _ _ _ => rfl
theorem imageRun_replyBlind : ReplyBlind imageRun := fun s t h => by rw [show t = _ from h]; rfl

theorem post_imageRun (c : U16) (n : Nat) (d : Bytes) (s : State) : imageRun (post c n d s) = imageRun s := post_reading imageRun_runBlind.1.log ..

theorem setDev_imageRun (d : DevState) (op : Nat) (s : State) : imageRun (setDev d op s) = imageRun s := by
  unfold setDev
  split
  · rfl
  · exact post_imageRun ..

theorem commandOff_imageRun (o : Nat) (s : State) : imageRun (commandOff o s) = imageRun s := by
  have hstop : imageRun (if s.field.doCmd.getLsbD o then outputStops o s else s) = imageRun s := by split <;> rfl
  exact hstop

theorem leaveRun_imageRun (reason : Nat) (s : State) : imageRun (leaveRun reason s) = imageRun s := by
  have h := emptyGovernor_reading imageRun_runBlind imageRun_replyBlind reason s
  unfold leaveRun
  generalize emptyGovernor reason s = t at h ⊢
  exact h

theorem safeDeclared_imageRun (s : State) : imageRun (safeDeclared s) = imageRun s := by
  have hstages : imageRun (safeStages s) = imageRun s := forEach_reading (fun n s => lockOut_reading imageRun_runBlind imageRun_offBlind n s) _ _
  have houtputs : imageRun (safeOutputs s) = imageRun (safeStages s) :=
    (forEach_reading commandOff_imageRun _ _).trans ((leaveRun_imageRun ..).trans (forEach_reading (fun u s => fuStageGone_reading imageRun_runBlind.1.form u 3 2 s) _ _))
  have hdev := setDev_imageRun .safe 0 (safeOutputs s)
  unfold safeDeclared
  generalize setDev .safe 0 (safeOutputs s) = t at hdev
  exact hdev.trans (houtputs.trans hstages)

theorem setSafeState_imageRun (s : State) : imageRun (setSafeState s) = imageRun s := by
  have h := safeDeclared_imageRun s
  rw [setSafeState_eq]
  generalize safeDeclared s = t at h
  split
  · exact (imageRun_replyBlind _ _ (endLong_reply ..)).trans h
  · exact h

theorem safetyActs_imageRun (reason chan source : Nat) (s : State) : imageRun (safetyActs reason chan source s) = imageRun s := by
  unfold safetyActs
  split
  · rfl
  · refine (post_imageRun ..).trans ?_
    split
    · rfl
    · exact setSafeState_imageRun _

theorem bootParams_imageRun (s : State) : imageRun (bootParams s) = imageRun s := by
  unfold bootParams
  split
  · unfold commitBlock
    dsimp only
    split <;> rfl
  · exact post_imageRun ..

theorem bootEth_imageRun (i : Nat) (s : State) : imageRun (bootEth i s) = imageRun s := by
  unfold bootEth
  dsimp only
  split <;> rfl

/-- What BOOT ends with: the image's run and the device's state. -/
def started (s : State) : (BootPhase × Bool × U32) × DevState := (imageRun s, s.sys.dev)

theorem started_runBlind : RunBlind started := ⟨fun _ _ _ _ _ _ _ _ _ _ _ => rfl, fun _ _ _ => rfl⟩

theorem raiseCounter_reading {α : Type} {v : State → α} (hv : RunBlind v) (k n : Nat) (s : State) : v (raiseCounter k n s) = v s :=
  forEach_reading (fun i s => by
    split
    · exact updRel_reading hv ..
    · rfl) _ s

/-- BOOT ends with a staged image: its version is on the image path, in CONFIG or in SAFE (R132, R552). -/
theorem finishBoot_some (v : U32 × U16) (s : State) : imageRun (finishBoot (some v) s) = (.finished, true, v.1)
    ∧ ((finishBoot (some v) s).sys.dev = .config ∨ (finishBoot (some v) s).sys.dev = .safe) := by
  have hpost (c : U16) (n : Nat) (d : Bytes) (u : State) : started (post c n d u) = started u := post_reading started_runBlind.1.log ..
  unfold finishBoot
  extract_lets kept fail _ _ s0 s1 s2 safe s3 _ _ _ s4 s5 old s6 s7 s8
  have h1 : imageRun s1 = (.finished, true, v.1) := (bootParams_imageRun _).trans (forEach_reading bootEth_imageRun _ s0)
  have h2 : imageRun s2 = imageRun s1 := by
    cases hf : fail with
    | none => simp only [s2, hf]
    | some k => simp only [s2, hf]; exact (post_imageRun ..).trans (safetyActs_imageRun ..)
  have h3 : imageRun s3 = imageRun s2 := by
    unfold s3
    split
    · rfl
    · exact post_imageRun ..
  have h4 : imageRun s4 = imageRun s3 := by
    unfold s4
    split <;> rfl
  have h5 : imageRun s5 = imageRun s4 := setDev_imageRun ..
  have hdev : s5.sys.dev = .config ∨ s5.sys.dev = .safe := by
    rw [show s5.sys.dev = _ from setDev_dev ..]
    split
    · exact .inr rfl
    · exact .inl rfl
  have h6 : started s6 = started s5 := by
    unfold s6
    dsimp only
    split
    · exact (hpost ..).trans (raiseCounter_reading started_runBlind ..)
    · rfl
  have h8 : started s8 = started s5 := by
    have h7 : started s7 = started s5 := (hpost ..).trans h6
    unfold s8
    split
    · exact (hpost ..).trans h7
    · exact h7
  clear_value s8
  have hend : started (sagePostLog { s8 with img := { s8.img with running := true, due := s8.time.raw / 1000 * 1000 + 1000 } }) = started s5 :=
    (sagePostLog_reading started_runBlind _).trans h8
  generalize sagePostLog _ = t at hend ⊢
  simp only [started, Prod.mk.injEq] at hend
  obtain ⟨hrun, hd⟩ := hend
  exact ⟨hrun.trans (h5.trans (h4.trans (h3.trans (h2.trans h1)))), by rw [hd]; exact hdev⟩

/-- Settles O20: datagrams by what becomes of their frame, and a verification by its verdict. -/
theorem imagesAreStagedVerifiedAndStarted : Obligations.ImagesAreStagedVerifiedAndStarted := by
  refine fun s => ⟨fun hup tag ip port b => imageDatagram_of_down hup, fun tag ip port b => imageDatagram_of_misfit,
    fun hphase hsel hidle hnew hwf tag ip port b n hkept harr hcount hlen hpos hle hcheck hmagic hoff hflags => ?_,
    fun via r h hdev hsel hlen hlo hhi hkept hidle hnew => ?_, fun v h now hv hh hnow => ?_, fun v hphase hv => ?_⟩
  · have hexec := imageDatagram_staged hphase hsel hidle hnew hkept harr ⟨hcount, hlen, hpos, hle, hcheck, hmagic, hoff, hflags⟩ (ip := ip) (port := port)
    have hmem := memRead_stagedAt (s := s) hwf hlen
    by_cases hlast : n16At b 10 = 1
    · rw [if_pos hlast] at hexec
      exact ⟨_, hexec, hmem, fun h0 => by omega, fun _ => rfl⟩
    · rw [if_neg hlast] at hexec
      have hcap : (imageAck ip port (u32At b 4) OK (stagedAt b n (countRx 0 s))).cap = (stagedAt b n s).cap := ethSend_cap ..
      refine ⟨_, hexec, by rw [hcap]; exact hmem, fun _ => ?_, fun h1 => absurd h1 hlast⟩
      rw [hcap]
      rfl
  · rw [imgVerify_accepted h hdev hsel hlen hlo hhi hkept hidle hnew, accepted, taken_sys]
  · have hsent := verdictSent_reply h (imageVerdict s h v.staged) (verified h now (imageVerdict s h v.staged)) v.sender
    refine ⟨_, verified h now (imageVerdict s h v.staged), imgVerifyDone_due hv hh hnow, ?_, ?_, fun hx => ?_, fun k hx => ?_⟩
    · rw [hsent.stag, verified_stag]
    · rw [hsent.time, verified_time, hnow]
      rfl
    · rw [hsent.stag, verified_stag, hx, hnow]
      refine ⟨rfl, rfl, fun ip port off hto => by rw [hto]; rfl, fun hto => ?_⟩
      rw [hto]
      simp [verdictSent, verdictStatus, verdictBytes, verdictVersion, n8]
    · rw [hsent.stag, verified_stag, hx, hnow]
      refine ⟨rfl, by simp only [verified, verdictVersion, Option.some.injEq]; rfl, fun ip port off hto => by rw [hto]; rfl, fun hto => ?_⟩
      rw [hto]
      simp [verdictSent, verdictStatus, verdictBytes, verdictVersion]
  · obtain ⟨hrun, hdev⟩ := finishBoot_some v s
    simp only [imageRun, Prod.mk.injEq] at hrun
    obtain ⟨hdone, hpath, hver⟩ := hrun
    refine ⟨_, ?_, hdone, hpath, hver, hdev⟩
    show execImageStart s = _
    unfold execImageStart
    rw [hphase, hv]

end Sys2Proof.Proofs

namespace Sys2Proof.Proofs

open Sys2Proof Sys2Proof.Machine Sys2Proof.Claims Sys2Proof.Laws

/-! ### O35: what a request taken from its queue leaves as it was -/

/-- A reading that shows nothing of the queues and the device's own state is the same once a request has left its queue. -/
theorem taken_reading {α : Type} {v : State → α} (h : ∀ (s : State) (c : CmdPort) (u : Machine.Udp) (y : Sys), v { s with cmd := c, udp := u, sys := y } = v s)
    (s : State) (via : Transport) : v (taken s via) = v s := by
  rw [taken_change]
  exact h ..

theorem getStage_taken (s : State) (via : Transport) (n : Nat) : getStage (taken s via) n = getStage s n :=
  taken_reading (v := fun s => getStage s n) (fun _ _ _ _ => rfl) s via

theorem stageLeft_of_st {s : State} {n : Nat} (h : (getStage s n).st ≠ .shuttingDown) : stageLeft s n = 0 := by
  unfold stageLeft
  split
  · contradiction
  · rfl

/-! ### O35: GRAPH_LOAD and its end (R218, R223, R224, R283) -/

/-- The conditions under which a load of an OFF stage is accepted (R223, R224). -/
def LoadAdmitted (s : State) (p : Bytes) (n : Nat) : Prop :=
  n8At p 0 = n ∧ p.length = 16 ∧ zeroAt p 1 3 = true ∧ stageOff s n = true ∧ n32At p 4 % 32 = 0 ∧ n32At p 4 ≤ 983008
    ∧ (n32At p 8 = 0 ∨ 64 ≤ n32At p 8 ∧ n32At p 4 + n32At p 8 ≤ 983040) ∧ classFull s 0x0600#16 = false

theorem LoadAdmitted.taken {s : State} {p : Bytes} {n : Nat} (h : LoadAdmitted s p n) (via : Transport) : LoadAdmitted (taken s via) p n := by
  rw [taken_change]
  exact h

/-- The load that a request asks for. -/
def loadAsked (p : Bytes) (n : Nat) : GraphLoad := { stage := n, offset := n32At p 4, length := n32At p 8, crc := u32At p 12 }

section
variable {s : State} {r : Req} {n : Nat} (hn : n < 8) (ha : LoadAdmitted s (reqParams r) n)
include hn ha

theorem loadRun_of_off : loadRun s r = .long { s with loop := { s.loop with loads := s.loop.loads ++ [loadAsked (reqParams r) n] } } 0 [] := by
  obtain ⟨hn0, hlen, hres, hoff, hal, hmax, hsize, hroom⟩ := ha
  have hst : (getStage s n).st = .off := by simpa [stageOff] using hoff
  simp only [loadRun, hn0]
  rw [if_neg (by simp [hst]), if_neg (by simp [hoff]), if_neg (by simp only [hlen, hres, graphSize]; simp; omega), if_neg (by simp [hroom])]
  rfl

theorem graphLoad_of_off {via : Transport} (h : Takes 0x0600#16 via s r) (hdev : s.sys.dev ≠ .boot) :
    exec (.graphLoad via) s = accepted r 0 [] { taken s via with loop := { s.loop with loads := s.loop.loads ++ [loadAsked (reqParams r) n] } } := by
  have hrun := loadRun_of_off hn (ha.taken via)
  rw [taken_loop] at hrun
  exact next_runCard_long h (isOp_takes h) rfl (inAll4_of_ne_boot hdev) hrun

end

/-! ### The end of a load -/

theorem not_bnot_of_true {b : Bool} (h : b = true) : ¬ (!b) = true := by simp [h]

/-- The state once the oldest load has left the queue. -/
def loadsLeft (t : List GraphLoad) (s : State) : State := { s with loop := { s.loop with loads := t } }

theorem acyclic_loadsLeft (t : List GraphLoad) (s : State) (g : Graph) (k : Nat) (ns : List Nat) : acyclic (loadsLeft t s) g k ns = acyclic s g k ns := by
  induction k generalizing ns with
  | zero => rfl
  | succ k ih =>
    simp only [acyclic]
    rw [ih]
    rfl

theorem imageOk_loadsLeft (t : List GraphLoad) (s : State) (n : Nat) (g : Graph) : imageOk (loadsLeft t s) n g = imageOk s n g := by
  unfold imageOk
  rw [acyclic_loadsLeft]
  rfl

section
variable {s : State} {l : GraphLoad} {t : List GraphLoad} (hl : s.loop.loads = l :: t)
include hl

theorem graphLoadDone_bad_crc (hcrc : crc32c (memReadBytes s.loop.mem l.offset l.length) ≠ l.crc) :
    exec .graphLoadDone s = .next (endLong 0x0600#16 0 E_VERIFY [] (loadsLeft t s)) := by
  show execGraphLoadDone s = _
  simp -zeta only [execGraphLoadDone, hl]
  exact if_pos hcrc

variable (hcrc : crc32c (memReadBytes s.loop.mem l.offset l.length) = l.crc)
include hcrc

theorem graphLoadDone_live (hoff : stageOff s l.stage = false) : exec .graphLoadDone s = .next (endLong 0x0600#16 0 E_STATE [] (loadsLeft t s)) := by
  show execGraphLoadDone s = _
  simp -zeta only [execGraphLoadDone, hl]
  exact (if_neg (not_not.mpr hcrc)).trans (if_pos (by exact congrArg (!·) hoff))

variable (hoff : stageOff s l.stage = true)
include hoff

theorem graphLoadDone_empty (hlen : l.length = 0) :
    exec .graphLoadDone s = .next (endLong 0x0600#16 0 OK (loadPayload (unloadGraph l.stage (loadsLeft t s)) l.stage) (unloadGraph l.stage (loadsLeft t s))) := by
  show execGraphLoadDone s = _
  simp -zeta only [execGraphLoadDone, hl]
  exact (if_neg (not_not.mpr hcrc)).trans ((if_neg (not_bnot_of_true (by exact hoff))).trans (if_pos hlen))

variable (hlen : l.length ≠ 0)
include hlen

theorem graphLoadDone_unsound (hok : imageOk s l.stage (readHeader s.loop.mem l.offset l.length) = false) :
    exec .graphLoadDone s = .next (endLong 0x0600#16 0 E_PARAM [] (loadsLeft t s)) := by
  show execGraphLoadDone s = _
  simp -zeta only [execGraphLoadDone, hl]
  exact (if_neg (not_not.mpr hcrc)).trans ((if_neg (not_bnot_of_true (by exact hoff))).trans ((if_neg hlen).trans
    (if_pos (by exact congrArg (!·) ((imageOk_loadsLeft t s ..).trans hok)))))

variable (hok : imageOk s l.stage (readHeader s.loop.mem l.offset l.length) = true)
include hok

theorem graphLoadDone_lost (hlost : bytesLost s 18 l.offset l.length = true) :
    exec .graphLoadDone s = .next (endLong 0x0600#16 0 E_RESOURCE [] (loadsLeft t s)) := by
  show execGraphLoadDone s = _
  simp -zeta only [execGraphLoadDone, hl]
  exact (if_neg (not_not.mpr hcrc)).trans ((if_neg (not_bnot_of_true (by exact hoff))).trans ((if_neg hlen).trans
    ((if_neg (not_bnot_of_true ((imageOk_loadsLeft t s ..).trans hok))).trans (if_pos (by exact hlost)))))

theorem graphLoadDone_sound (hlost : bytesLost s 18 l.offset l.length = false)
    (hroom : (readHeader s.loop.mem l.offset l.length).engines ≤ (enginesFree s l.stage).length) :
    let u := installGraph l.stage (readHeader s.loop.mem l.offset l.length) (loadsLeft t s)
    exec .graphLoadDone s = .next (endLong 0x0600#16 0 OK (loadPayload u l.stage) u) := by
  show execGraphLoadDone s = _
  simp -zeta only [execGraphLoadDone, hl]
  exact (if_neg (not_not.mpr hcrc)).trans ((if_neg (not_bnot_of_true (by exact hoff))).trans ((if_neg hlen).trans
    ((if_neg (not_bnot_of_true ((imageOk_loadsLeft t s ..).trans hok))).trans ((if_neg (by exact Bool.eq_false_iff.mp hlost)).trans (if_neg (by exact Nat.not_lt.mpr hroom))))))

end

theorem graphLoadDone_idle {s : State} (h : s.loop.loads = []) : exec .graphLoadDone s = .next s := by
  show execGraphLoadDone s = _
  simp -zeta only [execGraphLoadDone, h]

/-! ### What a load touches -/

/-- The engines of a stage serve no graph any more. -/
def enginesReleased (n : Nat) (s : State) : State :=
  { s with loop := { s.loop with engines := s.loop.engines.map (fun e => if e.stage = some n then { engine0 with service := e.service } else e) } }

theorem getEngine_enginesReleased (n : Nat) (s : State) (e : Nat) : (getEngine (enginesReleased n s) e).stage ≠ some n := by
  unfold getEngine enginesReleased
  rw [List.getD_eq_getElem?_getD, List.getElem?_map]
  cases s.loop.engines[e]? with
  | none => exact (Option.some_ne_none _).symm
  | some x =>
    simp only [Option.map_some, Option.getD_some]
    split
    · exact (Option.some_ne_none _).symm
    · assumption

/-- An unload, for a reading that shows nothing of the forming units. -/
theorem unloadGraph_reading {α : Type} {v : State → α} (hv : FormBlind v) (n : Nat) (s : State) :
    v (unloadGraph n s) = v (updStage n (fun x => { x with graph := none, dill := dillConf0 }) (enginesReleased n s)) :=
  forEach_reading (fun u s => updFu_reading hv u _ s) _ _

/-- An install, for a reading that shows nothing of the forming units and the engines. -/
theorem installGraph_reading {α : Type} {v : State → α} (hv : FormBlind v) (heng : ∀ s es, v { s with loop := { s.loop with engines := es } } = v s)
    (hst : ∀ n f s, v (updStage n f s) = v s) (n : Nat) (g : Graph) (s : State) : v (installGraph n g s) = v s :=
  (refeed_reading hv ..).trans ((hst ..).trans ((foldl_reading (fun s _ => heng s _) _ _).trans ((unloadGraph_reading hv ..).trans ((hst ..).trans (heng ..)))))

/-- The memory and the loads of the loop, and the PWM island. -/
def aroundGraphs (s : State) : List Host.Cell × List GraphLoad × Pwm := (s.loop.mem, s.loop.loads, s.pwm)

theorem aroundGraphs_unloadGraph (n : Nat) (s : State) : aroundGraphs (unloadGraph n s) = aroundGraphs s := unloadGraph_reading (v := aroundGraphs) (fun _ _ _ _ => rfl) ..

theorem aroundGraphs_installGraph (n : Nat) (g : Graph) (s : State) : aroundGraphs (installGraph n g s) = aroundGraphs s :=
  installGraph_reading (v := aroundGraphs) (fun _ _ _ _ => rfl) (fun _ _ => rfl) (fun _ _ _ => rfl) ..

section
variable {s : State} {n : Nat}

theorem getEngine_unloadGraph (e : Nat) : (getEngine (unloadGraph n s) e).stage ≠ some n := by
  rw [unloadGraph_reading (v := fun s => getEngine s e) (fun _ _ _ _ => rfl)]
  exact getEngine_enginesReleased n s e

variable (hlen : n < s.loop.stages.length)
include hlen

theorem getStage_unloadGraph : getStage (unloadGraph n s) n = { getStage s n with graph := none, dill := dillConf0 } :=
  (unloadGraph_reading (v := fun s => getStage s n) (fun _ _ _ _ => rfl) ..).trans (getStage_updStage_same hlen)

theorem getStage_installGraph (g : Graph) :
    getStage (installGraph n g s) n = { getStage s n with graph := some { g with phys := (enginesFree s n).take g.engines }, dill := dillConf0 } := by
  have hlen1 : (unloadGraph n s).loop.stages.length = s.loop.stages.length :=
    (unloadGraph_reading (v := fun s => s.loop.stages.length) (fun _ _ _ _ => rfl) ..).trans (upd_length ..)
  unfold installGraph
  extract_lets phys s1 s2 s3
  have hstages : s2.loop.stages = s1.loop.stages :=
    foldl_reading (v := fun s => s.loop.stages) (f := fun s (p : Nat × Nat) => updEngine p.1 (fun x => { x with stage := some n, logical := p.2 }) s) (fun _ _ => rfl) _ _
  have hget : getStage s2 n = getStage s1 n := congrArg (·.getD n stage0) hstages
  have hfeed : getStage (refeed n s3) n = getStage s3 n := refeed_reading (v := fun s => getStage s n) (fun _ _ _ _ => rfl) ..
  rw [hfeed, getStage_updStage_same (by rw [hstages, hlen1]; exact hlen), hget, getStage_unloadGraph hlen]

end

/-! ### O35: GRAPH_START (R134 to R136, R362, R534) -/

/-- A card whose request the start governor defers. -/
theorem next_runCard_deferred {mine : Req → Bool} {card : Card} {via : Transport} {s t : State} {r : Req} {op : U16} {k : Nat} (h : Takes op via s r)
    (hm : mine r = true) (hl : card.lifecycle (dropRequest s via) r = true) (ha : card.allowed s.sys.dev = true)
    (hr : card.run (taken s via) r = .deferred t k) : Host.Outcome.next (runCard mine card via s) = replied r DEFERRED (n16 k) t := by
  rw [runCard_takes h hm hl ha, hr]
  rfl

/-- The conditions under which a start of an OFF stage is carried out (R135, R137). -/
def StartAdmitted (s : State) (n : Nat) (g : Graph) : Prop :=
  (getStage s n).st = .off ∧ (getStage s n).graph = some g ∧ (getStage s n).waitStart = false ∧ (∀ e ∈ s.gov.release, e.unit ≠ n)
    ∧ (∀ e ∈ s.gov.precharge, (stageHbs s n).contains e.unit = false) ∧ startReady s n g = true
    ∧ (if g.divider ≠ 0 then 16000 ≤ g.divider * frameShortest s g else 1000 ≤ g.minPeriod) ∧ startLost s n g = false
    ∧ s.gov.release.length < 8 ∧ s.gov.precharge.length + (prechargeHbs s n).length ≤ 8 ∧ startUnready s n = false

theorem StartAdmitted.taken {s : State} {n : Nat} {g : Graph} (h : StartAdmitted s n g) (via : Transport) : StartAdmitted (taken s via) n g := by
  rw [taken_change]
  exact h

/-- The stage that a start asks for takes its mode and the tag of the request. -/
def startAsked (r : Req) (n m : Nat) (s : State) : State := updStage n (fun y => { y with mode := m, modes := [], startTag := reqTag r }) s

/-- The start has passed the release of the driver supplies, where it needs one. -/
def startPassed (r : Req) (n m : Nat) (s : State) : State := if needsRelease s n then passRelease n (startAsked r n m s) else startAsked r n m s

/-- The start has to wait for the release of another stage. -/
def releaseWaits (s : State) (n : Nat) : Bool := needsRelease s n && (!s.gov.release.isEmpty || !releaseFree s)

theorem releaseWaits_iff {s : State} {n : Nat} : releaseWaits s n = true ↔ needsRelease s n = true ∧ (s.gov.release ≠ [] ∨ releaseFree s = false) := by
  simp [releaseWaits]

/-- The start enters the queue of the driver supplies. -/
def releaseQueued (r : Req) (n : Nat) (s : State) : State :=
  { s with gov := { s.gov with release := s.gov.release ++ [{ unit := n, opcode := 0x0601, tag := reqTag r, owed := some (owedOf r) }] } }

theorem startReply_of_st {s : State} {n : Nat} {st : StageState} (h : (getStage s n).st = st) (f : U32) :
    startReply s n f = n8 (stageCode st) ++ zeros 3 ++ le32 f := by rw [startReply, h]

/-- What becomes of a start that passes, as a swap of one of its resources is in progress or not. -/
def startBegun (swaps : Bool) (n : Nat) (s : State) : State := if swaps then updStage n (fun y => { y with waitStart := true }) s else enterStarting n s

section
variable {s : State} {r : Req} {n : Nat} {g : Graph} {m : Byte}

/-- GRAPH_START of a stage without graph or that is not OFF. -/
theorem startRun_of_no_start (hp : reqParams r = [BitVec.ofNat 8 n, m, 0, 0]) (hn : n < 8) (hst : (getStage s n).st ≠ .shuttingDown)
    (h : (getStage s n).graph = none ∨ (getStage s n).st ≠ .off) : startRun s r = rejectWith E_STATE := by
  have hn0 : n8At (reqParams r) 0 = n := by rw [hp]; simp [n8At, byteAt]; omega
  unfold startRun
  extract_lets p n' x waits
  have hx : n' = n := hn0
  clear_value n'
  subst hx
  rw [if_neg (by simpa [x] using fun _ => hst), if_pos hn]
  cases hg : x.graph with
  | none => rfl
  | some g =>
    exact if_pos (.inl (h.resolve_left (by rw [show (getStage s n').graph = some g from hg]; exact Option.some_ne_none g)))

/-- A start that is admitted waits for a release, waits for its precharge, or begins. -/
theorem startRun_of_admitted (hp : reqParams r = [BitVec.ofNat 8 n, m, 0, 0]) (hn : n < 8) (hm : m.toNat ≤ 3) (h : StartAdmitted s n g) :
    startRun s r = if releaseWaits s n then .deferred (releaseQueued r n (startAsked r n m.toNat s)) (s.gov.release.length + 1)
      else if prechargeWaits s n then .deferred (awaitPrecharge n (some (owedOf r)) (startPassed r n m.toNat s)) (s.gov.precharge.length + 1)
      else .done (startBegun (swapPending s n) n (startPassed r n m.toNat s)) (startReply (startBegun (swapPending s n) n (startPassed r n m.toNat s)) n 0) := by
  obtain ⟨hoff, hg, hwait, hrel, hpre, hready, hper, hlost, hroom, hroom', hun⟩ := h
  have hn0 : n8At (reqParams r) 0 = n := by rw [hp]; simp [n8At, byteAt]; omega
  have hm1 : n8At (reqParams r) 1 = m.toNat := by rw [hp]; rfl
  have hform : ¬ ((reqParams r).length ≠ 4 ∨ n8At (reqParams r) 1 > 3 ∨ n8At (reqParams r) 2 ≠ 0 ∨ byteAt (reqParams r) 3 ≠ 0) := by
    rw [hm1, hp]; simp [n8At, byteAt]; omega
  have hlong : ¬ (if g.divider ≠ 0 then g.divider * frameShortest s g < 16000 else g.minPeriod < 1000) := by
    split at hper <;> simp_all
  unfold startRun
  extract_lets p n' x waits s1 s2
  have hx : n' = n := hn0
  clear_value n'
  subst hx
  have hw : waits = false := by
    simp only [waits, Bool.or_eq_false_iff, List.any_eq_false, decide_eq_true_eq]
    exact ⟨⟨hwait, hrel⟩, fun e he => Bool.eq_false_iff.mp (hpre e he)⟩
  have hs1 : s1 = startAsked r n' m.toNat s := by simp only [s1, startAsked, p, hm1]
  clear_value s1
  subst hs1
  have hgr : (if n' < 8 then some x.graph else none) = some (some g) := by rw [if_pos hn]; exact congrArg some hg
  rw [if_neg (by simp [x, hoff])]
  simp -zeta only [hgr]
  rw [if_neg (by simp [x, hoff, hw, hready]), if_neg hform, if_neg hlong, if_neg (by simp [hlost]), if_neg (by omega), if_neg (by simp [hun])]
  have hrw : (needsRelease s n' = true ∧ ((!s.gov.release.isEmpty) = true ∨ (!releaseFree s) = true)) = (releaseWaits s n' = true) := by simp [releaseWaits]
  simp only [hrw]
  rfl

/-! ### What a start that passes shows -/

theorem getStage_startAsked (hlen : n < s.loop.stages.length) (k : Nat) :
    getStage (startAsked r n k s) n = { getStage s n with mode := k, modes := [], startTag := reqTag r } := getStage_updStage_same hlen

theorem getStage_startPassed (hlen : n < s.loop.stages.length) (k : Nat) :
    getStage (startPassed r n k s) n = { getStage s n with mode := k, modes := [], startTag := reqTag r, waitStart := needsRelease s n || (getStage s n).waitStart } := by
  unfold startPassed
  cases h : needsRelease s n with
  | false => exact (getStage_startAsked hlen k)
  | true =>
    rw [if_pos rfl]
    exact (getStage_updStage_same (by simpa [startAsked, updStage, upd_length] using hlen)).trans (congrArg (fun x : Stage => { x with waitStart := true }) (getStage_startAsked hlen k))

/-- What passes of a start shows to a reading of neither stages nor pins nor the time of the last release. -/
theorem startPassed_reading {α : Type} {v : State → α} (hst : ∀ f s, v (updStage n f s) = v s)
    (hp : ∀ s l a b c, v { s with gov := { s.gov with lastRelease := l }, sys := { s.sys with released := a, safeOffA := b, safeOffB := c } } = v s)
    (k : Nat) (s : State) : v (startPassed r n k s) = v s := by
  unfold startPassed
  split
  · exact (hst ..).trans ((hp ..).trans (hst ..))
  · exact hst ..

theorem released_startPassed (h : needsRelease s n = true) (k : Nat) :
    let u := startPassed r n k s
    u.gov.lastRelease = some s.time.raw ∧ u.sys.released = true ∧ u.sys.safeOffA = gatesPass s ∧ u.sys.safeOffB = gatesPass s := by
  simp only [startPassed, h, if_true]
  exact ⟨rfl, rfl, rfl, rfl⟩

end

/-! ### A start in the queue of the precharges -/

/-- The precharge of one half-bridge of a stage enters the queue. -/
def queuePrecharge (n h : Nat) (s : State) : State :=
  { (updHb h (fun x => { x with preDue := true }) s) with
    gov := { s.gov with precharge := s.gov.precharge ++ [{ unit := h, opcode := 0x0601, tag := (getStage s n).startTag, owed := none }] } }

theorem precharge_queued (n : Nat) (l : List Nat) (s : State) :
    (forEach l (queuePrecharge n) s).gov.precharge = s.gov.precharge ++ l.map (fun h => { unit := h, opcode := 0x0601, tag := (getStage s n).startTag, owed := none }) := by
  induction l generalizing s with
  | nil => exact (List.append_nil _).symm
  | cons h l ih => exact (ih (queuePrecharge n h s)).trans (List.append_assoc ..)

theorem precharge_queuePrecharges {n : Nat} {s : State} (h : ∀ b ∈ prechargeHbs s n, (getHb s b).preDue = false) :
    (queuePrecharges n s).gov.precharge = s.gov.precharge ++ (prechargeHbs s n).map (fun h => { unit := h, opcode := 0x0601, tag := (getStage s n).startTag, owed := none }) := by
  have hall : (prechargeHbs s n).filter (fun b => !(getHb s b).preDue) = prechargeHbs s n := List.filter_eq_self.mpr fun b hb => by simp [h b hb]
  rw [queuePrecharges, hall]
  exact precharge_queued n _ s

theorem getStage_awaitPrecharge {n : Nat} {s : State} (hlen : n < s.loop.stages.length) (o : Option Owed) :
    getStage (awaitPrecharge n o s) n = { getStage s n with startReq := o, waitStart := false } := by
  have hloop : (queuePrecharges n s).loop = s.loop := queuePrecharges_reading (v := State.loop) (fun _ _ => rfl) (fun _ _ => rfl) n s
  exact (getStage_updStage_same (by rw [hloop]; exact hlen)).trans (congrArg (fun x : Stage => { x with startReq := o, waitStart := false }) (getStage_of_loop hloop n))

/-! ### A start that enters STARTING -/

/-- A stage that enters STARTING while no source is in its trip condition keeps its mode, with its gate closed. -/
theorem enterStarting_eq_startQueued {n : Nat} {s : State} {g : Graph} (hg : (getStage s n).graph = some g) (hq : quiet s) :
    ∃ f, enterStarting n s = startQueued n f { s.gov with wakes := wakeEngines s.time.raw g.engines s.gov.wakes } s ∧ ∀ x, (f x).mode = x.mode ∧ (f x).gateOpen = false := by
  unfold enterStarting
  rw [hg]
  exact ⟨_, armTrips_of_quiet (startQueued_quiet hq _ _) _, fun _ => ⟨rfl, rfl⟩⟩

theorem passage_enterStarting {n : Nat} {s : State} {g : Graph} (hlen : n < s.loop.stages.length) (hg : (getStage s n).graph = some g) (hq : quiet s) :
    let t := enterStarting n s
    (getStage t n).mode = (getStage s n).mode ∧ (getStage t n).gateOpen = false ∧ t.gov.lastRelease = s.gov.lastRelease ∧ t.sys = s.sys := by
  obtain ⟨f, ht, hf⟩ := enterStarting_eq_startQueued hg hq
  obtain ⟨hmode, hgate⟩ := hf (getStage s n)
  have hget := getStage_startQueued hlen f { s.gov with wakes := wakeEngines s.time.raw g.engines s.gov.wakes }
  intro t
  rw [show t = _ from ht, hget]
  refine ⟨hmode, hgate, ?_, ?_⟩
  · refine (forEach_reading (v := fun s => s.gov.lastRelease) (f := queuePrecharge n) (fun _ _ => rfl) _ _).trans ?_
    refine ((show LogBlind (fun s => s.gov.lastRelease) from fun _ _ _ => rfl).of_log (capStageStarts_log ..)).trans ?_
    exact setStage_reading (v := fun s => s.gov.lastRelease) (fun _ _ _ => rfl) (fun _ _ _ => rfl) n _ _ (fun _ => rfl) _
  · exact startQueued_reading (v := State.sys) (fun _ _ _ => rfl) (fun _ _ _ => rfl) (fun _ _ => rfl) (fun _ _ => rfl) (fun _ _ => rfl) f _ s

/-! ### The request -/

section
variable {via : Transport} {s : State} {r : Req} {n : Nat} {m : Byte} (h : Takes 0x0601#16 via s r) (hrun : s.sys.dev = .run)
  (hp : reqParams r = [BitVec.ofNat 8 n, m, 0, 0]) (hn : n < 8)
include h hrun hp hn

omit hrun hn in
theorem startRow_of_takes : (isOp 0x0601#16 r && !modeOnly r) = true := by
  simp [isOp_takes h, modeOnly, hp, byteAt]

theorem graphStart_of_no_start (hst : (getStage s n).st ≠ .shuttingDown) (hno : (getStage s n).graph = none ∨ (getStage s n).st ≠ .off) :
    exec (.graphStart via) s = replied r E_STATE [] (dropRequest s via) :=
  next_runCard_reject h (startRow_of_takes h hp) rfl (by simp [runOnlyCard, hrun])
    (startRun_of_no_start hp hn (by rwa [getStage_taken]) (by rwa [getStage_taken]))

variable {g : Graph} (hm : m.toNat ≤ 3) (ha : StartAdmitted s n g)
include hm ha

theorem graphStart_of_release_waits (hw : releaseWaits s n = true) :
    exec (.graphStart via) s = replied r DEFERRED (n16 (s.gov.release.length + 1)) (releaseQueued r n (startAsked r n m.toNat (taken s via))) := by
  have hcard := startRun_of_admitted hp hn hm (ha.taken via)
  rw [if_pos ((taken_reading (v := fun s => releaseWaits s n) (fun _ _ _ _ => rfl) s via).trans hw), taken_gov] at hcard
  exact next_runCard_deferred h (startRow_of_takes h hp) rfl (by simp [runOnlyCard, hrun]) hcard

variable (hw : releaseWaits s n = false)
include hw

omit h hrun in
theorem startRun_of_passed : startRun (taken s via) r =
    if prechargeWaits s n then .deferred (awaitPrecharge n (some (owedOf r)) (startPassed r n m.toNat (taken s via))) (s.gov.precharge.length + 1)
      else .done (startBegun (swapPending s n) n (startPassed r n m.toNat (taken s via)))
        (startReply (startBegun (swapPending s n) n (startPassed r n m.toNat (taken s via))) n 0) := by
  rw [startRun_of_admitted hp hn hm (ha.taken via), if_neg (Bool.eq_false_iff.mp ((taken_reading (v := fun s => releaseWaits s n) (fun _ _ _ _ => rfl) s via).trans hw)),
    taken_reading (v := fun s => prechargeWaits s n) (fun _ _ _ _ => rfl), taken_reading (v := fun s => swapPending s n) (fun _ _ _ _ => rfl), taken_gov]

theorem graphStart_of_precharge_waits (hpw : prechargeWaits s n = true) :
    exec (.graphStart via) s =
      replied r DEFERRED (n16 (s.gov.precharge.length + 1)) (awaitPrecharge n (some (owedOf r)) (startPassed r n m.toNat (taken s via))) :=
  next_runCard_deferred h (startRow_of_takes h hp) rfl (by simp [runOnlyCard, hrun]) ((startRun_of_passed hp hn hm ha hw).trans (if_pos hpw))

theorem graphStart_of_begun (hpw : prechargeWaits s n = false) : ∀ t, t = startBegun (swapPending s n) n (startPassed r n m.toNat (taken s via)) →
    exec (.graphStart via) s = replied r OK (startReply t n 0) t := by
  rintro _ rfl
  exact next_runCard_done h (startRow_of_takes h hp) rfl (by simp [runOnlyCard, hrun])
    ((startRun_of_passed hp hn hm ha hw).trans (if_neg (Bool.eq_false_iff.mp hpw)))

end

/-! ### What the outcomes of a start show -/

section
variable {via : Transport} {s : State} {r : Req} {n : Nat} {m : Nat} (hlen : n < s.loop.stages.length)

/-- The start of a request that has left its queue, once it has passed. -/
def passed (r : Req) (n m : Nat) (via : Transport) (s : State) : State := startPassed r n m (taken s via)

theorem passed_reading {α : Type} {v : State → α} (hst : ∀ f s, v (updStage n f s) = v s) (hgov : ∀ s l, v { s with gov := { s.gov with lastRelease := l } } = v s)
    (hq : ∀ (s : State) (c : CmdPort) (u : Machine.Udp) (y : Sys), v { s with cmd := c, udp := u, sys := y } = v s) : v (passed r n m via s) = v s :=
  (startPassed_reading hst (fun s l _ _ _ => (hq { s with gov := { s.gov with lastRelease := l } } s.cmd s.udp _).trans (hgov s l)) m _).trans (taken_reading hq s via)

include hlen in
theorem stages_passed : n < (passed r n m via s).loop.stages.length := by
  rw [passed_reading (v := fun s => s.loop.stages.length) (fun _ _ => upd_length ..) (fun _ _ => rfl) (fun _ _ _ _ => rfl)]
  exact hlen

include hlen in
theorem getStage_passed : getStage (passed r n m via s) n =
    { getStage s n with mode := m, modes := [], startTag := reqTag r, waitStart := needsRelease s n || (getStage s n).waitStart } := by
  have hneeds : needsRelease (taken s via) n = needsRelease s n := taken_reading (v := fun s => needsRelease s n) (fun _ _ _ _ => rfl) s via
  rw [passed, getStage_startPassed (by rwa [taken_loop]), getStage_taken, hneeds]

theorem prechargeHbs_passed : prechargeHbs (passed r n m via s) n = prechargeHbs s n :=
  passed_reading (v := fun s => prechargeHbs s n) (fun _ _ => rfl) (fun _ _ => rfl) (fun _ _ _ _ => rfl)

include hlen in
/-- A start that waits for a swap. -/
theorem swap_waits_passed (hoff : (getStage s n).st = .off) :
    let t := startBegun true n (passed r n m via s)
    startReply t n 0 = zeros 8 ∧ (getStage t n).st = .off ∧ (getStage t n).waitStart = true ∧ (getStage t n).mode = m ∧ t.time = s.time ∧ t.pwm = s.pwm := by
  have hl := stages_passed (r := r) (m := m) (via := via) hlen
  intro t
  have hget : getStage t n = { getStage (passed r n m via s) n with waitStart := true } := getStage_updStage_same hl
  rw [getStage_passed hlen] at hget
  refine ⟨startReply_of_st (st := .off) (by rw [hget]; exact hoff) 0, by rw [hget]; exact hoff, by rw [hget], by rw [hget], ?_, ?_⟩
  · exact passed_reading (v := State.time) (fun _ _ => rfl) (fun _ _ => rfl) (fun _ _ _ _ => rfl)
  · exact passed_reading (v := State.pwm) (fun _ _ => rfl) (fun _ _ => rfl) (fun _ _ _ _ => rfl)

include hlen in
/-- A start that waits for its first precharge. -/
theorem precharge_waits_passed (hoff : (getStage s n).st = .off) :
    let t := awaitPrecharge n (some (owedOf r)) (passed r n m via s)
    (getStage t n).st = .off ∧ (getStage t n).startReq = some (owedOf r) ∧ (getStage t n).mode = m
      ∧ ((∀ h ∈ prechargeHbs s n, (getHb s h).preDue = false) →
          t.gov.precharge = s.gov.precharge ++ (prechargeHbs s n).map (fun h => { unit := h, opcode := 0x0601, tag := reqTag r, owed := none })) ∧ t.time = s.time := by
  have hl := stages_passed (r := r) (m := m) (via := via) hlen
  have hhb : ∀ h, getHb (passed r n m via s) h = getHb s h := fun h =>
    passed_reading (v := fun s => getHb s h) (fun _ _ => rfl) (fun _ _ => rfl) (fun _ _ _ _ => rfl)
  have hpre : (passed r n m via s).gov.precharge = s.gov.precharge := passed_reading (v := fun s => s.gov.precharge) (fun _ _ => rfl) (fun _ _ => rfl) (fun _ _ _ _ => rfl)
  intro t
  have hget : getStage t n = _ := getStage_awaitPrecharge hl _
  rw [getStage_passed hlen] at hget
  refine ⟨by rw [hget]; exact hoff, by rw [hget], by rw [hget], fun hdue => ?_, ?_⟩
  · have hq := precharge_queuePrecharges (s := passed r n m via s) (n := n) (by rw [prechargeHbs_passed]; simpa only [hhb] using hdue)
    rw [getStage_passed hlen, prechargeHbs_passed, hpre] at hq
    exact hq
  · exact (queuePrecharges_reading (v := State.time) (fun _ _ => rfl) (fun _ _ => rfl) ..).trans
      (passed_reading (v := State.time) (fun _ _ => rfl) (fun _ _ => rfl) (fun _ _ _ _ => rfl))

include hlen in
/-- A start that enters STARTING with the request. -/
theorem starting_passed {g : Graph} (hg : (getStage s n).graph = some g) (hq : quiet s) :
    let t := startBegun false n (passed r n m via s)
    startReply t n 0 = n8 1 ++ zeros 7 ∧ (getStage t n).st = .starting ∧ (getStage t n).mode = m ∧ (getStage t n).frameIndex = 0
      ∧ (getStage t n).ts = some (startInstant (getTimer s g.frameTimer).align (max s.time.raw ((wakeEngines s.time.raw g.engines s.gov.wakes).headD 0)))
      ∧ (getStage t n).gateOpen = false ∧ t.time = s.time
      ∧ (needsRelease s n = true → t.gov.lastRelease = some s.time.raw ∧ t.sys.released = true ∧ t.sys.safeOffA = gatesPass s ∧ t.sys.safeOffB = gatesPass s) := by
  have hl := stages_passed (r := r) (m := m) (via := via) hlen
  have hgraph : (getStage (passed r n m via s) n).graph = some g := by rw [getStage_passed hlen]; exact hg
  have hquiet : quiet (passed r n m via s) := (passed_reading (v := quiet) (fun _ _ => rfl) (fun _ _ => rfl) (fun _ _ _ _ => rfl)).mpr hq
  have htime : (passed r n m via s).time = s.time := passed_reading (v := State.time) (fun _ _ => rfl) (fun _ _ => rfl) (fun _ _ _ _ => rfl)
  have hwakes : (passed r n m via s).gov.wakes = s.gov.wakes := passed_reading (v := fun s => s.gov.wakes) (fun _ _ => rfl) (fun _ _ => rfl) (fun _ _ _ _ => rfl)
  have htimer : getTimer (passed r n m via s) g.frameTimer = getTimer s g.frameTimer :=
    passed_reading (v := fun s => getTimer s g.frameTimer) (fun _ _ => rfl) (fun _ _ => rfl) (fun _ _ _ _ => rfl)
  obtain ⟨hst, -, hframe, -, hts, -, ht⟩ := enterStarting_of_quiet hl hgraph hquiet
  obtain ⟨hmode, hgate, hlast, hsys⟩ := passage_enterStarting hl hgraph hquiet
  intro t
  rw [htime, hwakes, htimer] at hts
  refine ⟨startReply_of_st hst 0, hst, hmode.trans (by rw [getStage_passed hlen]), hframe, hts, hgate, ht.trans htime, fun hneeds => ?_⟩
  · rw [show t.gov.lastRelease = _ from hlast, show t.sys = _ from hsys]
    have hrel := released_startPassed (r := r) ((taken_reading (v := fun s => needsRelease s n) (fun _ _ _ _ => rfl) s via).trans hneeds) m
    rw [taken_time, show gatesPass (taken s via) = gatesPass s from taken_reading (v := gatesPass) (fun _ _ _ _ => rfl) s via] at hrel
    exact hrel

end
theorem prechargeWaits_eq_false {s : State} {n : Nat} (h : prechargeHbs s n = [] ∨ prechargeFree s = true) : prechargeWaits s n = false := by
  rcases h with h | h <;> simp [prechargeWaits, h]

section
variable {via : Transport} {s : State} {r : Req} {n : Nat} {m : Byte} {g : Graph} (h : Takes 0x0601#16 via s r) (hrun : s.sys.dev = .run)
  (hp : reqParams r = [BitVec.ofNat 8 n, m, 0, 0]) (hn : n < 8) (hm : m.toNat ≤ 3) (ha : StartAdmitted s n g) (hw : releaseWaits s n = false)
  (hlen : n < s.loop.stages.length)
include h hrun hp hn hm ha hw hlen

theorem graphStart_waits_swap (hpre : prechargeHbs s n = [] ∨ prechargeFree s = true) (hswap : swapPending s n = true) :
    ∃ t, exec (.graphStart via) s = replied r OK (zeros 8) t ∧ (getStage t n).st = .off ∧ (getStage t n).waitStart = true ∧ (getStage t n).mode = m.toNat
      ∧ t.time = s.time ∧ t.pwm = s.pwm := by
  obtain ⟨hreply, hshown⟩ := swap_waits_passed (via := via) (r := r) (m := m.toNat) hlen ha.1
  have hexec := graphStart_of_begun h hrun hp hn hm ha hw (prechargeWaits_eq_false hpre) _ rfl
  rw [hswap] at hexec
  exact ⟨_, hexec.trans (congrArg (fun b => replied r OK b _) hreply), hshown⟩

theorem graphStart_starts (hpre : prechargeHbs s n = [] ∨ prechargeFree s = true) (hswap : swapPending s n = false) (hq : quiet s) :
    ∃ t, exec (.graphStart via) s = replied r OK (n8 1 ++ zeros 7) t ∧ (getStage t n).st = .starting ∧ (getStage t n).mode = m.toNat ∧ (getStage t n).frameIndex = 0
      ∧ (getStage t n).ts = some (startInstant (getTimer s g.frameTimer).align (max s.time.raw ((wakeEngines s.time.raw g.engines s.gov.wakes).headD 0)))
      ∧ (getStage t n).gateOpen = false ∧ t.time = s.time
      ∧ (needsRelease s n = true → t.gov.lastRelease = some s.time.raw ∧ t.sys.released = true ∧ t.sys.safeOffA = gatesPass s ∧ t.sys.safeOffB = gatesPass s) := by
  obtain ⟨hreply, hshown⟩ := starting_passed (via := via) (r := r) (m := m.toNat) hlen ha.2.1 hq
  have hexec := graphStart_of_begun h hrun hp hn hm ha hw (prechargeWaits_eq_false hpre) _ rfl
  rw [hswap] at hexec
  exact ⟨_, hexec.trans (congrArg (fun b => replied r OK b _) hreply), hshown⟩

end

/-! ### O35: requests of the parameter queue (R223, R243, R245, R261) -/

section
variable {mine : Req → Bool} {card : Card} {via : Transport} {s : State}

theorem paramRow_of_room (h : paramFull s = false) : paramRow mine card via s = runCard mine card via s := by simp [paramRow, h]

/-- The pair holds a request of its row while the parameter queue is full. -/
theorem paramRow_of_full {op : U16} {r : Req} (h : paramFull s = true) (ht : Takes op via s r) (hm : mine r = true) :
    paramRow mine card via s = { s with cmd := { s.cmd with held := some via } } := by
  rw [paramRow, if_pos h, holdRequest]
  simp only [ht.1, hm, if_true]

end

section
variable {s : State} {r : Req} {n : Nat} {m : Byte}

theorem modeOnlyRun_of_enabled (hp : reqParams r = [BitVec.ofNat 8 n, m, 1, 0]) (hn : n < 8) (hm : m.toNat ≤ 3) (hlen : n < s.loop.stages.length)
    (hst : (getStage s n).st = .enabled) (hg : (getStage s n).graph ≠ none) :
    modeOnlyRun s r = .done (enqueueParam n 0 (updStage n (fun y => { y with modes := y.modes ++ [((getStage s n).newest + 1, m.toNat)] }) s))
      (n8 2 ++ zeros 3 ++ le32 ((getStage s n).newest + 1)) := by
  have hn0 : n8At (reqParams r) 0 = n := by rw [hp]; simp [n8At, byteAt]; omega
  have hm1 : n8At (reqParams r) 1 = m.toNat := by rw [hp]; rfl
  have hform : ¬ ((reqParams r).length ≠ 4 ∨ n8At (reqParams r) 1 > 3 ∨ n8At (reqParams r) 2 ≠ 1 ∨ byteAt (reqParams r) 3 ≠ 0) := by
    rw [hm1, hp]; simp [n8At, byteAt]; omega
  simp only [modeOnlyRun, hn0]
  rw [if_neg (by omega), if_neg (by simp [hst]), if_neg (by simpa [hst, Option.isNone_iff_eq_none] using hg), if_neg hform, hm1]
  refine congrArg (CardResult.done _) (startReply_of_st (st := .enabled) ?_ _)
  exact (congrArg Stage.st (getStage_updStage_same hlen)).trans hst

theorem graphStartModeOnly_of_enabled {via : Transport} (h : Takes 0x0601#16 via s r) (hrun : s.sys.dev = .run)
    (hp : reqParams r = [BitVec.ofNat 8 n, m, 1, 0]) (hn : n < 8) (hm : m.toNat ≤ 3) (hlen : n < s.loop.stages.length)
    (hst : (getStage s n).st = .enabled) (hg : (getStage s n).graph ≠ none) (hroom : paramFull s = false) :
    exec (.graphStartModeOnly via) s = replied r OK (n8 2 ++ zeros 3 ++ le32 ((getStage s n).newest + 1))
      (enqueueParam n 0 (updStage n (fun y => { y with modes := y.modes ++ [((getStage s n).newest + 1, m.toNat)] }) (taken s via))) := by
  have hcard := modeOnlyRun_of_enabled (s := taken s via) hp hn hm (by rwa [taken_loop]) (by rwa [getStage_taken]) (by rwa [getStage_taken])
  rw [getStage_taken] at hcard
  show Host.Outcome.next (paramRow modeOnly (runOnlyCard modeOnlyRun) via s) = _
  rw [paramRow_of_room hroom]
  exact next_runCard_done h (by simp [modeOnly, isOp_takes h, hp, byteAt]) rfl (by simp [runOnlyCard, hrun]) hcard

end

/-! ### GRAPH_WRITE_PARAM -/

/-- What a write asks for: the stage, the first word and the values, with every check of their form. -/
def WriteFormed (p : Bytes) (n c first : Nat) (g : Graph) : Prop :=
  n8At p 0 = n ∧ byteAt p 1 = 0 ∧ n16At p 2 = c ∧ n16At p 4 = first ∧ zeroAt p 6 2 = true ∧ 1 ≤ c ∧ c ≤ 254 ∧ p.length = 8 + 4 * c
    ∧ first + c ≤ g.nParams ∧ ∀ i < c, f32Bad (u32At p (8 + 4 * i)) = false

/-- The values of a write. -/
def writeVals (p : Bytes) (c : Nat) : List F32 := (List.range c).map (fun i => u32At p (8 + 4 * i))

/-- The write as the stage keeps it, for the frames from one on. -/
def writeKept (p : Bytes) (n c first : Nat) (f : U32) (s : State) : State :=
  updStage n (fun y => { y with writes := y.writes ++ [{ apply := f, first := first, vals := writeVals p c }] }) s

/-- A parameter word as the write would leave it. -/
def viewOf (p : Bytes) (c first : Nat) (old : Nat → F32) (k : Nat) : F32 :=
  if first ≤ k ∧ k < first + c then f32Param (u32At p (8 + 4 * (k - first))) else old k

section
variable {s : State} {r : Req} {n c first : Nat} {g : Graph}

/-- A formed write whose view keeps what holds of the graphs. -/
theorem writeParamRun_of_formed (hf : WriteFormed (reqParams r) n c first g) (hn : n < 8) (hst : (getStage s n).st ≠ .shuttingDown)
    (hg : (getStage s n).graph = some g) {f : U32} (hframe : f = if (getStage s n).st = .off then 0xFFFFFFFF#32 else (getStage s n).newest + 1)
    {view : Nat → F32} (hview : view = viewOf (reqParams r) c first (if (getStage s n).st = .off then graphParam s g else paramFor s n f))
    (hblocks : (graphNodes s g).all (blockOk g view) = true) (hapart : viewApart s n g view = true) :
    writeParamRun s r = .done (enqueueParam n c (if (getStage s n).st = .off then applyWrites n none (writeKept (reqParams r) n c first f s) else writeKept (reqParams r) n c first f s)) (le32 f) := by
  obtain ⟨hn0, hb1, hc, hfirst, hres, hc1, hc2, hlen, hsize, hvals⟩ := hf
  have hform : ¬ (byteAt (reqParams r) 1 ≠ 0 ∨ c < 1 ∨ c > 254 ∨ (reqParams r).length ≠ 8 + 4 * c ∨ first + c > g.nParams ∨ (!zeroAt (reqParams r) 6 2) = true
      ∨ (writeVals (reqParams r) c).any f32Bad = true) := by
    have hany : (writeVals (reqParams r) c).any f32Bad = false := by simpa [writeVals] using hvals
    simp only [hb1, hlen, hres, hany]
    simp
    omega
  unfold writeParamRun
  extract_lets p n' c' first' x vals f' s1 s2
  have hn' : n' = n := hn0
  have hc' : c' = c := hc
  have hfirst' : first' = first := hfirst
  clear_value n' c' first'
  subst hn' hc' hfirst'
  rw [if_neg (by omega), if_neg hst]
  simp -zeta only [show x.graph = some g from hg]
  extract_lets view'
  have hf' : f' = f := hframe.symm
  clear_value f'
  subst hf'
  have hv' : view' = view := by
    rw [hview]
    funext k
    simp only [view', viewOf, vals, x, p]
    split
    · next hk => rw [List.getD_eq_getElem?_getD, List.getElem?_map, List.getElem?_range (by omega)]; rfl
    · split <;> rfl
  rw [hv']
  exact (if_neg hform).trans ((if_neg (by simp [hblocks, hapart])).trans rfl)

end

/-- The only write of an OFF stage enters the image; nothing of the PWM island, of the filters or of the queue changes. -/
theorem applyWrites_one {s : State} {n : Nat} {g : Graph} {w : ParamWrite} (hg : (getStage s n).graph = some g) (hw : (getStage s n).writes = [w]) :
    let t := applyWrites n none s
    t.loop.mem = memWriteBytes s.loop.mem (g.offset + g.paramOff + 4 * w.first) (w.vals.flatMap le32) ∧ t.loop.pqueue = s.loop.pqueue ∧ t.pwm = s.pwm ∧ t.flt = s.flt := by
  intro t
  have hfold : ∃ f, foldWrites n none s =
      updStage n f { s with loop := { s.loop with mem := memWriteBytes s.loop.mem (g.offset + g.paramOff + 4 * w.first) (w.vals.flatMap le32) } } := by
    simp only [foldWrites, hg, hw]
    exact ⟨_, rfl⟩
  obtain ⟨f, hfold⟩ := hfold
  have ht : (t.loop, t.pwm, t.flt) = ((foldWrites n none s).loop, (foldWrites n none s).pwm, (foldWrites n none s).flt) :=
    refeed_reading (v := fun s => (s.loop, s.pwm, s.flt)) (fun _ _ _ _ => rfl) ..
  rw [hfold] at ht
  exact ⟨congrArg (fun x => x.1.mem) ht, congrArg (fun x => x.1.pqueue) ht, congrArg (fun x => x.2.1) ht, congrArg (fun x => x.2.2) ht⟩

section
variable {via : Transport} {s : State} {r : Req} {n c first : Nat} {g : Graph} (h : Takes 0x0605#16 via s r) (hdev : s.sys.dev ≠ .boot) (hn : n < 8)
  (hroom : paramFull s = false) (hf : WriteFormed (reqParams r) n c first g) (hg : (getStage s n).graph = some g) {view : Nat → F32}
  (hblocks : (graphNodes s g).all (blockOk g view) = true) (hapart : viewApart s n g view = true)
include h hdev hn hroom hf hg hblocks hapart

theorem graphWriteParam_of_formed (hst : (getStage s n).st ≠ .shuttingDown) {f : U32} (hframe : f = if (getStage s n).st = .off then 0xFFFFFFFF#32 else (getStage s n).newest + 1)
    (hview : view = viewOf (reqParams r) c first (if (getStage s n).st = .off then graphParam s g else paramFor s n f)) :
    exec (.graphWriteParam via) s = replied r OK (le32 f) (enqueueParam n c (if (getStage s n).st = .off
      then applyWrites n none (writeKept (reqParams r) n c first f (taken s via)) else writeKept (reqParams r) n c first f (taken s via))) := by
  have hcard := writeParamRun_of_formed (s := taken s via) hf hn (by rwa [getStage_taken]) (by rwa [getStage_taken]) (f := f) (by rwa [getStage_taken])
    (view := view) (by rw [hview, getStage_taken, taken_reading (v := fun s => graphParam s g) (fun _ _ _ _ => rfl), taken_reading (v := fun s => paramFor s n f) (fun _ _ _ _ => rfl)])
    ((taken_reading (v := fun s => (graphNodes s g).all (blockOk g view)) (fun _ _ _ _ => rfl) s via).trans hblocks)
    ((taken_reading (v := fun s => viewApart s n g view) (fun _ _ _ _ => rfl) s via).trans hapart)
  rw [getStage_taken] at hcard
  show Host.Outcome.next (paramRow (isOp 0x0605#16) (graphCard writeParamRun) via s) = _
  rw [paramRow_of_room hroom]
  exact next_runCard_done h (isOp_takes h) rfl (inAll4_of_ne_boot hdev) hcard

theorem graphWriteParam_of_live (hoff : (getStage s n).st ≠ .off) (hst : (getStage s n).st ≠ .shuttingDown)
    (hview : ∀ k, view k = viewOf (reqParams r) c first (paramFor s n ((getStage s n).newest + 1)) k) :
    exec (.graphWriteParam via) s = replied r OK (le32 ((getStage s n).newest + 1))
      (enqueueParam n c (writeKept (reqParams r) n c first ((getStage s n).newest + 1) (taken s via))) := by
  have hexec := graphWriteParam_of_formed h hdev hn hroom hf hg hblocks hapart hst (if_neg hoff).symm ((funext hview).trans (by rw [if_neg hoff]))
  rw [if_neg hoff] at hexec
  exact hexec

theorem graphWriteParam_of_off (hlen : n < s.loop.stages.length) (hoff : (getStage s n).st = .off) (hw : (getStage s n).writes = [])
    (hview : ∀ k, view k = viewOf (reqParams r) c first (graphParam s g) k) :
    ∃ t, exec (.graphWriteParam via) s = replied r OK (le32 0xFFFFFFFF#32) t
      ∧ t.loop.mem = memWriteBytes s.loop.mem (g.offset + g.paramOff + 4 * first) ((List.range c).flatMap (fun i => le32 (u32At (reqParams r) (8 + 4 * i))))
      ∧ t.loop.pqueue = s.loop.pqueue ++ [{ stage := n, words := c }] ∧ t.pwm = s.pwm ∧ t.flt = s.flt := by
  have hexec := graphWriteParam_of_formed h hdev hn hroom hf hg hblocks hapart (by rw [hoff]; decide) (if_pos hoff).symm ((funext hview).trans (by rw [if_pos hoff]))
  rw [if_pos hoff] at hexec
  have hget : getStage (writeKept (reqParams r) n c first 0xFFFFFFFF#32 (taken s via)) n = _ := getStage_updStage_same (by rwa [taken_loop])
  rw [getStage_taken] at hget
  obtain ⟨hmem, hqueue, hpwm, hflt⟩ := applyWrites_one (s := writeKept (reqParams r) n c first 0xFFFFFFFF#32 (taken s via)) (n := n) (by rw [hget]; exact hg) (by rw [hget, hw]; rfl)
  refine ⟨_, hexec, ?_, ?_, ?_, ?_⟩
  · refine hmem.trans ?_
    rw [show (writeKept (reqParams r) n c first 0xFFFFFFFF#32 (taken s via)).loop.mem = s.loop.mem from (show (taken s via).loop.mem = s.loop.mem by rw [taken_loop])]
    simp only [writeVals, List.flatMap_map]
  · exact congrArg (· ++ _) (hqueue.trans (show (taken s via).loop.pqueue = s.loop.pqueue by rw [taken_loop]))
  · exact hpwm.trans (taken_pwm s via)
  · exact hflt.trans (taken_flt s via)

end

/-! ### O35: GRAPH_STOP (R138, R364) -/

/-- A stage's start has left the queues of the governor, before its removal is answered. -/
def startRemoved (n : Nat) (s : State) : State :=
  updStage n (fun x => { x with startReq := none, waitStart := false })
    (dropPrecharges (stageHbs s n) { s with gov := { s.gov with release := s.gov.release.filter (fun e => !decide (e.unit = n)) } })

theorem ReplyBlind.log {α : Type} {v : State → α} (hv : ReplyBlind v) : LogBlind v := fun s e c => hv s { s with evt := e, cap := c } rfl

/-- What the removal of a start shows to a reading of nothing that replies reach. -/
theorem removeStageStart_shown {α : Type} {v : State → α} (hv : ReplyBlind v) (n reason : Nat) (s : State) :
    v (removeStageStart n reason s) = v (startRemoved n s) :=
  foldl_reading (fun _ _ => (hv _ _ (settleStart_reply ..)).trans (post_reading hv.log ..)) _ _

/-- The stages, the governor, the PWM island and what stands around the loop. -/
def islands (s : State) : Loop × Governor × Pwm × Thyme × Safety × Rel × DevState := (s.loop, s.gov, s.pwm, s.time, s.safe, s.rel, s.sys.dev)

theorem islands_replyBlind : ReplyBlind islands := fun _ _ h => (congrArg islands h).trans rfl

section
variable {s : State} {n : Nat}

theorem islands_removeStageStart (reason : Nat) : islands (removeStageStart n reason s) = islands (startRemoved n s) := removeStageStart_shown islands_replyBlind n reason s

theorem loop_removeStageStart (reason : Nat) : (removeStageStart n reason s).loop = (startRemoved n s).loop := congrArg (·.1) (islands_removeStageStart reason)

theorem stages_removeStageStart (reason : Nat) : (removeStageStart n reason s).loop.stages.length = s.loop.stages.length := by
  rw [loop_removeStageStart]
  exact upd_length ..

theorem getStage_removeStageStart (hlen : n < s.loop.stages.length) (reason : Nat) :
    getStage (removeStageStart n reason s) n = { getStage s n with startReq := none, waitStart := false } := by
  rw [getStage_of_loop (loop_removeStageStart reason)]
  exact getStage_updStage_same hlen

theorem around_removeStageStart (reason : Nat) :
    let t := removeStageStart n reason s
    t.gov.release = s.gov.release.filter (fun e => !decide (e.unit = n)) ∧ t.pwm.channels = s.pwm.channels ∧ t.time = s.time ∧ t.safe = s.safe ∧ t.rel = s.rel
      ∧ t.sys.dev = s.sys.dev := by
  have h := islands_removeStageStart (s := s) (n := n) reason
  exact ⟨congrArg (·.2.1.release) h, congrArg (·.2.2.1.channels) h, congrArg (·.2.2.2.1) h, congrArg (·.2.2.2.2.1) h, congrArg (·.2.2.2.2.2.1) h, congrArg (·.2.2.2.2.2.2) h⟩

/-- A normal shutdown of a stage that is STARTING or ENABLED. -/
theorem normalShutdown_of_live (hlen : n < s.loop.stages.length) (hst : (getStage s n).st = .enabled ∨ (getStage s n).st = .starting) (cause : Nat) :
    let t := normalShutdown n cause s
    (getStage t n).st = .shuttingDown ∧ (getStage t n).tStop = some s.time.raw ∧ (getStage t n).frames = [] ∧ t.sys.dev = s.sys.dev ∧ t.safe = s.safe := by
  have hoff : (getStage s n).st ≠ .off := by rcases hst with h | h <;> rw [h] <;> decide
  obtain ⟨hsd, hframes, hstop⟩ := getStage_beginShutdown hlen hoff cause
  have ht : stagesShown (normalShutdown n cause s) = stagesShown (beginShutdown n cause s) ∧ standing (normalShutdown n cause s) = standing (beginShutdown n cause s) := by
    rcases hst with h | h
    · simp only [normalShutdown, h, and_self]
    · simp only [normalShutdown, h]
      split
      · exact ⟨stagesShown_chanStops .., forEach_reading (chanStop_reading standing_gateBlind) ..⟩
      · exact ⟨rfl, rfl⟩
  have hget := getStage_of_stagesShown ht.1 n
  have hstand := ht.2.trans (beginShutdown_reading_of_live standing_islandBlind hoff cause)
  exact ⟨(congrArg Stage.st hget).trans hsd, (congrArg Stage.tStop hget).trans hstop, (congrArg Stage.frames hget).trans hframes,
    congrArg (fun x => x.2.2.2.dev) hstand, congrArg (fun x => x.2.1) hstand⟩

end

/-- GRAPH_STOP of a stage: what its stop makes of it, once its waiting start is gone. -/
def stopped (n : Nat) (s : State) : State :=
  if (getStage (removeStageStart n 0 s) n).st = .lockedOut then settleIdle (stageOver n 0 (removeStageStart n 0 s)) else normalShutdown n 0 (removeStageStart n 0 s)

/-- The reply of GRAPH_STOP. -/
def stopReply (n : Nat) (s : State) : Bytes := n8 (stageCode (getStage s n).st) ++ zeros 3 ++ n32 (stageLeft s n)

theorem take_stopReply {n : Nat} {s : State} (h : (getStage s n).st = .shuttingDown) : (stopReply n s).take 1 = n8 3 := by rw [stopReply, h]; rfl

theorem stopReply_of_off {n : Nat} {s : State} (h : (getStage s n).st = .off) : stopReply n s = zeros 8 := by
  rw [stopReply, stageLeft_of_st (by rw [h]; decide), h]
  decide

section
variable {s : State} {n : Nat} (hlen : n < s.loop.stages.length)
include hlen

theorem st_removeStageStart : (getStage (removeStageStart n 0 s) n).st = (getStage s n).st := by rw [getStage_removeStageStart hlen]

theorem stopped_of_other (h : (getStage s n).st ≠ .lockedOut) : stopped n s = normalShutdown n 0 (removeStageStart n 0 s) :=
  if_neg (by rwa [st_removeStageStart hlen])

/-- A stage that has no shutdown to begin: only its waiting start goes. -/
theorem stopped_of_still (h : (getStage s n).st = .shuttingDown ∨ (getStage s n).st = .off) : stopped n s = removeStageStart n 0 s := by
  rw [stopped_of_other hlen (by rcases h with h | h <;> rw [h] <;> decide), normalShutdown, st_removeStageStart hlen]
  rcases h with h | h <;> rw [h]

theorem stopped_of_shuttingDown (h : (getStage s n).st = .shuttingDown) :
    (getStage (stopped n s) n).st = .shuttingDown ∧ (getStage (stopped n s) n).tStop = (getStage s n).tStop ∧ (stopped n s).pwm.channels = s.pwm.channels := by
  obtain ⟨-, hch, -⟩ := around_removeStageStart (s := s) (n := n) 0
  rw [stopped_of_still hlen (.inl h), getStage_removeStageStart hlen]
  exact ⟨h, rfl, hch⟩

theorem stopped_of_live (h : (getStage s n).st = .enabled ∨ (getStage s n).st = .starting) :
    (getStage (stopped n s) n).st = .shuttingDown ∧ (getStage (stopped n s) n).tStop = some s.time.raw ∧ (getStage (stopped n s) n).frames = []
      ∧ (stopped n s).sys.dev = s.sys.dev ∧ (stopped n s).safe = s.safe := by
  obtain ⟨-, -, htime, hsafe, -, hdev⟩ := around_removeStageStart (s := s) (n := n) 0
  have hlive := normalShutdown_of_live (s := removeStageStart n 0 s) (n := n) (by rwa [stages_removeStageStart]) (by rwa [st_removeStageStart hlen]) 0
  rw [htime, hsafe, hdev] at hlive
  rw [stopped_of_other hlen (by rcases h with h | h <;> rw [h] <;> decide)]
  exact hlive

theorem stopped_of_lockedOut (h : (getStage s n).st = .lockedOut) (hw : s.rel.waiting = []) :
    (getStage (stopped n s) n).st = .off ∧ (getStage (stopped n s) n).frames = [] := by
  obtain ⟨-, -, -, -, hrel, -⟩ := around_removeStageStart (s := s) (n := n) 0
  obtain ⟨hoff, hframes, -, -, -, -, hrel'⟩ := stageOver_of_live (s := removeStageStart n 0 s) (n := n) (by rwa [stages_removeStageStart])
    (by rw [st_removeStageStart hlen, h]; decide) 0
  rw [stopped, if_pos (by rwa [st_removeStageStart hlen]), settleIdle_of_none_waiting (by rw [hrel', hrel]; exact hw)]
  exact ⟨hoff, hframes⟩

theorem stopped_of_off (h : (getStage s n).st = .off) :
    (getStage (stopped n s) n).st = .off ∧ (∀ e ∈ (stopped n s).gov.release, e.unit ≠ n) ∧ (stopped n s).pwm.channels = s.pwm.channels := by
  obtain ⟨hrel, hch, -⟩ := around_removeStageStart (s := s) (n := n) 0
  rw [stopped_of_still hlen (.inr h), getStage_removeStageStart hlen, hrel]
  refine ⟨h, fun e he => ?_, hch⟩
  simpa using (List.mem_filter.mp he).2

end

section
variable {via : Transport} {s : State} {r : Req} {n : Nat} (h : Takes 0x0602#16 via s r) (hdev : s.sys.dev ≠ .boot) (hn : n8At (reqParams r) 0 = n)
  (hn8 : n < 8) (hl : (reqParams r).length = 4) (hres : zeroAt (reqParams r) 1 3 = true)
include h hdev hn hn8 hl hres

theorem graphStop_formed : ∀ t, t = stopped n (taken s via) → exec (.graphStop via) s = replied r OK (stopReply n t) t := by
  rintro _ rfl
  refine next_runCard_done h (isOp_takes h) rfl (inAll4_of_ne_boot hdev) ?_
  show stopRun _ r = _
  unfold stopRun
  extract_lets p n' s1 s2
  have hn' : n' = n := hn
  clear_value n'
  subst hn'
  exact if_neg (by simp [p, hl, hres]; omega)

variable (hlen : n < s.loop.stages.length)
include hlen

theorem graphStop_of_shuttingDown (hst : (getStage s n).st = .shuttingDown) :
    ∃ t pl, exec (.graphStop via) s = replied r OK pl t ∧ (getStage t n).st = .shuttingDown ∧ (getStage t n).tStop = (getStage s n).tStop ∧ pl.take 1 = n8 3
      ∧ t.pwm.channels = s.pwm.channels := by
  obtain ⟨hsd, hstop, hch⟩ := stopped_of_shuttingDown (s := taken s via) (n := n) (by rwa [taken_loop]) (by rwa [getStage_taken])
  rw [getStage_taken] at hstop
  exact ⟨_, _, graphStop_formed h hdev hn hn8 hl hres _ rfl, hsd, hstop, take_stopReply hsd, hch.trans (by rw [taken_pwm])⟩

theorem graphStop_of_live (hst : (getStage s n).st = .enabled ∨ (getStage s n).st = .starting) :
    ∃ t pl, exec (.graphStop via) s = replied r OK pl t ∧ (getStage t n).st = .shuttingDown ∧ (getStage t n).tStop = some s.time.raw ∧ (getStage t n).frames = []
      ∧ pl.take 1 = n8 3 ∧ t.sys.dev = s.sys.dev ∧ t.safe = s.safe := by
  obtain ⟨hsd, hstop, hframes, hd, hsafe⟩ := stopped_of_live (s := taken s via) (n := n) (by rwa [taken_loop]) (by rwa [getStage_taken])
  exact ⟨_, _, graphStop_formed h hdev hn hn8 hl hres _ rfl, hsd, hstop.trans (by rw [taken_time]), hframes, take_stopReply hsd, hd.trans (by rw [taken_sys]),
    hsafe.trans (by rw [taken_safe])⟩

theorem graphStop_of_lockedOut (hst : (getStage s n).st = .lockedOut) (hw : s.rel.waiting = []) :
    ∃ t, exec (.graphStop via) s = replied r OK (zeros 8) t ∧ (getStage t n).st = .off ∧ (getStage t n).frames = [] := by
  obtain ⟨hoff, hframes⟩ := stopped_of_lockedOut (s := taken s via) (n := n) (by rwa [taken_loop]) (by rwa [getStage_taken]) (by rwa [taken_rel])
  exact ⟨_, (graphStop_formed h hdev hn hn8 hl hres _ rfl).trans (congrArg (fun b => replied r OK b _) (stopReply_of_off hoff)), hoff, hframes⟩

theorem graphStop_of_off (hst : (getStage s n).st = .off) :
    ∃ t, exec (.graphStop via) s = replied r OK (zeros 8) t ∧ (getStage t n).st = .off ∧ (∀ e ∈ t.gov.release, e.unit ≠ n) ∧ t.pwm.channels = s.pwm.channels := by
  obtain ⟨hoff, hrel, hch⟩ := stopped_of_off (s := taken s via) (n := n) (by rwa [taken_loop]) (by rwa [getStage_taken])
  exact ⟨_, (graphStop_formed h hdev hn hn8 hl hres _ rfl).trans (congrArg (fun b => replied r OK b _) (stopReply_of_off hoff)), hoff, hrel, hch.trans (by rw [taken_pwm])⟩

end

/-! ### O35: DILL_CONFIG and GRAPH_STATS (R264 to R272, R278, R282) -/

/-- The form of a configuration, whatever the stage's state. -/
def DillFormed (p : Bytes) (n ni nt : Nat) : Prop :=
  n8At p 0 = n ∧ n8At p 2 = ni ∧ n8At p 3 = nt ∧ p.length = 12 + 16 * ni + 8 * nt ∧ 1 ≤ n8At p 6 ∧ n8At p 7 ≤ 1 ∧ zeroAt p 10 2 = true
    ∧ n8At p 1 ≤ 2 ∧ ni ≤ 16 ∧ nt ≤ 16 ∧ (n8At p 1 ≠ 0 → ni ≠ 0)

/-- What the entries of a configuration have to hold for a stage's graph. -/
def DillSound (s : State) (p : Bytes) (n ni nt : Nat) (g : Graph) : Prop :=
  (∀ i < ni, dillInputOk s n g p (12 + 16 * i) = true) ∧ ((dillOf p).inputs.map (·.channel)).Nodup ∧ (∀ i < nt, dillTargetOk s g p (12 + 16 * ni + 8 * i) = true)
    ∧ (nt * ni ≠ 0 → n16At p 8 + nt * ni ≤ (if n8At p 7 = 1 then g.nParams else 1024 * g.engines))
    ∧ (n8At p 1 ≠ 0 → (n8At p 1 + 1) * loadMax s g ≤ frameMin s g)

/-- The configuration that a stage has after it. -/
def dillSet (off : Bool) (c : DillConf) (y : Stage) : Stage := { y with dill := if off then c else { y.dill with depth := 0, limit := c.limit } }

section
variable {s : State} {r : Req} {n ni nt : Nat} {g : Graph}

theorem dillRun_of_sound (hf : DillFormed (reqParams r) n ni nt) (hn : n < 8) (hst : (getStage s n).st ≠ .shuttingDown) (hg : (getStage s n).graph = some g)
    (hrun : (getStage s n).st ≠ .off → n8At (reqParams r) 1 = 0 ∧ ni = 0 ∧ nt = 0) (hs : DillSound s (reqParams r) n ni nt g) :
    dillRun s r = .done (updStage n (dillSet (stageOff s n) (dillOf (reqParams r))) s)
      (n8 (n8At (reqParams r) 1) ++ zeros 3 ++ n32 (loadMax s g) ++ n32 (frameMin s g)) := by
  obtain ⟨hn0, hni, hnt, hlen, hlim, hj, hres, hdepth, hni16, hnt16, hin⟩ := hf
  obtain ⟨hins, hdup, htgts, hjb, hload⟩ := hs
  have hrun' : ¬ ((getStage s n).st ≠ .off ∧ ((dillOf (reqParams r)).depth ≠ 0 ∨ ni ≠ 0 ∨ nt ≠ 0)) := fun ⟨hoff, hbad⟩ => by
    obtain ⟨h1, h2, h3⟩ := hrun hoff
    exact hbad.elim (· h1) (·.elim (· h2) (· h3))
  have hform : ¬ ((reqParams r).length ≠ 12 + 16 * ni + 8 * nt ∨ (dillOf (reqParams r)).depth > 2 ∨ ni > 16 ∨ nt > 16 ∨ ((dillOf (reqParams r)).depth ≠ 0 ∧ ni = 0)
      ∨ (dillOf (reqParams r)).limit = 0 ∨ n8At (reqParams r) 7 > 1 ∨ (!zeroAt (reqParams r) 10 2) = true) := by
    simp only [hlen, hres, dillOf]
    simp
    omega
  have hentries : ¬ ((!(List.range ni).all (fun i => dillInputOk s n g (reqParams r) (12 + 16 * i))) = true
      ∨ (!decide ((dillOf (reqParams r)).inputs.map (·.channel)).Nodup) = true
      ∨ (!(List.range nt).all (fun i => dillTargetOk s g (reqParams r) (12 + 16 * ni + 8 * i))) = true) := by
    have hall : (List.range ni).all (fun i => dillInputOk s n g (reqParams r) (12 + 16 * i)) = true := by simpa using hins
    have hall' : (List.range nt).all (fun i => dillTargetOk s g (reqParams r) (12 + 16 * ni + 8 * i)) = true := by simpa using htgts
    simp [hall, hall', hdup]
  have hjac : ¬ (nt * ni ≠ 0 ∧ (dillOf (reqParams r)).jBase + nt * ni > (if (dillOf (reqParams r)).jParam = true then g.nParams else 1024 * g.engines)) := fun ⟨h0, hgt⟩ => by
    have hle := hjb h0
    simp only [dillOf, decide_eq_true_eq] at hgt
    omega
  have hfit : ¬ ((dillOf (reqParams r)).depth ≠ 0 ∧ ((dillOf (reqParams r)).depth + 1) * loadMax s g > frameMin s g) := fun ⟨h0, hgt⟩ =>
    absurd (hload h0) (Nat.not_le.mpr hgt)
  unfold dillRun
  extract_lets p n' ni' nt' x c jn s1
  have hn' : n' = n := hn0
  have hni' : ni' = ni := hni
  have hnt' : nt' = nt := hnt
  clear_value n' ni' nt'
  subst hn' hni' hnt'
  rw [if_neg (by omega), if_neg hst]
  simp -zeta only [show x.graph = some g from hg]
  refine (if_neg hrun').trans ((if_neg hform).trans ((if_neg hentries).trans ((if_neg hjac).trans ((if_neg hfit).trans ?_))))
  have hset : (fun y : Stage => { y with dill := if x.st = .off then c else { y.dill with depth := 0, limit := c.limit } }) = dillSet (stageOff s n') (dillOf (reqParams r)) := by
    funext y
    by_cases hoff : (getStage s n').st = .off <;> simp [dillSet, stageOff, x, c, p, hoff]
  simp only [s1, hset]
  rfl

theorem DillSound.taken (hs : DillSound s (reqParams r) n ni nt g) (via : Transport) : DillSound (taken s via) (reqParams r) n ni nt g := by
  rw [taken_change]
  exact hs

theorem dillConfig_of_sound {via : Transport} (h : Takes 0x0603#16 via s r) (hdev : s.sys.dev ≠ .boot) (hf : DillFormed (reqParams r) n ni nt) (hn : n < 8)
    (hst : (getStage s n).st ≠ .shuttingDown) (hg : (getStage s n).graph = some g)
    (hrun : (getStage s n).st ≠ .off → n8At (reqParams r) 1 = 0 ∧ ni = 0 ∧ nt = 0) (hs : DillSound s (reqParams r) n ni nt g) :
    exec (.dillConfig via) s = replied r OK (n8 (n8At (reqParams r) 1) ++ zeros 3 ++ n32 (loadMax s g) ++ n32 (frameMin s g))
      (updStage n (dillSet (stageOff s n) (dillOf (reqParams r))) (taken s via)) := by
  have hcard := dillRun_of_sound (s := taken s via) hf hn (by rwa [getStage_taken]) (by rwa [getStage_taken]) (by rwa [getStage_taken]) (hs.taken via)
  rw [taken_reading (v := fun s => stageOff s n) (fun _ _ _ _ => rfl), taken_reading (v := fun s => loadMax s g) (fun _ _ _ _ => rfl),
    taken_reading (v := fun s => frameMin s g) (fun _ _ _ _ => rfl)] at hcard
  exact next_runCard_done h (isOp_takes h) rfl (inAll4_of_ne_boot hdev) hcard

theorem graphStats_formed {via : Transport} (h : Takes 0x0604#16 via s r) (hdev : s.sys.dev ≠ .boot) (hn0 : n8At (reqParams r) 0 = n) (hn : n < 8)
    (hlen : (reqParams r).length = 4) (hres : zeroAt (reqParams r) 2 2 = true) (hflag : n8At (reqParams r) 1 ≤ 1) :
    exec (.graphStats via) s = replied r OK (stageRange s n)
      (if n8At (reqParams r) 1 = 1 then clearHolds n (updStage n clearStats (taken s via)) else taken s via) := by
  refine next_runCard_done h (isOp_takes h) rfl (inAll4_of_ne_boot hdev) ?_
  show statsRun _ r = _
  simp only [statsRun, hn0]
  rw [if_neg (by simp only [hlen, hres]; simp; omega), taken_reading (v := fun s => stageRange s n) (fun _ _ _ _ => rfl)]

end

/-! ### O35 -/

/-- An empty load that ends unloads the stage's graph. -/
theorem graphLoadDone_unloads {s : State} {l : GraphLoad} {t : List GraphLoad} (hl : s.loop.loads = l :: t) (hst : l.stage < s.loop.stages.length)
    (hcrc : crc32c (memReadBytes s.loop.mem l.offset l.length) = l.crc) (hoff : stageOff s l.stage = true) (hlen : l.length = 0) :
    ∃ pl u, exec .graphLoadDone s = .next (endLong 0x0600#16 0 OK pl u) ∧ pl.take 2 = n8 l.stage ++ [0] ∧ (getStage u l.stage).graph = none
      ∧ (∀ e < 18, (getEngine u e).stage ≠ some l.stage) ∧ u.loop.mem = s.loop.mem ∧ u.loop.loads = t ∧ u.pwm = s.pwm := by
  have haround := aroundGraphs_unloadGraph l.stage (loadsLeft t s)
  have hgraph : (getStage (unloadGraph l.stage (loadsLeft t s)) l.stage).graph = none := congrArg Stage.graph (getStage_unloadGraph (s := loadsLeft t s) hst)
  refine ⟨_, _, graphLoadDone_empty hl hcrc hoff hlen, ?_, hgraph, fun e _ => getEngine_unloadGraph e, congrArg (·.1) haround, congrArg (·.2.1) haround, congrArg (·.2.2) haround⟩
  simp only [loadPayload, hgraph]
  rfl

/-- A sound image that ends its load is the stage's graph. -/
theorem graphLoadDone_installs {s : State} {l : GraphLoad} {t : List GraphLoad} (hl : s.loop.loads = l :: t) (hst : l.stage < s.loop.stages.length)
    (hcrc : crc32c (memReadBytes s.loop.mem l.offset l.length) = l.crc) (hoff : stageOff s l.stage = true) (hlen : l.length ≠ 0) {g : Graph}
    (hg : g = readHeader s.loop.mem l.offset l.length) (hok : imageOk s l.stage g = true) (hlost : bytesLost s 18 l.offset l.length = false)
    (hroom : g.engines ≤ (enginesFree s l.stage).length) :
    ∃ pl u, exec .graphLoadDone s = .next (endLong 0x0600#16 0 OK pl u) ∧ (getStage u l.stage).graph = some { g with phys := (enginesFree s l.stage).take g.engines }
      ∧ (getStage u l.stage).dill = dillConf0 ∧ (getStage u l.stage).st = .off ∧ u.loop.mem = s.loop.mem ∧ u.loop.loads = t ∧ u.pwm = s.pwm := by
  subst hg
  have haround := aroundGraphs_installGraph l.stage (readHeader s.loop.mem l.offset l.length) (loadsLeft t s)
  have hget := getStage_installGraph (s := loadsLeft t s) hst (readHeader s.loop.mem l.offset l.length)
  have hst : (getStage s l.stage).st = .off := by simpa [stageOff] using hoff
  exact ⟨_, _, graphLoadDone_sound hl hcrc hoff hlen hok hlost hroom, congrArg Stage.graph hget, congrArg Stage.dill hget, (congrArg Stage.st hget).trans hst,
    congrArg (·.1) haround, congrArg (·.2.1) haround, congrArg (·.2.2) haround⟩

/-- Settles O35, request by request: each is an equation for what its card makes of a taken request, and a reading of the state it leaves. -/
theorem graphRequests : Obligations.GraphRequests := by
  unfold Obligations.GraphRequests
  rintro via s r _ n hdev rfl hn0 hn hs
  have hlen : n < s.loop.stages.length := by
    obtain ⟨-, -, -, -, -, -, -, hloop, -⟩ := hs
    obtain ⟨hstages, -⟩ := hloop
    omega
  refine ⟨fun h hl hres hoff hal hmax hsize hroom => graphLoad_of_off hn ⟨hn0, hl, hres, hoff, hal, hmax, hsize, hroom⟩ h hdev, fun l t hl hst => ?_, graphLoadDone_idle,
    fun m h hrun hp hst hno => graphStart_of_no_start h hrun hp hn hst hno, fun g m h hrun hp hm hoff hg hwait hrel hpre hready hper hlost hroom hroom' hun => ?_,
    fun m h hrun hp hm hst hg hroom => graphStartModeOnly_of_enabled h hrun hp hn hm hlen hst hg hroom, fun hfull => ⟨fun h hmode => ?_, fun h => ?_⟩,
    fun h hl hres => ?_, fun g c first view h hroom hb1 hc hfirst hres hc1 hc2 hl hg hsize hvals hblocks hapart => ?_, rfl,
    fun g ni nt lim h hni hnt hlim hl hg hlim1 hj hres => ⟨fun hoff hdepth hni16 hnt16 hin hins hdup htgts hjb hload => ?_, fun hoff hst hdepth hni0 hnt0 => ?_⟩,
    fun h hl hres => ⟨fun hflag => ?_, fun hflag => ?_⟩⟩
  · subst hst
    exact ⟨graphLoadDone_bad_crc hl, graphLoadDone_live hl, fun hcrc hoff hlen0 hok => graphLoadDone_unsound hl hcrc hoff hlen0 hok,
      fun hcrc hoff hlen0 hok hlost => graphLoadDone_lost hl hcrc hoff hlen0 hok hlost, fun hcrc hoff hlen0 => graphLoadDone_unloads hl hlen hcrc hoff hlen0,
      fun g hcrc hoff hlen0 hg hok hlost hroom => graphLoadDone_installs hl hlen hcrc hoff hlen0 hg hok hlost hroom⟩
  · have ha : StartAdmitted s n g := ⟨hoff, hg, hwait, hrel, hpre, hready, hper, hlost, hroom, hroom', hun⟩
    have hpass : ¬ (needsRelease s n = true ∧ (s.gov.release ≠ [] ∨ releaseFree s = false)) → releaseWaits s n = false :=
      fun hw => Bool.eq_false_iff.mpr (mt releaseWaits_iff.mp hw)
    exact ⟨fun hw => ⟨_, rfl, graphStart_of_release_waits h hrun hp hn hm ha (releaseWaits_iff.mpr hw)⟩,
      fun hw hpre hswap => graphStart_waits_swap h hrun hp hn hm ha (hpass hw) hlen hpre hswap,
      fun hw hhbs hfree => ⟨_, graphStart_of_precharge_waits h hrun hp hn hm ha (hpass hw) (by simp [prechargeWaits, hhbs, hfree]), precharge_waits_passed hlen hoff⟩,
      fun hw hswap hpre hq => graphStart_starts h hrun hp hn hm ha (hpass hw) hlen hpre hswap hq⟩
  · exact congrArg _ (paramRow_of_full hfull h hmode)
  · exact congrArg _ (paramRow_of_full hfull h (isOp_takes h))
  · exact ⟨graphStop_of_shuttingDown h hdev hn0 hn hl hres hlen, graphStop_of_live h hdev hn0 hn hl hres hlen, graphStop_of_lockedOut h hdev hn0 hn hl hres hlen,
      graphStop_of_off h hdev hn0 hn hl hres hlen⟩
  · have hf : WriteFormed (reqParams r) n c first g := ⟨hn0, hb1, hc, hfirst, hres, hc1, hc2, hl, hsize, hvals⟩
    exact ⟨fun hoff hst hview => graphWriteParam_of_live h hdev hn hroom hf hg hblocks hapart hoff hst hview,
      fun hoff hw hview => graphWriteParam_of_off h hdev hn hroom hf hg hblocks hapart hlen hoff hw hview⟩
  · have hexec := dillConfig_of_sound h hdev ⟨hn0, hni, hnt, hl, hlim ▸ hlim1, hj, hres, hdepth, hni16, hnt16, hin⟩ hn (by rw [hoff]; decide) hg
      (fun hno => absurd hoff hno) ⟨hins, hdup, htgts, hjb, hload⟩
    rw [show stageOff s n = true by simp [stageOff, hoff]] at hexec
    exact hexec
  · subst hni0 hnt0
    have hexec := dillConfig_of_sound h hdev ⟨hn0, hni, hnt, hl, hlim ▸ hlim1, hj, hres, by omega, by omega, by omega, fun hd => absurd hdepth hd⟩ hn hst hg
      (fun _ => ⟨hdepth, rfl, rfl⟩) ⟨fun i hi => absurd hi (Nat.not_lt_zero i), by simp [dillOf, hni], fun i hi => absurd hi (Nat.not_lt_zero i), fun h0 => absurd rfl h0, fun hd => absurd hdepth hd⟩
    rw [show stageOff s n = false by simpa [stageOff] using hoff, hdepth] at hexec
    subst hlim
    exact hexec
  · have hexec := graphStats_formed h hdev hn0 hn hl hres (by omega)
    rwa [if_neg (by omega)] at hexec
  · have hexec := graphStats_formed h hdev hn0 hn hl hres (by omega)
    rwa [if_pos hflag] at hexec

end Sys2Proof.Proofs

/-! ## The course of an ADPLL: relock, lock, release, loss and attempts -/

namespace Sys2Proof.Proofs

open Sys2Proof Sys2Proof.Machine Sys2Proof.Claims Sys2Proof.Laws

/-! ### O23: an ADPLL and its outputs under an update -/

section
variable {s t : State} {i : Nat}

theorem getPll_updPll_same (f : Adpll → Adpll) (h : i < s.clk.plls.length) : getPll (updPll i f s) i = f (getPll s i) := getD_upd_same f _ h

theorem getPll_of_clk (h : t.clk = s.clk) (i : Nat) : getPll t i = getPll s i := congrArg (fun c => c.plls.getD i adpll0) h

theorem pllOutputs_of_outs (h : t.clk.outs = s.clk.outs) (i : Nat) : pllOutputs t i = pllOutputs s i := by
  unfold pllOutputs getOut
  rw [h]

theorem mem_everyOutput {o : Nat} (h : o ∈ pllOutputs s i) : o ∈ everyOutput i := by
  unfold pllOutputs at h
  unfold everyOutput
  by_cases hi : i = 0
  · simp only [hi, if_true, List.mem_append, List.mem_ite_nil_right, List.mem_cons, List.not_mem_nil, or_false] at h ⊢
    omega
  · simp only [hi, if_false, List.mem_append, List.mem_ite_nil_right, List.mem_filter, List.mem_range, List.mem_cons, List.not_mem_nil, or_false] at h ⊢
    omega

/-- With all outputs gated, one that is driven is among them where there is one at all. -/
theorem everyOutput_any (s : State) (i : Nat) : (everyOutput i).any (pllOutputs s i).contains = !(pllOutputs s i).isEmpty := by
  rw [Bool.eq_iff_iff, List.any_eq_true, Bool.not_eq_true', List.isEmpty_eq_false_iff_exists_mem]
  exact ⟨fun ⟨o, _, ho⟩ => ⟨o, List.contains_iff_mem.mp ho⟩, fun ⟨o, ho⟩ => ⟨o, mem_everyOutput ho, List.contains_iff_mem.mpr ho⟩⟩

end

/-! ### O23: gated outputs and the fallback oscillator (R145, R149, R444) -/

/-- The time, the device state, the safety functions and the clocks. -/
def courseShown (s : State) : Thyme × DevState × Safety × Clocks := (s.time, s.sys.dev, s.safe, s.clk)

/-- A reading that shows nothing of the filter chain and of the fast detectors' island. -/
def MclkBlind {α : Type} (v : State → α) : Prop := ∀ (s : State) (x : Machine.Filter) (p : Pwm), v { s with flt := x, pwm := p } = v s

section
variable {α : Type} {v : State → α}

theorem canClockLost_reading (hv : CanBlind v) (s : State) : v (canClockLost s) = v s := by
  refine forEach_reading (fun p s => ?_) _ s
  dsimp only
  split
  · rfl
  · exact (attemptFailed_reading hv p _).trans (can_reading hv s _)

theorem mclkChanged_reading (hv : MclkBlind v) (g : Nat) (s : State) : v (mclkChanged g s) = v s := by
  have hclear : v (if mclkRuns s g then s else forEach (List.range 6) (fun i => updFch (6 * g + i) silenced) s) = v s := by
    split
    · rfl
    · exact forEach_reading (fun _ u => hv u _ _) _ s
  refine (forEach_reading (fun i u => ?_) _ _).trans hclear
  exact (hv (unsettle (6 * g + i) u) _ _).trans (hv u _ _)

end

/-- Thyme once every island runs from the fallback oscillator. -/
def fellBack (t : Thyme) : Thyme :=
  { t with onFallback := List.replicate 5 true
           fbStart := if t.onFallback.getD 0 true then t.fbStart else some t.raw
           fbCount := if t.onFallback.getD 0 true then t.fbCount else t.fbCount + 1 }

theorem toFallback_shown (s : State) : courseShown (toFallback s) = (fellBack s.time, s.sys.dev, s.safe, s.clk) := by
  have hcan : courseShown (if s.time.onFallback.getD 3 true then s else canClockLost s) = courseShown s := by
    split
    · rfl
    · exact canClockLost_reading (fun _ _ _ _ => rfl) s
  unfold toFallback
  generalize (if s.time.onFallback.getD 3 true then s else canClockLost s) = u at hcan
  exact congrArg (fun c => (fellBack c.1, c.2)) hcan

/-- An ADPLL whose outputs are all gated; without a lock it has no alignment edge. -/
def gatedPll (i : Nat) (x : Adpll) : Adpll := { x with gated := everyOutput i, alignAt := none }

theorem gateOutputs_shown (i : Nat) (s : State) :
    courseShown (gateOutputs i s) = (if i = 0 then fellBack s.time else s.time, s.sys.dev, s.safe, (updPll i (gatedPll i) s).clk) := by
  unfold gateOutputs
  dsimp only
  split
  · exact toFallback_shown _
  · exact forEach_reading (mclkChanged_reading fun _ _ _ => rfl) _ _

theorem gateOutputs_time (i : Nat) (s : State) : (gateOutputs i s).time = if i = 0 then fellBack s.time else s.time :=
  congrArg (·.1) (gateOutputs_shown i s)

theorem gateOutputs_raw (i : Nat) (s : State) : (gateOutputs i s).time.raw = s.time.raw := by
  rw [gateOutputs_time]; split <;> rfl

theorem gateOutputs_guards (i : Nat) (s : State) : (gateOutputs i s).sys.dev = s.sys.dev ∧ (gateOutputs i s).safe = s.safe :=
  ⟨congrArg (·.2.1) (gateOutputs_shown i s), congrArg (·.2.2.1) (gateOutputs_shown i s)⟩

theorem getPll_gateOutputs {i : Nat} {s : State} (h : i < s.clk.plls.length) : getPll (gateOutputs i s) i = gatedPll i (getPll s i) :=
  (getPll_of_clk (congrArg (·.2.2.2) (gateOutputs_shown i s)) i).trans (getPll_updPll_same _ h)

section
variable {i : Nat} {hop : Bool} {req : Option U16} {k : Nat} {s : State}

theorem startRelock_time : (startRelock i hop req k s).time = if i = 0 then fellBack s.time else s.time := gateOutputs_time ..

theorem startRelock_raw : (startRelock i hop req k s).time.raw = s.time.raw := gateOutputs_raw ..

theorem getPll_startRelock (h : i < s.clk.plls.length) : getPll (startRelock i hop req k s) i =
    gatedPll i { getPll s i with state := .search, relock := some { start := s.time.raw, hop := hop, request := req, attempt := k } } := by
  unfold startRelock
  rw [getPll_gateOutputs (by simpa only [updPll_clk, upd_length] using h), getPll_updPll_same _ h]

end

/-! ### O23: the end of a relock (R145, R159) -/

section
variable {i : Nat} {s : State}

/-- The end of a relock answers its request and posts its event beside locking the ADPLL. -/
theorem relockComplete_reply : ReplyOnly (updPll i (fun x => { x with state := .locked, relock := none }) s) (relockComplete i s) := by
  unfold relockComplete
  dsimp only
  split
  · exact (post_log ..).reply.trans (endLong_reply ..)
  · exact (post_log ..).reply

theorem finishVerify_time : (finishVerify i s).time = s.time := by
  unfold finishVerify
  dsimp only
  split
  · exact relockComplete_reply.time
  · rfl

theorem finishVerify_of_gated (h : (getPll s i).gated.any (pllOutputs s i).contains = true) : finishVerify i s = s := by
  simp only [finishVerify, h, Bool.not_true, Bool.false_eq_true, and_false, if_false]

theorem finishVerify_of_not_verify (h : (getPll s i).state ≠ .verify) : finishVerify i s = s := by
  simp only [finishVerify, h, false_and, if_false]

theorem getPll_finishVerify_of_verified (hi : i < s.clk.plls.length) (hst : (getPll s i).state = .verify)
    (h : (getPll s i).gated.any (pllOutputs s i).contains = false) : getPll (finishVerify i s) i = { getPll s i with state := .locked, relock := none } := by
  simp only [finishVerify, hst, h, Bool.not_false, and_self, if_true]
  exact (getPll_of_clk relockComplete_reply.clk i).trans (getPll_updPll_same _ hi)

/-- In VERIFY, the ADPLL is LOCKED once no driven output is gated; nothing but its state and relock changes. -/
theorem getPll_finishVerify (hi : i < s.clk.plls.length) (hst : (getPll s i).state = .verify) {b : Bool} (hb : (getPll s i).gated.any (pllOutputs s i).contains = b) :
    getPll (finishVerify i s) i = { getPll s i with state := if b then .verify else .locked, relock := if b then (getPll s i).relock else none } := by
  cases b with
  | true =>
    rw [finishVerify_of_gated hb, if_pos rfl, if_pos rfl, ← hst]
  | false => exact getPll_finishVerify_of_verified hi hst hb

end

/-! ### O23: lock (R144, R152) -/

section
variable {i : Nat} {s : State}

theorem adpllLock_of_not_search (h : (getPll s i).state ≠ .search) (hopLocked : Bool) (band : BitVec 6) (fine : U32) (f rms : F32) (edge : Nat) :
    exec (.adpllLock i hopLocked band fine f rms edge) s = .next s := by
  show execAdpllLock .. = _
  unfold execAdpllLock
  dsimp only
  split
  next hst _ => exact absurd hst h
  next => rfl

/-- What a lock makes of an ADPLL, before its outputs are verified. -/
theorem adpllLock_of_search {k : Relock} (hst : (getPll s i).state = .search) (hk : (getPll s i).relock = some k)
    (hopLocked : Bool) (band : BitVec 6) (fine : U32) (f rms : F32) (edge : Nat) : ∃ g : Adpll → Adpll,
    exec (.adpllLock i hopLocked band fine f rms edge) s = .next (finishVerify i (updPll i g s))
    ∧ ∀ y, (g y).state = .verify ∧ (g y).fMeas = f ∧ (g y).phaseRms = rms ∧ (g y).locks = y.locks + 1 ∧ (g y).alignAt = some (s.time.raw + edge) ∧ (g y).gated = everyOutput i := by
  show ∃ g, execAdpllLock i hopLocked band fine f rms edge s = _ ∧ _
  unfold execAdpllLock
  simp only [hst, hk]
  exact ⟨_, rfl, fun y => ⟨rfl, rfl, rfl, rfl, rfl, rfl⟩⟩

theorem adpllLock_locks {k : Relock} (hi : i < s.clk.plls.length) (hst : (getPll s i).state = .search) (hk : (getPll s i).relock = some k)
    (hopLocked : Bool) (band : BitVec 6) (fine : U32) (f rms : F32) (edge : Nat) :
    ∃ t, exec (.adpllLock i hopLocked band fine f rms edge) s = .next t ∧ (getPll t i).fMeas = f ∧ (getPll t i).phaseRms = rms ∧ (getPll t i).locks = (getPll s i).locks + 1
      ∧ (getPll t i).alignAt = some (s.time.raw + edge) ∧ (getPll t i).state = (if (pllOutputs s i).isEmpty then .locked else .verify)
      ∧ (getPll t i).gated = everyOutput i ∧ t.time = s.time := by
  obtain ⟨g, hexec, hg⟩ := adpllLock_of_search hst hk hopLocked band fine f rms edge
  obtain ⟨hver, hf, hrms, hlocks, hedge, hgated⟩ := hg (getPll s i)
  have hget : getPll (updPll i g s) i = g (getPll s i) := getPll_updPll_same g hi
  have hany : (getPll (updPll i g s) i).gated.any (pllOutputs (updPll i g s) i).contains = !(pllOutputs s i).isEmpty := by
    rw [pllOutputs_of_outs (t := updPll i g s) (s := s) rfl, hget, hgated, everyOutput_any]
  have hend := getPll_finishVerify (by simpa only [updPll_clk, upd_length] using hi) (by rw [hget, hver]) hany
  rw [hget] at hend
  refine ⟨_, hexec, ?_⟩
  rw [hend]
  exact ⟨hf, hrms, hlocks, hedge, by cases (pllOutputs s i).isEmpty <;> rfl, hgated, finishVerify_time⟩

end

/-! ### O23: the release of a verified output (R145, R149) -/

/-- Thyme once the islands that an output of ADPLL-A clocks have left the fallback oscillator. -/
def islandsReleased (out : Nat) (t : Thyme) : Thyme :=
  { t with onFallback := t.onFallback.mapIdx (fun k b => if (islandsOf out).contains k then false else b) }

theorem endFallback_rest (s : State) : (endFallback s).clk = s.clk ∧ (endFallback s).time.raw = s.time.raw ∧ (endFallback s).time.onFallback = s.time.onFallback := by
  unfold endFallback
  split <;> exact ⟨rfl, rfl, rfl⟩

/-- An output of an ADPLL is no longer gated. -/
def ungated (out : Nat) (x : Adpll) : Adpll := { x with gated := x.gated.filter (· ≠ out) }

section
variable {i out : Nat} {s : State}

theorem outputRelease_idle (h : ((getPll s i).state ≠ .verify ∧ (getPll s i).state ≠ .locked) ∨ (pllOutputs s i).contains out = false ∨ (getPll s i).gated.contains out = false) :
    exec (.outputRelease i out) s = .next s := by
  show execOutputRelease i out s = _
  unfold execOutputRelease
  rw [if_pos (by simpa only [Bool.not_eq_true'] using h)]

/-- Before the end of VERIFY is looked for, a release changes of time and clocks only what islands run from and what is gated. -/
theorem outputRelease_of_gated (hst : (getPll s i).state = .verify ∨ (getPll s i).state = .locked) (hout : (pllOutputs s i).contains out = true)
    (hgated : (getPll s i).gated.contains out = true) : ∃ u, exec (.outputRelease i out) s = .next (finishVerify i u) ∧ u.clk = (updPll i (ungated out) s).clk
      ∧ u.time.raw = s.time.raw ∧ u.time.onFallback = (if i = 0 then (islandsReleased out s.time).onFallback else s.time.onFallback) := by
  show ∃ u, execOutputRelease i out s = _ ∧ _
  unfold execOutputRelease
  have hgo : ¬ (((getPll s i).state ≠ .verify ∧ (getPll s i).state ≠ .locked) ∨ (!(pllOutputs s i).contains out) = true ∨ (!(getPll s i).gated.contains out) = true) := by
    rw [hout, hgated]
    exact fun h => h.elim (fun hno => hst.elim hno.1 hno.2) (fun hno => hno.elim Bool.noConfusion Bool.noConfusion)
  rw [if_neg hgo]
  refine ⟨_, rfl, ?_⟩
  by_cases hi : i = 0
  · simp only [hi, if_true]
    split
    · exact endFallback_rest _
    · exact ⟨rfl, rfl, rfl⟩
  · simp only [hi, if_false]
    split
    · have h := mclkChanged_reading (v := courseShown) (fun _ _ _ => rfl) out (updPll i (ungated out) s)
      exact ⟨congrArg (·.2.2.2) h, congrArg (·.1.raw) h, congrArg (·.1.onFallback) h⟩
    · exact ⟨rfl, rfl, rfl⟩

theorem outputRelease_releases {left : List Nat} (hi : i < s.clk.plls.length) (hst : (getPll s i).state = .verify ∨ (getPll s i).state = .locked)
    (hout : (pllOutputs s i).contains out = true) (hgated : (getPll s i).gated.contains out = true) (hleft : left = (getPll s i).gated.filter (· ≠ out)) :
    ∃ t, exec (.outputRelease i out) s = .next t ∧ (getPll t i).gated = left
      ∧ ((getPll s i).state = .locked → (getPll t i).state = .locked ∧ (getPll t i).relock = (getPll s i).relock)
      ∧ ((getPll s i).state = .verify → if left.any (pllOutputs s i).contains then (getPll t i).state = .verify else (getPll t i).state = .locked ∧ (getPll t i).relock = none)
      ∧ t.time.raw = s.time.raw ∧ t.time.onFallback = (if i = 0 then (islandsReleased out s.time).onFallback else s.time.onFallback) := by
  obtain ⟨u, hexec, hclk, hraw, hfb⟩ := outputRelease_of_gated hst hout hgated
  have hget : getPll u i = { getPll s i with gated := left } := by
    rw [getPll_of_clk hclk, getPll_updPll_same _ hi, hleft]
    rfl
  have houts : pllOutputs u i = pllOutputs s i := pllOutputs_of_outs (by rw [hclk]; rfl) i
  rw [← finishVerify_time (i := i) (s := u)] at hraw hfb
  rcases hst with hver | hlock
  · have hend := getPll_finishVerify (s := u) (i := i) (by rw [hclk]; simpa only [updPll_clk, upd_length] using hi) (by rw [hget, hver]) rfl
    rw [hget, houts] at hend
    refine ⟨_, hexec, by rw [hend], fun hl => absurd (hver.symm.trans hl) (by decide), fun _ => ?_, hraw, hfb⟩
    rw [hend]
    split
    · rfl
    · exact ⟨rfl, rfl⟩
  · have hsame : finishVerify i u = u := finishVerify_of_not_verify (by rw [hget, hlock]; decide)
    rw [hsame] at hexec hraw hfb
    exact ⟨u, hexec, by rw [hget], fun _ => by rw [hget]; exact ⟨hlock, rfl⟩, fun hv => absurd (hlock.symm.trans hv) (by decide), hraw, hfb⟩

end

/-! ### O23: loss of lock (R148) -/

/-- An ADPLL that has lost its lock in a state: its relock starts 100 us later. -/
def lostPll (s : State) (y : Adpll) : Adpll := { y with state := .lost, losses := y.losses + 1, relockAt := s.time.raw + 100000, relock := none }

/-- An ADPLL has lost its lock and its outputs are gated. -/
def lostLock (i : Nat) (s : State) : State := gateOutputs i (updPll i (lostPll s) s)

section
variable {i : Nat} {s : State}

theorem getPll_lostLock (h : i < s.clk.plls.length) : getPll (lostLock i s) i = gatedPll i (lostPll s (getPll s i)) := by
  unfold lostLock
  rw [getPll_gateOutputs (by simpa only [updPll_clk, upd_length] using h), getPll_updPll_same _ h]

theorem lossOfLock_idle (hl : (getPll s i).state ≠ .locked) (hv : (getPll s i).state ≠ .verify) (reason : Nat) : exec (.lossOfLock i reason) s = .next s := by
  show execLossOfLock i reason s = _
  unfold execLossOfLock
  rw [if_pos ⟨hl, hv⟩]

/-- The loss and its event, with bit 0 where a stage is not OFF. -/
def lossPosted (i reason : Nat) (s : State) : State := post 0x0201#16 i (n8 reason ++ n8 (flag (!allStagesOff s) 0)) (lostLock i s)

theorem getPll_lossPosted (h : i < s.clk.plls.length) (reason : Nat) : getPll (lossPosted i reason s) i = gatedPll i (lostPll s (getPll s i)) :=
  (getPll_of_clk (post_clk ..) i).trans (getPll_lostLock h)

theorem lossPosted_guards (i reason : Nat) (s : State) : (lossPosted i reason s).sys.dev = s.sys.dev ∧ (lossPosted i reason s).safe = s.safe := by
  obtain ⟨hdev, hsafe⟩ := gateOutputs_guards i (updPll i (lostPll s) s)
  exact ⟨(congrArg (·.dev) (post_sys ..)).trans hdev, (post_safe ..).trans hsafe⟩

/-- After the loss Sorrel acts where a stage is not OFF; the answer of a request that the loss ends comes last. -/
theorem lossOfLock_loses (hst : (getPll s i).state = .locked ∨ (getPll s i).state = .verify) (reason : Nat) : ∃ t, exec (.lossOfLock i reason) s = .next t
    ∧ ReplyOnly (if !allStagesOff s then safetyActs rCLOCK 0 0xFF (lossPosted i reason s) else lossPosted i reason s) t := by
  show ∃ t, execLossOfLock i reason s = _ ∧ _
  unfold execLossOfLock
  dsimp only
  rw [if_neg (fun h => hst.elim h.1 h.2)]
  refine ⟨_, rfl, ?_⟩
  rcases (getPll s i).relock with _ | ⟨_, _, _ | op, n⟩
  · exact .refl _
  · exact .refl _
  · exact (post_log ..).reply.trans (endLong_reply ..)

theorem lossOfLock_of_allOff (hi : i < s.clk.plls.length) (hst : (getPll s i).state = .locked ∨ (getPll s i).state = .verify) (hoff : allStagesOff s = true) (reason : Nat) :
    ∃ t, exec (.lossOfLock i reason) s = .next t ∧ (getPll t i).state = .lost ∧ (getPll t i).losses = (getPll s i).losses + 1
      ∧ (getPll t i).relockAt = s.time.raw + 100000 ∧ t.sys.dev = s.sys.dev ∧ t.safe = s.safe := by
  obtain ⟨t, hexec, hreply⟩ := lossOfLock_loses hst reason
  rw [hoff, if_neg (by decide)] at hreply
  have hget := (getPll_of_clk hreply.clk i).trans (getPll_lossPosted hi reason)
  obtain ⟨hdev, hsafe⟩ := lossPosted_guards i reason s
  exact ⟨t, hexec, by rw [hget]; rfl, by rw [hget]; rfl, by rw [hget]; rfl, (congrArg Prod.fst (guarded_of_reply hreply)).trans hdev, hreply.safe.trans hsafe⟩

/-- A loss with a stage not OFF acts with reason CLOCK, the first one in RUN (R148). -/
theorem lossOfLock_of_busy (hst : (getPll s i).state = .locked ∨ (getPll s i).state = .verify) (hbusy : allStagesOff s = false) (hrun : s.sys.dev = .run)
    (hclear : s.safe.causes = 0) (reason : Nat) :
    ∃ t, exec (.lossOfLock i reason) s = .next t ∧ t.sys.dev = .safe ∧ t.safe.causes = 4 ∧ t.safe.firstReason = 3 := by
  obtain ⟨t, hexec, hreply⟩ := lossOfLock_loses hst reason
  rw [hbusy, if_pos (by decide)] at hreply
  obtain ⟨hdev, hsafe⟩ := lossPosted_guards i reason s
  obtain ⟨hsafed, hcauses, hfirst, -⟩ := safetyActs_of_run (hdev.trans hrun) ((congrArg (·.causes) hsafe).trans hclear) rCLOCK 0 0xFF
  exact ⟨t, hexec, (congrArg Prod.fst (guarded_of_reply hreply)).trans hsafed, (congrArg (·.causes) hreply.safe).trans hcauses, (congrArg (·.firstReason) hreply.safe).trans hfirst⟩

end

/-! ### O23: the next relock and its attempts (R147, R150, R158) -/

section
variable {i : Nat} {s : State}

theorem relockStart_idle (h : (getPll s i).state ≠ .lost) : exec (.relockStart i) s = .next s := by
  show execRelockStart i s = _
  unfold execRelockStart
  rw [if_pos h]

/-- The relock after a loss is on the plan in effect; a profile of that plan gives band and fine word alone. -/
theorem relockStart_of_lost (hi : i < s.clk.plls.length) (h : (getPll s i).state = .lost) : ∃ hop u, exec (.relockStart i) s = .next (startRelock i hop none 1 u)
    ∧ u.time.raw = max s.time.raw (getPll s i).relockAt ∧ u.clk.plls.length = s.clk.plls.length ∧ (getPll u i).plan = (getPll s i).plan := by
  show ∃ hop u, execRelockStart i s = _ ∧ _
  unfold execRelockStart
  dsimp only
  rw [if_neg (fun hno => hno h)]
  refine ⟨_, _, rfl, ?_⟩
  cases (getPll s i).profiles.getD (profileOf (getPll s i)) none with
  | none => exact ⟨rfl, rfl, rfl⟩
  | some q => exact ⟨rfl, upd_length .., congrArg (·.plan) (getPll_updPll_same (s := advanceTo (getPll s i).relockAt s) _ hi)⟩

theorem relockStart_searches (hi : i < s.clk.plls.length) (h : (getPll s i).state = .lost) : ∃ t, exec (.relockStart i) s = .next t ∧ (getPll t i).state = .search
    ∧ (getPll t i).plan = (getPll s i).plan ∧ t.time.raw = max s.time.raw (getPll s i).relockAt := by
  obtain ⟨hop, u, hexec, hraw, hlen, hplan⟩ := relockStart_of_lost hi h
  have hget := getPll_startRelock (hop := hop) (req := none) (k := 1) (hlen ▸ hi)
  exact ⟨_, hexec, by rw [hget]; rfl, by rw [hget]; exact hplan, startRelock_raw.trans hraw⟩

theorem relockAttemptTimeout_idle (h : (getPll s i).state ≠ .search) : exec (.relockAttemptTimeout i) s = .next s := by
  show execRelockAttemptTimeout i s = _
  unfold execRelockAttemptTimeout
  dsimp only
  split
  next hst _ => exact absurd hst h
  next => rfl

/-- The instant at which an attempt times out. -/
def attemptEnd (k : Relock) (s : State) : State := advanceTo (k.start + relockLimit k) s

/-- An attempt has failed for good: event 0x0202 tells of the attempts made. -/
def relockFailed (i : Nat) (k : Relock) (s : State) : State := post 0x0202#16 i (n8 k.attempt) (updPll i (fun y => { y with state := .failed, relock := none }) (attemptEnd k s))

theorem relockAttemptTimeout_again {k : Relock} (hst : (getPll s i).state = .search) (hk : (getPll s i).relock = some k) (hmore : k.request = none ∧ k.attempt < 3) :
    exec (.relockAttemptTimeout i) s = .next (startRelock i k.hop none (k.attempt + 1) (attemptEnd k s)) := by
  show execRelockAttemptTimeout i s = _
  unfold execRelockAttemptTimeout
  simp only [hst, hk, Option.isNone_iff_eq_none]
  exact if_pos hmore

/-- The answer of a request is all that follows the failure. -/
theorem relockAttemptTimeout_fails {k : Relock} (hst : (getPll s i).state = .search) (hk : (getPll s i).relock = some k) (hno : ¬ (k.request = none ∧ k.attempt < 3)) :
    ∃ t, exec (.relockAttemptTimeout i) s = .next t ∧ ReplyOnly (relockFailed i k s) t
      ∧ (k.request = none → t = relockFailed i k s) ∧ ∀ op, k.request = some op → t = endLong op i E_NOT_READY [] (relockFailed i k s) := by
  show ∃ t, execRelockAttemptTimeout i s = _ ∧ _
  unfold execRelockAttemptTimeout
  simp only [hst, hk, Option.isNone_iff_eq_none]
  rw [if_neg hno]
  refine ⟨_, rfl, ?_⟩
  cases k.request with
  | none => exact ⟨.refl _, fun _ => rfl, nofun⟩
  | some op => exact ⟨endLong_reply .., nofun, fun _ h => by cases h; rfl⟩

theorem relockAttemptTimeout_attempts {k : Relock} (hi : i < s.clk.plls.length) (hst : (getPll s i).state = .search) (hk : (getPll s i).relock = some k) :
    ∃ t, exec (.relockAttemptTimeout i) s = .next t ∧ t.time.raw = max s.time.raw (k.start + relockLimit k)
      ∧ (k.request = none ∧ k.attempt < 3 → (getPll t i).state = .search ∧ (getPll t i).relock = some { k with start := max s.time.raw (k.start + relockLimit k), attempt := k.attempt + 1 })
      ∧ (¬ (k.request = none ∧ k.attempt < 3) → (getPll t i).state = .failed ∧ (getPll t i).relock = none
        ∧ ∃ u, u = post 0x0202#16 i (n8 k.attempt) (updPll i (fun y => { y with state := .failed, relock := none }) { s with time := t.time })
          ∧ (k.request = none → t = u) ∧ ∀ op, k.request = some op → t = endLong op i E_NOT_READY [] u) := by
  by_cases hmore : k.request = none ∧ k.attempt < 3
  · have hget := getPll_startRelock (hop := k.hop) (req := none) (k := k.attempt + 1) (s := attemptEnd k s) hi
    refine ⟨_, relockAttemptTimeout_again hst hk hmore, startRelock_raw, fun _ => ?_, fun hno => absurd hmore hno⟩
    rw [hget, ← hmore.1]
    exact ⟨rfl, rfl⟩
  · obtain ⟨t, hexec, hreply, hnone, hsome⟩ := relockAttemptTimeout_fails hst hk hmore
    have htime : t.time = (attemptEnd k s).time := hreply.time.trans (post_time ..)
    have hget := (getPll_of_clk hreply.clk i).trans ((getPll_of_clk (post_clk ..) i).trans (getPll_updPll_same (s := attemptEnd k s) _ hi))
    exact ⟨t, hexec, congrArg (·.raw) htime, fun h => absurd h hmore, fun _ => ⟨by rw [hget], by rw [hget], _, by rw [htime]; rfl, hnone, hsome⟩⟩

end

/-! ### O23: the whole course -/

theorem startRelock_starts {i : Nat} {s : State} (hi : i < s.clk.plls.length) (hop : Bool) (req : Option U16) (k : Nat) :
    (getPll (startRelock i hop req k s) i).state = .search
    ∧ (getPll (startRelock i hop req k s) i).relock = some { start := s.time.raw, hop := hop, request := req, attempt := k }
    ∧ (getPll (startRelock i hop req k s) i).gated = everyOutput i
    ∧ (i = 0 → (startRelock i hop req k s).time.onFallback = List.replicate 5 true
        ∧ (s.time.onFallback.getD 0 true = false → (startRelock i hop req k s).time.fbStart = some s.time.raw ∧ (startRelock i hop req k s).time.fbCount = s.time.fbCount + 1))
    ∧ (i = 1 → (startRelock i hop req k s).time = s.time) := by
  have hget := getPll_startRelock (hop := hop) (req := req) (k := k) hi
  refine ⟨by rw [hget]; rfl, by rw [hget]; rfl, by rw [hget]; rfl, fun h0 => ?_, fun h1 => ?_⟩
  · rw [startRelock_time, if_pos h0]
    exact ⟨rfl, fun hpwm => by simp only [fellBack, hpwm, Bool.false_eq_true, if_false, and_self]⟩
  · rw [startRelock_time, if_neg (by omega)]

/-- Settles O23, row by row: each leaves the ADPLL as one update of it, and what comes after that update shows neither clocks nor time. -/
theorem relocksLocksAndLosses : Obligations.RelocksLocksAndLosses := by
  unfold Obligations.RelocksLocksAndLosses
  refine ⟨fun i hop req k s hi hlen => startRelock_starts (hlen ▸ hi) hop req k, fun i s hi hlen => ?_⟩
  rw [← hlen] at hi
  exact ⟨fun k hopLocked band fine f rms edge hst hk => adpllLock_locks hi hst hk hopLocked band fine f rms edge, fun out left hst hout hgated hleft => outputRelease_releases hi hst hout hgated hleft,
    fun _ => outputRelease_idle, fun hopLocked band fine f rms edge h => adpllLock_of_not_search h hopLocked band fine f rms edge,
    fun reason hl hv => lossOfLock_idle hl hv reason, relockStart_idle, relockAttemptTimeout_idle, fun reason hst hoff => lossOfLock_of_allOff hi hst hoff reason,
    fun reason hst hbusy hrun hclear => lossOfLock_of_busy hst hbusy hrun hclear reason, relockStart_searches hi, fun k => relockAttemptTimeout_attempts hi⟩

end Sys2Proof.Proofs

/-! ## Sage's windows, impulses and time -/

namespace Sys2Proof.Proofs

open Sys2Proof Sys2Proof.Machine Sys2Proof.Claims Sys2Proof.Laws

/-! ### O53: what changes Sage alone -/

theorem sageOnly_trans {a b c : State} (h : SageOnly a b) (k : SageOnly b c) : SageOnly a c := by
  unfold SageOnly at *
  rw [k, h]

theorem sageOnly_of_sage (s : State) (x : Sage) : SageOnly s { s with sage := x } := rfl

theorem sageOnly_updSage (f : Sage → Sage) (s : State) : SageOnly s (updSage f s) := rfl

theorem sageOnly_of_log_at {s t : State} {x : Sage} (h : LogOnly { s with sage := x } t) : SageOnly s t := by
  unfold LogOnly at h
  unfold SageOnly
  rw [h]

theorem sageOnly_of_log {s t : State} (h : LogOnly s t) : SageOnly s t := sageOnly_of_log_at (x := s.sage) h

/-! ### O53: the crystal count and the Sage log (R504, R524, R526) -/

section
variable (c : Nat) (s : State)

@[simp] theorem sageAdvance_phase : (sageAdvance c s).sage.phase = s.sage.phase := rfl
@[simp] theorem sageAdvance_clockFail : (sageAdvance c s).sage.clockFail = s.sage.clockFail := rfl
@[simp] theorem sageAdvance_retention : (sageAdvance c s).sage.retention = s.sage.retention := rfl
@[simp] theorem sageAdvance_supplyWarn : (sageAdvance c s).sage.supplyWarn = s.sage.supplyWarn := rfl
@[simp] theorem sageAdvance_windowStart : (sageAdvance c s).sage.windowStart = s.sage.windowStart := rfl
@[simp] theorem sageAdvance_params : (sageAdvance c s).sage.params = s.sage.params := rfl
@[simp] theorem sageAdvance_next : (sageAdvance c s).sage.next = s.sage.next := rfl
@[simp] theorem sageAdvance_copies : (sageAdvance c s).sage.copies = s.sage.copies := rfl
@[simp] theorem sageAdvance_signing : (sageAdvance c s).sage.signing = s.sage.signing := rfl
@[simp] theorem sageAdvance_updates : (sageAdvance c s).sage.updates = s.sage.updates := rfl

theorem sageAdvance_only : SageOnly s (sageAdvance c s) := rfl

variable {c s}

theorem sageAdvance_ticks (h : s.sage.clockFail = false) : (sageAdvance c s).sage.ticks = max s.sage.ticks c := by
  show s.sage.ticks + (if s.sage.clockFail then 0 else c - s.sage.ticks) = _
  rw [h, if_neg Bool.false_ne_true]
  omega

theorem sageAdvance_ticks_stopped (h : s.sage.clockFail = true) : (sageAdvance c s).sage.ticks = s.sage.ticks := by
  show s.sage.ticks + (if s.sage.clockFail then 0 else c - s.sage.ticks) = _
  rw [h, if_pos rfl, Nat.add_zero]

end

/-- Posting the Sage log's new entries leaves Sage but for the count of entries posted. -/
theorem sagePostLog_log (s : State) : ∃ k, LogOnly { s with sage := { s.sage with logPosted := k } } (sagePostLog s) := by
  unfold sagePostLog
  split
  · exact ⟨s.sage.logPosted, .refl s⟩
  · have hposts (l : List SageLogEntry) (u : State) : LogOnly u (l.foldl (fun s e => post e.code 0 e.data s) u) := by
      induction l generalizing u with
      | nil => exact .refl u
      | cons e l ih => exact (post_log ..).trans (ih _)
    exact ⟨s.sage.logNext, hposts _ _⟩

/-- A new entry stands last in the Sage log. -/
theorem sageLog_log (code : U16) (data : Bytes) (s : State) : ∃ l e k,
    LogOnly { s with sage := { s.sage with log := l ++ [e], logNext := s.sage.logNext + 1, logPosted := k } } (sageLog code data s) ∧ e.code = code ∧ e.data = data := by
  obtain ⟨k, hk⟩ := sagePostLog_log (updSage (fun x => { x with log := (if x.log.length ≥ 512 then x.log.drop 1 else x.log)
    ++ [{ time := BitVec.ofNat 64 (sageNs s), code := code, counter := s.sage.counter, data := data }], logNext := x.logNext + 1 }) s)
  exact ⟨_, _, k, hk, rfl, rfl⟩

theorem sageLog_only (code : U16) (data : Bytes) (s : State) : SageOnly s (sageLog code data s) := by
  obtain ⟨l, e, k, hlog, -, -⟩ := sageLog_log code data s
  exact sageOnly_of_log_at hlog

/-- An entry changes of Sage its log alone. -/
theorem sageLog_sage (code : U16) (data : Bytes) (s : State) : ∃ l e k,
    (sageLog code data s).sage = { s.sage with log := l ++ [e], logNext := s.sage.logNext + 1, logPosted := k } ∧ e.code = code ∧ e.data = data := by
  obtain ⟨l, e, k, hlog, he⟩ := sageLog_log code data s
  exact ⟨l, e, k, hlog.sage, he⟩

/-! ### O53: a signing that is due (R515, R516) -/

section
variable {s : State}

/-- Where none waits, a signing begins with the body of its record. -/
theorem queueSigning_first (h : s.sage.signing = []) {j : SignJob} (hj : j.body = none) :
    ∃ b, queueSigning j s = { s with sage := { s.sage with signing := [{ j with body := some b }], n := s.sage.n + 1, failSince := s.sage.clockFail } } := by
  refine ⟨recordBody (updSage (fun x => { x with signing := x.signing ++ [j] }) s) j, ?_⟩
  unfold queueSigning startSigning updSage
  simp only [h, List.nil_append, hj]
  rfl

theorem startSigning_length (s : State) :
    ∃ l n f, startSigning s = { s with sage := { s.sage with signing := l, n := n, failSince := f } } ∧ l.length = s.sage.signing.length := by
  unfold startSigning
  split
  · next j l hl =>
    split
    · exact ⟨s.sage.signing, s.sage.n, s.sage.failSince, rfl, rfl⟩
    · exact ⟨_ :: l, _, _, rfl, by rw [hl]; rfl⟩
  · exact ⟨s.sage.signing, s.sage.n, s.sage.failSince, rfl, rfl⟩

/-- A signing that is due joins those that wait. -/
theorem queueSigning_joins (j : SignJob) (s : State) :
    ∃ l n f, queueSigning j s = { s with sage := { s.sage with signing := l, n := n, failSince := f } } ∧ l.length = s.sage.signing.length + 1 := by
  obtain ⟨l, n, f, h, hlen⟩ := startSigning_length (updSage (fun x => { x with signing := x.signing ++ [j] }) s)
  exact ⟨l, n, f, h, hlen.trans (by simp)⟩

theorem checkpointDue_first (h : s.sage.signing = []) (trigger : Nat) (asked : Bool) : ∃ j,
    (∃ n f, checkpointDue trigger asked s = { s with sage := { s.sage with signing := [j], n := n, failSince := f } }) ∧ j.checkpoint = true ∧ j.trigger = trigger ∧ j.body ≠ none := by
  obtain ⟨b, hb⟩ := queueSigning_first h (j := { checkpoint := true, host := zeros 32, trigger := trigger, asked := asked, body := none }) rfl
  exact ⟨_, ⟨_, _, hb⟩, rfl, rfl, nofun⟩

theorem checkpointDue_joins (trigger : Nat) (asked : Bool) (s : State) :
    ∃ l n f, checkpointDue trigger asked s = { s with sage := { s.sage with signing := l, n := n, failSince := f } } ∧ l.length = s.sage.signing.length + 1 :=
  queueSigning_joins _ s

theorem checkpointDue_only (trigger : Nat) (asked : Bool) (s : State) : SageOnly s (checkpointDue trigger asked s) := by
  obtain ⟨l, n, f, h, -⟩ := checkpointDue_joins trigger asked s
  rw [h]
  exact sageOnly_of_sage s _

end

/-! ### O53: windows and energy (R506 to R508, R531) -/

/-- The registers after a window of a length in ticks with the bits of its inputs. -/
def grownRegs (x : Sage) (bits : List (List Bool)) (ticks : Nat) : List (BitVec 96) :=
  ((sageRegs x).zip (windowEnergy x (sageSamples x bits) ticks)).map (fun r => r.1 + BitVec.ofNat 96 r.2)

theorem grownRegs_length (x : Sage) (bits : List (List Bool)) (ticks : Nat) : (grownRegs x bits ticks).length = 10 := by
  simp [grownRegs, sageRegs_length, windowEnergy]

theorem grownRegs_getD (x : Sage) (bits : List (List Bool)) (ticks : Nat) {i : Nat} (hi : i < 10) :
    (grownRegs x bits ticks).getD i 0 = (sageRegs x).getD i 0 + BitVec.ofNat 96 ((windowEnergy x (sageSamples x bits) ticks).getD i 0) := by
  have hr : i < (sageRegs x).length := by rw [sageRegs_length]; exact hi
  have he : i < (windowEnergy x (sageSamples x bits) ticks).length := by simpa [windowEnergy] using hi
  simp [grownRegs, List.getD_eq_getElem?_getD, hr, he]

/-- Advancing the count leaves what a window adds. -/
theorem grownRegs_sageAdvance (c : Nat) (s : State) (bits : List (List Bool)) (ticks : Nat) :
    grownRegs (sageAdvance c s).sage bits ticks = grownRegs s.sage bits ticks := rfl

/-- Three equal copies vote for themselves (R531). -/
theorem sageRegs_of_equal_copies {x : Sage} {l : List (BitVec 96)} (hx : x.copies = List.replicate 3 l) (hl : l.length = 10) : sageRegs x = l :=
  sageRegs_of_lost_copy (c := 0) (f := id) hx hl (by omega) |> (by simpa [upd] using ·)

/-- The contributing phases are the ones that are used and whose current reaches the threshold, in order (R508). -/
theorem contributing_eq {x : Sage} {w : Nat × List (List Rat)} {ks : List Nat} (hmem : ∀ k, k ∈ ks ↔ k ∈ sagePhases x ∧ sageIStart x ≤ sageRms x w k) (hks : ks.Pairwise (· < ·)) :
    (sagePhases x).filter (fun k => decide (sageRms x w k ≥ sageIStart x)) = ks := by
  have hphases : (sagePhases x).Pairwise (· < ·) := by
    unfold sagePhases
    split <;> decide
  refine (hphases.filter _).eq_of_mem_iff hks fun k => ?_
  rw [List.mem_filter, hmem, decide_eq_true_iff]

/-- What a window adds to the registers, by its contributing phases (R508). -/
theorem windowEnergy_of_contributing {x : Sage} {w : Nat × List (List Rat)} {ks : List Nat} (hmem : ∀ k, k ∈ ks ↔ k ∈ sagePhases x ∧ sageIStart x ≤ sageRms x w k)
    (hks : ks.Pairwise (· < ·)) (ticks : Nat) {e : Rat → Nat} (he : e = fun v => if v > 0 then energyOf v ticks else 0) {ph : Nat → Rat} (hph : ph = fun k => if ks.contains k then sageP x w k else 0) :
    windowEnergy x w ticks = [e (ks.map (sageP x w)).sum, e (-(ks.map (sageP x w)).sum), e (ks.map (sageQ x w)).sum, e (-(ks.map (sageQ x w)).sum),
      e (ph 0), e (ph 1), e (ph 2), e (-ph 0), e (-ph 1), e (-ph 2)] := by
  unfold windowEnergy
  rw [contributing_eq hmem hks, he, hph]
  rfl

/-- A window with grown registers and the loaded block in use has been measured. -/
theorem windowAdded_of_grown {s t : State} {bits : List (List Bool)}
    (hcopies : t.sage.copies = List.replicate 3 (grownRegs s.sage bits (t.sage.ticks - s.sage.windowStart)))
    (hparams : t.sage.params = s.sage.next.or s.sage.params) (hnext : t.sage.next = none) : windowAdded s t bits := by
  have hregs := sageRegs_of_equal_copies hcopies (grownRegs_length ..)
  refine ⟨by rw [hcopies, hregs], hparams, hnext, ?_⟩
  rintro w ks p q reg add rfl hreg hmem hks rfl rfl hadd
  obtain ⟨e, he⟩ : ∃ e : Rat → Nat, e = fun v => if v > 0 then energyOf v (t.sage.ticks - s.sage.windowStart) else 0 := ⟨_, rfl⟩
  obtain ⟨ph, hph⟩ : ∃ ph : Nat → Rat, ph = fun k => if ks.contains k then sageP s.sage (sageSamples s.sage bits) k else 0 := ⟨_, rfl⟩
  have hadd' : ∀ i v, add i v = (sageRegs s.sage).getD i 0 + BitVec.ofNat 96 (e v) := by
    intro i v
    rw [hadd, he]
    dsimp only
    split <;> rfl
  have hall (i : Nat) (hi : i < 10) : reg i = (sageRegs s.sage).getD i 0 + BitVec.ofNat 96 ((windowEnergy s.sage (sageSamples s.sage bits) (t.sage.ticks - s.sage.windowStart)).getD i 0) := by
    rw [hreg, hregs, grownRegs_getD _ _ _ hi]
  rw [windowEnergy_of_contributing hmem hks _ he hph] at hall
  have hphase (k : Nat) (hk : k < 3) : reg (4 + k) = add (4 + k) (ph k) ∧ reg (7 + k) = add (7 + k) (-ph k) := by
    rw [hall _ (by omega), hall _ (by omega), hadd', hadd']
    obtain rfl | rfl | rfl : k = 0 ∨ k = 1 ∨ k = 2 := by omega
    all_goals exact ⟨rfl, rfl⟩
  refine ⟨(hall 0 (by omega)).trans (hadd' ..).symm, (hall 1 (by omega)).trans (hadd' ..).symm, (hall 2 (by omega)).trans (hadd' ..).symm,
    (hall 3 (by omega)).trans (hadd' ..).symm, fun k hk => ⟨fun hin => ?_, fun hout => ?_⟩⟩
  · have hphk : ph k = sageP s.sage (sageSamples s.sage bits) k := by rw [hph]; exact if_pos (List.contains_iff_mem.mpr hin)
    exact hphk ▸ hphase k hk
  · have hphk : ph k = 0 := by rw [hph]; exact if_neg fun h => hout (List.contains_iff_mem.mp h)
    have h := hphase k hk
    rw [hphk, neg_zero] at h
    exact h

/-- What measuring a window leaves of Sage. -/
structure WindowMeasured (bits : List (List Bool)) (ticks : Nat) (x y : Sage) : Prop where
  copies : y.copies = List.replicate 3 (grownRegs x bits ticks)
  params : y.params = x.next.or x.params
  next : y.next = none
  windowStart : y.windowStart = x.ticks
  ticks : y.ticks = x.ticks
  updates : y.updates = x.updates
  signing : y.signing = x.signing
  supplyWarn : y.supplyWarn = x.supplyWarn

/-- Beside Sage, measuring a window shows only the event of a limited output (R508, R512). -/
theorem sageMeasure_log (bits : List (List Bool)) (ticks : Nat) (s : State) :
    ∃ y, LogOnly { s with sage := y } (sageMeasure bits ticks s) ∧ WindowMeasured bits ticks s.sage y := by
  unfold sageMeasure
  extract_lets +onlyGivenNames x w used f on e src pulse acc due room limited pf vAct act s1
  refine ⟨s1.sage, ?_, ⟨rfl, rfl, rfl, rfl, rfl, rfl, rfl, rfl⟩⟩
  show LogOnly s1 _
  split
  · exact sagePost_log ..
  · exact .refl s1

theorem sageMeasure_only (bits : List (List Bool)) (ticks : Nat) (s : State) : SageOnly s (sageMeasure bits ticks s) := by
  obtain ⟨y, hlog, -⟩ := sageMeasure_log bits ticks s
  exact sageOnly_of_log_at hlog

theorem sageMeasure_measured (bits : List (List Bool)) (ticks : Nat) (s : State) : WindowMeasured bits ticks s.sage (sageMeasure bits ticks s).sage := by
  obtain ⟨y, hlog, hy⟩ := sageMeasure_log bits ticks s
  rw [hlog.sage]
  exact hy

section
variable (s : State)

@[simp] theorem sagePublish_copies : (sagePublish s).sage.copies = s.sage.copies := rfl
@[simp] theorem sagePublish_params : (sagePublish s).sage.params = s.sage.params := rfl
@[simp] theorem sagePublish_next : (sagePublish s).sage.next = s.sage.next := rfl
@[simp] theorem sagePublish_windowStart : (sagePublish s).sage.windowStart = s.sage.windowStart := rfl
@[simp] theorem sagePublish_ticks : (sagePublish s).sage.ticks = s.sage.ticks := rfl
@[simp] theorem sagePublish_updates : (sagePublish s).sage.updates = s.sage.updates + 1 := rfl
@[simp] theorem sagePublish_signing : (sagePublish s).sage.signing = s.sage.signing := rfl
@[simp] theorem sagePublish_supplyWarn : (sagePublish s).sage.supplyWarn = s.sage.supplyWarn := rfl

theorem sagePublish_only : SageOnly s (sagePublish s) := rfl

end

/-- The window that runs in `s` closes and is published in `t`, at the tick of `u`. -/
structure WindowClosed (bits : List (List Bool)) (s u t : State) : Prop where
  only : SageOnly u t
  added : windowAdded s t bits
  ticks : t.sage.ticks = u.sage.ticks
  windowStart : t.sage.windowStart = u.sage.ticks
  updates : t.sage.updates = s.sage.updates + 1
  signing : t.sage.signing = s.sage.signing
  supplyWarn : t.sage.supplyWarn = s.sage.supplyWarn

theorem windowClosed_at (bits : List (List Bool)) (c : Nat) {s u : State} (hu : u = sageAdvance c s) :
    WindowClosed bits s u (sagePublish (sageMeasure bits (u.sage.ticks - s.sage.windowStart) u)) := by
  subst hu
  obtain ⟨hcopies, hparams, hnext, hwindow, hticks, hupdates, hsigning, hwarn⟩ := sageMeasure_measured bits ((sageAdvance c s).sage.ticks - s.sage.windowStart) (sageAdvance c s)
  rw [grownRegs_sageAdvance] at hcopies
  exact
    { only := sageOnly_trans (sageMeasure_only ..) (sagePublish_only _)
      added := windowAdded_of_grown (by rw [sagePublish_copies, sagePublish_ticks, hcopies, hticks]) (by rw [sagePublish_params, hparams, sageAdvance_next, sageAdvance_params])
        (by rw [sagePublish_next, hnext])
      ticks := hticks
      windowStart := hwindow
      updates := by rw [sagePublish_updates, hupdates, sageAdvance_updates]
      signing := by rw [sagePublish_signing, hsigning, sageAdvance_signing]
      supplyWarn := by rw [sagePublish_supplyWarn, hwarn, sageAdvance_supplyWarn] }

theorem sageRuns_iff {s : State} : sageRuns s = true ↔ s.sage.phase = .metering ∧ s.sage.clockFail = false ∧ s.sage.retention = false := by
  simp [sageRuns, and_assoc]

/-! ### O53: the end of a window (R507, R517, R527) -/

section
variable {s : State}

theorem sageWindowEnd_idle (h : sageRuns s = false) (bits : List (List Bool)) : exec (.sageWindowEnd bits) s = .next s := by
  show execSageWindowEnd bits s = _
  exact if_pos (by rw [h]; rfl)

theorem sageWindowEnd_runs (h : sageRuns s = true) (hle : s.sage.ticks ≤ (s.sage.windowStart / 19660800 + 1) * 19660800) (bits : List (List Bool)) :
    ∃ t, exec (.sageWindowEnd bits) s = .next t ∧ SageOnly s t ∧ t.sage.ticks = (s.sage.windowStart / 19660800 + 1) * 19660800 ∧ t.sage.windowStart = t.sage.ticks
      ∧ t.sage.updates = s.sage.updates + 1 ∧ (s.sage.supplyWarn = false → t.sage.signing = s.sage.signing)
      ∧ (s.sage.supplyWarn = true → t.sage.signing.length = s.sage.signing.length + 1) ∧ windowAdded s t bits := by
  obtain ⟨-, hclock, -⟩ := sageRuns_iff.mp h
  obtain ⟨u, hu⟩ : ∃ u, u = sageAdvance ((s.sage.windowStart / windowTicks + 1) * windowTicks) s := ⟨_, rfl⟩
  obtain ⟨w, hw⟩ : ∃ w, w = sagePublish (sageMeasure bits (u.sage.ticks - s.sage.windowStart) u) := ⟨_, rfl⟩
  have hexec : exec (.sageWindowEnd bits) s = .next (if s.sage.supplyWarn then checkpointDue 1 false w else w) := by
    show execSageWindowEnd bits s = _
    rw [hw, hu]
    exact if_neg (by rw [h]; decide)
  have hticks : u.sage.ticks = (s.sage.windowStart / 19660800 + 1) * 19660800 := by
    rw [hu, sageAdvance_ticks hclock]
    exact max_eq_right hle
  have hclosed : WindowClosed bits s u w := hw ▸ windowClosed_at bits _ hu
  have honly : SageOnly s w := sageOnly_trans (hu ▸ sageAdvance_only _ s) hclosed.only
  rw [hexec]
  cases hwarn : s.sage.supplyWarn with
  | false =>
    exact ⟨w, rfl, honly, hclosed.ticks.trans hticks, hclosed.windowStart.trans hclosed.ticks.symm, hclosed.updates, fun _ => hclosed.signing, nofun, hclosed.added⟩
  | true =>
    obtain ⟨l, n, f, hdue, hlen⟩ := checkpointDue_joins 1 false w
    rw [if_pos rfl, hdue]
    exact ⟨_, rfl, sageOnly_trans honly (sageOnly_of_sage w _), hclosed.ticks.trans hticks, hclosed.windowStart.trans hclosed.ticks.symm, hclosed.updates, nofun,
      fun _ => hlen.trans (by rw [hclosed.signing]), hclosed.added⟩

end

/-! ### O53: the supply warning (R501, R517) -/

/-- VDD_SAGE is at or below the warning level for the time that qualifies it (R501). -/
def warnsAt (v : F32) (held : Nat) : Prop := f32Bad v = false ∧ f32Val v ≤ 295 / 100 ∧ 1000 ≤ held

theorem sageLevel_warns {v : F32} {held : Nat} : sageLevel (sageWarns v) v held = true ↔ warnsAt v held := by
  simp only [sageLevel, sageWarns, warnsAt, Bool.and_eq_true, Bool.not_eq_true', decide_eq_true_iff]
  tauto

theorem not_warnsAt {v : F32} {held : Nat} (h : f32Bad v = true ∨ 295 / 100 < f32Val v ∨ held < 1000) : ¬ warnsAt v held := by
  rintro ⟨hbad, hv, hheld⟩
  obtain h | h | h := h
  · rw [hbad] at h
    contradiction
  · exact absurd hv (not_le.mpr h)
  · omega

section
variable {s : State} {v : F32} {held : Nat}

theorem sageSupplyWarn_idle (h : s.sage.supplyWarn = true ∨ ¬ warnsAt v held) (c : Nat) (bits : List (List Bool)) : exec (.sageSupplyWarn c v held bits) s = .next s := by
  show execSageSupplyWarn c v held bits s = _
  refine if_pos (h.imp id fun h => ?_)
  rw [Bool.not_eq_true', ← Bool.not_eq_true, sageLevel_warns]
  exact h

/-- The state in which a warning is noted. -/
def warnNoted (s : State) : State := updSage (fun x => { x with supplyWarn := true }) s

theorem sageSupplyWarn_inReset (hw : s.sage.supplyWarn = false) (h : warnsAt v held) (hp : s.sage.phase = .inReset) (c : Nat) (bits : List (List Bool)) :
    exec (.sageSupplyWarn c v held bits) s = .next (warnNoted s) := by
  show execSageSupplyWarn c v held bits s = _
  unfold execSageSupplyWarn
  dsimp only
  rw [if_neg (by simp [hw, sageLevel_warns.mpr h]), if_pos hp]
  rfl

/-- Outside reset a warning closes the window that runs, and makes a checkpoint due. -/
theorem sageSupplyWarn_live (hw : s.sage.supplyWarn = false) (h : warnsAt v held) (hp : s.sage.phase ≠ .inReset) (c : Nat) (bits : List (List Bool)) :
    ∃ w, exec (.sageSupplyWarn c v held bits) s = .next (checkpointDue 1 false (sagePost false 0x0E04#16 (le32 v) w)) ∧ SageOnly s w ∧ w.sage.supplyWarn = true ∧ w.sage.signing = s.sage.signing
      ∧ (sageRuns s = true → w.sage.updates = s.sage.updates + 1 ∧ w.sage.windowStart = w.sage.ticks
        ∧ w.sage.ticks = max s.sage.ticks (min c ((s.sage.windowStart / 19660800 + 1) * 19660800)) ∧ windowAdded s w bits)
      ∧ (sageRuns s = false → w.sage.copies = s.sage.copies ∧ w.sage.updates = s.sage.updates ∧ w.sage.windowStart = s.sage.windowStart)
      ∧ (s.sage.phase = .released → w.sage.ticks = s.sage.ticks) := by
  obtain ⟨u, hu⟩ : ∃ u, u = if s.sage.phase = .metering then sageAdvance (min c ((s.sage.windowStart / windowTicks + 1) * windowTicks)) (warnNoted s) else warnNoted s := ⟨_, rfl⟩
  have hexec : exec (.sageSupplyWarn c v held bits) s = .next (checkpointDue 1 false (sagePost false 0x0E04#16 (le32 v)
      (if sageRuns u then sagePublish (sageMeasure bits (u.sage.ticks - s.sage.windowStart) u) else u))) := by
    show execSageSupplyWarn c v held bits s = _
    unfold execSageSupplyWarn
    dsimp only
    rw [if_neg (by simp [hw, sageLevel_warns.mpr h]), if_neg hp, hu]
    rfl
  have hruns : sageRuns u = sageRuns s := by
    rw [hu]
    split <;> rfl
  rw [hexec, hruns]
  refine ⟨_, rfl, ?_⟩
  cases hr : sageRuns s with
  | true =>
    obtain ⟨hmeter, hclock, -⟩ := sageRuns_iff.mp hr
    rw [if_pos hmeter] at hu
    have hclosed : WindowClosed bits (warnNoted s) u (sagePublish (sageMeasure bits (u.sage.ticks - s.sage.windowStart) u)) := windowClosed_at bits _ hu
    have hticks : u.sage.ticks = max s.sage.ticks (min c ((s.sage.windowStart / 19660800 + 1) * 19660800)) := by
      rw [hu]
      exact sageAdvance_ticks (s := warnNoted s) hclock
    have honly : SageOnly s u := hu ▸ sageOnly_trans (sageOnly_updSage _ s) (sageAdvance_only _ (warnNoted s))
    rw [if_pos rfl]
    exact ⟨sageOnly_trans honly hclosed.only, hclosed.supplyWarn, hclosed.signing,
      fun _ => ⟨hclosed.updates, hclosed.windowStart.trans hclosed.ticks.symm, hclosed.ticks.trans hticks, hclosed.added⟩, nofun, fun hrel => absurd (hrel ▸ hmeter) nofun⟩
  | false =>
    rw [if_neg Bool.false_ne_true, hu]
    split
    · next hmeter => exact ⟨rfl, rfl, rfl, nofun, fun _ => ⟨rfl, rfl, rfl⟩, fun hrel => absurd (hrel ▸ hmeter) nofun⟩
    · exact ⟨rfl, rfl, rfl, nofun, fun _ => ⟨rfl, rfl, rfl⟩, fun _ => rfl⟩

/-- The event of a warning and the checkpoint that it makes due leave the rest of Sage. -/
theorem warningCheckpoint (w : State) (d : Bytes) : ∃ t l n f, t = checkpointDue 1 false (sagePost false 0x0E04#16 d w) ∧ SageOnly w t ∧ t.sage = { w.sage with signing := l, n := n, failSince := f }
    ∧ l.length = w.sage.signing.length + 1 ∧ (w.sage.signing = [] → ∃ j, l = [j] ∧ j.checkpoint = true ∧ j.trigger = 1 ∧ j.body ≠ none) := by
  have hlog := sagePost_log false 0x0E04#16 d w
  generalize sagePost false 0x0E04#16 d w = u at hlog
  have honly := sageOnly_trans (sageOnly_of_log hlog) (checkpointDue_only 1 false u)
  obtain ⟨l, n, f, hdue, hlen⟩ := checkpointDue_joins 1 false u
  refine ⟨_, l, n, f, rfl, honly, by rw [hdue, hlog.sage], by rw [hlen, hlog.sage], fun hnone => ?_⟩
  obtain ⟨j, ⟨n', f', hfirst⟩, hj⟩ := checkpointDue_first (s := u) (by rw [hlog.sage, hnone]) 1 false
  rw [hdue] at hfirst
  exact ⟨j, congrArg (fun t => t.sage.signing) hfirst, hj⟩

theorem sageSupplyWarn_checkpoint (hw : s.sage.supplyWarn = false) (h : warnsAt v held) (hp : s.sage.phase ≠ .inReset) (c : Nat) (bits : List (List Bool)) :
    ∃ t, exec (.sageSupplyWarn c v held bits) s = .next t ∧ SageOnly s t ∧ t.sage.supplyWarn = true ∧ t.sage.signing.length = s.sage.signing.length + 1
      ∧ (s.sage.signing = [] → ∃ j, t.sage.signing = [j] ∧ j.checkpoint = true ∧ j.trigger = 1 ∧ j.body ≠ none)
      ∧ (sageRuns s = true → t.sage.updates = s.sage.updates + 1 ∧ t.sage.windowStart = t.sage.ticks
        ∧ t.sage.ticks = max s.sage.ticks (min c ((s.sage.windowStart / 19660800 + 1) * 19660800)) ∧ windowAdded s t bits)
      ∧ (sageRuns s = false → t.sage.copies = s.sage.copies ∧ t.sage.updates = s.sage.updates ∧ t.sage.windowStart = s.sage.windowStart)
      ∧ (s.sage.phase = .released → t.sage.ticks = s.sage.ticks) := by
  obtain ⟨w, hexec, honly, hwarn, hsigning, hrun, hidle, hrel⟩ := sageSupplyWarn_live hw h hp c bits
  obtain ⟨t, l, n, f, ht, honly', hsage, hlen, hfirst⟩ := warningCheckpoint w (le32 v)
  rw [hsigning] at hlen hfirst
  refine ⟨t, ht ▸ hexec, sageOnly_trans honly honly', ?_⟩
  unfold windowAdded at hrun ⊢
  rw [hsage]
  exact ⟨hwarn, hlen, hfirst, hrun, hidle, hrel⟩

theorem sageSupplyWarnRelease_eq (s : State) (v : F32) (held : Nat) :
    exec (.sageSupplyWarnRelease v held) s = .next (if f32Bad v = false ∧ 3 ≤ f32Val v ∧ 1000 ≤ held then { s with sage := { s.sage with supplyWarn := false } } else s) := by
  have hlevel : sageLevel (sageWarnOver v) v held = true ↔ f32Bad v = false ∧ 3 ≤ f32Val v ∧ 1000 ≤ held := by
    simp only [sageLevel, sageWarnOver, Bool.and_eq_true, Bool.not_eq_true', decide_eq_true_iff]
    tauto
  show execSageSupplyWarnRelease v held s = _
  unfold execSageSupplyWarnRelease
  simp only [hlevel]
  rfl

end

/-! ### O53: metering starts, and the clock (R503, R504) -/

section
variable {s : State}

theorem sageMeteringStart_starts (h : s.sage.phase = .released) :
    exec .sageMeteringStart s = .next { s with sage := { sageOpen s.sage with phase := .metering, quarter := s.sage.time / 24576 / 900000000000 } } := by
  show execSageMeteringStart s = _
  exact if_neg (by simp [h])

theorem sageMeteringStart_idle (h : s.sage.phase ≠ .released) : exec .sageMeteringStart s = .next s := if_pos h

theorem sageClockLost_idle (h : s.sage.phase = .inReset ∨ s.sage.clockFail = true) : exec .sageClockLost s = .next s := if_pos h

/-- Sage as its clock is lost: the impulse in progress ends. -/
def clockStopped (x : Sage) : Sage := { x with clockFail := true, failSince := true, pulse := false, pulseOn := x.pulseOn && !x.pulseStops, pulseStops := false }

theorem sageClockLost_lost (hp : s.sage.phase ≠ .inReset) (hc : s.sage.clockFail = false) : exec .sageClockLost s = .next (sageLog 0x0E08#16 [0] (updSage clockStopped s)) := by
  show execSageClockLost s = _
  exact if_neg (by simp [hp, hc])

theorem sageClockRestored_idle (h : s.sage.clockFail = false) : exec .sageClockRestored s = .next s := by
  show execSageClockRestored s = _
  exact if_pos (by simp [h])

theorem sageClockRestored_back (h : s.sage.clockFail = true) : exec .sageClockRestored s = .next (sageLog 0x0E08#16 [1] (updSage (fun x => { x with clockFail := false }) s)) := by
  show execSageClockRestored s = _
  exact if_neg (by simp [h])

theorem sageClock_logged (code : U16) (data : Bytes) (f : Sage → Sage) (s : State) : ∃ t l e k, t = sageLog code data (updSage f s) ∧ SageOnly s t
    ∧ t.sage = { f s.sage with log := l ++ [e], logNext := (f s.sage).logNext + 1, logPosted := k } ∧ (t.sage.log.getLast?.map (fun e => (e.code, e.data))) = some (code, data) := by
  obtain ⟨l, e, k, hsage, hcode, hdata⟩ := sageLog_sage code data (updSage f s)
  exact ⟨_, l, e, k, rfl, sageOnly_trans (sageOnly_updSage f s) (sageLog_only ..), hsage, by simp [hsage, hcode, hdata]⟩

end

/-! ### O53: impulses (R512) -/

section
variable {s : State}

/-- Nothing lets an impulse begin. -/
def NoImpulse (x : Sage) : Prop := x.params = none ∨ x.phase ≠ .metering ∨ x.clockFail = true ∨ x.pulseOn = false ∨ x.pulseStops = true ∨ x.pulse = true

theorem pulseEmit_idle (h : NoImpulse s.sage) : exec .pulseEmit s = .next s := by
  show execPulseEmit s = _
  unfold execPulseEmit
  dsimp only
  split
  · rfl
  · next b hb =>
    obtain h | h := h
    · rw [h] at hb
      contradiction
    · refine if_pos ?_
      simp only [Bool.not_eq_true']
      tauto

variable {b : Bytes} (hb : s.sage.params = some b)
include hb

theorem pulseEmit_short (h : s.sage.pulseAcc * n32At b 4 < 1000000 * 2 ^ 32) : exec .pulseEmit s = .next s := by
  show execPulseEmit s = _
  unfold execPulseEmit
  dsimp only
  rw [hb]
  exact if_pos (.inr (.inr (.inr (.inr (.inr h)))))

theorem pulseEmit_begins (hp : s.sage.phase = .metering) (hc : s.sage.clockFail = false) (hon : s.sage.pulseOn = true) (hstop : s.sage.pulseStops = false) (hpulse : s.sage.pulse = false)
    (h : 1000000 * 2 ^ 32 ≤ s.sage.pulseAcc * n32At b 4) {x : Sage} {at_ : Nat} (hat : at_ = match s.sage.pulseStart with | some i => i + 2 * pulseTicks b | none => 0) (hx : x = ranTo at_ s) :
    exec .pulseEmit s = .next { s with sage := { x with pulse := true, pulseStart := some x.ticks, pulseAcc := s.sage.pulseAcc - 1000000 * 2 ^ 32 / n32At b 4 } } := by
  subst hx hat
  show execPulseEmit s = _
  unfold execPulseEmit
  dsimp only
  rw [hb]
  refine (if_neg ?_).trans ?_
  · simp only [hp, hc, hon, hstop, hpulse, impulseUnits]
    simp
    omega
  · cases s.sage.pulseStart <;> rfl

theorem pulseEnd_ends {i : Nat} (hpulse : s.sage.pulse = true) (hi : s.sage.pulseStart = some i) {x : Sage} (hx : x = ranTo (i + pulseTicks b) s) :
    exec .pulseEnd s = .next { s with sage := { x with pulse := false, pulseOn := x.pulseOn && !x.pulseStops, pulseStops := false } } := by
  subst hx
  show execPulseEnd s = _
  unfold execPulseEnd
  dsimp only
  rw [hpulse, hb, hi]
  rfl

omit hb in
theorem pulseEnd_idle (h : s.sage.pulse = false ∨ s.sage.params = none ∨ s.sage.pulseStart = none) : exec .pulseEnd s = .next s := by
  show execPulseEnd s = _
  unfold execPulseEnd
  dsimp only
  split
  · simp_all
  · rfl

end

/-! ### O53: retention (R513) -/

section
variable {s : State}

theorem retentionEntry_idle (h : sageRuns s = false ∨ s.sage.hostActive = true ∨ s.sage.hostEnded = true ∨ s.sage.ticks ≤ s.sage.lastActive) : exec .retentionEntry s = .next s :=
  if_pos (h.imp (by simp) id)

theorem retentionEntry_enters (h : sageRuns s = true) (hhost : s.sage.hostActive = false) (hended : s.sage.hostEnded = false) (hlast : s.sage.lastActive < s.sage.ticks) {x : Sage}
    (hx : x = ranTo (s.sage.lastActive + 983040000) s) :
    exec .retentionEntry s = .next { s with sage := { x with retention := true } } ∧ x.ticks = max s.sage.ticks (s.sage.lastActive + 983040000) := by
  subst hx
  obtain ⟨-, hclock, -⟩ := sageRuns_iff.mp h
  exact ⟨if_neg (by simp [h, hhost, hended]; omega), sageAdvance_ticks hclock⟩

theorem retentionProbe_idle (h : s.sage.phase ≠ .metering ∨ s.sage.retention = false) (found : Bool) : exec (.retentionProbe found) s = .next s :=
  if_pos (h.imp id (by simp))

theorem retentionProbe_probes (hp : s.sage.phase = .metering) (hr : s.sage.retention = true) (found : Bool) {x : Sage} (hx : x = ranTo ((s.sage.ticks / 1966080 + 1) * 1966080) s) :
    exec (.retentionProbe found) s = .next { s with sage := if found = true then { sageOpen x with retention := false } else x } := by
  subst hx
  show execRetentionProbe found s = _
  refine (if_neg (by simp [hp, hr])).trans ?_
  cases found <;> rfl

end

/-! ### O53: tie-points and Sage time (R505, R524, R525) -/

/-- The host's time of a domain, in ns, at a tie-point. -/
def tieTime (d : Nat) (s : State) : Int := domTime (getTd s d) s.time.raw / ns1
/-- How far Sage time lies behind a domain at a tie-point, in ns. -/
def tieOffset (d : Nat) (s : State) : Int := tieTime d s - (sageNs s : Int)
/-- A seal does not allow a step yet (R525). -/
def stepBarred (s : State) : Bool := s.sage.sealState == .isSealed && (match s.sage.lastStep with | some u => decide (sageNs s < u + 86400000000000) | none => false)

/-- Sage time is slewed to a domain. -/
def tieSlewed (d : Nat) (s : State) : State := updSage (fun x => { x with slewLeft := tieOffset d s * 24576 }) s
/-- Sage as its time steps to a domain. -/
def steppedTo (t : Nat) (x : Sage) : Sage := { x with time := t * 24576, slewLeft := 0, counter := x.counter + 1, lastStep := some t, quarter := t / 900000000000 }
/-- Sage time steps to a domain. -/
def tieStepped (d : Nat) (s : State) : State := checkpointDue 3 false (sageLog 0x0E05#16 (i64b (tieOffset d s)) (updSage (steppedTo (tieTime d s).toNat) s))

/-- One SAGE_SET_TIME compares at a tie-point. -/
def tieCompared (s : State) (d : Nat) : State :=
  if (tieOffset d s).natAbs ≤ 2000000000 then endLong 0x0E02#16 0 OK (i64b (tieOffset d s) ++ n8 0 ++ zeros 3) (tieSlewed d s)
  else if stepBarred s then endLong 0x0E02#16 0 E_SEALED [] s
  else endLong 0x0E02#16 0 OK (i64b (tieOffset d s) ++ n8 1 ++ zeros 3) (tieStepped d s)

/-- The crystal count of a tie-point is reached, and no request waits any longer. -/
def tied (c : Nat) (s : State) : State := { s with sage := { ranTo c s with fromCrystal := false, setTime := [] } }

section
variable {s : State}

theorem sageTiePoint_idle (h : s.sage.phase = .inReset ∨ s.sys.phase = .inReset) (c : Nat) : exec (.sageTiePoint c) s = .next s := if_pos h

theorem sageTiePoint_ties (hp : s.sage.phase ≠ .inReset) (hs : s.sys.phase ≠ .inReset) (c : Nat) : exec (.sageTiePoint c) s = .next (s.sage.setTime.foldl tieCompared (tied c s)) := by
  show execSageTiePoint c s = _
  exact if_neg (by simp [hp, hs])

theorem tieStepped_only (d : Nat) (s : State) : SageOnly s (tieStepped d s) :=
  sageOnly_trans (sageOnly_updSage _ s) (sageOnly_trans (sageLog_only ..) (checkpointDue_only ..))

/-- What a step of Sage time leaves. -/
theorem tieStepped_sage (d : Nat) (s : State) : ∃ l e k j n f, (tieStepped d s).sage =
    { steppedTo (tieTime d s).toNat s.sage with log := l ++ [e], logNext := s.sage.logNext + 1, logPosted := k, signing := j, n := n, failSince := f } := by
  obtain ⟨l, e, k, hsage, -, -⟩ := sageLog_sage 0x0E05#16 (i64b (tieOffset d s)) (updSage (steppedTo (tieTime d s).toNat) s)
  obtain ⟨j, n, f, hdue, -⟩ := checkpointDue_joins 3 false (sageLog 0x0E05#16 (i64b (tieOffset d s)) (updSage (steppedTo (tieTime d s).toNat) s))
  refine ⟨l, e, k, j, n, f, ?_⟩
  unfold tieStepped
  rw [hdue, hsage]
  rfl

/-- What no comparison touches: the requests that wait, the source of time, the count and the registers. -/
def tieKept (s : State) : List Nat × Bool × Nat × List (List (BitVec 96)) := (s.sage.setTime, s.sage.fromCrystal, s.sage.ticks, s.sage.copies)

theorem tieCompared_kept (s : State) (d : Nat) : tieKept (tieCompared s d) = tieKept s := by
  have hlong {o : U16} {k : Nat} {st : U16} {b : Bytes} {u : State} : tieKept (endLong o k st b u) = tieKept u := by
    unfold tieKept
    rw [(endLong_reply o k st b u).sage]
  unfold tieCompared
  split
  · exact hlong
  · split
    · exact hlong
    · obtain ⟨l, e, k, j, n, f, hsage⟩ := tieStepped_sage d s
      refine hlong.trans ?_
      unfold tieKept
      rw [hsage]
      rfl

theorem sageTiePoint_kept (hp : s.sage.phase ≠ .inReset) (hs : s.sys.phase ≠ .inReset) (c : Nat) : ∃ t, exec (.sageTiePoint c) s = .next t ∧ t.sage.setTime = [] ∧ t.sage.fromCrystal = false
    ∧ (s.sage.clockFail = false → t.sage.ticks = max s.sage.ticks c) ∧ (s.sage.clockFail = true → t.sage.ticks = s.sage.ticks) ∧ t.sage.copies = s.sage.copies := by
  refine ⟨_, sageTiePoint_ties hp hs c, ?_⟩
  have h : tieKept _ = tieKept (tied c s) := foldl_reading tieCompared_kept s.sage.setTime (tied c s)
  simp only [tieKept, Prod.mk.injEq] at h
  obtain ⟨hset, hcrystal, hticks, hcopies⟩ := h
  exact ⟨hset, hcrystal, fun hc => hticks.trans (sageAdvance_ticks hc), fun hc => hticks.trans (sageAdvance_ticks_stopped hc), hcopies⟩

theorem tieCompared_slews {d : Nat} (h1 : -2000000000 ≤ tieOffset d s) (h2 : tieOffset d s ≤ 2000000000) :
    tieCompared s d = endLong 0x0E02#16 0 OK (i64b (tieOffset d s) ++ n8 0 ++ zeros 3) (tieSlewed d s) := if_pos (by omega)

theorem tieCompared_beyond {d : Nat} (h : tieOffset d s < -2000000000 ∨ 2000000000 < tieOffset d s) :
    tieCompared s d = if stepBarred s then endLong 0x0E02#16 0 E_SEALED [] s else endLong 0x0E02#16 0 OK (i64b (tieOffset d s) ++ n8 1 ++ zeros 3) (tieStepped d s) := if_neg (by omega)

theorem stepBarred_of_recent {l : Nat} (hseal : s.sage.sealState = .isSealed) (hl : s.sage.lastStep = some l) (h : sageNs s < l + 86400000000000) : stepBarred s = true := by
  simp [stepBarred, hseal, hl, h]

theorem stepBarred_of_allowed (h : s.sage.sealState ≠ .isSealed ∨ s.sage.lastStep = none ∨ ∃ l, s.sage.lastStep = some l ∧ l + 86400000000000 ≤ sageNs s) : stepBarred s = false := by
  obtain h | h | ⟨l, hl, h⟩ := h
  · simp [stepBarred, h]
  · simp [stepBarred, h]
  · simp [stepBarred, hl, h]

end

theorem tieStepped_first {d : Nat} {s : State} (h : s.sage.signing = []) : ∃ j, (tieStepped d s).sage.signing = [j] ∧ j.checkpoint = true ∧ j.trigger = 3 := by
  obtain ⟨l, e, k, hsage, -, -⟩ := sageLog_sage 0x0E05#16 (i64b (tieOffset d s)) (updSage (steppedTo (tieTime d s).toNat) s)
  obtain ⟨j, ⟨n, f, hdue⟩, hcheck, htrig, -⟩ := checkpointDue_first (s := sageLog 0x0E05#16 (i64b (tieOffset d s)) (updSage (steppedTo (tieTime d s).toNat) s)) (by rw [hsage]; exact h) 3 false
  exact ⟨j, by rw [tieStepped, hdue], hcheck, htrig⟩

/-- A request that waits is settled by the tie-point's comparison. -/
theorem sageTiePoint_compares {s u : State} {c d : Nat} {i off : Int} (hp : s.sage.phase ≠ .inReset) (hs : s.sys.phase ≠ .inReset)
    (hu : u = { s with sage := { ranTo c s with fromCrystal := false, setTime := [] } }) (hd : s.sage.setTime = [d]) (hi : i = domTime (getTd s d) s.time.raw / ns1) (hoff : off = i - (sageNs u : Int)) :
    (-2000000000 ≤ off → off ≤ 2000000000 → exec (.sageTiePoint c) s = .next (endLong 0x0E02#16 0 OK (i64b off ++ n8 0 ++ zeros 3) { u with sage := { u.sage with slewLeft := off * 24576 } }))
    ∧ (off < -2000000000 ∨ 2000000000 < off →
      (∀ l, s.sage.sealState = .isSealed → s.sage.lastStep = some l → sageNs u < l + 86400000000000 → exec (.sageTiePoint c) s = .next (endLong 0x0E02#16 0 E_SEALED [] u))
      ∧ (s.sage.sealState ≠ .isSealed ∨ s.sage.lastStep = none ∨ (∃ l, s.sage.lastStep = some l ∧ l + 86400000000000 ≤ sageNs u) → s.sage.signing = [] →
          ∃ t t2 j, exec (.sageTiePoint c) s = .next t2 ∧ t2 = endLong 0x0E02#16 0 OK (i64b off ++ n8 1 ++ zeros 3) t ∧ SageOnly s t
          ∧ t.sage.time = i.toNat * 24576 ∧ t.sage.slewLeft = 0 ∧ t.sage.quarter = i.toNat / 900000000000 ∧ t.sage.counter = s.sage.counter + 1 ∧ t.sage.lastStep = some i.toNat
          ∧ t.sage.copies = s.sage.copies ∧ t.sage.signing = [j] ∧ j.checkpoint = true ∧ j.trigger = 3 ∧ t.sage.logNext = s.sage.logNext + 1)) := by
  have hexec : exec (.sageTiePoint c) s = .next (tieCompared u d) := by
    rw [sageTiePoint_ties hp hs, hd, hu]
    rfl
  have htime : tieTime d u = i := by rw [hi, hu]; rfl
  have hoffset : tieOffset d u = off := by rw [hoff, ← htime]; rfl
  have honly : SageOnly s u := by rw [hu]; exact sageOnly_of_sage s _
  have hseal : u.sage.sealState = s.sage.sealState := by rw [hu]; rfl
  have hlast : u.sage.lastStep = s.sage.lastStep := by rw [hu]; rfl
  have hsigning : u.sage.signing = s.sage.signing := by rw [hu]; rfl
  rw [hexec]
  refine ⟨fun h1 h2 => ?_, fun hbeyond => ⟨fun l hs hl hns => ?_, fun hallowed hnone => ?_⟩⟩
  · rw [tieCompared_slews (hoffset ▸ h1) (hoffset ▸ h2), hoffset, tieSlewed, hoffset]
    rfl
  · rw [tieCompared_beyond (hoffset ▸ hbeyond), if_pos (stepBarred_of_recent (hseal.trans hs) (hlast.trans hl) hns)]
  · rw [tieCompared_beyond (hoffset ▸ hbeyond), stepBarred_of_allowed (by rw [hseal, hlast]; exact hallowed), hoffset]
    obtain ⟨j, hj, hcheck, htrig⟩ := tieStepped_first (d := d) (hsigning.trans hnone)
    obtain ⟨l, e, k, js, n, f, hsage⟩ := tieStepped_sage d u
    refine ⟨tieStepped d u, _, j, rfl, rfl, sageOnly_trans honly (tieStepped_only d u), ?_⟩
    rw [htime] at hsage
    rw [hsage] at hj ⊢
    rw [hu]
    exact ⟨rfl, rfl, rfl, rfl, rfl, rfl, hj, hcheck, htrig, rfl⟩

/-! ### O53: the whole -/

/-- Settles O53, row by row: each leaves Sage as one update of it, and the events that the housekeeping pair posts show nothing of Sage. -/
theorem sageMeasuresPulsesAndKeepsTime : Obligations.SageMeasuresPulsesAndKeepsTime := by
  unfold Obligations.SageMeasuresPulsesAndKeepsTime
  intro s _
  refine ⟨sageWindowEnd_idle, fun bits h hle => sageWindowEnd_runs h hle bits, ?_, ?_, sageSupplyWarnRelease_eq s, ?_, sageMeteringStart_idle, ⟨sageClockLost_idle, ?_, sageClockRestored_idle, ?_⟩, ?_,
    pulseEmit_idle, pulseEnd_idle, retentionEntry_idle, fun x h hhost hended hlast hx => retentionEntry_enters h hhost hended hlast hx, retentionProbe_idle, ?_, fun c => ⟨fun h => sageTiePoint_idle h c, fun hp hs => sageTiePoint_kept hp hs c⟩,
    fun h => if_pos h, fun h => if_neg h, ?_⟩
  · exact fun c v held bits h => sageSupplyWarn_idle (h.imp id not_warnsAt) c bits
  · exact fun c v held bits hw hbad hv hheld => ⟨fun hp => sageSupplyWarn_inReset hw ⟨hbad, hv, hheld⟩ hp c bits, fun hp => sageSupplyWarn_checkpoint hw ⟨hbad, hv, hheld⟩ hp c bits⟩
  · rintro x hp rfl
    exact sageMeteringStart_starts hp
  · intro hp hc
    obtain ⟨t, l, e, k, ht, honly, hsage, hlog⟩ := sageClock_logged 0x0E08#16 [0] clockStopped s
    refine ⟨t, ht ▸ sageClockLost_lost hp hc, honly, ?_⟩
    rw [hsage] at hlog ⊢
    exact ⟨rfl, rfl, rfl, rfl, rfl, rfl, rfl, hlog⟩
  · intro hc
    obtain ⟨t, l, e, k, ht, honly, hsage, hlog⟩ := sageClock_logged 0x0E08#16 [1] (fun x => { x with clockFail := false }) s
    refine ⟨t, ht ▸ sageClockRestored_back hc, honly, ?_⟩
    rw [hsage] at hlog ⊢
    exact ⟨rfl, rfl, rfl, rfl, rfl, hlog⟩
  · rintro b _ hb rfl - hp hc
    refine ⟨fun hpulse hon hstop => ⟨pulseEmit_short hb, fun x hacc hx => pulseEmit_begins hb hp hc hon hstop hpulse hacc rfl (hx.trans ?_)⟩, fun i x hpulse hi hx => pulseEnd_ends hb hpulse hi hx⟩
    cases s.sage.pulseStart <;> rfl
  · rintro found x hp hr hx
    exact retentionProbe_probes hp hr found hx
  · intro c u hp hs hu
    refine ⟨fun hnone => ?_, fun d i off hd hi hoff => ?_⟩
    · rw [sageTiePoint_ties hp hs, hnone, hu]
      rfl
    · obtain ⟨hslew, hbeyond⟩ := sageTiePoint_compares hp hs hu hd hi hoff
      exact ⟨hslew, fun h => ⟨(hbeyond h).1, fun hallowed _ => (hbeyond h).2 hallowed⟩⟩

end Sys2Proof.Proofs

/-! ## The requests of the sense inputs -/

namespace Sys2Proof.Proofs

open Sys2Proof Sys2Proof.Machine Sys2Proof.Claims Sys2Proof.Laws

/-! ### O33: a row of the sense inputs, by what its card makes of the request -/

section
variable {op : U16} {mine : Req → Bool} {f : State → Req → CardResult} {via : Transport} {s : State} {r : Req} (hb : s.sys.dev ≠ .boot) (h : Takes op via s r) (hm : mine r = true)
include hb h hm

theorem snsRow_done {t : State} {pl : Bytes} (hf : f (taken s via) r = .done t pl) : Host.Outcome.next (runCard mine (snsCard f) via s) = replied r OK pl t :=
  next_runCard_done h hm rfl (inAll4_of_ne_boot hb) hf

theorem snsRow_long {t : State} {k : Nat} {pl : Bytes} (hf : f (taken s via) r = .long t k pl) : Host.Outcome.next (runCard mine (snsCard f) via s) = accepted r k pl t :=
  next_runCard_long h hm rfl (inAll4_of_ne_boot hb) hf

theorem snsRow_reject {st : U16} (hf : f (taken s via) r = rejectWith st) : Host.Outcome.next (runCard mine (snsCard f) via s) = replied r st [] (dropRequest s via) :=
  next_runCard_reject h hm rfl (inAll4_of_ne_boot hb) hf

theorem snsRow_later {t : State} (hf : f (taken s via) r = .later t) : Host.Outcome.next (runCard mine (snsCard f) via s) = awaited r t := by
  rw [runCard_takes (card := snsCard f) h hm rfl (inAll4_of_ne_boot hb)]
  show Host.Outcome.next (flushTurn r.via (answer r _ (f (taken s via) r))) = _
  rw [hf]
  rfl

end

/-! ### O33: what a request leaves of the state that the sense cards read -/

section
variable {s : State} {via : Transport}

@[simp] theorem readLive_taken (c : Nat) : readLive (taken s via) c = readLive s c := taken_reading (v := fun s => readLive s c) (fun _ _ _ _ => rfl) s via
@[simp] theorem chanLost_taken (c : Nat) : chanLost (taken s via) c = chanLost s c := taken_reading (v := fun s => chanLost s c) (fun _ _ _ _ => rfl) s via
@[simp] theorem getCore_taken (c : Nat) : getCore (taken s via) c = getCore s c := taken_reading (v := fun s => getCore s c) (fun _ _ _ _ => rfl) s via
@[simp] theorem getSense_taken (c : Nat) : getSense (taken s via) c = getSense s c := taken_reading (v := fun s => getSense s c) (fun _ _ _ _ => rfl) s via
@[simp] theorem allStagesOff_taken : allStagesOff (taken s via) = allStagesOff s := taken_reading (v := allStagesOff) (fun _ _ _ _ => rfl) s via
@[simp] theorem sourceOk_taken (a : Nat) : sourceOk (taken s via) a = sourceOk s a := taken_reading (v := fun s => sourceOk s a) (fun _ _ _ _ => rfl) s via
@[simp] theorem sourceLost_taken (a : Nat) : sourceLost (taken s via) a = sourceLost s a := taken_reading (v := fun s => sourceLost s a) (fun _ _ _ _ => rfl) s via

end

/-! ### O33: SNS_REF_ENABLE (R171, R172) -/

/-- The reference is turned off: every analog input loses its conversion. -/
def refTurnedOff (s : State) : State := { s with sense := { s.sense with refState := 0, chans := s.sense.chans.map (fun x => { x with conv := none }) } }
/-- The reference is turned on, and settles for 5 ms. -/
def refTurnedOn (s : State) : State := { s with sense := { s.sense with refState := 1, refDue := s.time.raw + 5000000 } }
/-- What SNS_REF_ENABLE answers: the reference's state, and the time in us for which it still settles. -/
def refReport (s : State) : Bytes := n8 s.sense.refState ++ zeros 3 ++ n32 (if s.sense.refState = 1 then ceilDiv (s.sense.refDue - s.time.raw) 1000 else 0)

section
variable {u : State} {r : Req}

theorem refEnableRun_on (hp : reqParams r = [1, 0, 0, 0]) {t : State} (ht : t = if u.sense.refState = 0 then refTurnedOn u else u) : refEnableRun u r = .done t (refReport t) := by
  subst ht
  unfold refEnableRun
  dsimp only
  rw [hp, if_neg (fun h => absurd h.2.1 (by decide)), if_neg (by decide), if_neg (by decide)]
  rfl

theorem refEnableRun_refused (hp : reqParams r = [0, 0, 0, 0]) (h : allStagesOff u = false ∨ ∃ k ∈ u.sense.cals, 48 ≤ k.ch) : refEnableRun u r = rejectWith E_STATE := by
  unfold refEnableRun
  dsimp only
  rw [hp]
  exact if_pos ⟨by decide, by decide, h.imp (by simp) (by simp [List.any_eq_true])⟩

theorem refReport_off (u : State) : refReport (refTurnedOff u) = zeros 8 := by
  have hoff : (refTurnedOff u).sense.refState = 0 := rfl
  rw [refReport, hoff, if_neg (by decide)]
  decide

theorem refEnableRun_off (hp : reqParams r = [0, 0, 0, 0]) (hoff : allStagesOff u = true) (hcal : ∀ k ∈ u.sense.cals, k.ch < 48) : refEnableRun u r = .done (refTurnedOff u) (zeros 8) := by
  unfold refEnableRun
  dsimp only
  rw [hp, if_neg, if_neg (by decide), if_pos (by decide), ← refReport_off u]
  · rfl
  · rintro ⟨-, -, hon | hlive⟩
    · simp [hoff] at hon
    · simp only [List.any_eq_true, decide_eq_true_iff] at hlive
      obtain ⟨k, hk, hch⟩ := hlive
      exact absurd (hcal k hk) (by omega)

end

/-! ### O33: SNS_CONFIG (R161, R163, R166, R177) -/

section
variable {u : State} {r : Req}

/-- The settings of SNS_CONFIG kind 0 are in range for a channel that nothing running depends on. -/
def ChannelConfOk (u : State) (p : Bytes) (c d foc n m : Nat) : Prop :=
  p.length = 20 ∧ n8At p 0 = 0 ∧ n8At p 1 = c ∧ n8At p 2 = d ∧ n8At p 3 = foc ∧ n8At p 12 = n ∧ n32At p 16 = m ∧ zeroAt p 13 3 = true
    ∧ c < 80 ∧ readLive u c = false ∧ watchedLive u c = false ∧ chanLost u c = false ∧ d ≤ 63 ∧ (foc = 0 ∨ 8 ≤ foc ∧ foc ≤ 32) ∧ (48 ≤ c → d = 0 ∧ foc = 0)
    ∧ f32MagIn (u32At p 4) (1 / 1000000) 1000000 = true ∧ f32In (u32At p 8) (-1) 1 = true ∧ n ≤ 4 ∧ (n = 0 → m = 0) ∧ (n ≠ 0 → 2 ≤ m ∧ m ≤ 1000000)
    ∧ (c < 48 → (getOut u (c / 6)).enable = true → delayTooLong d (mclkPeriod u (c / 6)) = false)

theorem cfgChannelRun_formed {c d foc n m : Nat} (h : ChannelConfOk u (reqParams r) c d foc n m) :
    cfgChannelRun u r = .done (noted (.chan c d foc (u32At (reqParams r) 4) (f32Param (u32At (reqParams r) 8)) n m) u) [] := by
  obtain ⟨hlen, hkind, rfl, rfl, rfl, rfl, rfl, hres, hc, hread, hwatch, hlost, hd, hfoc, hanalog, hscale, hzero, hn, hn0, hn1, hdelay⟩ := h
  unfold cfgChannelRun
  dsimp only
  rw [if_neg, if_neg, if_neg]
  · rfl
  · simp [hlost]
  · simp only [not_or, not_and, hlen, hkind, hscale, hzero, hres, ne_eq, not_true_eq_false, not_false_eq_true, Bool.not_true, Bool.false_eq_true, true_and]
    refine ⟨by omega, by omega, by omega, by omega, by omega, by omega, by omega, fun hlow hen => ?_⟩
    rw [hdelay hlow hen]
    exact Bool.false_ne_true
  · simp [hread, hwatch]

/-- The sequence of SNS_CONFIG kind 1 is in range for a core that nothing running depends on. -/
def SequenceConfOk (u : State) (p : Bytes) (c n : Nat) : Prop :=
  p.length = 20 ∧ n8At p 1 = c ∧ n8At p 2 = n ∧ n8At p 3 = 0 ∧ c < 4 ∧ 1 ≤ n ∧ n ≤ 16 ∧ (∀ i < 8, readLive u (48 + 8 * c + i) = false)
    ∧ (∀ i < n, n8At p (4 + i) < 8 ∨ n8At p (4 + i) = 0xFF) ∧ (∀ i < 16, n ≤ i → n8At p (4 + i) = 0xFF) ∧ (getCore u c).phys.isSome = true

theorem cfgSequenceRun_formed {c n : Nat} (h : SequenceConfOk u (reqParams r) c n) :
    cfgSequenceRun u r = .done (noted (.seq c ((List.range n).map (fun i => n8At (reqParams r) (4 + i)))) u) [] := by
  obtain ⟨hlen, rfl, rfl, hres, hc, hn1, hn16, hread, hin, hrest, hcore⟩ := h
  have htake : ((List.range 16).map (fun i => n8At (reqParams r) (4 + i))).take (n8At (reqParams r) 2) = (List.range (n8At (reqParams r) 2)).map (fun i => n8At (reqParams r) (4 + i)) := by
    rw [← List.map_take, List.take_range, Nat.min_eq_left hn16]
  unfold cfgSequenceRun
  dsimp only
  rw [htake, if_neg, if_neg, if_neg]
  · rfl
  · simp [Option.isNone_iff_eq_none, Option.isSome_iff_ne_none.mp hcore]
  · have hdrop : ∀ v ∈ ((List.range 16).map (fun i => n8At (reqParams r) (4 + i))).drop (n8At (reqParams r) 2), v = 0xFF := by
      intro v hv
      obtain ⟨i, hi, rfl⟩ := List.mem_drop_iff_getElem.mp hv
      simp only [List.length_map, List.length_range] at hi
      simp only [List.getElem_map, List.getElem_range]
      exact hrest _ (by omega) (by omega)
    simp only [not_or, hlen, hres, ne_eq, not_true_eq_false, not_false_eq_true, true_and, Bool.not_eq_true, List.any_eq_false, decide_eq_true_iff, not_not]
    refine ⟨by omega, by omega, by omega, fun v hv => ?_, hdrop⟩
    obtain ⟨i, hi, rfl⟩ := List.mem_map.mp hv
    have := hin i (List.mem_range.mp hi)
    omega
  · simp only [List.any_eq_true, List.mem_range, not_and, not_exists]
    exact fun _ _ i hi => by simp [hread i hi]

/-- The settings of SNS_CONFIG kind 2 are in range. -/
def AccConfOk (u : State) (p : Bytes) (i a b mode : Nat) : Prop :=
  p.length = 8 ∧ n8At p 1 = i ∧ n8At p 2 = a ∧ n8At p 3 = b ∧ n8At p 4 = mode ∧ zeroAt p 5 3 = true ∧ i < 64 ∧ mode < 3
    ∧ sourceOk u a = true ∧ sourceOk u b = true ∧ sourceLost u a = false ∧ sourceLost u b = false

theorem cfgAccRun_formed {i a b mode : Nat} (h : AccConfOk u (reqParams r) i a b mode) : cfgAccRun u r = .done (noted (.acc i a b mode) u) [] := by
  obtain ⟨hlen, rfl, rfl, rfl, rfl, hres, hi, hmode, ha, hb, hla, hlb⟩ := h
  unfold cfgAccRun
  dsimp only
  rw [if_neg (by simp [hlen, ha, hb, hres]; omega), if_neg (by simp [hla, hlb])]
  rfl

/-- The settings of SNS_CONFIG kind 3 are in range. -/
def TrackerConfOk (u : State) (p : Bytes) (i a mode : Nat) : Prop :=
  p.length = 4 ∧ n8At p 1 = i ∧ n8At p 2 = a ∧ n8At p 3 = mode ∧ i < 64 ∧ mode < 3 ∧ sourceOk u a = true ∧ sourceLost u a = false

theorem cfgTrackerRun_formed {i a mode : Nat} (h : TrackerConfOk u (reqParams r) i a mode) : cfgTrackerRun u r = .done (noted (.mmx i a mode) u) [] := by
  obtain ⟨hlen, rfl, rfl, rfl, hi, hmode, ha, hla⟩ := h
  unfold cfgTrackerRun
  dsimp only
  rw [if_neg (by simp [hlen, ha]; omega), if_neg (by simp [hla])]
  rfl

end

/-! ### O33: calibrations and reads that begin (R173 to R175, R182) -/

section
variable {u : State} {r : Req}

/-- The calibration that a request asks for. -/
def calAsked (p : Bytes) (span : Bool) : CalRun :=
  { ch := n8At p 0, span := span, slow := decide (n8At p 1 = 1), n := n16At p 2, applied := u32At p 4, started := false, left := n16At p 2, sum := 0, sumSq := 0 }

/-- A calibration begins on a channel that nothing running depends on and none calibrates (R173 to R175). -/
def CalAdmitted (u : State) (p : Bytes) (span : Bool) : Prop :=
  p.length = (if span then 8 else 4) ∧ n8At p 0 < 80 ∧ 0 < n16At p 2 ∧ n8At p 1 < 2 ∧ (n8At p 1 = 1 → 0 < (getSense u (n8At p 0)).slowN)
    ∧ readLive u (n8At p 0) = false ∧ watchedLive u (n8At p 0) = false ∧ chanLost u (n8At p 0) = false ∧ (∀ x ∈ u.sense.cals, x.ch ≠ n8At p 0)
    ∧ (48 ≤ n8At p 0 → u.sense.refState = 2) ∧ (span = true → f32Bad (u32At p 4) = false ∧ f32Val (u32At p 4) ≠ 0)

theorem CalAdmitted.taken {s : State} {p : Bytes} {span : Bool} (h : CalAdmitted s p span) (via : Transport) : CalAdmitted (taken s via) p span := by
  rw [taken_change]
  exact h

theorem calRun_admitted {span : Bool} (h : CalAdmitted u (reqParams r) span) (hroom : classFull u (reqOpcode r) = false) :
    calRun span u r = .long { u with sense := { u.sense with cals := u.sense.cals ++ [calAsked (reqParams r) span] } } (n8At (reqParams r) 0) [] := by
  obtain ⟨hlen, hc, hn, hkind, hslow, hread, hwatch, hlost, hfree, href, hspan⟩ := h
  unfold calRun
  dsimp only
  rw [if_neg (by simp [hread, hwatch]), if_neg, if_neg (by simp [hlost]), if_neg, if_neg (fun hbad => hbad.2 (href hbad.1))]
  · rfl
  · simp only [hroom, Bool.false_eq_true, or_false, List.any_eq_true, decide_eq_true_iff, not_exists, not_and]
    exact hfree
  · simp only [not_or, not_and, hlen, ne_eq, not_true_eq_false, not_false_eq_true, true_and]
    refine ⟨by omega, by omega, by omega, fun hs => ?_, fun h1 => by have := hslow h1; omega⟩
    obtain ⟨hbad, hval⟩ := hspan hs
    exact ⟨by rw [hbad]; exact Bool.false_ne_true, hval⟩

theorem accReadRun_formed (hlen : (reqParams r).length = 4) (hfirst : n8At (reqParams r) 0 < 64) (hn : 1 ≤ n8At (reqParams r) 1) (hflags : n8At (reqParams r) 2 ≤ 3) (hres : n8At (reqParams r) 3 = 0)
    (hsum : n8At (reqParams r) 0 + n8At (reqParams r) 1 ≤ 64) (hmax : n8At (reqParams r) 1 ≤ if 2 ≤ n8At (reqParams r) 2 then 15 else 31) :
    accReadRun u r = .later { u with sense := { u.sense with accRead := u.sense.accRead ++ [senseWait u r] } } := by
  have hmany : ¬ n8At (reqParams r) 1 > (if n8At (reqParams r) 2 / 2 % 2 = 1 then 15 else 31) := by
    split at hmax <;> split <;> omega
  unfold accReadRun
  dsimp only
  exact if_neg (by simp only [not_or]; omega)

end

/-! ### O33: SNS_URGENT (R184, R185) -/

theorem getLsbD_bit {i j : Nat} (hj : j < 32) : (1#32 <<< i).getLsbD j = decide (j = i) := by
  rw [BitVec.getLsbD_shiftLeft, BitVec.getLsbD_one, Bool.eq_iff_iff]
  simp only [Bool.and_eq_true, Bool.not_eq_true', decide_eq_true_iff, decide_eq_false_iff_not]
  omega

theorem bits_bit {i : Nat} (hi : i < 32) : (List.range 32).filter (fun j => (1#32 <<< i).getLsbD j) = [i] := by
  refine (List.pairwise_lt_range.filter _).eq_of_mem_iff (List.pairwise_singleton _ i) fun j => ?_
  rw [List.mem_filter, List.mem_range, List.mem_singleton]
  exact ⟨fun ⟨hj, h⟩ => by simpa [getLsbD_bit hj] using h, fun h => by subst h; exact ⟨hi, by simp [getLsbD_bit hi]⟩⟩

theorem noBits_or (b : U32) : 0 ||| b = b := BitVec.zero_or

/-- A dropped request shows in the event log and in the count (R185). -/
theorem dropUrgent_log (i : Nat) (s : State) : LogOnly { s with sense := { s.sense with urgentDropped := s.sense.urgentDropped + 1 } } (dropUrgent i s) := postMerge_log ..

theorem senseWait_taken (s : State) (via : Transport) (r : Req) : senseWait (taken s via) r = { req := r, left := 0, conv := 0, drop := 0, at0 := s.time.raw, round := 0 } := by
  rw [senseWait, taken_time]

/-- One input enters its core's queue, or is dropped (R184, R185). -/
def urgentEnters (q : SenseWait × State) (i : Nat) : SenseWait × State :=
  if (getCore q.2 (i / 8)).urgent.contains (i % 8) then ({ q.1 with left := q.1.left ||| 1#32 <<< i }, q.2)
  else if (getCore q.2 (i / 8)).urgent.length ≥ 4 then ({ q.1 with drop := q.1.drop ||| 1#32 <<< i }, dropUrgent i q.2)
  else ({ q.1 with left := q.1.left ||| 1#32 <<< i }, updCore (i / 8) (fun x => { x with urgent := x.urgent ++ [i % 8] }) q.2)

/-- The inputs that a request names, in ascending order. -/
def urgentInputs (r : Req) : List Nat := (List.range 32).filter (fun i => (u32At (reqParams r) 0).getLsbD i)

/-- A request waits with the conversions that it is still owed. -/
def urgentWaits (q : SenseWait × State) : State := { q.2 with sense := { q.2.sense with urgents := q.2.sense.urgents ++ [q.1] } }

/-- The inputs that SNS_URGENT names are there. -/
def UrgentNamed (u : State) (p : Bytes) : Prop := p.length = 4 ∧ u32At p 0 ≠ 0 ∧ ∀ i < 32, (u32At p 0).getLsbD i = true → chanLost u (48 + i) = false

theorem UrgentNamed.taken {s : State} {p : Bytes} (h : UrgentNamed s p) (via : Transport) : UrgentNamed (taken s via) p := by
  rw [taken_change]
  exact h

section
variable {u : State} {r : Req} (h : UrgentNamed u (reqParams r))
include h

theorem urgentRun_named : urgentRun u r = if u.sense.refState ≠ 2 then rejectWith E_NOT_READY else .later (urgentWaits ((urgentInputs r).foldl urgentEnters (senseWait u r, u))) := by
  obtain ⟨hlen, hmask, hlost⟩ := h
  unfold urgentRun
  dsimp only
  rw [if_neg (not_or.mpr ⟨not_not.mpr hlen, hmask⟩), if_neg]
  · rfl
  · simp only [List.any_eq_true, List.mem_filter, List.mem_range, not_exists, not_and, and_imp]
    exact fun i hi hbit => by simp [hlost i hi hbit]

theorem urgentRun_notReady (href : u.sense.refState ≠ 2) : urgentRun u r = rejectWith E_NOT_READY := (urgentRun_named h).trans (if_pos href)

theorem urgentRun_settled (href : u.sense.refState = 2) : urgentRun u r = .later (urgentWaits ((urgentInputs r).foldl urgentEnters (senseWait u r, u))) :=
  (urgentRun_named h).trans (if_neg (not_not.mpr href))

end

/-- What entering the inputs of a list leaves: each is either waited for or dropped and counted, and no other. -/
structure UrgentsEntered (w : SenseWait) (u : State) (l : List Nat) (q : SenseWait × State) : Prop where
  req : q.1.req = w.req
  at0 : q.1.at0 = w.at0
  conv : q.1.conv = w.conv
  urgents : q.2.sense.urgents = u.sense.urgents
  bits : ∀ j < 32, (q.1.left.getLsbD j || q.1.drop.getLsbD j) = decide (j ∈ l)
  apart : q.1.left &&& q.1.drop = 0
  dropped : q.2.sense.urgentDropped = u.sense.urgentDropped + BitVec.ofNat 32 (l.filter (fun i => q.1.drop.getLsbD i)).length

theorem or_bit_and_of_clear {a b : U32} {i : Nat} (h : a &&& b = 0) (hb : i < 32 → b.getLsbD i = false) : (a ||| 1#32 <<< i) &&& b = 0 := by
  refine BitVec.eq_of_getLsbD_eq fun j hj => ?_
  have hab : (a &&& b).getLsbD j = false := by rw [h]; exact BitVec.getLsbD_zero
  rw [BitVec.getLsbD_and] at hab
  rw [BitVec.getLsbD_and, BitVec.getLsbD_or, getLsbD_bit hj, Bool.and_or_distrib_right, hab, Bool.false_or]
  by_cases hji : j = i
  · subst hji
    simp [hb hj]
  · simp [hji]

section
variable {w : SenseWait} {u : State} {l : List Nat} {i : Nat} {x : SenseWait} {t : State}

/-- The next input is waited for. -/
theorem UrgentsEntered.waits (h : UrgentsEntered w u l (x, t)) (hi : i < 32) (hl : i ∉ l) {t' : State} (hurgents : t'.sense.urgents = t.sense.urgents)
    (hdropped : t'.sense.urgentDropped = t.sense.urgentDropped) : UrgentsEntered w u (l ++ [i]) ({ x with left := x.left ||| 1#32 <<< i }, t') := by
  obtain ⟨hreq, hat, hconv, hurg, hbits, hapart, hcount⟩ := h
  have hclear : x.left.getLsbD i = false ∧ x.drop.getLsbD i = false := by simpa [hl] using hbits i hi
  refine ⟨hreq, hat, hconv, hurgents.trans hurg, fun j hj => ?_, or_bit_and_of_clear hapart fun _ => hclear.2, ?_⟩
  · have hj' := hbits j hj
    simp only [BitVec.getLsbD_or, getLsbD_bit hj, List.mem_append, List.mem_singleton, Bool.decide_or, ← hj']
    exact Bool.or_right_comm ..
  · rw [hdropped, hcount, List.filter_append]
    simp [hclear.2]

/-- The next input is dropped. -/
theorem UrgentsEntered.drops (h : UrgentsEntered w u l (x, t)) (hi : i < 32) (hl : i ∉ l) (hsmall : ∀ j ∈ l, j < 32) :
    UrgentsEntered w u (l ++ [i]) ({ x with drop := x.drop ||| 1#32 <<< i }, dropUrgent i t) := by
  obtain ⟨hreq, hat, hconv, hurg, hbits, hapart, hcount⟩ := h
  have hclear : x.left.getLsbD i = false ∧ x.drop.getLsbD i = false := by simpa [hl] using hbits i hi
  have hsense := (dropUrgent_log i t).sense
  refine ⟨hreq, hat, hconv, by rw [hsense]; exact hurg, fun j hj => ?_, ?_, ?_⟩
  · have hj' := hbits j hj
    simp only [BitVec.getLsbD_or, getLsbD_bit hj, List.mem_append, List.mem_singleton, Bool.decide_or, ← hj', Bool.or_assoc]
  · rw [BitVec.and_comm] at hapart ⊢
    exact or_bit_and_of_clear hapart fun _ => hclear.1
  · have hsame : l.filter (fun j => (x.drop ||| 1#32 <<< i).getLsbD j) = l.filter (fun j => x.drop.getLsbD j) := by
      refine List.filter_congr fun j hj => ?_
      have hne : j ≠ i := fun h => hl (h ▸ hj)
      simp [getLsbD_bit (hsmall j hj), hne]
    have hnew : (x.drop ||| 1#32 <<< i).getLsbD i = true := by simp [getLsbD_bit hi]
    rw [hsense]
    simp only [List.filter_append, hsame, List.filter_cons, hnew, if_true, List.filter_nil, List.length_append, List.length_cons, List.length_nil, BitVec.ofNat_add]
    rw [← BitVec.add_assoc]
    exact congrArg (· + 1) hcount

end

theorem urgentEnters_entered {w : SenseWait} {u : State} {l : List Nat} {q : SenseWait × State} {i : Nat} (h : UrgentsEntered w u l q) (hi : i < 32) (hl : i ∉ l) (hsmall : ∀ j ∈ l, j < 32) :
    UrgentsEntered w u (l ++ [i]) (urgentEnters q i) := by
  obtain ⟨x, t⟩ := q
  unfold urgentEnters
  split
  · exact h.waits hi hl rfl rfl
  · split
    · exact h.drops hi hl hsmall
    · exact h.waits hi hl rfl rfl

theorem urgentsEntered_foldl (u : State) (r : Req) (l : List Nat) (hl : l.Nodup) (hsmall : ∀ j ∈ l, j < 32) :
    UrgentsEntered (senseWait u r) u l (l.foldl urgentEnters (senseWait u r, u)) := by
  induction l using List.reverseRecOn with
  | nil => exact ⟨rfl, rfl, rfl, rfl, fun j _ => by simp [senseWait], by simp [senseWait], by simp⟩
  | append_singleton l i ih =>
    rw [List.foldl_append]
    have hdis := List.nodup_append.mp hl
    have hin (j : Nat) (hj : j ∈ l) : j < 32 := hsmall j (by simp [hj])
    exact urgentEnters_entered (ih hdis.1 hin) (hsmall i (by simp)) (fun h => hdis.2.2 i h i (by simp) rfl) hin

/-- The inputs that a request names are waited for or dropped and counted. -/
theorem urgentInputs_entered (u : State) (r : Req) {w : SenseWait} {t : State} (h : (urgentInputs r).foldl urgentEnters (senseWait u r, u) = (w, t)) :
    w.req = r ∧ w.at0 = u.time.raw ∧ w.conv = 0 ∧ t.sense.urgents = u.sense.urgents ∧ w.left ||| w.drop = u32At (reqParams r) 0 ∧ w.left &&& w.drop = 0
      ∧ t.sense.urgentDropped = u.sense.urgentDropped + BitVec.ofNat 32 ((List.range 32).filter (fun i => w.drop.getLsbD i)).length := by
  have hentered := urgentsEntered_foldl u r (urgentInputs r) (List.nodup_range.filter _) (fun j hj => List.mem_range.mp (List.mem_filter.mp hj).1)
  rw [h] at hentered
  obtain ⟨hreq, hat, hconv, hurgents, hbits, hapart, hcount⟩ := hentered
  have hmask : w.left ||| w.drop = u32At (reqParams r) 0 := by
    refine BitVec.eq_of_getLsbD_eq fun j hj => ?_
    rw [BitVec.getLsbD_or, hbits j hj, Bool.eq_iff_iff]
    simp [urgentInputs, hj]
  refine ⟨hreq, hat, hconv, hurgents, hmask, hapart, ?_⟩
  rw [hcount, urgentInputs, List.filter_filter]
  refine congrArg (fun l : List Nat => u.sense.urgentDropped + BitVec.ofNat 32 l.length) (List.filter_congr fun j _ => ?_)
  rw [← hmask, BitVec.getLsbD_or]
  cases w.drop.getLsbD j <;> simp

/-! ### O33: the rows -/

section
variable {via : Transport} {s : State} {r : Req} (hb : s.sys.dev ≠ .boot)
include hb

theorem snsRefEnable_on (h : Takes 0x0400#16 via s r) (hp : reqParams r = [1, 0, 0, 0]) {t : State} (ht : t = if s.sense.refState = 0 then refTurnedOn (taken s via) else taken s via) :
    exec (.snsRefEnable via) s = replied r OK (refReport t) t :=
  snsRow_done hb h (isOp_takes h) (refEnableRun_on hp (by rw [taken_sense]; exact ht))

theorem snsCal_begins {span : Bool} {op : U16} (h : Takes op via s r) (hok : CalAdmitted s (reqParams r) span) (hroom : classFull s op = false) :
    Host.Outcome.next (runCard (isOp op) (snsCard (calRun span)) via s)
      = accepted r (n8At (reqParams r) 0) [] { taken s via with sense := { s.sense with cals := s.sense.cals ++ [calAsked (reqParams r) span] } } := by
  have hrun := calRun_admitted (r := r) (hok.taken via) (by rw [classFull_taken, h.2.1]; exact hroom)
  rw [taken_sense] at hrun
  exact snsRow_long hb h (isOp_takes h) hrun

theorem snsUrgent_waits (h : Takes 0x0405#16 via s r) (hok : UrgentNamed s (reqParams r)) (href : s.sense.refState = 2) {q : SenseWait × State}
    (hq : q = (urgentInputs r).foldl urgentEnters (senseWait (taken s via) r, taken s via)) : exec (.snsUrgent via) s = awaited r (urgentWaits q) := by
  subst hq
  exact snsRow_later hb h (isOp_takes h) (urgentRun_settled (hok.taken via) (by rw [taken_sense]; exact href))

/-- A request that names one input. -/
theorem snsUrgent_one {i : Nat} (hi : i < 32) (h : Takes 0x0405#16 via s r) (hp : reqParams r = le32 (1#32 <<< i)) (hlost : chanLost s (48 + i) = false) (href : s.sense.refState = 2) :
    exec (.snsUrgent via) s = awaited r (urgentWaits (urgentEnters (senseWait (taken s via) r, taken s via) i)) := by
  have hmask : u32At (reqParams r) 0 = 1#32 <<< i := by rw [hp, u32At_le32]
  have hok : UrgentNamed s (reqParams r) := by
    refine ⟨by rw [hp]; rfl, fun h0 => ?_, fun j hj hbit => ?_⟩
    · have hbit := getLsbD_bit (i := i) hi
      rw [← hmask, h0] at hbit
      simp at hbit
    · rw [hmask, getLsbD_bit hj, decide_eq_true_iff] at hbit
      exact hbit ▸ hlost
  refine snsUrgent_waits hb h hok href ?_
  rw [urgentInputs, hmask, bits_bit hi]
  rfl

end

/-- Settles O33, request by request: each is an equation for what its card makes of a taken request. -/
theorem senseRequests : Obligations.SenseRequests := by
  unfold Obligations.SenseRequests
  rintro via s r p hb rfl -
  refine ⟨fun h hp hoff => ?_, fun h hp hon => ?_, fun h hp hno => ?_, fun h hp hoff hcal => ?_, ?_, ?_, ?_, ?_, ?_, ?_, ?_, ?_, ?_⟩
  · have hrow := snsRefEnable_on hb h hp rfl
    rw [if_pos hoff, refReport] at hrow
    refine hrow.trans ?_
    simp only [refTurnedOn, taken_time, taken_sense, if_true, Nat.add_sub_cancel_left]
    rfl
  · have hrow := snsRefEnable_on hb h hp rfl
    rwa [if_neg hon, refReport, taken_sense, taken_time] at hrow
  · exact snsRow_reject hb h (isOp_takes h) (refEnableRun_refused hp (by simpa using hno))
  · have hrun := refEnableRun_off (u := taken s via) hp (by simpa using hoff) (by simpa using hcal)
    rw [refTurnedOff, taken_sense] at hrun
    exact snsRow_done hb h (isOp_takes h) hrun
  · intro c d foc n m h hlen hkind h1 h2 h3 h12 h16 hres hc hread hwatch hlost hd hfoc hanalog hscale hzero hn hn0 hn1 hdelay
    have hok : ChannelConfOk s (reqParams r) c d foc n m := ⟨hlen, hkind, h1, h2, h3, h12, h16, hres, hc, hread, hwatch, hlost, hd, hfoc, hanalog, hscale, hzero, hn, hn0, hn1, hdelay⟩
    have hmine : isOpElse 0x0401#16 [1, 2, 3] r = true := by simp [isOpElse, isOp_takes h, kindByte, hkind]
    exact snsRow_done hb h hmine (cfgChannelRun_formed (by rw [taken_change]; exact hok))
  · intro c n h hlen hkind h1 h2 hres hc hn1 hn16 hread hin hrest hcore
    have hok : SequenceConfOk s (reqParams r) c n := ⟨hlen, h1, h2, hres, hc, hn1, hn16, hread, hin, hrest, hcore⟩
    exact snsRow_done hb h (isOpKind1_of_takes h rfl (by omega) hkind) (cfgSequenceRun_formed (by rw [taken_change]; exact hok))
  · intro i a b mode h hlen hkind h1 h2 h3 h4 hres hi hmode hsa hsb hla hlb
    have hok : AccConfOk s (reqParams r) i a b mode := ⟨hlen, h1, h2, h3, h4, hres, hi, hmode, hsa, hsb, hla, hlb⟩
    exact snsRow_done hb h (isOpKind1_of_takes h rfl (by omega) hkind) (cfgAccRun_formed (by rw [taken_change]; exact hok))
  · intro i a mode h hlen hkind h1 h2 h3 hi hmode hsa hla
    have hok : TrackerConfOk s (reqParams r) i a mode := ⟨hlen, h1, h2, h3, hi, hmode, hsa, hla⟩
    exact snsRow_done hb h (isOpKind1_of_takes h rfl (by omega) hkind) (cfgTrackerRun_formed (by rw [taken_change]; exact hok))
  · rintro c n rfl rfl hc hn hkind hslow hread hwatch hlost hfree href
    exact ⟨fun h hlen hroom => snsCal_begins hb h (span := false) ⟨hlen, hc, hn, hkind, hslow, hread, hwatch, hlost, hfree, href, nofun⟩ hroom,
      fun h hlen hroom hbad hval => snsCal_begins hb h (span := true) ⟨hlen, hc, hn, hkind, hslow, hread, hwatch, hlost, hfree, href, fun _ => ⟨hbad, hval⟩⟩ hroom⟩
  · intro h hlen hfirst hn hflags hres hsum hmax
    have hrun := accReadRun_formed (u := taken s via) hlen hfirst hn hflags hres hsum hmax
    rw [senseWait_taken, taken_sense] at hrun
    exact snsRow_later hb h (isOp_takes h) hrun
  · intro h hlen hmask hlost href
    obtain ⟨w, t, hq⟩ : ∃ w t, (urgentInputs r).foldl urgentEnters (senseWait (taken s via) r, taken s via) = (w, t) := ⟨_, _, rfl⟩
    obtain ⟨hreq, hat, hconv, hurgents, hbits, hapart, hdropped⟩ := urgentInputs_entered (taken s via) r hq
    rw [taken_time] at hat
    rw [taken_sense] at hurgents hdropped
    exact ⟨w, _, snsUrgent_waits hb h ⟨hlen, hmask, hlost⟩ href hq.symm, by rw [urgentWaits, hurgents], hreq, hat, hconv, hbits, hapart, hdropped⟩
  · exact fun h hlen hmask hlost href => snsRow_reject hb h (isOp_takes h) (urgentRun_notReady (UrgentNamed.taken ⟨hlen, hmask, hlost⟩ via) (by rw [taken_sense]; exact href))
  · intro i hi h hp hlost href
    have hrow := snsUrgent_one hb hi h hp hlost href
    refine ⟨fun hin => ?_, fun hout hfew => ⟨_, rfl, ?_⟩, fun hout hmany => ⟨_, rfl, ?_, ?_⟩⟩
    · rw [hrow, urgentEnters, if_pos (by rw [getCore_taken]; exact hin)]
      simp only [urgentWaits, senseWait_taken, taken_sense, noBits_or]
    · rw [hrow, urgentEnters, if_neg (by rw [getCore_taken, hout]; exact Bool.false_ne_true), if_neg (by rw [getCore_taken]; omega)]
      simp only [urgentWaits, senseWait_taken, updCore_sense, taken_sense, noBits_or]
    · rw [(dropUrgent_log i _).sense, taken_sense]
    · rw [hrow, urgentEnters, if_neg (by rw [getCore_taken, hout]; exact Bool.false_ne_true), if_pos (by rw [getCore_taken]; exact hmany)]
      simp only [urgentWaits, senseWait_taken, (dropUrgent_log i _).sense, taken_sense, noBits_or]

end Sys2Proof.Proofs

/-! ## Calibrations, waiting reads and the filter chain's requests -/

namespace Sys2Proof.Proofs

open Sys2Proof Sys2Proof.Machine Sys2Proof.Claims Sys2Proof.Laws

/-! ### O34: windows that take a round (R179) -/

section
variable (b : Nat) (s : State)

/-- A round enters the windows, and nothing else. -/
theorem foldRound_frame : ∃ a m r, foldRound b s = { s with sense := { s.sense with accs := a, mmxs := m, round := r } } := by
  unfold foldRound
  split
  · exact ⟨s.sense.accs, s.sense.mmxs, s.sense.round, rfl⟩
  · exact ⟨_, _, _, rfl⟩

/-- What enters the sets does not depend on the time or on the reads that wait. -/
theorem foldRound_accs_of_later (c : Nat) (l : List SenseWait) :
    (foldRound b (advanceTo c { s with sense := { s.sense with accRead := l } })).sense.accs = (foldRound b s).sense.accs := by
  unfold foldRound advanceTo
  dsimp only
  split <;> rfl

end

/-! ### O34: the end of a calibration (R173 to R176) -/

section
variable {s : State} {ch : Nat} {k : CalRun}

/-- A calibration ends at the boundary of the coming round. -/
def calEnded (k : CalRun) (s : State) : State :=
  let t := foldRound s.sense.nextRound (advanceTo s.sense.nextRound s)
  { t with sense := { t.sense with cals := t.sense.cals.erase k } }

theorem calEnded_frame (k : CalRun) (s : State) : ∃ a m r, calEnded k s =
    { advanceTo s.sense.nextRound s with sense := { s.sense with accs := a, mmxs := m, round := r, cals := s.sense.cals.erase k } } := by
  obtain ⟨a, m, r, h⟩ := foldRound_frame s.sense.nextRound (advanceTo s.sense.nextRound s)
  refine ⟨a, m, r, ?_⟩
  rw [calEnded, h]
  rfl

/-- A coefficient of a channel is set as its calibration ends. -/
def calSets (ch : Nat) (k : CalRun) (f : SenseCh → SenseCh) (s : State) : State := coefChanged ch (updSense ch f (calEnded k s))

theorem coefChanged_frame (c : Nat) (s : State) : ∃ p, coefChanged c s = { s with pwm := p, sense := { s.sense with calMarks := c :: s.sense.calMarks } } := by
  unfold coefChanged
  dsimp only
  split
  · exact ⟨s.pwm, rfl⟩
  · exact ⟨_, rfl⟩

theorem coefChanged_codes {c : Nat} {s : State} (hc : 48 ≤ c) (hcmp : c - 48 < s.pwm.cmps.length) :
    (getCmp (coefChanged c s) (c - 48)).codes = (getCmp s (c - 48)).thresh.map (dacCode (getSense s c)) := by
  unfold coefChanged
  dsimp only
  rw [if_neg (by omega)]
  exact congrArg (·.codes) (getD_upd_same _ _ hcmp)

/-- What setting a coefficient leaves of the channels, the calibrations and the rest. -/
structure CoefSet (s t : State) (ch : Nat) (k : CalRun) (f : SenseCh → SenseCh) : Prop where
  chan : getSense t ch = f (getSense s ch)
  others : ∀ c, c ≠ ch → getSense t c = getSense s c
  cals : t.sense.cals = s.sense.cals.erase k
  flt : t.flt = s.flt
  loop : t.loop = s.loop
  time : t.time.raw = max s.time.raw s.sense.nextRound
  marks : t.sense.calMarks = ch :: s.sense.calMarks
  codes : 48 ≤ ch → (getCmp t (ch - 48)).codes = (getCmp s (ch - 48)).thresh.map (dacCode (getSense t ch))

theorem calSets_coef (hs : Sized s) (hch : ch < 80) (k : CalRun) (f : SenseCh → SenseCh) : CoefSet s (calSets ch k f s) ch k f := by
  obtain ⟨-, -, -, -, ⟨hchans, -⟩, -, ⟨-, -, -, -, -, hcmps, -⟩, -⟩ := hs
  obtain ⟨a, m, r, hend⟩ := calEnded_frame k s
  obtain ⟨p, hcoef⟩ := coefChanged_frame ch (updSense ch f (calEnded k s))
  have hcodes (h : 48 ≤ ch) := coefChanged_codes (s := updSense ch f (calEnded k s)) h (by rw [hend]; show ch - 48 < s.pwm.cmps.length; omega)
  have hget (c : Nat) : getSense (calSets ch k f s) c = (upd s.sense.chans ch f).getD c senseCh0 := by
    unfold calSets
    rw [hcoef, hend]
    rfl
  have hchan : getSense (calSets ch k f s) ch = f (getSense s ch) := (hget ch).trans (getD_upd_same f _ (by omega))
  refine ⟨hchan, fun c hc => (hget c).trans (getD_upd_ne f _ hc), ?_, ?_, ?_, ?_, ?_, fun h => ?_⟩
  · rw [calSets, hcoef, hend]
    rfl
  · rw [calSets, hcoef, hend]
    rfl
  · rw [calSets, hcoef, hend]
    rfl
  · rw [calSets, hcoef, hend]
    rfl
  · rw [calSets, hcoef, hend]
    rfl
  · refine (hcodes h).trans ?_
    have hsame : getSense (updSense ch f (calEnded k s)) ch = getSense (calSets ch k f s) ch := by
      rw [calSets, hcoef]
      rfl
    rw [hsame, hend]
    rfl

theorem calEnded_kept (k : CalRun) (s : State) : (calEnded k s).sense.chans = s.sense.chans ∧ (calEnded k s).sense.cals = s.sense.cals.erase k ∧ (calEnded k s).pwm = s.pwm := by
  obtain ⟨a, m, r, h⟩ := calEnded_frame k s
  rw [h]
  exact ⟨rfl, rfl, rfl⟩

theorem getSense_calEnded (k : CalRun) (s : State) (c : Nat) : getSense (calEnded k s) c = getSense s c := by
  unfold getSense
  rw [(calEnded_kept k s).1]

theorem calDone_idle (h : s.sense.cals.find? (fun k => decide (k.ch = ch ∧ k.left = 0)) = none) : exec (.calDone ch) s = .next s := by
  show execCalDone ch s = _
  unfold execCalDone
  rw [h]

section
variable (hk : s.sense.cals.find? (fun k => decide (k.ch = ch ∧ k.left = 0)) = some k)
include hk

/-- What a span calibration measured: its mean's distance from the zero (R174). -/
def spanGap (s : State) (ch : Nat) (k : CalRun) : Rat := k.sum / k.n - f32Val (getSense s ch).zero
/-- The scale that a span calibration gives (R174). -/
def spanScale (s : State) (ch : Nat) (k : CalRun) : Rat := f32Val k.applied / spanGap s ch k

theorem calDone_zero (hspan : k.span = false) : exec (.calDone ch) s =
    .next (if ratAbs (k.sum / k.n - f32Val (getSense s ch).nomZero) > 1 / 10 then endLong 0x0402#16 ch E_PARAM [] (calEnded k s)
      else endLong 0x0402#16 ch OK (le32 (toF32 (k.sum / k.n)) ++ le32 (getSense s ch).zero ++ le32 (calSigma k)) (calSets ch k (fun y => { y with zero := toF32 (k.sum / k.n) }) s)) := by
  show execCalDone ch s = _
  unfold execCalDone
  split
  · next hnone => exact absurd (hk.symm.trans hnone) nofun
  · next k' hsome =>
    obtain rfl : k = k' := Option.some.inj (hk.symm.trans hsome)
    extract_lets s0 y s1 x mean op
    have hx : x = getSense s ch := getSense_calEnded k s ch
    have hop : op = 0x0402#16 := if_neg (by simp [hspan])
    rw [if_neg (by simp [hspan]), hx, hop]
    split <;> rfl

theorem calDone_span (hspan : k.span = true) (hnom : f32Val (getSense s ch).nomScale ≠ 0) : exec (.calDone ch) s =
    .next (if ratAbs (spanGap s ch k) < 2 / 100 ∨ spanScale s ch k / f32Val (getSense s ch).nomScale < 8 / 10 ∨ spanScale s ch k / f32Val (getSense s ch).nomScale > 12 / 10
      then endLong 0x0403#16 ch E_PARAM [] (calEnded k s)
      else endLong 0x0403#16 ch OK (le32 (toF32 (spanScale s ch k)) ++ le32 (getSense s ch).scale ++ le32 (toF32 (k.sum / k.n))) (calSets ch k (fun y => { y with scale := toF32 (spanScale s ch k) }) s)) := by
  show execCalDone ch s = _
  unfold execCalDone
  split
  · next hnone => exact absurd (hk.symm.trans hnone) nofun
  · next k' hsome =>
    obtain rfl : k = k' := Option.some.inj (hk.symm.trans hsome)
    extract_lets s0 y s1 x mean op d sc ratio
    have hx : x = getSense s ch := getSense_calEnded k s ch
    have hop : op = 0x0403#16 := if_pos (by simp [hspan])
    have hd : d = spanGap s ch k := by simp only [d, mean, hx]; rfl
    have hsc : sc = spanScale s ch k := by
      simp only [sc, hd, spanScale]
      split
      · next h0 => rw [h0, div_zero]
      · rfl
    have hratio : ratio = spanScale s ch k / f32Val (getSense s ch).nomScale := by
      simp only [ratio, hx, hsc, if_neg hnom]
    rw [if_pos hspan, hd, hratio, hsc, hx, hop]
    split <;> rfl

end
end

/-! ### O34: a waiting SNS_ACC_READ (R182, R183) -/

section
variable {s : State}

theorem accLatch_idle (h : s.sense.accRead = []) : exec .accLatch s = .next s := by
  show execAccLatch s = _
  unfold execAccLatch
  rw [h]

theorem urgentReply_idle (h : s.sense.urgents = []) : exec .urgentReply s = .next s := by
  show execUrgentReply s = _
  unfold execUrgentReply
  rw [h]

/-- FREE sets of a range begin a new window (R183). -/
theorem getD_cleared (P : Nat → Prop) [DecidablePred P] (l : List AccSet) (i : Nat) :
    (l.mapIdx (fun i x => if P i ∧ x.mode = 2 then accClear x else x)).getD i acc0 = if P i ∧ (l.getD i acc0).mode = 2 then accClear (l.getD i acc0) else l.getD i acc0 := by
  rw [List.getD_eq_getElem?_getD, List.getD_eq_getElem?_getD, List.getElem?_mapIdx]
  cases l[i]? with
  | some x => rfl
  | none => exact (if_neg fun h => absurd h.2 (by decide)).symm

theorem mem_accRange {n first i : Nat} : ((List.range n).map (· + first)).contains i = true ↔ first ≤ i ∧ i < first + n := by
  rw [List.contains_iff_mem, List.mem_map]
  simp only [List.mem_range]
  exact ⟨fun ⟨a, ha, hai⟩ => by omega, fun h => ⟨i - first, by omega, by omega⟩⟩

/-- The state in which a read of the sets is latched: the oldest that waits, at the first count at or after its boundary. -/
def accLatched (b : Nat) (rest : List SenseWait) (s : State) : State := foldRound b (advanceTo (countReached s b) { s with sense := { s.sense with accRead := rest } })

theorem accLatched_frame (b : Nat) (rest : List SenseWait) (s : State) : ∃ m r, accLatched b rest s =
    { advanceTo (countReached s b) s with sense := { s.sense with accRead := rest, accs := (foldRound b s).sense.accs, mmxs := m, round := r } } := by
  obtain ⟨a, m, r, h⟩ := foldRound_frame b (advanceTo (countReached s b) { s with sense := { s.sense with accRead := rest } })
  refine ⟨m, r, ?_⟩
  rw [← foldRound_accs_of_later b s (countReached s b) rest, accLatched, h]
  rfl

theorem accLatched_kept (b : Nat) (rest : List SenseWait) (s : State) : (accLatched b rest s).time.raw = max s.time.raw (countReached s b) ∧ (accLatched b rest s).sense.accRead = rest
    ∧ (accLatched b rest s).flt = s.flt ∧ (accLatched b rest s).sense.chans = s.sense.chans ∧ (accLatched b rest s).sense.accs = (foldRound b s).sense.accs
    ∧ ∀ r, timeAt (accLatched b rest s) r = timeAt s r := by
  obtain ⟨m, r, h⟩ := accLatched_frame b rest s
  rw [h]
  exact ⟨rfl, rfl, rfl, rfl, rfl, fun _ => rfl⟩

/-- The sets of a range and, if asked, the trackers, with their FREE windows cleared (R183). -/
def accCleared (is : List Nat) (mm : Bool) (s : State) : State :=
  { s with sense := { s.sense with
      accs := s.sense.accs.mapIdx (fun i x => if is.contains i ∧ x.mode = 2 then accClear x else x)
      mmxs := s.sense.mmxs.mapIdx (fun i x => if mm ∧ is.contains i ∧ x.mode = 2 then mmxClear x else x) } }

/-- The entries that a read returns (R183). -/
def accEntries (is : List Nat) (mm : Bool) (time : U32) (s : State) : Bytes := is.flatMap (readAcc s time) ++ (if mm then is.flatMap (readMmx s) else [])

/-- A read that waits is answered with the boundary's time, the number of sets and their entries. -/
theorem accLatch_answers {w : SenseWait} {rest : List SenseWait} (hw : s.sense.accRead = w :: rest) {b : Nat} (hb : b = (w.at0 / 1000 + 1) * 1000) {p : Bytes} (hp : p = reqParams w.req)
    {is : List Nat} (his : is = (List.range (n8At p 1)).map (· + n8At p 0)) {mm : Bool} (hmm : mm = decide (n8At p 2 / 2 % 2 = 1)) {u : State} (hu : u = accLatched b rest s) :
    exec .accLatch s = .next (replyLater w.req OK ((le32 (timeAt u (countReached s b)) ++ n8 (n8At p 1) ++ zeros 3) ++ accEntries is mm (timeAt u (countReached s b)) u)
      (if n8At p 2 % 2 = 1 then accCleared is mm u else u)) := by
  subst hb hp his hmm hu
  show execAccLatch s = _
  unfold execAccLatch
  split
  · next hnone => exact absurd (hw.symm.trans hnone) nofun
  · next w' rest' hsome =>
    obtain ⟨rfl, rfl⟩ : w = w' ∧ rest = rest' := List.cons.inj (hw.symm.trans hsome)
    extract_lets b y u p is mm t pay clr z s2
    have hs2 : s2 = if n8At p 2 % 2 = 1 then accCleared is mm u else u := by
      by_cases hclr : n8At p 2 % 2 = 1
      · rw [if_pos hclr]
        exact if_neg (by simp [clr, hclr])
      · rw [if_neg hclr]
        exact if_pos (by simp [clr, hclr])
    rw [hs2]
    simp only [pay, List.append_assoc]
    rfl

/-- What the latch of a read leaves. -/
theorem accLatch_latches {w : SenseWait} {rest : List SenseWait} (hw : s.sense.accRead = w :: rest) {b first n fl : Nat} (hb : b = (w.at0 / 1000 + 1) * 1000)
    (hfirst : n8At (reqParams w.req) 0 = first) (hn : n8At (reqParams w.req) 1 = n) (hfl : n8At (reqParams w.req) 2 = fl) :
    ∃ pay t, exec .accLatch s = .next (replyLater w.req OK pay t) ∧ pay.take 8 = le32 (timeAt s (countReached s b)) ++ n8 n ++ zeros 3 ∧ t.time.raw = max s.time.raw (countReached s b)
      ∧ t.sense.accRead = rest
      ∧ (∀ i, getAcc t i = if fl % 2 = 1 ∧ first ≤ i ∧ i < first + n ∧ (getAcc (foldRound b s) i).mode = 2 then accClear (getAcc (foldRound b s) i) else getAcc (foldRound b s) i)
      ∧ t.flt = s.flt ∧ t.sense.chans = s.sense.chans := by
  have hexec := accLatch_answers hw hb rfl rfl rfl rfl
  rw [hfirst, hn, hfl] at hexec
  obtain ⟨hraw, hread, hflt, hchans, haccs, htime⟩ := accLatched_kept b rest s
  refine ⟨_, _, hexec, by rw [htime]; exact List.take_left' rfl, ?_, ?_, fun i => ?_, ?_, ?_⟩
  · split <;> exact hraw
  · split <;> exact hread
  · have hget : (accLatched b rest s).sense.accs.getD i acc0 = getAcc (foldRound b s) i := by
      rw [haccs]
      rfl
    split
    · next hclr =>
      refine (getD_cleared (fun i => ((List.range n).map (· + first)).contains i) _ i).trans ?_
      rw [hget]
      simp only [mem_accRange, hclr, true_and, and_assoc]
    · next hclr => exact hget.trans (if_neg fun h => hclr h.1).symm
  · split <;> exact hflt
  · split <;> exact hchans

end

/-! ### O34: a waiting SNS_URGENT (R185) -/

section
variable {s : State}

/-- An input that no conversion served within 2 us is dropped, and leaves its core's queue unless another request waits for it. -/
def urgentExpires (i : Nat) (s : State) : State :=
  dropUrgent i (if s.sense.urgents.any (fun v => v.left.getLsbD i) then s else updCore (i / 8) (fun x => { x with urgent := x.urgent.filter (· ≠ i % 8) }) s)

theorem urgentExpires_kept (i : Nat) (s : State) : (urgentExpires i s).time = s.time ∧ (urgentExpires i s).sense.urgents = s.sense.urgents
    ∧ (urgentExpires i s).sense.urgentDropped = s.sense.urgentDropped + 1 := by
  unfold urgentExpires
  rw [(dropUrgent_log i _).sense, (dropUrgent_log i _).time]
  split <;> exact ⟨rfl, rfl, rfl⟩

theorem forEach_urgentExpires_dropped (l : List Nat) (s : State) : (forEach l urgentExpires s).sense.urgentDropped = s.sense.urgentDropped + BitVec.ofNat 32 l.length := by
  unfold forEach
  induction l generalizing s with
  | nil => exact (BitVec.add_zero _).symm
  | cons i l ih =>
    rw [List.foldl_cons, ih, (urgentExpires_kept i s).2.2, List.length_cons, Nat.add_comm, BitVec.ofNat_add, BitVec.add_assoc]
    rfl

/-- The inputs that a request still waits for. -/
def urgentLeft (w : SenseWait) : List Nat := (List.range 32).filter (fun i => w.left.getLsbD i)

theorem urgentLeft_eq_nil_iff {w : SenseWait} : urgentLeft w = [] ↔ w.left = 0 := by
  rw [urgentLeft, List.filter_eq_nil_iff]
  refine ⟨fun h => BitVec.eq_of_getLsbD_eq fun j hj => ?_, fun h j _ => by rw [h]; exact Bool.eq_false_iff.mp BitVec.getLsbD_zero⟩
  rw [Bool.eq_false_iff.mpr (h j (List.mem_range.mpr hj))]
  exact BitVec.getLsbD_zero.symm

theorem urgentReply_answers {w : SenseWait} {rest : List SenseWait} (hw : s.sense.urgents = w :: rest) {t : State}
    (ht : t = if (urgentLeft w).isEmpty then { s with sense := { s.sense with urgents := rest } } else advanceTo (w.at0 + 2000) { s with sense := { s.sense with urgents := rest } }) :
    exec .urgentReply s = .next (replyLater w.req OK (le32 w.conv ++ le32 (w.drop ||| w.left) ++ le32 w.round) (forEach (urgentLeft w) urgentExpires t)) := by
  subst ht
  show execUrgentReply s = _
  unfold execUrgentReply
  rw [hw]
  rfl

theorem urgentReply_served {w : SenseWait} {rest : List SenseWait} (hw : s.sense.urgents = w :: rest) (hleft : w.left = 0) :
    exec .urgentReply s = .next (replyLater w.req OK (le32 w.conv ++ le32 w.drop ++ le32 w.round) { s with sense := { s.sense with urgents := rest } }) := by
  have hor : w.drop ||| w.left = w.drop := by rw [hleft]; exact BitVec.or_zero
  rw [urgentReply_answers hw rfl, urgentLeft_eq_nil_iff.mpr hleft, hor]
  rfl

theorem urgentReply_expired {w : SenseWait} {rest : List SenseWait} (hw : s.sense.urgents = w :: rest) (hleft : w.left ≠ 0) :
    ∃ t, exec .urgentReply s = .next (replyLater w.req OK (le32 w.conv ++ le32 (w.drop ||| w.left) ++ le32 w.round) t) ∧ t.time.raw = max s.time.raw (w.at0 + 2000) ∧ t.sense.urgents = rest
      ∧ t.sense.urgentDropped = s.sense.urgentDropped + BitVec.ofNat 32 ((List.range 32).filter (fun i => w.left.getLsbD i)).length := by
  obtain ⟨u, hu⟩ : ∃ u, u = advanceTo (w.at0 + 2000) { s with sense := { s.sense with urgents := rest } } := ⟨_, rfl⟩
  have hempty : (urgentLeft w).isEmpty = false := by
    rw [Bool.eq_false_iff, ne_eq, List.isEmpty_iff, urgentLeft_eq_nil_iff]
    exact hleft
  refine ⟨forEach (urgentLeft w) urgentExpires u, urgentReply_answers hw (by rw [hempty, if_neg Bool.false_ne_true, hu]), ?_, ?_, ?_⟩
  · rw [forEach_reading (v := fun s => s.time) (fun i s => (urgentExpires_kept i s).1), hu]
    rfl
  · rw [forEach_reading (v := fun s => s.sense.urgents) (fun i s => (urgentExpires_kept i s).2.1), hu]
    rfl
  · rw [forEach_urgentExpires_dropped, hu]
    rfl

end

/-! ### O34: FLT_LOAD (R201, R203, R205, R207) -/

section
variable {s : State} {via : Transport}

@[simp] theorem setUsers_taken (k : Nat) : setUsers (taken s via) k = setUsers s k := taken_reading (v := fun s => setUsers s k) (fun _ _ _ _ => rfl) s via
@[simp] theorem coefs_taken (f : FltSet) : coefs (taken s via) f = coefs s f := taken_reading (v := fun s => coefs s f) (fun _ _ _ _ => rfl) s via
@[simp] theorem getFch_taken (c : Nat) : getFch (taken s via) c = getFch s c := taken_reading (v := fun s => getFch s c) (fun _ _ _ _ => rfl) s via

end

/-- The highest byte of a word of a memory. -/
theorem extractLsb'_u32At_memReadBytes (m : List Host.Cell) (a : Nat) : (u32At (memReadBytes m a 4) 0).extractLsb' 24 8 = memRead m (a + 3) := by
  show BitVec.extractLsb' 24 8 ((memRead m (a + 3) ++ memRead m (a + 2)) ++ (memRead m (a + 1) ++ memRead m (a + 0))) = _
  refine BitVec.eq_of_getLsbD_eq fun j hj => ?_
  rw [BitVec.getLsbD_extractLsb', get32, if_neg (by omega), get16, if_neg (by omega)]
  simp [hj, show 24 + j - 16 - 8 = j by omega]

/-- The word of coefficient i of a set that begins at a base (R201). -/
def coefWord (s : State) (base i : Nat) : U32 := u32At (memReadBytes s.flt.mem (4 * (base + i)) 4) 0

theorem coefWords_reverse {s : State} {base t : Nat} (h : ∀ i < t, coefWord s base i = coefWord s base (t - 1 - i)) :
    (List.range t).map (coefWord s base) = ((List.range t).map (coefWord s base)).reverse := by
  refine List.ext_getElem (by simp) fun i hi hi' => ?_
  simp only [List.length_map, List.length_range] at hi
  simp only [List.getElem_reverse, List.getElem_map, List.getElem_range, List.length_map, List.length_range]
  exact h i hi

/-- The free words of a set are sound: their unused bytes are zero, and those of a symmetric set mirror one another (R201, R203). -/
def CoefWordsOk (s : State) (f : FltSet) : Prop :=
  (∀ i < f.taps, memRead s.flt.mem (4 * (f.base + i) + 3) = 0) ∧ (f.typ = 0 → ∀ i < f.taps, coefWord s f.base i = coefWord s f.base (f.taps - 1 - i))

theorem CoefWordsOk.checked {s : State} {f : FltSet} (h : CoefWordsOk s f) :
    ¬ (((List.range f.taps).map (coefWord s f.base)).any (fun w => w.extractLsb' 24 8 ≠ 0#8) = true
      ∨ f.typ = 0 ∧ (List.range f.taps).map (coefWord s f.base) ≠ ((List.range f.taps).map (coefWord s f.base)).reverse) := by
  rintro (hbyte | ⟨htyp, hmirror⟩)
  · simp only [List.any_eq_true, List.mem_map, List.mem_range, decide_eq_true_iff] at hbyte
    obtain ⟨w, ⟨i, hi, rfl⟩, hne⟩ := hbyte
    exact hne ((extractLsb'_u32At_memReadBytes ..).trans (h.1 i hi))
  · exact hmirror (coefWords_reverse (h.2 htyp))

/-- A request to load a set with taps is taken: its words are free and sound, and its users stay within their limits. -/
def LoadFits (s : State) (p : Bytes) (f : FltSet) (k : Nat) : Prop :=
  p.length = 12 ∧ n8At p 0 = k ∧ n8At p 1 = f.typ ∧ n16At p 2 = f.taps ∧ n16At p 4 = f.base ∧ zeroAt p 6 2 = true
    ∧ k < 64 ∧ f.typ < 3 ∧ 0 < f.taps ∧ f.taps ≤ 512 ∧ f.base + f.taps ≤ 12288
    ∧ ((s.flt.setsReq.getD k none).map (·.taps) = some f.taps ∨ ∀ c ∈ setUsers s k, readLive s c = false)
    ∧ (∀ a ∈ s.flt.assignsReq, a.set = some k → withinBudget (lanes s) a f.taps = true)
    ∧ (s.flt.assignsReq.map (tapsOf (upd s.flt.setsReq k (fun _ => some f)))).sum ≤ 4096 ∧ bytesLost s 33 (4 * f.base) (4 * f.taps) = false
    ∧ CoefWordsOk s f ∧ (∀ j < 64, j ≠ k → ∀ g, s.flt.setsReq.getD j none = some g → g.base + g.taps ≤ f.base ∨ f.base + f.taps ≤ g.base)
    ∧ crc32c (memReadBytes s.flt.mem (4 * f.base) (4 * f.taps)) = u32At p 8

/-- A set is requested, or none, from the next round boundary on (R205, R207). -/
def setRequested (k : Nat) (f : Option FltSet) (s : State) : State := { s with flt := { s.flt with setsReq := upd s.flt.setsReq k (fun _ => f), changed := true } }

/-- No assignment that names a set breaks its budget by a load. -/
theorem tooLong_eq_nil {s : State} {k t : Nat} (h : ∀ a ∈ s.flt.assignsReq, a.set = some k → withinBudget (lanes s) a t = true) :
    s.flt.assignsReq.filter (fun a => decide (a.set = some k) && withinBudget (lanes s) a (tapsOf s.flt.setsReq a) && !withinBudget (lanes s) a t) = [] := by
  rw [List.filter_eq_nil_iff]
  intro a ha
  by_cases hk : a.set = some k
  · simp [h a ha hk]
  · simp [hk]

section
variable {u : State} {r : Req}

/-- What FLT_LOAD answers: the sums of the set's coefficients and their centre (R210). -/
def loadReport (s : State) (f : FltSet) : Bytes :=
  le32 (toF32 (rawOf (coefSums (coefs s f)).1)) ++ le32 (toF32 (rawOf (coefSums (coefs s f)).2.1))
    ++ le32 (if (coefSums (coefs s f)).1 = 0 then 0 else toF32 (((coefSums (coefs s f)).2.2 : Rat) / (coefSums (coefs s f)).1))

theorem fltLoadRun_loads {f : FltSet} {k : Nat} (h : LoadFits u (reqParams r) f k) : fltLoadRun u r = .done (setRequested k (some f) u) (loadReport u f) := by
  obtain ⟨hlen, h0, h1, h2, h4, hres, hk, htyp, htaps, hmax, hend, hold, hbudget, hsum, hmem, hwords, hfree, hcrc⟩ := h
  unfold fltLoadRun
  dsimp only
  rw [h0, h1, h2, h4, if_neg htaps.ne', tooLong_eq_nil hbudget, if_neg, if_neg, if_neg, if_neg, if_neg, if_neg, if_neg (not_not.mpr hcrc)]
  · rfl
  · simp [hmem]
  · rintro (hbad | ⟨hbad, -⟩)
    · exact absurd hsum (not_le.mpr hbad)
    · exact absurd hbad (by decide)
  · rintro ⟨-, hover⟩
    simp only [List.any_eq_true, List.mem_range, Bool.and_eq_true, decide_eq_true_iff, Option.any_eq_true] at hover
    obtain ⟨j, hj, hne, g, hg, h1, h2⟩ := hover
    have := hfree j hj hne g hg
    omega
  · exact hwords.checked
  · simp [hlen, hres]
    omega
  · rintro ⟨-, -, ⟨hzero, -⟩ | ⟨hother, hlive⟩⟩
    · omega
    · obtain hsame | hidle := hold
      · obtain ⟨g, hg, hgt⟩ := Option.map_eq_some_iff.mp hsame
        rw [hg] at hother
        simp [hgt] at hother
      · obtain ⟨c, hc, hcl⟩ := List.any_eq_true.mp hlive
        exact absurd (hidle c hc) (by rw [hcl]; decide)

/-- A request that deletes a set is taken: no assignment names it (R207). -/
def DeleteFits (s : State) (p : Bytes) (k : Nat) : Prop :=
  p.length = 12 ∧ n8At p 0 = k ∧ n8At p 1 < 3 ∧ n16At p 2 = 0 ∧ n16At p 4 ≤ 12287 ∧ zeroAt p 6 2 = true ∧ k < 64 ∧ u32At p 8 = crc32c []
    ∧ bytesLost s 33 (4 * n16At p 4) 0 = false ∧ setUsers s k = [] ∧ (s.flt.assignsReq.map (tapsOf s.flt.setsReq)).sum ≤ 4096

theorem set_ne_of_setUsers {s : State} {k : Nat} (h : setUsers s k = []) {a : Assign} (ha : a ∈ s.flt.assignsReq) : a.set ≠ some k := by
  intro hk
  have hmem : a.ch ∈ setUsers s k := List.mem_map.mpr ⟨a, List.mem_filter.mpr ⟨ha, by simp [hk]⟩, rfl⟩
  rw [h] at hmem
  exact List.not_mem_nil hmem

theorem tapsOf_upd_of_set_ne {l : List (Option FltSet)} {k : Nat} (f : Option FltSet → Option FltSet) {a : Assign} (h : a.set ≠ some k) : tapsOf (upd l k f) a = tapsOf l a := by
  unfold tapsOf
  cases ha : a.set with
  | none => rfl
  | some j =>
    have hj : j ≠ k := fun hjk => h (by rw [ha, hjk])
    dsimp only
    rw [getD_upd_ne f none hj]

theorem fltLoadRun_deletes {k : Nat} (h : DeleteFits u (reqParams r) k) : ∃ pl, fltLoadRun u r = .done (setRequested k none u) pl ∧ pl.length = 12 := by
  obtain ⟨hlen, h0, htyp, h2, hbase, hres, hk, hcrc, hmem, husers, hsum⟩ := h
  have htaps : (u.flt.assignsReq.map (tapsOf (upd u.flt.setsReq k (fun _ => none)))).sum ≤ 4096 := by
    rwa [List.map_congr_left fun a ha => tapsOf_upd_of_set_ne _ (set_ne_of_setUsers husers ha)]
  refine ⟨loadReport u { typ := n8At (reqParams r) 1, taps := 0, base := n16At (reqParams r) 4 }, ?_, rfl⟩
  unfold fltLoadRun
  dsimp only
  rw [h0, h2, husers, if_pos rfl, tooLong_eq_nil (fun a ha hset => absurd hset (set_ne_of_setUsers husers ha)), if_neg (by simp), if_neg, if_neg (by simp), if_neg (by simp), if_neg, if_neg (by simp [hmem]), if_neg]
  · rfl
  · exact not_not.mpr hcrc.symm
  · rintro (hbad | ⟨hbad, -⟩)
    · exact absurd htaps (not_le.mpr hbad)
    · exact absurd hbad (by decide)
  · simp [hlen, hres]
    omega

/-- A set that an assignment names is not deleted (R207). -/
theorem fltLoadRun_named {k : Nat} (hlen : (reqParams r).length = 12) (h0 : n8At (reqParams r) 0 = k) (h2 : n16At (reqParams r) 2 = 0) (hk : k < 64) (husers : setUsers u k ≠ []) :
    fltLoadRun u r = rejectWith E_STATE := by
  unfold fltLoadRun
  dsimp only
  rw [h0, h2]
  exact if_pos ⟨by omega, hk, .inl ⟨rfl, by simpa using husers⟩⟩

end

/-! ### O34: FLT_ASSIGN (R190, R198, R204 to R206) -/

/-- The assignment that a request asks for. -/
def assignAsked (p : Bytes) : Assign :=
  { ch := n8At p 2, first := n8At p 0, gang := n8At p 1, set := if n8At p 3 = 0xFF then none else some (n8At p 3), n := n8At p 4, m := n16At p 6, r := n16At p 8 }

/-- The assignments that stay when another takes its channel and slots. -/
def assignsKept (s : State) (a : Assign) : List Assign := s.flt.assignsReq.filter (fun b => decide (b.ch ≠ a.ch) && !(overlaps a b))

/-- Assignments are requested, in effect from the next round boundary on (R205). -/
def assignsRequested (l : List Assign) (s : State) : State := { s with flt := { s.flt with assignsReq := l, changed := true } }

/-- The channels whose assignments an assignment releases: they are other channels that hold slots it takes. -/
def assignReleased (s : State) (a : Assign) : List Nat := (s.flt.assignsReq.filter (fun b => decide (b.ch ≠ a.ch) && overlaps a b)).map (·.ch)

/-- What FLT_ASSIGN answers: the channels whose assignments it releases, and the rounds until the new one has settled. -/
def assignReport (released : List Nat) (settle : Nat) : Bytes := (List.range 10).map (fun i => BitVec.ofNat 8 (bitField released / 256 ^ i)) ++ zeros 2 ++ n32 settle

theorem assignReport_length (released : List Nat) (settle : Nat) : (assignReport released settle).length = 16 := rfl

/-- A request is formed and names slots that may change: nothing running reads what it assigns or releases. -/
def SlotsFree (s : State) (p : Bytes) (a : Assign) : Prop :=
  p.length = 16 ∧ n8At p 5 = 0 ∧ zeroAt p 10 6 = true ∧ (∀ x ∈ s.flt.assignsReq, x.ch ≠ a.ch → overlaps a x = true → readLive s x.ch = false) ∧ (a.ch < 80 → readLive s a.ch = false)
    ∧ 1 ≤ a.gang ∧ a.gang ≤ 8 ∧ a.first + a.gang ≤ 80

/-- An assignment's filter set is there, or it has none and decimates by nothing (R204). -/
def SetFits (s : State) (a : Assign) : Prop :=
  (a.set = none ∧ a.r = 1) ∨ ∃ k f, a.set = some k ∧ k < 64 ∧ s.flt.setsReq.getD k none = some f ∧ 1 ≤ a.r ∧ a.r ≤ 64

/-- An assignment keeps within the limits of its channel, its lanes and the filter chain (R190, R198). -/
def AssignFits (s : State) (a : Assign) : Prop :=
  a.ch < 80 ∧ SetFits s a ∧ (a.ch < 48 → 1 ≤ a.n ∧ a.n ≤ 4 ∧ 4 ≤ a.m ∧ a.m ≤ 256) ∧ (48 ≤ a.ch → a.n = 0 ∧ a.m = 0) ∧ chanLost s a.ch = false
    ∧ withinBudget (lanes s) a (tapsOf s.flt.setsReq a) = true ∧ tapsOf s.flt.setsReq a + ((assignsKept s a).map (tapsOf s.flt.setsReq)).sum ≤ 4096

section
variable {u : State} {p : Bytes} {a : Assign} (h : SlotsFree u p a)
include h

theorem SlotsFree.idle : ¬ (p.length ≥ 4 ∧ ((a.ch < 80 ∧ readLive u a.ch = true) ∨ (assignReleased u a).any (readLive u) = true)) := by
  obtain ⟨-, -, -, hreleased, hlive, -⟩ := h
  rintro ⟨-, ⟨hch, hread⟩ | hread⟩
  · exact absurd hread (by rw [hlive hch]; decide)
  · obtain ⟨c, hc, hread⟩ := List.any_eq_true.mp hread
    obtain ⟨x, hx, rfl⟩ := List.mem_map.mp hc
    simp only [List.mem_filter, Bool.and_eq_true, decide_eq_true_iff] at hx
    exact absurd hread (by rw [hreleased x hx.1 hx.2.1 hx.2.2]; decide)

theorem SlotsFree.formed (hch : a.ch < 80 ∨ a.ch = 0xFF) :
    ¬ (p.length ≠ 16 ∨ a.first > 79 ∨ a.gang < 1 ∨ a.gang > 8 ∨ a.first + a.gang > 80 ∨ (a.ch > 79 ∧ a.ch ≠ 0xFF) ∨ n8At p 5 ≠ 0 ∨ (!zeroAt p 10 6) = true) := by
  obtain ⟨hlen, h5, hres, -, -, hg1, hg8, hend⟩ := h
  simp [hlen, h5, hres]
  omega

end

section
variable {u : State} {r : Req} {a : Assign} (ha : assignAsked (reqParams r) = a) (h : SlotsFree u (reqParams r) a)
include ha h

theorem fltAssignRun_releases (hch : a.ch = 0xFF) : fltAssignRun u r = .done (assignsRequested (assignsKept u a) u) (assignReport (assignReleased u a) 0) := by
  subst ha
  exact (if_neg h.idle).trans ((if_neg (h.formed (.inr hch))).trans (if_pos hch))

theorem fltAssignRun_assigns (hfits : AssignFits u a) :
    fltAssignRun u r = .done (assignsRequested (assignsKept u a ++ [a]) u) (assignReport (assignReleased u a) ((settleNeed u u.flt.setsReq a).getD 0xFFFFFFFF)) := by
  obtain ⟨hch, hset, hlow, hhigh, hlost, hbudget, hsum⟩ := hfits
  have hset' : (match a.set with | some k => decide (k ≥ 64) || (u.flt.setsReq.getD k none).isNone | none => decide (a.r ≠ 1)) = false ∧ 1 ≤ a.r ∧ a.r ≤ 64 := by
    obtain ⟨hnone, hr⟩ | ⟨k, f, hsome, hk, hf, hr1, hr64⟩ := hset
    · rw [hnone]
      simp [hr]
    · rw [hsome]
      dsimp only
      rw [hf]
      simp [hk, hr1, hr64]
  subst ha
  have hassign : ¬ (assignAsked (reqParams r)).ch = 0xFF := by omega
  refine (if_neg h.idle).trans ((if_neg (h.formed (.inl hch))).trans ((if_neg hassign).trans ?_))
  extract_lets t setBad sincBad
  have hsinc : sincBad = false := by
    by_cases h48 : (assignAsked (reqParams r)).ch < 48
    · refine (if_pos h48).trans ?_
      have := hlow h48
      simp [assignAsked] at this ⊢
      omega
    · refine (if_neg h48).trans ?_
      have := hhigh (by omega)
      simp [assignAsked] at this ⊢
      omega
  have hbad : ¬ (setBad || sincBad || decide ((assignAsked (reqParams r)).r < 1) || decide ((assignAsked (reqParams r)).r > 64)) = true := by
    rw [hsinc, show setBad = false from hset'.1]
    have := hset'.2
    simp
    omega
  exact (if_neg hbad).trans ((if_neg (not_lt.mpr hsum)).trans ((if_neg fun hover => Bool.false_ne_true (((Bool.not_eq_true' _).mp hover).symm.trans hbudget)).trans ((if_neg fun h => Bool.false_ne_true (hlost.symm.trans h)).trans rfl)))

end

/-! ### O34: FLT_QUERY_DELAY (R210 to R212) -/

/-- A request asks for the delay of a channel at a frequency in range. -/
def QueryFits (p : Bytes) (c : Nat) : Prop := p.length = 8 ∧ n8At p 0 = c ∧ c < 80 ∧ zeroAt p 1 3 = true ∧ f32In (u32At p 4) 0 500000 = true

section
variable {u : State} {r : Req} {c : Nat} (h : QueryFits (reqParams r) c)
include h

theorem QueryFits.formed : ¬ ((reqParams r).length ≠ 8 ∨ c ≥ 80 ∨ (!zeroAt (reqParams r) 1 3) = true ∨ (!f32In (u32At (reqParams r) 4) 0 500000) = true) := by
  obtain ⟨hlen, -, hc, hres, hfreq⟩ := h
  simp [hlen, hc, hres, hfreq]

theorem fltQueryRun_unassigned (hnone : assignOf u.flt.assigns c = none) : fltQueryRun u r = .done u (n8 0xFF ++ zeros 35 ++ le32 (getFch u c).sat) := by
  unfold fltQueryRun
  dsimp only
  rw [h.2.1, if_neg h.formed, hnone]

theorem fltQueryRun_assigned {a : Assign} (hsome : assignOf u.flt.assigns c = some a) :
    ∃ pl k, fltQueryRun u r = .done { u with free := u.free + k } pl ∧ pl.length = 40 ∧ k ≤ 1 ∧ pl.take 1 = n8 (a.first + a.gang - 1) ∧ pl.drop 36 = le32 (getFch u c).sat := by
  unfold fltQueryRun
  dsimp only
  rw [h.2.1, if_neg h.formed, hsome]
  dsimp only
  split
  · exact ⟨_, 0, rfl, rfl, by omega, rfl, rfl⟩
  · split
    · exact ⟨_, 0, rfl, rfl, by omega, rfl, rfl⟩
    · split
      · exact ⟨_, 0, rfl, rfl, by omega, rfl, rfl⟩
      · exact ⟨_, 1, rfl, rfl, by omega, rfl, rfl⟩

end

/-! ### O34: assembly -/

section
variable {via : Transport} {s : State} {r : Req} (hb : s.sys.dev ≠ .boot)
include hb

theorem fltLoad_loads (h : Takes 0x0500#16 via s r) {f : FltSet} {k : Nat} (hok : LoadFits s (reqParams r) f k) :
    exec (.fltLoad via) s = replied r OK (loadReport s f) { taken s via with flt := (setRequested k (some f) s).flt } := by
  have hrun : fltLoadRun (taken s via) r = _ := fltLoadRun_loads (by rw [taken_change]; exact hok)
  rw [setRequested, loadReport, coefs_taken, taken_flt] at hrun
  exact snsRow_done hb h (isOp_takes h) hrun

theorem fltLoad_deletes (h : Takes 0x0500#16 via s r) {k : Nat} (hok : DeleteFits s (reqParams r) k) :
    ∃ pl, exec (.fltLoad via) s = replied r OK pl { taken s via with flt := (setRequested k none s).flt } ∧ pl.length = 12 := by
  obtain ⟨pl, hrun, hpl⟩ := fltLoadRun_deletes (u := taken s via) (r := r) (k := k) (by rw [taken_change]; exact hok)
  rw [setRequested, taken_flt] at hrun
  exact ⟨pl, snsRow_done hb h (isOp_takes h) hrun, hpl⟩

section
variable {a : Assign} (h : Takes 0x0501#16 via s r) (ha : assignAsked (reqParams r) = a) (hfree : SlotsFree s (reqParams r) a)
include h ha hfree

theorem fltAssign_releases (hch : a.ch = 0xFF) :
    ∃ pl, pl.length = 16 ∧ exec (.fltAssign via) s = replied r OK pl { taken s via with flt := (assignsRequested (assignsKept s a) s).flt } := by
  have hrun := fltAssignRun_releases (u := taken s via) ha (by rw [taken_change]; exact hfree) hch
  rw [assignsRequested, assignsKept, taken_flt] at hrun
  exact ⟨_, assignReport_length .., snsRow_done hb h (isOp_takes h) hrun⟩

theorem fltAssign_assigns (hfits : AssignFits s a) :
    ∃ pl, pl.length = 16 ∧ exec (.fltAssign via) s = replied r OK pl { taken s via with flt := (assignsRequested (assignsKept s a ++ [a]) s).flt } := by
  have hrun := fltAssignRun_assigns (u := taken s via) ha (by rw [taken_change]; exact hfree) (by rw [taken_change]; exact hfits)
  rw [assignsRequested, assignsKept, taken_flt] at hrun
  exact ⟨_, assignReport_length .., snsRow_done hb h (isOp_takes h) hrun⟩

end

end

/-- An assignment without a set has no taps, so it is within every budget. -/
theorem tapsOf_of_set_none {l : List (Option FltSet)} {a : Assign} (h : a.set = none) : tapsOf l a = 0 := by
  unfold tapsOf
  rw [h]

theorem tapsOf_of_set_some {l : List (Option FltSet)} {a : Assign} {k : Nat} {f : FltSet} (h : a.set = some k) (hf : l.getD k none = some f) : tapsOf l a = f.taps := by
  unfold tapsOf
  rw [h]
  dsimp only
  rw [hf]

/-- Settles O34: the model's answers to the end of a calibration, to the two waiting requests and to the filter chain's rows, put together. -/
theorem calibrationsLatchesAndFilters : Obligations.CalibrationsLatchesAndFilters := by
  unfold Obligations.CalibrationsLatchesAndFilters
  refine ⟨fun ch k s hs hch hk => ⟨fun hspan hnear => ?_, fun hspan hfar => ?_, ?_, ?_⟩, fun ch s => calDone_idle, fun s => ⟨accLatch_idle, urgentReply_idle⟩,
    fun s w rest b first n fl hw hb hfirst hn hfl => accLatch_latches hw hb hfirst hn hfl, fun s w rest hw => ⟨urgentReply_served hw, urgentReply_expired hw⟩, ?_⟩
  · obtain ⟨hchan, hothers, hcals, hflt, hloop, htime, hmarks, hcodes⟩ := calSets_coef hs hch k (fun y => { y with zero := toF32 (k.sum / k.n) })
    exact ⟨_, (calDone_zero hk hspan).trans (congrArg _ (if_neg (not_lt.mpr hnear))), hchan, hothers, hcals, hflt, hloop, htime, hmarks, hcodes⟩
  · exact ⟨_, (calDone_zero hk hspan).trans (congrArg _ (if_pos hfar)), calEnded_kept k s⟩
  · rintro _ _ hspan rfl rfl hnom hout
    exact ⟨_, (calDone_span hk hspan hnom).trans (congrArg _ (if_pos hout)), calEnded_kept k s⟩
  · rintro _ _ hspan rfl rfl hgap hnom hlow hhigh
    obtain ⟨hchan, hothers, hcals, -⟩ := calSets_coef hs hch k (fun y => { y with scale := toF32 (spanScale s ch k) })
    have hin : ¬ (ratAbs (spanGap s ch k) < 2 / 100 ∨ spanScale s ch k / f32Val (getSense s ch).nomScale < 8 / 10 ∨ spanScale s ch k / f32Val (getSense s ch).nomScale > 12 / 10) :=
      not_or.mpr ⟨not_lt.mpr hgap, not_or.mpr ⟨not_lt.mpr hlow, not_lt.mpr hhigh⟩⟩
    exact ⟨_, (calDone_span hk hspan hnom).trans (congrArg _ (if_neg hin)), hchan, hothers, hcals⟩
  rintro via s r p hb rfl
  refine ⟨?_, ?_, ?_, ?_, ?_⟩
  · intro f k h hlen h0 h1 h2 h4 hres hk htyp htaps hmax hend hold hbudget hsum hmem hbyte hmirror hfree hcrc
    exact ⟨_, fltLoad_loads hb h ⟨hlen, h0, h1, h2, h4, hres, hk, htyp, htaps, hmax, hend, hold, hbudget, hsum, hmem, ⟨hbyte, hmirror⟩, hfree, hcrc⟩, rfl, rfl⟩
  · intro k h hlen h0 htyp h2 hbase hres hk hcrc hmem husers hsum
    exact fltLoad_deletes hb h ⟨hlen, h0, htyp, h2, hbase, hres, hk, hcrc, hmem, husers, hsum⟩
  · intro k h hlen h0 h2 hk husers
    exact snsRow_reject hb h (isOp_takes h) (fltLoadRun_named hlen h0 h2 hk (by rwa [setUsers_taken]))
  · intro a h hlen h0 h1 h2 h4 h5 h6 h8 hres hreleased hlive hg1 hg8 hend
    have hfree : SlotsFree s (reqParams r) a := ⟨hlen, h5, hres, hreleased, hlive, hg1, hg8, hend⟩
    have hasked {x : Option Nat} (hx : (if n8At (reqParams r) 3 = 0xFF then none else some (n8At (reqParams r) 3)) = x) : assignAsked (reqParams r) = { a with set := x } := by
      rw [assignAsked, hx, h0, h1, h2, h4, h6, h8]
    have hreleases := fltAssign_releases hb h (hasked rfl)
    refine ⟨hreleases hfree, ?_, ?_⟩
    · intro hch hset h3 hr hlow hhigh hlost hsum
      have hasked : assignAsked (reqParams r) = a := (hasked (if_pos h3)).trans (by rw [← hset])
      have htaps : tapsOf s.flt.setsReq a = 0 := tapsOf_of_set_none hset
      exact fltAssign_assigns hb h hasked hfree ⟨hch, .inl ⟨hset, hr⟩, hlow, hhigh, hlost, by simp [withinBudget, htaps], by rwa [htaps, Nat.zero_add]⟩
    · intro k f hch hset h3 hk hf hr1 hr64 hlow hhigh hlost hbudget hsum
      have hasked : assignAsked (reqParams r) = a := (hasked ((if_neg (by omega)).trans (congrArg some h3))).trans (by rw [← hset])
      have htaps : tapsOf s.flt.setsReq a = f.taps := tapsOf_of_set_some hset hf
      exact fltAssign_assigns hb h hasked hfree ⟨hch, .inr ⟨k, f, hset, hk, hf, hr1, hr64⟩, hlow, hhigh, hlost, by rwa [htaps], by rwa [htaps]⟩
  · intro c h hlen h0 hc hres hfreq
    have hok : QueryFits (reqParams r) c := ⟨hlen, h0, hc, hres, hfreq⟩
    refine ⟨fun hnone => ?_, fun a hsome => ?_⟩
    · have hrun := fltQueryRun_unassigned (u := taken s via) hok (by rwa [taken_flt])
      rw [getFch_taken] at hrun
      exact snsRow_done hb h (isOp_takes h) hrun
    · obtain ⟨pl, k, hrun, hlen, hk, hslot, hsat⟩ := fltQueryRun_assigned (u := taken s via) hok (a := a) (by rwa [taken_flt])
      rw [taken_free] at hrun
      rw [getFch_taken] at hsat
      exact ⟨pl, k, snsRow_done hb h (isOp_takes h) hrun, hlen, hk, hslot, hsat⟩

end Sys2Proof.Proofs

/-! ## The filter chain's arithmetic: the sinc sums of the bitstream channels and the FIR stage in Q1.23 -/

namespace Sys2Proof.Proofs

open Sys2Proof Sys2Proof.Machine Sys2Proof.Claims Sys2Proof.Laws

/-! ### O31: rounding to nearest stays between integers -/

theorem roundQuot_zero (n d : Nat) : roundQuot n d 0 = if 2 * (n % d) > d ∨ (2 * (n % d) = d ∧ n / d % 2 = 1) then n / d + 1 else n / d := by
  simp [roundQuot]

theorem le_roundQuot {n d k : Nat} (hd : 0 < d) (h : k * d ≤ n) : k ≤ roundQuot n d 0 := by
  have hk : k ≤ n / d := (Nat.le_div_iff_mul_le hd).mpr h
  rw [roundQuot_zero]
  split <;> omega

theorem roundQuot_le {n d k : Nat} (hd : 0 < d) (h : n ≤ k * d) : roundQuot n d 0 ≤ k := by
  rw [roundQuot_zero]
  rcases (Nat.div_le_of_le_mul (h.trans_eq (Nat.mul_comm k d))).lt_or_eq with hlt | heq
  · split <;> omega
  · have hrem : n % d = 0 := by
      have := Nat.div_add_mod n d
      rw [heq, Nat.mul_comm] at this
      omega
    rw [if_neg (by omega), heq]

@[simp] theorem ratRound_neg (x : Rat) : ratRound (-x) = -ratRound x := by
  rcases lt_trichotomy x.num 0 with h | h | h
  · simp [ratRound, h, (Rat.num_neg.mp h).not_gt]
  · simp [ratRound, h, roundQuot_zero]
  · simp [ratRound, h, (Rat.num_pos.mp h).not_gt]

theorem le_ratRound {k : Int} {x : Rat} (h : (k : Rat) ≤ x) : k ≤ ratRound x := by
  have hnum : k * x.den ≤ x.num := by
    rw [← Rat.num_div_den x, le_div_iff₀ (by exact_mod_cast x.den_pos)] at h
    exact_mod_cast h
  unfold ratRound
  dsimp only
  split
  next hneg =>
    have hk : k < 0 := by
      by_contra hk
      have := Int.mul_nonneg (not_lt.mp hk) (Int.natCast_nonneg x.den)
      omega
    have : x.num.natAbs ≤ k.natAbs * x.den := by
      zify
      rw [abs_of_neg hneg, abs_of_neg hk]
      linarith
    have := roundQuot_le x.den_pos this
    omega
  next hpos =>
    rcases le_total k 0 with hk | hk
    · omega
    have : k.natAbs * x.den ≤ x.num.natAbs := by
      zify
      rwa [abs_of_nonneg (not_lt.mp hpos), abs_of_nonneg hk]
    have := le_roundQuot x.den_pos this
    omega

theorem ratRound_le {k : Int} {x : Rat} (h : x ≤ k) : ratRound x ≤ k := by
  have := le_ratRound (k := -k) (x := -x) (by push_cast; exact neg_le_neg h)
  rw [ratRound_neg] at this
  omega

@[simp] theorem ratRound_intCast (k : Int) : ratRound k = k := le_antisymm (ratRound_le le_rfl) (le_ratRound le_rfl)

/-! ### O31: the sinc stage at full scale (R192, R193) -/

theorem sincWeights_succ (n m : Nat) : sincWeights (n + 1) m = boxcar m (sincWeights n m) := by
  simp [sincWeights, List.range_succ]

theorem length_sincWeights (n : Nat) {m : Nat} (hm : 0 < m) : (sincWeights n m).length = n * (m - 1) + 1 := by
  induction n with
  | zero => simp [sincWeights]
  | succ n ih =>
    rw [sincWeights_succ, boxcar, List.length_map, List.length_range, ih, Nat.succ_mul]
    omega

theorem sum_range_getD (w : List Nat) {n : Nat} (hn : w.length ≤ n) : ∑ k ∈ Finset.range n, w.getD k 0 = w.sum := by
  induction w generalizing n with
  | nil => simp
  | cons a w ih =>
    obtain ⟨n, rfl⟩ : ∃ i, n = i + 1 := ⟨n - 1, by simp at hn; omega⟩
    rw [Finset.sum_range_succ']
    simp only [List.getD_cons_succ, List.getD_cons_zero, List.sum_cons, ih (Nat.le_of_succ_le_succ hn), Nat.add_comm]

/-- Each tap of a boxcar adds the weights once, shifted within the new window. -/
theorem sum_range_shifted (w : List Nat) {j n : Nat} (hn : j + w.length ≤ n) : ∑ k ∈ Finset.range n, (if j ≤ k then w.getD (k - j) 0 else 0) = w.sum := by
  obtain ⟨l, rfl⟩ := Nat.exists_eq_add_of_le (Nat.le_of_add_right_le hn)
  rw [Finset.sum_range_add, Finset.sum_eq_zero (fun k hk => if_neg (by simpa using hk)), Nat.zero_add]
  simpa using sum_range_getD w (Nat.le_of_add_le_add_left hn)

theorem sum_boxcar (m : Nat) (w : List Nat) : (boxcar m w).sum = m * w.sum := by
  have hfin (f : Nat → Nat) (n : Nat) : ((List.range n).map f).sum = ∑ k ∈ Finset.range n, f k := rfl
  calc (boxcar m w).sum
      = ∑ k ∈ Finset.range (w.length + m - 1), ∑ j ∈ Finset.range m, (if j ≤ k then w.getD (k - j) 0 else 0) := rfl
    _ = ∑ j ∈ Finset.range m, ∑ k ∈ Finset.range (w.length + m - 1), (if j ≤ k then w.getD (k - j) 0 else 0) := Finset.sum_comm
    _ = ∑ j ∈ Finset.range m, w.sum := Finset.sum_congr rfl fun j hj => sum_range_shifted w (by have := Finset.mem_range.mp hj; omega)
    _ = m * w.sum := by simp

theorem sum_sincWeights (n m : Nat) : (sincWeights n m).sum = m ^ n := by
  induction n with
  | zero => simp [sincWeights]
  | succ n ih => rw [sincWeights_succ, sum_boxcar, ih, Nat.pow_succ']

/-- A window of equal bits sums the weights with the bit's sign. -/
theorem foldl_signed_replicate (w : List Nat) (b : Bool) (t : Int) :
    (w.zip (List.replicate w.length b)).foldl (fun t p => if p.2 then t + p.1 else t - p.1) t = if b then t + w.sum else t - w.sum := by
  induction w generalizing t with
  | nil => simp
  | cons a w ih =>
    simp only [List.length_cons, List.replicate_succ, List.zip_cons_cons, List.foldl_cons, ih]
    cases b <;> simp <;> ring

/-- The sum over a window of equal bits is the full scale M^N with the bit's sign, so its quotient is exactly 1 or -1. -/
theorem sincOut_replicate (n : Nat) {m : Nat} (hm : 0 < m) (b : Bool) :
    sincOut n m (List.replicate (n * (m - 1) + 1) b) = if b then 2 ^ 23 - 1 else -(2 ^ 23) := by
  have hfull (k : Int) : mkRat ((m ^ n : Nat) * k) (m ^ n) = k := by
    have : (m : Rat) ≠ 0 := by exact_mod_cast hm.ne'
    rw [Rat.mkRat_eq_div]
    push_cast
    field_simp
  have hsum := foldl_signed_replicate (sincWeights n m) b 0
  rw [length_sincWeights n hm, sum_sincWeights] at hsum
  unfold sincOut
  dsimp only
  rw [hsum]
  cases b
  · have := hfull (-(2 ^ 23))
    simp only [Bool.false_eq_true, if_false, Int.zero_sub, Int.neg_mul, ← Int.mul_neg, this, ratRound_intCast]
    decide
  · simp only [if_true, Int.zero_add, hfull, ratRound_intCast]
    decide

/-! ### O31: the FIR stage (R195) -/

/-- The 56-bit accumulator with 46 fractional bits: a sum outside its range stays at the nearest end. -/
def heldAcc (a : Int) : Int := if a > 512 * 2 ^ 46 - 1 then 512 * 2 ^ 46 - 1 else if a < -(512 * 2 ^ 46) then -(512 * 2 ^ 46) else a

/-- A rounded sum in Q1.23, and whether it saturated. -/
def satQ123 (y : Int) : Int × Bool := if y ≥ 2 ^ 23 then (2 ^ 23 - 1, true) else if y < -(2 ^ 23) then (-(2 ^ 23), true) else (y, false)

theorem firOut_eq (h x : List Int) : firOut h x = satQ123 (ratRound (mkRat (heldAcc ((h.zip x).map (fun p => p.1 * p.2)).sum) (2 ^ 23))) := rfl

theorem satQ123_of_ge {y : Int} (h : 2 ^ 23 ≤ y) : satQ123 y = (2 ^ 23 - 1, true) := if_pos h

theorem satQ123_of_lt {y : Int} (h : y < -(2 ^ 23)) : satQ123 y = (-(2 ^ 23), true) := by
  rw [satQ123, if_neg (by omega), if_pos h]

theorem satQ123_of_mem {y : Int} (hlo : -(2 ^ 23) ≤ y) (hhi : y ≤ 2 ^ 23 - 1) : satQ123 y = (y, false) := by
  rw [satQ123, if_neg (by omega), if_neg (by omega)]

theorem satQ123_bounds (y : Int) : -(2 ^ 23) ≤ (satQ123 y).1 ∧ (satQ123 y).1 ≤ 2 ^ 23 - 1 := by
  unfold satQ123
  split
  · decide
  split
  · decide
  · dsimp only
    omega

theorem le_ratRound_mkRat {a k : Int} (h : k * 2 ^ 23 ≤ a) : k ≤ ratRound (mkRat a (2 ^ 23)) := by
  apply le_ratRound
  rw [Rat.mkRat_eq_div, le_div_iff₀ (by norm_num)]
  exact_mod_cast h

theorem ratRound_mkRat_le {a k : Int} (h : a ≤ k * 2 ^ 23) : ratRound (mkRat a (2 ^ 23)) ≤ k := by
  apply ratRound_le
  rw [Rat.mkRat_eq_div, div_le_iff₀ (by norm_num)]
  exact_mod_cast h

/-- A sum that the accumulator cannot hold saturates the output as the exact sum does (R195). -/
theorem satQ123_heldAcc (a : Int) : satQ123 (ratRound (mkRat (heldAcc a) (2 ^ 23))) = satQ123 (ratRound (mkRat a (2 ^ 23))) := by
  have above {b : Int} (h : 512 * 2 ^ 46 - 1 ≤ b) : satQ123 (ratRound (mkRat b (2 ^ 23))) = (2 ^ 23 - 1, true) :=
    satQ123_of_ge (le_ratRound_mkRat (by omega))
  have below {b : Int} (h : b ≤ -(512 * 2 ^ 46)) : satQ123 (ratRound (mkRat b (2 ^ 23))) = (-(2 ^ 23), true) :=
    satQ123_of_lt (Int.lt_of_le_of_lt (ratRound_mkRat_le (k := -(2 ^ 32)) (by omega)) (by decide))
  unfold heldAcc
  split
  next h => rw [above le_rfl, above h.le]
  next =>
    split
    next h => rw [below le_rfl, below h.le]
    next => rfl

/-- Settles O31: a window of equal bits sums to plus or minus M^N, which only the upper end of Q1.23 cannot hold; the FIR output is the exact sum, rounded and held in Q1.23, since the accumulator saturates only where the output does. -/
theorem filterArithmeticStaysInQ123 : Obligations.FilterArithmeticStaysInQ123 := by
  unfold Obligations.FilterArithmeticStaysInQ123
  refine ⟨fun n m hm => ⟨sincOut_replicate n hm true, sincOut_replicate n hm false⟩, fun h x => ?_⟩
  rw [firOut_eq, satQ123_heldAcc]
  obtain ⟨hlo, hhi⟩ := satQ123_bounds (ratRound (mkRat ((h.zip x).map (fun p => p.1 * p.2)).sum (2 ^ 23)))
  refine ⟨hlo, hhi, ?_⟩
  rintro _ rfl
  exact ⟨satQ123_of_mem, satQ123_of_ge, satQ123_of_lt⟩

end Sys2Proof.Proofs

/-! ## The dataflow scheduler: notices, dispatch, completions and decrements -/

namespace Sys2Proof.Proofs

open Sys2Proof Sys2Proof.Machine Sys2Proof.Claims Sys2Proof.Laws

/-! ### O37: engines, instances and frames under an update -/

theorem getEngine_updEngine_same {e : Nat} {f : Engine → Engine} {s : State} (h : e < s.loop.engines.length) :
    getEngine (updEngine e f s) e = f (getEngine s e) := getD_upd_same f _ h

theorem nodeInst_setNodeInst_same {k : Nat} {i j : Inst} {s : State} (h : nodeInst s k = some j) : nodeInst (setNodeInst k i s) k = some i := by
  obtain ⟨hk, -⟩ := List.getElem?_eq_some_iff.mp h
  exact List.getElem?_set_self hk

theorem nodeInst_setNodeInst_ne {k m : Nat} (i : Inst) (s : State) (h : m ≠ k) : nodeInst (setNodeInst k i s) m = nodeInst s m :=
  List.getElem?_set_ne (Ne.symm h)

/-- A frame that is found under an index has it. -/
theorem index_of_getFrame {s : State} {n : Nat} {idx : U32} {f : Frame} (h : getFrame s n idx = some f) : f.index = idx := by
  simpa using List.find?_some h

theorem getFrame_updFrame {s : State} {n : Nat} {idx : U32} {f : Frame} {h : Frame → Frame} (hn : n < s.loop.stages.length)
    (hf : getFrame s n idx = some f) (hidx : (h f).index = idx) (hh : ∀ y, h y = h f) : getFrame (updFrame n idx h s) n idx = some (h f) := by
  have hsame : (fun g : Frame => g.index == idx) ∘ (fun y : Frame => if y.index = idx then h y else y) = fun g => g.index == idx := by
    funext y
    by_cases hy : y.index = idx
    · simp [hy, hh y, hidx]
    · simp [hy]
  have hfind : (getStage s n).frames.find? (fun g => g.index == idx) = some f := hf
  rw [getFrame, updFrame, getStage_updStage_same hn, List.find?_map, hsame, hfind, Option.map_some, if_pos (index_of_getFrame hf)]

/-- A frame joins the open ones before the first that does not come before it, so it is the one found under its index. -/
theorem find?_insertFrame (f : Frame) (l : List Frame) : (insertFrame f l).find? (fun g => g.index == f.index) = some f := by
  induction l with
  | nil => simp [insertFrame]
  | cons g t ih =>
    unfold insertFrame
    split
    · next h =>
      have hne : g.index ≠ f.index := by
        rintro hg
        simp [frameAfter, hg] at h
      rw [List.find?_cons_of_neg (by simpa using hne), ih]
    · exact List.find?_cons_of_pos (by simp)

/-! ### O37: what follows a hold of dispatch (R262, R263) -/

/-- An engine but for its hold of dispatch. -/
def unheld (x : Engine) : Engine := { x with stallAt := none, stallFrom := 0, stalled := false }

/-- A reading that shows nothing of holds of dispatch and of what the scheduler counts of them. -/
structure HoldBlind {α : Type} (v : State → α) : Prop where
  stage : ∀ (f : Stage → Stage), (∀ x, bookkept (f x) = bookkept x) → ∀ n s, v (updStage n f s) = v s
  engine : ∀ (f : Engine → Engine), (∀ x, unheld (f x) = unheld x) → ∀ e s, v (updEngine e f s) = v s

section
variable {α : Type} {v : State → α} (hv : HoldBlind v)
include hv

theorem HoldBlind.followHold_reading (e : Nat) (s : State) : v (followHold e s) = v s := by
  unfold followHold
  split
  · exact hv.engine _ (by exact fun _ => rfl) ..
  · unfold endHold
    dsimp only
    split
    · exact (hv.stage _ (by exact fun _ => rfl) ..).trans (hv.engine _ (by exact fun _ => rfl) ..)
    · exact hv.engine _ (by exact fun _ => rfl) ..
  · rfl

theorem HoldBlind.followHolds_reading (n : Nat) (s : State) : v (followHolds n s) = v s := forEach_reading hv.followHold_reading _ s

end

@[simp] theorem nodeInst_followHolds (n : Nat) (s : State) (k : Nat) : nodeInst (followHolds n s) k = nodeInst s k :=
  HoldBlind.followHolds_reading (v := fun s => nodeInst s k) ⟨fun _ _ _ _ => rfl, fun _ _ _ _ => rfl⟩ n s

theorem unheld_getEngine_followHolds (n : Nat) (s : State) (e : Nat) : unheld (getEngine (followHolds n s) e) = unheld (getEngine s e) :=
  HoldBlind.followHolds_reading (v := fun s => unheld (getEngine s e)) ⟨fun _ _ _ _ => rfl, fun _ hf _ _ => getD_upd_map hf ..⟩ n s

@[simp] theorem waitPost_followHolds (n : Nat) (s : State) (e : Nat) : (getEngine (followHolds n s) e).waitPost = (getEngine s e).waitPost :=
  (congrArg Engine.waitPost (unheld_getEngine_followHolds n s e) :)
@[simp] theorem queue_followHolds (n : Nat) (s : State) (e : Nat) : (getEngine (followHolds n s) e).queue = (getEngine s e).queue :=
  (congrArg Engine.queue (unheld_getEngine_followHolds n s e) :)
@[simp] theorem portAt_followHolds (n : Nat) (s : State) (e : Nat) : (getEngine (followHolds n s) e).portAt = (getEngine s e).portAt :=
  (congrArg Engine.portAt (unheld_getEngine_followHolds n s e) :)
@[simp] theorem freeAt_followHolds (n : Nat) (s : State) (e : Nat) : (getEngine (followHolds n s) e).freeAt = (getEngine s e).freeAt :=
  (congrArg Engine.freeAt (unheld_getEngine_followHolds n s e) :)

@[simp] theorem time_followHolds (n : Nat) (s : State) : (followHolds n s).time = s.time := followHolds_reading (v := State.time) (fun _ _ _ _ _ => rfl) n s
@[simp] theorem pwm_followHolds (n : Nat) (s : State) : (followHolds n s).pwm = s.pwm := followHolds_reading (v := State.pwm) (fun _ _ _ _ _ => rfl) n s

theorem bookkept_getStage_followHolds (m : Nat) (s : State) (n : Nat) : bookkept (getStage (followHolds m s) n) = bookkept (getStage s n) :=
  getStage_of_stagesShown (followHolds_reading stagesShown_schedBlind m s) n

theorem getFrame_of_bookkept {s t : State} {n : Nat} (h : bookkept (getStage t n) = bookkept (getStage s n)) (idx : U32) : getFrame t n idx = getFrame s n idx :=
  (congrArg (fun x : Stage => x.frames.find? (fun f : Frame => f.index == idx)) h :)
theorem notices_of_bookkept {x y : Stage} (h : bookkept x = bookkept y) : x.notices = y.notices := (congrArg Stage.notices h :)
theorem periodMisses_of_bookkept {x y : Stage} (h : bookkept x = bookkept y) : x.periodMisses = y.periodMisses := (congrArg Stage.periodMisses h :)

@[simp] theorem getFrame_followHolds (m : Nat) (s : State) (n : Nat) (idx : U32) : getFrame (followHolds m s) n idx = getFrame s n idx :=
  getFrame_of_bookkept (bookkept_getStage_followHolds m s n) idx
@[simp] theorem notices_followHolds (m : Nat) (s : State) (n : Nat) : (getStage (followHolds m s) n).notices = (getStage s n).notices :=
  notices_of_bookkept (bookkept_getStage_followHolds m s n)
@[simp] theorem periodMisses_followHolds (m : Nat) (s : State) (n : Nat) : (getStage (followHolds m s) n).periodMisses = (getStage s n).periodMisses :=
  periodMisses_of_bookkept (bookkept_getStage_followHolds m s n)

/-! ### O37: instances that become due (R248 to R253) -/

/-- A frame but for the report that it is complete (R251). -/
def unreported (f : Frame) : Frame := { f with complete := false, completeAt := 0 }
/-- A stage but for what the scheduler counts as instances become due, and for the reports of its frames. -/
def scheduled (x : Stage) : Stage :=
  { x with slotsPeak := 0, portStall := 0, slotWaits := 0, exceptions := 0, frames := x.frames.map unreported }

/-- A reading that shows neither the scheduler's instances and engines nor what becomes of stages and the log as instances become due. -/
def DueBlind {α : Type} (v : State → α) : Prop :=
  ∀ (s : State) (st : List Stage) (es : List Engine) (is : List Inst) (e : EventLog) (c : Capture), st.map scheduled = s.loop.stages.map scheduled →
    v { s with loop := { s.loop with stages := st, engines := es, insts := is }, evt := e, cap := c } = v s

theorem DueBlind.log {α : Type} {v : State → α} (hv : DueBlind v) : LogBlind v := fun s e c => hv s s.loop.stages s.loop.engines s.loop.insts e c rfl
theorem DueBlind.sched {α : Type} {v : State → α} (hv : DueBlind v) : SchedBlind v := fun s st es is h =>
  hv s st es is s.evt s.cap (by simpa only [List.map_map, show scheduled ∘ bookkept = scheduled from rfl] using congrArg (List.map scheduled) h)

section
variable {α : Type} {v : State → α} (hv : DueBlind v)
include hv

theorem DueBlind.updStage_reading {f : Stage → Stage} (hf : ∀ x, scheduled (f x) = scheduled x) (n : Nat) (s : State) : v (updStage n f s) = v s :=
  hv s _ s.loop.engines s.loop.insts s.evt s.cap (map_upd_of_eq hf ..)

theorem DueBlind.insts_reading (is : List Inst) (s : State) : v { s with loop := { s.loop with insts := is } } = v s :=
  hv s s.loop.stages s.loop.engines is s.evt s.cap rfl

theorem DueBlind.checkComplete_reading (n : Nat) (idx : U32) (q : Nat) (s : State) : v (checkComplete n idx q s) = v s := by
  refine hv.updStage_reading (fun x => ?_) n s
  have hmap : ∀ g : Frame → Frame, (∀ y, unreported (g y) = unreported y) → (x.frames.map g).map unreported = x.frames.map unreported := fun g hg => by simp [hg]
  simp only [scheduled]
  rw [hmap _ fun y => ?_]
  split <;> rfl

theorem DueBlind.postCompletion_reading (e q : Nat) (c : Completion) (s : State) : v (postCompletion e q c s) = v s := by
  have hdrop : v (match instAt s c.stage c.frame c.node with | some k => dropInst k s | none => s) = v s := by
    split
    · exact hv.insts_reading ..
    · rfl
  refine (hv.checkComplete_reading ..).trans (Eq.trans ?_ hdrop)
  split
  · rfl
  · exact updEngine_reading hv.sched ..

theorem DueBlind.endInst_reading (k : Nat) (i : Inst) (q : Nat) (skip : Bool) (s : State) : v (endInst k i q skip s) = v s := by
  unfold endInst
  dsimp only
  split
  · exact (hv.postCompletion_reading ..).trans (hv.insts_reading ..)
  · exact (updEngine_reading hv.sched ..).trans (hv.insts_reading ..)

theorem DueBlind.countExceptions_reading (n : Nat) (l : List (Nat × Nat)) (s : State) : v (countExceptions n l s) = v s :=
  foldl_reading (fun s _ => (postMerge_reading hv.log ..).trans (hv.updStage_reading (by exact fun _ => rfl) n s)) l s

theorem DueBlind.becomeDue_reading (k q : Nat) (port : Option Nat) (s : State) : v (becomeDue k q port s).2 = v s := by
  unfold becomeDue
  split
  · rfl
  · next i _ =>
    extract_lets u
    have hu : v u = v s := by
      unfold u
      split
      · exact hv.countExceptions_reading ..
      · rfl
    clear_value u
    rw [← hu]
    split
    · dsimp only
      split
      · exact hv.insts_reading ..
      · exact hv.endInst_reading ..
    · split
      · exact hv.insts_reading ..
      · split
        · exact takeSlot_reading hv.sched ..
        · exact (hv.updStage_reading (by exact fun _ => rfl) ..).trans (hv.insts_reading ..)

theorem DueBlind.openInsts_reading (n : Nat) (f : Frame) (s : State) : v (openInsts n f s) = v s := by
  unfold openInsts
  refine (hv.checkComplete_reading ..).trans ((forEach_reading (fun i u => ?_) _ _).trans (hv.insts_reading ..))
  split
  · rfl
  · split
    · split
      · exact hv.becomeDue_reading ..
      · rfl
    · rfl

/-- Opening a frame is that the frame joins the open ones, with the samples that are usable; the rest is its instances' (R247, R248). -/
theorem DueBlind.openFrame_reading (n : Nat) (f : Frame) (s : State) :
    ∃ l q, v (openFrame n f s) = v (updStage n (fun y => { y with frames := insertFrame { f with samples := l } y.frames, newest := q }) s) :=
  ⟨_, _, hv.openInsts_reading ..⟩

end

/-- What a notice shows: its stage, time and the PWM island. -/
def noticeFace (n : Nat) (s : State) : Stage × Thyme × Pwm := (scheduled (getStage s n), s.time, s.pwm)

theorem noticeFace_dueBlind (n : Nat) : DueBlind (noticeFace n) := fun s st es is e c h => by
  have hget : ∀ u : State, scheduled (getStage u n) = (u.loop.stages.map scheduled).getD n (scheduled stage0) := fun u => (List.getD_map ..).symm
  simp only [noticeFace, hget, h]

/-- The frame found under an index, but for the report that it is complete, is read from the stage's face. -/
theorem getFrame_of_scheduled {s t : State} {n : Nat} {idx : U32} {f : Frame} (h : scheduled (getStage t n) = scheduled (getStage s n))
    (hf : getFrame s n idx = some f) : ∃ g, getFrame t n idx = some g ∧ unreported g = unreported f := by
  have hface : ∀ u, (getFrame u n idx).map unreported = (scheduled (getStage u n)).frames.find? (fun f => f.index == idx) := fun u => by
    simp only [scheduled, List.find?_map]; rfl
  have hmap : (getFrame t n idx).map unreported = some (unreported f) := by rw [hface, h, ← hface, hf]; rfl
  exact Option.map_eq_some_iff.mp hmap

/-! ### O37: reload notices (R247, R267, R273, R274) -/

/-- The oldest notice of a stage has left its queue. -/
def noticeTaken (n : Nat) (t : List (U32 × Nat × Nat)) (s : State) : State := updStage n (fun y => { y with notices := t }) s

section
variable {s : State} {n : Nat} {idx : U32} {reload len : Nat} {t : List (U32 × Nat × Nat)} {f : Frame}

theorem reloadNotice_idle (h : (getStage s n).notices = [] ∨ (getStage s n).handover.isSome = true) : exec (.reloadNotice n) s = .next s := by
  show execReloadNotice n s = _
  unfold execReloadNotice
  dsimp only
  split
  · rfl
  · next hnot => rw [if_pos (h.resolve_left (by simp [hnot]))]

theorem reloadNotice_taken (hnot : (getStage s n).notices = (idx, reload, len) :: t) (hno : (getStage s n).handover = none) :
    exec (.reloadNotice n) s = .next (if stageLive s n then followHolds n (noticeArrives n idx reload len (noticeTaken n t s)) else noticeTaken n t s) := by
  show execReloadNotice n s = _
  simp [execReloadNotice, hnot, hno, noticeTaken]

theorem reloadNotice_of_live (hnot : (getStage s n).notices = (idx, reload, len) :: t) (hno : (getStage s n).handover = none) (hlive : stageLive s n = true) :
    exec (.reloadNotice n) s = .next (followHolds n (noticeArrives n idx reload len (noticeTaken n t s))) := by
  rw [reloadNotice_taken hnot hno, if_pos hlive]

variable (hn : n < s.loop.stages.length)
include hn

theorem getStage_noticeTaken : getStage (noticeTaken n t s) n = { getStage s n with notices := t } := getStage_updStage_same hn

theorem getFrame_noticeTaken : getFrame (noticeTaken n t s) n idx = getFrame s n idx := by rw [getFrame, getStage_noticeTaken hn]; rfl

/-- A committed frame is not opened again. -/
theorem noticeArrives_of_committed (hf : getFrame s n idx = none) (hc : frameAfter idx (getStage s n).cFrame = false) :
    noticeArrives n idx reload len (noticeTaken n t s) = noticeTaken n t s := by
  unfold noticeArrives
  simp only [getFrame_noticeTaken hn, hf, getStage_noticeTaken hn, hc, Bool.false_eq_true, if_false]

/-- The frame that a notice opens. -/
def noticeFrame (n : Nat) (idx : U32) (reload len : Nat) (s : State) : Frame :=
  newFrame s n idx false reload len true none (((getStage s n).snaps.find? (fun p => p.1 == idx)).map Prod.snd)

theorem noticeArrives_of_unopened (hf : getFrame s n idx = none) (hc : frameAfter idx (getStage s n).cFrame = true) :
    noticeArrives n idx reload len (noticeTaken n t s) = openFrame n (noticeFrame n idx reload len (noticeTaken n t s)) (noticeTaken n t s) := by
  unfold noticeArrives
  simp only [getFrame_noticeTaken hn, hf, getStage_noticeTaken hn, hc, if_true, noticeFrame]

/-- An open frame takes what its reload fixes. -/
def noticeFixed (s : State) (n reload : Nat) (f : Frame) : Frame :=
  { f with fixed := true, reload := reload, snapR := some ((((getStage s n).snaps.find? (fun p => p.1 == f.index)).map Prod.snd).getD (takeSnap s n reload)) }

/-- An open frame whose length was not predicted wrongly: one that a miss reopened takes the length and the values of its reload too (R229). -/
def noticeKept (s : State) (n reload len : Nat) (f : Frame) : Frame :=
  if f.spec then noticeFixed s n reload f
  else { noticeFixed s n reload f with length := len, cum := f.cum - f.length + len, tReload := timeAt s reload, snap := (noticeFixed s n reload f).snapR.getD f.snap }

theorem noticeArrives_of_open (hf : getFrame s n idx = some f) :
    noticeArrives n idx reload len (noticeTaken n t s) =
      if f.spec ∧ f.length ≠ len then
        missFrame n 1 { noticeFixed (noticeTaken n t s) n reload f with length := len } (updStage n (fun x => { x with periodMisses := x.periodMisses + 1 }) (noticeTaken n t s))
      else updFrame n idx (fun _ => noticeKept (noticeTaken n t s) n reload len f) (noticeTaken n t s) := by
  unfold noticeArrives
  simp only [getFrame_noticeTaken hn, hf, noticeKept, noticeFixed, index_of_getFrame hf]

theorem stages_length_noticeTaken : n < (noticeTaken n t s).loop.stages.length := by simpa [noticeTaken, updStage, upd_length] using hn

/-- A notice whose length is the open frame's own, or comes to a frame that is not speculative, fixes the frame. -/
theorem reloadNotice_fixes (hnot : (getStage s n).notices = (idx, reload, len) :: t) (hno : (getStage s n).handover = none) (hlive : stageLive s n = true)
    (hf : getFrame s n idx = some f) (hlen : f.spec = false ∨ f.length = len) :
    ∃ u g, exec (.reloadNotice n) s = .next u ∧ getFrame u n idx = some g ∧ g.fixed = true ∧ g.reload = reload ∧ g.length = len ∧ g.samples = f.samples ∧ g.sig = f.sig
      ∧ (getStage u n).notices = t ∧ (getStage u n).periodMisses = (getStage s n).periodMisses ∧ u.time = s.time := by
  have hno' : ¬ (f.spec = true ∧ f.length ≠ len) := by rintro ⟨hs, hl⟩; simp [hs, hl] at hlen
  have hidx := index_of_getFrame hf
  have hu := reloadNotice_of_live hnot hno hlive
  rw [noticeArrives_of_open hn hf, if_neg hno'] at hu
  have hopen : getFrame (noticeTaken n t s) n idx = some f := (getFrame_noticeTaken hn).trans hf
  have hget := (getStage_updStage_same (f := fun x => { x with frames := x.frames.map (fun y => if y.index = idx then noticeKept (noticeTaken n t s) n reload len f else y) })
    (stages_length_noticeTaken (t := t) hn)).trans (by rw [getStage_noticeTaken hn])
  have hkept : ∃ g, noticeKept (noticeTaken n t s) n reload len f = g ∧ g.index = idx ∧ g.fixed = true ∧ g.reload = reload ∧ g.length = len ∧ g.samples = f.samples ∧ g.sig = f.sig := by
    unfold noticeKept
    split
    · next hs => exact ⟨_, rfl, hidx, rfl, rfl, hlen.resolve_left (by simp [hs]), rfl, rfl⟩
    · exact ⟨_, rfl, hidx, rfl, rfl, rfl, rfl, rfl⟩
  obtain ⟨g, hg, hgidx, hgs⟩ := hkept
  rw [hg] at hu hget
  obtain ⟨hfix, hrel, hl, hsam, hsig⟩ := hgs
  exact ⟨_, g, hu, (getFrame_followHolds ..).trans (getFrame_updFrame (stages_length_noticeTaken hn) hopen hgidx fun _ => rfl), hfix, hrel, hl, hsam, hsig,
    (notices_followHolds ..).trans (congrArg Stage.notices hget :), (periodMisses_followHolds ..).trans (congrArg Stage.periodMisses hget :), time_followHolds ..⟩

/-- A frame carries what another was opened with (R247, R267). -/
def openedAs (f g : Frame) : Prop := g.spec = f.spec ∧ g.fixed = f.fixed ∧ g.reload = f.reload ∧ g.length = f.length ∧ g.round = f.round

omit hn in
theorem openedAs_of_unreported {f g : Frame} {l : List (Nat × F32)} (h : unreported g = unreported { f with samples := l }) : openedAs f g :=
  ⟨(congrArg Frame.spec h :), (congrArg Frame.fixed h :), (congrArg Frame.reload h :), (congrArg Frame.length h :), (congrArg Frame.round h :)⟩

omit hn in
theorem openedAs.trans {f g h : Frame} (hg : openedAs g h) (hf : openedAs f g) : openedAs f h := by
  obtain ⟨hspec, hfix, hrel, hlen, hround⟩ := hf
  obtain ⟨hspec', hfix', hrel', hlen', hround'⟩ := hg
  exact ⟨hspec'.trans hspec, hfix'.trans hfix, hrel'.trans hrel, hlen'.trans hlen, hround'.trans hround⟩

/-- What a frame that opens shows of itself, of its stage and of the rest. -/
theorem openFrame_shows (f : Frame) :
    ∃ g, getFrame (openFrame n f s) n f.index = some g ∧ openedAs f g ∧ (getStage (openFrame n f s) n).notices = (getStage s n).notices
      ∧ (getStage (openFrame n f s) n).periodMisses = (getStage s n).periodMisses ∧ (openFrame n f s).time = s.time ∧ (openFrame n f s).pwm = s.pwm := by
  obtain ⟨l, q, h⟩ := (noticeFace_dueBlind n).openFrame_reading n f s
  have hget := getStage_updStage_same (f := fun y => { y with frames := insertFrame { f with samples := l } y.frames, newest := q }) hn
  simp only [noticeFace, Prod.mk.injEq] at h
  obtain ⟨hstage, htime, hpwm⟩ := h
  have hfind : getFrame (updStage n (fun y => { y with frames := insertFrame { f with samples := l } y.frames, newest := q }) s) n f.index = some { f with samples := l } := by
    rw [getFrame, hget]; exact find?_insertFrame { f with samples := l } _
  obtain ⟨g, hg, hgf⟩ := getFrame_of_scheduled hstage hfind
  rw [hget] at hstage
  exact ⟨g, hg, openedAs_of_unreported hgf, (congrArg Stage.notices hstage :), (congrArg Stage.periodMisses hstage :), htime, hpwm⟩

/-- A notice of a frame that is not open and has not committed opens it. -/
theorem reloadNotice_opens (hnot : (getStage s n).notices = (idx, reload, len) :: t) (hno : (getStage s n).handover = none) (hlive : stageLive s n = true)
    (hf : getFrame s n idx = none) (hc : frameAfter idx (getStage s n).cFrame = true) :
    ∃ u f, exec (.reloadNotice n) s = .next u ∧ getFrame u n idx = some f ∧ f.fixed = true ∧ f.length = len ∧ f.reload = reload ∧ f.spec = false ∧ (getStage u n).notices = t
      ∧ u.time = s.time ∧ u.pwm = s.pwm := by
  obtain ⟨g, hg, ⟨hspec, hfix, hrel, hlength, -⟩, hnotices, -, htime, hpwm⟩ := openFrame_shows (stages_length_noticeTaken hn) (noticeFrame n idx reload len (noticeTaken n t s))
  have hu := reloadNotice_of_live hnot hno hlive
  rw [noticeArrives_of_unopened hn hf hc] at hu
  rw [getStage_noticeTaken hn] at hnotices
  exact ⟨_, g, hu, (getFrame_followHolds ..).trans hg, hfix, hlength, hrel, hspec, (notices_followHolds ..).trans hnotices, (time_followHolds ..).trans htime,
    (pwm_followHolds ..).trans hpwm⟩

/-- The frame that a miss reopens (R274; log 169). -/
def reopened (n : Nat) (f : Frame) (s : State) : Frame :=
  { newFrame s n f.index false f.reload f.length f.fixed (some f.round) (match f.snapR with | some r => some r | none => if f.spec then none else some f.snap) with again := true }

/-- A squash takes frames from its stage (R257, R273). -/
theorem squashFrom_shows (idx : U32) :
    n < (squashFrom n idx s).loop.stages.length ∧ (getStage (squashFrom n idx s) n).notices = (getStage s n).notices
      ∧ (getStage (squashFrom n idx s) n).periodMisses = (getStage s n).periodMisses ∧ (squashFrom n idx s).time = s.time := by
  have hshown : stagesShown (squashFrom n idx s) = _ := squash_reading stagesShown_schedBlind ..
  have hstage := getStage_of_stagesShown hshown n
  rw [getStage_updStage_same hn] at hstage
  have hnotices := notices_of_bookkept hstage
  have hmisses := periodMisses_of_bookkept hstage
  refine ⟨?_, hnotices, hmisses, squash_reading (v := State.time) (fun _ _ _ _ _ => rfl) ..⟩
  rw [stages_length_of_stagesShown hshown]
  simpa [updStage, upd_length] using hn

/-- A miss squashes its frame and the younger ones and reopens it, not speculative, on its own reload, length and round (R273, R274). -/
theorem missFrame_shows (cause : Nat) (f : Frame) :
    ∃ g, getFrame (missFrame n cause f s) n f.index = some g ∧ openedAs { f with spec := false } g ∧ (getStage (missFrame n cause f s) n).notices = (getStage s n).notices
      ∧ (getStage (missFrame n cause f s) n).periodMisses = (getStage s n).periodMisses ∧ (missFrame n cause f s).time = s.time := by
  obtain ⟨hlen, hnotices, hmisses, htime⟩ := squashFrom_shows hn f.index
  unfold missFrame reopenFrame
  generalize squashFrom n f.index s = z at hlen hnotices hmisses htime
  have hface : openedAs { f with spec := false } (reopened n f (updStage n (fun x => { x with lastCause := cause }) z)) := ⟨rfl, rfl, rfl, rfl, rfl⟩
  obtain ⟨g, hg, hgf, hnotices', hmisses', htime', -⟩ := openFrame_shows (s := updStage n (fun x => { x with lastCause := cause }) z)
    (by simpa [updStage, upd_length] using hlen) (reopened n f (updStage n (fun x => { x with lastCause := cause }) z))
  rw [getStage_updStage_same hlen] at hnotices' hmisses'
  exact ⟨g, hg, hgf.trans hface, hnotices'.trans hnotices, hmisses'.trans hmisses, htime'.trans htime⟩

/-- A period miss squashes the frame and reopens it with the length that its reload gave. -/
theorem reloadNotice_misses (hnot : (getStage s n).notices = (idx, reload, len) :: t) (hno : (getStage s n).handover = none) (hlive : stageLive s n = true)
    (hf : getFrame s n idx = some f) (hspec : f.spec = true) (hlen : f.length ≠ len) :
    ∃ u g, exec (.reloadNotice n) s = .next u ∧ getFrame u n idx = some g ∧ g.spec = false ∧ g.fixed = true ∧ g.reload = reload ∧ g.length = len ∧ g.round = f.round
      ∧ (getStage u n).periodMisses = (getStage s n).periodMisses + 1 ∧ (getStage u n).notices = t ∧ u.time = s.time := by
  have hidx := index_of_getFrame hf
  have hu := reloadNotice_of_live hnot hno hlive
  rw [noticeArrives_of_open hn hf, if_pos ⟨hspec, hlen⟩] at hu
  obtain ⟨g, hg, ⟨hspec', hfix, hrel, hl, hround⟩, hnotices, hmisses, htime⟩ := missFrame_shows (s := updStage n (fun x => { x with periodMisses := x.periodMisses + 1 }) (noticeTaken n t s))
    (by simpa [updStage, upd_length] using stages_length_noticeTaken hn) 1 { noticeFixed (noticeTaken n t s) n reload f with length := len }
  have hget := (getStage_updStage_same (f := fun x => { x with periodMisses := x.periodMisses + 1 }) (stages_length_noticeTaken (t := t) hn)).trans (by rw [getStage_noticeTaken hn])
  rw [hget] at hnotices hmisses
  exact ⟨_, g, hu, (getFrame_followHolds ..).trans (hidx ▸ hg), hspec', hfix, hrel, hl, hround, (periodMisses_followHolds ..).trans hmisses,
    (notices_followHolds ..).trans hnotices, (time_followHolds ..).trans htime⟩

end

/-! ### O37: the choice of an engine (R255, R258, R259) -/

theorem keyLt_trans {a b c : List Nat} (h : keyLt a b = true) (k : keyLt b c = true) : keyLt a c = true := by
  induction a generalizing b c with
  | nil => simp [keyLt] at h
  | cons x a ih =>
    cases b with
    | nil => simp [keyLt] at h
    | cons y b =>
      cases c with
      | nil => simp [keyLt] at k
      | cons z c =>
        simp only [keyLt, Bool.or_eq_true, Bool.and_eq_true, decide_eq_true_eq] at h k ⊢
        rcases h with hxy | ⟨rfl, hab⟩ <;> rcases k with hyz | ⟨rfl, hbc⟩
        · exact .inl (hxy.trans hyz)
        · exact .inl hxy
        · exact .inl hyz
        · exact .inr ⟨rfl, ih hab hbc⟩

theorem keyLt_irrefl (a : List Nat) : keyLt a a = false := by
  induction a with
  | nil => rfl
  | cons x a ih => simp [keyLt, ih]

/-- The first of a list that no other outranks, by a key (R255). -/
def bestBy {β : Type} (key : β → List Nat) (m : β) (l : List β) : β := l.foldl (fun m z => if keyLt (key z) (key m) then z else m) m

/-- The choice is one of the list, and none of the list outranks it. -/
theorem bestBy_spec {β : Type} (key : β → List Nat) (m : β) (l : List β) :
    bestBy key m l ∈ m :: l ∧ ∀ w ∈ m :: l, keyLt (key w) (key (bestBy key m l)) = false := by
  induction l using List.reverseRecOn with
  | nil => simp [bestBy, keyLt_irrefl]
  | append_singleton l a ih =>
    obtain ⟨hmem, hmin⟩ := ih
    have hstep : bestBy key m (l ++ [a]) = if keyLt (key a) (key (bestBy key m l)) then a else bestBy key m l := by rw [bestBy, List.foldl_append]; rfl
    have hsplit : ∀ w, w ∈ m :: (l ++ [a]) ↔ w ∈ m :: l ∨ w = a := fun w => by simp [or_assoc]
    rw [hstep]
    split
    · next ha =>
      refine ⟨(hsplit a).mpr (.inr rfl), fun w hw => ?_⟩
      rcases (hsplit w).mp hw with hw | rfl
      · exact Bool.eq_false_iff.mpr fun hlt => absurd (keyLt_trans hlt ha) (by simp [hmin w hw])
      · exact keyLt_irrefl _
    · next ha =>
      refine ⟨(hsplit _).mpr (.inl hmem), fun w hw => ?_⟩
      rcases (hsplit w).mp hw with hw | rfl
      · exact hmin w hw
      · simpa using ha

/-- The least of some instants and of a first one is one of them. -/
theorem foldl_min_mem {β : Type} (g : β → Nat) (m : Nat) (l : List β) : l.foldl (fun m z => min m (g z)) m ∈ m :: l.map g := by
  rw [← List.foldl_map (f := g) (g := min)]
  exact List.min?_mem (xs := m :: l.map g) rfl

/-- The ready instances that an engine chooses from: those ready by then. -/
def dueBy (t : Nat) (l : List (Nat × Inst × Nat × Nat)) : List (Nat × Inst × Nat × Nat) := l.filter (fun z => decide (z.2.2.1 ≤ t))

/-- Of the ready instances one is chosen at an instant. -/
def chosenAt (n t : Nat) (z : Nat × Inst × Nat × Nat) (s : State) : State :=
  let s1 := setNodeInst z.1 { z.2.1 with st := .chosen (t + 6 * loopCyc s) z.2.2.2 } (advanceQ t s)
  if z.2.1.priv then updStage n (fun y => { y with latencyMax := max y.latencyMax (min ((t + 6 * loopCyc s - z.2.2.2) / loopCyc s) 65535) }) s1 else s1

section
variable {s : State} {e n : Nat} {y : Nat × Inst × Nat × Nat} {l : List (Nat × Inst × Nat × Nat)}

theorem instanceDispatch_idle (h : (getEngine s e).stage = none ∨ ((getEngine s e).stage = some n ∧ (readyOn s n (getEngine s e).logical = []
    ∨ (runningOn s n (getEngine s e).logical).isSome = true ∨ 8 ≤ (getEngine s e).queue.length))) : exec (.instanceDispatch e) s = .next s := by
  show execInstanceDispatch e s = _
  unfold execInstanceDispatch
  rcases h with h | ⟨h, hnil | hbusy⟩
  · simp only [h]
  · simp only [h, hnil]
  · have hbusy : ((runningOn s n (getEngine s e).logical).isNone && decide ((getEngine s e).queue.length < 8)) = false := by
      rcases hbusy with hrun | hq
      · simp [Option.isSome_iff_ne_none.mp hrun]
      · simp [hq]
    simp only [h, hbusy]
    split <;> rfl

theorem instanceDispatch_chooses (he : (getEngine s e).stage = some n) (hl : readyOn s n (getEngine s e).logical = y :: l)
    (hrun : runningOn s n (getEngine s e).logical = none) (hq : (getEngine s e).queue.length < 8) :
    exec (.instanceDispatch e) s = .next (followHolds n (chosenAt n (choiceAt s e n y)
      (bestBy (fun z => rankKey s z.2.1 z.2.2.1) ((dueBy (choiceAt s e n y) (y :: l)).headD y) (dueBy (choiceAt s e n y) (y :: l))) s)) := by
  show execInstanceDispatch e s = _
  unfold execInstanceDispatch choiceAt
  simp only [he, hl, hrun, hq]
  rfl

/-- One of the ready instances is ready by the instant of the choice. -/
theorem exists_dueBy_choiceAt (hl : readyOn s n (getEngine s e).logical = y :: l) : ∃ z, z ∈ dueBy (choiceAt s e n y) (y :: l) := by
  have hmem := foldl_min_mem (fun z : Nat × Inst × Nat × Nat => z.2.2.1) y.2.2.1 (y :: l)
  have hle : (y :: l).foldl (fun m z => min m z.2.2.1) y.2.2.1 ≤ choiceAt s e n y := by rw [choiceAt, hl]; exact le_max_right ..
  generalize (y :: l).foldl (fun m z => min m z.2.2.1) y.2.2.1 = m at hmem hle
  obtain ⟨z, hz, rfl⟩ : ∃ z ∈ y :: l, z.2.2.1 = m := by
    rcases List.mem_cons.mp hmem with h | h
    · exact ⟨y, List.mem_cons_self, h.symm⟩
    · exact List.mem_map.mp h
  exact ⟨z, List.mem_filter.mpr ⟨hz, decide_eq_true hle⟩⟩

theorem nodeInst_of_mem_readyOn {home : Nat} {z : Nat × Inst × Nat × Nat} (h : z ∈ readyOn s n home) : nodeInst s z.1 = some z.2.1 := by
  simp only [readyOn, List.mem_filterMap, Prod.exists] at h
  obtain ⟨i, k, hik, hz⟩ := h
  have hz' : z.1 = k ∧ z.2.1 = i := by
    split at hz
    · split at hz
      · injection hz with hz; subst hz; exact ⟨rfl, rfl⟩
      · cases hz
    · cases hz
  rw [hz'.1, hz'.2]
  exact List.mk_mem_zipIdx_iff_getElem?.mp hik

/-- The choice of an engine, by rank among the instances that are ready by then; it starts 6 cycles later. -/
theorem instanceDispatch_ranked (he : (getEngine s e).stage = some n) (hl : readyOn s n (getEngine s e).logical = y :: l)
    (hrun : runningOn s n (getEngine s e).logical = none) (hq : (getEngine s e).queue.length < 8) :
    ∃ z u, z ∈ y :: l ∧ z.2.2.1 ≤ choiceAt s e n y ∧ exec (.instanceDispatch e) s = .next u
      ∧ nodeInst u z.1 = some { z.2.1 with st := .chosen (choiceAt s e n y + 6 * loopCyc s) z.2.2.2 }
      ∧ (∀ w ∈ y :: l, w.2.2.1 ≤ choiceAt s e n y → keyLt (rankKey s w.2.1 w.2.2.1) (rankKey s z.2.1 z.2.2.1) = false)
      ∧ (∀ k, k ≠ z.1 → nodeInst u k = nodeInst s k) ∧ u.time.raw = max s.time.raw (ceilDiv (choiceAt s e n y) 4) := by
  have hexec := instanceDispatch_chooses he hl hrun hq
  obtain ⟨a, c, hc⟩ : ∃ a c, dueBy (choiceAt s e n y) (y :: l) = a :: c := by
    obtain ⟨z, hz⟩ := exists_dueBy_choiceAt hl
    exact List.exists_cons_of_ne_nil (List.ne_nil_of_mem hz)
  have hbest := bestBy_spec (fun z => rankKey s z.2.1 z.2.2.1) a (a :: c)
  rw [hc, List.headD_cons] at hexec
  generalize bestBy (fun z => rankKey s z.2.1 z.2.2.1) a (a :: c) = z at hexec hbest
  obtain ⟨hz, hmin⟩ := hbest
  have hdue : z ∈ dueBy (choiceAt s e n y) (y :: l) := by rw [hc]; simpa using hz
  obtain ⟨hzl, hzt⟩ := List.mem_filter.mp hdue
  have hinst : nodeInst s z.1 = some z.2.1 := nodeInst_of_mem_readyOn (hl ▸ hzl)
  have hchosen : ∀ k, nodeInst (chosenAt n (choiceAt s e n y) z s) k
      = nodeInst (setNodeInst z.1 { z.2.1 with st := .chosen (choiceAt s e n y + 6 * loopCyc s) z.2.2.2 } (advanceQ (choiceAt s e n y) s)) k := fun k => by
    unfold chosenAt; dsimp only; split <;> rfl
  refine ⟨z, _, hzl, of_decide_eq_true hzt, hexec, ?_, fun w hw hwt => ?_, fun k hk => ?_, ?_⟩
  · rw [nodeInst_followHolds, hchosen]
    exact nodeInst_setNodeInst_same (j := z.2.1) hinst
  · exact hmin w (by rw [← hc]; exact List.mem_cons_of_mem _ (List.mem_filter.mpr ⟨hw, decide_eq_true hwt⟩))
  · rw [nodeInst_followHolds, hchosen]
    exact nodeInst_setNodeInst_ne _ _ hk
  · rw [time_followHolds]
    unfold chosenAt; dsimp only; split <;> rfl

end

/-! ### O37: when engines are free (R252, R256) -/

/-- Time, and the instants from which the engines can choose. -/
def freeTimes (s : State) : Thyme × List Nat := (s.time, s.loop.engines.map (·.freeAt))

theorem freeAt_of_unheld {x y : Engine} (h : unheld x = unheld y) : x.freeAt = y.freeAt := (congrArg Engine.freeAt h :)

theorem updEngine_freeTimes {f : Engine → Engine} (hf : ∀ x, (f x).freeAt = x.freeAt) (e : Nat) (s : State) : freeTimes (updEngine e f s) = freeTimes s := by
  simp only [freeTimes, updEngine, map_upd_of_eq hf]

theorem freeAt_of_freeTimes {s t : State} (h : freeTimes t = freeTimes s) (e : Nat) : (getEngine t e).freeAt = (getEngine s e).freeAt := by
  have hget : ∀ u : State, (getEngine u e).freeAt = (freeTimes u).2.getD e engine0.freeAt := fun u => (List.getD_map (f := Engine.freeAt) ..).symm
  rw [hget, hget, h]

theorem followHolds_freeTimes (n : Nat) (s : State) : freeTimes (followHolds n s) = freeTimes s :=
  HoldBlind.followHolds_reading (v := freeTimes) ⟨fun _ _ _ _ => rfl, fun _ hf => updEngine_freeTimes fun x => freeAt_of_unheld (hf x)⟩ n s

theorem grantSlots_freeTimes (n home q f : Nat) (s : State) : freeTimes (grantSlots n home q f s) = freeTimes s := by
  induction f generalizing s with
  | zero => rfl
  | succ f ih =>
    unfold grantSlots
    split
    · rfl
    · next k i d p _ =>
      refine (ih _).trans ?_
      cases p with
      | none => rfl
      | some e => exact updEngine_freeTimes (by exact fun _ => rfl) ..

theorem squash_freeTimes (n : Nat) (fs : List U32) (s : State) : freeTimes (squash n fs s) = freeTimes s := by
  unfold squash
  refine ((followHolds_freeTimes ..).trans (forEach_reading (fun h u => grantSlots_freeTimes n h (qNow s) 16 u) _ _)).trans ?_
  simp only [freeTimes, List.map_map]
  rfl

theorem normalShutdown_freeTimes (n cause : Nat) (s : State) : freeTimes (normalShutdown n cause s) = freeTimes s := by
  have hupd : ∀ f u, freeTimes (updStage n f u) = freeTimes u := fun _ _ => rfl
  have hbegin : (getStage s n).st ≠ .off → freeTimes (beginShutdown n cause s) = freeTimes s := fun hst => by
    unfold beginShutdown
    rw [hupd, leaveEnabled_reading_of_groups (v := freeTimes) (fun _ _ _ _ => rfl) (fun _ _ _ => rfl), squashAll, squash_freeTimes,
      setStage_reading_of_live (v := freeTimes) (fun _ _ _ => rfl) hupd (by exact hst)]
    rfl
  unfold normalShutdown
  split
  · next hst =>
    split
    · exact (forEach_reading (chanStop_reading (v := freeTimes) fun _ _ _ => rfl) _ _).trans (hbegin (by simp [hst]))
    · exact hbegin (by simp [hst])
  · next hst => exact hbegin (by simp [hst])
  · rfl

theorem settleStart_freeTimes (o : Option Owed) (st : U16) (b : Bytes) (s : State) : freeTimes (settleStart o st b s) = freeTimes s := by
  simp [freeTimes]

theorem servePullin_freeTimes (k : Nat) (s : State) : freeTimes (servePullin k s) = freeTimes s := by
  induction k generalizing s with
  | zero => rfl
  | succ k ih =>
    unfold servePullin
    split
    · rfl
    · split
      · exact (ih _).trans (settleStart_freeTimes ..)
      · rfl

theorem removeOutputStart_freeTimes (o reason : Nat) (s : State) : freeTimes (removeOutputStart o reason s) = freeTimes s :=
  (foldl_reading (fun _ _ => (settleStart_freeTimes ..).trans (post_reading (v := freeTimes) (fun _ _ _ => rfl) ..)) _ _)

theorem commandOff_freeTimes (o : Nat) (s : State) : freeTimes (commandOff o s) = freeTimes s := by
  unfold commandOff
  dsimp only
  split <;> rfl

theorem fieldOutAct_freeTimes (n o : Nat) (on : Bool) (s : State) : freeTimes (fieldOutAct n o on s) = freeTimes s := by
  have hrefused : ∀ k, freeTimes (writeRefused o n k s) = freeTimes s := fun k => postMerge_reading (v := freeTimes) (fun _ _ _ => rfl) ..
  unfold fieldOutAct
  split
  · exact hrefused 0
  split
  · rfl
  split
  · exact (servePullin_freeTimes ..).trans ((commandOff_freeTimes ..).trans (removeOutputStart_freeTimes ..))
  split
  · rfl
  split
  · rfl
  split
  · exact hrefused 1
  · rfl

theorem canTxAct_freeTimes (j : Nat) (vals : List U32) (s : State) : freeTimes (canTxAct j vals s) = freeTimes s := by
  have hdropped : ∀ p k, freeTimes (tapDropped p j k s) = freeTimes s := fun p k => postMerge_reading (v := freeTimes) (fun _ _ _ => rfl) ..
  unfold canTxAct
  split
  · exact hdropped ..
  · dsimp only
    split
    · exact hdropped ..
    split
    · exact hdropped ..
    split
    · split <;> rfl
    split <;> rfl

theorem performAct_freeTimes (n node : Nat) (idx : U32) (a : EffAct) (s : State) : freeTimes (performAct n node idx a s) = freeTimes s := by
  unfold performAct
  cases a with
  | event tag v =>
    dsimp only
    exact LogBlind.of_log (v := freeTimes) (fun _ _ _ => rfl) (postMergeWith_log ..)
  | fieldOut o on => exact fieldOutAct_freeTimes ..
  | stop =>
    dsimp only
    split
    · exact (normalShutdown_freeTimes ..).trans (post_reading (v := freeTimes) (fun _ _ _ => rfl) ..)
    · rfl
  | canTx tap vs => exact canTxAct_freeTimes ..
  | capture first vs =>
    unfold capWrite
    dsimp only
    split <;> rfl

/-! ### O37: instances end (R232, R252, R256, R273) -/

/-- An engine is free from an instant on, which time has reached. -/
def freedAt (e q : Nat) (s : State) : State := updEngine e (fun y => { y with freeAt := q }) (advanceQ q s)

section
variable {s : State} {e n k start due : Nat} {i : Inst} {f : Frame}

theorem instanceEnd_idle (h : (getEngine s e).stage = none ∨ ((getEngine s e).stage = some n ∧ runningOn s n (getEngine s e).logical = none)) :
    exec (.instanceEnd e) s = .next s := by
  show execInstanceEnd e s = _
  unfold execInstanceEnd
  rcases h with h | ⟨h, hno⟩
  · simp only [h]
  · simp only [h, hno]

theorem freeAt_of_freedAt {t : State} {q : Nat} (he : e < s.loop.engines.length) (h : freeTimes t = freeTimes (freedAt e q s)) :
    (getEngine t e).freeAt = q ∧ t.time.raw = max s.time.raw (ceilDiv q 4) :=
  ⟨(freeAt_of_freeTimes h e).trans (congrArg Engine.freeAt (getEngine_updEngine_same he)), congrArg (fun x : Thyme × List Nat => x.1.raw) h⟩

variable (hs : (getEngine s e).stage = some n) (hr : runningOn s n (getEngine s e).logical = some (k, i)) (hst : i.st = .chosen start due)
include hs hr hst

theorem instanceEnd_of_dead (hd : i.dead = true) :
    exec (.instanceEnd e) s = .next (followHolds n (dropInst k (freedAt e (start + i.cost * loopCyc s) s))) := by
  show execInstanceEnd e s = _
  simp only [execInstanceEnd, hs, hr, hst, hd, if_true, freedAt]

theorem instanceEnd_of_effect (hd : i.dead = false) (heff : i.effect = true) :
    exec (.instanceEnd e) s = .next (followHolds n (i.acts.foldl (fun u a => performAct n i.node i.frame a u)
      (grantSlots n i.home (start + i.cost * loopCyc s) 16 (dropInst k (freedAt e (start + i.cost * loopCyc s) s))))) := by
  show execInstanceEnd e s = _
  simp only [execInstanceEnd, hs, hr, hst, hd, heff, if_true, Bool.false_eq_true, if_false, freedAt]

/-- The results of instances without effect go to its frame. -/
theorem instanceEnd_of_open (hd : i.dead = false) (heff : i.effect = false) (hf : getFrame s n i.frame = some f) :
    exec (.instanceEnd e) s = .next (followHolds n (grantSlots n i.home (start + i.cost * loopCyc s) 16 (endInst k i (start + i.cost * loopCyc s + 2 * loopCyc s) false
      (updFrame n i.frame (fun _ => computeNode (freedAt e (start + i.cost * loopCyc s) s) n f i.node) (freedAt e (start + i.cost * loopCyc s) s))))) := by
  have hf' : getFrame (freedAt e (start + i.cost * loopCyc s) s) n i.frame = some f := hf
  rw [freedAt] at hf'
  show execInstanceEnd e s = _
  simp only [execInstanceEnd, hs, hr, hst, hd, heff, hf', Bool.false_eq_true, if_false, freedAt]

omit hs hr hst

/-- A completion's place among those of its engine that wait to be posted: after those of its instant and earlier ones (R258). -/
def waitsIn (c : Completion) (l : List Completion) : List Completion := l.takeWhile (fun d => decide (d.at_ ≤ c.at_)) ++ c :: l.dropWhile (fun d => decide (d.at_ ≤ c.at_))

/-- Instances that end after running wait in their engine for their completion to be posted. -/
theorem endInst_unskipped (k : Nat) (i : Inst) (q : Nat) (s : State) :
    endInst k i q false s = updEngine (physOf s i.stage i.home)
      (fun x => { x with waitPost := waitsIn { stage := i.stage, frame := i.frame, node := i.node, pos := 0, len := (graphNode s (stageGraph s i.stage) i.node).nSucc, at_ := q } x.waitPost })
      (setNodeInst k { i with st := .ended } s) := by
  simp only [endInst, Bool.false_eq_true, false_and, if_false, waitsIn]

theorem endInst_unskipped_freeTimes (k : Nat) (i : Inst) (q : Nat) (s : State) : freeTimes (endInst k i q false s) = freeTimes s := by
  rw [endInst_unskipped]
  exact updEngine_freeTimes (by exact fun _ => rfl) ..

theorem getFrame_endInst_unskipped (k : Nat) (i : Inst) (q : Nat) (s : State) (n : Nat) (idx : U32) : getFrame (endInst k i q false s) n idx = getFrame s n idx := by
  rw [endInst_unskipped]
  rfl

theorem getFrame_grantSlots (n home q k : Nat) (s : State) (m : Nat) (idx : U32) : getFrame (grantSlots n home q k s) m idx = getFrame s m idx :=
  getFrame_of_bookkept (getStage_of_stagesShown (grantSlots_reading stagesShown_schedBlind n home q k s) m) idx

/-- A node that computes leaves its frame its index. -/
theorem index_computeNode (s : State) (n : Nat) (f : Frame) (i : Nat) : (computeNode s n f i).index = f.index := by
  unfold computeNode
  extract_lets
  split
  · rfl
  split
  · rfl
  split
  · rfl
  split <;> rfl

include hs hr hst

theorem instanceEnd_computes (he : e < s.loop.engines.length) (hn : n < s.loop.stages.length) (hd : i.dead = false) (heff : i.effect = false)
    (hf : getFrame s n i.frame = some f) :
    ∃ u, exec (.instanceEnd e) s = .next u ∧ (getEngine u e).freeAt = start + i.cost * loopCyc s ∧ u.time.raw = max s.time.raw (ceilDiv (start + i.cost * loopCyc s) 4)
      ∧ getFrame u n i.frame = some (computeNode (freedAt e (start + i.cost * loopCyc s) s) n f i.node) := by
  have hu := instanceEnd_of_open hs hr hst hd heff hf
  generalize start + i.cost * loopCyc s = q at hu ⊢
  obtain ⟨hfree, htime⟩ := freeAt_of_freedAt he ((followHolds_freeTimes ..).trans ((grantSlots_freeTimes n i.home q 16 _).trans
    (endInst_unskipped_freeTimes k i (q + 2 * loopCyc s) (updFrame n i.frame (fun _ => computeNode (freedAt e q s) n f i.node) (freedAt e q s)))))
  refine ⟨_, hu, hfree, htime, ?_⟩
  rw [getFrame_followHolds, getFrame_grantSlots, getFrame_endInst_unskipped]
  exact getFrame_updFrame (s := freedAt e q s) hn hf ((index_computeNode ..).trans (index_of_getFrame hf)) fun _ => rfl

/-- The acts of an effect neither free an engine nor take time. -/
theorem instanceEnd_acts (he : e < s.loop.engines.length) (hd : i.dead = false) (heff : i.effect = true) :
    ∃ u, exec (.instanceEnd e) s = .next u ∧ (getEngine u e).freeAt = start + i.cost * loopCyc s ∧ u.time.raw = max s.time.raw (ceilDiv (start + i.cost * loopCyc s) 4)
      ∧ (i.acts = [] → u.pwm = s.pwm ∧ u.field = s.field ∧ u.can = s.can) := by
  have hu := instanceEnd_of_effect hs hr hst hd heff
  generalize start + i.cost * loopCyc s = q at hu ⊢
  obtain ⟨hfree, htime⟩ := freeAt_of_freedAt he ((followHolds_freeTimes n _).trans ((foldl_reading (fun u a => performAct_freeTimes n i.node i.frame a u) i.acts _).trans
    (grantSlots_freeTimes n i.home q 16 (dropInst k (freedAt e q s)))))
  refine ⟨_, hu, hfree, htime, fun hacts => ?_⟩
  have hv : SchedBlind (fun s : State => (s.pwm, s.field, s.can)) := fun _ _ _ _ _ => rfl
  have h := (followHolds_reading hv n _).trans (grantSlots_reading hv n i.home q 16 (dropInst k (freedAt e q s)))
  rw [hacts]
  exact ⟨congrArg (·.1) h, congrArg (·.2.1) h, congrArg (·.2.2) h⟩

end

/-! ### O37: completions (R253, R258) -/

section
variable {s : State} {e : Nat} {c : Completion} {t : List Completion}

theorem completionPost_idle (h : (getEngine s e).waitPost = []) : exec (.completionPost e) s = .next s := by
  show execCompletionPost e s = _
  simp only [execCompletionPost, h]

theorem completionPost_full (h : (getEngine s e).waitPost = c :: t) (hq : 8 ≤ (getEngine s e).queue.length) : exec (.completionPost e) s = .next s := by
  show execCompletionPost e s = _
  simp only [execCompletionPost, h]
  exact if_pos hq

/-- The oldest waiting completion of an engine leaves its wait at an instant. -/
def postTaken (e q : Nat) (t : List Completion) (s : State) : State := updEngine e (fun y => { y with waitPost := t }) (advanceQ q s)

theorem completionPost_room (h : (getEngine s e).waitPost = c :: t) (hq : (getEngine s e).queue.length < 8) :
    exec (.completionPost e) s = .next (followHolds c.stage (postCompletion e (max c.at_ (getEngine s e).roomAt) c (postTaken e (max c.at_ (getEngine s e).roomAt) t s))) := by
  show execCompletionPost e s = _
  simp only [execCompletionPost, h]
  exact if_neg (by omega)

/-- Of the engines a completion that is posted changes its own, unless it has no successor entries. -/
theorem engines_postCompletion (e q : Nat) (c : Completion) (s : State) :
    (postCompletion e q c s).loop.engines = if c.len = 0 then s.loop.engines else upd s.loop.engines e (fun x => { x with queue := x.queue ++ [{ c with at_ := q }] }) := by
  unfold postCompletion
  dsimp only
  have hdrop : (match instAt s c.stage c.frame c.node with | some k => dropInst k s | none => s).loop.engines = s.loop.engines := by split <;> rfl
  by_cases hlen : c.len = 0
  · rw [if_pos hlen, if_pos hlen]; exact hdrop
  · rw [if_neg hlen, if_neg hlen, ← hdrop]; rfl

/-- A completion that is posted leaves the engine's wait and, with successor entries, joins its queue. -/
theorem completionPost_posts (he : e < s.loop.engines.length) (h : (getEngine s e).waitPost = c :: t) (hq : (getEngine s e).queue.length < 8) :
    ∃ u, exec (.completionPost e) s = .next u ∧ (getEngine u e).waitPost = t
      ∧ (getEngine u e).queue = (if c.len = 0 then (getEngine s e).queue else (getEngine s e).queue ++ [{ c with at_ := max c.at_ (getEngine s e).roomAt }]) ∧ u.pwm = s.pwm := by
  have hu := completionPost_room h hq
  generalize max c.at_ (getEngine s e).roomAt = q at hu ⊢
  have hpwm : (postCompletion e q c (postTaken e q t s)).pwm = s.pwm := DueBlind.postCompletion_reading (v := State.pwm) (fun _ _ _ _ _ _ _ => rfl) e q c (postTaken e q t s)
  have htaken : getEngine (postTaken e q t s) e = { getEngine s e with waitPost := t } := getEngine_updEngine_same (s := advanceQ q s) he
  have hposted : getEngine (postCompletion e q c (postTaken e q t s)) e
      = if c.len = 0 then { getEngine s e with waitPost := t } else { getEngine s e with waitPost := t, queue := (getEngine s e).queue ++ [{ c with at_ := q }] } := by
    rw [getEngine, engines_postCompletion]
    split
    · exact htaken
    · rw [getD_upd_same _ _ (by simpa [postTaken, updEngine, upd_length, advanceQ] using he)]
      exact congrArg (fun x : Engine => { x with queue := x.queue ++ [{ c with at_ := q }] }) htaken
  refine ⟨_, hu, ?_, ?_, (pwm_followHolds ..).trans hpwm⟩
  · rw [waitPost_followHolds, hposted]; split <;> rfl
  · rw [queue_followHolds, hposted]; split <;> rfl

end

/-! ### O37: the decrement port (R248, R253, R258) -/

section
variable {s : State} {e k : Nat} {c : Completion} {t : List Completion} {i : Inst}

/-- The node that the next entry of a completion decrements. -/
def nextTarget (s : State) (c : Completion) : Nat := graphSucc s (stageGraph s c.stage) ((graphNode s (stageGraph s c.stage) c.node).succ + c.pos)
/-- The instant at which an engine's port has processed the next entry of a completion. -/
def portNext (s : State) (e : Nat) (c : Completion) : Nat := max (getEngine s e).portAt c.at_ + loopCyc s
/-- The instant at which the decrement reaches its node: two cycles later on another engine (R258). -/
def dueNext (s : State) (e : Nat) (c : Completion) : Nat :=
  if (graphNode s (stageGraph s c.stage) (nextTarget s c)).home = (getEngine s e).logical then portNext s e c else portNext s e c + 2 * loopCyc s

theorem successorDecrement_idle (h : (getEngine s e).queue = []) : exec (.successorDecrement e) s = .next s := by
  show execSuccessorDecrement e s = _
  simp only [execSuccessorDecrement, h]

variable (hq : (getEngine s e).queue = c :: t) (hk : instAt s c.stage c.frame (nextTarget s c) = some k) (hi : nodeInst s k = some i)
include hq hk hi

theorem successorDecrement_stopped {due : Nat} (hst : i.st = .noSlot due (some (getEngine s e).logical)) : exec (.successorDecrement e) s = .next s := by
  show execSuccessorDecrement e s = _
  rw [nextTarget] at hk
  simp only [execSuccessorDecrement, hq, hk, hi, hst, decide_true, if_true]

theorem successorDecrement_waiting (hst : i.st = .waiting) : exec (.successorDecrement e) s =
    .next (followHolds c.stage (if (decrement c.stage c.frame (nextTarget s c) (dueNext s e c) (some (getEngine s e).logical) (advanceQ (dueNext s e c) s)).1 then
        (decrement c.stage c.frame (nextTarget s c) (dueNext s e c) (some (getEngine s e).logical) (advanceQ (dueNext s e c) s)).2
      else portDone e (portNext s e c) (decrement c.stage c.frame (nextTarget s c) (dueNext s e c) (some (getEngine s e).logical) (advanceQ (dueNext s e c) s)).2)) := by
  show execSuccessorDecrement e s = _
  have hk' := hk
  rw [nextTarget] at hk'
  simp only [execSuccessorDecrement, hq, hk', hi, hst, Bool.false_eq_true, if_false]
  rfl

omit hq in
/-- A counter above 1 falls by one. -/
theorem decrement_of_more {q : Nat} {port : Option Nat} (h1 : 1 < i.counter) :
    decrement c.stage c.frame (nextTarget s c) q port (advanceQ q s) = (false, setNodeInst k { i with counter := i.counter - 1 } (advanceQ q s)) := by
  have hk' : instAt (advanceQ q s) c.stage c.frame (nextTarget s c) = some k := hk
  have hi' : nodeInst (advanceQ q s) k = some i := hi
  simp only [decrement, hk', hi']
  exact if_neg (by omega)

omit hq hk in
/-- Instances that wait or are due hold no slot, so their counts do not change the slots held. -/
theorem canTake_setNodeInst_waiting (hst : i.st = .waiting) (n : Nat) (u : State) (hu : u.loop.insts = s.loop.insts) :
    canTake (setNodeInst k { i with counter := n } u) { i with counter := n } = canTake s i := by
  have hheld : slotsHeld (setNodeInst k { i with counter := n } u) i.stage i.home = slotsHeld s i.stage i.home := by
    obtain ⟨hlt, hget⟩ := List.getElem?_eq_some_iff.mp hi
    simp only [slotsHeld, setNodeInst, hu, ← List.countP_eq_length_filter]
    rw [List.countP_set hlt, hget]
    simp [holdsSlot, hst]
  rw [canTake, hheld]
  rfl

omit hq hk hi in
/-- Of the ordinary instances one that is due and finds a slot takes it and is ready. -/
theorem becomeDue_takes {u : State} {j : Inst} (hj : nodeInst u k = some j) (hr : j.runs = true) (heff : j.effect = false) (ht : canTake u j = true) (q : Nat) (port : Option Nat) :
    becomeDue k q port u = (false, takeSlot k j q q u) := by
  simp only [becomeDue, hj, hr, heff, ht, Bool.false_eq_true, false_and, if_false, Bool.not_true, if_true]

omit hq in
/-- Of the ordinary instances one whose counter falls to 0 takes a free slot and is ready. -/
theorem decrement_of_last {q : Nat} {port : Option Nat} (hst : i.st = .waiting) (h1 : i.counter = 1) (hr : i.runs = true) (heff : i.effect = false) (ht : canTake s i = true) :
    decrement c.stage c.frame (nextTarget s c) q port (advanceQ q s)
      = (false, takeSlot k { i with counter := 0 } q q (setNodeInst k { i with counter := 0 } (advanceQ q s))) := by
  have hk' : instAt (advanceQ q s) c.stage c.frame (nextTarget s c) = some k := hk
  have hi' : nodeInst (advanceQ q s) k = some i := hi
  have hset : nodeInst (setNodeInst k { i with counter := 0 } (advanceQ q s)) k = some { i with counter := 0 } := nodeInst_setNodeInst_same hi'
  have hcan := (canTake_setNodeInst_waiting hi hst 0 (advanceQ q s) rfl).trans ht
  simp only [decrement, hk', hi']
  rw [if_pos ⟨h1, hst⟩, h1]
  exact becomeDue_takes hset hr heff hcan q port

omit hq hk hi in
/-- What an engine's port is after an entry is processed. -/
theorem getEngine_portDone {u : State} {x : Engine} {q : Nat} (he : e < u.loop.engines.length) (hx : getEngine u e = x) (hqx : x.queue = c :: t) :
    (getEngine (portDone e q u) e).portAt = q ∧ (getEngine (portDone e q u) e).queue = if c.len ≤ c.pos + 1 then t else { c with pos := c.pos + 1 } :: t := by
  subst hx
  rw [portDone, getEngine_updEngine_same he]
  exact ⟨rfl, by simp only [hqx, ge_iff_le]⟩

theorem successorDecrement_lowers (he : e < s.loop.engines.length) (hst : i.st = .waiting) (h1 : 1 < i.counter) :
    ∃ u, exec (.successorDecrement e) s = .next u ∧ nodeInst u k = some { i with counter := i.counter - 1 } ∧ (getEngine u e).portAt = portNext s e c
      ∧ (getEngine u e).queue = if c.len ≤ c.pos + 1 then t else { c with pos := c.pos + 1 } :: t := by
  have hu := successorDecrement_waiting hq hk hi hst
  rw [decrement_of_more hk hi h1, if_neg (by simp)] at hu
  obtain ⟨hport, hqueue⟩ := getEngine_portDone (u := setNodeInst k { i with counter := i.counter - 1 } (advanceQ (dueNext s e c) s)) (q := portNext s e c) he rfl hq
  exact ⟨_, hu, (nodeInst_followHolds ..).trans (nodeInst_setNodeInst_same (s := advanceQ (dueNext s e c) s) hi), (portAt_followHolds ..).trans hport, (queue_followHolds ..).trans hqueue⟩

theorem successorDecrement_readies (he : e < s.loop.engines.length) (hst : i.st = .waiting) (h1 : i.counter = 1) (hr : i.runs = true) (heff : i.effect = false)
    (ht : canTake s i = true) :
    ∃ u, exec (.successorDecrement e) s = .next u ∧ nodeInst u k = some { i with counter := 0, st := .ready (dueNext s e c) (dueNext s e c) }
      ∧ (getEngine u e).portAt = portNext s e c := by
  have hu := successorDecrement_waiting hq hk hi hst
  rw [decrement_of_last hk hi hst h1 hr heff ht, if_neg (by simp)] at hu
  generalize dueNext s e c = q at hu ⊢
  have hset : nodeInst (setNodeInst k { i with counter := 0 } (advanceQ q s)) k = some { i with counter := 0 } := nodeInst_setNodeInst_same (s := advanceQ q s) hi
  obtain ⟨hport, -⟩ := getEngine_portDone (u := takeSlot k { i with counter := 0 } q q (setNodeInst k { i with counter := 0 } (advanceQ q s))) (q := portNext s e c) he rfl hq
  exact ⟨_, hu, (nodeInst_followHolds ..).trans (nodeInst_setNodeInst_same (i := { i with counter := 0, st := .ready q q }) hset), (portAt_followHolds ..).trans hport⟩

end

/-! ### O37: held dispatch (R263) -/

section
variable {s : State} {e n t : Nat} {c : Completion} {q : List Completion}

theorem schedStall_idle (h : (getEngine s e).stallAt = none ∨ (getEngine s e).stalled = true ∨ holdsDispatch s e = false) : exec (.schedStall e) s = .next s := by
  show execSchedStall e s = _
  unfold execSchedStall
  dsimp only
  split
  · next ht _ _ => exact if_pos (h.resolve_left (by simp [ht]) |>.imp id (by simp_all))
  · rfl

theorem schedStall_posts (ht : (getEngine s e).stallAt = some t) (hs : (getEngine s e).stage = some n) (hq : (getEngine s e).queue = c :: q)
    (hno : (getEngine s e).stalled = false) (hh : holdsDispatch s e = true) :
    exec (.schedStall e) s = .next (postMerge 0x0604#16 n (n8 e ++ zeros 3 ++ le32 c.frame)
      (updEngine e (fun y => { y with stalled := true }) (advanceQ (t + 800 * loopCyc s) s))) := by
  show execSchedStall e s = _
  simp only [execSchedStall, ht, hs, hq]
  exact if_neg (by simp [hno, hh])

end

/-- Settles O37, row by row: each row's one effect is an update of the state, and what follows it, the bookkeeping of slots, stalls and
reports, shows nothing of what the row is said to do. -/
theorem enginesChooseAndPostInOrder : Obligations.EnginesChooseAndPostInOrder := by
  unfold Obligations.EnginesChooseAndPostInOrder
  intro s e n hsized hn he
  obtain ⟨-, -, -, -, -, -, -, ⟨hstages, hengines, -⟩, -⟩ := hsized
  have hn' : n < s.loop.stages.length := by omega
  have he' : e < s.loop.engines.length := by omega
  refine ⟨fun idx reload len t hnot hno => ⟨fun hlive => ?_, fun hlive hf hc => ?_, fun f hlive hf hlen => reloadNotice_fixes hn' hnot hno hlive hf hlen,
      fun f hlive hf hspec hlen => reloadNotice_misses hn' hnot hno hlive hf hspec hlen, fun hlive hf hc => reloadNotice_opens hn' hnot hno hlive hf hc⟩,
    reloadNotice_idle, instanceDispatch_idle, instanceEnd_idle, completionPost_idle, successorDecrement_idle, schedStall_idle,
    fun y l hst hl hrun hq => instanceDispatch_ranked hst hl hrun hq, ?_, fun c t hw hlen => ⟨completionPost_full hw, fun hq => ?_⟩, fun c t hw hlen hq => ?_, ?_, ?_,
    fun t c q ht hst hq hno hh => schedStall_posts ht hst hq hno hh⟩
  · rw [reloadNotice_taken hnot hno, if_neg (by simp [hlive])]; rfl
  · rw [reloadNotice_of_live hnot hno hlive, noticeArrives_of_committed hn' hf hc]; rfl
  · rintro k i start due q hst hrun hi rfl
    refine ⟨fun hd => instanceEnd_of_dead hst hrun hi hd, fun f hd heff hf => instanceEnd_computes hst hrun hi he' hn' hd heff hf, fun hd heff => ?_, fun hd heff hacts => ?_⟩
    · obtain ⟨u, hu, hfree, htime, -⟩ := instanceEnd_acts hst hrun hi he' hd heff
      exact ⟨u, hu, hfree, htime⟩
    · obtain ⟨u, hu, hfree, htime, hrest⟩ := instanceEnd_acts hst hrun hi he' hd heff
      exact ⟨u, hu, hfree, htime, hrest hacts⟩
  · obtain ⟨u, hu, hwait, hqueue, hpwm⟩ := completionPost_posts he' hw hq
    exact ⟨u, hu, hwait, hqueue.trans (if_neg hlen), hpwm⟩
  · obtain ⟨u, hu, hwait, hqueue, hpwm⟩ := completionPost_posts he' hw hq
    exact ⟨u, hu, hwait, hqueue.trans (if_pos hlen), hpwm⟩
  · rintro c t _ k i due hq rfl hk hi hst
    exact successorDecrement_stopped hq hk hi hst
  · rintro c t _ k i _ _ hq rfl hk hi hst rfl rfl
    exact ⟨successorDecrement_lowers hq hk hi he' hst, successorDecrement_readies hq hk hi he' hst⟩

end Sys2Proof.Proofs

/-! ## The requests of the forming units -/

namespace Sys2Proof.Proofs

open Sys2Proof Sys2Proof.Machine Sys2Proof.Claims Sys2Proof.Laws

/-! ### O39: what a taken request leaves of what the cards of forming units read -/

section
variable {via : Transport} {s : State}

theorem getFu_taken (u : Nat) : getFu (taken s via) u = getFu s u := by rw [getFu, taken_fus]; rfl
theorem fuLeft_taken (u : Nat) : fuLeft (taken s via) u = fuLeft s u := by rw [taken_change]; rfl
theorem feedEnabled_taken (x : FormingUnit) : feedEnabled (taken s via) x = feedEnabled s x := by rw [taken_change]; rfl
theorem feedNominal_taken (x : FormingUnit) : feedNominal (taken s via) x = feedNominal s x := by rw [taken_change]; rfl
theorem pllLocked_taken (i : Nat) : pllLocked (taken s via) i = pllLocked s i := by rw [taken_change]; rfl
theorem modeRefused_taken (x : FormingUnit) (m : FuMode) : modeRefused (taken s via) x m = modeRefused s x m := by simp only [modeRefused, feedEnabled_taken]
theorem dev_taken : (taken s via).sys.dev = s.sys.dev := by rw [taken_sys]
theorem fuModeReply_taken (u : Nat) (a : U32) : fuModeReply (taken s via) u a = fuModeReply s u a := by rw [fuModeReply, getFu_taken]; rfl
theorem fuIdle_taken (u : Nat) : fuIdle (taken s via) u ↔ fuIdle s u := by rw [fuIdle, getFu_taken]; rfl

theorem fus_length_taken : (taken s via).fus.length = s.fus.length := by rw [taken_fus]

theorem getFu_updFu_same {s : State} {u : Nat} {f : FormingUnit → FormingUnit} (h : u < s.fus.length) : getFu (updFu u f s) u = f (getFu s u) := getD_upd_same f _ h

/-- What an update makes of the unit's own value is all that counts. -/
theorem updFu_eq_of_getFu {s : State} {u : Nat} {f g : FormingUnit → FormingUnit} (hlen : u < s.fus.length) (h : f (getFu s u) = g (getFu s u)) : updFu u f s = updFu u g s := by
  have hu : s.fus[u]? = some (getFu s u) := by rw [getFu, List.getD_eq_getElem _ _ hlen, List.getElem?_eq_getElem hlen]
  rw [updFu, updFu, upd_eq_set hu, upd_eq_set hu, h]

end

/-! ### O39: a row of the forming units (R55, R261) -/

section
variable {i : Instr} {mine : Req → Bool} {f : State → Req → CardResult} {via : Transport} {s : State} {r : Req} {op : U16}
  (hi : exec i s = .next (paramRow mine (graphCard f) via s)) (h : Takes op via s r) (hm : mine r = true)
include hi h hm

theorem fuRow_held {t : State} (hfull : paramFull s = true) (ht : t = { s with cmd := { s.cmd with held := some via } }) : exec i s = .next t := by
  rw [hi, paramRow_of_full hfull h hm, ht]

variable (hb : s.sys.dev ≠ .boot) (hroom : paramFull s = false)
include hb hroom

theorem fuRow_done {t : State} {pl : Bytes} (hf : f (taken s via) r = .done t pl) : exec i s = replied r OK pl t := by
  rw [hi, paramRow_of_room hroom]
  exact next_runCard_done h hm rfl (inAll4_of_ne_boot hb) hf

theorem fuRow_reject {st : U16} {pl : Bytes} (hf : f (taken s via) r = .reject st pl) : exec i s = replied r st pl (dropRequest s via) := by
  rw [hi, paramRow_of_room hroom]
  exact next_runCard_reject h hm rfl (inAll4_of_ne_boot hb) hf

theorem fuRow_shutting {u : Nat} (hf : f (taken s via) r = shuttingDown (fuLeft (taken s via) u)) :
    exec i s = replied r E_SHUTTING_DOWN (n32 (max (fuLeft s u) 1)) (dropRequest s via) := by
  rw [fuLeft_taken] at hf
  exact fuRow_reject hi h hm hb hroom hf

end

section
variable {via : Transport} {s : State} {r : Req}

/-- FU_CONFIG with the kind byte 0 is of the first row. -/
theorem isFuElse_of_takes (h : Takes 0x0700#16 via s r) (hlen : 2 ≤ (reqParams r).length) (hk : n8At (reqParams r) 1 = 0) : isFuElse r = true := by
  have hle : ¬ (reqParams r).length < 2 := by omega
  simp [isFuElse, isOp_takes h, fuKind, hk, hle]

theorem isFuKind_of_takes {k : Nat} (h : Takes 0x0700#16 via s r) (hlen : 2 ≤ (reqParams r).length) (hk : n8At (reqParams r) 1 = k) : isFuKind k r = true := by
  simp [isFuKind, isOp_takes h, fuKind, hk, hlen]

end

/-! ### O39: FU_CONFIG (R287, R289, R305) -/

section
variable {s : State} {u : Nat} {ok : Bool} {g : State → State}

theorem offKind_of_shutting (hu : u < 2) (hs : (getFu s u).shutting.isSome = true) : offKind s u ok g = shuttingDown (fuLeft s u) := by
  simp [offKind, hu, hs]

theorem offKind_of_running (hu : u < 2) (hs : (getFu s u).shutting = none) (hm : (getFu s u).mode ≠ .off) : offKind s u ok g = rejectWith E_STATE := by
  simp [offKind, hu, hs, hm]

theorem offKind_of_off (hu : u < 2) (hs : (getFu s u).shutting = none) (hm : (getFu s u).mode = .off) : offKind s u true g = .done (g s) [] := by
  simp [offKind, hu, hs, hm]

/-- A request of an idle unit is carried out at once (log 99). -/
theorem fuEnqueue_of_idle (h : fuIdle s u) (w : Nat) (q : FuReq) : fuEnqueue u w q s = fuLeftOver u q (enqueueParam (8 + u) w s) := by
  obtain ⟨hm, hr, hn⟩ := h
  simp [fuEnqueue, hm, hr, hn]

theorem fuLeftOver_law (c : LawConf) : fuLeftOver u (.law c) s = updFu u (fun x => { x with law := c }) s := rfl
theorem fuLeftOver_limits (c : LimConf) : fuLeftOver u (.limits c) s = updFu u (fun x => { x with lim := c }) s := rfl

/-- Any other waits for the unit's next kernel period. -/
theorem fuEnqueue_of_not_idle (h : ¬ fuIdle s u) (w : Nat) (q : FuReq) :
    fuEnqueue u w q s = updFu u (fun x => { x with reqs := x.reqs ++ [q] }) (enqueueParam (8 + u) w s) := by
  unfold fuEnqueue
  exact if_neg (by simpa [fuIdle] using h)

end

section
variable {s : State} {r : Req} {u : Nat}

/-- The settings that FU_CONFIG kind 0 gives. -/
def portOf (p : Bytes) : PortConf :=
  { split := decide (n8At p 2 = 1), fn := u32At p 4, vb := u32At p 8, sb := u32At p 12, fk := u32At p 16, dfmax := u32At p 20, emax := u32At p 24, bpll := u32At p 28 }

/-- Its ranges (spec/11). -/
def portRanges (p : Bytes) : Prop :=
  p.length = 36 ∧ n8At p 2 ≤ 1 ∧ byteAt p 3 = 0 ∧ zeroAt p 32 4 = true ∧ (u32At p 4 = 0x42480000#32 ∨ u32At p 4 = 0x42700000#32) ∧ f32In (u32At p 8) 50 400 = true
    ∧ f32In (u32At p 12) 1000 200000 = true ∧ f32In (u32At p 16) 10000 100000 = true ∧ f32In (u32At p 20) (1 / 2) 5 = true ∧ f32In (u32At p 24) 1 (13 / 10) = true
    ∧ f32In (u32At p 28) 1 100 = true

/-- The port's settings come to an OFF unit alone. -/
theorem fuPortRun_eq (hlen : 2 ≤ (reqParams r).length) (hk : n8At (reqParams r) 1 = 0) (hu : n8At (reqParams r) 0 = u) :
    ∃ ok, (portRanges (reqParams r) → ok = true) ∧
      fuPortRun s r = offKind s u ok (fun s => enqueueParam (8 + u) 9 (updFu u (fun x => { x with port := portOf (reqParams r) }) s)) := by
  subst hu
  refine ⟨_, ?_, if_neg (by omega)⟩
  rintro h
  simpa only [portRanges, Rat.mkRat_eq_div, Int.cast_ofNat, Int.cast_one, Nat.cast_ofNat, decide_eq_true_eq] using h

/-- The settings that FU_CONFIG kind 3 gives. -/
def syncOf (p : Bytes) : SyncConf :=
  { islAuto := decide (n8At p 2 = 1), closeDf := u32At p 4, closeDth := u32At p 8, closeDv := u32At p 12, islDf := u32At p 16, islTime := u32At p 20, bsRate := u32At p 24, bsDead := u32At p 28 }

/-- Its ranges (spec/12). -/
def syncRanges (p : Bytes) : Prop :=
  p.length = 40 ∧ n8At p 2 ≤ 1 ∧ byteAt p 3 = 0 ∧ zeroAt p 32 8 = true ∧ f32In (u32At p 4) (1 / 100) (1 / 2) = true ∧ f32In (u32At p 8) (1 / 1000) (1 / 10) = true
    ∧ f32In (u32At p 12) (5 / 1000) (1 / 10) = true ∧ f32In (u32At p 16) (1 / 10) 2 = true ∧ f32In (u32At p 20) (1 / 100) 2 = true ∧ f32In (u32At p 24) (1 / 10) 50 = true
    ∧ f32In (u32At p 28) (2 / 100) (3 / 10) = true

theorem fuSyncRun_eq (hu : n8At (reqParams r) 0 = u) :
    ∃ ok, (syncRanges (reqParams r) → ok = true) ∧
      fuSyncRun s r = offKind s u ok (fun s => enqueueParam (8 + u) 10 (updFu u (fun x => { x with sync := syncOf (reqParams r) }) s)) := by
  subst hu
  refine ⟨_, ?_, rfl⟩
  rintro h
  simpa only [syncRanges, Rat.mkRat_eq_div, Int.cast_ofNat, Int.cast_one, Nat.cast_ofNat, decide_eq_true_eq] using h

theorem fuLawRun_of_ranges (h : lawRanges (reqParams r)) (hu : n8At (reqParams r) 0 = u) : fuLawRun s r = .done (fuEnqueue u 16 (.law (lawOf (reqParams r))) s) [] := by
  subst hu
  obtain ⟨hlen, hu, -, h⟩ := h
  refine if_neg ?_
  simpa only [Rat.mkRat_eq_div, Int.cast_ofNat, Int.cast_one, Nat.cast_ofNat, Bool.not_eq_true', decide_eq_false_iff_not, not_not] using ⟨hlen, hu, h⟩

theorem fuLimRun_of_ranges (h : limRanges (reqParams r)) (hu : n8At (reqParams r) 0 = u) : fuLimRun s r = .done (fuEnqueue u 10 (.limits (limOf (reqParams r))) s) [] := by
  subst hu
  obtain ⟨hlen, hu, -, h⟩ := h
  refine if_neg ?_
  simpa only [Rat.mkRat_eq_div, Int.cast_ofNat, Int.cast_one, Nat.cast_ofNat, Bool.not_eq_true', decide_eq_false_iff_not, not_not] using ⟨hlen, hu, h⟩

end

/-! ### O39: FU_MODE (R290, R307 to R309) -/

section
variable {s : State} {r : Req} {u : Nat} {m : FuMode}

theorem modeRefused_eq_false {x : FormingUnit} (hl : modeListed x m = true) (hen : x.mode = .off → feedEnabled s x = true) : modeRefused s x m = false := by
  by_cases hoff : x.mode = .off
  · simp [modeRefused, hl, hen hoff]
  · simp [modeRefused, hl, hoff]

theorem fuModeOf_ne_off {k : Nat} (h : k ≠ 0) : fuModeOf k ≠ some .off := by
  unfold fuModeOf
  split <;> simp_all

variable (hu : n8At (reqParams r) 0 = u) (hu2 : u < 2)
include hu hu2

theorem fuModeRun_of_shutting (hk : n8At (reqParams r) 1 ≠ 0) (hdev : s.sys.dev = .run) (hs : (getFu s u).shutting.isSome = true) :
    fuModeRun s r = shuttingDown (fuLeft s u) := by
  simp [fuModeRun, hu, hu2, fuModeOf_ne_off hk, hdev, hs]

variable (hk : fuModeOf (n8At (reqParams r) 1) = some m)
include hk

omit hu hu2 in
theorem fuModeRun_of_not_run (hm : m ≠ .off) (hdev : s.sys.dev ≠ .run) : fuModeRun s r = rejectWith E_STATE := by
  simp [fuModeRun, hk, hm, hdev]

/-- Past the checks of the states of the device, of the unit and of its feeding stage a mode other than OFF is checked by its parameters, the port's band and the lock. -/
theorem fuModeRun_taken_of_mode {via : Transport} (hm : m ≠ .off) (hdev : s.sys.dev = .run) (hs : (getFu s u).shutting = none) :
    fuModeRun (taken s via) r = if modeRefused s (getFu s u) m then rejectWith E_STATE
      else if (reqParams r).length ≠ 4 ∨ !zeroAt (reqParams r) 2 2 then rejectWith E_PARAM
      else if (getFu s u).mode = .off ∧ !feedNominal s (getFu s u) then rejectWith E_PARAM
      else if !pllLocked s 0 then rejectWith E_NOT_READY
      else .done (enqueueParam (8 + u) 1 (updFu u (fun x => { x with reqs := x.reqs ++ [.mode m] }) (taken s via))) (fuModeReply s u (nextKernel (getFu s u))) := by
  have hge : ¬ u ≥ 2 := by omega
  simp only [fuModeRun, hu, hk, getFu_taken, modeRefused_taken, feedNominal_taken, pllLocked_taken, fuModeReply_taken, dev_taken, hs, hdev, hm, hu2, hge, Option.any_some, Option.isSome_none, ne_eq,
    not_true_eq_false, and_false, if_false, true_and, false_or, Bool.false_eq_true]

end

section
variable {s : State} {r : Req} {u : Nat} (hu : n8At (reqParams r) 0 = u) (hu2 : u < 2)
include hu hu2

section
variable (hlen : (reqParams r).length = 4) (hz : zeroAt (reqParams r) 2 2 = true) (hk : n8At (reqParams r) 1 = 0)
include hlen hz hk

/-- OFF changes nothing else on a unit that is OFF. -/
theorem fuModeRun_off_of_off (hm : (getFu s u).mode = .off) : fuModeRun s r = .done (enqueueParam (8 + u) 1 s) (fuModeReply s u 0xFFFFFFFF#32) := by
  simp [fuModeRun, fuModeOf, modeRefused, hu, hu2, hlen, hz, hk, hm]

/-- OFF starts the shutdown of a unit that is on. -/
theorem fuModeRun_off_of_on (hm : (getFu s u).mode ≠ .off) (hs : (getFu s u).shutting = none) :
    fuModeRun s r = .done (enqueueParam (8 + u) 1 (updFu u (fun x => { x with shutting := some s.time.raw, reqs := x.reqs ++ [.off] }) s))
      (fuModeReply (enqueueParam (8 + u) 1 (updFu u (fun x => { x with shutting := some s.time.raw, reqs := x.reqs ++ [.off] }) s)) u (nextKernel (getFu s u))) := by
  simp [fuModeRun, fuModeOf, modeRefused, hu, hu2, hlen, hz, hk, hm, hs]

end

/-! ### O39: FU_SETPOINT (R305) -/

theorem fuSetpointRun_of_shutting (hs : (getFu s u).shutting.isSome = true) : fuSetpointRun s r = shuttingDown (fuLeft s u) := by
  simp [fuSetpointRun, hu, hu2, hs]

/-- The set-points of a request are within the limits of the unit's port (spec/11). -/
def setpRanges (c : PortConf) (p : Bytes) : Prop :=
  p.length = 20 ∧ 1 ≤ n8At p 1 ∧ n8At p 1 ≤ 15 ∧ zeroAt p 2 2 = true ∧ f32In (u32At p 4) (-(f32Val c.sb)) (f32Val c.sb) = true ∧ f32In (u32At p 8) (-(f32Val c.sb)) (f32Val c.sb) = true
    ∧ f32In (u32At p 12) (f32Val c.fn - f32Val c.dfmax) (f32Val c.fn + f32Val c.dfmax) = true ∧ f32In (u32At p 16) (f32Val c.vb * (8 / 10)) (f32Val c.vb * (11 / 10)) = true

theorem fuSetpointRun_of_ranges (hs : (getFu s u).shutting = none) (h : setpRanges (getFu s u).port (reqParams r)) :
    fuSetpointRun s r = .done (fuEnqueue u 5 (.setp (n8At (reqParams r) 1) ((List.range 4).map (fun i => f32Param (u32At (reqParams r) (4 + 4 * i))))) s)
      (le32 (if (getFu s u).mode = .off then 0xFFFFFFFF#32 else nextKernel (getFu s u))) := by
  subst hu
  obtain ⟨hlen, h⟩ := h
  refine (if_neg (by simp [hs])).trans (if_neg ?_)
  simpa only [Rat.mkRat_eq_div, Int.cast_ofNat, Nat.cast_ofNat, Bool.not_eq_true', decide_eq_false_iff_not, not_not] using ⟨hlen, hu2, h⟩

/-! ### O39: FU_SCHEDULE (R336) -/

theorem fuScheduleRun_of_shutting (hs : (getFu s u).shutting.isSome = true) : fuScheduleRun s r = shuttingDown (fuLeft s u) := by
  simp [fuScheduleRun, hu, hu2, hs]

/-- The ranges of a schedule (spec/12). -/
def schedRanges (c : PortConf) (p : Bytes) : Prop :=
  p.length = 28 ∧ n8At p 1 ≤ 1 ∧ n8At p 2 ≤ 3 ∧ byteAt p 3 = 0 ∧ 100 ≤ n32At p 8 ∧ n32At p 8 ≤ 600000 ∧ f32In (u32At p 12) 0 1 = true ∧ f32In (u32At p 16) 0 1 = true
    ∧ f32In (u32At p 20) 0 2 = true ∧ f32In (u32At p 24) 0 (f32Val c.vb / 10) = true

/-- On a running domain the unit's schedule becomes one that runs from the request's anchor, or the present one paused. -/
theorem fuScheduleRun_of_ranges (hs : (getFu s u).shutting = none) (h : schedRanges (getFu s u).port (reqParams r)) (hd : tdRunning (getTd s (n8At (reqParams r) 2)) = true) :
    ∃ c : FuSched, fuScheduleRun s r = .done (enqueueParam (8 + u) 7 (updFu u (fun y => { y with sched := c }) s)) []
      ∧ (n8At (reqParams r) 1 = 1 → c.on = true ∧ c.paused = false ∧ c.domain = n8At (reqParams r) 2 ∧ c.anchor = n32At (reqParams r) 4 ∧ c.period = n32At (reqParams r) 8)
      ∧ (n8At (reqParams r) 1 = 0 → c = { (getFu s u).sched with paused := (getFu s u).sched.on }) := by
  subst hu
  obtain ⟨hlen, h⟩ := h
  refine ⟨_, (if_neg (by simp [hs])).trans ((if_neg ?_).trans (if_neg (by simp [hd]))), fun hk => ?_, fun hk => ?_⟩
  · simpa only [Bool.not_eq_true', decide_eq_false_iff_not, not_not] using ⟨hlen, hu2, h⟩
  · simp [hk]
  · simp [hk]

end

/-! ### O39: requests that are taken -/

section
variable {via : Transport} {s : State} {r : Req} {u : Nat} (hb : s.sys.dev ≠ .boot) (hroom : paramFull s = false) (hu : n8At (reqParams r) 0 = u) (hu2 : u < 2)
include hb hroom

/-- A request that waits for the unit's kernel period is carried out at once where the unit is idle. -/
theorem fuRow_enqueued {i : Instr} {mine : Req → Bool} {f : State → Req → CardResult} {op : U16} {w : Nat} {q : FuReq} {pl : Bytes} (hi : exec i s = .next (paramRow mine (graphCard f) via s))
    (h : Takes op via s r) (hm : mine r = true) (hf : f (taken s via) r = .done (fuEnqueue u w q (taken s via)) pl) :
    (fuIdle s u → exec i s = replied r OK pl (fuLeftOver u q (enqueueParam (8 + u) w (taken s via))))
    ∧ (¬ fuIdle s u → exec i s = replied r OK pl (updFu u (fun x => { x with reqs := x.reqs ++ [q] }) (enqueueParam (8 + u) w (taken s via)))) := by
  refine ⟨fun hidle => fuRow_done hi h hm hb hroom (hf.trans ?_), fun hidle => fuRow_done hi h hm hb hroom (hf.trans ?_)⟩
  · rw [fuEnqueue_of_idle ((fuIdle_taken u).mpr hidle)]
  · rw [fuEnqueue_of_not_idle (mt (fuIdle_taken u).mp hidle)]

include hu hu2

theorem fuConfigPort_of_off (h : Takes 0x0700#16 via s r) (hoff : (getFu s u).mode = .off) (hs : (getFu s u).shutting = none) (hk : n8At (reqParams r) 1 = 0) (hr : portRanges (reqParams r)) :
    exec (.fuConfigPort via) s = replied r OK [] (enqueueParam (8 + u) 9 (updFu u (fun x => { x with port := portOf (reqParams r) }) (taken s via))) := by
  have hlen : 2 ≤ (reqParams r).length := by have := hr.1; omega
  obtain ⟨ok, hok, hrun⟩ := fuPortRun_eq (s := taken s via) hlen hk hu
  rw [hok hr] at hrun
  rw [← getFu_taken] at hs hoff
  exact fuRow_done rfl h (isFuElse_of_takes h hlen hk) hb hroom (hrun.trans (offKind_of_off hu2 hs hoff))

omit hu2 in
theorem fuConfigLaw_of_ranges (h : Takes 0x0700#16 via s r) (hr : lawRanges (reqParams r)) :
    (fuIdle s u → exec (.fuConfigLaw via) s = replied r OK [] (updFu u (fun x => { x with law := lawOf (reqParams r) }) (enqueueParam (8 + u) 16 (taken s via))))
    ∧ (¬ fuIdle s u → exec (.fuConfigLaw via) s = replied r OK [] (updFu u (fun x => { x with reqs := x.reqs ++ [.law (lawOf (reqParams r))] }) (enqueueParam (8 + u) 16 (taken s via)))) := by
  obtain ⟨hlen, -, hk, -⟩ := id hr
  have hrun := fuLawRun_of_ranges (s := taken s via) hr hu
  rw [← fuLeftOver_law]
  exact fuRow_enqueued (i := .fuConfigLaw via) hb hroom rfl h (isFuKind_of_takes h (by omega) hk) hrun

omit hu2 in
theorem fuConfigLimits_of_ranges (h : Takes 0x0700#16 via s r) (hr : limRanges (reqParams r)) :
    (fuIdle s u → exec (.fuConfigLimits via) s = replied r OK [] (updFu u (fun x => { x with lim := limOf (reqParams r) }) (enqueueParam (8 + u) 10 (taken s via))))
    ∧ (¬ fuIdle s u → exec (.fuConfigLimits via) s = replied r OK [] (updFu u (fun x => { x with reqs := x.reqs ++ [.limits (limOf (reqParams r))] }) (enqueueParam (8 + u) 10 (taken s via)))) := by
  obtain ⟨hlen, -, hk, -⟩ := id hr
  have hrun := fuLimRun_of_ranges (s := taken s via) hr hu
  rw [← fuLeftOver_limits]
  exact fuRow_enqueued (i := .fuConfigLimits via) hb hroom rfl h (isFuKind_of_takes h (by omega) hk) hrun

theorem fuConfigSync_of_off (h : Takes 0x0700#16 via s r) (hoff : (getFu s u).mode = .off) (hs : (getFu s u).shutting = none) (hk : n8At (reqParams r) 1 = 3) (hr : syncRanges (reqParams r)) :
    exec (.fuConfigSync via) s = replied r OK [] (enqueueParam (8 + u) 10 (updFu u (fun x => { x with sync := syncOf (reqParams r) }) (taken s via))) := by
  have hlen : 2 ≤ (reqParams r).length := by have := hr.1; omega
  obtain ⟨ok, hok, hrun⟩ := fuSyncRun_eq (s := taken s via) hu
  rw [hok hr] at hrun
  rw [← getFu_taken] at hs hoff
  exact fuRow_done rfl h (isFuKind_of_takes h hlen hk) hb hroom (hrun.trans (offKind_of_off hu2 hs hoff))

section
variable (h : Takes 0x0701#16 via s r) (hlen : (reqParams r).length = 4) (hz : zeroAt (reqParams r) 2 2 = true) (hk : n8At (reqParams r) 1 = 0)
include h hlen hz hk

theorem fuMode_off_of_off (hoff : (getFu s u).mode = .off) : exec (.fuMode via) s = replied r OK (fuModeReply s u 0xFFFFFFFF#32) (enqueueParam (8 + u) 1 (taken s via)) := by
  have hrun := fuModeRun_off_of_off (s := taken s via) hu hu2 hlen hz hk (by rwa [getFu_taken])
  rw [fuModeReply_taken] at hrun
  exact fuRow_done rfl h (isOp_takes h) hb hroom hrun

theorem fuMode_off_of_on (hon : (getFu s u).mode ≠ .off) (hs : (getFu s u).shutting = none) :
    ∃ t, exec (.fuMode via) s = replied r OK (fuModeReply t u (nextKernel (getFu s u))) t
      ∧ t = enqueueParam (8 + u) 1 (updFu u (fun x => { x with shutting := some s.time.raw, reqs := x.reqs ++ [.off] }) (taken s via)) := by
  have hrun := fuModeRun_off_of_on (s := taken s via) hu hu2 hlen hz hk (by rwa [getFu_taken]) (by rwa [getFu_taken])
  rw [getFu_taken, taken_time] at hrun
  exact ⟨_, fuRow_done rfl h (isOp_takes h) hb hroom hrun, rfl⟩

end

theorem fuMode_of_listed {k : Nat} {m : FuMode} (h : Takes 0x0701#16 via s r) (hdev : s.sys.dev = .run) (hp : reqParams r = [BitVec.ofNat 8 u, BitVec.ofNat 8 k, 0, 0]) (hk : k < 6)
    (hkm : fuModeOf k = some m) (hm : m ≠ .off) (hs : (getFu s u).shutting = none) (hl : modeListed (getFu s u) m = true)
    (hf : (getFu s u).mode = .off → feedEnabled s (getFu s u) = true ∧ feedNominal s (getFu s u) = true) (hlock : pllLocked s 0 = true) :
    exec (.fuMode via) s = replied r OK (fuModeReply s u (nextKernel (getFu s u))) (enqueueParam (8 + u) 1 (updFu u (fun x => { x with reqs := x.reqs ++ [.mode m] }) (taken s via))) := by
  have hcode : n8At (reqParams r) 1 = k := by rw [hp]; simp [n8At, byteAt]; omega
  have hz : zeroAt (reqParams r) 2 2 = true := by rw [hp]; rfl
  have hlen : (reqParams r).length = 4 := by rw [hp]; rfl
  have hok : modeRefused s (getFu s u) m = false := modeRefused_eq_false hl fun hoff => (hf hoff).1
  have hnom : ¬ ((getFu s u).mode = .off ∧ feedNominal s (getFu s u) = false) := fun ⟨hoff, hn⟩ => by simp [(hf hoff).2] at hn
  refine fuRow_done rfl h (isOp_takes h) hb hroom ((fuModeRun_taken_of_mode hu hu2 (by rw [hcode, hkm]) hm hdev hs).trans ?_)
  simp [hok, hlen, hz, hnom, hlock]

theorem fuSetpoint_of_ranges (h : Takes 0x0702#16 via s r) (hs : (getFu s u).shutting = none) (hr : setpRanges (getFu s u).port (reqParams r)) {vals : List F32}
    (hv : vals = (List.range 4).map (fun i => f32Param (u32At (reqParams r) (4 + 4 * i)))) :
    (fuIdle s u → exec (.fuSetpoint via) s = replied r OK (le32 0xFFFFFFFF#32)
      (updFu u (fun x => { x with stored := storeTargets (n8At (reqParams r) 1) vals x.stored }) (enqueueParam (8 + u) 5 (taken s via))))
    ∧ (¬ fuIdle s u → exec (.fuSetpoint via) s = replied r OK (le32 (if (getFu s u).mode = .off then 0xFFFFFFFF#32 else nextKernel (getFu s u)))
      (updFu u (fun x => { x with reqs := x.reqs ++ [.setp (n8At (reqParams r) 1) vals] }) (enqueueParam (8 + u) 5 (taken s via)))) := by
  subst hv
  have hrun := fuSetpointRun_of_ranges (s := taken s via) hu hu2 (by rwa [getFu_taken]) (by rwa [getFu_taken])
  rw [getFu_taken] at hrun
  obtain ⟨hidle, hwait⟩ := fuRow_enqueued (i := .fuSetpoint via) hb hroom rfl h (isOp_takes h) hrun
  refine ⟨fun hi => ?_, hwait⟩
  rw [if_pos hi.1] at hidle
  exact hidle hi

section
variable (hfus : s.fus.length = 2) (h : Takes 0x0703#16 via s r) (hs : (getFu s u).shutting = none) (hr : schedRanges (getFu s u).port (reqParams r))
  (hd : tdRunning (getTd s (n8At (reqParams r) 2)) = true)
include hfus h hs hr hd

theorem fuSchedule_starts (hk : n8At (reqParams r) 1 = 1) :
    ∃ t, exec (.fuSchedule via) s = replied r OK [] t ∧ (getFu t u).sched.on = true ∧ (getFu t u).sched.paused = false ∧ (getFu t u).sched.domain = n8At (reqParams r) 2
      ∧ (getFu t u).sched.anchor = n32At (reqParams r) 4 ∧ (getFu t u).sched.period = n32At (reqParams r) 8
      ∧ t = enqueueParam (8 + u) 7 (updFu u (fun x => { x with sched := (getFu t u).sched }) (taken s via)) := by
  obtain ⟨c, hrun, hstart, -⟩ := fuScheduleRun_of_ranges (s := taken s via) hu hu2 (by rwa [getFu_taken]) (by rwa [getFu_taken]) (by rwa [getTd_taken])
  have hc : (getFu (enqueueParam (8 + u) 7 (updFu u (fun y => { y with sched := c }) (taken s via))) u).sched = c :=
    congrArg FormingUnit.sched (getFu_updFu_same (by rw [fus_length_taken, hfus]; exact hu2))
  refine ⟨_, fuRow_done rfl h (isOp_takes h) hb hroom hrun, ?_⟩
  obtain ⟨hon, hpaused, hdom, hanchor, hperiod⟩ := hstart hk
  rw [hc]
  exact ⟨hon, hpaused, hdom, hanchor, hperiod, rfl⟩

theorem fuSchedule_pauses (hk : n8At (reqParams r) 1 = 0) :
    exec (.fuSchedule via) s = replied r OK [] (enqueueParam (8 + u) 7 (updFu u (fun x => { x with sched := { x.sched with paused := x.sched.on } }) (taken s via))) := by
  obtain ⟨c, hrun, -, hpause⟩ := fuScheduleRun_of_ranges (s := taken s via) hu hu2 (by rwa [getFu_taken]) (by rwa [getFu_taken]) (by rwa [getTd_taken])
  have hin : u < (taken s via).fus.length := by rw [fus_length_taken, hfus]; exact hu2
  refine (fuRow_done rfl h (isOp_takes h) hb hroom hrun).trans ?_
  exact congrArg (fun t => replied r OK [] (enqueueParam (8 + u) 7 t)) (updFu_eq_of_getFu hin (by rw [hpause hk]))

end
end

/-! ### O39: the statement -/

/-- Settles O39, request by request: each enters or is held by the row of the parameter queue, and its card is read by the checks of spec/11 and spec/12. -/
theorem formingRequests : Obligations.FormingRequests := by
  unfold Obligations.FormingRequests
  rintro via s r p u hb rfl hu hu2 ⟨-, -, -, -, -, -, -, -, -, -, -, hfus, -⟩
  have hfu : getFu (taken s via) u = getFu s u := getFu_taken u
  refine ⟨fun held hfull ht => ?_, ?_, ?_, ?_⟩
  · have hrow {i : Instr} {mine : Req → Bool} {f : State → Req → CardResult} {op : U16} (h : Takes op via s r) (hm : mine r = true) (hi : exec i s = .next (paramRow mine (graphCard f) via s)) : exec i s = .next held :=
      fuRow_held hi h hm hfull ht
    exact ⟨fun h => ⟨fun hm => hrow h hm rfl, fun hm => hrow h hm rfl, fun hm => hrow h hm rfl, fun hm => hrow h hm rfl⟩,
      fun h => hrow h (isOp_takes h) rfl, fun h => hrow h (isOp_takes h) rfl, fun h => hrow h (isOp_takes h) rfl⟩
  · rintro w hroom hs rfl
    rw [← hfu] at hs
    refine ⟨fun h hlen => ⟨fun hk => ?_, fun hk => ?_⟩, fun h hdev hk => ?_, fun h => ?_, fun h => ?_⟩
    · obtain ⟨ok, -, hrun⟩ := fuPortRun_eq (s := taken s via) hlen hk hu
      exact fuRow_shutting rfl h (isFuElse_of_takes h hlen hk) hb hroom (hrun.trans (offKind_of_shutting hu2 hs))
    · obtain ⟨ok, -, hrun⟩ := fuSyncRun_eq (s := taken s via) hu
      exact fuRow_shutting rfl h (isFuKind_of_takes h hlen hk) hb hroom (hrun.trans (offKind_of_shutting hu2 hs))
    · exact fuRow_shutting rfl h (isOp_takes h) hb hroom (fuModeRun_of_shutting hu hu2 hk (dev_taken.trans hdev) hs)
    · exact fuRow_shutting rfl h (isOp_takes h) hb hroom (fuSetpointRun_of_shutting hu hu2 hs)
    · exact fuRow_shutting rfl h (isOp_takes h) hb hroom (fuScheduleRun_of_shutting hu hu2 hs)
  · refine fun hroom hs => ⟨fun h hmode hlen => ⟨fun hk => ?_, fun hk => ?_⟩, fun m h hk hm => ⟨fun hdev => ?_, fun hdev href => ?_, fun hdev hlen hz hl hen => ⟨fun hoff hnom => ?_, fun hnom hlock => ?_⟩⟩⟩
    · obtain ⟨ok, -, hrun⟩ := fuPortRun_eq (s := taken s via) hlen hk hu
      rw [← hfu] at hs hmode
      exact fuRow_reject rfl h (isFuElse_of_takes h hlen hk) hb hroom (hrun.trans (offKind_of_running hu2 hs hmode))
    · obtain ⟨ok, -, hrun⟩ := fuSyncRun_eq (s := taken s via) hu
      rw [← hfu] at hs hmode
      exact fuRow_reject rfl h (isFuKind_of_takes h hlen hk) hb hroom (hrun.trans (offKind_of_running hu2 hs hmode))
    · exact fuRow_reject rfl h (isOp_takes h) hb hroom (fuModeRun_of_not_run hk hm (dev_taken.trans_ne hdev))
    · refine fuRow_reject rfl h (isOp_takes h) hb hroom ((fuModeRun_taken_of_mode hu hu2 hk hm hdev hs).trans (if_pos ?_))
      rcases href with hl | ⟨hoff, hen⟩
      · simp [modeRefused, hm, hl]
      · simp [modeRefused, hm, hoff, hen]
    all_goals have hok := modeRefused_eq_false hl hen
    · refine fuRow_reject rfl h (isOp_takes h) hb hroom ((fuModeRun_taken_of_mode hu hu2 hk hm hdev hs).trans ?_)
      simp [hok, hlen, hz, hoff, hnom, rejectWith]
    · refine fuRow_reject rfl h (isOp_takes h) hb hroom ((fuModeRun_taken_of_mode hu hu2 hk hm hdev hs).trans ?_)
      simp +contextual [hok, hlen, hz, hnom, hlock, rejectWith]
  · refine fun hroom => ⟨?_, fun h hr => ?_, fun h hr => ?_, ?_, fun h hp => ?_, ?_, ?_, ?_⟩
    · intro h hoff hs hlen hk h2 h3 hz hfn hvb hsb hfk hdf hem hbp
      exact fuConfigPort_of_off hb hroom hu hu2 h hoff hs hk ⟨hlen, h2, h3, hz, hfn, hvb, hsb, hfk, hdf, hem, hbp⟩
    · exact fuConfigLaw_of_ranges hb hroom hu h hr
    · exact fuConfigLimits_of_ranges hb hroom hu h hr
    · intro h hoff hs hlen hk h2 h3 hz h4 h8 h12 h16 h20 h24 h28
      exact fuConfigSync_of_off hb hroom hu hu2 h hoff hs hk ⟨hlen, h2, h3, hz, h4, h8, h12, h16, h20, h24, h28⟩
    · have hlen : (reqParams r).length = 4 := by rw [hp]; rfl
      have hz : zeroAt (reqParams r) 2 2 = true := by rw [hp]; rfl
      have hk : n8At (reqParams r) 1 = 0 := by rw [hp]; rfl
      exact ⟨fuMode_off_of_off hb hroom hu hu2 h hlen hz hk, fuMode_off_of_on hb hroom hu hu2 h hlen hz hk⟩
    · exact fun k m h => fuMode_of_listed hb hroom hu hu2 h
    · rintro k vals h hlen rfl h1 h15 hz hs hpq hf hv hvals
      exact fuSetpoint_of_ranges hb hroom hu hu2 h hs ⟨hlen, h1, h15, hz, hpq 0 (by omega), hpq 1 (by omega), hf, hv⟩ hvals
    · rintro d h hlen rfl hd h3 h8 h8' h12 h16 h20 h24 hs hrun
      have hr (hk : n8At (reqParams r) 1 ≤ 1) : schedRanges (getFu s u).port (reqParams r) := ⟨hlen, hk, by omega, h3, h8, h8', h12, h16, h20, h24⟩
      exact ⟨fun hk => fuSchedule_starts hb hroom hu hu2 hfus h hs (hr (by omega)) hrun hk, fun hk => fuSchedule_pauses hb hroom hu hu2 hfus h hs (hr (by omega)) hrun hk⟩

end Sys2Proof.Proofs
